-- ==== Sys2Proof/Word.lean ====
section
/-! DEFINITION. The word types of the LH8: bytes of cells and memories, and 32-bit registers (R16). -/
namespace Sys2Proof

/-- One byte of a cell, a command body or a memory. -/
abbrev Byte := BitVec 8

/-- One register: 32 bits, bit 31 the most significant (R16). -/
abbrev Word := BitVec 32

end Sys2Proof
end

