-- ==== Sys2Proof/Config.lean ====
section
/-! DEFINITION. What an implementation fixes and the values the manual leaves open: constants with no body,
so that nothing in Lean can evaluate them or prove a value of one (notes/assumptions/2 and 8). -/
namespace Sys2Proof

/-- The n-th value the manual leaves open, drawn by a step that advances `State.free` (notes/assumptions/2). -/
opaque Config.freeValue : Nat → BitVec 64

/-- AES-128-CMAC of RFC 4493, which R268 and R271 name: key bytes, message bytes (notes/assumptions/8). -/
opaque Config.aesCmac : List Byte → List Byte → BitVec 128

/-- Ed25519 verification of RFC 8032, which R267 and R445 name: public key, signature, message
(notes/assumptions/8). -/
opaque Config.ed25519 : List Byte → List Byte → List Byte → Bool

/-- SHA-512, which R445 names for key hashes and image digests (notes/assumptions/8). -/
opaque Config.sha512 : List Byte → BitVec 512

/-- The factory trim A_trim of R241 in 2^-32 ns, by mode, FEC and width, with the corrections of the images of Table 18.4
(ID and correction): the manual gives its numbers nowhere (notes/assumptions/24). -/
opaque Config.asymTrim : Nat → List (Nat × Int) → Int

/-- What corrections of the timestamp constants (IDs 0x0001 to 0x00FF of Table 18.6) add to a timestamp of a line port, by mode, FEC and
width: the manual does not say which ID serves which (notes/assumptions/24). -/
opaque Config.stampTrim : Nat → List (Nat × Int) → Int

/-- What corrections of a TN die's PHY trims (R375) add to a stamp, by port and speed: the manual does not say which ID serves which
(notes/assumptions/24). -/
opaque Config.phyTrim : Nat → List (Nat × Int) → Int

/-- The identity of the LD die, whose 16 hexadecimal digits the SVC serial string shows (Table 13.9): each part has its own
(notes/assumptions/27). -/
opaque Config.ldIdentity : BitVec 64

/-- Whether a die of a role has a factory trim of this ID (Table 18.6): the manual lists no IDs (notes/assumptions/39). -/
opaque Config.trimKnown : Nat → Nat → Bool

end Sys2Proof
end

