-- ==== Sys2Proof/Syntax.lean ====
section
/-! DEFINITION. The commands the block takes: one constructor of `Instr` per row of spec/opcode_table.json, with the
operands that come from outside the part (a received word, a command body, a written value, what the hardware
measures or finds at that instant). A row that is the end of a time or of internal work carries no time: its arrival
says that the time has ended (notes/assumptions/1). -/
namespace Sys2Proof

/-- The command entry points of Table 1.5, and the boot script player as the fourth requester (R191). -/
inductive EntryPoint where
  | line | host | svc | boot
deriving DecidableEq, Repr

/-- What carries a command to its entry point: CMD frames, HSPI, the PCIe mailbox, the SVC endpoints, or the boot
script player (Table 1.5, R37). -/
inductive Attach where
  | frame | hspi | mbox | usb | script
deriving DecidableEq, Repr

/-- A cell (Table 3.1, R92): header fields and the 116 payload bytes. Its CRC-32C is a function of these (R97). -/
structure Cell where
  dst : Nat
  src : Nat
  tun : Nat
  tc : Nat
  typ : Nat
  f : Bool
  l : Bool
  vlen : Nat
  xpr : Bool
  ver : Nat
  payload : List Byte
deriving DecidableEq, Repr

/-- A link-memory word read in a cell time: the entry of a cell address, its 64 bits below its CRC-8 (R153), or the descriptor of the
output queue or park list of a switch port and class, HEAD, TAIL and COUNT below its CRC-8 (R154). -/
inductive LinkRead where
  | entry (addr : BitVec 18) (word : BitVec 72)
  | outDesc (p : Fin 18) (c : Fin 8) (word : BitVec 63)
  | parkDesc (p : Fin 18) (c : Fin 8) (word : BitVec 63)
deriving DecidableEq, Repr

/-- An ordered-set word (R64): its TYPE and its 48-bit BODY; BODY bit 0 is word bit 8. -/
structure OsWord where
  typ : Nat
  body : Nat
deriving DecidableEq, Repr

/-- An accepted command (Table 10.1 or 10.9): what the reply needs. `seq` of a v1 command is its LH4 sequence.
`inPort` is the line port a LINE frame entered on, `bcast` says that the frame came with a broadcast DST (R274). -/
structure Origin where
  ep : EntryPoint
  att : Attach
  op : Nat
  tag : Nat
  flags : Nat
  session : Nat
  seq : Nat
  target : Nat
  source : Nat
  src : Nat
  tun : Nat
  xpr : Bool
  v1 : Bool
  bcast : Bool
  inPort : Option Nat
deriving DecidableEq, Repr

/-- A line port HL0-HL3. -/
abbrev LPort := Fin 4

/-- A die slot S0-S7. -/
abbrev Slot := Fin 8

/-- A Type-C port: a TU port 0 to 7, or the SVC port (R299). -/
inductive PdPort where
  | tu (t : Fin 8)
  | svc
deriving DecidableEq, Repr

/-- A partner's answer to a structured VDM of discovery (R319): Discover Identity with ACK, its IDs and whether it runs VDM
version 1.0; SVIDs with or without 0xFF01; Modes with the UFP_D pin assignments it takes, bit 0 C and bit 1 D. -/
inductive PartnerAnswer where
  | identity (ack : Bool) (vid pid : BitVec 16) (v10 : Bool)
  | svids (dp : Bool)
  | modes (pins : BitVec 2)
deriving DecidableEq, Repr

/-- A sideband flit as it arrives (R25): its bits, and whether its check is good. -/
structure SideFlit where
  bits : BitVec 64
  crcGood : Bool
deriving DecidableEq, Repr

/-- Who reads a counter: a requester at its address, or the server the DWORD at an offset of BAR0 (R378). -/
inductive CtrReader where
  | requester (r : EntryPoint)
  | window
deriving DecidableEq, Repr

/-- The commands: one constructor per row of the opcode table, in the table's order. -/
inductive Instr where
  /-- REGISTER_WRITE (R18). -/
  | registerWrite (req : EntryPoint) (win : Bool) (addr : Nat) (v : Word)
  /-- TOLGER_CELL_RECEIVE (R25). -/
  | tolgerCellReceive (slot : Slot) (toLd : Bool) (ch : Fin 2) (crcGood : Bool)
  /-- TOLGER_FLIT_RECEIVE (R25). -/
  | tolgerFlitReceive (slot : Slot) (toLd : Bool) (flit : SideFlit)
  /-- TOLGER_NAK (R25). -/
  | tolgerNak (slot : Slot) (toLd : Bool) (ofCell : Bool)
  /-- TOLGER_CREDIT_RETURN (R24). -/
  | tolgerCreditReturn (slot : Slot) (toLd : Bool) (ch : Fin 2)
  /-- TOLGER_BEAT_PAIR (R23). -/
  | tolgerBeatPair (slot : Slot) (toLd : Bool)
  /-- TOLGER_RELINK (R437). -/
  | tolgerRelink (slot : Slot)
  /-- DOMAIN_QUIESCE (R41). -/
  | domainQuiesce (o : Origin) (body : List Byte)
  /-- DRAIN_COMPLETE (R41). -/
  | drainComplete (dom : Nat)
  /-- DRAIN_LIMIT_EXPIRY (R41). -/
  | drainLimitExpiry (dom : Nat)
  /-- DOMAIN_RESET (R44). -/
  | domainReset (o : Origin) (body : List Byte)
  /-- RESET_TIME_END (R44). -/
  | resetTimeEnd (dom : Nat)
  /-- DOMAIN_RETURN (R283). -/
  | domainReturn (o : Origin) (body : List Byte)
  /-- RETURNING_COMPLETE (R444). -/
  | returningComplete (dom : Nat)
  /-- RETURN_TIMEOUT (R283). -/
  | returnTimeout (dom : Nat)
  /-- DOMAIN_STATUS (R283). -/
  | domainStatus (o : Origin) (body : List Byte)
  /-- LD_WARM_RESET (R437). -/
  | ldWarmReset (o : Origin) (body : List Byte)
  /-- PORT_ENABLE (R68). -/
  | portEnable (p : LPort) (en : Bool)
  /-- TRAINING_PHASE_TIMEOUT (R68). -/
  | trainingPhaseTimeout (p : LPort)
  /-- TRAIN_RESTART_TIMER (R68). -/
  | trainRestartTimer (p : LPort)
  /-- WORD_LOCK (R68). -/
  | wordLock (p : LPort) (lane : Fin 4)
  /-- CAP (R70). -/
  | cap (p : LPort) (body : BitVec 48)
  /-- PRBS_LOCK (R68). -/
  | prbsLock (p : LPort)
  /-- ALIGN_LAST (R68). -/
  | alignLast (p : LPort)
  /-- OS_SLOT_RECEIVE (R63). -/
  | osSlotReceive (p : LPort) (bytes : List Byte)
  /-- DOZE_WORD_RECEIVE (R66). -/
  | dozeWordReceive (p : LPort) (w : BitVec 80)
  /-- UNCORRECTABLE_CODEWORD (R60). -/
  | uncorrectableCodeword (p : LPort) (slots : Nat)
  /-- FCW_CHK_FAIL (R55). -/
  | fcwChkFail (p : LPort)
  /-- HUM_IDLE_TIMEOUT (R72). -/
  | humIdleTimeout (p : LPort)
  /-- DOZE_IDLE_TIMEOUT (R72). -/
  | dozeIdleTimeout (p : LPort)
  /-- DORMANT_IDLE_TIMEOUT (R72). -/
  | dormantIdleTimeout (p : LPort)
  /-- STATE_REQ (R73). -/
  | stateReq (p : LPort) (target : Fin 4)
  /-- STATE_ACK (R73). -/
  | stateAck (p : LPort) (target : Fin 4)
  /-- STATE_NAK (R75). -/
  | stateNak (p : LPort) (target : Fin 4)
  /-- STATE_ANSWER_TIMEOUT (R73). -/
  | stateAnswerTimeout (p : LPort)
  /-- WAKE (R74). -/
  | wake (p : LPort)
  /-- EXIT_COMPLETE (R72). -/
  | exitComplete (p : LPort)
  /-- EXIT_TIMEOUT (R75). -/
  | exitTimeout (p : LPort)
  /-- MAXSTATE_WRITE (R76). -/
  | maxstateWrite (p : LPort) (m : Fin 4)
  /-- WAGGLE (R80). -/
  | waggle (p : LPort) (dst : BitVec 14) (hops : BitVec 6)
  /-- SIGNAL_DETECT_LOSS (R84). -/
  | signalDetectLoss (p : LPort) (all : Bool)
  /-- LANE_FAIL (R86). -/
  | laneFail (p : LPort) (lane : Fin 4)
  /-- LANE_ERROR_WINDOW (R87). -/
  | laneErrorWindow (p : LPort) (lane : Fin 4) (errors : Nat)
  /-- LANE_RETIRE_REQ (R87). -/
  | laneRetireReq (p : LPort) (lane : Fin 4)
  /-- LANE_RETIRE (R88). -/
  | laneRetire (p : LPort) (lanes : BitVec 4) (frame : BitVec 16)
  /-- RETIRE_FRAME_SWITCH (R88). -/
  | retireFrameSwitch (p : LPort) (rx : Bool)
  /-- CELL_RECEIVE (R102). -/
  | cellReceive (p : LPort) (bytes : List Byte)
  /-- ACK_FCW (R105). -/
  | ackFcw (p : LPort) (v : BitVec 13)
  /-- NAK_FCW (R105). -/
  | nakFcw (p : LPort) (v : BitVec 13)
  /-- NAK_RETRY_TIMEOUT (R104). -/
  | nakRetryTimeout (p : LPort)
  /-- REPLAY_TIMEOUT (R106). -/
  | replayTimeout (p : LPort)
  /-- RESYNC_REPLAY (R107). -/
  | resyncReplay (p : LPort) (seq : BitVec 13)
  /-- RESYNC_INIT (R115). -/
  | resyncInit (p : LPort)
  /-- RESYNC_CREQ (R118). -/
  | resyncCreq (p : LPort) (cc : Fin 4)
  /-- RESYNC_RECALL (R123). -/
  | resyncRecall (p : LPort) (xseq : BitVec 12)
  /-- CREDIT_FCW (R114). -/
  | creditFcw (p : LPort) (cc : Fin 4) (low : BitVec 11)
  /-- CREDIT_WORD (R114). -/
  | creditWord (p : LPort) (cc : Fin 4) (cl : BitVec 16) (xrel : BitVec 12)
  /-- CREDIT_WORD_PERIOD (R112). -/
  | creditWordPeriod (p : LPort)
  /-- CREDIT_STARVE_TIMEOUT (R118). -/
  | creditStarveTimeout (p : LPort) (cc : Fin 4)
  /-- SLOT_FILL (R135). -/
  | slotFill (p : Fin 17) (crcBad : Bool)
  /-- CELL_ADMIT (R131). -/
  | cellAdmit (p : Fin 17) (entryBad : Option (Fin 4))
  /-- PARK_RETRY (R130). -/
  | parkRetry (p : Fin 18) (c : Fin 8)
  /-- ENTRY_RECOMPUTED (R137). -/
  | entryRecomputed (table : Fin 4) (idx : Nat) (readable : Bool)
  /-- ADDR_WRITE (R136). -/
  | addrWrite (v : Word)
  /-- SEED_EXPANSION_DONE (R136). -/
  | seedExpansionDone
  /-- REBUILD_DONE (R138). -/
  | rebuildDone (table : Fin 4) (unreadable : List Nat)
  /-- TBL_READ (R280). -/
  | tblRead (o : Origin) (body : List Byte)
  /-- TBL_WRITE (R139). -/
  | tblWrite (o : Origin) (body : List Byte)
  /-- TBL_REBUILD (R138). -/
  | tblRebuild (o : Origin) (body : List Byte)
  /-- TBL_SWAP (R138). -/
  | tblSwap (o : Origin) (body : List Byte)
  /-- ADDR_ASSIGN (R143). -/
  | addrAssign (o : Origin) (body : List Byte)
  /-- ADDR_ASSIGN_REPEAT (R142). -/
  | addrAssignRepeat (p : LPort)
  /-- RING_BREAK (R147). -/
  | ringBreak (q : LPort)
  /-- RING_HEAL (R148). -/
  | ringHeal (q : LPort)
  /-- WTR_EXPIRY (R148). -/
  | wtrExpiry (p : LPort)
  /-- RING_HOLD_EXPIRY (R148). -/
  | ringHoldExpiry (p : LPort)
  /-- RING_EN_CLEAR (R148). -/
  | ringEnClear
  /-- BYPASS_WRITE (R149). -/
  | bypassWrite (byp : Bool)
  /-- BYPASS_SETTLE_EXPIRY (R149). -/
  | bypassSettleExpiry
  /-- COMB_CELL_TIME (R164). -/
  | combCellTime (linkRead : Option LinkRead) (damaged : Option (BitVec 18))
  /-- SPILL_REFILL_DONE (R161). -/
  | spillRefillDone (p : Fin 17) (c : Fin 5) (unreadable : Nat)
  /-- FRAME_DISCARD_END (R170). -/
  | frameDiscardEnd (p : Fin 18) (c : Fin 8) (inp : Fin 18)
  /-- AUDIT_DONE (R172). -/
  | auditDone
  /-- VOQ_QUEUE_MOVE (R168). -/
  | voqQueueMove (p : Fin 17) (c : Fin 8)
  /-- FL_READY (R167). -/
  | flReady (failing : BitVec 16)
  /-- BANKCTL_RET_REQ (R174). -/
  | bankctlRetReq (mask : BitVec 16)
  /-- RELOCATION_DONE (R174). -/
  | relocationDone (b : Fin 16)
  /-- BANKCTL_RTN_REQ (R176). -/
  | bankctlRtnReq (mask : BitVec 16)
  /-- BANK_RETURN_DONE (R176). -/
  | bankReturnDone (b : Fin 16)
  /-- FORCE_VOQ_WRITE (R167). -/
  | forceVoqWrite (v : Bool)
  /-- SHP_CTL_APPLY (R192). -/
  | shpCtlApply (req : EntryPoint)
  /-- SHP_CTL_LOAD (R192). -/
  | shpCtlLoad (req : EntryPoint)
  /-- POL_CTL_APPLY (R192). -/
  | polCtlApply (req : EntryPoint)
  /-- POL_CTL_LOAD (R192). -/
  | polCtlLoad (req : EntryPoint)
  /-- XB_CFG_WRITE (R189). -/
  | xbCfgWrite (v : Word)
  /-- XB_BURST_WRITE (R189). -/
  | xbBurstWrite (v : Word)
  /-- ORIGIN_FRAME_RELEASE (R186). -/
  | originFrameRelease (shp : BitVec 12)
  /-- EXPRESS_MONITOR_WINDOW (R190). -/
  | expressMonitorWindow
  /-- HWM_OCC_READ (R195). -/
  | hwmOccRead (req : EntryPoint)
  /-- HWM_SOJ_READ (R195). -/
  | hwmSojRead (req : EntryPoint)
  /-- SHP_APPLY (R281). -/
  | shpApply (o : Origin) (body : List Byte)
  /-- SHP_GET (R281). -/
  | shpGet (o : Origin) (body : List Byte)
  /-- POL_APPLY (R281). -/
  | polApply (o : Origin) (body : List Byte)
  /-- POL_GET (R281). -/
  | polGet (o : Origin) (body : List Byte)
  /-- HWM_READ (R281). -/
  | hwmRead (o : Origin) (body : List Byte)
  /-- TUNNEL_FRAME_ORIGINATE (R210). -/
  | tunnelFrameOriginate (slot : Slot) (tun : BitVec 14) (frame : List Byte)
  /-- TUNNEL_CELL_TERMINATE (R214). -/
  | tunnelCellTerminate (p : Fin 17)
  /-- TUN_GET (R278). -/
  | tunGet (o : Origin) (body : List Byte)
  /-- TUN_SET (R280). -/
  | tunSet (o : Origin) (body : List Byte)
  /-- TUN_RESET_CTX (R280). -/
  | tunResetCtx (o : Origin) (body : List Byte)
  /-- WINDOW_REQUEST (R221). -/
  | windowRequest (wr : Bool) (addr : BitVec 36) (len : BitVec 13) (data : List Byte) (tlp : Nat)
  /-- BRG_WRITE_RECEIVE (R228). -/
  | brgWriteReceive
  /-- BRG_READ_RECEIVE (R220). -/
  | brgReadReceive
  /-- CPL_RECEIVE (R225). -/
  | cplReceive
  /-- READ_TIMEOUT (R226). -/
  | readTimeout (tag : Fin 1024)
  /-- PWERR_RECEIVE (R229). -/
  | pwerrReceive
  /-- FENCE_RECEIVE (R230). -/
  | fenceReceive
  /-- FENCE_ACK_RECEIVE (R230). -/
  | fenceAckReceive
  /-- FENCE_TIMEOUT (R230). -/
  | fenceTimeout (tun : BitVec 14)
  /-- LOCAL_RETRY (R232). -/
  | localRetry (id : Nat)
  /-- BRG_WCTL_APPLY (R221). -/
  | brgWctlApply (req : EntryPoint)
  /-- BRG_WCTL_LOAD (R221). -/
  | brgWctlLoad (req : EntryPoint)
  /-- BRG_TCTL_APPLY (R220). -/
  | brgTctlApply (req : EntryPoint)
  /-- BRG_TCTL_LOAD (R220). -/
  | brgTctlLoad (req : EntryPoint)
  /-- PWL_DATA_READ (R234). -/
  | pwlDataRead (req : EntryPoint)
  /-- ELG_DATA_READ (R234). -/
  | elgDataRead (req : EntryPoint)
  /-- PWL_STAT_READ (R234). -/
  | pwlStatRead (req : EntryPoint)
  /-- ELG_STAT_READ (R234). -/
  | elgStatRead (req : EntryPoint)
  /-- RDSTAT_READ (R234). -/
  | rdstatRead (req : EntryPoint)
  /-- BRG_READ (R282). -/
  | brgRead (o : Origin) (body : List Byte)
  /-- BRG_WRITE (R282). -/
  | brgWrite (o : Origin) (body : List Byte)
  /-- WRITE_FENCE (R230). -/
  | writeFence (o : Origin) (body : List Byte)
  /-- PWL_READ (R278). -/
  | pwlRead (o : Origin) (body : List Byte)
  /-- ELG_READ (R278). -/
  | elgRead (o : Origin) (body : List Byte)
  /-- SYNC_SEND_TIMER (R239). -/
  | syncSendTimer
  /-- DREQ_SEND_TIMER (R239). -/
  | dreqSendTimer (p : LPort)
  /-- SYNC (R242). -/
  | sync (p : LPort) (strat : BitVec 8) (qual : BitVec 8) (ns : BitVec 64) (frac : BitVec 16)
  /-- DREQ (R239). -/
  | dreq (p : LPort) (gtag : BitVec 8)
  /-- DRSP (R240). -/
  | drsp (p : LPort) (gtag : BitVec 8) (turn : BitVec 40)
  /-- DREQ_MISS (R239). -/
  | dreqMiss (p : LPort)
  /-- SYNC_LOSS_TIMEOUT (R243). -/
  | syncLossTimeout
  /-- PSEL_WRITE (R243). -/
  | pselWrite (psel : BitVec 3)
  /-- ANNOUNCE_TIMER (R248). -/
  | announceTimer
  /-- ANNOUNCE (R248). -/
  | announce
  /-- PPS_EDGE (R246). -/
  | ppsEdge (pin : Fin 8)
  /-- XT32_RATIO_WINDOW (R244). -/
  | xt32RatioWindow (tick : Nat)
  /-- NOW_HI_READ (R255). -/
  | nowHiRead (req : EntryPoint)
  /-- TIME_GET (R278). -/
  | timeGet (o : Origin) (body : List Byte)
  /-- TIME_SET (R284). -/
  | timeSet (o : Origin) (body : List Byte)
  /-- ARM (R250). -/
  | arm
  /-- CANCEL (R252). -/
  | cancel
  /-- TRG_ACTL_ARM (R250). -/
  | trgActlArm (req : EntryPoint)
  /-- TRG_ACTL_CANCEL (R252). -/
  | trgActlCancel (req : EntryPoint)
  /-- TRIG_ARM (R284). -/
  | trigArm (o : Origin) (body : List Byte)
  /-- TRIG_CANCEL (R284). -/
  | trigCancel (o : Origin) (body : List Byte)
  /-- PULSE_START (R250). -/
  | pulseStart (pin : Fin 8)
  /-- PULSE_END (R251). -/
  | pulseEnd (pin : Fin 8)
  /-- PIN_MODE_WRITE (R249). -/
  | pinModeWrite (pin : Fin 8) (mode : Fin 4)
  /-- CAPTURE_EDGE (R253). -/
  | captureEdge (pin : Fin 8) (rising : Bool)
  /-- CAPT_RPT_PERIOD (R254). -/
  | captRptPeriod (pin : Fin 8)
  /-- CAP_LO_READ (R255). -/
  | capLoRead (req : EntryPoint) (pin : Fin 8)
  /-- CAPT_READ (R284). -/
  | captRead (o : Origin) (body : List Byte)
  /-- HSPI_STATUS (R260). -/
  | hspiStatus
  /-- HSPI_CMD_WRITE (R260). -/
  | hspiCmdWrite (bytes : List Byte)
  /-- HSPI_RSP_READ (R260). -/
  | hspiRspRead (n : Nat)
  /-- CMD_REPLY_RECEIVE (R273). -/
  | cmdReplyReceive
  /-- RELAY_TIMEOUT (R273). -/
  | relayTimeout (tag : Fin 64)
  /-- ORPHAN_EXPIRY (R275). -/
  | orphanExpiry (ep : EntryPoint)
  /-- SESSION_IDLE_TIMEOUT (R269). -/
  | sessionIdleTimeout (sess : Fin 33)
  /-- SESSION_EXPIRY (R269). -/
  | sessionExpiry (sess : Fin 33)
  /-- HOSTSEL_WRITE (R37). -/
  | hostselWrite (sel : Bool)
  /-- READ_REG (R279). -/
  | readReg (o : Origin) (body : List Byte)
  /-- WRITE_REG (R279). -/
  | writeReg (o : Origin) (body : List Byte)
  /-- RMW_REG (R279). -/
  | rmwReg (o : Origin) (body : List Byte)
  /-- READ_BLK (R279). -/
  | readBlk (o : Origin) (body : List Byte)
  /-- WRITE_BLK (R279). -/
  | writeBlk (o : Origin) (body : List Byte)
  /-- RMW_BLK (R279). -/
  | rmwBlk (o : Origin) (body : List Byte)
  /-- READ_CTR (R466). -/
  | readCtr (o : Origin) (body : List Byte)
  /-- GET_INFO (R278). -/
  | getInfo (o : Origin) (body : List Byte)
  /-- NOP (R278). -/
  | nop (o : Origin) (body : List Byte)
  /-- SESSION_OPEN (R268). -/
  | sessionOpen (o : Origin) (body : List Byte)
  /-- SESSION_CLOSE (R269). -/
  | sessionClose (o : Origin) (body : List Byte)
  /-- SESSION_INFO (R278). -/
  | sessionInfo (o : Origin) (body : List Byte)
  /-- GET_ORPHAN (R276). -/
  | getOrphan (o : Origin) (body : List Byte)
  /-- CC_ATTACH (R301). -/
  | ccAttach (t : Fin 8) (cc2 : Bool) (ra : Bool)
  /-- CC_DETACH (R301). -/
  | ccDetach (t : Fin 8)
  /-- VBUS_SAFE0V_REACHED (R301). -/
  | vbusSafe0vReached (t : Fin 8)
  /-- VBUS_ENABLE (R325). -/
  | vbusEnable (t : Fin 8)
  /-- VBUS_OC (R303). -/
  | vbusOc (t : Fin 8)
  /-- PWRWARN_RELEASE_TIMER (R304). -/
  | pwrwarnReleaseTimer
  /-- SOURCE_CAP_REPEAT (R307). -/
  | sourceCapRepeat (t : Fin 8)
  /-- REQUEST (R312). -/
  | request (t : Fin 8) (pos : BitVec 4) (iop : BitVec 10) (pd2 : Bool)
  /-- SENDER_RESPONSE_TIMEOUT (R313). -/
  | senderResponseTimeout (t : Fin 8)
  /-- SRC_TRANSITION_START (R307). -/
  | srcTransitionStart (t : Fin 8)
  /-- VBUS_SETTLED (R307). -/
  | vbusSettled (t : Fin 8)
  /-- GET_SOURCE_CAP (R306). -/
  | getSourceCap (p : PdPort)
  /-- GET_SOURCE_CAP_EXTENDED (R306). -/
  | getSourceCapExtended (p : PdPort)
  /-- GET_SINK_CAP (R306). -/
  | getSinkCap (p : PdPort)
  /-- GET_REVISION (R306). -/
  | getRevision (p : PdPort)
  /-- SOFT_RESET (R306). -/
  | softReset (p : PdPort)
  /-- HARD_RESET (R327). -/
  | hardReset (p : PdPort) (sends : Bool)
  /-- VCONN_SWAP (R316). -/
  | vconnSwap (p : PdPort)
  /-- PS_RDY (R316). -/
  | psRdy (p : PdPort)
  /-- VCONN_SOURCE_TIMEOUT (R316). -/
  | vconnSourceTimeout (t : Fin 8)
  /-- DR_SWAP (R317). -/
  | drSwap (p : PdPort)
  /-- PR_SWAP (R317). -/
  | prSwap (p : PdPort)
  /-- UNSUPPORTED_PD_MESSAGE (R306). -/
  | unsupportedPdMessage (p : PdPort) (vdm : Option (BitVec 5))
  /-- DISCOVER_IDENTITY_SOP_PRIME (R308). -/
  | discoverIdentitySopPrime (t : Fin 8) (fiveA : Bool)
  /-- DISCOVER_IDENTITY_RETRY (R308). -/
  | discoverIdentityRetry (t : Fin 8)
  /-- PARTNER_DISCOVERY_RESPONSE (R319). -/
  | partnerDiscoveryResponse (t : Fin 8) (r : PartnerAnswer)
  /-- ENTER_MODE_ACK (R319). -/
  | enterModeAck (t : Fin 8)
  /-- DP_CONFIGURE_ACK (R319). -/
  | dpConfigureAck (t : Fin 8)
  /-- ATTENTION (R319). -/
  | attention (t : Fin 8) (hpd : Bool)
  /-- VDM_RESPONSE_TIMEOUT (R307). -/
  | vdmResponseTimeout (t : Fin 8)
  /-- VCONN_FAULT (R315). -/
  | vconnFault (t : Fin 8)
  /-- SINK_ADJ_EXPIRY (R302). -/
  | sinkAdjExpiry (t : Fin 8)
  /-- ERROR_RECOVERY_END (R324). -/
  | errorRecoveryEnd (t : Fin 8)
  /-- TCP_CFG_WRITE (R301). -/
  | tcpCfgWrite (t : Fin 8) (v : Word)
  /-- PDP_BUDGET_WRITE (R309). -/
  | pdpBudgetWrite (die : Fin 2) (v : Word)
  /-- SOURCE_CAPABILITIES (R321). -/
  | sourceCapabilities (pdos : List (Nat × Nat)) (pd2 : Bool)
  /-- ACCEPT (R321). -/
  | accept
  /-- WAIT (R321). -/
  | wait
  /-- REJECT (R321). -/
  | reject
  /-- SINK_REQUEST_RETRY (R321). -/
  | sinkRequestRetry
  /-- PS_TRANSITION_TIMEOUT (R321). -/
  | psTransitionTimeout
  /-- TIER_FALL (R420). -/
  | tierFall
  /-- SVC_VBUS_LOSS (R323). -/
  | svcVbusLoss
  /-- PD_STATUS (R329). -/
  | pdStatus (o : Origin) (body : List Byte)
  /-- PD_PORT_CTL (R329). -/
  | pdPortCtl (o : Origin) (body : List Byte)
  /-- PD_BUDGET (R329). -/
  | pdBudget (o : Origin) (body : List Byte)
  /-- HUB_PORT_CHANGE (R332). -/
  | hubPortChange (t : Fin 8) (speed : Fin 7) (susp : Bool)
  /-- PRX_DB_WRITE (R338). -/
  | prxDbWrite (die : Fin 2) (v : Word)
  /-- DOORBELL (R340). -/
  | doorbell (die : Fin 2)
  /-- DESCRIPTOR_FETCH (R337). -/
  | descriptorFetch (die : Fin 2) (r : Fin 64) (readable : Bool)
  /-- PERIODIC_SERVICE (R337). -/
  | periodicService (die : Fin 2) (r : Fin 64) (past : Bool)
  /-- TRANSFER_COMPLETE (R337). -/
  | transferComplete (die : Fin 2) (r : Fin 64) (code : Fin 10) (moved : Nat) (data : List Byte)
  /-- NOTIFY_TIMER (R340). -/
  | notifyTimer (die : Fin 2)
  /-- USB_PORT_CTL (R342). -/
  | usbPortCtl (o : Origin) (body : List Byte)
  /-- PROXY_CTL (R342). -/
  | proxyCtl (o : Origin) (body : List Byte)
  /-- SVC_CONNECT_WRITE (R347). -/
  | svcConnectWrite (connect : Bool)
  /-- SVC_EPB_LOAD (R346). -/
  | svcEpbLoad
  /-- SVC_SUSPEND (R348). -/
  | svcSuspend
  /-- REMOTE_WAKE (R349). -/
  | remoteWake
  /-- HOST_RESUME (R349). -/
  | hostResume
  /-- SVC_BUS_RESET (R350). -/
  | svcBusReset (hs : Bool)
  /-- SET_CONFIGURATION (R350). -/
  | setConfiguration (c : BitVec 8)
  /-- SVC_STANDARD_REQUEST (R345). -/
  | svcStandardRequest (typ : BitVec 8) (req : BitVec 8) (value : BitVec 16) (index : BitVec 16) (len : BitVec 16)
  /-- EP2_TRANSFER_COMPLETE (R263). -/
  | ep2TransferComplete
  /-- EP3_POLL (R345). -/
  | ep3Poll
  /-- EP5_POLL (R481). -/
  | ep5Poll
  /-- CLEAR_FEATURE_HALT (R350). -/
  | clearFeatureHalt
  /-- SVC_ORPH_READ (R351). -/
  | svcOrphRead (req : EntryPoint)
  /-- DSP_CFG_EN_WRITE (R356). -/
  | dspCfgEnWrite (h : Fin 2) (en : Bool)
  /-- HEAD_STOP (R368). -/
  | headStop (h : Fin 2)
  /-- DSP_CFG_FLIP (R357). -/
  | dspCfgFlip (h : Fin 2)
  /-- VBLANK (R357). -/
  | vblank (h : Fin 2)
  /-- TE_EDGE (R360). -/
  | teEdge (h : Fin 2)
  /-- TE_TIMEOUT (R360). -/
  | teTimeout (h : Fin 2)
  /-- LINE_START (R362). -/
  | lineStart (h : Fin 2)
  /-- FETCH_COMPLETE (R362). -/
  | fetchComplete (h : Fin 2) (readable : Bool)
  /-- TOL_PUBLISH (R363). -/
  | tolPublish (h : Fin 2)
  /-- FLIP (R365). -/
  | flip
  /-- DMX_ROUTE_WRITE (R361). -/
  | dmxRouteWrite (v : Word)
  /-- DMX_STATUS_RELAY (R361). -/
  | dmxStatusRelay
  /-- DSP_FLIP (R366). -/
  | dspFlip (o : Origin) (body : List Byte)
  /-- DSP_STATUS (R366). -/
  | dspStatus (o : Origin) (body : List Byte)
  /-- DSP_TIMING_LOAD (R366). -/
  | dspTimingLoad (o : Origin) (body : List Byte)
  /-- ETH_FRAME_RECEIVE (R371). -/
  | ethFrameReceive (e : Fin 12) (frame : List Byte)
  /-- PAUSE_REPEAT (R374). -/
  | pauseRepeat (e : Fin 12)
  /-- PAUSE_FRAME_RECEIVE (R374). -/
  | pauseFrameReceive (e : Fin 12) (quanta : BitVec 16)
  /-- ETH_LINK_LOST (R386). -/
  | ethLinkLost (e : Fin 12) (busy : Bool)
  /-- ETM_VCTL_APPLY (R373). -/
  | etmVctlApply (req : EntryPoint) (die : Fin 2)
  /-- ETM_VCTL_LOAD (R373). -/
  | etmVctlLoad (req : EntryPoint) (die : Fin 2)
  /-- MB_SUBMIT (R379). -/
  | mbSubmit (len : BitVec 16)
  /-- MB_RELEASE (R379). -/
  | mbRelease
  /-- MB_STAT_READ (R378). -/
  | mbStatRead
  /-- TX_GO (R380). -/
  | txGo (len : BitVec 14) (tun : BitVec 14)
  /-- TX_STAT_READ (R378). -/
  | txStatRead
  /-- RQ_CI_WRITE (R380). -/
  | rqCiWrite (q : Fin 16) (ci : BitVec 16)
  /-- BAR2_REQUEST (R382). -/
  | bar2Request (wr : Bool) (addr : BitVec 36) (len : BitVec 13) (data : List Byte) (tlp : Nat)
  /-- HOST_MEMORY_TIMEOUT (R383). -/
  | hostMemoryTimeout (n : Nat)
  /-- ROOT_PORT_TIMEOUT (R384). -/
  | rootPortTimeout (n : Nat)
  /-- INBOUND_DEVICE_REQUEST (R385). -/
  | inboundDeviceRequest (wr : Bool) (addr : BitVec 64) (len : BitVec 13) (data : List Byte)
  /-- PCIE_LINK_DOWN (R275). -/
  | pcieLinkDown
  /-- FLR (R275). -/
  | flr
  /-- ROOT_PORT_LINK_LOST (R386). -/
  | rootPortLinkLost
  /-- PCFG_EN_WRITE (R399). -/
  | pcfgEnWrite (p : LPort) (en : Bool)
  /-- PCFG_ROLE_WRITE (R392). -/
  | pcfgRoleWrite (p : LPort) (role : Fin 4)
  /-- LCFG_EN_WRITE (R406). -/
  | lcfgEnWrite (en : Bool)
  /-- QUALIFY_COMPLETE (R393). -/
  | qualifyComplete (p : LPort) (vpres : Bool) (limit : Bool) (rsig : BitVec 16) (csig : BitVec 16)
  /-- QUAL_RETRY (R393). -/
  | qualRetry (p : LPort)
  /-- INRUSH_END (R394). -/
  | inrushEnd (f : Fin 5)
  /-- INRUSH_TIMEOUT (R394). -/
  | inrushTimeout (f : Fin 5)
  /-- SLOW_TICK (R415). -/
  | slowTick (cur : List Nat) (vout : List Nat) (vin : BitVec 16)
  /-- CURVE_TRIP (R396). -/
  | curveTrip (f : Fin 5)
  /-- FAST_TRIP (R398). -/
  | fastTrip (f : Fin 5)
  /-- REMOVAL (R401). -/
  | removal (p : LPort)
  /-- OFF_MIN_EXPIRY (R395). -/
  | offMinExpiry (f : Fin 5)
  /-- FET_SHORT (R403). -/
  | fetShort (p : LPort)
  /-- LPWR_PERIODIC (R404). -/
  | lpwrPeriodic
  /-- LPWR (R405). -/
  | lpwr (p : LPort) (body : BitVec 48)
  /-- PWRWARN_ASSERT (R407). -/
  | pwrwarnAssert (slope : Bool)
  /-- PWRWARN_DEASSERT (R407). -/
  | pwrwarnDeassert
  /-- UVLO (R408). -/
  | uvlo
  /-- LBUS_VON (R406). -/
  | lbusVon
  /-- LPW_CCTL_APPLY (R397). -/
  | lpwCctlApply (req : EntryPoint)
  /-- LPW_CCTL_LOAD (R397). -/
  | lpwCctlLoad (req : EntryPoint)
  /-- EFUSE_CTL (R412). -/
  | efuseCtl (o : Origin) (body : List Byte)
  /-- EFUSE_STATUS (R412). -/
  | efuseStatus (o : Origin) (body : List Byte)
  /-- EFUSE_CURVE (R412). -/
  | efuseCurve (o : Origin) (body : List Byte)
  /-- SEG_QUALIFY (R412). -/
  | segQualify (o : Origin) (body : List Byte)
  /-- XT32_FAIL (R415). -/
  | xt32Fail
  /-- LD_SLEEP_ENTRY (R417). -/
  | ldSleepEntry (csLow : Bool)
  /-- LD_WAKE (R423). -/
  | ldWake (kind : Fin 5) (idx : Fin 32)
  /-- FAST_CLOCK_START_DONE (R418). -/
  | fastClockStartDone
  /-- PSTATE_SET (R419). -/
  | pstateSet (o : Origin) (body : List Byte)
  /-- WAKE_CFG (R432). -/
  | wakeCfg (o : Origin) (body : List Byte)
  /-- SELF_REFRESH_ENTRY (R422). -/
  | selfRefreshEntry
  /-- SELF_REFRESH_EXIT (R422). -/
  | selfRefreshExit
  /-- SELF_REFRESH_EXIT_DONE (R422). -/
  | selfRefreshExitDone
  /-- INTERRUPT_SOURCE_FIRE (R425). -/
  | interruptSourceFire (src : Fin 512)
  /-- INTERRUPT_DELIVERY (R426). -/
  | interruptDelivery (g : Fin 16)
  /-- INT_DONE_WRITE (R429). -/
  | intDoneWrite (g : Fin 16)
  /-- INT_PEND_WRITE (R425). -/
  | intPendWrite (g : Fin 16) (mask : Word)
  /-- NRS_WREASON_READ (R433). -/
  | nrsWreasonRead (req : EntryPoint)
  /-- DCM_RGN_APPLY (R298). -/
  | dcmRgnApply
  /-- POWER_ON_RESET (R436). -/
  | powerOnReset (a : BitVec 3) (b : BitVec 3) (c : BitVec 3)
  /-- RESET_N (R436). -/
  | resetN (a : BitVec 3) (b : BitVec 3) (c : BitVec 3)
  /-- SUPPLY_FAIL (R490). -/
  | supplyFail
  /-- SUPPLY_HOLD_END (R490). -/
  | supplyHoldEnd (a : BitVec 3) (b : BitVec 3) (c : BitVec 3)
  /-- BOOT_SEAL_VERIFIED (R446). -/
  | bootSealVerified (sfdp : Bool) (size : BitVec 8)
  /-- BOOTED (R447). -/
  | booted
  /-- DEAD_BATTERY_START (R449). -/
  | deadBatteryStart (a : BitVec 3) (b : BitVec 3) (c : BitVec 3)
  /-- BOARD_POWER_VALID (R505). -/
  | boardPowerValid
  /-- IMG_INFO (R461). -/
  | imgInfo (o : Origin) (body : List Byte)
  /-- IMG_WRITE (R453). -/
  | imgWrite (o : Origin) (body : List Byte)
  /-- IMG_DELTA (R454). -/
  | imgDelta (o : Origin) (body : List Byte)
  /-- IMG_VERIFY (R455). -/
  | imgVerify (o : Origin) (body : List Byte)
  /-- IMG_ACTIVATE (R457). -/
  | imgActivate (o : Origin) (body : List Byte)
  /-- IMG_COMMIT (R459). -/
  | imgCommit (o : Origin) (body : List Byte)
  /-- IMG_REVERT (R459). -/
  | imgRevert (o : Origin) (body : List Byte)
  /-- IMG_LOCK (R461). -/
  | imgLock (o : Origin) (body : List Byte)
  /-- SET_READ (R451). -/
  | setRead (o : Origin) (body : List Byte)
  /-- SET_WRITE (R451). -/
  | setWrite (o : Origin) (body : List Byte)
  /-- STAGE_WRITE (R461). -/
  | stageWrite (o : Origin) (body : List Byte)
  /-- NOR_WRITE_DONE (R440). -/
  | norWriteDone (good : Bool)
  /-- ACTIVATION_STEP_DONE (R457). -/
  | activationStepDone
  /-- ACTIVATION_TIMEOUT (R457). -/
  | activationTimeout
  /-- LD_SHADOWS_COMPARED (R458). -/
  | ldShadowsCompared
  /-- LD_ACTIVATION_RESUME (R458). -/
  | ldActivationResume
  /-- TRIAL_EXPIRY (R459). -/
  | trialExpiry
  /-- IMG_LOADLOG_READ (R463). -/
  | imgLoadlogRead (req : EntryPoint)
  /-- IMG_QSPI_READ (R463). -/
  | imgQspiRead (req : EntryPoint)
  /-- COUNTER_LOW_READ (R465). -/
  | counterLowRead (req : CtrReader) (addr : BitVec 32)
  /-- COUNTER_HIGH_READ (R465). -/
  | counterHighRead (req : CtrReader) (addr : BitVec 32)
  /-- CTR_CLEAR (R466). -/
  | ctrClear (o : Origin) (body : List Byte)
  /-- TEST_RUN (R471). -/
  | testRun (o : Origin) (body : List Byte)
  /-- TEST_STATUS (R471). -/
  | testStatus (o : Origin) (body : List Byte)
  /-- LOG_READ (R480). -/
  | logRead (o : Origin) (body : List Byte)
  /-- EYE_MARGIN (R475). -/
  | eyeMargin (o : Origin) (body : List Byte)
  /-- EYE_MARGIN_DONE (R475). -/
  | eyeMarginDone (eyes : List Byte)
  /-- BANK_ROT_STEP_DONE (R472). -/
  | bankRotStepDone (good : Bool)
  /-- SCRUB_BURST (R473). -/
  | scrubBurst (fails : Fin 4)
  /-- TBL_CMP_DONE (R474). -/
  | tblCmpDone (damaged : List Nat) (unreadable : List Nat)
  /-- DISRUPTIVE_TEST_DONE (R476). -/
  | disruptiveTestDone (dom : Nat) (pass : Bool) (result : BitVec 64)
  /-- NOR_LOG_WRITE (R479). -/
  | norLogWrite (good : Bool)
  /-- TEMP_SAMPLE (R485). -/
  | tempSample (slot : Slot) (temp : BitVec 12)
  /-- DIE_LSTAT_READ (R485). -/
  | dieLstatRead (req : EntryPoint) (slot : Slot)
  /-- EP1_COMMAND_RECEIVE (R261). -/
  | ep1CommandReceive (bytes : List Byte)
  /-- EP4_BLOCK_RECEIVE (R453). -/
  | ep4BlockReceive (block : List Byte)
  /-- SVC_SOURCE_ATTACH (R321). -/
  | svcSourceAttach (rp : Fin 4)
  /-- PCIE_LINK_UP (R384). -/
  | pcieLinkUp (root : Bool) (gen : Fin 4) (width : Fin 3) (bme : Bool) (msixEn : Bool) (fmask : Bool)
  /-- ETH_LINK_UP (R370). -/
  | ethLinkUp (e : Fin 12) (spd : Fin 8)
  /-- PCIE_COMPLETION_RECEIVE (R383). -/
  | pcieCompletionReceive (root : Bool) (n : Nat) (ok : Bool) (data : List Byte)
  /-- DEEP_COMB_ACCESS_DONE (R219). -/
  | deepCombAccessDone (good : Bool)
  /-- IMG_VERIFY_DONE (R455). -/
  | imgVerifyDone
  /-- ETH_FRAME_TRANSMIT (R376). -/
  | ethFrameTransmit (e : Fin 12)
deriving DecidableEq, Repr

end Sys2Proof
end

