-- ==== Sys2Proof/Decode.lean ====
section
/-! DEFINITION. Commands spelled by words: no row of spec/opcode_table.json gives bits, so no word spells a command. The formats
that the spec gives commands as byte sequences (Tables 10.1, 10.3 and 10.9) are read by the meanings that receive them. -/
namespace Sys2Proof

/-- The command that a word of `nbits` bits spells by the bits of the opcode table: none. -/
def decodeTableWord (_nbits _w : Nat) : Option Instr := none

end Sys2Proof
end

