-- ==== Sys2Proof/Machine/Tab.lean ====
section
/-! DEFINITION. Sparse tables: a list of (key, value) pairs in ONE canonical form, keys strictly rising and no
value equal to what an unlisted key reads as, so that equal tables are equal lists. Registers, counters, the
Deep Comb, the NOR and every table of the part are held so. -/
namespace Sys2Proof.Machine

/-- A sparse table of values by number. -/
abbrev Tab (α : Type) := List (Nat × α)

/-- What key `k` holds: the listed value, and `d k` where none is listed. -/
def Tab.get {α : Type} (d : Nat → α) : Tab α → Nat → α
  | [], k => d k
  | (j, v) :: t, k => if j = k then v else Tab.get d t k

/-- Puts `(k, v)` before the first key above `k`. -/
def Tab.place {α : Type} (k : Nat) (v : α) : Tab α → Tab α
  | [] => [(k, v)]
  | (j, w) :: t => if k < j then (k, v) :: (j, w) :: t else (j, w) :: Tab.place k v t

/-- Takes every entry of `k` out. -/
def Tab.drop {α : Type} (k : Nat) : Tab α → Tab α
  | [] => []
  | (j, w) :: t => if j = k then Tab.drop k t else (j, w) :: Tab.drop k t

/-- Writes `v` at `k`; a value equal to the default is not listed. -/
def Tab.set {α : Type} [DecidableEq α] (d : Nat → α) (k : Nat) (v : α) (t : Tab α) : Tab α :=
  if v = d k then Tab.drop k t else Tab.place k v (Tab.drop k t)

/-- Every key of `t` lies above `b`, rising, and no entry equals its default. -/
def Tab.wfAbove {α : Type} [DecidableEq α] (d : Nat → α) : Option Nat → Tab α → Bool
  | _, [] => true
  | b, (j, v) :: t =>
    (match b with
      | none => true
      | some i => decide (i < j)) && decide (v ≠ d j) && Tab.wfAbove d (some j) t

/-- The canonical form: keys strictly rising, no entry equal to what an unlisted key reads as. -/
def Tab.wf {α : Type} [DecidableEq α] (d : Nat → α) (t : Tab α) : Bool := Tab.wfAbove d none t

/-- Writes a list of values at consecutive keys from `k`. -/
def Tab.setMany {α : Type} [DecidableEq α] (d : Nat → α) : Nat → List α → Tab α → Tab α
  | _, [], t => t
  | k, v :: vs, t => Tab.setMany d (k + 1) vs (Tab.set d k v t)

/-- The values at `n` consecutive keys from `k`. -/
def Tab.getMany {α : Type} (d : Nat → α) (t : Tab α) (k n : Nat) : List α :=
  (List.range n).map fun i => Tab.get d t (k + i)

/-- The table that holds `f k` for every key below `n`. -/
def Tab.build {α : Type} [DecidableEq α] (d : Nat → α) (n : Nat) (f : Nat → α) : Tab α :=
  (List.range n).foldl (fun t k => Tab.set d k (f k) t) []

/-- Drops every entry whose key fails `p`. -/
def Tab.keep {α : Type} (p : Nat → Bool) (t : Tab α) : Tab α := t.filter fun e => p e.1

end Sys2Proof.Machine
end

