-- ==== Sys2Proof/Machine/RegTable.lean ====
section
/-! DEFINITION. Every register of the manual's field tables (R16 to R21, R288 to R298 and the register rules of the
other chapters): its offset, its reset value and the access type of each bit. -/
namespace Sys2Proof.Machine

/-- One register row: offset in its block, instances, stride, reset value, the bits of each access type of
Table 0.7, and whether each requester has its own copy (R191, R295). -/
structure RegDesc where
  off : Nat
  count : Nat
  stride : Nat
  reset : Nat
  rw : Nat
  w1c : Nat
  w1s : Nat
  wo : Nat
  rwl : Nat
  rc : Nat
  perReq : Bool
deriving DecidableEq, Repr

/-- Block HLP (02_horle_line_physical.md, 03_cells_credits_replay.md). -/
def regsHLP : List RegDesc := [
  ⟨0x0, 1, 4, 0x9F87F01, 0xFFF7F01, 0x0, 0x0, 0x0, 0x0, 0x0, false⟩,
  ⟨0x4, 1, 4, 0xC00000, 0x0, 0x0, 0x0, 0x0, 0x0, 0x0, false⟩,
  ⟨0x8, 1, 4, 0xFA064064, 0xFFFFFFFF, 0x0, 0x0, 0x0, 0x0, 0x0, false⟩,
  ⟨0xC, 1, 4, 0xA000F00, 0xF000F00, 0xF0000, 0xF, 0x0, 0x0, 0x0, false⟩,
  ⟨0x10, 1, 4, 0x6020E6A, 0xFFFFFFFF, 0x0, 0x0, 0x0, 0x0, 0x0, false⟩,
  ⟨0x14, 1, 4, 0xA0F02, 0xFF0FFF, 0x0, 0x0, 0x0, 0x0, 0x0, false⟩,
  ⟨0x18, 1, 4, 0x0, 0x0, 0x0, 0x0, 0x0, 0x0, 0x0, false⟩]

/-- Block XPR (04_express_routing_topology.md). -/
def regsXPR : List RegDesc := [
  ⟨0x0, 1, 4, 0xF1, 0xF3, 0x0, 0x0, 0x0, 0x0, 0x0, false⟩,
  ⟨0x4, 1, 4, 0x0, 0x0, 0x7F, 0x0, 0x0, 0x0, 0x0, false⟩]

/-- Block RTE (04_express_routing_topology.md). -/
def regsRTE : List RegDesc := [
  ⟨0x0, 1, 4, 0x0, 0x80003FFF, 0x0, 0x0, 0x0, 0x0, 0x0, false⟩,
  ⟨0x4, 1, 4, 0x0, 0x3FFF3FFF, 0x0, 0x0, 0x0, 0x0, 0x0, false⟩,
  ⟨0x8, 1, 4, 0x0, 0x3FFF3FFF, 0x0, 0x0, 0x0, 0x0, 0x0, false⟩,
  ⟨0xC, 1, 4, 0x4100320A, 0xCFC0FFFF, 0x0, 0x0, 0x0, 0x0, 0x0, false⟩,
  ⟨0x10, 1, 4, 0x0, 0x0, 0x0, 0x0, 0x0, 0x0, 0x0, false⟩,
  ⟨0x14, 1, 4, 0xF, 0xF, 0x0, 0x0, 0x0, 0x0, 0x0, false⟩,
  ⟨0x18, 1, 4, 0x20000000, 0x20000000, 0x0, 0x0, 0x0, 0x0, 0x0, false⟩,
  ⟨0x20, 1, 4, 0x0, 0x0, 0x0, 0x0, 0x0, 0x0, 0x0, false⟩,
  ⟨0x1C, 1, 4, 0xC3000014, 0xCF0000FF, 0x0, 0x0, 0x0, 0x0, 0x0, false⟩]

/-- Block CMB (05_comb_switch_core.md). -/
def regsCMB : List RegDesc := [
  ⟨0x0, 1, 4, 0x49000000, 0x0, 0x0, 0x0, 0x0, 0x0, 0x0, false⟩,
  ⟨0x4, 1, 4, 0x0, 0x0, 0x0, 0x0, 0x0, 0x0, 0x0, false⟩,
  ⟨0x8, 1, 4, 0x0, 0x0, 0x0, 0x0, 0x0, 0x0, 0x0, false⟩,
  ⟨0xC, 1, 4, 0x0, 0x0, 0x0, 0xFFFFFFFF, 0x0, 0x0, 0x0, false⟩,
  ⟨0x10, 1, 4, 0xFF4922, 0xFFFFFF, 0x0, 0x0, 0x0, 0x0, 0x0, false⟩,
  ⟨0x14, 1, 4, 0x4, 0xFF, 0x0, 0x0, 0x0, 0x0, 0x0, false⟩,
  ⟨0x18, 1, 4, 0x801E3020, 0x801FFFFF, 0x0, 0x0, 0x0, 0x0, 0x0, false⟩,
  ⟨0x1C, 1, 4, 0x0, 0x0, 0x0, 0x0, 0x0, 0x0, 0x0, false⟩,
  ⟨0x20, 1, 4, 0x80000010, 0x8000FFFF, 0x0, 0x0, 0x0, 0x0, 0x0, false⟩,
  ⟨0x24, 1, 4, 0x0, 0x1, 0x0, 0x0, 0x0, 0x0, 0x0, false⟩,
  ⟨0x40, 1, 4, 0xF4240, 0xFFFFF, 0x0, 0x0, 0x0, 0x0, 0x0, false⟩,
  ⟨0x44, 1, 4, 0x186A0, 0xFFFFF, 0x0, 0x0, 0x0, 0x0, 0x0, false⟩,
  ⟨0x48, 1, 4, 0x186A0, 0xFFFFF, 0x0, 0x0, 0x0, 0x0, 0x0, false⟩,
  ⟨0x4C, 1, 4, 0x186A0, 0xFFFFF, 0x0, 0x0, 0x0, 0x0, 0x0, false⟩,
  ⟨0x50, 1, 4, 0x186A0, 0xFFFFF, 0x0, 0x0, 0x0, 0x0, 0x0, false⟩,
  ⟨0x54, 1, 4, 0x7D0, 0xFFFFF, 0x0, 0x0, 0x0, 0x0, 0x0, false⟩,
  ⟨0x58, 1, 4, 0x2710, 0xFFFFF, 0x0, 0x0, 0x0, 0x0, 0x0, false⟩,
  ⟨0x5C, 1, 4, 0x3E8, 0xFFFFF, 0x0, 0x0, 0x0, 0x0, 0x0, false⟩]

/-- Block SCH (06_scheduling_shaping_guard.md). -/
def regsSCH : List RegDesc := [
  ⟨0x0, 1, 4, 0x0, 0xFFF, 0x0, 0x0, 0x0, 0x0, 0x0, true⟩,
  ⟨0x4, 1, 4, 0x30D40, 0xE003FFFF, 0x0, 0x0, 0x0, 0x0, 0x0, true⟩,
  ⟨0x8, 1, 4, 0x100, 0xFF00FFFF, 0x0, 0x0, 0x0, 0x0, 0x0, true⟩,
  ⟨0xC, 1, 4, 0x10000, 0x0, 0x0, 0x0, 0x0, 0x0, 0x0, false⟩,
  ⟨0x10, 1, 4, 0x0, 0x0, 0x0, 0x0, 0x3, 0x0, 0x0, false⟩,
  ⟨0x20, 1, 4, 0x0, 0xFF, 0x0, 0x0, 0x0, 0x0, 0x0, true⟩,
  ⟨0x24, 1, 4, 0x0, 0x0, 0x0, 0x0, 0x0, 0x0, 0x1FFFFFF, false⟩,
  ⟨0x28, 1, 4, 0x0, 0x0, 0x0, 0x0, 0x0, 0x0, 0xFFFFFFFF, false⟩,
  ⟨0x100, 17, 4, 0x40201008, 0xFFFFFFFF, 0x0, 0x0, 0x0, 0x0, 0x0, false⟩]

/-- Block GRD (06_scheduling_shaping_guard.md). -/
def regsGRD : List RegDesc := [
  ⟨0x0, 1, 4, 0x0, 0xFFF, 0x0, 0x0, 0x0, 0x0, 0x0, true⟩,
  ⟨0x4, 1, 4, 0x30D40, 0xC003FFFF, 0x0, 0x0, 0x0, 0x0, 0x0, true⟩,
  ⟨0x8, 1, 4, 0x100, 0xFF00FFFF, 0x0, 0x0, 0x0, 0x0, 0x0, true⟩,
  ⟨0xC, 1, 4, 0x0, 0x0, 0x0, 0x0, 0x0, 0x0, 0x0, false⟩,
  ⟨0x10, 1, 4, 0x0, 0x0, 0x0, 0x0, 0x3, 0x0, 0x0, false⟩,
  ⟨0x20, 1, 4, 0x80002710, 0xC003FFFF, 0x0, 0x0, 0x0, 0x0, 0x0, false⟩,
  ⟨0x24, 1, 4, 0x20, 0xFF00FFFF, 0x0, 0x0, 0x0, 0x0, 0x0, false⟩,
  ⟨0x28, 1, 4, 0x3D, 0xFF, 0x0, 0x0, 0x0, 0x0, 0x0, false⟩,
  ⟨0x2C, 1, 4, 0x0, 0x0, 0xF, 0x0, 0x0, 0x0, 0x0, false⟩]

/-- Block TUN (08_tunnels_and_bridge.md). -/
def regsTUN : List RegDesc := [
  ⟨0x0, 1, 4, 0x0, 0x0, 0x7, 0x0, 0x0, 0x0, 0x0, false⟩]

/-- Block BRG (08_tunnels_and_bridge.md). -/
def regsBRG : List RegDesc := [
  ⟨0x0, 1, 4, 0x3, 0x3, 0x0, 0x0, 0x0, 0x0, 0x0, false⟩,
  ⟨0x4, 1, 4, 0x0, 0x3F, 0x0, 0x0, 0x0, 0x0, 0x0, true⟩,
  ⟨0x8, 1, 4, 0x60C00000, 0xEFF03FFF, 0x0, 0x0, 0x0, 0x0, 0x0, true⟩,
  ⟨0xC, 1, 4, 0x0, 0xFFFFFF, 0x0, 0x0, 0x0, 0x0, 0x0, true⟩,
  ⟨0x10, 1, 4, 0x0, 0xFFFFFFF, 0x0, 0x0, 0x0, 0x0, 0x0, true⟩,
  ⟨0x14, 1, 4, 0x0, 0x0, 0x0, 0x0, 0x3, 0x0, 0x0, false⟩,
  ⟨0x20, 1, 4, 0x0, 0x3F, 0x0, 0x0, 0x0, 0x0, 0x0, true⟩,
  ⟨0x24, 1, 4, 0x60C00000, 0xE3F03FFF, 0x0, 0x0, 0x0, 0x0, 0x0, true⟩,
  ⟨0x28, 1, 4, 0x0, 0xFFFFFFF, 0x0, 0x0, 0x0, 0x0, 0x0, true⟩,
  ⟨0x2C, 1, 4, 0x0, 0x0, 0x0, 0x0, 0x3, 0x0, 0x0, false⟩,
  ⟨0x40, 1, 4, 0x2710, 0x3FFFFF, 0x0, 0x0, 0x0, 0x0, 0x0, false⟩,
  ⟨0x44, 1, 4, 0x64, 0x3FFFFF, 0x0, 0x0, 0x0, 0x0, 0x0, false⟩,
  ⟨0x48, 1, 4, 0xF4240, 0x3FFFFF, 0x0, 0x0, 0x0, 0x0, 0x0, false⟩,
  ⟨0x4C, 1, 4, 0x3D0900, 0x3FFFFF, 0x0, 0x0, 0x0, 0x0, 0x0, false⟩,
  ⟨0x50, 1, 4, 0x0, 0x0, 0x0, 0x0, 0x0, 0x0, 0x7FF0000, false⟩,
  ⟨0x60, 1, 4, 0x0, 0x0, 0x0, 0x0, 0x0, 0x0, 0xFFFF0000, false⟩,
  ⟨0x68, 1, 4, 0x0, 0x0, 0x0, 0x0, 0x0, 0x0, 0xFFFF0000, false⟩,
  ⟨0x64, 1, 4, 0x0, 0x0, 0x0, 0x0, 0x0, 0x0, 0xFFFFFFFF, false⟩,
  ⟨0x6C, 1, 4, 0x0, 0x0, 0x0, 0x0, 0x0, 0x0, 0xFFFFFFFF, false⟩]

/-- Block TIM (09_line_time_triggers.md). -/
def regsTIM : List RegDesc := [
  ⟨0x0, 1, 4, 0x80A1401, 0xEFFFF01, 0x0, 0x0, 0x0, 0x0, 0x0, false⟩,
  ⟨0x4, 1, 4, 0x200FF, 0x0, 0x0, 0x0, 0x0, 0x0, 0x0, false⟩,
  ⟨0x14, 1, 4, 0x0, 0x0, 0x0, 0x0, 0x0, 0x0, 0x0, false⟩,
  ⟨0x20, 4, 4, 0x0, 0x0, 0x0, 0x0, 0x0, 0x0, 0x0, false⟩,
  ⟨0x30, 4, 4, 0x0, 0xFFFF, 0x0, 0x0, 0x0, 0x0, 0x0, false⟩,
  ⟨0x40, 1, 4, 0x0, 0x0, 0x0, 0x0, 0x0, 0x0, 0x0, false⟩,
  ⟨0x44, 1, 4, 0x0, 0xFFC03FFF, 0x0, 0x0, 0x0, 0x0, 0x0, false⟩,
  ⟨0x8, 1, 4, 0x0, 0x0, 0x0, 0x0, 0x0, 0x0, 0x0, false⟩,
  ⟨0xC, 1, 4, 0x0, 0x0, 0x0, 0x0, 0x0, 0x0, 0x0, false⟩,
  ⟨0x10, 1, 4, 0x0, 0x0, 0x0, 0x0, 0x0, 0x0, 0x0, false⟩]

/-- Block TRG (09_line_time_triggers.md). -/
def regsTRG : List RegDesc := [
  ⟨0x0, 8, 4, 0x0, 0xFFFF0000, 0x0, 0x0, 0x0, 0x0, 0x0, false⟩,
  ⟨0x34, 1, 4, 0x0, 0xFFFF0000, 0x0, 0x0, 0x3, 0x0, 0x0, true⟩,
  ⟨0x38, 1, 4, 0x0, 0x0, 0x0, 0x0, 0x0, 0x0, 0x0, false⟩,
  ⟨0x3C, 1, 4, 0x0, 0x0, 0xFFFFFFFF, 0x0, 0x0, 0x0, 0x0, false⟩,
  ⟨0x40, 1, 4, 0xA000000, 0xFF003FFF, 0x0, 0x0, 0x0, 0x0, 0x0, false⟩,
  ⟨0x20, 1, 4, 0x0, 0x7, 0x0, 0x0, 0x0, 0x0, 0x0, true⟩,
  ⟨0x24, 1, 4, 0x0, 0xFFFFFFFF, 0x0, 0x0, 0x0, 0x0, 0x0, true⟩,
  ⟨0x28, 1, 4, 0x0, 0xFFFFFFFF, 0x0, 0x0, 0x0, 0x0, 0x0, true⟩,
  ⟨0x2C, 1, 4, 0x0, 0xFFFFFFFF, 0x0, 0x0, 0x0, 0x0, 0x0, true⟩,
  ⟨0x30, 1, 4, 0x0, 0xFFFFFFFF, 0x0, 0x0, 0x0, 0x0, 0x0, true⟩,
  ⟨0x80, 8, 8, 0x0, 0x0, 0x0, 0x0, 0x0, 0x0, 0x0, false⟩,
  ⟨0x84, 8, 8, 0x0, 0x0, 0x0, 0x0, 0x0, 0x0, 0xFFFFFFFF, false⟩]

/-- Block CMD (10_command_engine.md). -/
def regsCMD : List RegDesc := [
  ⟨0x0, 1, 4, 0x0, 0x0, 0x0, 0x0, 0x0, 0x0, 0x0, false⟩,
  ⟨0x4, 1, 4, 0x0, 0x1, 0x0, 0x0, 0x0, 0x0, 0x0, false⟩,
  ⟨0x8, 1, 4, 0x0, 0x0, 0x0, 0x0, 0x0, 0xFFFF, 0x0, false⟩,
  ⟨0xC, 1, 4, 0xFFFF, 0x0, 0x0, 0x0, 0x0, 0xFFFF, 0x0, false⟩,
  ⟨0x10, 1, 4, 0xFFFF, 0x0, 0x0, 0x0, 0x0, 0xFFFF, 0x0, false⟩,
  ⟨0x14, 1, 4, 0xC0002710, 0xE03FFFFF, 0x0, 0x0, 0x0, 0x0, 0x0, false⟩,
  ⟨0x18, 1, 4, 0x2580010, 0x0, 0x0, 0x0, 0x0, 0xFFFF00FF, 0x0, false⟩,
  ⟨0x20, 4, 4, 0x0, 0x0, 0x0, 0x0, 0xFFFFFFFF, 0x0, 0x0, false⟩]

/-- Block GLB (11_register_map.md). -/
def regsGLB : List RegDesc := [
  ⟨0x0, 1, 4, 0xA7110810, 0x0, 0x0, 0x0, 0x0, 0x0, 0x0, false⟩,
  ⟨0x4, 1, 4, 0x4FF4800, 0x0, 0x0, 0x0, 0x0, 0x0, 0x0, false⟩,
  ⟨0x8, 1, 4, 0x0, 0x0, 0x0, 0x0, 0x0, 0x0, 0x0, false⟩,
  ⟨0xC, 1, 4, 0x0, 0x0, 0xC0000000, 0x0, 0x0, 0x0, 0x0, false⟩,
  ⟨0x10, 1, 4, 0x0, 0x0, 0x0, 0x0, 0x0, 0x0, 0x0, false⟩,
  ⟨0x14, 1, 4, 0x0, 0x0, 0x0, 0x0, 0x0, 0x0, 0x0, false⟩,
  ⟨0x18, 1, 4, 0x0, 0xFFFFFFFF, 0x0, 0x0, 0x0, 0x0, 0x0, false⟩]

/-- Block DIE (11_register_map.md, 19_diagnostics_counters.md). -/
def regsDIE : List RegDesc := [
  ⟨0x0, 1, 4, 0x1000000, 0x0, 0x0, 0x0, 0x0, 0x0, 0x0, false⟩,
  ⟨0x4, 1, 4, 0x11000000, 0x0, 0x0, 0x0, 0x0, 0x0, 0x0, false⟩,
  ⟨0x8, 1, 4, 0x21000000, 0x0, 0x0, 0x0, 0x0, 0x0, 0x0, false⟩,
  ⟨0xC, 1, 4, 0x31000000, 0x0, 0x0, 0x0, 0x0, 0x0, 0x0, false⟩,
  ⟨0x10, 1, 4, 0x41000000, 0x0, 0x0, 0x0, 0x0, 0x0, 0x0, false⟩,
  ⟨0x14, 1, 4, 0x51000000, 0x0, 0x0, 0x0, 0x0, 0x0, 0x0, false⟩,
  ⟨0x18, 1, 4, 0x21000000, 0x0, 0x0, 0x0, 0x0, 0x0, 0x0, false⟩,
  ⟨0x1C, 1, 4, 0x31000000, 0x0, 0x0, 0x0, 0x0, 0x0, 0x0, false⟩,
  ⟨0x20, 8, 4, 0x0, 0x0, 0x0, 0x0, 0x0, 0x0, 0xFF0000, false⟩,
  ⟨0x40, 8, 4, 0x690000, 0xFF0000, 0x40000000, 0x0, 0x0, 0x0, 0x0, false⟩]

/-- Block DCM (11_register_map.md, 17_power_states_clocks_interrupts.md, 19_diagnostics_counters.md). -/
def regsDCM : List RegDesc := [
  ⟨0x0, 1, 4, 0x0, 0x0, 0x0, 0x0, 0x1, 0x0, 0x0, false⟩,
  ⟨0x4, 1, 4, 0x0, 0x0, 0x40000000, 0x0, 0x0, 0x0, 0x0, false⟩,
  ⟨0x10, 1, 4, 0x0, 0xFFF, 0x0, 0x0, 0x0, 0x0, 0x0, false⟩,
  ⟨0x14, 1, 4, 0x400040, 0xFFF, 0x0, 0x0, 0x0, 0x0, 0x0, false⟩,
  ⟨0x18, 1, 4, 0x800080, 0xFFF, 0x0, 0x0, 0x0, 0x0, 0x0, false⟩,
  ⟨0x1C, 1, 4, 0x1800180, 0xFFF, 0x0, 0x0, 0x0, 0x0, 0x0, false⟩,
  ⟨0x20, 1, 4, 0x5800580, 0xFFF, 0x0, 0x0, 0x0, 0x0, 0x0, false⟩,
  ⟨0x30, 1, 4, 0x80140A00, 0x80FFFF00, 0x0, 0x0, 0x0, 0x0, 0x0, false⟩,
  ⟨0x34, 1, 4, 0xFFFFFF, 0x0, 0x0, 0x0, 0x0, 0x0, 0x0, false⟩,
  ⟨0x38, 1, 4, 0x80400000, 0x80FF0000, 0x0, 0x0, 0x0, 0x0, 0x0, false⟩]

/-- Block TCP (12_typec_power_delivery.md). -/
def regsTCP : List RegDesc := [
  ⟨0x0, 1, 4, 0x9C000000, 0xFC000000, 0x0, 0x0, 0x0, 0x0, 0x0, false⟩,
  ⟨0x4, 1, 4, 0x20000000, 0x0, 0x0, 0x0, 0x0, 0x0, 0x0, false⟩,
  ⟨0x8, 1, 4, 0x0, 0x0, 0x0, 0x0, 0x0, 0x0, 0x0, false⟩,
  ⟨0xC, 1, 4, 0x40000000, 0x0, 0x20000000, 0x0, 0x0, 0x0, 0x0, false⟩,
  ⟨0x10, 1, 4, 0x0, 0x0, 0x4000000, 0x0, 0x0, 0x0, 0x0, false⟩,
  ⟨0x14, 1, 4, 0x0, 0x0, 0x1FF, 0x0, 0x0, 0x0, 0x0, false⟩]

/-- Block PDP (12_typec_power_delivery.md). -/
def regsPDP : List RegDesc := [
  ⟨0x0, 1, 4, 0xF0, 0x1FF, 0x0, 0x0, 0x0, 0x0, 0x0, false⟩,
  ⟨0x4, 1, 4, 0x0, 0x0, 0x0, 0x0, 0x0, 0x0, 0x0, false⟩,
  ⟨0x8, 1, 4, 0x0, 0x0, 0x0, 0x0, 0x0, 0x0, 0x0, false⟩,
  ⟨0xC, 1, 4, 0xAC, 0x0, 0x0, 0x0, 0x0, 0x0, 0x0, false⟩]

/-- Block SVC (12_typec_power_delivery.md, 13_usb_data_and_service_port.md). -/
def regsSVC : List RegDesc := [
  ⟨0x30, 1, 4, 0x0, 0x0, 0x0, 0x0, 0x0, 0x0, 0x0, false⟩,
  ⟨0x0, 1, 4, 0x40000000, 0xE0000000, 0x0, 0x0, 0x1, 0x0, 0x0, false⟩,
  ⟨0x4, 1, 4, 0x0, 0x0, 0x20000, 0x0, 0x0, 0x0, 0x0, false⟩,
  ⟨0x10, 6, 4, 0x0, 0x3FF07FF, 0x0, 0x0, 0x0, 0x0, 0x0, false⟩,
  ⟨0x34, 1, 4, 0x0, 0x0, 0x0, 0x0, 0x0, 0x0, 0xFFFF0000, false⟩]

/-- Block USB (13_usb_data_and_service_port.md). -/
def regsUSB : List RegDesc := [
  ⟨0x0, 1, 4, 0xFFC00000, 0xFFC00000, 0x0, 0x0, 0x0, 0x0, 0x0, false⟩,
  ⟨0x4, 1, 4, 0x0, 0x0, 0x0, 0x0, 0x0, 0x0, 0x0, false⟩,
  ⟨0x10, 1, 4, 0xA, 0x3FFF00FF, 0x0, 0x0, 0x0, 0x0, 0x0, false⟩,
  ⟨0x14, 1, 4, 0x8000000, 0xFFFFF000, 0x0, 0x0, 0x0, 0x0, 0x0, false⟩,
  ⟨0x18, 1, 4, 0x0, 0x0, 0x0, 0x0, 0x7FFFFF, 0x0, 0x0, false⟩,
  ⟨0x1C, 1, 4, 0x0, 0x0, 0xFF0000, 0x0, 0x0, 0x0, 0x0, false⟩]

/-- Block USB of slot 6: its transfer rings start at another base. -/
def regsUSB6 : List RegDesc :=
  regsUSB.map fun r => if r.off = 0x14 then { r with reset := 0x8001000 } else r

/-- Block DSP (14_display_scanout.md). -/
def regsDSP : List RegDesc := [
  ⟨0x0, 1, 4, 0x0, 0xE0003FFF, 0x0, 0x10000000, 0x0, 0x0, 0x0, false⟩,
  ⟨0x4, 1, 4, 0x0, 0x0, 0xFC00, 0x0, 0x0, 0x0, 0x0, false⟩,
  ⟨0x80, 1, 4, 0x24FFFFFF, 0xFF000000, 0x0, 0x0, 0x0, 0x0, 0x0, false⟩,
  ⟨0x84, 1, 4, 0x3FF003FF, 0x3FFFFFFF, 0x0, 0x0, 0x0, 0x0, 0x0, false⟩,
  ⟨0x10, 1, 4, 0x0, 0xFFFFF, 0x0, 0x0, 0x0, 0x0, 0x0, false⟩,
  ⟨0x14, 1, 4, 0x0, 0xFFFFFFFF, 0x0, 0x0, 0x0, 0x0, 0x0, false⟩,
  ⟨0x18, 1, 4, 0x0, 0xFFFFFFFF, 0x0, 0x0, 0x0, 0x0, 0x0, false⟩,
  ⟨0x1C, 1, 4, 0x0, 0xFFFFFFFF, 0x0, 0x0, 0x0, 0x0, 0x0, false⟩,
  ⟨0x20, 1, 4, 0x0, 0xFFFFFFFF, 0x0, 0x0, 0x0, 0x0, 0x0, false⟩,
  ⟨0x24, 1, 4, 0x0, 0xE0000000, 0x0, 0x0, 0x0, 0x0, 0x0, false⟩,
  ⟨0x28, 1, 4, 0x0, 0xE0FF0000, 0x0, 0x0, 0x0, 0x0, 0x0, false⟩,
  ⟨0x2C, 1, 4, 0x0, 0xFFFF0000, 0x0, 0x0, 0x0, 0x0, 0x0, false⟩,
  ⟨0x40, 1, 4, 0x0, 0xFF800000, 0x0, 0x0, 0x0, 0x0, 0x0, false⟩,
  ⟨0x44, 1, 4, 0x0, 0xFFFFFFFF, 0x0, 0x0, 0x0, 0x0, 0x0, false⟩,
  ⟨0x48, 1, 4, 0x0, 0xFFFFFFFF, 0x0, 0x0, 0x0, 0x0, 0x0, false⟩,
  ⟨0x4C, 1, 4, 0x0, 0xFFFFFFFF, 0x0, 0x0, 0x0, 0x0, 0x0, false⟩,
  ⟨0x50, 1, 4, 0x0, 0xFFFFFFFF, 0x0, 0x0, 0x0, 0x0, 0x0, false⟩,
  ⟨0x54, 1, 4, 0x0, 0xFFFFFFFF, 0x0, 0x0, 0x0, 0x0, 0x0, false⟩,
  ⟨0x58, 1, 4, 0x0, 0xFFFFFFFF, 0x0, 0x0, 0x0, 0x0, 0x0, false⟩,
  ⟨0x5C, 1, 4, 0x0, 0xFFFFFFFF, 0x0, 0x0, 0x0, 0x0, 0x0, false⟩,
  ⟨0x60, 1, 4, 0x0, 0xE0FF0000, 0x0, 0x0, 0x0, 0x0, 0x0, false⟩,
  ⟨0x64, 1, 4, 0x0, 0xFFFFFFFF, 0x0, 0x0, 0x0, 0x0, 0x0, false⟩,
  ⟨0x68, 1, 4, 0x0, 0xFFFFFFFF, 0x0, 0x0, 0x0, 0x0, 0x0, false⟩,
  ⟨0x6C, 1, 4, 0x0, 0xFFFF0000, 0x0, 0x0, 0x0, 0x0, 0x0, false⟩,
  ⟨0x70, 1, 4, 0x0, 0xFFFFFFFF, 0x0, 0x0, 0x0, 0x0, 0x0, false⟩,
  ⟨0x74, 1, 4, 0x0, 0xFFFFFFFF, 0x0, 0x0, 0x0, 0x0, 0x0, false⟩,
  ⟨0x78, 1, 4, 0x0, 0xFFFFFFFF, 0x0, 0x0, 0x0, 0x0, 0x0, false⟩,
  ⟨0x7C, 1, 4, 0x0, 0x0, 0x0, 0x0, 0x0, 0x0, 0x0, false⟩]

/-- Block DMX (14_display_scanout.md). -/
def regsDMX : List RegDesc := [
  ⟨0x0, 1, 4, 0x0, 0xFFFFFFFF, 0x0, 0x0, 0x0, 0x0, 0x0, false⟩,
  ⟨0x4, 1, 4, 0x0, 0x0, 0x11000000, 0x0, 0x0, 0x0, 0x0, false⟩]

/-- Block LPW (16_line_power_efuse.md). -/
def regsLPW : List RegDesc := [
  ⟨0x0, 4, 4, 0x50783214, 0xF8FFFFFF, 0x0, 0x0, 0x0, 0x0, 0x0, false⟩,
  ⟨0x10, 4, 4, 0xE0000000, 0x0, 0x2000000, 0x0, 0x0, 0x0, 0x0, false⟩,
  ⟨0x20, 1, 4, 0x0, 0x7, 0x0, 0x0, 0x0, 0x0, 0x0, true⟩,
  ⟨0x40, 8, 4, 0x0, 0xFFFFFFFF, 0x0, 0x0, 0x0, 0x0, 0x0, true⟩,
  ⟨0x60, 1, 4, 0x0, 0x0, 0x0, 0x0, 0x3, 0x0, 0x0, false⟩,
  ⟨0x70, 1, 4, 0x40646432, 0xC0FFFFFF, 0x0, 0x0, 0x0, 0x0, 0x0, false⟩,
  ⟨0x74, 1, 4, 0x0, 0x0, 0x1800000, 0x0, 0x0, 0x0, 0x0, false⟩,
  ⟨0x78, 1, 4, 0xA090AC32, 0xFF00FFFF, 0x0, 0x0, 0x0, 0x0, 0x0, false⟩,
  ⟨0x7C, 1, 4, 0x140A0A0A, 0xFFFFFFFF, 0x0, 0x0, 0x0, 0x0, 0x0, false⟩]

/-- Block INT (17_power_states_clocks_interrupts.md). -/
def regsINT : List RegDesc := [
  ⟨0x0, 16, 4, 0x0, 0x0, 0x0, 0x0, 0x0, 0x0, 0x0, false⟩,
  ⟨0x40, 16, 4, 0x0, 0x0, 0xFFFFFFFF, 0x0, 0x0, 0x0, 0x0, false⟩,
  ⟨0x80, 16, 4, 0x0, 0xFFFFFFFF, 0x0, 0x0, 0x0, 0x0, 0x0, false⟩,
  ⟨0xC0, 16, 4, 0x3FFE, 0x801F3FFF, 0x0, 0x0, 0x0, 0x0, 0x0, false⟩,
  ⟨0x100, 16, 4, 0x0, 0xFFFF, 0x0, 0x0, 0x0, 0x0, 0x0, false⟩,
  ⟨0x140, 16, 4, 0x0, 0xFFFFFFFF, 0x0, 0x0, 0x0, 0x0, 0x0, false⟩,
  ⟨0x180, 1, 4, 0x0, 0x0, 0x0, 0x0, 0xF, 0x0, 0x0, false⟩,
  ⟨0x184, 1, 4, 0x0, 0x0, 0x0, 0x0, 0x0, 0x0, 0x0, false⟩]

/-- Block NRS (17_power_states_clocks_interrupts.md). -/
def regsNRS : List RegDesc := [
  ⟨0x0, 1, 4, 0x0, 0x0, 0x0, 0x0, 0x0, 0x0, 0x0, false⟩,
  ⟨0x4, 1, 4, 0x64, 0xC000FFFF, 0x0, 0x0, 0x0, 0x0, 0x0, false⟩,
  ⟨0x8, 1, 4, 0x0, 0x0, 0x0, 0x0, 0x0, 0x0, 0x0, false⟩,
  ⟨0xC, 1, 4, 0x0, 0xFFFFFFFF, 0x0, 0x0, 0x0, 0x0, 0x0, false⟩,
  ⟨0x10, 1, 4, 0x0, 0x0, 0x0, 0x0, 0x0, 0x0, 0xF000001F, false⟩,
  ⟨0x14, 1, 4, 0x0, 0x0, 0x0, 0x0, 0x0, 0x0, 0x0, false⟩,
  ⟨0x40, 32, 4, 0x0, 0x1FF, 0x0, 0x0, 0x0, 0x0, 0x0, false⟩]

/-- Block IMG (18_reset_boot_update.md). -/
def regsIMG : List RegDesc := [
  ⟨0x0, 1, 4, 0x10000000, 0x0, 0x1000000, 0x0, 0x0, 0x0, 0x0, false⟩,
  ⟨0x4, 1, 4, 0x0, 0x0, 0x0, 0x0, 0x0, 0x0, 0x0, false⟩,
  ⟨0x8, 1, 4, 0x258, 0xFFFF, 0x0, 0x0, 0x0, 0x0, 0x0, false⟩,
  ⟨0x10, 8, 4, 0x0, 0x0, 0x0, 0x0, 0x0, 0x0, 0x0, false⟩,
  ⟨0x30, 1, 4, 0x0, 0x0, 0x0, 0x0, 0x0, 0x0, 0xFFFF0000, false⟩,
  ⟨0x34, 1, 4, 0x0, 0x0, 0x0, 0x0, 0x0, 0x0, 0x0, false⟩,
  ⟨0x38, 1, 4, 0x0, 0x0, 0x0, 0x0, 0x0, 0x0, 0xFFFF, false⟩]

/-- Block ETH (15_network_and_host_tributaries.md). -/
def regsETH : List RegDesc := [
  ⟨0x0, 1, 4, 0x80000000, 0xF0000000, 0x0, 0x0, 0x0, 0x0, 0x0, false⟩,
  ⟨0x4, 1, 4, 0x0, 0x0, 0x0, 0x0, 0x0, 0x0, 0x0, false⟩,
  ⟨0x8, 1, 4, 0x2400, 0x3FFF, 0x0, 0x0, 0x0, 0x0, 0x0, false⟩,
  ⟨0xC, 1, 4, 0x80000000, 0xC0003FFF, 0x0, 0x0, 0x0, 0x0, 0x0, false⟩,
  ⟨0x10, 1, 4, 0x0, 0xC0003FFF, 0x0, 0x0, 0x0, 0x0, 0x0, false⟩,
  ⟨0x14, 1, 4, 0x80C00800, 0x80FFFFFF, 0x0, 0x0, 0x0, 0x0, 0x0, false⟩]

/-- Block ETM (15_network_and_host_tributaries.md). -/
def regsETM : List RegDesc := [
  ⟨0x0, 1, 4, 0x80000000, 0x80000000, 0x0, 0x0, 0x0, 0x0, 0x0, false⟩,
  ⟨0x10, 1, 4, 0x0, 0xFF, 0x0, 0x0, 0x0, 0x0, 0x0, true⟩,
  ⟨0x14, 1, 4, 0x0, 0xFFFFFFFF, 0x0, 0x0, 0x0, 0x0, 0x0, true⟩,
  ⟨0x18, 1, 4, 0x0, 0x0, 0x0, 0x0, 0x3, 0x0, 0x0, false⟩,
  ⟨0x20, 1, 4, 0x0, 0xFFFFFFFF, 0x0, 0x0, 0x0, 0x0, 0x0, false⟩]

/-- Block PCE (15_network_and_host_tributaries.md). -/
def regsPCE : List RegDesc := [
  ⟨0x0, 1, 4, 0xB8000000, 0xFC000000, 0x0, 0x0, 0x0, 0x0, 0x0, false⟩,
  ⟨0x4, 1, 4, 0x0, 0x0, 0x1800000, 0x0, 0x0, 0x0, 0x0, false⟩,
  ⟨0x8, 1, 4, 0x80000000, 0x80000000, 0x0, 0x0, 0x0, 0x0, 0x0, false⟩,
  ⟨0xC, 1, 4, 0x0, 0xFF, 0x0, 0x0, 0x0, 0x0, 0x0, false⟩]

/-- Block PCR (15_network_and_host_tributaries.md). -/
def regsPCR : List RegDesc := [
  ⟨0x0, 1, 4, 0x3A000001, 0xBE0000FF, 0x0, 0x0, 0x0, 0x0, 0x0, false⟩,
  ⟨0x4, 1, 4, 0x0, 0x0, 0x300FFFF, 0x0, 0x0, 0x0, 0x0, false⟩,
  ⟨0x10, 4, 4, 0x18000000, 0xFFFFFFFF, 0x0, 0x0, 0x0, 0x0, 0x0, false⟩]

/-- The registers of block `blk` of slot `slot` by role (Tables 11.1 and 11.2, R288); `none` where no block has
that number. -/
def blockRegs (slot blk : Nat) : Option (List RegDesc) :=
  match slot with
  | 0 =>
    match blk with
    | 0 => some regsGLB
    | 1 => some regsHLP
    | 2 => some regsHLP
    | 3 => some regsHLP
    | 4 => some regsHLP
    | 5 => some regsXPR
    | 6 => some regsRTE
    | 7 => some regsTUN
    | 8 => some regsCMB
    | 9 => some regsSCH
    | 10 => some regsGRD
    | 11 => some regsBRG
    | 12 => some regsCMD
    | 13 => some regsINT
    | 14 => some regsNRS
    | 15 => some regsLPW
    | 16 => some regsTIM
    | 17 => some regsTRG
    | 18 => some regsIMG
    | 19 => some regsSVC
    | 20 => some regsDCM
    | 21 => some regsDIE
    | _ => none
  | 2 =>
    match blk with
    | 0 => some regsTCP
    | 1 => some regsTCP
    | 2 => some regsTCP
    | 3 => some regsTCP
    | 4 => some regsUSB
    | 5 => some regsPDP
    | _ => none
  | 6 =>
    match blk with
    | 0 => some regsTCP
    | 1 => some regsTCP
    | 2 => some regsTCP
    | 3 => some regsTCP
    | 4 => some regsUSB6
    | 5 => some regsPDP
    | _ => none
  | 3 =>
    match blk with
    | 0 => some regsETH
    | 1 => some regsETH
    | 2 => some regsETH
    | 3 => some regsETH
    | 4 => some regsETH
    | 5 => some regsETH
    | 6 => some regsETM
    | _ => none
  | 7 =>
    match blk with
    | 0 => some regsETH
    | 1 => some regsETH
    | 2 => some regsETH
    | 3 => some regsETH
    | 4 => some regsETH
    | 5 => some regsETH
    | 6 => some regsETM
    | _ => none
  | 4 =>
    match blk with
    | 0 => some regsPCE
    | 1 => some regsPCR
    | _ => none
  | 5 =>
    match blk with
    | 0 => some regsDSP
    | 1 => some regsDSP
    | 2 => some regsDMX
    | _ => none
  | _ => none

/-- The row of a list that holds byte offset `off`. -/
def descAt : List RegDesc → Nat → Option RegDesc
  | [], _ => none
  | r :: rs, off =>
    if r.off ≤ off ∧ off < r.off + r.count * r.stride ∧ (off - r.off) % r.stride = 0 then some r else descAt rs off

/-- The slot, block and offset fields of a register address (R16). -/
def addrSlot (a : Nat) : Nat := a / 0x20000000 % 8
def addrBlk (a : Nat) : Nat := a / 0x100000 % 512
def addrOff (a : Nat) : Nat := a % 0x100000

/-- The register at an address, `none` at a reserved offset or an undefined block (R291). -/
def regDesc (a : Nat) : Option RegDesc :=
  match blockRegs (addrSlot a) (addrBlk a) with
  | none => none
  | some l => descAt l (addrOff a)

/-- The value a register key reads as before anything has written it: the manual's reset value (R21). A key is the
register address, plus 2^32 times one more than the requester for a per-requester register (R295). -/
def regReset (k : Nat) : Word :=
  match regDesc (k % 0x100000000) with
  | none => 0
  | some r => BitVec.ofNat 32 r.reset

end Sys2Proof.Machine
end

