-- ==== Sys2Proof/Machine/RegNames.lean ====
section
/-! DEFINITION. The manual's register fields by name: BLOCK.REGISTER.FIELD (00_scope.md, Registers and fields).
The argument `n` is the instance of the block where a role has several (HLn; Type-C port 4 x die + port; Ethernet
port 6 x die + port; head), `k` the instance of an indexed register. -/
namespace Sys2Proof.Machine

/-- A field of a register: the register's address, the lowest bit and the width in bits. -/
structure Fld where
  addr : Nat
  lo : Nat
  w : Nat
deriving DecidableEq, Repr

set_option linter.dupNamespace false

namespace Reg

def HLP.CFG.word (n : Nat) : Fld := ⟨0x100000 + n * 0x100000, 0, 32⟩
def HLP.CFG.MAXSTATE (n : Nat) : Fld := ⟨0x100000 + n * 0x100000, 26, 2⟩
def HLP.CFG.FEC (n : Nat) : Fld := ⟨0x100000 + n * 0x100000, 24, 2⟩
def HLP.CFG.LANE_EN (n : Nat) : Fld := ⟨0x100000 + n * 0x100000, 20, 4⟩
def HLP.CFG.WIDTH_MAX (n : Nat) : Fld := ⟨0x100000 + n * 0x100000, 18, 2⟩
def HLP.CFG.MODE (n : Nat) : Fld := ⟨0x100000 + n * 0x100000, 16, 2⟩
def HLP.CFG.WAG_EN (n : Nat) : Fld := ⟨0x100000 + n * 0x100000, 14, 1⟩
def HLP.CFG.WAG_HOPS (n : Nat) : Fld := ⟨0x100000 + n * 0x100000, 8, 6⟩
def HLP.CFG.EN (n : Nat) : Fld := ⟨0x100000 + n * 0x100000, 0, 1⟩
def HLP.STAT.word (n : Nat) : Fld := ⟨0x100004 + n * 0x100000, 0, 32⟩
def HLP.STAT.LSTATE (n : Nat) : Fld := ⟨0x100004 + n * 0x100000, 29, 3⟩
def HLP.STAT.PHASE (n : Nat) : Fld := ⟨0x100004 + n * 0x100000, 26, 3⟩
def HLP.STAT.FEC_CUR (n : Nat) : Fld := ⟨0x100004 + n * 0x100000, 24, 2⟩
def HLP.STAT.WIDTH_CUR (n : Nat) : Fld := ⟨0x100004 + n * 0x100000, 22, 2⟩
def HLP.STAT.MODE_CUR (n : Nat) : Fld := ⟨0x100004 + n * 0x100000, 21, 1⟩
def HLP.STAT.BASE (n : Nat) : Fld := ⟨0x100004 + n * 0x100000, 19, 2⟩
def HLP.STAT.LANES (n : Nat) : Fld := ⟨0x100004 + n * 0x100000, 15, 4⟩
def HLP.STAT.SD (n : Nat) : Fld := ⟨0x100004 + n * 0x100000, 11, 4⟩
def HLP.SLEEP_T.word (n : Nat) : Fld := ⟨0x100008 + n * 0x100000, 0, 32⟩
def HLP.SLEEP_T.DORM_T (n : Nat) : Fld := ⟨0x100008 + n * 0x100000, 22, 10⟩
def HLP.SLEEP_T.DOZE_T (n : Nat) : Fld := ⟨0x100008 + n * 0x100000, 12, 10⟩
def HLP.SLEEP_T.HUM_T (n : Nat) : Fld := ⟨0x100008 + n * 0x100000, 0, 12⟩
def HLP.LRET.word (n : Nat) : Fld := ⟨0x10000C + n * 0x100000, 0, 32⟩
def HLP.LRET.TH_EXP (n : Nat) : Fld := ⟨0x10000C + n * 0x100000, 24, 4⟩
def HLP.LRET.RETIRED (n : Nat) : Fld := ⟨0x10000C + n * 0x100000, 16, 4⟩
def HLP.LRET.AUTO (n : Nat) : Fld := ⟨0x10000C + n * 0x100000, 8, 4⟩
def HLP.LRET.REQ (n : Nat) : Fld := ⟨0x10000C + n * 0x100000, 0, 4⟩
def HLP.CPOOL.word (n : Nat) : Fld := ⟨0x100010 + n * 0x100000, 0, 32⟩
def HLP.CPOOL.CC3 (n : Nat) : Fld := ⟨0x100010 + n * 0x100000, 24, 8⟩
def HLP.CPOOL.CC2 (n : Nat) : Fld := ⟨0x100010 + n * 0x100000, 16, 8⟩
def HLP.CPOOL.CC1 (n : Nat) : Fld := ⟨0x100010 + n * 0x100000, 8, 8⟩
def HLP.CPOOL.CC0 (n : Nat) : Fld := ⟨0x100010 + n * 0x100000, 0, 8⟩
def HLP.LTIM.word (n : Nat) : Fld := ⟨0x100014 + n * 0x100000, 0, 32⟩
def HLP.LTIM.CRED_T (n : Nat) : Fld := ⟨0x100014 + n * 0x100000, 16, 8⟩
def HLP.LTIM.RPL_MAX (n : Nat) : Fld := ⟨0x100014 + n * 0x100000, 8, 4⟩
def HLP.LTIM.TMARGIN (n : Nat) : Fld := ⟨0x100014 + n * 0x100000, 0, 8⟩
def HLP.LSTAT.word (n : Nat) : Fld := ⟨0x100018 + n * 0x100000, 0, 32⟩
def HLP.LSTAT.RPL_OCC (n : Nat) : Fld := ⟨0x100018 + n * 0x100000, 19, 13⟩
def HLP.LSTAT.CUST_OCC (n : Nat) : Fld := ⟨0x100018 + n * 0x100000, 8, 11⟩
def HLP.LSTAT.CRED_INIT (n : Nat) : Fld := ⟨0x100018 + n * 0x100000, 2, 1⟩
def HLP.LSTAT.WAIT_RPL (n : Nat) : Fld := ⟨0x100018 + n * 0x100000, 1, 1⟩
def HLP.LSTAT.XCUST_STALL (n : Nat) : Fld := ⟨0x100018 + n * 0x100000, 0, 1⟩
def XPR.CFG.word : Fld := ⟨0x500000, 0, 32⟩
def XPR.CFG.PEN : Fld := ⟨0x500000, 4, 4⟩
def XPR.CFG.TC6 : Fld := ⟨0x500000, 1, 1⟩
def XPR.CFG.EN : Fld := ⟨0x500000, 0, 1⟩
def XPR.FBSTAT.word : Fld := ⟨0x500004, 0, 32⟩
def XPR.FBSTAT.CAUSE : Fld := ⟨0x500004, 0, 7⟩
def RTE.ADDR.word : Fld := ⟨0x600000, 0, 32⟩
def RTE.ADDR.LOCK : Fld := ⟨0x600000, 31, 1⟩
def RTE.ADDR.UPV : Fld := ⟨0x600000, 30, 1⟩
def RTE.ADDR.UP : Fld := ⟨0x600000, 28, 2⟩
def RTE.ADDR.ADDR : Fld := ⟨0x600000, 0, 14⟩
def RTE.ENUM0.word : Fld := ⟨0x600004, 0, 32⟩
def RTE.ENUM0.OFS_HI : Fld := ⟨0x600004, 16, 14⟩
def RTE.ENUM0.OFS_LO : Fld := ⟨0x600004, 0, 14⟩
def RTE.ENUM1.word : Fld := ⟨0x600008, 0, 32⟩
def RTE.ENUM1.OFS_HI : Fld := ⟨0x600008, 16, 14⟩
def RTE.ENUM1.OFS_LO : Fld := ⟨0x600008, 0, 14⟩
def RTE.RING.word : Fld := ⟨0x60000C, 0, 32⟩
def RTE.RING.EN : Fld := ⟨0x60000C, 31, 1⟩
def RTE.RING.REVERT : Fld := ⟨0x60000C, 30, 1⟩
def RTE.RING.PA : Fld := ⟨0x60000C, 26, 2⟩
def RTE.RING.PB : Fld := ⟨0x60000C, 24, 2⟩
def RTE.RING.BLK : Fld := ⟨0x60000C, 22, 2⟩
def RTE.RING.WTR : Fld := ⟨0x60000C, 8, 8⟩
def RTE.RING.HOLD : Fld := ⟨0x60000C, 0, 8⟩
def RTE.BRK.word : Fld := ⟨0x600010, 0, 32⟩
def RTE.BRK.VA : Fld := ⟨0x600010, 31, 1⟩
def RTE.BRK.VB : Fld := ⟨0x600010, 30, 1⟩
def RTE.BRK.BA : Fld := ⟨0x600010, 16, 14⟩
def RTE.BRK.BB : Fld := ⟨0x600010, 0, 14⟩
def RTE.BCAST.word : Fld := ⟨0x600014, 0, 32⟩
def RTE.BCAST.MASK : Fld := ⟨0x600014, 0, 4⟩
def RTE.FGR.word : Fld := ⟨0x600018, 0, 32⟩
def RTE.FGR.BUSY : Fld := ⟨0x600018, 31, 1⟩
def RTE.FGR.SHADOW_OK : Fld := ⟨0x600018, 30, 1⟩
def RTE.FGR.AUTOSWAP : Fld := ⟨0x600018, 29, 1⟩
def RTE.FGR.TGEN : Fld := ⟨0x600018, 8, 8⟩
def RTE.FGR.RGEN : Fld := ⟨0x600018, 0, 8⟩
def RTE.FGR2.word : Fld := ⟨0x600020, 0, 32⟩
def RTE.FGR2.SHOK : Fld := ⟨0x600020, 28, 4⟩
def RTE.FGR2.MGEN : Fld := ⟨0x600020, 8, 8⟩
def RTE.FGR2.OGEN : Fld := ⟨0x600020, 0, 8⟩
def RTE.BYP.word : Fld := ⟨0x60001C, 0, 32⟩
def RTE.BYP.BYP : Fld := ⟨0x60001C, 31, 1⟩
def RTE.BYP.AUTO_PWR : Fld := ⟨0x60001C, 30, 1⟩
def RTE.BYP.PORTS : Fld := ⟨0x60001C, 24, 4⟩
def RTE.BYP.SETTLE : Fld := ⟨0x60001C, 0, 8⟩
def CMB.STAT.word : Fld := ⟨0x800000, 0, 32⟩
def CMB.STAT.MODE : Fld := ⟨0x800000, 30, 2⟩
def CMB.STAT.VCAUSE : Fld := ⟨0x800000, 27, 3⟩
def CMB.STAT.FL_READY : Fld := ⟨0x800000, 26, 1⟩
def CMB.STAT.AUDIT : Fld := ⟨0x800000, 25, 1⟩
def CMB.STAT.NBANK : Fld := ⟨0x800000, 20, 5⟩
def CMB.STAT.AUDIT_FAIL : Fld := ⟨0x800000, 19, 1⟩
def CMB.FREE.word : Fld := ⟨0x800004, 0, 32⟩
def CMB.FREE.FREE : Fld := ⟨0x800004, 0, 18⟩
def CMB.BANK.word : Fld := ⟨0x800008, 0, 32⟩
def CMB.BANK.RETIRED : Fld := ⟨0x800008, 16, 16⟩
def CMB.BANK.TEST : Fld := ⟨0x800008, 0, 16⟩
def CMB.BANKCTL.word : Fld := ⟨0x80000C, 0, 32⟩
def CMB.BANKCTL.RET_REQ : Fld := ⟨0x80000C, 16, 16⟩
def CMB.BANKCTL.RTN_REQ : Fld := ⟨0x80000C, 0, 16⟩
def CMB.BPCFG.word : Fld := ⟨0x800010, 0, 32⟩
def CMB.BPCFG.A7 : Fld := ⟨0x800010, 21, 3⟩
def CMB.BPCFG.A6 : Fld := ⟨0x800010, 18, 3⟩
def CMB.BPCFG.A5 : Fld := ⟨0x800010, 15, 3⟩
def CMB.BPCFG.A4 : Fld := ⟨0x800010, 12, 3⟩
def CMB.BPCFG.A3 : Fld := ⟨0x800010, 9, 3⟩
def CMB.BPCFG.A2 : Fld := ⟨0x800010, 6, 3⟩
def CMB.BPCFG.A1 : Fld := ⟨0x800010, 3, 3⟩
def CMB.BPCFG.A0 : Fld := ⟨0x800010, 0, 3⟩
def CMB.HYST.word : Fld := ⟨0x800014, 0, 32⟩
def CMB.HYST.HYST : Fld := ⟨0x800014, 0, 8⟩
def CMB.SPILL.word : Fld := ⟨0x800018, 0, 32⟩
def CMB.SPILL.EN : Fld := ⟨0x800018, 31, 1⟩
def CMB.SPILL.CLASS : Fld := ⟨0x800018, 16, 5⟩
def CMB.SPILL.OFF : Fld := ⟨0x800018, 8, 8⟩
def CMB.SPILL.ON : Fld := ⟨0x800018, 0, 8⟩
def CMB.SPSTAT.word : Fld := ⟨0x80001C, 0, 32⟩
def CMB.SPSTAT.SEGS : Fld := ⟨0x80001C, 16, 16⟩
def CMB.SPSTAT.QSPILL : Fld := ⟨0x80001C, 0, 7⟩
def CMB.ERRTH.word : Fld := ⟨0x800020, 0, 32⟩
def CMB.ERRTH.AUTO : Fld := ⟨0x800020, 31, 1⟩
def CMB.ERRTH.TH : Fld := ⟨0x800020, 0, 16⟩
def CMB.MODE.word : Fld := ⟨0x800024, 0, 32⟩
def CMB.MODE.FORCE_VOQ : Fld := ⟨0x800024, 0, 1⟩
def CMB.AGE.word (k : Nat) : Fld := ⟨0x800040 + k * 4, 0, 32⟩
def CMB.AGE.LIMIT (k : Nat) : Fld := ⟨0x800040 + k * 4, 0, 20⟩
def SCH.SEL.word : Fld := ⟨0x900000, 0, 32⟩
def SCH.SEL.INDEX : Fld := ⟨0x900000, 0, 12⟩
def SCH.SHP_CFG.word : Fld := ⟨0x900004, 0, 32⟩
def SCH.SHP_CFG.EN : Fld := ⟨0x900004, 31, 1⟩
def SCH.SHP_CFG.TOKRST : Fld := ⟨0x900004, 30, 1⟩
def SCH.SHP_CFG.UNIT : Fld := ⟨0x900004, 29, 1⟩
def SCH.SHP_CFG.RATE : Fld := ⟨0x900004, 0, 18⟩
def SCH.SHP_BURST.word : Fld := ⟨0x900008, 0, 32⟩
def SCH.SHP_BURST.OVH : Fld := ⟨0x900008, 24, 8⟩
def SCH.SHP_BURST.BURST : Fld := ⟨0x900008, 0, 16⟩
def SCH.SHP_TOK.word : Fld := ⟨0x90000C, 0, 32⟩
def SCH.SHP_TOK.TOKENS : Fld := ⟨0x90000C, 0, 32⟩
def SCH.SHP_CTL.word : Fld := ⟨0x900010, 0, 32⟩
def SCH.SHP_CTL.LOAD : Fld := ⟨0x900010, 1, 1⟩
def SCH.SHP_CTL.APPLY : Fld := ⟨0x900010, 0, 1⟩
def SCH.HWM_SEL.word : Fld := ⟨0x900020, 0, 32⟩
def SCH.HWM_SEL.QUEUE : Fld := ⟨0x900020, 0, 8⟩
def SCH.HWM_OCC.word : Fld := ⟨0x900024, 0, 32⟩
def SCH.HWM_OCC.PEAK : Fld := ⟨0x900024, 0, 25⟩
def SCH.HWM_SOJ.word : Fld := ⟨0x900028, 0, 32⟩
def SCH.HWM_SOJ.PEAK : Fld := ⟨0x900028, 0, 32⟩
def SCH.DWRR.word (k : Nat) : Fld := ⟨0x900100 + k * 4, 0, 32⟩
def SCH.DWRR.Q4 (k : Nat) : Fld := ⟨0x900100 + k * 4, 24, 8⟩
def SCH.DWRR.Q3 (k : Nat) : Fld := ⟨0x900100 + k * 4, 16, 8⟩
def SCH.DWRR.Q2 (k : Nat) : Fld := ⟨0x900100 + k * 4, 8, 8⟩
def SCH.DWRR.Q1 (k : Nat) : Fld := ⟨0x900100 + k * 4, 0, 8⟩
def GRD.SEL.word : Fld := ⟨0xA00000, 0, 32⟩
def GRD.SEL.INDEX : Fld := ⟨0xA00000, 0, 12⟩
def GRD.POL_CFG.word : Fld := ⟨0xA00004, 0, 32⟩
def GRD.POL_CFG.EN : Fld := ⟨0xA00004, 31, 1⟩
def GRD.POL_CFG.TOKRST : Fld := ⟨0xA00004, 30, 1⟩
def GRD.POL_CFG.RATE : Fld := ⟨0xA00004, 0, 18⟩
def GRD.POL_BURST.word : Fld := ⟨0xA00008, 0, 32⟩
def GRD.POL_BURST.OVH : Fld := ⟨0xA00008, 24, 8⟩
def GRD.POL_BURST.BURST : Fld := ⟨0xA00008, 0, 16⟩
def GRD.POL_TOK.word : Fld := ⟨0xA0000C, 0, 32⟩
def GRD.POL_TOK.TOKENS : Fld := ⟨0xA0000C, 0, 32⟩
def GRD.POL_CTL.word : Fld := ⟨0xA00010, 0, 32⟩
def GRD.POL_CTL.LOAD : Fld := ⟨0xA00010, 1, 1⟩
def GRD.POL_CTL.APPLY : Fld := ⟨0xA00010, 0, 1⟩
def GRD.XB_CFG.word : Fld := ⟨0xA00020, 0, 32⟩
def GRD.XB_CFG.EN : Fld := ⟨0xA00020, 31, 1⟩
def GRD.XB_CFG.TOKRST : Fld := ⟨0xA00020, 30, 1⟩
def GRD.XB_CFG.RATE : Fld := ⟨0xA00020, 0, 18⟩
def GRD.XB_BURST.word : Fld := ⟨0xA00024, 0, 32⟩
def GRD.XB_BURST.OVH : Fld := ⟨0xA00024, 24, 8⟩
def GRD.XB_BURST.BURST : Fld := ⟨0xA00024, 0, 16⟩
def GRD.XMON.word : Fld := ⟨0xA00028, 0, 32⟩
def GRD.XMON.XTH : Fld := ⟨0xA00028, 0, 8⟩
def GRD.XMSTAT.word : Fld := ⟨0xA0002C, 0, 32⟩
def GRD.XMSTAT.OVER : Fld := ⟨0xA0002C, 0, 4⟩
def TUN.ERR.word : Fld := ⟨0x700000, 0, 32⟩
def TUN.ERR.DUP : Fld := ⟨0x700000, 2, 1⟩
def TUN.ERR.REPLACE : Fld := ⟨0x700000, 1, 1⟩
def TUN.ERR.ORIG : Fld := ⟨0x700000, 0, 1⟩
def BRG.CFG.word : Fld := ⟨0xB00000, 0, 32⟩
def BRG.CFG.TEN : Fld := ⟨0xB00000, 1, 1⟩
def BRG.CFG.IEN : Fld := ⟨0xB00000, 0, 1⟩
def BRG.WSEL.word : Fld := ⟨0xB00004, 0, 32⟩
def BRG.WSEL.INDEX : Fld := ⟨0xB00004, 0, 6⟩
def BRG.WCFG.word : Fld := ⟨0xB00008, 0, 32⟩
def BRG.WCFG.EN : Fld := ⟨0xB00008, 31, 1⟩
def BRG.WCFG.RDEN : Fld := ⟨0xB00008, 30, 1⟩
def BRG.WCFG.WREN : Fld := ⟨0xB00008, 29, 1⟩
def BRG.WCFG.TSEL : Fld := ⟨0xB00008, 26, 2⟩
def BRG.WCFG.SIZE : Fld := ⟨0xB00008, 20, 6⟩
def BRG.WCFG.TUN : Fld := ⟨0xB00008, 0, 14⟩
def BRG.WLBASE.word : Fld := ⟨0xB0000C, 0, 32⟩
def BRG.WLBASE.LBASE : Fld := ⟨0xB0000C, 0, 24⟩
def BRG.WRBASE.word : Fld := ⟨0xB00010, 0, 32⟩
def BRG.WRBASE.RBASE : Fld := ⟨0xB00010, 0, 28⟩
def BRG.WCTL.word : Fld := ⟨0xB00014, 0, 32⟩
def BRG.WCTL.LOAD : Fld := ⟨0xB00014, 1, 1⟩
def BRG.WCTL.APPLY : Fld := ⟨0xB00014, 0, 1⟩
def BRG.TSEL.word : Fld := ⟨0xB00020, 0, 32⟩
def BRG.TSEL.INDEX : Fld := ⟨0xB00020, 0, 6⟩
def BRG.TCFG.word : Fld := ⟨0xB00024, 0, 32⟩
def BRG.TCFG.V : Fld := ⟨0xB00024, 31, 1⟩
def BRG.TCFG.RD : Fld := ⟨0xB00024, 30, 1⟩
def BRG.TCFG.WR : Fld := ⟨0xB00024, 29, 1⟩
def BRG.TCFG.SIZE : Fld := ⟨0xB00024, 20, 6⟩
def BRG.TCFG.SRCF : Fld := ⟨0xB00024, 0, 14⟩
def BRG.TBASE.word : Fld := ⟨0xB00028, 0, 32⟩
def BRG.TBASE.BASE : Fld := ⟨0xB00028, 0, 28⟩
def BRG.TCTL.word : Fld := ⟨0xB0002C, 0, 32⟩
def BRG.TCTL.LOAD : Fld := ⟨0xB0002C, 1, 1⟩
def BRG.TCTL.APPLY : Fld := ⟨0xB0002C, 0, 1⟩
def BRG.TMO.word (k : Nat) : Fld := ⟨0xB00040 + k * 4, 0, 32⟩
def BRG.TMO.TMO (k : Nat) : Fld := ⟨0xB00040 + k * 4, 0, 22⟩
def BRG.RDSTAT.word : Fld := ⟨0xB00050, 0, 32⟩
def BRG.RDSTAT.PEAK : Fld := ⟨0xB00050, 16, 11⟩
def BRG.RDSTAT.NOW : Fld := ⟨0xB00050, 0, 11⟩
def BRG.PWL_STAT.word : Fld := ⟨0xB00060, 0, 32⟩
def BRG.PWL_STAT.OVF : Fld := ⟨0xB00060, 16, 16⟩
def BRG.PWL_STAT.COUNT : Fld := ⟨0xB00060, 0, 7⟩
def BRG.ELG_STAT.word : Fld := ⟨0xB00068, 0, 32⟩
def BRG.ELG_STAT.OVF : Fld := ⟨0xB00068, 16, 16⟩
def BRG.ELG_STAT.COUNT : Fld := ⟨0xB00068, 0, 7⟩
def BRG.PWL_DATA.word : Fld := ⟨0xB00064, 0, 32⟩
def BRG.PWL_DATA.WORD : Fld := ⟨0xB00064, 0, 32⟩
def BRG.ELG_DATA.word : Fld := ⟨0xB0006C, 0, 32⟩
def BRG.ELG_DATA.WORD : Fld := ⟨0xB0006C, 0, 32⟩
def TIM.CFG.word : Fld := ⟨0x1000000, 0, 32⟩
def TIM.CFG.PSEL : Fld := ⟨0x1000000, 25, 3⟩
def TIM.CFG.STEP_TH : Fld := ⟨0x1000000, 16, 8⟩
def TIM.CFG.KP : Fld := ⟨0x1000000, 12, 4⟩
def TIM.CFG.KI : Fld := ⟨0x1000000, 8, 4⟩
def TIM.CFG.EN : Fld := ⟨0x1000000, 0, 1⟩
def TIM.STAT.word : Fld := ⟨0x1000004, 0, 32⟩
def TIM.STAT.QSTATE : Fld := ⟨0x1000004, 29, 3⟩
def TIM.STAT.PORT : Fld := ⟨0x1000004, 27, 2⟩
def TIM.STAT.PV : Fld := ⟨0x1000004, 26, 1⟩
def TIM.STAT.UQUAL : Fld := ⟨0x1000004, 16, 8⟩
def TIM.STAT.STRAT : Fld := ⟨0x1000004, 0, 8⟩
def TIM.OFS.word : Fld := ⟨0x1000014, 0, 32⟩
def TIM.OFS.OFFSET : Fld := ⟨0x1000014, 0, 32⟩
def TIM.PRTT.word (k : Nat) : Fld := ⟨0x1000020 + k * 4, 0, 32⟩
def TIM.PRTT.RTT (k : Nat) : Fld := ⟨0x1000020 + k * 4, 0, 32⟩
def TIM.PASYM.word (k : Nat) : Fld := ⟨0x1000030 + k * 4, 0, 32⟩
def TIM.PASYM.ASYM (k : Nat) : Fld := ⟨0x1000030 + k * 4, 0, 16⟩
def TIM.HOLD.word : Fld := ⟨0x1000040, 0, 32⟩
def TIM.HOLD.ELAPSED : Fld := ⟨0x1000040, 0, 32⟩
def TIM.ANN.word : Fld := ⟨0x1000044, 0, 32⟩
def TIM.ANN.UTCOFS : Fld := ⟨0x1000044, 24, 8⟩
def TIM.ANN.LEAP : Fld := ⟨0x1000044, 22, 2⟩
def TIM.ANN.TUN : Fld := ⟨0x1000044, 0, 14⟩
def TRG.PCFG.word (k : Nat) : Fld := ⟨0x1100000 + k * 4, 0, 32⟩
def TRG.PCFG.MODE (k : Nat) : Fld := ⟨0x1100000 + k * 4, 30, 2⟩
def TRG.PCFG.POL (k : Nat) : Fld := ⟨0x1100000 + k * 4, 29, 1⟩
def TRG.PCFG.BOTH (k : Nat) : Fld := ⟨0x1100000 + k * 4, 28, 1⟩
def TRG.PCFG.LATEFIRE (k : Nat) : Fld := ⟨0x1100000 + k * 4, 27, 1⟩
def TRG.PCFG.RPT (k : Nat) : Fld := ⟨0x1100000 + k * 4, 26, 1⟩
def TRG.PCFG.FILT (k : Nat) : Fld := ⟨0x1100000 + k * 4, 16, 10⟩
def TRG.ACTL.word : Fld := ⟨0x1100034, 0, 32⟩
def TRG.ACTL.COUNT : Fld := ⟨0x1100034, 16, 16⟩
def TRG.ACTL.CANCEL : Fld := ⟨0x1100034, 1, 1⟩
def TRG.ACTL.ARM : Fld := ⟨0x1100034, 0, 1⟩
def TRG.QSTAT.word : Fld := ⟨0x1100038, 0, 32⟩
def TRG.QSTAT.PEND : Fld := ⟨0x1100038, 0, 32⟩
def TRG.ERR.word : Fld := ⟨0x110003C, 0, 32⟩
def TRG.ERR.CAP_OVF : Fld := ⟨0x110003C, 24, 8⟩
def TRG.ERR.OVERLAP : Fld := ⟨0x110003C, 16, 8⟩
def TRG.ERR.QFULL : Fld := ⟨0x110003C, 8, 8⟩
def TRG.ERR.LATE : Fld := ⟨0x110003C, 0, 8⟩
def TRG.RPT.word : Fld := ⟨0x1100040, 0, 32⟩
def TRG.RPT.PERIOD : Fld := ⟨0x1100040, 24, 8⟩
def TRG.RPT.TUN : Fld := ⟨0x1100040, 0, 14⟩
def CMD.STAT.word : Fld := ⟨0xC00000, 0, 32⟩
def CMD.STAT.HOSTSEL : Fld := ⟨0xC00000, 31, 1⟩
def CMD.STAT.KEYV : Fld := ⟨0xC00000, 30, 1⟩
def CMD.STAT.INFL_LINE : Fld := ⟨0xC00000, 22, 7⟩
def CMD.STAT.INFL_HOST : Fld := ⟨0xC00000, 15, 7⟩
def CMD.STAT.INFL_SVC : Fld := ⟨0xC00000, 8, 7⟩
def CMD.STAT.SESS : Fld := ⟨0xC00000, 0, 6⟩
def CMD.HOSTSEL.word : Fld := ⟨0xC00004, 0, 32⟩
def CMD.HOSTSEL.SEL : Fld := ⟨0xC00004, 0, 1⟩
def CMD.OPEN_LINE.word : Fld := ⟨0xC00008, 0, 32⟩
def CMD.OPEN_LINE.GMASK : Fld := ⟨0xC00008, 0, 16⟩
def CMD.OPEN_HOST.word : Fld := ⟨0xC0000C, 0, 32⟩
def CMD.OPEN_HOST.GMASK : Fld := ⟨0xC0000C, 0, 16⟩
def CMD.OPEN_SVC.word : Fld := ⟨0xC00010, 0, 32⟩
def CMD.OPEN_SVC.GMASK : Fld := ⟨0xC00010, 0, 16⟩
def CMD.RELAY.word : Fld := ⟨0xC00014, 0, 32⟩
def CMD.RELAY.EN_HOST : Fld := ⟨0xC00014, 31, 1⟩
def CMD.RELAY.EN_SVC : Fld := ⟨0xC00014, 30, 1⟩
def CMD.RELAY.XPR : Fld := ⟨0xC00014, 29, 1⟩
def CMD.RELAY.TMO : Fld := ⟨0xC00014, 0, 22⟩
def CMD.SCFG.word : Fld := ⟨0xC00018, 0, 32⟩
def CMD.SCFG.IDLE : Fld := ⟨0xC00018, 16, 16⟩
def CMD.SCFG.MACLIM : Fld := ⟨0xC00018, 0, 8⟩
def CMD.LKEY.word (k : Nat) : Fld := ⟨0xC00020 + k * 4, 0, 32⟩
def CMD.LKEY.KEY (k : Nat) : Fld := ⟨0xC00020 + k * 4, 0, 32⟩
def GLB.ID.word : Fld := ⟨0x0, 0, 32⟩
def GLB.ID.VENDOR : Fld := ⟨0x0, 20, 12⟩
def GLB.ID.PART : Fld := ⟨0x0, 8, 12⟩
def GLB.ID.STEP : Fld := ⟨0x0, 4, 4⟩
def GLB.ID.METAL : Fld := ⟨0x0, 0, 4⟩
def GLB.CAP.word : Fld := ⟨0x4, 0, 32⟩
def GLB.CAP.VARIANT : Fld := ⟨0x4, 24, 8⟩
def GLB.CAP.SLOTS : Fld := ⟨0x4, 16, 8⟩
def GLB.CAP.NHL : Fld := ⟨0x4, 12, 4⟩
def GLB.CAP.NTRIG : Fld := ⟨0x4, 8, 4⟩
def GLB.STRAP.word : Fld := ⟨0x8, 0, 32⟩
def GLB.STRAP.ROLE_PIN : Fld := ⟨0x8, 30, 2⟩
def GLB.STRAP.ROLE : Fld := ⟨0x8, 28, 2⟩
def GLB.STRAP.COMPAT_LH4 : Fld := ⟨0x8, 27, 1⟩
def GLB.STAT.word : Fld := ⟨0xC, 0, 32⟩
def GLB.STAT.STRAP_ERR : Fld := ⟨0xC, 31, 1⟩
def GLB.STAT.ADDR_ERR : Fld := ⟨0xC, 30, 1⟩
def GLB.STAT.LOCKED : Fld := ⟨0xC, 29, 1⟩
def GLB.STAT.BOOTED : Fld := ⟨0xC, 28, 1⟩
def GLB.STAT.LINKFAIL : Fld := ⟨0xC, 8, 8⟩
def GLB.SLOT.word : Fld := ⟨0x10, 0, 32⟩
def GLB.SLOT.S7 : Fld := ⟨0x10, 28, 4⟩
def GLB.SLOT.S6 : Fld := ⟨0x10, 24, 4⟩
def GLB.SLOT.S5 : Fld := ⟨0x10, 20, 4⟩
def GLB.SLOT.S4 : Fld := ⟨0x10, 16, 4⟩
def GLB.SLOT.S3 : Fld := ⟨0x10, 12, 4⟩
def GLB.SLOT.S2 : Fld := ⟨0x10, 8, 4⟩
def GLB.SLOT.S1 : Fld := ⟨0x10, 4, 4⟩
def GLB.SLOT.S0 : Fld := ⟨0x10, 0, 4⟩
def GLB.ADDRERR.word : Fld := ⟨0x14, 0, 32⟩
def GLB.ADDRERR.ADDR : Fld := ⟨0x14, 0, 32⟩
def GLB.SCRATCH.word : Fld := ⟨0x18, 0, 32⟩
def GLB.SCRATCH.VALUE : Fld := ⟨0x18, 0, 32⟩
def DIE.SID.word (k : Nat) : Fld := ⟨0x1500000 + k * 4, 0, 32⟩
def DIE.SID.ROLE (k : Nat) : Fld := ⟨0x1500000 + k * 4, 28, 4⟩
def DIE.SID.STEP (k : Nat) : Fld := ⟨0x1500000 + k * 4, 24, 4⟩
def DIE.SID.METAL (k : Nat) : Fld := ⟨0x1500000 + k * 4, 20, 4⟩
def DCM.CFG.word : Fld := ⟨0x1400000, 0, 32⟩
def DCM.CFG.RGN_APPLY : Fld := ⟨0x1400000, 0, 1⟩
def DCM.STAT.word : Fld := ⟨0x1400004, 0, 32⟩
def DCM.STAT.TRAINED : Fld := ⟨0x1400004, 31, 1⟩
def DCM.STAT.RGNERR : Fld := ⟨0x1400004, 30, 1⟩
def DCM.STAT.PEND : Fld := ⟨0x1400004, 16, 8⟩
def DCM.STAT.MTS : Fld := ⟨0x1400004, 0, 16⟩
def DCM.RGN.word (k : Nat) : Fld := ⟨0x1400010 + k * 4, 0, 32⟩
def DCM.RGN.CUR (k : Nat) : Fld := ⟨0x1400010 + k * 4, 16, 12⟩
def DCM.RGN.START (k : Nat) : Fld := ⟨0x1400010 + k * 4, 0, 12⟩
def TCP.CFG.word (n : Nat) : Fld := ⟨0x40000000 + n / 4 * 0x80000000 + n % 4 * 0x100000, 0, 32⟩
def TCP.CFG.EN (n : Nat) : Fld := ⟨0x40000000 + n / 4 * 0x80000000 + n % 4 * 0x100000, 31, 1⟩
def TCP.CFG.RP (n : Nat) : Fld := ⟨0x40000000 + n / 4 * 0x80000000 + n % 4 * 0x100000, 29, 2⟩
def TCP.CFG.PD_EN (n : Nat) : Fld := ⟨0x40000000 + n / 4 * 0x80000000 + n % 4 * 0x100000, 28, 1⟩
def TCP.CFG.ALT_EN (n : Nat) : Fld := ⟨0x40000000 + n / 4 * 0x80000000 + n % 4 * 0x100000, 27, 1⟩
def TCP.CFG.VCONN_EN (n : Nat) : Fld := ⟨0x40000000 + n / 4 * 0x80000000 + n % 4 * 0x100000, 26, 1⟩
def TCP.STAT.word (n : Nat) : Fld := ⟨0x40000004 + n / 4 * 0x80000000 + n % 4 * 0x100000, 0, 32⟩
def TCP.STAT.TCSTATE (n : Nat) : Fld := ⟨0x40000004 + n / 4 * 0x80000000 + n % 4 * 0x100000, 29, 3⟩
def TCP.STAT.ORIENT (n : Nat) : Fld := ⟨0x40000004 + n / 4 * 0x80000000 + n % 4 * 0x100000, 28, 1⟩
def TCP.STAT.RA (n : Nat) : Fld := ⟨0x40000004 + n / 4 * 0x80000000 + n % 4 * 0x100000, 27, 1⟩
def TCP.STAT.EMARK (n : Nat) : Fld := ⟨0x40000004 + n / 4 * 0x80000000 + n % 4 * 0x100000, 26, 1⟩
def TCP.STAT.CABLE5A (n : Nat) : Fld := ⟨0x40000004 + n / 4 * 0x80000000 + n % 4 * 0x100000, 25, 1⟩
def TCP.STAT.PDCONN (n : Nat) : Fld := ⟨0x40000004 + n / 4 * 0x80000000 + n % 4 * 0x100000, 24, 1⟩
def TCP.STAT.RPCUR (n : Nat) : Fld := ⟨0x40000004 + n / 4 * 0x80000000 + n % 4 * 0x100000, 22, 2⟩
def TCP.STAT.PE (n : Nat) : Fld := ⟨0x40000004 + n / 4 * 0x80000000 + n % 4 * 0x100000, 19, 3⟩
def TCP.CONTRACT.word (n : Nat) : Fld := ⟨0x40000008 + n / 4 * 0x80000000 + n % 4 * 0x100000, 0, 32⟩
def TCP.CONTRACT.VSEL (n : Nat) : Fld := ⟨0x40000008 + n / 4 * 0x80000000 + n % 4 * 0x100000, 30, 2⟩
def TCP.CONTRACT.IOP (n : Nat) : Fld := ⟨0x40000008 + n / 4 * 0x80000000 + n % 4 * 0x100000, 20, 10⟩
def TCP.CONTRACT.PWR (n : Nat) : Fld := ⟨0x40000008 + n / 4 * 0x80000000 + n % 4 * 0x100000, 12, 8⟩
def TCP.CONTRACT.POS (n : Nat) : Fld := ⟨0x40000008 + n / 4 * 0x80000000 + n % 4 * 0x100000, 9, 3⟩
def TCP.CONTRACT.WAITP (n : Nat) : Fld := ⟨0x40000008 + n / 4 * 0x80000000 + n % 4 * 0x100000, 8, 1⟩
def TCP.VCONN.word (n : Nat) : Fld := ⟨0x4000000C + n / 4 * 0x80000000 + n % 4 * 0x100000, 0, 32⟩
def TCP.VCONN.ON (n : Nat) : Fld := ⟨0x4000000C + n / 4 * 0x80000000 + n % 4 * 0x100000, 31, 1⟩
def TCP.VCONN.SRC (n : Nat) : Fld := ⟨0x4000000C + n / 4 * 0x80000000 + n % 4 * 0x100000, 30, 1⟩
def TCP.VCONN.OCP (n : Nat) : Fld := ⟨0x4000000C + n / 4 * 0x80000000 + n % 4 * 0x100000, 29, 1⟩
def TCP.ALT.word (n : Nat) : Fld := ⟨0x40000010 + n / 4 * 0x80000000 + n % 4 * 0x100000, 0, 32⟩
def TCP.ALT.ACTIVE (n : Nat) : Fld := ⟨0x40000010 + n / 4 * 0x80000000 + n % 4 * 0x100000, 31, 1⟩
def TCP.ALT.PINASG (n : Nat) : Fld := ⟨0x40000010 + n / 4 * 0x80000000 + n % 4 * 0x100000, 29, 2⟩
def TCP.ALT.HEAD (n : Nat) : Fld := ⟨0x40000010 + n / 4 * 0x80000000 + n % 4 * 0x100000, 28, 1⟩
def TCP.ALT.HPD (n : Nat) : Fld := ⟨0x40000010 + n / 4 * 0x80000000 + n % 4 * 0x100000, 27, 1⟩
def TCP.ALT.NOHEAD (n : Nat) : Fld := ⟨0x40000010 + n / 4 * 0x80000000 + n % 4 * 0x100000, 26, 1⟩
def TCP.ALT.SVID (n : Nat) : Fld := ⟨0x40000010 + n / 4 * 0x80000000 + n % 4 * 0x100000, 0, 16⟩
def TCP.EVT.word (n : Nat) : Fld := ⟨0x40000014 + n / 4 * 0x80000000 + n % 4 * 0x100000, 0, 32⟩
def TCP.EVT.VBUS_OC (n : Nat) : Fld := ⟨0x40000014 + n / 4 * 0x80000000 + n % 4 * 0x100000, 8, 1⟩
def TCP.EVT.ATTACH (n : Nat) : Fld := ⟨0x40000014 + n / 4 * 0x80000000 + n % 4 * 0x100000, 7, 1⟩
def TCP.EVT.DETACH (n : Nat) : Fld := ⟨0x40000014 + n / 4 * 0x80000000 + n % 4 * 0x100000, 6, 1⟩
def TCP.EVT.CONTRACT (n : Nat) : Fld := ⟨0x40000014 + n / 4 * 0x80000000 + n % 4 * 0x100000, 5, 1⟩
def TCP.EVT.WAIT (n : Nat) : Fld := ⟨0x40000014 + n / 4 * 0x80000000 + n % 4 * 0x100000, 4, 1⟩
def TCP.EVT.HARD_RESET (n : Nat) : Fld := ⟨0x40000014 + n / 4 * 0x80000000 + n % 4 * 0x100000, 3, 1⟩
def TCP.EVT.ABORT (n : Nat) : Fld := ⟨0x40000014 + n / 4 * 0x80000000 + n % 4 * 0x100000, 2, 1⟩
def TCP.EVT.ALT (n : Nat) : Fld := ⟨0x40000014 + n / 4 * 0x80000000 + n % 4 * 0x100000, 1, 1⟩
def TCP.EVT.VCONN_FAULT (n : Nat) : Fld := ⟨0x40000014 + n / 4 * 0x80000000 + n % 4 * 0x100000, 0, 1⟩
def PDP.BUDGET.word (n : Nat) : Fld := ⟨0x40500000 + n * 0x80000000, 0, 32⟩
def PDP.BUDGET.BUDGET (n : Nat) : Fld := ⟨0x40500000 + n * 0x80000000, 0, 9⟩
def PDP.ALLOC.word (n : Nat) : Fld := ⟨0x40500004 + n * 0x80000000, 0, 32⟩
def PDP.ALLOC.P3 (n : Nat) : Fld := ⟨0x40500004 + n * 0x80000000, 24, 8⟩
def PDP.ALLOC.P2 (n : Nat) : Fld := ⟨0x40500004 + n * 0x80000000, 16, 8⟩
def PDP.ALLOC.P1 (n : Nat) : Fld := ⟨0x40500004 + n * 0x80000000, 8, 8⟩
def PDP.ALLOC.P0 (n : Nat) : Fld := ⟨0x40500004 + n * 0x80000000, 0, 8⟩
def PDP.RULEGEN.word (n : Nat) : Fld := ⟨0x40500008 + n * 0x80000000, 0, 32⟩
def PDP.RULEGEN.GEN (n : Nat) : Fld := ⟨0x40500008 + n * 0x80000000, 16, 16⟩
def PDP.RULEGEN.NRULE (n : Nat) : Fld := ⟨0x40500008 + n * 0x80000000, 8, 8⟩
def PDP.RULEGEN.NALT (n : Nat) : Fld := ⟨0x40500008 + n * 0x80000000, 0, 8⟩
def PDP.STAT.word (n : Nat) : Fld := ⟨0x4050000C + n * 0x80000000, 0, 32⟩
def PDP.STAT.BUSY (n : Nat) : Fld := ⟨0x4050000C + n * 0x80000000, 31, 1⟩
def PDP.STAT.RECLAIM (n : Nat) : Fld := ⟨0x4050000C + n * 0x80000000, 30, 1⟩
def PDP.STAT.WAITPORTS (n : Nat) : Fld := ⟨0x4050000C + n * 0x80000000, 26, 4⟩
def PDP.STAT.FREE (n : Nat) : Fld := ⟨0x4050000C + n * 0x80000000, 0, 9⟩
def SVC.PDSTAT.word : Fld := ⟨0x1300030, 0, 32⟩
def SVC.PDSTAT.ATT : Fld := ⟨0x1300030, 31, 1⟩
def SVC.PDSTAT.DB : Fld := ⟨0x1300030, 30, 1⟩
def SVC.PDSTAT.PDC : Fld := ⟨0x1300030, 29, 1⟩
def SVC.PDSTAT.VSEL : Fld := ⟨0x1300030, 27, 2⟩
def SVC.PDSTAT.IOP : Fld := ⟨0x1300030, 17, 10⟩
def SVC.PDSTAT.RPSEEN : Fld := ⟨0x1300030, 15, 2⟩
def SVC.PDSTAT.TIER : Fld := ⟨0x1300030, 14, 1⟩
def USB.HUBCFG.word (n : Nat) : Fld := ⟨0x40400000 + n * 0x80000000, 0, 32⟩
def USB.HUBCFG.PEN (n : Nat) : Fld := ⟨0x40400000 + n * 0x80000000, 28, 4⟩
def USB.HUBCFG.SSEN (n : Nat) : Fld := ⟨0x40400000 + n * 0x80000000, 24, 4⟩
def USB.HUBCFG.LPM (n : Nat) : Fld := ⟨0x40400000 + n * 0x80000000, 23, 1⟩
def USB.HUBCFG.U1U2 (n : Nat) : Fld := ⟨0x40400000 + n * 0x80000000, 22, 1⟩
def USB.HUBSTAT.word (n : Nat) : Fld := ⟨0x40400004 + n * 0x80000000, 0, 32⟩
def USB.HUBSTAT.PORT3 (n : Nat) : Fld := ⟨0x40400004 + n * 0x80000000, 24, 8⟩
def USB.HUBSTAT.PORT2 (n : Nat) : Fld := ⟨0x40400004 + n * 0x80000000, 16, 8⟩
def USB.HUBSTAT.PORT1 (n : Nat) : Fld := ⟨0x40400004 + n * 0x80000000, 8, 8⟩
def USB.HUBSTAT.PORT0 (n : Nat) : Fld := ⟨0x40400004 + n * 0x80000000, 0, 8⟩
def USB.PRX_CFG.word (n : Nat) : Fld := ⟨0x40400010 + n * 0x80000000, 0, 32⟩
def USB.PRX_CFG.NTUN (n : Nat) : Fld := ⟨0x40400010 + n * 0x80000000, 16, 14⟩
def USB.PRX_CFG.NMOD (n : Nat) : Fld := ⟨0x40400010 + n * 0x80000000, 0, 8⟩
def USB.PRX_RBASE.word (n : Nat) : Fld := ⟨0x40400014 + n * 0x80000000, 0, 32⟩
def USB.PRX_RBASE.BASE (n : Nat) : Fld := ⟨0x40400014 + n * 0x80000000, 12, 20⟩
def USB.PRX_DB.word (n : Nat) : Fld := ⟨0x40400018 + n * 0x80000000, 0, 32⟩
def USB.PRX_DB.RING (n : Nat) : Fld := ⟨0x40400018 + n * 0x80000000, 16, 7⟩
def USB.PRX_DB.INDEX (n : Nat) : Fld := ⟨0x40400018 + n * 0x80000000, 0, 16⟩
def USB.PRX_STAT.word (n : Nat) : Fld := ⟨0x4040001C + n * 0x80000000, 0, 32⟩
def USB.PRX_STAT.RUN (n : Nat) : Fld := ⟨0x4040001C + n * 0x80000000, 31, 1⟩
def USB.PRX_STAT.EVFULL (n : Nat) : Fld := ⟨0x4040001C + n * 0x80000000, 30, 1⟩
def USB.PRX_STAT.PERHOLD (n : Nat) : Fld := ⟨0x4040001C + n * 0x80000000, 29, 1⟩
def USB.PRX_STAT.ERR (n : Nat) : Fld := ⟨0x4040001C + n * 0x80000000, 16, 8⟩
def USB.PRX_STAT.NRUN (n : Nat) : Fld := ⟨0x4040001C + n * 0x80000000, 0, 7⟩
def SVC.CTRL.word : Fld := ⟨0x1300000, 0, 32⟩
def SVC.CTRL.CONNECT : Fld := ⟨0x1300000, 31, 1⟩
def SVC.CTRL.RWAKE : Fld := ⟨0x1300000, 30, 1⟩
def SVC.CTRL.FORCE_FS : Fld := ⟨0x1300000, 29, 1⟩
def SVC.CTRL.EPB_LOAD : Fld := ⟨0x1300000, 0, 1⟩
def SVC.STAT.word : Fld := ⟨0x1300004, 0, 32⟩
def SVC.STAT.BSTATE : Fld := ⟨0x1300004, 29, 3⟩
def SVC.STAT.HS : Fld := ⟨0x1300004, 28, 1⟩
def SVC.STAT.ADDR : Fld := ⟨0x1300004, 21, 7⟩
def SVC.STAT.RWE : Fld := ⟨0x1300004, 20, 1⟩
def SVC.STAT.WAKEP : Fld := ⟨0x1300004, 19, 1⟩
def SVC.STAT.CARVED : Fld := ⟨0x1300004, 18, 1⟩
def SVC.STAT.EPB_ERR : Fld := ⟨0x1300004, 17, 1⟩
def SVC.STAT.FRAME : Fld := ⟨0x1300004, 0, 11⟩
def SVC.EPBUF.word (k : Nat) : Fld := ⟨0x1300010 + k * 4, 0, 32⟩
def SVC.EPBUF.BASE (k : Nat) : Fld := ⟨0x1300010 + k * 4, 16, 10⟩
def SVC.EPBUF.SIZE (k : Nat) : Fld := ⟨0x1300010 + k * 4, 0, 11⟩
def SVC.ORPH.word : Fld := ⟨0x1300034, 0, 32⟩
def SVC.ORPH.EXPIRED : Fld := ⟨0x1300034, 16, 16⟩
def SVC.ORPH.COUNT : Fld := ⟨0x1300034, 0, 7⟩
def DSP.CFG.word (n : Nat) : Fld := ⟨0xA0000000 + n * 0x100000, 0, 32⟩
def DSP.CFG.EN (n : Nat) : Fld := ⟨0xA0000000 + n * 0x100000, 31, 1⟩
def DSP.CFG.CMD (n : Nat) : Fld := ⟨0xA0000000 + n * 0x100000, 30, 1⟩
def DSP.CFG.VBEVT (n : Nat) : Fld := ⟨0xA0000000 + n * 0x100000, 29, 1⟩
def DSP.CFG.FLIP (n : Nat) : Fld := ⟨0xA0000000 + n * 0x100000, 28, 1⟩
def DSP.CFG.EVTUN (n : Nat) : Fld := ⟨0xA0000000 + n * 0x100000, 0, 14⟩
def DSP.STAT.word (n : Nat) : Fld := ⟨0xA0000004 + n * 0x100000, 0, 32⟩
def DSP.STAT.SSTATE (n : Nat) : Fld := ⟨0xA0000004 + n * 0x100000, 30, 2⟩
def DSP.STAT.FLIPPEND (n : Nat) : Fld := ⟨0xA0000004 + n * 0x100000, 29, 1⟩
def DSP.STAT.LINE (n : Nat) : Fld := ⟨0xA0000004 + n * 0x100000, 16, 13⟩
def DSP.STAT.UNDER (n : Nat) : Fld := ⟨0xA0000004 + n * 0x100000, 15, 1⟩
def DSP.STAT.TE_MISS (n : Nat) : Fld := ⟨0xA0000004 + n * 0x100000, 14, 1⟩
def DSP.STAT.FLIP_ERR (n : Nat) : Fld := ⟨0xA0000004 + n * 0x100000, 13, 1⟩
def DSP.STAT.FB_ERR (n : Nat) : Fld := ⟨0xA0000004 + n * 0x100000, 12, 1⟩
def DSP.STAT.SUPER (n : Nat) : Fld := ⟨0xA0000004 + n * 0x100000, 11, 1⟩
def DSP.STAT.TIM_ERR (n : Nat) : Fld := ⟨0xA0000004 + n * 0x100000, 10, 1⟩
def DSP.STAT.GEN (n : Nat) : Fld := ⟨0xA0000004 + n * 0x100000, 0, 8⟩
def DSP.LTOL.word (n : Nat) : Fld := ⟨0xA0000080 + n * 0x100000, 0, 32⟩
def DSP.LTOL.LOW (n : Nat) : Fld := ⟨0xA0000080 + n * 0x100000, 28, 4⟩
def DSP.LTOL.GUARD (n : Nat) : Fld := ⟨0xA0000080 + n * 0x100000, 24, 4⟩
def DSP.LTOL.TOL (n : Nat) : Fld := ⟨0xA0000080 + n * 0x100000, 0, 24⟩
def DSP.UCOLOR.word (n : Nat) : Fld := ⟨0xA0000084 + n * 0x100000, 0, 32⟩
def DSP.UCOLOR.R (n : Nat) : Fld := ⟨0xA0000084 + n * 0x100000, 20, 10⟩
def DSP.UCOLOR.G (n : Nat) : Fld := ⟨0xA0000084 + n * 0x100000, 10, 10⟩
def DSP.UCOLOR.B (n : Nat) : Fld := ⟨0xA0000084 + n * 0x100000, 0, 10⟩
def DMX.ROUTE.word : Fld := ⟨0xA0200000, 0, 32⟩
def DMX.ROUTE.OUT1 : Fld := ⟨0xA0200000, 30, 2⟩
def DMX.ROUTE.OUT0 : Fld := ⟨0xA0200000, 28, 2⟩
def DMX.ROUTE.TUN1 : Fld := ⟨0xA0200000, 14, 14⟩
def DMX.ROUTE.TUN0 : Fld := ⟨0xA0200000, 0, 14⟩
def DMX.STAT.word : Fld := ⟨0xA0200004, 0, 32⟩
def DMX.STAT.HPD1 : Fld := ⟨0xA0200004, 31, 1⟩
def DMX.STAT.HELD1 : Fld := ⟨0xA0200004, 30, 1⟩
def DMX.STAT.W4_1 : Fld := ⟨0xA0200004, 29, 1⟩
def DMX.STAT.BWERR1 : Fld := ⟨0xA0200004, 28, 1⟩
def DMX.STAT.HPD0 : Fld := ⟨0xA0200004, 27, 1⟩
def DMX.STAT.HELD0 : Fld := ⟨0xA0200004, 26, 1⟩
def DMX.STAT.W4_0 : Fld := ⟨0xA0200004, 25, 1⟩
def DMX.STAT.BWERR0 : Fld := ⟨0xA0200004, 24, 1⟩
def LPW.PCFG.word (k : Nat) : Fld := ⟨0xF00000 + k * 4, 0, 32⟩
def LPW.PCFG.EN (k : Nat) : Fld := ⟨0xF00000 + k * 4, 31, 1⟩
def LPW.PCFG.ROLE (k : Nat) : Fld := ⟨0xF00000 + k * 4, 29, 2⟩
def LPW.PCFG.AUTO (k : Nat) : Fld := ⟨0xF00000 + k * 4, 28, 1⟩
def LPW.PCFG.UPCUT (k : Nat) : Fld := ⟨0xF00000 + k * 4, 27, 1⟩
def LPW.PCFG.IFAST (k : Nat) : Fld := ⟨0xF00000 + k * 4, 16, 8⟩
def LPW.PCFG.IINR (k : Nat) : Fld := ⟨0xF00000 + k * 4, 8, 8⟩
def LPW.PCFG.TINR (k : Nat) : Fld := ⟨0xF00000 + k * 4, 0, 8⟩
def LPW.PSTAT.word (k : Nat) : Fld := ⟨0xF00010 + k * 4, 0, 32⟩
def LPW.PSTAT.STATE (k : Nat) : Fld := ⟨0xF00010 + k * 4, 29, 3⟩
def LPW.PSTAT.PG (k : Nat) : Fld := ⟨0xF00010 + k * 4, 28, 1⟩
def LPW.PSTAT.TMR (k : Nat) : Fld := ⟨0xF00010 + k * 4, 27, 1⟩
def LPW.PSTAT.FARSRC (k : Nat) : Fld := ⟨0xF00010 + k * 4, 26, 1⟩
def LPW.PSTAT.DNUNPROT (k : Nat) : Fld := ⟨0xF00010 + k * 4, 25, 1⟩
def LPW.PSTAT.CAUSE (k : Nat) : Fld := ⟨0xF00010 + k * 4, 20, 4⟩
def LPW.PSTAT.QRES (k : Nat) : Fld := ⟨0xF00010 + k * 4, 16, 4⟩
def LPW.PSTAT.IMEAS (k : Nat) : Fld := ⟨0xF00010 + k * 4, 0, 16⟩
def LPW.CSEL.word : Fld := ⟨0xF00020, 0, 32⟩
def LPW.CSEL.CURVE : Fld := ⟨0xF00020, 0, 3⟩
def LPW.CPT.word (k : Nat) : Fld := ⟨0xF00040 + k * 4, 0, 32⟩
def LPW.CPT.ITH (k : Nat) : Fld := ⟨0xF00040 + k * 4, 20, 12⟩
def LPW.CPT.TTH (k : Nat) : Fld := ⟨0xF00040 + k * 4, 0, 20⟩
def LPW.CCTL.word : Fld := ⟨0xF00060, 0, 32⟩
def LPW.CCTL.LOAD : Fld := ⟨0xF00060, 1, 1⟩
def LPW.CCTL.APPLY : Fld := ⟨0xF00060, 0, 1⟩
def LPW.LCFG.word : Fld := ⟨0xF00070, 0, 32⟩
def LPW.LCFG.EN : Fld := ⟨0xF00070, 31, 1⟩
def LPW.LCFG.AUTO : Fld := ⟨0xF00070, 30, 1⟩
def LPW.LCFG.IFAST : Fld := ⟨0xF00070, 16, 8⟩
def LPW.LCFG.IINR : Fld := ⟨0xF00070, 8, 8⟩
def LPW.LCFG.TINR : Fld := ⟨0xF00070, 0, 8⟩
def LPW.LSTAT.word : Fld := ⟨0xF00074, 0, 32⟩
def LPW.LSTAT.STATE : Fld := ⟨0xF00074, 29, 3⟩
def LPW.LSTAT.PG : Fld := ⟨0xF00074, 28, 1⟩
def LPW.LSTAT.TMR : Fld := ⟨0xF00074, 27, 1⟩
def LPW.LSTAT.PWARN : Fld := ⟨0xF00074, 26, 1⟩
def LPW.LSTAT.UVLO : Fld := ⟨0xF00074, 25, 1⟩
def LPW.LSTAT.WLVL : Fld := ⟨0xF00074, 24, 1⟩
def LPW.LSTAT.WSLP : Fld := ⟨0xF00074, 23, 1⟩
def LPW.LSTAT.CAUSE : Fld := ⟨0xF00074, 16, 4⟩
def LPW.LSTAT.VIN : Fld := ⟨0xF00074, 0, 16⟩
def LPW.PWARN.word : Fld := ⟨0xF00078, 0, 32⟩
def LPW.PWARN.VWARN : Fld := ⟨0xF00078, 24, 8⟩
def LPW.PWARN.VUVLO : Fld := ⟨0xF00078, 16, 8⟩
def LPW.PWARN.VON : Fld := ⟨0xF00078, 8, 8⟩
def LPW.PWARN.SLOPE : Fld := ⟨0xF00078, 0, 8⟩
def LPW.QUAL.word : Fld := ⟨0xF0007C, 0, 32⟩
def LPW.QUAL.VSHORT : Fld := ⟨0xF0007C, 24, 8⟩
def LPW.QUAL.IHOLD : Fld := ⟨0xF0007C, 16, 8⟩
def LPW.QUAL.TOFF : Fld := ⟨0xF0007C, 8, 8⟩
def LPW.QUAL.RETRY : Fld := ⟨0xF0007C, 0, 8⟩
def INT.RAW.word (k : Nat) : Fld := ⟨0xD00000 + k * 4, 0, 32⟩
def INT.RAW.RAW (k : Nat) : Fld := ⟨0xD00000 + k * 4, 0, 32⟩
def INT.PEND.word (k : Nat) : Fld := ⟨0xD00040 + k * 4, 0, 32⟩
def INT.PEND.PEND (k : Nat) : Fld := ⟨0xD00040 + k * 4, 0, 32⟩
def INT.EN.word (k : Nat) : Fld := ⟨0xD00080 + k * 4, 0, 32⟩
def INT.EN.EN (k : Nat) : Fld := ⟨0xD00080 + k * 4, 0, 32⟩
def INT.TGT.word (k : Nat) : Fld := ⟨0xD000C0 + k * 4, 0, 32⟩
def INT.TGT.AUTO (k : Nat) : Fld := ⟨0xD000C0 + k * 4, 31, 1⟩
def INT.TGT.TMASK (k : Nat) : Fld := ⟨0xD000C0 + k * 4, 16, 5⟩
def INT.TGT.EVDST (k : Nat) : Fld := ⟨0xD000C0 + k * 4, 0, 14⟩
def INT.HOLD.word (k : Nat) : Fld := ⟨0xD00100 + k * 4, 0, 32⟩
def INT.HOLD.HOLD (k : Nat) : Fld := ⟨0xD00100 + k * 4, 0, 16⟩
def INT.LVL.word (k : Nat) : Fld := ⟨0xD00140 + k * 4, 0, 32⟩
def INT.LVL.LEVEL_RESAMPLE (k : Nat) : Fld := ⟨0xD00140 + k * 4, 0, 32⟩
def INT.DONE.word : Fld := ⟨0xD00180, 0, 32⟩
def INT.DONE.GROUP : Fld := ⟨0xD00180, 0, 4⟩
def INT.SUMMARY.word : Fld := ⟨0xD00184, 0, 32⟩
def INT.SUMMARY.ACT : Fld := ⟨0xD00184, 16, 16⟩
def INT.SUMMARY.PEND : Fld := ⟨0xD00184, 0, 16⟩
def NRS.STAT.word : Fld := ⟨0xE00000, 0, 32⟩
def NRS.STAT.LDST : Fld := ⟨0xE00000, 30, 2⟩
def NRS.STAT.XTOK : Fld := ⟨0xE00000, 29, 1⟩
def NRS.STAT.XTFAIL : Fld := ⟨0xE00000, 28, 1⟩
def NRS.STAT.BLOCK : Fld := ⟨0xE00000, 0, 16⟩
def NRS.CLKCTL.word : Fld := ⟨0xE00004, 0, 32⟩
def NRS.CLKCTL.ALLOW_SBY : Fld := ⟨0xE00004, 31, 1⟩
def NRS.CLKCTL.ALLOW_NAP : Fld := ⟨0xE00004, 30, 1⟩
def NRS.CLKCTL.IDLE : Fld := ⟨0xE00004, 0, 16⟩
def NRS.PSTATE.word : Fld := ⟨0xE00008, 0, 32⟩
def NRS.PSTATE.SWOFF : Fld := ⟨0xE00008, 16, 1⟩
def NRS.PSTATE.SLOTS : Fld := ⟨0xE00008, 4, 12⟩
def NRS.WEN.word : Fld := ⟨0xE0000C, 0, 32⟩
def NRS.WEN.EN : Fld := ⟨0xE0000C, 0, 32⟩
def NRS.WREASON.word : Fld := ⟨0xE00010, 0, 32⟩
def NRS.WREASON.V : Fld := ⟨0xE00010, 31, 1⟩
def NRS.WREASON.KIND : Fld := ⟨0xE00010, 28, 3⟩
def NRS.WREASON.INDEX : Fld := ⟨0xE00010, 0, 5⟩
def NRS.TICK.word : Fld := ⟨0xE00014, 0, 32⟩
def NRS.TICK.COUNT : Fld := ⟨0xE00014, 0, 32⟩
def NRS.WSEL.word (k : Nat) : Fld := ⟨0xE00040 + k * 4, 0, 32⟩
def NRS.WSEL.SRC (k : Nat) : Fld := ⟨0xE00040 + k * 4, 0, 9⟩
def DCM.SR.word : Fld := ⟨0x1400030, 0, 32⟩
def DCM.SR.EN : Fld := ⟨0x1400030, 31, 1⟩
def DCM.SR.STATE : Fld := ⟨0x1400030, 29, 2⟩
def DCM.SR.HOLDP : Fld := ⟨0x1400030, 28, 1⟩
def DCM.SR.MARGIN : Fld := ⟨0x1400030, 16, 8⟩
def DCM.SR.IDLE : Fld := ⟨0x1400030, 8, 8⟩
def DCM.LTOL.word : Fld := ⟨0x1400034, 0, 32⟩
def DCM.LTOL.PUB : Fld := ⟨0x1400034, 24, 2⟩
def DCM.LTOL.TOL : Fld := ⟨0x1400034, 0, 24⟩
def IMG.STAT.word : Fld := ⟨0x1200000, 0, 32⟩
def IMG.STAT.PHASE : Fld := ⟨0x1200000, 28, 4⟩
def IMG.STAT.STAGED : Fld := ⟨0x1200000, 27, 1⟩
def IMG.STAT.FALLBACK : Fld := ⟨0x1200000, 26, 1⟩
def IMG.STAT.MIGRATED : Fld := ⟨0x1200000, 25, 1⟩
def IMG.STAT.SETBAD : Fld := ⟨0x1200000, 24, 1⟩
def IMG.STAT.NEWDIE : Fld := ⟨0x1200000, 16, 8⟩
def IMG.STAT.LASTERR : Fld := ⟨0x1200000, 0, 8⟩
def IMG.SLOT.word : Fld := ⟨0x1200004, 0, 32⟩
def IMG.SLOT.ACT : Fld := ⟨0x1200004, 31, 1⟩
def IMG.SLOT.TRIAL : Fld := ⟨0x1200004, 30, 1⟩
def IMG.SLOT.STA : Fld := ⟨0x1200004, 27, 3⟩
def IMG.SLOT.STB : Fld := ⟨0x1200004, 24, 3⟩
def IMG.SLOT.GEN : Fld := ⟨0x1200004, 0, 24⟩
def IMG.TRIAL.word : Fld := ⟨0x1200008, 0, 32⟩
def IMG.TRIAL.LEFT : Fld := ⟨0x1200008, 16, 16⟩
def IMG.TRIAL.WINDOW : Fld := ⟨0x1200008, 0, 16⟩
def IMG.VER.word (k : Nat) : Fld := ⟨0x1200010 + k * 4, 0, 32⟩
def IMG.VER.MAJOR (k : Nat) : Fld := ⟨0x1200010 + k * 4, 24, 8⟩
def IMG.VER.MINOR (k : Nat) : Fld := ⟨0x1200010 + k * 4, 16, 8⟩
def IMG.VER.PATCH (k : Nat) : Fld := ⟨0x1200010 + k * 4, 0, 16⟩
def IMG.LOADLOG.word : Fld := ⟨0x1200030, 0, 32⟩
def IMG.LOADLOG.COUNT : Fld := ⟨0x1200030, 16, 16⟩
def IMG.LOADLOG.RTYPE : Fld := ⟨0x1200030, 8, 8⟩
def IMG.LOADLOG.STATUS : Fld := ⟨0x1200030, 0, 8⟩
def IMG.KEYSTAT.word : Fld := ⟨0x1200034, 0, 32⟩
def IMG.KEYSTAT.OWNONLY : Fld := ⟨0x1200034, 31, 1⟩
def IMG.KEYSTAT.SEALCLS : Fld := ⟨0x1200034, 30, 1⟩
def IMG.KEYSTAT.SEALSLOT : Fld := ⟨0x1200034, 28, 2⟩
def IMG.KEYSTAT.OWNER : Fld := ⟨0x1200034, 4, 8⟩
def IMG.KEYSTAT.ALAT : Fld := ⟨0x1200034, 0, 4⟩
def IMG.QSPI.word : Fld := ⟨0x1200038, 0, 32⟩
def IMG.QSPI.READY : Fld := ⟨0x1200038, 31, 1⟩
def IMG.QSPI.SFDPERR : Fld := ⟨0x1200038, 30, 1⟩
def IMG.QSPI.BUSY : Fld := ⟨0x1200038, 29, 1⟩
def IMG.QSPI.SIZE : Fld := ⟨0x1200038, 16, 8⟩
def IMG.QSPI.WERR : Fld := ⟨0x1200038, 0, 16⟩
def DIE.LSTAT.word (k : Nat) : Fld := ⟨0x1500020 + k * 4, 0, 32⟩
def DIE.LSTAT.STATE (k : Nat) : Fld := ⟨0x1500020 + k * 4, 29, 3⟩
def DIE.LSTAT.WORST (k : Nat) : Fld := ⟨0x1500020 + k * 4, 16, 8⟩
def DIE.TEMP.word (k : Nat) : Fld := ⟨0x1500040 + k * 4, 0, 32⟩
def DIE.TEMP.VALID (k : Nat) : Fld := ⟨0x1500040 + k * 4, 31, 1⟩
def DIE.TEMP.ALARM (k : Nat) : Fld := ⟨0x1500040 + k * 4, 30, 1⟩
def DIE.TEMP.ALARM_TH (k : Nat) : Fld := ⟨0x1500040 + k * 4, 16, 8⟩
def DIE.TEMP.TEMP (k : Nat) : Fld := ⟨0x1500040 + k * 4, 0, 12⟩
def DCM.SCRUB.word : Fld := ⟨0x1400038, 0, 32⟩
def DCM.SCRUB.EN : Fld := ⟨0x1400038, 31, 1⟩
def DCM.SCRUB.RUN : Fld := ⟨0x1400038, 30, 1⟩
def DCM.SCRUB.RATE : Fld := ⟨0x1400038, 16, 8⟩
def DCM.SCRUB.PASSES : Fld := ⟨0x1400038, 0, 16⟩
def TIM.NOW_HI.word : Fld := ⟨0x1000008, 0, 32⟩
def TIM.NOW_HI.NS_HI : Fld := ⟨0x1000008, 0, 32⟩
def TIM.NOW_LO.word : Fld := ⟨0x100000C, 0, 32⟩
def TIM.NOW_LO.NS_LO : Fld := ⟨0x100000C, 0, 32⟩
def TIM.NOW_FR.word : Fld := ⟨0x1000010, 0, 32⟩
def TIM.NOW_FR.FRAC : Fld := ⟨0x1000010, 16, 16⟩
def TRG.ASEL.word : Fld := ⟨0x1100020, 0, 32⟩
def TRG.ASEL.PIN : Fld := ⟨0x1100020, 0, 3⟩
def TRG.AT_HI.word : Fld := ⟨0x1100024, 0, 32⟩
def TRG.AT_HI.AT_HI : Fld := ⟨0x1100024, 0, 32⟩
def TRG.AT_LO.word : Fld := ⟨0x1100028, 0, 32⟩
def TRG.AT_LO.AT_LO : Fld := ⟨0x1100028, 0, 32⟩
def TRG.AWID.word : Fld := ⟨0x110002C, 0, 32⟩
def TRG.AWID.WIDTH : Fld := ⟨0x110002C, 0, 32⟩
def TRG.APER.word : Fld := ⟨0x1100030, 0, 32⟩
def TRG.APER.PERIOD : Fld := ⟨0x1100030, 0, 32⟩
def TRG.CAP_HI.word (k : Nat) : Fld := ⟨0x1100080 + k * 8, 0, 32⟩
def TRG.CAP_HI.STAMP_HI (k : Nat) : Fld := ⟨0x1100080 + k * 8, 0, 32⟩
def TRG.CAP_LO.word (k : Nat) : Fld := ⟨0x1100084 + k * 8, 0, 32⟩
def TRG.CAP_LO.STAMP_LO (k : Nat) : Fld := ⟨0x1100084 + k * 8, 0, 32⟩
def DSP.TIMING0.word (n : Nat) : Fld := ⟨0xA0000010 + n * 0x100000, 0, 32⟩
def DSP.TIMING0.PCLK (n : Nat) : Fld := ⟨0xA0000010 + n * 0x100000, 0, 20⟩
def DSP.TIMING1.word (n : Nat) : Fld := ⟨0xA0000014 + n * 0x100000, 0, 32⟩
def DSP.TIMING1.HACT (n : Nat) : Fld := ⟨0xA0000014 + n * 0x100000, 16, 16⟩
def DSP.TIMING1.HTOT (n : Nat) : Fld := ⟨0xA0000014 + n * 0x100000, 0, 16⟩
def DSP.TIMING2.word (n : Nat) : Fld := ⟨0xA0000018 + n * 0x100000, 0, 32⟩
def DSP.TIMING2.HFP (n : Nat) : Fld := ⟨0xA0000018 + n * 0x100000, 16, 16⟩
def DSP.TIMING2.HSW (n : Nat) : Fld := ⟨0xA0000018 + n * 0x100000, 0, 16⟩
def DSP.TIMING3.word (n : Nat) : Fld := ⟨0xA000001C + n * 0x100000, 0, 32⟩
def DSP.TIMING3.VACT (n : Nat) : Fld := ⟨0xA000001C + n * 0x100000, 16, 16⟩
def DSP.TIMING3.VTOT (n : Nat) : Fld := ⟨0xA000001C + n * 0x100000, 0, 16⟩
def DSP.TIMING4.word (n : Nat) : Fld := ⟨0xA0000020 + n * 0x100000, 0, 32⟩
def DSP.TIMING4.VFP (n : Nat) : Fld := ⟨0xA0000020 + n * 0x100000, 16, 16⟩
def DSP.TIMING4.VSW (n : Nat) : Fld := ⟨0xA0000020 + n * 0x100000, 0, 16⟩
def DSP.TIMING5.word (n : Nat) : Fld := ⟨0xA0000024 + n * 0x100000, 0, 32⟩
def DSP.TIMING5.HSPOL (n : Nat) : Fld := ⟨0xA0000024 + n * 0x100000, 31, 1⟩
def DSP.TIMING5.VSPOL (n : Nat) : Fld := ⟨0xA0000024 + n * 0x100000, 30, 1⟩
def DSP.TIMING5.BPC (n : Nat) : Fld := ⟨0xA0000024 + n * 0x100000, 29, 1⟩
def DSP.TIMING6.word (n : Nat) : Fld := ⟨0xA0000028 + n * 0x100000, 0, 32⟩
def DSP.TIMING6.LANES (n : Nat) : Fld := ⟨0xA0000028 + n * 0x100000, 30, 2⟩
def DSP.TIMING6.BURST (n : Nat) : Fld := ⟨0xA0000028 + n * 0x100000, 29, 1⟩
def DSP.TIMING6.LRATE (n : Nat) : Fld := ⟨0xA0000028 + n * 0x100000, 16, 8⟩
def DSP.TIMING7.word (n : Nat) : Fld := ⟨0xA000002C + n * 0x100000, 0, 32⟩
def DSP.TIMING7.TETMO (n : Nat) : Fld := ⟨0xA000002C + n * 0x100000, 16, 16⟩
def DSP.VPLANE0.word (n : Nat) : Fld := ⟨0xA0000040 + n * 0x100000, 0, 32⟩
def DSP.VPLANE0.EN (n : Nat) : Fld := ⟨0xA0000040 + n * 0x100000, 31, 1⟩
def DSP.VPLANE0.FMT (n : Nat) : Fld := ⟨0xA0000040 + n * 0x100000, 28, 3⟩
def DSP.VPLANE0.DEPTH (n : Nat) : Fld := ⟨0xA0000040 + n * 0x100000, 26, 2⟩
def DSP.VPLANE0.MATRIX (n : Nat) : Fld := ⟨0xA0000040 + n * 0x100000, 24, 2⟩
def DSP.VPLANE0.RANGE (n : Nat) : Fld := ⟨0xA0000040 + n * 0x100000, 23, 1⟩
def DSP.VPLANE1.word (n : Nat) : Fld := ⟨0xA0000044 + n * 0x100000, 0, 32⟩
def DSP.VPLANE1.W (n : Nat) : Fld := ⟨0xA0000044 + n * 0x100000, 16, 16⟩
def DSP.VPLANE1.H (n : Nat) : Fld := ⟨0xA0000044 + n * 0x100000, 0, 16⟩
def DSP.VPLANE2.word (n : Nat) : Fld := ⟨0xA0000048 + n * 0x100000, 0, 32⟩
def DSP.VPLANE2.X (n : Nat) : Fld := ⟨0xA0000048 + n * 0x100000, 16, 16⟩
def DSP.VPLANE2.Y (n : Nat) : Fld := ⟨0xA0000048 + n * 0x100000, 0, 16⟩
def DSP.VPLANE3.word (n : Nat) : Fld := ⟨0xA000004C + n * 0x100000, 0, 32⟩
def DSP.VPLANE3.STRIDE0 (n : Nat) : Fld := ⟨0xA000004C + n * 0x100000, 16, 16⟩
def DSP.VPLANE3.STRIDE1 (n : Nat) : Fld := ⟨0xA000004C + n * 0x100000, 0, 16⟩
def DSP.VPLANE4.word (n : Nat) : Fld := ⟨0xA0000050 + n * 0x100000, 0, 32⟩
def DSP.VPLANE4.ADDR0 (n : Nat) : Fld := ⟨0xA0000050 + n * 0x100000, 0, 32⟩
def DSP.VPLANE5.word (n : Nat) : Fld := ⟨0xA0000054 + n * 0x100000, 0, 32⟩
def DSP.VPLANE5.ADDR1 (n : Nat) : Fld := ⟨0xA0000054 + n * 0x100000, 0, 32⟩
def DSP.VPLANE6.word (n : Nat) : Fld := ⟨0xA0000058 + n * 0x100000, 0, 32⟩
def DSP.VPLANE6.ADDR2 (n : Nat) : Fld := ⟨0xA0000058 + n * 0x100000, 0, 32⟩
def DSP.VPLANE7.word (n : Nat) : Fld := ⟨0xA000005C + n * 0x100000, 0, 32⟩
def DSP.VPLANE7.SX (n : Nat) : Fld := ⟨0xA000005C + n * 0x100000, 16, 16⟩
def DSP.VPLANE7.SY (n : Nat) : Fld := ⟨0xA000005C + n * 0x100000, 0, 16⟩
def DSP.OVL0.word (n : Nat) : Fld := ⟨0xA0000060 + n * 0x100000, 0, 32⟩
def DSP.OVL0.EN (n : Nat) : Fld := ⟨0xA0000060 + n * 0x100000, 31, 1⟩
def DSP.OVL0.FMT (n : Nat) : Fld := ⟨0xA0000060 + n * 0x100000, 30, 1⟩
def DSP.OVL0.PALLOAD (n : Nat) : Fld := ⟨0xA0000060 + n * 0x100000, 29, 1⟩
def DSP.OVL0.GALPHA (n : Nat) : Fld := ⟨0xA0000060 + n * 0x100000, 16, 8⟩
def DSP.OVL1.word (n : Nat) : Fld := ⟨0xA0000064 + n * 0x100000, 0, 32⟩
def DSP.OVL1.W (n : Nat) : Fld := ⟨0xA0000064 + n * 0x100000, 16, 16⟩
def DSP.OVL1.H (n : Nat) : Fld := ⟨0xA0000064 + n * 0x100000, 0, 16⟩
def DSP.OVL2.word (n : Nat) : Fld := ⟨0xA0000068 + n * 0x100000, 0, 32⟩
def DSP.OVL2.X (n : Nat) : Fld := ⟨0xA0000068 + n * 0x100000, 16, 16⟩
def DSP.OVL2.Y (n : Nat) : Fld := ⟨0xA0000068 + n * 0x100000, 0, 16⟩
def DSP.OVL3.word (n : Nat) : Fld := ⟨0xA000006C + n * 0x100000, 0, 32⟩
def DSP.OVL3.STRIDE (n : Nat) : Fld := ⟨0xA000006C + n * 0x100000, 16, 16⟩
def DSP.OVL4.word (n : Nat) : Fld := ⟨0xA0000070 + n * 0x100000, 0, 32⟩
def DSP.OVL4.OADDR (n : Nat) : Fld := ⟨0xA0000070 + n * 0x100000, 0, 32⟩
def DSP.OVL5.word (n : Nat) : Fld := ⟨0xA0000074 + n * 0x100000, 0, 32⟩
def DSP.OVL5.PALADDR (n : Nat) : Fld := ⟨0xA0000074 + n * 0x100000, 0, 32⟩
def DSP.OVL6.word (n : Nat) : Fld := ⟨0xA0000078 + n * 0x100000, 0, 32⟩
def DSP.OVL6.SX (n : Nat) : Fld := ⟨0xA0000078 + n * 0x100000, 16, 16⟩
def DSP.OVL6.SY (n : Nat) : Fld := ⟨0xA0000078 + n * 0x100000, 0, 16⟩
def DSP.OVL7.word (n : Nat) : Fld := ⟨0xA000007C + n * 0x100000, 0, 32⟩
def ETH.CFG.word (n : Nat) : Fld := ⟨0x60000000 + n / 6 * 0x80000000 + n % 6 * 0x100000, 0, 32⟩
def ETH.CFG.EN (n : Nat) : Fld := ⟨0x60000000 + n / 6 * 0x80000000 + n % 6 * 0x100000, 31, 1⟩
def ETH.CFG.SPEED (n : Nat) : Fld := ⟨0x60000000 + n / 6 * 0x80000000 + n % 6 * 0x100000, 28, 3⟩
def ETH.STAT.word (n : Nat) : Fld := ⟨0x60000004 + n / 6 * 0x80000000 + n % 6 * 0x100000, 0, 32⟩
def ETH.STAT.LINK (n : Nat) : Fld := ⟨0x60000004 + n / 6 * 0x80000000 + n % 6 * 0x100000, 31, 1⟩
def ETH.STAT.SPD (n : Nat) : Fld := ⟨0x60000004 + n / 6 * 0x80000000 + n % 6 * 0x100000, 28, 3⟩
def ETH.STAT.RXPAUSE (n : Nat) : Fld := ⟨0x60000004 + n / 6 * 0x80000000 + n % 6 * 0x100000, 27, 1⟩
def ETH.MAXLEN.word (n : Nat) : Fld := ⟨0x60000008 + n / 6 * 0x80000000 + n % 6 * 0x100000, 0, 32⟩
def ETH.MAXLEN.MAXLEN (n : Nat) : Fld := ⟨0x60000008 + n / 6 * 0x80000000 + n % 6 * 0x100000, 0, 14⟩
def ETH.VLAN.word (n : Nat) : Fld := ⟨0x6000000C + n / 6 * 0x80000000 + n % 6 * 0x100000, 0, 32⟩
def ETH.VLAN.KEEP (n : Nat) : Fld := ⟨0x6000000C + n / 6 * 0x80000000 + n % 6 * 0x100000, 31, 1⟩
def ETH.VLAN.SVLAN (n : Nat) : Fld := ⟨0x6000000C + n / 6 * 0x80000000 + n % 6 * 0x100000, 30, 1⟩
def ETH.VLAN.DTUN (n : Nat) : Fld := ⟨0x6000000C + n / 6 * 0x80000000 + n % 6 * 0x100000, 0, 14⟩
def ETH.TSCFG.word (n : Nat) : Fld := ⟨0x60000010 + n / 6 * 0x80000000 + n % 6 * 0x100000, 0, 32⟩
def ETH.TSCFG.MODE (n : Nat) : Fld := ⟨0x60000010 + n / 6 * 0x80000000 + n % 6 * 0x100000, 30, 2⟩
def ETH.TSCFG.RTUN (n : Nat) : Fld := ⟨0x60000010 + n / 6 * 0x80000000 + n % 6 * 0x100000, 0, 14⟩
def ETH.PAUSE.word (n : Nat) : Fld := ⟨0x60000014 + n / 6 * 0x80000000 + n % 6 * 0x100000, 0, 32⟩
def ETH.PAUSE.EN (n : Nat) : Fld := ⟨0x60000014 + n / 6 * 0x80000000 + n % 6 * 0x100000, 31, 1⟩
def ETH.PAUSE.XOFF (n : Nat) : Fld := ⟨0x60000014 + n / 6 * 0x80000000 + n % 6 * 0x100000, 16, 8⟩
def ETH.PAUSE.QUANTA (n : Nat) : Fld := ⟨0x60000014 + n / 6 * 0x80000000 + n % 6 * 0x100000, 0, 16⟩
def ETM.CFG.word (n : Nat) : Fld := ⟨0x60600000 + n * 0x80000000, 0, 32⟩
def ETM.CFG.EN (n : Nat) : Fld := ⟨0x60600000 + n * 0x80000000, 31, 1⟩
def ETM.VSEL.word (n : Nat) : Fld := ⟨0x60600010 + n * 0x80000000, 0, 32⟩
def ETM.VSEL.INDEX (n : Nat) : Fld := ⟨0x60600010 + n * 0x80000000, 0, 8⟩
def ETM.VMAP.word (n : Nat) : Fld := ⟨0x60600014 + n * 0x80000000, 0, 32⟩
def ETM.VMAP.V (n : Nat) : Fld := ⟨0x60600014 + n * 0x80000000, 31, 1⟩
def ETM.VMAP.STRIP (n : Nat) : Fld := ⟨0x60600014 + n * 0x80000000, 30, 1⟩
def ETM.VMAP.IPORT (n : Nat) : Fld := ⟨0x60600014 + n * 0x80000000, 27, 3⟩
def ETM.VMAP.ANYVID (n : Nat) : Fld := ⟨0x60600014 + n * 0x80000000, 26, 1⟩
def ETM.VMAP.TUN (n : Nat) : Fld := ⟨0x60600014 + n * 0x80000000, 12, 14⟩
def ETM.VMAP.VID (n : Nat) : Fld := ⟨0x60600014 + n * 0x80000000, 0, 12⟩
def ETM.VCTL.word (n : Nat) : Fld := ⟨0x60600018 + n * 0x80000000, 0, 32⟩
def ETM.VCTL.LOAD (n : Nat) : Fld := ⟨0x60600018 + n * 0x80000000, 1, 1⟩
def ETM.VCTL.APPLY (n : Nat) : Fld := ⟨0x60600018 + n * 0x80000000, 0, 1⟩
def ETM.TSOFS.word (n : Nat) : Fld := ⟨0x60600020 + n * 0x80000000, 0, 32⟩
def ETM.TSOFS.OFS_R (n : Nat) : Fld := ⟨0x60600020 + n * 0x80000000, 16, 16⟩
def ETM.TSOFS.OFS_T (n : Nat) : Fld := ⟨0x60600020 + n * 0x80000000, 0, 16⟩
def PCE.CFG.word : Fld := ⟨0x80000000, 0, 32⟩
def PCE.CFG.EN : Fld := ⟨0x80000000, 31, 1⟩
def PCE.CFG.CA_FAIL : Fld := ⟨0x80000000, 30, 1⟩
def PCE.CFG.GEN_MAX : Fld := ⟨0x80000000, 28, 2⟩
def PCE.CFG.WIDTH_MAX : Fld := ⟨0x80000000, 26, 2⟩
def PCE.STAT.word : Fld := ⟨0x80000004, 0, 32⟩
def PCE.STAT.LINKUP : Fld := ⟨0x80000004, 31, 1⟩
def PCE.STAT.GEN : Fld := ⟨0x80000004, 28, 3⟩
def PCE.STAT.WIDTH : Fld := ⟨0x80000004, 26, 2⟩
def PCE.STAT.BME : Fld := ⟨0x80000004, 25, 1⟩
def PCE.STAT.FLR : Fld := ⟨0x80000004, 24, 1⟩
def PCE.STAT.LDN : Fld := ⟨0x80000004, 23, 1⟩
def PCE.MBOX_CTL.word : Fld := ⟨0x80000008, 0, 32⟩
def PCE.MBOX_CTL.MEN : Fld := ⟨0x80000008, 31, 1⟩
def PCE.MBOX_CTL.HMEN : Fld := ⟨0x80000008, 30, 1⟩
def PCE.MBOX_CTL.RQEN : Fld := ⟨0x80000008, 0, 16⟩
def PCE.MSIX_CFG.word : Fld := ⟨0x8000000C, 0, 32⟩
def PCE.MSIX_CFG.EN : Fld := ⟨0x8000000C, 31, 1⟩
def PCE.MSIX_CFG.FMASK : Fld := ⟨0x8000000C, 30, 1⟩
def PCE.MSIX_CFG.MOD : Fld := ⟨0x8000000C, 0, 8⟩
def PCR.CFG.word : Fld := ⟨0x80100000, 0, 32⟩
def PCR.CFG.EN : Fld := ⟨0x80100000, 31, 1⟩
def PCR.CFG.GEN_MAX : Fld := ⟨0x80100000, 28, 2⟩
def PCR.CFG.WIDTH_MAX : Fld := ⟨0x80100000, 26, 2⟩
def PCR.CFG.PERST : Fld := ⟨0x80100000, 25, 1⟩
def PCR.CFG.SUBBUS : Fld := ⟨0x80100000, 0, 8⟩
def PCR.STAT.word : Fld := ⟨0x80100004, 0, 32⟩
def PCR.STAT.LINKUP : Fld := ⟨0x80100004, 31, 1⟩
def PCR.STAT.GEN : Fld := ⟨0x80100004, 28, 3⟩
def PCR.STAT.WIDTH : Fld := ⟨0x80100004, 26, 2⟩
def PCR.STAT.CPLTO : Fld := ⟨0x80100004, 25, 1⟩
def PCR.STAT.INUR : Fld := ⟨0x80100004, 24, 1⟩
def PCR.STAT.MSIP : Fld := ⟨0x80100004, 0, 16⟩
def PCR.WIN.word (k : Nat) : Fld := ⟨0x80100010 + k * 4, 0, 32⟩
def PCR.WIN.EN (k : Nat) : Fld := ⟨0x80100010 + k * 4, 31, 1⟩
def PCR.WIN.SIZE (k : Nat) : Fld := ⟨0x80100010 + k * 4, 25, 6⟩
def PCR.WIN.PBASE (k : Nat) : Fld := ⟨0x80100010 + k * 4, 0, 25⟩

end Reg

end Sys2Proof.Machine
end

