-- ==== Sys2Proof/Machine/State.lean ====
section
/-! DEFINITION. The state of the part as plain data (INVENTORY.md, State), the reasons a step can stop, and the state
right after a power-on reset. -/
namespace Sys2Proof.Machine

/-- Why the machine stops. -/
inductive Fault where
  /-- Raised by a command whose operands the WellFormed check refuses (a received slot that is not 128 bytes):
  no such event exists on the part. Safe. -/
  | illFormed (mnemonic : String)
deriving DecidableEq, Repr

/-- Why a command is refused. -/
inductive Refusal where
  /-- Raised by `exec` for a command whose meaning has not been written. Safe: no claim about it can be proved. -/
  | notModelled (mnemonic : String)
deriving DecidableEq, Repr

/-- The orderable variants of Table 0.3. -/
inductive Variant where
  | a2 | c4 | e6 | g8
deriving DecidableEq, Repr

/-- The states of an interrupt source (R425). -/
inductive SrcState where
  | idle | pending | active | activeAndPending
deriving DecidableEq, Repr

/-- A counter of R464: its value and its sticky SAT flag. -/
structure Ctr where
  v : Nat
  sat : Bool
deriving DecidableEq, Repr

/-- One entry of the error log (R478); `boot` and `seqNo` are those of R479. -/
structure LogEnt where
  code : Nat
  slot : Nat
  lost : Bool
  detail : Nat
  time : Nat
  seqNo : Nat
deriving DecidableEq, Repr

/-- A cell in the Comb with the fields of its link-memory entry (Table 5.1): its address, STAMP, ingress switch
port, class, and XC with XSEQ; `refill` says that it counts against P17 (R158), `charged` that a parked cell is still
charged to the line receive reserve (R111), `policed` that Guard does not look at it any more (R187, R208). -/
structure QEnt where
  addr : Nat
  stamp : Nat
  inp : Nat
  xc : Bool
  xseq : Nat
  refill : Bool
  charged : Bool
  policed : Bool
  cell : Cell
deriving DecidableEq, Repr

/-- A cell that waits in the ingress hold of a switch port (R131): `xseq` is its express number when it is under
upstream custody; `charged` says that it is charged to the line receive reserve; `policed` that Guard does not look at
it (line ports, R223 frames). -/
structure Held where
  cell : Cell
  xseq : Option Nat
  charged : Bool
  policed : Bool
  forced : Option (List Nat)
deriving DecidableEq, Repr

/-- A cell in an input's staging buffer (R164): its unwritten copies, each an output queue index 8 x port + class,
or `none` for the park list of its ingress class. -/
structure Staged where
  held : Held
  inp : Nat
  copies : List (Option Nat)
deriving DecidableEq, Repr

/-- A frame discard in progress (R170): its list (an output queue 8 x port + class, or 144 + 8 x ingress + class for
cells without an output), the frame, the cause (0 AGE_DROP, 1 ERR_DROP, 2 FORCE_DROP), the cells discarded so far and
whether its error-log entry has been written. -/
structure Discard where
  queue : Nat
  inp : Nat
  src : Nat
  tun : Nat
  cause : Nat
  count : Nat
  logged : Bool
deriving DecidableEq, Repr

/-- A bank's free stack (R154): the indices returned, newest first, and the lowest index never yet taken. -/
structure Stack where
  ret : List Nat
  fresh : Nat
deriving DecidableEq, Repr

/-- A cell held for link replay or in custody (R105, R122): its SEQ, its express number, the Comb entry, and whether a
void cell has taken its place (R171). -/
structure TxEnt where
  seq : Nat
  xseq : Nat
  ent : QEnt
  isVoid : Bool
deriving DecidableEq, Repr

/-- What a line port put on its lanes last: nothing, the cell or the ordered-set words of a slot, an 80-bit DOZE word (R66), 1,040
bits of PRBS31, or the alignment blocks of its lanes (Table 2.5). -/
inductive TxSlot where
  | quiet
  | cell (c : Cell)
  | os (words : List OsWord)
  | doze (w : Nat)
  | prbs31 (w : Nat)
  | align (blocks : List Nat)
deriving DecidableEq, Repr

/-- The receiver side of a line port's link (R101 to R112, R120, R121). -/
structure RxLink where
  /-- The expected number E. -/
  e : Nat
  /-- WAIT_REPLAY. -/
  waiting : Bool
  /-- In a replay that began before E: the sequence of the next arriving cell (R107). -/
  skip : Option Nat
  /-- The 1,024-entry release map: released express numbers at or after XREL. -/
  released : List Nat
  xrel : Nat
  xseq : Nat
  nakPend : Bool
  ackPend : Bool
  /-- Credit classes with a CREDIT FCW pending, and the class served last (R112). -/
  credPend : List Nat
  credLast : Nat
  /-- The next pending ACK goes before CREDIT (R104). -/
  ackTurn : Bool
  /-- Frames since the last ACK (R104). -/
  frames : Nat
  rcv : Tab Nat
  freed : Tab Nat
  /-- The CL last sent per class, in a frame control word or a CREDIT word (R119). -/
  clSent : Tab Nat
  /-- The CL and the XREL of the last CREDIT words sent (R116). -/
  clWord : Tab Nat
  xrelWord : Nat
  /-- XSEQs whose RESYNC(RECALL) word has not been sent yet (R123). -/
  recallPend : List Nat
deriving DecidableEq, Repr

/-- The transmitter side of a line port's link (R101 to R123). -/
structure TxLink where
  seq : Nat
  buf : List TxEnt
  custody : List TxEnt
  cons : Tab Nat
  known : Tab Nat
  pool : Tab Nat
  /-- Classes whose first CREDIT word has been received (R115). -/
  inited : List Nat
  credInit : Bool
  xseq : Nat
  xrel : Nat
  /-- The next SEQ to send again while a replay runs. -/
  replay : Option Nat
  /-- A RESYNC(REPLAY) word is due before it. -/
  replayWord : Bool
  /-- The SEQ and the count of R108. -/
  rplFrom : Nat
  rplCount : Nat
  /-- Copies recalled by the far end, waiting to be sent as new cells (R123). -/
  recalls : List QEnt
  faults : Nat
deriving DecidableEq, Repr

/-- A lane retirement in progress on one port (Table 2.10): lanes, the received frame at which the receiver switches, the
frame at which the transmitter switches once it is known, and which of the two has switched. -/
structure Retire where
  lanes : Nat
  rxFrame : Nat
  txFrame : Option Nat
  rxDone : Bool
  txDone : Bool
deriving DecidableEq, Repr

/-- The time exchange of one line port (R239, R240). -/
structure PortTime where
  gtag : Nat
  outstanding : Option Nat
  /-- Line time at the timestamp point of the DREQ sent. -/
  dreqSent : Nat
  /-- The averaged RTT in 2^-32 ns, none until the first DRSP. -/
  rtt : Option Nat
  /-- A SYNC_HI of a DOZE word, with the line time at its timestamp point, waiting for its SYNC_LO. -/
  syncHi : Option (Nat × Nat)
  /-- Line time, and the model's clock in ns, at the timestamp point of the last DREQ received. -/
  dreqRx : Nat
  dreqAt : Nat
  /-- Line time at the timestamp point of the SYNC_HI sent. -/
  syncSent : Nat
deriving DecidableEq, Repr

/-- A line port HLn beyond its registers. -/
structure LinePort where
  proto : Nat
  farAddr : Nat
  farPort : Nat
  farLh4 : Bool
  /-- HLPn.CFG and the retired lanes as the present training took them (R90, R91). -/
  cfg : Word
  excluded : Nat
  /-- The training lane of P2; valid CAP words received, whether one had ACK, its body, and whether one with ACK has been sent. -/
  trainLane : Nat
  capRx : Nat
  capAckRx : Bool
  capBody : Nat
  capAckTx : Bool
  /-- The training lane locked at the NRZ base rate (R66). -/
  baseNrz : Bool
  /-- The state of the PRBS31 generator (Table 2.5). -/
  prbs : Nat
  /-- The lanes the transmitter deals its symbols to; LANES is what the receiver uses (Table 2.10). -/
  txLanes : Nat
  /-- The 100 ms wait after INCOMPAT (R68). -/
  restartWait : Bool
  /-- The port left its line state while this exit is not complete: the state left (R74). -/
  exitFrom : Nat
  /-- This end has sent STATE_REQ for this target and has no answer (R73). -/
  reqSent : Option Nat
  /-- The target this end has acknowledged (R73), and the same once the slot with STATE_ACK has gone: the port enters it at the
  next frame boundary. -/
  enterAfter : Option Nat
  enterNow : Option Nat
  /-- When the exit from DOZE or DORMANT began at the initiator, in ns (Table 2.9). -/
  exitAt : Nat
  /-- When a cell last passed, and when the present line state was entered, in ns (R72). -/
  lastCell : Nat
  since : Nat
  /-- FCW failures in a row (R84), and the number of the last codeword whose FCW failed. -/
  badFcw : Nat
  badFcwAt : Nat
  badDoze : Nat
  /-- Frames with a good CHK in a row (Table 2.5, P5), and whether an FCW of the frame now arriving has failed. -/
  goodFrames : Nat
  frameBad : Bool
  /-- Ordered-set words waiting for a slot (R65), and slots since an OS slot last took the allowance, at most 255. -/
  osq : List OsWord
  sinceOs : Nat
  /-- Frame numbers since frame 0, and the slot within the transmit and the receive frame (R71, R88). -/
  txFrame : Nat
  rxFrame : Nat
  slotInFrame : Nat
  rxSlot : Nat
  retire : Option Retire
  /-- Lane retirements that wait for the one in progress (R87). -/
  retireWait : List Nat
  rx : RxLink
  tx : TxLink
  /-- The 4-cell express FIFO: ingress line port and cell (R131). -/
  fifo : List QEnt
  /-- Cells of TC7, or TC6 with XPR = 1, sent in the express monitor's window (R190). -/
  xwin : Nat
  /-- What the last slot and the last frame control word carried. -/
  lastSlot : TxSlot
  lastFcw : Nat × Nat
  /-- The frame control words and the slots of the frame now sent (R55), the last 58 scrambled bits (R58), and what each logical
  lane carried for the last whole frame, or the last DOZE word, one entry for each baud (R59, R66). -/
  fcws : List Nat
  slots : List TxSlot
  scr : Nat
  lanesOut : List (List Nat)
  /-- The ring port has left service and has not been restored (R146, R148). -/
  left : Bool
  time : PortTime
  /-- The last LPWR word received (R404). -/
  lpwr : Nat
  /-- ADDR_ASSIGN has been sent and has no final reply (R142). -/
  assigning : Bool
deriving DecidableEq, Repr

/-- A cell in the replay buffer of a Tolger direction (R25): its channel, the ingress switch port it had in the Comb, and whether it
is on the wire; one that is not has failed its check and waits for the negative acknowledgement. -/
structure TolgerCell where
  ch : Nat
  inp : Nat
  held : Held
  wire : Bool
deriving DecidableEq, Repr

/-- One direction of a Tolger link (R22 to R25). -/
structure TolgerDir where
  /-- Credit per cell channel, and what the receiving side has freed and not yet returned. -/
  credit : Tab Nat
  owed : Tab Nat
  /-- Waiting cells per channel, each with its ingress switch port in the Comb. -/
  waiting : Tab (List (Nat × Held))
  /-- The replay buffer of 32 cells, in the order sent. -/
  flight : List TolgerCell
  /-- Failures in a row of the oldest cell of each channel. -/
  cellFails : Tab Nat
  /-- The replay buffer of 16 sideband flits: those whose check has failed, and whether each has been sent again. -/
  flits : List (BitVec 64 × Bool)
  flitFails : Nat
  /-- The channel served last. -/
  last : Nat
deriving DecidableEq, Repr

/-- The states of Table 1.7, and not yet brought up by the boot sequence (GLB.SLOT code 0x7). -/
inductive DomSt where
  | inService | quiescing | quiesced | resetting | returning | notUp | off
deriving DecidableEq, Repr

/-- A service domain (R39 to R44): state, drain set (cells per output queue still to deliver), the FORCE flag, the
command that waits, and whether it has been reset since it was last in service (R444). -/
structure Domain where
  st : DomSt
  drain : Tab Nat
  force : Bool
  waiter : Option Origin
  wasReset : Bool
deriving DecidableEq, Repr

/-- A table of the LD (R127, R128, R208, R187): active, shadow and master copies, and whether a rebuild runs. -/
structure LdTable where
  active : Tab Nat
  shadow : Tab Nat
  master : Tab Nat
  rebuilding : Bool
deriving DecidableEq, Repr

/-- A break record of R145: its hop count b, and the origin and ports of the RING_BREAK that set it; `own` marks this node's own
record (R146). -/
structure BreakRec where
  own : Bool
  b : Nat
  src : Nat
  nbr : Nat
  port : Nat
deriving DecidableEq, Repr

/-- Routing and topology beyond the registers. -/
structure Topo where
  route : LdTable
  term : LdTable
  origin : LdTable
  gmap : LdTable
  /-- Table entries a lookup has found damaged, waiting for recomputation (R137): (table, index). -/
  recompute : List (Nat × Nat)
  /-- The address a waiting or running seed expansion will use (R136). -/
  expanding : Option Nat
  /-- The route seeds of the active image, 8-byte records (R136). -/
  seeds : List (List Byte)
  /-- The line address before the last change (R210). -/
  prevAddr : Nat
  /-- Break records per line port (R145). -/
  breaks : Tab (List BreakRec)
  /-- Line ports whose rerouted cells are held until RING_BREAK has left (R146), and ports under HOLD, each with the hop count that
  applied before its record went (R148). -/
  breakHold : List Nat
  restoreHold : List (Nat × Nat)
  /-- The WAGGLE suppression table: destination, port, time in ns, oldest first (R82). -/
  waggles : List (Nat × Nat × Nat)
  /-- Line ports, as a mask, that train when SETTLE ends (R149). -/
  bypassSettle : Nat
deriving DecidableEq, Repr

/-- The Comb and the switch (chapter 5). -/
structure Comb where
  hold : Tab (List Held)
  staging : Tab (List Staged)
  outQ : Tab (List QEnt)
  park : Tab (List QEnt)
  voq : Tab (List QEnt)
  /-- VOQ cells without an output (R166), per ingress switch port. -/
  voqPark : Tab (List QEnt)
  /-- Read-ahead cells of an output in VOQ mode (R164, R165). -/
  ahead : Tab (List QEnt)
  /-- Addresses of the cells that an output has read ahead of its output queues or its replay ring, at most 4 (R164). -/
  marks : Tab (List Nat)
  spill : Tab (List QEnt)
  /-- Cells already read from the segment at the head of a spill FIFO (R162). -/
  spillOfs : Tab Nat
  /-- FREE has fallen below ON and not yet reached OFF (R160, R161). -/
  spillOn : Bool
  /-- Cells that the audit of R172 cannot reach, each with its list and whether its link entry is good. -/
  lost : List (Nat × Bool × QEnt)
  /-- Refill requests outstanding per queue (R161). -/
  refills : Tab Nat
  xoff : Tab Bool
  /-- Spilling queues that found no segment and hold their new cells (R162). -/
  spillFull : Tab Bool
  freeStk : Tab Stack
  /-- Cell times a bank is still held by an access. -/
  busy : Tab Nat
  rptr : Tab Nat
  wptr : Tab Nat
  aptr : Tab Nat
  gptr : Tab Nat
  discards : List Discard
  /-- When each bank's detected errors happened, in ns (R173). -/
  bankErrs : Tab (List Nat)
  /-- Causes that hold VOQ mode: 1 start-up, 2 bank test, 3 recovery, 4 software (Table 5.6). -/
  vcauses : List Nat
  auditErrs : Nat
  retWait : List Nat
  hwmOcc : Tab Nat
  hwmSoj : Tab Nat
  /-- The pools in force of each line port, in cells (R126, R157). -/
  pools : Tab Nat
  /-- Banks that a rotation test retires at its end (Table 5.9). -/
  rotRetire : List Nat
deriving DecidableEq, Repr

/-- DWRR state of one output switch port (R182, R183): the class that holds the round, whether its turn is open,
deficits, and the active classes. -/
structure Dwrr where
  cur : Nat
  turn : Bool
  deficit : Tab Int
  active : List Nat
deriving DecidableEq, Repr

/-- A shaper or policer (R185): configuration words as SCH.SHP_CFG and SCH.SHP_BURST, TOKENS in 1/1,000 bit at the
instant `last` in ns. -/
structure Shaper where
  cfg : Word
  burst : Word
  tokens : Int
  last : Nat
deriving DecidableEq, Repr

/-- A frame open at Guard (R188): ingress switch port, TUN, TC, whether it is admitted, the policer that decided it, and
the shortfall of R181. -/
structure GuardFrame where
  inp : Nat
  tun : Nat
  tc : Nat
  letIn : Bool
  policer : Nat
  /-- Which policer refused it: 0 none, 1 tunnel policer, 2 express budget, 3 origin check. -/
  by_ : Nat
  express : Bool
  short : Nat
  xshort : Nat
deriving DecidableEq, Repr

/-- A frame that waits in an origin unit for its shaper (R186). -/
structure OriginFrame where
  shp : Nat
  slot : Nat
  cells : List Cell
  charge : Nat
deriving DecidableEq, Repr

/-- Scheduling, shaping and Guard beyond the registers (chapter 6). -/
structure Sched where
  dwrr : Tab Dwrr
  shapers : Tab Shaper
  policers : Tab Shaper
  xb : Shaper
  open_ : List GuardFrame
  held : List OriginFrame
  /-- Remaining shortfall of queue and port shapers per (queue) frame in progress (R181). -/
  short : Tab Nat
deriving DecidableEq, Repr

/-- A frame delivered to a unit. -/
structure Frame where
  dst : Nat
  src : Nat
  tun : Nat
  tc : Nat
  typ : Nat
  xpr : Bool
  ctx : Nat
  inPort : Option Nat
  bcast : Bool
  bytes : List Byte
deriving DecidableEq, Repr

/-- A reassembly context (R100, R214). -/
structure Reasm where
  src : Nat
  tun : Nat
  tc : Nat
  cells : Nat
  bytes : List Byte
  discarding : Bool
deriving DecidableEq, Repr

/-- A pair of the acceptance map (R215): highest FN and the numbers seen behind it. -/
structure DupPair where
  src : Nat
  tun : Nat
  high : Nat
  seen : List Nat
deriving DecidableEq, Repr

/-- Tunnel units (chapter 8): contexts per terminating unit (0-3 the P16 units, 4-15 switch ports), newest use last; the
acceptance map, oldest use first; frame numbers; frames delivered to each unit and not yet taken. -/
structure Tunnels where
  ctx : Tab (List Reasm)
  dup : List DupPair
  fn : Tab Nat
  inbox : Tab (List Frame)
  /-- Cells that reached a tributary die or a P16 unit and wait for their terminating unit, per switch port, with the
  ingress switch port and the CTX of the termination entry. -/
  arrived : Tab (List (Cell × Nat × Option Nat))
  /-- The mapper of each tributary die, by slot: the origin entries the LD has loaded into it, by tunnel (R210). -/
  mapper : Tab (Tab Nat)
deriving DecidableEq, Repr

/-- A bridge window or aperture in force (R220, R221): the staging words applied. -/
structure Window where
  cfg : Word
  lbase : Word
  rbase : Word
deriving DecidableEq, Repr

/-- Who waits for a bridge read: a BRG_READ command, BAR2 of the TS endpoint with its TLP number, or a requester that is gone
(Table 15.2: the completion frees its tag and is discarded). -/
inductive Reader where
  | cmd (o : Origin)
  | bar2 (tlp : Nat)
  | gone
deriving DecidableEq, Repr

/-- An outstanding read (R225): tag, GEN, length, bridge address, window-space address, tunnel, target, reader. -/
structure ReadTag where
  tag : Nat
  gen : Nat
  len : Nat
  addr : Nat
  loc : Nat
  tun : Nat
  dst : Nat
  reader : Reader
deriving DecidableEq, Repr

/-- A part of a BAR2 read that has its data, or has failed, and waits for the earlier parts of its request (R382): the
request's number, the window-space address of the part, success, data. -/
structure BarCpl where
  tlp : Nat
  loc : Nat
  ok : Bool
  data : List Byte
deriving DecidableEq, Repr

/-- A write context at a target (R228). -/
structure WriteCtx where
  src : Nat
  tun : Nat
  next : Nat
  fails : Nat
  sure : Bool
deriving DecidableEq, Repr

/-- An entry of the posted-error log or the bridge error log (Table 8.10), its four words. -/
structure BrgLog where
  w0 : Word
  w1 : Word
  w2 : Word
  w3 : Word
deriving DecidableEq, Repr

/-- A request the bridge holds at its target: waiting for the Deep Comb, the host or the root port (R219, R231). -/
structure BrgHeld where
  wr : Bool
  src : Nat
  tun : Nat
  tc : Nat
  id : Nat
  addr : Nat
  len : Nat
  data : List Byte
  /-- The domain that holds its resource: 0x11 Deep Comb, 0x14 TS. -/
  dom : Nat
deriving DecidableEq, Repr

/-- A local transaction answered RETRY (R232): attempts so far. -/
structure LocalTxn where
  id : Nat
  tries : Nat
  wr : Bool
  addr : Nat
  len : Nat
  data : List Byte
  reader : Reader
deriving DecidableEq, Repr

/-- A fence outstanding or waiting on a tunnel (R230). -/
structure Fence where
  tun : Nat
  window : Nat
  id : Nat
  sent : Bool
  o : Origin
deriving DecidableEq, Repr

/-- The bridge beyond its registers. -/
structure Bridge where
  windows : Tab Window
  apertures : Tab Window
  reads : List ReadTag
  gens : Tab Nat
  readWait : List LocalTxn
  wnum : Tab Nat
  /-- Tunnels whose next write does not carry START (R228). -/
  started : Tab Bool
  wctx : List WriteCtx
  pwl : List BrgLog
  elg : List BrgLog
  /-- Word index of each requester in each log (R234): requester index, and 4 more for the ELG. -/
  widx : Tab Nat
  held : List BrgHeld
  retry : List LocalTxn
  fences : List Fence
  toHost : List BarCpl
  peak : Nat
deriving DecidableEq, Repr

/-- A command in flight (R263, R264): in acceptance order per entry point. -/
structure Flight where
  o : Origin
  body : List Byte
  /-- 0 waits for dispatch, 1 dispatched, 2 completed with its reply waiting to be taken, 3 relayed (R273). -/
  stage : Nat
deriving DecidableEq, Repr

/-- A reply waiting in an attachment, as the bytes of R256; `held` says that it holds its tag: its command was accepted (R262, R263). -/
structure Reply where
  att : Attach
  ep : EntryPoint
  tag : Nat
  session : Nat
  bytes : List Byte
  held : Bool
deriving DecidableEq, Repr

/-- An open session (R269, R270). -/
structure Session where
  num : Nat
  ep : EntryPoint
  src : Nat
  gmask : Nat
  macReq : Bool
  alo : Nat
  ahi : Nat
  notAfter : Nat
  key : List Byte
  high : Nat
  seen : List Nat
  macFails : Nat
  /-- The session has ended; its key is kept for replies of commands still in flight (R269). -/
  ended : Bool
deriving DecidableEq, Repr

/-- An origin tag in use (R273): a relayed command, or an ADDR_ASSIGN of a line port (R142). -/
inductive Relay where
  | cmd (o : Origin)
  | assign (port : Nat)
deriving DecidableEq, Repr

/-- The command engine beyond its registers (chapter 10). -/
structure Cmd where
  flights : List Flight
  replies : List Reply
  sessions : List Session
  relays : Tab (Option Relay)
  /-- Origin tags freed by a timeout whose late reply is still recognised (R273). -/
  late : List Nat
  orphans : List (EntryPoint × Nat × List Byte × Nat)
  /-- Tags of accepted commands whose attachment is lost: their replies go to the orphan holder (R275). -/
  lost : List (EntryPoint × Nat)
  hspiErr : Bool
  hspiOut : List Byte
  /-- The line key K_line, 16 bytes (CMD.LKEY0-3). -/
  lkey : Tab Word
  /-- CMD frames with RSP set, waiting (R259). -/
  rspIn : List Frame
deriving DecidableEq, Repr

/-- Error logs (R478 to R481): the SRAM log, its LOST mark and the entries since boot; the NOR queue with its mark, the
entries written within the last second (code, slot, DETAIL, ns), the next record SEQ and its position in the ring, and the boot count; the EP5
queue. -/
structure Diag where
  elog : List LogEnt
  elogLost : Bool
  elogSeq : Nat
  norQ : List LogEnt
  norLost : Bool
  norRecent : List (Nat × Nat × Nat × Nat)
  norSeq : Nat
  norPos : Nat
  boots : Nat
  ep5 : List LogEnt
  ep5Lost : Bool
deriving DecidableEq, Repr

/-- Line time beyond its registers (R235 to R245): FADJ in units of 2^-32, its value at the last 16 SYNCs, the integral
term, runs of good and bad offsets, the learned length of a slow tick in 2^-32 ns, and XT32 windows. -/
structure TimeSt where
  fadj : Int
  hist : List Int
  integ : Int
  goodRun : Nat
  badRun : Nat
  tickLen : Nat
  /-- The present 1 s window lay wholly in LOCKED so far (R244). -/
  windowLocked : Bool
  /-- Time zero of the present holdover, in ns of the model's clock (TIM.HOLD). -/
  holdFrom : Nat
  /-- QUAL 1 is sent until the node is LOCKED again (R245). -/
  slowQual : Bool
  /-- In HOLD_SLOW, what the LD has interpolated since the last slow tick, in 2^-32 ns (R245). -/
  interp : Nat
deriving DecidableEq, Repr

/-- OTP (R445): key hashes by slot, 0 and 1 Alatinos, 4 to 7 owner; their state 0 EMPTY, 1 PROGRAMMED, 2 REVOKED; and
OWNONLY. -/
structure Otp where
  hash : Tab (BitVec 256)
  st : Tab Nat
  ownOnly : Bool
deriving DecidableEq, Repr

/-- A pending trigger entry (R250): the instant of its next pulse, WIDTH and PERIOD in 250 ps units, the pulses left (`none`
until cancelled), and the late pulses that are to fire (Table 9.4): the instant, and whether several fire then. -/
structure TrigEnt where
  next : Nat
  width : Nat
  period : Nat
  left : Option Nat
  late : List (Nat × Bool)
deriving DecidableEq, Repr

/-- An edge on a capture pin whose level has not yet held for FILT (R253): its direction, its stamp with the mark that QSTATE was
neither LOCKED nor MASTER, and its instant on the model's clock. -/
structure CapEdge where
  rising : Bool
  stamp : Nat × Bool
  since : Nat
deriving DecidableEq, Repr

/-- A pin TRIG0 to TRIG7 (R249 to R254): pending entries in order of AT, the ends of the pulses that run in 250 ps units of
the model's clock, an edge in the glitch filter, the capture FIFO (stamp, and whether QSTATE was neither LOCKED nor MASTER), and the
edges lost since the last report. -/
structure TrigPin where
  entries : List TrigEnt
  running : List Nat
  edge : Option CapEdge
  fifo : List (Nat × Bool)
  lost : Nat
deriving DecidableEq, Repr

/-- The Power Delivery messages a port sends (Table 12.2); offers are (VSEL, 10 mA) pairs. -/
inductive PdMsg where
  | sourceCaps (pdos : List (Nat × Nat))
  | sourceCapsExt
  | accept | reject | wait | psRdy | notSupported
  | sinkCaps (pdos : List (Nat × Nat))
  | revision | softReset | hardReset
  | request (pos iop : Nat)
  | discIdPrime | discId | discSvids | discModes | enterMode | exitMode | statusUpdate
  | dpConfigure (pins : Nat)
  | identityAck | vdmNak
deriving DecidableEq, Repr

/-- A TU Type-C port beyond its registers (R301 to R328). Powers are in mW. -/
structure TcPort where
  /-- Rd on a CC pin of a port that may not attach yet: CC2, Ra. -/
  cc : Option (Bool × Bool)
  /-- Enabled while FREE was below 8.5 W (R309). -/
  blocked : Bool
  /-- In ERROR_RECOVERY because of PWRWARN_N (R304). -/
  warned : Bool
  vbusOn : Bool
  /-- VBUS has been below vSafe0V since it was last turned off, and until when tSafe0V runs, in ns (R325). -/
  vbusSafe : Bool
  offUntil : Nat
  /-- In ERROR_RECOVERY, tErrorRecovery has not ended (R324). -/
  recovering : Bool
  /-- A_p. -/
  alloc : Nat
  /-- The last Source_Capabilities: (VSEL, 10 mA). -/
  offer : List (Nat × Nat)
  /-- The accepted Request: position, VSEL, operating current; and whether the VBUS change has started. -/
  accepted : Option (Nat × Nat × Nat)
  changing : Bool
  /-- Source_Capabilities sent in a row without a response; SOP' attempts. -/
  caps : Nat
  tries : Nat
  /-- New Source_Capabilities under a contract wait for their Request. -/
  awaiting : Bool
  /-- Waits in a row with no power freed, power freed since the last Wait, and the shortfall of the Wait (R314). -/
  waits : Nat
  freed : Bool
  want : Nat
  /-- What reclaim is taking from the port, and the limit of its new offer (R313). -/
  take : Nat
  limit : Option Nat
  /-- Rp has dropped to 1.5 A and tSinkAdj runs (R302). -/
  sinkAdj : Bool
  /-- The partner runs PD 2.0 (R300), its structured VDMs version 1.0. -/
  pd2 : Bool
  vdm10 : Bool
  /-- A VCONN_Swap waits for the partner's PS_RDY (R316). -/
  swap : Bool
  /-- When the VBUS limit held, in ns (R303). -/
  trips : List Nat
  idAck : Bool
  vid : Nat
  pid : Nat
  /-- The alt-mode flow (R319): 0 none, 1 Discover Identity, 2 SVIDs, 3 Modes, 4 Enter Mode, 5 Configure, 6 entered, 7 no head
  free; the head claimed and the pin assignment. -/
  alt : Nat
  altHead : Nat
  altPins : Nat
  /-- The head that an entry allows (Table 12.6). -/
  altWant : Nat
  /-- What the last event of the die made the port send, oldest first. -/
  sent : List PdMsg
deriving DecidableEq, Repr

/-- The SVC sink beyond SVC.PDSTAT (R321): the Request sent (position, VSEL, current), whether it was accepted, retries, and
what the last event made it send. -/
structure SvcSink where
  req : Option (Nat × Nat × Nat)
  accepted : Bool
  tries : Nat
  pd2 : Bool
  sent : List PdMsg
deriving DecidableEq, Repr

/-- The PD policy rules and alt-mode entries in force on a TU die (Tables 12.4 and 12.6). -/
structure PdTables where
  rules : List (List Byte)
  alts : List (List Byte)
deriving DecidableEq, Repr

/-- A fetched transfer descriptor (Table 13.4): its index, the fields that count, and whether its transfer waits for a
service interval or target microframe. -/
structure Desc where
  index : Nat
  buf : Nat
  len : Nat
  setup : List Byte
  typ : Nat
  flags : Nat
  cookie : List Byte
  waits : Bool
deriving DecidableEq, Repr

/-- A transfer ring of the proxy, from its context (Table 13.2): STATE 0 stopped, 1 running, 2 halted. -/
structure Ring where
  st : Nat
  base : Nat
  lsize : Nat
  dev : Nat
  ep : Nat
  typ : Nat
  ci : Nat
  pi_ : Nat
  cur : Option Desc
deriving DecidableEq, Repr

/-- The transfer proxy of a TU die (R333 to R341): the context table's base, its rings, the event ring (base, log2 size,
CI, PI), and whether events wait to be announced. -/
structure Proxy where
  base : Nat
  rings : Tab Ring
  evBase : Nat
  evSize : Nat
  evCi : Nat
  evPi : Nat
  unsaid : Bool
deriving DecidableEq, Repr

/-- The SVC USB device beyond its registers (R344 to R350): the bus state that suspend left, whether it drives K, DB at
connect, whether it runs at full speed only, the carving in force (BASE, SIZE in 64 bytes per endpoint), the active USB
descriptors (none: the fall-back set), halted endpoints, EP3 records and the LOST mark, and what the last poll or request was
answered with (`none` a STALL). -/
structure SvcDev where
  before : Nat
  driveK : Bool
  dbAtConnect : Bool
  fullSpeed : Bool
  carve : List (Nat × Nat)
  descs : List (List Byte)
  halted : List Nat
  ep3 : List (List Byte)
  ep3Lost : Bool
  answer : Option (List Byte)
deriving DecidableEq, Repr

/-- A complete line in a head's line buffer (R362): its number and the bytes of its rows: luma, chroma (both chroma rows, or the
interleaved one), overlay. -/
structure FbLine where
  line : Nat
  luma : List Byte
  cb : List Byte
  cr : List Byte
  ov : List Byte
deriving DecidableEq, Repr

/-- A display head beyond its registers (R352 to R368): timing words taken at enable, active copies of VPLANE0-7 and OVL0-7,
the active palette, command mode, whether it stops at the end of its frame, DSP_FLIP commands that wait for the latch,
line time of the last latch, the line buffer, lines requested, the line to request next (`none` past the end of a transfer),
whether the next line is line 0, whether UNDERRUN was raised in this frame, when the current line started in ns, and the
last line put out. -/
structure Head where
  running : Bool
  timing : List Word
  active : List Word
  palette : List Byte
  cmdMode : Bool
  stopping : Bool
  waits : List Origin
  latchAt : Nat
  buf : List FbLine
  asked : List Nat
  nextAsk : Option Nat
  fresh : Bool
  underSaid : Bool
  lineAt : Nat
  out : List (Nat × Nat × Nat)
deriving DecidableEq, Repr

/-- A frame waiting at a TN egress port (R218, R376): its bytes without FCS, the FCS it carries, and its ingress stamp. -/
structure EthOut where
  bytes : List Byte
  fcs : Option (List Byte)
  stamp : Option Nat
deriving DecidableEq, Repr

/-- A TN port beyond its registers (R370 to R376): frames in the ingress buffer of a die that is not in service (tunnel and
wrapped frame), frames for the egress side, whether PAUSE has been sent and not released, QUANTA of the PAUSE frames that the
last event sent, when the partner's PAUSE ends in ns, and the last frame put out with its FCS and whether it was cut off. -/
structure EthPort where
  buf : List (Nat × List Byte)
  egress : List EthOut
  pausing : Bool
  pauseSent : List Nat
  rxPause : Nat
  out : Option (List Byte × Bool)
deriving DecidableEq, Repr

/-- What the TS sends at its two links: to the server a write or a read of its memory, an MSI-X message (vector, address, data) or
a completion of a BAR2 read (its number and status: 0 successful, 1 Completer Abort); behind the root port a write or a read of
memory or configuration space, and the completion of a device's request (successful, or UR). -/
inductive HostTlp where
  | write (addr : Nat) (bytes : List Byte)
  | read (addr len : Nat)
  | msi (vector addr data : Nat)
  | cpl (tlp status : Nat) (bytes : List Byte)
  | devWrite (cfg : Bool) (addr : Nat) (bytes : List Byte)
  | devRead (cfg : Bool) (addr len : Nat)
  | devCpl (ok : Bool) (bytes : List Byte)
deriving DecidableEq, Repr

/-- The TS host interface (Table 15.1) and its queues (R378 to R382): the RW words by offset from 0x0200_0000, CMD_BUF, when
CFREE returns in ns and whether its vector has been raised, RSP_BUF, MB_STAT.ERR, TX_BUF, whether a frame of TX_GO has not left,
TXERR, producer indices, the pending-bit array, vectors held back by MOD and when each queue's last vector was raised, the
frame held at P8, and the TLPs that leave toward the server. -/
structure HostIf where
  words : Tab Word
  cmdBuf : Tab Byte
  cfreeAt : Nat
  cfreeSaid : Bool
  rsp : Option Reply
  err : Bool
  txBuf : Tab Byte
  txWait : Bool
  txErr : Bool
  pi_ : Tab Nat
  pba : Tab Bool
  vecWait : List Nat
  vecAt : Tab Nat
  held : Option Frame
  sent : List HostTlp
deriving DecidableEq, Repr

/-- An eFuse beyond its registers (R392 to R403), port 0 to 3 or load 4: the curve in force, the curve counters, when it last
turned off in ns, whether a command asked for it to be on, whether qualification waits for its retry, the SEG_QUALIFY that
waits, when PG was asserted in ticks, whether PG is to be deasserted at the end of its two ticks, the tick of a curve trip, the
pair voltage of the last tick in 10 mV, its mean current in 0.1 mA, whether the check of R403 is armed and how many ticks in a
row the pair was above VSHORT, and RSIG and CSIG of the last qualification. -/
structure EFuse where
  curve : List Word
  cnt : List Nat
  offAt : Option Nat
  onReq : Bool
  retry : Bool
  seg : Option Origin
  pgAt : Nat
  pgLate : Bool
  tripAt : Option Nat
  vout : Nat
  mean : Nat
  armed : Bool
  above : Nat
  rsig : Nat
  csig : Nat
deriving DecidableEq, Repr

/-- The Nurse beyond its registers (R415 to R423): the state that STANDBY or NAP left, the wake that started the fast clocks (kind and index),
whether LBUS has held VON, when each interrupt group was last delivered in ns. -/
structure Nurse where
  left : Nat
  wake : Option (Nat × Nat)
  vonOk : Bool
  delivered : Tab (Option Nat)
deriving DecidableEq, Repr

/-- The last run of a self-test (R471, R484): STATE 0 IDLE, 1 RUNNING, 2 PASS, 3 FAIL, 4 ABORTED; PROGRESS, SUB, the 8 bytes of
RESULT and PARAM. -/
structure TestRun where
  st : Nat
  prog : Nat
  sub : Nat
  result : List Byte
  param : Nat
deriving DecidableEq, Repr

/-- The bank rotation test (R472): the bank under test and its phase (1 relocation, 2 cells, 3 link memory, 4 return), the banks
to come, and the masks of banks passed and failed. -/
structure BankRot where
  bank : Nat
  phase : Nat
  todo : List Nat
  passed : Nat
  failed : Nat
deriving DecidableEq, Repr

/-- Self-tests in progress (R470 to R475): last runs by 256 x TEST + DOMAIN, the bank rotation, the tables of TBL_CMP still to be
compared with entries compared and rewritten, the scrub's next burst with the errors and fixes of its pass and whether a
TEST_RUN started it, and the EYE_MARGIN that runs (port, lane). -/
structure Tests where
  runs : Tab TestRun
  rot : Option BankRot
  cmp : Option (List Nat × Nat × Nat)
  scrubAt : Nat
  scrubErr : Nat
  scrubFix : Nat
  scrubTest : Bool
  eye : Option (Origin × Nat × Nat)
deriving DecidableEq, Repr

/-- A program of the NOR that has not reached its commit point (R440): a settings record for SET_WRITE, or the boot record of
IMG_COMMIT. -/
inductive NorJob where
  | set (o : Origin) (fld : Nat) (value : List Byte)
  | commit (o : Origin)
deriving DecidableEq, Repr

/-- An activation, or a revert (R457 to R459): the slot that dies move to, FORCE and DRAIN, the window of the trial, dies still
to change in order (0 the LD) and dies changed, latest first, the die that is on its way through a reset, and the stage of the LD
step (0 dies, 1 shadows being built, 2 tables swapped), whether it goes back, the status of the failure that made it go back,
and whether a revert was asked for meanwhile. -/
structure Activation where
  slot : Nat
  force : Bool
  drain : Nat
  window : Nat
  todo : List Nat
  changed : List Nat
  cur : Option Nat
  stage : Nat
  back : Bool
  err : Nat
  stop : Bool
deriving DecidableEq, Repr

/-- A delta patch in progress (R454): NBLK, bytes put out, the block being filled. -/
structure Patch where
  nblk : Nat
  out : Nat
  block : List Byte
deriving DecidableEq, Repr

/-- The image controller beyond its registers (R441 to R461): the boot stage (0 waits for the seal, 1 image applied, 2 booted, 3
recovery), the image slot each die runs plus 1 (0 none), the slot the dies ran before the activation, the settings in force with
their FMVER, whether the migrated set is not yet in the NOR, the NOR programs in progress in order, the IMG_VERIFY that runs, the
activation, the trial (slot, end in ns), the patch, the IMG_WRITE of EP4 (block, blocks left, done), whether a dead-battery start
left part of the image unapplied, and whether a trial ended by reset is still to be reported. -/
structure Img where
  stage : Nat
  runs : Tab Nat
  old : Nat
  settings : List (Nat × List Byte)
  fmver : Nat
  dirty : Bool
  jobs : List NorJob
  verify : Option (Origin × Nat)
  act : Option Activation
  trial : Option (Nat × Nat)
  patch : Option Patch
  ep4 : Option (Origin × Nat × Nat × Nat)
  part : Bool
  reverted : Bool
deriving DecidableEq, Repr

def RxLink.reset : RxLink :=
  { e := 0, waiting := false, skip := none, released := [], xrel := 0, xseq := 0, nakPend := false,
    ackPend := false, credPend := [], credLast := 0, ackTurn := true, frames := 0, rcv := [], freed := [], clSent := [],
    clWord := [], xrelWord := 0, recallPend := [] }

def TxLink.reset : TxLink :=
  { seq := 0, buf := [], custody := [], cons := [], known := [], pool := [], inited := [], credInit := false,
    xseq := 0, xrel := 0, replay := none, replayWord := false, rplFrom := 0, rplCount := 0, recalls := [],
    faults := 0 }

def PortTime.reset : PortTime :=
  { gtag := 0, outstanding := none, dreqSent := 0, rtt := none, syncHi := none, dreqRx := 0, dreqAt := 0, syncSent := 0 }

/-- A line port after reset: not trained. -/
def LinePort.reset : LinePort :=
  { proto := 0, farAddr := 0, farPort := 0, farLh4 := false, cfg := 0, excluded := 0, trainLane := 0, capRx := 0, capAckRx := false,
    capBody := 0, capAckTx := false, baseNrz := false, prbs := 0, txLanes := 0,
    restartWait := false, exitFrom := 0, reqSent := none, enterAfter := none, enterNow := none, exitAt := 0, lastCell := 0,
    since := 0, badFcw := 0, badFcwAt := 0, badDoze := 0, goodFrames := 0, frameBad := false, osq := [], sinceOs := 255,
    txFrame := 0, rxFrame := 0, slotInFrame := 0, rxSlot := 0, retire := none, retireWait := [], rx := RxLink.reset,
    tx := TxLink.reset, fifo := [], xwin := 0, lastSlot := .quiet, lastFcw := (0, 0), fcws := [], slots := [], scr := 0,
    lanesOut := [], left := false,
    time := PortTime.reset, lpwr := 0, assigning := false }

/-- A Tolger direction after reset: 128 cells of credit per channel (Table 5.4). -/
def TolgerDir.reset : TolgerDir :=
  { credit := [], owed := [], waiting := [], flight := [], cellFails := [], flits := [], flitFails := 0, last := 1 }

/-- The credit a Tolger cell channel starts with (Table 5.4, R24). -/
def tolgerCredit : Nat → Nat := fun _ => 128

def Domain.reset (st : DomSt) : Domain := { st := st, drain := [], force := false, waiter := none, wasReset := false }

def LdTable.reset : LdTable := { active := [], shadow := [], master := [], rebuilding := false }

def Topo.reset : Topo :=
  { route := LdTable.reset, term := LdTable.reset, origin := LdTable.reset, gmap := LdTable.reset,
    recompute := [], expanding := none, seeds := [], prevAddr := 0, breaks := [], breakHold := [],
    restoreHold := [], waggles := [], bypassSettle := 0 }

def Comb.reset : Comb :=
  { hold := [], staging := [], outQ := [], park := [], voq := [], voqPark := [], ahead := [], marks := [], spill := [],
    spillOfs := [], spillOn := false, lost := [], refills := [], xoff := [], spillFull := [], freeStk := [], busy := [], rptr := [], wptr := [],
    aptr := [], gptr := [], discards := [], bankErrs := [], vcauses := [1], auditErrs := 0, retWait := [],
    hwmOcc := [], hwmSoj := [], pools := [], rotRetire := [] }

def Dwrr.reset : Dwrr := { cur := 4, turn := false, deficit := [], active := [] }

/-- BURST in bytes: units of 256, 0 meaning 16 MiB. -/
def burstBytes (b : Word) : Nat := if b.toNat % 65536 = 0 then 65536 * 256 else b.toNat % 65536 * 256

/-- A shaper or policer with full tokens: BURST x 8,000 units (R185). -/
def Shaper.full (cfg burst : Word) : Shaper :=
  { cfg := cfg, burst := burst, tokens := burstBytes burst * 8000, last := 0 }

/-- The reset contents of shaper `i` (Table 6.2). -/
def shaperReset (i : Nat) : Shaper :=
  if i < 0x88 then
    if i % 8 = 5 then Shaper.full (BitVec.ofNat 32 (0xA0000000 + 50000)) 0x400#32 else Shaper.full 0x30D40#32 0x100#32
  else if i < 0x111 ∧ 0x100 ≤ i then Shaper.full (BitVec.ofNat 32 (0x20000000 + 200000)) 0x100#32
  else Shaper.full 0x30D40#32 0x100#32

/-- The reset contents of a policer (R187). -/
def policerReset (_ : Nat) : Shaper := Shaper.full 0x30D40#32 0x100#32

def Sched.reset : Sched :=
  { dwrr := [], shapers := [], policers := [], xb := Shaper.full 0x80002710#32 0x20#32, open_ := [], held := [],
    short := [] }

def Tunnels.reset : Tunnels := { ctx := [], dup := [], fn := [], inbox := [], arrived := [], mapper := [] }

/-- A window or aperture after reset: the reset values of its staging registers, disabled. -/
def Window.reset : Window := { cfg := 0x60C00000#32, lbase := 0, rbase := 0 }

def Bridge.reset : Bridge :=
  { windows := [], apertures := [], reads := [], gens := [], readWait := [], wnum := [], started := [], wctx := [],
    pwl := [], elg := [], widx := [], held := [], retry := [], fences := [],
    toHost := [], peak := 0 }

def Cmd.reset : Cmd :=
  { flights := [], replies := [], sessions := [], relays := [], late := [], orphans := [], lost := [], hspiErr := false,
    hspiOut := [], lkey := [], rspIn := [] }

def Diag.reset : Diag :=
  { elog := [], elogLost := false, elogSeq := 0, norQ := [], norLost := false, norRecent := [], norSeq := 0, norPos := 0,
    boots := 0, ep5 := [], ep5Lost := false }

/-- The nominal slow tick, 30.518 us, in units of 2^-32 ns (R244). -/
def nominalTick : Nat := 30518 * 2 ^ 32

def TimeSt.reset : TimeSt :=
  { fadj := 0, hist := [], integ := 0, goodRun := 0, badRun := 0, tickLen := nominalTick, windowLocked := false,
    holdFrom := 0, slowQual := false, interp := 0 }

def Otp.reset : Otp := { hash := [], st := [], ownOnly := false }

def TrigPin.reset : TrigPin := { entries := [], running := [], edge := none, fifo := [], lost := 0 }

/-- A Type-C port after reset: unattached, VBUS off and below vSafe0V. -/
def TcPort.reset : TcPort :=
  { cc := none, blocked := false, warned := false, vbusOn := false, vbusSafe := true, offUntil := 0, recovering := false, alloc := 0, offer := [],
    accepted := none, changing := false, caps := 0, tries := 0, awaiting := false, waits := 0, freed := false, want := 0,
    take := 0, limit := none, sinkAdj := false, pd2 := false, vdm10 := false, swap := false, trips := [], idAck := false,
    vid := 0, pid := 0, alt := 0, altHead := 0, altPins := 0, altWant := 0, sent := [] }

def SvcSink.reset : SvcSink := { req := none, accepted := false, tries := 0, pd2 := false, sent := [] }

def PdTables.reset : PdTables := { rules := [], alts := [] }

def Ring.reset : Ring := { st := 0, base := 0, lsize := 0, dev := 0, ep := 0, typ := 0, ci := 0, pi_ := 0, cur := none }

def Proxy.reset : Proxy := { base := 0, rings := [], evBase := 0, evSize := 0, evCi := 0, evPi := 0, unsaid := false }

def SvcDev.reset : SvcDev :=
  { before := 0, driveK := false, dbAtConnect := false, fullSpeed := false, carve := [], descs := [], halted := [], ep3 := [], ep3Lost := false,
    answer := none }

def Head.reset : Head :=
  { running := false, timing := [], active := [], palette := [], cmdMode := false, stopping := false, waits := [], latchAt := 0,
    buf := [], asked := [], nextAsk := none, fresh := false, underSaid := false, lineAt := 0, out := [] }

def EthPort.reset : EthPort := { buf := [], egress := [], pausing := false, pauseSent := [], rxPause := 0, out := none }

def HostIf.reset : HostIf :=
  { words := [], cmdBuf := [], cfreeAt := 0, cfreeSaid := true, rsp := none, err := false, txBuf := [], txWait := false,
    txErr := false, pi_ := [], pba := [], vecWait := [], vecAt := [], held := none, sent := [] }

/-- The default curves (Table 16.2): a port eFuse, and the node-load eFuse. -/
def defaultCurve (f : Nat) : List Word :=
  if f = 4 then [0x0C820000#32, 0x12C00CCD#32, 0x19000021#32, 0x1E000002#32, 0, 0, 0, 0]
  else [0x12C20000#32, 0x15E08000#32, 0x19000CCD#32, 0x1F400148#32, 0x23000021#32, 0x24E00002#32, 0, 0]

def EFuse.reset (f : Nat) : EFuse :=
  { curve := defaultCurve f, cnt := [0, 0, 0, 0, 0, 0, 0, 0], offAt := none, onReq := false, retry := false, seg := none, pgAt := 0,
    pgLate := false, tripAt := none, vout := 0, mean := 0, armed := false, above := 0, rsig := 0, csig := 0 }

def Nurse.reset : Nurse := { left := 0, wake := none, vonOk := false, delivered := [] }

def Tests.reset : Tests :=
  { runs := [], rot := none, cmp := none, scrubAt := 0, scrubErr := 0, scrubFix := 0, scrubTest := false, eye := none }

def TestRun.reset : TestRun := { st := 0, prog := 0, sub := 0, result := List.replicate 8 0, param := 0 }

def Img.reset : Img :=
  { stage := 0, runs := [], old := 0, settings := [], fmver := 0, dirty := false, jobs := [], verify := none, act := none,
    trial := none, patch := none, ep4 := none, part := false, reverted := false }

/-- The state of the part. -/
structure State where
  /-- Which part this is (Table 0.3) and whether its stepping is B0 (R7); fixed in manufacture. -/
  variant : Variant
  stepB0 : Bool
  /-- The model's own clock: ns since the state began (notes/assumptions/1). -/
  now : Nat
  /-- The model's own count of free values drawn (notes/assumptions/2). -/
  free : Nat
  regs : Tab Word
  ctrs : Tab Ctr
  /-- Counter blocks in read-and-clear mode, by block key 512 x slot + block (R466). -/
  ctrRc : Tab Bool
  srcs : Tab SrcState
  /-- What a register read that is a row of its own last returned. -/
  lastRead : Word
  ports : Tab LinePort
  /-- Tolger links: key 2 x slot, plus 1 toward the LD. -/
  tolger : Tab TolgerDir
  domains : Tab Domain
  topo : Topo
  comb : Comb
  sched : Sched
  tuns : Tunnels
  brg : Bridge
  cmd : Cmd
  /-- Deep Comb bytes (R27, R219). -/
  deep : Tab Byte
  /-- Line time in units of 2^-32 ns, modulo 2^96 (R235). -/
  lt : Nat
  diag : Diag
  time : TimeSt
  otp : Otp
  trig : Tab TrigPin
  /-- Signed corrections of the factory trims by the images, key 65,536 x slot + ID (Table 18.4). -/
  trims : Tab Int
  tcp : Tab TcPort
  svcSink : SvcSink
  /-- Per TU die, 0 S2 and 1 S6. -/
  pdTables : Tab PdTables
  proxies : Tab Proxy
  svcDev : SvcDev
  heads : Tab Head
  /-- The timing records in force, 32 bytes each (R356). -/
  timings : List (List Byte)
  /-- The tolerance each head has sent to the DCM, and when, in ns (R363). -/
  tols : Tab (Nat × Nat)
  /-- The last DP stream frame put out by each TU port (R361). -/
  dpLine : Tab (List Byte)
  /-- TN ports, key 6 x die + port. -/
  eths : Tab EthPort
  /-- The VLAN maps in force, key 256 x die + index, as ETM.VMAP (R371). -/
  etm : Tab Word
  hostIf : HostIf
  efuses : Tab EFuse
  nurse : Nurse
  tests : Tests
  img : Img
  /-- QSPI NOR bytes (R439); an unlisted byte is erased. -/
  nor : Tab Byte
  /-- The supply monitor holds power-on reset (R490). -/
  supplyHold : Bool
  /-- The commands that wait, first in, first out. -/
  pending : List Instr
deriving DecidableEq, Repr

/-- Right after a power-on reset (R436): the ports are DISABLED, the Comb is in VOQ mode for start-up, no image has been
applied. -/
def State.reset : State :=
  { variant := .g8, stepB0 := true, now := 0, free := 0, regs := [], ctrs := [],
    ctrRc := [], srcs := [], lastRead := 0, ports := [], tolger := [], domains := [], topo := Topo.reset,
    comb := Comb.reset, sched := Sched.reset, tuns := Tunnels.reset, brg := Bridge.reset, cmd := Cmd.reset,
    deep := [], lt := 0, diag := Diag.reset,
    time := TimeSt.reset, otp := Otp.reset, trig := [], trims := [], tcp := [], svcSink := SvcSink.reset, pdTables := [],
    proxies := [], svcDev := SvcDev.reset,
    heads := [], timings := [], tols := [], dpLine := [],
    eths := [], etm := [], hostIf := HostIf.reset, efuses := [], nurse := Nurse.reset,
    tests := Tests.reset, img := Img.reset, nor := [], supplyHold := false,
    pending := [] }

end Sys2Proof.Machine
end

