-- ==== Sys2Proof/Machine/Ops.lean ====
section
/-! DEFINITION. The named operations over registers, tables and memory, bit fields, byte orders and check codes. -/
namespace Sys2Proof.Machine

/-- What a meaning answers. -/
abbrev Res := Host.Outcome State Fault Refusal

/-- Bits `hi:lo` of a number. -/
def bits (hi lo n : Nat) : Nat := n / 2 ^ lo % 2 ^ (hi + 1 - lo)

/-- Bit `i` of a number. -/
def bit (i n : Nat) : Bool := n / 2 ^ i % 2 == 1

def ofBool (b : Bool) : Nat := if b then 1 else 0

/-- `n` with bit `i` set, cleared or put to `b`. -/
def setBit (i : Nat) (b : Bool) (n : Nat) : Nat :=
  if bit i n = b then n else if b then n + 2 ^ i else n - 2 ^ i

/-- A field `w` bits wide as a signed number. -/
def signed (w n : Nat) : Int := if 2 * (n % 2 ^ w) < 2 ^ w then (n % 2 ^ w : Nat) else (n % 2 ^ w : Nat) - (2 ^ w : Nat)

/-- A signed number as a field `w` bits wide, two's complement. -/
def unsigned (w : Nat) (i : Int) : Nat := (i % (2 ^ w : Nat)).toNat

/-- The bit numbers below `n` that are set in `m`. -/
def onBits (n m : Nat) : List Nat := (List.range n).filter fun i => bit i m

/-! Bytes. -/

/-- The number that bytes spell, most significant byte first. -/
def beNat (l : List Byte) : Nat := l.foldl (fun a b => a * 256 + b.toNat) 0

/-- `k` bytes of a number, most significant byte first. -/
def beBytes : Nat → Nat → List Byte
  | 0, _ => []
  | k + 1, n => beBytes k (n / 256) ++ [BitVec.ofNat 8 n]

/-- The number that bytes spell, least significant byte first. -/
def leNat : List Byte → Nat
  | [] => 0
  | b :: l => b.toNat + 256 * leNat l

/-- `k` bytes of a number, least significant byte first. -/
def leBytes : Nat → Nat → List Byte
  | 0, _ => []
  | k + 1, n => BitVec.ofNat 8 n :: leBytes k (n / 256)

/-- `n` bytes of `l` from byte `i`, most significant first, as a number. -/
def field (l : List Byte) (i n : Nat) : Nat := beNat ((l.drop i).take n)

/-- `l` cut or padded with zero bytes to `n` bytes. -/
def padTo (n : Nat) (l : List Byte) : List Byte := (l ++ List.replicate n 0).take n

/-- Bytes `i` to `i + n - 1` are all zero. -/
def zeroAt (l : List Byte) (i n : Nat) : Bool := (((l.drop i).take n).all fun b => b == 0)

/-! Check codes. -/

/-- One bit of a CRC `w` bits wide, most significant bit first. -/
def crcBit (w poly crc : Nat) (b : Bool) : Nat :=
  let top := bit (w - 1) crc
  let sh := crc * 2 % 2 ^ w
  if top == b then sh else sh ^^^ poly

/-- CRC over bits, most significant bit first. -/
def crcBits (w poly : Nat) : Nat → List Bool → Nat
  | crc, [] => crc
  | crc, b :: l => crcBits w poly (crcBit w poly crc b) l

/-- The `n` bits of a number, most significant first. -/
def bitsOf : Nat → Nat → List Bool
  | 0, _ => []
  | n + 1, x => bit n x :: bitsOf n x

/-- CRC-4 of an FCW over its bits 19:4 (R55). -/
def crc4 (v : Nat) : Nat := crcBits 4 0x3 0xF (bitsOf 16 v)

/-- CRC-8 of R64 over `n` bits of a number. -/
def crc8 (n v : Nat) : Nat := crcBits 8 0x07 0xFF (bitsOf n v)

/-- One bit of the reflected CRC-32C. -/
def crc32cBit (crc : Nat) : Nat := if bit 0 crc then (crc / 2) ^^^ 0x82F63B78 else crc / 2

/-- One byte of the CRC-32C, least significant bit first (R97). -/
def crc32cByte (crc : Nat) (b : Byte) : Nat :=
  crc32cBit (crc32cBit (crc32cBit (crc32cBit (crc32cBit (crc32cBit (crc32cBit (crc32cBit (crc ^^^ b.toNat))))))))

/-- The CRC-32C of R97: polynomial 0x1EDC_6F41, initial value and final XOR all ones, bytes least significant bit
first. -/
def crc32c (l : List Byte) : Nat := (l.foldl crc32cByte 0xFFFFFFFF) ^^^ 0xFFFFFFFF

/-! Register fields. -/

/-- The word a register key holds. -/
def regGet (s : State) (k : Nat) : Word := Tab.get regReset s.regs k

/-- Writes the word of a register key. -/
def regSet (s : State) (k : Nat) (v : Word) : State := { s with regs := Tab.set regReset k v s.regs }

/-- The field of a register word. -/
def Fld.of (f : Fld) (v : Word) : Nat := v.toNat / 2 ^ f.lo % 2 ^ f.w

/-- A register word with the field put to `x`. -/
def Fld.into (f : Fld) (x : Nat) (v : Word) : Word :=
  BitVec.ofNat 32 (v.toNat / 2 ^ (f.lo + f.w) * 2 ^ (f.lo + f.w) + x % 2 ^ f.w * 2 ^ f.lo + v.toNat % 2 ^ f.lo)

/-- What a field holds. -/
def rd (f : Fld) (s : State) : Nat := f.of (regGet s f.addr)

/-- Hardware puts a field to `x`. -/
def wr (f : Fld) (x : Nat) (s : State) : State := regSet s f.addr (f.into x (regGet s f.addr))

/-- A one-bit field. -/
def rdB (f : Fld) (s : State) : Bool := rd f s == 1

/-- Hardware sets bits of a field. -/
def orF (f : Fld) (m : Nat) (s : State) : State := wr f (rd f s ||| m) s

/-- The index of a requester (R191). -/
def reqIdx : EntryPoint → Nat
  | .line => 0
  | .host => 1
  | .svc => 2
  | .boot => 3

/-- A requester's own copy of a field (R295). -/
def Fld.mine (f : Fld) (r : EntryPoint) : Fld := { f with addr := f.addr + 0x100000000 * (reqIdx r + 1) }

/-- A field of every instance of a register with `n` instances, taken as set of indices where it is 1. -/
def anyB (l : List Fld) (s : State) : Bool := l.any fun f => rdB f s

/-! The part. -/

/-- The dies of the variant: bit n for slot Sn (Table 0.3, GLB.CAP.SLOTS). -/
def Variant.slots : Variant → Nat
  | .a2 => 0x03
  | .c4 => 0x0F
  | .e6 => 0x3F
  | .g8 => 0xFF

/-- GLB.CAP.VARIANT. -/
def Variant.code : Variant → Nat
  | .a2 => 1
  | .c4 => 2
  | .e6 => 3
  | .g8 => 4

/-- A die occupies slot `n`. -/
def present (s : State) (n : Nat) : Bool := bit n s.variant.slots && n < 8

/-- COMPAT_LH4 as sampled (R11). -/
def compat (s : State) : Bool := rdB Reg.GLB.STRAP.COMPAT_LH4 s

/-- The role in effect (R8, R9). -/
def role (s : State) : Nat := rd Reg.GLB.STRAP.ROLE s

def isHead (s : State) : Bool := role s == 1

/-- The repeater/branch role: transit traffic only, beside tunnel 0 and the service port (R8, R10). -/
def isRepeater (s : State) : Bool := role s == 2

/-- This node's line address. -/
def ownAddr (s : State) : Nat := rd Reg.RTE.ADDR.ADDR s

/-- The slot of a tributary switch port P4 to P15 (Table 1.2). -/
def portSlot (p : Nat) : Nat := p / 2

/-- Line time in whole ns, modulo 2^64 (R235). -/
def lineNs (s : State) : Nat := s.lt / 2 ^ 32 % 2 ^ 64

/-- The fraction of line time in units of 2^-16 ns (R235). -/
def lineFr (s : State) : Nat := s.lt / 2 ^ 16 % 2 ^ 16

/-! Line ports, domains, Tolger links. -/

def lp (s : State) (n : Nat) : LinePort := Tab.get (fun _ => LinePort.reset) s.ports n

def setLp (n : Nat) (p : LinePort) (s : State) : State :=
  { s with ports := Tab.set (fun _ => LinePort.reset) n p s.ports }

def updLp (n : Nat) (f : LinePort → LinePort) (s : State) : State := setLp n (f (lp s n)) s

def updTx (n : Nat) (f : TxLink → TxLink) (s : State) : State := updLp n (fun p => { p with tx := f p.tx }) s

def updRx (n : Nat) (f : RxLink → RxLink) (s : State) : State := updLp n (fun p => { p with rx := f p.rx }) s

/-- HLPn.STAT.LSTATE codes (R91). -/
def DISABLED : Nat := 0
def DOWN : Nat := 1
def TRAINING : Nat := 2
def ACTIVE : Nat := 3
def HUM : Nat := 4
def DOZE : Nat := 5
def DORMANT : Nat := 6
def EXITING : Nat := 7

def lstate (s : State) (n : Nat) : Nat := rd (Reg.HLP.STAT.LSTATE n) s

/-- The port is trained: in a line state of Table 2.7 or leaving one. -/
def trained (s : State) (n : Nat) : Bool := 3 ≤ lstate s n

def tolgerKey (slot : Nat) (toLd : Bool) : Nat := 2 * slot + ofBool toLd

def tolger (s : State) (slot : Nat) (toLd : Bool) : TolgerDir :=
  Tab.get (fun _ => TolgerDir.reset) s.tolger (tolgerKey slot toLd)

def setTolger (slot : Nat) (toLd : Bool) (d : TolgerDir) (s : State) : State :=
  { s with tolger := Tab.set (fun _ => TolgerDir.reset) (tolgerKey slot toLd) d s.tolger }

/-- The receiving side of a Tolger channel has room for one more cell: the credit is owed to the sender (R24, Table 5.5). -/
def oweCredit (p : Nat) (toLd : Bool) (s : State) : State :=
  if 4 ≤ p ∧ p < 16 then
    let d := tolger s (p / 2) toLd
    setTolger (p / 2) toLd { d with owed := Tab.set (fun _ => 0) (p % 2) (Tab.get (fun _ => 0) d.owed (p % 2) + 1) d.owed } s
  else s

/-- DIE.LSTATn.STATE codes (R485): 0 absent, 1 off or in reset, 2 linking, 3 up, 4 LINK_FAIL. -/
def linkState (s : State) (slot : Nat) : Nat := rd (Reg.DIE.LSTAT.STATE slot) s

/-- The codes of the service domains (R283): HL0-HL3, S1, S2-S7. -/
def domCodes : List Nat := [0, 1, 2, 3, 0x11, 0x12, 0x13, 0x14, 0x15, 0x16, 0x17]

/-- A domain before anything has happened to it: a line port is in service, a die has not been brought up. -/
def domDefault (d : Nat) : Domain := Domain.reset (if d < 4 then .inService else .notUp)

def dom (s : State) (d : Nat) : Domain := Tab.get domDefault s.domains d

def setDom (d : Nat) (x : Domain) (s : State) : State := { s with domains := Tab.set domDefault d x s.domains }

def domSt (s : State) (d : Nat) : DomSt := (dom s d).st

/-- The Deep Comb's domain is IN_SERVICE. -/
def s1Up (s : State) : Bool := domSt s 0x11 == .inService

/-- The domain of an output switch port: HLn, or the slot of P4 to P15; P16 and P17 have none. -/
def portDom (p : Nat) : Option Nat := if p < 4 then some p else if p < 16 then some (0x10 + portSlot p) else none

/-- The receive pools before any training: the reset value of HLPn.CPOOL (R126). -/
def poolDefault (k : Nat) : Nat := 32 * [0x6A, 0x0E, 0x02, 0x06].getD (k % 4) 1

/-- The receive pool in force of class `cc` of line port `n`, in cells: it changes at a training or DOMAIN_RETURN (R126). -/
def pool (s : State) (n cc : Nat) : Nat := Tab.get poolDefault s.comb.pools (4 * n + cc)

/-- The pause of an LD activation between the swap of its tables and step 5 of Table 18.8. -/
def bulkPaused (s : State) : Bool :=
  match s.img.act with
  | some a => a.stage == 2
  | none => false

/-- Takes the first element that passes out of a list. -/
def takeFirst {α : Type} (p : α → Bool) : List α → Option (α × List α)
  | [] => none
  | a :: l => if p a then some (a, l) else (takeFirst p l).map fun r => (r.1, a :: r.2)

/-! Comb lists. -/

def noCells {α : Type} : Nat → List α := fun _ => []
def zeroN : Nat → Nat := fun _ => 0
def noB : Nat → Bool := fun _ => false

def updComb (f : Comb → Comb) (s : State) : State := { s with comb := f s.comb }
def updTopo (f : Topo → Topo) (s : State) : State := { s with topo := f s.topo }
def updCmd (f : Cmd → Cmd) (s : State) : State := { s with cmd := f s.cmd }
def updBrg (f : Bridge → Bridge) (s : State) : State := { s with brg := f s.brg }
def updTuns (f : Tunnels → Tunnels) (s : State) : State := { s with tuns := f s.tuns }
def updSched (f : Sched → Sched) (s : State) : State := { s with sched := f s.sched }

def holdOf (s : State) (p : Nat) : List Held := Tab.get noCells s.comb.hold p
def setHold (p : Nat) (l : List Held) (s : State) : State :=
  updComb (fun c => { c with hold := Tab.set noCells p l c.hold }) s

def outQ (s : State) (q : Nat) : List QEnt := Tab.get noCells s.comb.outQ q
def setOutQ (q : Nat) (l : List QEnt) (s : State) : State :=
  updComb (fun c => { c with outQ := Tab.set noCells q l c.outQ }) s

def parkOf (s : State) (q : Nat) : List QEnt := Tab.get noCells s.comb.park q
def setPark (q : Nat) (l : List QEnt) (s : State) : State :=
  updComb (fun c => { c with park := Tab.set noCells q l c.park }) s

/-! Memories. -/

/-- What a Deep Comb byte that nothing has written reads as (notes/assumptions/7). -/
def deepDefault (_ : Nat) : Byte := 0

/-- A byte of the Deep Comb (R219). -/
def deepRead (s : State) (a : Nat) : Byte := Tab.get deepDefault s.deep a

/-- Bytes of the Deep Comb from an address. -/
def deepReads (s : State) (a n : Nat) : List Byte := Tab.getMany deepDefault s.deep a n

/-- Writes bytes into the Deep Comb. -/
def deepWrites (a : Nat) (l : List Byte) (s : State) : State :=
  { s with deep := Tab.setMany deepDefault a l s.deep }

/-- Draws a free value (notes/assumptions/2). -/
def drawFree (s : State) : BitVec 64 × State := (Config.freeValue s.free, { s with free := s.free + 1 })

/-- The class of a credit class (R110): CC3 TC7, CC2 TC6, CC1 TC5, CC0 TC4 to TC0. -/
def ccOf (tc : Nat) : Nat := if tc = 7 then 3 else if tc = 6 then 2 else if tc = 5 then 1 else 0

/-- `m` goes forward from `k` modulo `w`: how far. -/
def ahead (w k m : Nat) : Nat := (m + w - k % w) % w

end Sys2Proof.Machine
end

