-- ==== Sys2Proof/Machine/Flags.lean ====
section
/-! DEFINITION. Status codes, interrupt sources (R424, R425), statistics counters (R464 to R469) and the error log
(R478, R481). -/
namespace Sys2Proof.Machine

/-! Status codes of a reply (Table 10.6). -/
def ST_OK : Nat := 0x00
def ST_BUSY : Nat := 0x01
def ST_BUSY_IN_SERVICE : Nat := 0x02
def ST_BAD_OPCODE : Nat := 0x03
def ST_BAD_PARAM : Nat := 0x04
def ST_BAD_LEN : Nat := 0x05
def ST_BAD_VER : Nat := 0x06
def ST_DENIED : Nat := 0x07
def ST_MAC_FAIL : Nat := 0x08
def ST_NO_SESSION : Nat := 0x09
def ST_REPLAY : Nat := 0x0A
def ST_NO_DIE : Nat := 0x0B
def ST_TIMEOUT : Nat := 0x0C
def ST_RETRY : Nat := 0x0D
def ST_PARTIAL : Nat := 0x0E
def ST_ORPHANED : Nat := 0x0F
def ST_BRG_FAIL : Nat := 0x10
def ST_SEAL_FAIL : Nat := 0x11
def ST_INCOMPAT : Nat := 0x12

/-! Interrupt source numbers, 32 x group + bit (Table 17.4, R462, R483). -/
def srcSTRAP_ERR : Nat := 0
def srcADDR_ERR : Nat := 1
def srcLINK_FAIL (slot : Nat) : Nat := slot
def srcMAC_FAIL : Nat := 8
def srcPWERR : Nat := 9
def srcTBL_MASTER_ERR : Nat := 10
def srcFGR_DONE : Nat := 11
def srcENUM_CONFLICT : Nat := 12
def srcRING : Nat := 13
def srcXBUDGET_OVER : Nat := 14
def srcTIME_LOCK : Nat := 15
def srcTIME_HOLD : Nat := 16
def srcTIME_STEP : Nat := 17
def srcTRG_ERR : Nat := 18
def srcIMG_DONE : Nat := 24
def srcIMG_REVERTED : Nat := 25
def srcIMG_LOADERR : Nat := 26
def srcSET_ERR : Nat := 27
def srcCTR_SAT : Nat := 28
def srcTEST_DONE : Nat := 29
def srcELOG : Nat := 30
def srcTEMP_ALARM : Nat := 31
def srcLOS (n : Nat) : Nat := 32 + 8 * n
def srcTRAIN_FAIL (n : Nat) : Nat := 33 + 8 * n
def srcLANE_RET (n : Nat) : Nat := 34 + 8 * n
def srcREPLAY_FAIL (n : Nat) : Nat := 35 + 8 * n
def srcCRED_FAULT (n : Nat) : Nat := 36 + 8 * n
def srcXCUST_FULL (n : Nat) : Nat := 37 + 8 * n
def srcLOST_BULK (n : Nat) : Nat := 38 + 8 * n
def srcUP (n : Nat) : Nat := 39 + 8 * n
def srcBANK_RET : Nat := 64
def srcBANK_LIMIT : Nat := 65
def srcVOQ_ENTER : Nat := 66
def srcAUDIT_DONE : Nat := 67
def srcSPILL_FULL : Nat := 68
def srcERR_DROP : Nat := 69
/-- Port 0 to 3, or 4 for the load eFuse. -/
def srcLP_TRIP (n : Nat) : Nat := 96 + n
def srcLP_FETSHORT (n : Nat) : Nat := 101 + n
def srcLP_UNPROT (n : Nat) : Nat := 105 + n
def srcLP_BACKFEED (n : Nat) : Nat := 109 + n
def srcLP_PWARN : Nat := 113
def srcLP_UVLO : Nat := 114
/-- Type-C port `t` = 4 x die + port. -/
def srcTCP (t : Nat) : Nat := 128 + t / 4 * 32 + t % 4
def srcHUB (d : Nat) : Nat := 132 + d * 32
def srcPRX_ERR (d : Nat) : Nat := 133 + d * 32
def srcEVFULL (d : Nat) : Nat := 134 + d * 32
/-- Ethernet port `e` = 6 x die + port. -/
def srcETHLINK (e : Nat) : Nat := 192 + e / 6 * 32 + e % 6
def srcETH_OVF (d : Nat) : Nat := 198 + d * 32
def srcPCELINK : Nat := 256
def srcFLR : Nat := 257
def srcPCRLINK : Nat := 258
def srcPCR_MSI : Nat := 259
def srcCPLTO : Nat := 260
def srcINUR : Nat := 261
def srcVBLANK (h : Nat) : Nat := 288 + 8 * h
def srcFLIP_DONE (h : Nat) : Nat := 289 + 8 * h
def srcUNDERRUN (h : Nat) : Nat := 290 + 8 * h
def srcTE_MISS (h : Nat) : Nat := 291 + 8 * h
def srcFLIP_ERR (h : Nat) : Nat := 292 + 8 * h
def srcFB_ERR (h : Nat) : Nat := 293 + 8 * h
def srcTIM_ERR (h : Nat) : Nat := 294 + 8 * h
def srcBWERR (h : Nat) : Nat := 295 + 8 * h
def srcSD (n : Nat) : Nat := 480 + n
def srcSVCVBUS : Nat := 484
def srcSVCPOWER : Nat := 485
def srcSVCDETACH : Nat := 486
def srcSVCRESUME : Nat := 487
def srcHSPICS : Nat := 488
def srcXT32_FAIL : Nat := 489

/-- The RAW level of a level source, `none` for a pulse source (R424): the W1C or RO status bit it is tied to
(notes/assumptions/9). -/
def rawLevel (s : State) (n : Nat) : Option Bool :=
  let g := n / 32
  let b := n % 32
  match g with
  | 0 =>
    if b = 0 then some (rdB Reg.GLB.STAT.STRAP_ERR s)
    else if b = 1 then some (rdB Reg.GLB.STAT.ADDR_ERR s)
    else if b < 8 then some (bit b (rd Reg.GLB.STAT.LINKFAIL s))
    else if b = 14 then some (rd Reg.GRD.XMSTAT.OVER s != 0)
    else if b = 18 then some (rd Reg.TRG.ERR.word s != 0)
    else if b = 27 then some (rdB Reg.IMG.STAT.SETBAD s)
    else if b = 31 then some (anyB ((List.range 8).map Reg.DIE.TEMP.ALARM) s)
    else none
  | 3 =>
    if 9 ≤ b ∧ b < 13 then some (rdB (Reg.LPW.PSTAT.DNUNPROT (b - 9)) s)
    else if b = 17 then some (rdB Reg.LPW.LSTAT.PWARN s)
    else if b = 18 then some (rdB Reg.LPW.LSTAT.UVLO s)
    else none
  | 4 | 5 =>
    if b < 4 then some (rd (Reg.TCP.EVT.word ((g - 4) * 4 + b)) s != 0)
    else if b = 5 then some (rd (Reg.USB.PRX_STAT.ERR (g - 4)) s != 0)
    else if b = 6 then some (rdB (Reg.USB.PRX_STAT.EVFULL (g - 4)) s)
    else none
  | 8 =>
    if b = 0 then some (rdB Reg.PCE.STAT.LDN s)
    else if b = 1 then some (rdB Reg.PCE.STAT.FLR s)
    else if b = 3 then some (rd Reg.PCR.STAT.MSIP s != 0)
    else if b = 4 then some (rdB Reg.PCR.STAT.CPLTO s)
    else if b = 5 then some (rdB Reg.PCR.STAT.INUR s)
    else none
  | 9 =>
    let h := b / 8
    if h < 2 then
      match b % 8 with
      | 2 => some (rdB (Reg.DSP.STAT.UNDER h) s)
      | 3 => some (rdB (Reg.DSP.STAT.TE_MISS h) s)
      | 4 => some (rdB (Reg.DSP.STAT.FLIP_ERR h) s)
      | 5 => some (rdB (Reg.DSP.STAT.FB_ERR h) s)
      | 6 => some (rdB (Reg.DSP.STAT.TIM_ERR h) s)
      | 7 => some (rdB (if h = 0 then Reg.DMX.STAT.BWERR0 else Reg.DMX.STAT.BWERR1) s)
      | _ => none
    else none
  | 15 => if b = 9 then some (rdB Reg.NRS.STAT.XTFAIL s) else none
  | _ => none

/-- The number is a source of Table 17.4, R462 or R483, not a reserved bit. -/
def srcAssigned (n : Nat) : Bool :=
  let b := n % 32
  match n / 32 with
  | 0 => b < 19 || 24 ≤ b
  | 1 => true
  | 2 => b < 6
  | 3 => b < 19
  | 4 | 5 | 6 | 7 => b < 7
  | 8 => b < 6
  | 9 => b < 16
  | 15 => b < 10
  | _ => false

/-- The source exists and may fire (R424): its group is assigned, its die is present and not OFF, and the switch
domain is on where its unit lies in it. -/
def srcAlive (s : State) (n : Nat) : Bool :=
  let dieOn := fun d => present s d && domSt s (0x10 + d) != .off
  srcAssigned n && (match n / 32 with
  | 0 => !(rdB Reg.NRS.PSTATE.SWOFF s && 9 ≤ n && n ≤ 18) && (n < 2 || 8 ≤ n || dieOn n)
  | 1 | 2 => !rdB Reg.NRS.PSTATE.SWOFF s
  | 4 => dieOn 2
  | 5 => dieOn 6
  | 6 => dieOn 3
  | 7 => dieOn 7
  | 8 => dieOn 4
  | 9 => dieOn 5
  | _ => true)

def srcSt (s : State) (n : Nat) : SrcState := Tab.get (fun _ => SrcState.idle) s.srcs n

def setSrc (n : Nat) (x : SrcState) (s : State) : State := { s with srcs := Tab.set (fun _ => SrcState.idle) n x s.srcs }

/-- The source is re-sampled at completion (R430). -/
def resampled (s : State) (n : Nat) : Bool :=
  (rawLevel s n).isSome && (compat s || bit (n % 32) (rd (Reg.INT.LVL.word (n / 32)) s))

/-- A source fires (R425, R430). -/
def raise (n : Nat) (s : State) : State :=
  if !srcAlive s n then s
  else
    match srcSt s n with
    | .idle => setSrc n .pending s
    | .active => if resampled s n then s else setSrc n .activeAndPending s
    | _ => s

/-- An MSI-X vector of the TS endpoint is signalled (R381): a message to the server, or the vector stays pending while it or
the function is masked. With MSI-X or bus mastering off, or the link down, nothing is sent. -/
def msix (v : Nat) (s : State) : State :=
  if present s 4 && rdB Reg.PCE.STAT.LINKUP s && rdB Reg.PCE.MSIX_CFG.EN s && rdB Reg.PCE.STAT.BME s then
    let w := fun i => (Tab.get (fun _ => (0 : Word)) s.hostIf.words (0x100000 + 16 * v + 4 * i)).toNat
    if rdB Reg.PCE.MSIX_CFG.FMASK s || bit 0 (w 3) then
      { s with hostIf := { s.hostIf with pba := Tab.set noB v true s.hostIf.pba } }
    else
      { s with hostIf :=
        { s.hostIf with
          pba := Tab.set noB v false s.hostIf.pba
          sent := s.hostIf.sent ++ [.msi v (w 1 * 2 ^ 32 + w 0) (w 2)] } }
  else s

/-- A new error-log entry is stored, or discarded when the log is full; it raises ELOG and is queued for the NOR
(codes that Table 19.6 keeps there, R479) and for EP5 (R481). -/
def logErr (code slot detail : Nat) (s : State) : State :=
  let d := s.diag
  let e : LogEnt := { code := code, slot := slot, lost := false, detail := detail, time := lineNs s, seqNo := d.elogSeq }
  let d := if d.elog.length < 256 then
      { d with elog := d.elog ++ [{ e with lost := d.elogLost }], elogLost := false, elogSeq := d.elogSeq + 1 }
    else { d with elogLost := true }
  let kept := !(code == 0x0201 || code == 0x0501)
  let recent := d.norRecent.filter fun r => s.now < r.2.2.2 + 1000000000
  let known := recent.any (fun r => r.1 == code && r.2.1 == slot && r.2.2.1 == detail)
  let d := if kept && !known then
      if d.norQ.length < 32 then
        { d with norQ := d.norQ ++ [{ e with lost := d.norLost }], norLost := false,
                 norRecent := recent ++ [(code, slot, detail, s.now)] }
      else { d with norLost := true, norRecent := recent }
    else { d with norRecent := recent }
  let d := if rd Reg.SVC.STAT.BSTATE s = 4 then
      if d.ep5.length < 64 then { d with ep5 := d.ep5 ++ [{ e with lost := d.ep5Lost }], ep5Lost := false }
      else { d with ep5Lost := true }
    else d
  raise srcELOG { s with diag := d }

/-! Register accesses. -/

/-- The blocks of the LD that lie in the switch domain (R420): HLPn, XPR, RTE, TUN, CMB, SCH, GRD, BRG, TIM, TRG, DCM. -/
def switchBlock (b : Nat) : Bool := (1 ≤ b && b ≤ 0xB) || b == 0x10 || b == 0x11 || b == 0x14

/-- Rows 3 to 6 of Table 11.3: what an access to a defined block meets. The LD itself held in reset answers as a block in reset does
(R45). -/
def accStat (s : State) (a : Nat) : Nat :=
  let d := addrSlot a
  let b := addrBlk a
  if s.supplyHold then ST_BUSY
  else if d != 0 then
    if !present s d || linkState s d == 4 then ST_NO_DIE
    else if domSt s (0x10 + d) == .resetting || domSt s (0x10 + d) == .off then ST_BUSY
    else ST_OK
  else if (1 ≤ b && b ≤ 4 && domSt s (b - 1) == .resetting) || (b == 0x14 && domSt s 0x11 == .resetting) then ST_BUSY
  else if rdB Reg.NRS.PSTATE.SWOFF s && switchBlock b then ST_BUSY
  else ST_OK

/-- A row that is one access to the register at `a`: done where Table 11.3 lets it through. -/
def access (a : Nat) (f : State → State) (s : State) : Res := if accStat s a = ST_OK then .next (f s) else .next s

/-! Counters. -/

def ctrZero : Nat → Ctr := fun _ => { v := 0, sat := false }

def ctrGet (s : State) (a : Nat) : Ctr := Tab.get ctrZero s.ctrs a

def ctrSet (a : Nat) (c : Ctr) (s : State) : State := { s with ctrs := Tab.set ctrZero a c s.ctrs }

/-- The counter whose low word lies at register address `a` adds `n` (R464, R467). -/
def countBy (a n : Nat) (s : State) : State :=
  let c := ctrGet s a
  if compat s then ctrSet a { v := (c.v + n) % 2 ^ 32, sat := false } s
  else if c.sat then s
  else if c.v + n < 2 ^ 64 then ctrSet a { c with v := c.v + n } s
  else
    let s := ctrSet a { v := 2 ^ 64 - 1, sat := true } s
    let k := (addrOff a - 0x80000) / 8
    logErr 0x0501 (addrSlot a) (addrBlk a * 2 ^ 23 + k % 65536) (raise srcCTR_SAT s)

def count (a : Nat) (s : State) : State := countBy a 1 s

/-- The low word of counter `k` of the block at `base` (R465). -/
def ctrAddr (base k : Nat) : Nat := base + 0x80000 + 8 * k

/-! Counter addresses (Table 19.2). -/
def cHLP (n k : Nat) : Nat := ctrAddr (0x100000 + n * 0x100000) k
def cXPR (k : Nat) : Nat := ctrAddr 0x500000 k
def cRTE (k : Nat) : Nat := ctrAddr 0x600000 k
def cTUN (k : Nat) : Nat := ctrAddr 0x700000 k
def cCMB (k : Nat) : Nat := ctrAddr 0x800000 k
def cGRD (k : Nat) : Nat := ctrAddr 0xA00000 k
def cBRG (k : Nat) : Nat := ctrAddr 0xB00000 k
def cCMD (k : Nat) : Nat := ctrAddr 0xC00000 k
def cLPW (k : Nat) : Nat := ctrAddr 0xF00000 k
def cTRG (k : Nat) : Nat := ctrAddr 0x1100000 k
def cDCM (k : Nat) : Nat := ctrAddr 0x1400000 k
def cDIE (slot m : Nat) : Nat := ctrAddr 0x1500000 (3 * slot + m)
def cETH (e k : Nat) : Nat := ctrAddr (0x60000000 + e / 6 * 0x80000000 + e % 6 * 0x100000) k
def cPCE (k : Nat) : Nat := ctrAddr 0x80000000 k
def cDSP (h k : Nat) : Nat := ctrAddr (0xA0000000 + h * 0x100000) k

/-! HLPn counters by name (Table 3.4 and Table 19.2). -/
def kRX_CELLS : Nat := 0
def kTX_CELLS : Nat := 1
def kRX_BYTES : Nat := 2
def kTX_BYTES : Nat := 3
def kCRC_ERR : Nat := 4
def kBAD_VER : Nat := 5
def kBAD_HDR : Nat := 6
def kNAK_TX : Nat := 7
def kNAK_RX : Nat := 8
def kREPLAY : Nat := 9
def kREPLAY_TO : Nat := 10
def kRPL_FULL : Nat := 11
def kSEQ_ERR : Nat := 12
def kCREQ_TX : Nat := 13
def kCRED_ERR : Nat := 14
def kCRED_VIOL : Nat := 15
def kXRECALL : Nat := 16
def kXCUST_FULL : Nat := 17
def kXREINJ : Nat := 18
def kLOST_BULK : Nat := 19
def kFCW_ERR : Nat := 20
def kOSW_ERR : Nat := 21
def kTRAIN_FAIL : Nat := 22
def kWAG_DROP : Nat := 23
def kSYM_ERR (lane : Nat) : Nat := 24 + lane
def kUNCORR : Nat := 28
def kTIME_ERR : Nat := 29
def kDREQ_MISS : Nat := 30

/-- Repeats a state change. -/
def times : Nat → (State → State) → State → State
  | 0, _, s => s
  | n + 1, f, s => times n f (f s)

/-- Applies a state change for each element in turn. -/
def forAll {α : Type} (l : List α) (f : α → State → State) (s : State) : State := l.foldl (fun s a => f a s) s

end Sys2Proof.Machine
end

