-- ==== Sys2Proof/Machine/Dcm.lean ====
section
/-! DEFINITION. The Deep Comb's memory controller: which of its clients has a request, and which one it serves (R47, R48,
Table 1.10); the state of its display and proxy clients. -/
namespace Sys2Proof.Machine

/-! The clients. TU die 0 is S2 and die 1 is S6. -/

def head (s : State) (h : Nat) : Head := Tab.get (fun _ => Head.reset) s.heads h

def proxy (s : State) (d : Nat) : Proxy := Tab.get (fun _ => Proxy.reset) s.proxies d
def setProxy (d : Nat) (p : Proxy) (s : State) : State := { s with proxies := Tab.set (fun _ => Proxy.reset) d p s.proxies }
def updProxy (d : Nat) (f : Proxy → Proxy) (s : State) : State := setProxy d (f (proxy s d)) s
def ring (s : State) (d r : Nat) : Ring := Tab.get (fun _ => Ring.reset) (proxy s d).rings r
def setRing (d r : Nat) (x : Ring) (s : State) : State :=
  updProxy d (fun p => { p with rings := Tab.set (fun _ => Ring.reset) r x p.rings }) s

/-- The slot of TU die `d`. -/
def tuSlot (d : Nat) : Nat := 2 + 4 * d

def proxyRuns (s : State) (d : Nat) : Bool := rdB (Reg.USB.PRX_STAT.RUN d) s

/-- Free entries of the event ring. -/
def evFree (s : State) (d : Nat) : Nat :=
  let p := proxy s d
  2 ^ p.evSize - Machine.ahead 65536 p.evCi p.evPi

/-- What a slot originates waits: a frame for its origin shaper, or a cell for credit of its Tolger channel. The unit then takes
nothing more from its source (R24, R186). -/
def originHeld (s : State) (slot : Nat) : Bool :=
  (s.sched.held.any fun f => f.slot == slot) ||
    [0, 1].any fun ch =>
      Tab.get noCells (tolger s slot true).waiting ch != [] && Tab.get tolgerCredit (tolger s slot true).credit ch == 0

/-- Ring `r` of a running proxy has a descriptor to fetch (R337). -/
def ringAsks (s : State) (d r : Nat) : Bool :=
  let x := ring s d r
  proxyRuns s d && domSt s (0x10 + tuSlot d) == .inService && x.st == 1 && x.ci != x.pi_ && x.cur.isNone && 2 ≤ evFree s d &&
    !originHeld s (tuSlot d)

/-- A command of the image controller waits for the staging region: IMG_DELTA and STAGE_WRITE, dispatched. -/
def stagingAsks (s : State) : Bool := s.cmd.flights.any fun f => f.stage == 1 && (f.o.op == 0x62 || f.o.op == 0x6A)

/-- A client of Table 1.10, by its priority, has a request that waits. Scrub has none that holds back anything (R473). -/
def dcmAsks (s : State) (k : Nat) : Bool :=
  match k with
  | 1 => ([0, 1].any fun h => (head s h).asked != []) && !originHeld s 5
  | 2 => s.topo.recompute != []
  | 3 => [0, 1].any fun d => (List.range 64).any fun r => ringAsks s d r
  | 4 => s.brg.held.any fun h => h.dom == 0x11
  | 5 => s.comb.refills != []
  | 6 => s.topo.expanding.isSome || s.tests.cmp.isSome || [s.topo.route, s.topo.term, s.topo.origin, s.topo.gmap].any fun t => t.rebuilding
  | 7 => stagingAsks s
  | _ => false

/-- The Deep Comb serves a request of priority `k`: it is in service, not in self-refresh, and no client before it asks. -/
def dcmServes (s : State) (k : Nat) : Bool :=
  s1Up s && rd Reg.DCM.SR.STATE s == 0 && !((List.range k).any fun j => dcmAsks s j)

/-- Some client has a request pending (R48). -/
def dcmWanted (s : State) : Bool := (List.range 8).any fun k => dcmAsks s k

end Sys2Proof.Machine
end

