-- ==== Sys2Proof/Machine/Cells.lean ====
section
/-! DEFINITION. The bytes of a cell and of an ordered-set slot (R63, R64, R92 to R99), frames cut into cells, and the route
lookup (R127 to R130, R144, R145). -/
namespace Sys2Proof.Machine

/-- The 64-bit header of a cell (Table 3.1). -/
def cellHeader (c : Cell) : Nat :=
  c.dst % 2 ^ 14 * 2 ^ 50 + c.src % 2 ^ 14 * 2 ^ 36 + c.tun % 2 ^ 14 * 2 ^ 22 + c.tc % 8 * 2 ^ 19 + c.typ % 16 * 2 ^ 15 +
    ofBool c.f * 2 ^ 14 + ofBool c.l * 2 ^ 13 + c.vlen % 128 * 2 ^ 6 + ofBool c.xpr * 2 ^ 5 + c.ver % 32

/-- The 128 bytes of a cell (R92), with its CRC-32C least significant byte first (R97). -/
def cellBytes (c : Cell) : List Byte :=
  let b := beBytes 8 (cellHeader c) ++ padTo 116 c.payload
  b ++ leBytes 4 (crc32c b)

/-- The header fields and payload of a slot that carries a cell. -/
def parseCell (l : List Byte) : Cell :=
  let h := field l 0 8
  { dst := bits 63 50 h, src := bits 49 36 h, tun := bits 35 22 h, tc := bits 21 19 h, typ := bits 18 15 h, f := bit 14 h,
    l := bit 13 h, vlen := bits 12 6 h, xpr := bit 5 h, ver := bits 4 0 h, payload := (l.drop 8).take 116 }

/-- The CRC-32C of a slot is good (R63, R97). -/
def slotCrcGood (l : List Byte) : Bool := leNat ((l.drop 124).take 4) == crc32c (l.take 124)

/-- The slot carries an ordered-set slot (R62). -/
def isOsSlot (l : List Byte) : Bool := field l 0 8 % 32 == 0x1F

/-- TYP is defined and VLEN keeps Table 3.1 (R96). -/
def headerGood (c : Cell) : Bool := c.typ < 9 && (if c.l then 1 ≤ c.vlen && c.vlen ≤ 116 else c.vlen == 116)

/-- An ordered-set word as its 64 bits, with its CRC-8 (R64). -/
def osBits (w : OsWord) : Nat :=
  let v := w.typ % 256 * 2 ^ 48 + w.body % 2 ^ 48
  v * 256 + crc8 56 v

/-- The valid words of an OS slot with a good CRC, in order; `none` where COUNT is 15 or bits 59:5 are not zero
(R63). A word whose CRC-8 fails is `none` (R64). -/
def osSlotWords (l : List Byte) : Option (List (Option OsWord)) :=
  let h := field l 0 8
  if bits 63 60 h = 15 ∨ bits 59 5 h ≠ 0 then none
  else some ((List.range (bits 63 60 h)).map fun i =>
    let w := field l (8 + 8 * i) 8
    if w % 256 = crc8 56 (w / 256) then some { typ := bits 63 56 w, body := bits 55 8 w } else none)

/-- The bytes of an OS slot that carries these words (R63). -/
def osSlotBytes (ws : List OsWord) : List Byte :=
  let b := beBytes 8 (ws.length * 2 ^ 60 + 0x1F) ++ padTo 112 (ws.foldr (fun w a => beBytes 8 (osBits w) ++ a) []) ++ [0, 0, 0, 0]
  b ++ leBytes 4 (crc32c b)

/-! Ordered-set words (Table 2.4, R113, R124). -/
def oswIDLE : OsWord := { typ := 0x00, body := 0 }
def oswWAKE : OsWord := { typ := 0x02, body := 0 }
def oswWAGGLE (dst hops : Nat) : OsWord := { typ := 0x03, body := dst * 2 ^ 34 + hops * 2 ^ 28 }
def oswSTATE (typ target : Nat) : OsWord := { typ := typ, body := target * 2 ^ 46 }
def oswLANE_RETIRE (lanes frame : Nat) : OsWord := { typ := 0x07, body := lanes * 2 ^ 44 + frame % 2 ^ 16 * 2 ^ 28 }
def oswCREDIT (cc cl xrel : Nat) : OsWord :=
  { typ := 0x10, body := cc * 2 ^ 46 + cl % 2 ^ 16 * 2 ^ 30 + xrel % 2 ^ 12 * 2 ^ 18 }
def oswRESYNC (op seq cc xseq : Nat) : OsWord :=
  { typ := 0x11, body := op * 2 ^ 44 + seq % 2 ^ 13 * 2 ^ 31 + cc * 2 ^ 29 + xseq % 2 ^ 12 * 2 ^ 17 }

/-- The cells of a frame (R98): 116 payload bytes each but the last; `k` cells are left to cut. -/
def cutCells (dst src tun tc typ : Nat) (xpr : Bool) : Nat → Bool → List Byte → List Cell
  | 0, _, _ => []
  | k + 1, first, l =>
    let last := l.length ≤ 116
    { dst := dst, src := src, tun := tun, tc := tc, typ := typ, f := first, l := last,
      vlen := if last then l.length else 116, xpr := xpr, ver := 2, payload := padTo 116 l } ::
      (if last then [] else cutCells dst src tun tc typ xpr k false (l.drop 116))

/-- The cells of a frame of 1 to 14,848 bytes. A frame of an express tunnel that needs more than one cell is sent with
XPR = 0 (R212). -/
def frameCells (dst src tun tc typ : Nat) (xpr : Bool) (l : List Byte) : List Cell :=
  cutCells dst src tun tc typ (xpr && l.length ≤ 116) 128 true l

/-! Tables: entries as numbers (Tables 4.1, 4.2, 8.1, R187). -/

/-- The table that a TABLE code names (R280): 0 route, 1 termination, 2 origin, 3 Guard map. -/
def tbl (s : State) (t : Nat) : LdTable :=
  match t with
  | 0 => s.topo.route
  | 1 => s.topo.term
  | 2 => s.topo.origin
  | _ => s.topo.gmap

def setTbl (t : Nat) (x : LdTable) (s : State) : State :=
  updTopo (fun p => match t with
    | 0 => { p with route := x }
    | 1 => { p with term := x }
    | 2 => { p with origin := x }
    | _ => { p with gmap := x }) s

/-- The active entry of a table. -/
def entry (s : State) (t i : Nat) : Nat := Tab.get zeroN (tbl s t).active i

def rteV (e : Nat) : Bool := bit 31 e
def rtePORT (e : Nat) : Nat := bits 30 26 e
def rteALT (e : Nat) : Nat := bits 25 21 e
def rteXOK (e : Nat) : Bool := bit 20 e
/-- DIST; a stored 0 is 16,383 (Table 4.1). -/
def rteDIST (e : Nat) : Nat := if bits 13 0 e = 0 then 16383 else bits 13 0 e
def termV (e : Nat) : Bool := bit 31 e
def termSPORT (e : Nat) : Nat := bits 30 26 e
def termCTX (e : Nat) : Nat := bits 25 14 e
def orgV (e : Nat) : Bool := bit 63 e
def orgOSLOT (e : Nat) : Nat := bits 62 60 e
def orgTYP (e : Nat) : Nat := bits 59 56 e
def orgTC (e : Nat) : Nat := bits 55 53 e
def orgXPR (e : Nat) : Bool := bit 52 e
def orgDST (e : Nat) : Nat := bits 51 38 e
def orgOSHP (e : Nat) : Nat := bits 37 26 e
/-- MAXLEN in bytes; 0 means 14,848 (Table 8.1). -/
def orgMAXLEN (e : Nat) : Nat := if bits 25 16 e = 0 then 14848 else bits 25 16 e * 16
def orgUCTX (e : Nat) : Nat := bits 15 0 e

/-! Break records (R145). -/

def ringEn (s : State) : Bool := rdB Reg.RTE.RING.EN s
def ringPA (s : State) : Nat := rd Reg.RTE.RING.PA s
def ringPB (s : State) : Nat := rd Reg.RTE.RING.PB s
def isRingPort (s : State) (p : Nat) : Bool := p == ringPA s || p == ringPB s
def otherRing (s : State) (p : Nat) : Nat := if p = ringPA s then ringPB s else ringPA s
def breaksOf (s : State) (p : Nat) : List BreakRec := Tab.get noCells s.topo.breaks p

/-- The applied record of a port: the smallest held. -/
def appliedBreak (s : State) (p : Nat) : Option Nat :=
  match breaksOf s p with
  | [] => none
  | r :: l => some (l.foldl (fun a x => min a x.b) r.b)

/-- Where a cell goes (Table 4.3): its output switch ports, whether its destinations may take the express path, whether
ALT was taken, and whether it has no route. -/
structure Dest where
  outs : List Nat
  xok : Bool
  alt : Bool
  bcast : Bool
  noRoute : Bool
deriving DecidableEq, Repr

/-- A tunnel ends at this node by its termination entry (R8, R128): none but tunnel 0 in the repeater role. -/
def terminates (s : State) (tun : Nat) : Bool := tun != 0 && termV (entry s 1 tun) && !isRepeater s

/-- Local delivery (Table 4.3 step 1): TUN 0 and unknown tunnels to P16, others to the SPORT of the termination entry. -/
def localPort (s : State) (tun : Nat) : Nat := if terminates s tun then termSPORT (entry s 1 tun) else 16

/-- The blocked ring port of R144, if one is in force. -/
def blockedPort (s : State) : Option Nat :=
  if ringEn s && (breaksOf s (ringPA s)).isEmpty && (breaksOf s (ringPB s)).isEmpty then
    match rd Reg.RTE.RING.BLK s with
    | 1 => some (ringPA s)
    | 2 => some (ringPB s)
    | _ => none
  else none

/-- The line ports a broadcast cell is copied to (R144). -/
def bcastSet (s : State) (inp : Nat) : List Nat :=
  (onBits 4 (rd Reg.RTE.BCAST.MASK s)).filter fun p =>
    p != inp && lstate s p != DOWN && lstate s p != DISABLED && blockedPort s != some p

/-- The lookup takes ALT of this entry (R145), or has no route because ALT cannot be taken. -/
def breakApplies (s : State) (e : Nat) : Bool :=
  isRingPort s (rtePORT e) && (match appliedBreak s (rtePORT e) with
    | none => false
    | some b => b < rteDIST e)

/-- The route lookup (R129). -/
def lookup (s : State) (inp dst tun : Nat) : Dest :=
  if dst = 0 ∨ (dst = ownAddr s ∧ ownAddr s ≠ 0) then
    { outs := [localPort s tun], xok := false, alt := false, bcast := false, noRoute := false }
  else if dst = 0x3FFF then
    { outs := localPort s tun :: bcastSet s inp, xok := false, alt := false, bcast := true, noRoute := false }
  else if dst = 0x3FFE then
    { outs := (if isHead s then [localPort s tun] else []) ++ bcastSet s inp, xok := false, alt := false, bcast := true,
      noRoute := false }
  else
    let e := entry s 0 dst
    if !rteV e then { outs := [], xok := false, alt := false, bcast := false, noRoute := true }
    else if breakApplies s e then
      if rteALT e < 4 ∧ (breaksOf s (rteALT e)).isEmpty then
        { outs := [rteALT e], xok := rteXOK e, alt := true, bcast := false, noRoute := false }
      else { outs := [], xok := false, alt := false, bcast := false, noRoute := true }
    else { outs := [rtePORT e], xok := rteXOK e, alt := false, bcast := false, noRoute := false }

/-- The entries that the lookup of a cell reads, each as its table and index: where a CRC-8 error is found (R137). -/
def lookupEntries (s : State) (dst tun : Nat) : List (Nat × Nat) :=
  let own := if tun = 0 then [] else [(1, tun)]
  if dst = 0 ∨ (dst = ownAddr s ∧ ownAddr s ≠ 0) ∨ dst = 0x3FFF then own
  else if dst = 0x3FFE then (if isHead s then own else [])
  else [(0, dst)]

/-- A cell toward P16 to P4 that originates in a unit of the part and is written into the Comb (R133): it waits in the
ingress hold of switch port `p`. -/
def holdCells (p : Nat) (policed : Bool) (cs : List Cell) (s : State) : State :=
  setHold p (holdOf s p ++ cs.map fun c => { cell := c, xseq := none, charged := false, policed := policed, forced := none }) s

/-- A cell of a P16 unit that no lookup routes waits for these output switch ports. -/
def holdForced (outs : List Nat) (c : Cell) (s : State) : State :=
  setHold 16 (holdOf s 16 ++ [{ cell := c, xseq := none, charged := false, policed := true, forced := some outs }]) s

/-- A P16 unit sends a frame that no origin entry governs (R223, R259, R427, R142): not policed. -/
def sendUnpoliced (dst tun tc typ : Nat) (xpr : Bool) (l : List Byte) (s : State) : State :=
  holdCells 16 true (frameCells dst (ownAddr s) tun tc typ xpr l) s

/-- A P16 unit sends a frame that Guard sees. -/
def sendPoliced (dst tun tc typ : Nat) (xpr : Bool) (l : List Byte) (s : State) : State :=
  holdCells 16 false (frameCells dst (ownAddr s) tun tc typ xpr l) s

end Sys2Proof.Machine
end

