-- ==== Sys2Proof/Machine/Pcs.lean ====
section
/-! DEFINITION. The physical coding of a line port (R55 to R59, R66, Table 2.5): frame control words, scrambler, Reed-Solomon
codes, the dealing of symbols to lanes, base-rate words, PRBS31 and alignment markers. -/
namespace Sys2Proof.Machine

/-! Frame control words (R55). -/

/-- The 20 bits of a frame control word, CHK included. -/
def fcwBits (typ value : Nat) : Nat :=
  let v := typ % 8 * 2 ^ 13 + value % 2 ^ 13
  v * 16 + crc4 v

/-! The Galois field of R56: 10-bit symbols modulo x^10 + x^3 + 1. -/

/-- A symbol times x. -/
def gfX (a : Nat) : Nat := if a < 512 then 2 * a else (2 * a - 1024) ^^^ 0x9

/-- The product of two symbols: `n` bits of `b` are left, highest first. -/
def gfMulBits (a b : Nat) : Nat → Nat → Nat
  | 0, r => r
  | n + 1, r => gfMulBits a b n (if bit n b then gfX r ^^^ a else gfX r)

def gfMul (a b : Nat) : Nat := gfMulBits a b 10 0

/-- The generator polynomial with the roots α^0 to α^(n-1), highest power first; `root` is the first root still to multiply in. -/
def rsGenerator : Nat → Nat → List Nat → List Nat
  | 0, _, g => g
  | n + 1, root, g => rsGenerator n (gfX root) (List.zipWith (fun a b => a ^^^ b) (g ++ [0]) (0 :: g.map (gfMul root)))

/-- One message symbol enters the division by the generator; `tail` is the generator without its leading 1. -/
def rsStep (tail r : List Nat) (m : Nat) : List Nat :=
  let q := m ^^^ r.headD 0
  List.zipWith (fun a b => a ^^^ b) (r.drop 1 ++ [0]) (tail.map (gfMul q))

/-- The `n` parity symbols of a systematic codeword (R56). -/
def rsParity (n : Nat) (msg : List Nat) : List Nat :=
  msg.foldl (rsStep ((rsGenerator n 1 [1]).drop 1)) (List.replicate n 0)

/-! Scrambler and symbols (R58). -/

/-- The self-synchronous scrambler x^58 + x^39 + 1: `st` is the last 58 bits sent, the latest in bit 0. -/
def scramble : Nat → List Bool → List Bool × Nat
  | st, [] => ([], st)
  | st, b :: l =>
    let o := (b != bit 38 st) != bit 57 st
    let r := scramble (st * 2 % 2 ^ 58 + ofBool o) l
    (o :: r.1, r.2)

/-- Bits in transmission order as symbols `w` bits wide, the first bit the highest (notes/assumptions/44); `k` symbols. -/
def symbolsOf (w : Nat) : Nat → List Bool → List Nat
  | 0, _ => []
  | k + 1, l => (l.take w).foldl (fun a b => 2 * a + ofBool b) 0 :: symbolsOf w k (l.drop w)

/-- The bits of bytes in transmission order: each byte most significant bit first (R58). -/
def byteBits (l : List Byte) : List Bool := (l.map fun b => bitsOf 8 b.toNat).flatten

/-! Codewords and lanes (R56, R57, R59). -/

/-- The message bits of the codewords of a frame (Table 2.2): one codeword, or two that share slot 2. -/
def codewords (two : Bool) (fcws : List Nat) (slots : List (List Byte)) : List (List Bool) :=
  let f := fun i => bitsOf 20 (fcws.getD i 0)
  let mid := slots.getD 2 []
  if two then
    [f 0 ++ byteBits ((slots.take 2).flatten ++ mid.take 64), f 1 ++ byteBits (mid.drop 64 ++ (slots.drop 3).flatten)]
  else [f 0 ++ byteBits slots.flatten]

/-- Parity symbols per codeword (Table 2.2): FEC-L 14, FEC-S 30, FEC-N 14; FEC-OFF is sent as FEC-L or, in NRZ, FEC-N. -/
def parityOf (fec : Nat) (nrz : Bool) : Nat := if fec = 2 ∧ nrz = false then 30 else 14

/-- A frame has two codewords: FEC-L, and FEC-OFF at PAM4 (Table 2.2). -/
def twoCodewords (fec : Nat) (nrz : Bool) : Bool := !nrz && fec < 2

/-- The codewords of a frame as symbols, message scrambled and parity not (R56, R58), and the scrambler's new state. -/
def encodeWords (par : Nat) : Nat → List (List Bool) → List (List Nat) × Nat
  | st, [] => ([], st)
  | st, m :: ms =>
    let r := scramble st m
    let sym := symbolsOf 10 (m.length / 10) r.1
    let rest := encodeWords par r.2 ms
    ((sym ++ rsParity par sym) :: rest.1, rest.2)

/-- Every `w`-th element from the `i`-th on. -/
def everyNth {α : Type} (w i : Nat) (l : List α) : List α :=
  (l.zip (List.range l.length)).filterMap fun x => if x.2 % w = i then some x.1 else none

/-- The Gray code of a bit pair (R59): 00 level 0, 01 level 1, 11 level 2, 10 level 3. -/
def grayLevel (p : Nat) : Nat := if p = 2 then 3 else if p = 3 then 2 else p

/-- What a symbol is on its lane, one entry for each baud: five PAM4 levels, or ten NRZ bits (R59). -/
def symbolBauds (nrz : Bool) (x : Nat) : List Nat :=
  if nrz then [9, 8, 7, 6, 5, 4, 3, 2, 1, 0].map fun i => x / 2 ^ i % 2
  else [4, 3, 2, 1, 0].map fun i => grayLevel (x / 4 ^ i % 4)

/-- What each logical lane carries for a frame (R59): symbol i of each codeword on lane i mod W, codeword 0 first. -/
def laneBauds (nrz : Bool) (w : Nat) (cws : List (List Nat)) : List (List Nat) :=
  (List.range w).map fun i => (cws.map fun c => ((everyNth w i c).map (symbolBauds nrz)).flatten).flatten

/-- The bytes of a slot that frames carry. -/
def txSlotBytes : TxSlot → List Byte
  | .cell c => cellBytes c
  | .os ws => osSlotBytes ws
  | _ => osSlotBytes []

/-- A frame on the lanes: what each logical lane carries and the scrambler after it. -/
def frameLanes (fec : Nat) (nrz : Bool) (w scr : Nat) (fcws : List Nat) (slots : List TxSlot) : List (List Nat) × Nat :=
  let r := encodeWords (parityOf fec nrz) scr (codewords (twoCodewords fec nrz) fcws (slots.map txSlotBytes))
  (laneBauds nrz w r.1, r.2)

/-! The base rate and training (R66, R68). -/

/-- The PRBS7 generator x^7 + x^6 + 1: `n` bits from state `st`, the first in the highest place. -/
def prbs7 : Nat → Nat → Nat
  | 0, _ => 0
  | n + 1, st => ofBool (bit 6 st) * 2 ^ n + prbs7 n (st * 2 % 128 + ofBool (bit 6 st != bit 5 st))

/-- A DOZE word: the marker, and the ordered-set word under PRBS7 (R66). -/
def dozeBits (w : OsWord) : Nat := 0x3C5A * 2 ^ 64 + (osBits w ^^^ prbs7 64 127)

/-- The ordered-set word under the scrambler, `none` where its CRC-8 fails. -/
def dozeWord (w : Nat) : Option OsWord :=
  let v := (w % 2 ^ 64) ^^^ prbs7 64 127
  if v % 256 = crc8 56 (v / 256) then some { typ := bits 63 56 v, body := bits 55 8 v } else none

/-- What a lane carries for a DOZE word, one entry for each baud: each bit for 16 unit intervals, at PAM4 as level 0 or 3 (R66). -/
def dozeBauds (nrz : Bool) (w : Nat) : List Nat :=
  ((bitsOf 80 w).map fun b => List.replicate 16 (if b then (if nrz then 1 else 3) else 0)).flatten

/-- The PRBS31 generator x^31 + x^28 + 1: `n` bits from state `st`, the first in the highest place, and the state after them. -/
def prbs31 : Nat → Nat → Nat × Nat
  | 0, st => (0, st)
  | n + 1, st =>
    let o := ofBool (bit 30 st != bit 27 st)
    let r := prbs31 n (st * 2 % 2 ^ 31 + o)
    (o * 2 ^ n + r.1, r.2)

/-- The 40-bit marker of an alignment block on physical lane `k` (Table 2.5, P4). -/
def alignMarker (k : Nat) (last ready : Bool) : Nat := 0x96F0C35A * 2 ^ 8 + k * 2 ^ 4 + ofBool last * 2 + ofBool ready

/-- The alignment blocks of the lanes `m`, 1,040 bits each, with the same 1,000 bits of PRBS31. -/
def alignBlocks (m noise : Nat) (last ready : Bool) : List Nat :=
  (onBits 4 m).map fun k => alignMarker k last ready * 2 ^ 1000 + noise % 2 ^ 1000

end Sys2Proof.Machine
end

