-- ==== Sys2Proof/Machine/Line.lean ====
section
/-! DEFINITION. The operations several families share on line ports and on Comb addresses: free stacks, pending ordered-set
words, line-state exits, WAGGLE, ring departures, loss of signal and link failure (R74, R78 to R82, R84, R85, R125,
R146, R155, R243). -/
namespace Sys2Proof.Machine

/-! Comb addresses. -/

/-- Bank `b` neither retired nor relocating nor under test. -/
def bankIn (s : State) (b : Nat) : Bool :=
  !(bit b (rd Reg.CMB.BANK.RETIRED s) || bit b (rd Reg.CMB.BANK.TEST s))

def stackOf (s : State) (b : Nat) : Stack := Tab.get (fun _ => { ret := [], fresh := 0 }) s.comb.freeStk b

def setStack (b : Nat) (x : Stack) (s : State) : State :=
  updComb (fun c => { c with freeStk := Tab.set (fun _ => { ret := [], fresh := 0 }) b x c.freeStk }) s

/-- Free cells of a bank (R154). -/
def bankFree (s : State) (b : Nat) : Nat := (stackOf s b).ret.length + (16384 - (stackOf s b).fresh)

/-- Takes a cell address from bank `b` (R154: last in, first out). -/
def takeAddr (b : Nat) (s : State) : Option (Nat × State) :=
  let st := stackOf s b
  match st.ret with
  | i :: l => some (b * 16384 + i, setStack b { st with ret := l } s)
  | [] => if st.fresh < 16384 then some (b * 16384 + st.fresh, setStack b { st with fresh := st.fresh + 1 } s) else none

/-- The first bank from `b` on that is in write allocation, has a free cell and passes `ok`. -/
def bankFrom (s : State) (ok : Nat → Bool) : Nat → Nat → Option Nat
  | 0, _ => none
  | k + 1, b => if bankIn s b && 0 < bankFree s b && ok b then some b else bankFrom s ok k (b + 1)

/-- An access holds bank `b` for two cell times (R151). -/
def holdBank (b : Nat) (s : State) : State := updComb (fun c => { c with busy := Tab.set zeroN b 2 c.busy }) s

/-- No access holds bank `b`. -/
def bankIdle (s : State) (b : Nat) : Bool := Tab.get zeroN s.comb.busy b == 0

/-- An address for a write beside the arbiter's matches, of the copy of a cell that leaves on a line port (R30, R155): the
lowest-numbered available bank with a free cell takes it, like the write of any input (notes/assumptions/10); none where no bank is
available. -/
def takeWrite (s : State) : Option (Nat × State) :=
  (bankFrom s (bankIdle s) 16 0).bind fun b => (takeAddr b s).map fun r => (r.1, holdBank b r.2)

/-- An address for a write in spare bank slots, of a refilled or relocated cell (R161, R174). -/
def takeSpare (s : State) : Option (Nat × State) := (bankFrom s (fun _ => true) 16 0).bind fun b => takeAddr b s

/-- A cell address goes back to its bank's free stack; the stack of a bank out of write allocation is dropped
(R155, R170, R174). -/
def freeAddr (a : Nat) (s : State) : State :=
  let b := a / 16384
  if bankIn s b then
    let st := stackOf s b
    setStack b { st with ret := a % 16384 :: st.ret } s
  else s

/-- The STAMP of a cell written now: units of 128 ns modulo 2^24 (Table 5.1). -/
def stampNow (s : State) : Nat := s.now / 128 % 2 ^ 24

/-- Marks an express number of port `n` released (R121): XREL moves over every released number. -/
def slideXrel : Nat → Nat → List Nat → Nat × List Nat
  | 0, x, l => (x, l)
  | k + 1, x, l => if l.contains x then slideXrel k ((x + 1) % 4096) (l.filter fun y => y != x) else (x, l)

def releaseX (n x : Nat) (s : State) : State :=
  updRx n (fun r =>
    let (x', l) := slideXrel 1024 r.xrel (if r.released.contains x then r.released else r.released ++ [x])
    { r with xrel := x', released := l }) s

/-- The custody count of R122. -/
def custCount (t : TxLink) : Nat := t.custody.length + (t.buf.filter fun e => e.ent.cell.xpr).length

/-- Credit of class `cc` toward the far end: (CL - CONS) mod 65,536 (R111). -/
def creditOf (t : TxLink) (cc : Nat) : Nat := Machine.ahead 65536 (Tab.get zeroN t.cons cc) (Tab.get zeroN t.known cc)

/-! Ordered-set words and exits. -/

/-- An ordered-set word waits for the next slot of the port (R65). -/
def pendOs (n : Nat) (w : OsWord) (s : State) : State := updLp n (fun p => { p with osq := p.osq ++ [w] }) s

/-- The port is in HUM, DOZE or DORMANT. -/
def asleep (s : State) (n : Nat) : Bool := lstate s n == HUM || lstate s n == DOZE || lstate s n == DORMANT

/-- The port leaves ACTIVE and HUM: an eye measurement of it has no result (R475). -/
def eyeLost (n : Nat) (s : State) : State :=
  { s with tests := { s.tests with eye := s.tests.eye.map fun e => if e.2.1 = n then (e.1, n, 4) else e } }

/-- The port leaves its line state toward ACTIVE (R72, R74); `word` is WAKE or WAGGLE, `lead` the time since the initiator began
(Table 2.9). A request or an answer of this end is void (Table 2.8). -/
def startExitAt (lead n : Nat) (word : OsWord) (s : State) : State :=
  if asleep s n then
    let st := lstate s n
    let s := eyeLost n s
    let s := updLp n (fun p => { p with
      exitFrom := st, osq := word :: p.osq, reqSent := none, enterAfter := none, enterNow := none, exitAt := s.now - lead }) s
    wr (Reg.HLP.STAT.PHASE n) 0 (wr (Reg.HLP.STAT.LSTATE n) EXITING s)
  else s

/-- This end begins the exit. -/
def startExit (n : Nat) (word : OsWord) (s : State) : State := startExitAt 0 n word s

/-- The exit that a received word begins: step 2 of Table 2.9, 0.1 us after step 1 from DOZE and 2 us after it from DORMANT. -/
def answerExit (n : Nat) (s : State) : State :=
  startExitAt (if lstate s n = DORMANT then 2000 else if lstate s n = DOZE then 100 else 0) n oswWAKE s

/-- A cell or WAGGLE became pending at the initiator of a handshake (Table 2.8): WAKE goes out and a later answer is ignored. -/
def voidRequest (n : Nat) (s : State) : State :=
  if (lp s n).reqSent.isSome then updLp n (fun p => { p with reqSent := none, osq := p.osq ++ [oswWAKE] }) s else s

/-- Sends a WAGGLE toward port `n` through the suppression table (R82), and starts the port's exit (R80). -/
def sendWaggle (n dst hops : Nat) (s : State) : State :=
  let t := s.topo.waggles
  if t.any (fun e => e.1 == dst && e.2.1 == n && s.now < e.2.2 + 10000) then s
  else
    let t := t.filter fun e => !(e.1 == dst && e.2.1 == n)
    let t := (if t.length < 16 then t else t.drop 1) ++ [(dst, n, s.now)]
    let s := updTopo (fun p => { p with waggles := t }) s
    if asleep s n then startExit n (oswWAGGLE dst hops) s else voidRequest n (pendOs n (oswWAGGLE dst hops) s)

/-- A cell toward `dst` is pending toward port `n` (R74, R75, R78): where the port is not ACTIVE the exit starts, and a WAGGLE goes
ahead of it unless the destination is the far end or WAG_EN is 0; an ACTIVE port gives up its own request. -/
def wakeFor (n dst : Nat) (s : State) : State :=
  let waggle := asleep s n || lstate s n == EXITING
  let s := if waggle && rdB (Reg.HLP.CFG.WAG_EN n) s && dst != (lp s n).farAddr then
      sendWaggle n dst (rd (Reg.HLP.CFG.WAG_HOPS n) s) s else s
  voidRequest n (startExit n oswWAKE s)

/-! Time and ring departures. -/

/-- The parent port of a child (R236); none at the master. -/
def parentPort (s : State) : Option Nat :=
  let psel := rd Reg.TIM.CFG.PSEL s
  if isHead s && ownAddr s == 1 then none
  else if psel < 4 then (if trained s psel then some psel else none)
  else if rdB Reg.RTE.ADDR.UPV s = true then
    (if trained s (rd Reg.RTE.ADDR.UP s) then some (rd Reg.RTE.ADDR.UP s) else none)
  else none

/-- The mean of FADJ over the last 16 SYNCs (Table 9.2). -/
def meanFadj (t : TimeSt) : Int := if t.hist = [] then t.fadj else t.hist.foldl (· + ·) 0 / (t.hist.length : Int)

/-- Enters HOLD_FAST from ACQUIRING or LOCKED (Table 9.2, R243). -/
def enterHoldFast (s : State) : State :=
  let q := rd Reg.TIM.STAT.QSTATE s
  if q = 1 ∨ q = 2 then
    let s := { s with time := { s.time with fadj := meanFadj s.time, holdFrom := s.now, goodRun := 0, badRun := 0,
                                            windowLocked := false } }
    raise srcTIME_HOLD (wr Reg.TIM.STAT.QSTATE 3 s)
  else s

/-- What corrections of the timestamp constants add to a timestamp of port `n` (R238). -/
def stampOff (s : State) (n : Nat) : Int :=
  let l := s.trims.filter fun e => 1 ≤ e.1 && e.1 ≤ 255
  if l = [] then 0
  else Config.stampTrim (rd (Reg.HLP.STAT.MODE_CUR n) s * 16 + rd (Reg.HLP.STAT.FEC_CUR n) s * 4 + rd (Reg.HLP.STAT.WIDTH_CUR n) s) l

/-- The timestamp that port `n` takes now (R238): line time at the timestamp point. -/
def portNow (s : State) (n : Nat) : Nat := (((s.lt : Int) + stampOff s n) % (2 ^ 96 : Nat)).toNat

/-- A change that may change the parent port: it leads to HOLD_FAST (R243). -/
def withParent (f : State → State) (s : State) : State :=
  let t := f s
  if parentPort t = parentPort s then t else enterHoldFast t

/-- The master role is taken or left (R236, Table 9.2): a master runs on REFCLK; a node that is no longer the master holds
its time. -/
def timeRole (s : State) : State :=
  let q := rd Reg.TIM.STAT.QSTATE s
  let master := isHead s && ownAddr s == 1
  if master && q != 5 then
    wr Reg.TIM.STAT.QSTATE 5 (wr Reg.TIM.STAT.STRAT 0
      { s with time := { s.time with fadj := 0, goodRun := 0, badRun := 0, windowLocked := false, slowQual := false } })
  else if !master && q == 5 then
    raise srcTIME_HOLD (wr Reg.TIM.STAT.QSTATE 3 { s with time := { s.time with holdFrom := s.now } })
  else s

/-- The RING_BREAK or RING_HEAL cell of this node (R146, R148). -/
def ringCell (s : State) (code nbr port : Nat) : Cell :=
  { dst := 0x3FFF, src := ownAddr s, tun := 0, tc := 7, typ := 2, f := true, l := true, vlen := 116, xpr := true, ver := 2,
    payload := padTo 116 (beBytes 2 code ++ beBytes 2 nbr ++ [BitVec.ofNat 8 port]) }

/-- A ring event cell (R144): TUN 0, EVT, DST 0x3FFF, code 0x0101 or 0x0102. -/
def isRingCell (c : Cell) : Bool :=
  c.typ == 2 && c.tun == 0 && c.dst == 0x3FFF && (field c.payload 0 2 == 0x0101 || field c.payload 0 2 == 0x0102)

/-- A break record joins those of a port (R145): of five, the largest goes. -/
def addBreak (q : Nat) (r : BreakRec) (s : State) : State :=
  let l := breaksOf s q
  let new := if l.length < 4 then l ++ [r]
    else
      let top := l.foldl (fun a x => max a x.b) 0
      if r.b < top then (match takeFirst (fun x : BreakRec => x.b == top) l with
        | some (_, rest) => rest ++ [r]
        | none => l)
      else l
  updTopo (fun t => { t with breaks := Tab.set noCells q new t.breaks }) s

/-- A ring port leaves service (R146), once per departure: a record with b = 0, RING_BREAK on the other ring port and to
P16, and rerouted cells held until it has left. -/
def ringLeave (n : Nat) (s : State) : State :=
  if ringEn s && isRingPort s n && !(lp s n).left then
    let s := updLp n (fun p => { p with left := true }) s
    let s := addBreak n { own := true, b := 0, src := ownAddr s, nbr := (lp s n).farAddr, port := n } s
    let s := updTopo (fun t => { t with breakHold := n :: t.breakHold.filter (· != n) }) s
    raise srcRING (holdForced [otherRing s n, 16] (ringCell s 0x0101 (lp s n).farAddr n) s)
  else s

/-! Loss of signal and link failure. -/

/-- Cells received under custody on port `n` lose their XC: the custody they were under has ended with the link. -/
def dropXc (n : Nat) (l : List QEnt) : List QEnt := l.map fun e => if e.inp = n then { e with xc := false, charged := false } else e

def mapTab {α : Type} (f : List α → List α) (t : Tab (List α)) : Tab (List α) := t.map fun e => (e.1, f e.2)

def clearXc (n : Nat) (s : State) : State :=
  let s := updComb (fun c => { c with
    outQ := mapTab (dropXc n) c.outQ, park := mapTab (dropXc n) c.park, voq := mapTab (dropXc n) c.voq,
    voqPark := mapTab (dropXc n) c.voqPark, ahead := mapTab (dropXc n) c.ahead, spill := mapTab (dropXc n) c.spill
    staging := mapTab (List.map fun x : Staged =>
      if x.inp = n then { x with held := { x.held with xseq := none, charged := false } } else x) c.staging }) s
  let s := forAll [0, 1, 2, 3] (fun m s => updLp m (fun p => { p with fifo := dropXc n p.fifo }) s) s
  setHold n ((holdOf s n).map fun h => { h with xseq := none, charged := false }) s

/-- The transmitter of a failed port deals with the cells it holds (R125): express cells in custody and in the replay
buffer are handed to the switch as received on this port, express FIFO cells go back to their ingress ports, all others
are lost. Recalled copies not yet sent are dropped uncounted: their originals are among the cells handed back
(notes/assumptions/45). -/
def linkCleanup (n : Nat) (s : State) : State :=
  let p := lp s n
  let xs := (p.tx.custody ++ p.tx.buf).filter fun e => e.ent.cell.xpr && !e.isVoid
  let bulk := (p.tx.buf.filter fun e => !e.ent.cell.xpr).length
  let s := forAll (p.tx.custody ++ p.tx.buf) (fun e s => freeAddr e.ent.addr s) s
  let s := clearXc n s
  let s := holdCells n true (xs.map fun e => e.ent.cell) s
  let s := countBy (cHLP n kXREINJ) xs.length s
  let s := forAll p.fifo.reverse (fun e s => setHold e.inp
    ({ cell := e.cell, xseq := if e.xc then some e.xseq else none, charged := false, policed := true, forced := none } :: holdOf s e.inp) s) s
  let s := countBy (cHLP n kLOST_BULK) bulk s
  let s := if bulk = 0 then s else raise (srcLOST_BULK n) s
  wr (Reg.HLP.LRET.REQ n) 0 (updLp n (fun p => { p with
    tx := TxLink.reset, rx := RxLink.reset, fifo := [], osq := [], reqSent := none, enterAfter := none, enterNow := none,
    exitFrom := 0, retire := none, retireWait := [], badFcw := 0, badDoze := 0, goodFrames := 0, frameBad := false,
    restartWait := false, capRx := 0, capAckRx := false, capAckTx := false, assigning := false, fcws := [], slots := [] }) s)

/-- BYPASS_N holds the port DISABLED, and SETTLE after it (R149). -/
def bypassHeld (s : State) (n : Nat) : Bool :=
  (rdB Reg.RTE.BYP.BYP s && bit n (rd Reg.RTE.BYP.PORTS s)) || bit n s.topo.bypassSettle

/-- The port starts training at P1 (R68) with HLPn.CFG and the retired lanes as they now are (R90, R91): its RTT is unmeasured
again (R240). A cell received before stays with the switch, no longer charged to the reserve (R125). -/
def startTraining (n : Nat) (s : State) : State :=
  let s := updLp n (fun p => { p with
    cfg := regGet s (Reg.HLP.CFG.word n).addr, excluded := rd (Reg.HLP.LRET.RETIRED n) s, since := s.now
    capRx := 0, capAckRx := false, capAckTx := false, osq := [], restartWait := false, exitFrom := 0
    tx := TxLink.reset, rx := RxLink.reset, time := PortTime.reset }) (clearXc n s)
  let s := wr (Reg.TIM.PRTT.word n) 0 s
  wr (Reg.HLP.STAT.PHASE n) 1 (wr (Reg.HLP.STAT.LSTATE n) TRAINING (eyeLost n s))

/-- The port shows no mode, width or lanes. -/
def portDark (n state : Nat) (s : State) : State :=
  let s := wr (Reg.HLP.STAT.WIDTH_CUR n) 3 (wr (Reg.HLP.STAT.LANES n) 0 (wr (Reg.HLP.STAT.PHASE n) 0 s))
  wr (Reg.HLP.STAT.LSTATE n) state (eyeLost n s)

/-- A trained port goes DOWN (R85) with everything that follows: cells it holds, the ring, the parent port, and training
from P1 at once unless EN is 0. -/
def portDown (n : Nat) (s : State) : State :=
  let parent := parentPort s == some n
  let s := linkCleanup n (portDark n DOWN s)
  let s := ringLeave n s
  let s := if parent then enterHoldFast s else s
  if rdB (Reg.HLP.CFG.EN n) s && !bypassHeld s n then startTraining n s else s

/-- Loss of signal (R84, R85). A port that is not trained, or DORMANT, does not declare it. -/
def declareLos (n : Nat) (s : State) : State :=
  if trained s n && lstate s n != DORMANT then portDown n (raise (srcLOS n) s) else s

/-- Link failure with its cause (R108, R119): as LOS. -/
def linkFail (n src : Nat) (s : State) : State := if trained s n then declareLos n (raise src s) else s

/-! Words a port owes at its first frame. -/

/-- A port's eFuse is in FET_SHORT (Table 16.1). -/
def fetShort (s : State) (k : Nat) : Bool := rd (Reg.LPW.PSTAT.STATE k) s == 6

/-- The LPWR word of port `n` (R404). -/
def lpwrWord (s : State) (n : Nat) : OsWord :=
  let st := rd (Reg.LPW.PSTAT.STATE n) s
  let short := (List.range 4).filter (fetShort s)
  { typ := 0x18
    body := ofBool (st == 3 || st == 4) * 2 ^ 47 + rd (Reg.LPW.PSTAT.PG n) s * 2 ^ 46 + ofBool (short != []) * 2 ^ 45 +
      ofBool (st == 5) * 2 ^ 44 + rd Reg.LPW.LSTAT.PWARN s * 2 ^ 43 + short.headD 0 * 2 ^ 41 + ownAddr s * 2 ^ 27 }

/-- LPWR is sent on port `n` where it is ACTIVE, HUM or DOZE (R404). -/
def sendLpwr (n : Nat) (s : State) : State :=
  let st := lstate s n
  if st = ACTIVE ∨ st = HUM ∨ st = DOZE then pendOs n (lpwrWord s n) s else s

/-- A bit that LPWR carries for port `n` has changed: the word is sent, and a DORMANT port first starts its exit
(R404). -/
def lpwrChanged (n : Nat) (s : State) : State :=
  if lstate s n = DORMANT then startExit n oswWAKE s else sendLpwr n s

/-- A DREQ with the next GTAG (R239), with TIM.CFG.EN 1. -/
def sendDreq (n : Nat) (s : State) : State :=
  if !rdB Reg.TIM.CFG.EN s then s
  else
    let g := ((lp s n).time.gtag + 1) % 256
    let s := updLp n (fun p => { p with time := { p.time with gtag := g, outstanding := some g } }) s
    pendOs n { typ := 0x0A, body := g * 2 ^ 40 } s

/-! Enumeration (R142). -/

/-- The enumeration offset of port `n`. -/
def enumOfs (s : State) (n : Nat) : Nat :=
  match n with
  | 0 => rd Reg.RTE.ENUM0.OFS_LO s
  | 1 => rd Reg.RTE.ENUM0.OFS_HI s
  | 2 => rd Reg.RTE.ENUM1.OFS_LO s
  | _ => rd Reg.RTE.ENUM1.OFS_HI s

/-- The lowest free origin tag of 64 (R273, notes/assumptions/12). -/
def freeRelay (s : State) : Option Nat :=
  ((List.range 64).filter fun i => (Tab.get (fun _ => none) s.cmd.relays i) == none).head?

def setRelay (i : Nat) (r : Option Relay) (s : State) : State :=
  updCmd (fun c => { c with relays := Tab.set (fun _ => none) i r c.relays }) s

/-- The node acts on port `n` under R142. -/
def enumerates (s : State) (n : Nat) : Bool :=
  ownAddr s != 0 && lstate s n == ACTIVE && enumOfs s n != 0 && !(rdB Reg.RTE.ADDR.UPV s && rd Reg.RTE.ADDR.UP s == n)

/-- ADDR_ASSIGN goes out on port `n` with the address own + OFS (R142): TC6, tunnel 0, DST 0x0000. A repeat
keeps its origin tag; with no tag free it waits for the next repeat. -/
def sendAssign (n : Nat) (s : State) : State :=
  if enumerates s n then
    let s := updLp n (fun p => { p with assigning := true }) s
    let mine := ((List.range 64).filter fun i => (Tab.get (fun _ => none) s.cmd.relays i) == some (.assign n)).head?
    match (if mine.isSome then mine else freeRelay s) with
    | none => s
    | some t =>
      let body := beBytes 2 ((ownAddr s + enumOfs s n) % 65536) ++ [0, 0]
      let bytes := [0x20, 0x18, BitVec.ofNat 8 t, 0] ++ beBytes 2 4 ++ List.replicate 10 0 ++ body
      let c : Cell := { dst := 0, src := ownAddr s, tun := 0, tc := 6, typ := 1, f := true, l := true, vlen := 20, xpr := false,
                        ver := 2, payload := padTo 116 bytes }
      holdForced [n] c (setRelay t (some (.assign n)) s)
  else s

end Sys2Proof.Machine
end

