-- ==== Sys2Proof/Machine/LinePhys.lean ====
section
/-! DEFINITION. Line ports: training, line states, Waggle, signal detect, lane retirement (chapter 2, R53 to R91). -/
namespace Sys2Proof.Machine

/-! Modes and negotiation. -/

/-- The widest of the lane sets of R54 with width code at most `w` whose lanes all lie in `m`; among sets of one width the
lowest lanes (notes/assumptions/11). Answers the width code and the lanes. -/
def pickLanes (w m : Nat) : Option (Nat × Nat) :=
  if 2 ≤ w ∧ m % 16 = 0xF then some (2, 0xF)
  else if 1 ≤ w ∧ m % 4 = 3 then some (1, 0x3)
  else if 1 ≤ w ∧ m / 4 % 4 = 3 then some (1, 0xC)
  else match onBits 4 m with
    | [] => none
    | l :: _ => some (0, 2 ^ l)

/-- The lowest physical lane of a set: logical lane 0 (R54). -/
def baseLane (m : Nat) : Nat := (onBits 4 m).headD 0

/-- A field of HLPn.CFG as the present training took it (R91). -/
def tcfg (s : State) (n : Nat) (f : Nat → Fld) : Nat := (f n).of (lp s n).cfg

/-- WIDTH_MAX of a port; 3 is treated as 2 (R91). -/
def widthMax (s : State) (n : Nat) : Nat := min 2 (tcfg s n Reg.HLP.CFG.WIDTH_MAX)

/-- FEC of a port; 3 is treated as 2 (R91). -/
def fecCfg (s : State) (n : Nat) : Nat := min 2 (tcfg s n Reg.HLP.CFG.FEC)

/-- The MODES a port offers: bit 1 PAM4, bit 0 NRZ (R70, R91). -/
def modesOffered (s : State) (n : Nat) : Nat :=
  match tcfg s n Reg.HLP.CFG.MODE with
  | 1 => 2
  | 2 => 1
  | _ => 3

/-- The lanes a port offers (R70): retired lanes stay out until the training after their bit is cleared (R90). -/
def lanesOffered (s : State) (n : Nat) : Nat :=
  (onBits 4 (tcfg s n Reg.HLP.CFG.LANE_EN)).foldl (fun a i => if bit i (lp s n).excluded then a else a + 2 ^ i) 0

/-- The base rate of P1 (Table 2.5): that of the preferred mode; with MODE = 0, PAM4 and NRZ in turn for 10 ms each, PAM4 first
(notes/assumptions/44). -/
def nrzBase (s : State) (n : Nat) : Bool :=
  match modesOffered s n with
  | 1 => true
  | 2 => false
  | _ => (s.now - (lp s n).since) / 10000000 % 2 == 1

/-- The CAP word of port `n` (Table 2.6). -/
def capWord (s : State) (n : Nat) (ack : Bool) : OsWord :=
  { typ := 0x01
    body := modesOffered s n * 2 ^ 46 + lanesOffered s n * 2 ^ 42 + fecCfg s n * 2 ^ 40 + widthMax s n * 2 ^ 38 +
      ofBool (compat s) * 2 ^ 37 + ofBool ack * 2 ^ 36 + 2 * 2 ^ 32 + ownAddr s * 2 ^ 18 + n * 2 ^ 16 }

/-- Frame time in units of 0.1 ns (Table 2.1). -/
def frameTime (nrz : Bool) (width : Nat) : Nat := (if nrz then 512 else 256) * (if width = 2 then 1 else if width = 1 then 2 else 4)

/-- The round trip of a port in ns, 25 us until measured (R104, R240): PRTT counts 1/16 ns. -/
def rttNs (s : State) (n : Nat) : Nat :=
  let r := rd (Reg.TIM.PRTT.word n) s
  if r = 0 then 25000 else (r + 15) / 16

/-- The lead L of lane retirement in frames (R88). -/
def retireLead (s : State) (n : Nat) : Nat :=
  let ft := frameTime (rdB (Reg.HLP.STAT.MODE_CUR n) s) (rd (Reg.HLP.STAT.WIDTH_CUR n) s)
  (rttNs s n * 10 + ft - 1) / ft + 64

/-! Training. -/

/-- The receive pool of class `cc` in cells: units of 32, a field of 0 taken as 1 (R126). -/
def poolOf (s : State) (n cc : Nat) : Nat :=
  let u := rd ⟨(Reg.HLP.CPOOL.word n).addr, 8 * cc, 8⟩ s
  32 * (if u = 0 then 1 else u)

/-- The pools that CPOOL now asks for come into force (R126). -/
def applyPools (n : Nat) (s : State) : State :=
  updComb (fun c => { c with pools := Tab.setMany poolDefault (4 * n) ([0, 1, 2, 3].map (poolOf s n)) c.pools }) s

/-- The PRBS31 generator starts from a state that the spec does not give (notes/assumptions/44): a free value other than 0. -/
def seedPrbs (n : Nat) (s : State) : State :=
  match drawFree s with
  | (v, s) => updLp n (fun p => { p with prbs := v.toNat % (2 ^ 31 - 1) + 1 }) s

/-- Training fails with INCOMPAT (R68, R70): counted, raised, and tried again after 100 ms. -/
def incompat (n : Nat) (s : State) : State :=
  let s := raise (srcTRAIN_FAIL n) (count (cHLP n kTRAIN_FAIL) s)
  updLp n (fun p => { p with restartWait := true, capRx := 0, capAckRx := false, capAckTx := false, osq := [] }) (portDark n DOWN s)

/-- The negotiation rules of Table 2.6 against a received CAP body; `none` is INCOMPAT. Answers NRZ, FEC_CUR, width
and lanes. -/
def negotiate (s : State) (n : Nat) (b : Nat) : Option (Bool × Nat × Nat × Nat) :=
  let modes := Nat.land (modesOffered s n) (bits 47 46 b)
  let nrz := modes == 1
  if modes = 0 then none
  else match pickLanes (min (widthMax s n) (min 2 (bits 39 38 b))) (Nat.land (lanesOffered s n) (bits 45 42 b)) with
    | none => none
    | some (w, m) =>
      let f := max (fecCfg s n) (min 2 (bits 41 40 b))
      some (nrz, if nrz && f != 0 then 3 else f, w, m)

/-- P2 is complete: the negotiated parameters apply (R70, R71). -/
def applyCap (n b : Nat) (s : State) : State :=
  match negotiate s n b with
  | none => incompat n s
  | some (nrz, f, w, m) =>
    let s := wr (Reg.HLP.STAT.MODE_CUR n) (ofBool nrz) (wr (Reg.HLP.STAT.FEC_CUR n) f s)
    let s := wr (Reg.HLP.STAT.WIDTH_CUR n) w (wr (Reg.HLP.STAT.LANES n) m s)
    let s := wr (Reg.HLP.STAT.SD n) m (wr (Reg.HLP.STAT.BASE n) (baseLane m) s)
    let s := updLp n (fun p => { p with
      proto := min 2 (bits 35 32 b), farAddr := bits 31 18 b, farPort := bits 17 16 b, farLh4 := bit 37 b, osq := [], txLanes := m }) s
    seedPrbs n (wr (Reg.HLP.STAT.PHASE n) 3 s)

/-- The port enters DISABLED: transmitters off, the cells it holds dealt with, ring and parent port left (R85, R91, R146,
R243). -/
def disablePort (n : Nat) (s : State) : State :=
  let parent := parentPort s == some n
  let s := if trained s n then linkCleanup n s else s
  let s := ringLeave n (portDark n DISABLED s)
  if parent then enterHoldFast s else s

/-- The port may train: enabled, out of bypass, booted or in recovery (R446, R448), in service or returning. -/
def mayTrain (s : State) (n : Nat) : Bool :=
  rdB (Reg.HLP.CFG.EN n) s && (rdB Reg.GLB.STAT.BOOTED s || rd Reg.IMG.STAT.PHASE s == 8) && !bypassHeld s n &&
    (domSt s n == .inService || domSt s n == .returning)

/-- A write of HLPn.CFG.EN. -/
def setPortEn (n : Nat) (en : Bool) (s : State) : State :=
  let was := rdB (Reg.HLP.CFG.EN n) s
  let s := wr (Reg.HLP.CFG.EN n) (ofBool en) s
  if en then (if !was && mayTrain s n then startTraining n s else s)
  else if was then disablePort n s else s

/-- PORT_ENABLE (R68, R91): EN 0 to 1 starts training, EN 0 turns the transmitters off. -/
def execPortEnable (p : LPort) (en : Bool) (s : State) : Res :=
  access (Reg.HLP.CFG.word p.val).addr (fun s => setPortEn p.val en s) s

/-- TRAINING_PHASE_TIMEOUT (R68): counted, raised, and training restarts at P1. -/
def execTrainingPhaseTimeout (p : LPort) (s : State) : Res :=
  let n := p.val
  if lstate s n = TRAINING then .next (startTraining n (raise (srcTRAIN_FAIL n) (count (cHLP n kTRAIN_FAIL) s)))
  else .next s

/-- TRAIN_RESTART_TIMER (R68): the wait after INCOMPAT ends. -/
def execTrainRestartTimer (p : LPort) (s : State) : Res :=
  let n := p.val
  if (lp s n).restartWait && rdB (Reg.HLP.CFG.EN n) s && !bypassHeld s n then .next (startTraining n s) else .next s

/-- WORD_LOCK (R68): P1 is complete on `lane`, which becomes the training lane; CAP words go out. A retired lane is powered off
(R90). -/
def execWordLock (p : LPort) (lane : Fin 4) (s : State) : Res :=
  let n := p.val
  if lstate s n = TRAINING ∧ rd (Reg.HLP.STAT.PHASE n) s = 1 ∧ bit lane.val (lp s n).excluded = false then
    let s := updLp n (fun p => { p with
      trainLane := lane.val, baseNrz := nrzBase s n, capRx := 0, capAckRx := false, capAckTx := false, osq := [capWord s n false] }) s
    .next (wr (Reg.HLP.STAT.SD n) (2 ^ lane.val ||| rd (Reg.HLP.STAT.SD n) s) (wr (Reg.HLP.STAT.PHASE n) 2 s))
  else .next s

/-- P2 completes when CAP words with ACK have been both sent and received (Table 2.5). -/
def capDone (n : Nat) (s : State) : State :=
  if (lp s n).capAckTx && (lp s n).capAckRx then applyCap n (lp s n).capBody s else s

/-- A CAP word is received (R68, R70): ACK is set once 4 valid CAP words have come. -/
def onCap (n b : Nat) (s : State) : State :=
  if lstate s n = TRAINING ∧ rd (Reg.HLP.STAT.PHASE n) s = 2 then
    let s := updLp n (fun p => { p with capRx := min 4 (p.capRx + 1), capAckRx := p.capAckRx || bit 36 b, capBody := b }) s
    capDone n (updLp n (fun q => { q with osq := [capWord s n (q.capRx == 4)] }) s)
  else s

/-- CAP (R70). -/
def execCap (p : LPort) (body : BitVec 48) (s : State) : Res := .next (onCap p.val body.toNat s)

/-- The port leaves DOZE or DORMANT by the steps of Table 2.9. -/
def deepExit (s : State) (n : Nat) : Bool := lstate s n == EXITING && (lp s n).exitFrom != HUM

/-- The steps of Table 2.9 that only time brings (checked each nanosecond): all negotiated lanes on, then P3. -/
def exitTick (n : Nat) (s : State) : State :=
  if deepExit s n && rd (Reg.HLP.STAT.PHASE n) s == 0 then
    let deep := (lp s n).exitFrom == DORMANT
    let t := s.now - (lp s n).exitAt
    let s := if (if deep then 12000 else 100) ≤ t then wr (Reg.HLP.STAT.SD n) (rd (Reg.HLP.STAT.LANES n) s) s else s
    if (if deep then 40000 else 1300) ≤ t then seedPrbs n (wr (Reg.HLP.STAT.PHASE n) 3 s) else s
  else s

/-- P3 is under way, in training or in an exit; the row that ends it says that its time has come (notes/assumptions/1). -/
def inP3 (s : State) (n : Nat) : Bool :=
  (lstate s n == TRAINING && rd (Reg.HLP.STAT.PHASE n) s == 3) ||
    (deepExit s n && (rd (Reg.HLP.STAT.PHASE n) s == 0 || rd (Reg.HLP.STAT.PHASE n) s == 3))

/-- PRBS_LOCK (R68): P3 completes, in training or in an exit (Table 2.9): every lane in use shows its signal, and alignment
blocks are counted from 0. -/
def execPrbsLock (p : LPort) (s : State) : Res :=
  let n := p.val
  if inP3 s n then
    let s := wr (Reg.HLP.STAT.SD n) (rd (Reg.HLP.STAT.LANES n) s) s
    .next (wr (Reg.HLP.STAT.PHASE n) 4 (updLp n (fun p => { p with txFrame := 0 }) s))
  else .next s

/-- The counters of a newly trained link and its first words (R101, R115, R120): RESYNC(INIT) and the four CREDIT
words. -/
def creditInit (n : Nat) (s : State) : State :=
  let s := applyPools n (updLp n (fun p => { p with tx := TxLink.reset, rx := RxLink.reset }) s)
  forAll [0, 1, 2, 3] (fun cc s => pendOs n (oswCREDIT cc (pool s n cc) 0) s) (pendOs n (oswRESYNC 1 0 0 0) s)

/-- ALIGN_LAST (R68, R71, R115): frame 0 begins on every lane. In training, credit initialisation starts. -/
def execAlignLast (p : LPort) (s : State) : Res :=
  let n := p.val
  if (lstate s n = TRAINING ∨ lstate s n = EXITING) ∧ rd (Reg.HLP.STAT.PHASE n) s = 4 then
    let s := updLp n (fun p => { p with
      txFrame := 0, rxFrame := 0, slotInFrame := 0, rxSlot := 0, badFcw := 0, goodFrames := 0, frameBad := false, fcws := []
      slots := [] }) s
    let s := wr (Reg.HLP.STAT.PHASE n) 5 s
    if lstate s n = TRAINING then .next (creditInit n s) else .next s
  else .next s

/-- Frames pass on the port: in ACTIVE and HUM, in an exit from HUM, and from frame 0 on in P5 of a training or of an exit. -/
def framesRun (s : State) (n : Nat) : Bool :=
  lstate s n == ACTIVE || lstate s n == HUM || (lstate s n == EXITING && (lp s n).exitFrom == HUM) ||
    ((lstate s n == EXITING || lstate s n == TRAINING) && rd (Reg.HLP.STAT.PHASE n) s == 5)

/-- The frames of the port have two codewords (Table 2.2). -/
def twoFcws (s : State) (n : Nat) : Bool := twoCodewords (rd (Reg.HLP.STAT.FEC_CUR n) s) (rdB (Reg.HLP.STAT.MODE_CUR n) s)

/-- The number of the codeword whose FCW arrives now, counted from frame 0, and what these numbers wrap at. -/
def codewordNow (s : State) (n : Nat) : Nat :=
  if twoFcws s n then 2 * (lp s n).rxFrame + ofBool (2 ≤ (lp s n).rxSlot) else (lp s n).rxFrame

def codewordWrap (s : State) (n : Nat) : Nat := if twoFcws s n then 131072 else 65536

/-- FCW_CHK_FAIL (R55, R84): discarded and counted; four consecutive ones in ACTIVE or HUM are LOS. A failure goes on the run
before it unless a codeword with a good FCW has passed in between. -/
def execFcwChkFail (p : LPort) (s : State) : Res :=
  let n := p.val
  if !framesRun s n then .next s
  else
    let s := count (cHLP n kFCW_ERR) s
    let k := codewordNow s n
    let goesOn := (lp s n).badFcw != 0 && Machine.ahead (codewordWrap s n) (lp s n).badFcwAt k ≤ 1
    let s := updLp n (fun p => { p with badFcw := if goesOn then p.badFcw + 1 else 1, badFcwAt := k, frameBad := true }) s
    if (lstate s n = ACTIVE ∨ lstate s n = HUM) ∧ 4 ≤ (lp s n).badFcw then .next (declareLos n s) else .next s

/-! Line states. -/

/-- A cell or copy waits to leave on the port. -/
def pendingOut (s : State) (n : Nat) : Bool :=
  (lp s n).fifo != [] || (lp s n).tx.recalls != [] || (lp s n).tx.replay.isSome || Tab.get noCells s.comb.ahead n != [] ||
    (List.range 8).any (fun c => outQ s (8 * n + c) != [] || Tab.get noCells s.comb.spill (8 * n + c) != [])

/-- Credits are returned at this end (R116): the last CREDIT words carry the whole pools and every express cell received is
released in their XREL. -/
def creditsReturned (s : State) (n : Nat) : Bool :=
  let p := lp s n
  ([0, 1, 2, 3].all fun c => Tab.get zeroN p.rx.clWord c == (pool s n c + Tab.get zeroN p.rx.rcv c) % 65536) &&
    p.tx.custody == [] && p.rx.xrelWord == p.rx.xseq

/-- The entry conditions of Table 2.7 at this end other than its idle time, for target 1 HUM, 2 DOZE, 3 DORMANT. -/
def entryOk (s : State) (n target : Nat) : Bool :=
  lstate s n == 2 + target && target ≤ rd (Reg.HLP.CFG.MAXSTATE n) s && !pendingOut s n &&
    (match target with
      | 1 => rd (Reg.HLP.SLEEP_T.HUM_T n) s != 0
      | 2 => rd (Reg.HLP.SLEEP_T.DOZE_T n) s != 0 && (lp s n).tx.buf == [] && creditsReturned s n
      | 3 => rd (Reg.HLP.SLEEP_T.DORM_T n) s != 0
      | _ => false)

/-- The idle time of a target has passed at this end (R72), on the model's clock. -/
def idleOk (s : State) (n target : Nat) : Bool :=
  match target with
  | 1 => (lp s n).lastCell + rd (Reg.HLP.SLEEP_T.HUM_T n) s * 10 ≤ s.now
  | 2 => (lp s n).since + rd (Reg.HLP.SLEEP_T.DOZE_T n) s * 1000 ≤ s.now
  | _ => (lp s n).since + rd (Reg.HLP.SLEEP_T.DORM_T n) s * 1000000 ≤ s.now

/-- The port enters a deeper line state (Table 2.7), and leaves it at once where a cell waits (R74) or MAXSTATE no longer permits it
(R76). -/
def enterState (n target : Nat) (s : State) : State :=
  let parent := parentPort s == some n
  let s := updLp n (fun p => { p with reqSent := none, enterAfter := none, enterNow := none, since := s.now }) s
  let s := wr (Reg.HLP.STAT.LSTATE n) (3 + target) (if target = 1 then s else eyeLost n s)
  let s := if target = 2 then wr (Reg.HLP.STAT.SD n) (2 ^ rd (Reg.HLP.STAT.BASE n) s) s
    else if target = 3 then wr (Reg.HLP.STAT.SD n) 0 s else s
  let s := if target = 3 && parent then enterHoldFast s else s
  if pendingOut s n || decide (rd (Reg.HLP.CFG.MAXSTATE n) s < target) then startExit n oswWAKE s else s

/-- This end starts the handshake toward a target (R73). -/
def requestState (n target : Nat) (s : State) : State :=
  if entryOk s n target && (lp s n).reqSent == none then
    updLp n (fun p => { p with reqSent := some target }) (pendOs n (oswSTATE 0x04 target) s)
  else s

/-- HUM_IDLE_TIMEOUT (R72, R73). -/
def execHumIdleTimeout (p : LPort) (s : State) : Res := .next (requestState p.val 1 s)

/-- DOZE_IDLE_TIMEOUT (R72, R73, R116). -/
def execDozeIdleTimeout (p : LPort) (s : State) : Res := .next (requestState p.val 2 s)

/-- DORMANT_IDLE_TIMEOUT (R72, R73). -/
def execDormantIdleTimeout (p : LPort) (s : State) : Res := .next (requestState p.val 3 s)

/-- A WAGGLE or LANE_RETIRE word waits on the port (Table 2.8). -/
def holdsWord (s : State) (n : Nat) : Bool := (lp s n).osq.any fun w => w.typ == 0x03 || w.typ == 0x07

/-- A STATE_REQ is received (R73, Table 2.8). -/
def onStateReq (n target : Nat) (s : State) : State :=
  match (lp s n).reqSent with
  | some t =>
    if t = target then enterState n target s
    else updLp n (fun p => { p with reqSent := none }) (pendOs n (oswSTATE 0x06 target) s)
  | none =>
    if entryOk s n target && idleOk s n target && !holdsWord s n then
      updLp n (fun p => { p with enterAfter := some target }) (pendOs n (oswSTATE 0x05 target) s)
    else if trained s n then pendOs n (oswSTATE 0x06 target) s
    else s

/-- STATE_REQ (R73, R75). -/
def execStateReq (p : LPort) (target : Fin 4) (s : State) : Res := .next (onStateReq p.val target.val s)

/-- The initiator receives STATE_ACK: it enters the target; an acknowledgement of no request is ignored (R73, Table 2.8). -/
def onStateAck (n target : Nat) (s : State) : State :=
  if (lp s n).reqSent = some target then enterState n target s else s

/-- STATE_ACK (R73). -/
def execStateAck (p : LPort) (target : Fin 4) (s : State) : Res := .next (onStateAck p.val target.val s)

/-- The initiator stays in its state. -/
def dropReq (n : Nat) (s : State) : State := updLp n (fun p => { p with reqSent := none }) s

/-- A WAKE ends the handshake at either end (Table 2.8). -/
def dropHandshake (n : Nat) (s : State) : State :=
  updLp n (fun p => { p with reqSent := none, enterAfter := none, enterNow := none }) s

/-- The initiator receives STATE_NAK: it stays where it is (R75). -/
def onStateNak (n target : Nat) (s : State) : State := if (lp s n).reqSent = some target then dropReq n s else s

/-- STATE_NAK (R75). -/
def execStateNak (p : LPort) (target : Fin 4) (s : State) : Res := .next (onStateNak p.val target.val s)

/-- STATE_ANSWER_TIMEOUT (R73). -/
def execStateAnswerTimeout (p : LPort) (s : State) : Res := .next (dropReq p.val s)

/-- Signal detect rises on the base lane of a DORMANT port: its Nurse-resident source fires (Table 17.4, group 15). -/
def sdRise (n : Nat) (s : State) : State :=
  if lstate s n = DORMANT then raise (srcSD n) (wr (Reg.HLP.STAT.SD n) (2 ^ rd (Reg.HLP.STAT.BASE n) s) s) else s

/-- A WAKE is received: the port leaves its line state; a handshake is void (R74, Table 2.8). -/
def onWake (n : Nat) (s : State) : State := answerExit n (dropHandshake n (sdRise n s))

/-- WAKE (R74, R75). -/
def execWake (p : LPort) (s : State) : Res := .next (onWake p.val s)

/-- EXIT_COMPLETE (R71, R72, R404): the port is ACTIVE; after DOZE or DORMANT it sends LPWR in its first frame. -/
def execExitComplete (p : LPort) (s : State) : Res :=
  let n := p.val
  if lstate s n = EXITING then
    let was := (lp s n).exitFrom
    let s := wr (Reg.HLP.STAT.LSTATE n) ACTIVE (wr (Reg.HLP.STAT.PHASE n) 0 s)
    let s := updLp n (fun p => { p with exitFrom := 0, lastCell := s.now, since := s.now }) s
    .next (if was = HUM then s else sendLpwr n s)
  else .next s

/-- EXIT_TIMEOUT (R75, R84): LOS, TRAIN_FAIL counted. -/
def execExitTimeout (p : LPort) (s : State) : Res :=
  let n := p.val
  if lstate s n = EXITING then .next (declareLos n (count (cHLP n kTRAIN_FAIL) s)) else .next s

/-- A new MAXSTATE: a port that is deeper exits at once (R76), and a request for a deeper state is given up as in Table 2.8. -/
def setMaxstate (n m : Nat) (s : State) : State :=
  let s := wr (Reg.HLP.CFG.MAXSTATE n) m s
  if asleep s n ∧ 3 + m < lstate s n then startExit n oswWAKE s
  else match (lp s n).reqSent with
    | some t => if m < t then voidRequest n s else s
    | none => s

/-- MAXSTATE_WRITE (R76). -/
def execMaxstateWrite (p : LPort) (m : Fin 4) (s : State) : Res :=
  access (Reg.HLP.CFG.word p.val).addr (fun s => setMaxstate p.val m.val s) s

/-! Waggle. -/

/-- A received WAGGLE (R79, R80): the port's own exit and idle timers, then the word with HOPS - 1 toward each egress port. -/
def onWaggle (n dst hops : Nat) (s : State) : State :=
  let s := answerExit n (sdRise n s)
  let s := updLp n (fun p => { p with lastCell := s.now, since := s.now }) s
  if dst = ownAddr s ∨ hops = 0 then s
  else
    let d := lookup s n dst 0
    if d.noRoute then count (cHLP n kWAG_DROP) s
    else forAll (d.outs.filter fun q => q < 4 && q != n) (fun q s =>
      if lstate s q < 3 then count (cHLP n kWAG_DROP) s else sendWaggle q dst (hops - 1) s) s

/-- WAGGLE (R79 to R82). -/
def execWaggle (p : LPort) (dst : BitVec 14) (hops : BitVec 6) (s : State) : Res :=
  .next (onWaggle p.val dst.toNat hops.toNat s)

/-! Signal detect and lane retirement. -/

/-- The lanes left when `out` are taken from width `w` lanes `m` (R87): `none` where the last lane goes. -/
def lanesWithout (m out : Nat) : Option (Nat × Nat) :=
  let left := (onBits 4 m).filter fun i => !bit i out
  if m = 0xF then
    if left.contains 0 ∧ left.contains 1 then some (1, 0x3)
    else if left.contains 2 ∧ left.contains 3 then some (1, 0xC)
    else match left with
      | [] => none
      | i :: _ => some (0, 2 ^ i)
  else match left with
    | [] => none
    | i :: _ => some (0, 2 ^ i)

/-- Retirement of lanes starts at this end, which saw the failure or the request (Table 2.10 steps 1 and 2). -/
def beginRetire (n lanes : Nat) (s : State) : State :=
  match lanesWithout (rd (Reg.HLP.STAT.LANES n) s) lanes with
  | none => declareLos n s
  | some _ =>
    let f := ((lp s n).rxFrame + retireLead s n) % 65536
    let s := orF (Reg.HLP.LRET.RETIRED n) lanes s
    let s := updLp n (fun p => { p with retire := some { lanes := lanes, rxFrame := f, txFrame := none, rxDone := false, txDone := false } }) s
    pendOs n (oswLANE_RETIRE lanes f) s

/-- A retirement starts, or waits for the one in progress (R87). -/
def askRetire (n lane : Nat) (s : State) : State :=
  if (lp s n).retire.isSome then updLp n (fun p => { p with retireWait := p.retireWait ++ [2 ^ lane] }) s
  else beginRetire n (2 ^ lane) s

/-- SIGNAL_DETECT_LOSS (R84, R85): the base lane, or all lanes in use, for 400 ns. A DORMANT port's signal detect is low
by design. -/
def execSignalDetectLoss (p : LPort) (all : Bool) (s : State) : Res :=
  let n := p.val
  let sd := if all then 0 else setBit (rd (Reg.HLP.STAT.BASE n) s) false (rd (Reg.HLP.STAT.SD n) s)
  .next (declareLos n (wr (Reg.HLP.STAT.SD n) sd s))

/-- LANE_FAIL (R86): a lane other than the base lane fails while another in use stays up. -/
def execLaneFail (p : LPort) (lane : Fin 4) (s : State) : Res :=
  let n := p.val
  let s := wr (Reg.HLP.STAT.SD n) (setBit lane.val false (rd (Reg.HLP.STAT.SD n) s)) s
  if trained s n && bit lane.val (rd (Reg.HLP.STAT.LANES n) s) && lane.val != rd (Reg.HLP.STAT.BASE n) s
      && lstate s n != DORMANT && lstate s n != DOZE then
    .next (if bit lane.val (rd (Reg.HLP.LRET.AUTO n) s) then askRetire n lane.val s else declareLos n s)
  else .next s

/-- LANE_ERROR_WINDOW (R87): the symbol errors of a 1 ms window; above 2^TH_EXP the lane is retired where AUTO is set. -/
def execLaneErrorWindow (p : LPort) (lane : Fin 4) (errors : Nat) (s : State) : Res :=
  let n := p.val
  let s := countBy (cHLP n (kSYM_ERR lane.val)) errors s
  if trained s n && bit lane.val (rd (Reg.HLP.STAT.LANES n) s) && bit lane.val (rd (Reg.HLP.LRET.AUTO n) s)
      && 2 ^ rd (Reg.HLP.LRET.TH_EXP n) s < errors && !bit lane.val (rd (Reg.HLP.LRET.RETIRED n) s) then
    .next (askRetire n lane.val s)
  else .next s

/-- A request to retire a lane (R87): ignored for a lane not in use or the last lane in use. -/
def laneReq (n lane : Nat) (s : State) : State :=
  let m := rd (Reg.HLP.STAT.LANES n) s
  if trained s n && bit lane m && m != 2 ^ lane then askRetire n lane (orF (Reg.HLP.LRET.REQ n) (2 ^ lane) s) else s

/-- LANE_RETIRE_REQ (R87). -/
def execLaneRetireReq (p : LPort) (lane : Fin 4) (s : State) : Res :=
  access (Reg.HLP.LRET.word p.val).addr (fun s => laneReq p.val lane.val s) s

/-- The next transmit frame is at or before F - 8 (Table 2.10 step 3). -/
def inTime (s : State) (n frame : Nat) : Bool :=
  let p := lp s n
  let next := if p.slotInFrame = 0 then p.txFrame else p.txFrame + 1
  8 ≤ Machine.ahead 65536 next frame && Machine.ahead 65536 next frame < 32768

/-- A LANE_RETIRE word is received (Table 2.10 steps 3 and 5, R89). -/
def onLaneRetire (n lanes frame : Nat) (s : State) : State :=
  match (lp s n).retire with
  | some r =>
    if r.lanes = lanes ∧ r.txFrame = none ∧ inTime s n frame = true then
      updLp n (fun p => { p with retire := some { r with txFrame := some frame } }) s
    else s
  | none =>
    if inTime s n frame then
      let f := ((lp s n).rxFrame + retireLead s n) % 65536
      let s := orF (Reg.HLP.LRET.RETIRED n) lanes s
      let s := updLp n (fun p => { p with
        retire := some { lanes := lanes, rxFrame := f, txFrame := some frame, rxDone := false, txDone := false } }) s
      pendOs n (oswLANE_RETIRE lanes f) s
    else s

/-- LANE_RETIRE (R88, R89). -/
def execLaneRetire (p : LPort) (lanes : BitVec 4) (frame : BitVec 16) (s : State) : Res :=
  .next (onLaneRetire p.val lanes.toNat frame.toNat s)

/-- The width code of a set of lanes (R91): 0 one lane, 1 two, 2 four, 3 none. -/
def widthCode (m : Nat) : Nat :=
  match (onBits 4 m).length with
  | 0 => 3
  | 1 => 0
  | 2 => 1
  | _ => 2

/-- The lanes and the width that stay when `out` goes from the lanes `m` (R87), `m` itself where none is left. -/
def narrowed (m out : Nat) : Nat × Nat := (lanesWithout m out).getD (widthCode m, m)

/-- Takes lanes out of LRET.REQ: their retirement has ended, or they are ignored (R87). -/
def clearReq (n lanes : Nat) (s : State) : State :=
  wr (Reg.HLP.LRET.REQ n) (rd (Reg.HLP.LRET.REQ n) s - Nat.land (rd (Reg.HLP.LRET.REQ n) s) lanes) s

/-- The retirements that waited (R87): the first whose lane is still in use begins; a request for the last lane in use is ignored. -/
def nextRetire (n : Nat) : List Nat → State → State
  | [], s => updLp n (fun p => { p with retire := none, retireWait := [] }) s
  | l :: ls, s =>
    let m := rd (Reg.HLP.STAT.LANES n) s
    if Nat.land m l = 0 ∨ (m = l ∧ Nat.land (rd (Reg.HLP.LRET.REQ n) s) l ≠ 0) then nextRetire n ls (clearReq n l s)
    else beginRetire n l (updLp n (fun p => { p with retire := none, retireWait := ls }) s)

/-- The receive frame, or the frame in transmission, has reached number `f`. -/
def frameReached (cur f : Nat) : Bool := Machine.ahead 65536 f cur < 32768

/-- RETIRE_FRAME_SWITCH (R88, R90, Table 2.10): at its frame number the receiver or the transmitter switches to the narrower width, and
the retired lane is powered off; when both have, the retirement ends with LANE_RET and the next one waiting starts. -/
def execRetireFrameSwitch (p : LPort) (rx : Bool) (s : State) : Res :=
  let n := p.val
  match (lp s n).retire with
  | none => .next s
  | some r =>
    let due := if rx then !r.rxDone && frameReached (lp s n).rxFrame r.rxFrame
      else match r.txFrame with
        | none => false
        | some f => !r.txDone && frameReached (lp s n).txFrame f
    if !due then .next s
    else
      let r := if rx then { r with rxDone := true } else { r with txDone := true }
      let s := updLp n (fun p => { p with retire := some r }) s
      let s := if rx then
          let (w, m) := narrowed (rd (Reg.HLP.STAT.LANES n) s) r.lanes
          let s := wr (Reg.HLP.STAT.SD n) (rd (Reg.HLP.STAT.SD n) s - Nat.land (rd (Reg.HLP.STAT.SD n) s) r.lanes) s
          wr (Reg.HLP.STAT.WIDTH_CUR n) w (wr (Reg.HLP.STAT.LANES n) m (wr (Reg.HLP.STAT.BASE n) (baseLane m) s))
        else updLp n (fun p => { p with txLanes := (narrowed p.txLanes r.lanes).2 }) s
      if r.rxDone && r.txDone then .next (nextRetire n (lp s n).retireWait (raise (srcLANE_RET n) (clearReq n r.lanes s)))
      else .next s

end Sys2Proof.Machine
end

