-- ==== Sys2Proof/Machine/Link.lean ====
section
/-! DEFINITION. Link sequence, replay, credit and custody on a line port: the receiver and the transmitter (chapter 3,
R101 to R125). -/
namespace Sys2Proof.Machine

/-! The receiver. -/

/-- The credit limit CL of a class (R111). -/
def creditLimit (s : State) (n cc : Nat) : Nat := (pool s n cc + Tab.get zeroN (lp s n).rx.freed cc) % 65536

/-- A cell of class `cc` leaves the reserve (R111): a CREDIT FCW is pending. -/
def freeCredit (n cc : Nat) (s : State) : State :=
  updRx n (fun r => { r with
    freed := Tab.set zeroN cc ((Tab.get zeroN r.freed cc + 1) % 65536) r.freed
    credPend := if r.credPend.contains cc then r.credPend else r.credPend ++ [cc] }) s

/-- A bad slot (R63, R102): counted; in NORMAL the receiver enters WAIT_REPLAY and owes a NAK. -/
def badSlot (n : Nat) (s : State) : State :=
  let s := count (cHLP n kCRC_ERR) s
  if (lp s n).rx.waiting then s
  else updRx n (fun r => { r with waiting := true, skip := none, nakPend := true }) s


/-- The class's credit limit last sent has been used up (R119). -/
def creditUsedUp (s : State) (n cc : Nat) : Bool :=
  Tab.get zeroN (lp s n).rx.clSent cc == Tab.get zeroN (lp s n).rx.rcv cc

/-- A cell is taken for sequencing (R101, R102, R120): E advances, an ACK is pending, an express cell takes the next
XSEQ. -/
def sequenceCell (n : Nat) (c : Cell) (s : State) : State :=
  let s := countBy (cHLP n kRX_BYTES) c.vlen (count (cHLP n kRX_CELLS) s)
  let s := updRx n (fun r => { r with
    e := (r.e + 1) % 8192, ackPend := true
    xseq := if c.xpr then (r.xseq + 1) % 4096 else r.xseq
    rcv := Tab.set zeroN (ccOf c.tc) ((Tab.get zeroN r.rcv (ccOf c.tc) + 1) % 65536) r.rcv }) s
  updLp n (fun p => { p with lastCell := s.now }) s

/-- A cell discarded under R94 or R96: its credit goes back and its XSEQ is released at once. -/
def discardTaken (n k x : Nat) (c : Cell) (s : State) : State :=
  let s := freeCredit n (ccOf c.tc) (count (cHLP n k) s)
  if c.xpr then releaseX n x s else s

/-- A cell with a good CRC is accepted in sequence (R94, R96, R102) and waits in the ingress hold of its switch port (R131). R119
gives no order against the checks of R94 and R96: here a cell that arrives without credit is CRED_VIOL alone, whatever its VER and
header (notes/assumptions/45). -/
def acceptCell (n : Nat) (c : Cell) (s : State) : State :=
  let usedUp := creditUsedUp s n (ccOf c.tc)
  let x := (lp s n).rx.xseq
  let s := sequenceCell n c s
  if usedUp then linkFail n (srcCRED_FAULT n) (count (cHLP n kCRED_VIOL) s)
  else if c.ver ≠ 1 ∧ c.ver ≠ 2 then discardTaken n kBAD_VER x c s
  else if !headerGood c then discardTaken n kBAD_HDR x c s
  else setHold n (holdOf s n ++ [{ cell := c, xseq := if c.xpr then some x else none, charged := true, policed := true,
                                   forced := none }]) s

/-- A cell that arrives in a slot with a good CRC (R101, R102, R107). -/
def onCell (n : Nat) (c : Cell) (s : State) : State :=
  let r := (lp s n).rx
  if r.waiting then s
  else match r.skip with
    | some k =>
      let k' := (k + 1) % 8192
      updRx n (fun r => { r with skip := if k' = r.e then none else some k' }) s
    | none => acceptCell n c s

/-- P5 is complete: the port is ACTIVE after training (R115), with what it owes at its first frame: LPWR (R404), the
first DREQ (R239), ADDR_ASSIGN (R142). A RETURNING domain is in service. -/
def portUp (n : Nat) (s : State) : State :=
  let s := updTx n (fun t => { t with credInit := true }) s
  let s := wr (Reg.HLP.STAT.LSTATE n) ACTIVE (wr (Reg.HLP.STAT.PHASE n) 0 s)
  let s := updLp n (fun p => { p with lastCell := s.now, since := s.now, left := false }) s
  let s := if domSt s n = .returning then setDom n (Domain.reset .inService) s else s
  sendAssign n (sendDreq n (sendLpwr n (raise (srcUP n) s)))

/-- P5 ends (Table 2.5): 16 frames in a row had a good CHK, and the four CREDIT words have come. -/
def endP5 (n : Nat) (s : State) : State :=
  if lstate s n = TRAINING ∧ rd (Reg.HLP.STAT.PHASE n) s = 5 ∧ 16 ≤ (lp s n).goodFrames ∧ (lp s n).tx.inited.length = 4 then
    portUp n s
  else s

/-- One slot of the receive frame has passed; the fifth ends the frame (R53, R88). -/
def slotPassed (n : Nat) (s : State) : State :=
  if framesRun s n then
    endP5 n (updLp n (fun p =>
      if p.rxSlot < 4 then { p with rxSlot := p.rxSlot + 1 }
      else { p with rxSlot := 0, rxFrame := (p.rxFrame + 1) % 65536, goodFrames := if p.frameBad then 0 else min 16 (p.goodFrames + 1)
                    frameBad := false }) s)
  else s

/-- UNCORRECTABLE_CODEWORD (R60): every slot that overlaps it is a bad slot. -/
def execUncorrectableCodeword (p : LPort) (slots : Nat) (s : State) : Res :=
  let n := p.val
  if framesRun s n then .next (times slots (fun s => slotPassed n (badSlot n s)) (count (cHLP n kUNCORR) s)) else .next s

/-- NAK_RETRY_TIMEOUT (R104): NAK(E) is owed again. -/
def execNakRetryTimeout (p : LPort) (s : State) : Res :=
  if (lp s p.val).rx.waiting then .next (updRx p.val (fun r => { r with nakPend := true }) s) else .next s

/-- A RESYNC(REPLAY, S) word (R102, R107). R107 speaks of S before E in NORMAL only: here one that arrives in WAIT_REPLAY changes
nothing, and the receiver goes on waiting (notes/assumptions/45). -/
def onResyncReplay (n seq : Nat) (s : State) : State :=
  let r := (lp s n).rx
  if seq = r.e then updRx n (fun r => { r with waiting := false, skip := none, nakPend := false }) s
  else if Machine.ahead 8192 r.e seq < 4096 then
    updRx n (fun r => { r with waiting := true, skip := none, nakPend := true }) (count (cHLP n kSEQ_ERR) s)
  else if r.waiting then s
  else updRx n (fun r => { r with skip := some seq }) s

/-- RESYNC_REPLAY (R107). -/
def execResyncReplay (p : LPort) (seq : BitVec 13) (s : State) : Res := .next (onResyncReplay p.val seq.toNat s)

/-- A CREDIT word of a class that still waits: a newer one takes its place. -/
def oldCredit (cc : Nat) (w : OsWord) : Bool := w.typ == 0x10 && w.body / 2 ^ 46 == cc

/-- The CREDIT word of a class waits with the present limit (R112, R118). -/
def sendCredit (n cc : Nat) (s : State) : State :=
  let w := oswCREDIT cc (creditLimit s n cc) (lp s n).rx.xrel
  updLp n (fun p => { p with
    osq := if p.osq.any (oldCredit cc) then p.osq.map fun x => if oldCredit cc x then w else x else p.osq ++ [w] }) s

/-- A credit request is answered (R118). -/
def onCreq (n cc : Nat) (s : State) : State := if trained s n then sendCredit n cc s else s

/-- RESYNC_CREQ (R118). -/
def execResyncCreq (p : LPort) (cc : Fin 4) (s : State) : Res := .next (onCreq p.val cc.val s)

/-- CREDIT_WORD_PERIOD (R112): the four CREDIT words, all in one OS slot. -/
def execCreditWordPeriod (p : LPort) (s : State) : Res :=
  if lstate s p.val = ACTIVE ∨ lstate s p.val = HUM then
    let s := updLp p.val (fun p => { p with osq := p.osq.filter fun w => w.typ != 0x10 }) s
    .next (forAll [0, 1, 2, 3] (sendCredit p.val) s)
  else .next s

/-! The transmitter. -/

/-- `x` lies before `lim` modulo 4,096. -/
def xBefore (x lim : Nat) : Bool := 0 < Machine.ahead 4096 x lim && Machine.ahead 4096 x lim < 2048

/-- An acknowledged cell leaves the replay buffer (R105, R122, R155): an express cell goes to custody unless a received
XREL already covers it, any other address is freed. -/
def ackCell (n : Nat) (e : TxEnt) (s : State) : State :=
  if e.ent.cell.xpr && !xBefore e.xseq (lp s n).tx.xrel then updTx n (fun t => { t with custody := t.custody ++ [e] }) s
  else freeAddr e.ent.addr s

/-- The oldest unacknowledged SEQ. -/
def oldestSeq (t : TxLink) : Nat := (t.seq + 8192 - t.buf.length) % 8192

/-- ACK or NAK VALUE `v` frees every cell before it (R105); `false` where it lies outside the window. -/
def ackUpTo (n v : Nat) (s : State) : Bool × State :=
  let t := (lp s n).tx
  let d := Machine.ahead 8192 (oldestSeq t) v
  if t.buf.length < d then (false, count (cHLP n kSEQ_ERR) s)
  else
    let s := forAll (t.buf.take d) (ackCell n) s
    let s := updTx n (fun t => { t with
      buf := t.buf.drop d
      rplCount := if d = 0 then t.rplCount else 0
      replay := if t.buf.drop d = [] && !t.replayWord then none
        else t.replay.map fun r => if Machine.ahead 8192 (oldestSeq t) r < d then v else r }) s
    (true, s)

/-- A replay starts from `v`, or the link fails when the count of R108 would pass RPL_MAX. -/
def startReplay (n v k : Nat) (s : State) : State :=
  let t := (lp s n).tx
  let c := if t.rplFrom = v ∧ 0 < t.rplCount then t.rplCount + 1 else 1
  if rd (Reg.HLP.LTIM.RPL_MAX n) s < c then linkFail n (srcREPLAY_FAIL n) s
  else
    let s := updTx n (fun t => { t with replay := some v, replayWord := true, rplFrom := v, rplCount := c }) (count (cHLP n k) s)
    if t.buf = [] then s else voidRequest n (startExit n oswWAKE s)

/-- A good FCW ends a run of bad ones (R84). -/
def goodFcw (n : Nat) (s : State) : State := updLp n (fun p => { p with badFcw := 0 }) s

/-- ACK_FCW (R105). -/
def execAckFcw (p : LPort) (v : BitVec 13) (s : State) : Res :=
  if trained s p.val then .next (ackUpTo p.val v.toNat (goodFcw p.val s)).2 else .next s

/-- NAK_FCW (R105, R108): frees, then replays. -/
def execNakFcw (p : LPort) (v : BitVec 13) (s : State) : Res :=
  let n := p.val
  if trained s n then
    match ackUpTo n v.toNat (count (cHLP n kNAK_RX) (goodFcw n s)) with
    | (true, s) => .next (startReplay n v.toNat kREPLAY s)
    | (false, s) => .next s
  else .next s

/-- REPLAY_TIMEOUT (R106, R108): a replay from the oldest unacknowledged cell. -/
def execReplayTimeout (p : LPort) (s : State) : Res :=
  let t := (lp s p.val).tx
  if trained s p.val ∧ t.buf ≠ [] then .next (startReplay p.val (oldestSeq t) kREPLAY_TO s) else .next s

/-- The far end's credit initialisation starts (R115). -/
def onInit (n : Nat) (s : State) : State :=
  if lstate s n = TRAINING ∧ rd (Reg.HLP.STAT.PHASE n) s = 5 then updTx n (fun t => { t with inited := [], known := [], pool := [] }) s
  else s

/-- RESYNC_INIT (R115). -/
def execResyncInit (p : LPort) (s : State) : Res := .next (onInit p.val s)

/-- One credit fault (R119): counted; the fourth in a row is link failure. -/
def creditFault (n : Nat) (s : State) : State :=
  let s := updTx n (fun t => { t with faults := t.faults + 1 }) (count (cHLP n kCRED_ERR) s)
  if 4 ≤ (lp s n).tx.faults then linkFail n (srcCRED_FAULT n) s else s

/-- A received credit limit of class `cc` (R114, R119); `true` where it is no fault. R119 counts four faults in a row: here a stale
value in between, as any value that is no fault, ends the row (notes/assumptions/45). -/
def takeCredit (n cc new : Nat) (s : State) : Bool × State :=
  let t := (lp s n).tx
  let k := Tab.get zeroN t.known cc
  let d := Machine.ahead 65536 k new
  if d = 0 ∨ 32767 < d then (true, updTx n (fun t => { t with faults := 0 }) s)
  else if Tab.get zeroN t.pool cc < Machine.ahead 65536 (Tab.get zeroN t.cons cc) new then (false, creditFault n s)
  else (true, updTx n (fun t => { t with known := Tab.set zeroN cc new t.known, faults := 0 }) s)

/-- A received XREL releases the custody it covers (R122, R155). -/
def takeXrel (n x : Nat) (s : State) : State :=
  let t := (lp s n).tx
  if xBefore t.xrel x then
    let gone := t.custody.filter fun e => xBefore e.xseq x
    let s := forAll gone (fun e s => freeAddr e.ent.addr s) s
    updTx n (fun t => { t with xrel := x, custody := t.custody.filter fun e => !xBefore e.xseq x }) s
  else s

/-- A CREDIT word (R113 to R115, R122). -/
def onCreditWord (n cc cl xrel : Nat) (s : State) : State :=
  if lstate s n = TRAINING ∧ rd (Reg.HLP.STAT.PHASE n) s = 5 then
    let s := updTx n (fun t => { t with
      inited := if t.inited.contains cc then t.inited else t.inited ++ [cc]
      pool := if t.inited.contains cc then t.pool else Tab.set zeroN cc cl t.pool
      known := Tab.set zeroN cc cl t.known }) s
    endP5 n s
  else if trained s n then
    let r := takeCredit n cc cl s
    if trained r.2 n then takeXrel n xrel r.2 else r.2
  else s

/-- CREDIT_WORD (R114). -/
def execCreditWord (p : LPort) (cc : Fin 4) (cl : BitVec 16) (xrel : BitVec 12) (s : State) : Res :=
  .next (onCreditWord p.val cc.val cl.toNat xrel.toNat s)

/-- CREDIT_FCW (R112, R114): the smallest value at least K with these 11 low bits. -/
def execCreditFcw (p : LPort) (cc : Fin 4) (low : BitVec 11) (s : State) : Res :=
  let n := p.val
  if trained s n then
    let s := goodFcw n s
    let k := Tab.get zeroN (lp s n).tx.known cc.val
    .next (takeCredit n cc.val ((k + Machine.ahead 2048 k low.toNat) % 65536) s).2
  else .next s

/-- CREDIT_STARVE_TIMEOUT (R118): a class without credit asks for it. -/
def execCreditStarveTimeout (p : LPort) (cc : Fin 4) (s : State) : Res :=
  let n := p.val
  if trained s n ∧ creditOf (lp s n).tx cc.val = 0 then
    .next (pendOs n (oswRESYNC 3 0 cc.val 0) (count (cHLP n kCREQ_TX) s))
  else .next s

/-- A RECALL of the far end (R123): a copy from custody or the replay buffer waits to be sent as a new cell. -/
def onRecall (n x : Nat) (s : State) : State :=
  let t := (lp s n).tx
  match ((t.custody ++ t.buf).filter fun e => e.ent.cell.xpr && e.xseq == x && !e.isVoid).head? with
  | some e => wakeFor n e.ent.cell.dst (updTx n (fun t => { t with recalls := t.recalls ++ [e.ent] }) (count (cHLP n kXRECALL) s))
  | none => count (cHLP n kSEQ_ERR) s

/-- RESYNC_RECALL (R123). -/
def execResyncRecall (p : LPort) (xseq : BitVec 12) (s : State) : Res :=
  if trained s p.val then .next (onRecall p.val xseq.toNat s) else .next s

end Sys2Proof.Machine
end

