-- ==== Sys2Proof/Machine/Sched.lean ====
section
/-! DEFINITION. Shapers, policers, Guard, DWRR and high-water marks (chapter 6, R179 to R196), and the replies of commands
(R256 to R264). -/
namespace Sys2Proof.Machine

/-! Replies. -/

/-- The node that a reply goes to (Table 10.1): at LINE the SRC of the command's frame, elsewhere this node, 0x0000 as in a relayed
reply (R273, notes/assumptions/50). -/
def replyTarget (o : Origin) : Nat := if o.ep = .line then o.src else 0

/-- The header of a reply (Tables 10.1, 10.9). -/
def replyHeader (s : State) (o : Origin) (status len : Nat) (mac : Bool) : List Byte :=
  if o.v1 then
    beBytes 1 (0x18 + Nat.land o.flags 2) ++ beBytes 1 o.op ++ beBytes 1 o.tag ++ beBytes 1 status ++ beBytes 2 len ++
      beBytes 2 (replyTarget o) ++ beBytes 2 (ownAddr s) ++ beBytes 2 o.seq
  else
    beBytes 1 (0x28 + ofBool mac * 4 + Nat.land o.flags 3) ++ beBytes 1 o.op ++ beBytes 1 o.tag ++ beBytes 1 status ++
      beBytes 2 len ++ beBytes 2 (replyTarget o) ++ beBytes 2 (ownAddr s) ++ beBytes 2 o.session ++ beBytes 4 o.seq

/-- The header bytes a MAC covers (R271): bytes 2, 6, 7, 8 and 9 taken as zero. -/
def macHeader (h : List Byte) : List Byte := h.take 2 ++ [0] ++ (h.drop 3).take 3 ++ [0, 0, 0, 0] ++ (h.drop 10).take 6

/-- The MAC trailer under a session key (R271). -/
def macOf (key h body : List Byte) : List Byte := (beBytes 16 (Config.aesCmac key (macHeader h ++ body)).toNat).take 8

def sessionOf (s : State) (n : Nat) : Option Session := (s.cmd.sessions.filter fun x => x.num == n).head?

/-- The flight of a command. -/
def sameFlight (o : Origin) (f : Flight) : Bool := f.o.ep == o.ep && f.o.tag == o.tag && (o.ep != .line || f.o.src == o.src)

/-- A command's tag is freed (R263). -/
def dropFlight (o : Origin) (s : State) : State :=
  updCmd (fun c => { c with flights := c.flights.filter fun f => !sameFlight o f, lost := c.lost.filter (· != (o.ep, o.tag)) }) s

/-- The command has completed; its reply, which waits, holds the tag (R263). -/
def completeFlight (o : Origin) (s : State) : State :=
  updCmd (fun c => { c with flights := c.flights.map fun f => if sameFlight o f then { f with stage := 2 } else f }) s

/-- A reply as it waits at its attachment; that of a refused command holds no tag (R262). -/
def replyOf (held : Bool) (o : Origin) (bytes : List Byte) : Reply :=
  { att := o.att, ep := o.ep, tag := o.tag, session := o.session, bytes := bytes, held := held }

/-- The attachment cannot take a reply at once: HSPI and EP2 take it when they are read, the mailbox when RSP_BUF is free. -/
def replyWaits (s : State) (o : Origin) : Bool := o.att == .hspi || o.att == .usb || (o.att == .mbox && s.hostIf.rsp.isSome)

/-- A reply goes to the attachment of its command (R259 to R261): a frame from P16, RSP_BUF with its vector, or the end of the
replies that wait. A broadcast and the boot script have none (R274). -/
def sendReply (held : Bool) (o : Origin) (bytes : List Byte) (s : State) : State :=
  match o.att with
  | .script => s
  | .frame => if o.bcast then s else sendUnpoliced o.src o.tun 6 1 (o.xpr && bytes.length ≤ 116) bytes s
  | _ =>
    if replyWaits s o then updCmd (fun c => { c with replies := c.replies ++ [replyOf held o bytes] }) s
    else msix 0 { s with hostIf := { s.hostIf with rsp := some (replyOf held o bytes) } }

/-- The reply of an accepted command: its tag is free once the attachment has taken it whole (R263). The reply of a command whose
attachment is lost goes to the orphan holder (R275). -/
def deliver (o : Origin) (bytes : List Byte) (s : State) : State :=
  if s.cmd.lost.contains (o.ep, o.tag) then
    updCmd (fun c => { c with orphans := c.orphans ++ [(o.ep, o.tag, bytes, o.session)] }) (dropFlight o s)
  else sendReply true o bytes (if replyWaits s o then completeFlight o s else dropFlight o s)

/-- A reply of this kind carries no MAC (R258): session 0, a v1 header, ST_NO_SESSION, ST_MAC_FAIL, and SESSION_OPEN, whose ST_OK reply
is built apart. -/
def macLess (o : Origin) (status : Nat) : Bool := o.session == 0 || o.v1 || status == ST_NO_SESSION || status == ST_MAC_FAIL || o.op == 0xF0

/-- The reply to a command with a status and a body (R256 to R258). A QUIET command with ST_OK frees its tag and sends
none; a command in a session is answered with a MAC under the session's key. -/
def reply (o : Origin) (status : Nat) (body : List Byte) (s : State) : State :=
  if bit 1 o.flags && status == ST_OK then dropFlight o s
  else
    match (if macLess o status then none else sessionOf s o.session) with
    | none => deliver o (replyHeader s o status body.length false ++ body) s
    | some x =>
      let h := replyHeader s o status body.length true
      deliver o (h ++ body ++ macOf x.key h body) s

/-- The execution unit of an opcode (R264): the register arbiter, the Forager, the bridge, the domain controller, the time and trigger
unit, the image controller, and for the other groups the unit of the chapter that owns them. -/
def commandUnit (op : Nat) : Nat :=
  if op < 0x07 then 0x00
  else if op = 0x08 ∨ 0xF0 ≤ op then 0x08
  else if op = 0x18 ∨ 0x20 ≤ op ∧ op < 0x30 then 0x10
  else if op = 0x54 ∨ op = 0x55 then 0x54
  else if 0x58 ≤ op ∧ op < 0x60 then 0x58
  else op / 16 * 16

/-- A command of the engine begins (R264): the commands of an entry point in acceptance order, one at a time in a unit, with ORDER once
every earlier command has completed. Nothing is dispatched while the LD is held in reset (R45). -/
def mayDispatch (s : State) (o : Origin) : Bool :=
  !s.supplyHold &&
  let mine := s.cmd.flights.filter fun f => f.o.ep == o.ep
  !mine.any (sameFlight o) ||
    (mine.takeWhile fun f => !sameFlight o f).all fun f =>
      f.stage == 2 || (f.stage != 0 && !bit 0 o.flags && (f.stage == 3 || commandUnit f.o.op != commandUnit o.op))

/-- A command is dispatched (R264): it is no longer waiting. -/
def dispatch (o : Origin) (s : State) : State :=
  updCmd (fun c => { c with flights := c.flights.map fun f => if sameFlight o f && f.stage == 0 then { f with stage := 1 } else f }) s

/-- Runs an opcode whose body has `n` bytes (R264, R278): it waits at dispatch behind ORDER, and a body of another length
is ST_BAD_LEN. -/
def command (o : Origin) (body : List Byte) (n : Nat) (f : State → State) (s : State) : Res :=
  if !mayDispatch s o then .next s
  else
    let s := dispatch o s
    if body.length ≠ n then .next (reply o ST_BAD_LEN [] s) else .next (f s)

/-! Shapers (R181 to R186). -/

def shpEN (c : Word) : Bool := bit 31 c.toNat
def shpTOKRST (c : Word) : Bool := bit 30 c.toNat
def shpUNIT (c : Word) : Bool := bit 29 c.toNat
def shpRATE (c : Word) : Nat := bits 17 0 c.toNat
def shpOVH (b : Word) : Int := signed 8 (b.toNat / 2 ^ 24)

/-- BURST x 8,000 units (R185). -/
def fullTokens (b : Word) : Int := burstBytes b * 8000

/-- TOKENS now: RATE units per ns, at most BURST x 8,000 (R185). -/
def tokensNow (s : State) (x : Shaper) : Int := min (fullTokens x.burst) (x.tokens + shpRATE x.cfg * (s.now - x.last : Nat))

/-- A charge of `b` bytes (R185): never below minus BURST x 8,000. -/
def charge (s : State) (x : Shaper) (b : Nat) : Shaper :=
  { x with tokens := max (-fullTokens x.burst) (tokensNow s x - 8000 * b), last := s.now }

def shaper (s : State) (i : Nat) : Shaper := Tab.get shaperReset s.sched.shapers i
def setShaper (i : Nat) (x : Shaper) (s : State) : State := updSched (fun c => { c with shapers := Tab.set shaperReset i x c.shapers }) s
def policer (s : State) (i : Nat) : Shaper := Tab.get policerReset s.sched.policers i
def setPolicer (i : Nat) (x : Shaper) (s : State) : State :=
  updSched (fun c => { c with policers := Tab.set policerReset i x c.policers }) s

/-- The shaper permits (R185): TOKENS at or above 0, or disabled. -/
def permits (s : State) (x : Shaper) : Bool := !shpEN x.cfg || 0 ≤ tokensNow s x

/-- What a cell is charged and the shortfall that is left (R181): VLEN, and OVH with the first cell. -/
def cellCharge (ovh : Int) (short : Nat) (c : Cell) : Nat × Nat :=
  if c.f then
    let v : Int := c.vlen + ovh
    if v < 0 then (0, v.natAbs) else (v.toNat, 0)
  else if c.vlen < short then (0, short - c.vlen) else (c.vlen - short, 0)

/-- The charge of an instance with its UNIT (R181). -/
def unitCharge (x : Shaper) (short : Nat) (c : Cell) : Nat × Nat :=
  if shpUNIT x.cfg then (128, 0) else cellCharge (shpOVH x.burst) short c

/-- The counted length of a frame of `n` bytes (R181). -/
def countedLen (ovh : Int) (n : Nat) : Nat := (max 0 ((n : Int) + ovh)).toNat

/-- Table 6.2 has the index. -/
def shaperUsed (i : Nat) : Bool := i < 0x88 || (0x100 ≤ i && i ≤ 0x110) || (0x200 ≤ i && i < 0x1000)

/-- The slot whose die holds an origin shaper; 0 the LD (Table 6.2). -/
def shaperSlot (i : Nat) : Nat := if 0x200 ≤ i ∧ i < 0xE00 then (i - 0x200) / 0x200 + 2 else 0

/-- TOKENS after an APPLY (R192): full, 0 with TOKRST, and 0 for a shaper under COMPAT_LH4. -/
def appliedTokens (s : State) (isShaper : Bool) (cfg burst : Word) : Int :=
  if shpTOKRST cfg || (isShaper && compat s) then 0 else fullTokens burst

/-- RATE lies in 1 to 200,000 (R192). -/
def rateOk (cfg : Word) : Bool := 0 < shpRATE cfg && shpRATE cfg ≤ 200000

/-- The status of an APPLY to shaper `i` (R192, R186, R5). -/
def shaperCheck (s : State) (i : Nat) (cfg : Word) : Nat :=
  if !rateOk cfg || !shaperUsed i || (i < 0x88 && 6 ≤ i % 8 && shpEN cfg) then ST_BAD_PARAM
  else
    let sl := shaperSlot i
    if sl = 0 then ST_OK
    else if !present s sl || linkState s sl == 4 then ST_NO_DIE
    else if domSt s (0x10 + sl) == .resetting || domSt s (0x10 + sl) == .off then ST_BUSY
    else ST_OK

/-- A register word with only the field bits of SHP_CFG or SHP_BURST. -/
def maskW (m : Nat) (v : Word) : Word := BitVec.ofNat 32 (Nat.land v.toNat m)

/-- APPLY to a shaper (R192). -/
def applyShaper (i : Nat) (cfg burst : Word) (s : State) : Nat × State :=
  let st := shaperCheck s i cfg
  if st = ST_OK then
    (ST_OK, setShaper i { cfg := maskW 0xE003FFFF cfg, burst := maskW 0xFF00FFFF burst, tokens := appliedTokens s true cfg burst,
                          last := s.now } s)
  else (st, s)

/-- APPLY to a policer (R187, R192). -/
def applyPolicer (i : Nat) (cfg burst : Word) (s : State) : Nat × State :=
  if rateOk cfg && i != 0 && i < 4096 then
    (ST_OK, setPolicer i { cfg := maskW 0xC003FFFF cfg, burst := maskW 0xFF00FFFF burst, tokens := appliedTokens s false cfg burst,
                           last := s.now } s)
  else (ST_BAD_PARAM, s)

/-- A requester's staging word (R191). -/
def staged (s : State) (r : EntryPoint) (f : Fld) : Word := regGet s (f.mine r).addr

/-- SHP_CTL.APPLY by a requester (R192). -/
def shpCtlApply (r : EntryPoint) (s : State) : Nat × State :=
  applyShaper (rd (Reg.SCH.SEL.INDEX.mine r) s) (staged s r Reg.SCH.SHP_CFG.word) (staged s r Reg.SCH.SHP_BURST.word) s

/-- SHP_CTL_APPLY (R192). -/
def execShpCtlApply (req : EntryPoint) (s : State) : Res :=
  access Reg.SCH.SHP_CTL.word.addr (fun s => (shpCtlApply req s).2) s

/-- SHP_CTL.LOAD by a requester (R192): nothing for an unused index. -/
def shpCtlLoad (r : EntryPoint) (s : State) : State :=
  let i := rd (Reg.SCH.SEL.INDEX.mine r) s
  if shaperUsed i then
    regSet (regSet s (Reg.SCH.SHP_CFG.word.mine r).addr (shaper s i).cfg) (Reg.SCH.SHP_BURST.word.mine r).addr (shaper s i).burst
  else s

/-- SHP_CTL_LOAD (R192). -/
def execShpCtlLoad (req : EntryPoint) (s : State) : Res :=
  access Reg.SCH.SHP_CTL.word.addr (fun s => shpCtlLoad req s) s

/-- POL_CTL.APPLY by a requester (R192). -/
def polCtlApply (r : EntryPoint) (s : State) : Nat × State :=
  applyPolicer (rd (Reg.GRD.SEL.INDEX.mine r) s) (staged s r Reg.GRD.POL_CFG.word) (staged s r Reg.GRD.POL_BURST.word) s

/-- POL_CTL_APPLY (R192). -/
def execPolCtlApply (req : EntryPoint) (s : State) : Res :=
  access Reg.GRD.POL_CTL.word.addr (fun s => (polCtlApply req s).2) s

/-- POL_CTL.LOAD by a requester (R192): nothing for the pass policer. -/
def polCtlLoad (r : EntryPoint) (s : State) : State :=
  let i := rd (Reg.GRD.SEL.INDEX.mine r) s
  if i = 0 then s
  else regSet (regSet s (Reg.GRD.POL_CFG.word.mine r).addr (policer s i).cfg) (Reg.GRD.POL_BURST.word.mine r).addr (policer s i).burst

/-- POL_CTL_LOAD (R192). -/
def execPolCtlLoad (req : EntryPoint) (s : State) : Res :=
  access Reg.GRD.POL_CTL.word.addr (fun s => polCtlLoad req s) s

/-- A write of the express budget registers reconfigures its policer (R189, R192). -/
def applyXb (cfg burst : Word) (s : State) : State :=
  updSched (fun c => { c with xb := { cfg := cfg, burst := burst, tokens := appliedTokens s false cfg burst, last := s.now } }) s

/-- A write to GRD.XB_CFG (R189): refused where RATE is 0 or above 200,000. -/
def xbCfgWrite (v : Word) (s : State) : Nat × State :=
  let v := maskW 0xC003FFFF v
  if rateOk v then (ST_OK, applyXb v (regGet s Reg.GRD.XB_BURST.word.addr) (regSet s Reg.GRD.XB_CFG.word.addr v)) else (ST_BAD_PARAM, s)

/-- XB_CFG_WRITE (R189). -/
def execXbCfgWrite (v : Word) (s : State) : Res :=
  access Reg.GRD.XB_CFG.word.addr (fun s => (xbCfgWrite v s).2) s

/-- A write to GRD.XB_BURST (R189). -/
def xbBurstWrite (v : Word) (s : State) : State :=
  let v := maskW 0xFF00FFFF v
  applyXb (regGet s Reg.GRD.XB_CFG.word.addr) v (regSet s Reg.GRD.XB_BURST.word.addr v)

/-- XB_BURST_WRITE (R189). -/
def execXbBurstWrite (v : Word) (s : State) : Res :=
  access Reg.GRD.XB_BURST.word.addr (fun s => xbBurstWrite v s) s

/-- TOKENS in bytes, rounded toward minus infinity, as a 32-bit field (R196). -/
def tokenBytes (s : State) (x : Shaper) : Word := BitVec.ofInt 32 (tokensNow s x / 8000)

/-- SHP_APPLY (R281). -/
def execShpApply (o : Origin) (body : List Byte) (s : State) : Res :=
  command o body 12 (fun s =>
    if !zeroAt body 2 2 || 4096 ≤ field body 0 2 then reply o ST_BAD_PARAM [] s
    else
      let r := applyShaper (field body 0 2) (BitVec.ofNat 32 (field body 4 4)) (BitVec.ofNat 32 (field body 8 4)) s
      reply o r.1 [] r.2) s

/-- SHP_GET (R281): an unused index is ST_BAD_PARAM. -/
def execShpGet (o : Origin) (body : List Byte) (s : State) : Res :=
  command o body 4 (fun s =>
    let i := field body 0 2
    if !zeroAt body 2 2 || !shaperUsed i then reply o ST_BAD_PARAM [] s
    else if shaperSlot i ≠ 0 ∧ present s (shaperSlot i) = false then reply o ST_NO_DIE [] s
    else
      let x := shaper s i
      reply o ST_OK (beBytes 4 x.cfg.toNat ++ beBytes 4 x.burst.toNat ++ beBytes 4 (tokenBytes s x).toNat) s) s

/-- POL_APPLY (R281). -/
def execPolApply (o : Origin) (body : List Byte) (s : State) : Res :=
  command o body 12 (fun s =>
    if !zeroAt body 2 2 then reply o ST_BAD_PARAM [] s
    else
      let r := applyPolicer (field body 0 2) (BitVec.ofNat 32 (field body 4 4)) (BitVec.ofNat 32 (field body 8 4)) s
      reply o r.1 [] r.2) s

/-- POL_GET (R281). -/
def execPolGet (o : Origin) (body : List Byte) (s : State) : Res :=
  command o body 4 (fun s =>
    let i := field body 0 2
    if !zeroAt body 2 2 || i == 0 || 4096 ≤ i then reply o ST_BAD_PARAM [] s
    else
      let x := policer s i
      reply o ST_OK (beBytes 4 x.cfg.toNat ++ beBytes 4 x.burst.toNat ++ beBytes 4 (tokenBytes s x).toNat) s) s

/-! High-water marks (R195). -/

/-- The marks of queue `q`; 0 above 143. -/
def hwmOcc (s : State) (q : Nat) : Nat := if q < 144 then Tab.get zeroN s.comb.hwmOcc q else 0
def hwmSoj (s : State) (q : Nat) : Nat := if q < 144 then Tab.get zeroN s.comb.hwmSoj q else 0
def clearOcc (q : Nat) (s : State) : State := updComb (fun c => { c with hwmOcc := Tab.set zeroN q 0 c.hwmOcc }) s
def clearSoj (q : Nat) (s : State) : State := updComb (fun c => { c with hwmSoj := Tab.set zeroN q 0 c.hwmSoj }) s

/-- A read of SCH.HWM_OCC: the mark, then cleared. -/
def readHwmOcc (r : EntryPoint) (s : State) : Word × State :=
  let q := rd (Reg.SCH.HWM_SEL.QUEUE.mine r) s
  (BitVec.ofNat 32 (hwmOcc s q), clearOcc q s)

/-- A read of SCH.HWM_SOJ: the mark, then cleared. -/
def readHwmSoj (r : EntryPoint) (s : State) : Word × State :=
  let q := rd (Reg.SCH.HWM_SEL.QUEUE.mine r) s
  (BitVec.ofNat 32 (hwmSoj s q), clearSoj q s)

/-- What a direct register read returned. -/
def returned (x : Word × State) : State := { x.2 with lastRead := x.1 }

/-- HWM_OCC_READ (R195). -/
def execHwmOccRead (req : EntryPoint) (s : State) : Res :=
  access Reg.SCH.HWM_OCC.word.addr (fun s => returned (readHwmOcc req s)) s

/-- HWM_SOJ_READ (R195). -/
def execHwmSojRead (req : EntryPoint) (s : State) : Res :=
  access Reg.SCH.HWM_SOJ.word.addr (fun s => returned (readHwmSoj req s)) s

/-- HWM_READ (R281). -/
def execHwmRead (o : Origin) (body : List Byte) (s : State) : Res :=
  command o body 4 (fun s =>
    let q := field body 0 1
    if !zeroAt body 1 3 || 144 ≤ q then reply o ST_BAD_PARAM [] s
    else reply o ST_OK (beBytes 4 (hwmOcc s q) ++ beBytes 4 (hwmSoj s q)) (clearOcc q (clearSoj q s))) s

/-! The express monitor (R190). -/

/-- EXPRESS_MONITOR_WINDOW (R190): each port above XTH x 16 cells is marked; XBUDGET_OVER is raised once. -/
def execExpressMonitorWindow (s : State) : Res :=
  let th := rd Reg.GRD.XMON.XTH s * 16
  let above := (List.range 4).filter fun n => th != 0 && decide (th < (lp s n).xwin)
  let s := forAll [0, 1, 2, 3] (fun n s => updLp n (fun p => { p with xwin := 0 }) s) s
  if above = [] then .next s
  else .next (raise srcXBUDGET_OVER (orF Reg.GRD.XMSTAT.OVER (above.foldl (fun a n => a + 2 ^ n) 0) s))

/-! Guard (R187 to R189, R210). -/

/-- A cell counts against the express budget (R189): TC7, or TC6 with XPR = 1. -/
def expressCell (c : Cell) : Bool := c.tc == 7 || (c.tc == 6 && c.xpr)

/-- The frame open at Guard for an ingress, tunnel and class. -/
def openFrame (s : State) (inp : Nat) (c : Cell) : Option GuardFrame :=
  (s.sched.open_.filter fun g => g.inp == inp && g.tun == c.tun && g.tc == c.tc).head?

def putOpen (g : GuardFrame) (s : State) : State :=
  updSched (fun x => { x with open_ := x.open_.filter (fun h => !(h.inp == g.inp && h.tun == g.tun && h.tc == g.tc)) ++ [g] }) s

def closeOpen (inp : Nat) (c : Cell) (s : State) : State :=
  updSched (fun x => { x with open_ := x.open_.filter fun h => !(h.inp == inp && h.tun == c.tun && h.tc == c.tc) }) s

/-- XPR as the entry gives it: a frame of an express tunnel that needs more than one cell has XPR = 0 (R212). -/
def sameXpr (e : Nat) (c : Cell) : Bool := orgXPR e == c.xpr || (orgXPR e && !c.xpr && !c.l)

/-- The origin check of a first cell from P4 to P15 (R210). A repeater maps no tributary traffic to tunnels (R10). -/
def originCheck (s : State) (inp : Nat) (c : Cell) : Bool :=
  let e := entry s 2 c.tun
  orgV e && orgOSLOT e == portSlot inp && orgTYP e == c.typ && orgTC e == c.tc && sameXpr e c && orgDST e == c.dst &&
    c.tun != 0 && !isRepeater s && (c.src == ownAddr s || c.src == s.topo.prevAddr) && !bit 31 (entry s 3 c.tun)

/-- An origin-check failure is counted (R188, R210). -/
def originFail (inp : Nat) (s : State) : State :=
  wr Reg.TUN.ERR.ORIG 1 (if inp < 16 then count (cTUN (18 + portSlot inp)) s else s)

/-- The counted length a BRG read request adds at its first cell (R223): the data that the read returns. -/
def readExtra (c : Cell) : Nat :=
  if c.typ = 4 ∧ c.f = true ∧ field c.payload 0 1 / 16 = 2 then field c.payload 4 2 else 0

/-- Charges one cell of an admitted frame to its policers and counts GRN_BYTE (R181, R188, R189). -/
def chargeGreen (g : GuardFrame) (c : Cell) (s : State) : GuardFrame × State :=
  let (g, s) := if g.policer = 0 then (g, s)
    else
      let x := policer s g.policer
      let (b, sh) := cellCharge (shpOVH x.burst) g.short { c with vlen := c.vlen + readExtra c }
      ({ g with short := sh }, countBy (cGRD (3 * g.policer)) b (setPolicer g.policer (charge s x b) s))
  if g.express then
    let x := s.sched.xb
    let (b, sh) := cellCharge (shpOVH x.burst) g.xshort c
    ({ g with xshort := sh }, updSched (fun q => { q with xb := charge s x b }) s)
  else (g, s)

/-- Counts one cell of a refused frame by the policer that refused it: RED_FRM or XB_DROP_FRM at the first cell, the
counted length as its cells arrive (R188, R189). -/
def countRed (g : GuardFrame) (c : Cell) (s : State) : GuardFrame × State :=
  if g.by_ = 1 then
    let x := policer s g.policer
    let (b, sh) := cellCharge (shpOVH x.burst) g.short { c with vlen := c.vlen + readExtra c }
    let s := if c.f then count (cGRD (3 * g.policer + 1)) s else s
    ({ g with short := sh }, countBy (cGRD (3 * g.policer + 2)) b s)
  else if g.by_ = 2 then
    let (b, sh) := cellCharge (shpOVH s.sched.xb.burst) g.xshort c
    let s := if c.f then count (cGRD 12288) s else s
    ({ g with xshort := sh }, countBy (cGRD 12289) b s)
  else (g, s)

/-- Guard's decision for a cell from P4 to P16 (R188, R189, R210): whether it is admitted. -/
def guard (inp : Nat) (c : Cell) (s : State) : Bool × State :=
  let finish := fun (g : GuardFrame) (s : State) => if c.l then closeOpen inp c s else putOpen g s
  if c.f then
    if inp < 16 ∧ originCheck s inp c = false then
      let g : GuardFrame := { inp := inp, tun := c.tun, tc := c.tc, letIn := false, policer := 0, by_ := 3, express := false,
                              short := 0, xshort := 0 }
      (false, finish g (originFail inp s))
    else if bit 31 (entry s 3 c.tun) then
      let g : GuardFrame := { inp := inp, tun := c.tun, tc := c.tc, letIn := false, policer := 0, by_ := 3, express := false,
                              short := 0, xshort := 0 }
      (false, finish g (originFail inp s))
    else
      let i := bits 11 0 (entry s 3 c.tun)
      let express := expressCell c && !isRingCell c
      let pol := policer s i
      let okP := i == 0 || !shpEN pol.cfg || 0 ≤ tokensNow s pol
      let okX := !express || !shpEN s.sched.xb.cfg || 0 ≤ tokensNow s s.sched.xb
      let g : GuardFrame := { inp := inp, tun := c.tun, tc := c.tc, letIn := okP && okX, policer := i,
                              by_ := if !okP then 1 else if !okX then 2 else 0, express := express, short := 0, xshort := 0 }
      let r := if g.letIn then chargeGreen g c s else countRed g c s
      (g.letIn, finish r.1 r.2)
  else
    match openFrame s inp c with
    | none => (false, originFail inp s)
    | some g =>
      let r := if g.letIn then chargeGreen g c s else countRed g c s
      (g.letIn, finish r.1 r.2)

/-! DWRR (R182, R183). -/

def dwrr (s : State) (p : Nat) : Dwrr := Tab.get (fun _ => Dwrr.reset) s.sched.dwrr p
def setDwrr (p : Nat) (d : Dwrr) (s : State) : State :=
  updSched (fun x => { x with dwrr := Tab.set (fun _ => Dwrr.reset) p d x.dwrr }) s

/-- The quantum of class `k` (1 to 4) of port `p` in bytes; a field of 0 is treated as 1 (R196). -/
def quantum (s : State) (p k : Nat) : Nat :=
  let q := rd ⟨(Reg.SCH.DWRR.word p).addr, 8 * (k - 1), 8⟩ s
  128 * (if q = 0 then 1 else q)

/-- A class joins the round when its queue gains a cell while empty, with DC = 0, after the class that holds the turn
(R183). -/
def dwrrJoin (p k : Nat) (s : State) : State :=
  let d := dwrr s p
  if k < 1 ∨ 4 < k ∨ d.active.contains k then s
  else setDwrr p { d with active := k :: d.active, deficit := Tab.set (fun _ => 0) k 0 d.deficit } s

/-- A class whose queue is empty leaves the round (R183). -/
def dwrrLeave (p k : Nat) (s : State) : State :=
  let d := dwrr s p
  if d.active.contains k then
    setDwrr p { d with active := d.active.filter (· != k), deficit := Tab.set (fun _ => 0) k 0 d.deficit,
                       turn := d.turn && d.cur != k } s
  else s

/-- The next class after `k` in the order TC4, TC3, TC2, TC1. -/
def nextClass (k : Nat) : Nat := if k ≤ 1 then 4 else k - 1

/-- The class DWRR serves and whether its turn opens now (R182): `fuel` classes are tried from `k`. -/
def dwrrPick (d : Dwrr) (eligible : Nat → Bool) : Nat → Nat → Option (Nat × Bool)
  | 0, _ => none
  | f + 1, k => if d.active.contains k && eligible k then some (k, true) else dwrrPick d eligible f (nextClass k)

/-- One decision of the DWRR group of port `p` (R182). -/
def dwrrChoose (s : State) (p : Nat) (eligible : Nat → Bool) : Option (Nat × Bool) :=
  let d := dwrr s p
  if d.turn && d.active.contains d.cur && eligible d.cur then some (d.cur, false)
  else dwrrPick d eligible 4 (nextClass d.cur)

/-- DWRR accounting of the cell sent from class `k` with its charge (R182). -/
def dwrrSent (p k : Nat) (opens : Bool) (chg : Nat) (emptied : Bool) (s : State) : State :=
  let d := dwrr s p
  let dc := Tab.get (fun _ => (0 : Int)) d.deficit k + (if opens then (quantum s p k : Int) else 0) - chg
  setDwrr p { d with cur := k, deficit := Tab.set (fun _ => 0) k dc d.deficit, turn := !(dc ≤ 0 || emptied) } s

end Sys2Proof.Machine
end

