-- ==== Sys2Proof/Machine/CombOps.lean ====
section
/-! DEFINITION. The operations of the Comb that several families share: lists, occupancy, the free pool, back-pressure, spill,
ageing, discards, mode changes and recall (R154 to R172). -/
namespace Sys2Proof.Machine

/-! Modes (R165 to R168). -/

/-- CMB.STAT.MODE: 0 SHARED, 1 VOQ, 2 entering VOQ, 3 leaving VOQ. -/
def combMode (s : State) : Nat := rd Reg.CMB.STAT.MODE s

/-- New cells go to VOQs. -/
def voqOn (s : State) : Bool := combMode s == 1 || combMode s == 2

/-- The index of the VOQ of an input, an output and a class. -/
def voqKey (i o c : Nat) : Nat := (18 * i + o) * 8 + c

def voqOf (s : State) (k : Nat) : List QEnt := Tab.get noCells s.comb.voq k
def setVoq (k : Nat) (l : List QEnt) (s : State) : State := updComb (fun c => { c with voq := Tab.set noCells k l c.voq }) s
def voqParkOf (s : State) (i : Nat) : List QEnt := Tab.get noCells s.comb.voqPark i
def setVoqPark (i : Nat) (l : List QEnt) (s : State) : State :=
  updComb (fun c => { c with voqPark := Tab.set noCells i l c.voqPark }) s
def aheadOf (s : State) (o : Nat) : List QEnt := Tab.get noCells s.comb.ahead o
def setAhead (o : Nat) (l : List QEnt) (s : State) : State := updComb (fun c => { c with ahead := Tab.set noCells o l c.ahead }) s
def spillOf (s : State) (q : Nat) : List QEnt := Tab.get noCells s.comb.spill q
def setSpill (q : Nat) (l : List QEnt) (s : State) : State := updComb (fun c => { c with spill := Tab.set noCells q l c.spill }) s
def stagingOf (s : State) (i : Nat) : List Staged := Tab.get noCells s.comb.staging i
def setStaging (i : Nat) (l : List Staged) (s : State) : State :=
  updComb (fun c => { c with staging := Tab.set noCells i l c.staging }) s

/-- All cells of a table of lists. -/
def cellsOf {α : Type} (t : Tab (List α)) : List α := (t.map fun e => e.2).flatten

/-- The first list, by number, with a cell that passes: its number and the list. -/
def listWith (p : QEnt → Bool) (t : Tab (List QEnt)) : Option (Nat × List QEnt) := (t.filter fun x => x.2.any p).head?

/-! Link memory (R153, R154). -/

/-- A link-memory entry (Table 5.1), with its CRC-8 above bit 63: that of cell `e`, the next cell of whose list lies at `next`. -/
def linkWord (next : Nat) (e : QEnt) : Nat :=
  let v := next % 2 ^ 18 * 2 ^ 46 + e.stamp % 2 ^ 24 * 2 ^ 22 + e.inp % 32 * 2 ^ 17 + e.cell.tc % 8 * 2 ^ 14 + ofBool e.xc * 2 ^ 13 +
    e.xseq % 2 ^ 12 * 2
  crc8 64 v * 2 ^ 64 + v

/-- The link-memory entries of a list, each with the address it lies at. The spec states no NEXT for the last one; here it is its own
address (notes/assumptions/47). -/
def listWords : List QEnt → List (Nat × Nat)
  | [] => []
  | [e] => [(e.addr, linkWord e.addr e)]
  | e :: f :: l => (e.addr, linkWord f.addr e) :: listWords (f :: l)

/-- The descriptor of a list (R154): HEAD, TAIL and COUNT from the top down, with the CRC-8 of R64 above them
(notes/assumptions/47). -/
def descWord (l : List QEnt) : Nat :=
  let v := (l.head?.elim 0 (·.addr)) % 2 ^ 18 * 2 ^ 37 + (l.getLast?.elim 0 (·.addr)) % 2 ^ 18 * 2 ^ 19 + l.length % 2 ^ 19
  crc8 55 v * 2 ^ 55 + v

/-- The CRC-8 of a link-memory entry or of a descriptor read does not fit its other bits (R153, R154). -/
def linkBad (r : LinkRead) : Bool :=
  match r with
  | .entry _ w => crc8 64 (w.toNat % 2 ^ 64) != w.toNat / 2 ^ 64
  | .outDesc _ _ w | .parkDesc _ _ w => crc8 55 (w.toNat % 2 ^ 55) != w.toNat / 2 ^ 55

/-- The VOQ index entries in use, of 49,152 (Table 5.2). -/
def voqTotal (s : State) : Nat := (cellsOf s.comb.voq ++ cellsOf s.comb.voqPark).length

/-- Some output queue holds a cell, in the Comb or in its spill FIFO. -/
def queuesHeld (s : State) : Bool := cellsOf s.comb.outQ != [] || cellsOf s.comb.spill != []

/-- Some VOQ holds a cell, read ahead or not. A cell without a route counts: the spec does not say what becomes of it at the exit from
VOQ mode, and here MODE stays 3 until it finds a route or ages (notes/assumptions/47). -/
def voqsHeld (s : State) : Bool := cellsOf s.comb.voq != [] || cellsOf s.comb.ahead != [] || cellsOf s.comb.voqPark != []

/-- The mode that follows from the causes and the lists that hold cells (R167, R168). A change that has begun ends before another
begins, so that no cell passes an older one of its input, output and class (notes/assumptions/47). -/
def settleMode (s : State) : State :=
  let cause := s.comb.vcauses != []
  match combMode s with
  | 0 => if cause then wr Reg.CMB.STAT.MODE (if queuesHeld s then 2 else 1) s else s
  | 1 => if cause then s else wr Reg.CMB.STAT.MODE (if voqsHeld s then 3 else 0) s
  | 2 => if queuesHeld s then s else wr Reg.CMB.STAT.MODE (if cause then 1 else if voqsHeld s then 3 else 0) s
  | _ => if voqsHeld s then s else wr Reg.CMB.STAT.MODE (if !cause then 0 else if queuesHeld s then 2 else 1) s

/-- The Comb is held in VOQ mode for one more cause (Table 5.6); the entry raises VOQ_ENTER. With several causes VCAUSE shows the first
that still holds, and a further cause is no entry (notes/assumptions/47). -/
def enterVoq (cause : Nat) (s : State) : State :=
  if s.comb.vcauses.contains cause then s
  else
    let first := s.comb.vcauses.isEmpty
    let s := updComb (fun c => { c with vcauses := c.vcauses ++ [cause] }) s
    if first then raise srcVOQ_ENTER (wr Reg.CMB.STAT.VCAUSE cause (settleMode s)) else s

/-- A cause of VOQ mode ends; the mode is left when none holds (Tables 5.6, 5.9). -/
def leaveVoq (cause : Nat) (s : State) : State :=
  if s.comb.vcauses.contains cause then
    let s := updComb (fun c => { c with vcauses := c.vcauses.filter (· != cause) }) s
    settleMode (wr Reg.CMB.STAT.VCAUSE (s.comb.vcauses.headD 0) s)
  else s

/-! The budget (R157, R158). -/

/-- The receive reserve of line port `n`. -/
def lineReserve (s : State) (n : Nat) : Nat := pool s n 0 + pool s n 1 + pool s n 2 + pool s n 3

/-- The tributary dies present. -/
def tribs (s : State) : List Nat := [2, 3, 4, 5, 6, 7].filter (present s)

/-- The reserves of Table 5.4. -/
def reserves (s : State) : Nat :=
  lineReserve s 0 + lineReserve s 1 + lineReserve s 2 + lineReserve s 3 + 4 * (4096 + 1024) + (tribs s).length * 256 + 256 + 512

/-- Banks in service. -/
def banksIn (s : State) : List Nat := (List.range 16).filter (bankIn s)

/-- Cells of a switch port's ingress that still wait outside the lists, not charged to a line receive reserve: those of a line port
whose link has failed (R125). -/
def heldFree (s : State) (i : Nat) : List Cell :=
  if i < 4 then
    ((holdOf s i).filter fun h => !h.charged).map (·.cell) ++ ((stagingOf s i).filter fun x => !x.held.charged).map (·.held.cell)
  else []

/-- A parked cell counts in the shared pool: all but those still charged to a line receive reserve (R111, R125, R158). -/
def parkShared (e : QEnt) : Bool := 4 ≤ e.inp || !e.charged

/-- Cells held in the shared pool (R158): in output queues but not refilled, on park lists but not charged to a line port's
reserve, in VOQs, and cells of a failed link that wait. -/
def sharedUsed (s : State) : Nat :=
  ((cellsOf s.comb.outQ).filter fun e => !e.refill).length + ((cellsOf s.comb.park).filter parkShared).length +
    (cellsOf s.comb.voq).length + (cellsOf s.comb.ahead).length + (cellsOf s.comb.voqPark).length +
    ([0, 1, 2, 3].map fun i => (heldFree s i).length).sum

/-- CMB.FREE (R157): 0 until FL_READY. -/
def freeNow (s : State) : Nat :=
  if rdB Reg.CMB.STAT.FL_READY s then (banksIn s).length * 16384 - reserves s - sharedUsed s else 0

/-- OCC of an ingress class (R158): refilled cells count against P17. -/
def occ (s : State) (i c : Nat) : Nat :=
  ((cellsOf s.comb.outQ).filter fun e => (if e.refill then 17 else e.inp) == i && e.cell.tc == c).length +
    ((parkOf s (8 * i + c)).filter parkShared).length + ((heldFree s i).filter fun x => x.tc == c).length

/-- The ALPHA field of class `c`: ALPHA = 2^(v - 4). -/
def alphaField (s : State) (c : Nat) : Nat := rd ⟨Reg.CMB.BPCFG.word.addr, 3 * c, 3⟩ s

/-- The XOFF state of an ingress class after one evaluation of R158, in sixteenths of a cell. -/
def xoffNext (s : State) (free i c : Nat) : Bool :=
  let o := 16 * occ s i c
  let lim := 2 ^ alphaField s c * free
  if lim ≤ o then true
  else if o + 256 * rd Reg.CMB.HYST.HYST s < lim then false
  else Tab.get noB s.comb.xoff (8 * i + c)

/-- All ingress classes are evaluated (R158), but in VOQ mode (R166). -/
def updXoff (s : State) : State :=
  if voqOn s then s
  else
    let free := freeNow s
    let new := (List.range 144).foldl (fun t k => Tab.set noB k (xoffNext s free (k / 8) (k % 8)) t) []
    updComb (fun x => { x with xoff := new }) s

/-- The VOQ index entries of an input (R166). -/
def voqCount (s : State) (i : Nat) : Nat :=
  ((cellsOf s.comb.voq ++ cellsOf s.comb.voqPark).filter fun e => e.inp == i).length

/-- The VOQ quota of an input (R166). -/
def voqQuota (s : State) (i : Nat) : Nat := if i < 4 then lineReserve s i else 1024

/-- Copies that an input has staged and not yet written. -/
def stagedCopies (s : State) (i : Nat) : Nat := ((stagingOf s i).map fun x => x.copies.length).sum

/-- `n` more copies fit the quota of an input and the VOQ index (R154, R166). -/
def voqFits (s : State) (i n : Nat) : Bool :=
  voqCount s i + stagedCopies s i + n ≤ voqQuota s i && voqTotal s + stagedCopies s i + n ≤ 49152

/-- Ingress class `i`, `c` is one of those of a spilling queue that holds its new cells (R162): it has a cell in the queue or one that
is to join it. -/
def spillHolds (s : State) (i c : Nat) : Bool :=
  s.comb.spillFull.any fun x => x.1 % 8 == c &&
    ((outQ s x.1 ++ spillOf s x.1).any (fun e => e.inp == i) || (stagingOf s i).any fun y => y.copies.contains (some x.1))

/-- New cells of an ingress class are held (Table 5.5, R130, R137, R162, R166). -/
def classHeld (s : State) (i c : Nat) : Bool :=
  (parkOf s (8 * i + c)) != [] || (voqParkOf s i).any (fun e => e.cell.tc == c) ||
    (stagingOf s i).any (fun x => x.held.cell.tc == c && x.copies == [none]) ||
    (if voqOn s then !voqFits s i 1 else Tab.get noB s.comb.xoff (8 * i + c) || spillHolds s i c)

/-! Ageing and discards (R163, R170). -/

/-- The age limit of class `c` in ns; 0 never. -/
def ageLimit (s : State) (c : Nat) : Nat := min 1000000 (rd (Reg.CMB.AGE.LIMIT c) s) * 1000

/-- The cell has aged out (R163): a cell not older than its limit never has, one older than the limit plus 128 ns always
has. -/
def aged (s : State) (e : QEnt) : Bool :=
  ageLimit s e.cell.tc != 0 && ageLimit s e.cell.tc + 127 < Machine.ahead (2 ^ 31) (e.stamp * 128) s.now

/-- Another copy of an express cell received as `x` on port `i` still waits. -/
def copyLeft (s : State) (i x : Nat) : Bool :=
  let mine := fun e : QEnt => e.xc && e.inp == i && e.xseq == x
  (cellsOf s.comb.outQ).any mine || (cellsOf s.comb.voq).any mine || (cellsOf s.comb.ahead).any mine || (cellsOf s.comb.spill).any mine ||
    (stagingOf s i).any fun y => y.held.xseq == some x

/-- A copy of a cell under upstream custody is gone: with the last one its XSEQ is released (R121, R170). -/
def releaseCopy (e : QEnt) (s : State) : State := if e.xc && !copyLeft s e.inp e.xseq then releaseX e.inp e.xseq s else s

/-- The credit of a parked cell that leaves its park list (R111). -/
def uncharge (e : QEnt) (s : State) : State := if e.charged then freeCredit e.inp (ccOf e.cell.tc) s else s

/-- The list number of R170's counters and discards: an output queue, or 144 + 8 x ingress + class. -/
def parkList (i c : Nat) : Nat := 144 + 8 * i + c

def sameFrame (d : Discard) (k : Nat) (e : QEnt) : Bool := d.queue == k && d.inp == e.inp && d.src == e.cell.src && d.tun == e.cell.tun

def discardOf (s : State) (k : Nat) (e : QEnt) : Option Discard := (s.comb.discards.filter fun d => sameFrame d k e).head?

/-- The error-log entry of a discard after a detected error (R170 step 5), once. -/
def logDiscard (d : Discard) (s : State) : State :=
  if d.cause = 1 ∧ d.logged = false then
    logErr 0x0101 0 ((d.queue % 144) / 8 * 2 ^ 24 + d.queue % 8 * 2 ^ 16 + min 65535 d.count) s
  else s

/-- RING_BREAK of this node has left on the other ring port, or will not: the cells it holds are free (R146). -/
def ringGone (c : Cell) (s : State) : State :=
  if isRingCell c && c.src == ownAddr s && field c.payload 0 2 == 0x0101 then
    updTopo (fun t => { t with breakHold := t.breakHold.filter (· != field c.payload 4 1) }) s
  else s

/-- One cell of list `k` is discarded for cause `m` (0 AGE_DROP, 1 ERR_DROP, 2 FORCE_DROP) (R170 steps 1 to 5); `inComb` says
that it has a Comb address. The cell has been taken out of its list. -/
def discardCell (m k : Nat) (inComb : Bool) (e : QEnt) (s : State) : State :=
  let s := if inComb then freeAddr e.addr s else s
  let s := count (cCMB (144 * m + k % 144)) s
  let s := uncharge e (releaseCopy e s)
  let s := if k < 32 then ringGone e.cell s else s
  match discardOf s k e with
  | some d =>
    let d := { d with count := d.count + 1 }
    if e.cell.l then updComb (fun c => { c with discards := c.discards.filter fun x => !sameFrame x k e }) (logDiscard d s)
    else updComb (fun c => { c with discards := c.discards.map fun x => if sameFrame x k e then d else x }) s
  | none =>
    let d : Discard := { queue := k, inp := e.inp, src := e.cell.src, tun := e.cell.tun, cause := m, count := 1, logged := false }
    let s := if m = 1 then raise srcERR_DROP s else s
    if e.cell.l then logDiscard d s else updComb (fun c => { c with discards := c.discards ++ [d] }) s

/-- The log entries due when a first cell from ingress `i` arrives in list `k` (R170 step 5). -/
def endLogs (k i : Nat) (s : State) : State :=
  let s := forAll (s.comb.discards.filter fun d => d.queue == k && d.inp == i) logDiscard s
  updComb (fun c => { c with discards := c.discards.map fun d => if d.queue == k && d.inp == i then { d with logged := true } else d }) s

/-- One delivery from the drain set of queue `q` (R41). -/
def drainOne (q : Nat) (s : State) : State :=
  match portDom (q / 8) with
  | none => s
  | some d =>
    if 144 ≤ q then s else
    let x := dom s d
    if x.st = .quiescing then setDom d { x with drain := Tab.set zeroN q (Tab.get zeroN x.drain q - 1) x.drain } s else s

/-- A cell at the head of list `k` at its dequeue: it is discarded where it has aged out or belongs to the rest of a frame being
discarded, and else stays (R163, R170). -/
def atHead (k : Nat) (e : QEnt) (s : State) : Bool × State :=
  if aged s e then (false, discardCell 0 k true e s)
  else match discardOf s k e with
    | none => (true, s)
    | some d =>
      if e.cell.f then (true, updComb (fun c => { c with discards := c.discards.filter fun x => !sameFrame x k e }) (logDiscard d s))
      else (false, discardCell d.cause k true e s)

/-- The heads of list `k` that do not stay are discarded. Answers what is left. -/
def sift (k : Nat) : List QEnt → State → List QEnt × State
  | [], s => ([], s)
  | e :: l, s => match atHead k e s with
    | (true, s) => (e :: l, s)
    | (false, s) => sift k l (drainOne k s)

/-- As `sift`, for the read-ahead cells of output `p`, which have each left their VOQ. -/
def siftAhead (p : Nat) : List QEnt → State → List QEnt × State
  | [], s => ([], s)
  | e :: l, s => match atHead (8 * p + e.cell.tc) e s with
    | (true, s) =>
      let r := siftAhead p l s
      (e :: r.1, r.2)
    | (false, s) => siftAhead p l (drainOne (8 * p + e.cell.tc) s)

/-! Self-tests (R471, R477). -/

/-- The last run of a test, by 256 x TEST + DOMAIN. -/
def testRun (s : State) (k : Nat) : TestRun := Tab.get (fun _ => TestRun.reset) s.tests.runs k

def setTest (k : Nat) (x : TestRun) (s : State) : State :=
  { s with tests := { s.tests with runs := Tab.set (fun _ => TestRun.reset) k x s.tests.runs } }

/-- Test `k` runs. -/
def testRunning (s : State) (k : Nat) : Bool := (testRun s k).st == 1

/-- The slot of a test's DOMAIN: S0 for the line die and its line ports. -/
def testSlot (d : Nat) : Nat := if 0x11 ≤ d ∧ d ≤ 0x17 then d - 0x10 else 0

/-- Test `k` ends in PASS or FAIL; a failure is logged (R471). -/
def endTest (k : Nat) (pass : Bool) (result : List Byte) (s : State) : State :=
  let x := testRun s k
  let s := raise srcTEST_DONE (setTest k { x with st := if pass then 2 else 3, prog := 100, result := result } s)
  if pass then s else logErr 0x0601 (testSlot (k % 256)) (k * 2 ^ 16 + x.sub * 2 ^ 8) s

/-- Test `k` ends ABORTED with the RESULT gathered so far; how far a disruptive test had come, and what it had gathered, are free
values (R477). -/
def abortTest (k : Nat) (s : State) : State :=
  let x := testRun s k
  if x.st = 1 then
    match drawFree s with
    | (v, s) => match drawFree s with
      | (w, s) =>
        raise srcTEST_DONE (setTest k
          { x with st := 4, prog := v.toNat % 101, result := if 0x1000 ≤ k then beBytes 8 w.toNat else x.result } s)
  else s

/-! Detected errors of cells (R169, R123, R173). -/

/-- Bank `b` starts its retirement (Table 5.8 step 1) in shared mode; in VOQ mode it waits (R174). One bank relocates at
a time, the lower first (Table 5.9). -/
def retireNow (b : Nat) (s : State) : State :=
  updComb (fun c => { c with freeStk := Tab.set (fun _ => { ret := [], fresh := 0 }) b { ret := [], fresh := 16384 } c.freeStk })
    (wr Reg.CMB.BANK.TEST (setBit b true (rd Reg.CMB.BANK.TEST s)) s)

/-- Banks retired, relocating or waiting to. -/
def retiring (s : State) : List Nat :=
  (List.range 16).filter fun b => bit b (rd Reg.CMB.BANK.RETIRED s) || bit b (rd Reg.CMB.BANKCTL.RET_REQ s)

/-- At most four banks are retired at a time, on stepping A0 two (R175, R504). -/
def maxRetired (s : State) : Nat := if s.stepB0 then 4 else 2

/-- A request or threshold event retires bank `b` (R173 to R175). -/
def requestRetire (b : Nat) (s : State) : State :=
  if bit b (rd Reg.CMB.BANK.RETIRED s) || bit b (rd Reg.CMB.BANKCTL.RET_REQ s) then s
  else if maxRetired s ≤ (retiring s).length then raise srcBANK_LIMIT s
  else
    let s := wr Reg.CMB.BANKCTL.RET_REQ (setBit b true (rd Reg.CMB.BANKCTL.RET_REQ s)) s
    if bit b (rd Reg.CMB.BANK.TEST s) then updComb (fun c => { c with rotRetire := c.rotRetire ++ [b] }) s
    else updComb (fun c => { c with retWait := c.retWait ++ [b] }) s

/-- A detected error of bank `b` (R173): counted, and at the threshold within 1 s the bank is retired. -/
def bankError (b : Nat) (s : State) : State :=
  let l := ((Tab.get noCells s.comb.bankErrs b).filter fun t => s.now < t + 1000000000) ++ [s.now]
  let s := updComb (fun c => { c with bankErrs := Tab.set noCells b l c.bankErrs }) (count (cCMB (720 + b)) s)
  let th := rd Reg.CMB.ERRTH.TH s
  if rdB Reg.CMB.ERRTH.AUTO s && (if th = 0 then 1 else th) ≤ l.length then requestRetire b s else s

/-- An express cell under upstream custody is recalled (R123): RESYNC(RECALL) waits ahead of CREDIT words, and the XSEQ is
released once it has been sent. -/
def recallCell (e : QEnt) (s : State) : State :=
  let s := updLp e.inp (fun p => { p with osq := oswRESYNC 4 0 0 e.xseq :: p.osq }) s
  updRx e.inp (fun r => { r with recallPend := r.recallPend ++ [e.xseq] }) s

/-- A cell of list `k` read with a CRC error, before it is forwarded (Table 5.7): recalled when XC = 1, else discarded.
It has been taken out of its list. -/
def badCell (k : Nat) (e : QEnt) (s : State) : State :=
  let s := bankError (e.addr / 16384) s
  if e.xc then recallCell e (uncharge e (freeAddr e.addr s)) else discardCell 1 k true e s

/-! Spill (R160 to R162). -/

/-- Segments of the spill region: 16 per MiB from its start to the end of the Deep Comb (R162, R298). -/
def spillSegs (s : State) : Nat := (4096 - rd (Reg.DCM.RGN.CUR 4) s) * 16

/-- Segments that the spill FIFO of a queue takes: those its cells lie in, the first of which may be read in part. -/
def segsOf (s : State) (q : Nat) : Nat := (Tab.get zeroN s.comb.spillOfs q + (spillOf s q).length + 511) / 512

def segsUsed (s : State) : Nat := s.comb.spill.foldl (fun a e => a + segsOf s e.1) 0

/-- The first `n` cells of a spill FIFO leave it. -/
def takeSpill (q n : Nat) (s : State) : State :=
  let l := (spillOf s q).drop n
  let ofs := if l = [] then 0 else (Tab.get zeroN s.comb.spillOfs q + n) % 512
  updComb (fun c => { c with spillOfs := Tab.set zeroN q ofs c.spillOfs }) (setSpill q l s)

/-- The queue spills now (R160). -/
def spillStart (s : State) (q : Nat) : Bool :=
  rdB Reg.CMB.SPILL.EN s && q % 8 < 5 && bit (q % 8) (rd Reg.CMB.SPILL.CLASS s) && s1Up s && combMode s == 0 && s.comb.spillOn &&
    256 ≤ (outQ s q).length

/-- A new cell of the queue goes to the spill FIFO (R161). -/
def toSpill (s : State) (q : Nat) : Bool := spillOf s q != [] || spillStart s q

/-- One more cell fits the spill FIFO of `q` (R162). -/
def spillRoom (s : State) (q : Nat) : Bool :=
  s1Up s && ((Tab.get zeroN s.comb.spillOfs q + (spillOf s q).length) % 512 != 0 || segsUsed s < spillSegs s)

/-- FREE against ON and OFF (R160, R161): ON at or above OFF takes OFF as ON + 1. The spec does not say whether each queue keeps its own
hysteresis; here one flag serves all (notes/assumptions/47). -/
def updSpillOn (s : State) : State :=
  let on := rd Reg.CMB.SPILL.ON s
  let off := if rd Reg.CMB.SPILL.OFF s ≤ on then on + 1 else rd Reg.CMB.SPILL.OFF s
  let free := freeNow s
  let v := if free < on * 1024 then true else if off * 1024 ≤ free then false else s.comb.spillOn
  updComb (fun c => { c with spillOn := v }) s

/-! Rings. -/

/-- A cell that a line port holds for replay or in custody is found damaged (R169, R171): counted, and a void cell takes its place. -/
def voidEnt (n : Nat) (e : TxEnt) (s : State) : State :=
  let q := 8 * n + e.ent.cell.tc
  let mark := fun l : List TxEnt => l.map fun x => if x = e then { x with isVoid := true } else x
  let s := updTx n (fun t => { t with buf := mark t.buf, custody := mark t.custody }) s
  let s := bankError (e.ent.addr / 16384) (count (cCMB (144 + q)) s)
  raise srcERR_DROP (if e.ent.cell.xpr then count (cCMB (432 + q)) s else s)

/-- A recalled copy that waits is found damaged. The spec says nothing of it; it is dropped as a lost express cell
(notes/assumptions/45). -/
def loseRecall (n : Nat) (e : QEnt) (s : State) : State :=
  let q := 8 * n + e.cell.tc
  raise srcERR_DROP (count (cCMB (432 + q)) (count (cCMB (144 + q)) (bankError (e.addr / 16384) s)))

/-! Enqueue. -/

/-- The queue of class `c` at output `p` holds no cell in the Comb: in its output queue, in VOQs or read ahead. -/
def combEmpty (s : State) (p c : Nat) : Bool :=
  outQ s (8 * p + c) == [] && !((aheadOf s p).any fun e => e.cell.tc == c) && (List.range 18).all fun i => voqOf s (voqKey i p c) == []

/-- It holds none, in the Comb or spilled (R183). -/
def classEmpty (s : State) (p c : Nat) : Bool := combEmpty s p c && spillOf s (8 * p + c) == []

/-- A class whose queue has become empty leaves the round (R183). -/
def leaveIfEmpty (p c : Nat) (s : State) : State := if classEmpty s p c then dwrrLeave p c s else s

/-- The high-water mark of occupancy at an enqueue (R195). -/
def markOcc (q : Nat) (s : State) : State :=
  let n := (outQ s q).length + (spillOf s q).length
  if Tab.get zeroN s.comb.hwmOcc q < n then updComb (fun c => { c with hwmOcc := Tab.set zeroN q n c.hwmOcc }) s else s

/-- The high-water mark of sojourn at a dequeue (R195). -/
def markSoj (q : Nat) (e : QEnt) (s : State) : State :=
  let n := Machine.ahead (2 ^ 24) e.stamp (stampNow s) * 128
  if Tab.get zeroN s.comb.hwmSoj q < n then updComb (fun c => { c with hwmSoj := Tab.set zeroN q n c.hwmSoj }) s else s

/-- A cell joins output queue `q` (R154, R183). -/
def enqueue (q : Nat) (e : QEnt) (s : State) : State :=
  let empty := classEmpty s (q / 8) (q % 8)
  let s := if e.cell.f then endLogs q e.inp s else s
  let s := setOutQ q (outQ s q ++ [e]) s
  markOcc q (if empty then dwrrJoin (q / 8) (q % 8) s else s)

/-- A cell joins the spill FIFO of `q` through P17 (R161). -/
def enqueueSpill (q : Nat) (e : QEnt) (s : State) : State :=
  let s := if e.cell.f then endLogs q e.inp s else s
  markOcc q (count (cCMB (576 + q)) (setSpill q (spillOf s q ++ [e]) s))

/-- A cell joins the VOQ of an output (R165, R183). -/
def enqueueVoq (q : Nat) (e : QEnt) (s : State) : State :=
  let k := voqKey e.inp (q / 8) e.cell.tc
  let empty := classEmpty s (q / 8) (q % 8)
  let s := setVoq k (voqOf s k ++ [e]) (if e.cell.f then endLogs q e.inp s else s)
  if empty then dwrrJoin (q / 8) (q % 8) s else s

/-- A cell that is in the Comb joins output queue or VOQ `q`; where the queue spills it goes on to the spill FIFO (R161). -/
def join (q : Nat) (e : QEnt) (s : State) : State :=
  if voqOn s then enqueueVoq q e s
  else if toSpill s q then enqueueSpill q { e with addr := 0 } (freeAddr e.addr s)
  else enqueue q e s

/-! Discarding everything toward a port. -/

/-- Discards every cell of list `k` for cause `m`. -/
def discardAll (m k : Nat) (inComb : Bool) (l : List QEnt) (s : State) : State := forAll l (discardCell m k inComb) s

/-- Every cell queued toward switch port `p` is discarded as FORCE_DROP (R26, R41). -/
def dropPort (p : Nat) (s : State) : State :=
  let s := forAll (List.range 8) (fun c s =>
    let q := 8 * p + c
    let l := outQ s q
    let sp := spillOf s q
    let s := discardAll 2 q true l (setOutQ q [] s)
    let s := discardAll 2 q false sp (takeSpill q sp.length s)
    dwrrLeave p c (forAll (List.range 18) (fun i s =>
      let k := voqKey i p c
      let v := voqOf s k
      discardAll 2 q true v (setVoq k [] s)) s)) s
  let a := aheadOf s p
  forAll a (fun e s => discardCell 2 (8 * p + e.cell.tc) true e s) (setAhead p [] s)

end Sys2Proof.Machine
end

