-- ==== Sys2Proof/Machine/Admit.lean ====
section
/-! DEFINITION. A cell leaves its ingress hold: lookup, express test, Guard, staging; and the retries of park lists
(R129 to R133, R137, R188). -/
namespace Sys2Proof.Machine

/-! Lookups. -/

/-- Where a held cell goes. -/
def destOf (s : State) (i : Nat) (h : Held) : Dest :=
  match h.forced with
  | some outs => { outs := outs, xok := false, alt := false, bcast := false, noRoute := false }
  | none => lookup s i h.cell.dst h.cell.tun

/-- Guard looks at the cell when it is admitted: a cell from P4 to P16 that it has not let pass (R188, R223). -/
def guarded (i : Nat) (h : Held) : Bool := 4 ≤ i && !h.policed

/-- The entries that Guard reads for a first cell: the Guard map, and from P4 to P15 the origin entry (R187, R208). -/
def guardEntries (i : Nat) (c : Cell) : List (Nat × Nat) :=
  if c.f then (3, c.tun) :: (if i < 16 then [(2, c.tun)] else []) else []

/-- Every entry that the admission of a held cell reads. -/
def entriesRead (s : State) (i : Nat) (h : Held) : List (Nat × Nat) :=
  (if guarded i h then guardEntries i h.cell else []) ++ (if h.forced.isNone then lookupEntries s h.cell.dst h.cell.tun else [])

/-- One of these entries waits for its recomputation (R137). -/
def anyAwaited (s : State) (l : List (Nat × Nat)) : Bool := l.any fun x => s.topo.recompute.contains x

/-- The lookup waits for the recomputation of an entry it reads (R137). -/
def awaits (s : State) (c : Cell) : Bool := anyAwaited s (lookupEntries s c.dst c.tun)

/-- A damaged table entry waits for its recomputation (R137). -/
def damaged (x : Nat × Nat) (s : State) : State :=
  if s.topo.recompute.contains x then s else updTopo (fun t => { t with recompute := t.recompute ++ [x] }) s

/-! What holds a cell back. -/

/-- The primary port of a routed destination, and its DIST. -/
def primaryPort (s : State) (c : Cell) : Option (Nat × Nat) :=
  match lookupEntries s c.dst c.tun with
  | [(0, d)] => if rteV (entry s 0 d) then some (rtePORT (entry s 0 d), rteDIST (entry s 0 d)) else none
  | _ => none

/-- Ring protection holds the cell: rerouted before RING_BREAK has left (R146), or back on the primary route under HOLD, of a
destination beyond the record that went (R148). -/
def ringHolds (s : State) (c : Cell) (d : Dest) : Bool :=
  match primaryPort s c with
  | none => false
  | some (p, dist) => if d.alt then s.topo.breakHold.contains p else s.topo.restoreHold.any fun x => x.1 == p && x.2 < dist

/-- A Tolger link in LINK_FAIL takes no cells (R26). -/
def linkFailed (s : State) (outs : List Nat) : Bool := outs.any fun o => 4 ≤ o && o < 16 && linkState s (portSlot o) == 4

/-- A held cell waits, for its class or its destination. -/
def cellWaiting (s : State) (i : Nat) (h : Held) : Bool :=
  let d := destOf s i h
  (h.forced.isNone && i < 4 && isRingCell h.cell) || classHeld s i h.cell.tc || (h.forced.isNone && ringHolds s h.cell d) ||
    linkFailed s d.outs || (voqOn s && !voqFits s i (max 1 d.outs.length))

/-- The frame of a cell, as R99 orders its cells. -/
def frameKey (c : Cell) : Nat × Nat × Nat := (c.src, c.tun, c.tc)

/-- The first held cell that may be admitted, and the hold without it. A cell that waits keeps its ingress class behind it on a line
port (R131), and the rest of its frame everywhere (R99); `cls` and `frames` are those that wait already. During the pause of an
activation a first cell from P4 to P16 waits (Table 18.8). -/
def firstAdmit (s : State) (i : Nat) (cls : List Nat) (frames : List (Nat × Nat × Nat)) : List Held → Option (Held × List Held)
  | [] => none
  | h :: l =>
    let c := h.cell
    if cls.contains c.tc || frames.contains (frameKey c) then (firstAdmit s i cls frames l).map fun r => (r.1, h :: r.2)
    else if cellWaiting s i h || (bulkPaused s && 4 ≤ i && c.f) then
      (firstAdmit s i (if i < 4 then c.tc :: cls else cls) (frameKey c :: frames) l).map fun r => (r.1, h :: r.2)
    else some (h, l)

/-! The express test (R131, R132). -/

/-- An earlier cell of the same ingress port, credit class and egress port waits in the Comb, or one of the same ingress and
credit class is parked (R131). -/
def earlierCell (s : State) (i cc q : Nat) : Bool :=
  let mine := fun e : QEnt => e.inp == i && ccOf e.cell.tc == cc
  (List.range 8).any (fun c => (outQ s (8 * q + c)).any mine || (spillOf s (8 * q + c)).any mine || (voqOf s (voqKey i q c)).any mine) ||
    (aheadOf s q).any mine || (List.range 8).any (fun c => (parkOf s (8 * i + c)).any mine) || (voqParkOf s i).any mine ||
    (stagingOf s i).any fun x => ccOf x.held.cell.tc == cc && (x.copies.any fun k => k == none || k == some (8 * q + x.held.cell.tc))

/-- The express path is not for the cell: disabled for its ingress port, or its class not eligible (R131). -/
def ineligible (s : State) (i : Nat) (c : Cell) : Bool :=
  !(rdB Reg.XPR.CFG.EN s && bit i (rd Reg.XPR.CFG.PEN s) && (c.tc == 7 || (c.tc == 6 && rdB Reg.XPR.CFG.TC6 s)))

/-- The lookup does not give one line port that takes the express path: a local copy or several ports, whatever else the lookup waits
for, or what it found (R131). -/
def notExpress (i : Nat) (d : Dest) (parked : Bool) : Bool :=
  let q := d.outs.headD 16
  d.bcast || d.outs.any (4 ≤ ·) || (!parked && !(d.outs.length == 1 && d.xok && (q != i || d.alt)))

/-- The first fallback cause of Table 4.4 for a cell with XPR = 1 received on line port `i`; `none` where it takes the
express path to the one egress port. -/
def fallback (s : State) (i : Nat) (h : Held) (d : Dest) (parked : Bool) : Option Nat :=
  let q := d.outs.headD 16
  let t := (lp s q).tx
  if ineligible s i h.cell then some 0
  else if notExpress i d parked then some 1
  else if parked then some 2
  else if !(lstate s q == ACTIVE && domSt s q == .inService) then some 3
  else if 4 ≤ (lp s q).fifo.length || (lp s q).fifo.any (fun e => e.inp == i) then some 4
  else if creditOf t (ccOf h.cell.tc) = 0 then some 5
  else if earlierCell s i (ccOf h.cell.tc) q then some 6
  else none

/-- A fallback is counted (R132). -/
def countFallback (i c : Nat) (s : State) : State := orF Reg.XPR.FBSTAT.CAUSE (2 ^ c) (count (cXPR (7 * i + c)) s)

/-- The cell as an entry of the Comb. -/
def entOf (s : State) (i : Nat) (h : Held) : QEnt :=
  { addr := 0, stamp := stampNow s, inp := i, xc := h.xseq.isSome, xseq := h.xseq.getD 0, refill := false, charged := h.charged,
    policed := h.policed, cell := h.cell }

/-- The cell enters the express FIFO of its egress port (R131): the far-end credit is consumed; the cell stays charged to the reserve
it lay in until the express path forwards it (R111), and a handshake that this end began is void (R75). -/
def enterFifo (i q : Nat) (h : Held) (s : State) : State :=
  let cc := ccOf h.cell.tc
  let s := updTx q (fun t => { t with cons := Tab.set zeroN cc ((Tab.get zeroN t.cons cc + 1) % 65536) t.cons }) s
  voidRequest q (updLp q (fun p => { p with fifo := p.fifo ++ [entOf s i h] }) s)

/-! Into the Comb. -/

/-- A cell without a destination is gone: a broadcast with no copy to make. -/
def vanish (i : Nat) (h : Held) (s : State) : State :=
  let s := if h.charged then freeCredit i (ccOf h.cell.tc) s else s
  match h.xseq with
  | some x => releaseX i x s
  | none => s

/-- A routed or parked cell enters its staging buffer; a cell toward a line port that is not ACTIVE starts its exit (R74,
R78, R132). -/
def stage (i : Nat) (h : Held) (copies : List (Option Nat)) (s : State) : State :=
  let s := setStaging i (stagingOf s i ++ [{ held := h, inp := i, copies := copies }]) s
  forAll copies (fun k s => match k with
    | some q => if q / 8 < 4 then wakeFor (q / 8) h.cell.dst s else s
    | none => s) s

/-- The cell taken from the hold is routed (R129 to R133, R137). -/
def admitCell (i : Nat) (h : Held) (s : State) : State :=
  let d := destOf s i h
  let waits := h.forced.isNone && awaits s h.cell
  let parked := d.noRoute || waits
  let s := if d.noRoute && !waits then count (cRTE 0) s else s
  let fb := fallback s i h d parked
  if i < 4 && h.cell.xpr && h.forced.isNone && fb.isNone then enterFifo i (d.outs.headD 0) h s
  else
    let s := if i < 4 && h.cell.xpr && h.forced.isNone then (match fb with
        | some c => countFallback i c s
        | none => s) else s
    if parked then stage i h [none] s
    else if d.outs = [] then vanish i h s
    else stage i h (d.outs.map fun o => some (8 * o + h.cell.tc)) s

/-- The cell taken from the hold meets Guard, where Guard looks at it: it is refused, or goes on. Where an entry that Guard reads is
damaged the cell is parked with Guard's decision still to come (R137, R187, R208). -/
def admitPast (i : Nat) (h : Held) (s : State) : State :=
  if guarded i h then
    if anyAwaited s (guardEntries i h.cell) then stage i h [none] s
    else match guard i h.cell s with
      | (true, s) => admitCell i { h with policed := true } s
      | (false, s) => s
  else admitCell i h s

/-- CELL_ADMIT (R129 to R133, R137, R188): the first held cell that may leave is admitted, and its Tolger channel owes a credit
(Table 5.5); `entryBad` is the table whose entry the admission finds with a CRC-8 error. -/
def execCellAdmit (p : Fin 17) (entryBad : Option (Fin 4)) (s : State) : Res :=
  let i := p.val
  match firstAdmit s i [] [] (holdOf s i) with
  | none => .next s
  | some (h, l) =>
    if 4 ≤ (stagingOf s i).length then .next s
    else
      let s := oweCredit i true (setHold i l s)
      let s := match entryBad with
        | some t => forAll ((entriesRead s i h).filter fun x => x.1 == t.val) damaged s
        | none => s
      .next (admitPast i h s)

/-! Park lists (R130). -/

/-- The ageing of a park list at a retry: every cell, wherever it stands. -/
def ageList (k : Nat) : List QEnt → State → List QEnt × State
  | [], s => ([], s)
  | e :: l, s =>
    if aged s e then ageList k l (discardCell 0 k true e s)
    else
      let r := ageList k l s
      (e :: r.1, r.2)

/-- A queue of these outputs cannot take the cell now: its spill FIFO has no room (R162), or in VOQ mode the quota has none (R166), or
the Comb has no free cell for each further copy. -/
def noRoom (s : State) (i c : Nat) (outs : List Nat) : Bool :=
  (if voqOn s then !voqFits s i outs.length else outs.any fun o => toSpill s (8 * o + c) && !spillRoom s (8 * o + c)) ||
    ((List.range 16).filter (bankIn s)).foldl (fun a b => a + bankFree s b) 0 + 1 < outs.length

/-- A parked cell leaves for its queues: the copy it holds goes to the first, any other takes a new address. -/
def unpark (e : QEnt) (outs : List Nat) (s : State) : State :=
  let s := uncharge e s
  let e := { e with charged := false }
  match outs with
  | [] => releaseCopy e (freeAddr e.addr s)
  | o :: os =>
    let s := forAll outs (fun o s => if o < 4 then wakeFor o e.cell.dst s else s) s
    let s := forAll os (fun o s => match takeSpare s with
      | some (a, s) => join (8 * o + e.cell.tc) { e with addr := a } s
      | none => s) s
    join (8 * o + e.cell.tc) e s

/-- A parked cell that Guard has not looked at meets it now: whether it goes on, as `none` where it waits (R187, R208). -/
def guardParked (i : Nat) (e : QEnt) (s : State) : Option (Bool × State) :=
  if e.policed || i < 4 then some (true, s)
  else if anyAwaited s (guardEntries i e.cell) then none
  else some (guard i e.cell s)

/-- Runs down a park list in order and stops at the first cell whose lookup still fails. The rest of a frame being discarded goes as it
comes to the head (R170). -/
def retryList (i : Nat) : List QEnt → State → List QEnt × State
  | [], s => ([], s)
  | e :: l, s =>
    match atHead (parkList i e.cell.tc) e s with
    | (false, s) => retryList i l s
    | (true, s) =>
      match guardParked i e s with
      | none => (e :: l, s)
      | some (false, s) => retryList i l (freeAddr e.addr s)
      | some (true, s) =>
        let d := lookup s i e.cell.dst e.cell.tun
        if d.noRoute || awaits s e.cell || ringHolds s e.cell d || linkFailed s d.outs || noRoom s i e.cell.tc d.outs then
          ({ e with policed := true } :: l, s)
        else retryList i l (unpark { e with policed := true } d.outs s)

/-- One retry of the park list of an ingress port and class. -/
def parkRetry (i c : Nat) (s : State) : State :=
  let k := 8 * i + c
  let l := parkOf s k
  let r := ageList (parkList i c) l (setPark k [] s)
  let r := retryList i r.1 r.2
  let s := setPark k r.1 r.2
  let v := (voqParkOf s i).filter fun e => e.cell.tc == c
  let rest := (voqParkOf s i).filter fun e => e.cell.tc != c
  let r := ageList (parkList i c) v (setVoqPark i rest s)
  let r := retryList i r.1 r.2
  setVoqPark i (rest ++ r.1) r.2

/-- PARK_RETRY (R130). -/
def execParkRetry (p : Fin 18) (c : Fin 8) (s : State) : Res := .next (parkRetry p.val c.val s)

/-- Every park list is tried again: a table swap or an edit (R130). -/
def retryAll (s : State) : State := forAll (List.range 144) (fun k s => parkRetry (k / 8) (k % 8) s) s

end Sys2Proof.Machine
end

