-- ==== Sys2Proof/Machine/Serve.lean ====
section
/-! DEFINITION. The scheduler of an output switch port: what may be served, which class is served next, and what a cell that leaves is
charged (R164, R165, R168, R179 to R186). -/
namespace Sys2Proof.Machine

/-! What a port takes. -/

/-- The cell channel of a tributary port: A the even port, B the odd one (Table 1.1). -/
def portCh (p : Nat) : Nat := p % 2

/-- The Tolger channel toward a tributary has credit for one more cell (R24). -/
def tolgerTakes (s : State) (p : Nat) : Bool :=
  let d := tolger s (portSlot p) false
  (Tab.get noCells d.waiting (portCh p)).length < Tab.get tolgerCredit d.credit (portCh p)

/-- The internal receiver of P16 has credit (R179): fewer cells wait for its units than its pool of Table 5.4 holds
(notes/assumptions/46). -/
def p16Takes (s : State) : Bool := (Tab.get noCells s.tuns.arrived 16).length < 256

/-- The port sends cells now: a line port that is ACTIVE, a channel or receiver with credit (R135, R179). -/
def portTakes (s : State) (p : Nat) : Bool :=
  if p < 4 then lstate s p == ACTIVE
  else if p = 16 then p16Takes s
  else tolgerTakes s p && linkState s (portSlot p) != 4

/-- The domain of the port lets queue `q` be served (Table 1.7, R41); bulk classes pause at an LD activation (Table 18.8). -/
def served (s : State) (q : Nat) : Bool :=
  !(bulkPaused s && q % 8 < 5) && match portDom (q / 8) with
  | none => true
  | some d => match (dom s d).st with
    | .inService => true
    | .quiescing => 0 < Tab.get zeroN (dom s d).drain q
    | _ => false

/-- The head cell of class `c` at port `p` that may be sent now, by the order of R168: in shared mode and while entering
VOQ mode the output queue first, while leaving it the VOQ cells first. The flag says that it is a read-ahead cell. -/
def headOf (s : State) (p c : Nat) : Option (QEnt × Bool) :=
  let v := ((aheadOf s p).filter fun e => e.cell.tc == c).head?
  let q := (outQ s (8 * p + c)).head?
  if voqOn s then
    match q with
    | some e => some (e, false)
    | none => v.map fun e => (e, true)
  else
    match v with
    | some e => some (e, true)
    | none =>
      if (List.range 18).any fun i => voqOf s (voqKey i p c) != [] then none else q.map fun e => (e, false)

/-- The far end of a line port can take the head of class `c`: credit, and custody for an express cell (R111, R122). -/
def lineTakes (s : State) (p : Nat) (e : QEnt) : Bool :=
  4 ≤ p || (0 < creditOf (lp s p).tx (ccOf e.cell.tc) && !(e.cell.xpr && custCount (lp s p).tx == 1024))

/-- Class `c` of port `p` has a cell that may be sent (R179). -/
def classReady (s : State) (p c : Nat) : Bool :=
  match headOf s p c with
  | none => false
  | some (e, _) => served s (8 * p + c) && lineTakes s p e

/-- Class `c` is ready and its shapers permit (Table 6.1); in VOQ mode shapers do not apply (R165). -/
def eligible (s : State) (p c : Nat) : Bool :=
  classReady s p c && (6 ≤ c || voqOn s || (permits s (shaper s (8 * p + c)) && permits s (shaper s (0x100 + p))))

/-! Read-ahead (R164). -/

def marksOf (s : State) (p : Nat) : List Nat := Tab.get noCells s.comb.marks p
def setMarks (p : Nat) (l : List Nat) (s : State) : State := updComb (fun c => { c with marks := Tab.set noCells p l c.marks }) s

/-- The head of class `c` has been read: it is a read-ahead cell of a VOQ, or the arbiter has read it from its output queue. -/
def headRead (s : State) (p c : Nat) : Bool :=
  match headOf s p c with
  | none => false
  | some (e, isAhead) => isAhead || (marksOf s p).contains e.addr

/-- The cells of an output queue that a read may take, in order: those of a class that is eligible. -/
def readOf (s : State) (p c : Nat) : List QEnt :=
  if eligible s p c && (headOf s p c).any (fun r => !r.2) then (outQ s (8 * p + c)).take 4 else []

/-- The cells an output reads next, at most 4: of a replay that runs, then of its queues in the order of Table 6.1 (R164, R179). -/
def readList (s : State) (p : Nat) : List QEnt :=
  if portTakes s p then
    let t := (lp s p).tx
    let rep := if p < 4 then (match t.replay with
      | some k => ((t.buf.dropWhile fun e => e.seq != k).filter fun e => !e.isVoid).map (·.ent)
      | none => []) else []
    let mid := match dwrrChoose s p (eligible s p) with
      | some (c, _) => c :: [4, 3, 2, 1].filter (· != c)
      | none => [4, 3, 2, 1]
    (rep ++ (([7, 6, 5] ++ mid ++ [0]).map (readOf s p)).flatten).take 4
  else []

/-- What an output has read and does not send next is not kept. -/
def pruneMarks (s : State) : State :=
  forAll (s.comb.marks.map (·.1)) (fun p s =>
    let l := readList s p
    setMarks p ((marksOf s p).filter fun a => l.any fun e => e.addr == a) s) s

/-! One decision. -/

/-- The class the port serves in a slot, among those whose head has been read, and whether DWRR opens its turn (Table 6.1, R165,
R182). -/
def chooseClass (s : State) (p : Nat) : Option (Nat × Bool) :=
  let ready := fun c => classReady s p c && headRead s p c
  let ok := fun c => eligible s p c && headRead s p c
  if ready 7 then some (7, false)
  else if ready 6 then some (6, false)
  else if ok 5 then some (5, false)
  else if voqOn s then (([4, 3, 2, 1, 0].filter ok).head?).map fun c => (c, false)
  else match dwrrChoose s p ok with
    | some r => some r
    | none => if ok 0 then some (0, false) else none

/-- The key of a frame's shortfall at a shaper (R181). -/
def shortKey (i : Nat) (e : QEnt) : Nat := (((i * 18 + e.inp) * 8 + e.cell.tc) * 16384 + e.cell.src) * 16384 + e.cell.tun

/-- Charges one shaper with a cell (R181, R185). Answers the charge. -/
def chargeShaper (i : Nat) (e : QEnt) (s : State) : Nat × State :=
  let x := shaper s i
  let k := shortKey i e
  let (b, sh) := unitCharge x (Tab.get zeroN s.sched.short k) e.cell
  let sh := if e.cell.l then 0 else sh
  (b, setShaper i (charge s x b) (updSched (fun c => { c with short := Tab.set zeroN k sh c.short }) s))

/-- Takes the head of class `c` out of its list. -/
def takeHead (p c : Nat) (e : QEnt) (isAhead : Bool) (s : State) : State :=
  let s := setMarks p ((marksOf s p).filter (· != e.addr)) (drainOne (8 * p + c) s)
  if isAhead then setAhead p ((aheadOf s p).erase e) s else setOutQ (8 * p + c) ((outQ s (8 * p + c)).drop 1) s

/-- What the shapers and DWRR account for a cell sent from the Comb (R181, R182, R186); neither applies in VOQ mode (R165). A class whose
queue is empty leaves the round in either mode (R183). -/
def account (p c : Nat) (e : QEnt) (opens : Bool) (s : State) : State :=
  leaveIfEmpty p c (if voqOn s then s
    else
      let en := shpEN (shaper s (8 * p + c)).cfg
      let (b, s) := chargeShaper (8 * p + c) e s
      let (_, s) := chargeShaper (0x100 + p) e s
      if 1 ≤ c ∧ c ≤ 4 then dwrrSent p c opens (if en then b else e.cell.vlen) (combEmpty s p c) s else s)

/-- Discards what has aged, and the rest of frames being discarded, at the heads of the port's lists (R163, R170). -/
def siftPort (p : Nat) (s : State) : State :=
  let s := forAll (List.range 8) (fun c s =>
    let q := 8 * p + c
    if outQ s q != [] && served s q then
      match sift q (outQ s q) s with
      | (l, s) => leaveIfEmpty p c (setOutQ q l s)
    else s) s
  match siftAhead p (aheadOf s p) s with
  | (l, s) => setAhead p l s

/-- The cell that leaves the Comb on port `p`: `deliver` takes it. A cell read with a CRC error goes under Table 5.7; its queue shaper,
port shaper and deficit are charged all the same, of which R186 says only that they charge what the queue sends
(notes/assumptions/45). -/
def sendFromComb (p : Nat) (crcBad : Bool) (deliver : QEnt → State → State) (s : State) : Option State :=
  match chooseClass s p with
  | none => none
  | some (c, opens) =>
    match headOf s p c with
    | none => none
    | some (e, isAhead) =>
      let s := markSoj (8 * p + c) e (takeHead p c e isAhead s)
      if crcBad then some (account p c e opens (badCell (8 * p + c) e s))
      else some (releaseCopy e (deliver e (account p c e opens s)))

end Sys2Proof.Machine
end

