-- ==== Sys2Proof/Machine/Comb.lean ====
section
/-! DEFINITION. The Comb's cell time, refill, audit, VOQ moves and banks (chapter 5, R151 to R178). -/
namespace Sys2Proof.Machine

/-! The arbiter (R164, R165). -/

/-- The first of `n` numbers at or after `k`, in a ring, that passes. -/
def firstFrom (n k : Nat) (p : Nat → Bool) : Option Nat := ((List.range n).map fun i => (k + i) % n).find? p

/-- Banks that no access holds. One that has left write allocation is still read (Table 5.8). -/
def idleBanks (s : State) : List Nat := (List.range 16).filter (bankIdle s)

/-- One cell time of every access passes. -/
def tickBusy (s : State) : State :=
  updComb (fun c => { c with busy := (List.range 16).foldl (fun t b => Tab.set zeroN b (Tab.get zeroN t b - 1) t) c.busy }) s

/-- Unwritten copies of an input's oldest staged cell. -/
def needs (s : State) (i : Nat) : Nat := match stagingOf s i with
  | [] => 0
  | x :: _ => x.copies.length

/-- The copies of a staged cell that go to a spill FIFO leave through P17 (R161); where one finds no room its queue holds its new cells,
with SPILL_FULL raised once (R162). -/
def spillCopies (i : Nat) (s : State) : State :=
  match stagingOf s i with
  | [] => s
  | x :: rest =>
    let go := x.copies.filter fun k => match k with
      | some q => !voqOn s && toSpill s q
      | none => false
    let r := go.foldl (fun (r : List (Option Nat) × State) k => match k with
      | none => r
      | some q =>
        if spillRoom r.2 q then (r.1.erase k, enqueueSpill q { entOf s i x.held with charged := false } r.2)
        else
          let full := Tab.get noB r.2.comb.spillFull q
          let s := updComb (fun x => { x with spillFull := Tab.set noB q true x.spillFull }) r.2
          (r.1, if full then s else raise srcSPILL_FULL s)) (x.copies, s)
    let s := r.2
    if go = [] then s
    else if r.1 = [] then
      let s := setStaging i rest s
      if x.held.charged then freeCredit i (ccOf x.held.cell.tc) s else s
    else setStaging i ({ x with copies := r.1 } :: rest) s

/-- Copies that wait for a bank: all but those that wait for spill room. -/
def writable (s : State) (i : Nat) : Nat := match stagingOf s i with
  | [] => 0
  | x :: _ => (x.copies.filter fun k => match k with
      | some q => voqOn s || !toSpill s q
      | none => true).length

/-- Input `i` writes one copy of its oldest staged cell into bank `b` and the cell joins its list. -/
def writeCopy (i b : Nat) (s : State) : State :=
  match stagingOf s i with
  | [] => s
  | x :: rest =>
    match takeFirst (fun k : Option Nat => match k with
        | some q => voqOn s || !toSpill s q
        | none => true) x.copies, takeAddr b s with
    | some (k, ks), some (a, s) =>
      let s := holdBank b s
      let e : QEnt := { entOf s i x.held with addr := a, charged := x.held.charged && k == none }
      let s := setStaging i (if ks = [] then rest else { x with copies := ks } :: rest) s
      let s := if ks = [] && x.held.charged && k != none then freeCredit i (ccOf x.held.cell.tc) s else s
      match k with
      | some q => join q e s
      | none =>
        if voqOn s then setVoqPark i (voqParkOf s i ++ [e]) s
        else setPark (8 * i + e.cell.tc) (parkOf s (8 * i + e.cell.tc) ++ [e]) s
    | _, _ => s

/-- The reads that outputs ask for: each its next cell that it has not read ahead. -/
def readAsks (s : State) (outs : List Nat) : List (Nat × Nat) :=
  outs.filterMap fun o => ((readList s o).find? fun e => !(marksOf s o).contains e.addr).map fun e => (o, e.addr)

/-- Output `o` reads the cell at address `a` ahead. -/
def readCell (o a : Nat) (s : State) : State := holdBank (a / 16384) (setMarks o (marksOf s o ++ [a]) s)

/-- The grants of one iteration to reading outputs: each idle bank grants the first output at or after its pointer. -/
def readGrants (s : State) (asks : List (Nat × Nat)) (avail : List Nat) : List (Nat × Nat × Nat) :=
  avail.filterMap fun b =>
    (firstFrom 18 (Tab.get zeroN s.comb.rptr b) fun o => asks.any fun x => x.1 == o && x.2 / 16384 == b).map fun o =>
      (b, o, ((asks.filter fun x => x.1 == o).map fun x => x.2).headD 0)

/-- The grants of one iteration to writing inputs: each bank in write allocation with a free cell grants the first input at or after
its pointer that still has a copy to write. -/
def writeGrants (s : State) (avail : List Nat) (left : Tab Nat) : List (Nat × Nat) :=
  avail.filterMap fun b =>
    if !bankIn s b || bankFree s b == 0 then none
    else (firstFrom 18 (Tab.get zeroN s.comb.wptr b) fun i => Tab.get zeroN left i != 0).map fun i => (b, i)

/-- The banks input `i` accepts: up to its copies, the first at or after its pointer. -/
def accepts (s : State) (left : Tab Nat) (g : List (Nat × Nat)) (i : Nat) : List Nat :=
  let mine := ((List.range 16).map fun k => (Tab.get zeroN s.comb.aptr i + k) % 16).filter fun b => g.contains (b, i)
  mine.take (Tab.get zeroN left i)

/-- Who still asks in a cell time: banks that no access holds, outputs not yet served, and the copies each input has to write. -/
structure Arb where
  avail : List Nat
  outs : List Nat
  left : Tab Nat

/-- The accepted writes of input `i`: it writes a copy into each bank; in the first iteration the pointers move one past each
partner. -/
def acceptWrites (first : Bool) (i : Nat) (bs : List Nat) (s : State) : State :=
  let s := forAll bs (writeCopy i) s
  if first then updComb (fun c => { c with
    wptr := bs.foldl (fun t b => Tab.set zeroN b ((i + 1) % 18) t) c.wptr
    aptr := match bs.getLast? with
      | none => c.aptr
      | some b => Tab.set zeroN i ((b + 1) % 16) c.aptr }) s else s

/-- One accepted read; in the first iteration the pointer of the bank moves one past its partner. -/
def acceptRead (first : Bool) (g : Nat × Nat × Nat) (s : State) : State :=
  let s := readCell g.2.1 g.2.2 s
  if first then updComb (fun c => { c with rptr := Tab.set zeroN g.1 ((g.2.1 + 1) % 18) c.rptr }) s else s

/-- One request, grant and accept iteration of shared mode (R164): on each bank reads come before writes. -/
def sharedIter (first : Bool) (a : Arb) (s : State) : Arb × State :=
  let rg := readGrants s (readAsks s a.outs) a.avail
  let wg := writeGrants s (a.avail.filter fun b => !rg.any fun g => g.1 == b) a.left
  let acc := (List.range 18).map fun i => (i, accepts s a.left wg i)
  let s := forAll rg (acceptRead first) s
  let s := forAll acc (fun x s => acceptWrites first x.1 x.2 s) s
  ({ avail := a.avail.filter fun b => !(rg.any (fun g => g.1 == b) || acc.any fun x => x.2.contains b)
     outs := a.outs.filter fun o => !rg.any fun g => g.2.1 == o
     left := acc.foldl (fun t x => Tab.set zeroN x.1 (Tab.get zeroN t x.1 - x.2.length) t) a.left }, s)

/-- What asks as a cell time begins. -/
def arbNow (s : State) : Arb :=
  { avail := idleBanks s, outs := List.range 17
    left := (List.range 18).foldl (fun t i => Tab.set zeroN i (writable s i) t) [] }

/-- The bank with the most free cells, the lower number first. -/
def fullestFree (s : State) (l : List Nat) : Option Nat :=
  l.foldl (fun r b => match r with
    | none => if 0 < bankFree s b then some b else none
    | some x => if bankFree s x < bankFree s b then some b else r) none

/-- The writes of a cell time in VOQ mode: inputs round robin, one bank each (R165). -/
def voqWrites (s : State) : State :=
  let start := Tab.get zeroN s.comb.gptr 1000
  let r := (List.range 18).foldl (fun (r : List Nat × State) k =>
    let i := (start + k) % 18
    if needs r.2 i = 0 then r
    else match fullestFree r.2 r.1 with
      | none => r
      | some b => (r.1.filter (· != b), writeCopy i b r.2)) ((idleBanks s).filter (bankIn s), s)
  updComb (fun c => { c with gptr := Tab.set zeroN 1000 ((start + 1) % 18) c.gptr }) r.2

/-- The VOQ of an input, an output and a class has a cell that its output may read: no older cell of that queue waits in the output
queue or in its spill FIFO while the Comb enters VOQ mode (R168). -/
def voqServes (s : State) (i o c : Nat) : Bool :=
  voqOf s (voqKey i o c) != [] && (combMode s == 3 || (outQ s (8 * o + c) == [] && spillOf s (8 * o + c) == []))

/-- The grant of an unmatched output (R165): the highest class requested, the input at or after its pointer. -/
def outGrant (s : State) (ins : List Nat) (o : Nat) : Option (Nat × Nat) :=
  match ([7, 6, 5, 4, 3, 2, 1, 0].filter fun c => ins.any fun i => voqServes s i o c).head? with
  | none => none
  | some c =>
    (firstFrom 18 (Tab.get zeroN s.comb.gptr (8 * o + c)) fun i => ins.contains i && voqServes s i o c).map fun i => (i, c)

/-- The matched output reads the head of the VOQ into its read-ahead; a busy bank delays it one cell time (R165). Cells that have aged
out, and the rest of frames being discarded, go as they come to the head (R163, R170). -/
def readVoq (i o c : Nat) (s : State) : State :=
  let k := voqKey i o c
  match sift (8 * o + c) (voqOf s k) s with
  | ([], s) => leaveIfEmpty o c (setVoq k [] s)
  | (e :: l, s) =>
    if bankIdle s (e.addr / 16384) then holdBank (e.addr / 16384) (setAhead o (aheadOf s o ++ [e]) (setVoq k l s))
    else setVoq k (e :: l) s

/-- One matching iteration of VOQ mode. -/
def voqIter (first : Bool) (ins outs : List Nat) (s : State) : List Nat × List Nat × State :=
  let grants := outs.filterMap fun o => (outGrant s ins o).map fun g => (o, g.1, g.2)
  ins.foldl (fun r i =>
    match firstFrom 17 (Tab.get zeroN s.comb.aptr (100 + i)) (fun o => grants.any fun g => g.1 == o && g.2.1 == i) with
    | none => r
    | some o =>
      let c := ((grants.filter fun g => g.1 == o).map fun g => g.2.2).headD 0
      let s' := readVoq i o c r.2.2
      let s' := if first then updComb (fun x => { x with
          gptr := Tab.set zeroN (8 * o + c) ((i + 1) % 18) x.gptr, aptr := Tab.set zeroN (100 + i) ((o + 1) % 17) x.aptr }) s' else s'
      (r.1.filter (· != i), r.2.1.filter (· != o), s')) (ins, outs, s)

/-- Outputs with room in their 4 read-ahead cells (R164, R165). -/
def roomAhead (s : State) : List Nat := (List.range 17).filter fun o => (aheadOf s o).length < 4

/-- The second and the third matching iteration of VOQ mode. -/
def voqRest (ins outs : List Nat) (s : State) : State :=
  let (i, o, s) := voqIter false ins outs s
  (voqIter false i o s).2.2

/-- The second and the third iteration of shared mode. -/
def sharedRest (a : Arb) (s : State) : State :=
  let (a, s) := sharedIter false a s
  (sharedIter false a s).2

/-- The three iterations of a cell time (R164, R165). While a change of mode is in progress the first serves the old discipline, the
second and third the new one (R168). In VOQ mode, and while the Comb enters it, writes follow R165. -/
def arbitrate (s : State) : State :=
  match combMode s with
  | 0 =>
    let (a, s) := sharedIter true (arbNow s) s
    sharedRest a s
  | 1 =>
    let (i, o, s) := voqIter true (List.range 18) (roomAhead s) s
    voqWrites (voqRest i o s)
  | 2 =>
    let s := (sharedIter true { arbNow s with left := [] } s).2
    voqWrites (voqRest (List.range 18) (roomAhead s) s)
  | _ =>
    let s := (voqIter true (List.range 18) (roomAhead s) s).2.2
    sharedRest (arbNow s) s

/-! The work of a cell time beside the arbiter. -/

/-- Cells that P17 holds or has asked for, of its pool of 512 (Table 5.4). -/
def refillPool (s : State) : Nat :=
  ((cellsOf s.comb.outQ).filter fun e => e.refill).length + 16 * s.comb.refills.length

/-- P17 asks for 16 cells of a spilled queue whose Comb part has fallen below 128 cells (R161), while S1 is IN_SERVICE (R162), within
its pool (Table 5.4) and while the class is not held (Table 5.5). -/
def askRefills (s : State) : State :=
  forAll (s.comb.spill.map fun x => x.1) (fun q s =>
    if (outQ s q).length < 128 && Tab.get zeroN s.comb.refills q == 0 && s1Up s && refillPool s + 16 ≤ 512 &&
        (voqOn s || !(Tab.get noB s.comb.xoff (8 * 17 + q % 8))) then
      updComb (fun c => { c with refills := Tab.set zeroN q 1 c.refills }) s
    else s) s

/-- A queue held for want of a spill segment goes on once there is one (R162). -/
def updSpillFull (s : State) : State :=
  updComb (fun c => { c with spillFull := c.spillFull.filter fun x => !spillRoom s x.1 }) s

/-- A change of mode ends when the old lists are empty (R168). In recovery the audit starts once the output queues have drained or been
moved (R172 step 2). -/
def modeProgress (s : State) : State :=
  let s := settleMode s
  if s.comb.vcauses.contains 3 && voqOn s && cellsOf s.comb.outQ == [] && !rdB Reg.CMB.STAT.AUDIT_FAIL s then wr Reg.CMB.STAT.AUDIT 1 s
  else s

/-- Banks that NBANK counts: not retired, and not under a rotation test (R472). -/
def nbank (s : State) : Nat :=
  16 - ((List.range 16).filter fun b => bit b (rd Reg.CMB.BANK.RETIRED s) ||
    (bit b (rd Reg.CMB.BANK.TEST s) && (!bit b (rd Reg.CMB.BANKCTL.RET_REQ s) || s.comb.rotRetire.contains b))).length

def updNbank (s : State) : State := wr Reg.CMB.STAT.NBANK (nbank s) s

/-- A retirement is in progress: one bank relocates at a time (Table 5.9). -/
def relocating (s : State) : Bool :=
  (List.range 16).any fun b => bit b (rd Reg.CMB.BANK.TEST s) && bit b (rd Reg.CMB.BANKCTL.RET_REQ s) && !s.comb.rotRetire.contains b

/-- The next waiting retirement begins in shared mode (R174, Table 5.9). -/
def retireProgress (s : State) : State :=
  if combMode s = 0 && !relocating s then
    match s.comb.retWait with
    | [] => s
    | b :: l => retireNow b (updComb (fun c => { c with retWait := l }) s)
  else s

/-- Index numbers of bank `b` that hold a cell. -/
def usedIn (s : State) (b : Nat) : List Nat :=
  let l := cellsOf s.comb.outQ ++ cellsOf s.comb.park ++ cellsOf s.comb.voq ++ cellsOf s.comb.voqPark ++ cellsOf s.comb.ahead ++
    (([0, 1, 2, 3].map fun p => (lp s p).tx.buf ++ (lp s p).tx.custody).flatten.map fun e => e.ent)
  (l.filter fun e => e.addr / 16384 == b).map fun e => e.addr % 16384

/-- Puts a bank back into write allocation with a new free stack and an empty error count (R176). -/
def bankBack (b : Nat) (s : State) : State :=
  let used := usedIn s b
  let st : Stack := if used = [] then { ret := [], fresh := 0 }
    else { ret := (List.range 16384).filter fun i => !used.contains i, fresh := 16384 }
  let s := updComb (fun c =>
    { c with
      freeStk := Tab.set (fun _ => { ret := [], fresh := 0 }) b st c.freeStk
      bankErrs := Tab.set noCells b [] c.bankErrs }) s
  wr Reg.CMB.BANK.RETIRED (setBit b false (rd Reg.CMB.BANK.RETIRED s)) (wr Reg.CMB.BANK.TEST (setBit b false (rd Reg.CMB.BANK.TEST s)) s)

/-- A bank rotation test ends ABORTED: its bank returns, or goes on to the retirement that was requested (Tables 5.9, 19.5). -/
def rotAbort (s : State) : State :=
  match s.tests.rot with
  | none => s
  | some r =>
    let s := { s with tests := { s.tests with rot := none } }
    let s := if s.comb.rotRetire.contains r.bank then
        updComb (fun c => { c with rotRetire := c.rotRetire.filter (· != r.bank) }) s
      else bankBack r.bank s
    abortTest 0x1FF (leaveVoq 2 (updNbank s))

/-- The cells of a list that can no longer be reached, each with its list and whether its link entry is good. -/
def loseCells (k : Nat) (l : List QEnt) (firstGood : Bool) : List (Nat × Bool × QEnt) :=
  (l.take 1).map (fun e => (k, firstGood, e)) ++ (l.drop 1).map fun e => (k, true, e)

/-- Output queue `q` is cut behind its first cells that pass; what follows is lost until the audit (R172 step 1). -/
def cutQueue (q : Nat) (ok : QEnt → Bool) (firstGood : Bool) (s : State) : State :=
  let l := outQ s q
  let good := l.takeWhile ok
  leaveIfEmpty (q / 8) (q % 8)
    (updComb (fun c => { c with lost := c.lost ++ loseCells q (l.drop good.length) firstGood }) (setOutQ q good s))

/-- As `cutQueue`, for park list `k`. -/
def cutPark (k : Nat) (ok : QEnt → Bool) (firstGood : Bool) (s : State) : State :=
  let l := parkOf s k
  let good := l.takeWhile ok
  updComb (fun c => { c with lost := c.lost ++ loseCells (144 + k) (l.drop good.length) firstGood }) (setPark k good s)

/-- The list that a damaged link-memory entry or descriptor breaks is frozen at its last good entry (R172 step 1): the damaged entry and
everything behind it cannot be reached, and behind a damaged descriptor nothing can. VOQs and rings do not use link memory. -/
def freezeList (r : LinkRead) (s : State) : State :=
  match r with
  | .outDesc p c _ => cutQueue (8 * p.val + c.val) (fun _ => false) true s
  | .parkDesc p c _ => cutPark (8 * p.val + c.val) (fun _ => false) true s
  | .entry a _ =>
    let at_ := fun e : QEnt => e.addr == a.toNat
    match listWith at_ s.comb.outQ, listWith at_ s.comb.park with
    | some (q, _), _ => cutQueue q (fun e => !at_ e) false s
    | none, some (k, _) => cutPark k (fun e => !at_ e) false s
    | none, none => s

/-- A link-memory or descriptor error (R172, R173, Table 5.9). A second one restarts the audit; a third fails it. The bank that the log
entry of a descriptor error names is not stated: a free value. -/
def linkMemError (r : LinkRead) (s : State) : State :=
  let s := rotAbort s
  let x := match r with
    | .entry a _ => (a.toNat / 16384, bankError (a.toNat / 16384) s)
    | _ => match drawFree s with
      | (v, s) => (v.toNat % 16, s)
  let s := x.2
  let n := s.comb.auditErrs + 1
  let s := updComb (fun c => { c with auditErrs := n }) s
  if rdB Reg.CMB.STAT.AUDIT_FAIL s then s
  else
    let s := freezeList r (enterVoq 3 (logErr 0x0102 0 x.1 s))
    if 3 ≤ n then
      logErr 0x0103 0 0 (raise srcERR_DROP (wr Reg.CMB.STAT.AUDIT_FAIL 1 (wr Reg.CMB.STAT.AUDIT 0 s)))
    else s

/-- Takes the cell at address `a` out of a list. -/
def without (a : Nat) (l : List QEnt) : List QEnt := l.filter fun e => e.addr != a

/-- The cell at address `a` is found damaged by the relocator or by a read that fills no slot (R169, R174, Table 5.7): in a queue or on
a park list it is recalled or discarded, on a ring a void cell takes its place. -/
def badAddrCell (a : Nat) (s : State) : State :=
  let at_ := fun e : QEnt => e.addr == a
  let one := fun l : List QEnt => (l.filter at_).head?
  match listWith at_ s.comb.outQ, listWith at_ s.comb.ahead, listWith at_ s.comb.voq with
  | some (q, l), _, _ => ((one l).map fun e => leaveIfEmpty (q / 8) (q % 8) (badCell q e (setOutQ q (without a l) s))).getD s
  | _, some (o, l), _ => ((one l).map fun e =>
      leaveIfEmpty o e.cell.tc (badCell (8 * o + e.cell.tc) e (setAhead o (without a l) s))).getD s
  | _, _, some (k, l) => ((one l).map fun e =>
      leaveIfEmpty (k / 8 % 18) e.cell.tc (badCell (8 * (k / 8 % 18) + e.cell.tc) e (setVoq k (without a l) s))).getD s
  | none, none, none =>
    match listWith at_ s.comb.park, listWith at_ s.comb.voqPark with
    | some (k, l), _ => ((one l).map fun e => badCell (144 + k) e (setPark k (without a l) s)).getD s
    | _, some (i, l) => ((one l).map fun e => badCell (parkList i e.cell.tc) e (setVoqPark i (without a l) s)).getD s
    | none, none =>
      match ([0, 1, 2, 3].map fun n => ((lp s n).tx.buf ++ (lp s n).tx.custody).map fun e => (n, e)).flatten.find? fun x =>
          at_ x.2.ent && !x.2.isVoid with
      | some (n, e) => voidEnt n e s
      | none => s

/-- COMB_CELL_TIME (R151, R153, R158 to R168, R172, R173): one cell time. `linkRead` is a link-memory word read in it, of which only one
whose CRC-8 fails matters, and `damaged` the address of a cell found with a CRC error by a read that fills no slot. -/
def execCombCellTime (linkRead : Option LinkRead) (damaged : Option (BitVec 18)) (s : State) : Res :=
  let s := tickBusy s
  let s := match linkRead with
    | some r => if linkBad r then linkMemError r s else s
    | none => s
  let s := match damaged with
    | some a => badAddrCell a.toNat s
    | none => s
  let s := pruneMarks (forAll (List.range 17) siftPort s)
  let s := forAll (List.range 18) spillCopies s
  let s := modeProgress (arbitrate s)
  let s := updXoff (updSpillOn (updSpillFull s))
  .next (retireProgress (askRefills s))

/-- Refilled cells enter the Comb part (R161, R163): aged ones are skipped. Without a free cell the rest stays at the head of the spill
FIFO. -/
def refillCells (q : Nat) : List QEnt → State → State
  | [], s => s
  | e :: l, s =>
    if aged s e then refillCells q l (discardCell 0 q false e (takeSpill q 1 s))
    else match takeSpare s with
      | some (a, s) => refillCells q l (setOutQ q (outQ s q ++ [{ e with addr := a, refill := true }]) (takeSpill q 1 s))
      | none => s

/-- SPILL_REFILL_DONE (R161, R163, R169): the first `unreadable` of the 16 cells read back have no source. -/
def execSpillRefillDone (p : Fin 17) (c : Fin 5) (unreadable : Nat) (s : State) : Res :=
  let q := 8 * p.val + c.val
  if Tab.get zeroN s.comb.refills q = 0 ∨ dcmServes s 5 = false then .next s
  else
    let s := updComb (fun x => { x with refills := Tab.set zeroN q 0 x.refills }) s
    let l := (spillOf s q).take 16
    let s := takeSpill q (min unreadable l.length) s
    let s := forAll (l.take unreadable) (fun e s => if e.xc then recallCell e s else discardCell 1 q false e s) s
    let s := if unreadable = 0 then s else logErr 0x0301 1 ((rd (Reg.DCM.RGN.CUR 4) s) * 16384) (countBy (cDCM 0) 2 s)
    .next (leaveIfEmpty p.val c.val (refillCells q (l.drop unreadable) s))

/-- FRAME_DISCARD_END (R170 step 5): the 1 ms limit of a frame discard ends. -/
def execFrameDiscardEnd (p : Fin 18) (c : Fin 8) (inp : Fin 18) (s : State) : Res :=
  let q := 8 * p.val + c.val
  .next (endLogs (144 + q) inp.val (endLogs q inp.val s))

/-- AUDIT_DONE (R172): unreachable cells are recalled or discarded, the free stacks rebuilt. -/
def execAuditDone (s : State) : Res :=
  if rdB Reg.CMB.STAT.AUDIT s then
    let l := s.comb.lost
    let s := updComb (fun c => { c with lost := [], auditErrs := 0 }) s
    let s := forAll l (fun x s =>
      if x.2.1 && x.2.2.xc then recallCell x.2.2 (freeAddr x.2.2.addr s) else discardCell 1 x.1 true x.2.2 s) s
    .next (leaveVoq 3 (raise srcAUDIT_DONE (wr Reg.CMB.STAT.AUDIT 0 s)))
  else .next s

/-- VOQ_QUEUE_MOVE (R168): the cells of an intact output queue move, in order, to the heads of their VOQs. A queue with spilled cells
goes on as it is until they are back, so that none of its cells passes another (notes/assumptions/47). -/
def execVoqQueueMove (p : Fin 17) (c : Fin 8) (s : State) : Res :=
  let q := 8 * p.val + c.val
  if voqOn s && spillOf s q == [] then
    let l := outQ s q
    .next (forAll l.reverse (fun e s =>
      let k := voqKey e.inp p.val c.val
      setVoq k (e :: voqOf s k) s) (setOutQ q [] s))
  else .next s

/-- FL_READY (R167, R173, R175): link memory and free stacks are built; failing banks are retired before it, four at most. -/
def execFlReady (failing : BitVec 16) (s : State) : Res :=
  if rdB Reg.CMB.STAT.FL_READY s then .next s
  else
    let bad := onBits 16 failing.toNat
    let s := forAll (bad.take 4) (fun b s =>
      logErr 0x0402 0 b (raise srcBANK_RET (wr Reg.CMB.BANK.RETIRED (setBit b true (rd Reg.CMB.BANK.RETIRED s)) s))) s
    let s := if 4 < bad.length then raise srcBANK_LIMIT s else s
    .next (leaveVoq 1 (wr Reg.CMB.STAT.FL_READY 1 (updNbank s)))

/-! Banks (R173 to R177). -/

/-- Writes of RET_REQ (R174, R175): lower banks first. -/
def retReq (mask : Nat) (s : State) : State := retireProgress (forAll (onBits 16 mask) requestRetire s)

/-- BANKCTL_RET_REQ (R173 to R175). -/
def execBankctlRetReq (mask : BitVec 16) (s : State) : Res :=
  access Reg.CMB.BANKCTL.word.addr (fun s => retReq mask.toNat s) s

/-- Cells of bank `b`. -/
def cellsIn (s : State) (b : Nat) : Nat := (usedIn s b).length

/-- Moves the cells of bank `b` in a list to other banks. -/
def moveCells (b : Nat) : List QEnt → State → List QEnt × State
  | [], s => ([], s)
  | e :: l, s =>
    match (if e.addr / 16384 = b then takeSpare s else none) with
    | some (a, s) =>
      let r := moveCells b l s
      ({ e with addr := a } :: r.1, r.2)
    | none =>
      let r := moveCells b l s
      (e :: r.1, r.2)

/-- Moves the cells of replay and custody rings. -/
def moveEnts (b : Nat) : List TxEnt → State → List TxEnt × State
  | [], s => ([], s)
  | e :: l, s =>
    let r := moveCells b [e.ent] s
    let t := moveEnts b l r.2
    ({ e with ent := r.1.headD e.ent } :: t.1, t.2)

/-- The cells of a line port's rings move; a recalled copy that waits is read from where its original now lies (R123). -/
def moveRings (b p : Nat) (s : State) : State :=
  let t := (lp s p).tx
  match moveEnts b t.buf s with
  | (l, s) =>
    match moveEnts b t.custody s with
    | (m, s) =>
      let moved := ((t.buf ++ t.custody).map (·.ent.addr)).zip ((l ++ m).map (·.ent.addr))
      let now := fun a => ((moved.find? fun x => x.1 == a).map (·.2)).getD a
      updTx p (fun t => { t with buf := l, custody := m, recalls := t.recalls.map fun e => { e with addr := now e.addr } }) s

/-- Moves the cells of a numbered list. -/
def moveList (b : Nat) (get : State → Nat → List QEnt) (set : Nat → List QEnt → State → State) (k : Nat) (s : State) : State :=
  match moveCells b (get s k) s with
  | (l, s) => set k l s

/-- The relocator walks every list (Table 5.8 step 2). -/
def relocate (b : Nat) (s : State) : State :=
  let s := forAll (s.comb.outQ.map (·.1)) (moveList b outQ setOutQ) s
  let s := forAll (s.comb.park.map (·.1)) (moveList b parkOf setPark) s
  forAll [0, 1, 2, 3] (moveRings b) (updComb (fun c => { c with marks := [] }) s)

/-- The bank is retired (Table 5.8 step 3). -/
def retireDone (b : Nat) (s : State) : State :=
  let s := wr Reg.CMB.BANK.RETIRED (setBit b true (rd Reg.CMB.BANK.RETIRED s)) (wr Reg.CMB.BANK.TEST (setBit b false (rd Reg.CMB.BANK.TEST s)) s)
  let s := wr Reg.CMB.BANKCTL.RET_REQ (setBit b false (rd Reg.CMB.BANKCTL.RET_REQ s)) s
  updNbank (logErr 0x0402 0 b (raise srcBANK_RET s))

/-- RELOCATION_DONE (R174, Table 5.8 steps 2 and 3, R177): not before other banks have room for every cell of `b`. -/
def execRelocationDone (b : Fin 16) (s : State) : Res :=
  let n := b.val
  if bit n (rd Reg.CMB.BANK.TEST s) && bit n (rd Reg.CMB.BANKCTL.RET_REQ s) && combMode s == 0 &&
      !(s.comb.rotRetire.contains n) && cellsIn s n ≤ ((banksIn s).map (bankFree s)).foldl (· + ·) 0 then
    .next (retireProgress (retireDone n (relocate n s)))
  else .next s

/-- Writes of RTN_REQ (R176, R177): for a retired bank, or held until its retirement is done. -/
def rtnReq (mask : Nat) (s : State) : State :=
  forAll (onBits 16 mask) (fun b s =>
    if bit b (rd Reg.CMB.BANK.RETIRED s) || bit b (rd Reg.CMB.BANKCTL.RET_REQ s) then
      wr Reg.CMB.BANKCTL.RTN_REQ (setBit b true (rd Reg.CMB.BANKCTL.RTN_REQ s)) s
    else s) s

/-- BANKCTL_RTN_REQ (R176). -/
def execBankctlRtnReq (mask : BitVec 16) (s : State) : Res :=
  access Reg.CMB.BANKCTL.word.addr (fun s => rtnReq mask.toNat s) s

/-- BANK_RETURN_DONE (R176): the bank enters write allocation. -/
def execBankReturnDone (b : Fin 16) (s : State) : Res :=
  let n := b.val
  if bit n (rd Reg.CMB.BANKCTL.RTN_REQ s) && bit n (rd Reg.CMB.BANK.RETIRED s) then
    .next (updNbank (bankBack n (wr Reg.CMB.BANKCTL.RTN_REQ (setBit n false (rd Reg.CMB.BANKCTL.RTN_REQ s)) s)))
  else .next s

/-- A write of CMB.MODE.FORCE_VOQ (Table 5.6). -/
def forceVoq (v : Bool) (s : State) : State :=
  let s := wr Reg.CMB.MODE.FORCE_VOQ (ofBool v) s
  if v then enterVoq 4 s else leaveVoq 4 s

/-- FORCE_VOQ_WRITE (R167). -/
def execForceVoqWrite (v : Bool) (s : State) : Res :=
  access Reg.CMB.MODE.word.addr (fun s => forceVoq v s) s

end Sys2Proof.Machine
end

