-- ==== Sys2Proof/Machine/SlotFill.lean ====
section
/-! DEFINITION. What fills the next slot of an output switch port (R65 to R67, R104 to R109, R120 to R123, R135, R171, R179 to
R186). -/
namespace Sys2Proof.Machine

/-! Ordered-set slots and frame control words of a line port. -/

/-- A word of R67: CREDIT or RESYNC. -/
def creditWord (w : OsWord) : Bool := w.typ == 0x10 || w.typ == 0x11

/-- A TIME word, which opens a frame (R65, Table 9.1). -/
def timeWord (w : OsWord) : Bool := 0x08 ≤ w.typ && w.typ ≤ 0x0B

/-- The QUAL this node sends (R243, R245). -/
def sendQual (s : State) : Nat :=
  let q := rd Reg.TIM.STAT.QSTATE s
  if q = 5 then 0
  else if q = 3 ∨ q = 4 ∨ s.time.slowQual = true then 1
  else if q = 0 then 2
  else if rd Reg.TIM.STAT.UQUAL s = 1 then 1
  else if q = 2 then 0 else 2

/-- Line time from `a` to `b` in 2^-32 ns, signed. -/
def timeSince (a b : Nat) : Int := signed 96 (Machine.ahead (2 ^ 96) a b)

/-- What a TIME word carries as it passes its timestamp point (R238, Table 9.1): in SYNC_HI and SYNC_LO line time at the instant
`at_` of the SYNC, in DRSP the turnaround. -/
def stampWord (n at_ : Nat) (s : State) (w : OsWord) : OsWord :=
  if w.typ = 0x08 then { w with body := rd Reg.TIM.STAT.STRAT s * 2 ^ 40 + sendQual s * 2 ^ 32 + at_ / 2 ^ 64 }
  else if w.typ = 0x09 then { w with body := at_ / 2 ^ 32 % 2 ^ 32 * 2 ^ 16 + at_ / 2 ^ 16 % 2 ^ 16 }
  else if w.typ = 0x0B then { w with body := w.body + (timeSince (lp s n).time.dreqRx (portNow s n) / 2 ^ 24).toNat % 2 ^ 40 }
  else w

/-- The word may leave: DRSP goes 200 ns after its DREQ (R239). -/
def wordDue (s : State) (n : Nat) (w : OsWord) : Bool := w.typ != 0x0B || (lp s n).time.dreqAt + 200 ≤ s.now

/-- What follows a word once it has gone: after STATE_ACK the port enters the target at the next frame boundary, in DOZE at once
(R73); RESYNC(RECALL) (R123); the credit limits and XREL last sent (R116, R119); SYNC_HI and DREQ leave their timestamps. -/
def sentWord (n : Nat) (w : OsWord) (s : State) : State :=
  if w.typ = 0x08 then updLp n (fun p => { p with time := { p.time with syncSent := portNow s n } }) s
  else if w.typ = 0x0A then updLp n (fun p => { p with time := { p.time with dreqSent := portNow s n } }) s
  else if w.typ = 0x05 then
    match (lp s n).enterAfter with
    | some t => if framesRun s n then updLp n (fun p => { p with enterAfter := none, enterNow := some t }) s else enterState n t s
    | none => s
  else if w.typ = 0x10 then
    updRx n (fun r => { r with
      clSent := Tab.set zeroN (bits 47 46 w.body) (bits 45 30 w.body) r.clSent
      clWord := Tab.set zeroN (bits 47 46 w.body) (bits 45 30 w.body) r.clWord
      xrelWord := bits 29 18 w.body
      credPend := r.credPend.filter fun c => c != bits 47 46 w.body || creditLimit s n c != bits 45 30 w.body }) s
  else if w.typ = 0x11 ∧ bits 47 44 w.body = 4 then
    let x := bits 28 17 w.body
    if (lp s n).rx.recallPend.contains x then
      releaseX n x (updRx n (fun r => { r with recallPend := r.recallPend.filter (· != x) }) s)
    else s
  else s

/-- The words of the next OS slot (R63, R65, R112): up to 14, TIME words in slot 0 only, and the CREDIT words that wait all in one
slot. -/
def osWords (s : State) (n : Nat) : List OsWord :=
  let p := lp s n
  let due := if p.slotInFrame = 0 then p.osq.filter (fun w => timeWord w && wordDue s n w) ++ p.osq.filter (fun w => !timeWord w)
    else p.osq.filter fun w => !timeWord w
  let cut := (due.take 14).reverse.dropWhile (fun w => w.typ == 0x10)
  if ((due.drop 14).head?.any fun w => w.typ == 0x10) && cut != [] then cut.reverse else due.take 14

/-- An OS slot took the allowance of R65: it carried words other than those of R67 while cells waited. Other slots count from the
last one that did. -/
def sinceOsAfter (waits : Bool) (ws : List OsWord) (k : Nat) : Nat :=
  if waits && ws != [] && !ws.any creditWord then 0 else min 255 (k + 1)

/-- One OS slot with the words that wait; `waits` says that cells wait. -/
def sendOs (n : Nat) (waits : Bool) (s : State) : State :=
  let ws := osWords s n
  let s := updLp n (fun p => { p with
    osq := p.osq.filter fun w => !ws.contains w
    lastSlot := .os (ws.map (stampWord n (portNow s n) s))
    sinceOs := sinceOsAfter waits ws p.sinceOs }) s
  forAll ws (sentWord n) s

/-- A DOZE word goes out on the base lane (R66). -/
def putDoze (n : Nat) (nrz : Bool) (lanes : Nat) (w : OsWord) (s : State) : State :=
  let d := dozeBits w
  updLp n (fun p => { p with lastSlot := .doze d, lanesOut := List.replicate lanes (dozeBauds nrz d) }) s

/-- A DOZE word can carry the word (Table 2.4). -/
def dozeCarries (w : OsWord) : Bool := w.typ != 0x07 && w.typ != 0x10 && w.typ != 0x11

/-- One word of a base-rate lane (R66): IDLE where nothing waits. -/
def sendDozeWord (n : Nat) (s : State) : State :=
  let nrz := rdB (Reg.HLP.STAT.MODE_CUR n) s
  match takeFirst (fun w => wordDue s n w && dozeCarries w) (lp s n).osq with
  | none => putDoze n nrz 1 oswIDLE s
  | some (w, l) =>
    let at_ := if w.typ = 0x09 then (lp s n).time.syncSent else portNow s n
    sentWord n w (putDoze n nrz 1 (stampWord n at_ s w) (updLp n (fun p => { p with osq := l }) s))

/-- A CAP word on the training lane (Table 2.5, P2). -/
def sendCap (n : Nat) (s : State) : State :=
  match (lp s n).osq with
  | [] => s
  | w :: _ =>
    let s := putDoze n (lp s n).baseNrz 1 w s
    if bit 36 w.body then capDone n (updLp n (fun p => { p with capAckTx := true }) s) else s

/-- PRBS31 on the lanes (Table 2.5, P3). -/
def sendPrbs (n : Nat) (s : State) : State :=
  let r := prbs31 1040 (lp s n).prbs
  updLp n (fun p => { p with prbs := r.2, lastSlot := .prbs31 r.1 }) s

/-- An alignment block on each lane (Table 2.5, P4): READY is set from the start, and LAST in the block after 16
(notes/assumptions/44). -/
def sendAlign (n : Nat) (s : State) : State :=
  let r := prbs31 1000 (lp s n).prbs
  updLp n (fun p => { p with
    prbs := r.2, txFrame := p.txFrame + 1, lastSlot := .align (alignBlocks p.txLanes r.1 (p.txFrame == 16) true) }) s

/-- A frame control word goes into the frame. -/
def putFcw (n t v : Nat) (s : State) : State :=
  updLp n (fun p => { p with lastFcw := (t, v), fcws := p.fcws ++ [fcwBits t v] }) s

/-- The pending CREDIT FCW that is next in round-robin order (R112). -/
def nextCredit (r : RxLink) : Option Nat := ([1, 2, 3, 4].map fun i => (r.credLast + i) % 4).find? fun c => r.credPend.contains c

/-- A frame control word of the receiver (R104): NAK, then ACK and CREDIT in turn, then NULL. -/
def buildFcw (n : Nat) (s : State) : State :=
  let r := (lp s n).rx
  let ack := r.ackPend || 8 ≤ r.frames
  if r.nakPend then putFcw n 2 r.e (count (cHLP n kNAK_TX) (updRx n (fun r => { r with nakPend := false }) s))
  else if ack && (r.ackTurn || r.credPend == []) then
    putFcw n 1 r.e (updRx n (fun r => { r with ackPend := false, ackTurn := false, frames := 0 }) s)
  else match nextCredit r with
    | some cc =>
      let cl := creditLimit s n cc
      putFcw n 3 (cc * 2048 + cl % 2048) (updRx n (fun r => { r with
        credPend := r.credPend.filter (· != cc), credLast := cc, ackTurn := true, clSent := Tab.set zeroN cc cl r.clSent }) s)
    | none => putFcw n 0 0 s

/-- A codeword begins with this slot (R55, Table 2.2): with slot 0, and where the frame has two codewords with slot 2, whose second
half opens the second one. -/
def fcwDue (s : State) (n : Nat) : Bool := (lp s n).slotInFrame == 0 || ((lp s n).slotInFrame == 2 && twoFcws s n)

/-- The slot has gone into the frame. After the fifth the frame is on the lanes (R55 to R59), the next one follows, and a port that
has acknowledged a deeper state enters it (R73). -/
def nextSlot (n : Nat) (s : State) : State :=
  let p := lp s n
  if p.slotInFrame < 4 then updLp n (fun p => { p with slotInFrame := p.slotInFrame + 1, slots := p.slots ++ [p.lastSlot] }) s
  else
    let r := frameLanes (rd (Reg.HLP.STAT.FEC_CUR n) s) (rdB (Reg.HLP.STAT.MODE_CUR n) s) (onBits 4 p.txLanes).length p.scr p.fcws
      (p.slots ++ [p.lastSlot])
    let s := updLp n (fun p => { p with
      slotInFrame := 0, txFrame := (p.txFrame + 1) % 65536, fcws := [], slots := [], scr := r.2, lanesOut := r.1
      rx := { p.rx with frames := p.rx.frames + 1 } }) s
    match p.enterNow with
    | some t => enterState n t s
    | none => s

/-! Cells on a line port. -/

/-- The VER this port sends (R94): that of the negotiated PROTO. -/
def egressVer (s : State) (n : Nat) : Nat := if (lp s n).proto = 1 then 1 else 2

/-- The slot carries a cell with the VER of the port (R93, R94): the fixed difference added to its CRC-32C gives the CRC-32C of the
cell as it is sent (crc32c_change in Laws/Codes.lean). -/
def putCell (n : Nat) (c : Cell) (s : State) : State :=
  let s := countBy (cHLP n kTX_BYTES) c.vlen (count (cHLP n kTX_CELLS) s)
  updLp n (fun p => { p with lastSlot := .cell { c with ver := egressVer s n }, lastCell := s.now, sinceOs := min 255 (p.sinceOs + 1) }) s

/-- A new cell takes the next SEQ, and the next XSEQ when XPR = 1; it stays in the replay buffer (R101, R105, R120, R190). -/
def sendNew (n : Nat) (e : QEnt) (credit : Bool) (s : State) : State :=
  let cc := ccOf e.cell.tc
  let x := e.cell.xpr
  let s := updTx n (fun t => { t with
    buf := t.buf ++ [{ seq := t.seq, xseq := t.xseq, ent := e, isVoid := false }]
    seq := (t.seq + 1) % 8192
    xseq := if x then (t.xseq + 1) % 4096 else t.xseq
    cons := if credit then Tab.set zeroN cc ((Tab.get zeroN t.cons cc + 1) % 65536) t.cons else t.cons }) s
  let s := if expressCell e.cell then updLp n (fun p => { p with xwin := p.xwin + 1 }) s else s
  ringGone e.cell (putCell n e.cell s)

/-- The void cell of R171. -/
def voidCell (e : QEnt) : Cell :=
  { dst := 0, src := 0, tun := 0, tc := e.cell.tc, typ := 0xF, f := true, l := true, vlen := 116, xpr := e.cell.xpr, ver := 2,
    payload := List.replicate 116 0 }

/-- The RESYNC(REPLAY) word of a replay takes the slot (R105). -/
def sendResync (n k : Nat) (s : State) : State :=
  updTx n (fun t => { t with replayWord := false, replay := if t.buf = [] then none else t.replay })
    (updLp n (fun p => { p with lastSlot := .os [oswRESYNC 2 k 0 0], sinceOs := min 255 (p.sinceOs + 1) }) s)

/-- A void cell goes in the slot of a lost one (R171). -/
def sendVoid (n : Nat) (e : QEnt) (s : State) : State :=
  putCell n (voidCell e) (logErr 0x0104 0 (n * 2 ^ 24 + e.cell.tc * 2 ^ 16) s)

/-- The next cell of a replay (R105, R171): a damaged copy goes as a void cell. Replayed and void cells are not counted in the
express monitor's window, of which R190 says only that it counts the cells that leave (notes/assumptions/45). -/
def resend (n k : Nat) (e : TxEnt) (crcBad : Bool) (s : State) : State :=
  let t := (lp s n).tx
  let next := if (k + 1) % 8192 = t.seq then none else some ((k + 1) % 8192)
  let s := setMarks n ((marksOf s n).filter (· != e.ent.addr)) (updTx n (fun t => { t with replay := next }) s)
  if e.isVoid then sendVoid n e.ent s
  else if crcBad then sendVoid n e.ent (voidEnt n e s)
  else putCell n e.ent.cell s

/-! Line ports. -/

/-- A cell waits for a slot of the port. -/
def cellWaits (s : State) (n : Nat) : Bool := pendingOut s n || (aheadOf s n) != []

/-- The replay buffer takes no new cell (R109). -/
def replayFull (s : State) (n : Nat) : Bool := 4095 ≤ (lp s n).tx.buf.length

/-- A recalled copy is sent as a new cell (R123). Where the copy read back fails its own CRC, of which the spec says nothing, it is
dropped with ERR_DROP and XLOST and the slot stays as it is; and no port shaper is charged for the copy, since R186 charges cells
that leave from the Comb and on the express repeat path (notes/assumptions/45). It waits for a bank that takes its write. -/
def sendRecalled (n : Nat) (crcBad : Bool) (e : QEnt) (s : State) : Option State :=
  let drop := updTx n (fun t => { t with recalls := t.recalls.drop 1 })
  if crcBad then some (loseRecall n e (drop s))
  else (takeWrite s).map fun r => sendNew n { e with addr := r.1, xc := false } true (drop r.2)

/-- The head of the express FIFO is sent (R131, R135, R155): it is forwarded, so it leaves the receive reserve (R111) and its XSEQ
upstream is released (R121). It waits for a bank that takes the write of its copy (R30). -/
def sendFifo (n : Nat) (e : QEnt) (s : State) : Option State :=
  (takeWrite s).map fun r =>
    let s := updLp n (fun p => { p with fifo := p.fifo.drop 1 }) r.2
    let s := count (cXPR (28 + n)) (sendNew n { e with addr := r.1, charged := false } false s)
    let s := uncharge e s
    if e.xc then releaseX e.inp e.xseq s else s

/-- Express cells wait because the custody store is full (R122). -/
def custodyFull (n : Nat) (s : State) : State := raise (srcXCUST_FULL n) (count (cHLP n kXCUST_FULL) s)

/-- The new cells of R135 steps 4 to 6, and step 7. -/
def fillNew (n : Nat) (crcBad : Bool) (s : State) : State :=
  let t := (lp s n).tx
  let full := custCount t == 1024
  let waitsX := match t.recalls.head?, (lp s n).fifo.head? with
    | some e, _ => e.cell.xpr
    | none, some e => e.cell.xpr
    | none, none => false
  let s := if full && (waitsX || (List.range 8).any (fun c => match headOf s n c with
      | some (e, _) => e.cell.xpr
      | none => false)) then custodyFull n s else s
  let comb := fun s =>
    let s := siftPort n s
    (sendFromComb n crcBad (fun e s => sendNew n e true s) s).getD (sendOs n full s)
  let fifo := match (lp s n).fifo with
    | f :: _ => if full then none else sendFifo n f s
    | [] => none
  let recalled := match t.recalls with
    | e :: _ => if 0 < creditOf t (ccOf e.cell.tc) && !(full && e.cell.xpr) then sendRecalled n crcBad e s else none
    | [] => none
  match recalled, fifo with
  | some s, _ => s
  | none, some s => s
  | none, none => comb s

/-- The slot of an ACTIVE port where no replay runs (R65, R67, R109, R135). -/
def fillFree (n : Nat) (crcBad : Bool) (s : State) : State :=
  let p := lp s n
  let waits := cellWaits s n
  let due := p.osq.filter fun w => !timeWord w
  if due.any creditWord || (due != [] && (!waits || 255 ≤ p.sinceOs)) then sendOs n waits s
  else if replayFull s n then sendOs n waits (if waits then count (cHLP n kRPL_FULL) s else s)
  else fillNew n crcBad s

/-- The slot of an ACTIVE port by the order of R135: TIME words open slot 0 (R65), then a replay, then what else waits. A cell of the
replay that the arbiter has not read yet waits, and none passes it (R101, R164). -/
def fillActive (n : Nat) (crcBad : Bool) (s : State) : State :=
  let p := lp s n
  let waits := cellWaits s n
  if p.slotInFrame = 0 ∧ p.osq.any (fun w => timeWord w && wordDue s n w) = true ∧ (waits = false ∨ 255 ≤ p.sinceOs) then sendOs n waits s
  else match p.tx.replay with
    | none => fillFree n crcBad s
    | some k =>
      if p.tx.replayWord then sendResync n k s
      else match (p.tx.buf.filter fun e => e.seq == k).head? with
        | some e => if e.isVoid || (marksOf s n).contains e.ent.addr then resend n k e crcBad s else sendOs n waits s
        | none => fillFree n crcBad (updTx n (fun t => { t with replay := none }) s)

/-- The slot of a port whose frames carry OS slots only (Table 2.7): the RESYNC(REPLAY) word of a replay, or an OS slot. -/
def fillQuiet (n : Nat) (s : State) : State :=
  match (lp s n).tx.replay with
  | some k => if (lp s n).tx.replayWord then sendResync n k s else sendOs n false s
  | none => sendOs n false s

/-- A slot boundary of a line port: a slot of a frame (R53), a DOZE word (R66), or what training sends (Table 2.5). -/
def fillLine (n : Nat) (crcBad : Bool) (s : State) : State :=
  let st := lstate s n
  let ph := rd (Reg.HLP.STAT.PHASE n) s
  if framesRun s n then
    let s := if fcwDue s n then buildFcw n s else s
    nextSlot n (if st = ACTIVE then fillActive n crcBad s else fillQuiet n s)
  else if (st = TRAINING ∨ st = EXITING) ∧ ph = 3 then sendPrbs n s
  else if (st = TRAINING ∨ st = EXITING) ∧ ph = 4 then sendAlign n s
  else if st = DOZE ∨ st = EXITING then sendDozeWord n s
  else if st = TRAINING ∧ ph = 1 then putDoze n (nrzBase s n) 4 oswIDLE s
  else if st = TRAINING ∧ ph = 2 then sendCap n s
  else updLp n (fun p => { p with lastSlot := .quiet, lanesOut := [] }) s

/-! Tributary ports and P16. -/

/-- The context a terminating unit gets with a cell (R128). -/
def termCtxOf (s : State) (c : Cell) : Option Nat :=
  if terminates s c.tun then some (termCTX (entry s 1 c.tun)) else none

/-- A cell reaches the terminating units of switch port `p`. -/
def arrive (p inp : Nat) (c : Cell) (s : State) : State :=
  updTuns (fun t => { t with arrived := Tab.set noCells p (Tab.get noCells t.arrived p ++ [(c, inp, termCtxOf s c)]) t.arrived }) s

/-- A cell waits at the near end of a Tolger link. -/
def toTolger (p inp : Nat) (c : Cell) (s : State) : State :=
  let d := tolger s (portSlot p) false
  let h : Held := { cell := c, xseq := none, charged := false, policed := true, forced := none }
  setTolger (portSlot p) false
    { d with waiting := Tab.set noCells (portCh p) (Tab.get noCells d.waiting (portCh p) ++ [(inp, h)]) d.waiting } s

/-- A beat pair of P4 to P16 (R179). -/
def fillOther (p : Nat) (crcBad : Bool) (s : State) : State :=
  let s := siftPort p s
  if portTakes s p then
    (sendFromComb p crcBad (fun e s =>
      let s := freeAddr e.addr s
      if p = 16 then arrive 16 e.inp e.cell s else toTolger p e.inp e.cell s) s).getD s
  else s

/-- SLOT_FILL (R135, R179): `crcBad` says that the cell read for the slot fails its CRC. -/
def execSlotFill (p : Fin 17) (crcBad : Bool) (s : State) : Res :=
  if p.val < 4 then .next (fillLine p.val crcBad s) else .next (fillOther p.val crcBad s)

end Sys2Proof.Machine
end

