-- ==== Sys2Proof/Machine/Forager.lean ====
section
/-! DEFINITION. The tables of the LD and the Forager: recomputation, seed expansion, rebuild, swap, edits, and the table and
tunnel commands (R127, R128, R136 to R141, R187, R208, R209, R280). -/
namespace Sys2Proof.Machine

/-- As `command`, for a body whose length the opcode decides itself. -/
def commandV (o : Origin) (lenOk : Bool) (f : State → State) (s : State) : Res :=
  if !mayDispatch s o then .next s
  else
    let s := dispatch o s
    if !lenOk then .next (reply o ST_BAD_LEN [] s) else .next (f s)

/-! Entry checks. -/

/-- The format of a route entry (R127). -/
def routeOk (e : Nat) : Bool := !rteV e || (rtePORT e < 4 && (rteALT e < 4 || rteALT e == 0x1F))

/-- The CTX that a terminating die takes: zero at a TU or TV, the egress port at a TN (R372), the receive queue at P8, none at
P9 (R380). -/
def ctxOk (sport ctx : Nat) : Bool :=
  match sport with
  | 4 | 5 | 12 | 13 | 10 | 11 => ctx == 0
  | 6 | 7 | 14 | 15 => ctx < 6
  | 8 => ctx < 16
  | 9 => false
  | _ => true

/-- The format of a termination entry (R128): SPORT names P4 to P16. -/
def termOk (e : Nat) : Bool := !termV e || (4 ≤ termSPORT e && termSPORT e ≤ 16 && ctxOk (termSPORT e) (termCTX e))

/-- The UCTX that an originating die takes: zero at a TU or TV, TSV and FCSV at a TN (R372). -/
def uctxOk (slot uctx : Nat) : Bool :=
  match slot with
  | 2 | 6 | 5 => uctx == 0
  | 3 | 7 => uctx < 4
  | _ => true

/-- The slot may originate a type (Table 8.2). -/
def mayOriginate (slot typ : Nat) : Bool :=
  match slot with
  | 0 => [1, 2, 4, 7, 8].contains typ
  | 2 | 6 => [0, 5].contains typ
  | 3 | 7 => [0, 3].contains typ
  | 4 => [0, 5, 6, 8].contains typ
  | 5 => [0, 6].contains typ
  | _ => false

/-- The origin shapers of a slot (Table 6.2). -/
def oshpOk (slot i : Nat) : Bool :=
  i == 0 || (if slot = 0 then 0xE00 ≤ i && i ≤ 0xFFF else 0x200 * (slot - 1) ≤ i && i < 0x200 * slot)

/-- Pairs of TYP and TC that may be express (R209). -/
def expressPair (typ tc : Nat) : Bool :=
  (typ == 1 && tc == 6) || (typ == 2 && (tc == 7 || tc == 6)) || ((typ == 7 || typ == 8) && tc == 7)

/-- The format of an origin entry (R209). -/
def originOk (e : Nat) : Bool :=
  !orgV e || (mayOriginate (orgOSLOT e) (orgTYP e) && oshpOk (orgOSLOT e) (orgOSHP e) && (!orgXPR e || expressPair (orgTYP e) (orgTC e)) &&
    orgDST e != 0 && !(orgTYP e == 4 && 0x3FFD < orgDST e) && uctxOk (orgOSLOT e) (orgUCTX e))

/-- Origin entries of a tributary slot other than that of `tun` (R209: 2,048 at most). -/
def dieEntries (s : State) (slot tun : Nat) : Nat :=
  (s.topo.origin.active.filter fun x => x.1 != tun && orgV x.2 && orgOSLOT x.2 == slot).length

/-- The format check of an entry of a table. -/
def entryFormat (s : State) (t i e : Nat) : Bool :=
  match t with
  | 0 => routeOk e
  | 1 => termOk e
  | 2 => originOk e && !(orgV e && orgOSLOT e != 0 && 2048 ≤ dieEntries s (orgOSLOT e) i)
  | _ => e < 4096

/-- The entry names a switch port or slot of an absent die (R29, R209). -/
def namesAbsent (s : State) (t e : Nat) : Bool :=
  match t with
  | 1 => termV e && 4 ≤ termSPORT e && termSPORT e < 16 && !present s (portSlot (termSPORT e))
  | 2 => orgV e && orgOSLOT e != 0 && !present s (orgOSLOT e)
  | _ => false

/-- The status of an edit, in the order of R139. -/
def editCheck (s : State) (t i e : Nat) : Nat :=
  if !entryFormat s t i e then ST_BAD_PARAM
  else if namesAbsent s t e then ST_NO_DIE
  else if !s1Up s then ST_BUSY_IN_SERVICE
  else ST_OK

/-- An entry as the table holds it: bits that its format gives as zero are not stored (Tables 4.1 and 4.2; notes/assumptions/49). -/
def storedEntry (t e : Nat) : Nat :=
  match t with
  | 0 => Nat.land e 0xFFF03FFF
  | 1 => Nat.land e 0xFFFFC000
  | _ => e

/-! The mappers of the dies (R210). -/

def mapperOf (s : State) (slot : Nat) : Tab Nat := Tab.get noCells s.tuns.mapper slot
def setMapper (slot : Nat) (m : Tab Nat) (s : State) : State :=
  updTuns (fun t => { t with mapper := Tab.set noCells slot m t.mapper }) s

/-- The die can be reached over its Tolger register channel. -/
def mapperLive (s : State) (slot : Nat) : Bool :=
  present s slot && linkState s slot != 4 &&
    (match domSt s (0x10 + slot) with
      | .resetting | .off | .notUp => false
      | _ => true)

/-- The entries of the origin table for a slot. -/
def slotEntries (s : State) (slot : Nat) : Tab Nat := s.topo.origin.active.filter fun x => orgV x.2 && orgOSLOT x.2 == slot

/-- The LD loads the origin entries of a slot into its die (R210). -/
def loadMapper (slot : Nat) (s : State) : State := setMapper slot (slotEntries s slot) s

/-- The same for every die it can reach. -/
def loadMappers (s : State) : State :=
  forAll [2, 3, 4, 5, 6, 7] (fun slot s => if mapperLive s slot then loadMapper slot s else s) s

/-! Shadow state. -/

/-- SHOK of a table; for the route table SHADOW_OK equals it (R138). -/
def shok (s : State) (t : Nat) : Bool := bit t (rd Reg.RTE.FGR2.SHOK s)

def setShok (t : Nat) (b : Bool) (s : State) : State :=
  let s := wr Reg.RTE.FGR2.SHOK (setBit t b (rd Reg.RTE.FGR2.SHOK s)) s
  if t = 0 then wr Reg.RTE.FGR.SHADOW_OK (ofBool b) s else s

/-- The generation field of a table. -/
def genFld (t : Nat) : Fld :=
  match t with
  | 0 => Reg.RTE.FGR.RGEN
  | 1 => Reg.RTE.FGR.TGEN
  | 2 => Reg.RTE.FGR2.OGEN
  | _ => Reg.RTE.FGR2.MGEN

/-- RTE.FGR.BUSY: expansion or rebuild in progress, or an expansion waiting for S1; at an activation the shadow copies are built too
(Table 18.8 step 1). -/
def updFgrBusy (s : State) : State :=
  let t := s.topo
  let act := match s.img.act with
    | some a => a.stage == 1
    | none => false
  wr Reg.RTE.FGR.BUSY
    (ofBool (t.expanding.isSome || t.route.rebuilding || t.term.rebuilding || t.origin.rebuilding || t.gmap.rebuilding || act)) s

/-- The entry written where its master cannot be read (R137, R187). -/
def unreadableEntry (t : Nat) : Nat := if t = 3 then 2 ^ 31 else 0

/-- A table entry's position as a log DETAIL (Table 19.6). -/
def entryDetail (t i : Nat) : Nat := t * 2 ^ 24 + i

/-- An unreadable master: TBL_MASTER_ERR and the error log (R137). -/
def masterError (t i : Nat) (s : State) : State := logErr 0x0202 0 (entryDetail t i) (raise srcTBL_MASTER_ERR s)

/-- The shadow copy becomes active (R138, Table 4.6). -/
def swapTable (t : Nat) (s : State) : State :=
  let x := tbl s t
  let s := setTbl t { x with active := x.shadow } s
  let s := updTopo (fun p => { p with recompute := p.recompute.filter fun r => r.1 != t }) s
  let s := wr (genFld t) ((rd (genFld t) s + 1) % 256) (setShok t false s)
  retryAll (if t = 2 then loadMappers s else s)

/-- The compare has passed: SHOK, FGR_DONE, and the swap at once with AUTOSWAP (R138). -/
def compared (t : Nat) (s : State) : State :=
  let s := raise srcFGR_DONE (updFgrBusy (setShok t true s))
  if rdB Reg.RTE.FGR.AUTOSWAP s then swapTable t s else s

/-- An edit (R139, Table 4.6): master, active copy, and the shadow copy where it holds the entry already. -/
def editEntry (t i e : Nat) (s : State) : State :=
  let x := tbl s t
  let e := storedEntry t e
  let x := { x with master := Tab.set zeroN i e x.master, active := Tab.set zeroN i e x.active,
                    shadow := if shok s t then Tab.set zeroN i e x.shadow else x.shadow }
  let s := setTbl t x s
  let s := updTopo (fun p => { p with recompute := p.recompute.filter (· != (t, i)) }) s
  retryAll (if t = 2 then loadMappers s else s)

/-! Seeds (R136). -/

/-- The range a seed covers on the node `own`. -/
def seedRange (own : Nat) (b : List Byte) : Nat × Nat :=
  let lo := field b 0 2 % 2 ^ 14
  let hi := field b 2 2 % 2 ^ 14
  match field b 0 2 / 2 ^ 14 with
  | 0 => (lo, hi)
  | 1 => (lo, min hi (own - 1))
  | _ => (max lo (own + 1), hi)

/-- The DIST a seed gives destination `d`: 0 stays 0, below 0 is 1, above 16,383 is 16,383. -/
def seedDist (own d : Nat) (b : List Byte) : Nat :=
  let base : Int := match bits 2 1 (field b 6 1) with
    | 1 => (d : Int) - own
    | 2 => (own : Int) - d
    | _ => 0
  let v := base + signed 8 (field b 7 1)
  if v < 0 then 1 else min 16383 v.toNat

/-- The route entry a seed gives a destination. -/
def seedEntry (own d : Nat) (b : List Byte) : Nat :=
  2 ^ 31 + field b 4 1 % 32 * 2 ^ 26 + field b 5 1 % 32 * 2 ^ 21 + field b 6 1 % 2 * 2 ^ 20 + seedDist own d b

/-- The entry of destination `d`: the last seed that covers it, else V = 0. -/
def expandOne (own : Nat) (seeds : List (List Byte)) (d : Nat) : Nat :=
  seeds.foldl (fun a b => if (seedRange own b).1 ≤ d ∧ d ≤ (seedRange own b).2 then seedEntry own d b else a) 0

/-- The route master a seed list expands to; entries outside 0x0001 to 0x3FFD are never written. -/
def expand (own : Nat) (seeds : List (List Byte)) : Tab Nat :=
  (List.range 0x3FFE).filterMap fun d =>
    if d = 0 then none
    else
      let e := expandOne own seeds d
      if e = 0 then none else some (d, e)

/-- The line address changes (R136, R142, R210): seed expansion starts, a running rebuild of the route table is abandoned, and
ADDR_ASSIGN goes out again. -/
def setAddr (a : Nat) (s : State) : State :=
  if a = ownAddr s then s
  else
    let old := ownAddr s
    let s := timeRole (wr Reg.RTE.ADDR.ADDR a s)
    let s := updTopo (fun p => { p with prevAddr := old, expanding := some a, route := { p.route with rebuilding := false } }) s
    let s := updFgrBusy (setShok 0 false s)
    forAll [0, 1, 2, 3] sendAssign s

/-- A write to RTE.ADDR: an override (R143). -/
def addrWrite (v : Word) (s : State) : State :=
  setAddr (bits 13 0 v.toNat) (wr Reg.RTE.ADDR.LOCK (bits 31 31 v.toNat) s)

/-- ADDR_WRITE (R136, R143). -/
def execAddrWrite (v : Word) (s : State) : Res :=
  access Reg.RTE.ADDR.word.addr (fun s => addrWrite v s) s

/-- ENTRY_RECOMPUTED (R137, R187): the entry comes back from its master, or is written invalid; parked cells are tried
again. It waits while S1 is out of service, and for the memory controller (R47, R48). -/
def execEntryRecomputed (table : Fin 4) (idx : Nat) (readable : Bool) (s : State) : Res :=
  let t := table.val
  if s.topo.recompute.contains (t, idx) && dcmServes s 2 then
    let x := tbl s t
    let e := if readable then Tab.get zeroN x.master idx else unreadableEntry t
    let s := setTbl t { x with active := Tab.set zeroN idx e x.active } s
    let s := updTopo (fun p => { p with recompute := p.recompute.filter (· != (t, idx)) }) s
    .next (retryAll (if readable then logErr 0x0201 0 (entryDetail t idx) s else masterError t idx s))
  else .next s

/-- SEED_EXPANSION_DONE (R136, R138): with S1 in service the expansion is loaded into master and shadow copy. -/
def execSeedExpansionDone (s : State) : Res :=
  match s.topo.expanding with
  | none => .next s
  | some a =>
    if dcmServes s 6 then
      let m := expand a s.topo.seeds
      let x := tbl s 0
      let s := setTbl 0 { x with master := m, shadow := m } s
      .next (compared 0 (updTopo (fun p => { p with expanding := none }) s))
    else .next s

/-- REBUILD_DONE (R138): the shadow copy holds the master, entries without a readable master marked (R137, R187). -/
def execRebuildDone (table : Fin 4) (unreadable : List Nat) (s : State) : Res :=
  let t := table.val
  let x := tbl s t
  if x.rebuilding && dcmServes s 6 then
    let bad := unreadable.filter (· < 16384)
    let sh := bad.foldl (fun m i => Tab.set zeroN i (unreadableEntry t) m) x.master
    let s := setTbl t { x with shadow := sh, rebuilding := false } s
    .next (compared t (forAll bad (masterError t) s))
  else .next s

/-! Commands (R280). -/

/-- Bytes of an entry of a table. -/
def entrySize (t : Nat) : Nat := if t = 2 then 8 else 4

/-- TBL_READ (R280): entries of the active copy. -/
def execTblRead (o : Origin) (body : List Byte) (s : State) : Res :=
  command o body 8 (fun s =>
    let t := field body 0 1
    let i := field body 2 2
    let n := field body 4 2
    if 3 < t || !zeroAt body 1 1 || !zeroAt body 6 2 || n == 0 || 512 < n || 16384 < i + n then reply o ST_BAD_PARAM [] s
    else reply o ST_OK (((List.range n).map fun k => beBytes (entrySize t) (entry s t (i + k))).flatten) s) s

/-- Writes entries until one fails. Answers the status, how many were written, and the state. -/
def writeEntries (t : Nat) : Nat → List Nat → Nat → State → Nat × Nat × State
  | _, [], k, s => (ST_OK, k, s)
  | i, e :: l, k, s =>
    let st := editCheck s t i e
    if st = ST_OK then writeEntries t (i + 1) l (k + 1) (editEntry t i e s) else (st, k, s)

/-- TBL_WRITE (R139, R280). -/
def execTblWrite (o : Origin) (body : List Byte) (s : State) : Res :=
  let t := field body 0 1
  let i := field body 2 2
  let n := field body 4 2
  commandV o (8 ≤ body.length && (3 < t || body.length == 8 + n * entrySize t)) (fun s =>
    if 3 < t || !zeroAt body 1 1 || !zeroAt body 6 2 || n == 0 || 256 < n || 16384 < i + n then reply o ST_BAD_PARAM [] s
    else
      let es := (List.range n).map fun k => field body (8 + k * entrySize t) (entrySize t)
      match writeEntries t i es 0 s with
      | (st, k, s) => reply o st (beBytes 2 k ++ [0, 0]) s) s

/-- TBL_CMP of table `t` ends ABORTED (Table 19.5). -/
def cmpAbort (t : Nat) (s : State) : State :=
  match s.tests.cmp with
  | none => s
  | some (l, _, _) => if l.contains t then abortTest 0x3FF { s with tests := { s.tests with cmp := none } } else s

/-- TBL_REBUILD (R138, Tables 4.6 and 19.5). -/
def execTblRebuild (o : Origin) (body : List Byte) (s : State) : Res :=
  command o body 4 (fun s =>
    let t := field body 0 1
    if 3 < t || !zeroAt body 1 3 then reply o ST_BAD_PARAM [] s
    else if rdB Reg.RTE.FGR.BUSY s || !s1Up s then reply o ST_BUSY [] s
    else
      let s := setTbl t { tbl s t with rebuilding := true } (cmpAbort t s)
      reply o ST_OK [] (updFgrBusy (setShok t false s))) s

/-- TBL_SWAP (R138). -/
def execTblSwap (o : Origin) (body : List Byte) (s : State) : Res :=
  command o body 4 (fun s =>
    let t := field body 0 1
    if 3 < t || !zeroAt body 1 3 then reply o ST_BAD_PARAM [] s
    else if !shok s t then reply o ST_BUSY [] s
    else
      let s := swapTable t s
      reply o ST_OK (beBytes 1 (rd (genFld t) s) ++ [0, 0, 0]) s) s

/-- TUN_GET (R278). -/
def execTunGet (o : Origin) (body : List Byte) (s : State) : Res :=
  command o body 4 (fun s =>
    let t := field body 0 2
    if 16384 ≤ t || !zeroAt body 2 2 then reply o ST_BAD_PARAM [] s
    else reply o ST_OK (beBytes 8 (entry s 2 t) ++ beBytes 4 (entry s 1 t) ++ beBytes 4 (entry s 3 t)) s) s

/-- Writes the selected entries of a tunnel in order (R280). -/
def writeSelected (tun : Nat) : List (Nat × Nat) → Nat → State → Nat × Nat × State
  | [], k, s => (ST_OK, k, s)
  | (t, e) :: l, k, s =>
    let st := editCheck s t tun e
    if st = ST_OK then writeSelected tun l (k + 1) (editEntry t tun e s) else (st, k, s)

/-- TUN_SET (R280): termination, Guard map, origin. -/
def execTunSet (o : Origin) (body : List Byte) (s : State) : Res :=
  command o body 24 (fun s =>
    let t := field body 0 2
    let m := field body 4 1
    if 16384 ≤ t || t == 0 || !zeroAt body 2 2 || !zeroAt body 5 3 || m == 0 || 7 < m then reply o ST_BAD_PARAM [0, 0, 0, 0] s
    else
      let sel := (if bit 0 m then [(1, field body 16 4)] else []) ++ (if bit 1 m then [(3, field body 20 4)] else []) ++
        (if bit 2 m then [(2, field body 8 8)] else [])
      match writeSelected t sel 0 s with
      | (st, k, s) => reply o st (beBytes 1 k ++ [0, 0, 0]) s) s

end Sys2Proof.Machine
end

