-- ==== Sys2Proof/Machine/Topology.lean ====
section
/-! DEFINITION. Enumeration, rings and the optical bypass (R142 to R149). -/
namespace Sys2Proof.Machine

/-! Enumeration (R142, R143). -/

/-- The node takes an address from its UP port, which may become its parent port (R243). -/
def takeAddress (a p : Nat) (s : State) : State :=
  withParent (fun s => setAddr a (wr Reg.RTE.ADDR.UPV 1 (wr Reg.RTE.ADDR.UP p s))) s

/-- ADDR_ASSIGN at the receiver (R143). -/
def execAddrAssign (o : Origin) (body : List Byte) (s : State) : Res :=
  command o body 4 (fun s =>
    let a := field body 0 2
    match o.inPort with
    | none => reply o ST_DENIED [] s
    | some p =>
      if o.ep ≠ .line then reply o ST_DENIED [] s
      else if rdB Reg.RTE.ADDR.LOCK s || isHead s then reply o ST_DENIED [] s
      else if a < 0x10 ∨ 0x3FFD < a ∨ zeroAt body 2 2 = false then reply o ST_BAD_PARAM [] s
      else if ownAddr s = 0 then takeAddress a p (reply o ST_OK [] s)
      else if rdB Reg.RTE.ADDR.UPV s && rd Reg.RTE.ADDR.UP s == p then
        (if a = ownAddr s then reply o ST_OK [] s else takeAddress a p (reply o ST_OK [] s))
      else reply o ST_DENIED [] (raise srcENUM_CONFLICT (count (cRTE 2) s))) s

/-- ADDR_ASSIGN_REPEAT (R142): the 1 ms repeat, until a final reply. -/
def execAddrAssignRepeat (p : LPort) (s : State) : Res :=
  if (lp s p.val).assigning then .next (sendAssign p.val s) else .next s

/-! Rings (R145 to R148). -/

/-- A record that matches goes; the cells that return are held for HOLD: those beyond the hop count that applied until now (R148). -/
def removeBreak (q : Nat) (p : BreakRec → Bool) (s : State) : State :=
  match takeFirst p (breaksOf s q), appliedBreak s q with
  | some (_, rest), some b => updTopo (fun t => { t with
      breaks := Tab.set noCells q rest t.breaks, restoreHold := (q, b) :: t.restoreHold.filter (·.1 != q) }) s
  | _, _ => s

/-- The first ring event cell with a code in the hold of a line port. -/
def takeRing (q code : Nat) (s : State) : Option (Held × State) :=
  (takeFirst (fun h : Held => h.forced.isNone && isRingCell h.cell && field h.cell.payload 0 2 == code) (holdOf s q)).map fun r =>
    (r.1, setHold q r.2 s)

/-- A ring event cell goes on: the local copy to P16, and the other ring port unless it is DOWN or DISABLED (R147). It goes through the
Comb, which as an express cell counts as a fallback (R132). -/
def forwardRing (q : Nat) (h : Held) (s : State) : State :=
  let other := otherRing s q
  let fwd := ringEn s && isRingPort s q && lstate s other != DOWN && lstate s other != DISABLED
  let s := if h.cell.xpr then countFallback q (if ineligible s q h.cell then 0 else 1) s else s
  raise srcRING (stage q h ([some (8 * 16 + 7)] ++ if fwd then [some (8 * other + 7)] else []) s)

/-- RING_BREAK (R147). -/
def execRingBreak (q : LPort) (s : State) : Res :=
  match takeRing q.val 0x0101 s with
  | none => .next s
  | some (h, s) =>
    if h.cell.src = ownAddr s then .next (vanish q.val h s)
    else
      let e := entry s 0 h.cell.src
      let s := if ringEn s && isRingPort s q.val then
          (if rteV e && rtePORT e == q.val then
            addBreak q.val { own := false, b := rteDIST e, src := h.cell.src, nbr := field h.cell.payload 2 2, port := field h.cell.payload 4 1 } s
          else count (cRTE 3) s)
        else s
      .next (forwardRing q.val h s)

/-- RING_HEAL (R148). -/
def execRingHeal (q : LPort) (s : State) : Res :=
  match takeRing q.val 0x0102 s with
  | none => .next s
  | some (h, s) =>
    if h.cell.src = ownAddr s then .next (vanish q.val h s)
    else .next (forwardRing q.val h (removeBreak q.val (fun r =>
      !r.own && r.src == h.cell.src && r.nbr == field h.cell.payload 2 2 && r.port == field h.cell.payload 4 1) s))

/-- This node's own record on a port (R146). -/
def ownBreak (s : State) (p : Nat) : Option BreakRec := ((breaksOf s p).filter fun r => r.own).head?

/-- WTR_EXPIRY (R148): with REVERT the node clears its own record and sends RING_HEAL. -/
def execWtrExpiry (p : LPort) (s : State) : Res :=
  let n := p.val
  match ownBreak s n with
  | none => .next s
  | some r =>
    if ringEn s && rdB Reg.RTE.RING.REVERT s && lstate s n == ACTIVE && domSt s n == .inService then
      .next (raise srcRING (holdForced [otherRing s n, 16] (ringCell s 0x0102 r.nbr n) (removeBreak n (· == r) s)))
    else .next s

/-- RING_HOLD_EXPIRY (R148). -/
def execRingHoldExpiry (p : LPort) (s : State) : Res :=
  .next (updTopo (fun t => { t with restoreHold := t.restoreHold.filter (·.1 != p.val) }) s)

/-- A write of RTE.RING.EN (R148): 1 to 0 clears all break records. -/
def ringEnWrite (v : Bool) (s : State) : State :=
  let was := ringEn s
  let s := wr Reg.RTE.RING.EN (ofBool v) s
  if was && !v then
    let had := (s.topo.breaks.map (·.1)).filterMap fun p => (appliedBreak s p).map fun b => (p, b)
    updTopo (fun t => { t with
      breaks := [], breakHold := [], restoreHold := t.restoreHold.filter (fun x => !had.any fun y => y.1 == x.1) ++ had }) s
  else s

/-- RING_EN_CLEAR (R148). -/
def execRingEnClear (s : State) : Res :=
  access Reg.RTE.RING.word.addr (fun s => ringEnWrite false s) s

/-! Optical bypass (R149). -/

/-- The ports of a mask that BYPASS_N no longer holds begin training where they may. -/
def releasePorts (m : Nat) (s : State) : State :=
  forAll (onBits 4 m) (fun n s => if lstate s n = DISABLED ∧ mayTrain s n = true then startTraining n s else s) s

/-- BYPASS_N with the ports it holds after it: asserted, it holds the ports in PORTS DISABLED, and a port that it held and no longer holds
begins training at once; released, the ports it held train after SETTLE. -/
def bypassPorts (byp : Bool) (ports : Nat) (s : State) : State :=
  let was := if rdB Reg.RTE.BYP.BYP s then rd Reg.RTE.BYP.PORTS s else s.topo.bypassSettle
  let s := wr Reg.RTE.BYP.PORTS ports (wr Reg.RTE.BYP.BYP (ofBool byp) s)
  if byp then
    let s := updTopo (fun t => { t with bypassSettle := 0 }) s
    releasePorts was (forAll (onBits 4 ports) (fun n s => if lstate s n = DISABLED then s else disablePort n s) s)
  else updTopo (fun t => { t with bypassSettle := was }) s

/-- BYPASS_N is asserted or released with the ports in PORTS as they are. -/
def bypassSet (byp : Bool) (s : State) : State := bypassPorts byp (rd Reg.RTE.BYP.PORTS s) s

/-- BYPASS_WRITE (R149). -/
def execBypassWrite (byp : Bool) (s : State) : Res :=
  access Reg.RTE.BYP.word.addr (fun s => bypassSet byp s) s

/-- BYPASS_SETTLE_EXPIRY (R149): the ports that were held begin training. -/
def execBypassSettleExpiry (s : State) : Res :=
  .next (releasePorts s.topo.bypassSettle (updTopo (fun t => { t with bypassSettle := 0 }) s))

end Sys2Proof.Machine
end

