-- ==== Sys2Proof/Machine/Tolger.lean ====
section
/-! DEFINITION. Tolger links between the line die and the tributary dies (R22 to R26, R437). -/
namespace Sys2Proof.Machine

def waitingOf (d : TolgerDir) (ch : Nat) : List (Nat × Held) := Tab.get noCells d.waiting ch
def creditOfCh (d : TolgerDir) (ch : Nat) : Nat := Tab.get tolgerCredit d.credit ch
def owedOf (d : TolgerDir) (ch : Nat) : Nat := Tab.get zeroN d.owed ch
def cellFailsOf (d : TolgerDir) (ch : Nat) : Nat := Tab.get zeroN d.cellFails ch

/-- The most consecutive failed checks since the last read (R485). -/
def noteWorst (slot n : Nat) (s : State) : State :=
  if rd (Reg.DIE.LSTAT.WORST slot) s < n then wr (Reg.DIE.LSTAT.WORST slot) (min 8 n) s else s

/-- Every cell a direction holds for a channel, oldest first, with its ingress switch port. -/
def tolgerHeld (d : TolgerDir) (ch : Nat) : List (Nat × Held) :=
  ((d.flight.filter fun f => f.ch == ch).map fun f => (f.inp, f.held)) ++ waitingOf d ch

/-- A cell at the near end of a Tolger link as an entry of its output queue's discard rule. -/
def tolgerEnt (x : Nat × Held) : QEnt :=
  { addr := 0, stamp := 0, inp := x.1, xc := false, xseq := 0, refill := false, charged := false, policed := true, cell := x.2.cell }

/-- What the LD holds for a die at its Tolger link is discarded, counted as FORCE_DROP (R26, R41, R170). -/
def dropTolger (slot : Nat) (s : State) : State :=
  let d := tolger s slot false
  let s := forAll [0, 1] (fun ch s =>
    forAll (tolgerHeld d ch) (fun x s => discardCell 2 (8 * (2 * slot + ch) + x.2.cell.tc) false (tolgerEnt x) s) s) s
  setTolger slot false { tolger s slot false with waiting := [], flight := [] } s

/-- The link enters LINK_FAIL (R26): the event, the cells toward the slot's switch ports discarded as FORCE_DROP, the error
log. Cells of the die stay at its end of the link. -/
def tolgerFail (slot : Nat) (s : State) : State :=
  let s := wr (Reg.DIE.LSTAT.STATE slot) 4 s
  let s := wr Reg.GLB.STAT.LINKFAIL (rd Reg.GLB.STAT.LINKFAIL s ||| 2 ^ slot) s
  let s := dropTolger slot (raise (srcLINK_FAIL slot) s)
  logErr 0x0401 slot 0 (dropPort (2 * slot + 1) (dropPort (2 * slot) s))

/-- The link of the slot is up. -/
def linkUp (s : State) (slot : Nat) : Bool := linkState s slot == 3

/-- The cell whose check is next on a channel: the oldest that is not yet taken, while it is on the wire. A channel keeps its
order, so cells behind one that has failed wait for it. -/
def nextOnWire (d : TolgerDir) (ch : Nat) : Option (TolgerCell × List TolgerCell) :=
  match takeFirst (fun f : TolgerCell => f.ch == ch) d.flight with
  | some (f, rest) => if f.wire then some (f, rest) else none
  | none => none

/-- The oldest cell of a channel has failed its check: it waits for the negative acknowledgement. -/
def offWire (ch : Nat) (l : List TolgerCell) : List TolgerCell :=
  match l with
  | [] => []
  | f :: r => if f.ch = ch then { f with wire := false } :: r else f :: offWire ch r

/-- A cell that has crossed the link: into the ingress hold of its switch port, or to the units of the die. -/
def tolgerDeliver (toLd : Bool) (p : Nat) (f : TolgerCell) (s : State) : State :=
  if toLd then setHold p (holdOf s p ++ [f.held]) s else arrive p f.inp f.held.cell s

/-- TOLGER_CELL_RECEIVE (R25, R26): the check of the oldest cell on the wire of a channel. -/
def execTolgerCellReceive (slot : Slot) (toLd : Bool) (ch : Fin 2) (crcGood : Bool) (s : State) : Res :=
  let n := slot.val
  let d := tolger s n toLd
  match nextOnWire d ch.val with
  | none => .next s
  | some (f, rest) =>
    if !linkUp s n then .next s
    else if crcGood then
      .next (tolgerDeliver toLd (2 * n + ch.val) f
        (setTolger n toLd { d with flight := rest, cellFails := Tab.set zeroN ch.val 0 d.cellFails } s))
    else
      let k := cellFailsOf d ch.val + 1
      let s := noteWorst n k (count (cDIE n 0) (setTolger n toLd
        { d with flight := offWire ch.val d.flight, cellFails := Tab.set zeroN ch.val k d.cellFails } s))
      if 8 ≤ k then .next (tolgerFail n s) else .next s

/-- The flit whose check comes: the oldest that has been sent again, else the one that arrives for the first time. -/
def flitFailed (flit : BitVec 64) (l : List (BitVec 64 × Bool)) : List (BitVec 64 × Bool) :=
  match l with
  | (x, true) :: r => (x, false) :: r
  | _ => l ++ [(flit, false)]

def flitPassed (l : List (BitVec 64 × Bool)) : List (BitVec 64 × Bool) :=
  match l with
  | (_, true) :: r => r
  | _ => l

/-- TOLGER_FLIT_RECEIVE (R25, R26): a failed flit stays in the replay buffer of 16. What a good one carries (a register access, an
event, the time) takes effect with the command that causes it (notes/assumptions/13). -/
def execTolgerFlitReceive (slot : Slot) (toLd : Bool) (flit : SideFlit) (s : State) : Res :=
  let n := slot.val
  let d := tolger s n toLd
  if !linkUp s n then .next s
  else if flit.crcGood then .next (setTolger n toLd { d with flits := flitPassed d.flits, flitFails := 0 } s)
  else if 16 ≤ d.flits.length && !(d.flits.head?.any fun x => x.2) then .next s
  else
    let k := d.flitFails + 1
    let s := noteWorst n k (count (cDIE n 1) (setTolger n toLd { d with flits := flitFailed flit.bits d.flits, flitFails := k } s))
    if 8 ≤ k then .next (tolgerFail n s) else .next s

/-- Puts the first entry that passes through `f`. -/
def updFirst {α : Type} (p : α → Bool) (f : α → α) : List α → List α
  | [] => []
  | a :: l => if p a then f a :: l else a :: updFirst p f l

/-- TOLGER_NAK (R25): the sender retransmits from its replay buffer the oldest cell, or flit, that has failed. -/
def execTolgerNak (slot : Slot) (toLd : Bool) (ofCell : Bool) (s : State) : Res :=
  let n := slot.val
  let d := tolger s n toLd
  if !linkUp s n then .next s
  else if ofCell then
    if d.flight.any (fun f => !f.wire) then
      .next (count (cDIE n 2) (setTolger n toLd { d with flight := updFirst (fun f => !f.wire) (fun f => { f with wire := true }) d.flight } s))
    else .next s
  else if d.flits.any (fun x => !x.2) then
    .next (count (cDIE n 2) (setTolger n toLd { d with flits := updFirst (fun x => !x.2) (fun x => (x.1, true)) d.flits } s))
  else .next s

/-- TOLGER_CREDIT_RETURN (R24): a credit that the receiving side has freed is back at the sender. -/
def execTolgerCreditReturn (slot : Slot) (toLd : Bool) (ch : Fin 2) (s : State) : Res :=
  let d := tolger s slot.val toLd
  if owedOf d ch.val = 0 then .next s
  else
    .next (setTolger slot.val toLd
      { d with
        owed := Tab.set zeroN ch.val (owedOf d ch.val - 1) d.owed
        credit := Tab.set tolgerCredit ch.val (creditOfCh d ch.val + 1) d.credit } s)

/-- A channel has a cell and credit (R23, R24). -/
def canSend (d : TolgerDir) (ch : Nat) : Bool := waitingOf d ch != [] && creditOfCh d ch != 0

/-- TOLGER_BEAT_PAIR (R23 to R25): the channels alternate when both can send; at most 32 cells await their verdict. -/
def execTolgerBeatPair (slot : Slot) (toLd : Bool) (s : State) : Res :=
  let n := slot.val
  let d := tolger s n toLd
  let other := 1 - d.last % 2
  let ch := if canSend d other then some other else if canSend d (1 - other) then some (1 - other) else none
  match ch with
  | none => .next s
  | some c =>
    if linkUp s n && d.flight.length < 32 then
      match waitingOf d c with
      | [] => .next s
      | (i, h) :: l => .next (setTolger n toLd
          { d with
            waiting := Tab.set noCells c l d.waiting, flight := d.flight ++ [{ ch := c, inp := i, held := h, wire := true }], last := c
            credit := Tab.set tolgerCredit c (creditOfCh d c - 1) d.credit } s)
    else .next s

/-- A direction as its link trains again: what its sender holds waits to be sent again, and the receiver's pool is whole but for
the `kept` cells of each channel that it still holds. -/
def relinkDir (d : TolgerDir) (kept : Nat → Nat) : TolgerDir :=
  { TolgerDir.reset with
    waiting := Tab.set noCells 0 (tolgerHeld d 0) (Tab.set noCells 1 (tolgerHeld d 1) [])
    credit := Tab.set tolgerCredit 0 (128 - kept 0) (Tab.set tolgerCredit 1 (128 - kept 1) []) }

/-- A re-link begins (R437, Table 1.7). LINK_FAIL ends only by a reset: with the domain's own reset the link is down already, and
after an LD warm reset it stays in LINK_FAIL until the re-link has succeeded (R26). -/
def startLink (slot : Nat) (s : State) : State :=
  if linkState s slot = 4 then s
  else
    let s := setTolger slot false (relinkDir (tolger s slot false) fun ch => (Tab.get noCells s.tuns.arrived (2 * slot + ch)).length) s
    let s := setTolger slot true (relinkDir (tolger s slot true) fun ch => (holdOf s (2 * slot + ch)).length) s
    wr (Reg.DIE.LSTAT.STATE slot) 2 s

/-- A die whose link is in LINK_FAIL re-links after an LD warm reset (R26, R437). -/
def relinksFailed (s : State) (slot : Nat) : Bool :=
  linkState s slot == 4 && domSt s (0x10 + slot) == .returning && (dom s (0x10 + slot)).wasReset

/-- TOLGER_RELINK (R26, R437): a link that was linking is up. -/
def execTolgerRelink (slot : Slot) (s : State) : Res :=
  let n := slot.val
  if linkState s n = 2 then .next (wr (Reg.DIE.LSTAT.STATE n) 3 s)
  else if relinksFailed s n then
    let s := startLink n (wr (Reg.DIE.LSTAT.STATE n) 1 s)
    .next (wr (Reg.DIE.LSTAT.STATE n) 3 (wr Reg.GLB.STAT.LINKFAIL (setBit n false (rd Reg.GLB.STAT.LINKFAIL s)) s))
  else .next s

end Sys2Proof.Machine
end

