-- ==== Sys2Proof/Machine/Tunnel.lean ====
section
/-! DEFINITION. The originating side of tunnels, origin shapers, and the contexts of tunnels (R186, R207 to R215, R280). -/
namespace Sys2Proof.Machine

/-- The origin entry of a tunnel in a slot's mapper (R210): the LD's units read its table, a die the copy loaded into it. In the repeater
role a tributary has none (R10). -/
def originEntry (s : State) (slot tun : Nat) : Option Nat :=
  let e := if slot = 0 then entry s 2 tun else Tab.get zeroN (mapperOf s slot) tun
  if tun ≠ 0 ∧ tun < 16384 ∧ orgV e = true ∧ orgOSLOT e = slot ∧ (slot = 0 ∨ isRepeater s = false) then some e else none

/-- A slot's units are at work: the LD always, a die while its domain is IN_SERVICE. -/
def slotWorks (s : State) (slot : Nat) : Bool := slot == 0 || (present s slot && domSt s (0x10 + slot) == .inService)

/-- The cell channel a die sends a frame on: B for frames of ETH4 and ETH5, else A (notes/assumptions/20). -/
def originCh (typ : Nat) (l : List Byte) : Nat := if typ = 3 ∧ 4 ≤ field l 1 1 then 1 else 0

/-- The cells of a frame leave their origin unit: toward P16's ingress, or onto the Tolger link. -/
def releaseCells (slot ch : Nat) (cs : List Cell) (s : State) : State :=
  if slot = 0 then holdCells 16 false cs s
  else
    let d := tolger s slot true
    let hs := cs.map fun c : Cell =>
      (0, ({ cell := c, xseq := none, charged := false, policed := false, forced := none } : Held))
    setTolger slot true { d with waiting := Tab.set noCells ch (waitingOf d ch ++ hs) d.waiting } s

/-- What an origin shaper charges a frame in all: every cell under R181, and the data a read returns (R223). -/
def frameCharge (x : Shaper) (cs : List Cell) : Nat :=
  (cs.foldl (fun (r : Nat × Nat) c =>
    let (b, sh) := unitCharge x r.2 { c with vlen := c.vlen + readExtra c }
    (r.1 + b, sh)) (0, 0)).1

/-- The frame number of a TIME or TRIG tunnel goes into bytes 0 and 1 (R211, R212). -/
def stampFn (tun typ : Nat) (l : List Byte) (s : State) : List Byte × State :=
  if typ = 7 ∨ typ = 8 then
    let fn := Tab.get zeroN s.tuns.fn tun
    (beBytes 2 fn ++ l.drop 2, updTuns (fun t => { t with fn := Tab.set zeroN tun ((fn + 1) % 65536) t.fn }) s)
  else (l, s)

/-- A unit of a slot originates a frame on a tunnel (R186, R210, R212). -/
def originate (slot tun : Nat) (l : List Byte) (s : State) : State :=
  match originEntry s slot tun with
  | none => count (cTUN 1) s
  | some e =>
    if orgMAXLEN e < l.length ∨ 14848 < l.length then count (cTUN 0) s
    else if l = [] then s
    else
      match stampFn tun (orgTYP e) l s with
      | (l, s) =>
        let cs := frameCells (orgDST e) (ownAddr s) tun (orgTC e) (orgTYP e) (orgXPR e) l
        let i := orgOSHP e
        let ch := originCh (orgTYP e) l
        if i = 0 then releaseCells slot ch cs s
        else
          let x := shaper s i
          let b := frameCharge x cs
          if permits s x && !(s.sched.held.any fun f => f.shp == i) then releaseCells slot ch cs (setShaper i (charge s x b) s)
          else updSched (fun c => { c with held := c.held ++ [{ shp := i, slot := slot, cells := cs, charge := b }] }) s

/-- TUNNEL_FRAME_ORIGINATE (R210): a unit whose frames wait takes none from its source (R24, R186); a P16 unit holds it. -/
def execTunnelFrameOriginate (slot : Slot) (tun : BitVec 14) (frame : List Byte) (s : State) : Res :=
  if slotWorks s slot.val && (slot.val == 0 || !originHeld s slot.val) then .next (originate slot.val tun.toNat frame s) else .next s

/-- ORIGIN_FRAME_RELEASE (R186): the oldest frame held for the shaper, once its tokens permit. -/
def execOriginFrameRelease (shp : BitVec 12) (s : State) : Res :=
  let i := shp.toNat
  match takeFirst (fun f : OriginFrame => f.shp == i) s.sched.held with
  | none => .next s
  | some (f, rest) =>
    if permits s (shaper s i) then
      let s := updSched (fun c => { c with held := rest }) s
      .next (releaseCells f.slot (match f.cells with
        | c :: _ => originCh c.typ c.payload
        | [] => 0) f.cells (setShaper i (charge s (shaper s i) f.charge) s))
    else .next s

/-! Reassembly contexts (R100, R214). -/

def ctxsOf (s : State) (u : Nat) : List Reasm := Tab.get noCells s.tuns.ctx u
def setCtxs (u : Nat) (l : List Reasm) (s : State) : State := updTuns (fun t => { t with ctx := Tab.set noCells u l t.ctx }) s

/-- REASM_ERR of a terminating unit. -/
def reasmErr (u : Nat) (s : State) : State := count (cTUN (4 + u)) s

/-- TUN_RESET_CTX (R280): the tunnel's reassembly contexts close, their partial frames counted; its bridge write contexts
close. -/
def execTunResetCtx (o : Origin) (body : List Byte) (s : State) : Res :=
  command o body 4 (fun s =>
    let t := field body 0 2
    if 16384 ≤ t || !zeroAt body 2 2 then reply o ST_BAD_PARAM [] s
    else
      let s := forAll (List.range 16) (fun u s =>
        let l := ctxsOf s u
        let gone := l.filter fun r => r.tun == t
        setCtxs u (l.filter fun r => r.tun != t) (forAll (gone.filter fun r => !r.discarding) (fun _ => reasmErr u) s)) s
      reply o ST_OK [] (updBrg (fun b => { b with wctx := b.wctx.filter fun w => w.tun != t }) s)) s

end Sys2Proof.Machine
end

