-- ==== Sys2Proof/Machine/Command.lean ====
section
/-! DEFINITION. The command engine: acceptance, sessions, relay, HSPI, orphans (chapter 10, R256 to R287). -/
namespace Sys2Proof.Machine

/-! Where a command comes from. -/

/-- What carries a command to acceptance: its entry point and attachment, and for a frame its DST, SRC, TUN, XPR and the
line port it entered on. -/
structure Carrier where
  ep : EntryPoint
  att : Attach
  dst : Nat
  src : Nat
  tun : Nat
  xpr : Bool
  inPort : Option Nat
deriving DecidableEq, Repr

/-- A carrier that is not a frame. -/
def carrier (ep : EntryPoint) (att : Attach) : Carrier := { ep := ep, att := att, dst := 0, src := 0, tun := 0, xpr := false, inPort := none }

/-- The frame came with a broadcast DST (R274). -/
def Carrier.bcast (c : Carrier) : Bool := c.dst == 0x3FFF || c.dst == 0x3FFE

/-- The command's origin as its header says (Tables 10.1, 10.9). -/
def originOf (c : Carrier) (l : List Byte) (v1 : Bool) : Origin :=
  { ep := c.ep, att := c.att, op := field l 1 1, tag := field l 2 1 % 64, flags := field l 0 1 % 16,
    session := if v1 then 0 else field l 10 2, seq := if v1 then field l 10 2 else field l 12 4, target := field l 6 2,
    source := field l 8 2, src := c.src, tun := c.tun, xpr := c.xpr, v1 := v1, bcast := c.bcast, inPort := c.inPort }

/-- The opcodes of Table 10.7. -/
def opcodeDefined (op : Nat) : Bool :=
  op ≤ 0x06 || op == 0x08 || (0x10 ≤ op && op ≤ 0x13) || op == 0x18 || (0x20 ≤ op && op ≤ 0x22) || (0x30 ≤ op && op ≤ 0x34) ||
    (0x40 ≤ op && op ≤ 0x44) || (0x50 ≤ op && op ≤ 0x55) || (0x58 ≤ op && op ≤ 0x5B) || op == 0x5F || (0x60 ≤ op && op ≤ 0x6A) ||
    (0x70 ≤ op && op ≤ 0x74) || (0x80 ≤ op && op ≤ 0x84) || (0x90 ≤ op && op ≤ 0x94) || (0xA0 ≤ op && op ≤ 0xA2) ||
    (0xF0 ≤ op && op ≤ 0xF4)

/-- Commands in flight at an entry point. -/
def inflight (s : State) (ep : EntryPoint) : Nat := (s.cmd.flights.filter fun f => f.o.ep == ep).length

/-- The tag is in use (R263). -/
def tagUsed (s : State) (o : Origin) : Bool := s.cmd.flights.any (sameFlight o)

/-- The tag is held as an orphan (R275). -/
def tagHeld (s : State) (o : Origin) : Bool := s.cmd.orphans.any fun x => x.1 == o.ep && x.2.1 == o.tag

/-- Free tags of HOST (R260, R263, R378): neither in flight nor held by an orphan. -/
def freeTags (s : State) : Nat := 64 - inflight s .host - (s.cmd.orphans.filter fun x => x.1 == .host).length

/-- The selected HOST attachment (R37). -/
def hostSelected (s : State) (a : Attach) : Bool := if rdB Reg.CMD.STAT.HOSTSEL s then a == .mbox else a == .hspi

/-! Sessions (R268 to R271). -/

/-- An open session. -/
def openSession (s : State) (n : Nat) : Option Session := (s.cmd.sessions.filter fun x => x.num == n && !x.ended).head?

def updSession (n : Nat) (f : Session → Session) (s : State) : State :=
  updCmd (fun c => { c with sessions := c.sessions.map fun x => if x.num = n then f x else x }) s

/-- The session ends (R269); its key stays while commands of it are in flight. -/
def endSession (n : Nat) (s : State) : State :=
  if s.cmd.flights.any fun f => f.o.session == n then updSession n (fun x => { x with ended := true }) s
  else updCmd (fun c => { c with sessions := c.sessions.filter fun x => x.num != n }) s

/-- The key bytes of K_line (CMD.LKEY0 to CMD.LKEY3). -/
def lineKey (s : State) : List Byte := ([0, 1, 2, 3].map fun k => beBytes 4 (Tab.get (fun _ => (0 : Word)) s.cmd.lkey k).toNat).flatten

/-- CMD.STAT.KEYV: K_line loaded and not all zero. -/
def keyValid (s : State) : Bool := (lineKey s).any fun b => b != 0

/-- The step of the acceptance window (R270): `some` new highest and map where SEQ is accepted. -/
def seqAccept (x : Session) (seq : Nat) : Option (Nat × List Nat) :=
  let d := Machine.ahead (2 ^ 32) x.high seq
  let inMap := fun (h k : Nat) => Machine.ahead (2 ^ 32) k h ≤ 64
  if 1 ≤ d ∧ d < 2 ^ 31 then some (seq, (x.high :: x.seen).filter (inMap seq))
  else
    let b := Machine.ahead (2 ^ 32) seq x.high
    if 1 ≤ b ∧ b ≤ 64 ∧ x.seen.contains seq = false then some (x.high, seq :: x.seen) else none

/-- The MAC of a command is right (R271). -/
def macGood (x : Session) (l : List Byte) (n : Nat) : Bool := macOf x.key (l.take 16) ((l.drop 16).take n) == (l.drop (16 + n)).take 8

/-- A MAC failure (R271): counted; the limit in a row ends the session. -/
def macFailure (n : Nat) (s : State) : State :=
  let s := raise srcMAC_FAIL (count (cCMD 2) s)
  match openSession s n with
  | none => s
  | some x =>
    let lim := rd Reg.CMD.SCFG.MACLIM s
    if (if lim = 0 then 1 else lim) ≤ x.macFails + 1 then endSession n s
    else updSession n (fun x => { x with macFails := x.macFails + 1 }) s

/-- The open mask of an entry point (R266). -/
def openMask (s : State) (ep : EntryPoint) : Nat :=
  match ep with
  | .line => rd Reg.CMD.OPEN_LINE.GMASK s
  | .host => rd Reg.CMD.OPEN_HOST.GMASK s
  | .svc => rd Reg.CMD.OPEN_SVC.GMASK s
  | .boot => 0xFFFF

/-- Step 12 of Table 10.4 in session 0 (R266). -/
def openPermits (s : State) (o : Origin) : Bool :=
  o.op == 0x08 || o.op == 0xF3 || o.op == 0xF0 || o.op == 0xF4 || (o.op == 0x18 && o.ep == .line) || bit (o.op / 16) (openMask s o.ep)

/-! Relay (R272 to R274). -/

/-- The reply of a command that is not accepted here: it has no MAC (R258) and holds no tag (R262). -/
def plainReply (o : Origin) (status : Nat) (s : State) : State :=
  if bit 1 o.flags && status == ST_OK then s else sendReply false o (replyHeader s o status 0 false) s

/-- The command is sent on as a CMD frame with the origin tag and this node's address (R273). -/
def relay (o : Origin) (l : List Byte) (s : State) : State :=
  match freeRelay s with
  | none => plainReply o ST_BUSY s
  | some t =>
    let bytes := l.take 2 ++ [BitVec.ofNat 8 t] ++ (l.drop 3).take 5 ++ beBytes 2 (ownAddr s) ++ l.drop 10
    let xpr := rdB Reg.CMD.RELAY.XPR s && bytes.length ≤ 116
    let s := sendPoliced o.target 0 6 1 xpr bytes s
    let s := updCmd (fun c => { c with flights := c.flights ++ [{ o := o, body := l, stage := 3 }] }) s
    if o.target = 0x3FFE ∨ o.target = 0x3FFF then
      if bit 1 o.flags then dropFlight o s else deliver o (replyHeader s o ST_OK 0 false) s
    else setRelay t (some (.cmd o)) (updCmd (fun c => { c with late := c.late.filter (· != t) }) s)

/-- The relay enable of an entry point. -/
def relayEnabled (s : State) (ep : EntryPoint) : Bool :=
  match ep with
  | .host => rdB Reg.CMD.RELAY.EN_HOST s
  | .svc => rdB Reg.CMD.RELAY.EN_SVC s
  | _ => false

/-- A TARGET of this node: 0x0000 or its own address; at LINE also the broadcast the frame came with (R272). -/
def localTarget (s : State) (c : Carrier) (t : Nat) : Bool :=
  t == 0 || t == ownAddr s || (c.ep == .line && c.bcast && t == c.dst)

/-! Acceptance (R262, Table 10.4). -/

/-- Steps 11 and 12, then the command is in flight. -/
def acceptOp (o : Origin) (body : List Byte) (ok : Bool) (s : State) : State :=
  if !opcodeDefined o.op then plainReply o ST_BAD_OPCODE s
  else if !ok then plainReply o ST_DENIED s
  else updCmd (fun c => { c with flights := c.flights ++ [{ o := o, body := body, stage := 0 }] }) s

/-- Steps 8 to 13 for a command that runs here. -/
def acceptLocal (c : Carrier) (o : Origin) (l : List Byte) (hdr len : Nat) (mac : Bool) (s : State) : State :=
  let body := (l.drop hdr).take len
  if o.session = 0 then
    if mac then plainReply o ST_MAC_FAIL (macFailure 0 s)
    else acceptOp o body (openPermits s o) s
  else if c.bcast then s
  else match openSession s o.session with
    | none => plainReply o ST_NO_SESSION s
    | some x =>
      if x.ep ≠ o.ep ∨ (o.ep = .line ∧ x.src ≠ o.src) then plainReply o ST_NO_SESSION s
      else if (mac = false ∧ (x.macReq = true ∨ o.ep = .line)) ∨ (mac = true ∧ macGood x l len = false) then
        plainReply o ST_MAC_FAIL (macFailure x.num s)
      else
        let s := if mac then updSession x.num (fun x => { x with macFails := 0 }) s else s
        match seqAccept x o.seq with
        | none => plainReply o ST_REPLAY s
        | some (h, m) =>
          let s := updSession x.num (fun x => { x with high := h, seen := m }) s
          acceptOp o body (bit (o.op / 16) x.gmask && x.alo ≤ ownAddr s && ownAddr s ≤ x.ahi) s

/-- A command received whole (R262): every check of Table 10.4 in order. -/
def accept (c : Carrier) (l : List Byte) (s : State) : State :=
  let ver := field l 0 1 / 16
  let v1 := ver == 1
  let hdr := if v1 && compat s then 12 else 16
  if l.length < hdr then count (cCMD 0) s
  else
    let o := originOf c l v1
    let mac := !v1 && bit 2 o.flags
    let len := field l 4 2
    let whole := hdr + len + if mac then 8 else 0
    if !(v1 && !compat s) && l.length < whole && len ≤ 8192 then count (cCMD 0) s
    else if !(v1 && !compat s) && (l.length != whole || 8192 < len) then plainReply o ST_BAD_LEN s
    else if ver ≠ 2 ∧ (ver ≠ 1 ∨ compat s = false) then plainReply o ST_BAD_VER s
    else if bit 3 o.flags || 64 ≤ field l 2 1 || field l 3 1 != 0 || (v1 && Nat.land o.flags 5 != 0) then plainReply o ST_BAD_PARAM s
    else if tagUsed s o then count (cCMD 1) s
    else if tagHeld s o then plainReply o ST_ORPHANED (count (cCMD 5) s)
    else if c.ep = .line ∧ 64 ≤ inflight s .line then plainReply o ST_BUSY s
    else if c.ep = .host ∧ hostSelected s c.att = false then plainReply o ST_DENIED s
    else if localTarget s c o.target then acceptLocal c o l hdr len mac s
    else if relayEnabled s c.ep && o.target ≤ 0x3FFF then relay o l s
    else plainReply o ST_DENIED s

/-- A CMD frame that the command engine terminates (R259, R274). -/
def acceptFrame (f : Frame) (s : State) : State :=
  let c : Carrier := { ep := .line, att := .frame, dst := f.dst, src := f.src, tun := f.tun, xpr := f.xpr, inPort := f.inPort }
  if c.bcast && f.src == ownAddr s then s
  else if 0 < f.bytes.length && bit 3 (field f.bytes 0 1) then
    (if c.bcast then count (cCMD 3) s else updCmd (fun c => { c with rspIn := c.rspIn ++ [f] }) s)
  else accept c f.bytes s

/-! HSPI (R260). -/

def hspiReplies (s : State) : List Reply := s.cmd.replies.filter fun r => r.att == .hspi

/-- HSPI_IRQ_N is asserted, low: a reply waits (R260). -/
def hspiIrqN (s : State) : Bool := hspiReplies s == []

/-- HSPI_STATUS: the 4 bytes; ERR is cleared by this read. -/
def execHspiStatus (s : State) : Res :=
  let r := hspiReplies s
  let len := match r with
    | [] => 0
    | x :: _ => x.bytes.length + 4
  let v := ofBool (r != []) * 2 ^ 31 + ofBool s.cmd.hspiErr * 2 ^ 30 + freeTags s * 2 ^ 23 + len % 65536
  .next (updCmd (fun c => { c with hspiErr := false, hspiOut := beBytes 4 v }) s)

/-- HSPI_CMD_WRITE: the command is taken when the byte count and the CRC are good. -/
def execHspiCmdWrite (bytes : List Byte) (s : State) : Res :=
  let n := bytes.length
  let l := bytes.take (n - 4)
  let v1 := field l 0 1 / 16 == 1 && compat s
  let want := (if v1 then 12 else 16) + field l 4 2 + (if !v1 && bit 2 (field l 0 1) then 8 else 0) + 4
  if n = want ∧ leNat (bytes.drop (n - 4)) = crc32c l then .next (accept (carrier .host .hspi) l s)
  else .next (updCmd (fun c => { c with hspiErr := true }) (count (cCMD 6) s))

/-- A reply that waited has been taken: the tag it held is free (R263). -/
def freeTag (r : Reply) (s : State) : State :=
  if r.held then updCmd (fun c => { c with flights := c.flights.filter fun f => !(f.o.ep == r.ep && f.o.tag == r.tag && f.stage == 2) }) s
  else s

/-- HSPI_RSP_READ: a dummy byte, the oldest reply and its CRC-32C; a read of `n` bytes that ends before the CRC leaves it. -/
def execHspiRspRead (n : Nat) (s : State) : Res :=
  match hspiReplies s with
  | [] => .next (updCmd (fun c => { c with hspiOut := [] }) s)
  | r :: _ =>
    let all := (0 : Byte) :: r.bytes ++ leBytes 4 (crc32c r.bytes)
    let s := updCmd (fun c => { c with hspiOut := all.take n }) s
    if all.length ≤ n then .next (freeTag r (updCmd (fun c => { c with replies := c.replies.erase r }) s)) else .next s

/-- A write of CMD.HOSTSEL (R37, R287): the mailbox needs a TS die. -/
def hostSel (sel : Bool) (s : State) : Nat × State :=
  if sel && !present s 4 then (ST_NO_DIE, s)
  else (ST_OK, wr Reg.CMD.HOSTSEL.SEL (ofBool sel) (wr Reg.CMD.STAT.HOSTSEL (ofBool sel) s))

/-- HOSTSEL_WRITE (R37). -/
def execHostselWrite (sel : Bool) (s : State) : Res := .next (hostSel sel s).2

/-! Relay replies (R273). -/

/-- The reply on the original entry point: the original TAG, TARGET 0x0000. -/
def returnRelayed (o : Origin) (l : List Byte) (s : State) : State :=
  let b := l.take 2 ++ [BitVec.ofNat 8 o.tag] ++ (l.drop 3).take 3 ++ [0, 0] ++ l.drop 8
  deliver o b s

/-- CMD_REPLY_RECEIVE (R259, R273, R142): the oldest reply frame that waits. -/
def execCmdReplyReceive (s : State) : Res :=
  match s.cmd.rspIn with
  | [] => .next s
  | f :: rest =>
    let s := updCmd (fun c => { c with rspIn := rest }) s
    let t := field f.bytes 2 1
    match (if t < 64 then Tab.get (fun _ => none) s.cmd.relays t else none) with
    | some (.cmd o) => .next (returnRelayed o f.bytes (setRelay t none s))
    | some (.assign p) =>
      let st := field f.bytes 3 1
      let s := setRelay t none s
      .next (if st = ST_OK ∨ st = ST_DENIED ∨ st = ST_BAD_PARAM then updLp p (fun x => { x with assigning := false }) s else s)
    | none =>
      if s.cmd.late.contains t then .next (count (cCMD 4) (updCmd (fun c => { c with late := c.late.filter (· != t) }) s))
      else .next (count (cCMD 3) s)

/-- RELAY_TIMEOUT (R273): ST_TIMEOUT, the origin tag freed. -/
def execRelayTimeout (tag : Fin 64) (s : State) : Res :=
  let t := tag.val
  match Tab.get (fun _ => none) s.cmd.relays t with
  | none => .next s
  | some r =>
    let s := setRelay t none (updCmd (fun c => { c with late := t :: c.late.filter (· != t) }) s)
    match r with
    | .cmd o => .next (deliver o (replyHeader s o ST_TIMEOUT 0 false) s)
    | .assign _ => .next s

/-! Orphans (R275, R276). -/

/-- The entry of the orphan holder that a reply leaves: none for a refused command, which was never dispatched (R275). -/
def orphanOf (r : Reply) : Option (EntryPoint × Nat × List Byte × Nat) := if r.held then some (r.ep, r.tag, r.bytes, r.session) else none

/-- An attachment of HOST or SVC is lost: waiting replies go to the orphan holder, and so do the replies of its commands
still at work. -/
def loseAttachment (a : Attach) (ep : EntryPoint) (s : State) : State :=
  let gone := s.cmd.replies.filter fun r => r.att == a
  let fl := s.cmd.flights.filter fun f => f.o.att == a && f.stage != 2
  updCmd (fun c => { c with
    replies := c.replies.filter fun r => r.att != a
    flights := c.flights.filter fun f => !(f.o.att == a && f.stage == 2)
    orphans := c.orphans ++ gone.filterMap orphanOf
    lost := c.lost ++ fl.map fun f => (ep, f.o.tag) }) s

/-- ORPHAN_EXPIRY (R275, R351): the oldest entry of an entry point is released after 1 s. -/
def execOrphanExpiry (ep : EntryPoint) (s : State) : Res :=
  match takeFirst (fun x : EntryPoint × Nat × List Byte × Nat => x.1 == ep) s.cmd.orphans with
  | none => .next s
  | some (_, rest) =>
    let s := updCmd (fun c => { c with orphans := rest }) s
    .next (if ep = .svc then wr Reg.SVC.ORPH.EXPIRED (min 65535 (rd Reg.SVC.ORPH.EXPIRED s + 1)) s else s)

/-- One record of GET_ORPHAN (R276, R286). -/
def orphanRecord (l : List Byte) : List Byte :=
  let v1 := field l 0 1 / 16 == 1
  let hdr := if v1 then l.take 10 ++ List.replicate 6 0 else l.take 16
  let mac := !v1 && bit 2 (field l 0 1)
  let len := field l 4 2
  let body := (l.drop (if v1 then 12 else 16)).take len
  let kept := body.take 240
  hdr ++ (if mac then (l.drop (16 + len)).take 8 else List.replicate 8 0) ++ beBytes 2 len ++ beBytes 2 kept.length ++ kept ++
    List.replicate ((4 - kept.length % 4) % 4) 0

/-- GET_ORPHAN (R276). -/
def execGetOrphan (o : Origin) (body : List Byte) (s : State) : Res :=
  command o body 4 (fun s =>
    let n := field body 0 1
    if n = 0 ∨ 16 < n ∨ zeroAt body 1 3 = false then reply o ST_BAD_PARAM [] s
    else
      let mine := (s.cmd.orphans.filter fun x => x.1 == o.ep && x.2.2.2 == o.session).take n
      let s := updCmd (fun c => { c with orphans := c.orphans.filter fun x => !mine.contains x }) s
      reply o ST_OK (beBytes 1 mine.length ++ [0, 0, 0] ++ (mine.map fun x => orphanRecord x.2.2.1).flatten) s) s

/-! Session commands (R267 to R269). -/

/-- The key hash of a public key: the first 32 bytes of its SHA-512 (R445). -/
def keyHash (pub : List Byte) : BitVec 256 := (Config.sha512 pub).extractLsb' 256 256

/-- An owner slot holds this key (R445). -/
def ownerKey (s : State) (slot : Nat) (pub : List Byte) : Bool :=
  slot < 4 && Tab.get zeroN s.otp.st (4 + slot) == 1 && Tab.get (fun _ => (0 : BitVec 256)) s.otp.hash (4 + slot) == keyHash pub

/-- The bit of EPS for an entry point (notes/assumptions/21). -/
def epsBit (ep : EntryPoint) : Nat :=
  match ep with
  | .line => 4
  | .host => 3
  | _ => 2

/-- The grant passes R267. -/
def grantOk (s : State) (o : Origin) (g : List Byte) : Bool :=
  let f := field g 1 1
  field g 0 1 == 1 && f < 32 && zeroAt g 27 5 && bit (epsBit o.ep) f && (o.ep != .line || field g 24 2 == 0 || field g 24 2 == o.src) &&
    field g 4 2 ≤ ownAddr s && ownAddr s ≤ field g 6 2 && ownerKey s (field g 26 1) ((g.drop 32).take 32) &&
    Config.ed25519 ((g.drop 32).take 32) ((g.drop 64).take 64) (g.take 64) &&
    (if rd Reg.TIM.STAT.QSTATE s = 0 then bit 1 f else field g 8 8 ≤ lineNs s && (lineNs s ≤ field g 16 8))

/-- The session number SESSION_OPEN takes: the lowest free one of 1 to 32 (notes/assumptions/22). -/
def freeSession (s : State) : Option Nat := ((List.range 33).filter fun n => 0 < n && !(s.cmd.sessions.any fun x => x.num == n)).head?

/-- Ended sessions without a command in flight are gone. -/
def pruneSessions (s : State) : State :=
  updCmd (fun c => { c with sessions := c.sessions.filter fun x => !x.ended || c.flights.any fun f => f.o.session == x.num }) s

/-- SESSION_OPEN (R267, R268). -/
def execSessionOpen (o : Origin) (body : List Byte) (s : State) : Res :=
  command o body 136 (fun s =>
    let s := pruneSessions s
    let g := body.take 128
    let macReq := bit 0 (field g 1 1)
    if !grantOk s o g then reply o ST_DENIED [] s
    else if !keyValid s && (o.ep == .line || macReq) then reply o ST_DENIED [] s
    else match freeSession s with
      | none => reply o ST_BUSY [] s
      | some n =>
        match drawFree s with
        | (d, s) =>
          let nd := beBytes 8 d.toNat
          let m := [0x4C, 0x48, 0x38, 0x53] ++ beBytes 2 (ownAddr s) ++ beBytes 2 n ++ (body.drop 128).take 8 ++ nd
          let key := beBytes 16 (Config.aesCmac (lineKey s) m).toNat
          let x : Session := { num := n, ep := o.ep, src := o.src, gmask := field g 2 2, macReq := macReq, alo := field g 4 2, ahi := field g 6 2,
                               notAfter := field g 16 8, key := key, high := 0, seen := [], macFails := 0, ended := false }
          let s := updCmd (fun c => { c with sessions := c.sessions ++ [x] }) s
          let rb := beBytes 2 n ++ List.replicate 6 0 ++ nd
          let h := replyHeader s o ST_OK rb.length true
          if bit 1 o.flags then dropFlight o s else deliver o (h ++ rb ++ macOf key h rb) s) s

/-- SESSION_CLOSE (R269): in the session itself; its reply carries the MAC. -/
def execSessionClose (o : Origin) (body : List Byte) (s : State) : Res :=
  command o body 0 (fun s =>
    match openSession s o.session with
    | none => reply o ST_NO_SESSION [] s
    | some x => endSession x.num (reply o ST_OK [] s)) s

/-- SESSION_INFO (R278). -/
def execSessionInfo (o : Origin) (body : List Byte) (s : State) : Res :=
  command o body 0 (fun s =>
    match openSession s o.session with
    | none => reply o ST_NO_SESSION [] s
    | some x => reply o ST_OK (beBytes 2 x.num ++ beBytes 1 (reqIdx x.ep) ++ [0] ++ beBytes 2 x.gmask ++ [0, 0] ++ beBytes 8 x.notAfter ++
        beBytes 4 x.high) s) s

/-- SESSION_IDLE_TIMEOUT (R269): CMD.SCFG.IDLE of 0 never. -/
def execSessionIdleTimeout (sess : Fin 33) (s : State) : Res :=
  if rd Reg.CMD.SCFG.IDLE s ≠ 0 ∧ (openSession s sess.val).isSome then .next (endSession sess.val s) else .next s

/-- SESSION_EXPIRY (R269): line time has passed NOT_AFTER. -/
def execSessionExpiry (sess : Fin 33) (s : State) : Res :=
  match openSession s sess.val with
  | none => .next s
  | some x => if x.notAfter < lineNs s ∧ x.notAfter ≠ 2 ^ 64 - 1 then .next (endSession sess.val s) else .next s

end Sys2Proof.Machine
end

