-- ==== Sys2Proof/Machine/BridgeRegs.lean ====
section
/-! DEFINITION. The bridge's windows, apertures and logs: staging, APPLY and LOAD, log reads (R220, R221, R229, R234). -/
namespace Sys2Proof.Machine

/-! Windows and apertures. -/

def window (s : State) (i : Nat) : Window := Tab.get (fun _ => Window.reset) s.brg.windows i
def aperture (s : State) (i : Nat) : Window := Tab.get (fun _ => Window.reset) s.brg.apertures i

def wEN (w : Window) : Bool := bit 31 w.cfg.toNat
def wRD (w : Window) : Bool := bit 30 w.cfg.toNat
def wWR (w : Window) : Bool := bit 29 w.cfg.toNat
def wTSEL (w : Window) : Nat := bits 27 26 w.cfg.toNat
def wSIZE (w : Window) : Nat := bits 25 20 w.cfg.toNat
def wTUN (w : Window) : Nat := bits 13 0 w.cfg.toNat
def wL (w : Window) : Nat := bits 23 0 w.lbase.toNat * 4096
def wR (w : Window) : Nat := bits 27 0 w.rbase.toNat * 4096

/-- A tunnel whose origin entry lets the bridge send on it (R221). -/
def brgTunnel (s : State) (tun : Nat) : Option Nat :=
  match originEntry s 0 tun with
  | some e => if orgTYP e = 4 then some e else none
  | none => none

/-- The rules of R221. -/
def windowOk (s : State) (w : Window) : Bool :=
  12 ≤ wSIZE w && wSIZE w ≤ 36 && wL w % 2 ^ wSIZE w == 0 && wR w % 2 ^ wSIZE w == 0 && (brgTunnel s (wTUN w)).isSome

/-- BRG.WCTL.APPLY by a requester (R221, R234). -/
def wctlApply (r : EntryPoint) (s : State) : Nat × State :=
  let w : Window := { cfg := maskW 0xEFF03FFF (staged s r Reg.BRG.WCFG.word), lbase := staged s r Reg.BRG.WLBASE.word,
                      rbase := staged s r Reg.BRG.WRBASE.word }
  if windowOk s w then
    (ST_OK, updBrg (fun b => { b with windows := Tab.set (fun _ => Window.reset) (rd (Reg.BRG.WSEL.INDEX.mine r) s) w b.windows }) s)
  else (ST_BAD_PARAM, s)

/-- BRG_WCTL_APPLY (R221). -/
def execBrgWctlApply (req : EntryPoint) (s : State) : Res :=
  access Reg.BRG.WCTL.word.addr (fun s => (wctlApply req s).2) s

/-- BRG.WCTL.LOAD by a requester. -/
def wctlLoad (r : EntryPoint) (s : State) : State :=
  let w := window s (rd (Reg.BRG.WSEL.INDEX.mine r) s)
  regSet (regSet (regSet s (Reg.BRG.WCFG.word.mine r).addr w.cfg) (Reg.BRG.WLBASE.word.mine r).addr w.lbase)
    (Reg.BRG.WRBASE.word.mine r).addr w.rbase

/-- BRG_WCTL_LOAD (R234). -/
def execBrgWctlLoad (req : EntryPoint) (s : State) : Res :=
  access Reg.BRG.WCTL.word.addr (fun s => wctlLoad req s) s

/-- BRG.TCTL.APPLY by a requester (R220, R234). -/
def tctlApply (r : EntryPoint) (s : State) : Nat × State :=
  let w : Window := { cfg := maskW 0xE3F03FFF (staged s r Reg.BRG.TCFG.word), lbase := 0, rbase := staged s r Reg.BRG.TBASE.word }
  if 12 ≤ wSIZE w && wSIZE w ≤ 36 && wR w % 2 ^ wSIZE w == 0 then
    (ST_OK, updBrg (fun b => { b with apertures := Tab.set (fun _ => Window.reset) (rd (Reg.BRG.TSEL.INDEX.mine r) s) w b.apertures }) s)
  else (ST_BAD_PARAM, s)

/-- BRG_TCTL_APPLY (R220). -/
def execBrgTctlApply (req : EntryPoint) (s : State) : Res :=
  access Reg.BRG.TCTL.word.addr (fun s => (tctlApply req s).2) s

/-- BRG.TCTL.LOAD by a requester. -/
def tctlLoad (r : EntryPoint) (s : State) : State :=
  let w := aperture s (rd (Reg.BRG.TSEL.INDEX.mine r) s)
  regSet (regSet s (Reg.BRG.TCFG.word.mine r).addr w.cfg) (Reg.BRG.TBASE.word.mine r).addr w.rbase

/-- BRG_TCTL_LOAD (R234). -/
def execBrgTctlLoad (req : EntryPoint) (s : State) : Res :=
  access Reg.BRG.TCTL.word.addr (fun s => tctlLoad req s) s

/-! Logs (R229, Table 8.10). -/

/-- A log entry. -/
def brgEntry (s : State) (status cause peer tun id addr : Nat) : BrgLog :=
  { w0 := BitVec.ofNat 32 (status % 256 * 2 ^ 24 + cause * 2 ^ 16 + peer % 2 ^ 14)
    w1 := BitVec.ofNat 32 (tun % 2 ^ 14 * 2 ^ 18 + id % 2 ^ 16)
    w2 := BitVec.ofNat 32 (lineNs s / 1024 % 2 ^ 24 * 256 + addr / 2 ^ 32 % 256)
    w3 := BitVec.ofNat 32 addr }

/-- A new entry of the posted-error log, with the PWERR event; a full log counts it in OVF (R229). -/
def logPwl (e : BrgLog) (s : State) : State :=
  let s := if s.brg.pwl.length < 64 then updBrg (fun b => { b with pwl := b.pwl ++ [e] }) s
    else wr Reg.BRG.PWL_STAT.OVF (min 65535 (rd Reg.BRG.PWL_STAT.OVF s + 1)) s
  raise srcPWERR s

/-- A new entry of the bridge error log. -/
def logElg (e : BrgLog) (s : State) : State :=
  if s.brg.elg.length < 64 then updBrg (fun b => { b with elg := b.elg ++ [e] }) s
  else wr Reg.BRG.ELG_STAT.OVF (min 65535 (rd Reg.BRG.ELG_STAT.OVF s + 1)) s

def logWord (e : BrgLog) (i : Nat) : Word :=
  match i with
  | 0 => e.w0
  | 1 => e.w1
  | 2 => e.w2
  | _ => e.w3

/-- A read of a log data register: the requester's next word; the read of word 3 removes the entry. `k` is 0 for the PWL,
4 for the ELG. -/
def readLog (k : Nat) (r : EntryPoint) (s : State) : Word × State :=
  let l := if k = 0 then s.brg.pwl else s.brg.elg
  match l with
  | [] => (0, s)
  | e :: rest =>
    let i := Tab.get zeroN s.brg.widx (k + reqIdx r)
    let s := updBrg (fun b => { b with widx := Tab.set zeroN (k + reqIdx r) ((i + 1) % 4) b.widx }) s
    (logWord e i, if i = 3 then updBrg (fun b => if k = 0 then { b with pwl := rest } else { b with elg := rest }) s else s)

/-- PWL_DATA_READ (R234). -/
def execPwlDataRead (req : EntryPoint) (s : State) : Res :=
  access Reg.BRG.PWL_DATA.word.addr (fun s => returned (readLog 0 req s)) s

/-- ELG_DATA_READ (R234). -/
def execElgDataRead (req : EntryPoint) (s : State) : Res :=
  access Reg.BRG.ELG_DATA.word.addr (fun s => returned (readLog 4 req s)) s

/-- A read of BRG.PWL_STAT: OVF, cleared, and COUNT. -/
def readPwlStat (s : State) : Word × State :=
  (BitVec.ofNat 32 (rd Reg.BRG.PWL_STAT.OVF s * 65536 + s.brg.pwl.length), wr Reg.BRG.PWL_STAT.OVF 0 s)

/-- A read of BRG.ELG_STAT. -/
def readElgStat (s : State) : Word × State :=
  (BitVec.ofNat 32 (rd Reg.BRG.ELG_STAT.OVF s * 65536 + s.brg.elg.length), wr Reg.BRG.ELG_STAT.OVF 0 s)

/-- A read of BRG.RDSTAT: PEAK, which starts again from the tags in use, and NOW. -/
def readRdstat (s : State) : Word × State :=
  (BitVec.ofNat 32 (s.brg.peak * 65536 + s.brg.reads.length), updBrg (fun b => { b with peak := b.reads.length }) s)

/-- PWL_STAT_READ (R234). -/
def execPwlStatRead (_ : EntryPoint) (s : State) : Res :=
  access Reg.BRG.PWL_STAT.word.addr (fun s => returned (readPwlStat s)) s

/-- ELG_STAT_READ (R234). -/
def execElgStatRead (_ : EntryPoint) (s : State) : Res :=
  access Reg.BRG.ELG_STAT.word.addr (fun s => returned (readElgStat s)) s

/-- RDSTAT_READ (R234). -/
def execRdstatRead (_ : EntryPoint) (s : State) : Res :=
  access Reg.BRG.RDSTAT.word.addr (fun s => returned (readRdstat s)) s

/-- The 16 bytes of an entry. -/
def entryBytes (e : BrgLog) : List Byte := beBytes 4 e.w0.toNat ++ beBytes 4 e.w1.toNat ++ beBytes 4 e.w2.toNat ++ beBytes 4 e.w3.toNat

/-- PWL_READ (R278): up to MAX entries, oldest first, which leave the log (notes/assumptions/23). -/
def execPwlRead (o : Origin) (body : List Byte) (s : State) : Res :=
  command o body 4 (fun s =>
    let n := field body 0 1
    if n = 0 ∨ 32 < n ∨ zeroAt body 1 3 = false then reply o ST_BAD_PARAM [] s
    else
      let l := s.brg.pwl.take n
      let s := updBrg (fun b => { b with pwl := b.pwl.drop n }) s
      reply o ST_OK (beBytes 1 l.length ++ [0, 0, 0] ++ (l.map entryBytes).flatten) s) s

/-- ELG_READ (R278). -/
def execElgRead (o : Origin) (body : List Byte) (s : State) : Res :=
  command o body 4 (fun s =>
    let n := field body 0 1
    if n = 0 ∨ 32 < n ∨ zeroAt body 1 3 = false then reply o ST_BAD_PARAM [] s
    else
      let l := s.brg.elg.take n
      let s := updBrg (fun b => { b with elg := b.elg.drop n }) s
      reply o ST_OK (beBytes 1 l.length ++ [0, 0, 0] ++ (l.map entryBytes).flatten) s) s

end Sys2Proof.Machine
end

