-- ==== Sys2Proof/Machine/LineTime.lean ====
section
/-! DEFINITION. Line time, trigger outputs and capture inputs (chapter 9, R235 to R255; R284). -/
namespace Sys2Proof.Machine

/-! Trigger pins. -/

def trigPin (s : State) (k : Nat) : TrigPin := Tab.get (fun _ => TrigPin.reset) s.trig k
def setTrig (k : Nat) (p : TrigPin) (s : State) : State := { s with trig := Tab.set (fun _ => TrigPin.reset) k p s.trig }

/-- Line time in units of 250 ps, as capture stamps hold it (R235). -/
def now4 (s : State) : Nat := s.lt / 2 ^ 30 % 2 ^ 64

/-- The first 250 ps step that has not passed. -/
def step4 (s : State) : Nat := (s.lt + 2 ^ 30 - 1) / 2 ^ 30 % 2 ^ 64

/-- The instant of an entry's next pulse. -/
def entAt (e : TrigEnt) : Nat :=
  match e.late with
  | [] => e.next
  | x :: _ => if e.left = some 0 then x.1 else min x.1 e.next

/-- Puts an entry in its place in the order of AT (R250). -/
def insertEnt (e : TrigEnt) : List TrigEnt → List TrigEnt
  | [] => [e]
  | x :: l => if entAt e < entAt x then e :: x :: l else x :: insertEnt e l

/-- A pulse of the entry has begun or is not fired: the next one follows after PERIOD; `none` after the last (R250). -/
def skipPulses (m : Nat) (e : TrigEnt) : TrigEnt :=
  { e with next := e.next + m * e.period, left := e.left.map fun n => n - m }

/-- The entry still has a pulse to start. -/
def entLive (e : TrigEnt) : Bool := e.late != [] || e.left != some 0

/-- Pulses of the entry are late (Table 9.4): its first where it lies before `lim`, those after it where they lie before `past`, and late
ones not yet fired where the time has passed. They are not fired, or fired at `fire` where LATEFIRE is 1. The flag says that there were
any (notes/assumptions/24). -/
def lateEnt (latefire : Bool) (lim past fire : Nat) (e : TrigEnt) : TrigEnt × Bool :=
  let m := if lim ≤ e.next ∨ e.left = some 0 then 0
    else if e.period = 0 then 1 else max 1 ((past - e.next + e.period - 1) / e.period)
  let m := match e.left with
    | none => m
    | some n => min m n
  let missed := e.late.filter fun x => x.1 < past
  if m = 0 ∧ missed = [] then (e, false)
  else
    let kept := e.late.filter fun x => past ≤ x.1
    ({ skipPulses m e with late := if latefire then kept ++ [(fire, 1 < m + missed.length || missed.any fun x => x.2)] else kept }, true)

/-- TRG.ERR bits of a pin, with TRG_ERR. -/
def trgErr (f : Fld) (k : Nat) (s : State) : State := raise srcTRG_ERR (orF f (2 ^ k) s)

/-- Adds an entry to a pin (R250, Table 9.4): ST_BAD_PARAM, ST_BUSY with QFULL, or ST_OK. An AT less than 100 ns ahead is late, and
fires at the first step at least 100 ns from now. -/
def arm (k at_ width period cnt : Nat) (s : State) : Nat × State :=
  if rd (Reg.TRG.PCFG.MODE k) s ≠ 1 ∨ width = 0 ∨ (cnt ≠ 1 ∧ period ≤ width) then (ST_BAD_PARAM, s)
  else
    let p := trigPin s k
    if 15 ≤ p.entries.length then (ST_BUSY, trgErr Reg.TRG.ERR.QFULL k s)
    else
      let lim := step4 s + 400
      let e : TrigEnt := { next := at_, width := width, period := period, left := if cnt = 0 then none else some cnt, late := [] }
      let (e, late) := lateEnt (rdB (Reg.TRG.PCFG.LATEFIRE k) s) lim (step4 s) lim e
      let s := if late then trgErr Reg.TRG.ERR.LATE k s else s
      (ST_OK, if entLive e then setTrig k { p with entries := insertEnt e p.entries } s else s)

/-- The pending entries of a pin are removed; a pulse that runs completes (Table 9.4). -/
def cancelPin (k : Nat) (s : State) : State := setTrig k { trigPin s k with entries := [] } s

/-- CANCEL of the pins in a mask. -/
def cancelMask (m : Nat) (s : State) : State := forAll (onBits 8 m) cancelPin s

/-- Line time has stepped forward (Table 9.4): skipped pulses are late. -/
def skipPin (k : Nat) (s : State) : State :=
  let p := trigPin s k
  let r := p.entries.map (lateEnt (rdB (Reg.TRG.PCFG.LATEFIRE k) s) (step4 s) (step4 s) (step4 s + 400))
  let s := if r.any fun x => x.2 then trgErr Reg.TRG.ERR.LATE k s else s
  setTrig k { p with entries := ((r.map fun x => x.1).filter entLive).foldr insertEnt [] } s

/-- Line time steps by `d` in 2^-32 ns (R242, R246, Table 9.4). -/
def stepTime (d : Int) (s : State) : State :=
  let s := { s with lt := (((s.lt : Int) + d) % (2 ^ 96 : Nat)).toNat }
  let s := raise srcTIME_STEP s
  if 0 < d then forAll (List.range 8) skipPin s else s

/-! The servo. -/

/-- T_pcs of a port in tenths of a ns (Table 2.3). -/
def tPcs (s : State) (n : Nat) : Nat :=
  let w := rd (Reg.HLP.STAT.WIDTH_CUR n) s
  let pick := fun (a b c : Nat) => if w = 2 then a else if w = 1 then b else c
  match rd (Reg.HLP.STAT.FEC_CUR n) s with
  | 1 => pick 360 488 744
  | 2 => pick 920 1176 1688
  | 3 => pick 830 1342 2366
  | _ => 110

/-- Tenths of a ns in 2^-32 ns. -/
def tenths (t : Nat) : Nat := t * 2 ^ 32 / 10

/-- A of a parent port in 2^-32 ns (R241): its trim and PASYM, which counts ps. -/
def asymmetry (s : State) (n : Nat) : Int :=
  Config.asymTrim (rd (Reg.HLP.STAT.MODE_CUR n) s * 16 + rd (Reg.HLP.STAT.FEC_CUR n) s * 4 + rd (Reg.HLP.STAT.WIDTH_CUR n) s)
      (s.trims.filter fun e => e.1 < 65536) +
    signed 16 (rd (Reg.TIM.PASYM.ASYM n) s) * 2 ^ 32 / 1000

/-- ±200 ppm in units of 2^-32 (R235). -/
def fadjMax : Int := 858993

def clampFadj (x : Int) : Int := max (-fadjMax) (min fadjMax x)

/-- TIM.OFS: the offset in ps, saturating. -/
def setOfs (off : Int) (s : State) : State :=
  wr Reg.TIM.OFS.OFFSET (unsigned 32 (max (-(2 ^ 31)) (min (2 ^ 31 - 1) (off * 1000 / 2 ^ 32)))) s

/-- The correction of R242 for an offset below the step threshold. -/
def servo (off : Int) (s : State) : State :=
  let t := s.time
  let integ := t.integ + off / 2 ^ rd Reg.TIM.CFG.KI s
  let f := clampFadj (-(off / 2 ^ rd Reg.TIM.CFG.KP s + integ) / 1000000)
  { s with time := { t with integ := integ, fadj := f } }

/-- Runs of offsets lead into LOCKED and out of it (R242, R243). -/
def lockRuns (off : Int) (s : State) : State :=
  let good := off.natAbs ≤ 2 * 2 ^ 32
  let bad := 20 * 2 ^ 32 ≤ off.natAbs
  let t := s.time
  let s := { s with time := { t with goodRun := if good then t.goodRun + 1 else 0, badRun := if bad then t.badRun + 1 else 0 } }
  let q := rd Reg.TIM.STAT.QSTATE s
  if q = 1 ∧ 16 ≤ s.time.goodRun then
    raise srcTIME_LOCK (wr Reg.TIM.STAT.QSTATE 2 { s with time := { s.time with slowQual := false } })
  else if q = 2 ∧ 4 ≤ s.time.badRun then
    wr Reg.TIM.STAT.QSTATE 1 { s with time := { s.time with goodRun := 0, windowLocked := false } }
  else s

/-- A valid SYNC of the parent port (R236, R242, R243): `tRx` is the line time at its timestamp point, `tSync` the time it
carries, in 2^-32 ns. -/
def onParentSync (n strat qual tSync tRx : Nat) (s : State) : State :=
  let s := wr Reg.TIM.STAT.STRAT (min 255 (strat + 1)) (wr Reg.TIM.STAT.UQUAL qual s)
  let q := rd Reg.TIM.STAT.QSTATE s
  let s := if q = 0 ∨ q = 3 ∨ q = 4 then
      wr Reg.TIM.STAT.QSTATE 1 { s with time := { s.time with goodRun := 0, badRun := 0 } } else s
  let t := (lp s n).time
  let fwd2 : Int := ((t.rtt.getD (25000 * 2 ^ 32) : Nat) : Int) - 2 * tenths (tPcs s n) + asymmetry s n
  let off := timeSince tSync tRx - fwd2 / 2
  let th := rd Reg.TIM.CFG.STEP_TH s
  let s := setOfs off s
  let s := if (if th = 0 then 1 else th) * 100 * 2 ^ 32 ≤ off.natAbs then
      stepTime (-off) { s with time := { s.time with integ := 0 } }
    else servo off s
  let s := { s with time := { s.time with hist := (s.time.fadj :: s.time.hist).take 16 } }
  lockRuns off s

/-- A SYNC_HI and SYNC_LO pair is received (R236, R237): a child takes it from its parent port only, and not with STRAT
0xFF. -/
def onSync (n strat qual tSync tRx : Nat) (s : State) : State :=
  if rdB Reg.TIM.CFG.EN s && parentPort s == some n && strat != 0xFF then onParentSync n strat qual tSync tRx s else s

/-- SYNC (R242). -/
def execSync (p : LPort) (strat qual : BitVec 8) (ns : BitVec 64) (frac : BitVec 16) (s : State) : Res :=
  .next (onSync p.val strat.toNat qual.toNat (ns.toNat * 2 ^ 32 + frac.toNat * 2 ^ 16) (portNow s p.val) s)

/-- The exchange runs on the port (R239). -/
def exchanges (s : State) (n : Nat) : Bool :=
  rdB Reg.TIM.CFG.EN s && (lstate s n == ACTIVE || lstate s n == HUM || lstate s n == DOZE)

/-- A DREQ is received (R239). -/
def onDreq (n gtag : Nat) (s : State) : State :=
  if exchanges s n then
    pendOs n { typ := 0x0B, body := gtag * 2 ^ 40 }
      (updLp n (fun p => { p with time := { p.time with dreqRx := portNow s n, dreqAt := s.now } }) s)
  else s

/-- DREQ (R239). -/
def execDreq (p : LPort) (gtag : BitVec 8) (s : State) : Res := .next (onDreq p.val gtag.toNat s)

/-- A DRSP is received (R240): its GTAG is the outstanding DREQ's. -/
def onDrsp (n gtag turn : Nat) (s : State) : State :=
  let t := (lp s n).time
  if rdB Reg.TIM.CFG.EN s && t.outstanding == some gtag then
    let sd := timeSince t.dreqSent (portNow s n) - turn * 2 ^ 24
    let r : Int := sd + 2 * tenths (tPcs s n)
    let v : Int := match t.rtt with
      | none => r
      | some x => x + (r - x) / 16
    let v := v.toNat
    wr (Reg.TIM.PRTT.RTT n) (min (2 ^ 32 - 1) (v / 2 ^ 28))
      (updLp n (fun p => { p with time := { p.time with outstanding := none, rtt := some v } }) s)
  else s

/-- DRSP (R240). -/
def execDrsp (p : LPort) (gtag : BitVec 8) (turn : BitVec 40) (s : State) : Res := .next (onDrsp p.val gtag.toNat turn.toNat s)

/-- A TIME word or pair of an OS slot that breaks R237 is counted; with EN 0 received words are ignored. -/
def timeErr (n : Nat) (s : State) : State := if rdB Reg.TIM.CFG.EN s then count (cHLP n kTIME_ERR) s else s

/-- SYNC words are sent on every trained port except the parent port (R236, R239). -/
def execSyncSendTimer (s : State) : Res :=
  .next (forAll ((List.range 4).filter fun n => exchanges s n && parentPort s != some n) (fun n s =>
    pendOs n { typ := 0x09, body := 0 } (pendOs n { typ := 0x08, body := 0 } s)) s)

/-- DREQ_SEND_TIMER (R239). -/
def execDreqSendTimer (p : LPort) (s : State) : Res :=
  if exchanges s p.val then .next (sendDreq p.val s) else .next s

/-- DREQ_MISS (R239). -/
def execDreqMiss (p : LPort) (s : State) : Res :=
  if (lp s p.val).time.outstanding.isSome then
    .next (count (cHLP p.val kDREQ_MISS) (updLp p.val (fun q => { q with time := { q.time with outstanding := none } }) s))
  else .next s

/-- SYNC_LOSS_TIMEOUT (R243). -/
def execSyncLossTimeout (s : State) : Res := .next (enterHoldFast s)

/-- With EN 0 no time word leaves: those that wait are dropped, and no DREQ is outstanding (Table of TIM.CFG). -/
def dropTimeWords (s : State) : State :=
  if rdB Reg.TIM.CFG.EN s then s
  else forAll [0, 1, 2, 3] (fun n => updLp n fun p =>
    { p with osq := p.osq.filter fun w => !timeWord w, time := { p.time with outstanding := none } }) s

/-- A write to TIM.CFG (R236, R243): a change of the parent port leads to HOLD_FAST. -/
def timCfgWrite (v : Word) (s : State) : State :=
  dropTimeWords (withParent (fun s => regSet s Reg.TIM.CFG.word.addr (maskW 0x0EFFFF01 v)) s)

/-- PSEL_WRITE (R243). -/
def execPselWrite (psel : BitVec 3) (s : State) : Res :=
  access Reg.TIM.CFG.word.addr (fun s => timCfgWrite (Reg.TIM.CFG.PSEL.into psel.toNat (regGet s Reg.TIM.CFG.word.addr)) s) s

/-- ANNOUNCE_TIMER (R248): the master sends ANNOUNCE on TIM.ANN.TUN. -/
def execAnnounceTimer (s : State) : Res :=
  let t := rd Reg.TIM.ANN.TUN s
  if rd Reg.TIM.STAT.QSTATE s = 5 ∧ t ≠ 0 then
    .next (originate 0 t ([0, 0, 0, 1] ++ beBytes 1 (rd Reg.TIM.ANN.UTCOFS s) ++ beBytes 1 (rd Reg.TIM.ANN.LEAP s) ++ [0, 0] ++
      beBytes 8 (lineNs s)) s)
  else .next s

/-! Frames of P16 unit 3. -/

def inbox (s : State) (u : Nat) : List Frame := Tab.get noCells s.tuns.inbox u
def setInbox (u : Nat) (l : List Frame) (s : State) : State := updTuns (fun t => { t with inbox := Tab.set noCells u l t.inbox }) s

/-- Takes the first frame of unit `u` that `p` accepts. -/
def takeFrame (u : Nat) (p : Frame → Bool) (s : State) : Option (Frame × State) :=
  (takeFirst p (inbox s u)).map fun r => (r.1, setInbox u r.2 s)

/-- A TIME or TRIG frame of a KIND (Table 9.3). -/
def isKind (typ kind : Nat) (f : Frame) : Bool := f.typ == typ && field f.bytes 2 2 == kind

/-- The length and zero fields of Table 9.3 (R248). -/
def timeFrameGood (f : Frame) : Bool :=
  let l := f.bytes
  if isKind 7 1 f then l.length == 16 && zeroAt l 6 2
  else if isKind 8 1 f then
    let n := field l 4 1
    1 ≤ n && n ≤ 5 && zeroAt l 5 3 && l.length == 8 + 20 * n &&
      (List.range n).all fun i => field l (8 + 20 * i) 1 < 8 && zeroAt l (9 + 20 * i) 1
  else if isKind 8 2 f then l.length == 8 && zeroAt l 5 3
  else if isKind 8 3 f then
    let n := field l 5 1
    field l 4 1 < 8 && 1 ≤ n && n ≤ 13 && l.length == 8 + 8 * n
  else false

/-- TRG_FMT. -/
def trgFmt (s : State) : State := count (cTRG 8) s

/-- ANNOUNCE (R248): a child copies UTCOFS and LEAP. -/
def execAnnounce (s : State) : Res :=
  match takeFrame 3 (isKind 7 1) s with
  | none => .next s
  | some (f, s) =>
    if rd Reg.TIM.STAT.QSTATE s = 5 then .next s
    else .next (wr Reg.TIM.ANN.LEAP (field f.bytes 5 1) (wr Reg.TIM.ANN.UTCOFS (field f.bytes 4 1) s))

/-- One ARM record of 20 bytes (Table 9.3). -/
def armRecord (l : List Byte) (s : State) : Nat × State :=
  if 8 ≤ field l 0 1 ∨ field l 1 1 ≠ 0 then (ST_BAD_PARAM, s)
  else arm (field l 0 1) (field l 4 8) (field l 12 4) (field l 16 4) (field l 2 2) s

/-- The records of an ARM, in order; a refused record does not stop those after it. -/
def armRecords : Nat → List Byte → State → List Nat × State
  | 0, _, s => ([], s)
  | n + 1, l, s =>
    let (st, s) := armRecord (l.take 20) s
    let (r, s) := armRecords n (l.drop 20) s
    (st :: r, s)

/-- ARM (R248, R250): a record refused for its parameters counts TRG_FMT. -/
def execArm (s : State) : Res :=
  match takeFrame 3 (isKind 8 1) s with
  | none => .next s
  | some (f, s) =>
    let (r, s) := armRecords (field f.bytes 4 1) (f.bytes.drop 8) s
    .next (times (r.filter (· == ST_BAD_PARAM)).length trgFmt s)

/-- CANCEL (R252). -/
def execCancel (s : State) : Res :=
  match takeFrame 3 (isKind 8 2) s with
  | none => .next s
  | some (f, s) => .next (cancelMask (field f.bytes 4 1) s)

/-! Registers and commands. -/

/-- TRG.ACTL.ARM by a requester (R250). -/
def actlArm (r : EntryPoint) (s : State) : Nat × State :=
  arm (rd (Reg.TRG.ASEL.PIN.mine r) s) (rd (Reg.TRG.AT_HI.word.mine r) s * 2 ^ 32 + rd (Reg.TRG.AT_LO.word.mine r) s)
    (rd (Reg.TRG.AWID.word.mine r) s) (rd (Reg.TRG.APER.word.mine r) s) (rd (Reg.TRG.ACTL.COUNT.mine r) s) s

/-- TRG_ACTL_ARM (R250). -/
def execTrgActlArm (req : EntryPoint) (s : State) : Res :=
  access Reg.TRG.ACTL.word.addr (fun s => (actlArm req s).2) s

/-- TRG.ACTL.CANCEL by a requester (R252). -/
def actlCancel (r : EntryPoint) (s : State) : State := cancelPin (rd (Reg.TRG.ASEL.PIN.mine r) s) s

/-- TRG_ACTL_CANCEL (R252). -/
def execTrgActlCancel (req : EntryPoint) (s : State) : Res :=
  access Reg.TRG.ACTL.word.addr (fun s => actlCancel req s) s

/-- A read of TIM.NOW_HI snapshots line time for the requester (R255). -/
def readNowHi (r : EntryPoint) (s : State) : Word × State :=
  let hi := BitVec.ofNat 32 (lineNs s / 2 ^ 32)
  let s := regSet s (Reg.TIM.NOW_LO.word.mine r).addr (BitVec.ofNat 32 (lineNs s))
  (hi, regSet s (Reg.TIM.NOW_FR.word.mine r).addr (BitVec.ofNat 32 (lineFr s * 65536)))

/-- NOW_HI_READ (R255). -/
def execNowHiRead (req : EntryPoint) (s : State) : Res :=
  access Reg.TIM.NOW_HI.word.addr (fun s => returned (readNowHi req s)) s

/-- TIME_GET (R278). -/
def execTimeGet (o : Origin) (body : List Byte) (s : State) : Res :=
  command o body 0 (fun s => reply o ST_OK (beBytes 8 (lineNs s) ++ beBytes 2 (lineFr s) ++ beBytes 1 (rd Reg.TIM.STAT.QSTATE s) ++
    beBytes 1 (rd Reg.TIM.STAT.STRAT s)) s) s

/-- TIME_SET (R284): only the master's time is set. -/
def execTimeSet (o : Origin) (body : List Byte) (s : State) : Res :=
  command o body 12 (fun s =>
    let m := field body 0 1
    if rd Reg.TIM.STAT.QSTATE s ≠ 5 then reply o ST_DENIED [] s
    else if 1 < m ∨ zeroAt body 1 3 = false then reply o ST_BAD_PARAM [] s
    else
      let v := field body 4 8
      let d : Int := if m = 0 then (v * 2 ^ 32 : Nat) - (s.lt : Int) else signed 64 v * 2 ^ 32
      reply o ST_OK [] (stepTime d s)) s

/-- TRIG_ARM (R284). -/
def execTrigArm (o : Origin) (body : List Byte) (s : State) : Res :=
  let n := field body 0 1
  command o body (4 + 20 * n) (fun s =>
    if n = 0 ∨ 16 < n ∨ zeroAt body 1 3 = false then reply o ST_BAD_PARAM [] s
    else
      let (r, s) := armRecords n (body.drop 4) s
      let bytes := padTo ((n + 3) / 4 * 4) (r.map (BitVec.ofNat 8))
      reply o (if r.all (· == ST_OK) then ST_OK else ST_PARTIAL) bytes s) s

/-- TRIG_CANCEL (R284). -/
def execTrigCancel (o : Origin) (body : List Byte) (s : State) : Res :=
  command o body 4 (fun s =>
    if zeroAt body 1 3 then reply o ST_OK [] (cancelMask (field body 0 1) s) else reply o ST_BAD_PARAM [] s) s

/-! Pulses. -/

/-- The ends of the pulses that run, in order. -/
def insertEnd (t : Nat) : List Nat → List Nat
  | [] => [t]
  | x :: l => if x < t then x :: insertEnd t l else t :: x :: l

/-- The entry after its next pulse has begun, and whether several pulses begin with it: late ones that fire together. -/
def pulseBegun (e : TrigEnt) : TrigEnt × Bool :=
  match e.late with
  | [] => (skipPulses 1 e, false)
  | x :: l => if e.left = some 0 ∨ x.1 ≤ e.next then ({ e with late := l }, x.2) else (skipPulses 1 e, false)

/-- A pulse of the pin's first entry starts (R250, R251, Table 9.4): WIDTH is measured in elapsed time. -/
def startPulse (k : Nat) (s : State) : State :=
  let p := trigPin s k
  match p.entries with
  | [] => s
  | e :: l =>
    let r := pulseBegun e
    let s := if p.running != [] || r.2 then trgErr Reg.TRG.ERR.OVERLAP k s else s
    setTrig k { p with running := insertEnd (4 * s.now + e.width) p.running, entries := if entLive r.1 then insertEnt r.1 l else l } s

/-- PULSE_START (R250). -/
def execPulseStart (pin : Fin 8) (s : State) : Res := .next (startPulse pin.val s)

/-- PULSE_END (R251, Table 9.4): a pulse's WIDTH elapses; the output returns to its inactive level with the last end of the pulses that
have merged. -/
def execPulseEnd (pin : Fin 8) (s : State) : Res :=
  .next (setTrig pin.val { trigPin s pin.val with running := (trigPin s pin.val).running.drop 1 } s)

/-- The level at the ball of a pin; `none` is high impedance. A pulse that runs ends at its full width whatever MODE has become
(R249). -/
def pinLevel (s : State) (k : Nat) : Option Bool :=
  let on := (trigPin s k).running != []
  if on || rd (Reg.TRG.PCFG.MODE k) s == 1 then some (on != rdB (Reg.TRG.PCFG.POL k) s) else none

/-! Reports of captures (R254). -/

/-- A CAPT_RPT frame with up to 13 stamps, the oldest first (R254, Table 9.3). -/
def sendReport (k : Nat) (s : State) : State :=
  let p := trigPin s k
  let l := p.fifo.take 13
  if l = [] then s
  else
    let b := [0, 0, 0, 3] ++ beBytes 1 k ++ beBytes 1 l.length ++
      beBytes 2 (ofBool (l.any fun x => x.2) * 2 ^ 15 + min 32767 p.lost) ++ (l.map fun x => beBytes 8 x.1).flatten
    originate 0 (rd Reg.TRG.RPT.TUN s) b (setTrig k { p with fifo := p.fifo.drop 13, lost := 0 } s)

/-- The pin reports (R254). -/
def reports (s : State) (k : Nat) : Bool :=
  rd (Reg.TRG.PCFG.MODE k) s == 2 && rdB (Reg.TRG.PCFG.RPT k) s && rd Reg.TRG.RPT.TUN s != 0

/-- A pin that reports sends a frame for every 13 stamps that wait (R254). -/
def drainReports (k : Nat) (s : State) : State :=
  times 5 (fun s => if reports s k && 13 ≤ (trigPin s k).fifo.length then sendReport k s else s) s

/-- A write to TRG.PCFGn: a change of MODE cancels the pin's pending entries and the edge in its filter (R249). -/
def pcfgWrite (k : Nat) (v : Word) (s : State) : State :=
  let old := rd (Reg.TRG.PCFG.MODE k) s
  let s := regSet s (Reg.TRG.PCFG.word k).addr (maskW 0xFFFF0000 v)
  let s := if rd (Reg.TRG.PCFG.MODE k) s = old then s else setTrig k { trigPin s k with entries := [], edge := none } s
  drainReports k s

/-- PIN_MODE_WRITE (R249). -/
def execPinModeWrite (pin : Fin 8) (mode : Fin 4) (s : State) : Res :=
  access (Reg.TRG.PCFG.word pin.val).addr (fun s => pcfgWrite pin.val ((Reg.TRG.PCFG.MODE pin.val).into mode.val (regGet s (Reg.TRG.PCFG.word pin.val).addr)) s) s

/-! Capture. -/

/-- A qualifying edge enters the pin's FIFO with its stamp; a full FIFO drops it (R253, R254). -/
def stampEdge (k : Nat) (stamp : Nat × Bool) (s : State) : State :=
  let p := trigPin s k
  drainReports k (
    if 64 ≤ p.fifo.length then trgErr Reg.TRG.ERR.CAP_OVF k (count (cTRG k) (setTrig k { p with lost := p.lost + 1 } s))
    else setTrig k { p with fifo := p.fifo ++ [stamp] } s)

/-- POL and BOTH select edges of this direction (R253). -/
def edgeSelected (s : State) (k : Nat) (rising : Bool) : Bool := rdB (Reg.TRG.PCFG.BOTH k) s || rdB (Reg.TRG.PCFG.POL k) s != rising

/-- The edge in the pin's filter counts once its level has held for FILT ns (R253). -/
def settleEdge (k : Nat) (s : State) : State :=
  match (trigPin s k).edge with
  | none => s
  | some x =>
    if x.since + rd (Reg.TRG.PCFG.FILT k) s ≤ s.now then
      let s := setTrig k { trigPin s k with edge := none } s
      if edgeSelected s k x.rising then stampEdge k x.stamp s else s
    else s

/-- CAPTURE_EDGE (R253, R254): `rising` is the direction of the edge, stamped as it comes. An edge that ends a level which has not held
for FILT takes that level's edge with it, and is none itself. -/
def execCaptureEdge (pin : Fin 8) (rising : Bool) (s : State) : Res :=
  let k := pin.val
  if rd (Reg.TRG.PCFG.MODE k) s = 2 then
    let s := settleEdge k s
    let q := rd Reg.TIM.STAT.QSTATE s
    let new : CapEdge := { rising := rising, stamp := (now4 s, q != 2 && q != 5), since := s.now }
    let glitch := (trigPin s k).edge.any fun x => x.rising != rising
    .next (settleEdge k (setTrig k { trigPin s k with edge := if glitch then none else some new } s))
  else .next s

/-- CAPT_RPT_PERIOD (R254). -/
def execCaptRptPeriod (pin : Fin 8) (s : State) : Res := .next (if reports s pin.val then sendReport pin.val s else s)

/-- A read of TRG.CAP_LOn (R255). -/
def readCapLo (r : EntryPoint) (k : Nat) (s : State) : Word × State :=
  let hi := (⟨(Reg.TRG.CAP_HI.word k).addr, 0, 32⟩ : Fld).mine r
  let p := trigPin s k
  match p.fifo with
  | [] => (0xFFFFFFFF#32, regSet s hi.addr 0xFFFFFFFF#32)
  | x :: l => (BitVec.ofNat 32 x.1, regSet (setTrig k { p with fifo := l } s) hi.addr (BitVec.ofNat 32 (x.1 / 2 ^ 32)))

/-- CAP_LO_READ (R255). -/
def execCapLoRead (req : EntryPoint) (pin : Fin 8) (s : State) : Res :=
  access (Reg.TRG.CAP_LO.word pin.val).addr (fun s => returned (readCapLo req pin.val s)) s

/-- CAPT_READ (R284). -/
def execCaptRead (o : Origin) (body : List Byte) (s : State) : Res :=
  command o body 4 (fun s =>
    let k := field body 0 1
    let m := field body 1 1
    if 8 ≤ k ∨ m = 0 ∨ 64 < m ∨ zeroAt body 2 2 = false ∨ rd (Reg.TRG.PCFG.MODE k) s ≠ 2 then reply o ST_BAD_PARAM [] s
    else
      let p := trigPin s k
      let l := p.fifo.take m
      reply o ST_OK (beBytes 1 l.length ++ [0, 0, 0] ++ (l.map fun x => beBytes 8 x.1).flatten)
        (setTrig k { p with fifo := p.fifo.drop m } s)) s

/-! PPS and the Nurse's ratio. -/

/-- PPS_EDGE (R246): the master steers FADJ so that the edge falls on a whole second; it never steps. -/
def execPpsEdge (pin : Fin 8) (s : State) : Res :=
  if rd Reg.TIM.STAT.QSTATE s = 5 ∧ rd (Reg.TRG.PCFG.MODE pin.val) s = 3 then
    let sec := 1000000000 * 2 ^ 32
    let r := s.lt % sec
    let off : Int := if 2 * r < sec then (r : Int) else (r : Int) - (sec : Nat)
    .next (servo off (setOfs off s))
  else .next s

/-- XT32_RATIO_WINDOW (R244): the length of a slow tick in 2^-32 ns that the window measured, kept where the window lay wholly
in LOCKED. -/
def execXt32RatioWindow (tick : Nat) (s : State) : Res :=
  let locked := rd Reg.TIM.STAT.QSTATE s == 2
  let t := s.time
  .next { s with time := { t with tickLen := if t.windowLocked && locked then tick else t.tickLen, windowLocked := locked } }

end Sys2Proof.Machine
end

