-- ==== Sys2Proof/Machine/Proxy.lean ====
section
/-! DEFINITION. The TU hub and the transfer proxy (chapter 13, R331 to R343). Die 0 is S2 and die 1 is S6. -/
namespace Sys2Proof.Machine

/-- The region of the Deep Comb in force (Table 1.9, DCM.RGN.CUR): start and the first address behind it. -/
def region (s : State) (k : Nat) : Nat × Nat :=
  (rd (Reg.DCM.RGN.CUR k) s * 0x100000, if k < 4 then rd (Reg.DCM.RGN.CUR (k + 1)) s * 0x100000 else 0x100000000)

/-- `n` bytes from `a` lie in region `k`. -/
def inRegion (s : State) (k a n : Nat) : Bool := (region s k).1 ≤ a && a + n ≤ (region s k).2

/-- PRX_STAT.NRUN and PERHOLD follow the rings (R341). -/
def prxShow (d : Nat) (s : State) : State :=
  let on := (List.range 64).filter fun r => (ring s d r).st == 1
  let per := on.any fun r => 3 ≤ (ring s d r).typ
  wr (Reg.USB.PRX_STAT.NRUN d) on.length (wr (Reg.USB.PRX_STAT.PERHOLD d) (ofBool per) s)

def prxErr (d b : Nat) (s : State) : State := raise (srcPRX_ERR d) (orF (Reg.USB.PRX_STAT.ERR d) (2 ^ b) s)

/-! Events. -/

/-- EVFULL follows the free entries (R340). -/
def evShow (d : Nat) (s : State) : State :=
  let full := proxyRuns s d && evFree s d < 2
  let s' := wr (Reg.USB.PRX_STAT.EVFULL d) (ofBool full) s
  if full then raise (srcEVFULL d) s' else s'

/-- A NOTIFY frame (Table 13.7). -/
def sendNotify (d : Nat) (s : State) : State :=
  let t := rd (Reg.USB.PRX_CFG.NTUN d) s
  let s := updProxy d (fun p => { p with unsaid := false }) s
  if t = 0 then s
  else originate (tuSlot d) t ([1] ++ beBytes 1 (tuSlot d) ++ beBytes 2 (proxy s d).evPi ++ [0, 0, 0, 0]) s

/-- Writes an event at the event index, then the event ring's PI (R339, R340). With the reserved entry taken too, it is
lost (notes/assumptions/26). -/
def writeEvent (d : Nat) (cookie : List Byte) (actlen index r code kind : Nat) (s : State) : State :=
  let p := proxy s d
  if evFree s d = 0 then s
  else
    let b := padTo 8 cookie ++ leBytes 4 actlen ++ leBytes 2 index ++ leBytes 1 r ++ leBytes 1 code ++ leBytes 8 (lineNs s) ++
      [0, 0, 0, 0] ++ leBytes 1 kind ++ [0, 0] ++ leBytes 1 (ofBool (bit p.evSize p.evPi))
    let s := deepWrites (p.evBase + 32 * (p.evPi % 2 ^ p.evSize)) b s
    let pi_ := (p.evPi + 1) % 65536
    let s := deepWrites (p.base + 0x800 + 14) (leBytes 2 pi_) s
    let s := evShow d (updProxy d (fun p => { p with evPi := pi_, unsaid := true }) s)
    if rd (Reg.USB.PRX_CFG.NMOD d) s = 0 then sendNotify d s else s

/-! Rings. -/

/-- The outcome halts the ring (Table 13.5). -/
def halts (code : Nat) : Bool := (2 ≤ code && code ≤ 5) || code == 8 || code == 9

/-- A ring's STATE goes into its context too. -/
def ringState (d r st : Nat) (s : State) : State :=
  let s := setRing d r { ring s d r with st := st } s
  prxShow d (deepWrites ((proxy s d).base + 32 * r + 16) (leBytes 1 st) s)

/-- A descriptor completes (R337): the event, then CI, then the halt. -/
def complete (d r code actlen : Nat) (x : Desc) (s : State) : State :=
  let s := if code ≠ 0 ∨ bit 0 x.flags = true then writeEvent d x.cookie actlen x.index r code 1 s else s
  let ci := ((ring s d r).ci + 1) % 65536
  let s := setRing d r { ring s d r with ci := ci, cur := none } s
  let s := deepWrites ((proxy s d).base + 32 * r + 12) (leBytes 2 ci) s
  if halts code then ringState d r 2 s else s

/-- A ring stops (R342): a descriptor in flight ends with STOPPED and stays at CI; a KIND 3 event follows. -/
def stopRing (d r : Nat) (s : State) : State :=
  let x := ring s d r
  if x.st = 1 then
    let s := match x.cur with
      | some c => writeEvent d c.cookie 0 c.index r 7 1 (setRing d r { x with cur := none } s)
      | none => s
    writeEvent d [] 0 0 r 0 3 (ringState d r 0 s)
  else s

/-- Every running ring stops. -/
def stopRings (d : Nat) (s : State) : State := forAll (List.range 64) (stopRing d) s

/-- The context of ring `r` as it stands in the Deep Comb (Table 13.2). -/
def readRing (s : State) (base r : Nat) : Ring :=
  let l := deepReads s (base + 32 * r) 32
  let f := fun i n => leNat ((l.drop i).take n)
  { st := 0, base := f 0 4, lsize := f 4 1, dev := f 5 1, ep := f 6 1, typ := f 7 1, ci := f 12 2, pi_ := f 14 2, cur := none }

/-- PROXY_CTL START (R342): the status. -/
def proxyStart (d : Nat) (s : State) : Nat × State :=
  let b := rd (Reg.USB.PRX_RBASE.BASE d) s * 4096
  if !(s1Up s && domSt s (0x10 + tuSlot d) == .inService) then (ST_BUSY_IN_SERVICE, s)
  else if !inRegion s 2 b 0xA40 then (ST_BAD_PARAM, prxErr d 0 s)
  else
    let e := readRing s (b + 0x800) 0
    if e.lsize < 4 ∨ 12 < e.lsize ∨ e.base % 32 ≠ 0 ∨ inRegion s 2 e.base (32 * 2 ^ e.lsize) = false then (ST_BAD_PARAM, prxErr d 1 s)
    else
      let p : Proxy := { base := b, rings := [], evBase := e.base, evSize := e.lsize, evCi := e.ci, evPi := e.pi_, unsaid := false }
      (ST_OK, evShow d (prxShow d (wr (Reg.USB.PRX_STAT.RUN d) 1 (setProxy d p s))))

/-- PROXY_CTL STOP (R342). -/
def proxyStop (d : Nat) (s : State) : State :=
  if proxyRuns s d then evShow d (wr (Reg.USB.PRX_STAT.RUN d) 0 (stopRings d s)) else s

/-- RING_START (R342): the ring runs, from its context. -/
def ringStart (d r : Nat) (s : State) : State :=
  if (ring s d r).st = 1 then s
  else
    let x := readRing s (proxy s d).base r
    if x.typ = 0 ∨ 4 < x.typ ∨ x.lsize < 4 ∨ 12 < x.lsize then s
    else writeEvent d [] 0 0 r 0 3 (ringState d r 1 (setRing d r x s))

/-- RING_RESET (R342): a halted ring becomes stopped with CI kept. -/
def ringReset (d r : Nat) (s : State) : State :=
  if (ring s d r).st = 2 then writeEvent d [] 0 0 r 0 3 (ringState d r 0 s) else s

/-- A doorbell (R338). -/
def doorbell (d r index : Nat) (s : State) : State :=
  if r = 0x7F then
    evShow d (deepWrites ((proxy s d).base + 0x800 + 12) (leBytes 2 index) (updProxy d (fun p => { p with evCi := index }) s))
  else if 63 < r then prxErr d 3 s
  else
    let x := ring s d r
    if x.st = 1 ∧ 2 ^ x.lsize < Machine.ahead 65536 x.ci index then
      ringState d r 2 (writeEvent d [] 0 x.ci r 9 1 s)
    else deepWrites ((proxy s d).base + 32 * r + 14) (leBytes 2 index) (setRing d r { x with pi_ := index } s)

/-- A write of USB.PRX_DB. -/
def prxDbWrite (d : Nat) (v : Word) (s : State) : State :=
  if proxyRuns s d then doorbell d (bits 22 16 v.toNat) (bits 15 0 v.toNat) s
  else if 63 < bits 22 16 v.toNat ∧ bits 22 16 v.toNat ≠ 0x7F then prxErr d 3 s
  else if bits 22 16 v.toNat < 64 then
    setRing d (bits 22 16 v.toNat) { ring s d (bits 22 16 v.toNat) with pi_ := bits 15 0 v.toNat } s
  else s

/-- PRX_DB_WRITE (R338). -/
def execPrxDbWrite (die : Fin 2) (v : Word) (s : State) : Res :=
  access (Reg.USB.PRX_DB.word die.val).addr (fun s => prxDbWrite die.val v s) s

/-- A USBP frame that a TU takes is a DOORBELL of this die (Table 13.7). -/
def isDoorbell (d : Nat) (f : Frame) : Bool := f.typ == 5 && field f.bytes 0 1 == 2 && field f.bytes 1 1 == tuSlot d

/-- DOORBELL (R340): applied as a PRX_DB write. -/
def execDoorbell (die : Fin 2) (s : State) : Res :=
  let d := die.val
  let p := 4 + 8 * d
  match (takeFrame p (isDoorbell d) s).orElse fun _ => takeFrame (p + 1) (isDoorbell d) s with
  | none => .next s
  | some (f, s) => .next (prxDbWrite d (BitVec.ofNat 32 (field f.bytes 4 1 * 65536 + field f.bytes 2 2)) s)

/-! Transfers. -/

/-- A descriptor as it stands in the Deep Comb (Table 13.4). -/
def readDesc (s : State) (a index : Nat) : Desc :=
  let l := deepReads s a 32
  let f := fun i n => leNat ((l.drop i).take n)
  { index := index, buf := f 0 4, len := f 4 4, setup := (l.drop 8).take 8, typ := f 16 1, flags := f 17 1, cookie := l.drop 24, waits := false }

/-- The device context of a slot is valid (Table 13.3). -/
def devValid (s : State) (d k : Nat) : Bool := deepRead s ((proxy s d).base + 0x840 + 16 * k + 7) == 1

/-- The hub port of a device slot. -/
def devPort (s : State) (d k : Nat) : Nat := (deepRead s ((proxy s d).base + 0x840 + 16 * k)).toNat % 4

/-- A descriptor keeps the rules of R336 on its ring. -/
def descGood (s : State) (d : Nat) (x : Ring) (a : Nat) (c : Desc) : Bool :=
  let l := deepReads s a 32
  inRegion s 2 a 32 && zeroAt l 18 6 && Nat.land c.flags 0xF4 == 0 && c.len ≤ 1048576 && (c.len == 0 || inRegion s 2 c.buf c.len) &&
    (match c.typ with
      | 1 => x.typ == 1
      | 2 => x.typ != 1 && (if x.typ = 4 then zeroAt c.setup 3 5 && field c.setup 2 1 < 8 else zeroAt c.setup 0 8)
      | 4 => zeroAt c.setup 0 8
      | 5 => x.typ == 1 && zeroAt c.setup 0 8 && 1 ≤ x.dev && x.dev ≤ 31 && devValid s d x.dev
      | _ => false)

/-- DESCRIPTOR_FETCH (R337): the read of the next descriptor ends; `readable` is false after three failed reads. A ring is paced
while its die's frames wait (R186), and the read waits for the memory controller (R47, R48). -/
def execDescriptorFetch (die : Fin 2) (r : Fin 64) (readable : Bool) (s : State) : Res :=
  let d := die.val
  let x := ring s d r.val
  if !ringAsks s d r.val || !dcmServes s 3 then .next s
  else
    let a := x.base + 32 * (x.ci % 2 ^ x.lsize)
    let c := readDesc s a x.ci
    if !readable then .next (complete d r.val 5 0 { c with cookie := [] } s)
    else if !descGood s d x a c then .next (complete d r.val 9 0 c s)
    else if c.typ = 4 then .next (complete d r.val 0 0 c s)
    else .next (setRing d r.val { x with cur := some { c with waits := decide (3 ≤ x.typ) } } s)

/-- PERIODIC_SERVICE (R337): the service interval or target microframe of the waiting descriptor; `past` says that an
isochronous target has already gone by. -/
def execPeriodicService (die : Fin 2) (r : Fin 64) (past : Bool) (s : State) : Res :=
  let d := die.val
  let x := ring s d r.val
  match x.cur with
  | some c =>
    if !c.waits then .next s
    else if past && x.typ == 4 && !bit 3 c.flags then .next (complete d r.val 6 0 c s)
    else .next (setRing d r.val { x with cur := some { c with waits := false } } s)
  | none => .next s

/-- NOTIFY_TIMER (R340): the notify spacing ends with unannounced events. -/
def execNotifyTimer (die : Fin 2) (s : State) : Res :=
  if (proxy s die.val).unsaid then .next (sendNotify die.val s) else .next s

/-! The hub. -/

/-- HUBSTAT byte of port `t` = 4 x die + n. -/
def hubByte (t : Nat) : Fld := ⟨(Reg.USB.HUBSTAT.word (t / 4)).addr, 8 * (t % 4), 8⟩

/-- A hub port has changed: the source, and a port-change event (Table 13.6). -/
def portChange (t : Nat) (s : State) : State :=
  let s := raise (srcHUB (t / 4)) s
  if proxyRuns s (t / 4) then writeEvent (t / 4) [] 0 0 (t % 4) 0 2 s else s

/-- A hub port carries data (R332). -/
def hubLive (s : State) (t : Nat) : Bool :=
  bit (t % 4) (rd (Reg.USB.HUBCFG.PEN (t / 4)) s) && rd (Reg.TCP.STAT.TCSTATE t) s == 3 &&
    (domSt s (0x10 + tuSlot (t / 4)) == .inService || domSt s (0x10 + tuSlot (t / 4)) == .quiescing)

/-- The highest SPEED of a port: USB 2.0 only without SSEN or with pin assignment C, Gen 2x1 with D (R332). -/
def speedCap (s : State) (t : Nat) : Nat :=
  if !bit (t % 4) (rd (Reg.USB.HUBCFG.SSEN (t / 4)) s) then 3
  else if rdB (Reg.TCP.ALT.ACTIVE t) s then (if rd (Reg.TCP.ALT.PINASG t) s = 1 then 3 else 5) else 6

/-- The device of a port is gone (R343): descriptors in flight of its slots end DISCONNECTED, their rings halt, and a
port-change event follows. -/
def hubDrop (t : Nat) (s : State) : State :=
  let d := t / 4
  if bit 7 (rd (hubByte t) s) then
    let mine := (List.range 64).filter fun r => (ring s d r).typ != 0 && (ring s d r).st != 2 && (ring s d r).dev != 0 && devPort s d (ring s d r).dev == t % 4
    let s := if proxyRuns s d then forAll mine (fun r s => match (ring s d r).cur with
        | some c => complete d r 8 0 c s
        | none => ringState d r 2 s) s else s
    portChange t (wr (hubByte t) 0 s)
  else s

/-- A device shows on a port at `speed`. -/
def hubJoin (t speed : Nat) (s : State) : State :=
  if hubLive s t && speed != 0 then portChange t (wr (hubByte t) (0x80 + min speed (speedCap s t) * 16 + 8) s) else s

/-- The lanes are routed anew (R332): a disconnect, then a connect. -/
def hubReroute (t : Nat) (s : State) : State :=
  let sp := bits 6 4 (rd (hubByte t) s)
  if bit 7 (rd (hubByte t) s) then hubJoin t sp (hubDrop t s) else s

/-- HUB_PORT_CHANGE (R332): what the port now shows; SPEED 0 is a disconnect. -/
def execHubPortChange (t : Fin 8) (speed : Fin 7) (susp : Bool) (s : State) : Res :=
  let n := t.val
  let b := rd (hubByte n) s
  if !present s (tuSlot (n / 4)) then .next s
  else if speed.val = 0 then .next (hubDrop n s)
  else if bit 7 b && bits 6 4 b == min speed.val (speedCap s n) then
    .next (if bit 2 b == susp then s else portChange n (wr (hubByte n) (setBit 2 susp b) s))
  else
    let s := hubJoin n speed.val (hubDrop n s)
    .next (if susp && bit 7 (rd (hubByte n) s) then wr (hubByte n) (setBit 2 true (rd (hubByte n) s)) s else s)

/-- A write of USB.HUBCFG: a port that loses PEN drops its device, one that loses SSEN its SuperSpeed part (R332). -/
def hubCfgWrite (d : Nat) (v : Word) (s : State) : State :=
  let s := regSet s (Reg.USB.HUBCFG.word d).addr (maskW 0xFFC00000 v)
  forAll ((List.range 4).map fun n => 4 * d + n) (fun t s =>
    if !bit (t % 4) (rd (Reg.USB.HUBCFG.PEN d) s) then hubDrop t s
    else if speedCap s t < bits 6 4 (rd (hubByte t) s) then hubReroute t s else s) s

/-- One action of USB_PORT_CTL (R342) on a hub port. -/
def usbAction (t a : Nat) (s : State) : State :=
  let d := t / 4
  let b := rd (hubByte t) s
  let cfg := regGet s (Reg.USB.HUBCFG.word d).addr
  let pen := rd (Reg.USB.HUBCFG.PEN d) s
  match a with
  | 0 => hubCfgWrite d ((Reg.USB.HUBCFG.PEN d).into (setBit (t % 4) false pen) cfg) s
  | 1 => hubCfgWrite d ((Reg.USB.HUBCFG.PEN d).into (setBit (t % 4) true pen) cfg) s
  | 2 => if bit 7 b then portChange t (wr (hubByte t) (setBit 3 true (setBit 2 false b)) s) else s
  | 3 => if bit 7 b && 4 ≤ bits 6 4 b then portChange t (wr (hubByte t) (setBit 3 true (setBit 2 false b)) s) else s
  | 4 => if bit 7 b && !bit 2 b then portChange t (wr (hubByte t) (setBit 2 true b) s) else s
  | _ => if bit 7 b && bit 2 b then portChange t (wr (hubByte t) (setBit 2 false b) s) else s

/-- The action of a hub-class request on slot 0's control ring (R342, notes/assumptions/26): SET_FEATURE and CLEAR_FEATURE of the hub
class at a port. -/
def hubRequest (setup : List Byte) : Option (Nat × Nat) :=
  let port := field setup 4 1
  if field setup 0 1 ≠ 0x23 ∨ port = 0 ∨ 4 < port then none
  else
    (match field setup 1 1, leNat ((setup.drop 2).take 2) with
      | 3, 4 => some 2
      | 3, 28 => some 3
      | 3, 2 => some 4
      | 3, 8 => some 1
      | 1, 1 => some 0
      | 1, 8 => some 0
      | 1, 2 => some 5
      | _, _ => none).map fun a => (port - 1, a)

/-- A control transfer that succeeded on the hub's own ring acts on the hub (R342). -/
def hubActs (d : Nat) (x : Ring) (c : Desc) (code : Nat) (s : State) : State :=
  if code = 0 ∧ x.dev = 0 ∧ x.typ = 1 ∧ c.typ = 1 then
    match hubRequest c.setup with
    | some (n, a) => usbAction (4 * d + n) a s
    | none => s
  else s

/-- The transfer moves data toward the Deep Comb. -/
def descIn (x : Ring) (c : Desc) : Bool := if c.typ = 1 then bit 7 (field c.setup 0 1) else bit 7 x.ep

/-- TRANSFER_COMPLETE (R337, R339): how the transfer ended on the bus (Table 13.5), the bytes an OUT transfer moved, and the
bytes an IN transfer received. Its access to the Deep Comb waits for the memory controller (R47, R48). -/
def execTransferComplete (die : Fin 2) (r : Fin 64) (code : Fin 10) (moved : Nat) (data : List Byte) (s : State) : Res :=
  let d := die.val
  let x := ring s d r.val
  match x.cur with
  | some c =>
    if c.waits || code.val == 7 || code.val == 9 || x.st != 1 || !dcmServes s 3 then .next s
    else
      let l := if descIn x c then data.take c.len else []
      let s := if l = [] then s else deepWrites c.buf l s
      .next (hubActs d x c code.val (complete d r.val code.val (if descIn x c then l.length else min moved c.len) c s))
  | none => .next s

/-- At QUIESCED of a TU domain every running ring stops (R343). -/
def proxyQuiesced (d : Nat) (s : State) : State := if proxyRuns s d then stopRings d s else s

/-- DOMAIN_RESET of a TU domain (R343): every device disconnects and the proxy is stopped. -/
def proxyReset (d : Nat) (s : State) : State := setProxy d Proxy.reset s

end Sys2Proof.Machine
end

