-- ==== Sys2Proof/Machine/TypeC.lean ====
section
/-! DEFINITION. USB Type-C ports and Power Delivery (chapter 12, R299 to R330). TU port `t` is TCPn of its die, t = 4 x die +
n; powers are in mW. -/
namespace Sys2Proof.Machine

def tcp (s : State) (t : Nat) : TcPort := Tab.get (fun _ => TcPort.reset) s.tcp t
def setTcp (t : Nat) (p : TcPort) (s : State) : State := { s with tcp := Tab.set (fun _ => TcPort.reset) t p s.tcp }
def updTcp (t : Nat) (f : TcPort → TcPort) (s : State) : State := setTcp t (f (tcp s t)) s
def pdTables (s : State) (d : Nat) : PdTables := Tab.get (fun _ => PdTables.reset) s.pdTables d

/-- The ports of TU die `d`: 0 S2, 1 S6. -/
def tuPorts (d : Nat) : List Nat := (List.range 4).map fun n => 4 * d + n

/-- The die has power and its ports act on what happens to them (R324). -/
def tuOn (s : State) (d : Nat) : Bool :=
  present s (tuSlot d) && domSt s (0x10 + tuSlot d) != .off && domSt s (0x10 + tuSlot d) != .notUp

/-- The die's ports may attach: in service, quiescing or quiesced (R324). -/
def tuWorks (s : State) (d : Nat) : Bool :=
  present s (tuSlot d) && (match domSt s (0x10 + tuSlot d) with
    | .inService => true
    | .quiescing => true
    | .quiesced => true
    | _ => false)

/-- The status of an access to a unit of a die (R5, R26, R40, R419). -/
def dieStatus (s : State) (slot : Nat) : Nat :=
  if !present s slot || linkState s slot == 4 then ST_NO_DIE
  else if domSt s (0x10 + slot) == .resetting || domSt s (0x10 + slot) == .off then ST_BUSY
  else ST_OK

/-- TCPn.STAT.TCSTATE codes. -/
def TC_DISABLED : Nat := 0
def TC_UNATTACHED : Nat := 1
def TC_ATTACH_WAIT : Nat := 2
def TC_ATTACHED : Nat := 3
def TC_DISCHARGING : Nat := 4
def TC_ERROR_RECOVERY : Nat := 5

def tcState (s : State) (t : Nat) : Nat := rd (Reg.TCP.STAT.TCSTATE t) s
def setTc (t x : Nat) (s : State) : State := wr (Reg.TCP.STAT.TCSTATE t) x s
def peState (s : State) (t : Nat) : Nat := rd (Reg.TCP.STAT.PE t) s
def setPe (t x : Nat) (s : State) : State := wr (Reg.TCP.STAT.PE t) x s
def tcAttached (s : State) (t : Nat) : Bool := tcState s t == TC_ATTACHED || tcState s t == TC_ATTACH_WAIT
def hasContract (s : State) (t : Nat) : Bool := rdB (Reg.TCP.STAT.PDCONN t) s

/-- An event bit of TCPn.EVT, with its interrupt source. -/
def tcEvt (f : Fld) (t : Nat) (s : State) : State := raise (srcTCP t) (wr f 1 s)

def pdSend (t : Nat) (m : PdMsg) (s : State) : State := updTcp t (fun p => { p with sent := p.sent ++ [m] }) s

/-- Not_Supported, or Reject from a PD 2.0 port (R306, R317). -/
def notSup (t : Nat) (s : State) : State := pdSend t (if (tcp s t).pd2 then .reject else .notSupported) s

/-! Power (R302, R305, R309). -/

/-- The voltage of VSEL. -/
def volts (v : Nat) : Nat := match v with
  | 0 => 5
  | 1 => 9
  | 2 => 15
  | _ => 20

/-- The Rp current in mA: Default 500 (R322), 1.5 A, 3.0 A (notes/assumptions/25). -/
def rpMa (c : Nat) : Nat := match c with
  | 0 => 500
  | 1 => 1500
  | _ => 3000

def vconnMw (s : State) (t : Nat) : Nat := if rdB (Reg.TCP.VCONN.ON t) s then 1000 else 0

/-- The floor of an enabled port: 8.5 W. -/
def floorMw : Nat := 8500

/-- A_p as R305 defines it. -/
def allocNow (s : State) (t : Nat) : Nat :=
  if !tcAttached s t then 0
  else if hasContract s t then volts (rd (Reg.TCP.CONTRACT.VSEL t) s) * rd (Reg.TCP.CONTRACT.IOP t) s * 10 + vconnMw s t
  else 5 * rpMa (rd (Reg.TCP.STAT.RPCUR t) s) + vconnMw s t

/-- FREE of a die before it is shown; negative while reclaim for a lowered budget runs (R309). -/
def freeMw (s : State) (d : Nat) : Int :=
  (rd (Reg.PDP.BUDGET.BUDGET d) s * 500 : Nat) -
    (((tuPorts d).filter fun t => rdB (Reg.TCP.CFG.EN t) s).foldl (fun a t => a + max (tcp s t).alloc floorMw) 0 : Nat)

/-- Power that accepted Requests of other ports will take when they settle (notes/assumptions/25). -/
def spokenFor (s : State) (t : Nat) : Nat :=
  ((tuPorts (t / 4)).filter (· != t)).foldl (fun a q =>
    match (tcp s q).accepted with
    | none => a
    | some (_, v, i) => a + (volts v * i * 10 + vconnMw s q - max (tcp s q).alloc floorMw)) 0

/-- Marks that power has been freed for the ports that wait (R314). -/
def powerFreed (d : Nat) (s : State) : State := forAll (tuPorts d) (fun q s => updTcp q (fun p => { p with freed := true }) s) s

/-- A_p takes its value of R305; a fall frees power. -/
def setAlloc (t a : Nat) (s : State) : State :=
  let old := (tcp s t).alloc
  let s := updTcp t (fun p => { p with alloc := a }) s
  if a < old then powerFreed (t / 4) s else s

/-! The policy table (R310, R311). -/

/-- What a rule decides for a port: powers in mW, IMAX in 10 mA. -/
structure PdRule where
  vmask : Nat
  prio : Nat
  imax : Nat
  pmax : Nat
  pmin : Nat
  action : Nat
deriving DecidableEq, Repr

/-- A rule record of Table 12.4 applies to the port. -/
def ruleApplies (s : State) (t : Nat) (r : List Byte) : Bool :=
  let c := field r 1 1
  let p := tcp s t
  bit (t / 4) (field r 13 1) && bit (t % 4) (field r 0 1) &&
    (!bit 0 c || (p.idAck && p.vid == field r 2 2)) && (!bit 1 c || (p.idAck && p.pid == field r 4 2)) &&
    (!bit 2 c || rdB (Reg.TCP.STAT.CABLE5A t) s) && (!bit 3 c || p.idAck)

/-- The first rule that applies; with none, ACTION 1 at the Rp current (R311). -/
def ruleOf (s : State) (t : Nat) : PdRule :=
  match ((pdTables s (t / 4)).rules.filter (ruleApplies s t)).head? with
  | some r => { vmask := field r 6 1, prio := field r 7 1, imax := field r 8 2, pmax := field r 10 1 * 500,
                pmin := field r 11 1 * 500, action := field r 12 1 }
  | none => { vmask := 1, prio := 0, imax := rpMa (rd (Reg.TCP.STAT.RPCUR t) s) / 10,
              pmax := 5 * rpMa (rd (Reg.TCP.STAT.RPCUR t) s) + vconnMw s t, pmin := floorMw, action := 1 }

/-- avail of R312. -/
def availMw (s : State) (t : Nat) : Int :=
  (max (tcp s t).alloc floorMw - vconnMw s t : Nat) + freeMw s (t / 4) - spokenFor s t

/-- recl of R312. -/
def reclMw (s : State) (t : Nat) : Nat :=
  let pr := (ruleOf s t).prio
  ((tuPorts (t / 4)).filter fun q => (ruleOf s q).prio < pr).foldl (fun a q => a + ((tcp s q).alloc - (ruleOf s q).pmin)) 0

/-- The offer of R312, or of R313 under a reclaim limit: (VSEL, 10 mA) pairs. -/
def offerOf (s : State) (t : Nat) (useRecl : Bool) : List (Nat × Nat) :=
  let r := ruleOf s t
  let lim := match (tcp s t).limit with
    | some l => l - vconnMw s t
    | none => min r.pmax (availMw s t + (if useRecl then reclMw s t else 0 : Nat)).toNat
  let cable := if rdB (Reg.TCP.STAT.CABLE5A t) s then 500 else 300
  (onBits 4 r.vmask).filterMap fun v =>
    let i := min r.imax (min cable (lim / (volts v * 10)))
    if v = 0 then some (v, max 150 i) else if 50 ≤ i then some (v, i) else none

/-- Source_Capabilities go out. -/
def sendCaps (t : Nat) (useRecl : Bool) (s : State) : State :=
  let l := offerOf s t useRecl
  let held := hasContract s t
  setPe t 1 (pdSend t (.sourceCaps l) (updTcp t (fun p => { p with offer := l, awaiting := held, caps := p.caps + 1 }) s))

/-- The port may offer PD (PD_EN, ACTION). -/
def offersPd (s : State) (t : Nat) : Bool := rdB (Reg.TCP.CFG.PD_EN t) s && (ruleOf s t).action == 0

/-- The first offer, where the rule that now applies has one (R311). -/
def firstOffer (t : Nat) (s : State) : State := if offersPd s t then sendCaps t true s else setPe t 0 s

/-- With VBUS at 5 V the port discovers the cable while it is the VCONN source, once after each attach or Hard Reset, else sends its
first offer (R308). -/
def startPd (t : Nat) (s : State) : State :=
  if rdB (Reg.TCP.CFG.PD_EN t) s && rdB (Reg.TCP.VCONN.ON t) s && rdB (Reg.TCP.VCONN.SRC t) s && (tcp s t).tries == 0 then
    setPe t 6 (pdSend t .discIdPrime (updTcp t (fun p => { p with tries := 1 }) s))
  else firstOffer t s

/-! VBUS, VCONN, alt mode. -/

/-- VCONN turns on where the port may supply it (R301, R315). -/
def vconnOn (t : Nat) (s : State) : State :=
  if rdB (Reg.TCP.CFG.VCONN_EN t) s then wr (Reg.TCP.VCONN.ON t) 1 s else s

/-- The VBUS switch opens and the active discharge runs. -/
def vbusOff (t : Nat) (s : State) : State :=
  if (tcp s t).vbusOn then updTcp t (fun p => { p with vbusOn := false, vbusSafe := false, offUntil := s.now + 650000000 }) s else s

/-- A TU port holds head `h` (R319). -/
def headHeld (s : State) (h : Nat) : Bool := (List.range 8).any fun t => 4 ≤ (tcp s t).alt && (tcp s t).alt ≤ 6 && (tcp s t).altHead == h

/-- The head is assigned to DP output (DMX.ROUTE) and no port holds it. -/
def headFree (s : State) (h : Nat) : Bool :=
  (if h = 0 then rd Reg.DMX.ROUTE.OUT0 s else rd Reg.DMX.ROUTE.OUT1 s) == 2 && !headHeld s h

/-- Steps 3 and 4 of R319: the port claims its head and sends Enter Mode. -/
def claimHead (t : Nat) (s : State) : State :=
  let w := (tcp s t).altWant
  let hs := (if w = 2 then [0, 1] else [w]).filter (headFree s)
  match hs with
  | [] => tcEvt (Reg.TCP.EVT.ALT t) t (wr (Reg.TCP.ALT.NOHEAD t) 1 (updTcp t (fun p => { p with alt := 7 }) s))
  | h :: _ => pdSend t .enterMode (updTcp t (fun p => { p with alt := 4, altHead := h }) s)

/-- The port leaves alt mode or abandons the flow (R320); a freed head is offered to the next port that found none. -/
def leaveAlt (t : Nat) (exitMsg : Bool) (s : State) : State :=
  let st := (tcp s t).alt
  if st = 0 then s
  else
    let s := if exitMsg && st == 6 then pdSend t .exitMode s else s
    let s := if st = 6 then
        tcEvt (Reg.TCP.EVT.ALT t) t (wr (Reg.TCP.ALT.ACTIVE t) 0 (wr (Reg.TCP.ALT.PINASG t) 0 (wr (Reg.TCP.ALT.HEAD t) 0
          (wr (Reg.TCP.ALT.HPD t) 0 (wr (Reg.TCP.ALT.SVID t) 0 s)))))
      else s
    let s := if st = 6 then hubReroute t s else s
    let s := updTcp t (fun p => { p with alt := 0 }) s
    if 4 ≤ st ∧ st ≤ 6 then
      match ((List.range 8).filter fun q => (tcp s q).alt == 7 && rdB (Reg.TCP.ALT.NOHEAD q) s).head? with
      | some q => claimHead q s
      | none => s
    else s

/-- The TV die leaves IN_SERVICE (R320): every port in alt mode sends Exit Mode. -/
def tvLeft (s : State) : State := forAll (List.range 8) (fun t s => if (tcp s t).alt = 6 then leaveAlt t true s else s) s

/-- The contract, with everything that waits on it, is gone. -/
def dropContract (t : Nat) (s : State) : State :=
  let s := wr (Reg.TCP.STAT.PDCONN t) 0 (wr (Reg.TCP.CONTRACT.VSEL t) 0 (wr (Reg.TCP.CONTRACT.IOP t) 0
    (wr (Reg.TCP.CONTRACT.POS t) 0 (wr (Reg.TCP.CONTRACT.WAITP t) 0 s))))
  updTcp t (fun p => { p with
    offer := [], accepted := none, changing := false, caps := 0, awaiting := false, waits := 0, want := 0, take := 0, limit := none,
    sinkAdj := false, swap := false, pd2 := false, vdm10 := false }) s

/-- The port lets go of its partner: contract, VCONN, VBUS, alt mode, identity, allocation. -/
def release (t : Nat) (s : State) : State :=
  let s := hubDrop t (vbusOff t (wr (Reg.TCP.VCONN.ON t) 0 (wr (Reg.TCP.VCONN.SRC t) 1 (dropContract t (leaveAlt t false s)))))
  let s := setPe t 0 (wr (Reg.TCP.STAT.EMARK t) 0 (wr (Reg.TCP.STAT.CABLE5A t) 0 (wr (Reg.TCP.STAT.RA t) 0 s)))
  setAlloc t 0 (updTcp t (fun p => { p with cc := none, idAck := false, vid := 0, pid := 0 }) s)

/-- The port presents open CC pins in ERROR_RECOVERY (R303, R304, R324). -/
def toRecovery (t : Nat) (s : State) : State :=
  setTc t TC_ERROR_RECOVERY (updTcp t (fun p => { p with recovering := true }) (release t s))

/-- VBUS turns on at 5 V (R301). -/
def vbusUp (t : Nat) (s : State) : State :=
  startPd t (setTc t TC_ATTACHED (updTcp t (fun p => { p with vbusOn := true, vbusSafe := false, caps := 0, tries := 0 }) s))

/-- A sink attaches (R301, R302, R325). -/
def attach (t : Nat) (cc2 ra : Bool) (s : State) : State :=
  let st := tcState s t
  if !rdB (Reg.TCP.CFG.EN t) s || !(st == TC_UNATTACHED || st == TC_DISCHARGING) then s
  else if !tuWorks s (t / 4) || (tcp s t).blocked || (tcp s t).warned || (ruleOf s t).action == 2 then updTcp t (fun p => { p with cc := some (cc2, ra) }) s
  else
    let s := wr (Reg.TCP.STAT.ORIENT t) (ofBool cc2) (wr (Reg.TCP.STAT.RA t) (ofBool ra) (updTcp t (fun p => { p with cc := none }) s))
    let s := if ra then vconnOn t (wr (Reg.TCP.VCONN.SRC t) 1 s) else s
    let want := min 2 (rd (Reg.TCP.CFG.RP t) s)
    let excess : Int := ((5 * rpMa want + vconnMw s t : Nat) : Int) - floorMw
    let rp := if excess ≤ max 0 (freeMw s (t / 4)) then want else 1
    let s := setTc t TC_ATTACH_WAIT (wr (Reg.TCP.STAT.RPCUR t) rp s)
    let s := tcEvt (Reg.TCP.EVT.ATTACH t) t (setAlloc t (allocNow s t) s)
    if (tcp s t).vbusSafe && (tcp s t).offUntil ≤ s.now then vbusUp t s else s

/-- Hard Reset sent or received at a TU port (R327): it takes precedence over any swap. What reclaim takes from the port is free at
vSafe0V (R313). -/
def hardReset (t : Nat) (sends : Bool) (s : State) : State :=
  if tcState s t ≠ TC_ATTACHED then s
  else
    let p := tcp s t
    let s := if sends then pdSend t .hardReset s else s
    let s := tcEvt (Reg.TCP.EVT.HARD_RESET t) t (dropContract t (leaveAlt t false s))
    let s := hubDrop t (vbusOff t (wr (Reg.TCP.VCONN.ON t) 0 s))
    setPe t 5 (wr (Reg.TCP.STAT.EMARK t) 0 (wr (Reg.TCP.STAT.CABLE5A t) 0 (updTcp t (fun q => { q with alloc := p.alloc, take := p.take }) s)))

/-! Reclaim (R313). -/

/-- Ports of a die in order of PRIO, lowest first, and among equals from the highest number. -/
def reclaimOrder (s : State) (d : Nat) : List Nat :=
  ((List.range 8).map fun pr => (tuPorts d).reverse.filter fun t => (ruleOf s t).prio == pr).flatten

/-- What dropping a port without a contract from 3.0 A to 1.5 A frees: FREE counts it at its floor at least (R305, R311). -/
def rpDrop (a : Nat) : Nat := a - max (a - 7500) floorMw

/-- Takes up to `short` from one port; what is still short. A transition completes first (R328). -/
def takeFrom (t : Nat) (x : Nat × State) : Nat × State :=
  let (short, s) := x
  let p := tcp s t
  let r := ruleOf s t
  let n := if p.take = 0 ∧ peState s t ≠ 3 then min (p.alloc - r.pmin) short else 0
  if n = 0 then (short, s)
  else if hasContract s t then
    (short - n, sendCaps t false (updTcp t (fun p => { p with take := n, limit := some (p.alloc - n) }) s))
  else if rd (Reg.TCP.STAT.RPCUR t) s = 2 ∧ r.pmin ≤ p.alloc - rpDrop p.alloc then
    (short - rpDrop p.alloc, wr (Reg.TCP.STAT.RPCUR t) 1 (updTcp t (fun p => { p with take := rpDrop p.alloc, sinkAdj := true }) s))
  else (short, s)

/-- What reclaim has under way on a die. -/
def underWay (s : State) (d : Nat) : Nat := (tuPorts d).foldl (fun a t => a + (tcp s t).take) 0

/-- Reclaim of `short` from the ports that `p` admits. -/
def reclaim (d short : Nat) (p : Nat → Bool) (s : State) : State :=
  (((reclaimOrder s d).filter p).foldl (fun x t => takeFrom t x) (short, s)).2

/-- Reclaim for a budget or table that leaves FREE below 0, without regard to PRIO (R309, R328). -/
def reclaimAll (d : Nat) (s : State) : State :=
  let f := freeMw s d
  if f < 0 then reclaim d ((-f).toNat - underWay s d) (fun _ => true) s else s

/-- PDP.ALLOC, PDP.STAT and CONTRACT.PWR follow the allocations; powers show in units of 0.5 W, A_p rounded up. -/
def pdpShow (d : Nat) (s : State) : State :=
  let up := fun t => ((tcp s t).alloc + 499) / 500
  let ps := tuPorts d
  let s' := forAll ps (fun t s => wr (Reg.TCP.CONTRACT.PWR t) (if hasContract s t then up t else 0) s) s
  let s' := wr (Reg.PDP.ALLOC.P0 d) (up (4 * d)) (wr (Reg.PDP.ALLOC.P1 d) (up (4 * d + 1))
    (wr (Reg.PDP.ALLOC.P2 d) (up (4 * d + 2)) (wr (Reg.PDP.ALLOC.P3 d) (up (4 * d + 3)) s')))
  let s' := wr (Reg.PDP.STAT.WAITPORTS d) ((ps.filter fun t => rdB (Reg.TCP.CONTRACT.WAITP t) s).foldl (fun a t => a + 2 ^ (t % 4)) 0) s'
  wr (Reg.PDP.STAT.RECLAIM d) (ofBool (0 < underWay s d)) (wr (Reg.PDP.STAT.FREE d) ((freeMw s d).toNat / 500) s')

/-- A sink that has shown Rd at a port that could not attach it attaches, where the port now can. -/
def attachHeld (t : Nat) (s : State) : State :=
  match (tcp s t).cc with
  | some (c, r) => attach t c r s
  | none => s

/-- A port that was enabled without power may attach once FREE allows (R309). -/
def unblock (t : Nat) (s : State) : State :=
  if (tcp s t).blocked && 0 ≤ freeMw s (t / 4) then attachHeld t (updTcp t (fun p => { p with blocked := false }) s) else s

/-- A re-evaluated port sends new Source_Capabilities when the result has changed, or its first where a rule now offers PD (R311); one
under a reclaim limit keeps to it. -/
def reevaluate (t : Nat) (s : State) : State :=
  if !offersPd s t || !(tcp s t).vbusOn || (tcp s t).limit != none then s
  else if peState s t = 0 ∧ (tcp s t).offer = [] then startPd t s
  else if (peState s t = 1 ∨ peState s t = 4) ∧ offerOf s t true ≠ (tcp s t).offer then sendCaps t true s
  else s

/-- What the evaluation of a die's ports rests on beside the ports themselves (R311): the budget and every allocation. -/
def powerKey (s : State) (d : Nat) : Nat × List Nat := (rd (Reg.PDP.BUDGET.BUDGET d) s, (tuPorts d).map fun t => (tcp s t).alloc)

/-- A change of the budget or of an allocation: every port of the die is evaluated again (R311). -/
def reevaluateAll (d : Nat) (old : Nat × List Nat) (s : State) : State :=
  if powerKey s d = old then s else forAll (tuPorts d) reevaluate s

/-- An event at a die: what its ports send is collected anew, ports are evaluated again where power has changed, and the power
registers follow. -/
def tuEvent (d : Nat) (f : State → State) (s : State) : State :=
  if tuOn s d then
    let s := forAll (tuPorts d) (fun t s => if (tcp s t).sent = [] then s else updTcp t (fun p => { p with sent := [] }) s) s
    pdpShow d (reevaluateAll d (powerKey s d) (forAll (tuPorts d) unblock (f s)))
  else s

def tcEvent (t : Nat) (f : State → State) (s : State) : State := tuEvent (t / 4) f s

/-! Attach, detach and VBUS. -/

/-- CC_ATTACH (R301): Rd on CC1 or CC2 for tCCDebounce, Ra on the other pin or not. -/
def execCcAttach (t : Fin 8) (cc2 ra : Bool) (s : State) : Res := .next (tcEvent t.val (attach t.val cc2 ra) s)

/-- The sink has gone (R301, R325, R326). -/
def detach (t : Nat) (s : State) : State :=
  if tcAttached s t then
    let s := if peState s t = 3 then tcEvt (Reg.TCP.EVT.ABORT t) t s else s
    let s := tcEvt (Reg.TCP.EVT.DETACH t) t (release t s)
    setTc t (if (tcp s t).vbusSafe then TC_UNATTACHED else TC_DISCHARGING) s
  else updTcp t (fun p => { p with cc := none }) s

/-- CC_DETACH (R301). -/
def execCcDetach (t : Fin 8) (s : State) : Res := .next (tcEvent t.val (detach t.val) s)

/-- VBUS_SAFE0V_REACHED (R301, R313): after Hard Reset the allocation falls to the floor. -/
def execVbusSafe0vReached (t : Fin 8) (s : State) : Res :=
  let t := t.val
  .next (tcEvent t (fun s =>
    if (tcp s t).vbusOn then s
    else
      let s := updTcp t (fun p => { p with vbusSafe := true }) s
      if tcState s t = TC_DISCHARGING then setTc t TC_UNATTACHED s
      else if tcState s t = TC_ATTACHED then setAlloc t (min (tcp s t).alloc floorMw) (updTcp t (fun p => { p with take := 0 }) s)
      else s) s)

/-- VBUS_ENABLE (R325, R327): the wait since VBUS was turned off is over for an attached port. -/
def execVbusEnable (t : Fin 8) (s : State) : Res :=
  let t := t.val
  .next (tcEvent t (fun s =>
    if tcAttached s t && !(tcp s t).vbusOn && (tcp s t).vbusSafe then
      let s := if rdB (Reg.TCP.STAT.RA t) s then vconnOn t (wr (Reg.TCP.VCONN.SRC t) 1 s) else s
      let s := if rd (Reg.TCP.STAT.RPCUR t) s = 2 ∧ tcState s t = TC_ATTACHED then wr (Reg.TCP.STAT.RPCUR t) 1 s else s
      vbusUp t (setAlloc t (allocNow s t) s)
    else s) s)

/-- VBUS_OC (R303): the third trip within 60 s disables the port. -/
def execVbusOc (t : Fin 8) (s : State) : Res :=
  let t := t.val
  .next (tcEvent t (fun s =>
    if (tcp s t).vbusOn then
      let l := s.now :: (tcp s t).trips.filter fun x => s.now < x + 60000000000
      let s := tcEvt (Reg.TCP.EVT.VBUS_OC t) t (hardReset t true (updTcp t (fun p => { p with trips := l }) s))
      if 3 ≤ l.length then wr (Reg.TCP.CFG.EN t) 0 (toRecovery t s) else s
    else s) s)

/-- PWRWARN_N asserts (R304): at a TU port. -/
def warnPort (t : Nat) (s : State) : State := if rdB (Reg.TCP.CFG.EN t) s then toRecovery t s else s

/-- Every TU port is, or is no longer, under PWRWARN_N (R304). -/
def markWarned (w : Bool) (s : State) : State := forAll (List.range 8) (fun t s => updTcp t (fun p => { p with warned := w }) s) s

/-- PWRWARN_N asserts at both TU dies (R304). -/
def warnPorts (s : State) : State :=
  forAll [0, 1] (fun d s => tuEvent d (fun s => forAll (tuPorts d) warnPort s) s) (markWarned true s)

/-- The port presents Rp again: after tErrorRecovery, not under PWRWARN_N, and after a reset of its die once that has returned (R304,
R324). -/
def presentRp (t : Nat) (s : State) : State :=
  if rdB (Reg.TCP.CFG.EN t) s && tcState s t == TC_ERROR_RECOVERY && !(tcp s t).recovering && !(tcp s t).warned &&
      !(dom s (0x10 + tuSlot (t / 4))).wasReset then
    setTc t (if (tcp s t).vbusSafe then TC_UNATTACHED else TC_DISCHARGING) s
  else s

/-- tErrorRecovery is over at a port. -/
def recovered (t : Nat) (s : State) : State := attachHeld t (presentRp t (updTcp t (fun p => { p with recovering := false }) s))

/-- PWRWARN_RELEASE_TIMER (R304). -/
def execPwrwarnReleaseTimer (s : State) : Res :=
  if rdB Reg.LPW.LSTAT.PWARN s || !(List.range 8).any fun t => (tcp s t).warned then .next s
  else .next (forAll [0, 1] (fun d s => tuEvent d (fun s => forAll (tuPorts d) recovered s) s) (markWarned false s))

/-- ERROR_RECOVERY_END (R324). -/
def execErrorRecoveryEnd (t : Fin 8) (s : State) : Res := .next (tcEvent t.val (recovered t.val) s)

/-- A TU die has returned: its ports present Rp again, and sinks that have shown Rd meanwhile attach (R324). -/
def tuReturned (d : Nat) (s : State) : State :=
  tuEvent d (forAll (tuPorts d) fun t s => attachHeld t (presentRp t s)) s

/-- DOMAIN_RESET of a TU domain takes its ports to ERROR_RECOVERY (R324). -/
def tuReset (d : Nat) (s : State) : State := pdpShow d (forAll (tuPorts d) toRecovery s)

/-! Source messaging. -/

/-- SOURCE_CAP_REPEAT (R307): up to nCapsCount = 50 times. -/
def execSourceCapRepeat (t : Fin 8) (s : State) : Res :=
  let t := t.val
  .next (tcEvent t (fun s =>
    if peState s t = 1 ∧ hasContract s t = false then (if (tcp s t).caps < 50 then sendCaps t true s else setPe t 0 s) else s) s)

/-- A Request is refused with Reject, and a new offer follows (R312). -/
def refuse (t : Nat) (s : State) : State := sendCaps t true (pdSend t .reject s)

/-- A Request is received (R312, R314): object position and operating current in 10 mA. -/
def onRequest (t pos iop : Nat) (s : State) : State :=
  if !(tcp s t).vbusOn || !(peState s t == 1 || peState s t == 2 || peState s t == 4) then s
  else
    let s := updTcp t (fun p => { p with awaiting := false }) s
    match (if pos = 0 then none else (tcp s t).offer[pos - 1]?) with
    | none => refuse t s
    | some (v, i) =>
      let need := volts v * iop * 10
      if i < iop then refuse t s
      else if (need : Int) ≤ availMw s t then
        let s := wr (Reg.TCP.CONTRACT.WAITP t) 0 (updTcp t (fun p => { p with accepted := some (pos, v, iop), changing := false, waits := 0, want := 0, freed := false }) s)
        setPe t 3 (pdSend t .accept s)
      else if (need : Int) ≤ availMw s t + reclMw s t then
        let p := tcp s t
        let n := if p.freed then 1 else p.waits + 1
        let s := tcEvt (Reg.TCP.EVT.WAIT t) t (pdSend t .wait s)
        if 3 ≤ n then
          sendCaps t false (wr (Reg.TCP.CONTRACT.WAITP t) 0 (updTcp t (fun p => { p with waits := 0, want := 0, freed := false }) s))
        else
          let short := ((need : Int) - availMw s t).toNat
          let others := ((tuPorts (t / 4)).filter (· != t)).foldl (fun a q => a + (tcp s q).want) 0
          let s := wr (Reg.TCP.CONTRACT.WAITP t) 1 (updTcp t (fun p => { p with waits := n, freed := false, want := short }) s)
          let s := setPe t (if hasContract s t then 4 else 2) s
          let pr := (ruleOf s t).prio
          reclaim (t / 4) (short - (underWay s (t / 4) - others)) (fun q => (ruleOf s q).prio < pr) s
      else refuse t s

/-- REQUEST (R300, R312): `pd2` says that its header carries Revision 2.0. -/
def execRequest (t : Fin 8) (pos : BitVec 4) (iop : BitVec 10) (pd2 : Bool) (s : State) : Res :=
  .next (tcEvent t.val (fun s => onRequest t.val pos.toNat iop.toNat (if pd2 then updTcp t.val (fun p => { p with pd2 := true }) s else s)) s)

/-- SENDER_RESPONSE_TIMEOUT (R313). -/
def execSenderResponseTimeout (t : Fin 8) (s : State) : Res :=
  .next (tcEvent t.val (fun s => if (tcp s t.val).awaiting then hardReset t.val true s else s) s)

/-- SRC_TRANSITION_START (R307). -/
def execSrcTransitionStart (t : Fin 8) (s : State) : Res :=
  .next (tcEvent t.val (fun s => if peState s t.val = 3 then updTcp t.val (fun p => { p with changing := true }) s else s) s)

/-- The partner is discovered after the first contract where alt mode or a rule asks for it (R311, R319). -/
def startDiscovery (t : Nat) (s : State) : State :=
  if (tcp s t).alt = 0 ∧ (rdB (Reg.TCP.CFG.ALT_EN t) s = true ∨ (pdTables s (t / 4)).rules.any (fun r => bit 3 (field r 1 1)) = true) then
    pdSend t .discId (updTcp t (fun p => { p with alt := 1 }) s)
  else s

/-- VBUS_SETTLED (R307, R328): PS_RDY, and the contract takes effect; reclaim for a budget that was lowered meanwhile follows. -/
def execVbusSettled (t : Fin 8) (s : State) : Res :=
  let t := t.val
  .next (tcEvent t (fun s =>
    match (tcp s t).accepted with
    | none => s
    | some (pos, v, i) =>
      if !(tcp s t).changing then s
      else
        let first := !hasContract s t
        let s := wr (Reg.TCP.CONTRACT.VSEL t) v (wr (Reg.TCP.CONTRACT.IOP t) i (wr (Reg.TCP.CONTRACT.POS t) pos (wr (Reg.TCP.STAT.PDCONN t) 1 s)))
        let s := updTcp t (fun p => { p with accepted := none, changing := false, take := 0, limit := none, caps := 0 }) s
        let s := tcEvt (Reg.TCP.EVT.CONTRACT t) t (setPe t 4 (pdSend t .psRdy (setAlloc t (allocNow s t) s)))
        reclaimAll (t / 4) (if first then startDiscovery t s else s)) s)

/-- A TU port that may answer messages: VBUS is on. -/
def answers (t : Nat) (f : State → State) (s : State) : State := tcEvent t (fun s => if (tcp s t).vbusOn then f s else s) s

/-! The SVC sink's answers. -/

def updSvc (f : SvcSink → SvcSink) (s : State) : State := { s with svcSink := f s.svcSink }

/-- The SVC port sends these in answer to an event. -/
def svcSends (l : List PdMsg) (s : State) : State := updSvc (fun p => { p with sent := l }) s

def svcNotSup (s : State) : State := svcSends [if s.svcSink.pd2 then .reject else .notSupported] s

def svcAttached (s : State) : Bool := rdB Reg.SVC.PDSTAT.ATT s

/-- An event at the SVC port, which does nothing without a source. -/
def svcEvent (f : State → State) (s : State) : State := if svcAttached s then f (svcSends [] s) else s

/-- The event at the port it names. -/
def pdEvent (p : PdPort) (tu : Nat → State → State) (svc : State → State) (s : State) : State :=
  match p with
  | .tu t => answers t.val (tu t.val) s
  | .svc => svcEvent svc s

/-- GET_SOURCE_CAP (R306): a port that offers no PD (R310) has no Source_Capabilities to answer with. -/
def execGetSourceCap (p : PdPort) (s : State) : Res := .next (pdEvent p (fun t s => if offersPd s t then sendCaps t true s else notSup t s) svcNotSup s)

/-- GET_SOURCE_CAP_EXTENDED (R306). -/
def execGetSourceCapExtended (p : PdPort) (s : State) : Res := .next (pdEvent p (fun t => pdSend t .sourceCapsExt) svcNotSup s)

/-- The Sink_Capabilities of R321: 5, 9 and 15 V at 3.00 A. -/
def svcSinkCaps : List (Nat × Nat) := [(0, 300), (1, 300), (2, 300)]

/-- GET_SINK_CAP (R306). -/
def execGetSinkCap (p : PdPort) (s : State) : Res := .next (pdEvent p notSup (svcSends [.sinkCaps svcSinkCaps]) s)

/-- GET_REVISION (R306). -/
def execGetRevision (p : PdPort) (s : State) : Res := .next (pdEvent p (fun t => pdSend t .revision) (svcSends [.revision]) s)

/-- SOFT_RESET (R306). -/
def execSoftReset (p : PdPort) (s : State) : Res := .next (pdEvent p (fun t => pdSend t .accept) (svcSends [.accept]) s)

/-- The SVC port without a contract: vSafe5V. -/
def svcNoContract (s : State) : State :=
  wr Reg.SVC.PDSTAT.PDC 0 (wr Reg.SVC.PDSTAT.VSEL 0 (wr Reg.SVC.PDSTAT.IOP 0 (wr Reg.SVC.PDSTAT.TIER 0
    (updSvc (fun p => { p with req := none, accepted := false, tries := 0, pd2 := false }) s))))

/-- HARD_RESET (R327): `sends` says that this end sends it. -/
def execHardReset (p : PdPort) (sends : Bool) (s : State) : Res :=
  .next (pdEvent p (fun t => hardReset t sends) (fun s => svcSends (if sends then [.hardReset] else []) (svcNoContract s)) s)

/-- VCONN_SWAP (R316). -/
def execVconnSwap (p : PdPort) (s : State) : Res :=
  .next (pdEvent p (fun t s =>
    if peState s t = 6 ∨ peState s t = 3 then pdSend t .wait s
    else
      let s := pdSend t .accept s
      if rdB (Reg.TCP.VCONN.SRC t) s then updTcp t (fun p => { p with swap := true }) s
      else
        let s := vconnOn t (wr (Reg.TCP.VCONN.SRC t) 1 s)
        pdSend t .psRdy (setAlloc t (allocNow s t) s)) svcNotSup s)

/-- TIER of the SVC contract: 20 W or more (R322). -/
def svcTier (v i : Nat) : Bool := 20000 ≤ volts v * i * 10

/-- PS_RDY (R316, R321). -/
def execPsRdy (p : PdPort) (s : State) : Res :=
  .next (pdEvent p (fun t s =>
      if (tcp s t).swap then
        let s := wr (Reg.TCP.VCONN.ON t) 0 (wr (Reg.TCP.VCONN.SRC t) 0 (updTcp t (fun p => { p with swap := false }) s))
        setAlloc t (allocNow s t) s
      else s)
    (fun s => match s.svcSink.req with
      | some (_, v, i) =>
        if s.svcSink.accepted then
          wr Reg.SVC.PDSTAT.PDC 1 (wr Reg.SVC.PDSTAT.VSEL v (wr Reg.SVC.PDSTAT.IOP i (wr Reg.SVC.PDSTAT.TIER (ofBool (svcTier v i))
            (updSvc (fun q => { q with req := none, accepted := false, tries := 0 }) s))))
        else s
      | none => s) s)

/-- VCONN_SOURCE_TIMEOUT (R316, R327). -/
def execVconnSourceTimeout (t : Fin 8) (s : State) : Res :=
  .next (tcEvent t.val (fun s => if (tcp s t.val).swap then hardReset t.val true s else s) s)

/-- DR_SWAP (R317): every one is rejected. -/
def execDrSwap (p : PdPort) (s : State) : Res := .next (pdEvent p (fun t => pdSend t .reject) (svcSends [.reject]) s)

/-- PR_SWAP (R317). -/
def execPrSwap (p : PdPort) (s : State) : Res := .next (pdEvent p notSup svcNotSup s)

/-- UNSUPPORTED_PD_MESSAGE (R306): `vdm` is the command of a structured VDM, whose Discover Identity (1) the SVC port answers
and whose others it NAKs. -/
def execUnsupportedPdMessage (p : PdPort) (vdm : Option (BitVec 5)) (s : State) : Res :=
  .next (pdEvent p notSup (match vdm with
    | none => svcNotSup
    | some c => svcSends [if c = 1 then .identityAck else .vdmNak]) s)

/-! Discovery and alt mode. -/

/-- DISCOVER_IDENTITY_SOP_PRIME (R308): the cable answers, rated 5 A or not. -/
def execDiscoverIdentitySopPrime (t : Fin 8) (fiveA : Bool) (s : State) : Res :=
  let t := t.val
  .next (answers t (fun s =>
    if peState s t = 6 then firstOffer t (wr (Reg.TCP.STAT.EMARK t) 1 (wr (Reg.TCP.STAT.CABLE5A t) (ofBool fiveA) s)) else s) s)

/-- DISCOVER_IDENTITY_RETRY (R308): up to nDiscoverIdentityCount = 20. -/
def execDiscoverIdentityRetry (t : Fin 8) (s : State) : Res :=
  let t := t.val
  .next (answers t (fun s =>
    if peState s t = 6 then
      if (tcp s t).tries < 20 then pdSend t .discIdPrime (updTcp t (fun p => { p with tries := p.tries + 1 }) s)
      else firstOffer t s
    else s) s)

/-- The port may enter alt mode (R319). -/
def altAllowed (s : State) (t : Nat) : Bool := rdB (Reg.TCP.CFG.ALT_EN t) s && present s 5 && hasContract s t

/-- The pin assignment of a list entry and a partner's pins: 1 C, 2 D (R319). -/
def pinChoice (e pins : Nat) : Option Nat :=
  let c := bit 0 e && bit 0 pins
  let d := bit 1 e && bit 1 pins
  if c && (!d || bit 2 e) then some 1 else if d then some 2 else none

/-- The first list entry of the port that meets the partner's pins: pin assignment and HEAD. -/
def altEntry (s : State) (t pins : Nat) : Option (Nat × Nat) :=
  ((pdTables s (t / 4)).alts.filterMap fun e =>
    if bit (t % 4) (field e 0 1) && bit (4 + t / 4) (field e 0 1) then (pinChoice (field e 3 1) pins).map fun a => (a, field e 4 1)
    else none).head?

/-- PARTNER_DISCOVERY_RESPONSE (R319). -/
def execPartnerDiscoveryResponse (t : Fin 8) (r : PartnerAnswer) (s : State) : Res :=
  let t := t.val
  .next (answers t (fun s =>
    match (tcp s t).alt, r with
    | 1, .identity ack vid pid v10 =>
      let s := updTcp t (fun p => { p with idAck := ack, vid := if ack then vid.toNat else 0, pid := if ack then pid.toNat else 0, vdm10 := v10, alt := 0 }) s
      let s := reevaluate t s
      if ack && altAllowed s t then pdSend t .discSvids (updTcp t (fun p => { p with alt := 2 }) s) else s
    | 2, .svids dp =>
      if dp && altAllowed s t then pdSend t .discModes (updTcp t (fun p => { p with alt := 3 }) s)
      else updTcp t (fun p => { p with alt := 0 }) s
    | 3, .modes pins =>
      match altEntry s t pins.toNat with
      | some (a, h) => claimHead t (updTcp t (fun p => { p with altPins := a, altWant := h }) s)
      | none => updTcp t (fun p => { p with alt := 0 }) s
    | _, _ => s) s)

/-- ENTER_MODE_ACK (R319). -/
def execEnterModeAck (t : Fin 8) (s : State) : Res :=
  let t := t.val
  .next (answers t (fun s =>
    if (tcp s t).alt = 4 then
      pdSend t (.dpConfigure (tcp s t).altPins) (pdSend t .statusUpdate (updTcp t (fun p => { p with alt := 5 }) s))
    else s) s)

/-- DP_CONFIGURE_ACK (R319). -/
def execDpConfigureAck (t : Fin 8) (s : State) : Res :=
  let t := t.val
  .next (answers t (fun s =>
    if (tcp s t).alt = 5 then
      let p := tcp s t
      let s := wr (Reg.TCP.ALT.ACTIVE t) 1 (wr (Reg.TCP.ALT.PINASG t) p.altPins (wr (Reg.TCP.ALT.HEAD t) p.altHead (wr (Reg.TCP.ALT.SVID t) 0xFF01 s)))
      hubReroute t (tcEvt (Reg.TCP.EVT.ALT t) t (updTcp t (fun p => { p with alt := 6 }) s))
    else s) s)

/-- ATTENTION (R319). -/
def execAttention (t : Fin 8) (hpd : Bool) (s : State) : Res :=
  .next (answers t.val (fun s => if (tcp s t.val).alt = 6 then wr (Reg.TCP.ALT.HPD t.val) (ofBool hpd) s else s) s)

/-- VDM_RESPONSE_TIMEOUT (R307): the flow ends and the port stays in USB operation. -/
def execVdmResponseTimeout (t : Fin 8) (s : State) : Res :=
  let t := t.val
  .next (answers t (fun s => if 1 ≤ (tcp s t).alt ∧ (tcp s t).alt ≤ 5 then leaveAlt t false s else s) s)

/-- VCONN_FAULT (R315). -/
def execVconnFault (t : Fin 8) (s : State) : Res :=
  let t := t.val
  .next (tcEvent t (fun s =>
    if rdB (Reg.TCP.VCONN.ON t) s then
      let s := wr (Reg.TCP.VCONN.ON t) 0 (wr (Reg.TCP.VCONN.OCP t) 1 (wr (Reg.TCP.STAT.CABLE5A t) 0 s))
      let s := tcEvt (Reg.TCP.EVT.VCONN_FAULT t) t (setAlloc t (allocNow s t) s)
      if peState s t = 6 then firstOffer t s else reevaluate t s
    else s) s)

/-- SINK_ADJ_EXPIRY (R302): the allocation falls. -/
def execSinkAdjExpiry (t : Fin 8) (s : State) : Res :=
  let t := t.val
  .next (tcEvent t (fun s =>
    if (tcp s t).sinkAdj then
      let s := updTcp t (fun p => { p with sinkAdj := false, take := 0 }) s
      setAlloc t (allocNow s t) s
    else s) s)

/-! Registers. -/

/-- The budget is no less than the floors of the enabled ports (R309). -/
def budgetFloor (d b : Nat) (s : State) : Nat :=
  max (17 * ((tuPorts d).filter fun t => rdB (Reg.TCP.CFG.EN t) s).length) (min 480 b)

/-- A write of PDP.BUDGET of a die (R309). -/
def budgetWrite (d b : Nat) (s : State) : State :=
  tuEvent d (fun s => reclaimAll d (wr (Reg.PDP.BUDGET.BUDGET d) (budgetFloor d b s) s)) s

/-- PDP_BUDGET_WRITE (R309). -/
def execPdpBudgetWrite (die : Fin 2) (v : Word) (s : State) : Res :=
  access (Reg.PDP.BUDGET.word die.val).addr (fun s => budgetWrite die.val (bits 8 0 v.toNat) s) s

/-- A write of TCPn.CFG (R301, R303, R309, R320). -/
def tcpCfgWrite (t : Nat) (v : Word) (s : State) : State :=
  let was := rdB (Reg.TCP.CFG.EN t) s
  let alt := rdB (Reg.TCP.CFG.ALT_EN t) s
  tcEvent t (fun s =>
    let s := regSet s (Reg.TCP.CFG.word t).addr (maskW 0xFC000000 v)
    let s := if alt && !rdB (Reg.TCP.CFG.ALT_EN t) s then leaveAlt t true s else s
    if was && !rdB (Reg.TCP.CFG.EN t) s then setTc t TC_DISABLED (release t s)
    else if !was && rdB (Reg.TCP.CFG.EN t) s then
      let s := setTc t (if (tcp s t).warned then TC_ERROR_RECOVERY else if (tcp s t).vbusSafe then TC_UNATTACHED else TC_DISCHARGING)
        (updTcp t (fun p => { p with trips := [] }) s)
      if freeMw s (t / 4) < 0 then reclaimAll (t / 4) (updTcp t (fun p => { p with blocked := true }) s) else s
    else reevaluate t s) s

/-- TCP_CFG_WRITE (R301). -/
def execTcpCfgWrite (t : Fin 8) (v : Word) (s : State) : Res :=
  access (Reg.TCP.CFG.word t.val).addr (fun s => tcpCfgWrite t.val v s) s

/-- New policy and alt-mode tables of a die take effect (R311, R328, PDP.RULEGEN). -/
def loadPdTables (d : Nat) (rules alts : List (List Byte)) (s : State) : State :=
  let s := { s with pdTables := Tab.set (fun _ => PdTables.reset) d { rules := rules, alts := alts } s.pdTables }
  let s := wr (Reg.PDP.RULEGEN.GEN d) (rd (Reg.PDP.RULEGEN.GEN d) s + 1)
    (wr (Reg.PDP.RULEGEN.NRULE d) rules.length (wr (Reg.PDP.RULEGEN.NALT d) alts.length s))
  tuEvent d (fun s =>
    let s := forAll (tuPorts d) (fun t s => match (tcp s t).cc with
      | some (c, r) => attach t c r s
      | none =>
        let pm := (ruleOf s t).pmax
        if hasContract s t && pm < (tcp s t).alloc && (tcp s t).take == 0 then
          sendCaps t false (updTcp t (fun p => { p with take := p.alloc - pm, limit := some pm }) s)
        else reevaluate t s) s
    reclaimAll d s) s

/-! The SVC sink (R321, R322). -/

/-- The VSEL code of a voltage in units of 50 mV: the highest of 5, 9 and 15 V not above it. -/
def vselOf (v : Nat) : Nat := if 300 ≤ v then 2 else if 180 ≤ v then 1 else 0

/-- The fixed PDO of highest voltage at or below 15 V: position, and (50 mV, 10 mA). -/
def svcChoice (l : List (Nat × Nat)) : Option (Nat × Nat × Nat) :=
  ((List.range l.length).zip l).foldl (fun (b : Option (Nat × Nat × Nat)) x =>
    if 300 < x.2.1 then b
    else match b with
      | none => some (x.1 + 1, x.2.1, x.2.2)
      | some y => if y.2.1 < x.2.1 then some (x.1 + 1, x.2.1, x.2.2) else b) none

/-- SOURCE_CAPABILITIES (R321): fixed PDOs as (50 mV, 10 mA). -/
def execSourceCapabilities (pdos : List (Nat × Nat)) (pd2 : Bool) (s : State) : Res :=
  .next (svcEvent (fun s =>
    match svcChoice pdos with
    | none => s
    | some (pos, v, i) =>
      let i := min i 300
      svcSends [.request pos i] (updSvc (fun p => { p with req := some (pos, vselOf v, i), accepted := false, tries := 0, pd2 := pd2 }) s)) s)

/-- ACCEPT (R321). -/
def execAccept (s : State) : Res :=
  .next (svcEvent (updSvc fun p => { p with accepted := p.req.isSome }) s)

/-- WAIT (R321): the Request is kept for a retry, up to 10 times. -/
def execWait (s : State) : Res :=
  .next (svcEvent (updSvc fun p => if p.tries < 10 then { p with accepted := false } else { p with req := none, accepted := false }) s)

/-- REJECT (R321). -/
def execReject (s : State) : Res := .next (svcEvent (updSvc fun p => { p with req := none, accepted := false }) s)

/-- SINK_REQUEST_RETRY (R321). -/
def execSinkRequestRetry (s : State) : Res :=
  .next (svcEvent (fun s => match s.svcSink.req with
    | some (pos, _, i) =>
      if s.svcSink.accepted || 10 ≤ s.svcSink.tries then s
      else svcSends [.request pos i] (updSvc (fun p => { p with tries := p.tries + 1 }) s)
    | none => s) s)

/-- PS_TRANSITION_TIMEOUT (R321). -/
def execPsTransitionTimeout (s : State) : Res :=
  .next (svcEvent (fun s => if s.svcSink.accepted then svcSends [.hardReset] (svcNoContract s) else s) s)

/-! Commands (R329). -/

/-- The status of a PORT byte. -/
def portCheck (s : State) (p : Nat) : Nat :=
  if p = 0x0F then ST_OK else if 8 ≤ p then ST_BAD_PARAM else dieStatus s (tuSlot (p / 4))

/-- PD_STATUS (R329). -/
def execPdStatus (o : Origin) (body : List Byte) (s : State) : Res :=
  command o body 4 (fun s =>
    let p := field body 0 1
    let st := portCheck s p
    if zeroAt body 1 3 = false then reply o ST_BAD_PARAM [] s
    else if st ≠ ST_OK then reply o st [] s
    else if p = 0x0F then reply o ST_OK (beBytes 4 (regGet s Reg.SVC.PDSTAT.word.addr).toNat ++ List.replicate 20 0) s
    else
      let w := fun f : Fld => beBytes 4 (regGet s f.addr).toNat
      reply o ST_OK (w (Reg.TCP.STAT.word p) ++ w (Reg.TCP.CONTRACT.word p) ++ w (Reg.TCP.VCONN.word p) ++ w (Reg.TCP.ALT.word p) ++
        beBytes 2 (tcp s p).vid ++ beBytes 2 (tcp s p).pid ++ [0, 0, 0, 0]) s) s

/-- One action of PD_PORT_CTL on a TU port. -/
def portAction (t a : Nat) (s : State) : State :=
  let cfg := regGet s (Reg.TCP.CFG.word t).addr
  match a with
  | 0 => tcpCfgWrite t ((Reg.TCP.CFG.EN t).into 0 cfg) s
  | 1 => tcpCfgWrite t ((Reg.TCP.CFG.EN t).into 1 cfg) s
  | 2 => answers t (fun s => if offersPd s t then sendCaps t true s else s) s
  | 3 => answers t (hardReset t true) s
  | 4 => answers t (leaveAlt t true) s
  | _ => answers t (fun s => if altAllowed s t && (tcp s t).alt != 6 then
      pdSend t .discSvids (updTcp t (fun p => { p with alt := 2 }) (leaveAlt t false s)) else s) s

/-- PD_PORT_CTL (R329). -/
def execPdPortCtl (o : Origin) (body : List Byte) (s : State) : Res :=
  command o body 4 (fun s =>
    let p := field body 0 1
    let a := field body 1 1
    let st := portCheck s p
    if zeroAt body 2 2 = false ∨ 5 < a ∨ (p = 0x0F ∧ a ≠ 3) then reply o ST_BAD_PARAM [] s
    else if st ≠ ST_OK then reply o st [] s
    else if p = 0x0F then reply o ST_OK [] (svcEvent (fun s => svcSends [.hardReset] (svcNoContract s)) s)
    else reply o ST_OK [] (portAction p a s)) s

/-- PD_BUDGET (R329). -/
def execPdBudget (o : Origin) (body : List Byte) (s : State) : Res :=
  command o body 4 (fun s =>
    let sl := field body 0 1
    let b := field body 2 2
    if (sl ≠ 2 ∧ sl ≠ 6) ∨ 480 < b ∨ field body 1 1 ≠ 0 then reply o ST_BAD_PARAM [] s
    else
      let st := dieStatus s sl
      if st ≠ ST_OK then reply o st [] s
      else
        let d := (sl - 2) / 4
        let s := budgetWrite d b s
        let sum := (tuPorts d).foldl (fun a t => a + (tcp s t).alloc) 0
        reply o ST_OK (beBytes 2 ((sum + 499) / 500) ++ [0, 0]) s) s

end Sys2Proof.Machine
end

