-- ==== Sys2Proof/Machine/Svc.lean ====
section
/-! DEFINITION. The commands of the hub and proxy, and the SVC service port (chapter 13, R342 to R351). -/
namespace Sys2Proof.Machine

/-! Hub and proxy commands (R342). -/

/-- USB_PORT_CTL (R342). -/
def execUsbPortCtl (o : Origin) (body : List Byte) (s : State) : Res :=
  command o body 4 (fun s =>
    let p := field body 0 1
    let a := field body 1 1
    if 8 ≤ p ∨ 5 < a ∨ zeroAt body 2 2 = false then reply o ST_BAD_PARAM [] s
    else
      let st := dieStatus s (tuSlot (p / 4))
      if st ≠ ST_OK then reply o st [] s
      else
        let s := usbAction p a s
        reply o ST_OK (beBytes 1 (rd (hubByte p) s) ++ [0, 0, 0]) s) s

/-- One OP of PROXY_CTL: the status. -/
def proxyOp (d op r : Nat) (s : State) : Nat × State :=
  match op with
  | 0 => if proxyRuns s d then (ST_OK, s) else proxyStart d s
  | 1 => (ST_OK, proxyStop d s)
  | _ =>
    if !proxyRuns s d then (ST_BUSY, s)
    else match op with
      | 2 => (ST_OK, ringStart d r s)
      | 3 => (ST_OK, stopRing d r s)
      | _ => (ST_OK, ringReset d r s)

/-- PROXY_CTL (R342). -/
def execProxyCtl (o : Origin) (body : List Byte) (s : State) : Res :=
  command o body 4 (fun s =>
    let sl := field body 0 1
    let op := field body 1 1
    let r := field body 2 1
    if (sl ≠ 2 ∧ sl ≠ 6) ∨ 4 < op ∨ (2 ≤ op ∧ 64 ≤ r) ∨ field body 3 1 ≠ 0 then reply o ST_BAD_PARAM [] s
    else
      let st := dieStatus s sl
      if st ≠ ST_OK then reply o st [] s
      else
        let d := (sl - 2) / 4
        let (st, s) := proxyOp d op r s
        reply o st (if st = ST_OK then beBytes 4 (regGet s (Reg.USB.PRX_STAT.word d).addr).toNat else []) s) s

/-! The SVC device. -/

def bstate (s : State) : Nat := rd Reg.SVC.STAT.BSTATE s
def setB (x : Nat) (s : State) : State := wr Reg.SVC.STAT.BSTATE x s
def updDev (f : SvcDev → SvcDev) (s : State) : State := { s with svcDev := f s.svcDev }

/-- What the port answers with. -/
def answer (l : Option (List Byte)) (s : State) : State := updDev (fun d => { d with answer := l }) s

/-- The SVC attachment is lost (R350): replies go to the orphan holder, EP0 loses its state and remote wake clears. -/
def svcLost (s : State) : State :=
  let s := loseAttachment .usb .svc s
  wr Reg.SVC.STAT.RWE 0 (wr Reg.SVC.STAT.WAKEP 0 (updDev (fun d => { d with answer := none, driveK := false, halted := [] }) s))

/-- D+ appears: the bus state is ATTACHED where VBUS is present. -/
def svcConnect (s : State) : State :=
  let s := updDev (fun d => { d with dbAtConnect := rdB Reg.SVC.PDSTAT.DB s, fullSpeed := rdB Reg.SVC.CTRL.FORCE_FS s }) s
  if svcAttached s then setB 1 s else s

/-- The host sees a detach. -/
def svcDisconnect (s : State) : State :=
  if bstate s = 0 then s else setB 0 (wr Reg.SVC.STAT.ADDR 0 (wr Reg.SVC.STAT.HS 0 (svcLost s)))

/-- CTRL.CONNECT is written (R347). -/
def connectWrite (b : Bool) (s : State) : State :=
  let was := rdB Reg.SVC.CTRL.CONNECT s
  let s := wr Reg.SVC.CTRL.CONNECT (ofBool b) s
  if b && !was then svcConnect s else if was && !b then svcDisconnect s else s

/-- SVC_CONNECT_WRITE (R347). -/
def execSvcConnectWrite (connect : Bool) (s : State) : Res := .next (connectWrite connect s)

/-- The ranges of a carving keep R346. -/
def carveGood (l : List (Nat × Nat)) : Bool :=
  let ix := List.range l.length
  (ix.zip l).all (fun x => (if x.1 = 0 ∨ x.1 = 3 then 1 else 8) ≤ x.2.2 && x.2.1 + x.2.2 ≤ 1024) &&
    ix.all fun i => ix.all fun j => i == j ||
      (let a := l.getD i (0, 0)
       let b := l.getD j (0, 0)
       a.1 + a.2 ≤ b.1 || b.1 + b.2 ≤ a.1)

/-- EPB_LOAD (R346). -/
def epbLoad (s : State) : State :=
  let l := (List.range 6).map fun e => (rd (Reg.SVC.EPBUF.BASE e) s, rd (Reg.SVC.EPBUF.SIZE e) s)
  if rdB Reg.SVC.CTRL.CONNECT s || !carveGood l then wr Reg.SVC.STAT.EPB_ERR 1 s
  else wr Reg.SVC.STAT.CARVED 1 (updDev (fun d => { d with carve := l }) s)

/-- SVC_EPB_LOAD (R346). -/
def execSvcEpbLoad (s : State) : Res := .next (epbLoad s)

/-- A write of SVC.CTRL (R346, R347): the enables, CONNECT, and EPB_LOAD; a load beside CONNECT 0 to 1 is taken before it. -/
def svcCtrlWrite (v : Word) (s : State) : State :=
  let s := wr Reg.SVC.CTRL.RWAKE (bits 30 30 v.toNat) (wr Reg.SVC.CTRL.FORCE_FS (bits 29 29 v.toNat) s)
  let s := if bit 0 v.toNat then epbLoad s else s
  connectWrite (bit 31 v.toNat) s

/-- SVC_SUSPEND (R348). -/
def execSvcSuspend (s : State) : Res :=
  let b := bstate s
  if 2 ≤ b ∧ b ≤ 4 then .next (setB 5 (updDev (fun d => { d with before := b }) s)) else .next s

/-- A source with target T3 is pending, or its record waits (R349). -/
def t3Pending (s : State) : Bool :=
  s.svcDev.ep3 != [] ||
    s.srcs.any fun e => (e.2 == .pending || e.2 == .activeAndPending) && bit 3 (rd (Reg.INT.TGT.TMASK (e.1 / 32)) s) &&
      bit (e.1 % 32) (rd (Reg.INT.EN.word (e.1 / 32)) s)

/-- STAT.WAKEP (R349, Table 13.11): a wake reason is pending, since the wake or while the port may wake the suspended bus. -/
def wakeReason (s : State) : Bool :=
  rdB Reg.SVC.STAT.WAKEP s || (bstate s == 5 && rdB Reg.SVC.STAT.RWE s && rdB Reg.SVC.CTRL.RWAKE s && t3Pending s)

/-- REMOTE_WAKE (R349). -/
def execRemoteWake (s : State) : Res :=
  if bstate s = 5 ∧ rdB Reg.SVC.STAT.RWE s = true ∧ rdB Reg.SVC.CTRL.RWAKE s = true ∧ t3Pending s = true then
    .next (wr Reg.SVC.STAT.WAKEP 1 (updDev (fun d => { d with driveK := true }) s))
  else .next s

/-- HOST_RESUME (R349): the port withdraws its drive and resumes; a wake reason stays pending until it has gone out on EP3. -/
def execHostResume (s : State) : Res :=
  if bstate s = 5 then
    .next (raise srcSVCRESUME (setB s.svcDev.before (wr Reg.SVC.STAT.WAKEP (ofBool (wakeReason s)) (updDev (fun d => { d with driveK := false }) s))))
  else .next s

/-- SVC_BUS_RESET (R350): `hs` says that the host runs high speed. -/
def execSvcBusReset (hs : Bool) (s : State) : Res :=
  if bstate s = 0 then .next s
  else
    let s := svcLost s
    .next (setB 2 (wr Reg.SVC.STAT.ADDR 0 (wr Reg.SVC.STAT.HS (ofBool (hs && !s.svcDev.fullSpeed)) s)))

/-- SET_CONFIGURATION with a value (R350); a repeated 1 resets data toggles, which the rows carry no more than the packets. -/
def setConfiguration (c : Nat) (s : State) : State :=
  if bstate s = 3 ∨ bstate s = 4 then
    if c = 1 then answer (some []) (if bstate s = 4 then s else setB 4 (updDev (fun d => { d with halted := [] }) s))
    else if c = 0 then answer (some []) (setB 3 (if bstate s = 4 then svcLost s else s))
    else answer none s
  else answer none s

/-- SET_CONFIGURATION (R350). -/
def execSetConfiguration (c : BitVec 8) (s : State) : Res := .next (setConfiguration c.toNat s)

/-! Descriptors (Table 13.9). -/

def asciiBytes (t : String) : List Byte := t.toList.map fun c => BitVec.ofNat 8 c.toNat

/-- A string descriptor of ASCII characters. -/
def stringDesc (l : List Byte) : List Byte := BitVec.ofNat 8 (2 + 2 * l.length) :: 3 :: (l.map fun b => [b, 0]).flatten

/-- The hexadecimal digits of a number. -/
def hexDigits : Nat → Nat → List Byte
  | 0, _ => []
  | k + 1, n => hexDigits k (n / 16) ++ [BitVec.ofNat 8 (if n % 16 < 10 then 48 + n % 16 else 55 + n % 16)]

/-- The fall-back device and string descriptors (Tables 13.9 and 20.7). -/
def fallbackDescs : List (List Byte) :=
  [[18, 1, 0x00, 0x02, 0, 0, 0, 64] ++ leBytes 2 0x3A71 ++ leBytes 2 0x0108 ++ [0, 0, 1, 2, 3, 1],
   [4, 3, 0x09, 0x04], stringDesc (asciiBytes "Alatinos"), stringDesc (asciiBytes "Melari LH8 service port"),
   stringDesc (hexDigits 16 Config.ldIdentity.toNat)]

/-- The descriptors in force: those of the image, else the fall-back set. -/
def svcDescs (s : State) : List (List Byte) := if s.svcDev.descs = [] then fallbackDescs else s.svcDev.descs

def deviceDesc (s : State) : List Byte := (((svcDescs s).filter fun d => field d 1 1 == 1).head?).getD []

/-- An endpoint descriptor. -/
def epDesc (addr attr size interval : Nat) : List Byte :=
  [7, 5, BitVec.ofNat 8 addr, BitVec.ofNat 8 attr] ++ leBytes 2 size ++ [BitVec.ofNat 8 interval]

/-- The configuration at a speed, as descriptor type `t` (2 configuration, 7 other speed). -/
def configDesc (s : State) (t : Nat) (hs : Bool) : List Byte :=
  let bulk := if hs then 512 else 64
  let db := s.svcDev.dbAtConnect
  let l := [9, 4, 0, 0, 5, 0xFF, 0x48, 0x02, 0] ++ epDesc 0x01 2 bulk 0 ++ epDesc 0x82 2 bulk 0 ++
    epDesc 0x83 3 64 (if hs then 4 else 1) ++ epDesc 0x04 2 bulk 0 ++ epDesc 0x85 2 bulk 0
  [9, BitVec.ofNat 8 t] ++ leBytes 2 (9 + l.length) ++ [1, 1, 0, if db then 0xA0 else 0xE0, if db then 250 else 0] ++ l

/-- The device qualifier. -/
def qualifierDesc (s : State) : List Byte := [10, 6] ++ ((deviceDesc s).drop 2).take 6 ++ [1, 0]

/-- GET_DESCRIPTOR of a type and index. -/
def getDescriptor (s : State) (t i : Nat) : Option (List Byte) :=
  let hs := rdB Reg.SVC.STAT.HS s
  match t with
  | 1 => some (deviceDesc s)
  | 2 => if i = 0 then some (configDesc s 2 hs) else none
  | 3 => ((svcDescs s).filter fun d => field d 1 1 == 3)[i]?
  | 6 => some (qualifierDesc s)
  | 7 => if i = 0 then some (configDesc s 7 (!hs)) else none
  | _ => none

/-- Bytes of one configured endpoint address. -/
def svcEndpoint (e : Nat) : Bool := e == 0x01 || e == 0x82 || e == 0x83 || e == 0x04 || e == 0x85

/-- SVC_STANDARD_REQUEST (R345): bmRequestType, bRequest, wValue, wIndex and wLength; any other request is STALLed. -/
def execSvcStandardRequest (typ req : BitVec 8) (value index len : BitVec 16) (s : State) : Res :=
  let v := value.toNat
  let i := index.toNat
  let ok := fun (l : List Byte) (s : State) => answer (some (l.take len.toNat)) s
  if bstate s < 2 ∨ bstate s = 5 then .next s
  else .next (match typ.toNat, req.toNat with
    | 0x80, 0 => ok [BitVec.ofNat 8 (ofBool (!s.svcDev.dbAtConnect) + 2 * rd Reg.SVC.STAT.RWE s), 0] s
    | 0x81, 0 => ok [0, 0] s
    | 0x82, 0 => if i % 128 = 0 ∨ svcEndpoint i = true then ok [if s.svcDev.halted.contains i then 1 else 0, 0] s else answer none s
    | 0x00, 1 => if v = 1 then ok [] (wr Reg.SVC.STAT.RWE 0 s) else answer none s
    | 0x00, 3 => if v = 1 then ok [] (wr Reg.SVC.STAT.RWE 1 s) else answer none s
    | 0x02, 1 => if v = 0 ∧ svcEndpoint i = true then ok [] (updDev (fun d => { d with halted := d.halted.filter (· != i) }) s) else answer none s
    | 0x02, 3 => if v = 0 ∧ svcEndpoint i = true then ok [] (updDev (fun d => { d with halted := i :: d.halted.filter (· != i) }) s) else answer none s
    | 0x00, 5 => if v < 128 ∧ bstate s ≠ 4 then ok [] (setB (if v = 0 then 2 else 3) (wr Reg.SVC.STAT.ADDR v s)) else answer none s
    | 0x80, 6 => match getDescriptor s (v / 256) (v % 256) with
      | some l => ok l s
      | none => answer none s
    | 0x80, 8 => ok [if bstate s = 4 then 1 else 0] s
    | 0x00, 9 => setConfiguration v s
    | 0x81, 10 => if bstate s = 4 ∧ i = 0 then ok [0] s else answer none s
    | 0x01, 11 => if bstate s = 4 ∧ i = 0 ∧ v = 0 then ok [] s else answer none s
    | _, _ => answer none s)

/-! Endpoints. -/

/-- Replies that wait for EP2, oldest first. -/
def ep2Replies (s : State) : List Reply := s.cmd.replies.filter fun r => r.att == .usb

/-- EP1_COMMAND_RECEIVE (R261, R345): one transfer is one command; one that is too long is discarded. -/
def execEp1CommandReceive (bytes : List Byte) (s : State) : Res :=
  let v1 := field bytes 0 1 / 16 == 1 && compat s
  let most := (if v1 then 12 else 16) + field bytes 4 2 + (if bit 2 (field bytes 0 1) && !v1 then 8 else 0)
  if bstate s ≠ 4 then .next s
  else if most < bytes.length then .next (count (cCMD 0) s)
  else .next (accept (carrier .svc .usb) bytes s)

/-- EP2_TRANSFER_COMPLETE (R263): the oldest reply has been taken, and its tag is free. -/
def execEp2TransferComplete (s : State) : Res :=
  match takeFirst (fun r : Reply => r.att == .usb) s.cmd.replies with
  | none => .next s
  | some (r, l) =>
    .next (answer (some r.bytes) (freeTag r (updCmd (fun c => { c with replies := l }) s)))

/-- EP3_POLL (R345): up to four records. -/
def execEp3Poll (s : State) : Res :=
  if bstate s = 4 then
    .next (wr Reg.SVC.STAT.WAKEP 0 (updDev (fun d => { d with answer := some (d.ep3.take 4).flatten, ep3 := d.ep3.drop 4 }) s))
  else .next s

/-- A record of R479: CODE, slot, FLAGS, DETAIL, time, boot and sequence counts; see the error logs. -/
def ep5Record (e : LogEnt) (boots : Nat) : List Byte :=
  beBytes 2 e.code ++ beBytes 1 e.slot ++ beBytes 1 (ofBool e.lost) ++ beBytes 4 e.detail ++ beBytes 8 e.time ++
    beBytes 4 boots ++ beBytes 4 e.seqNo ++ List.replicate 8 0

/-- EP5_POLL (R481): the oldest log record, one per packet. -/
def execEp5Poll (s : State) : Res :=
  if bstate s ≠ 4 then .next s
  else match s.diag.ep5 with
    | [] => .next (answer (some []) s)
    | e :: l => .next (answer (some (ep5Record e s.diag.boots)) { s with diag := { s.diag with ep5 := l } })

/-- CLEAR_FEATURE_HALT (R350): the reply in progress on EP2 is sent again from its first byte. -/
def execClearFeatureHalt (s : State) : Res :=
  if bstate s = 4 then
    .next (answer ((ep2Replies s).head?.map fun r => r.bytes) (updDev (fun d => { d with halted := d.halted.filter (· != 0x82) }) s))
  else .next s

/-- A read of SVC.ORPH (R351): EXPIRED, which clears, and COUNT. -/
def readOrph (s : State) : Word × State :=
  let n := (s.cmd.orphans.filter fun x => x.1 == .svc).length
  (BitVec.ofNat 32 (rd Reg.SVC.ORPH.EXPIRED s * 65536 + n), wr Reg.SVC.ORPH.EXPIRED 0 s)

/-- SVC_ORPH_READ (R351). -/
def execSvcOrphRead (_ : EntryPoint) (s : State) : Res := .next (returned (readOrph s))

/-- SVC_SOURCE_ATTACH (R321, R322): the source shows VBUS and Rp (1 Default, 2 1.5 A, 3 3.0 A) while the node's own input is
present. -/
def execSvcSourceAttach (rp : Fin 4) (s : State) : Res :=
  if svcAttached s then .next s
  else
    let s := wr Reg.SVC.PDSTAT.ATT 1 (wr Reg.SVC.PDSTAT.RPSEEN rp.val (updSvc (fun _ => SvcSink.reset) s))
    let s := raise srcSVCVBUS s
    .next (if rdB Reg.SVC.CTRL.CONNECT s then svcConnect s else s)

end Sys2Proof.Machine
end

