-- ==== Sys2Proof/Machine/Display.lean ====
section
/-! DEFINITION. Display heads and scan-out (chapter 14, R352 to R369). -/
namespace Sys2Proof.Machine

def setHead (h : Nat) (x : Head) (s : State) : State := { s with heads := Tab.set (fun _ => Head.reset) h x s.heads }
def updHead (h : Nat) (f : Head → Head) (s : State) : State := setHead h (f (head s h)) s

/-- A field of a list of register words. -/
def wordField (l : List Word) (i hi lo : Nat) : Nat := bits hi lo ((l.getD i 0).toNat)

/-- The pending TIMING words of a head. -/
def timingRegs (s : State) (h : Nat) : List Word := (List.range 8).map fun k => regGet s ((Reg.DSP.TIMING0.word h).addr + 4 * k)

/-- The pending copies VPLANE0-7 and OVL0-7. -/
def pendingRegs (s : State) (h : Nat) : List Word := (List.range 16).map fun k => regGet s ((Reg.DSP.VPLANE0.word h).addr + 4 * k)

/-! Timing words. -/
def tPCLK (t : List Word) : Nat := wordField t 0 19 0
def tHACT (t : List Word) : Nat := wordField t 1 31 16
def tHTOT (t : List Word) : Nat := wordField t 1 15 0
def tHFP (t : List Word) : Nat := wordField t 2 31 16
def tHSW (t : List Word) : Nat := wordField t 2 15 0
def tVACT (t : List Word) : Nat := wordField t 3 31 16
def tVTOT (t : List Word) : Nat := wordField t 3 15 0
def tVFP (t : List Word) : Nat := wordField t 4 31 16
def tVSW (t : List Word) : Nat := wordField t 4 15 0
def tBPC (t : List Word) : Nat := if wordField t 5 29 29 = 1 then 10 else 8

/-- `n` line times in ns. -/
def linesNs (t : List Word) (n : Nat) : Nat := n * tHTOT t * 1000000 / tPCLK t

/-! Plane words: VPLANE0-7 are 0 to 7, OVL0-7 are 8 to 15. -/
def vEN (p : List Word) : Bool := wordField p 0 31 31 == 1
def vFMT (p : List Word) : Nat := wordField p 0 30 28
def vDepth (p : List Word) : Nat := 8 + 2 * wordField p 0 27 26
def vS (p : List Word) : Nat := if wordField p 0 27 26 = 0 then 1 else 2
def vW (p : List Word) : Nat := wordField p 1 31 16
def vH (p : List Word) : Nat := wordField p 1 15 0
def vX (p : List Word) : Nat := wordField p 2 31 16
def vY (p : List Word) : Nat := wordField p 2 15 0
def vStride0 (p : List Word) : Nat := wordField p 3 31 16
def vStride1 (p : List Word) : Nat := wordField p 3 15 0
def vAddr (p : List Word) (k : Nat) : Nat := wordField p (4 + k) 31 0
def vSX (p : List Word) : Nat := wordField p 7 31 16
def vSY (p : List Word) : Nat := wordField p 7 15 0
def oEN (p : List Word) : Bool := wordField p 8 31 31 == 1
def oPal (p : List Word) : Bool := wordField p 8 30 30 == 1
def oB (p : List Word) : Nat := if oPal p then 1 else 4
def oW (p : List Word) : Nat := wordField p 9 31 16
def oH (p : List Word) : Nat := wordField p 9 15 0
def oX (p : List Word) : Nat := wordField p 10 31 16
def oY (p : List Word) : Nat := wordField p 10 15 0
def oStride (p : List Word) : Nat := wordField p 11 31 16
def oAddr (p : List Word) : Nat := wordField p 12 31 0
def oPalAddr (p : List Word) : Nat := wordField p 13 31 0
def oSX (p : List Word) : Nat := wordField p 14 31 16
def oSY (p : List Word) : Nat := wordField p 14 15 0

/-- Chroma subsampling of a format (Table 14.1). -/
def subH (f : Nat) : Nat := if f = 4 then 1 else 2
def subV (f : Nat) : Nat := if f = 0 ∨ f = 2 then 2 else 1
/-- Two planes: interleaved chroma. -/
def twoPlane (f : Nat) : Bool := f == 0 || f == 1

/-- The bytes of rows `y0` to `y0 + n - 1`, columns from byte `x0`, `w` bytes each, lie in the frame buffer region. -/
def rowsInFb (s : State) (a stride y0 n x0 w : Nat) : Bool :=
  n == 0 || w == 0 || inRegion s 3 (a + y0 * stride + x0) ((n - 1) * stride + w)

/-- The video plane keeps R354 and R355. -/
def videoOk (s : State) (p : List Word) : Bool :=
  let f := vFMT p
  let sz := vS p
  let h := subH f
  let v := subV f
  let c0 := vSX p / h
  let cw := (vSX p + vW p + h - 1) / h - c0
  let r0 := vSY p / v
  let rn := (vSY p + vH p + v - 1) / v - r0
  let cs := if twoPlane f then 2 * sz else sz
  !vEN p || (f ≤ 4 && wordField p 0 25 24 != 3 && vW p % h == 0 && vSX p % h == 0 && vH p % v == 0 && vSY p % v == 0 &&
    vStride0 p % 64 == 0 && vStride1 p % 64 == 0 && vAddr p 0 % 64 == 0 && vAddr p 1 % 64 == 0 && vAddr p 2 % 64 == 0 &&
    vW p * sz ≤ vStride0 p && vW p / h * cs ≤ vStride1 p &&
    rowsInFb s (vAddr p 0) (vStride0 p) (vSY p) (vH p) (vSX p * sz) (vW p * sz) &&
    rowsInFb s (vAddr p 1) (vStride1 p) r0 rn (c0 * cs) (cw * cs) &&
    (twoPlane f || rowsInFb s (vAddr p 2) (vStride1 p) r0 rn (c0 * cs) (cw * cs)))

/-- The overlay keeps R355. -/
def overlayOk (s : State) (p : List Word) : Bool :=
  !oEN p || (oStride p % 64 == 0 && oAddr p % 64 == 0 && oPalAddr p % 64 == 0 && oW p * oB p ≤ oStride p &&
    rowsInFb s (oAddr p) (oStride p) (oSY p) (oH p) (oSX p * oB p) (oW p * oB p) &&
    (!oPal p || inRegion s 3 (oPalAddr p) 1024))

/-- B_res of R362. -/
def bRes (p : List Word) : Nat :=
  (if vEN p then vW p * vS p + (if twoPlane (vFMT p) || vFMT p == 4 then vW p * vS p else 2 * (vW p / 2) * vS p) else 0) +
    (if oEN p then oW p * oB p else 0)

/-- LTOL.LOW; 0 is treated as 1. -/
def lowLines (s : State) (h : Nat) : Nat := max 1 (rd (Reg.DSP.LTOL.LOW h) s)

/-- C of R362 in lines. -/
def capLines (p : List Word) : Nat := if bRes p = 0 then 196608 else 196608 / bRes p

/-- The plane words keep R355 and the capacity rule of R362. -/
def planesOk (s : State) (h : Nat) (p : List Word) : Bool := videoOk s p && overlayOk s p && lowLines s h + 2 ≤ capLines p

/-- OUTh of DMX.ROUTE: 0 none, 1 DSI, 2 DP; 3 is treated as 0. -/
def headOut (s : State) (h : Nat) : Nat :=
  let o := if h = 0 then rd Reg.DMX.ROUTE.OUT0 s else rd Reg.DMX.ROUTE.OUT1 s
  if o = 3 then 0 else o

/-- The output can carry the timing (R358 to R360). -/
def outputOk (s : State) (h : Nat) (t : List Word) (cmd : Bool) : Bool :=
  let out := headOut s h
  let lanes := wordField t 6 31 30 + 1
  let lr := wordField t 6 23 16
  let rate := lanes * lr * 10000
  let bpp := 3 * tBPC t
  if cmd then out == 1 && 8 ≤ lr && lr ≤ 250
  else out != 1 || (8 ≤ lr && lr ≤ 250 &&
    (if wordField t 6 29 29 = 1 then 12 * tPCLK t * bpp * tHACT t ≤ 10 * rate * tHTOT t else tPCLK t * bpp ≤ rate))

/-- The timing keeps R356. -/
def timingOk (t : List Word) : Bool :=
  25000 ≤ tPCLK t && tPCLK t ≤ 600000 && 64 ≤ tHACT t && tHACT t ≤ 3840 && 64 ≤ tVACT t && tVACT t ≤ 2160 &&
    tHACT t + tHFP t + tHSW t + 32 ≤ tHTOT t && tHTOT t ≤ 8191 && tVACT t + tVFP t + tVSW t + 2 ≤ tVTOT t && tVTOT t ≤ 4095 &&
    8 ≤ tHFP t && 8 ≤ tHSW t && 1 ≤ tVFP t && 1 ≤ tVSW t

/-- The TV die works: in service, or ending its frames. -/
def tvWorks (s : State) : Bool := present s 5 && (domSt s 0x15 == .inService || domSt s 0x15 == .quiescing)

/-- A sticky bit of DSPn.STAT with its source. -/
def dspErr (f : Fld) (src : Nat) (s : State) : State := raise src (wr f 1 s)

/-- A DISP frame of a head on its event tunnel (Table 14.2). -/
def sendDisp (h kind : Nat) (body : List Byte) (s : State) : State :=
  let t := rd (Reg.DSP.CFG.EVTUN h) s
  if t = 0 then s
  else originate 5 t (beBytes 1 kind ++ beBytes 1 h ++ beBytes 1 (rd (Reg.DSP.STAT.GEN h) s) ++ List.replicate 5 0 ++ body) s

/-! Latches and flips. -/

/-- Fetching starts again at line 0 under the active copies (R362). -/
def refetch (h : Nat) (s : State) : State := updHead h (fun x => { x with buf := [], asked := [], nextAsk := some 0 }) s

/-- The active copies take the pending values, and the palette where PALLOAD asks for it (R357, R354). -/
def takePending (h : Nat) (s : State) : State :=
  let p := pendingRegs s h
  let pal := if wordField p 8 29 29 = 1 then deepReads s (oPalAddr p) 1024 else (head s h).palette
  let s := wr (Reg.DSP.OVL0.PALLOAD h) 0 s
  refetch h (updHead h (fun x => { x with active := p, palette := pal }) s)

/-- A latch that takes an armed flip (R357). -/
def latchFlip (h : Nat) (s : State) : State :=
  let s := takePending h s
  let s := wr (Reg.DSP.STAT.GEN h) (rd (Reg.DSP.STAT.GEN h) s + 1) (wr (Reg.DSP.STAT.FLIPPEND h) 0 (wr (Reg.DSP.CFG.FLIP h) 0 s))
  let t := lineNs s
  let ws := (head s h).waits
  let s := updHead h (fun x => { x with latchAt := t, waits := [] }) s
  let s := raise (srcFLIP_DONE h) (count (cDSP h 3) s)
  let s := forAll ws (fun o s => reply o ST_OK (beBytes 1 (rd (Reg.DSP.STAT.GEN h) s) ++ [0, 0, 0] ++ beBytes 8 t) s) s
  sendDisp h 2 (beBytes 8 t) s

/-- Arms a flip (R357, R368): the status. -/
def armFlip (h : Nat) (s : State) : Nat × State :=
  let bad := dspErr (Reg.DSP.STAT.FLIP_ERR h) (srcFLIP_ERR h)
  if !rdB (Reg.DSP.CFG.EN h) s then (ST_BUSY, bad s)
  else if !planesOk s h (pendingRegs s h) then (ST_BAD_PARAM, bad s)
  else
    let s := if rdB (Reg.DSP.STAT.FLIPPEND h) s then count (cDSP h 4) (wr (Reg.DSP.STAT.SUPER h) 1 s) else s
    (ST_OK, wr (Reg.DSP.STAT.FLIPPEND h) 1 (wr (Reg.DSP.CFG.FLIP h) 1 s))

/-- DSP_CFG_FLIP (R357). -/
def execDspCfgFlip (h : Fin 2) (s : State) : Res :=
  access (Reg.DSP.CFG.word h.val).addr (fun s => (armFlip h.val s).2) s

/-- The addresses that a MASK selects go into the pending copies: VADDR0-2 and OADDR. -/
def writeAddrs (h mask : Nat) (l : List Byte) (s : State) : State :=
  forAll (onBits 4 mask) (fun k s =>
    regSet s (if k < 3 then (Reg.DSP.VPLANE4.word h).addr + 4 * k else (Reg.DSP.OVL4.word h).addr) (BitVec.ofNat 32 (field l (4 * k) 4))) s

/-- Lines the buffer may hold, the one being output among them, and the request when few remain: LOW or fewer complete lines ahead
(R362). -/
def ask (h : Nat) (s : State) : State :=
  let x := head s h
  if lowLines s h < x.buf.length ∨ s1Up s = false then s
  else
    let out := if rd (Reg.DSP.STAT.SSTATE h) s = 1 ∧ x.fresh = false then 1 else 0
    let room := capLines x.active - out - x.buf.length - x.asked.length
    let va := tVACT x.timing
    let r := (List.range (min room va)).foldl (fun (r : List Nat × Option Nat) _ =>
      match r.2 with
      | none => r
      | some n => (r.1 ++ [n], if n + 1 < va then some (n + 1) else if x.cmdMode then none else some 0)) (x.asked, x.nextAsk)
    setHead h { x with asked := r.1, nextAsk := r.2 } s

/-- The head is off: no lines, no fetches, and commands that waited end with ST_TIMEOUT (R366, R368). -/
def headOff (h : Nat) (s : State) : State :=
  let ws := (head s h).waits
  let s := updHead h (fun x => { x with running := false, stopping := false, waits := [], buf := [], asked := [], nextAsk := none, out := [] }) s
  let s := wr (Reg.DSP.STAT.FLIPPEND h) 0 (wr (Reg.DSP.CFG.FLIP h) 0 (wr (Reg.DSP.STAT.SSTATE h) 0 (wr (Reg.DSP.STAT.LINE h) 0 s)))
  forAll ws (fun o s => reply o ST_TIMEOUT [] s) s

/-- EN 0 to 1 (R356, R357). Scan-out needs the Deep Comb (Table 1.8): while S1 is out of service EN stays 0 (notes/assumptions/46). -/
def headEnable (h : Nat) (s : State) : State :=
  let t := timingRegs s h
  let cmd := rdB (Reg.DSP.CFG.CMD h) s
  if !s1Up s then wr (Reg.DSP.CFG.EN h) 0 s
  else if timingOk t && planesOk s h (pendingRegs s h) && outputOk s h t cmd then
    let s := wr (Reg.DSP.CFG.EN h) 1 (updHead h (fun x => { x with
      running := true, timing := t, cmdMode := cmd, stopping := false, fresh := true, underSaid := false, lineAt := s.now }) s)
    let s := wr (Reg.DSP.STAT.GEN h) 0 (takePending h s)
    let s := wr (Reg.DSP.STAT.SSTATE h) (if cmd then 3 else 2) (wr (Reg.DSP.STAT.LINE h) (if cmd then 0 else tVTOT t - 1) s)
    if cmd then s else ask h s
  else dspErr (Reg.DSP.STAT.TIM_ERR h) (srcTIM_ERR h) (wr (Reg.DSP.CFG.EN h) 0 s)

/-- A write of DSPn.CFG.EN (R356, R368). A head enabled before it has stopped goes off first (notes/assumptions/46). -/
def headEnWrite (h : Nat) (en : Bool) (s : State) : State :=
  let was := rdB (Reg.DSP.CFG.EN h) s
  if en && !was then headEnable h (if (head s h).stopping then headOff h s else s)
  else if was && !en then
    updHead h (fun x => { x with stopping := true })
      (wr (Reg.DSP.CFG.EN h) 0 (wr (Reg.DSP.STAT.FLIPPEND h) 0 (wr (Reg.DSP.CFG.FLIP h) 0 s)))
  else s

/-- DSP_CFG_EN_WRITE (R356). -/
def execDspCfgEnWrite (h : Fin 2) (en : Bool) (s : State) : Res :=
  access (Reg.DSP.CFG.word h.val).addr (fun s => headEnWrite h.val en s) s

/-- A write of DSPn.CFG. -/
def dspCfgWrite (h : Nat) (v : Word) (s : State) : State :=
  let s := wr (Reg.DSP.CFG.CMD h) (bits 30 30 v.toNat) (wr (Reg.DSP.CFG.VBEVT h) (bits 29 29 v.toNat)
    (wr (Reg.DSP.CFG.EVTUN h) (bits 13 0 v.toNat) s))
  let s := headEnWrite h (bit 31 v.toNat) s
  if bit 28 v.toNat then (armFlip h s).2 else s

/-- HEAD_STOP (R367, R368): a head whose EN was cleared, or whose die is quiescing, ends its frame or transfer. -/
def execHeadStop (h : Fin 2) (s : State) : Res :=
  if (head s h.val).stopping || ((head s h.val).running && domSt s 0x15 == .quiescing) then .next (headOff h.val s) else .next s

/-- DOMAIN_RETURN of S5 without a reset: heads whose EN is still 1 start again. -/
def headsReturn (s : State) : State :=
  forAll [0, 1] (fun h s => if rdB (Reg.DSP.CFG.EN h) s && !(head s h).running then headEnable h (wr (Reg.DSP.CFG.EN h) 0 s) else s) s

/-- DOMAIN_RESET of S5 (R367): the heads are off; their registers go back with the die's. -/
def headsReset (s : State) : State := forAll [0, 1] (fun h s => setHead h Head.reset (headOff h s)) s

/-! Fetch (R362). -/

/-- The rows of one active line (R355). -/
def fetchLine (s : State) (p : List Word) (l : Nat) : FbLine :=
  let f := vFMT p
  let sz := vS p
  let inV := vEN p && vY p ≤ l && l < vY p + vH p
  let y := l - vY p
  let cy := (vSY p + y) / subV f
  let c0 := vSX p / subH f
  let cw := (vSX p + vW p + subH f - 1) / subH f - c0
  let cs := if twoPlane f then 2 * sz else sz
  let inO := oEN p && oY p ≤ l && l < oY p + oH p
  { line := l
    luma := if inV then deepReads s (vAddr p 0 + (vSY p + y) * vStride0 p + vSX p * sz) (vW p * sz) else []
    cb := if inV then deepReads s (vAddr p 1 + cy * vStride1 p + c0 * cs) (cw * cs) else []
    cr := if inV && !twoPlane f then deepReads s (vAddr p 2 + cy * vStride1 p + c0 * cs) (cw * cs) else []
    ov := if inO then deepReads s (oAddr p + (oSY p + (l - oY p)) * oStride p + oSX p * oB p) (oW p * oB p) else [] }

/-- FETCH_COMPLETE (R362, R364): the next line requested is read; `readable` is false after three failed reads.
Fetches are delayed while the die's frames wait (R186), and a read waits for the memory controller (R48). -/
def execFetchComplete (h : Fin 2) (readable : Bool) (s : State) : Res :=
  let h := h.val
  let x := head s h
  if !tvWorks s || !dcmServes s 1 || linkState s 5 == 4 || originHeld s 5 then .next s
  else match x.asked with
    | [] => .next s
    | l :: ls =>
      let s := updHead h (fun x => { x with asked := ls }) s
      if readable then .next (updHead h (fun x => { x with buf := x.buf ++ [fetchLine s x.active l] }) s)
      else .next (dspErr (Reg.DSP.STAT.FB_ERR h) (srcFB_ERR h) (count (cDSP h 1) s))

/-! Composition (R353, R354). -/

/-- A sample of `sz` bytes, least significant first, `n` bits MSB-aligned in its container, at index `i`. -/
def sample (l : List Byte) (sz n i : Nat) : Nat := leNat ((l.drop (i * sz)).take sz) / 2 ^ (8 * sz - n)

def clip01 (x : ℚ) : ℚ := max 0 (min 1 x)

/-- Kr and Kb of a matrix in 1/10,000: BT.601, BT.709, BT.2020 (notes/assumptions/28). -/
def kr (m : Nat) : ℚ := match m with
  | 0 => 2990 / 10000
  | 1 => 2126 / 10000
  | _ => 2627 / 10000
def kb (m : Nat) : ℚ := match m with
  | 0 => 1140 / 10000
  | 1 => 722 / 10000
  | _ => 593 / 10000

/-- YCbCr of `n` bits to RGB between 0 and 1 (notes/assumptions/28). -/
def toRgb (m : Nat) (full : Bool) (n y cb cr : Nat) : ℚ × ℚ × ℚ :=
  let k : ℚ := 2 ^ (n - 8)
  let yy : ℚ := if full then y / (2 ^ n - 1) else (y - 16 * k) / (219 * k)
  let c := fun (v : Nat) => if full then ((v : ℚ) - 2 ^ (n - 1)) / (2 ^ n - 1) else ((v : ℚ) - 128 * k) / (224 * k)
  let r := yy + 2 * (1 - kr m) * c cr
  let b := yy + 2 * (1 - kb m) * c cb
  let g := (yy - kr m * r - kb m * b) / (1 - kr m - kb m)
  (clip01 r, clip01 g, clip01 b)

/-- The video sample of a pixel of a line, `none` outside the plane. -/
def videoPixel (p : List Word) (l : FbLine) (x : Nat) : Option (ℚ × ℚ × ℚ) :=
  if l.luma = [] ∨ x < vX p ∨ vX p + vW p ≤ x then none
  else
    let f := vFMT p
    let i := x - vX p
    let c := (vSX p + i) / subH f - vSX p / subH f
    let sz := vS p
    let n := vDepth p
    let cb := if twoPlane f then sample l.cb sz n (2 * c) else sample l.cb sz n c
    let cr := if twoPlane f then sample l.cb sz n (2 * c + 1) else sample l.cr sz n c
    some (toRgb (wordField p 0 25 24) (wordField p 0 23 23 == 1) n (sample l.luma sz n i) cb cr)

/-- The overlay word of a pixel, ARGB8888 or through the palette, `none` outside it. -/
def overlayPixel (p : List Word) (pal : List Byte) (l : FbLine) (x : Nat) : Option Nat :=
  if l.ov = [] ∨ x < oX p ∨ oX p + oW p ≤ x then none
  else
    let i := x - oX p
    if oPal p then some (leNat ((pal.drop (4 * (l.ov.getD i 0).toNat)).take 4)) else some (leNat ((l.ov.drop (4 * i)).take 4))

/-- Rounds to the nearest value of `n` bits. -/
def roundTo (n : Nat) (x : ℚ) : Nat := (x * (2 ^ n - 1) + 1 / 2).floor.toNat

/-- One output pixel: background, video plane, overlay. -/
def pixel (p : List Word) (pal : List Byte) (bpc : Nat) (l : FbLine) (x : Nat) : Nat × Nat × Nat :=
  let v := (videoPixel p l x).getD (0, 0, 0)
  let v := match overlayPixel p pal l x with
    | none => v
    | some o =>
      let a : ℚ := (bits 31 24 o * wordField p 8 23 16 : Nat) / 65025
      let mix := fun (c : Nat) (b : ℚ) => a * (c / 255) + (1 - a) * b
      (mix (bits 23 16 o) v.1, mix (bits 15 8 o) v.2.1, mix (bits 7 0 o) v.2.2)
  (roundTo bpc v.1, roundTo bpc v.2.1, roundTo bpc v.2.2)

/-- The underrun colour at the output depth. -/
def underColour (s : State) (h bpc : Nat) : Nat × Nat × Nat :=
  let f := fun c : Nat => if bpc = 8 then c / 4 else c
  (f (rd (Reg.DSP.UCOLOR.R h) s), f (rd (Reg.DSP.UCOLOR.G h) s), f (rd (Reg.DSP.UCOLOR.B h) s))

/-- The pixels of a stream frame (R361): 3 bytes each, or 10 bits a component, most significant bit first. -/
def packPixels (bpc : Nat) (l : List (Nat × Nat × Nat)) : List Byte :=
  if bpc = 8 then (l.map fun p => [BitVec.ofNat 8 p.1, BitVec.ofNat 8 p.2.1, BitVec.ofNat 8 p.2.2]).flatten
  else
    let bs := (l.map fun p => bitsOf 10 p.1 ++ bitsOf 10 p.2.1 ++ bitsOf 10 p.2.2).flatten
    let n := (bs.length + 7) / 8
    (List.range n).map fun i => BitVec.ofNat 8 (((bs.drop (8 * i)).take 8 ++ List.replicate 8 false).take 8 |>.foldl (fun a b => 2 * a + ofBool b) 0)

/-! The DP stream (R361). -/

def dmxHeld (s : State) (h : Nat) : Bool := if h = 0 then rdB Reg.DMX.STAT.HELD0 s else rdB Reg.DMX.STAT.HELD1 s
def dmxHpd (s : State) (h : Nat) : Bool := if h = 0 then rdB Reg.DMX.STAT.HPD0 s else rdB Reg.DMX.STAT.HPD1 s
def dmxW4 (s : State) (h : Nat) : Bool := if h = 0 then rdB Reg.DMX.STAT.W4_0 s else rdB Reg.DMX.STAT.W4_1 s

/-- Sends the stream frame of a line. -/
def sendStream (h line : Nat) (px : List (Nat × Nat × Nat)) (s : State) : State :=
  if headOut s h = 2 ∧ dmxHeld s h = true ∧ dmxHpd s h = true then
    let t := (head s h).timing
    let bpc := tBPC t
    if (if dmxW4 s h then 25920000 else 12960000) < tPCLK t * 3 * bpc then
      raise (srcBWERR h) (wr (if h = 0 then Reg.DMX.STAT.BWERR0 else Reg.DMX.STAT.BWERR1) 1 s)
    else
      let b := beBytes 1 h ++ beBytes 1 (ofBool (line == 0) + 2 * ofBool (bpc == 10)) ++ beBytes 2 line ++ [0, 0, 0, 0] ++ packPixels bpc px
      originate 5 (if h = 0 then rd Reg.DMX.ROUTE.TUN0 s else rd Reg.DMX.ROUTE.TUN1 s) b s
  else s

/-- Active line `l` goes out (R353, R361, R364). -/
def outputLine (h l : Nat) (s : State) : State :=
  let x := head s h
  let bpc := tBPC x.timing
  let buf := x.buf.dropWhile fun e => e.line != l
  let cols := List.range (tHACT x.timing)
  match buf with
  | e :: rest =>
    let px := cols.map (pixel x.active x.palette bpc e)
    sendStream h l px (updHead h (fun x => { x with buf := rest, out := px }) s)
  | [] =>
    let px := cols.map fun _ => underColour s h bpc
    let said := x.underSaid
    let s := updHead h (fun x =>
      { x with
        out := px
        underSaid := true
        asked := x.asked.filter (· != l)
        nextAsk := if x.nextAsk = some l then (if l + 1 < tVACT x.timing then some (l + 1) else if x.cmdMode then none else some 0) else x.nextAsk }) s
    let s := count (cDSP h 0) s
    let s := if said then s
      else sendDisp h 4 (beBytes 8 (lineNs s) ++ beBytes 2 l ++ [0, 0]) (dspErr (Reg.DSP.STAT.UNDER h) (srcUNDERRUN h) s)
    sendStream h l px s

/-- LINE_START (R362, R364). The start of line VACT of a video head is VBLANK. -/
def execLineStart (h : Fin 2) (s : State) : Res :=
  let h := h.val
  let x := head s h
  let st := rd (Reg.DSP.STAT.SSTATE h) s
  let cur := rd (Reg.DSP.STAT.LINE h) s
  if !x.running || !tvWorks s || st == 0 || st == 3 then .next s
  else if st = 1 ∧ x.fresh = false ∧ cur + 1 = tVACT x.timing then
    .next (if x.cmdMode then wr (Reg.DSP.STAT.SSTATE h) 3 (wr (Reg.DSP.STAT.LINE h) 0 s) else s)
  else
    let l := if x.fresh ∨ tVTOT x.timing ≤ cur + 1 then 0 else cur + 1
    let s := updHead h (fun x => { x with fresh := false, lineAt := s.now, underSaid := if l = 0 then false else x.underSaid }) s
    let s := wr (Reg.DSP.STAT.LINE h) l s
    if l < tVACT x.timing then .next (ask h (outputLine h l (wr (Reg.DSP.STAT.SSTATE h) 1 s))) else .next (ask h s)

/-- VBLANK (R357, R365): the start of line VACT. -/
def execVblank (h : Fin 2) (s : State) : Res :=
  let h := h.val
  let x := head s h
  if x.running && !x.cmdMode && tvWorks s && rd (Reg.DSP.STAT.SSTATE h) s == 1 then
    let s := updHead h (fun x => { x with lineAt := s.now }) s
    let s := wr (Reg.DSP.STAT.SSTATE h) 2 (wr (Reg.DSP.STAT.LINE h) (tVACT x.timing) s)
    let s := if rdB (Reg.DSP.STAT.FLIPPEND h) s then latchFlip h s else s
    let s := raise (srcVBLANK h) s
    .next (ask h (if rdB (Reg.DSP.CFG.VBEVT h) s then sendDisp h 3 (beBytes 8 (lineNs s)) s else s))
  else .next s

/-- A command-mode transfer starts, and latches (R360). -/
def startTransfer (h : Nat) (s : State) : State :=
  let s := latchFlip h s
  let s := updHead h (fun x => { x with fresh := true, underSaid := false, lineAt := s.now }) s
  ask h (wr (Reg.DSP.STAT.SSTATE h) 1 (wr (Reg.DSP.STAT.LINE h) 0 s))

/-- A command-mode head waits for TE with a flip armed. -/
def waitsTe (s : State) (h : Nat) : Bool :=
  (head s h).running && (head s h).cmdMode && tvWorks s && rd (Reg.DSP.STAT.SSTATE h) s == 3 && rdB (Reg.DSP.STAT.FLIPPEND h) s

/-- TE_EDGE (R360). -/
def execTeEdge (h : Fin 2) (s : State) : Res := if waitsTe s h.val then .next (startTransfer h.val s) else .next s

/-- TE_TIMEOUT (R360). -/
def execTeTimeout (h : Fin 2) (s : State) : Res :=
  if waitsTe s h.val then
    .next (startTransfer h.val (dspErr (Reg.DSP.STAT.TE_MISS h.val) (srcTE_MISS h.val) (count (cDSP h.val 2) s)))
  else .next s

/-! Latency tolerance (R363). -/

/-- Lines from the current one to the first that is not complete. -/
def linesToGap (s : State) (h : Nat) : Nat :=
  let x := head s h
  let k := x.buf.length
  let cur := rd (Reg.DSP.STAT.LINE h) s
  let va := tVACT x.timing
  let vt := tVTOT x.timing
  if x.fresh then k
  else if cur < va then (if cur + 1 + k < va then 1 + k else 1 + k + (vt - va))
  else vt - cur + k

/-- TOL of a head now. -/
def tolNow (s : State) (h : Nat) : Nat :=
  let x := head s h
  let st := rd (Reg.DSP.STAT.SSTATE h) s
  if !x.running || st == 0 || st == 3 || domSt s 0x15 != .inService then 0xFFFFFF
  else min 0xFFFFFE (x.lineAt + linesNs x.timing (linesToGap s h) - s.now - rd (Reg.DSP.LTOL.GUARD h) s * 500)

/-- TOL_PUBLISH (R363). -/
def execTolPublish (h : Fin 2) (s : State) : Res :=
  let t := tolNow s h.val
  let s := wr (Reg.DSP.LTOL.TOL h.val) t s
  .next { s with tols := Tab.set (fun _ => (0xFFFFFF, 0)) h.val (if t = 0xFFFFFF then (t, 0) else (t, s.now)) s.tols }

/-! Frames, routes, commands. -/

/-- FLIP (R365): a FLIP frame that S5 has taken. -/
def execFlip (s : State) : Res :=
  let isFlip := fun f : Frame => f.typ == 6 && field f.bytes 0 1 == 1
  match (takeFrame 10 isFlip s).orElse fun _ => takeFrame 11 isFlip s with
  | none => .next s
  | some (f, s) =>
    let h := field f.bytes 1 1 % 2
    .next (armFlip h (writeAddrs h (field f.bytes 8 1) (f.bytes.drop 12) s)).2

/-- The head is enabled, or still ends its frame. -/
def headBusy (s : State) (h : Nat) : Bool := rdB (Reg.DSP.CFG.EN h) s || (head s h).running

/-- A write of DMX.ROUTE (R368): ST_BUSY where it changes an enabled head's route. -/
def dmxRouteWrite (v : Word) (s : State) : Nat × State :=
  let old := regGet s Reg.DMX.ROUTE.word.addr
  let diff := fun (o t : Fld) => o.of v != o.of old || t.of v != t.of old
  if (headBusy s 0 && diff Reg.DMX.ROUTE.OUT0 Reg.DMX.ROUTE.TUN0) || (headBusy s 1 && diff Reg.DMX.ROUTE.OUT1 Reg.DMX.ROUTE.TUN1) then (ST_BUSY, s)
  else (ST_OK, regSet s Reg.DMX.ROUTE.word.addr v)

/-- DMX_ROUTE_WRITE (R361, R368). -/
def execDmxRouteWrite (v : Word) (s : State) : Res :=
  access Reg.DMX.ROUTE.word.addr (fun s => (dmxRouteWrite v s).2) s

/-- DMX_STATUS_RELAY (R361): the alt-mode fields of the TU port that holds each head. -/
def execDmxStatusRelay (s : State) : Res :=
  let who := fun h : Nat => ((List.range 8).filter fun t => rdB (Reg.TCP.ALT.ACTIVE t) s && rd (Reg.TCP.ALT.HEAD t) s == h).head?
  let put := fun (h : Nat) (held hpd w4 : Fld) (s' : State) => match who h with
    | none => wr held 0 (wr hpd 0 (wr w4 0 s'))
    | some t => wr held 1 (wr hpd (rd (Reg.TCP.ALT.HPD t) s) (wr w4 (ofBool (rd (Reg.TCP.ALT.PINASG t) s == 1)) s'))
  if present s 5 then
    .next (put 0 Reg.DMX.STAT.HELD0 Reg.DMX.STAT.HPD0 Reg.DMX.STAT.W4_0
      (put 1 Reg.DMX.STAT.HELD1 Reg.DMX.STAT.HPD1 Reg.DMX.STAT.W4_1 s))
  else .next s

/-- The status of a display command for a HEAD (R5, R366). -/
def headCheck (s : State) (h : Nat) : Nat := if 1 < h then ST_BAD_PARAM else dieStatus s 5

/-- DSP_FLIP (R366). -/
def execDspFlip (o : Origin) (body : List Byte) (s : State) : Res :=
  command o body 20 (fun s =>
    let h := field body 0 1
    let m := field body 1 1
    let st := headCheck s h
    if bits 6 4 m ≠ 0 ∨ zeroAt body 2 2 = false then reply o ST_BAD_PARAM [] s
    else if st ≠ ST_OK then reply o st [] s
    else
      let (st, s) := armFlip h (writeAddrs h m (body.drop 4) s)
      if st ≠ ST_OK then reply o st [] s
      else if bit 7 m then updHead h (fun x => { x with waits := x.waits ++ [o] }) s
      else reply o ST_OK (beBytes 1 (rd (Reg.DSP.STAT.GEN h) s) ++ List.replicate 11 0) s) s

/-- DSP_STATUS (R366). -/
def execDspStatus (o : Origin) (body : List Byte) (s : State) : Res :=
  command o body 4 (fun s =>
    let h := field body 0 1
    let st := headCheck s h
    if zeroAt body 1 3 = false then reply o ST_BAD_PARAM [] s
    else if st ≠ ST_OK then reply o st [] s
    else
      let w := fun f : Fld => beBytes 4 (regGet s f.addr).toNat
      reply o ST_OK (w (Reg.DSP.STAT.word h) ++ beBytes 4 (regGet (wr (Reg.DSP.LTOL.TOL h) (tolNow s h) s) (Reg.DSP.LTOL.word h).addr).toNat ++ w Reg.DMX.STAT.word ++ [0, 0, 0, 0] ++ beBytes 8 (head s h).latchAt) s) s

/-- DSP_TIMING_LOAD (R356, R366). -/
def execDspTimingLoad (o : Origin) (body : List Byte) (s : State) : Res :=
  command o body 4 (fun s =>
    let h := field body 0 1
    let st := headCheck s h
    if zeroAt body 2 2 = false then reply o ST_BAD_PARAM [] s
    else if st ≠ ST_OK then reply o st [] s
    else match s.timings[field body 1 1]? with
      | none => reply o ST_BAD_PARAM [] s
      | some r =>
        if rdB (Reg.DSP.CFG.EN h) s then reply o ST_BUSY [] s
        else reply o ST_OK [] (forAll (List.range 8) (fun k s =>
          regSet s ((Reg.DSP.TIMING0.word h).addr + 4 * k) (BitVec.ofNat 32 (field r (4 * k) 4))) s)) s

end Sys2Proof.Machine
end

