-- ==== Sys2Proof/Machine/Net.lean ====
section
/-! DEFINITION. The TN dies: VLAN map, wrapping and unwrapping, PAUSE, timestamps in line time, PTP corrections (R370 to R376,
R216 to R218). An Ethernet port is numbered 6 x die + port, die 0 in S3 and die 1 in S7. -/
namespace Sys2Proof.Machine

def eth (s : State) (e : Nat) : EthPort := Tab.get (fun _ => EthPort.reset) s.eths e
def setEth (e : Nat) (x : EthPort) (s : State) : State := { s with eths := Tab.set (fun _ => EthPort.reset) e x s.eths }
def updEth (e : Nat) (f : EthPort → EthPort) (s : State) : State := setEth e (f (eth s e)) s

/-- The slot of an Ethernet port. -/
def ethSlot (e : Nat) : Nat := if e < 6 then 3 else 7

/-- ETH4 and ETH5 are the SFP28 ports. -/
def isSfp (e : Nat) : Bool := 4 ≤ e % 6

/-- The cell channel of an Ethernet port: B for ETH4 and ETH5 (R370). -/
def ethCh (e : Nat) : Nat := if isSfp e then 1 else 0

/-- An Ethernet event of a present TN die that is powered and out of reset. -/
def tnLives (s : State) (e : Nat) : Bool :=
  let d := domSt s (0x10 + ethSlot e)
  present s (ethSlot e) && (d == .inService || d == .quiescing || d == .quiesced || d == .returning)

/-! The FCS of IEEE 802.3. -/

def fcsBit (c : Nat) : Nat := if bit 0 c then (c / 2) ^^^ 0xEDB88320 else c / 2
def fcsByte (c : Nat) (b : Byte) : Nat := fcsBit (fcsBit (fcsBit (fcsBit (fcsBit (fcsBit (fcsBit (fcsBit (c ^^^ b.toNat))))))))

/-- The four FCS bytes of a frame, as sent. -/
def fcsOf (l : List Byte) : List Byte := leBytes 4 ((l.foldl fcsByte 0xFFFFFFFF) ^^^ 0xFFFFFFFF)

/-- The frame ends in its FCS. -/
def fcsGood (l : List Byte) : Bool := l.drop (l.length - 4) == fcsOf (l.take (l.length - 4))

/-! Ingress buffer and PAUSE (R374). -/

/-- The ingress buffer of a port, in bytes. -/
def ethBuffer (e : Nat) : Nat := if isSfp e then 262144 else 65536

/-- Bytes of frames of port `n` in a cell sequence: a first cell names its port, and the rest of its frame follows it. -/
def cellsOfPort (n : Nat) : Bool → List Cell → Nat
  | _, [] => 0
  | mine, c :: l =>
    let mine := if c.f then c.typ == 3 && field c.payload 1 1 == n else mine
    (if mine then c.vlen else 0) + cellsOfPort n mine l

/-- Bytes waiting in a port's ingress buffer: frames held for their origin shaper or the Tolger link, and frames of a die that
is not in service. -/
def ethOcc (s : State) (e : Nat) : Nat :=
  let sl := ethSlot e
  (s.sched.held.filter fun f => f.slot == sl).foldl (fun a f => a + cellsOfPort (e % 6) false f.cells) 0 +
    cellsOfPort (e % 6) false ((waitingOf (tolger s sl true) (ethCh e)).map fun h => h.2.cell) +
    (eth s e).buf.foldl (fun a f => a + f.2.length) 0

/-- A PAUSE frame with these quanta leaves the port. -/
def sendPause (e q : Nat) (s : State) : State := updEth e (fun x => { x with pauseSent := x.pauseSent ++ [q] }) s

/-- The port looks at its buffer (R374): PAUSE at XOFF/256 or above, PAUSE with 0 once it is not above XOFF/512. -/
def pauseCheck (e : Nat) (s : State) : State :=
  let x := eth s e
  let xoff := rd (Reg.ETH.PAUSE.XOFF e) s
  let o := ethOcc s e
  if !rdB (Reg.ETH.PAUSE.EN e) s then updEth e (fun x => { x with pausing := false }) s
  else if x.pausing then
    if o * 512 ≤ xoff * ethBuffer e then sendPause e 0 (updEth e (fun x => { x with pausing := false }) s) else s
  else if xoff * ethBuffer e ≤ o * 256 then
    sendPause e (rd (Reg.ETH.PAUSE.QUANTA e) s) (updEth e (fun x => { x with pausing := true }) s)
  else s

/-- PAUSE_REPEAT (R374). -/
def execPauseRepeat (e : Fin 12) (s : State) : Res :=
  let e := e.val
  let s := updEth e (fun x => { x with pauseSent := [] }) s
  if (eth s e).pausing then
    let s := pauseCheck e s
    .next (if (eth s e).pausing then sendPause e (rd (Reg.ETH.PAUSE.QUANTA e) s) s else s)
  else .next s

/-- The time of `q` pause quanta of 512 bits at the speed in force, in ns. -/
def quantaNs (s : State) (e q : Nat) : Nat :=
  match rd (Reg.ETH.STAT.SPD e) s with
  | 1 => q * 5120
  | 2 => q * 512
  | 3 => q * 2048 / 10
  | 4 => q * 2048 / 100
  | _ => q * 512 / 10

/-- The partner's PAUSE is in force (R374, ETHn.STAT.RXPAUSE). -/
def rxPaused (s : State) (e : Nat) : Bool := s.now < (eth s e).rxPause

/-- PAUSE_FRAME_RECEIVE (R374). -/
def execPauseFrameReceive (e : Fin 12) (quanta : BitVec 16) (s : State) : Res :=
  let e := e.val
  if tnLives s e && rdB (Reg.ETH.STAT.LINK e) s then
    .next (updEth e (fun x => { x with rxPause := s.now + quantaNs s e quanta.toNat }) s)
  else .next s

/-! Timestamps (R375). -/

/-- What corrections of the PHY trims add to a stamp of a port, in 2^-32 ns (R375). -/
def phyOff (s : State) (e : Nat) : Int :=
  let l := (s.trims.filter fun x => x.1 / 65536 == ethSlot e).map fun x => (x.1 % 65536, x.2)
  if l = [] then 0 else Config.phyTrim (e % 6 * 8 + rd (Reg.ETH.STAT.SPD e) s) l

/-- The stamp of a frame whose timestamp point is now: line time with the PHY trims and the port group's TSOFS, in whole ns
(notes/assumptions/29). -/
def ethStamp (s : State) (e : Nat) : Nat :=
  let d := e / 6
  let ofs := signed 16 (if isSfp e then rd (Reg.ETM.TSOFS.OFS_R d) s else rd (Reg.ETM.TSOFS.OFS_T d) s)
  (((s.lt : Int) + phyOff s e + ofs * 2 ^ 32 / 1000) % 2 ^ 96 / 2 ^ 32).toNat % 2 ^ 64

/-! The tunnel of a frame (R371). -/

/-- The TCI of the outer tag, if the frame has one. -/
def outerTag (svlan : Bool) (l : List Byte) : Option Nat :=
  let t := field l 12 2
  if 18 ≤ l.length ∧ (t = 0x8100 ∨ (svlan = true ∧ t = 0x88A8)) then some (field l 14 2) else none

def mapEntry (s : State) (d i : Nat) : Nat := (Tab.get (fun _ => (0 : Word)) s.etm (256 * d + i)).toNat

/-- A map entry takes a frame of this port and VID. -/
def mapTakes (m port vid : Nat) : Bool :=
  bit 31 m && (bits 29 27 m == port || bits 29 27 m == 7) && (bit 26 m || bits 11 0 m == vid)

/-- The first matching entry. -/
def mapFind (s : State) (d port vid : Nat) : Option Nat :=
  if rdB (Reg.ETM.CFG.EN d) s then ((List.range 256).map (mapEntry s d)).find? fun m => mapTakes m port vid else none

/-- The wrapped frame (R216): `l` is the frame with its FCS. -/
def ethWrap (tsv fcsv : Bool) (port : Nat) (strip : Option Nat) (stamp : Nat) (l : List Byte) : List Byte :=
  let body := l.take (l.length - 4)
  let b := if strip.isSome then body.take 12 ++ body.drop 16 else body
  beBytes 1 (ofBool tsv * 128 + ofBool fcsv * 64 + ofBool strip.isSome * 32) ++ beBytes 1 port ++ beBytes 2 (strip.getD 0) ++
    [0, 0, 0, 0] ++ (if tsv then beBytes 8 stamp else []) ++ b ++ (if fcsv then l.drop (l.length - 4) else [])

/-- A wrapped frame enters its tunnel, or waits in the buffer while the die is not in service. -/
def ethEnter (e tun : Nat) (w : List Byte) (s : State) : State :=
  if slotWorks s (ethSlot e) then originate (ethSlot e) tun w s
  else updEth e (fun x => { x with buf := x.buf ++ [(tun, w)] }) s

/-- ETH_FRAME_RECEIVE (R371, R374, R375): `frame` runs from the destination address to the FCS. -/
def execEthFrameReceive (e : Fin 12) (frame : List Byte) (s : State) : Res :=
  let e := e.val
  let d := e / 6
  let s := updEth e (fun x => { x with pauseSent := [] }) s
  if !tnLives s e || !rdB (Reg.ETH.STAT.LINK e) s then .next s
  else if frame.length < 64 ∨ 9216 < frame.length ∨ fcsGood frame = false then .next (count (cETH e 10) s)
  else
    let s := countBy (cETH e 2) frame.length (count (cETH e 0) s)
    if ethBuffer e < ethOcc s e + frame.length then .next (pauseCheck e (raise (srcETH_OVF d) (count (cETH e 5) s)))
    else
      let tag := outerTag (rdB (Reg.ETH.VLAN.SVLAN e) s) frame
      let (tun, strip) := match mapFind s d (e % 6) (tag.getD 0 % 4096) with
        | some m => (bits 25 12 m, if bit 30 m then tag else none)
        | none => (rd (Reg.ETH.VLAN.DTUN e) s, none)
      if tun = 0 ∨ isRepeater s = true then .next (count (cETH e 4) s)
      else
        let u := match originEntry s (ethSlot e) tun with
          | some x => orgUCTX x
          | none => 0
        .next (pauseCheck e (ethEnter e tun (ethWrap (bit 0 u) (bit 1 u) (e % 6) strip (ethStamp s e) frame) s))

/-- The die is in service again: what waited in its ingress buffers enters its tunnels. -/
def ethFlush (d : Nat) (s : State) : State :=
  forAll (List.range 6) (fun k s =>
    let e := 6 * d + k
    let l := (eth s e).buf
    forAll l (fun f s => originate (ethSlot e) f.1 f.2 s) (updEth e (fun x => { x with buf := [] }) s)) s

/-! Egress (R218, R376). -/

/-- ETHn.MAXLEN.MAXLEN, clamped. -/
def ethMax (s : State) (e : Nat) : Nat := max 64 (min 9216 (rd (Reg.ETH.MAXLEN.MAXLEN e) s))

/-- A terminated ETH frame is unwrapped and waits at its egress port (R218). -/
def ethUnwrap (d : Nat) (f : Frame) (s : State) : State :=
  let e := 6 * d + f.ctx % 8
  let l := f.bytes
  let h := field l 0 1
  let tsv := bit 7 h
  let fcsv := bit 6 h
  let vs := bit 5 h
  let o := 8 + 8 * ofBool tsv
  let n := l.length - o - 4 * ofBool fcsv
  if h % 32 ≠ 0 ∨ zeroAt l 4 4 = false ∨ l.length < o + 14 + 4 * ofBool fcsv then count (cETH e 8) s
  else
    let b := (l.drop o).take n
    let tagged := vs && rdB (Reg.ETH.VLAN.KEEP e) s
    let b := if tagged then b.take 12 ++ [0x81, 0x00] ++ (l.drop 2).take 2 ++ b.drop 12 else b
    let fcs := if fcsv && !vs && 60 ≤ b.length then some (l.drop (o + n)) else none
    let b := if b.length < 60 then padTo 60 b else b
    if ethMax s e < b.length + 4 then count (cETH e 9) s
    else updEth e (fun x => { x with egress := x.egress ++ [{ bytes := b, fcs := fcs, stamp := if tsv then some (field l 8 8) else none }] }) s

/-- Where the protocol of a frame starts: past up to two tags. -/
def etherAt (l : List Byte) : Nat :=
  let tag := fun i => field l i 2 == 0x8100 || field l i 2 == 0x88A8
  if tag 12 then (if tag 16 then 20 else 16) else 12

/-- A PTP event message (R376): where its PTP header starts, the UDP header if there is one, and whether it is carried by IPv6. -/
def ptpAt (l : List Byte) : Option (Nat × Option Nat × Bool) :=
  let i := etherAt l
  let t := field l i 2
  let udp := fun u v6 => if field l (u + 2) 2 = 319 then some (u + 8, some u, v6) else none
  let r :=
    if t = 0x88F7 then some (i + 2, none, false)
    else if t = 0x0800 then
      (if field l (i + 11) 1 = 17 ∧ field l (i + 8) 2 % 8192 = 0 then udp (i + 2 + 4 * (field l (i + 2) 1 % 16)) false else none)
    else if t = 0x86DD then (if field l (i + 8) 1 = 17 then udp (i + 42) true else none)
    else none
  match r with
  | some (p, u, v6) => if p + 44 ≤ l.length ∧ field l p 1 % 16 < 4 then some (p, u, v6) else none
  | none => none

/-- `l` with the bytes `b` put at `i`. -/
def putAt (l : List Byte) (i : Nat) (b : List Byte) : List Byte := l.take i ++ b ++ l.drop (i + b.length)

/-- The UDP checksum over IPv4 is set to 0. -/
def noUdpSum (u : Option Nat) (l : List Byte) : List Byte := match u with
  | some i => putAt l (i + 6) [0, 0]
  | none => l

/-- What the egress side does to an event message (R376): the frame, or `none` where it is left and counted as PTP_SKIP. -/
def ptpEgress (mode stamp : Nat) (x : EthOut) (p : Nat) (u : Option Nat) (v6 : Bool) : Option (List Byte) :=
  if mode = 2 then
    if v6 then none
    else if field x.bytes p 1 % 16 = 0 ∧ bit 1 (field x.bytes (p + 6) 1) = false then
      some (noUdpSum u (putAt x.bytes (p + 34) (beBytes 6 (stamp / 1000000000) ++ beBytes 4 (stamp % 1000000000))))
    else some x.bytes
  else if mode = 3 then
    match x.stamp with
    | none => none
    | some t =>
      if v6 then none
      else some (noUdpSum u (putAt x.bytes (p + 8)
        (beBytes 8 ((field x.bytes (p + 8) 8 + (stamp + 2 ^ 64 - t % 2 ^ 64) % 2 ^ 48 * 2 ^ 16) % 2 ^ 64))))
  else some x.bytes

/-- The two-step report of mode 1. -/
def ptpReport (e stamp p : Nat) (l : List Byte) : List Byte :=
  beBytes 8 stamp ++ (l.drop (p + 30)).take 2 ++ beBytes 1 (field l p 1 % 16) ++ (l.drop (p + 4)).take 1 ++ beBytes 1 (e % 6) ++ [0, 0, 0]

/-- ETH_FRAME_TRANSMIT (R375, R376): the oldest frame of the port leaves, stamped. -/
def execEthFrameTransmit (e : Fin 12) (s : State) : Res :=
  let e := e.val
  match (eth s e).egress with
  | [] => .next s
  | x :: rest =>
    if !tnLives s e || !rdB (Reg.ETH.STAT.LINK e) s || rxPaused s e then .next s
    else
      let t := ethStamp s e
      let mode := rd (Reg.ETH.TSCFG.MODE e) s
      let (b, s) := match (if mode = 0 then none else ptpAt x.bytes) with
        | none => (x.bytes, s)
        | some (p, u, v6) =>
          match ptpEgress mode t x p u v6 with
          | none => (x.bytes, count (cETH e 7) s)
          | some b =>
            (b, if mode = 1 then originate (ethSlot e) (rd (Reg.ETH.TSCFG.RTUN e) s) (ptpReport e t p x.bytes) s else s)
      let fcs := match x.fcs with
        | some f => if b = x.bytes then f else fcsOf b
        | none => fcsOf b
      let s := countBy (cETH e 3) (b.length + 4) (count (cETH e 1) s)
      .next (updEth e (fun y => { y with egress := rest, out := some (b ++ fcs, false) }) s)

/-! Links (R370, R386). -/

/-- The speed may come up on the port. -/
def spdOk (s : State) (e spd : Nat) : Bool :=
  let c := rd (Reg.ETH.CFG.SPEED e) s
  if isSfp e then spd == (if c = 5 then 5 else 4)
  else (spd == 1 || spd == 2 || spd == 3) && (c == spd || c == 0 || 3 < c)

/-- ETH_LINK_UP (R370). -/
def execEthLinkUp (e : Fin 12) (spd : Fin 8) (s : State) : Res :=
  let e := e.val
  if tnLives s e && rdB (Reg.ETH.CFG.EN e) s && spdOk s e spd.val && !rdB (Reg.ETH.STAT.LINK e) s then
    .next (raise (srcETHLINK e) (wr (Reg.ETH.STAT.SPD e) spd.val (wr (Reg.ETH.STAT.LINK e) 1 s)))
  else .next s

/-- The link goes down; `busy` says that the frame at the head is on the wire (R386). -/
def ethDown (e : Nat) (busy : Bool) (s : State) : State :=
  if rdB (Reg.ETH.STAT.LINK e) s then
    let s := match busy, (eth s e).egress with
      | true, x :: rest => count (cETH e 6) (updEth e (fun y => { y with egress := rest, out := some (x.bytes, true) }) s)
      | _, _ => s
    let s := updEth e (fun x => { x with rxPause := 0, pausing := false }) s
    raise (srcETHLINK e) (wr (Reg.ETH.STAT.SPD e) 0 (wr (Reg.ETH.STAT.LINK e) 0 s))
  else s

/-- ETH_LINK_LOST (R386). -/
def execEthLinkLost (e : Fin 12) (busy : Bool) (s : State) : Res := .next (ethDown e.val busy s)

/-- A write of ETHn.CFG: a disabled port or a new speed drops the link. -/
def ethCfgWrite (e : Nat) (v : Word) (s : State) : State :=
  let old := rd (Reg.ETH.CFG.SPEED e) s
  let s := regSet s (Reg.ETH.CFG.word e).addr (maskW 0xF0000000 v)
  if !rdB (Reg.ETH.CFG.EN e) s || rd (Reg.ETH.CFG.SPEED e) s != old then ethDown e false s else s

/-- A TN die is reset (R44): its links drop, and what its ports held is gone. -/
def tnReset (d : Nat) (s : State) : State :=
  { s with eths := Tab.keep (fun e => e / 6 != d) s.eths, etm := Tab.keep (fun k => k / 256 != d) s.etm }

/-! The VLAN map's staging (R373). -/

/-- ETM.VCTL.APPLY by a requester. -/
def vctlApply (r : EntryPoint) (d : Nat) (s : State) : Nat × State :=
  let m := staged s r (Reg.ETM.VMAP.word d)
  if bits 29 27 m.toNat = 6 ∨ (bit 31 m.toNat = true ∧ bits 25 12 m.toNat = 0) then (ST_BAD_PARAM, s)
  else (ST_OK, { s with etm := Tab.set (fun _ => (0 : Word)) (256 * d + rd ((Reg.ETM.VSEL.INDEX d).mine r) s) m s.etm })

/-- ETM_VCTL_APPLY (R373). -/
def execEtmVctlApply (req : EntryPoint) (die : Fin 2) (s : State) : Res :=
  access (Reg.ETM.VCTL.word die.val).addr (fun s => (vctlApply req die.val s).2) s

/-- ETM.VCTL.LOAD by a requester. -/
def vctlLoad (r : EntryPoint) (d : Nat) (s : State) : State :=
  regSet s ((Reg.ETM.VMAP.word d).mine r).addr (BitVec.ofNat 32 (mapEntry s d (rd ((Reg.ETM.VSEL.INDEX d).mine r) s)))

/-- ETM_VCTL_LOAD (R373). -/
def execEtmVctlLoad (req : EntryPoint) (die : Fin 2) (s : State) : Res :=
  access (Reg.ETM.VCTL.word die.val).addr (fun s => vctlLoad req die.val s) s

end Sys2Proof.Machine
end

