-- ==== Sys2Proof/Machine/HostIf.lean ====
section
/-! DEFINITION. The host interface of the TS die in BAR0: the mailbox, TX_GO, the receive queues and their MSI-X vectors
(R378 to R381, Table 15.1). Offsets count from BAR0 0x0200_0000. -/
namespace Sys2Proof.Machine

def updHost (f : HostIf → HostIf) (s : State) : State := { s with hostIf := f s.hostIf }
def zeroW : Nat → Word := fun _ => 0
def hostWord (s : State) (off : Nat) : Nat := (Tab.get zeroW s.hostIf.words off).toNat
def setHostWord (off : Nat) (v : Word) (s : State) : State := updHost (fun h => { h with words := Tab.set zeroW off v h.words }) s

/-- The TS die answers at its endpoint: its link is up, and quiescing leaves mailbox and direct window up (Table 15.2). -/
def tsLives (s : State) : Bool :=
  let d := domSt s 0x14
  present s 4 && (d == .inService || d == .quiescing || d == .quiesced) && rdB Reg.PCE.STAT.LINKUP s

/-! The mailbox (R379). -/

/-- MB_STAT.CFREE. -/
def cfree (s : State) : Bool := s.hostIf.cfreeAt ≤ s.now

/-- A write of MB_SUBMIT. -/
def mbSubmit (len : Nat) (s : State) : State :=
  if !tsLives s || !rdB Reg.PCE.MBOX_CTL.MEN s then s
  else if !cfree s || 8216 < len then updHost (fun h => { h with err := true }) s
  else if len < 16 then count (cCMD 0) s
  else
    let l := Tab.getMany deepDefault s.hostIf.cmdBuf 0 len
    accept (carrier .host .mbox) l (updHost (fun h => { h with cfreeAt := s.now + 1000 + (len + 15) / 16, cfreeSaid := false }) s)

/-- MB_SUBMIT (R379). -/
def execMbSubmit (len : BitVec 16) (s : State) : Res := .next (mbSubmit len.toNat s)

/-- The oldest reply that waits goes into the free RSP_BUF, which frees its tag (R263). -/
def rspAdvance (s : State) : State :=
  if s.hostIf.rsp.isSome then s
  else match takeFirst (fun r : Reply => r.att == .mbox) s.cmd.replies with
    | none => s
    | some (r, rest) =>
      msix 0 (updHost (fun h => { h with rsp := some r }) (freeTag r (updCmd (fun c => { c with replies := rest }) s)))

/-- A write of MB_RELEASE. -/
def mbRelease (s : State) : State := if tsLives s then rspAdvance (updHost (fun h => { h with rsp := none }) s) else s

/-- MB_RELEASE (R379). -/
def execMbRelease (s : State) : Res := .next (mbRelease s)

/-- A read of MB_STAT; ERR is cleared. -/
def readMbStat (s : State) : Word × State :=
  let h := s.hostIf
  let n := match h.rsp with
    | none => 0
    | some r => r.bytes.length
  (BitVec.ofNat 32 (ofBool (cfree s) * 2 ^ 31 + ofBool h.rsp.isSome * 2 ^ 30 + ofBool h.err * 2 ^ 29 + freeTags s * 2 ^ 16 +
    n % 65536), updHost (fun h => { h with err := false }) s)

/-- MB_STAT_READ (R378). -/
def execMbStatRead (s : State) : Res := .next (if tsLives s then returned (readMbStat s) else s)

/-! TX_GO (R380). -/

/-- TX_STAT.TXFREE: no frame of the TS waits for its shaper or the Tolger link. -/
def txFree (s : State) : Bool := !(s.sched.held.any fun f => f.slot == 4) && waitingOf (tolger s 4 true) 0 == []

/-- A write of TX_GO: a frame whose tunnel has no origin entry in S4, or that the entry does not take, sets TXERR. -/
def txGo (len tun : Nat) (s : State) : State :=
  if !tsLives s || !rdB Reg.PCE.MBOX_CTL.MEN s then s
  else if domSt s 0x14 != .inService || !txFree s || len == 0 then updHost (fun h => { h with txErr := true }) s
  else
    let bad := match originEntry s 4 tun with
      | none => true
      | some e => orgMAXLEN e < len || 14848 < len
    let s := originate 4 tun (Tab.getMany deepDefault s.hostIf.txBuf 0 len) s
    if bad then updHost (fun h => { h with txErr := true }) s
    else if txFree s then msix 1 s
    else updHost (fun h => { h with txWait := true }) s

/-- TX_GO (R380). -/
def execTxGo (len tun : BitVec 14) (s : State) : Res := .next (txGo len.toNat tun.toNat s)

/-- A read of TX_STAT; TXERR is cleared. -/
def readTxStat (s : State) : Word × State :=
  (BitVec.ofNat 32 (ofBool (txFree s) * 2 ^ 31 + ofBool s.hostIf.txErr * 2 ^ 30), updHost (fun h => { h with txErr := false }) s)

/-- TX_STAT_READ (R378). -/
def execTxStatRead (s : State) : Res := .next (if tsLives s then returned (readTxStat s) else s)

/-! Receive queues (R380, R381). -/

def rqLo (s : State) (q : Nat) : Nat := hostWord s (0x100 + 16 * q)
def rqEn (s : State) (q : Nat) : Bool := bit 4 (rqLo s q)
/-- Slots of a queue: 2^LSIZE, LSIZE held within 1 to 12. -/
def rqSize (s : State) (q : Nat) : Nat := 2 ^ max 1 (min 12 (rqLo s q % 16))
def rqBase (s : State) (q : Nat) : Nat := hostWord s (0x104 + 16 * q) * 2 ^ 32 + rqLo s q / 2 ^ 14 * 2 ^ 14
def rqPi (s : State) (q : Nat) : Nat := Tab.get zeroN s.hostIf.pi_ q
def rqCi (s : State) (q : Nat) : Nat := hostWord s (0x10C + 16 * q) % 65536

/-- The vector of a queue, at most once per PCE.MSIX_CFG.MOD µs (R381). -/
def rqVector (q : Nat) (s : State) : State :=
  let at_ := Tab.get (fun _ => 0) s.hostIf.vecAt q
  if at_ = 0 ∨ at_ - 1 + rd Reg.PCE.MSIX_CFG.MOD s * 1000 ≤ s.now then
    msix (2 + q) (updHost (fun h => { h with vecAt := Tab.set zeroN q (s.now + 1) h.vecAt, vecWait := h.vecWait.filter (· != q) }) s)
  else updHost (fun h => { h with vecWait := if h.vecWait.contains q then h.vecWait else h.vecWait ++ [q] }) s

/-- The slot of a frame: its 16-byte header, little-endian, and the frame. -/
def rqSlot (f : Frame) : List Byte :=
  leBytes 4 f.bytes.length ++ leBytes 2 f.src ++ leBytes 2 f.tun ++ leBytes 1 f.typ ++ leBytes 1 f.tc ++ List.replicate 6 0 ++ f.bytes

/-- A frame for a receive queue: written and PI advanced, discarded where EN is 0, or held by a full queue or an endpoint that
may not be bus master (notes/assumptions/30). -/
def rqDeliver (f : Frame) (s : State) : State :=
  let q := f.ctx % 16
  let n := rqSize s q
  if !rqEn s q then count (cPCE 0) s
  else if (rqPi s q + 65536 - rqCi s q) % 65536 = n ∨ rdB Reg.PCE.STAT.BME s = false then updHost (fun h => { h with held := some f }) s
  else
    let a := rqBase s q + 16384 * (rqPi s q % n)
    rqVector q (updHost (fun h =>
      { h with
        pi_ := Tab.set zeroN q ((rqPi s q + 1) % 65536) h.pi_
        sent := h.sent ++ [.write a (rqSlot f)] }) s)

/-- The frame held at P8 is tried again. -/
def rqRetry (s : State) : State :=
  match s.hostIf.held with
  | none => s
  | some f => rqDeliver f (updHost (fun h => { h with held := none }) s)

/-- RQ_CI_WRITE (R380). -/
def execRqCiWrite (q : Fin 16) (ci : BitVec 16) (s : State) : Res :=
  if tsLives s then .next (rqRetry (setHostWord (0x10C + 16 * q.val) (BitVec.ofNat 32 ci.toNat) s)) else .next s

/-! The words of Table 15.1. -/

/-- The bits that a word of the host interface keeps; 0 for an offset that holds none. -/
def hostMask (off : Nat) : Nat :=
  if off = 0x20 then 0xFFFF0001
  else if off = 0x24 then 0xFFFFFFFF
  else if 0x100 ≤ off ∧ off < 0x200 then
    match off % 16 with
    | 0 => 0xFFFFC01F
    | 4 => 0xFFFFFFFF
    | 12 => 0xFFFF
    | _ => 0
  else if 0x100000 ≤ off ∧ off < 0x100000 + 16 * 34 then 0xFFFFFFFF
  else 0

/-- Vectors that were pending and are masked no longer are signalled. -/
def unmasked (s : State) : State := forAll ((s.hostIf.pba.filter fun e => e.2).map fun e => e.1) msix s

/-- A write of a DWORD of the S1 stripe by the server (R378). -/
def hostIfWrite (off : Nat) (v : Word) (s : State) : State :=
  if !tsLives s then s
  else if off = 0x4 then mbSubmit (v.toNat % 65536) s
  else if off = 0x8 then mbRelease s
  else if off = 0x10 then txGo (bits 29 16 v.toNat) (bits 13 0 v.toNat) s
  else if 0x1000 ≤ off ∧ off < 0x5000 then
    if cfree s then updHost (fun h => { h with cmdBuf := Tab.setMany deepDefault (off - 0x1000) (leBytes 4 v.toNat) h.cmdBuf }) s
    else updHost (fun h => { h with err := true }) s
  else if 0x10000 ≤ off ∧ off < 0x14000 then
    updHost (fun h => { h with txBuf := Tab.setMany deepDefault (off - 0x10000) (leBytes 4 v.toNat) h.txBuf }) s
  else if hostMask off = 0 then s
  else rqRetry (unmasked (setHostWord off (maskW (hostMask off) v) s))

/-- A read of a DWORD of the S1 stripe by the server (R378). -/
def hostIfRead (off : Nat) (s : State) : Word × State :=
  if off = 0 then readMbStat s
  else if off = 0x14 then readTxStat s
  else if 0x100 ≤ off ∧ off < 0x200 ∧ off % 16 = 8 then (BitVec.ofNat 32 (Tab.get zeroN s.hostIf.pi_ ((off - 0x100) / 16) % 65536), s)
  else if 0x8000 ≤ off ∧ off < 0xC000 then
    (match s.hostIf.rsp with
      | none => 0
      | some r => BitVec.ofNat 32 (leNat ((r.bytes.drop (off - 0x8000)).take 4)), s)
  else if off = 0x101000 ∨ off = 0x101004 then
    (BitVec.ofNat 32 ((List.range 32).foldl (fun a i => a + ofBool (Tab.get noB s.hostIf.pba (8 * (off - 0x101000) + i)) * 2 ^ i) 0), s)
  else (BitVec.ofNat 32 (hostWord s off), s)

/-- An FLR or a link-down: every RW word is 0, and replies go to the orphan holder (R275, R378, R386). -/
def hostIfDown (s : State) : State :=
  let s := loseAttachment .mbox .host s
  let s := updCmd (fun c => { c with orphans := c.orphans ++ (s.hostIf.rsp.bind orphanOf).toList }) s
  rqRetry (updHost (fun h =>
    { h with words := [], rsp := none, err := false, cfreeAt := 0, cfreeSaid := true, txErr := false, pba := [], vecWait := [], vecAt := [], pi_ := [] }) s)

/-- The bus-master and MSI-X enables that the server's configuration writes leave. -/
def setBus (bme en fmask : Bool) (s : State) : State :=
  unmasked (wr Reg.PCE.STAT.BME (ofBool bme) (wr Reg.PCE.MSIX_CFG.EN (ofBool en) (wr Reg.PCE.MSIX_CFG.FMASK (ofBool fmask) s)))

/-- What a nanosecond does to the host interface: CFREE and TXFREE return, and vectors held back by MOD go out. -/
def hostTick (s : State) : State :=
  let s := if !s.hostIf.cfreeSaid && cfree s then msix 1 (updHost (fun h => { h with cfreeSaid := true }) s) else s
  let s := if s.hostIf.txWait && txFree s then msix 1 (updHost (fun h => { h with txWait := false }) s) else s
  forAll s.hostIf.vecWait rqVector s

/-- A reset of the TS die. -/
def hostIfReset (s : State) : State := { hostIfDown s with hostIf := HostIf.reset }

end Sys2Proof.Machine
end

