-- ==== Sys2Proof/Machine/LinePower.lean ====
section
/-! DEFINITION. Line power: port and node-load eFuses, curves, power good, qualification, LPWR, PWRWARN_N and UVLO (chapter 16,
R388 to R412). eFuse 0 to 3 is a port's, eFuse 4 the node load's. -/
namespace Sys2Proof.Machine

def efuse (s : State) (f : Nat) : EFuse := Tab.get EFuse.reset s.efuses f
def setEfuse (f : Nat) (x : EFuse) (s : State) : State := { s with efuses := Tab.set EFuse.reset f x s.efuses }
def updEfuse (f : Nat) (g : EFuse → EFuse) (s : State) : State := setEfuse f (g (efuse s f)) s

/-! States of Table 16.1. -/
def EF_OFF : Nat := 0
def EF_WAIT_OFF : Nat := 1
def EF_QUALIFY : Nat := 2
def EF_INRUSH : Nat := 3
def EF_ON : Nat := 4
def EF_LATCHED : Nat := 5
def EF_FET_SHORT : Nat := 6
def EF_INPUT : Nat := 7

def efStateF (f : Nat) : Fld := if f = 4 then Reg.LPW.LSTAT.STATE else Reg.LPW.PSTAT.STATE f
def efPgF (f : Nat) : Fld := if f = 4 then Reg.LPW.LSTAT.PG else Reg.LPW.PSTAT.PG f
def efTmrF (f : Nat) : Fld := if f = 4 then Reg.LPW.LSTAT.TMR else Reg.LPW.PSTAT.TMR f
def efCauseF (f : Nat) : Fld := if f = 4 then Reg.LPW.LSTAT.CAUSE else Reg.LPW.PSTAT.CAUSE f
def efEn (s : State) (f : Nat) : Bool := if f = 4 then rdB Reg.LPW.LCFG.EN s else rdB (Reg.LPW.PCFG.EN f) s
def efAuto (s : State) (f : Nat) : Bool := if f = 4 then rdB Reg.LPW.LCFG.AUTO s else rdB (Reg.LPW.PCFG.AUTO f) s
def efState (s : State) (f : Nat) : Nat := rd (efStateF f) s

/-- LPW.PCFGn.ROLE, 3 treated as 0 (R388). -/
def efRole (s : State) (f : Nat) : Nat := let r := rd (Reg.LPW.PCFG.ROLE f) s; if r = 3 then 0 else r

/-- The gate is up: INRUSH or ON. -/
def efUp (s : State) (f : Nat) : Bool := efState s f == EF_INRUSH || efState s f == EF_ON

/-- LPWR goes out where the word of a port has changed (R404); a port in FET_SHORT is in the word of every port. -/
def lpwrAfter (old s : State) : State := forAll (List.range 4) (fun n s => if lpwrWord s n = lpwrWord old n then s else lpwrChanged n s) s

/-- An event of the eFuses: what it changes of the LPWR words is sent. Nothing happens while the LD is held in reset (R45). -/
def efEvent (g : State → State) (s : State) : State := if s.supplyHold then s else lpwrAfter s (g s)

def setEf (f st : Nat) (s : State) : State := wr (efStateF f) st s

/-- QUAL.TOFF in ns, never less than 1.0 s (R395). -/
def offMin (s : State) : Nat := max 10 (rd Reg.LPW.QUAL.TOFF s) * 100000000

/-- QUAL.VSHORT in 10 mV. -/
def vShort (s : State) : Nat := max 1 (rd Reg.LPW.QUAL.VSHORT s) * 10

/-- PG at a turn-off (R400): deasserted at once, or at the end of the second tick after its assertion. -/
def pgOff (f : Nat) (s : State) : State :=
  if rdB (efPgF f) s && Machine.ahead (2 ^ 32) (efuse s f).pgAt (rd Reg.NRS.TICK.COUNT s) < 2 then updEfuse f (fun x => { x with pgLate := true }) s
  else wr (efPgF f) 0 (updEfuse f (fun x => { x with pgLate := false }) s)

/-- The gate goes low and the turn-off is recorded (R395): the curve counters are 0 outside ON. -/
def turnOff (f st cause : Nat) (s : State) : State :=
  let s := updEfuse f (fun x =>
    { x with
      offAt := some s.now
      onReq := false
      cnt := List.replicate 8 0
      armed := false
      above := 0
      retry := false }) (pgOff f s)
  wr (efTmrF f) 0 (wr (efCauseF f) cause (setEf f st s))

/-- The port may leave OFF (R392, R405, R408). -/
def portMay (s : State) (f : Nat) : Bool :=
  efRole s f == 1 && efEn s f && (efAuto s f || (efuse s f).onReq) && !(efuse s f).retry && !rdB Reg.LPW.LSTAT.PWARN s &&
    !rdB (Reg.LPW.PSTAT.FARSRC f) s && !rdB Reg.LPW.LSTAT.UVLO s

/-- The node-load eFuse may leave OFF (R406, R408). -/
def loadMay (s : State) : Bool :=
  efEn s 4 && (efAuto s 4 || (efuse s 4).onReq) && s.nurse.vonOk && !rdB Reg.LPW.LSTAT.UVLO s

/-- An eFuse in OFF leaves it where it may: a port qualifies, the load goes through inrush. -/
def leaveOff (f : Nat) (s : State) : State :=
  if efState s f ≠ EF_OFF then s
  else if f = 4 then (if loadMay s then setEf 4 EF_INRUSH s else s)
  else if portMay s f then setEf f EF_QUALIFY s else s

/-- t_off_min has ended: WAIT_OFF goes to OFF, or to INPUT for an input-role port. -/
def waitOver (f : Nat) (s : State) : State :=
  if efState s f ≠ EF_WAIT_OFF then s
  else if f ≠ 4 ∧ efRole s f = 2 then setEf f EF_INPUT s
  else leaveOff f (setEf f EF_OFF s)

/-- WAIT_OFF is entered: it ends at once where t_off_min has already elapsed. -/
def enterWait (f : Nat) (s : State) : State :=
  let s := setEf f EF_WAIT_OFF s
  match (efuse s f).offAt with
  | none => waitOver f s
  | some t => if t + offMin s ≤ s.now then waitOver f s else s

/-- OFF_MIN_EXPIRY (R395). -/
def execOffMinExpiry (f : Fin 5) (s : State) : Res := .next (efEvent (waitOver f.val) s)

/-- A qualification in progress ends with no result (R392); a SEG_QUALIFY is answered so. -/
def qualOver (f qres : Nat) (s : State) : State :=
  let x := efuse s f
  let s := updEfuse f (fun x => { x with seg := none }) (setEf f EF_OFF s)
  match x.seg with
  | none => s
  | some o => reply o ST_OK (beBytes 1 qres ++ [0] ++ beBytes 2 (min 65535 x.rsig) ++ beBytes 2 (min 65535 x.csig) ++ [0, 0]) s

/-- The output is turned off by a command, EN or the role (R395). -/
def commandOff (f : Nat) (s : State) : State :=
  let s := updEfuse f (fun x => { x with onReq := false }) s
  if efUp s f then enterWait f (turnOff f EF_WAIT_OFF 8 s)
  else if efState s f = EF_QUALIFY then qualOver f 0 s
  else s

/-- LATCHED is cleared (R399). -/
def clearLatch (f : Nat) (s : State) : State := if efState s f = EF_LATCHED then enterWait f s else s

/-- A write of EN (R395, R399): 1 to 0 turns off; 0 to 1 clears the latch and lets the eFuse leave OFF. -/
def efEnWrite (f : Nat) (en : Bool) (s : State) : State :=
  let was := efEn s f
  let s := if f = 4 then wr Reg.LPW.LCFG.EN (ofBool en) s else wr (Reg.LPW.PCFG.EN f) (ofBool en) s
  if was && !en then commandOff f s
  else if !was && en then leaveOff f (clearLatch f (updEfuse f (fun x => { x with retry := false }) s))
  else s

/-- PCFG_EN_WRITE (R399). -/
def execPcfgEnWrite (p : LPort) (en : Bool) (s : State) : Res := .next (efEvent (efEnWrite p.val en) s)

/-- LCFG_EN_WRITE (R406). -/
def execLcfgEnWrite (en : Bool) (s : State) : Res := .next (efEvent (efEnWrite 4 en) s)

/-- A write of PCFGn.ROLE (R388, Table 16.4): a port that is on turns off first. -/
def roleWrite (f role : Nat) (s : State) : State :=
  let was := efRole s f
  let s := if efRole (wr (Reg.LPW.PCFG.ROLE f) role s) f = was then s else commandOff f s
  let s := wr (Reg.LPW.PCFG.ROLE f) role s
  let r := efRole s f
  let st := efState s f
  if r = was then s
  else if r = 2 then (if st = EF_OFF ∨ st = EF_WAIT_OFF then setEf f EF_INPUT s else s)
  else if st = EF_INPUT then enterWait f s
  else leaveOff f s

/-- PCFG_ROLE_WRITE (R392). -/
def execPcfgRoleWrite (p : LPort) (role : Fin 4) (s : State) : Res := .next (efEvent (roleWrite p.val role.val) s)

/-- A write of LPW.PCFGn whole. -/
def lpwPcfgWrite (f : Nat) (v : Word) (s : State) : State :=
  let keep := Nat.land (regGet s (Reg.LPW.PCFG.word f).addr).toNat 0xE0000000
  let s := regSet s (Reg.LPW.PCFG.word f).addr (BitVec.ofNat 32 (keep + Nat.land v.toNat 0x18FFFFFF))
  efEvent (fun s => leaveOff f (efEnWrite f (bit 31 v.toNat) (roleWrite f (bits 30 29 v.toNat) s))) s

/-- A write of LPW.LCFG whole. -/
def lpwLcfgWrite (v : Word) (s : State) : State :=
  let keep := Nat.land (regGet s Reg.LPW.LCFG.word.addr).toNat 0x80000000
  let s := regSet s Reg.LPW.LCFG.word.addr (BitVec.ofNat 32 (keep + Nat.land v.toNat 0x40FFFFFF))
  efEvent (fun s => leaveOff 4 (efEnWrite 4 (bit 31 v.toNat) s)) s

/-! Qualification and inrush (R393, R394). -/

/-- The result of a qualification: `vpres` the pair was above VSHORT, `limit` the 5 mA limit was reached, RSIG in 10 Ω and CSIG in
10 nF. -/
def qualResult (vpres limit : Bool) (rsig csig : Nat) : Nat :=
  if vpres then 5
  else if limit ∨ rsig < 2375 then 3
  else if 2625 < rsig then 2
  else if 100 < csig then 4
  else 1

/-- QUALIFY_COMPLETE (R393). -/
def execQualifyComplete (p : LPort) (vpres limit : Bool) (rsig csig : BitVec 16) (s : State) : Res :=
  let f := p.val
  if efState s f = EF_QUALIFY then
    let r := qualResult vpres limit rsig.toNat csig.toNat
    let seg := (efuse s f).seg.isSome
    let s := wr (Reg.LPW.PSTAT.QRES f) r (updEfuse f (fun x => { x with rsig := rsig.toNat, csig := csig.toNat }) s)
    let s := if r = 1 then s else count (cLPW (4 * f + 2)) s
    if seg then .next (efEvent (fun s => leaveOff f (qualOver f r s)) s)
    else if r = 1 then .next (efEvent (setEf f EF_INRUSH) s)
    else .next (updEfuse f (fun x => { x with retry := true, onReq := false }) (setEf f EF_OFF s))
  else .next s

/-- QUAL_RETRY (R393): with AUTO, every QUAL.RETRY that is not 0. -/
def execQualRetry (p : LPort) (s : State) : Res :=
  let f := p.val
  if (efuse s f).retry && rd Reg.LPW.QUAL.RETRY s != 0 && efAuto s f && efState s f == EF_OFF then
    .next (leaveOff f (updEfuse f (fun x => { x with retry := false }) s))
  else .next s

/-- INRUSH_END (R394). -/
def execInrushEnd (f : Fin 5) (s : State) : Res :=
  if efState s f.val = EF_INRUSH then .next (efEvent (setEf f.val EF_ON) s) else .next s

/-- A trip latches the eFuse and raises LP_TRIP (R399). -/
def trip (f cause : Nat) (s : State) : State :=
  logErr 0x0701 0 (f * 2 ^ 24 + EF_LATCHED * 2 ^ 16 + cause * 2 ^ 8) (raise (srcLP_TRIP f) (turnOff f EF_LATCHED cause s))

/-- INRUSH_TIMEOUT (R394). -/
def execInrushTimeout (f : Fin 5) (s : State) : Res :=
  if efState s f.val = EF_INRUSH then .next (efEvent (trip f.val 3) s) else .next s

/-! The slow tick (R396, R400, R401, R403, R415). -/

def cITH (w : Word) : Nat := bits 31 20 w.toNat
def cTTH (w : Word) : Nat := bits 19 0 w.toNat

/-- The counters after a tick with mean current `i`, in 0.1 mA; ITH counts 5 mA. -/
def cntNext (curve : List Word) (cnt : List Nat) (i : Nat) : List Nat :=
  (List.range 8).map fun k =>
    let w := curve.getD k 0
    if cITH w ≠ 0 ∧ cITH w * 50 ≤ i then cnt.getD k 0 + 1 else 0

/-- Some used breakpoint's counter has reached its TTH. -/
def curveDue (x : EFuse) : Bool := (List.range 8).any fun k => cITH (x.curve.getD k 0) != 0 && cTTH (x.curve.getD k 0) ≤ x.cnt.getD k 0

/-- LP_TRIP_CURVE of an eFuse. -/
def cTripCurve (f : Nat) : Nat := if f = 4 then cLPW 16 else cLPW (4 * f)
def cTripFast (f : Nat) : Nat := if f = 4 then cLPW 17 else cLPW (4 * f + 1)

/-- A curve trip (R396). -/
def curveTrip (f : Nat) (s : State) : State :=
  trip f 1 (updEfuse f (fun x => { x with tripAt := some (rd Reg.NRS.TICK.COUNT s) }) (count (cTripCurve f) s))

/-- The PG evaluation of a tick (R400). -/
def evalPg (f : Nat) (s : State) : State :=
  let x := efuse s f
  let t := rd Reg.NRS.TICK.COUNT s
  if efState s f = EF_ON then
    if rdB (efPgF f) s || x.cnt.any (· != 0) then s
    else wr (efPgF f) 1 (updEfuse f (fun x => { x with pgAt := t, pgLate := false }) s)
  else if x.pgLate && 2 ≤ Machine.ahead (2 ^ 32) x.pgAt t then wr (efPgF f) 0 (updEfuse f (fun x => { x with pgLate := false }) s)
  else s

/-- The level of LPn_DIS (R389): asserted while the port's eFuse is off and the port is in the output role. -/
def lpDis (s : State) (f : Nat) : Bool := efRole s f == 1 && !efUp s f

/-- The gate of an output-role port is commanded low (R403). -/
def gateLow (s : State) (f : Nat) : Bool := efRole s f == 1 && !efUp s f && efState s f != EF_FET_SHORT && efState s f != EF_INPUT

/-- The check of R403 at a tick: armed once the pair has fallen below VSHORT or 1.0 s after the turn-off. -/
def fetCheck (f : Nat) (s : State) : State :=
  let x := efuse s f
  if !gateLow s f || efState s f == EF_QUALIFY then updEfuse f (fun x => { x with above := 0 }) s
  else
    let late := match x.offAt with
      | none => true
      | some t => t + 1000000000 ≤ s.now
    let armed := x.armed || x.vout < vShort s || late
    updEfuse f (fun x => { x with armed := armed, above := if armed && vShort s < x.vout then min 2 (x.above + 1) else 0 }) s

/-- The pass transistor is found damaged (R403). -/
def fetDue (s : State) (f : Nat) : Bool := gateLow s f && (efuse s f).armed && 2 ≤ (efuse s f).above && !rdB (Reg.LPW.PSTAT.FARSRC f) s

/-- FET_SHORT is entered. -/
def enterFetShort (f : Nat) (s : State) : State :=
  logErr 0x0701 0 (f * 2 ^ 24 + EF_FET_SHORT * 2 ^ 16 + rd (efCauseF f) s * 2 ^ 8) (raise (srcLP_FETSHORT f) (setEf f EF_FET_SHORT s))

/-- One eFuse at a tick: mean current in 0.1 mA and pair voltage in 10 mV. -/
def efTick (f i v : Nat) (s : State) : State :=
  let s := updEfuse f (fun x => { x with vout := v, mean := i }) s
  let s := if f = 4 then s else wr (Reg.LPW.PSTAT.IMEAS f) (min 65535 (i / 10)) s
  let s := if efState s f = EF_ON then
      let s := updEfuse f (fun x => { x with cnt := cntNext x.curve x.cnt i }) s
      if curveDue (efuse s f) then curveTrip f s else wr (efTmrF f) (ofBool ((efuse s f).cnt.any (· != 0))) s
    else s
  let s := evalPg f s
  if f = 4 then s
  else
    let s := fetCheck f s
    if fetDue s f then enterFetShort f s else s

/-- In HOLD_SLOW line time is one learned tick ahead of the tick before (R244): what was interpolated since is part of it. -/
def tickTime (s : State) : State :=
  { s with lt := (s.lt + (s.time.tickLen - s.time.interp)) % 2 ^ 96, time := { s.time with interp := 0 } }

/-- SLOW_TICK (R396, R415, R244): `cur` the mean currents of the five eFuses in 0.1 mA, `vout` their pair voltages and `vin` the
node input in 10 mV. In HOLD_SLOW line time advances by the learned tick. -/
def execSlowTick (cur vout : List Nat) (vin : BitVec 16) (s : State) : Res :=
  if s.supplyHold then .next s
  else
  let s := if rd Reg.NRS.TICK.COUNT s = 1023 ∧ rdB Reg.NRS.STAT.XTFAIL s = false then wr Reg.NRS.STAT.XTOK 1 s else s
  let s := wr Reg.NRS.TICK.COUNT ((rd Reg.NRS.TICK.COUNT s + 1) % 2 ^ 32) (wr Reg.LPW.LSTAT.VIN vin.toNat s)
  let s := if rd Reg.TIM.STAT.QSTATE s = 4 then tickTime s else s
  .next (efEvent (fun s => forAll (List.range 5) (fun f s => efTick f (cur.getD f 0) (vout.getD f 0) s) s) s)

/-- CURVE_TRIP (R396): a counter stands at or above its TTH, as after a curve APPLY. -/
def execCurveTrip (f : Fin 5) (s : State) : Res :=
  if efState s f.val = EF_ON ∧ curveDue (efuse s f.val) = true then .next (efEvent (curveTrip f.val) s) else .next s

/-- FAST_TRIP (R398): armed in INRUSH and ON; with a curve trip in the same tick the cause is FAST and both count (Table 16.4). -/
def execFastTrip (f : Fin 5) (s : State) : Res :=
  let f := f.val
  if efUp s f then .next (efEvent (fun s => trip f 2 (count (cTripFast f) s)) s)
  else if efState s f = EF_LATCHED ∧ rd (efCauseF f) s = 1 ∧ (efuse s f).tripAt = some (rd Reg.NRS.TICK.COUNT s) then
    .next (wr (efCauseF f) 2 (count (cTripFast f) s))
  else .next s

/-- REMOVAL (R401, R402): the load is gone; the segment's state is discarded. -/
def execRemoval (p : LPort) (s : State) : Res :=
  let f := p.val
  if efState s f = EF_ON ∧ (efuse s f).mean < rd Reg.LPW.QUAL.IHOLD s then
    .next (efEvent (fun s => enterWait f (wr (Reg.LPW.PSTAT.QRES f) 0 (turnOff f EF_WAIT_OFF 7 (count (cLPW (4 * f + 3)) s)))) s)
  else .next s

/-- FET_SHORT (R403). -/
def execFetShort (p : LPort) (s : State) : Res :=
  if fetDue s p.val then .next (efEvent (enterFetShort p.val) s) else .next s

/-! LPWR (R404, R405). -/

/-- LPWR_PERIODIC (R404). -/
def execLpwrPeriodic (s : State) : Res := if s.supplyHold then .next s else .next (forAll (List.range 4) sendLpwr s)

/-- A port is cut under R405: latched where it is up or qualifying, and its SEG_QUALIFY ended. -/
def cut (f cause : Nat) (s : State) : State :=
  let s := if efState s f = EF_QUALIFY then qualOver f 0 s else s
  turnOff f EF_LATCHED cause s

/-- A received LPWR word (R405). -/
def onLpwr (n body : Nat) (s : State) : State :=
  let src := bit 47 body
  let unprot := bit 45 body
  let s := updLp n (fun p => { p with lpwr := body }) (wr (Reg.LPW.PSTAT.FARSRC n) (ofBool src) s)
  efEvent (fun s =>
    let st := efState s n
    let on := efRole s n == 1
    let live := on && (st == EF_QUALIFY || st == EF_INRUSH || st == EF_ON)
    let s := if unprot && on then
        let s := raise (srcLP_UNPROT n) (wr (Reg.LPW.PSTAT.DNUNPROT n) 1 s)
        if rdB (Reg.LPW.PCFG.UPCUT n) s && st != EF_LATCHED && st != EF_FET_SHORT then cut n 4 s else s
      else s
    let s := if src && live then raise (srcLP_BACKFEED n) (if efState s n = EF_LATCHED then s else cut n 5 s) else s
    leaveOff n s) s

/-- LPWR (R405). -/
def execLpwr (p : LPort) (body : BitVec 48) (s : State) : Res := .next (onLpwr p.val body.toNat s)

/-! PWRWARN_N and UVLO (R407, R408). -/

/-- PWRWARN_ASSERT (R407, R304, R149): by level, or by slope. With AUTO_PWR it sets RTE.BYP.BYP itself, so BYPASS_N stays asserted until
software clears the bit; the spec says only that BYPASS_N is asserted (notes/assumptions/48). -/
def execPwrwarnAssert (slope : Bool) (s : State) : Res :=
  if s.supplyHold then .next s
  else if rdB Reg.LPW.LSTAT.PWARN s then .next (wr (if slope then Reg.LPW.LSTAT.WSLP else Reg.LPW.LSTAT.WLVL) 1 s)
  else if slope ∧ rd Reg.LPW.PWARN.SLOPE s = 0 then .next s
  else
    let s := wr (if slope then Reg.LPW.LSTAT.WSLP else Reg.LPW.LSTAT.WLVL) 1 s
    let s := efEvent (fun s => forAll (List.range 4) (fun f s => if efState s f = EF_QUALIFY then qualOver f 0 s else s)
      (wr Reg.LPW.LSTAT.PWARN 1 s)) s
    let s := raise srcLP_PWARN (warnPorts s)
    .next (if rdB Reg.RTE.BYP.AUTO_PWR s then bypassSet true s else s)

/-- PWRWARN_DEASSERT (R407). -/
def execPwrwarnDeassert (s : State) : Res :=
  if rdB Reg.LPW.LSTAT.PWARN s then .next (efEvent (fun s => forAll (List.range 4) leaveOff (wr Reg.LPW.LSTAT.PWARN 0 s)) s) else .next s

/-- UVLO (R408): every eFuse turns off, which does not latch. -/
def execUvlo (s : State) : Res :=
  let s := { s with nurse := { s.nurse with vonOk := false } }
  .next (efEvent (fun s => raise srcLP_UVLO (forAll (List.range 5) (fun f s =>
    if efUp s f then enterWait f (turnOff f EF_WAIT_OFF 6 s) else if efState s f = EF_QUALIFY then qualOver f 0 s else s)
    (wr Reg.LPW.LSTAT.UVLO 1 s))) s)

/-- LBUS_VON (R406, R408): LBUS has held VON for 100 ms. -/
def execLbusVon (s : State) : Res :=
  .next (efEvent (fun s => forAll (List.range 5) leaveOff (wr Reg.LPW.LSTAT.UVLO 0 { s with nurse := { s.nurse with vonOk := true } })) s)

/-! Curves (R390, R397). -/

/-- The used breakpoints come first, with ITH rising and TTH falling. -/
def curveShape : List Word → Bool
  | [] => true
  | [_] => true
  | a :: b :: l => (cITH b == 0 || (cITH a != 0 && cITH a < cITH b && cTTH b < cTTH a)) && curveShape (b :: l)

/-- The check of R397 for the curve of eFuse `f`. -/
def curveOk (f : Nat) (l : List Word) : Bool :=
  curveShape l && (l.all fun w => cITH w == 0 || 2 ≤ cTTH w) && (l.any fun w => cITH w != 0) &&
    (f == 4 || l.any fun w => cITH w != 0 && cITH w ≤ 350 && cTTH w ≤ 163840)

/-- A curve is applied; the counters carry over by index. -/
def curveApply (f : Nat) (l : List Word) (s : State) : Nat × State :=
  if f < 5 ∧ curveOk f l = true then (ST_OK, updEfuse f (fun x => { x with curve := l }) s) else (ST_BAD_PARAM, s)

/-- LPW.CCTL.APPLY by a requester. -/
def cctlApply (r : EntryPoint) (s : State) : Nat × State :=
  curveApply (rd (Reg.LPW.CSEL.CURVE.mine r) s) ((List.range 8).map fun k => staged s r (Reg.LPW.CPT.word k)) s

/-- LPW_CCTL_APPLY (R397). -/
def execLpwCctlApply (req : EntryPoint) (s : State) : Res := .next (cctlApply req s).2

/-- LPW.CCTL.LOAD by a requester. -/
def cctlLoad (r : EntryPoint) (s : State) : State :=
  let c := rd (Reg.LPW.CSEL.CURVE.mine r) s
  if c < 5 then forAll (List.range 8) (fun k s => regSet s ((Reg.LPW.CPT.word k).mine r).addr ((efuse s c).curve.getD k 0)) s else s

/-- LPW_CCTL_LOAD (R397). -/
def execLpwCctlLoad (req : EntryPoint) (s : State) : Res := .next (cctlLoad req s)

/-! Commands (R412). -/

/-- PSTATn or LSTAT. -/
def efStat (s : State) (f : Nat) : List Byte := beBytes 4 (regGet s (if f = 4 then Reg.LPW.LSTAT.word else Reg.LPW.PSTAT.word f).addr).toNat

/-- A command of an eFuse: PORT above 4 is ST_BAD_PARAM, a port whose ROLE is not 1 is ST_DENIED. -/
def efCommand (o : Origin) (body : List Byte) (n : Nat) (good : Nat → State → Bool) (g : Nat → State → State) (s : State) : Res :=
  command o body n (fun s =>
    let f := field body 0 1
    if 4 < f || !good f s then reply o ST_BAD_PARAM [] s
    else if f != 4 && efRole s f != 1 then reply o ST_DENIED [] s
    else g f s) s

/-- What EFUSE_CTL does: its status. -/
def efCtl (f action : Nat) (s : State) : Nat × State :=
  let st := efState s f
  match action with
  | 0 => (ST_OK, commandOff f s)
  | 1 =>
    if !efEn s f then (ST_DENIED, s)
    else if st = EF_LATCHED ∨ st = EF_FET_SHORT then (ST_BUSY, s)
    else if st = EF_OFF ∨ st = EF_WAIT_OFF then (ST_OK, leaveOff f (updEfuse f (fun x => { x with onReq := true, retry := false }) s))
    else (ST_OK, s)
  | 2 => (ST_OK, clearLatch f s)
  | _ => if vShort s ≤ (efuse s f).vout then (ST_BUSY, s) else (ST_OK, if st = EF_FET_SHORT then enterWait f s else s)

/-- EFUSE_CTL (R412). -/
def execEfuseCtl (o : Origin) (body : List Byte) (s : State) : Res :=
  efCommand o body 4 (fun _ _ => field body 1 1 < 4 && zeroAt body 2 2) (fun f s =>
    let st := (efCtl f (field body 1 1) s).1
    let s := efEvent (fun s => (efCtl f (field body 1 1) s).2) s
    reply o st (if st = ST_OK then efStat s f else []) s) s

/-- EFUSE_STATUS (R412). -/
def execEfuseStatus (o : Origin) (body : List Byte) (s : State) : Res :=
  efCommand o body 4 (fun _ _ => zeroAt body 1 3) (fun f s =>
    let ms := match (efuse s f).offAt with
      | none => 2 ^ 32 - 1
      | some t => min (2 ^ 32 - 1) ((s.now - t) / 1000000)
    reply o ST_OK (efStat s f ++ beBytes 2 (efuse s f).vout ++ [0, 0] ++ beBytes 4 ms) s) s

/-- EFUSE_CURVE (R412). -/
def execEfuseCurve (o : Origin) (body : List Byte) (s : State) : Res :=
  efCommand o body 36 (fun _ _ => field body 1 1 < 2 && zeroAt body 2 2) (fun f s =>
    let (st, s) := if field body 1 1 = 1 then (ST_OK, s)
      else curveApply f ((List.range 8).map fun k => BitVec.ofNat 32 (field body (4 + 4 * k) 4)) s
    reply o st (if st = ST_OK then ((efuse s f).curve.map fun w => beBytes 4 w.toNat).flatten else []) s) s

/-- SEG_QUALIFY (R412): answered when the qualification ends. -/
def execSegQualify (o : Origin) (body : List Byte) (s : State) : Res :=
  efCommand o body 4 (fun f _ => f < 4 && zeroAt body 1 3) (fun f s =>
    if efState s f ≠ EF_OFF ∨ rdB Reg.LPW.LSTAT.PWARN s = true ∨ rdB (Reg.LPW.PSTAT.FARSRC f) s = true then reply o ST_BUSY [] s
    else updEfuse f (fun x => { x with seg := some o }) (setEf f EF_QUALIFY s)) s

end Sys2Proof.Machine
end

