-- ==== Sys2Proof/Machine/Dies.lean ====
section
/-! DEFINITION. What a reset of a tributary die, and its absence, do to the state that belongs to the die (R44, R324, R419,
R436). -/
namespace Sys2Proof.Machine

/-- The registers and counters of slot `d` take their reset values. -/
def dieRegs (d : Nat) (s : State) : State :=
  { s with
    regs := Tab.keep (fun k => addrSlot (k % 0x100000000) != d) s.regs
    ctrs := Tab.keep (fun k => addrSlot k != d) s.ctrs
    ctrRc := Tab.keep (fun k => k / 512 != d) s.ctrRc }

/-- The die's mapper, origin shapers and terminating units start again (R212, R214); its trims go back to the factory's. -/
def dieUnits (d : Nat) (s : State) : State :=
  let mine := fun p : Nat => portSlot p == d && 4 ≤ p
  let org := fun t : Nat => orgOSLOT (entry s 2 t) == d
  let s := updTuns (fun t =>
    { t with
      ctx := Tab.keep (fun u => !mine u) t.ctx
      inbox := Tab.keep (fun u => !mine u) t.inbox
      arrived := Tab.keep (fun u => !mine u) t.arrived
      mapper := Tab.keep (fun u => u != d) t.mapper
      fn := Tab.keep (fun x => !org x) t.fn }) s
  let s := updSched (fun c =>
    { c with
      shapers := Tab.keep (fun i => shaperSlot i != d) c.shapers
      held := c.held.filter fun f => f.slot != d
      open_ := c.open_.filter fun g => !mine g.inp }) s
  { s with trims := Tab.keep (fun k => k / 65536 != d) s.trims }

/-- A TU port after a reset: its VBUS, now off, falls as before, and PWRWARN_N is what it was. -/
def coldPort (s : State) (p : TcPort) : TcPort :=
  { TcPort.reset with
    vbusSafe := p.vbusSafe && !p.vbusOn, offUntil := if p.vbusOn then s.now + 650000000 else p.offUntil, warned := p.warned }

/-- A TU die is reset (R324): every port goes to ERROR_RECOVERY and releases its allocation; the proxy and the tables go. -/
def tuDieReset (d : Nat) (s : State) : State :=
  let s := proxyReset d (dieRegs (2 + 4 * d) (forAll (tuPorts d) release s))
  tuReset d { forAll (tuPorts d) (fun t s => updTcp t (coldPort s) s) s with pdTables := Tab.keep (fun k => k != d) s.pdTables }

/-- The TV die is reset: both heads stop, and the timing records go. -/
def tvDieReset (s : State) : State := { dieRegs 5 (headsReset s) with timings := [], tols := [] }

/-- The die of slot `d` is reset. -/
def dieReset (d : Nat) (s : State) : State :=
  let s := dieUnits d s
  match d with
  | 2 => tuDieReset 0 s
  | 6 => tuDieReset 1 s
  | 3 => dieRegs 3 (tnReset 0 s)
  | 7 => dieRegs 7 (tnReset 1 s)
  | 4 => dieRegs 4 (hostIfReset s)
  | 5 => tvDieReset s
  | _ => s

/-- The interrupt group of a tributary slot (Table 17.4). -/
def dieGroup (d : Nat) : Nat :=
  match d with
  | 2 => 4
  | 6 => 5
  | 3 => 6
  | 7 => 7
  | 4 => 8
  | _ => 9

/-- The sources of a die become IDLE (Table 17.6). -/
def dieSrcsIdle (d : Nat) (s : State) : State := { s with srcs := Tab.keep (fun n => n / 32 != dieGroup d) s.srcs }

/-- The link of a die that is off, or held in reset, is down and not in LINK_FAIL (R419); what it held is gone, but cells that the LD holds toward it: those wait for the next link. -/
def linkDown (d : Nat) (s : State) : State :=
  let s := wr Reg.GLB.STAT.LINKFAIL (setBit d false (rd Reg.GLB.STAT.LINKFAIL s)) (wr (Reg.DIE.LSTAT.STATE d) 1 s)
  setTolger d true TolgerDir.reset s

end Sys2Proof.Machine
end

