-- ==== Sys2Proof/Machine/Nurse.lean ====
section
/-! DEFINITION. The Nurse: sleep, clocks, waking, self-refresh, and the interrupt controller (chapter 17, R414 to R433; the
Deep Comb regions of R298). -/
namespace Sys2Proof.Machine

/-! Sleep (R415 to R418). -/

/-- NRS.STAT.LDST. -/
def ldst (s : State) : Nat := rd Reg.NRS.STAT.LDST s

/-- The LD is in STANDBY or NAP. -/
def ldSleeps (s : State) : Bool := ldst s == 1 || ldst s == 2

/-- The switch domain is off (R420). -/
def swOff (s : State) : Bool := rdB Reg.NRS.PSTATE.SWOFF s

/-- The Comb holds a cell, or a spill segment is in use (R417 bit 3). -/
def combHolds (s : State) : Bool :=
  queuesHeld s || voqsHeld s || cellsOf s.comb.park != [] || cellsOf s.comb.spill != [] || s.comb.lost != [] ||
    (List.range 4).any fun n => (lp s n).tx.buf != [] || (lp s n).tx.custody != []

/-- An enabled source is pending or active in a group that has a target (R417 bit 8). -/
def irqWaits (s : State) : Bool :=
  s.srcs.any fun e => e.2 != .idle && bit (e.1 % 32) (rd (Reg.INT.EN.EN (e.1 / 32)) s) && rd (Reg.INT.TGT.TMASK (e.1 / 32)) s != 0

/-- The source is PENDING or ACTIVE_AND_PENDING. -/
def srcPends (s : State) (n : Nat) : Bool := srcSt s n == .pending || srcSt s n == .activeAndPending

/-- A source named in an enabled wake slot is pending (R417 bit 14). -/
def watchedPends (s : State) : Bool := (onBits 32 (rd Reg.NRS.WEN.EN s)).any fun k => srcPends s (rd (Reg.NRS.WSEL.SRC k) s)

/-- The image controller works: a phase other than idle, trial or recovery, or a program of the NOR. -/
def imgBusy (s : State) : Bool :=
  let p := rd Reg.IMG.STAT.PHASE s
  (p != 0 && p != 6 && p != 8) || s.img.jobs != []

/-- A self-test runs. -/
def testRuns (s : State) : Bool := s.tests.runs.any fun e => e.2.st == 1

/-- The conditions of R417 that fail now; HSPI_CS_N counts as high between the rows (notes/assumptions/32). -/
def sleepBlock (s : State) : Nat :=
  let l : List Bool :=
    [ !rdB Reg.NRS.CLKCTL.ALLOW_SBY s
    , (List.range 4).any fun n => rdB (Reg.HLP.CFG.EN n) s && lstate s n != DORMANT
    , [2, 3, 4, 5, 6, 7].any fun d => present s d && domSt s (0x10 + d) != .off
    , combHolds s
    , s.cmd.flights != [] || s.cmd.replies != [] || s.hostIf.rsp.isSome || s.cmd.orphans != []
    , s.brg.reads != [] || s.brg.held != [] || s.brg.retry != [] || s.brg.readWait != [] || s.brg.fences != []
    , (rd Reg.SVC.STAT.BSTATE s != 0 && rd Reg.SVC.STAT.BSTATE s != 5) || wakeReason s
    , false
    , irqWaits s
    , (List.range 8).any fun k => (trigPin s k).entries != [] || 2 ≤ rd (Reg.TRG.PCFG.MODE k) s
    , rdB Reg.RTE.FGR.BUSY s || imgBusy s || testRuns s
    , rd Reg.DCM.SR.STATE s != 2 && s1Up s
    , isHead s
    , rdB Reg.NRS.STAT.XTFAIL s
    , watchedPends s ]
  (List.range 15).foldl (fun a i => a + ofBool (l.getD i false) * 2 ^ i) 0

/-- NRS.STAT.LDST of the state that the LD enters: NAP where ALLOW_NAP is set, which stepping A0 ignores (R417, R504), else STANDBY. -/
def sleepState (s : State) : Nat := if rdB Reg.NRS.CLKCTL.ALLOW_NAP s && s.stepB0 then 2 else 1

/-- The level of REFOSC_EN: asserted in every state but NAP (R418). -/
def refoscEn (s : State) : Bool := ldst s != 2

/-- LD_SLEEP_ENTRY (R416, R417, R422, R244): with every condition met and HSPI_CS_N high the LD enters NAP or STANDBY. A node that holds a time goes to HOLD_SLOW, FADJ frozen at its mean. -/
def execLdSleepEntry (csLow : Bool) (s : State) : Res :=
  if s.supplyHold || ldSleeps s || csLow || sleepBlock s != 0 then .next s
  else
    let s := { s with nurse := { s.nurse with left := ldst s, wake := none } }
    let s := wr Reg.DCM.SR.STATE 2 (wr Reg.NRS.STAT.LDST (sleepState s) s)
    let q := rd Reg.TIM.STAT.QSTATE s
    if q = 0 then .next s
    else
      let at_ := if q = 3 ∨ q = 4 then s.time.holdFrom else s.now
      let f := if q = 1 ∨ q = 2 then meanFadj s.time else s.time.fadj
      let s := { s with time := { s.time with
        fadj := f, holdFrom := at_, goodRun := 0, badRun := 0, windowLocked := false, slowQual := true, interp := 0 } }
      .next (raise srcTIME_HOLD (wr Reg.TIM.STAT.QSTATE 4 s))

/-- The wake is one of R423: 0 an enabled wake slot of a Nurse-resident source, 1 signal detect of a DORMANT port with EN, 2 a
change of a bit in LPWR for a DORMANT port, 3 PWRWARN_N asserted, 4 RESET_N released. -/
def wakeGood (s : State) (kind idx : Nat) : Bool :=
  match kind with
  | 0 =>
    let n := rd (Reg.NRS.WSEL.SRC idx) s
    bit idx (rd Reg.NRS.WEN.EN s) && (n / 32 == 3 || n / 32 == 15)
  | 1 => idx < 4 && lstate s idx == DORMANT && rdB (Reg.HLP.CFG.EN idx) s
  | 2 => idx < 4 && lstate s idx == DORMANT
  | 3 => rdB Reg.LPW.LSTAT.PWARN s
  | _ => true

/-- NRS.WREASON takes the first wake since its last read. -/
def noteWake (kind idx : Nat) (s : State) : State :=
  if rdB Reg.NRS.WREASON.V s then s
  else wr Reg.NRS.WREASON.V 1 (wr Reg.NRS.WREASON.KIND kind (wr Reg.NRS.WREASON.INDEX idx s))

/-- LD_WAKE (R423): the wake is recorded, its source latched, and the fast clocks start. -/
def execLdWake (kind : Fin 5) (idx : Fin 32) (s : State) : Res :=
  let i := if kind.val < 3 then idx.val else 0
  if ldSleeps s && s.nurse.wake.isNone && wakeGood s kind.val i then
    let s := { noteWake kind.val i s with nurse := { s.nurse with wake := some (kind.val, i) } }
    .next (match kind.val with
      | 0 => raise (rd (Reg.NRS.WSEL.SRC i) s) s
      | 1 => raise (srcSD i) s
      | _ => s)
  else .next s

/-- FAST_CLOCK_START_DONE (R418, R245, Table 17.5): the LD runs in the state it left, a held time goes on in HOLD_FAST, at the master in
MASTER, and the port whose signal or LPWR bit woke the node starts its exit. -/
def execFastClockStartDone (s : State) : Res :=
  match s.nurse.wake with
  | none => .next s
  | some (kind, i) =>
    if ldSleeps s then
      let s := wr Reg.NRS.STAT.LDST s.nurse.left { s with nurse := { s.nurse with wake := none } }
      let s := if rd Reg.TIM.STAT.QSTATE s = 4 then raise srcTIME_HOLD (wr Reg.TIM.STAT.QSTATE 3 s) else s
      let s := timeRole s
      .next (if (kind = 1 ∨ kind = 2) ∧ lstate s i = DORMANT then startExit i oswWAKE s else s)
    else .next s

/-- XT32_FAIL (R415). -/
def execXt32Fail (s : State) : Res :=
  if s.supplyHold then .next s else .next (raise srcXT32_FAIL (wr Reg.NRS.STAT.XTOK 0 (wr Reg.NRS.STAT.XTFAIL 1 s)))

/-- A read of NRS.WREASON, cleared. -/
def readWreason (s : State) : Word × State :=
  let w := regGet s Reg.NRS.WREASON.word.addr
  (w, regSet s Reg.NRS.WREASON.word.addr 0)

/-- NRS_WREASON_READ (R433). -/
def execNrsWreasonRead (_ : EntryPoint) (s : State) : Res := .next (returned (readWreason s))

/-- WAKE_CFG (R432). -/
def execWakeCfg (o : Origin) (body : List Byte) (s : State) : Res :=
  command o body 4 (fun s =>
    let k := field body 0 1
    let en := field body 1 1
    let n := field body 2 2
    if 32 ≤ k ∨ 1 < en ∨ 512 ≤ n then reply o ST_BAD_PARAM [] s
    else
      let s := wr Reg.NRS.WEN.EN (setBit k (en == 1) (rd Reg.NRS.WEN.EN s)) (wr (Reg.NRS.WSEL.SRC k) n s)
      reply o ST_OK (beBytes 4 (regGet s Reg.NRS.WREASON.word.addr).toNat) s) s

/-! Power states of the dies and the switch domain (R419, R420). -/

/-- NRS.PSTATE as it reads: each slot ON, OFF or absent. -/
def pstateWord (s : State) : Word :=
  BitVec.ofNat 32 (ofBool (swOff s) * 2 ^ 16 +
    ([2, 3, 4, 5, 6, 7].foldl (fun a d => a + (if !present s d then 3 else if domSt s (0x10 + d) == .off then 1 else 0) * 4 ^ d) 0))

/-- The switch domain goes off: MGMT. Its line ports go dark; what its memories hold is kept (notes/assumptions/32). -/
def switchOff (s : State) : State :=
  let s := forAll (List.range 4) (fun n s => if lstate s n = DISABLED then s else disablePort n s) s
  wr Reg.NRS.PSTATE.SWOFF 1 (wr Reg.NRS.STAT.LDST 3 s)

/-- The path from SVC VBUS to SVC_VSYS is closed: under dead battery, while TIER is 1 (R492, Table 20.11). -/
def vsysClosed (s : State) : Bool := rdB Reg.SVC.PDSTAT.DB s && rdB Reg.SVC.PDSTAT.TIER s

/-- TIER_FALL (R322, R420): under dead battery the contract no longer carries 20 W; without the conditions of PSTATE_SET the switch
domain goes off. -/
def execTierFall (s : State) : Res :=
  let full := rdB Reg.SVC.PDSTAT.PDC s && svcTier (rd Reg.SVC.PDSTAT.VSEL s) (rd Reg.SVC.PDSTAT.IOP s)
  if rdB Reg.SVC.PDSTAT.DB s && !full && !swOff s then
    .next (raise srcSVCPOWER (switchOff (wr Reg.SVC.PDSTAT.TIER 0 s)))
  else .next s

/-! Self-refresh (R422). -/

/-- T_SRX plus DCM.SR.MARGIN in ns. -/
def srLimit (s : State) : Nat := 1200 + 100 * rd Reg.DCM.SR.MARGIN s

/-- The tolerance a head last sent, less the time since (R363); 0xFF_FFFF, no need, does not age. -/
def agedTol (s : State) (h : Nat) : Nat :=
  let t := Tab.get (fun _ => (0xFFFFFF, 0)) s.tols h
  if t.1 = 0xFFFFFF then t.1 else t.1 - (s.now - t.2)

/-- The smallest aged tolerance: DCM.LTOL.TOL (R363). -/
def ltol (s : State) : Nat := min (agedTol s 0) (agedTol s 1)

/-- A proxy with a periodic ring that runs holds the Deep Comb awake: DCM.SR.HOLDP (R341). -/
def holdp (s : State) : Bool := [0, 1].any fun d => present s (tuSlot d) && rdB (Reg.USB.PRX_STAT.PERHOLD d) s

/-- SELF_REFRESH_ENTRY (R422). -/
def execSelfRefreshEntry (s : State) : Res :=
  if rdB Reg.DCM.SR.EN s && rd Reg.DCM.SR.STATE s == 0 && s1Up s && !dcmWanted s && !holdp s && srLimit s < ltol s then
    .next (wr Reg.DCM.SR.STATE 2 s)
  else .next s

/-- SELF_REFRESH_EXIT (R422). -/
def execSelfRefreshExit (s : State) : Res :=
  if rd Reg.DCM.SR.STATE s = 2 ∧ ldSleeps s = false then .next (wr Reg.DCM.SR.STATE 3 s) else .next s

/-- SELF_REFRESH_EXIT_DONE (R422). -/
def execSelfRefreshExitDone (s : State) : Res := if rd Reg.DCM.SR.STATE s = 3 then .next (wr Reg.DCM.SR.STATE 0 s) else .next s

/-! Interrupts (R424 to R430). -/

/-- INTERRUPT_SOURCE_FIRE (R425). -/
def execInterruptSourceFire (src : Fin 512) (s : State) : Res := .next (raise src.val s)

/-- The sources of group `g` for which `p` holds, as a mask. -/
def srcMask (s : State) (g : Nat) (p : SrcState → Bool) : Nat :=
  ((List.range 32).filter fun b => p (srcSt s (32 * g + b))).foldl (fun a b => a + 2 ^ b) 0

/-- INT.PENDg. -/
def pendMask (s : State) (g : Nat) : Nat := srcMask s g fun x => x == .pending || x == .activeAndPending

/-- The ACTIVE and ACTIVE_AND_PENDING sources of a group. -/
def actMask (s : State) (g : Nat) : Nat := srcMask s g fun x => x == .active || x == .activeAndPending

/-- INT.RAWg. -/
def rawMask (s : State) (g : Nat) : Nat :=
  ((List.range 32).filter fun b => srcAlive s (32 * g + b) && rawLevel s (32 * g + b) == some true).foldl (fun a b => a + 2 ^ b) 0

/-- The level of INT0_N or INT1_N: asserted while a group that names the target has active sources (R427). -/
def intAsserted (s : State) (t : Nat) : Bool := (List.range 16).any fun g => bit t (rd (Reg.INT.TGT.TMASK g) s) && actMask s g != 0

/-- Completion of one source (R429, R430). -/
def completeSrc (n : Nat) (s : State) : State :=
  match srcSt s n with
  | .active => setSrc n (if resampled s n && rawLevel s n == some true then .pending else .idle) s
  | .activeAndPending => setSrc n (if !resampled s n || rawLevel s n == some true then .pending else .idle) s
  | _ => s

/-- Completion of a group (R429). -/
def completeGroup (g : Nat) (s : State) : State := forAll (List.range 32) (fun b s => completeSrc (32 * g + b) s) s

/-- INT_DONE_WRITE (R429). -/
def execIntDoneWrite (g : Fin 16) (s : State) : Res := .next (completeGroup g.val s)

/-- A write of INT.PENDg: a 1 removes the pending part (R425). -/
def pendWrite (g m : Nat) (s : State) : State :=
  forAll (onBits 32 m) (fun b s =>
    let n := 32 * g + b
    match srcSt s n with
    | .pending => setSrc n .idle s
    | .activeAndPending => setSrc n .active s
    | _ => s) s

/-- INT_PEND_WRITE (R425). -/
def execIntPendWrite (g : Fin 16) (mask : Word) (s : State) : Res := .next (pendWrite g.val mask.toNat s)

/-- The record of a delivery (R428). -/
def irqRecord (s : State) (g mask : Nat) (auto lost : Bool) : List Byte :=
  [0x02, 0x01, BitVec.ofNat 8 g, BitVec.ofNat 8 (ofBool auto + 2 * ofBool lost)] ++ beBytes 4 mask ++ beBytes 8 (lineNs s)

/-- T3: the record is queued for EP3, or discarded with LOST due (R427). -/
def queueT3 (g mask : Nat) (auto : Bool) (s : State) : State :=
  if rd Reg.SVC.STAT.BSTATE s = 0 then s
  else if s.svcDev.ep3.length < 16 then
    updDev (fun d => { d with ep3 := d.ep3 ++ [irqRecord s g mask auto d.ep3Lost], ep3Lost := false }) s
  else updDev (fun d => { d with ep3Lost := true }) s

/-- One delivery (R426, R427). -/
def deliverGroup (g mask : Nat) (s : State) : State :=
  let t := rd (Reg.INT.TGT.TMASK g) s
  let auto := rdB (Reg.INT.TGT.AUTO g) s
  let s := forAll (onBits 32 mask) (fun b s => setSrc (32 * g + b) .active s) s
  let s := { s with nurse := { s.nurse with delivered := Tab.set (fun _ => none) g (some s.now) s.nurse.delivered } }
  let s := if bit 2 t && !swOff s then sendUnpoliced (rd (Reg.INT.TGT.EVDST g) s) 0 6 2 false (irqRecord s g mask auto false) s else s
  let s := if bit 3 t then queueT3 g mask auto s else s
  let s := if bit 4 t then msix (18 + g) s else s
  if auto then completeGroup g s else s

/-- The enabled PENDING sources of a group. -/
def dueMask (s : State) (g : Nat) : Nat := Nat.land (srcMask s g fun x => x == .pending) (rd (Reg.INT.EN.EN g) s)

/-- A group's hold-off has passed. -/
def holdOver (s : State) (g : Nat) : Bool :=
  match Tab.get (fun _ => none) s.nurse.delivered g with
  | none => true
  | some t => t + rd (Reg.INT.HOLD.HOLD g) s * 1000 ≤ s.now

/-- INTERRUPT_DELIVERY (R426), once the LD runs (R423). -/
def execInterruptDelivery (g : Fin 16) (s : State) : Res :=
  let m := dueMask s g.val
  if !ldSleeps s && m != 0 && rd (Reg.INT.TGT.TMASK g.val) s != 0 && holdOver s g.val then .next (deliverGroup g.val m s) else .next s

/-- INT.SUMMARY. -/
def summaryWord (s : State) : Word :=
  BitVec.ofNat 32 ((List.range 16).foldl (fun a g => a + ofBool (actMask s g != 0) * 2 ^ (16 + g) + ofBool (dueMask s g != 0) * 2 ^ g) 0)

/-! Deep Comb regions (R46, R298). -/

/-- The pending START values keep the rules of R298. -/
def regionsOk (l : List Nat) : Bool :=
  l.getD 0 1 == 0 && ((List.range 4).all fun k => l.getD k 0 < l.getD (k + 1) 0) && l.getD 1 0 + 24 ≤ l.getD 2 0 && l.getD 4 4096 ≤ 4095

/-- A write of 1 to DCM.CFG.RGN_APPLY. -/
def rgnApply (s : State) : Nat × State :=
  let l := (List.range 5).map fun k => rd (Reg.DCM.RGN.START k) s
  if domSt s 0x11 != .quiesced then (ST_BUSY_IN_SERVICE, s)
  else if regionsOk l then (ST_OK, forAll (List.range 5) (fun k s => wr (Reg.DCM.RGN.CUR k) (l.getD k 0) s) s)
  else (ST_BAD_PARAM, wr Reg.DCM.STAT.RGNERR 1 s)

/-- DCM_RGN_APPLY (R298). -/
def execDcmRgnApply (s : State) : Res :=
  access Reg.DCM.CFG.word.addr (fun s => (rgnApply s).2) s

end Sys2Proof.Machine
end

