-- ==== Sys2Proof/Machine/BrgSend.lean ====
section
/-! DEFINITION. The initiating side of the bridge: requests through windows, read tags, retries, what a requester gets back
(R221, R222, R225 to R227, R232, R382); the answers of a target (R223, R229, R231); the loss of the PCIe links (R386). -/
namespace Sys2Proof.Machine

/-- The header of a BRG frame (Table 8.6). -/
def brgHeader (kind flags status id len addr : Nat) : List Byte :=
  beBytes 1 (kind * 16 + flags) ++ beBytes 1 status ++ beBytes 2 id ++ beBytes 2 len ++ beBytes 5 addr ++ List.replicate 5 0

/-! What a requester gets back. -/

/-- Completions of at most 512 bytes (R382). -/
def chunks512 : Nat → List Byte → List (List Byte)
  | 0, _ => []
  | k + 1, l => if l.length ≤ 512 then [l] else l.take 512 :: chunks512 k (l.drop 512)

/-- The completion of one part of a BAR2 read: its data, or Completer Abort. -/
def barTlps (c : BarCpl) : List HostTlp := if c.ok then (chunks512 9 c.data).map (HostTlp.cpl c.tlp 0) else [.cpl c.tlp 1 []]

def isBar (tlp : Nat) (r : Reader) : Bool :=
  match r with
  | .bar2 t => t == tlp
  | _ => false

/-- An earlier part of the same BAR2 read has not completed. -/
def barBehind (s : State) (c : BarCpl) : Bool :=
  (s.brg.reads.any fun r => isBar c.tlp r.reader && r.loc < c.loc) ||
    ((s.brg.retry ++ s.brg.readWait).any fun t => isBar c.tlp t.reader && t.addr < c.loc) ||
    s.brg.toHost.any fun x => x.tlp == c.tlp && x.loc < c.loc

/-- Parts that no earlier part holds back leave as completions (R382). -/
def barEmit (s : State) : State :=
  times s.brg.toHost.length (fun s =>
    match takeFirst (fun c => !barBehind s c) s.brg.toHost with
    | none => s
    | some (c, rest) => updHost (fun h => { h with sent := h.sent ++ barTlps c }) (updBrg (fun b => { b with toHost := rest }) s)) s

/-- The status of a BRG_READ reply (R282). -/
def brgReply (bstat : Nat) : Nat := if bstat = 0 then ST_OK else if bstat = 8 then ST_TIMEOUT else ST_BRG_FAIL

/-- A read that succeeded: its data for its requester. -/
def readDone (r : Reader) (loc : Nat) (data : List Byte) (s : State) : State :=
  match r with
  | .cmd o => reply o ST_OK ([0, 0, 0, 0] ++ data) s
  | .bar2 tlp => barEmit (updBrg (fun b => { b with toHost := b.toHost ++ [{ tlp := tlp, loc := loc, ok := true, data := data }] }) s)
  | .gone => s

/-- A failed read (R227): all ones, RD_FAIL, and the entry of the bridge error log, which COMPAT_LH4 leaves out. -/
def readFails (r : Reader) (loc len status bstat : Nat) (e : BrgLog) (s : State) : State :=
  let s := count (cBRG 0) (if compat s then s else logElg e s)
  let ones := List.replicate len (BitVec.ofNat 8 0xFF)
  match r with
  | .cmd o => reply o status (beBytes 1 bstat ++ [0, 0, 0] ++ ones) s
  | .bar2 tlp =>
    barEmit (updBrg (fun b =>
      { b with toHost := b.toHost ++ [{ tlp := tlp, loc := loc, ok := !rdB Reg.PCE.CFG.CA_FAIL s, data := ones }] }) s)
  | .gone => s

/-! Requests through a window. -/

/-- The lowest-numbered enabled window that contains a window-space address (R221). -/
def windowAt (s : State) (a : Nat) : Option Window :=
  (((List.range 64).map (window s)).filter fun w => wEN w && wL w ≤ a && a < wL w + 2 ^ wSIZE w).head?

/-- The bridge address behind a window (R221). -/
def wRemote (w : Window) (a : Nat) : Nat := wR w + (a - wL w)

/-- The lowest free read tag (R225). -/
def freeReadTag (s : State) : Option Nat := ((List.range 1024).filter fun t => !(s.brg.reads.any fun r => r.tag == t)).head?

/-- The target of a tunnel, as its origin entry names it. -/
def tunnelDst (s : State) (tun : Nat) : Nat :=
  match brgTunnel s tun with
  | none => 0
  | some e => orgDST e

/-- A read leaves through a window with a free tag and the tag's next GEN, or waits for a tag (R225). -/
def sendRead (w : Window) (t : LocalTxn) (s : State) : State :=
  match freeReadTag s with
  | none => updBrg (fun b => { b with readWait := b.readWait ++ [t] }) s
  | some tag =>
    let gen := Tab.get zeroN s.brg.gens tag
    let ra := wRemote w t.addr
    let r : ReadTag := { tag := tag, gen := gen, len := t.len, addr := ra, loc := t.addr, tun := wTUN w, dst := tunnelDst s (wTUN w), reader := t.reader }
    let s := updBrg (fun b =>
      { b with
        reads := b.reads ++ [r]
        gens := Tab.set zeroN tag ((gen + 1) % 64) b.gens
        peak := max b.peak (b.reads.length + 1) }) s
    originate 0 (wTUN w) (brgHeader 2 0 0 (gen * 1024 + tag) t.len ra) s

/-- The requester of a posted write is done. -/
def writeDone (r : Reader) (s : State) : State :=
  match r with
  | .cmd o => reply o ST_OK [] s
  | _ => s

/-- A posted write leaves through a window with its tunnel's next WNUM, START on the first (R228). -/
def sendWrite (w : Window) (t : LocalTxn) (s : State) : State :=
  let tun := wTUN w
  let n := Tab.get zeroN s.brg.wnum tun
  let start := !Tab.get noB s.brg.started tun
  let l := brgHeader 1 (ofBool start) 0 n t.data.length (wRemote w t.addr) ++ t.data
  writeDone t.reader (originate 0 tun l (updBrg (fun b =>
    { b with wnum := Tab.set zeroN tun ((n + 1) % 65536) b.wnum, started := Tab.set noB tun true b.started }) s))

/-- A request that fails at its own node with UR (R227, R229). -/
def failLocal (t : LocalTxn) (peer tun a : Nat) (s : State) : State :=
  let e := brgEntry s 1 3 peer tun 0 a
  if t.wr then writeDone t.reader (logPwl e s) else readFails t.reader t.addr t.len ST_BRG_FAIL 1 e s

/-- A request that holds an entry: translated and sent, or failed (R221, R229). -/
def runLocal (t : LocalTxn) (s : State) : State :=
  match windowAt s t.addr with
  | none => failLocal t 0 0 t.addr s
  | some w =>
    if rdB Reg.BRG.CFG.IEN s && (if t.wr then wWR w else wRD w) && (brgTunnel s (wTUN w)).isSome then
      (if t.wr then sendWrite w t s else sendRead w t s)
    else failLocal t (tunnelDst s (wTUN w)) (wTUN w) (wRemote w t.addr) s

/-- A requester of the port toward the TS; the others are at the command engine's. -/
def barPort (r : Reader) : Bool :=
  match r with
  | .cmd _ => false
  | _ => true

/-- Entries that local transactions of a bridge port hold: the port toward the TS, or the command engine's. -/
def localEntries (s : State) (bar : Bool) : Nat := (s.brg.reads.filter fun r => barPort r.reader == bar).length

/-- Entries that line-side transactions of a bridge port hold: behind the TS, or at the command engine's port, which also leads to
the Deep Comb (notes/assumptions/50). -/
def lineEntries (s : State) (bar : Bool) : Nat := (s.brg.held.filter fun h => (h.dom == 0x14) == bar).length

/-- A local transaction finds an entry (R232): 64 at its port, 16 of them for line-side transactions only. -/
def entryFree (s : State) (bar : Bool) : Bool := localEntries s bar + max 16 (lineEntries s bar) < 64

/-- A line-side transaction finds an entry (R232): any of the 64 at its port. -/
def lineFree (s : State) (bar : Bool) : Bool := localEntries s bar + lineEntries s bar < 64

/-- A number for a transaction that waits for its re-issue. -/
def freshTxn (s : State) : Nat := s.brg.retry.foldl (fun m t => max m (t.id + 1)) 0

/-- An attempt of a local transaction: run, or answered RETRY; a command's 16th in a row is ST_RETRY (R232). -/
def tryLocal (t : LocalTxn) (s : State) : State :=
  if entryFree s (barPort t.reader) then runLocal t s
  else
    let s := count (cBRG 5) s
    let again := updBrg (fun b => { b with retry := { t with tries := t.tries + 1 } :: b.retry }) s
    match t.reader with
    | .cmd o => if 15 ≤ t.tries then reply o ST_RETRY [] s else again
    | _ => again

/-- A new local transaction: behind one of the TS that waits for its re-issue, the TS holds it back (R232, R382). -/
def acceptTxn (t : LocalTxn) (s : State) : State :=
  let t := { t with id := freshTxn s }
  if barPort t.reader && s.brg.retry.any fun x => barPort x.reader then updBrg (fun b => { b with retry := b.retry ++ [t] }) s
  else tryLocal t s

/-- Transactions of the TS that were held back behind a re-issue go on. -/
def retryNext : Nat → State → State
  | 0, s => s
  | k + 1, s =>
    match takeFirst (fun t : LocalTxn => barPort t.reader) s.brg.retry with
    | some (t, rest) => if t.tries = 0 then retryNext k (tryLocal t (updBrg (fun b => { b with retry := rest }) s)) else s
    | none => s

/-- LOCAL_RETRY (R232): the transaction with this number is issued again; at the TS only the oldest that waits. -/
def execLocalRetry (id : Nat) (s : State) : Res :=
  match takeFirst (fun t : LocalTxn => t.id == id) s.brg.retry with
  | none => .next s
  | some (t, rest) =>
    let first := (s.brg.retry.filter fun x => barPort x.reader).head? == some t
    if t.tries = 0 || (barPort t.reader && !first) then .next s
    else .next (retryNext rest.length (tryLocal t (updBrg (fun b => { b with retry := rest }) s)))

/-- A freed tag goes to the read that waits longest for one (R225). -/
def tagFreed (s : State) : State :=
  match s.brg.readWait with
  | [] => s
  | t :: rest => acceptTxn t (updBrg (fun b => { b with readWait := rest }) s)

/-! BAR2 (R382). -/

/-- One part of a BAR2 request: served through the windows while S4 is in service, failed with UR otherwise (Table 15.2). -/
def barPart (wr : Bool) (a len : Nat) (data : List Byte) (tlp : Nat) (s : State) : State :=
  let t : LocalTxn := { id := 0, tries := 0, wr := wr, addr := a, len := len, data := data, reader := .bar2 tlp }
  if domSt s 0x14 = .inService then acceptTxn t s else failLocal t 0 0 a s

/-- WINDOW_REQUEST (R221, R382): a part of a BAR2 request, within 4 KiB of window space, a write of at most 512 bytes. -/
def execWindowRequest (wr : Bool) (addr : BitVec 36) (len : BitVec 13) (data : List Byte) (tlp : Nat) (s : State) : Res :=
  let n := if wr then data.length else len.toNat
  if n = 0 ∨ 4096 < addr.toNat % 4096 + n ∨ (wr = true ∧ (512 < n ∨ n ≠ len.toNat)) then .fault (.illFormed "WINDOW_REQUEST")
  else if tsLives s then .next (barPart wr addr.toNat n data tlp s)
  else .next s

/-- The parts of a request: cut at 4 KiB boundaries, a write also at 512 bytes (R222, R382). -/
def cutParts (wr : Bool) : Nat → Nat → Nat → List (Nat × Nat)
  | 0, _, _ => []
  | k + 1, a, n =>
    if n = 0 then []
    else
      let room := 4096 - a % 4096
      let m := min n (if wr then min 512 room else room)
      (a, m) :: cutParts wr k (a + m) (n - m)

/-- BAR2_REQUEST (R382): a read or a write of at most 4,096 bytes. -/
def execBar2Request (wr : Bool) (addr : BitVec 36) (len : BitVec 13) (data : List Byte) (tlp : Nat) (s : State) : Res :=
  let n := len.toNat
  if n = 0 ∨ 4096 < n ∨ (wr = true ∧ data.length ≠ n) then .fault (.illFormed "BAR2_REQUEST")
  else if !tsLives s then .next s
  else
    .next (forAll (cutParts wr 16 addr.toNat n) (fun p s =>
      barPart wr (p.1 % 2 ^ 36) p.2 ((data.drop (p.1 - addr.toNat)).take p.2) tlp s) s)

/-! What a target answers (R223). -/

/-- A frame back to the node of a request. -/
def brgAnswer (src tun tc : Nat) (l : List Byte) (s : State) : State := sendUnpoliced src tun tc 4 false l s

/-- A write context counts failures (R229). -/
def addFails (src tun n : Nat) (s : State) : State :=
  updBrg (fun b =>
    { b with wctx := b.wctx.map fun w => if w.src = src ∧ w.tun = tun then { w with fails := min 65535 (w.fails + n) } else w }) s

/-- A write fails at its target (R229). -/
def writeFails (src tun tc wnum addr status : Nat) (s : State) : State :=
  let s := count (cBRG 3) (logElg (brgEntry s status 4 src tun wnum addr) s)
  brgAnswer src tun tc (brgHeader 6 0 status wnum 1 addr) (addFails src tun 1 s)

/-- A completion (Table 8.6). -/
def brgCpl (src tun tc id status : Nat) (data : List Byte) (s : State) : State :=
  brgAnswer src tun tc (brgHeader 3 0 status id data.length 0 ++ data) s

/-- A request that its target holds ends with a status, a read that succeeds with its data. -/
def finish (h : BrgHeld) (status : Nat) (data : List Byte) (s : State) : State :=
  let s := updBrg (fun b => { b with held := b.held.erase h }) s
  if h.wr then (if status = 0 then s else writeFails h.src h.tun h.tc h.id h.addr status s)
  else brgCpl h.src h.tun h.tc h.id status data s

/-- Requests that the bridge holds end with one status. -/
def finishAll (p : BrgHeld → Bool) (status : Nat) (s : State) : State := forAll (s.brg.held.filter p) (fun h s => finish h status [] s) s

/-- A domain forced into QUIESCED (R231): ABORT for every held request whose resource lies in it. -/
def brgAbort (d : Nat) (s : State) : State := finishAll (fun h => h.dom == d) 6 s

/-- The requesters behind BAR2 are gone (R231, Table 15.2): completions to come free their tags and are discarded; retried
writes are sent, retried reads dropped. -/
def barGone (s : State) : State :=
  let old := s.brg.retry.filter fun t => barPort t.reader
  let s := updBrg (fun b =>
    { b with
      reads := b.reads.map fun r => if barPort r.reader then { r with reader := .gone } else r
      readWait := b.readWait.filter fun t => !barPort t.reader
      retry := b.retry.filter fun t => !barPort t.reader
      toHost := [] }) s
  forAll (old.filter fun t => t.wr) acceptTxn s

/-! The PCIe links (R384, R386). -/

/-- A held request lies behind the root port. -/
def behindRoot (h : BrgHeld) : Bool := h.dom == 0x14 && h.addr < 0x2000000000

/-- The root-port link is lost: its accesses fail with TGTERR (Table 15.2). -/
def rootLost (s : State) : State :=
  if rdB Reg.PCR.STAT.LINKUP s then
    raise srcPCRLINK (finishAll behindRoot 5 (wr Reg.PCR.STAT.LINKUP 0 (wr Reg.PCR.STAT.GEN 0 (wr Reg.PCR.STAT.WIDTH 0 s))))
  else s

/-- ROOT_PORT_LINK_LOST (R386). -/
def execRootPortLinkLost (s : State) : Res := .next (rootLost s)

/-- What a link-down and an FLR of the endpoint do alike (R275, R378, R386): the host interface resets, BAR2 readers are gone, and
accesses to server memory fail with TGTERR. -/
def endpointGone (s : State) : State :=
  let s := setBus false false false (barGone (hostIfDown s))
  finishAll (fun h => h.dom == 0x14 && !behindRoot h) 5 s

/-- The endpoint's link goes down: LDN is set. -/
def pceDown (s : State) : State :=
  if rdB Reg.PCE.STAT.LINKUP s then
    raise srcPCELINK (wr Reg.PCE.STAT.LDN 1 (wr Reg.PCE.STAT.LINKUP 0 (wr Reg.PCE.STAT.GEN 0 (wr Reg.PCE.STAT.WIDTH 0 (endpointGone s)))))
  else s

/-- PCIE_LINK_DOWN (R275). -/
def execPcieLinkDown (s : State) : Res := .next (pceDown s)

/-- FLR (R275): the link stays up. -/
def execFlr (s : State) : Res :=
  .next (if tsLives s then raise srcFLR (wr Reg.PCE.STAT.FLR 1 (endpointGone s)) else s)

/-- The highest generation that GEN_MAX allows: on stepping A0 Gen 3 at most (R377, R384, R504). -/
def genMax (s : State) (f : Fld) : Nat := if s.stepB0 then rd f s else min 2 (rd f s)

/-- PCIE_LINK_UP (R384): the endpoint's link, or the root port's while EN is 1 and PERST 0, has trained at a generation of 1 to 4
and a width; for the endpoint the server's bus-master and MSI-X enables come with it (notes/assumptions/30). -/
def execPcieLinkUp (root : Bool) (gen : Fin 4) (width : Fin 3) (bme msixEn fmask : Bool) (s : State) : Res :=
  let up := present s 4 && (domSt s 0x14 == .inService || domSt s 0x14 == .returning || domSt s 0x14 == .quiesced || domSt s 0x14 == .quiescing)
  if !up then .next s
  else if root then
    if rdB Reg.PCR.CFG.EN s && !rdB Reg.PCR.CFG.PERST s && gen.val ≤ genMax s Reg.PCR.CFG.GEN_MAX && width.val ≤ rd Reg.PCR.CFG.WIDTH_MAX s then
      .next (raise srcPCRLINK (wr Reg.PCR.STAT.LINKUP 1 (wr Reg.PCR.STAT.GEN (gen.val + 1) (wr Reg.PCR.STAT.WIDTH width.val s))))
    else .next s
  else if rdB Reg.PCE.CFG.EN s && gen.val ≤ genMax s Reg.PCE.CFG.GEN_MAX && width.val ≤ rd Reg.PCE.CFG.WIDTH_MAX s then
    .next (raise srcPCELINK <| setBus bme msixEn fmask (wr Reg.PCE.STAT.LINKUP 1 (wr Reg.PCE.STAT.GEN (gen.val + 1) (wr Reg.PCE.STAT.WIDTH width.val s))))
  else .next s

end Sys2Proof.Machine
end

