-- ==== Sys2Proof/Machine/RegAccess.lean ====
section
/-! DEFINITION. Register accesses (R16 to R21, R288 to R298): the outcome by address, reads with their live views and their
side effects, writes by access type with the effects of single fields, and REGISTER_WRITE. -/
namespace Sys2Proof.Machine

/-! Live views: what a read shows of state that is held elsewhere. -/

def word (n : Nat) : Word := BitVec.ofNat 32 n

/-- A sum of `f i` in fields of `w` bits, index 0 lowest. -/
def packed (w n : Nat) (f : Nat → Nat) : Nat := (List.range n).foldl (fun a i => a + f i % 2 ^ w * 2 ^ (w * i)) 0

/-- GLB.ID. -/
def glbId (s : State) : Word := word (0xA7110800 + ofBool s.stepB0 * 16)

/-- GLB.CAP. -/
def glbCap (s : State) : Word := word (s.variant.code * 2 ^ 24 + s.variant.slots * 2 ^ 16 + 0x4800)

/-- DOMAIN_STATUS STATE (R283). A die that is off is held in RESETTING (R419). -/
def domCode (d : DomSt) : Nat :=
  match d with
  | .inService => 0
  | .quiescing => 1
  | .quiesced => 2
  | .resetting => 3
  | .returning => 4
  | .notUp => 2
  | .off => 3

/-- The nibble of GLB.SLOT for slot `n`. -/
def slotCode (s : State) (n : Nat) : Nat :=
  if n = 0 then 1
  else if !present s n then 0
  else if linkState s n = 4 then 6
  else if domSt s (0x10 + n) = .notUp then 7
  else domCode (domSt s (0x10 + n)) + 1

/-- DIE.SIDn (R297). -/
def dieSid (s : State) (n : Nat) : Word :=
  if !present s n then 0xF0000000#32
  else word ((match n with
    | 0 => 0
    | 1 => 1
    | 2 => 2
    | 6 => 2
    | 3 => 3
    | 7 => 3
    | 4 => 4
    | _ => 5) * 2 ^ 28 + ofBool s.stepB0 * 2 ^ 24)

/-- HLPn.LSTAT. -/
def lstatWord (s : State) (n : Nat) : Word :=
  let p := lp s n
  word (p.tx.buf.length % 2 ^ 13 * 2 ^ 19 + custCount p.tx % 2 ^ 11 * 2 ^ 8 + ofBool p.tx.credInit * 4 + ofBool p.rx.waiting * 2 +
    ofBool (1024 ≤ custCount p.tx))

/-- RTE.BRK: the applied record of each ring port. -/
def brkWord (s : State) : Word :=
  let a := appliedBreak s (ringPA s)
  let b := appliedBreak s (ringPB s)
  word (ofBool a.isSome * 2 ^ 31 + ofBool b.isSome * 2 ^ 30 + a.getD 0 % 2 ^ 14 * 2 ^ 16 + b.getD 0 % 2 ^ 14)

/-- CMD.STAT. -/
def cmdStatWord (s : State) : Word :=
  word (ofBool (rdB Reg.CMD.STAT.HOSTSEL s) * 2 ^ 31 + ofBool (keyValid s) * 2 ^ 30 + inflight s .line * 2 ^ 22 + inflight s .host * 2 ^ 15 +
    inflight s .svc * 2 ^ 8 + (s.cmd.sessions.filter fun x => !x.ended).length)

/-- TIM.HOLD: ms since holdover began. -/
def holdWord (s : State) : Word :=
  let q := rd Reg.TIM.STAT.QSTATE s
  if q = 3 ∨ q = 4 then word (min 0xFFFFFFFF ((s.now - s.time.holdFrom) / 1000000)) else 0

/-- A register word with the bits of `m` shown as those of `v`. -/
def shown (s : State) (a m v : Nat) : Word := word (Nat.lor (Nat.land (regGet s a).toNat (0xFFFFFFFF - m)) (Nat.land v m))

/-- DCM.STAT.PEND: clients with a request that waits (Table 1.10). -/
def dcmPend (s : State) : Nat := packed 1 8 fun i => ofBool (dcmAsks s (i + 1))

/-- IMG.KEYSTAT.OWNER and ALAT: two bits per key-hash slot. -/
def otpStates (s : State) (first n : Nat) : Nat := packed 2 n fun i => Tab.get zeroN s.otp.st (first + i)

/-- SCH.SHP_TOK and GRD.POL_TOK: an unused index and policer 0 read 0 (R196). -/
def shpTok (s : State) (i : Nat) : Word := if shaperUsed i then tokenBytes s (shaper s i) else 0
def polTok (s : State) (i : Nat) : Word := if i = 0 then 0 else tokenBytes s (policer s i)

/-- The words of the LD that are shown from other state; `none` for a register that holds its own word. -/
def ldView (r : EntryPoint) (s : State) (a : Nat) : Option Word :=
  let b := addrBlk a
  let o := addrOff a
  match b with
  | 0x00 => if o = 0 then some (glbId s) else if o = 4 then some (glbCap s) else if o = 0x10 then some (word (packed 4 8 (slotCode s))) else none
  | 0x01 | 0x02 | 0x03 | 0x04 => if o = 0x18 then some (lstatWord s (b - 1)) else none
  | 0x06 => if o = 0x10 then some (brkWord s) else none
  | 0x08 =>
    if o = 4 then some (word (if rdB Reg.CMB.STAT.FL_READY s then freeNow s else 0))
    else if o = 0x1C then some (word (segsUsed s * 2 ^ 16 + (s.comb.spill.filter fun e => e.2 != []).length))
    else none
  | 0x09 => if o = 0xC then some (shpTok s (rd (Reg.SCH.SEL.INDEX.mine r) s)) else none
  | 0x0A => if o = 0xC then some (polTok s (rd (Reg.GRD.SEL.INDEX.mine r) s)) else none
  | 0x0C => if o = 0 then some (cmdStatWord s) else none
  | 0x0D =>
    if o < 0x40 then some (word (rawMask s (o / 4)))
    else if o < 0x80 then some (word (pendMask s (o / 4 - 16)))
    else if o = 0x184 then some (summaryWord s)
    else none
  | 0x0E => if o = 0 then some (shown s a 0xFFFF (sleepBlock s)) else if o = 8 then some (pstateWord s) else none
  | 0x10 =>
    if o = 4 then some (shown s a 0x1C000000 (match parentPort s with
      | none => 0
      | some p => p * 2 ^ 27 + 2 ^ 26))
    else if o = 0xC ∨ o = 0x10 then some (regGet s (a + 0x100000000 * (reqIdx r + 1)))
    else if o = 0x40 then some (holdWord s)
    else none
  | 0x11 =>
    if o = 0x38 then some (word (packed 4 8 fun k => (trigPin s k).entries.length))
    else if 0x80 ≤ o ∧ o < 0xC0 ∧ o % 8 = 0 then some (regGet s (a + 0x100000000 * (reqIdx r + 1)))
    else none
  | 0x12 =>
    if o = 8 then some (shown s a 0xFFFF0000 ((match s.img.trial with
      | none => 0
      | some t => min 65535 ((t.2 - s.now + 999999999) / 1000000000)) * 2 ^ 16))
    else if o = 0x34 then some (shown s a 0x80000FFF (ofBool s.otp.ownOnly * 2 ^ 31 + otpStates s 4 4 * 2 ^ 4 + otpStates s 0 2))
    else if o = 0x38 then some (shown s a 0x20000000 (ofBool (s.img.jobs != [] || rd Reg.IMG.STAT.PHASE s == 1) * 2 ^ 29))
    else none
  | 0x13 =>
    if a = Reg.SVC.STAT.word.addr then some (shown s a 0x80000 (ofBool (wakeReason s) * 2 ^ 19)) else none
  | 0x14 =>
    if o = 4 then some (shown s a 0xFF0000 (dcmPend s * 2 ^ 16))
    else if o = 0x30 then some (shown s a 0x10000000 (ofBool (holdp s) * 2 ^ 28))
    else if o = 0x34 then some (word (ofBool (agedTol s 0 != 0xFFFFFF) * 2 ^ 24 + ofBool (agedTol s 1 != 0xFFFFFF) * 2 ^ 25 + ltol s))
    else none
  | 0x15 =>
    if o < 0x20 then some (dieSid s (o / 4))
    else if 0x40 ≤ o ∧ o < 0x60 ∧ present s ((o - 0x40) / 4) = false then some 0
    else none
  | _ => none

/-- The words of a tributary die that are shown from other state. -/
def dieView (s : State) (a : Nat) : Option Word :=
  let sl := addrSlot a
  let b := addrBlk a
  let o := addrOff a
  if (sl = 3 ∨ sl = 7) ∧ b < 6 ∧ o = 4 then
    some (shown s a 0x08000000 (ofBool (s.now < (eth s (6 * (sl / 4) + b)).rxPause) * 2 ^ 27))
  else if sl = 4 ∧ b = 0 ∧ o = 8 then
    some (shown s a 0x4000FFFF (ofBool (bit 0 (hostWord s 0x20)) * 2 ^ 30 + packed 1 16 fun q => ofBool (rqEn s q)))
  else if sl = 5 ∧ b < 2 ∧ o = 0x80 then some (shown s a 0xFFFFFF (tolNow s b))
  else none

/-! Reads. -/

/-- The snapshot of counter high words that each requester has (R465). -/
def highSnap (r : EntryPoint) : Nat := 0x80004 + 0x100000000 * (reqIdx r + 1)

/-- The key of a counter block (R466). -/
def ctrBlock (a : Nat) : Nat := 512 * addrSlot a + addrBlk a

/-- The counters of a block, from its first `k` to the one after its last (Table 19.2). -/
def ctrRange (slot blk : Nat) : Nat × Nat :=
  match slot with
  | 0 =>
    match blk with
    | 0x01 | 0x02 | 0x03 | 0x04 => (0, 31)
    | 0x05 => (0, 32)
    | 0x06 => (0, 4)
    | 0x07 => (0, 26)
    | 0x08 => (0, 736)
    | 0x0A => (0, 12290)
    | 0x0B => (0, 6)
    | 0x0C => (0, 8)
    | 0x0F => (0, 18)
    | 0x11 => (0, 9)
    | 0x14 => (0, 3)
    | 0x15 => (6, 24)
    | _ => (0, 0)
  | 3 | 7 => if blk < 6 then (0, 11) else (0, 0)
  | 4 => if blk = 0 then (0, 1) else (0, 0)
  | 5 => if blk < 2 then (0, 5) else (0, 0)
  | _ => (0, 0)

/-- A counter has its low word at `a` (R469). -/
def ctrAt (a : Nat) : Bool :=
  let r := ctrRange (addrSlot a) (addrBlk a)
  let k := (addrOff a - 0x80000) / 8
  r.1 ≤ k && k < r.2

/-- A counter and the effect of read-and-clear mode (R466): its value, its SAT flag. A reserved index has neither (R469). -/
def takeCtr (a : Nat) (s : State) : Nat × Bool × State :=
  if ctrAt a then
    let c := ctrGet s a
    (c.v, c.sat, if Tab.get noB s.ctrRc (ctrBlock a) then ctrSet a { v := 0, sat := false } s else s)
  else (0, false, s)

/-- A read in the counter window (R465, R467); a word of no counter is reserved (R469, R20). -/
def readCtrWord (r : EntryPoint) (a : Nat) (s : State) : Word × State :=
  if ctrAt a = false then (0, s)
  else if a % 8 = 0 then
    match takeCtr a s with
    | (v, sat, s) =>
      let v := if sat then 2 ^ 64 - 1 else v
      (word v, regSet s (highSnap r) (word (v / 2 ^ 32)))
  else (regGet s (highSnap r), s)

/-- The key that holds the copy of a register a requester reaches (R295). -/
def keyFor (r : EntryPoint) (d : RegDesc) (a : Nat) : Nat := if d.perReq then a + 0x100000000 * (reqIdx r + 1) else a

/-- A read with no effect of its own: WO bits read 0, RC bits are cleared. -/
def plainRead (r : EntryPoint) (a : Nat) (s : State) : Word × State :=
  match regDesc a with
  | none => (0, s)
  | some d =>
    let k := keyFor r d a
    let v := regGet s k
    (v &&& ~~~(word d.wo), if d.rc = 0 then s else regSet s k (v &&& ~~~(word d.rc)))

/-- A read of the register at `a` by a requester, let through by Table 11.3. -/
def readReg (r : EntryPoint) (a : Nat) (s : State) : Word × State :=
  if 0x80000 ≤ addrOff a then readCtrWord r a s
  else if a = Reg.SCH.HWM_OCC.word.addr then readHwmOcc r s
  else if a = Reg.SCH.HWM_SOJ.word.addr then readHwmSoj r s
  else if a = Reg.BRG.RDSTAT.word.addr then readRdstat s
  else if a = Reg.BRG.PWL_STAT.word.addr then readPwlStat s
  else if a = Reg.BRG.PWL_DATA.word.addr then readLog 0 r s
  else if a = Reg.BRG.ELG_STAT.word.addr then readElgStat s
  else if a = Reg.BRG.ELG_DATA.word.addr then readLog 4 r s
  else if a = Reg.TIM.NOW_HI.word.addr then readNowHi r s
  else if a = Reg.NRS.WREASON.word.addr then readWreason s
  else if a = Reg.SVC.ORPH.word.addr then readOrph s
  else if a = Reg.IMG.QSPI.word.addr then ((ldView r s a).getD 0, wr Reg.IMG.QSPI.WERR 0 s)
  else if addrSlot a = 0 ∧ addrBlk a = 0x11 ∧ 0x80 ≤ addrOff a ∧ addrOff a < 0xC0 ∧ a % 8 = 4 then readCapLo r ((addrOff a - 0x80) / 8) s
  else
    match (if addrSlot a = 0 then ldView r s a else dieView s a) with
    | some v => (v, s)
    | none => plainRead r a s

/-! Writes. -/

/-- The bits a write gives the RW fields, and those it gives W1C, W1S and WO fields: `v` under `mask` (R279). -/
def mergeWord (d : RegDesc) (old mask v : Word) : Word := (old &&& word (d.rw ||| d.rwl) &&& ~~~mask) ||| (v &&& mask)

/-- A word stored by field type (Table 0.7): RW and RWL take `w`, W1C clears, W1S sets, the rest stays. -/
def storeWord (d : RegDesc) (old w : Word) : Word :=
  let rw := word (d.rw ||| d.rwl)
  (((old &&& ~~~rw) ||| (w &&& rw)) &&& ~~~(w &&& word d.w1c)) ||| (w &&& word d.w1s)

/-- CPOOL fields sum to at most 256 units, 0 taken as 1 (R126). -/
def poolsFit (w : Word) : Bool := ((List.range 4).foldl (fun a i => a + max 1 (bits (8 * i + 7) (8 * i) w.toNat)) 0) ≤ 256

/-- What a write does in the LD beside storing the word: `g` is the state with the word stored. -/
def putLd (r : EntryPoint) (a : Nat) (w mask : Word) (g s : State) : Nat × State :=
  let b := addrBlk a
  let o := addrOff a
  let n := w.toNat
  let ok := fun x : State => (ST_OK, x)
  match b with
  | 0x00 => ok (if o = 0xC ∧ bit 30 n = true then wr Reg.GLB.ADDRERR.ADDR 0 g else g)
  | 0x01 | 0x02 | 0x03 | 0x04 =>
    let p := b - 1
    if o = 0 then
      ok (setPortEn p (bit 0 n) (setMaxstate p (bits 27 26 n)
        (wr (Reg.HLP.CFG.EN p) (rd (Reg.HLP.CFG.EN p) s) (wr (Reg.HLP.CFG.MAXSTATE p) (rd (Reg.HLP.CFG.MAXSTATE p) s) g))))
    else if o = 0xC then ok (forAll (onBits 4 n) (laneReq p) (wr (Reg.HLP.LRET.REQ p) (rd (Reg.HLP.LRET.REQ p) s) g))
    else if o = 0x10 ∧ poolsFit w = false then (ST_BAD_PARAM, s)
    else ok g
  | 0x06 =>
    if o = 0 then ok (addrWrite w s)
    else if o = 0xC then
      if bit 31 n then ok (ringEnWrite true (wr Reg.RTE.RING.EN (rd Reg.RTE.RING.EN s) g))
      else
        let s := ringEnWrite false s
        ok (regSet s a (regGet g a))
    else if o = 0x1C then ok (bypassPorts (bit 31 n) (rd Reg.RTE.BYP.PORTS g)
      (wr Reg.RTE.BYP.PORTS (rd Reg.RTE.BYP.PORTS s) (wr Reg.RTE.BYP.BYP (rd Reg.RTE.BYP.BYP s) g)))
    else ok g
  | 0x08 =>
    if o = 0xC then ok (rtnReq (bits 15 0 n) (retReq (bits 31 16 n) s))
    else if o = 0x24 then ok (forceVoq (bit 0 n) s)
    else ok g
  | 0x09 =>
    if o = 0x10 then
      let x := if bit 0 n then shpCtlApply r s else (ST_OK, s)
      (x.1, if bit 1 n then shpCtlLoad r x.2 else x.2)
    else ok g
  | 0x0A =>
    if o = 0x10 then
      let x := if bit 0 n then polCtlApply r s else (ST_OK, s)
      (x.1, if bit 1 n then polCtlLoad r x.2 else x.2)
    else if o = 0x20 then xbCfgWrite w s
    else if o = 0x24 then ok (xbBurstWrite w s)
    else ok g
  | 0x0B =>
    if o = 0x14 then
      let x := if bit 0 n then wctlApply r s else (ST_OK, s)
      (x.1, if bit 1 n then wctlLoad r x.2 else x.2)
    else if o = 0x2C then
      let x := if bit 0 n then tctlApply r s else (ST_OK, s)
      (x.1, if bit 1 n then tctlLoad r x.2 else x.2)
    else ok g
  | 0x0C =>
    if o = 4 then hostSel (bit 0 n) s
    else if 0x20 ≤ o ∧ o < 0x30 then
      let k := (o - 0x20) / 4
      let old := Tab.get (fun _ => (0 : Word)) s.cmd.lkey k
      ok (updCmd (fun c => { c with lkey := Tab.set (fun _ => (0 : Word)) k ((old &&& ~~~mask) ||| (w &&& mask)) c.lkey }) s)
    else ok g
  | 0x0D =>
    if 0x40 ≤ o ∧ o < 0x80 then ok (pendWrite (o / 4 - 16) n s)
    else if o = 0x180 then ok (completeGroup (bits 3 0 n) s)
    else ok g
  | 0x0F =>
    if o < 0x10 then ok (lpwPcfgWrite (o / 4) w s)
    else if o < 0x20 then ok (efEvent (fun _ => g) s)
    else if o = 0x60 then
      let x := if bit 0 n then cctlApply r s else (ST_OK, s)
      (x.1, if bit 1 n then cctlLoad r x.2 else x.2)
    else if o = 0x70 then ok (lpwLcfgWrite w s)
    else ok g
  | 0x10 => ok (if o = 0 then timCfgWrite w s else g)
  | 0x11 =>
    if o < 0x20 then ok (pcfgWrite (o / 4) w s)
    else if o = 0x34 then
      let x := if bit 0 n then actlArm r g else (ST_OK, g)
      (x.1, if bit 1 n then actlCancel r x.2 else x.2)
    else ok (if o = 0x40 then forAll (List.range 8) drainReports g else g)
  | 0x13 => ok (if o = 0 then svcCtrlWrite w s else g)
  | 0x14 => if o = 0 then (if bit 0 n then rgnApply s else (ST_OK, s)) else ok g
  | _ => ok g

/-- What a write does in a tributary die beside storing the word. -/
def putDie (r : EntryPoint) (a : Nat) (w : Word) (g s : State) : Nat × State :=
  let sl := addrSlot a
  let b := addrBlk a
  let o := addrOff a
  let d := sl / 4
  let n := w.toNat
  let ok := fun x : State => (ST_OK, x)
  if sl = 2 ∨ sl = 6 then
    let d := if sl = 6 then 1 else 0
    if b < 4 ∧ o = 0 then ok (tcpCfgWrite (4 * d + b) w s)
    else if b = 4 ∧ o = 0 then ok (hubCfgWrite d w s)
    else if b = 4 ∧ o = 0x18 then ok (prxDbWrite d w s)
    else if b = 5 ∧ o = 0 then ok (budgetWrite d (bits 8 0 n) s)
    else ok g
  else if sl = 3 ∨ sl = 7 then
    if b < 6 ∧ o = 0 then ok (ethCfgWrite (6 * d + b) w s)
    else if b = 6 ∧ o = 0x18 then
      let x := if bit 0 n then vctlApply r d s else (ST_OK, s)
      (x.1, if bit 1 n then vctlLoad r d x.2 else x.2)
    else ok g
  else if sl = 4 then
    if b = 0 ∧ o = 0 then ok (if bit 31 n then g else pceDown g)
    else if b = 1 ∧ o = 0 then ok (if bit 31 n = true ∧ bit 25 n = false then g else rootLost g)
    else if b = 1 ∧ 0x10 ≤ o ∧ o < 0x20 ∧ (bits 30 25 n < 12 ∨ 33 < bits 30 25 n) then (ST_BAD_PARAM, s)
    else ok g
  else if sl = 5 then
    if b < 2 ∧ o = 0 then ok (dspCfgWrite b w s)
    else if b = 2 ∧ o = 0 then dmxRouteWrite w s
    else ok g
  else ok g

/-- IMG_LOCK refuses the write (R18, R287, R294): it touches an RWL bit, or the line key. -/
def lockRefuses (s : State) (a : Nat) (d : RegDesc) (mask : Word) : Bool :=
  let key := if 0xC00020 ≤ a ∧ a < 0xC00030 then d.wo else 0
  rdB Reg.GLB.STAT.LOCKED s && (word (d.rwl ||| key) &&& mask) != 0

/-- A write of `v` under `mask` to the register at `a` by a requester, let through by Table 11.3: its status and its effect
(R18, R20, R279). -/
def writeReg (r : EntryPoint) (a : Nat) (mask v : Word) (s : State) : Nat × State :=
  match regDesc a with
  | none => (ST_OK, s)
  | some d =>
    if lockRefuses s a d mask then (ST_DENIED, s)
    else
      let k := keyFor r d a
      let old := regGet s k
      let w := mergeWord d old mask v
      let g := regSet s k (storeWord d old w)
      if addrSlot a = 0 then putLd r a w mask g s else putDie r a w g s

/-! Accesses (Table 11.3). -/

/-- The address is refused under row 1 or 2. -/
def badAddr (a : Nat) : Bool := a % 4 != 0 || (blockRegs (addrSlot a) (addrBlk a)).isNone

/-- A refusal under row 1 or 2: ADDR_ERR, and for row 2 the first address since it was cleared. -/
def noteBad (a : Nat) (s : State) : State :=
  let s := if a % 4 = 0 ∧ rd Reg.GLB.ADDRERR.ADDR s = 0 then wr Reg.GLB.ADDRERR.ADDR a s else s
  raise srcADDR_ERR (wr Reg.GLB.STAT.ADDR_ERR 1 s)

/-- A refusal under rows 3 to 6; through the direct window an absent slot is entered in the bridge error log (R5). -/
def noteRefused (win : Bool) (a : Nat) (s : State) : State :=
  if win && accStat s a == ST_NO_DIE then logElg (brgEntry s 3 6 0 0 0 a) s else s

/-- One read access by address: its status, its value, the state it leaves. -/
def readAt (r : EntryPoint) (win : Bool) (a : Nat) (s : State) : Nat × Word × State :=
  if badAddr a then (ST_BAD_PARAM, 0xFFFFFFFF#32, noteBad a s)
  else if accStat s a ≠ ST_OK then (accStat s a, 0xFFFFFFFF#32, noteRefused win a s)
  else (ST_OK, readReg r a s)

/-- One write access by address. -/
def writeAt (r : EntryPoint) (win : Bool) (a : Nat) (mask v : Word) (s : State) : Nat × State :=
  if badAddr a then (ST_BAD_PARAM, noteBad a s)
  else if accStat s a ≠ ST_OK then (accStat s a, noteRefused win a s)
  else writeReg r a mask v s

/-- A read followed by a write in one access (R279): OLD is the value read. -/
def rmwAt (r : EntryPoint) (a : Nat) (mask v : Word) (s : State) : Nat × Word × State :=
  match regDesc a with
  | some d =>
    if !badAddr a && accStat s a == ST_OK && lockRefuses s a d mask then (ST_DENIED, 0, s)
    else
      match readAt r false a s with
      | (st, old, t) => if st = ST_OK then let x := writeReg r a mask v t; (x.1, old, x.2) else (st, old, t)
  | none => readAt r false a s

/-- The register address behind an offset of BAR0 (R378). -/
def barAddr (off : Nat) : Nat := off / 0x2000000 % 8 * 0x20000000 + off % 0x2000000

/-- A write of a DWORD in BAR0 (R378): the host interface in the S1 stripe, the direct register window elsewhere. -/
def barWrite (off : Nat) (v : Word) (s : State) : State :=
  if !tsLives s then s
  else if off / 0x2000000 % 8 = 1 then (if off % 4 = 0 then hostIfWrite (off % 0x2000000) v s else noteBad off s)
  else if !bit 0 (rd Reg.CMD.OPEN_HOST.GMASK s) then count (cCMD 7) s
  else (writeAt .host true (barAddr off) 0xFFFFFFFF#32 v s).2

/-- A read of a DWORD in BAR0 (R378, R5): all ones where the access is refused. -/
def barRead (off : Nat) (s : State) : Word × State :=
  if off / 0x2000000 % 8 = 1 then (if off % 4 = 0 then hostIfRead (off % 0x2000000) s else (0xFFFFFFFF#32, noteBad off s))
  else if !bit 0 (rd Reg.CMD.OPEN_HOST.GMASK s) then (0xFFFFFFFF#32, count (cCMD 7) s)
  else (readAt .host true (barAddr off) s).2

/-- REGISTER_WRITE (R18, R290, R378): a write of the register at `addr` by a requester, or of the DWORD at offset `addr` of BAR0. -/
def execRegisterWrite (req : EntryPoint) (win : Bool) (addr : Nat) (v : Word) (s : State) : Res :=
  if win then .next (barWrite (addr % 2 ^ 28) v s) else .next (writeAt req false (addr % 2 ^ 32) 0xFFFFFFFF#32 v s).2

end Sys2Proof.Machine
end

