-- ==== Sys2Proof/Machine/RegCommands.lean ====
section
/-! DEFINITION. The register group of commands, GET_INFO and NOP (R278, R279, R469). -/
namespace Sys2Proof.Machine

/-- READ_REG (R279). -/
def execReadReg (o : Origin) (body : List Byte) (s : State) : Res :=
  command o body 4 (fun s =>
    match readAt o.ep false (field body 0 4) s with
    | (st, v, s) => reply o st (if st = ST_OK then beBytes 4 v.toNat else []) s) s

/-- WRITE_REG (R279). -/
def execWriteReg (o : Origin) (body : List Byte) (s : State) : Res :=
  command o body 8 (fun s =>
    match writeAt o.ep false (field body 0 4) 0xFFFFFFFF#32 (word (field body 4 4)) s with
    | (st, s) => reply o st [] s) s

/-- RMW_REG (R279). -/
def execRmwReg (o : Origin) (body : List Byte) (s : State) : Res :=
  command o body 12 (fun s =>
    match rmwAt o.ep (field body 0 4) (word (field body 4 4)) (word (field body 8 4)) s with
    | (st, old, s) => reply o st (if st = ST_OK then beBytes 4 old.toNat else []) s) s

/-! Block commands (R279): words in order, up to the first that fails. -/

/-- Reads of `n` words: the status of the first that failed, the words read, the state. -/
def readWords (r : EntryPoint) : Nat → Nat → State → Nat × List Word × State
  | 0, _, s => (ST_OK, [], s)
  | n + 1, a, s =>
    match readAt r false a s with
    | (st, v, s) =>
      if st = ST_OK then
        match readWords r n (a + 4) s with
        | (st, l, s) => (st, v :: l, s)
      else (st, [], s)

/-- Writes of words: the status of the first that failed, how many were done, the state. -/
def writeWords (r : EntryPoint) : List Word → Nat → State → Nat × Nat × State
  | [], _, s => (ST_OK, 0, s)
  | v :: l, a, s =>
    match writeAt r false a 0xFFFFFFFF#32 v s with
    | (st, s) =>
      if st = ST_OK then
        match writeWords r l (a + 4) s with
        | (st, n, s) => (st, n + 1, s)
      else (st, 0, s)

/-- Read-modify-writes of `n` records of 12 bytes. -/
def rmwWords (r : EntryPoint) : Nat → List Byte → State → Nat × List Word × State
  | 0, _, s => (ST_OK, [], s)
  | n + 1, l, s =>
    match rmwAt r (field l 0 4) (word (field l 4 4)) (word (field l 8 4)) s with
    | (st, old, s) =>
      if st = ST_OK then
        match rmwWords r n (l.drop 12) s with
        | (st, m, s) => (st, old :: m, s)
      else (st, [], s)

def wordsBytes (l : List Word) : List Byte := (l.map fun v => beBytes 4 v.toNat).flatten

/-- READ_BLK (R279). -/
def execReadBlk (o : Origin) (body : List Byte) (s : State) : Res :=
  command o body 8 (fun s =>
    let n := field body 4 2
    if n = 0 ∨ 1024 < n ∨ zeroAt body 6 2 = false then reply o ST_BAD_PARAM [] s
    else
      match readWords o.ep n (field body 0 4) s with
      | (st, l, s) => reply o st (beBytes 2 l.length ++ [0, 0] ++ wordsBytes l) s) s

/-- WRITE_BLK (R279). -/
def execWriteBlk (o : Origin) (body : List Byte) (s : State) : Res :=
  let n := field body 4 2
  commandV o (8 ≤ body.length && body.length == 8 + 4 * n) (fun s =>
    if n = 0 ∨ 1024 < n ∨ zeroAt body 6 2 = false then reply o ST_BAD_PARAM [] s
    else
      match writeWords o.ep ((List.range n).map fun i => word (field body (8 + 4 * i) 4)) (field body 0 4) s with
      | (st, k, s) => reply o st (beBytes 2 k ++ [0, 0]) s) s

/-- RMW_BLK (R279). -/
def execRmwBlk (o : Origin) (body : List Byte) (s : State) : Res :=
  let n := field body 0 2
  commandV o (4 ≤ body.length && body.length == 4 + 12 * n) (fun s =>
    if n = 0 ∨ 512 < n ∨ zeroAt body 2 2 = false then reply o ST_BAD_PARAM [] s
    else
      match rmwWords o.ep n (body.drop 4) s with
      | (st, l, s) => reply o st (beBytes 2 l.length ++ [0, 0] ++ wordsBytes l) s) s

/-- Records of READ_CTR (R466): value, all ones where SAT is set, and the flag. -/
def readCtrs : Nat → Nat → State → Nat × List Byte × State
  | 0, _, s => (ST_OK, [], s)
  | n + 1, a, s =>
    if badAddr a then (ST_BAD_PARAM, [], noteBad a s)
    else if accStat s a ≠ ST_OK then (accStat s a, [], s)
    else
      match takeCtr a s with
      | (v, sat, s) =>
        match readCtrs n (a + 8) s with
        | (st, l, s) => (st, beBytes 8 v ++ [if sat then 1 else 0, 0, 0, 0] ++ l, s)

/-- READ_CTR (R279, R469): the range lies in one block's counter window, or nothing is read. -/
def execReadCtr (o : Origin) (body : List Byte) (s : State) : Res :=
  command o body 8 (fun s =>
    let a := field body 0 4
    let n := field body 4 2
    if n = 0 ∨ 256 < n ∨ zeroAt body 6 2 = false then reply o ST_BAD_PARAM [] s
    else if a % 8 ≠ 0 ∨ addrOff a < 0x80000 ∨ 0x100000 < addrOff a + 8 * n then reply o ST_BAD_PARAM [0, 0, 0, 0] s
    else
      match readCtrs n a s with
      | (st, l, s) => reply o st (beBytes 2 (l.length / 12) ++ [0, 0] ++ l) s) s

/-- GET_INFO (R278). -/
def execGetInfo (o : Origin) (body : List Byte) (s : State) : Res :=
  command o body 0 (fun s =>
    reply o ST_OK (beBytes 4 (glbId s).toNat ++ beBytes 4 (glbCap s).toNat ++ beBytes 2 (ownAddr s) ++
      beBytes 1 (role s + ofBool (rdB Reg.GLB.STAT.LOCKED s) * 64 + ofBool (compat s) * 128) ++ [0] ++
      beBytes 4 (regGet s (Reg.IMG.VER.word 0).addr).toNat) s) s

/-- NOP (R278): the bytes come back. -/
def execNop (o : Origin) (body : List Byte) (s : State) : Res :=
  commandV o (body.length ≤ 64) (reply o ST_OK body) s

end Sys2Proof.Machine
end

