-- ==== Sys2Proof/Machine/Bridge.lean ====
section
/-! DEFINITION. The bridge as target and initiator of frames (R219 to R233): requests that arrive, what the Deep Comb, the host
and the root port answer, completions, posted-error reports, fences, and the bridge commands. -/
namespace Sys2Proof.Machine

/-! Frames (Table 8.6). -/

def brgKind (l : List Byte) : Nat := field l 0 1 / 16
def brgStart (l : List Byte) : Bool := bit 0 (field l 0 1)
def brgStatus (l : List Byte) : Nat := field l 1 1
def brgId (l : List Byte) : Nat := field l 2 2
def brgLen (l : List Byte) : Nat := field l 4 2
def brgAddr (l : List Byte) : Nat := field l 6 5

/-- A BRG frame keeps its format (R222). -/
def brgGood (l : List Byte) : Bool :=
  let k := brgKind l
  let n := brgLen l
  let noStart := field l 0 1 % 16 == 0
  16 ≤ l.length && zeroAt l 11 5 &&
    (match k with
    | 1 => field l 0 1 % 16 < 2 && brgStatus l == 0 && 1 ≤ n && n ≤ 512 && l.length == 16 + n
    | 2 => noStart && brgStatus l == 0 && 1 ≤ n && n ≤ 4096 && l.length == 16
    | 3 => noStart && zeroAt l 6 5 && n ≤ 4096 && l.length == 16 + n
    | 4 => field l 0 1 % 16 < 2 && brgStatus l == 0 && n == 0 && zeroAt l 6 5 && l.length == 16
    | 5 => noStart && zeroAt l 6 5 && l.length == 16
    | 6 => noStart && l.length == 16
    | _ => false)

def isRequest (f : Frame) : Bool := brgKind f.bytes == 1 || brgKind f.bytes == 2 || brgKind f.bytes == 4

def samePair (a b : Frame) : Bool := a.src == b.src && a.tun == b.tun

/-- A bridge address lies behind the TS (Table 8.5). -/
def behindTs (a : Nat) : Bool := 0x1000000000 ≤ a && a < 0x3000000000

/-- The first request of a kind that no earlier request of its (SRC, TUN) holds back (R224) and that finds an entry at the port of
its resource (R232). -/
def nextRequest (s : State) (kind : Nat) : List Frame → List Frame → Option Frame
  | _, [] => none
  | before, f :: l =>
    if brgKind f.bytes = kind ∧ before.any (fun g => samePair g f && isRequest g) = false ∧
        s.brg.held.any (fun h => h.src == f.src && h.tun == f.tun) = false ∧
        (kind = 4 ∨ lineFree s (behindTs (brgAddr f.bytes)) = true) then some f
    else nextRequest s kind (before ++ [f]) l

/-- Takes a frame out of the bridge's inbox. -/
def dropBrg (f : Frame) (s : State) : State := setInbox 1 ((inbox s 1).erase f) s

/-! What serves a request (R219, R220). -/

/-- What the checks of a request answer: a status that fails it, data at once, or the bridge holds it for a domain. -/
inductive Served where
  | fails (status : Nat)
  | done (data : List Byte)
  | holds (dom : Nat) (tlp : Option HostTlp)
deriving DecidableEq, Repr

/-- The TS serves the bridge. -/
def tsServes (s : State) : Bool := present s 4 && domSt s 0x14 == .inService

/-- A bridge status for a register access (notes/assumptions/34). -/
def regStatus (st : Nat) : Nat :=
  if st = ST_OK then 0 else if st = ST_DENIED then 2 else if st = ST_NO_DIE ∨ st = ST_BUSY then 3 else 1

/-- An access to the register space (Table 8.5): the LINE requester's, the word little-endian as in BAR0
(notes/assumptions/34). -/
def serveReg (wr : Bool) (a len : Nat) (data : List Byte) (s : State) : Served × State :=
  let ra := a % 0x100000000
  if len ≠ 4 ∨ ra % 4 ≠ 0 then (.fails 1, s)
  else if wr then
    match writeAt .line false ra 0xFFFFFFFF#32 (word (leNat data)) s with
    | (st, s) => (if st = ST_OK then .done [] else .fails (regStatus st), s)
  else
    match readAt .line false ra s with
    | (st, v, s) => (if st = ST_OK then .done (leBytes 4 v.toNat) else .fails (regStatus st), s)

/-- The PCIe address behind a bridge address of the 0x10 range, and whether it is configuration space (R384). -/
def rootAddr (s : State) (a len : Nat) : Option (Bool × Nat) :=
  let x := a - 0x1000000000
  if 0xFF0000000 ≤ x then
    let c := x - 0xFF0000000
    let bus := c / 2 ^ 20
    let sub := max 1 (rd Reg.PCR.CFG.SUBBUS s)
    if len = 4 ∧ c % 4 = 0 ∧ 1 ≤ bus ∧ bus ≤ sub then some (true, c) else none
  else if x / 2 ^ 33 < 4 then
    let k := x / 2 ^ 33
    let o := x % 2 ^ 33
    if rdB (Reg.PCR.WIN.EN k) s = true ∧ o + len ≤ 2 ^ rd (Reg.PCR.WIN.SIZE k) s then some (false, rd (Reg.PCR.WIN.PBASE k) s * 4096 + o)
    else none
  else none

/-- An access behind the root port (R384): a memory write is applied when it is handed to the link; everything else waits for its
completion. -/
def serveRoot (wr : Bool) (a len : Nat) (data : List Byte) (s : State) : Served :=
  if !tsServes s then .fails 3
  else match rootAddr s a len with
    | none => .fails 1
    | some (cfg, p) =>
      if !rdB Reg.PCR.STAT.LINKUP s then .fails 5
      else .holds 0x14 (some (if wr then .devWrite cfg p data else .devRead cfg p len))

/-- An access to server memory (R383). -/
def serveHost (wr : Bool) (a len : Nat) (data : List Byte) (s : State) : Served :=
  if !tsServes s then .fails 3
  else if !bit 0 (hostWord s 0x20) || !rdB Reg.PCE.STAT.BME s || !rdB Reg.PCE.STAT.LINKUP s then .fails 5
  else
    let p := hostWord s 0x24 * 2 ^ 32 + hostWord s 0x20 / 2 ^ 16 * 2 ^ 16 + (a - 0x2000000000)
    .holds 0x14 (some (if wr then .write p data else .read p len))

/-- The resource behind a bridge address (Table 8.5). -/
def serve (wr : Bool) (a len : Nat) (data : List Byte) (s : State) : Served × State :=
  if a + len ≤ 0x100000000 then (if s1Up s then .holds 0x11 none else .fails 3, s)
  else if 0x100000000 ≤ a ∧ a + len ≤ 0x200000000 then serveReg wr a len data s
  else if 0x1000000000 ≤ a ∧ a + len ≤ 0x2000000000 then (serveRoot wr a len data s, s)
  else if 0x2000000000 ≤ a ∧ a + len ≤ 0x3000000000 then (serveHost wr a len data s, s)
  else (.fails 1, s)

/-- The checks of R220 that come before the resource: the status that fails the request. -/
def apertureFails (s : State) (f : Frame) (wr : Bool) (a len : Nat) : Option Nat :=
  let w := aperture s (f.ctx % 64)
  let src := bits 13 0 w.cfg.toNat
  if !rdB Reg.BRG.CFG.TEN s || !wEN w then some 1
  else if a < wR w ∨ wR w + 2 ^ wSIZE w < a + len then some 1
  else if (if wr then wWR w else wRD w) = false ∨ (src ≠ 0 ∧ src ≠ f.src) then some 2
  else none

/-- A posted write is done once it has been handed on: into the host's or a device's memory (R224). -/
def postedOut (t : HostTlp) : Bool :=
  match t with
  | .write _ _ => true
  | .devWrite cfg _ _ => !cfg
  | _ => false

/-- A request passes the checks and reaches its resource, or fails (R220, R229). -/
def serveRequest (f : Frame) (wr : Bool) (s : State) : State :=
  let l := f.bytes
  let a := brgAddr l
  let len := brgLen l
  let data := l.drop 16
  let failed := fun (st : Nat) (s : State) =>
    if wr then writeFails f.src f.tun f.tc (brgId l) a st s else brgCpl f.src f.tun f.tc (brgId l) st [] s
  match apertureFails s f wr a len with
  | some st => failed st s
  | none =>
    match serve wr a len data s with
    | (.fails st, s) => failed st s
    | (.done d, s) => if wr then s else brgCpl f.src f.tun f.tc (brgId l) 0 d s
    | (.holds dom tlp, s) =>
      let s := match tlp with
        | none => s
        | some t => updHost (fun h => { h with sent := h.sent ++ [t] }) s
      if (tlp.map postedOut).getD false then s
      else
        updBrg (fun b =>
          { b with held := b.held ++ [{ wr := wr, src := f.src, tun := f.tun, tc := f.tc, id := brgId l, addr := a, len := len, data := data, dom := dom }] }) s

/-! Write contexts (R228). -/

def ctxOf (s : State) (src tun : Nat) : Option WriteCtx := (s.brg.wctx.filter fun w => w.src == src && w.tun == tun).head?

/-- A context goes to the end of the list, as the one used last; of 256 the one idle longest makes room. -/
def putCtx (x : WriteCtx) (s : State) : State :=
  updBrg (fun b =>
    let l := b.wctx.filter fun w => !(w.src == x.src && w.tun == x.tun)
    { b with wctx := (if l.length < 256 then l else l.drop 1) ++ [x] }) s

/-- Writes missing from the sequence (R228): counted in FAILCNT, logged once, and reported with one PWERR. -/
def lostWrites (f : Frame) (first n : Nat) (s : State) : State :=
  let s := logElg (brgEntry s 7 7 f.src f.tun first 0) (addFails f.src f.tun n s)
  brgAnswer f.src f.tun f.tc (brgHeader 6 0 7 first n 0) s

/-- WNUM `n` arrives with START or without (R228): the context expects `n` then; `none` where it lies behind. A fence expects the
number it carries. -/
def sequence (f : Frame) (start : Bool) (n next : Nat) (s : State) : Option State :=
  if start then
    let c := (ctxOf s f.src f.tun).getD { src := f.src, tun := f.tun, next := 0, fails := 0, sure := true }
    some (putCtx { c with next := next % 65536, sure := true } s)
  else
    match ctxOf s f.src f.tun with
    | none => some (putCtx { src := f.src, tun := f.tun, next := next % 65536, fails := 0, sure := false } s)
    | some c =>
      let d := Machine.ahead 65536 c.next n
      if 32768 ≤ d then none
      else
        let s := putCtx { c with next := next % 65536 } s
        some (if d = 0 then s else lostWrites f c.next d s)

/-- BRG_WRITE_RECEIVE (R228, R229): the next write that may be applied. -/
def execBrgWriteReceive (s : State) : Res :=
  match nextRequest s 1 [] (inbox s 1) with
  | none => .next s
  | some f =>
    let s := dropBrg f s
    let n := brgId f.bytes
    match sequence f (brgStart f.bytes) n (n + 1) s with
    | none => .next (count (cBRG 4) s)
    | some s => .next (serveRequest f true s)

/-- BRG_READ_RECEIVE (R220): the next read that may be served. -/
def execBrgReadReceive (s : State) : Res :=
  match nextRequest s 2 [] (inbox s 1) with
  | none => .next s
  | some f => .next (serveRequest f false (dropBrg f s))

/-- FENCE_RECEIVE (R230): answered once every earlier write of its context is applied. -/
def execFenceReceive (s : State) : Res :=
  match nextRequest s 4 [] (inbox s 1) with
  | none => .next s
  | some f =>
    let s := dropBrg f s
    let n := brgId f.bytes
    match sequence f (brgStart f.bytes) n n s with
    | none => .next (count (cBRG 4) s)
    | some s =>
      match ctxOf s f.src f.tun with
      | none => .next s
      | some c =>
        .next (putCtx { c with fails := 0 }
          (brgAnswer f.src f.tun f.tc (brgHeader 5 0 (if c.sure then 0 else 9) n c.fails 0) s))

/-! What serves held requests. -/

/-- The `n`-th held request that satisfies `p`. -/
def heldAt (s : State) (p : BrgHeld → Bool) (n : Nat) : Option BrgHeld := (s.brg.held.filter p)[n]?

/-- DEEP_COMB_ACCESS_DONE (R219): the oldest access to the Deep Comb; `good` that its bursts were read right within three tries. It
waits for the memory controller (R47, R48). -/
def execDeepCombAccessDone (good : Bool) (s : State) : Res :=
  match heldAt s (fun h => h.dom == 0x11) 0 with
  | none => .next s
  | some h =>
    if !dcmServes s 4 then .next s
    else if !good && !h.wr then .next (finish h 4 [] s)
    else if h.wr then .next (finish h 0 [] (deepWrites h.addr h.data s))
    else .next (finish h 0 (deepReads s h.addr h.len) s)

/-- Requests that wait for server memory, or behind the root port. -/
def onPcie (root : Bool) (h : BrgHeld) : Bool := h.dom == 0x14 && behindRoot h == root

/-- PCIE_COMPLETION_RECEIVE (R383, R384): for the `n`-th request that waits, success with a read's data, or UR, CA or poisoned
data. Data of another length than was asked for is no completion of it. -/
def execPcieCompletionReceive (root : Bool) (n : Nat) (ok : Bool) (data : List Byte) (s : State) : Res :=
  match heldAt s (onPcie root) n with
  | none => .next s
  | some h =>
    if !ok then .next (finish h 5 [] s)
    else if h.wr then .next (finish h 0 [] s)
    else if data.length = h.len then .next (finish h 0 data s)
    else .next s

/-- HOST_MEMORY_TIMEOUT (R383): the `n`-th access to server memory. -/
def execHostMemoryTimeout (n : Nat) (s : State) : Res :=
  match heldAt s (onPcie false) n with
  | none => .next s
  | some h => .next (finish h 5 [] s)

/-- ROOT_PORT_TIMEOUT (R384): the `n`-th access behind the root port; CPLTO is set. -/
def execRootPortTimeout (n : Nat) (s : State) : Res :=
  match heldAt s (onPcie true) n with
  | none => .next s
  | some h => .next (raise srcCPLTO (wr Reg.PCR.STAT.CPLTO 1 (finish h 5 [] s)))

/-! Inbound requests of a device (R385). -/

/-- The answer to a device's read. -/
def devAnswer (wr ok : Bool) (data : List Byte) (s : State) : State :=
  if wr then s else updHost (fun h => { h with sent := h.sent ++ [.devCpl ok data] }) s

/-- INBOUND_DEVICE_REQUEST (R385): a write with its data, or a read of `len` bytes, of the device behind the root port. -/
def execInboundDeviceRequest (wr : Bool) (addr : BitVec 64) (len : BitVec 13) (data : List Byte) (s : State) : Res :=
  let a := addr.toNat
  let n := if wr then data.length else len.toNat
  if !tsServes s || !rdB Reg.PCR.STAT.LINKUP s || n == 0 then .next s
  else if a < 2 ^ 32 then
    if !inRegion s 2 a n then .next (raise srcINUR (Machine.wr Reg.PCR.STAT.INUR 1 (devAnswer wr false [] s)))
    else if !s1Up s then .next (devAnswer wr false [] s)
    else .next (if wr then deepWrites a data s else devAnswer false true (deepReads s a n) s)
  else if wr = true ∧ n = 4 ∧ a < 2 ^ 32 + 64 ∧ a % 4 = 0 then
    .next (raise srcPCR_MSI (orF Reg.PCR.STAT.MSIP (2 ^ ((a - 2 ^ 32) / 4)) s))
  else .next (devAnswer wr false [] s)

/-! The initiator's side. -/

/-- CPL_RECEIVE (R225, R227): the oldest completion that waits. -/
def execCplReceive (s : State) : Res :=
  match takeFrame 1 (fun f => brgKind f.bytes == 3) s with
  | none => .next s
  | some (f, s) =>
    let l := f.bytes
    match takeFirst (fun r : ReadTag => r.tag == brgId l % 1024 && r.gen == brgId l / 1024) s.brg.reads with
    | none => .next (count (cBRG 1) s)
    | some (r, rest) =>
      let s := updBrg (fun b => { b with reads := rest }) s
      let st := brgStatus l
      let log := fun (st : Nat) (s : State) => brgEntry s st 1 r.dst r.tun (brgId l) r.addr
      if st = 0 ∧ brgLen l = r.len then .next (tagFreed (readDone r.reader r.loc (l.drop 16) s))
      else if st = 0 then
        match drawFree s with
        | (d, s) =>
          let st := d.toNat % 256
          .next (tagFreed (readFails r.reader r.loc r.len ST_BRG_FAIL st (log st s) s))
      else .next (tagFreed (readFails r.reader r.loc r.len (brgReply st) st (log st s) s))

/-- READ_TIMEOUT (R226). -/
def execReadTimeout (tag : Fin 1024) (s : State) : Res :=
  match takeFirst (fun r : ReadTag => r.tag == tag.val) s.brg.reads with
  | none => .next s
  | some (r, rest) =>
    let s := updBrg (fun b => { b with reads := rest }) s
    .next (tagFreed (readFails r.reader r.loc r.len ST_TIMEOUT 8 (brgEntry s 8 2 r.dst r.tun (r.gen * 1024 + r.tag) r.addr) s))

/-- PWERR_RECEIVE (R229): the posted-error log. -/
def execPwerrReceive (s : State) : Res :=
  match takeFrame 1 (fun f => brgKind f.bytes == 6) s with
  | none => .next s
  | some (f, s) =>
    let l := f.bytes
    .next (logPwl (brgEntry s (brgStatus l) (if brgStatus l = 7 then 7 else 5) f.src f.tun (brgId l) (brgAddr l)) s)

/-! Fences (R230). -/

/-- The FENCE of a tunnel leaves: its ID is the WNUM that the next write will carry. -/
def sendFence (x : Fence) (s : State) : State :=
  let n := Tab.get zeroN s.brg.wnum x.tun
  let start := !Tab.get noB s.brg.started x.tun
  originate 0 x.tun (brgHeader 4 (ofBool start) 0 n 0 0)
    (updBrg (fun b => { b with fences := b.fences ++ [{ x with id := n, sent := true }] }) s)

/-- The fence outstanding on a tunnel ends, and the next one that waits leaves. -/
def fenceEnds (tun : Nat) (s : State) : State :=
  let s := updBrg (fun b => { b with fences := b.fences.filter fun x => !(x.tun == tun && x.sent) }) s
  match takeFirst (fun x : Fence => x.tun == tun) s.brg.fences with
  | none => s
  | some (x, rest) => sendFence x (updBrg (fun b => { b with fences := rest }) s)

/-- WRITE_FENCE (R230). -/
def execWriteFence (o : Origin) (body : List Byte) (s : State) : Res :=
  command o body 4 (fun s =>
    let i := field body 0 1
    if 64 ≤ i ∨ zeroAt body 1 3 = false then reply o ST_BAD_PARAM [] s
    else
      let tun := wTUN (window s i)
      let x : Fence := { tun := tun, window := i, id := 0, sent := false, o := o }
      if s.brg.fences.any fun y => y.tun == tun then updBrg (fun b => { b with fences := b.fences ++ [x] }) s
      else sendFence x s) s

/-- FENCE_ACK_RECEIVE (R230): ST_OK with nothing failed and the context sure, ST_PARTIAL otherwise. -/
def execFenceAckReceive (s : State) : Res :=
  match takeFrame 1 (fun f => brgKind f.bytes == 5) s with
  | none => .next s
  | some (f, s) =>
    let l := f.bytes
    match (s.brg.fences.filter fun x => x.sent && x.tun == f.tun && x.id == brgId l).head? with
    | none => .next s
    | some x =>
      let s := if brgStatus l = 9 then updBrg (fun b => { b with started := Tab.set noB x.tun false b.started }) s else s
      let st := if brgLen l = 0 ∧ brgStatus l = 0 then ST_OK else ST_PARTIAL
      .next (fenceEnds x.tun (reply x.o st (beBytes 2 (brgLen l) ++ beBytes 1 (brgStatus l) ++ [0]) s))

/-- FENCE_TIMEOUT (R230). -/
def execFenceTimeout (tun : BitVec 14) (s : State) : Res :=
  match (s.brg.fences.filter fun x => x.sent && x.tun == tun.toNat).head? with
  | none => .next s
  | some x => .next (fenceEnds x.tun (reply x.o ST_TIMEOUT [] s))

/-! Bridge commands (R282). -/

/-- The window-space range of a command is refused: beyond 36 bits, a length out of range, or across 4 KiB. -/
def rangeBad (body : List Byte) (most : Nat) : Bool :=
  let a := field body 0 5
  let n := field body 6 2
  2 ^ 36 ≤ a || field body 5 1 != 0 || n == 0 || most < n || 4096 < a % 4096 + n

/-- BRG_READ (R282). -/
def execBrgRead (o : Origin) (body : List Byte) (s : State) : Res :=
  command o body 8 (fun s =>
    if rangeBad body 4096 then reply o ST_BAD_PARAM [] s
    else
      acceptTxn { id := 0, tries := 0, wr := false, addr := field body 0 5, len := field body 6 2, data := [], reader := .cmd o } s) s

/-- BRG_WRITE (R282). -/
def execBrgWrite (o : Origin) (body : List Byte) (s : State) : Res :=
  commandV o (8 ≤ body.length && body.length == 8 + field body 6 2) (fun s =>
    if rangeBad body 512 then reply o ST_BAD_PARAM [] s
    else
      acceptTxn { id := 0, tries := 0, wr := true, addr := field body 0 5, len := field body 6 2, data := body.drop 8, reader := .cmd o } s) s

end Sys2Proof.Machine
end

