-- ==== Sys2Proof/Machine/Terminate.lean ====
section
/-! DEFINITION. Termination of tunnels: what a unit takes, reassembly, repeated express frames, and where each frame goes (R100,
R211 to R215, R218, R248, R259, R340, R361, R365, R380). -/
namespace Sys2Proof.Machine

/-! What each unit terminates (Table 8.2). -/

/-- The type is terminated at the switch port by the unit that CTX names: at P16 its UNIT and INDEX (Table 8.3). -/
def unitTakes (s : State) (p : Nat) (ctx : Option Nat) (typ : Nat) : Bool :=
  match p with
  | 4 | 5 | 12 | 13 => typ == 0 || typ == 5
  | 6 | 7 | 14 | 15 => typ == 3 || typ == 0
  | 8 => typ == 0 || typ == 5 || typ == 6 || (typ == 3 && isHead s)
  | 10 | 11 => typ == 6 || typ == 0
  | 16 =>
    match ctx with
    | none => typ == 1 || typ == 2
    | some c =>
      match c / 1024 % 4 with
      | 0 => typ == 1
      | 1 => typ == 4
      | 2 => typ == 2
      | _ => (typ == 7 && c % 64 == 0) || (typ == 8 && c % 64 == 1)
  | _ => false

/-- The terminating unit (R214): a switch port P4 to P15, or one of the four P16 units. -/
def unitOf (p : Nat) (ctx : Option Nat) (typ : Nat) : Nat :=
  if p ≠ 16 then p
  else match ctx with
    | none => if typ = 2 then 2 else 0
    | some c => c / 1024 % 4

/-- TUN_TYPE. -/
def tunType (s : State) : State := count (cTUN 2) s

/-! Repeated frames (R215). -/

/-- The acceptance map of a pair takes a frame number, and how it looks then. -/
def dupTakes (x : DupPair) (fn : Nat) : Bool × DupPair :=
  let d := Machine.ahead 65536 x.high fn
  if 1 ≤ d ∧ d < 32768 then
    (true, { x with high := fn, seen := (fn :: x.seen).filter fun k => Machine.ahead 65536 k fn < 64 })
  else
    let b := Machine.ahead 65536 fn x.high
    if b < 64 ∧ x.seen.contains fn = false then (true, { x with seen := fn :: x.seen }) else (false, x)

/-- A TIME or TRIG frame is a first copy: the pair used last goes to the end of the list, and of 64 the one idle longest makes room. -/
def dupCheck (f : Frame) (s : State) : Bool × State :=
  let fn := field f.bytes 0 2
  let mine := fun x : DupPair => x.src == f.src && x.tun == f.tun
  let rest := s.tuns.dup.filter fun x => !mine x
  let put := fun x : DupPair => updTuns (fun t => { t with dup := (if rest.length < 64 then rest else rest.drop 1) ++ [x] }) s
  match (s.tuns.dup.filter mine).head? with
  | none => (true, put { src := f.src, tun := f.tun, high := fn, seen := [fn] })
  | some x =>
    match dupTakes x fn with
    | (true, x) => (true, put x)
    | (false, x) => (false, wr Reg.TUN.ERR.DUP 1 (count (cTUN 3) (put x)))

/-! Frames of each unit. -/

/-- A frame waits in the inbox of a unit. -/
def intoInbox (u : Nat) (f : Frame) (s : State) : State := setInbox u (inbox s u ++ [f]) s

/-- The time and trigger unit (R215, R248): a CAPT_RPT frame that ends here changes nothing. -/
def timeUnit (f : Frame) (s : State) : State :=
  match dupCheck f s with
  | (false, s) => s
  | (true, s) => if !timeFrameGood f then trgFmt s else if isKind 8 3 f then s else intoInbox 3 f s

/-- A USBP frame at a TU (Table 13.7). -/
def usbpGood (f : Frame) : Bool :=
  let k := field f.bytes 0 1
  let slot := field f.bytes 1 1
  f.bytes.length == 8 && (k == 1 || k == 2) && (slot == 2 || slot == 6) && zeroAt f.bytes 5 3 && (k == 2 || zeroAt f.bytes 4 1)

/-- A TU takes a frame: a DOORBELL for its slot waits, another slot's is no frame of this unit (notes/assumptions/35), a NOTIFY has no
effect; a display line leaves by the port that holds its head (R361). -/
def tuTakes (p : Nat) (f : Frame) (s : State) : State :=
  let d := if p < 12 then 0 else 1
  if f.typ = 5 then
    if !usbpGood f || (field f.bytes 0 1 == 2 && field f.bytes 1 1 != tuSlot d) then tunType s
    else if field f.bytes 0 1 = 2 then intoInbox p f s
    else s
  else
    match ((tuPorts d).filter fun t => rdB (Reg.TCP.ALT.ACTIVE t) s && rd (Reg.TCP.ALT.HEAD t) s == field f.bytes 0 1).head? with
    | none => s
    | some t => { s with dpLine := Tab.set noCells t f.bytes s.dpLine }

/-- A FLIP frame keeps Table 14.2. -/
def flipGood (f : Frame) : Bool :=
  let l := f.bytes
  l.length == 28 && field l 0 1 == 1 && field l 1 1 < 2 && zeroAt l 2 6 && zeroAt l 9 3

/-- A whole frame at its unit. Of a RAW frame at a TN or a TV the spec says that the die terminates it (Table 8.2) and no more: it is
taken, without effect (notes/assumptions/49). -/
def deliverFrame (p u : Nat) (f : Frame) (s : State) : State :=
  match p with
  | 16 =>
    match u with
    | 0 => acceptFrame f s
    | 1 => if brgGood f.bytes then intoInbox 1 f s else count (cBRG 2) s
    | 2 => s
    | _ => timeUnit f s
  | 4 | 5 | 12 | 13 => tuTakes p f s
  | 6 | 7 => if f.typ = 0 then s else ethUnwrap 0 f s
  | 14 | 15 => if f.typ = 0 then s else ethUnwrap 1 f s
  | 8 => rqDeliver f s
  | _ => if f.typ = 0 then s else if flipGood f then intoInbox p f s else tunType s

/-! Reassembly (R100, R214). -/

/-- A context takes one more cell of its frame: 128 at most, or the frame is discarded. -/
def addCell (u : Nat) (x : Reasm) (c : Cell) (s : State) : Reasm × State :=
  if x.discarding then (x, s)
  else if 128 ≤ x.cells then ({ x with discarding := true, bytes := [] }, reasmErr u s)
  else ({ x with cells := x.cells + 1, bytes := x.bytes ++ c.payload.take c.vlen }, s)

/-- The frame a closed context holds. -/
def frameOf (x : Reasm) (c : Cell) (ctx inp : Nat) : Frame :=
  { dst := c.dst, src := x.src, tun := x.tun, tc := x.tc, typ := c.typ, xpr := c.xpr, ctx := ctx, inPort := if inp < 4 then some inp else none,
    bcast := c.dst == 0x3FFF || c.dst == 0x3FFE, bytes := x.bytes }

/-- A new context opens; where all 512 are open the one idle longest closes (R214). -/
def openCtx (u : Nat) (x : Reasm) (l : List Reasm) (s : State) : List Reasm × State :=
  match l with
  | y :: rest => if l.length < 512 then (l ++ [x], s) else (rest ++ [x], wr Reg.TUN.ERR.REPLACE 1 (if y.discarding then s else reasmErr u s))
  | [] => ([x], s)

/-- A cell of a frame at unit `u` of switch port `p`. -/
def reassemble (p u ctx inp : Nat) (c : Cell) (s : State) : State :=
  let mine := fun x : Reasm => x.src == c.src && x.tun == c.tun && x.tc == c.tc
  let l := ctxsOf s u
  let rest := l.filter fun x => !mine x
  let close := fun (x : Reasm) (s : State) =>
    let s := setCtxs u ((ctxsOf s u).filter fun y => !mine y) s
    if x.discarding then s else deliverFrame p u (frameOf x c ctx inp) s
  if c.f then
    let s := match (l.filter mine).head? with
      | some x => if x.discarding then s else reasmErr u s
      | none => s
    match addCell u { src := c.src, tun := c.tun, tc := c.tc, cells := 0, bytes := [], discarding := false } c s with
    | (x, s) =>
      match openCtx u x rest s with
      | (l, s) =>
        let s := setCtxs u l s
        if c.l then close x s else s
  else
    match (l.filter mine).head? with
    | none => reasmErr u s
    | some x =>
      match addCell u x c s with
      | (x, s) =>
        let s := setCtxs u (rest ++ [x]) s
        if c.l then close x s else s

/-- TUNNEL_CELL_TERMINATE (R24, R213, R214): the oldest cell that has reached switch port `p`, whose Tolger credit is free again. P8 takes none while a full queue holds a
frame (R380). -/
def execTunnelCellTerminate (p : Fin 17) (s : State) : Res :=
  let n := p.val
  match Tab.get noCells s.tuns.arrived n with
  | [] => .next s
  | (c, inp, ctx) :: rest =>
    if n = 8 ∧ s.hostIf.held.isSome = true then .next s
    else
      let s := oweCredit n false (updTuns (fun t => { t with arrived := Tab.set noCells n rest t.arrived }) s)
      if n = 16 ∧ c.tun ≠ 0 ∧ ctx = none then .next (count (cRTE 1) s)
      else if !unitTakes s n ctx c.typ then .next (tunType s)
      else .next (reassemble n (unitOf n ctx c.typ) (ctx.getD 0) inp c s)

end Sys2Proof.Machine
end

