-- ==== Sys2Proof/Machine/OsWords.lean ====
section
/-! DEFINITION. Ordered sets as they arrive: OS slots and DOZE words (R62 to R66, R84, R113, R124, R237). -/
namespace Sys2Proof.Machine

/-! Words (Table 2.4). -/

/-- OSW_ERR. -/
def oswErr (n : Nat) (s : State) : State := count (cHLP n kOSW_ERR) s

/-- A RESYNC word (R124): an OP that is not listed is ignored and counted as SEQ_ERR. -/
def onResync (n b : Nat) (s : State) : State :=
  match bits 47 44 b with
  | 1 => onInit n s
  | 2 => onResyncReplay n (bits 43 31 b) s
  | 3 => onCreq n (bits 30 29 b) s
  | 4 => if trained s n then onRecall n (bits 28 17 b) s else s
  | _ => count (cHLP n kSEQ_ERR) s

/-- The words that OS slots and DOZE words carry alike; a word of a reserved type is discarded and counted (R64). SYNC words are
taken in pairs elsewhere. -/
def onWord (n : Nat) (w : OsWord) (s : State) : State :=
  let b := w.body
  match w.typ with
  | 0x00 => s
  | 0x01 => onCap n b s
  | 0x02 => onWake n s
  | 0x03 => onWaggle n (bits 47 34 b) (bits 33 28 b) s
  | 0x04 => onStateReq n (bits 47 46 b) s
  | 0x05 => onStateAck n (bits 47 46 b) s
  | 0x06 => onStateNak n (bits 47 46 b) s
  | 0x07 => onLaneRetire n (bits 47 44 b) (bits 43 28 b) s
  | 0x0A => onDreq n (bits 47 40 b) s
  | 0x0B => onDrsp n (bits 47 40 b) (bits 39 0 b) s
  | 0x10 => onCreditWord n (bits 47 46 b) (bits 45 30 b) (bits 29 18 b) s
  | 0x11 => onResync n b s
  | 0x18 => onLpwr n b s
  | _ => oswErr n s

/-- A SYNC pair (R242, Table 9.1): received at line time `tRx`. -/
def onSyncPair (n hi lo tRx : Nat) (s : State) : State :=
  onSync n (bits 47 40 hi) (bits 39 32 hi) ((bits 31 0 hi * 2 ^ 32 + bits 47 16 lo) * 2 ^ 32 + bits 15 0 lo * 2 ^ 16) tRx s

/-! OS slots. -/

/-- The words of an OS slot, in order (R63, R64): SYNC_HI is taken with the SYNC_LO of the same slot, one without the other counts
TIME_ERR (R237). -/
def onSlotWords (n : Nat) (ws : List (Option OsWord)) (s : State) : State :=
  let find := fun t : Nat => ((ws.filterMap id).filter fun w => w.typ == t).head?
  forAll ws (fun w s =>
    match w with
    | none => oswErr n s
    | some w =>
      if w.typ = 8 then
        match find 9 with
        | some lo => onSyncPair n w.body lo.body (portNow s n) s
        | none => timeErr n s
      else if w.typ = 9 then (if (find 8).isSome then s else timeErr n s)
      else onWord n w s) s

/-- A slot of 128 bytes arrives (R62, R63, R101): in a slot with a bad CRC nothing counts; an OS slot is told from a cell by bits 4:0
of its first 8 bytes. -/
def onSlot (n : Nat) (l : List Byte) (s : State) : State :=
  if !framesRun s n then s
  else
    slotPassed n (if !slotCrcGood l then badSlot n s
      else if !isOsSlot l then onCell n (parseCell l) s
      else match osSlotWords l with
        | none => oswErr n s
        | some ws => onSlotWords n ws s)

/-- OS_SLOT_RECEIVE (R63). -/
def execOsSlotReceive (p : LPort) (bytes : List Byte) (s : State) : Res :=
  if bytes.length ≠ 128 then .fault (.illFormed "OS_SLOT_RECEIVE") else .next (onSlot p.val bytes s)

/-- CELL_RECEIVE (R102). -/
def execCellReceive (p : LPort) (bytes : List Byte) (s : State) : Res :=
  if bytes.length ≠ 128 then .fault (.illFormed "CELL_RECEIVE") else .next (onSlot p.val bytes s)

/-! DOZE words (R66). -/

/-- A word of a DOZE word: SYNC_HI waits for its SYNC_LO with the time it came. -/
def onDozeWord (n : Nat) (w : OsWord) (s : State) : State :=
  let keep := fun (x : Option (Nat × Nat)) (s : State) => updLp n (fun p => { p with time := { p.time with syncHi := x } }) s
  if w.typ = 8 then
    keep (some (w.body, portNow s n)) (if (lp s n).time.syncHi.isSome then timeErr n s else s)
  else if w.typ = 9 then
    match (lp s n).time.syncHi with
    | some (hi, t) => onSyncPair n hi w.body t (keep none s)
    | none => timeErr n s
  else if w.typ = 0x10 ∨ w.typ = 0x11 ∨ w.typ = 7 then s
  else onWord n w s

/-- DOZE_WORD_RECEIVE (R66, R84): four bad markers in a row in DOZE are a loss of signal. -/
def execDozeWordReceive (p : LPort) (w : BitVec 80) (s : State) : Res :=
  let n := p.val
  if lstate s n = DISABLED then .next s
  else if w.toNat / 2 ^ 64 ≠ 0x3C5A then
    if lstate s n ≠ DOZE then .next s
    else if (lp s n).badDoze = 3 then .next (declareLos n s)
    else .next (updLp n (fun p => { p with badDoze := p.badDoze + 1 }) s)
  else
    let s := updLp n (fun p => { p with badDoze := 0 }) s
    match dozeWord w.toNat with
    | none => .next (oswErr n s)
    | some x => .next (onDozeWord n x s)

end Sys2Proof.Machine
end

