-- ==== Sys2Proof/Machine/Nor.lean ====
section
/-! DEFINITION. The QSPI NOR: its layout and boot record (R439, R440), the settings (R450, R452), the structure of an image, its
seal and its checks (R441 to R445, R455, R456). -/
namespace Sys2Proof.Machine

/-! The device. -/

/-- An erased byte. -/
def norDefault (_ : Nat) : Byte := 0xFF

def norByte (s : State) (a : Nat) : Byte := Tab.get norDefault s.nor a

def norReads (s : State) (a n : Nat) : List Byte := Tab.getMany norDefault s.nor a n

/-- Bytes `a` to `a + n - 1` are erased. -/
def norErase (a n : Nat) (s : State) : State := { s with nor := Tab.keep (fun k => decide (k < a ∨ a + n ≤ k)) s.nor }

/-- Bytes are programmed. -/
def norProgram (a : Nat) (l : List Byte) (s : State) : State := { s with nor := Tab.setMany norDefault a l s.nor }

/-- `l` followed by its CRC-32C, stored as R97 decides (R439). -/
def sealed (l : List Byte) : List Byte := l ++ leBytes 4 (crc32c l)

/-- The last four of the `n` bytes at `a` are the CRC-32C of the others. -/
def norSealed (s : State) (a n : Nat) : Bool :=
  let l := norReads s a n
  l.drop (n - 4) == leBytes 4 (crc32c (l.take (n - 4)))

/-- `l` in pieces of `n` bytes. -/
def pieces (n : Nat) (l : List Byte) : List (List Byte) := (List.range (l.length / n)).map fun i => (l.drop (n * i)).take n

/-! The boot record (Table 18.4). -/

structure BootRec where
  gen : Nat
  act : Nat
  trial : Nat
  sta : Nat
  stb : Nat
  window : Nat
deriving DecidableEq, Repr

/-- Copy `k`, where its CRC is good. -/
def bootCopy (s : State) (k : Nat) : Option BootRec :=
  let b := norReads s (0x8000 * k) 256
  if field b 0 4 = 0x4C483842 ∧ norSealed s (0x8000 * k) 256 = true then
    some { gen := field b 4 4, act := field b 8 1 % 2, trial := field b 9 1 % 2, sta := field b 10 1 % 8, stb := field b 11 1 % 8,
           window := field b 12 2 }
  else none

/-- The record in force: the valid copy with the higher GEN; none, both slots EMPTY. -/
def bootNow (s : State) : BootRec :=
  match bootCopy s 0, bootCopy s 1 with
  | some a, some b => if a.gen < b.gen then b else a
  | some a, none => a
  | none, some b => b
  | none, none => { gen := 0, act := 0, trial := 0, sta := 0, stb := 0, window := 0 }

/-- IMG.SLOT shows the record in force. -/
def showBoot (s : State) : State :=
  let r := bootNow s
  regSet s Reg.IMG.SLOT.word.addr (word (r.act * 2 ^ 31 + r.trial * 2 ^ 30 + r.sta * 2 ^ 27 + r.stb * 2 ^ 24 + r.gen % 2 ^ 24))

/-- The copy that is written next: the one with the lower GEN. -/
def bootTarget (s : State) : Nat :=
  match bootCopy s 0, bootCopy s 1 with
  | some a, some b => if a.gen < b.gen then 0 else 1
  | some _, none => 1
  | none, _ => 0

/-- The boot record is written, with GEN + 1 (R440). -/
def writeBoot (r : BootRec) (s : State) : State :=
  let k := bootTarget s
  let b := beBytes 4 0x4C483842 ++ beBytes 4 (r.gen + 1) ++ beBytes 1 r.act ++ beBytes 1 r.trial ++ beBytes 1 r.sta ++ beBytes 1 r.stb ++
    beBytes 2 r.window ++ List.replicate 238 0
  showBoot (norProgram (0x8000 * k) (sealed b) (norErase (0x8000 * k) 0x1000 s))

/-! States of a slot (IMG.SLOT.STA). -/
def SL_EMPTY : Nat := 0
def SL_WRITING : Nat := 1
def SL_WRITTEN : Nat := 2
def SL_VERIFIED : Nat := 3
def SL_COMMITTED : Nat := 4
def SL_FAILED : Nat := 5

/-- The state of slot `k`: 0 A, 1 B. -/
def BootRec.st (r : BootRec) (k : Nat) : Nat := if k = 0 then r.sta else r.stb

def BootRec.setSt (r : BootRec) (k v : Nat) : BootRec := if k = 0 then { r with sta := v } else { r with stb := v }

/-- Slot `k` is marked, by a boot record where the mark changes. -/
def markSlot (k v : Nat) (s : State) : State :=
  let r := bootNow s
  if r.st k = v then s else writeBoot (r.setSt k v) s

/-! Settings (R450). -/

def setBase (k : Nat) : Nat := 0x3010000 + 0x200000 * k

/-- The header of copy `k`: GEN and FMVER. -/
def setHeader (s : State) (k : Nat) : Option (Nat × Nat) :=
  let b := norReads s (setBase k) 32
  if field b 0 4 = 0x4C483853 ∧ norSealed s (setBase k) 32 = true then some (field b 4 4, field b 8 2) else none

/-- A settings copy has begun but its header CRC fails. -/
def setHeaderBad (s : State) (k : Nat) : Bool :=
  field (norReads s (setBase k) 4) 0 4 == 0x4C483853 && (setHeader s k).isNone

/-- The copy in force, with GEN and FMVER. -/
def setCopy (s : State) : Option (Nat × Nat × Nat) :=
  match setHeader s 0, setHeader s 1 with
  | some a, some b => if a.1 < b.1 then some (1, b.1, b.2) else some (0, a.1, a.2)
  | some a, none => some (0, a.1, a.2)
  | none, some b => some (1, b.1, b.2)
  | none, none => none

/-- A record of a field supersedes an earlier one; an empty value deletes it. -/
def putField (f : Nat) (v : List Byte) (l : List (Nat × List Byte)) : List (Nat × List Byte) :=
  l.filter (fun e => e.1 != f) ++ (if v = [] then [] else [(f, v)])

/-- Bytes of a value with its padding. -/
def padded4 (n : Nat) : Nat := (n + 3) / 4 * 4

/-- A settings record. -/
def setRecord (f : Nat) (v : List Byte) : List Byte := sealed (beBytes 2 f ++ beBytes 2 v.length ++ padTo (padded4 v.length) v)

/-- The records of a copy from offset `off`: the live ones, where the records end, and whether a CRC failed there. -/
def readSettings (s : State) (base : Nat) : Nat → Nat → List (Nat × List Byte) → List (Nat × List Byte) × Nat × Bool
  | 0, off, l => (l, off, false)
  | k + 1, off, l =>
    if 0x200000 < off + 8 then (l, off, false)
    else
      let f := beNat (norReads s (base + off) 2)
      let n := beNat (norReads s (base + off + 2) 2)
      let m := 8 + padded4 n
      if f = 0xFFFF then (l, off, false)
      else if 0x200000 < off + m ∨ norSealed s (base + off) m = false then (l, off, true)
      else readSettings s base k (off + m) (putField f (norReads s (base + off + 4) n) l)

/-- The settings in the NOR: live records, FMVER, and whether a header or a record failed its CRC. -/
def norSettings (s : State) : List (Nat × List Byte) × Nat × Bool :=
  let bad := setHeaderBad s 0 || setHeaderBad s 1
  match setCopy s with
  | none => ([], 0, bad)
  | some (k, _, v) =>
    let r := readSettings s (setBase k) 0x40000 32 []
    (r.1, v, bad || r.2.2)

/-- The value of a settings field in force. -/
def setting (s : State) (f : Nat) : Option (List Byte) := ((s.img.settings.filter fun e => e.1 == f).head?).map fun e => e.2

/-- The live records are written into the other copy and then its header, with GEN + 1 (R450). -/
def compact (s : State) : State :=
  let k := match setCopy s with
    | none => 0
    | some c => 1 - c.1
  let gen := match setCopy s with
    | none => 1
    | some c => c.2.1 + 1
  let l := (s.img.settings.map fun e => setRecord e.1 e.2).flatten
  let h := sealed (beBytes 4 0x4C483853 ++ beBytes 4 gen ++ beBytes 2 s.img.fmver ++ List.replicate 18 0)
  norProgram (setBase k) h (norProgram (setBase k + 32) l (norErase (setBase k) 0x200000 s))

/-- One record reaches its commit point (R450): appended to the copy in force, or with a compaction where it has no room. -/
def storeSetting (f : Nat) (v : List Byte) (s : State) : State :=
  let s := { s with img := { s.img with settings := putField f v s.img.settings } }
  match setCopy s with
  | none => compact s
  | some (k, _, _) =>
    let r := readSettings s (setBase k) 0x40000 32 []
    let rec_ := setRecord f v
    if r.2.2 || s.img.dirty || 0x200000 < r.2.1 + rec_.length then compact s else norProgram (setBase k + r.2.1) rec_ s

/-! Images (R441). -/

def imgBase (k : Nat) : Nat := 0x10000 + 0x1800000 * (k % 2)

/-- `n` bytes of the content stream of slot `k` from offset `c`. -/
def content (s : State) (k c n : Nat) : List Byte :=
  (List.range n).map fun i => norByte s (imgBase k + (c + i) / 4092 * 4096 + (c + i) % 4092)

def imgNblk (s : State) (k : Nat) : Nat := beNat (content s k 8 4)

/-- NBLK lies in its range and every block has a good CRC. -/
def blocksGood (s : State) (k : Nat) : Bool :=
  2 ≤ imgNblk s k && imgNblk s k ≤ 6144 && (List.range (imgNblk s k)).all fun i => norSealed s (imgBase k + 4096 * i) 4096

/-- The content of the seal block. -/
def sealBlock (s : State) (k : Nat) : List Byte := norReads s (imgBase k + 4096 * (imgNblk s k - 1)) 4092

/-- The SHA-512 digest of bytes. -/
def sha (l : List Byte) : List Byte := beBytes 64 (Config.sha512 l).toNat

/-- The OTP key-hash slot of a CLASS and KSLOT. -/
def otpSlot (cls ks : Nat) : Nat := if cls = 0 then ks else 4 + ks

/-- The key is one that OTP accepts (R445). -/
def keyGood (s : State) (cls ks : Nat) (pub : List Byte) : Bool :=
  ((cls == 0 && ks < 2 && !s.otp.ownOnly) || (cls == 1 && ks < 4)) && Tab.get zeroN s.otp.st (otpSlot cls ks) == 1 &&
    Tab.get (fun _ => (0 : BitVec 256)) s.otp.hash (otpSlot cls ks) == BitVec.ofNat 256 (beNat ((sha pub).take 32))

/-- The seal is valid (R445). -/
def sealGood (s : State) (k : Nat) : Bool :=
  let b := sealBlock s k
  let pub := (b.drop 8).take 32
  field b 0 4 == 0x4B5A5253 && field b 4 1 == 1 && zeroAt b 7 1 && zeroAt b 168 3924 &&
    (b.drop 40).take 64 == sha (norReads s (imgBase k) (4096 * (imgNblk s k - 1))) &&
    Config.ed25519 pub ((b.drop 104).take 64) (b.take 104) && keyGood s (field b 5 1) (field b 6 1) pub

/-- Step 1 of R455, and the checks of R446. -/
def imgValid (s : State) (k : Nat) : Bool := blocksGood s k && sealGood s k

/-- An entry of the section directory (Table 18.5). -/
structure Section where
  role : Nat
  sflags : Nat
  major : Nat
  minor : Nat
  patch : Nat
  off : Nat
  len : Nat
  zero : Bool
deriving DecidableEq, Repr

def sections (s : State) (k : Nat) : List Section :=
  (List.range (min 8 (beNat (content s k 6 1)))).map fun i =>
    let b := content s k (64 + 16 * i) 16
    { role := field b 0 1, sflags := field b 1 1, major := field b 2 1, minor := field b 3 1, patch := field b 4 2, off := field b 8 4,
      len := field b 12 4, zero := zeroAt b 6 2 }

def sectionOf (s : State) (k role : Nat) : Option Section := ((sections s k).filter fun x => x.role == role).head?

/-- The roles of the slots (R2): LD, MD, TU, TN, TS, TV. -/
def slotRole (d : Nat) : Nat :=
  match d with
  | 0 => 0
  | 1 => 1
  | 2 => 2
  | 6 => 2
  | 3 => 3
  | 7 => 3
  | 4 => 4
  | _ => 5

/-- The records of a section (R442), `none` where a header breaks its format. -/
def records : Nat → List Byte → Option (List (Nat × List Byte))
  | _, [] => some []
  | 0, _ :: _ => none
  | k + 1, l =>
    let n := field l 4 4
    if l.length < 8 + padded4 n ∨ zeroAt l 2 2 = false ∨ zeroAt l (8 + n) (padded4 n - n) = false then none
    else (records k (l.drop (8 + padded4 n))).map fun r => (field l 0 2, (l.drop 8).take n) :: r

/-- The records of the section of a role in slot `k`. -/
def sectionRecords (s : State) (k role : Nat) : Option (List (Nat × List Byte)) :=
  match sectionOf s k role with
  | none => some []
  | some x => records (x.len / 8 + 1) (content s k x.off x.len)

/-! Formats of records (R35, Table 18.6). -/

/-- A body of entries of `n` bytes that all pass. -/
def entries (n : Nat) (p : List Byte → Bool) (b : List Byte) : Bool := b.length % n == 0 && (pieces n b).all p

/-- Descriptors as USB encodes them, by bLength. -/
def usbDescs : Nat → List Byte → Option (List (List Byte))
  | _, [] => some []
  | 0, _ :: _ => none
  | k + 1, l =>
    let n := field l 0 1
    if n < 2 ∨ l.length < n then none else (usbDescs k (l.drop n)).map fun r => l.take n :: r

/-- The USB descriptor record (R344): one device descriptor with the fixed fields of Table 13.9, and strings. -/
def usbRecordOk (b : List Byte) : Bool :=
  match usbDescs 256 b with
  | none => false
  | some l =>
    (l.filter fun d => field d 1 1 == 1).length == 1 &&
      l.all fun d => field d 1 1 == 3 || (d.length == 18 && d.take 8 == [18, 1, 0x00, 0x02, 0, 0, 0, 64] && field d 17 1 == 1)

/-- A route seed (Table 4.5). -/
def seedOk (b : List Byte) : Bool :=
  field b 0 2 / 2 ^ 14 != 3 && field b 2 2 / 2 ^ 14 == 0 && field b 4 1 < 32 && field b 5 1 < 32 && field b 6 1 < 8 &&
    bits 2 1 (field b 6 1) != 3 && routeOk (2 ^ 31 + field b 4 1 * 2 ^ 26 + field b 5 1 * 2 ^ 21)

/-- The PD policy table (R310). -/
def policyOk (b : List Byte) : Bool :=
  let n := field b 1 1
  field b 0 1 == 1 && 1 ≤ n && n ≤ 64 && zeroAt b 2 6 && b.length == 8 + 16 * n && (pieces 16 (b.drop 8)).all fun r =>
    zeroAt r 14 2 && field r 8 2 ≤ 500 && field r 10 1 ≤ 200 && field r 11 1 ≤ field r 10 1 && bit 0 (field r 6 1) && field r 12 1 ≤ 2 &&
      field r 13 1 != 0

/-- The alt-mode list (R318). -/
def altsOk (b : List Byte) : Bool :=
  let n := field b 1 1
  field b 0 1 == 1 && 1 ≤ n && n ≤ 16 && zeroAt b 2 2 && b.length == 4 + 8 * n && (pieces 8 (b.drop 4)).all fun r =>
    field r 1 2 == 0xFF01 && field r 3 1 != 0 && field r 4 1 ≤ 2 && field r 0 1 < 64 && field r 3 1 < 8 && zeroAt r 5 3

/-- The display timings table (R356): reserved bits of the TIMING words are zero. -/
def timingsOk (b : List Byte) : Bool :=
  let n := field b 1 1
  field b 0 1 == 1 && 1 ≤ n && n ≤ 32 && zeroAt b 2 2 && b.length == 4 + 32 * n && (pieces 32 (b.drop 4)).all fun r =>
    (List.range 8).all fun i =>
      match regDesc ((Reg.DSP.TIMING0.word 0).addr + 4 * i) with
      | none => false
      | some d => Nat.land (field r (4 * i) 4) (0xFFFFFFFF - d.rw) == 0

/-- A record of a scheduler profile. -/
def shaperRecOk (b : List Byte) : Bool :=
  let i := field b 0 2
  let cfg := word (field b 4 4)
  zeroAt b 2 2 && rateOk cfg && i < 4096 && shaperUsed i && !(i < 0x88 && 6 ≤ i % 8 && shpEN cfg)

/-- No die gets more than 2,048 origin entries (R209): the last record of each tunnel counts. -/
def originFits (b : List Byte) : Bool :=
  let t := (pieces 12 b).foldl (fun (t : Tab Nat) e => Tab.set zeroN (field e 0 2) (field e 4 8) t) []
  (List.range 8).all fun d => (t.filter fun x => orgV x.2 && orgOSLOT x.2 == d).length ≤ 2048

/-- A record may stand in the section of a role, and has the format of its type (R35, R442). -/
def recordOk (role : Nat) (r : Nat × List Byte) : Bool :=
  let b := r.2
  match r.1 with
  | 0x0001 => entries 8 (fun e => field e 0 1 ≤ 5 && zeroAt e 1 1 && zeroAt e 6 2) b
  | 0x0002 => entries 8 (fun e => zeroAt e 2 2 && Config.trimKnown role (field e 0 2)) b
  | 0x0010 => role == 0 && entries 16 (fun e => field e 12 2 < 16) b && b.length ≤ 65536 * 16
  | 0x0011 => role == 0 && entries 16 (fun e => field e 12 2 < 16 && field e 0 1 < 0x20) b && b.length ≤ 1024 * 16
  | 0x0012 => role == 0 && 4 ≤ b.length && zeroAt b 2 2 &&
      entries 12 (fun e => field e 6 1 ≤ 2 && (field e 6 1 != 2 || (1 ≤ field e 7 1 && field e 7 1 ≤ 4))) (b.drop 4)
  | 0x0013 => role == 0 && entries 36 (fun e => field e 0 1 < 4 && 1 ≤ field e 1 1 && field e 1 1 ≤ 3 && zeroAt e 2 2) b
  | 0x0014 => if role = 0 then usbRecordOk b else role == 2 && (usbDescs 256 b).isSome
  | 0x0020 => role == 0 && entries 8 seedOk b
  | 0x0021 => role == 0 && entries 8 (fun e => field e 0 2 < 16384 && zeroAt e 2 2 && termOk (field e 4 4)) b
  | 0x0022 => role == 0 && entries 12 (fun e => field e 0 2 < 16384 && zeroAt e 2 2 && originOk (field e 4 8)) b && originFits b
  | 0x0023 => role == 0 && entries 4 (fun e => field e 0 2 < 16384 && field e 2 2 < 4096) b
  | 0x0024 => role == 0 && entries 12 shaperRecOk b
  | 0x0025 => role == 0 && entries 12 (fun e => zeroAt e 2 2 && rateOk (word (field e 4 4)) && field e 0 2 != 0 && field e 0 2 < 4096) b
  | 0x0030 => role == 2 && policyOk b
  | 0x0031 => role == 2 && altsOk b
  | 0x0040 => role == 5 && timingsOk b
  | _ => false

/-- The records of a slot that fail R35, by type and in order; 0 for a broken record header. -/
def badRecords (s : State) (k : Nat) : List Nat :=
  ((sections s k).map fun x => match sectionRecords s k x.role with
    | none => [0]
    | some l => (l.filter fun r => !recordOk x.role r).map fun r => r.1).flatten

/-- The header of an image (Table 18.5). -/
def headerOk (s : State) (k : Nat) : Bool :=
  let h := content s k 0 64
  let l := sections s k
  field h 0 4 == 0x4C483849 && field h 4 1 == 1 && field h 5 1 < 2 && 1 ≤ field h 6 1 && field h 6 1 ≤ 8 && field h 7 1 < 16 &&
    bit (s.variant.code - 1) (field h 7 1) && zeroAt h 14 50 && (l.all fun x => x.role ≤ 5 && x.sflags < 2 && x.zero &&
      x.off + x.len ≤ 4092 * (imgNblk s k - 1)) && l.all fun x => (l.filter fun y => y.role == x.role).length == 1

/-- The body of the records of a type in a role's section, one after the other; `none` where the section or one of them fails
R35. -/
def recordBody (s : State) (k role typ : Nat) : Option (List Byte) :=
  match sectionRecords s k role with
  | none => none
  | some l =>
    let m := l.filter fun r => r.1 == typ
    if m.all (recordOk role) then some (m.map fun r => r.2).flatten else none

/-! Compatibility (R456). -/

/-- major.minor. -/
def Section.mm (x : Section) : Nat := x.major * 256 + x.minor

/-- The section of role `a` in slot `ka` accepts the version of role `b` in slot `kb`. -/
def sectionAccepts (s : State) (ka a kb b : Nat) : Bool :=
  match sectionOf s kb b with
  | none => true
  | some y => match ((pieces 8 ((recordBody s ka a 1).getD [])).filter fun e => field e 0 1 == b).head? with
    | none => true
    | some e => field e 2 2 ≤ y.mm && y.mm ≤ field e 4 2

/-- The slot a die runs from; none before an image has been applied. -/
def runsSlot (s : State) (d : Nat) : Option Nat :=
  match Tab.get zeroN s.img.runs d with
  | 0 => none
  | k + 1 => some k

/-- The tributary dies present, in the order of activation. -/
def presentDies (s : State) : List Nat := [2, 3, 4, 5, 6, 7].filter (present s)

/-- One state of an activation: which slot each die runs; every pair of present dies is compatible. -/
def stateOk (s : State) (runs : Nat → Option Nat) : Bool :=
  let ds := [0, 1] ++ presentDies s
  ds.all fun a => ds.all fun b => match runs a, runs b with
    | some ka, some kb => a == b || sectionAccepts s ka (slotRole a) kb (slotRole b)
    | _, _ => true

/-- Every state on the way to slot `k` is compatible: the first `i` tributary dies changed, and last the LD with the MD. -/
def pathOk (s : State) (k : Nat) : Bool :=
  let ds := presentDies s
  ((List.range (ds.length + 1)).all fun i => stateOk s fun d => if (ds.take i).contains d then some k else runsSlot s d) &&
    stateOk s fun _ => some k

/-- The checks of IMG_VERIFY in order (R455): the status, and the record type for IMG.LOADLOG. -/
def verifyStatus (s : State) (k : Nat) : Nat × Nat :=
  if !imgValid s k then (ST_SEAL_FAIL, 0)
  else if !headerOk s k then (ST_BAD_PARAM, 0)
  else match badRecords s k with
    | t :: _ => (ST_BAD_PARAM, t)
    | [] =>
      if ((([0, 1] ++ presentDies s).all fun d => (sectionOf s k (slotRole d)).isSome) && pathOk s k) then (ST_OK, 0) else (ST_INCOMPAT, 0)

/-! Migration (R452). -/

/-- The entries of a FIELD_MAP record. -/
def fieldMap (s : State) (k : Nat) : List (List Byte) := pieces 12 (((recordBody s k 0 0x12).getD []).drop 4)

/-- The FMVER of an image. -/
def imgFmver (s : State) (k : Nat) : Nat := beNat (content s k 12 2)

/-- Live records under the map of slot `k`: the migrated set and how many were dropped. -/
def migrateSettings (s : State) (k v : Nat) (l : List (Nat × List Byte)) : List (Nat × List Byte) × Nat :=
  let m := (fieldMap s k).filter fun e => field e 0 2 == v
  let r := l.foldl (fun (a : List (Nat × List Byte) × Nat) x =>
    if x.1 ≤ 3 then (putField x.1 x.2 a.1, a.2)
    else match (m.filter fun e => field e 2 2 == x.1).head? with
      | none => (a.1, a.2 + 1)
      | some e =>
        if field e 6 1 = 1 then (a.1, a.2 + 1) else if field e 6 1 = 0 then (putField (field e 4 2) x.2 a.1, a.2) else a) ([], 0)
  ((m.filter fun e => field e 6 1 == 2).foldl (fun a e =>
    if a.any fun x => x.1 == field e 4 2 then a else putField (field e 4 2) ((e.drop 8).take (field e 7 1)) a) r.1, r.2)

end Sys2Proof.Machine
end

