-- ==== Sys2Proof/Machine/Image.lean ====
section
/-! DEFINITION. Loading an image (R29, R193, R443, R444, R458) and the image and settings commands (R451, R453 to R455, R461). -/
namespace Sys2Proof.Machine

/-! The controller's own state. -/

/-- IMG.STAT.PHASE. -/
def phaseOf (i : Img) : Nat :=
  if i.stage < 2 then 1
  else match i.act with
    | some a => if a.back then 7 else 5
    | none =>
      if i.verify.isSome then 4 else if i.patch.isSome then 3 else if i.ep4.isSome then 2 else if i.trial.isSome then 6
      else if i.stage = 3 then 8 else 0

/-- A change of the controller, shown in PHASE. -/
def updImg (f : Img → Img) (s : State) : State :=
  let i := f s.img
  wr Reg.IMG.STAT.PHASE (phaseOf i) { s with img := i }

/-- IMG.STAT.LASTERR. -/
def imgErr (st : Nat) (s : State) : State := if st = ST_OK then s else wr Reg.IMG.STAT.LASTERR st s

/-- The reply of an image command. -/
def imgReply (o : Origin) (st : Nat) (body : List Byte) (s : State) : State := reply o st body (imgErr st s)

/-- An entry is counted in IMG.LOADLOG: the first with its record type and status (R462). -/
def loadNote (rtype st : Nat) (s : State) : State :=
  let c := rd Reg.IMG.LOADLOG.COUNT s
  let s := if c = 0 then wr Reg.IMG.LOADLOG.RTYPE rtype (wr Reg.IMG.LOADLOG.STATUS st s) else s
  raise srcIMG_LOADERR (wr Reg.IMG.LOADLOG.COUNT (min 65535 (c + 1)) s)

/-- IMG_LOADLOG_READ (R463). -/
def execImgLoadlogRead (req : EntryPoint) (s : State) : Res :=
  access Reg.IMG.LOADLOG.word.addr (fun s => returned (readReg req Reg.IMG.LOADLOG.word.addr s)) s

/-- IMG_QSPI_READ (R463). -/
def execImgQspiRead (req : EntryPoint) (s : State) : Res :=
  access Reg.IMG.QSPI.word.addr (fun s => returned (readReg req Reg.IMG.QSPI.word.addr s)) s

/-! The boot script player (R443). -/

/-- The value of an entry: a word of a settings field, or VALUE. -/
def scriptValue (s : State) (e : List Byte) : Word :=
  let fl := field e 12 2
  let i := 4 * bits 3 2 fl
  match (if bit 0 fl then setting s (field e 14 2) else none) with
  | none => word (field e 8 4)
  | some v => if i + 4 ≤ v.length then word (field v i 4) else word (field e 8 4)

/-- One entry of a script: a write, or a read-modify-write, by the boot script requester; a refusal is counted. -/
def playEntry (rtype : Nat) (e : List Byte) (s : State) : State :=
  let a := field e 0 4
  let m := word (field e 4 4)
  if !present s (addrSlot a) && bit 1 (field e 12 2) then s
  else
    let x := if m = 0xFFFFFFFF#32 then writeAt .boot false a m (scriptValue s e) s
      else match rmwAt .boot a m (scriptValue s e) s with
        | (st, _, s) => (st, s)
    if x.1 = ST_OK then x.2 else loadNote rtype x.1 x.2

/-- The entries of the boot script of slot `k` whose address passes. -/
def playBoot (k : Nat) (p : Nat → Bool) (s : State) : State :=
  forAll ((pieces 16 ((recordBody s k 0 0x10).getD [])).filter fun e => p (field e 0 4)) (playEntry 0x10) s

/-- The activate script of slot `k` (Table 18.8). -/
def playActivate (k : Nat) (s : State) : State := forAll (pieces 16 ((recordBody s k 0 0x11).getD [])) (playEntry 0x11) s

/-! Tables of a die. -/

/-- IMG.VERn shows the section that die `d` runs. -/
def showVer (d : Nat) (s : State) : State :=
  let v := match runsSlot s d with
    | none => 0
    | some k => match sectionOf s k (slotRole d) with
      | none => 0
      | some x => x.major * 2 ^ 24 + x.minor * 2 ^ 16 + x.patch
  regSet s (Reg.IMG.VER.word d).addr (word (if present s d then v else 0))

/-- Die `d` runs the section of slot `k`. -/
def setRuns (d k : Nat) (s : State) : State :=
  showVer d { s with img := { s.img with runs := Tab.set zeroN d (k + 1) s.img.runs } }

/-- The corrections of the die's factory trims (Table 18.6). -/
def loadTrims (d k : Nat) (s : State) : State :=
  match recordBody s k (slotRole d) 2 with
  | none => s
  | some b =>
    let old := Tab.keep (fun n => n / 65536 != d) s.trims
    { s with trims :=
      (pieces 8 b).foldl (fun t e => Tab.set (fun _ => (0 : Int)) (65536 * d + field e 0 2) (signed 32 (field e 4 4)) t) old }

/-- The first record of a type in a role's section: `none` where it fails R35, empty where there is none. -/
def firstBody (s : State) (k role typ : Nat) : Option (List Byte) :=
  match sectionRecords s k role with
  | none => none
  | some l => match (l.filter fun r => r.1 == typ).head? with
    | none => some []
    | some r => if recordOk role r then some r.2 else none

/-- The evaluator tables of a TU or TV die (R35): a table that fails its check is not activated. -/
def loadTables (d k : Nat) (s : State) : State :=
  if d = 2 ∨ d = 6 then
    let i := d / 4
    let old := Tab.get (fun _ => PdTables.reset) s.pdTables i
    let rules := match firstBody s k 2 0x30 with
      | none => old.rules
      | some b => pieces 16 (b.drop 8)
    let alts := match firstBody s k 2 0x31 with
      | none => old.alts
      | some b => pieces 8 (b.drop 4)
    loadPdTables i rules alts s
  else if d = 5 then
    match firstBody s k 5 0x40 with
    | none => s
    | some b => { s with timings := pieces 32 (b.drop 4) }
  else s

/-- The slot that a shaper's parameters name: its die, or the die of its switch port (Table 6.2). -/
def shaperNames (i : Nat) : Nat :=
  if i < 0x88 then (if 32 ≤ i ∧ i < 128 then portSlot (i / 8) else 0)
  else if 0x104 ≤ i ∧ i < 0x110 then portSlot (i - 0x100)
  else shaperSlot i

/-- One record of the scheduler profile: skipped and counted where it names an absent slot or its switch ports (R29). Where `same` says
so, an instance that has its parameters already is not reconfigured (R193). -/
def profileShaper (same : Bool) (e : List Byte) (s : State) : State :=
  let i := field e 0 2
  let cfg := word (field e 4 4)
  let burst := word (field e 8 4)
  if present s (shaperNames i) = false then loadNote 0x24 ST_NO_DIE s
  else if same ∧ (shaper s i).cfg = maskW 0xE003FFFF cfg ∧ (shaper s i).burst = maskW 0xFF00FFFF burst then s
  else
    match applyShaper i cfg burst s with
    | (st, t) => if st = ST_OK then t else loadNote 0x24 st s

/-- The records of the scheduler profile of slot `k` whose shapers pass. -/
def loadShapers (k : Nat) (same : Bool) (p : Nat → Bool) (s : State) : State :=
  forAll ((pieces 12 ((recordBody s k 0 0x24).getD [])).filter fun e => p (field e 0 2)) (profileShaper same) s

/-- The origin shapers of a returning die: their reset contents, then the profile of slot `k` under R192; what software had applied is
lost (R184, R194). -/
def reloadShapers (d k : Nat) (s : State) : State :=
  loadShapers k false (fun i => shaperSlot i == d)
    (updSched (fun c => { c with shapers := Tab.keep (fun i => shaperSlot i != d) c.shapers }) s)

/-- One record of the policer profile (R193). -/
def profilePolicer (e : List Byte) (s : State) : State :=
  let i := field e 0 2
  let cfg := word (field e 4 4)
  let burst := word (field e 8 4)
  if (policer s i).cfg = maskW 0xC003FFFF cfg ∧ (policer s i).burst = maskW 0xFF00FFFF burst then s
  else
    match applyPolicer i cfg burst s with
    | (st, t) => if st = ST_OK then t else loadNote 0x25 st s

def loadPolicers (k : Nat) (s : State) : State := forAll (pieces 12 ((recordBody s k 0 0x25).getD [])) profilePolicer s

/-- A tributary die takes its trims, tables and origin shapers from slot `k` (R444, R457); `back` says that it returns (R184, R210). -/
def loadDie (back : Bool) (d k : Nat) (s : State) : State :=
  let s := loadTables d k (loadTrims d k s)
  setRuns d k (if back then loadMapper d (reloadShapers d k s) else loadShapers k true (fun i => shaperSlot i == d) s)

/-! Tables of the LD. -/

/-- A table from its records, `n` bytes each with the entry from byte `at_`; an entry that names an absent die is skipped and
counted (R29). -/
def buildTable (t rtype n at_ : Nat) (b : List Byte) (s : State) : Tab Nat × State :=
  (pieces n b).foldl (fun (x : Tab Nat × State) r =>
    let e := field r at_ (n - at_)
    if namesAbsent x.2 t e then (x.1, loadNote rtype ST_NO_DIE x.2) else (Tab.set zeroN (field r 0 2) (storedEntry t e) x.1, x.2)) ([], s)

/-- A new master of table `t` is in force at once in its copies (Table 18.8 step 3). -/
def installTable (t : Nat) (m : Tab Nat) (s : State) : State :=
  swapTable t (setTbl t { tbl s t with master := m, shadow := m, rebuilding := false } s)

/-- The four tables of slot `k` are swapped in: the seeds expanded, termination, origin and Guard map (R136, R138). A table that
fails R35 stays as it is. -/
def loadLdTables (k : Nat) (s : State) : State :=
  let s := match recordBody s k 0 0x20 with
    | none => s
    | some b =>
      let l := pieces 8 b
      installTable 0 (expand (ownAddr s) l) (updTopo (fun t => { t with seeds := l, expanding := none }) s)
  let s := forAll [(1, 0x21, 8, 4), (2, 0x22, 12, 4), (3, 0x23, 4, 2)] (fun x s =>
    match recordBody s k 0 x.2.1 with
    | none => s
    | some b => match buildTable x.1 x.2.1 x.2.2.1 x.2.2.2 b s with
      | (m, s) => installTable x.1 m s) s
  raise srcFGR_DONE (updFgrBusy s)

/-- The USB descriptors of the service port (R344); absent, the fall-back set. -/
def loadUsb (k : Nat) (s : State) : State :=
  match firstBody s k 0 0x14 with
  | none => s
  | some b => updDev (fun d => { d with descs := (usbDescs 256 b).getD [] }) s

/-- Records of slot `k` that fail R35 are counted, each of them. -/
def noteBadRecords (k : Nat) (s : State) : State := forAll (badRecords s k) (fun t s => loadNote t ST_BAD_PARAM s) s

/-! Writing a slot (R453). -/

/-- The image controller takes no write of the inactive slot. -/
def imgHeld (s : State) : Bool := s.img.stage < 2 || s.img.trial.isSome || s.img.verify.isSome || s.img.act.isSome

/-- The inactive slot. -/
def idleSlot (s : State) : Nat := 1 - (bootNow s).act

/-- A block of 4,096 bytes with a good CRC. -/
def blockGood (l : List Byte) : Bool := l.length == 4096 && l.drop 4092 == leBytes 4 (crc32c (l.take 4092))

/-- A block is written into the inactive slot, which is WRITING from its first write on. -/
def writeBlock (i : Nat) (l : List Byte) (s : State) : State :=
  let k := idleSlot s
  let a := imgBase k + 4096 * i
  norProgram a l (norErase a 4096 (markSlot k SL_WRITING s))

/-- IMG_WRITE (R453, R461). -/
def execImgWrite (o : Origin) (body : List Byte) (s : State) : Res :=
  let ep4 := bit 0 (field body 6 1)
  commandV o (8 ≤ body.length && body.length == if ep4 then 8 else 8 + 4096) (fun s =>
    let b := field body 0 4
    let n := field body 4 2
    if 1 < field body 6 1 || !zeroAt body 7 1 || n == 0 || (!ep4 && n != 1) || 6144 < b + n then imgReply o ST_BAD_PARAM [] s
    else if ep4 && o.ep != .svc then imgReply o ST_DENIED [] s
    else if imgHeld s || (ep4 && s.img.ep4.isSome) then imgReply o ST_BUSY [] s
    else if ep4 then updImg (fun i => { i with ep4 := some (o, b, n, 0) }) s
    else if blockGood (body.drop 8) then imgReply o ST_OK [0, 1, 0, 0] (writeBlock b (body.drop 8) s)
    else imgReply o ST_SEAL_FAIL [0, 0, 0, 0] s) s

/-- EP4_BLOCK_RECEIVE (R453, R461): a whole block for the IMG_WRITE that waits; a partial one is discarded (R350). -/
def execEp4BlockReceive (block : List Byte) (s : State) : Res :=
  match s.img.ep4 with
  | none => .next s
  | some (o, b, n, done) =>
    if block.length ≠ 4096 then .next s
    else if blockGood block then
      let s := writeBlock b block s
      if n ≤ 1 then .next (imgReply o ST_OK (beBytes 2 (done + 1) ++ [0, 0]) (updImg (fun i => { i with ep4 := none }) s))
      else .next (updImg (fun i => { i with ep4 := some (o, b + 1, n - 1, done + 1) }) s)
    else .next (imgReply o ST_SEAL_FAIL (beBytes 2 done ++ [0, 0]) (updImg (fun i => { i with ep4 := none }) s))

/-! Delta patches (R454). -/

/-- Full blocks of the output are checked and written. -/
def flushPatch : Nat → Patch → State → Nat × Patch × State
  | 0, p, s => (ST_OK, p, s)
  | k + 1, p, s =>
    if p.block.length < 4096 then (ST_OK, p, s)
    else
      let b := p.block.take 4096
      if blockGood b then flushPatch k { p with block := p.block.drop 4096 } (writeBlock ((p.out - p.block.length) / 4096) b s)
      else (ST_SEAL_FAIL, p, s)

/-- Output bytes follow. -/
def putPatch (l : List Byte) (p : Patch) (s : State) : Nat × Patch × State :=
  if p.nblk * 4096 < p.out + l.length then (ST_BAD_PARAM, p, s)
  else flushPatch (l.length / 4096 + 1) { p with out := p.out + l.length, block := p.block ++ l } s

/-- The bytes of the running image. -/
def runningBytes (s : State) (a n : Nat) : Option (List Byte) :=
  match runsSlot s 0 with
  | none => none
  | some k => if imgNblk s k * 4096 < a + n then none else some (norReads s (imgBase k + a) n)

/-- Whole records of a patch, to the first that fails. -/
def patchRecords : Nat → List Byte → Patch → State → Nat × Patch × State
  | _, [], p, s => (ST_OK, p, s)
  | 0, _ :: _, p, s => (ST_BAD_PARAM, p, s)
  | k + 1, l, p, s =>
    let op := field l 0 1
    let n := field l 4 4
    let size := if op = 2 then 8 + padded4 n else 12
    let bytes : Option (List Byte) := match op with
      | 1 => runningBytes s (field l 8 4) n
      | 2 => some ((l.drop 8).take n)
      | 3 => if zeroAt l 9 3 then some (List.replicate n (BitVec.ofNat 8 (field l 8 1))) else none
      | _ => none
    if l.length < size ∨ zeroAt l 1 3 = false then (ST_BAD_PARAM, p, s)
    else match bytes with
      | none => (ST_BAD_PARAM, p, s)
      | some b => match putPatch b p s with
        | (st, p, s) => if st = ST_OK then patchRecords k (l.drop size) p s else (st, p, s)

/-- The header of a patch: NBLK of the new image, where it names the running image. -/
def patchHeader (s : State) (l : List Byte) : Option Nat :=
  match runsSlot s 0 with
  | none => none
  | some k =>
    if 32 ≤ l.length ∧ field l 0 4 = 0x4C484438 ∧ field l 4 1 = 1 ∧ zeroAt l 5 3 = true ∧ zeroAt l 28 4 = true ∧
        2 ≤ field l 8 4 ∧ field l 8 4 ≤ 6144 ∧ (l.drop 12).take 16 = ((sealBlock s k).drop 40).take 16 then some (field l 8 4)
    else none

/-- Patch bytes with START or END: the status, how many bytes were put out, the patch that goes on, the state. -/
def runPatch (start last : Bool) (l : List Byte) (s : State) : Nat × Nat × Option Patch × State :=
  let p0 : Option Patch := if start then (patchHeader s l).map fun n => { nblk := n, out := 0, block := [] } else s.img.patch
  match p0 with
  | none => (ST_BAD_PARAM, 0, none, s)
  | some p =>
    let s := if start then markSlot (idleSlot s) SL_WRITING s else s
    let r := if start then l.drop 32 else l
    match patchRecords (r.length / 8 + 1) r p s with
    | (st, q, s) =>
      let n := q.out - p.out
      if st = ST_SEAL_FAIL then (st, n, none, markSlot (idleSlot s) SL_FAILED s)
      else if st ≠ ST_OK then (st, n, none, s)
      else if last then
        if q.out = q.nblk * 4096 then (ST_OK, n, none, wr Reg.IMG.STAT.STAGED 0 s) else (ST_BAD_PARAM, n, none, s)
      else (ST_OK, n, some q, s)

/-- The update-staging region in bytes: where it starts, and how long it is (R46, R298). -/
def stagingBase (s : State) : Nat := rd (Reg.DCM.RGN.CUR 1) s * 2 ^ 20
def stagingSize (s : State) : Nat := (rd (Reg.DCM.RGN.CUR 2) s - rd (Reg.DCM.RGN.CUR 1) s) * 2 ^ 20

/-- IMG_DELTA (R454, R461). With SRC 1 it goes on once the memory controller serves it (R47, R48). -/
def execImgDelta (o : Origin) (body : List Byte) (s : State) : Res :=
  let src := field body 0 1
  commandV o (4 ≤ body.length && (src != 1 || body.length == 12)) (fun s =>
    let f := field body 1 1
    let off := field body 4 4
    let n := field body 8 4
    if 1 < src || 3 < f || !zeroAt body 2 2 || (src == 1 && stagingSize s < off + n) then imgReply o ST_BAD_PARAM [] s
    else if imgHeld s then imgReply o ST_BUSY [] s
    else if src == 1 && !s1Up s then imgReply o ST_BUSY_IN_SERVICE [] s
    else if src == 1 && !dcmServes s 7 then s
    else
      let l := if src = 1 then deepReads s (stagingBase s + off) n else body.drop 4
      match runPatch (bit 0 f) (bit 1 f) l s with
      | (st, k, p, s) =>
        let s := if p.isNone then raise srcIMG_DONE s else s
        imgReply o st (beBytes 4 k) (updImg (fun i => { i with patch := p }) s)) s

/-- STAGE_WRITE (R454, R461): LEN 0 abandons what is staged; a write goes on once the memory controller serves it (R47, R48). -/
def execStageWrite (o : Origin) (body : List Byte) (s : State) : Res :=
  let n := field body 4 2
  commandV o (8 ≤ body.length && body.length == 8 + n) (fun s =>
    let off := field body 0 4
    if !zeroAt body 6 2 || 8184 < n || stagingSize s < off + n then imgReply o ST_BAD_PARAM [] s
    else if !s1Up s then imgReply o ST_BUSY_IN_SERVICE [] s
    else if n = 0 then imgReply o ST_OK [] (wr Reg.IMG.STAT.STAGED 0 s)
    else if !dcmServes s 7 then s
    else imgReply o ST_OK [] (wr Reg.IMG.STAT.STAGED 1 (deepWrites (stagingBase s + off) (body.drop 8) s))) s

/-! Verifying, and what a slot holds. -/

/-- IMG_VERIFY (R455). -/
def execImgVerify (o : Origin) (body : List Byte) (s : State) : Res :=
  command o body 4 (fun s =>
    let k := field body 0 1
    if 1 < k || !zeroAt body 1 3 then imgReply o ST_BAD_PARAM [] s
    else if s.img.stage < 2 || s.img.verify.isSome || s.img.act.isSome then imgReply o ST_BUSY [] s
    else
      let s := if (bootNow s).st k = SL_WRITING then markSlot k SL_WRITTEN s else s
      updImg (fun i => { i with verify := some (o, k) }) s) s

/-- IMG_VERIFY_DONE (R455, R462). -/
def execImgVerifyDone (s : State) : Res :=
  match s.img.verify with
  | none => .next s
  | some (o, k) =>
    let v := verifyStatus s k
    let s := if v.1 = ST_BAD_PARAM then loadNote v.2 v.1 s else s
    let m := if v.1 = ST_OK then SL_VERIFIED else SL_FAILED
    let s := markSlot k m (updImg (fun i => { i with verify := none }) s)
    .next (imgReply o v.1 (beBytes 1 m ++ [0, 0, 0]) (raise srcIMG_DONE s))

/-- Class, key slot, sections and NBLK of slot `k`; zeros where it holds no image. -/
def slotInfo (s : State) (k : Nat) : List Byte :=
  if beNat (content s k 0 4) = 0x4C483849 ∧ 2 ≤ imgNblk s k ∧ imgNblk s k ≤ 6144 then
    let b := sealBlock s k
    let l := sections s k
    beBytes 1 (field b 5 1) ++ beBytes 1 (field b 6 1) ++ beBytes 1 l.length ++ beBytes 4 (imgNblk s k) ++
      (l.map fun x => beBytes 1 x.role ++ beBytes 1 x.sflags ++ beBytes 1 x.major ++ beBytes 1 x.minor ++ beBytes 2 x.patch ++ [0, 0]).flatten
  else List.replicate 7 0

/-- IMG_INFO (R461). -/
def execImgInfo (o : Origin) (body : List Byte) (s : State) : Res :=
  command o body 4 (fun s =>
    let k := field body 0 1
    if 2 < k || !zeroAt body 1 3 then imgReply o ST_BAD_PARAM [] s
    else
      match (if k = 2 then runsSlot s 0 else some k) with
      | none => imgReply o ST_OK (List.replicate 8 0) s
      | some k => imgReply o ST_OK (beBytes 1 ((bootNow s).st k) ++ slotInfo s k) s) s

/-- IMG_LOCK takes effect (R19, R461). -/
def lockImage (s : State) : State := wr Reg.GLB.STAT.LOCKED 1 s

/-- IMG_LOCK (R461). -/
def execImgLock (o : Origin) (body : List Byte) (s : State) : Res := command o body 0 (fun s => imgReply o ST_OK [] (lockImage s)) s

/-! Settings commands (R451). -/

/-- SET_READ (R451). -/
def execSetRead (o : Origin) (body : List Byte) (s : State) : Res :=
  command o body 4 (fun s =>
    let f := field body 0 2
    if !zeroAt body 2 2 then imgReply o ST_BAD_PARAM [] s
    else if f = 1 then imgReply o ST_DENIED [] s
    else
      let v := (setting s f).getD []
      imgReply o ST_OK (beBytes 2 v.length ++ [0, 0] ++ v) s) s

/-- SET_WRITE (R451, R460): it completes at the commit point of its record. -/
def execSetWrite (o : Origin) (body : List Byte) (s : State) : Res :=
  let n := field body 2 2
  commandV o (4 ≤ body.length && body.length == 4 + n) (fun s =>
    let f := field body 0 2
    if f = 0 ∨ f = 0xFFFF ∨ 1024 < n then imgReply o ST_BAD_PARAM [] s
    else if s.img.trial.isSome || s.img.stage < 2 then imgReply o ST_BUSY [] s
    else updImg (fun i => { i with jobs := i.jobs ++ [.set o f (body.drop 4)] }) s) s

/-! Commit (R445, R459). -/

/-- One OWNER_KEYS entry: OP 1 programs an EMPTY slot, OP 2 revokes a slot that did not seal the image, OP 3 sets OWNONLY; a skipped
one is counted. -/
def ownerKey1 (cls ks : Nat) (e : List Byte) (s : State) : State :=
  let k := field e 0 1
  let i := otpSlot 1 k
  let otp := s.otp
  match field e 1 1 with
  | 1 =>
    if Tab.get zeroN otp.st i = 0 then
      { s with otp :=
        { otp with
          hash := Tab.set (fun _ => (0 : BitVec 256)) i (BitVec.ofNat 256 (beNat (e.drop 4))) otp.hash
          st := Tab.set zeroN i 1 otp.st } }
    else loadNote 0x13 ST_DENIED s
  | 2 => if cls = 1 ∧ ks = k then loadNote 0x13 ST_DENIED s else { s with otp := { otp with st := Tab.set zeroN i 2 otp.st } }
  | _ => { s with otp := { otp with ownOnly := true } }

/-- The OWNER_KEYS record of slot `k`, where its seal is an owner's or no owner slot is PROGRAMMED. -/
def applyOwnerKeys (k : Nat) (s : State) : State :=
  let b := sealBlock s k
  let free := [4, 5, 6, 7].all fun i => Tab.get zeroN s.otp.st i != 1
  if field b 5 1 = 1 ∨ free = true then forAll (pieces 36 ((recordBody s k 0 0x13).getD [])) (ownerKey1 (field b 5 1) (field b 6 1)) s
  else s

/-- The trial is committed: boot record, migrated settings, owner keys (R459). A die that activation skipped runs the same version
from the new slot (notes/assumptions/37). -/
def commitTrial (k : Nat) (s : State) : State :=
  let r := bootNow s
  let s := writeBoot (({ r with act := k, trial := 0, window := 0 }.setSt (1 - k) SL_COMMITTED).setSt k SL_COMMITTED) s
  let s := if s.img.dirty then { compact s with img := { s.img with dirty := false } } else s
  let s := forAll (presentDies s) (fun d s => setRuns d k s) (applyOwnerKeys k s)
  raise srcIMG_DONE (wr Reg.IMG.STAT.NEWDIE 0 (updImg (fun i => { i with trial := none }) s))

/-- NOR_WRITE_DONE (R440): the program in progress reaches its commit point, or has failed and is tried again. -/
def execNorWriteDone (good : Bool) (s : State) : Res :=
  match s.img.jobs with
  | [] => .next s
  | j :: l =>
    if good then
      let s := updImg (fun i => { i with jobs := l }) s
      .next (match j with
        | .set o f v => imgReply o ST_OK [] (storeSetting f v s)
        | .commit o => match s.img.trial with
          | some (k, _) => imgReply o ST_OK [] (commitTrial k s)
          | none => imgReply o ST_DENIED [] s)
    else .next (wr Reg.IMG.QSPI.WERR (min 65535 (rd Reg.IMG.QSPI.WERR s + 1)) s)

end Sys2Proof.Machine
end

