-- ==== Sys2Proof/Machine/Domains.lean ====
section
/-! DEFINITION. Service domains: quiescing, reset and return (R39 to R44, R283, R324, R343, R367, R444). -/
namespace Sys2Proof.Machine

/-! What a domain holds. -/

/-- The switch ports of a domain. -/
def domPorts (d : Nat) : List Nat := if d < 4 then [d] else if d ≤ 0x11 then [] else [2 * (d - 0x10), 2 * (d - 0x10) + 1]

/-- Cells held in the Comb toward queue `q`: output queue, read-ahead, VOQs and spill FIFO. -/
def heldToward (s : State) (q : Nat) : Nat :=
  (outQ s q).length + ((aheadOf s (q / 8)).filter fun e => e.cell.tc == q % 8).length + (spillOf s q).length +
    (List.range 18).foldl (fun a i => a + (voqOf s (voqKey i (q / 8) (q % 8))).length) 0

/-- The cells in the Comb that the drain set takes in at dispatch (R41). -/
def drainSet (s : State) (d : Nat) : Tab Nat :=
  ((domPorts d).map fun p => (List.range 8).filterMap fun c =>
    if heldToward s (8 * p + c) = 0 then none else some (8 * p + c, heldToward s (8 * p + c))).flatten

/-- Neither direction of a Tolger link holds a cell. -/
def tolgerEmpty (s : State) (slot : Nat) : Bool :=
  [true, false].all fun b => cellsOf (tolger s slot b).waiting == [] && (tolger s slot b).flight == []

/-- A tributary die holds no cell or frame: on its link, waiting for its units, in reassembly, for an origin shaper, or for an Ethernet
port to send. -/
def dieEmpty (s : State) (slot : Nat) : Bool :=
  tolgerEmpty s slot && !(s.sched.held.any fun f => f.slot == slot) &&
    ([2 * slot, 2 * slot + 1].all fun p => Tab.get noCells s.tuns.arrived p == [] && (ctxsOf s p).all fun x => x.discarding) &&
    ((List.range 12).all fun e => ethSlot e != slot || ((eth s e).egress == [] && (eth s e).out == none)) &&
    (slot != 4 || s.hostIf.held == none)

/-- The domain holds no traffic of its own (R41). -/
def holdsNone (s : State) (d : Nat) : Bool :=
  if d < 4 then
    let p := lp s d
    p.tx.buf == [] && custCount p.tx == 0 && p.tx.recalls == [] && p.fifo == []
  else if d = 0x11 then !(s.brg.held.any fun h => h.dom == 0x11) && s.comb.refills == []
  else
    dieEmpty s (d - 0x10) && (match d with
      | 0x14 => !(s.brg.held.any fun h => h.dom == 0x14)
      | 0x15 => [0, 1].all fun h => !(head s h).running
      | 0x12 => (List.range 64).all fun r => match (ring s 0 r).cur with
        | some c => c.waits
        | none => true
      | 0x16 => (List.range 64).all fun r => match (ring s 1 r).cur with
        | some c => c.waits
        | none => true
      | _ => true)

/-- The drain is complete. -/
def drained (s : State) (d : Nat) : Bool := (dom s d).drain == [] && holdsNone s d

/-- The dependents of S1 that are active (R42, R283): a head enabled, the proxy running, a spill FIFO, an update staged. -/
def s1Deps (s : State) : Nat :=
  ofBool (present s 5 && anyB [Reg.DSP.CFG.EN 0, Reg.DSP.CFG.EN 1] s) +
    2 * ofBool ([0, 1].any fun d => present s (tuSlot d) && rdB (Reg.USB.PRX_STAT.RUN d) s) +
    4 * ofBool (cellsOf s.comb.spill != []) + 8 * ofBool (rdB Reg.IMG.STAT.STAGED s)

/-- The die is on its way through an activation (Table 18.9). -/
def beingActivated (s : State) (d : Nat) : Bool :=
  match s.img.act with
  | some a => a.cur == some (d - 0x10) && 0x12 ≤ d
  | none => false

/-- The command came through the domain (R42). -/
def throughDomain (o : Origin) (d : Nat) : Bool := (o.att == .mbox && d == 0x14) || (o.ep == .line && o.inPort == some d)

/-! Disruptive tests of a domain (Table 19.5). -/

/-- The disruptive tests. -/
def disruptive : List Nat := [0x10, 0x11, 0x12]

/-- A disruptive test of the domain runs. -/
def testOn (s : State) (d : Nat) : Bool := disruptive.any fun t => testRunning s (256 * t + d)

/-! Quiescing. -/

/-- The domain leaves IN_SERVICE: its drain set is fixed (R41); a ring port leaves service (R146), alt modes end with the TV die
(R320). -/
def startQuiesce (d : Nat) (force : Bool) (w : Option Origin) (s : State) : State :=
  let s := setDom d { st := .quiescing, drain := drainSet s d, force := force, waiter := w, wasReset := false } s
  if d < 4 then ringLeave d s else if d = 0x15 then tvLeft s else s

/-- The command that waits for the domain ends. -/
def domReply (d st : Nat) (s : State) : State :=
  match (dom s d).waiter with
  | some o => reply o st [] (setDom d { dom s d with waiter := none } s)
  | none => s

/-- The domain enters QUIESCED: rings of a TU stop (R343), readers behind BAR2 are gone with S4 (R231). -/
def enterQuiesced (d : Nat) (s : State) : State :=
  let s := setDom d { dom s d with st := .quiesced, drain := [], force := false } s
  let s := match d with
    | 0x12 => proxyQuiesced 0 s
    | 0x16 => proxyQuiesced 1 s
    | 0x14 => barGone s
    | _ => s
  domReply d ST_OK s

/-- Takes at most `k` cells of list `l`: discarded and kept. -/
def cutList (k : Nat) (l : List QEnt) : List QEnt × List QEnt × Nat := (l.take k, l.drop k, k - l.length)

/-- The cells of the drain set still in the Comb toward queue `q` are discarded (R41), from the heads of its lists. -/
def dropDrain (q k : Nat) (s : State) : State :=
  let a := cutList k (outQ s q)
  let s := discardAll 2 q true a.1 (setOutQ q a.2.1 s)
  let mine := (aheadOf s (q / 8)).filter fun e => e.cell.tc == q % 8
  let b := cutList a.2.2 mine
  let s := discardAll 2 q true b.1 (setAhead (q / 8) ((aheadOf s (q / 8)).filter fun e => !b.1.contains e) s)
  let c := cutList b.2.2 (spillOf s q)
  let s := discardAll 2 q false c.1 (takeSpill q c.1.length s)
  let r := (List.range 18).foldl (fun (x : Nat × State) i =>
    let v := voqKey i (q / 8) (q % 8)
    let y := cutList x.1 (voqOf x.2 v)
    (y.2.2, discardAll 2 q true y.1 (setVoq v y.2.1 x.2))) (c.2.2, s)
  leaveIfEmpty (q / 8) (q % 8) r.2


/-- What a line port holds for its far end is discarded, counted as FORCE_DROP (R41): replay buffer, custody store, recalled copies and
express FIFO. -/
def dropLine (n : Nat) (s : State) : State :=
  let p := lp s n
  let s := forAll (p.tx.custody ++ p.tx.buf) (fun e s => discardCell 2 (8 * n + e.ent.cell.tc) true { e.ent with xc := false } s) s
  let s := forAll p.fifo (fun e s => discardCell 2 (8 * n + e.cell.tc) false e s) (updLp n (fun p => { p with fifo := [] }) s)
  updTx n (fun t => { t with buf := [], custody := [], recalls := [], replay := none, replayWord := false }) s

/-- The domain is forced into QUIESCED at its drain limit (R41, R231). -/
def forceQuiesced (d : Nat) (s : State) : State :=
  let s := if d < 4 then dropLine d s else if 0x12 ≤ d then dropTolger (d - 0x10) s else s
  let s := forAll (dom s d).drain (fun e s => dropDrain e.1 e.2 s) s
  let s := if d = 0x15 then headOff 1 (headOff 0 s) else s
  enterQuiesced d (if d = 0x11 ∨ d = 0x14 then brgAbort d s else s)

/-! Reset. -/

/-- A line port is reset (R44): what its link held is dealt with as at link failure, lanes, PCS, FEC, credit, replay and custody
go back to reset, its registers stay, and its RTT stays until the next training. -/
def resetLine (n : Nat) (s : State) : State :=
  let parent := parentPort s == some n
  let s := ringLeave n (if trained s n then linkCleanup n s else s)
  let p := lp s n
  let s := setLp n { LinePort.reset with left := p.left, lpwr := p.lpwr, time := p.time, xwin := p.xwin } s
  let s := regSet s (Reg.HLP.STAT.word n).addr (regReset (Reg.HLP.STAT.word n).addr)
  if parent then enterHoldFast s else s

/-- The register block of the LD goes back to reset with its counters. -/
def blockReset (b : Nat) (s : State) : State :=
  let mine := fun k : Nat => addrSlot (k % 0x100000000) == 0 && addrBlk (k % 0x100000000) == b
  { s with
    regs := Tab.keep (fun k => !mine k) s.regs
    ctrs := Tab.keep (fun k => !mine k) s.ctrs
    ctrRc := Tab.keep (fun k => k != b) s.ctrRc }

/-- S1 is reset: DCM controller and regions, the Deep Comb kept; an activated MD section takes effect (R44, R46, R457). -/
def resetDeep (s : State) : State :=
  let s := blockReset 0x14 s
  match runsSlot s 0 with
  | none => s
  | some k => setRuns 1 k (loadTrims 1 k s)

/-- A die is reset; both links of a TS go down (Table 15.2). -/
def resetDie (slot : Nat) (s : State) : State := linkDown slot (dieReset slot (if slot = 4 then rootLost (pceDown s) else s))

/-- The domain enters RESETTING (R44); a disruptive test of it is aborted. -/
def startReset (d : Nat) (w : Option Origin) (s : State) : State :=
  let s := forAll disruptive (fun t s => abortTest (256 * t + d) s) s
  let s := if d < 4 then resetLine d s else if d = 0x11 then resetDeep s else resetDie (d - 0x10) s
  setDom d { st := .resetting, drain := [], force := false, waiter := w, wasReset := true } s

/-! Return. -/

/-- A line port returns: it trains where it may, else it is in service at once, with the pools that CPOOL asks for (R126). -/
def returnLine (n : Nat) (s : State) : State :=
  withParent (fun s =>
    let s := if trained s n then linkCleanup n s else s
    let s := setDom n { dom s n with st := .returning } s
    if mayTrain s n then startTraining n s else applyPools n (setDom n (Domain.reset .inService) s)) s

/-- A die or S1 begins to return (Table 1.7). -/
def startReturn (d : Nat) (w : Option Origin) (s : State) : State :=
  let s := setDom d { dom s d with st := .returning, waiter := w } s
  if d = 0x11 then s else startLink (d - 0x10) s

/-- The image slot that a returning die loads from: that of its activation, else the one it runs, else the LD's. -/
def returnSlot (s : State) (slot : Nat) : Option Nat :=
  match s.img.act with
  | some a => if a.cur = some slot then some a.slot else (runsSlot s slot).orElse fun _ => runsSlot s 0
  | none => (runsSlot s slot).orElse fun _ => runsSlot s 0

/-- The boot script entries of a die, after a reset (R444). -/
def replayDie (slot k : Nat) (s : State) : State := playBoot k (fun a => addrSlot a == slot) s

/-- A die is in service: what waited for it goes on (R324, Table 15.2, R367). -/
def dieReturned (slot : Nat) (s : State) : State :=
  match slot with
  | 2 => tuReturned 0 s
  | 6 => tuReturned 1 s
  | 3 => ethFlush 0 s
  | 7 => ethFlush 1 s
  | 5 => headsReturn s
  | _ => s

/-- The domain is in service again, and the command that waited ends. -/
def enterService (d : Nat) (s : State) : State :=
  let s := domReply d ST_OK s
  let s := setDom d (Domain.reset .inService) s
  if 0x12 ≤ d then dieReturned (d - 0x10) s else s

/-- RETURNING_COMPLETE (R444): tables reloaded, and after a reset the boot script entries played. -/
def execReturningComplete (dom_ : Nat) (s : State) : Res :=
  let x := dom s dom_
  if x.st ≠ .returning ∨ dom_ < 0x11 then .next s
  else if dom_ = 0x11 then
    .next (enterService 0x11 (match runsSlot s 0 with
      | some k => if x.wasReset then playBoot k (fun a => addrSlot a == 0 && addrBlk a == 0x14) s else s
      | none => s))
  else
    let slot := dom_ - 0x10
    if linkUp s slot then
      .next (enterService dom_ (match returnSlot s slot with
        | none => s
        | some k =>
          let s := loadDie true slot k s
          if x.wasReset then replayDie slot k s else s))
    else .next s

/-! Events of a domain. -/

/-- The die of an activation goes on with its reset (R457). -/
def activationReset (d : Nat) (s : State) : State :=
  if beingActivated s d && domSt s d == .quiesced && !(dom s d).wasReset then startReset d none s else s

/-- DRAIN_COMPLETE (R41). -/
def execDrainComplete (dom_ : Nat) (s : State) : Res :=
  if domSt s dom_ = .quiescing ∧ drained s dom_ = true then .next (activationReset dom_ (enterQuiesced dom_ s)) else .next s

/-- DRAIN_LIMIT_EXPIRY (R41): with FORCE into QUIESCED, else back into service with ST_TIMEOUT. -/
def execDrainLimitExpiry (dom_ : Nat) (s : State) : Res :=
  if domSt s dom_ ≠ .quiescing then .next s
  else if drained s dom_ then .next (activationReset dom_ (enterQuiesced dom_ s))
  else if (dom s dom_).force then .next (activationReset dom_ (forceQuiesced dom_ s))
  else
    let s := domReply dom_ ST_TIMEOUT s
    let s := setDom dom_ (Domain.reset .inService) s
    .next (if dom_ < 4 then updLp dom_ (fun p => { p with left := false }) s else if dom_ = 0x15 then headsReturn s else s)

/-- RESET_TIME_END (R44): QUIESCED again; the Deep Comb's interface has retrained; the die of an activation returns at once. -/
def execResetTimeEnd (dom_ : Nat) (s : State) : Res :=
  if domSt s dom_ ≠ .resetting then .next s
  else
    let s := domReply dom_ ST_OK s
    let s := setDom dom_ { dom s dom_ with st := .quiesced } s
    if dom_ = 0x11 then .next (wr Reg.DCM.STAT.TRAINED 1 (wr Reg.DCM.STAT.MTS 8533 s))
    else if beingActivated s dom_ then .next (startReturn dom_ none s)
    else .next s

/-- RETURN_TIMEOUT (R283): 50 ms have passed; the domain stays QUIESCED. -/
def execReturnTimeout (dom_ : Nat) (s : State) : Res :=
  if domSt s dom_ = .returning ∧ 0x11 ≤ dom_ then
    let s := domReply dom_ ST_TIMEOUT s
    .next (setDom dom_ { dom s dom_ with st := .quiesced } s)
  else .next s

/-! Commands (R283). -/

/-- What a domain code is refused with; ST_OK where the domain exists. -/
def domCheck (s : State) (d : Nat) : Nat :=
  if !domCodes.contains d then ST_BAD_PARAM else if 0x12 ≤ d ∧ present s (d - 0x10) = false then ST_NO_DIE else ST_OK

/-- DOMAIN_QUIESCE (R41 to R43). -/
def execDomainQuiesce (o : Origin) (body : List Byte) (s : State) : Res :=
  command o body 8 (fun s =>
    let d := field body 0 1
    let f := field body 1 1
    let c := domCheck s d
    if 1 < f || !zeroAt body 2 2 || 4000000 < field body 4 4 then reply o ST_BAD_PARAM [] s
    else if c ≠ ST_OK then reply o c [] s
    else if throughDomain o d then reply o ST_DENIED [] s
    else if domSt s d ≠ .inService ∨ beingActivated s d = true then reply o ST_BUSY [] s
    else if d = 0x11 ∧ s1Deps s ≠ 0 then reply o ST_BUSY_IN_SERVICE (beBytes 4 (s1Deps s)) s
    else startQuiesce d (f == 1) (some o) s) s

/-- DOMAIN_RESET (R44). -/
def execDomainReset (o : Origin) (body : List Byte) (s : State) : Res :=
  command o body 4 (fun s =>
    let d := field body 0 1
    let c := domCheck s d
    if !zeroAt body 1 3 then reply o ST_BAD_PARAM [] s
    else if c ≠ ST_OK then reply o c [] s
    else if throughDomain o d then reply o ST_DENIED [] s
    else if domSt s d ≠ .quiesced ∨ beingActivated s d = true then reply o ST_BUSY [] s
    else startReset d (some o) s) s

/-- DOMAIN_RETURN (R283): refused while a disruptive test runs (Table 19.5). -/
def execDomainReturn (o : Origin) (body : List Byte) (s : State) : Res :=
  command o body 4 (fun s =>
    let d := field body 0 1
    let c := domCheck s d
    if !zeroAt body 1 3 then reply o ST_BAD_PARAM [] s
    else if c ≠ ST_OK then reply o c [] s
    else if domSt s d ≠ .quiesced ∨ testOn s d = true then reply o ST_BUSY [] s
    else if d < 4 then reply o ST_OK [] (returnLine d s)
    else startReturn d (some o) s) s

/-- DOMAIN_STATUS (R283). -/
def execDomainStatus (o : Origin) (body : List Byte) (s : State) : Res :=
  command o body 4 (fun s =>
    let d := field body 0 1
    let c := domCheck s d
    if !zeroAt body 1 3 then reply o ST_BAD_PARAM [] s
    else if c ≠ ST_OK then reply o c [] s
    else reply o ST_OK (beBytes 1 (domCode (domSt s d)) ++ [0, 0, 0] ++ beBytes 4 (if d = 0x11 then s1Deps s else 0)) s) s

end Sys2Proof.Machine
end

