-- ==== Sys2Proof/Machine/Activate.lean ====
section
/-! DEFINITION. Activation of an image, its trial, commit and revert (R456 to R460, Tables 18.8 and 18.9). -/
namespace Sys2Proof.Machine

/-- A change of the activation. -/
def updAct (f : Activation → Activation) (s : State) : State := updImg (fun i => { i with act := i.act.map f }) s

/-- IMG.STAT.NEWDIE of a die. -/
def newDie (d : Nat) (b : Bool) (s : State) : State :=
  wr Reg.IMG.STAT.NEWDIE (setBit d b (rd Reg.IMG.STAT.NEWDIE s)) s

/-- The section of die `d` in slot `k`, as it runs or would run. -/
def dieSection (s : State) (d k : Nat) : Option Section := sectionOf s k (slotRole d)

/-- The new section has the version of the running one (R457). -/
def sameVersion (s : State) (d k : Nat) : Bool :=
  match dieSection s d k, (runsSlot s d).bind (dieSection s d) with
  | some a, some b => a.major == b.major && a.minor == b.minor && a.patch == b.patch
  | _, _ => false

/-- SFLAGS.RESET of the section that die `d` moves to. -/
def resetsDie (s : State) (d k : Nat) : Bool :=
  match dieSection s d k with
  | some x => bit 0 x.sflags
  | none => false

/-- Die `d` has moved to its slot. -/
def dieMoved (d : Nat) (s : State) : State :=
  let back := match s.img.act with
    | some a => a.back
    | none => false
  newDie d (!back) (updAct (fun a => { a with changed := d :: a.changed, cur := none }) s)

/-- Step 1 of Table 18.8: the Forager builds shadow copies of the four tables; tests that would disturb it end. -/
def ldStep (s : State) : State :=
  updFgrBusy (updAct (fun a => { a with stage := 1, cur := some 0 }) (rotAbort (forAll [0, 1, 2, 3] cmpAbort s)))

/-- The activation turns back: the dies changed return to their old sections, latest first (R457, R459). -/
def turnBack (err : Nat) (s : State) : State :=
  let old := s.img.old
  updAct (fun a => { a with back := true, slot := old, todo := a.changed, changed := [], cur := none, stage := 0, err := err }) s

/-- No trial is noted in the boot record. -/
def endTrialRecord (s : State) : State :=
  let r := bootNow s
  if r.trial = 0 then s else writeBoot { r with trial := 0, window := 0 } s

/-- The way back has ended: a revert that was asked for, or one that a failure caused, with its status in LASTERR. -/
def endBack (a : Activation) (s : State) : State :=
  let s := endTrialRecord (updImg (fun i => { i with act := none, trial := none }) s)
  let s := wr Reg.IMG.STAT.NEWDIE 0 (imgErr a.err s)
  raise srcIMG_DONE (if a.stop then raise srcIMG_REVERTED s else s)

/-- The activation goes on with its next dies: those that change in place at once, up to one that is reset, or the LD. -/
def goOn : Nat → State → State
  | 0, s => s
  | n + 1, s =>
    match s.img.act with
    | none => s
    | some a =>
      if a.stop && !a.back then goOn n (turnBack ST_OK s)
      else
        match a.todo with
        | [] => if a.back then endBack a s else s
        | d :: l =>
          let s := updAct (fun a => { a with todo := l }) s
          if d = 0 then ldStep s
          else if !a.back && sameVersion s d a.slot then goOn n s
          else if domSt s (0x10 + d) = .off then goOn n (dieMoved d (setRuns d a.slot s))
          else if resetsDie s d a.slot then
            let s := updAct (fun a => { a with cur := some d }) s
            match domSt s (0x10 + d) with
            | .inService => startQuiesce (0x10 + d) a.force none s
            | .quiesced => startReset (0x10 + d) none s
            | _ => s
          else goOn n (dieMoved d (loadDie false d a.slot s))

/-- More calls than the dies and turns of one activation. -/
def goOnAll (s : State) : State := goOn 20 s

/-- A revert of the trial: the LD first, then S7 down to S2 (R459). No command sets its FORCE (notes/assumptions/37). -/
def startRevert (s : State) : State :=
  let dies := 0 :: [7, 6, 5, 4, 3, 2].filter fun d => bit d (rd Reg.IMG.STAT.NEWDIE s)
  let a : Activation :=
    { slot := s.img.old, force := true, drain := 0, window := 0, todo := dies, changed := [], cur := none, stage := 0, back := true,
      err := 0, stop := true }
  goOnAll (updImg (fun i => { i with act := some a, trial := none }) s)

/-- The window that an activation asks for (R459, IMG.TRIAL). -/
def trialWindow (s : State) (w : Nat) : Nat :=
  if w != 0 then w else if rd Reg.IMG.TRIAL.WINDOW s = 0 then 600 else rd Reg.IMG.TRIAL.WINDOW s

/-- An activation may not start now (Table 18.9). -/
def activateHeld (s : State) : Bool :=
  s.img.stage < 2 || s.img.patch.isSome || s.img.verify.isSome || s.img.act.isSome || s.img.trial.isSome

/-- IMG_ACTIVATE (R457). -/
def execImgActivate (o : Origin) (body : List Byte) (s : State) : Res :=
  command o body 8 (fun s =>
    let k := field body 0 1
    let f := field body 1 1
    if 1 < k || 1 < f || 4000000 < field body 4 4 then imgReply o ST_BAD_PARAM [] s
    else if activateHeld s then imgReply o ST_BUSY [] s
    else if (bootNow s).st k ≠ SL_VERIFIED then imgReply o ST_SEAL_FAIL [] s
    else if !pathOk s k then imgReply o ST_INCOMPAT [] s
    else
      let a : Activation :=
        { slot := k, force := bit 0 f, drain := field body 4 4, window := trialWindow s (field body 2 2),
          todo := presentDies s ++ [0], changed := [], cur := none, stage := 0, back := false, err := 0, stop := false }
      let old := (runsSlot s 0).getD (1 - k)
      goOnAll (updImg (fun i => { i with act := some a, old := old }) (reply o ST_OK [] s))) s

/-- ACTIVATION_STEP_DONE (R457): the die that was reset is in service with its new section. -/
def execActivationStepDone (s : State) : Res :=
  match s.img.act with
  | none => .next s
  | some a => match a.cur with
    | none => .next s
    | some d =>
      if d ≠ 0 ∧ domSt s (0x10 + d) = .inService ∧ runsSlot s d = some a.slot then .next (goOnAll (dieMoved d s)) else .next s

/-- A die that could not return stays QUIESCED. -/
def leaveQuiesced (d : Nat) (s : State) : State :=
  if domSt s (0x10 + d) = .returning then setDom (0x10 + d) { dom s (0x10 + d) with st := .quiesced } s else s

/-- ACTIVATION_TIMEOUT (R457): the die is not in service within its 50 ms, or its drain limit has passed. -/
def execActivationTimeout (s : State) : Res :=
  match s.img.act with
  | none => .next s
  | some a => match a.cur with
    | none => .next s
    | some d =>
      let st := domSt s (0x10 + d)
      if d = 0 ∨ st = .quiescing ∨ st = .resetting ∨ (st = .inService ∧ runsSlot s d = some a.slot) then .next s
      else
        let s := leaveQuiesced d s
        .next (goOnAll (if a.back then updAct (fun a => { a with cur := none, err := ST_TIMEOUT }) s else turnBack ST_TIMEOUT s))

/-- The settings that the LD of slot `k` starts with: migrated where its FMVER is not that of the settings (R452), or those of the
NOR again on the way back. -/
def settingsFor (k : Nat) (back : Bool) (s : State) : State :=
  if back then
    let n := norSettings s
    wr Reg.IMG.STAT.MIGRATED 0 { s with img := { s.img with settings := n.1, fmver := n.2.1, dirty := false } }
  else if s.img.fmver = imgFmver s k ∨ (setCopy s).isNone = true then wr Reg.IMG.STAT.MIGRATED 0 s
  else
    let m := migrateSettings s k s.img.fmver s.img.settings
    let s := times m.2 (loadNote 0x12 ST_OK) s
    wr Reg.IMG.STAT.MIGRATED 1 { s with img := { s.img with settings := m.1, fmver := imgFmver s k, dirty := true } }

/-- LD_SHADOWS_COMPARED (R458, Table 18.8 steps 2 and 3): bulk traffic pauses and the four tables are swapped. -/
def execLdShadowsCompared (s : State) : Res :=
  match s.img.act with
  | none => .next s
  | some a =>
    if a.stage = 1 ∧ s1Up s = true then
      .next (loadLdTables a.slot (settingsFor a.slot a.back (updAct (fun a => { a with stage := 2 }) s)))
    else .next s

/-- The LD runs the section of slot `k` (Table 18.8 step 4): trims, profiles, the activate script, its USB descriptors. Shapers of a
die that is out of service come with its return. -/
def loadLd (k : Nat) (s : State) : State :=
  let up := fun i : Nat => shaperSlot i == 0 || !present s (shaperSlot i) || domSt s (0x10 + shaperSlot i) == .inService
  setRuns 0 k (loadUsb k (loadPolicers k (loadShapers k true up (playActivate k (loadTrims 0 k s)))))

/-- The trial starts (Table 18.8 step 5). -/
def startTrial (a : Activation) (s : State) : State :=
  let s := writeBoot { bootNow s with trial := 1, window := a.window } s
  raise srcIMG_DONE (updImg (fun i => { i with act := none, trial := some (a.slot, s.now + a.window * 1000000000) }) s)

/-- LD_ACTIVATION_RESUME (R458, Table 18.8 steps 4 and 5): bulk traffic goes on, and the trial starts or the way back goes on. -/
def execLdActivationResume (s : State) : Res :=
  match s.img.act with
  | none => .next s
  | some a =>
    if a.stage = 2 then
      let s := updAct (fun a => { a with stage := 0 }) (dieMoved 0 (loadLd a.slot s))
      .next (if a.back || a.stop then goOnAll s else startTrial a s)
    else .next s

/-- A commit of the trial is being written. -/
def committing (s : State) : Bool := s.img.jobs.any fun j => match j with
  | .commit _ => true
  | .set _ _ _ => false

/-- TRIAL_EXPIRY (R459, R460): a commit that has begun stands. -/
def execTrialExpiry (s : State) : Res := if s.img.trial.isSome && !committing s then .next (startRevert s) else .next s

/-- IMG_COMMIT (R459): it completes at the commit point of the boot record. -/
def execImgCommit (o : Origin) (body : List Byte) (s : State) : Res :=
  command o body 0 (fun s =>
    if s.img.trial.isNone then imgReply o ST_DENIED [] s
    else if committing s then imgReply o ST_BUSY [] s
    else updImg (fun i => { i with jobs := i.jobs ++ [.commit o] }) s) s

/-- IMG_REVERT (R459, R460): during an activation the step that runs ends first. -/
def execImgRevert (o : Origin) (body : List Byte) (s : State) : Res :=
  command o body 0 (fun s =>
    if s.img.act.isSome then updAct (fun a => { a with stop := true }) (imgReply o ST_OK [] s)
    else if s.img.trial.isNone then imgReply o ST_DENIED [] s
    else if committing s then imgReply o ST_BUSY [] s
    else startRevert (imgReply o ST_OK [] s)) s

end Sys2Proof.Machine
end

