-- ==== Sys2Proof/Machine/Boot.lean ====
section
/-! DEFINITION. Reset scopes, straps, boot and power events of the whole part (R9, R419, R420, R434 to R449, R479, R490, R494,
R505). -/
namespace Sys2Proof.Machine

/-! Straps (R434, R494). -/

/-- The majority of three samples, bit by bit. -/
def majority (a b c : BitVec 3) : BitVec 3 := (a &&& b) ||| (a &&& c) ||| (b &&& c)

/-- With COMPAT_LH4 every line port's MODE resets to 0b10 (R91, R435). -/
def compatModes (s : State) : State :=
  if compat s then forAll [0, 1, 2, 3] (fun n s => wr (Reg.HLP.CFG.MODE n) 2 s) s else s

/-- The straps are sampled: bits 1:0 ROLE, bit 2 COMPAT_LH4; an invalid ROLE comes up as node (R9). -/
def sampleStraps (v : Nat) (s : State) : State :=
  let pin := v % 4
  let bad := pin == 3 || (pin == 1 && !present s 4)
  let s := wr Reg.GLB.STRAP.ROLE_PIN pin (wr Reg.GLB.STRAP.ROLE (if bad then 0 else pin) s)
  let s := compatModes (wr Reg.GLB.STRAP.COMPAT_LH4 (v / 4 % 2) s)
  if bad then raise srcSTRAP_ERR (wr Reg.GLB.STAT.STRAP_ERR 1 s) else s

/-! Reset scopes (Table 18.2). -/

/-- The state right after a power-on reset of this part: NOR and OTP are kept, and the model's own fields go on. -/
def coldStart (s : State) : State :=
  { State.reset with
    variant := s.variant, stepB0 := s.stepB0, now := s.now, free := s.free, nor := s.nor, otp := s.otp, pending := s.pending }

/-- A register of the Nurse domain: NRS, LPW and RTE.BYP. -/
def nurseReg (a : Nat) : Bool :=
  (addrSlot a == 0 && (addrBlk a == 0xE || addrBlk a == 0xF)) || a == Reg.RTE.BYP.word.addr

/-- Line time after a reset of the LD (R244, R245): a held time goes on in HOLD_SLOW, the frozen FADJ is lost. -/
def heldTime (s t : State) : State :=
  let q := rd Reg.TIM.STAT.QSTATE s
  if q = 0 then t
  else
    let from_ := if q = 3 ∨ q = 4 then s.time.holdFrom else s.now
    wr Reg.TIM.STAT.QSTATE 4 { t with lt := s.lt, time := { TimeSt.reset with tickLen := s.time.tickLen, holdFrom := from_, slowQual := true } }

/-- The Nurse-resident causes that are still set fire again (Table 17.6). -/
def refire (s : State) : State :=
  forAll ((List.range 32).map (96 + ·) ++ (List.range 32).map (480 + ·)) (fun n s => if rawLevel s n == some true then raise n s else s) s

/-- What a reset of the LD leaves of the Nurse domain (Table 18.2): `t` is the state after the reset, `s` before it. A sleeping LD
wakes by it (R423), a SEG_QUALIFY in flight is gone, and VBUS of the TU ports falls as before. -/
def keepNurse (s t : State) : State :=
  let t := { t with
    regs := Tab.keep (fun k => nurseReg k) s.regs
    ctrs := Tab.keep (fun k => addrSlot k == 0 && addrBlk k == 0xF) s.ctrs
    ctrRc := Tab.keep (fun k => k == 0xF) s.ctrRc
    efuses := Tab.build EFuse.reset 5 fun f => { efuse s f with seg := none }
    tcp := Tab.build (fun _ => TcPort.reset) 8 fun t => coldPort s (tcp s t)
    nurse := { s.nurse with wake := none, delivered := [] }
    topo := { t.topo with bypassSettle := s.topo.bypassSettle }
    domains := Tab.keep (fun d => domSt s d == .off) s.domains }
  let t := if ldSleeps s then wr Reg.NRS.STAT.LDST s.nurse.left t else t
  heldTime s (wr Reg.SVC.PDSTAT.DB (rd Reg.SVC.PDSTAT.DB s) t)

/-- The state after a RESET_N reset, straps not yet sampled. -/
def resetState (s : State) : State := keepNurse s (coldStart s)

/-- A register key that LD warm reset keeps: Nurse domain, straps, tributary dies. -/
def warmReg (k : Nat) : Bool := nurseReg k || k == Reg.GLB.STRAP.word.addr || addrSlot (k % 0x100000000) != 0

/-- What tributary dies hold in the tunnels across a warm reset: contexts, frames and frame numbers of their own units. -/
def dieTunnels (s : State) : Tunnels :=
  let mine := fun p : Nat => 4 ≤ p && p < 16
  { Tunnels.reset with
    ctx := Tab.keep mine s.tuns.ctx
    inbox := Tab.keep mine s.tuns.inbox
    arrived := Tab.keep mine s.tuns.arrived
    mapper := s.tuns.mapper
    fn := Tab.keep (fun t => orgOSLOT (entry s 2 t) != 0) s.tuns.fn }

/-- The Tolger links across a warm reset: what the dies hold toward the LD stays with them. -/
def dieLinks (s : State) : Tab TolgerDir :=
  (List.range 8).foldl (fun t d => Tab.set (fun _ => TolgerDir.reset) (tolgerKey d true) (relinkDir (tolger s d true) fun _ => 0) t) []

/-- The links in LINK_FAIL stay so until their re-link has succeeded (R26, R437). -/
def keepFailed (s t : State) : State :=
  forAll ((presentDies s).filter fun d => linkState s d == 4) (fun d t =>
    wr (Reg.DIE.LSTAT.STATE d) 4 (wr Reg.GLB.STAT.LINKFAIL (setBit d true (rd Reg.GLB.STAT.LINKFAIL t)) t)) t

/-- The state after an LD warm reset (R436, R437). -/
def warmState (s : State) : State :=
  let t := resetState s
  let t := { t with
    regs := (Tab.keep (fun k => warmReg k && !nurseReg k) s.regs).foldl (fun m e => Tab.set regReset e.1 e.2 m) t.regs
    ctrs := Tab.keep (fun k => addrSlot k != 0 || addrBlk k == 0xF) s.ctrs
    ctrRc := Tab.keep (fun k => k / 512 != 0 || k == 0xF) s.ctrRc
    deep := s.deep
    tolger := dieLinks s
    tcp := s.tcp
    pdTables := s.pdTables
    proxies := s.proxies
    heads := Tab.build (fun _ => Head.reset) 2 fun h => { head s h with waits := [] }
    timings := s.timings
    tols := s.tols
    dpLine := s.dpLine
    eths := s.eths
    etm := s.etm
    hostIf := s.hostIf
    trims := Tab.keep (fun k => 2 ≤ k / 65536) s.trims
    tuns := dieTunnels s
    sched := { t.sched with
      shapers := Tab.keep (fun i => shaperSlot i != 0) s.sched.shapers
      held := s.sched.held.filter fun f => f.slot != 0 } }
  compatModes (keepFailed s t)

/-- POWER_ON_RESET (R434, R436): with the supply monitor's hold still on, it lasts until the hold ends (R505). -/
def execPowerOnReset (a b c : BitVec 3) (s : State) : Res :=
  if s.supplyHold then .next { coldStart s with supplyHold := true } else .next (sampleStraps (majority a b c).toNat (coldStart s))

/-- RESET_N (R434, R436, Table 17.6). -/
def execResetN (a b c : BitVec 3) (s : State) : Res :=
  if s.supplyHold then .next { coldStart s with supplyHold := true }
  else .next (refire (sampleStraps (majority a b c).toNat (resetState s)))

/-- SUPPLY_FAIL (R490): power-on reset, held until every supply has been valid for 1 ms. -/
def execSupplyFail (s : State) : Res := .next { coldStart s with supplyHold := true }

/-- SUPPLY_HOLD_END (R434, R490). -/
def execSupplyHoldEnd (a b c : BitVec 3) (s : State) : Res :=
  if s.supplyHold then .next (sampleStraps (majority a b c).toNat { coldStart s with supplyHold := false }) else .next s

/-- LD_WARM_RESET (R283, R437): the reply first. A reply that waits at its attachment stays there; boot runs again from step 2. -/
def execLdWarmReset (o : Origin) (body : List Byte) (s : State) : Res :=
  command o body 0 (fun s =>
    let t := reply o ST_OK [] s
    let mine := t.cmd.replies.drop s.cmd.replies.length
    let u := warmState { s with hostIf := t.hostIf }
    refire { u with cmd := { u.cmd with replies := mine } }) s

/-! The NOR log at boot (R479). -/

/-- The address of record `i` of the log ring. -/
def logAddr (i : Nat) : Nat := 0x3510000 + 32 * i

/-- Records of the log ring. -/
def logRing : Nat := 358400

/-- SEQ and BOOT of record `i`, where it is whole. -/
def logRec (s : State) (i : Nat) : Option (Nat × Nat) :=
  if norSealed s (logAddr i) 32 && norReads s (logAddr i) 32 != List.replicate 32 (0xFF : Byte) then
    some (beNat (norReads s (logAddr i + 20) 4), beNat (norReads s (logAddr i + 16) 4))
  else none

/-- The record with the highest SEQ: its index, SEQ and BOOT. -/
def lastLog (s : State) : Option (Nat × Nat × Nat) :=
  (List.range logRing).foldl (fun best i => match logRec s i, best with
    | none, _ => best
    | some r, none => some (i, r.1, r.2)
    | some r, some b => if b.2.1 < r.1 then some (i, r.1, r.2) else best) none

/-- The log goes on after its last record. -/
def logStart (s : State) : State :=
  match lastLog s with
  | none => { s with diag := { s.diag with boots := 1 } }
  | some (i, q, b) => { s with diag := { s.diag with boots := b + 1, norSeq := q + 1, norPos := (i + 1) % logRing } }

/-! Boot (R446, Table 18.7). -/

/-- The blocks of the management domain that a dead-battery start sets up (R420, R449). -/
def mgmtBlock (a : Nat) : Bool := addrSlot a == 0 && [0x00, 0x0C, 0x0D, 0x0E, 0x12, 0x13, 0x15].contains (addrBlk a)

/-- The settings are read (R450); a failed CRC is shown. -/
def loadSettings (s : State) : State :=
  let n := norSettings s
  let s := { s with img := { s.img with settings := n.1, fmver := n.2.1, dirty := false } }
  if n.2.2 then raise srcSET_ERR (wr Reg.IMG.STAT.SETBAD 1 s) else s

/-- The line key from settings field 0x0001. -/
def loadLineKey (s : State) : State :=
  match setting s 1 with
  | none => s
  | some v => updCmd (fun c => { c with lkey := (List.range 4).foldl (fun m i => Tab.set (fun _ => (0 : Word)) i (word (field v (4 * i) 4)) m) c.lkey }) s

/-- Every line port that may train begins to. -/
def trainPorts (s : State) : State := forAll [0, 1, 2, 3] (fun n s => if lstate s n = DISABLED ∧ mayTrain s n then startTraining n s else s) s

/-- Recovery (R448): no image; the hardwired loader. -/
def recovery (s : State) : State :=
  let s := loadLineKey (loadSettings (updImg (fun i => { i with stage := 3 }) s))
  let s := connectWrite true s
  if swOff s then s else trainPorts s

/-- The seal of the running image and the versions of the dies are shown. -/
def showImage (k : Nat) (s : State) : State :=
  let b := sealBlock s k
  let s := wr Reg.IMG.KEYSTAT.SEALCLS (field b 5 1) (wr Reg.IMG.KEYSTAT.SEALSLOT (field b 6 1) s)
  forAll ([0, 1] ++ presentDies s) (fun d s => setRuns d k s) s

/-- The image is applied from its copy in the staging region (Table 18.7 steps 5 to 9). -/
def applyImage (k : Nat) (s : State) : State :=
  let s := deepWrites (stagingBase s) (norReads s (imgBase k) (4096 * imgNblk s k)) s
  let s := noteBadRecords k (settingsFor k false s)
  let s := loadLdTables k (loadTrims 1 k (loadTrims 0 k s))
  let s := loadUsb k (loadPolicers k (loadShapers k true (fun i => shaperSlot i == 0 || !present s (shaperSlot i)) s))
  playBoot k (fun a => addrSlot a == 0 || !present s (addrSlot a)) s

/-- What a start with the switch domain off applies (R449, R347). -/
def applyPart (k : Nat) (s : State) : State :=
  let s := playBoot k mgmtBlock s
  if rdB Reg.SVC.PDSTAT.DB s then connectWrite true s else loadUsb k s

/-- The rest of the image, at the first PSTATE_SET 0x20 ON (R449). -/
def applyRest (k : Nat) (s : State) : State :=
  let s := noteBadRecords k s
  let s := loadLdTables k (loadTrims 1 k (loadTrims 0 k s))
  let s := loadUsb k (loadPolicers k (loadShapers k true (fun i => shaperSlot i == 0 || !present s (shaperSlot i)) s))
  playBoot k (fun a => (addrSlot a == 0 && !mgmtBlock a) || !present s (addrSlot a)) s

/-- Every present die that is not OFF is released (Table 18.7 step 10). -/
def releaseDies (s : State) : State :=
  forAll (presentDies s) (fun d s =>
    if domSt s (0x10 + d) = .off then s
    else startLink d (setDom (0x10 + d) { Domain.reset .returning with wasReset := true } s)) s

/-- S1 is in service, its memory trained (Table 18.7 step 4). -/
def deepUp (s : State) : State :=
  setDom 0x11 (Domain.reset .inService) (wr Reg.DCM.STAT.TRAINED 1 (wr Reg.DCM.STAT.MTS 8533 s))

/-- The slot that boots (R446), and whether it is the fall-back. -/
def bootSlot (s : State) : Option (Nat × Bool) :=
  let r := bootNow s
  if imgValid s r.act then some (r.act, false)
  else if r.st (1 - r.act) = SL_COMMITTED ∧ imgValid s (1 - r.act) = true then some (1 - r.act, true)
  else none

/-- A trial that the reset has ended is noted (R459). -/
def endTrialBoot (s : State) : State :=
  if (bootNow s).trial = 1 then endTrialRecord { s with img := { s.img with reverted := true } } else s

/-- A verified image starts. -/
def startImage (k : Nat) (fallback : Bool) (s : State) : State :=
  let s := wr Reg.IMG.STAT.FALLBACK (ofBool fallback) (updImg (fun i => { i with stage := 1, part := swOff s }) s)
  let s := loadSettings (showImage k s)
  if swOff s then applyPart k s else releaseDies (applyImage k s)

/-- BOOT_SEAL_VERIFIED (R438, R446 to R449, Table 18.7 steps 3 to 10): `sfdp` says that the NOR's SFDP table passes, `size` is log2
of its size. -/
def execBootSealVerified (sfdp : Bool) (size : BitVec 8) (s : State) : Res :=
  if s.supplyHold || s.img.stage != 0 then .next s
  else
    let s := if swOff s then s else deepUp s
    if !sfdp || size.toNat < 26 then .next (recovery (wr Reg.IMG.QSPI.SFDPERR 1 s))
    else
      let s := showBoot (logStart (wr Reg.IMG.QSPI.READY 1 (wr Reg.IMG.QSPI.SIZE size.toNat s)))
      let s := endTrialBoot s
      .next (match bootSlot s with
        | none => recovery s
        | some (k, f) => startImage k f s)

/-- The node is booted: BOOTED, the lock, the line ports (Table 18.7 step 11). -/
def bootedNow (s : State) : State :=
  let s := wr Reg.GLB.STAT.BOOTED 1 s
  let lock := match runsSlot s 0 with
    | some k => bit 0 (beNat (content s k 5 1))
    | none => false
  trainPorts (if lock then lockImage s else s)

/-- Some present die is on its way into service. -/
def diesReturning (s : State) : Bool := (presentDies s).any fun d => domSt s (0x10 + d) == .returning

/-- BOOTED (R446, R447, R452, R459): the script has played and the dies have returned; the migrated settings are written, and an
ended trial is reported. -/
def execBooted (s : State) : Res :=
  if s.img.stage ≠ 1 ∨ diesReturning s = true then .next s
  else
    let s := updImg (fun i => { i with stage := 2 }) s
    let s := if s.img.part then s else bootedNow s
    let s := if s.img.dirty then compact { s with img := { s.img with dirty := false } } else s
    .next (if s.img.reverted then raise srcIMG_REVERTED { s with img := { s.img with reverted := false } } else s)

/-! Power (R322, R323, R419, R420, R492, R505). -/

/-- DEAD_BATTERY_START (R322, R420, R449): power-on reset, MGMT from SVC VBUS; the dies are without supply. -/
def execDeadBatteryStart (a b c : BitVec 3) (s : State) : Res :=
  let s := sampleStraps (majority a b c).toNat (coldStart s)
  let s := wr Reg.SVC.PDSTAT.DB 1 (wr Reg.SVC.PDSTAT.ATT 1 s)
  let s := wr Reg.NRS.PSTATE.SWOFF 1 (wr Reg.NRS.STAT.LDST 3 s)
  .next (forAll (presentDies s) (fun d s => setDom (0x10 + d) (Domain.reset .off) s) s)

/-- BOARD_POWER_VALID (R505): the management domain moves to board power. -/
def execBoardPowerValid (s : State) : Res := .next (wr Reg.SVC.PDSTAT.DB 0 s)

/-- SVC_VBUS_LOSS (R323): a brown-out under dead battery, else Unattached.SNK. -/
def execSvcVbusLoss (s : State) : Res :=
  if rdB Reg.SVC.PDSTAT.DB s then .next { coldStart s with supplyHold := true }
  else if svcAttached s then
    let s := svcDisconnect (wr Reg.SVC.PDSTAT.ATT 0 (wr Reg.SVC.PDSTAT.RPSEEN 0 (svcNoContract s)))
    .next (raise srcSVCDETACH (raise srcSVCVBUS s))
  else .next s

/-- The switch domain comes on (R420); after a start that left part of the image, the rest is applied (R449). -/
def switchOn (s : State) : State :=
  let s := wr Reg.NRS.PSTATE.SWOFF 0 (wr Reg.NRS.STAT.LDST 0 s)
  let s := if domSt s 0x11 = .notUp then deepUp s else s
  if s.img.part then
    let s := match runsSlot s 0 with
      | some k => applyRest k s
      | none => s
    let s := updImg (fun i => { i with part := false }) s
    if s.img.stage = 2 then bootedNow s else s
  else trainPorts s

/-- A tributary die is turned off (R419). -/
def dieOff (d : Nat) (s : State) : State :=
  dieSrcsIdle d (setDom (0x10 + d) (Domain.reset .off) (resetDie d s))

/-- A tributary die is turned on: its reset has run, and it is QUIESCED (R419). -/
def dieOn (d : Nat) (s : State) : State := setDom (0x10 + d) { Domain.reset .quiesced with wasReset := true } (resetDie d s)

/-- PSTATE_SET of the switch domain: the status and the effect (R420). -/
def pstateSwitch (off : Bool) (s : State) : Nat × State :=
  if off then
    if swOff s then (ST_OK, s)
    else if (List.range 4).any (fun n => rdB (Reg.HLP.CFG.EN n) s) || (presentDies s).any (fun d => domSt s (0x10 + d) != .off) then
      (ST_BUSY_IN_SERVICE, s)
    else (ST_OK, switchOff s)
  else if !swOff s then (ST_OK, s)
  else if rdB Reg.SVC.PDSTAT.DB s && !rdB Reg.SVC.PDSTAT.TIER s then (ST_DENIED, s)
  else (ST_OK, switchOn s)

/-- PSTATE_SET of a tributary die (R419, Table 18.9). -/
def pstateDie (d : Nat) (off : Bool) (s : State) : Nat × State :=
  let st := domSt s (0x10 + d)
  if !present s d then (ST_NO_DIE, s)
  else if off then
    if st = .off then (ST_OK, s)
    else if beingActivated s (0x10 + d) then (ST_BUSY, s)
    else if st = .quiesced then (ST_OK, dieOff d s)
    else (ST_BUSY_IN_SERVICE, s)
  else if st = .off then (ST_OK, dieOn d s)
  else (ST_OK, s)

/-- PSTATE_SET (R432). -/
def execPstateSet (o : Origin) (body : List Byte) (s : State) : Res :=
  command o body 4 (fun s =>
    let d := field body 0 1
    let off := field body 1 1
    if ((d < 0x12 || 0x17 < d) && d != 0x20) || 1 < off || !zeroAt body 2 2 then reply o ST_BAD_PARAM [] s
    else
      match (if d = 0x20 then pstateSwitch (off == 1) s else pstateDie (d - 0x10) (off == 1) s) with
      | (st, s) => reply o st (if st = ST_OK then beBytes 4 (pstateWord s).toNat else []) s) s

end Sys2Proof.Machine
end

