-- ==== Sys2Proof/Machine/Diag.lean ====
section
/-! DEFINITION. Counter reads, self-tests, the error log's commands, temperatures and link states (R464 to R485). -/
namespace Sys2Proof.Machine

/-! Counters (R465, R466). -/

/-- A read of the counter window by address (R465, Table 11.3), or through the direct register window (R5, R378). -/
def readCounter (req : CtrReader) (a : Nat) (s : State) : State :=
  match req with
  | .window => if tsLives s then returned (barRead (a % 2 ^ 28) s) else s
  | .requester r => returned (readAt r false a s).2

/-- COUNTER_LOW_READ (R465, R466). -/
def execCounterLowRead (req : CtrReader) (addr : BitVec 32) (s : State) : Res :=
  .next (readCounter req addr.toNat s)

/-- COUNTER_HIGH_READ (R465). -/
def execCounterHighRead (req : CtrReader) (addr : BitVec 32) (s : State) : Res :=
  .next (readCounter req addr.toNat s)

/-- The read mode of a counter block. -/
def setMode (b : Nat) (clear : Bool) (s : State) : State := { s with ctrRc := Tab.set noB b clear s.ctrRc }

/-- CTR_CLEAR (R466, R484). -/
def execCtrClear (o : Origin) (body : List Byte) (s : State) : Res :=
  command o body 8 (fun s =>
    let a := field body 0 4
    let n := field body 4 2
    let op := field body 6 1
    if 2 < op || !zeroAt body 7 1 || a % 8 != 0 || addrOff a < 0x80000 || badAddr a then reply o ST_BAD_PARAM [] s
    else if op = 0 ∧ (n = 0 ∨ 0x100000 < addrOff a + 8 * n) then reply o ST_BAD_PARAM [] s
    else if accStat s a ≠ ST_OK then reply o (accStat s a) [] s
    else
      let s := if op = 0 then forAll (List.range n) (fun i s => ctrSet (a + 8 * i) { v := 0, sat := false } s) s
        else setMode (ctrBlock a) (op == 1) s
      reply o ST_OK (beBytes 1 (ofBool (Tab.get noB s.ctrRc (ctrBlock a))) ++ [0, 0, 0]) s) s

/-! Self-tests (R470 to R477). -/

/-- The key of a test's runs. -/
def testKey (t d : Nat) : Nat := 256 * t + d

/-- Table 19.3 allows the DOMAIN. -/
def testDomOk (t d : Nat) : Bool :=
  match t with
  | 0x01 | 0x03 => d == 0xFF
  | 0x02 => d == 0x11
  | 0x10 | 0x11 => d < 4
  | 0x12 => d == 0x13 || d == 0x17
  | _ => false

/-- Table 19.3 allows the SUB, and PARAM where the test takes one. -/
def testSubOk (t sub param : Nat) : Bool :=
  match t with
  | 0x01 => sub < 16 || sub == 0xFF
  | 0x03 => sub < 4 || sub == 0xFF
  | 0x12 => sub < 4
  | 0x10 => sub == 0 && 1 ≤ param && param ≤ 10000
  | _ => sub == 0

/-- Banks that a rotation test goes through: those in service. -/
def rotBanks (s : State) (sub : Nat) : List Nat := (List.range 16).filter fun b => bankIn s b && (sub == 0xFF || b == sub)

/-- RESULT of BANK_ROT. -/
def rotResult (passed failed : Nat) : List Byte := beBytes 2 passed ++ beBytes 2 failed ++ [0, 0, 0, 0]

/-- The next bank of the rotation starts at step 1 of Table 19.4, or the test ends. It ends too where the test would leave fewer than
twelve banks in service. -/
def rotNext (todo : List Nat) (passed failed : Nat) (s : State) : State :=
  let x := testRun s 0x1FF
  let s := setTest 0x1FF { x with result := rotResult passed failed } s
  match todo with
  | b :: l =>
    if (retiring s).length ≤ 3 ∧ bankIn s b = true then
      updNbank (retireNow b
        { s with tests := { s.tests with rot := some { bank := b, phase := 1, todo := l, passed := passed, failed := failed } } })
    else
      retireProgress (endTest 0x1FF (failed == 0) (rotResult passed failed) { s with tests := { s.tests with rot := none } })
  | [] => retireProgress (endTest 0x1FF (failed == 0) (rotResult passed failed) { s with tests := { s.tests with rot := none } })

/-- RESULT of DC_SCRUB. -/
def scrubResult (s : State) : List Byte := beBytes 4 s.tests.scrubErr ++ beBytes 4 s.tests.scrubFix

/-- Why a test cannot start now; ST_OK where it can. -/
def testCheck (t d sub : Nat) (s : State) : Nat :=
  if t = 0x12 ∧ (present s (d - 0x10) = false ∨ linkState s (d - 0x10) = 4) then ST_NO_DIE
  else if testRunning s (testKey t d) then ST_BUSY
  else if t = 0x01 then if combMode s ≠ 0 ∨ 3 < (retiring s).length ∨ rotBanks s sub = [] then ST_BUSY else ST_OK
  else if t = 0x03 then if rdB Reg.RTE.FGR.BUSY s then ST_BUSY else ST_OK
  else if t = 0x02 then ST_OK
  else if domSt s d ≠ .quiesced then ST_BUSY_IN_SERVICE
  else if testOn s d then ST_BUSY
  else ST_OK

/-- The test starts. -/
def testStart (t d sub param : Nat) (s : State) : State :=
  let s := setTest (testKey t d) { TestRun.reset with st := 1, sub := sub, param := param } s
  match t with
  | 0x01 => rotNext (rotBanks s sub) 0 0 s
  | 0x02 =>
    wr Reg.DCM.SCRUB.RUN 1 { s with tests := { s.tests with scrubAt := 0, scrubErr := 0, scrubFix := 0, scrubTest := true } }
  | 0x03 => { s with tests := { s.tests with cmp := some (if sub = 0xFF then [0, 1, 2, 3] else [sub], 0, 0) } }
  | 0x12 => ethDown (6 * ((d - 0x10) / 4) + sub) false s
  | _ => s

/-- The part has the test: stepping A0 has no BANK_ROT (R504). -/
def testKnown (s : State) (t : Nat) : Bool := t != 0x01 || s.stepB0

/-- TEST_RUN (R470 to R472, R477). -/
def execTestRun (o : Origin) (body : List Byte) (s : State) : Res :=
  command o body 8 (fun s =>
    let t := field body 0 1
    let d := field body 1 1
    let sub := field body 2 1
    let param := field body 4 4
    if !testKnown s t || !testDomOk t d || !testSubOk t sub param || !zeroAt body 3 1 then reply o ST_BAD_PARAM [] s
    else if testCheck t d sub s ≠ ST_OK then reply o (testCheck t d sub s) [] s
    else testStart t d sub param (reply o ST_OK [] s)) s

/-- TEST_STATUS (R471, R484): how far a running test has come is a free value. -/
def execTestStatus (o : Origin) (body : List Byte) (s : State) : Res :=
  command o body 4 (fun s =>
    let t := field body 0 1
    let d := field body 1 1
    if !testDomOk t d || !zeroAt body 2 2 then reply o ST_BAD_PARAM [] s
    else
      let x := testRun s (testKey t d)
      match (if x.st = 1 then drawFree s else (BitVec.ofNat 64 x.prog, s)) with
      | (v, s) => reply o ST_OK ([BitVec.ofNat 8 x.st, BitVec.ofNat 8 (v.toNat % 101), BitVec.ofNat 8 x.sub, 0] ++ x.result) s) s

/-- The bank under test is retired at the end of its test (R174, Table 5.9). -/
def rotRetired (b : Nat) (s : State) : State :=
  retireDone b (updComb (fun c => { c with rotRetire := c.rotRetire.filter (· != b) }) s)

/-- The bank has failed a pattern (R472): retired, or returned where R175 forbids it. -/
def rotFailed (r : BankRot) (s : State) : State :=
  let b := r.bank
  let s := if s.comb.rotRetire.contains b || (retiring s).length < 4 then rotRetired b s
    else raise srcBANK_LIMIT (updNbank (bankBack b s))
  rotNext r.todo r.passed (r.failed + 2 ^ b) (leaveVoq 2 s)

/-- BANK_ROT_STEP_DONE (R472, Table 19.4): relocation (not before other banks have room), the cell patterns, the link-memory
patterns, the return; `good` is the outcome of the patterns. -/
def execBankRotStepDone (good : Bool) (s : State) : Res :=
  match s.tests.rot with
  | none => .next s
  | some r =>
    let b := r.bank
    let goTo := fun (k : Nat) (s : State) => { s with tests := { s.tests with rot := some { r with phase := k } } }
    match r.phase with
    | 1 =>
      if combMode s = 0 ∧ cellsIn s b ≤ ((banksIn s).map (bankFree s)).foldl (· + ·) 0 then .next (goTo 2 (relocate b s)) else .next s
    | 2 => .next (if good then goTo 3 (enterVoq 2 s) else rotFailed r s)
    | 3 => .next (if good then goTo 4 s else rotFailed r s)
    | _ =>
      let s := if s.comb.rotRetire.contains b then rotRetired b s else updNbank (bankBack b s)
      .next (rotNext r.todo (r.passed + 2 ^ b) r.failed (leaveVoq 2 s))

/-- Bursts of the Deep Comb, 64 bytes each. -/
def scrubBursts : Nat := 2 ^ 26

/-- A pass of the scrub ends (R473). -/
def scrubPassEnd (s : State) : State :=
  let s := wr Reg.DCM.SCRUB.PASSES (min 65535 (rd Reg.DCM.SCRUB.PASSES s + 1)) (wr Reg.DCM.SCRUB.RUN (rd Reg.DCM.SCRUB.EN s) s)
  let r := scrubResult s
  let bad := s.tests.scrubErr != 0
  let test := s.tests.scrubTest
  let s := { s with tests := { s.tests with scrubAt := 0, scrubErr := 0, scrubFix := 0, scrubTest := false } }
  if test then
    match (if bad then drawFree s else (1#64, s)) with
    | (v, s) => endTest 0x211 (bit 0 v.toNat) r s
  else s

/-- A burst that cannot be read (R473, R169): in the table master region the Forager repairs it. -/
def scrubError (a : Nat) (s : State) : State :=
  let s := logErr 0x0301 1 a (count (cDCM 1) s)
  let fix := decide (64 * a < rd (Reg.DCM.RGN.CUR 1) s * 2 ^ 20)
  let s := if fix then count (cDCM 2) s else s
  { s with tests := { s.tests with scrubErr := s.tests.scrubErr + 1, scrubFix := s.tests.scrubFix + ofBool fix } }

/-- Scrub may read now (R473): served by the memory controller, after every other client, and a pass to run. -/
def scrubMay (s : State) : Bool := dcmServes s 8 && (rdB Reg.DCM.SCRUB.EN s || s.tests.scrubTest)

/-- SCRUB_BURST (R473): the next burst has failed `fails` reads in a row. -/
def execScrubBurst (fails : Fin 4) (s : State) : Res :=
  if !scrubMay s then .next s
  else
    let a := s.tests.scrubAt
    let s := countBy (cDCM 0) (min fails.val 2) (wr Reg.DCM.SCRUB.RUN 1 s)
    let s := if fails.val = 3 then scrubError a s else s
    let s := { s with tests := { s.tests with scrubAt := a + 1 } }
    let s := if s.tests.scrubTest then setTest 0x211 { testRun s 0x211 with result := scrubResult s } s else s
    .next (if scrubBursts ≤ a + 1 then scrubPassEnd s else s)

/-- An active entry is rewritten from its master (R474). -/
def rewriteEntry (t i : Nat) (s : State) : State :=
  let x := tbl s t
  let s := setTbl t { x with active := Tab.set zeroN i (Tab.get zeroN x.master i) x.active } s
  updTopo (fun p => { p with recompute := p.recompute.filter (· != (t, i)) }) s

/-- Entries of table `t` that the compare rewrites: those that differ from their master, or whose active copy is damaged, where the
master can be read. An entry is named 16,384 x table + index. -/
def cmpWrites (t : Nat) (damaged unreadable : List Nat) (s : State) : List Nat :=
  let x := tbl s t
  (List.range 16384).filter fun i =>
    !unreadable.contains (16384 * t + i) &&
      (Tab.get zeroN x.active i != Tab.get zeroN x.master i || damaged.contains (16384 * t + i))

/-- TBL_CMP_DONE (R474): `damaged` and `unreadable` name active entries with a CRC-8 error and master entries that cannot be read. -/
def execTblCmpDone (damaged unreadable : List Nat) (s : State) : Res :=
  match s.tests.cmp with
  | none => .next s
  | some (l, _, _) =>
    if !dcmServes s 6 then .next s
    else
      let bad := ((List.range 65536).filter unreadable.contains).filter fun n => l.contains (n / 16384)
      let w := (l.map fun t => (cmpWrites t damaged unreadable s).map fun i => (t, i)).flatten
      let s := forAll w (fun e s => rewriteEntry e.1 e.2 s) { s with tests := { s.tests with cmp := none } }
      let s := retryAll (forAll bad (fun n s => masterError (n / 16384) (n % 16384) s) s)
      let r := beBytes 4 (16384 * l.length - bad.length) ++ beBytes 4 w.length
      match (if w = [] ∧ bad = [] then (1#64, s) else drawFree s) with
      | (v, s) => .next (endTest 0x3FF (bit 0 v.toNat) r s)

/-- RESULT of a disruptive test as Table 19.3 lays it out. -/
def disruptiveResult (t : Nat) (r : BitVec 64) : List Byte := if t = 0x11 then (beBytes 8 r.toNat).take 2 ++ [0, 0, 0, 0, 0, 0] else beBytes 8 r.toNat

/-- DISRUPTIVE_TEST_DONE (R476): the domain stays QUIESCED. -/
def execDisruptiveTestDone (dom_ : Nat) (pass : Bool) (result : BitVec 64) (s : State) : Res :=
  match disruptive.find? fun t => testRunning s (testKey t dom_) with
  | none => .next s
  | some t => .next (endTest (testKey t dom_) pass (disruptiveResult t result) s)

/-! EYE_MARGIN (R475). -/

/-- The port is ACTIVE or HUM. -/
def eyePort (s : State) (n : Nat) : Bool := lstate s n == ACTIVE || lstate s n == HUM

/-- EYE_MARGIN (R475). -/
def execEyeMargin (o : Origin) (body : List Byte) (s : State) : Res :=
  command o body 4 (fun s =>
    let p := field body 0 1
    let l := field body 1 1
    if 3 < p || 3 < l || !zeroAt body 2 2 then reply o ST_BAD_PARAM [] s
    else if !eyePort s p || !bit l (rd (Reg.HLP.STAT.LANES p) s) || s.tests.eye.isSome then reply o ST_BUSY [] s
    else { s with tests := { s.tests with eye := some (o, p, l) } }) s

/-- EYE_MARGIN_DONE (R475): upper, middle and lower record; in NRZ the middle one alone. -/
def execEyeMarginDone (eyes : List Byte) (s : State) : Res :=
  match s.tests.eye with
  | none => .next s
  | some (o, p, l) =>
    let s := { s with tests := { s.tests with eye := none } }
    let e := padTo 12 eyes
    let nrz := rdB (Reg.HLP.STAT.MODE_CUR p) s
    let r := if nrz then [0, 0, 0, 0] ++ (e.drop 4).take 4 ++ [0, 0, 0, 0] else e
    .next (if l < 4 && eyePort s p then reply o ST_OK r s else reply o ST_BUSY [] s)

/-! The error log (R478 to R480). -/

/-- Whole records of the NOR log from SEQ `start` on, in order: the ring from the place of its next record. -/
def norLog (s : State) (start : Nat) : List (List Byte) :=
  (List.range logRing).filterMap fun i =>
    let k := (s.diag.norPos + i) % logRing
    match logRec s k with
    | none => none
    | some r => if start ≤ r.1 then some (norReads s (logAddr k) 32) else none

/-- LOG_READ (R480). -/
def execLogRead (o : Origin) (body : List Byte) (s : State) : Res :=
  command o body 8 (fun s =>
    let src := field body 0 1
    let n := field body 1 1
    let f := field body 2 1
    let start := field body 4 4
    if 1 < src || n == 0 || 64 < n || 1 < f || !zeroAt body 3 1 then reply o ST_BAD_PARAM [] s
    else
      let l := if src = 0 then (s.diag.elog.take n).map fun e => ep5Record e s.diag.boots else (norLog s start).take n
      let next := match l.getLast? with
        | some r => field r 20 4 + 1
        | none => if src = 0 then s.diag.elogSeq else start
      let s := if src = 0 ∧ f = 1 then { s with diag := { s.diag with elog := s.diag.elog.drop n } } else s
      reply o ST_OK (beBytes 1 l.length ++ [0, 0, 0] ++ beBytes 4 next ++ l.flatten) s) s

/-- NOR_LOG_WRITE (R479): the oldest queued entry is written to the ring; a sector is erased before the ring enters it. -/
def execNorLogWrite (good : Bool) (s : State) : Res :=
  match s.diag.norQ with
  | [] => .next s
  | e :: l =>
    if !rdB Reg.IMG.QSPI.READY s then .next s
    else if !good then .next (wr Reg.IMG.QSPI.WERR (min 65535 (rd Reg.IMG.QSPI.WERR s + 1)) s)
    else
      let d := s.diag
      let a := logAddr d.norPos
      let s := if d.norPos % 128 = 0 then norErase a 4096 s else s
      let r := (ep5Record { e with seqNo := d.norSeq } d.boots).take 28
      let s := norProgram a (sealed r) s
      .next { s with diag := { d with norQ := l, norPos := (d.norPos + 1) % logRing, norSeq := d.norSeq + 1 } }

/-! Temperatures and links (R485). -/

/-- TEMP_SAMPLE (R485, R505, R424): each sample at the threshold sets the alarm and fires its source; the one that finds the bit clear
is logged (notes/assumptions/51). It does nothing else (R6). -/
def execTempSample (slot : Slot) (temp : BitVec 12) (s : State) : Res :=
  let n := slot.val
  if present s n then
    let s := wr (Reg.DIE.TEMP.VALID n) 1 (wr (Reg.DIE.TEMP.TEMP n) temp.toNat s)
    if 8 * signed 8 (rd (Reg.DIE.TEMP.ALARM_TH n) s) ≤ signed 12 temp.toNat then
      let t := raise srcTEMP_ALARM (wr (Reg.DIE.TEMP.ALARM n) 1 s)
      .next (if rdB (Reg.DIE.TEMP.ALARM n) s then t else logErr 0x0801 n temp.toNat t)
    else .next s
  else .next s

/-- DIE_LSTAT_READ (R485). -/
def execDieLstatRead (req : EntryPoint) (slot : Slot) (s : State) : Res :=
  let a := (Reg.DIE.LSTAT.word slot.val).addr
  access a (fun s => returned (readReg req a s)) s

end Sys2Proof.Machine
end

