-- ==== Sys2Proof/Machine/Dispatch.lean ====
section
/-! DEFINITION. The effect of each command: one arm per constructor of `Instr`, each one direct call of its meaning. -/
namespace Sys2Proof.Machine

/-- What a command does to the state apart from the queue of waiting commands. -/
def exec (i : Instr) (s : State) : Host.Outcome State Fault Refusal :=
  match i with
  | .registerWrite req win addr v => Sys2Proof.Machine.execRegisterWrite req win addr v s
  | .tolgerCellReceive slot toLd ch crcGood => Sys2Proof.Machine.execTolgerCellReceive slot toLd ch crcGood s
  | .tolgerFlitReceive slot toLd flit => Sys2Proof.Machine.execTolgerFlitReceive slot toLd flit s
  | .tolgerNak slot toLd ofCell => Sys2Proof.Machine.execTolgerNak slot toLd ofCell s
  | .tolgerCreditReturn slot toLd ch => Sys2Proof.Machine.execTolgerCreditReturn slot toLd ch s
  | .tolgerBeatPair slot toLd => Sys2Proof.Machine.execTolgerBeatPair slot toLd s
  | .tolgerRelink slot => Sys2Proof.Machine.execTolgerRelink slot s
  | .domainQuiesce o body => Sys2Proof.Machine.execDomainQuiesce o body s
  | .drainComplete dom => Sys2Proof.Machine.execDrainComplete dom s
  | .drainLimitExpiry dom => Sys2Proof.Machine.execDrainLimitExpiry dom s
  | .domainReset o body => Sys2Proof.Machine.execDomainReset o body s
  | .resetTimeEnd dom => Sys2Proof.Machine.execResetTimeEnd dom s
  | .domainReturn o body => Sys2Proof.Machine.execDomainReturn o body s
  | .returningComplete dom => Sys2Proof.Machine.execReturningComplete dom s
  | .returnTimeout dom => Sys2Proof.Machine.execReturnTimeout dom s
  | .domainStatus o body => Sys2Proof.Machine.execDomainStatus o body s
  | .ldWarmReset o body => Sys2Proof.Machine.execLdWarmReset o body s
  | .portEnable p en => Sys2Proof.Machine.execPortEnable p en s
  | .trainingPhaseTimeout p => Sys2Proof.Machine.execTrainingPhaseTimeout p s
  | .trainRestartTimer p => Sys2Proof.Machine.execTrainRestartTimer p s
  | .wordLock p lane => Sys2Proof.Machine.execWordLock p lane s
  | .cap p body => Sys2Proof.Machine.execCap p body s
  | .prbsLock p => Sys2Proof.Machine.execPrbsLock p s
  | .alignLast p => Sys2Proof.Machine.execAlignLast p s
  | .osSlotReceive p bytes => Sys2Proof.Machine.execOsSlotReceive p bytes s
  | .dozeWordReceive p w => Sys2Proof.Machine.execDozeWordReceive p w s
  | .uncorrectableCodeword p slots => Sys2Proof.Machine.execUncorrectableCodeword p slots s
  | .fcwChkFail p => Sys2Proof.Machine.execFcwChkFail p s
  | .humIdleTimeout p => Sys2Proof.Machine.execHumIdleTimeout p s
  | .dozeIdleTimeout p => Sys2Proof.Machine.execDozeIdleTimeout p s
  | .dormantIdleTimeout p => Sys2Proof.Machine.execDormantIdleTimeout p s
  | .stateReq p target => Sys2Proof.Machine.execStateReq p target s
  | .stateAck p target => Sys2Proof.Machine.execStateAck p target s
  | .stateNak p target => Sys2Proof.Machine.execStateNak p target s
  | .stateAnswerTimeout p => Sys2Proof.Machine.execStateAnswerTimeout p s
  | .wake p => Sys2Proof.Machine.execWake p s
  | .exitComplete p => Sys2Proof.Machine.execExitComplete p s
  | .exitTimeout p => Sys2Proof.Machine.execExitTimeout p s
  | .maxstateWrite p m => Sys2Proof.Machine.execMaxstateWrite p m s
  | .waggle p dst hops => Sys2Proof.Machine.execWaggle p dst hops s
  | .signalDetectLoss p all => Sys2Proof.Machine.execSignalDetectLoss p all s
  | .laneFail p lane => Sys2Proof.Machine.execLaneFail p lane s
  | .laneErrorWindow p lane errors => Sys2Proof.Machine.execLaneErrorWindow p lane errors s
  | .laneRetireReq p lane => Sys2Proof.Machine.execLaneRetireReq p lane s
  | .laneRetire p lanes frame => Sys2Proof.Machine.execLaneRetire p lanes frame s
  | .retireFrameSwitch p rx => Sys2Proof.Machine.execRetireFrameSwitch p rx s
  | .cellReceive p bytes => Sys2Proof.Machine.execCellReceive p bytes s
  | .ackFcw p v => Sys2Proof.Machine.execAckFcw p v s
  | .nakFcw p v => Sys2Proof.Machine.execNakFcw p v s
  | .nakRetryTimeout p => Sys2Proof.Machine.execNakRetryTimeout p s
  | .replayTimeout p => Sys2Proof.Machine.execReplayTimeout p s
  | .resyncReplay p seq => Sys2Proof.Machine.execResyncReplay p seq s
  | .resyncInit p => Sys2Proof.Machine.execResyncInit p s
  | .resyncCreq p cc => Sys2Proof.Machine.execResyncCreq p cc s
  | .resyncRecall p xseq => Sys2Proof.Machine.execResyncRecall p xseq s
  | .creditFcw p cc low => Sys2Proof.Machine.execCreditFcw p cc low s
  | .creditWord p cc cl xrel => Sys2Proof.Machine.execCreditWord p cc cl xrel s
  | .creditWordPeriod p => Sys2Proof.Machine.execCreditWordPeriod p s
  | .creditStarveTimeout p cc => Sys2Proof.Machine.execCreditStarveTimeout p cc s
  | .slotFill p crcBad => Sys2Proof.Machine.execSlotFill p crcBad s
  | .cellAdmit p entryBad => Sys2Proof.Machine.execCellAdmit p entryBad s
  | .parkRetry p c => Sys2Proof.Machine.execParkRetry p c s
  | .entryRecomputed table idx readable => Sys2Proof.Machine.execEntryRecomputed table idx readable s
  | .addrWrite v => Sys2Proof.Machine.execAddrWrite v s
  | .seedExpansionDone => Sys2Proof.Machine.execSeedExpansionDone s
  | .rebuildDone table unreadable => Sys2Proof.Machine.execRebuildDone table unreadable s
  | .tblRead o body => Sys2Proof.Machine.execTblRead o body s
  | .tblWrite o body => Sys2Proof.Machine.execTblWrite o body s
  | .tblRebuild o body => Sys2Proof.Machine.execTblRebuild o body s
  | .tblSwap o body => Sys2Proof.Machine.execTblSwap o body s
  | .addrAssign o body => Sys2Proof.Machine.execAddrAssign o body s
  | .addrAssignRepeat p => Sys2Proof.Machine.execAddrAssignRepeat p s
  | .ringBreak q => Sys2Proof.Machine.execRingBreak q s
  | .ringHeal q => Sys2Proof.Machine.execRingHeal q s
  | .wtrExpiry p => Sys2Proof.Machine.execWtrExpiry p s
  | .ringHoldExpiry p => Sys2Proof.Machine.execRingHoldExpiry p s
  | .ringEnClear => Sys2Proof.Machine.execRingEnClear s
  | .bypassWrite byp => Sys2Proof.Machine.execBypassWrite byp s
  | .bypassSettleExpiry => Sys2Proof.Machine.execBypassSettleExpiry s
  | .combCellTime linkRead damaged => Sys2Proof.Machine.execCombCellTime linkRead damaged s
  | .spillRefillDone p c unreadable => Sys2Proof.Machine.execSpillRefillDone p c unreadable s
  | .frameDiscardEnd p c inp => Sys2Proof.Machine.execFrameDiscardEnd p c inp s
  | .auditDone => Sys2Proof.Machine.execAuditDone s
  | .voqQueueMove p c => Sys2Proof.Machine.execVoqQueueMove p c s
  | .flReady failing => Sys2Proof.Machine.execFlReady failing s
  | .bankctlRetReq mask => Sys2Proof.Machine.execBankctlRetReq mask s
  | .relocationDone b => Sys2Proof.Machine.execRelocationDone b s
  | .bankctlRtnReq mask => Sys2Proof.Machine.execBankctlRtnReq mask s
  | .bankReturnDone b => Sys2Proof.Machine.execBankReturnDone b s
  | .forceVoqWrite v => Sys2Proof.Machine.execForceVoqWrite v s
  | .shpCtlApply req => Sys2Proof.Machine.execShpCtlApply req s
  | .shpCtlLoad req => Sys2Proof.Machine.execShpCtlLoad req s
  | .polCtlApply req => Sys2Proof.Machine.execPolCtlApply req s
  | .polCtlLoad req => Sys2Proof.Machine.execPolCtlLoad req s
  | .xbCfgWrite v => Sys2Proof.Machine.execXbCfgWrite v s
  | .xbBurstWrite v => Sys2Proof.Machine.execXbBurstWrite v s
  | .originFrameRelease shp => Sys2Proof.Machine.execOriginFrameRelease shp s
  | .expressMonitorWindow => Sys2Proof.Machine.execExpressMonitorWindow s
  | .hwmOccRead req => Sys2Proof.Machine.execHwmOccRead req s
  | .hwmSojRead req => Sys2Proof.Machine.execHwmSojRead req s
  | .shpApply o body => Sys2Proof.Machine.execShpApply o body s
  | .shpGet o body => Sys2Proof.Machine.execShpGet o body s
  | .polApply o body => Sys2Proof.Machine.execPolApply o body s
  | .polGet o body => Sys2Proof.Machine.execPolGet o body s
  | .hwmRead o body => Sys2Proof.Machine.execHwmRead o body s
  | .tunnelFrameOriginate slot tun frame => Sys2Proof.Machine.execTunnelFrameOriginate slot tun frame s
  | .tunnelCellTerminate p => Sys2Proof.Machine.execTunnelCellTerminate p s
  | .tunGet o body => Sys2Proof.Machine.execTunGet o body s
  | .tunSet o body => Sys2Proof.Machine.execTunSet o body s
  | .tunResetCtx o body => Sys2Proof.Machine.execTunResetCtx o body s
  | .windowRequest wr addr len data tlp => Sys2Proof.Machine.execWindowRequest wr addr len data tlp s
  | .brgWriteReceive => Sys2Proof.Machine.execBrgWriteReceive s
  | .brgReadReceive => Sys2Proof.Machine.execBrgReadReceive s
  | .cplReceive => Sys2Proof.Machine.execCplReceive s
  | .readTimeout tag => Sys2Proof.Machine.execReadTimeout tag s
  | .pwerrReceive => Sys2Proof.Machine.execPwerrReceive s
  | .fenceReceive => Sys2Proof.Machine.execFenceReceive s
  | .fenceAckReceive => Sys2Proof.Machine.execFenceAckReceive s
  | .fenceTimeout tun => Sys2Proof.Machine.execFenceTimeout tun s
  | .localRetry id => Sys2Proof.Machine.execLocalRetry id s
  | .brgWctlApply req => Sys2Proof.Machine.execBrgWctlApply req s
  | .brgWctlLoad req => Sys2Proof.Machine.execBrgWctlLoad req s
  | .brgTctlApply req => Sys2Proof.Machine.execBrgTctlApply req s
  | .brgTctlLoad req => Sys2Proof.Machine.execBrgTctlLoad req s
  | .pwlDataRead req => Sys2Proof.Machine.execPwlDataRead req s
  | .elgDataRead req => Sys2Proof.Machine.execElgDataRead req s
  | .pwlStatRead req => Sys2Proof.Machine.execPwlStatRead req s
  | .elgStatRead req => Sys2Proof.Machine.execElgStatRead req s
  | .rdstatRead req => Sys2Proof.Machine.execRdstatRead req s
  | .brgRead o body => Sys2Proof.Machine.execBrgRead o body s
  | .brgWrite o body => Sys2Proof.Machine.execBrgWrite o body s
  | .writeFence o body => Sys2Proof.Machine.execWriteFence o body s
  | .pwlRead o body => Sys2Proof.Machine.execPwlRead o body s
  | .elgRead o body => Sys2Proof.Machine.execElgRead o body s
  | .syncSendTimer => Sys2Proof.Machine.execSyncSendTimer s
  | .dreqSendTimer p => Sys2Proof.Machine.execDreqSendTimer p s
  | .sync p strat qual ns frac => Sys2Proof.Machine.execSync p strat qual ns frac s
  | .dreq p gtag => Sys2Proof.Machine.execDreq p gtag s
  | .drsp p gtag turn => Sys2Proof.Machine.execDrsp p gtag turn s
  | .dreqMiss p => Sys2Proof.Machine.execDreqMiss p s
  | .syncLossTimeout => Sys2Proof.Machine.execSyncLossTimeout s
  | .pselWrite psel => Sys2Proof.Machine.execPselWrite psel s
  | .announceTimer => Sys2Proof.Machine.execAnnounceTimer s
  | .announce => Sys2Proof.Machine.execAnnounce s
  | .ppsEdge pin => Sys2Proof.Machine.execPpsEdge pin s
  | .xt32RatioWindow tick => Sys2Proof.Machine.execXt32RatioWindow tick s
  | .nowHiRead req => Sys2Proof.Machine.execNowHiRead req s
  | .timeGet o body => Sys2Proof.Machine.execTimeGet o body s
  | .timeSet o body => Sys2Proof.Machine.execTimeSet o body s
  | .arm => Sys2Proof.Machine.execArm s
  | .cancel => Sys2Proof.Machine.execCancel s
  | .trgActlArm req => Sys2Proof.Machine.execTrgActlArm req s
  | .trgActlCancel req => Sys2Proof.Machine.execTrgActlCancel req s
  | .trigArm o body => Sys2Proof.Machine.execTrigArm o body s
  | .trigCancel o body => Sys2Proof.Machine.execTrigCancel o body s
  | .pulseStart pin => Sys2Proof.Machine.execPulseStart pin s
  | .pulseEnd pin => Sys2Proof.Machine.execPulseEnd pin s
  | .pinModeWrite pin mode => Sys2Proof.Machine.execPinModeWrite pin mode s
  | .captureEdge pin rising => Sys2Proof.Machine.execCaptureEdge pin rising s
  | .captRptPeriod pin => Sys2Proof.Machine.execCaptRptPeriod pin s
  | .capLoRead req pin => Sys2Proof.Machine.execCapLoRead req pin s
  | .captRead o body => Sys2Proof.Machine.execCaptRead o body s
  | .hspiStatus => Sys2Proof.Machine.execHspiStatus s
  | .hspiCmdWrite bytes => Sys2Proof.Machine.execHspiCmdWrite bytes s
  | .hspiRspRead n => Sys2Proof.Machine.execHspiRspRead n s
  | .cmdReplyReceive => Sys2Proof.Machine.execCmdReplyReceive s
  | .relayTimeout tag => Sys2Proof.Machine.execRelayTimeout tag s
  | .orphanExpiry ep => Sys2Proof.Machine.execOrphanExpiry ep s
  | .sessionIdleTimeout sess => Sys2Proof.Machine.execSessionIdleTimeout sess s
  | .sessionExpiry sess => Sys2Proof.Machine.execSessionExpiry sess s
  | .hostselWrite sel => Sys2Proof.Machine.execHostselWrite sel s
  | .readReg o body => Sys2Proof.Machine.execReadReg o body s
  | .writeReg o body => Sys2Proof.Machine.execWriteReg o body s
  | .rmwReg o body => Sys2Proof.Machine.execRmwReg o body s
  | .readBlk o body => Sys2Proof.Machine.execReadBlk o body s
  | .writeBlk o body => Sys2Proof.Machine.execWriteBlk o body s
  | .rmwBlk o body => Sys2Proof.Machine.execRmwBlk o body s
  | .readCtr o body => Sys2Proof.Machine.execReadCtr o body s
  | .getInfo o body => Sys2Proof.Machine.execGetInfo o body s
  | .nop o body => Sys2Proof.Machine.execNop o body s
  | .sessionOpen o body => Sys2Proof.Machine.execSessionOpen o body s
  | .sessionClose o body => Sys2Proof.Machine.execSessionClose o body s
  | .sessionInfo o body => Sys2Proof.Machine.execSessionInfo o body s
  | .getOrphan o body => Sys2Proof.Machine.execGetOrphan o body s
  | .ccAttach t cc2 ra => Sys2Proof.Machine.execCcAttach t cc2 ra s
  | .ccDetach t => Sys2Proof.Machine.execCcDetach t s
  | .vbusSafe0vReached t => Sys2Proof.Machine.execVbusSafe0vReached t s
  | .vbusEnable t => Sys2Proof.Machine.execVbusEnable t s
  | .vbusOc t => Sys2Proof.Machine.execVbusOc t s
  | .pwrwarnReleaseTimer => Sys2Proof.Machine.execPwrwarnReleaseTimer s
  | .sourceCapRepeat t => Sys2Proof.Machine.execSourceCapRepeat t s
  | .request t pos iop pd2 => Sys2Proof.Machine.execRequest t pos iop pd2 s
  | .senderResponseTimeout t => Sys2Proof.Machine.execSenderResponseTimeout t s
  | .srcTransitionStart t => Sys2Proof.Machine.execSrcTransitionStart t s
  | .vbusSettled t => Sys2Proof.Machine.execVbusSettled t s
  | .getSourceCap p => Sys2Proof.Machine.execGetSourceCap p s
  | .getSourceCapExtended p => Sys2Proof.Machine.execGetSourceCapExtended p s
  | .getSinkCap p => Sys2Proof.Machine.execGetSinkCap p s
  | .getRevision p => Sys2Proof.Machine.execGetRevision p s
  | .softReset p => Sys2Proof.Machine.execSoftReset p s
  | .hardReset p sends => Sys2Proof.Machine.execHardReset p sends s
  | .vconnSwap p => Sys2Proof.Machine.execVconnSwap p s
  | .psRdy p => Sys2Proof.Machine.execPsRdy p s
  | .vconnSourceTimeout t => Sys2Proof.Machine.execVconnSourceTimeout t s
  | .drSwap p => Sys2Proof.Machine.execDrSwap p s
  | .prSwap p => Sys2Proof.Machine.execPrSwap p s
  | .unsupportedPdMessage p vdm => Sys2Proof.Machine.execUnsupportedPdMessage p vdm s
  | .discoverIdentitySopPrime t fiveA => Sys2Proof.Machine.execDiscoverIdentitySopPrime t fiveA s
  | .discoverIdentityRetry t => Sys2Proof.Machine.execDiscoverIdentityRetry t s
  | .partnerDiscoveryResponse t r => Sys2Proof.Machine.execPartnerDiscoveryResponse t r s
  | .enterModeAck t => Sys2Proof.Machine.execEnterModeAck t s
  | .dpConfigureAck t => Sys2Proof.Machine.execDpConfigureAck t s
  | .attention t hpd => Sys2Proof.Machine.execAttention t hpd s
  | .vdmResponseTimeout t => Sys2Proof.Machine.execVdmResponseTimeout t s
  | .vconnFault t => Sys2Proof.Machine.execVconnFault t s
  | .sinkAdjExpiry t => Sys2Proof.Machine.execSinkAdjExpiry t s
  | .errorRecoveryEnd t => Sys2Proof.Machine.execErrorRecoveryEnd t s
  | .tcpCfgWrite t v => Sys2Proof.Machine.execTcpCfgWrite t v s
  | .pdpBudgetWrite die v => Sys2Proof.Machine.execPdpBudgetWrite die v s
  | .sourceCapabilities pdos pd2 => Sys2Proof.Machine.execSourceCapabilities pdos pd2 s
  | .accept => Sys2Proof.Machine.execAccept s
  | .wait => Sys2Proof.Machine.execWait s
  | .reject => Sys2Proof.Machine.execReject s
  | .sinkRequestRetry => Sys2Proof.Machine.execSinkRequestRetry s
  | .psTransitionTimeout => Sys2Proof.Machine.execPsTransitionTimeout s
  | .tierFall => Sys2Proof.Machine.execTierFall s
  | .svcVbusLoss => Sys2Proof.Machine.execSvcVbusLoss s
  | .pdStatus o body => Sys2Proof.Machine.execPdStatus o body s
  | .pdPortCtl o body => Sys2Proof.Machine.execPdPortCtl o body s
  | .pdBudget o body => Sys2Proof.Machine.execPdBudget o body s
  | .hubPortChange t speed susp => Sys2Proof.Machine.execHubPortChange t speed susp s
  | .prxDbWrite die v => Sys2Proof.Machine.execPrxDbWrite die v s
  | .doorbell die => Sys2Proof.Machine.execDoorbell die s
  | .descriptorFetch die r readable => Sys2Proof.Machine.execDescriptorFetch die r readable s
  | .periodicService die r past => Sys2Proof.Machine.execPeriodicService die r past s
  | .transferComplete die r code moved data => Sys2Proof.Machine.execTransferComplete die r code moved data s
  | .notifyTimer die => Sys2Proof.Machine.execNotifyTimer die s
  | .usbPortCtl o body => Sys2Proof.Machine.execUsbPortCtl o body s
  | .proxyCtl o body => Sys2Proof.Machine.execProxyCtl o body s
  | .svcConnectWrite connect => Sys2Proof.Machine.execSvcConnectWrite connect s
  | .svcEpbLoad => Sys2Proof.Machine.execSvcEpbLoad s
  | .svcSuspend => Sys2Proof.Machine.execSvcSuspend s
  | .remoteWake => Sys2Proof.Machine.execRemoteWake s
  | .hostResume => Sys2Proof.Machine.execHostResume s
  | .svcBusReset hs => Sys2Proof.Machine.execSvcBusReset hs s
  | .setConfiguration c => Sys2Proof.Machine.execSetConfiguration c s
  | .svcStandardRequest typ req value index len => Sys2Proof.Machine.execSvcStandardRequest typ req value index len s
  | .ep2TransferComplete => Sys2Proof.Machine.execEp2TransferComplete s
  | .ep3Poll => Sys2Proof.Machine.execEp3Poll s
  | .ep5Poll => Sys2Proof.Machine.execEp5Poll s
  | .clearFeatureHalt => Sys2Proof.Machine.execClearFeatureHalt s
  | .svcOrphRead req => Sys2Proof.Machine.execSvcOrphRead req s
  | .dspCfgEnWrite h en => Sys2Proof.Machine.execDspCfgEnWrite h en s
  | .headStop h => Sys2Proof.Machine.execHeadStop h s
  | .dspCfgFlip h => Sys2Proof.Machine.execDspCfgFlip h s
  | .vblank h => Sys2Proof.Machine.execVblank h s
  | .teEdge h => Sys2Proof.Machine.execTeEdge h s
  | .teTimeout h => Sys2Proof.Machine.execTeTimeout h s
  | .lineStart h => Sys2Proof.Machine.execLineStart h s
  | .fetchComplete h readable => Sys2Proof.Machine.execFetchComplete h readable s
  | .tolPublish h => Sys2Proof.Machine.execTolPublish h s
  | .flip => Sys2Proof.Machine.execFlip s
  | .dmxRouteWrite v => Sys2Proof.Machine.execDmxRouteWrite v s
  | .dmxStatusRelay => Sys2Proof.Machine.execDmxStatusRelay s
  | .dspFlip o body => Sys2Proof.Machine.execDspFlip o body s
  | .dspStatus o body => Sys2Proof.Machine.execDspStatus o body s
  | .dspTimingLoad o body => Sys2Proof.Machine.execDspTimingLoad o body s
  | .ethFrameReceive e frame => Sys2Proof.Machine.execEthFrameReceive e frame s
  | .pauseRepeat e => Sys2Proof.Machine.execPauseRepeat e s
  | .pauseFrameReceive e quanta => Sys2Proof.Machine.execPauseFrameReceive e quanta s
  | .ethLinkLost e busy => Sys2Proof.Machine.execEthLinkLost e busy s
  | .etmVctlApply req die => Sys2Proof.Machine.execEtmVctlApply req die s
  | .etmVctlLoad req die => Sys2Proof.Machine.execEtmVctlLoad req die s
  | .mbSubmit len => Sys2Proof.Machine.execMbSubmit len s
  | .mbRelease => Sys2Proof.Machine.execMbRelease s
  | .mbStatRead => Sys2Proof.Machine.execMbStatRead s
  | .txGo len tun => Sys2Proof.Machine.execTxGo len tun s
  | .txStatRead => Sys2Proof.Machine.execTxStatRead s
  | .rqCiWrite q ci => Sys2Proof.Machine.execRqCiWrite q ci s
  | .bar2Request wr addr len data tlp => Sys2Proof.Machine.execBar2Request wr addr len data tlp s
  | .hostMemoryTimeout n => Sys2Proof.Machine.execHostMemoryTimeout n s
  | .rootPortTimeout n => Sys2Proof.Machine.execRootPortTimeout n s
  | .inboundDeviceRequest wr addr len data => Sys2Proof.Machine.execInboundDeviceRequest wr addr len data s
  | .pcieLinkDown => Sys2Proof.Machine.execPcieLinkDown s
  | .flr => Sys2Proof.Machine.execFlr s
  | .rootPortLinkLost => Sys2Proof.Machine.execRootPortLinkLost s
  | .pcfgEnWrite p en => Sys2Proof.Machine.execPcfgEnWrite p en s
  | .pcfgRoleWrite p role => Sys2Proof.Machine.execPcfgRoleWrite p role s
  | .lcfgEnWrite en => Sys2Proof.Machine.execLcfgEnWrite en s
  | .qualifyComplete p vpres limit rsig csig => Sys2Proof.Machine.execQualifyComplete p vpres limit rsig csig s
  | .qualRetry p => Sys2Proof.Machine.execQualRetry p s
  | .inrushEnd f => Sys2Proof.Machine.execInrushEnd f s
  | .inrushTimeout f => Sys2Proof.Machine.execInrushTimeout f s
  | .slowTick cur vout vin => Sys2Proof.Machine.execSlowTick cur vout vin s
  | .curveTrip f => Sys2Proof.Machine.execCurveTrip f s
  | .fastTrip f => Sys2Proof.Machine.execFastTrip f s
  | .removal p => Sys2Proof.Machine.execRemoval p s
  | .offMinExpiry f => Sys2Proof.Machine.execOffMinExpiry f s
  | .fetShort p => Sys2Proof.Machine.execFetShort p s
  | .lpwrPeriodic => Sys2Proof.Machine.execLpwrPeriodic s
  | .lpwr p body => Sys2Proof.Machine.execLpwr p body s
  | .pwrwarnAssert slope => Sys2Proof.Machine.execPwrwarnAssert slope s
  | .pwrwarnDeassert => Sys2Proof.Machine.execPwrwarnDeassert s
  | .uvlo => Sys2Proof.Machine.execUvlo s
  | .lbusVon => Sys2Proof.Machine.execLbusVon s
  | .lpwCctlApply req => Sys2Proof.Machine.execLpwCctlApply req s
  | .lpwCctlLoad req => Sys2Proof.Machine.execLpwCctlLoad req s
  | .efuseCtl o body => Sys2Proof.Machine.execEfuseCtl o body s
  | .efuseStatus o body => Sys2Proof.Machine.execEfuseStatus o body s
  | .efuseCurve o body => Sys2Proof.Machine.execEfuseCurve o body s
  | .segQualify o body => Sys2Proof.Machine.execSegQualify o body s
  | .xt32Fail => Sys2Proof.Machine.execXt32Fail s
  | .ldSleepEntry csLow => Sys2Proof.Machine.execLdSleepEntry csLow s
  | .ldWake kind idx => Sys2Proof.Machine.execLdWake kind idx s
  | .fastClockStartDone => Sys2Proof.Machine.execFastClockStartDone s
  | .pstateSet o body => Sys2Proof.Machine.execPstateSet o body s
  | .wakeCfg o body => Sys2Proof.Machine.execWakeCfg o body s
  | .selfRefreshEntry => Sys2Proof.Machine.execSelfRefreshEntry s
  | .selfRefreshExit => Sys2Proof.Machine.execSelfRefreshExit s
  | .selfRefreshExitDone => Sys2Proof.Machine.execSelfRefreshExitDone s
  | .interruptSourceFire src => Sys2Proof.Machine.execInterruptSourceFire src s
  | .interruptDelivery g => Sys2Proof.Machine.execInterruptDelivery g s
  | .intDoneWrite g => Sys2Proof.Machine.execIntDoneWrite g s
  | .intPendWrite g mask => Sys2Proof.Machine.execIntPendWrite g mask s
  | .nrsWreasonRead req => Sys2Proof.Machine.execNrsWreasonRead req s
  | .dcmRgnApply => Sys2Proof.Machine.execDcmRgnApply s
  | .powerOnReset a b c => Sys2Proof.Machine.execPowerOnReset a b c s
  | .resetN a b c => Sys2Proof.Machine.execResetN a b c s
  | .supplyFail => Sys2Proof.Machine.execSupplyFail s
  | .supplyHoldEnd a b c => Sys2Proof.Machine.execSupplyHoldEnd a b c s
  | .bootSealVerified sfdp size => Sys2Proof.Machine.execBootSealVerified sfdp size s
  | .booted => Sys2Proof.Machine.execBooted s
  | .deadBatteryStart a b c => Sys2Proof.Machine.execDeadBatteryStart a b c s
  | .boardPowerValid => Sys2Proof.Machine.execBoardPowerValid s
  | .imgInfo o body => Sys2Proof.Machine.execImgInfo o body s
  | .imgWrite o body => Sys2Proof.Machine.execImgWrite o body s
  | .imgDelta o body => Sys2Proof.Machine.execImgDelta o body s
  | .imgVerify o body => Sys2Proof.Machine.execImgVerify o body s
  | .imgActivate o body => Sys2Proof.Machine.execImgActivate o body s
  | .imgCommit o body => Sys2Proof.Machine.execImgCommit o body s
  | .imgRevert o body => Sys2Proof.Machine.execImgRevert o body s
  | .imgLock o body => Sys2Proof.Machine.execImgLock o body s
  | .setRead o body => Sys2Proof.Machine.execSetRead o body s
  | .setWrite o body => Sys2Proof.Machine.execSetWrite o body s
  | .stageWrite o body => Sys2Proof.Machine.execStageWrite o body s
  | .norWriteDone good => Sys2Proof.Machine.execNorWriteDone good s
  | .activationStepDone => Sys2Proof.Machine.execActivationStepDone s
  | .activationTimeout => Sys2Proof.Machine.execActivationTimeout s
  | .ldShadowsCompared => Sys2Proof.Machine.execLdShadowsCompared s
  | .ldActivationResume => Sys2Proof.Machine.execLdActivationResume s
  | .trialExpiry => Sys2Proof.Machine.execTrialExpiry s
  | .imgLoadlogRead req => Sys2Proof.Machine.execImgLoadlogRead req s
  | .imgQspiRead req => Sys2Proof.Machine.execImgQspiRead req s
  | .counterLowRead req addr => Sys2Proof.Machine.execCounterLowRead req addr s
  | .counterHighRead req addr => Sys2Proof.Machine.execCounterHighRead req addr s
  | .ctrClear o body => Sys2Proof.Machine.execCtrClear o body s
  | .testRun o body => Sys2Proof.Machine.execTestRun o body s
  | .testStatus o body => Sys2Proof.Machine.execTestStatus o body s
  | .logRead o body => Sys2Proof.Machine.execLogRead o body s
  | .eyeMargin o body => Sys2Proof.Machine.execEyeMargin o body s
  | .eyeMarginDone eyes => Sys2Proof.Machine.execEyeMarginDone eyes s
  | .bankRotStepDone good => Sys2Proof.Machine.execBankRotStepDone good s
  | .scrubBurst fails => Sys2Proof.Machine.execScrubBurst fails s
  | .tblCmpDone damaged unreadable => Sys2Proof.Machine.execTblCmpDone damaged unreadable s
  | .disruptiveTestDone dom pass result => Sys2Proof.Machine.execDisruptiveTestDone dom pass result s
  | .norLogWrite good => Sys2Proof.Machine.execNorLogWrite good s
  | .tempSample slot temp => Sys2Proof.Machine.execTempSample slot temp s
  | .dieLstatRead req slot => Sys2Proof.Machine.execDieLstatRead req slot s
  | .ep1CommandReceive bytes => Sys2Proof.Machine.execEp1CommandReceive bytes s
  | .ep4BlockReceive block => Sys2Proof.Machine.execEp4BlockReceive block s
  | .svcSourceAttach rp => Sys2Proof.Machine.execSvcSourceAttach rp s
  | .pcieLinkUp root gen width bme msixEn fmask => Sys2Proof.Machine.execPcieLinkUp root gen width bme msixEn fmask s
  | .ethLinkUp e spd => Sys2Proof.Machine.execEthLinkUp e spd s
  | .pcieCompletionReceive root n ok data => Sys2Proof.Machine.execPcieCompletionReceive root n ok data s
  | .deepCombAccessDone good => Sys2Proof.Machine.execDeepCombAccessDone good s
  | .imgVerifyDone => Sys2Proof.Machine.execImgVerifyDone s
  | .ethFrameTransmit e => Sys2Proof.Machine.execEthFrameTransmit e s

end Sys2Proof.Machine
end

