-- ==== Sys2Proof/Machine/Idle.lean ====
section
/-! DEFINITION. What passes while no command waits: one nanosecond of the model's clock (notes/assumptions/1). -/
namespace Sys2Proof.Machine

/-- Line time advances by one nanosecond with FADJ (R243), modulo 2^96 (R235). While the LD sleeps it advances at slow ticks only (R244);
in HOLD_SLOW with the LD running it is interpolated from REFCLK up to the next tick (R245). -/
def advanceLt (s : State) : State :=
  if ldSleeps s then s
  else if rd Reg.TIM.STAT.QSTATE s = 4 then
    (if s.time.interp + 2 ^ 32 ≤ s.time.tickLen then
      { s with lt := (s.lt + 2 ^ 32) % 2 ^ 96, time := { s.time with interp := s.time.interp + 2 ^ 32 } }
    else s)
  else { s with lt := (((s.lt : Int) + 2 ^ 32 + s.time.fadj) % (2 ^ 96 : Nat)).toNat }

/-- A port that has sent PAUSE looks at its buffer again (R374). -/
def pauseTick (s : State) : State :=
  forAll (List.range 12) (fun e s => if (eth s e).pausing then pauseCheck e s else s) s

/-- One nanosecond: the clock and line time, the exits of line ports, what the TS sent has left, its timers, the
glitch filters of capture pins, and ports in PAUSE. -/
def idleTick (s : State) : State :=
  let s := forAll [0, 1, 2, 3] exitTick (advanceLt { s with now := s.now + 1 })
  let s := forAll (List.range 8) settleEdge s
  pauseTick (hostTick { s with hostIf := { s.hostIf with sent := [] } })

end Sys2Proof.Machine
end

