-- ==== Sys2Proof/WellFormed.lean ====
section
/-! DEFINITION. Which commands are events of the part: the operands of a few rows are byte lists whose length the spec fixes, or
parts of a request that the spec cuts to a size. A command that this check refuses is no event of the part. -/
namespace Sys2Proof

/-- A slot of a frame is 128 bytes (R50). -/
def slotBytes (l : List Byte) : Bool := l.length == 128

/-- A part of a window request: at least a byte, within 4 KiB of window space, a write of at most 512 bytes that are all there
(R221, R222, R382). -/
def windowPart (wr : Bool) (addr : BitVec 36) (len : BitVec 13) (data : List Byte) : Bool :=
  let n := if wr then data.length else len.toNat
  decide (n ≠ 0) && decide (addr.toNat % 4096 + n ≤ 4096) && (!wr || (decide (n ≤ 512) && decide (n = len.toNat)))

/-- A PCIe request to BAR2: 1 to 4,096 bytes, a write's bytes all there (R382). -/
def barRequest (wr : Bool) (len : BitVec 13) (data : List Byte) : Bool :=
  decide (len.toNat ≠ 0) && decide (len.toNat ≤ 4096) && (!wr || decide (data.length = len.toNat))

/-- The command is an event of the part. -/
def Instr.wellFormed : Instr → Bool
  | .cellReceive _ bytes => slotBytes bytes
  | .osSlotReceive _ bytes => slotBytes bytes
  | .windowRequest wr addr len data _ => windowPart wr addr len data
  | .bar2Request wr _ len data _ => barRequest wr len data
  | _ => true

end Sys2Proof
end

