-- ==== Sys2Proof/Safety.lean ====
section
/-! DEFINITION. What a safe run is, and the terms in which claims say what a command leaves alone. -/
namespace Sys2Proof.Machine

/-- A step from `s` answers a next state. -/
def Safe (s : State) : Prop := ∃ t, step s = .next t

/-- Every one of the first `k` steps from `s` answers a next state. -/
def SafeFor : Nat → State → Prop
  | 0, _ => True
  | k + 1, s => ∃ t, step s = .next t ∧ SafeFor k t

/-- The parts of State that a command may change. The variant, the stepping, the model's clock and the queue are none: no command
changes them. -/
inductive Part where
  | free | regs | ctrs | ctrRc | srcs | lastRead | ports | tolger | domains | topo | comb | sched | tuns | brg | cmd
  | deep | lt | diag | time | otp | trig | trims | tcp | svcSink | pdTables | proxies | svcDev | heads | timings | tols
  | dpLine | eths | etm | hostIf | efuses | nurse | tests | img | nor | supplyHold
deriving DecidableEq, Repr

/-- The part is the same in both states. -/
def Part.Same (s t : State) : Part → Prop
  | .free => t.free = s.free
  | .regs => t.regs = s.regs
  | .ctrs => t.ctrs = s.ctrs
  | .ctrRc => t.ctrRc = s.ctrRc
  | .srcs => t.srcs = s.srcs
  | .lastRead => t.lastRead = s.lastRead
  | .ports => t.ports = s.ports
  | .tolger => t.tolger = s.tolger
  | .domains => t.domains = s.domains
  | .topo => t.topo = s.topo
  | .comb => t.comb = s.comb
  | .sched => t.sched = s.sched
  | .tuns => t.tuns = s.tuns
  | .brg => t.brg = s.brg
  | .cmd => t.cmd = s.cmd
  | .deep => t.deep = s.deep
  | .lt => t.lt = s.lt
  | .diag => t.diag = s.diag
  | .time => t.time = s.time
  | .otp => t.otp = s.otp
  | .trig => t.trig = s.trig
  | .trims => t.trims = s.trims
  | .tcp => t.tcp = s.tcp
  | .svcSink => t.svcSink = s.svcSink
  | .pdTables => t.pdTables = s.pdTables
  | .proxies => t.proxies = s.proxies
  | .svcDev => t.svcDev = s.svcDev
  | .heads => t.heads = s.heads
  | .timings => t.timings = s.timings
  | .tols => t.tols = s.tols
  | .dpLine => t.dpLine = s.dpLine
  | .eths => t.eths = s.eths
  | .etm => t.etm = s.etm
  | .hostIf => t.hostIf = s.hostIf
  | .efuses => t.efuses = s.efuses
  | .nurse => t.nurse = s.nurse
  | .tests => t.tests = s.tests
  | .img => t.img = s.img
  | .nor => t.nor = s.nor
  | .supplyHold => t.supplyHold = s.supplyHold

/-- From `s` to `t` only the parts of `l` change. -/
def Only (l : List Part) (s t : State) : Prop :=
  (t.variant = s.variant ∧ t.stepB0 = s.stepB0 ∧ t.now = s.now ∧ t.pending = s.pending) ∧ ∀ p, p ∉ l → p.Same s t

/-- The parts of State that a command may change, whatever its operands and whatever state it meets. -/
def mayChange : Instr → List Part
  | .registerWrite _ _ _ _ => [.regs, .ctrs, .srcs, .ports, .tolger, .topo, .comb, .sched, .tuns, .brg, .cmd, .deep, .diag,
      .time, .trig, .tcp, .proxies, .svcDev, .heads, .eths, .etm, .hostIf, .efuses, .tests]
  | .tolgerCellReceive _ _ _ _ => [.regs, .ctrs, .srcs, .ports, .tolger, .topo, .comb, .sched, .tuns, .diag]
  | .tolgerFlitReceive _ _ _ => [.regs, .ctrs, .srcs, .ports, .tolger, .topo, .comb, .sched, .diag]
  | .tolgerNak _ _ _ => [.ctrs, .srcs, .tolger, .diag]
  | .tolgerCreditReturn _ _ _ => [.tolger]
  | .tolgerBeatPair _ _ => [.tolger]
  | .tolgerRelink _ => [.regs, .tolger]
  | .domainQuiesce _ _ => [.regs, .ctrs, .srcs, .ports, .tolger, .domains, .topo, .comb, .sched, .tuns, .cmd, .deep, .diag,
      .tcp, .proxies, .hostIf]
  | .drainComplete _ => [.free, .regs, .ctrs, .ctrRc, .srcs, .ports, .tolger, .domains, .topo, .comb, .sched, .tuns, .brg,
      .cmd, .deep, .diag, .time, .trims, .tcp, .pdTables, .proxies, .heads, .timings, .tols, .eths, .etm, .hostIf, .tests,
      .img]
  | .drainLimitExpiry _ => [.free, .regs, .ctrs, .ctrRc, .srcs, .ports, .tolger, .domains, .topo, .comb, .sched, .tuns, .brg,
      .cmd, .deep, .diag, .time, .trims, .tcp, .pdTables, .proxies, .heads, .timings, .tols, .eths, .etm, .hostIf, .tests,
      .img]
  | .domainReset _ _ => [.free, .regs, .ctrs, .ctrRc, .srcs, .ports, .tolger, .domains, .topo, .comb, .sched, .tuns, .brg,
      .cmd, .deep, .diag, .time, .trims, .tcp, .pdTables, .proxies, .heads, .timings, .tols, .eths, .etm, .hostIf, .tests,
      .img]
  | .resetTimeEnd _ => [.regs, .tolger, .domains, .comb, .cmd, .hostIf]
  | .domainReturn _ _ => [.regs, .ctrs, .srcs, .ports, .tolger, .domains, .comb, .cmd, .diag, .time, .hostIf, .tests]
  | .returningComplete _ => [.regs, .ctrs, .srcs, .ports, .tolger, .domains, .topo, .comb, .sched, .tuns, .brg, .cmd, .deep,
      .diag, .time, .trig, .trims, .tcp, .pdTables, .proxies, .svcDev, .heads, .timings, .eths, .etm, .hostIf, .efuses,
      .tests, .img]
  | .returnTimeout _ => [.domains, .comb, .cmd, .hostIf]
  | .domainStatus _ _ => [.comb, .cmd, .hostIf]
  | .ldWarmReset _ _ => [.regs, .ctrs, .ctrRc, .srcs, .lastRead, .ports, .tolger, .domains, .topo, .comb, .sched, .tuns,
      .brg, .cmd, .deep, .lt, .diag, .time, .trig, .trims, .tcp, .svcSink, .pdTables, .proxies, .svcDev, .heads, .timings,
      .tols, .dpLine, .eths, .etm, .hostIf, .efuses, .nurse, .tests, .img, .supplyHold]
  | .portEnable _ _ => [.regs, .ctrs, .srcs, .ports, .topo, .comb, .diag, .time, .tests]
  | .trainingPhaseTimeout _ => [.regs, .ctrs, .srcs, .ports, .comb, .diag, .tests]
  | .trainRestartTimer _ => [.regs, .ports, .comb, .tests]
  | .wordLock _ _ => [.regs, .ports]
  | .cap _ _ => [.free, .regs, .ctrs, .srcs, .ports, .diag, .tests]
  | .prbsLock _ => [.regs, .ports]
  | .alignLast _ => [.regs, .ports, .comb]
  | .osSlotReceive _ _ => [.free, .regs, .ctrs, .srcs, .ports, .domains, .topo, .comb, .cmd, .lt, .diag, .time, .trig,
      .hostIf, .efuses, .tests]
  | .dozeWordReceive _ _ => [.free, .regs, .ctrs, .srcs, .ports, .domains, .topo, .comb, .cmd, .lt, .diag, .time, .trig,
      .hostIf, .efuses, .tests]
  | .uncorrectableCodeword _ _ => [.regs, .ctrs, .srcs, .ports, .domains, .comb, .cmd, .diag]
  | .fcwChkFail _ => [.regs, .ctrs, .srcs, .ports, .topo, .comb, .diag, .time, .tests]
  | .humIdleTimeout _ => [.ports]
  | .dozeIdleTimeout _ => [.ports]
  | .dormantIdleTimeout _ => [.ports]
  | .stateReq _ _ => [.regs, .srcs, .ports, .time, .tests]
  | .stateAck _ _ => [.regs, .srcs, .ports, .time, .tests]
  | .stateNak _ _ => [.ports]
  | .stateAnswerTimeout _ => [.ports]
  | .wake _ => [.regs, .srcs, .ports, .tests]
  | .exitComplete _ => [.regs, .ports]
  | .exitTimeout _ => [.regs, .ctrs, .srcs, .ports, .topo, .comb, .diag, .time, .tests]
  | .maxstateWrite _ _ => [.regs, .ports, .tests]
  | .waggle _ _ _ => [.regs, .ctrs, .srcs, .ports, .topo, .diag, .tests]
  | .signalDetectLoss _ _ => [.regs, .ctrs, .srcs, .ports, .topo, .comb, .diag, .time, .tests]
  | .laneFail _ _ => [.regs, .ctrs, .srcs, .ports, .topo, .comb, .diag, .time, .tests]
  | .laneErrorWindow _ _ _ => [.regs, .ctrs, .srcs, .ports, .topo, .comb, .diag, .time, .tests]
  | .laneRetireReq _ _ => [.regs, .ctrs, .srcs, .ports, .topo, .comb, .diag, .time, .tests]
  | .laneRetire _ _ _ => [.regs, .ports]
  | .retireFrameSwitch _ _ => [.regs, .ctrs, .srcs, .ports, .topo, .comb, .diag, .time, .tests]
  | .cellReceive _ _ => [.free, .regs, .ctrs, .srcs, .ports, .domains, .topo, .comb, .cmd, .lt, .diag, .time, .trig, .hostIf,
      .efuses, .tests]
  | .ackFcw _ _ => [.ctrs, .srcs, .ports, .comb, .diag]
  | .nakFcw _ _ => [.regs, .ctrs, .srcs, .ports, .topo, .comb, .diag, .time, .tests]
  | .nakRetryTimeout _ => [.ports]
  | .replayTimeout _ => [.regs, .ctrs, .srcs, .ports, .topo, .comb, .diag, .time, .tests]
  | .resyncReplay _ _ => [.ctrs, .srcs, .ports, .diag]
  | .resyncInit _ => [.ports]
  | .resyncCreq _ _ => [.ports]
  | .resyncRecall _ _ => [.regs, .ctrs, .srcs, .ports, .topo, .diag, .tests]
  | .creditFcw _ _ _ => [.regs, .ctrs, .srcs, .ports, .topo, .comb, .diag, .time, .tests]
  | .creditWord _ _ _ _ => [.regs, .ctrs, .srcs, .ports, .domains, .topo, .comb, .cmd, .diag, .time, .tests]
  | .creditWordPeriod _ => [.ports]
  | .creditStarveTimeout _ _ => [.ctrs, .srcs, .ports, .diag]
  | .slotFill _ _ => [.free, .regs, .ctrs, .srcs, .ports, .tolger, .domains, .topo, .comb, .sched, .tuns, .diag, .time,
      .tests]
  | .cellAdmit _ _ => [.regs, .ctrs, .srcs, .ports, .tolger, .topo, .comb, .sched, .diag, .tests]
  | .parkRetry _ _ => [.regs, .ctrs, .srcs, .ports, .topo, .comb, .sched, .diag, .tests]
  | .entryRecomputed _ _ _ => [.regs, .ctrs, .srcs, .ports, .topo, .comb, .sched, .diag, .tests]
  | .addrWrite _ => [.regs, .srcs, .ports, .topo, .comb, .cmd, .time]
  | .seedExpansionDone => [.regs, .ctrs, .srcs, .ports, .topo, .comb, .sched, .tuns, .diag, .tests]
  | .rebuildDone _ _ => [.regs, .ctrs, .srcs, .ports, .topo, .comb, .sched, .tuns, .diag, .tests]
  | .tblRead _ _ => [.comb, .cmd, .hostIf]
  | .tblWrite _ _ => [.regs, .ctrs, .srcs, .ports, .topo, .comb, .sched, .tuns, .cmd, .diag, .hostIf, .tests]
  | .tblRebuild _ _ => [.free, .regs, .srcs, .topo, .comb, .cmd, .hostIf, .tests]
  | .tblSwap _ _ => [.regs, .ctrs, .srcs, .ports, .topo, .comb, .sched, .tuns, .cmd, .diag, .hostIf, .tests]
  | .addrAssign _ _ => [.regs, .ctrs, .srcs, .ports, .topo, .comb, .cmd, .diag, .time, .hostIf]
  | .addrAssignRepeat _ => [.ports, .comb, .cmd]
  | .ringBreak _ => [.regs, .ctrs, .srcs, .ports, .topo, .comb, .diag, .tests]
  | .ringHeal _ => [.regs, .ctrs, .srcs, .ports, .topo, .comb, .diag, .tests]
  | .wtrExpiry _ => [.srcs, .topo, .comb]
  | .ringHoldExpiry _ => [.topo]
  | .ringEnClear => [.regs, .topo]
  | .bypassWrite _ => [.regs, .ctrs, .srcs, .ports, .topo, .comb, .diag, .time, .tests]
  | .bypassSettleExpiry => [.regs, .ports, .topo, .comb, .tests]
  | .combCellTime _ _ => [.free, .regs, .ctrs, .srcs, .ports, .domains, .topo, .comb, .sched, .diag, .tests]
  | .spillRefillDone _ _ _ => [.ctrs, .srcs, .ports, .topo, .comb, .sched, .diag]
  | .frameDiscardEnd _ _ _ => [.srcs, .comb, .diag]
  | .auditDone => [.regs, .ctrs, .srcs, .ports, .topo, .comb, .diag]
  | .voqQueueMove _ _ => [.comb]
  | .flReady _ => [.regs, .srcs, .comb, .diag]
  | .bankctlRetReq _ => [.regs, .srcs, .comb]
  | .relocationDone _ => [.regs, .srcs, .ports, .comb, .diag]
  | .bankctlRtnReq _ => [.regs]
  | .bankReturnDone _ => [.regs, .comb]
  | .forceVoqWrite _ => [.regs, .srcs, .comb]
  | .shpCtlApply _ => [.sched]
  | .shpCtlLoad _ => [.regs]
  | .polCtlApply _ => [.sched]
  | .polCtlLoad _ => [.regs]
  | .xbCfgWrite _ => [.regs, .sched]
  | .xbBurstWrite _ => [.regs, .sched]
  | .originFrameRelease _ => [.tolger, .comb, .sched]
  | .expressMonitorWindow => [.regs, .srcs, .ports]
  | .hwmOccRead _ => [.lastRead, .comb]
  | .hwmSojRead _ => [.lastRead, .comb]
  | .shpApply _ _ => [.comb, .sched, .cmd, .hostIf]
  | .shpGet _ _ => [.comb, .cmd, .hostIf]
  | .polApply _ _ => [.comb, .sched, .cmd, .hostIf]
  | .polGet _ _ => [.comb, .cmd, .hostIf]
  | .hwmRead _ _ => [.comb, .cmd, .hostIf]
  | .tunnelFrameOriginate _ _ _ => [.ctrs, .srcs, .tolger, .comb, .sched, .tuns, .diag]
  | .tunnelCellTerminate _ => [.regs, .ctrs, .srcs, .tolger, .comb, .tuns, .cmd, .diag, .dpLine, .eths, .hostIf]
  | .tunGet _ _ => [.comb, .cmd, .hostIf]
  | .tunSet _ _ => [.regs, .ctrs, .srcs, .ports, .topo, .comb, .sched, .tuns, .cmd, .diag, .hostIf, .tests]
  | .tunResetCtx _ _ => [.ctrs, .srcs, .comb, .tuns, .brg, .cmd, .diag, .hostIf]
  | .windowRequest _ _ _ _ _ => [.regs, .ctrs, .srcs, .tolger, .comb, .sched, .tuns, .brg, .cmd, .diag, .hostIf]
  | .brgWriteReceive => [.regs, .ctrs, .srcs, .ports, .tolger, .topo, .comb, .sched, .tuns, .brg, .cmd, .deep, .diag, .time,
      .trig, .tcp, .proxies, .svcDev, .heads, .eths, .etm, .hostIf, .efuses, .tests]
  | .brgReadReceive => [.regs, .ctrs, .srcs, .ports, .tolger, .topo, .comb, .sched, .tuns, .brg, .cmd, .deep, .diag, .time,
      .trig, .tcp, .proxies, .svcDev, .heads, .eths, .etm, .hostIf, .efuses, .tests]
  | .cplReceive => [.free, .regs, .ctrs, .srcs, .tolger, .comb, .sched, .tuns, .brg, .cmd, .diag, .hostIf]
  | .readTimeout _ => [.regs, .ctrs, .srcs, .tolger, .comb, .sched, .tuns, .brg, .cmd, .diag, .hostIf]
  | .pwerrReceive => [.regs, .srcs, .tuns, .brg]
  | .fenceReceive => [.regs, .ctrs, .srcs, .comb, .tuns, .brg, .diag]
  | .fenceAckReceive => [.ctrs, .srcs, .tolger, .comb, .sched, .tuns, .brg, .cmd, .diag, .hostIf]
  | .fenceTimeout _ => [.ctrs, .srcs, .tolger, .comb, .sched, .tuns, .brg, .cmd, .diag, .hostIf]
  | .localRetry _ => [.regs, .ctrs, .srcs, .tolger, .comb, .sched, .tuns, .brg, .cmd, .diag, .hostIf]
  | .brgWctlApply _ => [.brg]
  | .brgWctlLoad _ => [.regs]
  | .brgTctlApply _ => [.brg]
  | .brgTctlLoad _ => [.regs]
  | .pwlDataRead _ => [.lastRead, .brg]
  | .elgDataRead _ => [.lastRead, .brg]
  | .pwlStatRead _ => [.regs, .lastRead]
  | .elgStatRead _ => [.regs, .lastRead]
  | .rdstatRead _ => [.lastRead, .brg]
  | .brgRead _ _ => [.regs, .ctrs, .srcs, .tolger, .comb, .sched, .tuns, .brg, .cmd, .diag, .hostIf]
  | .brgWrite _ _ => [.regs, .ctrs, .srcs, .tolger, .comb, .sched, .tuns, .brg, .cmd, .diag, .hostIf]
  | .writeFence _ _ => [.ctrs, .srcs, .tolger, .comb, .sched, .tuns, .brg, .cmd, .diag, .hostIf]
  | .pwlRead _ _ => [.comb, .brg, .cmd, .hostIf]
  | .elgRead _ _ => [.comb, .brg, .cmd, .hostIf]
  | .syncSendTimer => [.ports]
  | .dreqSendTimer _ => [.ports]
  | .sync _ _ _ _ _ => [.regs, .srcs, .lt, .time, .trig]
  | .dreq _ _ => [.ports]
  | .drsp _ _ _ => [.regs, .ports]
  | .dreqMiss _ => [.ctrs, .srcs, .ports, .diag]
  | .syncLossTimeout => [.regs, .srcs, .time]
  | .pselWrite _ => [.regs, .srcs, .ports, .time]
  | .announceTimer => [.ctrs, .srcs, .tolger, .comb, .sched, .tuns, .diag]
  | .announce => [.regs, .tuns]
  | .ppsEdge _ => [.regs, .time]
  | .xt32RatioWindow _ => [.time]
  | .nowHiRead _ => [.regs, .lastRead]
  | .timeGet _ _ => [.comb, .cmd, .hostIf]
  | .timeSet _ _ => [.regs, .srcs, .comb, .cmd, .lt, .trig, .hostIf]
  | .arm => [.regs, .ctrs, .srcs, .tuns, .diag, .trig]
  | .cancel => [.tuns, .trig]
  | .trgActlArm _ => [.regs, .srcs, .trig]
  | .trgActlCancel _ => [.trig]
  | .trigArm _ _ => [.regs, .srcs, .comb, .cmd, .trig, .hostIf]
  | .trigCancel _ _ => [.comb, .cmd, .trig, .hostIf]
  | .pulseStart _ => [.regs, .srcs, .trig]
  | .pulseEnd _ => [.trig]
  | .pinModeWrite _ _ => [.regs, .ctrs, .srcs, .tolger, .comb, .sched, .tuns, .diag, .trig]
  | .captureEdge _ _ => [.regs, .ctrs, .srcs, .tolger, .comb, .sched, .tuns, .diag, .trig]
  | .captRptPeriod _ => [.ctrs, .srcs, .tolger, .comb, .sched, .tuns, .diag, .trig]
  | .capLoRead _ _ => [.regs, .lastRead, .trig]
  | .captRead _ _ => [.comb, .cmd, .trig, .hostIf]
  | .hspiStatus => [.cmd]
  | .hspiCmdWrite _ => [.ctrs, .srcs, .comb, .cmd, .diag, .hostIf]
  | .hspiRspRead _ => [.cmd]
  | .cmdReplyReceive => [.ctrs, .srcs, .ports, .comb, .cmd, .diag, .hostIf]
  | .relayTimeout _ => [.comb, .cmd, .hostIf]
  | .orphanExpiry _ => [.regs, .cmd]
  | .sessionIdleTimeout _ => [.cmd]
  | .sessionExpiry _ => [.cmd]
  | .hostselWrite _ => [.regs]
  | .readReg _ _ => [.regs, .ctrs, .srcs, .comb, .brg, .cmd, .trig, .hostIf]
  | .writeReg _ _ => [.regs, .ctrs, .srcs, .ports, .tolger, .topo, .comb, .sched, .tuns, .brg, .cmd, .deep, .diag, .time,
      .trig, .tcp, .proxies, .svcDev, .heads, .eths, .etm, .hostIf, .efuses, .tests]
  | .rmwReg _ _ => [.regs, .ctrs, .srcs, .ports, .tolger, .topo, .comb, .sched, .tuns, .brg, .cmd, .deep, .diag, .time,
      .trig, .tcp, .proxies, .svcDev, .heads, .eths, .etm, .hostIf, .efuses, .tests]
  | .readBlk _ _ => [.regs, .ctrs, .srcs, .comb, .brg, .cmd, .trig, .hostIf]
  | .writeBlk _ _ => [.regs, .ctrs, .srcs, .ports, .tolger, .topo, .comb, .sched, .tuns, .brg, .cmd, .deep, .diag, .time,
      .trig, .tcp, .proxies, .svcDev, .heads, .eths, .etm, .hostIf, .efuses, .tests]
  | .rmwBlk _ _ => [.regs, .ctrs, .srcs, .ports, .tolger, .topo, .comb, .sched, .tuns, .brg, .cmd, .deep, .diag, .time,
      .trig, .tcp, .proxies, .svcDev, .heads, .eths, .etm, .hostIf, .efuses, .tests]
  | .readCtr _ _ => [.regs, .ctrs, .srcs, .comb, .cmd, .hostIf]
  | .getInfo _ _ => [.comb, .cmd, .hostIf]
  | .nop _ _ => [.comb, .cmd, .hostIf]
  | .sessionOpen _ _ => [.free, .comb, .cmd, .hostIf]
  | .sessionClose _ _ => [.comb, .cmd, .hostIf]
  | .sessionInfo _ _ => [.comb, .cmd, .hostIf]
  | .getOrphan _ _ => [.comb, .cmd, .hostIf]
  | .ccAttach _ _ _ => [.regs, .srcs, .tcp]
  | .ccDetach _ => [.regs, .ctrs, .srcs, .tolger, .comb, .sched, .tuns, .deep, .diag, .tcp, .proxies]
  | .vbusSafe0vReached _ => [.regs, .srcs, .tcp]
  | .vbusEnable _ => [.regs, .srcs, .tcp]
  | .vbusOc _ => [.regs, .ctrs, .srcs, .tolger, .comb, .sched, .tuns, .deep, .diag, .tcp, .proxies]
  | .pwrwarnReleaseTimer => [.regs, .srcs, .tcp]
  | .sourceCapRepeat _ => [.regs, .srcs, .tcp]
  | .request _ _ _ _ => [.regs, .srcs, .tcp]
  | .senderResponseTimeout _ => [.regs, .ctrs, .srcs, .tolger, .comb, .sched, .tuns, .deep, .diag, .tcp, .proxies]
  | .srcTransitionStart _ => [.regs, .srcs, .tcp]
  | .vbusSettled _ => [.regs, .srcs, .tcp]
  | .getSourceCap _ => [.regs, .srcs, .tcp, .svcSink]
  | .getSourceCapExtended _ => [.regs, .srcs, .tcp, .svcSink]
  | .getSinkCap _ => [.regs, .srcs, .tcp, .svcSink]
  | .getRevision _ => [.regs, .srcs, .tcp, .svcSink]
  | .softReset _ => [.regs, .srcs, .tcp, .svcSink]
  | .hardReset _ _ => [.regs, .ctrs, .srcs, .tolger, .comb, .sched, .tuns, .deep, .diag, .tcp, .svcSink, .proxies]
  | .vconnSwap _ => [.regs, .srcs, .tcp, .svcSink]
  | .psRdy _ => [.regs, .srcs, .tcp, .svcSink]
  | .vconnSourceTimeout _ => [.regs, .ctrs, .srcs, .tolger, .comb, .sched, .tuns, .deep, .diag, .tcp, .proxies]
  | .drSwap _ => [.regs, .srcs, .tcp, .svcSink]
  | .prSwap _ => [.regs, .srcs, .tcp, .svcSink]
  | .unsupportedPdMessage _ _ => [.regs, .srcs, .tcp, .svcSink]
  | .discoverIdentitySopPrime _ _ => [.regs, .srcs, .tcp]
  | .discoverIdentityRetry _ => [.regs, .srcs, .tcp]
  | .partnerDiscoveryResponse _ _ => [.regs, .srcs, .tcp]
  | .enterModeAck _ => [.regs, .srcs, .tcp]
  | .dpConfigureAck _ => [.regs, .ctrs, .srcs, .tolger, .comb, .sched, .tuns, .deep, .diag, .tcp, .proxies]
  | .attention _ _ => [.regs, .srcs, .tcp]
  | .vdmResponseTimeout _ => [.regs, .ctrs, .srcs, .tolger, .comb, .sched, .tuns, .deep, .diag, .tcp, .proxies]
  | .vconnFault _ => [.regs, .srcs, .tcp]
  | .sinkAdjExpiry _ => [.regs, .srcs, .tcp]
  | .errorRecoveryEnd _ => [.regs, .srcs, .tcp]
  | .tcpCfgWrite _ _ => [.regs, .ctrs, .srcs, .tolger, .comb, .sched, .tuns, .deep, .diag, .tcp, .proxies]
  | .pdpBudgetWrite _ _ => [.regs, .srcs, .tcp]
  | .sourceCapabilities _ _ => [.svcSink]
  | .accept => [.svcSink]
  | .wait => [.svcSink]
  | .reject => [.svcSink]
  | .sinkRequestRetry => [.svcSink]
  | .psTransitionTimeout => [.regs, .svcSink]
  | .tierFall => [.regs, .ctrs, .srcs, .ports, .topo, .comb, .diag, .time, .tests]
  | .svcVbusLoss => [.regs, .ctrs, .ctrRc, .srcs, .lastRead, .ports, .tolger, .domains, .topo, .comb, .sched, .tuns, .brg,
      .cmd, .deep, .lt, .diag, .time, .trig, .trims, .tcp, .svcSink, .pdTables, .proxies, .svcDev, .heads, .timings, .tols,
      .dpLine, .eths, .etm, .hostIf, .efuses, .nurse, .tests, .img, .supplyHold]
  | .pdStatus _ _ => [.comb, .cmd, .hostIf]
  | .pdPortCtl _ _ => [.regs, .ctrs, .srcs, .tolger, .comb, .sched, .tuns, .cmd, .deep, .diag, .tcp, .svcSink, .proxies,
      .hostIf]
  | .pdBudget _ _ => [.regs, .srcs, .comb, .cmd, .tcp, .hostIf]
  | .hubPortChange _ _ _ => [.regs, .ctrs, .srcs, .tolger, .comb, .sched, .tuns, .deep, .diag, .proxies]
  | .prxDbWrite _ _ => [.regs, .ctrs, .srcs, .tolger, .comb, .sched, .tuns, .deep, .diag, .proxies]
  | .doorbell _ => [.regs, .ctrs, .srcs, .tolger, .comb, .sched, .tuns, .deep, .diag, .proxies]
  | .descriptorFetch _ _ _ => [.regs, .ctrs, .srcs, .tolger, .comb, .sched, .tuns, .deep, .diag, .proxies]
  | .periodicService _ _ _ => [.regs, .ctrs, .srcs, .tolger, .comb, .sched, .tuns, .deep, .diag, .proxies]
  | .transferComplete _ _ _ _ _ => [.regs, .ctrs, .srcs, .tolger, .comb, .sched, .tuns, .deep, .diag, .proxies]
  | .notifyTimer _ => [.ctrs, .srcs, .tolger, .comb, .sched, .tuns, .diag, .proxies]
  | .usbPortCtl _ _ => [.regs, .ctrs, .srcs, .tolger, .comb, .sched, .tuns, .cmd, .deep, .diag, .proxies, .hostIf]
  | .proxyCtl _ _ => [.regs, .ctrs, .srcs, .tolger, .comb, .sched, .tuns, .cmd, .deep, .diag, .proxies, .hostIf]
  | .svcConnectWrite _ => [.regs, .cmd, .svcDev]
  | .svcEpbLoad => [.regs, .svcDev]
  | .svcSuspend => [.regs, .svcDev]
  | .remoteWake => [.regs, .svcDev]
  | .hostResume => [.regs, .srcs, .svcDev]
  | .svcBusReset _ => [.regs, .cmd, .svcDev]
  | .setConfiguration _ => [.regs, .cmd, .svcDev]
  | .svcStandardRequest _ _ _ _ _ => [.regs, .cmd, .svcDev]
  | .ep2TransferComplete => [.cmd, .svcDev]
  | .ep3Poll => [.regs, .svcDev]
  | .ep5Poll => [.diag, .svcDev]
  | .clearFeatureHalt => [.svcDev]
  | .svcOrphRead _ => [.regs, .lastRead]
  | .dspCfgEnWrite _ _ => [.regs, .srcs, .comb, .cmd, .heads, .hostIf]
  | .headStop _ => [.regs, .comb, .cmd, .heads, .hostIf]
  | .dspCfgFlip _ => [.regs, .ctrs, .srcs, .diag]
  | .vblank _ => [.regs, .ctrs, .srcs, .tolger, .comb, .sched, .tuns, .cmd, .diag, .heads, .hostIf]
  | .teEdge _ => [.regs, .ctrs, .srcs, .tolger, .comb, .sched, .tuns, .cmd, .diag, .heads, .hostIf]
  | .teTimeout _ => [.regs, .ctrs, .srcs, .tolger, .comb, .sched, .tuns, .cmd, .diag, .heads, .hostIf]
  | .lineStart _ => [.regs, .ctrs, .srcs, .tolger, .comb, .sched, .tuns, .diag, .heads]
  | .fetchComplete _ _ => [.regs, .ctrs, .srcs, .diag, .heads]
  | .tolPublish _ => [.regs, .tols]
  | .flip => [.regs, .ctrs, .srcs, .tuns, .diag]
  | .dmxRouteWrite _ => [.regs]
  | .dmxStatusRelay => [.regs]
  | .dspFlip _ _ => [.regs, .ctrs, .srcs, .comb, .cmd, .diag, .heads, .hostIf]
  | .dspStatus _ _ => [.comb, .cmd, .hostIf]
  | .dspTimingLoad _ _ => [.regs, .comb, .cmd, .hostIf]
  | .ethFrameReceive _ _ => [.ctrs, .srcs, .tolger, .comb, .sched, .tuns, .diag, .eths]
  | .pauseRepeat _ => [.eths]
  | .pauseFrameReceive _ _ => [.eths]
  | .ethLinkLost _ _ => [.regs, .ctrs, .srcs, .diag, .eths]
  | .etmVctlApply _ _ => [.etm]
  | .etmVctlLoad _ _ => [.regs]
  | .mbSubmit _ => [.ctrs, .srcs, .comb, .cmd, .diag, .hostIf]
  | .mbRelease => [.cmd, .hostIf]
  | .mbStatRead => [.lastRead, .hostIf]
  | .txGo _ _ => [.ctrs, .srcs, .tolger, .comb, .sched, .tuns, .diag, .hostIf]
  | .txStatRead => [.lastRead, .hostIf]
  | .rqCiWrite _ _ => [.ctrs, .srcs, .diag, .hostIf]
  | .bar2Request _ _ _ _ _ => [.regs, .ctrs, .srcs, .tolger, .comb, .sched, .tuns, .brg, .cmd, .diag, .hostIf]
  | .hostMemoryTimeout _ => [.regs, .ctrs, .srcs, .comb, .brg, .diag]
  | .rootPortTimeout _ => [.regs, .ctrs, .srcs, .comb, .brg, .diag]
  | .inboundDeviceRequest _ _ _ _ => [.regs, .srcs, .deep, .hostIf]
  | .pcieLinkDown => [.regs, .ctrs, .srcs, .tolger, .comb, .sched, .tuns, .brg, .cmd, .diag, .hostIf]
  | .flr => [.regs, .ctrs, .srcs, .tolger, .comb, .sched, .tuns, .brg, .cmd, .diag, .hostIf]
  | .rootPortLinkLost => [.regs, .ctrs, .srcs, .comb, .brg, .diag]
  | .pcfgEnWrite _ _ => [.regs, .ports, .comb, .cmd, .hostIf, .efuses, .tests]
  | .pcfgRoleWrite _ _ => [.regs, .ports, .comb, .cmd, .hostIf, .efuses, .tests]
  | .lcfgEnWrite _ => [.regs, .ports, .comb, .cmd, .hostIf, .efuses, .tests]
  | .qualifyComplete _ _ _ _ _ => [.regs, .ctrs, .srcs, .ports, .comb, .cmd, .diag, .hostIf, .efuses, .tests]
  | .qualRetry _ => [.regs, .efuses]
  | .inrushEnd _ => [.regs, .ports, .tests]
  | .inrushTimeout _ => [.regs, .srcs, .ports, .diag, .efuses, .tests]
  | .slowTick _ _ _ => [.regs, .ctrs, .srcs, .ports, .lt, .diag, .time, .efuses, .tests]
  | .curveTrip _ => [.regs, .ctrs, .srcs, .ports, .diag, .efuses, .tests]
  | .fastTrip _ => [.regs, .ctrs, .srcs, .ports, .diag, .efuses, .tests]
  | .removal _ => [.regs, .ctrs, .srcs, .ports, .diag, .efuses, .tests]
  | .offMinExpiry _ => [.regs, .ports, .tests]
  | .fetShort _ => [.regs, .srcs, .ports, .diag, .tests]
  | .lpwrPeriodic => [.ports]
  | .lpwr _ _ => [.regs, .srcs, .ports, .comb, .cmd, .hostIf, .efuses, .tests]
  | .pwrwarnAssert _ => [.regs, .ctrs, .srcs, .ports, .tolger, .topo, .comb, .sched, .tuns, .cmd, .deep, .diag, .time, .tcp,
      .proxies, .hostIf, .efuses, .tests]
  | .pwrwarnDeassert => [.regs, .ports, .tests]
  | .uvlo => [.regs, .srcs, .ports, .comb, .cmd, .hostIf, .efuses, .nurse, .tests]
  | .lbusVon => [.regs, .ports, .nurse, .tests]
  | .lpwCctlApply _ => [.efuses]
  | .lpwCctlLoad _ => [.regs]
  | .efuseCtl _ _ => [.regs, .ports, .comb, .cmd, .hostIf, .efuses, .tests]
  | .efuseStatus _ _ => [.comb, .cmd, .hostIf]
  | .efuseCurve _ _ => [.comb, .cmd, .hostIf, .efuses]
  | .segQualify _ _ => [.regs, .comb, .cmd, .hostIf, .efuses]
  | .xt32Fail => [.regs, .srcs]
  | .ldSleepEntry _ => [.regs, .srcs, .time, .nurse]
  | .ldWake _ _ => [.regs, .srcs, .nurse]
  | .fastClockStartDone => [.regs, .srcs, .ports, .time, .nurse, .tests]
  | .pstateSet _ _ => [.regs, .ctrs, .ctrRc, .srcs, .ports, .tolger, .domains, .topo, .comb, .sched, .tuns, .brg, .cmd,
      .deep, .diag, .time, .trig, .trims, .tcp, .pdTables, .proxies, .svcDev, .heads, .timings, .tols, .eths, .etm, .hostIf,
      .efuses, .tests, .img]
  | .wakeCfg _ _ => [.regs, .comb, .cmd, .hostIf]
  | .selfRefreshEntry => [.regs]
  | .selfRefreshExit => [.regs]
  | .selfRefreshExitDone => [.regs]
  | .interruptSourceFire _ => [.srcs]
  | .interruptDelivery _ => [.srcs, .comb, .svcDev, .hostIf, .nurse]
  | .intDoneWrite _ => [.srcs]
  | .intPendWrite _ _ => [.srcs]
  | .nrsWreasonRead _ => [.regs, .lastRead]
  | .dcmRgnApply => [.regs]
  | .powerOnReset _ _ _ => [.regs, .ctrs, .ctrRc, .srcs, .lastRead, .ports, .tolger, .domains, .topo, .comb, .sched, .tuns,
      .brg, .cmd, .deep, .lt, .diag, .time, .trig, .trims, .tcp, .svcSink, .pdTables, .proxies, .svcDev, .heads, .timings,
      .tols, .dpLine, .eths, .etm, .hostIf, .efuses, .nurse, .tests, .img, .supplyHold]
  | .resetN _ _ _ => [.regs, .ctrs, .ctrRc, .srcs, .lastRead, .ports, .tolger, .domains, .topo, .comb, .sched, .tuns, .brg,
      .cmd, .deep, .lt, .diag, .time, .trig, .trims, .tcp, .svcSink, .pdTables, .proxies, .svcDev, .heads, .timings, .tols,
      .dpLine, .eths, .etm, .hostIf, .efuses, .nurse, .tests, .img, .supplyHold]
  | .supplyFail => [.regs, .ctrs, .ctrRc, .srcs, .lastRead, .ports, .tolger, .domains, .topo, .comb, .sched, .tuns, .brg,
      .cmd, .deep, .lt, .diag, .time, .trig, .trims, .tcp, .svcSink, .pdTables, .proxies, .svcDev, .heads, .timings, .tols,
      .dpLine, .eths, .etm, .hostIf, .efuses, .nurse, .tests, .img, .supplyHold]
  | .supplyHoldEnd _ _ _ => [.regs, .ctrs, .ctrRc, .srcs, .lastRead, .ports, .tolger, .domains, .topo, .comb, .sched, .tuns,
      .brg, .cmd, .deep, .lt, .diag, .time, .trig, .trims, .tcp, .svcSink, .pdTables, .proxies, .svcDev, .heads, .timings,
      .tols, .dpLine, .eths, .etm, .hostIf, .efuses, .nurse, .tests, .img, .supplyHold]
  | .bootSealVerified _ _ => [.regs, .ctrs, .srcs, .ports, .tolger, .domains, .topo, .comb, .sched, .tuns, .brg, .cmd, .deep,
      .diag, .time, .trig, .trims, .tcp, .proxies, .svcDev, .heads, .eths, .etm, .hostIf, .efuses, .tests, .img, .nor]
  | .booted => [.regs, .srcs, .ports, .comb, .tests, .img, .nor]
  | .deadBatteryStart _ _ _ => [.regs, .ctrs, .ctrRc, .srcs, .lastRead, .ports, .tolger, .domains, .topo, .comb, .sched,
      .tuns, .brg, .cmd, .deep, .lt, .diag, .time, .trig, .trims, .tcp, .svcSink, .pdTables, .proxies, .svcDev, .heads,
      .timings, .tols, .dpLine, .eths, .etm, .hostIf, .efuses, .nurse, .tests, .img, .supplyHold]
  | .boardPowerValid => [.regs]
  | .imgInfo _ _ => [.regs, .comb, .cmd, .hostIf]
  | .imgWrite _ _ => [.regs, .comb, .cmd, .hostIf, .img, .nor]
  | .imgDelta _ _ => [.regs, .srcs, .comb, .cmd, .hostIf, .img, .nor]
  | .imgVerify _ _ => [.regs, .comb, .cmd, .hostIf, .img, .nor]
  | .imgActivate _ _ => [.free, .regs, .ctrs, .ctrRc, .srcs, .ports, .tolger, .domains, .topo, .comb, .sched, .tuns, .brg,
      .cmd, .deep, .diag, .time, .trims, .tcp, .pdTables, .proxies, .heads, .timings, .tols, .eths, .etm, .hostIf, .tests,
      .img, .nor]
  | .imgCommit _ _ => [.regs, .comb, .cmd, .hostIf, .img]
  | .imgRevert _ _ => [.free, .regs, .ctrs, .ctrRc, .srcs, .ports, .tolger, .domains, .topo, .comb, .sched, .tuns, .brg,
      .cmd, .deep, .diag, .time, .trims, .tcp, .pdTables, .proxies, .heads, .timings, .tols, .eths, .etm, .hostIf, .tests,
      .img, .nor]
  | .imgLock _ _ => [.regs, .comb, .cmd, .hostIf]
  | .setRead _ _ => [.regs, .comb, .cmd, .hostIf]
  | .setWrite _ _ => [.regs, .comb, .cmd, .hostIf, .img]
  | .stageWrite _ _ => [.regs, .comb, .cmd, .deep, .hostIf]
  | .norWriteDone _ => [.regs, .srcs, .comb, .cmd, .otp, .hostIf, .img, .nor]
  | .activationStepDone => [.free, .regs, .ctrs, .ctrRc, .srcs, .ports, .tolger, .domains, .topo, .comb, .sched, .tuns, .brg,
      .cmd, .deep, .diag, .time, .trims, .tcp, .pdTables, .proxies, .heads, .timings, .tols, .eths, .etm, .hostIf, .tests,
      .img, .nor]
  | .activationTimeout => [.free, .regs, .ctrs, .ctrRc, .srcs, .ports, .tolger, .domains, .topo, .comb, .sched, .tuns, .brg,
      .cmd, .deep, .diag, .time, .trims, .tcp, .pdTables, .proxies, .heads, .timings, .tols, .eths, .etm, .hostIf, .tests,
      .img, .nor]
  | .ldShadowsCompared => [.regs, .ctrs, .srcs, .ports, .topo, .comb, .sched, .tuns, .diag, .tests, .img]
  | .ldActivationResume => [.free, .regs, .ctrs, .ctrRc, .srcs, .ports, .tolger, .domains, .topo, .comb, .sched, .tuns, .brg,
      .cmd, .deep, .diag, .time, .trig, .trims, .tcp, .pdTables, .proxies, .svcDev, .heads, .timings, .tols, .eths, .etm,
      .hostIf, .efuses, .tests, .img, .nor]
  | .trialExpiry => [.free, .regs, .ctrs, .ctrRc, .srcs, .ports, .tolger, .domains, .topo, .comb, .sched, .tuns, .brg, .cmd,
      .deep, .diag, .time, .trims, .tcp, .pdTables, .proxies, .heads, .timings, .tols, .eths, .etm, .hostIf, .tests, .img,
      .nor]
  | .imgLoadlogRead _ => [.regs, .ctrs, .lastRead, .comb, .brg, .trig]
  | .imgQspiRead _ => [.regs, .ctrs, .lastRead, .comb, .brg, .trig]
  | .counterLowRead _ _ => [.regs, .ctrs, .srcs, .lastRead, .comb, .brg, .diag, .trig, .hostIf]
  | .counterHighRead _ _ => [.regs, .ctrs, .srcs, .lastRead, .comb, .brg, .diag, .trig, .hostIf]
  | .ctrClear _ _ => [.ctrs, .ctrRc, .comb, .cmd, .hostIf]
  | .testRun _ _ => [.regs, .ctrs, .srcs, .comb, .cmd, .diag, .eths, .hostIf, .tests]
  | .testStatus _ _ => [.free, .comb, .cmd, .hostIf]
  | .logRead _ _ => [.comb, .cmd, .diag, .hostIf]
  | .eyeMargin _ _ => [.comb, .cmd, .hostIf, .tests]
  | .eyeMarginDone _ => [.comb, .cmd, .hostIf, .tests]
  | .bankRotStepDone _ => [.regs, .srcs, .ports, .comb, .diag, .tests]
  | .scrubBurst _ => [.free, .regs, .ctrs, .srcs, .diag, .tests]
  | .tblCmpDone _ _ => [.free, .regs, .ctrs, .srcs, .ports, .topo, .comb, .sched, .diag, .tests]
  | .disruptiveTestDone _ _ _ => [.srcs, .diag, .tests]
  | .norLogWrite _ => [.regs, .diag, .nor]
  | .tempSample _ _ => [.regs, .srcs, .diag]
  | .dieLstatRead _ _ => [.regs, .ctrs, .lastRead, .comb, .brg, .trig]
  | .ep1CommandReceive _ => [.ctrs, .srcs, .comb, .cmd, .diag, .hostIf]
  | .ep4BlockReceive _ => [.regs, .comb, .cmd, .hostIf, .img, .nor]
  | .svcSourceAttach _ => [.regs, .srcs, .svcSink, .svcDev]
  | .pcieLinkUp _ _ _ _ _ _ => [.regs, .srcs, .hostIf]
  | .ethLinkUp _ _ => [.regs, .srcs]
  | .pcieCompletionReceive _ _ _ _ => [.regs, .ctrs, .srcs, .comb, .brg, .diag]
  | .deepCombAccessDone _ => [.regs, .ctrs, .srcs, .comb, .brg, .deep, .diag]
  | .imgVerifyDone => [.regs, .srcs, .comb, .cmd, .hostIf, .img, .nor]
  | .ethFrameTransmit _ => [.ctrs, .srcs, .tolger, .comb, .sched, .tuns, .diag, .eths]

/-- Every register but those at the keys `l` holds what it held. -/
def RegsBut (l : List Nat) (s t : State) : Prop := ∀ k, k ∉ l → regGet t k = regGet s k

/-- Every interrupt source but `l` is in the state it was in. -/
def SrcsBut (l : List Nat) (s t : State) : Prop := ∀ n, n ∉ l → srcSt t n = srcSt s n

/-- Every counter but those at the addresses `l` holds what it held. -/
def CtrsBut (l : List Nat) (s t : State) : Prop := ∀ a, a ∉ l → ctrGet t a = ctrGet s a

/-- Every line port but `n` holds what it held beyond its registers. -/
def PortsBut (n : Nat) (s t : State) : Prop := ∀ m, m ≠ n → lp t m = lp s m

/-- One-time memory goes forward only (R445): OWNONLY stays set, a REVOKED slot stays REVOKED, and a slot that is not EMPTY keeps its
hash and is never EMPTY again. -/
structure OtpForward (a b : Otp) : Prop where
  ownOnly : a.ownOnly = true → b.ownOnly = true
  revoked : ∀ i, Tab.get zeroN a.st i = 2 → Tab.get zeroN b.st i = 2
  used : ∀ i, Tab.get zeroN a.st i ≠ 0 → Tab.get zeroN b.st i ≠ 0
  hash : ∀ i, Tab.get zeroN a.st i ≠ 0 → Tab.get (fun _ => (0 : BitVec 256)) b.hash i = Tab.get (fun _ => (0 : BitVec 256)) a.hash i

/-- Registers, counters, interrupt sources, the Deep Comb and the NOR are in their canonical form: keys strictly rising, and no entry
equal to what an unlisted key reads as. -/
structure Wf (s : State) : Prop where
  regs : Tab.wf regReset s.regs = true
  ctrs : Tab.wf ctrZero s.ctrs = true
  srcs : Tab.wf (fun _ => SrcState.idle) s.srcs = true
  deep : Tab.wf deepDefault s.deep = true
  nor : Tab.wf norDefault s.nor = true

/-- A register of the LD that holds its own word, in one of the blocks `l`, which an access of Table 11.3 reaches. -/
def PlainReg (l : List Nat) (a : Nat) (d : RegDesc) (s : State) : Prop :=
  a < 2 ^ 32 ∧ addrSlot a = 0 ∧ addrBlk a ∈ l ∧ badAddr a = false ∧ addrOff a < 0x80000 ∧ regDesc a = some d ∧ accStat s a = ST_OK

/-- A write of this register does more than store its bits by type: it has a row or an effect of its own. -/
def writeActs (a : Nat) : Bool :=
  let b := addrBlk a
  let o := addrOff a
  let sl := addrSlot a
  if sl = 0 then
    match b with
    | 0x00 => o = 0xC
    | 0x01 | 0x02 | 0x03 | 0x04 => o = 0 ∨ o = 0xC ∨ o = 0x10
    | 0x06 => o = 0 ∨ o = 0xC ∨ o = 0x1C
    | 0x08 => o = 0xC ∨ o = 0x24
    | 0x09 => o = 0x10
    | 0x0A => o = 0x10 ∨ o = 0x20 ∨ o = 0x24
    | 0x0B => o = 0x14 ∨ o = 0x2C
    | 0x0C => o = 4 ∨ (0x20 ≤ o ∧ o < 0x30)
    | 0x0D => (0x40 ≤ o ∧ o < 0x80) ∨ o = 0x180
    | 0x0F => o < 0x20 ∨ o = 0x60 ∨ o = 0x70
    | 0x10 | 0x13 | 0x14 => o = 0
    | 0x11 => o < 0x20 ∨ o = 0x34 ∨ o = 0x40
    | _ => false
  else if sl = 2 ∨ sl = 6 then (b < 4 ∧ o = 0) ∨ (b = 4 ∧ (o = 0 ∨ o = 0x18)) ∨ (b = 5 ∧ o = 0)
  else if sl = 3 ∨ sl = 7 then (b < 6 ∧ o = 0) ∨ (b = 6 ∧ o = 0x18)
  else if sl = 4 then (b = 0 ∧ o = 0) ∨ (b = 1 ∧ (o = 0 ∨ (0x10 ≤ o ∧ o < 0x20)))
  else if sl = 5 then b < 3 ∧ o = 0
  else false

/-- An interrupt source that may fire and was idle is pending. -/
def Raised (n : Nat) (s t : State) : Prop := srcAlive s n = true → srcSt s n = .idle → srcSt t n = .pending

/-- A counter has counted one (outside COMPAT_LH4, below saturation). -/
def CountsUp (a : Nat) (s t : State) : Prop :=
  compat s = false → (ctrGet s a).sat = false → (ctrGet s a).v + 1 < 2 ^ 64 → ctrGet t a = ⟨(ctrGet s a).v + 1, false⟩

/-- One frame has been handed to P16's ingress, cut into cells (R98). -/
def Sends (dst tun tc typ : Nat) (xpr : Bool) (l : List Byte) (s t : State) : Prop :=
  ∃ hs : List Held, holdOf t 16 = holdOf s 16 ++ hs ∧ hs.map (fun h => h.cell) = frameCells dst (ownAddr s) tun tc typ xpr l

/-- The Type-C engine of port `t`'s die works, and no port waits for power to attach (R309). -/
def TcReady (t : Nat) (s : State) : Prop := tuWorks s (t / 4) = true ∧ ∀ q, (tcp s q).blocked = false

/-- The event ring of a proxy (Table 13.6) and its contexts lie apart in the Deep Comb. -/
def EventsApart (s : State) (d : Nat) : Prop :=
  (proxy s d).evBase + 32 * 2 ^ (proxy s d).evSize ≤ (proxy s d).base ∨ (proxy s d).base + 0xA40 ≤ (proxy s d).evBase

/-- The 32 bytes of an event (R339). -/
def eventBytes (s : State) (d : Nat) (cookie : List Byte) (actlen index r code kind : Nat) : List Byte :=
  padTo 8 cookie ++ leBytes 4 actlen ++ leBytes 2 index ++ [BitVec.ofNat 8 r, BitVec.ofNat 8 code] ++ leBytes 8 (lineNs s) ++
    [0, 0, 0, 0, BitVec.ofNat 8 kind, 0, 0, if bit (proxy s d).evSize (proxy s d).evPi then 1 else 0]

/-- The proxy has put one event into its ring. -/
def EventWritten (s u : State) (d : Nat) (b : List Byte) : Prop :=
  (proxy u d).evPi = ((proxy s d).evPi + 1) % 65536 ∧
    deepReads u ((proxy s d).evBase + 32 * ((proxy s d).evPi % 2 ^ (proxy s d).evSize)) 32 = b

end Sys2Proof.Machine

namespace Sys2Proof
open Sys2Proof.Machine

/-- The command rows of the engine: the origin and the body (Table 10.7). -/
def Instr.opcode : Instr → Option (Origin × List Byte)
  | .domainQuiesce o body => some (o, body)
  | .domainReset o body => some (o, body)
  | .domainReturn o body => some (o, body)
  | .domainStatus o body => some (o, body)
  | .ldWarmReset o body => some (o, body)
  | .tblRead o body => some (o, body)
  | .tblWrite o body => some (o, body)
  | .tblRebuild o body => some (o, body)
  | .tblSwap o body => some (o, body)
  | .addrAssign o body => some (o, body)
  | .shpApply o body => some (o, body)
  | .shpGet o body => some (o, body)
  | .polApply o body => some (o, body)
  | .polGet o body => some (o, body)
  | .hwmRead o body => some (o, body)
  | .tunGet o body => some (o, body)
  | .tunSet o body => some (o, body)
  | .tunResetCtx o body => some (o, body)
  | .brgRead o body => some (o, body)
  | .brgWrite o body => some (o, body)
  | .writeFence o body => some (o, body)
  | .pwlRead o body => some (o, body)
  | .elgRead o body => some (o, body)
  | .timeGet o body => some (o, body)
  | .timeSet o body => some (o, body)
  | .trigArm o body => some (o, body)
  | .trigCancel o body => some (o, body)
  | .captRead o body => some (o, body)
  | .readReg o body => some (o, body)
  | .writeReg o body => some (o, body)
  | .rmwReg o body => some (o, body)
  | .readBlk o body => some (o, body)
  | .writeBlk o body => some (o, body)
  | .rmwBlk o body => some (o, body)
  | .readCtr o body => some (o, body)
  | .getInfo o body => some (o, body)
  | .nop o body => some (o, body)
  | .sessionOpen o body => some (o, body)
  | .sessionClose o body => some (o, body)
  | .sessionInfo o body => some (o, body)
  | .getOrphan o body => some (o, body)
  | .pdStatus o body => some (o, body)
  | .pdPortCtl o body => some (o, body)
  | .pdBudget o body => some (o, body)
  | .usbPortCtl o body => some (o, body)
  | .proxyCtl o body => some (o, body)
  | .dspFlip o body => some (o, body)
  | .dspStatus o body => some (o, body)
  | .dspTimingLoad o body => some (o, body)
  | .efuseCtl o body => some (o, body)
  | .efuseStatus o body => some (o, body)
  | .efuseCurve o body => some (o, body)
  | .segQualify o body => some (o, body)
  | .pstateSet o body => some (o, body)
  | .wakeCfg o body => some (o, body)
  | .imgInfo o body => some (o, body)
  | .imgWrite o body => some (o, body)
  | .imgDelta o body => some (o, body)
  | .imgVerify o body => some (o, body)
  | .imgActivate o body => some (o, body)
  | .imgCommit o body => some (o, body)
  | .imgRevert o body => some (o, body)
  | .imgLock o body => some (o, body)
  | .setRead o body => some (o, body)
  | .setWrite o body => some (o, body)
  | .stageWrite o body => some (o, body)
  | .ctrClear o body => some (o, body)
  | .testRun o body => some (o, body)
  | .testStatus o body => some (o, body)
  | .logRead o body => some (o, body)
  | .eyeMargin o body => some (o, body)
  | _ => none


/-- The body has the length that Table 10.7 gives the opcode. -/
def Instr.lenOk : Instr → Bool
  | .domainQuiesce _ body => body.length == 8
  | .domainReset _ body => body.length == 4
  | .domainReturn _ body => body.length == 4
  | .domainStatus _ body => body.length == 4
  | .ldWarmReset _ body => body.length == 0
  | .tblRead _ body => body.length == 8
  | .tblWrite _ body => 8 ≤ body.length && (3 < field body 0 1 || body.length == 8 + field body 4 2 * entrySize (field body 0 1))
  | .tblRebuild _ body => body.length == 4
  | .tblSwap _ body => body.length == 4
  | .addrAssign _ body => body.length == 4
  | .shpApply _ body => body.length == 12
  | .shpGet _ body => body.length == 4
  | .polApply _ body => body.length == 12
  | .polGet _ body => body.length == 4
  | .hwmRead _ body => body.length == 4
  | .tunGet _ body => body.length == 4
  | .tunSet _ body => body.length == 24
  | .tunResetCtx _ body => body.length == 4
  | .brgRead _ body => body.length == 8
  | .brgWrite _ body => 8 ≤ body.length && body.length == 8 + field body 6 2
  | .writeFence _ body => body.length == 4
  | .pwlRead _ body => body.length == 4
  | .elgRead _ body => body.length == 4
  | .timeGet _ body => body.length == 0
  | .timeSet _ body => body.length == 12
  | .trigArm _ body => body.length == 4 + 20 * field body 0 1
  | .trigCancel _ body => body.length == 4
  | .captRead _ body => body.length == 4
  | .readReg _ body => body.length == 4
  | .writeReg _ body => body.length == 8
  | .rmwReg _ body => body.length == 12
  | .readBlk _ body => body.length == 8
  | .writeBlk _ body => 8 ≤ body.length && body.length == 8 + 4 * field body 4 2
  | .rmwBlk _ body => 4 ≤ body.length && body.length == 4 + 12 * field body 0 2
  | .readCtr _ body => body.length == 8
  | .getInfo _ body => body.length == 0
  | .nop _ body => body.length ≤ 64
  | .sessionOpen _ body => body.length == 136
  | .sessionClose _ body => body.length == 0
  | .sessionInfo _ body => body.length == 0
  | .getOrphan _ body => body.length == 4
  | .pdStatus _ body => body.length == 4
  | .pdPortCtl _ body => body.length == 4
  | .pdBudget _ body => body.length == 4
  | .usbPortCtl _ body => body.length == 4
  | .proxyCtl _ body => body.length == 4
  | .dspFlip _ body => body.length == 20
  | .dspStatus _ body => body.length == 4
  | .dspTimingLoad _ body => body.length == 4
  | .efuseCtl _ body => body.length == 4
  | .efuseStatus _ body => body.length == 4
  | .efuseCurve _ body => body.length == 36
  | .segQualify _ body => body.length == 4
  | .pstateSet _ body => body.length == 4
  | .wakeCfg _ body => body.length == 4
  | .imgInfo _ body => body.length == 4
  | .imgWrite _ body => 8 ≤ body.length && body.length == if bit 0 (field body 6 1) then 8 else 8 + 4096
  | .imgDelta _ body => 4 ≤ body.length && (field body 0 1 != 1 || body.length == 12)
  | .imgVerify _ body => body.length == 4
  | .imgActivate _ body => body.length == 8
  | .imgCommit _ body => body.length == 0
  | .imgRevert _ body => body.length == 0
  | .imgLock _ body => body.length == 0
  | .setRead _ body => body.length == 4
  | .setWrite _ body => 4 ≤ body.length && body.length == 4 + field body 2 2
  | .stageWrite _ body => 8 ≤ body.length && body.length == 8 + field body 4 2
  | .ctrClear _ body => body.length == 8
  | .testRun _ body => body.length == 8
  | .testStatus _ body => body.length == 4
  | .logRead _ body => body.length == 8
  | .eyeMargin _ body => body.length == 4
  | _ => true

end Sys2Proof
end

