-- ==== Sys2Proof/Certificates/Slice0/Obligations.lean ====
section
/-! DEFINITION. The statements about the model, one per entry of OBLIGATIONS.json: what a command does, where it completes and what it
leaves unchanged. Readings and choices that a statement rests on are named with their entry in notes/assumptions. -/

open Sys2Proof Sys2Proof.Machine

/-- For every command and state: a step with the command at the front of the queue is exec of it on the state with the queue's rest. On an empty
queue the step answers a next state with an empty queue, the model's clock one nanosecond on, and line time advanced by 2^32 + FADJ modulo
2^96. While the LD sleeps line time stands; in HOLD_SLOW it goes on by a nanosecond of REFCLK until the length of the slow tick is used up.
The idle tick is the model's choice (log 1). -/
def Obligations.StepTakesTheFront : Prop :=
  ((∀ (c : Instr) (rest : List Instr) (s : State), s.pending = c :: rest → step s = exec c { s with pending := rest }) ∧
  ∀ s : State, s.pending = [] → ∃ t, step s = .next t ∧ t.pending = []) ∧
  (∀ s : State, s.pending = [] →
    ∃ t, step s = .next t ∧ t.now = s.now + 1 ∧
      (rd Reg.TIM.STAT.QSTATE s ≠ 4 → ldSleeps s = false → (t.lt : Int) = ((s.lt : Int) + 2 ^ 32 + s.time.fadj) % 2 ^ 96) ∧
      (ldSleeps s = true → t.lt = s.lt) ∧
      (rd Reg.TIM.STAT.QSTATE s = 4 → ldSleeps s = false →
        t.lt = if s.time.interp + 4294967296 ≤ s.time.tickLen then (s.lt + 4294967296) % 79228162514264337593543950336 else s.lt) ∧
      t.pending = [])

/-- For every command i and state s: if i is well-formed (its byte lists have the lengths its row gives them) exec answers a next state; if it
is not, exec faults with illFormed, and nothing else. So any number of steps from a state whose queue holds only well-formed commands is
free of faults and refusals. That an ill-formed argument faults is the model's choice (log 1): no command of the interface spells one. -/
def Obligations.CommandsCompleteIffWellFormed : Prop :=
  (∀ (i : Instr) (s : State),
    (i.wellFormed = true → ∃ t, exec i s = .next t) ∧ (i.wellFormed = false → ∃ m, exec i s = .fault (.illFormed m))) ∧
  (∀ (k : Nat) (s : State), (∀ i ∈ s.pending, i.wellFormed = true) → SafeFor k s)

/-- For every command i and states s and t: if exec of i on s answers t, every part of the state that mayChange i does not list (registers,
counters, interrupt sources, line ports, Tolger links, domains, routing tables, Comb, scheduler, tunnels, bridge, command engine, Deep Comb
memory, line time, triggers, Type-C, proxies, service port, display, Ethernet, host interface, line power, Nurse, tests, images, NOR, OTP)
is what it was. mayChange is defined command by command in Sys2Proof/Safety.lean. -/
def Obligations.EveryCommandHasItsFrame : Prop :=
  ∀ (i : Instr) (s t : State), exec i s = .next t → Only (mayChange i) s t

/-- For every state s with Wf s (all tables, the Deep Comb and the NOR in canonical form, so equal memories are equal data): if step answers t,
then Wf t, OTP slots have only gone from blank to used to revoked and the one-way OTP bits stay set, the variant and the stepping are
unchanged, the queue has lost exactly its front, and neither the model's clock nor its count of free values has gone back. Canonical form,
the clock and the free counter are the model's (logs 1 and 2). -/
def Obligations.EveryStepKeepsTheMachine : Prop :=
  ∀ s t : State, Wf s → step s = .next t →
    Wf t ∧ OtpForward s.otp t.otp ∧ t.variant = s.variant ∧ t.stepB0 = s.stepB0 ∧ t.pending = s.pending.tail ∧ s.now ≤ t.now ∧ s.free ≤ t.free

/-- For REGISTER_WRITE to every register of every block whose write has no row or effect of its own (writeActs lists those that have): each W1S
bit written 1 becomes 1, each W1C bit written 1 becomes 0, RW and RWL bits take the value written, all other bits and registers keep theirs;
a write that IMG_LOCK refuses changes nothing. At an offset that is not a multiple of 4, or in an undefined block, only GLB.STAT.ADDR_ERR,
its source and (undefined block) the first address in GLB.ADDRERR change. Where the access has a status other than ST_OK, nothing changes.
Through the PCIe window the write is that of HOST to the address, is discarded without the endpoint, and only counted where CMD.OPEN_HOST
shuts it out. Notes of an address: log 33. Rules: R18, R20, R290. -/
def Obligations.RegisterWritesStoreByType : Prop :=
  (∀ (req : EntryPoint) (addr : Nat) (v : Word) (d : RegDesc) (s : State), addr < 2 ^ 32 →
    badAddr addr = false → regDesc addr = some d → accStat s addr = ST_OK →
    (lockRefuses s addr d 0xFFFFFFFF#32 = true → exec (.registerWrite req false addr v) s = .next s) ∧
    (lockRefuses s addr d 0xFFFFFFFF#32 = false → writeActs addr = false →
    ∃ t, exec (.registerWrite req false addr v) s = .next t ∧
      (∀ i, i < 32 →
        let old := (regGet s (keyFor req d addr)).getLsbD i
        (regGet t (keyFor req d addr)).getLsbD i =
          (if d.w1s.testBit i && v.getLsbD i then true
          else if d.w1c.testBit i && v.getLsbD i then false
          else if (d.rw ||| d.rwl).testBit i then v.getLsbD i
          else old)) ∧
      RegsBut [keyFor req d addr] s t ∧ Only [.regs] s t)) ∧
  (∀ (req : EntryPoint) (off : Nat) (v : Word) (s : State), off < 2 ^ 28 →
    (tsLives s = false → exec (.registerWrite req true off v) s = .next s) ∧
    (tsLives s = true → off / 0x2000000 % 8 ≠ 1 →
      (bit 0 (rd Reg.CMD.OPEN_HOST.GMASK s) = false → ∃ t, exec (.registerWrite req true off v) s = .next t ∧
        CountsUp (cCMD 7) s t ∧ Only [.ctrs, .srcs, .diag] s t) ∧
      (bit 0 (rd Reg.CMD.OPEN_HOST.GMASK s) = true → badAddr (barAddr off) = true ∨ accStat s (barAddr off) ≠ ST_NO_DIE →
        exec (.registerWrite req true off v) s = exec (.registerWrite .host false (barAddr off) v) s))) ∧
  (∀ (req : EntryPoint) (addr : Nat) (v : Word) (s : State), addr < 2 ^ 32 →
    (addr % 4 ≠ 0 → ∃ t, exec (.registerWrite req false addr v) s = .next t ∧ rd Reg.GLB.STAT.ADDR_ERR t = 1 ∧
      RegsBut [Reg.GLB.STAT.word.addr] s t ∧ SrcsBut [srcADDR_ERR] s t ∧ Only [.regs, .srcs] s t) ∧
    (addr % 4 = 0 → blockRegs (addrSlot addr) (addrBlk addr) = none →
      ∃ t, exec (.registerWrite req false addr v) s = .next t ∧ rd Reg.GLB.STAT.ADDR_ERR t = 1 ∧
        rd Reg.GLB.ADDRERR.ADDR t = (if rd Reg.GLB.ADDRERR.ADDR s = 0 then addr else rd Reg.GLB.ADDRERR.ADDR s) ∧
        RegsBut [Reg.GLB.STAT.word.addr, Reg.GLB.ADDRERR.word.addr] s t ∧ SrcsBut [srcADDR_ERR] s t ∧ Only [.regs, .srcs] s t) ∧
    (badAddr addr = false → accStat s addr ≠ ST_OK → exec (.registerWrite req false addr v) s = .next s))

/-- For every row that is an opcode of the command set, every origin, body and state: if the command may not be dispatched (an ORDER command
waits for earlier ones of its requester) exec changes nothing; if it may and its body has not a length its row allows, it is dispatched and
answered ST_BAD_LEN with an empty body, and nothing else happens. Rules: R264, R278. -/
def Obligations.CommandLengthAndOrder : Prop :=
  ∀ (i : Instr) (o : Origin) (body : List Byte) (s : State), i.opcode = some (o, body) →
    (mayDispatch s o = false → exec i s = .next s) ∧
    (mayDispatch s o = true → i.lenOk = false → exec i s = .next (reply o ST_BAD_LEN [] (dispatch o s)))

/-- For READ_REG, WRITE_REG and RMW_REG with a good body on a plain register of the named blocks: READ_REG answers ST_OK with the word
(write-only bits 0) and changes nothing; WRITE_REG answers ST_OK and changes that register only, RW bits taking the value written; RMW_REG
answers the old word and writes (old and not mask) or (value and mask) in its RW bits. Bad addresses are answered ST_BAD_PARAM (and noted),
an inaccessible word its access status, a locked RWL register ST_DENIED. The note in ADDRERR follows the reading of log 33. Rules: R279. -/
def Obligations.RegisterCommands : Prop :=
  (∀ (o : Origin) (body : List Byte) (d : RegDesc) (s : State), mayDispatch s o = true →
    (body.length = 4 → PlainReg [0x05, 0x07] (field body 0 4) d s → d.rc = 0 →
      exec (.readReg o body) s =
        .next (reply o ST_OK (beBytes 4 (regGet s (keyFor o.ep d (field body 0 4)) &&& ~~~ word d.wo).toNat) (dispatch o s))) ∧
    (body.length = 8 → PlainReg [0x05, 0x07, 0x0E, 0x12, 0x15] (field body 0 4) d s → rdB Reg.GLB.STAT.LOCKED s = false →
      ∃ u, exec (.writeReg o body) s = .next (reply o ST_OK [] u) ∧ RegsBut [keyFor o.ep d (field body 0 4)] s u ∧
        ∀ i, i < 32 → (d.w1s ||| d.w1c).testBit i = false →
          (regGet u (keyFor o.ep d (field body 0 4))).getLsbD i =
            if (d.rw ||| d.rwl).testBit i then (field body 4 4).testBit i else (regGet s (keyFor o.ep d (field body 0 4))).getLsbD i) ∧
    (body.length = 12 → PlainReg [0x05, 0x07] (field body 0 4) d s → rdB Reg.GLB.STAT.LOCKED s = false → d.rc = 0 → d.wo = 0 →
      ∃ u, exec (.rmwReg o body) s =
          .next (reply o ST_OK (beBytes 4 (regGet s (keyFor o.ep d (field body 0 4))).toNat) u) ∧
        RegsBut [keyFor o.ep d (field body 0 4)] s u ∧
        ∀ i, i < 32 → (d.w1s ||| d.w1c).testBit i = false →
          (regGet u (keyFor o.ep d (field body 0 4))).getLsbD i =
            if (d.rw ||| d.rwl).testBit i && (field body 4 4).testBit i then (field body 8 4).testBit i
            else (regGet s (keyFor o.ep d (field body 0 4))).getLsbD i)) ∧
  (∀ (o : Origin) (body : List Byte) (s : State), mayDispatch s o = true →
    (body.length = 4 → badAddr (field body 0 4) = true →
      exec (.readReg o body) s = .next (reply o ST_BAD_PARAM [] (noteBad (field body 0 4) (dispatch o s)))) ∧
    (body.length = 8 → badAddr (field body 0 4) = true →
      exec (.writeReg o body) s = .next (reply o ST_BAD_PARAM [] (noteBad (field body 0 4) (dispatch o s)))) ∧
    (body.length = 4 → badAddr (field body 0 4) = false → accStat s (field body 0 4) ≠ ST_OK →
      exec (.readReg o body) s = .next (reply o (accStat s (field body 0 4)) [] (dispatch o s))) ∧
    (∀ d, body.length = 8 → badAddr (field body 0 4) = false → accStat s (field body 0 4) = ST_OK → regDesc (field body 0 4) = some d →
      d.rwl ≠ 0 → d.rwl < 2 ^ 32 → rdB Reg.GLB.STAT.LOCKED s = true →
      exec (.writeReg o body) s = .next (reply o ST_DENIED [] (dispatch o s))))

/-- READ_BLK, WRITE_BLK and RMW_BLK of n words within their limits answer with a status and how many words were done, ST_OK exactly if all n; a
read returns that many words. READ_CTR of one counter answers its 64-bit value and SAT flag from one snapshot and clears it in
read-and-clear mode only. GET_INFO answers the identity words, capabilities, address, role and status words. NOP echoes its body. Rules:
R278, R279, R466. -/
def Obligations.BlockCommandsAndInfo : Prop :=
  ∀ (o : Origin) (body : List Byte) (s : State), mayDispatch s o = true →
    (∀ n (d : Nat → RegDesc), field body 4 2 = n → body.length = 8 → 1 ≤ n → n ≤ 1024 → zeroAt body 6 2 = true →
      (∀ i, i < n → PlainReg [0x05, 0x07] (field body 0 4 + 4 * i) (d i) s ∧ (d i).rc = 0) →
      exec (.readBlk o body) s = .next (reply o ST_OK (beBytes 2 n ++ [0, 0] ++ wordsBytes ((List.range n).map fun i =>
        regGet s (keyFor o.ep (d i) (field body 0 4 + 4 * i)) &&& ~~~ word (d i).wo)) (dispatch o s))) ∧
    (∀ n, field body 4 2 = n → body.length = 8 → 1 ≤ n → n ≤ 1024 → zeroAt body 6 2 = true →
      ∃ st l u, exec (.readBlk o body) s = .next (reply o st (beBytes 2 l.length ++ [0, 0] ++ wordsBytes l) u) ∧ l.length ≤ n ∧
        (st = ST_OK ↔ l.length = n) ∧
        (st ≠ ST_OK → ∃ x, (readAt o.ep false (field body 0 4 + 4 * l.length) x).1 = st)) ∧
    (∀ n (d : Nat → RegDesc), field body 4 2 = n → body.length = 8 + 4 * n → 1 ≤ n → n ≤ 1024 → zeroAt body 6 2 = true →
      rdB Reg.GLB.STAT.LOCKED s = false → (∀ i, i < n → PlainReg [0x05, 0x07] (field body 0 4 + 4 * i) (d i) s) →
      exec (.writeBlk o body) s = .next (reply o ST_OK (beBytes 2 n ++ [0, 0]) ((List.range n).foldl (fun u i =>
        (writeAt o.ep false (field body 0 4 + 4 * i) 0xFFFFFFFF#32 (word (field body (8 + 4 * i) 4)) u).2) (dispatch o s)))) ∧
    (∀ n, field body 4 2 = n → body.length = 8 + 4 * n → 1 ≤ n → n ≤ 1024 → zeroAt body 6 2 = true →
      ∃ st k u, exec (.writeBlk o body) s = .next (reply o st (beBytes 2 k ++ [0, 0]) u) ∧ k ≤ n ∧ (st = ST_OK ↔ k = n)) ∧
    (∀ n (d : Nat → RegDesc), field body 0 2 = n → body.length = 4 + 12 * n → 1 ≤ n → n ≤ 512 → zeroAt body 2 2 = true →
      rdB Reg.GLB.STAT.LOCKED s = false →
      (∀ i, i < n → PlainReg [0x05, 0x07] (field body (4 + 12 * i) 4) (d i) s ∧ (d i).rc = 0 ∧ (d i).wo = 0) →
      ∃ l, l.length = n ∧ exec (.rmwBlk o body) s = .next (reply o ST_OK (beBytes 2 n ++ [0, 0] ++ wordsBytes l)
        ((List.range n).foldl (fun u i => (rmwAt o.ep (field body (4 + 12 * i) 4) (word (field body (8 + 12 * i) 4))
          (word (field body (12 + 12 * i) 4)) u).2.2) (dispatch o s)))) ∧
    (∀ n, field body 0 2 = n → body.length = 4 + 12 * n → 1 ≤ n → n ≤ 512 → zeroAt body 2 2 = true →
      ∃ st l u, exec (.rmwBlk o body) s = .next (reply o st (beBytes 2 l.length ++ [0, 0] ++ wordsBytes l) u) ∧ l.length ≤ n ∧
        (st = ST_OK ↔ l.length = n)) ∧
    (∀ n a, field body 0 4 = a → field body 4 2 = n → body.length = 8 → 1 ≤ n → n ≤ 256 → zeroAt body 6 2 = true → a % 8 = 0 →
      0x80000 ≤ addrOff a → addrOff a + 8 * n ≤ 0x100000 →
      (∀ i, i < n → badAddr (a + 8 * i) = false ∧ accStat s (a + 8 * i) = ST_OK) →
      exec (.readCtr o body) s = .next (reply o ST_OK (beBytes 2 n ++ [0, 0] ++ ((List.range n).map fun i =>
          beBytes 8 (if ctrAt (a + 8 * i) then (ctrGet s (a + 8 * i)).v else 0) ++
            [if ctrAt (a + 8 * i) && (ctrGet s (a + 8 * i)).sat then 1 else 0, 0, 0, 0]).flatten)
        ((List.range n).foldl (fun u i => (takeCtr (a + 8 * i) u).2.2) (dispatch o s)))) ∧
    (body = [] → exec (.getInfo o body) s = .next (reply o ST_OK (beBytes 4 (glbId s).toNat ++ beBytes 4 (glbCap s).toNat ++
      beBytes 2 (ownAddr s) ++ beBytes 1 (role s + ofBool (rdB Reg.GLB.STAT.LOCKED s) * 64 + ofBool (compat s) * 128) ++ [0] ++
      beBytes 4 (regGet s (Reg.IMG.VER.word 0).addr).toNat) (dispatch o s))) ∧
    (body.length ≤ 64 → exec (.nop o body) s = .next (reply o ST_OK body (dispatch o s)))

/-- For every slot and direction with its link up: a good cell leaves the wire of its channel and reaches the other end, that channel's failures
reset; a bad one counts a failure of its channel and stays for replay, and the eighth in a row fails the link (state 4, LINKFAIL bit,
nothing left waiting or in flight toward the die); flits likewise, of which at most 16 wait for replay. A NAK puts the first failed cell or
flit on the wire again and counts a replay. A credit is returned only where the receiver owes one. A beat pair sends the oldest waiting cell
of the channel whose turn it is, for one credit. TOLGER_RELINK takes a link that trains, or a failed one that may relink, to up. Which
channel a frame's cells take is the model's reading (log 20). Rules: R23, R24, R25, R26, R437. -/
def Obligations.CellsCrossTheTolgerLinks : Prop :=
  (∀ (slot : Slot) (toLd : Bool) (ch : Fin 2) (f : TolgerCell) (rest : List TolgerCell) (s : State), linkUp s slot = true →
    nextOnWire (tolger s slot toLd) ch = some (f, rest) →
    (∃ t, exec (.tolgerCellReceive slot toLd ch true) s = .next t ∧
      (tolger t slot toLd).flight = rest ∧ cellFailsOf (tolger t slot toLd) ch = 0 ∧
      (∀ c, c ≠ ch.val → cellFailsOf (tolger t slot toLd) c = cellFailsOf (tolger s slot toLd) c) ∧
      (∀ c, creditOfCh (tolger t slot toLd) c = creditOfCh (tolger s slot toLd) c) ∧
      (toLd = true → holdOf t (2 * slot + ch) = holdOf s (2 * slot + ch) ++ [f.held]) ∧
      (toLd = false → Tab.get noCells t.tuns.arrived (2 * slot + ch) =
        Tab.get noCells s.tuns.arrived (2 * slot + ch) ++ [(f.held.cell, f.inp, termCtxOf s f.held.cell)]) ∧
      Only [.tolger, .comb, .tuns] s t) ∧
    (cellFailsOf (tolger s slot toLd) ch + 1 < 8 →
      ∃ t, exec (.tolgerCellReceive slot toLd ch false) s = .next t ∧
        cellFailsOf (tolger t slot toLd) ch = cellFailsOf (tolger s slot toLd) ch + 1 ∧
        (∀ c, c ≠ ch.val → cellFailsOf (tolger t slot toLd) c = cellFailsOf (tolger s slot toLd) c) ∧
        (tolger t slot toLd).flight = offWire ch (tolger s slot toLd).flight ∧
        nextOnWire (tolger t slot toLd) ch = none ∧
        Only [.tolger, .ctrs, .srcs, .diag, .regs] s t) ∧
    (8 ≤ cellFailsOf (tolger s slot toLd) ch + 1 →
      ∃ t, exec (.tolgerCellReceive slot toLd ch false) s = .next t ∧ linkState t slot = 4 ∧
        bit slot (rd Reg.GLB.STAT.LINKFAIL t) = true ∧ (tolger t slot false).waiting = [] ∧ (tolger t slot false).flight = [])) ∧
  (∀ (slot : Slot) (toLd : Bool) (flit : BitVec 64) (s : State),
    (linkUp s slot = true → ∃ t, exec (.tolgerFlitReceive slot toLd ⟨flit, true⟩) s = .next t ∧
      tolger t slot toLd = { tolger s slot toLd with flits := flitPassed (tolger s slot toLd).flits, flitFails := 0 } ∧
      Only [.tolger] s t) ∧
    (linkUp s slot = true → (tolger s slot toLd).flits.length < 16 → (tolger s slot toLd).flitFails + 1 < 8 →
      ∃ t, exec (.tolgerFlitReceive slot toLd ⟨flit, false⟩) s = .next t ∧
      tolger t slot toLd =
        { tolger s slot toLd with flits := flitFailed flit (tolger s slot toLd).flits, flitFails := (tolger s slot toLd).flitFails + 1 } ∧
      rd (Reg.DIE.LSTAT.STATE slot) t = 3 ∧ Only [.tolger, .ctrs, .srcs, .diag, .regs] s t) ∧
    (linkUp s slot = true → (tolger s slot toLd).flits.length < 16 → 8 ≤ (tolger s slot toLd).flitFails + 1 →
      ∃ t, exec (.tolgerFlitReceive slot toLd ⟨flit, false⟩) s = .next t ∧
      linkState t slot = 4 ∧ bit slot (rd Reg.GLB.STAT.LINKFAIL t) = true ∧
      (tolger t slot false).waiting = [] ∧ (tolger t slot false).flight = []) ∧
    (linkUp s slot = true → (tolger s slot toLd).flight.any (fun f => !f.wire) = true → compat s = false →
      (ctrGet s (cDIE slot 2)).sat = false → (ctrGet s (cDIE slot 2)).v + 1 < 2 ^ 64 →
      ∃ t, exec (.tolgerNak slot toLd true) s = .next t ∧ ctrGet t (cDIE slot 2) = { v := (ctrGet s (cDIE slot 2)).v + 1, sat := false } ∧
        (tolger t slot toLd).flight = updFirst (fun f => !f.wire) (fun f => { f with wire := true }) (tolger s slot toLd).flight ∧
        (tolger t slot toLd).flits = (tolger s slot toLd).flits ∧ CtrsBut [cDIE slot 2] s t ∧ Only [.tolger, .ctrs] s t) ∧
    (linkUp s slot = true → (tolger s slot toLd).flits.any (fun x => !x.2) = true → compat s = false →
      (ctrGet s (cDIE slot 2)).sat = false → (ctrGet s (cDIE slot 2)).v + 1 < 2 ^ 64 →
      ∃ t, exec (.tolgerNak slot toLd false) s = .next t ∧ ctrGet t (cDIE slot 2) = { v := (ctrGet s (cDIE slot 2)).v + 1, sat := false } ∧
        (tolger t slot toLd).flits = updFirst (fun x => !x.2) (fun x => (x.1, true)) (tolger s slot toLd).flits ∧
        (tolger t slot toLd).flight = (tolger s slot toLd).flight ∧ CtrsBut [cDIE slot 2] s t ∧ Only [.tolger, .ctrs] s t) ∧
    (∀ ch : Fin 2, owedOf (tolger s slot toLd) ch ≠ 0 → ∃ t, exec (.tolgerCreditReturn slot toLd ch) s = .next t ∧
      creditOfCh (tolger t slot toLd) ch = creditOfCh (tolger s slot toLd) ch + 1 ∧
      owedOf (tolger t slot toLd) ch + 1 = owedOf (tolger s slot toLd) ch ∧
      (∀ c, c ≠ ch.val → creditOfCh (tolger t slot toLd) c = creditOfCh (tolger s slot toLd) c) ∧
      (tolger t slot toLd).flight = (tolger s slot toLd).flight ∧ (tolger t slot toLd).waiting = (tolger s slot toLd).waiting ∧
      Only [.tolger] s t) ∧
    (∀ ch : Fin 2, owedOf (tolger s slot toLd) ch = 0 → exec (.tolgerCreditReturn slot toLd ch) s = .next s) ∧
    (linkState s slot = 2 → ∃ t, exec (.tolgerRelink slot) s = .next t ∧ linkState t slot = 3 ∧
      RegsBut [(Reg.DIE.LSTAT.word slot).addr] s t ∧ Only [.regs] s t) ∧
    (relinksFailed s slot = true → ∃ t, exec (.tolgerRelink slot) s = .next t ∧ linkState t slot = 3 ∧
      bit slot (rd Reg.GLB.STAT.LINKFAIL t) = false ∧ Only [.regs, .tolger] s t)) ∧
  (∀ (slot : Slot) (toLd : Bool) (c i : Nat) (h : Held) (l : List (Nat × Held)) (s : State), linkUp s slot = true →
    (tolger s slot toLd).flight.length < 32 → c < 2 → waitingOf (tolger s slot toLd) c = (i, h) :: l →
    creditOfCh (tolger s slot toLd) c ≠ 0 →
    (c = (tolger s slot toLd).last % 2 → canSend (tolger s slot toLd) (1 - c) = false) →
    ∃ t, exec (.tolgerBeatPair slot toLd) s = .next t ∧
      (tolger t slot toLd).flight = (tolger s slot toLd).flight ++ [{ ch := c, inp := i, held := h, wire := true }] ∧
      waitingOf (tolger t slot toLd) c = l ∧ creditOfCh (tolger t slot toLd) c = creditOfCh (tolger s slot toLd) c - 1 ∧
      (tolger t slot toLd).last = c ∧
      waitingOf (tolger t slot toLd) (1 - c) = waitingOf (tolger s slot toLd) (1 - c) ∧
      creditOfCh (tolger t slot toLd) (1 - c) = creditOfCh (tolger s slot toLd) (1 - c) ∧ Only [.tolger] s t)

/-- For a good DOMAIN_QUIESCE of a domain IN_SERVICE, not through the domain itself: the domain is QUIESCING with the drain set of that moment,
FORCE as given and the requester waiting; in any other state ST_BUSY; S1 with clients that depend on it ST_BUSY_IN_SERVICE with their mask.
When the set is drained the domain is QUIESCED; before that DRAIN_COMPLETE changes nothing; at the limit a forced domain is QUIESCED with
nothing left to drain, any other returns to IN_SERVICE and the other domains stay. Rules: R41, R43. -/
def Obligations.DomainsQuiesceAndDrain : Prop :=
  (∀ (o : Origin) (body : List Byte) (d f : Nat) (s : State), mayDispatch s o = true → body.length = 8 → field body 0 1 = d →
    field body 1 1 = f → f ≤ 1 → zeroAt body 2 2 = true → field body 4 4 ≤ 4000000 → domCheck s d = ST_OK →
    throughDomain o d = false →
    (domSt s d = .inService → beingActivated s d = false → (d = 0x11 → s1Deps s = 0) →
      ∃ t, exec (.domainQuiesce o body) s = .next t ∧ dom t d = ⟨.quiescing, drainSet s d, f == 1, some o, false⟩ ∧
        (∀ c, c ≠ d → dom t c = dom s c)) ∧
    (domSt s d ≠ .inService → exec (.domainQuiesce o body) s = .next (reply o ST_BUSY [] (dispatch o s))) ∧
    (d = 0x11 → domSt s d = .inService → s1Deps s ≠ 0 →
      exec (.domainQuiesce o body) s = .next (reply o ST_BUSY_IN_SERVICE (beBytes 4 (s1Deps s)) (dispatch o s)))) ∧
  (∀ (d : Nat) (s : State), domSt s d = .quiescing → beingActivated s d = false →
    (drained s d = true → ∃ t, exec (.drainComplete d) s = .next t ∧ dom t d = { dom s d with st := .quiesced, force := false, waiter := none, drain := [] }) ∧
    (drained s d = false → exec (.drainComplete d) s = .next s) ∧
    (drained s d = false → (dom s d).force = true → ∃ t, exec (.drainLimitExpiry d) s = .next t ∧ domSt t d = .quiesced ∧ (dom t d).drain = []) ∧
    (drained s d = false → (dom s d).force = false → ∃ t, exec (.drainLimitExpiry d) s = .next t ∧ dom t d = Domain.reset .inService ∧
      (∀ c, c ≠ d → dom t c = dom s c)))

/-- A QUIESCED domain is reset (RESETTING, requester waiting) and returns to QUIESCED at the end of the reset time; any other state answers
ST_BUSY. DOMAIN_RETURN of a die gives RETURNING with its Tolger link training and its directions begun again (a link in LINK_FAIL stays
there until it relinks), and IN_SERVICE once the link is up; on timeout the domain is QUIESCED again and no other changes; a line port
returns at once. DOMAIN_STATUS answers the state code. LD_WARM_RESET closes all sessions and commands, and keeps Deep Comb memory and the
variant. What a reset leaves beyond the spec's words: log 38. Rules: R44, R283, R437, R444. -/
def Obligations.DomainsResetAndReturn : Prop :=
  (∀ (o : Origin) (body : List Byte) (d : Nat) (s : State), mayDispatch s o = true → body.length = 4 → field body 0 1 = d →
    zeroAt body 1 3 = true → domCheck s d = ST_OK →
    (throughDomain o d = false → domSt s d = .quiesced → beingActivated s d = false →
      ∃ t, exec (.domainReset o body) s = .next t ∧ dom t d = ⟨.resetting, [], false, some o, true⟩) ∧
    (throughDomain o d = false → domSt s d ≠ .quiesced → exec (.domainReset o body) s = .next (reply o ST_BUSY [] (dispatch o s))) ∧
    (domSt s d = .quiesced → testOn s d = false → 0x12 ≤ d →
      ∃ t, exec (.domainReturn o body) s = .next t ∧ dom t d = { dom s d with st := .returning, waiter := some o } ∧
        (linkState s (d - 0x10) = 4 → t.tolger = s.tolger ∧ linkState t (d - 0x10) = 4) ∧
        (linkState s (d - 0x10) ≠ 4 → linkState t (d - 0x10) = 2 ∧
          tolger t (d - 0x10) false = relinkDir (tolger s (d - 0x10) false)
            (fun ch => (Tab.get noCells s.tuns.arrived (2 * (d - 0x10) + ch)).length) ∧
          tolger t (d - 0x10) true = relinkDir (tolger s (d - 0x10) true) (fun ch => (holdOf s (2 * (d - 0x10) + ch)).length))) ∧
    (domSt s d = .quiesced → testOn s d = false → d < 4 →
      exec (.domainReturn o body) s = .next (reply o ST_OK [] (returnLine d (dispatch o s)))) ∧
    exec (.domainStatus o body) s = .next (reply o ST_OK (beBytes 1 (domCode (domSt s d)) ++ [0, 0, 0] ++
      beBytes 4 (if d = 0x11 then s1Deps s else 0)) (dispatch o s))) ∧
  (∀ (d : Nat) (s : State),
    (domSt s d = .resetting → beingActivated s d = false →
      ∃ t, exec (.resetTimeEnd d) s = .next t ∧ dom t d = { dom s d with st := .quiesced, waiter := none } ∧
        (d = 0x11 → rd Reg.DCM.STAT.TRAINED t = 1)) ∧
    (domSt s d = .returning → 0x12 ≤ d → d ≤ 0x17 → linkUp s (d - 0x10) = true →
      ∃ t, exec (.returningComplete d) s = .next t ∧ dom t d = Domain.reset .inService) ∧
    (domSt s 0x11 = .returning → ∃ t, exec (.returningComplete 0x11) s = .next t ∧ dom t 0x11 = Domain.reset .inService) ∧
    (domSt s d = .returning → 0x11 ≤ d → ∃ t, exec (.returnTimeout d) s = .next t ∧
      dom t d = { dom s d with st := .quiesced, waiter := none } ∧ ∀ c, c ≠ d → dom t c = dom s c) ∧
    ∀ o, mayDispatch s o = true →
      ∃ t, exec (.ldWarmReset o []) s = .next t ∧ t.cmd.sessions = [] ∧ t.cmd.flights = [] ∧ t.deep = s.deep ∧ t.variant = s.variant)

/-- The first DOMAIN_QUIESCE of a domain IN_SERVICE proceeds: the domain is QUIESCING and its requester waits, no other domain changes. While it
is QUIESCING, another DOMAIN_QUIESCE of it, from any entry point, is answered ST_BUSY and changes nothing else. A TEST_RUN of a disruptive
test (0x10, 0x11, 0x12) on a domain that is not QUIESCED starts nothing: the tests are what they were. Rules: R43. -/
def Obligations.OneQuiesceAtATime : Prop :=
  ∀ (o : Origin) (body : List Byte) (d : Nat) (s : State),
    (mayDispatch s o = true → body.length = 8 → field body 0 1 = d → field body 1 1 ≤ 1 → zeroAt body 2 2 = true → field body 4 4 ≤ 4000000 →
      domCheck s d = ST_OK → throughDomain o d = false →
      (domSt s d = .inService → beingActivated s d = false → d ≠ 0x11 →
        ∃ t, exec (.domainQuiesce o body) s = .next t ∧ domSt t d = .quiescing ∧ (dom t d).waiter = some o ∧ ∀ c, c ≠ d → dom t c = dom s c) ∧
      (domSt s d = .quiescing → exec (.domainQuiesce o body) s = .next (reply o ST_BUSY [] (dispatch o s)))) ∧
    (field body 0 1 ∈ [0x10, 0x11, 0x12] → field body 1 1 = d → domSt s d ≠ .quiesced →
      ∃ t, exec (.testRun o body) s = .next t ∧ t.tests = s.tests)

/-- Enabling a booted, returned port starts TRAINING at P1 with CFG and the retired lanes as they then are, disabling gives DISABLED. A word
lock of a lane in use in P1 gives P2 and a CAP word to send; CAP words in P2 are counted, after three the port sends ACK, and with an ACK
sent and one received it takes the negotiated mode, FEC, width and lanes and enters P3, or goes DOWN to wait for a restart where nothing is
common. PRBS lock gives P4 with signal on its lanes, alignment P5 with frames at 0 and, after full training, a fresh link; a phase timeout
goes back to P1 and raises TRAIN_FAIL. The state shown while INCOMPAT waits is the model's reading (log 13). Rules: R68, R70, R71, R90, R91,
R115. -/
def Obligations.LinePortsTrain : Prop :=
  (∀ (p : LPort) (s : State),
    (accStat s (Reg.HLP.CFG.word p).addr = ST_OK → rdB (Reg.HLP.CFG.EN p) s = false → rdB Reg.GLB.STAT.BOOTED s = true →
      bypassHeld s p = false → domSt s p = .inService →
      ∃ t, exec (.portEnable p true) s = .next t ∧ rdB (Reg.HLP.CFG.EN p) t = true ∧ lstate t p = TRAINING ∧
        rd (Reg.HLP.STAT.PHASE p) t = 1 ∧
        (lp t p).cfg = regGet t (Reg.HLP.CFG.word p).addr ∧ (lp t p).excluded = rd (Reg.HLP.LRET.RETIRED p) s ∧
        RegsBut [(Reg.HLP.CFG.word p).addr, (Reg.HLP.STAT.word p).addr, (Reg.TIM.PRTT.word p).addr] s t ∧
        ∀ m, m < 4 → m ≠ p.val → lp t m = { lp s m with fifo := dropXc p (lp s m).fifo }) ∧
    (accStat s (Reg.HLP.CFG.word p).addr = ST_OK → rdB (Reg.HLP.CFG.EN p) s = true →
      ∃ t, exec (.portEnable p false) s = .next t ∧ rdB (Reg.HLP.CFG.EN p) t = false ∧ lstate t p = DISABLED) ∧
    (∀ lane : Fin 4, bit lane (lp s p).excluded = true → exec (.wordLock p lane) s = .next s) ∧
    (∀ lane : Fin 4, lstate s p = TRAINING → rd (Reg.HLP.STAT.PHASE p) s = 1 → bit lane (lp s p).excluded = false →
      ∃ t, exec (.wordLock p lane) s = .next t ∧ rd (Reg.HLP.STAT.PHASE p) t = 2 ∧ lstate t p = TRAINING ∧
        (lp t p).trainLane = lane ∧ (lp t p).osq = [capWord s p false] ∧
        RegsBut [(Reg.HLP.STAT.word p).addr] s t ∧ PortsBut p s t) ∧
    (lstate s p = TRAINING ∨ (lstate s p = EXITING ∧ (lp s p).exitFrom ≠ HUM) → rd (Reg.HLP.STAT.PHASE p) s = 3 →
      ∃ t, exec (.prbsLock p) s = .next t ∧ rd (Reg.HLP.STAT.PHASE p) t = 4 ∧ lstate t p = lstate s p ∧
        rd (Reg.HLP.STAT.SD p) t = rd (Reg.HLP.STAT.LANES p) s ∧ lp t p = { lp s p with txFrame := 0 } ∧ PortsBut p s t ∧
        RegsBut [(Reg.HLP.STAT.word p).addr] s t ∧ Only [.regs, .ports] s t) ∧
    (lstate s p = TRAINING → rd (Reg.HLP.STAT.PHASE p) s = 4 →
      ∃ t, exec (.alignLast p) s = .next t ∧ rd (Reg.HLP.STAT.PHASE p) t = 5 ∧ lstate t p = TRAINING ∧ (lp t p).txFrame = 0 ∧
        (lp t p).rxFrame = 0 ∧ (lp t p).tx = TxLink.reset ∧
        (lp t p).osq = (lp s p).osq ++ (oswRESYNC 1 0 0 0 :: [0, 1, 2, 3].map fun cc => oswCREDIT cc (poolOf s p cc) 0)) ∧
    (lstate s p = EXITING → rd (Reg.HLP.STAT.PHASE p) s = 4 →
      ∃ t, exec (.alignLast p) s = .next t ∧ rd (Reg.HLP.STAT.PHASE p) t = 5 ∧ (lp t p).tx = (lp s p).tx ∧ Only [.regs, .ports] s t) ∧
    (lstate s p = TRAINING → ∃ t, exec (.trainingPhaseTimeout p) s = .next t ∧ lstate t p = TRAINING ∧
      rd (Reg.HLP.STAT.PHASE p) t = 1 ∧ (srcAlive s (srcTRAIN_FAIL p) = true → srcSt s (srcTRAIN_FAIL p) = .idle →
        srcSt t (srcTRAIN_FAIL p) = .pending)) ∧
    ((lp s p).restartWait = true → rdB (Reg.HLP.CFG.EN p) s = true → bypassHeld s p = false →
      ∃ t, exec (.trainRestartTimer p) s = .next t ∧ lstate t p = TRAINING ∧ rd (Reg.HLP.STAT.PHASE p) t = 1 ∧
        (lp t p).restartWait = false)) ∧
  (∀ (p : LPort) (b : BitVec 48) (s : State), lstate s p = TRAINING → rd (Reg.HLP.STAT.PHASE p) s = 2 →
    ((lp s p).capRx < 3 → (lp s p).capAckTx = false → ∃ t, exec (.cap p b) s = .next t ∧ (lp t p).capRx = (lp s p).capRx + 1 ∧
      (lp t p).osq = [capWord s p false] ∧ (lp t p).capAckRx = ((lp s p).capAckRx || bit 36 b.toNat) ∧
      rd (Reg.HLP.STAT.PHASE p) t = 2 ∧ PortsBut p s t ∧ Only [.ports] s t) ∧
    (3 ≤ (lp s p).capRx → (lp s p).capAckTx = false ∨ (bit 36 b.toNat = false ∧ (lp s p).capAckRx = false) →
      ∃ t, exec (.cap p b) s = .next t ∧
      (lp t p).osq = [capWord s p true] ∧ (lp t p).capAckRx = ((lp s p).capAckRx || bit 36 b.toNat) ∧
      rd (Reg.HLP.STAT.PHASE p) t = 2 ∧ PortsBut p s t ∧ Only [.ports] s t) ∧
    (∀ nrz f w m, (lp s p).capAckTx = true → bit 36 b.toNat = true ∨ (lp s p).capAckRx = true →
      negotiate s p b.toNat = some (nrz, f, w, m) → ∃ t, exec (.cap p b) s = .next t ∧ rd (Reg.HLP.STAT.PHASE p) t = 3 ∧
        lstate t p = TRAINING ∧ rd (Reg.HLP.STAT.MODE_CUR p) t = ofBool nrz ∧ rd (Reg.HLP.STAT.FEC_CUR p) t = f % 4 ∧
        rd (Reg.HLP.STAT.WIDTH_CUR p) t = w % 4 ∧ rd (Reg.HLP.STAT.LANES p) t = m % 16 ∧ (lp t p).farAddr = bits 31 18 b.toNat ∧
        RegsBut [(Reg.HLP.STAT.word p).addr] s t ∧ PortsBut p s t) ∧
    ((lp s p).capAckTx = true → bit 36 b.toNat = true ∨ (lp s p).capAckRx = true → negotiate s p b.toNat = none →
      ∃ t, exec (.cap p b) s = .next t ∧ lstate t p = DOWN ∧ (lp t p).restartWait = true ∧
        (srcAlive s (srcTRAIN_FAIL p) = true → srcSt s (srcTRAIN_FAIL p) = .idle → srcSt t (srcTRAIN_FAIL p) = .pending)))

/-- An idle timeout sends STATE_REQ of its state where entry is allowed; a STATE_REQ is answered ACK (entering after the word) or NAK; two
crossing requests for one state enter it; an ACK or the crossing enters, an ACK that comes when a word or cell is pending or MAXSTATE is
shallower enters and leaves at once, a NAK or the answer timeout drops the request, stale answers change nothing. WAKE starts the exit
(EXITING, WAKE word first), its end gives ACTIVE, its timeout full training. A shallower MAXSTATE and a WAGGLE for this node start the exit.
Signal loss on a trained port gives TRAINING at P1 with a fresh link, or DOWN where the port is disabled. Rules: R71, R72, R73, R74, R75,
R76, R79, R82, R84, R85, R116. -/
def Obligations.LineStatesAreEnteredAndLeft : Prop :=
  (∀ (p : LPort) (s : State),
    (∀ k : Fin 4, (k = 1 → entryOk s p 1 = true → (lp s p).reqSent = none → ∃ t, exec (.humIdleTimeout p) s = .next t ∧
        (lp t p).reqSent = some 1 ∧ (lp t p).osq = (lp s p).osq ++ [oswSTATE 0x04 1] ∧ PortsBut p s t ∧ Only [.ports] s t) ∧
      (k = 2 → entryOk s p 2 = true → (lp s p).reqSent = none → ∃ t, exec (.dozeIdleTimeout p) s = .next t ∧
        (lp t p).reqSent = some 2 ∧ (lp t p).osq = (lp s p).osq ++ [oswSTATE 0x04 2] ∧ PortsBut p s t ∧ Only [.ports] s t) ∧
      (k = 3 → entryOk s p 3 = true → (lp s p).reqSent = none → ∃ t, exec (.dormantIdleTimeout p) s = .next t ∧
        (lp t p).reqSent = some 3 ∧ (lp t p).osq = (lp s p).osq ++ [oswSTATE 0x04 3] ∧ PortsBut p s t ∧ Only [.ports] s t) ∧
      ((lp s p).reqSent = none → entryOk s p k = true → idleOk s p k = true → holdsWord s p = false →
        ∃ t, exec (.stateReq p k) s = .next t ∧ (lp t p).enterAfter = some k.val ∧
          (lp t p).osq = (lp s p).osq ++ [oswSTATE 0x05 k] ∧ PortsBut p s t ∧ Only [.ports] s t) ∧
      ((lp s p).reqSent = none → (entryOk s p k && idleOk s p k && !holdsWord s p) = false → trained s p = true →
        ∃ t, exec (.stateReq p k) s = .next t ∧ (lp t p).osq = (lp s p).osq ++ [oswSTATE 0x06 k] ∧ PortsBut p s t ∧ Only [.ports] s t) ∧
      ((lp s p).reqSent = some k.val → pendingOut s p = false → k.val ≤ rd (Reg.HLP.CFG.MAXSTATE p) s →
        (∃ t, exec (.stateReq p k) s = .next t ∧ lstate t p = 3 + k ∧ (lp t p).reqSent = none) ∧
        (∃ t, exec (.stateAck p k) s = .next t ∧ lstate t p = 3 + k ∧ (lp t p).reqSent = none ∧ (lp t p).enterAfter = none)) ∧
      ((lp s p).reqSent = some k.val → k ≠ 0 → pendingOut s p = true ∨ rd (Reg.HLP.CFG.MAXSTATE p) s < k.val →
        ∃ t, exec (.stateAck p k) s = .next t ∧ lstate t p = EXITING ∧ (lp t p).exitFrom = 3 + k ∧ (lp t p).reqSent = none) ∧
      ((lp s p).reqSent = some k.val →
        (∃ t, exec (.stateNak p k) s = .next t ∧ lstate t p = lstate s p ∧ (lp t p).reqSent = none ∧ PortsBut p s t ∧ Only [.ports] s t)) ∧
      ((lp s p).reqSent ≠ some k.val → exec (.stateAck p k) s = .next s ∧ exec (.stateNak p k) s = .next s)) ∧
    (∃ t, exec (.stateAnswerTimeout p) s = .next t ∧ (lp t p).reqSent = none ∧ PortsBut p s t ∧ Only [.ports] s t)) ∧
  (∀ (p : LPort) (s : State),
    (asleep s p = true → ∃ t, exec (.wake p) s = .next t ∧ lstate t p = EXITING ∧ (lp t p).exitFrom = lstate s p ∧
      (lp t p).osq = oswWAKE :: (lp s p).osq ∧ (lp t p).reqSent = none ∧
      (lp t p).exitAt = s.now - (if lstate s p = DORMANT then 2000 else if lstate s p = DOZE then 100 else 0) ∧
      rd (Reg.HLP.STAT.PHASE p) t = 0 ∧ RegsBut [(Reg.HLP.STAT.word p).addr] s t ∧ PortsBut p s t) ∧
    (lstate s p = EXITING → ∃ t, exec (.exitComplete p) s = .next t ∧ lstate t p = ACTIVE ∧ rd (Reg.HLP.STAT.PHASE p) t = 0 ∧
      (lp t p).exitFrom = 0 ∧ ((lp s p).exitFrom = HUM → (lp t p).osq = (lp s p).osq) ∧
      ((lp s p).exitFrom ≠ HUM → (lp t p).osq = (lp s p).osq ++ [lpwrWord s p]) ∧
      RegsBut [(Reg.HLP.STAT.word p).addr] s t ∧ PortsBut p s t) ∧
    (lstate s p = EXITING → rdB (Reg.HLP.CFG.EN p) s = true → bypassHeld s p = false →
      ∃ t, exec (.exitTimeout p) s = .next t ∧ lstate t p = TRAINING ∧ rd (Reg.HLP.STAT.PHASE p) t = 1 ∧ (lp t p).tx = TxLink.reset) ∧
    (∀ m : Fin 4, accStat s (Reg.HLP.CFG.word p).addr = ST_OK →
      ∃ t, exec (.maxstateWrite p m) s = .next t ∧ rd (Reg.HLP.CFG.MAXSTATE p) t = m ∧
        lstate t p = (if asleep s p = true ∧ 3 + m.val < lstate s p then EXITING else lstate s p) ∧ PortsBut p s t) ∧
    (∀ dst hops, dst.toNat = ownAddr s ∨ hops = 0#6 → ∃ t, exec (.waggle p dst hops) s = .next t ∧
      lstate t p = (if asleep s p then EXITING else lstate s p) ∧ PortsBut p s t) ∧
    (∀ all, trained s p = true → lstate s p ≠ DORMANT → rdB (Reg.HLP.CFG.EN p) s = true → bypassHeld s p = false →
      ∃ t, exec (.signalDetectLoss p all) s = .next t ∧ lstate t p = TRAINING ∧ rd (Reg.HLP.STAT.PHASE p) t = 1 ∧
        (lp t p).tx = TxLink.reset ∧ (lp t p).rx = RxLink.reset) ∧
    (∀ all, trained s p = true → lstate s p ≠ DORMANT → rdB (Reg.HLP.CFG.EN p) s = false →
      ∃ t, exec (.signalDetectLoss p all) s = .next t ∧ lstate t p = DOWN))

/-- A slot with a bad CRC is a lost cell, whichever row names it: the receiver waits for replay and a NAK is pending; the words of a good
ordered-set slot act in order and a bad word is counted; an uncorrectable codeword is counted; the fourth FCW with a bad CHK in consecutive
codewords, or DOZE word in a row, fails the port, one apart from the others begins the row again. A lane failure, an error count above its
limit or LANE_RETIRE_REQ (where lanes remain) fixes the frame for both directions, a second request waits, the far end's LANE_RETIRE fixes
the other frame or is refused when too late; at each frame the width and mask change, and the end raises LANE_RET. Word layouts are the
model's where the spec gives none (log 36). Rules: R55, R60, R63, R66, R84, R86, R87, R88, R89, R90. -/
def Obligations.SlotsWordsAndLanes : Prop :=
  (∀ (p : LPort) (s : State),
    (∀ bytes : List Byte, bytes.length = 128 → framesRun s p = true → slotCrcGood bytes = false →
      exec (.osSlotReceive p bytes) s = exec (.cellReceive p bytes) s ∧
      ∃ t, exec (.osSlotReceive p bytes) s = .next t ∧ (lp t p).rx.waiting = true ∧
        ((lp s p).rx.waiting = false → (lp t p).rx.nakPend = true) ∧ (lp t p).rx.e = (lp s p).rx.e ∧ PortsBut p s t) ∧
    (∀ (w x : OsWord) (bytes : List Byte), bytes.length = 128 → framesRun s p = true → slotCrcGood bytes = true → isOsSlot bytes = true →
      w.typ ≠ 8 → w.typ ≠ 9 → x.typ ≠ 8 → x.typ ≠ 9 → osSlotWords bytes = some [some w, none, some x] →
      exec (.osSlotReceive p bytes) s = .next (slotPassed p (onWord p x (oswErr p (onWord p w s))))) ∧
    (∀ slots, framesRun s p = true → (lp s p).rx.waiting = false → compat s = false → (ctrGet s (cHLP p kUNCORR)).sat = false →
      (ctrGet s (cHLP p kUNCORR)).v + 1 < 2 ^ 64 →
      ∃ t, exec (.uncorrectableCodeword p slots) s = .next t ∧
        ctrGet t (cHLP p kUNCORR) = { v := (ctrGet s (cHLP p kUNCORR)).v + 1, sat := false } ∧
        ((lp t p).rx.waiting = true ↔ 0 < slots) ∧ (lp t p).rx.e = (lp s p).rx.e ∧ PortsBut p s t) ∧
    (framesRun s p = true → (lstate s p ≠ ACTIVE ∧ lstate s p ≠ HUM) ∨ (lp s p).badFcw < 3 → (lp s p).badFcw ≠ 0 →
      Machine.ahead (codewordWrap s p) (lp s p).badFcwAt (codewordNow s p) ≤ 1 →
      ∃ t, exec (.fcwChkFail p) s = .next t ∧ (lp t p).badFcw = (lp s p).badFcw + 1 ∧ (lp t p).badFcwAt = codewordNow s p ∧
        lstate t p = lstate s p ∧ PortsBut p s t) ∧
    (framesRun s p = true → (lp s p).badFcw = 0 ∨ 1 < Machine.ahead (codewordWrap s p) (lp s p).badFcwAt (codewordNow s p) →
      ∃ t, exec (.fcwChkFail p) s = .next t ∧ (lp t p).badFcw = 1 ∧ (lp t p).badFcwAt = codewordNow s p ∧
        lstate t p = lstate s p ∧ PortsBut p s t) ∧
    (framesRun s p = false → exec (.fcwChkFail p) s = .next s) ∧
    (lstate s p = ACTIVE ∨ lstate s p = HUM → 3 ≤ (lp s p).badFcw →
      Machine.ahead (codewordWrap s p) (lp s p).badFcwAt (codewordNow s p) ≤ 1 → rdB (Reg.HLP.CFG.EN p) s = true → bypassHeld s p = false →
      ∃ t, exec (.fcwChkFail p) s = .next t ∧ lstate t p = TRAINING) ∧
    (∀ w : BitVec 80, lstate s p = DOZE → w.toNat / 2 ^ 64 ≠ 0x3C5A → (lp s p).badDoze ≠ 3 →
      ∃ t, exec (.dozeWordReceive p w) s = .next t ∧ (lp t p).badDoze = (lp s p).badDoze + 1 ∧ lstate t p = DOZE ∧
        PortsBut p s t ∧ Only [.ports] s t) ∧
    (∀ w : BitVec 80, lstate s p = DOZE → w.toNat / 2 ^ 64 ≠ 0x3C5A → (lp s p).badDoze = 3 → rdB (Reg.HLP.CFG.EN p) s = true →
      bypassHeld s p = false → ∃ t, exec (.dozeWordReceive p w) s = .next t ∧ lstate t p = TRAINING) ∧
    (∀ (w : BitVec 80) (x : OsWord), lstate s p = DOZE → w.toNat / 2 ^ 64 = 0x3C5A → dozeWord w.toNat = some x → x.typ = 0 →
      ∃ t, exec (.dozeWordReceive p w) s = .next t ∧ (lp t p).badDoze = 0 ∧ lstate t p = DOZE ∧ Only [.ports] s t)) ∧
  (∀ (p : LPort) (s : State),
    (∀ lane : Fin 4, trained s p = true → bit lane (rd (Reg.HLP.STAT.LANES p) s) = true → lane.val ≠ rd (Reg.HLP.STAT.BASE p) s →
      lstate s p ≠ DORMANT → lstate s p ≠ DOZE → bit lane (rd (Reg.HLP.LRET.AUTO p) s) = true → (lp s p).retire = none →
      (lanesWithout (rd (Reg.HLP.STAT.LANES p) s) (2 ^ lane.val)).isSome = true →
      ∃ t, exec (.laneFail p lane) s = .next t ∧
        (lp t p).retire = some { lanes := 2 ^ lane.val, rxFrame := ((lp s p).rxFrame + retireLead s p) % 65536, txFrame := none, rxDone := false, txDone := false } ∧
        (lp t p).osq = (lp s p).osq ++ [oswLANE_RETIRE (2 ^ lane.val) (((lp s p).rxFrame + retireLead s p) % 65536)] ∧
        bit lane (rd (Reg.HLP.LRET.RETIRED p) t) = true ∧ bit lane (rd (Reg.HLP.STAT.SD p) t) = false) ∧
    (∀ (lane : Fin 4) (errors : Nat), trained s p = true → bit lane (rd (Reg.HLP.STAT.LANES p) s) = true →
      bit lane (rd (Reg.HLP.LRET.AUTO p) s) = true → bit lane (rd (Reg.HLP.LRET.RETIRED p) s) = false → (lp s p).retire = none →
      (lanesWithout (rd (Reg.HLP.STAT.LANES p) s) (2 ^ lane.val)).isSome = true →
      (2 ^ rd (Reg.HLP.LRET.TH_EXP p) s < errors → ∃ t, exec (.laneErrorWindow p lane errors) s = .next t ∧
        (lp t p).retire = some { lanes := 2 ^ lane.val, rxFrame := ((lp s p).rxFrame + retireLead s p) % 65536, txFrame := none, rxDone := false, txDone := false } ∧
        bit lane (rd (Reg.HLP.LRET.RETIRED p) t) = true) ∧
      (errors ≤ 2 ^ rd (Reg.HLP.LRET.TH_EXP p) s → ∃ t, exec (.laneErrorWindow p lane errors) s = .next t ∧
        lp t p = lp s p ∧ Only [.ctrs, .srcs, .diag] s t)) ∧
    (∀ lane : Fin 4, accStat s (Reg.HLP.LRET.word p).addr = ST_OK → trained s p = true →
      bit lane (rd (Reg.HLP.STAT.LANES p) s) = true → rd (Reg.HLP.STAT.LANES p) s ≠ 2 ^ lane.val →
      ((lp s p).retire.isSome = true → ∃ t, exec (.laneRetireReq p lane) s = .next t ∧
        (lp t p).retireWait = (lp s p).retireWait ++ [2 ^ lane.val] ∧ (lp t p).retire = (lp s p).retire ∧
        bit lane (rd (Reg.HLP.LRET.REQ p) t) = true ∧ PortsBut p s t) ∧
      ((lp s p).retire = none → (lanesWithout (rd (Reg.HLP.STAT.LANES p) s) (2 ^ lane.val)).isSome = true →
        ∃ t, exec (.laneRetireReq p lane) s = .next t ∧ (lp t p).retire.isSome = true ∧
          bit lane (rd (Reg.HLP.LRET.RETIRED p) t) = true ∧ PortsBut p s t)) ∧
    (∀ (lanes : BitVec 4) (frame : BitVec 16) (r : Retire), (lp s p).retire = some r → r.lanes = lanes.toNat → r.txFrame = none →
      inTime s p frame.toNat = true →
      ∃ t, exec (.laneRetire p lanes frame) s = .next t ∧ (lp t p).retire = some { r with txFrame := some frame.toNat } ∧
        PortsBut p s t ∧ Only [.ports] s t) ∧
    (∀ (lanes : BitVec 4) (frame : BitVec 16), inTime s p frame.toNat = false → exec (.laneRetire p lanes frame) s = .next s) ∧
    (∀ (lanes : BitVec 4) (frame : BitVec 16), (lp s p).retire = none → inTime s p frame.toNat = true →
      ∃ t, exec (.laneRetire p lanes frame) s = .next t ∧
        (lp t p).osq = (lp s p).osq ++ [oswLANE_RETIRE lanes.toNat (((lp s p).rxFrame + retireLead s p) % 65536)] ∧
        rd (Reg.HLP.LRET.RETIRED p) t = (rd (Reg.HLP.LRET.RETIRED p) s ||| lanes.toNat) % 16 ∧ PortsBut p s t) ∧
    (∀ (r : Retire) (w m : Nat), (lp s p).retire = some r → r.txDone = false → r.rxDone = false →
      frameReached (lp s p).rxFrame r.rxFrame = true → lanesWithout (rd (Reg.HLP.STAT.LANES p) s) r.lanes = some (w, m) →
      ∃ t, exec (.retireFrameSwitch p true) s = .next t ∧ (lp t p).retire = some { r with rxDone := true } ∧
        rd (Reg.HLP.STAT.WIDTH_CUR p) t = w % 4 ∧ rd (Reg.HLP.STAT.LANES p) t = m % 16 ∧ PortsBut p s t) ∧
    (∀ r : Retire, (lp s p).retire = some r → r.txDone = false → r.rxDone = true → (lp s p).retireWait = [] →
      (∃ f, r.txFrame = some f ∧ frameReached (lp s p).txFrame f = true) →
      ∃ t, exec (.retireFrameSwitch p false) s = .next t ∧ (lp t p).retire = none ∧
        (lp t p).txLanes = (narrowed (lp s p).txLanes r.lanes).2 ∧
        (srcAlive s (srcLANE_RET p) = true → srcSt s (srcLANE_RET p) = .idle → srcSt t (srcLANE_RET p) = .pending)))

/-- For a 128-byte slot that is no ordered set: a good cell with a known version and header while nothing is lost advances E by one modulo 8192,
leaves an ACK pending and is held for admission; while the receiver waits for a replay nothing changes; while a replay skips known cells
they are dropped without E; a bad CRC makes it wait with a NAK pending; an unknown version is discarded and its credit freed; a cell beyond
its credit fails the link. Rules: R94, R96, R101, R102. -/
def Obligations.CellsAreTakenInSequence : Prop :=
  ∀ (p : LPort) (bytes : List Byte) (s : State), bytes.length = 128 → framesRun s p = true → isOsSlot bytes = false →
    (slotCrcGood bytes = true → (lp s p).rx.waiting = false → (lp s p).rx.skip = none →
      creditUsedUp s p (ccOf (parseCell bytes).tc) = false → (parseCell bytes).ver = 1 ∨ (parseCell bytes).ver = 2 →
      headerGood (parseCell bytes) = true →
      ∃ t, exec (.cellReceive p bytes) s = .next t ∧ (lp t p).rx.e = ((lp s p).rx.e + 1) % 8192 ∧ (lp t p).rx.ackPend = true ∧
        (lp t p).rx.xseq = (if (parseCell bytes).xpr then ((lp s p).rx.xseq + 1) % 4096 else (lp s p).rx.xseq) ∧
        holdOf t p = holdOf s p ++
          [⟨parseCell bytes, if (parseCell bytes).xpr then some (lp s p).rx.xseq else none, true, true, none⟩] ∧
        PortsBut p s t ∧
        (lstate s p ≠ TRAINING → (∀ q, q ≠ p.val → holdOf t q = holdOf s q) ∧ Only [.ports, .ctrs, .srcs, .diag, .comb] s t)) ∧
    (slotCrcGood bytes = true → (lp s p).rx.waiting = true → exec (.cellReceive p bytes) s = .next (slotPassed p s)) ∧
    (∀ k, slotCrcGood bytes = true → (lp s p).rx.waiting = false → (lp s p).rx.skip = some k →
      ∃ t, exec (.cellReceive p bytes) s = .next t ∧ (lp t p).rx.e = (lp s p).rx.e ∧ holdOf t p = holdOf s p ∧
        (lp t p).rx.skip = (if (k + 1) % 8192 = (lp s p).rx.e then none else some ((k + 1) % 8192)) ∧ PortsBut p s t ∧
        (lstate s p ≠ TRAINING → Only [.ports] s t)) ∧
    (slotCrcGood bytes = false → (lp s p).rx.waiting = false →
      ∃ t, exec (.cellReceive p bytes) s = .next t ∧ (lp t p).rx.waiting = true ∧ (lp t p).rx.nakPend = true ∧
        (lp t p).rx.e = (lp s p).rx.e ∧ holdOf t p = holdOf s p ∧ PortsBut p s t) ∧
    (slotCrcGood bytes = true → (lp s p).rx.waiting = false → (lp s p).rx.skip = none →
      creditUsedUp s p (ccOf (parseCell bytes).tc) = false → (parseCell bytes).ver ≠ 1 → (parseCell bytes).ver ≠ 2 →
      ∃ t, exec (.cellReceive p bytes) s = .next t ∧ holdOf t p = holdOf s p ∧ (lp t p).rx.e = ((lp s p).rx.e + 1) % 8192 ∧
        Tab.get zeroN (lp t p).rx.freed (ccOf (parseCell bytes).tc) =
          (Tab.get zeroN (lp s p).rx.freed (ccOf (parseCell bytes).tc) + 1) % 65536) ∧
    (slotCrcGood bytes = true → (lp s p).rx.waiting = false → (lp s p).rx.skip = none →
      creditUsedUp s p (ccOf (parseCell bytes).tc) = true → trained s p = true → rdB (Reg.HLP.CFG.EN p) s = true → bypassHeld s p = false →
      ∃ t, exec (.cellReceive p bytes) s = .next t ∧ lstate t p = TRAINING)

/-- For a trained port and a 13-bit VALUE within the unacknowledged cells: an ACK leaves exactly the replay buffer from VALUE on and the next
SEQ as it was; a NAK leaves the same and a replay from VALUE pending, with its RESYNC word, where the replay limit allows it. A VALUE beyond
them leaves the transmitter unchanged. No other port changes. Rules: R103. -/
def Obligations.AcksReleaseAndNaksReplay : Prop :=
  ∀ (p : LPort) (v : BitVec 13) (s : State), trained s p = true →
    (Machine.ahead 8192 (oldestSeq (lp s p).tx) v.toNat ≤ (lp s p).tx.buf.length →
      ∃ t, exec (.ackFcw p v) s = .next t ∧ (lp t p).tx.buf = (lp s p).tx.buf.drop (Machine.ahead 8192 (oldestSeq (lp s p).tx) v.toNat) ∧
        (lp t p).tx.seq = (lp s p).tx.seq ∧ (lp t p).badFcw = 0 ∧ PortsBut p s t) ∧
    ((lp s p).tx.buf.length < Machine.ahead 8192 (oldestSeq (lp s p).tx) v.toNat →
      ∃ t, exec (.ackFcw p v) s = .next t ∧ (lp t p).tx = (lp s p).tx ∧ (lp t p).badFcw = 0 ∧ PortsBut p s t) ∧
    (Machine.ahead 8192 (oldestSeq (lp s p).tx) v.toNat ≤ (lp s p).tx.buf.length → 1 ≤ rd (Reg.HLP.LTIM.RPL_MAX p) s →
      (0 < Machine.ahead 8192 (oldestSeq (lp s p).tx) v.toNat ∨ (lp s p).tx.rplCount < rd (Reg.HLP.LTIM.RPL_MAX p) s) →
      ∃ t, exec (.nakFcw p v) s = .next t ∧ (lp t p).tx.replay = some v.toNat ∧ (lp t p).tx.replayWord = true ∧
        (lp t p).tx.buf = (lp s p).tx.buf.drop (Machine.ahead 8192 (oldestSeq (lp s p).tx) v.toNat) ∧ PortsBut p s t)

/-- A waiting receiver repeats its NAK; RESYNC(REPLAY, E) ends the wait, one ahead of E makes it wait, one behind makes it skip the cells it
has. CREQ is answered by that class's CREDIT word, the period sends all four, a class without credit sends CREQ. A recalled express cell is
queued again from custody or the replay buffer. The replay timer replays from the oldest cell and, at the limit, fails the link to TRAINING.
Rules: R104, R106, R107, R108, R112, R118, R123. -/
def Obligations.ReceiversAndReplaysRecover : Prop :=
  (∀ (p : LPort) (s : State),
    ((lp s p).rx.waiting = true → ∃ t, exec (.nakRetryTimeout p) s = .next t ∧ (lp t p).rx = { (lp s p).rx with nakPend := true } ∧
      PortsBut p s t ∧ Only [.ports] s t) ∧
    (∀ seq : BitVec 13, seq.toNat = (lp s p).rx.e → ∃ t, exec (.resyncReplay p seq) s = .next t ∧
      (lp t p).rx = { (lp s p).rx with waiting := false, skip := none, nakPend := false } ∧ PortsBut p s t ∧ Only [.ports] s t) ∧
    (∀ seq : BitVec 13, seq.toNat ≠ (lp s p).rx.e → Machine.ahead 8192 (lp s p).rx.e seq.toNat < 4096 →
      ∃ t, exec (.resyncReplay p seq) s = .next t ∧ (lp t p).rx.waiting = true ∧ (lp t p).rx.nakPend = true ∧
        (lp t p).rx.e = (lp s p).rx.e ∧ PortsBut p s t) ∧
    (∀ seq : BitVec 13, 4096 ≤ Machine.ahead 8192 (lp s p).rx.e seq.toNat → (lp s p).rx.waiting = false →
      ∃ t, exec (.resyncReplay p seq) s = .next t ∧ (lp t p).rx = { (lp s p).rx with skip := some seq.toNat } ∧ Only [.ports] s t) ∧
    (∀ cc : Fin 4, trained s p = true → ∃ t, exec (.resyncCreq p cc) s = .next t ∧
      ((lp s p).osq.any (oldCredit cc) = false →
        (lp t p).osq = (lp s p).osq ++ [oswCREDIT cc (creditLimit s p cc) (lp s p).rx.xrel]) ∧
      ((lp s p).osq.any (oldCredit cc) = true → (lp t p).osq =
        (lp s p).osq.map fun x => if oldCredit cc x then oswCREDIT cc (creditLimit s p cc) (lp s p).rx.xrel else x) ∧
      (lp t p).rx = (lp s p).rx ∧ PortsBut p s t ∧ Only [.ports] s t) ∧
    (lstate s p = ACTIVE ∨ lstate s p = HUM → ∃ t, exec (.creditWordPeriod p) s = .next t ∧
      (lp t p).osq = ((lp s p).osq.filter fun w => w.typ != 0x10) ++ ([0, 1, 2, 3].map fun cc => oswCREDIT cc (creditLimit s p cc) (lp s p).rx.xrel) ∧
      PortsBut p s t ∧ Only [.ports] s t) ∧
    (∀ cc : Fin 4, trained s p = true → creditOf (lp s p).tx cc = 0 → ∃ t, exec (.creditStarveTimeout p cc) s = .next t ∧
      (lp t p).osq = (lp s p).osq ++ [oswRESYNC 3 0 cc 0] ∧ (lp t p).tx = (lp s p).tx ∧ PortsBut p s t) ∧
    (∀ (x : BitVec 12) (e : TxEnt), trained s p = true →
      (((lp s p).tx.custody ++ (lp s p).tx.buf).filter fun e => e.ent.cell.xpr && e.xseq == x.toNat && !e.isVoid).head? = some e →
      ∃ t, exec (.resyncRecall p x) s = .next t ∧ (lp t p).tx = { (lp s p).tx with recalls := (lp s p).tx.recalls ++ [e.ent] } ∧
        PortsBut p s t)) ∧
  (∀ (p : LPort) (s : State), trained s p = true →
    ((lp s p).tx.buf ≠ [] → (lp s p).tx.rplCount < rd (Reg.HLP.LTIM.RPL_MAX p) s →
      ∃ t, exec (.replayTimeout p) s = .next t ∧ (lp t p).tx.replay = some (oldestSeq (lp s p).tx) ∧ (lp t p).tx.replayWord = true ∧
        (lp t p).tx.buf = (lp s p).tx.buf ∧ PortsBut p s t) ∧
    ((lp s p).tx.buf ≠ [] → (lp s p).tx.rplFrom = oldestSeq (lp s p).tx → 0 < (lp s p).tx.rplCount →
      rd (Reg.HLP.LTIM.RPL_MAX p) s ≤ (lp s p).tx.rplCount → lstate s p ≠ DORMANT → rdB (Reg.HLP.CFG.EN p) s = true → bypassHeld s p = false →
      ∃ t, exec (.replayTimeout p) s = .next t ∧ lstate t p = TRAINING))

/-- In P5 RESYNC_INIT begins the credit exchange; each class's first CREDIT word sets its limit, and the fourth makes the port ACTIVE once 16
frames had a good CHK. On a trained port a limit ahead by 1 to 32767 within the pool replaces the old one and XREL releases express cells;
one beyond the pool is ignored and counted as a fault. CREDIT_FCW completes its 11 bits from the known limit. What 'credits returned' counts
from is the model's reading (log 16). Rules: R112, R114, R115. -/
def Obligations.CreditWordsMoveTheLimit : Prop :=
  ∀ (p : LPort) (cc : Fin 4) (s : State),
    (lstate s p = TRAINING → rd (Reg.HLP.STAT.PHASE p) s = 5 → ∃ t, exec (.resyncInit p) s = .next t ∧
      (lp t p).tx = { (lp s p).tx with inited := [], known := [], pool := [] } ∧ PortsBut p s t ∧ Only [.ports] s t) ∧
    (∀ cl xrel, lstate s p = TRAINING → rd (Reg.HLP.STAT.PHASE p) s = 5 → (lp s p).tx.inited.contains cc.val = false →
      (lp s p).tx.inited.length ≠ 3 ∨ (lp s p).goodFrames < 16 → ∃ t, exec (.creditWord p cc cl xrel) s = .next t ∧
        (lp t p).tx.inited = (lp s p).tx.inited ++ [cc.val] ∧ Tab.get zeroN (lp t p).tx.known cc = cl.toNat ∧
        Tab.get zeroN (lp t p).tx.pool cc = cl.toNat ∧ lstate t p = TRAINING ∧ PortsBut p s t ∧ Only [.ports] s t) ∧
    (∀ cl xrel, lstate s p = TRAINING → rd (Reg.HLP.STAT.PHASE p) s = 5 → (lp s p).tx.inited.contains cc.val = false →
      (lp s p).tx.inited.length = 3 → 16 ≤ (lp s p).goodFrames → ∃ t, exec (.creditWord p cc cl xrel) s = .next t ∧ lstate t p = ACTIVE ∧
        rd (Reg.HLP.STAT.PHASE p) t = 0 ∧ (lp t p).tx.credInit = true ∧
        (srcAlive s (srcUP p) = true → srcSt s (srcUP p) = .idle → srcSt t (srcUP p) = .pending)) ∧
    (∀ cl xrel, trained s p = true → 1 ≤ Machine.ahead 65536 (Tab.get zeroN (lp s p).tx.known cc) cl.toNat →
      Machine.ahead 65536 (Tab.get zeroN (lp s p).tx.known cc) cl.toNat ≤ 32767 →
      Machine.ahead 65536 (Tab.get zeroN (lp s p).tx.cons cc) cl.toNat ≤ Tab.get zeroN (lp s p).tx.pool cc →
      xBefore (lp s p).tx.xrel xrel.toNat = true →
      ∃ t, exec (.creditWord p cc cl xrel) s = .next t ∧ Tab.get zeroN (lp t p).tx.known cc = cl.toNat ∧ (lp t p).tx.faults = 0 ∧
        (lp t p).tx.xrel = xrel.toNat ∧ (lp t p).tx.custody = ((lp s p).tx.custody.filter fun e => !xBefore e.xseq xrel.toNat) ∧
        PortsBut p s t ∧ Only [.ports, .comb] s t) ∧
    (∀ cl xrel, trained s p = true → 1 ≤ Machine.ahead 65536 (Tab.get zeroN (lp s p).tx.known cc) cl.toNat →
      Machine.ahead 65536 (Tab.get zeroN (lp s p).tx.known cc) cl.toNat ≤ 32767 →
      Tab.get zeroN (lp s p).tx.pool cc < Machine.ahead 65536 (Tab.get zeroN (lp s p).tx.cons cc) cl.toNat →
      xBefore (lp s p).tx.xrel xrel.toNat = false → (lp s p).tx.faults < 3 →
      ∃ t, exec (.creditWord p cc cl xrel) s = .next t ∧ (lp t p).tx.known = (lp s p).tx.known ∧
        (lp t p).tx.faults = (lp s p).tx.faults + 1 ∧ PortsBut p s t) ∧
    (∀ low : BitVec 11, trained s p = true → low.toNat ≠ Tab.get zeroN (lp s p).tx.known cc % 2048 →
      Machine.ahead 65536 (Tab.get zeroN (lp s p).tx.cons cc)
        ((Tab.get zeroN (lp s p).tx.known cc + Machine.ahead 2048 (Tab.get zeroN (lp s p).tx.known cc) low.toNat) % 65536) ≤
        Tab.get zeroN (lp s p).tx.pool cc → Tab.get zeroN (lp s p).tx.known cc < 65536 →
      ∃ t, exec (.creditFcw p cc low) s = .next t ∧ (lp t p).badFcw = 0 ∧
        Tab.get zeroN (lp t p).tx.known cc =
          (Tab.get zeroN (lp s p).tx.known cc + Machine.ahead 2048 (Tab.get zeroN (lp s p).tx.known cc) low.toNat) % 65536 ∧
        Tab.get zeroN (lp t p).tx.known cc % 2048 = low.toNat ∧ PortsBut p s t ∧ Only [.ports] s t)

/-- SLOT_FILL of a port that is DISABLED, DOWN or DORMANT sends nothing. An ACTIVE port sends RESYNC(REPLAY) of a pending replay, then the
replayed cells unchanged, then, with no ordered set pending and room in the buffers, the head of its express FIFO; a pending word goes out
as an ordered-set slot in HUM and DOZE as well. At P4 to P16 the class that the scheduler chooses sends its head cell, to the terminating
unit at P16 and onto the Tolger link with credit elsewhere. When reads happen is the model's reading (log 17). Rules: R135, R179. -/
def Obligations.SlotsAreFilledInOrder : Prop :=
  (∀ (p : Fin 17) (s : State), p.val < 4 →
    (∀ crcBad, lstate s p = DISABLED ∨ lstate s p = DOWN ∨ lstate s p = DORMANT → ∃ t, exec (.slotFill p crcBad) s = .next t ∧
      (lp t p).lastSlot = .quiet ∧ PortsBut p s t ∧ Only [.ports] s t) ∧
    (∀ crcBad k, lstate s p = ACTIVE → (lp s p).slotInFrame = 1 → (lp s p).tx.replay = some k → (lp s p).tx.replayWord = true →
      (lp s p).tx.buf ≠ [] → ∃ t, exec (.slotFill p crcBad) s = .next t ∧ (lp t p).lastSlot = .os [oswRESYNC 2 k 0 0] ∧
        (lp t p).tx = { (lp s p).tx with replayWord := false } ∧ (lp t p).slotInFrame = 2 ∧ PortsBut p s t ∧ Only [.ports] s t) ∧
    (∀ k e, lstate s p = ACTIVE → (lp s p).slotInFrame = 1 → (lp s p).tx.replay = some k → (lp s p).tx.replayWord = false →
      ((lp s p).tx.buf.filter fun x => x.seq == k).head? = some e → e.isVoid = false → (marksOf s p).contains e.ent.addr = true →
      ∃ t, exec (.slotFill p false) s = .next t ∧ (lp t p).lastSlot = .cell { e.ent.cell with ver := egressVer s p } ∧
        (lp t p).tx = { (lp s p).tx with replay := if (k + 1) % 8192 = (lp s p).tx.seq then none else some ((k + 1) % 8192) } ∧
        PortsBut p s t) ∧
    (∀ crcBad f l, lstate s p = ACTIVE → (lp s p).slotInFrame = 1 → (lp s p).tx.replay = none → (lp s p).osq = [] →
      (lp s p).tx.buf.length < 4095 → (lp s p).tx.recalls = [] → custCount (lp s p).tx ≠ 1024 → (lp s p).fifo = f :: l →
      (takeWrite s).isSome = true →
      ∃ t, exec (.slotFill p crcBad) s = .next t ∧ (lp t p).lastSlot = .cell { f.cell with ver := egressVer s p } ∧ (lp t p).fifo = l ∧
        (lp t p).tx.seq = ((lp s p).tx.seq + 1) % 8192 ∧ (lp t p).tx.buf.length = (lp s p).tx.buf.length + 1 ∧
        (lp t p).tx.cons = (lp s p).tx.cons ∧ (lp t p).slotInFrame = 2) ∧
    (∀ crcBad w, lstate s p = HUM → (lp s p).slotInFrame = 1 → (lp s p).tx.replay = none → (lp s p).osq = [w] → timeWord w = false → w.typ ≠ 5 → w.typ ≠ 0x11 →
      ∃ t, exec (.slotFill p crcBad) s = .next t ∧ (lp t p).lastSlot = .os [w] ∧ (lp t p).osq = [] ∧ PortsBut p s t ∧ Only [.ports] s t) ∧
    (∀ crcBad w, lstate s p = DOZE → (lp s p).osq = [w] → w.typ = 0x18 → ∃ t, exec (.slotFill p crcBad) s = .next t ∧
      (lp t p).lastSlot = .doze (dozeBits w) ∧ (lp t p).osq = [] ∧ PortsBut p s t ∧ Only [.ports] s t)) ∧
  (∀ (p : Fin 17) (c : Nat) (e : QEnt) (opens : Bool) (s : State), 4 ≤ p.val →
    chooseClass (siftPort p s) p = some (c, opens) → headOf (siftPort p s) p c = some (e, false) →
    (p = 16 → p16Takes s = true → ∃ t, exec (.slotFill p false) s = .next t ∧
      Tab.get noCells t.tuns.arrived 16 = Tab.get noCells s.tuns.arrived 16 ++ [(e.cell, e.inp, termCtxOf s e.cell)]) ∧
    (p.val < 16 → tolgerTakes s p = true → linkState s (portSlot p) ≠ 4 → ∃ t, exec (.slotFill p false) s = .next t ∧
      waitingOf (tolger t (portSlot p) false) (portCh p) =
        waitingOf (tolger s (portSlot p) false) (portCh p) ++ [(e.inp, ⟨e.cell, none, false, true, none⟩)]))

/-- CELL_ADMIT takes the oldest held cell of a port with staging room that need not wait: to the outputs that the route gives, to the express
path where its conditions hold, to the Comb with the fallback cause where they do not, and to the orphan entry where no route stands.
PARK_RETRY queues a parked cell whose destination works again, FRAME_DISCARD_END ends its discard, VOQ_QUEUE_MOVE moves a queue into VOQs,
SPILL_REFILL_DONE brings spilled cells back when the Deep Comb serves refills, AUDIT_DONE ends the audit once nothing is left of the lost
lists, COMB_CELL_TIME advances a cell time and writes a staged cell to a free bank and its queue. Bank and list choices: logs 10 and 41.
Rules: R129, R130, R133, R137, R151, R153, R158, R161, R168, R172. -/
def Obligations.HeldCellsEnterTheComb : Prop :=
  (∀ (p : Fin 17) (h : Held) (l : List Held) (s : State), holdOf s p = h :: l → cellWaiting s p h = false →
    (bulkPaused s && decide (4 ≤ p.val) && h.cell.f) = false → (stagingOf s p).length < 4 → (p.val < 4 ∨ h.policed = true) →
    ((destOf s p h).noRoute = false → awaits s h.cell = false → (destOf s p h).outs ≠ [] → h.cell.xpr = false →
      ∃ t, exec (.cellAdmit p none) s = .next t ∧ holdOf t p = l ∧
        stagingOf t p = stagingOf s p ++ [⟨h, p, (destOf s p h).outs.map fun o => some (8 * o + h.cell.tc)⟩] ∧
        (∀ q, q ≠ p.val → holdOf t q = holdOf s q ∧ stagingOf t q = stagingOf s q)) ∧
    (p.val < 4 → h.cell.xpr = true → h.forced = none → (destOf s p h).noRoute = false → awaits s h.cell = false →
      fallback s p h (destOf s p h) false = none →
      ∃ t, exec (.cellAdmit p none) s = .next t ∧ holdOf t p = l ∧ stagingOf t p = stagingOf s p ∧
        ((lp t ((destOf s p h).outs.headD 0)).fifo.map fun e => e.cell) =
          ((lp s ((destOf s p h).outs.headD 0)).fifo.map fun e => e.cell) ++ [h.cell] ∧
        Tab.get zeroN (lp t ((destOf s p h).outs.headD 0)).tx.cons (ccOf h.cell.tc) =
          (Tab.get zeroN (lp s ((destOf s p h).outs.headD 0)).tx.cons (ccOf h.cell.tc) + 1) % 65536) ∧
    (h.forced = none → h.cell.xpr = false → (destOf s p h).noRoute = true → awaits s h.cell = false →
      ∃ t, exec (.cellAdmit p none) s = .next t ∧ holdOf t p = l ∧ stagingOf t p = stagingOf s p ++ [⟨h, p, [none]⟩]) ∧
    (∀ c, p.val < 4 → h.cell.xpr = true → h.forced = none → (destOf s p h).noRoute = false → awaits s h.cell = false →
      (destOf s p h).outs ≠ [] → fallback s p h (destOf s p h) false = some c → c < 7 →
      ∃ t, exec (.cellAdmit p none) s = .next t ∧
        stagingOf t p = stagingOf s p ++ [⟨h, p, (destOf s p h).outs.map fun o => some (8 * o + h.cell.tc)⟩] ∧
        bit c (rd Reg.XPR.FBSTAT.CAUSE t) = true)) ∧
  (∀ (c : Fin 8) (s : State),
    (∀ (p : Fin 18) (e : QEnt) (o : Nat), parkOf s (8 * p + c) = [e] → voqParkOf s p = [] → ageLimit s e.cell.tc = 0 → e.charged = false →
      e.policed = true → discardOf s (parkList p e.cell.tc) e = none →
      ringHolds s e.cell (lookup s p e.cell.dst e.cell.tun) = false → toSpill s (8 * o + e.cell.tc) = false →
      lookup s p e.cell.dst e.cell.tun = ⟨[o], false, false, false, false⟩ → 4 ≤ o → linkFailed s [o] = false →
      awaits s e.cell = false → voqOn s = false →
      ∃ t, exec (.parkRetry p c) s = .next t ∧ parkOf t (8 * p + c) = [] ∧
        outQ t (8 * o + e.cell.tc) = outQ s (8 * o + e.cell.tc) ++ [e]) ∧
    (∀ (p : Fin 18) (inp : Fin 18), ∃ t, exec (.frameDiscardEnd p c inp) s = .next t ∧
      (∀ d ∈ t.comb.discards, (d.queue = 8 * p.val + c.val ∨ d.queue = 144 + (8 * p.val + c.val)) → d.inp = inp.val → d.logged = true) ∧
      t.comb.discards.map (fun d => { d with logged := true }) = s.comb.discards.map (fun d => { d with logged := true }) ∧
      Only [.comb, .srcs, .diag] s t) ∧
    (∀ (p : Fin 17) (e : QEnt), voqOn s = true → spillOf s (8 * p + c) = [] → outQ s (8 * p + c) = [e] →
      ∃ t, exec (.voqQueueMove p c) s = .next t ∧ outQ t (8 * p + c) = [] ∧
        voqOf t (voqKey e.inp p c) = e :: voqOf s (voqKey e.inp p c) ∧ Only [.comb, .sched] s t) ∧
    (∀ (p : Fin 17) (d : Fin 5), Tab.get zeroN s.comb.refills (8 * p + d) ≠ 0 → (spillOf s (8 * p + d)).length ≤ 16 →
      (∀ e ∈ spillOf s (8 * p + d), ageLimit s e.cell.tc = 0) → dcmServes s 5 = true →
      (∃ b, b < 16 ∧ bankIn s b = true ∧ 16 ≤ bankFree s b) →
      ∃ t, exec (.spillRefillDone p d 0) s = .next t ∧ spillOf t (8 * p + d) = [] ∧ Tab.get zeroN t.comb.refills (8 * p + d) = 0 ∧
        (outQ t (8 * p + d)).map (fun e => e.cell) =
          (outQ s (8 * p + d)).map (fun e => e.cell) ++ (spillOf s (8 * p + d)).map (fun e => e.cell)) ∧
    (rdB Reg.CMB.STAT.AUDIT s = true → s.comb.lost = [] → ∃ t, exec .auditDone s = .next t ∧ rdB Reg.CMB.STAT.AUDIT t = false ∧
      t.comb.auditErrs = 0 ∧ 3 ∉ t.comb.vcauses ∧
      (srcAlive s srcAUDIT_DONE = true → srcSt s srcAUDIT_DONE = .idle → srcSt t srcAUDIT_DONE = .pending)) ∧
    ((∀ i, stagingOf s i = []) → combMode s = 0 → s.comb.vcauses = [] → (∀ q, outQ s q = []) → (∀ p, aheadOf s p = []) →
      (∀ p, p < 4 → (lp s p).tx.replay = none) → ∃ t, exec (.combCellTime none none) s = .next t ∧
      (∀ b, b < 16 → Tab.get zeroN t.comb.busy b = Tab.get zeroN s.comb.busy b - 1) ∧ (∀ q, outQ t q = []) ∧
      (∀ i, stagingOf t i = [] ∧ holdOf t i = holdOf s i)) ∧
    (∀ (i : Fin 18) (h : Held) (q : Nat), stagingOf s i = [⟨h, i, [some q]⟩] → (∀ j, j ≠ i.val → stagingOf s j = []) → q < 136 →
      combMode s = 0 → s.comb.vcauses = [] → (∀ q, outQ s q = []) → (∀ p, aheadOf s p = []) → spillOf s q = [] →
      (∀ p, p < 4 → (lp s p).tx.replay = none) → h.charged = false →
      (∃ b, b < 16 ∧ bankIn s b = true ∧ 0 < bankFree s b ∧ Tab.get zeroN s.comb.busy b ≤ 1) →
      ∃ t e, exec (.combCellTime none none) s = .next t ∧ outQ t q = [e] ∧ stagingOf t i = [] ∧ e.cell = h.cell ∧ e.inp = i ∧
        e.stamp = stampNow s ∧ bankIn s (e.addr / 16384) = true ∧ Tab.get zeroN t.comb.busy (e.addr / 16384) = 2))

/-- FL_READY comes once. A retirement request of a bank in service starts its test and relocation while fewer than four are retired or retiring;
a fifth raises BANK_LIMIT and changes nothing else. When its addresses are empty the bank is RETIRED. A return request brings a retired bank
back when its return is done. FORCE_VOQ enters VOQ mode (waiting while queues hold cells) with cause 4 and leaves it when the last cause
goes. Rules: R167, R173, R174, R175, R176, R177. -/
def Obligations.BanksRetireAndReturn : Prop :=
  ∀ (b : Fin 16) (s : State),
    (rdB Reg.CMB.STAT.FL_READY s = false → ∃ t, exec (.flReady 0) s = .next t ∧ rdB Reg.CMB.STAT.FL_READY t = true ∧
      rd Reg.CMB.BANK.RETIRED t = rd Reg.CMB.BANK.RETIRED s ∧ 1 ∉ t.comb.vcauses ∧
      rd Reg.CMB.STAT.NBANK t = nbank s % 32 ∧ Only [.regs, .comb] s t) ∧
    (accStat s Reg.CMB.BANKCTL.word.addr = ST_OK → bit b (rd Reg.CMB.BANK.RETIRED s) = false →
      bit b (rd Reg.CMB.BANKCTL.RET_REQ s) = false → (retiring s).length < maxRetired s → bit b (rd Reg.CMB.BANK.TEST s) = false →
      ∃ t, exec (.bankctlRetReq (BitVec.ofNat 16 (2 ^ b.val))) s = .next t ∧ bit b (rd Reg.CMB.BANKCTL.RET_REQ t) = true ∧
        (b.val ∈ t.comb.retWait ∨ bit b (rd Reg.CMB.BANK.TEST t) = true)) ∧
    (accStat s Reg.CMB.BANKCTL.word.addr = ST_OK → bit b (rd Reg.CMB.BANK.RETIRED s) = false →
      bit b (rd Reg.CMB.BANKCTL.RET_REQ s) = false → maxRetired s ≤ (retiring s).length → combMode s ≠ 0 →
      exec (.bankctlRetReq (BitVec.ofNat 16 (2 ^ b.val))) s = .next (raise srcBANK_LIMIT s)) ∧
    (bit b (rd Reg.CMB.BANK.TEST s) = true → bit b (rd Reg.CMB.BANKCTL.RET_REQ s) = true → combMode s = 0 →
      s.comb.rotRetire.contains b.val = false → usedIn s b = [] → s.comb.retWait = [] →
      ∃ t, exec (.relocationDone b) s = .next t ∧ bit b (rd Reg.CMB.BANK.RETIRED t) = true ∧
        bit b (rd Reg.CMB.BANK.TEST t) = false ∧ bit b (rd Reg.CMB.BANKCTL.RET_REQ t) = false ∧
        (srcAlive s srcBANK_RET = true → srcSt s srcBANK_RET = .idle → srcSt t srcBANK_RET = .pending)) ∧
    (accStat s Reg.CMB.BANKCTL.word.addr = ST_OK → bit b (rd Reg.CMB.BANK.RETIRED s) = true →
      ∃ t, exec (.bankctlRtnReq (BitVec.ofNat 16 (2 ^ b.val))) s = .next t ∧ bit b (rd Reg.CMB.BANKCTL.RTN_REQ t) = true ∧
        RegsBut [Reg.CMB.BANKCTL.word.addr] s t ∧ Only [.regs] s t) ∧
    (bit b (rd Reg.CMB.BANKCTL.RTN_REQ s) = true → bit b (rd Reg.CMB.BANK.RETIRED s) = true → usedIn s b = [] →
      ∃ t, exec (.bankReturnDone b) s = .next t ∧ bit b (rd Reg.CMB.BANK.RETIRED t) = false ∧
        bit b (rd Reg.CMB.BANKCTL.RTN_REQ t) = false ∧ bankFree t b = 16384) ∧
    (accStat s Reg.CMB.MODE.word.addr = ST_OK → s.comb.vcauses = [] → combMode s = 0 →
      (queuesHeld s = true → ∃ t, exec (.forceVoqWrite true) s = .next t ∧ combMode t = 2 ∧ t.comb.vcauses = [4] ∧
        rdB Reg.CMB.MODE.FORCE_VOQ t = true) ∧
      (queuesHeld s = false → ∃ t, exec (.forceVoqWrite true) s = .next t ∧ combMode t = 1 ∧ t.comb.vcauses = [4] ∧
        rd Reg.CMB.STAT.VCAUSE t = 4)) ∧
    (accStat s Reg.CMB.MODE.word.addr = ST_OK → s.comb.vcauses = [4] → combMode s = 1 → voqsHeld s = false →
      ∃ t, exec (.forceVoqWrite false) s = .next t ∧ combMode t = 0 ∧ t.comb.vcauses = [] ∧ rdB Reg.CMB.MODE.FORCE_VOQ t = false)

/-- For each of the four tables: TBL_READ answers the active entries; a checked TBL_WRITE or TUN_SET changes the active and master entry (and
the shadow where it is good) and no other entry, a failed check answers its status; TBL_REBUILD starts the Forager or answers ST_BUSY;
TBL_SWAP takes a good shadow as active and counts the generation, else ST_BUSY. An entry recomputed comes from the master; a rebuild done
makes the shadow good (or swaps it with AUTOSWAP); a seed expansion fills the route master. TUN_SET by field mask sets only the fields it
names. Rules: R47, R48, R136, R137, R138, R139, R187, R278, R280. -/
def Obligations.TablesAreReadEditedAndSwapped : Prop :=
  (∀ (o : Origin) (body : List Byte) (t i : Nat) (s : State), mayDispatch s o = true → field body 0 1 = t → t ≤ 3 → zeroAt body 1 1 = true →
    (∀ n, body.length = 8 → field body 2 2 = i → field body 4 2 = n → zeroAt body 6 2 = true → 0 < n → n ≤ 512 → i + n ≤ 16384 →
      exec (.tblRead o body) s = .next (reply o ST_OK
        (((List.range n).map fun k => beBytes (if t = 2 then 8 else 4) (entry s t (i + k))).flatten) (dispatch o s))) ∧
    (∀ e, body.length = 8 + (if t = 2 then 8 else 4) → field body 2 2 = i → i < 16384 → field body 4 2 = 1 → zeroAt body 6 2 = true →
      field body 8 (if t = 2 then 8 else 4) = e →
      (editCheck s t i e = ST_OK → ∃ u, exec (.tblWrite o body) s = .next u ∧ entry u t i = storedEntry t e ∧
        Tab.get zeroN (tbl u t).master i = storedEntry t e ∧
        (shok s t = true → Tab.get zeroN (tbl u t).shadow i = storedEntry t e) ∧
        (shok s t = false → (tbl u t).shadow = (tbl s t).shadow) ∧
        (∀ r j, r ≤ 3 → (r ≠ t ∨ j ≠ i) → entry u r j = entry s r j ∧ Tab.get zeroN (tbl u r).master j = Tab.get zeroN (tbl s r).master j)) ∧
      (editCheck s t i e ≠ ST_OK → exec (.tblWrite o body) s = .next (reply o (editCheck s t i e) [0, 0, 0, 0] (dispatch o s)))) ∧
    (body.length = 4 → zeroAt body 1 3 = true → rdB Reg.RTE.FGR.BUSY s = false → s1Up s = true →
      ∃ u, exec (.tblRebuild o body) s = .next u ∧ (tbl u t).rebuilding = true ∧ shok u t = false ∧ rdB Reg.RTE.FGR.BUSY u = true ∧
        ∀ r, r ≤ 3 → (tbl u r).active = (tbl s r).active ∧ (tbl u r).master = (tbl s r).master) ∧
    (body.length = 4 → zeroAt body 1 3 = true → rdB Reg.RTE.FGR.BUSY s = true ∨ s1Up s = false →
      exec (.tblRebuild o body) s = .next (reply o ST_BUSY [] (dispatch o s))) ∧
    (body.length = 4 → zeroAt body 1 3 = true → shok s t = true →
      ∃ u, exec (.tblSwap o body) s = .next u ∧ (tbl u t).active = (tbl s t).shadow ∧ shok u t = false ∧
        rd (genFld t) u = (rd (genFld t) s + 1) % 256 ∧ (tbl u t).master = (tbl s t).master ∧
        ∀ r, r ≤ 3 → r ≠ t → tbl u r = tbl s r) ∧
    (body.length = 4 → zeroAt body 1 3 = true → shok s t = false →
      exec (.tblSwap o body) s = .next (reply o ST_BUSY [] (dispatch o s)))) ∧
  (∀ (o : Origin) (body : List Byte) (i : Nat) (s : State), mayDispatch s o = true → field body 0 2 = i → i < 16384 → zeroAt body 2 2 = true →
    (body.length = 4 → exec (.tunGet o body) s =
      .next (reply o ST_OK (beBytes 8 (entry s 2 i) ++ beBytes 4 (entry s 1 i) ++ beBytes 4 (entry s 3 i)) (dispatch o s))) ∧
    (body.length = 24 → 0 < i → zeroAt body 5 3 = true →
      (field body 4 1 = 1 → editCheck s 1 i (field body 16 4) = ST_OK →
        ∃ u, exec (.tunSet o body) s = .next u ∧ entry u 1 i = storedEntry 1 (field body 16 4) ∧ entry u 2 i = entry s 2 i ∧ entry u 3 i = entry s 3 i ∧
          ∀ r j, r ≤ 3 → j ≠ i → entry u r j = entry s r j) ∧
      (field body 4 1 = 4 → editCheck s 2 i (field body 8 8) = ST_OK →
        ∃ u, exec (.tunSet o body) s = .next u ∧ entry u 2 i = field body 8 8 ∧ entry u 1 i = entry s 1 i ∧ entry u 3 i = entry s 3 i ∧
          ∀ r j, r ≤ 3 → j ≠ i → entry u r j = entry s r j) ∧
      (bit 0 (field body 4 1) = true → field body 4 1 ≤ 7 → editCheck s 1 i (field body 16 4) ≠ ST_OK →
        exec (.tunSet o body) s = .next (reply o (editCheck s 1 i (field body 16 4)) [0, 0, 0, 0] (dispatch o s))) ∧
      (field body 4 1 = 0 ∨ 7 < field body 4 1 →
        exec (.tunSet o body) s = .next (reply o ST_BAD_PARAM [0, 0, 0, 0] (dispatch o s))))) ∧
  (∀ (t : Fin 4) (s : State),
    (∀ (i : Nat) (b : Bool), dcmServes s 2 = true → s.topo.recompute.contains (t.val, i) = true →
      ∃ u, exec (.entryRecomputed t i b) s = .next u ∧
        entry u t i = (if b then Tab.get zeroN (tbl s t).master i else unreadableEntry t) ∧
        (tbl u t).master = (tbl s t).master ∧ (tbl u t).shadow = (tbl s t).shadow ∧
        (∀ r j, r ≤ 3 → (r ≠ t.val ∨ j ≠ i) → entry u r j = entry s r j) ∧ (b = false → Raised srcTBL_MASTER_ERR s u)) ∧
    (∀ bad : List Nat, dcmServes s 6 = true → (tbl s t).rebuilding = true → rdB Reg.RTE.FGR.AUTOSWAP s = false →
      ∃ u, exec (.rebuildDone t bad) s = .next u ∧ (tbl u t).rebuilding = false ∧ shok u t = true ∧
        (∀ i, i < 16384 → Tab.get zeroN (tbl u t).shadow i = if i ∈ bad then unreadableEntry t else Tab.get zeroN (tbl s t).master i) ∧
        (tbl u t).active = (tbl s t).active ∧ (tbl u t).master = (tbl s t).master ∧ Raised srcFGR_DONE s u) ∧
    (∀ bad : List Nat, dcmServes s 6 = true → (tbl s t).rebuilding = true → rdB Reg.RTE.FGR.AUTOSWAP s = true →
      ∃ u, exec (.rebuildDone t bad) s = .next u ∧ (tbl u t).rebuilding = false ∧ shok u t = false ∧
        (∀ i, i < 16384 → entry u t i = if i ∈ bad then unreadableEntry t else Tab.get zeroN (tbl s t).master i) ∧
        rd (genFld t) u = (rd (genFld t) s + 1) % 256) ∧
    (∀ a, dcmServes s 6 = true → s.topo.expanding = some a → rdB Reg.RTE.FGR.AUTOSWAP s = false →
      ∃ u, exec .seedExpansionDone s = .next u ∧ u.topo.expanding = none ∧ (tbl u 0).master = Machine.expand a s.topo.seeds ∧
        (tbl u 0).shadow = Machine.expand a s.topo.seeds ∧ (tbl u 0).active = (tbl s 0).active ∧ shok u 0 = true ∧ rd Reg.RTE.FGR.SHADOW_OK u = 1))

/-- ADDR_ASSIGN through a line port gives an unassigned node the address and its upstream port; repeated by that port it is answered again,
another address replaces or conflicts as the rule says, and it is denied to others, a head or a locked register. A written address is taken.
A ring break or heal from another node on a ring port changes the list of breaks and raises RING, one's own is dropped; WTR and hold expiry
restore; clearing RING.EN forgets all breaks. The bypass settles before the port states follow it. Which ring cells a port copies: log 18.
Rules: R136, R142, R143, R147, R148, R149. -/
def Obligations.AddressesRingsAndBypass : Prop :=
  (∀ (p : LPort) (s : State),
    (∀ (o : Origin) (body : List Byte) (a : Nat), mayDispatch s o = true → body.length = 4 → o.ep = .line → o.inPort = some p.val →
      rdB Reg.RTE.ADDR.LOCK s = false → isHead s = false → field body 0 2 = a → 0x10 ≤ a → a ≤ 0x3FFD → zeroAt body 2 2 = true →
      (ownAddr s = 0 → ∃ t, exec (.addrAssign o body) s = .next t ∧ ownAddr t = a ∧ rd Reg.RTE.ADDR.UPV t = 1 ∧
        rd Reg.RTE.ADDR.UP t = p.val ∧ t.topo.expanding = some a ∧ shok t 0 = false ∧ rdB Reg.RTE.FGR.BUSY t = true ∧
        t.topo.route.rebuilding = false) ∧
      (ownAddr s ≠ 0 → rdB Reg.RTE.ADDR.UPV s = true → rd Reg.RTE.ADDR.UP s = p.val →
        (a = ownAddr s → exec (.addrAssign o body) s = .next (reply o ST_OK [] (dispatch o s))) ∧
        (a ≠ ownAddr s → ∃ t, exec (.addrAssign o body) s = .next t ∧ ownAddr t = a ∧ t.topo.expanding = some a)) ∧
      (ownAddr s ≠ 0 → rd Reg.RTE.ADDR.UP s ≠ p.val →
        ∃ t, exec (.addrAssign o body) s = .next t ∧ ownAddr t = ownAddr s ∧ Raised srcENUM_CONFLICT s t ∧ t.topo = s.topo)) ∧
    (∀ (o : Origin) (body : List Byte), mayDispatch s o = true → body.length = 4 →
      o.ep ≠ .line ∨ o.inPort = none ∨ rdB Reg.RTE.ADDR.LOCK s = true ∨ isHead s = true →
      exec (.addrAssign o body) s = .next (reply o ST_DENIED [] (dispatch o s))) ∧
    (∀ v : Word, accStat s Reg.RTE.ADDR.word.addr = ST_OK →
      ∃ t, exec (.addrWrite v) s = .next t ∧ ownAddr t = v.toNat % 2 ^ 14 ∧ rd Reg.RTE.ADDR.LOCK t = v.toNat / 2 ^ 31 ∧
        rd Reg.RTE.ADDR.UPV t = rd Reg.RTE.ADDR.UPV s ∧ rd Reg.RTE.ADDR.UP t = rd Reg.RTE.ADDR.UP s ∧
        (v.toNat % 2 ^ 14 ≠ ownAddr s → t.topo.expanding = some (v.toNat % 2 ^ 14)) ∧
        (v.toNat % 2 ^ 14 = ownAddr s → t.topo = s.topo)) ∧
    (∀ g, (lp s p).assigning = true → enumerates s p = true → (∀ i, Tab.get (fun _ => none) s.cmd.relays i ≠ some (.assign p.val)) →
      freeRelay s = some g →
      ∃ t, exec (.addrAssignRepeat p) s = .next t ∧ Tab.get (fun _ => none) t.cmd.relays g = some (.assign p.val) ∧
        ∃ h, holdOf t 16 = holdOf s 16 ++ [h] ∧ h.forced = some [p.val] ∧ h.cell.dst = 0 ∧ h.cell.tun = 0 ∧ h.cell.tc = 6 ∧
          h.cell.typ = 1 ∧ field h.cell.payload 16 2 = (ownAddr s + enumOfs s p) % 65536) ∧
    ((lp s p).assigning = false → exec (.addrAssignRepeat p) s = .next s)) ∧
  (∀ (q : LPort) (s : State),
    (∀ h u, takeRing q.val 0x0101 s = some (h, u) → h.cell.src = ownAddr s →
      ∃ t, exec (.ringBreak q) s = .next t ∧ holdOf t q = holdOf u q ∧ t.topo = s.topo ∧ t.srcs = s.srcs) ∧
    (∀ h u, takeRing q.val 0x0101 s = some (h, u) → h.cell.src ≠ ownAddr s → ringEn s = true → isRingPort s q = true →
      rteV (entry s 0 h.cell.src) = true → rtePORT (entry s 0 h.cell.src) = q.val → (breaksOf s q).length < 4 →
      ∃ t, exec (.ringBreak q) s = .next t ∧ holdOf t q = holdOf u q ∧ Raised srcRING s t ∧
        breaksOf t q = breaksOf s q ++
          [⟨false, rteDIST (entry s 0 h.cell.src), h.cell.src, field h.cell.payload 2 2, field h.cell.payload 4 1⟩] ∧
        (∀ k, k ≠ q.val → breaksOf t k = breaksOf s k) ∧ (stagingOf t q).length = (stagingOf s q).length + 1) ∧
    (∀ h u r l b, takeRing q.val 0x0102 s = some (h, u) → h.cell.src ≠ ownAddr s →
      takeFirst (fun x : BreakRec => !x.own && x.src == h.cell.src && x.nbr == field h.cell.payload 2 2 &&
        x.port == field h.cell.payload 4 1) (breaksOf s q) = some (r, l) → appliedBreak s q = some b →
      ∃ t, exec (.ringHeal q) s = .next t ∧ breaksOf t q = l ∧ (q.val, b) ∈ t.topo.restoreHold ∧ Raised srcRING s t) ∧
    (∀ r b, appliedBreak s q = some b → ownBreak s q = some r → ringEn s = true → rdB Reg.RTE.RING.REVERT s = true → lstate s q = ACTIVE → domSt s q = .inService →
      ∃ t, exec (.wtrExpiry q) s = .next t ∧ Raised srcRING s t ∧ (q.val, b) ∈ t.topo.restoreHold ∧
        (breaksOf t q).length + 1 = (breaksOf s q).length ∧
        ∃ h, holdOf t 16 = holdOf s 16 ++ [h] ∧ h.forced = some [otherRing s q, 16] ∧ h.cell.dst = 0x3FFF ∧ h.cell.src = ownAddr s ∧
          field h.cell.payload 0 2 = 0x0102 ∧ field h.cell.payload 4 1 = q.val) ∧
    (∃ t, exec (.ringHoldExpiry q) s = .next t ∧ (∀ x ∈ t.topo.restoreHold, x.1 ≠ q.val) ∧
      t.topo.breaks = s.topo.breaks ∧ (∀ x ∈ s.topo.restoreHold, x.1 ≠ q.val → x ∈ t.topo.restoreHold) ∧ Only [.topo] s t) ∧
    (accStat s Reg.RTE.RING.word.addr = ST_OK → ∃ t, exec .ringEnClear s = .next t ∧ ringEn t = false ∧
      (ringEn s = true → t.topo.breaks = [] ∧ t.topo.breakHold = [] ∧
        ∀ p b, appliedBreak s p = some b → (p, b) ∈ t.topo.restoreHold) ∧ (ringEn s = false → t.topo = s.topo) ∧
      RegsBut [Reg.RTE.RING.word.addr] s t ∧ Only [.regs, .topo] s t) ∧
    (∀ byp, accStat s Reg.RTE.BYP.word.addr = ST_OK → ∃ t, exec (.bypassWrite byp) s = .next t ∧ rdB Reg.RTE.BYP.BYP t = byp ∧
      (byp = true → t.topo.bypassSettle = 0 ∧ ∀ n, n < 4 → bit n (rd Reg.RTE.BYP.PORTS s) = true → lstate t n = DISABLED) ∧
      (byp = false → rdB Reg.RTE.BYP.BYP s = true → t.topo.bypassSettle = rd Reg.RTE.BYP.PORTS s)) ∧
    (∃ t, exec .bypassSettleExpiry s = .next t ∧ t.topo.bypassSettle = 0 ∧
      ∀ n, n < 4 → bit n s.topo.bypassSettle = true → lstate s n = DISABLED → rdB Reg.RTE.BYP.BYP s = false →
        rdB (Reg.HLP.CFG.EN n) s = true → rdB Reg.GLB.STAT.BOOTED s = true → domSt s n = .inService → lstate t n = TRAINING))

/-- An APPLY (register or command) that passes the check gives the selected instance CFG and BURST as staged, tokens full, or 0 with TOKRST or
(shapers) COMPAT_LH4, stamped now, and no other instance changes; one that fails changes nothing or answers its status. LOAD copies the
instance into the staging registers. SHP_GET and POL_GET answer CFG, BURST and the tokens accrued to now. XB_CFG and XB_BURST set the
express budget likewise. HWM_OCC and HWM_SOJ reads return the mark of the selected queue and clear that mark only; HWM_READ answers and
clears both, ST_BAD_PARAM from queue 144 on. EXPRESS_MONITOR_WINDOW starts a new window and flags ports above their limit.
ORIGIN_FRAME_RELEASE lets the first frame held for a shaper enter when its tokens permit, and changes nothing where they do not. Rules:
R186, R189, R190, R192, R195, R281. -/
def Obligations.ShapersAndPolicersAreSet : Prop :=
  (∀ s : State,
    (∀ (req : EntryPoint) (i : Nat) (cfg burst : Word), accStat s Reg.SCH.SHP_CTL.word.addr = ST_OK → rd (Reg.SCH.SEL.INDEX.mine req) s = i →
      regGet s (Reg.SCH.SHP_CFG.word.mine req).addr = cfg → regGet s (Reg.SCH.SHP_BURST.word.mine req).addr = burst →
      (shaperCheck s i cfg = ST_OK → ∃ t, exec (.shpCtlApply req) s = .next t ∧
        shaper t i = ⟨cfg &&& 0xE003FFFF, burst &&& 0xFF00FFFF, if bit 30 cfg.toNat || compat s then 0 else burstBytes burst * 8000, s.now⟩ ∧
        (∀ j, j ≠ i → shaper t j = shaper s j) ∧ Only [.sched] s t) ∧
      (shaperCheck s i cfg ≠ ST_OK → exec (.shpCtlApply req) s = .next s) ∧
      (shaperUsed i = true → ∃ t, exec (.shpCtlLoad req) s = .next t ∧ regGet t (Reg.SCH.SHP_CFG.word.mine req).addr = (shaper s i).cfg ∧
        regGet t (Reg.SCH.SHP_BURST.word.mine req).addr = (shaper s i).burst ∧
        RegsBut [(Reg.SCH.SHP_CFG.word.mine req).addr, (Reg.SCH.SHP_BURST.word.mine req).addr] s t) ∧
      (shaperUsed i = false → exec (.shpCtlLoad req) s = .next s)) ∧
    (∀ (req : EntryPoint) (i : Nat) (cfg burst : Word), accStat s Reg.GRD.POL_CTL.word.addr = ST_OK → rd (Reg.GRD.SEL.INDEX.mine req) s = i →
      regGet s (Reg.GRD.POL_CFG.word.mine req).addr = cfg → regGet s (Reg.GRD.POL_BURST.word.mine req).addr = burst →
      (0 < i → i < 4096 → 0 < shpRATE cfg → shpRATE cfg ≤ 200000 → ∃ t, exec (.polCtlApply req) s = .next t ∧
        policer t i = ⟨cfg &&& 0xC003FFFF, burst &&& 0xFF00FFFF, if bit 30 cfg.toNat then 0 else burstBytes burst * 8000, s.now⟩ ∧
        (∀ j, j ≠ i → policer t j = policer s j) ∧ Only [.sched] s t) ∧
      (shpRATE cfg = 0 ∨ 200000 < shpRATE cfg ∨ i = 0 → exec (.polCtlApply req) s = .next s) ∧
      (0 < i → ∃ t, exec (.polCtlLoad req) s = .next t ∧ regGet t (Reg.GRD.POL_CFG.word.mine req).addr = (policer s i).cfg ∧
        regGet t (Reg.GRD.POL_BURST.word.mine req).addr = (policer s i).burst ∧ t.sched = s.sched)) ∧
    (∀ v : Word, accStat s Reg.GRD.XB_CFG.word.addr = ST_OK →
      (0 < shpRATE v → shpRATE v ≤ 200000 → ∃ t, exec (.xbCfgWrite v) s = .next t ∧ regGet t Reg.GRD.XB_CFG.word.addr = v &&& 0xC003FFFF ∧
        t.sched.xb = ⟨v &&& 0xC003FFFF, regGet s Reg.GRD.XB_BURST.word.addr,
          if bit 30 v.toNat then 0 else burstBytes (regGet s Reg.GRD.XB_BURST.word.addr) * 8000, s.now⟩ ∧
        RegsBut [Reg.GRD.XB_CFG.word.addr] s t) ∧
      (shpRATE v = 0 ∨ 200000 < shpRATE v → exec (.xbCfgWrite v) s = .next s)) ∧
    (∀ v : Word, accStat s Reg.GRD.XB_BURST.word.addr = ST_OK → ∃ t, exec (.xbBurstWrite v) s = .next t ∧
        regGet t Reg.GRD.XB_BURST.word.addr = v &&& 0xFF00FFFF ∧ t.sched.xb.burst = v &&& 0xFF00FFFF ∧
        t.sched.xb.cfg = regGet s Reg.GRD.XB_CFG.word.addr ∧ t.sched.xb.last = s.now ∧ RegsBut [Reg.GRD.XB_BURST.word.addr] s t)) ∧
  (∀ (o : Origin) (body : List Byte) (i : Nat) (s : State), mayDispatch s o = true → field body 0 2 = i → zeroAt body 2 2 = true →
    (∀ cfg burst : Word, body.length = 12 → field body 4 4 = cfg.toNat → field body 8 4 = burst.toNat → i < 4096 →
      (shaperCheck s i cfg = ST_OK → ∃ t, exec (.shpApply o body) s = .next t ∧
        shaper t i = ⟨cfg &&& 0xE003FFFF, burst &&& 0xFF00FFFF, if bit 30 cfg.toNat || compat s then 0 else burstBytes burst * 8000, s.now⟩ ∧
        ∀ j, j ≠ i → shaper t j = shaper s j) ∧
      (shaperCheck s i cfg ≠ ST_OK → exec (.shpApply o body) s = .next (reply o (shaperCheck s i cfg) [] (dispatch o s))) ∧
      (0 < i → 0 < shpRATE cfg → shpRATE cfg ≤ 200000 → ∃ t, exec (.polApply o body) s = .next t ∧
        policer t i = ⟨cfg &&& 0xC003FFFF, burst &&& 0xFF00FFFF, if bit 30 cfg.toNat then 0 else burstBytes burst * 8000, s.now⟩ ∧
        ∀ j, j ≠ i → policer t j = policer s j) ∧
      (i = 0 ∨ shpRATE cfg = 0 ∨ 200000 < shpRATE cfg →
        exec (.polApply o body) s = .next (reply o ST_BAD_PARAM [] (dispatch o s)))) ∧
    (body.length = 4 → shaperUsed i = true → (shaperSlot i = 0 ∨ present s (shaperSlot i) = true) → ∀ x, shaper s i = x →
      exec (.shpGet o body) s = .next (reply o ST_OK (beBytes 4 x.cfg.toNat ++ beBytes 4 x.burst.toNat ++
        beBytes 4 (BitVec.ofInt 32 ((min ((burstBytes x.burst : Int) * 8000) (x.tokens + shpRATE x.cfg * (s.now - x.last : Nat))) / 8000)).toNat) (dispatch o s))) ∧
    (body.length = 4 → 0 < i → i < 4096 → ∀ x, policer s i = x →
      exec (.polGet o body) s = .next (reply o ST_OK (beBytes 4 x.cfg.toNat ++ beBytes 4 x.burst.toNat ++
        beBytes 4 (BitVec.ofInt 32 ((min ((burstBytes x.burst : Int) * 8000) (x.tokens + shpRATE x.cfg * (s.now - x.last : Nat))) / 8000)).toNat) (dispatch o s)))) ∧
  (∀ s : State,
    (∀ (req : EntryPoint) (q : Nat), rd (Reg.SCH.HWM_SEL.QUEUE.mine req) s = q →
      (accStat s Reg.SCH.HWM_OCC.word.addr = ST_OK → ∃ t, exec (.hwmOccRead req) s = .next t ∧ t.lastRead = BitVec.ofNat 32 (hwmOcc s q) ∧
        hwmOcc t q = 0 ∧ (∀ r, hwmSoj t r = hwmSoj s r) ∧ ∀ r, r ≠ q → hwmOcc t r = hwmOcc s r) ∧
      (accStat s Reg.SCH.HWM_SOJ.word.addr = ST_OK → ∃ t, exec (.hwmSojRead req) s = .next t ∧ t.lastRead = BitVec.ofNat 32 (hwmSoj s q) ∧
        hwmSoj t q = 0 ∧ (∀ r, hwmOcc t r = hwmOcc s r) ∧ ∀ r, r ≠ q → hwmSoj t r = hwmSoj s r)) ∧
    (∀ (o : Origin) (body : List Byte) (q : Nat), mayDispatch s o = true → body.length = 4 → field body 0 1 = q → zeroAt body 1 3 = true →
      (q < 144 → ∃ t, exec (.hwmRead o body) s = .next t ∧ hwmOcc t q = 0 ∧ hwmSoj t q = 0 ∧
        t = reply o ST_OK (beBytes 4 (hwmOcc s q) ++ beBytes 4 (hwmSoj s q)) (clearOcc q (clearSoj q (dispatch o s)))) ∧
      (144 ≤ q → exec (.hwmRead o body) s = .next (reply o ST_BAD_PARAM [] (dispatch o s)))) ∧
    (∃ t, exec .expressMonitorWindow s = .next t ∧ (∀ n, n < 4 → (lp t n).xwin = 0) ∧
      (∀ n, n < 4 → 0 < rd Reg.GRD.XMON.XTH s → rd Reg.GRD.XMON.XTH s * 16 < (lp s n).xwin →
        bit n (rd Reg.GRD.XMSTAT.OVER t) = true ∧ Raised srcXBUDGET_OVER s t) ∧
      (∀ n, n < 4 → bit n (rd Reg.GRD.XMSTAT.OVER s) = true → bit n (rd Reg.GRD.XMSTAT.OVER t) = true) ∧
      ((∀ n, n < 4 → (lp s n).xwin ≤ rd Reg.GRD.XMON.XTH s * 16) → t.regs = s.regs ∧ t.srcs = s.srcs)) ∧
    (∀ (shp : BitVec 12) (f : OriginFrame) (rest : List OriginFrame) (x : Shaper),
      takeFirst (fun f : OriginFrame => f.shp == shp.toNat) s.sched.held = some (f, rest) → shaper s shp.toNat = x →
      (permits s x = true → f.slot = 0 → ∃ t, exec (.originFrameRelease shp) s = .next t ∧ t.sched.held = rest ∧
        (∃ l, holdOf t 16 = holdOf s 16 ++ l ∧ l.map (fun h => h.cell) = f.cells) ∧
        (shaper t shp.toNat).tokens = max (-((burstBytes x.burst : Int) * 8000)) (tokensNow s x - 8000 * f.charge) ∧
        (shaper t shp.toNat).last = s.now ∧ ∀ j, j ≠ shp.toNat → shaper t j = shaper s j) ∧
      (permits s x = false → exec (.originFrameRelease shp) s = .next s)))

/-- TUNNEL_FRAME_ORIGINATE of a die out of service changes nothing; without a valid origin entry of this slot (in the LD's table, or the
mapper's copy in a die) it counts TUN_UNMAPPED, above MAXLEN or 14848 bytes TUN_LONG. From the LD it appends the cells of the frame toward
P16's ingress, with FN counted for TIME and TRIG tunnels; an origin shaper without tokens, or with a frame held before it, holds the frame.
Rules: R24, R186, R210. -/
def Obligations.FramesAreOriginated : Prop :=
  ∀ (tun : BitVec 14) (frame : List Byte) (s : State),
    (∀ slot : Slot, slot.val ≠ 0 → domSt s (0x10 + slot.val) ≠ .inService → exec (.tunnelFrameOriginate slot tun frame) s = .next s) ∧
    (∀ slot : Slot, slotWorks s slot = true → slot.val = 0 ∨ originHeld s slot = false →
      (∀ e, (if slot.val = 0 then entry s 2 tun.toNat else Tab.get zeroN (mapperOf s slot) tun.toNat) = e → tun = 0 ∨ orgV e = false ∨ orgOSLOT e ≠ slot.val →
        ∃ t, exec (.tunnelFrameOriginate slot tun frame) s = .next t ∧ CountsUp (cTUN 1) s t ∧ Only [.ctrs, .srcs, .diag] s t) ∧
      (∀ e, originEntry s slot tun.toNat = some e → orgMAXLEN e < frame.length ∨ 14848 < frame.length →
        ∃ t, exec (.tunnelFrameOriginate slot tun frame) s = .next t ∧ CountsUp (cTUN 0) s t ∧ Only [.ctrs, .srcs, .diag] s t)) ∧
    (∀ e, originEntry s 0 tun.toNat = some e → frame.length ≤ orgMAXLEN e → frame.length ≤ 14848 → frame ≠ [] →
      (orgOSHP e = 0 → orgTYP e ≠ 7 → orgTYP e ≠ 8 →
        ∃ t l, exec (.tunnelFrameOriginate 0 tun frame) s = .next t ∧ holdOf t 16 = holdOf s 16 ++ l ∧ Only [.comb] s t ∧
          l.length = (frame.length + 115) / 116 ∧
          (l.map fun h => h.cell.payload.take h.cell.vlen).flatten = frame ∧
          (∀ k h, l[k]? = some h → h.cell.dst = orgDST e ∧ h.cell.src = ownAddr s ∧ h.cell.tun = tun.toNat ∧ h.cell.tc = orgTC e ∧
            h.cell.typ = orgTYP e ∧ h.cell.xpr = (orgXPR e && decide (frame.length ≤ 116)) ∧ h.cell.f = (k == 0) ∧
            h.cell.l = (k + 1 == l.length) ∧ (k + 1 < l.length → h.cell.vlen = 116) ∧ h.policed = false)) ∧
      (orgOSHP e = 0 → orgTYP e = 7 ∨ orgTYP e = 8 → 2 ≤ frame.length → ∀ fn, Tab.get zeroN s.tuns.fn tun.toNat = fn → fn < 65536 →
        ∃ t l, exec (.tunnelFrameOriginate 0 tun frame) s = .next t ∧ holdOf t 16 = holdOf s 16 ++ l ∧
          (l.map fun h => h.cell.payload.take h.cell.vlen).flatten = beBytes 2 fn ++ frame.drop 2 ∧
          Tab.get zeroN t.tuns.fn tun.toNat = (fn + 1) % 65536) ∧
      (orgOSHP e ≠ 0 → permits s (shaper s (orgOSHP e)) = false ∨ (s.sched.held.any fun f => f.shp == orgOSHP e) = true →
        ∃ t f, exec (.tunnelFrameOriginate 0 tun frame) s = .next t ∧ t.sched.held = s.sched.held ++ [f] ∧ f.shp = orgOSHP e ∧
          f.slot = 0 ∧ t.comb = s.comb ∧ t.sched.shapers = s.sched.shapers) ∧
      (orgOSHP e ≠ 0 → permits s (shaper s (orgOSHP e)) = true → (s.sched.held.any fun f => f.shp == orgOSHP e) = false →
        ∃ t, exec (.tunnelFrameOriginate 0 tun frame) s = .next t ∧ t.sched.held = s.sched.held ∧
          (holdOf s 16).length < (holdOf t 16).length ∧ (shaper t (orgOSHP e)).last = s.now ∧
          ∀ i, i ≠ orgOSHP e → shaper t i = shaper s i))

/-- TUNNEL_CELL_TERMINATE takes the oldest cell that arrived at a terminating port: one without an entry or of a type the unit does not take is
counted and dropped; a first cell opens a context (replacing one of the same stream, counted), a middle cell appends, a last cell delivers
the frame to its unit, and a cell that fits no context is counted. A TS with a frame held takes none. A cell taken at P4 to P15 leaves its
Tolger credit to be returned. TUN_RESET_CTX drops every context of the tunnel in all units and no other. Where frames end: log 35. Rules:
R24, R213, R214, R280, R380. -/
def Obligations.CellsAreReassembled : Prop :=
  (∀ (p : Fin 17) (c : Cell) (inp : Nat) (ctx : Option Nat) (rest : List (Cell × Nat × Option Nat)) (s : State),
    Tab.get noCells s.tuns.arrived p.val = (c, inp, ctx) :: rest →
    (p = 8 → s.hostIf.held.isSome = true → exec (.tunnelCellTerminate p) s = .next s) ∧
    (4 ≤ p.val → p.val < 16 → (p = 8 → s.hostIf.held = none) → ∃ t, exec (.tunnelCellTerminate p) s = .next t ∧
      owedOf (tolger t (p.val / 2) false) (p.val % 2) = owedOf (tolger s (p.val / 2) false) (p.val % 2) + 1) ∧
    (p = 16 → c.tun ≠ 0 → ctx = none →
      ∃ t, exec (.tunnelCellTerminate p) s = .next t ∧ CountsUp (cRTE 1) s t ∧ Tab.get noCells t.tuns.arrived p.val = rest ∧
        t.tuns.ctx = s.tuns.ctx) ∧
    ((p = 8 → s.hostIf.held = none) → (p = 16 → c.tun = 0 ∨ ctx ≠ none) →
      (unitTakes s p ctx c.typ = false →
        ∃ t, exec (.tunnelCellTerminate p) s = .next t ∧ CountsUp (cTUN 2) s t ∧ Tab.get noCells t.tuns.arrived p.val = rest ∧
          t.tuns.ctx = s.tuns.ctx) ∧
      (unitTakes s p ctx c.typ = true → ∀ (u : Nat) (mine : Reasm → Bool), unitOf p ctx c.typ = u →
        (mine = fun x => x.src == c.src && x.tun == c.tun && x.tc == c.tc) →
        (c.f = true → c.l = false → (ctxsOf s u).filter mine = [] → (ctxsOf s u).length < 512 →
          ∃ t, exec (.tunnelCellTerminate p) s = .next t ∧
            ctxsOf t u = ctxsOf s u ++ [⟨c.src, c.tun, c.tc, 1, c.payload.take c.vlen, false⟩] ∧
            Tab.get noCells t.tuns.arrived p.val = rest ∧ Only [.tuns, .tolger] s t) ∧
        (c.f = true → c.l = false → (∃ x, x ∈ ctxsOf s u ∧ mine x = true) → (∀ x, x ∈ ctxsOf s u → x.discarding = false) →
          (ctxsOf s u).length ≤ 512 →
          ∃ t, exec (.tunnelCellTerminate p) s = .next t ∧ CountsUp (cTUN (4 + u)) s t ∧
            ctxsOf t u = (ctxsOf s u).filter (fun x => !mine x) ++ [⟨c.src, c.tun, c.tc, 1, c.payload.take c.vlen, false⟩]) ∧
        (c.f = false → (ctxsOf s u).filter mine = [] →
          ∃ t, exec (.tunnelCellTerminate p) s = .next t ∧ CountsUp (cTUN (4 + u)) s t ∧ ctxsOf t u = ctxsOf s u) ∧
        (∀ x, c.f = false → c.l = false → ((ctxsOf s u).filter mine).head? = some x → x.discarding = false → x.cells < 128 →
          ∃ t, exec (.tunnelCellTerminate p) s = .next t ∧
            ctxsOf t u = (ctxsOf s u).filter (fun y => !mine y) ++ [{ x with cells := x.cells + 1, bytes := x.bytes ++ c.payload.take c.vlen }] ∧
            Only [.tuns, .tolger] s t) ∧
        (∀ x, c.f = false → ((ctxsOf s u).filter mine).head? = some x → x.discarding = false → 128 ≤ x.cells →
          ∃ t, exec (.tunnelCellTerminate p) s = .next t ∧ CountsUp (cTUN (4 + u)) s t ∧
            (c.l = false → ctxsOf t u = (ctxsOf s u).filter (fun y => !mine y) ++ [{ x with discarding := true, bytes := [] }]) ∧
            (c.l = true → ctxsOf t u = (ctxsOf s u).filter fun y => !mine y)) ∧
        (∀ x, c.f = false → c.l = true → ((ctxsOf s u).filter mine).head? = some x → x.discarding = false → x.cells < 128 →
          (p = 10 ∨ p = 11 → ∀ g : Frame, g = ⟨c.dst, x.src, x.tun, x.tc, c.typ, c.xpr, ctx.getD 0, if inp < 4 then some inp else none,
              c.dst == 0x3FFF || c.dst == 0x3FFE, x.bytes ++ c.payload.take c.vlen⟩ → c.typ ≠ 0 → flipGood g = true →
            ∃ t, exec (.tunnelCellTerminate p) s = .next t ∧ inbox t p = inbox s p ++ [g] ∧
              ctxsOf t u = (ctxsOf s u).filter (fun y => !mine y) ∧ Only [.tuns, .tolger] s t))))) ∧
  (∀ (o : Origin) (body : List Byte) (i : Nat) (s : State), mayDispatch s o = true → body.length = 4 → field body 0 2 = i → i < 16384 →
    zeroAt body 2 2 = true →
    ∃ t, exec (.tunResetCtx o body) s = .next t ∧ (∀ u, u < 16 → ctxsOf t u = (ctxsOf s u).filter fun r => r.tun != i) ∧
      t.brg.wctx = (s.brg.wctx.filter fun w => w.tun != i))

/-- WCTL and TCTL APPLY store the staged window or aperture when its size and alignment are good (and its tunnel fits), and change no other;
otherwise nothing. LOAD copies back. PWL_DATA and ELG_DATA give the four words of the oldest entry to each requester in turn and then drop
it, 0 when empty; PWL_STAT, ELG_STAT and RDSTAT show their counts and clear what they clear; PWL_READ and ELG_READ answer up to 32 records
and leave the log (log 23). Rules: R220, R221, R234, R278. -/
def Obligations.BridgeWindowsAndLogs : Prop :=
  ∀ (req : EntryPoint) (s : State),
    (∀ (i : Nat) (w : Window), rd (Reg.BRG.WSEL.INDEX.mine req) s = i →
      w = ⟨regGet s (Reg.BRG.WCFG.word.mine req).addr &&& 0xEFF03FFF, regGet s (Reg.BRG.WLBASE.word.mine req).addr,
        regGet s (Reg.BRG.WRBASE.word.mine req).addr⟩ → accStat s Reg.BRG.WCTL.word.addr = ST_OK →
      (12 ≤ wSIZE w → wSIZE w ≤ 36 → 2 ^ wSIZE w ∣ wL w → 2 ^ wSIZE w ∣ wR w → (brgTunnel s (wTUN w)).isSome = true →
        ∃ t, exec (.brgWctlApply req) s = .next t ∧ window t i = w ∧ (∀ j, j ≠ i → window t j = window s j) ∧ t.regs = s.regs) ∧
      (wSIZE w < 12 ∨ 36 < wSIZE w ∨ ¬ 2 ^ wSIZE w ∣ wL w ∨ ¬ 2 ^ wSIZE w ∣ wR w ∨ brgTunnel s (wTUN w) = none →
        exec (.brgWctlApply req) s = .next s) ∧
      (∃ t, exec (.brgWctlLoad req) s = .next t ∧ regGet t (Reg.BRG.WCFG.word.mine req).addr = (window s i).cfg ∧
        regGet t (Reg.BRG.WLBASE.word.mine req).addr = (window s i).lbase ∧
        regGet t (Reg.BRG.WRBASE.word.mine req).addr = (window s i).rbase ∧ t.brg = s.brg)) ∧
    (∀ (i : Nat) (w : Window), rd (Reg.BRG.TSEL.INDEX.mine req) s = i →
      w = ⟨regGet s (Reg.BRG.TCFG.word.mine req).addr &&& 0xE3F03FFF, 0, regGet s (Reg.BRG.TBASE.word.mine req).addr⟩ →
      accStat s Reg.BRG.TCTL.word.addr = ST_OK →
      (12 ≤ wSIZE w → wSIZE w ≤ 36 → 2 ^ wSIZE w ∣ wR w →
        ∃ t, exec (.brgTctlApply req) s = .next t ∧ aperture t i = w ∧ (∀ j, j ≠ i → aperture t j = aperture s j) ∧ t.regs = s.regs) ∧
      (wSIZE w < 12 ∨ 36 < wSIZE w ∨ ¬ 2 ^ wSIZE w ∣ wR w → exec (.brgTctlApply req) s = .next s) ∧
      (∃ t, exec (.brgTctlLoad req) s = .next t ∧ regGet t (Reg.BRG.TCFG.word.mine req).addr = (aperture s i).cfg ∧
        regGet t (Reg.BRG.TBASE.word.mine req).addr = (aperture s i).rbase ∧ t.brg = s.brg)) ∧
    (accStat s Reg.BRG.PWL_DATA.word.addr = ST_OK →
      (s.brg.pwl = [] → ∃ t, exec (.pwlDataRead req) s = .next t ∧ t.lastRead = 0 ∧ t.brg = s.brg) ∧
      (∀ e l i, s.brg.pwl = e :: l → Tab.get zeroN s.brg.widx (reqIdx req) = i → i < 4 →
        ∃ t, exec (.pwlDataRead req) s = .next t ∧ [e.w0, e.w1, e.w2, e.w3][i]? = some t.lastRead ∧
          Tab.get zeroN t.brg.widx (reqIdx req) = (i + 1) % 4 ∧ t.brg.pwl = (if i = 3 then l else s.brg.pwl) ∧ t.brg.elg = s.brg.elg)) ∧
    (accStat s Reg.BRG.ELG_DATA.word.addr = ST_OK →
      (s.brg.elg = [] → ∃ t, exec (.elgDataRead req) s = .next t ∧ t.lastRead = 0 ∧ t.brg = s.brg) ∧
      (∀ e l i, s.brg.elg = e :: l → Tab.get zeroN s.brg.widx (4 + reqIdx req) = i → i < 4 →
        ∃ t, exec (.elgDataRead req) s = .next t ∧ [e.w0, e.w1, e.w2, e.w3][i]? = some t.lastRead ∧
          Tab.get zeroN t.brg.widx (4 + reqIdx req) = (i + 1) % 4 ∧ t.brg.elg = (if i = 3 then l else s.brg.elg) ∧ t.brg.pwl = s.brg.pwl)) ∧
    (accStat s Reg.BRG.PWL_STAT.word.addr = ST_OK → s.brg.pwl.length ≤ 64 → ∃ t, exec (.pwlStatRead req) s = .next t ∧
      t.lastRead.toNat = rd Reg.BRG.PWL_STAT.OVF s * 65536 + s.brg.pwl.length ∧ rd Reg.BRG.PWL_STAT.OVF t = 0 ∧
      RegsBut [Reg.BRG.PWL_STAT.word.addr] s t ∧ t.brg = s.brg) ∧
    (accStat s Reg.BRG.ELG_STAT.word.addr = ST_OK → s.brg.elg.length ≤ 64 → ∃ t, exec (.elgStatRead req) s = .next t ∧
      t.lastRead.toNat = rd Reg.BRG.ELG_STAT.OVF s * 65536 + s.brg.elg.length ∧ rd Reg.BRG.ELG_STAT.OVF t = 0 ∧
      RegsBut [Reg.BRG.ELG_STAT.word.addr] s t ∧ t.brg = s.brg) ∧
    (accStat s Reg.BRG.RDSTAT.word.addr = ST_OK → s.brg.peak ≤ 1024 → s.brg.reads.length ≤ 1024 → ∃ t, exec (.rdstatRead req) s = .next t ∧
      t.lastRead.toNat = s.brg.peak * 65536 + s.brg.reads.length ∧ t.brg.peak = s.brg.reads.length ∧ t.brg.reads = s.brg.reads) ∧
    (∀ (o : Origin) (body : List Byte) (n : Nat), mayDispatch s o = true → body.length = 4 → field body 0 1 = n → zeroAt body 1 3 = true →
      0 < n → n ≤ 32 →
      (∃ u, exec (.pwlRead o body) s = .next (reply o ST_OK (beBytes 1 (min n s.brg.pwl.length) ++ [0, 0, 0] ++
        ((s.brg.pwl.take n).map entryBytes).flatten) u) ∧ u.brg = { s.brg with pwl := s.brg.pwl.drop n } ∧ Only [.brg, .cmd] s u) ∧
      (∃ u, exec (.elgRead o body) s = .next (reply o ST_OK (beBytes 1 (min n s.brg.elg.length) ++ [0, 0, 0] ++
        ((s.brg.elg.take n).map entryBytes).flatten) u) ∧ u.brg = { s.brg with elg := s.brg.elg.drop n } ∧ Only [.brg, .cmd] s u))

/-- With a window, a valid tunnel and a free entry BRG_READ takes the lowest free tag, sends its request and waits; without a tag it waits
unsent; BRG_WRITE sends its numbered write and answers ST_OK. Without a window the read answers ST_BRG_FAIL with all ones, and the write
ST_OK with an entry in the posted-write log and PWERR. Without an entry the transaction is retried. A range that crosses its limit answers
ST_BAD_PARAM. Which tag is taken: log 12; the other readings: log 34. Rules: R282. -/
def Obligations.BridgeRequestsGoThroughWindows : Prop :=
  ∀ (o : Origin) (body : List Byte) (a n : Nat) (s : State), mayDispatch s o = true → field body 0 5 = a → field body 6 2 = n →
    (∀ w e, windowAt s a = some w → rdB Reg.BRG.CFG.IEN s = true → brgTunnel s (wTUN w) = some e → entryFree s false = true → orgOSHP e = 0 →
      (body.length = 8 → rangeBad body 4096 = false → wRD w = true → ∀ tag g, freeReadTag s = some tag → Tab.get zeroN s.brg.gens tag = g →
        ∃ t, exec (.brgRead o body) s = .next t ∧
          t.brg.reads = s.brg.reads ++ [⟨tag, g, n, wR w + (a - wL w), a, wTUN w, orgDST e, .cmd o⟩] ∧
          Tab.get zeroN t.brg.gens tag = (g + 1) % 64 ∧
          Sends (orgDST e) (wTUN w) (orgTC e) 4 (orgXPR e) (brgHeader 2 0 0 (g * 1024 + tag) n (wR w + (a - wL w))) s t) ∧
      (body.length = 8 → rangeBad body 4096 = false → wRD w = true → freeReadTag s = none →
        ∃ t x, exec (.brgRead o body) s = .next t ∧ t.brg.readWait = s.brg.readWait ++ [x] ∧ x.reader = .cmd o ∧ x.addr = a ∧ x.len = n ∧
          t.comb = s.comb) ∧
      (body.length = 8 + n → rangeBad body 512 = false → wWR w = true → 16 + n ≤ orgMAXLEN e → ∀ k b, Tab.get zeroN s.brg.wnum (wTUN w) = k →
        Tab.get noB s.brg.started (wTUN w) = b →
        ∃ u, exec (.brgWrite o body) s = .next (reply o ST_OK [] u) ∧ Tab.get zeroN u.brg.wnum (wTUN w) = (k + 1) % 65536 ∧
          Tab.get noB u.brg.started (wTUN w) = true ∧
          Sends (orgDST e) (wTUN w) (orgTC e) 4 (orgXPR e) (brgHeader 1 (if b then 0 else 1) 0 k n (wR w + (a - wL w)) ++ body.drop 8) s u)) ∧
    (entryFree s false = true → windowAt s a = none →
      (body.length = 8 → rangeBad body 4096 = false →
        ∃ u, exec (.brgRead o body) s = .next (reply o ST_BRG_FAIL ([1, 0, 0, 0] ++ List.replicate n 0xFF) u) ∧ CountsUp (cBRG 0) s u ∧
          (compat s = false → s.brg.elg.length < 64 → u.brg.elg = s.brg.elg ++ [brgEntry s 1 3 0 0 0 a]) ∧ u.comb = s.comb) ∧
      (body.length = 8 + n → rangeBad body 512 = false →
        ∃ u, exec (.brgWrite o body) s = .next (reply o ST_OK [] u) ∧ Raised srcPWERR s u ∧
          (s.brg.pwl.length < 64 → u.brg.pwl = s.brg.pwl ++ [brgEntry s 1 3 0 0 0 a]) ∧ u.comb = s.comb)) ∧
    (entryFree s false = false → body.length = 8 → rangeBad body 4096 = false →
      ∃ t x, exec (.brgRead o body) s = .next t ∧ CountsUp (cBRG 5) s t ∧ t.brg.retry = x :: s.brg.retry ∧ x.tries = 1 ∧ x.reader = .cmd o ∧
        x.addr = a ∧ x.len = n) ∧
    (body.length = 8 → rangeBad body 4096 = true → exec (.brgRead o body) s = .next (reply o ST_BAD_PARAM [] (dispatch o s))) ∧
    (body.length = 8 + n → rangeBad body 512 = true → exec (.brgWrite o body) s = .next (reply o ST_BAD_PARAM [] (dispatch o s)))

/-- A WINDOW_REQUEST in service goes through its window; out of service a write is logged. A BAR2 request within 4096 bytes is that window
request, a longer read is cut at the boundary. The sixteenth RETRY of a command answers ST_RETRY, an earlier one counts, a retry with room
proceeds. A completion without its tag and generation is counted and dropped; a good one answers ST_OK with its data, one with a status or a
wrong length ST_BRG_FAIL, a timeout ST_TIMEOUT with all ones. A PWERR frame is logged and raises PWERR. Readings: log 34. Rules: R221, R225,
R226, R227, R229, R232, R382. -/
def Obligations.BarRequestsAndAnswers : Prop :=
  (∀ s : State,
    (∀ (addr : BitVec 36) (len : BitVec 13) (tlp : Nat) (w : Window) (e tag : Nat), tsLives s = true → domSt s 0x14 = .inService →
      (∀ x, x ∈ s.brg.retry → barPort x.reader = false) → windowAt s addr.toNat = some w → rdB Reg.BRG.CFG.IEN s = true →
      brgTunnel s (wTUN w) = some e → wRD w = true → entryFree s true = true → freeReadTag s = some tag → 0 < len.toNat →
      addr.toNat % 4096 + len.toNat ≤ 4096 →
      ∃ t, exec (.windowRequest false addr len [] tlp) s = .next t ∧
        t.brg.reads = s.brg.reads ++ [⟨tag, Tab.get zeroN s.brg.gens tag, len.toNat, wR w + (addr.toNat - wL w), addr.toNat, wTUN w, orgDST e, .bar2 tlp⟩]) ∧
    (∀ (addr : BitVec 36) (len : BitVec 13) (data : List Byte) (tlp : Nat), tsLives s = true → domSt s 0x14 ≠ .inService →
      data.length = len.toNat → 0 < len.toNat → len.toNat ≤ 512 → addr.toNat % 4096 + len.toNat ≤ 4096 →
      ∃ t, exec (.windowRequest true addr len data tlp) s = .next t ∧ Raised srcPWERR s t ∧ t.comb = s.comb ∧
        (s.brg.pwl.length < 64 → t.brg.pwl = s.brg.pwl ++ [brgEntry s 1 3 0 0 0 addr.toNat])) ∧
    (∀ (w : Bool) (addr : BitVec 36) (len : BitVec 13) (data : List Byte) (tlp : Nat), 0 < len.toNat → addr.toNat % 4096 + len.toNat ≤ 4096 →
      (w = true → data.length = len.toNat ∧ len.toNat ≤ 512) → (w = false → data = []) →
      exec (.bar2Request w addr len data tlp) s = exec (.windowRequest w addr len data tlp) s) ∧
    (∀ (addr : BitVec 36) (len : BitVec 13) (tlp n : Nat), n = 4096 - addr.toNat % 4096 → n < len.toNat → len.toNat ≤ 4096 → tsLives s = true →
      ∃ u, exec (.windowRequest false addr (BitVec.ofNat 13 n) [] tlp) s = .next u ∧
        exec (.bar2Request false addr len [] tlp) s =
          exec (.windowRequest false (addr + BitVec.ofNat 36 n) (BitVec.ofNat 13 (len.toNat - n)) [] tlp) u) ∧
    (∀ (id : Nat) (x : LocalTxn) (o : Origin) (rest : List LocalTxn), takeFirst (fun t : LocalTxn => t.id == id) s.brg.retry = some (x, rest) →
      x.reader = .cmd o → (∀ y, y ∈ rest → barPort y.reader = false) → x.wr = false →
      (15 ≤ x.tries → entryFree s false = false →
        ∃ u, exec (.localRetry id) s = .next (reply o ST_RETRY [] u) ∧ u.brg.retry = rest ∧ CountsUp (cBRG 5) s u) ∧
      (0 < x.tries → x.tries < 15 → entryFree s false = false →
        ∃ t, exec (.localRetry id) s = .next t ∧ t.brg.retry = { x with tries := x.tries + 1 } :: rest ∧ CountsUp (cBRG 5) s t) ∧
      (0 < x.tries → entryFree s false = true → ∀ w tag, windowAt s x.addr = some w → rdB Reg.BRG.CFG.IEN s = true →
        (brgTunnel s (wTUN w)).isSome = true → wRD w = true → freeReadTag s = some tag →
        ∃ t r, exec (.localRetry id) s = .next t ∧ t.brg.retry = rest ∧ t.brg.reads = s.brg.reads ++ [r] ∧ r.tag = tag ∧ r.reader = .cmd o ∧
          r.loc = x.addr ∧ r.len = x.len))) ∧
  (∀ s : State,
    (∀ (f : Frame) (u : State) (st : Nat), takeFrame 1 (fun f => brgKind f.bytes == 3) s = some (f, u) → brgStatus f.bytes = st →
      (takeFirst (fun r : ReadTag => r.tag == brgId f.bytes % 1024 && r.gen == brgId f.bytes / 1024) s.brg.reads = none →
        ∃ t, exec .cplReceive s = .next t ∧ CountsUp (cBRG 1) s t ∧ t.brg = s.brg ∧ inbox t 1 = inbox u 1) ∧
      (∀ (r : ReadTag) (rest : List ReadTag) (o : Origin),
        takeFirst (fun r : ReadTag => r.tag == brgId f.bytes % 1024 && r.gen == brgId f.bytes / 1024) s.brg.reads = some (r, rest) →
        r.reader = .cmd o → s.brg.readWait = [] →
        (st = 0 → brgLen f.bytes = r.len → ∃ v, exec .cplReceive s = .next (reply o ST_OK ([0, 0, 0, 0] ++ f.bytes.drop 16) v) ∧
          v.brg.reads = rest ∧ inbox v 1 = inbox u 1) ∧
        (0 < st → st < 256 → ∃ v, exec .cplReceive s = .next (reply o (if st = 8 then ST_TIMEOUT else ST_BRG_FAIL)
            (beBytes 1 st ++ [0, 0, 0] ++ List.replicate r.len 0xFF) v) ∧ v.brg.reads = rest ∧ CountsUp (cBRG 0) s v ∧
          (compat s = false → s.brg.elg.length < 64 → v.brg.elg = s.brg.elg ++ [brgEntry s st 1 r.dst r.tun (brgId f.bytes) r.addr])) ∧
        (st = 0 → brgLen f.bytes ≠ r.len → ∃ v d, exec .cplReceive s = .next (reply o ST_BRG_FAIL
            (beBytes 1 d ++ [0, 0, 0] ++ List.replicate r.len 0xFF) v) ∧ v.brg.reads = rest ∧ CountsUp (cBRG 0) s v))) ∧
    (∀ (tag : Fin 1024) (r : ReadTag) (rest : List ReadTag) (o : Origin), takeFirst (fun r : ReadTag => r.tag == tag.val) s.brg.reads = some (r, rest) →
      r.reader = .cmd o → s.brg.readWait = [] →
      ∃ v, exec (.readTimeout tag) s = .next (reply o ST_TIMEOUT ([8, 0, 0, 0] ++ List.replicate r.len 0xFF) v) ∧ v.brg.reads = rest ∧
        CountsUp (cBRG 0) s v ∧
        (compat s = false → s.brg.elg.length < 64 → v.brg.elg = s.brg.elg ++ [brgEntry s 8 2 r.dst r.tun (r.gen * 1024 + r.tag) r.addr])) ∧
    (∀ (f : Frame) (u : State), takeFrame 1 (fun f => brgKind f.bytes == 6) s = some (f, u) →
      ∃ t, exec .pwerrReceive s = .next t ∧ Raised srcPWERR s t ∧ inbox t 1 = inbox u 1 ∧
        (s.brg.pwl.length < 64 → t.brg.pwl = s.brg.pwl ++
          [brgEntry s (brgStatus f.bytes) (if brgStatus f.bytes = 7 then 7 else 5) f.src f.tun (brgId f.bytes) (brgAddr f.bytes)]) ∧
        (64 ≤ s.brg.pwl.length → t.brg.pwl = s.brg.pwl ∧ rd Reg.BRG.PWL_STAT.OVF t = min 65535 (rd Reg.BRG.PWL_STAT.OVF s + 1))))

/-- BRG_WRITE_RECEIVE: a write with START or without a context opens the sequence; the next number is applied and advances it; a number ahead
applies, reports and logs the lost ones; a write applied waits for its Deep Comb access; one behind is discarded as STALE_WR; one whose
aperture fails is counted and not applied. A fence that finds its writes complete answers the number failed and clears it. WRITE_FENCE sends
its fence or waits behind one of its tunnel; its answer or timeout ends it. Readings: log 34. Rules: R228, R229, R230. -/
def Obligations.BridgeWritesAndFences : Prop :=
  (∀ (f : Frame) (a n st : Nat) (s : State), nextRequest s 1 [] (inbox s 1) = some f → brgAddr f.bytes = a → brgId f.bytes = n → n < 65536 →
    (apertureFails s f true a (brgLen f.bytes) = none → a + brgLen f.bytes ≤ 0x100000000 → s1Up s = true →
      (brgStart f.bytes = true →
        ∃ t c, exec .brgWriteReceive s = .next t ∧ ctxOf t f.src f.tun = some c ∧ c.next = (n + 1) % 65536 ∧ c.sure = true ∧
          t.brg.held = s.brg.held ++ [⟨true, f.src, f.tun, f.tc, n, a, brgLen f.bytes, f.bytes.drop 16, 0x11⟩] ∧
          inbox t 1 = (inbox s 1).erase f ∧ t.deep = s.deep) ∧
      (brgStart f.bytes = false → ctxOf s f.src f.tun = none →
        ∃ t c, exec .brgWriteReceive s = .next t ∧ ctxOf t f.src f.tun = some c ∧ c.next = (n + 1) % 65536 ∧ c.sure = false ∧ c.fails = 0 ∧
          t.brg.held = s.brg.held ++ [⟨true, f.src, f.tun, f.tc, n, a, brgLen f.bytes, f.bytes.drop 16, 0x11⟩]) ∧
      (∀ c, brgStart f.bytes = false → ctxOf s f.src f.tun = some c → c.next < 65536 →
        (n = c.next → ∃ t d, exec .brgWriteReceive s = .next t ∧ ctxOf t f.src f.tun = some d ∧ d = { c with next := (n + 1) % 65536 } ∧
          t.brg.held = s.brg.held ++ [⟨true, f.src, f.tun, f.tc, n, a, brgLen f.bytes, f.bytes.drop 16, 0x11⟩] ∧ t.comb = s.comb) ∧
        (∀ d, 0 < d → d < 32768 → n = (c.next + d) % 65536 →
          ∃ t x, exec .brgWriteReceive s = .next t ∧ ctxOf t f.src f.tun = some x ∧ x.next = (n + 1) % 65536 ∧ x.fails = min 65535 (c.fails + d) ∧
            (∃ h, t.brg.held = s.brg.held ++ [h]) ∧
            Sends f.src f.tun f.tc 4 false (brgHeader 6 0 7 c.next d 0) s t ∧
            (s.brg.elg.length < 64 → ∃ e, t.brg.elg = s.brg.elg ++ [e])))) ∧
    (∀ c d, brgStart f.bytes = false → ctxOf s f.src f.tun = some c → c.next < 65536 → 32768 ≤ d → d < 65536 → n = (c.next + d) % 65536 →
      ∃ t, exec .brgWriteReceive s = .next t ∧ CountsUp (cBRG 4) s t ∧ t.brg = s.brg ∧ t.deep = s.deep ∧ inbox t 1 = (inbox s 1).erase f) ∧
    (apertureFails s f true a (brgLen f.bytes) = some st → brgStart f.bytes = true →
      ∃ t, exec .brgWriteReceive s = .next t ∧ CountsUp (cBRG 3) s t ∧ t.brg.held = s.brg.held ∧ t.deep = s.deep ∧
        Sends f.src f.tun f.tc 4 false (brgHeader 6 0 st n 1 a) s t)) ∧
  (∀ s : State,
    (∀ (f : Frame) (n : Nat), nextRequest s 4 [] (inbox s 1) = some f → brgId f.bytes = n → n < 65536 →
      (∀ c, ctxOf s f.src f.tun = some c → c.next = n → c.fails < 65536 → brgStart f.bytes = false →
        ∃ t d, exec .fenceReceive s = .next t ∧ ctxOf t f.src f.tun = some d ∧ d = { c with fails := 0 } ∧ inbox t 1 = (inbox s 1).erase f ∧
          Sends f.src f.tun f.tc 4 false (brgHeader 5 0 (if c.sure then 0 else 9) n c.fails 0) s t) ∧
      (ctxOf s f.src f.tun = none → brgStart f.bytes = false →
        ∃ t d, exec .fenceReceive s = .next t ∧ ctxOf t f.src f.tun = some d ∧ d.next = n ∧ d.fails = 0 ∧
          Sends f.src f.tun f.tc 4 false (brgHeader 5 0 9 n 0 0) s t)) ∧
    (∀ (o : Origin) (body : List Byte) (i tun : Nat), mayDispatch s o = true → body.length = 4 → field body 0 1 = i → i < 64 →
      zeroAt body 1 3 = true → wTUN (window s i) = tun →
      ((∀ y, y ∈ s.brg.fences → y.tun ≠ tun) → ∃ t, exec (.writeFence o body) s = .next t ∧
        t.brg.fences = s.brg.fences ++ [⟨tun, i, Tab.get zeroN s.brg.wnum tun, true, o⟩] ∧
        ∀ e, brgTunnel s tun = some e → orgOSHP e = 0 →
          Sends (orgDST e) tun (orgTC e) 4 (orgXPR e) (brgHeader 4 (if Tab.get noB s.brg.started tun then 0 else 1) 0 (Tab.get zeroN s.brg.wnum tun) 0 0) s t) ∧
      ((∃ y, y ∈ s.brg.fences ∧ y.tun = tun) → ∃ t, exec (.writeFence o body) s = .next t ∧
        t.brg.fences = s.brg.fences ++ [⟨tun, i, 0, false, o⟩] ∧ t.comb = s.comb)) ∧
    (∀ (f : Frame) (u : State) (x : Fence), takeFrame 1 (fun f => brgKind f.bytes == 5) s = some (f, u) →
      (s.brg.fences.filter fun x => x.sent && x.tun == f.tun && x.id == brgId f.bytes).head? = some x →
      (∀ y, y ∈ s.brg.fences → y.tun = f.tun → y.sent = true) →
      ∃ w, exec .fenceAckReceive s = .next (updBrg (fun b => { b with fences := b.fences.filter fun y => y.tun != f.tun })
          (reply x.o (if brgLen f.bytes = 0 ∧ brgStatus f.bytes = 0 then ST_OK else ST_PARTIAL)
            (beBytes 2 (brgLen f.bytes) ++ beBytes 1 (brgStatus f.bytes) ++ [0]) w)) ∧
        inbox w 1 = inbox u 1 ∧ w.brg.fences = s.brg.fences ∧ (brgStatus f.bytes = 9 → Tab.get noB w.brg.started f.tun = false) ∧
        (brgStatus f.bytes ≠ 9 → w.brg = s.brg) ∧ Only [.tuns, .brg] s w) ∧
    (∀ (tun : BitVec 14) (x : Fence), (s.brg.fences.filter fun x => x.sent && x.tun == tun.toNat).head? = some x →
      (∀ y, y ∈ s.brg.fences → y.tun = tun.toNat → y.sent = true) →
      exec (.fenceTimeout tun) s = .next (updBrg (fun b => { b with fences := b.fences.filter fun y => y.tun != tun.toNat })
        (reply x.o ST_TIMEOUT [] s))))

/-- BRG_READ_RECEIVE: an aperture that fails is answered with its status, a Deep Comb read waits for the access (or is refused when S1 is down).
DEEP_COMB_ACCESS_DONE writes the bytes, or sends the data or RD_FAIL; PCIE_COMPLETION_RECEIVE, HOST_MEMORY_TIMEOUT and ROOT_PORT_TIMEOUT end
a host or device read with data or an error. An inbound device request writes or reads the proxied region, is UR outside it (INUR), and a
doorbell write sets its MSI bit. Readings: log 34. Rules: R47, R48, R219, R220, R383, R384, R385. -/
def Obligations.BridgeTargetServesRequests : Prop :=
  ∀ s : State,
    (∀ (f : Frame) (a st : Nat), nextRequest s 2 [] (inbox s 1) = some f → brgAddr f.bytes = a →
      (apertureFails s f false a (brgLen f.bytes) = some st →
        ∃ t, exec .brgReadReceive s = .next t ∧ Sends f.src f.tun f.tc 4 false (brgHeader 3 0 st (brgId f.bytes) 0 0) s t ∧ t.brg = s.brg) ∧
      (apertureFails s f false a (brgLen f.bytes) = none → a + brgLen f.bytes ≤ 0x100000000 →
        (s1Up s = true → ∃ t, exec .brgReadReceive s = .next t ∧ t.comb = s.comb ∧
          t.brg.held = s.brg.held ++ [⟨false, f.src, f.tun, f.tc, brgId f.bytes, a, brgLen f.bytes, f.bytes.drop 16, 0x11⟩]) ∧
        (s1Up s = false → ∃ t, exec .brgReadReceive s = .next t ∧
          Sends f.src f.tun f.tc 4 false (brgHeader 3 0 3 (brgId f.bytes) 0 0) s t ∧ t.brg = s.brg))) ∧
    (∀ h, heldAt s (fun h => h.dom == 0x11) 0 = some h → dcmServes s 4 = true →
      (h.wr = true → ∀ good, ∃ t, exec (.deepCombAccessDone good) s = .next t ∧ t.brg.held = s.brg.held.erase h ∧ t.comb = s.comb ∧
        (∀ k, k < h.data.length → h.data[k]? = some (deepRead t (h.addr + k))) ∧
        (∀ x, x < h.addr ∨ h.addr + h.data.length ≤ x → deepRead t x = deepRead s x)) ∧
      (h.wr = false → ∃ t, exec (.deepCombAccessDone true) s = .next t ∧ t.brg.held = s.brg.held.erase h ∧ t.deep = s.deep ∧
        Sends h.src h.tun h.tc 4 false (brgHeader 3 0 0 h.id h.len 0 ++ deepReads s h.addr h.len) s t) ∧
      (h.wr = false → ∃ t, exec (.deepCombAccessDone false) s = .next t ∧ t.brg.held = s.brg.held.erase h ∧ t.deep = s.deep ∧
        Sends h.src h.tun h.tc 4 false (brgHeader 3 0 4 h.id 0 0) s t)) ∧
    (∀ (root : Bool) (n : Nat) (h : BrgHeld), heldAt s (onPcie root) n = some h → h.wr = false →
      (∀ data : List Byte, data.length = h.len → ∃ t, exec (.pcieCompletionReceive root n true data) s = .next t ∧
        t.brg.held = s.brg.held.erase h ∧ Sends h.src h.tun h.tc 4 false (brgHeader 3 0 0 h.id data.length 0 ++ data) s t) ∧
      (∀ data, ∃ t, exec (.pcieCompletionReceive root n false data) s = .next t ∧ t.brg.held = s.brg.held.erase h ∧
        Sends h.src h.tun h.tc 4 false (brgHeader 3 0 5 h.id 0 0) s t) ∧
      (root = false → ∃ t, exec (.hostMemoryTimeout n) s = .next t ∧ t.brg.held = s.brg.held.erase h ∧
        Sends h.src h.tun h.tc 4 false (brgHeader 3 0 5 h.id 0 0) s t) ∧
      (root = true → ∃ t, exec (.rootPortTimeout n) s = .next t ∧ t.brg.held = s.brg.held.erase h ∧ Raised srcCPLTO s t ∧
        rd Reg.PCR.STAT.CPLTO t = 1 ∧ Sends h.src h.tun h.tc 4 false (brgHeader 3 0 5 h.id 0 0) s t)) ∧
    (∀ (wr : Bool) (addr : BitVec 64) (len : BitVec 13) (data : List Byte) (n : Nat), tsServes s = true → rdB Reg.PCR.STAT.LINKUP s = true →
      n = (if wr then data.length else len.toNat) → 0 < n →
      (addr.toNat < 2 ^ 32 → inRegion s 2 addr.toNat n = true → s1Up s = true →
        (wr = true → ∃ t, exec (.inboundDeviceRequest wr addr len data) s = .next t ∧
          (∀ k, k < n → data[k]? = some (deepRead t (addr.toNat + k))) ∧
          (∀ x, x < addr.toNat ∨ addr.toNat + n ≤ x → deepRead t x = deepRead s x) ∧ Only [.deep] s t) ∧
        (wr = false → ∃ t, exec (.inboundDeviceRequest wr addr len data) s = .next t ∧ Only [.hostIf] s t ∧
          t.hostIf.sent = s.hostIf.sent ++ [.devCpl true (deepReads s addr.toNat n)])) ∧
      (addr.toNat < 2 ^ 32 → inRegion s 2 addr.toNat n = false →
        ∃ t, exec (.inboundDeviceRequest wr addr len data) s = .next t ∧ rd Reg.PCR.STAT.INUR t = 1 ∧ Raised srcINUR s t ∧ t.deep = s.deep ∧
          (wr = false → t.hostIf.sent = s.hostIf.sent ++ [.devCpl false []])) ∧
      (wr = true → n = 4 → ∀ k, k < 16 → addr.toNat = 2 ^ 32 + 4 * k →
        ∃ t, exec (.inboundDeviceRequest wr addr len data) s = .next t ∧ bit k (rd Reg.PCR.STAT.MSIP t) = true ∧ Raised srcPCR_MSI s t ∧
          t.deep = s.deep))

/-- PCIE_LINK_UP within the configured limits sets the link status, loss clears it with its queues and commands, FLR clears the host interface
and keeps the link; otherwise nothing changes. While the endpoint lives: MB_SUBMIT takes a command of 16 to 8216 bytes when CFREE, else an
error or a count; MB_RELEASE gives the next reply; status reads clear their error bits; TX_GO originates a frame or sets TXERR; RQ_CI frees
a slot and a held frame is written at PI. While it does not live, or MEN is 0, nothing changes. Readings: log 30. Rules: R275, R378, R379,
R380, R384, R386. -/
def Obligations.HostLinksAndInterface : Prop :=
  (∀ s : State,
    (rdB Reg.PCE.STAT.LINKUP s = true →
      ∃ t, exec .pcieLinkDown s = .next t ∧ rd Reg.PCE.STAT.LINKUP t = 0 ∧ rd Reg.PCE.STAT.LDN t = 1 ∧ rd Reg.PCE.STAT.GEN t = 0 ∧
        rd Reg.PCE.STAT.BME t = 0 ∧ t.hostIf.words = [] ∧ (∀ r, r ∈ t.brg.reads → ∀ k, r.reader ≠ .bar2 k) ∧
        Raised srcPCELINK s t) ∧
    (rdB Reg.PCE.STAT.LINKUP s = false → exec .pcieLinkDown s = .next s) ∧
    (tsLives s = true → ∃ t, exec .flr s = .next t ∧ rd Reg.PCE.STAT.FLR t = 1 ∧ rd Reg.PCE.STAT.LINKUP t = 1 ∧ t.hostIf.words = [] ∧
      Raised srcFLR s t) ∧
    (tsLives s = false → exec .flr s = .next s) ∧
    (rdB Reg.PCR.STAT.LINKUP s = true → ∃ t, exec .rootPortLinkLost s = .next t ∧ rd Reg.PCR.STAT.LINKUP t = 0 ∧
      rd Reg.PCR.STAT.GEN t = 0 ∧ (∀ h, h ∈ t.brg.held → behindRoot h = false) ∧ Raised srcPCRLINK s t) ∧
    (rdB Reg.PCR.STAT.LINKUP s = false → exec .rootPortLinkLost s = .next s) ∧
    (∀ (gen : Fin 4) (width : Fin 3) (bme en fmask : Bool), present s 4 = true → domSt s 0x14 = .inService →
      (rdB Reg.PCE.CFG.EN s = true → gen.val ≤ genMax s Reg.PCE.CFG.GEN_MAX → width.val ≤ rd Reg.PCE.CFG.WIDTH_MAX s →
        ∃ t, exec (.pcieLinkUp false gen width bme en fmask) s = .next t ∧ rd Reg.PCE.STAT.LINKUP t = 1 ∧ rd Reg.PCE.STAT.GEN t = gen.val + 1 ∧
          rd Reg.PCE.STAT.WIDTH t = width.val ∧ rd Reg.PCE.STAT.BME t = ofBool bme ∧ rd Reg.PCE.MSIX_CFG.EN t = ofBool en ∧ Raised srcPCELINK s t) ∧
      (rdB Reg.PCR.CFG.EN s = true → rdB Reg.PCR.CFG.PERST s = false → gen.val ≤ genMax s Reg.PCR.CFG.GEN_MAX →
        width.val ≤ rd Reg.PCR.CFG.WIDTH_MAX s →
        ∃ t, exec (.pcieLinkUp true gen width bme en fmask) s = .next t ∧ rd Reg.PCR.STAT.LINKUP t = 1 ∧ rd Reg.PCR.STAT.GEN t = gen.val + 1 ∧
          rd Reg.PCR.STAT.WIDTH t = width.val ∧ Raised srcPCRLINK s t ∧ RegsBut [Reg.PCR.STAT.word.addr] s t) ∧
      (rdB Reg.PCE.CFG.EN s = false → exec (.pcieLinkUp false gen width bme en fmask) s = .next s) ∧
      (rdB Reg.PCR.CFG.EN s = false ∨ rdB Reg.PCR.CFG.PERST s = true → exec (.pcieLinkUp true gen width bme en fmask) s = .next s))) ∧
  (∀ s : State,
    (tsLives s = false →
      (∀ n, exec (.mbSubmit n) s = .next s) ∧ exec .mbRelease s = .next s ∧ exec .mbStatRead s = .next s ∧ exec .txStatRead s = .next s ∧
      (∀ n t, exec (.txGo n t) s = .next s) ∧ ∀ q c, exec (.rqCiWrite q c) s = .next s) ∧
    (rdB Reg.PCE.MBOX_CTL.MEN s = false → (∀ n, exec (.mbSubmit n) s = .next s) ∧ ∀ n t, exec (.txGo n t) s = .next s) ∧
    (tsLives s = true →
      (rdB Reg.PCE.MBOX_CTL.MEN s = true → ∀ n : BitVec 16,
        (cfree s = false ∨ 8216 < n.toNat → ∃ t, exec (.mbSubmit n) s = .next t ∧ t.hostIf = { s.hostIf with err := true } ∧ Only [.hostIf] s t) ∧
        (cfree s = true → n.toNat < 16 → ∃ t, exec (.mbSubmit n) s = .next t ∧ CountsUp (cCMD 0) s t ∧ t.cmd = s.cmd) ∧
        (cfree s = true → 16 ≤ n.toNat → n.toNat ≤ 8216 → ∃ u, exec (.mbSubmit n) s =
          .next (accept (carrier .host .mbox) (Tab.getMany deepDefault s.hostIf.cmdBuf 0 n.toNat) u) ∧ Only [.hostIf] s u ∧
          u.hostIf = { s.hostIf with cfreeAt := s.now + 1000 + (n.toNat + 15) / 16, cfreeSaid := false })) ∧
      ((∀ r ∈ s.cmd.replies, r.att ≠ .mbox) → ∃ t, exec .mbRelease s = .next t ∧ t.hostIf = { s.hostIf with rsp := none } ∧ Only [.hostIf] s t) ∧
      (∀ l r rest, s.cmd.replies = l ++ r :: rest → (∀ r' ∈ l, r'.att ≠ .mbox) → r.att = .mbox →
        ∃ t, exec .mbRelease s = .next t ∧ t.hostIf.rsp = some r ∧ t.cmd.replies = l ++ rest ∧
          t.cmd.flights = (if r.held then s.cmd.flights.filter fun f => !(f.o.ep == r.ep && f.o.tag == r.tag && f.stage == 2) else s.cmd.flights)) ∧
      (∃ t, exec .mbStatRead s = .next t ∧ t.hostIf = { s.hostIf with err := false } ∧ Only [.hostIf, .lastRead] s t ∧
        t.lastRead = BitVec.ofNat 32 (ofBool (cfree s) * 2 ^ 31 + ofBool s.hostIf.rsp.isSome * 2 ^ 30 + ofBool s.hostIf.err * 2 ^ 29 +
          (64 - inflight s .host - (s.cmd.orphans.filter fun x => x.1 == .host).length) * 2 ^ 16 + (match s.hostIf.rsp with | none => 0 | some r => r.bytes.length) % 65536)) ∧
      (∃ t, exec .txStatRead s = .next t ∧ t.hostIf = { s.hostIf with txErr := false } ∧ Only [.hostIf, .lastRead] s t ∧
        t.lastRead = BitVec.ofNat 32 (ofBool (txFree s) * 2 ^ 31 + ofBool s.hostIf.txErr * 2 ^ 30)) ∧
      (rdB Reg.PCE.MBOX_CTL.MEN s = true → ∀ n tun : BitVec 14,
        (domSt s 0x14 ≠ .inService ∨ txFree s = false ∨ n = 0 →
          ∃ t, exec (.txGo n tun) s = .next t ∧ t.hostIf = { s.hostIf with txErr := true } ∧ Only [.hostIf] s t) ∧
        (domSt s 0x14 = .inService → txFree s = true → n ≠ 0 →
          (originEntry s 4 tun.toNat = none → ∃ t, exec (.txGo n tun) s = .next t ∧ t.hostIf.txErr = true ∧ CountsUp (cTUN 1) s t ∧
            t.sched = s.sched ∧ t.tolger = s.tolger) ∧
          (∀ e, originEntry s 4 tun.toNat = some e → orgMAXLEN e < n.toNat ∨ 14848 < n.toNat →
            ∃ t, exec (.txGo n tun) s = .next t ∧ t.hostIf.txErr = true ∧ CountsUp (cTUN 0) s t ∧ t.sched = s.sched ∧ t.tolger = s.tolger) ∧
          (∀ e u, originEntry s 4 tun.toNat = some e → n.toNat ≤ orgMAXLEN e → n.toNat ≤ 14848 →
            u = originate 4 tun.toNat (Tab.getMany deepDefault s.hostIf.txBuf 0 n.toNat) s →
            exec (.txGo n tun) s = .next (if txFree u then msix 1 u else { u with hostIf := { u.hostIf with txWait := true } })))) ∧
      (∀ (q : Fin 16) (ci : BitVec 16),
        (s.hostIf.held = none → ∃ t, exec (.rqCiWrite q ci) s = .next t ∧ rqCi t q = ci.toNat ∧ Only [.hostIf] s t ∧
          (∀ q', q' < 16 → q' ≠ q.val → rqCi t q' = rqCi s q') ∧ t.hostIf.sent = s.hostIf.sent ∧ t.hostIf.pi_ = s.hostIf.pi_) ∧
        (∀ f, s.hostIf.held = some f → f.ctx % 16 = q.val → rqEn s q = true → rdB Reg.PCE.STAT.BME s = true → rqPi s q < 65536 →
          ((rqPi s q + 65536 - ci.toNat) % 65536 = rqSize s q → ∃ t, exec (.rqCiWrite q ci) s = .next t ∧ t.hostIf.held = some f ∧
            rqPi t q = rqPi s q) ∧
          ((rqPi s q + 65536 - ci.toNat) % 65536 ≠ rqSize s q → ∃ t, exec (.rqCiWrite q ci) s = .next t ∧ t.hostIf.held = none ∧
            rqPi t q = (rqPi s q + 1) % 65536 ∧
            HostTlp.write (rqBase s q + 16384 * (rqPi s q % rqSize s q)) (rqSlot f) ∈ t.hostIf.sent)))))

/-- SYNC from the parent with a measured round trip steps or slews line time by the offset as the servo says, other SYNCs change nothing; loss
gives holdover with the mean FADJ; PSEL, PPS and the XT32 window act by state. SYNC and DREQ words are sent, answered, matched by tag and
missed; ANNOUNCE is sent by a grandmaster and taken by others. NOW_HI snapshots its low words; TIME_GET answers all 96 bits; TIME_SET is
denied outside grandmaster and sets or adjusts there. Free or opaque: A_trim (log 24). Rules: R236, R239, R240, R242, R243, R244, R246,
R248, R255, R278, R284. -/
def Obligations.LineTimeIsKept : Prop :=
  (∀ (p : LPort) (strat qual : BitVec 8) (ns : BitVec 64) (frac : BitVec 16) (s : State),
    (rdB Reg.TIM.CFG.EN s = false ∨ parentPort s ≠ some p.val ∨ strat = 0xFF → exec (.sync p strat qual ns frac) s = .next s) ∧
    (rdB Reg.TIM.CFG.EN s = true → parentPort s = some p.val → strat ≠ 0xFF →
      ∀ (r th : Nat) (off : Int), (lp s p).time.rtt = some r → th = max 1 (rd Reg.TIM.CFG.STEP_TH s) * 100 * 2 ^ 32 →
        off = timeSince (ns.toNat * 2 ^ 32 + frac.toNat * 2 ^ 16) (portNow s p) - ((r : Int) - 2 * tenths (tPcs s p) + asymmetry s p) / 2 →
      ∃ t, exec (.sync p strat qual ns frac) s = .next t ∧ rd Reg.TIM.STAT.STRAT t = min 255 (strat.toNat + 1) ∧
        rd Reg.TIM.STAT.UQUAL t = qual.toNat ∧
        rd Reg.TIM.OFS.OFFSET t = unsigned 32 (max (-(2 ^ 31)) (min (2 ^ 31 - 1) (off * 1000 / 2 ^ 32))) ∧
        (off.natAbs < th → t.lt = s.lt ∧ t.time.integ = s.time.integ + off / 2 ^ rd Reg.TIM.CFG.KI s ∧
          t.time.fadj = max (-858993) (min 858993 (-(off / 2 ^ rd Reg.TIM.CFG.KP s + (s.time.integ + off / 2 ^ rd Reg.TIM.CFG.KI s)) / 1000000))) ∧
        (th ≤ off.natAbs → t.lt = (((s.lt : Int) - off) % (2 ^ 96 : Nat)).toNat ∧ t.time.integ = 0 ∧ Raised srcTIME_STEP s t) ∧
        (rd Reg.TIM.STAT.QSTATE s = 0 ∨ rd Reg.TIM.STAT.QSTATE s = 3 ∨ rd Reg.TIM.STAT.QSTATE s = 4 → rd Reg.TIM.STAT.QSTATE t = 1) ∧
        (rd Reg.TIM.STAT.QSTATE s = 1 → off.natAbs ≤ 2 * 2 ^ 32 → 15 ≤ s.time.goodRun →
          rd Reg.TIM.STAT.QSTATE t = 2 ∧ Raised srcTIME_LOCK s t) ∧
        (rd Reg.TIM.STAT.QSTATE s = 1 → 2 * 2 ^ 32 < off.natAbs → rd Reg.TIM.STAT.QSTATE t = 1 ∧ t.time.goodRun = 0) ∧
        (rd Reg.TIM.STAT.QSTATE s = 2 → 20 * 2 ^ 32 ≤ off.natAbs → 3 ≤ s.time.badRun → rd Reg.TIM.STAT.QSTATE t = 1) ∧
        (rd Reg.TIM.STAT.QSTATE s = 2 → off.natAbs < 20 * 2 ^ 32 → rd Reg.TIM.STAT.QSTATE t = 2 ∧ t.time.badRun = 0)) ∧
    (rd Reg.TIM.STAT.QSTATE s = 1 ∨ rd Reg.TIM.STAT.QSTATE s = 2 →
      ∃ t, exec .syncLossTimeout s = .next t ∧ rd Reg.TIM.STAT.QSTATE t = 3 ∧ t.time.fadj = meanFadj s.time ∧ t.time.holdFrom = s.now ∧
        Raised srcTIME_HOLD s t ∧ t.lt = s.lt) ∧
    (rd Reg.TIM.STAT.QSTATE s ≠ 1 → rd Reg.TIM.STAT.QSTATE s ≠ 2 → exec .syncLossTimeout s = .next s) ∧
    (∀ psel : BitVec 3, accStat s Reg.TIM.CFG.word.addr = ST_OK → ∃ t, exec (.pselWrite psel) s = .next t ∧ rd Reg.TIM.CFG.PSEL t = psel.toNat ∧
      rd Reg.TIM.CFG.EN t = rd Reg.TIM.CFG.EN s ∧
      (parentPort t ≠ parentPort s → rd Reg.TIM.STAT.QSTATE s = 1 ∨ rd Reg.TIM.STAT.QSTATE s = 2 →
        rd Reg.TIM.STAT.QSTATE t = 3 ∧ Raised srcTIME_HOLD s t) ∧
      (parentPort t = parentPort s → rd Reg.TIM.STAT.QSTATE t = rd Reg.TIM.STAT.QSTATE s ∧ t.srcs = s.srcs) ∧
      (rdB Reg.TIM.CFG.EN s = false → ∀ n, n < 4 → (lp t n).time.outstanding = none ∧ ∀ w, w ∈ (lp t n).osq → timeWord w = false)) ∧
    (∀ (pin : Fin 8) (r : Nat) (off : Int), rd Reg.TIM.STAT.QSTATE s = 5 → rd (Reg.TRG.PCFG.MODE pin.val) s = 3 → r = s.lt % (1000000000 * 2 ^ 32) →
      off = (if 2 * r < 1000000000 * 2 ^ 32 then (r : Int) else (r : Int) - 1000000000 * 2 ^ 32) →
      ∃ t, exec (.ppsEdge pin) s = .next t ∧ t.lt = s.lt ∧ t.time.integ = s.time.integ + off / 2 ^ rd Reg.TIM.CFG.KI s ∧
        t.time.fadj = max (-858993) (min 858993 (-(off / 2 ^ rd Reg.TIM.CFG.KP s + t.time.integ) / 1000000)) ∧
        RegsBut [Reg.TIM.OFS.word.addr] s t) ∧
    (∀ pin : Fin 8, rd Reg.TIM.STAT.QSTATE s ≠ 5 ∨ rd (Reg.TRG.PCFG.MODE pin.val) s ≠ 3 → exec (.ppsEdge pin) s = .next s) ∧
    (∀ tick, ∃ t, exec (.xt32RatioWindow tick) s = .next t ∧ t.time.windowLocked = (rd Reg.TIM.STAT.QSTATE s == 2) ∧
      t.time.tickLen = (if s.time.windowLocked = true ∧ rd Reg.TIM.STAT.QSTATE s = 2 then tick else s.time.tickLen) ∧ Only [.time] s t)) ∧
  (∀ (p : LPort) (s : State),
    (∃ t, exec .syncSendTimer s = .next t ∧ Only [.ports] s t ∧
      (∀ n, n < 4 → exchanges s n = true → parentPort s ≠ some n → (lp t n).osq = (lp s n).osq ++ [⟨0x08, 0⟩, ⟨0x09, 0⟩]) ∧
      (∀ n, exchanges s n = false ∨ parentPort s = some n → lp t n = lp s n)) ∧
    (exchanges s p = true → ∃ t, exec (.dreqSendTimer p) s = .next t ∧ (lp t p).time.gtag = ((lp s p).time.gtag + 1) % 256 ∧
      (lp t p).time.outstanding = some (((lp s p).time.gtag + 1) % 256) ∧
      (lp t p).osq = (lp s p).osq ++ [⟨0x0A, ((lp s p).time.gtag + 1) % 256 * 2 ^ 40⟩] ∧ PortsBut p s t ∧ Only [.ports] s t) ∧
    (exchanges s p = false → exec (.dreqSendTimer p) s = .next s ∧ ∀ g, exec (.dreq p g) s = .next s) ∧
    (∀ g : BitVec 8, exchanges s p = true → ∃ t, exec (.dreq p g) s = .next t ∧ (lp t p).time.dreqRx = portNow s p ∧ (lp t p).time.dreqAt = s.now ∧
      (lp t p).osq = (lp s p).osq ++ [⟨0x0B, g.toNat * 2 ^ 40⟩] ∧ PortsBut p s t ∧ Only [.ports] s t) ∧
    (∀ (g : BitVec 8) (turn : BitVec 40) (v : Int), rdB Reg.TIM.CFG.EN s = true → (lp s p).time.outstanding = some g.toNat →
      v = timeSince (lp s p).time.dreqSent (portNow s p) - (turn.toNat : Int) * 2 ^ 24 + 2 * (tenths (tPcs s p) : Int) →
      ∃ t u, exec (.drsp p g turn) s = .next t ∧ (lp t p).time.outstanding = none ∧ (lp t p).time.rtt = some u ∧
        (∀ r, (lp s p).time.rtt = some r → u = ((r : Int) + (v - r) / 16).toNat) ∧ ((lp s p).time.rtt = none → u = v.toNat) ∧
        rd (Reg.TIM.PRTT.RTT p) t = min (2 ^ 32 - 1) (u / 2 ^ 28) ∧ PortsBut p s t) ∧
    (∀ (g : BitVec 8) (turn : BitVec 40), (lp s p).time.outstanding ≠ some g.toNat → exec (.drsp p g turn) s = .next s) ∧
    ((lp s p).time.outstanding ≠ none → ∃ t, exec (.dreqMiss p) s = .next t ∧ (lp t p).time.outstanding = none ∧
      CountsUp (cHLP p kDREQ_MISS) s t ∧ PortsBut p s t) ∧
    ((lp s p).time.outstanding = none → exec (.dreqMiss p) s = .next s) ∧
    (∀ e fn, rd Reg.TIM.STAT.QSTATE s = 5 → originEntry s 0 (rd Reg.TIM.ANN.TUN s) = some e → orgTYP e = 7 → orgOSHP e = 0 →
      Tab.get zeroN s.tuns.fn (rd Reg.TIM.ANN.TUN s) = fn →
      ∃ t, exec .announceTimer s = .next t ∧ Sends (orgDST e) (rd Reg.TIM.ANN.TUN s) (orgTC e) 7 (orgXPR e)
        (beBytes 2 fn ++ [0, 1] ++ beBytes 1 (rd Reg.TIM.ANN.UTCOFS s) ++ beBytes 1 (rd Reg.TIM.ANN.LEAP s) ++ [0, 0] ++ beBytes 8 (lineNs s)) s t) ∧
    (rd Reg.TIM.STAT.QSTATE s ≠ 5 ∨ rd Reg.TIM.ANN.TUN s = 0 → exec .announceTimer s = .next s) ∧
    (∀ f u, takeFrame 3 (isKind 7 1) s = some (f, u) →
      (rd Reg.TIM.STAT.QSTATE s ≠ 5 → ∃ t, exec .announce s = .next t ∧ rd Reg.TIM.ANN.UTCOFS t = field f.bytes 4 1 % 256 ∧
        rd Reg.TIM.ANN.LEAP t = field f.bytes 5 1 % 4 ∧ rd Reg.TIM.ANN.TUN t = rd Reg.TIM.ANN.TUN s ∧ RegsBut [Reg.TIM.ANN.word.addr] s t ∧
        inbox t 3 = inbox u 3) ∧
      (rd Reg.TIM.STAT.QSTATE s = 5 → exec .announce s = .next u))) ∧
  (∀ s : State,
    (∀ req : EntryPoint, accStat s Reg.TIM.NOW_HI.word.addr = ST_OK → s.lt < 2 ^ 96 → ∃ t, exec (.nowHiRead req) s = .next t ∧
      t.lastRead.toNat = s.lt / 2 ^ 64 ∧ rd (Reg.TIM.NOW_LO.NS_LO.mine req) t = s.lt / 2 ^ 32 % 2 ^ 32 ∧
      rd (Reg.TIM.NOW_FR.FRAC.mine req) t = s.lt / 2 ^ 16 % 2 ^ 16 ∧
      RegsBut [(Reg.TIM.NOW_LO.word.mine req).addr, (Reg.TIM.NOW_FR.word.mine req).addr] s t) ∧
    (∀ (o : Origin) (body : List Byte), mayDispatch s o = true →
      (body.length = 0 → exec (.timeGet o body) s = .next (reply o ST_OK (beBytes 8 (s.lt / 2 ^ 32) ++ beBytes 2 (s.lt / 2 ^ 16) ++
        beBytes 1 (rd Reg.TIM.STAT.QSTATE s) ++ beBytes 1 (rd Reg.TIM.STAT.STRAT s)) (dispatch o s))) ∧
      (body.length = 12 → rd Reg.TIM.STAT.QSTATE s ≠ 5 → exec (.timeSet o body) s = .next (reply o ST_DENIED [] (dispatch o s))) ∧
      (body.length = 12 → rd Reg.TIM.STAT.QSTATE s = 5 → zeroAt body 1 3 = true →
        (field body 0 1 = 0 → field body 4 8 < 2 ^ 64 → ∃ u, exec (.timeSet o body) s = .next (reply o ST_OK [] u) ∧ u.lt = field body 4 8 * 2 ^ 32 ∧
          Raised srcTIME_STEP s u) ∧
        (field body 0 1 = 1 → ∃ u, exec (.timeSet o body) s = .next (reply o ST_OK [] u) ∧ Raised srcTIME_STEP s u ∧
          (u.lt : Int) = ((s.lt : Int) + signed 64 (field body 4 8) * 2 ^ 32) % 2 ^ 96) ∧
        (1 < field body 0 1 → exec (.timeSet o body) s = .next (reply o ST_BAD_PARAM [] (dispatch o s))))))

/-- ARM by register, command or frame inserts an entry by time on an output pin with room, late, bad or full ones are refused with their error
or counted; CANCEL removes the entries of its pins only. A due entry starts its pulse and is removed, repeated or repeated without end; late
pulses of LATEFIRE start 100 ns on; an overlap is an error and each pulse runs to its own end. A capture edge of the right direction queues
its instant once its level has held for FILT, or is lost with the FIFO full; reports take up to 13; CAP_LO and CAPT_READ take from the FIFO,
which answers all ones when empty. PIN_MODE changes the mode, drops what waits and lets a running pulse end. Late pulses: log 24. Rules:
R248, R249, R250, R251, R252, R253, R254, R255, R284. -/
def Obligations.TriggersPulsesAndCaptures : Prop :=
  (∀ s : State,
    (∀ (req : EntryPoint) (k at' width period cnt : Nat), accStat s Reg.TRG.ACTL.word.addr = ST_OK → rd (Reg.TRG.ASEL.PIN.mine req) s = k →
      at' = rd (Reg.TRG.AT_HI.word.mine req) s * 2 ^ 32 + rd (Reg.TRG.AT_LO.word.mine req) s → width = rd (Reg.TRG.AWID.word.mine req) s →
      period = rd (Reg.TRG.APER.word.mine req) s → cnt = rd (Reg.TRG.ACTL.COUNT.mine req) s →
      (rd (Reg.TRG.PCFG.MODE k) s = 1 → 0 < width → cnt = 1 ∨ width < period → (trigPin s k).entries.length < 15 → step4 s + 400 ≤ at' →
        ∃ t, exec (.trgActlArm req) s = .next t ∧
          (trigPin t k).entries = insertEnt ⟨at', width, period, if cnt = 0 then none else some cnt, []⟩ (trigPin s k).entries ∧
          (∀ j, j ≠ k → trigPin t j = trigPin s j) ∧ Only [.trig] s t) ∧
      (rd (Reg.TRG.PCFG.MODE k) s = 1 → 0 < width → cnt = 1 → (trigPin s k).entries.length < 15 → at' < step4 s + 400 →
        rdB (Reg.TRG.PCFG.LATEFIRE k) s = false →
        ∃ t, exec (.trgActlArm req) s = .next t ∧ t.trig = s.trig ∧ bit k (rd Reg.TRG.ERR.LATE t) = true ∧ Raised srcTRG_ERR s t) ∧
      (rd (Reg.TRG.PCFG.MODE k) s = 1 → 0 < width → cnt = 1 → (trigPin s k).entries.length < 15 → at' < step4 s + 400 →
        rdB (Reg.TRG.PCFG.LATEFIRE k) s = true →
        ∃ t e, exec (.trgActlArm req) s = .next t ∧ (trigPin t k).entries = insertEnt e (trigPin s k).entries ∧ e.late = [(step4 s + 400, false)] ∧
          e.left = some 0 ∧ e.width = width ∧ bit k (rd Reg.TRG.ERR.LATE t) = true) ∧
      (rd (Reg.TRG.PCFG.MODE k) s = 1 → 0 < width → cnt = 1 ∨ width < period → 15 ≤ (trigPin s k).entries.length →
        ∃ t, exec (.trgActlArm req) s = .next t ∧ t.trig = s.trig ∧ bit k (rd Reg.TRG.ERR.QFULL t) = true ∧ Raised srcTRG_ERR s t) ∧
      (rd (Reg.TRG.PCFG.MODE k) s ≠ 1 ∨ width = 0 ∨ (cnt ≠ 1 ∧ period ≤ width) → exec (.trgActlArm req) s = .next s) ∧
      (∃ t, exec (.trgActlCancel req) s = .next t ∧ trigPin t k = { trigPin s k with entries := [] } ∧
        (∀ j, j ≠ k → trigPin t j = trigPin s j) ∧ Only [.trig] s t)) ∧
    (∀ f u, takeFrame 3 (isKind 8 1) s = some (f, u) → field f.bytes 4 1 = 1 → f.bytes.length = 28 →
      ∀ k at' w, field f.bytes 8 1 = k → k < 8 → field f.bytes 9 1 = 0 → field f.bytes 10 2 = 1 → field f.bytes 12 8 = at' → field f.bytes 20 4 = w →
      (rd (Reg.TRG.PCFG.MODE k) s = 1 → 0 < w → (trigPin s k).entries.length < 15 → step4 s + 400 ≤ at' →
        ∃ t, exec .arm s = .next t ∧ inbox t 3 = inbox u 3 ∧
          (trigPin t k).entries = insertEnt ⟨at', w, field f.bytes 24 4, some 1, []⟩ (trigPin s k).entries) ∧
      (rd (Reg.TRG.PCFG.MODE k) s ≠ 1 → ∃ t, exec .arm s = .next t ∧ t.trig = s.trig ∧ CountsUp (cTRG 8) s t)) ∧
    (∀ f u, takeFrame 3 (isKind 8 2) s = some (f, u) →
      ∃ t, exec .cancel s = .next t ∧ inbox t 3 = inbox u 3 ∧
        ∀ k, (k < 8 → bit k (field f.bytes 4 1) = true → trigPin t k = { trigPin s k with entries := [] }) ∧
          (bit k (field f.bytes 4 1) = false → trigPin t k = trigPin s k)) ∧
    (∀ (o : Origin) (body : List Byte), mayDispatch s o = true → zeroAt body 1 3 = true →
      (body.length = 4 → ∃ u, exec (.trigCancel o body) s = .next (reply o ST_OK [] u) ∧
        ∀ k, (k < 8 → bit k (field body 0 1) = true → trigPin u k = { trigPin s k with entries := [] }) ∧
          (bit k (field body 0 1) = false → trigPin u k = trigPin s k)) ∧
      (body.length = 24 → field body 0 1 = 1 → ∀ k at' w, field body 4 1 = k → field body 5 1 = 0 → field body 6 2 = 1 → field body 8 8 = at' →
        field body 16 4 = w → k < 8 → 0 < w →
        (rd (Reg.TRG.PCFG.MODE k) s = 1 → (trigPin s k).entries.length < 15 → step4 s + 400 ≤ at' →
          ∃ u, exec (.trigArm o body) s = .next (reply o ST_OK [0, 0, 0, 0] u) ∧
            (trigPin u k).entries = insertEnt ⟨at', w, field body 20 4, some 1, []⟩ (trigPin s k).entries) ∧
        (rd (Reg.TRG.PCFG.MODE k) s ≠ 1 →
          exec (.trigArm o body) s = .next (reply o ST_PARTIAL [BitVec.ofNat 8 ST_BAD_PARAM, 0, 0, 0] (dispatch o s)))))) ∧
  (∀ (pin : Fin 8) (s : State),
    (∀ e l, (trigPin s pin).entries = e :: l →
      (e.late = [] → e.left = some 1 → (trigPin s pin).running = [] → ∃ t, exec (.pulseStart pin) s = .next t ∧
        (trigPin t pin).running = [4 * s.now + e.width] ∧ (trigPin t pin).entries = l ∧ Only [.trig] s t) ∧
      (∀ n, e.late = [] → e.left = some (n + 2) → ∃ t, exec (.pulseStart pin) s = .next t ∧
        (trigPin t pin).entries = insertEnt { e with next := e.next + e.period, left := some (n + 1) } l) ∧
      (e.late = [] → e.left = none → ∃ t, exec (.pulseStart pin) s = .next t ∧
        (trigPin t pin).entries = insertEnt { e with next := e.next + e.period } l) ∧
      (∀ x r, e.late = x :: r → e.left = some 0 → ∃ t, exec (.pulseStart pin) s = .next t ∧
        (trigPin t pin).running = insertEnd (4 * s.now + e.width) (trigPin s pin).running ∧
        (trigPin t pin).entries = (if r = [] then l else insertEnt { e with late := r } l) ∧
        (x.2 = true → bit pin.val (rd Reg.TRG.ERR.OVERLAP t) = true ∧ Raised srcTRG_ERR s t)) ∧
      (∀ x r, (trigPin s pin).running = x :: r → ∃ t, exec (.pulseStart pin) s = .next t ∧ bit pin.val (rd Reg.TRG.ERR.OVERLAP t) = true ∧
        Raised srcTRG_ERR s t ∧ (trigPin t pin).running = insertEnd (4 * s.now + e.width) (x :: r))) ∧
    (∃ t, exec (.pulseEnd pin) s = .next t ∧ trigPin t pin = { trigPin s pin with running := (trigPin s pin).running.drop 1 } ∧
      (∀ j, j ≠ pin.val → trigPin t j = trigPin s j) ∧ Only [.trig] s t) ∧
    (∀ m : Fin 4, accStat s (Reg.TRG.PCFG.word pin.val).addr = ST_OK → ∃ t, exec (.pinModeWrite pin m) s = .next t ∧
      rd (Reg.TRG.PCFG.MODE pin.val) t = m.val ∧ rd (Reg.TRG.PCFG.POL pin.val) t = rd (Reg.TRG.PCFG.POL pin.val) s ∧
      (m.val ≠ rd (Reg.TRG.PCFG.MODE pin.val) s → (trigPin t pin).entries = [] ∧ (trigPin t pin).running = (trigPin s pin).running ∧ (trigPin t pin).edge = none ∧
        ((trigPin s pin).running ≠ [] → pinLevel t pin = pinLevel s pin)) ∧
      (m.val = rd (Reg.TRG.PCFG.MODE pin.val) s → (trigPin s pin).fifo.length < 13 → t.trig = s.trig)) ∧
    (∀ rising, rd (Reg.TRG.PCFG.MODE pin.val) s = 2 → rd (Reg.TRG.PCFG.FILT pin.val) s = 0 → (trigPin s pin).edge = none →
      reports s pin = false → edgeSelected s pin rising = true →
      ((trigPin s pin).fifo.length < 64 → ∃ t, exec (.captureEdge pin rising) s = .next t ∧ Only [.trig] s t ∧
        (trigPin t pin).fifo = (trigPin s pin).fifo ++ [(now4 s, rd Reg.TIM.STAT.QSTATE s != 2 && rd Reg.TIM.STAT.QSTATE s != 5)]) ∧
      (64 ≤ (trigPin s pin).fifo.length → ∃ t, exec (.captureEdge pin rising) s = .next t ∧ (trigPin t pin).fifo = (trigPin s pin).fifo ∧
        (trigPin t pin).lost = (trigPin s pin).lost + 1 ∧ bit pin.val (rd Reg.TRG.ERR.CAP_OVF t) = true ∧ Raised srcTRG_ERR s t ∧
        CountsUp (cTRG pin.val) s t)) ∧
    (∀ rising, rd (Reg.TRG.PCFG.MODE pin.val) s = 2 → rd (Reg.TRG.PCFG.FILT pin.val) s = 0 → (trigPin s pin).edge = none →
      edgeSelected s pin rising = false → ∃ t, exec (.captureEdge pin rising) s = .next t ∧ trigPin t pin = trigPin s pin ∧ Only [.trig] s t) ∧
    (∀ rising, rd (Reg.TRG.PCFG.MODE pin.val) s = 2 → 0 < rd (Reg.TRG.PCFG.FILT pin.val) s → (trigPin s pin).edge = none →
      ∃ t, exec (.captureEdge pin rising) s = .next t ∧ Only [.trig] s t ∧ trigPin t pin = { trigPin s pin with
        edge := some ⟨rising, (now4 s, rd Reg.TIM.STAT.QSTATE s != 2 && rd Reg.TIM.STAT.QSTATE s != 5), s.now⟩ }) ∧
    (∀ x rising, rd (Reg.TRG.PCFG.MODE pin.val) s = 2 → (trigPin s pin).edge = some x → rising ≠ x.rising →
      s.now < x.since + rd (Reg.TRG.PCFG.FILT pin.val) s → ∃ t, exec (.captureEdge pin rising) s = .next t ∧ Only [.trig] s t ∧
        trigPin t pin = { trigPin s pin with edge := none }) ∧
    (∀ x, s.pending = [] → (trigPin s pin).edge = some x → edgeSelected s pin x.rising = true → reports s pin = false →
      (trigPin s pin).fifo.length < 64 → x.since + rd (Reg.TRG.PCFG.FILT pin.val) s ≤ s.now + 1 →
      ∃ t, step s = .next t ∧ trigPin t pin = { trigPin s pin with edge := none, fifo := (trigPin s pin).fifo ++ [x.stamp] }) ∧
    (∀ rising, rd (Reg.TRG.PCFG.MODE pin.val) s ≠ 2 → exec (.captureEdge pin rising) s = .next s) ∧
    (reports s pin = true → (trigPin s pin).fifo ≠ [] → ∃ t, exec (.captRptPeriod pin) s = .next t ∧
      (trigPin t pin).fifo = (trigPin s pin).fifo.drop 13 ∧ (trigPin t pin).lost = 0) ∧
    (reports s pin = false ∨ (trigPin s pin).fifo = [] → exec (.captRptPeriod pin) s = .next s) ∧
    (∀ req : EntryPoint, accStat s (Reg.TRG.CAP_LO.word pin.val).addr = ST_OK →
      ((trigPin s pin).fifo = [] → ∃ t, exec (.capLoRead req pin) s = .next t ∧ t.lastRead = 0xFFFFFFFF ∧
        rd ((Reg.TRG.CAP_HI.word pin.val).mine req) t = 0xFFFFFFFF ∧ t.trig = s.trig) ∧
      (∀ x b l, (trigPin s pin).fifo = (x, b) :: l → x < 2 ^ 64 → ∃ t, exec (.capLoRead req pin) s = .next t ∧ (trigPin t pin).fifo = l ∧
        t.lastRead.toNat = x % 2 ^ 32 ∧ rd ((Reg.TRG.CAP_HI.word pin.val).mine req) t = x / 2 ^ 32)) ∧
    (∀ (o : Origin) (body : List Byte) (m : Nat), mayDispatch s o = true → body.length = 4 → field body 0 1 = pin.val → field body 1 1 = m → 0 < m →
      m ≤ 64 → zeroAt body 2 2 = true →
      (rd (Reg.TRG.PCFG.MODE pin.val) s = 2 → ∃ u, exec (.captRead o body) s = .next (reply o ST_OK
        (beBytes 1 (min m (trigPin s pin).fifo.length) ++ [0, 0, 0] ++ (((trigPin s pin).fifo.take m).map fun x => beBytes 8 x.1).flatten) u) ∧
        (trigPin u pin).fifo = (trigPin s pin).fifo.drop m) ∧
      (rd (Reg.TRG.PCFG.MODE pin.val) s ≠ 2 → exec (.captRead o body) s = .next (reply o ST_BAD_PARAM [] (dispatch o s)))))

/-- HSPI_CMD_WRITE of a packet with a good CRC and length: bad flags, a used tag, a held tag, no room, a missing session, a bad sequence or MAC
answer or count as the rule orders; a good one is queued with its origin. A bad CRC only sets the error bit and counts. HSPI_STATUS shows
and clears; HSPI_RSP_READ takes the oldest reply and ends its tag; HOSTSEL moves the HOST entry to the TS where there is one. AES-CMAC is an
uninterpreted function (log 8). Rules: R256, R258, R260, R262, R264, R268, R271. -/
def Obligations.CommandsAreAcceptedAtHspi : Prop :=
  ∀ s : State,
    (∃ t, exec .hspiStatus s = .next t ∧ t.cmd.hspiErr = false ∧ Only [.cmd] s t ∧
      (∀ n, n = (match hspiReplies s with | [] => 0 | x :: _ => x.bytes.length + 4) → n < 65536 →
        t.cmd.hspiOut = beBytes 4 ((if hspiReplies s = [] then 0 else 2 ^ 31) + (if s.cmd.hspiErr then 2 ^ 30 else 0) +
          (64 - inflight s .host - (s.cmd.orphans.filter fun x => x.1 == .host).length) * 2 ^ 23 + n))) ∧
    (∀ bytes l : List Byte, bytes = l ++ leBytes 4 (crc32c l) → field l 0 1 / 16 = 2 → 16 ≤ l.length →
      l.length = 16 + field l 4 2 + (if bit 2 (field l 0 1) then 8 else 0) → field l 4 2 ≤ 8192 →
      ∀ o, o = originOf (carrier .host .hspi) l false →
      (bit 3 (field l 0 1) = true ∨ 64 ≤ field l 2 1 ∨ field l 3 1 ≠ 0 →
        exec (.hspiCmdWrite bytes) s = .next (plainReply o ST_BAD_PARAM s)) ∧
      (bit 3 (field l 0 1) = false → field l 2 1 < 64 → field l 3 1 = 0 →
        (tagUsed s o = true → ∃ t, exec (.hspiCmdWrite bytes) s = .next t ∧ t.cmd = s.cmd ∧ CountsUp (cCMD 1) s t) ∧
        (tagUsed s o = false → tagHeld s o = true →
          ∃ u, exec (.hspiCmdWrite bytes) s = .next (plainReply o ST_ORPHANED u) ∧ CountsUp (cCMD 5) s u ∧ u.cmd = s.cmd) ∧
        (tagUsed s o = false → tagHeld s o = false → rdB Reg.CMD.STAT.HOSTSEL s = true →
          exec (.hspiCmdWrite bytes) s = .next (plainReply o ST_DENIED s)) ∧
        (tagUsed s o = false → tagHeld s o = false → rdB Reg.CMD.STAT.HOSTSEL s = false → (o.target = 0 ∨ o.target = ownAddr s) → o.session = 0 →
          bit 2 (field l 0 1) = false →
          (opcodeDefined o.op = false → exec (.hspiCmdWrite bytes) s = .next (plainReply o ST_BAD_OPCODE s)) ∧
          (opcodeDefined o.op = true → openPermits s o = false → exec (.hspiCmdWrite bytes) s = .next (plainReply o ST_DENIED s)) ∧
          (opcodeDefined o.op = true → openPermits s o = true → ∃ t, exec (.hspiCmdWrite bytes) s = .next t ∧
            t.cmd.flights = s.cmd.flights ++ [⟨o, (l.drop 16).take (field l 4 2), 0⟩] ∧ Only [.cmd] s t)) ∧
        (∀ x, tagUsed s o = false → tagHeld s o = false → rdB Reg.CMD.STAT.HOSTSEL s = false → (o.target = 0 ∨ o.target = ownAddr s) →
          o.session ≠ 0 → openSession s o.session = some x → x.ep = .host → bit 2 (field l 0 1) = true →
          (macGood x l (field l 4 2) = false → ∃ u, exec (.hspiCmdWrite bytes) s = .next (plainReply o ST_MAC_FAIL u) ∧
            CountsUp (cCMD 2) s u ∧ Raised srcMAC_FAIL s u) ∧
          (macGood x l (field l 4 2) = true → seqAccept x o.seq = none → ∃ u, exec (.hspiCmdWrite bytes) s = .next (plainReply o ST_REPLAY u) ∧
            u.cmd.flights = s.cmd.flights) ∧
          (∀ h m, macGood x l (field l 4 2) = true → seqAccept x o.seq = some (h, m) → opcodeDefined o.op = true → bit (o.op / 16) x.gmask = true →
            x.alo ≤ ownAddr s → ownAddr s ≤ x.ahi → x.num = o.session →
            ∃ t, exec (.hspiCmdWrite bytes) s = .next t ∧ t.cmd.flights = s.cmd.flights ++ [⟨o, (l.drop 16).take (field l 4 2), 0⟩] ∧
              openSession t o.session = some { x with high := h, seen := m, macFails := 0 })))) ∧
    (∀ bytes : List Byte, 4 ≤ bytes.length → leNat (bytes.drop (bytes.length - 4)) ≠ crc32c (bytes.take (bytes.length - 4)) →
      ∃ t, exec (.hspiCmdWrite bytes) s = .next t ∧ t.cmd = { s.cmd with hspiErr := true } ∧ CountsUp (cCMD 6) s t) ∧
    (∀ r l n, hspiReplies s = r :: l → ∃ t, exec (.hspiRspRead n) s = .next t ∧ Only [.cmd] s t ∧
      t.cmd.hspiOut = (0 :: r.bytes ++ leBytes 4 (crc32c r.bytes)).take n ∧
      (n < r.bytes.length + 5 → t.cmd.replies = s.cmd.replies) ∧
      (r.bytes.length + 5 ≤ n → t.cmd.replies = s.cmd.replies.erase r ∧
        t.cmd.flights = (if r.held then s.cmd.flights.filter fun f => !(f.o.ep == r.ep && f.o.tag == r.tag && f.stage == 2) else s.cmd.flights))) ∧
    (∀ sel : Bool, (sel = true → present s 4 = true) → ∃ t, exec (.hostselWrite sel) s = .next t ∧ rd Reg.CMD.HOSTSEL.SEL t = ofBool sel ∧
      rd Reg.CMD.STAT.HOSTSEL t = ofBool sel ∧ RegsBut [Reg.CMD.HOSTSEL.word.addr, Reg.CMD.STAT.word.addr] s t ∧ Only [.regs] s t) ∧
    (present s 4 = false → exec (.hostselWrite true) s = .next s)

/-- A reply at a relay tag is delivered to its requester with the old tag, ends an address assignment, or is counted as late or unknown; a relay
timeout answers ST_TIMEOUT. GET_ORPHAN answers the orphans of its own entry point and session; expiry drops one. SESSION_OPEN without a
valid grant is denied, with 32 sessions busy, else opens the lowest free number with a fresh nonce; CLOSE, idle and expiry end exactly that
one; in session 0 CLOSE and INFO answer ST_NO_SESSION (log 42). Ed25519 is uninterpreted (log 8), the nonce free (log 2). Rules: R142, R259,
R267, R268, R269, R273, R275, R276, R278, R351. -/
def Obligations.RelaysOrphansAndSessions : Prop :=
  (∀ s : State,
    (∀ f l t, s.cmd.rspIn = f :: l → field f.bytes 2 1 = t →
      (∀ o, t < 64 → Tab.get (fun _ => none) s.cmd.relays t = some (.cmd o) → ∃ u, exec .cmdReplyReceive s =
          .next (deliver o (f.bytes.take 2 ++ [BitVec.ofNat 8 o.tag] ++ (f.bytes.drop 3).take 3 ++ [0, 0] ++ f.bytes.drop 8) u) ∧
        Tab.get (fun _ => none) u.cmd.relays t = none ∧ u.cmd.rspIn = l) ∧
      (∀ p, t < 64 → Tab.get (fun _ => none) s.cmd.relays t = some (.assign p) → ∃ u, exec .cmdReplyReceive s = .next u ∧
        Tab.get (fun _ => none) u.cmd.relays t = none ∧ u.cmd.rspIn = l ∧
        (field f.bytes 3 1 = ST_OK ∨ field f.bytes 3 1 = ST_DENIED ∨ field f.bytes 3 1 = ST_BAD_PARAM → (lp u p).assigning = false) ∧
        (field f.bytes 3 1 = ST_BUSY → lp u p = lp s p)) ∧
      (t < 64 → Tab.get (fun _ => none) s.cmd.relays t = none →
        (s.cmd.late.contains t = true → ∃ u, exec .cmdReplyReceive s = .next u ∧ CountsUp (cCMD 4) s u ∧ t ∉ u.cmd.late ∧ u.cmd.rspIn = l) ∧
        (s.cmd.late.contains t = false → ∃ u, exec .cmdReplyReceive s = .next u ∧ CountsUp (cCMD 3) s u ∧ u.cmd = { s.cmd with rspIn := l }))) ∧
    (s.cmd.rspIn = [] → exec .cmdReplyReceive s = .next s) ∧
    (∀ (tag : Fin 64) (o : Origin), Tab.get (fun _ => none) s.cmd.relays tag = some (.cmd o) →
      ∃ u, exec (.relayTimeout tag) s = .next (deliver o (replyHeader s o ST_TIMEOUT 0 false) u) ∧
        Tab.get (fun _ => none) u.cmd.relays tag = none ∧ tag.val ∈ u.cmd.late ∧ Only [.cmd] s u) ∧
    (∀ tag : Fin 64, Tab.get (fun _ => none) s.cmd.relays tag = none → exec (.relayTimeout tag) s = .next s) ∧
    (∀ ep x l, takeFirst (fun x : EntryPoint × Nat × List Byte × Nat => x.1 == ep) s.cmd.orphans = some (x, l) →
      ∃ t, exec (.orphanExpiry ep) s = .next t ∧ t.cmd = { s.cmd with orphans := l } ∧
        (ep = .svc → rd Reg.SVC.ORPH.EXPIRED t = min 65535 (rd Reg.SVC.ORPH.EXPIRED s + 1)) ∧ (ep ≠ .svc → t.regs = s.regs)) ∧
    (∀ (o : Origin) (body : List Byte) (n : Nat), mayDispatch s o = true → body.length = 4 → field body 0 1 = n → zeroAt body 1 3 = true →
      (0 < n → n ≤ 16 → ∀ l, l = (s.cmd.orphans.filter fun x => x.1 == o.ep && x.2.2.2 == o.session).take n →
        ∃ u, exec (.getOrphan o body) s = .next (reply o ST_OK
            (beBytes 1 l.length ++ [0, 0, 0] ++ (l.map fun x => orphanRecord x.2.2.1).flatten) u) ∧
          u.cmd.orphans = (s.cmd.orphans.filter fun x => !l.contains x)) ∧
      (n = 0 ∨ 16 < n → exec (.getOrphan o body) s = .next (reply o ST_BAD_PARAM [] (dispatch o s))))) ∧
  (∀ s : State,
    (∀ (o : Origin) (body g : List Byte), mayDispatch s o = true → body.length = 136 → g = body.take 128 →
      (grantOk s o g = false ∨ (keyValid s = false ∧ o.ep = .line) → ∃ u, exec (.sessionOpen o body) s = .next (reply o ST_DENIED [] u) ∧
        (∀ x, x ∈ u.cmd.sessions → x ∈ s.cmd.sessions)) ∧
      (grantOk s o g = true → keyValid s = true → (∀ k, 0 < k → k ≤ 32 → ∃ x, x ∈ s.cmd.sessions ∧ x.num = k ∧ x.ended = false) →
        ∃ u, exec (.sessionOpen o body) s = .next (reply o ST_BUSY [] u)) ∧
      (grantOk s o g = true → keyValid s = true → ∀ n, 0 < n → n ≤ 32 → (∀ x, x ∈ s.cmd.sessions → x.num ≠ n) →
        (∀ k, 0 < k → k < n → ∃ x, x ∈ s.cmd.sessions ∧ x.num = k ∧ x.ended = false) →
        ∃ t x nd, exec (.sessionOpen o body) s = .next t ∧ x ∈ t.cmd.sessions ∧ x.num = n ∧ x.ep = o.ep ∧ x.src = o.src ∧
          x.gmask = field g 2 2 ∧ x.alo = field g 4 2 ∧ x.ahi = field g 6 2 ∧ x.notAfter = field g 16 8 ∧ x.macReq = bit 0 (field g 1 1) ∧
          x.high = 0 ∧ x.ended = false ∧
          x.key = beBytes 16 (Config.aesCmac (lineKey s) ([0x4C, 0x48, 0x38, 0x53] ++ beBytes 2 (ownAddr s) ++ beBytes 2 n ++
            (body.drop 128).take 8 ++ nd)).toNat)) ∧
    (∀ (o : Origin), mayDispatch s o = true →
      (openSession s o.session = none → exec (.sessionClose o []) s = .next (reply o ST_NO_SESSION [] (dispatch o s)) ∧
        exec (.sessionInfo o []) s = .next (reply o ST_NO_SESSION [] (dispatch o s))) ∧
      (∀ x, openSession s o.session = some x →
        (∃ t, exec (.sessionClose o []) s = .next t ∧ openSession t x.num = none) ∧
        exec (.sessionInfo o []) s = .next (reply o ST_OK (beBytes 2 x.num ++ beBytes 1 (reqIdx x.ep) ++ [0] ++ beBytes 2 x.gmask ++ [0, 0] ++
          beBytes 8 x.notAfter ++ beBytes 4 x.high) (dispatch o s)))) ∧
    (∀ (n : Fin 33) (x : Session), openSession s n = some x →
      (rd Reg.CMD.SCFG.IDLE s ≠ 0 → ∃ t, exec (.sessionIdleTimeout n) s = .next t ∧ openSession t n = none ∧ Only [.cmd] s t ∧
        ∀ k, k ≠ n.val → openSession t k = openSession s k) ∧
      (x.notAfter < lineNs s → x.notAfter ≠ 2 ^ 64 - 1 → ∃ t, exec (.sessionExpiry n) s = .next t ∧ openSession t n = none ∧ Only [.cmd] s t ∧
        ∀ k, k ≠ n.val → openSession t k = openSession s k) ∧
      (lineNs s ≤ x.notAfter → exec (.sessionExpiry n) s = .next s)) ∧
    (∀ n : Fin 33, rd Reg.CMD.SCFG.IDLE s = 0 ∨ openSession s n = none → exec (.sessionIdleTimeout n) s = .next s) ∧
    (∀ n : Fin 33, openSession s n = none → exec (.sessionExpiry n) s = .next s))

/-- On a TU die that works: an attach that its rule allows waits for VBUS safe 0 V or goes on, a detach discharges, VBUS comes on, over-current
turns it off (a third trip in a minute blocks the port), hard reset, VCONN fault, sink adjustment and error recovery act as the rules give,
held while PWRWARN lasts or until a reset die returns. Alternate mode goes through discovery, enter, status and configure; rejection or
timeout ends it; HPD changes follow. Readings: log 25. Rules: R301, R302, R303, R304, R307, R308, R313, R315, R319, R324, R327. -/
def Obligations.TypeCPortsAttachAndEnterDp : Prop :=
  (∀ (t : Fin 8) (s : State), TcReady t s →
    (∀ cc2 ra, rdB (Reg.TCP.CFG.EN t) s = true → tcState s t = 1 ∨ tcState s t = 4 → (ruleOf s t).action ≠ 2 → (tcp s t).warned = false →
      ∃ u, exec (.ccAttach t cc2 ra) s = .next u ∧ tcState u t = (if (tcp s t).vbusSafe = true ∧ (tcp s t).offUntil ≤ s.now then 3 else 2) ∧ rd (Reg.TCP.STAT.ORIENT t) u = ofBool cc2 ∧
        rd (Reg.TCP.STAT.RA t) u = ofBool ra ∧ rd (Reg.TCP.EVT.ATTACH t) u = 1 ∧ Raised (srcTCP t) s u ∧
        ((tcp s t).vbusSafe = true → (tcp s t).offUntil ≤ s.now → (tcp u t).vbusOn = true) ∧
        (rd (Reg.TCP.CFG.RP t) s < 2 → rd (Reg.TCP.STAT.RPCUR t) u = rd (Reg.TCP.CFG.RP t) s) ∧
        (2 ≤ rd (Reg.TCP.CFG.RP t) s → 7500 ≤ freeMw s (t / 4) → rd (Reg.TCP.STAT.RPCUR t) u = 2) ∧
        (2 ≤ rd (Reg.TCP.CFG.RP t) s → freeMw s (t / 4) < 6500 → rd (Reg.TCP.STAT.RPCUR t) u = 1)) ∧
    (∀ cc2 ra, rdB (Reg.TCP.CFG.EN t) s = true → tcState s t = 1 ∨ tcState s t = 4 → (ruleOf s t).action = 2 ∨ (tcp s t).warned = true →
      ∃ u, exec (.ccAttach t cc2 ra) s = .next u ∧ tcState u t = tcState s t ∧ (tcp u t).cc = some (cc2, ra)) ∧
    (tcState s t = 2 ∨ tcState s t = 3 →
      ∃ u, exec (.ccDetach t) s = .next u ∧ tcState u t = (if (tcp s t).vbusSafe && !(tcp s t).vbusOn then 1 else 4) ∧
        (tcp u t).vbusOn = false ∧ (tcp u t).alloc = 0 ∧ rd (Reg.TCP.STAT.PDCONN t) u = 0 ∧ rd (Reg.TCP.VCONN.ON t) u = 0 ∧
        rd (Reg.TCP.VCONN.SRC t) u = 1 ∧ rd (Reg.TCP.EVT.DETACH t) u = 1 ∧ Raised (srcTCP t) s u) ∧
    ((tcp s t).vbusOn = false → ∃ u, exec (.vbusSafe0vReached t) s = .next u ∧ (tcp u t).vbusSafe = true ∧
      (tcState s t = 4 → tcState u t = 1) ∧ (tcState s t = 3 → (tcp u t).alloc = min (tcp s t).alloc 8500 ∧ (tcp u t).take = 0 ∧ tcState u t = 3)) ∧
    (tcState s t = 2 ∨ tcState s t = 3 → (tcp s t).vbusOn = false → (tcp s t).vbusSafe = true →
      ∃ u, exec (.vbusEnable t) s = .next u ∧ tcState u t = 3 ∧ (tcp u t).vbusOn = true ∧
        (tcState s t = 3 → rd (Reg.TCP.STAT.RPCUR t) u ≠ 2)) ∧
    (∀ l, (tcp s t).vbusOn = true → tcState s t = 3 → l = s.now :: ((tcp s t).trips.filter fun x => s.now < x + 60000000000) →
      ∃ u, exec (.vbusOc t) s = .next u ∧ (tcp u t).vbusOn = false ∧ rd (Reg.TCP.EVT.VBUS_OC t) u = 1 ∧ Raised (srcTCP t) s u ∧
        (tcp u t).trips = l ∧ (l.length < 3 → tcState u t = 3 ∧ peState u t = 5) ∧
        (3 ≤ l.length → tcState u t = 5 ∧ rd (Reg.TCP.CFG.EN t) u = 0)) ∧
    (∀ b, (tcp s t).vbusOn = true → tcState s t = 3 →
      ∃ u, exec (.hardReset (.tu t) b) s = .next u ∧ (tcp u t).vbusOn = false ∧ peState u t = 5 ∧ rd (Reg.TCP.STAT.PDCONN t) u = 0 ∧
        (tcp u t).alloc = (tcp s t).alloc ∧ rd (Reg.TCP.EVT.HARD_RESET t) u = 1 ∧ (tcp u t).sent = (if b then [.hardReset] else [])) ∧
    (∀ v : Word, accStat s (Reg.TCP.CFG.word t).addr = ST_OK →
      ∃ u, exec (.tcpCfgWrite t v) s = .next u ∧ regGet u (Reg.TCP.CFG.word t).addr = v &&& 0xFC000000 ∧
        (rdB (Reg.TCP.CFG.EN t) s = true → bit 31 v.toNat = false → tcState u t = 0 ∧ (tcp u t).alloc = 0 ∧ (tcp u t).vbusOn = false) ∧
        (rdB (Reg.TCP.CFG.EN t) s = false → bit 31 v.toNat = true → (tcp s t).cc = none →
          tcState u t = (if (tcp s t).warned then 5 else if (tcp s t).vbusSafe then 1 else 4) ∧ (tcp u t).trips = [])) ∧
    ((tcp s t).sinkAdj = true → ∃ u, exec (.sinkAdjExpiry t) s = .next u ∧ (tcp u t).sinkAdj = false ∧ (tcp u t).take = 0 ∧
      (tcp u t).alloc = allocNow s t) ∧
    (rdB (Reg.TCP.VCONN.ON t) s = true → ∃ u, exec (.vconnFault t) s = .next u ∧ rd (Reg.TCP.VCONN.ON t) u = 0 ∧
      rd (Reg.TCP.VCONN.OCP t) u = 1 ∧ rd (Reg.TCP.STAT.CABLE5A t) u = 0 ∧ rd (Reg.TCP.EVT.VCONN_FAULT t) u = 1 ∧ Raised (srcTCP t) s u) ∧
    (rdB (Reg.TCP.CFG.EN t) s = true → tcState s t = 5 → (tcp s t).cc = none →
      ∃ u, exec (.errorRecoveryEnd t) s = .next u ∧ (tcp u t).recovering = false ∧
        tcState u t = (if (tcp s t).warned || (dom s (0x10 + tuSlot (t / 4))).wasReset then 5 else if (tcp s t).vbusSafe then 1 else 4)) ∧
    ((tcp s t).warned = true → rdB Reg.LPW.LSTAT.PWARN s = false → rdB (Reg.TCP.CFG.EN t) s = true → tcState s t = 5 → (tcp s t).cc = none →
      ∃ u, exec .pwrwarnReleaseTimer s = .next u ∧ (tcp u t).warned = false ∧ (tcp u t).recovering = false ∧
        tcState u t = (if (dom s (0x10 + tuSlot (t / 4))).wasReset then 5 else if (tcp s t).vbusSafe then 1 else 4)) ∧
    (rdB Reg.LPW.LSTAT.PWARN s = true → exec .pwrwarnReleaseTimer s = .next s)) ∧
  (∀ (t : Fin 8) (s : State), TcReady t s → (tcp s t).vbusOn = true →
    (peState s t = 6 →
      (∀ b, ∃ u, exec (.discoverIdentitySopPrime t b) s = .next u ∧ rd (Reg.TCP.STAT.EMARK t) u = 1 ∧ rd (Reg.TCP.STAT.CABLE5A t) u = ofBool b ∧
        (offersPd u t = true → ∃ l, (tcp u t).sent = [.sourceCaps l] ∧ peState u t = 1) ∧
        (offersPd u t = false → (tcp u t).sent = [] ∧ peState u t = 0)) ∧
      ((tcp s t).tries < 20 → ∃ u, exec (.discoverIdentityRetry t) s = .next u ∧ (tcp u t).sent = [.discIdPrime] ∧
        (tcp u t).tries = (tcp s t).tries + 1 ∧ peState u t = 6) ∧
      (20 ≤ (tcp s t).tries → ∃ u, exec (.discoverIdentityRetry t) s = .next u ∧
        (offersPd s t = true → ∃ l, (tcp u t).sent = [.sourceCaps l] ∧ peState u t = 1) ∧ (offersPd s t = false → (tcp u t).sent = [] ∧ peState u t = 0))) ∧
    (∀ ack (vid pid : BitVec 16) v10, (tcp s t).alt = 1 → ∃ u, exec (.partnerDiscoveryResponse t (.identity ack vid pid v10)) s = .next u ∧
      (tcp u t).idAck = ack ∧ (tcp u t).vid = (if ack then vid.toNat else 0) ∧ (tcp u t).pid = (if ack then pid.toNat else 0) ∧
      (tcp u t).alt = (if ack && altAllowed s t then 2 else 0)) ∧
    (∀ dp, (tcp s t).alt = 2 → ∃ u, exec (.partnerDiscoveryResponse t (.svids dp)) s = .next u ∧
      (tcp u t).alt = (if dp && altAllowed s t then 3 else 0) ∧ (tcp u t).sent = (if dp && altAllowed s t then [.discModes] else [])) ∧
    (∀ (pins : BitVec 2) a h, (tcp s t).alt = 3 → altEntry s t pins.toNat = some (a, h) →
      (h ≤ 1 → headFree s h = true → ∃ u, exec (.partnerDiscoveryResponse t (.modes pins)) s = .next u ∧ (tcp u t).alt = 4 ∧
        (tcp u t).altHead = h ∧ (tcp u t).altPins = a ∧ (tcp u t).sent = [.enterMode]) ∧
      (h ≤ 1 → headFree s h = false → ∃ u, exec (.partnerDiscoveryResponse t (.modes pins)) s = .next u ∧ (tcp u t).alt = 7 ∧
        rd (Reg.TCP.ALT.NOHEAD t) u = 1 ∧ rd (Reg.TCP.EVT.ALT t) u = 1 ∧ Raised (srcTCP t) s u)) ∧
    (∀ pins : BitVec 2, (tcp s t).alt = 3 → altEntry s t pins.toNat = none →
      ∃ u, exec (.partnerDiscoveryResponse t (.modes pins)) s = .next u ∧ (tcp u t).alt = 0) ∧
    ((tcp s t).alt = 4 → ∃ u, exec (.enterModeAck t) s = .next u ∧ (tcp u t).alt = 5 ∧ (tcp u t).sent = [.statusUpdate, .dpConfigure (tcp s t).altPins]) ∧
    ((tcp s t).alt = 5 → ∃ u, exec (.dpConfigureAck t) s = .next u ∧ (tcp u t).alt = 6 ∧ rd (Reg.TCP.ALT.ACTIVE t) u = 1 ∧
      rd (Reg.TCP.ALT.PINASG t) u = (tcp s t).altPins % 4 ∧ rd (Reg.TCP.ALT.HEAD t) u = (tcp s t).altHead % 2 ∧
      rd (Reg.TCP.ALT.SVID t) u = 0xFF01 ∧ Raised (srcTCP t) s u) ∧
    (∀ hpd, (tcp s t).alt = 6 → ∃ u, exec (.attention t hpd) s = .next u ∧ rd (Reg.TCP.ALT.HPD t) u = ofBool hpd ∧ (tcp u t).alt = 6) ∧
    (1 ≤ (tcp s t).alt → (tcp s t).alt ≤ 5 → ∃ u, exec (.vdmResponseTimeout t) s = .next u ∧ (tcp u t).alt = 0))

/-- SOURCE_CAPS repeats to 50 times; a REQUEST within the offer and the available power is accepted, with reclaimable power waits for it,
otherwise rejected with the capabilities; settling VBUS makes the contract; timeouts send a hard reset. The service port requests the
highest offer up to 15 V and takes PS_RDY as its contract; without attachment its rows change nothing. PD_STATUS, PD_PORT_CTL and PD_BUDGET
answer and act on their port or die. Readings: log 25. Rules: R300, R306, R307, R309, R310, R312, R316, R317, R321, R327, R329. -/
def Obligations.ContractsSinkAndPdCommands : Prop :=
  (∀ (t : Fin 8) (s : State), TcReady t s →
    (peState s t = 1 → hasContract s t = false →
      ((tcp s t).caps < 50 → ∃ u, exec (.sourceCapRepeat t) s = .next u ∧ (tcp u t).sent = [.sourceCaps (offerOf s t true)] ∧
        (tcp u t).offer = offerOf s t true ∧ (tcp u t).caps = (tcp s t).caps + 1 ∧ peState u t = 1) ∧
      (50 ≤ (tcp s t).caps → ∃ u, exec (.sourceCapRepeat t) s = .next u ∧ peState u t = 0 ∧ (tcp u t).sent = [])) ∧
    (∀ (pos : BitVec 4) (iop : BitVec 10) (pd2 : Bool), (tcp s t).vbusOn = true → peState s t = 1 ∨ peState s t = 2 ∨ peState s t = 4 →
      (∀ v i, 0 < pos.toNat → (tcp s t).offer[pos.toNat - 1]? = some (v, i) → iop.toNat ≤ i →
        ((volts v * iop.toNat * 10 : Nat) ≤ availMw s t → ∃ u, exec (.request t pos iop pd2) s = .next u ∧ (tcp u t).sent = [.accept] ∧
          peState u t = 3 ∧ (tcp u t).accepted = some (pos.toNat, v, iop.toNat) ∧ rd (Reg.TCP.CONTRACT.WAITP t) u = 0) ∧
        (availMw s t < (volts v * iop.toNat * 10 : Nat) → (volts v * iop.toNat * 10 : Nat) ≤ availMw s t + reclMw s t → (tcp s t).waits < 2 →
          ∃ u, exec (.request t pos iop pd2) s = .next u ∧ (tcp u t).sent = [.wait] ∧ rd (Reg.TCP.CONTRACT.WAITP t) u = 1 ∧
            rd (Reg.TCP.EVT.WAIT t) u = 1 ∧ Raised (srcTCP t) s u ∧ peState u t = (if hasContract s t then 4 else 2)) ∧
        (availMw s t + reclMw s t < (volts v * iop.toNat * 10 : Nat) → ∃ u l, exec (.request t pos iop pd2) s = .next u ∧
          (tcp u t).sent = [.reject, .sourceCaps l])) ∧
      ((tcp s t).offer.length < pos.toNat → ∃ u l, exec (.request t pos iop pd2) s = .next u ∧ (tcp u t).sent = [.reject, .sourceCaps l])) ∧
    (tcState s t = 3 → ((tcp s t).awaiting = true → ∃ u, exec (.senderResponseTimeout t) s = .next u ∧ (tcp u t).sent = [.hardReset] ∧ peState u t = 5) ∧
      ((tcp s t).swap = true → ∃ u, exec (.vconnSourceTimeout t) s = .next u ∧ (tcp u t).sent = [.hardReset] ∧ peState u t = 5)) ∧
    (peState s t = 3 → ∃ u, exec (.srcTransitionStart t) s = .next u ∧ (tcp u t).changing = true ∧ (tcp u t).accepted = (tcp s t).accepted) ∧
    (∀ pos v i, (tcp s t).accepted = some (pos, v, i) → (tcp s t).changing = true → v < 4 → i < 1024 → pos < 8 → tcAttached s t = true →
      ∃ u, exec (.vbusSettled t) s = .next u ∧ rd (Reg.TCP.STAT.PDCONN t) u = 1 ∧ rd (Reg.TCP.CONTRACT.VSEL t) u = v ∧
        rd (Reg.TCP.CONTRACT.IOP t) u = i ∧ rd (Reg.TCP.CONTRACT.POS t) u = pos ∧ (tcp u t).accepted = none ∧
        (0 ≤ freeMw u (t / 4) → offerOf u t true = (tcp s t).offer → peState u t = 4) ∧
        (tcp u t).alloc = volts v * i * 10 + vconnMw s t ∧ (tcp u t).sent.head? = some .psRdy ∧ rd (Reg.TCP.EVT.CONTRACT t) u = 1 ∧
        Raised (srcTCP t) s u) ∧
    ((tcp s t).vbusOn = true →
      (offersPd s t = true →
        ∃ u, exec (.getSourceCap (.tu t)) s = .next u ∧ (tcp u t).sent = [.sourceCaps (offerOf s t true)] ∧ peState u t = 1) ∧
      (offersPd s t = false →
        ∃ u, exec (.getSourceCap (.tu t)) s = .next u ∧ (tcp u t).sent = [if (tcp s t).pd2 then .reject else .notSupported]) ∧
      (∃ u, exec (.getSourceCapExtended (.tu t)) s = .next u ∧ (tcp u t).sent = [.sourceCapsExt]) ∧
      (∃ u, exec (.getSinkCap (.tu t)) s = .next u ∧ (tcp u t).sent = [if (tcp s t).pd2 then .reject else .notSupported]) ∧
      (∃ u, exec (.getRevision (.tu t)) s = .next u ∧ (tcp u t).sent = [.revision]) ∧
      (∃ u, exec (.softReset (.tu t)) s = .next u ∧ (tcp u t).sent = [.accept]) ∧
      (∃ u, exec (.drSwap (.tu t)) s = .next u ∧ (tcp u t).sent = [.reject]) ∧
      (∃ u, exec (.prSwap (.tu t)) s = .next u ∧ (tcp u t).sent = [if (tcp s t).pd2 then .reject else .notSupported]) ∧
      (∀ c, ∃ u, exec (.unsupportedPdMessage (.tu t) c) s = .next u ∧ (tcp u t).sent = [if (tcp s t).pd2 then .reject else .notSupported]) ∧
      (peState s t = 6 ∨ peState s t = 3 → ∃ u, exec (.vconnSwap (.tu t)) s = .next u ∧ (tcp u t).sent = [.wait]) ∧
      (peState s t ≠ 6 → peState s t ≠ 3 → rdB (Reg.TCP.VCONN.SRC t) s = true →
        ∃ u, exec (.vconnSwap (.tu t)) s = .next u ∧ (tcp u t).sent = [.accept] ∧ (tcp u t).swap = true) ∧
      (peState s t ≠ 6 → peState s t ≠ 3 → rdB (Reg.TCP.VCONN.SRC t) s = false →
        ∃ u, exec (.vconnSwap (.tu t)) s = .next u ∧ (tcp u t).sent.take 2 = [.accept, .psRdy] ∧ rd (Reg.TCP.VCONN.SRC t) u = 1 ∧
          (rdB (Reg.TCP.CFG.VCONN_EN t) s = true → rd (Reg.TCP.VCONN.ON t) u = 1)) ∧
      ((tcp s t).swap = true → ∃ u, exec (.psRdy (.tu t)) s = .next u ∧ rd (Reg.TCP.VCONN.ON t) u = 0 ∧ rd (Reg.TCP.VCONN.SRC t) u = 0 ∧
        (tcp u t).swap = false))) ∧
  (∀ s : State,
    (svcAttached s = true →
      (∀ (pdos : List (Nat × Nat)) (pd2 : Bool) (k v i : Nat), pdos[k]? = some (v, i) → v ≤ 300 →
        (∀ j w x, pdos[j]? = some (w, x) → w ≤ 300 → w < v ∨ (w = v ∧ k ≤ j)) →
        ∃ u, exec (.sourceCapabilities pdos pd2) s = .next u ∧ u.svcSink.req = some (k + 1, vselOf v, min i 300) ∧
          u.svcSink.sent = [.request (k + 1) (min i 300)] ∧ u.svcSink.tries = 0 ∧ u.svcSink.accepted = false ∧ Only [.svcSink] s u) ∧
      (∀ pos v i, s.svcSink.req = some (pos, v, i) →
        (∃ u, exec .accept s = .next u ∧ u.svcSink.accepted = true ∧ u.svcSink.req = s.svcSink.req) ∧
        (s.svcSink.tries < 10 → ∃ u, exec .wait s = .next u ∧ u.svcSink.accepted = false ∧ u.svcSink.req = s.svcSink.req) ∧
        (10 ≤ s.svcSink.tries → ∃ u, exec .wait s = .next u ∧ u.svcSink.req = none) ∧
        (∃ u, exec .reject s = .next u ∧ u.svcSink.req = none ∧ u.svcSink.accepted = false) ∧
        (s.svcSink.accepted = false → s.svcSink.tries < 10 → ∃ u, exec .sinkRequestRetry s = .next u ∧ u.svcSink.sent = [.request pos i] ∧
          u.svcSink.tries = s.svcSink.tries + 1) ∧
        (s.svcSink.accepted = true → v < 4 → i < 1024 → ∃ u, exec (.psRdy .svc) s = .next u ∧ rd Reg.SVC.PDSTAT.PDC u = 1 ∧
          rd Reg.SVC.PDSTAT.VSEL u = v ∧ rd Reg.SVC.PDSTAT.IOP u = i ∧ rd Reg.SVC.PDSTAT.TIER u = (if 20000 ≤ volts v * i * 10 then 1 else 0) ∧
          u.svcSink.req = none)) ∧
      (s.svcSink.accepted = true → ∃ u, exec .psTransitionTimeout s = .next u ∧ u.svcSink.sent = [.hardReset] ∧ rd Reg.SVC.PDSTAT.PDC u = 0 ∧
        u.svcSink.req = none) ∧
      (∃ u, exec (.getSinkCap .svc) s = .next u ∧ u.svcSink.sent = [.sinkCaps [(0, 300), (1, 300), (2, 300)]]) ∧
      (∀ c : BitVec 5, ∃ u, exec (.unsupportedPdMessage .svc (some c)) s = .next u ∧ u.svcSink.sent = [if c = 1 then .identityAck else .vdmNak]) ∧
      (∀ b, ∃ u, exec (.hardReset .svc b) s = .next u ∧ rd Reg.SVC.PDSTAT.PDC u = 0 ∧ u.svcSink.sent = (if b then [.hardReset] else []))) ∧
    (svcAttached s = false → (∀ l b, exec (.sourceCapabilities l b) s = .next s) ∧ exec .accept s = .next s ∧ exec .wait s = .next s ∧
      exec .reject s = .next s ∧ exec .sinkRequestRetry s = .next s ∧ exec .psTransitionTimeout s = .next s) ∧
    (∀ (die : Fin 2) (v : Word), accStat s (Reg.PDP.BUDGET.word die.val).addr = ST_OK → tuWorks s die = true →
      ∃ u, exec (.pdpBudgetWrite die v) s = .next u ∧ rd (Reg.PDP.BUDGET.BUDGET die.val) u =
        max (17 * ((tuPorts die).filter fun t => rdB (Reg.TCP.CFG.EN t) s).length) (min 480 (v.toNat % 512))) ∧
    (∀ (o : Origin) (body : List Byte), mayDispatch s o = true → body.length = 4 →
      (∀ t : Fin 8, field body 0 1 = t.val → zeroAt body 1 3 = true → dieStatus s (tuSlot (t / 4)) = ST_OK →
        exec (.pdStatus o body) s = .next (reply o ST_OK (beBytes 4 (regGet s (Reg.TCP.STAT.word t).addr).toNat ++
          beBytes 4 (regGet s (Reg.TCP.CONTRACT.word t).addr).toNat ++ beBytes 4 (regGet s (Reg.TCP.VCONN.word t).addr).toNat ++
          beBytes 4 (regGet s (Reg.TCP.ALT.word t).addr).toNat ++ beBytes 2 (tcp s t).vid ++ beBytes 2 (tcp s t).pid ++ [0, 0, 0, 0]) (dispatch o s))) ∧
      (∀ t : Fin 8, field body 0 1 = t.val → zeroAt body 2 2 = true → dieStatus s (tuSlot (t / 4)) = ST_OK → TcReady t s →
        (field body 1 1 = 0 → rdB (Reg.TCP.CFG.EN t) s = true → ∃ u, exec (.pdPortCtl o body) s = .next (reply o ST_OK [] u) ∧
          tcState u t = 0 ∧ rd (Reg.TCP.CFG.EN t) u = 0) ∧
        (field body 1 1 = 3 → (tcp s t).vbusOn = true → tcState s t = 3 → ∃ u, exec (.pdPortCtl o body) s = .next (reply o ST_OK [] u) ∧
          (tcp u t).sent = [.hardReset] ∧ peState u t = 5)) ∧
      (field body 0 1 = 2 ∨ field body 0 1 = 6 → field body 1 1 = 0 → field body 2 2 ≤ 480 → dieStatus s (field body 0 1) = ST_OK →
        tuWorks s ((field body 0 1 - 2) / 4) = true →
        ∃ u, exec (.pdBudget o body) s = .next (reply o ST_OK (beBytes 2 (((tuPorts ((field body 0 1 - 2) / 4)).foldl
            (fun a t => a + (tcp u t).alloc) 0 + 499) / 500) ++ [0, 0]) u) ∧
          rd (Reg.PDP.BUDGET.BUDGET ((field body 0 1 - 2) / 4)) u =
            max (17 * ((tuPorts ((field body 0 1 - 2) / 4)).filter fun t => rdB (Reg.TCP.CFG.EN t) s).length) (field body 2 2))))

/-- A running ring with room for two events fetches its next descriptor when the Deep Comb serves it and the die may originate (or stops on an
invalid one with its event), completes it with its data, error event or halt, and advances CI; a control request to the hub acts on its
port; periodic rings wait for their service; events that were not announced are announced by the timer. A doorbell moves PI within the ring,
is an error outside; hub port changes and USB_PORT_CTL act on the port byte; PROXY_CTL starts, stops and controls rings, or answers ST_BUSY.
Readings: log 26. Rules: R47, R48, R186, R332, R337, R338, R339, R340, R342. -/
def Obligations.TransfersDoorbellsAndHub : Prop :=
  (∀ (die : Fin 2) (r : Fin 64) (x : Ring) (s : State), ring s die r = x → EventsApart s die → 0 < evFree s die → 
    (proxyRuns s die = true → domSt s (0x10 + tuSlot die) = .inService → dcmServes s 3 = true → originHeld s (tuSlot die) = false → x.st = 1 → x.ci ≠ x.pi_ → x.cur = none →
      2 ≤ evFree s die → ∀ a c, a = x.base + 32 * (x.ci % 2 ^ x.lsize) → c = readDesc s a x.ci →
      (descGood s die x a c = true → c.typ ≠ 4 → ∃ u, exec (.descriptorFetch die r true) s = .next u ∧
        ring u die r = { x with cur := some { c with waits := decide (3 ≤ x.typ) } } ∧ Only [.proxies] s u) ∧
      (descGood s die x a c = true → c.typ = 4 → ∃ u, exec (.descriptorFetch die r true) s = .next u ∧
        ring u die r = { x with ci := (x.ci + 1) % 65536 } ∧
        (bit 0 c.flags = true → EventWritten s u die (eventBytes s die c.cookie 0 x.ci r 0 1)) ∧
        (bit 0 c.flags = false → (proxy u die).evPi = (proxy s die).evPi)) ∧
      (descGood s die x a c = false → ∃ u, exec (.descriptorFetch die r true) s = .next u ∧
        ring u die r = { x with st := 2, ci := (x.ci + 1) % 65536 } ∧ EventWritten s u die (eventBytes s die c.cookie 0 x.ci r 9 1)) ∧
      (∃ u, exec (.descriptorFetch die r false) s = .next u ∧ ring u die r = { x with st := 2, ci := (x.ci + 1) % 65536 } ∧
        EventWritten s u die (eventBytes s die [] 0 x.ci r 5 1))) ∧
    (proxyRuns s die = false ∨ x.st ≠ 1 ∨ x.ci = x.pi_ ∨ x.cur ≠ none ∨ evFree s die < 2 ∨ originHeld s (tuSlot die) = true ∨
        dcmServes s 3 = false →
      ∀ b, exec (.descriptorFetch die r b) s = .next s) ∧
    (∀ c, x.cur = some c → c.waits = true →
      (∃ u, exec (.periodicService die r false) s = .next u ∧ ring u die r = { x with cur := some { c with waits := false } } ∧
        Only [.proxies] s u) ∧
      (x.typ = 4 → bit 3 c.flags = false → ∃ u, exec (.periodicService die r true) s = .next u ∧
        ring u die r = { x with ci := (x.ci + 1) % 65536, cur := none } ∧ EventWritten s u die (eventBytes s die c.cookie 0 c.index r 6 1))) ∧
    (∀ c, x.cur = some c → c.waits = false → x.st = 1 → dcmServes s 3 = true →
      (∀ moved data n a, descIn x c = false → x.dev = 0 → x.typ = 1 → c.typ = 1 → hubRequest c.setup = some (n, a) → ∃ u,
        exec (.transferComplete die r 0 moved data) s = .next (usbAction (4 * die + n) a u) ∧
        ring u die r = { x with ci := (x.ci + 1) % 65536, cur := none }) ∧
      (∀ moved data, descIn x c = false → (x.dev = 0 → hubRequest c.setup = none) → ∃ u, exec (.transferComplete die r 0 moved data) s = .next u ∧
        ring u die r = { x with ci := (x.ci + 1) % 65536, cur := none } ∧
        (bit 0 c.flags = true → EventWritten s u die (eventBytes s die c.cookie (min moved c.len) c.index r 0 1))) ∧
      (∀ (code : Fin 10) moved data, descIn x c = false → (2 ≤ code.val ∧ code.val ≤ 5) ∨ code.val = 8 → ∃ u,
        exec (.transferComplete die r code moved data) s = .next u ∧ ring u die r = { x with st := 2, ci := (x.ci + 1) % 65536, cur := none } ∧
        EventWritten s u die (eventBytes s die c.cookie (min moved c.len) c.index r code.val 1)) ∧
      (∀ moved (data : List Byte), descIn x c = true →
        (c.buf + c.len ≤ (proxy s die).base ∨ (proxy s die).base + 0xA40 ≤ c.buf) →
        (c.buf + c.len ≤ (proxy s die).evBase ∨ (proxy s die).evBase + 32 * 2 ^ (proxy s die).evSize ≤ c.buf) →
        ∃ u, exec (.transferComplete die r 0 moved data) s = .next u ∧ ring u die r = { x with ci := (x.ci + 1) % 65536, cur := none } ∧
          ∀ k b, k < c.len → data[k]? = some b → deepRead u (c.buf + k) = b)) ∧
    ((proxy s die).unsaid = true → ∃ u, exec (.notifyTimer die) s = .next u ∧ (proxy u die).unsaid = false ∧ (proxy u die).evPi = (proxy s die).evPi) ∧
    ((proxy s die).unsaid = false → exec (.notifyTimer die) s = .next s)) ∧
  (∀ s : State,
    (∀ (t : Fin 8) (speed : Fin 7) (susp : Bool), present s (tuSlot (t / 4)) = true →
      (bit 7 (rd (hubByte t) s) = true → speed.val = 0 → ∃ u, exec (.hubPortChange t speed susp) s = .next u ∧ rd (hubByte t) u = 0 ∧
        Raised (srcHUB (t / 4)) s u) ∧
      (bit 7 (rd (hubByte t) s) = false → hubLive s t = true → 0 < speed.val → ∃ u, exec (.hubPortChange t speed susp) s = .next u ∧
        rd (hubByte t) u = 0x80 + min speed.val (speedCap s t) * 16 + 8 + (if susp then 4 else 0) ∧ Raised (srcHUB (t / 4)) s u) ∧
      (bit 7 (rd (hubByte t) s) = false → hubLive s t = false ∨ speed.val = 0 → exec (.hubPortChange t speed susp) s = .next s)) ∧
    (∀ (die : Fin 2) (v : Word) (r i : Nat), accStat s (Reg.USB.PRX_DB.word die.val).addr = ST_OK → bits 22 16 v.toNat = r → v.toNat % 65536 = i →
      (proxyRuns s die = true → r < 64 → (ring s die r).st = 1 → Machine.ahead 65536 (ring s die r).ci i ≤ 2 ^ (ring s die r).lsize →
        ∃ u, exec (.prxDbWrite die v) s = .next u ∧ ring u die r = { ring s die r with pi_ := i } ∧
          deepReads u ((proxy s die).base + 32 * r + 14) 2 = leBytes 2 i ∧ Only [.proxies, .deep] s u) ∧
      (proxyRuns s die = true → r < 64 → (ring s die r).st = 1 → 2 ^ (ring s die r).lsize < Machine.ahead 65536 (ring s die r).ci i →
        EventsApart s die → 0 < evFree s die → ∃ u, exec (.prxDbWrite die v) s = .next u ∧ ring u die r = { ring s die r with st := 2 } ∧
          EventWritten s u die (eventBytes s die [] 0 (ring s die r).ci r 9 1)) ∧
      (proxyRuns s die = true → r = 0x7F → ∃ u, exec (.prxDbWrite die v) s = .next u ∧ (proxy u die).evCi = i ∧
        deepReads u ((proxy s die).base + 0x800 + 12) 2 = leBytes 2 i) ∧
      (63 < r → r ≠ 0x7F → ∃ u, exec (.prxDbWrite die v) s = .next u ∧ bit 3 (rd (Reg.USB.PRX_STAT.ERR die.val) u) = true ∧
        Raised (srcPRX_ERR die) s u ∧ u.deep = s.deep ∧ u.proxies = s.proxies) ∧
      (proxyRuns s die = false → r < 64 → ∃ u, exec (.prxDbWrite die v) s = .next u ∧ ring u die r = { ring s die r with pi_ := i } ∧
        Only [.proxies] s u)) ∧
    (∀ (die : Fin 2) (f : Frame) (u : State), takeFrame (4 + 8 * die.val) (isDoorbell die) s = some (f, u) →
      accStat u (Reg.USB.PRX_DB.word die.val).addr = ST_OK →
      exec (.doorbell die) s = exec (.prxDbWrite die (BitVec.ofNat 32 (field f.bytes 4 1 * 65536 + field f.bytes 2 2))) u) ∧
    (∀ (o : Origin) (body : List Byte), mayDispatch s o = true → body.length = 4 →
      (∀ t : Fin 8, field body 0 1 = t.val → zeroAt body 2 2 = true → dieStatus s (tuSlot (t / 4)) = ST_OK → bit 7 (rd (hubByte t) s) = true →
        (field body 1 1 = 4 → bit 2 (rd (hubByte t) s) = false → ∃ u, exec (.usbPortCtl o body) s =
          .next (reply o ST_OK [BitVec.ofNat 8 (rd (hubByte t) s + 4), 0, 0, 0] u) ∧ rd (hubByte t) u = rd (hubByte t) s + 4 ∧
          Raised (srcHUB (t / 4)) s u) ∧
        (field body 1 1 = 5 → bit 2 (rd (hubByte t) s) = true → ∃ u, exec (.usbPortCtl o body) s =
          .next (reply o ST_OK [BitVec.ofNat 8 (rd (hubByte t) s - 4), 0, 0, 0] u) ∧ rd (hubByte t) u = rd (hubByte t) s - 4) ∧
        (field body 1 1 = 0 → ∃ u, exec (.usbPortCtl o body) s = .next (reply o ST_OK [0, 0, 0, 0] u) ∧ rd (hubByte t) u = 0)) ∧
      (∀ die : Fin 2, field body 0 1 = 2 + 4 * die.val → field body 3 1 = 0 → dieStatus s (tuSlot die) = ST_OK →
        (field body 1 1 = 0 → proxyRuns s die = false → s1Up s = true → domSt s (0x10 + tuSlot die) = .inService →
          ∀ b e, b = rd (Reg.USB.PRX_RBASE.BASE die.val) s * 4096 → inRegion s 2 b 0xA40 = true → e = readRing s (b + 0x800) 0 →
          4 ≤ e.lsize → e.lsize ≤ 12 → e.base % 32 = 0 → inRegion s 2 e.base (32 * 2 ^ e.lsize) = true →
          ∃ u, exec (.proxyCtl o body) s = .next (reply o ST_OK (beBytes 4 (regGet u (Reg.USB.PRX_STAT.word die.val).addr).toNat) u) ∧
            proxyRuns u die = true ∧ (proxy u die).base = b ∧ (proxy u die).evBase = e.base ∧ (∀ r, (ring u die r).st = 0)) ∧
        (field body 1 1 = 0 → proxyRuns s die = false → s1Up s = false ∨ domSt s (0x10 + tuSlot die) ≠ .inService →
          exec (.proxyCtl o body) s = .next (reply o ST_BUSY_IN_SERVICE [] (dispatch o s))) ∧
        (field body 1 1 = 1 → proxyRuns s die = true → ∃ u, exec (.proxyCtl o body) s = .next
            (reply o ST_OK (beBytes 4 (regGet u (Reg.USB.PRX_STAT.word die.val).addr).toNat) u) ∧ proxyRuns u die = false ∧
          ∀ r, r < 64 → (ring u die r).st ≠ 1) ∧
        (2 ≤ field body 1 1 → field body 1 1 ≤ 4 → field body 2 1 < 64 → proxyRuns s die = false →
          exec (.proxyCtl o body) s = .next (reply o ST_BUSY [] (dispatch o s))) ∧
        (field body 1 1 = 4 → field body 2 1 < 64 → proxyRuns s die = true → (ring s die (field body 2 1)).st = 2 →
          ∃ u, exec (.proxyCtl o body) s = .next (reply o ST_OK (beBytes 4 (regGet u (Reg.USB.PRX_STAT.word die.val).addr).toNat) u) ∧
            ring u die (field body 2 1) = { ring s die (field body 2 1) with st := 0 }))))

/-- CONNECT and attachment decide the bus state; EPB_LOAD takes a good carving; suspend and resume keep the state before; bus reset gives
DEFAULT; SET_CONFIGURATION, SET_ADDRESS, GET_CONFIGURATION, features and descriptors answer or stall as USB says. Configured, EP1 takes
command packets, EP2 gives replies, EP3 up to four interrupt records, EP5 one log record; CLEAR_FEATURE(HALT) of EP2 goes on; SVC.ORPH
counts orphans. String identities: log 27. Rules: R261, R263, R321, R322, R345, R346, R347, R348, R349, R350, R351. -/
def Obligations.TheServicePortServes : Prop :=
  (∀ s : State,
    (rdB Reg.SVC.CTRL.CONNECT s = false → ∃ u, exec (.svcConnectWrite true) s = .next u ∧ rd Reg.SVC.CTRL.CONNECT u = 1 ∧
      bstate u = (if svcAttached s then 1 else bstate s) ∧ u.svcDev.dbAtConnect = rdB Reg.SVC.PDSTAT.DB s) ∧
    (rdB Reg.SVC.CTRL.CONNECT s = true → ∃ u, exec (.svcConnectWrite false) s = .next u ∧ rd Reg.SVC.CTRL.CONNECT u = 0 ∧ bstate u = 0 ∧
      (bstate s ≠ 0 → rd Reg.SVC.STAT.ADDR u = 0 ∧ ∀ r, r ∈ u.cmd.replies → r.att ≠ .usb)) ∧
    (∀ rp : Fin 4, (svcAttached s = false → ∃ u, exec (.svcSourceAttach rp) s = .next u ∧ svcAttached u = true ∧
        rd Reg.SVC.PDSTAT.RPSEEN u = rp.val ∧ u.svcSink = SvcSink.reset ∧ Raised srcSVCVBUS s u ∧
        (rdB Reg.SVC.CTRL.CONNECT s = true → bstate u = 1)) ∧
      (svcAttached s = true → exec (.svcSourceAttach rp) s = .next s)) ∧
    (∀ l, l = ((List.range 6).map fun e => (rd (Reg.SVC.EPBUF.BASE e) s, rd (Reg.SVC.EPBUF.SIZE e) s)) →
      (rdB Reg.SVC.CTRL.CONNECT s = true ∨ carveGood l = false → ∃ u, exec .svcEpbLoad s = .next u ∧ rd Reg.SVC.STAT.EPB_ERR u = 1 ∧
        u.svcDev = s.svcDev) ∧
      (rdB Reg.SVC.CTRL.CONNECT s = false → carveGood l = true → ∃ u, exec .svcEpbLoad s = .next u ∧ rd Reg.SVC.STAT.CARVED u = 1 ∧
        u.svcDev.carve = l)) ∧
    (2 ≤ bstate s → bstate s ≤ 4 → ∃ u, exec .svcSuspend s = .next u ∧ bstate u = 5 ∧ u.svcDev.before = bstate s) ∧
    (bstate s = 5 → s.svcDev.before < 8 → ∃ u, exec .hostResume s = .next u ∧ bstate u = s.svcDev.before ∧ u.svcDev.driveK = false ∧
      rd Reg.SVC.STAT.WAKEP u = ofBool (wakeReason s) ∧ Raised srcSVCRESUME s u) ∧
    (bstate s = 5 → rdB Reg.SVC.STAT.RWE s = true → rdB Reg.SVC.CTRL.RWAKE s = true → t3Pending s = true →
      ∃ u, exec .remoteWake s = .next u ∧ rd Reg.SVC.STAT.WAKEP u = 1 ∧ u.svcDev.driveK = true ∧ bstate u = 5) ∧
    (bstate s ≠ 5 ∨ rdB Reg.SVC.STAT.RWE s = false ∨ rdB Reg.SVC.CTRL.RWAKE s = false → exec .remoteWake s = .next s) ∧
    (∀ hs, bstate s ≠ 0 → ∃ u, exec (.svcBusReset hs) s = .next u ∧ bstate u = 2 ∧ rd Reg.SVC.STAT.ADDR u = 0 ∧
      rd Reg.SVC.STAT.HS u = ofBool (hs && !s.svcDev.fullSpeed) ∧ rd Reg.SVC.STAT.RWE u = 0) ∧
    (bstate s = 3 ∨ bstate s = 4 →
      (∃ u, exec (.setConfiguration 1) s = .next u ∧ bstate u = 4 ∧ u.svcDev.answer = some [] ∧
        u.svcDev.halted = (if bstate s = 3 then [] else s.svcDev.halted) ∧ (bstate s = 4 → Only [.svcDev] s u)) ∧
      (∃ u, exec (.setConfiguration 0) s = .next u ∧ bstate u = 3 ∧ u.svcDev.answer = some []) ∧
      (∀ c : BitVec 8, c ≠ 0 → c ≠ 1 → ∃ u, exec (.setConfiguration c) s = .next u ∧ bstate u = bstate s ∧ u.svcDev.answer = none)) ∧
    (2 ≤ bstate s → bstate s ≤ 4 → ∀ value index len : BitVec 16,
      (value.toNat < 128 → bstate s ≠ 4 → ∃ u, exec (.svcStandardRequest 0 5 value index len) s = .next u ∧ rd Reg.SVC.STAT.ADDR u = value.toNat ∧
        bstate u = (if value = 0 then 2 else 3) ∧ u.svcDev.answer = some []) ∧
      (∃ u, exec (.svcStandardRequest 0x80 8 value index len) s = .next u ∧
        u.svcDev.answer = some ([if bstate s = 4 then 1 else 0].take len.toNat) ∧ Only [.svcDev] s u) ∧
      (value = 0 → svcEndpoint index.toNat = true → ∃ u, exec (.svcStandardRequest 2 3 value index len) s = .next u ∧
        index.toNat ∈ u.svcDev.halted ∧ u.svcDev.answer = some []) ∧
      (value = 0 → svcEndpoint index.toNat = true → ∃ u, exec (.svcStandardRequest 2 1 value index len) s = .next u ∧
        index.toNat ∉ u.svcDev.halted ∧ u.svcDev.answer = some []) ∧
      (∀ l, getDescriptor s (value.toNat / 256) (value.toNat % 256) = some l →
        ∃ u, exec (.svcStandardRequest 0x80 6 value index len) s = .next u ∧ u.svcDev.answer = some (l.take len.toNat)) ∧
      (∀ req : BitVec 8, ∃ u, exec (.svcStandardRequest 0x40 req value index len) s = .next u ∧ u.svcDev.answer = none ∧ Only [.svcDev] s u))) ∧
  (∀ s : State, bstate s = 4 →
    (∀ bytes : List Byte, field bytes 0 1 / 16 = 2 →
      (bytes.length ≤ 16 + field bytes 4 2 + (if bit 2 (field bytes 0 1) then 8 else 0) →
        exec (.ep1CommandReceive bytes) s = .next (accept (carrier .svc .usb) bytes s)) ∧
      (16 + field bytes 4 2 + (if bit 2 (field bytes 0 1) then 8 else 0) < bytes.length →
        ∃ u, exec (.ep1CommandReceive bytes) s = .next u ∧ CountsUp (cCMD 0) s u ∧ u.cmd = s.cmd)) ∧
    (∀ r l, takeFirst (fun r : Reply => r.att == .usb) s.cmd.replies = some (r, l) →
      ∃ u, exec .ep2TransferComplete s = .next u ∧ u.svcDev.answer = some r.bytes ∧ u.cmd.replies = l ∧
        u.cmd.flights = (if r.held then s.cmd.flights.filter fun f => !(f.o.ep == r.ep && f.o.tag == r.tag && f.stage == 2) else s.cmd.flights)) ∧
    (∃ u, exec .ep3Poll s = .next u ∧ u.svcDev.answer = some (s.svcDev.ep3.take 4).flatten ∧ u.svcDev.ep3 = s.svcDev.ep3.drop 4 ∧
      rd Reg.SVC.STAT.WAKEP u = 0) ∧
    (s.diag.ep5 = [] → ∃ u, exec .ep5Poll s = .next u ∧ u.svcDev.answer = some [] ∧ u.diag = s.diag) ∧
    (∀ e l, s.diag.ep5 = e :: l → ∃ u, exec .ep5Poll s = .next u ∧ u.svcDev.answer = some (ep5Record e s.diag.boots) ∧ u.diag.ep5 = l) ∧
    (∀ r l, ep2Replies s = r :: l → ∃ u, exec .clearFeatureHalt s = .next u ∧ u.svcDev.answer = some r.bytes ∧ 0x82 ∉ u.svcDev.halted ∧
      u.cmd = s.cmd) ∧
    (∀ (req : EntryPoint) n, n = (s.cmd.orphans.filter fun x => x.1 == .svc).length → n < 65536 → ∃ u, exec (.svcOrphRead req) s = .next u ∧
      u.lastRead.toNat = rd Reg.SVC.ORPH.EXPIRED s * 65536 + n ∧ rd Reg.SVC.ORPH.EXPIRED u = 0 ∧ RegsBut [Reg.SVC.ORPH.word.addr] s u))

/-- A head enabled while S1 is up with good timing, planes and output starts, else refuses, and one still stopping goes off first (log 46);
disabling stops it at the next boundary; FLIP latches pending registers or raises FLIP_ERR; VBLANK takes a pending flip; TE edge or timeout
starts a command-mode frame; stale rows change nothing. DSP_FLIP answers at once or at the flip, ST_BUSY on a stopped head; DSP_STATUS
answers the status words; DSP_TIMING_LOAD writes a stored timing into a stopped head. A FLIP frame acts like the command. Readings: log 28.
Rules: R356, R357, R360, R365, R366, R367, R368. -/
def Obligations.HeadsRunAndFlip : Prop :=
  (∀ (h : Fin 2) (x : Head) (s : State), head s h = x →
    (accStat s (Reg.DSP.CFG.word h.val).addr = ST_OK →
      (rdB (Reg.DSP.CFG.EN h.val) s = false → x.stopping = false → s1Up s = false → ∃ u, exec (.dspCfgEnWrite h true) s = .next u ∧
        rdB (Reg.DSP.CFG.EN h.val) u = false ∧ u.heads = s.heads ∧ RegsBut [(Reg.DSP.CFG.word h.val).addr] s u ∧ Only [.regs] s u) ∧
      (rdB (Reg.DSP.CFG.EN h.val) s = false → x.stopping = false → s1Up s = true → ∀ cmd ok, cmd = rdB (Reg.DSP.CFG.CMD h.val) s →
        ok = (timingOk (timingRegs s h) && planesOk s h (pendingRegs s h) && outputOk s h (timingRegs s h) cmd) →
        ∃ u, exec (.dspCfgEnWrite h true) s = .next u ∧ rdB (Reg.DSP.CFG.EN h.val) u = ok ∧
          (ok = true → (head u h).running = true ∧ (head u h).timing = timingRegs s h ∧ (head u h).active = pendingRegs s h ∧
            rd (Reg.DSP.STAT.GEN h.val) u = 0 ∧ rd (Reg.DSP.STAT.SSTATE h.val) u = (if cmd then 3 else 2) ∧
            rd (Reg.DSP.STAT.LINE h.val) u = (if cmd then 0 else tVTOT (timingRegs s h) - 1)) ∧
          (ok = false → rd (Reg.DSP.STAT.TIM_ERR h.val) u = 1 ∧ Raised (srcTIM_ERR h) s u ∧ u.heads = s.heads)) ∧
      (rdB (Reg.DSP.CFG.EN h.val) s = false → x.stopping = true → ∃ u, exec (.headStop h) s = .next u ∧ (head u h).stopping = false ∧
        exec (.dspCfgEnWrite h true) s = .next (headEnable h u)) ∧
      (rdB (Reg.DSP.CFG.EN h.val) s = true → ∃ u, exec (.dspCfgEnWrite h false) s = .next u ∧ rdB (Reg.DSP.CFG.EN h.val) u = false ∧
        rd (Reg.DSP.STAT.FLIPPEND h.val) u = 0 ∧ (head u h).stopping = true ∧ (head u h).running = x.running) ∧
      (rdB (Reg.DSP.CFG.EN h.val) s = false ∨ planesOk s h (pendingRegs s h) = false →
        ∃ u, exec (.dspCfgFlip h) s = .next u ∧ rd (Reg.DSP.STAT.FLIP_ERR h.val) u = 1 ∧ Raised (srcFLIP_ERR h) s u ∧
          rd (Reg.DSP.STAT.FLIPPEND h.val) u = rd (Reg.DSP.STAT.FLIPPEND h.val) s) ∧
      (rdB (Reg.DSP.CFG.EN h.val) s = true → planesOk s h (pendingRegs s h) = true →
        ∃ u, exec (.dspCfgFlip h) s = .next u ∧ rd (Reg.DSP.STAT.FLIPPEND h.val) u = 1 ∧ rd (Reg.DSP.CFG.FLIP h.val) u = 1 ∧ u.heads = s.heads ∧
          (rdB (Reg.DSP.STAT.FLIPPEND h.val) s = true → rd (Reg.DSP.STAT.SUPER h.val) u = 1 ∧ CountsUp (cDSP h 4) s u))) ∧
    (x.stopping = true ∨ (x.running = true ∧ domSt s 0x15 = .quiescing) →
      ∃ u, exec (.headStop h) s = .next u ∧ (head u h).running = false ∧ (head u h).waits = [] ∧ rd (Reg.DSP.STAT.SSTATE h.val) u = 0 ∧
        rd (Reg.DSP.STAT.LINE h.val) u = 0 ∧ rd (Reg.DSP.STAT.FLIPPEND h.val) u = 0) ∧
    (x.stopping = false → x.running = false → exec (.headStop h) s = .next s) ∧
    (x.running = true → x.cmdMode = false → tvWorks s = true → rd (Reg.DSP.STAT.SSTATE h.val) s = 1 →
      ∃ u, exec (.vblank h) s = .next u ∧ rd (Reg.DSP.STAT.SSTATE h.val) u = 2 ∧ rd (Reg.DSP.STAT.LINE h.val) u = tVACT x.timing % 8192 ∧
        Raised (srcVBLANK h) s u ∧
        (rdB (Reg.DSP.STAT.FLIPPEND h.val) s = true → rd (Reg.DSP.STAT.GEN h.val) u = (rd (Reg.DSP.STAT.GEN h.val) s + 1) % 256 ∧
          rd (Reg.DSP.STAT.FLIPPEND h.val) u = 0 ∧ rd (Reg.DSP.CFG.FLIP h.val) u = 0 ∧ (head u h).active = pendingRegs s h ∧
          (head u h).latchAt = lineNs s ∧ (head u h).waits = [] ∧ Raised (srcFLIP_DONE h) s u ∧ CountsUp (cDSP h 3) s u) ∧
        (rdB (Reg.DSP.STAT.FLIPPEND h.val) s = false → rd (Reg.DSP.STAT.GEN h.val) u = rd (Reg.DSP.STAT.GEN h.val) s ∧
          (head u h).active = x.active)) ∧
    (waitsTe s h = true →
      (∃ u, exec (.teEdge h) s = .next u ∧ rd (Reg.DSP.STAT.SSTATE h.val) u = 1 ∧ rd (Reg.DSP.STAT.LINE h.val) u = 0 ∧
        rd (Reg.DSP.STAT.FLIPPEND h.val) u = 0 ∧ rd (Reg.DSP.STAT.GEN h.val) u = (rd (Reg.DSP.STAT.GEN h.val) s + 1) % 256 ∧
        (head u h).active = pendingRegs s h ∧ (head u h).fresh = true) ∧
      (∃ u, exec (.teTimeout h) s = .next u ∧ rd (Reg.DSP.STAT.SSTATE h.val) u = 1 ∧ rd (Reg.DSP.STAT.TE_MISS h.val) u = 1 ∧
        Raised (srcTE_MISS h) s u ∧ CountsUp (cDSP h 2) s u ∧ rd (Reg.DSP.STAT.GEN h.val) u = (rd (Reg.DSP.STAT.GEN h.val) s + 1) % 256)) ∧
    (waitsTe s h = false → exec (.teEdge h) s = .next s ∧ exec (.teTimeout h) s = .next s)) ∧
  (∀ (o : Origin) (body : List Byte) (h : Fin 2) (s : State), mayDispatch s o = true → field body 0 1 = h.val → dieStatus s 5 = ST_OK →
    (body.length = 20 → zeroAt body 2 2 = true →
      (bits 6 4 (field body 1 1) = 0 → rdB (Reg.DSP.CFG.EN h.val) s = false → ∃ u, exec (.dspFlip o body) s = .next (reply o ST_BUSY [] u) ∧
        rd (Reg.DSP.STAT.FLIP_ERR h.val) u = 1 ∧
        (bit 0 (field body 1 1) = true → regGet u (Reg.DSP.VPLANE4.word h.val).addr = BitVec.ofNat 32 (field body 4 4)) ∧
        (bit 3 (field body 1 1) = true → regGet u (Reg.DSP.OVL4.word h.val).addr = BitVec.ofNat 32 (field body 16 4))) ∧
      (rdB (Reg.DSP.CFG.EN h.val) s = true → planesOk s h (pendingRegs s h) = true →
        (field body 1 1 = 0 → ∃ u, exec (.dspFlip o body) s = .next (reply o ST_OK (beBytes 1 (rd (Reg.DSP.STAT.GEN h.val) s) ++
          List.replicate 11 0) u) ∧ rd (Reg.DSP.STAT.FLIPPEND h.val) u = 1 ∧ u.heads = s.heads) ∧
        (field body 1 1 = 0x80 → ∃ u, exec (.dspFlip o body) s = .next u ∧ rd (Reg.DSP.STAT.FLIPPEND h.val) u = 1 ∧
          (head u h).waits = (head s h).waits ++ [o]))) ∧
    (body.length = 4 → zeroAt body 1 3 = true → exec (.dspStatus o body) s = .next (reply o ST_OK
      (beBytes 4 (regGet s (Reg.DSP.STAT.word h.val).addr).toNat ++ beBytes 4 (regGet (wr (Reg.DSP.LTOL.TOL h.val) (tolNow s h) s) (Reg.DSP.LTOL.word h.val).addr).toNat ++
        beBytes 4 (regGet s Reg.DMX.STAT.word.addr).toNat ++ [0, 0, 0, 0] ++ beBytes 8 (head s h).latchAt) (dispatch o s))) ∧
    (body.length = 4 → zeroAt body 2 2 = true →
      (s.timings.length ≤ field body 1 1 → exec (.dspTimingLoad o body) s = .next (reply o ST_BAD_PARAM [] (dispatch o s))) ∧
      (∀ r, s.timings[field body 1 1]? = some r →
        (rdB (Reg.DSP.CFG.EN h.val) s = true → exec (.dspTimingLoad o body) s = .next (reply o ST_BUSY [] (dispatch o s))) ∧
        (rdB (Reg.DSP.CFG.EN h.val) s = false → ∃ u, exec (.dspTimingLoad o body) s = .next (reply o ST_OK [] u) ∧
          timingRegs u h = (List.range 8).map (fun k => BitVec.ofNat 32 (field r (4 * k) 4)) ∧ u.heads = s.heads))) ∧
    (∀ (f : Frame) (u : State), takeFrame 10 (fun f : Frame => f.typ == 6 && field f.bytes 0 1 == 1) s = some (f, u) →
      field f.bytes 1 1 = h.val → field f.bytes 8 1 = 0 →
      (rdB (Reg.DSP.CFG.EN h.val) s = true → planesOk s h (pendingRegs s h) = true → ∃ t, exec .flip s = .next t ∧
        rd (Reg.DSP.STAT.FLIPPEND h.val) t = 1 ∧ inbox t 10 = inbox u 10 ∧ t.heads = s.heads) ∧
      (rdB (Reg.DSP.CFG.EN h.val) s = false → ∃ t, exec .flip s = .next t ∧ rd (Reg.DSP.STAT.FLIP_ERR h.val) t = 1 ∧
        Raised (srcFLIP_ERR h) s t)))

/-- FETCH_COMPLETE appends the fetched line to the buffer, or marks it failed with its status; stale fetches change nothing. LINE_START puts the
next line out from the buffer, or underruns. TOL_PUBLISH shows and sends the tolerance. A ROUTE write is taken where no busy head changes
and refused otherwise; the relay shows which port drives each head. Colour conversion and blanking readings: log 28. Rules: R48, R186, R361,
R362, R363, R364, R368. -/
def Obligations.LinesAreFetchedAndPutOut : Prop :=
  ∀ (h : Fin 2) (x : Head) (s : State), head s h = x →
    (∀ l ls, tvWorks s = true → dcmServes s 1 = true → originHeld s 5 = false → linkState s 5 ≠ 4 → x.asked = l :: ls →
      (∃ u, exec (.fetchComplete h true) s = .next u ∧ head u h = { x with asked := ls, buf := x.buf ++ [fetchLine s x.active l] } ∧
        Only [.heads] s u) ∧
      (∃ u, exec (.fetchComplete h false) s = .next u ∧ head u h = { x with asked := ls } ∧ rd (Reg.DSP.STAT.FB_ERR h.val) u = 1 ∧
        Raised (srcFB_ERR h) s u ∧ CountsUp (cDSP h 1) s u)) ∧
    (tvWorks s = false ∨ dcmServes s 1 = false ∨ originHeld s 5 = true ∨ linkState s 5 = 4 ∨ x.asked = [] → ∀ b, exec (.fetchComplete h b) s = .next s) ∧
    (∀ l, x.running = true → tvWorks s = true → (rd (Reg.DSP.STAT.SSTATE h.val) s = 1 ∨ rd (Reg.DSP.STAT.SSTATE h.val) s = 2) →
      ¬ (rd (Reg.DSP.STAT.SSTATE h.val) s = 1 ∧ x.fresh = false ∧ rd (Reg.DSP.STAT.LINE h.val) s + 1 = tVACT x.timing) →
      l = (if x.fresh = true ∨ tVTOT x.timing ≤ rd (Reg.DSP.STAT.LINE h.val) s + 1 then 0 else rd (Reg.DSP.STAT.LINE h.val) s + 1) →
      ∃ u, exec (.lineStart h) s = .next u ∧ rd (Reg.DSP.STAT.LINE h.val) u = l % 8192 ∧ (head u h).fresh = false ∧ (head u h).lineAt = s.now ∧
        (l < tVACT x.timing → rd (Reg.DSP.STAT.SSTATE h.val) u = 1) ∧
        (tVACT x.timing ≤ l → rd (Reg.DSP.STAT.SSTATE h.val) u = rd (Reg.DSP.STAT.SSTATE h.val) s ∧ (head u h).buf = x.buf) ∧
        (∀ e rest, l < tVACT x.timing → x.buf = e :: rest → e.line = l → (head u h).buf = rest ∧
          (head u h).out = (List.range (tHACT x.timing)).map (pixel x.active x.palette (tBPC x.timing) e)) ∧
        (l < tVACT x.timing → x.buf = [] → CountsUp (cDSP h 0) s u ∧
          (head u h).out = (List.range (tHACT x.timing)).map (fun _ => underColour s h (tBPC x.timing)) ∧
          (x.underSaid = false ∨ l = 0 → rd (Reg.DSP.STAT.UNDER h.val) u = 1 ∧ Raised (srcUNDERRUN h) s u))) ∧
    (x.running = false → exec (.lineStart h) s = .next s) ∧
    (∃ u, exec (.tolPublish h) s = .next u ∧ rd (Reg.DSP.LTOL.TOL h.val) u = tolNow s h ∧ RegsBut [(Reg.DSP.LTOL.word h.val).addr] s u ∧
      (x.running = false → rd (Reg.DSP.LTOL.TOL h.val) u = 0xFFFFFF)) ∧
    (∀ v : Word, accStat s Reg.DMX.ROUTE.word.addr = ST_OK →
      (headBusy s 0 = false → headBusy s 1 = false → ∃ u, exec (.dmxRouteWrite v) s = .next u ∧ regGet u Reg.DMX.ROUTE.word.addr = v ∧
        RegsBut [Reg.DMX.ROUTE.word.addr] s u ∧ Only [.regs] s u) ∧
      ((headBusy s 0 = true ∧ Reg.DMX.ROUTE.OUT0.of v ≠ rd Reg.DMX.ROUTE.OUT0 s) ∨
        (headBusy s 1 = true ∧ Reg.DMX.ROUTE.TUN1.of v ≠ rd Reg.DMX.ROUTE.TUN1 s) → exec (.dmxRouteWrite v) s = .next s)) ∧
    (present s 5 = true →
      (∀ t, ((List.range 8).filter fun t => rdB (Reg.TCP.ALT.ACTIVE t) s && rd (Reg.TCP.ALT.HEAD t) s == 0).head? = some t →
        ∃ u, exec .dmxStatusRelay s = .next u ∧ rd Reg.DMX.STAT.HELD0 u = 1 ∧ rd Reg.DMX.STAT.HPD0 u = rd (Reg.TCP.ALT.HPD t) s ∧
          rd Reg.DMX.STAT.W4_0 u = ofBool (rd (Reg.TCP.ALT.PINASG t) s == 1) ∧ RegsBut [Reg.DMX.STAT.word.addr] s u) ∧
      ((∀ t, t < 8 → rdB (Reg.TCP.ALT.ACTIVE t) s = false) → ∃ u, exec .dmxStatusRelay s = .next u ∧ rd Reg.DMX.STAT.HELD0 u = 0 ∧
        rd Reg.DMX.STAT.HELD1 u = 0 ∧ rd Reg.DMX.STAT.HPD0 u = 0 ∧ rd Reg.DMX.STAT.HPD1 u = 0))

/-- A received frame of a live port with its link up is dropped and counted when its length or FCS is bad, the buffer full (ETH_OVF) or no
tunnel mapped, else wrapped with the VID tag stripped as the map says and originated (in a repeater, role 2, it is counted as unmapped).
PAUSE holds egress for its quanta and is sent at the thresholds; egress sends the oldest frame with its FCS, rewriting PTP fields by mode. A
link comes up only at an allowed speed; loss clears it. VCTL APPLY refuses port 6 and tunnel 0, LOAD reads back. Readings: log 29. Rules:
R370, R371, R373, R374, R375, R376, R386. -/
def Obligations.EthernetFramesAndPorts : Prop :=
  (∀ (e : Fin 12) (x : EthPort) (s : State), eth s e = x →
    (tnLives s e = false ∨ rdB (Reg.ETH.STAT.LINK e) s = false →
      (∀ q, exec (.pauseFrameReceive e q) s = .next s) ∧ exec (.ethFrameTransmit e) s = .next s ∧
      ∀ fr, ∃ t, exec (.ethFrameReceive e fr) s = .next t ∧ eth t e = { x with pauseSent := [] } ∧ Only [.eths] s t) ∧
    (x.egress = [] ∨ rxPaused s e = true → exec (.ethFrameTransmit e) s = .next s) ∧
    (tnLives s e = true → rdB (Reg.ETH.STAT.LINK e) s = true →
      (∀ q : BitVec 16, ∃ t, exec (.pauseFrameReceive e q) s = .next t ∧ eth t e = { x with rxPause := s.now + quantaNs s e q.toNat } ∧ Only [.eths] s t) ∧
      (∀ frame : List Byte,
        (frame.length < 64 ∨ 9216 < frame.length ∨ fcsGood frame = false →
          ∃ t, exec (.ethFrameReceive e frame) s = .next t ∧ CountsUp (cETH e 10) s t ∧ (eth t e).buf = x.buf ∧ t.comb = s.comb ∧
            t.sched = s.sched ∧ t.tolger = s.tolger) ∧
        (64 ≤ frame.length → frame.length ≤ 9216 → fcsGood frame = true →
          (ethBuffer e < ethOcc s e + frame.length → ∃ t, exec (.ethFrameReceive e frame) s = .next t ∧ CountsUp (cETH e 5) s t ∧
            CountsUp (cETH e 0) s t ∧ Raised (srcETH_OVF (e / 6)) s t ∧ (eth t e).buf = x.buf ∧ t.sched = s.sched ∧ t.tolger = s.tolger) ∧
          (ethOcc s e + frame.length ≤ ethBuffer e → ∀ tag tun strip, tag = outerTag (rdB (Reg.ETH.VLAN.SVLAN e) s) frame →
            ((∃ m, mapFind s (e / 6) (e % 6) (tag.getD 0 % 4096) = some m ∧ tun = bits 25 12 m ∧ strip = (if bit 30 m then tag else none)) ∨
              (mapFind s (e / 6) (e % 6) (tag.getD 0 % 4096) = none ∧ tun = rd (Reg.ETH.VLAN.DTUN e) s ∧ strip = none)) →
            (tun = 0 ∨ isRepeater s = true → ∃ t, exec (.ethFrameReceive e frame) s = .next t ∧ CountsUp (cETH e 4) s t ∧ CountsUp (cETH e 0) s t ∧
              t.sched = s.sched ∧ t.tolger = s.tolger ∧ (eth t e).buf = x.buf) ∧
            (∀ oe, tun ≠ 0 → slotWorks s (ethSlot e) = true → originEntry s (ethSlot e) tun = some oe →
              ∃ u, exec (.ethFrameReceive e frame) s = .next (pauseCheck e (originate (ethSlot e) tun
                (ethWrap (bit 0 (orgUCTX oe)) (bit 1 (orgUCTX oe)) (e % 6) strip (ethStamp s e) frame) u)) ∧ CountsUp (cETH e 0) s u ∧
                (eth u e).buf = x.buf ∧ u.sched = s.sched ∧ u.tolger = s.tolger)))) ∧
      (∀ f rest b fcs, x.egress = f :: rest → rxPaused s e = false →
        ((rd (Reg.ETH.TSCFG.MODE e) s = 0 ∨ ptpAt f.bytes = none) ∧ b = f.bytes ∨
          rd (Reg.ETH.TSCFG.MODE e) s ≠ 0 ∧ ∃ p u v6, ptpAt f.bytes = some (p, u, v6) ∧
            ptpEgress (rd (Reg.ETH.TSCFG.MODE e) s) (ethStamp s e) f p u v6 = some b) →
        fcs = (match f.fcs with | some c => if b = f.bytes then c else fcsOf b | none => fcsOf b) →
        ∃ t, exec (.ethFrameTransmit e) s = .next t ∧ (eth t e).egress = rest ∧ (eth t e).out = some (b ++ fcs, false) ∧
          CountsUp (cETH e 1) s t) ∧
      (∀ f rest p u v6, x.egress = f :: rest → rxPaused s e = false → rd (Reg.ETH.TSCFG.MODE e) s ≠ 0 → ptpAt f.bytes = some (p, u, v6) →
        ptpEgress (rd (Reg.ETH.TSCFG.MODE e) s) (ethStamp s e) f p u v6 = none →
        ∃ t, exec (.ethFrameTransmit e) s = .next t ∧ (eth t e).egress = rest ∧
          (eth t e).out = some (f.bytes ++ f.fcs.getD (fcsOf f.bytes), false) ∧ CountsUp (cETH e 7) s t))) ∧
  (∀ (e : Fin 12) (x : EthPort) (s : State), eth s e = x →
    (∀ spd : Fin 8, tnLives s e = true → rdB (Reg.ETH.CFG.EN e) s = true → rdB (Reg.ETH.STAT.LINK e) s = false →
      (spdOk s e spd = true → ∃ t, exec (.ethLinkUp e spd) s = .next t ∧ rd (Reg.ETH.STAT.LINK e) t = 1 ∧ rd (Reg.ETH.STAT.SPD e) t = spd ∧
        Raised (srcETHLINK e) s t ∧ RegsBut [(Reg.ETH.STAT.word e).addr] s t) ∧
      (spdOk s e spd = false → exec (.ethLinkUp e spd) s = .next s)) ∧
    (rdB (Reg.ETH.STAT.LINK e) s = true → ∀ busy, ∃ t, exec (.ethLinkLost e busy) s = .next t ∧ rd (Reg.ETH.STAT.LINK e) t = 0 ∧
      rd (Reg.ETH.STAT.SPD e) t = 0 ∧ Raised (srcETHLINK e) s t ∧ (eth t e).rxPause = 0 ∧ (eth t e).pausing = false ∧
      (busy = false → (eth t e).egress = x.egress) ∧
      (∀ f rest, busy = true → x.egress = f :: rest → (eth t e).egress = rest ∧ (eth t e).out = some (f.bytes, true) ∧ CountsUp (cETH e 6) s t)) ∧
    (rdB (Reg.ETH.STAT.LINK e) s = false → ∀ busy, exec (.ethLinkLost e busy) s = .next s) ∧
    (∃ t, exec (.pauseRepeat e) s = .next t ∧ Only [.eths] s t ∧
      (x.pausing = false → eth t e = { x with pauseSent := [] }) ∧
      (x.pausing = true → rdB (Reg.ETH.PAUSE.EN e) s = true →
        (ethOcc s e * 512 ≤ rd (Reg.ETH.PAUSE.XOFF e) s * ethBuffer e → eth t e = { x with pausing := false, pauseSent := [0] }) ∧
        (rd (Reg.ETH.PAUSE.XOFF e) s * ethBuffer e < ethOcc s e * 512 →
          eth t e = { x with pauseSent := [rd (Reg.ETH.PAUSE.QUANTA e) s] }))) ∧
    (∀ (r : EntryPoint) (d : Fin 2) (m : Word) (i : Nat), accStat s (Reg.ETM.VCTL.word d.val).addr = ST_OK →
      staged s r (Reg.ETM.VMAP.word d.val) = m → rd ((Reg.ETM.VSEL.INDEX d.val).mine r) s = i →
      (bits 29 27 m.toNat = 6 ∨ (bit 31 m.toNat = true ∧ bits 25 12 m.toNat = 0) → exec (.etmVctlApply r d) s = .next s) ∧
      (bits 29 27 m.toNat ≠ 6 → bit 31 m.toNat = false ∨ bits 25 12 m.toNat ≠ 0 →
        ∃ t, exec (.etmVctlApply r d) s = .next t ∧ mapEntry t d i = m.toNat ∧ (∀ d' j, j < 256 → ¬ (d' = d.val ∧ j = i) → mapEntry t d' j = mapEntry s d' j) ∧
          Only [.etm] s t) ∧
      (∃ t, exec (.etmVctlLoad r d) s = .next t ∧ (regGet t ((Reg.ETM.VMAP.word d.val).mine r).addr).toNat = mapEntry s d i ∧
        RegsBut [((Reg.ETM.VMAP.word d.val).mine r).addr] s t ∧ Only [.regs] s t)))

/-- While the supply is not held: turning EN off with the gate up gives WAIT_OFF with its cause and instant; turning it on leaves OFF for
QUALIFY (a port) or INRUSH (the load) where nothing forbids it; ROLE 2 gives INPUT. Qualification sorts R_sig and C_sig into its result.
Removal below IHOLD, inrush end or timeout, off-minimum expiry, curve trip, fast trip (which prevails in one tick) and FET_SHORT give their
states, causes, sources and counters; stale rows change nothing. SLOW_TICK advances TICK, every fuse's counters and, in HOLD_SLOW, line time
to the end of the tick. Units and the tick's order: log 31. Rules: R244, R392, R393, R394, R395, R396, R398, R399, R401, R402, R403. -/
def Obligations.EFusesSwitchTripAndCount : Prop :=
  (∀ (p : LPort) (x : EFuse) (s : State), efuse s p = x → s.supplyHold = false →
    (efEn s p = true →
      (efUp s p = true → ∃ t, exec (.pcfgEnWrite p false) s = .next t ∧ efEn t p = false ∧ efState t p = 1 ∧
        rd (Reg.LPW.PSTAT.CAUSE p) t = 8 ∧ rd (Reg.LPW.PSTAT.TMR p) t = 0 ∧ (efuse t p).offAt = some s.now ∧
        (efuse t p).cnt = List.replicate 8 0 ∧ ∀ g, g ≠ p.val → efuse t g = efuse s g) ∧
      (efState s p = 2 → x.seg = none → ∃ t, exec (.pcfgEnWrite p false) s = .next t ∧ efEn t p = false ∧ efState t p = 0)) ∧
    (efEn s p = false →
      (efState s p = 5 → ∀ t0, x.offAt = some t0 → s.now < t0 + offMin s →
        ∃ t, exec (.pcfgEnWrite p true) s = .next t ∧ efEn t p = true ∧ efState t p = 1) ∧
      (efState s p = 0 → efRole s p = 1 → (efAuto s p || x.onReq) = true → rdB Reg.LPW.LSTAT.PWARN s = false →
        rdB (Reg.LPW.PSTAT.FARSRC p) s = false → rdB Reg.LPW.LSTAT.UVLO s = false →
        ∃ t, exec (.pcfgEnWrite p true) s = .next t ∧ efEn t p = true ∧ efState t p = 2)) ∧
    (efState s 4 = 0 → efEn s 4 = false → (efAuto s 4 || (efuse s 4).onReq) = true → s.nurse.vonOk = true → rdB Reg.LPW.LSTAT.UVLO s = false →
      ∃ t, exec (.lcfgEnWrite true) s = .next t ∧ efEn t 4 = true ∧ efState t 4 = 3) ∧
    (efUp s 4 = true → efEn s 4 = true → ∃ t, exec (.lcfgEnWrite false) s = .next t ∧ efEn t 4 = false ∧ efState t 4 = 1 ∧
      rd Reg.LPW.LSTAT.CAUSE t = 8 ∧ (efuse t 4).offAt = some s.now) ∧
    (efRole s p ≠ 2 → efState s p = 0 → ∃ t, exec (.pcfgRoleWrite p 2) s = .next t ∧ efRole t p = 2 ∧ efState t p = 7) ∧
    (efRole s p = 2 → efState s p = 7 → x.offAt = none → ∃ t, exec (.pcfgRoleWrite p 0) s = .next t ∧ efRole t p = 0 ∧ efState t p = 0) ∧
    (efRole s p = 1 → efUp s p = true → ∃ t, exec (.pcfgRoleWrite p 0) s = .next t ∧ efRole t p = 0 ∧ efState t p = 1 ∧
      rd (Reg.LPW.PSTAT.CAUSE p) t = 8 ∧ (efuse t p).offAt = some s.now) ∧
    (∀ (vp lim : Bool) (rs cs : BitVec 16) (r : Nat),
      r = (if vp then 5 else if lim = true ∨ rs.toNat < 2375 then 3 else if 2625 < rs.toNat then 2 else if 100 < cs.toNat then 4 else 1) →
      (efState s p = 2 → ∃ t, exec (.qualifyComplete p vp lim rs cs) s = .next t ∧ rd (Reg.LPW.PSTAT.QRES p) t = r ∧ (efuse t p).seg = none ∧
        (r ≠ 1 → CountsUp (cLPW (4 * p + 2)) s t) ∧
        (x.seg = none → r = 1 → efState t p = 3) ∧
        (x.seg = none → r ≠ 1 → efState t p = 0 ∧ (efuse t p).retry = true ∧ (efuse t p).onReq = false)) ∧
      (efState s p ≠ 2 → exec (.qualifyComplete p vp lim rs cs) s = .next s)) ∧
    (x.retry = true → efState s p = 0 → rd Reg.LPW.QUAL.RETRY s ≠ 0 → efAuto s p = true → ∃ t, exec (.qualRetry p) s = .next t ∧
      (efuse t p).retry = false ∧ (efRole s p = 1 → efEn s p = true → rdB Reg.LPW.LSTAT.PWARN s = false →
        rdB (Reg.LPW.PSTAT.FARSRC p) s = false → rdB Reg.LPW.LSTAT.UVLO s = false → efState t p = 2)) ∧
    (x.retry = false ∨ rd Reg.LPW.QUAL.RETRY s = 0 ∨ efAuto s p = false ∨ efState s p ≠ 0 → exec (.qualRetry p) s = .next s) ∧
    (efState s p = 4 ∧ x.mean < rd Reg.LPW.QUAL.IHOLD s → ∃ t, exec (.removal p) s = .next t ∧ efState t p = 1 ∧
      rd (Reg.LPW.PSTAT.CAUSE p) t = 7 ∧ rd (Reg.LPW.PSTAT.QRES p) t = 0 ∧ (efuse t p).offAt = some s.now ∧ CountsUp (cLPW (4 * p + 3)) s t) ∧
    (efState s p ≠ 4 ∨ rd Reg.LPW.QUAL.IHOLD s ≤ x.mean → exec (.removal p) s = .next s)) ∧
  (∀ (f : Fin 5) (x : EFuse) (s : State), efuse s f = x → s.supplyHold = false →
    (efState s f = 3 →
      (∃ t, exec (.inrushEnd f) s = .next t ∧ efState t f = 4 ∧ t.efuses = s.efuses) ∧
      (∃ t, exec (.inrushTimeout f) s = .next t ∧ efState t f = 5 ∧ rd (efCauseF f) t = 3 ∧ Raised (srcLP_TRIP f) s t ∧
        (efuse t f).offAt = some s.now)) ∧
    (efState s f ≠ 3 → exec (.inrushEnd f) s = .next s ∧ exec (.inrushTimeout f) s = .next s) ∧
    (efState s f = 1 → ∃ t, exec (.offMinExpiry f) s = .next t ∧ t.efuses = s.efuses ∧
      (f ≠ 4 → efRole s f = 2 → efState t f = 7) ∧
      (f ≠ 4 → efRole s f ≠ 2 → efState t f = (if portMay s f then 2 else 0)) ∧ (f = 4 → efState t f = (if loadMay s then 3 else 0))) ∧
    (efState s f ≠ 1 → exec (.offMinExpiry f) s = .next s) ∧
    (efState s f = 4 → curveDue x = true → ∃ t, exec (.curveTrip f) s = .next t ∧ efState t f = 5 ∧ rd (efCauseF f) t = 1 ∧
      Raised (srcLP_TRIP f) s t ∧ CountsUp (cTripCurve f) s t ∧ (efuse t f).cnt = List.replicate 8 0) ∧
    (efState s f ≠ 4 ∨ curveDue x = false → exec (.curveTrip f) s = .next s) ∧
    (efUp s f = true → ∃ t, exec (.fastTrip f) s = .next t ∧ efState t f = 5 ∧ rd (efCauseF f) t = 2 ∧ Raised (srcLP_TRIP f) s t ∧
      CountsUp (cTripFast f) s t ∧ (efuse t f).offAt = some s.now) ∧
    (efState s f = 5 → rd (efCauseF f) s = 1 → x.tripAt = some (rd Reg.NRS.TICK.COUNT s) → ∃ t, exec (.fastTrip f) s = .next t ∧
      efState t f = 5 ∧ rd (efCauseF f) t = 2 ∧ CountsUp (cTripFast f) s t ∧ t.efuses = s.efuses) ∧
    (efUp s f = false → efState s f ≠ 5 → exec (.fastTrip f) s = .next s) ∧
    (∀ p : LPort, p.val = f.val → (fetDue s p = true → ∃ t, exec (.fetShort p) s = .next t ∧ efState t p = 6 ∧ Raised (srcLP_FETSHORT p) s t) ∧
      (fetDue s p = false → exec (.fetShort p) s = .next s)) ∧
    (∀ (cur vout : List Nat) (vin : BitVec 16) (c : List Nat), c = cntNext x.curve x.cnt (cur.getD f 0) →
      ∃ t, exec (.slowTick cur vout vin) s = .next t ∧ rd Reg.NRS.TICK.COUNT t = (rd Reg.NRS.TICK.COUNT s + 1) % 2 ^ 32 ∧
        rd Reg.LPW.LSTAT.VIN t = vin.toNat ∧ (efuse t f).vout = vout.getD f 0 ∧ (efuse t f).mean = cur.getD f 0 ∧
        (rd Reg.TIM.STAT.QSTATE s = 4 → t.lt = (s.lt + (s.time.tickLen - s.time.interp)) % 2 ^ 96 ∧ t.time.interp = 0) ∧ (rd Reg.TIM.STAT.QSTATE s ≠ 4 → t.lt = s.lt) ∧
        (rd Reg.NRS.TICK.COUNT s = 1023 → rdB Reg.NRS.STAT.XTFAIL s = false → rd Reg.NRS.STAT.XTOK t = 1) ∧
        (f ≠ 4 → rd (Reg.LPW.PSTAT.IMEAS f) t = min 65535 (cur.getD f 0 / 10)) ∧
        (efState s f = 4 → curveDue { x with cnt := c } = false → efState t f = 4 ∧ (efuse t f).cnt = c ∧
          (c.all (· == 0) = true → rd (efTmrF f) t = 0 ∧ rd (efPgF f) t = 1) ∧
          (c.all (· == 0) = false → rd (efTmrF f) t = 1 ∧ rd (efPgF f) t = rd (efPgF f) s)) ∧
        (efState s f = 4 → curveDue { x with cnt := c } = true → efState t f = 5 ∧ rd (efCauseF f) t = 1 ∧ Raised (srcLP_TRIP f) s t ∧
          CountsUp (cTripCurve f) s t ∧ (efuse t f).cnt = List.replicate 8 0)))

/-- While the supply is held nothing of this happens. Else LPWR words go out and are taken; PWRWARN is raised by level or slope, holds
qualification and is released; UVLO turns every fuse off, VON lets them on again. A curve is applied only when its shape is good. EFUSE_CTL
turns off, on, clears a latch or FET_SHORT, or answers ST_DENIED, ST_BUSY or ST_BAD_PARAM; EFUSE_STATUS and EFUSE_CURVE answer; SEG_QUALIFY
starts a qualification and waits, or is busy. Readings: log 31. Rules: R149, R244, R304, R396, R397, R399, R407, R408, R412, R415. -/
def Obligations.LinePowerWarnsAndObeys : Prop :=
  (∀ (p : LPort) (s : State),
    (s.supplyHold = true → exec .lpwrPeriodic s = .next s ∧ (∀ b, exec (.pwrwarnAssert b) s = .next s) ∧ exec .xt32Fail s = .next s ∧
      (∀ c v w, exec (.slowTick c v w) s = .next s) ∧ ∀ b, exec (.pcfgEnWrite p b) s = .next s) ∧ (s.supplyHold = false →
    (∃ t, exec .lpwrPeriodic s = .next t ∧ Only [.ports] s t ∧
      (lstate s p = ACTIVE ∨ lstate s p = HUM ∨ lstate s p = DOZE → (lp t p).osq = (lp s p).osq ++ [lpwrWord s p]) ∧
      (lstate s p ≠ ACTIVE → lstate s p ≠ HUM → lstate s p ≠ DOZE → lp t p = lp s p)) ∧
    (∀ b : BitVec 48, ∃ t, exec (.lpwr p b) s = .next t ∧ (lp t p).lpwr = b.toNat ∧ rd (Reg.LPW.PSTAT.FARSRC p) t = ofBool (bit 47 b.toNat) ∧
      (efRole s p = 1 → bit 45 b.toNat = true → rd (Reg.LPW.PSTAT.DNUNPROT p) t = 1 ∧ Raised (srcLP_UNPROT p) s t ∧
        (rdB (Reg.LPW.PCFG.UPCUT p) s = true → efState s p ≠ 5 → efState s p ≠ 6 → efState t p = 5 ∧ rd (Reg.LPW.PSTAT.CAUSE p) t = 4 ∧
          (efuse t p).offAt = some s.now)) ∧
      (efRole s p = 1 → bit 47 b.toNat = true → efState s p = 2 ∨ efState s p = 3 ∨ efState s p = 4 → Raised (srcLP_BACKFEED p) s t ∧
        efState t p = 5 ∧ (bit 45 b.toNat = false → rd (Reg.LPW.PSTAT.CAUSE p) t = 5)) ∧
      (efRole s p = 1 → bit 47 b.toNat = false → bit 45 b.toNat = false → efState s p = 4 → efState t p = 4)) ∧
    (∀ slope : Bool,
      (rdB Reg.LPW.LSTAT.PWARN s = true → ∃ t, exec (.pwrwarnAssert slope) s = .next t ∧
        rd (if slope then Reg.LPW.LSTAT.WSLP else Reg.LPW.LSTAT.WLVL) t = 1 ∧ Only [.regs] s t) ∧
      (rdB Reg.LPW.LSTAT.PWARN s = false → slope = true → rd Reg.LPW.PWARN.SLOPE s = 0 → exec (.pwrwarnAssert slope) s = .next s) ∧
      (rdB Reg.LPW.LSTAT.PWARN s = false → slope = false ∨ rd Reg.LPW.PWARN.SLOPE s ≠ 0 → ∃ t, exec (.pwrwarnAssert slope) s = .next t ∧
        rd Reg.LPW.LSTAT.PWARN t = 1 ∧ rd (if slope then Reg.LPW.LSTAT.WSLP else Reg.LPW.LSTAT.WLVL) t = 1 ∧ Raised srcLP_PWARN s t ∧
        (efState s p = 2 → efState t p = 0) ∧ (efState s p = 4 → efState t p = 4) ∧
        (rdB Reg.RTE.BYP.AUTO_PWR s = true → rd Reg.RTE.BYP.BYP t = 1))) ∧
    (rdB Reg.LPW.LSTAT.PWARN s = true → ∃ t, exec .pwrwarnDeassert s = .next t ∧ rd Reg.LPW.LSTAT.PWARN t = 0 ∧ t.efuses = s.efuses ∧
      (efState s p = 0 → efRole s p = 1 → efEn s p = true → (efAuto s p || (efuse s p).onReq) = true → (efuse s p).retry = false →
        rdB (Reg.LPW.PSTAT.FARSRC p) s = false → rdB Reg.LPW.LSTAT.UVLO s = false → efState t p = 2)) ∧
    (rdB Reg.LPW.LSTAT.PWARN s = false → exec .pwrwarnDeassert s = .next s) ∧
    (∃ t, exec .uvlo s = .next t ∧ rd Reg.LPW.LSTAT.UVLO t = 1 ∧ t.nurse.vonOk = false ∧ Raised srcLP_UVLO s t ∧
      (∀ f : Fin 5, efUp s f = true → efState t f = 1 ∧ rd (efCauseF f) t = 6 ∧ (efuse t f).offAt = some s.now) ∧
      (efState s p = 2 → efState t p = 0)) ∧
    (∃ t, exec .lbusVon s = .next t ∧ rd Reg.LPW.LSTAT.UVLO t = 0 ∧ t.nurse.vonOk = true ∧ t.efuses = s.efuses ∧
      (efState s 4 = 0 → efEn s 4 = true → (efAuto s 4 || (efuse s 4).onReq) = true → efState t 4 = 3) ∧
      (efState s p = 0 → efRole s p = 1 → efEn s p = true → (efAuto s p || (efuse s p).onReq) = true → (efuse s p).retry = false →
        rdB (Reg.LPW.PSTAT.FARSRC p) s = false → rdB Reg.LPW.LSTAT.PWARN s = false → efState t p = 2)))) ∧
  ((∀ (r : EntryPoint) (s : State) (c : Nat) (l : List Word), rd (Reg.LPW.CSEL.CURVE.mine r) s = c →
    (List.range 8).map (fun k => staged s r (Reg.LPW.CPT.word k)) = l →
    (c < 5 → curveOk c l = true → ∃ t, exec (.lpwCctlApply r) s = .next t ∧ efuse t c = { efuse s c with curve := l } ∧
      (∀ g, g ≠ c → efuse t g = efuse s g) ∧ Only [.efuses] s t) ∧
    (5 ≤ c ∨ curveOk c l = false → exec (.lpwCctlApply r) s = .next s) ∧
    (c < 5 → ∃ t, exec (.lpwCctlLoad r) s = .next t ∧ Only [.regs] s t ∧
      ∀ k, k < 8 → regGet t ((Reg.LPW.CPT.word k).mine r).addr = (efuse s c).curve.getD k 0) ∧
    (5 ≤ c → exec (.lpwCctlLoad r) s = .next s)) ∧
  ∀ (o : Origin) (body : List Byte) (f : Nat) (s : State), mayDispatch s o = true → field body 0 1 = f →
    (4 < f → (body.length = 4 → exec (.efuseCtl o body) s = .next (reply o ST_BAD_PARAM [] (dispatch o s)) ∧
      exec (.efuseStatus o body) s = .next (reply o ST_BAD_PARAM [] (dispatch o s)) ∧
      exec (.segQualify o body) s = .next (reply o ST_BAD_PARAM [] (dispatch o s))) ∧
      (body.length = 36 → exec (.efuseCurve o body) s = .next (reply o ST_BAD_PARAM [] (dispatch o s)))) ∧
    (f < 4 → efRole s f ≠ 1 → body.length = 4 → zeroAt body 1 3 = true →
      exec (.efuseCtl o body) s = .next (reply o ST_DENIED [] (dispatch o s)) ∧
      exec (.efuseStatus o body) s = .next (reply o ST_DENIED [] (dispatch o s)) ∧
      exec (.segQualify o body) s = .next (reply o ST_DENIED [] (dispatch o s))) ∧
    (f = 4 ∨ (f < 4 ∧ efRole s f = 1) →
      (body.length = 4 → zeroAt body 2 2 = true →
        (field body 1 1 = 0 → efUp s f = true → ∃ u, exec (.efuseCtl o body) s = .next (reply o ST_OK (efStat u f) u) ∧ efState u f = 1 ∧
          rd (efCauseF f) u = 8 ∧ (efuse u f).offAt = some s.now) ∧
        (field body 1 1 = 1 →
          (efEn s f = false → exec (.efuseCtl o body) s = .next (reply o ST_DENIED [] (dispatch o s))) ∧
          (efEn s f = true → efState s f = 5 ∨ efState s f = 6 → exec (.efuseCtl o body) s = .next (reply o ST_BUSY [] (dispatch o s))) ∧
          (efEn s f = true → efState s f = 0 → f ≠ 4 → rdB Reg.LPW.LSTAT.PWARN s = false → rdB (Reg.LPW.PSTAT.FARSRC f) s = false →
            rdB Reg.LPW.LSTAT.UVLO s = false → ∃ u, exec (.efuseCtl o body) s = .next (reply o ST_OK (efStat u f) u) ∧ efState u f = 2 ∧
              (efuse u f).onReq = true)) ∧
        (field body 1 1 = 2 → efState s f = 5 → ∀ t0, (efuse s f).offAt = some t0 → s.now < t0 + offMin s →
          ∃ u, exec (.efuseCtl o body) s = .next (reply o ST_OK (efStat u f) u) ∧ efState u f = 1) ∧
        (field body 1 1 = 3 →
          (vShort s ≤ (efuse s f).vout → exec (.efuseCtl o body) s = .next (reply o ST_BUSY [] (dispatch o s))) ∧
          (∀ t0, (efuse s f).vout < vShort s → efState s f = 6 → (efuse s f).offAt = some t0 → s.now < t0 + offMin s →
            ∃ u, exec (.efuseCtl o body) s = .next (reply o ST_OK (efStat u f) u) ∧ efState u f = 1))) ∧
      (body.length = 4 → zeroAt body 1 3 = true →
        exec (.efuseStatus o body) s = .next (reply o ST_OK (efStat s f ++ beBytes 2 (efuse s f).vout ++ ([0, 0] : List Byte) ++
          beBytes 4 (match (efuse s f).offAt with | none => 2 ^ 32 - 1 | some t => min (2 ^ 32 - 1) ((s.now - t) / 1000000))) (dispatch o s))) ∧
      (body.length = 36 → zeroAt body 2 2 = true → ∀ l, l = (List.range 8).map (fun k => BitVec.ofNat 32 (field body (4 + 4 * k) 4)) →
        (field body 1 1 = 0 → curveOk f l = false → exec (.efuseCurve o body) s = .next (reply o ST_BAD_PARAM [] (dispatch o s))) ∧
        (field body 1 1 = 0 → curveOk f l = true → ∃ u, exec (.efuseCurve o body) s =
          .next (reply o ST_OK (l.map fun w => beBytes 4 w.toNat).flatten u) ∧ efuse u f = { efuse s f with curve := l } ∧ Only [.efuses, .cmd] s u) ∧
        (field body 1 1 = 1 → exec (.efuseCurve o body) s =
          .next (reply o ST_OK ((efuse s f).curve.map fun w => beBytes 4 w.toNat).flatten (dispatch o s)))) ∧
      (f < 4 → body.length = 4 → zeroAt body 1 3 = true →
        (efState s f ≠ 0 ∨ rdB Reg.LPW.LSTAT.PWARN s = true ∨ rdB (Reg.LPW.PSTAT.FARSRC f) s = true →
          exec (.segQualify o body) s = .next (reply o ST_BUSY [] (dispatch o s))) ∧
        (efState s f = 0 → rdB Reg.LPW.LSTAT.PWARN s = false → rdB (Reg.LPW.PSTAT.FARSRC f) s = false →
          ∃ t, exec (.segQualify o body) s = .next t ∧ efState t f = 2 ∧ (efuse t f).seg = some o))))

/-- LD_SLEEP_ENTRY with a condition failing changes nothing; with none failing the LD is in NAP or STANDBY by ALLOW_NAP, the Deep Comb in
self-refresh, line time held. A wake that is armed starts the fast clocks and notes its reason; their end gives the state left. XT32_FAIL
sets XTFAIL. WREASON is read and cleared. WAKE_CFG sets one wake source and answers the reason, or ST_BAD_PARAM. Readings: log 32. Rules:
R244, R245, R415, R416, R417, R418, R422, R423, R432, R433. -/
def Obligations.TheNurseSleepsAndWakes : Prop :=
  ∀ s : State,
    (∀ cs, s.supplyHold = true ∨ ldSleeps s = true ∨ cs = true ∨ rdB Reg.NRS.CLKCTL.ALLOW_SBY s = false ∨
        (∃ n : LPort, rdB (Reg.HLP.CFG.EN n) s = true ∧ lstate s n ≠ DORMANT) ∨ combHolds s = true ∨ s.cmd.flights ≠ [] ∨
        rdB Reg.NRS.STAT.XTFAIL s = true → exec (.ldSleepEntry cs) s = .next s) ∧
    (s.supplyHold = false → ldSleeps s = false → sleepBlock s = 0 → ∃ t, exec (.ldSleepEntry false) s = .next t ∧
      ldst t = (if rdB Reg.NRS.CLKCTL.ALLOW_NAP s && s.stepB0 then 2 else 1) ∧ rd Reg.DCM.SR.STATE t = 2 ∧ t.nurse.left = ldst s ∧ t.nurse.wake = none ∧
      t.lt = s.lt ∧ (rd Reg.TIM.STAT.QSTATE s = 0 → rd Reg.TIM.STAT.QSTATE t = 0) ∧
      (rd Reg.TIM.STAT.QSTATE s ≠ 0 → rd Reg.TIM.STAT.QSTATE t = 4 ∧ Raised srcTIME_HOLD s t)) ∧
    (∀ (kind : Fin 5) (idx : Fin 32) (i : Nat), i = (if kind.val < 3 then idx.val else 0) →
      (ldSleeps s = true → s.nurse.wake = none → wakeGood s kind i = true → ∃ t, exec (.ldWake kind idx) s = .next t ∧
        t.nurse.wake = some (kind.val, i) ∧ ldst t = ldst s ∧ (kind = 0 → Raised (rd (Reg.NRS.WSEL.SRC i) s) s t) ∧
        (kind = 1 → Raised (srcSD i) s t) ∧
        (rdB Reg.NRS.WREASON.V s = false → rd Reg.NRS.WREASON.V t = 1 ∧ rd Reg.NRS.WREASON.KIND t = kind ∧ rd Reg.NRS.WREASON.INDEX t = i) ∧
        (rdB Reg.NRS.WREASON.V s = true → t.regs = s.regs)) ∧
      (ldSleeps s = false ∨ s.nurse.wake ≠ none ∨ wakeGood s kind i = false → exec (.ldWake kind idx) s = .next s)) ∧
    (∀ k i, ldSleeps s = true → s.nurse.wake = some (k, i) → s.nurse.left < 4 → ∃ t, exec .fastClockStartDone s = .next t ∧
      ldst t = s.nurse.left ∧ t.nurse.wake = none ∧ (rd Reg.TIM.STAT.QSTATE s = 4 → rd Reg.TIM.STAT.QSTATE t = (if isHead s && ownAddr s == 1 then 5 else 3))) ∧
    (ldSleeps s = false ∨ s.nurse.wake = none → exec .fastClockStartDone s = .next s) ∧
    (s.supplyHold = false → ∃ t, exec .xt32Fail s = .next t ∧ rd Reg.NRS.STAT.XTOK t = 0 ∧ rd Reg.NRS.STAT.XTFAIL t = 1 ∧ Raised srcXT32_FAIL s t ∧
      RegsBut [Reg.NRS.STAT.XTOK.addr] s t) ∧
    (∀ r, ∃ t, exec (.nrsWreasonRead r) s = .next t ∧ t.lastRead = regGet s Reg.NRS.WREASON.word.addr ∧ regGet t Reg.NRS.WREASON.word.addr = 0 ∧
      RegsBut [Reg.NRS.WREASON.word.addr] s t ∧ Only [.regs, .lastRead] s t) ∧
    (∀ (o : Origin) (body : List Byte) (k n : Nat), mayDispatch s o = true → body.length = 4 → field body 0 1 = k → field body 2 2 = n →
      (32 ≤ k ∨ 1 < field body 1 1 ∨ 512 ≤ n → exec (.wakeCfg o body) s = .next (reply o ST_BAD_PARAM [] (dispatch o s))) ∧
      (k < 32 → field body 1 1 ≤ 1 → n < 512 → ∃ u, exec (.wakeCfg o body) s =
        .next (reply o ST_OK (beBytes 4 (regGet s Reg.NRS.WREASON.word.addr).toNat) u) ∧ rd (Reg.NRS.WSEL.SRC k) u = n ∧
          bit k (rd Reg.NRS.WEN.EN u) = (field body 1 1 == 1) ∧ ∀ j, j < 32 → j ≠ k → bit j (rd Reg.NRS.WEN.EN u) = bit j (rd Reg.NRS.WEN.EN s)))

/-- For every source and state: a firing of an IDLE source gives PENDING, of an ACTIVE one (that is not re-sampled at completion, R430)
ACTIVE_AND_PENDING; in the other two states, and where the source's die or domain is off, nothing changes. INT.PENDg reads 1 exactly for
PENDING and ACTIVE_AND_PENDING. Writing 1 to a PEND bit makes PENDING IDLE and ACTIVE_AND_PENDING ACTIVE; no other source changes. Rules:
R425. -/
def Obligations.SourcesLatchTheirEvents : Prop :=
  (∀ (n : Fin 512) (s : State),
    (srcAlive s n = false ∨ srcSt s n = .pending ∨ srcSt s n = .activeAndPending → exec (.interruptSourceFire n) s = .next s) ∧
    (srcAlive s n = true →
      (srcSt s n = .idle → ∃ t, exec (.interruptSourceFire n) s = .next t ∧ srcSt t n = .pending ∧ SrcsBut [n.val] s t ∧ Only [.srcs] s t) ∧
      (srcSt s n = .active → resampled s n = false → ∃ t, exec (.interruptSourceFire n) s = .next t ∧ srcSt t n = .activeAndPending ∧
        SrcsBut [n.val] s t ∧ Only [.srcs] s t))) ∧
  (∀ (g : Fin 16) (s : State),
    (∀ (r : EntryPoint) (i : Nat), i < 32 → bit i (readReg r (Reg.INT.PEND.word g).addr s).1.toNat =
      (srcSt s (32 * g + i) == .pending || srcSt s (32 * g + i) == .activeAndPending)) ∧
    (∀ mask : Word, ∃ t, exec (.intPendWrite g mask) s = .next t ∧ Only [.srcs] s t ∧ ∀ n,
      (n / 32 ≠ g.val ∨ bit (n % 32) mask.toNat = false → srcSt t n = srcSt s n) ∧
      (n / 32 = g.val → bit (n % 32) mask.toNat = true →
        (srcSt s n = .pending → srcSt t n = .idle) ∧ (srcSt s n = .activeAndPending → srcSt t n = .active) ∧
        (srcSt s n = .idle → srcSt t n = .idle) ∧ (srcSt s n = .active → srcSt t n = .active))))

/-- INTERRUPT_DELIVERY of a group with no enabled PENDING source, no target or the hold-off running, or while the LD sleeps, changes nothing.
Otherwise exactly its enabled PENDING sources become ACTIVE (with AUTO they are completed), an EVT frame goes to T2, a record to T3 (LOST
when full), the hold-off starts. INT_DONE makes ACTIVE IDLE and ACTIVE_AND_PENDING PENDING, or by the level where re-sampled, in that group
only. Rules: R423, R426, R429. -/
def Obligations.InterruptsAreDeliveredAndCompleted : Prop :=
  ∀ (g : Fin 16) (s : State),
    (ldSleeps s = true ∨ dueMask s g = 0 ∨ rd (Reg.INT.TGT.TMASK g) s = 0 ∨ holdOver s g = false → exec (.interruptDelivery g) s = .next s) ∧
    (∀ m, ldSleeps s = false → dueMask s g = m → m ≠ 0 → rd (Reg.INT.TGT.TMASK g) s ≠ 0 → holdOver s g = true → ∃ t, exec (.interruptDelivery g) s = .next t ∧
      (∀ n, n / 32 ≠ g.val ∨ (rdB (Reg.INT.TGT.AUTO g) s = false ∧ bit (n % 32) m = false) → srcSt t n = srcSt s n) ∧
      (rdB (Reg.INT.TGT.AUTO g) s = false → ∀ n, n / 32 = g.val → bit (n % 32) m = true → srcSt s n = .pending ∧ srcSt t n = .active) ∧
      (rdB (Reg.INT.TGT.AUTO g) s = true → ∀ n, n / 32 = g.val → bit (n % 32) m = true → resampled s n = false → srcSt t n = .idle) ∧
      (bit 2 (rd (Reg.INT.TGT.TMASK g) s) = true → swOff s = false →
        Sends (rd (Reg.INT.TGT.EVDST g) s) 0 6 2 false (irqRecord s g m (rdB (Reg.INT.TGT.AUTO g) s) false) s t) ∧
      (bit 2 (rd (Reg.INT.TGT.TMASK g) s) = false ∨ swOff s = true → t.comb = s.comb) ∧
      (bit 3 (rd (Reg.INT.TGT.TMASK g) s) = true → rd Reg.SVC.STAT.BSTATE s ≠ 0 →
        (s.svcDev.ep3.length < 16 → t.svcDev.ep3 = s.svcDev.ep3 ++ [irqRecord s g m (rdB (Reg.INT.TGT.AUTO g) s) s.svcDev.ep3Lost] ∧
          t.svcDev.ep3Lost = false) ∧
        (16 ≤ s.svcDev.ep3.length → t.svcDev = { s.svcDev with ep3Lost := true })) ∧
      (bit 4 (rd (Reg.INT.TGT.TMASK g) s) = false → t.hostIf = s.hostIf) ∧ holdOver t g = decide (rd (Reg.INT.HOLD.HOLD g) s = 0)) ∧
    (∃ t, exec (.intDoneWrite g) s = .next t ∧ Only [.srcs] s t ∧ ∀ n, (n / 32 ≠ g.val → srcSt t n = srcSt s n) ∧
      (n / 32 = g.val →
        (srcSt s n = .idle → srcSt t n = .idle) ∧ (srcSt s n = .pending → srcSt t n = .pending) ∧
        (srcSt s n = .active → resampled s n = false ∨ rawLevel s n = some false → srcSt t n = .idle) ∧
        (srcSt s n = .active → resampled s n = true → rawLevel s n = some true → srcSt t n = .pending) ∧
        (srcSt s n = .activeAndPending → resampled s n = false ∨ rawLevel s n = some true → srcSt t n = .pending) ∧
        (srcSt s n = .activeAndPending → resampled s n = true → rawLevel s n = some false → srcSt t n = .idle)))

/-- A tier fall in dead-battery mode switches the switch domain off. Self-refresh is entered only when enabled, up, unwanted, not held and
tolerated, and left in two steps. RGN_APPLY takes good regions of a quiesced Deep Comb, else RGNERR. PSTATE_SET turns a quiesced die off, an
off die on, the switch domain off when all is off and on again when power allows, or answers ST_BUSY_IN_SERVICE, ST_DENIED, ST_NO_DIE or
ST_BAD_PARAM. Rules: R298, R322, R420, R422, R432. -/
def Obligations.PowerStatesAndSelfRefresh : Prop :=
  ∀ s : State,
    (rdB Reg.SVC.PDSTAT.DB s = true → (rdB Reg.SVC.PDSTAT.PDC s && svcTier (rd Reg.SVC.PDSTAT.VSEL s) (rd Reg.SVC.PDSTAT.IOP s)) = false →
      swOff s = false → ∃ t, exec .tierFall s = .next t ∧ swOff t = true ∧ ldst t = 3 ∧ rd Reg.SVC.PDSTAT.TIER t = 0 ∧
        Raised srcSVCPOWER s t ∧ ∀ n : LPort, lstate t n = DISABLED) ∧
    (rdB Reg.SVC.PDSTAT.DB s = false ∨ swOff s = true ∨
        (rdB Reg.SVC.PDSTAT.PDC s && svcTier (rd Reg.SVC.PDSTAT.VSEL s) (rd Reg.SVC.PDSTAT.IOP s)) = true → exec .tierFall s = .next s) ∧
    (rdB Reg.DCM.SR.EN s = true → rd Reg.DCM.SR.STATE s = 0 → s1Up s = true → dcmWanted s = false → holdp s = false → srLimit s < ltol s →
      ∃ t, exec .selfRefreshEntry s = .next t ∧ rd Reg.DCM.SR.STATE t = 2 ∧ Only [.regs] s t ∧ RegsBut [Reg.DCM.SR.STATE.addr] s t) ∧
    (rdB Reg.DCM.SR.EN s = false ∨ rd Reg.DCM.SR.STATE s ≠ 0 ∨ s1Up s = false ∨ dcmWanted s = true ∨ holdp s = true ∨ ltol s ≤ srLimit s →
      exec .selfRefreshEntry s = .next s) ∧
    (rd Reg.DCM.SR.STATE s = 2 → ldSleeps s = false → ∃ t, exec .selfRefreshExit s = .next t ∧ rd Reg.DCM.SR.STATE t = 3 ∧
      RegsBut [Reg.DCM.SR.STATE.addr] s t ∧ Only [.regs] s t) ∧
    (rd Reg.DCM.SR.STATE s ≠ 2 ∨ ldSleeps s = true → exec .selfRefreshExit s = .next s) ∧
    (rd Reg.DCM.SR.STATE s = 3 → ∃ t, exec .selfRefreshExitDone s = .next t ∧ rd Reg.DCM.SR.STATE t = 0 ∧
      RegsBut [Reg.DCM.SR.STATE.addr] s t ∧ Only [.regs] s t) ∧
    (rd Reg.DCM.SR.STATE s ≠ 3 → exec .selfRefreshExitDone s = .next s) ∧
    (accStat s Reg.DCM.CFG.word.addr = ST_OK → ∀ l, l = (List.range 5).map (fun k => rd (Reg.DCM.RGN.START k) s) →
      (domSt s 0x11 ≠ .quiesced → exec .dcmRgnApply s = .next s) ∧
      (domSt s 0x11 = .quiesced → regionsOk l = true → ∃ t, exec .dcmRgnApply s = .next t ∧ Only [.regs] s t ∧
        ∀ k, k < 5 → rd (Reg.DCM.RGN.CUR k) t = l.getD k 0) ∧
      (domSt s 0x11 = .quiesced → regionsOk l = false → ∃ t, exec .dcmRgnApply s = .next t ∧ rd Reg.DCM.STAT.RGNERR t = 1 ∧ Only [.regs] s t ∧
        RegsBut [Reg.DCM.STAT.RGNERR.addr] s t)) ∧
    (∀ (o : Origin) (body : List Byte) (d : Nat), mayDispatch s o = true → body.length = 4 → field body 0 1 = d → zeroAt body 2 2 = true →
      (d < 0x12 ∨ (0x17 < d ∧ d ≠ 0x20) ∨ 1 < field body 1 1 → exec (.pstateSet o body) s = .next (reply o ST_BAD_PARAM [] (dispatch o s))) ∧
      (0x12 ≤ d → d ≤ 0x17 → field body 1 1 ≤ 1 →
        (present s (d - 0x10) = false → exec (.pstateSet o body) s = .next (reply o ST_NO_DIE [] (dispatch o s))) ∧
        (present s (d - 0x10) = true →
          (field body 1 1 = 1 → beingActivated s d = false → domSt s d ≠ .off → domSt s d ≠ .quiesced →
            exec (.pstateSet o body) s = .next (reply o ST_BUSY_IN_SERVICE [] (dispatch o s))) ∧
          (field body 1 1 = 1 → beingActivated s d = false → domSt s d = .quiesced → ∃ u, exec (.pstateSet o body) s =
            .next (reply o ST_OK (beBytes 4 (pstateWord u).toNat) u) ∧ domSt u d = .off) ∧
          (field body 1 1 = 0 → domSt s d = .off → ∃ u, exec (.pstateSet o body) s =
            .next (reply o ST_OK (beBytes 4 (pstateWord u).toNat) u) ∧ domSt u d = .quiesced))) ∧
      (d = 0x20 → field body 1 1 = 1 → swOff s = false →
        ((∃ n : LPort, rdB (Reg.HLP.CFG.EN n) s = true) ∨ (∃ k ∈ presentDies s, domSt s (0x10 + k) ≠ .off) →
          exec (.pstateSet o body) s = .next (reply o ST_BUSY_IN_SERVICE [] (dispatch o s))) ∧
        ((∀ n : LPort, rdB (Reg.HLP.CFG.EN n) s = false) → (∀ k ∈ presentDies s, domSt s (0x10 + k) = .off) → ∃ u,
          exec (.pstateSet o body) s = .next (reply o ST_OK (beBytes 4 (pstateWord u).toNat) u) ∧ swOff u = true ∧ ldst u = 3)) ∧
      (d = 0x20 → field body 1 1 = 0 → swOff s = true → rdB Reg.SVC.PDSTAT.DB s = true → rdB Reg.SVC.PDSTAT.TIER s = false →
        exec (.pstateSet o body) s = .next (reply o ST_DENIED [] (dispatch o s))) ∧
      (d = 0x20 → field body 1 1 = 0 → swOff s = true → rdB Reg.SVC.PDSTAT.DB s = false → s.img.part = false → ∃ u,
        exec (.pstateSet o body) s = .next (reply o ST_OK (beBytes 4 (pstateWord u).toNat) u) ∧ swOff u = false ∧ ldst u = 0))

/-- SUPPLY_FAIL, and a reset while the supply is held, give the reset state with the variant, stepping, NOR, OTP, queue and the model's clock
and free count kept. A power-on reset or the end of the hold samples the straps by majority and begins from reset; RESET_N does so and keeps
the eFuses but for a SEG_QUALIFY, what VBUS and PWRWARN_N do at the TU ports, and the dead-battery status. What RESET_N under a hold does is
the model's reading (log 38). Rules: R434, R436, R490. -/
def Obligations.ResetsBeginAgain : Prop :=
  ∀ (a b c : BitVec 3) (v : Nat) (s : State), v = ((a &&& b) ||| (a &&& c) ||| (b &&& c)).toNat →
    (∀ i, i = .supplyFail ∨ ((i = .powerOnReset a b c ∨ i = .resetN a b c) ∧ s.supplyHold = true) → exec i s = .next
      { State.reset with
        variant := s.variant
        stepB0 := s.stepB0
        now := s.now
        free := s.free
        nor := s.nor
        otp := s.otp
        pending := s.pending
        supplyHold := true }) ∧
    (s.supplyHold = false → exec (.supplyHoldEnd a b c) s = .next s) ∧
    (∀ i, (i = .powerOnReset a b c ∧ s.supplyHold = false) ∨ (i = .supplyHoldEnd a b c ∧ s.supplyHold = true) →
      ∃ t, exec i s = .next t ∧ t.supplyHold = false ∧ t.nor = s.nor ∧ t.otp = s.otp ∧ t.lt = State.reset.lt ∧ t.cmd = State.reset.cmd ∧
        t.comb = State.reset.comb ∧ t.ports = State.reset.ports ∧ t.domains = State.reset.domains ∧ t.img = State.reset.img ∧
        t.nurse = State.reset.nurse ∧ t.efuses = State.reset.efuses ∧ rd Reg.GLB.STRAP.ROLE_PIN t = v % 4 ∧ rd Reg.GLB.STRAP.COMPAT_LH4 t = v / 4 ∧
        (v % 4 = 0 ∨ v % 4 = 2 ∨ (v % 4 = 1 ∧ present s 4 = true) → rd Reg.GLB.STRAP.ROLE t = v % 4 ∧ t.srcs = State.reset.srcs) ∧
        (v % 4 = 3 ∨ (v % 4 = 1 ∧ present s 4 = false) → rd Reg.GLB.STRAP.ROLE t = 0 ∧ rd Reg.GLB.STAT.STRAP_ERR t = 1 ∧
          srcSt t srcSTRAP_ERR = .pending) ∧
        (v / 4 = 1 → ∀ n : LPort, rd (Reg.HLP.CFG.MODE n) t = 2)) ∧
    (s.supplyHold = false → ∃ t, exec (.resetN a b c) s = .next t ∧ t.nor = s.nor ∧ t.otp = s.otp ∧ t.cmd = State.reset.cmd ∧
      t.comb = State.reset.comb ∧ (∀ f, f < 5 → efuse t f = { efuse s f with seg := none }) ∧
      (∀ p, p < 8 → tcp t p = coldPort s (tcp s p)) ∧ t.img = State.reset.img ∧ rd Reg.SVC.PDSTAT.DB t = rd Reg.SVC.PDSTAT.DB s ∧
      rd Reg.GLB.STRAP.ROLE_PIN t = v % 4 ∧ (∀ d, domSt s d = .off → domSt t d = .off) ∧
      (ldSleeps s = false → ∀ k, nurseReg k = true → regGet t k = regGet s k) ∧
      (ldSleeps s = true → s.nurse.left < 4 → ldst t = s.nurse.left) ∧
      (rd Reg.TIM.STAT.QSTATE s = 0 → rd Reg.TIM.STAT.QSTATE t = 0 ∧ t.lt = State.reset.lt) ∧
      (rd Reg.TIM.STAT.QSTATE s ≠ 0 → rd Reg.TIM.STAT.QSTATE t = 4 ∧ t.lt = s.lt) ∧
      (rdB Reg.LPW.LSTAT.UVLO s = true → srcSt t srcLP_UVLO = .pending))

/-- BOOT_SEAL_VERIFIED with a bad seal or a small flash goes to recovery with the service port connected; with no valid slot to recovery; with a
valid one the image is applied and the dies are RETURNING. BOOTED comes when no die is RETURNING. Dead-battery start, board power and VBUS
loss act as the rules give. NOR and OTP stay except for what the rule writes. Readings: logs 37 and 38. Rules: R322, R323, R420, R438, R446,
R447, R449, R452, R459, R490. -/
def Obligations.TheNodeBoots : Prop :=
  ∀ (a b c : BitVec 3) (s : State),
    (s.supplyHold = true ∨ s.img.stage ≠ 0 → ∀ ok size, exec (.bootSealVerified ok size) s = .next s) ∧
    (s.supplyHold = false → s.img.stage = 0 → ∀ (ok : Bool) (size : BitVec 8),
      (ok = false ∨ size.toNat < 26 → ∃ t, exec (.bootSealVerified ok size) s = .next t ∧ t.img.stage = 3 ∧
        rd Reg.IMG.QSPI.SFDPERR t = 1 ∧ rd Reg.SVC.CTRL.CONNECT t = 1 ∧ t.nor = s.nor ∧
        (swOff s = false → s1Up t = true ∧ rd Reg.DCM.STAT.TRAINED t = 1)) ∧
      (ok = true → 26 ≤ size.toNat → (bootNow s).trial ≠ 1 →
        (bootSlot s = none → ∃ t, exec (.bootSealVerified ok size) s = .next t ∧ t.img.stage = 3 ∧ rd Reg.IMG.QSPI.READY t = 1 ∧
          rd Reg.IMG.QSPI.SIZE t = size.toNat ∧ t.nor = s.nor) ∧
        (∀ k f, bootSlot s = some (k, f) → ∃ t, exec (.bootSealVerified ok size) s = .next t ∧ t.img.stage = 1 ∧ t.nor = s.nor ∧
          t.img.part = swOff s ∧ (swOff s = false → ∀ d ∈ presentDies s, domSt s (0x10 + d) ≠ .off → domSt t (0x10 + d) = .returning)))) ∧
    (s.img.stage ≠ 1 ∨ (∃ d ∈ presentDies s, domSt s (0x10 + d) = .returning) → exec .booted s = .next s) ∧
    (s.img.stage = 1 → (∀ d ∈ presentDies s, domSt s (0x10 + d) ≠ .returning) → ∃ t, exec .booted s = .next t ∧ t.img.stage = 2 ∧
      (s.img.part = false → rd Reg.GLB.STAT.BOOTED t = 1) ∧ (s.img.dirty = false → t.nor = s.nor) ∧
      (s.img.reverted = true → t.img.reverted = false ∧ Raised srcIMG_REVERTED s t)) ∧
    (∃ t, exec (.deadBatteryStart a b c) s = .next t ∧ rd Reg.SVC.PDSTAT.DB t = 1 ∧ svcAttached t = true ∧ swOff t = true ∧ ldst t = 3 ∧
      t.nor = s.nor ∧ t.otp = s.otp ∧ (∀ d ∈ presentDies s, domSt t (0x10 + d) = .off) ∧ t.cmd = State.reset.cmd ∧ t.img = State.reset.img) ∧
    (∃ t, exec .boardPowerValid s = .next t ∧ rd Reg.SVC.PDSTAT.DB t = 0 ∧ RegsBut [Reg.SVC.PDSTAT.DB.addr] s t ∧ Only [.regs] s t) ∧
    (rdB Reg.SVC.PDSTAT.DB s = true → exec .svcVbusLoss s = exec .supplyFail s) ∧
    (rdB Reg.SVC.PDSTAT.DB s = false → svcAttached s = false → exec .svcVbusLoss s = .next s) ∧
    (rdB Reg.SVC.PDSTAT.DB s = false → svcAttached s = true → ∃ t, exec .svcVbusLoss s = .next t ∧ svcAttached t = false ∧
      rd Reg.SVC.PDSTAT.RPSEEN t = 0 ∧ rd Reg.SVC.PDSTAT.PDC t = 0 ∧ rd Reg.SVC.PDSTAT.TIER t = 0 ∧ bstate t = 0 ∧
      Raised srcSVCVBUS s t ∧ Raised srcSVCDETACH s t)

/-- IMG_WRITE of one good block writes its 4096 bytes into the idle slot and answers 1, a bad block ST_SEAL_FAIL; the EP4 form opens a transfer
whose blocks are written one by one to its end. IMG_DELTA needs a good header, appends runs to the patch and ends ST_OK exactly when all is
out. STAGE_WRITE stores into the staging region, waiting until the Deep Comb serves it, or ends it. Each is ST_BUSY while image work runs,
ST_BAD_PARAM out of range. Readings: log 37. Rules: R47, R48, R350, R453, R454, R461. -/
def Obligations.ImageBlocksAndPatchesAreWritten : Prop :=
  (∀ (o : Origin) (body : List Byte) (b : Nat) (s : State), mayDispatch s o = true → field body 0 4 = b →
    (body.length = 4104 → field body 4 2 = 1 → field body 6 1 = 0 → zeroAt body 7 1 = true → b + 1 ≤ 6144 →
      (imgHeld s = true → exec (.imgWrite o body) s = .next (imgReply o ST_BUSY [] (dispatch o s))) ∧
      (imgHeld s = false → blockGood (body.drop 8) = true → ∃ u, exec (.imgWrite o body) s = .next (imgReply o ST_OK [0, 1, 0, 0] u) ∧
        norReads u (imgBase (idleSlot s) + 4096 * b) 4096 = body.drop 8 ∧ u.deep = s.deep ∧ u.img = s.img) ∧
      (imgHeld s = false → blockGood (body.drop 8) = false → exec (.imgWrite o body) s =
        .next (imgReply o ST_SEAL_FAIL [0, 0, 0, 0] (dispatch o s)))) ∧
    (body.length = 8 → field body 6 1 = 1 → zeroAt body 7 1 = true → 1 ≤ field body 4 2 → b + field body 4 2 ≤ 6144 →
      (o.ep ≠ .svc → exec (.imgWrite o body) s = .next (imgReply o ST_DENIED [] (dispatch o s))) ∧
      (o.ep = .svc → imgHeld s = true ∨ s.img.ep4.isSome = true → exec (.imgWrite o body) s = .next (imgReply o ST_BUSY [] (dispatch o s))) ∧
      (o.ep = .svc → imgHeld s = false → s.img.ep4 = none → ∃ t, exec (.imgWrite o body) s = .next t ∧
        t.img = { s.img with ep4 := some (o, b, field body 4 2, 0) } ∧ t.nor = s.nor))) ∧
  (∀ (block : List Byte) (s : State), (s.img.ep4 = none ∨ block.length ≠ 4096 → exec (.ep4BlockReceive block) s = .next s) ∧
    (∀ o b n k, s.img.ep4 = some (o, b, n, k) → block.length = 4096 →
      (blockGood block = false → ∃ u, exec (.ep4BlockReceive block) s = .next (imgReply o ST_SEAL_FAIL (beBytes 2 k ++ [0, 0]) u) ∧
        u.img = { s.img with ep4 := none } ∧ u.nor = s.nor) ∧
      (blockGood block = true → n = 1 → ∃ u, exec (.ep4BlockReceive block) s = .next (imgReply o ST_OK (beBytes 2 (k + 1) ++ [0, 0]) u) ∧
        u.img = { s.img with ep4 := none } ∧ norReads u (imgBase (idleSlot s) + 4096 * b) 4096 = block) ∧
      (blockGood block = true → 1 < n → ∃ t, exec (.ep4BlockReceive block) s = .next t ∧
        t.img = { s.img with ep4 := some (o, b + 1, n - 1, k + 1) } ∧ norReads t (imgBase (idleSlot s) + 4096 * b) 4096 = block))) ∧
  (∀ (o : Origin) (body : List Byte) (s : State), mayDispatch s o = true →
    (field body 0 1 = 0 → zeroAt body 2 2 = true → 4 ≤ body.length →
      (field body 1 1 ≤ 3 → imgHeld s = true → exec (.imgDelta o body) s = .next (imgReply o ST_BUSY [] (dispatch o s))) ∧
      (imgHeld s = false → field body 1 1 = 1 → body.length = 36 → ∀ n, patchHeader s (body.drop 4) = some n →
        ∃ u, exec (.imgDelta o body) s = .next (imgReply o ST_OK [0, 0, 0, 0] u) ∧ u.img.patch = some ⟨n, 0, []⟩) ∧
      (imgHeld s = false → field body 1 1 ≤ 3 → bit 0 (field body 1 1) = false → s.img.patch = none →
        ∃ u, exec (.imgDelta o body) s = .next (imgReply o ST_BAD_PARAM [0, 0, 0, 0] u) ∧ u.img = s.img ∧ u.nor = s.nor) ∧
      (∀ p n, imgHeld s = false → s.img.patch = some p → field body 1 1 = 0 → body.length = 16 → field body 4 1 = 3 → zeroAt body 5 3 = true →
        zeroAt body 13 3 = true → field body 8 4 = n → p.out + n ≤ p.nblk * 4096 → p.block.length + n < 4096 →
        ∃ u, exec (.imgDelta o body) s = .next (imgReply o ST_OK (beBytes 4 n) u) ∧ u.nor = s.nor ∧
          u.img.patch = some ⟨p.nblk, p.out + n, p.block ++ List.replicate n (BitVec.ofNat 8 (field body 12 1))⟩) ∧
      (∀ p, imgHeld s = false → s.img.patch = some p → field body 1 1 = 2 → body.length = 4 →
        ∃ u, exec (.imgDelta o body) s = .next (imgReply o (if p.out = p.nblk * 4096 then ST_OK else ST_BAD_PARAM) [0, 0, 0, 0] u) ∧
          u.img.patch = none ∧ Raised srcIMG_DONE s u)) ∧
    (∀ off n, body.length = 8 + n → field body 0 4 = off → field body 4 2 = n → zeroAt body 6 2 = true →
      (8184 < n ∨ stagingSize s < off + n → exec (.stageWrite o body) s = .next (imgReply o ST_BAD_PARAM [] (dispatch o s))) ∧
      (n ≤ 8184 → off + n ≤ stagingSize s →
        (s1Up s = false → exec (.stageWrite o body) s = .next (imgReply o ST_BUSY_IN_SERVICE [] (dispatch o s))) ∧
        (s1Up s = true → n ≠ 0 → dcmServes s 7 = false → exec (.stageWrite o body) s = .next (dispatch o s)) ∧
        (dcmServes s 7 = true → n ≠ 0 → ∃ u, exec (.stageWrite o body) s = .next (imgReply o ST_OK [] u) ∧ rd Reg.IMG.STAT.STAGED u = 1 ∧
          deepReads u (stagingBase s + off) n = body.drop 8) ∧
        (s1Up s = true → n = 0 → ∃ u, exec (.stageWrite o body) s = .next (imgReply o ST_OK [] u) ∧ rd Reg.IMG.STAT.STAGED u = 0 ∧
          u.deep = s.deep))))

/-- IMG_LOCK sets LOCKED; IMG_INFO answers the slot's state and header; IMG_VERIFY waits for its check and marks the slot; SET_READ answers a
setting, field 1 is denied; SET_WRITE waits for its program, which changes that setting only; a failed program counts WERR and is tried
again; a commit that is written ends the trial. LOADLOG and QSPI reads show and clear their counts. Readings: log 37. Rules: R440, R451,
R455, R460, R461, R462, R463. -/
def Obligations.ImagesAndSettingsAreKept : Prop :=
  (∀ (o : Origin) (body : List Byte) (s : State), mayDispatch s o = true →
    (body.length = 0 → ∃ u, exec (.imgLock o body) s = .next (imgReply o ST_OK [] u) ∧ rd Reg.GLB.STAT.LOCKED u = 1 ∧
      RegsBut [Reg.GLB.STAT.LOCKED.addr] s u) ∧
    (∀ k, body.length = 4 → field body 0 1 = k → zeroAt body 1 3 = true →
      (2 < k → exec (.imgInfo o body) s = .next (imgReply o ST_BAD_PARAM [] (dispatch o s))) ∧
      (k < 2 → exec (.imgInfo o body) s = .next (imgReply o ST_OK (beBytes 1 ((bootNow s).st k) ++ slotInfo s k) (dispatch o s))) ∧
      (k = 2 → runsSlot s 0 = none → exec (.imgInfo o body) s = .next (imgReply o ST_OK (List.replicate 8 0) (dispatch o s))) ∧
      (1 < k → exec (.imgVerify o body) s = .next (imgReply o ST_BAD_PARAM [] (dispatch o s))) ∧
      (k ≤ 1 → s.img.stage < 2 ∨ s.img.verify.isSome = true ∨ s.img.act.isSome = true →
        exec (.imgVerify o body) s = .next (imgReply o ST_BUSY [] (dispatch o s))) ∧
      (k ≤ 1 → 2 ≤ s.img.stage → s.img.verify = none → s.img.act = none →
        ∃ t, exec (.imgVerify o body) s = .next t ∧ t.img = { s.img with verify := some (o, k) })) ∧
    (∀ f, body.length = 4 → field body 0 2 = f → zeroAt body 2 2 = true →
      (f = 1 → exec (.setRead o body) s = .next (imgReply o ST_DENIED [] (dispatch o s))) ∧
      (f ≠ 1 → ∀ v, v = (setting s f).getD [] →
        exec (.setRead o body) s = .next (imgReply o ST_OK (beBytes 2 v.length ++ [0, 0] ++ v) (dispatch o s)))) ∧
    (∀ f n, body.length = 4 + n → field body 0 2 = f → field body 2 2 = n →
      (f = 0 ∨ f = 0xFFFF ∨ 1024 < n → exec (.setWrite o body) s = .next (imgReply o ST_BAD_PARAM [] (dispatch o s))) ∧
      (f ≠ 0 → f ≠ 0xFFFF → n ≤ 1024 →
        (s.img.trial.isSome = true ∨ s.img.stage < 2 → exec (.setWrite o body) s = .next (imgReply o ST_BUSY [] (dispatch o s))) ∧
        (s.img.trial = none → 2 ≤ s.img.stage → ∃ t, exec (.setWrite o body) s = .next t ∧
          t.img = { s.img with jobs := s.img.jobs ++ [.set o f (body.drop 4)] } ∧ t.nor = s.nor)))) ∧
  ∀ s : State,
    (s.img.verify = none → exec .imgVerifyDone s = .next s) ∧
    (∀ o k m, s.img.verify = some (o, k) → m = (if (verifyStatus s k).1 = ST_OK then SL_VERIFIED else SL_FAILED) →
      ∃ u, exec .imgVerifyDone s = .next (imgReply o (verifyStatus s k).1 (beBytes 1 m ++ [0, 0, 0]) u) ∧ u.img.verify = none ∧
        Raised srcIMG_DONE s u) ∧
    (∀ g, s.img.jobs = [] → exec (.norWriteDone g) s = .next s) ∧
    (s.img.jobs ≠ [] → ∃ t, exec (.norWriteDone false) s = .next t ∧ t.img = s.img ∧ t.nor = s.nor ∧
      rd Reg.IMG.QSPI.WERR t = min 65535 (rd Reg.IMG.QSPI.WERR s + 1)) ∧
    (∀ o f v l, s.img.jobs = .set o f v :: l → ∃ u, exec (.norWriteDone true) s = .next (imgReply o ST_OK [] u) ∧ u.img.jobs = l ∧
      setting u f = (if v = [] then none else some v) ∧ ∀ f', f' ≠ f → setting u f' = setting s f') ∧
    (∀ o l k e, s.img.jobs = .commit o :: l → s.img.trial = some (k, e) →
      ∃ u, exec (.norWriteDone true) s = .next (imgReply o ST_OK [] u) ∧ u.img.jobs = l ∧ u.img.trial = none ∧
        rd Reg.IMG.STAT.NEWDIE u = 0 ∧ (∀ d ∈ presentDies s, runsSlot u d = some k) ∧ Raised srcIMG_DONE s u) ∧
    (∀ r : EntryPoint, accStat s Reg.IMG.LOADLOG.word.addr = ST_OK →
      (∃ t, exec (.imgLoadlogRead r) s = .next t ∧ t.lastRead = regGet s Reg.IMG.LOADLOG.word.addr ∧ rd Reg.IMG.LOADLOG.COUNT t = 0 ∧
        RegsBut [Reg.IMG.LOADLOG.word.addr] s t ∧ Only [.regs, .lastRead] s t) ∧
      (∃ t, exec (.imgQspiRead r) s = .next t ∧ Reg.IMG.QSPI.WERR.of t.lastRead = rd Reg.IMG.QSPI.WERR s ∧
        Reg.IMG.QSPI.READY.of t.lastRead = rd Reg.IMG.QSPI.READY s ∧ Reg.IMG.QSPI.SIZE.of t.lastRead = rd Reg.IMG.QSPI.SIZE s ∧
        Reg.IMG.QSPI.BUSY.of t.lastRead = ofBool (s.img.jobs != [] || rd Reg.IMG.STAT.PHASE s == 1) ∧ rd Reg.IMG.QSPI.WERR t = 0 ∧
        RegsBut [Reg.IMG.QSPI.word.addr] s t ∧ Only [.regs, .lastRead] s t))

/-- IMG_ACTIVATE of a verified, compatible slot starts the activation with all present dies and the LD to do; each die whose section resets is
quiesced, changed and returned, then the LD builds its shadows, swaps and opens the trial window; a timeout or a revert goes back over the
dies changed. Expiry or IMG_REVERT reverts, IMG_COMMIT commits once written; while a commit is pending both are busy. Readings: log 37.
Rules: R457, R458, R459, R460. -/
def Obligations.ActivationsTrialsAndReverts : Prop :=
  ((∀ (o : Origin) (body : List Byte) (k : Nat) (s : State), mayDispatch s o = true → body.length = 8 → field body 0 1 = k → k ≤ 1 →
    field body 1 1 ≤ 1 → field body 4 4 ≤ 4000000 →
    (activateHeld s = true → exec (.imgActivate o body) s = .next (imgReply o ST_BUSY [] (dispatch o s))) ∧
    (activateHeld s = false → (bootNow s).st k ≠ SL_VERIFIED → exec (.imgActivate o body) s =
      .next (imgReply o ST_SEAL_FAIL [] (dispatch o s))) ∧
    (activateHeld s = false → (bootNow s).st k = SL_VERIFIED → pathOk s k = false → exec (.imgActivate o body) s =
      .next (imgReply o ST_INCOMPAT [] (dispatch o s))) ∧
    (activateHeld s = false → (bootNow s).st k = SL_VERIFIED → pathOk s k = true → ∃ u, exec (.imgActivate o body) s = .next (goOnAll u) ∧
      u.img.act = some ⟨k, bit 0 (field body 1 1), field body 4 4, trialWindow s (field body 2 2), presentDies s ++ [0], [], none, 0, false, 0, false⟩ ∧
      u.img.old = (runsSlot s 0).getD (1 - k) ∧ u.cmd = (reply o ST_OK [] (dispatch o s)).cmd)) ∧
  ∀ (a : Activation) (s : State), s.img.act = some a →
    (∀ l, a.todo = 0 :: l → a.stop = false ∨ a.back = true → (goOnAll s).img.act = some { a with todo := l, stage := 1, cur := some 0 }) ∧
    (∀ d l, a.todo = d :: l → 2 ≤ d → d ≤ 7 → a.stop = false ∨ a.back = true → a.back = true ∨ sameVersion s d a.slot = false →
      resetsDie s d a.slot = true → domSt s (0x10 + d) = .inService →
      (goOnAll s).img.act = some { a with todo := l, cur := some d } ∧ domSt (goOnAll s) (0x10 + d) = .quiescing ∧
        (dom (goOnAll s) (0x10 + d)).force = a.force) ∧
    (a.todo = [] → a.back = true → (goOnAll s).img.act = none ∧ (goOnAll s).img.trial = none ∧ rd Reg.IMG.STAT.NEWDIE (goOnAll s) = 0 ∧
      Raised srcIMG_DONE s (goOnAll s) ∧ (a.stop = true → Raised srcIMG_REVERTED s (goOnAll s))) ∧
    (∀ d, a.cur = some d → d ≠ 0 → d < 8 → domSt s (0x10 + d) = .inService → runsSlot s d = some a.slot →
      ∃ u, exec .activationStepDone s = .next (goOnAll u) ∧ u.img.act = some { a with changed := d :: a.changed, cur := none } ∧
        bit d (rd Reg.IMG.STAT.NEWDIE u) = !a.back) ∧
    (a.cur = none ∨ a.cur = some 0 → exec .activationStepDone s = .next s ∧ exec .activationTimeout s = .next s) ∧
    (∀ d, a.cur = some d → d ≠ 0 → domSt s (0x10 + d) ≠ .quiescing → domSt s (0x10 + d) ≠ .resetting →
      domSt s (0x10 + d) ≠ .inService ∨ runsSlot s d ≠ some a.slot →
      ∃ u, exec .activationTimeout s = .next (goOnAll u) ∧ (domSt s (0x10 + d) = .returning → domSt u (0x10 + d) = .quiesced) ∧
        (a.back = false → u.img.act = some ⟨s.img.old, a.force, a.drain, a.window, a.changed, [], none, 0, true, ST_TIMEOUT, a.stop⟩) ∧
        (a.back = true → u.img.act = some { a with cur := none, err := ST_TIMEOUT })) ∧
    (a.stage = 1 → s1Up s = true → ∃ t, exec .ldShadowsCompared s = .next t ∧ t.img.act = some { a with stage := 2 } ∧ bulkPaused t = true) ∧
    (a.stage ≠ 1 ∨ s1Up s = false → exec .ldShadowsCompared s = .next s) ∧
    (a.stage ≠ 2 → exec .ldActivationResume s = .next s) ∧
    (a.stage = 2 → a.back = false → a.stop = false → ∃ t, exec .ldActivationResume s = .next t ∧ t.img.act = none ∧
      t.img.trial = some (a.slot, s.now + a.window * 1000000000) ∧ runsSlot t 0 = some a.slot ∧ bulkPaused t = false)) ∧
  (∀ (o : Origin) (s : State) (rv : Activation), rv = ⟨s.img.old, true, 0, 0, 0 :: [7, 6, 5, 4, 3, 2].filter (fun d => bit d (rd Reg.IMG.STAT.NEWDIE s)),
      [], none, 0, true, 0, true⟩ →
    (s.img.act = none → exec .activationStepDone s = .next s ∧ exec .activationTimeout s = .next s ∧ exec .ldShadowsCompared s = .next s ∧
      exec .ldActivationResume s = .next s) ∧
    (s.img.trial = none ∨ committing s = true → exec .trialExpiry s = .next s) ∧
    (s.img.trial.isSome = true → committing s = false → ∃ u, exec .trialExpiry s = .next (goOnAll u) ∧ u.img.trial = none ∧ u.img.act = some rv) ∧
    (mayDispatch s o = true →
      (s.img.trial = none → exec (.imgCommit o []) s = .next (imgReply o ST_DENIED [] (dispatch o s))) ∧
      (s.img.trial.isSome = true → committing s = true → exec (.imgCommit o []) s = .next (imgReply o ST_BUSY [] (dispatch o s))) ∧
      (s.img.trial.isSome = true → committing s = false → ∃ t, exec (.imgCommit o []) s = .next t ∧
        t.img = { s.img with jobs := s.img.jobs ++ [.commit o] } ∧ t.nor = s.nor ∧ committing t = true) ∧
      (∀ a, s.img.act = some a → ∃ t, exec (.imgRevert o []) s = .next t ∧ t.img = { s.img with act := some { a with stop := true } } ∧
        t.cmd = (reply o ST_OK [] (dispatch o s)).cmd) ∧
      (s.img.act = none → s.img.trial = none → exec (.imgRevert o []) s = .next (imgReply o ST_DENIED [] (dispatch o s))) ∧
      (s.img.act = none → s.img.trial.isSome = true → committing s = true →
        exec (.imgRevert o []) s = .next (imgReply o ST_BUSY [] (dispatch o s))) ∧
      (s.img.act = none → s.img.trial.isSome = true → committing s = false → ∃ u, exec (.imgRevert o []) s = .next (goOnAll u) ∧
        u.img.trial = none ∧ u.img.act = some rv ∧ u.cmd = (reply o ST_OK [] (dispatch o s)).cmd)))

/-- A low-word read returns the low half (all ones when SAT), snapshots the high half for its requester and clears in read-and-clear mode; a
high-word read returns the snapshot; where no counter stands both read 0. Reads of a bad or refused address read all ones and, in the
window, are logged as R5 says. CTR_CLEAR clears COUNT counters or sets the mode. EYE_MARGIN waits for its measurement on an active lane;
LOG_READ answers records in order; a log record is written to the NOR ring or counted; a temperature sample shows and alarms; LSTAT reads
clear WORST. Readings: log 40. Rules: R424, R465, R466, R475, R479, R480, R484, R485. -/
def Obligations.CountersLogsEyesAndLinks : Prop :=
  ((∀ (r : EntryPoint) (a : BitVec 32) (s : State), badAddr a.toNat = false → accStat s a.toNat = ST_OK → 0x80000 ≤ addrOff a.toNat →
    (ctrAt a.toNat = false → ∃ t, exec (.counterLowRead (.requester r) a) s = .next t ∧ exec (.counterHighRead (.requester r) a) s = .next t ∧
      t.lastRead = 0 ∧ Only [.lastRead] s t) ∧
    (a.toNat % 8 = 0 → ctrAt a.toNat = true → ∀ v, v = (if (ctrGet s a.toNat).sat then 2 ^ 64 - 1 else (ctrGet s a.toNat).v) →
      ∃ t, exec (.counterLowRead (.requester r) a) s = .next t ∧ t.lastRead = BitVec.ofNat 32 v ∧ regGet t (highSnap r) = BitVec.ofNat 32 (v / 2 ^ 32) ∧
        RegsBut [highSnap r] s t ∧ CtrsBut [a.toNat] s t ∧ Only [.regs, .ctrs, .lastRead] s t ∧
        ctrGet t a.toNat = (if Tab.get noB s.ctrRc (ctrBlock a.toNat) then ⟨0, false⟩ else ctrGet s a.toNat)) ∧
    (a.toNat % 8 = 4 → ctrAt a.toNat = true → ∃ t, exec (.counterHighRead (.requester r) a) s = .next t ∧ t.lastRead = regGet s (highSnap r) ∧ Only [.lastRead] s t)) ∧
  (∀ (r : EntryPoint) (a : BitVec 32) (s : State), badAddr a.toNat = true →
    (∃ t, exec (.counterLowRead (.requester r) a) s = .next t ∧ t.lastRead = 0xFFFFFFFF#32 ∧ t.ctrs = s.ctrs) ∧
    (∃ t, exec (.counterHighRead (.requester r) a) s = .next t ∧ t.lastRead = 0xFFFFFFFF#32 ∧ t.ctrs = s.ctrs)) ∧
  (∀ (r : EntryPoint) (a : BitVec 32) (s : State),
    (tsLives s = false → exec (.counterLowRead .window a) s = .next s ∧ exec (.counterHighRead .window a) s = .next s) ∧
    (tsLives s = true → exec (.counterLowRead .window a) s = .next (returned (barRead (a.toNat % 2 ^ 28) s)) ∧
      exec (.counterHighRead .window a) s = .next (returned (barRead (a.toNat % 2 ^ 28) s)) ∧
      (a.toNat / 0x2000000 % 8 ≠ 1 → bit 0 (rd Reg.CMD.OPEN_HOST.GMASK s) = true → ∀ x, x = barAddr (a.toNat % 2 ^ 28) →
        badAddr x = false → accStat s x ≠ ST_OK →
        ∃ t, exec (.counterLowRead .window a) s = .next t ∧ t.lastRead = 0xFFFFFFFF#32 ∧ t.ctrs = (noteRefused true x s).ctrs ∧
          t.brg = (noteRefused true x s).brg))) ∧
  ∀ (o : Origin) (body : List Byte) (a n op : Nat) (s : State), mayDispatch s o = true → body.length = 8 → field body 0 4 = a → field body 4 2 = n →
    field body 6 1 = op → zeroAt body 7 1 = true →
    (2 < op ∨ a % 8 ≠ 0 ∨ addrOff a < 0x80000 ∨ badAddr a = true ∨ (op = 0 ∧ (n = 0 ∨ 0x100000 < addrOff a + 8 * n)) →
      exec (.ctrClear o body) s = .next (reply o ST_BAD_PARAM [] (dispatch o s))) ∧
    (op ≤ 2 → a % 8 = 0 → 0x80000 ≤ addrOff a → badAddr a = false → (op = 0 → n ≠ 0 ∧ addrOff a + 8 * n ≤ 0x100000) →
      (accStat s a ≠ ST_OK → exec (.ctrClear o body) s = .next (reply o (accStat s a) [] (dispatch o s))) ∧
      (accStat s a = ST_OK → ∀ b, b = Tab.get noB s.ctrRc (ctrBlock a) →
        (op = 0 → ∃ u, exec (.ctrClear o body) s = .next (reply o ST_OK (beBytes 1 (ofBool b) ++ [0, 0, 0]) u) ∧ Only [.ctrs, .cmd] s u ∧
          (∀ i, i < n → ctrGet u (a + 8 * i) = ⟨0, false⟩) ∧ ∀ k, (∀ i, i < n → k ≠ a + 8 * i) → ctrGet u k = ctrGet s k) ∧
        (op ≠ 0 → ∃ u, exec (.ctrClear o body) s = .next (reply o ST_OK (beBytes 1 (ofBool (op == 1)) ++ [0, 0, 0]) u) ∧
          Only [.ctrRc, .cmd] s u ∧ Tab.get noB u.ctrRc (ctrBlock a) = (op == 1))))) ∧
  ((∀ (o : Origin) (body : List Byte) (s : State), mayDispatch s o = true →
    (∀ p l, body.length = 4 → field body 0 1 = p → field body 1 1 = l → zeroAt body 2 2 = true →
      (3 < p ∨ 3 < l → exec (.eyeMargin o body) s = .next (reply o ST_BAD_PARAM [] (dispatch o s))) ∧
      (p ≤ 3 → l ≤ 3 → (lstate s p ≠ ACTIVE ∧ lstate s p ≠ HUM) ∨ bit l (rd (Reg.HLP.STAT.LANES p) s) = false ∨ s.tests.eye.isSome = true →
        exec (.eyeMargin o body) s = .next (reply o ST_BUSY [] (dispatch o s))) ∧
      (p ≤ 3 → l ≤ 3 → lstate s p = ACTIVE ∨ lstate s p = HUM → bit l (rd (Reg.HLP.STAT.LANES p) s) = true → s.tests.eye = none →
        ∃ t, exec (.eyeMargin o body) s = .next t ∧ t.tests.eye = some (o, p, l) ∧ Only [.tests, .cmd] s t)) ∧
    (body.length = 8 → zeroAt body 3 1 = true → ∀ n, field body 1 1 = n →
      (1 < field body 0 1 ∨ n = 0 ∨ 64 < n ∨ 1 < field body 2 1 → exec (.logRead o body) s = .next (reply o ST_BAD_PARAM [] (dispatch o s))) ∧
      (field body 0 1 = 0 → 1 ≤ n → n ≤ 64 → field body 2 1 ≤ 1 → ∀ es : List LogEnt, es = s.diag.elog.take n →
        ∃ u, exec (.logRead o body) s = .next (reply o ST_OK (beBytes 1 es.length ++ ([0, 0, 0] : List Byte) ++
            beBytes 4 (match es.getLast? with | none => s.diag.elogSeq | some e => e.seqNo % 2 ^ 32 + 1) ++
            (es.map fun e => ep5Record e s.diag.boots).flatten) u) ∧
          u.diag.elog = (if field body 2 1 = 1 then s.diag.elog.drop n else s.diag.elog) ∧ Only [.diag, .cmd] s u))) ∧
  ∀ s : State,
    (∀ e, s.tests.eye = none → exec (.eyeMarginDone e) s = .next s) ∧
    (∀ (o : Origin) (p l : Nat) (e : List Byte), s.tests.eye = some (o, p, l) →
      (4 ≤ l ∨ (lstate s p ≠ ACTIVE ∧ lstate s p ≠ HUM) → ∃ u, exec (.eyeMarginDone e) s = .next (reply o ST_BUSY [] u) ∧ u.tests.eye = none) ∧
      (l < 4 → lstate s p = ACTIVE ∨ lstate s p = HUM → e.length = 12 → ∃ u, exec (.eyeMarginDone e) s = .next (reply o ST_OK
        (if rdB (Reg.HLP.STAT.MODE_CUR p) s then [0, 0, 0, 0] ++ (e.drop 4).take 4 ++ [0, 0, 0, 0] else e) u) ∧ u.tests.eye = none)) ∧
    (s.diag.norQ = [] ∨ rdB Reg.IMG.QSPI.READY s = false → ∀ g, exec (.norLogWrite g) s = .next s) ∧
    (∀ e l, s.diag.norQ = e :: l → rdB Reg.IMG.QSPI.READY s = true →
      (∃ t, exec (.norLogWrite false) s = .next t ∧ t.diag = s.diag ∧ t.nor = s.nor ∧
        rd Reg.IMG.QSPI.WERR t = min 65535 (rd Reg.IMG.QSPI.WERR s + 1)) ∧
      (∃ t, exec (.norLogWrite true) s = .next t ∧
        t.diag = { s.diag with norQ := l, norPos := (s.diag.norPos + 1) % logRing, norSeq := s.diag.norSeq + 1 } ∧
        norReads t (logAddr s.diag.norPos) 32 = sealed ((ep5Record { e with seqNo := s.diag.norSeq } s.diag.boots).take 28) ∧
        Only [.diag, .nor] s t)) ∧
    (∀ (slot : Slot) (v : BitVec 12), (present s slot = false → exec (.tempSample slot v) s = .next s) ∧
      (present s slot = true → ∃ t, exec (.tempSample slot v) s = .next t ∧ rd (Reg.DIE.TEMP.TEMP slot) t = v.toNat ∧
        rd (Reg.DIE.TEMP.VALID slot) t = 1 ∧ RegsBut [(Reg.DIE.TEMP.word slot).addr] s t ∧
        (8 * signed 8 (rd (Reg.DIE.TEMP.ALARM_TH slot) s) ≤ signed 12 v.toNat → rd (Reg.DIE.TEMP.ALARM slot) t = 1 ∧
          Raised srcTEMP_ALARM s t) ∧
        (signed 12 v.toNat < 8 * signed 8 (rd (Reg.DIE.TEMP.ALARM_TH slot) s) →
          rd (Reg.DIE.TEMP.ALARM slot) t = rd (Reg.DIE.TEMP.ALARM slot) s ∧ t.srcs = s.srcs))) ∧
    (∀ (r : EntryPoint) (slot : Slot), accStat s (Reg.DIE.LSTAT.word slot).addr = ST_OK → ∃ t, exec (.dieLstatRead r slot) s = .next t ∧
      t.lastRead = regGet s (Reg.DIE.LSTAT.word slot).addr ∧ rd (Reg.DIE.LSTAT.WORST slot) t = 0 ∧
      rd (Reg.DIE.LSTAT.STATE slot) t = rd (Reg.DIE.LSTAT.STATE slot) s ∧ RegsBut [(Reg.DIE.LSTAT.word slot).addr] s t ∧
      Only [.regs, .lastRead] s t))

/-- TEST_RUN of an allowed test starts it or answers ST_BUSY, ST_BUSY_IN_SERVICE, ST_NO_DIE or ST_BAD_PARAM; TEST_STATUS answers STATE,
PROGRESS, SUB and RESULT. A bank rotation goes through its four phases bank by bank; the scrub advances by bursts and counts a pass; TBL_CMP
rewrites entries that differ from their master; a disruptive test ends with its result; ends raise TEST_DONE. PROGRESS of a running test is
a free value (logs 2 and 40). Rules: R470, R471, R472, R473, R474, R476, R477, R484. -/
def Obligations.SelfTestsRun : Prop :=
  (∀ (o : Origin) (body : List Byte) (t d : Nat) (s : State), mayDispatch s o = true → field body 0 1 = t → field body 1 1 = d →
    (body.length = 8 → ∀ sub param, field body 2 1 = sub → field body 4 4 = param →
      (testKnown s t = false ∨ testDomOk t d = false ∨ testSubOk t sub param = false ∨ zeroAt body 3 1 = false →
        exec (.testRun o body) s = .next (reply o ST_BAD_PARAM [] (dispatch o s))) ∧
      (testKnown s t = true → testDomOk t d = true → testSubOk t sub param = true → zeroAt body 3 1 = true →
        (testCheck t d sub s ≠ ST_OK → exec (.testRun o body) s = .next (reply o (testCheck t d sub s) [] (dispatch o s))) ∧
        (t ≠ 0x12 → testRunning s (testKey t d) = true → testCheck t d sub s = ST_BUSY) ∧
        (t = 0x10 ∨ t = 0x11 → testRunning s (testKey t d) = false → domSt s d ≠ .quiesced → testCheck t d sub s = ST_BUSY_IN_SERVICE) ∧
        (t = 0x10 ∨ t = 0x11 → domSt s d = .quiesced → testOn s d = false → ∃ u, exec (.testRun o body) s = .next u ∧
          testRun u (testKey t d) = ⟨1, 0, sub, List.replicate 8 0, param⟩ ∧ u.cmd = (reply o ST_OK [] (dispatch o s)).cmd) ∧
        (t = 0x12 → present s (d - 0x10) = true → linkState s (d - 0x10) ≠ 4 → domSt s d = .quiesced → testOn s d = false →
          ∃ u, exec (.testRun o body) s = .next u ∧ testRunning u (testKey t d) = true ∧
            rdB (Reg.ETH.STAT.LINK (6 * ((d - 0x10) / 4) + sub)) u = false) ∧
        (t = 0x03 → testRunning s 0x3FF = false → rdB Reg.RTE.FGR.BUSY s = false → ∃ u, exec (.testRun o body) s = .next u ∧
          testRunning u 0x3FF = true ∧ u.tests.cmp = some (if sub = 0xFF then [0, 1, 2, 3] else [sub], 0, 0)) ∧
        (t = 0x02 → testRunning s 0x211 = false → ∃ u, exec (.testRun o body) s = .next u ∧ testRunning u 0x211 = true ∧
          u.tests.scrubTest = true ∧ u.tests.scrubAt = 0 ∧ u.tests.scrubErr = 0 ∧ rd Reg.DCM.SCRUB.RUN u = 1) ∧
        (∀ b l, t = 0x01 → testRunning s 0x1FF = false → combMode s = 0 → (retiring s).length ≤ 3 → rotBanks s sub = b :: l →
          ∃ u, exec (.testRun o body) s = .next u ∧ testRunning u 0x1FF = true ∧ u.tests.rot = some ⟨b, 1, l, 0, 0⟩ ∧ bankIn u b = false))) ∧
    (body.length = 4 → zeroAt body 2 2 = true →
      (testDomOk t d = false → exec (.testStatus o body) s = .next (reply o ST_BAD_PARAM [] (dispatch o s))) ∧
      (testDomOk t d = true → ∀ x, testRun s (testKey t d) = x →
        (x.st ≠ 1 → x.prog ≤ 100 → exec (.testStatus o body) s =
          .next (reply o ST_OK ([BitVec.ofNat 8 x.st, BitVec.ofNat 8 x.prog, BitVec.ofNat 8 x.sub, 0] ++ x.result) (dispatch o s))) ∧
        (x.st = 1 → ∃ p u, p ≤ 100 ∧ exec (.testStatus o body) s =
          .next (reply o ST_OK ([1, BitVec.ofNat 8 p, BitVec.ofNat 8 x.sub, 0] ++ x.result) u) ∧ Only [.free, .cmd] s u)))) ∧
  (∀ s : State,
    (s.tests.rot = none → ∀ g, exec (.bankRotStepDone g) s = .next s) ∧
    (∀ r, s.tests.rot = some r →
      (r.phase = 1 → combMode s = 0 → cellsIn s r.bank ≤ ((banksIn s).map (bankFree s)).foldl (· + ·) 0 → ∀ g, ∃ t,
        exec (.bankRotStepDone g) s = .next t ∧ t.tests.rot = some { r with phase := 2 }) ∧
      (r.phase = 2 → ∃ t, exec (.bankRotStepDone true) s = .next t ∧ t.tests.rot = some { r with phase := 3 } ∧ 2 ∈ t.comb.vcauses) ∧
      (r.phase = 3 → ∃ t, exec (.bankRotStepDone true) s = .next t ∧ t.tests.rot = some { r with phase := 4 }) ∧
      (r.phase = 2 ∨ r.phase = 3 → r.todo = [] → ∃ t, exec (.bankRotStepDone false) s = .next t ∧ t.tests.rot = none ∧
        Raised srcTEST_DONE s t ∧ (testRun t 0x1FF).st = 3 ∧ (testRun t 0x1FF).result = rotResult r.passed (r.failed + 2 ^ r.bank)) ∧
      (r.phase = 4 → r.todo = [] → ∀ g, ∃ t, exec (.bankRotStepDone g) s = .next t ∧ t.tests.rot = none ∧ Raised srcTEST_DONE s t ∧
        (testRun t 0x1FF).st = (if r.failed = 0 then 2 else 3) ∧ (testRun t 0x1FF).result = rotResult (r.passed + 2 ^ r.bank) r.failed)) ∧
    (∀ f : Fin 4, (scrubMay s = false → exec (.scrubBurst f) s = .next s) ∧
      (scrubMay s = true → s.tests.scrubAt + 1 < 2 ^ 26 → ∃ t, exec (.scrubBurst f) s = .next t ∧ t.tests.scrubAt = s.tests.scrubAt + 1 ∧
        rd Reg.DCM.SCRUB.RUN t = 1 ∧ (f ≠ 3 → t.tests.scrubErr = s.tests.scrubErr ∧ ctrGet t (cDCM 1) = ctrGet s (cDCM 1)) ∧
        (f = 3 → t.tests.scrubErr = s.tests.scrubErr + 1 ∧ CountsUp (cDCM 1) s t) ∧ t.deep = s.deep) ∧
      (scrubMay s = true → s.tests.scrubAt + 1 = 2 ^ 26 → ∃ t, exec (.scrubBurst f) s = .next t ∧ t.tests.scrubAt = 0 ∧
        t.tests.scrubErr = 0 ∧ t.tests.scrubTest = false ∧ rd Reg.DCM.SCRUB.PASSES t = min 65535 (rd Reg.DCM.SCRUB.PASSES s + 1) ∧
        (s.tests.scrubTest = true → f ≠ 3 → s.tests.scrubErr = 0 → (testRun t 0x211).st = 2 ∧ Raised srcTEST_DONE s t))) ∧
    (∀ dam un, s.tests.cmp = none ∨ dcmServes s 6 = false → exec (.tblCmpDone dam un) s = .next s) ∧
    (∀ l x y dam, s.tests.cmp = some (l, x, y) → dcmServes s 6 = true →
      ∃ t, exec (.tblCmpDone dam []) s = .next t ∧ t.tests.cmp = none ∧ Raised srcTEST_DONE s t ∧
        (∀ k ∈ l, ∀ i, i < 16384 → Tab.get zeroN (tbl s k).active i ≠ Tab.get zeroN (tbl s k).master i →
          Tab.get zeroN (tbl t k).active i = Tab.get zeroN (tbl s k).master i) ∧
        ((∀ k ∈ l, cmpWrites k dam [] s = []) → (testRun t 0x3FF).st = 2 ∧
          (testRun t 0x3FF).result = beBytes 4 (16384 * l.length) ++ beBytes 4 0)) ∧
    (∀ d g res, (∀ k ∈ [0x10, 0x11, 0x12], testRunning s (testKey k d) = false) → exec (.disruptiveTestDone d g res) s = .next s) ∧
    (∀ (d k : Nat) (g : Bool) (res : BitVec 64), k ∈ [0x10, 0x11, 0x12] → testRunning s (testKey k d) = true →
      (∀ j ∈ [0x10, 0x11, 0x12], j ≠ k → testRunning s (testKey j d) = false) → ∃ t, exec (.disruptiveTestDone d g res) s = .next t ∧
        (testRun t (testKey k d)).st = (if g then 2 else 3) ∧ (testRun t (testKey k d)).prog = 100 ∧ Raised srcTEST_DONE s t ∧
        (k ≠ 0x11 → (testRun t (testKey k d)).result = beBytes 8 res.toNat) ∧ t.domains = s.domains))

/-- For every cell with a payload of 116 bytes: its bytes are 128; byte i of 0 to 7 holds bits 63-8i to 56-8i of the header; bytes 8 to 123 are
the payload; bytes 124 to 127 the CRC-32C of the first 124. Rules: R92. -/
def Obligations.CellsAreLaidOutIn128Bytes : Prop :=
  ∀ c : Cell, c.payload.length = 116 →
    (cellBytes c).length = 128 ∧ (∀ i, i < 8 → (cellBytes c).getD i 0 = BitVec.ofNat 8 (cellHeader c / 2 ^ (56 - 8 * i))) ∧
    ((cellBytes c).drop 8).take 116 = c.payload ∧ (cellBytes c).drop 124 = leBytes 4 (crc32c ((cellBytes c).take 124))

/-- State.reset is in canonical form; the listed registers hold the reset values of their field tables; every line port is DISABLED, QSTATE and
LDST are 0, BOOTED is 0, no command is in flight, no session open, every source IDLE, every counter 0, the queue empty. The canonical form
and the queue are the model's (log 1). -/
def Obligations.ResetLeavesWhatTheTablesSay : Prop :=
  (Wf State.reset) ∧
  ((∀ e ∈ [((Reg.HLP.CFG.word 0).addr, 0x09F87F01), ((Reg.HLP.CFG.word 3).addr, 0x09F87F01), ((Reg.HLP.STAT.word 1).addr, 0x00C00000),
      (Reg.RTE.RING.word.addr, 0x4100320A), (Reg.RTE.BYP.word.addr, 0xC3000014), (Reg.CMB.STAT.word.addr, 0x49000000),
      (Reg.CMB.SPILL.word.addr, 0x801E3020), (Reg.GRD.XMON.word.addr, 0x3D), (Reg.BRG.WCFG.word.addr, 0x60C00000), (Reg.TIM.CFG.word.addr, 0x080A1401),
      (Reg.TRG.RPT.word.addr, 0x0A000000), (Reg.CMD.RELAY.word.addr, 0xC0002710), ((Reg.TCP.CFG.word 7).addr, 0x9C000000),
      (Reg.SVC.CTRL.word.addr, 0x40000000), ((Reg.DSP.LTOL.word 1).addr, 0x24FFFFFF), ((Reg.LPW.PCFG.word 2).addr, 0x50783214),
      (Reg.LPW.QUAL.word.addr, 0x140A0A0A), ((Reg.INT.TGT.word 15).addr, 0x3FFE), (Reg.DCM.SR.word.addr, 0x80140A00),
      (Reg.IMG.TRIAL.word.addr, 0x258), ((Reg.DIE.TEMP.word 5).addr, 0x00690000), ((Reg.USB.PRX_RBASE.word 0).addr, 0x08000000), ((Reg.USB.PRX_RBASE.word 1).addr, 0x08001000), (Reg.DCM.SCRUB.word.addr, 0x80400000)],
    (regGet State.reset e.1).toNat = e.2) ∧
  (∀ n : LPort, lstate State.reset n = DISABLED) ∧ rd Reg.TIM.STAT.QSTATE State.reset = 0 ∧ rd Reg.NRS.STAT.LDST State.reset = 0 ∧
  rd Reg.GLB.STAT.BOOTED State.reset = 0 ∧ State.reset.cmd.flights = [] ∧ State.reset.cmd.sessions = [] ∧ State.reset.pending = [] ∧
  (∀ n, srcSt State.reset n = .idle) ∧ (∀ a, ctrGet State.reset a = ⟨0, false⟩) ∧ bstate State.reset = 0)

/-- For every cell whose fields fit their widths: its slot bytes have a good CRC and parse back to the cell; the slot is an ordered set exactly
where VER is 31. For every list of at most 14 ordered-set words of 8-bit type and 48-bit body: its slot has a good CRC, is an ordered-set
slot, and gives back exactly those words. Rules: R62, R63, R92, R93, R97. -/
def Obligations.CellsAndOrderedSetsSurviveTheirSlots : Prop :=
  (∀ c : Cell, c.dst < 2 ^ 14 → c.src < 2 ^ 14 → c.tun < 2 ^ 14 → c.tc < 8 → c.typ < 16 → c.vlen < 128 → c.ver < 32 → c.payload.length = 116 →
    (cellBytes c).length = 128 ∧ slotCrcGood (cellBytes c) = true ∧ parseCell (cellBytes c) = c ∧ (isOsSlot (cellBytes c) = true ↔ c.ver = 31)) ∧
  (∀ ws : List OsWord, ws.length ≤ 14 → (∀ w ∈ ws, w.typ < 256 ∧ w.body < 2 ^ 48) →
    (osSlotBytes ws).length = 128 ∧ slotCrcGood (osSlotBytes ws) = true ∧ isOsSlot (osSlotBytes ws) = true ∧
      osSlotWords (osSlotBytes ws) = some (ws.map some))
end

