-- ==== Sys2Proof/Laws/Codes.lean ====
section
/-! SUPPORT. The CRC-32C of a message with some bits changed differs by a constant that the changed bits fix (R94). -/
namespace Sys2Proof.Machine

-- One theorem at a time, so that the package as one text compiles within its memory limit.
set_option Elab.async false

theorem crc32cBit_xor (x y : Nat) : crc32cBit (x ^^^ y) = crc32cBit x ^^^ crc32cBit y := by
  have h : bit 0 (x ^^^ y) = (bit 0 x != bit 0 y) := by
    rcases Nat.mod_two_eq_zero_or_one x with a | a <;> rcases Nat.mod_two_eq_zero_or_one y with b | b <;> simp [bit, Nat.add_mod, a, b]
  unfold crc32cBit
  rw [h, Nat.xor_div_two]
  cases bit 0 x <;> cases bit 0 y <;> simp [Nat.xor_assoc, Nat.xor_comm, Nat.xor_left_comm]

theorem crc32cByte_xor (x y : Nat) (a d : Byte) : crc32cByte (x ^^^ y) (a ^^^ d) = crc32cByte x a ^^^ crc32cByte y d := by
  have h : (x ^^^ y) ^^^ (a ^^^ d).toNat = (x ^^^ a.toNat) ^^^ (y ^^^ d.toNat) := by
    rw [BitVec.toNat_xor]
    ac_rfl
  simp only [crc32cByte, h, crc32cBit_xor]

/-- The register after a message in which the bits of `d` are flipped. -/
theorem crc32cFold_xor : ∀ (l d : List Byte) (x y : Nat), l.length = d.length →
    (List.zipWith (· ^^^ ·) l d).foldl crc32cByte (x ^^^ y) = l.foldl crc32cByte x ^^^ d.foldl crc32cByte y
  | [], [], _, _, _ => rfl
  | [], _ :: _, _, _, h => nomatch h
  | _ :: _, [], _, _, h => nomatch h
  | a :: l, e :: d, x, y, h => by
    simp only [List.zipWith_cons_cons, List.foldl_cons, crc32cByte_xor]
    exact crc32cFold_xor l d _ _ (Nat.succ.inj h)

/-- Flipping the bits of `d` adds a difference to the CRC-32C that is the same for every message (R94). -/
theorem crc32c_change (l d : List Byte) (h : l.length = d.length) :
    crc32c (List.zipWith (· ^^^ ·) l d) = crc32c l ^^^ d.foldl crc32cByte 0 := by
  have := crc32cFold_xor l d 0xFFFFFFFF 0 h
  simp only [Nat.xor_zero] at this
  rw [crc32c, this, crc32c]
  ac_rfl

end Sys2Proof.Machine
end

