-- ==== Sys2Proof/Laws/Tab.lean ====
section
/-! SUPPORT. Laws of tables: a read after a write, other keys, and the canonical form that every operation keeps. -/
namespace Sys2Proof.Machine

-- One theorem at a time, so that the package as one text compiles within its memory limit.
set_option Elab.async false

variable {α : Type}

theorem Tab.get_drop_same (d : Nat → α) (k : Nat) (t : Tab α) : Tab.get d (Tab.drop k t) k = d k := by
  induction t with
  | nil => rfl
  | cons e t ih =>
    simp only [Tab.drop]
    split
    · exact ih
    · rename_i h
      simp [Tab.get, h, ih]

theorem Tab.get_drop_other (d : Nat → α) {j k : Nat} (h : j ≠ k) (t : Tab α) :
    Tab.get d (Tab.drop k t) j = Tab.get d t j := by
  induction t with
  | nil => rfl
  | cons e t ih =>
    obtain ⟨i, w⟩ := e
    simp only [Tab.drop]
    split
    · rename_i hi
      subst hi
      simp [Tab.get, ih, Ne.symm h]
    · simp [Tab.get, ih]

theorem Tab.get_place_other (d : Nat → α) {j k : Nat} (h : j ≠ k) (v : α) (t : Tab α) :
    Tab.get d (Tab.place k v t) j = Tab.get d t j := by
  induction t with
  | nil => simp [Tab.place, Tab.get, Ne.symm h]
  | cons e t ih =>
    obtain ⟨i, w⟩ := e
    simp only [Tab.place]
    split
    · simp [Tab.get, Ne.symm h]
    · simp [Tab.get, ih]

theorem Tab.get_place_drop (d : Nat → α) (k : Nat) (v : α) (t : Tab α) :
    Tab.get d (Tab.place k v (Tab.drop k t)) k = v := by
  induction t with
  | nil => simp [Tab.drop, Tab.place, Tab.get]
  | cons e t ih =>
    obtain ⟨i, w⟩ := e
    simp only [Tab.drop]
    split
    · exact ih
    · rename_i hi
      simp only [Tab.place]
      split
      · simp [Tab.get]
      · simp [Tab.get, hi, ih]

/-- A read of the key just written. -/
@[simp] theorem Tab.get_set_same [DecidableEq α] (d : Nat → α) (k : Nat) (v : α) (t : Tab α) :
    Tab.get d (Tab.set d k v t) k = v := by
  unfold Tab.set
  split
  · rename_i h
    rw [Tab.get_drop_same, h]
  · exact Tab.get_place_drop d k v t

/-- A write leaves every other key alone. -/
theorem Tab.get_set_other [DecidableEq α] (d : Nat → α) {j k : Nat} (h : j ≠ k) (v : α) (t : Tab α) :
    Tab.get d (Tab.set d k v t) j = Tab.get d t j := by
  unfold Tab.set
  split
  · exact Tab.get_drop_other d h t
  · rw [Tab.get_place_other d h, Tab.get_drop_other d h]

theorem Tab.get_set [DecidableEq α] (d : Nat → α) (j k : Nat) (v : α) (t : Tab α) :
    Tab.get d (Tab.set d k v t) j = if j = k then v else Tab.get d t j := by
  split
  · rename_i h
    subst h
    exact Tab.get_set_same d j v t
  · rename_i h
    exact Tab.get_set_other d h v t

/-! The canonical form. -/

theorem Tab.wfAbove_mono [DecidableEq α] (d : Nat → α) {t : Tab α} {a b : Option Nat}
    (hab : ∀ i, a = some i → ∃ j, b = some j ∧ i ≤ j) (h : Tab.wfAbove d b t = true) : Tab.wfAbove d a t = true := by
  cases t with
  | nil => rfl
  | cons e t =>
    simp only [Tab.wfAbove, Bool.and_eq_true] at h ⊢
    refine ⟨⟨?_, h.1.2⟩, h.2⟩
    cases a with
    | none => rfl
    | some i =>
      obtain ⟨j, rfl, hij⟩ := hab i rfl
      simp only [decide_eq_true_eq] at h ⊢
      omega

theorem Tab.wfAbove_drop [DecidableEq α] (d : Nat → α) (k : Nat) (t : Tab α) (b : Option Nat)
    (h : Tab.wfAbove d b t = true) : Tab.wfAbove d b (Tab.drop k t) = true := by
  induction t generalizing b with
  | nil => rfl
  | cons e t ih =>
    obtain ⟨j, w⟩ := e
    simp only [Tab.wfAbove, Bool.and_eq_true] at h
    simp only [Tab.drop]
    split
    · refine ih b (Tab.wfAbove_mono d ?_ h.2)
      intro i hi
      subst hi
      have h1 := h.1.1
      simp only [decide_eq_true_eq] at h1
      exact ⟨j, rfl, by omega⟩
    · simp only [Tab.wfAbove, Bool.and_eq_true]
      exact ⟨h.1, ih _ h.2⟩

theorem Tab.wfAbove_place [DecidableEq α] (d : Nat → α) (k : Nat) (v : α) (hv : v ≠ d k) (t : Tab α) (b : Option Nat)
    (hb : ∀ i, b = some i → i < k) (h : Tab.wfAbove d b (Tab.drop k t) = true) :
    Tab.wfAbove d b (Tab.place k v (Tab.drop k t)) = true := by
  induction t generalizing b with
  | nil =>
    cases b with
    | none => simp [Tab.drop, Tab.place, Tab.wfAbove, hv]
    | some i => simp [Tab.drop, Tab.place, Tab.wfAbove, hv, hb i rfl]
  | cons e t ih =>
    obtain ⟨j, w⟩ := e
    simp only [Tab.drop] at h ⊢
    split at h
    · rename_i hj
      simp only [hj, if_true]
      exact ih b hb h
    · rename_i hj
      simp only [hj, if_false]
      simp only [Tab.wfAbove, Bool.and_eq_true] at h
      simp only [Tab.place]
      split
      · rename_i hkj
        simp only [Tab.wfAbove, Bool.and_eq_true, decide_eq_true_eq]
        refine ⟨⟨?_, hv⟩, ⟨hkj, by simpa using h.1.2⟩, h.2⟩
        cases b with
        | none => rfl
        | some i => simpa using hb i rfl
      · simp only [Tab.wfAbove, Bool.and_eq_true]
        refine ⟨h.1, ih (some j) ?_ h.2⟩
        intro i hi
        cases hi
        omega

/-- A write keeps the canonical form. -/
theorem Tab.wf_set [DecidableEq α] (d : Nat → α) (k : Nat) (v : α) {t : Tab α} (h : Tab.wf d t = true) :
    Tab.wf d (Tab.set d k v t) = true := by
  have hd : Tab.wfAbove d none (Tab.drop k t) = true := Tab.wfAbove_drop d k t none h
  unfold Tab.set
  split
  · exact hd
  · rename_i hv
    exact Tab.wfAbove_place d k v hv t none (fun i hi => by cases hi) hd

theorem Tab.wfAbove_keep [DecidableEq α] (d : Nat → α) (p : Nat → Bool) (t : Tab α) (b : Option Nat)
    (h : Tab.wfAbove d b t = true) : Tab.wfAbove d b (Tab.keep p t) = true := by
  induction t generalizing b with
  | nil => rfl
  | cons e t ih =>
    obtain ⟨j, w⟩ := e
    simp only [Tab.wfAbove, Bool.and_eq_true] at h
    unfold Tab.keep at ih ⊢
    rw [List.filter_cons]
    split
    · simp only [Tab.wfAbove, Bool.and_eq_true]
      exact ⟨h.1, ih _ h.2⟩
    · refine ih b (Tab.wfAbove_mono d ?_ h.2)
      intro i hi
      subst hi
      have h1 := h.1.1
      simp only [decide_eq_true_eq] at h1
      exact ⟨j, rfl, by omega⟩

/-- Dropping entries keeps the canonical form. -/
theorem Tab.wf_keep [DecidableEq α] (d : Nat → α) (p : Nat → Bool) {t : Tab α} (h : Tab.wf d t = true) :
    Tab.wf d (Tab.keep p t) = true := Tab.wfAbove_keep d p t none h

/-- Writing a run of values keeps the canonical form. -/
theorem Tab.wf_setMany [DecidableEq α] (d : Nat → α) (k : Nat) (l : List α) {t : Tab α} (h : Tab.wf d t = true) :
    Tab.wf d (Tab.setMany d k l t) = true := by
  induction l generalizing k t with
  | nil => exact h
  | cons v l ih => exact ih (k + 1) (Tab.wf_set d k v h)

/-- Writing the entries of another table keeps the canonical form. -/
theorem Tab.wf_setAll [DecidableEq α] (d : Nat → α) (l : Tab α) {t : Tab α} (h : Tab.wf d t = true) :
    Tab.wf d (l.foldl (fun m e => Tab.set d e.1 e.2 m) t) = true := by
  induction l generalizing t with
  | nil => exact h
  | cons e l ih => exact ih (Tab.wf_set d e.1 e.2 h)

/-- A run of writes below or above a key leaves it alone. -/
theorem Tab.get_setMany_other [DecidableEq α] (d : Nat → α) (j k : Nat) (l : List α) (t : Tab α)
    (h : j < k ∨ k + l.length ≤ j) : Tab.get d (Tab.setMany d k l t) j = Tab.get d t j := by
  induction l generalizing k t with
  | nil => rfl
  | cons v l ih =>
    simp only [List.length_cons] at h
    rw [Tab.setMany, ih (k + 1) _ (by omega), Tab.get_set_other d (by omega)]

/-- A run of writes is read back. -/
theorem Tab.get_setMany_at [DecidableEq α] (d : Nat → α) (k i : Nat) (l : List α) (t : Tab α) (h : i < l.length) :
    Tab.get d (Tab.setMany d k l t) (k + i) = l[i] := by
  induction l generalizing k i t with
  | nil => simp at h
  | cons v l ih =>
    rw [Tab.setMany]
    cases i with
    | zero =>
      rw [Tab.get_setMany_other d _ _ _ _ (by omega)]
      simp
    | succ i =>
      have := ih (k + 1) i (Tab.set d k v t) (by simpa using h)
      rw [show k + (i + 1) = k + 1 + i by omega, this]
      simp

/-- Where the predicate holds, a kept table reads as before. -/
theorem Tab.get_keep (d : Nat → α) (p : Nat → Bool) (t : Tab α) (k : Nat) :
    Tab.get d (Tab.keep p t) k = if p k then Tab.get d t k else d k := by
  induction t with
  | nil => simp [Tab.keep, Tab.get]
  | cons e t ih =>
    obtain ⟨j, w⟩ := e
    unfold Tab.keep at ih ⊢
    rw [List.filter_cons]
    split
    · rename_i hp
      simp only [Tab.get]
      by_cases hj : j = k
      · subst hj
        simp only [if_true]
        simp at hp
        simp [hp]
      · simp [hj, ih]
    · rename_i hp
      rw [ih]
      simp only [Tab.get]
      by_cases hj : j = k
      · subst hj
        simp at hp
        simp [hp]
      · simp [hj]

/-- A built table reads as its function below its size. -/
theorem Tab.get_build [DecidableEq α] (d : Nat → α) (n : Nat) (f : Nat → α) (k : Nat) :
    Tab.get d (Tab.build d n f) k = if k < n then f k else d k := by
  induction n with
  | zero => simp [Tab.build, Tab.get]
  | succ n ih =>
    simp only [Tab.build, List.range_succ, List.foldl_append, List.foldl_cons, List.foldl_nil] at ih ⊢
    rw [Tab.get_set, ih]
    by_cases h : k = n
    · simp [h]
    · simp only [h, if_false]
      by_cases g : k < n
      · simp [g, show k < n + 1 by omega]
      · simp [g, show ¬ k < n + 1 by omega]

/-- A built table is in canonical form. -/
theorem Tab.wf_build [DecidableEq α] (d : Nat → α) (n : Nat) (f : Nat → α) : Tab.wf d (Tab.build d n f) = true := by
  induction n with
  | zero => simp [Tab.build, Tab.wf, Tab.wfAbove]
  | succ n ih =>
    simp only [Tab.build, List.range_succ, List.foldl_append, List.foldl_cons, List.foldl_nil] at ih ⊢
    exact Tab.wf_set d n (f n) ih

end Sys2Proof.Machine
end

