-- ==== Sys2Proof/Laws/Keeps.lean ====
section
/-! SUPPORT. What every operation of the model keeps, and which parts of State it leaves alone: `Keeps m s t` says that the change
from `s` to `t` respects the invariants of the whole machine and touches no field outside the mask `m`. -/
namespace Sys2Proof.Machine

-- One theorem at a time, so that the package as one text compiles within its memory limit.
set_option Elab.async false

theorem OtpForward.refl (a : Otp) : OtpForward a a := ⟨id, fun _ h => h, fun _ h => h, fun _ _ => rfl⟩

theorem OtpForward.trans {a b c : Otp} (h : OtpForward a b) (g : OtpForward b c) : OtpForward a c :=
  ⟨fun x => g.ownOnly (h.ownOnly x), fun i x => g.revoked i (h.revoked i x), fun i x => g.used i (h.used i x),
    fun i x => (g.hash i (h.used i x)).trans (h.hash i x)⟩

/-- A field of State by its number: the fields in order, without the four that no operation changes. -/
def State.part (s : State) (i : Nat) : (α : Type) × α :=
  match i with
  | 0 => ⟨_, s.free⟩
  | 1 => ⟨_, s.regs⟩
  | 2 => ⟨_, s.ctrs⟩
  | 3 => ⟨_, s.ctrRc⟩
  | 4 => ⟨_, s.srcs⟩
  | 5 => ⟨_, s.lastRead⟩
  | 6 => ⟨_, s.ports⟩
  | 7 => ⟨_, s.tolger⟩
  | 8 => ⟨_, s.domains⟩
  | 9 => ⟨_, s.topo⟩
  | 10 => ⟨_, s.comb⟩
  | 11 => ⟨_, s.sched⟩
  | 12 => ⟨_, s.tuns⟩
  | 13 => ⟨_, s.brg⟩
  | 14 => ⟨_, s.cmd⟩
  | 15 => ⟨_, s.deep⟩
  | 16 => ⟨_, s.lt⟩
  | 17 => ⟨_, s.diag⟩
  | 18 => ⟨_, s.time⟩
  | 19 => ⟨_, s.otp⟩
  | 20 => ⟨_, s.trig⟩
  | 21 => ⟨_, s.trims⟩
  | 22 => ⟨_, s.tcp⟩
  | 23 => ⟨_, s.svcSink⟩
  | 24 => ⟨_, s.pdTables⟩
  | 25 => ⟨_, s.proxies⟩
  | 26 => ⟨_, s.svcDev⟩
  | 27 => ⟨_, s.heads⟩
  | 28 => ⟨_, s.timings⟩
  | 29 => ⟨_, s.tols⟩
  | 30 => ⟨_, s.dpLine⟩
  | 31 => ⟨_, s.eths⟩
  | 32 => ⟨_, s.etm⟩
  | 33 => ⟨_, s.hostIf⟩
  | 34 => ⟨_, s.efuses⟩
  | 35 => ⟨_, s.nurse⟩
  | 36 => ⟨_, s.tests⟩
  | 37 => ⟨_, s.img⟩
  | 38 => ⟨_, s.nor⟩
  | 39 => ⟨_, s.supplyHold⟩
  | _ => ⟨Unit, ()⟩

theorem part_eq {α : Type} {a b : α} (h : (⟨α, a⟩ : (β : Type) × β) = ⟨α, b⟩) : a = b := by
  cases h
  rfl

/-- What the change from `s` to `t` keeps: the fields whose bits in `m` are 0 are as before. -/
structure Keeps (m : Nat) (s t : State) : Prop where
  variant : t.variant = s.variant
  stepB0 : t.stepB0 = s.stepB0
  now : t.now = s.now
  pending : t.pending = s.pending
  drawn : s.free ≤ t.free
  otpForward : OtpForward s.otp t.otp
  wf : Wf s → Wf t
  same : ∀ i, m.testBit i = false → t.part i = s.part i

theorem Keeps.refl (m : Nat) (s : State) : Keeps m s s :=
  { variant := rfl, stepB0 := rfl, now := rfl, pending := rfl, drawn := Nat.le_refl _, otpForward := OtpForward.refl _, wf := id
    same := fun _ _ => rfl }

theorem Keeps.trans {m : Nat} {s t u : State} (h : Keeps m s t) (g : Keeps m t u) : Keeps m s u :=
  { variant := g.variant.trans h.variant
    stepB0 := g.stepB0.trans h.stepB0
    now := g.now.trans h.now
    pending := g.pending.trans h.pending
    drawn := h.drawn.trans g.drawn
    otpForward := h.otpForward.trans g.otpForward
    wf := fun w => g.wf (h.wf w)
    same := fun i b => (g.same i b).trans (h.same i b) }


/-- Every bit of `a` is one of `b`. -/
theorem bits_within {a b : Nat} (h : a ||| b = b) {i : Nat} (hb : b.testBit i = false) : a.testBit i = false := by
  have := congrArg (fun n => n.testBit i) h
  simp only [Nat.testBit_or, hb, Bool.or_false] at this
  exact this

theorem Keeps.mono {a b : Nat} (h : a ||| b = b) {s t : State} (k : Keeps a s t) : Keeps b s t :=
  { k with same := fun i x => k.same i (bits_within h x) }

/-! The fields by name. -/


theorem Keeps.free {m : Nat} {s t : State} (h : Keeps m s t) (b : m.testBit 0 = false) : t.free = s.free := part_eq (h.same 0 b)
theorem Keeps.regs {m : Nat} {s t : State} (h : Keeps m s t) (b : m.testBit 1 = false) : t.regs = s.regs := part_eq (h.same 1 b)
theorem Keeps.ctrs {m : Nat} {s t : State} (h : Keeps m s t) (b : m.testBit 2 = false) : t.ctrs = s.ctrs := part_eq (h.same 2 b)
theorem Keeps.ctrRc {m : Nat} {s t : State} (h : Keeps m s t) (b : m.testBit 3 = false) : t.ctrRc = s.ctrRc := part_eq (h.same 3 b)
theorem Keeps.srcs {m : Nat} {s t : State} (h : Keeps m s t) (b : m.testBit 4 = false) : t.srcs = s.srcs := part_eq (h.same 4 b)
theorem Keeps.lastRead {m : Nat} {s t : State} (h : Keeps m s t) (b : m.testBit 5 = false) : t.lastRead = s.lastRead := part_eq (h.same 5 b)
theorem Keeps.ports {m : Nat} {s t : State} (h : Keeps m s t) (b : m.testBit 6 = false) : t.ports = s.ports := part_eq (h.same 6 b)
theorem Keeps.tolger {m : Nat} {s t : State} (h : Keeps m s t) (b : m.testBit 7 = false) : t.tolger = s.tolger := part_eq (h.same 7 b)
theorem Keeps.domains {m : Nat} {s t : State} (h : Keeps m s t) (b : m.testBit 8 = false) : t.domains = s.domains := part_eq (h.same 8 b)
theorem Keeps.topo {m : Nat} {s t : State} (h : Keeps m s t) (b : m.testBit 9 = false) : t.topo = s.topo := part_eq (h.same 9 b)
theorem Keeps.comb {m : Nat} {s t : State} (h : Keeps m s t) (b : m.testBit 10 = false) : t.comb = s.comb := part_eq (h.same 10 b)
theorem Keeps.sched {m : Nat} {s t : State} (h : Keeps m s t) (b : m.testBit 11 = false) : t.sched = s.sched := part_eq (h.same 11 b)
theorem Keeps.tuns {m : Nat} {s t : State} (h : Keeps m s t) (b : m.testBit 12 = false) : t.tuns = s.tuns := part_eq (h.same 12 b)
theorem Keeps.brg {m : Nat} {s t : State} (h : Keeps m s t) (b : m.testBit 13 = false) : t.brg = s.brg := part_eq (h.same 13 b)
theorem Keeps.cmd {m : Nat} {s t : State} (h : Keeps m s t) (b : m.testBit 14 = false) : t.cmd = s.cmd := part_eq (h.same 14 b)
theorem Keeps.deep {m : Nat} {s t : State} (h : Keeps m s t) (b : m.testBit 15 = false) : t.deep = s.deep := part_eq (h.same 15 b)
theorem Keeps.lt {m : Nat} {s t : State} (h : Keeps m s t) (b : m.testBit 16 = false) : t.lt = s.lt := part_eq (h.same 16 b)
theorem Keeps.diag {m : Nat} {s t : State} (h : Keeps m s t) (b : m.testBit 17 = false) : t.diag = s.diag := part_eq (h.same 17 b)
theorem Keeps.time {m : Nat} {s t : State} (h : Keeps m s t) (b : m.testBit 18 = false) : t.time = s.time := part_eq (h.same 18 b)
theorem Keeps.otp {m : Nat} {s t : State} (h : Keeps m s t) (b : m.testBit 19 = false) : t.otp = s.otp := part_eq (h.same 19 b)
theorem Keeps.trig {m : Nat} {s t : State} (h : Keeps m s t) (b : m.testBit 20 = false) : t.trig = s.trig := part_eq (h.same 20 b)
theorem Keeps.trims {m : Nat} {s t : State} (h : Keeps m s t) (b : m.testBit 21 = false) : t.trims = s.trims := part_eq (h.same 21 b)
theorem Keeps.tcp {m : Nat} {s t : State} (h : Keeps m s t) (b : m.testBit 22 = false) : t.tcp = s.tcp := part_eq (h.same 22 b)
theorem Keeps.svcSink {m : Nat} {s t : State} (h : Keeps m s t) (b : m.testBit 23 = false) : t.svcSink = s.svcSink := part_eq (h.same 23 b)
theorem Keeps.pdTables {m : Nat} {s t : State} (h : Keeps m s t) (b : m.testBit 24 = false) : t.pdTables = s.pdTables := part_eq (h.same 24 b)
theorem Keeps.proxies {m : Nat} {s t : State} (h : Keeps m s t) (b : m.testBit 25 = false) : t.proxies = s.proxies := part_eq (h.same 25 b)
theorem Keeps.svcDev {m : Nat} {s t : State} (h : Keeps m s t) (b : m.testBit 26 = false) : t.svcDev = s.svcDev := part_eq (h.same 26 b)
theorem Keeps.heads {m : Nat} {s t : State} (h : Keeps m s t) (b : m.testBit 27 = false) : t.heads = s.heads := part_eq (h.same 27 b)
theorem Keeps.timings {m : Nat} {s t : State} (h : Keeps m s t) (b : m.testBit 28 = false) : t.timings = s.timings := part_eq (h.same 28 b)
theorem Keeps.tols {m : Nat} {s t : State} (h : Keeps m s t) (b : m.testBit 29 = false) : t.tols = s.tols := part_eq (h.same 29 b)
theorem Keeps.dpLine {m : Nat} {s t : State} (h : Keeps m s t) (b : m.testBit 30 = false) : t.dpLine = s.dpLine := part_eq (h.same 30 b)
theorem Keeps.eths {m : Nat} {s t : State} (h : Keeps m s t) (b : m.testBit 31 = false) : t.eths = s.eths := part_eq (h.same 31 b)
theorem Keeps.etm {m : Nat} {s t : State} (h : Keeps m s t) (b : m.testBit 32 = false) : t.etm = s.etm := part_eq (h.same 32 b)
theorem Keeps.hostIf {m : Nat} {s t : State} (h : Keeps m s t) (b : m.testBit 33 = false) : t.hostIf = s.hostIf := part_eq (h.same 33 b)
theorem Keeps.efuses {m : Nat} {s t : State} (h : Keeps m s t) (b : m.testBit 34 = false) : t.efuses = s.efuses := part_eq (h.same 34 b)
theorem Keeps.nurse {m : Nat} {s t : State} (h : Keeps m s t) (b : m.testBit 35 = false) : t.nurse = s.nurse := part_eq (h.same 35 b)
theorem Keeps.tests {m : Nat} {s t : State} (h : Keeps m s t) (b : m.testBit 36 = false) : t.tests = s.tests := part_eq (h.same 36 b)
theorem Keeps.img {m : Nat} {s t : State} (h : Keeps m s t) (b : m.testBit 37 = false) : t.img = s.img := part_eq (h.same 37 b)
theorem Keeps.nor {m : Nat} {s t : State} (h : Keeps m s t) (b : m.testBit 38 = false) : t.nor = s.nor := part_eq (h.same 38 b)
theorem Keeps.supplyHold {m : Nat} {s t : State} (h : Keeps m s t) (b : m.testBit 39 = false) : t.supplyHold = s.supplyHold := part_eq (h.same 39 b)

/-- Masks within masks. -/
theorem sub {c d m : Nat} (h : c ||| m = m) (g : d ||| c = c) : d ||| m = m := by
  rw [← h, ← Nat.or_assoc, g]

/-- A field whose bit is in the mask. -/
theorem hit {c m i : Nat} {P : Prop} (h : c ||| m = m) (hi : c.testBit i = true) (hb : m.testBit i = false) : P := by
  have := bits_within h hb
  rw [hi] at this
  cases this

theorem Keeps.ite {m : Nat} {s a b : State} {c : Prop} [Decidable c] (ha : Keeps m s a) (hb : Keeps m s b) :
    Keeps m s (if c then a else b) := by
  split
  · exact ha
  · exact hb

/-! The same for results that carry a state. -/

variable {α β γ : Type} {m : Nat} {s0 : State}

def Keeps2 (m : Nat) (s : State) (x : α × State) : Prop := Keeps m s x.2
def Keeps3 (m : Nat) (s : State) (x : α × β × State) : Prop := Keeps m s x.2.2
def Keeps4 (m : Nat) (s : State) (x : α × β × γ × State) : Prop := Keeps m s x.2.2.2
def KeepsF (m : Nat) (s : State) (x : State × α) : Prop := Keeps m s x.1
def KeepsO (m : Nat) (s : State) (x : Option (α × State)) : Prop := ∀ y, x = some y → Keeps m s y.2
def KeepsR (m : Nat) (s : State) (r : Res) : Prop := ∀ t, r = .next t → Keeps m s t

theorem Keeps2.ite {a b : α × State} {c : Prop} [Decidable c] (ha : Keeps2 m s0 a) (hb : Keeps2 m s0 b) :
    Keeps2 m s0 (if c then a else b) := by
  split
  · exact ha
  · exact hb

theorem Keeps3.ite {a b : α × β × State} {c : Prop} [Decidable c] (ha : Keeps3 m s0 a) (hb : Keeps3 m s0 b) :
    Keeps3 m s0 (if c then a else b) := by
  split
  · exact ha
  · exact hb

theorem Keeps4.ite {a b : α × β × γ × State} {c : Prop} [Decidable c] (ha : Keeps4 m s0 a) (hb : Keeps4 m s0 b) :
    Keeps4 m s0 (if c then a else b) := by
  split
  · exact ha
  · exact hb

theorem KeepsF.ite {a b : State × α} {c : Prop} [Decidable c] (ha : KeepsF m s0 a) (hb : KeepsF m s0 b) :
    KeepsF m s0 (if c then a else b) := by
  split
  · exact ha
  · exact hb

theorem KeepsO.ite {a b : Option (α × State)} {c : Prop} [Decidable c] (ha : KeepsO m s0 a) (hb : KeepsO m s0 b) :
    KeepsO m s0 (if c then a else b) := by
  split
  · exact ha
  · exact hb

theorem KeepsR.ite {a b : Res} {c : Prop} [Decidable c] (ha : KeepsR m s0 a) (hb : KeepsR m s0 b) :
    KeepsR m s0 (if c then a else b) := by
  split
  · exact ha
  · exact hb

theorem KeepsR.next {t : State} (h : Keeps m s0 t) : KeepsR m s0 (.next t) := by
  intro u hu
  cases hu
  exact h

theorem KeepsR.fault {f : Fault} : KeepsR m s0 (.fault f) := by
  intro u hu
  cases hu

theorem KeepsO.none : KeepsO m s0 (Option.none : Option (α × State)) := by
  intro u hu
  cases hu

theorem KeepsO.some {x : α × State} (h : Keeps2 m s0 x) : KeepsO m s0 (Option.some x) := by
  intro u hu
  cases hu
  exact h

theorem Keeps2.mk {a : α} {t : State} (h : Keeps m s0 t) : Keeps2 m s0 (a, t) := h
theorem Keeps3.mk {a : α} {x : β × State} (h : Keeps2 m s0 x) : Keeps3 m s0 (a, x) := h
theorem Keeps4.mk {a : α} {x : β × γ × State} (h : Keeps3 m s0 x) : Keeps4 m s0 (a, x) := h
theorem KeepsF.mk {a : α} {t : State} (h : Keeps m s0 t) : KeepsF m s0 (t, a) := h
theorem Keeps2.snd {x : α × State} (h : Keeps2 m s0 x) : Keeps m s0 x.2 := h
theorem Keeps3.snd {x : α × β × State} (h : Keeps3 m s0 x) : Keeps2 m s0 x.2 := h
theorem Keeps4.snd {x : α × β × γ × State} (h : Keeps4 m s0 x) : Keeps3 m s0 x.2 := h
theorem KeepsF.fst {x : State × α} (h : KeepsF m s0 x) : Keeps m s0 x.1 := h

theorem Keeps2.elim {x : α × State} {a : α} {t : State} {P : Prop} (e : x = (a, t)) (h : Keeps2 m s0 x) (k : Keeps m s0 t → P) : P := by
  subst e
  exact k h
theorem Keeps3.elim {x : α × β × State} {a : α} {b : β} {t : State} {P : Prop} (e : x = (a, b, t)) (h : Keeps3 m s0 x)
    (k : Keeps m s0 t → P) : P := by
  subst e
  exact k h
theorem Keeps4.elim {x : α × β × γ × State} {a : α} {b : β} {c : γ} {t : State} {P : Prop} (e : x = (a, b, c, t)) (h : Keeps4 m s0 x)
    (k : Keeps m s0 t → P) : P := by
  subst e
  exact k h
theorem KeepsF.elim {x : State × α} {a : α} {t : State} {P : Prop} (e : x = (t, a)) (h : KeepsF m s0 x) (k : Keeps m s0 t → P) : P := by
  subst e
  exact k h
theorem KeepsO.elim {x : Option (α × State)} {a : α} {t : State} {P : Prop} (e : x = Option.some (a, t)) (h : KeepsO m s0 x)
    (k : Keeps m s0 t → P) : P := k (h _ e)

theorem Keeps.foldl {δ : Type} {f : State → δ → State} (hf : ∀ t a, Keeps m s0 t → Keeps m s0 (f t a)) (l : List δ) {t : State}
    (h : Keeps m s0 t) : Keeps m s0 (l.foldl f t) := by
  induction l generalizing t with
  | nil => exact h
  | cons a l ih => exact ih (hf t a h)

theorem Keeps2.foldl {δ : Type} {f : α × State → δ → α × State} (hf : ∀ x a, Keeps2 m s0 x → Keeps2 m s0 (f x a)) (l : List δ)
    {x : α × State} (h : Keeps2 m s0 x) : Keeps2 m s0 (l.foldl f x) := by
  induction l generalizing x with
  | nil => exact h
  | cons a l ih => exact ih (hf x a h)

theorem Keeps3.foldl {δ : Type} {f : α × β × State → δ → α × β × State} (hf : ∀ x a, Keeps3 m s0 x → Keeps3 m s0 (f x a)) (l : List δ)
    {x : α × β × State} (h : Keeps3 m s0 x) : Keeps3 m s0 (l.foldl f x) := by
  induction l generalizing x with
  | nil => exact h
  | cons a l ih => exact ih (hf x a h)

end Sys2Proof.Machine
end

