-- ==== Sys2Proof/Laws/KeepsOps.lean ====
section
/-! SUPPORT. `Keeps` for an update of one field of State, and for the operations every other operation is made of. -/
namespace Sys2Proof.Machine

-- One theorem at a time, so that the package as one text compiles within its memory limit.
set_option Elab.async false

variable {M : Nat} {s0 t : State}

theorem part_free (x : Nat) {i : Nat} (h : i ≠ 0) : ({ t with free := x }).part i = t.part i := by
  unfold State.part
  split <;> first | rfl | exact absurd rfl h

theorem Keeps.set_free {x : Nat} (hb : M.testBit 0 = false → False) (hw : t.free ≤ x) (h : Keeps M s0 t) : Keeps M s0 { t with free := x } :=
  { h with
    same := fun i b => (part_free x fun e => hb (e ▸ b)).trans (h.same i b)
    wf := fun w => let q := h.wf w; ⟨q.regs, q.ctrs, q.srcs, q.deep, q.nor⟩
    drawn := h.drawn.trans hw }

theorem part_regs (x : Tab Word) {i : Nat} (h : i ≠ 1) : ({ t with regs := x }).part i = t.part i := by
  unfold State.part
  split <;> first | rfl | exact absurd rfl h

theorem Keeps.set_regs {x : Tab Word} (hb : M.testBit 1 = false → False) (hw : Tab.wf regReset t.regs = true → Tab.wf regReset x = true) (h : Keeps M s0 t) : Keeps M s0 { t with regs := x } :=
  { h with
    same := fun i b => (part_regs x fun e => hb (e ▸ b)).trans (h.same i b)
    wf := fun w => let q := h.wf w; ⟨hw q.regs, q.ctrs, q.srcs, q.deep, q.nor⟩ }

theorem part_ctrs (x : Tab Ctr) {i : Nat} (h : i ≠ 2) : ({ t with ctrs := x }).part i = t.part i := by
  unfold State.part
  split <;> first | rfl | exact absurd rfl h

theorem Keeps.set_ctrs {x : Tab Ctr} (hb : M.testBit 2 = false → False) (hw : Tab.wf ctrZero t.ctrs = true → Tab.wf ctrZero x = true) (h : Keeps M s0 t) : Keeps M s0 { t with ctrs := x } :=
  { h with
    same := fun i b => (part_ctrs x fun e => hb (e ▸ b)).trans (h.same i b)
    wf := fun w => let q := h.wf w; ⟨q.regs, hw q.ctrs, q.srcs, q.deep, q.nor⟩ }

theorem part_ctrRc (x : Tab Bool) {i : Nat} (h : i ≠ 3) : ({ t with ctrRc := x }).part i = t.part i := by
  unfold State.part
  split <;> first | rfl | exact absurd rfl h

theorem Keeps.set_ctrRc {x : Tab Bool} (hb : M.testBit 3 = false → False) (h : Keeps M s0 t) : Keeps M s0 { t with ctrRc := x } :=
  { h with
    same := fun i b => (part_ctrRc x fun e => hb (e ▸ b)).trans (h.same i b)
    wf := fun w => let q := h.wf w; ⟨q.regs, q.ctrs, q.srcs, q.deep, q.nor⟩ }

theorem part_srcs (x : Tab SrcState) {i : Nat} (h : i ≠ 4) : ({ t with srcs := x }).part i = t.part i := by
  unfold State.part
  split <;> first | rfl | exact absurd rfl h

theorem Keeps.set_srcs {x : Tab SrcState} (hb : M.testBit 4 = false → False) (hw : Tab.wf (fun _ => SrcState.idle) t.srcs = true → Tab.wf (fun _ => SrcState.idle) x = true) (h : Keeps M s0 t) : Keeps M s0 { t with srcs := x } :=
  { h with
    same := fun i b => (part_srcs x fun e => hb (e ▸ b)).trans (h.same i b)
    wf := fun w => let q := h.wf w; ⟨q.regs, q.ctrs, hw q.srcs, q.deep, q.nor⟩ }

theorem part_lastRead (x : Word) {i : Nat} (h : i ≠ 5) : ({ t with lastRead := x }).part i = t.part i := by
  unfold State.part
  split <;> first | rfl | exact absurd rfl h

theorem Keeps.set_lastRead {x : Word} (hb : M.testBit 5 = false → False) (h : Keeps M s0 t) : Keeps M s0 { t with lastRead := x } :=
  { h with
    same := fun i b => (part_lastRead x fun e => hb (e ▸ b)).trans (h.same i b)
    wf := fun w => let q := h.wf w; ⟨q.regs, q.ctrs, q.srcs, q.deep, q.nor⟩ }

theorem part_ports (x : Tab LinePort) {i : Nat} (h : i ≠ 6) : ({ t with ports := x }).part i = t.part i := by
  unfold State.part
  split <;> first | rfl | exact absurd rfl h

theorem Keeps.set_ports {x : Tab LinePort} (hb : M.testBit 6 = false → False) (h : Keeps M s0 t) : Keeps M s0 { t with ports := x } :=
  { h with
    same := fun i b => (part_ports x fun e => hb (e ▸ b)).trans (h.same i b)
    wf := fun w => let q := h.wf w; ⟨q.regs, q.ctrs, q.srcs, q.deep, q.nor⟩ }

theorem part_tolger (x : Tab TolgerDir) {i : Nat} (h : i ≠ 7) : ({ t with tolger := x }).part i = t.part i := by
  unfold State.part
  split <;> first | rfl | exact absurd rfl h

theorem Keeps.set_tolger {x : Tab TolgerDir} (hb : M.testBit 7 = false → False) (h : Keeps M s0 t) : Keeps M s0 { t with tolger := x } :=
  { h with
    same := fun i b => (part_tolger x fun e => hb (e ▸ b)).trans (h.same i b)
    wf := fun w => let q := h.wf w; ⟨q.regs, q.ctrs, q.srcs, q.deep, q.nor⟩ }

theorem part_domains (x : Tab Domain) {i : Nat} (h : i ≠ 8) : ({ t with domains := x }).part i = t.part i := by
  unfold State.part
  split <;> first | rfl | exact absurd rfl h

theorem Keeps.set_domains {x : Tab Domain} (hb : M.testBit 8 = false → False) (h : Keeps M s0 t) : Keeps M s0 { t with domains := x } :=
  { h with
    same := fun i b => (part_domains x fun e => hb (e ▸ b)).trans (h.same i b)
    wf := fun w => let q := h.wf w; ⟨q.regs, q.ctrs, q.srcs, q.deep, q.nor⟩ }

theorem part_topo (x : Topo) {i : Nat} (h : i ≠ 9) : ({ t with topo := x }).part i = t.part i := by
  unfold State.part
  split <;> first | rfl | exact absurd rfl h

theorem Keeps.set_topo {x : Topo} (hb : M.testBit 9 = false → False) (h : Keeps M s0 t) : Keeps M s0 { t with topo := x } :=
  { h with
    same := fun i b => (part_topo x fun e => hb (e ▸ b)).trans (h.same i b)
    wf := fun w => let q := h.wf w; ⟨q.regs, q.ctrs, q.srcs, q.deep, q.nor⟩ }

theorem part_comb (x : Comb) {i : Nat} (h : i ≠ 10) : ({ t with comb := x }).part i = t.part i := by
  unfold State.part
  split <;> first | rfl | exact absurd rfl h

theorem Keeps.set_comb {x : Comb} (hb : M.testBit 10 = false → False) (h : Keeps M s0 t) : Keeps M s0 { t with comb := x } :=
  { h with
    same := fun i b => (part_comb x fun e => hb (e ▸ b)).trans (h.same i b)
    wf := fun w => let q := h.wf w; ⟨q.regs, q.ctrs, q.srcs, q.deep, q.nor⟩ }

theorem part_sched (x : Sched) {i : Nat} (h : i ≠ 11) : ({ t with sched := x }).part i = t.part i := by
  unfold State.part
  split <;> first | rfl | exact absurd rfl h

theorem Keeps.set_sched {x : Sched} (hb : M.testBit 11 = false → False) (h : Keeps M s0 t) : Keeps M s0 { t with sched := x } :=
  { h with
    same := fun i b => (part_sched x fun e => hb (e ▸ b)).trans (h.same i b)
    wf := fun w => let q := h.wf w; ⟨q.regs, q.ctrs, q.srcs, q.deep, q.nor⟩ }

theorem part_tuns (x : Tunnels) {i : Nat} (h : i ≠ 12) : ({ t with tuns := x }).part i = t.part i := by
  unfold State.part
  split <;> first | rfl | exact absurd rfl h

theorem Keeps.set_tuns {x : Tunnels} (hb : M.testBit 12 = false → False) (h : Keeps M s0 t) : Keeps M s0 { t with tuns := x } :=
  { h with
    same := fun i b => (part_tuns x fun e => hb (e ▸ b)).trans (h.same i b)
    wf := fun w => let q := h.wf w; ⟨q.regs, q.ctrs, q.srcs, q.deep, q.nor⟩ }

theorem part_brg (x : Bridge) {i : Nat} (h : i ≠ 13) : ({ t with brg := x }).part i = t.part i := by
  unfold State.part
  split <;> first | rfl | exact absurd rfl h

theorem Keeps.set_brg {x : Bridge} (hb : M.testBit 13 = false → False) (h : Keeps M s0 t) : Keeps M s0 { t with brg := x } :=
  { h with
    same := fun i b => (part_brg x fun e => hb (e ▸ b)).trans (h.same i b)
    wf := fun w => let q := h.wf w; ⟨q.regs, q.ctrs, q.srcs, q.deep, q.nor⟩ }

theorem part_cmd (x : Cmd) {i : Nat} (h : i ≠ 14) : ({ t with cmd := x }).part i = t.part i := by
  unfold State.part
  split <;> first | rfl | exact absurd rfl h

theorem Keeps.set_cmd {x : Cmd} (hb : M.testBit 14 = false → False) (h : Keeps M s0 t) : Keeps M s0 { t with cmd := x } :=
  { h with
    same := fun i b => (part_cmd x fun e => hb (e ▸ b)).trans (h.same i b)
    wf := fun w => let q := h.wf w; ⟨q.regs, q.ctrs, q.srcs, q.deep, q.nor⟩ }

theorem part_deep (x : Tab Byte) {i : Nat} (h : i ≠ 15) : ({ t with deep := x }).part i = t.part i := by
  unfold State.part
  split <;> first | rfl | exact absurd rfl h

theorem Keeps.set_deep {x : Tab Byte} (hb : M.testBit 15 = false → False) (hw : Tab.wf deepDefault t.deep = true → Tab.wf deepDefault x = true) (h : Keeps M s0 t) : Keeps M s0 { t with deep := x } :=
  { h with
    same := fun i b => (part_deep x fun e => hb (e ▸ b)).trans (h.same i b)
    wf := fun w => let q := h.wf w; ⟨q.regs, q.ctrs, q.srcs, hw q.deep, q.nor⟩ }

theorem part_lt (x : Nat) {i : Nat} (h : i ≠ 16) : ({ t with lt := x }).part i = t.part i := by
  unfold State.part
  split <;> first | rfl | exact absurd rfl h

theorem Keeps.set_lt {x : Nat} (hb : M.testBit 16 = false → False) (h : Keeps M s0 t) : Keeps M s0 { t with lt := x } :=
  { h with
    same := fun i b => (part_lt x fun e => hb (e ▸ b)).trans (h.same i b)
    wf := fun w => let q := h.wf w; ⟨q.regs, q.ctrs, q.srcs, q.deep, q.nor⟩ }

theorem part_diag (x : Diag) {i : Nat} (h : i ≠ 17) : ({ t with diag := x }).part i = t.part i := by
  unfold State.part
  split <;> first | rfl | exact absurd rfl h

theorem Keeps.set_diag {x : Diag} (hb : M.testBit 17 = false → False) (h : Keeps M s0 t) : Keeps M s0 { t with diag := x } :=
  { h with
    same := fun i b => (part_diag x fun e => hb (e ▸ b)).trans (h.same i b)
    wf := fun w => let q := h.wf w; ⟨q.regs, q.ctrs, q.srcs, q.deep, q.nor⟩ }

theorem part_time (x : TimeSt) {i : Nat} (h : i ≠ 18) : ({ t with time := x }).part i = t.part i := by
  unfold State.part
  split <;> first | rfl | exact absurd rfl h

theorem Keeps.set_time {x : TimeSt} (hb : M.testBit 18 = false → False) (h : Keeps M s0 t) : Keeps M s0 { t with time := x } :=
  { h with
    same := fun i b => (part_time x fun e => hb (e ▸ b)).trans (h.same i b)
    wf := fun w => let q := h.wf w; ⟨q.regs, q.ctrs, q.srcs, q.deep, q.nor⟩ }

theorem part_otp (x : Otp) {i : Nat} (h : i ≠ 19) : ({ t with otp := x }).part i = t.part i := by
  unfold State.part
  split <;> first | rfl | exact absurd rfl h

theorem Keeps.set_otp {x : Otp} (hb : M.testBit 19 = false → False) (hw : OtpForward t.otp x) (h : Keeps M s0 t) : Keeps M s0 { t with otp := x } :=
  { h with
    same := fun i b => (part_otp x fun e => hb (e ▸ b)).trans (h.same i b)
    wf := fun w => let q := h.wf w; ⟨q.regs, q.ctrs, q.srcs, q.deep, q.nor⟩
    otpForward := h.otpForward.trans hw }

theorem part_trig (x : Tab TrigPin) {i : Nat} (h : i ≠ 20) : ({ t with trig := x }).part i = t.part i := by
  unfold State.part
  split <;> first | rfl | exact absurd rfl h

theorem Keeps.set_trig {x : Tab TrigPin} (hb : M.testBit 20 = false → False) (h : Keeps M s0 t) : Keeps M s0 { t with trig := x } :=
  { h with
    same := fun i b => (part_trig x fun e => hb (e ▸ b)).trans (h.same i b)
    wf := fun w => let q := h.wf w; ⟨q.regs, q.ctrs, q.srcs, q.deep, q.nor⟩ }

theorem part_trims (x : Tab Int) {i : Nat} (h : i ≠ 21) : ({ t with trims := x }).part i = t.part i := by
  unfold State.part
  split <;> first | rfl | exact absurd rfl h

theorem Keeps.set_trims {x : Tab Int} (hb : M.testBit 21 = false → False) (h : Keeps M s0 t) : Keeps M s0 { t with trims := x } :=
  { h with
    same := fun i b => (part_trims x fun e => hb (e ▸ b)).trans (h.same i b)
    wf := fun w => let q := h.wf w; ⟨q.regs, q.ctrs, q.srcs, q.deep, q.nor⟩ }

theorem part_tcp (x : Tab TcPort) {i : Nat} (h : i ≠ 22) : ({ t with tcp := x }).part i = t.part i := by
  unfold State.part
  split <;> first | rfl | exact absurd rfl h

theorem Keeps.set_tcp {x : Tab TcPort} (hb : M.testBit 22 = false → False) (h : Keeps M s0 t) : Keeps M s0 { t with tcp := x } :=
  { h with
    same := fun i b => (part_tcp x fun e => hb (e ▸ b)).trans (h.same i b)
    wf := fun w => let q := h.wf w; ⟨q.regs, q.ctrs, q.srcs, q.deep, q.nor⟩ }

theorem part_svcSink (x : SvcSink) {i : Nat} (h : i ≠ 23) : ({ t with svcSink := x }).part i = t.part i := by
  unfold State.part
  split <;> first | rfl | exact absurd rfl h

theorem Keeps.set_svcSink {x : SvcSink} (hb : M.testBit 23 = false → False) (h : Keeps M s0 t) : Keeps M s0 { t with svcSink := x } :=
  { h with
    same := fun i b => (part_svcSink x fun e => hb (e ▸ b)).trans (h.same i b)
    wf := fun w => let q := h.wf w; ⟨q.regs, q.ctrs, q.srcs, q.deep, q.nor⟩ }

theorem part_pdTables (x : Tab PdTables) {i : Nat} (h : i ≠ 24) : ({ t with pdTables := x }).part i = t.part i := by
  unfold State.part
  split <;> first | rfl | exact absurd rfl h

theorem Keeps.set_pdTables {x : Tab PdTables} (hb : M.testBit 24 = false → False) (h : Keeps M s0 t) : Keeps M s0 { t with pdTables := x } :=
  { h with
    same := fun i b => (part_pdTables x fun e => hb (e ▸ b)).trans (h.same i b)
    wf := fun w => let q := h.wf w; ⟨q.regs, q.ctrs, q.srcs, q.deep, q.nor⟩ }

theorem part_proxies (x : Tab Proxy) {i : Nat} (h : i ≠ 25) : ({ t with proxies := x }).part i = t.part i := by
  unfold State.part
  split <;> first | rfl | exact absurd rfl h

theorem Keeps.set_proxies {x : Tab Proxy} (hb : M.testBit 25 = false → False) (h : Keeps M s0 t) : Keeps M s0 { t with proxies := x } :=
  { h with
    same := fun i b => (part_proxies x fun e => hb (e ▸ b)).trans (h.same i b)
    wf := fun w => let q := h.wf w; ⟨q.regs, q.ctrs, q.srcs, q.deep, q.nor⟩ }

theorem part_svcDev (x : SvcDev) {i : Nat} (h : i ≠ 26) : ({ t with svcDev := x }).part i = t.part i := by
  unfold State.part
  split <;> first | rfl | exact absurd rfl h

theorem Keeps.set_svcDev {x : SvcDev} (hb : M.testBit 26 = false → False) (h : Keeps M s0 t) : Keeps M s0 { t with svcDev := x } :=
  { h with
    same := fun i b => (part_svcDev x fun e => hb (e ▸ b)).trans (h.same i b)
    wf := fun w => let q := h.wf w; ⟨q.regs, q.ctrs, q.srcs, q.deep, q.nor⟩ }

theorem part_heads (x : Tab Head) {i : Nat} (h : i ≠ 27) : ({ t with heads := x }).part i = t.part i := by
  unfold State.part
  split <;> first | rfl | exact absurd rfl h

theorem Keeps.set_heads {x : Tab Head} (hb : M.testBit 27 = false → False) (h : Keeps M s0 t) : Keeps M s0 { t with heads := x } :=
  { h with
    same := fun i b => (part_heads x fun e => hb (e ▸ b)).trans (h.same i b)
    wf := fun w => let q := h.wf w; ⟨q.regs, q.ctrs, q.srcs, q.deep, q.nor⟩ }

theorem part_timings (x : List (List Byte)) {i : Nat} (h : i ≠ 28) : ({ t with timings := x }).part i = t.part i := by
  unfold State.part
  split <;> first | rfl | exact absurd rfl h

theorem Keeps.set_timings {x : List (List Byte)} (hb : M.testBit 28 = false → False) (h : Keeps M s0 t) : Keeps M s0 { t with timings := x } :=
  { h with
    same := fun i b => (part_timings x fun e => hb (e ▸ b)).trans (h.same i b)
    wf := fun w => let q := h.wf w; ⟨q.regs, q.ctrs, q.srcs, q.deep, q.nor⟩ }

theorem part_tols (x : Tab (Nat × Nat)) {i : Nat} (h : i ≠ 29) : ({ t with tols := x }).part i = t.part i := by
  unfold State.part
  split <;> first | rfl | exact absurd rfl h

theorem Keeps.set_tols {x : Tab (Nat × Nat)} (hb : M.testBit 29 = false → False) (h : Keeps M s0 t) : Keeps M s0 { t with tols := x } :=
  { h with
    same := fun i b => (part_tols x fun e => hb (e ▸ b)).trans (h.same i b)
    wf := fun w => let q := h.wf w; ⟨q.regs, q.ctrs, q.srcs, q.deep, q.nor⟩ }

theorem part_dpLine (x : Tab (List Byte)) {i : Nat} (h : i ≠ 30) : ({ t with dpLine := x }).part i = t.part i := by
  unfold State.part
  split <;> first | rfl | exact absurd rfl h

theorem Keeps.set_dpLine {x : Tab (List Byte)} (hb : M.testBit 30 = false → False) (h : Keeps M s0 t) : Keeps M s0 { t with dpLine := x } :=
  { h with
    same := fun i b => (part_dpLine x fun e => hb (e ▸ b)).trans (h.same i b)
    wf := fun w => let q := h.wf w; ⟨q.regs, q.ctrs, q.srcs, q.deep, q.nor⟩ }

theorem part_eths (x : Tab EthPort) {i : Nat} (h : i ≠ 31) : ({ t with eths := x }).part i = t.part i := by
  unfold State.part
  split <;> first | rfl | exact absurd rfl h

theorem Keeps.set_eths {x : Tab EthPort} (hb : M.testBit 31 = false → False) (h : Keeps M s0 t) : Keeps M s0 { t with eths := x } :=
  { h with
    same := fun i b => (part_eths x fun e => hb (e ▸ b)).trans (h.same i b)
    wf := fun w => let q := h.wf w; ⟨q.regs, q.ctrs, q.srcs, q.deep, q.nor⟩ }

theorem part_etm (x : Tab Word) {i : Nat} (h : i ≠ 32) : ({ t with etm := x }).part i = t.part i := by
  unfold State.part
  split <;> first | rfl | exact absurd rfl h

theorem Keeps.set_etm {x : Tab Word} (hb : M.testBit 32 = false → False) (h : Keeps M s0 t) : Keeps M s0 { t with etm := x } :=
  { h with
    same := fun i b => (part_etm x fun e => hb (e ▸ b)).trans (h.same i b)
    wf := fun w => let q := h.wf w; ⟨q.regs, q.ctrs, q.srcs, q.deep, q.nor⟩ }

theorem part_hostIf (x : HostIf) {i : Nat} (h : i ≠ 33) : ({ t with hostIf := x }).part i = t.part i := by
  unfold State.part
  split <;> first | rfl | exact absurd rfl h

theorem Keeps.set_hostIf {x : HostIf} (hb : M.testBit 33 = false → False) (h : Keeps M s0 t) : Keeps M s0 { t with hostIf := x } :=
  { h with
    same := fun i b => (part_hostIf x fun e => hb (e ▸ b)).trans (h.same i b)
    wf := fun w => let q := h.wf w; ⟨q.regs, q.ctrs, q.srcs, q.deep, q.nor⟩ }

theorem part_efuses (x : Tab EFuse) {i : Nat} (h : i ≠ 34) : ({ t with efuses := x }).part i = t.part i := by
  unfold State.part
  split <;> first | rfl | exact absurd rfl h

theorem Keeps.set_efuses {x : Tab EFuse} (hb : M.testBit 34 = false → False) (h : Keeps M s0 t) : Keeps M s0 { t with efuses := x } :=
  { h with
    same := fun i b => (part_efuses x fun e => hb (e ▸ b)).trans (h.same i b)
    wf := fun w => let q := h.wf w; ⟨q.regs, q.ctrs, q.srcs, q.deep, q.nor⟩ }

theorem part_nurse (x : Nurse) {i : Nat} (h : i ≠ 35) : ({ t with nurse := x }).part i = t.part i := by
  unfold State.part
  split <;> first | rfl | exact absurd rfl h

theorem Keeps.set_nurse {x : Nurse} (hb : M.testBit 35 = false → False) (h : Keeps M s0 t) : Keeps M s0 { t with nurse := x } :=
  { h with
    same := fun i b => (part_nurse x fun e => hb (e ▸ b)).trans (h.same i b)
    wf := fun w => let q := h.wf w; ⟨q.regs, q.ctrs, q.srcs, q.deep, q.nor⟩ }

theorem part_tests (x : Tests) {i : Nat} (h : i ≠ 36) : ({ t with tests := x }).part i = t.part i := by
  unfold State.part
  split <;> first | rfl | exact absurd rfl h

theorem Keeps.set_tests {x : Tests} (hb : M.testBit 36 = false → False) (h : Keeps M s0 t) : Keeps M s0 { t with tests := x } :=
  { h with
    same := fun i b => (part_tests x fun e => hb (e ▸ b)).trans (h.same i b)
    wf := fun w => let q := h.wf w; ⟨q.regs, q.ctrs, q.srcs, q.deep, q.nor⟩ }

theorem part_img (x : Img) {i : Nat} (h : i ≠ 37) : ({ t with img := x }).part i = t.part i := by
  unfold State.part
  split <;> first | rfl | exact absurd rfl h

theorem Keeps.set_img {x : Img} (hb : M.testBit 37 = false → False) (h : Keeps M s0 t) : Keeps M s0 { t with img := x } :=
  { h with
    same := fun i b => (part_img x fun e => hb (e ▸ b)).trans (h.same i b)
    wf := fun w => let q := h.wf w; ⟨q.regs, q.ctrs, q.srcs, q.deep, q.nor⟩ }

theorem part_nor (x : Tab Byte) {i : Nat} (h : i ≠ 38) : ({ t with nor := x }).part i = t.part i := by
  unfold State.part
  split <;> first | rfl | exact absurd rfl h

theorem Keeps.set_nor {x : Tab Byte} (hb : M.testBit 38 = false → False) (hw : Tab.wf norDefault t.nor = true → Tab.wf norDefault x = true) (h : Keeps M s0 t) : Keeps M s0 { t with nor := x } :=
  { h with
    same := fun i b => (part_nor x fun e => hb (e ▸ b)).trans (h.same i b)
    wf := fun w => let q := h.wf w; ⟨q.regs, q.ctrs, q.srcs, q.deep, hw q.nor⟩ }

theorem part_supplyHold (x : Bool) {i : Nat} (h : i ≠ 39) : ({ t with supplyHold := x }).part i = t.part i := by
  unfold State.part
  split <;> first | rfl | exact absurd rfl h

theorem Keeps.set_supplyHold {x : Bool} (hb : M.testBit 39 = false → False) (h : Keeps M s0 t) : Keeps M s0 { t with supplyHold := x } :=
  { h with
    same := fun i b => (part_supplyHold x fun e => hb (e ▸ b)).trans (h.same i b)
    wf := fun w => let q := h.wf w; ⟨q.regs, q.ctrs, q.srcs, q.deep, q.nor⟩ }

/-! Options. -/

def KeepsP (m : Nat) (s : State) (x : Option State) : Prop := ∀ y, x = some y → Keeps m s y

theorem KeepsP.none : KeepsP M s0 Option.none := by
  intro u hu
  cases hu

theorem KeepsP.some (h : Keeps M s0 t) : KeepsP M s0 (Option.some t) := by
  intro u hu
  cases hu
  exact h

theorem KeepsP.ite {a b : Option State} {c : Prop} [Decidable c] (ha : KeepsP M s0 a) (hb : KeepsP M s0 b) :
    KeepsP M s0 (if c then a else b) := by
  split
  · exact ha
  · exact hb

theorem KeepsP.elim {x : Option State} {u : State} {P : Prop} (e : x = Option.some u) (h : KeepsP M s0 x) (k : Keeps M s0 u → P) : P :=
  k (h _ e)

theorem KeepsR.elim {x : Res} {u : State} {P : Prop} (e : x = .next u) (h : KeepsR M s0 x) (k : Keeps M s0 u → P) : P := k (h _ e)

theorem KeepsP.getD {x : Option State} {d : State} (h : KeepsP M s0 x) (hd : Keeps M s0 d) : Keeps M s0 (x.getD d) := by
  cases x with
  | none => exact hd
  | some u => exact h u rfl

theorem KeepsO.getD {α : Type} {x : Option (α × State)} {d : α × State} (h : KeepsO M s0 x) (hd : Keeps2 M s0 d) : Keeps2 M s0 (x.getD d) := by
  cases x with
  | none => exact hd
  | some u => exact h u rfl

theorem KeepsP.map {α : Type} {x : Option α} {f : α → State} (h : ∀ a, Keeps M s0 (f a)) : KeepsP M s0 (x.map f) := by
  cases x with
  | none => exact KeepsP.none
  | some u => exact KeepsP.some (h u)

theorem KeepsO.map {α β : Type} {x : Option α} {f : α → β × State} (h : ∀ a, Keeps2 M s0 (f a)) : KeepsO M s0 (x.map f) := by
  cases x with
  | none => exact KeepsO.none
  | some u => exact KeepsO.some (h u)

theorem KeepsO.orElse {α : Type} {x : Option (α × State)} {y : Unit → Option (α × State)} (h : KeepsO M s0 x) (k : ∀ u, KeepsO M s0 (y u)) :
    KeepsO M s0 (x.orElse y) := by
  cases x with
  | none => exact k ()
  | some u => exact h

/-! One-time memory. -/

/-- A hash goes into an EMPTY slot. -/
theorem OtpForward.program {a : Otp} {i : Nat} {v : BitVec 256} (h : Tab.get zeroN a.st i = 0) :
    OtpForward a { a with hash := Tab.set (fun _ => (0 : BitVec 256)) i v a.hash, st := Tab.set zeroN i 1 a.st } := by
  refine ⟨id, fun j hj => ?_, fun j hj => ?_, fun j hj => ?_⟩
  · have hij : j ≠ i := by
      rintro rfl
      omega
    rw [Tab.get_set_other zeroN hij]
    exact hj
  · rw [Tab.get_set]
    split
    · decide
    · exact hj
  · have hij : j ≠ i := by
      rintro rfl
      exact hj h
    exact Tab.get_set_other _ hij _ _

/-- A slot is revoked. -/
theorem OtpForward.revoke {a : Otp} {i : Nat} : OtpForward a { a with st := Tab.set zeroN i 2 a.st } := by
  refine ⟨id, fun j hj => ?_, fun j hj => ?_, fun _ _ => rfl⟩
  · rw [Tab.get_set]
    split
    · rfl
    · exact hj
  · rw [Tab.get_set]
    split
    · decide
    · exact hj

/-- OWNONLY is set. -/
theorem OtpForward.own {a : Otp} : OtpForward a { a with ownOnly := true } :=
  ⟨fun _ => rfl, fun _ h => h, fun _ h => h, fun _ _ => rfl⟩

/-! Operations. -/

theorem regSet_keeps {k : Nat} {v : Word} (hM : 2 ||| M = M) (h : Keeps M s0 t) : Keeps M s0 (regSet t k v) :=
  Keeps.set_regs (hit hM rfl) (Tab.wf_set _ _ _) h

theorem setSrc_keeps {n : Nat} {x : SrcState} (hM : 16 ||| M = M) (h : Keeps M s0 t) : Keeps M s0 (setSrc n x t) :=
  Keeps.set_srcs (hit hM rfl) (Tab.wf_set _ _ _) h

theorem ctrSet_keeps {a : Nat} {c : Ctr} (hM : 4 ||| M = M) (h : Keeps M s0 t) : Keeps M s0 (ctrSet a c t) :=
  Keeps.set_ctrs (hit hM rfl) (Tab.wf_set _ _ _) h

theorem deepWrites_keeps {a : Nat} {l : List Byte} (hM : 32768 ||| M = M) (h : Keeps M s0 t) : Keeps M s0 (deepWrites a l t) :=
  Keeps.set_deep (hit hM rfl) (Tab.wf_setMany _ _ _) h

theorem norErase_keeps {a n : Nat} (hM : 274877906944 ||| M = M) (h : Keeps M s0 t) : Keeps M s0 (norErase a n t) :=
  Keeps.set_nor (hit hM rfl) (Tab.wf_keep _ _) h

theorem norProgram_keeps {a : Nat} {l : List Byte} (hM : 274877906944 ||| M = M) (h : Keeps M s0 t) : Keeps M s0 (norProgram a l t) :=
  Keeps.set_nor (hit hM rfl) (Tab.wf_setMany _ _ _) h

theorem drawFree_keeps (hM : 1 ||| M = M) (h : Keeps M s0 t) : Keeps2 M s0 (drawFree t) :=
  Keeps.set_free (hit hM rfl) (Nat.le_succ _) h

theorem access_keeps {a : Nat} {f : State → State} (_ : 0 ||| M = M) (hf : ∀ u, Keeps M s0 u → Keeps M s0 (f u)) (h : Keeps M s0 t) :
    KeepsR M s0 (access a f t) := by
  unfold access
  exact KeepsR.ite (KeepsR.next (hf _ h)) (KeepsR.next h)

theorem forAll_keeps {α : Type} {l : List α} {f : α → State → State} (_ : 0 ||| M = M)
    (hf : ∀ a u, Keeps M s0 u → Keeps M s0 (f a u)) (h : Keeps M s0 t) : Keeps M s0 (forAll l f t) :=
  Keeps.foldl (fun u a hu => hf a u hu) l h

theorem times_keeps {n : Nat} {f : State → State} (_ : 0 ||| M = M) (hf : ∀ u, Keeps M s0 u → Keeps M s0 (f u)) (h : Keeps M s0 t) :
    Keeps M s0 (times n f t) := by
  induction n generalizing t with
  | zero => exact h
  | succ n ih => exact ih (hf _ h)

end Sys2Proof.Machine
end

