-- ==== Sys2Proof/Laws/KeepsLine.lean ====
section
/-! SUPPORT. `Keeps` for the operations and commands of line ports, cells and the link layer. A mask is the sum of 2^i over the fields of State that may
change, numbered as `Keeps` numbers them. -/
namespace Sys2Proof.Machine

-- One theorem at a time, so that the package as one text compiles within its memory limit.
set_option Elab.async false

/-! Ops. -/

theorem wr_keeps {M : Nat} {s0 : State} {a0 : Fld} {a1 : Nat} {a2 : State} (hM : 2 ||| M = M) (h0 : Keeps M s0 a2) :
    Keeps M s0 (wr a0 a1 a2) := by
  unfold wr
  refine regSet_keeps (sub hM rfl) ?_
  exact h0

theorem orF_keeps {M : Nat} {s0 : State} {a0 : Fld} {a1 : Nat} {a2 : State} (hM : 2 ||| M = M) (h0 : Keeps M s0 a2) :
    Keeps M s0 (orF a0 a1 a2) := by
  unfold orF
  refine wr_keeps (sub hM rfl) ?_
  exact h0

theorem setLp_keeps {M : Nat} {s0 : State} {a0 : Nat} {a1 : LinePort} {a2 : State} (hM : 64 ||| M = M) (h0 : Keeps M s0 a2) :
    Keeps M s0 (setLp a0 a1 a2) := by
  unfold setLp
  refine Keeps.set_ports (hit hM rfl) (?_)
  exact h0

theorem updLp_keeps {M : Nat} {s0 : State} {a0 : Nat} {a1 : LinePort → LinePort} {a2 : State} (hM : 64 ||| M = M) (h0 : Keeps M s0 a2) :
    Keeps M s0 (updLp a0 a1 a2) := by
  unfold updLp
  refine setLp_keeps (sub hM rfl) ?_
  exact h0

theorem updTx_keeps {M : Nat} {s0 : State} {a0 : Nat} {a1 : TxLink → TxLink} {a2 : State} (hM : 64 ||| M = M) (h0 : Keeps M s0 a2) :
    Keeps M s0 (updTx a0 a1 a2) := by
  unfold updTx
  refine updLp_keeps (sub hM rfl) ?_
  exact h0

theorem updRx_keeps {M : Nat} {s0 : State} {a0 : Nat} {a1 : RxLink → RxLink} {a2 : State} (hM : 64 ||| M = M) (h0 : Keeps M s0 a2) :
    Keeps M s0 (updRx a0 a1 a2) := by
  unfold updRx
  refine updLp_keeps (sub hM rfl) ?_
  exact h0

theorem setTolger_keeps {M : Nat} {s0 : State} {a0 : Nat} {a1 : Bool} {a2 : TolgerDir} {a3 : State} (hM : 128 ||| M = M) (h0 : Keeps M s0 a3) :
    Keeps M s0 (setTolger a0 a1 a2 a3) := by
  unfold setTolger
  refine Keeps.set_tolger (hit hM rfl) (?_)
  exact h0

theorem oweCredit_keeps {M : Nat} {s0 : State} {a0 : Nat} {a1 : Bool} {a2 : State} (hM : 128 ||| M = M) (h0 : Keeps M s0 a2) :
    Keeps M s0 (oweCredit a0 a1 a2) := by
  unfold oweCredit
  extract_lets +onlyGivenNames -lift x0
  clear_value x0
  refine Keeps.ite ?_ ?_
  · refine setTolger_keeps (sub hM rfl) ?_
    exact h0
  · exact h0

theorem setDom_keeps {M : Nat} {s0 : State} {a0 : Nat} {a1 : Domain} {a2 : State} (hM : 256 ||| M = M) (h0 : Keeps M s0 a2) :
    Keeps M s0 (setDom a0 a1 a2) := by
  unfold setDom
  refine Keeps.set_domains (hit hM rfl) (?_)
  exact h0

theorem updComb_keeps {M : Nat} {s0 : State} {a0 : Comb → Comb} {a1 : State} (hM : 1024 ||| M = M) (h0 : Keeps M s0 a1) :
    Keeps M s0 (updComb a0 a1) := by
  unfold updComb
  refine Keeps.set_comb (hit hM rfl) (?_)
  exact h0

theorem updTopo_keeps {M : Nat} {s0 : State} {a0 : Topo → Topo} {a1 : State} (hM : 512 ||| M = M) (h0 : Keeps M s0 a1) :
    Keeps M s0 (updTopo a0 a1) := by
  unfold updTopo
  refine Keeps.set_topo (hit hM rfl) (?_)
  exact h0

theorem updCmd_keeps {M : Nat} {s0 : State} {a0 : Cmd → Cmd} {a1 : State} (hM : 16384 ||| M = M) (h0 : Keeps M s0 a1) :
    Keeps M s0 (updCmd a0 a1) := by
  unfold updCmd
  refine Keeps.set_cmd (hit hM rfl) (?_)
  exact h0

theorem updBrg_keeps {M : Nat} {s0 : State} {a0 : Bridge → Bridge} {a1 : State} (hM : 8192 ||| M = M) (h0 : Keeps M s0 a1) :
    Keeps M s0 (updBrg a0 a1) := by
  unfold updBrg
  refine Keeps.set_brg (hit hM rfl) (?_)
  exact h0

theorem updTuns_keeps {M : Nat} {s0 : State} {a0 : Tunnels → Tunnels} {a1 : State} (hM : 4096 ||| M = M) (h0 : Keeps M s0 a1) :
    Keeps M s0 (updTuns a0 a1) := by
  unfold updTuns
  refine Keeps.set_tuns (hit hM rfl) (?_)
  exact h0

theorem updSched_keeps {M : Nat} {s0 : State} {a0 : Sched → Sched} {a1 : State} (hM : 2048 ||| M = M) (h0 : Keeps M s0 a1) :
    Keeps M s0 (updSched a0 a1) := by
  unfold updSched
  refine Keeps.set_sched (hit hM rfl) (?_)
  exact h0

theorem setHold_keeps {M : Nat} {s0 : State} {a0 : Nat} {a1 : List Held} {a2 : State} (hM : 1024 ||| M = M) (h0 : Keeps M s0 a2) :
    Keeps M s0 (setHold a0 a1 a2) := by
  unfold setHold
  refine updComb_keeps (sub hM rfl) ?_
  exact h0

theorem setOutQ_keeps {M : Nat} {s0 : State} {a0 : Nat} {a1 : List QEnt} {a2 : State} (hM : 1024 ||| M = M) (h0 : Keeps M s0 a2) :
    Keeps M s0 (setOutQ a0 a1 a2) := by
  unfold setOutQ
  refine updComb_keeps (sub hM rfl) ?_
  exact h0

theorem setPark_keeps {M : Nat} {s0 : State} {a0 : Nat} {a1 : List QEnt} {a2 : State} (hM : 1024 ||| M = M) (h0 : Keeps M s0 a2) :
    Keeps M s0 (setPark a0 a1 a2) := by
  unfold setPark
  refine updComb_keeps (sub hM rfl) ?_
  exact h0

/-! Flags. -/

theorem raise_keeps {M : Nat} {s0 : State} {a0 : Nat} {a1 : State} (hM : 16 ||| M = M) (h0 : Keeps M s0 a1) :
    Keeps M s0 (raise a0 a1) := by
  unfold raise
  refine Keeps.ite ?_ ?_
  · exact h0
  · split
    · refine setSrc_keeps (sub hM rfl) ?_
      exact h0
    · refine Keeps.ite ?_ ?_
      · exact h0
      · refine setSrc_keeps (sub hM rfl) ?_
        exact h0
    · exact h0

theorem msix_keeps {M : Nat} {s0 : State} {a0 : Nat} {a1 : State} (hM : 8589934592 ||| M = M) (h0 : Keeps M s0 a1) :
    Keeps M s0 (msix a0 a1) := by
  unfold msix
  extract_lets +onlyGivenNames -lift x0
  clear_value x0
  extract_lets +onlyGivenNames -lift x1
  clear_value x1
  refine Keeps.ite ?_ ?_
  · refine Keeps.ite ?_ ?_
    · refine Keeps.set_hostIf (hit hM rfl) (?_)
      exact h0
    · refine Keeps.set_hostIf (hit hM rfl) (?_)
      exact h0
  · exact h0

theorem logErr_keeps {M : Nat} {s0 : State} {a0 : Nat} {a1 : Nat} {a2 : Nat} {a3 : State} (hM : 131088 ||| M = M) (h0 : Keeps M s0 a3) :
    Keeps M s0 (logErr a0 a1 a2 a3) := by
  unfold logErr
  extract_lets +onlyGivenNames -lift x0
  extract_lets +onlyGivenNames -lift x1
  extract_lets +onlyGivenNames -lift x2
  extract_lets +onlyGivenNames -lift x3
  extract_lets +onlyGivenNames -lift x4
  extract_lets +onlyGivenNames -lift x5
  extract_lets +onlyGivenNames -lift x6
  extract_lets +onlyGivenNames -lift x7
  clear_value x7
  refine raise_keeps (sub hM rfl) ?_
  refine Keeps.set_diag (hit hM rfl) (?_)
  exact h0

theorem countBy_keeps {M : Nat} {s0 : State} {a0 : Nat} {a1 : Nat} {a2 : State} (hM : 131092 ||| M = M) (h0 : Keeps M s0 a2) :
    Keeps M s0 (countBy a0 a1 a2) := by
  unfold countBy
  extract_lets +onlyGivenNames -lift x0
  clear_value x0
  extract_lets +onlyGivenNames -lift x1
  have g2 : Keeps M s0 x1 := by
    refine ctrSet_keeps (sub hM rfl) ?_
    exact h0
  clear_value x1
  extract_lets +onlyGivenNames -lift x3
  clear_value x3
  refine Keeps.ite ?_ ?_
  · refine ctrSet_keeps (sub hM rfl) ?_
    exact h0
  · refine Keeps.ite ?_ ?_
    · exact h0
    · refine Keeps.ite ?_ ?_
      · refine ctrSet_keeps (sub hM rfl) ?_
        exact h0
      · refine logErr_keeps (sub hM rfl) ?_
        refine raise_keeps (sub hM rfl) ?_
        exact g2

theorem count_keeps {M : Nat} {s0 : State} {a0 : Nat} {a1 : State} (hM : 131092 ||| M = M) (h0 : Keeps M s0 a1) :
    Keeps M s0 (count a0 a1) := by
  unfold count
  refine countBy_keeps (sub hM rfl) ?_
  exact h0

/-! Cells. -/

theorem setTbl_keeps {M : Nat} {s0 : State} {a0 : Nat} {a1 : LdTable} {a2 : State} (hM : 512 ||| M = M) (h0 : Keeps M s0 a2) :
    Keeps M s0 (setTbl a0 a1 a2) := by
  unfold setTbl
  refine updTopo_keeps (sub hM rfl) ?_
  exact h0

theorem holdCells_keeps {M : Nat} {s0 : State} {a0 : Nat} {a1 : Bool} {a2 : List Cell} {a3 : State} (hM : 1024 ||| M = M) (h0 : Keeps M s0 a3) :
    Keeps M s0 (holdCells a0 a1 a2 a3) := by
  unfold holdCells
  refine setHold_keeps (sub hM rfl) ?_
  exact h0

theorem holdForced_keeps {M : Nat} {s0 : State} {a0 : List Nat} {a1 : Cell} {a2 : State} (hM : 1024 ||| M = M) (h0 : Keeps M s0 a2) :
    Keeps M s0 (holdForced a0 a1 a2) := by
  unfold holdForced
  refine setHold_keeps (sub hM rfl) ?_
  exact h0

theorem sendUnpoliced_keeps {M : Nat} {s0 : State} {a0 : Nat} {a1 : Nat} {a2 : Nat} {a3 : Nat} {a4 : Bool} {a5 : List Byte} {a6 : State} (hM : 1024 ||| M = M) (h0 : Keeps M s0 a6) :
    Keeps M s0 (sendUnpoliced a0 a1 a2 a3 a4 a5 a6) := by
  unfold sendUnpoliced
  refine holdCells_keeps (sub hM rfl) ?_
  exact h0

theorem sendPoliced_keeps {M : Nat} {s0 : State} {a0 : Nat} {a1 : Nat} {a2 : Nat} {a3 : Nat} {a4 : Bool} {a5 : List Byte} {a6 : State} (hM : 1024 ||| M = M) (h0 : Keeps M s0 a6) :
    Keeps M s0 (sendPoliced a0 a1 a2 a3 a4 a5 a6) := by
  unfold sendPoliced
  refine holdCells_keeps (sub hM rfl) ?_
  exact h0

/-! Line. -/

theorem setStack_keeps {M : Nat} {s0 : State} {a0 : Nat} {a1 : Stack} {a2 : State} (hM : 1024 ||| M = M) (h0 : Keeps M s0 a2) :
    Keeps M s0 (setStack a0 a1 a2) := by
  unfold setStack
  refine updComb_keeps (sub hM rfl) ?_
  exact h0

theorem takeAddr_keeps {M : Nat} {s0 : State} {a0 : Nat} {a1 : State} (hM : 1024 ||| M = M) (h0 : Keeps M s0 a1) :
    KeepsO M s0 (takeAddr a0 a1) := by
  unfold takeAddr
  extract_lets +onlyGivenNames -lift x0
  clear_value x0
  split
  · refine KeepsO.some ?_
    refine Keeps2.mk ?_
    refine setStack_keeps (sub hM rfl) ?_
    exact h0
  · refine KeepsO.ite ?_ ?_
    · refine KeepsO.some ?_
      refine Keeps2.mk ?_
      refine setStack_keeps (sub hM rfl) ?_
      exact h0
    · exact KeepsO.none

theorem holdBank_keeps {M : Nat} {s0 : State} {a0 : Nat} {a1 : State} (hM : 1024 ||| M = M) (h0 : Keeps M s0 a1) :
    Keeps M s0 (holdBank a0 a1) := by
  unfold holdBank
  refine updComb_keeps (sub hM rfl) ?_
  exact h0

theorem takeWrite_keeps {M : Nat} {s0 : State} {a0 : State} (hM : 1024 ||| M = M) (h0 : Keeps M s0 a0) :
    KeepsO M s0 (takeWrite a0) := by
  unfold takeWrite
  intro y e
  simp only [Option.bind_eq_some_iff, Option.map_eq_some_iff] at e
  obtain ⟨b, _, r, hr, rfl⟩ := e
  exact holdBank_keeps (sub hM rfl) (takeAddr_keeps (sub hM rfl) h0 r hr)

theorem takeSpare_keeps {M : Nat} {s0 : State} {a0 : State} (hM : 1024 ||| M = M) (h0 : Keeps M s0 a0) :
    KeepsO M s0 (takeSpare a0) := by
  unfold takeSpare
  intro y e
  simp only [Option.bind_eq_some_iff] at e
  obtain ⟨b, _, e⟩ := e
  exact takeAddr_keeps (sub hM rfl) h0 y e

theorem freeAddr_keeps {M : Nat} {s0 : State} {a0 : Nat} {a1 : State} (hM : 1024 ||| M = M) (h0 : Keeps M s0 a1) :
    Keeps M s0 (freeAddr a0 a1) := by
  unfold freeAddr
  extract_lets +onlyGivenNames -lift x0
  clear_value x0
  extract_lets +onlyGivenNames -lift x1
  clear_value x1
  refine Keeps.ite ?_ ?_
  · refine setStack_keeps (sub hM rfl) ?_
    exact h0
  · exact h0

theorem releaseX_keeps {M : Nat} {s0 : State} {a0 : Nat} {a1 : Nat} {a2 : State} (hM : 64 ||| M = M) (h0 : Keeps M s0 a2) :
    Keeps M s0 (releaseX a0 a1 a2) := by
  unfold releaseX
  refine updRx_keeps (sub hM rfl) ?_
  exact h0

theorem pendOs_keeps {M : Nat} {s0 : State} {a0 : Nat} {a1 : OsWord} {a2 : State} (hM : 64 ||| M = M) (h0 : Keeps M s0 a2) :
    Keeps M s0 (pendOs a0 a1 a2) := by
  unfold pendOs
  refine updLp_keeps (sub hM rfl) ?_
  exact h0

theorem eyeLost_keeps {M : Nat} {s0 : State} {a0 : Nat} {a1 : State} (hM : 68719476736 ||| M = M) (h0 : Keeps M s0 a1) :
    Keeps M s0 (eyeLost a0 a1) := by
  unfold eyeLost
  extract_lets +onlyGivenNames -lift x0
  clear_value x0
  refine Keeps.set_tests (hit hM rfl) (?_)
  exact h0

theorem startExitAt_keeps {M : Nat} {s0 : State} {a0 : Nat} {a1 : Nat} {a2 : OsWord} {a3 : State} (hM : 68719476802 ||| M = M) (h0 : Keeps M s0 a3) :
    Keeps M s0 (startExitAt a0 a1 a2 a3) := by
  unfold startExitAt
  extract_lets +onlyGivenNames -lift x0
  clear_value x0
  extract_lets +onlyGivenNames -lift x1
  have g2 : Keeps M s0 x1 := by
    refine eyeLost_keeps (sub hM rfl) ?_
    exact h0
  clear_value x1
  extract_lets +onlyGivenNames -lift x3
  have g4 : Keeps M s0 x3 := by
    refine updLp_keeps (sub hM rfl) ?_
    exact g2
  clear_value x3
  refine Keeps.ite ?_ ?_
  · refine wr_keeps (sub hM rfl) ?_
    refine wr_keeps (sub hM rfl) ?_
    exact g4
  · exact h0

theorem startExit_keeps {M : Nat} {s0 : State} {a0 : Nat} {a1 : OsWord} {a2 : State} (hM : 68719476802 ||| M = M) (h0 : Keeps M s0 a2) :
    Keeps M s0 (startExit a0 a1 a2) := by
  unfold startExit
  refine startExitAt_keeps (sub hM rfl) ?_
  exact h0

theorem answerExit_keeps {M : Nat} {s0 : State} {a0 : Nat} {a1 : State} (hM : 68719476802 ||| M = M) (h0 : Keeps M s0 a1) :
    Keeps M s0 (answerExit a0 a1) := by
  unfold answerExit
  refine startExitAt_keeps (sub hM rfl) ?_
  exact h0

theorem voidRequest_keeps {M : Nat} {s0 : State} {a0 : Nat} {a1 : State} (hM : 64 ||| M = M) (h0 : Keeps M s0 a1) :
    Keeps M s0 (voidRequest a0 a1) := by
  unfold voidRequest
  refine Keeps.ite ?_ ?_
  · refine updLp_keeps (sub hM rfl) ?_
    exact h0
  · exact h0

theorem sendWaggle_keeps {M : Nat} {s0 : State} {a0 : Nat} {a1 : Nat} {a2 : Nat} {a3 : State} (hM : 68719477314 ||| M = M) (h0 : Keeps M s0 a3) :
    Keeps M s0 (sendWaggle a0 a1 a2 a3) := by
  unfold sendWaggle
  extract_lets +onlyGivenNames -lift x0
  clear_value x0
  extract_lets +onlyGivenNames -lift x1
  clear_value x1
  extract_lets +onlyGivenNames -lift x2
  clear_value x2
  extract_lets +onlyGivenNames -lift x3
  have g4 : Keeps M s0 x3 := by
    refine updTopo_keeps (sub hM rfl) ?_
    exact h0
  clear_value x3
  refine Keeps.ite ?_ ?_
  · exact h0
  · refine Keeps.ite ?_ ?_
    · refine startExit_keeps (sub hM rfl) ?_
      exact g4
    · refine voidRequest_keeps (sub hM rfl) ?_
      refine pendOs_keeps (sub hM rfl) ?_
      exact g4

theorem wakeFor_keeps {M : Nat} {s0 : State} {a0 : Nat} {a1 : Nat} {a2 : State} (hM : 68719477314 ||| M = M) (h0 : Keeps M s0 a2) :
    Keeps M s0 (wakeFor a0 a1 a2) := by
  unfold wakeFor
  extract_lets +onlyGivenNames -lift x0
  clear_value x0
  extract_lets +onlyGivenNames -lift x1
  have g2 : Keeps M s0 x1 := by
    refine Keeps.ite ?_ ?_
    · refine sendWaggle_keeps (sub hM rfl) ?_
      exact h0
    · exact h0
  clear_value x1
  refine voidRequest_keeps (sub hM rfl) ?_
  refine startExit_keeps (sub hM rfl) ?_
  exact g2

theorem enterHoldFast_keeps {M : Nat} {s0 : State} {a0 : State} (hM : 262162 ||| M = M) (h0 : Keeps M s0 a0) :
    Keeps M s0 (enterHoldFast a0) := by
  unfold enterHoldFast
  extract_lets +onlyGivenNames -lift x0
  clear_value x0
  extract_lets +onlyGivenNames -lift x1
  clear_value x1
  extract_lets +onlyGivenNames -lift x2
  have g3 : Keeps M s0 x2 := by
    refine Keeps.set_time (hit hM rfl) (?_)
    exact h0
  clear_value x2
  refine Keeps.ite ?_ ?_
  · refine raise_keeps (sub hM rfl) ?_
    refine wr_keeps (sub hM rfl) ?_
    exact g3
  · exact h0

theorem withParent_keeps {M : Nat} {s0 : State} {a0 : State → State} {a1 : State} (hM : 262162 ||| M = M) (h0 : ∀ v0, Keeps M s0 v0 → Keeps M s0 (a0 v0)) (h1 : Keeps M s0 a1) :
    Keeps M s0 (withParent a0 a1) := by
  unfold withParent
  extract_lets +onlyGivenNames -lift x0
  have g1 : Keeps M s0 x0 := by
    refine h0 _ ?_
    exact h1
  clear_value x0
  refine Keeps.ite ?_ ?_
  · exact g1
  · refine enterHoldFast_keeps (sub hM rfl) ?_
    exact g1

theorem timeRole_keeps {M : Nat} {s0 : State} {a0 : State} (hM : 262162 ||| M = M) (h0 : Keeps M s0 a0) :
    Keeps M s0 (timeRole a0) := by
  unfold timeRole
  extract_lets +onlyGivenNames -lift x0
  clear_value x0
  extract_lets +onlyGivenNames -lift x1
  clear_value x1
  extract_lets +onlyGivenNames -lift x2
  clear_value x2
  refine Keeps.ite ?_ ?_
  · refine wr_keeps (sub hM rfl) ?_
    refine wr_keeps (sub hM rfl) ?_
    refine Keeps.set_time (hit hM rfl) (?_)
    exact h0
  · refine Keeps.ite ?_ ?_
    · refine raise_keeps (sub hM rfl) ?_
      refine wr_keeps (sub hM rfl) ?_
      refine Keeps.set_time (hit hM rfl) (?_)
      exact h0
    · exact h0

theorem addBreak_keeps {M : Nat} {s0 : State} {a0 : Nat} {a1 : BreakRec} {a2 : State} (hM : 512 ||| M = M) (h0 : Keeps M s0 a2) :
    Keeps M s0 (addBreak a0 a1 a2) := by
  unfold addBreak
  extract_lets +onlyGivenNames -lift x0
  clear_value x0
  extract_lets +onlyGivenNames -lift x1
  clear_value x1
  extract_lets +onlyGivenNames -lift x2
  clear_value x2
  refine updTopo_keeps (sub hM rfl) ?_
  exact h0

theorem ringLeave_keeps {M : Nat} {s0 : State} {a0 : Nat} {a1 : State} (hM : 1616 ||| M = M) (h0 : Keeps M s0 a1) :
    Keeps M s0 (ringLeave a0 a1) := by
  unfold ringLeave
  extract_lets +onlyGivenNames -lift x0
  have g1 : Keeps M s0 x0 := by
    refine updLp_keeps (sub hM rfl) ?_
    exact h0
  clear_value x0
  extract_lets +onlyGivenNames -lift x2
  have g3 : Keeps M s0 x2 := by
    refine addBreak_keeps (sub hM rfl) ?_
    exact g1
  clear_value x2
  extract_lets +onlyGivenNames -lift x4
  have g5 : Keeps M s0 x4 := by
    refine updTopo_keeps (sub hM rfl) ?_
    exact g3
  clear_value x4
  refine Keeps.ite ?_ ?_
  · refine raise_keeps (sub hM rfl) ?_
    refine holdForced_keeps (sub hM rfl) ?_
    exact g5
  · exact h0

theorem clearXc_keeps {M : Nat} {s0 : State} {a0 : Nat} {a1 : State} (hM : 1088 ||| M = M) (h0 : Keeps M s0 a1) :
    Keeps M s0 (clearXc a0 a1) := by
  unfold clearXc
  extract_lets +onlyGivenNames -lift x0
  have g1 : Keeps M s0 x0 := by
    refine updComb_keeps (sub hM rfl) ?_
    exact h0
  clear_value x0
  extract_lets +onlyGivenNames -lift x3
  have g4 : Keeps M s0 x3 := by
    refine forAll_keeps (sub hM rfl) ?_ ?_
    · intro w5 w6 k7
      refine updLp_keeps (sub hM rfl) ?_
      exact k7
    · exact g1
  clear_value x3
  refine setHold_keeps (sub hM rfl) ?_
  exact g4

theorem linkCleanup_keeps {M : Nat} {s0 : State} {a0 : Nat} {a1 : State} (hM : 132182 ||| M = M) (h0 : Keeps M s0 a1) :
    Keeps M s0 (linkCleanup a0 a1) := by
  unfold linkCleanup
  extract_lets +onlyGivenNames -lift x0
  clear_value x0
  extract_lets +onlyGivenNames -lift x1
  clear_value x1
  extract_lets +onlyGivenNames -lift x2
  clear_value x2
  extract_lets +onlyGivenNames -lift x3
  have g4 : Keeps M s0 x3 := by
    refine forAll_keeps (sub hM rfl) ?_ ?_
    · intro w5 w6 k7
      refine freeAddr_keeps (sub hM rfl) ?_
      exact k7
    · exact h0
  clear_value x3
  extract_lets +onlyGivenNames -lift x8
  have g9 : Keeps M s0 x8 := by
    refine clearXc_keeps (sub hM rfl) ?_
    exact g4
  clear_value x8
  extract_lets +onlyGivenNames -lift x10
  have g11 : Keeps M s0 x10 := by
    refine holdCells_keeps (sub hM rfl) ?_
    exact g9
  clear_value x10
  extract_lets +onlyGivenNames -lift x12
  have g13 : Keeps M s0 x12 := by
    refine countBy_keeps (sub hM rfl) ?_
    exact g11
  clear_value x12
  extract_lets +onlyGivenNames -lift x14
  have g15 : Keeps M s0 x14 := by
    refine forAll_keeps (sub hM rfl) ?_ ?_
    · intro w16 w17 k18
      refine setHold_keeps (sub hM rfl) ?_
      exact k18
    · exact g13
  clear_value x14
  extract_lets +onlyGivenNames -lift x19
  have g20 : Keeps M s0 x19 := by
    refine countBy_keeps (sub hM rfl) ?_
    exact g15
  clear_value x19
  extract_lets +onlyGivenNames -lift x21
  have g22 : Keeps M s0 x21 := by
    refine Keeps.ite ?_ ?_
    · exact g20
    · refine raise_keeps (sub hM rfl) ?_
      exact g20
  clear_value x21
  refine wr_keeps (sub hM rfl) ?_
  refine updLp_keeps (sub hM rfl) ?_
  exact g22

theorem startTraining_keeps {M : Nat} {s0 : State} {a0 : Nat} {a1 : State} (hM : 68719477826 ||| M = M) (h0 : Keeps M s0 a1) :
    Keeps M s0 (startTraining a0 a1) := by
  unfold startTraining
  extract_lets +onlyGivenNames -lift x0
  have g1 : Keeps M s0 x0 := by
    refine updLp_keeps (sub hM rfl) ?_
    refine clearXc_keeps (sub hM rfl) ?_
    exact h0
  clear_value x0
  extract_lets +onlyGivenNames -lift x2
  have g3 : Keeps M s0 x2 := by
    refine wr_keeps (sub hM rfl) ?_
    exact g1
  clear_value x2
  refine wr_keeps (sub hM rfl) ?_
  refine wr_keeps (sub hM rfl) ?_
  refine eyeLost_keeps (sub hM rfl) ?_
  exact g3

theorem portDark_keeps {M : Nat} {s0 : State} {a0 : Nat} {a1 : Nat} {a2 : State} (hM : 68719476738 ||| M = M) (h0 : Keeps M s0 a2) :
    Keeps M s0 (portDark a0 a1 a2) := by
  unfold portDark
  extract_lets +onlyGivenNames -lift x0
  have g1 : Keeps M s0 x0 := by
    refine wr_keeps (sub hM rfl) ?_
    refine wr_keeps (sub hM rfl) ?_
    refine wr_keeps (sub hM rfl) ?_
    exact h0
  clear_value x0
  refine wr_keeps (sub hM rfl) ?_
  refine eyeLost_keeps (sub hM rfl) ?_
  exact g1

theorem portDown_keeps {M : Nat} {s0 : State} {a0 : Nat} {a1 : State} (hM : 68719871574 ||| M = M) (h0 : Keeps M s0 a1) :
    Keeps M s0 (portDown a0 a1) := by
  unfold portDown
  extract_lets +onlyGivenNames -lift x0
  clear_value x0
  extract_lets +onlyGivenNames -lift x1
  have g2 : Keeps M s0 x1 := by
    refine linkCleanup_keeps (sub hM rfl) ?_
    refine portDark_keeps (sub hM rfl) ?_
    exact h0
  clear_value x1
  extract_lets +onlyGivenNames -lift x3
  have g4 : Keeps M s0 x3 := by
    refine ringLeave_keeps (sub hM rfl) ?_
    exact g2
  clear_value x3
  extract_lets +onlyGivenNames -lift x5
  have g6 : Keeps M s0 x5 := by
    refine Keeps.ite ?_ ?_
    · refine enterHoldFast_keeps (sub hM rfl) ?_
      exact g4
    · exact g4
  clear_value x5
  refine Keeps.ite ?_ ?_
  · refine startTraining_keeps (sub hM rfl) ?_
    exact g6
  · exact g6

theorem declareLos_keeps {M : Nat} {s0 : State} {a0 : Nat} {a1 : State} (hM : 68719871574 ||| M = M) (h0 : Keeps M s0 a1) :
    Keeps M s0 (declareLos a0 a1) := by
  unfold declareLos
  refine Keeps.ite ?_ ?_
  · refine portDown_keeps (sub hM rfl) ?_
    refine raise_keeps (sub hM rfl) ?_
    exact h0
  · exact h0

theorem linkFail_keeps {M : Nat} {s0 : State} {a0 : Nat} {a1 : Nat} {a2 : State} (hM : 68719871574 ||| M = M) (h0 : Keeps M s0 a2) :
    Keeps M s0 (linkFail a0 a1 a2) := by
  unfold linkFail
  refine Keeps.ite ?_ ?_
  · refine declareLos_keeps (sub hM rfl) ?_
    refine raise_keeps (sub hM rfl) ?_
    exact h0
  · exact h0

theorem sendLpwr_keeps {M : Nat} {s0 : State} {a0 : Nat} {a1 : State} (hM : 64 ||| M = M) (h0 : Keeps M s0 a1) :
    Keeps M s0 (sendLpwr a0 a1) := by
  unfold sendLpwr
  extract_lets +onlyGivenNames -lift x0
  clear_value x0
  refine Keeps.ite ?_ ?_
  · refine pendOs_keeps (sub hM rfl) ?_
    exact h0
  · exact h0

theorem lpwrChanged_keeps {M : Nat} {s0 : State} {a0 : Nat} {a1 : State} (hM : 68719476802 ||| M = M) (h0 : Keeps M s0 a1) :
    Keeps M s0 (lpwrChanged a0 a1) := by
  unfold lpwrChanged
  refine Keeps.ite ?_ ?_
  · refine startExit_keeps (sub hM rfl) ?_
    exact h0
  · refine sendLpwr_keeps (sub hM rfl) ?_
    exact h0

theorem sendDreq_keeps {M : Nat} {s0 : State} {a0 : Nat} {a1 : State} (hM : 64 ||| M = M) (h0 : Keeps M s0 a1) :
    Keeps M s0 (sendDreq a0 a1) := by
  unfold sendDreq
  extract_lets +onlyGivenNames -lift x0
  clear_value x0
  extract_lets +onlyGivenNames -lift x1
  have g2 : Keeps M s0 x1 := by
    refine updLp_keeps (sub hM rfl) ?_
    exact h0
  clear_value x1
  refine Keeps.ite ?_ ?_
  · exact h0
  · refine pendOs_keeps (sub hM rfl) ?_
    exact g2

theorem setRelay_keeps {M : Nat} {s0 : State} {a0 : Nat} {a1 : Option Relay} {a2 : State} (hM : 16384 ||| M = M) (h0 : Keeps M s0 a2) :
    Keeps M s0 (setRelay a0 a1 a2) := by
  unfold setRelay
  refine updCmd_keeps (sub hM rfl) ?_
  exact h0

theorem sendAssign_keeps {M : Nat} {s0 : State} {a0 : Nat} {a1 : State} (hM : 17472 ||| M = M) (h0 : Keeps M s0 a1) :
    Keeps M s0 (sendAssign a0 a1) := by
  unfold sendAssign
  extract_lets +onlyGivenNames -lift x0
  have g1 : Keeps M s0 x0 := by
    refine updLp_keeps (sub hM rfl) ?_
    exact h0
  clear_value x0
  extract_lets +onlyGivenNames -lift x2
  clear_value x2
  extract_lets +onlyGivenNames -lift x3
  clear_value x3
  refine Keeps.ite ?_ ?_
  · split
    · exact g1
    · extract_lets +onlyGivenNames -lift x6
      clear_value x6
      extract_lets +onlyGivenNames -lift x7
      clear_value x7
      refine holdForced_keeps (sub hM rfl) ?_
      refine setRelay_keeps (sub hM rfl) ?_
      exact g1
  · exact h0

/-! LinePhys. -/

theorem applyPools_keeps {M : Nat} {s0 : State} {a0 : Nat} {a1 : State} (hM : 1024 ||| M = M) (h0 : Keeps M s0 a1) :
    Keeps M s0 (applyPools a0 a1) := by
  unfold applyPools
  refine updComb_keeps (sub hM rfl) ?_
  exact h0

theorem seedPrbs_keeps {M : Nat} {s0 : State} {a0 : Nat} {a1 : State} (hM : 65 ||| M = M) (h0 : Keeps M s0 a1) :
    Keeps M s0 (seedPrbs a0 a1) := by
  unfold seedPrbs
  split
  · rename_i y0 y1 y2 y3
    refine Keeps2.elim (m := M) (s0 := s0) y3 ?_ (fun g4 => ?_)
    · refine drawFree_keeps (sub hM rfl) ?_
      exact h0
    refine updLp_keeps (sub hM rfl) ?_
    exact g4

theorem incompat_keeps {M : Nat} {s0 : State} {a0 : Nat} {a1 : State} (hM : 68719607894 ||| M = M) (h0 : Keeps M s0 a1) :
    Keeps M s0 (incompat a0 a1) := by
  unfold incompat
  extract_lets +onlyGivenNames -lift x0
  have g1 : Keeps M s0 x0 := by
    refine raise_keeps (sub hM rfl) ?_
    refine count_keeps (sub hM rfl) ?_
    exact h0
  clear_value x0
  refine updLp_keeps (sub hM rfl) ?_
  refine portDark_keeps (sub hM rfl) ?_
  exact g1

theorem applyCap_keeps {M : Nat} {s0 : State} {a0 : Nat} {a1 : Nat} {a2 : State} (hM : 68719607895 ||| M = M) (h0 : Keeps M s0 a2) :
    Keeps M s0 (applyCap a0 a1 a2) := by
  unfold applyCap
  split
  · refine incompat_keeps (sub hM rfl) ?_
    exact h0
  · extract_lets +onlyGivenNames -lift x1
    have g2 : Keeps M s0 x1 := by
      refine wr_keeps (sub hM rfl) ?_
      refine wr_keeps (sub hM rfl) ?_
      exact h0
    clear_value x1
    extract_lets +onlyGivenNames -lift x3
    have g4 : Keeps M s0 x3 := by
      refine wr_keeps (sub hM rfl) ?_
      refine wr_keeps (sub hM rfl) ?_
      exact g2
    clear_value x3
    extract_lets +onlyGivenNames -lift x5
    have g6 : Keeps M s0 x5 := by
      refine wr_keeps (sub hM rfl) ?_
      refine wr_keeps (sub hM rfl) ?_
      exact g4
    clear_value x5
    extract_lets +onlyGivenNames -lift x7
    have g8 : Keeps M s0 x7 := by
      refine updLp_keeps (sub hM rfl) ?_
      exact g6
    clear_value x7
    refine seedPrbs_keeps (sub hM rfl) ?_
    refine wr_keeps (sub hM rfl) ?_
    exact g8

theorem disablePort_keeps {M : Nat} {s0 : State} {a0 : Nat} {a1 : State} (hM : 68719871574 ||| M = M) (h0 : Keeps M s0 a1) :
    Keeps M s0 (disablePort a0 a1) := by
  unfold disablePort
  extract_lets +onlyGivenNames -lift x0
  clear_value x0
  extract_lets +onlyGivenNames -lift x1
  have g2 : Keeps M s0 x1 := by
    refine Keeps.ite ?_ ?_
    · refine linkCleanup_keeps (sub hM rfl) ?_
      exact h0
    · exact h0
  clear_value x1
  extract_lets +onlyGivenNames -lift x3
  have g4 : Keeps M s0 x3 := by
    refine ringLeave_keeps (sub hM rfl) ?_
    refine portDark_keeps (sub hM rfl) ?_
    exact g2
  clear_value x3
  refine Keeps.ite ?_ ?_
  · refine enterHoldFast_keeps (sub hM rfl) ?_
    exact g4
  · exact g4

theorem setPortEn_keeps {M : Nat} {s0 : State} {a0 : Nat} {a1 : Bool} {a2 : State} (hM : 68719871574 ||| M = M) (h0 : Keeps M s0 a2) :
    Keeps M s0 (setPortEn a0 a1 a2) := by
  unfold setPortEn
  extract_lets +onlyGivenNames -lift x0
  clear_value x0
  extract_lets +onlyGivenNames -lift x1
  have g2 : Keeps M s0 x1 := by
    refine wr_keeps (sub hM rfl) ?_
    exact h0
  clear_value x1
  refine Keeps.ite ?_ ?_
  · refine Keeps.ite ?_ ?_
    · refine startTraining_keeps (sub hM rfl) ?_
      exact g2
    · exact g2
  · refine Keeps.ite ?_ ?_
    · refine disablePort_keeps (sub hM rfl) ?_
      exact g2
    · exact g2

theorem execPortEnable_keeps {M : Nat} {s0 : State} {a0 : LPort} {a1 : Bool} {a2 : State} (hM : 68719871574 ||| M = M) (h0 : Keeps M s0 a2) :
    KeepsR M s0 (execPortEnable a0 a1 a2) := by
  unfold execPortEnable
  refine access_keeps (sub hM rfl) ?_ ?_
  · intro w0 k1
    refine setPortEn_keeps (sub hM rfl) ?_
    exact k1
  · exact h0

theorem execTrainingPhaseTimeout_keeps {M : Nat} {s0 : State} {a0 : LPort} {a1 : State} (hM : 68719608918 ||| M = M) (h0 : Keeps M s0 a1) :
    KeepsR M s0 (execTrainingPhaseTimeout a0 a1) := by
  unfold execTrainingPhaseTimeout
  extract_lets +onlyGivenNames -lift x0
  clear_value x0
  refine KeepsR.ite ?_ ?_
  · refine KeepsR.next ?_
    refine startTraining_keeps (sub hM rfl) ?_
    refine raise_keeps (sub hM rfl) ?_
    refine count_keeps (sub hM rfl) ?_
    exact h0
  · refine KeepsR.next ?_
    exact h0

theorem execTrainRestartTimer_keeps {M : Nat} {s0 : State} {a0 : LPort} {a1 : State} (hM : 68719477826 ||| M = M) (h0 : Keeps M s0 a1) :
    KeepsR M s0 (execTrainRestartTimer a0 a1) := by
  unfold execTrainRestartTimer
  extract_lets +onlyGivenNames -lift x0
  clear_value x0
  refine KeepsR.ite ?_ ?_
  · refine KeepsR.next ?_
    refine startTraining_keeps (sub hM rfl) ?_
    exact h0
  · refine KeepsR.next ?_
    exact h0

theorem execWordLock_keeps {M : Nat} {s0 : State} {a0 : LPort} {a1 : Fin 4} {a2 : State} (hM : 66 ||| M = M) (h0 : Keeps M s0 a2) :
    KeepsR M s0 (execWordLock a0 a1 a2) := by
  unfold execWordLock
  extract_lets +onlyGivenNames -lift x0
  clear_value x0
  extract_lets +onlyGivenNames -lift x1
  have g2 : Keeps M s0 x1 := by
    refine updLp_keeps (sub hM rfl) ?_
    exact h0
  clear_value x1
  refine KeepsR.ite ?_ ?_
  · refine KeepsR.next ?_
    refine wr_keeps (sub hM rfl) ?_
    refine wr_keeps (sub hM rfl) ?_
    exact g2
  · refine KeepsR.next ?_
    exact h0

theorem capDone_keeps {M : Nat} {s0 : State} {a0 : Nat} {a1 : State} (hM : 68719607895 ||| M = M) (h0 : Keeps M s0 a1) :
    Keeps M s0 (capDone a0 a1) := by
  unfold capDone
  refine Keeps.ite ?_ ?_
  · refine applyCap_keeps (sub hM rfl) ?_
    exact h0
  · exact h0

theorem onCap_keeps {M : Nat} {s0 : State} {a0 : Nat} {a1 : Nat} {a2 : State} (hM : 68719607895 ||| M = M) (h0 : Keeps M s0 a2) :
    Keeps M s0 (onCap a0 a1 a2) := by
  unfold onCap
  extract_lets +onlyGivenNames -lift x0
  have g1 : Keeps M s0 x0 := by
    refine updLp_keeps (sub hM rfl) ?_
    exact h0
  clear_value x0
  refine Keeps.ite ?_ ?_
  · refine capDone_keeps (sub hM rfl) ?_
    refine updLp_keeps (sub hM rfl) ?_
    exact g1
  · exact h0

theorem execCap_keeps {M : Nat} {s0 : State} {a0 : LPort} {a1 : BitVec 48} {a2 : State} (hM : 68719607895 ||| M = M) (h0 : Keeps M s0 a2) :
    KeepsR M s0 (execCap a0 a1 a2) := by
  unfold execCap
  refine KeepsR.next ?_
  refine onCap_keeps (sub hM rfl) ?_
  exact h0

theorem exitTick_keeps {M : Nat} {s0 : State} {a0 : Nat} {a1 : State} (hM : 67 ||| M = M) (h0 : Keeps M s0 a1) :
    Keeps M s0 (exitTick a0 a1) := by
  unfold exitTick
  extract_lets +onlyGivenNames -lift x0
  clear_value x0
  extract_lets +onlyGivenNames -lift x1
  clear_value x1
  extract_lets +onlyGivenNames -lift x2
  have g3 : Keeps M s0 x2 := by
    refine Keeps.ite ?_ ?_
    · refine wr_keeps (sub hM rfl) ?_
      exact h0
    · exact h0
  clear_value x2
  refine Keeps.ite ?_ ?_
  · refine Keeps.ite ?_ ?_
    · refine seedPrbs_keeps (sub hM rfl) ?_
      refine wr_keeps (sub hM rfl) ?_
      exact g3
    · exact g3
  · exact h0

theorem execPrbsLock_keeps {M : Nat} {s0 : State} {a0 : LPort} {a1 : State} (hM : 66 ||| M = M) (h0 : Keeps M s0 a1) :
    KeepsR M s0 (execPrbsLock a0 a1) := by
  unfold execPrbsLock
  extract_lets +onlyGivenNames -lift x0
  clear_value x0
  extract_lets +onlyGivenNames -lift x1
  have g2 : Keeps M s0 x1 := by
    refine wr_keeps (sub hM rfl) ?_
    exact h0
  clear_value x1
  refine KeepsR.ite ?_ ?_
  · refine KeepsR.next ?_
    refine wr_keeps (sub hM rfl) ?_
    refine updLp_keeps (sub hM rfl) ?_
    exact g2
  · refine KeepsR.next ?_
    exact h0

theorem creditInit_keeps {M : Nat} {s0 : State} {a0 : Nat} {a1 : State} (hM : 1088 ||| M = M) (h0 : Keeps M s0 a1) :
    Keeps M s0 (creditInit a0 a1) := by
  unfold creditInit
  extract_lets +onlyGivenNames -lift x0
  have g1 : Keeps M s0 x0 := by
    refine applyPools_keeps (sub hM rfl) ?_
    refine updLp_keeps (sub hM rfl) ?_
    exact h0
  clear_value x0
  refine forAll_keeps (sub hM rfl) ?_ ?_
  · intro w2 w3 k4
    refine pendOs_keeps (sub hM rfl) ?_
    exact k4
  · refine pendOs_keeps (sub hM rfl) ?_
    exact g1

theorem execAlignLast_keeps {M : Nat} {s0 : State} {a0 : LPort} {a1 : State} (hM : 1090 ||| M = M) (h0 : Keeps M s0 a1) :
    KeepsR M s0 (execAlignLast a0 a1) := by
  unfold execAlignLast
  extract_lets +onlyGivenNames -lift x0
  clear_value x0
  extract_lets +onlyGivenNames -lift x1
  have g2 : Keeps M s0 x1 := by
    refine updLp_keeps (sub hM rfl) ?_
    exact h0
  clear_value x1
  extract_lets +onlyGivenNames -lift x3
  have g4 : Keeps M s0 x3 := by
    refine wr_keeps (sub hM rfl) ?_
    exact g2
  clear_value x3
  refine KeepsR.ite ?_ ?_
  · refine KeepsR.ite ?_ ?_
    · refine KeepsR.next ?_
      refine creditInit_keeps (sub hM rfl) ?_
      exact g4
    · refine KeepsR.next ?_
      exact g4
  · refine KeepsR.next ?_
    exact h0

theorem execFcwChkFail_keeps {M : Nat} {s0 : State} {a0 : LPort} {a1 : State} (hM : 68719871574 ||| M = M) (h0 : Keeps M s0 a1) :
    KeepsR M s0 (execFcwChkFail a0 a1) := by
  unfold execFcwChkFail
  extract_lets +onlyGivenNames -lift x0
  clear_value x0
  extract_lets +onlyGivenNames -lift x1
  have g2 : Keeps M s0 x1 := by
    refine count_keeps (sub hM rfl) ?_
    exact h0
  clear_value x1
  extract_lets +onlyGivenNames -lift x3
  clear_value x3
  extract_lets +onlyGivenNames -lift x4
  clear_value x4
  extract_lets +onlyGivenNames -lift x5
  have g6 : Keeps M s0 x5 := by
    refine updLp_keeps (sub hM rfl) ?_
    exact g2
  clear_value x5
  refine KeepsR.ite ?_ ?_
  · refine KeepsR.next ?_
    exact h0
  · refine KeepsR.ite ?_ ?_
    · refine KeepsR.next ?_
      refine declareLos_keeps (sub hM rfl) ?_
      exact g6
    · refine KeepsR.next ?_
      exact g6

theorem enterState_keeps {M : Nat} {s0 : State} {a0 : Nat} {a1 : Nat} {a2 : State} (hM : 68719738962 ||| M = M) (h0 : Keeps M s0 a2) :
    Keeps M s0 (enterState a0 a1 a2) := by
  unfold enterState
  extract_lets +onlyGivenNames -lift x0
  clear_value x0
  extract_lets +onlyGivenNames -lift x1
  have g2 : Keeps M s0 x1 := by
    refine updLp_keeps (sub hM rfl) ?_
    exact h0
  clear_value x1
  extract_lets +onlyGivenNames -lift x3
  have g4 : Keeps M s0 x3 := by
    refine wr_keeps (sub hM rfl) ?_
    refine Keeps.ite ?_ ?_
    · exact g2
    · refine eyeLost_keeps (sub hM rfl) ?_
      exact g2
  clear_value x3
  extract_lets +onlyGivenNames -lift x5
  have g6 : Keeps M s0 x5 := by
    refine Keeps.ite ?_ ?_
    · refine wr_keeps (sub hM rfl) ?_
      exact g4
    · refine Keeps.ite ?_ ?_
      · refine wr_keeps (sub hM rfl) ?_
        exact g4
      · exact g4
  clear_value x5
  extract_lets +onlyGivenNames -lift x7
  have g8 : Keeps M s0 x7 := by
    refine Keeps.ite ?_ ?_
    · refine enterHoldFast_keeps (sub hM rfl) ?_
      exact g6
    · exact g6
  clear_value x7
  refine Keeps.ite ?_ ?_
  · refine startExit_keeps (sub hM rfl) ?_
    exact g8
  · exact g8

theorem requestState_keeps {M : Nat} {s0 : State} {a0 : Nat} {a1 : Nat} {a2 : State} (hM : 64 ||| M = M) (h0 : Keeps M s0 a2) :
    Keeps M s0 (requestState a0 a1 a2) := by
  unfold requestState
  refine Keeps.ite ?_ ?_
  · refine updLp_keeps (sub hM rfl) ?_
    refine pendOs_keeps (sub hM rfl) ?_
    exact h0
  · exact h0

theorem execHumIdleTimeout_keeps {M : Nat} {s0 : State} {a0 : LPort} {a1 : State} (hM : 64 ||| M = M) (h0 : Keeps M s0 a1) :
    KeepsR M s0 (execHumIdleTimeout a0 a1) := by
  unfold execHumIdleTimeout
  refine KeepsR.next ?_
  refine requestState_keeps (sub hM rfl) ?_
  exact h0

theorem execDozeIdleTimeout_keeps {M : Nat} {s0 : State} {a0 : LPort} {a1 : State} (hM : 64 ||| M = M) (h0 : Keeps M s0 a1) :
    KeepsR M s0 (execDozeIdleTimeout a0 a1) := by
  unfold execDozeIdleTimeout
  refine KeepsR.next ?_
  refine requestState_keeps (sub hM rfl) ?_
  exact h0

theorem execDormantIdleTimeout_keeps {M : Nat} {s0 : State} {a0 : LPort} {a1 : State} (hM : 64 ||| M = M) (h0 : Keeps M s0 a1) :
    KeepsR M s0 (execDormantIdleTimeout a0 a1) := by
  unfold execDormantIdleTimeout
  refine KeepsR.next ?_
  refine requestState_keeps (sub hM rfl) ?_
  exact h0

theorem onStateReq_keeps {M : Nat} {s0 : State} {a0 : Nat} {a1 : Nat} {a2 : State} (hM : 68719738962 ||| M = M) (h0 : Keeps M s0 a2) :
    Keeps M s0 (onStateReq a0 a1 a2) := by
  unfold onStateReq
  split
  · refine Keeps.ite ?_ ?_
    · refine enterState_keeps (sub hM rfl) ?_
      exact h0
    · refine updLp_keeps (sub hM rfl) ?_
      refine pendOs_keeps (sub hM rfl) ?_
      exact h0
  · refine Keeps.ite ?_ ?_
    · refine updLp_keeps (sub hM rfl) ?_
      refine pendOs_keeps (sub hM rfl) ?_
      exact h0
    · refine Keeps.ite ?_ ?_
      · refine pendOs_keeps (sub hM rfl) ?_
        exact h0
      · exact h0

theorem execStateReq_keeps {M : Nat} {s0 : State} {a0 : LPort} {a1 : Fin 4} {a2 : State} (hM : 68719738962 ||| M = M) (h0 : Keeps M s0 a2) :
    KeepsR M s0 (execStateReq a0 a1 a2) := by
  unfold execStateReq
  refine KeepsR.next ?_
  refine onStateReq_keeps (sub hM rfl) ?_
  exact h0

theorem onStateAck_keeps {M : Nat} {s0 : State} {a0 : Nat} {a1 : Nat} {a2 : State} (hM : 68719738962 ||| M = M) (h0 : Keeps M s0 a2) :
    Keeps M s0 (onStateAck a0 a1 a2) := by
  unfold onStateAck
  refine Keeps.ite ?_ ?_
  · refine enterState_keeps (sub hM rfl) ?_
    exact h0
  · exact h0

theorem execStateAck_keeps {M : Nat} {s0 : State} {a0 : LPort} {a1 : Fin 4} {a2 : State} (hM : 68719738962 ||| M = M) (h0 : Keeps M s0 a2) :
    KeepsR M s0 (execStateAck a0 a1 a2) := by
  unfold execStateAck
  refine KeepsR.next ?_
  refine onStateAck_keeps (sub hM rfl) ?_
  exact h0

theorem dropReq_keeps {M : Nat} {s0 : State} {a0 : Nat} {a1 : State} (hM : 64 ||| M = M) (h0 : Keeps M s0 a1) :
    Keeps M s0 (dropReq a0 a1) := by
  unfold dropReq
  refine updLp_keeps (sub hM rfl) ?_
  exact h0

theorem dropHandshake_keeps {M : Nat} {s0 : State} {a0 : Nat} {a1 : State} (hM : 64 ||| M = M) (h0 : Keeps M s0 a1) :
    Keeps M s0 (dropHandshake a0 a1) := by
  unfold dropHandshake
  refine updLp_keeps (sub hM rfl) ?_
  exact h0

theorem onStateNak_keeps {M : Nat} {s0 : State} {a0 : Nat} {a1 : Nat} {a2 : State} (hM : 64 ||| M = M) (h0 : Keeps M s0 a2) :
    Keeps M s0 (onStateNak a0 a1 a2) := by
  unfold onStateNak
  refine Keeps.ite ?_ ?_
  · refine dropReq_keeps (sub hM rfl) ?_
    exact h0
  · exact h0

theorem execStateNak_keeps {M : Nat} {s0 : State} {a0 : LPort} {a1 : Fin 4} {a2 : State} (hM : 64 ||| M = M) (h0 : Keeps M s0 a2) :
    KeepsR M s0 (execStateNak a0 a1 a2) := by
  unfold execStateNak
  refine KeepsR.next ?_
  refine onStateNak_keeps (sub hM rfl) ?_
  exact h0

theorem execStateAnswerTimeout_keeps {M : Nat} {s0 : State} {a0 : LPort} {a1 : State} (hM : 64 ||| M = M) (h0 : Keeps M s0 a1) :
    KeepsR M s0 (execStateAnswerTimeout a0 a1) := by
  unfold execStateAnswerTimeout
  refine KeepsR.next ?_
  refine dropReq_keeps (sub hM rfl) ?_
  exact h0

theorem sdRise_keeps {M : Nat} {s0 : State} {a0 : Nat} {a1 : State} (hM : 18 ||| M = M) (h0 : Keeps M s0 a1) :
    Keeps M s0 (sdRise a0 a1) := by
  unfold sdRise
  refine Keeps.ite ?_ ?_
  · refine raise_keeps (sub hM rfl) ?_
    refine wr_keeps (sub hM rfl) ?_
    exact h0
  · exact h0

theorem onWake_keeps {M : Nat} {s0 : State} {a0 : Nat} {a1 : State} (hM : 68719476818 ||| M = M) (h0 : Keeps M s0 a1) :
    Keeps M s0 (onWake a0 a1) := by
  unfold onWake
  refine answerExit_keeps (sub hM rfl) ?_
  refine dropHandshake_keeps (sub hM rfl) ?_
  refine sdRise_keeps (sub hM rfl) ?_
  exact h0

theorem execWake_keeps {M : Nat} {s0 : State} {a0 : LPort} {a1 : State} (hM : 68719476818 ||| M = M) (h0 : Keeps M s0 a1) :
    KeepsR M s0 (execWake a0 a1) := by
  unfold execWake
  refine KeepsR.next ?_
  refine onWake_keeps (sub hM rfl) ?_
  exact h0

theorem execExitComplete_keeps {M : Nat} {s0 : State} {a0 : LPort} {a1 : State} (hM : 66 ||| M = M) (h0 : Keeps M s0 a1) :
    KeepsR M s0 (execExitComplete a0 a1) := by
  unfold execExitComplete
  extract_lets +onlyGivenNames -lift x0
  clear_value x0
  extract_lets +onlyGivenNames -lift x1
  clear_value x1
  extract_lets +onlyGivenNames -lift x2
  have g3 : Keeps M s0 x2 := by
    refine wr_keeps (sub hM rfl) ?_
    refine wr_keeps (sub hM rfl) ?_
    exact h0
  clear_value x2
  extract_lets +onlyGivenNames -lift x4
  have g5 : Keeps M s0 x4 := by
    refine updLp_keeps (sub hM rfl) ?_
    exact g3
  clear_value x4
  refine KeepsR.ite ?_ ?_
  · refine KeepsR.next ?_
    refine Keeps.ite ?_ ?_
    · exact g5
    · refine sendLpwr_keeps (sub hM rfl) ?_
      exact g5
  · refine KeepsR.next ?_
    exact h0

theorem execExitTimeout_keeps {M : Nat} {s0 : State} {a0 : LPort} {a1 : State} (hM : 68719871574 ||| M = M) (h0 : Keeps M s0 a1) :
    KeepsR M s0 (execExitTimeout a0 a1) := by
  unfold execExitTimeout
  extract_lets +onlyGivenNames -lift x0
  clear_value x0
  refine KeepsR.ite ?_ ?_
  · refine KeepsR.next ?_
    refine declareLos_keeps (sub hM rfl) ?_
    refine count_keeps (sub hM rfl) ?_
    exact h0
  · refine KeepsR.next ?_
    exact h0

theorem setMaxstate_keeps {M : Nat} {s0 : State} {a0 : Nat} {a1 : Nat} {a2 : State} (hM : 68719476802 ||| M = M) (h0 : Keeps M s0 a2) :
    Keeps M s0 (setMaxstate a0 a1 a2) := by
  unfold setMaxstate
  extract_lets +onlyGivenNames -lift x0
  have g1 : Keeps M s0 x0 := by
    refine wr_keeps (sub hM rfl) ?_
    exact h0
  clear_value x0
  refine Keeps.ite ?_ ?_
  · refine startExit_keeps (sub hM rfl) ?_
    exact g1
  · split
    · refine Keeps.ite ?_ ?_
      · refine voidRequest_keeps (sub hM rfl) ?_
        exact g1
      · exact g1
    · exact g1

theorem execMaxstateWrite_keeps {M : Nat} {s0 : State} {a0 : LPort} {a1 : Fin 4} {a2 : State} (hM : 68719476802 ||| M = M) (h0 : Keeps M s0 a2) :
    KeepsR M s0 (execMaxstateWrite a0 a1 a2) := by
  unfold execMaxstateWrite
  refine access_keeps (sub hM rfl) ?_ ?_
  · intro w0 k1
    refine setMaxstate_keeps (sub hM rfl) ?_
    exact k1
  · exact h0

theorem onWaggle_keeps {M : Nat} {s0 : State} {a0 : Nat} {a1 : Nat} {a2 : Nat} {a3 : State} (hM : 68719608406 ||| M = M) (h0 : Keeps M s0 a3) :
    Keeps M s0 (onWaggle a0 a1 a2 a3) := by
  unfold onWaggle
  extract_lets +onlyGivenNames -lift x0
  have g1 : Keeps M s0 x0 := by
    refine answerExit_keeps (sub hM rfl) ?_
    refine sdRise_keeps (sub hM rfl) ?_
    exact h0
  clear_value x0
  extract_lets +onlyGivenNames -lift x2
  have g3 : Keeps M s0 x2 := by
    refine updLp_keeps (sub hM rfl) ?_
    exact g1
  clear_value x2
  extract_lets +onlyGivenNames -lift x4
  clear_value x4
  refine Keeps.ite ?_ ?_
  · exact g3
  · refine Keeps.ite ?_ ?_
    · refine count_keeps (sub hM rfl) ?_
      exact g3
    · refine forAll_keeps (sub hM rfl) ?_ ?_
      · intro w5 w6 k7
        refine Keeps.ite ?_ ?_
        · refine count_keeps (sub hM rfl) ?_
          exact k7
        · refine sendWaggle_keeps (sub hM rfl) ?_
          exact k7
      · exact g3

theorem execWaggle_keeps {M : Nat} {s0 : State} {a0 : LPort} {a1 : BitVec 14} {a2 : BitVec 6} {a3 : State} (hM : 68719608406 ||| M = M) (h0 : Keeps M s0 a3) :
    KeepsR M s0 (execWaggle a0 a1 a2 a3) := by
  unfold execWaggle
  refine KeepsR.next ?_
  refine onWaggle_keeps (sub hM rfl) ?_
  exact h0

theorem beginRetire_keeps {M : Nat} {s0 : State} {a0 : Nat} {a1 : Nat} {a2 : State} (hM : 68719871574 ||| M = M) (h0 : Keeps M s0 a2) :
    Keeps M s0 (beginRetire a0 a1 a2) := by
  unfold beginRetire
  extract_lets +onlyGivenNames -lift x0
  clear_value x0
  extract_lets +onlyGivenNames -lift x1
  have g2 : Keeps M s0 x1 := by
    refine orF_keeps (sub hM rfl) ?_
    exact h0
  clear_value x1
  extract_lets +onlyGivenNames -lift x3
  have g4 : Keeps M s0 x3 := by
    refine updLp_keeps (sub hM rfl) ?_
    exact g2
  clear_value x3
  split
  · refine declareLos_keeps (sub hM rfl) ?_
    exact h0
  · refine pendOs_keeps (sub hM rfl) ?_
    exact g4

theorem askRetire_keeps {M : Nat} {s0 : State} {a0 : Nat} {a1 : Nat} {a2 : State} (hM : 68719871574 ||| M = M) (h0 : Keeps M s0 a2) :
    Keeps M s0 (askRetire a0 a1 a2) := by
  unfold askRetire
  refine Keeps.ite ?_ ?_
  · refine updLp_keeps (sub hM rfl) ?_
    exact h0
  · refine beginRetire_keeps (sub hM rfl) ?_
    exact h0

theorem execSignalDetectLoss_keeps {M : Nat} {s0 : State} {a0 : LPort} {a1 : Bool} {a2 : State} (hM : 68719871574 ||| M = M) (h0 : Keeps M s0 a2) :
    KeepsR M s0 (execSignalDetectLoss a0 a1 a2) := by
  unfold execSignalDetectLoss
  extract_lets +onlyGivenNames -lift x0
  clear_value x0
  extract_lets +onlyGivenNames -lift x1
  clear_value x1
  refine KeepsR.next ?_
  refine declareLos_keeps (sub hM rfl) ?_
  refine wr_keeps (sub hM rfl) ?_
  exact h0

theorem execLaneFail_keeps {M : Nat} {s0 : State} {a0 : LPort} {a1 : Fin 4} {a2 : State} (hM : 68719871574 ||| M = M) (h0 : Keeps M s0 a2) :
    KeepsR M s0 (execLaneFail a0 a1 a2) := by
  unfold execLaneFail
  extract_lets +onlyGivenNames -lift x0
  clear_value x0
  extract_lets +onlyGivenNames -lift x1
  have g2 : Keeps M s0 x1 := by
    refine wr_keeps (sub hM rfl) ?_
    exact h0
  clear_value x1
  refine KeepsR.ite ?_ ?_
  · refine KeepsR.next ?_
    refine Keeps.ite ?_ ?_
    · refine askRetire_keeps (sub hM rfl) ?_
      exact g2
    · refine declareLos_keeps (sub hM rfl) ?_
      exact g2
  · refine KeepsR.next ?_
    exact g2

theorem execLaneErrorWindow_keeps {M : Nat} {s0 : State} {a0 : LPort} {a1 : Fin 4} {a2 : Nat} {a3 : State} (hM : 68719871574 ||| M = M) (h0 : Keeps M s0 a3) :
    KeepsR M s0 (execLaneErrorWindow a0 a1 a2 a3) := by
  unfold execLaneErrorWindow
  extract_lets +onlyGivenNames -lift x0
  clear_value x0
  extract_lets +onlyGivenNames -lift x1
  have g2 : Keeps M s0 x1 := by
    refine countBy_keeps (sub hM rfl) ?_
    exact h0
  clear_value x1
  refine KeepsR.ite ?_ ?_
  · refine KeepsR.next ?_
    refine askRetire_keeps (sub hM rfl) ?_
    exact g2
  · refine KeepsR.next ?_
    exact g2

theorem laneReq_keeps {M : Nat} {s0 : State} {a0 : Nat} {a1 : Nat} {a2 : State} (hM : 68719871574 ||| M = M) (h0 : Keeps M s0 a2) :
    Keeps M s0 (laneReq a0 a1 a2) := by
  unfold laneReq
  extract_lets +onlyGivenNames -lift x0
  clear_value x0
  refine Keeps.ite ?_ ?_
  · refine askRetire_keeps (sub hM rfl) ?_
    refine orF_keeps (sub hM rfl) ?_
    exact h0
  · exact h0

theorem execLaneRetireReq_keeps {M : Nat} {s0 : State} {a0 : LPort} {a1 : Fin 4} {a2 : State} (hM : 68719871574 ||| M = M) (h0 : Keeps M s0 a2) :
    KeepsR M s0 (execLaneRetireReq a0 a1 a2) := by
  unfold execLaneRetireReq
  refine access_keeps (sub hM rfl) ?_ ?_
  · intro w0 k1
    refine laneReq_keeps (sub hM rfl) ?_
    exact k1
  · exact h0

theorem onLaneRetire_keeps {M : Nat} {s0 : State} {a0 : Nat} {a1 : Nat} {a2 : Nat} {a3 : State} (hM : 66 ||| M = M) (h0 : Keeps M s0 a3) :
    Keeps M s0 (onLaneRetire a0 a1 a2 a3) := by
  unfold onLaneRetire
  extract_lets +onlyGivenNames -lift x0
  clear_value x0
  extract_lets +onlyGivenNames -lift x1
  have g2 : Keeps M s0 x1 := by
    refine orF_keeps (sub hM rfl) ?_
    exact h0
  clear_value x1
  extract_lets +onlyGivenNames -lift x3
  have g4 : Keeps M s0 x3 := by
    refine updLp_keeps (sub hM rfl) ?_
    exact g2
  clear_value x3
  split
  · refine Keeps.ite ?_ ?_
    · refine updLp_keeps (sub hM rfl) ?_
      exact h0
    · exact h0
  · refine Keeps.ite ?_ ?_
    · refine pendOs_keeps (sub hM rfl) ?_
      exact g4
    · exact h0

theorem execLaneRetire_keeps {M : Nat} {s0 : State} {a0 : LPort} {a1 : BitVec 4} {a2 : BitVec 16} {a3 : State} (hM : 66 ||| M = M) (h0 : Keeps M s0 a3) :
    KeepsR M s0 (execLaneRetire a0 a1 a2 a3) := by
  unfold execLaneRetire
  refine KeepsR.next ?_
  refine onLaneRetire_keeps (sub hM rfl) ?_
  exact h0

theorem clearReq_keeps {M : Nat} {s0 : State} {a0 : Nat} {a1 : Nat} {a2 : State} (hM : 2 ||| M = M) (h0 : Keeps M s0 a2) :
    Keeps M s0 (clearReq a0 a1 a2) := by
  unfold clearReq
  refine wr_keeps (sub hM rfl) ?_
  exact h0

theorem nextRetire_keeps {M : Nat} {s0 : State} {a0 : Nat} {a1 : List Nat} {a2 : State} (hM : 68719871574 ||| M = M) (h0 : Keeps M s0 a2) :
    Keeps M s0 (nextRetire a0 a1 a2) := by
  induction a1 generalizing a0 a2 with
  | nil =>
    unfold nextRetire
    refine updLp_keeps (sub hM rfl) ?_
    exact h0
  | cons e l ih =>
    unfold nextRetire
    extract_lets +onlyGivenNames -lift x0
    clear_value x0
    refine Keeps.ite ?_ ?_
    · apply ih
      refine clearReq_keeps (sub hM rfl) ?_
      exact h0
    · refine beginRetire_keeps (sub hM rfl) ?_
      refine updLp_keeps (sub hM rfl) ?_
      exact h0

theorem execRetireFrameSwitch_keeps {M : Nat} {s0 : State} {a0 : LPort} {a1 : Bool} {a2 : State} (hM : 68719871574 ||| M = M) (h0 : Keeps M s0 a2) :
    KeepsR M s0 (execRetireFrameSwitch a0 a1 a2) := by
  unfold execRetireFrameSwitch
  extract_lets +onlyGivenNames -lift x0
  clear_value x0
  split
  · refine KeepsR.next ?_
    exact h0
  · extract_lets +onlyGivenNames -lift x2
    clear_value x2
    extract_lets +onlyGivenNames -lift x3
    clear_value x3
    extract_lets +onlyGivenNames -lift x4
    have g5 : Keeps M s0 x4 := by
      refine updLp_keeps (sub hM rfl) ?_
      exact h0
    clear_value x4
    extract_lets +onlyGivenNames -lift x6
    have g7 : Keeps M s0 x6 := by
      refine wr_keeps (sub hM rfl) ?_
      exact g5
    clear_value x6
    extract_lets +onlyGivenNames -lift x8
    have g9 : Keeps M s0 x8 := by
      refine Keeps.ite ?_ ?_
      · split
        · refine wr_keeps (sub hM rfl) ?_
          refine wr_keeps (sub hM rfl) ?_
          refine wr_keeps (sub hM rfl) ?_
          exact g7
      · refine updLp_keeps (sub hM rfl) ?_
        exact g5
    clear_value x8
    refine KeepsR.ite ?_ ?_
    · refine KeepsR.next ?_
      exact h0
    · refine KeepsR.ite ?_ ?_
      · refine KeepsR.next ?_
        refine nextRetire_keeps (sub hM rfl) ?_
        refine raise_keeps (sub hM rfl) ?_
        refine clearReq_keeps (sub hM rfl) ?_
        exact g9
      · refine KeepsR.next ?_
        exact g9

/-! Link. -/

theorem freeCredit_keeps {M : Nat} {s0 : State} {a0 : Nat} {a1 : Nat} {a2 : State} (hM : 64 ||| M = M) (h0 : Keeps M s0 a2) :
    Keeps M s0 (freeCredit a0 a1 a2) := by
  unfold freeCredit
  refine updRx_keeps (sub hM rfl) ?_
  exact h0

theorem badSlot_keeps {M : Nat} {s0 : State} {a0 : Nat} {a1 : State} (hM : 131156 ||| M = M) (h0 : Keeps M s0 a1) :
    Keeps M s0 (badSlot a0 a1) := by
  unfold badSlot
  extract_lets +onlyGivenNames -lift x0
  have g1 : Keeps M s0 x0 := by
    refine count_keeps (sub hM rfl) ?_
    exact h0
  clear_value x0
  refine Keeps.ite ?_ ?_
  · exact g1
  · refine updRx_keeps (sub hM rfl) ?_
    exact g1

theorem sequenceCell_keeps {M : Nat} {s0 : State} {a0 : Nat} {a1 : Cell} {a2 : State} (hM : 131156 ||| M = M) (h0 : Keeps M s0 a2) :
    Keeps M s0 (sequenceCell a0 a1 a2) := by
  unfold sequenceCell
  extract_lets +onlyGivenNames -lift x0
  have g1 : Keeps M s0 x0 := by
    refine countBy_keeps (sub hM rfl) ?_
    refine count_keeps (sub hM rfl) ?_
    exact h0
  clear_value x0
  extract_lets +onlyGivenNames -lift x2
  have g3 : Keeps M s0 x2 := by
    refine updRx_keeps (sub hM rfl) ?_
    exact g1
  clear_value x2
  refine updLp_keeps (sub hM rfl) ?_
  exact g3

theorem discardTaken_keeps {M : Nat} {s0 : State} {a0 : Nat} {a1 : Nat} {a2 : Nat} {a3 : Cell} {a4 : State} (hM : 131156 ||| M = M) (h0 : Keeps M s0 a4) :
    Keeps M s0 (discardTaken a0 a1 a2 a3 a4) := by
  unfold discardTaken
  extract_lets +onlyGivenNames -lift x0
  have g1 : Keeps M s0 x0 := by
    refine freeCredit_keeps (sub hM rfl) ?_
    refine count_keeps (sub hM rfl) ?_
    exact h0
  clear_value x0
  refine Keeps.ite ?_ ?_
  · refine releaseX_keeps (sub hM rfl) ?_
    exact g1
  · exact g1

theorem acceptCell_keeps {M : Nat} {s0 : State} {a0 : Nat} {a1 : Cell} {a2 : State} (hM : 68719871574 ||| M = M) (h0 : Keeps M s0 a2) :
    Keeps M s0 (acceptCell a0 a1 a2) := by
  unfold acceptCell
  extract_lets +onlyGivenNames -lift x0
  clear_value x0
  extract_lets +onlyGivenNames -lift x1
  clear_value x1
  extract_lets +onlyGivenNames -lift x2
  have g3 : Keeps M s0 x2 := by
    refine sequenceCell_keeps (sub hM rfl) ?_
    exact h0
  clear_value x2
  refine Keeps.ite ?_ ?_
  · refine linkFail_keeps (sub hM rfl) ?_
    refine count_keeps (sub hM rfl) ?_
    exact g3
  · refine Keeps.ite ?_ ?_
    · refine discardTaken_keeps (sub hM rfl) ?_
      exact g3
    · refine Keeps.ite ?_ ?_
      · refine discardTaken_keeps (sub hM rfl) ?_
        exact g3
      · refine setHold_keeps (sub hM rfl) ?_
        exact g3

theorem onCell_keeps {M : Nat} {s0 : State} {a0 : Nat} {a1 : Cell} {a2 : State} (hM : 68719871574 ||| M = M) (h0 : Keeps M s0 a2) :
    Keeps M s0 (onCell a0 a1 a2) := by
  unfold onCell
  extract_lets +onlyGivenNames -lift x0
  clear_value x0
  refine Keeps.ite ?_ ?_
  · exact h0
  · split
    · extract_lets +onlyGivenNames -lift x3
      clear_value x3
      refine updRx_keeps (sub hM rfl) ?_
      exact h0
    · refine acceptCell_keeps (sub hM rfl) ?_
      exact h0

theorem portUp_keeps {M : Nat} {s0 : State} {a0 : Nat} {a1 : State} (hM : 17746 ||| M = M) (h0 : Keeps M s0 a1) :
    Keeps M s0 (portUp a0 a1) := by
  unfold portUp
  extract_lets +onlyGivenNames -lift x0
  have g1 : Keeps M s0 x0 := by
    refine updTx_keeps (sub hM rfl) ?_
    exact h0
  clear_value x0
  extract_lets +onlyGivenNames -lift x2
  have g3 : Keeps M s0 x2 := by
    refine wr_keeps (sub hM rfl) ?_
    refine wr_keeps (sub hM rfl) ?_
    exact g1
  clear_value x2
  extract_lets +onlyGivenNames -lift x4
  have g5 : Keeps M s0 x4 := by
    refine updLp_keeps (sub hM rfl) ?_
    exact g3
  clear_value x4
  extract_lets +onlyGivenNames -lift x6
  have g7 : Keeps M s0 x6 := by
    refine Keeps.ite ?_ ?_
    · refine setDom_keeps (sub hM rfl) ?_
      exact g5
    · exact g5
  clear_value x6
  refine sendAssign_keeps (sub hM rfl) ?_
  refine sendDreq_keeps (sub hM rfl) ?_
  refine sendLpwr_keeps (sub hM rfl) ?_
  refine raise_keeps (sub hM rfl) ?_
  exact g7

theorem endP5_keeps {M : Nat} {s0 : State} {a0 : Nat} {a1 : State} (hM : 17746 ||| M = M) (h0 : Keeps M s0 a1) :
    Keeps M s0 (endP5 a0 a1) := by
  unfold endP5
  refine Keeps.ite ?_ ?_
  · refine portUp_keeps (sub hM rfl) ?_
    exact h0
  · exact h0

theorem slotPassed_keeps {M : Nat} {s0 : State} {a0 : Nat} {a1 : State} (hM : 17746 ||| M = M) (h0 : Keeps M s0 a1) :
    Keeps M s0 (slotPassed a0 a1) := by
  unfold slotPassed
  refine Keeps.ite ?_ ?_
  · refine endP5_keeps (sub hM rfl) ?_
    refine updLp_keeps (sub hM rfl) ?_
    exact h0
  · exact h0

theorem execUncorrectableCodeword_keeps {M : Nat} {s0 : State} {a0 : LPort} {a1 : Nat} {a2 : State} (hM : 148822 ||| M = M) (h0 : Keeps M s0 a2) :
    KeepsR M s0 (execUncorrectableCodeword a0 a1 a2) := by
  unfold execUncorrectableCodeword
  extract_lets +onlyGivenNames -lift x0
  clear_value x0
  refine KeepsR.ite ?_ ?_
  · refine KeepsR.next ?_
    refine times_keeps (sub hM rfl) ?_ ?_
    · intro w1 k2
      refine slotPassed_keeps (sub hM rfl) ?_
      refine badSlot_keeps (sub hM rfl) ?_
      exact k2
    · refine count_keeps (sub hM rfl) ?_
      exact h0
  · refine KeepsR.next ?_
    exact h0

theorem execNakRetryTimeout_keeps {M : Nat} {s0 : State} {a0 : LPort} {a1 : State} (hM : 64 ||| M = M) (h0 : Keeps M s0 a1) :
    KeepsR M s0 (execNakRetryTimeout a0 a1) := by
  unfold execNakRetryTimeout
  refine KeepsR.ite ?_ ?_
  · refine KeepsR.next ?_
    refine updRx_keeps (sub hM rfl) ?_
    exact h0
  · refine KeepsR.next ?_
    exact h0

theorem onResyncReplay_keeps {M : Nat} {s0 : State} {a0 : Nat} {a1 : Nat} {a2 : State} (hM : 131156 ||| M = M) (h0 : Keeps M s0 a2) :
    Keeps M s0 (onResyncReplay a0 a1 a2) := by
  unfold onResyncReplay
  extract_lets +onlyGivenNames -lift x0
  clear_value x0
  refine Keeps.ite ?_ ?_
  · refine updRx_keeps (sub hM rfl) ?_
    exact h0
  · refine Keeps.ite ?_ ?_
    · refine updRx_keeps (sub hM rfl) ?_
      refine count_keeps (sub hM rfl) ?_
      exact h0
    · refine Keeps.ite ?_ ?_
      · exact h0
      · refine updRx_keeps (sub hM rfl) ?_
        exact h0

theorem execResyncReplay_keeps {M : Nat} {s0 : State} {a0 : LPort} {a1 : BitVec 13} {a2 : State} (hM : 131156 ||| M = M) (h0 : Keeps M s0 a2) :
    KeepsR M s0 (execResyncReplay a0 a1 a2) := by
  unfold execResyncReplay
  refine KeepsR.next ?_
  refine onResyncReplay_keeps (sub hM rfl) ?_
  exact h0

theorem sendCredit_keeps {M : Nat} {s0 : State} {a0 : Nat} {a1 : Nat} {a2 : State} (hM : 64 ||| M = M) (h0 : Keeps M s0 a2) :
    Keeps M s0 (sendCredit a0 a1 a2) := by
  unfold sendCredit
  extract_lets +onlyGivenNames -lift x0
  clear_value x0
  refine updLp_keeps (sub hM rfl) ?_
  exact h0

theorem onCreq_keeps {M : Nat} {s0 : State} {a0 : Nat} {a1 : Nat} {a2 : State} (hM : 64 ||| M = M) (h0 : Keeps M s0 a2) :
    Keeps M s0 (onCreq a0 a1 a2) := by
  unfold onCreq
  refine Keeps.ite ?_ ?_
  · refine sendCredit_keeps (sub hM rfl) ?_
    exact h0
  · exact h0

theorem execResyncCreq_keeps {M : Nat} {s0 : State} {a0 : LPort} {a1 : Fin 4} {a2 : State} (hM : 64 ||| M = M) (h0 : Keeps M s0 a2) :
    KeepsR M s0 (execResyncCreq a0 a1 a2) := by
  unfold execResyncCreq
  refine KeepsR.next ?_
  refine onCreq_keeps (sub hM rfl) ?_
  exact h0

theorem execCreditWordPeriod_keeps {M : Nat} {s0 : State} {a0 : LPort} {a1 : State} (hM : 64 ||| M = M) (h0 : Keeps M s0 a1) :
    KeepsR M s0 (execCreditWordPeriod a0 a1) := by
  unfold execCreditWordPeriod
  extract_lets +onlyGivenNames -lift x0
  have g1 : Keeps M s0 x0 := by
    refine updLp_keeps (sub hM rfl) ?_
    exact h0
  clear_value x0
  refine KeepsR.ite ?_ ?_
  · refine KeepsR.next ?_
    refine forAll_keeps (sub hM rfl) ?_ ?_
    · intro w2 w3 k4
      refine sendCredit_keeps (sub hM rfl) ?_
      exact k4
    · exact g1
  · refine KeepsR.next ?_
    exact h0

theorem ackCell_keeps {M : Nat} {s0 : State} {a0 : Nat} {a1 : TxEnt} {a2 : State} (hM : 1088 ||| M = M) (h0 : Keeps M s0 a2) :
    Keeps M s0 (ackCell a0 a1 a2) := by
  unfold ackCell
  refine Keeps.ite ?_ ?_
  · refine updTx_keeps (sub hM rfl) ?_
    exact h0
  · refine freeAddr_keeps (sub hM rfl) ?_
    exact h0

theorem ackUpTo_keeps {M : Nat} {s0 : State} {a0 : Nat} {a1 : Nat} {a2 : State} (hM : 132180 ||| M = M) (h0 : Keeps M s0 a2) :
    Keeps2 M s0 (ackUpTo a0 a1 a2) := by
  unfold ackUpTo
  extract_lets +onlyGivenNames -lift x0
  clear_value x0
  extract_lets +onlyGivenNames -lift x1
  clear_value x1
  extract_lets +onlyGivenNames -lift x2
  have g3 : Keeps M s0 x2 := by
    refine forAll_keeps (sub hM rfl) ?_ ?_
    · intro w4 w5 k6
      refine ackCell_keeps (sub hM rfl) ?_
      exact k6
    · exact h0
  clear_value x2
  extract_lets +onlyGivenNames -lift x7
  have g8 : Keeps M s0 x7 := by
    refine updTx_keeps (sub hM rfl) ?_
    exact g3
  clear_value x7
  refine Keeps2.ite ?_ ?_
  · refine Keeps2.mk ?_
    refine count_keeps (sub hM rfl) ?_
    exact h0
  · refine Keeps2.mk ?_
    exact g8

theorem startReplay_keeps {M : Nat} {s0 : State} {a0 : Nat} {a1 : Nat} {a2 : Nat} {a3 : State} (hM : 68719871574 ||| M = M) (h0 : Keeps M s0 a3) :
    Keeps M s0 (startReplay a0 a1 a2 a3) := by
  unfold startReplay
  extract_lets +onlyGivenNames -lift x0
  clear_value x0
  extract_lets +onlyGivenNames -lift x1
  clear_value x1
  extract_lets +onlyGivenNames -lift x2
  have g3 : Keeps M s0 x2 := by
    refine updTx_keeps (sub hM rfl) ?_
    refine count_keeps (sub hM rfl) ?_
    exact h0
  clear_value x2
  refine Keeps.ite ?_ ?_
  · refine linkFail_keeps (sub hM rfl) ?_
    exact h0
  · refine Keeps.ite ?_ ?_
    · exact g3
    · refine voidRequest_keeps (sub hM rfl) ?_
      refine startExit_keeps (sub hM rfl) ?_
      exact g3

theorem goodFcw_keeps {M : Nat} {s0 : State} {a0 : Nat} {a1 : State} (hM : 64 ||| M = M) (h0 : Keeps M s0 a1) :
    Keeps M s0 (goodFcw a0 a1) := by
  unfold goodFcw
  refine updLp_keeps (sub hM rfl) ?_
  exact h0

theorem execAckFcw_keeps {M : Nat} {s0 : State} {a0 : LPort} {a1 : BitVec 13} {a2 : State} (hM : 132180 ||| M = M) (h0 : Keeps M s0 a2) :
    KeepsR M s0 (execAckFcw a0 a1 a2) := by
  unfold execAckFcw
  refine KeepsR.ite ?_ ?_
  · refine KeepsR.next ?_
    refine Keeps2.snd ?_
    refine ackUpTo_keeps (sub hM rfl) ?_
    refine goodFcw_keeps (sub hM rfl) ?_
    exact h0
  · refine KeepsR.next ?_
    exact h0

theorem execNakFcw_keeps {M : Nat} {s0 : State} {a0 : LPort} {a1 : BitVec 13} {a2 : State} (hM : 68719871574 ||| M = M) (h0 : Keeps M s0 a2) :
    KeepsR M s0 (execNakFcw a0 a1 a2) := by
  unfold execNakFcw
  extract_lets +onlyGivenNames -lift x0
  clear_value x0
  refine KeepsR.ite ?_ ?_
  · split
    · rename_i y1 y2 y3
      refine Keeps2.elim (m := M) (s0 := s0) y3 ?_ (fun g4 => ?_)
      · refine ackUpTo_keeps (sub hM rfl) ?_
        refine count_keeps (sub hM rfl) ?_
        refine goodFcw_keeps (sub hM rfl) ?_
        exact h0
      refine KeepsR.next ?_
      refine startReplay_keeps (sub hM rfl) ?_
      exact g4
    · rename_i y5 y6 y7
      refine Keeps2.elim (m := M) (s0 := s0) y7 ?_ (fun g8 => ?_)
      · refine ackUpTo_keeps (sub hM rfl) ?_
        refine count_keeps (sub hM rfl) ?_
        refine goodFcw_keeps (sub hM rfl) ?_
        exact h0
      refine KeepsR.next ?_
      exact g8
  · refine KeepsR.next ?_
    exact h0

theorem execReplayTimeout_keeps {M : Nat} {s0 : State} {a0 : LPort} {a1 : State} (hM : 68719871574 ||| M = M) (h0 : Keeps M s0 a1) :
    KeepsR M s0 (execReplayTimeout a0 a1) := by
  unfold execReplayTimeout
  extract_lets +onlyGivenNames -lift x0
  clear_value x0
  refine KeepsR.ite ?_ ?_
  · refine KeepsR.next ?_
    refine startReplay_keeps (sub hM rfl) ?_
    exact h0
  · refine KeepsR.next ?_
    exact h0

theorem onInit_keeps {M : Nat} {s0 : State} {a0 : Nat} {a1 : State} (hM : 64 ||| M = M) (h0 : Keeps M s0 a1) :
    Keeps M s0 (onInit a0 a1) := by
  unfold onInit
  refine Keeps.ite ?_ ?_
  · refine updTx_keeps (sub hM rfl) ?_
    exact h0
  · exact h0

theorem execResyncInit_keeps {M : Nat} {s0 : State} {a0 : LPort} {a1 : State} (hM : 64 ||| M = M) (h0 : Keeps M s0 a1) :
    KeepsR M s0 (execResyncInit a0 a1) := by
  unfold execResyncInit
  refine KeepsR.next ?_
  refine onInit_keeps (sub hM rfl) ?_
  exact h0

theorem creditFault_keeps {M : Nat} {s0 : State} {a0 : Nat} {a1 : State} (hM : 68719871574 ||| M = M) (h0 : Keeps M s0 a1) :
    Keeps M s0 (creditFault a0 a1) := by
  unfold creditFault
  extract_lets +onlyGivenNames -lift x0
  have g1 : Keeps M s0 x0 := by
    refine updTx_keeps (sub hM rfl) ?_
    refine count_keeps (sub hM rfl) ?_
    exact h0
  clear_value x0
  refine Keeps.ite ?_ ?_
  · refine linkFail_keeps (sub hM rfl) ?_
    exact g1
  · exact g1

theorem takeCredit_keeps {M : Nat} {s0 : State} {a0 : Nat} {a1 : Nat} {a2 : Nat} {a3 : State} (hM : 68719871574 ||| M = M) (h0 : Keeps M s0 a3) :
    Keeps2 M s0 (takeCredit a0 a1 a2 a3) := by
  unfold takeCredit
  extract_lets +onlyGivenNames -lift x0
  clear_value x0
  extract_lets +onlyGivenNames -lift x1
  clear_value x1
  extract_lets +onlyGivenNames -lift x2
  clear_value x2
  refine Keeps2.ite ?_ ?_
  · refine Keeps2.mk ?_
    refine updTx_keeps (sub hM rfl) ?_
    exact h0
  · refine Keeps2.ite ?_ ?_
    · refine Keeps2.mk ?_
      refine creditFault_keeps (sub hM rfl) ?_
      exact h0
    · refine Keeps2.mk ?_
      refine updTx_keeps (sub hM rfl) ?_
      exact h0

theorem takeXrel_keeps {M : Nat} {s0 : State} {a0 : Nat} {a1 : Nat} {a2 : State} (hM : 1088 ||| M = M) (h0 : Keeps M s0 a2) :
    Keeps M s0 (takeXrel a0 a1 a2) := by
  unfold takeXrel
  extract_lets +onlyGivenNames -lift x0
  clear_value x0
  extract_lets +onlyGivenNames -lift x1
  clear_value x1
  extract_lets +onlyGivenNames -lift x2
  have g3 : Keeps M s0 x2 := by
    refine forAll_keeps (sub hM rfl) ?_ ?_
    · intro w4 w5 k6
      refine freeAddr_keeps (sub hM rfl) ?_
      exact k6
    · exact h0
  clear_value x2
  refine Keeps.ite ?_ ?_
  · refine updTx_keeps (sub hM rfl) ?_
    exact g3
  · exact h0

theorem onCreditWord_keeps {M : Nat} {s0 : State} {a0 : Nat} {a1 : Nat} {a2 : Nat} {a3 : Nat} {a4 : State} (hM : 68719888214 ||| M = M) (h0 : Keeps M s0 a4) :
    Keeps M s0 (onCreditWord a0 a1 a2 a3 a4) := by
  unfold onCreditWord
  extract_lets +onlyGivenNames -lift x0
  have g1 : Keeps M s0 x0 := by
    refine updTx_keeps (sub hM rfl) ?_
    exact h0
  clear_value x0
  extract_lets +onlyGivenNames -lift x2
  have g3 : Keeps2 M s0 x2 := by
    refine takeCredit_keeps (sub hM rfl) ?_
    exact h0
  clear_value x2
  refine Keeps.ite ?_ ?_
  · refine endP5_keeps (sub hM rfl) ?_
    exact g1
  · refine Keeps.ite ?_ ?_
    · refine Keeps.ite ?_ ?_
      · refine takeXrel_keeps (sub hM rfl) ?_
        refine Keeps2.snd ?_
        exact g3
      · refine Keeps2.snd ?_
        exact g3
    · exact h0

theorem execCreditWord_keeps {M : Nat} {s0 : State} {a0 : LPort} {a1 : Fin 4} {a2 : BitVec 16} {a3 : BitVec 12} {a4 : State} (hM : 68719888214 ||| M = M) (h0 : Keeps M s0 a4) :
    KeepsR M s0 (execCreditWord a0 a1 a2 a3 a4) := by
  unfold execCreditWord
  refine KeepsR.next ?_
  refine onCreditWord_keeps (sub hM rfl) ?_
  exact h0

theorem execCreditFcw_keeps {M : Nat} {s0 : State} {a0 : LPort} {a1 : Fin 4} {a2 : BitVec 11} {a3 : State} (hM : 68719871574 ||| M = M) (h0 : Keeps M s0 a3) :
    KeepsR M s0 (execCreditFcw a0 a1 a2 a3) := by
  unfold execCreditFcw
  extract_lets +onlyGivenNames -lift x0
  clear_value x0
  extract_lets +onlyGivenNames -lift x1
  have g2 : Keeps M s0 x1 := by
    refine goodFcw_keeps (sub hM rfl) ?_
    exact h0
  clear_value x1
  extract_lets +onlyGivenNames -lift x3
  clear_value x3
  refine KeepsR.ite ?_ ?_
  · refine KeepsR.next ?_
    refine Keeps2.snd ?_
    refine takeCredit_keeps (sub hM rfl) ?_
    exact g2
  · refine KeepsR.next ?_
    exact h0

theorem execCreditStarveTimeout_keeps {M : Nat} {s0 : State} {a0 : LPort} {a1 : Fin 4} {a2 : State} (hM : 131156 ||| M = M) (h0 : Keeps M s0 a2) :
    KeepsR M s0 (execCreditStarveTimeout a0 a1 a2) := by
  unfold execCreditStarveTimeout
  extract_lets +onlyGivenNames -lift x0
  clear_value x0
  refine KeepsR.ite ?_ ?_
  · refine KeepsR.next ?_
    refine pendOs_keeps (sub hM rfl) ?_
    refine count_keeps (sub hM rfl) ?_
    exact h0
  · refine KeepsR.next ?_
    exact h0

theorem onRecall_keeps {M : Nat} {s0 : State} {a0 : Nat} {a1 : Nat} {a2 : State} (hM : 68719608406 ||| M = M) (h0 : Keeps M s0 a2) :
    Keeps M s0 (onRecall a0 a1 a2) := by
  unfold onRecall
  extract_lets +onlyGivenNames -lift x0
  clear_value x0
  split
  · refine wakeFor_keeps (sub hM rfl) ?_
    refine updTx_keeps (sub hM rfl) ?_
    refine count_keeps (sub hM rfl) ?_
    exact h0
  · refine count_keeps (sub hM rfl) ?_
    exact h0

theorem execResyncRecall_keeps {M : Nat} {s0 : State} {a0 : LPort} {a1 : BitVec 12} {a2 : State} (hM : 68719608406 ||| M = M) (h0 : Keeps M s0 a2) :
    KeepsR M s0 (execResyncRecall a0 a1 a2) := by
  unfold execResyncRecall
  refine KeepsR.ite ?_ ?_
  · refine KeepsR.next ?_
    refine onRecall_keeps (sub hM rfl) ?_
    exact h0
  · refine KeepsR.next ?_
    exact h0

end Sys2Proof.Machine
end

