-- ==== Sys2Proof/Laws/KeepsComb.lean ====
section
/-! SUPPORT. `Keeps` for the operations and commands of the scheduler and the Comb. A mask is the sum of 2^i over the fields of State that may
change, numbered as `Keeps` numbers them. -/
namespace Sys2Proof.Machine

-- One theorem at a time, so that the package as one text compiles within its memory limit.
set_option Elab.async false

/-! Dcm. -/

theorem setProxy_keeps {M : Nat} {s0 : State} {a0 : Nat} {a1 : Proxy} {a2 : State} (hM : 33554432 ||| M = M) (h0 : Keeps M s0 a2) :
    Keeps M s0 (setProxy a0 a1 a2) := by
  unfold setProxy
  refine Keeps.set_proxies (hit hM rfl) (?_)
  exact h0

theorem updProxy_keeps {M : Nat} {s0 : State} {a0 : Nat} {a1 : Proxy → Proxy} {a2 : State} (hM : 33554432 ||| M = M) (h0 : Keeps M s0 a2) :
    Keeps M s0 (updProxy a0 a1 a2) := by
  unfold updProxy
  refine setProxy_keeps (sub hM rfl) ?_
  exact h0

theorem setRing_keeps {M : Nat} {s0 : State} {a0 : Nat} {a1 : Nat} {a2 : Ring} {a3 : State} (hM : 33554432 ||| M = M) (h0 : Keeps M s0 a3) :
    Keeps M s0 (setRing a0 a1 a2 a3) := by
  unfold setRing
  refine updProxy_keeps (sub hM rfl) ?_
  exact h0

/-! Sched. -/

theorem dropFlight_keeps {M : Nat} {s0 : State} {a0 : Origin} {a1 : State} (hM : 16384 ||| M = M) (h0 : Keeps M s0 a1) :
    Keeps M s0 (dropFlight a0 a1) := by
  unfold dropFlight
  refine updCmd_keeps (sub hM rfl) ?_
  exact h0

theorem completeFlight_keeps {M : Nat} {s0 : State} {a0 : Origin} {a1 : State} (hM : 16384 ||| M = M) (h0 : Keeps M s0 a1) :
    Keeps M s0 (completeFlight a0 a1) := by
  unfold completeFlight
  refine updCmd_keeps (sub hM rfl) ?_
  exact h0

theorem sendReply_keeps {M : Nat} {s0 : State} {a0 : Bool} {a1 : Origin} {a2 : List Byte} {a3 : State} (hM : 8589952000 ||| M = M) (h0 : Keeps M s0 a3) :
    Keeps M s0 (sendReply a0 a1 a2 a3) := by
  unfold sendReply
  extract_lets +onlyGivenNames -lift x0
  clear_value x0
  split
  · exact h0
  · refine Keeps.ite ?_ ?_
    · exact h0
    · refine sendUnpoliced_keeps (sub hM rfl) ?_
      exact h0
  · refine Keeps.ite ?_ ?_
    · refine updCmd_keeps (sub hM rfl) ?_
      exact h0
    · refine msix_keeps (sub hM rfl) ?_
      refine Keeps.set_hostIf (hit hM rfl) (?_)
      exact h0

theorem deliver_keeps {M : Nat} {s0 : State} {a0 : Origin} {a1 : List Byte} {a2 : State} (hM : 8589952000 ||| M = M) (h0 : Keeps M s0 a2) :
    Keeps M s0 (deliver a0 a1 a2) := by
  unfold deliver
  refine Keeps.ite ?_ ?_
  · refine updCmd_keeps (sub hM rfl) ?_
    refine dropFlight_keeps (sub hM rfl) ?_
    exact h0
  · refine sendReply_keeps (sub hM rfl) ?_
    refine Keeps.ite ?_ ?_
    · refine completeFlight_keeps (sub hM rfl) ?_
      exact h0
    · refine dropFlight_keeps (sub hM rfl) ?_
      exact h0

theorem reply_keeps {M : Nat} {s0 : State} {a0 : Origin} {a1 : Nat} {a2 : List Byte} {a3 : State} (hM : 8589952000 ||| M = M) (h0 : Keeps M s0 a3) :
    Keeps M s0 (reply a0 a1 a2 a3) := by
  unfold reply
  extract_lets +onlyGivenNames -lift x0
  clear_value x0
  refine Keeps.ite ?_ ?_
  · refine dropFlight_keeps (sub hM rfl) ?_
    exact h0
  · split
    · refine deliver_keeps (sub hM rfl) ?_
      exact h0
    · refine deliver_keeps (sub hM rfl) ?_
      exact h0

theorem dispatch_keeps {M : Nat} {s0 : State} {a0 : Origin} {a1 : State} (hM : 16384 ||| M = M) (h0 : Keeps M s0 a1) :
    Keeps M s0 (dispatch a0 a1) := by
  unfold dispatch
  refine updCmd_keeps (sub hM rfl) ?_
  exact h0

theorem command_keeps {M : Nat} {s0 : State} {a0 : Origin} {a1 : List Byte} {a2 : Nat} {a3 : State → State} {a4 : State} (hM : 8589952000 ||| M = M) (h0 : ∀ v0, Keeps M s0 v0 → Keeps M s0 (a3 v0)) (h1 : Keeps M s0 a4) :
    KeepsR M s0 (command a0 a1 a2 a3 a4) := by
  unfold command
  extract_lets +onlyGivenNames -lift x0
  have g1 : Keeps M s0 x0 := by
    refine dispatch_keeps (sub hM rfl) ?_
    exact h1
  clear_value x0
  refine KeepsR.ite ?_ ?_
  · refine KeepsR.next ?_
    exact h1
  · refine KeepsR.ite ?_ ?_
    · refine KeepsR.next ?_
      refine reply_keeps (sub hM rfl) ?_
      exact g1
    · refine KeepsR.next ?_
      refine h0 _ ?_
      exact g1

theorem setShaper_keeps {M : Nat} {s0 : State} {a0 : Nat} {a1 : Shaper} {a2 : State} (hM : 2048 ||| M = M) (h0 : Keeps M s0 a2) :
    Keeps M s0 (setShaper a0 a1 a2) := by
  unfold setShaper
  refine updSched_keeps (sub hM rfl) ?_
  exact h0

theorem setPolicer_keeps {M : Nat} {s0 : State} {a0 : Nat} {a1 : Shaper} {a2 : State} (hM : 2048 ||| M = M) (h0 : Keeps M s0 a2) :
    Keeps M s0 (setPolicer a0 a1 a2) := by
  unfold setPolicer
  refine updSched_keeps (sub hM rfl) ?_
  exact h0

theorem applyShaper_keeps {M : Nat} {s0 : State} {a0 : Nat} {a1 : Word} {a2 : Word} {a3 : State} (hM : 2048 ||| M = M) (h0 : Keeps M s0 a3) :
    Keeps2 M s0 (applyShaper a0 a1 a2 a3) := by
  unfold applyShaper
  extract_lets +onlyGivenNames -lift x0
  clear_value x0
  refine Keeps2.ite ?_ ?_
  · refine Keeps2.mk ?_
    refine setShaper_keeps (sub hM rfl) ?_
    exact h0
  · refine Keeps2.mk ?_
    exact h0

theorem applyPolicer_keeps {M : Nat} {s0 : State} {a0 : Nat} {a1 : Word} {a2 : Word} {a3 : State} (hM : 2048 ||| M = M) (h0 : Keeps M s0 a3) :
    Keeps2 M s0 (applyPolicer a0 a1 a2 a3) := by
  unfold applyPolicer
  refine Keeps2.ite ?_ ?_
  · refine Keeps2.mk ?_
    refine setPolicer_keeps (sub hM rfl) ?_
    exact h0
  · refine Keeps2.mk ?_
    exact h0

theorem shpCtlApply_keeps {M : Nat} {s0 : State} {a0 : EntryPoint} {a1 : State} (hM : 2048 ||| M = M) (h0 : Keeps M s0 a1) :
    Keeps2 M s0 (shpCtlApply a0 a1) := by
  unfold shpCtlApply
  refine applyShaper_keeps (sub hM rfl) ?_
  exact h0

theorem execShpCtlApply_keeps {M : Nat} {s0 : State} {a0 : EntryPoint} {a1 : State} (hM : 2048 ||| M = M) (h0 : Keeps M s0 a1) :
    KeepsR M s0 (execShpCtlApply a0 a1) := by
  unfold execShpCtlApply
  refine access_keeps (sub hM rfl) ?_ ?_
  · intro w0 k1
    refine Keeps2.snd ?_
    refine shpCtlApply_keeps (sub hM rfl) ?_
    exact k1
  · exact h0

theorem shpCtlLoad_keeps {M : Nat} {s0 : State} {a0 : EntryPoint} {a1 : State} (hM : 2 ||| M = M) (h0 : Keeps M s0 a1) :
    Keeps M s0 (shpCtlLoad a0 a1) := by
  unfold shpCtlLoad
  extract_lets +onlyGivenNames -lift x0
  clear_value x0
  refine Keeps.ite ?_ ?_
  · refine regSet_keeps (sub hM rfl) ?_
    refine regSet_keeps (sub hM rfl) ?_
    exact h0
  · exact h0

theorem execShpCtlLoad_keeps {M : Nat} {s0 : State} {a0 : EntryPoint} {a1 : State} (hM : 2 ||| M = M) (h0 : Keeps M s0 a1) :
    KeepsR M s0 (execShpCtlLoad a0 a1) := by
  unfold execShpCtlLoad
  refine access_keeps (sub hM rfl) ?_ ?_
  · intro w0 k1
    refine shpCtlLoad_keeps (sub hM rfl) ?_
    exact k1
  · exact h0

theorem polCtlApply_keeps {M : Nat} {s0 : State} {a0 : EntryPoint} {a1 : State} (hM : 2048 ||| M = M) (h0 : Keeps M s0 a1) :
    Keeps2 M s0 (polCtlApply a0 a1) := by
  unfold polCtlApply
  refine applyPolicer_keeps (sub hM rfl) ?_
  exact h0

theorem execPolCtlApply_keeps {M : Nat} {s0 : State} {a0 : EntryPoint} {a1 : State} (hM : 2048 ||| M = M) (h0 : Keeps M s0 a1) :
    KeepsR M s0 (execPolCtlApply a0 a1) := by
  unfold execPolCtlApply
  refine access_keeps (sub hM rfl) ?_ ?_
  · intro w0 k1
    refine Keeps2.snd ?_
    refine polCtlApply_keeps (sub hM rfl) ?_
    exact k1
  · exact h0

theorem polCtlLoad_keeps {M : Nat} {s0 : State} {a0 : EntryPoint} {a1 : State} (hM : 2 ||| M = M) (h0 : Keeps M s0 a1) :
    Keeps M s0 (polCtlLoad a0 a1) := by
  unfold polCtlLoad
  extract_lets +onlyGivenNames -lift x0
  clear_value x0
  refine Keeps.ite ?_ ?_
  · exact h0
  · refine regSet_keeps (sub hM rfl) ?_
    refine regSet_keeps (sub hM rfl) ?_
    exact h0

theorem execPolCtlLoad_keeps {M : Nat} {s0 : State} {a0 : EntryPoint} {a1 : State} (hM : 2 ||| M = M) (h0 : Keeps M s0 a1) :
    KeepsR M s0 (execPolCtlLoad a0 a1) := by
  unfold execPolCtlLoad
  refine access_keeps (sub hM rfl) ?_ ?_
  · intro w0 k1
    refine polCtlLoad_keeps (sub hM rfl) ?_
    exact k1
  · exact h0

theorem applyXb_keeps {M : Nat} {s0 : State} {a0 : Word} {a1 : Word} {a2 : State} (hM : 2048 ||| M = M) (h0 : Keeps M s0 a2) :
    Keeps M s0 (applyXb a0 a1 a2) := by
  unfold applyXb
  refine updSched_keeps (sub hM rfl) ?_
  exact h0

theorem xbCfgWrite_keeps {M : Nat} {s0 : State} {a0 : Word} {a1 : State} (hM : 2050 ||| M = M) (h0 : Keeps M s0 a1) :
    Keeps2 M s0 (xbCfgWrite a0 a1) := by
  unfold xbCfgWrite
  extract_lets +onlyGivenNames -lift x0
  clear_value x0
  refine Keeps2.ite ?_ ?_
  · refine Keeps2.mk ?_
    refine applyXb_keeps (sub hM rfl) ?_
    refine regSet_keeps (sub hM rfl) ?_
    exact h0
  · refine Keeps2.mk ?_
    exact h0

theorem execXbCfgWrite_keeps {M : Nat} {s0 : State} {a0 : Word} {a1 : State} (hM : 2050 ||| M = M) (h0 : Keeps M s0 a1) :
    KeepsR M s0 (execXbCfgWrite a0 a1) := by
  unfold execXbCfgWrite
  refine access_keeps (sub hM rfl) ?_ ?_
  · intro w0 k1
    refine Keeps2.snd ?_
    refine xbCfgWrite_keeps (sub hM rfl) ?_
    exact k1
  · exact h0

theorem xbBurstWrite_keeps {M : Nat} {s0 : State} {a0 : Word} {a1 : State} (hM : 2050 ||| M = M) (h0 : Keeps M s0 a1) :
    Keeps M s0 (xbBurstWrite a0 a1) := by
  unfold xbBurstWrite
  extract_lets +onlyGivenNames -lift x0
  clear_value x0
  refine applyXb_keeps (sub hM rfl) ?_
  refine regSet_keeps (sub hM rfl) ?_
  exact h0

theorem execXbBurstWrite_keeps {M : Nat} {s0 : State} {a0 : Word} {a1 : State} (hM : 2050 ||| M = M) (h0 : Keeps M s0 a1) :
    KeepsR M s0 (execXbBurstWrite a0 a1) := by
  unfold execXbBurstWrite
  refine access_keeps (sub hM rfl) ?_ ?_
  · intro w0 k1
    refine xbBurstWrite_keeps (sub hM rfl) ?_
    exact k1
  · exact h0

theorem execShpApply_keeps {M : Nat} {s0 : State} {a0 : Origin} {a1 : List Byte} {a2 : State} (hM : 8589954048 ||| M = M) (h0 : Keeps M s0 a2) :
    KeepsR M s0 (execShpApply a0 a1 a2) := by
  unfold execShpApply
  refine command_keeps (sub hM rfl) ?_ ?_
  · intro w1 k2
    extract_lets +onlyGivenNames -lift x3
    have g4 : Keeps2 M s0 x3 := by
      refine applyShaper_keeps (sub hM rfl) ?_
      exact k2
    clear_value x3
    refine Keeps.ite ?_ ?_
    · refine reply_keeps (sub hM rfl) ?_
      exact k2
    · refine reply_keeps (sub hM rfl) ?_
      refine Keeps2.snd ?_
      exact g4
  · exact h0

theorem execShpGet_keeps {M : Nat} {s0 : State} {a0 : Origin} {a1 : List Byte} {a2 : State} (hM : 8589952000 ||| M = M) (h0 : Keeps M s0 a2) :
    KeepsR M s0 (execShpGet a0 a1 a2) := by
  unfold execShpGet
  extract_lets +onlyGivenNames -lift x0
  clear_value x0
  refine command_keeps (sub hM rfl) ?_ ?_
  · intro w2 k3
    extract_lets +onlyGivenNames -lift x4
    clear_value x4
    refine Keeps.ite ?_ ?_
    · refine reply_keeps (sub hM rfl) ?_
      exact k3
    · refine Keeps.ite ?_ ?_
      · refine reply_keeps (sub hM rfl) ?_
        exact k3
      · refine reply_keeps (sub hM rfl) ?_
        exact k3
  · exact h0

theorem execPolApply_keeps {M : Nat} {s0 : State} {a0 : Origin} {a1 : List Byte} {a2 : State} (hM : 8589954048 ||| M = M) (h0 : Keeps M s0 a2) :
    KeepsR M s0 (execPolApply a0 a1 a2) := by
  unfold execPolApply
  refine command_keeps (sub hM rfl) ?_ ?_
  · intro w1 k2
    extract_lets +onlyGivenNames -lift x3
    have g4 : Keeps2 M s0 x3 := by
      refine applyPolicer_keeps (sub hM rfl) ?_
      exact k2
    clear_value x3
    refine Keeps.ite ?_ ?_
    · refine reply_keeps (sub hM rfl) ?_
      exact k2
    · refine reply_keeps (sub hM rfl) ?_
      refine Keeps2.snd ?_
      exact g4
  · exact h0

theorem execPolGet_keeps {M : Nat} {s0 : State} {a0 : Origin} {a1 : List Byte} {a2 : State} (hM : 8589952000 ||| M = M) (h0 : Keeps M s0 a2) :
    KeepsR M s0 (execPolGet a0 a1 a2) := by
  unfold execPolGet
  extract_lets +onlyGivenNames -lift x0
  clear_value x0
  refine command_keeps (sub hM rfl) ?_ ?_
  · intro w2 k3
    extract_lets +onlyGivenNames -lift x4
    clear_value x4
    refine Keeps.ite ?_ ?_
    · refine reply_keeps (sub hM rfl) ?_
      exact k3
    · refine reply_keeps (sub hM rfl) ?_
      exact k3
  · exact h0

theorem clearOcc_keeps {M : Nat} {s0 : State} {a0 : Nat} {a1 : State} (hM : 1024 ||| M = M) (h0 : Keeps M s0 a1) :
    Keeps M s0 (clearOcc a0 a1) := by
  unfold clearOcc
  refine updComb_keeps (sub hM rfl) ?_
  exact h0

theorem clearSoj_keeps {M : Nat} {s0 : State} {a0 : Nat} {a1 : State} (hM : 1024 ||| M = M) (h0 : Keeps M s0 a1) :
    Keeps M s0 (clearSoj a0 a1) := by
  unfold clearSoj
  refine updComb_keeps (sub hM rfl) ?_
  exact h0

theorem readHwmOcc_keeps {M : Nat} {s0 : State} {a0 : EntryPoint} {a1 : State} (hM : 1024 ||| M = M) (h0 : Keeps M s0 a1) :
    Keeps2 M s0 (readHwmOcc a0 a1) := by
  unfold readHwmOcc
  extract_lets +onlyGivenNames -lift x0
  clear_value x0
  refine Keeps2.mk ?_
  refine clearOcc_keeps (sub hM rfl) ?_
  exact h0

theorem readHwmSoj_keeps {M : Nat} {s0 : State} {a0 : EntryPoint} {a1 : State} (hM : 1024 ||| M = M) (h0 : Keeps M s0 a1) :
    Keeps2 M s0 (readHwmSoj a0 a1) := by
  unfold readHwmSoj
  extract_lets +onlyGivenNames -lift x0
  clear_value x0
  refine Keeps2.mk ?_
  refine clearSoj_keeps (sub hM rfl) ?_
  exact h0

theorem returned_keeps {M : Nat} {s0 : State} {a0 : Word × State} (hM : 32 ||| M = M) (h0 : Keeps2 M s0 a0) :
    Keeps M s0 (returned a0) := by
  unfold returned
  extract_lets +onlyGivenNames -lift x0
  have g1 : Keeps M s0 x0 := by
    refine Keeps2.snd ?_
    exact h0
  clear_value x0
  refine Keeps.set_lastRead (hit hM rfl) (?_)
  exact g1

theorem execHwmOccRead_keeps {M : Nat} {s0 : State} {a0 : EntryPoint} {a1 : State} (hM : 1056 ||| M = M) (h0 : Keeps M s0 a1) :
    KeepsR M s0 (execHwmOccRead a0 a1) := by
  unfold execHwmOccRead
  refine access_keeps (sub hM rfl) ?_ ?_
  · intro w0 k1
    refine returned_keeps (sub hM rfl) ?_
    refine readHwmOcc_keeps (sub hM rfl) ?_
    exact k1
  · exact h0

theorem execHwmSojRead_keeps {M : Nat} {s0 : State} {a0 : EntryPoint} {a1 : State} (hM : 1056 ||| M = M) (h0 : Keeps M s0 a1) :
    KeepsR M s0 (execHwmSojRead a0 a1) := by
  unfold execHwmSojRead
  refine access_keeps (sub hM rfl) ?_ ?_
  · intro w0 k1
    refine returned_keeps (sub hM rfl) ?_
    refine readHwmSoj_keeps (sub hM rfl) ?_
    exact k1
  · exact h0

theorem execHwmRead_keeps {M : Nat} {s0 : State} {a0 : Origin} {a1 : List Byte} {a2 : State} (hM : 8589952000 ||| M = M) (h0 : Keeps M s0 a2) :
    KeepsR M s0 (execHwmRead a0 a1 a2) := by
  unfold execHwmRead
  extract_lets +onlyGivenNames -lift x0
  clear_value x0
  refine command_keeps (sub hM rfl) ?_ ?_
  · intro w1 k2
    refine Keeps.ite ?_ ?_
    · refine reply_keeps (sub hM rfl) ?_
      exact k2
    · refine reply_keeps (sub hM rfl) ?_
      refine clearOcc_keeps (sub hM rfl) ?_
      refine clearSoj_keeps (sub hM rfl) ?_
      exact k2
  · exact h0

theorem execExpressMonitorWindow_keeps {M : Nat} {s0 : State} {a0 : State} (hM : 82 ||| M = M) (h0 : Keeps M s0 a0) :
    KeepsR M s0 (execExpressMonitorWindow a0) := by
  unfold execExpressMonitorWindow
  extract_lets +onlyGivenNames -lift x0
  clear_value x0
  extract_lets +onlyGivenNames -lift x1
  clear_value x1
  extract_lets +onlyGivenNames -lift x2
  have g3 : Keeps M s0 x2 := by
    refine forAll_keeps (sub hM rfl) ?_ ?_
    · intro w4 w5 k6
      refine updLp_keeps (sub hM rfl) ?_
      exact k6
    · exact h0
  clear_value x2
  refine KeepsR.ite ?_ ?_
  · refine KeepsR.next ?_
    exact g3
  · refine KeepsR.next ?_
    refine raise_keeps (sub hM rfl) ?_
    refine orF_keeps (sub hM rfl) ?_
    exact g3

theorem putOpen_keeps {M : Nat} {s0 : State} {a0 : GuardFrame} {a1 : State} (hM : 2048 ||| M = M) (h0 : Keeps M s0 a1) :
    Keeps M s0 (putOpen a0 a1) := by
  unfold putOpen
  refine updSched_keeps (sub hM rfl) ?_
  exact h0

theorem closeOpen_keeps {M : Nat} {s0 : State} {a0 : Nat} {a1 : Cell} {a2 : State} (hM : 2048 ||| M = M) (h0 : Keeps M s0 a2) :
    Keeps M s0 (closeOpen a0 a1 a2) := by
  unfold closeOpen
  refine updSched_keeps (sub hM rfl) ?_
  exact h0

theorem originFail_keeps {M : Nat} {s0 : State} {a0 : Nat} {a1 : State} (hM : 131094 ||| M = M) (h0 : Keeps M s0 a1) :
    Keeps M s0 (originFail a0 a1) := by
  unfold originFail
  refine wr_keeps (sub hM rfl) ?_
  refine Keeps.ite ?_ ?_
  · refine count_keeps (sub hM rfl) ?_
    exact h0
  · exact h0

theorem chargeGreen_keeps {M : Nat} {s0 : State} {a0 : GuardFrame} {a1 : Cell} {a2 : State} (hM : 133140 ||| M = M) (h0 : Keeps M s0 a2) :
    Keeps2 M s0 (chargeGreen a0 a1 a2) := by
  unfold chargeGreen
  extract_lets +onlyGivenNames -lift x0
  clear_value x0
  split
  · rename_i y2 y3 y4 y5
    refine Keeps2.elim (m := M) (s0 := s0) y5 ?_ (fun g6 => ?_)
    · refine Keeps2.ite ?_ ?_
      · refine Keeps2.mk ?_
        exact h0
      · split
        · refine Keeps2.mk ?_
          refine countBy_keeps (sub hM rfl) ?_
          refine setPolicer_keeps (sub hM rfl) ?_
          exact h0
    extract_lets +onlyGivenNames -lift x7
    clear_value x7
    refine Keeps2.ite ?_ ?_
    · split
      · refine Keeps2.mk ?_
        refine updSched_keeps (sub hM rfl) ?_
        exact g6
    · refine Keeps2.mk ?_
      exact g6

theorem countRed_keeps {M : Nat} {s0 : State} {a0 : GuardFrame} {a1 : Cell} {a2 : State} (hM : 131092 ||| M = M) (h0 : Keeps M s0 a2) :
    Keeps2 M s0 (countRed a0 a1 a2) := by
  unfold countRed
  extract_lets +onlyGivenNames -lift x0
  clear_value x0
  extract_lets +onlyGivenNames -lift x1
  have g2 : Keeps M s0 x1 := by
    refine Keeps.ite ?_ ?_
    · refine count_keeps (sub hM rfl) ?_
      exact h0
    · exact h0
  clear_value x1
  extract_lets +onlyGivenNames -lift x3
  have g4 : Keeps M s0 x3 := by
    refine Keeps.ite ?_ ?_
    · refine count_keeps (sub hM rfl) ?_
      exact h0
    · exact h0
  clear_value x3
  refine Keeps2.ite ?_ ?_
  · split
    · refine Keeps2.mk ?_
      refine countBy_keeps (sub hM rfl) ?_
      exact g2
  · refine Keeps2.ite ?_ ?_
    · split
      · refine Keeps2.mk ?_
        refine countBy_keeps (sub hM rfl) ?_
        exact g4
    · refine Keeps2.mk ?_
      exact h0

theorem guard_keeps {M : Nat} {s0 : State} {a0 : Nat} {a1 : Cell} {a2 : State} (hM : 133142 ||| M = M) (h0 : Keeps M s0 a2) :
    Keeps2 M s0 (guard a0 a1 a2) := by
  unfold guard
  extract_lets +onlyGivenNames -lift x0
  have g1 : ∀ v0 v1, Keeps M s0 v1 → Keeps M s0 (x0 v0 v1) := by
    intro w2 w3 k4
    refine Keeps.ite ?_ ?_
    · refine closeOpen_keeps (sub hM rfl) ?_
      exact k4
    · refine putOpen_keeps (sub hM rfl) ?_
      exact k4
  clear_value x0
  extract_lets +onlyGivenNames -lift x5
  clear_value x5
  extract_lets +onlyGivenNames -lift x6
  clear_value x6
  extract_lets +onlyGivenNames -lift x7
  clear_value x7
  extract_lets +onlyGivenNames -lift x8
  clear_value x8
  extract_lets +onlyGivenNames -lift x9
  clear_value x9
  extract_lets +onlyGivenNames -lift x10
  clear_value x10
  extract_lets +onlyGivenNames -lift x11
  clear_value x11
  extract_lets +onlyGivenNames -lift x12
  have g13 : Keeps2 M s0 x12 := by
    refine Keeps2.ite ?_ ?_
    · refine chargeGreen_keeps (sub hM rfl) ?_
      exact h0
    · refine countRed_keeps (sub hM rfl) ?_
      exact h0
  clear_value x12
  refine Keeps2.ite ?_ ?_
  · refine Keeps2.ite ?_ ?_
    · refine Keeps2.mk ?_
      refine g1 _ _ ?_
      refine originFail_keeps (sub hM rfl) ?_
      exact h0
    · refine Keeps2.ite ?_ ?_
      · refine Keeps2.mk ?_
        refine g1 _ _ ?_
        refine originFail_keeps (sub hM rfl) ?_
        exact h0
      · refine Keeps2.mk ?_
        refine g1 _ _ ?_
        refine Keeps2.snd ?_
        exact g13
  · split
    · refine Keeps2.mk ?_
      refine originFail_keeps (sub hM rfl) ?_
      exact h0
    · extract_lets +onlyGivenNames -lift x16
      have g17 : Keeps2 M s0 x16 := by
        refine Keeps2.ite ?_ ?_
        · refine chargeGreen_keeps (sub hM rfl) ?_
          exact h0
        · refine countRed_keeps (sub hM rfl) ?_
          exact h0
      clear_value x16
      refine Keeps2.mk ?_
      refine g1 _ _ ?_
      refine Keeps2.snd ?_
      exact g17

theorem setDwrr_keeps {M : Nat} {s0 : State} {a0 : Nat} {a1 : Dwrr} {a2 : State} (hM : 2048 ||| M = M) (h0 : Keeps M s0 a2) :
    Keeps M s0 (setDwrr a0 a1 a2) := by
  unfold setDwrr
  refine updSched_keeps (sub hM rfl) ?_
  exact h0

theorem dwrrJoin_keeps {M : Nat} {s0 : State} {a0 : Nat} {a1 : Nat} {a2 : State} (hM : 2048 ||| M = M) (h0 : Keeps M s0 a2) :
    Keeps M s0 (dwrrJoin a0 a1 a2) := by
  unfold dwrrJoin
  extract_lets +onlyGivenNames -lift x0
  clear_value x0
  refine Keeps.ite ?_ ?_
  · exact h0
  · refine setDwrr_keeps (sub hM rfl) ?_
    exact h0

theorem dwrrLeave_keeps {M : Nat} {s0 : State} {a0 : Nat} {a1 : Nat} {a2 : State} (hM : 2048 ||| M = M) (h0 : Keeps M s0 a2) :
    Keeps M s0 (dwrrLeave a0 a1 a2) := by
  unfold dwrrLeave
  extract_lets +onlyGivenNames -lift x0
  clear_value x0
  refine Keeps.ite ?_ ?_
  · refine setDwrr_keeps (sub hM rfl) ?_
    exact h0
  · exact h0

theorem dwrrSent_keeps {M : Nat} {s0 : State} {a0 : Nat} {a1 : Nat} {a2 : Bool} {a3 : Nat} {a4 : Bool} {a5 : State} (hM : 2048 ||| M = M) (h0 : Keeps M s0 a5) :
    Keeps M s0 (dwrrSent a0 a1 a2 a3 a4 a5) := by
  unfold dwrrSent
  extract_lets +onlyGivenNames -lift x0
  clear_value x0
  extract_lets +onlyGivenNames -lift x1
  clear_value x1
  refine setDwrr_keeps (sub hM rfl) ?_
  exact h0

/-! CombOps. -/

theorem setVoq_keeps {M : Nat} {s0 : State} {a0 : Nat} {a1 : List QEnt} {a2 : State} (hM : 1024 ||| M = M) (h0 : Keeps M s0 a2) :
    Keeps M s0 (setVoq a0 a1 a2) := by
  unfold setVoq
  refine updComb_keeps (sub hM rfl) ?_
  exact h0

theorem setVoqPark_keeps {M : Nat} {s0 : State} {a0 : Nat} {a1 : List QEnt} {a2 : State} (hM : 1024 ||| M = M) (h0 : Keeps M s0 a2) :
    Keeps M s0 (setVoqPark a0 a1 a2) := by
  unfold setVoqPark
  refine updComb_keeps (sub hM rfl) ?_
  exact h0

theorem setAhead_keeps {M : Nat} {s0 : State} {a0 : Nat} {a1 : List QEnt} {a2 : State} (hM : 1024 ||| M = M) (h0 : Keeps M s0 a2) :
    Keeps M s0 (setAhead a0 a1 a2) := by
  unfold setAhead
  refine updComb_keeps (sub hM rfl) ?_
  exact h0

theorem setSpill_keeps {M : Nat} {s0 : State} {a0 : Nat} {a1 : List QEnt} {a2 : State} (hM : 1024 ||| M = M) (h0 : Keeps M s0 a2) :
    Keeps M s0 (setSpill a0 a1 a2) := by
  unfold setSpill
  refine updComb_keeps (sub hM rfl) ?_
  exact h0

theorem setStaging_keeps {M : Nat} {s0 : State} {a0 : Nat} {a1 : List Staged} {a2 : State} (hM : 1024 ||| M = M) (h0 : Keeps M s0 a2) :
    Keeps M s0 (setStaging a0 a1 a2) := by
  unfold setStaging
  refine updComb_keeps (sub hM rfl) ?_
  exact h0

theorem settleMode_keeps {M : Nat} {s0 : State} {a0 : State} (hM : 2 ||| M = M) (h0 : Keeps M s0 a0) :
    Keeps M s0 (settleMode a0) := by
  unfold settleMode
  extract_lets +onlyGivenNames -lift x0
  clear_value x0
  split
  · refine Keeps.ite ?_ ?_
    · refine wr_keeps (sub hM rfl) ?_
      exact h0
    · exact h0
  · refine Keeps.ite ?_ ?_
    · exact h0
    · refine wr_keeps (sub hM rfl) ?_
      exact h0
  · refine Keeps.ite ?_ ?_
    · exact h0
    · refine wr_keeps (sub hM rfl) ?_
      exact h0
  · refine Keeps.ite ?_ ?_
    · exact h0
    · refine wr_keeps (sub hM rfl) ?_
      exact h0

theorem enterVoq_keeps {M : Nat} {s0 : State} {a0 : Nat} {a1 : State} (hM : 1042 ||| M = M) (h0 : Keeps M s0 a1) :
    Keeps M s0 (enterVoq a0 a1) := by
  unfold enterVoq
  extract_lets +onlyGivenNames -lift x0
  clear_value x0
  extract_lets +onlyGivenNames -lift x1
  have g2 : Keeps M s0 x1 := by
    refine updComb_keeps (sub hM rfl) ?_
    exact h0
  clear_value x1
  refine Keeps.ite ?_ ?_
  · exact h0
  · refine Keeps.ite ?_ ?_
    · refine raise_keeps (sub hM rfl) ?_
      refine wr_keeps (sub hM rfl) ?_
      refine settleMode_keeps (sub hM rfl) ?_
      exact g2
    · exact g2

theorem leaveVoq_keeps {M : Nat} {s0 : State} {a0 : Nat} {a1 : State} (hM : 1026 ||| M = M) (h0 : Keeps M s0 a1) :
    Keeps M s0 (leaveVoq a0 a1) := by
  unfold leaveVoq
  extract_lets +onlyGivenNames -lift x0
  have g1 : Keeps M s0 x0 := by
    refine updComb_keeps (sub hM rfl) ?_
    exact h0
  clear_value x0
  refine Keeps.ite ?_ ?_
  · refine settleMode_keeps (sub hM rfl) ?_
    refine wr_keeps (sub hM rfl) ?_
    exact g1
  · exact h0

theorem updXoff_keeps {M : Nat} {s0 : State} {a0 : State} (hM : 1024 ||| M = M) (h0 : Keeps M s0 a0) :
    Keeps M s0 (updXoff a0) := by
  unfold updXoff
  extract_lets +onlyGivenNames -lift x0
  clear_value x0
  extract_lets +onlyGivenNames -lift x1
  clear_value x1
  refine Keeps.ite ?_ ?_
  · exact h0
  · refine updComb_keeps (sub hM rfl) ?_
    exact h0

theorem releaseCopy_keeps {M : Nat} {s0 : State} {a0 : QEnt} {a1 : State} (hM : 64 ||| M = M) (h0 : Keeps M s0 a1) :
    Keeps M s0 (releaseCopy a0 a1) := by
  unfold releaseCopy
  refine Keeps.ite ?_ ?_
  · refine releaseX_keeps (sub hM rfl) ?_
    exact h0
  · exact h0

theorem uncharge_keeps {M : Nat} {s0 : State} {a0 : QEnt} {a1 : State} (hM : 64 ||| M = M) (h0 : Keeps M s0 a1) :
    Keeps M s0 (uncharge a0 a1) := by
  unfold uncharge
  refine Keeps.ite ?_ ?_
  · refine freeCredit_keeps (sub hM rfl) ?_
    exact h0
  · exact h0

theorem logDiscard_keeps {M : Nat} {s0 : State} {a0 : Discard} {a1 : State} (hM : 131088 ||| M = M) (h0 : Keeps M s0 a1) :
    Keeps M s0 (logDiscard a0 a1) := by
  unfold logDiscard
  refine Keeps.ite ?_ ?_
  · refine logErr_keeps (sub hM rfl) ?_
    exact h0
  · exact h0

theorem ringGone_keeps {M : Nat} {s0 : State} {a0 : Cell} {a1 : State} (hM : 512 ||| M = M) (h0 : Keeps M s0 a1) :
    Keeps M s0 (ringGone a0 a1) := by
  unfold ringGone
  refine Keeps.ite ?_ ?_
  · refine updTopo_keeps (sub hM rfl) ?_
    exact h0
  · exact h0

theorem discardCell_keeps {M : Nat} {s0 : State} {a0 : Nat} {a1 : Nat} {a2 : Bool} {a3 : QEnt} {a4 : State} (hM : 132692 ||| M = M) (h0 : Keeps M s0 a4) :
    Keeps M s0 (discardCell a0 a1 a2 a3 a4) := by
  unfold discardCell
  extract_lets +onlyGivenNames -lift x0
  have g1 : Keeps M s0 x0 := by
    refine Keeps.ite ?_ ?_
    · refine freeAddr_keeps (sub hM rfl) ?_
      exact h0
    · exact h0
  clear_value x0
  extract_lets +onlyGivenNames -lift x2
  have g3 : Keeps M s0 x2 := by
    refine count_keeps (sub hM rfl) ?_
    exact g1
  clear_value x2
  extract_lets +onlyGivenNames -lift x4
  have g5 : Keeps M s0 x4 := by
    refine uncharge_keeps (sub hM rfl) ?_
    refine releaseCopy_keeps (sub hM rfl) ?_
    exact g3
  clear_value x4
  extract_lets +onlyGivenNames -lift x6
  have g7 : Keeps M s0 x6 := by
    refine Keeps.ite ?_ ?_
    · refine ringGone_keeps (sub hM rfl) ?_
      exact g5
    · exact g5
  clear_value x6
  extract_lets +onlyGivenNames -lift x8
  clear_value x8
  extract_lets +onlyGivenNames -lift x9
  have g10 : Keeps M s0 x9 := by
    refine Keeps.ite ?_ ?_
    · refine raise_keeps (sub hM rfl) ?_
      exact g7
    · exact g7
  clear_value x9
  split
  · extract_lets +onlyGivenNames -lift x12
    clear_value x12
    refine Keeps.ite ?_ ?_
    · refine updComb_keeps (sub hM rfl) ?_
      refine logDiscard_keeps (sub hM rfl) ?_
      exact g7
    · refine updComb_keeps (sub hM rfl) ?_
      exact g7
  · refine Keeps.ite ?_ ?_
    · refine logDiscard_keeps (sub hM rfl) ?_
      exact g10
    · refine updComb_keeps (sub hM rfl) ?_
      exact g10

theorem endLogs_keeps {M : Nat} {s0 : State} {a0 : Nat} {a1 : Nat} {a2 : State} (hM : 132112 ||| M = M) (h0 : Keeps M s0 a2) :
    Keeps M s0 (endLogs a0 a1 a2) := by
  unfold endLogs
  extract_lets +onlyGivenNames -lift x0
  have g1 : Keeps M s0 x0 := by
    refine forAll_keeps (sub hM rfl) ?_ ?_
    · intro w2 w3 k4
      refine logDiscard_keeps (sub hM rfl) ?_
      exact k4
    · exact h0
  clear_value x0
  refine updComb_keeps (sub hM rfl) ?_
  exact g1

theorem drainOne_keeps {M : Nat} {s0 : State} {a0 : Nat} {a1 : State} (hM : 256 ||| M = M) (h0 : Keeps M s0 a1) :
    Keeps M s0 (drainOne a0 a1) := by
  unfold drainOne
  split
  · exact h0
  · extract_lets +onlyGivenNames -lift x1
    clear_value x1
    refine Keeps.ite ?_ ?_
    · exact h0
    · refine Keeps.ite ?_ ?_
      · refine setDom_keeps (sub hM rfl) ?_
        exact h0
      · exact h0

theorem atHead_keeps {M : Nat} {s0 : State} {a0 : Nat} {a1 : QEnt} {a2 : State} (hM : 132692 ||| M = M) (h0 : Keeps M s0 a2) :
    Keeps2 M s0 (atHead a0 a1 a2) := by
  unfold atHead
  refine Keeps2.ite ?_ ?_
  · refine Keeps2.mk ?_
    refine discardCell_keeps (sub hM rfl) ?_
    exact h0
  · split
    · refine Keeps2.mk ?_
      exact h0
    · refine Keeps2.ite ?_ ?_
      · refine Keeps2.mk ?_
        refine updComb_keeps (sub hM rfl) ?_
        refine logDiscard_keeps (sub hM rfl) ?_
        exact h0
      · refine Keeps2.mk ?_
        refine discardCell_keeps (sub hM rfl) ?_
        exact h0

theorem sift_keeps {M : Nat} {s0 : State} {a0 : Nat} {a1 : List QEnt} {a2 : State} (hM : 132948 ||| M = M) (h0 : Keeps M s0 a2) :
    Keeps2 M s0 (sift a0 a1 a2) := by
  induction a1 generalizing a0 a2 with
  | nil =>
    unfold sift
    refine Keeps2.mk ?_
    exact h0
  | cons e l ih =>
    unfold sift
    split
    · rename_i y0 y1 y2
      refine Keeps2.elim (m := M) (s0 := s0) y2 ?_ (fun g3 => ?_)
      · refine atHead_keeps (sub hM rfl) ?_
        exact h0
      refine Keeps2.mk ?_
      exact g3
    · rename_i y4 y5 y6
      refine Keeps2.elim (m := M) (s0 := s0) y6 ?_ (fun g7 => ?_)
      · refine atHead_keeps (sub hM rfl) ?_
        exact h0
      apply ih
      refine drainOne_keeps (sub hM rfl) ?_
      exact g7

theorem siftAhead_keeps {M : Nat} {s0 : State} {a0 : Nat} {a1 : List QEnt} {a2 : State} (hM : 132948 ||| M = M) (h0 : Keeps M s0 a2) :
    Keeps2 M s0 (siftAhead a0 a1 a2) := by
  induction a1 generalizing a0 a2 with
  | nil =>
    unfold siftAhead
    refine Keeps2.mk ?_
    exact h0
  | cons e l ih =>
    unfold siftAhead
    split
    · rename_i y1 y2 y3
      refine Keeps2.elim (m := M) (s0 := s0) y3 ?_ (fun g4 => ?_)
      · refine atHead_keeps (sub hM rfl) ?_
        exact h0
      extract_lets +onlyGivenNames -lift x5
      have g6 : Keeps2 M s0 x5 := by
        unfold x5
        apply ih
        exact g4
      clear_value x5
      refine Keeps2.mk ?_
      refine Keeps2.snd ?_
      exact g6
    · rename_i y7 y8 y9
      refine Keeps2.elim (m := M) (s0 := s0) y9 ?_ (fun g10 => ?_)
      · refine atHead_keeps (sub hM rfl) ?_
        exact h0
      apply ih
      refine drainOne_keeps (sub hM rfl) ?_
      exact g10

theorem setTest_keeps {M : Nat} {s0 : State} {a0 : Nat} {a1 : TestRun} {a2 : State} (hM : 68719476736 ||| M = M) (h0 : Keeps M s0 a2) :
    Keeps M s0 (setTest a0 a1 a2) := by
  unfold setTest
  extract_lets +onlyGivenNames -lift x0
  clear_value x0
  refine Keeps.set_tests (hit hM rfl) (?_)
  exact h0

theorem endTest_keeps {M : Nat} {s0 : State} {a0 : Nat} {a1 : Bool} {a2 : List Byte} {a3 : State} (hM : 68719607824 ||| M = M) (h0 : Keeps M s0 a3) :
    Keeps M s0 (endTest a0 a1 a2 a3) := by
  unfold endTest
  extract_lets +onlyGivenNames -lift x0
  clear_value x0
  extract_lets +onlyGivenNames -lift x1
  have g2 : Keeps M s0 x1 := by
    refine raise_keeps (sub hM rfl) ?_
    refine setTest_keeps (sub hM rfl) ?_
    exact h0
  clear_value x1
  refine Keeps.ite ?_ ?_
  · exact g2
  · refine logErr_keeps (sub hM rfl) ?_
    exact g2

theorem abortTest_keeps {M : Nat} {s0 : State} {a0 : Nat} {a1 : State} (hM : 68719476753 ||| M = M) (h0 : Keeps M s0 a1) :
    Keeps M s0 (abortTest a0 a1) := by
  unfold abortTest
  extract_lets +onlyGivenNames -lift x0
  clear_value x0
  refine Keeps.ite ?_ ?_
  · split
    · rename_i y1 y2 y3 y4
      refine Keeps2.elim (m := M) (s0 := s0) y4 ?_ (fun g5 => ?_)
      · refine drawFree_keeps (sub hM rfl) ?_
        exact h0
      split
      · rename_i y6 y7 y8 y9
        refine Keeps2.elim (m := M) (s0 := s0) y9 ?_ (fun g10 => ?_)
        · refine drawFree_keeps (sub hM rfl) ?_
          exact g5
        refine raise_keeps (sub hM rfl) ?_
        refine setTest_keeps (sub hM rfl) ?_
        exact g10
  · exact h0

theorem retireNow_keeps {M : Nat} {s0 : State} {a0 : Nat} {a1 : State} (hM : 1026 ||| M = M) (h0 : Keeps M s0 a1) :
    Keeps M s0 (retireNow a0 a1) := by
  unfold retireNow
  refine updComb_keeps (sub hM rfl) ?_
  refine wr_keeps (sub hM rfl) ?_
  exact h0

theorem requestRetire_keeps {M : Nat} {s0 : State} {a0 : Nat} {a1 : State} (hM : 1042 ||| M = M) (h0 : Keeps M s0 a1) :
    Keeps M s0 (requestRetire a0 a1) := by
  unfold requestRetire
  extract_lets +onlyGivenNames -lift x0
  have g1 : Keeps M s0 x0 := by
    refine wr_keeps (sub hM rfl) ?_
    exact h0
  clear_value x0
  refine Keeps.ite ?_ ?_
  · exact h0
  · refine Keeps.ite ?_ ?_
    · refine raise_keeps (sub hM rfl) ?_
      exact h0
    · refine Keeps.ite ?_ ?_
      · refine updComb_keeps (sub hM rfl) ?_
        exact g1
      · refine updComb_keeps (sub hM rfl) ?_
        exact g1

theorem bankError_keeps {M : Nat} {s0 : State} {a0 : Nat} {a1 : State} (hM : 132118 ||| M = M) (h0 : Keeps M s0 a1) :
    Keeps M s0 (bankError a0 a1) := by
  unfold bankError
  extract_lets +onlyGivenNames -lift x0
  clear_value x0
  extract_lets +onlyGivenNames -lift x1
  have g2 : Keeps M s0 x1 := by
    refine updComb_keeps (sub hM rfl) ?_
    refine count_keeps (sub hM rfl) ?_
    exact h0
  clear_value x1
  extract_lets +onlyGivenNames -lift x3
  clear_value x3
  refine Keeps.ite ?_ ?_
  · refine requestRetire_keeps (sub hM rfl) ?_
    exact g2
  · exact g2

theorem recallCell_keeps {M : Nat} {s0 : State} {a0 : QEnt} {a1 : State} (hM : 64 ||| M = M) (h0 : Keeps M s0 a1) :
    Keeps M s0 (recallCell a0 a1) := by
  unfold recallCell
  extract_lets +onlyGivenNames -lift x0
  have g1 : Keeps M s0 x0 := by
    refine updLp_keeps (sub hM rfl) ?_
    exact h0
  clear_value x0
  refine updRx_keeps (sub hM rfl) ?_
  exact g1

theorem badCell_keeps {M : Nat} {s0 : State} {a0 : Nat} {a1 : QEnt} {a2 : State} (hM : 132694 ||| M = M) (h0 : Keeps M s0 a2) :
    Keeps M s0 (badCell a0 a1 a2) := by
  unfold badCell
  extract_lets +onlyGivenNames -lift x0
  have g1 : Keeps M s0 x0 := by
    refine bankError_keeps (sub hM rfl) ?_
    exact h0
  clear_value x0
  refine Keeps.ite ?_ ?_
  · refine recallCell_keeps (sub hM rfl) ?_
    refine uncharge_keeps (sub hM rfl) ?_
    refine freeAddr_keeps (sub hM rfl) ?_
    exact g1
  · refine discardCell_keeps (sub hM rfl) ?_
    exact g1

theorem takeSpill_keeps {M : Nat} {s0 : State} {a0 : Nat} {a1 : Nat} {a2 : State} (hM : 1024 ||| M = M) (h0 : Keeps M s0 a2) :
    Keeps M s0 (takeSpill a0 a1 a2) := by
  unfold takeSpill
  extract_lets +onlyGivenNames -lift x0
  clear_value x0
  extract_lets +onlyGivenNames -lift x1
  clear_value x1
  refine updComb_keeps (sub hM rfl) ?_
  refine setSpill_keeps (sub hM rfl) ?_
  exact h0

theorem updSpillOn_keeps {M : Nat} {s0 : State} {a0 : State} (hM : 1024 ||| M = M) (h0 : Keeps M s0 a0) :
    Keeps M s0 (updSpillOn a0) := by
  unfold updSpillOn
  extract_lets +onlyGivenNames -lift x0
  clear_value x0
  extract_lets +onlyGivenNames -lift x1
  clear_value x1
  extract_lets +onlyGivenNames -lift x2
  clear_value x2
  extract_lets +onlyGivenNames -lift x3
  clear_value x3
  refine updComb_keeps (sub hM rfl) ?_
  exact h0

theorem voidEnt_keeps {M : Nat} {s0 : State} {a0 : Nat} {a1 : TxEnt} {a2 : State} (hM : 132182 ||| M = M) (h0 : Keeps M s0 a2) :
    Keeps M s0 (voidEnt a0 a1 a2) := by
  unfold voidEnt
  extract_lets +onlyGivenNames -lift x0
  clear_value x0
  extract_lets +onlyGivenNames -lift x1
  clear_value x1
  extract_lets +onlyGivenNames -lift x2
  have g3 : Keeps M s0 x2 := by
    refine updTx_keeps (sub hM rfl) ?_
    exact h0
  clear_value x2
  extract_lets +onlyGivenNames -lift x4
  have g5 : Keeps M s0 x4 := by
    refine bankError_keeps (sub hM rfl) ?_
    refine count_keeps (sub hM rfl) ?_
    exact g3
  clear_value x4
  refine raise_keeps (sub hM rfl) ?_
  refine Keeps.ite ?_ ?_
  · refine count_keeps (sub hM rfl) ?_
    exact g5
  · exact g5

theorem loseRecall_keeps {M : Nat} {s0 : State} {a0 : Nat} {a1 : QEnt} {a2 : State} (hM : 132118 ||| M = M) (h0 : Keeps M s0 a2) :
    Keeps M s0 (loseRecall a0 a1 a2) := by
  unfold loseRecall
  extract_lets +onlyGivenNames -lift x0
  clear_value x0
  refine raise_keeps (sub hM rfl) ?_
  refine count_keeps (sub hM rfl) ?_
  refine count_keeps (sub hM rfl) ?_
  refine bankError_keeps (sub hM rfl) ?_
  exact h0

theorem leaveIfEmpty_keeps {M : Nat} {s0 : State} {a0 : Nat} {a1 : Nat} {a2 : State} (hM : 2048 ||| M = M) (h0 : Keeps M s0 a2) :
    Keeps M s0 (leaveIfEmpty a0 a1 a2) := by
  unfold leaveIfEmpty
  refine Keeps.ite ?_ ?_
  · refine dwrrLeave_keeps (sub hM rfl) ?_
    exact h0
  · exact h0

theorem markOcc_keeps {M : Nat} {s0 : State} {a0 : Nat} {a1 : State} (hM : 1024 ||| M = M) (h0 : Keeps M s0 a1) :
    Keeps M s0 (markOcc a0 a1) := by
  unfold markOcc
  extract_lets +onlyGivenNames -lift x0
  clear_value x0
  refine Keeps.ite ?_ ?_
  · refine updComb_keeps (sub hM rfl) ?_
    exact h0
  · exact h0

theorem markSoj_keeps {M : Nat} {s0 : State} {a0 : Nat} {a1 : QEnt} {a2 : State} (hM : 1024 ||| M = M) (h0 : Keeps M s0 a2) :
    Keeps M s0 (markSoj a0 a1 a2) := by
  unfold markSoj
  extract_lets +onlyGivenNames -lift x0
  clear_value x0
  refine Keeps.ite ?_ ?_
  · refine updComb_keeps (sub hM rfl) ?_
    exact h0
  · exact h0

theorem enqueue_keeps {M : Nat} {s0 : State} {a0 : Nat} {a1 : QEnt} {a2 : State} (hM : 134160 ||| M = M) (h0 : Keeps M s0 a2) :
    Keeps M s0 (enqueue a0 a1 a2) := by
  unfold enqueue
  extract_lets +onlyGivenNames -lift x0
  clear_value x0
  extract_lets +onlyGivenNames -lift x1
  have g2 : Keeps M s0 x1 := by
    refine Keeps.ite ?_ ?_
    · refine endLogs_keeps (sub hM rfl) ?_
      exact h0
    · exact h0
  clear_value x1
  extract_lets +onlyGivenNames -lift x3
  have g4 : Keeps M s0 x3 := by
    refine setOutQ_keeps (sub hM rfl) ?_
    exact g2
  clear_value x3
  refine markOcc_keeps (sub hM rfl) ?_
  refine Keeps.ite ?_ ?_
  · refine dwrrJoin_keeps (sub hM rfl) ?_
    exact g4
  · exact g4

theorem enqueueSpill_keeps {M : Nat} {s0 : State} {a0 : Nat} {a1 : QEnt} {a2 : State} (hM : 132116 ||| M = M) (h0 : Keeps M s0 a2) :
    Keeps M s0 (enqueueSpill a0 a1 a2) := by
  unfold enqueueSpill
  extract_lets +onlyGivenNames -lift x0
  have g1 : Keeps M s0 x0 := by
    refine Keeps.ite ?_ ?_
    · refine endLogs_keeps (sub hM rfl) ?_
      exact h0
    · exact h0
  clear_value x0
  refine markOcc_keeps (sub hM rfl) ?_
  refine count_keeps (sub hM rfl) ?_
  refine setSpill_keeps (sub hM rfl) ?_
  exact g1

theorem enqueueVoq_keeps {M : Nat} {s0 : State} {a0 : Nat} {a1 : QEnt} {a2 : State} (hM : 134160 ||| M = M) (h0 : Keeps M s0 a2) :
    Keeps M s0 (enqueueVoq a0 a1 a2) := by
  unfold enqueueVoq
  extract_lets +onlyGivenNames -lift x0
  clear_value x0
  extract_lets +onlyGivenNames -lift x1
  clear_value x1
  extract_lets +onlyGivenNames -lift x2
  have g3 : Keeps M s0 x2 := by
    refine setVoq_keeps (sub hM rfl) ?_
    refine Keeps.ite ?_ ?_
    · refine endLogs_keeps (sub hM rfl) ?_
      exact h0
    · exact h0
  clear_value x2
  refine Keeps.ite ?_ ?_
  · refine dwrrJoin_keeps (sub hM rfl) ?_
    exact g3
  · exact g3

theorem join_keeps {M : Nat} {s0 : State} {a0 : Nat} {a1 : QEnt} {a2 : State} (hM : 134164 ||| M = M) (h0 : Keeps M s0 a2) :
    Keeps M s0 (join a0 a1 a2) := by
  unfold join
  refine Keeps.ite ?_ ?_
  · refine enqueueVoq_keeps (sub hM rfl) ?_
    exact h0
  · refine Keeps.ite ?_ ?_
    · refine enqueueSpill_keeps (sub hM rfl) ?_
      refine freeAddr_keeps (sub hM rfl) ?_
      exact h0
    · refine enqueue_keeps (sub hM rfl) ?_
      exact h0

theorem discardAll_keeps {M : Nat} {s0 : State} {a0 : Nat} {a1 : Nat} {a2 : Bool} {a3 : List QEnt} {a4 : State} (hM : 132692 ||| M = M) (h0 : Keeps M s0 a4) :
    Keeps M s0 (discardAll a0 a1 a2 a3 a4) := by
  unfold discardAll
  refine forAll_keeps (sub hM rfl) ?_ ?_
  · intro w0 w1 k2
    refine discardCell_keeps (sub hM rfl) ?_
    exact k2
  · exact h0

theorem dropPort_keeps {M : Nat} {s0 : State} {a0 : Nat} {a1 : State} (hM : 134740 ||| M = M) (h0 : Keeps M s0 a1) :
    Keeps M s0 (dropPort a0 a1) := by
  unfold dropPort
  extract_lets +onlyGivenNames -lift x0
  have g1 : Keeps M s0 x0 := by
    refine forAll_keeps (sub hM rfl) ?_ ?_
    · intro w3 w4 k5
      extract_lets +onlyGivenNames -lift x6
      clear_value x6
      extract_lets +onlyGivenNames -lift x7
      clear_value x7
      extract_lets +onlyGivenNames -lift x8
      clear_value x8
      extract_lets +onlyGivenNames -lift x9
      have g10 : Keeps M s0 x9 := by
        refine discardAll_keeps (sub hM rfl) ?_
        refine setOutQ_keeps (sub hM rfl) ?_
        exact k5
      clear_value x9
      extract_lets +onlyGivenNames -lift x11
      have g12 : Keeps M s0 x11 := by
        refine discardAll_keeps (sub hM rfl) ?_
        refine takeSpill_keeps (sub hM rfl) ?_
        exact g10
      clear_value x11
      refine dwrrLeave_keeps (sub hM rfl) ?_
      refine forAll_keeps (sub hM rfl) ?_ ?_
      · intro w15 w16 k17
        extract_lets +onlyGivenNames -lift x18
        clear_value x18
        extract_lets +onlyGivenNames -lift x19
        clear_value x19
        refine discardAll_keeps (sub hM rfl) ?_
        refine setVoq_keeps (sub hM rfl) ?_
        exact k17
      · exact g12
    · exact h0
  clear_value x0
  extract_lets +onlyGivenNames -lift x20
  clear_value x20
  refine forAll_keeps (sub hM rfl) ?_ ?_
  · intro w21 w22 k23
    refine discardCell_keeps (sub hM rfl) ?_
    exact k23
  · refine setAhead_keeps (sub hM rfl) ?_
    exact g1

/-! Admit. -/

theorem damaged_keeps {M : Nat} {s0 : State} {a0 : Nat × Nat} {a1 : State} (hM : 512 ||| M = M) (h0 : Keeps M s0 a1) :
    Keeps M s0 (damaged a0 a1) := by
  unfold damaged
  refine Keeps.ite ?_ ?_
  · exact h0
  · refine updTopo_keeps (sub hM rfl) ?_
    exact h0

theorem countFallback_keeps {M : Nat} {s0 : State} {a0 : Nat} {a1 : Nat} {a2 : State} (hM : 131094 ||| M = M) (h0 : Keeps M s0 a2) :
    Keeps M s0 (countFallback a0 a1 a2) := by
  unfold countFallback
  refine orF_keeps (sub hM rfl) ?_
  refine count_keeps (sub hM rfl) ?_
  exact h0

theorem enterFifo_keeps {M : Nat} {s0 : State} {a0 : Nat} {a1 : Nat} {a2 : Held} {a3 : State} (hM : 64 ||| M = M) (h0 : Keeps M s0 a3) :
    Keeps M s0 (enterFifo a0 a1 a2 a3) := by
  unfold enterFifo
  extract_lets +onlyGivenNames -lift x0
  clear_value x0
  extract_lets +onlyGivenNames -lift x1
  have g2 : Keeps M s0 x1 := by
    refine updTx_keeps (sub hM rfl) ?_
    exact h0
  clear_value x1
  refine voidRequest_keeps (sub hM rfl) ?_
  refine updLp_keeps (sub hM rfl) ?_
  exact g2

theorem vanish_keeps {M : Nat} {s0 : State} {a0 : Nat} {a1 : Held} {a2 : State} (hM : 64 ||| M = M) (h0 : Keeps M s0 a2) :
    Keeps M s0 (vanish a0 a1 a2) := by
  unfold vanish
  extract_lets +onlyGivenNames -lift x0
  have g1 : Keeps M s0 x0 := by
    refine Keeps.ite ?_ ?_
    · refine freeCredit_keeps (sub hM rfl) ?_
      exact h0
    · exact h0
  clear_value x0
  split
  · refine releaseX_keeps (sub hM rfl) ?_
    exact g1
  · exact g1

theorem stage_keeps {M : Nat} {s0 : State} {a0 : Nat} {a1 : Held} {a2 : List (Option Nat)} {a3 : State} (hM : 68719478338 ||| M = M) (h0 : Keeps M s0 a3) :
    Keeps M s0 (stage a0 a1 a2 a3) := by
  unfold stage
  extract_lets +onlyGivenNames -lift x0
  have g1 : Keeps M s0 x0 := by
    refine setStaging_keeps (sub hM rfl) ?_
    exact h0
  clear_value x0
  refine forAll_keeps (sub hM rfl) ?_ ?_
  · intro w2 w3 k4
    split
    · refine Keeps.ite ?_ ?_
      · refine wakeFor_keeps (sub hM rfl) ?_
        exact k4
      · exact k4
    · exact k4
  · exact g1

theorem admitCell_keeps {M : Nat} {s0 : State} {a0 : Nat} {a1 : Held} {a2 : State} (hM : 68719609430 ||| M = M) (h0 : Keeps M s0 a2) :
    Keeps M s0 (admitCell a0 a1 a2) := by
  unfold admitCell
  extract_lets +onlyGivenNames -lift x0
  clear_value x0
  extract_lets +onlyGivenNames -lift x1
  clear_value x1
  extract_lets +onlyGivenNames -lift x2
  clear_value x2
  extract_lets +onlyGivenNames -lift x3
  have g4 : Keeps M s0 x3 := by
    refine Keeps.ite ?_ ?_
    · refine count_keeps (sub hM rfl) ?_
      exact h0
    · exact h0
  clear_value x3
  extract_lets +onlyGivenNames -lift x5
  clear_value x5
  extract_lets +onlyGivenNames -lift x6
  have g7 : Keeps M s0 x6 := by
    refine Keeps.ite ?_ ?_
    · split
      · refine countFallback_keeps (sub hM rfl) ?_
        exact g4
      · exact g4
    · exact g4
  clear_value x6
  refine Keeps.ite ?_ ?_
  · refine enterFifo_keeps (sub hM rfl) ?_
    exact g4
  · refine Keeps.ite ?_ ?_
    · refine stage_keeps (sub hM rfl) ?_
      exact g7
    · refine Keeps.ite ?_ ?_
      · refine vanish_keeps (sub hM rfl) ?_
        exact g7
      · refine stage_keeps (sub hM rfl) ?_
        exact g7

theorem admitPast_keeps {M : Nat} {s0 : State} {a0 : Nat} {a1 : Held} {a2 : State} (hM : 68719611478 ||| M = M) (h0 : Keeps M s0 a2) :
    Keeps M s0 (admitPast a0 a1 a2) := by
  unfold admitPast
  refine Keeps.ite ?_ ?_
  · refine Keeps.ite ?_ ?_
    · refine stage_keeps (sub hM rfl) ?_
      exact h0
    · split
      · rename_i y0 y1 y2
        refine Keeps2.elim (m := M) (s0 := s0) y2 ?_ (fun g3 => ?_)
        · refine guard_keeps (sub hM rfl) ?_
          exact h0
        refine admitCell_keeps (sub hM rfl) ?_
        exact g3
      · rename_i y4 y5 y6
        refine Keeps2.elim (m := M) (s0 := s0) y6 ?_ (fun g7 => ?_)
        · refine guard_keeps (sub hM rfl) ?_
          exact h0
        exact g7
  · refine admitCell_keeps (sub hM rfl) ?_
    exact h0

theorem execCellAdmit_keeps {M : Nat} {s0 : State} {a0 : Fin 17} {a1 : Option (Fin 4)} {a2 : State} (hM : 68719611606 ||| M = M) (h0 : Keeps M s0 a2) :
    KeepsR M s0 (execCellAdmit a0 a1 a2) := by
  unfold execCellAdmit
  extract_lets +onlyGivenNames -lift x0
  clear_value x0
  split
  · refine KeepsR.next ?_
    exact h0
  · extract_lets +onlyGivenNames -lift x2
    have g3 : Keeps M s0 x2 := by
      refine oweCredit_keeps (sub hM rfl) ?_
      refine setHold_keeps (sub hM rfl) ?_
      exact h0
    clear_value x2
    extract_lets +onlyGivenNames -lift x4
    have g5 : Keeps M s0 x4 := by
      unfold x4
      split
      · refine forAll_keeps (sub hM rfl) ?_ ?_
        · intro w6 w7 k8
          refine damaged_keeps (sub hM rfl) ?_
          exact k8
        · exact g3
      · exact g3
    clear_value x4
    refine KeepsR.ite ?_ ?_
    · refine KeepsR.next ?_
      exact h0
    · refine KeepsR.next ?_
      refine admitPast_keeps (sub hM rfl) ?_
      exact g5

theorem ageList_keeps {M : Nat} {s0 : State} {a0 : Nat} {a1 : List QEnt} {a2 : State} (hM : 132692 ||| M = M) (h0 : Keeps M s0 a2) :
    Keeps2 M s0 (ageList a0 a1 a2) := by
  induction a1 generalizing a0 a2 with
  | nil =>
    unfold ageList
    refine Keeps2.mk ?_
    exact h0
  | cons e l ih =>
    unfold ageList
    extract_lets +onlyGivenNames -lift x0
    have g1 : Keeps2 M s0 x0 := by
      unfold x0
      apply ih
      exact h0
    clear_value x0
    refine Keeps2.ite ?_ ?_
    · apply ih
      refine discardCell_keeps (sub hM rfl) ?_
      exact h0
    · refine Keeps2.mk ?_
      refine Keeps2.snd ?_
      exact g1

theorem unpark_keeps {M : Nat} {s0 : State} {a0 : QEnt} {a1 : List Nat} {a2 : State} (hM : 68719611478 ||| M = M) (h0 : Keeps M s0 a2) :
    Keeps M s0 (unpark a0 a1 a2) := by
  unfold unpark
  extract_lets +onlyGivenNames -lift x0
  have g1 : Keeps M s0 x0 := by
    refine uncharge_keeps (sub hM rfl) ?_
    exact h0
  clear_value x0
  extract_lets +onlyGivenNames -lift x2
  clear_value x2
  extract_lets +onlyGivenNames -lift x3
  have g4 : Keeps M s0 x3 := by
    refine forAll_keeps (sub hM rfl) ?_ ?_
    · intro w5 w6 k7
      refine Keeps.ite ?_ ?_
      · refine wakeFor_keeps (sub hM rfl) ?_
        exact k7
      · exact k7
    · exact g1
  clear_value x3
  split
  · refine releaseCopy_keeps (sub hM rfl) ?_
    refine freeAddr_keeps (sub hM rfl) ?_
    exact g1
  · extract_lets +onlyGivenNames -lift x9
    have g10 : Keeps M s0 x9 := by
      refine forAll_keeps (sub hM rfl) ?_ ?_
      · intro w11 w12 k13
        split
        · rename_i y14 y15 y16 y17
          refine KeepsO.elim (m := M) (s0 := s0) y17 ?_ (fun g18 => ?_)
          · refine takeSpare_keeps (sub hM rfl) ?_
            exact k13
          refine join_keeps (sub hM rfl) ?_
          exact g18
        · rename_i y19 y20
          exact k13
      · exact g4
    clear_value x9
    refine join_keeps (sub hM rfl) ?_
    exact g10

theorem guardParked_keeps {M : Nat} {s0 : State} {a0 : Nat} {a1 : QEnt} {a2 : State} (hM : 133142 ||| M = M) (h0 : Keeps M s0 a2) :
    KeepsO M s0 (guardParked a0 a1 a2) := by
  unfold guardParked
  refine KeepsO.ite ?_ ?_
  · refine KeepsO.some ?_
    refine Keeps2.mk ?_
    exact h0
  · refine KeepsO.ite ?_ ?_
    · exact KeepsO.none
    · refine KeepsO.some ?_
      refine guard_keeps (sub hM rfl) ?_
      exact h0

theorem retryList_keeps {M : Nat} {s0 : State} {a0 : Nat} {a1 : List QEnt} {a2 : State} (hM : 68719611478 ||| M = M) (h0 : Keeps M s0 a2) :
    Keeps2 M s0 (retryList a0 a1 a2) := by
  induction a1 generalizing a0 a2 with
  | nil =>
    unfold retryList
    refine Keeps2.mk ?_
    exact h0
  | cons e l ih =>
    unfold retryList
    split
    · rename_i y1 y2 y3
      refine Keeps2.elim (m := M) (s0 := s0) y3 ?_ (fun g4 => ?_)
      · refine atHead_keeps (sub hM rfl) ?_
        exact h0
      apply ih
      exact g4
    · rename_i y5 y6 y7
      refine Keeps2.elim (m := M) (s0 := s0) y7 ?_ (fun g8 => ?_)
      · refine atHead_keeps (sub hM rfl) ?_
        exact h0
      split
      · rename_i y10 y11
        refine Keeps2.mk ?_
        exact g8
      · rename_i y12 y13 y14
        refine KeepsO.elim (m := M) (s0 := s0) y14 ?_ (fun g15 => ?_)
        · refine guardParked_keeps (sub hM rfl) ?_
          exact g8
        apply ih
        refine freeAddr_keeps (sub hM rfl) ?_
        exact g15
      · rename_i y16 y17 y18
        refine KeepsO.elim (m := M) (s0 := s0) y18 ?_ (fun g19 => ?_)
        · refine guardParked_keeps (sub hM rfl) ?_
          exact g8
        extract_lets +onlyGivenNames -lift x20
        clear_value x20
        refine Keeps2.ite ?_ ?_
        · refine Keeps2.mk ?_
          exact g19
        · apply ih
          refine unpark_keeps (sub hM rfl) ?_
          exact g19

theorem parkRetry_keeps {M : Nat} {s0 : State} {a0 : Nat} {a1 : Nat} {a2 : State} (hM : 68719611478 ||| M = M) (h0 : Keeps M s0 a2) :
    Keeps M s0 (parkRetry a0 a1 a2) := by
  unfold parkRetry
  extract_lets +onlyGivenNames -lift x0
  clear_value x0
  extract_lets +onlyGivenNames -lift x1
  clear_value x1
  extract_lets +onlyGivenNames -lift x2
  have g3 : Keeps2 M s0 x2 := by
    refine ageList_keeps (sub hM rfl) ?_
    refine setPark_keeps (sub hM rfl) ?_
    exact h0
  clear_value x2
  extract_lets +onlyGivenNames -lift x4
  have g5 : Keeps2 M s0 x4 := by
    refine retryList_keeps (sub hM rfl) ?_
    refine Keeps2.snd ?_
    exact g3
  clear_value x4
  extract_lets +onlyGivenNames -lift x6
  have g7 : Keeps M s0 x6 := by
    refine setPark_keeps (sub hM rfl) ?_
    refine Keeps2.snd ?_
    exact g5
  clear_value x6
  extract_lets +onlyGivenNames -lift x8
  clear_value x8
  extract_lets +onlyGivenNames -lift x9
  clear_value x9
  extract_lets +onlyGivenNames -lift x10
  have g11 : Keeps2 M s0 x10 := by
    refine ageList_keeps (sub hM rfl) ?_
    refine setVoqPark_keeps (sub hM rfl) ?_
    exact g7
  clear_value x10
  extract_lets +onlyGivenNames -lift x12
  have g13 : Keeps2 M s0 x12 := by
    refine retryList_keeps (sub hM rfl) ?_
    refine Keeps2.snd ?_
    exact g11
  clear_value x12
  refine setVoqPark_keeps (sub hM rfl) ?_
  refine Keeps2.snd ?_
  exact g13

theorem execParkRetry_keeps {M : Nat} {s0 : State} {a0 : Fin 18} {a1 : Fin 8} {a2 : State} (hM : 68719611478 ||| M = M) (h0 : Keeps M s0 a2) :
    KeepsR M s0 (execParkRetry a0 a1 a2) := by
  unfold execParkRetry
  refine KeepsR.next ?_
  refine parkRetry_keeps (sub hM rfl) ?_
  exact h0

theorem retryAll_keeps {M : Nat} {s0 : State} {a0 : State} (hM : 68719611478 ||| M = M) (h0 : Keeps M s0 a0) :
    Keeps M s0 (retryAll a0) := by
  unfold retryAll
  refine forAll_keeps (sub hM rfl) ?_ ?_
  · intro w0 w1 k2
    refine parkRetry_keeps (sub hM rfl) ?_
    exact k2
  · exact h0

/-! Serve. -/

theorem setMarks_keeps {M : Nat} {s0 : State} {a0 : Nat} {a1 : List Nat} {a2 : State} (hM : 1024 ||| M = M) (h0 : Keeps M s0 a2) :
    Keeps M s0 (setMarks a0 a1 a2) := by
  unfold setMarks
  refine updComb_keeps (sub hM rfl) ?_
  exact h0

theorem pruneMarks_keeps {M : Nat} {s0 : State} {a0 : State} (hM : 1024 ||| M = M) (h0 : Keeps M s0 a0) :
    Keeps M s0 (pruneMarks a0) := by
  unfold pruneMarks
  refine forAll_keeps (sub hM rfl) ?_ ?_
  · intro w1 w2 k3
    extract_lets +onlyGivenNames -lift x4
    clear_value x4
    refine setMarks_keeps (sub hM rfl) ?_
    exact k3
  · exact h0

theorem chargeShaper_keeps {M : Nat} {s0 : State} {a0 : Nat} {a1 : QEnt} {a2 : State} (hM : 2048 ||| M = M) (h0 : Keeps M s0 a2) :
    Keeps2 M s0 (chargeShaper a0 a1 a2) := by
  unfold chargeShaper
  extract_lets +onlyGivenNames -lift x0
  clear_value x0
  extract_lets +onlyGivenNames -lift x1
  clear_value x1
  split
  · extract_lets +onlyGivenNames -lift x3
    clear_value x3
    refine Keeps2.mk ?_
    refine setShaper_keeps (sub hM rfl) ?_
    refine updSched_keeps (sub hM rfl) ?_
    exact h0

theorem takeHead_keeps {M : Nat} {s0 : State} {a0 : Nat} {a1 : Nat} {a2 : QEnt} {a3 : Bool} {a4 : State} (hM : 1280 ||| M = M) (h0 : Keeps M s0 a4) :
    Keeps M s0 (takeHead a0 a1 a2 a3 a4) := by
  unfold takeHead
  extract_lets +onlyGivenNames -lift x0
  have g1 : Keeps M s0 x0 := by
    refine setMarks_keeps (sub hM rfl) ?_
    refine drainOne_keeps (sub hM rfl) ?_
    exact h0
  clear_value x0
  refine Keeps.ite ?_ ?_
  · refine setAhead_keeps (sub hM rfl) ?_
    exact g1
  · refine setOutQ_keeps (sub hM rfl) ?_
    exact g1

theorem account_keeps {M : Nat} {s0 : State} {a0 : Nat} {a1 : Nat} {a2 : QEnt} {a3 : Bool} {a4 : State} (hM : 2048 ||| M = M) (h0 : Keeps M s0 a4) :
    Keeps M s0 (account a0 a1 a2 a3 a4) := by
  unfold account
  extract_lets +onlyGivenNames -lift x0
  clear_value x0
  refine leaveIfEmpty_keeps (sub hM rfl) ?_
  refine Keeps.ite ?_ ?_
  · exact h0
  · split
    · rename_i y1 y2 y3 y4
      refine Keeps2.elim (m := M) (s0 := s0) y4 ?_ (fun g5 => ?_)
      · refine chargeShaper_keeps (sub hM rfl) ?_
        exact h0
      split
      · rename_i y6 y7 y8 y9
        refine Keeps2.elim (m := M) (s0 := s0) y9 ?_ (fun g10 => ?_)
        · refine chargeShaper_keeps (sub hM rfl) ?_
          exact g5
        refine Keeps.ite ?_ ?_
        · refine dwrrSent_keeps (sub hM rfl) ?_
          exact g10
        · exact g10

theorem siftPort_keeps {M : Nat} {s0 : State} {a0 : Nat} {a1 : State} (hM : 134996 ||| M = M) (h0 : Keeps M s0 a1) :
    Keeps M s0 (siftPort a0 a1) := by
  unfold siftPort
  extract_lets +onlyGivenNames -lift x0
  have g1 : Keeps M s0 x0 := by
    refine forAll_keeps (sub hM rfl) ?_ ?_
    · intro w3 w4 k5
      extract_lets +onlyGivenNames -lift x6
      clear_value x6
      refine Keeps.ite ?_ ?_
      · split
        · rename_i y7 y8 y9 y10
          refine Keeps2.elim (m := M) (s0 := s0) y10 ?_ (fun g11 => ?_)
          · refine sift_keeps (sub hM rfl) ?_
            exact k5
          refine leaveIfEmpty_keeps (sub hM rfl) ?_
          refine setOutQ_keeps (sub hM rfl) ?_
          exact g11
      · exact k5
    · exact h0
  clear_value x0
  split
  · rename_i y12 y13 y14 y15
    refine Keeps2.elim (m := M) (s0 := s0) y15 ?_ (fun g16 => ?_)
    · refine siftAhead_keeps (sub hM rfl) ?_
      exact g1
    refine setAhead_keeps (sub hM rfl) ?_
    exact g16

theorem sendFromComb_keeps {M : Nat} {s0 : State} {a0 : Nat} {a1 : Bool} {a2 : QEnt → State → State} {a3 : State} (hM : 134998 ||| M = M) (h0 : ∀ v0 v1, Keeps M s0 v1 → Keeps M s0 (a2 v0 v1)) (h1 : Keeps M s0 a3) :
    KeepsP M s0 (sendFromComb a0 a1 a2 a3) := by
  unfold sendFromComb
  split
  · exact KeepsP.none
  · split
    · exact KeepsP.none
    · extract_lets +onlyGivenNames -lift x2
      have g3 : Keeps M s0 x2 := by
        refine markSoj_keeps (sub hM rfl) ?_
        refine takeHead_keeps (sub hM rfl) ?_
        exact h1
      clear_value x2
      refine KeepsP.ite ?_ ?_
      · refine KeepsP.some ?_
        refine account_keeps (sub hM rfl) ?_
        refine badCell_keeps (sub hM rfl) ?_
        exact g3
      · refine KeepsP.some ?_
        refine releaseCopy_keeps (sub hM rfl) ?_
        refine h0 _ _ ?_
        refine account_keeps (sub hM rfl) ?_
        exact g3

/-! Comb. -/

theorem tickBusy_keeps {M : Nat} {s0 : State} {a0 : State} (hM : 1024 ||| M = M) (h0 : Keeps M s0 a0) :
    Keeps M s0 (tickBusy a0) := by
  unfold tickBusy
  refine updComb_keeps (sub hM rfl) ?_
  exact h0

theorem spillCopies_keeps {M : Nat} {s0 : State} {a0 : Nat} {a1 : State} (hM : 132180 ||| M = M) (h0 : Keeps M s0 a1) :
    Keeps M s0 (spillCopies a0 a1) := by
  unfold spillCopies
  split
  · exact h0
  · extract_lets +onlyGivenNames -lift x1
    clear_value x1
    extract_lets +onlyGivenNames -lift x2
    clear_value x2
    extract_lets +onlyGivenNames -lift x3
    have g4 : Keeps2 M s0 x3 := by
      refine Keeps2.foldl ?_ _ ?_
      · intro w6 w7 k8
        split
        · exact k8
        · extract_lets +onlyGivenNames -lift x10
          clear_value x10
          extract_lets +onlyGivenNames -lift x11
          have g12 : Keeps M s0 x11 := by
            refine updComb_keeps (sub hM rfl) ?_
            refine Keeps2.snd ?_
            exact k8
          clear_value x11
          refine Keeps2.ite ?_ ?_
          · refine Keeps2.mk ?_
            refine enqueueSpill_keeps (sub hM rfl) ?_
            refine Keeps2.snd ?_
            exact k8
          · refine Keeps2.mk ?_
            refine Keeps.ite ?_ ?_
            · exact g12
            · refine raise_keeps (sub hM rfl) ?_
              exact g12
      · refine Keeps2.mk ?_
        exact h0
    clear_value x3
    extract_lets +onlyGivenNames -lift x13
    have g14 : Keeps M s0 x13 := by
      refine Keeps2.snd ?_
      exact g4
    clear_value x13
    extract_lets +onlyGivenNames -lift x15
    have g16 : Keeps M s0 x15 := by
      refine setStaging_keeps (sub hM rfl) ?_
      exact g14
    clear_value x15
    refine Keeps.ite ?_ ?_
    · exact g14
    · refine Keeps.ite ?_ ?_
      · refine Keeps.ite ?_ ?_
        · refine freeCredit_keeps (sub hM rfl) ?_
          exact g16
        · exact g16
      · refine setStaging_keeps (sub hM rfl) ?_
        exact g14

theorem writeCopy_keeps {M : Nat} {s0 : State} {a0 : Nat} {a1 : Nat} {a2 : State} (hM : 134228 ||| M = M) (h0 : Keeps M s0 a2) :
    Keeps M s0 (writeCopy a0 a1 a2) := by
  unfold writeCopy
  split
  · exact h0
  · split
    · rename_i y2 y3 y4 y5 y6 y7 y8
      refine KeepsO.elim (m := M) (s0 := s0) y8 ?_ (fun g9 => ?_)
      · refine takeAddr_keeps (sub hM rfl) ?_
        exact h0
      extract_lets +onlyGivenNames -lift x10
      have g11 : Keeps M s0 x10 := by
        refine holdBank_keeps (sub hM rfl) ?_
        exact g9
      clear_value x10
      extract_lets +onlyGivenNames -lift x12
      clear_value x12
      extract_lets +onlyGivenNames -lift x13
      clear_value x13
      extract_lets +onlyGivenNames -lift x14
      have g15 : Keeps M s0 x14 := by
        refine setStaging_keeps (sub hM rfl) ?_
        exact g11
      clear_value x14
      extract_lets +onlyGivenNames -lift x16
      have g17 : Keeps M s0 x16 := by
        refine Keeps.ite ?_ ?_
        · refine freeCredit_keeps (sub hM rfl) ?_
          exact g15
        · exact g15
      clear_value x16
      split
      · refine join_keeps (sub hM rfl) ?_
        exact g17
      · refine Keeps.ite ?_ ?_
        · refine setVoqPark_keeps (sub hM rfl) ?_
          exact g17
        · refine setPark_keeps (sub hM rfl) ?_
          exact g17
    · exact h0

theorem readCell_keeps {M : Nat} {s0 : State} {a0 : Nat} {a1 : Nat} {a2 : State} (hM : 1024 ||| M = M) (h0 : Keeps M s0 a2) :
    Keeps M s0 (readCell a0 a1 a2) := by
  unfold readCell
  refine holdBank_keeps (sub hM rfl) ?_
  refine setMarks_keeps (sub hM rfl) ?_
  exact h0

theorem acceptWrites_keeps {M : Nat} {s0 : State} {a0 : Bool} {a1 : Nat} {a2 : List Nat} {a3 : State} (hM : 134228 ||| M = M) (h0 : Keeps M s0 a3) :
    Keeps M s0 (acceptWrites a0 a1 a2 a3) := by
  unfold acceptWrites
  extract_lets +onlyGivenNames -lift x0
  have g1 : Keeps M s0 x0 := by
    refine forAll_keeps (sub hM rfl) ?_ ?_
    · intro w2 w3 k4
      refine writeCopy_keeps (sub hM rfl) ?_
      exact k4
    · exact h0
  clear_value x0
  refine Keeps.ite ?_ ?_
  · refine updComb_keeps (sub hM rfl) ?_
    exact g1
  · exact g1

theorem acceptRead_keeps {M : Nat} {s0 : State} {a0 : Bool} {a1 : Nat × Nat × Nat} {a2 : State} (hM : 1024 ||| M = M) (h0 : Keeps M s0 a2) :
    Keeps M s0 (acceptRead a0 a1 a2) := by
  unfold acceptRead
  extract_lets +onlyGivenNames -lift x0
  have g1 : Keeps M s0 x0 := by
    refine readCell_keeps (sub hM rfl) ?_
    exact h0
  clear_value x0
  refine Keeps.ite ?_ ?_
  · refine updComb_keeps (sub hM rfl) ?_
    exact g1
  · exact g1

theorem sharedIter_keeps {M : Nat} {s0 : State} {a0 : Bool} {a1 : Arb} {a2 : State} (hM : 134228 ||| M = M) (h0 : Keeps M s0 a2) :
    Keeps2 M s0 (sharedIter a0 a1 a2) := by
  unfold sharedIter
  extract_lets +onlyGivenNames -lift x0
  clear_value x0
  extract_lets +onlyGivenNames -lift x1
  clear_value x1
  extract_lets +onlyGivenNames -lift x2
  clear_value x2
  extract_lets +onlyGivenNames -lift x3
  have g4 : Keeps M s0 x3 := by
    refine forAll_keeps (sub hM rfl) ?_ ?_
    · intro w5 w6 k7
      refine acceptRead_keeps (sub hM rfl) ?_
      exact k7
    · exact h0
  clear_value x3
  extract_lets +onlyGivenNames -lift x8
  have g9 : Keeps M s0 x8 := by
    refine forAll_keeps (sub hM rfl) ?_ ?_
    · intro w10 w11 k12
      refine acceptWrites_keeps (sub hM rfl) ?_
      exact k12
    · exact g4
  clear_value x8
  refine Keeps2.mk ?_
  exact g9

theorem voqWrites_keeps {M : Nat} {s0 : State} {a0 : State} (hM : 134228 ||| M = M) (h0 : Keeps M s0 a0) :
    Keeps M s0 (voqWrites a0) := by
  unfold voqWrites
  extract_lets +onlyGivenNames -lift x0
  clear_value x0
  extract_lets +onlyGivenNames -lift x1
  have g2 : Keeps2 M s0 x1 := by
    refine Keeps2.foldl ?_ _ ?_
    · intro w4 w5 k6
      extract_lets +onlyGivenNames -lift x7
      clear_value x7
      refine Keeps2.ite ?_ ?_
      · exact k6
      · split
        · exact k6
        · refine Keeps2.mk ?_
          refine writeCopy_keeps (sub hM rfl) ?_
          refine Keeps2.snd ?_
          exact k6
    · refine Keeps2.mk ?_
      exact h0
  clear_value x1
  refine updComb_keeps (sub hM rfl) ?_
  refine Keeps2.snd ?_
  exact g2

theorem readVoq_keeps {M : Nat} {s0 : State} {a0 : Nat} {a1 : Nat} {a2 : Nat} {a3 : State} (hM : 134996 ||| M = M) (h0 : Keeps M s0 a3) :
    Keeps M s0 (readVoq a0 a1 a2 a3) := by
  unfold readVoq
  extract_lets +onlyGivenNames -lift x0
  clear_value x0
  split
  · rename_i y1 y2 y3
    refine Keeps2.elim (m := M) (s0 := s0) y3 ?_ (fun g4 => ?_)
    · refine sift_keeps (sub hM rfl) ?_
      exact h0
    refine leaveIfEmpty_keeps (sub hM rfl) ?_
    refine setVoq_keeps (sub hM rfl) ?_
    exact g4
  · rename_i y5 y6 y7 y8 y9
    refine Keeps2.elim (m := M) (s0 := s0) y9 ?_ (fun g10 => ?_)
    · refine sift_keeps (sub hM rfl) ?_
      exact h0
    refine Keeps.ite ?_ ?_
    · refine holdBank_keeps (sub hM rfl) ?_
      refine setAhead_keeps (sub hM rfl) ?_
      refine setVoq_keeps (sub hM rfl) ?_
      exact g10
    · refine setVoq_keeps (sub hM rfl) ?_
      exact g10

theorem voqIter_keeps {M : Nat} {s0 : State} {a0 : Bool} {a1 : List Nat} {a2 : List Nat} {a3 : State} (hM : 134996 ||| M = M) (h0 : Keeps M s0 a3) :
    Keeps3 M s0 (voqIter a0 a1 a2 a3) := by
  unfold voqIter
  extract_lets +onlyGivenNames -lift x0
  clear_value x0
  refine Keeps3.foldl ?_ _ ?_
  · intro w2 w3 k4
    split
    · exact k4
    · extract_lets +onlyGivenNames -lift x6
      clear_value x6
      extract_lets +onlyGivenNames -lift x7
      have g8 : Keeps M s0 x7 := by
        refine readVoq_keeps (sub hM rfl) ?_
        refine Keeps2.snd ?_
        refine Keeps3.snd ?_
        exact k4
      clear_value x7
      extract_lets +onlyGivenNames -lift x9
      have g10 : Keeps M s0 x9 := by
        refine Keeps.ite ?_ ?_
        · refine updComb_keeps (sub hM rfl) ?_
          exact g8
        · exact g8
      clear_value x9
      refine Keeps3.mk ?_
      refine Keeps2.mk ?_
      exact g10
  · refine Keeps3.mk ?_
    refine Keeps2.mk ?_
    exact h0

theorem voqRest_keeps {M : Nat} {s0 : State} {a0 : List Nat} {a1 : List Nat} {a2 : State} (hM : 134996 ||| M = M) (h0 : Keeps M s0 a2) :
    Keeps M s0 (voqRest a0 a1 a2) := by
  unfold voqRest
  split
  · rename_i y0 y1 y2 y3 y4
    refine Keeps3.elim (m := M) (s0 := s0) y4 ?_ (fun g5 => ?_)
    · refine voqIter_keeps (sub hM rfl) ?_
      exact h0
    refine Keeps2.snd ?_
    refine Keeps3.snd ?_
    refine voqIter_keeps (sub hM rfl) ?_
    exact g5

theorem sharedRest_keeps {M : Nat} {s0 : State} {a0 : Arb} {a1 : State} (hM : 134228 ||| M = M) (h0 : Keeps M s0 a1) :
    Keeps M s0 (sharedRest a0 a1) := by
  unfold sharedRest
  split
  · rename_i y0 y1 y2 y3
    refine Keeps2.elim (m := M) (s0 := s0) y3 ?_ (fun g4 => ?_)
    · refine sharedIter_keeps (sub hM rfl) ?_
      exact h0
    refine Keeps2.snd ?_
    refine sharedIter_keeps (sub hM rfl) ?_
    exact g4

theorem arbitrate_keeps {M : Nat} {s0 : State} {a0 : State} (hM : 134996 ||| M = M) (h0 : Keeps M s0 a0) :
    Keeps M s0 (arbitrate a0) := by
  unfold arbitrate
  extract_lets +onlyGivenNames -lift x0
  clear_value x0
  extract_lets +onlyGivenNames -lift x1
  have g2 : Keeps M s0 x1 := by
    refine Keeps2.snd ?_
    refine sharedIter_keeps (sub hM rfl) ?_
    exact h0
  clear_value x1
  extract_lets +onlyGivenNames -lift x3
  have g4 : Keeps M s0 x3 := by
    refine Keeps2.snd ?_
    refine Keeps3.snd ?_
    refine voqIter_keeps (sub hM rfl) ?_
    exact h0
  clear_value x3
  split
  · split
    · rename_i y5 y6 y7 y8
      refine Keeps2.elim (m := M) (s0 := s0) y8 ?_ (fun g9 => ?_)
      · refine sharedIter_keeps (sub hM rfl) ?_
        exact h0
      refine sharedRest_keeps (sub hM rfl) ?_
      exact g9
  · split
    · rename_i y10 y11 y12 y13 y14
      refine Keeps3.elim (m := M) (s0 := s0) y14 ?_ (fun g15 => ?_)
      · refine voqIter_keeps (sub hM rfl) ?_
        exact h0
      refine voqWrites_keeps (sub hM rfl) ?_
      refine voqRest_keeps (sub hM rfl) ?_
      exact g15
  · refine voqWrites_keeps (sub hM rfl) ?_
    refine voqRest_keeps (sub hM rfl) ?_
    exact g2
  · refine sharedRest_keeps (sub hM rfl) ?_
    exact g4

theorem askRefills_keeps {M : Nat} {s0 : State} {a0 : State} (hM : 1024 ||| M = M) (h0 : Keeps M s0 a0) :
    Keeps M s0 (askRefills a0) := by
  unfold askRefills
  refine forAll_keeps (sub hM rfl) ?_ ?_
  · intro w0 w1 k2
    refine Keeps.ite ?_ ?_
    · refine updComb_keeps (sub hM rfl) ?_
      exact k2
    · exact k2
  · exact h0

theorem updSpillFull_keeps {M : Nat} {s0 : State} {a0 : State} (hM : 1024 ||| M = M) (h0 : Keeps M s0 a0) :
    Keeps M s0 (updSpillFull a0) := by
  unfold updSpillFull
  refine updComb_keeps (sub hM rfl) ?_
  exact h0

theorem modeProgress_keeps {M : Nat} {s0 : State} {a0 : State} (hM : 2 ||| M = M) (h0 : Keeps M s0 a0) :
    Keeps M s0 (modeProgress a0) := by
  unfold modeProgress
  extract_lets +onlyGivenNames -lift x0
  have g1 : Keeps M s0 x0 := by
    refine settleMode_keeps (sub hM rfl) ?_
    exact h0
  clear_value x0
  refine Keeps.ite ?_ ?_
  · refine wr_keeps (sub hM rfl) ?_
    exact g1
  · exact g1

theorem updNbank_keeps {M : Nat} {s0 : State} {a0 : State} (hM : 2 ||| M = M) (h0 : Keeps M s0 a0) :
    Keeps M s0 (updNbank a0) := by
  unfold updNbank
  refine wr_keeps (sub hM rfl) ?_
  exact h0

theorem retireProgress_keeps {M : Nat} {s0 : State} {a0 : State} (hM : 1026 ||| M = M) (h0 : Keeps M s0 a0) :
    Keeps M s0 (retireProgress a0) := by
  unfold retireProgress
  refine Keeps.ite ?_ ?_
  · split
    · exact h0
    · refine retireNow_keeps (sub hM rfl) ?_
      refine updComb_keeps (sub hM rfl) ?_
      exact h0
  · exact h0

theorem bankBack_keeps {M : Nat} {s0 : State} {a0 : Nat} {a1 : State} (hM : 1026 ||| M = M) (h0 : Keeps M s0 a1) :
    Keeps M s0 (bankBack a0 a1) := by
  unfold bankBack
  extract_lets +onlyGivenNames -lift x0
  clear_value x0
  extract_lets +onlyGivenNames -lift x1
  clear_value x1
  extract_lets +onlyGivenNames -lift x2
  have g3 : Keeps M s0 x2 := by
    refine updComb_keeps (sub hM rfl) ?_
    exact h0
  clear_value x2
  refine wr_keeps (sub hM rfl) ?_
  refine wr_keeps (sub hM rfl) ?_
  exact g3

theorem rotAbort_keeps {M : Nat} {s0 : State} {a0 : State} (hM : 68719477779 ||| M = M) (h0 : Keeps M s0 a0) :
    Keeps M s0 (rotAbort a0) := by
  unfold rotAbort
  extract_lets +onlyGivenNames -lift x0
  clear_value x0
  extract_lets +onlyGivenNames -lift x1
  have g2 : Keeps M s0 x1 := by
    refine Keeps.set_tests (hit hM rfl) (?_)
    exact h0
  clear_value x1
  split
  · exact h0
  · extract_lets +onlyGivenNames -lift x4
    have g5 : Keeps M s0 x4 := by
      refine Keeps.ite ?_ ?_
      · refine updComb_keeps (sub hM rfl) ?_
        exact g2
      · refine bankBack_keeps (sub hM rfl) ?_
        exact g2
    clear_value x4
    refine abortTest_keeps (sub hM rfl) ?_
    refine leaveVoq_keeps (sub hM rfl) ?_
    refine updNbank_keeps (sub hM rfl) ?_
    exact g5

theorem cutQueue_keeps {M : Nat} {s0 : State} {a0 : Nat} {a1 : QEnt → Bool} {a2 : Bool} {a3 : State} (hM : 3072 ||| M = M) (h0 : Keeps M s0 a3) :
    Keeps M s0 (cutQueue a0 a1 a2 a3) := by
  unfold cutQueue
  extract_lets +onlyGivenNames -lift x0
  clear_value x0
  extract_lets +onlyGivenNames -lift x1
  clear_value x1
  refine leaveIfEmpty_keeps (sub hM rfl) ?_
  refine updComb_keeps (sub hM rfl) ?_
  refine setOutQ_keeps (sub hM rfl) ?_
  exact h0

theorem cutPark_keeps {M : Nat} {s0 : State} {a0 : Nat} {a1 : QEnt → Bool} {a2 : Bool} {a3 : State} (hM : 1024 ||| M = M) (h0 : Keeps M s0 a3) :
    Keeps M s0 (cutPark a0 a1 a2 a3) := by
  unfold cutPark
  extract_lets +onlyGivenNames -lift x0
  clear_value x0
  extract_lets +onlyGivenNames -lift x1
  clear_value x1
  refine updComb_keeps (sub hM rfl) ?_
  refine setPark_keeps (sub hM rfl) ?_
  exact h0

theorem freezeList_keeps {M : Nat} {s0 : State} {a0 : LinkRead} {a1 : State} (hM : 3072 ||| M = M) (h0 : Keeps M s0 a1) :
    Keeps M s0 (freezeList a0 a1) := by
  unfold freezeList
  split
  · refine cutQueue_keeps (sub hM rfl) ?_
    exact h0
  · refine cutPark_keeps (sub hM rfl) ?_
    exact h0
  · extract_lets +onlyGivenNames -lift x1
    clear_value x1
    split
    · refine cutQueue_keeps (sub hM rfl) ?_
      exact h0
    · refine cutPark_keeps (sub hM rfl) ?_
      exact h0
    · exact h0

theorem linkMemError_keeps {M : Nat} {s0 : State} {a0 : LinkRead} {a1 : State} (hM : 68719610903 ||| M = M) (h0 : Keeps M s0 a1) :
    Keeps M s0 (linkMemError a0 a1) := by
  unfold linkMemError
  extract_lets +onlyGivenNames -lift x0
  have g1 : Keeps M s0 x0 := by
    refine rotAbort_keeps (sub hM rfl) ?_
    exact h0
  clear_value x0
  extract_lets +onlyGivenNames -lift x2
  have g3 : Keeps2 M s0 x2 := by
    unfold x2
    split
    · refine Keeps2.mk ?_
      refine bankError_keeps (sub hM rfl) ?_
      exact g1
    · split
      · rename_i y4 y5 y6 y7
        refine Keeps2.elim (m := M) (s0 := s0) y7 ?_ (fun g8 => ?_)
        · refine drawFree_keeps (sub hM rfl) ?_
          exact g1
        refine Keeps2.mk ?_
        exact g8
  clear_value x2
  extract_lets +onlyGivenNames -lift x9
  have g10 : Keeps M s0 x9 := by
    refine Keeps2.snd ?_
    exact g3
  clear_value x9
  extract_lets +onlyGivenNames -lift x11
  clear_value x11
  extract_lets +onlyGivenNames -lift x12
  have g13 : Keeps M s0 x12 := by
    refine updComb_keeps (sub hM rfl) ?_
    exact g10
  clear_value x12
  extract_lets +onlyGivenNames -lift x14
  have g15 : Keeps M s0 x14 := by
    refine freezeList_keeps (sub hM rfl) ?_
    refine enterVoq_keeps (sub hM rfl) ?_
    refine logErr_keeps (sub hM rfl) ?_
    exact g13
  clear_value x14
  refine Keeps.ite ?_ ?_
  · exact g13
  · refine Keeps.ite ?_ ?_
    · refine logErr_keeps (sub hM rfl) ?_
      refine raise_keeps (sub hM rfl) ?_
      refine wr_keeps (sub hM rfl) ?_
      refine wr_keeps (sub hM rfl) ?_
      exact g15
    · exact g15

theorem badAddrCell_keeps {M : Nat} {s0 : State} {a0 : Nat} {a1 : State} (hM : 134742 ||| M = M) (h0 : Keeps M s0 a1) :
    Keeps M s0 (badAddrCell a0 a1) := by
  unfold badAddrCell
  extract_lets +onlyGivenNames -lift x0
  clear_value x0
  extract_lets +onlyGivenNames -lift x1
  clear_value x1
  split
  · refine KeepsP.getD ?_ ?_
    · refine KeepsP.map ?_
      intro w2
      refine leaveIfEmpty_keeps (sub hM rfl) ?_
      refine badCell_keeps (sub hM rfl) ?_
      refine setOutQ_keeps (sub hM rfl) ?_
      exact h0
    · exact h0
  · refine KeepsP.getD ?_ ?_
    · refine KeepsP.map ?_
      intro w3
      refine leaveIfEmpty_keeps (sub hM rfl) ?_
      refine badCell_keeps (sub hM rfl) ?_
      refine setAhead_keeps (sub hM rfl) ?_
      exact h0
    · exact h0
  · refine KeepsP.getD ?_ ?_
    · refine KeepsP.map ?_
      intro w4
      refine leaveIfEmpty_keeps (sub hM rfl) ?_
      refine badCell_keeps (sub hM rfl) ?_
      refine setVoq_keeps (sub hM rfl) ?_
      exact h0
    · exact h0
  · split
    · refine KeepsP.getD ?_ ?_
      · refine KeepsP.map ?_
        intro w5
        refine badCell_keeps (sub hM rfl) ?_
        refine setPark_keeps (sub hM rfl) ?_
        exact h0
      · exact h0
    · refine KeepsP.getD ?_ ?_
      · refine KeepsP.map ?_
        intro w6
        refine badCell_keeps (sub hM rfl) ?_
        refine setVoqPark_keeps (sub hM rfl) ?_
        exact h0
      · exact h0
    · split
      · refine voidEnt_keeps (sub hM rfl) ?_
        exact h0
      · exact h0

theorem execCombCellTime_keeps {M : Nat} {s0 : State} {a0 : Option LinkRead} {a1 : Option (BitVec 18)} {a2 : State} (hM : 68719611735 ||| M = M) (h0 : Keeps M s0 a2) :
    KeepsR M s0 (execCombCellTime a0 a1 a2) := by
  unfold execCombCellTime
  extract_lets +onlyGivenNames -lift x0
  have g1 : Keeps M s0 x0 := by
    refine tickBusy_keeps (sub hM rfl) ?_
    exact h0
  clear_value x0
  extract_lets +onlyGivenNames -lift x2
  have g3 : Keeps M s0 x2 := by
    unfold x2
    split
    · refine Keeps.ite ?_ ?_
      · refine linkMemError_keeps (sub hM rfl) ?_
        exact g1
      · exact g1
    · exact g1
  clear_value x2
  extract_lets +onlyGivenNames -lift x4
  have g5 : Keeps M s0 x4 := by
    unfold x4
    split
    · refine badAddrCell_keeps (sub hM rfl) ?_
      exact g3
    · exact g3
  clear_value x4
  extract_lets +onlyGivenNames -lift x6
  have g7 : Keeps M s0 x6 := by
    refine pruneMarks_keeps (sub hM rfl) ?_
    refine forAll_keeps (sub hM rfl) ?_ ?_
    · intro w8 w9 k10
      refine siftPort_keeps (sub hM rfl) ?_
      exact k10
    · exact g5
  clear_value x6
  extract_lets +onlyGivenNames -lift x11
  have g12 : Keeps M s0 x11 := by
    refine forAll_keeps (sub hM rfl) ?_ ?_
    · intro w13 w14 k15
      refine spillCopies_keeps (sub hM rfl) ?_
      exact k15
    · exact g7
  clear_value x11
  extract_lets +onlyGivenNames -lift x16
  have g17 : Keeps M s0 x16 := by
    refine modeProgress_keeps (sub hM rfl) ?_
    refine arbitrate_keeps (sub hM rfl) ?_
    exact g12
  clear_value x16
  extract_lets +onlyGivenNames -lift x18
  have g19 : Keeps M s0 x18 := by
    refine updXoff_keeps (sub hM rfl) ?_
    refine updSpillOn_keeps (sub hM rfl) ?_
    refine updSpillFull_keeps (sub hM rfl) ?_
    exact g17
  clear_value x18
  refine KeepsR.next ?_
  refine retireProgress_keeps (sub hM rfl) ?_
  refine askRefills_keeps (sub hM rfl) ?_
  exact g19

theorem refillCells_keeps {M : Nat} {s0 : State} {a0 : Nat} {a1 : List QEnt} {a2 : State} (hM : 132692 ||| M = M) (h0 : Keeps M s0 a2) :
    Keeps M s0 (refillCells a0 a1 a2) := by
  induction a1 generalizing a0 a2 with
  | nil =>
    unfold refillCells
    exact h0
  | cons e l ih =>
    unfold refillCells
    refine Keeps.ite ?_ ?_
    · apply ih
      refine discardCell_keeps (sub hM rfl) ?_
      refine takeSpill_keeps (sub hM rfl) ?_
      exact h0
    · split
      · rename_i y0 y1 y2 y3
        refine KeepsO.elim (m := M) (s0 := s0) y3 ?_ (fun g4 => ?_)
        · refine takeSpare_keeps (sub hM rfl) ?_
          exact h0
        apply ih
        refine setOutQ_keeps (sub hM rfl) ?_
        refine takeSpill_keeps (sub hM rfl) ?_
        exact g4
      · rename_i y5 y6
        exact h0

theorem execSpillRefillDone_keeps {M : Nat} {s0 : State} {a0 : Fin 17} {a1 : Fin 5} {a2 : Nat} {a3 : State} (hM : 134740 ||| M = M) (h0 : Keeps M s0 a3) :
    KeepsR M s0 (execSpillRefillDone a0 a1 a2 a3) := by
  unfold execSpillRefillDone
  extract_lets +onlyGivenNames -lift x0
  clear_value x0
  extract_lets +onlyGivenNames -lift x1
  have g2 : Keeps M s0 x1 := by
    refine updComb_keeps (sub hM rfl) ?_
    exact h0
  clear_value x1
  extract_lets +onlyGivenNames -lift x3
  clear_value x3
  extract_lets +onlyGivenNames -lift x4
  have g5 : Keeps M s0 x4 := by
    refine takeSpill_keeps (sub hM rfl) ?_
    exact g2
  clear_value x4
  extract_lets +onlyGivenNames -lift x6
  have g7 : Keeps M s0 x6 := by
    refine forAll_keeps (sub hM rfl) ?_ ?_
    · intro w8 w9 k10
      refine Keeps.ite ?_ ?_
      · refine recallCell_keeps (sub hM rfl) ?_
        exact k10
      · refine discardCell_keeps (sub hM rfl) ?_
        exact k10
    · exact g5
  clear_value x6
  extract_lets +onlyGivenNames -lift x11
  have g12 : Keeps M s0 x11 := by
    refine Keeps.ite ?_ ?_
    · exact g7
    · refine logErr_keeps (sub hM rfl) ?_
      refine countBy_keeps (sub hM rfl) ?_
      exact g7
  clear_value x11
  refine KeepsR.ite ?_ ?_
  · refine KeepsR.next ?_
    exact h0
  · refine KeepsR.next ?_
    refine leaveIfEmpty_keeps (sub hM rfl) ?_
    refine refillCells_keeps (sub hM rfl) ?_
    exact g12

theorem execFrameDiscardEnd_keeps {M : Nat} {s0 : State} {a0 : Fin 18} {a1 : Fin 8} {a2 : Fin 18} {a3 : State} (hM : 132112 ||| M = M) (h0 : Keeps M s0 a3) :
    KeepsR M s0 (execFrameDiscardEnd a0 a1 a2 a3) := by
  unfold execFrameDiscardEnd
  extract_lets +onlyGivenNames -lift x0
  clear_value x0
  refine KeepsR.next ?_
  refine endLogs_keeps (sub hM rfl) ?_
  refine endLogs_keeps (sub hM rfl) ?_
  exact h0

theorem execAuditDone_keeps {M : Nat} {s0 : State} {a0 : State} (hM : 132694 ||| M = M) (h0 : Keeps M s0 a0) :
    KeepsR M s0 (execAuditDone a0) := by
  unfold execAuditDone
  extract_lets +onlyGivenNames -lift x0
  clear_value x0
  extract_lets +onlyGivenNames -lift x1
  have g2 : Keeps M s0 x1 := by
    refine updComb_keeps (sub hM rfl) ?_
    exact h0
  clear_value x1
  extract_lets +onlyGivenNames -lift x3
  have g4 : Keeps M s0 x3 := by
    refine forAll_keeps (sub hM rfl) ?_ ?_
    · intro w5 w6 k7
      refine Keeps.ite ?_ ?_
      · refine recallCell_keeps (sub hM rfl) ?_
        refine freeAddr_keeps (sub hM rfl) ?_
        exact k7
      · refine discardCell_keeps (sub hM rfl) ?_
        exact k7
    · exact g2
  clear_value x3
  refine KeepsR.ite ?_ ?_
  · refine KeepsR.next ?_
    refine leaveVoq_keeps (sub hM rfl) ?_
    refine raise_keeps (sub hM rfl) ?_
    refine wr_keeps (sub hM rfl) ?_
    exact g4
  · refine KeepsR.next ?_
    exact h0

theorem execVoqQueueMove_keeps {M : Nat} {s0 : State} {a0 : Fin 17} {a1 : Fin 8} {a2 : State} (hM : 1024 ||| M = M) (h0 : Keeps M s0 a2) :
    KeepsR M s0 (execVoqQueueMove a0 a1 a2) := by
  unfold execVoqQueueMove
  extract_lets +onlyGivenNames -lift x0
  clear_value x0
  extract_lets +onlyGivenNames -lift x1
  clear_value x1
  refine KeepsR.ite ?_ ?_
  · refine KeepsR.next ?_
    refine forAll_keeps (sub hM rfl) ?_ ?_
    · intro w5 w6 k7
      extract_lets +onlyGivenNames -lift x8
      clear_value x8
      refine setVoq_keeps (sub hM rfl) ?_
      exact k7
    · refine setOutQ_keeps (sub hM rfl) ?_
      exact h0
  · refine KeepsR.next ?_
    exact h0

theorem execFlReady_keeps {M : Nat} {s0 : State} {a0 : BitVec 16} {a1 : State} (hM : 132114 ||| M = M) (h0 : Keeps M s0 a1) :
    KeepsR M s0 (execFlReady a0 a1) := by
  unfold execFlReady
  extract_lets +onlyGivenNames -lift x0
  clear_value x0
  extract_lets +onlyGivenNames -lift x1
  have g2 : Keeps M s0 x1 := by
    refine forAll_keeps (sub hM rfl) ?_ ?_
    · intro w3 w4 k5
      refine logErr_keeps (sub hM rfl) ?_
      refine raise_keeps (sub hM rfl) ?_
      refine wr_keeps (sub hM rfl) ?_
      exact k5
    · exact h0
  clear_value x1
  extract_lets +onlyGivenNames -lift x6
  have g7 : Keeps M s0 x6 := by
    refine Keeps.ite ?_ ?_
    · refine raise_keeps (sub hM rfl) ?_
      exact g2
    · exact g2
  clear_value x6
  refine KeepsR.ite ?_ ?_
  · refine KeepsR.next ?_
    exact h0
  · refine KeepsR.next ?_
    refine leaveVoq_keeps (sub hM rfl) ?_
    refine wr_keeps (sub hM rfl) ?_
    refine updNbank_keeps (sub hM rfl) ?_
    exact g7

theorem retReq_keeps {M : Nat} {s0 : State} {a0 : Nat} {a1 : State} (hM : 1042 ||| M = M) (h0 : Keeps M s0 a1) :
    Keeps M s0 (retReq a0 a1) := by
  unfold retReq
  refine retireProgress_keeps (sub hM rfl) ?_
  refine forAll_keeps (sub hM rfl) ?_ ?_
  · intro w0 w1 k2
    refine requestRetire_keeps (sub hM rfl) ?_
    exact k2
  · exact h0

theorem execBankctlRetReq_keeps {M : Nat} {s0 : State} {a0 : BitVec 16} {a1 : State} (hM : 1042 ||| M = M) (h0 : Keeps M s0 a1) :
    KeepsR M s0 (execBankctlRetReq a0 a1) := by
  unfold execBankctlRetReq
  refine access_keeps (sub hM rfl) ?_ ?_
  · intro w0 k1
    refine retReq_keeps (sub hM rfl) ?_
    exact k1
  · exact h0

theorem moveCells_keeps {M : Nat} {s0 : State} {a0 : Nat} {a1 : List QEnt} {a2 : State} (hM : 1024 ||| M = M) (h0 : Keeps M s0 a2) :
    Keeps2 M s0 (moveCells a0 a1 a2) := by
  induction a1 generalizing a0 a2 with
  | nil =>
    unfold moveCells
    refine Keeps2.mk ?_
    exact h0
  | cons e l ih =>
    unfold moveCells
    extract_lets +onlyGivenNames -lift x0
    have g1 : Keeps2 M s0 x0 := by
      unfold x0
      apply ih
      exact h0
    clear_value x0
    split
    · rename_i y3 y4 y5 y6
      refine KeepsO.elim (m := M) (s0 := s0) y6 ?_ (fun g7 => ?_)
      · refine KeepsO.ite ?_ ?_
        · refine takeSpare_keeps (sub hM rfl) ?_
          exact h0
        · exact KeepsO.none
      extract_lets +onlyGivenNames -lift x8
      have g9 : Keeps2 M s0 x8 := by
        unfold x8
        apply ih
        exact g7
      clear_value x8
      refine Keeps2.mk ?_
      refine Keeps2.snd ?_
      exact g9
    · rename_i y10 y11
      refine Keeps2.mk ?_
      refine Keeps2.snd ?_
      exact g1

theorem moveEnts_keeps {M : Nat} {s0 : State} {a0 : Nat} {a1 : List TxEnt} {a2 : State} (hM : 1024 ||| M = M) (h0 : Keeps M s0 a2) :
    Keeps2 M s0 (moveEnts a0 a1 a2) := by
  induction a1 generalizing a0 a2 with
  | nil =>
    unfold moveEnts
    refine Keeps2.mk ?_
    exact h0
  | cons e l ih =>
    unfold moveEnts
    extract_lets +onlyGivenNames -lift x0
    have g1 : Keeps2 M s0 x0 := by
      refine moveCells_keeps (sub hM rfl) ?_
      exact h0
    clear_value x0
    extract_lets +onlyGivenNames -lift x2
    have g3 : Keeps2 M s0 x2 := by
      unfold x2
      apply ih
      refine Keeps2.snd ?_
      exact g1
    clear_value x2
    refine Keeps2.mk ?_
    refine Keeps2.snd ?_
    exact g3

theorem moveRings_keeps {M : Nat} {s0 : State} {a0 : Nat} {a1 : Nat} {a2 : State} (hM : 1088 ||| M = M) (h0 : Keeps M s0 a2) :
    Keeps M s0 (moveRings a0 a1 a2) := by
  unfold moveRings
  extract_lets +onlyGivenNames -lift x0
  clear_value x0
  split
  · rename_i y2 y3 y4 y5
    refine Keeps2.elim (m := M) (s0 := s0) y5 ?_ (fun g6 => ?_)
    · refine moveEnts_keeps (sub hM rfl) ?_
      exact h0
    split
    · rename_i y8 y9 y10 y11
      refine Keeps2.elim (m := M) (s0 := s0) y11 ?_ (fun g12 => ?_)
      · refine moveEnts_keeps (sub hM rfl) ?_
        exact g6
      extract_lets +onlyGivenNames -lift x13
      clear_value x13
      extract_lets +onlyGivenNames -lift x14
      clear_value x14
      refine updTx_keeps (sub hM rfl) ?_
      exact g12

theorem moveList_keeps {M : Nat} {s0 : State} {a0 : Nat} {a1 : State → Nat → List QEnt} {a2 : Nat → List QEnt → State → State} {a3 : Nat} {a4 : State} (hM : 1024 ||| M = M) (h0 : ∀ v0 v1 v2, Keeps M s0 v2 → Keeps M s0 (a2 v0 v1 v2)) (h1 : Keeps M s0 a4) :
    Keeps M s0 (moveList a0 a1 a2 a3 a4) := by
  unfold moveList
  split
  · rename_i y0 y1 y2 y3
    refine Keeps2.elim (m := M) (s0 := s0) y3 ?_ (fun g4 => ?_)
    · refine moveCells_keeps (sub hM rfl) ?_
      exact h1
    refine h0 _ _ _ ?_
    exact g4

theorem relocate_keeps {M : Nat} {s0 : State} {a0 : Nat} {a1 : State} (hM : 1088 ||| M = M) (h0 : Keeps M s0 a1) :
    Keeps M s0 (relocate a0 a1) := by
  unfold relocate
  extract_lets +onlyGivenNames -lift x0
  have g1 : Keeps M s0 x0 := by
    refine forAll_keeps (sub hM rfl) ?_ ?_
    · intro w2 w3 k4
      refine moveList_keeps (sub hM rfl) ?_ ?_
      · intro w5 w6 w7 k8
        refine setOutQ_keeps (sub hM rfl) ?_
        exact k8
      · exact k4
    · exact h0
  clear_value x0
  extract_lets +onlyGivenNames -lift x9
  have g10 : Keeps M s0 x9 := by
    refine forAll_keeps (sub hM rfl) ?_ ?_
    · intro w11 w12 k13
      refine moveList_keeps (sub hM rfl) ?_ ?_
      · intro w14 w15 w16 k17
        refine setPark_keeps (sub hM rfl) ?_
        exact k17
      · exact k13
    · exact g1
  clear_value x9
  refine forAll_keeps (sub hM rfl) ?_ ?_
  · intro w18 w19 k20
    refine moveRings_keeps (sub hM rfl) ?_
    exact k20
  · refine updComb_keeps (sub hM rfl) ?_
    exact g10

theorem retireDone_keeps {M : Nat} {s0 : State} {a0 : Nat} {a1 : State} (hM : 131090 ||| M = M) (h0 : Keeps M s0 a1) :
    Keeps M s0 (retireDone a0 a1) := by
  unfold retireDone
  extract_lets +onlyGivenNames -lift x0
  have g1 : Keeps M s0 x0 := by
    refine wr_keeps (sub hM rfl) ?_
    refine wr_keeps (sub hM rfl) ?_
    exact h0
  clear_value x0
  extract_lets +onlyGivenNames -lift x2
  have g3 : Keeps M s0 x2 := by
    refine wr_keeps (sub hM rfl) ?_
    exact g1
  clear_value x2
  refine updNbank_keeps (sub hM rfl) ?_
  refine logErr_keeps (sub hM rfl) ?_
  refine raise_keeps (sub hM rfl) ?_
  exact g3

theorem execRelocationDone_keeps {M : Nat} {s0 : State} {a0 : Fin 16} {a1 : State} (hM : 132178 ||| M = M) (h0 : Keeps M s0 a1) :
    KeepsR M s0 (execRelocationDone a0 a1) := by
  unfold execRelocationDone
  extract_lets +onlyGivenNames -lift x0
  clear_value x0
  refine KeepsR.ite ?_ ?_
  · refine KeepsR.next ?_
    refine retireProgress_keeps (sub hM rfl) ?_
    refine retireDone_keeps (sub hM rfl) ?_
    refine relocate_keeps (sub hM rfl) ?_
    exact h0
  · refine KeepsR.next ?_
    exact h0

theorem rtnReq_keeps {M : Nat} {s0 : State} {a0 : Nat} {a1 : State} (hM : 2 ||| M = M) (h0 : Keeps M s0 a1) :
    Keeps M s0 (rtnReq a0 a1) := by
  unfold rtnReq
  refine forAll_keeps (sub hM rfl) ?_ ?_
  · intro w0 w1 k2
    refine Keeps.ite ?_ ?_
    · refine wr_keeps (sub hM rfl) ?_
      exact k2
    · exact k2
  · exact h0

theorem execBankctlRtnReq_keeps {M : Nat} {s0 : State} {a0 : BitVec 16} {a1 : State} (hM : 2 ||| M = M) (h0 : Keeps M s0 a1) :
    KeepsR M s0 (execBankctlRtnReq a0 a1) := by
  unfold execBankctlRtnReq
  refine access_keeps (sub hM rfl) ?_ ?_
  · intro w0 k1
    refine rtnReq_keeps (sub hM rfl) ?_
    exact k1
  · exact h0

theorem execBankReturnDone_keeps {M : Nat} {s0 : State} {a0 : Fin 16} {a1 : State} (hM : 1026 ||| M = M) (h0 : Keeps M s0 a1) :
    KeepsR M s0 (execBankReturnDone a0 a1) := by
  unfold execBankReturnDone
  extract_lets +onlyGivenNames -lift x0
  clear_value x0
  refine KeepsR.ite ?_ ?_
  · refine KeepsR.next ?_
    refine updNbank_keeps (sub hM rfl) ?_
    refine bankBack_keeps (sub hM rfl) ?_
    refine wr_keeps (sub hM rfl) ?_
    exact h0
  · refine KeepsR.next ?_
    exact h0

theorem forceVoq_keeps {M : Nat} {s0 : State} {a0 : Bool} {a1 : State} (hM : 1042 ||| M = M) (h0 : Keeps M s0 a1) :
    Keeps M s0 (forceVoq a0 a1) := by
  unfold forceVoq
  extract_lets +onlyGivenNames -lift x0
  have g1 : Keeps M s0 x0 := by
    refine wr_keeps (sub hM rfl) ?_
    exact h0
  clear_value x0
  refine Keeps.ite ?_ ?_
  · refine enterVoq_keeps (sub hM rfl) ?_
    exact g1
  · refine leaveVoq_keeps (sub hM rfl) ?_
    exact g1

theorem execForceVoqWrite_keeps {M : Nat} {s0 : State} {a0 : Bool} {a1 : State} (hM : 1042 ||| M = M) (h0 : Keeps M s0 a1) :
    KeepsR M s0 (execForceVoqWrite a0 a1) := by
  unfold execForceVoqWrite
  refine access_keeps (sub hM rfl) ?_ ?_
  · intro w0 k1
    refine forceVoq_keeps (sub hM rfl) ?_
    exact k1
  · exact h0

/-! SlotFill. -/

theorem sentWord_keeps {M : Nat} {s0 : State} {a0 : Nat} {a1 : OsWord} {a2 : State} (hM : 68719738962 ||| M = M) (h0 : Keeps M s0 a2) :
    Keeps M s0 (sentWord a0 a1 a2) := by
  unfold sentWord
  extract_lets +onlyGivenNames -lift x0
  clear_value x0
  refine Keeps.ite ?_ ?_
  · refine updLp_keeps (sub hM rfl) ?_
    exact h0
  · refine Keeps.ite ?_ ?_
    · refine updLp_keeps (sub hM rfl) ?_
      exact h0
    · refine Keeps.ite ?_ ?_
      · split
        · refine Keeps.ite ?_ ?_
          · refine updLp_keeps (sub hM rfl) ?_
            exact h0
          · refine enterState_keeps (sub hM rfl) ?_
            exact h0
        · exact h0
      · refine Keeps.ite ?_ ?_
        · refine updRx_keeps (sub hM rfl) ?_
          exact h0
        · refine Keeps.ite ?_ ?_
          · refine Keeps.ite ?_ ?_
            · refine releaseX_keeps (sub hM rfl) ?_
              refine updRx_keeps (sub hM rfl) ?_
              exact h0
            · exact h0
          · exact h0

theorem sendOs_keeps {M : Nat} {s0 : State} {a0 : Nat} {a1 : Bool} {a2 : State} (hM : 68719738962 ||| M = M) (h0 : Keeps M s0 a2) :
    Keeps M s0 (sendOs a0 a1 a2) := by
  unfold sendOs
  extract_lets +onlyGivenNames -lift x0
  clear_value x0
  extract_lets +onlyGivenNames -lift x1
  have g2 : Keeps M s0 x1 := by
    refine updLp_keeps (sub hM rfl) ?_
    exact h0
  clear_value x1
  refine forAll_keeps (sub hM rfl) ?_ ?_
  · intro w3 w4 k5
    refine sentWord_keeps (sub hM rfl) ?_
    exact k5
  · exact g2

theorem putDoze_keeps {M : Nat} {s0 : State} {a0 : Nat} {a1 : Bool} {a2 : Nat} {a3 : OsWord} {a4 : State} (hM : 64 ||| M = M) (h0 : Keeps M s0 a4) :
    Keeps M s0 (putDoze a0 a1 a2 a3 a4) := by
  unfold putDoze
  extract_lets +onlyGivenNames -lift x0
  clear_value x0
  refine updLp_keeps (sub hM rfl) ?_
  exact h0

theorem sendDozeWord_keeps {M : Nat} {s0 : State} {a0 : Nat} {a1 : State} (hM : 68719738962 ||| M = M) (h0 : Keeps M s0 a1) :
    Keeps M s0 (sendDozeWord a0 a1) := by
  unfold sendDozeWord
  extract_lets +onlyGivenNames -lift x0
  clear_value x0
  split
  · refine putDoze_keeps (sub hM rfl) ?_
    exact h0
  · extract_lets +onlyGivenNames -lift x2
    clear_value x2
    refine sentWord_keeps (sub hM rfl) ?_
    refine putDoze_keeps (sub hM rfl) ?_
    refine updLp_keeps (sub hM rfl) ?_
    exact h0

theorem sendCap_keeps {M : Nat} {s0 : State} {a0 : Nat} {a1 : State} (hM : 68719607895 ||| M = M) (h0 : Keeps M s0 a1) :
    Keeps M s0 (sendCap a0 a1) := by
  unfold sendCap
  split
  · exact h0
  · extract_lets +onlyGivenNames -lift x1
    have g2 : Keeps M s0 x1 := by
      refine putDoze_keeps (sub hM rfl) ?_
      exact h0
    clear_value x1
    refine Keeps.ite ?_ ?_
    · refine capDone_keeps (sub hM rfl) ?_
      refine updLp_keeps (sub hM rfl) ?_
      exact g2
    · exact g2

theorem sendPrbs_keeps {M : Nat} {s0 : State} {a0 : Nat} {a1 : State} (hM : 64 ||| M = M) (h0 : Keeps M s0 a1) :
    Keeps M s0 (sendPrbs a0 a1) := by
  unfold sendPrbs
  extract_lets +onlyGivenNames -lift x0
  clear_value x0
  refine updLp_keeps (sub hM rfl) ?_
  exact h0

theorem sendAlign_keeps {M : Nat} {s0 : State} {a0 : Nat} {a1 : State} (hM : 64 ||| M = M) (h0 : Keeps M s0 a1) :
    Keeps M s0 (sendAlign a0 a1) := by
  unfold sendAlign
  extract_lets +onlyGivenNames -lift x0
  clear_value x0
  refine updLp_keeps (sub hM rfl) ?_
  exact h0

theorem putFcw_keeps {M : Nat} {s0 : State} {a0 : Nat} {a1 : Nat} {a2 : Nat} {a3 : State} (hM : 64 ||| M = M) (h0 : Keeps M s0 a3) :
    Keeps M s0 (putFcw a0 a1 a2 a3) := by
  unfold putFcw
  refine updLp_keeps (sub hM rfl) ?_
  exact h0

theorem buildFcw_keeps {M : Nat} {s0 : State} {a0 : Nat} {a1 : State} (hM : 131156 ||| M = M) (h0 : Keeps M s0 a1) :
    Keeps M s0 (buildFcw a0 a1) := by
  unfold buildFcw
  extract_lets +onlyGivenNames -lift x0
  clear_value x0
  extract_lets +onlyGivenNames -lift x1
  clear_value x1
  refine Keeps.ite ?_ ?_
  · refine putFcw_keeps (sub hM rfl) ?_
    refine count_keeps (sub hM rfl) ?_
    refine updRx_keeps (sub hM rfl) ?_
    exact h0
  · refine Keeps.ite ?_ ?_
    · refine putFcw_keeps (sub hM rfl) ?_
      refine updRx_keeps (sub hM rfl) ?_
      exact h0
    · split
      · extract_lets +onlyGivenNames -lift x5
        clear_value x5
        refine putFcw_keeps (sub hM rfl) ?_
        refine updRx_keeps (sub hM rfl) ?_
        exact h0
      · refine putFcw_keeps (sub hM rfl) ?_
        exact h0

theorem nextSlot_keeps {M : Nat} {s0 : State} {a0 : Nat} {a1 : State} (hM : 68719738962 ||| M = M) (h0 : Keeps M s0 a1) :
    Keeps M s0 (nextSlot a0 a1) := by
  unfold nextSlot
  extract_lets +onlyGivenNames -lift x0
  clear_value x0
  extract_lets +onlyGivenNames -lift x1
  clear_value x1
  extract_lets +onlyGivenNames -lift x2
  have g3 : Keeps M s0 x2 := by
    refine updLp_keeps (sub hM rfl) ?_
    exact h0
  clear_value x2
  refine Keeps.ite ?_ ?_
  · refine updLp_keeps (sub hM rfl) ?_
    exact h0
  · split
    · refine enterState_keeps (sub hM rfl) ?_
      exact g3
    · exact g3

theorem putCell_keeps {M : Nat} {s0 : State} {a0 : Nat} {a1 : Cell} {a2 : State} (hM : 131156 ||| M = M) (h0 : Keeps M s0 a2) :
    Keeps M s0 (putCell a0 a1 a2) := by
  unfold putCell
  extract_lets +onlyGivenNames -lift x0
  have g1 : Keeps M s0 x0 := by
    refine countBy_keeps (sub hM rfl) ?_
    refine count_keeps (sub hM rfl) ?_
    exact h0
  clear_value x0
  refine updLp_keeps (sub hM rfl) ?_
  exact g1

theorem sendNew_keeps {M : Nat} {s0 : State} {a0 : Nat} {a1 : QEnt} {a2 : Bool} {a3 : State} (hM : 131668 ||| M = M) (h0 : Keeps M s0 a3) :
    Keeps M s0 (sendNew a0 a1 a2 a3) := by
  unfold sendNew
  extract_lets +onlyGivenNames -lift x0
  clear_value x0
  extract_lets +onlyGivenNames -lift x1
  clear_value x1
  extract_lets +onlyGivenNames -lift x2
  have g3 : Keeps M s0 x2 := by
    refine updTx_keeps (sub hM rfl) ?_
    exact h0
  clear_value x2
  extract_lets +onlyGivenNames -lift x4
  have g5 : Keeps M s0 x4 := by
    refine Keeps.ite ?_ ?_
    · refine updLp_keeps (sub hM rfl) ?_
      exact g3
    · exact g3
  clear_value x4
  refine ringGone_keeps (sub hM rfl) ?_
  refine putCell_keeps (sub hM rfl) ?_
  exact g5

theorem sendResync_keeps {M : Nat} {s0 : State} {a0 : Nat} {a1 : Nat} {a2 : State} (hM : 64 ||| M = M) (h0 : Keeps M s0 a2) :
    Keeps M s0 (sendResync a0 a1 a2) := by
  unfold sendResync
  refine updTx_keeps (sub hM rfl) ?_
  refine updLp_keeps (sub hM rfl) ?_
  exact h0

theorem sendVoid_keeps {M : Nat} {s0 : State} {a0 : Nat} {a1 : QEnt} {a2 : State} (hM : 131156 ||| M = M) (h0 : Keeps M s0 a2) :
    Keeps M s0 (sendVoid a0 a1 a2) := by
  unfold sendVoid
  refine putCell_keeps (sub hM rfl) ?_
  refine logErr_keeps (sub hM rfl) ?_
  exact h0

theorem resend_keeps {M : Nat} {s0 : State} {a0 : Nat} {a1 : Nat} {a2 : TxEnt} {a3 : Bool} {a4 : State} (hM : 132182 ||| M = M) (h0 : Keeps M s0 a4) :
    Keeps M s0 (resend a0 a1 a2 a3 a4) := by
  unfold resend
  extract_lets +onlyGivenNames -lift x0
  clear_value x0
  extract_lets +onlyGivenNames -lift x1
  clear_value x1
  extract_lets +onlyGivenNames -lift x2
  have g3 : Keeps M s0 x2 := by
    refine setMarks_keeps (sub hM rfl) ?_
    refine updTx_keeps (sub hM rfl) ?_
    exact h0
  clear_value x2
  refine Keeps.ite ?_ ?_
  · refine sendVoid_keeps (sub hM rfl) ?_
    exact g3
  · refine Keeps.ite ?_ ?_
    · refine sendVoid_keeps (sub hM rfl) ?_
      refine voidEnt_keeps (sub hM rfl) ?_
      exact g3
    · refine putCell_keeps (sub hM rfl) ?_
      exact g3

theorem sendRecalled_keeps {M : Nat} {s0 : State} {a0 : Nat} {a1 : Bool} {a2 : QEnt} {a3 : State} (hM : 132694 ||| M = M) (h0 : Keeps M s0 a3) :
    KeepsP M s0 (sendRecalled a0 a1 a2 a3) := by
  unfold sendRecalled
  intro y e
  dsimp only at e
  split at e
  · cases e
    exact loseRecall_keeps (sub hM rfl) (updTx_keeps (sub hM rfl) h0)
  · simp only [Option.map_eq_some_iff] at e
    obtain ⟨r, hr, rfl⟩ := e
    exact sendNew_keeps (sub hM rfl) (updTx_keeps (sub hM rfl) (takeWrite_keeps (sub hM rfl) h0 r hr))

theorem sendFifo_keeps {M : Nat} {s0 : State} {a0 : Nat} {a1 : QEnt} {a2 : State} (hM : 132692 ||| M = M) (h0 : Keeps M s0 a2) :
    KeepsP M s0 (sendFifo a0 a1 a2) := by
  unfold sendFifo
  intro y e
  simp only [Option.map_eq_some_iff] at e
  obtain ⟨r, hr, rfl⟩ := e
  have g : ∀ f b e, Keeps M s0 (uncharge a1 (count (cXPR (28 + a0)) (sendNew a0 e b (updLp a0 f r.2)))) := fun _ _ _ =>
    uncharge_keeps (sub hM rfl) (count_keeps (sub hM rfl) (sendNew_keeps (sub hM rfl) (updLp_keeps (sub hM rfl) (takeWrite_keeps (sub hM rfl) h0 r hr))))
  exact Keeps.ite (releaseX_keeps (sub hM rfl) (g _ _ _)) (g _ _ _)

theorem custodyFull_keeps {M : Nat} {s0 : State} {a0 : Nat} {a1 : State} (hM : 131092 ||| M = M) (h0 : Keeps M s0 a1) :
    Keeps M s0 (custodyFull a0 a1) := by
  unfold custodyFull
  refine raise_keeps (sub hM rfl) ?_
  refine count_keeps (sub hM rfl) ?_
  exact h0

theorem fillNew_keeps {M : Nat} {s0 : State} {a0 : Nat} {a1 : Bool} {a2 : State} (hM : 68719873878 ||| M = M) (h0 : Keeps M s0 a2) :
    Keeps M s0 (fillNew a0 a1 a2) := by
  unfold fillNew
  extract_lets t full waitsX s1 comb fifo recalled
  have g1 : Keeps M s0 s1 := Keeps.ite (custodyFull_keeps (sub hM rfl) h0) h0
  have gf : KeepsP M s0 fifo := by
    unfold fifo
    split
    · exact KeepsP.ite KeepsP.none (sendFifo_keeps (sub hM rfl) g1)
    · exact KeepsP.none
  have gr : KeepsP M s0 recalled := by
    unfold recalled
    split
    · exact KeepsP.ite (sendRecalled_keeps (sub hM rfl) g1) KeepsP.none
    · exact KeepsP.none
  have g2 : Keeps M s0 (siftPort a0 s1) := siftPort_keeps (sub hM rfl) g1
  clear_value recalled fifo
  cases recalled with
  | some u => exact gr u rfl
  | none =>
    cases fifo with
    | some u => exact gf u rfl
    | none =>
      exact KeepsP.getD (sendFromComb_keeps (sub hM rfl) (fun _ _ h => sendNew_keeps (sub hM rfl) h) g2) (sendOs_keeps (sub hM rfl) g2)

theorem fillFree_keeps {M : Nat} {s0 : State} {a0 : Nat} {a1 : Bool} {a2 : State} (hM : 68719873878 ||| M = M) (h0 : Keeps M s0 a2) :
    Keeps M s0 (fillFree a0 a1 a2) := by
  unfold fillFree
  extract_lets +onlyGivenNames -lift x0
  clear_value x0
  extract_lets +onlyGivenNames -lift x1
  clear_value x1
  extract_lets +onlyGivenNames -lift x2
  clear_value x2
  refine Keeps.ite ?_ ?_
  · refine sendOs_keeps (sub hM rfl) ?_
    exact h0
  · refine Keeps.ite ?_ ?_
    · refine sendOs_keeps (sub hM rfl) ?_
      refine Keeps.ite ?_ ?_
      · refine count_keeps (sub hM rfl) ?_
        exact h0
      · exact h0
    · refine fillNew_keeps (sub hM rfl) ?_
      exact h0

theorem fillActive_keeps {M : Nat} {s0 : State} {a0 : Nat} {a1 : Bool} {a2 : State} (hM : 68719873878 ||| M = M) (h0 : Keeps M s0 a2) :
    Keeps M s0 (fillActive a0 a1 a2) := by
  unfold fillActive
  extract_lets +onlyGivenNames -lift x0
  clear_value x0
  extract_lets +onlyGivenNames -lift x1
  clear_value x1
  refine Keeps.ite ?_ ?_
  · refine sendOs_keeps (sub hM rfl) ?_
    exact h0
  · split
    · refine fillFree_keeps (sub hM rfl) ?_
      exact h0
    · refine Keeps.ite ?_ ?_
      · refine sendResync_keeps (sub hM rfl) ?_
        exact h0
      · split
        · refine Keeps.ite ?_ ?_
          · refine resend_keeps (sub hM rfl) ?_
            exact h0
          · refine sendOs_keeps (sub hM rfl) ?_
            exact h0
        · refine fillFree_keeps (sub hM rfl) ?_
          refine updTx_keeps (sub hM rfl) ?_
          exact h0

theorem fillQuiet_keeps {M : Nat} {s0 : State} {a0 : Nat} {a1 : State} (hM : 68719738962 ||| M = M) (h0 : Keeps M s0 a1) :
    Keeps M s0 (fillQuiet a0 a1) := by
  unfold fillQuiet
  split
  · refine Keeps.ite ?_ ?_
    · refine sendResync_keeps (sub hM rfl) ?_
      exact h0
    · refine sendOs_keeps (sub hM rfl) ?_
      exact h0
  · refine sendOs_keeps (sub hM rfl) ?_
    exact h0

theorem fillLine_keeps {M : Nat} {s0 : State} {a0 : Nat} {a1 : Bool} {a2 : State} (hM : 68719873879 ||| M = M) (h0 : Keeps M s0 a2) :
    Keeps M s0 (fillLine a0 a1 a2) := by
  unfold fillLine
  extract_lets +onlyGivenNames -lift x0
  clear_value x0
  extract_lets +onlyGivenNames -lift x1
  clear_value x1
  extract_lets +onlyGivenNames -lift x2
  have g3 : Keeps M s0 x2 := by
    refine Keeps.ite ?_ ?_
    · refine buildFcw_keeps (sub hM rfl) ?_
      exact h0
    · exact h0
  clear_value x2
  refine Keeps.ite ?_ ?_
  · refine nextSlot_keeps (sub hM rfl) ?_
    refine Keeps.ite ?_ ?_
    · refine fillActive_keeps (sub hM rfl) ?_
      exact g3
    · refine fillQuiet_keeps (sub hM rfl) ?_
      exact g3
  · refine Keeps.ite ?_ ?_
    · refine sendPrbs_keeps (sub hM rfl) ?_
      exact h0
    · refine Keeps.ite ?_ ?_
      · refine sendAlign_keeps (sub hM rfl) ?_
        exact h0
      · refine Keeps.ite ?_ ?_
        · refine sendDozeWord_keeps (sub hM rfl) ?_
          exact h0
        · refine Keeps.ite ?_ ?_
          · refine putDoze_keeps (sub hM rfl) ?_
            exact h0
          · refine Keeps.ite ?_ ?_
            · refine sendCap_keeps (sub hM rfl) ?_
              exact h0
            · refine updLp_keeps (sub hM rfl) ?_
              exact h0

theorem arrive_keeps {M : Nat} {s0 : State} {a0 : Nat} {a1 : Nat} {a2 : Cell} {a3 : State} (hM : 4096 ||| M = M) (h0 : Keeps M s0 a3) :
    Keeps M s0 (arrive a0 a1 a2 a3) := by
  unfold arrive
  refine updTuns_keeps (sub hM rfl) ?_
  exact h0

theorem toTolger_keeps {M : Nat} {s0 : State} {a0 : Nat} {a1 : Nat} {a2 : Cell} {a3 : State} (hM : 128 ||| M = M) (h0 : Keeps M s0 a3) :
    Keeps M s0 (toTolger a0 a1 a2 a3) := by
  unfold toTolger
  extract_lets +onlyGivenNames -lift x0
  clear_value x0
  extract_lets +onlyGivenNames -lift x1
  clear_value x1
  refine setTolger_keeps (sub hM rfl) ?_
  exact h0

theorem fillOther_keeps {M : Nat} {s0 : State} {a0 : Nat} {a1 : Bool} {a2 : State} (hM : 139222 ||| M = M) (h0 : Keeps M s0 a2) :
    Keeps M s0 (fillOther a0 a1 a2) := by
  unfold fillOther
  extract_lets +onlyGivenNames -lift x0
  have g1 : Keeps M s0 x0 := by
    refine siftPort_keeps (sub hM rfl) ?_
    exact h0
  clear_value x0
  refine Keeps.ite ?_ ?_
  · refine KeepsP.getD ?_ ?_
    · refine sendFromComb_keeps (sub hM rfl) ?_ ?_
      · intro w5 w6 k7
        extract_lets +onlyGivenNames -lift x8
        have g9 : Keeps M s0 x8 := by
          refine freeAddr_keeps (sub hM rfl) ?_
          exact k7
        clear_value x8
        refine Keeps.ite ?_ ?_
        · refine arrive_keeps (sub hM rfl) ?_
          exact g9
        · refine toTolger_keeps (sub hM rfl) ?_
          exact g9
      · exact g1
    · exact g1
  · exact g1

theorem execSlotFill_keeps {M : Nat} {s0 : State} {a0 : Fin 17} {a1 : Bool} {a2 : State} (hM : 68719878103 ||| M = M) (h0 : Keeps M s0 a2) :
    KeepsR M s0 (execSlotFill a0 a1 a2) := by
  unfold execSlotFill
  refine KeepsR.ite ?_ ?_
  · refine KeepsR.next ?_
    refine fillLine_keeps (sub hM rfl) ?_
    exact h0
  · refine KeepsR.next ?_
    refine fillOther_keeps (sub hM rfl) ?_
    exact h0

end Sys2Proof.Machine
end

