-- ==== Sys2Proof/Laws/KeepsRoute.lean ====
section
/-! SUPPORT. `Keeps` for the operations and commands of routing, tunnels, the command engine and the bridge's registers. A mask is the sum of 2^i over the fields of State that may
change, numbered as `Keeps` numbers them. -/
namespace Sys2Proof.Machine

-- One theorem at a time, so that the package as one text compiles within its memory limit.
set_option Elab.async false

/-! Forager. -/

theorem commandV_keeps {M : Nat} {s0 : State} {a0 : Origin} {a1 : Bool} {a2 : State → State} {a3 : State} (hM : 8589952000 ||| M = M) (h0 : ∀ v0, Keeps M s0 v0 → Keeps M s0 (a2 v0)) (h1 : Keeps M s0 a3) :
    KeepsR M s0 (commandV a0 a1 a2 a3) := by
  unfold commandV
  extract_lets +onlyGivenNames -lift x0
  have g1 : Keeps M s0 x0 := by
    refine dispatch_keeps (sub hM rfl) ?_
    exact h1
  clear_value x0
  refine KeepsR.ite ?_ ?_
  · refine KeepsR.next ?_
    exact h1
  · refine KeepsR.ite ?_ ?_
    · refine KeepsR.next ?_
      refine reply_keeps (sub hM rfl) ?_
      exact g1
    · refine KeepsR.next ?_
      refine h0 _ ?_
      exact g1

theorem setMapper_keeps {M : Nat} {s0 : State} {a0 : Nat} {a1 : Tab Nat} {a2 : State} (hM : 4096 ||| M = M) (h0 : Keeps M s0 a2) :
    Keeps M s0 (setMapper a0 a1 a2) := by
  unfold setMapper
  refine updTuns_keeps (sub hM rfl) ?_
  exact h0

theorem loadMapper_keeps {M : Nat} {s0 : State} {a0 : Nat} {a1 : State} (hM : 4096 ||| M = M) (h0 : Keeps M s0 a1) :
    Keeps M s0 (loadMapper a0 a1) := by
  unfold loadMapper
  refine setMapper_keeps (sub hM rfl) ?_
  exact h0

theorem loadMappers_keeps {M : Nat} {s0 : State} {a0 : State} (hM : 4096 ||| M = M) (h0 : Keeps M s0 a0) :
    Keeps M s0 (loadMappers a0) := by
  unfold loadMappers
  refine forAll_keeps (sub hM rfl) ?_ ?_
  · intro w0 w1 k2
    refine Keeps.ite ?_ ?_
    · refine loadMapper_keeps (sub hM rfl) ?_
      exact k2
    · exact k2
  · exact h0

theorem setShok_keeps {M : Nat} {s0 : State} {a0 : Nat} {a1 : Bool} {a2 : State} (hM : 2 ||| M = M) (h0 : Keeps M s0 a2) :
    Keeps M s0 (setShok a0 a1 a2) := by
  unfold setShok
  extract_lets +onlyGivenNames -lift x0
  have g1 : Keeps M s0 x0 := by
    refine wr_keeps (sub hM rfl) ?_
    exact h0
  clear_value x0
  refine Keeps.ite ?_ ?_
  · refine wr_keeps (sub hM rfl) ?_
    exact g1
  · exact g1

theorem updFgrBusy_keeps {M : Nat} {s0 : State} {a0 : State} (hM : 2 ||| M = M) (h0 : Keeps M s0 a0) :
    Keeps M s0 (updFgrBusy a0) := by
  unfold updFgrBusy
  extract_lets +onlyGivenNames -lift x0
  clear_value x0
  extract_lets +onlyGivenNames -lift x1
  clear_value x1
  refine wr_keeps (sub hM rfl) ?_
  exact h0

theorem masterError_keeps {M : Nat} {s0 : State} {a0 : Nat} {a1 : Nat} {a2 : State} (hM : 131088 ||| M = M) (h0 : Keeps M s0 a2) :
    Keeps M s0 (masterError a0 a1 a2) := by
  unfold masterError
  refine logErr_keeps (sub hM rfl) ?_
  refine raise_keeps (sub hM rfl) ?_
  exact h0

theorem swapTable_keeps {M : Nat} {s0 : State} {a0 : Nat} {a1 : State} (hM : 68719615574 ||| M = M) (h0 : Keeps M s0 a1) :
    Keeps M s0 (swapTable a0 a1) := by
  unfold swapTable
  extract_lets +onlyGivenNames -lift x0
  clear_value x0
  extract_lets +onlyGivenNames -lift x1
  have g2 : Keeps M s0 x1 := by
    refine setTbl_keeps (sub hM rfl) ?_
    exact h0
  clear_value x1
  extract_lets +onlyGivenNames -lift x3
  have g4 : Keeps M s0 x3 := by
    refine updTopo_keeps (sub hM rfl) ?_
    exact g2
  clear_value x3
  extract_lets +onlyGivenNames -lift x5
  have g6 : Keeps M s0 x5 := by
    refine wr_keeps (sub hM rfl) ?_
    refine setShok_keeps (sub hM rfl) ?_
    exact g4
  clear_value x5
  refine retryAll_keeps (sub hM rfl) ?_
  refine Keeps.ite ?_ ?_
  · refine loadMappers_keeps (sub hM rfl) ?_
    exact g6
  · exact g6

theorem compared_keeps {M : Nat} {s0 : State} {a0 : Nat} {a1 : State} (hM : 68719615574 ||| M = M) (h0 : Keeps M s0 a1) :
    Keeps M s0 (compared a0 a1) := by
  unfold compared
  extract_lets +onlyGivenNames -lift x0
  have g1 : Keeps M s0 x0 := by
    refine raise_keeps (sub hM rfl) ?_
    refine updFgrBusy_keeps (sub hM rfl) ?_
    refine setShok_keeps (sub hM rfl) ?_
    exact h0
  clear_value x0
  refine Keeps.ite ?_ ?_
  · refine swapTable_keeps (sub hM rfl) ?_
    exact g1
  · exact g1

theorem editEntry_keeps {M : Nat} {s0 : State} {a0 : Nat} {a1 : Nat} {a2 : Nat} {a3 : State} (hM : 68719615574 ||| M = M) (h0 : Keeps M s0 a3) :
    Keeps M s0 (editEntry a0 a1 a2 a3) := by
  unfold editEntry
  extract_lets +onlyGivenNames -lift x0
  clear_value x0
  extract_lets +onlyGivenNames -lift x1
  clear_value x1
  extract_lets +onlyGivenNames -lift x2
  clear_value x2
  extract_lets +onlyGivenNames -lift x3
  have g4 : Keeps M s0 x3 := by
    refine setTbl_keeps (sub hM rfl) ?_
    exact h0
  clear_value x3
  extract_lets +onlyGivenNames -lift x5
  have g6 : Keeps M s0 x5 := by
    refine updTopo_keeps (sub hM rfl) ?_
    exact g4
  clear_value x5
  refine retryAll_keeps (sub hM rfl) ?_
  refine Keeps.ite ?_ ?_
  · refine loadMappers_keeps (sub hM rfl) ?_
    exact g6
  · exact g6

theorem setAddr_keeps {M : Nat} {s0 : State} {a0 : Nat} {a1 : State} (hM : 280146 ||| M = M) (h0 : Keeps M s0 a1) :
    Keeps M s0 (setAddr a0 a1) := by
  unfold setAddr
  extract_lets +onlyGivenNames -lift x0
  clear_value x0
  extract_lets +onlyGivenNames -lift x1
  have g2 : Keeps M s0 x1 := by
    refine timeRole_keeps (sub hM rfl) ?_
    refine wr_keeps (sub hM rfl) ?_
    exact h0
  clear_value x1
  extract_lets +onlyGivenNames -lift x3
  have g4 : Keeps M s0 x3 := by
    refine updTopo_keeps (sub hM rfl) ?_
    exact g2
  clear_value x3
  extract_lets +onlyGivenNames -lift x6
  have g7 : Keeps M s0 x6 := by
    refine updFgrBusy_keeps (sub hM rfl) ?_
    refine setShok_keeps (sub hM rfl) ?_
    exact g4
  clear_value x6
  refine Keeps.ite ?_ ?_
  · exact h0
  · refine forAll_keeps (sub hM rfl) ?_ ?_
    · intro w8 w9 k10
      refine sendAssign_keeps (sub hM rfl) ?_
      exact k10
    · exact g7

theorem addrWrite_keeps {M : Nat} {s0 : State} {a0 : Word} {a1 : State} (hM : 280146 ||| M = M) (h0 : Keeps M s0 a1) :
    Keeps M s0 (addrWrite a0 a1) := by
  unfold addrWrite
  refine setAddr_keeps (sub hM rfl) ?_
  refine wr_keeps (sub hM rfl) ?_
  exact h0

theorem execAddrWrite_keeps {M : Nat} {s0 : State} {a0 : Word} {a1 : State} (hM : 280146 ||| M = M) (h0 : Keeps M s0 a1) :
    KeepsR M s0 (execAddrWrite a0 a1) := by
  unfold execAddrWrite
  refine access_keeps (sub hM rfl) ?_ ?_
  · intro w0 k1
    refine addrWrite_keeps (sub hM rfl) ?_
    exact k1
  · exact h0

theorem execEntryRecomputed_keeps {M : Nat} {s0 : State} {a0 : Fin 4} {a1 : Nat} {a2 : Bool} {a3 : State} (hM : 68719611478 ||| M = M) (h0 : Keeps M s0 a3) :
    KeepsR M s0 (execEntryRecomputed a0 a1 a2 a3) := by
  unfold execEntryRecomputed
  extract_lets +onlyGivenNames -lift x0
  clear_value x0
  extract_lets +onlyGivenNames -lift x1
  clear_value x1
  extract_lets +onlyGivenNames -lift x2
  clear_value x2
  extract_lets +onlyGivenNames -lift x3
  have g4 : Keeps M s0 x3 := by
    refine setTbl_keeps (sub hM rfl) ?_
    exact h0
  clear_value x3
  extract_lets +onlyGivenNames -lift x5
  have g6 : Keeps M s0 x5 := by
    refine updTopo_keeps (sub hM rfl) ?_
    exact g4
  clear_value x5
  refine KeepsR.ite ?_ ?_
  · refine KeepsR.next ?_
    refine retryAll_keeps (sub hM rfl) ?_
    refine Keeps.ite ?_ ?_
    · refine logErr_keeps (sub hM rfl) ?_
      exact g6
    · refine masterError_keeps (sub hM rfl) ?_
      exact g6
  · refine KeepsR.next ?_
    exact h0

theorem execSeedExpansionDone_keeps {M : Nat} {s0 : State} {a0 : State} (hM : 68719615574 ||| M = M) (h0 : Keeps M s0 a0) :
    KeepsR M s0 (execSeedExpansionDone a0) := by
  unfold execSeedExpansionDone
  extract_lets +onlyGivenNames -lift x0
  clear_value x0
  split
  · refine KeepsR.next ?_
    exact h0
  · extract_lets +onlyGivenNames -lift x2
    clear_value x2
    extract_lets +onlyGivenNames -lift x3
    have g4 : Keeps M s0 x3 := by
      refine setTbl_keeps (sub hM rfl) ?_
      exact h0
    clear_value x3
    refine KeepsR.ite ?_ ?_
    · refine KeepsR.next ?_
      refine compared_keeps (sub hM rfl) ?_
      refine updTopo_keeps (sub hM rfl) ?_
      exact g4
    · refine KeepsR.next ?_
      exact h0

theorem execRebuildDone_keeps {M : Nat} {s0 : State} {a0 : Fin 4} {a1 : List Nat} {a2 : State} (hM : 68719615574 ||| M = M) (h0 : Keeps M s0 a2) :
    KeepsR M s0 (execRebuildDone a0 a1 a2) := by
  unfold execRebuildDone
  extract_lets +onlyGivenNames -lift x0
  clear_value x0
  extract_lets +onlyGivenNames -lift x1
  clear_value x1
  extract_lets +onlyGivenNames -lift x2
  clear_value x2
  extract_lets +onlyGivenNames -lift x3
  clear_value x3
  extract_lets +onlyGivenNames -lift x4
  have g5 : Keeps M s0 x4 := by
    refine setTbl_keeps (sub hM rfl) ?_
    exact h0
  clear_value x4
  refine KeepsR.ite ?_ ?_
  · refine KeepsR.next ?_
    refine compared_keeps (sub hM rfl) ?_
    refine forAll_keeps (sub hM rfl) ?_ ?_
    · intro w6 w7 k8
      refine masterError_keeps (sub hM rfl) ?_
      exact k8
    · exact g5
  · refine KeepsR.next ?_
    exact h0

theorem execTblRead_keeps {M : Nat} {s0 : State} {a0 : Origin} {a1 : List Byte} {a2 : State} (hM : 8589952000 ||| M = M) (h0 : Keeps M s0 a2) :
    KeepsR M s0 (execTblRead a0 a1 a2) := by
  unfold execTblRead
  extract_lets +onlyGivenNames -lift x0
  clear_value x0
  extract_lets +onlyGivenNames -lift x1
  clear_value x1
  extract_lets +onlyGivenNames -lift x2
  clear_value x2
  refine command_keeps (sub hM rfl) ?_ ?_
  · intro w3 k4
    refine Keeps.ite ?_ ?_
    · refine reply_keeps (sub hM rfl) ?_
      exact k4
    · refine reply_keeps (sub hM rfl) ?_
      exact k4
  · exact h0

theorem writeEntries_keeps {M : Nat} {s0 : State} {a0 : Nat} {a1 : Nat} {a2 : List Nat} {a3 : Nat} {a4 : State} (hM : 68719615574 ||| M = M) (h0 : Keeps M s0 a4) :
    Keeps3 M s0 (writeEntries a0 a1 a2 a3 a4) := by
  induction a2 generalizing a0 a1 a3 a4 with
  | nil =>
    unfold writeEntries
    refine Keeps3.mk ?_
    refine Keeps2.mk ?_
    exact h0
  | cons e l ih =>
    unfold writeEntries
    extract_lets +onlyGivenNames -lift x0
    clear_value x0
    refine Keeps3.ite ?_ ?_
    · apply ih
      refine editEntry_keeps (sub hM rfl) ?_
      exact h0
    · refine Keeps3.mk ?_
      refine Keeps2.mk ?_
      exact h0

theorem execTblWrite_keeps {M : Nat} {s0 : State} {a0 : Origin} {a1 : List Byte} {a2 : State} (hM : 77309566550 ||| M = M) (h0 : Keeps M s0 a2) :
    KeepsR M s0 (execTblWrite a0 a1 a2) := by
  unfold execTblWrite
  extract_lets +onlyGivenNames -lift x0
  clear_value x0
  extract_lets +onlyGivenNames -lift x1
  clear_value x1
  extract_lets +onlyGivenNames -lift x2
  clear_value x2
  extract_lets +onlyGivenNames -lift x3
  clear_value x3
  refine commandV_keeps (sub hM rfl) ?_ ?_
  · intro w4 k5
    refine Keeps.ite ?_ ?_
    · refine reply_keeps (sub hM rfl) ?_
      exact k5
    · split
      · rename_i y6 y7 y8 y9 y10
        refine Keeps3.elim (m := M) (s0 := s0) y10 ?_ (fun g11 => ?_)
        · refine writeEntries_keeps (sub hM rfl) ?_
          exact k5
        refine reply_keeps (sub hM rfl) ?_
        exact g11
  · exact h0

theorem cmpAbort_keeps {M : Nat} {s0 : State} {a0 : Nat} {a1 : State} (hM : 68719476753 ||| M = M) (h0 : Keeps M s0 a1) :
    Keeps M s0 (cmpAbort a0 a1) := by
  unfold cmpAbort
  extract_lets +onlyGivenNames -lift x0
  clear_value x0
  split
  · exact h0
  · refine Keeps.ite ?_ ?_
    · refine abortTest_keeps (sub hM rfl) ?_
      refine Keeps.set_tests (hit hM rfl) (?_)
      exact h0
    · exact h0

theorem execTblRebuild_keeps {M : Nat} {s0 : State} {a0 : Origin} {a1 : List Byte} {a2 : State} (hM : 77309429267 ||| M = M) (h0 : Keeps M s0 a2) :
    KeepsR M s0 (execTblRebuild a0 a1 a2) := by
  unfold execTblRebuild
  extract_lets +onlyGivenNames -lift x0
  clear_value x0
  refine command_keeps (sub hM rfl) ?_ ?_
  · intro w2 k3
    extract_lets +onlyGivenNames -lift x4
    clear_value x4
    extract_lets +onlyGivenNames -lift x5
    have g6 : Keeps M s0 x5 := by
      refine setTbl_keeps (sub hM rfl) ?_
      refine cmpAbort_keeps (sub hM rfl) ?_
      exact k3
    clear_value x5
    refine Keeps.ite ?_ ?_
    · refine reply_keeps (sub hM rfl) ?_
      exact k3
    · refine Keeps.ite ?_ ?_
      · refine reply_keeps (sub hM rfl) ?_
        exact k3
      · refine reply_keeps (sub hM rfl) ?_
        refine updFgrBusy_keeps (sub hM rfl) ?_
        refine setShok_keeps (sub hM rfl) ?_
        exact g6
  · exact h0

theorem execTblSwap_keeps {M : Nat} {s0 : State} {a0 : Origin} {a1 : List Byte} {a2 : State} (hM : 77309566550 ||| M = M) (h0 : Keeps M s0 a2) :
    KeepsR M s0 (execTblSwap a0 a1 a2) := by
  unfold execTblSwap
  extract_lets +onlyGivenNames -lift x0
  clear_value x0
  refine command_keeps (sub hM rfl) ?_ ?_
  · intro w2 k3
    extract_lets +onlyGivenNames -lift x4
    have g5 : Keeps M s0 x4 := by
      refine swapTable_keeps (sub hM rfl) ?_
      exact k3
    clear_value x4
    refine Keeps.ite ?_ ?_
    · refine reply_keeps (sub hM rfl) ?_
      exact k3
    · refine Keeps.ite ?_ ?_
      · refine reply_keeps (sub hM rfl) ?_
        exact k3
      · refine reply_keeps (sub hM rfl) ?_
        exact g5
  · exact h0

theorem execTunGet_keeps {M : Nat} {s0 : State} {a0 : Origin} {a1 : List Byte} {a2 : State} (hM : 8589952000 ||| M = M) (h0 : Keeps M s0 a2) :
    KeepsR M s0 (execTunGet a0 a1 a2) := by
  unfold execTunGet
  extract_lets +onlyGivenNames -lift x0
  clear_value x0
  refine command_keeps (sub hM rfl) ?_ ?_
  · intro w1 k2
    refine Keeps.ite ?_ ?_
    · refine reply_keeps (sub hM rfl) ?_
      exact k2
    · refine reply_keeps (sub hM rfl) ?_
      exact k2
  · exact h0

theorem writeSelected_keeps {M : Nat} {s0 : State} {a0 : Nat} {a1 : List (Nat × Nat)} {a2 : Nat} {a3 : State} (hM : 68719615574 ||| M = M) (h0 : Keeps M s0 a3) :
    Keeps3 M s0 (writeSelected a0 a1 a2 a3) := by
  induction a1 generalizing a0 a2 a3 with
  | nil =>
    unfold writeSelected
    refine Keeps3.mk ?_
    refine Keeps2.mk ?_
    exact h0
  | cons e l ih =>
    unfold writeSelected
    extract_lets +onlyGivenNames -lift x0
    clear_value x0
    refine Keeps3.ite ?_ ?_
    · apply ih
      refine editEntry_keeps (sub hM rfl) ?_
      exact h0
    · refine Keeps3.mk ?_
      refine Keeps2.mk ?_
      exact h0

theorem execTunSet_keeps {M : Nat} {s0 : State} {a0 : Origin} {a1 : List Byte} {a2 : State} (hM : 77309566550 ||| M = M) (h0 : Keeps M s0 a2) :
    KeepsR M s0 (execTunSet a0 a1 a2) := by
  unfold execTunSet
  extract_lets +onlyGivenNames -lift x0
  clear_value x0
  extract_lets +onlyGivenNames -lift x1
  clear_value x1
  extract_lets +onlyGivenNames -lift x2
  clear_value x2
  refine command_keeps (sub hM rfl) ?_ ?_
  · intro w3 k4
    refine Keeps.ite ?_ ?_
    · refine reply_keeps (sub hM rfl) ?_
      exact k4
    · split
      · rename_i y5 y6 y7 y8 y9
        refine Keeps3.elim (m := M) (s0 := s0) y9 ?_ (fun g10 => ?_)
        · refine writeSelected_keeps (sub hM rfl) ?_
          exact k4
        refine reply_keeps (sub hM rfl) ?_
        exact g10
  · exact h0

/-! Topology. -/

theorem takeAddress_keeps {M : Nat} {s0 : State} {a0 : Nat} {a1 : Nat} {a2 : State} (hM : 280146 ||| M = M) (h0 : Keeps M s0 a2) :
    Keeps M s0 (takeAddress a0 a1 a2) := by
  unfold takeAddress
  refine withParent_keeps (sub hM rfl) ?_ ?_
  · intro w0 k1
    refine setAddr_keeps (sub hM rfl) ?_
    refine wr_keeps (sub hM rfl) ?_
    refine wr_keeps (sub hM rfl) ?_
    exact k1
  · exact h0

theorem execAddrAssign_keeps {M : Nat} {s0 : State} {a0 : Origin} {a1 : List Byte} {a2 : State} (hM : 8590345814 ||| M = M) (h0 : Keeps M s0 a2) :
    KeepsR M s0 (execAddrAssign a0 a1 a2) := by
  unfold execAddrAssign
  extract_lets +onlyGivenNames -lift x0
  clear_value x0
  refine command_keeps (sub hM rfl) ?_ ?_
  · intro w1 k2
    split
    · refine reply_keeps (sub hM rfl) ?_
      exact k2
    · refine Keeps.ite ?_ ?_
      · refine reply_keeps (sub hM rfl) ?_
        exact k2
      · refine Keeps.ite ?_ ?_
        · refine reply_keeps (sub hM rfl) ?_
          exact k2
        · refine Keeps.ite ?_ ?_
          · refine reply_keeps (sub hM rfl) ?_
            exact k2
          · refine Keeps.ite ?_ ?_
            · refine takeAddress_keeps (sub hM rfl) ?_
              refine reply_keeps (sub hM rfl) ?_
              exact k2
            · refine Keeps.ite ?_ ?_
              · refine Keeps.ite ?_ ?_
                · refine reply_keeps (sub hM rfl) ?_
                  exact k2
                · refine takeAddress_keeps (sub hM rfl) ?_
                  refine reply_keeps (sub hM rfl) ?_
                  exact k2
              · refine reply_keeps (sub hM rfl) ?_
                refine raise_keeps (sub hM rfl) ?_
                refine count_keeps (sub hM rfl) ?_
                exact k2
  · exact h0

theorem execAddrAssignRepeat_keeps {M : Nat} {s0 : State} {a0 : LPort} {a1 : State} (hM : 17472 ||| M = M) (h0 : Keeps M s0 a1) :
    KeepsR M s0 (execAddrAssignRepeat a0 a1) := by
  unfold execAddrAssignRepeat
  refine KeepsR.ite ?_ ?_
  · refine KeepsR.next ?_
    refine sendAssign_keeps (sub hM rfl) ?_
    exact h0
  · refine KeepsR.next ?_
    exact h0

theorem removeBreak_keeps {M : Nat} {s0 : State} {a0 : Nat} {a1 : BreakRec → Bool} {a2 : State} (hM : 512 ||| M = M) (h0 : Keeps M s0 a2) :
    Keeps M s0 (removeBreak a0 a1 a2) := by
  unfold removeBreak
  split
  · refine updTopo_keeps (sub hM rfl) ?_
    exact h0
  · exact h0

theorem takeRing_keeps {M : Nat} {s0 : State} {a0 : Nat} {a1 : Nat} {a2 : State} (hM : 1024 ||| M = M) (h0 : Keeps M s0 a2) :
    KeepsO M s0 (takeRing a0 a1 a2) := by
  unfold takeRing
  refine KeepsO.map ?_
  intro w0
  refine Keeps2.mk ?_
  refine setHold_keeps (sub hM rfl) ?_
  exact h0

theorem forwardRing_keeps {M : Nat} {s0 : State} {a0 : Nat} {a1 : Held} {a2 : State} (hM : 68719609430 ||| M = M) (h0 : Keeps M s0 a2) :
    Keeps M s0 (forwardRing a0 a1 a2) := by
  unfold forwardRing
  extract_lets +onlyGivenNames -lift x0
  clear_value x0
  extract_lets +onlyGivenNames -lift x1
  clear_value x1
  extract_lets +onlyGivenNames -lift x2
  have g3 : Keeps M s0 x2 := by
    refine Keeps.ite ?_ ?_
    · refine countFallback_keeps (sub hM rfl) ?_
      exact h0
    · exact h0
  clear_value x2
  refine raise_keeps (sub hM rfl) ?_
  refine stage_keeps (sub hM rfl) ?_
  exact g3

theorem execRingBreak_keeps {M : Nat} {s0 : State} {a0 : LPort} {a1 : State} (hM : 68719609430 ||| M = M) (h0 : Keeps M s0 a1) :
    KeepsR M s0 (execRingBreak a0 a1) := by
  unfold execRingBreak
  split
  · rename_i y1 y2
    refine KeepsR.next ?_
    exact h0
  · rename_i y3 y4 y5 y6
    refine KeepsO.elim (m := M) (s0 := s0) y6 ?_ (fun g7 => ?_)
    · refine takeRing_keeps (sub hM rfl) ?_
      exact h0
    extract_lets +onlyGivenNames -lift x8
    clear_value x8
    extract_lets +onlyGivenNames -lift x9
    have g10 : Keeps M s0 x9 := by
      refine Keeps.ite ?_ ?_
      · refine Keeps.ite ?_ ?_
        · refine addBreak_keeps (sub hM rfl) ?_
          exact g7
        · refine count_keeps (sub hM rfl) ?_
          exact g7
      · exact g7
    clear_value x9
    refine KeepsR.ite ?_ ?_
    · refine KeepsR.next ?_
      refine vanish_keeps (sub hM rfl) ?_
      exact g7
    · refine KeepsR.next ?_
      refine forwardRing_keeps (sub hM rfl) ?_
      exact g10

theorem execRingHeal_keeps {M : Nat} {s0 : State} {a0 : LPort} {a1 : State} (hM : 68719609430 ||| M = M) (h0 : Keeps M s0 a1) :
    KeepsR M s0 (execRingHeal a0 a1) := by
  unfold execRingHeal
  split
  · rename_i y0 y1
    refine KeepsR.next ?_
    exact h0
  · rename_i y2 y3 y4 y5
    refine KeepsO.elim (m := M) (s0 := s0) y5 ?_ (fun g6 => ?_)
    · refine takeRing_keeps (sub hM rfl) ?_
      exact h0
    refine KeepsR.ite ?_ ?_
    · refine KeepsR.next ?_
      refine vanish_keeps (sub hM rfl) ?_
      exact g6
    · refine KeepsR.next ?_
      refine forwardRing_keeps (sub hM rfl) ?_
      refine removeBreak_keeps (sub hM rfl) ?_
      exact g6

theorem execWtrExpiry_keeps {M : Nat} {s0 : State} {a0 : LPort} {a1 : State} (hM : 1552 ||| M = M) (h0 : Keeps M s0 a1) :
    KeepsR M s0 (execWtrExpiry a0 a1) := by
  unfold execWtrExpiry
  extract_lets +onlyGivenNames -lift x0
  clear_value x0
  split
  · refine KeepsR.next ?_
    exact h0
  · refine KeepsR.ite ?_ ?_
    · refine KeepsR.next ?_
      refine raise_keeps (sub hM rfl) ?_
      refine holdForced_keeps (sub hM rfl) ?_
      refine removeBreak_keeps (sub hM rfl) ?_
      exact h0
    · refine KeepsR.next ?_
      exact h0

theorem execRingHoldExpiry_keeps {M : Nat} {s0 : State} {a0 : LPort} {a1 : State} (hM : 512 ||| M = M) (h0 : Keeps M s0 a1) :
    KeepsR M s0 (execRingHoldExpiry a0 a1) := by
  unfold execRingHoldExpiry
  refine KeepsR.next ?_
  refine updTopo_keeps (sub hM rfl) ?_
  exact h0

theorem ringEnWrite_keeps {M : Nat} {s0 : State} {a0 : Bool} {a1 : State} (hM : 514 ||| M = M) (h0 : Keeps M s0 a1) :
    Keeps M s0 (ringEnWrite a0 a1) := by
  unfold ringEnWrite
  extract_lets +onlyGivenNames -lift x0
  clear_value x0
  extract_lets +onlyGivenNames -lift x1
  have g2 : Keeps M s0 x1 := by
    refine wr_keeps (sub hM rfl) ?_
    exact h0
  clear_value x1
  extract_lets +onlyGivenNames -lift x3
  clear_value x3
  refine Keeps.ite ?_ ?_
  · refine updTopo_keeps (sub hM rfl) ?_
    exact g2
  · exact g2

theorem execRingEnClear_keeps {M : Nat} {s0 : State} {a0 : State} (hM : 514 ||| M = M) (h0 : Keeps M s0 a0) :
    KeepsR M s0 (execRingEnClear a0) := by
  unfold execRingEnClear
  refine access_keeps (sub hM rfl) ?_ ?_
  · intro w0 k1
    refine ringEnWrite_keeps (sub hM rfl) ?_
    exact k1
  · exact h0

theorem releasePorts_keeps {M : Nat} {s0 : State} {a0 : Nat} {a1 : State} (hM : 68719477826 ||| M = M) (h0 : Keeps M s0 a1) :
    Keeps M s0 (releasePorts a0 a1) := by
  unfold releasePorts
  refine forAll_keeps (sub hM rfl) ?_ ?_
  · intro w0 w1 k2
    refine Keeps.ite ?_ ?_
    · refine startTraining_keeps (sub hM rfl) ?_
      exact k2
    · exact k2
  · exact h0

theorem bypassPorts_keeps {M : Nat} {s0 : State} {a0 : Bool} {a1 : Nat} {a2 : State} (hM : 68719871574 ||| M = M) (h0 : Keeps M s0 a2) :
    Keeps M s0 (bypassPorts a0 a1 a2) := by
  unfold bypassPorts
  extract_lets +onlyGivenNames -lift x0
  clear_value x0
  extract_lets +onlyGivenNames -lift x1
  have g2 : Keeps M s0 x1 := by
    refine wr_keeps (sub hM rfl) ?_
    refine wr_keeps (sub hM rfl) ?_
    exact h0
  clear_value x1
  extract_lets +onlyGivenNames -lift x3
  have g4 : Keeps M s0 x3 := by
    refine updTopo_keeps (sub hM rfl) ?_
    exact g2
  clear_value x3
  refine Keeps.ite ?_ ?_
  · refine releasePorts_keeps (sub hM rfl) ?_
    refine forAll_keeps (sub hM rfl) ?_ ?_
    · intro w5 w6 k7
      refine Keeps.ite ?_ ?_
      · exact k7
      · refine disablePort_keeps (sub hM rfl) ?_
        exact k7
    · exact g4
  · refine updTopo_keeps (sub hM rfl) ?_
    exact g2

theorem bypassSet_keeps {M : Nat} {s0 : State} {a0 : Bool} {a1 : State} (hM : 68719871574 ||| M = M) (h0 : Keeps M s0 a1) :
    Keeps M s0 (bypassSet a0 a1) := by
  unfold bypassSet
  refine bypassPorts_keeps (sub hM rfl) ?_
  exact h0

theorem execBypassWrite_keeps {M : Nat} {s0 : State} {a0 : Bool} {a1 : State} (hM : 68719871574 ||| M = M) (h0 : Keeps M s0 a1) :
    KeepsR M s0 (execBypassWrite a0 a1) := by
  unfold execBypassWrite
  refine access_keeps (sub hM rfl) ?_ ?_
  · intro w0 k1
    refine bypassSet_keeps (sub hM rfl) ?_
    exact k1
  · exact h0

theorem execBypassSettleExpiry_keeps {M : Nat} {s0 : State} {a0 : State} (hM : 68719478338 ||| M = M) (h0 : Keeps M s0 a0) :
    KeepsR M s0 (execBypassSettleExpiry a0) := by
  unfold execBypassSettleExpiry
  refine KeepsR.next ?_
  refine releasePorts_keeps (sub hM rfl) ?_
  refine updTopo_keeps (sub hM rfl) ?_
  exact h0

/-! Tolger. -/

theorem noteWorst_keeps {M : Nat} {s0 : State} {a0 : Nat} {a1 : Nat} {a2 : State} (hM : 2 ||| M = M) (h0 : Keeps M s0 a2) :
    Keeps M s0 (noteWorst a0 a1 a2) := by
  unfold noteWorst
  refine Keeps.ite ?_ ?_
  · refine wr_keeps (sub hM rfl) ?_
    exact h0
  · exact h0

theorem dropTolger_keeps {M : Nat} {s0 : State} {a0 : Nat} {a1 : State} (hM : 132820 ||| M = M) (h0 : Keeps M s0 a1) :
    Keeps M s0 (dropTolger a0 a1) := by
  unfold dropTolger
  extract_lets +onlyGivenNames -lift x0
  clear_value x0
  extract_lets +onlyGivenNames -lift x1
  have g2 : Keeps M s0 x1 := by
    refine forAll_keeps (sub hM rfl) ?_ ?_
    · intro w3 w4 k5
      refine forAll_keeps (sub hM rfl) ?_ ?_
      · intro w6 w7 k8
        refine discardCell_keeps (sub hM rfl) ?_
        exact k8
      · exact k5
    · exact h0
  clear_value x1
  extract_lets +onlyGivenNames -lift x9
  clear_value x9
  refine setTolger_keeps (sub hM rfl) ?_
  exact g2

theorem tolgerFail_keeps {M : Nat} {s0 : State} {a0 : Nat} {a1 : State} (hM : 134870 ||| M = M) (h0 : Keeps M s0 a1) :
    Keeps M s0 (tolgerFail a0 a1) := by
  unfold tolgerFail
  extract_lets +onlyGivenNames -lift x0
  have g1 : Keeps M s0 x0 := by
    refine wr_keeps (sub hM rfl) ?_
    exact h0
  clear_value x0
  extract_lets +onlyGivenNames -lift x2
  have g3 : Keeps M s0 x2 := by
    refine wr_keeps (sub hM rfl) ?_
    exact g1
  clear_value x2
  extract_lets +onlyGivenNames -lift x4
  have g5 : Keeps M s0 x4 := by
    refine dropTolger_keeps (sub hM rfl) ?_
    refine raise_keeps (sub hM rfl) ?_
    exact g3
  clear_value x4
  refine logErr_keeps (sub hM rfl) ?_
  refine dropPort_keeps (sub hM rfl) ?_
  refine dropPort_keeps (sub hM rfl) ?_
  exact g5

theorem tolgerDeliver_keeps {M : Nat} {s0 : State} {a0 : Bool} {a1 : Nat} {a2 : TolgerCell} {a3 : State} (hM : 5120 ||| M = M) (h0 : Keeps M s0 a3) :
    Keeps M s0 (tolgerDeliver a0 a1 a2 a3) := by
  unfold tolgerDeliver
  refine Keeps.ite ?_ ?_
  · refine setHold_keeps (sub hM rfl) ?_
    exact h0
  · refine arrive_keeps (sub hM rfl) ?_
    exact h0

theorem execTolgerCellReceive_keeps {M : Nat} {s0 : State} {a0 : Slot} {a1 : Bool} {a2 : Fin 2} {a3 : Bool} {a4 : State} (hM : 138966 ||| M = M) (h0 : Keeps M s0 a4) :
    KeepsR M s0 (execTolgerCellReceive a0 a1 a2 a3 a4) := by
  unfold execTolgerCellReceive
  extract_lets +onlyGivenNames -lift x0
  clear_value x0
  extract_lets +onlyGivenNames -lift x1
  clear_value x1
  extract_lets +onlyGivenNames -lift x2
  clear_value x2
  extract_lets +onlyGivenNames -lift x3
  have g4 : Keeps M s0 x3 := by
    refine noteWorst_keeps (sub hM rfl) ?_
    refine count_keeps (sub hM rfl) ?_
    refine setTolger_keeps (sub hM rfl) ?_
    exact h0
  clear_value x3
  split
  · refine KeepsR.next ?_
    exact h0
  · refine KeepsR.ite ?_ ?_
    · refine KeepsR.next ?_
      exact h0
    · refine KeepsR.ite ?_ ?_
      · refine KeepsR.next ?_
        refine tolgerDeliver_keeps (sub hM rfl) ?_
        refine setTolger_keeps (sub hM rfl) ?_
        exact h0
      · refine KeepsR.ite ?_ ?_
        · refine KeepsR.next ?_
          refine tolgerFail_keeps (sub hM rfl) ?_
          exact g4
        · refine KeepsR.next ?_
          exact g4

theorem execTolgerFlitReceive_keeps {M : Nat} {s0 : State} {a0 : Slot} {a1 : Bool} {a2 : SideFlit} {a3 : State} (hM : 134870 ||| M = M) (h0 : Keeps M s0 a3) :
    KeepsR M s0 (execTolgerFlitReceive a0 a1 a2 a3) := by
  unfold execTolgerFlitReceive
  extract_lets +onlyGivenNames -lift x0
  clear_value x0
  extract_lets +onlyGivenNames -lift x1
  clear_value x1
  extract_lets +onlyGivenNames -lift x2
  clear_value x2
  extract_lets +onlyGivenNames -lift x3
  have g4 : Keeps M s0 x3 := by
    refine noteWorst_keeps (sub hM rfl) ?_
    refine count_keeps (sub hM rfl) ?_
    refine setTolger_keeps (sub hM rfl) ?_
    exact h0
  clear_value x3
  refine KeepsR.ite ?_ ?_
  · refine KeepsR.next ?_
    exact h0
  · refine KeepsR.ite ?_ ?_
    · refine KeepsR.next ?_
      refine setTolger_keeps (sub hM rfl) ?_
      exact h0
    · refine KeepsR.ite ?_ ?_
      · refine KeepsR.next ?_
        exact h0
      · refine KeepsR.ite ?_ ?_
        · refine KeepsR.next ?_
          refine tolgerFail_keeps (sub hM rfl) ?_
          exact g4
        · refine KeepsR.next ?_
          exact g4

theorem execTolgerNak_keeps {M : Nat} {s0 : State} {a0 : Slot} {a1 : Bool} {a2 : Bool} {a3 : State} (hM : 131220 ||| M = M) (h0 : Keeps M s0 a3) :
    KeepsR M s0 (execTolgerNak a0 a1 a2 a3) := by
  unfold execTolgerNak
  extract_lets +onlyGivenNames -lift x0
  clear_value x0
  extract_lets +onlyGivenNames -lift x1
  clear_value x1
  refine KeepsR.ite ?_ ?_
  · refine KeepsR.next ?_
    exact h0
  · refine KeepsR.ite ?_ ?_
    · refine KeepsR.ite ?_ ?_
      · refine KeepsR.next ?_
        refine count_keeps (sub hM rfl) ?_
        refine setTolger_keeps (sub hM rfl) ?_
        exact h0
      · refine KeepsR.next ?_
        exact h0
    · refine KeepsR.ite ?_ ?_
      · refine KeepsR.next ?_
        refine count_keeps (sub hM rfl) ?_
        refine setTolger_keeps (sub hM rfl) ?_
        exact h0
      · refine KeepsR.next ?_
        exact h0

theorem execTolgerCreditReturn_keeps {M : Nat} {s0 : State} {a0 : Slot} {a1 : Bool} {a2 : Fin 2} {a3 : State} (hM : 128 ||| M = M) (h0 : Keeps M s0 a3) :
    KeepsR M s0 (execTolgerCreditReturn a0 a1 a2 a3) := by
  unfold execTolgerCreditReturn
  extract_lets +onlyGivenNames -lift x0
  clear_value x0
  refine KeepsR.ite ?_ ?_
  · refine KeepsR.next ?_
    exact h0
  · refine KeepsR.next ?_
    refine setTolger_keeps (sub hM rfl) ?_
    exact h0

theorem execTolgerBeatPair_keeps {M : Nat} {s0 : State} {a0 : Slot} {a1 : Bool} {a2 : State} (hM : 128 ||| M = M) (h0 : Keeps M s0 a2) :
    KeepsR M s0 (execTolgerBeatPair a0 a1 a2) := by
  unfold execTolgerBeatPair
  extract_lets +onlyGivenNames -lift x0
  clear_value x0
  extract_lets +onlyGivenNames -lift x1
  clear_value x1
  extract_lets +onlyGivenNames -lift x2
  clear_value x2
  extract_lets +onlyGivenNames -lift x3
  clear_value x3
  split
  · refine KeepsR.next ?_
    exact h0
  · refine KeepsR.ite ?_ ?_
    · split
      · refine KeepsR.next ?_
        exact h0
      · refine KeepsR.next ?_
        refine setTolger_keeps (sub hM rfl) ?_
        exact h0
    · refine KeepsR.next ?_
      exact h0

theorem startLink_keeps {M : Nat} {s0 : State} {a0 : Nat} {a1 : State} (hM : 130 ||| M = M) (h0 : Keeps M s0 a1) :
    Keeps M s0 (startLink a0 a1) := by
  unfold startLink
  extract_lets +onlyGivenNames -lift x0
  have g1 : Keeps M s0 x0 := by
    refine setTolger_keeps (sub hM rfl) ?_
    exact h0
  clear_value x0
  extract_lets +onlyGivenNames -lift x2
  have g3 : Keeps M s0 x2 := by
    refine setTolger_keeps (sub hM rfl) ?_
    exact g1
  clear_value x2
  refine Keeps.ite ?_ ?_
  · exact h0
  · refine wr_keeps (sub hM rfl) ?_
    exact g3

theorem execTolgerRelink_keeps {M : Nat} {s0 : State} {a0 : Slot} {a1 : State} (hM : 130 ||| M = M) (h0 : Keeps M s0 a1) :
    KeepsR M s0 (execTolgerRelink a0 a1) := by
  unfold execTolgerRelink
  extract_lets +onlyGivenNames -lift x0
  clear_value x0
  extract_lets +onlyGivenNames -lift x1
  have g2 : Keeps M s0 x1 := by
    refine startLink_keeps (sub hM rfl) ?_
    refine wr_keeps (sub hM rfl) ?_
    exact h0
  clear_value x1
  refine KeepsR.ite ?_ ?_
  · refine KeepsR.next ?_
    refine wr_keeps (sub hM rfl) ?_
    exact h0
  · refine KeepsR.ite ?_ ?_
    · refine KeepsR.next ?_
      refine wr_keeps (sub hM rfl) ?_
      refine wr_keeps (sub hM rfl) ?_
      exact g2
    · refine KeepsR.next ?_
      exact h0

/-! Tunnel. -/

theorem releaseCells_keeps {M : Nat} {s0 : State} {a0 : Nat} {a1 : Nat} {a2 : List Cell} {a3 : State} (hM : 1152 ||| M = M) (h0 : Keeps M s0 a3) :
    Keeps M s0 (releaseCells a0 a1 a2 a3) := by
  unfold releaseCells
  extract_lets +onlyGivenNames -lift x0
  clear_value x0
  extract_lets +onlyGivenNames -lift x1
  clear_value x1
  refine Keeps.ite ?_ ?_
  · refine holdCells_keeps (sub hM rfl) ?_
    exact h0
  · refine setTolger_keeps (sub hM rfl) ?_
    exact h0

theorem stampFn_keeps {M : Nat} {s0 : State} {a0 : Nat} {a1 : Nat} {a2 : List Byte} {a3 : State} (hM : 4096 ||| M = M) (h0 : Keeps M s0 a3) :
    Keeps2 M s0 (stampFn a0 a1 a2 a3) := by
  unfold stampFn
  extract_lets +onlyGivenNames -lift x0
  clear_value x0
  refine Keeps2.ite ?_ ?_
  · refine Keeps2.mk ?_
    refine updTuns_keeps (sub hM rfl) ?_
    exact h0
  · refine Keeps2.mk ?_
    exact h0

theorem originate_keeps {M : Nat} {s0 : State} {a0 : Nat} {a1 : Nat} {a2 : List Byte} {a3 : State} (hM : 138388 ||| M = M) (h0 : Keeps M s0 a3) :
    Keeps M s0 (originate a0 a1 a2 a3) := by
  unfold originate
  split
  · refine count_keeps (sub hM rfl) ?_
    exact h0
  · extract_lets +onlyGivenNames -lift x1
    clear_value x1
    refine Keeps.ite ?_ ?_
    · refine count_keeps (sub hM rfl) ?_
      exact h0
    · refine Keeps.ite ?_ ?_
      · exact h0
      · split
        · rename_i y5 y6 y7 y8
          refine Keeps2.elim (m := M) (s0 := s0) y8 ?_ (fun g9 => ?_)
          · refine stampFn_keeps (sub hM rfl) ?_
            exact h0
          extract_lets +onlyGivenNames -lift x10
          clear_value x10
          extract_lets +onlyGivenNames -lift x11
          clear_value x11
          extract_lets +onlyGivenNames -lift x12
          clear_value x12
          extract_lets +onlyGivenNames -lift x13
          clear_value x13
          refine Keeps.ite ?_ ?_
          · refine releaseCells_keeps (sub hM rfl) ?_
            exact g9
          · refine Keeps.ite ?_ ?_
            · refine releaseCells_keeps (sub hM rfl) ?_
              refine setShaper_keeps (sub hM rfl) ?_
              exact g9
            · refine updSched_keeps (sub hM rfl) ?_
              exact g9

theorem execTunnelFrameOriginate_keeps {M : Nat} {s0 : State} {a0 : Slot} {a1 : BitVec 14} {a2 : List Byte} {a3 : State} (hM : 138388 ||| M = M) (h0 : Keeps M s0 a3) :
    KeepsR M s0 (execTunnelFrameOriginate a0 a1 a2 a3) := by
  unfold execTunnelFrameOriginate
  refine KeepsR.ite ?_ ?_
  · refine KeepsR.next ?_
    refine originate_keeps (sub hM rfl) ?_
    exact h0
  · refine KeepsR.next ?_
    exact h0

theorem execOriginFrameRelease_keeps {M : Nat} {s0 : State} {a0 : BitVec 12} {a1 : State} (hM : 3200 ||| M = M) (h0 : Keeps M s0 a1) :
    KeepsR M s0 (execOriginFrameRelease a0 a1) := by
  unfold execOriginFrameRelease
  extract_lets +onlyGivenNames -lift x0
  clear_value x0
  split
  · refine KeepsR.next ?_
    exact h0
  · extract_lets +onlyGivenNames -lift x2
    have g3 : Keeps M s0 x2 := by
      refine updSched_keeps (sub hM rfl) ?_
      exact h0
    clear_value x2
    refine KeepsR.ite ?_ ?_
    · refine KeepsR.next ?_
      refine releaseCells_keeps (sub hM rfl) ?_
      refine setShaper_keeps (sub hM rfl) ?_
      exact g3
    · refine KeepsR.next ?_
      exact h0

theorem setCtxs_keeps {M : Nat} {s0 : State} {a0 : Nat} {a1 : List Reasm} {a2 : State} (hM : 4096 ||| M = M) (h0 : Keeps M s0 a2) :
    Keeps M s0 (setCtxs a0 a1 a2) := by
  unfold setCtxs
  refine updTuns_keeps (sub hM rfl) ?_
  exact h0

theorem reasmErr_keeps {M : Nat} {s0 : State} {a0 : Nat} {a1 : State} (hM : 131092 ||| M = M) (h0 : Keeps M s0 a1) :
    Keeps M s0 (reasmErr a0 a1) := by
  unfold reasmErr
  refine count_keeps (sub hM rfl) ?_
  exact h0

theorem execTunResetCtx_keeps {M : Nat} {s0 : State} {a0 : Origin} {a1 : List Byte} {a2 : State} (hM : 8590095380 ||| M = M) (h0 : Keeps M s0 a2) :
    KeepsR M s0 (execTunResetCtx a0 a1 a2) := by
  unfold execTunResetCtx
  extract_lets +onlyGivenNames -lift x0
  clear_value x0
  refine command_keeps (sub hM rfl) ?_ ?_
  · intro w2 k3
    extract_lets +onlyGivenNames -lift x4
    have g5 : Keeps M s0 x4 := by
      refine forAll_keeps (sub hM rfl) ?_ ?_
      · intro w7 w8 k9
        extract_lets +onlyGivenNames -lift x10
        clear_value x10
        extract_lets +onlyGivenNames -lift x11
        clear_value x11
        refine setCtxs_keeps (sub hM rfl) ?_
        refine forAll_keeps (sub hM rfl) ?_ ?_
        · intro w12 w13 k14
          refine reasmErr_keeps (sub hM rfl) ?_
          exact k14
        · exact k9
      · exact k3
    clear_value x4
    refine Keeps.ite ?_ ?_
    · refine reply_keeps (sub hM rfl) ?_
      exact k3
    · refine reply_keeps (sub hM rfl) ?_
      refine updBrg_keeps (sub hM rfl) ?_
      exact g5
  · exact h0

/-! Command. -/

theorem updSession_keeps {M : Nat} {s0 : State} {a0 : Nat} {a1 : Session → Session} {a2 : State} (hM : 16384 ||| M = M) (h0 : Keeps M s0 a2) :
    Keeps M s0 (updSession a0 a1 a2) := by
  unfold updSession
  refine updCmd_keeps (sub hM rfl) ?_
  exact h0

theorem endSession_keeps {M : Nat} {s0 : State} {a0 : Nat} {a1 : State} (hM : 16384 ||| M = M) (h0 : Keeps M s0 a1) :
    Keeps M s0 (endSession a0 a1) := by
  unfold endSession
  refine Keeps.ite ?_ ?_
  · refine updSession_keeps (sub hM rfl) ?_
    exact h0
  · refine updCmd_keeps (sub hM rfl) ?_
    exact h0

theorem macFailure_keeps {M : Nat} {s0 : State} {a0 : Nat} {a1 : State} (hM : 147476 ||| M = M) (h0 : Keeps M s0 a1) :
    Keeps M s0 (macFailure a0 a1) := by
  unfold macFailure
  extract_lets +onlyGivenNames -lift x0
  have g1 : Keeps M s0 x0 := by
    refine raise_keeps (sub hM rfl) ?_
    refine count_keeps (sub hM rfl) ?_
    exact h0
  clear_value x0
  extract_lets +onlyGivenNames -lift x2
  clear_value x2
  split
  · exact g1
  · refine Keeps.ite ?_ ?_
    · refine endSession_keeps (sub hM rfl) ?_
      exact g1
    · refine updSession_keeps (sub hM rfl) ?_
      exact g1

theorem plainReply_keeps {M : Nat} {s0 : State} {a0 : Origin} {a1 : Nat} {a2 : State} (hM : 8589952000 ||| M = M) (h0 : Keeps M s0 a2) :
    Keeps M s0 (plainReply a0 a1 a2) := by
  unfold plainReply
  refine Keeps.ite ?_ ?_
  · exact h0
  · refine sendReply_keeps (sub hM rfl) ?_
    exact h0

theorem relay_keeps {M : Nat} {s0 : State} {a0 : Origin} {a1 : List Byte} {a2 : State} (hM : 8589952000 ||| M = M) (h0 : Keeps M s0 a2) :
    Keeps M s0 (relay a0 a1 a2) := by
  unfold relay
  split
  · refine plainReply_keeps (sub hM rfl) ?_
    exact h0
  · extract_lets +onlyGivenNames -lift x1
    clear_value x1
    extract_lets +onlyGivenNames -lift x2
    clear_value x2
    extract_lets +onlyGivenNames -lift x3
    have g4 : Keeps M s0 x3 := by
      refine sendPoliced_keeps (sub hM rfl) ?_
      exact h0
    clear_value x3
    extract_lets +onlyGivenNames -lift x5
    have g6 : Keeps M s0 x5 := by
      refine updCmd_keeps (sub hM rfl) ?_
      exact g4
    clear_value x5
    refine Keeps.ite ?_ ?_
    · refine Keeps.ite ?_ ?_
      · refine dropFlight_keeps (sub hM rfl) ?_
        exact g6
      · refine deliver_keeps (sub hM rfl) ?_
        exact g6
    · refine setRelay_keeps (sub hM rfl) ?_
      refine updCmd_keeps (sub hM rfl) ?_
      exact g6

theorem acceptOp_keeps {M : Nat} {s0 : State} {a0 : Origin} {a1 : List Byte} {a2 : Bool} {a3 : State} (hM : 8589952000 ||| M = M) (h0 : Keeps M s0 a3) :
    Keeps M s0 (acceptOp a0 a1 a2 a3) := by
  unfold acceptOp
  refine Keeps.ite ?_ ?_
  · refine plainReply_keeps (sub hM rfl) ?_
    exact h0
  · refine Keeps.ite ?_ ?_
    · refine plainReply_keeps (sub hM rfl) ?_
      exact h0
    · refine updCmd_keeps (sub hM rfl) ?_
      exact h0

theorem acceptLocal_keeps {M : Nat} {s0 : State} {a0 : Carrier} {a1 : Origin} {a2 : List Byte} {a3 : Nat} {a4 : Nat} {a5 : Bool} {a6 : State} (hM : 8590083092 ||| M = M) (h0 : Keeps M s0 a6) :
    Keeps M s0 (acceptLocal a0 a1 a2 a3 a4 a5 a6) := by
  unfold acceptLocal
  extract_lets +onlyGivenNames -lift x0
  clear_value x0
  refine Keeps.ite ?_ ?_
  · refine Keeps.ite ?_ ?_
    · refine plainReply_keeps (sub hM rfl) ?_
      refine macFailure_keeps (sub hM rfl) ?_
      exact h0
    · refine acceptOp_keeps (sub hM rfl) ?_
      exact h0
  · refine Keeps.ite ?_ ?_
    · exact h0
    · split
      · refine plainReply_keeps (sub hM rfl) ?_
        exact h0
      · extract_lets +onlyGivenNames -lift x4
        have g5 : Keeps M s0 x4 := by
          refine Keeps.ite ?_ ?_
          · refine updSession_keeps (sub hM rfl) ?_
            exact h0
          · exact h0
        clear_value x4
        refine Keeps.ite ?_ ?_
        · refine plainReply_keeps (sub hM rfl) ?_
          exact h0
        · refine Keeps.ite ?_ ?_
          · refine plainReply_keeps (sub hM rfl) ?_
            refine macFailure_keeps (sub hM rfl) ?_
            exact h0
          · split
            · refine plainReply_keeps (sub hM rfl) ?_
              exact g5
            · extract_lets +onlyGivenNames -lift x9
              have g10 : Keeps M s0 x9 := by
                refine updSession_keeps (sub hM rfl) ?_
                exact g5
              clear_value x9
              refine acceptOp_keeps (sub hM rfl) ?_
              exact g10

theorem accept_keeps {M : Nat} {s0 : State} {a0 : Carrier} {a1 : List Byte} {a2 : State} (hM : 8590083092 ||| M = M) (h0 : Keeps M s0 a2) :
    Keeps M s0 (accept a0 a1 a2) := by
  unfold accept
  extract_lets +onlyGivenNames -lift x0
  clear_value x0
  extract_lets +onlyGivenNames -lift x1
  clear_value x1
  extract_lets +onlyGivenNames -lift x2
  clear_value x2
  extract_lets +onlyGivenNames -lift x3
  clear_value x3
  extract_lets +onlyGivenNames -lift x4
  clear_value x4
  extract_lets +onlyGivenNames -lift x5
  clear_value x5
  extract_lets +onlyGivenNames -lift x6
  clear_value x6
  refine Keeps.ite ?_ ?_
  · refine count_keeps (sub hM rfl) ?_
    exact h0
  · refine Keeps.ite ?_ ?_
    · refine count_keeps (sub hM rfl) ?_
      exact h0
    · refine Keeps.ite ?_ ?_
      · refine plainReply_keeps (sub hM rfl) ?_
        exact h0
      · refine Keeps.ite ?_ ?_
        · refine plainReply_keeps (sub hM rfl) ?_
          exact h0
        · refine Keeps.ite ?_ ?_
          · refine plainReply_keeps (sub hM rfl) ?_
            exact h0
          · refine Keeps.ite ?_ ?_
            · refine count_keeps (sub hM rfl) ?_
              exact h0
            · refine Keeps.ite ?_ ?_
              · refine plainReply_keeps (sub hM rfl) ?_
                refine count_keeps (sub hM rfl) ?_
                exact h0
              · refine Keeps.ite ?_ ?_
                · refine plainReply_keeps (sub hM rfl) ?_
                  exact h0
                · refine Keeps.ite ?_ ?_
                  · refine plainReply_keeps (sub hM rfl) ?_
                    exact h0
                  · refine Keeps.ite ?_ ?_
                    · refine acceptLocal_keeps (sub hM rfl) ?_
                      exact h0
                    · refine Keeps.ite ?_ ?_
                      · refine relay_keeps (sub hM rfl) ?_
                        exact h0
                      · refine plainReply_keeps (sub hM rfl) ?_
                        exact h0

theorem acceptFrame_keeps {M : Nat} {s0 : State} {a0 : Frame} {a1 : State} (hM : 8590083092 ||| M = M) (h0 : Keeps M s0 a1) :
    Keeps M s0 (acceptFrame a0 a1) := by
  unfold acceptFrame
  extract_lets +onlyGivenNames -lift x0
  clear_value x0
  refine Keeps.ite ?_ ?_
  · exact h0
  · refine Keeps.ite ?_ ?_
    · refine Keeps.ite ?_ ?_
      · refine count_keeps (sub hM rfl) ?_
        exact h0
      · refine updCmd_keeps (sub hM rfl) ?_
        exact h0
    · refine accept_keeps (sub hM rfl) ?_
      exact h0

theorem execHspiStatus_keeps {M : Nat} {s0 : State} {a0 : State} (hM : 16384 ||| M = M) (h0 : Keeps M s0 a0) :
    KeepsR M s0 (execHspiStatus a0) := by
  unfold execHspiStatus
  extract_lets +onlyGivenNames -lift x0
  clear_value x0
  extract_lets +onlyGivenNames -lift x1
  clear_value x1
  extract_lets +onlyGivenNames -lift x2
  clear_value x2
  refine KeepsR.next ?_
  refine updCmd_keeps (sub hM rfl) ?_
  exact h0

theorem execHspiCmdWrite_keeps {M : Nat} {s0 : State} {a0 : List Byte} {a1 : State} (hM : 8590083092 ||| M = M) (h0 : Keeps M s0 a1) :
    KeepsR M s0 (execHspiCmdWrite a0 a1) := by
  unfold execHspiCmdWrite
  extract_lets +onlyGivenNames -lift x0
  clear_value x0
  extract_lets +onlyGivenNames -lift x1
  clear_value x1
  extract_lets +onlyGivenNames -lift x2
  clear_value x2
  extract_lets +onlyGivenNames -lift x3
  clear_value x3
  refine KeepsR.ite ?_ ?_
  · refine KeepsR.next ?_
    refine accept_keeps (sub hM rfl) ?_
    exact h0
  · refine KeepsR.next ?_
    refine updCmd_keeps (sub hM rfl) ?_
    refine count_keeps (sub hM rfl) ?_
    exact h0

theorem freeTag_keeps {M : Nat} {s0 : State} {a0 : Reply} {a1 : State} (hM : 16384 ||| M = M) (h0 : Keeps M s0 a1) :
    Keeps M s0 (freeTag a0 a1) := by
  unfold freeTag
  refine Keeps.ite ?_ ?_
  · refine updCmd_keeps (sub hM rfl) ?_
    exact h0
  · exact h0

theorem execHspiRspRead_keeps {M : Nat} {s0 : State} {a0 : Nat} {a1 : State} (hM : 16384 ||| M = M) (h0 : Keeps M s0 a1) :
    KeepsR M s0 (execHspiRspRead a0 a1) := by
  unfold execHspiRspRead
  split
  · refine KeepsR.next ?_
    refine updCmd_keeps (sub hM rfl) ?_
    exact h0
  · extract_lets +onlyGivenNames -lift x1
    clear_value x1
    extract_lets +onlyGivenNames -lift x2
    have g3 : Keeps M s0 x2 := by
      refine updCmd_keeps (sub hM rfl) ?_
      exact h0
    clear_value x2
    refine KeepsR.ite ?_ ?_
    · refine KeepsR.next ?_
      refine freeTag_keeps (sub hM rfl) ?_
      refine updCmd_keeps (sub hM rfl) ?_
      exact g3
    · refine KeepsR.next ?_
      exact g3

theorem hostSel_keeps {M : Nat} {s0 : State} {a0 : Bool} {a1 : State} (hM : 2 ||| M = M) (h0 : Keeps M s0 a1) :
    Keeps2 M s0 (hostSel a0 a1) := by
  unfold hostSel
  refine Keeps2.ite ?_ ?_
  · refine Keeps2.mk ?_
    exact h0
  · refine Keeps2.mk ?_
    refine wr_keeps (sub hM rfl) ?_
    refine wr_keeps (sub hM rfl) ?_
    exact h0

theorem execHostselWrite_keeps {M : Nat} {s0 : State} {a0 : Bool} {a1 : State} (hM : 2 ||| M = M) (h0 : Keeps M s0 a1) :
    KeepsR M s0 (execHostselWrite a0 a1) := by
  unfold execHostselWrite
  refine KeepsR.next ?_
  refine Keeps2.snd ?_
  refine hostSel_keeps (sub hM rfl) ?_
  exact h0

theorem returnRelayed_keeps {M : Nat} {s0 : State} {a0 : Origin} {a1 : List Byte} {a2 : State} (hM : 8589952000 ||| M = M) (h0 : Keeps M s0 a2) :
    Keeps M s0 (returnRelayed a0 a1 a2) := by
  unfold returnRelayed
  extract_lets +onlyGivenNames -lift x0
  clear_value x0
  refine deliver_keeps (sub hM rfl) ?_
  exact h0

theorem execCmdReplyReceive_keeps {M : Nat} {s0 : State} {a0 : State} (hM : 8590083156 ||| M = M) (h0 : Keeps M s0 a0) :
    KeepsR M s0 (execCmdReplyReceive a0) := by
  unfold execCmdReplyReceive
  split
  · refine KeepsR.next ?_
    exact h0
  · extract_lets +onlyGivenNames -lift x1
    have g2 : Keeps M s0 x1 := by
      refine updCmd_keeps (sub hM rfl) ?_
      exact h0
    clear_value x1
    extract_lets +onlyGivenNames -lift x3
    clear_value x3
    extract_lets +onlyGivenNames -lift x4
    clear_value x4
    extract_lets +onlyGivenNames -lift x5
    have g6 : Keeps M s0 x5 := by
      refine setRelay_keeps (sub hM rfl) ?_
      exact g2
    clear_value x5
    split
    · refine KeepsR.next ?_
      refine returnRelayed_keeps (sub hM rfl) ?_
      refine setRelay_keeps (sub hM rfl) ?_
      exact g2
    · refine KeepsR.next ?_
      refine Keeps.ite ?_ ?_
      · refine updLp_keeps (sub hM rfl) ?_
        exact g6
      · exact g6
    · refine KeepsR.ite ?_ ?_
      · refine KeepsR.next ?_
        refine count_keeps (sub hM rfl) ?_
        refine updCmd_keeps (sub hM rfl) ?_
        exact g2
      · refine KeepsR.next ?_
        refine count_keeps (sub hM rfl) ?_
        exact g2

theorem execRelayTimeout_keeps {M : Nat} {s0 : State} {a0 : Fin 64} {a1 : State} (hM : 8589952000 ||| M = M) (h0 : Keeps M s0 a1) :
    KeepsR M s0 (execRelayTimeout a0 a1) := by
  unfold execRelayTimeout
  extract_lets +onlyGivenNames -lift x0
  clear_value x0
  extract_lets +onlyGivenNames -lift x1
  have g2 : Keeps M s0 x1 := by
    refine setRelay_keeps (sub hM rfl) ?_
    refine updCmd_keeps (sub hM rfl) ?_
    exact h0
  clear_value x1
  split
  · refine KeepsR.next ?_
    exact h0
  · split
    · refine KeepsR.next ?_
      refine deliver_keeps (sub hM rfl) ?_
      exact g2
    · refine KeepsR.next ?_
      exact g2

theorem loseAttachment_keeps {M : Nat} {s0 : State} {a0 : Attach} {a1 : EntryPoint} {a2 : State} (hM : 16384 ||| M = M) (h0 : Keeps M s0 a2) :
    Keeps M s0 (loseAttachment a0 a1 a2) := by
  unfold loseAttachment
  extract_lets +onlyGivenNames -lift x0
  clear_value x0
  extract_lets +onlyGivenNames -lift x1
  clear_value x1
  refine updCmd_keeps (sub hM rfl) ?_
  exact h0

theorem execOrphanExpiry_keeps {M : Nat} {s0 : State} {a0 : EntryPoint} {a1 : State} (hM : 16386 ||| M = M) (h0 : Keeps M s0 a1) :
    KeepsR M s0 (execOrphanExpiry a0 a1) := by
  unfold execOrphanExpiry
  split
  · refine KeepsR.next ?_
    exact h0
  · extract_lets +onlyGivenNames -lift x1
    have g2 : Keeps M s0 x1 := by
      refine updCmd_keeps (sub hM rfl) ?_
      exact h0
    clear_value x1
    refine KeepsR.next ?_
    refine Keeps.ite ?_ ?_
    · refine wr_keeps (sub hM rfl) ?_
      exact g2
    · exact g2

theorem execGetOrphan_keeps {M : Nat} {s0 : State} {a0 : Origin} {a1 : List Byte} {a2 : State} (hM : 8589952000 ||| M = M) (h0 : Keeps M s0 a2) :
    KeepsR M s0 (execGetOrphan a0 a1 a2) := by
  unfold execGetOrphan
  extract_lets +onlyGivenNames -lift x0
  clear_value x0
  refine command_keeps (sub hM rfl) ?_ ?_
  · intro w2 k3
    extract_lets +onlyGivenNames -lift x4
    clear_value x4
    extract_lets +onlyGivenNames -lift x5
    have g6 : Keeps M s0 x5 := by
      refine updCmd_keeps (sub hM rfl) ?_
      exact k3
    clear_value x5
    refine Keeps.ite ?_ ?_
    · refine reply_keeps (sub hM rfl) ?_
      exact k3
    · refine reply_keeps (sub hM rfl) ?_
      exact g6
  · exact h0

theorem pruneSessions_keeps {M : Nat} {s0 : State} {a0 : State} (hM : 16384 ||| M = M) (h0 : Keeps M s0 a0) :
    Keeps M s0 (pruneSessions a0) := by
  unfold pruneSessions
  refine updCmd_keeps (sub hM rfl) ?_
  exact h0

theorem execSessionOpen_keeps {M : Nat} {s0 : State} {a0 : Origin} {a1 : List Byte} {a2 : State} (hM : 8589952001 ||| M = M) (h0 : Keeps M s0 a2) :
    KeepsR M s0 (execSessionOpen a0 a1 a2) := by
  unfold execSessionOpen
  extract_lets +onlyGivenNames -lift x0
  clear_value x0
  extract_lets +onlyGivenNames -lift x1
  clear_value x1
  refine command_keeps (sub hM rfl) ?_ ?_
  · intro w3 k4
    extract_lets +onlyGivenNames -lift x5
    have g6 : Keeps M s0 x5 := by
      refine pruneSessions_keeps (sub hM rfl) ?_
      exact k4
    clear_value x5
    refine Keeps.ite ?_ ?_
    · refine reply_keeps (sub hM rfl) ?_
      exact g6
    · refine Keeps.ite ?_ ?_
      · refine reply_keeps (sub hM rfl) ?_
        exact g6
      · split
        · refine reply_keeps (sub hM rfl) ?_
          exact g6
        · split
          · rename_i y11 y12 y13 y14
            refine Keeps2.elim (m := M) (s0 := s0) y14 ?_ (fun g15 => ?_)
            · refine drawFree_keeps (sub hM rfl) ?_
              exact g6
            extract_lets +onlyGivenNames -lift x16
            clear_value x16
            extract_lets +onlyGivenNames -lift x17
            clear_value x17
            extract_lets +onlyGivenNames -lift x18
            clear_value x18
            extract_lets +onlyGivenNames -lift x19
            clear_value x19
            extract_lets +onlyGivenNames -lift x20
            have g21 : Keeps M s0 x20 := by
              refine updCmd_keeps (sub hM rfl) ?_
              exact g15
            clear_value x20
            extract_lets +onlyGivenNames -lift x22
            clear_value x22
            extract_lets +onlyGivenNames -lift x23
            clear_value x23
            refine Keeps.ite ?_ ?_
            · refine dropFlight_keeps (sub hM rfl) ?_
              exact g21
            · refine deliver_keeps (sub hM rfl) ?_
              exact g21
  · exact h0

theorem execSessionClose_keeps {M : Nat} {s0 : State} {a0 : Origin} {a1 : List Byte} {a2 : State} (hM : 8589952000 ||| M = M) (h0 : Keeps M s0 a2) :
    KeepsR M s0 (execSessionClose a0 a1 a2) := by
  unfold execSessionClose
  refine command_keeps (sub hM rfl) ?_ ?_
  · intro w0 k1
    split
    · refine reply_keeps (sub hM rfl) ?_
      exact k1
    · refine endSession_keeps (sub hM rfl) ?_
      refine reply_keeps (sub hM rfl) ?_
      exact k1
  · exact h0

theorem execSessionInfo_keeps {M : Nat} {s0 : State} {a0 : Origin} {a1 : List Byte} {a2 : State} (hM : 8589952000 ||| M = M) (h0 : Keeps M s0 a2) :
    KeepsR M s0 (execSessionInfo a0 a1 a2) := by
  unfold execSessionInfo
  refine command_keeps (sub hM rfl) ?_ ?_
  · intro w0 k1
    split
    · refine reply_keeps (sub hM rfl) ?_
      exact k1
    · refine reply_keeps (sub hM rfl) ?_
      exact k1
  · exact h0

theorem execSessionIdleTimeout_keeps {M : Nat} {s0 : State} {a0 : Fin 33} {a1 : State} (hM : 16384 ||| M = M) (h0 : Keeps M s0 a1) :
    KeepsR M s0 (execSessionIdleTimeout a0 a1) := by
  unfold execSessionIdleTimeout
  refine KeepsR.ite ?_ ?_
  · refine KeepsR.next ?_
    refine endSession_keeps (sub hM rfl) ?_
    exact h0
  · refine KeepsR.next ?_
    exact h0

theorem execSessionExpiry_keeps {M : Nat} {s0 : State} {a0 : Fin 33} {a1 : State} (hM : 16384 ||| M = M) (h0 : Keeps M s0 a1) :
    KeepsR M s0 (execSessionExpiry a0 a1) := by
  unfold execSessionExpiry
  split
  · refine KeepsR.next ?_
    exact h0
  · refine KeepsR.ite ?_ ?_
    · refine KeepsR.next ?_
      refine endSession_keeps (sub hM rfl) ?_
      exact h0
    · refine KeepsR.next ?_
      exact h0

/-! BridgeRegs. -/

theorem wctlApply_keeps {M : Nat} {s0 : State} {a0 : EntryPoint} {a1 : State} (hM : 8192 ||| M = M) (h0 : Keeps M s0 a1) :
    Keeps2 M s0 (wctlApply a0 a1) := by
  unfold wctlApply
  extract_lets +onlyGivenNames -lift x0
  clear_value x0
  refine Keeps2.ite ?_ ?_
  · refine Keeps2.mk ?_
    refine updBrg_keeps (sub hM rfl) ?_
    exact h0
  · refine Keeps2.mk ?_
    exact h0

theorem execBrgWctlApply_keeps {M : Nat} {s0 : State} {a0 : EntryPoint} {a1 : State} (hM : 8192 ||| M = M) (h0 : Keeps M s0 a1) :
    KeepsR M s0 (execBrgWctlApply a0 a1) := by
  unfold execBrgWctlApply
  refine access_keeps (sub hM rfl) ?_ ?_
  · intro w0 k1
    refine Keeps2.snd ?_
    refine wctlApply_keeps (sub hM rfl) ?_
    exact k1
  · exact h0

theorem wctlLoad_keeps {M : Nat} {s0 : State} {a0 : EntryPoint} {a1 : State} (hM : 2 ||| M = M) (h0 : Keeps M s0 a1) :
    Keeps M s0 (wctlLoad a0 a1) := by
  unfold wctlLoad
  extract_lets +onlyGivenNames -lift x0
  clear_value x0
  refine regSet_keeps (sub hM rfl) ?_
  refine regSet_keeps (sub hM rfl) ?_
  refine regSet_keeps (sub hM rfl) ?_
  exact h0

theorem execBrgWctlLoad_keeps {M : Nat} {s0 : State} {a0 : EntryPoint} {a1 : State} (hM : 2 ||| M = M) (h0 : Keeps M s0 a1) :
    KeepsR M s0 (execBrgWctlLoad a0 a1) := by
  unfold execBrgWctlLoad
  refine access_keeps (sub hM rfl) ?_ ?_
  · intro w0 k1
    refine wctlLoad_keeps (sub hM rfl) ?_
    exact k1
  · exact h0

theorem tctlApply_keeps {M : Nat} {s0 : State} {a0 : EntryPoint} {a1 : State} (hM : 8192 ||| M = M) (h0 : Keeps M s0 a1) :
    Keeps2 M s0 (tctlApply a0 a1) := by
  unfold tctlApply
  extract_lets +onlyGivenNames -lift x0
  clear_value x0
  refine Keeps2.ite ?_ ?_
  · refine Keeps2.mk ?_
    refine updBrg_keeps (sub hM rfl) ?_
    exact h0
  · refine Keeps2.mk ?_
    exact h0

theorem execBrgTctlApply_keeps {M : Nat} {s0 : State} {a0 : EntryPoint} {a1 : State} (hM : 8192 ||| M = M) (h0 : Keeps M s0 a1) :
    KeepsR M s0 (execBrgTctlApply a0 a1) := by
  unfold execBrgTctlApply
  refine access_keeps (sub hM rfl) ?_ ?_
  · intro w0 k1
    refine Keeps2.snd ?_
    refine tctlApply_keeps (sub hM rfl) ?_
    exact k1
  · exact h0

theorem tctlLoad_keeps {M : Nat} {s0 : State} {a0 : EntryPoint} {a1 : State} (hM : 2 ||| M = M) (h0 : Keeps M s0 a1) :
    Keeps M s0 (tctlLoad a0 a1) := by
  unfold tctlLoad
  extract_lets +onlyGivenNames -lift x0
  clear_value x0
  refine regSet_keeps (sub hM rfl) ?_
  refine regSet_keeps (sub hM rfl) ?_
  exact h0

theorem execBrgTctlLoad_keeps {M : Nat} {s0 : State} {a0 : EntryPoint} {a1 : State} (hM : 2 ||| M = M) (h0 : Keeps M s0 a1) :
    KeepsR M s0 (execBrgTctlLoad a0 a1) := by
  unfold execBrgTctlLoad
  refine access_keeps (sub hM rfl) ?_ ?_
  · intro w0 k1
    refine tctlLoad_keeps (sub hM rfl) ?_
    exact k1
  · exact h0

theorem logPwl_keeps {M : Nat} {s0 : State} {a0 : BrgLog} {a1 : State} (hM : 8210 ||| M = M) (h0 : Keeps M s0 a1) :
    Keeps M s0 (logPwl a0 a1) := by
  unfold logPwl
  extract_lets +onlyGivenNames -lift x0
  have g1 : Keeps M s0 x0 := by
    refine Keeps.ite ?_ ?_
    · refine updBrg_keeps (sub hM rfl) ?_
      exact h0
    · refine wr_keeps (sub hM rfl) ?_
      exact h0
  clear_value x0
  refine raise_keeps (sub hM rfl) ?_
  exact g1

theorem logElg_keeps {M : Nat} {s0 : State} {a0 : BrgLog} {a1 : State} (hM : 8194 ||| M = M) (h0 : Keeps M s0 a1) :
    Keeps M s0 (logElg a0 a1) := by
  unfold logElg
  refine Keeps.ite ?_ ?_
  · refine updBrg_keeps (sub hM rfl) ?_
    exact h0
  · refine wr_keeps (sub hM rfl) ?_
    exact h0

theorem readLog_keeps {M : Nat} {s0 : State} {a0 : Nat} {a1 : EntryPoint} {a2 : State} (hM : 8192 ||| M = M) (h0 : Keeps M s0 a2) :
    Keeps2 M s0 (readLog a0 a1 a2) := by
  unfold readLog
  extract_lets +onlyGivenNames -lift x0
  clear_value x0
  extract_lets +onlyGivenNames -lift x1
  clear_value x1
  extract_lets +onlyGivenNames -lift x2
  have g3 : Keeps M s0 x2 := by
    refine updBrg_keeps (sub hM rfl) ?_
    exact h0
  clear_value x2
  split
  · refine Keeps2.mk ?_
    exact h0
  · refine Keeps2.mk ?_
    refine Keeps.ite ?_ ?_
    · refine updBrg_keeps (sub hM rfl) ?_
      exact g3
    · exact g3

theorem execPwlDataRead_keeps {M : Nat} {s0 : State} {a0 : EntryPoint} {a1 : State} (hM : 8224 ||| M = M) (h0 : Keeps M s0 a1) :
    KeepsR M s0 (execPwlDataRead a0 a1) := by
  unfold execPwlDataRead
  refine access_keeps (sub hM rfl) ?_ ?_
  · intro w0 k1
    refine returned_keeps (sub hM rfl) ?_
    refine readLog_keeps (sub hM rfl) ?_
    exact k1
  · exact h0

theorem execElgDataRead_keeps {M : Nat} {s0 : State} {a0 : EntryPoint} {a1 : State} (hM : 8224 ||| M = M) (h0 : Keeps M s0 a1) :
    KeepsR M s0 (execElgDataRead a0 a1) := by
  unfold execElgDataRead
  refine access_keeps (sub hM rfl) ?_ ?_
  · intro w0 k1
    refine returned_keeps (sub hM rfl) ?_
    refine readLog_keeps (sub hM rfl) ?_
    exact k1
  · exact h0

theorem readPwlStat_keeps {M : Nat} {s0 : State} {a0 : State} (hM : 2 ||| M = M) (h0 : Keeps M s0 a0) :
    Keeps2 M s0 (readPwlStat a0) := by
  unfold readPwlStat
  refine Keeps2.mk ?_
  refine wr_keeps (sub hM rfl) ?_
  exact h0

theorem readElgStat_keeps {M : Nat} {s0 : State} {a0 : State} (hM : 2 ||| M = M) (h0 : Keeps M s0 a0) :
    Keeps2 M s0 (readElgStat a0) := by
  unfold readElgStat
  refine Keeps2.mk ?_
  refine wr_keeps (sub hM rfl) ?_
  exact h0

theorem readRdstat_keeps {M : Nat} {s0 : State} {a0 : State} (hM : 8192 ||| M = M) (h0 : Keeps M s0 a0) :
    Keeps2 M s0 (readRdstat a0) := by
  unfold readRdstat
  refine Keeps2.mk ?_
  refine updBrg_keeps (sub hM rfl) ?_
  exact h0

theorem execPwlStatRead_keeps {M : Nat} {s0 : State} {a0 : EntryPoint} {a1 : State} (hM : 34 ||| M = M) (h0 : Keeps M s0 a1) :
    KeepsR M s0 (execPwlStatRead a0 a1) := by
  unfold execPwlStatRead
  refine access_keeps (sub hM rfl) ?_ ?_
  · intro w0 k1
    refine returned_keeps (sub hM rfl) ?_
    refine readPwlStat_keeps (sub hM rfl) ?_
    exact k1
  · exact h0

theorem execElgStatRead_keeps {M : Nat} {s0 : State} {a0 : EntryPoint} {a1 : State} (hM : 34 ||| M = M) (h0 : Keeps M s0 a1) :
    KeepsR M s0 (execElgStatRead a0 a1) := by
  unfold execElgStatRead
  refine access_keeps (sub hM rfl) ?_ ?_
  · intro w0 k1
    refine returned_keeps (sub hM rfl) ?_
    refine readElgStat_keeps (sub hM rfl) ?_
    exact k1
  · exact h0

theorem execRdstatRead_keeps {M : Nat} {s0 : State} {a0 : EntryPoint} {a1 : State} (hM : 8224 ||| M = M) (h0 : Keeps M s0 a1) :
    KeepsR M s0 (execRdstatRead a0 a1) := by
  unfold execRdstatRead
  refine access_keeps (sub hM rfl) ?_ ?_
  · intro w0 k1
    refine returned_keeps (sub hM rfl) ?_
    refine readRdstat_keeps (sub hM rfl) ?_
    exact k1
  · exact h0

theorem execPwlRead_keeps {M : Nat} {s0 : State} {a0 : Origin} {a1 : List Byte} {a2 : State} (hM : 8589960192 ||| M = M) (h0 : Keeps M s0 a2) :
    KeepsR M s0 (execPwlRead a0 a1 a2) := by
  unfold execPwlRead
  extract_lets +onlyGivenNames -lift x0
  clear_value x0
  refine command_keeps (sub hM rfl) ?_ ?_
  · intro w2 k3
    extract_lets +onlyGivenNames -lift x4
    clear_value x4
    extract_lets +onlyGivenNames -lift x5
    have g6 : Keeps M s0 x5 := by
      refine updBrg_keeps (sub hM rfl) ?_
      exact k3
    clear_value x5
    refine Keeps.ite ?_ ?_
    · refine reply_keeps (sub hM rfl) ?_
      exact k3
    · refine reply_keeps (sub hM rfl) ?_
      exact g6
  · exact h0

theorem execElgRead_keeps {M : Nat} {s0 : State} {a0 : Origin} {a1 : List Byte} {a2 : State} (hM : 8589960192 ||| M = M) (h0 : Keeps M s0 a2) :
    KeepsR M s0 (execElgRead a0 a1 a2) := by
  unfold execElgRead
  extract_lets +onlyGivenNames -lift x0
  clear_value x0
  refine command_keeps (sub hM rfl) ?_ ?_
  · intro w2 k3
    extract_lets +onlyGivenNames -lift x4
    clear_value x4
    extract_lets +onlyGivenNames -lift x5
    have g6 : Keeps M s0 x5 := by
      refine updBrg_keeps (sub hM rfl) ?_
      exact k3
    clear_value x5
    refine Keeps.ite ?_ ?_
    · refine reply_keeps (sub hM rfl) ?_
      exact k3
    · refine reply_keeps (sub hM rfl) ?_
      exact g6
  · exact h0

end Sys2Proof.Machine
end

