-- ==== Sys2Proof/Laws/KeepsTime.lean ====
section
/-! SUPPORT. `Keeps` for the operations and commands of line time, triggers and the transfer proxy. A mask is the sum of 2^i over the fields of State that may
change, numbered as `Keeps` numbers them. -/
namespace Sys2Proof.Machine

-- One theorem at a time, so that the package as one text compiles within its memory limit.
set_option Elab.async false

/-! LineTime. -/

theorem setTrig_keeps {M : Nat} {s0 : State} {a0 : Nat} {a1 : TrigPin} {a2 : State} (hM : 1048576 ||| M = M) (h0 : Keeps M s0 a2) :
    Keeps M s0 (setTrig a0 a1 a2) := by
  unfold setTrig
  refine Keeps.set_trig (hit hM rfl) (?_)
  exact h0

theorem trgErr_keeps {M : Nat} {s0 : State} {a0 : Fld} {a1 : Nat} {a2 : State} (hM : 18 ||| M = M) (h0 : Keeps M s0 a2) :
    Keeps M s0 (trgErr a0 a1 a2) := by
  unfold trgErr
  refine raise_keeps (sub hM rfl) ?_
  refine orF_keeps (sub hM rfl) ?_
  exact h0

theorem arm_keeps {M : Nat} {s0 : State} {a0 : Nat} {a1 : Nat} {a2 : Nat} {a3 : Nat} {a4 : Nat} {a5 : State} (hM : 1048594 ||| M = M) (h0 : Keeps M s0 a5) :
    Keeps2 M s0 (arm a0 a1 a2 a3 a4 a5) := by
  unfold arm
  extract_lets +onlyGivenNames -lift x0
  clear_value x0
  extract_lets +onlyGivenNames -lift x1
  clear_value x1
  extract_lets +onlyGivenNames -lift x2
  clear_value x2
  refine Keeps2.ite ?_ ?_
  · refine Keeps2.mk ?_
    exact h0
  · refine Keeps2.ite ?_ ?_
    · refine Keeps2.mk ?_
      refine trgErr_keeps (sub hM rfl) ?_
      exact h0
    · split
      · extract_lets +onlyGivenNames -lift x6
        have g7 : Keeps M s0 x6 := by
          refine Keeps.ite ?_ ?_
          · refine trgErr_keeps (sub hM rfl) ?_
            exact h0
          · exact h0
        clear_value x6
        refine Keeps2.mk ?_
        refine Keeps.ite ?_ ?_
        · refine setTrig_keeps (sub hM rfl) ?_
          exact g7
        · exact g7

theorem cancelPin_keeps {M : Nat} {s0 : State} {a0 : Nat} {a1 : State} (hM : 1048576 ||| M = M) (h0 : Keeps M s0 a1) :
    Keeps M s0 (cancelPin a0 a1) := by
  unfold cancelPin
  extract_lets +onlyGivenNames -lift x0
  clear_value x0
  refine setTrig_keeps (sub hM rfl) ?_
  exact h0

theorem cancelMask_keeps {M : Nat} {s0 : State} {a0 : Nat} {a1 : State} (hM : 1048576 ||| M = M) (h0 : Keeps M s0 a1) :
    Keeps M s0 (cancelMask a0 a1) := by
  unfold cancelMask
  refine forAll_keeps (sub hM rfl) ?_ ?_
  · intro w0 w1 k2
    refine cancelPin_keeps (sub hM rfl) ?_
    exact k2
  · exact h0

theorem skipPin_keeps {M : Nat} {s0 : State} {a0 : Nat} {a1 : State} (hM : 1048594 ||| M = M) (h0 : Keeps M s0 a1) :
    Keeps M s0 (skipPin a0 a1) := by
  unfold skipPin
  extract_lets +onlyGivenNames -lift x0
  clear_value x0
  extract_lets +onlyGivenNames -lift x1
  clear_value x1
  extract_lets +onlyGivenNames -lift x2
  have g3 : Keeps M s0 x2 := by
    refine Keeps.ite ?_ ?_
    · refine trgErr_keeps (sub hM rfl) ?_
      exact h0
    · exact h0
  clear_value x2
  refine setTrig_keeps (sub hM rfl) ?_
  exact g3

theorem stepTime_keeps {M : Nat} {s0 : State} {a0 : Int} {a1 : State} (hM : 1114130 ||| M = M) (h0 : Keeps M s0 a1) :
    Keeps M s0 (stepTime a0 a1) := by
  unfold stepTime
  extract_lets +onlyGivenNames -lift x0
  have g1 : Keeps M s0 x0 := by
    refine Keeps.set_lt (hit hM rfl) (?_)
    exact h0
  clear_value x0
  extract_lets +onlyGivenNames -lift x2
  have g3 : Keeps M s0 x2 := by
    refine raise_keeps (sub hM rfl) ?_
    exact g1
  clear_value x2
  refine Keeps.ite ?_ ?_
  · refine forAll_keeps (sub hM rfl) ?_ ?_
    · intro w4 w5 k6
      refine skipPin_keeps (sub hM rfl) ?_
      exact k6
    · exact g3
  · exact g3

theorem setOfs_keeps {M : Nat} {s0 : State} {a0 : Int} {a1 : State} (hM : 2 ||| M = M) (h0 : Keeps M s0 a1) :
    Keeps M s0 (setOfs a0 a1) := by
  unfold setOfs
  refine wr_keeps (sub hM rfl) ?_
  exact h0

theorem servo_keeps {M : Nat} {s0 : State} {a0 : Int} {a1 : State} (hM : 262144 ||| M = M) (h0 : Keeps M s0 a1) :
    Keeps M s0 (servo a0 a1) := by
  unfold servo
  extract_lets +onlyGivenNames -lift x0
  clear_value x0
  extract_lets +onlyGivenNames -lift x1
  clear_value x1
  extract_lets +onlyGivenNames -lift x2
  clear_value x2
  refine Keeps.set_time (hit hM rfl) (?_)
  exact h0

theorem lockRuns_keeps {M : Nat} {s0 : State} {a0 : Int} {a1 : State} (hM : 262162 ||| M = M) (h0 : Keeps M s0 a1) :
    Keeps M s0 (lockRuns a0 a1) := by
  unfold lockRuns
  extract_lets +onlyGivenNames -lift x0
  extract_lets +onlyGivenNames -lift x1
  extract_lets +onlyGivenNames -lift x2
  clear_value x2
  extract_lets +onlyGivenNames -lift x3
  have g4 : Keeps M s0 x3 := by
    refine Keeps.set_time (hit hM rfl) (?_)
    exact h0
  clear_value x3
  extract_lets +onlyGivenNames -lift x5
  clear_value x5
  extract_lets +onlyGivenNames -lift x6
  clear_value x6
  refine Keeps.ite ?_ ?_
  · refine raise_keeps (sub hM rfl) ?_
    refine wr_keeps (sub hM rfl) ?_
    refine Keeps.set_time (hit hM rfl) (?_)
    exact g4
  · refine Keeps.ite ?_ ?_
    · refine wr_keeps (sub hM rfl) ?_
      refine Keeps.set_time (hit hM rfl) (?_)
      exact g4
    · exact g4

theorem onParentSync_keeps {M : Nat} {s0 : State} {a0 : Nat} {a1 : Nat} {a2 : Nat} {a3 : Nat} {a4 : Nat} {a5 : State} (hM : 1376274 ||| M = M) (h0 : Keeps M s0 a5) :
    Keeps M s0 (onParentSync a0 a1 a2 a3 a4 a5) := by
  unfold onParentSync
  extract_lets +onlyGivenNames -lift x0
  have g1 : Keeps M s0 x0 := by
    refine wr_keeps (sub hM rfl) ?_
    refine wr_keeps (sub hM rfl) ?_
    exact h0
  clear_value x0
  extract_lets +onlyGivenNames -lift x2
  clear_value x2
  extract_lets +onlyGivenNames -lift x3
  clear_value x3
  extract_lets +onlyGivenNames -lift x4
  have g5 : Keeps M s0 x4 := by
    refine Keeps.ite ?_ ?_
    · refine wr_keeps (sub hM rfl) ?_
      refine Keeps.set_time (hit hM rfl) (?_)
      exact g1
    · exact g1
  clear_value x4
  extract_lets +onlyGivenNames -lift x6
  clear_value x6
  extract_lets +onlyGivenNames -lift x7
  clear_value x7
  extract_lets +onlyGivenNames -lift x8
  clear_value x8
  extract_lets +onlyGivenNames -lift x9
  clear_value x9
  extract_lets +onlyGivenNames -lift x10
  have g11 : Keeps M s0 x10 := by
    refine setOfs_keeps (sub hM rfl) ?_
    exact g5
  clear_value x10
  extract_lets +onlyGivenNames -lift x12
  clear_value x12
  extract_lets +onlyGivenNames -lift x13
  have g14 : Keeps M s0 x13 := by
    refine Keeps.ite ?_ ?_
    · refine stepTime_keeps (sub hM rfl) ?_
      refine Keeps.set_time (hit hM rfl) (?_)
      exact g11
    · refine servo_keeps (sub hM rfl) ?_
      exact g11
  clear_value x13
  extract_lets +onlyGivenNames -lift x15
  clear_value x15
  extract_lets +onlyGivenNames -lift x16
  have g17 : Keeps M s0 x16 := by
    refine Keeps.set_time (hit hM rfl) (?_)
    exact g14
  clear_value x16
  refine lockRuns_keeps (sub hM rfl) ?_
  exact g17

theorem onSync_keeps {M : Nat} {s0 : State} {a0 : Nat} {a1 : Nat} {a2 : Nat} {a3 : Nat} {a4 : Nat} {a5 : State} (hM : 1376274 ||| M = M) (h0 : Keeps M s0 a5) :
    Keeps M s0 (onSync a0 a1 a2 a3 a4 a5) := by
  unfold onSync
  refine Keeps.ite ?_ ?_
  · refine onParentSync_keeps (sub hM rfl) ?_
    exact h0
  · exact h0

theorem execSync_keeps {M : Nat} {s0 : State} {a0 : LPort} {a1 : BitVec 8} {a2 : BitVec 8} {a3 : BitVec 64} {a4 : BitVec 16} {a5 : State} (hM : 1376274 ||| M = M) (h0 : Keeps M s0 a5) :
    KeepsR M s0 (execSync a0 a1 a2 a3 a4 a5) := by
  unfold execSync
  refine KeepsR.next ?_
  refine onSync_keeps (sub hM rfl) ?_
  exact h0

theorem onDreq_keeps {M : Nat} {s0 : State} {a0 : Nat} {a1 : Nat} {a2 : State} (hM : 64 ||| M = M) (h0 : Keeps M s0 a2) :
    Keeps M s0 (onDreq a0 a1 a2) := by
  unfold onDreq
  refine Keeps.ite ?_ ?_
  · refine pendOs_keeps (sub hM rfl) ?_
    refine updLp_keeps (sub hM rfl) ?_
    exact h0
  · exact h0

theorem execDreq_keeps {M : Nat} {s0 : State} {a0 : LPort} {a1 : BitVec 8} {a2 : State} (hM : 64 ||| M = M) (h0 : Keeps M s0 a2) :
    KeepsR M s0 (execDreq a0 a1 a2) := by
  unfold execDreq
  refine KeepsR.next ?_
  refine onDreq_keeps (sub hM rfl) ?_
  exact h0

theorem onDrsp_keeps {M : Nat} {s0 : State} {a0 : Nat} {a1 : Nat} {a2 : Nat} {a3 : State} (hM : 66 ||| M = M) (h0 : Keeps M s0 a3) :
    Keeps M s0 (onDrsp a0 a1 a2 a3) := by
  unfold onDrsp
  extract_lets +onlyGivenNames -lift x0
  clear_value x0
  extract_lets +onlyGivenNames -lift x1
  clear_value x1
  extract_lets +onlyGivenNames -lift x2
  clear_value x2
  extract_lets +onlyGivenNames -lift x3
  clear_value x3
  extract_lets +onlyGivenNames -lift x4
  clear_value x4
  refine Keeps.ite ?_ ?_
  · refine wr_keeps (sub hM rfl) ?_
    refine updLp_keeps (sub hM rfl) ?_
    exact h0
  · exact h0

theorem execDrsp_keeps {M : Nat} {s0 : State} {a0 : LPort} {a1 : BitVec 8} {a2 : BitVec 40} {a3 : State} (hM : 66 ||| M = M) (h0 : Keeps M s0 a3) :
    KeepsR M s0 (execDrsp a0 a1 a2 a3) := by
  unfold execDrsp
  refine KeepsR.next ?_
  refine onDrsp_keeps (sub hM rfl) ?_
  exact h0

theorem timeErr_keeps {M : Nat} {s0 : State} {a0 : Nat} {a1 : State} (hM : 131092 ||| M = M) (h0 : Keeps M s0 a1) :
    Keeps M s0 (timeErr a0 a1) := by
  unfold timeErr
  refine Keeps.ite ?_ ?_
  · refine count_keeps (sub hM rfl) ?_
    exact h0
  · exact h0

theorem execSyncSendTimer_keeps {M : Nat} {s0 : State} {a0 : State} (hM : 64 ||| M = M) (h0 : Keeps M s0 a0) :
    KeepsR M s0 (execSyncSendTimer a0) := by
  unfold execSyncSendTimer
  refine KeepsR.next ?_
  refine forAll_keeps (sub hM rfl) ?_ ?_
  · intro w0 w1 k2
    refine pendOs_keeps (sub hM rfl) ?_
    refine pendOs_keeps (sub hM rfl) ?_
    exact k2
  · exact h0

theorem execDreqSendTimer_keeps {M : Nat} {s0 : State} {a0 : LPort} {a1 : State} (hM : 64 ||| M = M) (h0 : Keeps M s0 a1) :
    KeepsR M s0 (execDreqSendTimer a0 a1) := by
  unfold execDreqSendTimer
  refine KeepsR.ite ?_ ?_
  · refine KeepsR.next ?_
    refine sendDreq_keeps (sub hM rfl) ?_
    exact h0
  · refine KeepsR.next ?_
    exact h0

theorem execDreqMiss_keeps {M : Nat} {s0 : State} {a0 : LPort} {a1 : State} (hM : 131156 ||| M = M) (h0 : Keeps M s0 a1) :
    KeepsR M s0 (execDreqMiss a0 a1) := by
  unfold execDreqMiss
  refine KeepsR.ite ?_ ?_
  · refine KeepsR.next ?_
    refine count_keeps (sub hM rfl) ?_
    refine updLp_keeps (sub hM rfl) ?_
    exact h0
  · refine KeepsR.next ?_
    exact h0

theorem execSyncLossTimeout_keeps {M : Nat} {s0 : State} {a0 : State} (hM : 262162 ||| M = M) (h0 : Keeps M s0 a0) :
    KeepsR M s0 (execSyncLossTimeout a0) := by
  unfold execSyncLossTimeout
  refine KeepsR.next ?_
  refine enterHoldFast_keeps (sub hM rfl) ?_
  exact h0

theorem dropTimeWords_keeps {M : Nat} {s0 : State} {a0 : State} (hM : 64 ||| M = M) (h0 : Keeps M s0 a0) :
    Keeps M s0 (dropTimeWords a0) := by
  unfold dropTimeWords
  refine Keeps.ite ?_ ?_
  · exact h0
  · refine forAll_keeps (sub hM rfl) ?_ ?_
    · intro w2 w3 k4
      refine updLp_keeps (sub hM rfl) ?_
      exact k4
    · exact h0

theorem timCfgWrite_keeps {M : Nat} {s0 : State} {a0 : Word} {a1 : State} (hM : 262226 ||| M = M) (h0 : Keeps M s0 a1) :
    Keeps M s0 (timCfgWrite a0 a1) := by
  unfold timCfgWrite
  refine dropTimeWords_keeps (sub hM rfl) ?_
  refine withParent_keeps (sub hM rfl) ?_ ?_
  · intro w0 k1
    refine regSet_keeps (sub hM rfl) ?_
    exact k1
  · exact h0

theorem execPselWrite_keeps {M : Nat} {s0 : State} {a0 : BitVec 3} {a1 : State} (hM : 262226 ||| M = M) (h0 : Keeps M s0 a1) :
    KeepsR M s0 (execPselWrite a0 a1) := by
  unfold execPselWrite
  refine access_keeps (sub hM rfl) ?_ ?_
  · intro w0 k1
    refine timCfgWrite_keeps (sub hM rfl) ?_
    exact k1
  · exact h0

theorem execAnnounceTimer_keeps {M : Nat} {s0 : State} {a0 : State} (hM : 138388 ||| M = M) (h0 : Keeps M s0 a0) :
    KeepsR M s0 (execAnnounceTimer a0) := by
  unfold execAnnounceTimer
  extract_lets +onlyGivenNames -lift x0
  clear_value x0
  refine KeepsR.ite ?_ ?_
  · refine KeepsR.next ?_
    refine originate_keeps (sub hM rfl) ?_
    exact h0
  · refine KeepsR.next ?_
    exact h0

theorem setInbox_keeps {M : Nat} {s0 : State} {a0 : Nat} {a1 : List Frame} {a2 : State} (hM : 4096 ||| M = M) (h0 : Keeps M s0 a2) :
    Keeps M s0 (setInbox a0 a1 a2) := by
  unfold setInbox
  refine updTuns_keeps (sub hM rfl) ?_
  exact h0

theorem takeFrame_keeps {M : Nat} {s0 : State} {a0 : Nat} {a1 : Frame → Bool} {a2 : State} (hM : 4096 ||| M = M) (h0 : Keeps M s0 a2) :
    KeepsO M s0 (takeFrame a0 a1 a2) := by
  unfold takeFrame
  refine KeepsO.map ?_
  intro w0
  refine Keeps2.mk ?_
  refine setInbox_keeps (sub hM rfl) ?_
  exact h0

theorem trgFmt_keeps {M : Nat} {s0 : State} {a0 : State} (hM : 131092 ||| M = M) (h0 : Keeps M s0 a0) :
    Keeps M s0 (trgFmt a0) := by
  unfold trgFmt
  refine count_keeps (sub hM rfl) ?_
  exact h0

theorem execAnnounce_keeps {M : Nat} {s0 : State} {a0 : State} (hM : 4098 ||| M = M) (h0 : Keeps M s0 a0) :
    KeepsR M s0 (execAnnounce a0) := by
  unfold execAnnounce
  split
  · rename_i y0 y1
    refine KeepsR.next ?_
    exact h0
  · rename_i y2 y3 y4 y5
    refine KeepsO.elim (m := M) (s0 := s0) y5 ?_ (fun g6 => ?_)
    · refine takeFrame_keeps (sub hM rfl) ?_
      exact h0
    refine KeepsR.ite ?_ ?_
    · refine KeepsR.next ?_
      exact g6
    · refine KeepsR.next ?_
      refine wr_keeps (sub hM rfl) ?_
      refine wr_keeps (sub hM rfl) ?_
      exact g6

theorem armRecord_keeps {M : Nat} {s0 : State} {a0 : List Byte} {a1 : State} (hM : 1048594 ||| M = M) (h0 : Keeps M s0 a1) :
    Keeps2 M s0 (armRecord a0 a1) := by
  unfold armRecord
  refine Keeps2.ite ?_ ?_
  · refine Keeps2.mk ?_
    exact h0
  · refine arm_keeps (sub hM rfl) ?_
    exact h0

theorem armRecords_keeps {M : Nat} {s0 : State} {a0 : Nat} {a1 : List Byte} {a2 : State} (hM : 1048594 ||| M = M) (h0 : Keeps M s0 a2) :
    Keeps2 M s0 (armRecords a0 a1 a2) := by
  induction a0 generalizing a1 a2 with
  | zero =>
    unfold armRecords
    refine Keeps2.mk ?_
    exact h0
  | succ n ih =>
    unfold armRecords
    dsimp -zeta only
    refine Keeps2.mk ?_
    refine Keeps2.snd ?_
    apply ih
    refine Keeps2.snd ?_
    refine armRecord_keeps (sub hM rfl) ?_
    exact h0

theorem execArm_keeps {M : Nat} {s0 : State} {a0 : State} (hM : 1183766 ||| M = M) (h0 : Keeps M s0 a0) :
    KeepsR M s0 (execArm a0) := by
  unfold execArm
  split
  · rename_i y0 y1
    refine KeepsR.next ?_
    exact h0
  · rename_i y2 y3 y4 y5
    refine KeepsO.elim (m := M) (s0 := s0) y5 ?_ (fun g6 => ?_)
    · refine takeFrame_keeps (sub hM rfl) ?_
      exact h0
    split
    · rename_i y7 y8 y9 y10
      refine Keeps2.elim (m := M) (s0 := s0) y10 ?_ (fun g11 => ?_)
      · refine armRecords_keeps (sub hM rfl) ?_
        exact g6
      refine KeepsR.next ?_
      refine times_keeps (sub hM rfl) ?_ ?_
      · intro w12 k13
        refine trgFmt_keeps (sub hM rfl) ?_
        exact k13
      · exact g11

theorem execCancel_keeps {M : Nat} {s0 : State} {a0 : State} (hM : 1052672 ||| M = M) (h0 : Keeps M s0 a0) :
    KeepsR M s0 (execCancel a0) := by
  unfold execCancel
  split
  · rename_i y0 y1
    refine KeepsR.next ?_
    exact h0
  · rename_i y2 y3 y4 y5
    refine KeepsO.elim (m := M) (s0 := s0) y5 ?_ (fun g6 => ?_)
    · refine takeFrame_keeps (sub hM rfl) ?_
      exact h0
    refine KeepsR.next ?_
    refine cancelMask_keeps (sub hM rfl) ?_
    exact g6

theorem actlArm_keeps {M : Nat} {s0 : State} {a0 : EntryPoint} {a1 : State} (hM : 1048594 ||| M = M) (h0 : Keeps M s0 a1) :
    Keeps2 M s0 (actlArm a0 a1) := by
  unfold actlArm
  refine arm_keeps (sub hM rfl) ?_
  exact h0

theorem execTrgActlArm_keeps {M : Nat} {s0 : State} {a0 : EntryPoint} {a1 : State} (hM : 1048594 ||| M = M) (h0 : Keeps M s0 a1) :
    KeepsR M s0 (execTrgActlArm a0 a1) := by
  unfold execTrgActlArm
  refine access_keeps (sub hM rfl) ?_ ?_
  · intro w0 k1
    refine Keeps2.snd ?_
    refine actlArm_keeps (sub hM rfl) ?_
    exact k1
  · exact h0

theorem actlCancel_keeps {M : Nat} {s0 : State} {a0 : EntryPoint} {a1 : State} (hM : 1048576 ||| M = M) (h0 : Keeps M s0 a1) :
    Keeps M s0 (actlCancel a0 a1) := by
  unfold actlCancel
  refine cancelPin_keeps (sub hM rfl) ?_
  exact h0

theorem execTrgActlCancel_keeps {M : Nat} {s0 : State} {a0 : EntryPoint} {a1 : State} (hM : 1048576 ||| M = M) (h0 : Keeps M s0 a1) :
    KeepsR M s0 (execTrgActlCancel a0 a1) := by
  unfold execTrgActlCancel
  refine access_keeps (sub hM rfl) ?_ ?_
  · intro w0 k1
    refine actlCancel_keeps (sub hM rfl) ?_
    exact k1
  · exact h0

theorem readNowHi_keeps {M : Nat} {s0 : State} {a0 : EntryPoint} {a1 : State} (hM : 2 ||| M = M) (h0 : Keeps M s0 a1) :
    Keeps2 M s0 (readNowHi a0 a1) := by
  unfold readNowHi
  extract_lets +onlyGivenNames -lift x0
  clear_value x0
  extract_lets +onlyGivenNames -lift x1
  have g2 : Keeps M s0 x1 := by
    refine regSet_keeps (sub hM rfl) ?_
    exact h0
  clear_value x1
  refine Keeps2.mk ?_
  refine regSet_keeps (sub hM rfl) ?_
  exact g2

theorem execNowHiRead_keeps {M : Nat} {s0 : State} {a0 : EntryPoint} {a1 : State} (hM : 34 ||| M = M) (h0 : Keeps M s0 a1) :
    KeepsR M s0 (execNowHiRead a0 a1) := by
  unfold execNowHiRead
  refine access_keeps (sub hM rfl) ?_ ?_
  · intro w0 k1
    refine returned_keeps (sub hM rfl) ?_
    refine readNowHi_keeps (sub hM rfl) ?_
    exact k1
  · exact h0

theorem execTimeGet_keeps {M : Nat} {s0 : State} {a0 : Origin} {a1 : List Byte} {a2 : State} (hM : 8589952000 ||| M = M) (h0 : Keeps M s0 a2) :
    KeepsR M s0 (execTimeGet a0 a1 a2) := by
  unfold execTimeGet
  refine command_keeps (sub hM rfl) ?_ ?_
  · intro w0 k1
    refine reply_keeps (sub hM rfl) ?_
    exact k1
  · exact h0

theorem execTimeSet_keeps {M : Nat} {s0 : State} {a0 : Origin} {a1 : List Byte} {a2 : State} (hM : 8591066130 ||| M = M) (h0 : Keeps M s0 a2) :
    KeepsR M s0 (execTimeSet a0 a1 a2) := by
  unfold execTimeSet
  extract_lets +onlyGivenNames -lift x0
  clear_value x0
  extract_lets +onlyGivenNames -lift x1
  clear_value x1
  refine command_keeps (sub hM rfl) ?_ ?_
  · intro w3 k4
    extract_lets +onlyGivenNames -lift x5
    clear_value x5
    refine Keeps.ite ?_ ?_
    · refine reply_keeps (sub hM rfl) ?_
      exact k4
    · refine Keeps.ite ?_ ?_
      · refine reply_keeps (sub hM rfl) ?_
        exact k4
      · refine reply_keeps (sub hM rfl) ?_
        refine stepTime_keeps (sub hM rfl) ?_
        exact k4
  · exact h0

theorem execTrigArm_keeps {M : Nat} {s0 : State} {a0 : Origin} {a1 : List Byte} {a2 : State} (hM : 8591000594 ||| M = M) (h0 : Keeps M s0 a2) :
    KeepsR M s0 (execTrigArm a0 a1 a2) := by
  unfold execTrigArm
  extract_lets +onlyGivenNames -lift x0
  clear_value x0
  refine command_keeps (sub hM rfl) ?_ ?_
  · intro w2 k3
    refine Keeps.ite ?_ ?_
    · refine reply_keeps (sub hM rfl) ?_
      exact k3
    · split
      · rename_i y6 y7 y8 y9
        refine Keeps2.elim (m := M) (s0 := s0) y9 ?_ (fun g10 => ?_)
        · refine armRecords_keeps (sub hM rfl) ?_
          exact k3
        extract_lets +onlyGivenNames -lift x11
        clear_value x11
        refine reply_keeps (sub hM rfl) ?_
        exact g10
  · exact h0

theorem execTrigCancel_keeps {M : Nat} {s0 : State} {a0 : Origin} {a1 : List Byte} {a2 : State} (hM : 8591000576 ||| M = M) (h0 : Keeps M s0 a2) :
    KeepsR M s0 (execTrigCancel a0 a1 a2) := by
  unfold execTrigCancel
  refine command_keeps (sub hM rfl) ?_ ?_
  · intro w0 k1
    refine Keeps.ite ?_ ?_
    · refine reply_keeps (sub hM rfl) ?_
      refine cancelMask_keeps (sub hM rfl) ?_
      exact k1
    · refine reply_keeps (sub hM rfl) ?_
      exact k1
  · exact h0

theorem startPulse_keeps {M : Nat} {s0 : State} {a0 : Nat} {a1 : State} (hM : 1048594 ||| M = M) (h0 : Keeps M s0 a1) :
    Keeps M s0 (startPulse a0 a1) := by
  unfold startPulse
  extract_lets +onlyGivenNames -lift x0
  clear_value x0
  split
  · exact h0
  · extract_lets +onlyGivenNames -lift x2
    clear_value x2
    extract_lets +onlyGivenNames -lift x3
    have g4 : Keeps M s0 x3 := by
      refine Keeps.ite ?_ ?_
      · refine trgErr_keeps (sub hM rfl) ?_
        exact h0
      · exact h0
    clear_value x3
    refine setTrig_keeps (sub hM rfl) ?_
    exact g4

theorem execPulseStart_keeps {M : Nat} {s0 : State} {a0 : Fin 8} {a1 : State} (hM : 1048594 ||| M = M) (h0 : Keeps M s0 a1) :
    KeepsR M s0 (execPulseStart a0 a1) := by
  unfold execPulseStart
  refine KeepsR.next ?_
  refine startPulse_keeps (sub hM rfl) ?_
  exact h0

theorem execPulseEnd_keeps {M : Nat} {s0 : State} {a0 : Fin 8} {a1 : State} (hM : 1048576 ||| M = M) (h0 : Keeps M s0 a1) :
    KeepsR M s0 (execPulseEnd a0 a1) := by
  unfold execPulseEnd
  extract_lets +onlyGivenNames -lift x0
  clear_value x0
  refine KeepsR.next ?_
  refine setTrig_keeps (sub hM rfl) ?_
  exact h0

theorem sendReport_keeps {M : Nat} {s0 : State} {a0 : Nat} {a1 : State} (hM : 1186964 ||| M = M) (h0 : Keeps M s0 a1) :
    Keeps M s0 (sendReport a0 a1) := by
  unfold sendReport
  extract_lets +onlyGivenNames -lift x0
  clear_value x0
  extract_lets +onlyGivenNames -lift x1
  clear_value x1
  extract_lets +onlyGivenNames -lift x2
  clear_value x2
  refine Keeps.ite ?_ ?_
  · exact h0
  · refine originate_keeps (sub hM rfl) ?_
    refine setTrig_keeps (sub hM rfl) ?_
    exact h0

theorem drainReports_keeps {M : Nat} {s0 : State} {a0 : Nat} {a1 : State} (hM : 1186964 ||| M = M) (h0 : Keeps M s0 a1) :
    Keeps M s0 (drainReports a0 a1) := by
  unfold drainReports
  refine times_keeps (sub hM rfl) ?_ ?_
  · intro w0 k1
    refine Keeps.ite ?_ ?_
    · refine sendReport_keeps (sub hM rfl) ?_
      exact k1
    · exact k1
  · exact h0

theorem pcfgWrite_keeps {M : Nat} {s0 : State} {a0 : Nat} {a1 : Word} {a2 : State} (hM : 1186966 ||| M = M) (h0 : Keeps M s0 a2) :
    Keeps M s0 (pcfgWrite a0 a1 a2) := by
  unfold pcfgWrite
  extract_lets +onlyGivenNames -lift x0
  clear_value x0
  extract_lets +onlyGivenNames -lift x1
  have g2 : Keeps M s0 x1 := by
    refine regSet_keeps (sub hM rfl) ?_
    exact h0
  clear_value x1
  extract_lets +onlyGivenNames -lift x3
  clear_value x3
  extract_lets +onlyGivenNames -lift x4
  have g5 : Keeps M s0 x4 := by
    refine Keeps.ite ?_ ?_
    · exact g2
    · refine setTrig_keeps (sub hM rfl) ?_
      exact g2
  clear_value x4
  refine drainReports_keeps (sub hM rfl) ?_
  exact g5

theorem execPinModeWrite_keeps {M : Nat} {s0 : State} {a0 : Fin 8} {a1 : Fin 4} {a2 : State} (hM : 1186966 ||| M = M) (h0 : Keeps M s0 a2) :
    KeepsR M s0 (execPinModeWrite a0 a1 a2) := by
  unfold execPinModeWrite
  refine access_keeps (sub hM rfl) ?_ ?_
  · intro w0 k1
    refine pcfgWrite_keeps (sub hM rfl) ?_
    exact k1
  · exact h0

theorem stampEdge_keeps {M : Nat} {s0 : State} {a0 : Nat} {a1 : Nat × Bool} {a2 : State} (hM : 1186966 ||| M = M) (h0 : Keeps M s0 a2) :
    Keeps M s0 (stampEdge a0 a1 a2) := by
  unfold stampEdge
  extract_lets +onlyGivenNames -lift x0
  clear_value x0
  refine drainReports_keeps (sub hM rfl) ?_
  refine Keeps.ite ?_ ?_
  · refine trgErr_keeps (sub hM rfl) ?_
    refine count_keeps (sub hM rfl) ?_
    refine setTrig_keeps (sub hM rfl) ?_
    exact h0
  · refine setTrig_keeps (sub hM rfl) ?_
    exact h0

theorem settleEdge_keeps {M : Nat} {s0 : State} {a0 : Nat} {a1 : State} (hM : 1186966 ||| M = M) (h0 : Keeps M s0 a1) :
    Keeps M s0 (settleEdge a0 a1) := by
  unfold settleEdge
  extract_lets +onlyGivenNames -lift x0
  clear_value x0
  extract_lets +onlyGivenNames -lift x1
  have g2 : Keeps M s0 x1 := by
    refine setTrig_keeps (sub hM rfl) ?_
    exact h0
  clear_value x1
  split
  · exact h0
  · refine Keeps.ite ?_ ?_
    · refine Keeps.ite ?_ ?_
      · refine stampEdge_keeps (sub hM rfl) ?_
        exact g2
      · exact g2
    · exact h0

theorem execCaptureEdge_keeps {M : Nat} {s0 : State} {a0 : Fin 8} {a1 : Bool} {a2 : State} (hM : 1186966 ||| M = M) (h0 : Keeps M s0 a2) :
    KeepsR M s0 (execCaptureEdge a0 a1 a2) := by
  unfold execCaptureEdge
  extract_lets +onlyGivenNames -lift x0
  clear_value x0
  extract_lets +onlyGivenNames -lift x1
  have g2 : Keeps M s0 x1 := by
    refine settleEdge_keeps (sub hM rfl) ?_
    exact h0
  clear_value x1
  extract_lets +onlyGivenNames -lift x3
  clear_value x3
  extract_lets +onlyGivenNames -lift x4
  clear_value x4
  extract_lets +onlyGivenNames -lift x5
  clear_value x5
  extract_lets +onlyGivenNames -lift x6
  clear_value x6
  refine KeepsR.ite ?_ ?_
  · refine KeepsR.next ?_
    refine settleEdge_keeps (sub hM rfl) ?_
    refine setTrig_keeps (sub hM rfl) ?_
    exact g2
  · refine KeepsR.next ?_
    exact h0

theorem execCaptRptPeriod_keeps {M : Nat} {s0 : State} {a0 : Fin 8} {a1 : State} (hM : 1186964 ||| M = M) (h0 : Keeps M s0 a1) :
    KeepsR M s0 (execCaptRptPeriod a0 a1) := by
  unfold execCaptRptPeriod
  refine KeepsR.next ?_
  refine Keeps.ite ?_ ?_
  · refine sendReport_keeps (sub hM rfl) ?_
    exact h0
  · exact h0

theorem readCapLo_keeps {M : Nat} {s0 : State} {a0 : EntryPoint} {a1 : Nat} {a2 : State} (hM : 1048578 ||| M = M) (h0 : Keeps M s0 a2) :
    Keeps2 M s0 (readCapLo a0 a1 a2) := by
  unfold readCapLo
  extract_lets +onlyGivenNames -lift x0
  clear_value x0
  extract_lets +onlyGivenNames -lift x1
  clear_value x1
  split
  · refine Keeps2.mk ?_
    refine regSet_keeps (sub hM rfl) ?_
    exact h0
  · refine Keeps2.mk ?_
    refine regSet_keeps (sub hM rfl) ?_
    refine setTrig_keeps (sub hM rfl) ?_
    exact h0

theorem execCapLoRead_keeps {M : Nat} {s0 : State} {a0 : EntryPoint} {a1 : Fin 8} {a2 : State} (hM : 1048610 ||| M = M) (h0 : Keeps M s0 a2) :
    KeepsR M s0 (execCapLoRead a0 a1 a2) := by
  unfold execCapLoRead
  refine access_keeps (sub hM rfl) ?_ ?_
  · intro w0 k1
    refine returned_keeps (sub hM rfl) ?_
    refine readCapLo_keeps (sub hM rfl) ?_
    exact k1
  · exact h0

theorem execCaptRead_keeps {M : Nat} {s0 : State} {a0 : Origin} {a1 : List Byte} {a2 : State} (hM : 8591000576 ||| M = M) (h0 : Keeps M s0 a2) :
    KeepsR M s0 (execCaptRead a0 a1 a2) := by
  unfold execCaptRead
  extract_lets +onlyGivenNames -lift x0
  clear_value x0
  extract_lets +onlyGivenNames -lift x1
  clear_value x1
  refine command_keeps (sub hM rfl) ?_ ?_
  · intro w3 k4
    extract_lets +onlyGivenNames -lift x5
    clear_value x5
    extract_lets +onlyGivenNames -lift x6
    clear_value x6
    refine Keeps.ite ?_ ?_
    · refine reply_keeps (sub hM rfl) ?_
      exact k4
    · refine reply_keeps (sub hM rfl) ?_
      refine setTrig_keeps (sub hM rfl) ?_
      exact k4
  · exact h0

theorem execPpsEdge_keeps {M : Nat} {s0 : State} {a0 : Fin 8} {a1 : State} (hM : 262146 ||| M = M) (h0 : Keeps M s0 a1) :
    KeepsR M s0 (execPpsEdge a0 a1) := by
  unfold execPpsEdge
  extract_lets +onlyGivenNames -lift x0
  clear_value x0
  extract_lets +onlyGivenNames -lift x1
  clear_value x1
  extract_lets +onlyGivenNames -lift x2
  clear_value x2
  refine KeepsR.ite ?_ ?_
  · refine KeepsR.next ?_
    refine servo_keeps (sub hM rfl) ?_
    refine setOfs_keeps (sub hM rfl) ?_
    exact h0
  · refine KeepsR.next ?_
    exact h0

theorem execXt32RatioWindow_keeps {M : Nat} {s0 : State} {a0 : Nat} {a1 : State} (hM : 262144 ||| M = M) (h0 : Keeps M s0 a1) :
    KeepsR M s0 (execXt32RatioWindow a0 a1) := by
  unfold execXt32RatioWindow
  extract_lets +onlyGivenNames -lift x0
  clear_value x0
  extract_lets +onlyGivenNames -lift x1
  clear_value x1
  refine KeepsR.next ?_
  refine Keeps.set_time (hit hM rfl) (?_)
  exact h0

/-! Proxy. -/

theorem prxShow_keeps {M : Nat} {s0 : State} {a0 : Nat} {a1 : State} (hM : 2 ||| M = M) (h0 : Keeps M s0 a1) :
    Keeps M s0 (prxShow a0 a1) := by
  unfold prxShow
  extract_lets +onlyGivenNames -lift x0
  clear_value x0
  extract_lets +onlyGivenNames -lift x1
  clear_value x1
  refine wr_keeps (sub hM rfl) ?_
  refine wr_keeps (sub hM rfl) ?_
  exact h0

theorem prxErr_keeps {M : Nat} {s0 : State} {a0 : Nat} {a1 : Nat} {a2 : State} (hM : 18 ||| M = M) (h0 : Keeps M s0 a2) :
    Keeps M s0 (prxErr a0 a1 a2) := by
  unfold prxErr
  refine raise_keeps (sub hM rfl) ?_
  refine orF_keeps (sub hM rfl) ?_
  exact h0

theorem evShow_keeps {M : Nat} {s0 : State} {a0 : Nat} {a1 : State} (hM : 18 ||| M = M) (h0 : Keeps M s0 a1) :
    Keeps M s0 (evShow a0 a1) := by
  unfold evShow
  extract_lets +onlyGivenNames -lift x0
  clear_value x0
  extract_lets +onlyGivenNames -lift x1
  have g2 : Keeps M s0 x1 := by
    refine wr_keeps (sub hM rfl) ?_
    exact h0
  clear_value x1
  refine Keeps.ite ?_ ?_
  · refine raise_keeps (sub hM rfl) ?_
    exact g2
  · exact g2

theorem sendNotify_keeps {M : Nat} {s0 : State} {a0 : Nat} {a1 : State} (hM : 33692820 ||| M = M) (h0 : Keeps M s0 a1) :
    Keeps M s0 (sendNotify a0 a1) := by
  unfold sendNotify
  extract_lets +onlyGivenNames -lift x0
  clear_value x0
  extract_lets +onlyGivenNames -lift x1
  have g2 : Keeps M s0 x1 := by
    refine updProxy_keeps (sub hM rfl) ?_
    exact h0
  clear_value x1
  refine Keeps.ite ?_ ?_
  · exact g2
  · refine originate_keeps (sub hM rfl) ?_
    exact g2

theorem writeEvent_keeps {M : Nat} {s0 : State} {a0 : Nat} {a1 : List Byte} {a2 : Nat} {a3 : Nat} {a4 : Nat} {a5 : Nat} {a6 : Nat} {a7 : State} (hM : 33725590 ||| M = M) (h0 : Keeps M s0 a7) :
    Keeps M s0 (writeEvent a0 a1 a2 a3 a4 a5 a6 a7) := by
  unfold writeEvent
  extract_lets +onlyGivenNames -lift x0
  clear_value x0
  extract_lets +onlyGivenNames -lift x1
  clear_value x1
  extract_lets +onlyGivenNames -lift x2
  have g3 : Keeps M s0 x2 := by
    refine deepWrites_keeps (sub hM rfl) ?_
    exact h0
  clear_value x2
  extract_lets +onlyGivenNames -lift x4
  clear_value x4
  extract_lets +onlyGivenNames -lift x5
  have g6 : Keeps M s0 x5 := by
    refine deepWrites_keeps (sub hM rfl) ?_
    exact g3
  clear_value x5
  extract_lets +onlyGivenNames -lift x7
  have g8 : Keeps M s0 x7 := by
    refine evShow_keeps (sub hM rfl) ?_
    refine updProxy_keeps (sub hM rfl) ?_
    exact g6
  clear_value x7
  refine Keeps.ite ?_ ?_
  · exact h0
  · refine Keeps.ite ?_ ?_
    · refine sendNotify_keeps (sub hM rfl) ?_
      exact g8
    · exact g8

theorem ringState_keeps {M : Nat} {s0 : State} {a0 : Nat} {a1 : Nat} {a2 : Nat} {a3 : State} (hM : 33587202 ||| M = M) (h0 : Keeps M s0 a3) :
    Keeps M s0 (ringState a0 a1 a2 a3) := by
  unfold ringState
  extract_lets +onlyGivenNames -lift x0
  clear_value x0
  extract_lets +onlyGivenNames -lift x1
  have g2 : Keeps M s0 x1 := by
    refine setRing_keeps (sub hM rfl) ?_
    exact h0
  clear_value x1
  refine prxShow_keeps (sub hM rfl) ?_
  refine deepWrites_keeps (sub hM rfl) ?_
  exact g2

theorem complete_keeps {M : Nat} {s0 : State} {a0 : Nat} {a1 : Nat} {a2 : Nat} {a3 : Nat} {a4 : Desc} {a5 : State} (hM : 33725590 ||| M = M) (h0 : Keeps M s0 a5) :
    Keeps M s0 (complete a0 a1 a2 a3 a4 a5) := by
  unfold complete
  extract_lets +onlyGivenNames -lift x0
  have g1 : Keeps M s0 x0 := by
    refine Keeps.ite ?_ ?_
    · refine writeEvent_keeps (sub hM rfl) ?_
      exact h0
    · exact h0
  clear_value x0
  extract_lets +onlyGivenNames -lift x2
  clear_value x2
  extract_lets +onlyGivenNames -lift x3
  clear_value x3
  extract_lets +onlyGivenNames -lift x4
  have g5 : Keeps M s0 x4 := by
    refine setRing_keeps (sub hM rfl) ?_
    exact g1
  clear_value x4
  extract_lets +onlyGivenNames -lift x6
  have g7 : Keeps M s0 x6 := by
    refine deepWrites_keeps (sub hM rfl) ?_
    exact g5
  clear_value x6
  refine Keeps.ite ?_ ?_
  · refine ringState_keeps (sub hM rfl) ?_
    exact g7
  · exact g7

theorem stopRing_keeps {M : Nat} {s0 : State} {a0 : Nat} {a1 : Nat} {a2 : State} (hM : 33725590 ||| M = M) (h0 : Keeps M s0 a2) :
    Keeps M s0 (stopRing a0 a1 a2) := by
  unfold stopRing
  extract_lets +onlyGivenNames -lift x0
  clear_value x0
  extract_lets +onlyGivenNames -lift x1
  have g2 : Keeps M s0 x1 := by
    unfold x1
    split
    · refine writeEvent_keeps (sub hM rfl) ?_
      refine setRing_keeps (sub hM rfl) ?_
      exact h0
    · exact h0
  clear_value x1
  refine Keeps.ite ?_ ?_
  · refine writeEvent_keeps (sub hM rfl) ?_
    refine ringState_keeps (sub hM rfl) ?_
    exact g2
  · exact h0

theorem stopRings_keeps {M : Nat} {s0 : State} {a0 : Nat} {a1 : State} (hM : 33725590 ||| M = M) (h0 : Keeps M s0 a1) :
    Keeps M s0 (stopRings a0 a1) := by
  unfold stopRings
  refine forAll_keeps (sub hM rfl) ?_ ?_
  · intro w0 w1 k2
    refine stopRing_keeps (sub hM rfl) ?_
    exact k2
  · exact h0

theorem proxyStart_keeps {M : Nat} {s0 : State} {a0 : Nat} {a1 : State} (hM : 33554450 ||| M = M) (h0 : Keeps M s0 a1) :
    Keeps2 M s0 (proxyStart a0 a1) := by
  unfold proxyStart
  extract_lets +onlyGivenNames -lift x0
  clear_value x0
  extract_lets +onlyGivenNames -lift x1
  clear_value x1
  extract_lets +onlyGivenNames -lift x2
  clear_value x2
  refine Keeps2.ite ?_ ?_
  · refine Keeps2.mk ?_
    exact h0
  · refine Keeps2.ite ?_ ?_
    · refine Keeps2.mk ?_
      refine prxErr_keeps (sub hM rfl) ?_
      exact h0
    · refine Keeps2.ite ?_ ?_
      · refine Keeps2.mk ?_
        refine prxErr_keeps (sub hM rfl) ?_
        exact h0
      · refine Keeps2.mk ?_
        refine evShow_keeps (sub hM rfl) ?_
        refine prxShow_keeps (sub hM rfl) ?_
        refine wr_keeps (sub hM rfl) ?_
        refine setProxy_keeps (sub hM rfl) ?_
        exact h0

theorem proxyStop_keeps {M : Nat} {s0 : State} {a0 : Nat} {a1 : State} (hM : 33725590 ||| M = M) (h0 : Keeps M s0 a1) :
    Keeps M s0 (proxyStop a0 a1) := by
  unfold proxyStop
  refine Keeps.ite ?_ ?_
  · refine evShow_keeps (sub hM rfl) ?_
    refine wr_keeps (sub hM rfl) ?_
    refine stopRings_keeps (sub hM rfl) ?_
    exact h0
  · exact h0

theorem ringStart_keeps {M : Nat} {s0 : State} {a0 : Nat} {a1 : Nat} {a2 : State} (hM : 33725590 ||| M = M) (h0 : Keeps M s0 a2) :
    Keeps M s0 (ringStart a0 a1 a2) := by
  unfold ringStart
  extract_lets +onlyGivenNames -lift x0
  clear_value x0
  refine Keeps.ite ?_ ?_
  · exact h0
  · refine Keeps.ite ?_ ?_
    · exact h0
    · refine writeEvent_keeps (sub hM rfl) ?_
      refine ringState_keeps (sub hM rfl) ?_
      refine setRing_keeps (sub hM rfl) ?_
      exact h0

theorem ringReset_keeps {M : Nat} {s0 : State} {a0 : Nat} {a1 : Nat} {a2 : State} (hM : 33725590 ||| M = M) (h0 : Keeps M s0 a2) :
    Keeps M s0 (ringReset a0 a1 a2) := by
  unfold ringReset
  refine Keeps.ite ?_ ?_
  · refine writeEvent_keeps (sub hM rfl) ?_
    refine ringState_keeps (sub hM rfl) ?_
    exact h0
  · exact h0

theorem doorbell_keeps {M : Nat} {s0 : State} {a0 : Nat} {a1 : Nat} {a2 : Nat} {a3 : State} (hM : 33725590 ||| M = M) (h0 : Keeps M s0 a3) :
    Keeps M s0 (doorbell a0 a1 a2 a3) := by
  unfold doorbell
  extract_lets +onlyGivenNames -lift x0
  clear_value x0
  refine Keeps.ite ?_ ?_
  · refine evShow_keeps (sub hM rfl) ?_
    refine deepWrites_keeps (sub hM rfl) ?_
    refine updProxy_keeps (sub hM rfl) ?_
    exact h0
  · refine Keeps.ite ?_ ?_
    · refine prxErr_keeps (sub hM rfl) ?_
      exact h0
    · refine Keeps.ite ?_ ?_
      · refine ringState_keeps (sub hM rfl) ?_
        refine writeEvent_keeps (sub hM rfl) ?_
        exact h0
      · refine deepWrites_keeps (sub hM rfl) ?_
        refine setRing_keeps (sub hM rfl) ?_
        exact h0

theorem prxDbWrite_keeps {M : Nat} {s0 : State} {a0 : Nat} {a1 : Word} {a2 : State} (hM : 33725590 ||| M = M) (h0 : Keeps M s0 a2) :
    Keeps M s0 (prxDbWrite a0 a1 a2) := by
  unfold prxDbWrite
  extract_lets +onlyGivenNames -lift x0
  clear_value x0
  refine Keeps.ite ?_ ?_
  · refine doorbell_keeps (sub hM rfl) ?_
    exact h0
  · refine Keeps.ite ?_ ?_
    · refine prxErr_keeps (sub hM rfl) ?_
      exact h0
    · refine Keeps.ite ?_ ?_
      · refine setRing_keeps (sub hM rfl) ?_
        exact h0
      · exact h0

theorem execPrxDbWrite_keeps {M : Nat} {s0 : State} {a0 : Fin 2} {a1 : Word} {a2 : State} (hM : 33725590 ||| M = M) (h0 : Keeps M s0 a2) :
    KeepsR M s0 (execPrxDbWrite a0 a1 a2) := by
  unfold execPrxDbWrite
  refine access_keeps (sub hM rfl) ?_ ?_
  · intro w0 k1
    refine prxDbWrite_keeps (sub hM rfl) ?_
    exact k1
  · exact h0

theorem execDoorbell_keeps {M : Nat} {s0 : State} {a0 : Fin 2} {a1 : State} (hM : 33725590 ||| M = M) (h0 : Keeps M s0 a1) :
    KeepsR M s0 (execDoorbell a0 a1) := by
  unfold execDoorbell
  extract_lets +onlyGivenNames -lift x0
  clear_value x0
  extract_lets +onlyGivenNames -lift x1
  clear_value x1
  split
  · rename_i y2 y3
    refine KeepsR.next ?_
    exact h0
  · rename_i y4 y5 y6 y7
    refine KeepsO.elim (m := M) (s0 := s0) y7 ?_ (fun g8 => ?_)
    · refine KeepsO.orElse ?_ ?_
      · refine takeFrame_keeps (sub hM rfl) ?_
        exact h0
      · intro w9
        refine takeFrame_keeps (sub hM rfl) ?_
        exact h0
    refine KeepsR.next ?_
    refine prxDbWrite_keeps (sub hM rfl) ?_
    exact g8

theorem execDescriptorFetch_keeps {M : Nat} {s0 : State} {a0 : Fin 2} {a1 : Fin 64} {a2 : Bool} {a3 : State} (hM : 33725590 ||| M = M) (h0 : Keeps M s0 a3) :
    KeepsR M s0 (execDescriptorFetch a0 a1 a2 a3) := by
  unfold execDescriptorFetch
  extract_lets +onlyGivenNames -lift x0
  clear_value x0
  extract_lets +onlyGivenNames -lift x1
  clear_value x1
  extract_lets +onlyGivenNames -lift x2
  clear_value x2
  extract_lets +onlyGivenNames -lift x3
  clear_value x3
  refine KeepsR.ite ?_ ?_
  · refine KeepsR.next ?_
    exact h0
  · refine KeepsR.ite ?_ ?_
    · refine KeepsR.next ?_
      refine complete_keeps (sub hM rfl) ?_
      exact h0
    · refine KeepsR.ite ?_ ?_
      · refine KeepsR.next ?_
        refine complete_keeps (sub hM rfl) ?_
        exact h0
      · refine KeepsR.ite ?_ ?_
        · refine KeepsR.next ?_
          refine complete_keeps (sub hM rfl) ?_
          exact h0
        · refine KeepsR.next ?_
          refine setRing_keeps (sub hM rfl) ?_
          exact h0

theorem execPeriodicService_keeps {M : Nat} {s0 : State} {a0 : Fin 2} {a1 : Fin 64} {a2 : Bool} {a3 : State} (hM : 33725590 ||| M = M) (h0 : Keeps M s0 a3) :
    KeepsR M s0 (execPeriodicService a0 a1 a2 a3) := by
  unfold execPeriodicService
  extract_lets +onlyGivenNames -lift x0
  clear_value x0
  extract_lets +onlyGivenNames -lift x1
  clear_value x1
  split
  · refine KeepsR.ite ?_ ?_
    · refine KeepsR.next ?_
      exact h0
    · refine KeepsR.ite ?_ ?_
      · refine KeepsR.next ?_
        refine complete_keeps (sub hM rfl) ?_
        exact h0
      · refine KeepsR.next ?_
        refine setRing_keeps (sub hM rfl) ?_
        exact h0
  · refine KeepsR.next ?_
    exact h0

theorem execNotifyTimer_keeps {M : Nat} {s0 : State} {a0 : Fin 2} {a1 : State} (hM : 33692820 ||| M = M) (h0 : Keeps M s0 a1) :
    KeepsR M s0 (execNotifyTimer a0 a1) := by
  unfold execNotifyTimer
  refine KeepsR.ite ?_ ?_
  · refine KeepsR.next ?_
    refine sendNotify_keeps (sub hM rfl) ?_
    exact h0
  · refine KeepsR.next ?_
    exact h0

theorem portChange_keeps {M : Nat} {s0 : State} {a0 : Nat} {a1 : State} (hM : 33725590 ||| M = M) (h0 : Keeps M s0 a1) :
    Keeps M s0 (portChange a0 a1) := by
  unfold portChange
  extract_lets +onlyGivenNames -lift x0
  have g1 : Keeps M s0 x0 := by
    refine raise_keeps (sub hM rfl) ?_
    exact h0
  clear_value x0
  refine Keeps.ite ?_ ?_
  · refine writeEvent_keeps (sub hM rfl) ?_
    exact g1
  · exact g1

theorem hubDrop_keeps {M : Nat} {s0 : State} {a0 : Nat} {a1 : State} (hM : 33725590 ||| M = M) (h0 : Keeps M s0 a1) :
    Keeps M s0 (hubDrop a0 a1) := by
  unfold hubDrop
  extract_lets +onlyGivenNames -lift x0
  clear_value x0
  extract_lets +onlyGivenNames -lift x1
  clear_value x1
  extract_lets +onlyGivenNames -lift x2
  have g3 : Keeps M s0 x2 := by
    refine Keeps.ite ?_ ?_
    · refine forAll_keeps (sub hM rfl) ?_ ?_
      · intro w4 w5 k6
        split
        · refine complete_keeps (sub hM rfl) ?_
          exact k6
        · refine ringState_keeps (sub hM rfl) ?_
          exact k6
      · exact h0
    · exact h0
  clear_value x2
  refine Keeps.ite ?_ ?_
  · refine portChange_keeps (sub hM rfl) ?_
    refine wr_keeps (sub hM rfl) ?_
    exact g3
  · exact h0

theorem hubJoin_keeps {M : Nat} {s0 : State} {a0 : Nat} {a1 : Nat} {a2 : State} (hM : 33725590 ||| M = M) (h0 : Keeps M s0 a2) :
    Keeps M s0 (hubJoin a0 a1 a2) := by
  unfold hubJoin
  refine Keeps.ite ?_ ?_
  · refine portChange_keeps (sub hM rfl) ?_
    refine wr_keeps (sub hM rfl) ?_
    exact h0
  · exact h0

theorem hubReroute_keeps {M : Nat} {s0 : State} {a0 : Nat} {a1 : State} (hM : 33725590 ||| M = M) (h0 : Keeps M s0 a1) :
    Keeps M s0 (hubReroute a0 a1) := by
  unfold hubReroute
  extract_lets +onlyGivenNames -lift x0
  clear_value x0
  refine Keeps.ite ?_ ?_
  · refine hubJoin_keeps (sub hM rfl) ?_
    refine hubDrop_keeps (sub hM rfl) ?_
    exact h0
  · exact h0

theorem execHubPortChange_keeps {M : Nat} {s0 : State} {a0 : Fin 8} {a1 : Fin 7} {a2 : Bool} {a3 : State} (hM : 33725590 ||| M = M) (h0 : Keeps M s0 a3) :
    KeepsR M s0 (execHubPortChange a0 a1 a2 a3) := by
  unfold execHubPortChange
  extract_lets +onlyGivenNames -lift x0
  clear_value x0
  extract_lets +onlyGivenNames -lift x1
  clear_value x1
  extract_lets +onlyGivenNames -lift x2
  have g3 : Keeps M s0 x2 := by
    refine hubJoin_keeps (sub hM rfl) ?_
    refine hubDrop_keeps (sub hM rfl) ?_
    exact h0
  clear_value x2
  refine KeepsR.ite ?_ ?_
  · refine KeepsR.next ?_
    exact h0
  · refine KeepsR.ite ?_ ?_
    · refine KeepsR.next ?_
      refine hubDrop_keeps (sub hM rfl) ?_
      exact h0
    · refine KeepsR.ite ?_ ?_
      · refine KeepsR.next ?_
        refine Keeps.ite ?_ ?_
        · exact h0
        · refine portChange_keeps (sub hM rfl) ?_
          refine wr_keeps (sub hM rfl) ?_
          exact h0
      · refine KeepsR.next ?_
        refine Keeps.ite ?_ ?_
        · refine wr_keeps (sub hM rfl) ?_
          exact g3
        · exact g3

theorem hubCfgWrite_keeps {M : Nat} {s0 : State} {a0 : Nat} {a1 : Word} {a2 : State} (hM : 33725590 ||| M = M) (h0 : Keeps M s0 a2) :
    Keeps M s0 (hubCfgWrite a0 a1 a2) := by
  unfold hubCfgWrite
  extract_lets +onlyGivenNames -lift x0
  have g1 : Keeps M s0 x0 := by
    refine regSet_keeps (sub hM rfl) ?_
    exact h0
  clear_value x0
  refine forAll_keeps (sub hM rfl) ?_ ?_
  · intro w2 w3 k4
    refine Keeps.ite ?_ ?_
    · refine hubDrop_keeps (sub hM rfl) ?_
      exact k4
    · refine Keeps.ite ?_ ?_
      · refine hubReroute_keeps (sub hM rfl) ?_
        exact k4
      · exact k4
  · exact g1

theorem usbAction_keeps {M : Nat} {s0 : State} {a0 : Nat} {a1 : Nat} {a2 : State} (hM : 33725590 ||| M = M) (h0 : Keeps M s0 a2) :
    Keeps M s0 (usbAction a0 a1 a2) := by
  unfold usbAction
  extract_lets +onlyGivenNames -lift x0
  clear_value x0
  extract_lets +onlyGivenNames -lift x1
  clear_value x1
  extract_lets +onlyGivenNames -lift x2
  clear_value x2
  extract_lets +onlyGivenNames -lift x3
  clear_value x3
  split
  · refine hubCfgWrite_keeps (sub hM rfl) ?_
    exact h0
  · refine hubCfgWrite_keeps (sub hM rfl) ?_
    exact h0
  · refine Keeps.ite ?_ ?_
    · refine portChange_keeps (sub hM rfl) ?_
      refine wr_keeps (sub hM rfl) ?_
      exact h0
    · exact h0
  · refine Keeps.ite ?_ ?_
    · refine portChange_keeps (sub hM rfl) ?_
      refine wr_keeps (sub hM rfl) ?_
      exact h0
    · exact h0
  · refine Keeps.ite ?_ ?_
    · refine portChange_keeps (sub hM rfl) ?_
      refine wr_keeps (sub hM rfl) ?_
      exact h0
    · exact h0
  · refine Keeps.ite ?_ ?_
    · refine portChange_keeps (sub hM rfl) ?_
      refine wr_keeps (sub hM rfl) ?_
      exact h0
    · exact h0

theorem hubActs_keeps {M : Nat} {s0 : State} {a0 : Nat} {a1 : Ring} {a2 : Desc} {a3 : Nat} {a4 : State} (hM : 33725590 ||| M = M) (h0 : Keeps M s0 a4) :
    Keeps M s0 (hubActs a0 a1 a2 a3 a4) := by
  unfold hubActs
  refine Keeps.ite ?_ ?_
  · split
    · refine usbAction_keeps (sub hM rfl) ?_
      exact h0
    · exact h0
  · exact h0

theorem execTransferComplete_keeps {M : Nat} {s0 : State} {a0 : Fin 2} {a1 : Fin 64} {a2 : Fin 10} {a3 : Nat} {a4 : List Byte} {a5 : State} (hM : 33725590 ||| M = M) (h0 : Keeps M s0 a5) :
    KeepsR M s0 (execTransferComplete a0 a1 a2 a3 a4 a5) := by
  unfold execTransferComplete
  extract_lets +onlyGivenNames -lift x0
  clear_value x0
  extract_lets +onlyGivenNames -lift x1
  clear_value x1
  split
  · extract_lets +onlyGivenNames -lift x3
    clear_value x3
    extract_lets +onlyGivenNames -lift x4
    have g5 : Keeps M s0 x4 := by
      refine Keeps.ite ?_ ?_
      · exact h0
      · refine deepWrites_keeps (sub hM rfl) ?_
        exact h0
    clear_value x4
    refine KeepsR.ite ?_ ?_
    · refine KeepsR.next ?_
      exact h0
    · refine KeepsR.next ?_
      refine hubActs_keeps (sub hM rfl) ?_
      refine complete_keeps (sub hM rfl) ?_
      exact g5
  · refine KeepsR.next ?_
    exact h0

theorem proxyQuiesced_keeps {M : Nat} {s0 : State} {a0 : Nat} {a1 : State} (hM : 33725590 ||| M = M) (h0 : Keeps M s0 a1) :
    Keeps M s0 (proxyQuiesced a0 a1) := by
  unfold proxyQuiesced
  refine Keeps.ite ?_ ?_
  · refine stopRings_keeps (sub hM rfl) ?_
    exact h0
  · exact h0

theorem proxyReset_keeps {M : Nat} {s0 : State} {a0 : Nat} {a1 : State} (hM : 33554432 ||| M = M) (h0 : Keeps M s0 a1) :
    Keeps M s0 (proxyReset a0 a1) := by
  unfold proxyReset
  refine setProxy_keeps (sub hM rfl) ?_
  exact h0

end Sys2Proof.Machine
end

