-- ==== Sys2Proof/Laws/KeepsTypeC.lean ====
section
/-! SUPPORT. `Keeps` for the operations and commands of Type-C ports and the service port. A mask is the sum of 2^i over the fields of State that may
change, numbered as `Keeps` numbers them. -/
namespace Sys2Proof.Machine

-- One theorem at a time, so that the package as one text compiles within its memory limit.
set_option Elab.async false

/-! TypeC. -/

theorem setTcp_keeps {M : Nat} {s0 : State} {a0 : Nat} {a1 : TcPort} {a2 : State} (hM : 4194304 ||| M = M) (h0 : Keeps M s0 a2) :
    Keeps M s0 (setTcp a0 a1 a2) := by
  unfold setTcp
  refine Keeps.set_tcp (hit hM rfl) (?_)
  exact h0

theorem updTcp_keeps {M : Nat} {s0 : State} {a0 : Nat} {a1 : TcPort → TcPort} {a2 : State} (hM : 4194304 ||| M = M) (h0 : Keeps M s0 a2) :
    Keeps M s0 (updTcp a0 a1 a2) := by
  unfold updTcp
  refine setTcp_keeps (sub hM rfl) ?_
  exact h0

theorem setTc_keeps {M : Nat} {s0 : State} {a0 : Nat} {a1 : Nat} {a2 : State} (hM : 2 ||| M = M) (h0 : Keeps M s0 a2) :
    Keeps M s0 (setTc a0 a1 a2) := by
  unfold setTc
  refine wr_keeps (sub hM rfl) ?_
  exact h0

theorem setPe_keeps {M : Nat} {s0 : State} {a0 : Nat} {a1 : Nat} {a2 : State} (hM : 2 ||| M = M) (h0 : Keeps M s0 a2) :
    Keeps M s0 (setPe a0 a1 a2) := by
  unfold setPe
  refine wr_keeps (sub hM rfl) ?_
  exact h0

theorem tcEvt_keeps {M : Nat} {s0 : State} {a0 : Fld} {a1 : Nat} {a2 : State} (hM : 18 ||| M = M) (h0 : Keeps M s0 a2) :
    Keeps M s0 (tcEvt a0 a1 a2) := by
  unfold tcEvt
  refine raise_keeps (sub hM rfl) ?_
  refine wr_keeps (sub hM rfl) ?_
  exact h0

theorem pdSend_keeps {M : Nat} {s0 : State} {a0 : Nat} {a1 : PdMsg} {a2 : State} (hM : 4194304 ||| M = M) (h0 : Keeps M s0 a2) :
    Keeps M s0 (pdSend a0 a1 a2) := by
  unfold pdSend
  refine updTcp_keeps (sub hM rfl) ?_
  exact h0

theorem notSup_keeps {M : Nat} {s0 : State} {a0 : Nat} {a1 : State} (hM : 4194304 ||| M = M) (h0 : Keeps M s0 a1) :
    Keeps M s0 (notSup a0 a1) := by
  unfold notSup
  refine pdSend_keeps (sub hM rfl) ?_
  exact h0

theorem powerFreed_keeps {M : Nat} {s0 : State} {a0 : Nat} {a1 : State} (hM : 4194304 ||| M = M) (h0 : Keeps M s0 a1) :
    Keeps M s0 (powerFreed a0 a1) := by
  unfold powerFreed
  refine forAll_keeps (sub hM rfl) ?_ ?_
  · intro w0 w1 k2
    refine updTcp_keeps (sub hM rfl) ?_
    exact k2
  · exact h0

theorem setAlloc_keeps {M : Nat} {s0 : State} {a0 : Nat} {a1 : Nat} {a2 : State} (hM : 4194304 ||| M = M) (h0 : Keeps M s0 a2) :
    Keeps M s0 (setAlloc a0 a1 a2) := by
  unfold setAlloc
  extract_lets +onlyGivenNames -lift x0
  clear_value x0
  extract_lets +onlyGivenNames -lift x1
  have g2 : Keeps M s0 x1 := by
    refine updTcp_keeps (sub hM rfl) ?_
    exact h0
  clear_value x1
  refine Keeps.ite ?_ ?_
  · refine powerFreed_keeps (sub hM rfl) ?_
    exact g2
  · exact g2

theorem sendCaps_keeps {M : Nat} {s0 : State} {a0 : Nat} {a1 : Bool} {a2 : State} (hM : 4194306 ||| M = M) (h0 : Keeps M s0 a2) :
    Keeps M s0 (sendCaps a0 a1 a2) := by
  unfold sendCaps
  extract_lets +onlyGivenNames -lift x0
  clear_value x0
  extract_lets +onlyGivenNames -lift x1
  clear_value x1
  refine setPe_keeps (sub hM rfl) ?_
  refine pdSend_keeps (sub hM rfl) ?_
  refine updTcp_keeps (sub hM rfl) ?_
  exact h0

theorem firstOffer_keeps {M : Nat} {s0 : State} {a0 : Nat} {a1 : State} (hM : 4194306 ||| M = M) (h0 : Keeps M s0 a1) :
    Keeps M s0 (firstOffer a0 a1) := by
  unfold firstOffer
  refine Keeps.ite ?_ ?_
  · refine sendCaps_keeps (sub hM rfl) ?_
    exact h0
  · refine setPe_keeps (sub hM rfl) ?_
    exact h0

theorem startPd_keeps {M : Nat} {s0 : State} {a0 : Nat} {a1 : State} (hM : 4194306 ||| M = M) (h0 : Keeps M s0 a1) :
    Keeps M s0 (startPd a0 a1) := by
  unfold startPd
  refine Keeps.ite ?_ ?_
  · refine setPe_keeps (sub hM rfl) ?_
    refine pdSend_keeps (sub hM rfl) ?_
    refine updTcp_keeps (sub hM rfl) ?_
    exact h0
  · refine firstOffer_keeps (sub hM rfl) ?_
    exact h0

theorem vconnOn_keeps {M : Nat} {s0 : State} {a0 : Nat} {a1 : State} (hM : 2 ||| M = M) (h0 : Keeps M s0 a1) :
    Keeps M s0 (vconnOn a0 a1) := by
  unfold vconnOn
  refine Keeps.ite ?_ ?_
  · refine wr_keeps (sub hM rfl) ?_
    exact h0
  · exact h0

theorem vbusOff_keeps {M : Nat} {s0 : State} {a0 : Nat} {a1 : State} (hM : 4194304 ||| M = M) (h0 : Keeps M s0 a1) :
    Keeps M s0 (vbusOff a0 a1) := by
  unfold vbusOff
  refine Keeps.ite ?_ ?_
  · refine updTcp_keeps (sub hM rfl) ?_
    exact h0
  · exact h0

theorem claimHead_keeps {M : Nat} {s0 : State} {a0 : Nat} {a1 : State} (hM : 4194322 ||| M = M) (h0 : Keeps M s0 a1) :
    Keeps M s0 (claimHead a0 a1) := by
  unfold claimHead
  extract_lets +onlyGivenNames -lift x0
  clear_value x0
  extract_lets +onlyGivenNames -lift x1
  clear_value x1
  split
  · refine tcEvt_keeps (sub hM rfl) ?_
    refine wr_keeps (sub hM rfl) ?_
    refine updTcp_keeps (sub hM rfl) ?_
    exact h0
  · refine pdSend_keeps (sub hM rfl) ?_
    refine updTcp_keeps (sub hM rfl) ?_
    exact h0

theorem leaveAlt_keeps {M : Nat} {s0 : State} {a0 : Nat} {a1 : Bool} {a2 : State} (hM : 37919894 ||| M = M) (h0 : Keeps M s0 a2) :
    Keeps M s0 (leaveAlt a0 a1 a2) := by
  unfold leaveAlt
  extract_lets +onlyGivenNames -lift x0
  clear_value x0
  extract_lets +onlyGivenNames -lift x1
  have g2 : Keeps M s0 x1 := by
    refine Keeps.ite ?_ ?_
    · refine pdSend_keeps (sub hM rfl) ?_
      exact h0
    · exact h0
  clear_value x1
  extract_lets +onlyGivenNames -lift x3
  have g4 : Keeps M s0 x3 := by
    refine Keeps.ite ?_ ?_
    · refine tcEvt_keeps (sub hM rfl) ?_
      refine wr_keeps (sub hM rfl) ?_
      refine wr_keeps (sub hM rfl) ?_
      refine wr_keeps (sub hM rfl) ?_
      refine wr_keeps (sub hM rfl) ?_
      refine wr_keeps (sub hM rfl) ?_
      exact g2
    · exact g2
  clear_value x3
  extract_lets +onlyGivenNames -lift x5
  have g6 : Keeps M s0 x5 := by
    refine Keeps.ite ?_ ?_
    · refine hubReroute_keeps (sub hM rfl) ?_
      exact g4
    · exact g4
  clear_value x5
  extract_lets +onlyGivenNames -lift x7
  have g8 : Keeps M s0 x7 := by
    refine updTcp_keeps (sub hM rfl) ?_
    exact g6
  clear_value x7
  refine Keeps.ite ?_ ?_
  · exact h0
  · refine Keeps.ite ?_ ?_
    · split
      · refine claimHead_keeps (sub hM rfl) ?_
        exact g8
      · exact g8
    · exact g8

theorem tvLeft_keeps {M : Nat} {s0 : State} {a0 : State} (hM : 37919894 ||| M = M) (h0 : Keeps M s0 a0) :
    Keeps M s0 (tvLeft a0) := by
  unfold tvLeft
  refine forAll_keeps (sub hM rfl) ?_ ?_
  · intro w0 w1 k2
    refine Keeps.ite ?_ ?_
    · refine leaveAlt_keeps (sub hM rfl) ?_
      exact k2
    · exact k2
  · exact h0

theorem dropContract_keeps {M : Nat} {s0 : State} {a0 : Nat} {a1 : State} (hM : 4194306 ||| M = M) (h0 : Keeps M s0 a1) :
    Keeps M s0 (dropContract a0 a1) := by
  unfold dropContract
  extract_lets +onlyGivenNames -lift x0
  have g1 : Keeps M s0 x0 := by
    refine wr_keeps (sub hM rfl) ?_
    refine wr_keeps (sub hM rfl) ?_
    refine wr_keeps (sub hM rfl) ?_
    refine wr_keeps (sub hM rfl) ?_
    refine wr_keeps (sub hM rfl) ?_
    exact h0
  clear_value x0
  refine updTcp_keeps (sub hM rfl) ?_
  exact g1

theorem release_keeps {M : Nat} {s0 : State} {a0 : Nat} {a1 : State} (hM : 37919894 ||| M = M) (h0 : Keeps M s0 a1) :
    Keeps M s0 (release a0 a1) := by
  unfold release
  extract_lets +onlyGivenNames -lift x0
  have g1 : Keeps M s0 x0 := by
    refine hubDrop_keeps (sub hM rfl) ?_
    refine vbusOff_keeps (sub hM rfl) ?_
    refine wr_keeps (sub hM rfl) ?_
    refine wr_keeps (sub hM rfl) ?_
    refine dropContract_keeps (sub hM rfl) ?_
    refine leaveAlt_keeps (sub hM rfl) ?_
    exact h0
  clear_value x0
  extract_lets +onlyGivenNames -lift x2
  have g3 : Keeps M s0 x2 := by
    refine setPe_keeps (sub hM rfl) ?_
    refine wr_keeps (sub hM rfl) ?_
    refine wr_keeps (sub hM rfl) ?_
    refine wr_keeps (sub hM rfl) ?_
    exact g1
  clear_value x2
  refine setAlloc_keeps (sub hM rfl) ?_
  refine updTcp_keeps (sub hM rfl) ?_
  exact g3

theorem toRecovery_keeps {M : Nat} {s0 : State} {a0 : Nat} {a1 : State} (hM : 37919894 ||| M = M) (h0 : Keeps M s0 a1) :
    Keeps M s0 (toRecovery a0 a1) := by
  unfold toRecovery
  refine setTc_keeps (sub hM rfl) ?_
  refine updTcp_keeps (sub hM rfl) ?_
  refine release_keeps (sub hM rfl) ?_
  exact h0

theorem vbusUp_keeps {M : Nat} {s0 : State} {a0 : Nat} {a1 : State} (hM : 4194306 ||| M = M) (h0 : Keeps M s0 a1) :
    Keeps M s0 (vbusUp a0 a1) := by
  unfold vbusUp
  refine startPd_keeps (sub hM rfl) ?_
  refine setTc_keeps (sub hM rfl) ?_
  refine updTcp_keeps (sub hM rfl) ?_
  exact h0

theorem attach_keeps {M : Nat} {s0 : State} {a0 : Nat} {a1 : Bool} {a2 : Bool} {a3 : State} (hM : 4194322 ||| M = M) (h0 : Keeps M s0 a3) :
    Keeps M s0 (attach a0 a1 a2 a3) := by
  unfold attach
  extract_lets +onlyGivenNames -lift x0
  clear_value x0
  extract_lets +onlyGivenNames -lift x1
  have g2 : Keeps M s0 x1 := by
    refine wr_keeps (sub hM rfl) ?_
    refine wr_keeps (sub hM rfl) ?_
    refine updTcp_keeps (sub hM rfl) ?_
    exact h0
  clear_value x1
  extract_lets +onlyGivenNames -lift x3
  have g4 : Keeps M s0 x3 := by
    refine Keeps.ite ?_ ?_
    · refine vconnOn_keeps (sub hM rfl) ?_
      refine wr_keeps (sub hM rfl) ?_
      exact g2
    · exact g2
  clear_value x3
  extract_lets +onlyGivenNames -lift x5
  clear_value x5
  extract_lets +onlyGivenNames -lift x6
  clear_value x6
  extract_lets +onlyGivenNames -lift x7
  clear_value x7
  extract_lets +onlyGivenNames -lift x8
  have g9 : Keeps M s0 x8 := by
    refine setTc_keeps (sub hM rfl) ?_
    refine wr_keeps (sub hM rfl) ?_
    exact g4
  clear_value x8
  extract_lets +onlyGivenNames -lift x10
  have g11 : Keeps M s0 x10 := by
    refine tcEvt_keeps (sub hM rfl) ?_
    refine setAlloc_keeps (sub hM rfl) ?_
    exact g9
  clear_value x10
  refine Keeps.ite ?_ ?_
  · exact h0
  · refine Keeps.ite ?_ ?_
    · refine updTcp_keeps (sub hM rfl) ?_
      exact h0
    · refine Keeps.ite ?_ ?_
      · refine vbusUp_keeps (sub hM rfl) ?_
        exact g11
      · exact g11

theorem hardReset_keeps {M : Nat} {s0 : State} {a0 : Nat} {a1 : Bool} {a2 : State} (hM : 37919894 ||| M = M) (h0 : Keeps M s0 a2) :
    Keeps M s0 (hardReset a0 a1 a2) := by
  unfold hardReset
  extract_lets +onlyGivenNames -lift x0
  clear_value x0
  extract_lets +onlyGivenNames -lift x1
  have g2 : Keeps M s0 x1 := by
    refine Keeps.ite ?_ ?_
    · refine pdSend_keeps (sub hM rfl) ?_
      exact h0
    · exact h0
  clear_value x1
  extract_lets +onlyGivenNames -lift x3
  have g4 : Keeps M s0 x3 := by
    refine tcEvt_keeps (sub hM rfl) ?_
    refine dropContract_keeps (sub hM rfl) ?_
    refine leaveAlt_keeps (sub hM rfl) ?_
    exact g2
  clear_value x3
  extract_lets +onlyGivenNames -lift x5
  have g6 : Keeps M s0 x5 := by
    refine hubDrop_keeps (sub hM rfl) ?_
    refine vbusOff_keeps (sub hM rfl) ?_
    refine wr_keeps (sub hM rfl) ?_
    exact g4
  clear_value x5
  refine Keeps.ite ?_ ?_
  · exact h0
  · refine setPe_keeps (sub hM rfl) ?_
    refine wr_keeps (sub hM rfl) ?_
    refine wr_keeps (sub hM rfl) ?_
    refine updTcp_keeps (sub hM rfl) ?_
    exact g6

theorem takeFrom_keeps {M : Nat} {s0 : State} {a0 : Nat} {a1 : Nat × State} (hM : 4194306 ||| M = M) (h0 : Keeps2 M s0 a1) :
    Keeps2 M s0 (takeFrom a0 a1) := by
  unfold takeFrom
  split
  · rename_i y1 y2 y3
    have g4 : Keeps M s0 y3 := h0
    extract_lets +onlyGivenNames -lift x5
    clear_value x5
    extract_lets +onlyGivenNames -lift x6
    clear_value x6
    extract_lets +onlyGivenNames -lift x7
    clear_value x7
    refine Keeps2.ite ?_ ?_
    · exact h0
    · refine Keeps2.ite ?_ ?_
      · refine Keeps2.mk ?_
        refine sendCaps_keeps (sub hM rfl) ?_
        refine updTcp_keeps (sub hM rfl) ?_
        exact g4
      · refine Keeps2.ite ?_ ?_
        · refine Keeps2.mk ?_
          refine wr_keeps (sub hM rfl) ?_
          refine updTcp_keeps (sub hM rfl) ?_
          exact g4
        · exact h0

theorem reclaim_keeps {M : Nat} {s0 : State} {a0 : Nat} {a1 : Nat} {a2 : Nat → Bool} {a3 : State} (hM : 4194306 ||| M = M) (h0 : Keeps M s0 a3) :
    Keeps M s0 (reclaim a0 a1 a2 a3) := by
  unfold reclaim
  refine Keeps2.snd ?_
  refine Keeps2.foldl ?_ _ ?_
  · intro w0 w1 k2
    refine takeFrom_keeps (sub hM rfl) ?_
    exact k2
  · refine Keeps2.mk ?_
    exact h0

theorem reclaimAll_keeps {M : Nat} {s0 : State} {a0 : Nat} {a1 : State} (hM : 4194306 ||| M = M) (h0 : Keeps M s0 a1) :
    Keeps M s0 (reclaimAll a0 a1) := by
  unfold reclaimAll
  extract_lets +onlyGivenNames -lift x0
  clear_value x0
  refine Keeps.ite ?_ ?_
  · refine reclaim_keeps (sub hM rfl) ?_
    exact h0
  · exact h0

theorem pdpShow_keeps {M : Nat} {s0 : State} {a0 : Nat} {a1 : State} (hM : 2 ||| M = M) (h0 : Keeps M s0 a1) :
    Keeps M s0 (pdpShow a0 a1) := by
  unfold pdpShow
  extract_lets +onlyGivenNames -lift x0
  clear_value x0
  extract_lets +onlyGivenNames -lift x1
  clear_value x1
  extract_lets +onlyGivenNames -lift x2
  have g3 : Keeps M s0 x2 := by
    refine forAll_keeps (sub hM rfl) ?_ ?_
    · intro w4 w5 k6
      refine wr_keeps (sub hM rfl) ?_
      exact k6
    · exact h0
  clear_value x2
  extract_lets +onlyGivenNames -lift x7
  have g8 : Keeps M s0 x7 := by
    refine wr_keeps (sub hM rfl) ?_
    refine wr_keeps (sub hM rfl) ?_
    refine wr_keeps (sub hM rfl) ?_
    refine wr_keeps (sub hM rfl) ?_
    exact g3
  clear_value x7
  extract_lets +onlyGivenNames -lift x9
  have g10 : Keeps M s0 x9 := by
    refine wr_keeps (sub hM rfl) ?_
    exact g8
  clear_value x9
  refine wr_keeps (sub hM rfl) ?_
  refine wr_keeps (sub hM rfl) ?_
  exact g10

theorem attachHeld_keeps {M : Nat} {s0 : State} {a0 : Nat} {a1 : State} (hM : 4194322 ||| M = M) (h0 : Keeps M s0 a1) :
    Keeps M s0 (attachHeld a0 a1) := by
  unfold attachHeld
  split
  · refine attach_keeps (sub hM rfl) ?_
    exact h0
  · exact h0

theorem unblock_keeps {M : Nat} {s0 : State} {a0 : Nat} {a1 : State} (hM : 4194322 ||| M = M) (h0 : Keeps M s0 a1) :
    Keeps M s0 (unblock a0 a1) := by
  unfold unblock
  refine Keeps.ite ?_ ?_
  · refine attachHeld_keeps (sub hM rfl) ?_
    refine updTcp_keeps (sub hM rfl) ?_
    exact h0
  · exact h0

theorem reevaluate_keeps {M : Nat} {s0 : State} {a0 : Nat} {a1 : State} (hM : 4194306 ||| M = M) (h0 : Keeps M s0 a1) :
    Keeps M s0 (reevaluate a0 a1) := by
  unfold reevaluate
  refine Keeps.ite ?_ ?_
  · exact h0
  · refine Keeps.ite ?_ ?_
    · refine startPd_keeps (sub hM rfl) ?_
      exact h0
    · refine Keeps.ite ?_ ?_
      · refine sendCaps_keeps (sub hM rfl) ?_
        exact h0
      · exact h0

theorem reevaluateAll_keeps {M : Nat} {s0 : State} {a0 : Nat} {a1 : Nat × List Nat} {a2 : State} (hM : 4194306 ||| M = M) (h0 : Keeps M s0 a2) :
    Keeps M s0 (reevaluateAll a0 a1 a2) := by
  unfold reevaluateAll
  refine Keeps.ite ?_ ?_
  · exact h0
  · refine forAll_keeps (sub hM rfl) ?_ ?_
    · intro w0 w1 k2
      refine reevaluate_keeps (sub hM rfl) ?_
      exact k2
    · exact h0

theorem tuEvent_keeps {M : Nat} {s0 : State} {a0 : Nat} {a1 : State → State} {a2 : State} (hM : 4194322 ||| M = M) (h0 : ∀ v0, Keeps M s0 v0 → Keeps M s0 (a1 v0)) (h1 : Keeps M s0 a2) :
    Keeps M s0 (tuEvent a0 a1 a2) := by
  unfold tuEvent
  extract_lets +onlyGivenNames -lift x0
  have g1 : Keeps M s0 x0 := by
    refine forAll_keeps (sub hM rfl) ?_ ?_
    · intro w2 w3 k4
      refine Keeps.ite ?_ ?_
      · exact k4
      · refine updTcp_keeps (sub hM rfl) ?_
        exact k4
    · exact h1
  clear_value x0
  refine Keeps.ite ?_ ?_
  · refine pdpShow_keeps (sub hM rfl) ?_
    refine reevaluateAll_keeps (sub hM rfl) ?_
    refine forAll_keeps (sub hM rfl) ?_ ?_
    · intro w5 w6 k7
      refine unblock_keeps (sub hM rfl) ?_
      exact k7
    · refine h0 _ ?_
      exact g1
  · exact h1

theorem tcEvent_keeps {M : Nat} {s0 : State} {a0 : Nat} {a1 : State → State} {a2 : State} (hM : 4194322 ||| M = M) (h0 : ∀ v0, Keeps M s0 v0 → Keeps M s0 (a1 v0)) (h1 : Keeps M s0 a2) :
    Keeps M s0 (tcEvent a0 a1 a2) := by
  unfold tcEvent
  refine tuEvent_keeps (sub hM rfl) ?_ ?_
  · intro w0 k1
    refine h0 _ ?_
    exact k1
  · exact h1

theorem execCcAttach_keeps {M : Nat} {s0 : State} {a0 : Fin 8} {a1 : Bool} {a2 : Bool} {a3 : State} (hM : 4194322 ||| M = M) (h0 : Keeps M s0 a3) :
    KeepsR M s0 (execCcAttach a0 a1 a2 a3) := by
  unfold execCcAttach
  refine KeepsR.next ?_
  refine tcEvent_keeps (sub hM rfl) ?_ ?_
  · intro w0 k1
    refine attach_keeps (sub hM rfl) ?_
    exact k1
  · exact h0

theorem detach_keeps {M : Nat} {s0 : State} {a0 : Nat} {a1 : State} (hM : 37919894 ||| M = M) (h0 : Keeps M s0 a1) :
    Keeps M s0 (detach a0 a1) := by
  unfold detach
  extract_lets +onlyGivenNames -lift x0
  have g1 : Keeps M s0 x0 := by
    refine Keeps.ite ?_ ?_
    · refine tcEvt_keeps (sub hM rfl) ?_
      exact h0
    · exact h0
  clear_value x0
  extract_lets +onlyGivenNames -lift x2
  have g3 : Keeps M s0 x2 := by
    refine tcEvt_keeps (sub hM rfl) ?_
    refine release_keeps (sub hM rfl) ?_
    exact g1
  clear_value x2
  refine Keeps.ite ?_ ?_
  · refine setTc_keeps (sub hM rfl) ?_
    exact g3
  · refine updTcp_keeps (sub hM rfl) ?_
    exact h0

theorem execCcDetach_keeps {M : Nat} {s0 : State} {a0 : Fin 8} {a1 : State} (hM : 37919894 ||| M = M) (h0 : Keeps M s0 a1) :
    KeepsR M s0 (execCcDetach a0 a1) := by
  unfold execCcDetach
  refine KeepsR.next ?_
  refine tcEvent_keeps (sub hM rfl) ?_ ?_
  · intro w0 k1
    refine detach_keeps (sub hM rfl) ?_
    exact k1
  · exact h0

theorem execVbusSafe0vReached_keeps {M : Nat} {s0 : State} {a0 : Fin 8} {a1 : State} (hM : 4194322 ||| M = M) (h0 : Keeps M s0 a1) :
    KeepsR M s0 (execVbusSafe0vReached a0 a1) := by
  unfold execVbusSafe0vReached
  extract_lets +onlyGivenNames -lift x0
  clear_value x0
  refine KeepsR.next ?_
  refine tcEvent_keeps (sub hM rfl) ?_ ?_
  · intro w3 k4
    extract_lets +onlyGivenNames -lift x5
    have g6 : Keeps M s0 x5 := by
      refine updTcp_keeps (sub hM rfl) ?_
      exact k4
    clear_value x5
    refine Keeps.ite ?_ ?_
    · exact k4
    · refine Keeps.ite ?_ ?_
      · refine setTc_keeps (sub hM rfl) ?_
        exact g6
      · refine Keeps.ite ?_ ?_
        · refine setAlloc_keeps (sub hM rfl) ?_
          refine updTcp_keeps (sub hM rfl) ?_
          exact g6
        · exact g6
  · exact h0

theorem execVbusEnable_keeps {M : Nat} {s0 : State} {a0 : Fin 8} {a1 : State} (hM : 4194322 ||| M = M) (h0 : Keeps M s0 a1) :
    KeepsR M s0 (execVbusEnable a0 a1) := by
  unfold execVbusEnable
  extract_lets +onlyGivenNames -lift x0
  clear_value x0
  refine KeepsR.next ?_
  refine tcEvent_keeps (sub hM rfl) ?_ ?_
  · intro w3 k4
    extract_lets +onlyGivenNames -lift x5
    have g6 : Keeps M s0 x5 := by
      refine Keeps.ite ?_ ?_
      · refine vconnOn_keeps (sub hM rfl) ?_
        refine wr_keeps (sub hM rfl) ?_
        exact k4
      · exact k4
    clear_value x5
    extract_lets +onlyGivenNames -lift x7
    have g8 : Keeps M s0 x7 := by
      refine Keeps.ite ?_ ?_
      · refine wr_keeps (sub hM rfl) ?_
        exact g6
      · exact g6
    clear_value x7
    refine Keeps.ite ?_ ?_
    · refine vbusUp_keeps (sub hM rfl) ?_
      refine setAlloc_keeps (sub hM rfl) ?_
      exact g8
    · exact k4
  · exact h0

theorem execVbusOc_keeps {M : Nat} {s0 : State} {a0 : Fin 8} {a1 : State} (hM : 37919894 ||| M = M) (h0 : Keeps M s0 a1) :
    KeepsR M s0 (execVbusOc a0 a1) := by
  unfold execVbusOc
  extract_lets +onlyGivenNames -lift x0
  clear_value x0
  refine KeepsR.next ?_
  refine tcEvent_keeps (sub hM rfl) ?_ ?_
  · intro w3 k4
    extract_lets +onlyGivenNames -lift x5
    clear_value x5
    extract_lets +onlyGivenNames -lift x6
    have g7 : Keeps M s0 x6 := by
      refine tcEvt_keeps (sub hM rfl) ?_
      refine hardReset_keeps (sub hM rfl) ?_
      refine updTcp_keeps (sub hM rfl) ?_
      exact k4
    clear_value x6
    refine Keeps.ite ?_ ?_
    · refine Keeps.ite ?_ ?_
      · refine wr_keeps (sub hM rfl) ?_
        refine toRecovery_keeps (sub hM rfl) ?_
        exact g7
      · exact g7
    · exact k4
  · exact h0

theorem warnPort_keeps {M : Nat} {s0 : State} {a0 : Nat} {a1 : State} (hM : 37919894 ||| M = M) (h0 : Keeps M s0 a1) :
    Keeps M s0 (warnPort a0 a1) := by
  unfold warnPort
  refine Keeps.ite ?_ ?_
  · refine toRecovery_keeps (sub hM rfl) ?_
    exact h0
  · exact h0

theorem markWarned_keeps {M : Nat} {s0 : State} {a0 : Bool} {a1 : State} (hM : 4194304 ||| M = M) (h0 : Keeps M s0 a1) :
    Keeps M s0 (markWarned a0 a1) := by
  unfold markWarned
  refine forAll_keeps (sub hM rfl) ?_ ?_
  · intro w0 w1 k2
    refine updTcp_keeps (sub hM rfl) ?_
    exact k2
  · exact h0

theorem warnPorts_keeps {M : Nat} {s0 : State} {a0 : State} (hM : 37919894 ||| M = M) (h0 : Keeps M s0 a0) :
    Keeps M s0 (warnPorts a0) := by
  unfold warnPorts
  refine forAll_keeps (sub hM rfl) ?_ ?_
  · intro w0 w1 k2
    refine tuEvent_keeps (sub hM rfl) ?_ ?_
    · intro w3 k4
      refine forAll_keeps (sub hM rfl) ?_ ?_
      · intro w5 w6 k7
        refine warnPort_keeps (sub hM rfl) ?_
        exact k7
      · exact k4
    · exact k2
  · refine markWarned_keeps (sub hM rfl) ?_
    exact h0

theorem presentRp_keeps {M : Nat} {s0 : State} {a0 : Nat} {a1 : State} (hM : 2 ||| M = M) (h0 : Keeps M s0 a1) :
    Keeps M s0 (presentRp a0 a1) := by
  unfold presentRp
  refine Keeps.ite ?_ ?_
  · refine setTc_keeps (sub hM rfl) ?_
    exact h0
  · exact h0

theorem recovered_keeps {M : Nat} {s0 : State} {a0 : Nat} {a1 : State} (hM : 4194322 ||| M = M) (h0 : Keeps M s0 a1) :
    Keeps M s0 (recovered a0 a1) := by
  unfold recovered
  refine attachHeld_keeps (sub hM rfl) ?_
  refine presentRp_keeps (sub hM rfl) ?_
  refine updTcp_keeps (sub hM rfl) ?_
  exact h0

theorem execPwrwarnReleaseTimer_keeps {M : Nat} {s0 : State} {a0 : State} (hM : 4194322 ||| M = M) (h0 : Keeps M s0 a0) :
    KeepsR M s0 (execPwrwarnReleaseTimer a0) := by
  unfold execPwrwarnReleaseTimer
  refine KeepsR.ite ?_ ?_
  · refine KeepsR.next ?_
    exact h0
  · refine KeepsR.next ?_
    refine forAll_keeps (sub hM rfl) ?_ ?_
    · intro w0 w1 k2
      refine tuEvent_keeps (sub hM rfl) ?_ ?_
      · intro w3 k4
        refine forAll_keeps (sub hM rfl) ?_ ?_
        · intro w5 w6 k7
          refine recovered_keeps (sub hM rfl) ?_
          exact k7
        · exact k4
      · exact k2
    · refine markWarned_keeps (sub hM rfl) ?_
      exact h0

theorem execErrorRecoveryEnd_keeps {M : Nat} {s0 : State} {a0 : Fin 8} {a1 : State} (hM : 4194322 ||| M = M) (h0 : Keeps M s0 a1) :
    KeepsR M s0 (execErrorRecoveryEnd a0 a1) := by
  unfold execErrorRecoveryEnd
  refine KeepsR.next ?_
  refine tcEvent_keeps (sub hM rfl) ?_ ?_
  · intro w0 k1
    refine recovered_keeps (sub hM rfl) ?_
    exact k1
  · exact h0

theorem tuReturned_keeps {M : Nat} {s0 : State} {a0 : Nat} {a1 : State} (hM : 4194322 ||| M = M) (h0 : Keeps M s0 a1) :
    Keeps M s0 (tuReturned a0 a1) := by
  unfold tuReturned
  refine tuEvent_keeps (sub hM rfl) ?_ ?_
  · intro w0 k1
    refine forAll_keeps (sub hM rfl) ?_ ?_
    · intro w2 w3 k4
      refine attachHeld_keeps (sub hM rfl) ?_
      refine presentRp_keeps (sub hM rfl) ?_
      exact k4
    · exact k1
  · exact h0

theorem tuReset_keeps {M : Nat} {s0 : State} {a0 : Nat} {a1 : State} (hM : 37919894 ||| M = M) (h0 : Keeps M s0 a1) :
    Keeps M s0 (tuReset a0 a1) := by
  unfold tuReset
  refine pdpShow_keeps (sub hM rfl) ?_
  refine forAll_keeps (sub hM rfl) ?_ ?_
  · intro w0 w1 k2
    refine toRecovery_keeps (sub hM rfl) ?_
    exact k2
  · exact h0

theorem execSourceCapRepeat_keeps {M : Nat} {s0 : State} {a0 : Fin 8} {a1 : State} (hM : 4194322 ||| M = M) (h0 : Keeps M s0 a1) :
    KeepsR M s0 (execSourceCapRepeat a0 a1) := by
  unfold execSourceCapRepeat
  extract_lets +onlyGivenNames -lift x0
  clear_value x0
  refine KeepsR.next ?_
  refine tcEvent_keeps (sub hM rfl) ?_ ?_
  · intro w1 k2
    refine Keeps.ite ?_ ?_
    · refine Keeps.ite ?_ ?_
      · refine sendCaps_keeps (sub hM rfl) ?_
        exact k2
      · refine setPe_keeps (sub hM rfl) ?_
        exact k2
    · exact k2
  · exact h0

theorem refuse_keeps {M : Nat} {s0 : State} {a0 : Nat} {a1 : State} (hM : 4194306 ||| M = M) (h0 : Keeps M s0 a1) :
    Keeps M s0 (refuse a0 a1) := by
  unfold refuse
  refine sendCaps_keeps (sub hM rfl) ?_
  refine pdSend_keeps (sub hM rfl) ?_
  exact h0

theorem onRequest_keeps {M : Nat} {s0 : State} {a0 : Nat} {a1 : Nat} {a2 : Nat} {a3 : State} (hM : 4194322 ||| M = M) (h0 : Keeps M s0 a3) :
    Keeps M s0 (onRequest a0 a1 a2 a3) := by
  unfold onRequest
  extract_lets +onlyGivenNames -lift x0
  have g1 : Keeps M s0 x0 := by
    refine updTcp_keeps (sub hM rfl) ?_
    exact h0
  clear_value x0
  extract_lets +onlyGivenNames -lift x2
  clear_value x2
  extract_lets +onlyGivenNames -lift x3
  clear_value x3
  extract_lets +onlyGivenNames -lift x4
  have g5 : Keeps M s0 x4 := by
    refine tcEvt_keeps (sub hM rfl) ?_
    refine pdSend_keeps (sub hM rfl) ?_
    exact g1
  clear_value x4
  extract_lets +onlyGivenNames -lift x6
  clear_value x6
  refine Keeps.ite ?_ ?_
  · exact h0
  · split
    · refine refuse_keeps (sub hM rfl) ?_
      exact g1
    · extract_lets +onlyGivenNames -lift x9
      clear_value x9
      extract_lets +onlyGivenNames -lift x10
      have g11 : Keeps M s0 x10 := by
        refine wr_keeps (sub hM rfl) ?_
        refine updTcp_keeps (sub hM rfl) ?_
        exact g1
      clear_value x10
      extract_lets +onlyGivenNames -lift x12
      clear_value x12
      extract_lets +onlyGivenNames -lift x13
      have g14 : Keeps M s0 x13 := by
        refine wr_keeps (sub hM rfl) ?_
        refine updTcp_keeps (sub hM rfl) ?_
        exact g5
      clear_value x13
      extract_lets +onlyGivenNames -lift x15
      have g16 : Keeps M s0 x15 := by
        refine setPe_keeps (sub hM rfl) ?_
        exact g14
      clear_value x15
      extract_lets +onlyGivenNames -lift x17
      clear_value x17
      refine Keeps.ite ?_ ?_
      · refine refuse_keeps (sub hM rfl) ?_
        exact g1
      · refine Keeps.ite ?_ ?_
        · refine setPe_keeps (sub hM rfl) ?_
          refine pdSend_keeps (sub hM rfl) ?_
          exact g11
        · refine Keeps.ite ?_ ?_
          · refine Keeps.ite ?_ ?_
            · refine sendCaps_keeps (sub hM rfl) ?_
              refine wr_keeps (sub hM rfl) ?_
              refine updTcp_keeps (sub hM rfl) ?_
              exact g5
            · refine reclaim_keeps (sub hM rfl) ?_
              exact g16
          · refine refuse_keeps (sub hM rfl) ?_
            exact g1

theorem execRequest_keeps {M : Nat} {s0 : State} {a0 : Fin 8} {a1 : BitVec 4} {a2 : BitVec 10} {a3 : Bool} {a4 : State} (hM : 4194322 ||| M = M) (h0 : Keeps M s0 a4) :
    KeepsR M s0 (execRequest a0 a1 a2 a3 a4) := by
  unfold execRequest
  refine KeepsR.next ?_
  refine tcEvent_keeps (sub hM rfl) ?_ ?_
  · intro w0 k1
    refine onRequest_keeps (sub hM rfl) ?_
    refine Keeps.ite ?_ ?_
    · refine updTcp_keeps (sub hM rfl) ?_
      exact k1
    · exact k1
  · exact h0

theorem execSenderResponseTimeout_keeps {M : Nat} {s0 : State} {a0 : Fin 8} {a1 : State} (hM : 37919894 ||| M = M) (h0 : Keeps M s0 a1) :
    KeepsR M s0 (execSenderResponseTimeout a0 a1) := by
  unfold execSenderResponseTimeout
  refine KeepsR.next ?_
  refine tcEvent_keeps (sub hM rfl) ?_ ?_
  · intro w0 k1
    refine Keeps.ite ?_ ?_
    · refine hardReset_keeps (sub hM rfl) ?_
      exact k1
    · exact k1
  · exact h0

theorem execSrcTransitionStart_keeps {M : Nat} {s0 : State} {a0 : Fin 8} {a1 : State} (hM : 4194322 ||| M = M) (h0 : Keeps M s0 a1) :
    KeepsR M s0 (execSrcTransitionStart a0 a1) := by
  unfold execSrcTransitionStart
  refine KeepsR.next ?_
  refine tcEvent_keeps (sub hM rfl) ?_ ?_
  · intro w0 k1
    refine Keeps.ite ?_ ?_
    · refine updTcp_keeps (sub hM rfl) ?_
      exact k1
    · exact k1
  · exact h0

theorem startDiscovery_keeps {M : Nat} {s0 : State} {a0 : Nat} {a1 : State} (hM : 4194304 ||| M = M) (h0 : Keeps M s0 a1) :
    Keeps M s0 (startDiscovery a0 a1) := by
  unfold startDiscovery
  refine Keeps.ite ?_ ?_
  · refine pdSend_keeps (sub hM rfl) ?_
    refine updTcp_keeps (sub hM rfl) ?_
    exact h0
  · exact h0

theorem execVbusSettled_keeps {M : Nat} {s0 : State} {a0 : Fin 8} {a1 : State} (hM : 4194322 ||| M = M) (h0 : Keeps M s0 a1) :
    KeepsR M s0 (execVbusSettled a0 a1) := by
  unfold execVbusSettled
  extract_lets +onlyGivenNames -lift x0
  clear_value x0
  refine KeepsR.next ?_
  refine tcEvent_keeps (sub hM rfl) ?_ ?_
  · intro w3 k4
    extract_lets +onlyGivenNames -lift x5
    clear_value x5
    split
    · exact k4
    · extract_lets +onlyGivenNames -lift x7
      have g8 : Keeps M s0 x7 := by
        refine wr_keeps (sub hM rfl) ?_
        refine wr_keeps (sub hM rfl) ?_
        refine wr_keeps (sub hM rfl) ?_
        refine wr_keeps (sub hM rfl) ?_
        exact k4
      clear_value x7
      extract_lets +onlyGivenNames -lift x9
      have g10 : Keeps M s0 x9 := by
        refine updTcp_keeps (sub hM rfl) ?_
        exact g8
      clear_value x9
      extract_lets +onlyGivenNames -lift x11
      have g12 : Keeps M s0 x11 := by
        refine tcEvt_keeps (sub hM rfl) ?_
        refine setPe_keeps (sub hM rfl) ?_
        refine pdSend_keeps (sub hM rfl) ?_
        refine setAlloc_keeps (sub hM rfl) ?_
        exact g10
      clear_value x11
      refine Keeps.ite ?_ ?_
      · exact k4
      · refine reclaimAll_keeps (sub hM rfl) ?_
        refine Keeps.ite ?_ ?_
        · refine startDiscovery_keeps (sub hM rfl) ?_
          exact g12
        · exact g12
  · exact h0

theorem answers_keeps {M : Nat} {s0 : State} {a0 : Nat} {a1 : State → State} {a2 : State} (hM : 4194322 ||| M = M) (h0 : ∀ v0, Keeps M s0 v0 → Keeps M s0 (a1 v0)) (h1 : Keeps M s0 a2) :
    Keeps M s0 (answers a0 a1 a2) := by
  unfold answers
  refine tcEvent_keeps (sub hM rfl) ?_ ?_
  · intro w0 k1
    refine Keeps.ite ?_ ?_
    · refine h0 _ ?_
      exact k1
    · exact k1
  · exact h1

theorem updSvc_keeps {M : Nat} {s0 : State} {a0 : SvcSink → SvcSink} {a1 : State} (hM : 8388608 ||| M = M) (h0 : Keeps M s0 a1) :
    Keeps M s0 (updSvc a0 a1) := by
  unfold updSvc
  refine Keeps.set_svcSink (hit hM rfl) (?_)
  exact h0

theorem svcSends_keeps {M : Nat} {s0 : State} {a0 : List PdMsg} {a1 : State} (hM : 8388608 ||| M = M) (h0 : Keeps M s0 a1) :
    Keeps M s0 (svcSends a0 a1) := by
  unfold svcSends
  refine updSvc_keeps (sub hM rfl) ?_
  exact h0

theorem svcNotSup_keeps {M : Nat} {s0 : State} {a0 : State} (hM : 8388608 ||| M = M) (h0 : Keeps M s0 a0) :
    Keeps M s0 (svcNotSup a0) := by
  unfold svcNotSup
  refine svcSends_keeps (sub hM rfl) ?_
  exact h0

theorem svcEvent_keeps {M : Nat} {s0 : State} {a0 : State → State} {a1 : State} (hM : 8388608 ||| M = M) (h0 : ∀ v0, Keeps M s0 v0 → Keeps M s0 (a0 v0)) (h1 : Keeps M s0 a1) :
    Keeps M s0 (svcEvent a0 a1) := by
  unfold svcEvent
  refine Keeps.ite ?_ ?_
  · refine h0 _ ?_
    refine svcSends_keeps (sub hM rfl) ?_
    exact h1
  · exact h1

theorem pdEvent_keeps {M : Nat} {s0 : State} {a0 : PdPort} {a1 : Nat → State → State} {a2 : State → State} {a3 : State} (hM : 12582930 ||| M = M) (h0 : ∀ v0 v1, Keeps M s0 v1 → Keeps M s0 (a1 v0 v1)) (h1 : ∀ v0, Keeps M s0 v0 → Keeps M s0 (a2 v0)) (h2 : Keeps M s0 a3) :
    Keeps M s0 (pdEvent a0 a1 a2 a3) := by
  unfold pdEvent
  split
  · refine answers_keeps (sub hM rfl) ?_ ?_
    · intro w0 k1
      refine h0 _ _ ?_
      exact k1
    · exact h2
  · refine svcEvent_keeps (sub hM rfl) ?_ ?_
    · intro w2 k3
      refine h1 _ ?_
      exact k3
    · exact h2

theorem execGetSourceCap_keeps {M : Nat} {s0 : State} {a0 : PdPort} {a1 : State} (hM : 12582930 ||| M = M) (h0 : Keeps M s0 a1) :
    KeepsR M s0 (execGetSourceCap a0 a1) := by
  unfold execGetSourceCap
  refine KeepsR.next ?_
  refine pdEvent_keeps (sub hM rfl) ?_ ?_ ?_
  · intro w0 w1 k2
    refine Keeps.ite ?_ ?_
    · refine sendCaps_keeps (sub hM rfl) ?_
      exact k2
    · refine notSup_keeps (sub hM rfl) ?_
      exact k2
  · intro w3 k4
    refine svcNotSup_keeps (sub hM rfl) ?_
    exact k4
  · exact h0

theorem execGetSourceCapExtended_keeps {M : Nat} {s0 : State} {a0 : PdPort} {a1 : State} (hM : 12582930 ||| M = M) (h0 : Keeps M s0 a1) :
    KeepsR M s0 (execGetSourceCapExtended a0 a1) := by
  unfold execGetSourceCapExtended
  refine KeepsR.next ?_
  refine pdEvent_keeps (sub hM rfl) ?_ ?_ ?_
  · intro w0 w1 k2
    refine pdSend_keeps (sub hM rfl) ?_
    exact k2
  · intro w3 k4
    refine svcNotSup_keeps (sub hM rfl) ?_
    exact k4
  · exact h0

theorem execGetSinkCap_keeps {M : Nat} {s0 : State} {a0 : PdPort} {a1 : State} (hM : 12582930 ||| M = M) (h0 : Keeps M s0 a1) :
    KeepsR M s0 (execGetSinkCap a0 a1) := by
  unfold execGetSinkCap
  refine KeepsR.next ?_
  refine pdEvent_keeps (sub hM rfl) ?_ ?_ ?_
  · intro w0 w1 k2
    refine notSup_keeps (sub hM rfl) ?_
    exact k2
  · intro w3 k4
    refine svcSends_keeps (sub hM rfl) ?_
    exact k4
  · exact h0

theorem execGetRevision_keeps {M : Nat} {s0 : State} {a0 : PdPort} {a1 : State} (hM : 12582930 ||| M = M) (h0 : Keeps M s0 a1) :
    KeepsR M s0 (execGetRevision a0 a1) := by
  unfold execGetRevision
  refine KeepsR.next ?_
  refine pdEvent_keeps (sub hM rfl) ?_ ?_ ?_
  · intro w0 w1 k2
    refine pdSend_keeps (sub hM rfl) ?_
    exact k2
  · intro w3 k4
    refine svcSends_keeps (sub hM rfl) ?_
    exact k4
  · exact h0

theorem execSoftReset_keeps {M : Nat} {s0 : State} {a0 : PdPort} {a1 : State} (hM : 12582930 ||| M = M) (h0 : Keeps M s0 a1) :
    KeepsR M s0 (execSoftReset a0 a1) := by
  unfold execSoftReset
  refine KeepsR.next ?_
  refine pdEvent_keeps (sub hM rfl) ?_ ?_ ?_
  · intro w0 w1 k2
    refine pdSend_keeps (sub hM rfl) ?_
    exact k2
  · intro w3 k4
    refine svcSends_keeps (sub hM rfl) ?_
    exact k4
  · exact h0

theorem svcNoContract_keeps {M : Nat} {s0 : State} {a0 : State} (hM : 8388610 ||| M = M) (h0 : Keeps M s0 a0) :
    Keeps M s0 (svcNoContract a0) := by
  unfold svcNoContract
  refine wr_keeps (sub hM rfl) ?_
  refine wr_keeps (sub hM rfl) ?_
  refine wr_keeps (sub hM rfl) ?_
  refine wr_keeps (sub hM rfl) ?_
  refine updSvc_keeps (sub hM rfl) ?_
  exact h0

theorem execHardReset_keeps {M : Nat} {s0 : State} {a0 : PdPort} {a1 : Bool} {a2 : State} (hM : 46308502 ||| M = M) (h0 : Keeps M s0 a2) :
    KeepsR M s0 (execHardReset a0 a1 a2) := by
  unfold execHardReset
  refine KeepsR.next ?_
  refine pdEvent_keeps (sub hM rfl) ?_ ?_ ?_
  · intro w0 w1 k2
    refine hardReset_keeps (sub hM rfl) ?_
    exact k2
  · intro w3 k4
    refine svcSends_keeps (sub hM rfl) ?_
    refine svcNoContract_keeps (sub hM rfl) ?_
    exact k4
  · exact h0

theorem execVconnSwap_keeps {M : Nat} {s0 : State} {a0 : PdPort} {a1 : State} (hM : 12582930 ||| M = M) (h0 : Keeps M s0 a1) :
    KeepsR M s0 (execVconnSwap a0 a1) := by
  unfold execVconnSwap
  refine KeepsR.next ?_
  refine pdEvent_keeps (sub hM rfl) ?_ ?_ ?_
  · intro w2 w3 k4
    extract_lets +onlyGivenNames -lift x5
    have g6 : Keeps M s0 x5 := by
      refine pdSend_keeps (sub hM rfl) ?_
      exact k4
    clear_value x5
    extract_lets +onlyGivenNames -lift x7
    have g8 : Keeps M s0 x7 := by
      refine vconnOn_keeps (sub hM rfl) ?_
      refine wr_keeps (sub hM rfl) ?_
      exact g6
    clear_value x7
    refine Keeps.ite ?_ ?_
    · refine pdSend_keeps (sub hM rfl) ?_
      exact k4
    · refine Keeps.ite ?_ ?_
      · refine updTcp_keeps (sub hM rfl) ?_
        exact g6
      · refine pdSend_keeps (sub hM rfl) ?_
        refine setAlloc_keeps (sub hM rfl) ?_
        exact g8
  · intro w9 k10
    refine svcNotSup_keeps (sub hM rfl) ?_
    exact k10
  · exact h0

theorem execPsRdy_keeps {M : Nat} {s0 : State} {a0 : PdPort} {a1 : State} (hM : 12582930 ||| M = M) (h0 : Keeps M s0 a1) :
    KeepsR M s0 (execPsRdy a0 a1) := by
  unfold execPsRdy
  refine KeepsR.next ?_
  refine pdEvent_keeps (sub hM rfl) ?_ ?_ ?_
  · intro w2 w3 k4
    extract_lets +onlyGivenNames -lift x5
    have g6 : Keeps M s0 x5 := by
      refine wr_keeps (sub hM rfl) ?_
      refine wr_keeps (sub hM rfl) ?_
      refine updTcp_keeps (sub hM rfl) ?_
      exact k4
    clear_value x5
    refine Keeps.ite ?_ ?_
    · refine setAlloc_keeps (sub hM rfl) ?_
      exact g6
    · exact k4
  · intro w7 k8
    split
    · refine Keeps.ite ?_ ?_
      · refine wr_keeps (sub hM rfl) ?_
        refine wr_keeps (sub hM rfl) ?_
        refine wr_keeps (sub hM rfl) ?_
        refine wr_keeps (sub hM rfl) ?_
        refine updSvc_keeps (sub hM rfl) ?_
        exact k8
      · exact k8
    · exact k8
  · exact h0

theorem execVconnSourceTimeout_keeps {M : Nat} {s0 : State} {a0 : Fin 8} {a1 : State} (hM : 37919894 ||| M = M) (h0 : Keeps M s0 a1) :
    KeepsR M s0 (execVconnSourceTimeout a0 a1) := by
  unfold execVconnSourceTimeout
  refine KeepsR.next ?_
  refine tcEvent_keeps (sub hM rfl) ?_ ?_
  · intro w0 k1
    refine Keeps.ite ?_ ?_
    · refine hardReset_keeps (sub hM rfl) ?_
      exact k1
    · exact k1
  · exact h0

theorem execDrSwap_keeps {M : Nat} {s0 : State} {a0 : PdPort} {a1 : State} (hM : 12582930 ||| M = M) (h0 : Keeps M s0 a1) :
    KeepsR M s0 (execDrSwap a0 a1) := by
  unfold execDrSwap
  refine KeepsR.next ?_
  refine pdEvent_keeps (sub hM rfl) ?_ ?_ ?_
  · intro w0 w1 k2
    refine pdSend_keeps (sub hM rfl) ?_
    exact k2
  · intro w3 k4
    refine svcSends_keeps (sub hM rfl) ?_
    exact k4
  · exact h0

theorem execPrSwap_keeps {M : Nat} {s0 : State} {a0 : PdPort} {a1 : State} (hM : 12582930 ||| M = M) (h0 : Keeps M s0 a1) :
    KeepsR M s0 (execPrSwap a0 a1) := by
  unfold execPrSwap
  refine KeepsR.next ?_
  refine pdEvent_keeps (sub hM rfl) ?_ ?_ ?_
  · intro w0 w1 k2
    refine notSup_keeps (sub hM rfl) ?_
    exact k2
  · intro w3 k4
    refine svcNotSup_keeps (sub hM rfl) ?_
    exact k4
  · exact h0

theorem execUnsupportedPdMessage_keeps {M : Nat} {s0 : State} {a0 : PdPort} {a1 : Option (BitVec 5)} {a2 : State} (hM : 12582930 ||| M = M) (h0 : Keeps M s0 a2) :
    KeepsR M s0 (execUnsupportedPdMessage a0 a1 a2) := by
  unfold execUnsupportedPdMessage
  refine KeepsR.next ?_
  refine pdEvent_keeps (sub hM rfl) ?_ ?_ ?_
  · intro w0 w1 k2
    refine notSup_keeps (sub hM rfl) ?_
    exact k2
  · intro w3 k4
    split
    · refine svcNotSup_keeps (sub hM rfl) ?_
      exact k4
    · refine svcSends_keeps (sub hM rfl) ?_
      exact k4
  · exact h0

theorem execDiscoverIdentitySopPrime_keeps {M : Nat} {s0 : State} {a0 : Fin 8} {a1 : Bool} {a2 : State} (hM : 4194322 ||| M = M) (h0 : Keeps M s0 a2) :
    KeepsR M s0 (execDiscoverIdentitySopPrime a0 a1 a2) := by
  unfold execDiscoverIdentitySopPrime
  extract_lets +onlyGivenNames -lift x0
  clear_value x0
  refine KeepsR.next ?_
  refine answers_keeps (sub hM rfl) ?_ ?_
  · intro w1 k2
    refine Keeps.ite ?_ ?_
    · refine firstOffer_keeps (sub hM rfl) ?_
      refine wr_keeps (sub hM rfl) ?_
      refine wr_keeps (sub hM rfl) ?_
      exact k2
    · exact k2
  · exact h0

theorem execDiscoverIdentityRetry_keeps {M : Nat} {s0 : State} {a0 : Fin 8} {a1 : State} (hM : 4194322 ||| M = M) (h0 : Keeps M s0 a1) :
    KeepsR M s0 (execDiscoverIdentityRetry a0 a1) := by
  unfold execDiscoverIdentityRetry
  extract_lets +onlyGivenNames -lift x0
  clear_value x0
  refine KeepsR.next ?_
  refine answers_keeps (sub hM rfl) ?_ ?_
  · intro w1 k2
    refine Keeps.ite ?_ ?_
    · refine Keeps.ite ?_ ?_
      · refine pdSend_keeps (sub hM rfl) ?_
        refine updTcp_keeps (sub hM rfl) ?_
        exact k2
      · refine firstOffer_keeps (sub hM rfl) ?_
        exact k2
    · exact k2
  · exact h0

theorem execPartnerDiscoveryResponse_keeps {M : Nat} {s0 : State} {a0 : Fin 8} {a1 : PartnerAnswer} {a2 : State} (hM : 4194322 ||| M = M) (h0 : Keeps M s0 a2) :
    KeepsR M s0 (execPartnerDiscoveryResponse a0 a1 a2) := by
  unfold execPartnerDiscoveryResponse
  extract_lets +onlyGivenNames -lift x0
  clear_value x0
  refine KeepsR.next ?_
  refine answers_keeps (sub hM rfl) ?_ ?_
  · intro w3 k4
    split
    · extract_lets +onlyGivenNames -lift x6
      have g7 : Keeps M s0 x6 := by
        refine updTcp_keeps (sub hM rfl) ?_
        exact k4
      clear_value x6
      extract_lets +onlyGivenNames -lift x8
      have g9 : Keeps M s0 x8 := by
        refine reevaluate_keeps (sub hM rfl) ?_
        exact g7
      clear_value x8
      refine Keeps.ite ?_ ?_
      · refine pdSend_keeps (sub hM rfl) ?_
        refine updTcp_keeps (sub hM rfl) ?_
        exact g9
      · exact g9
    · refine Keeps.ite ?_ ?_
      · refine pdSend_keeps (sub hM rfl) ?_
        refine updTcp_keeps (sub hM rfl) ?_
        exact k4
      · refine updTcp_keeps (sub hM rfl) ?_
        exact k4
    · split
      · refine claimHead_keeps (sub hM rfl) ?_
        refine updTcp_keeps (sub hM rfl) ?_
        exact k4
      · refine updTcp_keeps (sub hM rfl) ?_
        exact k4
    · exact k4
  · exact h0

theorem execEnterModeAck_keeps {M : Nat} {s0 : State} {a0 : Fin 8} {a1 : State} (hM : 4194322 ||| M = M) (h0 : Keeps M s0 a1) :
    KeepsR M s0 (execEnterModeAck a0 a1) := by
  unfold execEnterModeAck
  extract_lets +onlyGivenNames -lift x0
  clear_value x0
  refine KeepsR.next ?_
  refine answers_keeps (sub hM rfl) ?_ ?_
  · intro w1 k2
    refine Keeps.ite ?_ ?_
    · refine pdSend_keeps (sub hM rfl) ?_
      refine pdSend_keeps (sub hM rfl) ?_
      refine updTcp_keeps (sub hM rfl) ?_
      exact k2
    · exact k2
  · exact h0

theorem execDpConfigureAck_keeps {M : Nat} {s0 : State} {a0 : Fin 8} {a1 : State} (hM : 37919894 ||| M = M) (h0 : Keeps M s0 a1) :
    KeepsR M s0 (execDpConfigureAck a0 a1) := by
  unfold execDpConfigureAck
  extract_lets +onlyGivenNames -lift x0
  clear_value x0
  refine KeepsR.next ?_
  refine answers_keeps (sub hM rfl) ?_ ?_
  · intro w3 k4
    extract_lets +onlyGivenNames -lift x5
    clear_value x5
    extract_lets +onlyGivenNames -lift x6
    have g7 : Keeps M s0 x6 := by
      refine wr_keeps (sub hM rfl) ?_
      refine wr_keeps (sub hM rfl) ?_
      refine wr_keeps (sub hM rfl) ?_
      refine wr_keeps (sub hM rfl) ?_
      exact k4
    clear_value x6
    refine Keeps.ite ?_ ?_
    · refine hubReroute_keeps (sub hM rfl) ?_
      refine tcEvt_keeps (sub hM rfl) ?_
      refine updTcp_keeps (sub hM rfl) ?_
      exact g7
    · exact k4
  · exact h0

theorem execAttention_keeps {M : Nat} {s0 : State} {a0 : Fin 8} {a1 : Bool} {a2 : State} (hM : 4194322 ||| M = M) (h0 : Keeps M s0 a2) :
    KeepsR M s0 (execAttention a0 a1 a2) := by
  unfold execAttention
  refine KeepsR.next ?_
  refine answers_keeps (sub hM rfl) ?_ ?_
  · intro w0 k1
    refine Keeps.ite ?_ ?_
    · refine wr_keeps (sub hM rfl) ?_
      exact k1
    · exact k1
  · exact h0

theorem execVdmResponseTimeout_keeps {M : Nat} {s0 : State} {a0 : Fin 8} {a1 : State} (hM : 37919894 ||| M = M) (h0 : Keeps M s0 a1) :
    KeepsR M s0 (execVdmResponseTimeout a0 a1) := by
  unfold execVdmResponseTimeout
  extract_lets +onlyGivenNames -lift x0
  clear_value x0
  refine KeepsR.next ?_
  refine answers_keeps (sub hM rfl) ?_ ?_
  · intro w1 k2
    refine Keeps.ite ?_ ?_
    · refine leaveAlt_keeps (sub hM rfl) ?_
      exact k2
    · exact k2
  · exact h0

theorem execVconnFault_keeps {M : Nat} {s0 : State} {a0 : Fin 8} {a1 : State} (hM : 4194322 ||| M = M) (h0 : Keeps M s0 a1) :
    KeepsR M s0 (execVconnFault a0 a1) := by
  unfold execVconnFault
  extract_lets +onlyGivenNames -lift x0
  clear_value x0
  refine KeepsR.next ?_
  refine tcEvent_keeps (sub hM rfl) ?_ ?_
  · intro w3 k4
    extract_lets +onlyGivenNames -lift x5
    have g6 : Keeps M s0 x5 := by
      refine wr_keeps (sub hM rfl) ?_
      refine wr_keeps (sub hM rfl) ?_
      refine wr_keeps (sub hM rfl) ?_
      exact k4
    clear_value x5
    extract_lets +onlyGivenNames -lift x7
    have g8 : Keeps M s0 x7 := by
      refine tcEvt_keeps (sub hM rfl) ?_
      refine setAlloc_keeps (sub hM rfl) ?_
      exact g6
    clear_value x7
    refine Keeps.ite ?_ ?_
    · refine Keeps.ite ?_ ?_
      · refine firstOffer_keeps (sub hM rfl) ?_
        exact g8
      · refine reevaluate_keeps (sub hM rfl) ?_
        exact g8
    · exact k4
  · exact h0

theorem execSinkAdjExpiry_keeps {M : Nat} {s0 : State} {a0 : Fin 8} {a1 : State} (hM : 4194322 ||| M = M) (h0 : Keeps M s0 a1) :
    KeepsR M s0 (execSinkAdjExpiry a0 a1) := by
  unfold execSinkAdjExpiry
  extract_lets +onlyGivenNames -lift x0
  clear_value x0
  refine KeepsR.next ?_
  refine tcEvent_keeps (sub hM rfl) ?_ ?_
  · intro w3 k4
    extract_lets +onlyGivenNames -lift x5
    have g6 : Keeps M s0 x5 := by
      refine updTcp_keeps (sub hM rfl) ?_
      exact k4
    clear_value x5
    refine Keeps.ite ?_ ?_
    · refine setAlloc_keeps (sub hM rfl) ?_
      exact g6
    · exact k4
  · exact h0

theorem budgetWrite_keeps {M : Nat} {s0 : State} {a0 : Nat} {a1 : Nat} {a2 : State} (hM : 4194322 ||| M = M) (h0 : Keeps M s0 a2) :
    Keeps M s0 (budgetWrite a0 a1 a2) := by
  unfold budgetWrite
  refine tuEvent_keeps (sub hM rfl) ?_ ?_
  · intro w0 k1
    refine reclaimAll_keeps (sub hM rfl) ?_
    refine wr_keeps (sub hM rfl) ?_
    exact k1
  · exact h0

theorem execPdpBudgetWrite_keeps {M : Nat} {s0 : State} {a0 : Fin 2} {a1 : Word} {a2 : State} (hM : 4194322 ||| M = M) (h0 : Keeps M s0 a2) :
    KeepsR M s0 (execPdpBudgetWrite a0 a1 a2) := by
  unfold execPdpBudgetWrite
  refine access_keeps (sub hM rfl) ?_ ?_
  · intro w0 k1
    refine budgetWrite_keeps (sub hM rfl) ?_
    exact k1
  · exact h0

theorem tcpCfgWrite_keeps {M : Nat} {s0 : State} {a0 : Nat} {a1 : Word} {a2 : State} (hM : 37919894 ||| M = M) (h0 : Keeps M s0 a2) :
    Keeps M s0 (tcpCfgWrite a0 a1 a2) := by
  unfold tcpCfgWrite
  extract_lets +onlyGivenNames -lift x0
  clear_value x0
  extract_lets +onlyGivenNames -lift x1
  clear_value x1
  refine tcEvent_keeps (sub hM rfl) ?_ ?_
  · intro w3 k4
    extract_lets +onlyGivenNames -lift x5
    have g6 : Keeps M s0 x5 := by
      refine regSet_keeps (sub hM rfl) ?_
      exact k4
    clear_value x5
    extract_lets +onlyGivenNames -lift x7
    have g8 : Keeps M s0 x7 := by
      refine Keeps.ite ?_ ?_
      · refine leaveAlt_keeps (sub hM rfl) ?_
        exact g6
      · exact g6
    clear_value x7
    extract_lets +onlyGivenNames -lift x9
    have g10 : Keeps M s0 x9 := by
      refine setTc_keeps (sub hM rfl) ?_
      refine updTcp_keeps (sub hM rfl) ?_
      exact g8
    clear_value x9
    refine Keeps.ite ?_ ?_
    · refine setTc_keeps (sub hM rfl) ?_
      refine release_keeps (sub hM rfl) ?_
      exact g8
    · refine Keeps.ite ?_ ?_
      · refine Keeps.ite ?_ ?_
        · refine reclaimAll_keeps (sub hM rfl) ?_
          refine updTcp_keeps (sub hM rfl) ?_
          exact g10
        · exact g10
      · refine reevaluate_keeps (sub hM rfl) ?_
        exact g8
  · exact h0

theorem execTcpCfgWrite_keeps {M : Nat} {s0 : State} {a0 : Fin 8} {a1 : Word} {a2 : State} (hM : 37919894 ||| M = M) (h0 : Keeps M s0 a2) :
    KeepsR M s0 (execTcpCfgWrite a0 a1 a2) := by
  unfold execTcpCfgWrite
  refine access_keeps (sub hM rfl) ?_ ?_
  · intro w0 k1
    refine tcpCfgWrite_keeps (sub hM rfl) ?_
    exact k1
  · exact h0

theorem loadPdTables_keeps {M : Nat} {s0 : State} {a0 : Nat} {a1 : List (List Byte)} {a2 : List (List Byte)} {a3 : State} (hM : 20971538 ||| M = M) (h0 : Keeps M s0 a3) :
    Keeps M s0 (loadPdTables a0 a1 a2 a3) := by
  unfold loadPdTables
  extract_lets +onlyGivenNames -lift x0
  have g1 : Keeps M s0 x0 := by
    refine Keeps.set_pdTables (hit hM rfl) (?_)
    exact h0
  clear_value x0
  extract_lets +onlyGivenNames -lift x2
  have g3 : Keeps M s0 x2 := by
    refine wr_keeps (sub hM rfl) ?_
    refine wr_keeps (sub hM rfl) ?_
    refine wr_keeps (sub hM rfl) ?_
    exact g1
  clear_value x2
  refine tuEvent_keeps (sub hM rfl) ?_ ?_
  · intro w5 k6
    extract_lets +onlyGivenNames -lift x7
    have g8 : Keeps M s0 x7 := by
      refine forAll_keeps (sub hM rfl) ?_ ?_
      · intro w10 w11 k12
        extract_lets +onlyGivenNames -lift x13
        clear_value x13
        split
        · refine attach_keeps (sub hM rfl) ?_
          exact k12
        · refine Keeps.ite ?_ ?_
          · refine sendCaps_keeps (sub hM rfl) ?_
            refine updTcp_keeps (sub hM rfl) ?_
            exact k12
          · refine reevaluate_keeps (sub hM rfl) ?_
            exact k12
      · exact k6
    clear_value x7
    refine reclaimAll_keeps (sub hM rfl) ?_
    exact g8
  · exact g3

theorem execSourceCapabilities_keeps {M : Nat} {s0 : State} {a0 : List (Nat × Nat)} {a1 : Bool} {a2 : State} (hM : 8388608 ||| M = M) (h0 : Keeps M s0 a2) :
    KeepsR M s0 (execSourceCapabilities a0 a1 a2) := by
  unfold execSourceCapabilities
  refine KeepsR.next ?_
  refine svcEvent_keeps (sub hM rfl) ?_ ?_
  · intro w2 k3
    split
    · exact k3
    · extract_lets +onlyGivenNames -lift x5
      clear_value x5
      refine svcSends_keeps (sub hM rfl) ?_
      refine updSvc_keeps (sub hM rfl) ?_
      exact k3
  · exact h0

theorem execAccept_keeps {M : Nat} {s0 : State} {a0 : State} (hM : 8388608 ||| M = M) (h0 : Keeps M s0 a0) :
    KeepsR M s0 (execAccept a0) := by
  unfold execAccept
  refine KeepsR.next ?_
  refine svcEvent_keeps (sub hM rfl) ?_ ?_
  · intro w0 k1
    refine updSvc_keeps (sub hM rfl) ?_
    exact k1
  · exact h0

theorem execWait_keeps {M : Nat} {s0 : State} {a0 : State} (hM : 8388608 ||| M = M) (h0 : Keeps M s0 a0) :
    KeepsR M s0 (execWait a0) := by
  unfold execWait
  refine KeepsR.next ?_
  refine svcEvent_keeps (sub hM rfl) ?_ ?_
  · intro w0 k1
    refine updSvc_keeps (sub hM rfl) ?_
    exact k1
  · exact h0

theorem execReject_keeps {M : Nat} {s0 : State} {a0 : State} (hM : 8388608 ||| M = M) (h0 : Keeps M s0 a0) :
    KeepsR M s0 (execReject a0) := by
  unfold execReject
  refine KeepsR.next ?_
  refine svcEvent_keeps (sub hM rfl) ?_ ?_
  · intro w0 k1
    refine updSvc_keeps (sub hM rfl) ?_
    exact k1
  · exact h0

theorem execSinkRequestRetry_keeps {M : Nat} {s0 : State} {a0 : State} (hM : 8388608 ||| M = M) (h0 : Keeps M s0 a0) :
    KeepsR M s0 (execSinkRequestRetry a0) := by
  unfold execSinkRequestRetry
  refine KeepsR.next ?_
  refine svcEvent_keeps (sub hM rfl) ?_ ?_
  · intro w0 k1
    split
    · refine Keeps.ite ?_ ?_
      · exact k1
      · refine svcSends_keeps (sub hM rfl) ?_
        refine updSvc_keeps (sub hM rfl) ?_
        exact k1
    · exact k1
  · exact h0

theorem execPsTransitionTimeout_keeps {M : Nat} {s0 : State} {a0 : State} (hM : 8388610 ||| M = M) (h0 : Keeps M s0 a0) :
    KeepsR M s0 (execPsTransitionTimeout a0) := by
  unfold execPsTransitionTimeout
  refine KeepsR.next ?_
  refine svcEvent_keeps (sub hM rfl) ?_ ?_
  · intro w0 k1
    refine Keeps.ite ?_ ?_
    · refine svcSends_keeps (sub hM rfl) ?_
      refine svcNoContract_keeps (sub hM rfl) ?_
      exact k1
    · exact k1
  · exact h0

theorem execPdStatus_keeps {M : Nat} {s0 : State} {a0 : Origin} {a1 : List Byte} {a2 : State} (hM : 8589952000 ||| M = M) (h0 : Keeps M s0 a2) :
    KeepsR M s0 (execPdStatus a0 a1 a2) := by
  unfold execPdStatus
  extract_lets +onlyGivenNames -lift x0
  clear_value x0
  refine command_keeps (sub hM rfl) ?_ ?_
  · intro w2 k3
    extract_lets +onlyGivenNames -lift x4
    clear_value x4
    extract_lets +onlyGivenNames -lift x5
    clear_value x5
    refine Keeps.ite ?_ ?_
    · refine reply_keeps (sub hM rfl) ?_
      exact k3
    · refine Keeps.ite ?_ ?_
      · refine reply_keeps (sub hM rfl) ?_
        exact k3
      · refine Keeps.ite ?_ ?_
        · refine reply_keeps (sub hM rfl) ?_
          exact k3
        · refine reply_keeps (sub hM rfl) ?_
          exact k3
  · exact h0

theorem portAction_keeps {M : Nat} {s0 : State} {a0 : Nat} {a1 : Nat} {a2 : State} (hM : 37919894 ||| M = M) (h0 : Keeps M s0 a2) :
    Keeps M s0 (portAction a0 a1 a2) := by
  unfold portAction
  extract_lets +onlyGivenNames -lift x0
  clear_value x0
  split
  · refine tcpCfgWrite_keeps (sub hM rfl) ?_
    exact h0
  · refine tcpCfgWrite_keeps (sub hM rfl) ?_
    exact h0
  · refine answers_keeps (sub hM rfl) ?_ ?_
    · intro w1 k2
      refine Keeps.ite ?_ ?_
      · refine sendCaps_keeps (sub hM rfl) ?_
        exact k2
      · exact k2
    · exact h0
  · refine answers_keeps (sub hM rfl) ?_ ?_
    · intro w3 k4
      refine hardReset_keeps (sub hM rfl) ?_
      exact k4
    · exact h0
  · refine answers_keeps (sub hM rfl) ?_ ?_
    · intro w5 k6
      refine leaveAlt_keeps (sub hM rfl) ?_
      exact k6
    · exact h0
  · refine answers_keeps (sub hM rfl) ?_ ?_
    · intro w7 k8
      refine Keeps.ite ?_ ?_
      · refine pdSend_keeps (sub hM rfl) ?_
        refine updTcp_keeps (sub hM rfl) ?_
        refine leaveAlt_keeps (sub hM rfl) ?_
        exact k8
      · exact k8
    · exact h0

theorem execPdPortCtl_keeps {M : Nat} {s0 : State} {a0 : Origin} {a1 : List Byte} {a2 : State} (hM : 8636259478 ||| M = M) (h0 : Keeps M s0 a2) :
    KeepsR M s0 (execPdPortCtl a0 a1 a2) := by
  unfold execPdPortCtl
  extract_lets +onlyGivenNames -lift x0
  clear_value x0
  extract_lets +onlyGivenNames -lift x1
  clear_value x1
  refine command_keeps (sub hM rfl) ?_ ?_
  · intro w3 k4
    extract_lets +onlyGivenNames -lift x5
    clear_value x5
    refine Keeps.ite ?_ ?_
    · refine reply_keeps (sub hM rfl) ?_
      exact k4
    · refine Keeps.ite ?_ ?_
      · refine reply_keeps (sub hM rfl) ?_
        exact k4
      · refine Keeps.ite ?_ ?_
        · refine reply_keeps (sub hM rfl) ?_
          refine svcEvent_keeps (sub hM rfl) ?_ ?_
          · intro w6 k7
            refine svcSends_keeps (sub hM rfl) ?_
            refine svcNoContract_keeps (sub hM rfl) ?_
            exact k7
          · exact k4
        · refine reply_keeps (sub hM rfl) ?_
          refine portAction_keeps (sub hM rfl) ?_
          exact k4
  · exact h0

theorem execPdBudget_keeps {M : Nat} {s0 : State} {a0 : Origin} {a1 : List Byte} {a2 : State} (hM : 8594146322 ||| M = M) (h0 : Keeps M s0 a2) :
    KeepsR M s0 (execPdBudget a0 a1 a2) := by
  unfold execPdBudget
  extract_lets +onlyGivenNames -lift x0
  clear_value x0
  extract_lets +onlyGivenNames -lift x1
  clear_value x1
  extract_lets +onlyGivenNames -lift x2
  clear_value x2
  refine command_keeps (sub hM rfl) ?_ ?_
  · intro w4 k5
    extract_lets +onlyGivenNames -lift x6
    clear_value x6
    extract_lets +onlyGivenNames -lift x7
    have g8 : Keeps M s0 x7 := by
      refine budgetWrite_keeps (sub hM rfl) ?_
      exact k5
    clear_value x7
    extract_lets +onlyGivenNames -lift x9
    clear_value x9
    refine Keeps.ite ?_ ?_
    · refine reply_keeps (sub hM rfl) ?_
      exact k5
    · refine Keeps.ite ?_ ?_
      · refine reply_keeps (sub hM rfl) ?_
        exact k5
      · refine reply_keeps (sub hM rfl) ?_
        exact g8
  · exact h0

/-! Svc. -/

theorem execUsbPortCtl_keeps {M : Nat} {s0 : State} {a0 : Origin} {a1 : List Byte} {a2 : State} (hM : 8623676566 ||| M = M) (h0 : Keeps M s0 a2) :
    KeepsR M s0 (execUsbPortCtl a0 a1 a2) := by
  unfold execUsbPortCtl
  extract_lets +onlyGivenNames -lift x0
  clear_value x0
  extract_lets +onlyGivenNames -lift x1
  clear_value x1
  refine command_keeps (sub hM rfl) ?_ ?_
  · intro w3 k4
    extract_lets +onlyGivenNames -lift x5
    clear_value x5
    extract_lets +onlyGivenNames -lift x6
    have g7 : Keeps M s0 x6 := by
      refine usbAction_keeps (sub hM rfl) ?_
      exact k4
    clear_value x6
    refine Keeps.ite ?_ ?_
    · refine reply_keeps (sub hM rfl) ?_
      exact k4
    · refine Keeps.ite ?_ ?_
      · refine reply_keeps (sub hM rfl) ?_
        exact k4
      · refine reply_keeps (sub hM rfl) ?_
        exact g7
  · exact h0

theorem proxyOp_keeps {M : Nat} {s0 : State} {a0 : Nat} {a1 : Nat} {a2 : Nat} {a3 : State} (hM : 33725590 ||| M = M) (h0 : Keeps M s0 a3) :
    Keeps2 M s0 (proxyOp a0 a1 a2 a3) := by
  unfold proxyOp
  split
  · refine Keeps2.ite ?_ ?_
    · refine Keeps2.mk ?_
      exact h0
    · refine proxyStart_keeps (sub hM rfl) ?_
      exact h0
  · refine Keeps2.mk ?_
    refine proxyStop_keeps (sub hM rfl) ?_
    exact h0
  · refine Keeps2.ite ?_ ?_
    · refine Keeps2.mk ?_
      exact h0
    · split
      · refine Keeps2.mk ?_
        refine ringStart_keeps (sub hM rfl) ?_
        exact h0
      · refine Keeps2.mk ?_
        refine stopRing_keeps (sub hM rfl) ?_
        exact h0
      · refine Keeps2.mk ?_
        refine ringReset_keeps (sub hM rfl) ?_
        exact h0

theorem execProxyCtl_keeps {M : Nat} {s0 : State} {a0 : Origin} {a1 : List Byte} {a2 : State} (hM : 8623676566 ||| M = M) (h0 : Keeps M s0 a2) :
    KeepsR M s0 (execProxyCtl a0 a1 a2) := by
  unfold execProxyCtl
  extract_lets +onlyGivenNames -lift x0
  clear_value x0
  extract_lets +onlyGivenNames -lift x1
  clear_value x1
  extract_lets +onlyGivenNames -lift x2
  clear_value x2
  extract_lets +onlyGivenNames -lift x3
  clear_value x3
  refine command_keeps (sub hM rfl) ?_ ?_
  · intro w5 k6
    extract_lets +onlyGivenNames -lift x7
    clear_value x7
    refine Keeps.ite ?_ ?_
    · refine reply_keeps (sub hM rfl) ?_
      exact k6
    · refine Keeps.ite ?_ ?_
      · refine reply_keeps (sub hM rfl) ?_
        exact k6
      · split
        · rename_i y8 y9 y10 y11
          refine Keeps2.elim (m := M) (s0 := s0) y11 ?_ (fun g12 => ?_)
          · refine proxyOp_keeps (sub hM rfl) ?_
            exact k6
          refine reply_keeps (sub hM rfl) ?_
          exact g12
  · exact h0

theorem setB_keeps {M : Nat} {s0 : State} {a0 : Nat} {a1 : State} (hM : 2 ||| M = M) (h0 : Keeps M s0 a1) :
    Keeps M s0 (setB a0 a1) := by
  unfold setB
  refine wr_keeps (sub hM rfl) ?_
  exact h0

theorem updDev_keeps {M : Nat} {s0 : State} {a0 : SvcDev → SvcDev} {a1 : State} (hM : 67108864 ||| M = M) (h0 : Keeps M s0 a1) :
    Keeps M s0 (updDev a0 a1) := by
  unfold updDev
  refine Keeps.set_svcDev (hit hM rfl) (?_)
  exact h0

theorem answer_keeps {M : Nat} {s0 : State} {a0 : Option (List Byte)} {a1 : State} (hM : 67108864 ||| M = M) (h0 : Keeps M s0 a1) :
    Keeps M s0 (answer a0 a1) := by
  unfold answer
  refine updDev_keeps (sub hM rfl) ?_
  exact h0

theorem svcLost_keeps {M : Nat} {s0 : State} {a0 : State} (hM : 67125250 ||| M = M) (h0 : Keeps M s0 a0) :
    Keeps M s0 (svcLost a0) := by
  unfold svcLost
  extract_lets +onlyGivenNames -lift x0
  have g1 : Keeps M s0 x0 := by
    refine loseAttachment_keeps (sub hM rfl) ?_
    exact h0
  clear_value x0
  refine wr_keeps (sub hM rfl) ?_
  refine wr_keeps (sub hM rfl) ?_
  refine updDev_keeps (sub hM rfl) ?_
  exact g1

theorem svcConnect_keeps {M : Nat} {s0 : State} {a0 : State} (hM : 67108866 ||| M = M) (h0 : Keeps M s0 a0) :
    Keeps M s0 (svcConnect a0) := by
  unfold svcConnect
  extract_lets +onlyGivenNames -lift x0
  have g1 : Keeps M s0 x0 := by
    refine updDev_keeps (sub hM rfl) ?_
    exact h0
  clear_value x0
  refine Keeps.ite ?_ ?_
  · refine setB_keeps (sub hM rfl) ?_
    exact g1
  · exact g1

theorem svcDisconnect_keeps {M : Nat} {s0 : State} {a0 : State} (hM : 67125250 ||| M = M) (h0 : Keeps M s0 a0) :
    Keeps M s0 (svcDisconnect a0) := by
  unfold svcDisconnect
  refine Keeps.ite ?_ ?_
  · exact h0
  · refine setB_keeps (sub hM rfl) ?_
    refine wr_keeps (sub hM rfl) ?_
    refine wr_keeps (sub hM rfl) ?_
    refine svcLost_keeps (sub hM rfl) ?_
    exact h0

theorem connectWrite_keeps {M : Nat} {s0 : State} {a0 : Bool} {a1 : State} (hM : 67125250 ||| M = M) (h0 : Keeps M s0 a1) :
    Keeps M s0 (connectWrite a0 a1) := by
  unfold connectWrite
  extract_lets +onlyGivenNames -lift x0
  clear_value x0
  extract_lets +onlyGivenNames -lift x1
  have g2 : Keeps M s0 x1 := by
    refine wr_keeps (sub hM rfl) ?_
    exact h0
  clear_value x1
  refine Keeps.ite ?_ ?_
  · refine svcConnect_keeps (sub hM rfl) ?_
    exact g2
  · refine Keeps.ite ?_ ?_
    · refine svcDisconnect_keeps (sub hM rfl) ?_
      exact g2
    · exact g2

theorem execSvcConnectWrite_keeps {M : Nat} {s0 : State} {a0 : Bool} {a1 : State} (hM : 67125250 ||| M = M) (h0 : Keeps M s0 a1) :
    KeepsR M s0 (execSvcConnectWrite a0 a1) := by
  unfold execSvcConnectWrite
  refine KeepsR.next ?_
  refine connectWrite_keeps (sub hM rfl) ?_
  exact h0

theorem epbLoad_keeps {M : Nat} {s0 : State} {a0 : State} (hM : 67108866 ||| M = M) (h0 : Keeps M s0 a0) :
    Keeps M s0 (epbLoad a0) := by
  unfold epbLoad
  extract_lets +onlyGivenNames -lift x0
  clear_value x0
  refine Keeps.ite ?_ ?_
  · refine wr_keeps (sub hM rfl) ?_
    exact h0
  · refine wr_keeps (sub hM rfl) ?_
    refine updDev_keeps (sub hM rfl) ?_
    exact h0

theorem execSvcEpbLoad_keeps {M : Nat} {s0 : State} {a0 : State} (hM : 67108866 ||| M = M) (h0 : Keeps M s0 a0) :
    KeepsR M s0 (execSvcEpbLoad a0) := by
  unfold execSvcEpbLoad
  refine KeepsR.next ?_
  refine epbLoad_keeps (sub hM rfl) ?_
  exact h0

theorem svcCtrlWrite_keeps {M : Nat} {s0 : State} {a0 : Word} {a1 : State} (hM : 67125250 ||| M = M) (h0 : Keeps M s0 a1) :
    Keeps M s0 (svcCtrlWrite a0 a1) := by
  unfold svcCtrlWrite
  extract_lets +onlyGivenNames -lift x0
  have g1 : Keeps M s0 x0 := by
    refine wr_keeps (sub hM rfl) ?_
    refine wr_keeps (sub hM rfl) ?_
    exact h0
  clear_value x0
  extract_lets +onlyGivenNames -lift x2
  have g3 : Keeps M s0 x2 := by
    refine Keeps.ite ?_ ?_
    · refine epbLoad_keeps (sub hM rfl) ?_
      exact g1
    · exact g1
  clear_value x2
  refine connectWrite_keeps (sub hM rfl) ?_
  exact g3

theorem execSvcSuspend_keeps {M : Nat} {s0 : State} {a0 : State} (hM : 67108866 ||| M = M) (h0 : Keeps M s0 a0) :
    KeepsR M s0 (execSvcSuspend a0) := by
  unfold execSvcSuspend
  extract_lets +onlyGivenNames -lift x0
  clear_value x0
  refine KeepsR.ite ?_ ?_
  · refine KeepsR.next ?_
    refine setB_keeps (sub hM rfl) ?_
    refine updDev_keeps (sub hM rfl) ?_
    exact h0
  · refine KeepsR.next ?_
    exact h0

theorem execRemoteWake_keeps {M : Nat} {s0 : State} {a0 : State} (hM : 67108866 ||| M = M) (h0 : Keeps M s0 a0) :
    KeepsR M s0 (execRemoteWake a0) := by
  unfold execRemoteWake
  refine KeepsR.ite ?_ ?_
  · refine KeepsR.next ?_
    refine wr_keeps (sub hM rfl) ?_
    refine updDev_keeps (sub hM rfl) ?_
    exact h0
  · refine KeepsR.next ?_
    exact h0

theorem execHostResume_keeps {M : Nat} {s0 : State} {a0 : State} (hM : 67108882 ||| M = M) (h0 : Keeps M s0 a0) :
    KeepsR M s0 (execHostResume a0) := by
  unfold execHostResume
  refine KeepsR.ite ?_ ?_
  · refine KeepsR.next ?_
    refine raise_keeps (sub hM rfl) ?_
    refine setB_keeps (sub hM rfl) ?_
    refine wr_keeps (sub hM rfl) ?_
    refine updDev_keeps (sub hM rfl) ?_
    exact h0
  · refine KeepsR.next ?_
    exact h0

theorem execSvcBusReset_keeps {M : Nat} {s0 : State} {a0 : Bool} {a1 : State} (hM : 67125250 ||| M = M) (h0 : Keeps M s0 a1) :
    KeepsR M s0 (execSvcBusReset a0 a1) := by
  unfold execSvcBusReset
  extract_lets +onlyGivenNames -lift x0
  have g1 : Keeps M s0 x0 := by
    refine svcLost_keeps (sub hM rfl) ?_
    exact h0
  clear_value x0
  refine KeepsR.ite ?_ ?_
  · refine KeepsR.next ?_
    exact h0
  · refine KeepsR.next ?_
    refine setB_keeps (sub hM rfl) ?_
    refine wr_keeps (sub hM rfl) ?_
    refine wr_keeps (sub hM rfl) ?_
    exact g1

theorem setConfiguration_keeps {M : Nat} {s0 : State} {a0 : Nat} {a1 : State} (hM : 67125250 ||| M = M) (h0 : Keeps M s0 a1) :
    Keeps M s0 (setConfiguration a0 a1) := by
  unfold setConfiguration
  refine Keeps.ite ?_ ?_
  · refine Keeps.ite ?_ ?_
    · refine answer_keeps (sub hM rfl) ?_
      refine Keeps.ite ?_ ?_
      · exact h0
      · refine setB_keeps (sub hM rfl) ?_
        refine updDev_keeps (sub hM rfl) ?_
        exact h0
    · refine Keeps.ite ?_ ?_
      · refine answer_keeps (sub hM rfl) ?_
        refine setB_keeps (sub hM rfl) ?_
        refine Keeps.ite ?_ ?_
        · refine svcLost_keeps (sub hM rfl) ?_
          exact h0
        · exact h0
      · refine answer_keeps (sub hM rfl) ?_
        exact h0
  · refine answer_keeps (sub hM rfl) ?_
    exact h0

theorem execSetConfiguration_keeps {M : Nat} {s0 : State} {a0 : BitVec 8} {a1 : State} (hM : 67125250 ||| M = M) (h0 : Keeps M s0 a1) :
    KeepsR M s0 (execSetConfiguration a0 a1) := by
  unfold execSetConfiguration
  refine KeepsR.next ?_
  refine setConfiguration_keeps (sub hM rfl) ?_
  exact h0

theorem execSvcStandardRequest_keeps {M : Nat} {s0 : State} {a0 : BitVec 8} {a1 : BitVec 8} {a2 : BitVec 16} {a3 : BitVec 16} {a4 : BitVec 16} {a5 : State} (hM : 67125250 ||| M = M) (h0 : Keeps M s0 a5) :
    KeepsR M s0 (execSvcStandardRequest a0 a1 a2 a3 a4 a5) := by
  unfold execSvcStandardRequest
  extract_lets +onlyGivenNames -lift x0
  clear_value x0
  extract_lets +onlyGivenNames -lift x1
  clear_value x1
  extract_lets +onlyGivenNames -lift x2
  have g3 : ∀ v0 v1, Keeps M s0 v1 → Keeps M s0 (x2 v0 v1) := by
    intro w4 w5 k6
    refine answer_keeps (sub hM rfl) ?_
    exact k6
  clear_value x2
  refine KeepsR.ite ?_ ?_
  · refine KeepsR.next ?_
    exact h0
  · refine KeepsR.next ?_
    split
    · refine g3 _ _ ?_
      exact h0
    · refine g3 _ _ ?_
      exact h0
    · refine Keeps.ite ?_ ?_
      · refine g3 _ _ ?_
        exact h0
      · refine answer_keeps (sub hM rfl) ?_
        exact h0
    · refine Keeps.ite ?_ ?_
      · refine g3 _ _ ?_
        refine wr_keeps (sub hM rfl) ?_
        exact h0
      · refine answer_keeps (sub hM rfl) ?_
        exact h0
    · refine Keeps.ite ?_ ?_
      · refine g3 _ _ ?_
        refine wr_keeps (sub hM rfl) ?_
        exact h0
      · refine answer_keeps (sub hM rfl) ?_
        exact h0
    · refine Keeps.ite ?_ ?_
      · refine g3 _ _ ?_
        refine updDev_keeps (sub hM rfl) ?_
        exact h0
      · refine answer_keeps (sub hM rfl) ?_
        exact h0
    · refine Keeps.ite ?_ ?_
      · refine g3 _ _ ?_
        refine updDev_keeps (sub hM rfl) ?_
        exact h0
      · refine answer_keeps (sub hM rfl) ?_
        exact h0
    · refine Keeps.ite ?_ ?_
      · refine g3 _ _ ?_
        refine setB_keeps (sub hM rfl) ?_
        refine wr_keeps (sub hM rfl) ?_
        exact h0
      · refine answer_keeps (sub hM rfl) ?_
        exact h0
    · split
      · refine g3 _ _ ?_
        exact h0
      · refine answer_keeps (sub hM rfl) ?_
        exact h0
    · refine g3 _ _ ?_
      exact h0
    · refine setConfiguration_keeps (sub hM rfl) ?_
      exact h0
    · refine Keeps.ite ?_ ?_
      · refine g3 _ _ ?_
        exact h0
      · refine answer_keeps (sub hM rfl) ?_
        exact h0
    · refine Keeps.ite ?_ ?_
      · refine g3 _ _ ?_
        exact h0
      · refine answer_keeps (sub hM rfl) ?_
        exact h0
    · refine answer_keeps (sub hM rfl) ?_
      exact h0

theorem execEp1CommandReceive_keeps {M : Nat} {s0 : State} {a0 : List Byte} {a1 : State} (hM : 8590083092 ||| M = M) (h0 : Keeps M s0 a1) :
    KeepsR M s0 (execEp1CommandReceive a0 a1) := by
  unfold execEp1CommandReceive
  extract_lets +onlyGivenNames -lift x0
  clear_value x0
  extract_lets +onlyGivenNames -lift x1
  clear_value x1
  refine KeepsR.ite ?_ ?_
  · refine KeepsR.next ?_
    exact h0
  · refine KeepsR.ite ?_ ?_
    · refine KeepsR.next ?_
      refine count_keeps (sub hM rfl) ?_
      exact h0
    · refine KeepsR.next ?_
      refine accept_keeps (sub hM rfl) ?_
      exact h0

theorem execEp2TransferComplete_keeps {M : Nat} {s0 : State} {a0 : State} (hM : 67125248 ||| M = M) (h0 : Keeps M s0 a0) :
    KeepsR M s0 (execEp2TransferComplete a0) := by
  unfold execEp2TransferComplete
  split
  · refine KeepsR.next ?_
    exact h0
  · refine KeepsR.next ?_
    refine answer_keeps (sub hM rfl) ?_
    refine freeTag_keeps (sub hM rfl) ?_
    refine updCmd_keeps (sub hM rfl) ?_
    exact h0

theorem execEp3Poll_keeps {M : Nat} {s0 : State} {a0 : State} (hM : 67108866 ||| M = M) (h0 : Keeps M s0 a0) :
    KeepsR M s0 (execEp3Poll a0) := by
  unfold execEp3Poll
  refine KeepsR.ite ?_ ?_
  · refine KeepsR.next ?_
    refine wr_keeps (sub hM rfl) ?_
    refine updDev_keeps (sub hM rfl) ?_
    exact h0
  · refine KeepsR.next ?_
    exact h0

theorem execEp5Poll_keeps {M : Nat} {s0 : State} {a0 : State} (hM : 67239936 ||| M = M) (h0 : Keeps M s0 a0) :
    KeepsR M s0 (execEp5Poll a0) := by
  unfold execEp5Poll
  extract_lets +onlyGivenNames -lift x0
  clear_value x0
  refine KeepsR.ite ?_ ?_
  · refine KeepsR.next ?_
    exact h0
  · split
    · refine KeepsR.next ?_
      refine answer_keeps (sub hM rfl) ?_
      exact h0
    · refine KeepsR.next ?_
      refine answer_keeps (sub hM rfl) ?_
      refine Keeps.set_diag (hit hM rfl) (?_)
      exact h0

theorem execClearFeatureHalt_keeps {M : Nat} {s0 : State} {a0 : State} (hM : 67108864 ||| M = M) (h0 : Keeps M s0 a0) :
    KeepsR M s0 (execClearFeatureHalt a0) := by
  unfold execClearFeatureHalt
  refine KeepsR.ite ?_ ?_
  · refine KeepsR.next ?_
    refine answer_keeps (sub hM rfl) ?_
    refine updDev_keeps (sub hM rfl) ?_
    exact h0
  · refine KeepsR.next ?_
    exact h0

theorem readOrph_keeps {M : Nat} {s0 : State} {a0 : State} (hM : 2 ||| M = M) (h0 : Keeps M s0 a0) :
    Keeps2 M s0 (readOrph a0) := by
  unfold readOrph
  extract_lets +onlyGivenNames -lift x0
  clear_value x0
  refine Keeps2.mk ?_
  refine wr_keeps (sub hM rfl) ?_
  exact h0

theorem execSvcOrphRead_keeps {M : Nat} {s0 : State} {a0 : EntryPoint} {a1 : State} (hM : 34 ||| M = M) (h0 : Keeps M s0 a1) :
    KeepsR M s0 (execSvcOrphRead a0 a1) := by
  unfold execSvcOrphRead
  refine KeepsR.next ?_
  refine returned_keeps (sub hM rfl) ?_
  refine readOrph_keeps (sub hM rfl) ?_
  exact h0

theorem execSvcSourceAttach_keeps {M : Nat} {s0 : State} {a0 : Fin 4} {a1 : State} (hM : 75497490 ||| M = M) (h0 : Keeps M s0 a1) :
    KeepsR M s0 (execSvcSourceAttach a0 a1) := by
  unfold execSvcSourceAttach
  extract_lets +onlyGivenNames -lift x0
  have g1 : Keeps M s0 x0 := by
    refine wr_keeps (sub hM rfl) ?_
    refine wr_keeps (sub hM rfl) ?_
    refine updSvc_keeps (sub hM rfl) ?_
    exact h0
  clear_value x0
  extract_lets +onlyGivenNames -lift x2
  have g3 : Keeps M s0 x2 := by
    refine raise_keeps (sub hM rfl) ?_
    exact g1
  clear_value x2
  refine KeepsR.ite ?_ ?_
  · refine KeepsR.next ?_
    exact h0
  · refine KeepsR.next ?_
    refine Keeps.ite ?_ ?_
    · refine svcConnect_keeps (sub hM rfl) ?_
      exact g3
    · exact g3

end Sys2Proof.Machine
end

