-- ==== Sys2Proof/Laws/KeepsDies.lean ====
section
/-! SUPPORT. `Keeps` for the operations and commands of display, Ethernet, the host interface and line power. A mask is the sum of 2^i over the fields of State that may
change, numbered as `Keeps` numbers them. -/
namespace Sys2Proof.Machine

-- One theorem at a time, so that the package as one text compiles within its memory limit.
set_option Elab.async false

/-! Display. -/

theorem setHead_keeps {M : Nat} {s0 : State} {a0 : Nat} {a1 : Head} {a2 : State} (hM : 134217728 ||| M = M) (h0 : Keeps M s0 a2) :
    Keeps M s0 (setHead a0 a1 a2) := by
  unfold setHead
  refine Keeps.set_heads (hit hM rfl) (?_)
  exact h0

theorem updHead_keeps {M : Nat} {s0 : State} {a0 : Nat} {a1 : Head → Head} {a2 : State} (hM : 134217728 ||| M = M) (h0 : Keeps M s0 a2) :
    Keeps M s0 (updHead a0 a1 a2) := by
  unfold updHead
  refine setHead_keeps (sub hM rfl) ?_
  exact h0

theorem dspErr_keeps {M : Nat} {s0 : State} {a0 : Fld} {a1 : Nat} {a2 : State} (hM : 18 ||| M = M) (h0 : Keeps M s0 a2) :
    Keeps M s0 (dspErr a0 a1 a2) := by
  unfold dspErr
  refine raise_keeps (sub hM rfl) ?_
  refine wr_keeps (sub hM rfl) ?_
  exact h0

theorem sendDisp_keeps {M : Nat} {s0 : State} {a0 : Nat} {a1 : Nat} {a2 : List Byte} {a3 : State} (hM : 138388 ||| M = M) (h0 : Keeps M s0 a3) :
    Keeps M s0 (sendDisp a0 a1 a2 a3) := by
  unfold sendDisp
  extract_lets +onlyGivenNames -lift x0
  clear_value x0
  refine Keeps.ite ?_ ?_
  · exact h0
  · refine originate_keeps (sub hM rfl) ?_
    exact h0

theorem refetch_keeps {M : Nat} {s0 : State} {a0 : Nat} {a1 : State} (hM : 134217728 ||| M = M) (h0 : Keeps M s0 a1) :
    Keeps M s0 (refetch a0 a1) := by
  unfold refetch
  refine updHead_keeps (sub hM rfl) ?_
  exact h0

theorem takePending_keeps {M : Nat} {s0 : State} {a0 : Nat} {a1 : State} (hM : 134217730 ||| M = M) (h0 : Keeps M s0 a1) :
    Keeps M s0 (takePending a0 a1) := by
  unfold takePending
  extract_lets +onlyGivenNames -lift x0
  clear_value x0
  extract_lets +onlyGivenNames -lift x1
  clear_value x1
  extract_lets +onlyGivenNames -lift x2
  have g3 : Keeps M s0 x2 := by
    refine wr_keeps (sub hM rfl) ?_
    exact h0
  clear_value x2
  refine refetch_keeps (sub hM rfl) ?_
  refine updHead_keeps (sub hM rfl) ?_
  exact g3

theorem latchFlip_keeps {M : Nat} {s0 : State} {a0 : Nat} {a1 : State} (hM : 8724307094 ||| M = M) (h0 : Keeps M s0 a1) :
    Keeps M s0 (latchFlip a0 a1) := by
  unfold latchFlip
  extract_lets +onlyGivenNames -lift x0
  have g1 : Keeps M s0 x0 := by
    refine takePending_keeps (sub hM rfl) ?_
    exact h0
  clear_value x0
  extract_lets +onlyGivenNames -lift x2
  have g3 : Keeps M s0 x2 := by
    refine wr_keeps (sub hM rfl) ?_
    refine wr_keeps (sub hM rfl) ?_
    refine wr_keeps (sub hM rfl) ?_
    exact g1
  clear_value x2
  extract_lets +onlyGivenNames -lift x4
  clear_value x4
  extract_lets +onlyGivenNames -lift x5
  clear_value x5
  extract_lets +onlyGivenNames -lift x6
  have g7 : Keeps M s0 x6 := by
    refine updHead_keeps (sub hM rfl) ?_
    exact g3
  clear_value x6
  extract_lets +onlyGivenNames -lift x8
  have g9 : Keeps M s0 x8 := by
    refine raise_keeps (sub hM rfl) ?_
    refine count_keeps (sub hM rfl) ?_
    exact g7
  clear_value x8
  extract_lets +onlyGivenNames -lift x10
  have g11 : Keeps M s0 x10 := by
    refine forAll_keeps (sub hM rfl) ?_ ?_
    · intro w12 w13 k14
      refine reply_keeps (sub hM rfl) ?_
      exact k14
    · exact g9
  clear_value x10
  refine sendDisp_keeps (sub hM rfl) ?_
  exact g11

theorem armFlip_keeps {M : Nat} {s0 : State} {a0 : Nat} {a1 : State} (hM : 131094 ||| M = M) (h0 : Keeps M s0 a1) :
    Keeps2 M s0 (armFlip a0 a1) := by
  unfold armFlip
  extract_lets +onlyGivenNames -lift x0
  have g1 : ∀ v0, Keeps M s0 v0 → Keeps M s0 (x0 v0) := by
    intro w2 k3
    refine dspErr_keeps (sub hM rfl) ?_
    exact k3
  clear_value x0
  extract_lets +onlyGivenNames -lift x4
  have g5 : Keeps M s0 x4 := by
    refine Keeps.ite ?_ ?_
    · refine count_keeps (sub hM rfl) ?_
      refine wr_keeps (sub hM rfl) ?_
      exact h0
    · exact h0
  clear_value x4
  refine Keeps2.ite ?_ ?_
  · refine Keeps2.mk ?_
    refine g1 _ ?_
    exact h0
  · refine Keeps2.ite ?_ ?_
    · refine Keeps2.mk ?_
      refine g1 _ ?_
      exact h0
    · refine Keeps2.mk ?_
      refine wr_keeps (sub hM rfl) ?_
      refine wr_keeps (sub hM rfl) ?_
      exact g5

theorem execDspCfgFlip_keeps {M : Nat} {s0 : State} {a0 : Fin 2} {a1 : State} (hM : 131094 ||| M = M) (h0 : Keeps M s0 a1) :
    KeepsR M s0 (execDspCfgFlip a0 a1) := by
  unfold execDspCfgFlip
  refine access_keeps (sub hM rfl) ?_ ?_
  · intro w0 k1
    refine Keeps2.snd ?_
    refine armFlip_keeps (sub hM rfl) ?_
    exact k1
  · exact h0

theorem writeAddrs_keeps {M : Nat} {s0 : State} {a0 : Nat} {a1 : Nat} {a2 : List Byte} {a3 : State} (hM : 2 ||| M = M) (h0 : Keeps M s0 a3) :
    Keeps M s0 (writeAddrs a0 a1 a2 a3) := by
  unfold writeAddrs
  refine forAll_keeps (sub hM rfl) ?_ ?_
  · intro w0 w1 k2
    refine regSet_keeps (sub hM rfl) ?_
    exact k2
  · exact h0

theorem ask_keeps {M : Nat} {s0 : State} {a0 : Nat} {a1 : State} (hM : 134217728 ||| M = M) (h0 : Keeps M s0 a1) :
    Keeps M s0 (ask a0 a1) := by
  unfold ask
  extract_lets +onlyGivenNames -lift x0
  clear_value x0
  extract_lets +onlyGivenNames -lift x1
  clear_value x1
  extract_lets +onlyGivenNames -lift x2
  clear_value x2
  extract_lets +onlyGivenNames -lift x3
  clear_value x3
  extract_lets +onlyGivenNames -lift x4
  clear_value x4
  refine Keeps.ite ?_ ?_
  · exact h0
  · refine setHead_keeps (sub hM rfl) ?_
    exact h0

theorem headOff_keeps {M : Nat} {s0 : State} {a0 : Nat} {a1 : State} (hM : 8724169730 ||| M = M) (h0 : Keeps M s0 a1) :
    Keeps M s0 (headOff a0 a1) := by
  unfold headOff
  extract_lets +onlyGivenNames -lift x0
  clear_value x0
  extract_lets +onlyGivenNames -lift x1
  have g2 : Keeps M s0 x1 := by
    refine updHead_keeps (sub hM rfl) ?_
    exact h0
  clear_value x1
  extract_lets +onlyGivenNames -lift x3
  have g4 : Keeps M s0 x3 := by
    refine wr_keeps (sub hM rfl) ?_
    refine wr_keeps (sub hM rfl) ?_
    refine wr_keeps (sub hM rfl) ?_
    refine wr_keeps (sub hM rfl) ?_
    exact g2
  clear_value x3
  refine forAll_keeps (sub hM rfl) ?_ ?_
  · intro w5 w6 k7
    refine reply_keeps (sub hM rfl) ?_
    exact k7
  · exact g4

theorem headEnable_keeps {M : Nat} {s0 : State} {a0 : Nat} {a1 : State} (hM : 134217746 ||| M = M) (h0 : Keeps M s0 a1) :
    Keeps M s0 (headEnable a0 a1) := by
  unfold headEnable
  extract_lets +onlyGivenNames -lift x0
  clear_value x0
  extract_lets +onlyGivenNames -lift x1
  clear_value x1
  extract_lets +onlyGivenNames -lift x2
  have g3 : Keeps M s0 x2 := by
    refine wr_keeps (sub hM rfl) ?_
    refine updHead_keeps (sub hM rfl) ?_
    exact h0
  clear_value x2
  extract_lets +onlyGivenNames -lift x4
  have g5 : Keeps M s0 x4 := by
    refine wr_keeps (sub hM rfl) ?_
    refine takePending_keeps (sub hM rfl) ?_
    exact g3
  clear_value x4
  extract_lets +onlyGivenNames -lift x6
  have g7 : Keeps M s0 x6 := by
    refine wr_keeps (sub hM rfl) ?_
    refine wr_keeps (sub hM rfl) ?_
    exact g5
  clear_value x6
  refine Keeps.ite ?_ ?_
  · refine wr_keeps (sub hM rfl) ?_
    exact h0
  · refine Keeps.ite ?_ ?_
    · refine Keeps.ite ?_ ?_
      · exact g7
      · refine ask_keeps (sub hM rfl) ?_
        exact g7
    · refine dspErr_keeps (sub hM rfl) ?_
      refine wr_keeps (sub hM rfl) ?_
      exact h0

theorem headEnWrite_keeps {M : Nat} {s0 : State} {a0 : Nat} {a1 : Bool} {a2 : State} (hM : 8724169746 ||| M = M) (h0 : Keeps M s0 a2) :
    Keeps M s0 (headEnWrite a0 a1 a2) := by
  unfold headEnWrite
  extract_lets +onlyGivenNames -lift x0
  clear_value x0
  refine Keeps.ite ?_ ?_
  · refine headEnable_keeps (sub hM rfl) ?_
    refine Keeps.ite ?_ ?_
    · refine headOff_keeps (sub hM rfl) ?_
      exact h0
    · exact h0
  · refine Keeps.ite ?_ ?_
    · refine updHead_keeps (sub hM rfl) ?_
      refine wr_keeps (sub hM rfl) ?_
      refine wr_keeps (sub hM rfl) ?_
      refine wr_keeps (sub hM rfl) ?_
      exact h0
    · exact h0

theorem execDspCfgEnWrite_keeps {M : Nat} {s0 : State} {a0 : Fin 2} {a1 : Bool} {a2 : State} (hM : 8724169746 ||| M = M) (h0 : Keeps M s0 a2) :
    KeepsR M s0 (execDspCfgEnWrite a0 a1 a2) := by
  unfold execDspCfgEnWrite
  refine access_keeps (sub hM rfl) ?_ ?_
  · intro w0 k1
    refine headEnWrite_keeps (sub hM rfl) ?_
    exact k1
  · exact h0

theorem dspCfgWrite_keeps {M : Nat} {s0 : State} {a0 : Nat} {a1 : Word} {a2 : State} (hM : 8724300822 ||| M = M) (h0 : Keeps M s0 a2) :
    Keeps M s0 (dspCfgWrite a0 a1 a2) := by
  unfold dspCfgWrite
  extract_lets +onlyGivenNames -lift x0
  have g1 : Keeps M s0 x0 := by
    refine wr_keeps (sub hM rfl) ?_
    refine wr_keeps (sub hM rfl) ?_
    refine wr_keeps (sub hM rfl) ?_
    exact h0
  clear_value x0
  extract_lets +onlyGivenNames -lift x2
  have g3 : Keeps M s0 x2 := by
    refine headEnWrite_keeps (sub hM rfl) ?_
    exact g1
  clear_value x2
  refine Keeps.ite ?_ ?_
  · refine Keeps2.snd ?_
    refine armFlip_keeps (sub hM rfl) ?_
    exact g3
  · exact g3

theorem execHeadStop_keeps {M : Nat} {s0 : State} {a0 : Fin 2} {a1 : State} (hM : 8724169730 ||| M = M) (h0 : Keeps M s0 a1) :
    KeepsR M s0 (execHeadStop a0 a1) := by
  unfold execHeadStop
  refine KeepsR.ite ?_ ?_
  · refine KeepsR.next ?_
    refine headOff_keeps (sub hM rfl) ?_
    exact h0
  · refine KeepsR.next ?_
    exact h0

theorem headsReturn_keeps {M : Nat} {s0 : State} {a0 : State} (hM : 134217746 ||| M = M) (h0 : Keeps M s0 a0) :
    Keeps M s0 (headsReturn a0) := by
  unfold headsReturn
  refine forAll_keeps (sub hM rfl) ?_ ?_
  · intro w0 w1 k2
    refine Keeps.ite ?_ ?_
    · refine headEnable_keeps (sub hM rfl) ?_
      refine wr_keeps (sub hM rfl) ?_
      exact k2
    · exact k2
  · exact h0

theorem headsReset_keeps {M : Nat} {s0 : State} {a0 : State} (hM : 8724169730 ||| M = M) (h0 : Keeps M s0 a0) :
    Keeps M s0 (headsReset a0) := by
  unfold headsReset
  refine forAll_keeps (sub hM rfl) ?_ ?_
  · intro w0 w1 k2
    refine setHead_keeps (sub hM rfl) ?_
    refine headOff_keeps (sub hM rfl) ?_
    exact k2
  · exact h0

theorem execFetchComplete_keeps {M : Nat} {s0 : State} {a0 : Fin 2} {a1 : Bool} {a2 : State} (hM : 134348822 ||| M = M) (h0 : Keeps M s0 a2) :
    KeepsR M s0 (execFetchComplete a0 a1 a2) := by
  unfold execFetchComplete
  extract_lets +onlyGivenNames -lift x0
  clear_value x0
  extract_lets +onlyGivenNames -lift x1
  clear_value x1
  refine KeepsR.ite ?_ ?_
  · refine KeepsR.next ?_
    exact h0
  · split
    · refine KeepsR.next ?_
      exact h0
    · extract_lets +onlyGivenNames -lift x4
      have g5 : Keeps M s0 x4 := by
        refine updHead_keeps (sub hM rfl) ?_
        exact h0
      clear_value x4
      refine KeepsR.ite ?_ ?_
      · refine KeepsR.next ?_
        refine updHead_keeps (sub hM rfl) ?_
        exact g5
      · refine KeepsR.next ?_
        refine dspErr_keeps (sub hM rfl) ?_
        refine count_keeps (sub hM rfl) ?_
        exact g5

theorem sendStream_keeps {M : Nat} {s0 : State} {a0 : Nat} {a1 : Nat} {a2 : List (Nat × Nat × Nat)} {a3 : State} (hM : 138390 ||| M = M) (h0 : Keeps M s0 a3) :
    Keeps M s0 (sendStream a0 a1 a2 a3) := by
  unfold sendStream
  extract_lets +onlyGivenNames -lift x0
  clear_value x0
  extract_lets +onlyGivenNames -lift x1
  clear_value x1
  extract_lets +onlyGivenNames -lift x2
  clear_value x2
  refine Keeps.ite ?_ ?_
  · refine Keeps.ite ?_ ?_
    · refine raise_keeps (sub hM rfl) ?_
      refine wr_keeps (sub hM rfl) ?_
      exact h0
    · refine originate_keeps (sub hM rfl) ?_
      exact h0
  · exact h0

theorem outputLine_keeps {M : Nat} {s0 : State} {a0 : Nat} {a1 : Nat} {a2 : State} (hM : 134356118 ||| M = M) (h0 : Keeps M s0 a2) :
    Keeps M s0 (outputLine a0 a1 a2) := by
  unfold outputLine
  extract_lets +onlyGivenNames -lift x0
  clear_value x0
  extract_lets +onlyGivenNames -lift x1
  clear_value x1
  extract_lets +onlyGivenNames -lift x2
  clear_value x2
  extract_lets +onlyGivenNames -lift x3
  clear_value x3
  extract_lets +onlyGivenNames -lift x4
  clear_value x4
  extract_lets +onlyGivenNames -lift x5
  clear_value x5
  extract_lets +onlyGivenNames -lift x6
  have g7 : Keeps M s0 x6 := by
    refine updHead_keeps (sub hM rfl) ?_
    exact h0
  clear_value x6
  extract_lets +onlyGivenNames -lift x8
  have g9 : Keeps M s0 x8 := by
    refine count_keeps (sub hM rfl) ?_
    exact g7
  clear_value x8
  extract_lets +onlyGivenNames -lift x10
  have g11 : Keeps M s0 x10 := by
    refine Keeps.ite ?_ ?_
    · exact g9
    · refine sendDisp_keeps (sub hM rfl) ?_
      refine dspErr_keeps (sub hM rfl) ?_
      exact g9
  clear_value x10
  split
  · extract_lets +onlyGivenNames -lift x13
    clear_value x13
    refine sendStream_keeps (sub hM rfl) ?_
    refine updHead_keeps (sub hM rfl) ?_
    exact h0
  · refine sendStream_keeps (sub hM rfl) ?_
    exact g11

theorem execLineStart_keeps {M : Nat} {s0 : State} {a0 : Fin 2} {a1 : State} (hM : 134356118 ||| M = M) (h0 : Keeps M s0 a1) :
    KeepsR M s0 (execLineStart a0 a1) := by
  unfold execLineStart
  extract_lets +onlyGivenNames -lift x0
  clear_value x0
  extract_lets +onlyGivenNames -lift x1
  clear_value x1
  extract_lets +onlyGivenNames -lift x2
  clear_value x2
  extract_lets +onlyGivenNames -lift x3
  clear_value x3
  extract_lets +onlyGivenNames -lift x4
  clear_value x4
  extract_lets +onlyGivenNames -lift x5
  have g6 : Keeps M s0 x5 := by
    refine updHead_keeps (sub hM rfl) ?_
    exact h0
  clear_value x5
  extract_lets +onlyGivenNames -lift x7
  have g8 : Keeps M s0 x7 := by
    refine wr_keeps (sub hM rfl) ?_
    exact g6
  clear_value x7
  refine KeepsR.ite ?_ ?_
  · refine KeepsR.next ?_
    exact h0
  · refine KeepsR.ite ?_ ?_
    · refine KeepsR.next ?_
      refine Keeps.ite ?_ ?_
      · refine wr_keeps (sub hM rfl) ?_
        refine wr_keeps (sub hM rfl) ?_
        exact h0
      · exact h0
    · refine KeepsR.ite ?_ ?_
      · refine KeepsR.next ?_
        refine ask_keeps (sub hM rfl) ?_
        refine outputLine_keeps (sub hM rfl) ?_
        refine wr_keeps (sub hM rfl) ?_
        exact g8
      · refine KeepsR.next ?_
        refine ask_keeps (sub hM rfl) ?_
        exact g8

theorem execVblank_keeps {M : Nat} {s0 : State} {a0 : Fin 2} {a1 : State} (hM : 8724307094 ||| M = M) (h0 : Keeps M s0 a1) :
    KeepsR M s0 (execVblank a0 a1) := by
  unfold execVblank
  extract_lets +onlyGivenNames -lift x0
  clear_value x0
  extract_lets +onlyGivenNames -lift x1
  clear_value x1
  extract_lets +onlyGivenNames -lift x2
  have g3 : Keeps M s0 x2 := by
    refine updHead_keeps (sub hM rfl) ?_
    exact h0
  clear_value x2
  extract_lets +onlyGivenNames -lift x4
  have g5 : Keeps M s0 x4 := by
    refine wr_keeps (sub hM rfl) ?_
    refine wr_keeps (sub hM rfl) ?_
    exact g3
  clear_value x4
  extract_lets +onlyGivenNames -lift x6
  have g7 : Keeps M s0 x6 := by
    refine Keeps.ite ?_ ?_
    · refine latchFlip_keeps (sub hM rfl) ?_
      exact g5
    · exact g5
  clear_value x6
  extract_lets +onlyGivenNames -lift x8
  have g9 : Keeps M s0 x8 := by
    refine raise_keeps (sub hM rfl) ?_
    exact g7
  clear_value x8
  refine KeepsR.ite ?_ ?_
  · refine KeepsR.next ?_
    refine ask_keeps (sub hM rfl) ?_
    refine Keeps.ite ?_ ?_
    · refine sendDisp_keeps (sub hM rfl) ?_
      exact g9
    · exact g9
  · refine KeepsR.next ?_
    exact h0

theorem startTransfer_keeps {M : Nat} {s0 : State} {a0 : Nat} {a1 : State} (hM : 8724307094 ||| M = M) (h0 : Keeps M s0 a1) :
    Keeps M s0 (startTransfer a0 a1) := by
  unfold startTransfer
  extract_lets +onlyGivenNames -lift x0
  have g1 : Keeps M s0 x0 := by
    refine latchFlip_keeps (sub hM rfl) ?_
    exact h0
  clear_value x0
  extract_lets +onlyGivenNames -lift x2
  have g3 : Keeps M s0 x2 := by
    refine updHead_keeps (sub hM rfl) ?_
    exact g1
  clear_value x2
  refine ask_keeps (sub hM rfl) ?_
  refine wr_keeps (sub hM rfl) ?_
  refine wr_keeps (sub hM rfl) ?_
  exact g3

theorem execTeEdge_keeps {M : Nat} {s0 : State} {a0 : Fin 2} {a1 : State} (hM : 8724307094 ||| M = M) (h0 : Keeps M s0 a1) :
    KeepsR M s0 (execTeEdge a0 a1) := by
  unfold execTeEdge
  refine KeepsR.ite ?_ ?_
  · refine KeepsR.next ?_
    refine startTransfer_keeps (sub hM rfl) ?_
    exact h0
  · refine KeepsR.next ?_
    exact h0

theorem execTeTimeout_keeps {M : Nat} {s0 : State} {a0 : Fin 2} {a1 : State} (hM : 8724307094 ||| M = M) (h0 : Keeps M s0 a1) :
    KeepsR M s0 (execTeTimeout a0 a1) := by
  unfold execTeTimeout
  refine KeepsR.ite ?_ ?_
  · refine KeepsR.next ?_
    refine startTransfer_keeps (sub hM rfl) ?_
    refine dspErr_keeps (sub hM rfl) ?_
    refine count_keeps (sub hM rfl) ?_
    exact h0
  · refine KeepsR.next ?_
    exact h0

theorem execTolPublish_keeps {M : Nat} {s0 : State} {a0 : Fin 2} {a1 : State} (hM : 536870914 ||| M = M) (h0 : Keeps M s0 a1) :
    KeepsR M s0 (execTolPublish a0 a1) := by
  unfold execTolPublish
  extract_lets +onlyGivenNames -lift x0
  clear_value x0
  extract_lets +onlyGivenNames -lift x1
  have g2 : Keeps M s0 x1 := by
    refine wr_keeps (sub hM rfl) ?_
    exact h0
  clear_value x1
  refine KeepsR.next ?_
  refine Keeps.set_tols (hit hM rfl) (?_)
  exact g2

theorem execFlip_keeps {M : Nat} {s0 : State} {a0 : State} (hM : 135190 ||| M = M) (h0 : Keeps M s0 a0) :
    KeepsR M s0 (execFlip a0) := by
  unfold execFlip
  extract_lets +onlyGivenNames -lift x0
  clear_value x0
  split
  · rename_i y2 y3
    refine KeepsR.next ?_
    exact h0
  · rename_i y4 y5 y6 y7
    refine KeepsO.elim (m := M) (s0 := s0) y7 ?_ (fun g8 => ?_)
    · refine KeepsO.orElse ?_ ?_
      · refine takeFrame_keeps (sub hM rfl) ?_
        exact h0
      · intro w9
        refine takeFrame_keeps (sub hM rfl) ?_
        exact h0
    extract_lets +onlyGivenNames -lift x10
    clear_value x10
    refine KeepsR.next ?_
    refine Keeps2.snd ?_
    refine armFlip_keeps (sub hM rfl) ?_
    refine writeAddrs_keeps (sub hM rfl) ?_
    exact g8

theorem dmxRouteWrite_keeps {M : Nat} {s0 : State} {a0 : Word} {a1 : State} (hM : 2 ||| M = M) (h0 : Keeps M s0 a1) :
    Keeps2 M s0 (dmxRouteWrite a0 a1) := by
  unfold dmxRouteWrite
  extract_lets +onlyGivenNames -lift x0
  clear_value x0
  extract_lets +onlyGivenNames -lift x1
  clear_value x1
  refine Keeps2.ite ?_ ?_
  · refine Keeps2.mk ?_
    exact h0
  · refine Keeps2.mk ?_
    refine regSet_keeps (sub hM rfl) ?_
    exact h0

theorem execDmxRouteWrite_keeps {M : Nat} {s0 : State} {a0 : Word} {a1 : State} (hM : 2 ||| M = M) (h0 : Keeps M s0 a1) :
    KeepsR M s0 (execDmxRouteWrite a0 a1) := by
  unfold execDmxRouteWrite
  refine access_keeps (sub hM rfl) ?_ ?_
  · intro w0 k1
    refine Keeps2.snd ?_
    refine dmxRouteWrite_keeps (sub hM rfl) ?_
    exact k1
  · exact h0

theorem execDmxStatusRelay_keeps {M : Nat} {s0 : State} {a0 : State} (hM : 2 ||| M = M) (h0 : Keeps M s0 a0) :
    KeepsR M s0 (execDmxStatusRelay a0) := by
  unfold execDmxStatusRelay
  extract_lets +onlyGivenNames -lift x0
  clear_value x0
  extract_lets +onlyGivenNames -lift x1
  have g2 : ∀ v0 v1 v2 v3 v4, Keeps M s0 v4 → Keeps M s0 (x1 v0 v1 v2 v3 v4) := by
    intro w3 w4 w5 w6 w7 k8
    unfold x1
    split
    · refine wr_keeps (sub hM rfl) ?_
      refine wr_keeps (sub hM rfl) ?_
      refine wr_keeps (sub hM rfl) ?_
      exact k8
    · refine wr_keeps (sub hM rfl) ?_
      refine wr_keeps (sub hM rfl) ?_
      refine wr_keeps (sub hM rfl) ?_
      exact k8
  clear_value x1
  refine KeepsR.ite ?_ ?_
  · refine KeepsR.next ?_
    refine g2 _ _ _ _ _ ?_
    refine g2 _ _ _ _ _ ?_
    exact h0
  · refine KeepsR.next ?_
    exact h0

theorem execDspFlip_keeps {M : Nat} {s0 : State} {a0 : Origin} {a1 : List Byte} {a2 : State} (hM : 8724300822 ||| M = M) (h0 : Keeps M s0 a2) :
    KeepsR M s0 (execDspFlip a0 a1 a2) := by
  unfold execDspFlip
  extract_lets +onlyGivenNames -lift x0
  clear_value x0
  extract_lets +onlyGivenNames -lift x1
  clear_value x1
  refine command_keeps (sub hM rfl) ?_ ?_
  · intro w3 k4
    extract_lets +onlyGivenNames -lift x5
    clear_value x5
    refine Keeps.ite ?_ ?_
    · refine reply_keeps (sub hM rfl) ?_
      exact k4
    · refine Keeps.ite ?_ ?_
      · refine reply_keeps (sub hM rfl) ?_
        exact k4
      · split
        · rename_i y6 y7 y8 y9
          refine Keeps2.elim (m := M) (s0 := s0) y9 ?_ (fun g10 => ?_)
          · refine armFlip_keeps (sub hM rfl) ?_
            refine writeAddrs_keeps (sub hM rfl) ?_
            exact k4
          refine Keeps.ite ?_ ?_
          · refine reply_keeps (sub hM rfl) ?_
            exact g10
          · refine Keeps.ite ?_ ?_
            · refine updHead_keeps (sub hM rfl) ?_
              exact g10
            · refine reply_keeps (sub hM rfl) ?_
              exact g10
  · exact h0

theorem execDspStatus_keeps {M : Nat} {s0 : State} {a0 : Origin} {a1 : List Byte} {a2 : State} (hM : 8589952000 ||| M = M) (h0 : Keeps M s0 a2) :
    KeepsR M s0 (execDspStatus a0 a1 a2) := by
  unfold execDspStatus
  extract_lets +onlyGivenNames -lift x0
  clear_value x0
  refine command_keeps (sub hM rfl) ?_ ?_
  · intro w2 k3
    extract_lets +onlyGivenNames -lift x4
    clear_value x4
    extract_lets +onlyGivenNames -lift x5
    clear_value x5
    refine Keeps.ite ?_ ?_
    · refine reply_keeps (sub hM rfl) ?_
      exact k3
    · refine Keeps.ite ?_ ?_
      · refine reply_keeps (sub hM rfl) ?_
        exact k3
      · refine reply_keeps (sub hM rfl) ?_
        exact k3
  · exact h0

theorem execDspTimingLoad_keeps {M : Nat} {s0 : State} {a0 : Origin} {a1 : List Byte} {a2 : State} (hM : 8589952002 ||| M = M) (h0 : Keeps M s0 a2) :
    KeepsR M s0 (execDspTimingLoad a0 a1 a2) := by
  unfold execDspTimingLoad
  extract_lets +onlyGivenNames -lift x0
  clear_value x0
  refine command_keeps (sub hM rfl) ?_ ?_
  · intro w2 k3
    extract_lets +onlyGivenNames -lift x4
    clear_value x4
    refine Keeps.ite ?_ ?_
    · refine reply_keeps (sub hM rfl) ?_
      exact k3
    · refine Keeps.ite ?_ ?_
      · refine reply_keeps (sub hM rfl) ?_
        exact k3
      · split
        · refine reply_keeps (sub hM rfl) ?_
          exact k3
        · refine Keeps.ite ?_ ?_
          · refine reply_keeps (sub hM rfl) ?_
            exact k3
          · refine reply_keeps (sub hM rfl) ?_
            refine forAll_keeps (sub hM rfl) ?_ ?_
            · intro w5 w6 k7
              refine regSet_keeps (sub hM rfl) ?_
              exact k7
            · exact k3
  · exact h0

/-! Net. -/

theorem setEth_keeps {M : Nat} {s0 : State} {a0 : Nat} {a1 : EthPort} {a2 : State} (hM : 2147483648 ||| M = M) (h0 : Keeps M s0 a2) :
    Keeps M s0 (setEth a0 a1 a2) := by
  unfold setEth
  refine Keeps.set_eths (hit hM rfl) (?_)
  exact h0

theorem updEth_keeps {M : Nat} {s0 : State} {a0 : Nat} {a1 : EthPort → EthPort} {a2 : State} (hM : 2147483648 ||| M = M) (h0 : Keeps M s0 a2) :
    Keeps M s0 (updEth a0 a1 a2) := by
  unfold updEth
  refine setEth_keeps (sub hM rfl) ?_
  exact h0

theorem sendPause_keeps {M : Nat} {s0 : State} {a0 : Nat} {a1 : Nat} {a2 : State} (hM : 2147483648 ||| M = M) (h0 : Keeps M s0 a2) :
    Keeps M s0 (sendPause a0 a1 a2) := by
  unfold sendPause
  refine updEth_keeps (sub hM rfl) ?_
  exact h0

theorem pauseCheck_keeps {M : Nat} {s0 : State} {a0 : Nat} {a1 : State} (hM : 2147483648 ||| M = M) (h0 : Keeps M s0 a1) :
    Keeps M s0 (pauseCheck a0 a1) := by
  unfold pauseCheck
  extract_lets +onlyGivenNames -lift x0
  clear_value x0
  extract_lets +onlyGivenNames -lift x1
  clear_value x1
  extract_lets +onlyGivenNames -lift x2
  clear_value x2
  refine Keeps.ite ?_ ?_
  · refine updEth_keeps (sub hM rfl) ?_
    exact h0
  · refine Keeps.ite ?_ ?_
    · refine Keeps.ite ?_ ?_
      · refine sendPause_keeps (sub hM rfl) ?_
        refine updEth_keeps (sub hM rfl) ?_
        exact h0
      · exact h0
    · refine Keeps.ite ?_ ?_
      · refine sendPause_keeps (sub hM rfl) ?_
        refine updEth_keeps (sub hM rfl) ?_
        exact h0
      · exact h0

theorem execPauseRepeat_keeps {M : Nat} {s0 : State} {a0 : Fin 12} {a1 : State} (hM : 2147483648 ||| M = M) (h0 : Keeps M s0 a1) :
    KeepsR M s0 (execPauseRepeat a0 a1) := by
  unfold execPauseRepeat
  extract_lets +onlyGivenNames -lift x0
  clear_value x0
  extract_lets +onlyGivenNames -lift x1
  have g2 : Keeps M s0 x1 := by
    refine updEth_keeps (sub hM rfl) ?_
    exact h0
  clear_value x1
  extract_lets +onlyGivenNames -lift x3
  have g4 : Keeps M s0 x3 := by
    refine pauseCheck_keeps (sub hM rfl) ?_
    exact g2
  clear_value x3
  refine KeepsR.ite ?_ ?_
  · refine KeepsR.next ?_
    refine Keeps.ite ?_ ?_
    · refine sendPause_keeps (sub hM rfl) ?_
      exact g4
    · exact g4
  · refine KeepsR.next ?_
    exact g2

theorem execPauseFrameReceive_keeps {M : Nat} {s0 : State} {a0 : Fin 12} {a1 : BitVec 16} {a2 : State} (hM : 2147483648 ||| M = M) (h0 : Keeps M s0 a2) :
    KeepsR M s0 (execPauseFrameReceive a0 a1 a2) := by
  unfold execPauseFrameReceive
  extract_lets +onlyGivenNames -lift x0
  clear_value x0
  refine KeepsR.ite ?_ ?_
  · refine KeepsR.next ?_
    refine updEth_keeps (sub hM rfl) ?_
    exact h0
  · refine KeepsR.next ?_
    exact h0

theorem ethEnter_keeps {M : Nat} {s0 : State} {a0 : Nat} {a1 : Nat} {a2 : List Byte} {a3 : State} (hM : 2147622036 ||| M = M) (h0 : Keeps M s0 a3) :
    Keeps M s0 (ethEnter a0 a1 a2 a3) := by
  unfold ethEnter
  refine Keeps.ite ?_ ?_
  · refine originate_keeps (sub hM rfl) ?_
    exact h0
  · refine updEth_keeps (sub hM rfl) ?_
    exact h0

theorem execEthFrameReceive_keeps {M : Nat} {s0 : State} {a0 : Fin 12} {a1 : List Byte} {a2 : State} (hM : 2147622036 ||| M = M) (h0 : Keeps M s0 a2) :
    KeepsR M s0 (execEthFrameReceive a0 a1 a2) := by
  unfold execEthFrameReceive
  extract_lets +onlyGivenNames -lift x0
  clear_value x0
  extract_lets +onlyGivenNames -lift x1
  clear_value x1
  extract_lets +onlyGivenNames -lift x2
  have g3 : Keeps M s0 x2 := by
    refine updEth_keeps (sub hM rfl) ?_
    exact h0
  clear_value x2
  extract_lets +onlyGivenNames -lift x4
  have g5 : Keeps M s0 x4 := by
    refine countBy_keeps (sub hM rfl) ?_
    refine count_keeps (sub hM rfl) ?_
    exact g3
  clear_value x4
  extract_lets +onlyGivenNames -lift x6
  clear_value x6
  refine KeepsR.ite ?_ ?_
  · refine KeepsR.next ?_
    exact g3
  · refine KeepsR.ite ?_ ?_
    · refine KeepsR.next ?_
      refine count_keeps (sub hM rfl) ?_
      exact g3
    · refine KeepsR.ite ?_ ?_
      · refine KeepsR.next ?_
        refine pauseCheck_keeps (sub hM rfl) ?_
        refine raise_keeps (sub hM rfl) ?_
        refine count_keeps (sub hM rfl) ?_
        exact g5
      · split
        · extract_lets +onlyGivenNames -lift x11
          clear_value x11
          refine KeepsR.ite ?_ ?_
          · refine KeepsR.next ?_
            refine count_keeps (sub hM rfl) ?_
            exact g5
          · refine KeepsR.next ?_
            refine pauseCheck_keeps (sub hM rfl) ?_
            refine ethEnter_keeps (sub hM rfl) ?_
            exact g5

theorem ethFlush_keeps {M : Nat} {s0 : State} {a0 : Nat} {a1 : State} (hM : 2147622036 ||| M = M) (h0 : Keeps M s0 a1) :
    Keeps M s0 (ethFlush a0 a1) := by
  unfold ethFlush
  refine forAll_keeps (sub hM rfl) ?_ ?_
  · intro w1 w2 k3
    extract_lets +onlyGivenNames -lift x4
    clear_value x4
    extract_lets +onlyGivenNames -lift x5
    clear_value x5
    refine forAll_keeps (sub hM rfl) ?_ ?_
    · intro w6 w7 k8
      refine originate_keeps (sub hM rfl) ?_
      exact k8
    · refine updEth_keeps (sub hM rfl) ?_
      exact k3
  · exact h0

theorem ethUnwrap_keeps {M : Nat} {s0 : State} {a0 : Nat} {a1 : Frame} {a2 : State} (hM : 2147614740 ||| M = M) (h0 : Keeps M s0 a2) :
    Keeps M s0 (ethUnwrap a0 a1 a2) := by
  unfold ethUnwrap
  extract_lets +onlyGivenNames -lift x0
  clear_value x0
  extract_lets +onlyGivenNames -lift x1
  clear_value x1
  extract_lets +onlyGivenNames -lift x2
  clear_value x2
  extract_lets +onlyGivenNames -lift x3
  clear_value x3
  extract_lets +onlyGivenNames -lift x4
  clear_value x4
  extract_lets +onlyGivenNames -lift x5
  clear_value x5
  extract_lets +onlyGivenNames -lift x6
  clear_value x6
  extract_lets +onlyGivenNames -lift x7
  clear_value x7
  extract_lets +onlyGivenNames -lift x8
  clear_value x8
  extract_lets +onlyGivenNames -lift x9
  clear_value x9
  extract_lets +onlyGivenNames -lift x10
  clear_value x10
  extract_lets +onlyGivenNames -lift x11
  clear_value x11
  extract_lets +onlyGivenNames -lift x12
  clear_value x12
  refine Keeps.ite ?_ ?_
  · refine count_keeps (sub hM rfl) ?_
    exact h0
  · refine Keeps.ite ?_ ?_
    · refine count_keeps (sub hM rfl) ?_
      exact h0
    · refine updEth_keeps (sub hM rfl) ?_
      exact h0

theorem execEthFrameTransmit_keeps {M : Nat} {s0 : State} {a0 : Fin 12} {a1 : State} (hM : 2147622036 ||| M = M) (h0 : Keeps M s0 a1) :
    KeepsR M s0 (execEthFrameTransmit a0 a1) := by
  unfold execEthFrameTransmit
  extract_lets +onlyGivenNames -lift x0
  clear_value x0
  extract_lets +onlyGivenNames -lift x1
  clear_value x1
  extract_lets +onlyGivenNames -lift x2
  clear_value x2
  split
  · refine KeepsR.next ?_
    exact h0
  · refine KeepsR.ite ?_ ?_
    · refine KeepsR.next ?_
      exact h0
    · split
      · rename_i y6 y7 y8 y9
        refine Keeps2.elim (m := M) (s0 := s0) y9 ?_ (fun g10 => ?_)
        · split
          · refine Keeps2.mk ?_
            exact h0
          · split
            · refine Keeps2.mk ?_
              refine count_keeps (sub hM rfl) ?_
              exact h0
            · refine Keeps2.mk ?_
              refine Keeps.ite ?_ ?_
              · refine originate_keeps (sub hM rfl) ?_
                exact h0
              · exact h0
        extract_lets +onlyGivenNames -lift x11
        clear_value x11
        extract_lets +onlyGivenNames -lift x12
        have g13 : Keeps M s0 x12 := by
          refine countBy_keeps (sub hM rfl) ?_
          refine count_keeps (sub hM rfl) ?_
          exact g10
        clear_value x12
        refine KeepsR.next ?_
        refine updEth_keeps (sub hM rfl) ?_
        exact g13

theorem execEthLinkUp_keeps {M : Nat} {s0 : State} {a0 : Fin 12} {a1 : Fin 8} {a2 : State} (hM : 18 ||| M = M) (h0 : Keeps M s0 a2) :
    KeepsR M s0 (execEthLinkUp a0 a1 a2) := by
  unfold execEthLinkUp
  extract_lets +onlyGivenNames -lift x0
  clear_value x0
  refine KeepsR.ite ?_ ?_
  · refine KeepsR.next ?_
    refine raise_keeps (sub hM rfl) ?_
    refine wr_keeps (sub hM rfl) ?_
    refine wr_keeps (sub hM rfl) ?_
    exact h0
  · refine KeepsR.next ?_
    exact h0

theorem ethDown_keeps {M : Nat} {s0 : State} {a0 : Nat} {a1 : Bool} {a2 : State} (hM : 2147614742 ||| M = M) (h0 : Keeps M s0 a2) :
    Keeps M s0 (ethDown a0 a1 a2) := by
  unfold ethDown
  extract_lets +onlyGivenNames -lift x0
  have g1 : Keeps M s0 x0 := by
    unfold x0
    split
    · refine count_keeps (sub hM rfl) ?_
      refine updEth_keeps (sub hM rfl) ?_
      exact h0
    · exact h0
  clear_value x0
  extract_lets +onlyGivenNames -lift x2
  have g3 : Keeps M s0 x2 := by
    refine updEth_keeps (sub hM rfl) ?_
    exact g1
  clear_value x2
  refine Keeps.ite ?_ ?_
  · refine raise_keeps (sub hM rfl) ?_
    refine wr_keeps (sub hM rfl) ?_
    refine wr_keeps (sub hM rfl) ?_
    exact g3
  · exact h0

theorem execEthLinkLost_keeps {M : Nat} {s0 : State} {a0 : Fin 12} {a1 : Bool} {a2 : State} (hM : 2147614742 ||| M = M) (h0 : Keeps M s0 a2) :
    KeepsR M s0 (execEthLinkLost a0 a1 a2) := by
  unfold execEthLinkLost
  refine KeepsR.next ?_
  refine ethDown_keeps (sub hM rfl) ?_
  exact h0

theorem ethCfgWrite_keeps {M : Nat} {s0 : State} {a0 : Nat} {a1 : Word} {a2 : State} (hM : 2147614742 ||| M = M) (h0 : Keeps M s0 a2) :
    Keeps M s0 (ethCfgWrite a0 a1 a2) := by
  unfold ethCfgWrite
  extract_lets +onlyGivenNames -lift x0
  clear_value x0
  extract_lets +onlyGivenNames -lift x1
  have g2 : Keeps M s0 x1 := by
    refine regSet_keeps (sub hM rfl) ?_
    exact h0
  clear_value x1
  refine Keeps.ite ?_ ?_
  · refine ethDown_keeps (sub hM rfl) ?_
    exact g2
  · exact g2

theorem tnReset_keeps {M : Nat} {s0 : State} {a0 : Nat} {a1 : State} (hM : 6442450944 ||| M = M) (h0 : Keeps M s0 a1) :
    Keeps M s0 (tnReset a0 a1) := by
  unfold tnReset
  exact { h0 with same := fun i b => by refine Eq.trans ?_ (h0.same i b); unfold State.part; split <;> first | exact hit hM rfl b | rfl, wf := fun w => let q := h0.wf w; ⟨q.regs, q.ctrs, q.srcs, q.deep, q.nor⟩ }

theorem vctlApply_keeps {M : Nat} {s0 : State} {a0 : EntryPoint} {a1 : Nat} {a2 : State} (hM : 4294967296 ||| M = M) (h0 : Keeps M s0 a2) :
    Keeps2 M s0 (vctlApply a0 a1 a2) := by
  unfold vctlApply
  extract_lets +onlyGivenNames -lift x0
  clear_value x0
  refine Keeps2.ite ?_ ?_
  · refine Keeps2.mk ?_
    exact h0
  · refine Keeps2.mk ?_
    refine Keeps.set_etm (hit hM rfl) (?_)
    exact h0

theorem execEtmVctlApply_keeps {M : Nat} {s0 : State} {a0 : EntryPoint} {a1 : Fin 2} {a2 : State} (hM : 4294967296 ||| M = M) (h0 : Keeps M s0 a2) :
    KeepsR M s0 (execEtmVctlApply a0 a1 a2) := by
  unfold execEtmVctlApply
  refine access_keeps (sub hM rfl) ?_ ?_
  · intro w0 k1
    refine Keeps2.snd ?_
    refine vctlApply_keeps (sub hM rfl) ?_
    exact k1
  · exact h0

theorem vctlLoad_keeps {M : Nat} {s0 : State} {a0 : EntryPoint} {a1 : Nat} {a2 : State} (hM : 2 ||| M = M) (h0 : Keeps M s0 a2) :
    Keeps M s0 (vctlLoad a0 a1 a2) := by
  unfold vctlLoad
  refine regSet_keeps (sub hM rfl) ?_
  exact h0

theorem execEtmVctlLoad_keeps {M : Nat} {s0 : State} {a0 : EntryPoint} {a1 : Fin 2} {a2 : State} (hM : 2 ||| M = M) (h0 : Keeps M s0 a2) :
    KeepsR M s0 (execEtmVctlLoad a0 a1 a2) := by
  unfold execEtmVctlLoad
  refine access_keeps (sub hM rfl) ?_ ?_
  · intro w0 k1
    refine vctlLoad_keeps (sub hM rfl) ?_
    exact k1
  · exact h0

/-! HostIf. -/

theorem updHost_keeps {M : Nat} {s0 : State} {a0 : HostIf → HostIf} {a1 : State} (hM : 8589934592 ||| M = M) (h0 : Keeps M s0 a1) :
    Keeps M s0 (updHost a0 a1) := by
  unfold updHost
  refine Keeps.set_hostIf (hit hM rfl) (?_)
  exact h0

theorem setHostWord_keeps {M : Nat} {s0 : State} {a0 : Nat} {a1 : Word} {a2 : State} (hM : 8589934592 ||| M = M) (h0 : Keeps M s0 a2) :
    Keeps M s0 (setHostWord a0 a1 a2) := by
  unfold setHostWord
  refine updHost_keeps (sub hM rfl) ?_
  exact h0

theorem mbSubmit_keeps {M : Nat} {s0 : State} {a0 : Nat} {a1 : State} (hM : 8590083092 ||| M = M) (h0 : Keeps M s0 a1) :
    Keeps M s0 (mbSubmit a0 a1) := by
  unfold mbSubmit
  extract_lets +onlyGivenNames -lift x0
  clear_value x0
  refine Keeps.ite ?_ ?_
  · exact h0
  · refine Keeps.ite ?_ ?_
    · refine updHost_keeps (sub hM rfl) ?_
      exact h0
    · refine Keeps.ite ?_ ?_
      · refine count_keeps (sub hM rfl) ?_
        exact h0
      · refine accept_keeps (sub hM rfl) ?_
        refine updHost_keeps (sub hM rfl) ?_
        exact h0

theorem execMbSubmit_keeps {M : Nat} {s0 : State} {a0 : BitVec 16} {a1 : State} (hM : 8590083092 ||| M = M) (h0 : Keeps M s0 a1) :
    KeepsR M s0 (execMbSubmit a0 a1) := by
  unfold execMbSubmit
  refine KeepsR.next ?_
  refine mbSubmit_keeps (sub hM rfl) ?_
  exact h0

theorem rspAdvance_keeps {M : Nat} {s0 : State} {a0 : State} (hM : 8589950976 ||| M = M) (h0 : Keeps M s0 a0) :
    Keeps M s0 (rspAdvance a0) := by
  unfold rspAdvance
  refine Keeps.ite ?_ ?_
  · exact h0
  · split
    · exact h0
    · refine msix_keeps (sub hM rfl) ?_
      refine updHost_keeps (sub hM rfl) ?_
      refine freeTag_keeps (sub hM rfl) ?_
      refine updCmd_keeps (sub hM rfl) ?_
      exact h0

theorem mbRelease_keeps {M : Nat} {s0 : State} {a0 : State} (hM : 8589950976 ||| M = M) (h0 : Keeps M s0 a0) :
    Keeps M s0 (mbRelease a0) := by
  unfold mbRelease
  refine Keeps.ite ?_ ?_
  · refine rspAdvance_keeps (sub hM rfl) ?_
    refine updHost_keeps (sub hM rfl) ?_
    exact h0
  · exact h0

theorem execMbRelease_keeps {M : Nat} {s0 : State} {a0 : State} (hM : 8589950976 ||| M = M) (h0 : Keeps M s0 a0) :
    KeepsR M s0 (execMbRelease a0) := by
  unfold execMbRelease
  refine KeepsR.next ?_
  refine mbRelease_keeps (sub hM rfl) ?_
  exact h0

theorem readMbStat_keeps {M : Nat} {s0 : State} {a0 : State} (hM : 8589934592 ||| M = M) (h0 : Keeps M s0 a0) :
    Keeps2 M s0 (readMbStat a0) := by
  unfold readMbStat
  extract_lets +onlyGivenNames -lift x0
  clear_value x0
  extract_lets +onlyGivenNames -lift x1
  clear_value x1
  refine Keeps2.mk ?_
  refine updHost_keeps (sub hM rfl) ?_
  exact h0

theorem execMbStatRead_keeps {M : Nat} {s0 : State} {a0 : State} (hM : 8589934624 ||| M = M) (h0 : Keeps M s0 a0) :
    KeepsR M s0 (execMbStatRead a0) := by
  unfold execMbStatRead
  refine KeepsR.next ?_
  refine Keeps.ite ?_ ?_
  · refine returned_keeps (sub hM rfl) ?_
    refine readMbStat_keeps (sub hM rfl) ?_
    exact h0
  · exact h0

theorem txGo_keeps {M : Nat} {s0 : State} {a0 : Nat} {a1 : Nat} {a2 : State} (hM : 8590072980 ||| M = M) (h0 : Keeps M s0 a2) :
    Keeps M s0 (txGo a0 a1 a2) := by
  unfold txGo
  extract_lets +onlyGivenNames -lift x0
  clear_value x0
  extract_lets +onlyGivenNames -lift x1
  have g2 : Keeps M s0 x1 := by
    refine originate_keeps (sub hM rfl) ?_
    exact h0
  clear_value x1
  refine Keeps.ite ?_ ?_
  · exact h0
  · refine Keeps.ite ?_ ?_
    · refine updHost_keeps (sub hM rfl) ?_
      exact h0
    · refine Keeps.ite ?_ ?_
      · refine updHost_keeps (sub hM rfl) ?_
        exact g2
      · refine Keeps.ite ?_ ?_
        · refine msix_keeps (sub hM rfl) ?_
          exact g2
        · refine updHost_keeps (sub hM rfl) ?_
          exact g2

theorem execTxGo_keeps {M : Nat} {s0 : State} {a0 : BitVec 14} {a1 : BitVec 14} {a2 : State} (hM : 8590072980 ||| M = M) (h0 : Keeps M s0 a2) :
    KeepsR M s0 (execTxGo a0 a1 a2) := by
  unfold execTxGo
  refine KeepsR.next ?_
  refine txGo_keeps (sub hM rfl) ?_
  exact h0

theorem readTxStat_keeps {M : Nat} {s0 : State} {a0 : State} (hM : 8589934592 ||| M = M) (h0 : Keeps M s0 a0) :
    Keeps2 M s0 (readTxStat a0) := by
  unfold readTxStat
  refine Keeps2.mk ?_
  refine updHost_keeps (sub hM rfl) ?_
  exact h0

theorem execTxStatRead_keeps {M : Nat} {s0 : State} {a0 : State} (hM : 8589934624 ||| M = M) (h0 : Keeps M s0 a0) :
    KeepsR M s0 (execTxStatRead a0) := by
  unfold execTxStatRead
  refine KeepsR.next ?_
  refine Keeps.ite ?_ ?_
  · refine returned_keeps (sub hM rfl) ?_
    refine readTxStat_keeps (sub hM rfl) ?_
    exact h0
  · exact h0

theorem rqVector_keeps {M : Nat} {s0 : State} {a0 : Nat} {a1 : State} (hM : 8589934592 ||| M = M) (h0 : Keeps M s0 a1) :
    Keeps M s0 (rqVector a0 a1) := by
  unfold rqVector
  extract_lets +onlyGivenNames -lift x0
  clear_value x0
  refine Keeps.ite ?_ ?_
  · refine msix_keeps (sub hM rfl) ?_
    refine updHost_keeps (sub hM rfl) ?_
    exact h0
  · refine updHost_keeps (sub hM rfl) ?_
    exact h0

theorem rqDeliver_keeps {M : Nat} {s0 : State} {a0 : Frame} {a1 : State} (hM : 8590065684 ||| M = M) (h0 : Keeps M s0 a1) :
    Keeps M s0 (rqDeliver a0 a1) := by
  unfold rqDeliver
  extract_lets +onlyGivenNames -lift x0
  clear_value x0
  extract_lets +onlyGivenNames -lift x1
  clear_value x1
  extract_lets +onlyGivenNames -lift x2
  clear_value x2
  refine Keeps.ite ?_ ?_
  · refine count_keeps (sub hM rfl) ?_
    exact h0
  · refine Keeps.ite ?_ ?_
    · refine updHost_keeps (sub hM rfl) ?_
      exact h0
    · refine rqVector_keeps (sub hM rfl) ?_
      refine updHost_keeps (sub hM rfl) ?_
      exact h0

theorem rqRetry_keeps {M : Nat} {s0 : State} {a0 : State} (hM : 8590065684 ||| M = M) (h0 : Keeps M s0 a0) :
    Keeps M s0 (rqRetry a0) := by
  unfold rqRetry
  split
  · exact h0
  · refine rqDeliver_keeps (sub hM rfl) ?_
    refine updHost_keeps (sub hM rfl) ?_
    exact h0

theorem execRqCiWrite_keeps {M : Nat} {s0 : State} {a0 : Fin 16} {a1 : BitVec 16} {a2 : State} (hM : 8590065684 ||| M = M) (h0 : Keeps M s0 a2) :
    KeepsR M s0 (execRqCiWrite a0 a1 a2) := by
  unfold execRqCiWrite
  refine KeepsR.ite ?_ ?_
  · refine KeepsR.next ?_
    refine rqRetry_keeps (sub hM rfl) ?_
    refine setHostWord_keeps (sub hM rfl) ?_
    exact h0
  · refine KeepsR.next ?_
    exact h0

theorem unmasked_keeps {M : Nat} {s0 : State} {a0 : State} (hM : 8589934592 ||| M = M) (h0 : Keeps M s0 a0) :
    Keeps M s0 (unmasked a0) := by
  unfold unmasked
  refine forAll_keeps (sub hM rfl) ?_ ?_
  · intro w0 w1 k2
    refine msix_keeps (sub hM rfl) ?_
    exact k2
  · exact h0

theorem hostIfWrite_keeps {M : Nat} {s0 : State} {a0 : Nat} {a1 : Word} {a2 : State} (hM : 8590089364 ||| M = M) (h0 : Keeps M s0 a2) :
    Keeps M s0 (hostIfWrite a0 a1 a2) := by
  unfold hostIfWrite
  refine Keeps.ite ?_ ?_
  · exact h0
  · refine Keeps.ite ?_ ?_
    · refine mbSubmit_keeps (sub hM rfl) ?_
      exact h0
    · refine Keeps.ite ?_ ?_
      · refine mbRelease_keeps (sub hM rfl) ?_
        exact h0
      · refine Keeps.ite ?_ ?_
        · refine txGo_keeps (sub hM rfl) ?_
          exact h0
        · refine Keeps.ite ?_ ?_
          · refine Keeps.ite ?_ ?_
            · refine updHost_keeps (sub hM rfl) ?_
              exact h0
            · refine updHost_keeps (sub hM rfl) ?_
              exact h0
          · refine Keeps.ite ?_ ?_
            · refine updHost_keeps (sub hM rfl) ?_
              exact h0
            · refine Keeps.ite ?_ ?_
              · exact h0
              · refine rqRetry_keeps (sub hM rfl) ?_
                refine unmasked_keeps (sub hM rfl) ?_
                refine setHostWord_keeps (sub hM rfl) ?_
                exact h0

theorem hostIfRead_keeps {M : Nat} {s0 : State} {a0 : Nat} {a1 : State} (hM : 8589934592 ||| M = M) (h0 : Keeps M s0 a1) :
    Keeps2 M s0 (hostIfRead a0 a1) := by
  unfold hostIfRead
  refine Keeps2.ite ?_ ?_
  · refine readMbStat_keeps (sub hM rfl) ?_
    exact h0
  · refine Keeps2.ite ?_ ?_
    · refine readTxStat_keeps (sub hM rfl) ?_
      exact h0
    · refine Keeps2.ite ?_ ?_
      · refine Keeps2.mk ?_
        exact h0
      · refine Keeps2.ite ?_ ?_
        · refine Keeps2.mk ?_
          exact h0
        · refine Keeps2.ite ?_ ?_
          · refine Keeps2.mk ?_
            exact h0
          · refine Keeps2.mk ?_
            exact h0

theorem hostIfDown_keeps {M : Nat} {s0 : State} {a0 : State} (hM : 8590082068 ||| M = M) (h0 : Keeps M s0 a0) :
    Keeps M s0 (hostIfDown a0) := by
  unfold hostIfDown
  extract_lets +onlyGivenNames -lift x0
  have g1 : Keeps M s0 x0 := by
    refine loseAttachment_keeps (sub hM rfl) ?_
    exact h0
  clear_value x0
  extract_lets +onlyGivenNames -lift x2
  have g3 : Keeps M s0 x2 := by
    refine updCmd_keeps (sub hM rfl) ?_
    exact g1
  clear_value x2
  refine rqRetry_keeps (sub hM rfl) ?_
  refine updHost_keeps (sub hM rfl) ?_
  exact g3

theorem setBus_keeps {M : Nat} {s0 : State} {a0 : Bool} {a1 : Bool} {a2 : Bool} {a3 : State} (hM : 8589934594 ||| M = M) (h0 : Keeps M s0 a3) :
    Keeps M s0 (setBus a0 a1 a2 a3) := by
  unfold setBus
  refine unmasked_keeps (sub hM rfl) ?_
  refine wr_keeps (sub hM rfl) ?_
  refine wr_keeps (sub hM rfl) ?_
  refine wr_keeps (sub hM rfl) ?_
  exact h0

theorem hostTick_keeps {M : Nat} {s0 : State} {a0 : State} (hM : 8589934592 ||| M = M) (h0 : Keeps M s0 a0) :
    Keeps M s0 (hostTick a0) := by
  unfold hostTick
  extract_lets +onlyGivenNames -lift x0
  have g1 : Keeps M s0 x0 := by
    refine Keeps.ite ?_ ?_
    · refine msix_keeps (sub hM rfl) ?_
      refine updHost_keeps (sub hM rfl) ?_
      exact h0
    · exact h0
  clear_value x0
  extract_lets +onlyGivenNames -lift x2
  have g3 : Keeps M s0 x2 := by
    refine Keeps.ite ?_ ?_
    · refine msix_keeps (sub hM rfl) ?_
      refine updHost_keeps (sub hM rfl) ?_
      exact g1
    · exact g1
  clear_value x2
  refine forAll_keeps (sub hM rfl) ?_ ?_
  · intro w4 w5 k6
    refine rqVector_keeps (sub hM rfl) ?_
    exact k6
  · exact g3

theorem hostIfReset_keeps {M : Nat} {s0 : State} {a0 : State} (hM : 8590082068 ||| M = M) (h0 : Keeps M s0 a0) :
    Keeps M s0 (hostIfReset a0) := by
  unfold hostIfReset
  extract_lets +onlyGivenNames -lift x0
  have g1 : Keeps M s0 x0 := by
    refine hostIfDown_keeps (sub hM rfl) ?_
    exact h0
  clear_value x0
  refine Keeps.set_hostIf (hit hM rfl) (?_)
  exact g1

/-! LinePower. -/

theorem setEfuse_keeps {M : Nat} {s0 : State} {a0 : Nat} {a1 : EFuse} {a2 : State} (hM : 17179869184 ||| M = M) (h0 : Keeps M s0 a2) :
    Keeps M s0 (setEfuse a0 a1 a2) := by
  unfold setEfuse
  refine Keeps.set_efuses (hit hM rfl) (?_)
  exact h0

theorem updEfuse_keeps {M : Nat} {s0 : State} {a0 : Nat} {a1 : EFuse → EFuse} {a2 : State} (hM : 17179869184 ||| M = M) (h0 : Keeps M s0 a2) :
    Keeps M s0 (updEfuse a0 a1 a2) := by
  unfold updEfuse
  refine setEfuse_keeps (sub hM rfl) ?_
  exact h0

theorem lpwrAfter_keeps {M : Nat} {s0 : State} {a0 : State} {a1 : State} (hM : 68719476802 ||| M = M) (h0 : Keeps M s0 a0) (h1 : Keeps M s0 a1) :
    Keeps M s0 (lpwrAfter a0 a1) := by
  unfold lpwrAfter
  refine forAll_keeps (sub hM rfl) ?_ ?_
  · intro w0 w1 k2
    refine Keeps.ite ?_ ?_
    · exact k2
    · refine lpwrChanged_keeps (sub hM rfl) ?_
      exact k2
  · exact h1

theorem efEvent_keeps {M : Nat} {s0 : State} {a0 : State → State} {a1 : State} (hM : 68719476802 ||| M = M) (h0 : ∀ v0, Keeps M s0 v0 → Keeps M s0 (a0 v0)) (h1 : Keeps M s0 a1) :
    Keeps M s0 (efEvent a0 a1) := by
  unfold efEvent
  refine Keeps.ite ?_ ?_
  · exact h1
  · refine lpwrAfter_keeps (sub hM rfl) ?_ ?_
    · exact h1
    · refine h0 _ ?_
      exact h1

theorem setEf_keeps {M : Nat} {s0 : State} {a0 : Nat} {a1 : Nat} {a2 : State} (hM : 2 ||| M = M) (h0 : Keeps M s0 a2) :
    Keeps M s0 (setEf a0 a1 a2) := by
  unfold setEf
  refine wr_keeps (sub hM rfl) ?_
  exact h0

theorem pgOff_keeps {M : Nat} {s0 : State} {a0 : Nat} {a1 : State} (hM : 17179869186 ||| M = M) (h0 : Keeps M s0 a1) :
    Keeps M s0 (pgOff a0 a1) := by
  unfold pgOff
  refine Keeps.ite ?_ ?_
  · refine updEfuse_keeps (sub hM rfl) ?_
    exact h0
  · refine wr_keeps (sub hM rfl) ?_
    refine updEfuse_keeps (sub hM rfl) ?_
    exact h0

theorem turnOff_keeps {M : Nat} {s0 : State} {a0 : Nat} {a1 : Nat} {a2 : Nat} {a3 : State} (hM : 17179869186 ||| M = M) (h0 : Keeps M s0 a3) :
    Keeps M s0 (turnOff a0 a1 a2 a3) := by
  unfold turnOff
  extract_lets +onlyGivenNames -lift x0
  have g1 : Keeps M s0 x0 := by
    refine updEfuse_keeps (sub hM rfl) ?_
    refine pgOff_keeps (sub hM rfl) ?_
    exact h0
  clear_value x0
  refine wr_keeps (sub hM rfl) ?_
  refine wr_keeps (sub hM rfl) ?_
  refine setEf_keeps (sub hM rfl) ?_
  exact g1

theorem leaveOff_keeps {M : Nat} {s0 : State} {a0 : Nat} {a1 : State} (hM : 2 ||| M = M) (h0 : Keeps M s0 a1) :
    Keeps M s0 (leaveOff a0 a1) := by
  unfold leaveOff
  refine Keeps.ite ?_ ?_
  · exact h0
  · refine Keeps.ite ?_ ?_
    · refine Keeps.ite ?_ ?_
      · refine setEf_keeps (sub hM rfl) ?_
        exact h0
      · exact h0
    · refine Keeps.ite ?_ ?_
      · refine setEf_keeps (sub hM rfl) ?_
        exact h0
      · exact h0

theorem waitOver_keeps {M : Nat} {s0 : State} {a0 : Nat} {a1 : State} (hM : 2 ||| M = M) (h0 : Keeps M s0 a1) :
    Keeps M s0 (waitOver a0 a1) := by
  unfold waitOver
  refine Keeps.ite ?_ ?_
  · exact h0
  · refine Keeps.ite ?_ ?_
    · refine setEf_keeps (sub hM rfl) ?_
      exact h0
    · refine leaveOff_keeps (sub hM rfl) ?_
      refine setEf_keeps (sub hM rfl) ?_
      exact h0

theorem enterWait_keeps {M : Nat} {s0 : State} {a0 : Nat} {a1 : State} (hM : 2 ||| M = M) (h0 : Keeps M s0 a1) :
    Keeps M s0 (enterWait a0 a1) := by
  unfold enterWait
  extract_lets +onlyGivenNames -lift x0
  have g1 : Keeps M s0 x0 := by
    refine setEf_keeps (sub hM rfl) ?_
    exact h0
  clear_value x0
  split
  · refine waitOver_keeps (sub hM rfl) ?_
    exact g1
  · refine Keeps.ite ?_ ?_
    · refine waitOver_keeps (sub hM rfl) ?_
      exact g1
    · exact g1

theorem execOffMinExpiry_keeps {M : Nat} {s0 : State} {a0 : Fin 5} {a1 : State} (hM : 68719476802 ||| M = M) (h0 : Keeps M s0 a1) :
    KeepsR M s0 (execOffMinExpiry a0 a1) := by
  unfold execOffMinExpiry
  refine KeepsR.next ?_
  refine efEvent_keeps (sub hM rfl) ?_ ?_
  · intro w0 k1
    refine waitOver_keeps (sub hM rfl) ?_
    exact k1
  · exact h0

theorem qualOver_keeps {M : Nat} {s0 : State} {a0 : Nat} {a1 : Nat} {a2 : State} (hM : 25769821186 ||| M = M) (h0 : Keeps M s0 a2) :
    Keeps M s0 (qualOver a0 a1 a2) := by
  unfold qualOver
  extract_lets +onlyGivenNames -lift x0
  clear_value x0
  extract_lets +onlyGivenNames -lift x1
  have g2 : Keeps M s0 x1 := by
    refine updEfuse_keeps (sub hM rfl) ?_
    refine setEf_keeps (sub hM rfl) ?_
    exact h0
  clear_value x1
  split
  · exact g2
  · refine reply_keeps (sub hM rfl) ?_
    exact g2

theorem commandOff_keeps {M : Nat} {s0 : State} {a0 : Nat} {a1 : State} (hM : 25769821186 ||| M = M) (h0 : Keeps M s0 a1) :
    Keeps M s0 (commandOff a0 a1) := by
  unfold commandOff
  extract_lets +onlyGivenNames -lift x0
  have g1 : Keeps M s0 x0 := by
    refine updEfuse_keeps (sub hM rfl) ?_
    exact h0
  clear_value x0
  refine Keeps.ite ?_ ?_
  · refine enterWait_keeps (sub hM rfl) ?_
    refine turnOff_keeps (sub hM rfl) ?_
    exact g1
  · refine Keeps.ite ?_ ?_
    · refine qualOver_keeps (sub hM rfl) ?_
      exact g1
    · exact g1

theorem clearLatch_keeps {M : Nat} {s0 : State} {a0 : Nat} {a1 : State} (hM : 2 ||| M = M) (h0 : Keeps M s0 a1) :
    Keeps M s0 (clearLatch a0 a1) := by
  unfold clearLatch
  refine Keeps.ite ?_ ?_
  · refine enterWait_keeps (sub hM rfl) ?_
    exact h0
  · exact h0

theorem efEnWrite_keeps {M : Nat} {s0 : State} {a0 : Nat} {a1 : Bool} {a2 : State} (hM : 25769821186 ||| M = M) (h0 : Keeps M s0 a2) :
    Keeps M s0 (efEnWrite a0 a1 a2) := by
  unfold efEnWrite
  extract_lets +onlyGivenNames -lift x0
  clear_value x0
  extract_lets +onlyGivenNames -lift x1
  have g2 : Keeps M s0 x1 := by
    refine Keeps.ite ?_ ?_
    · refine wr_keeps (sub hM rfl) ?_
      exact h0
    · refine wr_keeps (sub hM rfl) ?_
      exact h0
  clear_value x1
  refine Keeps.ite ?_ ?_
  · refine commandOff_keeps (sub hM rfl) ?_
    exact g2
  · refine Keeps.ite ?_ ?_
    · refine leaveOff_keeps (sub hM rfl) ?_
      refine clearLatch_keeps (sub hM rfl) ?_
      refine updEfuse_keeps (sub hM rfl) ?_
      exact g2
    · exact g2

theorem execPcfgEnWrite_keeps {M : Nat} {s0 : State} {a0 : LPort} {a1 : Bool} {a2 : State} (hM : 94489297986 ||| M = M) (h0 : Keeps M s0 a2) :
    KeepsR M s0 (execPcfgEnWrite a0 a1 a2) := by
  unfold execPcfgEnWrite
  refine KeepsR.next ?_
  refine efEvent_keeps (sub hM rfl) ?_ ?_
  · intro w0 k1
    refine efEnWrite_keeps (sub hM rfl) ?_
    exact k1
  · exact h0

theorem execLcfgEnWrite_keeps {M : Nat} {s0 : State} {a0 : Bool} {a1 : State} (hM : 94489297986 ||| M = M) (h0 : Keeps M s0 a1) :
    KeepsR M s0 (execLcfgEnWrite a0 a1) := by
  unfold execLcfgEnWrite
  refine KeepsR.next ?_
  refine efEvent_keeps (sub hM rfl) ?_ ?_
  · intro w0 k1
    refine efEnWrite_keeps (sub hM rfl) ?_
    exact k1
  · exact h0

theorem roleWrite_keeps {M : Nat} {s0 : State} {a0 : Nat} {a1 : Nat} {a2 : State} (hM : 25769821186 ||| M = M) (h0 : Keeps M s0 a2) :
    Keeps M s0 (roleWrite a0 a1 a2) := by
  unfold roleWrite
  extract_lets +onlyGivenNames -lift x0
  clear_value x0
  extract_lets +onlyGivenNames -lift x1
  have g2 : Keeps M s0 x1 := by
    refine Keeps.ite ?_ ?_
    · exact h0
    · refine commandOff_keeps (sub hM rfl) ?_
      exact h0
  clear_value x1
  extract_lets +onlyGivenNames -lift x3
  have g4 : Keeps M s0 x3 := by
    refine wr_keeps (sub hM rfl) ?_
    exact g2
  clear_value x3
  extract_lets +onlyGivenNames -lift x5
  clear_value x5
  extract_lets +onlyGivenNames -lift x6
  clear_value x6
  refine Keeps.ite ?_ ?_
  · exact g4
  · refine Keeps.ite ?_ ?_
    · refine Keeps.ite ?_ ?_
      · refine setEf_keeps (sub hM rfl) ?_
        exact g4
      · exact g4
    · refine Keeps.ite ?_ ?_
      · refine enterWait_keeps (sub hM rfl) ?_
        exact g4
      · refine leaveOff_keeps (sub hM rfl) ?_
        exact g4

theorem execPcfgRoleWrite_keeps {M : Nat} {s0 : State} {a0 : LPort} {a1 : Fin 4} {a2 : State} (hM : 94489297986 ||| M = M) (h0 : Keeps M s0 a2) :
    KeepsR M s0 (execPcfgRoleWrite a0 a1 a2) := by
  unfold execPcfgRoleWrite
  refine KeepsR.next ?_
  refine efEvent_keeps (sub hM rfl) ?_ ?_
  · intro w0 k1
    refine roleWrite_keeps (sub hM rfl) ?_
    exact k1
  · exact h0

theorem lpwPcfgWrite_keeps {M : Nat} {s0 : State} {a0 : Nat} {a1 : Word} {a2 : State} (hM : 94489297986 ||| M = M) (h0 : Keeps M s0 a2) :
    Keeps M s0 (lpwPcfgWrite a0 a1 a2) := by
  unfold lpwPcfgWrite
  extract_lets +onlyGivenNames -lift x0
  clear_value x0
  extract_lets +onlyGivenNames -lift x1
  have g2 : Keeps M s0 x1 := by
    refine regSet_keeps (sub hM rfl) ?_
    exact h0
  clear_value x1
  refine efEvent_keeps (sub hM rfl) ?_ ?_
  · intro w3 k4
    refine leaveOff_keeps (sub hM rfl) ?_
    refine efEnWrite_keeps (sub hM rfl) ?_
    refine roleWrite_keeps (sub hM rfl) ?_
    exact k4
  · exact g2

theorem lpwLcfgWrite_keeps {M : Nat} {s0 : State} {a0 : Word} {a1 : State} (hM : 94489297986 ||| M = M) (h0 : Keeps M s0 a1) :
    Keeps M s0 (lpwLcfgWrite a0 a1) := by
  unfold lpwLcfgWrite
  extract_lets +onlyGivenNames -lift x0
  clear_value x0
  extract_lets +onlyGivenNames -lift x1
  have g2 : Keeps M s0 x1 := by
    refine regSet_keeps (sub hM rfl) ?_
    exact h0
  clear_value x1
  refine efEvent_keeps (sub hM rfl) ?_ ?_
  · intro w3 k4
    refine leaveOff_keeps (sub hM rfl) ?_
    refine efEnWrite_keeps (sub hM rfl) ?_
    exact k4
  · exact g2

theorem execQualifyComplete_keeps {M : Nat} {s0 : State} {a0 : LPort} {a1 : Bool} {a2 : Bool} {a3 : BitVec 16} {a4 : BitVec 16} {a5 : State} (hM : 94489429078 ||| M = M) (h0 : Keeps M s0 a5) :
    KeepsR M s0 (execQualifyComplete a0 a1 a2 a3 a4 a5) := by
  unfold execQualifyComplete
  extract_lets +onlyGivenNames -lift x0
  clear_value x0
  extract_lets +onlyGivenNames -lift x1
  clear_value x1
  extract_lets +onlyGivenNames -lift x2
  clear_value x2
  extract_lets +onlyGivenNames -lift x3
  have g4 : Keeps M s0 x3 := by
    refine wr_keeps (sub hM rfl) ?_
    refine updEfuse_keeps (sub hM rfl) ?_
    exact h0
  clear_value x3
  extract_lets +onlyGivenNames -lift x5
  have g6 : Keeps M s0 x5 := by
    refine Keeps.ite ?_ ?_
    · exact g4
    · refine count_keeps (sub hM rfl) ?_
      exact g4
  clear_value x5
  refine KeepsR.ite ?_ ?_
  · refine KeepsR.ite ?_ ?_
    · refine KeepsR.next ?_
      refine efEvent_keeps (sub hM rfl) ?_ ?_
      · intro w7 k8
        refine leaveOff_keeps (sub hM rfl) ?_
        refine qualOver_keeps (sub hM rfl) ?_
        exact k8
      · exact g6
    · refine KeepsR.ite ?_ ?_
      · refine KeepsR.next ?_
        refine efEvent_keeps (sub hM rfl) ?_ ?_
        · intro w9 k10
          refine setEf_keeps (sub hM rfl) ?_
          exact k10
        · exact g6
      · refine KeepsR.next ?_
        refine updEfuse_keeps (sub hM rfl) ?_
        refine setEf_keeps (sub hM rfl) ?_
        exact g6
  · refine KeepsR.next ?_
    exact h0

theorem execQualRetry_keeps {M : Nat} {s0 : State} {a0 : LPort} {a1 : State} (hM : 17179869186 ||| M = M) (h0 : Keeps M s0 a1) :
    KeepsR M s0 (execQualRetry a0 a1) := by
  unfold execQualRetry
  extract_lets +onlyGivenNames -lift x0
  clear_value x0
  refine KeepsR.ite ?_ ?_
  · refine KeepsR.next ?_
    refine leaveOff_keeps (sub hM rfl) ?_
    refine updEfuse_keeps (sub hM rfl) ?_
    exact h0
  · refine KeepsR.next ?_
    exact h0

theorem execInrushEnd_keeps {M : Nat} {s0 : State} {a0 : Fin 5} {a1 : State} (hM : 68719476802 ||| M = M) (h0 : Keeps M s0 a1) :
    KeepsR M s0 (execInrushEnd a0 a1) := by
  unfold execInrushEnd
  refine KeepsR.ite ?_ ?_
  · refine KeepsR.next ?_
    refine efEvent_keeps (sub hM rfl) ?_ ?_
    · intro w0 k1
      refine setEf_keeps (sub hM rfl) ?_
      exact k1
    · exact h0
  · refine KeepsR.next ?_
    exact h0

theorem trip_keeps {M : Nat} {s0 : State} {a0 : Nat} {a1 : Nat} {a2 : State} (hM : 17180000274 ||| M = M) (h0 : Keeps M s0 a2) :
    Keeps M s0 (trip a0 a1 a2) := by
  unfold trip
  refine logErr_keeps (sub hM rfl) ?_
  refine raise_keeps (sub hM rfl) ?_
  refine turnOff_keeps (sub hM rfl) ?_
  exact h0

theorem execInrushTimeout_keeps {M : Nat} {s0 : State} {a0 : Fin 5} {a1 : State} (hM : 85899477074 ||| M = M) (h0 : Keeps M s0 a1) :
    KeepsR M s0 (execInrushTimeout a0 a1) := by
  unfold execInrushTimeout
  refine KeepsR.ite ?_ ?_
  · refine KeepsR.next ?_
    refine efEvent_keeps (sub hM rfl) ?_ ?_
    · intro w0 k1
      refine trip_keeps (sub hM rfl) ?_
      exact k1
    · exact h0
  · refine KeepsR.next ?_
    exact h0

theorem curveTrip_keeps {M : Nat} {s0 : State} {a0 : Nat} {a1 : State} (hM : 17180000278 ||| M = M) (h0 : Keeps M s0 a1) :
    Keeps M s0 (curveTrip a0 a1) := by
  unfold curveTrip
  refine trip_keeps (sub hM rfl) ?_
  refine updEfuse_keeps (sub hM rfl) ?_
  refine count_keeps (sub hM rfl) ?_
  exact h0

theorem evalPg_keeps {M : Nat} {s0 : State} {a0 : Nat} {a1 : State} (hM : 17179869186 ||| M = M) (h0 : Keeps M s0 a1) :
    Keeps M s0 (evalPg a0 a1) := by
  unfold evalPg
  extract_lets +onlyGivenNames -lift x0
  clear_value x0
  extract_lets +onlyGivenNames -lift x1
  clear_value x1
  refine Keeps.ite ?_ ?_
  · refine Keeps.ite ?_ ?_
    · exact h0
    · refine wr_keeps (sub hM rfl) ?_
      refine updEfuse_keeps (sub hM rfl) ?_
      exact h0
  · refine Keeps.ite ?_ ?_
    · refine wr_keeps (sub hM rfl) ?_
      refine updEfuse_keeps (sub hM rfl) ?_
      exact h0
    · exact h0

theorem fetCheck_keeps {M : Nat} {s0 : State} {a0 : Nat} {a1 : State} (hM : 17179869184 ||| M = M) (h0 : Keeps M s0 a1) :
    Keeps M s0 (fetCheck a0 a1) := by
  unfold fetCheck
  extract_lets +onlyGivenNames -lift x0
  clear_value x0
  extract_lets +onlyGivenNames -lift x1
  clear_value x1
  extract_lets +onlyGivenNames -lift x2
  clear_value x2
  refine Keeps.ite ?_ ?_
  · refine updEfuse_keeps (sub hM rfl) ?_
    exact h0
  · refine updEfuse_keeps (sub hM rfl) ?_
    exact h0

theorem enterFetShort_keeps {M : Nat} {s0 : State} {a0 : Nat} {a1 : State} (hM : 131090 ||| M = M) (h0 : Keeps M s0 a1) :
    Keeps M s0 (enterFetShort a0 a1) := by
  unfold enterFetShort
  refine logErr_keeps (sub hM rfl) ?_
  refine raise_keeps (sub hM rfl) ?_
  refine setEf_keeps (sub hM rfl) ?_
  exact h0

theorem efTick_keeps {M : Nat} {s0 : State} {a0 : Nat} {a1 : Nat} {a2 : Nat} {a3 : State} (hM : 17180000278 ||| M = M) (h0 : Keeps M s0 a3) :
    Keeps M s0 (efTick a0 a1 a2 a3) := by
  unfold efTick
  extract_lets +onlyGivenNames -lift x0
  have g1 : Keeps M s0 x0 := by
    refine updEfuse_keeps (sub hM rfl) ?_
    exact h0
  clear_value x0
  extract_lets +onlyGivenNames -lift x2
  have g3 : Keeps M s0 x2 := by
    refine Keeps.ite ?_ ?_
    · exact g1
    · refine wr_keeps (sub hM rfl) ?_
      exact g1
  clear_value x2
  extract_lets +onlyGivenNames -lift x4
  have g5 : Keeps M s0 x4 := by
    refine updEfuse_keeps (sub hM rfl) ?_
    exact g3
  clear_value x4
  extract_lets +onlyGivenNames -lift x6
  have g7 : Keeps M s0 x6 := by
    refine Keeps.ite ?_ ?_
    · refine Keeps.ite ?_ ?_
      · refine curveTrip_keeps (sub hM rfl) ?_
        exact g5
      · refine wr_keeps (sub hM rfl) ?_
        exact g5
    · exact g3
  clear_value x6
  extract_lets +onlyGivenNames -lift x8
  have g9 : Keeps M s0 x8 := by
    refine evalPg_keeps (sub hM rfl) ?_
    exact g7
  clear_value x8
  extract_lets +onlyGivenNames -lift x10
  have g11 : Keeps M s0 x10 := by
    refine fetCheck_keeps (sub hM rfl) ?_
    exact g9
  clear_value x10
  refine Keeps.ite ?_ ?_
  · exact g9
  · refine Keeps.ite ?_ ?_
    · refine enterFetShort_keeps (sub hM rfl) ?_
      exact g11
    · exact g11

theorem tickTime_keeps {M : Nat} {s0 : State} {a0 : State} (hM : 327680 ||| M = M) (h0 : Keeps M s0 a0) :
    Keeps M s0 (tickTime a0) := by
  unfold tickTime
  extract_lets +onlyGivenNames -lift x0
  clear_value x0
  exact { h0 with same := fun i b => by refine Eq.trans ?_ (h0.same i b); unfold State.part; split <;> first | exact hit hM rfl b | rfl, wf := fun w => let q := h0.wf w; ⟨q.regs, q.ctrs, q.srcs, q.deep, q.nor⟩ }

theorem execSlowTick_keeps {M : Nat} {s0 : State} {a0 : List Nat} {a1 : List Nat} {a2 : BitVec 16} {a3 : State} (hM : 85899804758 ||| M = M) (h0 : Keeps M s0 a3) :
    KeepsR M s0 (execSlowTick a0 a1 a2 a3) := by
  unfold execSlowTick
  extract_lets +onlyGivenNames -lift x0
  have g1 : Keeps M s0 x0 := by
    refine Keeps.ite ?_ ?_
    · refine wr_keeps (sub hM rfl) ?_
      exact h0
    · exact h0
  clear_value x0
  extract_lets +onlyGivenNames -lift x2
  have g3 : Keeps M s0 x2 := by
    refine wr_keeps (sub hM rfl) ?_
    refine wr_keeps (sub hM rfl) ?_
    exact g1
  clear_value x2
  extract_lets +onlyGivenNames -lift x4
  have g5 : Keeps M s0 x4 := by
    refine Keeps.ite ?_ ?_
    · refine tickTime_keeps (sub hM rfl) ?_
      exact g3
    · exact g3
  clear_value x4
  refine KeepsR.ite ?_ ?_
  · refine KeepsR.next ?_
    exact h0
  · refine KeepsR.next ?_
    refine efEvent_keeps (sub hM rfl) ?_ ?_
    · intro w6 k7
      refine forAll_keeps (sub hM rfl) ?_ ?_
      · intro w8 w9 k10
        refine efTick_keeps (sub hM rfl) ?_
        exact k10
      · exact k7
    · exact g5

theorem execCurveTrip_keeps {M : Nat} {s0 : State} {a0 : Fin 5} {a1 : State} (hM : 85899477078 ||| M = M) (h0 : Keeps M s0 a1) :
    KeepsR M s0 (execCurveTrip a0 a1) := by
  unfold execCurveTrip
  refine KeepsR.ite ?_ ?_
  · refine KeepsR.next ?_
    refine efEvent_keeps (sub hM rfl) ?_ ?_
    · intro w0 k1
      refine curveTrip_keeps (sub hM rfl) ?_
      exact k1
    · exact h0
  · refine KeepsR.next ?_
    exact h0

theorem execFastTrip_keeps {M : Nat} {s0 : State} {a0 : Fin 5} {a1 : State} (hM : 85899477078 ||| M = M) (h0 : Keeps M s0 a1) :
    KeepsR M s0 (execFastTrip a0 a1) := by
  unfold execFastTrip
  extract_lets +onlyGivenNames -lift x0
  clear_value x0
  refine KeepsR.ite ?_ ?_
  · refine KeepsR.next ?_
    refine efEvent_keeps (sub hM rfl) ?_ ?_
    · intro w1 k2
      refine trip_keeps (sub hM rfl) ?_
      refine count_keeps (sub hM rfl) ?_
      exact k2
    · exact h0
  · refine KeepsR.ite ?_ ?_
    · refine KeepsR.next ?_
      refine wr_keeps (sub hM rfl) ?_
      refine count_keeps (sub hM rfl) ?_
      exact h0
    · refine KeepsR.next ?_
      exact h0

theorem execRemoval_keeps {M : Nat} {s0 : State} {a0 : LPort} {a1 : State} (hM : 85899477078 ||| M = M) (h0 : Keeps M s0 a1) :
    KeepsR M s0 (execRemoval a0 a1) := by
  unfold execRemoval
  extract_lets +onlyGivenNames -lift x0
  clear_value x0
  refine KeepsR.ite ?_ ?_
  · refine KeepsR.next ?_
    refine efEvent_keeps (sub hM rfl) ?_ ?_
    · intro w1 k2
      refine enterWait_keeps (sub hM rfl) ?_
      refine wr_keeps (sub hM rfl) ?_
      refine turnOff_keeps (sub hM rfl) ?_
      refine count_keeps (sub hM rfl) ?_
      exact k2
    · exact h0
  · refine KeepsR.next ?_
    exact h0

theorem execFetShort_keeps {M : Nat} {s0 : State} {a0 : LPort} {a1 : State} (hM : 68719607890 ||| M = M) (h0 : Keeps M s0 a1) :
    KeepsR M s0 (execFetShort a0 a1) := by
  unfold execFetShort
  refine KeepsR.ite ?_ ?_
  · refine KeepsR.next ?_
    refine efEvent_keeps (sub hM rfl) ?_ ?_
    · intro w0 k1
      refine enterFetShort_keeps (sub hM rfl) ?_
      exact k1
    · exact h0
  · refine KeepsR.next ?_
    exact h0

theorem execLpwrPeriodic_keeps {M : Nat} {s0 : State} {a0 : State} (hM : 64 ||| M = M) (h0 : Keeps M s0 a0) :
    KeepsR M s0 (execLpwrPeriodic a0) := by
  unfold execLpwrPeriodic
  refine KeepsR.ite ?_ ?_
  · refine KeepsR.next ?_
    exact h0
  · refine KeepsR.next ?_
    refine forAll_keeps (sub hM rfl) ?_ ?_
    · intro w0 w1 k2
      refine sendLpwr_keeps (sub hM rfl) ?_
      exact k2
    · exact h0

theorem cut_keeps {M : Nat} {s0 : State} {a0 : Nat} {a1 : Nat} {a2 : State} (hM : 25769821186 ||| M = M) (h0 : Keeps M s0 a2) :
    Keeps M s0 (cut a0 a1 a2) := by
  unfold cut
  extract_lets +onlyGivenNames -lift x0
  have g1 : Keeps M s0 x0 := by
    refine Keeps.ite ?_ ?_
    · refine qualOver_keeps (sub hM rfl) ?_
      exact h0
    · exact h0
  clear_value x0
  refine turnOff_keeps (sub hM rfl) ?_
  exact g1

theorem onLpwr_keeps {M : Nat} {s0 : State} {a0 : Nat} {a1 : Nat} {a2 : State} (hM : 94489298002 ||| M = M) (h0 : Keeps M s0 a2) :
    Keeps M s0 (onLpwr a0 a1 a2) := by
  unfold onLpwr
  extract_lets +onlyGivenNames -lift x0
  clear_value x0
  extract_lets +onlyGivenNames -lift x1
  clear_value x1
  extract_lets +onlyGivenNames -lift x2
  have g3 : Keeps M s0 x2 := by
    refine updLp_keeps (sub hM rfl) ?_
    refine wr_keeps (sub hM rfl) ?_
    exact h0
  clear_value x2
  refine efEvent_keeps (sub hM rfl) ?_ ?_
  · intro w5 k6
    extract_lets +onlyGivenNames -lift x7
    clear_value x7
    extract_lets +onlyGivenNames -lift x8
    clear_value x8
    extract_lets +onlyGivenNames -lift x9
    clear_value x9
    extract_lets +onlyGivenNames -lift x10
    have g11 : Keeps M s0 x10 := by
      refine raise_keeps (sub hM rfl) ?_
      refine wr_keeps (sub hM rfl) ?_
      exact k6
    clear_value x10
    extract_lets +onlyGivenNames -lift x12
    have g13 : Keeps M s0 x12 := by
      refine Keeps.ite ?_ ?_
      · refine Keeps.ite ?_ ?_
        · refine cut_keeps (sub hM rfl) ?_
          exact g11
        · exact g11
      · exact k6
    clear_value x12
    extract_lets +onlyGivenNames -lift x14
    have g15 : Keeps M s0 x14 := by
      refine Keeps.ite ?_ ?_
      · refine raise_keeps (sub hM rfl) ?_
        refine Keeps.ite ?_ ?_
        · exact g13
        · refine cut_keeps (sub hM rfl) ?_
          exact g13
      · exact g13
    clear_value x14
    refine leaveOff_keeps (sub hM rfl) ?_
    exact g15
  · exact g3

theorem execLpwr_keeps {M : Nat} {s0 : State} {a0 : LPort} {a1 : BitVec 48} {a2 : State} (hM : 94489298002 ||| M = M) (h0 : Keeps M s0 a2) :
    KeepsR M s0 (execLpwr a0 a1 a2) := by
  unfold execLpwr
  refine KeepsR.next ?_
  refine onLpwr_keeps (sub hM rfl) ?_
  exact h0

theorem execPwrwarnAssert_keeps {M : Nat} {s0 : State} {a0 : Bool} {a1 : State} (hM : 94527479510 ||| M = M) (h0 : Keeps M s0 a1) :
    KeepsR M s0 (execPwrwarnAssert a0 a1) := by
  unfold execPwrwarnAssert
  extract_lets +onlyGivenNames -lift x0
  have g1 : Keeps M s0 x0 := by
    refine wr_keeps (sub hM rfl) ?_
    exact h0
  clear_value x0
  extract_lets +onlyGivenNames -lift x2
  have g3 : Keeps M s0 x2 := by
    refine efEvent_keeps (sub hM rfl) ?_ ?_
    · intro w4 k5
      refine forAll_keeps (sub hM rfl) ?_ ?_
      · intro w6 w7 k8
        refine Keeps.ite ?_ ?_
        · refine qualOver_keeps (sub hM rfl) ?_
          exact k8
        · exact k8
      · refine wr_keeps (sub hM rfl) ?_
        exact k5
    · exact g1
  clear_value x2
  extract_lets +onlyGivenNames -lift x9
  have g10 : Keeps M s0 x9 := by
    refine raise_keeps (sub hM rfl) ?_
    refine warnPorts_keeps (sub hM rfl) ?_
    exact g3
  clear_value x9
  refine KeepsR.ite ?_ ?_
  · refine KeepsR.next ?_
    exact h0
  · refine KeepsR.ite ?_ ?_
    · refine KeepsR.next ?_
      refine wr_keeps (sub hM rfl) ?_
      exact h0
    · refine KeepsR.ite ?_ ?_
      · refine KeepsR.next ?_
        exact h0
      · refine KeepsR.next ?_
        refine Keeps.ite ?_ ?_
        · refine bypassSet_keeps (sub hM rfl) ?_
          exact g10
        · exact g10

theorem execPwrwarnDeassert_keeps {M : Nat} {s0 : State} {a0 : State} (hM : 68719476802 ||| M = M) (h0 : Keeps M s0 a0) :
    KeepsR M s0 (execPwrwarnDeassert a0) := by
  unfold execPwrwarnDeassert
  refine KeepsR.ite ?_ ?_
  · refine KeepsR.next ?_
    refine efEvent_keeps (sub hM rfl) ?_ ?_
    · intro w0 k1
      refine forAll_keeps (sub hM rfl) ?_ ?_
      · intro w2 w3 k4
        refine leaveOff_keeps (sub hM rfl) ?_
        exact k4
      · refine wr_keeps (sub hM rfl) ?_
        exact k1
    · exact h0
  · refine KeepsR.next ?_
    exact h0

theorem execUvlo_keeps {M : Nat} {s0 : State} {a0 : State} (hM : 128849036370 ||| M = M) (h0 : Keeps M s0 a0) :
    KeepsR M s0 (execUvlo a0) := by
  unfold execUvlo
  extract_lets +onlyGivenNames -lift x0
  clear_value x0
  extract_lets +onlyGivenNames -lift x1
  have g2 : Keeps M s0 x1 := by
    refine Keeps.set_nurse (hit hM rfl) (?_)
    exact h0
  clear_value x1
  refine KeepsR.next ?_
  refine efEvent_keeps (sub hM rfl) ?_ ?_
  · intro w3 k4
    refine raise_keeps (sub hM rfl) ?_
    refine forAll_keeps (sub hM rfl) ?_ ?_
    · intro w5 w6 k7
      refine Keeps.ite ?_ ?_
      · refine enterWait_keeps (sub hM rfl) ?_
        refine turnOff_keeps (sub hM rfl) ?_
        exact k7
      · refine Keeps.ite ?_ ?_
        · refine qualOver_keeps (sub hM rfl) ?_
          exact k7
        · exact k7
    · refine wr_keeps (sub hM rfl) ?_
      exact k4
  · exact g2

theorem execLbusVon_keeps {M : Nat} {s0 : State} {a0 : State} (hM : 103079215170 ||| M = M) (h0 : Keeps M s0 a0) :
    KeepsR M s0 (execLbusVon a0) := by
  unfold execLbusVon
  refine KeepsR.next ?_
  refine efEvent_keeps (sub hM rfl) ?_ ?_
  · intro w2 k3
    extract_lets +onlyGivenNames -lift x4
    clear_value x4
    refine forAll_keeps (sub hM rfl) ?_ ?_
    · intro w5 w6 k7
      refine leaveOff_keeps (sub hM rfl) ?_
      exact k7
    · refine wr_keeps (sub hM rfl) ?_
      refine Keeps.set_nurse (hit hM rfl) (?_)
      exact k3
  · exact h0

theorem curveApply_keeps {M : Nat} {s0 : State} {a0 : Nat} {a1 : List Word} {a2 : State} (hM : 17179869184 ||| M = M) (h0 : Keeps M s0 a2) :
    Keeps2 M s0 (curveApply a0 a1 a2) := by
  unfold curveApply
  refine Keeps2.ite ?_ ?_
  · refine Keeps2.mk ?_
    refine updEfuse_keeps (sub hM rfl) ?_
    exact h0
  · refine Keeps2.mk ?_
    exact h0

theorem cctlApply_keeps {M : Nat} {s0 : State} {a0 : EntryPoint} {a1 : State} (hM : 17179869184 ||| M = M) (h0 : Keeps M s0 a1) :
    Keeps2 M s0 (cctlApply a0 a1) := by
  unfold cctlApply
  refine curveApply_keeps (sub hM rfl) ?_
  exact h0

theorem execLpwCctlApply_keeps {M : Nat} {s0 : State} {a0 : EntryPoint} {a1 : State} (hM : 17179869184 ||| M = M) (h0 : Keeps M s0 a1) :
    KeepsR M s0 (execLpwCctlApply a0 a1) := by
  unfold execLpwCctlApply
  refine KeepsR.next ?_
  refine Keeps2.snd ?_
  refine cctlApply_keeps (sub hM rfl) ?_
  exact h0

theorem cctlLoad_keeps {M : Nat} {s0 : State} {a0 : EntryPoint} {a1 : State} (hM : 2 ||| M = M) (h0 : Keeps M s0 a1) :
    Keeps M s0 (cctlLoad a0 a1) := by
  unfold cctlLoad
  extract_lets +onlyGivenNames -lift x0
  clear_value x0
  refine Keeps.ite ?_ ?_
  · refine forAll_keeps (sub hM rfl) ?_ ?_
    · intro w1 w2 k3
      refine regSet_keeps (sub hM rfl) ?_
      exact k3
    · exact h0
  · exact h0

theorem execLpwCctlLoad_keeps {M : Nat} {s0 : State} {a0 : EntryPoint} {a1 : State} (hM : 2 ||| M = M) (h0 : Keeps M s0 a1) :
    KeepsR M s0 (execLpwCctlLoad a0 a1) := by
  unfold execLpwCctlLoad
  refine KeepsR.next ?_
  refine cctlLoad_keeps (sub hM rfl) ?_
  exact h0

theorem efCommand_keeps {M : Nat} {s0 : State} {a0 : Origin} {a1 : List Byte} {a2 : Nat} {a3 : Nat → State → Bool} {a4 : Nat → State → State} {a5 : State} (hM : 8589952000 ||| M = M) (h0 : ∀ v0 v1, Keeps M s0 v1 → Keeps M s0 (a4 v0 v1)) (h1 : Keeps M s0 a5) :
    KeepsR M s0 (efCommand a0 a1 a2 a3 a4 a5) := by
  unfold efCommand
  extract_lets +onlyGivenNames -lift x0
  clear_value x0
  refine command_keeps (sub hM rfl) ?_ ?_
  · intro w1 k2
    refine Keeps.ite ?_ ?_
    · refine reply_keeps (sub hM rfl) ?_
      exact k2
    · refine Keeps.ite ?_ ?_
      · refine reply_keeps (sub hM rfl) ?_
        exact k2
      · refine h0 _ _ ?_
        exact k2
  · exact h1

theorem efCtl_keeps {M : Nat} {s0 : State} {a0 : Nat} {a1 : Nat} {a2 : State} (hM : 25769821186 ||| M = M) (h0 : Keeps M s0 a2) :
    Keeps2 M s0 (efCtl a0 a1 a2) := by
  unfold efCtl
  extract_lets +onlyGivenNames -lift x0
  clear_value x0
  split
  · refine Keeps2.mk ?_
    refine commandOff_keeps (sub hM rfl) ?_
    exact h0
  · refine Keeps2.ite ?_ ?_
    · refine Keeps2.mk ?_
      exact h0
    · refine Keeps2.ite ?_ ?_
      · refine Keeps2.mk ?_
        exact h0
      · refine Keeps2.ite ?_ ?_
        · refine Keeps2.mk ?_
          refine leaveOff_keeps (sub hM rfl) ?_
          refine updEfuse_keeps (sub hM rfl) ?_
          exact h0
        · refine Keeps2.mk ?_
          exact h0
  · refine Keeps2.mk ?_
    refine clearLatch_keeps (sub hM rfl) ?_
    exact h0
  · refine Keeps2.ite ?_ ?_
    · refine Keeps2.mk ?_
      exact h0
    · refine Keeps2.mk ?_
      refine Keeps.ite ?_ ?_
      · refine enterWait_keeps (sub hM rfl) ?_
        exact h0
      · exact h0

theorem execEfuseCtl_keeps {M : Nat} {s0 : State} {a0 : Origin} {a1 : List Byte} {a2 : State} (hM : 94489297986 ||| M = M) (h0 : Keeps M s0 a2) :
    KeepsR M s0 (execEfuseCtl a0 a1 a2) := by
  unfold execEfuseCtl
  refine efCommand_keeps (sub hM rfl) ?_ ?_
  · intro w1 w2 k3
    extract_lets +onlyGivenNames -lift x4
    clear_value x4
    extract_lets +onlyGivenNames -lift x5
    have g6 : Keeps M s0 x5 := by
      refine efEvent_keeps (sub hM rfl) ?_ ?_
      · intro w7 k8
        refine Keeps2.snd ?_
        refine efCtl_keeps (sub hM rfl) ?_
        exact k8
      · exact k3
    clear_value x5
    refine reply_keeps (sub hM rfl) ?_
    exact g6
  · exact h0

theorem execEfuseStatus_keeps {M : Nat} {s0 : State} {a0 : Origin} {a1 : List Byte} {a2 : State} (hM : 8589952000 ||| M = M) (h0 : Keeps M s0 a2) :
    KeepsR M s0 (execEfuseStatus a0 a1 a2) := by
  unfold execEfuseStatus
  refine efCommand_keeps (sub hM rfl) ?_ ?_
  · intro w1 w2 k3
    extract_lets +onlyGivenNames -lift x4
    clear_value x4
    refine reply_keeps (sub hM rfl) ?_
    exact k3
  · exact h0

theorem execEfuseCurve_keeps {M : Nat} {s0 : State} {a0 : Origin} {a1 : List Byte} {a2 : State} (hM : 25769821184 ||| M = M) (h0 : Keeps M s0 a2) :
    KeepsR M s0 (execEfuseCurve a0 a1 a2) := by
  unfold execEfuseCurve
  refine efCommand_keeps (sub hM rfl) ?_ ?_
  · intro w0 w1 k2
    split
    · rename_i y3 y4 y5 y6
      refine Keeps2.elim (m := M) (s0 := s0) y6 ?_ (fun g7 => ?_)
      · refine Keeps2.ite ?_ ?_
        · refine Keeps2.mk ?_
          exact k2
        · refine curveApply_keeps (sub hM rfl) ?_
          exact k2
      refine reply_keeps (sub hM rfl) ?_
      exact g7
  · exact h0

theorem execSegQualify_keeps {M : Nat} {s0 : State} {a0 : Origin} {a1 : List Byte} {a2 : State} (hM : 25769821186 ||| M = M) (h0 : Keeps M s0 a2) :
    KeepsR M s0 (execSegQualify a0 a1 a2) := by
  unfold execSegQualify
  refine efCommand_keeps (sub hM rfl) ?_ ?_
  · intro w0 w1 k2
    refine Keeps.ite ?_ ?_
    · refine reply_keeps (sub hM rfl) ?_
      exact k2
    · refine updEfuse_keeps (sub hM rfl) ?_
      refine setEf_keeps (sub hM rfl) ?_
      exact k2
  · exact h0

/-! Dies. -/

theorem dieRegs_keeps {M : Nat} {s0 : State} {a0 : Nat} {a1 : State} (hM : 14 ||| M = M) (h0 : Keeps M s0 a1) :
    Keeps M s0 (dieRegs a0 a1) := by
  unfold dieRegs
  exact
    { h0 with
      same := fun i b => by refine Eq.trans ?_ (h0.same i b); unfold State.part; split <;> first | exact hit hM rfl b | rfl
      wf := fun w => let q := h0.wf w; ⟨Tab.wf_keep _ (fun k => addrSlot (k % 0x100000000) != a0) q.regs, Tab.wf_keep _ (fun k => addrSlot k != a0) q.ctrs, q.srcs, q.deep, q.nor⟩ }

theorem dieUnits_keeps {M : Nat} {s0 : State} {a0 : Nat} {a1 : State} (hM : 2103296 ||| M = M) (h0 : Keeps M s0 a1) :
    Keeps M s0 (dieUnits a0 a1) := by
  unfold dieUnits
  extract_lets +onlyGivenNames -lift x0
  clear_value x0
  extract_lets +onlyGivenNames -lift x1
  clear_value x1
  extract_lets +onlyGivenNames -lift x2
  have g3 : Keeps M s0 x2 := by
    refine updTuns_keeps (sub hM rfl) ?_
    exact h0
  clear_value x2
  extract_lets +onlyGivenNames -lift x4
  have g5 : Keeps M s0 x4 := by
    refine updSched_keeps (sub hM rfl) ?_
    exact g3
  clear_value x4
  refine Keeps.set_trims (hit hM rfl) (?_)
  exact g5

theorem tuDieReset_keeps {M : Nat} {s0 : State} {a0 : Nat} {a1 : State} (hM : 54697118 ||| M = M) (h0 : Keeps M s0 a1) :
    Keeps M s0 (tuDieReset a0 a1) := by
  unfold tuDieReset
  extract_lets +onlyGivenNames -lift x0
  have g1 : Keeps M s0 x0 := by
    refine proxyReset_keeps (sub hM rfl) ?_
    refine dieRegs_keeps (sub hM rfl) ?_
    refine forAll_keeps (sub hM rfl) ?_ ?_
    · intro w2 w3 k4
      refine release_keeps (sub hM rfl) ?_
      exact k4
    · exact h0
  clear_value x0
  extract_lets +onlyGivenNames -lift x5
  have g6 : Keeps M s0 x5 := by
    refine forAll_keeps (sub hM rfl) ?_ ?_
    · intro w7 w8 k9
      refine updTcp_keeps (sub hM rfl) ?_
      exact k9
    · exact g1
  clear_value x5
  refine tuReset_keeps (sub hM rfl) ?_
  refine Keeps.set_pdTables (hit hM rfl) (?_)
  exact g6

theorem tvDieReset_keeps {M : Nat} {s0 : State} {a0 : State} (hM : 9529476110 ||| M = M) (h0 : Keeps M s0 a0) :
    Keeps M s0 (tvDieReset a0) := by
  unfold tvDieReset
  have g1 : Keeps M s0 (dieRegs 5 (headsReset a0)) := dieRegs_keeps (sub hM rfl) (headsReset_keeps (sub hM rfl) h0)
  exact { g1 with same := fun i b => by refine Eq.trans ?_ (g1.same i b); unfold State.part; split <;> first | exact hit hM rfl b | rfl, wf := fun w => let q := g1.wf w; ⟨q.regs, q.ctrs, q.srcs, q.deep, q.nor⟩ }

theorem dieReset_keeps {M : Nat} {s0 : State} {a0 : Nat} {a1 : State} (hM : 16028720286 ||| M = M) (h0 : Keeps M s0 a1) :
    Keeps M s0 (dieReset a0 a1) := by
  unfold dieReset
  extract_lets +onlyGivenNames -lift x0
  have g1 : Keeps M s0 x0 := by
    refine dieUnits_keeps (sub hM rfl) ?_
    exact h0
  clear_value x0
  split
  · refine tuDieReset_keeps (sub hM rfl) ?_
    exact g1
  · refine tuDieReset_keeps (sub hM rfl) ?_
    exact g1
  · refine dieRegs_keeps (sub hM rfl) ?_
    refine tnReset_keeps (sub hM rfl) ?_
    exact g1
  · refine dieRegs_keeps (sub hM rfl) ?_
    refine tnReset_keeps (sub hM rfl) ?_
    exact g1
  · refine dieRegs_keeps (sub hM rfl) ?_
    refine hostIfReset_keeps (sub hM rfl) ?_
    exact g1
  · refine tvDieReset_keeps (sub hM rfl) ?_
    exact g1
  · exact g1

theorem dieSrcsIdle_keeps {M : Nat} {s0 : State} {a0 : Nat} {a1 : State} (hM : 16 ||| M = M) (h0 : Keeps M s0 a1) :
    Keeps M s0 (dieSrcsIdle a0 a1) := by
  unfold dieSrcsIdle
  exact Keeps.set_srcs (hit hM rfl) (Tab.wf_keep _ _) h0

theorem linkDown_keeps {M : Nat} {s0 : State} {a0 : Nat} {a1 : State} (hM : 130 ||| M = M) (h0 : Keeps M s0 a1) :
    Keeps M s0 (linkDown a0 a1) := by
  unfold linkDown
  extract_lets +onlyGivenNames -lift x0
  have g1 : Keeps M s0 x0 := by
    refine wr_keeps (sub hM rfl) ?_
    refine wr_keeps (sub hM rfl) ?_
    exact h0
  clear_value x0
  refine setTolger_keeps (sub hM rfl) ?_
  exact g1

end Sys2Proof.Machine
end

