-- ==== Sys2Proof/Laws/KeepsRegs.lean ====
section
/-! SUPPORT. `Keeps` for the operations and commands of the Nurse, register access and what the bridge sends. A mask is the sum of 2^i over the fields of State that may
change, numbered as `Keeps` numbers them. -/
namespace Sys2Proof.Machine

-- One theorem at a time, so that the package as one text compiles within its memory limit.
set_option Elab.async false

/-! Nurse. -/

theorem execLdSleepEntry_keeps {M : Nat} {s0 : State} {a0 : Bool} {a1 : State} (hM : 34360000530 ||| M = M) (h0 : Keeps M s0 a1) :
    KeepsR M s0 (execLdSleepEntry a0 a1) := by
  unfold execLdSleepEntry
  extract_lets +onlyGivenNames -lift x0
  clear_value x0
  extract_lets +onlyGivenNames -lift x1
  have g2 : Keeps M s0 x1 := by
    refine Keeps.set_nurse (hit hM rfl) (?_)
    exact h0
  clear_value x1
  extract_lets +onlyGivenNames -lift x3
  have g4 : Keeps M s0 x3 := by
    refine wr_keeps (sub hM rfl) ?_
    refine wr_keeps (sub hM rfl) ?_
    exact g2
  clear_value x3
  extract_lets +onlyGivenNames -lift x5
  clear_value x5
  extract_lets +onlyGivenNames -lift x6
  clear_value x6
  extract_lets +onlyGivenNames -lift x7
  clear_value x7
  extract_lets +onlyGivenNames -lift x8
  clear_value x8
  extract_lets +onlyGivenNames -lift x9
  have g10 : Keeps M s0 x9 := by
    refine Keeps.set_time (hit hM rfl) (?_)
    exact g4
  clear_value x9
  refine KeepsR.ite ?_ ?_
  · refine KeepsR.next ?_
    exact h0
  · refine KeepsR.ite ?_ ?_
    · refine KeepsR.next ?_
      exact g4
    · refine KeepsR.next ?_
      refine raise_keeps (sub hM rfl) ?_
      refine wr_keeps (sub hM rfl) ?_
      exact g10

theorem noteWake_keeps {M : Nat} {s0 : State} {a0 : Nat} {a1 : Nat} {a2 : State} (hM : 2 ||| M = M) (h0 : Keeps M s0 a2) :
    Keeps M s0 (noteWake a0 a1 a2) := by
  unfold noteWake
  refine Keeps.ite ?_ ?_
  · exact h0
  · refine wr_keeps (sub hM rfl) ?_
    refine wr_keeps (sub hM rfl) ?_
    refine wr_keeps (sub hM rfl) ?_
    exact h0

theorem execLdWake_keeps {M : Nat} {s0 : State} {a0 : Fin 5} {a1 : Fin 32} {a2 : State} (hM : 34359738386 ||| M = M) (h0 : Keeps M s0 a2) :
    KeepsR M s0 (execLdWake a0 a1 a2) := by
  unfold execLdWake
  extract_lets +onlyGivenNames -lift x0
  clear_value x0
  extract_lets +onlyGivenNames -lift x1
  have g2 : Keeps M s0 x1 := by
    refine noteWake_keeps (sub hM rfl) ?_
    exact h0
  clear_value x1
  extract_lets +onlyGivenNames -lift x3
  clear_value x3
  extract_lets +onlyGivenNames -lift x4
  have g5 : Keeps M s0 x4 := by
    refine Keeps.set_nurse (hit hM rfl) (?_)
    exact g2
  clear_value x4
  refine KeepsR.ite ?_ ?_
  · refine KeepsR.next ?_
    split
    · refine raise_keeps (sub hM rfl) ?_
      exact g5
    · refine raise_keeps (sub hM rfl) ?_
      exact g5
    · exact g5
  · refine KeepsR.next ?_
    exact h0

theorem execFastClockStartDone_keeps {M : Nat} {s0 : State} {a0 : State} (hM : 103079477330 ||| M = M) (h0 : Keeps M s0 a0) :
    KeepsR M s0 (execFastClockStartDone a0) := by
  unfold execFastClockStartDone
  extract_lets +onlyGivenNames -lift x0
  clear_value x0
  extract_lets +onlyGivenNames -lift x1
  have g2 : Keeps M s0 x1 := by
    refine wr_keeps (sub hM rfl) ?_
    refine Keeps.set_nurse (hit hM rfl) (?_)
    exact h0
  clear_value x1
  extract_lets +onlyGivenNames -lift x3
  have g4 : Keeps M s0 x3 := by
    refine Keeps.ite ?_ ?_
    · refine raise_keeps (sub hM rfl) ?_
      refine wr_keeps (sub hM rfl) ?_
      exact g2
    · exact g2
  clear_value x3
  extract_lets +onlyGivenNames -lift x5
  have g6 : Keeps M s0 x5 := by
    refine timeRole_keeps (sub hM rfl) ?_
    exact g4
  clear_value x5
  split
  · refine KeepsR.next ?_
    exact h0
  · refine KeepsR.ite ?_ ?_
    · refine KeepsR.next ?_
      refine Keeps.ite ?_ ?_
      · refine startExit_keeps (sub hM rfl) ?_
        exact g6
      · exact g6
    · refine KeepsR.next ?_
      exact h0

theorem execXt32Fail_keeps {M : Nat} {s0 : State} {a0 : State} (hM : 18 ||| M = M) (h0 : Keeps M s0 a0) :
    KeepsR M s0 (execXt32Fail a0) := by
  unfold execXt32Fail
  refine KeepsR.ite ?_ ?_
  · refine KeepsR.next ?_
    exact h0
  · refine KeepsR.next ?_
    refine raise_keeps (sub hM rfl) ?_
    refine wr_keeps (sub hM rfl) ?_
    refine wr_keeps (sub hM rfl) ?_
    exact h0

theorem readWreason_keeps {M : Nat} {s0 : State} {a0 : State} (hM : 2 ||| M = M) (h0 : Keeps M s0 a0) :
    Keeps2 M s0 (readWreason a0) := by
  unfold readWreason
  extract_lets +onlyGivenNames -lift x0
  clear_value x0
  refine Keeps2.mk ?_
  refine regSet_keeps (sub hM rfl) ?_
  exact h0

theorem execNrsWreasonRead_keeps {M : Nat} {s0 : State} {a0 : EntryPoint} {a1 : State} (hM : 34 ||| M = M) (h0 : Keeps M s0 a1) :
    KeepsR M s0 (execNrsWreasonRead a0 a1) := by
  unfold execNrsWreasonRead
  refine KeepsR.next ?_
  refine returned_keeps (sub hM rfl) ?_
  refine readWreason_keeps (sub hM rfl) ?_
  exact h0

theorem execWakeCfg_keeps {M : Nat} {s0 : State} {a0 : Origin} {a1 : List Byte} {a2 : State} (hM : 8589952002 ||| M = M) (h0 : Keeps M s0 a2) :
    KeepsR M s0 (execWakeCfg a0 a1 a2) := by
  unfold execWakeCfg
  extract_lets +onlyGivenNames -lift x0
  clear_value x0
  extract_lets +onlyGivenNames -lift x1
  clear_value x1
  extract_lets +onlyGivenNames -lift x2
  clear_value x2
  refine command_keeps (sub hM rfl) ?_ ?_
  · intro w4 k5
    extract_lets +onlyGivenNames -lift x6
    have g7 : Keeps M s0 x6 := by
      refine wr_keeps (sub hM rfl) ?_
      refine wr_keeps (sub hM rfl) ?_
      exact k5
    clear_value x6
    refine Keeps.ite ?_ ?_
    · refine reply_keeps (sub hM rfl) ?_
      exact k5
    · refine reply_keeps (sub hM rfl) ?_
      exact g7
  · exact h0

theorem switchOff_keeps {M : Nat} {s0 : State} {a0 : State} (hM : 68719871574 ||| M = M) (h0 : Keeps M s0 a0) :
    Keeps M s0 (switchOff a0) := by
  unfold switchOff
  extract_lets +onlyGivenNames -lift x0
  have g1 : Keeps M s0 x0 := by
    refine forAll_keeps (sub hM rfl) ?_ ?_
    · intro w2 w3 k4
      refine Keeps.ite ?_ ?_
      · exact k4
      · refine disablePort_keeps (sub hM rfl) ?_
        exact k4
    · exact h0
  clear_value x0
  refine wr_keeps (sub hM rfl) ?_
  refine wr_keeps (sub hM rfl) ?_
  exact g1

theorem execTierFall_keeps {M : Nat} {s0 : State} {a0 : State} (hM : 68719871574 ||| M = M) (h0 : Keeps M s0 a0) :
    KeepsR M s0 (execTierFall a0) := by
  unfold execTierFall
  extract_lets +onlyGivenNames -lift x0
  clear_value x0
  refine KeepsR.ite ?_ ?_
  · refine KeepsR.next ?_
    refine raise_keeps (sub hM rfl) ?_
    refine switchOff_keeps (sub hM rfl) ?_
    refine wr_keeps (sub hM rfl) ?_
    exact h0
  · refine KeepsR.next ?_
    exact h0

theorem execSelfRefreshEntry_keeps {M : Nat} {s0 : State} {a0 : State} (hM : 2 ||| M = M) (h0 : Keeps M s0 a0) :
    KeepsR M s0 (execSelfRefreshEntry a0) := by
  unfold execSelfRefreshEntry
  refine KeepsR.ite ?_ ?_
  · refine KeepsR.next ?_
    refine wr_keeps (sub hM rfl) ?_
    exact h0
  · refine KeepsR.next ?_
    exact h0

theorem execSelfRefreshExit_keeps {M : Nat} {s0 : State} {a0 : State} (hM : 2 ||| M = M) (h0 : Keeps M s0 a0) :
    KeepsR M s0 (execSelfRefreshExit a0) := by
  unfold execSelfRefreshExit
  refine KeepsR.ite ?_ ?_
  · refine KeepsR.next ?_
    refine wr_keeps (sub hM rfl) ?_
    exact h0
  · refine KeepsR.next ?_
    exact h0

theorem execSelfRefreshExitDone_keeps {M : Nat} {s0 : State} {a0 : State} (hM : 2 ||| M = M) (h0 : Keeps M s0 a0) :
    KeepsR M s0 (execSelfRefreshExitDone a0) := by
  unfold execSelfRefreshExitDone
  refine KeepsR.ite ?_ ?_
  · refine KeepsR.next ?_
    refine wr_keeps (sub hM rfl) ?_
    exact h0
  · refine KeepsR.next ?_
    exact h0

theorem execInterruptSourceFire_keeps {M : Nat} {s0 : State} {a0 : Fin 512} {a1 : State} (hM : 16 ||| M = M) (h0 : Keeps M s0 a1) :
    KeepsR M s0 (execInterruptSourceFire a0 a1) := by
  unfold execInterruptSourceFire
  refine KeepsR.next ?_
  refine raise_keeps (sub hM rfl) ?_
  exact h0

theorem completeSrc_keeps {M : Nat} {s0 : State} {a0 : Nat} {a1 : State} (hM : 16 ||| M = M) (h0 : Keeps M s0 a1) :
    Keeps M s0 (completeSrc a0 a1) := by
  unfold completeSrc
  split
  · refine setSrc_keeps (sub hM rfl) ?_
    exact h0
  · refine setSrc_keeps (sub hM rfl) ?_
    exact h0
  · exact h0

theorem completeGroup_keeps {M : Nat} {s0 : State} {a0 : Nat} {a1 : State} (hM : 16 ||| M = M) (h0 : Keeps M s0 a1) :
    Keeps M s0 (completeGroup a0 a1) := by
  unfold completeGroup
  refine forAll_keeps (sub hM rfl) ?_ ?_
  · intro w0 w1 k2
    refine completeSrc_keeps (sub hM rfl) ?_
    exact k2
  · exact h0

theorem execIntDoneWrite_keeps {M : Nat} {s0 : State} {a0 : Fin 16} {a1 : State} (hM : 16 ||| M = M) (h0 : Keeps M s0 a1) :
    KeepsR M s0 (execIntDoneWrite a0 a1) := by
  unfold execIntDoneWrite
  refine KeepsR.next ?_
  refine completeGroup_keeps (sub hM rfl) ?_
  exact h0

theorem pendWrite_keeps {M : Nat} {s0 : State} {a0 : Nat} {a1 : Nat} {a2 : State} (hM : 16 ||| M = M) (h0 : Keeps M s0 a2) :
    Keeps M s0 (pendWrite a0 a1 a2) := by
  unfold pendWrite
  refine forAll_keeps (sub hM rfl) ?_ ?_
  · intro w1 w2 k3
    extract_lets +onlyGivenNames -lift x4
    clear_value x4
    split
    · refine setSrc_keeps (sub hM rfl) ?_
      exact k3
    · refine setSrc_keeps (sub hM rfl) ?_
      exact k3
    · exact k3
  · exact h0

theorem execIntPendWrite_keeps {M : Nat} {s0 : State} {a0 : Fin 16} {a1 : Word} {a2 : State} (hM : 16 ||| M = M) (h0 : Keeps M s0 a2) :
    KeepsR M s0 (execIntPendWrite a0 a1 a2) := by
  unfold execIntPendWrite
  refine KeepsR.next ?_
  refine pendWrite_keeps (sub hM rfl) ?_
  exact h0

theorem queueT3_keeps {M : Nat} {s0 : State} {a0 : Nat} {a1 : Nat} {a2 : Bool} {a3 : State} (hM : 67108864 ||| M = M) (h0 : Keeps M s0 a3) :
    Keeps M s0 (queueT3 a0 a1 a2 a3) := by
  unfold queueT3
  refine Keeps.ite ?_ ?_
  · exact h0
  · refine Keeps.ite ?_ ?_
    · refine updDev_keeps (sub hM rfl) ?_
      exact h0
    · refine updDev_keeps (sub hM rfl) ?_
      exact h0

theorem deliverGroup_keeps {M : Nat} {s0 : State} {a0 : Nat} {a1 : Nat} {a2 : State} (hM : 43016782864 ||| M = M) (h0 : Keeps M s0 a2) :
    Keeps M s0 (deliverGroup a0 a1 a2) := by
  unfold deliverGroup
  extract_lets +onlyGivenNames -lift x0
  clear_value x0
  extract_lets +onlyGivenNames -lift x1
  clear_value x1
  extract_lets +onlyGivenNames -lift x2
  have g3 : Keeps M s0 x2 := by
    refine forAll_keeps (sub hM rfl) ?_ ?_
    · intro w4 w5 k6
      refine setSrc_keeps (sub hM rfl) ?_
      exact k6
    · exact h0
  clear_value x2
  extract_lets +onlyGivenNames -lift x7
  clear_value x7
  extract_lets +onlyGivenNames -lift x8
  have g9 : Keeps M s0 x8 := by
    refine Keeps.set_nurse (hit hM rfl) (?_)
    exact g3
  clear_value x8
  extract_lets +onlyGivenNames -lift x10
  have g11 : Keeps M s0 x10 := by
    refine Keeps.ite ?_ ?_
    · refine sendUnpoliced_keeps (sub hM rfl) ?_
      exact g9
    · exact g9
  clear_value x10
  extract_lets +onlyGivenNames -lift x12
  have g13 : Keeps M s0 x12 := by
    refine Keeps.ite ?_ ?_
    · refine queueT3_keeps (sub hM rfl) ?_
      exact g11
    · exact g11
  clear_value x12
  extract_lets +onlyGivenNames -lift x14
  have g15 : Keeps M s0 x14 := by
    refine Keeps.ite ?_ ?_
    · refine msix_keeps (sub hM rfl) ?_
      exact g13
    · exact g13
  clear_value x14
  refine Keeps.ite ?_ ?_
  · refine completeGroup_keeps (sub hM rfl) ?_
    exact g15
  · exact g15

theorem execInterruptDelivery_keeps {M : Nat} {s0 : State} {a0 : Fin 16} {a1 : State} (hM : 43016782864 ||| M = M) (h0 : Keeps M s0 a1) :
    KeepsR M s0 (execInterruptDelivery a0 a1) := by
  unfold execInterruptDelivery
  extract_lets +onlyGivenNames -lift x0
  clear_value x0
  refine KeepsR.ite ?_ ?_
  · refine KeepsR.next ?_
    refine deliverGroup_keeps (sub hM rfl) ?_
    exact h0
  · refine KeepsR.next ?_
    exact h0

theorem rgnApply_keeps {M : Nat} {s0 : State} {a0 : State} (hM : 2 ||| M = M) (h0 : Keeps M s0 a0) :
    Keeps2 M s0 (rgnApply a0) := by
  unfold rgnApply
  extract_lets +onlyGivenNames -lift x0
  clear_value x0
  refine Keeps2.ite ?_ ?_
  · refine Keeps2.mk ?_
    exact h0
  · refine Keeps2.ite ?_ ?_
    · refine Keeps2.mk ?_
      refine forAll_keeps (sub hM rfl) ?_ ?_
      · intro w1 w2 k3
        refine wr_keeps (sub hM rfl) ?_
        exact k3
      · exact h0
    · refine Keeps2.mk ?_
      refine wr_keeps (sub hM rfl) ?_
      exact h0

theorem execDcmRgnApply_keeps {M : Nat} {s0 : State} {a0 : State} (hM : 2 ||| M = M) (h0 : Keeps M s0 a0) :
    KeepsR M s0 (execDcmRgnApply a0) := by
  unfold execDcmRgnApply
  refine access_keeps (sub hM rfl) ?_ ?_
  · intro w0 k1
    refine Keeps2.snd ?_
    refine rgnApply_keeps (sub hM rfl) ?_
    exact k1
  · exact h0

/-! BrgSend. -/

theorem barEmit_keeps {M : Nat} {s0 : State} {a0 : State} (hM : 8589942784 ||| M = M) (h0 : Keeps M s0 a0) :
    Keeps M s0 (barEmit a0) := by
  unfold barEmit
  refine times_keeps (sub hM rfl) ?_ ?_
  · intro w0 k1
    split
    · exact k1
    · refine updHost_keeps (sub hM rfl) ?_
      refine updBrg_keeps (sub hM rfl) ?_
      exact k1
  · exact h0

theorem readDone_keeps {M : Nat} {s0 : State} {a0 : Reader} {a1 : Nat} {a2 : List Byte} {a3 : State} (hM : 8589960192 ||| M = M) (h0 : Keeps M s0 a3) :
    Keeps M s0 (readDone a0 a1 a2 a3) := by
  unfold readDone
  split
  · refine reply_keeps (sub hM rfl) ?_
    exact h0
  · refine barEmit_keeps (sub hM rfl) ?_
    refine updBrg_keeps (sub hM rfl) ?_
    exact h0
  · exact h0

theorem readFails_keeps {M : Nat} {s0 : State} {a0 : Reader} {a1 : Nat} {a2 : Nat} {a3 : Nat} {a4 : Nat} {a5 : BrgLog} {a6 : State} (hM : 8590091286 ||| M = M) (h0 : Keeps M s0 a6) :
    Keeps M s0 (readFails a0 a1 a2 a3 a4 a5 a6) := by
  unfold readFails
  extract_lets +onlyGivenNames -lift x0
  have g1 : Keeps M s0 x0 := by
    refine count_keeps (sub hM rfl) ?_
    refine Keeps.ite ?_ ?_
    · exact h0
    · refine logElg_keeps (sub hM rfl) ?_
      exact h0
  clear_value x0
  extract_lets +onlyGivenNames -lift x2
  clear_value x2
  split
  · refine reply_keeps (sub hM rfl) ?_
    exact g1
  · refine barEmit_keeps (sub hM rfl) ?_
    refine updBrg_keeps (sub hM rfl) ?_
    exact g1
  · exact g1

theorem sendRead_keeps {M : Nat} {s0 : State} {a0 : Window} {a1 : LocalTxn} {a2 : State} (hM : 146580 ||| M = M) (h0 : Keeps M s0 a2) :
    Keeps M s0 (sendRead a0 a1 a2) := by
  unfold sendRead
  extract_lets +onlyGivenNames -lift x0
  clear_value x0
  split
  · refine updBrg_keeps (sub hM rfl) ?_
    exact h0
  · extract_lets +onlyGivenNames -lift x2
    clear_value x2
    extract_lets +onlyGivenNames -lift x3
    clear_value x3
    extract_lets +onlyGivenNames -lift x4
    have g5 : Keeps M s0 x4 := by
      refine updBrg_keeps (sub hM rfl) ?_
      exact h0
    clear_value x4
    refine originate_keeps (sub hM rfl) ?_
    exact g5

theorem writeDone_keeps {M : Nat} {s0 : State} {a0 : Reader} {a1 : State} (hM : 8589952000 ||| M = M) (h0 : Keeps M s0 a1) :
    Keeps M s0 (writeDone a0 a1) := by
  unfold writeDone
  split
  · refine reply_keeps (sub hM rfl) ?_
    exact h0
  · exact h0

theorem sendWrite_keeps {M : Nat} {s0 : State} {a0 : Window} {a1 : LocalTxn} {a2 : State} (hM : 8590097556 ||| M = M) (h0 : Keeps M s0 a2) :
    Keeps M s0 (sendWrite a0 a1 a2) := by
  unfold sendWrite
  extract_lets +onlyGivenNames -lift x0
  clear_value x0
  extract_lets +onlyGivenNames -lift x1
  clear_value x1
  extract_lets +onlyGivenNames -lift x2
  clear_value x2
  extract_lets +onlyGivenNames -lift x3
  clear_value x3
  refine writeDone_keeps (sub hM rfl) ?_
  refine originate_keeps (sub hM rfl) ?_
  refine updBrg_keeps (sub hM rfl) ?_
  exact h0

theorem failLocal_keeps {M : Nat} {s0 : State} {a0 : LocalTxn} {a1 : Nat} {a2 : Nat} {a3 : Nat} {a4 : State} (hM : 8590091286 ||| M = M) (h0 : Keeps M s0 a4) :
    Keeps M s0 (failLocal a0 a1 a2 a3 a4) := by
  unfold failLocal
  extract_lets +onlyGivenNames -lift x0
  clear_value x0
  refine Keeps.ite ?_ ?_
  · refine writeDone_keeps (sub hM rfl) ?_
    refine logPwl_keeps (sub hM rfl) ?_
    exact h0
  · refine readFails_keeps (sub hM rfl) ?_
    exact h0

theorem runLocal_keeps {M : Nat} {s0 : State} {a0 : LocalTxn} {a1 : State} (hM : 8590097558 ||| M = M) (h0 : Keeps M s0 a1) :
    Keeps M s0 (runLocal a0 a1) := by
  unfold runLocal
  split
  · refine failLocal_keeps (sub hM rfl) ?_
    exact h0
  · refine Keeps.ite ?_ ?_
    · refine Keeps.ite ?_ ?_
      · refine sendWrite_keeps (sub hM rfl) ?_
        exact h0
      · refine sendRead_keeps (sub hM rfl) ?_
        exact h0
    · refine failLocal_keeps (sub hM rfl) ?_
      exact h0

theorem tryLocal_keeps {M : Nat} {s0 : State} {a0 : LocalTxn} {a1 : State} (hM : 8590097558 ||| M = M) (h0 : Keeps M s0 a1) :
    Keeps M s0 (tryLocal a0 a1) := by
  unfold tryLocal
  extract_lets +onlyGivenNames -lift x0
  have g1 : Keeps M s0 x0 := by
    refine count_keeps (sub hM rfl) ?_
    exact h0
  clear_value x0
  extract_lets +onlyGivenNames -lift x2
  have g3 : Keeps M s0 x2 := by
    refine updBrg_keeps (sub hM rfl) ?_
    exact g1
  clear_value x2
  refine Keeps.ite ?_ ?_
  · refine runLocal_keeps (sub hM rfl) ?_
    exact h0
  · split
    · refine Keeps.ite ?_ ?_
      · refine reply_keeps (sub hM rfl) ?_
        exact g1
      · exact g3
    · exact g3

theorem acceptTxn_keeps {M : Nat} {s0 : State} {a0 : LocalTxn} {a1 : State} (hM : 8590097558 ||| M = M) (h0 : Keeps M s0 a1) :
    Keeps M s0 (acceptTxn a0 a1) := by
  unfold acceptTxn
  extract_lets +onlyGivenNames -lift x0
  clear_value x0
  refine Keeps.ite ?_ ?_
  · refine updBrg_keeps (sub hM rfl) ?_
    exact h0
  · refine tryLocal_keeps (sub hM rfl) ?_
    exact h0

theorem retryNext_keeps {M : Nat} {s0 : State} {a0 : Nat} {a1 : State} (hM : 8590097558 ||| M = M) (h0 : Keeps M s0 a1) :
    Keeps M s0 (retryNext a0 a1) := by
  induction a0 generalizing a1 with
  | zero =>
    unfold retryNext
    exact h0
  | succ n ih =>
    unfold retryNext
    split
    · refine Keeps.ite ?_ ?_
      · apply ih
        refine tryLocal_keeps (sub hM rfl) ?_
        refine updBrg_keeps (sub hM rfl) ?_
        exact h0
      · exact h0
    · exact h0

theorem execLocalRetry_keeps {M : Nat} {s0 : State} {a0 : Nat} {a1 : State} (hM : 8590097558 ||| M = M) (h0 : Keeps M s0 a1) :
    KeepsR M s0 (execLocalRetry a0 a1) := by
  unfold execLocalRetry
  split
  · refine KeepsR.next ?_
    exact h0
  · extract_lets +onlyGivenNames -lift x1
    clear_value x1
    refine KeepsR.ite ?_ ?_
    · refine KeepsR.next ?_
      exact h0
    · refine KeepsR.next ?_
      refine retryNext_keeps (sub hM rfl) ?_
      refine tryLocal_keeps (sub hM rfl) ?_
      refine updBrg_keeps (sub hM rfl) ?_
      exact h0

theorem tagFreed_keeps {M : Nat} {s0 : State} {a0 : State} (hM : 8590097558 ||| M = M) (h0 : Keeps M s0 a0) :
    Keeps M s0 (tagFreed a0) := by
  unfold tagFreed
  split
  · exact h0
  · refine acceptTxn_keeps (sub hM rfl) ?_
    refine updBrg_keeps (sub hM rfl) ?_
    exact h0

theorem barPart_keeps {M : Nat} {s0 : State} {a0 : Bool} {a1 : Nat} {a2 : Nat} {a3 : List Byte} {a4 : Nat} {a5 : State} (hM : 8590097558 ||| M = M) (h0 : Keeps M s0 a5) :
    Keeps M s0 (barPart a0 a1 a2 a3 a4 a5) := by
  unfold barPart
  extract_lets +onlyGivenNames -lift x0
  clear_value x0
  refine Keeps.ite ?_ ?_
  · refine acceptTxn_keeps (sub hM rfl) ?_
    exact h0
  · refine failLocal_keeps (sub hM rfl) ?_
    exact h0

theorem execWindowRequest_keeps {M : Nat} {s0 : State} {a0 : Bool} {a1 : BitVec 36} {a2 : BitVec 13} {a3 : List Byte} {a4 : Nat} {a5 : State} (hM : 8590097558 ||| M = M) (h0 : Keeps M s0 a5) :
    KeepsR M s0 (execWindowRequest a0 a1 a2 a3 a4 a5) := by
  unfold execWindowRequest
  extract_lets +onlyGivenNames -lift x0
  clear_value x0
  refine KeepsR.ite ?_ ?_
  · exact KeepsR.fault
  · refine KeepsR.ite ?_ ?_
    · refine KeepsR.next ?_
      refine barPart_keeps (sub hM rfl) ?_
      exact h0
    · refine KeepsR.next ?_
      exact h0

theorem execBar2Request_keeps {M : Nat} {s0 : State} {a0 : Bool} {a1 : BitVec 36} {a2 : BitVec 13} {a3 : List Byte} {a4 : Nat} {a5 : State} (hM : 8590097558 ||| M = M) (h0 : Keeps M s0 a5) :
    KeepsR M s0 (execBar2Request a0 a1 a2 a3 a4 a5) := by
  unfold execBar2Request
  extract_lets +onlyGivenNames -lift x0
  clear_value x0
  refine KeepsR.ite ?_ ?_
  · exact KeepsR.fault
  · refine KeepsR.ite ?_ ?_
    · refine KeepsR.next ?_
      exact h0
    · refine KeepsR.next ?_
      refine forAll_keeps (sub hM rfl) ?_ ?_
      · intro w1 w2 k3
        refine barPart_keeps (sub hM rfl) ?_
        exact k3
      · exact h0

theorem brgAnswer_keeps {M : Nat} {s0 : State} {a0 : Nat} {a1 : Nat} {a2 : Nat} {a3 : List Byte} {a4 : State} (hM : 1024 ||| M = M) (h0 : Keeps M s0 a4) :
    Keeps M s0 (brgAnswer a0 a1 a2 a3 a4) := by
  unfold brgAnswer
  refine sendUnpoliced_keeps (sub hM rfl) ?_
  exact h0

theorem addFails_keeps {M : Nat} {s0 : State} {a0 : Nat} {a1 : Nat} {a2 : Nat} {a3 : State} (hM : 8192 ||| M = M) (h0 : Keeps M s0 a3) :
    Keeps M s0 (addFails a0 a1 a2 a3) := by
  unfold addFails
  refine updBrg_keeps (sub hM rfl) ?_
  exact h0

theorem writeFails_keeps {M : Nat} {s0 : State} {a0 : Nat} {a1 : Nat} {a2 : Nat} {a3 : Nat} {a4 : Nat} {a5 : Nat} {a6 : State} (hM : 140310 ||| M = M) (h0 : Keeps M s0 a6) :
    Keeps M s0 (writeFails a0 a1 a2 a3 a4 a5 a6) := by
  unfold writeFails
  extract_lets +onlyGivenNames -lift x0
  have g1 : Keeps M s0 x0 := by
    refine count_keeps (sub hM rfl) ?_
    refine logElg_keeps (sub hM rfl) ?_
    exact h0
  clear_value x0
  refine brgAnswer_keeps (sub hM rfl) ?_
  refine addFails_keeps (sub hM rfl) ?_
  exact g1

theorem brgCpl_keeps {M : Nat} {s0 : State} {a0 : Nat} {a1 : Nat} {a2 : Nat} {a3 : Nat} {a4 : Nat} {a5 : List Byte} {a6 : State} (hM : 1024 ||| M = M) (h0 : Keeps M s0 a6) :
    Keeps M s0 (brgCpl a0 a1 a2 a3 a4 a5 a6) := by
  unfold brgCpl
  refine brgAnswer_keeps (sub hM rfl) ?_
  exact h0

theorem finish_keeps {M : Nat} {s0 : State} {a0 : BrgHeld} {a1 : Nat} {a2 : List Byte} {a3 : State} (hM : 140310 ||| M = M) (h0 : Keeps M s0 a3) :
    Keeps M s0 (finish a0 a1 a2 a3) := by
  unfold finish
  extract_lets +onlyGivenNames -lift x0
  have g1 : Keeps M s0 x0 := by
    refine updBrg_keeps (sub hM rfl) ?_
    exact h0
  clear_value x0
  refine Keeps.ite ?_ ?_
  · refine Keeps.ite ?_ ?_
    · exact g1
    · refine writeFails_keeps (sub hM rfl) ?_
      exact g1
  · refine brgCpl_keeps (sub hM rfl) ?_
    exact g1

theorem finishAll_keeps {M : Nat} {s0 : State} {a0 : BrgHeld → Bool} {a1 : Nat} {a2 : State} (hM : 140310 ||| M = M) (h0 : Keeps M s0 a2) :
    Keeps M s0 (finishAll a0 a1 a2) := by
  unfold finishAll
  refine forAll_keeps (sub hM rfl) ?_ ?_
  · intro w0 w1 k2
    refine finish_keeps (sub hM rfl) ?_
    exact k2
  · exact h0

theorem brgAbort_keeps {M : Nat} {s0 : State} {a0 : Nat} {a1 : State} (hM : 140310 ||| M = M) (h0 : Keeps M s0 a1) :
    Keeps M s0 (brgAbort a0 a1) := by
  unfold brgAbort
  refine finishAll_keeps (sub hM rfl) ?_
  exact h0

theorem barGone_keeps {M : Nat} {s0 : State} {a0 : State} (hM : 8590097558 ||| M = M) (h0 : Keeps M s0 a0) :
    Keeps M s0 (barGone a0) := by
  unfold barGone
  extract_lets +onlyGivenNames -lift x0
  clear_value x0
  extract_lets +onlyGivenNames -lift x1
  have g2 : Keeps M s0 x1 := by
    refine updBrg_keeps (sub hM rfl) ?_
    exact h0
  clear_value x1
  refine forAll_keeps (sub hM rfl) ?_ ?_
  · intro w3 w4 k5
    refine acceptTxn_keeps (sub hM rfl) ?_
    exact k5
  · exact g2

theorem rootLost_keeps {M : Nat} {s0 : State} {a0 : State} (hM : 140310 ||| M = M) (h0 : Keeps M s0 a0) :
    Keeps M s0 (rootLost a0) := by
  unfold rootLost
  refine Keeps.ite ?_ ?_
  · refine raise_keeps (sub hM rfl) ?_
    refine finishAll_keeps (sub hM rfl) ?_
    refine wr_keeps (sub hM rfl) ?_
    refine wr_keeps (sub hM rfl) ?_
    refine wr_keeps (sub hM rfl) ?_
    exact h0
  · exact h0

theorem execRootPortLinkLost_keeps {M : Nat} {s0 : State} {a0 : State} (hM : 140310 ||| M = M) (h0 : Keeps M s0 a0) :
    KeepsR M s0 (execRootPortLinkLost a0) := by
  unfold execRootPortLinkLost
  refine KeepsR.next ?_
  refine rootLost_keeps (sub hM rfl) ?_
  exact h0

theorem endpointGone_keeps {M : Nat} {s0 : State} {a0 : State} (hM : 8590097558 ||| M = M) (h0 : Keeps M s0 a0) :
    Keeps M s0 (endpointGone a0) := by
  unfold endpointGone
  extract_lets +onlyGivenNames -lift x0
  have g1 : Keeps M s0 x0 := by
    refine setBus_keeps (sub hM rfl) ?_
    refine barGone_keeps (sub hM rfl) ?_
    refine hostIfDown_keeps (sub hM rfl) ?_
    exact h0
  clear_value x0
  refine finishAll_keeps (sub hM rfl) ?_
  exact g1

theorem pceDown_keeps {M : Nat} {s0 : State} {a0 : State} (hM : 8590097558 ||| M = M) (h0 : Keeps M s0 a0) :
    Keeps M s0 (pceDown a0) := by
  unfold pceDown
  refine Keeps.ite ?_ ?_
  · refine raise_keeps (sub hM rfl) ?_
    refine wr_keeps (sub hM rfl) ?_
    refine wr_keeps (sub hM rfl) ?_
    refine wr_keeps (sub hM rfl) ?_
    refine wr_keeps (sub hM rfl) ?_
    refine endpointGone_keeps (sub hM rfl) ?_
    exact h0
  · exact h0

theorem execPcieLinkDown_keeps {M : Nat} {s0 : State} {a0 : State} (hM : 8590097558 ||| M = M) (h0 : Keeps M s0 a0) :
    KeepsR M s0 (execPcieLinkDown a0) := by
  unfold execPcieLinkDown
  refine KeepsR.next ?_
  refine pceDown_keeps (sub hM rfl) ?_
  exact h0

theorem execFlr_keeps {M : Nat} {s0 : State} {a0 : State} (hM : 8590097558 ||| M = M) (h0 : Keeps M s0 a0) :
    KeepsR M s0 (execFlr a0) := by
  unfold execFlr
  refine KeepsR.next ?_
  refine Keeps.ite ?_ ?_
  · refine raise_keeps (sub hM rfl) ?_
    refine wr_keeps (sub hM rfl) ?_
    refine endpointGone_keeps (sub hM rfl) ?_
    exact h0
  · exact h0

theorem execPcieLinkUp_keeps {M : Nat} {s0 : State} {a0 : Bool} {a1 : Fin 4} {a2 : Fin 3} {a3 : Bool} {a4 : Bool} {a5 : Bool} {a6 : State} (hM : 8589934610 ||| M = M) (h0 : Keeps M s0 a6) :
    KeepsR M s0 (execPcieLinkUp a0 a1 a2 a3 a4 a5 a6) := by
  unfold execPcieLinkUp
  extract_lets +onlyGivenNames -lift x0
  clear_value x0
  refine KeepsR.ite ?_ ?_
  · refine KeepsR.next ?_
    exact h0
  · refine KeepsR.ite ?_ ?_
    · refine KeepsR.ite ?_ ?_
      · refine KeepsR.next ?_
        refine raise_keeps (sub hM rfl) ?_
        refine wr_keeps (sub hM rfl) ?_
        refine wr_keeps (sub hM rfl) ?_
        refine wr_keeps (sub hM rfl) ?_
        exact h0
      · refine KeepsR.next ?_
        exact h0
    · refine KeepsR.ite ?_ ?_
      · refine KeepsR.next ?_
        refine raise_keeps (sub hM rfl) ?_
        refine setBus_keeps (sub hM rfl) ?_
        refine wr_keeps (sub hM rfl) ?_
        refine wr_keeps (sub hM rfl) ?_
        refine wr_keeps (sub hM rfl) ?_
        exact h0
      · refine KeepsR.next ?_
        exact h0

/-! RegAccess. -/

theorem takeCtr_keeps {M : Nat} {s0 : State} {a0 : Nat} {a1 : State} (hM : 4 ||| M = M) (h0 : Keeps M s0 a1) :
    Keeps3 M s0 (takeCtr a0 a1) := by
  unfold takeCtr
  extract_lets +onlyGivenNames -lift x0
  clear_value x0
  refine Keeps3.ite ?_ ?_
  · refine Keeps3.mk ?_
    refine Keeps2.mk ?_
    refine Keeps.ite ?_ ?_
    · refine ctrSet_keeps (sub hM rfl) ?_
      exact h0
    · exact h0
  · refine Keeps3.mk ?_
    refine Keeps2.mk ?_
    exact h0

theorem readCtrWord_keeps {M : Nat} {s0 : State} {a0 : EntryPoint} {a1 : Nat} {a2 : State} (hM : 6 ||| M = M) (h0 : Keeps M s0 a2) :
    Keeps2 M s0 (readCtrWord a0 a1 a2) := by
  unfold readCtrWord
  refine Keeps2.ite ?_ ?_
  · refine Keeps2.mk ?_
    exact h0
  · refine Keeps2.ite ?_ ?_
    · split
      · rename_i y3 y4 y5 y6 y7
        refine Keeps3.elim (m := M) (s0 := s0) y7 ?_ (fun g8 => ?_)
        · refine takeCtr_keeps (sub hM rfl) ?_
          exact h0
        extract_lets +onlyGivenNames -lift x9
        clear_value x9
        refine Keeps2.mk ?_
        refine regSet_keeps (sub hM rfl) ?_
        exact g8
    · refine Keeps2.mk ?_
      exact h0

theorem plainRead_keeps {M : Nat} {s0 : State} {a0 : EntryPoint} {a1 : Nat} {a2 : State} (hM : 2 ||| M = M) (h0 : Keeps M s0 a2) :
    Keeps2 M s0 (plainRead a0 a1 a2) := by
  unfold plainRead
  split
  · refine Keeps2.mk ?_
    exact h0
  · extract_lets +onlyGivenNames -lift x1
    clear_value x1
    extract_lets +onlyGivenNames -lift x2
    clear_value x2
    refine Keeps2.mk ?_
    refine Keeps.ite ?_ ?_
    · exact h0
    · refine regSet_keeps (sub hM rfl) ?_
      exact h0

theorem readReg_keeps {M : Nat} {s0 : State} {a0 : EntryPoint} {a1 : Nat} {a2 : State} (hM : 1057798 ||| M = M) (h0 : Keeps M s0 a2) :
    Keeps2 M s0 (readReg a0 a1 a2) := by
  unfold readReg
  refine Keeps2.ite ?_ ?_
  · refine readCtrWord_keeps (sub hM rfl) ?_
    exact h0
  · refine Keeps2.ite ?_ ?_
    · refine readHwmOcc_keeps (sub hM rfl) ?_
      exact h0
    · refine Keeps2.ite ?_ ?_
      · refine readHwmSoj_keeps (sub hM rfl) ?_
        exact h0
      · refine Keeps2.ite ?_ ?_
        · refine readRdstat_keeps (sub hM rfl) ?_
          exact h0
        · refine Keeps2.ite ?_ ?_
          · refine readPwlStat_keeps (sub hM rfl) ?_
            exact h0
          · refine Keeps2.ite ?_ ?_
            · refine readLog_keeps (sub hM rfl) ?_
              exact h0
            · refine Keeps2.ite ?_ ?_
              · refine readElgStat_keeps (sub hM rfl) ?_
                exact h0
              · refine Keeps2.ite ?_ ?_
                · refine readLog_keeps (sub hM rfl) ?_
                  exact h0
                · refine Keeps2.ite ?_ ?_
                  · refine readNowHi_keeps (sub hM rfl) ?_
                    exact h0
                  · refine Keeps2.ite ?_ ?_
                    · refine readWreason_keeps (sub hM rfl) ?_
                      exact h0
                    · refine Keeps2.ite ?_ ?_
                      · refine readOrph_keeps (sub hM rfl) ?_
                        exact h0
                      · refine Keeps2.ite ?_ ?_
                        · refine Keeps2.mk ?_
                          refine wr_keeps (sub hM rfl) ?_
                          exact h0
                        · refine Keeps2.ite ?_ ?_
                          · refine readCapLo_keeps (sub hM rfl) ?_
                            exact h0
                          · split
                            · refine Keeps2.mk ?_
                              exact h0
                            · refine plainRead_keeps (sub hM rfl) ?_
                              exact h0

theorem putLd_keeps {M : Nat} {s0 : State} {a0 : EntryPoint} {a1 : Nat} {a2 : Word} {a3 : Word} {a4 : State} {a5 : State} (hM : 94557863638 ||| M = M) (h0 : Keeps M s0 a4) (h1 : Keeps M s0 a5) :
    Keeps2 M s0 (putLd a0 a1 a2 a3 a4 a5) := by
  unfold putLd
  extract_lets +onlyGivenNames -lift x0
  clear_value x0
  extract_lets +onlyGivenNames -lift x1
  clear_value x1
  extract_lets +onlyGivenNames -lift x2
  clear_value x2
  extract_lets +onlyGivenNames -lift x3
  have g4 : ∀ v0, Keeps M s0 v0 → Keeps2 M s0 (x3 v0) := by
    intro w5 k6
    refine Keeps2.mk ?_
    exact k6
  clear_value x3
  extract_lets +onlyGivenNames -lift x7
  clear_value x7
  extract_lets +onlyGivenNames -lift x8
  have g9 : Keeps M s0 x8 := by
    refine ringEnWrite_keeps (sub hM rfl) ?_
    exact h1
  clear_value x8
  extract_lets +onlyGivenNames -lift x10
  have g11 : Keeps2 M s0 x10 := by
    refine Keeps2.ite ?_ ?_
    · refine shpCtlApply_keeps (sub hM rfl) ?_
      exact h1
    · refine Keeps2.mk ?_
      exact h1
  clear_value x10
  extract_lets +onlyGivenNames -lift x12
  have g13 : Keeps2 M s0 x12 := by
    refine Keeps2.ite ?_ ?_
    · refine polCtlApply_keeps (sub hM rfl) ?_
      exact h1
    · refine Keeps2.mk ?_
      exact h1
  clear_value x12
  extract_lets +onlyGivenNames -lift x14
  have g15 : Keeps2 M s0 x14 := by
    refine Keeps2.ite ?_ ?_
    · refine wctlApply_keeps (sub hM rfl) ?_
      exact h1
    · refine Keeps2.mk ?_
      exact h1
  clear_value x14
  extract_lets +onlyGivenNames -lift x16
  have g17 : Keeps2 M s0 x16 := by
    refine Keeps2.ite ?_ ?_
    · refine tctlApply_keeps (sub hM rfl) ?_
      exact h1
    · refine Keeps2.mk ?_
      exact h1
  clear_value x16
  extract_lets +onlyGivenNames -lift x18
  clear_value x18
  extract_lets +onlyGivenNames -lift x19
  clear_value x19
  extract_lets +onlyGivenNames -lift x20
  have g21 : Keeps2 M s0 x20 := by
    refine Keeps2.ite ?_ ?_
    · refine cctlApply_keeps (sub hM rfl) ?_
      exact h1
    · refine Keeps2.mk ?_
      exact h1
  clear_value x20
  extract_lets +onlyGivenNames -lift x22
  have g23 : Keeps2 M s0 x22 := by
    refine Keeps2.ite ?_ ?_
    · refine actlArm_keeps (sub hM rfl) ?_
      exact h0
    · refine Keeps2.mk ?_
      exact h0
  clear_value x22
  split
  · refine g4 _ ?_
    refine Keeps.ite ?_ ?_
    · refine wr_keeps (sub hM rfl) ?_
      exact h0
    · exact h0
  · refine Keeps2.ite ?_ ?_
    · refine g4 _ ?_
      refine setPortEn_keeps (sub hM rfl) ?_
      refine setMaxstate_keeps (sub hM rfl) ?_
      refine wr_keeps (sub hM rfl) ?_
      refine wr_keeps (sub hM rfl) ?_
      exact h0
    · refine Keeps2.ite ?_ ?_
      · refine g4 _ ?_
        refine forAll_keeps (sub hM rfl) ?_ ?_
        · intro w24 w25 k26
          refine laneReq_keeps (sub hM rfl) ?_
          exact k26
        · refine wr_keeps (sub hM rfl) ?_
          exact h0
      · refine Keeps2.ite ?_ ?_
        · refine Keeps2.mk ?_
          exact h1
        · refine g4 _ ?_
          exact h0
  · refine Keeps2.ite ?_ ?_
    · refine g4 _ ?_
      refine setPortEn_keeps (sub hM rfl) ?_
      refine setMaxstate_keeps (sub hM rfl) ?_
      refine wr_keeps (sub hM rfl) ?_
      refine wr_keeps (sub hM rfl) ?_
      exact h0
    · refine Keeps2.ite ?_ ?_
      · refine g4 _ ?_
        refine forAll_keeps (sub hM rfl) ?_ ?_
        · intro w27 w28 k29
          refine laneReq_keeps (sub hM rfl) ?_
          exact k29
        · refine wr_keeps (sub hM rfl) ?_
          exact h0
      · refine Keeps2.ite ?_ ?_
        · refine Keeps2.mk ?_
          exact h1
        · refine g4 _ ?_
          exact h0
  · refine Keeps2.ite ?_ ?_
    · refine g4 _ ?_
      refine setPortEn_keeps (sub hM rfl) ?_
      refine setMaxstate_keeps (sub hM rfl) ?_
      refine wr_keeps (sub hM rfl) ?_
      refine wr_keeps (sub hM rfl) ?_
      exact h0
    · refine Keeps2.ite ?_ ?_
      · refine g4 _ ?_
        refine forAll_keeps (sub hM rfl) ?_ ?_
        · intro w30 w31 k32
          refine laneReq_keeps (sub hM rfl) ?_
          exact k32
        · refine wr_keeps (sub hM rfl) ?_
          exact h0
      · refine Keeps2.ite ?_ ?_
        · refine Keeps2.mk ?_
          exact h1
        · refine g4 _ ?_
          exact h0
  · refine Keeps2.ite ?_ ?_
    · refine g4 _ ?_
      refine setPortEn_keeps (sub hM rfl) ?_
      refine setMaxstate_keeps (sub hM rfl) ?_
      refine wr_keeps (sub hM rfl) ?_
      refine wr_keeps (sub hM rfl) ?_
      exact h0
    · refine Keeps2.ite ?_ ?_
      · refine g4 _ ?_
        refine forAll_keeps (sub hM rfl) ?_ ?_
        · intro w33 w34 k35
          refine laneReq_keeps (sub hM rfl) ?_
          exact k35
        · refine wr_keeps (sub hM rfl) ?_
          exact h0
      · refine Keeps2.ite ?_ ?_
        · refine Keeps2.mk ?_
          exact h1
        · refine g4 _ ?_
          exact h0
  · refine Keeps2.ite ?_ ?_
    · refine g4 _ ?_
      refine addrWrite_keeps (sub hM rfl) ?_
      exact h1
    · refine Keeps2.ite ?_ ?_
      · refine Keeps2.ite ?_ ?_
        · refine g4 _ ?_
          refine ringEnWrite_keeps (sub hM rfl) ?_
          refine wr_keeps (sub hM rfl) ?_
          exact h0
        · refine g4 _ ?_
          refine regSet_keeps (sub hM rfl) ?_
          exact g9
      · refine Keeps2.ite ?_ ?_
        · refine g4 _ ?_
          refine bypassPorts_keeps (sub hM rfl) ?_
          refine wr_keeps (sub hM rfl) ?_
          refine wr_keeps (sub hM rfl) ?_
          exact h0
        · refine g4 _ ?_
          exact h0
  · refine Keeps2.ite ?_ ?_
    · refine g4 _ ?_
      refine rtnReq_keeps (sub hM rfl) ?_
      refine retReq_keeps (sub hM rfl) ?_
      exact h1
    · refine Keeps2.ite ?_ ?_
      · refine g4 _ ?_
        refine forceVoq_keeps (sub hM rfl) ?_
        exact h1
      · refine g4 _ ?_
        exact h0
  · refine Keeps2.ite ?_ ?_
    · refine Keeps2.mk ?_
      refine Keeps.ite ?_ ?_
      · refine shpCtlLoad_keeps (sub hM rfl) ?_
        refine Keeps2.snd ?_
        exact g11
      · refine Keeps2.snd ?_
        exact g11
    · refine g4 _ ?_
      exact h0
  · refine Keeps2.ite ?_ ?_
    · refine Keeps2.mk ?_
      refine Keeps.ite ?_ ?_
      · refine polCtlLoad_keeps (sub hM rfl) ?_
        refine Keeps2.snd ?_
        exact g13
      · refine Keeps2.snd ?_
        exact g13
    · refine Keeps2.ite ?_ ?_
      · refine xbCfgWrite_keeps (sub hM rfl) ?_
        exact h1
      · refine Keeps2.ite ?_ ?_
        · refine g4 _ ?_
          refine xbBurstWrite_keeps (sub hM rfl) ?_
          exact h1
        · refine g4 _ ?_
          exact h0
  · refine Keeps2.ite ?_ ?_
    · refine Keeps2.mk ?_
      refine Keeps.ite ?_ ?_
      · refine wctlLoad_keeps (sub hM rfl) ?_
        refine Keeps2.snd ?_
        exact g15
      · refine Keeps2.snd ?_
        exact g15
    · refine Keeps2.ite ?_ ?_
      · refine Keeps2.mk ?_
        refine Keeps.ite ?_ ?_
        · refine tctlLoad_keeps (sub hM rfl) ?_
          refine Keeps2.snd ?_
          exact g17
        · refine Keeps2.snd ?_
          exact g17
      · refine g4 _ ?_
        exact h0
  · refine Keeps2.ite ?_ ?_
    · refine hostSel_keeps (sub hM rfl) ?_
      exact h1
    · refine Keeps2.ite ?_ ?_
      · refine g4 _ ?_
        refine updCmd_keeps (sub hM rfl) ?_
        exact h1
      · refine g4 _ ?_
        exact h0
  · refine Keeps2.ite ?_ ?_
    · refine g4 _ ?_
      refine pendWrite_keeps (sub hM rfl) ?_
      exact h1
    · refine Keeps2.ite ?_ ?_
      · refine g4 _ ?_
        refine completeGroup_keeps (sub hM rfl) ?_
        exact h1
      · refine g4 _ ?_
        exact h0
  · refine Keeps2.ite ?_ ?_
    · refine g4 _ ?_
      refine lpwPcfgWrite_keeps (sub hM rfl) ?_
      exact h1
    · refine Keeps2.ite ?_ ?_
      · refine g4 _ ?_
        refine efEvent_keeps (sub hM rfl) ?_ ?_
        · intro w36 k37
          exact h0
        · exact h1
      · refine Keeps2.ite ?_ ?_
        · refine Keeps2.mk ?_
          refine Keeps.ite ?_ ?_
          · refine cctlLoad_keeps (sub hM rfl) ?_
            refine Keeps2.snd ?_
            exact g21
          · refine Keeps2.snd ?_
            exact g21
        · refine Keeps2.ite ?_ ?_
          · refine g4 _ ?_
            refine lpwLcfgWrite_keeps (sub hM rfl) ?_
            exact h1
          · refine g4 _ ?_
            exact h0
  · refine g4 _ ?_
    refine Keeps.ite ?_ ?_
    · refine timCfgWrite_keeps (sub hM rfl) ?_
      exact h1
    · exact h0
  · refine Keeps2.ite ?_ ?_
    · refine g4 _ ?_
      refine pcfgWrite_keeps (sub hM rfl) ?_
      exact h1
    · refine Keeps2.ite ?_ ?_
      · refine Keeps2.mk ?_
        refine Keeps.ite ?_ ?_
        · refine actlCancel_keeps (sub hM rfl) ?_
          refine Keeps2.snd ?_
          exact g23
        · refine Keeps2.snd ?_
          exact g23
      · refine g4 _ ?_
        refine Keeps.ite ?_ ?_
        · refine forAll_keeps (sub hM rfl) ?_ ?_
          · intro w38 w39 k40
            refine drainReports_keeps (sub hM rfl) ?_
            exact k40
          · exact h0
        · exact h0
  · refine g4 _ ?_
    refine Keeps.ite ?_ ?_
    · refine svcCtrlWrite_keeps (sub hM rfl) ?_
      exact h1
    · exact h0
  · refine Keeps2.ite ?_ ?_
    · refine Keeps2.ite ?_ ?_
      · refine rgnApply_keeps (sub hM rfl) ?_
        exact h1
      · refine Keeps2.mk ?_
        exact h1
    · refine g4 _ ?_
      exact h0
  · refine g4 _ ?_
    exact h0

theorem putDie_keeps {M : Nat} {s0 : State} {a0 : EntryPoint} {a1 : Nat} {a2 : Word} {a3 : State} {a4 : State} (hM : 15204547734 ||| M = M) (h0 : Keeps M s0 a3) (h1 : Keeps M s0 a4) :
    Keeps2 M s0 (putDie a0 a1 a2 a3 a4) := by
  unfold putDie
  extract_lets +onlyGivenNames -lift x0
  clear_value x0
  extract_lets +onlyGivenNames -lift x1
  clear_value x1
  extract_lets +onlyGivenNames -lift x2
  clear_value x2
  extract_lets +onlyGivenNames -lift x3
  clear_value x3
  extract_lets +onlyGivenNames -lift x4
  clear_value x4
  extract_lets +onlyGivenNames -lift x5
  have g6 : ∀ v0, Keeps M s0 v0 → Keeps2 M s0 (x5 v0) := by
    intro w7 k8
    refine Keeps2.mk ?_
    exact k8
  clear_value x5
  extract_lets +onlyGivenNames -lift x9
  clear_value x9
  extract_lets +onlyGivenNames -lift x10
  have g11 : Keeps2 M s0 x10 := by
    refine Keeps2.ite ?_ ?_
    · refine vctlApply_keeps (sub hM rfl) ?_
      exact h1
    · refine Keeps2.mk ?_
      exact h1
  clear_value x10
  refine Keeps2.ite ?_ ?_
  · refine Keeps2.ite ?_ ?_
    · refine g6 _ ?_
      refine tcpCfgWrite_keeps (sub hM rfl) ?_
      exact h1
    · refine Keeps2.ite ?_ ?_
      · refine g6 _ ?_
        refine hubCfgWrite_keeps (sub hM rfl) ?_
        exact h1
      · refine Keeps2.ite ?_ ?_
        · refine g6 _ ?_
          refine prxDbWrite_keeps (sub hM rfl) ?_
          exact h1
        · refine Keeps2.ite ?_ ?_
          · refine g6 _ ?_
            refine budgetWrite_keeps (sub hM rfl) ?_
            exact h1
          · refine g6 _ ?_
            exact h0
  · refine Keeps2.ite ?_ ?_
    · refine Keeps2.ite ?_ ?_
      · refine g6 _ ?_
        refine ethCfgWrite_keeps (sub hM rfl) ?_
        exact h1
      · refine Keeps2.ite ?_ ?_
        · refine Keeps2.mk ?_
          refine Keeps.ite ?_ ?_
          · refine vctlLoad_keeps (sub hM rfl) ?_
            refine Keeps2.snd ?_
            exact g11
          · refine Keeps2.snd ?_
            exact g11
        · refine g6 _ ?_
          exact h0
    · refine Keeps2.ite ?_ ?_
      · refine Keeps2.ite ?_ ?_
        · refine g6 _ ?_
          refine Keeps.ite ?_ ?_
          · exact h0
          · refine pceDown_keeps (sub hM rfl) ?_
            exact h0
        · refine Keeps2.ite ?_ ?_
          · refine g6 _ ?_
            refine Keeps.ite ?_ ?_
            · exact h0
            · refine rootLost_keeps (sub hM rfl) ?_
              exact h0
          · refine Keeps2.ite ?_ ?_
            · refine Keeps2.mk ?_
              exact h1
            · refine g6 _ ?_
              exact h0
      · refine Keeps2.ite ?_ ?_
        · refine Keeps2.ite ?_ ?_
          · refine g6 _ ?_
            refine dspCfgWrite_keeps (sub hM rfl) ?_
            exact h1
          · refine Keeps2.ite ?_ ?_
            · refine dmxRouteWrite_keeps (sub hM rfl) ?_
              exact h1
            · refine g6 _ ?_
              exact h0
        · refine g6 _ ?_
          exact h0

theorem writeReg_keeps {M : Nat} {s0 : State} {a0 : EntryPoint} {a1 : Nat} {a2 : Word} {a3 : Word} {a4 : State} (hM : 101172313814 ||| M = M) (h0 : Keeps M s0 a4) :
    Keeps2 M s0 (writeReg a0 a1 a2 a3 a4) := by
  unfold writeReg
  split
  · refine Keeps2.mk ?_
    exact h0
  · extract_lets +onlyGivenNames -lift x1
    clear_value x1
    extract_lets +onlyGivenNames -lift x2
    clear_value x2
    extract_lets +onlyGivenNames -lift x3
    clear_value x3
    extract_lets +onlyGivenNames -lift x4
    have g5 : Keeps M s0 x4 := by
      refine regSet_keeps (sub hM rfl) ?_
      exact h0
    clear_value x4
    refine Keeps2.ite ?_ ?_
    · refine Keeps2.mk ?_
      exact h0
    · refine Keeps2.ite ?_ ?_
      · refine putLd_keeps (sub hM rfl) ?_ ?_
        · exact g5
        · exact h0
      · refine putDie_keeps (sub hM rfl) ?_ ?_
        · exact g5
        · exact h0

theorem noteBad_keeps {M : Nat} {s0 : State} {a0 : Nat} {a1 : State} (hM : 18 ||| M = M) (h0 : Keeps M s0 a1) :
    Keeps M s0 (noteBad a0 a1) := by
  unfold noteBad
  extract_lets +onlyGivenNames -lift x0
  have g1 : Keeps M s0 x0 := by
    refine Keeps.ite ?_ ?_
    · refine wr_keeps (sub hM rfl) ?_
      exact h0
    · exact h0
  clear_value x0
  refine raise_keeps (sub hM rfl) ?_
  refine wr_keeps (sub hM rfl) ?_
  exact g1

theorem noteRefused_keeps {M : Nat} {s0 : State} {a0 : Bool} {a1 : Nat} {a2 : State} (hM : 8194 ||| M = M) (h0 : Keeps M s0 a2) :
    Keeps M s0 (noteRefused a0 a1 a2) := by
  unfold noteRefused
  refine Keeps.ite ?_ ?_
  · refine logElg_keeps (sub hM rfl) ?_
    exact h0
  · exact h0

theorem readAt_keeps {M : Nat} {s0 : State} {a0 : EntryPoint} {a1 : Bool} {a2 : Nat} {a3 : State} (hM : 1057814 ||| M = M) (h0 : Keeps M s0 a3) :
    Keeps3 M s0 (readAt a0 a1 a2 a3) := by
  unfold readAt
  refine Keeps3.ite ?_ ?_
  · refine Keeps3.mk ?_
    refine Keeps2.mk ?_
    refine noteBad_keeps (sub hM rfl) ?_
    exact h0
  · refine Keeps3.ite ?_ ?_
    · refine Keeps3.mk ?_
      refine Keeps2.mk ?_
      refine noteRefused_keeps (sub hM rfl) ?_
      exact h0
    · refine Keeps3.mk ?_
      refine readReg_keeps (sub hM rfl) ?_
      exact h0

theorem writeAt_keeps {M : Nat} {s0 : State} {a0 : EntryPoint} {a1 : Bool} {a2 : Nat} {a3 : Word} {a4 : Word} {a5 : State} (hM : 101172313814 ||| M = M) (h0 : Keeps M s0 a5) :
    Keeps2 M s0 (writeAt a0 a1 a2 a3 a4 a5) := by
  unfold writeAt
  refine Keeps2.ite ?_ ?_
  · refine Keeps2.mk ?_
    refine noteBad_keeps (sub hM rfl) ?_
    exact h0
  · refine Keeps2.ite ?_ ?_
    · refine Keeps2.mk ?_
      refine noteRefused_keeps (sub hM rfl) ?_
      exact h0
    · refine writeReg_keeps (sub hM rfl) ?_
      exact h0

theorem rmwAt_keeps {M : Nat} {s0 : State} {a0 : EntryPoint} {a1 : Nat} {a2 : Word} {a3 : Word} {a4 : State} (hM : 101172313814 ||| M = M) (h0 : Keeps M s0 a4) :
    Keeps3 M s0 (rmwAt a0 a1 a2 a3 a4) := by
  unfold rmwAt
  split
  · refine Keeps3.ite ?_ ?_
    · refine Keeps3.mk ?_
      refine Keeps2.mk ?_
      exact h0
    · split
      · rename_i y3 y4 y5 y6 y7
        refine Keeps3.elim (m := M) (s0 := s0) y7 ?_ (fun g8 => ?_)
        · refine readAt_keeps (sub hM rfl) ?_
          exact h0
        extract_lets +onlyGivenNames -lift x9
        have g10 : Keeps2 M s0 x9 := by
          refine writeReg_keeps (sub hM rfl) ?_
          exact g8
        clear_value x9
        refine Keeps3.ite ?_ ?_
        · refine Keeps3.mk ?_
          refine Keeps2.mk ?_
          refine Keeps2.snd ?_
          exact g10
        · refine Keeps3.mk ?_
          refine Keeps2.mk ?_
          exact g8
  · refine readAt_keeps (sub hM rfl) ?_
    exact h0

theorem barWrite_keeps {M : Nat} {s0 : State} {a0 : Nat} {a1 : Word} {a2 : State} (hM : 101172313814 ||| M = M) (h0 : Keeps M s0 a2) :
    Keeps M s0 (barWrite a0 a1 a2) := by
  unfold barWrite
  refine Keeps.ite ?_ ?_
  · exact h0
  · refine Keeps.ite ?_ ?_
    · refine Keeps.ite ?_ ?_
      · refine hostIfWrite_keeps (sub hM rfl) ?_
        exact h0
      · refine noteBad_keeps (sub hM rfl) ?_
        exact h0
    · refine Keeps.ite ?_ ?_
      · refine count_keeps (sub hM rfl) ?_
        exact h0
      · refine Keeps2.snd ?_
        refine writeAt_keeps (sub hM rfl) ?_
        exact h0

theorem barRead_keeps {M : Nat} {s0 : State} {a0 : Nat} {a1 : State} (hM : 8591123478 ||| M = M) (h0 : Keeps M s0 a1) :
    Keeps2 M s0 (barRead a0 a1) := by
  unfold barRead
  refine Keeps2.ite ?_ ?_
  · refine Keeps2.ite ?_ ?_
    · refine hostIfRead_keeps (sub hM rfl) ?_
      exact h0
    · refine Keeps2.mk ?_
      refine noteBad_keeps (sub hM rfl) ?_
      exact h0
  · refine Keeps2.ite ?_ ?_
    · refine Keeps2.mk ?_
      refine count_keeps (sub hM rfl) ?_
      exact h0
    · refine Keeps3.snd ?_
      refine readAt_keeps (sub hM rfl) ?_
      exact h0

theorem execRegisterWrite_keeps {M : Nat} {s0 : State} {a0 : EntryPoint} {a1 : Bool} {a2 : Nat} {a3 : Word} {a4 : State} (hM : 101172313814 ||| M = M) (h0 : Keeps M s0 a4) :
    KeepsR M s0 (execRegisterWrite a0 a1 a2 a3 a4) := by
  unfold execRegisterWrite
  refine KeepsR.ite ?_ ?_
  · refine KeepsR.next ?_
    refine barWrite_keeps (sub hM rfl) ?_
    exact h0
  · refine KeepsR.next ?_
    refine Keeps2.snd ?_
    refine writeAt_keeps (sub hM rfl) ?_
    exact h0

/-! RegCommands. -/

theorem execReadReg_keeps {M : Nat} {s0 : State} {a0 : Origin} {a1 : List Byte} {a2 : State} (hM : 8591008790 ||| M = M) (h0 : Keeps M s0 a2) :
    KeepsR M s0 (execReadReg a0 a1 a2) := by
  unfold execReadReg
  refine command_keeps (sub hM rfl) ?_ ?_
  · intro w0 k1
    split
    · rename_i y2 y3 y4 y5 y6
      refine Keeps3.elim (m := M) (s0 := s0) y6 ?_ (fun g7 => ?_)
      · refine readAt_keeps (sub hM rfl) ?_
        exact k1
      refine reply_keeps (sub hM rfl) ?_
      exact g7
  · exact h0

theorem execWriteReg_keeps {M : Nat} {s0 : State} {a0 : Origin} {a1 : List Byte} {a2 : State} (hM : 101172313814 ||| M = M) (h0 : Keeps M s0 a2) :
    KeepsR M s0 (execWriteReg a0 a1 a2) := by
  unfold execWriteReg
  refine command_keeps (sub hM rfl) ?_ ?_
  · intro w0 k1
    split
    · rename_i y2 y3 y4 y5
      refine Keeps2.elim (m := M) (s0 := s0) y5 ?_ (fun g6 => ?_)
      · refine writeAt_keeps (sub hM rfl) ?_
        exact k1
      refine reply_keeps (sub hM rfl) ?_
      exact g6
  · exact h0

theorem execRmwReg_keeps {M : Nat} {s0 : State} {a0 : Origin} {a1 : List Byte} {a2 : State} (hM : 101172313814 ||| M = M) (h0 : Keeps M s0 a2) :
    KeepsR M s0 (execRmwReg a0 a1 a2) := by
  unfold execRmwReg
  refine command_keeps (sub hM rfl) ?_ ?_
  · intro w0 k1
    split
    · rename_i y2 y3 y4 y5 y6
      refine Keeps3.elim (m := M) (s0 := s0) y6 ?_ (fun g7 => ?_)
      · refine rmwAt_keeps (sub hM rfl) ?_
        exact k1
      refine reply_keeps (sub hM rfl) ?_
      exact g7
  · exact h0

theorem readWords_keeps {M : Nat} {s0 : State} {a0 : EntryPoint} {a1 : Nat} {a2 : Nat} {a3 : State} (hM : 1057814 ||| M = M) (h0 : Keeps M s0 a3) :
    Keeps3 M s0 (readWords a0 a1 a2 a3) := by
  induction a1 generalizing a0 a2 a3 with
  | zero =>
    unfold readWords
    refine Keeps3.mk ?_
    refine Keeps2.mk ?_
    exact h0
  | succ n ih =>
    unfold readWords
    dsimp -zeta only
    refine Keeps3.ite ?_ ?_
    · refine Keeps3.mk ?_
      refine Keeps2.mk ?_
      refine Keeps2.snd ?_
      refine Keeps3.snd ?_
      apply ih
      refine Keeps2.snd ?_
      refine Keeps3.snd ?_
      refine readAt_keeps (sub hM rfl) ?_
      exact h0
    · refine Keeps3.mk ?_
      refine Keeps2.mk ?_
      refine Keeps2.snd ?_
      refine Keeps3.snd ?_
      refine readAt_keeps (sub hM rfl) ?_
      exact h0

theorem writeWords_keeps {M : Nat} {s0 : State} {a0 : EntryPoint} {a1 : List Word} {a2 : Nat} {a3 : State} (hM : 101172313814 ||| M = M) (h0 : Keeps M s0 a3) :
    Keeps3 M s0 (writeWords a0 a1 a2 a3) := by
  induction a1 generalizing a0 a2 a3 with
  | nil =>
    unfold writeWords
    refine Keeps3.mk ?_
    refine Keeps2.mk ?_
    exact h0
  | cons e l ih =>
    unfold writeWords
    dsimp -zeta only
    refine Keeps3.ite ?_ ?_
    · refine Keeps3.mk ?_
      refine Keeps2.mk ?_
      refine Keeps2.snd ?_
      refine Keeps3.snd ?_
      apply ih
      refine Keeps2.snd ?_
      refine writeAt_keeps (sub hM rfl) ?_
      exact h0
    · refine Keeps3.mk ?_
      refine Keeps2.mk ?_
      refine Keeps2.snd ?_
      refine writeAt_keeps (sub hM rfl) ?_
      exact h0

theorem rmwWords_keeps {M : Nat} {s0 : State} {a0 : EntryPoint} {a1 : Nat} {a2 : List Byte} {a3 : State} (hM : 101172313814 ||| M = M) (h0 : Keeps M s0 a3) :
    Keeps3 M s0 (rmwWords a0 a1 a2 a3) := by
  induction a1 generalizing a0 a2 a3 with
  | zero =>
    unfold rmwWords
    refine Keeps3.mk ?_
    refine Keeps2.mk ?_
    exact h0
  | succ n ih =>
    unfold rmwWords
    dsimp -zeta only
    refine Keeps3.ite ?_ ?_
    · refine Keeps3.mk ?_
      refine Keeps2.mk ?_
      refine Keeps2.snd ?_
      refine Keeps3.snd ?_
      apply ih
      refine Keeps2.snd ?_
      refine Keeps3.snd ?_
      refine rmwAt_keeps (sub hM rfl) ?_
      exact h0
    · refine Keeps3.mk ?_
      refine Keeps2.mk ?_
      refine Keeps2.snd ?_
      refine Keeps3.snd ?_
      refine rmwAt_keeps (sub hM rfl) ?_
      exact h0

theorem execReadBlk_keeps {M : Nat} {s0 : State} {a0 : Origin} {a1 : List Byte} {a2 : State} (hM : 8591008790 ||| M = M) (h0 : Keeps M s0 a2) :
    KeepsR M s0 (execReadBlk a0 a1 a2) := by
  unfold execReadBlk
  extract_lets +onlyGivenNames -lift x0
  clear_value x0
  refine command_keeps (sub hM rfl) ?_ ?_
  · intro w1 k2
    refine Keeps.ite ?_ ?_
    · refine reply_keeps (sub hM rfl) ?_
      exact k2
    · split
      · rename_i y3 y4 y5 y6 y7
        refine Keeps3.elim (m := M) (s0 := s0) y7 ?_ (fun g8 => ?_)
        · refine readWords_keeps (sub hM rfl) ?_
          exact k2
        refine reply_keeps (sub hM rfl) ?_
        exact g8
  · exact h0

theorem execWriteBlk_keeps {M : Nat} {s0 : State} {a0 : Origin} {a1 : List Byte} {a2 : State} (hM : 101172313814 ||| M = M) (h0 : Keeps M s0 a2) :
    KeepsR M s0 (execWriteBlk a0 a1 a2) := by
  unfold execWriteBlk
  extract_lets +onlyGivenNames -lift x0
  clear_value x0
  refine commandV_keeps (sub hM rfl) ?_ ?_
  · intro w1 k2
    refine Keeps.ite ?_ ?_
    · refine reply_keeps (sub hM rfl) ?_
      exact k2
    · split
      · rename_i y3 y4 y5 y6 y7
        refine Keeps3.elim (m := M) (s0 := s0) y7 ?_ (fun g8 => ?_)
        · refine writeWords_keeps (sub hM rfl) ?_
          exact k2
        refine reply_keeps (sub hM rfl) ?_
        exact g8
  · exact h0

theorem execRmwBlk_keeps {M : Nat} {s0 : State} {a0 : Origin} {a1 : List Byte} {a2 : State} (hM : 101172313814 ||| M = M) (h0 : Keeps M s0 a2) :
    KeepsR M s0 (execRmwBlk a0 a1 a2) := by
  unfold execRmwBlk
  extract_lets +onlyGivenNames -lift x0
  clear_value x0
  refine commandV_keeps (sub hM rfl) ?_ ?_
  · intro w1 k2
    refine Keeps.ite ?_ ?_
    · refine reply_keeps (sub hM rfl) ?_
      exact k2
    · split
      · rename_i y3 y4 y5 y6 y7
        refine Keeps3.elim (m := M) (s0 := s0) y7 ?_ (fun g8 => ?_)
        · refine rmwWords_keeps (sub hM rfl) ?_
          exact k2
        refine reply_keeps (sub hM rfl) ?_
        exact g8
  · exact h0

theorem readCtrs_keeps {M : Nat} {s0 : State} {a0 : Nat} {a1 : Nat} {a2 : State} (hM : 22 ||| M = M) (h0 : Keeps M s0 a2) :
    Keeps3 M s0 (readCtrs a0 a1 a2) := by
  induction a0 generalizing a1 a2 with
  | zero => exact Keeps3.mk (Keeps2.mk h0)
  | succ n ih =>
    unfold readCtrs
    refine Keeps3.ite ?_ (Keeps3.ite ?_ ?_)
    · exact Keeps3.mk (Keeps2.mk (noteBad_keeps (sub hM rfl) h0))
    · exact Keeps3.mk (Keeps2.mk h0)
    · split
      rename_i v sat s e
      refine Keeps3.elim (m := M) (s0 := s0) e (takeCtr_keeps (sub hM rfl) h0) (fun g1 => ?_)
      split
      rename_i st l u e2
      exact Keeps3.elim (m := M) (s0 := s0) e2 (ih g1) (fun g2 => Keeps3.mk (Keeps2.mk g2))

theorem execReadCtr_keeps {M : Nat} {s0 : State} {a0 : Origin} {a1 : List Byte} {a2 : State} (hM : 8589952022 ||| M = M) (h0 : Keeps M s0 a2) :
    KeepsR M s0 (execReadCtr a0 a1 a2) := by
  unfold execReadCtr
  extract_lets +onlyGivenNames -lift x0
  clear_value x0
  extract_lets +onlyGivenNames -lift x1
  clear_value x1
  refine command_keeps (sub hM rfl) ?_ ?_
  · intro w2 k3
    refine Keeps.ite ?_ ?_
    · refine reply_keeps (sub hM rfl) ?_
      exact k3
    · refine Keeps.ite ?_ ?_
      · refine reply_keeps (sub hM rfl) ?_
        exact k3
      · split
        · rename_i y4 y5 y6 y7 y8
          refine Keeps3.elim (m := M) (s0 := s0) y8 ?_ (fun g9 => ?_)
          · refine readCtrs_keeps (sub hM rfl) ?_
            exact k3
          refine reply_keeps (sub hM rfl) ?_
          exact g9
  · exact h0

theorem execGetInfo_keeps {M : Nat} {s0 : State} {a0 : Origin} {a1 : List Byte} {a2 : State} (hM : 8589952000 ||| M = M) (h0 : Keeps M s0 a2) :
    KeepsR M s0 (execGetInfo a0 a1 a2) := by
  unfold execGetInfo
  refine command_keeps (sub hM rfl) ?_ ?_
  · intro w0 k1
    refine reply_keeps (sub hM rfl) ?_
    exact k1
  · exact h0

theorem execNop_keeps {M : Nat} {s0 : State} {a0 : Origin} {a1 : List Byte} {a2 : State} (hM : 8589952000 ||| M = M) (h0 : Keeps M s0 a2) :
    KeepsR M s0 (execNop a0 a1 a2) := by
  unfold execNop
  refine commandV_keeps (sub hM rfl) ?_ ?_
  · intro w0 k1
    refine reply_keeps (sub hM rfl) ?_
    exact k1
  · exact h0

end Sys2Proof.Machine
end

