-- ==== Sys2Proof/Laws/KeepsBridge.lean ====
section
/-! SUPPORT. `Keeps` for the operations and commands of the bridge, terminating units, ordered sets and images. A mask is the sum of 2^i over the fields of State that may
change, numbered as `Keeps` numbers them. -/
namespace Sys2Proof.Machine

-- One theorem at a time, so that the package as one text compiles within its memory limit.
set_option Elab.async false

/-! Bridge. -/

theorem dropBrg_keeps {M : Nat} {s0 : State} {a0 : Frame} {a1 : State} (hM : 4096 ||| M = M) (h0 : Keeps M s0 a1) :
    Keeps M s0 (dropBrg a0 a1) := by
  unfold dropBrg
  refine setInbox_keeps (sub hM rfl) ?_
  exact h0

theorem serveReg_keeps {M : Nat} {s0 : State} {a0 : Bool} {a1 : Nat} {a2 : Nat} {a3 : List Byte} {a4 : State} (hM : 101172313814 ||| M = M) (h0 : Keeps M s0 a4) :
    Keeps2 M s0 (serveReg a0 a1 a2 a3 a4) := by
  unfold serveReg
  extract_lets +onlyGivenNames -lift x0
  clear_value x0
  refine Keeps2.ite ?_ ?_
  · refine Keeps2.mk ?_
    exact h0
  · refine Keeps2.ite ?_ ?_
    · split
      · rename_i y1 y2 y3 y4
        refine Keeps2.elim (m := M) (s0 := s0) y4 ?_ (fun g5 => ?_)
        · refine writeAt_keeps (sub hM rfl) ?_
          exact h0
        refine Keeps2.mk ?_
        exact g5
    · split
      · rename_i y6 y7 y8 y9 y10
        refine Keeps3.elim (m := M) (s0 := s0) y10 ?_ (fun g11 => ?_)
        · refine readAt_keeps (sub hM rfl) ?_
          exact h0
        refine Keeps2.mk ?_
        exact g11

theorem serve_keeps {M : Nat} {s0 : State} {a0 : Bool} {a1 : Nat} {a2 : Nat} {a3 : List Byte} {a4 : State} (hM : 101172313814 ||| M = M) (h0 : Keeps M s0 a4) :
    Keeps2 M s0 (serve a0 a1 a2 a3 a4) := by
  unfold serve
  refine Keeps2.ite ?_ ?_
  · refine Keeps2.mk ?_
    exact h0
  · refine Keeps2.ite ?_ ?_
    · refine serveReg_keeps (sub hM rfl) ?_
      exact h0
    · refine Keeps2.ite ?_ ?_
      · refine Keeps2.mk ?_
        exact h0
      · refine Keeps2.ite ?_ ?_
        · refine Keeps2.mk ?_
          exact h0
        · refine Keeps2.mk ?_
          exact h0

theorem serveRequest_keeps {M : Nat} {s0 : State} {a0 : Frame} {a1 : Bool} {a2 : State} (hM : 101172313814 ||| M = M) (h0 : Keeps M s0 a2) :
    Keeps M s0 (serveRequest a0 a1 a2) := by
  unfold serveRequest
  extract_lets +onlyGivenNames -lift x0
  clear_value x0
  extract_lets +onlyGivenNames -lift x1
  clear_value x1
  extract_lets +onlyGivenNames -lift x2
  clear_value x2
  extract_lets +onlyGivenNames -lift x3
  clear_value x3
  extract_lets +onlyGivenNames -lift x4
  have g5 : ∀ v0 v1, Keeps M s0 v1 → Keeps M s0 (x4 v0 v1) := by
    intro w6 w7 k8
    refine Keeps.ite ?_ ?_
    · refine writeFails_keeps (sub hM rfl) ?_
      exact k8
    · refine brgCpl_keeps (sub hM rfl) ?_
      exact k8
  clear_value x4
  split
  · refine g5 _ _ ?_
    exact h0
  · split
    · rename_i y11 y12 y13 y14
      refine Keeps2.elim (m := M) (s0 := s0) y14 ?_ (fun g15 => ?_)
      · refine serve_keeps (sub hM rfl) ?_
        exact h0
      refine g5 _ _ ?_
      exact g15
    · rename_i y16 y17 y18 y19
      refine Keeps2.elim (m := M) (s0 := s0) y19 ?_ (fun g20 => ?_)
      · refine serve_keeps (sub hM rfl) ?_
        exact h0
      refine Keeps.ite ?_ ?_
      · exact g20
      · refine brgCpl_keeps (sub hM rfl) ?_
        exact g20
    · rename_i y21 y22 y23 y24 y25
      refine Keeps2.elim (m := M) (s0 := s0) y25 ?_ (fun g26 => ?_)
      · refine serve_keeps (sub hM rfl) ?_
        exact h0
      extract_lets +onlyGivenNames -lift x27
      have g28 : Keeps M s0 x27 := by
        unfold x27
        split
        · exact g26
        · refine updHost_keeps (sub hM rfl) ?_
          exact g26
      clear_value x27
      refine Keeps.ite ?_ ?_
      · exact g28
      · refine updBrg_keeps (sub hM rfl) ?_
        exact g28

theorem putCtx_keeps {M : Nat} {s0 : State} {a0 : WriteCtx} {a1 : State} (hM : 8192 ||| M = M) (h0 : Keeps M s0 a1) :
    Keeps M s0 (putCtx a0 a1) := by
  unfold putCtx
  refine updBrg_keeps (sub hM rfl) ?_
  exact h0

theorem lostWrites_keeps {M : Nat} {s0 : State} {a0 : Frame} {a1 : Nat} {a2 : Nat} {a3 : State} (hM : 9218 ||| M = M) (h0 : Keeps M s0 a3) :
    Keeps M s0 (lostWrites a0 a1 a2 a3) := by
  unfold lostWrites
  extract_lets +onlyGivenNames -lift x0
  have g1 : Keeps M s0 x0 := by
    refine logElg_keeps (sub hM rfl) ?_
    refine addFails_keeps (sub hM rfl) ?_
    exact h0
  clear_value x0
  refine brgAnswer_keeps (sub hM rfl) ?_
  exact g1

theorem sequence_keeps {M : Nat} {s0 : State} {a0 : Frame} {a1 : Bool} {a2 : Nat} {a3 : Nat} {a4 : State} (hM : 9218 ||| M = M) (h0 : Keeps M s0 a4) :
    KeepsP M s0 (sequence a0 a1 a2 a3 a4) := by
  unfold sequence
  extract_lets +onlyGivenNames -lift x0
  clear_value x0
  refine KeepsP.ite ?_ ?_
  · refine KeepsP.some ?_
    refine putCtx_keeps (sub hM rfl) ?_
    exact h0
  · split
    · refine KeepsP.some ?_
      refine putCtx_keeps (sub hM rfl) ?_
      exact h0
    · extract_lets +onlyGivenNames -lift x3
      clear_value x3
      extract_lets +onlyGivenNames -lift x4
      have g5 : Keeps M s0 x4 := by
        refine putCtx_keeps (sub hM rfl) ?_
        exact h0
      clear_value x4
      refine KeepsP.ite ?_ ?_
      · exact KeepsP.none
      · refine KeepsP.some ?_
        refine Keeps.ite ?_ ?_
        · exact g5
        · refine lostWrites_keeps (sub hM rfl) ?_
          exact g5

theorem execBrgWriteReceive_keeps {M : Nat} {s0 : State} {a0 : State} (hM : 101172313814 ||| M = M) (h0 : Keeps M s0 a0) :
    KeepsR M s0 (execBrgWriteReceive a0) := by
  unfold execBrgWriteReceive
  split
  · refine KeepsR.next ?_
    exact h0
  · extract_lets +onlyGivenNames -lift x1
    have g2 : Keeps M s0 x1 := by
      refine dropBrg_keeps (sub hM rfl) ?_
      exact h0
    clear_value x1
    extract_lets +onlyGivenNames -lift x3
    clear_value x3
    split
    · rename_i y4 y5
      refine KeepsR.next ?_
      refine count_keeps (sub hM rfl) ?_
      exact g2
    · rename_i y6 y7 y8
      refine KeepsP.elim (M := M) (s0 := s0) y8 ?_ (fun g9 => ?_)
      · refine sequence_keeps (sub hM rfl) ?_
        exact g2
      refine KeepsR.next ?_
      refine serveRequest_keeps (sub hM rfl) ?_
      exact g9

theorem execBrgReadReceive_keeps {M : Nat} {s0 : State} {a0 : State} (hM : 101172313814 ||| M = M) (h0 : Keeps M s0 a0) :
    KeepsR M s0 (execBrgReadReceive a0) := by
  unfold execBrgReadReceive
  split
  · refine KeepsR.next ?_
    exact h0
  · refine KeepsR.next ?_
    refine serveRequest_keeps (sub hM rfl) ?_
    refine dropBrg_keeps (sub hM rfl) ?_
    exact h0

theorem execFenceReceive_keeps {M : Nat} {s0 : State} {a0 : State} (hM : 144406 ||| M = M) (h0 : Keeps M s0 a0) :
    KeepsR M s0 (execFenceReceive a0) := by
  unfold execFenceReceive
  split
  · refine KeepsR.next ?_
    exact h0
  · extract_lets +onlyGivenNames -lift x1
    have g2 : Keeps M s0 x1 := by
      refine dropBrg_keeps (sub hM rfl) ?_
      exact h0
    clear_value x1
    extract_lets +onlyGivenNames -lift x3
    clear_value x3
    split
    · rename_i y4 y5
      refine KeepsR.next ?_
      refine count_keeps (sub hM rfl) ?_
      exact g2
    · rename_i y6 y7 y8
      refine KeepsP.elim (M := M) (s0 := s0) y8 ?_ (fun g9 => ?_)
      · refine sequence_keeps (sub hM rfl) ?_
        exact g2
      split
      · refine KeepsR.next ?_
        exact g9
      · refine KeepsR.next ?_
        refine putCtx_keeps (sub hM rfl) ?_
        refine brgAnswer_keeps (sub hM rfl) ?_
        exact g9

theorem execDeepCombAccessDone_keeps {M : Nat} {s0 : State} {a0 : Bool} {a1 : State} (hM : 173078 ||| M = M) (h0 : Keeps M s0 a1) :
    KeepsR M s0 (execDeepCombAccessDone a0 a1) := by
  unfold execDeepCombAccessDone
  split
  · refine KeepsR.next ?_
    exact h0
  · refine KeepsR.ite ?_ ?_
    · refine KeepsR.next ?_
      exact h0
    · refine KeepsR.ite ?_ ?_
      · refine KeepsR.next ?_
        refine finish_keeps (sub hM rfl) ?_
        exact h0
      · refine KeepsR.ite ?_ ?_
        · refine KeepsR.next ?_
          refine finish_keeps (sub hM rfl) ?_
          refine deepWrites_keeps (sub hM rfl) ?_
          exact h0
        · refine KeepsR.next ?_
          refine finish_keeps (sub hM rfl) ?_
          exact h0

theorem execPcieCompletionReceive_keeps {M : Nat} {s0 : State} {a0 : Bool} {a1 : Nat} {a2 : Bool} {a3 : List Byte} {a4 : State} (hM : 140310 ||| M = M) (h0 : Keeps M s0 a4) :
    KeepsR M s0 (execPcieCompletionReceive a0 a1 a2 a3 a4) := by
  unfold execPcieCompletionReceive
  split
  · refine KeepsR.next ?_
    exact h0
  · refine KeepsR.ite ?_ ?_
    · refine KeepsR.next ?_
      refine finish_keeps (sub hM rfl) ?_
      exact h0
    · refine KeepsR.ite ?_ ?_
      · refine KeepsR.next ?_
        refine finish_keeps (sub hM rfl) ?_
        exact h0
      · refine KeepsR.ite ?_ ?_
        · refine KeepsR.next ?_
          refine finish_keeps (sub hM rfl) ?_
          exact h0
        · refine KeepsR.next ?_
          exact h0

theorem execHostMemoryTimeout_keeps {M : Nat} {s0 : State} {a0 : Nat} {a1 : State} (hM : 140310 ||| M = M) (h0 : Keeps M s0 a1) :
    KeepsR M s0 (execHostMemoryTimeout a0 a1) := by
  unfold execHostMemoryTimeout
  split
  · refine KeepsR.next ?_
    exact h0
  · refine KeepsR.next ?_
    refine finish_keeps (sub hM rfl) ?_
    exact h0

theorem execRootPortTimeout_keeps {M : Nat} {s0 : State} {a0 : Nat} {a1 : State} (hM : 140310 ||| M = M) (h0 : Keeps M s0 a1) :
    KeepsR M s0 (execRootPortTimeout a0 a1) := by
  unfold execRootPortTimeout
  split
  · refine KeepsR.next ?_
    exact h0
  · refine KeepsR.next ?_
    refine raise_keeps (sub hM rfl) ?_
    refine wr_keeps (sub hM rfl) ?_
    refine finish_keeps (sub hM rfl) ?_
    exact h0

theorem devAnswer_keeps {M : Nat} {s0 : State} {a0 : Bool} {a1 : Bool} {a2 : List Byte} {a3 : State} (hM : 8589934592 ||| M = M) (h0 : Keeps M s0 a3) :
    Keeps M s0 (devAnswer a0 a1 a2 a3) := by
  unfold devAnswer
  refine Keeps.ite ?_ ?_
  · exact h0
  · refine updHost_keeps (sub hM rfl) ?_
    exact h0

theorem execInboundDeviceRequest_keeps {M : Nat} {s0 : State} {a0 : Bool} {a1 : BitVec 64} {a2 : BitVec 13} {a3 : List Byte} {a4 : State} (hM : 8589967378 ||| M = M) (h0 : Keeps M s0 a4) :
    KeepsR M s0 (execInboundDeviceRequest a0 a1 a2 a3 a4) := by
  unfold execInboundDeviceRequest
  extract_lets +onlyGivenNames -lift x0
  clear_value x0
  extract_lets +onlyGivenNames -lift x1
  clear_value x1
  refine KeepsR.ite ?_ ?_
  · refine KeepsR.next ?_
    exact h0
  · refine KeepsR.ite ?_ ?_
    · refine KeepsR.ite ?_ ?_
      · refine KeepsR.next ?_
        refine raise_keeps (sub hM rfl) ?_
        refine wr_keeps (sub hM rfl) ?_
        refine devAnswer_keeps (sub hM rfl) ?_
        exact h0
      · refine KeepsR.ite ?_ ?_
        · refine KeepsR.next ?_
          refine devAnswer_keeps (sub hM rfl) ?_
          exact h0
        · refine KeepsR.next ?_
          refine Keeps.ite ?_ ?_
          · refine deepWrites_keeps (sub hM rfl) ?_
            exact h0
          · refine devAnswer_keeps (sub hM rfl) ?_
            exact h0
    · refine KeepsR.ite ?_ ?_
      · refine KeepsR.next ?_
        refine raise_keeps (sub hM rfl) ?_
        refine orF_keeps (sub hM rfl) ?_
        exact h0
      · refine KeepsR.next ?_
        refine devAnswer_keeps (sub hM rfl) ?_
        exact h0

theorem execCplReceive_keeps {M : Nat} {s0 : State} {a0 : State} (hM : 8590097559 ||| M = M) (h0 : Keeps M s0 a0) :
    KeepsR M s0 (execCplReceive a0) := by
  unfold execCplReceive
  split
  · rename_i y1 y2
    refine KeepsR.next ?_
    exact h0
  · rename_i y3 y4 y5 y6
    refine KeepsO.elim (m := M) (s0 := s0) y6 ?_ (fun g7 => ?_)
    · refine takeFrame_keeps (sub hM rfl) ?_
      exact h0
    extract_lets +onlyGivenNames -lift x8
    clear_value x8
    extract_lets +onlyGivenNames -lift x9
    clear_value x9
    split
    · refine KeepsR.next ?_
      refine count_keeps (sub hM rfl) ?_
      exact g7
    · extract_lets +onlyGivenNames -lift x11
      have g12 : Keeps M s0 x11 := by
        refine updBrg_keeps (sub hM rfl) ?_
        exact g7
      clear_value x11
      extract_lets +onlyGivenNames -lift x13
      clear_value x13
      refine KeepsR.ite ?_ ?_
      · refine KeepsR.next ?_
        refine tagFreed_keeps (sub hM rfl) ?_
        refine readDone_keeps (sub hM rfl) ?_
        exact g12
      · refine KeepsR.ite ?_ ?_
        · split
          · rename_i y17 y18 y19 y20
            refine Keeps2.elim (m := M) (s0 := s0) y20 ?_ (fun g21 => ?_)
            · refine drawFree_keeps (sub hM rfl) ?_
              exact g12
            extract_lets +onlyGivenNames -lift x22
            clear_value x22
            refine KeepsR.next ?_
            refine tagFreed_keeps (sub hM rfl) ?_
            refine readFails_keeps (sub hM rfl) ?_
            exact g21
        · refine KeepsR.next ?_
          refine tagFreed_keeps (sub hM rfl) ?_
          refine readFails_keeps (sub hM rfl) ?_
          exact g12

theorem execReadTimeout_keeps {M : Nat} {s0 : State} {a0 : Fin 1024} {a1 : State} (hM : 8590097558 ||| M = M) (h0 : Keeps M s0 a1) :
    KeepsR M s0 (execReadTimeout a0 a1) := by
  unfold execReadTimeout
  split
  · refine KeepsR.next ?_
    exact h0
  · extract_lets +onlyGivenNames -lift x1
    have g2 : Keeps M s0 x1 := by
      refine updBrg_keeps (sub hM rfl) ?_
      exact h0
    clear_value x1
    refine KeepsR.next ?_
    refine tagFreed_keeps (sub hM rfl) ?_
    refine readFails_keeps (sub hM rfl) ?_
    exact g2

theorem execPwerrReceive_keeps {M : Nat} {s0 : State} {a0 : State} (hM : 12306 ||| M = M) (h0 : Keeps M s0 a0) :
    KeepsR M s0 (execPwerrReceive a0) := by
  unfold execPwerrReceive
  split
  · rename_i y1 y2
    refine KeepsR.next ?_
    exact h0
  · rename_i y3 y4 y5 y6
    refine KeepsO.elim (m := M) (s0 := s0) y6 ?_ (fun g7 => ?_)
    · refine takeFrame_keeps (sub hM rfl) ?_
      exact h0
    extract_lets +onlyGivenNames -lift x8
    clear_value x8
    refine KeepsR.next ?_
    refine logPwl_keeps (sub hM rfl) ?_
    exact g7

theorem sendFence_keeps {M : Nat} {s0 : State} {a0 : Fence} {a1 : State} (hM : 146580 ||| M = M) (h0 : Keeps M s0 a1) :
    Keeps M s0 (sendFence a0 a1) := by
  unfold sendFence
  extract_lets +onlyGivenNames -lift x0
  clear_value x0
  extract_lets +onlyGivenNames -lift x1
  clear_value x1
  refine originate_keeps (sub hM rfl) ?_
  refine updBrg_keeps (sub hM rfl) ?_
  exact h0

theorem fenceEnds_keeps {M : Nat} {s0 : State} {a0 : Nat} {a1 : State} (hM : 146580 ||| M = M) (h0 : Keeps M s0 a1) :
    Keeps M s0 (fenceEnds a0 a1) := by
  unfold fenceEnds
  extract_lets +onlyGivenNames -lift x0
  have g1 : Keeps M s0 x0 := by
    refine updBrg_keeps (sub hM rfl) ?_
    exact h0
  clear_value x0
  split
  · exact g1
  · refine sendFence_keeps (sub hM rfl) ?_
    refine updBrg_keeps (sub hM rfl) ?_
    exact g1

theorem execWriteFence_keeps {M : Nat} {s0 : State} {a0 : Origin} {a1 : List Byte} {a2 : State} (hM : 8590097556 ||| M = M) (h0 : Keeps M s0 a2) :
    KeepsR M s0 (execWriteFence a0 a1 a2) := by
  unfold execWriteFence
  extract_lets +onlyGivenNames -lift x0
  clear_value x0
  refine command_keeps (sub hM rfl) ?_ ?_
  · intro w2 k3
    extract_lets +onlyGivenNames -lift x4
    clear_value x4
    extract_lets +onlyGivenNames -lift x5
    clear_value x5
    refine Keeps.ite ?_ ?_
    · refine reply_keeps (sub hM rfl) ?_
      exact k3
    · refine Keeps.ite ?_ ?_
      · refine updBrg_keeps (sub hM rfl) ?_
        exact k3
      · refine sendFence_keeps (sub hM rfl) ?_
        exact k3
  · exact h0

theorem execFenceAckReceive_keeps {M : Nat} {s0 : State} {a0 : State} (hM : 8590097556 ||| M = M) (h0 : Keeps M s0 a0) :
    KeepsR M s0 (execFenceAckReceive a0) := by
  unfold execFenceAckReceive
  split
  · rename_i y1 y2
    refine KeepsR.next ?_
    exact h0
  · rename_i y3 y4 y5 y6
    refine KeepsO.elim (m := M) (s0 := s0) y6 ?_ (fun g7 => ?_)
    · refine takeFrame_keeps (sub hM rfl) ?_
      exact h0
    extract_lets +onlyGivenNames -lift x8
    clear_value x8
    extract_lets +onlyGivenNames -lift x9
    clear_value x9
    split
    · refine KeepsR.next ?_
      exact g7
    · extract_lets +onlyGivenNames -lift x11
      have g12 : Keeps M s0 x11 := by
        refine Keeps.ite ?_ ?_
        · refine updBrg_keeps (sub hM rfl) ?_
          exact g7
        · exact g7
      clear_value x11
      refine KeepsR.next ?_
      refine fenceEnds_keeps (sub hM rfl) ?_
      refine reply_keeps (sub hM rfl) ?_
      exact g12

theorem execFenceTimeout_keeps {M : Nat} {s0 : State} {a0 : BitVec 14} {a1 : State} (hM : 8590097556 ||| M = M) (h0 : Keeps M s0 a1) :
    KeepsR M s0 (execFenceTimeout a0 a1) := by
  unfold execFenceTimeout
  split
  · refine KeepsR.next ?_
    exact h0
  · refine KeepsR.next ?_
    refine fenceEnds_keeps (sub hM rfl) ?_
    refine reply_keeps (sub hM rfl) ?_
    exact h0

theorem execBrgRead_keeps {M : Nat} {s0 : State} {a0 : Origin} {a1 : List Byte} {a2 : State} (hM : 8590097558 ||| M = M) (h0 : Keeps M s0 a2) :
    KeepsR M s0 (execBrgRead a0 a1 a2) := by
  unfold execBrgRead
  refine command_keeps (sub hM rfl) ?_ ?_
  · intro w0 k1
    refine Keeps.ite ?_ ?_
    · refine reply_keeps (sub hM rfl) ?_
      exact k1
    · refine acceptTxn_keeps (sub hM rfl) ?_
      exact k1
  · exact h0

theorem execBrgWrite_keeps {M : Nat} {s0 : State} {a0 : Origin} {a1 : List Byte} {a2 : State} (hM : 8590097558 ||| M = M) (h0 : Keeps M s0 a2) :
    KeepsR M s0 (execBrgWrite a0 a1 a2) := by
  unfold execBrgWrite
  refine commandV_keeps (sub hM rfl) ?_ ?_
  · intro w0 k1
    refine Keeps.ite ?_ ?_
    · refine reply_keeps (sub hM rfl) ?_
      exact k1
    · refine acceptTxn_keeps (sub hM rfl) ?_
      exact k1
  · exact h0

/-! Terminate. -/

theorem tunType_keeps {M : Nat} {s0 : State} {a0 : State} (hM : 131092 ||| M = M) (h0 : Keeps M s0 a0) :
    Keeps M s0 (tunType a0) := by
  unfold tunType
  refine count_keeps (sub hM rfl) ?_
  exact h0

theorem dupCheck_keeps {M : Nat} {s0 : State} {a0 : Frame} {a1 : State} (hM : 135190 ||| M = M) (h0 : Keeps M s0 a1) :
    Keeps2 M s0 (dupCheck a0 a1) := by
  unfold dupCheck
  extract_lets +onlyGivenNames -lift x0
  clear_value x0
  extract_lets +onlyGivenNames -lift x1
  clear_value x1
  extract_lets +onlyGivenNames -lift x2
  clear_value x2
  extract_lets +onlyGivenNames -lift x3
  have g4 : ∀ v0, Keeps M s0 (x3 v0) := by
    intro w5
    refine updTuns_keeps (sub hM rfl) ?_
    exact h0
  clear_value x3
  split
  · refine Keeps2.mk ?_
    refine g4 _
  · split
    · refine Keeps2.mk ?_
      refine g4 _
    · refine Keeps2.mk ?_
      refine wr_keeps (sub hM rfl) ?_
      refine count_keeps (sub hM rfl) ?_
      refine g4 _

theorem intoInbox_keeps {M : Nat} {s0 : State} {a0 : Nat} {a1 : Frame} {a2 : State} (hM : 4096 ||| M = M) (h0 : Keeps M s0 a2) :
    Keeps M s0 (intoInbox a0 a1 a2) := by
  unfold intoInbox
  refine setInbox_keeps (sub hM rfl) ?_
  exact h0

theorem timeUnit_keeps {M : Nat} {s0 : State} {a0 : Frame} {a1 : State} (hM : 135190 ||| M = M) (h0 : Keeps M s0 a1) :
    Keeps M s0 (timeUnit a0 a1) := by
  unfold timeUnit
  split
  · rename_i y0 y1 y2
    refine Keeps2.elim (m := M) (s0 := s0) y2 ?_ (fun g3 => ?_)
    · refine dupCheck_keeps (sub hM rfl) ?_
      exact h0
    exact g3
  · rename_i y4 y5 y6
    refine Keeps2.elim (m := M) (s0 := s0) y6 ?_ (fun g7 => ?_)
    · refine dupCheck_keeps (sub hM rfl) ?_
      exact h0
    refine Keeps.ite ?_ ?_
    · refine trgFmt_keeps (sub hM rfl) ?_
      exact g7
    · refine Keeps.ite ?_ ?_
      · exact g7
      · refine intoInbox_keeps (sub hM rfl) ?_
        exact g7

theorem tuTakes_keeps {M : Nat} {s0 : State} {a0 : Nat} {a1 : Frame} {a2 : State} (hM : 1073877012 ||| M = M) (h0 : Keeps M s0 a2) :
    Keeps M s0 (tuTakes a0 a1 a2) := by
  unfold tuTakes
  extract_lets +onlyGivenNames -lift x0
  clear_value x0
  refine Keeps.ite ?_ ?_
  · refine Keeps.ite ?_ ?_
    · refine tunType_keeps (sub hM rfl) ?_
      exact h0
    · refine Keeps.ite ?_ ?_
      · refine intoInbox_keeps (sub hM rfl) ?_
        exact h0
      · exact h0
  · split
    · exact h0
    · refine Keeps.set_dpLine (hit hM rfl) (?_)
      exact h0

theorem deliverFrame_keeps {M : Nat} {s0 : State} {a0 : Nat} {a1 : Nat} {a2 : Frame} {a3 : State} (hM : 11811312662 ||| M = M) (h0 : Keeps M s0 a3) :
    Keeps M s0 (deliverFrame a0 a1 a2 a3) := by
  unfold deliverFrame
  split
  · split
    · refine acceptFrame_keeps (sub hM rfl) ?_
      exact h0
    · refine Keeps.ite ?_ ?_
      · refine intoInbox_keeps (sub hM rfl) ?_
        exact h0
      · refine count_keeps (sub hM rfl) ?_
        exact h0
    · exact h0
    · refine timeUnit_keeps (sub hM rfl) ?_
      exact h0
  · refine tuTakes_keeps (sub hM rfl) ?_
    exact h0
  · refine tuTakes_keeps (sub hM rfl) ?_
    exact h0
  · refine tuTakes_keeps (sub hM rfl) ?_
    exact h0
  · refine tuTakes_keeps (sub hM rfl) ?_
    exact h0
  · refine Keeps.ite ?_ ?_
    · exact h0
    · refine ethUnwrap_keeps (sub hM rfl) ?_
      exact h0
  · refine Keeps.ite ?_ ?_
    · exact h0
    · refine ethUnwrap_keeps (sub hM rfl) ?_
      exact h0
  · refine Keeps.ite ?_ ?_
    · exact h0
    · refine ethUnwrap_keeps (sub hM rfl) ?_
      exact h0
  · refine Keeps.ite ?_ ?_
    · exact h0
    · refine ethUnwrap_keeps (sub hM rfl) ?_
      exact h0
  · refine rqDeliver_keeps (sub hM rfl) ?_
    exact h0
  · refine Keeps.ite ?_ ?_
    · exact h0
    · refine Keeps.ite ?_ ?_
      · refine intoInbox_keeps (sub hM rfl) ?_
        exact h0
      · refine tunType_keeps (sub hM rfl) ?_
        exact h0

theorem addCell_keeps {M : Nat} {s0 : State} {a0 : Nat} {a1 : Reasm} {a2 : Cell} {a3 : State} (hM : 131092 ||| M = M) (h0 : Keeps M s0 a3) :
    Keeps2 M s0 (addCell a0 a1 a2 a3) := by
  unfold addCell
  refine Keeps2.ite ?_ ?_
  · refine Keeps2.mk ?_
    exact h0
  · refine Keeps2.ite ?_ ?_
    · refine Keeps2.mk ?_
      refine reasmErr_keeps (sub hM rfl) ?_
      exact h0
    · refine Keeps2.mk ?_
      exact h0

theorem openCtx_keeps {M : Nat} {s0 : State} {a0 : Nat} {a1 : Reasm} {a2 : List Reasm} {a3 : State} (hM : 131094 ||| M = M) (h0 : Keeps M s0 a3) :
    Keeps2 M s0 (openCtx a0 a1 a2 a3) := by
  unfold openCtx
  split
  · refine Keeps2.ite ?_ ?_
    · refine Keeps2.mk ?_
      exact h0
    · refine Keeps2.mk ?_
      refine wr_keeps (sub hM rfl) ?_
      refine Keeps.ite ?_ ?_
      · exact h0
      · refine reasmErr_keeps (sub hM rfl) ?_
        exact h0
  · refine Keeps2.mk ?_
    exact h0

theorem reassemble_keeps {M : Nat} {s0 : State} {a0 : Nat} {a1 : Nat} {a2 : Nat} {a3 : Nat} {a4 : Cell} {a5 : State} (hM : 11811312662 ||| M = M) (h0 : Keeps M s0 a5) :
    Keeps M s0 (reassemble a0 a1 a2 a3 a4 a5) := by
  unfold reassemble
  extract_lets +onlyGivenNames -lift x0
  clear_value x0
  extract_lets +onlyGivenNames -lift x1
  clear_value x1
  extract_lets +onlyGivenNames -lift x2
  clear_value x2
  extract_lets +onlyGivenNames -lift x3
  have g4 : ∀ v0 v1, Keeps M s0 v1 → Keeps M s0 (x3 v0 v1) := by
    intro w5 w6 k7
    unfold x3
    extract_lets +onlyGivenNames -lift x8
    have g9 : Keeps M s0 x8 := by
      refine setCtxs_keeps (sub hM rfl) ?_
      exact k7
    clear_value x8
    refine Keeps.ite ?_ ?_
    · exact g9
    · refine deliverFrame_keeps (sub hM rfl) ?_
      exact g9
  clear_value x3
  extract_lets +onlyGivenNames -lift x10
  have g11 : Keeps M s0 x10 := by
    unfold x10
    split
    · refine Keeps.ite ?_ ?_
      · exact h0
      · refine reasmErr_keeps (sub hM rfl) ?_
        exact h0
    · exact h0
  clear_value x10
  refine Keeps.ite ?_ ?_
  · split
    · rename_i y14 y15 y16 y17
      refine Keeps2.elim (m := M) (s0 := s0) y17 ?_ (fun g18 => ?_)
      · refine addCell_keeps (sub hM rfl) ?_
        exact g11
      split
      · rename_i y20 y21 y22 y23
        refine Keeps2.elim (m := M) (s0 := s0) y23 ?_ (fun g24 => ?_)
        · refine openCtx_keeps (sub hM rfl) ?_
          exact g18
        extract_lets +onlyGivenNames -lift x25
        have g26 : Keeps M s0 x25 := by
          refine setCtxs_keeps (sub hM rfl) ?_
          exact g24
        clear_value x25
        refine Keeps.ite ?_ ?_
        · refine g4 _ _ ?_
          exact g26
        · exact g26
  · split
    · refine reasmErr_keeps (sub hM rfl) ?_
      exact h0
    · split
      · rename_i y29 y30 y31 y32
        refine Keeps2.elim (m := M) (s0 := s0) y32 ?_ (fun g33 => ?_)
        · refine addCell_keeps (sub hM rfl) ?_
          exact h0
        extract_lets +onlyGivenNames -lift x34
        have g35 : Keeps M s0 x34 := by
          refine setCtxs_keeps (sub hM rfl) ?_
          exact g33
        clear_value x34
        refine Keeps.ite ?_ ?_
        · refine g4 _ _ ?_
          exact g35
        · exact g35

theorem execTunnelCellTerminate_keeps {M : Nat} {s0 : State} {a0 : Fin 17} {a1 : State} (hM : 11811312790 ||| M = M) (h0 : Keeps M s0 a1) :
    KeepsR M s0 (execTunnelCellTerminate a0 a1) := by
  unfold execTunnelCellTerminate
  extract_lets +onlyGivenNames -lift x0
  clear_value x0
  split
  · refine KeepsR.next ?_
    exact h0
  · extract_lets +onlyGivenNames -lift x2
    have g3 : Keeps M s0 x2 := by
      refine oweCredit_keeps (sub hM rfl) ?_
      refine updTuns_keeps (sub hM rfl) ?_
      exact h0
    clear_value x2
    refine KeepsR.ite ?_ ?_
    · refine KeepsR.next ?_
      exact h0
    · refine KeepsR.ite ?_ ?_
      · refine KeepsR.next ?_
        refine count_keeps (sub hM rfl) ?_
        exact g3
      · refine KeepsR.ite ?_ ?_
        · refine KeepsR.next ?_
          refine tunType_keeps (sub hM rfl) ?_
          exact g3
        · refine KeepsR.next ?_
          refine reassemble_keeps (sub hM rfl) ?_
          exact g3

/-! OsWords. -/

theorem oswErr_keeps {M : Nat} {s0 : State} {a0 : Nat} {a1 : State} (hM : 131092 ||| M = M) (h0 : Keeps M s0 a1) :
    Keeps M s0 (oswErr a0 a1) := by
  unfold oswErr
  refine count_keeps (sub hM rfl) ?_
  exact h0

theorem onResync_keeps {M : Nat} {s0 : State} {a0 : Nat} {a1 : Nat} {a2 : State} (hM : 68719608406 ||| M = M) (h0 : Keeps M s0 a2) :
    Keeps M s0 (onResync a0 a1 a2) := by
  unfold onResync
  split
  · refine onInit_keeps (sub hM rfl) ?_
    exact h0
  · refine onResyncReplay_keeps (sub hM rfl) ?_
    exact h0
  · refine onCreq_keeps (sub hM rfl) ?_
    exact h0
  · refine Keeps.ite ?_ ?_
    · refine onRecall_keeps (sub hM rfl) ?_
      exact h0
    · exact h0
  · refine count_keeps (sub hM rfl) ?_
    exact h0

theorem onWord_keeps {M : Nat} {s0 : State} {a0 : Nat} {a1 : OsWord} {a2 : State} (hM : 94489691991 ||| M = M) (h0 : Keeps M s0 a2) :
    Keeps M s0 (onWord a0 a1 a2) := by
  unfold onWord
  extract_lets +onlyGivenNames -lift x0
  clear_value x0
  split
  · exact h0
  · refine onCap_keeps (sub hM rfl) ?_
    exact h0
  · refine onWake_keeps (sub hM rfl) ?_
    exact h0
  · refine onWaggle_keeps (sub hM rfl) ?_
    exact h0
  · refine onStateReq_keeps (sub hM rfl) ?_
    exact h0
  · refine onStateAck_keeps (sub hM rfl) ?_
    exact h0
  · refine onStateNak_keeps (sub hM rfl) ?_
    exact h0
  · refine onLaneRetire_keeps (sub hM rfl) ?_
    exact h0
  · refine onDreq_keeps (sub hM rfl) ?_
    exact h0
  · refine onDrsp_keeps (sub hM rfl) ?_
    exact h0
  · refine onCreditWord_keeps (sub hM rfl) ?_
    exact h0
  · refine onResync_keeps (sub hM rfl) ?_
    exact h0
  · refine onLpwr_keeps (sub hM rfl) ?_
    exact h0
  · refine oswErr_keeps (sub hM rfl) ?_
    exact h0

theorem onSyncPair_keeps {M : Nat} {s0 : State} {a0 : Nat} {a1 : Nat} {a2 : Nat} {a3 : Nat} {a4 : State} (hM : 1376274 ||| M = M) (h0 : Keeps M s0 a4) :
    Keeps M s0 (onSyncPair a0 a1 a2 a3 a4) := by
  unfold onSyncPair
  refine onSync_keeps (sub hM rfl) ?_
  exact h0

theorem onSlotWords_keeps {M : Nat} {s0 : State} {a0 : Nat} {a1 : List (Option OsWord)} {a2 : State} (hM : 94490806103 ||| M = M) (h0 : Keeps M s0 a2) :
    Keeps M s0 (onSlotWords a0 a1 a2) := by
  unfold onSlotWords
  extract_lets +onlyGivenNames -lift x0
  clear_value x0
  refine forAll_keeps (sub hM rfl) ?_ ?_
  · intro w1 w2 k3
    split
    · refine oswErr_keeps (sub hM rfl) ?_
      exact k3
    · refine Keeps.ite ?_ ?_
      · split
        · refine onSyncPair_keeps (sub hM rfl) ?_
          exact k3
        · refine timeErr_keeps (sub hM rfl) ?_
          exact k3
      · refine Keeps.ite ?_ ?_
        · refine Keeps.ite ?_ ?_
          · exact k3
          · refine timeErr_keeps (sub hM rfl) ?_
            exact k3
        · refine onWord_keeps (sub hM rfl) ?_
          exact k3
  · exact h0

theorem onSlot_keeps {M : Nat} {s0 : State} {a0 : Nat} {a1 : List Byte} {a2 : State} (hM : 94490806103 ||| M = M) (h0 : Keeps M s0 a2) :
    Keeps M s0 (onSlot a0 a1 a2) := by
  unfold onSlot
  refine Keeps.ite ?_ ?_
  · exact h0
  · refine slotPassed_keeps (sub hM rfl) ?_
    refine Keeps.ite ?_ ?_
    · refine badSlot_keeps (sub hM rfl) ?_
      exact h0
    · refine Keeps.ite ?_ ?_
      · refine onCell_keeps (sub hM rfl) ?_
        exact h0
      · split
        · refine oswErr_keeps (sub hM rfl) ?_
          exact h0
        · refine onSlotWords_keeps (sub hM rfl) ?_
          exact h0

theorem execOsSlotReceive_keeps {M : Nat} {s0 : State} {a0 : LPort} {a1 : List Byte} {a2 : State} (hM : 94490806103 ||| M = M) (h0 : Keeps M s0 a2) :
    KeepsR M s0 (execOsSlotReceive a0 a1 a2) := by
  unfold execOsSlotReceive
  refine KeepsR.ite ?_ ?_
  · exact KeepsR.fault
  · refine KeepsR.next ?_
    refine onSlot_keeps (sub hM rfl) ?_
    exact h0

theorem execCellReceive_keeps {M : Nat} {s0 : State} {a0 : LPort} {a1 : List Byte} {a2 : State} (hM : 94490806103 ||| M = M) (h0 : Keeps M s0 a2) :
    KeepsR M s0 (execCellReceive a0 a1 a2) := by
  unfold execCellReceive
  refine KeepsR.ite ?_ ?_
  · exact KeepsR.fault
  · refine KeepsR.next ?_
    refine onSlot_keeps (sub hM rfl) ?_
    exact h0

theorem onDozeWord_keeps {M : Nat} {s0 : State} {a0 : Nat} {a1 : OsWord} {a2 : State} (hM : 94490806103 ||| M = M) (h0 : Keeps M s0 a2) :
    Keeps M s0 (onDozeWord a0 a1 a2) := by
  unfold onDozeWord
  extract_lets +onlyGivenNames -lift x0
  have g1 : ∀ v0 v1, Keeps M s0 v1 → Keeps M s0 (x0 v0 v1) := by
    intro w2 w3 k4
    refine updLp_keeps (sub hM rfl) ?_
    exact k4
  clear_value x0
  refine Keeps.ite ?_ ?_
  · refine g1 _ _ ?_
    refine Keeps.ite ?_ ?_
    · refine timeErr_keeps (sub hM rfl) ?_
      exact h0
    · exact h0
  · refine Keeps.ite ?_ ?_
    · split
      · refine onSyncPair_keeps (sub hM rfl) ?_
        refine g1 _ _ ?_
        exact h0
      · refine timeErr_keeps (sub hM rfl) ?_
        exact h0
    · refine Keeps.ite ?_ ?_
      · exact h0
      · refine onWord_keeps (sub hM rfl) ?_
        exact h0

theorem execDozeWordReceive_keeps {M : Nat} {s0 : State} {a0 : LPort} {a1 : BitVec 80} {a2 : State} (hM : 94490806103 ||| M = M) (h0 : Keeps M s0 a2) :
    KeepsR M s0 (execDozeWordReceive a0 a1 a2) := by
  unfold execDozeWordReceive
  extract_lets +onlyGivenNames -lift x0
  clear_value x0
  extract_lets +onlyGivenNames -lift x1
  have g2 : Keeps M s0 x1 := by
    refine updLp_keeps (sub hM rfl) ?_
    exact h0
  clear_value x1
  refine KeepsR.ite ?_ ?_
  · refine KeepsR.next ?_
    exact h0
  · refine KeepsR.ite ?_ ?_
    · refine KeepsR.ite ?_ ?_
      · refine KeepsR.next ?_
        exact h0
      · refine KeepsR.ite ?_ ?_
        · refine KeepsR.next ?_
          refine declareLos_keeps (sub hM rfl) ?_
          exact h0
        · refine KeepsR.next ?_
          refine updLp_keeps (sub hM rfl) ?_
          exact h0
    · split
      · refine KeepsR.next ?_
        refine oswErr_keeps (sub hM rfl) ?_
        exact g2
      · refine KeepsR.next ?_
        refine onDozeWord_keeps (sub hM rfl) ?_
        exact g2

/-! Nor. -/

theorem showBoot_keeps {M : Nat} {s0 : State} {a0 : State} (hM : 2 ||| M = M) (h0 : Keeps M s0 a0) :
    Keeps M s0 (showBoot a0) := by
  unfold showBoot
  extract_lets +onlyGivenNames -lift x0
  clear_value x0
  refine regSet_keeps (sub hM rfl) ?_
  exact h0

theorem writeBoot_keeps {M : Nat} {s0 : State} {a0 : BootRec} {a1 : State} (hM : 274877906946 ||| M = M) (h0 : Keeps M s0 a1) :
    Keeps M s0 (writeBoot a0 a1) := by
  unfold writeBoot
  extract_lets +onlyGivenNames -lift x0
  clear_value x0
  extract_lets +onlyGivenNames -lift x1
  clear_value x1
  refine showBoot_keeps (sub hM rfl) ?_
  refine norProgram_keeps (sub hM rfl) ?_
  refine norErase_keeps (sub hM rfl) ?_
  exact h0

theorem markSlot_keeps {M : Nat} {s0 : State} {a0 : Nat} {a1 : Nat} {a2 : State} (hM : 274877906946 ||| M = M) (h0 : Keeps M s0 a2) :
    Keeps M s0 (markSlot a0 a1 a2) := by
  unfold markSlot
  extract_lets +onlyGivenNames -lift x0
  clear_value x0
  refine Keeps.ite ?_ ?_
  · exact h0
  · refine writeBoot_keeps (sub hM rfl) ?_
    exact h0

theorem compact_keeps {M : Nat} {s0 : State} {a0 : State} (hM : 274877906944 ||| M = M) (h0 : Keeps M s0 a0) :
    Keeps M s0 (compact a0) := by
  unfold compact
  extract_lets +onlyGivenNames -lift x0
  clear_value x0
  extract_lets +onlyGivenNames -lift x1
  clear_value x1
  extract_lets +onlyGivenNames -lift x2
  clear_value x2
  extract_lets +onlyGivenNames -lift x3
  clear_value x3
  refine norProgram_keeps (sub hM rfl) ?_
  refine norProgram_keeps (sub hM rfl) ?_
  refine norErase_keeps (sub hM rfl) ?_
  exact h0

theorem storeSetting_keeps {M : Nat} {s0 : State} {a0 : Nat} {a1 : List Byte} {a2 : State} (hM : 412316860416 ||| M = M) (h0 : Keeps M s0 a2) :
    Keeps M s0 (storeSetting a0 a1 a2) := by
  unfold storeSetting
  extract_lets +onlyGivenNames -lift x0
  clear_value x0
  extract_lets +onlyGivenNames -lift x1
  have g2 : Keeps M s0 x1 := by
    refine Keeps.set_img (hit hM rfl) (?_)
    exact h0
  clear_value x1
  extract_lets +onlyGivenNames -lift x3
  clear_value x3
  split
  · refine compact_keeps (sub hM rfl) ?_
    exact g2
  · extract_lets +onlyGivenNames -lift x5
    clear_value x5
    refine Keeps.ite ?_ ?_
    · refine compact_keeps (sub hM rfl) ?_
      exact g2
    · refine norProgram_keeps (sub hM rfl) ?_
      exact g2

/-! Image. -/

theorem updImg_keeps {M : Nat} {s0 : State} {a0 : Img → Img} {a1 : State} (hM : 137438953474 ||| M = M) (h0 : Keeps M s0 a1) :
    Keeps M s0 (updImg a0 a1) := by
  unfold updImg
  extract_lets +onlyGivenNames -lift x0
  clear_value x0
  refine wr_keeps (sub hM rfl) ?_
  refine Keeps.set_img (hit hM rfl) (?_)
  exact h0

theorem imgErr_keeps {M : Nat} {s0 : State} {a0 : Nat} {a1 : State} (hM : 2 ||| M = M) (h0 : Keeps M s0 a1) :
    Keeps M s0 (imgErr a0 a1) := by
  unfold imgErr
  refine Keeps.ite ?_ ?_
  · exact h0
  · refine wr_keeps (sub hM rfl) ?_
    exact h0

theorem imgReply_keeps {M : Nat} {s0 : State} {a0 : Origin} {a1 : Nat} {a2 : List Byte} {a3 : State} (hM : 8589952002 ||| M = M) (h0 : Keeps M s0 a3) :
    Keeps M s0 (imgReply a0 a1 a2 a3) := by
  unfold imgReply
  refine reply_keeps (sub hM rfl) ?_
  refine imgErr_keeps (sub hM rfl) ?_
  exact h0

theorem loadNote_keeps {M : Nat} {s0 : State} {a0 : Nat} {a1 : Nat} {a2 : State} (hM : 18 ||| M = M) (h0 : Keeps M s0 a2) :
    Keeps M s0 (loadNote a0 a1 a2) := by
  unfold loadNote
  extract_lets +onlyGivenNames -lift x0
  clear_value x0
  extract_lets +onlyGivenNames -lift x1
  have g2 : Keeps M s0 x1 := by
    refine Keeps.ite ?_ ?_
    · refine wr_keeps (sub hM rfl) ?_
      refine wr_keeps (sub hM rfl) ?_
      exact h0
    · exact h0
  clear_value x1
  refine raise_keeps (sub hM rfl) ?_
  refine wr_keeps (sub hM rfl) ?_
  exact g2

theorem execImgLoadlogRead_keeps {M : Nat} {s0 : State} {a0 : EntryPoint} {a1 : State} (hM : 1057830 ||| M = M) (h0 : Keeps M s0 a1) :
    KeepsR M s0 (execImgLoadlogRead a0 a1) := by
  unfold execImgLoadlogRead
  refine access_keeps (sub hM rfl) ?_ ?_
  · intro w0 k1
    refine returned_keeps (sub hM rfl) ?_
    refine readReg_keeps (sub hM rfl) ?_
    exact k1
  · exact h0

theorem execImgQspiRead_keeps {M : Nat} {s0 : State} {a0 : EntryPoint} {a1 : State} (hM : 1057830 ||| M = M) (h0 : Keeps M s0 a1) :
    KeepsR M s0 (execImgQspiRead a0 a1) := by
  unfold execImgQspiRead
  refine access_keeps (sub hM rfl) ?_ ?_
  · intro w0 k1
    refine returned_keeps (sub hM rfl) ?_
    refine readReg_keeps (sub hM rfl) ?_
    exact k1
  · exact h0

theorem playEntry_keeps {M : Nat} {s0 : State} {a0 : Nat} {a1 : List Byte} {a2 : State} (hM : 101172313814 ||| M = M) (h0 : Keeps M s0 a2) :
    Keeps M s0 (playEntry a0 a1 a2) := by
  unfold playEntry
  extract_lets +onlyGivenNames -lift x0
  clear_value x0
  extract_lets +onlyGivenNames -lift x1
  clear_value x1
  extract_lets +onlyGivenNames -lift x2
  have g3 : Keeps2 M s0 x2 := by
    refine Keeps2.ite ?_ ?_
    · refine writeAt_keeps (sub hM rfl) ?_
      exact h0
    · split
      · rename_i y4 y5 y6 y7 y8
        refine Keeps3.elim (m := M) (s0 := s0) y8 ?_ (fun g9 => ?_)
        · refine rmwAt_keeps (sub hM rfl) ?_
          exact h0
        refine Keeps2.mk ?_
        exact g9
  clear_value x2
  refine Keeps.ite ?_ ?_
  · exact h0
  · refine Keeps.ite ?_ ?_
    · refine Keeps2.snd ?_
      exact g3
    · refine loadNote_keeps (sub hM rfl) ?_
      refine Keeps2.snd ?_
      exact g3

theorem playBoot_keeps {M : Nat} {s0 : State} {a0 : Nat} {a1 : Nat → Bool} {a2 : State} (hM : 101172313814 ||| M = M) (h0 : Keeps M s0 a2) :
    Keeps M s0 (playBoot a0 a1 a2) := by
  unfold playBoot
  refine forAll_keeps (sub hM rfl) ?_ ?_
  · intro w0 w1 k2
    refine playEntry_keeps (sub hM rfl) ?_
    exact k2
  · exact h0

theorem playActivate_keeps {M : Nat} {s0 : State} {a0 : Nat} {a1 : State} (hM : 101172313814 ||| M = M) (h0 : Keeps M s0 a1) :
    Keeps M s0 (playActivate a0 a1) := by
  unfold playActivate
  refine forAll_keeps (sub hM rfl) ?_ ?_
  · intro w0 w1 k2
    refine playEntry_keeps (sub hM rfl) ?_
    exact k2
  · exact h0

theorem showVer_keeps {M : Nat} {s0 : State} {a0 : Nat} {a1 : State} (hM : 2 ||| M = M) (h0 : Keeps M s0 a1) :
    Keeps M s0 (showVer a0 a1) := by
  unfold showVer
  extract_lets +onlyGivenNames -lift x0
  clear_value x0
  refine regSet_keeps (sub hM rfl) ?_
  exact h0

theorem setRuns_keeps {M : Nat} {s0 : State} {a0 : Nat} {a1 : Nat} {a2 : State} (hM : 137438953474 ||| M = M) (h0 : Keeps M s0 a2) :
    Keeps M s0 (setRuns a0 a1 a2) := by
  unfold setRuns
  extract_lets +onlyGivenNames -lift x0
  clear_value x0
  refine showVer_keeps (sub hM rfl) ?_
  refine Keeps.set_img (hit hM rfl) (?_)
  exact h0

theorem loadTrims_keeps {M : Nat} {s0 : State} {a0 : Nat} {a1 : Nat} {a2 : State} (hM : 2097152 ||| M = M) (h0 : Keeps M s0 a2) :
    Keeps M s0 (loadTrims a0 a1 a2) := by
  unfold loadTrims
  extract_lets +onlyGivenNames -lift x0
  clear_value x0
  split
  · exact h0
  · refine Keeps.set_trims (hit hM rfl) (?_)
    exact h0

theorem loadTables_keeps {M : Nat} {s0 : State} {a0 : Nat} {a1 : Nat} {a2 : State} (hM : 289406994 ||| M = M) (h0 : Keeps M s0 a2) :
    Keeps M s0 (loadTables a0 a1 a2) := by
  unfold loadTables
  extract_lets +onlyGivenNames -lift x0
  clear_value x0
  extract_lets +onlyGivenNames -lift x1
  clear_value x1
  extract_lets +onlyGivenNames -lift x2
  clear_value x2
  extract_lets +onlyGivenNames -lift x3
  clear_value x3
  refine Keeps.ite ?_ ?_
  · refine loadPdTables_keeps (sub hM rfl) ?_
    exact h0
  · refine Keeps.ite ?_ ?_
    · split
      · exact h0
      · refine Keeps.set_timings (hit hM rfl) (?_)
        exact h0
    · exact h0

theorem profileShaper_keeps {M : Nat} {s0 : State} {a0 : Bool} {a1 : List Byte} {a2 : State} (hM : 2066 ||| M = M) (h0 : Keeps M s0 a2) :
    Keeps M s0 (profileShaper a0 a1 a2) := by
  unfold profileShaper
  extract_lets +onlyGivenNames -lift x0
  clear_value x0
  extract_lets +onlyGivenNames -lift x1
  clear_value x1
  extract_lets +onlyGivenNames -lift x2
  clear_value x2
  refine Keeps.ite ?_ ?_
  · refine loadNote_keeps (sub hM rfl) ?_
    exact h0
  · refine Keeps.ite ?_ ?_
    · exact h0
    · split
      · rename_i y3 y4 y5 y6
        refine Keeps2.elim (m := M) (s0 := s0) y6 ?_ (fun g7 => ?_)
        · refine applyShaper_keeps (sub hM rfl) ?_
          exact h0
        refine Keeps.ite ?_ ?_
        · exact g7
        · refine loadNote_keeps (sub hM rfl) ?_
          exact h0

theorem loadShapers_keeps {M : Nat} {s0 : State} {a0 : Nat} {a1 : Bool} {a2 : Nat → Bool} {a3 : State} (hM : 2066 ||| M = M) (h0 : Keeps M s0 a3) :
    Keeps M s0 (loadShapers a0 a1 a2 a3) := by
  unfold loadShapers
  refine forAll_keeps (sub hM rfl) ?_ ?_
  · intro w0 w1 k2
    refine profileShaper_keeps (sub hM rfl) ?_
    exact k2
  · exact h0

theorem reloadShapers_keeps {M : Nat} {s0 : State} {a0 : Nat} {a1 : Nat} {a2 : State} (hM : 2066 ||| M = M) (h0 : Keeps M s0 a2) :
    Keeps M s0 (reloadShapers a0 a1 a2) := by
  unfold reloadShapers
  refine loadShapers_keeps (sub hM rfl) ?_
  refine updSched_keeps (sub hM rfl) ?_
  exact h0

theorem profilePolicer_keeps {M : Nat} {s0 : State} {a0 : List Byte} {a1 : State} (hM : 2066 ||| M = M) (h0 : Keeps M s0 a1) :
    Keeps M s0 (profilePolicer a0 a1) := by
  unfold profilePolicer
  extract_lets +onlyGivenNames -lift x0
  clear_value x0
  extract_lets +onlyGivenNames -lift x1
  clear_value x1
  extract_lets +onlyGivenNames -lift x2
  clear_value x2
  refine Keeps.ite ?_ ?_
  · exact h0
  · split
    · rename_i y3 y4 y5 y6
      refine Keeps2.elim (m := M) (s0 := s0) y6 ?_ (fun g7 => ?_)
      · refine applyPolicer_keeps (sub hM rfl) ?_
        exact h0
      refine Keeps.ite ?_ ?_
      · exact g7
      · refine loadNote_keeps (sub hM rfl) ?_
        exact h0

theorem loadPolicers_keeps {M : Nat} {s0 : State} {a0 : Nat} {a1 : State} (hM : 2066 ||| M = M) (h0 : Keeps M s0 a1) :
    Keeps M s0 (loadPolicers a0 a1) := by
  unfold loadPolicers
  refine forAll_keeps (sub hM rfl) ?_ ?_
  · intro w0 w1 k2
    refine profilePolicer_keeps (sub hM rfl) ?_
    exact k2
  · exact h0

theorem loadDie_keeps {M : Nat} {s0 : State} {a0 : Bool} {a1 : Nat} {a2 : Nat} {a3 : State} (hM : 137730463762 ||| M = M) (h0 : Keeps M s0 a3) :
    Keeps M s0 (loadDie a0 a1 a2 a3) := by
  unfold loadDie
  extract_lets +onlyGivenNames -lift x0
  have g1 : Keeps M s0 x0 := by
    refine loadTables_keeps (sub hM rfl) ?_
    refine loadTrims_keeps (sub hM rfl) ?_
    exact h0
  clear_value x0
  refine setRuns_keeps (sub hM rfl) ?_
  refine Keeps.ite ?_ ?_
  · refine loadMapper_keeps (sub hM rfl) ?_
    refine reloadShapers_keeps (sub hM rfl) ?_
    exact g1
  · refine loadShapers_keeps (sub hM rfl) ?_
    exact g1

theorem buildTable_keeps {M : Nat} {s0 : State} {a0 : Nat} {a1 : Nat} {a2 : Nat} {a3 : Nat} {a4 : List Byte} {a5 : State} (hM : 18 ||| M = M) (h0 : Keeps M s0 a5) :
    Keeps2 M s0 (buildTable a0 a1 a2 a3 a4 a5) := by
  unfold buildTable
  refine Keeps2.foldl ?_ _ ?_
  · intro w1 w2 k3
    extract_lets +onlyGivenNames -lift x4
    clear_value x4
    refine Keeps2.ite ?_ ?_
    · refine Keeps2.mk ?_
      refine loadNote_keeps (sub hM rfl) ?_
      refine Keeps2.snd ?_
      exact k3
    · refine Keeps2.mk ?_
      refine Keeps2.snd ?_
      exact k3
  · refine Keeps2.mk ?_
    exact h0

theorem installTable_keeps {M : Nat} {s0 : State} {a0 : Nat} {a1 : Tab Nat} {a2 : State} (hM : 68719615574 ||| M = M) (h0 : Keeps M s0 a2) :
    Keeps M s0 (installTable a0 a1 a2) := by
  unfold installTable
  extract_lets +onlyGivenNames -lift x0
  clear_value x0
  refine swapTable_keeps (sub hM rfl) ?_
  refine setTbl_keeps (sub hM rfl) ?_
  exact h0

theorem loadLdTables_keeps {M : Nat} {s0 : State} {a0 : Nat} {a1 : State} (hM : 68719615574 ||| M = M) (h0 : Keeps M s0 a1) :
    Keeps M s0 (loadLdTables a0 a1) := by
  unfold loadLdTables
  extract_lets +onlyGivenNames -lift x0
  have g1 : Keeps M s0 x0 := by
    unfold x0
    split
    · exact h0
    · extract_lets +onlyGivenNames -lift x3
      clear_value x3
      refine installTable_keeps (sub hM rfl) ?_
      refine updTopo_keeps (sub hM rfl) ?_
      exact h0
  clear_value x0
  extract_lets +onlyGivenNames -lift x4
  have g5 : Keeps M s0 x4 := by
    refine forAll_keeps (sub hM rfl) ?_ ?_
    · intro w6 w7 k8
      split
      · exact k8
      · split
        · rename_i y9 y10 y11 y12
          refine Keeps2.elim (m := M) (s0 := s0) y12 ?_ (fun g13 => ?_)
          · refine buildTable_keeps (sub hM rfl) ?_
            exact k8
          refine installTable_keeps (sub hM rfl) ?_
          exact g13
    · exact g1
  clear_value x4
  refine raise_keeps (sub hM rfl) ?_
  refine updFgrBusy_keeps (sub hM rfl) ?_
  exact g5

theorem loadUsb_keeps {M : Nat} {s0 : State} {a0 : Nat} {a1 : State} (hM : 67108864 ||| M = M) (h0 : Keeps M s0 a1) :
    Keeps M s0 (loadUsb a0 a1) := by
  unfold loadUsb
  split
  · exact h0
  · refine updDev_keeps (sub hM rfl) ?_
    exact h0

theorem noteBadRecords_keeps {M : Nat} {s0 : State} {a0 : Nat} {a1 : State} (hM : 18 ||| M = M) (h0 : Keeps M s0 a1) :
    Keeps M s0 (noteBadRecords a0 a1) := by
  unfold noteBadRecords
  refine forAll_keeps (sub hM rfl) ?_ ?_
  · intro w0 w1 k2
    refine loadNote_keeps (sub hM rfl) ?_
    exact k2
  · exact h0

theorem writeBlock_keeps {M : Nat} {s0 : State} {a0 : Nat} {a1 : List Byte} {a2 : State} (hM : 274877906946 ||| M = M) (h0 : Keeps M s0 a2) :
    Keeps M s0 (writeBlock a0 a1 a2) := by
  unfold writeBlock
  extract_lets +onlyGivenNames -lift x0
  clear_value x0
  extract_lets +onlyGivenNames -lift x1
  clear_value x1
  refine norProgram_keeps (sub hM rfl) ?_
  refine norErase_keeps (sub hM rfl) ?_
  refine markSlot_keeps (sub hM rfl) ?_
  exact h0

theorem execImgWrite_keeps {M : Nat} {s0 : State} {a0 : Origin} {a1 : List Byte} {a2 : State} (hM : 420906812418 ||| M = M) (h0 : Keeps M s0 a2) :
    KeepsR M s0 (execImgWrite a0 a1 a2) := by
  unfold execImgWrite
  extract_lets +onlyGivenNames -lift x0
  clear_value x0
  extract_lets +onlyGivenNames -lift x1
  clear_value x1
  extract_lets +onlyGivenNames -lift x2
  clear_value x2
  refine commandV_keeps (sub hM rfl) ?_ ?_
  · intro w3 k4
    refine Keeps.ite ?_ ?_
    · refine imgReply_keeps (sub hM rfl) ?_
      exact k4
    · refine Keeps.ite ?_ ?_
      · refine imgReply_keeps (sub hM rfl) ?_
        exact k4
      · refine Keeps.ite ?_ ?_
        · refine imgReply_keeps (sub hM rfl) ?_
          exact k4
        · refine Keeps.ite ?_ ?_
          · refine updImg_keeps (sub hM rfl) ?_
            exact k4
          · refine Keeps.ite ?_ ?_
            · refine imgReply_keeps (sub hM rfl) ?_
              refine writeBlock_keeps (sub hM rfl) ?_
              exact k4
            · refine imgReply_keeps (sub hM rfl) ?_
              exact k4
  · exact h0

theorem execEp4BlockReceive_keeps {M : Nat} {s0 : State} {a0 : List Byte} {a1 : State} (hM : 420906812418 ||| M = M) (h0 : Keeps M s0 a1) :
    KeepsR M s0 (execEp4BlockReceive a0 a1) := by
  unfold execEp4BlockReceive
  split
  · refine KeepsR.next ?_
    exact h0
  · extract_lets +onlyGivenNames -lift x1
    have g2 : Keeps M s0 x1 := by
      refine writeBlock_keeps (sub hM rfl) ?_
      exact h0
    clear_value x1
    refine KeepsR.ite ?_ ?_
    · refine KeepsR.next ?_
      exact h0
    · refine KeepsR.ite ?_ ?_
      · refine KeepsR.ite ?_ ?_
        · refine KeepsR.next ?_
          refine imgReply_keeps (sub hM rfl) ?_
          refine updImg_keeps (sub hM rfl) ?_
          exact g2
        · refine KeepsR.next ?_
          refine updImg_keeps (sub hM rfl) ?_
          exact g2
      · refine KeepsR.next ?_
        refine imgReply_keeps (sub hM rfl) ?_
        refine updImg_keeps (sub hM rfl) ?_
        exact h0

theorem flushPatch_keeps {M : Nat} {s0 : State} {a0 : Nat} {a1 : Patch} {a2 : State} (hM : 274877906946 ||| M = M) (h0 : Keeps M s0 a2) :
    Keeps3 M s0 (flushPatch a0 a1 a2) := by
  induction a0 generalizing a1 a2 with
  | zero =>
    unfold flushPatch
    refine Keeps3.mk ?_
    refine Keeps2.mk ?_
    exact h0
  | succ n ih =>
    unfold flushPatch
    extract_lets +onlyGivenNames -lift x0
    clear_value x0
    refine Keeps3.ite ?_ ?_
    · refine Keeps3.mk ?_
      refine Keeps2.mk ?_
      exact h0
    · refine Keeps3.ite ?_ ?_
      · apply ih
        refine writeBlock_keeps (sub hM rfl) ?_
        exact h0
      · refine Keeps3.mk ?_
        refine Keeps2.mk ?_
        exact h0

theorem putPatch_keeps {M : Nat} {s0 : State} {a0 : List Byte} {a1 : Patch} {a2 : State} (hM : 274877906946 ||| M = M) (h0 : Keeps M s0 a2) :
    Keeps3 M s0 (putPatch a0 a1 a2) := by
  unfold putPatch
  refine Keeps3.ite ?_ ?_
  · refine Keeps3.mk ?_
    refine Keeps2.mk ?_
    exact h0
  · refine flushPatch_keeps (sub hM rfl) ?_
    exact h0

theorem patchRecords_keeps {M : Nat} {s0 : State} {a0 : Nat} {a1 : List Byte} {a2 : Patch} {a3 : State} (hM : 274877906946 ||| M = M) (h0 : Keeps M s0 a3) :
    Keeps3 M s0 (patchRecords a0 a1 a2 a3) := by
  induction a0 generalizing a1 a2 a3 with
  | zero => cases a1 <;> exact Keeps3.mk (Keeps2.mk h0)
  | succ n ih =>
    cases a1 with
    | nil => exact Keeps3.mk (Keeps2.mk h0)
    | cons b l =>
      unfold patchRecords
      extract_lets +onlyGivenNames -lift x0
      clear_value x0
      extract_lets +onlyGivenNames -lift x1
      clear_value x1
      extract_lets +onlyGivenNames -lift x2
      clear_value x2
      extract_lets +onlyGivenNames -lift x3
      clear_value x3
      refine Keeps3.ite (Keeps3.mk (Keeps2.mk h0)) ?_
      split
      · exact Keeps3.mk (Keeps2.mk h0)
      · split
        rename_i st p s e
        refine Keeps3.elim (m := M) (s0 := s0) e (putPatch_keeps (sub hM rfl) h0) (fun g1 => Keeps3.ite ?_ ?_)
        · exact ih g1
        · exact Keeps3.mk (Keeps2.mk g1)

theorem runPatch_keeps {M : Nat} {s0 : State} {a0 : Bool} {a1 : Bool} {a2 : List Byte} {a3 : State} (hM : 274877906946 ||| M = M) (h0 : Keeps M s0 a3) :
    Keeps4 M s0 (runPatch a0 a1 a2 a3) := by
  unfold runPatch
  extract_lets +onlyGivenNames -lift x0
  clear_value x0
  extract_lets +onlyGivenNames -lift x1
  have g2 : Keeps M s0 x1 := by
    refine Keeps.ite ?_ ?_
    · refine markSlot_keeps (sub hM rfl) ?_
      exact h0
    · exact h0
  clear_value x1
  extract_lets +onlyGivenNames -lift x3
  clear_value x3
  split
  · refine Keeps4.mk ?_
    refine Keeps3.mk ?_
    refine Keeps2.mk ?_
    exact h0
  · split
    · rename_i y6 y7 y8 y9 y10
      refine Keeps3.elim (m := M) (s0 := s0) y10 ?_ (fun g11 => ?_)
      · refine patchRecords_keeps (sub hM rfl) ?_
        exact g2
      extract_lets +onlyGivenNames -lift x12
      clear_value x12
      refine Keeps4.ite ?_ ?_
      · refine Keeps4.mk ?_
        refine Keeps3.mk ?_
        refine Keeps2.mk ?_
        refine markSlot_keeps (sub hM rfl) ?_
        exact g11
      · refine Keeps4.ite ?_ ?_
        · refine Keeps4.mk ?_
          refine Keeps3.mk ?_
          refine Keeps2.mk ?_
          exact g11
        · refine Keeps4.ite ?_ ?_
          · refine Keeps4.ite ?_ ?_
            · refine Keeps4.mk ?_
              refine Keeps3.mk ?_
              refine Keeps2.mk ?_
              refine wr_keeps (sub hM rfl) ?_
              exact g11
            · refine Keeps4.mk ?_
              refine Keeps3.mk ?_
              refine Keeps2.mk ?_
              exact g11
          · refine Keeps4.mk ?_
            refine Keeps3.mk ?_
            refine Keeps2.mk ?_
            exact g11

theorem execImgDelta_keeps {M : Nat} {s0 : State} {a0 : Origin} {a1 : List Byte} {a2 : State} (hM : 420906812434 ||| M = M) (h0 : Keeps M s0 a2) :
    KeepsR M s0 (execImgDelta a0 a1 a2) := by
  unfold execImgDelta
  extract_lets +onlyGivenNames -lift x0
  clear_value x0
  extract_lets +onlyGivenNames -lift x1
  clear_value x1
  extract_lets +onlyGivenNames -lift x2
  clear_value x2
  extract_lets +onlyGivenNames -lift x3
  clear_value x3
  refine commandV_keeps (sub hM rfl) ?_ ?_
  · intro w5 k6
    extract_lets +onlyGivenNames -lift x7
    clear_value x7
    refine Keeps.ite ?_ ?_
    · refine imgReply_keeps (sub hM rfl) ?_
      exact k6
    · refine Keeps.ite ?_ ?_
      · refine imgReply_keeps (sub hM rfl) ?_
        exact k6
      · refine Keeps.ite ?_ ?_
        · refine imgReply_keeps (sub hM rfl) ?_
          exact k6
        · refine Keeps.ite ?_ ?_
          · exact k6
          · split
            · rename_i y13 y14 y15 y16 y17 y18
              refine Keeps4.elim (m := M) (s0 := s0) y18 ?_ (fun g19 => ?_)
              · refine runPatch_keeps (sub hM rfl) ?_
                exact k6
              extract_lets +onlyGivenNames -lift x20
              have g21 : Keeps M s0 x20 := by
                refine Keeps.ite ?_ ?_
                · refine raise_keeps (sub hM rfl) ?_
                  exact g19
                · exact g19
              clear_value x20
              refine imgReply_keeps (sub hM rfl) ?_
              refine updImg_keeps (sub hM rfl) ?_
              exact g21
  · exact h0

theorem execStageWrite_keeps {M : Nat} {s0 : State} {a0 : Origin} {a1 : List Byte} {a2 : State} (hM : 8589984770 ||| M = M) (h0 : Keeps M s0 a2) :
    KeepsR M s0 (execStageWrite a0 a1 a2) := by
  unfold execStageWrite
  extract_lets +onlyGivenNames -lift x0
  clear_value x0
  extract_lets +onlyGivenNames -lift x1
  clear_value x1
  refine commandV_keeps (sub hM rfl) ?_ ?_
  · intro w2 k3
    refine Keeps.ite ?_ ?_
    · refine imgReply_keeps (sub hM rfl) ?_
      exact k3
    · refine Keeps.ite ?_ ?_
      · refine imgReply_keeps (sub hM rfl) ?_
        exact k3
      · refine Keeps.ite ?_ ?_
        · refine imgReply_keeps (sub hM rfl) ?_
          refine wr_keeps (sub hM rfl) ?_
          exact k3
        · refine Keeps.ite ?_ ?_
          · exact k3
          · refine imgReply_keeps (sub hM rfl) ?_
            refine wr_keeps (sub hM rfl) ?_
            refine deepWrites_keeps (sub hM rfl) ?_
            exact k3
  · exact h0

theorem execImgVerify_keeps {M : Nat} {s0 : State} {a0 : Origin} {a1 : List Byte} {a2 : State} (hM : 420906812418 ||| M = M) (h0 : Keeps M s0 a2) :
    KeepsR M s0 (execImgVerify a0 a1 a2) := by
  unfold execImgVerify
  extract_lets +onlyGivenNames -lift x0
  clear_value x0
  refine command_keeps (sub hM rfl) ?_ ?_
  · intro w2 k3
    extract_lets +onlyGivenNames -lift x4
    have g5 : Keeps M s0 x4 := by
      refine Keeps.ite ?_ ?_
      · refine markSlot_keeps (sub hM rfl) ?_
        exact k3
      · exact k3
    clear_value x4
    refine Keeps.ite ?_ ?_
    · refine imgReply_keeps (sub hM rfl) ?_
      exact k3
    · refine Keeps.ite ?_ ?_
      · refine imgReply_keeps (sub hM rfl) ?_
        exact k3
      · refine updImg_keeps (sub hM rfl) ?_
        exact g5
  · exact h0

theorem execImgVerifyDone_keeps {M : Nat} {s0 : State} {a0 : State} (hM : 420906812434 ||| M = M) (h0 : Keeps M s0 a0) :
    KeepsR M s0 (execImgVerifyDone a0) := by
  unfold execImgVerifyDone
  split
  · refine KeepsR.next ?_
    exact h0
  · extract_lets +onlyGivenNames -lift x1
    clear_value x1
    extract_lets +onlyGivenNames -lift x2
    have g3 : Keeps M s0 x2 := by
      refine Keeps.ite ?_ ?_
      · refine loadNote_keeps (sub hM rfl) ?_
        exact h0
      · exact h0
    clear_value x2
    extract_lets +onlyGivenNames -lift x4
    clear_value x4
    extract_lets +onlyGivenNames -lift x5
    have g6 : Keeps M s0 x5 := by
      refine markSlot_keeps (sub hM rfl) ?_
      refine updImg_keeps (sub hM rfl) ?_
      exact g3
    clear_value x5
    refine KeepsR.next ?_
    refine imgReply_keeps (sub hM rfl) ?_
    refine raise_keeps (sub hM rfl) ?_
    exact g6

theorem execImgInfo_keeps {M : Nat} {s0 : State} {a0 : Origin} {a1 : List Byte} {a2 : State} (hM : 8589952002 ||| M = M) (h0 : Keeps M s0 a2) :
    KeepsR M s0 (execImgInfo a0 a1 a2) := by
  unfold execImgInfo
  extract_lets +onlyGivenNames -lift x0
  clear_value x0
  refine command_keeps (sub hM rfl) ?_ ?_
  · intro w1 k2
    refine Keeps.ite ?_ ?_
    · refine imgReply_keeps (sub hM rfl) ?_
      exact k2
    · split
      · refine imgReply_keeps (sub hM rfl) ?_
        exact k2
      · refine imgReply_keeps (sub hM rfl) ?_
        exact k2
  · exact h0

theorem lockImage_keeps {M : Nat} {s0 : State} {a0 : State} (hM : 2 ||| M = M) (h0 : Keeps M s0 a0) :
    Keeps M s0 (lockImage a0) := by
  unfold lockImage
  refine wr_keeps (sub hM rfl) ?_
  exact h0

theorem execImgLock_keeps {M : Nat} {s0 : State} {a0 : Origin} {a1 : List Byte} {a2 : State} (hM : 8589952002 ||| M = M) (h0 : Keeps M s0 a2) :
    KeepsR M s0 (execImgLock a0 a1 a2) := by
  unfold execImgLock
  refine command_keeps (sub hM rfl) ?_ ?_
  · intro w0 k1
    refine imgReply_keeps (sub hM rfl) ?_
    refine lockImage_keeps (sub hM rfl) ?_
    exact k1
  · exact h0

theorem execSetRead_keeps {M : Nat} {s0 : State} {a0 : Origin} {a1 : List Byte} {a2 : State} (hM : 8589952002 ||| M = M) (h0 : Keeps M s0 a2) :
    KeepsR M s0 (execSetRead a0 a1 a2) := by
  unfold execSetRead
  extract_lets +onlyGivenNames -lift x0
  clear_value x0
  refine command_keeps (sub hM rfl) ?_ ?_
  · intro w2 k3
    extract_lets +onlyGivenNames -lift x4
    clear_value x4
    refine Keeps.ite ?_ ?_
    · refine imgReply_keeps (sub hM rfl) ?_
      exact k3
    · refine Keeps.ite ?_ ?_
      · refine imgReply_keeps (sub hM rfl) ?_
        exact k3
      · refine imgReply_keeps (sub hM rfl) ?_
        exact k3
  · exact h0

theorem execSetWrite_keeps {M : Nat} {s0 : State} {a0 : Origin} {a1 : List Byte} {a2 : State} (hM : 146028905474 ||| M = M) (h0 : Keeps M s0 a2) :
    KeepsR M s0 (execSetWrite a0 a1 a2) := by
  unfold execSetWrite
  extract_lets +onlyGivenNames -lift x0
  clear_value x0
  extract_lets +onlyGivenNames -lift x1
  clear_value x1
  refine commandV_keeps (sub hM rfl) ?_ ?_
  · intro w2 k3
    refine Keeps.ite ?_ ?_
    · refine imgReply_keeps (sub hM rfl) ?_
      exact k3
    · refine Keeps.ite ?_ ?_
      · refine imgReply_keeps (sub hM rfl) ?_
        exact k3
      · refine updImg_keeps (sub hM rfl) ?_
        exact k3
  · exact h0

theorem ownerKey1_keeps {M : Nat} {s0 : State} {a0 : Nat} {a1 : Nat} {a2 : List Byte} {a3 : State} (hM : 524306 ||| M = M) (h0 : Keeps M s0 a3) :
    Keeps M s0 (ownerKey1 a0 a1 a2 a3) := by
  unfold ownerKey1
  extract_lets +onlyGivenNames -lift x0
  clear_value x0
  extract_lets +onlyGivenNames -lift x1
  clear_value x1
  extract_lets +onlyGivenNames -lift x2
  split
  · split
    · rename_i h
      exact Keeps.set_otp (hit hM rfl) (OtpForward.program h) h0
    · exact loadNote_keeps (sub hM rfl) h0
  · refine Keeps.ite ?_ ?_
    · exact loadNote_keeps (sub hM rfl) h0
    · exact Keeps.set_otp (hit hM rfl) OtpForward.revoke h0
  · exact Keeps.set_otp (hit hM rfl) OtpForward.own h0

theorem applyOwnerKeys_keeps {M : Nat} {s0 : State} {a0 : Nat} {a1 : State} (hM : 524306 ||| M = M) (h0 : Keeps M s0 a1) :
    Keeps M s0 (applyOwnerKeys a0 a1) := by
  unfold applyOwnerKeys
  extract_lets +onlyGivenNames -lift x0
  clear_value x0
  extract_lets +onlyGivenNames -lift x1
  clear_value x1
  refine Keeps.ite ?_ ?_
  · refine forAll_keeps (sub hM rfl) ?_ ?_
    · intro w2 w3 k4
      refine ownerKey1_keeps (sub hM rfl) ?_
      exact k4
    · exact h0
  · exact h0

theorem commitTrial_keeps {M : Nat} {s0 : State} {a0 : Nat} {a1 : State} (hM : 412317384722 ||| M = M) (h0 : Keeps M s0 a1) :
    Keeps M s0 (commitTrial a0 a1) := by
  unfold commitTrial
  extract_lets +onlyGivenNames -lift x0
  clear_value x0
  extract_lets +onlyGivenNames -lift x1
  have g2 : Keeps M s0 x1 := by
    refine writeBoot_keeps (sub hM rfl) ?_
    exact h0
  clear_value x1
  extract_lets +onlyGivenNames -lift x3
  have g4 : Keeps M s0 x3 := by
    refine compact_keeps (sub hM rfl) ?_
    exact g2
  clear_value x3
  extract_lets +onlyGivenNames -lift x5
  clear_value x5
  extract_lets +onlyGivenNames -lift x6
  have g7 : Keeps M s0 x6 := by
    refine Keeps.ite ?_ ?_
    · refine Keeps.set_img (hit hM rfl) (?_)
      exact g4
    · exact g2
  clear_value x6
  extract_lets +onlyGivenNames -lift x8
  have g9 : Keeps M s0 x8 := by
    refine forAll_keeps (sub hM rfl) ?_ ?_
    · intro w10 w11 k12
      refine setRuns_keeps (sub hM rfl) ?_
      exact k12
    · refine applyOwnerKeys_keeps (sub hM rfl) ?_
      exact g7
  clear_value x8
  refine raise_keeps (sub hM rfl) ?_
  refine wr_keeps (sub hM rfl) ?_
  refine updImg_keeps (sub hM rfl) ?_
  exact g9

theorem execNorWriteDone_keeps {M : Nat} {s0 : State} {a0 : Bool} {a1 : State} (hM : 420907336722 ||| M = M) (h0 : Keeps M s0 a1) :
    KeepsR M s0 (execNorWriteDone a0 a1) := by
  unfold execNorWriteDone
  split
  · refine KeepsR.next ?_
    exact h0
  · extract_lets +onlyGivenNames -lift x1
    have g2 : Keeps M s0 x1 := by
      refine updImg_keeps (sub hM rfl) ?_
      exact h0
    clear_value x1
    refine KeepsR.ite ?_ ?_
    · refine KeepsR.next ?_
      split
      · refine imgReply_keeps (sub hM rfl) ?_
        refine storeSetting_keeps (sub hM rfl) ?_
        exact g2
      · split
        · refine imgReply_keeps (sub hM rfl) ?_
          refine commitTrial_keeps (sub hM rfl) ?_
          exact g2
        · refine imgReply_keeps (sub hM rfl) ?_
          exact g2
    · refine KeepsR.next ?_
      refine wr_keeps (sub hM rfl) ?_
      exact h0

end Sys2Proof.Machine
end

