-- ==== Sys2Proof/Laws/KeepsParts.lean ====
section
/-! SUPPORT. `Keeps` for the operations and commands of service domains, activation, resets and diagnosis. A mask is the sum of 2^i over the fields of State that may
change, numbered as `Keeps` numbers them. -/
namespace Sys2Proof.Machine

-- One theorem at a time, so that the package as one text compiles within its memory limit.
set_option Elab.async false

/-! Domains. -/

theorem startQuiesce_keeps {M : Nat} {s0 : State} {a0 : Nat} {a1 : Bool} {a2 : Option Origin} {a3 : State} (hM : 37920726 ||| M = M) (h0 : Keeps M s0 a3) :
    Keeps M s0 (startQuiesce a0 a1 a2 a3) := by
  unfold startQuiesce
  extract_lets +onlyGivenNames -lift x0
  have g1 : Keeps M s0 x0 := by
    refine setDom_keeps (sub hM rfl) ?_
    exact h0
  clear_value x0
  refine Keeps.ite ?_ ?_
  · refine ringLeave_keeps (sub hM rfl) ?_
    exact g1
  · refine Keeps.ite ?_ ?_
    · refine tvLeft_keeps (sub hM rfl) ?_
      exact g1
    · exact g1

theorem domReply_keeps {M : Nat} {s0 : State} {a0 : Nat} {a1 : Nat} {a2 : State} (hM : 8589952256 ||| M = M) (h0 : Keeps M s0 a2) :
    Keeps M s0 (domReply a0 a1 a2) := by
  unfold domReply
  extract_lets +onlyGivenNames -lift x0
  clear_value x0
  split
  · refine reply_keeps (sub hM rfl) ?_
    refine setDom_keeps (sub hM rfl) ?_
    exact h0
  · exact h0

theorem enterQuiesced_keeps {M : Nat} {s0 : State} {a0 : Nat} {a1 : State} (hM : 8623685014 ||| M = M) (h0 : Keeps M s0 a1) :
    Keeps M s0 (enterQuiesced a0 a1) := by
  unfold enterQuiesced
  extract_lets +onlyGivenNames -lift x0
  clear_value x0
  extract_lets +onlyGivenNames -lift x1
  have g2 : Keeps M s0 x1 := by
    refine setDom_keeps (sub hM rfl) ?_
    exact h0
  clear_value x1
  extract_lets +onlyGivenNames -lift x3
  have g4 : Keeps M s0 x3 := by
    unfold x3
    split
    · refine proxyQuiesced_keeps (sub hM rfl) ?_
      exact g2
    · refine proxyQuiesced_keeps (sub hM rfl) ?_
      exact g2
    · refine barGone_keeps (sub hM rfl) ?_
      exact g2
    · exact g2
  clear_value x3
  refine domReply_keeps (sub hM rfl) ?_
  exact g4

theorem dropDrain_keeps {M : Nat} {s0 : State} {a0 : Nat} {a1 : Nat} {a2 : State} (hM : 134740 ||| M = M) (h0 : Keeps M s0 a2) :
    Keeps M s0 (dropDrain a0 a1 a2) := by
  unfold dropDrain
  extract_lets +onlyGivenNames -lift x0
  clear_value x0
  extract_lets +onlyGivenNames -lift x1
  have g2 : Keeps M s0 x1 := by
    refine discardAll_keeps (sub hM rfl) ?_
    refine setOutQ_keeps (sub hM rfl) ?_
    exact h0
  clear_value x1
  extract_lets +onlyGivenNames -lift x3
  clear_value x3
  extract_lets +onlyGivenNames -lift x4
  clear_value x4
  extract_lets +onlyGivenNames -lift x5
  have g6 : Keeps M s0 x5 := by
    refine discardAll_keeps (sub hM rfl) ?_
    refine setAhead_keeps (sub hM rfl) ?_
    exact g2
  clear_value x5
  extract_lets +onlyGivenNames -lift x7
  clear_value x7
  extract_lets +onlyGivenNames -lift x8
  have g9 : Keeps M s0 x8 := by
    refine discardAll_keeps (sub hM rfl) ?_
    refine takeSpill_keeps (sub hM rfl) ?_
    exact g6
  clear_value x8
  extract_lets +onlyGivenNames -lift x10
  have g11 : Keeps2 M s0 x10 := by
    refine Keeps2.foldl ?_ _ ?_
    · intro w13 w14 k15
      extract_lets +onlyGivenNames -lift x16
      clear_value x16
      extract_lets +onlyGivenNames -lift x17
      clear_value x17
      refine Keeps2.mk ?_
      refine discardAll_keeps (sub hM rfl) ?_
      refine setVoq_keeps (sub hM rfl) ?_
      refine Keeps2.snd ?_
      exact k15
    · refine Keeps2.mk ?_
      exact g9
  clear_value x10
  refine leaveIfEmpty_keeps (sub hM rfl) ?_
  refine Keeps2.snd ?_
  exact g11

theorem dropLine_keeps {M : Nat} {s0 : State} {a0 : Nat} {a1 : State} (hM : 132692 ||| M = M) (h0 : Keeps M s0 a1) :
    Keeps M s0 (dropLine a0 a1) := by
  unfold dropLine
  extract_lets +onlyGivenNames -lift x0
  clear_value x0
  extract_lets +onlyGivenNames -lift x1
  have g2 : Keeps M s0 x1 := by
    refine forAll_keeps (sub hM rfl) ?_ ?_
    · intro w4 w5 k6
      extract_lets +onlyGivenNames -lift x7
      clear_value x7
      refine discardCell_keeps (sub hM rfl) ?_
      exact k6
    · exact h0
  clear_value x1
  extract_lets +onlyGivenNames -lift x8
  have g9 : Keeps M s0 x8 := by
    refine forAll_keeps (sub hM rfl) ?_ ?_
    · intro w10 w11 k12
      refine discardCell_keeps (sub hM rfl) ?_
      exact k12
    · refine updLp_keeps (sub hM rfl) ?_
      exact g2
  clear_value x8
  refine updTx_keeps (sub hM rfl) ?_
  exact g9

theorem forceQuiesced_keeps {M : Nat} {s0 : State} {a0 : Nat} {a1 : State} (hM : 8757903318 ||| M = M) (h0 : Keeps M s0 a1) :
    Keeps M s0 (forceQuiesced a0 a1) := by
  unfold forceQuiesced
  extract_lets +onlyGivenNames -lift x0
  have g1 : Keeps M s0 x0 := by
    refine Keeps.ite ?_ ?_
    · refine dropLine_keeps (sub hM rfl) ?_
      exact h0
    · refine Keeps.ite ?_ ?_
      · refine dropTolger_keeps (sub hM rfl) ?_
        exact h0
      · exact h0
  clear_value x0
  extract_lets +onlyGivenNames -lift x2
  have g3 : Keeps M s0 x2 := by
    refine forAll_keeps (sub hM rfl) ?_ ?_
    · intro w4 w5 k6
      refine dropDrain_keeps (sub hM rfl) ?_
      exact k6
    · exact g1
  clear_value x2
  extract_lets +onlyGivenNames -lift x7
  have g8 : Keeps M s0 x7 := by
    refine Keeps.ite ?_ ?_
    · refine headOff_keeps (sub hM rfl) ?_
      refine headOff_keeps (sub hM rfl) ?_
      exact g3
    · exact g3
  clear_value x7
  refine enterQuiesced_keeps (sub hM rfl) ?_
  refine Keeps.ite ?_ ?_
  · refine brgAbort_keeps (sub hM rfl) ?_
    exact g8
  · exact g8

theorem resetLine_keeps {M : Nat} {s0 : State} {a0 : Nat} {a1 : State} (hM : 394838 ||| M = M) (h0 : Keeps M s0 a1) :
    Keeps M s0 (resetLine a0 a1) := by
  unfold resetLine
  extract_lets +onlyGivenNames -lift x0
  clear_value x0
  extract_lets +onlyGivenNames -lift x1
  have g2 : Keeps M s0 x1 := by
    refine ringLeave_keeps (sub hM rfl) ?_
    refine Keeps.ite ?_ ?_
    · refine linkCleanup_keeps (sub hM rfl) ?_
      exact h0
    · exact h0
  clear_value x1
  extract_lets +onlyGivenNames -lift x3
  clear_value x3
  extract_lets +onlyGivenNames -lift x4
  clear_value x4
  extract_lets +onlyGivenNames -lift x5
  have g6 : Keeps M s0 x5 := by
    refine setLp_keeps (sub hM rfl) ?_
    exact g2
  clear_value x5
  extract_lets +onlyGivenNames -lift x7
  have g8 : Keeps M s0 x7 := by
    refine regSet_keeps (sub hM rfl) ?_
    exact g6
  clear_value x7
  refine Keeps.ite ?_ ?_
  · refine enterHoldFast_keeps (sub hM rfl) ?_
    exact g8
  · exact g8

theorem blockReset_keeps {M : Nat} {s0 : State} {a0 : Nat} {a1 : State} (hM : 14 ||| M = M) (h0 : Keeps M s0 a1) :
    Keeps M s0 (blockReset a0 a1) := by
  unfold blockReset
  exact
    { h0 with
      same := fun i b => by refine Eq.trans ?_ (h0.same i b); unfold State.part; split <;> first | exact hit hM rfl b | rfl
      wf := fun w => let q := h0.wf w; ⟨Tab.wf_keep _ (fun k => !(addrSlot (k % 0x100000000) == 0 && addrBlk (k % 0x100000000) == a0)) q.regs, Tab.wf_keep _ (fun k => !(addrSlot (k % 0x100000000) == 0 && addrBlk (k % 0x100000000) == a0)) q.ctrs, q.srcs, q.deep, q.nor⟩ }

theorem resetDeep_keeps {M : Nat} {s0 : State} {a0 : State} (hM : 137441050638 ||| M = M) (h0 : Keeps M s0 a0) :
    Keeps M s0 (resetDeep a0) := by
  unfold resetDeep
  extract_lets +onlyGivenNames -lift x0
  have g1 : Keeps M s0 x0 := by
    refine blockReset_keeps (sub hM rfl) ?_
    exact h0
  clear_value x0
  split
  · exact g1
  · refine setRuns_keeps (sub hM rfl) ?_
    refine loadTrims_keeps (sub hM rfl) ?_
    exact g1

theorem resetDie_keeps {M : Nat} {s0 : State} {a0 : Nat} {a1 : State} (hM : 16028728478 ||| M = M) (h0 : Keeps M s0 a1) :
    Keeps M s0 (resetDie a0 a1) := by
  unfold resetDie
  refine linkDown_keeps (sub hM rfl) ?_
  refine dieReset_keeps (sub hM rfl) ?_
  refine Keeps.ite ?_ ?_
  · refine rootLost_keeps (sub hM rfl) ?_
    refine pceDown_keeps (sub hM rfl) ?_
    exact h0
  · exact h0

theorem startReset_keeps {M : Nat} {s0 : State} {a0 : Nat} {a1 : Option Origin} {a2 : State} (hM : 222187421663 ||| M = M) (h0 : Keeps M s0 a2) :
    Keeps M s0 (startReset a0 a1 a2) := by
  unfold startReset
  extract_lets +onlyGivenNames -lift x0
  have g1 : Keeps M s0 x0 := by
    refine forAll_keeps (sub hM rfl) ?_ ?_
    · intro w2 w3 k4
      refine abortTest_keeps (sub hM rfl) ?_
      exact k4
    · exact h0
  clear_value x0
  extract_lets +onlyGivenNames -lift x5
  have g6 : Keeps M s0 x5 := by
    refine Keeps.ite ?_ ?_
    · refine resetLine_keeps (sub hM rfl) ?_
      exact g1
    · refine Keeps.ite ?_ ?_
      · refine resetDeep_keeps (sub hM rfl) ?_
        exact g1
      · refine resetDie_keeps (sub hM rfl) ?_
        exact g1
  clear_value x5
  refine setDom_keeps (sub hM rfl) ?_
  exact g6

theorem returnLine_keeps {M : Nat} {s0 : State} {a0 : Nat} {a1 : State} (hM : 68719871318 ||| M = M) (h0 : Keeps M s0 a1) :
    Keeps M s0 (returnLine a0 a1) := by
  unfold returnLine
  refine withParent_keeps (sub hM rfl) ?_ ?_
  · intro w1 k2
    extract_lets +onlyGivenNames -lift x3
    have g4 : Keeps M s0 x3 := by
      refine Keeps.ite ?_ ?_
      · refine linkCleanup_keeps (sub hM rfl) ?_
        exact k2
      · exact k2
    clear_value x3
    extract_lets +onlyGivenNames -lift x5
    clear_value x5
    extract_lets +onlyGivenNames -lift x6
    have g7 : Keeps M s0 x6 := by
      refine setDom_keeps (sub hM rfl) ?_
      exact g4
    clear_value x6
    refine Keeps.ite ?_ ?_
    · refine startTraining_keeps (sub hM rfl) ?_
      exact g7
    · refine applyPools_keeps (sub hM rfl) ?_
      refine setDom_keeps (sub hM rfl) ?_
      exact g7
  · exact h0

theorem startReturn_keeps {M : Nat} {s0 : State} {a0 : Nat} {a1 : Option Origin} {a2 : State} (hM : 386 ||| M = M) (h0 : Keeps M s0 a2) :
    Keeps M s0 (startReturn a0 a1 a2) := by
  unfold startReturn
  extract_lets +onlyGivenNames -lift x0
  clear_value x0
  extract_lets +onlyGivenNames -lift x1
  have g2 : Keeps M s0 x1 := by
    refine setDom_keeps (sub hM rfl) ?_
    exact h0
  clear_value x1
  refine Keeps.ite ?_ ?_
  · exact g2
  · refine startLink_keeps (sub hM rfl) ?_
    exact g2

theorem replayDie_keeps {M : Nat} {s0 : State} {a0 : Nat} {a1 : Nat} {a2 : State} (hM : 101172313814 ||| M = M) (h0 : Keeps M s0 a2) :
    Keeps M s0 (replayDie a0 a1 a2) := by
  unfold replayDie
  refine playBoot_keeps (sub hM rfl) ?_
  exact h0

theorem dieReturned_keeps {M : Nat} {s0 : State} {a0 : Nat} {a1 : State} (hM : 2286034070 ||| M = M) (h0 : Keeps M s0 a1) :
    Keeps M s0 (dieReturned a0 a1) := by
  unfold dieReturned
  split
  · refine tuReturned_keeps (sub hM rfl) ?_
    exact h0
  · refine tuReturned_keeps (sub hM rfl) ?_
    exact h0
  · refine ethFlush_keeps (sub hM rfl) ?_
    exact h0
  · refine ethFlush_keeps (sub hM rfl) ?_
    exact h0
  · refine headsReturn_keeps (sub hM rfl) ?_
    exact h0
  · exact h0

theorem enterService_keeps {M : Nat} {s0 : State} {a0 : Nat} {a1 : State} (hM : 10875985302 ||| M = M) (h0 : Keeps M s0 a1) :
    Keeps M s0 (enterService a0 a1) := by
  unfold enterService
  extract_lets +onlyGivenNames -lift x0
  have g1 : Keeps M s0 x0 := by
    refine domReply_keeps (sub hM rfl) ?_
    exact h0
  clear_value x0
  extract_lets +onlyGivenNames -lift x2
  have g3 : Keeps M s0 x2 := by
    refine setDom_keeps (sub hM rfl) ?_
    exact g1
  clear_value x2
  refine Keeps.ite ?_ ?_
  · refine dieReturned_keeps (sub hM rfl) ?_
    exact g3
  · exact g3

theorem execReturningComplete_keeps {M : Nat} {s0 : State} {a0 : Nat} {a1 : State} (hM : 238898577366 ||| M = M) (h0 : Keeps M s0 a1) :
    KeepsR M s0 (execReturningComplete a0 a1) := by
  unfold execReturningComplete
  extract_lets +onlyGivenNames -lift x0
  clear_value x0
  extract_lets +onlyGivenNames -lift x1
  clear_value x1
  refine KeepsR.ite ?_ ?_
  · refine KeepsR.next ?_
    exact h0
  · refine KeepsR.ite ?_ ?_
    · refine KeepsR.next ?_
      refine enterService_keeps (sub hM rfl) ?_
      split
      · refine Keeps.ite ?_ ?_
        · refine playBoot_keeps (sub hM rfl) ?_
          exact h0
        · exact h0
      · exact h0
    · refine KeepsR.ite ?_ ?_
      · refine KeepsR.next ?_
        refine enterService_keeps (sub hM rfl) ?_
        split
        · exact h0
        · extract_lets +onlyGivenNames -lift x8
          have g9 : Keeps M s0 x8 := by
            refine loadDie_keeps (sub hM rfl) ?_
            exact h0
          clear_value x8
          refine Keeps.ite ?_ ?_
          · refine replayDie_keeps (sub hM rfl) ?_
            exact g9
          · exact g9
      · refine KeepsR.next ?_
        exact h0

theorem activationReset_keeps {M : Nat} {s0 : State} {a0 : Nat} {a1 : State} (hM : 222187421663 ||| M = M) (h0 : Keeps M s0 a1) :
    Keeps M s0 (activationReset a0 a1) := by
  unfold activationReset
  refine Keeps.ite ?_ ?_
  · refine startReset_keeps (sub hM rfl) ?_
    exact h0
  · exact h0

theorem execDrainComplete_keeps {M : Nat} {s0 : State} {a0 : Nat} {a1 : State} (hM : 222187421663 ||| M = M) (h0 : Keeps M s0 a1) :
    KeepsR M s0 (execDrainComplete a0 a1) := by
  unfold execDrainComplete
  refine KeepsR.ite ?_ ?_
  · refine KeepsR.next ?_
    refine activationReset_keeps (sub hM rfl) ?_
    refine enterQuiesced_keeps (sub hM rfl) ?_
    exact h0
  · refine KeepsR.next ?_
    exact h0

theorem execDrainLimitExpiry_keeps {M : Nat} {s0 : State} {a0 : Nat} {a1 : State} (hM : 222187421663 ||| M = M) (h0 : Keeps M s0 a1) :
    KeepsR M s0 (execDrainLimitExpiry a0 a1) := by
  unfold execDrainLimitExpiry
  extract_lets +onlyGivenNames -lift x0
  have g1 : Keeps M s0 x0 := by
    refine domReply_keeps (sub hM rfl) ?_
    exact h0
  clear_value x0
  extract_lets +onlyGivenNames -lift x2
  have g3 : Keeps M s0 x2 := by
    refine setDom_keeps (sub hM rfl) ?_
    exact g1
  clear_value x2
  refine KeepsR.ite ?_ ?_
  · refine KeepsR.next ?_
    exact h0
  · refine KeepsR.ite ?_ ?_
    · refine KeepsR.next ?_
      refine activationReset_keeps (sub hM rfl) ?_
      refine enterQuiesced_keeps (sub hM rfl) ?_
      exact h0
    · refine KeepsR.ite ?_ ?_
      · refine KeepsR.next ?_
        refine activationReset_keeps (sub hM rfl) ?_
        refine forceQuiesced_keeps (sub hM rfl) ?_
        exact h0
      · refine KeepsR.next ?_
        refine Keeps.ite ?_ ?_
        · refine updLp_keeps (sub hM rfl) ?_
          exact g3
        · refine Keeps.ite ?_ ?_
          · refine headsReturn_keeps (sub hM rfl) ?_
            exact g3
          · exact g3

theorem execResetTimeEnd_keeps {M : Nat} {s0 : State} {a0 : Nat} {a1 : State} (hM : 8589952386 ||| M = M) (h0 : Keeps M s0 a1) :
    KeepsR M s0 (execResetTimeEnd a0 a1) := by
  unfold execResetTimeEnd
  extract_lets +onlyGivenNames -lift x0
  have g1 : Keeps M s0 x0 := by
    refine domReply_keeps (sub hM rfl) ?_
    exact h0
  clear_value x0
  extract_lets +onlyGivenNames -lift x2
  clear_value x2
  extract_lets +onlyGivenNames -lift x3
  have g4 : Keeps M s0 x3 := by
    refine setDom_keeps (sub hM rfl) ?_
    exact g1
  clear_value x3
  refine KeepsR.ite ?_ ?_
  · refine KeepsR.next ?_
    exact h0
  · refine KeepsR.ite ?_ ?_
    · refine KeepsR.next ?_
      refine wr_keeps (sub hM rfl) ?_
      refine wr_keeps (sub hM rfl) ?_
      exact g4
    · refine KeepsR.ite ?_ ?_
      · refine KeepsR.next ?_
        refine startReturn_keeps (sub hM rfl) ?_
        exact g4
      · refine KeepsR.next ?_
        exact g4

theorem execReturnTimeout_keeps {M : Nat} {s0 : State} {a0 : Nat} {a1 : State} (hM : 8589952256 ||| M = M) (h0 : Keeps M s0 a1) :
    KeepsR M s0 (execReturnTimeout a0 a1) := by
  unfold execReturnTimeout
  extract_lets +onlyGivenNames -lift x0
  have g1 : Keeps M s0 x0 := by
    refine domReply_keeps (sub hM rfl) ?_
    exact h0
  clear_value x0
  extract_lets +onlyGivenNames -lift x2
  clear_value x2
  refine KeepsR.ite ?_ ?_
  · refine KeepsR.next ?_
    refine setDom_keeps (sub hM rfl) ?_
    exact g1
  · refine KeepsR.next ?_
    exact h0

theorem execDomainQuiesce_keeps {M : Nat} {s0 : State} {a0 : Origin} {a1 : List Byte} {a2 : State} (hM : 8627871702 ||| M = M) (h0 : Keeps M s0 a2) :
    KeepsR M s0 (execDomainQuiesce a0 a1 a2) := by
  unfold execDomainQuiesce
  extract_lets +onlyGivenNames -lift x0
  clear_value x0
  extract_lets +onlyGivenNames -lift x1
  clear_value x1
  refine command_keeps (sub hM rfl) ?_ ?_
  · intro w3 k4
    extract_lets +onlyGivenNames -lift x5
    clear_value x5
    refine Keeps.ite ?_ ?_
    · refine reply_keeps (sub hM rfl) ?_
      exact k4
    · refine Keeps.ite ?_ ?_
      · refine reply_keeps (sub hM rfl) ?_
        exact k4
      · refine Keeps.ite ?_ ?_
        · refine reply_keeps (sub hM rfl) ?_
          exact k4
        · refine Keeps.ite ?_ ?_
          · refine reply_keeps (sub hM rfl) ?_
            exact k4
          · refine Keeps.ite ?_ ?_
            · refine reply_keeps (sub hM rfl) ?_
              exact k4
            · refine startQuiesce_keeps (sub hM rfl) ?_
              exact k4
  · exact h0

theorem execDomainReset_keeps {M : Nat} {s0 : State} {a0 : Origin} {a1 : List Byte} {a2 : State} (hM : 222187421663 ||| M = M) (h0 : Keeps M s0 a2) :
    KeepsR M s0 (execDomainReset a0 a1 a2) := by
  unfold execDomainReset
  extract_lets +onlyGivenNames -lift x0
  clear_value x0
  refine command_keeps (sub hM rfl) ?_ ?_
  · intro w2 k3
    extract_lets +onlyGivenNames -lift x4
    clear_value x4
    refine Keeps.ite ?_ ?_
    · refine reply_keeps (sub hM rfl) ?_
      exact k3
    · refine Keeps.ite ?_ ?_
      · refine reply_keeps (sub hM rfl) ?_
        exact k3
      · refine Keeps.ite ?_ ?_
        · refine reply_keeps (sub hM rfl) ?_
          exact k3
        · refine Keeps.ite ?_ ?_
          · refine reply_keeps (sub hM rfl) ?_
            exact k3
          · refine startReset_keeps (sub hM rfl) ?_
            exact k3
  · exact h0

theorem execDomainReturn_keeps {M : Nat} {s0 : State} {a0 : Origin} {a1 : List Byte} {a2 : State} (hM : 77309822422 ||| M = M) (h0 : Keeps M s0 a2) :
    KeepsR M s0 (execDomainReturn a0 a1 a2) := by
  unfold execDomainReturn
  extract_lets +onlyGivenNames -lift x0
  clear_value x0
  refine command_keeps (sub hM rfl) ?_ ?_
  · intro w2 k3
    extract_lets +onlyGivenNames -lift x4
    clear_value x4
    refine Keeps.ite ?_ ?_
    · refine reply_keeps (sub hM rfl) ?_
      exact k3
    · refine Keeps.ite ?_ ?_
      · refine reply_keeps (sub hM rfl) ?_
        exact k3
      · refine Keeps.ite ?_ ?_
        · refine reply_keeps (sub hM rfl) ?_
          exact k3
        · refine Keeps.ite ?_ ?_
          · refine reply_keeps (sub hM rfl) ?_
            refine returnLine_keeps (sub hM rfl) ?_
            exact k3
          · refine startReturn_keeps (sub hM rfl) ?_
            exact k3
  · exact h0

theorem execDomainStatus_keeps {M : Nat} {s0 : State} {a0 : Origin} {a1 : List Byte} {a2 : State} (hM : 8589952000 ||| M = M) (h0 : Keeps M s0 a2) :
    KeepsR M s0 (execDomainStatus a0 a1 a2) := by
  unfold execDomainStatus
  extract_lets +onlyGivenNames -lift x0
  clear_value x0
  refine command_keeps (sub hM rfl) ?_ ?_
  · intro w2 k3
    extract_lets +onlyGivenNames -lift x4
    clear_value x4
    refine Keeps.ite ?_ ?_
    · refine reply_keeps (sub hM rfl) ?_
      exact k3
    · refine Keeps.ite ?_ ?_
      · refine reply_keeps (sub hM rfl) ?_
        exact k3
      · refine reply_keeps (sub hM rfl) ?_
        exact k3
  · exact h0

/-! Activate. -/

theorem updAct_keeps {M : Nat} {s0 : State} {a0 : Activation → Activation} {a1 : State} (hM : 137438953474 ||| M = M) (h0 : Keeps M s0 a1) :
    Keeps M s0 (updAct a0 a1) := by
  unfold updAct
  refine updImg_keeps (sub hM rfl) ?_
  exact h0

theorem newDie_keeps {M : Nat} {s0 : State} {a0 : Nat} {a1 : Bool} {a2 : State} (hM : 2 ||| M = M) (h0 : Keeps M s0 a2) :
    Keeps M s0 (newDie a0 a1 a2) := by
  unfold newDie
  refine wr_keeps (sub hM rfl) ?_
  exact h0

theorem dieMoved_keeps {M : Nat} {s0 : State} {a0 : Nat} {a1 : State} (hM : 137438953474 ||| M = M) (h0 : Keeps M s0 a1) :
    Keeps M s0 (dieMoved a0 a1) := by
  unfold dieMoved
  extract_lets +onlyGivenNames -lift x0
  clear_value x0
  refine newDie_keeps (sub hM rfl) ?_
  refine updAct_keeps (sub hM rfl) ?_
  exact h0

theorem ldStep_keeps {M : Nat} {s0 : State} {a0 : State} (hM : 206158431251 ||| M = M) (h0 : Keeps M s0 a0) :
    Keeps M s0 (ldStep a0) := by
  unfold ldStep
  refine updFgrBusy_keeps (sub hM rfl) ?_
  refine updAct_keeps (sub hM rfl) ?_
  refine rotAbort_keeps (sub hM rfl) ?_
  refine forAll_keeps (sub hM rfl) ?_ ?_
  · intro w0 w1 k2
    refine cmpAbort_keeps (sub hM rfl) ?_
    exact k2
  · exact h0

theorem turnBack_keeps {M : Nat} {s0 : State} {a0 : Nat} {a1 : State} (hM : 137438953474 ||| M = M) (h0 : Keeps M s0 a1) :
    Keeps M s0 (turnBack a0 a1) := by
  unfold turnBack
  extract_lets +onlyGivenNames -lift x0
  clear_value x0
  refine updAct_keeps (sub hM rfl) ?_
  exact h0

theorem endTrialRecord_keeps {M : Nat} {s0 : State} {a0 : State} (hM : 274877906946 ||| M = M) (h0 : Keeps M s0 a0) :
    Keeps M s0 (endTrialRecord a0) := by
  unfold endTrialRecord
  extract_lets +onlyGivenNames -lift x0
  clear_value x0
  refine Keeps.ite ?_ ?_
  · exact h0
  · refine writeBoot_keeps (sub hM rfl) ?_
    exact h0

theorem endBack_keeps {M : Nat} {s0 : State} {a0 : Activation} {a1 : State} (hM : 412316860434 ||| M = M) (h0 : Keeps M s0 a1) :
    Keeps M s0 (endBack a0 a1) := by
  unfold endBack
  extract_lets +onlyGivenNames -lift x0
  have g1 : Keeps M s0 x0 := by
    refine endTrialRecord_keeps (sub hM rfl) ?_
    refine updImg_keeps (sub hM rfl) ?_
    exact h0
  clear_value x0
  extract_lets +onlyGivenNames -lift x2
  have g3 : Keeps M s0 x2 := by
    refine wr_keeps (sub hM rfl) ?_
    refine imgErr_keeps (sub hM rfl) ?_
    exact g1
  clear_value x2
  refine raise_keeps (sub hM rfl) ?_
  refine Keeps.ite ?_ ?_
  · refine raise_keeps (sub hM rfl) ?_
    exact g3
  · exact g3

theorem goOn_keeps {M : Nat} {s0 : State} {a0 : Nat} {a1 : State} (hM : 497065328607 ||| M = M) (h0 : Keeps M s0 a1) :
    Keeps M s0 (goOn a0 a1) := by
  induction a0 generalizing a1 with
  | zero =>
    unfold goOn
    exact h0
  | succ n ih =>
    unfold goOn
    split
    · exact h0
    · refine Keeps.ite ?_ ?_
      · apply ih
        refine turnBack_keeps (sub hM rfl) ?_
        exact h0
      · split
        · refine Keeps.ite ?_ ?_
          · refine endBack_keeps (sub hM rfl) ?_
            exact h0
          · exact h0
        · extract_lets +onlyGivenNames -lift x3
          have g4 : Keeps M s0 x3 := by
            refine updAct_keeps (sub hM rfl) ?_
            exact h0
          clear_value x3
          extract_lets +onlyGivenNames -lift x5
          have g6 : Keeps M s0 x5 := by
            refine updAct_keeps (sub hM rfl) ?_
            exact g4
          clear_value x5
          refine Keeps.ite ?_ ?_
          · refine ldStep_keeps (sub hM rfl) ?_
            exact g4
          · refine Keeps.ite ?_ ?_
            · apply ih
              exact g4
            · refine Keeps.ite ?_ ?_
              · apply ih
                refine dieMoved_keeps (sub hM rfl) ?_
                refine setRuns_keeps (sub hM rfl) ?_
                exact g4
              · refine Keeps.ite ?_ ?_
                · split
                  · refine startQuiesce_keeps (sub hM rfl) ?_
                    exact g6
                  · refine startReset_keeps (sub hM rfl) ?_
                    exact g6
                  · exact g6
                · apply ih
                  refine dieMoved_keeps (sub hM rfl) ?_
                  refine loadDie_keeps (sub hM rfl) ?_
                  exact g4

theorem goOnAll_keeps {M : Nat} {s0 : State} {a0 : State} (hM : 497065328607 ||| M = M) (h0 : Keeps M s0 a0) :
    Keeps M s0 (goOnAll a0) := by
  unfold goOnAll
  refine goOn_keeps (sub hM rfl) ?_
  exact h0

theorem startRevert_keeps {M : Nat} {s0 : State} {a0 : State} (hM : 497065328607 ||| M = M) (h0 : Keeps M s0 a0) :
    Keeps M s0 (startRevert a0) := by
  unfold startRevert
  extract_lets +onlyGivenNames -lift x0
  clear_value x0
  extract_lets +onlyGivenNames -lift x1
  clear_value x1
  refine goOnAll_keeps (sub hM rfl) ?_
  refine updImg_keeps (sub hM rfl) ?_
  exact h0

theorem execImgActivate_keeps {M : Nat} {s0 : State} {a0 : Origin} {a1 : List Byte} {a2 : State} (hM : 497065328607 ||| M = M) (h0 : Keeps M s0 a2) :
    KeepsR M s0 (execImgActivate a0 a1 a2) := by
  unfold execImgActivate
  extract_lets +onlyGivenNames -lift x0
  clear_value x0
  extract_lets +onlyGivenNames -lift x1
  clear_value x1
  refine command_keeps (sub hM rfl) ?_ ?_
  · intro w3 k4
    extract_lets +onlyGivenNames -lift x5
    clear_value x5
    extract_lets +onlyGivenNames -lift x6
    clear_value x6
    refine Keeps.ite ?_ ?_
    · refine imgReply_keeps (sub hM rfl) ?_
      exact k4
    · refine Keeps.ite ?_ ?_
      · refine imgReply_keeps (sub hM rfl) ?_
        exact k4
      · refine Keeps.ite ?_ ?_
        · refine imgReply_keeps (sub hM rfl) ?_
          exact k4
        · refine Keeps.ite ?_ ?_
          · refine imgReply_keeps (sub hM rfl) ?_
            exact k4
          · refine goOnAll_keeps (sub hM rfl) ?_
            refine updImg_keeps (sub hM rfl) ?_
            refine reply_keeps (sub hM rfl) ?_
            exact k4
  · exact h0

theorem execActivationStepDone_keeps {M : Nat} {s0 : State} {a0 : State} (hM : 497065328607 ||| M = M) (h0 : Keeps M s0 a0) :
    KeepsR M s0 (execActivationStepDone a0) := by
  unfold execActivationStepDone
  split
  · refine KeepsR.next ?_
    exact h0
  · split
    · refine KeepsR.next ?_
      exact h0
    · refine KeepsR.ite ?_ ?_
      · refine KeepsR.next ?_
        refine goOnAll_keeps (sub hM rfl) ?_
        refine dieMoved_keeps (sub hM rfl) ?_
        exact h0
      · refine KeepsR.next ?_
        exact h0

theorem leaveQuiesced_keeps {M : Nat} {s0 : State} {a0 : Nat} {a1 : State} (hM : 256 ||| M = M) (h0 : Keeps M s0 a1) :
    Keeps M s0 (leaveQuiesced a0 a1) := by
  unfold leaveQuiesced
  extract_lets +onlyGivenNames -lift x0
  clear_value x0
  refine Keeps.ite ?_ ?_
  · refine setDom_keeps (sub hM rfl) ?_
    exact h0
  · exact h0

theorem execActivationTimeout_keeps {M : Nat} {s0 : State} {a0 : State} (hM : 497065328607 ||| M = M) (h0 : Keeps M s0 a0) :
    KeepsR M s0 (execActivationTimeout a0) := by
  unfold execActivationTimeout
  split
  · refine KeepsR.next ?_
    exact h0
  · split
    · refine KeepsR.next ?_
      exact h0
    · extract_lets +onlyGivenNames -lift x2
      clear_value x2
      extract_lets +onlyGivenNames -lift x3
      have g4 : Keeps M s0 x3 := by
        refine leaveQuiesced_keeps (sub hM rfl) ?_
        exact h0
      clear_value x3
      refine KeepsR.ite ?_ ?_
      · refine KeepsR.next ?_
        exact h0
      · refine KeepsR.next ?_
        refine goOnAll_keeps (sub hM rfl) ?_
        refine Keeps.ite ?_ ?_
        · refine updAct_keeps (sub hM rfl) ?_
          exact g4
        · refine turnBack_keeps (sub hM rfl) ?_
          exact g4

theorem settingsFor_keeps {M : Nat} {s0 : State} {a0 : Nat} {a1 : Bool} {a2 : State} (hM : 137438953490 ||| M = M) (h0 : Keeps M s0 a2) :
    Keeps M s0 (settingsFor a0 a1 a2) := by
  unfold settingsFor
  extract_lets +onlyGivenNames -lift x0
  clear_value x0
  extract_lets +onlyGivenNames -lift x1
  clear_value x1
  extract_lets +onlyGivenNames -lift x2
  clear_value x2
  extract_lets +onlyGivenNames -lift x3
  have g4 : Keeps M s0 x3 := by
    refine times_keeps (sub hM rfl) ?_ ?_
    · intro w5 k6
      refine loadNote_keeps (sub hM rfl) ?_
      exact k6
    · exact h0
  clear_value x3
  extract_lets +onlyGivenNames -lift x7
  clear_value x7
  refine Keeps.ite ?_ ?_
  · refine wr_keeps (sub hM rfl) ?_
    refine Keeps.set_img (hit hM rfl) (?_)
    exact h0
  · refine Keeps.ite ?_ ?_
    · refine wr_keeps (sub hM rfl) ?_
      exact h0
    · refine wr_keeps (sub hM rfl) ?_
      refine Keeps.set_img (hit hM rfl) (?_)
      exact g4

theorem execLdShadowsCompared_keeps {M : Nat} {s0 : State} {a0 : State} (hM : 206158569046 ||| M = M) (h0 : Keeps M s0 a0) :
    KeepsR M s0 (execLdShadowsCompared a0) := by
  unfold execLdShadowsCompared
  split
  · refine KeepsR.next ?_
    exact h0
  · refine KeepsR.ite ?_ ?_
    · refine KeepsR.next ?_
      refine loadLdTables_keeps (sub hM rfl) ?_
      refine settingsFor_keeps (sub hM rfl) ?_
      refine updAct_keeps (sub hM rfl) ?_
      exact h0
    · refine KeepsR.next ?_
      exact h0

theorem loadLd_keeps {M : Nat} {s0 : State} {a0 : Nat} {a1 : State} (hM : 238613364438 ||| M = M) (h0 : Keeps M s0 a1) :
    Keeps M s0 (loadLd a0 a1) := by
  unfold loadLd
  extract_lets +onlyGivenNames -lift x0
  clear_value x0
  refine setRuns_keeps (sub hM rfl) ?_
  refine loadUsb_keeps (sub hM rfl) ?_
  refine loadPolicers_keeps (sub hM rfl) ?_
  refine loadShapers_keeps (sub hM rfl) ?_
  refine playActivate_keeps (sub hM rfl) ?_
  refine loadTrims_keeps (sub hM rfl) ?_
  exact h0

theorem startTrial_keeps {M : Nat} {s0 : State} {a0 : Activation} {a1 : State} (hM : 412316860434 ||| M = M) (h0 : Keeps M s0 a1) :
    Keeps M s0 (startTrial a0 a1) := by
  unfold startTrial
  extract_lets +onlyGivenNames -lift x0
  clear_value x0
  extract_lets +onlyGivenNames -lift x1
  have g2 : Keeps M s0 x1 := by
    refine writeBoot_keeps (sub hM rfl) ?_
    exact h0
  clear_value x1
  refine raise_keeps (sub hM rfl) ?_
  refine updImg_keeps (sub hM rfl) ?_
  exact g2

theorem execLdActivationResume_keeps {M : Nat} {s0 : State} {a0 : State} (hM : 514313355231 ||| M = M) (h0 : Keeps M s0 a0) :
    KeepsR M s0 (execLdActivationResume a0) := by
  unfold execLdActivationResume
  split
  · refine KeepsR.next ?_
    exact h0
  · extract_lets +onlyGivenNames -lift x1
    have g2 : Keeps M s0 x1 := by
      refine updAct_keeps (sub hM rfl) ?_
      refine dieMoved_keeps (sub hM rfl) ?_
      refine loadLd_keeps (sub hM rfl) ?_
      exact h0
    clear_value x1
    refine KeepsR.ite ?_ ?_
    · refine KeepsR.next ?_
      refine Keeps.ite ?_ ?_
      · refine goOnAll_keeps (sub hM rfl) ?_
        exact g2
      · refine startTrial_keeps (sub hM rfl) ?_
        exact g2
    · refine KeepsR.next ?_
      exact h0

theorem execTrialExpiry_keeps {M : Nat} {s0 : State} {a0 : State} (hM : 497065328607 ||| M = M) (h0 : Keeps M s0 a0) :
    KeepsR M s0 (execTrialExpiry a0) := by
  unfold execTrialExpiry
  refine KeepsR.ite ?_ ?_
  · refine KeepsR.next ?_
    refine startRevert_keeps (sub hM rfl) ?_
    exact h0
  · refine KeepsR.next ?_
    exact h0

theorem execImgCommit_keeps {M : Nat} {s0 : State} {a0 : Origin} {a1 : List Byte} {a2 : State} (hM : 146028905474 ||| M = M) (h0 : Keeps M s0 a2) :
    KeepsR M s0 (execImgCommit a0 a1 a2) := by
  unfold execImgCommit
  refine command_keeps (sub hM rfl) ?_ ?_
  · intro w0 k1
    refine Keeps.ite ?_ ?_
    · refine imgReply_keeps (sub hM rfl) ?_
      exact k1
    · refine Keeps.ite ?_ ?_
      · refine imgReply_keeps (sub hM rfl) ?_
        exact k1
      · refine updImg_keeps (sub hM rfl) ?_
        exact k1
  · exact h0

theorem execImgRevert_keeps {M : Nat} {s0 : State} {a0 : Origin} {a1 : List Byte} {a2 : State} (hM : 497065328607 ||| M = M) (h0 : Keeps M s0 a2) :
    KeepsR M s0 (execImgRevert a0 a1 a2) := by
  unfold execImgRevert
  refine command_keeps (sub hM rfl) ?_ ?_
  · intro w0 k1
    refine Keeps.ite ?_ ?_
    · refine updAct_keeps (sub hM rfl) ?_
      refine imgReply_keeps (sub hM rfl) ?_
      exact k1
    · refine Keeps.ite ?_ ?_
      · refine imgReply_keeps (sub hM rfl) ?_
        exact k1
      · refine Keeps.ite ?_ ?_
        · refine imgReply_keeps (sub hM rfl) ?_
          exact k1
        · refine startRevert_keeps (sub hM rfl) ?_
          refine imgReply_keeps (sub hM rfl) ?_
          exact k1
  · exact h0

/-! Boot. -/

theorem compatModes_keeps {M : Nat} {s0 : State} {a0 : State} (hM : 2 ||| M = M) (h0 : Keeps M s0 a0) :
    Keeps M s0 (compatModes a0) := by
  unfold compatModes
  refine Keeps.ite ?_ ?_
  · refine forAll_keeps (sub hM rfl) ?_ ?_
    · intro w0 w1 k2
      refine wr_keeps (sub hM rfl) ?_
      exact k2
    · exact h0
  · exact h0

theorem sampleStraps_keeps {M : Nat} {s0 : State} {a0 : Nat} {a1 : State} (hM : 18 ||| M = M) (h0 : Keeps M s0 a1) :
    Keeps M s0 (sampleStraps a0 a1) := by
  unfold sampleStraps
  extract_lets +onlyGivenNames -lift x0
  clear_value x0
  extract_lets +onlyGivenNames -lift x1
  clear_value x1
  extract_lets +onlyGivenNames -lift x2
  have g3 : Keeps M s0 x2 := by
    refine wr_keeps (sub hM rfl) ?_
    refine wr_keeps (sub hM rfl) ?_
    exact h0
  clear_value x2
  extract_lets +onlyGivenNames -lift x4
  have g5 : Keeps M s0 x4 := by
    refine compatModes_keeps (sub hM rfl) ?_
    refine wr_keeps (sub hM rfl) ?_
    exact g3
  clear_value x4
  refine Keeps.ite ?_ ?_
  · refine raise_keeps (sub hM rfl) ?_
    refine wr_keeps (sub hM rfl) ?_
    exact g5
  · exact g5

theorem coldStart_keeps {M : Nat} {s0 : State} {a0 : State} (hM : 824633196542 ||| M = M) (h0 : Keeps M s0 a0) :
    Keeps M s0 (coldStart a0) := by
  unfold coldStart
  exact
    { h0 with
      same := fun i b => by refine Eq.trans ?_ (h0.same i b); unfold State.part; split <;> first | exact hit hM rfl b | rfl
      wf := fun w => let q := h0.wf w; ⟨rfl, rfl, rfl, rfl, q.nor⟩ }

theorem heldTime_keeps {M : Nat} {s0 : State} {a0 : State} {a1 : State} (hM : 327682 ||| M = M) (h0 : Keeps M s0 a0) (h1 : Keeps M s0 a1) :
    Keeps M s0 (heldTime a0 a1) := by
  unfold heldTime
  extract_lets +onlyGivenNames -lift x0
  clear_value x0
  extract_lets +onlyGivenNames -lift x1
  clear_value x1
  extract_lets +onlyGivenNames -lift x2
  clear_value x2
  refine Keeps.ite ?_ ?_
  · exact h1
  · refine wr_keeps (sub hM rfl) ?_
    exact { h1 with same := fun i b => by refine Eq.trans ?_ (h1.same i b); unfold State.part; split <;> first | exact hit hM rfl b | rfl, wf := fun w => let q := h1.wf w; ⟨q.regs, q.ctrs, q.srcs, q.deep, q.nor⟩ }

theorem refire_keeps {M : Nat} {s0 : State} {a0 : State} (hM : 16 ||| M = M) (h0 : Keeps M s0 a0) :
    Keeps M s0 (refire a0) := by
  unfold refire
  refine forAll_keeps (sub hM rfl) ?_ ?_
  · intro w0 w1 k2
    refine Keeps.ite ?_ ?_
    · refine raise_keeps (sub hM rfl) ?_
      exact k2
    · exact k2
  · exact h0

theorem keepNurse_keeps {M : Nat} {s0 : State} {a0 : State} {a1 : State} (hM : 51544130318 ||| M = M) (h0 : Keeps M s0 a0) (h1 : Keeps M s0 a1) :
    Keeps M s0 (keepNurse a0 a1) := by
  unfold keepNurse
  have g0 : Keeps M s0
      { a1 with
        regs := Tab.keep (fun k => nurseReg k) a0.regs
        ctrs := Tab.keep (fun k => addrSlot k == 0 && addrBlk k == 0xF) a0.ctrs
        ctrRc := Tab.keep (fun k => k == 0xF) a0.ctrRc
        efuses := Tab.build EFuse.reset 5 fun f => { efuse a0 f with seg := none }
        tcp := Tab.build (fun _ => TcPort.reset) 8 fun t => coldPort a0 (tcp a0 t)
        nurse := { a0.nurse with wake := none, delivered := [] }
        topo := { a1.topo with bypassSettle := a0.topo.bypassSettle }
        domains := Tab.keep (fun d => domSt a0 d == .off) a0.domains } :=
    { h1 with
      same := fun i b => by refine Eq.trans ?_ (h1.same i b); unfold State.part; split <;> first | exact hit hM rfl b | rfl
      wf := fun w => let p := h0.wf w; let q := h1.wf w; ⟨Tab.wf_keep _ (fun k => nurseReg k) p.regs, Tab.wf_keep _ (fun k => addrSlot k == 0 && addrBlk k == 0xF) p.ctrs, q.srcs, q.deep, q.nor⟩ }
  exact heldTime_keeps (sub hM rfl) h0 (wr_keeps (sub hM rfl) (Keeps.ite (wr_keeps (sub hM rfl) g0) g0))

theorem resetState_keeps {M : Nat} {s0 : State} {a0 : State} (hM : 824633196542 ||| M = M) (h0 : Keeps M s0 a0) :
    Keeps M s0 (resetState a0) := by
  unfold resetState
  refine keepNurse_keeps (sub hM rfl) ?_ ?_
  · exact h0
  · refine coldStart_keeps (sub hM rfl) ?_
    exact h0

theorem keepFailed_keeps {M : Nat} {s0 : State} {a0 : State} {a1 : State} (hM : 2 ||| M = M) (h0 : Keeps M s0 a0) (h1 : Keeps M s0 a1) :
    Keeps M s0 (keepFailed a0 a1) := by
  unfold keepFailed
  refine forAll_keeps (sub hM rfl) ?_ ?_
  · intro w0 w1 k2
    refine wr_keeps (sub hM rfl) ?_
    refine wr_keeps (sub hM rfl) ?_
    exact k2
  · exact h1

theorem warmState_keeps {M : Nat} {s0 : State} {a0 : State} (hM : 824633196542 ||| M = M) (h0 : Keeps M s0 a0) :
    Keeps M s0 (warmState a0) := by
  unfold warmState
  have g0 : Keeps M s0 (resetState a0) := resetState_keeps (sub hM rfl) h0
  refine compatModes_keeps (sub hM rfl) (keepFailed_keeps (sub hM rfl) h0 ?_)
  exact
    { g0 with
      same := fun i b => by refine Eq.trans ?_ (g0.same i b); unfold State.part; split <;> first | exact hit hM rfl b | rfl
      wf := fun w => let p := h0.wf w; let q := g0.wf w; ⟨Tab.wf_setAll _ _ q.regs, Tab.wf_keep _ (fun k => addrSlot k != 0 || addrBlk k == 0xF) p.ctrs, q.srcs, p.deep, q.nor⟩ }

theorem execPowerOnReset_keeps {M : Nat} {s0 : State} {a0 : BitVec 3} {a1 : BitVec 3} {a2 : BitVec 3} {a3 : State} (hM : 824633196542 ||| M = M) (h0 : Keeps M s0 a3) :
    KeepsR M s0 (execPowerOnReset a0 a1 a2 a3) := by
  unfold execPowerOnReset
  extract_lets +onlyGivenNames -lift x0
  have g1 : Keeps M s0 x0 := by
    refine coldStart_keeps (sub hM rfl) ?_
    exact h0
  clear_value x0
  refine KeepsR.ite ?_ ?_
  · refine KeepsR.next ?_
    refine Keeps.set_supplyHold (hit hM rfl) (?_)
    exact g1
  · refine KeepsR.next ?_
    refine sampleStraps_keeps (sub hM rfl) ?_
    refine coldStart_keeps (sub hM rfl) ?_
    exact h0

theorem execResetN_keeps {M : Nat} {s0 : State} {a0 : BitVec 3} {a1 : BitVec 3} {a2 : BitVec 3} {a3 : State} (hM : 824633196542 ||| M = M) (h0 : Keeps M s0 a3) :
    KeepsR M s0 (execResetN a0 a1 a2 a3) := by
  unfold execResetN
  extract_lets +onlyGivenNames -lift x0
  have g1 : Keeps M s0 x0 := by
    refine coldStart_keeps (sub hM rfl) ?_
    exact h0
  clear_value x0
  refine KeepsR.ite ?_ ?_
  · refine KeepsR.next ?_
    refine Keeps.set_supplyHold (hit hM rfl) (?_)
    exact g1
  · refine KeepsR.next ?_
    refine refire_keeps (sub hM rfl) ?_
    refine sampleStraps_keeps (sub hM rfl) ?_
    refine resetState_keeps (sub hM rfl) ?_
    exact h0

theorem execSupplyFail_keeps {M : Nat} {s0 : State} {a0 : State} (hM : 824633196542 ||| M = M) (h0 : Keeps M s0 a0) :
    KeepsR M s0 (execSupplyFail a0) := by
  unfold execSupplyFail
  extract_lets +onlyGivenNames -lift x0
  have g1 : Keeps M s0 x0 := by
    refine coldStart_keeps (sub hM rfl) ?_
    exact h0
  clear_value x0
  refine KeepsR.next ?_
  refine Keeps.set_supplyHold (hit hM rfl) (?_)
  exact g1

theorem execSupplyHoldEnd_keeps {M : Nat} {s0 : State} {a0 : BitVec 3} {a1 : BitVec 3} {a2 : BitVec 3} {a3 : State} (hM : 824633196542 ||| M = M) (h0 : Keeps M s0 a3) :
    KeepsR M s0 (execSupplyHoldEnd a0 a1 a2 a3) := by
  unfold execSupplyHoldEnd
  extract_lets +onlyGivenNames -lift x0
  have g1 : Keeps M s0 x0 := by
    refine coldStart_keeps (sub hM rfl) ?_
    exact h0
  clear_value x0
  refine KeepsR.ite ?_ ?_
  · refine KeepsR.next ?_
    refine sampleStraps_keeps (sub hM rfl) ?_
    refine Keeps.set_supplyHold (hit hM rfl) (?_)
    exact g1
  · refine KeepsR.next ?_
    exact h0

theorem execLdWarmReset_keeps {M : Nat} {s0 : State} {a0 : Origin} {a1 : List Byte} {a2 : State} (hM : 824633196542 ||| M = M) (h0 : Keeps M s0 a2) :
    KeepsR M s0 (execLdWarmReset a0 a1 a2) := by
  unfold execLdWarmReset
  refine command_keeps (sub hM rfl) ?_ ?_
  · intro w1 k2
    extract_lets +onlyGivenNames -lift x3
    have g4 : Keeps M s0 x3 := by
      refine reply_keeps (sub hM rfl) ?_
      exact k2
    clear_value x3
    extract_lets +onlyGivenNames -lift x5
    clear_value x5
    extract_lets +onlyGivenNames -lift x6
    have g7 : Keeps M s0 x6 := by
      refine warmState_keeps (sub hM rfl) ?_
      refine Keeps.set_hostIf (hit hM rfl) (?_)
      exact k2
    clear_value x6
    extract_lets +onlyGivenNames -lift x8
    clear_value x8
    refine refire_keeps (sub hM rfl) ?_
    refine Keeps.set_cmd (hit hM rfl) (?_)
    exact g7
  · exact h0

theorem logStart_keeps {M : Nat} {s0 : State} {a0 : State} (hM : 131072 ||| M = M) (h0 : Keeps M s0 a0) :
    Keeps M s0 (logStart a0) := by
  unfold logStart
  extract_lets +onlyGivenNames -lift x0
  clear_value x0
  split
  · refine Keeps.set_diag (hit hM rfl) (?_)
    exact h0
  · refine Keeps.set_diag (hit hM rfl) (?_)
    exact h0

theorem loadSettings_keeps {M : Nat} {s0 : State} {a0 : State} (hM : 137438953490 ||| M = M) (h0 : Keeps M s0 a0) :
    Keeps M s0 (loadSettings a0) := by
  unfold loadSettings
  extract_lets +onlyGivenNames -lift x0
  clear_value x0
  extract_lets +onlyGivenNames -lift x1
  clear_value x1
  extract_lets +onlyGivenNames -lift x2
  have g3 : Keeps M s0 x2 := by
    refine Keeps.set_img (hit hM rfl) (?_)
    exact h0
  clear_value x2
  refine Keeps.ite ?_ ?_
  · refine raise_keeps (sub hM rfl) ?_
    refine wr_keeps (sub hM rfl) ?_
    exact g3
  · exact g3

theorem loadLineKey_keeps {M : Nat} {s0 : State} {a0 : State} (hM : 16384 ||| M = M) (h0 : Keeps M s0 a0) :
    Keeps M s0 (loadLineKey a0) := by
  unfold loadLineKey
  split
  · exact h0
  · refine updCmd_keeps (sub hM rfl) ?_
    exact h0

theorem trainPorts_keeps {M : Nat} {s0 : State} {a0 : State} (hM : 68719477826 ||| M = M) (h0 : Keeps M s0 a0) :
    Keeps M s0 (trainPorts a0) := by
  unfold trainPorts
  refine forAll_keeps (sub hM rfl) ?_ ?_
  · intro w0 w1 k2
    refine Keeps.ite ?_ ?_
    · refine startTraining_keeps (sub hM rfl) ?_
      exact k2
    · exact k2
  · exact h0

theorem recovery_keeps {M : Nat} {s0 : State} {a0 : State} (hM : 206225556562 ||| M = M) (h0 : Keeps M s0 a0) :
    Keeps M s0 (recovery a0) := by
  unfold recovery
  extract_lets +onlyGivenNames -lift x0
  have g1 : Keeps M s0 x0 := by
    refine loadLineKey_keeps (sub hM rfl) ?_
    refine loadSettings_keeps (sub hM rfl) ?_
    refine updImg_keeps (sub hM rfl) ?_
    exact h0
  clear_value x0
  extract_lets +onlyGivenNames -lift x2
  have g3 : Keeps M s0 x2 := by
    refine connectWrite_keeps (sub hM rfl) ?_
    exact g1
  clear_value x2
  refine Keeps.ite ?_ ?_
  · exact g3
  · refine trainPorts_keeps (sub hM rfl) ?_
    exact g3

theorem showImage_keeps {M : Nat} {s0 : State} {a0 : Nat} {a1 : State} (hM : 137438953474 ||| M = M) (h0 : Keeps M s0 a1) :
    Keeps M s0 (showImage a0 a1) := by
  unfold showImage
  extract_lets +onlyGivenNames -lift x0
  clear_value x0
  extract_lets +onlyGivenNames -lift x1
  have g2 : Keeps M s0 x1 := by
    refine wr_keeps (sub hM rfl) ?_
    refine wr_keeps (sub hM rfl) ?_
    exact h0
  clear_value x1
  refine forAll_keeps (sub hM rfl) ?_ ?_
  · intro w3 w4 k5
    refine setRuns_keeps (sub hM rfl) ?_
    exact k5
  · exact g2

theorem applyImage_keeps {M : Nat} {s0 : State} {a0 : Nat} {a1 : State} (hM : 238613364438 ||| M = M) (h0 : Keeps M s0 a1) :
    Keeps M s0 (applyImage a0 a1) := by
  unfold applyImage
  extract_lets +onlyGivenNames -lift x0
  have g1 : Keeps M s0 x0 := by
    refine deepWrites_keeps (sub hM rfl) ?_
    exact h0
  clear_value x0
  extract_lets +onlyGivenNames -lift x2
  have g3 : Keeps M s0 x2 := by
    refine noteBadRecords_keeps (sub hM rfl) ?_
    refine settingsFor_keeps (sub hM rfl) ?_
    exact g1
  clear_value x2
  extract_lets +onlyGivenNames -lift x4
  have g5 : Keeps M s0 x4 := by
    refine loadLdTables_keeps (sub hM rfl) ?_
    refine loadTrims_keeps (sub hM rfl) ?_
    refine loadTrims_keeps (sub hM rfl) ?_
    exact g3
  clear_value x4
  extract_lets +onlyGivenNames -lift x6
  have g7 : Keeps M s0 x6 := by
    refine loadUsb_keeps (sub hM rfl) ?_
    refine loadPolicers_keeps (sub hM rfl) ?_
    refine loadShapers_keeps (sub hM rfl) ?_
    exact g5
  clear_value x6
  refine playBoot_keeps (sub hM rfl) ?_
  exact g7

theorem applyPart_keeps {M : Nat} {s0 : State} {a0 : Nat} {a1 : State} (hM : 101172313814 ||| M = M) (h0 : Keeps M s0 a1) :
    Keeps M s0 (applyPart a0 a1) := by
  unfold applyPart
  extract_lets +onlyGivenNames -lift x0
  have g1 : Keeps M s0 x0 := by
    refine playBoot_keeps (sub hM rfl) ?_
    exact h0
  clear_value x0
  refine Keeps.ite ?_ ?_
  · refine connectWrite_keeps (sub hM rfl) ?_
    exact g1
  · refine loadUsb_keeps (sub hM rfl) ?_
    exact g1

theorem applyRest_keeps {M : Nat} {s0 : State} {a0 : Nat} {a1 : State} (hM : 101174410966 ||| M = M) (h0 : Keeps M s0 a1) :
    Keeps M s0 (applyRest a0 a1) := by
  unfold applyRest
  extract_lets +onlyGivenNames -lift x0
  have g1 : Keeps M s0 x0 := by
    refine noteBadRecords_keeps (sub hM rfl) ?_
    exact h0
  clear_value x0
  extract_lets +onlyGivenNames -lift x2
  have g3 : Keeps M s0 x2 := by
    refine loadLdTables_keeps (sub hM rfl) ?_
    refine loadTrims_keeps (sub hM rfl) ?_
    refine loadTrims_keeps (sub hM rfl) ?_
    exact g1
  clear_value x2
  extract_lets +onlyGivenNames -lift x4
  have g5 : Keeps M s0 x4 := by
    refine loadUsb_keeps (sub hM rfl) ?_
    refine loadPolicers_keeps (sub hM rfl) ?_
    refine loadShapers_keeps (sub hM rfl) ?_
    exact g3
  clear_value x4
  refine playBoot_keeps (sub hM rfl) ?_
  exact g5

theorem releaseDies_keeps {M : Nat} {s0 : State} {a0 : State} (hM : 386 ||| M = M) (h0 : Keeps M s0 a0) :
    Keeps M s0 (releaseDies a0) := by
  unfold releaseDies
  extract_lets +onlyGivenNames -lift x0
  clear_value x0
  refine forAll_keeps (sub hM rfl) ?_ ?_
  · intro w1 w2 k3
    refine Keeps.ite ?_ ?_
    · exact k3
    · refine startLink_keeps (sub hM rfl) ?_
      refine setDom_keeps (sub hM rfl) ?_
      exact k3
  · exact h0

theorem deepUp_keeps {M : Nat} {s0 : State} {a0 : State} (hM : 258 ||| M = M) (h0 : Keeps M s0 a0) :
    Keeps M s0 (deepUp a0) := by
  unfold deepUp
  refine setDom_keeps (sub hM rfl) ?_
  refine wr_keeps (sub hM rfl) ?_
  refine wr_keeps (sub hM rfl) ?_
  exact h0

theorem endTrialBoot_keeps {M : Nat} {s0 : State} {a0 : State} (hM : 412316860418 ||| M = M) (h0 : Keeps M s0 a0) :
    Keeps M s0 (endTrialBoot a0) := by
  unfold endTrialBoot
  extract_lets +onlyGivenNames -lift x0
  clear_value x0
  refine Keeps.ite ?_ ?_
  · refine endTrialRecord_keeps (sub hM rfl) ?_
    refine Keeps.set_img (hit hM rfl) (?_)
    exact h0
  · exact h0

theorem startImage_keeps {M : Nat} {s0 : State} {a0 : Nat} {a1 : Bool} {a2 : State} (hM : 238613364694 ||| M = M) (h0 : Keeps M s0 a2) :
    Keeps M s0 (startImage a0 a1 a2) := by
  unfold startImage
  extract_lets +onlyGivenNames -lift x0
  have g1 : Keeps M s0 x0 := by
    refine wr_keeps (sub hM rfl) ?_
    refine updImg_keeps (sub hM rfl) ?_
    exact h0
  clear_value x0
  extract_lets +onlyGivenNames -lift x2
  have g3 : Keeps M s0 x2 := by
    refine loadSettings_keeps (sub hM rfl) ?_
    refine showImage_keeps (sub hM rfl) ?_
    exact g1
  clear_value x2
  refine Keeps.ite ?_ ?_
  · refine applyPart_keeps (sub hM rfl) ?_
    exact g3
  · refine releaseDies_keeps (sub hM rfl) ?_
    refine applyImage_keeps (sub hM rfl) ?_
    exact g3

theorem execBootSealVerified_keeps {M : Nat} {s0 : State} {a0 : Bool} {a1 : BitVec 8} {a2 : State} (hM : 513491271638 ||| M = M) (h0 : Keeps M s0 a2) :
    KeepsR M s0 (execBootSealVerified a0 a1 a2) := by
  unfold execBootSealVerified
  extract_lets +onlyGivenNames -lift x0
  have g1 : Keeps M s0 x0 := by
    refine Keeps.ite ?_ ?_
    · exact h0
    · refine deepUp_keeps (sub hM rfl) ?_
      exact h0
  clear_value x0
  extract_lets +onlyGivenNames -lift x2
  have g3 : Keeps M s0 x2 := by
    refine showBoot_keeps (sub hM rfl) ?_
    refine logStart_keeps (sub hM rfl) ?_
    refine wr_keeps (sub hM rfl) ?_
    refine wr_keeps (sub hM rfl) ?_
    exact g1
  clear_value x2
  extract_lets +onlyGivenNames -lift x4
  have g5 : Keeps M s0 x4 := by
    refine endTrialBoot_keeps (sub hM rfl) ?_
    exact g3
  clear_value x4
  refine KeepsR.ite ?_ ?_
  · refine KeepsR.next ?_
    exact h0
  · refine KeepsR.ite ?_ ?_
    · refine KeepsR.next ?_
      refine recovery_keeps (sub hM rfl) ?_
      refine wr_keeps (sub hM rfl) ?_
      exact g1
    · refine KeepsR.next ?_
      split
      · refine recovery_keeps (sub hM rfl) ?_
        exact g5
      · refine startImage_keeps (sub hM rfl) ?_
        exact g5

theorem bootedNow_keeps {M : Nat} {s0 : State} {a0 : State} (hM : 68719477826 ||| M = M) (h0 : Keeps M s0 a0) :
    Keeps M s0 (bootedNow a0) := by
  unfold bootedNow
  extract_lets +onlyGivenNames -lift x0
  have g1 : Keeps M s0 x0 := by
    refine wr_keeps (sub hM rfl) ?_
    exact h0
  clear_value x0
  extract_lets +onlyGivenNames -lift x2
  clear_value x2
  refine trainPorts_keeps (sub hM rfl) ?_
  refine Keeps.ite ?_ ?_
  · refine lockImage_keeps (sub hM rfl) ?_
    exact g1
  · exact g1

theorem execBooted_keeps {M : Nat} {s0 : State} {a0 : State} (hM : 481036338258 ||| M = M) (h0 : Keeps M s0 a0) :
    KeepsR M s0 (execBooted a0) := by
  unfold execBooted
  extract_lets +onlyGivenNames -lift x0
  have g1 : Keeps M s0 x0 := by
    refine updImg_keeps (sub hM rfl) ?_
    exact h0
  clear_value x0
  extract_lets +onlyGivenNames -lift x2
  have g3 : Keeps M s0 x2 := by
    refine Keeps.ite ?_ ?_
    · exact g1
    · refine bootedNow_keeps (sub hM rfl) ?_
      exact g1
  clear_value x2
  extract_lets +onlyGivenNames -lift x4
  clear_value x4
  extract_lets +onlyGivenNames -lift x5
  have g6 : Keeps M s0 x5 := by
    refine Keeps.ite ?_ ?_
    · refine compact_keeps (sub hM rfl) ?_
      refine Keeps.set_img (hit hM rfl) (?_)
      exact g3
    · exact g3
  clear_value x5
  extract_lets +onlyGivenNames -lift x7
  clear_value x7
  refine KeepsR.ite ?_ ?_
  · refine KeepsR.next ?_
    exact h0
  · refine KeepsR.next ?_
    refine Keeps.ite ?_ ?_
    · refine raise_keeps (sub hM rfl) ?_
      refine Keeps.set_img (hit hM rfl) (?_)
      exact g6
    · exact g6

theorem execDeadBatteryStart_keeps {M : Nat} {s0 : State} {a0 : BitVec 3} {a1 : BitVec 3} {a2 : BitVec 3} {a3 : State} (hM : 824633196542 ||| M = M) (h0 : Keeps M s0 a3) :
    KeepsR M s0 (execDeadBatteryStart a0 a1 a2 a3) := by
  unfold execDeadBatteryStart
  extract_lets +onlyGivenNames -lift x0
  have g1 : Keeps M s0 x0 := by
    refine sampleStraps_keeps (sub hM rfl) ?_
    refine coldStart_keeps (sub hM rfl) ?_
    exact h0
  clear_value x0
  extract_lets +onlyGivenNames -lift x2
  have g3 : Keeps M s0 x2 := by
    refine wr_keeps (sub hM rfl) ?_
    refine wr_keeps (sub hM rfl) ?_
    exact g1
  clear_value x2
  extract_lets +onlyGivenNames -lift x4
  have g5 : Keeps M s0 x4 := by
    refine wr_keeps (sub hM rfl) ?_
    refine wr_keeps (sub hM rfl) ?_
    exact g3
  clear_value x4
  refine KeepsR.next ?_
  refine forAll_keeps (sub hM rfl) ?_ ?_
  · intro w6 w7 k8
    refine setDom_keeps (sub hM rfl) ?_
    exact k8
  · exact g5

theorem execBoardPowerValid_keeps {M : Nat} {s0 : State} {a0 : State} (hM : 2 ||| M = M) (h0 : Keeps M s0 a0) :
    KeepsR M s0 (execBoardPowerValid a0) := by
  unfold execBoardPowerValid
  refine KeepsR.next ?_
  refine wr_keeps (sub hM rfl) ?_
  exact h0

theorem execSvcVbusLoss_keeps {M : Nat} {s0 : State} {a0 : State} (hM : 824633196542 ||| M = M) (h0 : Keeps M s0 a0) :
    KeepsR M s0 (execSvcVbusLoss a0) := by
  unfold execSvcVbusLoss
  extract_lets +onlyGivenNames -lift x0
  have g1 : Keeps M s0 x0 := by
    refine coldStart_keeps (sub hM rfl) ?_
    exact h0
  clear_value x0
  extract_lets +onlyGivenNames -lift x2
  have g3 : Keeps M s0 x2 := by
    refine svcDisconnect_keeps (sub hM rfl) ?_
    refine wr_keeps (sub hM rfl) ?_
    refine wr_keeps (sub hM rfl) ?_
    refine svcNoContract_keeps (sub hM rfl) ?_
    exact h0
  clear_value x2
  refine KeepsR.ite ?_ ?_
  · refine KeepsR.next ?_
    refine Keeps.set_supplyHold (hit hM rfl) (?_)
    exact g1
  · refine KeepsR.ite ?_ ?_
    · refine KeepsR.next ?_
      refine raise_keeps (sub hM rfl) ?_
      refine raise_keeps (sub hM rfl) ?_
      exact g3
    · refine KeepsR.next ?_
      exact h0

theorem switchOn_keeps {M : Nat} {s0 : State} {a0 : State} (hM : 238613364694 ||| M = M) (h0 : Keeps M s0 a0) :
    Keeps M s0 (switchOn a0) := by
  unfold switchOn
  extract_lets +onlyGivenNames -lift x0
  have g1 : Keeps M s0 x0 := by
    refine wr_keeps (sub hM rfl) ?_
    refine wr_keeps (sub hM rfl) ?_
    exact h0
  clear_value x0
  extract_lets +onlyGivenNames -lift x2
  have g3 : Keeps M s0 x2 := by
    refine Keeps.ite ?_ ?_
    · refine deepUp_keeps (sub hM rfl) ?_
      exact g1
    · exact g1
  clear_value x2
  extract_lets +onlyGivenNames -lift x4
  have g5 : Keeps M s0 x4 := by
    unfold x4
    split
    · refine applyRest_keeps (sub hM rfl) ?_
      exact g3
    · exact g3
  clear_value x4
  extract_lets +onlyGivenNames -lift x6
  have g7 : Keeps M s0 x6 := by
    refine updImg_keeps (sub hM rfl) ?_
    exact g5
  clear_value x6
  refine Keeps.ite ?_ ?_
  · refine Keeps.ite ?_ ?_
    · refine bootedNow_keeps (sub hM rfl) ?_
      exact g7
    · exact g7
  · refine trainPorts_keeps (sub hM rfl) ?_
    exact g3

theorem dieOff_keeps {M : Nat} {s0 : State} {a0 : Nat} {a1 : State} (hM : 16028728734 ||| M = M) (h0 : Keeps M s0 a1) :
    Keeps M s0 (dieOff a0 a1) := by
  unfold dieOff
  refine dieSrcsIdle_keeps (sub hM rfl) ?_
  refine setDom_keeps (sub hM rfl) ?_
  refine resetDie_keeps (sub hM rfl) ?_
  exact h0

theorem dieOn_keeps {M : Nat} {s0 : State} {a0 : Nat} {a1 : State} (hM : 16028728734 ||| M = M) (h0 : Keeps M s0 a1) :
    Keeps M s0 (dieOn a0 a1) := by
  unfold dieOn
  extract_lets +onlyGivenNames -lift x0
  clear_value x0
  refine setDom_keeps (sub hM rfl) ?_
  refine resetDie_keeps (sub hM rfl) ?_
  exact h0

theorem pstateSwitch_keeps {M : Nat} {s0 : State} {a0 : Bool} {a1 : State} (hM : 238613364694 ||| M = M) (h0 : Keeps M s0 a1) :
    Keeps2 M s0 (pstateSwitch a0 a1) := by
  unfold pstateSwitch
  refine Keeps2.ite ?_ ?_
  · refine Keeps2.ite ?_ ?_
    · refine Keeps2.mk ?_
      exact h0
    · refine Keeps2.ite ?_ ?_
      · refine Keeps2.mk ?_
        exact h0
      · refine Keeps2.mk ?_
        refine switchOff_keeps (sub hM rfl) ?_
        exact h0
  · refine Keeps2.ite ?_ ?_
    · refine Keeps2.mk ?_
      exact h0
    · refine Keeps2.ite ?_ ?_
      · refine Keeps2.mk ?_
        exact h0
      · refine Keeps2.mk ?_
        refine switchOn_keeps (sub hM rfl) ?_
        exact h0

theorem pstateDie_keeps {M : Nat} {s0 : State} {a0 : Nat} {a1 : Bool} {a2 : State} (hM : 16028728734 ||| M = M) (h0 : Keeps M s0 a2) :
    Keeps2 M s0 (pstateDie a0 a1 a2) := by
  unfold pstateDie
  extract_lets +onlyGivenNames -lift x0
  clear_value x0
  refine Keeps2.ite ?_ ?_
  · refine Keeps2.mk ?_
    exact h0
  · refine Keeps2.ite ?_ ?_
    · refine Keeps2.ite ?_ ?_
      · refine Keeps2.mk ?_
        exact h0
      · refine Keeps2.ite ?_ ?_
        · refine Keeps2.mk ?_
          exact h0
        · refine Keeps2.ite ?_ ?_
          · refine Keeps2.mk ?_
            refine dieOff_keeps (sub hM rfl) ?_
            exact h0
          · refine Keeps2.mk ?_
            exact h0
    · refine Keeps2.ite ?_ ?_
      · refine Keeps2.mk ?_
        refine dieOn_keeps (sub hM rfl) ?_
        exact h0
      · refine Keeps2.mk ?_
        exact h0

theorem execPstateSet_keeps {M : Nat} {s0 : State} {a0 : Origin} {a1 : List Byte} {a2 : State} (hM : 239435448286 ||| M = M) (h0 : Keeps M s0 a2) :
    KeepsR M s0 (execPstateSet a0 a1 a2) := by
  unfold execPstateSet
  extract_lets +onlyGivenNames -lift x0
  clear_value x0
  extract_lets +onlyGivenNames -lift x1
  clear_value x1
  refine command_keeps (sub hM rfl) ?_ ?_
  · intro w2 k3
    refine Keeps.ite ?_ ?_
    · refine reply_keeps (sub hM rfl) ?_
      exact k3
    · split
      · rename_i y4 y5 y6 y7
        refine Keeps2.elim (m := M) (s0 := s0) y7 ?_ (fun g8 => ?_)
        · refine Keeps2.ite ?_ ?_
          · refine pstateSwitch_keeps (sub hM rfl) ?_
            exact k3
          · refine pstateDie_keeps (sub hM rfl) ?_
            exact k3
        refine reply_keeps (sub hM rfl) ?_
        exact g8
  · exact h0

/-! Diag. -/

theorem readCounter_keeps {M : Nat} {s0 : State} {a0 : CtrReader} {a1 : Nat} {a2 : State} (hM : 8591123510 ||| M = M) (h0 : Keeps M s0 a2) :
    Keeps M s0 (readCounter a0 a1 a2) := by
  unfold readCounter
  split
  · refine Keeps.ite ?_ ?_
    · refine returned_keeps (sub hM rfl) ?_
      refine barRead_keeps (sub hM rfl) ?_
      exact h0
    · exact h0
  · rename_i r
    have g := readAt_keeps (M := M) (s0 := s0) (a0 := r) (a1 := false) (a2 := a1) (sub hM rfl) h0
    refine returned_keeps (sub hM rfl) ?_
    exact g

theorem execCounterLowRead_keeps {M : Nat} {s0 : State} {a0 : CtrReader} {a1 : BitVec 32} {a2 : State} (hM : 8591123510 ||| M = M) (h0 : Keeps M s0 a2) :
    KeepsR M s0 (execCounterLowRead a0 a1 a2) := by
  unfold execCounterLowRead
  refine KeepsR.next ?_
  refine readCounter_keeps (sub hM rfl) ?_
  exact h0

theorem execCounterHighRead_keeps {M : Nat} {s0 : State} {a0 : CtrReader} {a1 : BitVec 32} {a2 : State} (hM : 8591123510 ||| M = M) (h0 : Keeps M s0 a2) :
    KeepsR M s0 (execCounterHighRead a0 a1 a2) := by
  unfold execCounterHighRead
  refine KeepsR.next ?_
  refine readCounter_keeps (sub hM rfl) ?_
  exact h0

theorem setMode_keeps {M : Nat} {s0 : State} {a0 : Nat} {a1 : Bool} {a2 : State} (hM : 8 ||| M = M) (h0 : Keeps M s0 a2) :
    Keeps M s0 (setMode a0 a1 a2) := by
  unfold setMode
  refine Keeps.set_ctrRc (hit hM rfl) (?_)
  exact h0

theorem execCtrClear_keeps {M : Nat} {s0 : State} {a0 : Origin} {a1 : List Byte} {a2 : State} (hM : 8589952012 ||| M = M) (h0 : Keeps M s0 a2) :
    KeepsR M s0 (execCtrClear a0 a1 a2) := by
  unfold execCtrClear
  extract_lets +onlyGivenNames -lift x0
  clear_value x0
  extract_lets +onlyGivenNames -lift x1
  clear_value x1
  extract_lets +onlyGivenNames -lift x2
  clear_value x2
  refine command_keeps (sub hM rfl) ?_ ?_
  · intro w4 k5
    extract_lets +onlyGivenNames -lift x6
    have g7 : Keeps M s0 x6 := by
      refine Keeps.ite ?_ ?_
      · refine forAll_keeps (sub hM rfl) ?_ ?_
        · intro w8 w9 k10
          refine ctrSet_keeps (sub hM rfl) ?_
          exact k10
        · exact k5
      · refine setMode_keeps (sub hM rfl) ?_
        exact k5
    clear_value x6
    refine Keeps.ite ?_ ?_
    · refine reply_keeps (sub hM rfl) ?_
      exact k5
    · refine Keeps.ite ?_ ?_
      · refine reply_keeps (sub hM rfl) ?_
        exact k5
      · refine Keeps.ite ?_ ?_
        · refine reply_keeps (sub hM rfl) ?_
          exact k5
        · refine reply_keeps (sub hM rfl) ?_
          exact g7
  · exact h0

theorem rotNext_keeps {M : Nat} {s0 : State} {a0 : List Nat} {a1 : Nat} {a2 : Nat} {a3 : State} (hM : 68719608850 ||| M = M) (h0 : Keeps M s0 a3) :
    Keeps M s0 (rotNext a0 a1 a2 a3) := by
  unfold rotNext
  extract_lets +onlyGivenNames -lift x0
  clear_value x0
  extract_lets +onlyGivenNames -lift x1
  have g2 : Keeps M s0 x1 := by
    refine setTest_keeps (sub hM rfl) ?_
    exact h0
  clear_value x1
  extract_lets +onlyGivenNames -lift x3
  clear_value x3
  split
  · refine Keeps.ite ?_ ?_
    · refine updNbank_keeps (sub hM rfl) ?_
      refine retireNow_keeps (sub hM rfl) ?_
      refine Keeps.set_tests (hit hM rfl) (?_)
      exact g2
    · refine retireProgress_keeps (sub hM rfl) ?_
      refine endTest_keeps (sub hM rfl) ?_
      refine Keeps.set_tests (hit hM rfl) (?_)
      exact g2
  · refine retireProgress_keeps (sub hM rfl) ?_
    refine endTest_keeps (sub hM rfl) ?_
    refine Keeps.set_tests (hit hM rfl) (?_)
    exact g2

theorem testStart_keeps {M : Nat} {s0 : State} {a0 : Nat} {a1 : Nat} {a2 : Nat} {a3 : Nat} {a4 : State} (hM : 70867092502 ||| M = M) (h0 : Keeps M s0 a4) :
    Keeps M s0 (testStart a0 a1 a2 a3 a4) := by
  unfold testStart
  extract_lets +onlyGivenNames -lift x0
  clear_value x0
  extract_lets +onlyGivenNames -lift x1
  have g2 : Keeps M s0 x1 := by
    refine setTest_keeps (sub hM rfl) ?_
    exact h0
  clear_value x1
  extract_lets +onlyGivenNames -lift x3
  clear_value x3
  split
  · refine rotNext_keeps (sub hM rfl) ?_
    exact g2
  · refine wr_keeps (sub hM rfl) ?_
    refine Keeps.set_tests (hit hM rfl) (?_)
    exact g2
  · refine Keeps.set_tests (hit hM rfl) (?_)
    exact g2
  · refine ethDown_keeps (sub hM rfl) ?_
    exact g2
  · exact g2

theorem execTestRun_keeps {M : Nat} {s0 : State} {a0 : Origin} {a1 : List Byte} {a2 : State} (hM : 79457043478 ||| M = M) (h0 : Keeps M s0 a2) :
    KeepsR M s0 (execTestRun a0 a1 a2) := by
  unfold execTestRun
  extract_lets +onlyGivenNames -lift x0
  clear_value x0
  extract_lets +onlyGivenNames -lift x1
  clear_value x1
  extract_lets +onlyGivenNames -lift x2
  clear_value x2
  extract_lets +onlyGivenNames -lift x3
  clear_value x3
  refine command_keeps (sub hM rfl) ?_ ?_
  · intro w4 k5
    refine Keeps.ite ?_ ?_
    · refine reply_keeps (sub hM rfl) ?_
      exact k5
    · refine Keeps.ite ?_ ?_
      · refine reply_keeps (sub hM rfl) ?_
        exact k5
      · refine testStart_keeps (sub hM rfl) ?_
        refine reply_keeps (sub hM rfl) ?_
        exact k5
  · exact h0

theorem execTestStatus_keeps {M : Nat} {s0 : State} {a0 : Origin} {a1 : List Byte} {a2 : State} (hM : 8589952001 ||| M = M) (h0 : Keeps M s0 a2) :
    KeepsR M s0 (execTestStatus a0 a1 a2) := by
  unfold execTestStatus
  extract_lets +onlyGivenNames -lift x0
  clear_value x0
  extract_lets +onlyGivenNames -lift x1
  clear_value x1
  refine command_keeps (sub hM rfl) ?_ ?_
  · intro w3 k4
    extract_lets +onlyGivenNames -lift x5
    clear_value x5
    refine Keeps.ite ?_ ?_
    · refine reply_keeps (sub hM rfl) ?_
      exact k4
    · split
      · rename_i y6 y7 y8 y9
        refine Keeps2.elim (m := M) (s0 := s0) y9 ?_ (fun g10 => ?_)
        · refine Keeps2.ite ?_ ?_
          · refine drawFree_keeps (sub hM rfl) ?_
            exact k4
          · refine Keeps2.mk ?_
            exact k4
        refine reply_keeps (sub hM rfl) ?_
        exact g10
  · exact h0

theorem rotRetired_keeps {M : Nat} {s0 : State} {a0 : Nat} {a1 : State} (hM : 132114 ||| M = M) (h0 : Keeps M s0 a1) :
    Keeps M s0 (rotRetired a0 a1) := by
  unfold rotRetired
  refine retireDone_keeps (sub hM rfl) ?_
  refine updComb_keeps (sub hM rfl) ?_
  exact h0

theorem rotFailed_keeps {M : Nat} {s0 : State} {a0 : BankRot} {a1 : State} (hM : 68719608850 ||| M = M) (h0 : Keeps M s0 a1) :
    Keeps M s0 (rotFailed a0 a1) := by
  unfold rotFailed
  extract_lets +onlyGivenNames -lift x0
  clear_value x0
  extract_lets +onlyGivenNames -lift x1
  have g2 : Keeps M s0 x1 := by
    refine Keeps.ite ?_ ?_
    · refine rotRetired_keeps (sub hM rfl) ?_
      exact h0
    · refine raise_keeps (sub hM rfl) ?_
      refine updNbank_keeps (sub hM rfl) ?_
      refine bankBack_keeps (sub hM rfl) ?_
      exact h0
  clear_value x1
  refine rotNext_keeps (sub hM rfl) ?_
  refine leaveVoq_keeps (sub hM rfl) ?_
  exact g2

theorem execBankRotStepDone_keeps {M : Nat} {s0 : State} {a0 : Bool} {a1 : State} (hM : 68719608914 ||| M = M) (h0 : Keeps M s0 a1) :
    KeepsR M s0 (execBankRotStepDone a0 a1) := by
  unfold execBankRotStepDone
  split
  · refine KeepsR.next ?_
    exact h0
  · extract_lets +onlyGivenNames -lift x1
    clear_value x1
    extract_lets +onlyGivenNames -lift x2
    have g3 : ∀ v0 v1, Keeps M s0 v1 → Keeps M s0 (x2 v0 v1) := by
      intro w4 w5 k6
      unfold x2
      extract_lets +onlyGivenNames -lift x7
      clear_value x7
      refine Keeps.set_tests (hit hM rfl) (?_)
      exact k6
    clear_value x2
    extract_lets +onlyGivenNames -lift x8
    have g9 : Keeps M s0 x8 := by
      refine Keeps.ite ?_ ?_
      · refine rotRetired_keeps (sub hM rfl) ?_
        exact h0
      · refine updNbank_keeps (sub hM rfl) ?_
        refine bankBack_keeps (sub hM rfl) ?_
        exact h0
    clear_value x8
    split
    · refine KeepsR.ite ?_ ?_
      · refine KeepsR.next ?_
        refine g3 _ _ ?_
        refine relocate_keeps (sub hM rfl) ?_
        exact h0
      · refine KeepsR.next ?_
        exact h0
    · refine KeepsR.next ?_
      refine Keeps.ite ?_ ?_
      · refine g3 _ _ ?_
        refine enterVoq_keeps (sub hM rfl) ?_
        exact h0
      · refine rotFailed_keeps (sub hM rfl) ?_
        exact h0
    · refine KeepsR.next ?_
      refine Keeps.ite ?_ ?_
      · refine g3 _ _ ?_
        exact h0
      · refine rotFailed_keeps (sub hM rfl) ?_
        exact h0
    · refine KeepsR.next ?_
      refine rotNext_keeps (sub hM rfl) ?_
      refine leaveVoq_keeps (sub hM rfl) ?_
      exact g9

theorem scrubPassEnd_keeps {M : Nat} {s0 : State} {a0 : State} (hM : 68719607827 ||| M = M) (h0 : Keeps M s0 a0) :
    Keeps M s0 (scrubPassEnd a0) := by
  unfold scrubPassEnd
  extract_lets +onlyGivenNames -lift x0
  have g1 : Keeps M s0 x0 := by
    refine wr_keeps (sub hM rfl) ?_
    refine wr_keeps (sub hM rfl) ?_
    exact h0
  clear_value x0
  extract_lets +onlyGivenNames -lift x2
  clear_value x2
  extract_lets +onlyGivenNames -lift x3
  clear_value x3
  extract_lets +onlyGivenNames -lift x4
  clear_value x4
  extract_lets +onlyGivenNames -lift x5
  clear_value x5
  extract_lets +onlyGivenNames -lift x6
  have g7 : Keeps M s0 x6 := by
    refine Keeps.set_tests (hit hM rfl) (?_)
    exact g1
  clear_value x6
  refine Keeps.ite ?_ ?_
  · split
    · rename_i y8 y9 y10 y11
      refine Keeps2.elim (m := M) (s0 := s0) y11 ?_ (fun g12 => ?_)
      · refine Keeps2.ite ?_ ?_
        · refine drawFree_keeps (sub hM rfl) ?_
          exact g7
        · refine Keeps2.mk ?_
          exact g7
      refine endTest_keeps (sub hM rfl) ?_
      exact g12
  · exact g7

theorem scrubError_keeps {M : Nat} {s0 : State} {a0 : Nat} {a1 : State} (hM : 68719607828 ||| M = M) (h0 : Keeps M s0 a1) :
    Keeps M s0 (scrubError a0 a1) := by
  unfold scrubError
  extract_lets +onlyGivenNames -lift x0
  have g1 : Keeps M s0 x0 := by
    refine logErr_keeps (sub hM rfl) ?_
    refine count_keeps (sub hM rfl) ?_
    exact h0
  clear_value x0
  extract_lets +onlyGivenNames -lift x2
  clear_value x2
  extract_lets +onlyGivenNames -lift x3
  have g4 : Keeps M s0 x3 := by
    refine Keeps.ite ?_ ?_
    · refine count_keeps (sub hM rfl) ?_
      exact g1
    · exact g1
  clear_value x3
  extract_lets +onlyGivenNames -lift x5
  clear_value x5
  refine Keeps.set_tests (hit hM rfl) (?_)
  exact g4

theorem execScrubBurst_keeps {M : Nat} {s0 : State} {a0 : Fin 4} {a1 : State} (hM : 68719607831 ||| M = M) (h0 : Keeps M s0 a1) :
    KeepsR M s0 (execScrubBurst a0 a1) := by
  unfold execScrubBurst
  extract_lets +onlyGivenNames -lift x0
  clear_value x0
  extract_lets +onlyGivenNames -lift x1
  have g2 : Keeps M s0 x1 := by
    refine countBy_keeps (sub hM rfl) ?_
    refine wr_keeps (sub hM rfl) ?_
    exact h0
  clear_value x1
  extract_lets +onlyGivenNames -lift x3
  have g4 : Keeps M s0 x3 := by
    refine Keeps.ite ?_ ?_
    · refine scrubError_keeps (sub hM rfl) ?_
      exact g2
    · exact g2
  clear_value x3
  extract_lets +onlyGivenNames -lift x5
  clear_value x5
  extract_lets +onlyGivenNames -lift x6
  have g7 : Keeps M s0 x6 := by
    refine Keeps.set_tests (hit hM rfl) (?_)
    exact g4
  clear_value x6
  extract_lets +onlyGivenNames -lift x8
  clear_value x8
  extract_lets +onlyGivenNames -lift x9
  have g10 : Keeps M s0 x9 := by
    refine Keeps.ite ?_ ?_
    · refine setTest_keeps (sub hM rfl) ?_
      exact g7
    · exact g7
  clear_value x9
  refine KeepsR.ite ?_ ?_
  · refine KeepsR.next ?_
    exact h0
  · refine KeepsR.next ?_
    refine Keeps.ite ?_ ?_
    · refine scrubPassEnd_keeps (sub hM rfl) ?_
      exact g10
    · exact g10

theorem rewriteEntry_keeps {M : Nat} {s0 : State} {a0 : Nat} {a1 : Nat} {a2 : State} (hM : 512 ||| M = M) (h0 : Keeps M s0 a2) :
    Keeps M s0 (rewriteEntry a0 a1 a2) := by
  unfold rewriteEntry
  extract_lets +onlyGivenNames -lift x0
  clear_value x0
  extract_lets +onlyGivenNames -lift x1
  have g2 : Keeps M s0 x1 := by
    refine setTbl_keeps (sub hM rfl) ?_
    exact h0
  clear_value x1
  refine updTopo_keeps (sub hM rfl) ?_
  exact g2

theorem execTblCmpDone_keeps {M : Nat} {s0 : State} {a0 : List Nat} {a1 : List Nat} {a2 : State} (hM : 68719611479 ||| M = M) (h0 : Keeps M s0 a2) :
    KeepsR M s0 (execTblCmpDone a0 a1 a2) := by
  unfold execTblCmpDone
  extract_lets +onlyGivenNames -lift x0
  clear_value x0
  split
  · refine KeepsR.next ?_
    exact h0
  · extract_lets +onlyGivenNames -lift x2
    clear_value x2
    extract_lets +onlyGivenNames -lift x3
    clear_value x3
    extract_lets +onlyGivenNames -lift x4
    have g5 : Keeps M s0 x4 := by
      refine forAll_keeps (sub hM rfl) ?_ ?_
      · intro w6 w7 k8
        refine rewriteEntry_keeps (sub hM rfl) ?_
        exact k8
      · refine Keeps.set_tests (hit hM rfl) (?_)
        exact h0
    clear_value x4
    extract_lets +onlyGivenNames -lift x9
    have g10 : Keeps M s0 x9 := by
      refine retryAll_keeps (sub hM rfl) ?_
      refine forAll_keeps (sub hM rfl) ?_ ?_
      · intro w11 w12 k13
        refine masterError_keeps (sub hM rfl) ?_
        exact k13
      · exact g5
    clear_value x9
    extract_lets +onlyGivenNames -lift x14
    clear_value x14
    refine KeepsR.ite ?_ ?_
    · refine KeepsR.next ?_
      exact h0
    · split
      · rename_i y15 y16 y17 y18
        refine Keeps2.elim (m := M) (s0 := s0) y18 ?_ (fun g19 => ?_)
        · refine Keeps2.ite ?_ ?_
          · refine Keeps2.mk ?_
            exact g10
          · refine drawFree_keeps (sub hM rfl) ?_
            exact g10
        refine KeepsR.next ?_
        refine endTest_keeps (sub hM rfl) ?_
        exact g19

theorem execDisruptiveTestDone_keeps {M : Nat} {s0 : State} {a0 : Nat} {a1 : Bool} {a2 : BitVec 64} {a3 : State} (hM : 68719607824 ||| M = M) (h0 : Keeps M s0 a3) :
    KeepsR M s0 (execDisruptiveTestDone a0 a1 a2 a3) := by
  unfold execDisruptiveTestDone
  split
  · refine KeepsR.next ?_
    exact h0
  · refine KeepsR.next ?_
    refine endTest_keeps (sub hM rfl) ?_
    exact h0

theorem execEyeMargin_keeps {M : Nat} {s0 : State} {a0 : Origin} {a1 : List Byte} {a2 : State} (hM : 77309428736 ||| M = M) (h0 : Keeps M s0 a2) :
    KeepsR M s0 (execEyeMargin a0 a1 a2) := by
  unfold execEyeMargin
  extract_lets +onlyGivenNames -lift x0
  clear_value x0
  extract_lets +onlyGivenNames -lift x1
  clear_value x1
  refine command_keeps (sub hM rfl) ?_ ?_
  · intro w3 k4
    extract_lets +onlyGivenNames -lift x5
    clear_value x5
    refine Keeps.ite ?_ ?_
    · refine reply_keeps (sub hM rfl) ?_
      exact k4
    · refine Keeps.ite ?_ ?_
      · refine reply_keeps (sub hM rfl) ?_
        exact k4
      · refine Keeps.set_tests (hit hM rfl) (?_)
        exact k4
  · exact h0

theorem execEyeMarginDone_keeps {M : Nat} {s0 : State} {a0 : List Byte} {a1 : State} (hM : 77309428736 ||| M = M) (h0 : Keeps M s0 a1) :
    KeepsR M s0 (execEyeMarginDone a0 a1) := by
  unfold execEyeMarginDone
  extract_lets +onlyGivenNames -lift x0
  clear_value x0
  extract_lets +onlyGivenNames -lift x1
  have g2 : Keeps M s0 x1 := by
    refine Keeps.set_tests (hit hM rfl) (?_)
    exact h0
  clear_value x1
  extract_lets +onlyGivenNames -lift x3
  clear_value x3
  split
  · refine KeepsR.next ?_
    exact h0
  · extract_lets +onlyGivenNames -lift x5
    clear_value x5
    extract_lets +onlyGivenNames -lift x6
    clear_value x6
    refine KeepsR.next ?_
    refine Keeps.ite ?_ ?_
    · refine reply_keeps (sub hM rfl) ?_
      exact g2
    · refine reply_keeps (sub hM rfl) ?_
      exact g2

theorem execLogRead_keeps {M : Nat} {s0 : State} {a0 : Origin} {a1 : List Byte} {a2 : State} (hM : 8590083072 ||| M = M) (h0 : Keeps M s0 a2) :
    KeepsR M s0 (execLogRead a0 a1 a2) := by
  unfold execLogRead
  extract_lets +onlyGivenNames -lift x0
  clear_value x0
  extract_lets +onlyGivenNames -lift x1
  clear_value x1
  extract_lets +onlyGivenNames -lift x2
  clear_value x2
  extract_lets +onlyGivenNames -lift x3
  clear_value x3
  refine command_keeps (sub hM rfl) ?_ ?_
  · intro w5 k6
    extract_lets +onlyGivenNames -lift x7
    clear_value x7
    extract_lets +onlyGivenNames -lift x8
    clear_value x8
    extract_lets +onlyGivenNames -lift x9
    clear_value x9
    extract_lets +onlyGivenNames -lift x10
    have g11 : Keeps M s0 x10 := by
      refine Keeps.ite ?_ ?_
      · refine Keeps.set_diag (hit hM rfl) (?_)
        exact k6
      · exact k6
    clear_value x10
    refine Keeps.ite ?_ ?_
    · refine reply_keeps (sub hM rfl) ?_
      exact k6
    · refine reply_keeps (sub hM rfl) ?_
      exact g11
  · exact h0

theorem execNorLogWrite_keeps {M : Nat} {s0 : State} {a0 : Bool} {a1 : State} (hM : 274878038018 ||| M = M) (h0 : Keeps M s0 a1) :
    KeepsR M s0 (execNorLogWrite a0 a1) := by
  unfold execNorLogWrite
  extract_lets +onlyGivenNames -lift x0
  clear_value x0
  extract_lets +onlyGivenNames -lift x1
  clear_value x1
  extract_lets +onlyGivenNames -lift x2
  have g3 : Keeps M s0 x2 := by
    refine Keeps.ite ?_ ?_
    · refine norErase_keeps (sub hM rfl) ?_
      exact h0
    · exact h0
  clear_value x2
  split
  · refine KeepsR.next ?_
    exact h0
  · extract_lets +onlyGivenNames -lift x5
    clear_value x5
    extract_lets +onlyGivenNames -lift x6
    have g7 : Keeps M s0 x6 := by
      refine norProgram_keeps (sub hM rfl) ?_
      exact g3
    clear_value x6
    refine KeepsR.ite ?_ ?_
    · refine KeepsR.next ?_
      exact h0
    · refine KeepsR.ite ?_ ?_
      · refine KeepsR.next ?_
        refine wr_keeps (sub hM rfl) ?_
        exact h0
      · refine KeepsR.next ?_
        refine Keeps.set_diag (hit hM rfl) (?_)
        exact g7

theorem execTempSample_keeps {M : Nat} {s0 : State} {a0 : Slot} {a1 : BitVec 12} {a2 : State} (hM : 131090 ||| M = M) (h0 : Keeps M s0 a2) :
    KeepsR M s0 (execTempSample a0 a1 a2) := by
  unfold execTempSample
  extract_lets +onlyGivenNames -lift x0
  clear_value x0
  extract_lets +onlyGivenNames -lift x1
  have g2 : Keeps M s0 x1 := by
    refine wr_keeps (sub hM rfl) ?_
    refine wr_keeps (sub hM rfl) ?_
    exact h0
  clear_value x1
  extract_lets +onlyGivenNames -lift x3
  have g4 : Keeps M s0 x3 := by
    refine raise_keeps (sub hM rfl) ?_
    refine wr_keeps (sub hM rfl) ?_
    exact g2
  clear_value x3
  refine KeepsR.ite ?_ ?_
  · refine KeepsR.ite ?_ ?_
    · refine KeepsR.next ?_
      refine Keeps.ite ?_ ?_
      · exact g4
      · refine logErr_keeps (sub hM rfl) ?_
        exact g4
    · refine KeepsR.next ?_
      exact g2
  · refine KeepsR.next ?_
    exact h0

theorem execDieLstatRead_keeps {M : Nat} {s0 : State} {a0 : EntryPoint} {a1 : Slot} {a2 : State} (hM : 1057830 ||| M = M) (h0 : Keeps M s0 a2) :
    KeepsR M s0 (execDieLstatRead a0 a1 a2) := by
  unfold execDieLstatRead
  extract_lets +onlyGivenNames -lift x0
  clear_value x0
  refine access_keeps (sub hM rfl) ?_ ?_
  · intro w1 k2
    refine returned_keeps (sub hM rfl) ?_
    refine readReg_keeps (sub hM rfl) ?_
    exact k2
  · exact h0

/-! Idle. -/

theorem advanceLt_keeps {M : Nat} {s0 : State} {a0 : State} (hM : 327680 ||| M = M) (h0 : Keeps M s0 a0) :
    Keeps M s0 (advanceLt a0) := by
  have g : ∀ x y, Keeps M s0 { a0 with lt := x, time := y } := fun x y =>
    { h0 with
      same := fun i b => by refine Eq.trans ?_ (h0.same i b); unfold State.part; split <;> first | exact hit hM rfl b | rfl
      wf := fun w => let q := h0.wf w; ⟨q.regs, q.ctrs, q.srcs, q.deep, q.nor⟩ }
  unfold advanceLt
  exact Keeps.ite h0 (Keeps.ite (Keeps.ite (g _ _) h0) (Keeps.set_lt (hit hM rfl) h0))

theorem pauseTick_keeps {M : Nat} {s0 : State} {a0 : State} (hM : 2147483648 ||| M = M) (h0 : Keeps M s0 a0) :
    Keeps M s0 (pauseTick a0) := by
  unfold pauseTick
  refine forAll_keeps (sub hM rfl) ?_ ?_
  · intro w0 w1 k2
    refine Keeps.ite ?_ ?_
    · refine pauseCheck_keeps (sub hM rfl) ?_
      exact k2
    · exact k2
  · exact h0


end Sys2Proof.Machine
end

