-- ==== Sys2Proof/Laws/Next.lean ====
section
/-! SUPPORT. Every command answers a next state, but for the few whose operands the row's own size check refuses. -/
namespace Sys2Proof.Machine

-- One theorem at a time, so that the package as one text compiles within its memory limit.
set_option Elab.async false

theorem command_next (o : Origin) (body : List Byte) (n : Nat) (f : State → State) (s : State) : ∃ t, command o body n f s = .next t := by
  unfold command; split; · exact ⟨_, rfl⟩
  dsimp only; split <;> exact ⟨_, rfl⟩

theorem commandV_next (o : Origin) (b : Bool) (f : State → State) (s : State) : ∃ t, commandV o b f s = .next t := by
  unfold commandV; split; · exact ⟨_, rfl⟩
  dsimp only; split <;> exact ⟨_, rfl⟩

theorem efCommand_next (o : Origin) (body : List Byte) (n : Nat) (good : Nat → State → Bool) (g : Nat → State → State) (s : State) :
    ∃ t, efCommand o body n good g s = .next t := by
  unfold efCommand; exact command_next ..

theorem access_next (a : Nat) (f : State → State) (s : State) : ∃ t, access a f s = .next t := by
  unfold access; split <;> exact ⟨_, rfl⟩

theorem execRegisterWrite_next (a0 : EntryPoint) (a1 : Bool) (a2 : Nat) (a3 : Word) (s : State) :
    ∃ t, execRegisterWrite a0 a1 a2 a3 s = .next t := by
  unfold execRegisterWrite
  split <;> exact ⟨_, rfl⟩

theorem execTolgerCellReceive_next (a0 : Slot) (a1 : Bool) (a2 : Fin 2) (a3 : Bool) (s : State) :
    ∃ t, execTolgerCellReceive a0 a1 a2 a3 s = .next t := by
  unfold execTolgerCellReceive
  extract_lets
  clear_value *
  repeat' first | exact ⟨_, rfl⟩ | split

theorem execTolgerFlitReceive_next (a0 : Slot) (a1 : Bool) (a2 : SideFlit) (s : State) :
    ∃ t, execTolgerFlitReceive a0 a1 a2 s = .next t := by
  unfold execTolgerFlitReceive
  extract_lets
  clear_value *
  repeat' first | exact ⟨_, rfl⟩ | split

theorem execTolgerNak_next (a0 : Slot) (a1 : Bool) (a2 : Bool) (s : State) : ∃ t, execTolgerNak a0 a1 a2 s = .next t := by
  unfold execTolgerNak
  extract_lets
  clear_value *
  repeat' first | exact ⟨_, rfl⟩ | split

theorem execTolgerCreditReturn_next (a0 : Slot) (a1 : Bool) (a2 : Fin 2) (s : State) :
    ∃ t, execTolgerCreditReturn a0 a1 a2 s = .next t := by
  unfold execTolgerCreditReturn
  extract_lets
  split <;> exact ⟨_, rfl⟩

theorem execTolgerBeatPair_next (a0 : Slot) (a1 : Bool) (s : State) : ∃ t, execTolgerBeatPair a0 a1 s = .next t := by
  unfold execTolgerBeatPair
  extract_lets
  clear_value *
  repeat' first | exact ⟨_, rfl⟩ | split

theorem execTolgerRelink_next (a0 : Slot) (s : State) : ∃ t, execTolgerRelink a0 s = .next t := by
  unfold execTolgerRelink
  extract_lets
  clear_value *
  repeat' first | exact ⟨_, rfl⟩ | split

theorem execDomainQuiesce_next (a0 : Origin) (a1 : List Byte) (s : State) : ∃ t, execDomainQuiesce a0 a1 s = .next t := by
  unfold execDomainQuiesce
  exact command_next ..

theorem execDrainComplete_next (a0 : Nat) (s : State) : ∃ t, execDrainComplete a0 s = .next t := by
  unfold execDrainComplete
  split <;> exact ⟨_, rfl⟩

theorem execDrainLimitExpiry_next (a0 : Nat) (s : State) : ∃ t, execDrainLimitExpiry a0 s = .next t := by
  unfold execDrainLimitExpiry
  repeat' first | exact ⟨_, rfl⟩ | split

theorem execDomainReset_next (a0 : Origin) (a1 : List Byte) (s : State) : ∃ t, execDomainReset a0 a1 s = .next t := by
  unfold execDomainReset
  exact command_next ..

theorem execResetTimeEnd_next (a0 : Nat) (s : State) : ∃ t, execResetTimeEnd a0 s = .next t := by
  unfold execResetTimeEnd
  extract_lets
  clear_value *
  repeat' first | exact ⟨_, rfl⟩ | split

theorem execDomainReturn_next (a0 : Origin) (a1 : List Byte) (s : State) : ∃ t, execDomainReturn a0 a1 s = .next t := by
  unfold execDomainReturn
  exact command_next ..

theorem execReturningComplete_next (a0 : Nat) (s : State) : ∃ t, execReturningComplete a0 s = .next t := by
  unfold execReturningComplete
  extract_lets
  clear_value *
  repeat' first | exact ⟨_, rfl⟩ | split

theorem execReturnTimeout_next (a0 : Nat) (s : State) : ∃ t, execReturnTimeout a0 s = .next t := by
  unfold execReturnTimeout
  split <;> exact ⟨_, rfl⟩

theorem execDomainStatus_next (a0 : Origin) (a1 : List Byte) (s : State) : ∃ t, execDomainStatus a0 a1 s = .next t := by
  unfold execDomainStatus
  exact command_next ..

theorem execLdWarmReset_next (a0 : Origin) (a1 : List Byte) (s : State) : ∃ t, execLdWarmReset a0 a1 s = .next t := by
  unfold execLdWarmReset
  exact command_next ..

theorem execPortEnable_next (a0 : LPort) (a1 : Bool) (s : State) : ∃ t, execPortEnable a0 a1 s = .next t := by
  unfold execPortEnable
  exact access_next ..

theorem execTrainingPhaseTimeout_next (a0 : LPort) (s : State) : ∃ t, execTrainingPhaseTimeout a0 s = .next t := by
  unfold execTrainingPhaseTimeout
  extract_lets
  split <;> exact ⟨_, rfl⟩

theorem execTrainRestartTimer_next (a0 : LPort) (s : State) : ∃ t, execTrainRestartTimer a0 s = .next t := by
  unfold execTrainRestartTimer
  extract_lets
  split <;> exact ⟨_, rfl⟩

theorem execWordLock_next (a0 : LPort) (a1 : Fin 4) (s : State) : ∃ t, execWordLock a0 a1 s = .next t := by
  unfold execWordLock
  extract_lets
  split <;> exact ⟨_, rfl⟩

theorem execCap_next (a0 : LPort) (a1 : BitVec 48) (s : State) : ∃ t, execCap a0 a1 s = .next t := by
  unfold execCap
  exact ⟨_, rfl⟩

theorem execPrbsLock_next (a0 : LPort) (s : State) : ∃ t, execPrbsLock a0 s = .next t := by
  unfold execPrbsLock
  extract_lets
  split <;> exact ⟨_, rfl⟩

theorem execAlignLast_next (a0 : LPort) (s : State) : ∃ t, execAlignLast a0 s = .next t := by
  unfold execAlignLast
  extract_lets
  clear_value *
  repeat' first | exact ⟨_, rfl⟩ | split

theorem execOsSlotReceive_next (a0 : LPort) (a1 : List Byte) (s : State)
    (h : Instr.wellFormed (.osSlotReceive a0 a1) = true) :
    ∃ t, execOsSlotReceive a0 a1 s = .next t := by
  simp only [Instr.wellFormed, slotBytes, beq_iff_eq] at h
  unfold execOsSlotReceive
  rw [if_neg (by omega)]
  exact ⟨_, rfl⟩

theorem execDozeWordReceive_next (a0 : LPort) (a1 : BitVec 80) (s : State) : ∃ t, execDozeWordReceive a0 a1 s = .next t := by
  unfold execDozeWordReceive
  extract_lets
  clear_value *
  repeat' first | exact ⟨_, rfl⟩ | split

theorem execUncorrectableCodeword_next (a0 : LPort) (a1 : Nat) (s : State) :
    ∃ t, execUncorrectableCodeword a0 a1 s = .next t := by
  unfold execUncorrectableCodeword
  extract_lets
  split <;> exact ⟨_, rfl⟩

theorem execFcwChkFail_next (a0 : LPort) (s : State) : ∃ t, execFcwChkFail a0 s = .next t := by
  unfold execFcwChkFail
  extract_lets
  clear_value *
  repeat' first | exact ⟨_, rfl⟩ | split

theorem execHumIdleTimeout_next (a0 : LPort) (s : State) : ∃ t, execHumIdleTimeout a0 s = .next t := by
  unfold execHumIdleTimeout
  exact ⟨_, rfl⟩

theorem execDozeIdleTimeout_next (a0 : LPort) (s : State) : ∃ t, execDozeIdleTimeout a0 s = .next t := by
  unfold execDozeIdleTimeout
  exact ⟨_, rfl⟩

theorem execDormantIdleTimeout_next (a0 : LPort) (s : State) : ∃ t, execDormantIdleTimeout a0 s = .next t := by
  unfold execDormantIdleTimeout
  exact ⟨_, rfl⟩

theorem execStateReq_next (a0 : LPort) (a1 : Fin 4) (s : State) : ∃ t, execStateReq a0 a1 s = .next t := by
  unfold execStateReq
  exact ⟨_, rfl⟩

theorem execStateAck_next (a0 : LPort) (a1 : Fin 4) (s : State) : ∃ t, execStateAck a0 a1 s = .next t := by
  unfold execStateAck
  exact ⟨_, rfl⟩

theorem execStateNak_next (a0 : LPort) (a1 : Fin 4) (s : State) : ∃ t, execStateNak a0 a1 s = .next t := by
  unfold execStateNak
  exact ⟨_, rfl⟩

theorem execStateAnswerTimeout_next (a0 : LPort) (s : State) : ∃ t, execStateAnswerTimeout a0 s = .next t := by
  unfold execStateAnswerTimeout
  exact ⟨_, rfl⟩

theorem execWake_next (a0 : LPort) (s : State) : ∃ t, execWake a0 s = .next t := by
  unfold execWake
  exact ⟨_, rfl⟩

theorem execExitComplete_next (a0 : LPort) (s : State) : ∃ t, execExitComplete a0 s = .next t := by
  unfold execExitComplete
  extract_lets
  split <;> exact ⟨_, rfl⟩

theorem execExitTimeout_next (a0 : LPort) (s : State) : ∃ t, execExitTimeout a0 s = .next t := by
  unfold execExitTimeout
  extract_lets
  split <;> exact ⟨_, rfl⟩

theorem execMaxstateWrite_next (a0 : LPort) (a1 : Fin 4) (s : State) : ∃ t, execMaxstateWrite a0 a1 s = .next t := by
  unfold execMaxstateWrite
  exact access_next ..

theorem execWaggle_next (a0 : LPort) (a1 : BitVec 14) (a2 : BitVec 6) (s : State) : ∃ t, execWaggle a0 a1 a2 s = .next t := by
  unfold execWaggle
  exact ⟨_, rfl⟩

theorem execSignalDetectLoss_next (a0 : LPort) (a1 : Bool) (s : State) : ∃ t, execSignalDetectLoss a0 a1 s = .next t := by
  unfold execSignalDetectLoss
  exact ⟨_, rfl⟩

theorem execLaneFail_next (a0 : LPort) (a1 : Fin 4) (s : State) : ∃ t, execLaneFail a0 a1 s = .next t := by
  unfold execLaneFail
  extract_lets
  split <;> exact ⟨_, rfl⟩

theorem execLaneErrorWindow_next (a0 : LPort) (a1 : Fin 4) (a2 : Nat) (s : State) :
    ∃ t, execLaneErrorWindow a0 a1 a2 s = .next t := by
  unfold execLaneErrorWindow
  extract_lets
  split <;> exact ⟨_, rfl⟩

theorem execLaneRetireReq_next (a0 : LPort) (a1 : Fin 4) (s : State) : ∃ t, execLaneRetireReq a0 a1 s = .next t := by
  unfold execLaneRetireReq
  exact access_next ..

theorem execLaneRetire_next (a0 : LPort) (a1 : BitVec 4) (a2 : BitVec 16) (s : State) :
    ∃ t, execLaneRetire a0 a1 a2 s = .next t := by
  unfold execLaneRetire
  exact ⟨_, rfl⟩

theorem execRetireFrameSwitch_next (a0 : LPort) (a1 : Bool) (s : State) : ∃ t, execRetireFrameSwitch a0 a1 s = .next t := by
  unfold execRetireFrameSwitch
  repeat' first | exact ⟨_, rfl⟩ | (extract_lets; clear_value *) | split

theorem execCellReceive_next (a0 : LPort) (a1 : List Byte) (s : State)
    (h : Instr.wellFormed (.cellReceive a0 a1) = true) :
    ∃ t, execCellReceive a0 a1 s = .next t := by
  simp only [Instr.wellFormed, slotBytes, beq_iff_eq] at h
  unfold execCellReceive
  rw [if_neg (by omega)]
  exact ⟨_, rfl⟩

theorem execAckFcw_next (a0 : LPort) (a1 : BitVec 13) (s : State) : ∃ t, execAckFcw a0 a1 s = .next t := by
  unfold execAckFcw
  split <;> exact ⟨_, rfl⟩

theorem execNakFcw_next (a0 : LPort) (a1 : BitVec 13) (s : State) : ∃ t, execNakFcw a0 a1 s = .next t := by
  unfold execNakFcw
  extract_lets
  clear_value *
  repeat' first | exact ⟨_, rfl⟩ | split

theorem execNakRetryTimeout_next (a0 : LPort) (s : State) : ∃ t, execNakRetryTimeout a0 s = .next t := by
  unfold execNakRetryTimeout
  split <;> exact ⟨_, rfl⟩

theorem execReplayTimeout_next (a0 : LPort) (s : State) : ∃ t, execReplayTimeout a0 s = .next t := by
  unfold execReplayTimeout
  extract_lets
  split <;> exact ⟨_, rfl⟩

theorem execResyncReplay_next (a0 : LPort) (a1 : BitVec 13) (s : State) : ∃ t, execResyncReplay a0 a1 s = .next t := by
  unfold execResyncReplay
  exact ⟨_, rfl⟩

theorem execResyncInit_next (a0 : LPort) (s : State) : ∃ t, execResyncInit a0 s = .next t := by
  unfold execResyncInit
  exact ⟨_, rfl⟩

theorem execResyncCreq_next (a0 : LPort) (a1 : Fin 4) (s : State) : ∃ t, execResyncCreq a0 a1 s = .next t := by
  unfold execResyncCreq
  exact ⟨_, rfl⟩

theorem execResyncRecall_next (a0 : LPort) (a1 : BitVec 12) (s : State) : ∃ t, execResyncRecall a0 a1 s = .next t := by
  unfold execResyncRecall
  split <;> exact ⟨_, rfl⟩

theorem execCreditFcw_next (a0 : LPort) (a1 : Fin 4) (a2 : BitVec 11) (s : State) : ∃ t, execCreditFcw a0 a1 a2 s = .next t := by
  unfold execCreditFcw
  extract_lets
  split <;> exact ⟨_, rfl⟩

theorem execCreditWord_next (a0 : LPort) (a1 : Fin 4) (a2 : BitVec 16) (a3 : BitVec 12) (s : State) :
    ∃ t, execCreditWord a0 a1 a2 a3 s = .next t := by
  unfold execCreditWord
  exact ⟨_, rfl⟩

theorem execCreditWordPeriod_next (a0 : LPort) (s : State) : ∃ t, execCreditWordPeriod a0 s = .next t := by
  unfold execCreditWordPeriod
  split <;> exact ⟨_, rfl⟩

theorem execCreditStarveTimeout_next (a0 : LPort) (a1 : Fin 4) (s : State) : ∃ t, execCreditStarveTimeout a0 a1 s = .next t := by
  unfold execCreditStarveTimeout
  extract_lets
  split <;> exact ⟨_, rfl⟩

theorem execSlotFill_next (a0 : Fin 17) (a1 : Bool) (s : State) : ∃ t, execSlotFill a0 a1 s = .next t := by
  unfold execSlotFill
  split <;> exact ⟨_, rfl⟩

theorem execCellAdmit_next (a0 : Fin 17) (a1 : Option (Fin 4)) (s : State) : ∃ t, execCellAdmit a0 a1 s = .next t := by
  unfold execCellAdmit
  repeat' first | exact ⟨_, rfl⟩ | (extract_lets; clear_value *) | split

theorem execParkRetry_next (a0 : Fin 18) (a1 : Fin 8) (s : State) : ∃ t, execParkRetry a0 a1 s = .next t := by
  unfold execParkRetry
  exact ⟨_, rfl⟩

theorem execEntryRecomputed_next (a0 : Fin 4) (a1 : Nat) (a2 : Bool) (s : State) :
    ∃ t, execEntryRecomputed a0 a1 a2 s = .next t := by
  unfold execEntryRecomputed
  extract_lets
  split <;> exact ⟨_, rfl⟩

theorem execAddrWrite_next (a0 : Word) (s : State) : ∃ t, execAddrWrite a0 s = .next t := by
  unfold execAddrWrite
  exact access_next ..

theorem execSeedExpansionDone_next (s : State) : ∃ t, execSeedExpansionDone s = .next t := by
  unfold execSeedExpansionDone
  repeat' first | exact ⟨_, rfl⟩ | split

theorem execRebuildDone_next (a0 : Fin 4) (a1 : List Nat) (s : State) : ∃ t, execRebuildDone a0 a1 s = .next t := by
  unfold execRebuildDone
  extract_lets
  split <;> exact ⟨_, rfl⟩

theorem execTblRead_next (a0 : Origin) (a1 : List Byte) (s : State) : ∃ t, execTblRead a0 a1 s = .next t := by
  unfold execTblRead
  exact command_next ..

theorem execTblWrite_next (a0 : Origin) (a1 : List Byte) (s : State) : ∃ t, execTblWrite a0 a1 s = .next t := by
  unfold execTblWrite
  exact commandV_next ..

theorem execTblRebuild_next (a0 : Origin) (a1 : List Byte) (s : State) : ∃ t, execTblRebuild a0 a1 s = .next t := by
  unfold execTblRebuild
  exact command_next ..

theorem execTblSwap_next (a0 : Origin) (a1 : List Byte) (s : State) : ∃ t, execTblSwap a0 a1 s = .next t := by
  unfold execTblSwap
  exact command_next ..

theorem execAddrAssign_next (a0 : Origin) (a1 : List Byte) (s : State) : ∃ t, execAddrAssign a0 a1 s = .next t := by
  unfold execAddrAssign
  exact command_next ..

theorem execAddrAssignRepeat_next (a0 : LPort) (s : State) : ∃ t, execAddrAssignRepeat a0 s = .next t := by
  unfold execAddrAssignRepeat
  split <;> exact ⟨_, rfl⟩

theorem execRingBreak_next (a0 : LPort) (s : State) : ∃ t, execRingBreak a0 s = .next t := by
  unfold execRingBreak
  repeat' first | exact ⟨_, rfl⟩ | split

theorem execRingHeal_next (a0 : LPort) (s : State) : ∃ t, execRingHeal a0 s = .next t := by
  unfold execRingHeal
  repeat' first | exact ⟨_, rfl⟩ | split

theorem execWtrExpiry_next (a0 : LPort) (s : State) : ∃ t, execWtrExpiry a0 s = .next t := by
  unfold execWtrExpiry
  extract_lets
  clear_value *
  repeat' first | exact ⟨_, rfl⟩ | split

theorem execRingHoldExpiry_next (a0 : LPort) (s : State) : ∃ t, execRingHoldExpiry a0 s = .next t := by
  unfold execRingHoldExpiry
  exact ⟨_, rfl⟩

theorem execRingEnClear_next (s : State) : ∃ t, execRingEnClear s = .next t := by
  unfold execRingEnClear
  exact access_next ..

theorem execBypassWrite_next (a0 : Bool) (s : State) : ∃ t, execBypassWrite a0 s = .next t := by
  unfold execBypassWrite
  exact access_next ..

theorem execBypassSettleExpiry_next (s : State) : ∃ t, execBypassSettleExpiry s = .next t := by
  unfold execBypassSettleExpiry
  exact ⟨_, rfl⟩

theorem execCombCellTime_next (a0 : Option LinkRead) (a1 : Option (BitVec 18)) (s : State) :
    ∃ t, execCombCellTime a0 a1 s = .next t := by
  unfold execCombCellTime
  exact ⟨_, rfl⟩

theorem execSpillRefillDone_next (a0 : Fin 17) (a1 : Fin 5) (a2 : Nat) (s : State) :
    ∃ t, execSpillRefillDone a0 a1 a2 s = .next t := by
  unfold execSpillRefillDone
  extract_lets
  split <;> exact ⟨_, rfl⟩

theorem execFrameDiscardEnd_next (a0 : Fin 18) (a1 : Fin 8) (a2 : Fin 18) (s : State) :
    ∃ t, execFrameDiscardEnd a0 a1 a2 s = .next t := by
  unfold execFrameDiscardEnd
  exact ⟨_, rfl⟩

theorem execAuditDone_next (s : State) : ∃ t, execAuditDone s = .next t := by
  unfold execAuditDone
  split <;> exact ⟨_, rfl⟩

theorem execVoqQueueMove_next (a0 : Fin 17) (a1 : Fin 8) (s : State) : ∃ t, execVoqQueueMove a0 a1 s = .next t := by
  unfold execVoqQueueMove
  extract_lets
  split <;> exact ⟨_, rfl⟩

theorem execFlReady_next (a0 : BitVec 16) (s : State) : ∃ t, execFlReady a0 s = .next t := by
  unfold execFlReady
  split <;> exact ⟨_, rfl⟩

theorem execBankctlRetReq_next (a0 : BitVec 16) (s : State) : ∃ t, execBankctlRetReq a0 s = .next t := by
  unfold execBankctlRetReq
  exact access_next ..

theorem execRelocationDone_next (a0 : Fin 16) (s : State) : ∃ t, execRelocationDone a0 s = .next t := by
  unfold execRelocationDone
  extract_lets
  split <;> exact ⟨_, rfl⟩

theorem execBankctlRtnReq_next (a0 : BitVec 16) (s : State) : ∃ t, execBankctlRtnReq a0 s = .next t := by
  unfold execBankctlRtnReq
  exact access_next ..

theorem execBankReturnDone_next (a0 : Fin 16) (s : State) : ∃ t, execBankReturnDone a0 s = .next t := by
  unfold execBankReturnDone
  extract_lets
  split <;> exact ⟨_, rfl⟩

theorem execForceVoqWrite_next (a0 : Bool) (s : State) : ∃ t, execForceVoqWrite a0 s = .next t := by
  unfold execForceVoqWrite
  exact access_next ..

theorem execShpCtlApply_next (a0 : EntryPoint) (s : State) : ∃ t, execShpCtlApply a0 s = .next t := by
  unfold execShpCtlApply
  exact access_next ..

theorem execShpCtlLoad_next (a0 : EntryPoint) (s : State) : ∃ t, execShpCtlLoad a0 s = .next t := by
  unfold execShpCtlLoad
  exact access_next ..

theorem execPolCtlApply_next (a0 : EntryPoint) (s : State) : ∃ t, execPolCtlApply a0 s = .next t := by
  unfold execPolCtlApply
  exact access_next ..

theorem execPolCtlLoad_next (a0 : EntryPoint) (s : State) : ∃ t, execPolCtlLoad a0 s = .next t := by
  unfold execPolCtlLoad
  exact access_next ..

theorem execXbCfgWrite_next (a0 : Word) (s : State) : ∃ t, execXbCfgWrite a0 s = .next t := by
  unfold execXbCfgWrite
  exact access_next ..

theorem execXbBurstWrite_next (a0 : Word) (s : State) : ∃ t, execXbBurstWrite a0 s = .next t := by
  unfold execXbBurstWrite
  exact access_next ..

theorem execOriginFrameRelease_next (a0 : BitVec 12) (s : State) : ∃ t, execOriginFrameRelease a0 s = .next t := by
  unfold execOriginFrameRelease
  extract_lets
  clear_value *
  repeat' first | exact ⟨_, rfl⟩ | split

theorem execExpressMonitorWindow_next (s : State) : ∃ t, execExpressMonitorWindow s = .next t := by
  unfold execExpressMonitorWindow
  extract_lets
  split <;> exact ⟨_, rfl⟩

theorem execHwmOccRead_next (a0 : EntryPoint) (s : State) : ∃ t, execHwmOccRead a0 s = .next t := by
  unfold execHwmOccRead
  exact access_next ..

theorem execHwmSojRead_next (a0 : EntryPoint) (s : State) : ∃ t, execHwmSojRead a0 s = .next t := by
  unfold execHwmSojRead
  exact access_next ..

theorem execShpApply_next (a0 : Origin) (a1 : List Byte) (s : State) : ∃ t, execShpApply a0 a1 s = .next t := by
  unfold execShpApply
  exact command_next ..

theorem execShpGet_next (a0 : Origin) (a1 : List Byte) (s : State) : ∃ t, execShpGet a0 a1 s = .next t := by
  unfold execShpGet
  exact command_next ..

theorem execPolApply_next (a0 : Origin) (a1 : List Byte) (s : State) : ∃ t, execPolApply a0 a1 s = .next t := by
  unfold execPolApply
  exact command_next ..

theorem execPolGet_next (a0 : Origin) (a1 : List Byte) (s : State) : ∃ t, execPolGet a0 a1 s = .next t := by
  unfold execPolGet
  exact command_next ..

theorem execHwmRead_next (a0 : Origin) (a1 : List Byte) (s : State) : ∃ t, execHwmRead a0 a1 s = .next t := by
  unfold execHwmRead
  exact command_next ..

theorem execTunnelFrameOriginate_next (a0 : Slot) (a1 : BitVec 14) (a2 : List Byte) (s : State) :
    ∃ t, execTunnelFrameOriginate a0 a1 a2 s = .next t := by
  unfold execTunnelFrameOriginate
  split <;> exact ⟨_, rfl⟩

theorem execTunnelCellTerminate_next (a0 : Fin 17) (s : State) : ∃ t, execTunnelCellTerminate a0 s = .next t := by
  unfold execTunnelCellTerminate
  repeat' first | exact ⟨_, rfl⟩ | (extract_lets; clear_value *) | split

theorem execTunGet_next (a0 : Origin) (a1 : List Byte) (s : State) : ∃ t, execTunGet a0 a1 s = .next t := by
  unfold execTunGet
  exact command_next ..

theorem execTunSet_next (a0 : Origin) (a1 : List Byte) (s : State) : ∃ t, execTunSet a0 a1 s = .next t := by
  unfold execTunSet
  exact command_next ..

theorem execTunResetCtx_next (a0 : Origin) (a1 : List Byte) (s : State) : ∃ t, execTunResetCtx a0 a1 s = .next t := by
  unfold execTunResetCtx
  exact command_next ..

theorem execWindowRequest_next (a0 : Bool) (a1 : BitVec 36) (a2 : BitVec 13) (a3 : List Byte) (a4 : Nat) (s : State)
    (h : Instr.wellFormed (.windowRequest a0 a1 a2 a3 a4) = true) :
    ∃ t, execWindowRequest a0 a1 a2 a3 a4 s = .next t := by
  unfold execWindowRequest
  dsimp only
  rw [if_neg]
  · split <;> exact ⟨_, rfl⟩
  · intro hc
    cases a0 <;> simp [Instr.wellFormed, windowPart] at h hc <;> grind

theorem execBrgWriteReceive_next (s : State) : ∃ t, execBrgWriteReceive s = .next t := by
  unfold execBrgWriteReceive
  repeat' first | exact ⟨_, rfl⟩ | (extract_lets; clear_value *) | split

theorem execBrgReadReceive_next (s : State) : ∃ t, execBrgReadReceive s = .next t := by
  unfold execBrgReadReceive
  split <;> exact ⟨_, rfl⟩

theorem execCplReceive_next (s : State) : ∃ t, execCplReceive s = .next t := by
  unfold execCplReceive
  repeat' first | exact ⟨_, rfl⟩ | (extract_lets; clear_value *) | split

theorem execReadTimeout_next (a0 : Fin 1024) (s : State) : ∃ t, execReadTimeout a0 s = .next t := by
  unfold execReadTimeout
  split <;> exact ⟨_, rfl⟩

theorem execPwerrReceive_next (s : State) : ∃ t, execPwerrReceive s = .next t := by
  unfold execPwerrReceive
  split <;> exact ⟨_, rfl⟩

theorem execFenceReceive_next (s : State) : ∃ t, execFenceReceive s = .next t := by
  unfold execFenceReceive
  repeat' first | exact ⟨_, rfl⟩ | (extract_lets; clear_value *) | split

theorem execFenceAckReceive_next (s : State) : ∃ t, execFenceAckReceive s = .next t := by
  unfold execFenceAckReceive
  repeat' first | exact ⟨_, rfl⟩ | (extract_lets; clear_value *) | split

theorem execFenceTimeout_next (a0 : BitVec 14) (s : State) : ∃ t, execFenceTimeout a0 s = .next t := by
  unfold execFenceTimeout
  split <;> exact ⟨_, rfl⟩

theorem execLocalRetry_next (a0 : Nat) (s : State) : ∃ t, execLocalRetry a0 s = .next t := by
  unfold execLocalRetry
  repeat' first | exact ⟨_, rfl⟩ | (extract_lets; clear_value *) | split

theorem execBrgWctlApply_next (a0 : EntryPoint) (s : State) : ∃ t, execBrgWctlApply a0 s = .next t := by
  unfold execBrgWctlApply
  exact access_next ..

theorem execBrgWctlLoad_next (a0 : EntryPoint) (s : State) : ∃ t, execBrgWctlLoad a0 s = .next t := by
  unfold execBrgWctlLoad
  exact access_next ..

theorem execBrgTctlApply_next (a0 : EntryPoint) (s : State) : ∃ t, execBrgTctlApply a0 s = .next t := by
  unfold execBrgTctlApply
  exact access_next ..

theorem execBrgTctlLoad_next (a0 : EntryPoint) (s : State) : ∃ t, execBrgTctlLoad a0 s = .next t := by
  unfold execBrgTctlLoad
  exact access_next ..

theorem execPwlDataRead_next (a0 : EntryPoint) (s : State) : ∃ t, execPwlDataRead a0 s = .next t := by
  unfold execPwlDataRead
  exact access_next ..

theorem execElgDataRead_next (a0 : EntryPoint) (s : State) : ∃ t, execElgDataRead a0 s = .next t := by
  unfold execElgDataRead
  exact access_next ..

theorem execPwlStatRead_next (a0 : EntryPoint) (s : State) : ∃ t, execPwlStatRead a0 s = .next t := by
  unfold execPwlStatRead
  exact access_next ..

theorem execElgStatRead_next (a0 : EntryPoint) (s : State) : ∃ t, execElgStatRead a0 s = .next t := by
  unfold execElgStatRead
  exact access_next ..

theorem execRdstatRead_next (a0 : EntryPoint) (s : State) : ∃ t, execRdstatRead a0 s = .next t := by
  unfold execRdstatRead
  exact access_next ..

theorem execBrgRead_next (a0 : Origin) (a1 : List Byte) (s : State) : ∃ t, execBrgRead a0 a1 s = .next t := by
  unfold execBrgRead
  exact command_next ..

theorem execBrgWrite_next (a0 : Origin) (a1 : List Byte) (s : State) : ∃ t, execBrgWrite a0 a1 s = .next t := by
  unfold execBrgWrite
  exact commandV_next ..

theorem execWriteFence_next (a0 : Origin) (a1 : List Byte) (s : State) : ∃ t, execWriteFence a0 a1 s = .next t := by
  unfold execWriteFence
  exact command_next ..

theorem execPwlRead_next (a0 : Origin) (a1 : List Byte) (s : State) : ∃ t, execPwlRead a0 a1 s = .next t := by
  unfold execPwlRead
  exact command_next ..

theorem execElgRead_next (a0 : Origin) (a1 : List Byte) (s : State) : ∃ t, execElgRead a0 a1 s = .next t := by
  unfold execElgRead
  exact command_next ..

theorem execSyncSendTimer_next (s : State) : ∃ t, execSyncSendTimer s = .next t := by
  unfold execSyncSendTimer
  exact ⟨_, rfl⟩

theorem execDreqSendTimer_next (a0 : LPort) (s : State) : ∃ t, execDreqSendTimer a0 s = .next t := by
  unfold execDreqSendTimer
  split <;> exact ⟨_, rfl⟩

theorem execSync_next (a0 : LPort) (a1 : BitVec 8) (a2 : BitVec 8) (a3 : BitVec 64) (a4 : BitVec 16) (s : State) :
    ∃ t, execSync a0 a1 a2 a3 a4 s = .next t := by
  unfold execSync
  exact ⟨_, rfl⟩

theorem execDreq_next (a0 : LPort) (a1 : BitVec 8) (s : State) : ∃ t, execDreq a0 a1 s = .next t := by
  unfold execDreq
  exact ⟨_, rfl⟩

theorem execDrsp_next (a0 : LPort) (a1 : BitVec 8) (a2 : BitVec 40) (s : State) : ∃ t, execDrsp a0 a1 a2 s = .next t := by
  unfold execDrsp
  exact ⟨_, rfl⟩

theorem execDreqMiss_next (a0 : LPort) (s : State) : ∃ t, execDreqMiss a0 s = .next t := by
  unfold execDreqMiss
  split <;> exact ⟨_, rfl⟩

theorem execSyncLossTimeout_next (s : State) : ∃ t, execSyncLossTimeout s = .next t := by
  unfold execSyncLossTimeout
  exact ⟨_, rfl⟩

theorem execPselWrite_next (a0 : BitVec 3) (s : State) : ∃ t, execPselWrite a0 s = .next t := by
  unfold execPselWrite
  exact access_next ..

theorem execAnnounceTimer_next (s : State) : ∃ t, execAnnounceTimer s = .next t := by
  unfold execAnnounceTimer
  extract_lets
  split <;> exact ⟨_, rfl⟩

theorem execAnnounce_next (s : State) : ∃ t, execAnnounce s = .next t := by
  unfold execAnnounce
  repeat' first | exact ⟨_, rfl⟩ | split

theorem execPpsEdge_next (a0 : Fin 8) (s : State) : ∃ t, execPpsEdge a0 s = .next t := by
  unfold execPpsEdge
  split <;> exact ⟨_, rfl⟩

theorem execXt32RatioWindow_next (a0 : Nat) (s : State) : ∃ t, execXt32RatioWindow a0 s = .next t := by
  unfold execXt32RatioWindow
  exact ⟨_, rfl⟩

theorem execNowHiRead_next (a0 : EntryPoint) (s : State) : ∃ t, execNowHiRead a0 s = .next t := by
  unfold execNowHiRead
  exact access_next ..

theorem execTimeGet_next (a0 : Origin) (a1 : List Byte) (s : State) : ∃ t, execTimeGet a0 a1 s = .next t := by
  unfold execTimeGet
  exact command_next ..

theorem execTimeSet_next (a0 : Origin) (a1 : List Byte) (s : State) : ∃ t, execTimeSet a0 a1 s = .next t := by
  unfold execTimeSet
  exact command_next ..

theorem execArm_next (s : State) : ∃ t, execArm s = .next t := by
  unfold execArm
  split <;> exact ⟨_, rfl⟩

theorem execCancel_next (s : State) : ∃ t, execCancel s = .next t := by
  unfold execCancel
  split <;> exact ⟨_, rfl⟩

theorem execTrgActlArm_next (a0 : EntryPoint) (s : State) : ∃ t, execTrgActlArm a0 s = .next t := by
  unfold execTrgActlArm
  exact access_next ..

theorem execTrgActlCancel_next (a0 : EntryPoint) (s : State) : ∃ t, execTrgActlCancel a0 s = .next t := by
  unfold execTrgActlCancel
  exact access_next ..

theorem execTrigArm_next (a0 : Origin) (a1 : List Byte) (s : State) : ∃ t, execTrigArm a0 a1 s = .next t := by
  unfold execTrigArm
  exact command_next ..

theorem execTrigCancel_next (a0 : Origin) (a1 : List Byte) (s : State) : ∃ t, execTrigCancel a0 a1 s = .next t := by
  unfold execTrigCancel
  exact command_next ..

theorem execPulseStart_next (a0 : Fin 8) (s : State) : ∃ t, execPulseStart a0 s = .next t := by
  unfold execPulseStart
  exact ⟨_, rfl⟩

theorem execPulseEnd_next (a0 : Fin 8) (s : State) : ∃ t, execPulseEnd a0 s = .next t := by
  unfold execPulseEnd
  exact ⟨_, rfl⟩

theorem execPinModeWrite_next (a0 : Fin 8) (a1 : Fin 4) (s : State) : ∃ t, execPinModeWrite a0 a1 s = .next t := by
  unfold execPinModeWrite
  exact access_next ..

theorem execCaptureEdge_next (a0 : Fin 8) (a1 : Bool) (s : State) : ∃ t, execCaptureEdge a0 a1 s = .next t := by
  unfold execCaptureEdge
  extract_lets
  clear_value *
  repeat' first | exact ⟨_, rfl⟩ | split

theorem execCaptRptPeriod_next (a0 : Fin 8) (s : State) : ∃ t, execCaptRptPeriod a0 s = .next t := by
  unfold execCaptRptPeriod
  exact ⟨_, rfl⟩

theorem execCapLoRead_next (a0 : EntryPoint) (a1 : Fin 8) (s : State) : ∃ t, execCapLoRead a0 a1 s = .next t := by
  unfold execCapLoRead
  exact access_next ..

theorem execCaptRead_next (a0 : Origin) (a1 : List Byte) (s : State) : ∃ t, execCaptRead a0 a1 s = .next t := by
  unfold execCaptRead
  exact command_next ..

theorem execHspiStatus_next (s : State) : ∃ t, execHspiStatus s = .next t := by
  unfold execHspiStatus
  exact ⟨_, rfl⟩

theorem execHspiCmdWrite_next (a0 : List Byte) (s : State) : ∃ t, execHspiCmdWrite a0 s = .next t := by
  unfold execHspiCmdWrite
  extract_lets
  split <;> exact ⟨_, rfl⟩

theorem execHspiRspRead_next (a0 : Nat) (s : State) : ∃ t, execHspiRspRead a0 s = .next t := by
  unfold execHspiRspRead
  repeat' first | exact ⟨_, rfl⟩ | (extract_lets; clear_value *) | split

theorem execCmdReplyReceive_next (s : State) : ∃ t, execCmdReplyReceive s = .next t := by
  unfold execCmdReplyReceive
  repeat' first | exact ⟨_, rfl⟩ | (extract_lets; clear_value *) | split

theorem execRelayTimeout_next (a0 : Fin 64) (s : State) : ∃ t, execRelayTimeout a0 s = .next t := by
  unfold execRelayTimeout
  extract_lets
  clear_value *
  repeat' first | exact ⟨_, rfl⟩ | split

theorem execOrphanExpiry_next (a0 : EntryPoint) (s : State) : ∃ t, execOrphanExpiry a0 s = .next t := by
  unfold execOrphanExpiry
  split <;> exact ⟨_, rfl⟩

theorem execSessionIdleTimeout_next (a0 : Fin 33) (s : State) : ∃ t, execSessionIdleTimeout a0 s = .next t := by
  unfold execSessionIdleTimeout
  split <;> exact ⟨_, rfl⟩

theorem execSessionExpiry_next (a0 : Fin 33) (s : State) : ∃ t, execSessionExpiry a0 s = .next t := by
  unfold execSessionExpiry
  repeat' first | exact ⟨_, rfl⟩ | split

theorem execHostselWrite_next (a0 : Bool) (s : State) : ∃ t, execHostselWrite a0 s = .next t := by
  unfold execHostselWrite
  exact ⟨_, rfl⟩

theorem execReadReg_next (a0 : Origin) (a1 : List Byte) (s : State) : ∃ t, execReadReg a0 a1 s = .next t := by
  unfold execReadReg
  exact command_next ..

theorem execWriteReg_next (a0 : Origin) (a1 : List Byte) (s : State) : ∃ t, execWriteReg a0 a1 s = .next t := by
  unfold execWriteReg
  exact command_next ..

theorem execRmwReg_next (a0 : Origin) (a1 : List Byte) (s : State) : ∃ t, execRmwReg a0 a1 s = .next t := by
  unfold execRmwReg
  exact command_next ..

theorem execReadBlk_next (a0 : Origin) (a1 : List Byte) (s : State) : ∃ t, execReadBlk a0 a1 s = .next t := by
  unfold execReadBlk
  exact command_next ..

theorem execWriteBlk_next (a0 : Origin) (a1 : List Byte) (s : State) : ∃ t, execWriteBlk a0 a1 s = .next t := by
  unfold execWriteBlk
  exact commandV_next ..

theorem execRmwBlk_next (a0 : Origin) (a1 : List Byte) (s : State) : ∃ t, execRmwBlk a0 a1 s = .next t := by
  unfold execRmwBlk
  exact commandV_next ..

theorem execReadCtr_next (a0 : Origin) (a1 : List Byte) (s : State) : ∃ t, execReadCtr a0 a1 s = .next t := by
  unfold execReadCtr
  exact command_next ..

theorem execGetInfo_next (a0 : Origin) (a1 : List Byte) (s : State) : ∃ t, execGetInfo a0 a1 s = .next t := by
  unfold execGetInfo
  exact command_next ..

theorem execNop_next (a0 : Origin) (a1 : List Byte) (s : State) : ∃ t, execNop a0 a1 s = .next t := by
  unfold execNop
  exact commandV_next ..

theorem execSessionOpen_next (a0 : Origin) (a1 : List Byte) (s : State) : ∃ t, execSessionOpen a0 a1 s = .next t := by
  unfold execSessionOpen
  exact command_next ..

theorem execSessionClose_next (a0 : Origin) (a1 : List Byte) (s : State) : ∃ t, execSessionClose a0 a1 s = .next t := by
  unfold execSessionClose
  exact command_next ..

theorem execSessionInfo_next (a0 : Origin) (a1 : List Byte) (s : State) : ∃ t, execSessionInfo a0 a1 s = .next t := by
  unfold execSessionInfo
  exact command_next ..

theorem execGetOrphan_next (a0 : Origin) (a1 : List Byte) (s : State) : ∃ t, execGetOrphan a0 a1 s = .next t := by
  unfold execGetOrphan
  exact command_next ..

theorem execCcAttach_next (a0 : Fin 8) (a1 : Bool) (a2 : Bool) (s : State) : ∃ t, execCcAttach a0 a1 a2 s = .next t := by
  unfold execCcAttach
  exact ⟨_, rfl⟩

theorem execCcDetach_next (a0 : Fin 8) (s : State) : ∃ t, execCcDetach a0 s = .next t := by
  unfold execCcDetach
  exact ⟨_, rfl⟩

theorem execVbusSafe0vReached_next (a0 : Fin 8) (s : State) : ∃ t, execVbusSafe0vReached a0 s = .next t := by
  unfold execVbusSafe0vReached
  exact ⟨_, rfl⟩

theorem execVbusEnable_next (a0 : Fin 8) (s : State) : ∃ t, execVbusEnable a0 s = .next t := by
  unfold execVbusEnable
  exact ⟨_, rfl⟩

theorem execVbusOc_next (a0 : Fin 8) (s : State) : ∃ t, execVbusOc a0 s = .next t := by
  unfold execVbusOc
  exact ⟨_, rfl⟩

theorem execPwrwarnReleaseTimer_next (s : State) : ∃ t, execPwrwarnReleaseTimer s = .next t := by
  unfold execPwrwarnReleaseTimer
  split <;> exact ⟨_, rfl⟩

theorem execSourceCapRepeat_next (a0 : Fin 8) (s : State) : ∃ t, execSourceCapRepeat a0 s = .next t := by
  unfold execSourceCapRepeat
  exact ⟨_, rfl⟩

theorem execRequest_next (a0 : Fin 8) (a1 : BitVec 4) (a2 : BitVec 10) (a3 : Bool) (s : State) :
    ∃ t, execRequest a0 a1 a2 a3 s = .next t := by
  unfold execRequest
  exact ⟨_, rfl⟩

theorem execSenderResponseTimeout_next (a0 : Fin 8) (s : State) : ∃ t, execSenderResponseTimeout a0 s = .next t := by
  unfold execSenderResponseTimeout
  exact ⟨_, rfl⟩

theorem execSrcTransitionStart_next (a0 : Fin 8) (s : State) : ∃ t, execSrcTransitionStart a0 s = .next t := by
  unfold execSrcTransitionStart
  exact ⟨_, rfl⟩

theorem execVbusSettled_next (a0 : Fin 8) (s : State) : ∃ t, execVbusSettled a0 s = .next t := by
  unfold execVbusSettled
  exact ⟨_, rfl⟩

theorem execGetSourceCap_next (a0 : PdPort) (s : State) : ∃ t, execGetSourceCap a0 s = .next t := by
  unfold execGetSourceCap
  exact ⟨_, rfl⟩

theorem execGetSourceCapExtended_next (a0 : PdPort) (s : State) : ∃ t, execGetSourceCapExtended a0 s = .next t := by
  unfold execGetSourceCapExtended
  exact ⟨_, rfl⟩

theorem execGetSinkCap_next (a0 : PdPort) (s : State) : ∃ t, execGetSinkCap a0 s = .next t := by
  unfold execGetSinkCap
  exact ⟨_, rfl⟩

theorem execGetRevision_next (a0 : PdPort) (s : State) : ∃ t, execGetRevision a0 s = .next t := by
  unfold execGetRevision
  exact ⟨_, rfl⟩

theorem execSoftReset_next (a0 : PdPort) (s : State) : ∃ t, execSoftReset a0 s = .next t := by
  unfold execSoftReset
  exact ⟨_, rfl⟩

theorem execHardReset_next (a0 : PdPort) (a1 : Bool) (s : State) : ∃ t, execHardReset a0 a1 s = .next t := by
  unfold execHardReset
  exact ⟨_, rfl⟩

theorem execVconnSwap_next (a0 : PdPort) (s : State) : ∃ t, execVconnSwap a0 s = .next t := by
  unfold execVconnSwap
  exact ⟨_, rfl⟩

theorem execPsRdy_next (a0 : PdPort) (s : State) : ∃ t, execPsRdy a0 s = .next t := by
  unfold execPsRdy
  exact ⟨_, rfl⟩

theorem execVconnSourceTimeout_next (a0 : Fin 8) (s : State) : ∃ t, execVconnSourceTimeout a0 s = .next t := by
  unfold execVconnSourceTimeout
  exact ⟨_, rfl⟩

theorem execDrSwap_next (a0 : PdPort) (s : State) : ∃ t, execDrSwap a0 s = .next t := by
  unfold execDrSwap
  exact ⟨_, rfl⟩

theorem execPrSwap_next (a0 : PdPort) (s : State) : ∃ t, execPrSwap a0 s = .next t := by
  unfold execPrSwap
  exact ⟨_, rfl⟩

theorem execUnsupportedPdMessage_next (a0 : PdPort) (a1 : Option (BitVec 5)) (s : State) :
    ∃ t, execUnsupportedPdMessage a0 a1 s = .next t := by
  unfold execUnsupportedPdMessage
  exact ⟨_, rfl⟩

theorem execDiscoverIdentitySopPrime_next (a0 : Fin 8) (a1 : Bool) (s : State) :
    ∃ t, execDiscoverIdentitySopPrime a0 a1 s = .next t := by
  unfold execDiscoverIdentitySopPrime
  exact ⟨_, rfl⟩

theorem execDiscoverIdentityRetry_next (a0 : Fin 8) (s : State) : ∃ t, execDiscoverIdentityRetry a0 s = .next t := by
  unfold execDiscoverIdentityRetry
  exact ⟨_, rfl⟩

theorem execPartnerDiscoveryResponse_next (a0 : Fin 8) (a1 : PartnerAnswer) (s : State) :
    ∃ t, execPartnerDiscoveryResponse a0 a1 s = .next t := by
  unfold execPartnerDiscoveryResponse
  exact ⟨_, rfl⟩

theorem execEnterModeAck_next (a0 : Fin 8) (s : State) : ∃ t, execEnterModeAck a0 s = .next t := by
  unfold execEnterModeAck
  exact ⟨_, rfl⟩

theorem execDpConfigureAck_next (a0 : Fin 8) (s : State) : ∃ t, execDpConfigureAck a0 s = .next t := by
  unfold execDpConfigureAck
  exact ⟨_, rfl⟩

theorem execAttention_next (a0 : Fin 8) (a1 : Bool) (s : State) : ∃ t, execAttention a0 a1 s = .next t := by
  unfold execAttention
  exact ⟨_, rfl⟩

theorem execVdmResponseTimeout_next (a0 : Fin 8) (s : State) : ∃ t, execVdmResponseTimeout a0 s = .next t := by
  unfold execVdmResponseTimeout
  exact ⟨_, rfl⟩

theorem execVconnFault_next (a0 : Fin 8) (s : State) : ∃ t, execVconnFault a0 s = .next t := by
  unfold execVconnFault
  exact ⟨_, rfl⟩

theorem execSinkAdjExpiry_next (a0 : Fin 8) (s : State) : ∃ t, execSinkAdjExpiry a0 s = .next t := by
  unfold execSinkAdjExpiry
  exact ⟨_, rfl⟩

theorem execErrorRecoveryEnd_next (a0 : Fin 8) (s : State) : ∃ t, execErrorRecoveryEnd a0 s = .next t := by
  unfold execErrorRecoveryEnd
  exact ⟨_, rfl⟩

theorem execTcpCfgWrite_next (a0 : Fin 8) (a1 : Word) (s : State) : ∃ t, execTcpCfgWrite a0 a1 s = .next t := by
  unfold execTcpCfgWrite
  exact access_next ..

theorem execPdpBudgetWrite_next (a0 : Fin 2) (a1 : Word) (s : State) : ∃ t, execPdpBudgetWrite a0 a1 s = .next t := by
  unfold execPdpBudgetWrite
  exact access_next ..

theorem execSourceCapabilities_next (a0 : List (Nat × Nat)) (a1 : Bool) (s : State) :
    ∃ t, execSourceCapabilities a0 a1 s = .next t := by
  unfold execSourceCapabilities
  exact ⟨_, rfl⟩

theorem execAccept_next (s : State) : ∃ t, execAccept s = .next t := by
  unfold execAccept
  exact ⟨_, rfl⟩

theorem execWait_next (s : State) : ∃ t, execWait s = .next t := by
  unfold execWait
  exact ⟨_, rfl⟩

theorem execReject_next (s : State) : ∃ t, execReject s = .next t := by
  unfold execReject
  exact ⟨_, rfl⟩

theorem execSinkRequestRetry_next (s : State) : ∃ t, execSinkRequestRetry s = .next t := by
  unfold execSinkRequestRetry
  exact ⟨_, rfl⟩

theorem execPsTransitionTimeout_next (s : State) : ∃ t, execPsTransitionTimeout s = .next t := by
  unfold execPsTransitionTimeout
  exact ⟨_, rfl⟩

theorem execTierFall_next (s : State) : ∃ t, execTierFall s = .next t := by
  unfold execTierFall
  extract_lets
  split <;> exact ⟨_, rfl⟩

theorem execSvcVbusLoss_next (s : State) : ∃ t, execSvcVbusLoss s = .next t := by
  unfold execSvcVbusLoss
  repeat' first | exact ⟨_, rfl⟩ | split

theorem execPdStatus_next (a0 : Origin) (a1 : List Byte) (s : State) : ∃ t, execPdStatus a0 a1 s = .next t := by
  unfold execPdStatus
  exact command_next ..

theorem execPdPortCtl_next (a0 : Origin) (a1 : List Byte) (s : State) : ∃ t, execPdPortCtl a0 a1 s = .next t := by
  unfold execPdPortCtl
  exact command_next ..

theorem execPdBudget_next (a0 : Origin) (a1 : List Byte) (s : State) : ∃ t, execPdBudget a0 a1 s = .next t := by
  unfold execPdBudget
  exact command_next ..

theorem execHubPortChange_next (a0 : Fin 8) (a1 : Fin 7) (a2 : Bool) (s : State) :
    ∃ t, execHubPortChange a0 a1 a2 s = .next t := by
  unfold execHubPortChange
  extract_lets
  clear_value *
  repeat' first | exact ⟨_, rfl⟩ | split

theorem execPrxDbWrite_next (a0 : Fin 2) (a1 : Word) (s : State) : ∃ t, execPrxDbWrite a0 a1 s = .next t := by
  unfold execPrxDbWrite
  exact access_next ..

theorem execDoorbell_next (a0 : Fin 2) (s : State) : ∃ t, execDoorbell a0 s = .next t := by
  unfold execDoorbell
  extract_lets
  split <;> exact ⟨_, rfl⟩

theorem execDescriptorFetch_next (a0 : Fin 2) (a1 : Fin 64) (a2 : Bool) (s : State) :
    ∃ t, execDescriptorFetch a0 a1 a2 s = .next t := by
  unfold execDescriptorFetch
  extract_lets
  clear_value *
  repeat' first | exact ⟨_, rfl⟩ | split

theorem execPeriodicService_next (a0 : Fin 2) (a1 : Fin 64) (a2 : Bool) (s : State) :
    ∃ t, execPeriodicService a0 a1 a2 s = .next t := by
  unfold execPeriodicService
  extract_lets
  clear_value *
  repeat' first | exact ⟨_, rfl⟩ | split

theorem execTransferComplete_next (a0 : Fin 2) (a1 : Fin 64) (a2 : Fin 10) (a3 : Nat) (a4 : List Byte) (s : State) :
    ∃ t, execTransferComplete a0 a1 a2 a3 a4 s = .next t := by
  unfold execTransferComplete
  extract_lets
  clear_value *
  repeat' first | exact ⟨_, rfl⟩ | split

theorem execNotifyTimer_next (a0 : Fin 2) (s : State) : ∃ t, execNotifyTimer a0 s = .next t := by
  unfold execNotifyTimer
  split <;> exact ⟨_, rfl⟩

theorem execUsbPortCtl_next (a0 : Origin) (a1 : List Byte) (s : State) : ∃ t, execUsbPortCtl a0 a1 s = .next t := by
  unfold execUsbPortCtl
  exact command_next ..

theorem execProxyCtl_next (a0 : Origin) (a1 : List Byte) (s : State) : ∃ t, execProxyCtl a0 a1 s = .next t := by
  unfold execProxyCtl
  exact command_next ..

theorem execSvcConnectWrite_next (a0 : Bool) (s : State) : ∃ t, execSvcConnectWrite a0 s = .next t := by
  unfold execSvcConnectWrite
  exact ⟨_, rfl⟩

theorem execSvcEpbLoad_next (s : State) : ∃ t, execSvcEpbLoad s = .next t := by
  unfold execSvcEpbLoad
  exact ⟨_, rfl⟩

theorem execSvcSuspend_next (s : State) : ∃ t, execSvcSuspend s = .next t := by
  unfold execSvcSuspend
  extract_lets
  split <;> exact ⟨_, rfl⟩

theorem execRemoteWake_next (s : State) : ∃ t, execRemoteWake s = .next t := by
  unfold execRemoteWake
  split <;> exact ⟨_, rfl⟩

theorem execHostResume_next (s : State) : ∃ t, execHostResume s = .next t := by
  unfold execHostResume
  split <;> exact ⟨_, rfl⟩

theorem execSvcBusReset_next (a0 : Bool) (s : State) : ∃ t, execSvcBusReset a0 s = .next t := by
  unfold execSvcBusReset
  split <;> exact ⟨_, rfl⟩

theorem execSetConfiguration_next (a0 : BitVec 8) (s : State) : ∃ t, execSetConfiguration a0 s = .next t := by
  unfold execSetConfiguration
  exact ⟨_, rfl⟩

theorem execSvcStandardRequest_next (a0 : BitVec 8) (a1 : BitVec 8) (a2 : BitVec 16) (a3 : BitVec 16) (a4 : BitVec 16) (s : State) :
    ∃ t, execSvcStandardRequest a0 a1 a2 a3 a4 s = .next t := by
  unfold execSvcStandardRequest
  split <;> exact ⟨_, rfl⟩

theorem execEp2TransferComplete_next (s : State) : ∃ t, execEp2TransferComplete s = .next t := by
  unfold execEp2TransferComplete
  split <;> exact ⟨_, rfl⟩

theorem execEp3Poll_next (s : State) : ∃ t, execEp3Poll s = .next t := by
  unfold execEp3Poll
  split <;> exact ⟨_, rfl⟩

theorem execEp5Poll_next (s : State) : ∃ t, execEp5Poll s = .next t := by
  unfold execEp5Poll
  repeat' first | exact ⟨_, rfl⟩ | split

theorem execClearFeatureHalt_next (s : State) : ∃ t, execClearFeatureHalt s = .next t := by
  unfold execClearFeatureHalt
  split <;> exact ⟨_, rfl⟩

theorem execSvcOrphRead_next (a0 : EntryPoint) (s : State) : ∃ t, execSvcOrphRead a0 s = .next t := by
  unfold execSvcOrphRead
  exact ⟨_, rfl⟩

theorem execDspCfgEnWrite_next (a0 : Fin 2) (a1 : Bool) (s : State) : ∃ t, execDspCfgEnWrite a0 a1 s = .next t := by
  unfold execDspCfgEnWrite
  exact access_next ..

theorem execHeadStop_next (a0 : Fin 2) (s : State) : ∃ t, execHeadStop a0 s = .next t := by
  unfold execHeadStop
  split <;> exact ⟨_, rfl⟩

theorem execDspCfgFlip_next (a0 : Fin 2) (s : State) : ∃ t, execDspCfgFlip a0 s = .next t := by
  unfold execDspCfgFlip
  exact access_next ..

theorem execVblank_next (a0 : Fin 2) (s : State) : ∃ t, execVblank a0 s = .next t := by
  unfold execVblank
  extract_lets
  split <;> exact ⟨_, rfl⟩

theorem execTeEdge_next (a0 : Fin 2) (s : State) : ∃ t, execTeEdge a0 s = .next t := by
  unfold execTeEdge
  split <;> exact ⟨_, rfl⟩

theorem execTeTimeout_next (a0 : Fin 2) (s : State) : ∃ t, execTeTimeout a0 s = .next t := by
  unfold execTeTimeout
  split <;> exact ⟨_, rfl⟩

theorem execLineStart_next (a0 : Fin 2) (s : State) : ∃ t, execLineStart a0 s = .next t := by
  unfold execLineStart
  extract_lets
  clear_value *
  repeat' first | exact ⟨_, rfl⟩ | split

theorem execFetchComplete_next (a0 : Fin 2) (a1 : Bool) (s : State) : ∃ t, execFetchComplete a0 a1 s = .next t := by
  unfold execFetchComplete
  extract_lets
  clear_value *
  repeat' first | exact ⟨_, rfl⟩ | split

theorem execTolPublish_next (a0 : Fin 2) (s : State) : ∃ t, execTolPublish a0 s = .next t := by
  unfold execTolPublish
  exact ⟨_, rfl⟩

theorem execFlip_next (s : State) : ∃ t, execFlip s = .next t := by
  unfold execFlip
  extract_lets
  split <;> exact ⟨_, rfl⟩

theorem execDmxRouteWrite_next (a0 : Word) (s : State) : ∃ t, execDmxRouteWrite a0 s = .next t := by
  unfold execDmxRouteWrite
  exact access_next ..

theorem execDmxStatusRelay_next (s : State) : ∃ t, execDmxStatusRelay s = .next t := by
  unfold execDmxStatusRelay
  split <;> exact ⟨_, rfl⟩

theorem execDspFlip_next (a0 : Origin) (a1 : List Byte) (s : State) : ∃ t, execDspFlip a0 a1 s = .next t := by
  unfold execDspFlip
  exact command_next ..

theorem execDspStatus_next (a0 : Origin) (a1 : List Byte) (s : State) : ∃ t, execDspStatus a0 a1 s = .next t := by
  unfold execDspStatus
  exact command_next ..

theorem execDspTimingLoad_next (a0 : Origin) (a1 : List Byte) (s : State) : ∃ t, execDspTimingLoad a0 a1 s = .next t := by
  unfold execDspTimingLoad
  exact command_next ..

theorem execEthFrameReceive_next (a0 : Fin 12) (a1 : List Byte) (s : State) : ∃ t, execEthFrameReceive a0 a1 s = .next t := by
  unfold execEthFrameReceive
  extract_lets
  clear_value *
  repeat' first | exact ⟨_, rfl⟩ | split

theorem execPauseRepeat_next (a0 : Fin 12) (s : State) : ∃ t, execPauseRepeat a0 s = .next t := by
  unfold execPauseRepeat
  extract_lets
  split <;> exact ⟨_, rfl⟩

theorem execPauseFrameReceive_next (a0 : Fin 12) (a1 : BitVec 16) (s : State) : ∃ t, execPauseFrameReceive a0 a1 s = .next t := by
  unfold execPauseFrameReceive
  extract_lets
  split <;> exact ⟨_, rfl⟩

theorem execEthLinkLost_next (a0 : Fin 12) (a1 : Bool) (s : State) : ∃ t, execEthLinkLost a0 a1 s = .next t := by
  unfold execEthLinkLost
  exact ⟨_, rfl⟩

theorem execEtmVctlApply_next (a0 : EntryPoint) (a1 : Fin 2) (s : State) : ∃ t, execEtmVctlApply a0 a1 s = .next t := by
  unfold execEtmVctlApply
  exact access_next ..

theorem execEtmVctlLoad_next (a0 : EntryPoint) (a1 : Fin 2) (s : State) : ∃ t, execEtmVctlLoad a0 a1 s = .next t := by
  unfold execEtmVctlLoad
  exact access_next ..

theorem execMbSubmit_next (a0 : BitVec 16) (s : State) : ∃ t, execMbSubmit a0 s = .next t := by
  unfold execMbSubmit
  exact ⟨_, rfl⟩

theorem execMbRelease_next (s : State) : ∃ t, execMbRelease s = .next t := by
  unfold execMbRelease
  exact ⟨_, rfl⟩

theorem execMbStatRead_next (s : State) : ∃ t, execMbStatRead s = .next t := by
  unfold execMbStatRead
  exact ⟨_, rfl⟩

theorem execTxGo_next (a0 : BitVec 14) (a1 : BitVec 14) (s : State) : ∃ t, execTxGo a0 a1 s = .next t := by
  unfold execTxGo
  exact ⟨_, rfl⟩

theorem execTxStatRead_next (s : State) : ∃ t, execTxStatRead s = .next t := by
  unfold execTxStatRead
  exact ⟨_, rfl⟩

theorem execRqCiWrite_next (a0 : Fin 16) (a1 : BitVec 16) (s : State) : ∃ t, execRqCiWrite a0 a1 s = .next t := by
  unfold execRqCiWrite
  split <;> exact ⟨_, rfl⟩

theorem execBar2Request_next (a0 : Bool) (a1 : BitVec 36) (a2 : BitVec 13) (a3 : List Byte) (a4 : Nat) (s : State)
    (h : Instr.wellFormed (.bar2Request a0 a1 a2 a3 a4) = true) :
    ∃ t, execBar2Request a0 a1 a2 a3 a4 s = .next t := by
  unfold execBar2Request
  dsimp only
  rw [if_neg]
  · split <;> exact ⟨_, rfl⟩
  · intro hc
    cases a0 <;> simp [Instr.wellFormed, barRequest] at h hc <;> grind

theorem execHostMemoryTimeout_next (a0 : Nat) (s : State) : ∃ t, execHostMemoryTimeout a0 s = .next t := by
  unfold execHostMemoryTimeout
  split <;> exact ⟨_, rfl⟩

theorem execRootPortTimeout_next (a0 : Nat) (s : State) : ∃ t, execRootPortTimeout a0 s = .next t := by
  unfold execRootPortTimeout
  split <;> exact ⟨_, rfl⟩

theorem execInboundDeviceRequest_next (a0 : Bool) (a1 : BitVec 64) (a2 : BitVec 13) (a3 : List Byte) (s : State) :
    ∃ t, execInboundDeviceRequest a0 a1 a2 a3 s = .next t := by
  unfold execInboundDeviceRequest
  extract_lets
  clear_value *
  repeat' first | exact ⟨_, rfl⟩ | split

theorem execPcieLinkDown_next (s : State) : ∃ t, execPcieLinkDown s = .next t := by
  unfold execPcieLinkDown
  exact ⟨_, rfl⟩

theorem execFlr_next (s : State) : ∃ t, execFlr s = .next t := by
  unfold execFlr
  exact ⟨_, rfl⟩

theorem execRootPortLinkLost_next (s : State) : ∃ t, execRootPortLinkLost s = .next t := by
  unfold execRootPortLinkLost
  exact ⟨_, rfl⟩

theorem execPcfgEnWrite_next (a0 : LPort) (a1 : Bool) (s : State) : ∃ t, execPcfgEnWrite a0 a1 s = .next t := by
  unfold execPcfgEnWrite
  exact ⟨_, rfl⟩

theorem execPcfgRoleWrite_next (a0 : LPort) (a1 : Fin 4) (s : State) : ∃ t, execPcfgRoleWrite a0 a1 s = .next t := by
  unfold execPcfgRoleWrite
  exact ⟨_, rfl⟩

theorem execLcfgEnWrite_next (a0 : Bool) (s : State) : ∃ t, execLcfgEnWrite a0 s = .next t := by
  unfold execLcfgEnWrite
  exact ⟨_, rfl⟩

theorem execQualifyComplete_next (a0 : LPort) (a1 : Bool) (a2 : Bool) (a3 : BitVec 16) (a4 : BitVec 16) (s : State) :
    ∃ t, execQualifyComplete a0 a1 a2 a3 a4 s = .next t := by
  unfold execQualifyComplete
  extract_lets
  clear_value *
  repeat' first | exact ⟨_, rfl⟩ | split

theorem execQualRetry_next (a0 : LPort) (s : State) : ∃ t, execQualRetry a0 s = .next t := by
  unfold execQualRetry
  extract_lets
  split <;> exact ⟨_, rfl⟩

theorem execInrushEnd_next (a0 : Fin 5) (s : State) : ∃ t, execInrushEnd a0 s = .next t := by
  unfold execInrushEnd
  split <;> exact ⟨_, rfl⟩

theorem execInrushTimeout_next (a0 : Fin 5) (s : State) : ∃ t, execInrushTimeout a0 s = .next t := by
  unfold execInrushTimeout
  split <;> exact ⟨_, rfl⟩

theorem execSlowTick_next (a0 : List Nat) (a1 : List Nat) (a2 : BitVec 16) (s : State) :
    ∃ t, execSlowTick a0 a1 a2 s = .next t := by
  unfold execSlowTick
  split <;> exact ⟨_, rfl⟩

theorem execCurveTrip_next (a0 : Fin 5) (s : State) : ∃ t, execCurveTrip a0 s = .next t := by
  unfold execCurveTrip
  split <;> exact ⟨_, rfl⟩

theorem execFastTrip_next (a0 : Fin 5) (s : State) : ∃ t, execFastTrip a0 s = .next t := by
  unfold execFastTrip
  extract_lets
  clear_value *
  repeat' first | exact ⟨_, rfl⟩ | split

theorem execRemoval_next (a0 : LPort) (s : State) : ∃ t, execRemoval a0 s = .next t := by
  unfold execRemoval
  extract_lets
  split <;> exact ⟨_, rfl⟩

theorem execOffMinExpiry_next (a0 : Fin 5) (s : State) : ∃ t, execOffMinExpiry a0 s = .next t := by
  unfold execOffMinExpiry
  exact ⟨_, rfl⟩

theorem execFetShort_next (a0 : LPort) (s : State) : ∃ t, execFetShort a0 s = .next t := by
  unfold execFetShort
  split <;> exact ⟨_, rfl⟩

theorem execLpwrPeriodic_next (s : State) : ∃ t, execLpwrPeriodic s = .next t := by
  unfold execLpwrPeriodic
  split <;> exact ⟨_, rfl⟩

theorem execLpwr_next (a0 : LPort) (a1 : BitVec 48) (s : State) : ∃ t, execLpwr a0 a1 s = .next t := by
  unfold execLpwr
  exact ⟨_, rfl⟩

theorem execPwrwarnAssert_next (a0 : Bool) (s : State) : ∃ t, execPwrwarnAssert a0 s = .next t := by
  unfold execPwrwarnAssert
  repeat' first | exact ⟨_, rfl⟩ | split

theorem execPwrwarnDeassert_next (s : State) : ∃ t, execPwrwarnDeassert s = .next t := by
  unfold execPwrwarnDeassert
  split <;> exact ⟨_, rfl⟩

theorem execUvlo_next (s : State) : ∃ t, execUvlo s = .next t := by
  unfold execUvlo
  exact ⟨_, rfl⟩

theorem execLbusVon_next (s : State) : ∃ t, execLbusVon s = .next t := by
  unfold execLbusVon
  exact ⟨_, rfl⟩

theorem execLpwCctlApply_next (a0 : EntryPoint) (s : State) : ∃ t, execLpwCctlApply a0 s = .next t := by
  unfold execLpwCctlApply
  exact ⟨_, rfl⟩

theorem execLpwCctlLoad_next (a0 : EntryPoint) (s : State) : ∃ t, execLpwCctlLoad a0 s = .next t := by
  unfold execLpwCctlLoad
  exact ⟨_, rfl⟩

theorem execEfuseCtl_next (a0 : Origin) (a1 : List Byte) (s : State) : ∃ t, execEfuseCtl a0 a1 s = .next t := by
  unfold execEfuseCtl
  exact command_next ..

theorem execEfuseStatus_next (a0 : Origin) (a1 : List Byte) (s : State) : ∃ t, execEfuseStatus a0 a1 s = .next t := by
  unfold execEfuseStatus
  exact command_next ..

theorem execEfuseCurve_next (a0 : Origin) (a1 : List Byte) (s : State) : ∃ t, execEfuseCurve a0 a1 s = .next t := by
  unfold execEfuseCurve
  exact command_next ..

theorem execSegQualify_next (a0 : Origin) (a1 : List Byte) (s : State) : ∃ t, execSegQualify a0 a1 s = .next t := by
  unfold execSegQualify
  exact command_next ..

theorem execXt32Fail_next (s : State) : ∃ t, execXt32Fail s = .next t := by
  unfold execXt32Fail
  split <;> exact ⟨_, rfl⟩

theorem execLdSleepEntry_next (a0 : Bool) (s : State) : ∃ t, execLdSleepEntry a0 s = .next t := by
  unfold execLdSleepEntry
  extract_lets
  clear_value *
  repeat' first | exact ⟨_, rfl⟩ | split

theorem execLdWake_next (a0 : Fin 5) (a1 : Fin 32) (s : State) : ∃ t, execLdWake a0 a1 s = .next t := by
  unfold execLdWake
  extract_lets
  split <;> exact ⟨_, rfl⟩

theorem execFastClockStartDone_next (s : State) : ∃ t, execFastClockStartDone s = .next t := by
  unfold execFastClockStartDone
  repeat' first | exact ⟨_, rfl⟩ | split

theorem execPstateSet_next (a0 : Origin) (a1 : List Byte) (s : State) : ∃ t, execPstateSet a0 a1 s = .next t := by
  unfold execPstateSet
  exact command_next ..

theorem execWakeCfg_next (a0 : Origin) (a1 : List Byte) (s : State) : ∃ t, execWakeCfg a0 a1 s = .next t := by
  unfold execWakeCfg
  exact command_next ..

theorem execSelfRefreshEntry_next (s : State) : ∃ t, execSelfRefreshEntry s = .next t := by
  unfold execSelfRefreshEntry
  split <;> exact ⟨_, rfl⟩

theorem execSelfRefreshExit_next (s : State) : ∃ t, execSelfRefreshExit s = .next t := by
  unfold execSelfRefreshExit
  split <;> exact ⟨_, rfl⟩

theorem execSelfRefreshExitDone_next (s : State) : ∃ t, execSelfRefreshExitDone s = .next t := by
  unfold execSelfRefreshExitDone
  split <;> exact ⟨_, rfl⟩

theorem execInterruptSourceFire_next (a0 : Fin 512) (s : State) : ∃ t, execInterruptSourceFire a0 s = .next t := by
  unfold execInterruptSourceFire
  exact ⟨_, rfl⟩

theorem execInterruptDelivery_next (a0 : Fin 16) (s : State) : ∃ t, execInterruptDelivery a0 s = .next t := by
  unfold execInterruptDelivery
  extract_lets
  split <;> exact ⟨_, rfl⟩

theorem execIntDoneWrite_next (a0 : Fin 16) (s : State) : ∃ t, execIntDoneWrite a0 s = .next t := by
  unfold execIntDoneWrite
  exact ⟨_, rfl⟩

theorem execIntPendWrite_next (a0 : Fin 16) (a1 : Word) (s : State) : ∃ t, execIntPendWrite a0 a1 s = .next t := by
  unfold execIntPendWrite
  exact ⟨_, rfl⟩

theorem execNrsWreasonRead_next (a0 : EntryPoint) (s : State) : ∃ t, execNrsWreasonRead a0 s = .next t := by
  unfold execNrsWreasonRead
  exact ⟨_, rfl⟩

theorem execDcmRgnApply_next (s : State) : ∃ t, execDcmRgnApply s = .next t := by
  unfold execDcmRgnApply
  exact access_next ..

theorem execPowerOnReset_next (a0 : BitVec 3) (a1 : BitVec 3) (a2 : BitVec 3) (s : State) :
    ∃ t, execPowerOnReset a0 a1 a2 s = .next t := by
  unfold execPowerOnReset
  split <;> exact ⟨_, rfl⟩

theorem execResetN_next (a0 : BitVec 3) (a1 : BitVec 3) (a2 : BitVec 3) (s : State) : ∃ t, execResetN a0 a1 a2 s = .next t := by
  unfold execResetN
  split <;> exact ⟨_, rfl⟩

theorem execSupplyFail_next (s : State) : ∃ t, execSupplyFail s = .next t := by
  unfold execSupplyFail
  exact ⟨_, rfl⟩

theorem execSupplyHoldEnd_next (a0 : BitVec 3) (a1 : BitVec 3) (a2 : BitVec 3) (s : State) :
    ∃ t, execSupplyHoldEnd a0 a1 a2 s = .next t := by
  unfold execSupplyHoldEnd
  split <;> exact ⟨_, rfl⟩

theorem execBootSealVerified_next (a0 : Bool) (a1 : BitVec 8) (s : State) : ∃ t, execBootSealVerified a0 a1 s = .next t := by
  unfold execBootSealVerified
  repeat' first | exact ⟨_, rfl⟩ | split

theorem execBooted_next (s : State) : ∃ t, execBooted s = .next t := by
  unfold execBooted
  split <;> exact ⟨_, rfl⟩

theorem execDeadBatteryStart_next (a0 : BitVec 3) (a1 : BitVec 3) (a2 : BitVec 3) (s : State) :
    ∃ t, execDeadBatteryStart a0 a1 a2 s = .next t := by
  unfold execDeadBatteryStart
  exact ⟨_, rfl⟩

theorem execBoardPowerValid_next (s : State) : ∃ t, execBoardPowerValid s = .next t := by
  unfold execBoardPowerValid
  exact ⟨_, rfl⟩

theorem execImgInfo_next (a0 : Origin) (a1 : List Byte) (s : State) : ∃ t, execImgInfo a0 a1 s = .next t := by
  unfold execImgInfo
  exact command_next ..

theorem execImgWrite_next (a0 : Origin) (a1 : List Byte) (s : State) : ∃ t, execImgWrite a0 a1 s = .next t := by
  unfold execImgWrite
  exact commandV_next ..

theorem execImgDelta_next (a0 : Origin) (a1 : List Byte) (s : State) : ∃ t, execImgDelta a0 a1 s = .next t := by
  unfold execImgDelta
  exact commandV_next ..

theorem execImgVerify_next (a0 : Origin) (a1 : List Byte) (s : State) : ∃ t, execImgVerify a0 a1 s = .next t := by
  unfold execImgVerify
  exact command_next ..

theorem execImgActivate_next (a0 : Origin) (a1 : List Byte) (s : State) : ∃ t, execImgActivate a0 a1 s = .next t := by
  unfold execImgActivate
  exact command_next ..

theorem execImgCommit_next (a0 : Origin) (a1 : List Byte) (s : State) : ∃ t, execImgCommit a0 a1 s = .next t := by
  unfold execImgCommit
  exact command_next ..

theorem execImgRevert_next (a0 : Origin) (a1 : List Byte) (s : State) : ∃ t, execImgRevert a0 a1 s = .next t := by
  unfold execImgRevert
  exact command_next ..

theorem execImgLock_next (a0 : Origin) (a1 : List Byte) (s : State) : ∃ t, execImgLock a0 a1 s = .next t := by
  unfold execImgLock
  exact command_next ..

theorem execSetRead_next (a0 : Origin) (a1 : List Byte) (s : State) : ∃ t, execSetRead a0 a1 s = .next t := by
  unfold execSetRead
  exact command_next ..

theorem execSetWrite_next (a0 : Origin) (a1 : List Byte) (s : State) : ∃ t, execSetWrite a0 a1 s = .next t := by
  unfold execSetWrite
  exact commandV_next ..

theorem execStageWrite_next (a0 : Origin) (a1 : List Byte) (s : State) : ∃ t, execStageWrite a0 a1 s = .next t := by
  unfold execStageWrite
  exact commandV_next ..

theorem execNorWriteDone_next (a0 : Bool) (s : State) : ∃ t, execNorWriteDone a0 s = .next t := by
  unfold execNorWriteDone
  repeat' first | exact ⟨_, rfl⟩ | split

theorem execActivationStepDone_next (s : State) : ∃ t, execActivationStepDone s = .next t := by
  unfold execActivationStepDone
  repeat' first | exact ⟨_, rfl⟩ | split

theorem execActivationTimeout_next (s : State) : ∃ t, execActivationTimeout s = .next t := by
  unfold execActivationTimeout
  repeat' first | exact ⟨_, rfl⟩ | (extract_lets; clear_value *) | split

theorem execLdShadowsCompared_next (s : State) : ∃ t, execLdShadowsCompared s = .next t := by
  unfold execLdShadowsCompared
  repeat' first | exact ⟨_, rfl⟩ | split

theorem execLdActivationResume_next (s : State) : ∃ t, execLdActivationResume s = .next t := by
  unfold execLdActivationResume
  repeat' first | exact ⟨_, rfl⟩ | split

theorem execTrialExpiry_next (s : State) : ∃ t, execTrialExpiry s = .next t := by
  unfold execTrialExpiry
  split <;> exact ⟨_, rfl⟩

theorem execImgLoadlogRead_next (a0 : EntryPoint) (s : State) : ∃ t, execImgLoadlogRead a0 s = .next t := by
  unfold execImgLoadlogRead
  exact access_next ..

theorem execImgQspiRead_next (a0 : EntryPoint) (s : State) : ∃ t, execImgQspiRead a0 s = .next t := by
  unfold execImgQspiRead
  exact access_next ..

theorem execCounterLowRead_next (a0 : CtrReader) (a1 : BitVec 32) (s : State) : ∃ t, execCounterLowRead a0 a1 s = .next t := by
  unfold execCounterLowRead
  exact ⟨_, rfl⟩

theorem execCounterHighRead_next (a0 : CtrReader) (a1 : BitVec 32) (s : State) : ∃ t, execCounterHighRead a0 a1 s = .next t := by
  unfold execCounterHighRead
  exact ⟨_, rfl⟩

theorem execCtrClear_next (a0 : Origin) (a1 : List Byte) (s : State) : ∃ t, execCtrClear a0 a1 s = .next t := by
  unfold execCtrClear
  exact command_next ..

theorem execTestRun_next (a0 : Origin) (a1 : List Byte) (s : State) : ∃ t, execTestRun a0 a1 s = .next t := by
  unfold execTestRun
  exact command_next ..

theorem execTestStatus_next (a0 : Origin) (a1 : List Byte) (s : State) : ∃ t, execTestStatus a0 a1 s = .next t := by
  unfold execTestStatus
  exact command_next ..

theorem execLogRead_next (a0 : Origin) (a1 : List Byte) (s : State) : ∃ t, execLogRead a0 a1 s = .next t := by
  unfold execLogRead
  exact command_next ..

theorem execEyeMargin_next (a0 : Origin) (a1 : List Byte) (s : State) : ∃ t, execEyeMargin a0 a1 s = .next t := by
  unfold execEyeMargin
  exact command_next ..

theorem execEyeMarginDone_next (a0 : List Byte) (s : State) : ∃ t, execEyeMarginDone a0 s = .next t := by
  unfold execEyeMarginDone
  split <;> exact ⟨_, rfl⟩

theorem execBankRotStepDone_next (a0 : Bool) (s : State) : ∃ t, execBankRotStepDone a0 s = .next t := by
  unfold execBankRotStepDone
  repeat' first | exact ⟨_, rfl⟩ | (extract_lets; clear_value *) | split

theorem execScrubBurst_next (a0 : Fin 4) (s : State) : ∃ t, execScrubBurst a0 s = .next t := by
  unfold execScrubBurst
  split <;> exact ⟨_, rfl⟩

theorem execTblCmpDone_next (a0 : List Nat) (a1 : List Nat) (s : State) : ∃ t, execTblCmpDone a0 a1 s = .next t := by
  unfold execTblCmpDone
  repeat' first | exact ⟨_, rfl⟩ | split

theorem execDisruptiveTestDone_next (a0 : Nat) (a1 : Bool) (a2 : BitVec 64) (s : State) :
    ∃ t, execDisruptiveTestDone a0 a1 a2 s = .next t := by
  unfold execDisruptiveTestDone
  split <;> exact ⟨_, rfl⟩

theorem execNorLogWrite_next (a0 : Bool) (s : State) : ∃ t, execNorLogWrite a0 s = .next t := by
  unfold execNorLogWrite
  repeat' first | exact ⟨_, rfl⟩ | split

theorem execTempSample_next (a0 : Slot) (a1 : BitVec 12) (s : State) : ∃ t, execTempSample a0 a1 s = .next t := by
  unfold execTempSample
  extract_lets
  clear_value *
  repeat' first | exact ⟨_, rfl⟩ | split

theorem execDieLstatRead_next (a0 : EntryPoint) (a1 : Slot) (s : State) : ∃ t, execDieLstatRead a0 a1 s = .next t := by
  unfold execDieLstatRead
  exact access_next ..

theorem execEp1CommandReceive_next (a0 : List Byte) (s : State) : ∃ t, execEp1CommandReceive a0 s = .next t := by
  unfold execEp1CommandReceive
  extract_lets
  clear_value *
  repeat' first | exact ⟨_, rfl⟩ | split

theorem execEp4BlockReceive_next (a0 : List Byte) (s : State) : ∃ t, execEp4BlockReceive a0 s = .next t := by
  unfold execEp4BlockReceive
  repeat' first | exact ⟨_, rfl⟩ | split

theorem execSvcSourceAttach_next (a0 : Fin 4) (s : State) : ∃ t, execSvcSourceAttach a0 s = .next t := by
  unfold execSvcSourceAttach
  split <;> exact ⟨_, rfl⟩

theorem execPcieLinkUp_next (a0 : Bool) (a1 : Fin 4) (a2 : Fin 3) (a3 : Bool) (a4 : Bool) (a5 : Bool) (s : State) :
    ∃ t, execPcieLinkUp a0 a1 a2 a3 a4 a5 s = .next t := by
  unfold execPcieLinkUp
  extract_lets
  clear_value *
  repeat' first | exact ⟨_, rfl⟩ | split

theorem execEthLinkUp_next (a0 : Fin 12) (a1 : Fin 8) (s : State) : ∃ t, execEthLinkUp a0 a1 s = .next t := by
  unfold execEthLinkUp
  extract_lets
  split <;> exact ⟨_, rfl⟩

theorem execPcieCompletionReceive_next (a0 : Bool) (a1 : Nat) (a2 : Bool) (a3 : List Byte) (s : State) :
    ∃ t, execPcieCompletionReceive a0 a1 a2 a3 s = .next t := by
  unfold execPcieCompletionReceive
  repeat' first | exact ⟨_, rfl⟩ | split

theorem execDeepCombAccessDone_next (a0 : Bool) (s : State) : ∃ t, execDeepCombAccessDone a0 s = .next t := by
  unfold execDeepCombAccessDone
  repeat' first | exact ⟨_, rfl⟩ | split

theorem execImgVerifyDone_next (s : State) : ∃ t, execImgVerifyDone s = .next t := by
  unfold execImgVerifyDone
  split <;> exact ⟨_, rfl⟩

theorem execEthFrameTransmit_next (a0 : Fin 12) (s : State) : ∃ t, execEthFrameTransmit a0 s = .next t := by
  unfold execEthFrameTransmit
  extract_lets
  clear_value *
  repeat' first | exact ⟨_, rfl⟩ | split

/-- A command changes neither the variant, the stepping, the clock nor the queue. -/
theorem exec_keeps (i : Instr) (s : State) : KeepsR 1099511627775 s (exec i s) := by
  cases i with
  | registerWrite x0 x1 x2 x3 => exact execRegisterWrite_keeps rfl (Keeps.refl _ _)
  | tolgerCellReceive x0 x1 x2 x3 => exact execTolgerCellReceive_keeps rfl (Keeps.refl _ _)
  | tolgerFlitReceive x0 x1 x2 => exact execTolgerFlitReceive_keeps rfl (Keeps.refl _ _)
  | tolgerNak x0 x1 x2 => exact execTolgerNak_keeps rfl (Keeps.refl _ _)
  | tolgerCreditReturn x0 x1 x2 => exact execTolgerCreditReturn_keeps rfl (Keeps.refl _ _)
  | tolgerBeatPair x0 x1 => exact execTolgerBeatPair_keeps rfl (Keeps.refl _ _)
  | tolgerRelink x0 => exact execTolgerRelink_keeps rfl (Keeps.refl _ _)
  | domainQuiesce x0 x1 => exact execDomainQuiesce_keeps rfl (Keeps.refl _ _)
  | drainComplete x0 => exact execDrainComplete_keeps rfl (Keeps.refl _ _)
  | drainLimitExpiry x0 => exact execDrainLimitExpiry_keeps rfl (Keeps.refl _ _)
  | domainReset x0 x1 => exact execDomainReset_keeps rfl (Keeps.refl _ _)
  | resetTimeEnd x0 => exact execResetTimeEnd_keeps rfl (Keeps.refl _ _)
  | domainReturn x0 x1 => exact execDomainReturn_keeps rfl (Keeps.refl _ _)
  | returningComplete x0 => exact execReturningComplete_keeps rfl (Keeps.refl _ _)
  | returnTimeout x0 => exact execReturnTimeout_keeps rfl (Keeps.refl _ _)
  | domainStatus x0 x1 => exact execDomainStatus_keeps rfl (Keeps.refl _ _)
  | ldWarmReset x0 x1 => exact execLdWarmReset_keeps rfl (Keeps.refl _ _)
  | portEnable x0 x1 => exact execPortEnable_keeps rfl (Keeps.refl _ _)
  | trainingPhaseTimeout x0 => exact execTrainingPhaseTimeout_keeps rfl (Keeps.refl _ _)
  | trainRestartTimer x0 => exact execTrainRestartTimer_keeps rfl (Keeps.refl _ _)
  | wordLock x0 x1 => exact execWordLock_keeps rfl (Keeps.refl _ _)
  | cap x0 x1 => exact execCap_keeps rfl (Keeps.refl _ _)
  | prbsLock x0 => exact execPrbsLock_keeps rfl (Keeps.refl _ _)
  | alignLast x0 => exact execAlignLast_keeps rfl (Keeps.refl _ _)
  | osSlotReceive x0 x1 => exact execOsSlotReceive_keeps rfl (Keeps.refl _ _)
  | dozeWordReceive x0 x1 => exact execDozeWordReceive_keeps rfl (Keeps.refl _ _)
  | uncorrectableCodeword x0 x1 => exact execUncorrectableCodeword_keeps rfl (Keeps.refl _ _)
  | fcwChkFail x0 => exact execFcwChkFail_keeps rfl (Keeps.refl _ _)
  | humIdleTimeout x0 => exact execHumIdleTimeout_keeps rfl (Keeps.refl _ _)
  | dozeIdleTimeout x0 => exact execDozeIdleTimeout_keeps rfl (Keeps.refl _ _)
  | dormantIdleTimeout x0 => exact execDormantIdleTimeout_keeps rfl (Keeps.refl _ _)
  | stateReq x0 x1 => exact execStateReq_keeps rfl (Keeps.refl _ _)
  | stateAck x0 x1 => exact execStateAck_keeps rfl (Keeps.refl _ _)
  | stateNak x0 x1 => exact execStateNak_keeps rfl (Keeps.refl _ _)
  | stateAnswerTimeout x0 => exact execStateAnswerTimeout_keeps rfl (Keeps.refl _ _)
  | wake x0 => exact execWake_keeps rfl (Keeps.refl _ _)
  | exitComplete x0 => exact execExitComplete_keeps rfl (Keeps.refl _ _)
  | exitTimeout x0 => exact execExitTimeout_keeps rfl (Keeps.refl _ _)
  | maxstateWrite x0 x1 => exact execMaxstateWrite_keeps rfl (Keeps.refl _ _)
  | waggle x0 x1 x2 => exact execWaggle_keeps rfl (Keeps.refl _ _)
  | signalDetectLoss x0 x1 => exact execSignalDetectLoss_keeps rfl (Keeps.refl _ _)
  | laneFail x0 x1 => exact execLaneFail_keeps rfl (Keeps.refl _ _)
  | laneErrorWindow x0 x1 x2 => exact execLaneErrorWindow_keeps rfl (Keeps.refl _ _)
  | laneRetireReq x0 x1 => exact execLaneRetireReq_keeps rfl (Keeps.refl _ _)
  | laneRetire x0 x1 x2 => exact execLaneRetire_keeps rfl (Keeps.refl _ _)
  | retireFrameSwitch x0 x1 => exact execRetireFrameSwitch_keeps rfl (Keeps.refl _ _)
  | cellReceive x0 x1 => exact execCellReceive_keeps rfl (Keeps.refl _ _)
  | ackFcw x0 x1 => exact execAckFcw_keeps rfl (Keeps.refl _ _)
  | nakFcw x0 x1 => exact execNakFcw_keeps rfl (Keeps.refl _ _)
  | nakRetryTimeout x0 => exact execNakRetryTimeout_keeps rfl (Keeps.refl _ _)
  | replayTimeout x0 => exact execReplayTimeout_keeps rfl (Keeps.refl _ _)
  | resyncReplay x0 x1 => exact execResyncReplay_keeps rfl (Keeps.refl _ _)
  | resyncInit x0 => exact execResyncInit_keeps rfl (Keeps.refl _ _)
  | resyncCreq x0 x1 => exact execResyncCreq_keeps rfl (Keeps.refl _ _)
  | resyncRecall x0 x1 => exact execResyncRecall_keeps rfl (Keeps.refl _ _)
  | creditFcw x0 x1 x2 => exact execCreditFcw_keeps rfl (Keeps.refl _ _)
  | creditWord x0 x1 x2 x3 => exact execCreditWord_keeps rfl (Keeps.refl _ _)
  | creditWordPeriod x0 => exact execCreditWordPeriod_keeps rfl (Keeps.refl _ _)
  | creditStarveTimeout x0 x1 => exact execCreditStarveTimeout_keeps rfl (Keeps.refl _ _)
  | slotFill x0 x1 => exact execSlotFill_keeps rfl (Keeps.refl _ _)
  | cellAdmit x0 x1 => exact execCellAdmit_keeps rfl (Keeps.refl _ _)
  | parkRetry x0 x1 => exact execParkRetry_keeps rfl (Keeps.refl _ _)
  | entryRecomputed x0 x1 x2 => exact execEntryRecomputed_keeps rfl (Keeps.refl _ _)
  | addrWrite x0 => exact execAddrWrite_keeps rfl (Keeps.refl _ _)
  | seedExpansionDone => exact execSeedExpansionDone_keeps rfl (Keeps.refl _ _)
  | rebuildDone x0 x1 => exact execRebuildDone_keeps rfl (Keeps.refl _ _)
  | tblRead x0 x1 => exact execTblRead_keeps rfl (Keeps.refl _ _)
  | tblWrite x0 x1 => exact execTblWrite_keeps rfl (Keeps.refl _ _)
  | tblRebuild x0 x1 => exact execTblRebuild_keeps rfl (Keeps.refl _ _)
  | tblSwap x0 x1 => exact execTblSwap_keeps rfl (Keeps.refl _ _)
  | addrAssign x0 x1 => exact execAddrAssign_keeps rfl (Keeps.refl _ _)
  | addrAssignRepeat x0 => exact execAddrAssignRepeat_keeps rfl (Keeps.refl _ _)
  | ringBreak x0 => exact execRingBreak_keeps rfl (Keeps.refl _ _)
  | ringHeal x0 => exact execRingHeal_keeps rfl (Keeps.refl _ _)
  | wtrExpiry x0 => exact execWtrExpiry_keeps rfl (Keeps.refl _ _)
  | ringHoldExpiry x0 => exact execRingHoldExpiry_keeps rfl (Keeps.refl _ _)
  | ringEnClear => exact execRingEnClear_keeps rfl (Keeps.refl _ _)
  | bypassWrite x0 => exact execBypassWrite_keeps rfl (Keeps.refl _ _)
  | bypassSettleExpiry => exact execBypassSettleExpiry_keeps rfl (Keeps.refl _ _)
  | combCellTime x0 x1 => exact execCombCellTime_keeps rfl (Keeps.refl _ _)
  | spillRefillDone x0 x1 x2 => exact execSpillRefillDone_keeps rfl (Keeps.refl _ _)
  | frameDiscardEnd x0 x1 x2 => exact execFrameDiscardEnd_keeps rfl (Keeps.refl _ _)
  | auditDone => exact execAuditDone_keeps rfl (Keeps.refl _ _)
  | voqQueueMove x0 x1 => exact execVoqQueueMove_keeps rfl (Keeps.refl _ _)
  | flReady x0 => exact execFlReady_keeps rfl (Keeps.refl _ _)
  | bankctlRetReq x0 => exact execBankctlRetReq_keeps rfl (Keeps.refl _ _)
  | relocationDone x0 => exact execRelocationDone_keeps rfl (Keeps.refl _ _)
  | bankctlRtnReq x0 => exact execBankctlRtnReq_keeps rfl (Keeps.refl _ _)
  | bankReturnDone x0 => exact execBankReturnDone_keeps rfl (Keeps.refl _ _)
  | forceVoqWrite x0 => exact execForceVoqWrite_keeps rfl (Keeps.refl _ _)
  | shpCtlApply x0 => exact execShpCtlApply_keeps rfl (Keeps.refl _ _)
  | shpCtlLoad x0 => exact execShpCtlLoad_keeps rfl (Keeps.refl _ _)
  | polCtlApply x0 => exact execPolCtlApply_keeps rfl (Keeps.refl _ _)
  | polCtlLoad x0 => exact execPolCtlLoad_keeps rfl (Keeps.refl _ _)
  | xbCfgWrite x0 => exact execXbCfgWrite_keeps rfl (Keeps.refl _ _)
  | xbBurstWrite x0 => exact execXbBurstWrite_keeps rfl (Keeps.refl _ _)
  | originFrameRelease x0 => exact execOriginFrameRelease_keeps rfl (Keeps.refl _ _)
  | expressMonitorWindow => exact execExpressMonitorWindow_keeps rfl (Keeps.refl _ _)
  | hwmOccRead x0 => exact execHwmOccRead_keeps rfl (Keeps.refl _ _)
  | hwmSojRead x0 => exact execHwmSojRead_keeps rfl (Keeps.refl _ _)
  | shpApply x0 x1 => exact execShpApply_keeps rfl (Keeps.refl _ _)
  | shpGet x0 x1 => exact execShpGet_keeps rfl (Keeps.refl _ _)
  | polApply x0 x1 => exact execPolApply_keeps rfl (Keeps.refl _ _)
  | polGet x0 x1 => exact execPolGet_keeps rfl (Keeps.refl _ _)
  | hwmRead x0 x1 => exact execHwmRead_keeps rfl (Keeps.refl _ _)
  | tunnelFrameOriginate x0 x1 x2 => exact execTunnelFrameOriginate_keeps rfl (Keeps.refl _ _)
  | tunnelCellTerminate x0 => exact execTunnelCellTerminate_keeps rfl (Keeps.refl _ _)
  | tunGet x0 x1 => exact execTunGet_keeps rfl (Keeps.refl _ _)
  | tunSet x0 x1 => exact execTunSet_keeps rfl (Keeps.refl _ _)
  | tunResetCtx x0 x1 => exact execTunResetCtx_keeps rfl (Keeps.refl _ _)
  | windowRequest x0 x1 x2 x3 x4 => exact execWindowRequest_keeps rfl (Keeps.refl _ _)
  | brgWriteReceive => exact execBrgWriteReceive_keeps rfl (Keeps.refl _ _)
  | brgReadReceive => exact execBrgReadReceive_keeps rfl (Keeps.refl _ _)
  | cplReceive => exact execCplReceive_keeps rfl (Keeps.refl _ _)
  | readTimeout x0 => exact execReadTimeout_keeps rfl (Keeps.refl _ _)
  | pwerrReceive => exact execPwerrReceive_keeps rfl (Keeps.refl _ _)
  | fenceReceive => exact execFenceReceive_keeps rfl (Keeps.refl _ _)
  | fenceAckReceive => exact execFenceAckReceive_keeps rfl (Keeps.refl _ _)
  | fenceTimeout x0 => exact execFenceTimeout_keeps rfl (Keeps.refl _ _)
  | localRetry x0 => exact execLocalRetry_keeps rfl (Keeps.refl _ _)
  | brgWctlApply x0 => exact execBrgWctlApply_keeps rfl (Keeps.refl _ _)
  | brgWctlLoad x0 => exact execBrgWctlLoad_keeps rfl (Keeps.refl _ _)
  | brgTctlApply x0 => exact execBrgTctlApply_keeps rfl (Keeps.refl _ _)
  | brgTctlLoad x0 => exact execBrgTctlLoad_keeps rfl (Keeps.refl _ _)
  | pwlDataRead x0 => exact execPwlDataRead_keeps rfl (Keeps.refl _ _)
  | elgDataRead x0 => exact execElgDataRead_keeps rfl (Keeps.refl _ _)
  | pwlStatRead x0 => exact execPwlStatRead_keeps (a0 := x0) rfl (Keeps.refl _ _)
  | elgStatRead x0 => exact execElgStatRead_keeps (a0 := x0) rfl (Keeps.refl _ _)
  | rdstatRead x0 => exact execRdstatRead_keeps (a0 := x0) rfl (Keeps.refl _ _)
  | brgRead x0 x1 => exact execBrgRead_keeps rfl (Keeps.refl _ _)
  | brgWrite x0 x1 => exact execBrgWrite_keeps rfl (Keeps.refl _ _)
  | writeFence x0 x1 => exact execWriteFence_keeps rfl (Keeps.refl _ _)
  | pwlRead x0 x1 => exact execPwlRead_keeps rfl (Keeps.refl _ _)
  | elgRead x0 x1 => exact execElgRead_keeps rfl (Keeps.refl _ _)
  | syncSendTimer => exact execSyncSendTimer_keeps rfl (Keeps.refl _ _)
  | dreqSendTimer x0 => exact execDreqSendTimer_keeps rfl (Keeps.refl _ _)
  | sync x0 x1 x2 x3 x4 => exact execSync_keeps rfl (Keeps.refl _ _)
  | dreq x0 x1 => exact execDreq_keeps rfl (Keeps.refl _ _)
  | drsp x0 x1 x2 => exact execDrsp_keeps rfl (Keeps.refl _ _)
  | dreqMiss x0 => exact execDreqMiss_keeps rfl (Keeps.refl _ _)
  | syncLossTimeout => exact execSyncLossTimeout_keeps rfl (Keeps.refl _ _)
  | pselWrite x0 => exact execPselWrite_keeps rfl (Keeps.refl _ _)
  | announceTimer => exact execAnnounceTimer_keeps rfl (Keeps.refl _ _)
  | announce => exact execAnnounce_keeps rfl (Keeps.refl _ _)
  | ppsEdge x0 => exact execPpsEdge_keeps rfl (Keeps.refl _ _)
  | xt32RatioWindow x0 => exact execXt32RatioWindow_keeps rfl (Keeps.refl _ _)
  | nowHiRead x0 => exact execNowHiRead_keeps rfl (Keeps.refl _ _)
  | timeGet x0 x1 => exact execTimeGet_keeps rfl (Keeps.refl _ _)
  | timeSet x0 x1 => exact execTimeSet_keeps rfl (Keeps.refl _ _)
  | arm => exact execArm_keeps rfl (Keeps.refl _ _)
  | cancel => exact execCancel_keeps rfl (Keeps.refl _ _)
  | trgActlArm x0 => exact execTrgActlArm_keeps rfl (Keeps.refl _ _)
  | trgActlCancel x0 => exact execTrgActlCancel_keeps rfl (Keeps.refl _ _)
  | trigArm x0 x1 => exact execTrigArm_keeps rfl (Keeps.refl _ _)
  | trigCancel x0 x1 => exact execTrigCancel_keeps rfl (Keeps.refl _ _)
  | pulseStart x0 => exact execPulseStart_keeps rfl (Keeps.refl _ _)
  | pulseEnd x0 => exact execPulseEnd_keeps rfl (Keeps.refl _ _)
  | pinModeWrite x0 x1 => exact execPinModeWrite_keeps rfl (Keeps.refl _ _)
  | captureEdge x0 x1 => exact execCaptureEdge_keeps rfl (Keeps.refl _ _)
  | captRptPeriod x0 => exact execCaptRptPeriod_keeps rfl (Keeps.refl _ _)
  | capLoRead x0 x1 => exact execCapLoRead_keeps rfl (Keeps.refl _ _)
  | captRead x0 x1 => exact execCaptRead_keeps rfl (Keeps.refl _ _)
  | hspiStatus => exact execHspiStatus_keeps rfl (Keeps.refl _ _)
  | hspiCmdWrite x0 => exact execHspiCmdWrite_keeps rfl (Keeps.refl _ _)
  | hspiRspRead x0 => exact execHspiRspRead_keeps rfl (Keeps.refl _ _)
  | cmdReplyReceive => exact execCmdReplyReceive_keeps rfl (Keeps.refl _ _)
  | relayTimeout x0 => exact execRelayTimeout_keeps rfl (Keeps.refl _ _)
  | orphanExpiry x0 => exact execOrphanExpiry_keeps rfl (Keeps.refl _ _)
  | sessionIdleTimeout x0 => exact execSessionIdleTimeout_keeps rfl (Keeps.refl _ _)
  | sessionExpiry x0 => exact execSessionExpiry_keeps rfl (Keeps.refl _ _)
  | hostselWrite x0 => exact execHostselWrite_keeps rfl (Keeps.refl _ _)
  | readReg x0 x1 => exact execReadReg_keeps rfl (Keeps.refl _ _)
  | writeReg x0 x1 => exact execWriteReg_keeps rfl (Keeps.refl _ _)
  | rmwReg x0 x1 => exact execRmwReg_keeps rfl (Keeps.refl _ _)
  | readBlk x0 x1 => exact execReadBlk_keeps rfl (Keeps.refl _ _)
  | writeBlk x0 x1 => exact execWriteBlk_keeps rfl (Keeps.refl _ _)
  | rmwBlk x0 x1 => exact execRmwBlk_keeps rfl (Keeps.refl _ _)
  | readCtr x0 x1 => exact execReadCtr_keeps rfl (Keeps.refl _ _)
  | getInfo x0 x1 => exact execGetInfo_keeps rfl (Keeps.refl _ _)
  | nop x0 x1 => exact execNop_keeps rfl (Keeps.refl _ _)
  | sessionOpen x0 x1 => exact execSessionOpen_keeps rfl (Keeps.refl _ _)
  | sessionClose x0 x1 => exact execSessionClose_keeps rfl (Keeps.refl _ _)
  | sessionInfo x0 x1 => exact execSessionInfo_keeps rfl (Keeps.refl _ _)
  | getOrphan x0 x1 => exact execGetOrphan_keeps rfl (Keeps.refl _ _)
  | ccAttach x0 x1 x2 => exact execCcAttach_keeps rfl (Keeps.refl _ _)
  | ccDetach x0 => exact execCcDetach_keeps rfl (Keeps.refl _ _)
  | vbusSafe0vReached x0 => exact execVbusSafe0vReached_keeps rfl (Keeps.refl _ _)
  | vbusEnable x0 => exact execVbusEnable_keeps rfl (Keeps.refl _ _)
  | vbusOc x0 => exact execVbusOc_keeps rfl (Keeps.refl _ _)
  | pwrwarnReleaseTimer => exact execPwrwarnReleaseTimer_keeps rfl (Keeps.refl _ _)
  | sourceCapRepeat x0 => exact execSourceCapRepeat_keeps rfl (Keeps.refl _ _)
  | request x0 x1 x2 x3 => exact execRequest_keeps rfl (Keeps.refl _ _)
  | senderResponseTimeout x0 => exact execSenderResponseTimeout_keeps rfl (Keeps.refl _ _)
  | srcTransitionStart x0 => exact execSrcTransitionStart_keeps rfl (Keeps.refl _ _)
  | vbusSettled x0 => exact execVbusSettled_keeps rfl (Keeps.refl _ _)
  | getSourceCap x0 => exact execGetSourceCap_keeps rfl (Keeps.refl _ _)
  | getSourceCapExtended x0 => exact execGetSourceCapExtended_keeps rfl (Keeps.refl _ _)
  | getSinkCap x0 => exact execGetSinkCap_keeps rfl (Keeps.refl _ _)
  | getRevision x0 => exact execGetRevision_keeps rfl (Keeps.refl _ _)
  | softReset x0 => exact execSoftReset_keeps rfl (Keeps.refl _ _)
  | hardReset x0 x1 => exact execHardReset_keeps rfl (Keeps.refl _ _)
  | vconnSwap x0 => exact execVconnSwap_keeps rfl (Keeps.refl _ _)
  | psRdy x0 => exact execPsRdy_keeps rfl (Keeps.refl _ _)
  | vconnSourceTimeout x0 => exact execVconnSourceTimeout_keeps rfl (Keeps.refl _ _)
  | drSwap x0 => exact execDrSwap_keeps rfl (Keeps.refl _ _)
  | prSwap x0 => exact execPrSwap_keeps rfl (Keeps.refl _ _)
  | unsupportedPdMessage x0 x1 => exact execUnsupportedPdMessage_keeps rfl (Keeps.refl _ _)
  | discoverIdentitySopPrime x0 x1 => exact execDiscoverIdentitySopPrime_keeps rfl (Keeps.refl _ _)
  | discoverIdentityRetry x0 => exact execDiscoverIdentityRetry_keeps rfl (Keeps.refl _ _)
  | partnerDiscoveryResponse x0 x1 => exact execPartnerDiscoveryResponse_keeps rfl (Keeps.refl _ _)
  | enterModeAck x0 => exact execEnterModeAck_keeps rfl (Keeps.refl _ _)
  | dpConfigureAck x0 => exact execDpConfigureAck_keeps rfl (Keeps.refl _ _)
  | attention x0 x1 => exact execAttention_keeps rfl (Keeps.refl _ _)
  | vdmResponseTimeout x0 => exact execVdmResponseTimeout_keeps rfl (Keeps.refl _ _)
  | vconnFault x0 => exact execVconnFault_keeps rfl (Keeps.refl _ _)
  | sinkAdjExpiry x0 => exact execSinkAdjExpiry_keeps rfl (Keeps.refl _ _)
  | errorRecoveryEnd x0 => exact execErrorRecoveryEnd_keeps rfl (Keeps.refl _ _)
  | tcpCfgWrite x0 x1 => exact execTcpCfgWrite_keeps rfl (Keeps.refl _ _)
  | pdpBudgetWrite x0 x1 => exact execPdpBudgetWrite_keeps rfl (Keeps.refl _ _)
  | sourceCapabilities x0 x1 => exact execSourceCapabilities_keeps rfl (Keeps.refl _ _)
  | accept => exact execAccept_keeps rfl (Keeps.refl _ _)
  | wait => exact execWait_keeps rfl (Keeps.refl _ _)
  | reject => exact execReject_keeps rfl (Keeps.refl _ _)
  | sinkRequestRetry => exact execSinkRequestRetry_keeps rfl (Keeps.refl _ _)
  | psTransitionTimeout => exact execPsTransitionTimeout_keeps rfl (Keeps.refl _ _)
  | tierFall => exact execTierFall_keeps rfl (Keeps.refl _ _)
  | svcVbusLoss => exact execSvcVbusLoss_keeps rfl (Keeps.refl _ _)
  | pdStatus x0 x1 => exact execPdStatus_keeps rfl (Keeps.refl _ _)
  | pdPortCtl x0 x1 => exact execPdPortCtl_keeps rfl (Keeps.refl _ _)
  | pdBudget x0 x1 => exact execPdBudget_keeps rfl (Keeps.refl _ _)
  | hubPortChange x0 x1 x2 => exact execHubPortChange_keeps rfl (Keeps.refl _ _)
  | prxDbWrite x0 x1 => exact execPrxDbWrite_keeps rfl (Keeps.refl _ _)
  | doorbell x0 => exact execDoorbell_keeps rfl (Keeps.refl _ _)
  | descriptorFetch x0 x1 x2 => exact execDescriptorFetch_keeps rfl (Keeps.refl _ _)
  | periodicService x0 x1 x2 => exact execPeriodicService_keeps rfl (Keeps.refl _ _)
  | transferComplete x0 x1 x2 x3 x4 => exact execTransferComplete_keeps rfl (Keeps.refl _ _)
  | notifyTimer x0 => exact execNotifyTimer_keeps rfl (Keeps.refl _ _)
  | usbPortCtl x0 x1 => exact execUsbPortCtl_keeps rfl (Keeps.refl _ _)
  | proxyCtl x0 x1 => exact execProxyCtl_keeps rfl (Keeps.refl _ _)
  | svcConnectWrite x0 => exact execSvcConnectWrite_keeps rfl (Keeps.refl _ _)
  | svcEpbLoad => exact execSvcEpbLoad_keeps rfl (Keeps.refl _ _)
  | svcSuspend => exact execSvcSuspend_keeps rfl (Keeps.refl _ _)
  | remoteWake => exact execRemoteWake_keeps rfl (Keeps.refl _ _)
  | hostResume => exact execHostResume_keeps rfl (Keeps.refl _ _)
  | svcBusReset x0 => exact execSvcBusReset_keeps rfl (Keeps.refl _ _)
  | setConfiguration x0 => exact execSetConfiguration_keeps rfl (Keeps.refl _ _)
  | svcStandardRequest x0 x1 x2 x3 x4 => exact execSvcStandardRequest_keeps rfl (Keeps.refl _ _)
  | ep2TransferComplete => exact execEp2TransferComplete_keeps rfl (Keeps.refl _ _)
  | ep3Poll => exact execEp3Poll_keeps rfl (Keeps.refl _ _)
  | ep5Poll => exact execEp5Poll_keeps rfl (Keeps.refl _ _)
  | clearFeatureHalt => exact execClearFeatureHalt_keeps rfl (Keeps.refl _ _)
  | svcOrphRead x0 => exact execSvcOrphRead_keeps (a0 := x0) rfl (Keeps.refl _ _)
  | dspCfgEnWrite x0 x1 => exact execDspCfgEnWrite_keeps rfl (Keeps.refl _ _)
  | headStop x0 => exact execHeadStop_keeps rfl (Keeps.refl _ _)
  | dspCfgFlip x0 => exact execDspCfgFlip_keeps rfl (Keeps.refl _ _)
  | vblank x0 => exact execVblank_keeps rfl (Keeps.refl _ _)
  | teEdge x0 => exact execTeEdge_keeps rfl (Keeps.refl _ _)
  | teTimeout x0 => exact execTeTimeout_keeps rfl (Keeps.refl _ _)
  | lineStart x0 => exact execLineStart_keeps rfl (Keeps.refl _ _)
  | fetchComplete x0 x1 => exact execFetchComplete_keeps rfl (Keeps.refl _ _)
  | tolPublish x0 => exact execTolPublish_keeps rfl (Keeps.refl _ _)
  | flip => exact execFlip_keeps rfl (Keeps.refl _ _)
  | dmxRouteWrite x0 => exact execDmxRouteWrite_keeps rfl (Keeps.refl _ _)
  | dmxStatusRelay => exact execDmxStatusRelay_keeps rfl (Keeps.refl _ _)
  | dspFlip x0 x1 => exact execDspFlip_keeps rfl (Keeps.refl _ _)
  | dspStatus x0 x1 => exact execDspStatus_keeps rfl (Keeps.refl _ _)
  | dspTimingLoad x0 x1 => exact execDspTimingLoad_keeps rfl (Keeps.refl _ _)
  | ethFrameReceive x0 x1 => exact execEthFrameReceive_keeps rfl (Keeps.refl _ _)
  | pauseRepeat x0 => exact execPauseRepeat_keeps rfl (Keeps.refl _ _)
  | pauseFrameReceive x0 x1 => exact execPauseFrameReceive_keeps rfl (Keeps.refl _ _)
  | ethLinkLost x0 x1 => exact execEthLinkLost_keeps rfl (Keeps.refl _ _)
  | etmVctlApply x0 x1 => exact execEtmVctlApply_keeps rfl (Keeps.refl _ _)
  | etmVctlLoad x0 x1 => exact execEtmVctlLoad_keeps rfl (Keeps.refl _ _)
  | mbSubmit x0 => exact execMbSubmit_keeps rfl (Keeps.refl _ _)
  | mbRelease => exact execMbRelease_keeps rfl (Keeps.refl _ _)
  | mbStatRead => exact execMbStatRead_keeps rfl (Keeps.refl _ _)
  | txGo x0 x1 => exact execTxGo_keeps rfl (Keeps.refl _ _)
  | txStatRead => exact execTxStatRead_keeps rfl (Keeps.refl _ _)
  | rqCiWrite x0 x1 => exact execRqCiWrite_keeps rfl (Keeps.refl _ _)
  | bar2Request x0 x1 x2 x3 x4 => exact execBar2Request_keeps rfl (Keeps.refl _ _)
  | hostMemoryTimeout x0 => exact execHostMemoryTimeout_keeps rfl (Keeps.refl _ _)
  | rootPortTimeout x0 => exact execRootPortTimeout_keeps rfl (Keeps.refl _ _)
  | inboundDeviceRequest x0 x1 x2 x3 => exact execInboundDeviceRequest_keeps rfl (Keeps.refl _ _)
  | pcieLinkDown => exact execPcieLinkDown_keeps rfl (Keeps.refl _ _)
  | flr => exact execFlr_keeps rfl (Keeps.refl _ _)
  | rootPortLinkLost => exact execRootPortLinkLost_keeps rfl (Keeps.refl _ _)
  | pcfgEnWrite x0 x1 => exact execPcfgEnWrite_keeps rfl (Keeps.refl _ _)
  | pcfgRoleWrite x0 x1 => exact execPcfgRoleWrite_keeps rfl (Keeps.refl _ _)
  | lcfgEnWrite x0 => exact execLcfgEnWrite_keeps rfl (Keeps.refl _ _)
  | qualifyComplete x0 x1 x2 x3 x4 => exact execQualifyComplete_keeps rfl (Keeps.refl _ _)
  | qualRetry x0 => exact execQualRetry_keeps rfl (Keeps.refl _ _)
  | inrushEnd x0 => exact execInrushEnd_keeps rfl (Keeps.refl _ _)
  | inrushTimeout x0 => exact execInrushTimeout_keeps rfl (Keeps.refl _ _)
  | slowTick x0 x1 x2 => exact execSlowTick_keeps rfl (Keeps.refl _ _)
  | curveTrip x0 => exact execCurveTrip_keeps rfl (Keeps.refl _ _)
  | fastTrip x0 => exact execFastTrip_keeps rfl (Keeps.refl _ _)
  | removal x0 => exact execRemoval_keeps rfl (Keeps.refl _ _)
  | offMinExpiry x0 => exact execOffMinExpiry_keeps rfl (Keeps.refl _ _)
  | fetShort x0 => exact execFetShort_keeps rfl (Keeps.refl _ _)
  | lpwrPeriodic => exact execLpwrPeriodic_keeps rfl (Keeps.refl _ _)
  | lpwr x0 x1 => exact execLpwr_keeps rfl (Keeps.refl _ _)
  | pwrwarnAssert x0 => exact execPwrwarnAssert_keeps rfl (Keeps.refl _ _)
  | pwrwarnDeassert => exact execPwrwarnDeassert_keeps rfl (Keeps.refl _ _)
  | uvlo => exact execUvlo_keeps rfl (Keeps.refl _ _)
  | lbusVon => exact execLbusVon_keeps rfl (Keeps.refl _ _)
  | lpwCctlApply x0 => exact execLpwCctlApply_keeps rfl (Keeps.refl _ _)
  | lpwCctlLoad x0 => exact execLpwCctlLoad_keeps rfl (Keeps.refl _ _)
  | efuseCtl x0 x1 => exact execEfuseCtl_keeps rfl (Keeps.refl _ _)
  | efuseStatus x0 x1 => exact execEfuseStatus_keeps rfl (Keeps.refl _ _)
  | efuseCurve x0 x1 => exact execEfuseCurve_keeps rfl (Keeps.refl _ _)
  | segQualify x0 x1 => exact execSegQualify_keeps rfl (Keeps.refl _ _)
  | xt32Fail => exact execXt32Fail_keeps rfl (Keeps.refl _ _)
  | ldSleepEntry x0 => exact execLdSleepEntry_keeps rfl (Keeps.refl _ _)
  | ldWake x0 x1 => exact execLdWake_keeps rfl (Keeps.refl _ _)
  | fastClockStartDone => exact execFastClockStartDone_keeps rfl (Keeps.refl _ _)
  | pstateSet x0 x1 => exact execPstateSet_keeps rfl (Keeps.refl _ _)
  | wakeCfg x0 x1 => exact execWakeCfg_keeps rfl (Keeps.refl _ _)
  | selfRefreshEntry => exact execSelfRefreshEntry_keeps rfl (Keeps.refl _ _)
  | selfRefreshExit => exact execSelfRefreshExit_keeps rfl (Keeps.refl _ _)
  | selfRefreshExitDone => exact execSelfRefreshExitDone_keeps rfl (Keeps.refl _ _)
  | interruptSourceFire x0 => exact execInterruptSourceFire_keeps rfl (Keeps.refl _ _)
  | interruptDelivery x0 => exact execInterruptDelivery_keeps rfl (Keeps.refl _ _)
  | intDoneWrite x0 => exact execIntDoneWrite_keeps rfl (Keeps.refl _ _)
  | intPendWrite x0 x1 => exact execIntPendWrite_keeps rfl (Keeps.refl _ _)
  | nrsWreasonRead x0 => exact execNrsWreasonRead_keeps (a0 := x0) rfl (Keeps.refl _ _)
  | dcmRgnApply => exact execDcmRgnApply_keeps rfl (Keeps.refl _ _)
  | powerOnReset x0 x1 x2 => exact execPowerOnReset_keeps rfl (Keeps.refl _ _)
  | resetN x0 x1 x2 => exact execResetN_keeps rfl (Keeps.refl _ _)
  | supplyFail => exact execSupplyFail_keeps rfl (Keeps.refl _ _)
  | supplyHoldEnd x0 x1 x2 => exact execSupplyHoldEnd_keeps rfl (Keeps.refl _ _)
  | bootSealVerified x0 x1 => exact execBootSealVerified_keeps rfl (Keeps.refl _ _)
  | booted => exact execBooted_keeps rfl (Keeps.refl _ _)
  | deadBatteryStart x0 x1 x2 => exact execDeadBatteryStart_keeps rfl (Keeps.refl _ _)
  | boardPowerValid => exact execBoardPowerValid_keeps rfl (Keeps.refl _ _)
  | imgInfo x0 x1 => exact execImgInfo_keeps rfl (Keeps.refl _ _)
  | imgWrite x0 x1 => exact execImgWrite_keeps rfl (Keeps.refl _ _)
  | imgDelta x0 x1 => exact execImgDelta_keeps rfl (Keeps.refl _ _)
  | imgVerify x0 x1 => exact execImgVerify_keeps rfl (Keeps.refl _ _)
  | imgActivate x0 x1 => exact execImgActivate_keeps rfl (Keeps.refl _ _)
  | imgCommit x0 x1 => exact execImgCommit_keeps rfl (Keeps.refl _ _)
  | imgRevert x0 x1 => exact execImgRevert_keeps rfl (Keeps.refl _ _)
  | imgLock x0 x1 => exact execImgLock_keeps rfl (Keeps.refl _ _)
  | setRead x0 x1 => exact execSetRead_keeps rfl (Keeps.refl _ _)
  | setWrite x0 x1 => exact execSetWrite_keeps rfl (Keeps.refl _ _)
  | stageWrite x0 x1 => exact execStageWrite_keeps rfl (Keeps.refl _ _)
  | norWriteDone x0 => exact execNorWriteDone_keeps rfl (Keeps.refl _ _)
  | activationStepDone => exact execActivationStepDone_keeps rfl (Keeps.refl _ _)
  | activationTimeout => exact execActivationTimeout_keeps rfl (Keeps.refl _ _)
  | ldShadowsCompared => exact execLdShadowsCompared_keeps rfl (Keeps.refl _ _)
  | ldActivationResume => exact execLdActivationResume_keeps rfl (Keeps.refl _ _)
  | trialExpiry => exact execTrialExpiry_keeps rfl (Keeps.refl _ _)
  | imgLoadlogRead x0 => exact execImgLoadlogRead_keeps rfl (Keeps.refl _ _)
  | imgQspiRead x0 => exact execImgQspiRead_keeps rfl (Keeps.refl _ _)
  | counterLowRead x0 x1 => exact execCounterLowRead_keeps rfl (Keeps.refl _ _)
  | counterHighRead x0 x1 => exact execCounterHighRead_keeps rfl (Keeps.refl _ _)
  | ctrClear x0 x1 => exact execCtrClear_keeps rfl (Keeps.refl _ _)
  | testRun x0 x1 => exact execTestRun_keeps rfl (Keeps.refl _ _)
  | testStatus x0 x1 => exact execTestStatus_keeps rfl (Keeps.refl _ _)
  | logRead x0 x1 => exact execLogRead_keeps rfl (Keeps.refl _ _)
  | eyeMargin x0 x1 => exact execEyeMargin_keeps rfl (Keeps.refl _ _)
  | eyeMarginDone x0 => exact execEyeMarginDone_keeps rfl (Keeps.refl _ _)
  | bankRotStepDone x0 => exact execBankRotStepDone_keeps rfl (Keeps.refl _ _)
  | scrubBurst x0 => exact execScrubBurst_keeps rfl (Keeps.refl _ _)
  | tblCmpDone x0 x1 => exact execTblCmpDone_keeps rfl (Keeps.refl _ _)
  | disruptiveTestDone x0 x1 x2 => exact execDisruptiveTestDone_keeps rfl (Keeps.refl _ _)
  | norLogWrite x0 => exact execNorLogWrite_keeps rfl (Keeps.refl _ _)
  | tempSample x0 x1 => exact execTempSample_keeps rfl (Keeps.refl _ _)
  | dieLstatRead x0 x1 => exact execDieLstatRead_keeps rfl (Keeps.refl _ _)
  | ep1CommandReceive x0 => exact execEp1CommandReceive_keeps rfl (Keeps.refl _ _)
  | ep4BlockReceive x0 => exact execEp4BlockReceive_keeps rfl (Keeps.refl _ _)
  | svcSourceAttach x0 => exact execSvcSourceAttach_keeps rfl (Keeps.refl _ _)
  | pcieLinkUp x0 x1 x2 x3 x4 x5 => exact execPcieLinkUp_keeps rfl (Keeps.refl _ _)
  | ethLinkUp x0 x1 => exact execEthLinkUp_keeps rfl (Keeps.refl _ _)
  | pcieCompletionReceive x0 x1 x2 x3 => exact execPcieCompletionReceive_keeps rfl (Keeps.refl _ _)
  | deepCombAccessDone x0 => exact execDeepCombAccessDone_keeps rfl (Keeps.refl _ _)
  | imgVerifyDone => exact execImgVerifyDone_keeps rfl (Keeps.refl _ _)
  | ethFrameTransmit x0 => exact execEthFrameTransmit_keeps rfl (Keeps.refl _ _)

/-- A well-formed command answers a next state. -/
theorem exec_next (i : Instr) (s : State) (h : i.wellFormed = true) : ∃ t, exec i s = .next t := by
  cases i with
  | registerWrite x0 x1 x2 x3 => exact execRegisterWrite_next x0 x1 x2 x3 s
  | tolgerCellReceive x0 x1 x2 x3 => exact execTolgerCellReceive_next x0 x1 x2 x3 s
  | tolgerFlitReceive x0 x1 x2 => exact execTolgerFlitReceive_next x0 x1 x2 s
  | tolgerNak x0 x1 x2 => exact execTolgerNak_next x0 x1 x2 s
  | tolgerCreditReturn x0 x1 x2 => exact execTolgerCreditReturn_next x0 x1 x2 s
  | tolgerBeatPair x0 x1 => exact execTolgerBeatPair_next x0 x1 s
  | tolgerRelink x0 => exact execTolgerRelink_next x0 s
  | domainQuiesce x0 x1 => exact execDomainQuiesce_next x0 x1 s
  | drainComplete x0 => exact execDrainComplete_next x0 s
  | drainLimitExpiry x0 => exact execDrainLimitExpiry_next x0 s
  | domainReset x0 x1 => exact execDomainReset_next x0 x1 s
  | resetTimeEnd x0 => exact execResetTimeEnd_next x0 s
  | domainReturn x0 x1 => exact execDomainReturn_next x0 x1 s
  | returningComplete x0 => exact execReturningComplete_next x0 s
  | returnTimeout x0 => exact execReturnTimeout_next x0 s
  | domainStatus x0 x1 => exact execDomainStatus_next x0 x1 s
  | ldWarmReset x0 x1 => exact execLdWarmReset_next x0 x1 s
  | portEnable x0 x1 => exact execPortEnable_next x0 x1 s
  | trainingPhaseTimeout x0 => exact execTrainingPhaseTimeout_next x0 s
  | trainRestartTimer x0 => exact execTrainRestartTimer_next x0 s
  | wordLock x0 x1 => exact execWordLock_next x0 x1 s
  | cap x0 x1 => exact execCap_next x0 x1 s
  | prbsLock x0 => exact execPrbsLock_next x0 s
  | alignLast x0 => exact execAlignLast_next x0 s
  | osSlotReceive x0 x1 => exact execOsSlotReceive_next x0 x1 s h
  | dozeWordReceive x0 x1 => exact execDozeWordReceive_next x0 x1 s
  | uncorrectableCodeword x0 x1 => exact execUncorrectableCodeword_next x0 x1 s
  | fcwChkFail x0 => exact execFcwChkFail_next x0 s
  | humIdleTimeout x0 => exact execHumIdleTimeout_next x0 s
  | dozeIdleTimeout x0 => exact execDozeIdleTimeout_next x0 s
  | dormantIdleTimeout x0 => exact execDormantIdleTimeout_next x0 s
  | stateReq x0 x1 => exact execStateReq_next x0 x1 s
  | stateAck x0 x1 => exact execStateAck_next x0 x1 s
  | stateNak x0 x1 => exact execStateNak_next x0 x1 s
  | stateAnswerTimeout x0 => exact execStateAnswerTimeout_next x0 s
  | wake x0 => exact execWake_next x0 s
  | exitComplete x0 => exact execExitComplete_next x0 s
  | exitTimeout x0 => exact execExitTimeout_next x0 s
  | maxstateWrite x0 x1 => exact execMaxstateWrite_next x0 x1 s
  | waggle x0 x1 x2 => exact execWaggle_next x0 x1 x2 s
  | signalDetectLoss x0 x1 => exact execSignalDetectLoss_next x0 x1 s
  | laneFail x0 x1 => exact execLaneFail_next x0 x1 s
  | laneErrorWindow x0 x1 x2 => exact execLaneErrorWindow_next x0 x1 x2 s
  | laneRetireReq x0 x1 => exact execLaneRetireReq_next x0 x1 s
  | laneRetire x0 x1 x2 => exact execLaneRetire_next x0 x1 x2 s
  | retireFrameSwitch x0 x1 => exact execRetireFrameSwitch_next x0 x1 s
  | cellReceive x0 x1 => exact execCellReceive_next x0 x1 s h
  | ackFcw x0 x1 => exact execAckFcw_next x0 x1 s
  | nakFcw x0 x1 => exact execNakFcw_next x0 x1 s
  | nakRetryTimeout x0 => exact execNakRetryTimeout_next x0 s
  | replayTimeout x0 => exact execReplayTimeout_next x0 s
  | resyncReplay x0 x1 => exact execResyncReplay_next x0 x1 s
  | resyncInit x0 => exact execResyncInit_next x0 s
  | resyncCreq x0 x1 => exact execResyncCreq_next x0 x1 s
  | resyncRecall x0 x1 => exact execResyncRecall_next x0 x1 s
  | creditFcw x0 x1 x2 => exact execCreditFcw_next x0 x1 x2 s
  | creditWord x0 x1 x2 x3 => exact execCreditWord_next x0 x1 x2 x3 s
  | creditWordPeriod x0 => exact execCreditWordPeriod_next x0 s
  | creditStarveTimeout x0 x1 => exact execCreditStarveTimeout_next x0 x1 s
  | slotFill x0 x1 => exact execSlotFill_next x0 x1 s
  | cellAdmit x0 x1 => exact execCellAdmit_next x0 x1 s
  | parkRetry x0 x1 => exact execParkRetry_next x0 x1 s
  | entryRecomputed x0 x1 x2 => exact execEntryRecomputed_next x0 x1 x2 s
  | addrWrite x0 => exact execAddrWrite_next x0 s
  | seedExpansionDone => exact execSeedExpansionDone_next s
  | rebuildDone x0 x1 => exact execRebuildDone_next x0 x1 s
  | tblRead x0 x1 => exact execTblRead_next x0 x1 s
  | tblWrite x0 x1 => exact execTblWrite_next x0 x1 s
  | tblRebuild x0 x1 => exact execTblRebuild_next x0 x1 s
  | tblSwap x0 x1 => exact execTblSwap_next x0 x1 s
  | addrAssign x0 x1 => exact execAddrAssign_next x0 x1 s
  | addrAssignRepeat x0 => exact execAddrAssignRepeat_next x0 s
  | ringBreak x0 => exact execRingBreak_next x0 s
  | ringHeal x0 => exact execRingHeal_next x0 s
  | wtrExpiry x0 => exact execWtrExpiry_next x0 s
  | ringHoldExpiry x0 => exact execRingHoldExpiry_next x0 s
  | ringEnClear => exact execRingEnClear_next s
  | bypassWrite x0 => exact execBypassWrite_next x0 s
  | bypassSettleExpiry => exact execBypassSettleExpiry_next s
  | combCellTime x0 x1 => exact execCombCellTime_next x0 x1 s
  | spillRefillDone x0 x1 x2 => exact execSpillRefillDone_next x0 x1 x2 s
  | frameDiscardEnd x0 x1 x2 => exact execFrameDiscardEnd_next x0 x1 x2 s
  | auditDone => exact execAuditDone_next s
  | voqQueueMove x0 x1 => exact execVoqQueueMove_next x0 x1 s
  | flReady x0 => exact execFlReady_next x0 s
  | bankctlRetReq x0 => exact execBankctlRetReq_next x0 s
  | relocationDone x0 => exact execRelocationDone_next x0 s
  | bankctlRtnReq x0 => exact execBankctlRtnReq_next x0 s
  | bankReturnDone x0 => exact execBankReturnDone_next x0 s
  | forceVoqWrite x0 => exact execForceVoqWrite_next x0 s
  | shpCtlApply x0 => exact execShpCtlApply_next x0 s
  | shpCtlLoad x0 => exact execShpCtlLoad_next x0 s
  | polCtlApply x0 => exact execPolCtlApply_next x0 s
  | polCtlLoad x0 => exact execPolCtlLoad_next x0 s
  | xbCfgWrite x0 => exact execXbCfgWrite_next x0 s
  | xbBurstWrite x0 => exact execXbBurstWrite_next x0 s
  | originFrameRelease x0 => exact execOriginFrameRelease_next x0 s
  | expressMonitorWindow => exact execExpressMonitorWindow_next s
  | hwmOccRead x0 => exact execHwmOccRead_next x0 s
  | hwmSojRead x0 => exact execHwmSojRead_next x0 s
  | shpApply x0 x1 => exact execShpApply_next x0 x1 s
  | shpGet x0 x1 => exact execShpGet_next x0 x1 s
  | polApply x0 x1 => exact execPolApply_next x0 x1 s
  | polGet x0 x1 => exact execPolGet_next x0 x1 s
  | hwmRead x0 x1 => exact execHwmRead_next x0 x1 s
  | tunnelFrameOriginate x0 x1 x2 => exact execTunnelFrameOriginate_next x0 x1 x2 s
  | tunnelCellTerminate x0 => exact execTunnelCellTerminate_next x0 s
  | tunGet x0 x1 => exact execTunGet_next x0 x1 s
  | tunSet x0 x1 => exact execTunSet_next x0 x1 s
  | tunResetCtx x0 x1 => exact execTunResetCtx_next x0 x1 s
  | windowRequest x0 x1 x2 x3 x4 => exact execWindowRequest_next x0 x1 x2 x3 x4 s h
  | brgWriteReceive => exact execBrgWriteReceive_next s
  | brgReadReceive => exact execBrgReadReceive_next s
  | cplReceive => exact execCplReceive_next s
  | readTimeout x0 => exact execReadTimeout_next x0 s
  | pwerrReceive => exact execPwerrReceive_next s
  | fenceReceive => exact execFenceReceive_next s
  | fenceAckReceive => exact execFenceAckReceive_next s
  | fenceTimeout x0 => exact execFenceTimeout_next x0 s
  | localRetry x0 => exact execLocalRetry_next x0 s
  | brgWctlApply x0 => exact execBrgWctlApply_next x0 s
  | brgWctlLoad x0 => exact execBrgWctlLoad_next x0 s
  | brgTctlApply x0 => exact execBrgTctlApply_next x0 s
  | brgTctlLoad x0 => exact execBrgTctlLoad_next x0 s
  | pwlDataRead x0 => exact execPwlDataRead_next x0 s
  | elgDataRead x0 => exact execElgDataRead_next x0 s
  | pwlStatRead x0 => exact execPwlStatRead_next x0 s
  | elgStatRead x0 => exact execElgStatRead_next x0 s
  | rdstatRead x0 => exact execRdstatRead_next x0 s
  | brgRead x0 x1 => exact execBrgRead_next x0 x1 s
  | brgWrite x0 x1 => exact execBrgWrite_next x0 x1 s
  | writeFence x0 x1 => exact execWriteFence_next x0 x1 s
  | pwlRead x0 x1 => exact execPwlRead_next x0 x1 s
  | elgRead x0 x1 => exact execElgRead_next x0 x1 s
  | syncSendTimer => exact execSyncSendTimer_next s
  | dreqSendTimer x0 => exact execDreqSendTimer_next x0 s
  | sync x0 x1 x2 x3 x4 => exact execSync_next x0 x1 x2 x3 x4 s
  | dreq x0 x1 => exact execDreq_next x0 x1 s
  | drsp x0 x1 x2 => exact execDrsp_next x0 x1 x2 s
  | dreqMiss x0 => exact execDreqMiss_next x0 s
  | syncLossTimeout => exact execSyncLossTimeout_next s
  | pselWrite x0 => exact execPselWrite_next x0 s
  | announceTimer => exact execAnnounceTimer_next s
  | announce => exact execAnnounce_next s
  | ppsEdge x0 => exact execPpsEdge_next x0 s
  | xt32RatioWindow x0 => exact execXt32RatioWindow_next x0 s
  | nowHiRead x0 => exact execNowHiRead_next x0 s
  | timeGet x0 x1 => exact execTimeGet_next x0 x1 s
  | timeSet x0 x1 => exact execTimeSet_next x0 x1 s
  | arm => exact execArm_next s
  | cancel => exact execCancel_next s
  | trgActlArm x0 => exact execTrgActlArm_next x0 s
  | trgActlCancel x0 => exact execTrgActlCancel_next x0 s
  | trigArm x0 x1 => exact execTrigArm_next x0 x1 s
  | trigCancel x0 x1 => exact execTrigCancel_next x0 x1 s
  | pulseStart x0 => exact execPulseStart_next x0 s
  | pulseEnd x0 => exact execPulseEnd_next x0 s
  | pinModeWrite x0 x1 => exact execPinModeWrite_next x0 x1 s
  | captureEdge x0 x1 => exact execCaptureEdge_next x0 x1 s
  | captRptPeriod x0 => exact execCaptRptPeriod_next x0 s
  | capLoRead x0 x1 => exact execCapLoRead_next x0 x1 s
  | captRead x0 x1 => exact execCaptRead_next x0 x1 s
  | hspiStatus => exact execHspiStatus_next s
  | hspiCmdWrite x0 => exact execHspiCmdWrite_next x0 s
  | hspiRspRead x0 => exact execHspiRspRead_next x0 s
  | cmdReplyReceive => exact execCmdReplyReceive_next s
  | relayTimeout x0 => exact execRelayTimeout_next x0 s
  | orphanExpiry x0 => exact execOrphanExpiry_next x0 s
  | sessionIdleTimeout x0 => exact execSessionIdleTimeout_next x0 s
  | sessionExpiry x0 => exact execSessionExpiry_next x0 s
  | hostselWrite x0 => exact execHostselWrite_next x0 s
  | readReg x0 x1 => exact execReadReg_next x0 x1 s
  | writeReg x0 x1 => exact execWriteReg_next x0 x1 s
  | rmwReg x0 x1 => exact execRmwReg_next x0 x1 s
  | readBlk x0 x1 => exact execReadBlk_next x0 x1 s
  | writeBlk x0 x1 => exact execWriteBlk_next x0 x1 s
  | rmwBlk x0 x1 => exact execRmwBlk_next x0 x1 s
  | readCtr x0 x1 => exact execReadCtr_next x0 x1 s
  | getInfo x0 x1 => exact execGetInfo_next x0 x1 s
  | nop x0 x1 => exact execNop_next x0 x1 s
  | sessionOpen x0 x1 => exact execSessionOpen_next x0 x1 s
  | sessionClose x0 x1 => exact execSessionClose_next x0 x1 s
  | sessionInfo x0 x1 => exact execSessionInfo_next x0 x1 s
  | getOrphan x0 x1 => exact execGetOrphan_next x0 x1 s
  | ccAttach x0 x1 x2 => exact execCcAttach_next x0 x1 x2 s
  | ccDetach x0 => exact execCcDetach_next x0 s
  | vbusSafe0vReached x0 => exact execVbusSafe0vReached_next x0 s
  | vbusEnable x0 => exact execVbusEnable_next x0 s
  | vbusOc x0 => exact execVbusOc_next x0 s
  | pwrwarnReleaseTimer => exact execPwrwarnReleaseTimer_next s
  | sourceCapRepeat x0 => exact execSourceCapRepeat_next x0 s
  | request x0 x1 x2 x3 => exact execRequest_next x0 x1 x2 x3 s
  | senderResponseTimeout x0 => exact execSenderResponseTimeout_next x0 s
  | srcTransitionStart x0 => exact execSrcTransitionStart_next x0 s
  | vbusSettled x0 => exact execVbusSettled_next x0 s
  | getSourceCap x0 => exact execGetSourceCap_next x0 s
  | getSourceCapExtended x0 => exact execGetSourceCapExtended_next x0 s
  | getSinkCap x0 => exact execGetSinkCap_next x0 s
  | getRevision x0 => exact execGetRevision_next x0 s
  | softReset x0 => exact execSoftReset_next x0 s
  | hardReset x0 x1 => exact execHardReset_next x0 x1 s
  | vconnSwap x0 => exact execVconnSwap_next x0 s
  | psRdy x0 => exact execPsRdy_next x0 s
  | vconnSourceTimeout x0 => exact execVconnSourceTimeout_next x0 s
  | drSwap x0 => exact execDrSwap_next x0 s
  | prSwap x0 => exact execPrSwap_next x0 s
  | unsupportedPdMessage x0 x1 => exact execUnsupportedPdMessage_next x0 x1 s
  | discoverIdentitySopPrime x0 x1 => exact execDiscoverIdentitySopPrime_next x0 x1 s
  | discoverIdentityRetry x0 => exact execDiscoverIdentityRetry_next x0 s
  | partnerDiscoveryResponse x0 x1 => exact execPartnerDiscoveryResponse_next x0 x1 s
  | enterModeAck x0 => exact execEnterModeAck_next x0 s
  | dpConfigureAck x0 => exact execDpConfigureAck_next x0 s
  | attention x0 x1 => exact execAttention_next x0 x1 s
  | vdmResponseTimeout x0 => exact execVdmResponseTimeout_next x0 s
  | vconnFault x0 => exact execVconnFault_next x0 s
  | sinkAdjExpiry x0 => exact execSinkAdjExpiry_next x0 s
  | errorRecoveryEnd x0 => exact execErrorRecoveryEnd_next x0 s
  | tcpCfgWrite x0 x1 => exact execTcpCfgWrite_next x0 x1 s
  | pdpBudgetWrite x0 x1 => exact execPdpBudgetWrite_next x0 x1 s
  | sourceCapabilities x0 x1 => exact execSourceCapabilities_next x0 x1 s
  | accept => exact execAccept_next s
  | wait => exact execWait_next s
  | reject => exact execReject_next s
  | sinkRequestRetry => exact execSinkRequestRetry_next s
  | psTransitionTimeout => exact execPsTransitionTimeout_next s
  | tierFall => exact execTierFall_next s
  | svcVbusLoss => exact execSvcVbusLoss_next s
  | pdStatus x0 x1 => exact execPdStatus_next x0 x1 s
  | pdPortCtl x0 x1 => exact execPdPortCtl_next x0 x1 s
  | pdBudget x0 x1 => exact execPdBudget_next x0 x1 s
  | hubPortChange x0 x1 x2 => exact execHubPortChange_next x0 x1 x2 s
  | prxDbWrite x0 x1 => exact execPrxDbWrite_next x0 x1 s
  | doorbell x0 => exact execDoorbell_next x0 s
  | descriptorFetch x0 x1 x2 => exact execDescriptorFetch_next x0 x1 x2 s
  | periodicService x0 x1 x2 => exact execPeriodicService_next x0 x1 x2 s
  | transferComplete x0 x1 x2 x3 x4 => exact execTransferComplete_next x0 x1 x2 x3 x4 s
  | notifyTimer x0 => exact execNotifyTimer_next x0 s
  | usbPortCtl x0 x1 => exact execUsbPortCtl_next x0 x1 s
  | proxyCtl x0 x1 => exact execProxyCtl_next x0 x1 s
  | svcConnectWrite x0 => exact execSvcConnectWrite_next x0 s
  | svcEpbLoad => exact execSvcEpbLoad_next s
  | svcSuspend => exact execSvcSuspend_next s
  | remoteWake => exact execRemoteWake_next s
  | hostResume => exact execHostResume_next s
  | svcBusReset x0 => exact execSvcBusReset_next x0 s
  | setConfiguration x0 => exact execSetConfiguration_next x0 s
  | svcStandardRequest x0 x1 x2 x3 x4 => exact execSvcStandardRequest_next x0 x1 x2 x3 x4 s
  | ep2TransferComplete => exact execEp2TransferComplete_next s
  | ep3Poll => exact execEp3Poll_next s
  | ep5Poll => exact execEp5Poll_next s
  | clearFeatureHalt => exact execClearFeatureHalt_next s
  | svcOrphRead x0 => exact execSvcOrphRead_next x0 s
  | dspCfgEnWrite x0 x1 => exact execDspCfgEnWrite_next x0 x1 s
  | headStop x0 => exact execHeadStop_next x0 s
  | dspCfgFlip x0 => exact execDspCfgFlip_next x0 s
  | vblank x0 => exact execVblank_next x0 s
  | teEdge x0 => exact execTeEdge_next x0 s
  | teTimeout x0 => exact execTeTimeout_next x0 s
  | lineStart x0 => exact execLineStart_next x0 s
  | fetchComplete x0 x1 => exact execFetchComplete_next x0 x1 s
  | tolPublish x0 => exact execTolPublish_next x0 s
  | flip => exact execFlip_next s
  | dmxRouteWrite x0 => exact execDmxRouteWrite_next x0 s
  | dmxStatusRelay => exact execDmxStatusRelay_next s
  | dspFlip x0 x1 => exact execDspFlip_next x0 x1 s
  | dspStatus x0 x1 => exact execDspStatus_next x0 x1 s
  | dspTimingLoad x0 x1 => exact execDspTimingLoad_next x0 x1 s
  | ethFrameReceive x0 x1 => exact execEthFrameReceive_next x0 x1 s
  | pauseRepeat x0 => exact execPauseRepeat_next x0 s
  | pauseFrameReceive x0 x1 => exact execPauseFrameReceive_next x0 x1 s
  | ethLinkLost x0 x1 => exact execEthLinkLost_next x0 x1 s
  | etmVctlApply x0 x1 => exact execEtmVctlApply_next x0 x1 s
  | etmVctlLoad x0 x1 => exact execEtmVctlLoad_next x0 x1 s
  | mbSubmit x0 => exact execMbSubmit_next x0 s
  | mbRelease => exact execMbRelease_next s
  | mbStatRead => exact execMbStatRead_next s
  | txGo x0 x1 => exact execTxGo_next x0 x1 s
  | txStatRead => exact execTxStatRead_next s
  | rqCiWrite x0 x1 => exact execRqCiWrite_next x0 x1 s
  | bar2Request x0 x1 x2 x3 x4 => exact execBar2Request_next x0 x1 x2 x3 x4 s h
  | hostMemoryTimeout x0 => exact execHostMemoryTimeout_next x0 s
  | rootPortTimeout x0 => exact execRootPortTimeout_next x0 s
  | inboundDeviceRequest x0 x1 x2 x3 => exact execInboundDeviceRequest_next x0 x1 x2 x3 s
  | pcieLinkDown => exact execPcieLinkDown_next s
  | flr => exact execFlr_next s
  | rootPortLinkLost => exact execRootPortLinkLost_next s
  | pcfgEnWrite x0 x1 => exact execPcfgEnWrite_next x0 x1 s
  | pcfgRoleWrite x0 x1 => exact execPcfgRoleWrite_next x0 x1 s
  | lcfgEnWrite x0 => exact execLcfgEnWrite_next x0 s
  | qualifyComplete x0 x1 x2 x3 x4 => exact execQualifyComplete_next x0 x1 x2 x3 x4 s
  | qualRetry x0 => exact execQualRetry_next x0 s
  | inrushEnd x0 => exact execInrushEnd_next x0 s
  | inrushTimeout x0 => exact execInrushTimeout_next x0 s
  | slowTick x0 x1 x2 => exact execSlowTick_next x0 x1 x2 s
  | curveTrip x0 => exact execCurveTrip_next x0 s
  | fastTrip x0 => exact execFastTrip_next x0 s
  | removal x0 => exact execRemoval_next x0 s
  | offMinExpiry x0 => exact execOffMinExpiry_next x0 s
  | fetShort x0 => exact execFetShort_next x0 s
  | lpwrPeriodic => exact execLpwrPeriodic_next s
  | lpwr x0 x1 => exact execLpwr_next x0 x1 s
  | pwrwarnAssert x0 => exact execPwrwarnAssert_next x0 s
  | pwrwarnDeassert => exact execPwrwarnDeassert_next s
  | uvlo => exact execUvlo_next s
  | lbusVon => exact execLbusVon_next s
  | lpwCctlApply x0 => exact execLpwCctlApply_next x0 s
  | lpwCctlLoad x0 => exact execLpwCctlLoad_next x0 s
  | efuseCtl x0 x1 => exact execEfuseCtl_next x0 x1 s
  | efuseStatus x0 x1 => exact execEfuseStatus_next x0 x1 s
  | efuseCurve x0 x1 => exact execEfuseCurve_next x0 x1 s
  | segQualify x0 x1 => exact execSegQualify_next x0 x1 s
  | xt32Fail => exact execXt32Fail_next s
  | ldSleepEntry x0 => exact execLdSleepEntry_next x0 s
  | ldWake x0 x1 => exact execLdWake_next x0 x1 s
  | fastClockStartDone => exact execFastClockStartDone_next s
  | pstateSet x0 x1 => exact execPstateSet_next x0 x1 s
  | wakeCfg x0 x1 => exact execWakeCfg_next x0 x1 s
  | selfRefreshEntry => exact execSelfRefreshEntry_next s
  | selfRefreshExit => exact execSelfRefreshExit_next s
  | selfRefreshExitDone => exact execSelfRefreshExitDone_next s
  | interruptSourceFire x0 => exact execInterruptSourceFire_next x0 s
  | interruptDelivery x0 => exact execInterruptDelivery_next x0 s
  | intDoneWrite x0 => exact execIntDoneWrite_next x0 s
  | intPendWrite x0 x1 => exact execIntPendWrite_next x0 x1 s
  | nrsWreasonRead x0 => exact execNrsWreasonRead_next x0 s
  | dcmRgnApply => exact execDcmRgnApply_next s
  | powerOnReset x0 x1 x2 => exact execPowerOnReset_next x0 x1 x2 s
  | resetN x0 x1 x2 => exact execResetN_next x0 x1 x2 s
  | supplyFail => exact execSupplyFail_next s
  | supplyHoldEnd x0 x1 x2 => exact execSupplyHoldEnd_next x0 x1 x2 s
  | bootSealVerified x0 x1 => exact execBootSealVerified_next x0 x1 s
  | booted => exact execBooted_next s
  | deadBatteryStart x0 x1 x2 => exact execDeadBatteryStart_next x0 x1 x2 s
  | boardPowerValid => exact execBoardPowerValid_next s
  | imgInfo x0 x1 => exact execImgInfo_next x0 x1 s
  | imgWrite x0 x1 => exact execImgWrite_next x0 x1 s
  | imgDelta x0 x1 => exact execImgDelta_next x0 x1 s
  | imgVerify x0 x1 => exact execImgVerify_next x0 x1 s
  | imgActivate x0 x1 => exact execImgActivate_next x0 x1 s
  | imgCommit x0 x1 => exact execImgCommit_next x0 x1 s
  | imgRevert x0 x1 => exact execImgRevert_next x0 x1 s
  | imgLock x0 x1 => exact execImgLock_next x0 x1 s
  | setRead x0 x1 => exact execSetRead_next x0 x1 s
  | setWrite x0 x1 => exact execSetWrite_next x0 x1 s
  | stageWrite x0 x1 => exact execStageWrite_next x0 x1 s
  | norWriteDone x0 => exact execNorWriteDone_next x0 s
  | activationStepDone => exact execActivationStepDone_next s
  | activationTimeout => exact execActivationTimeout_next s
  | ldShadowsCompared => exact execLdShadowsCompared_next s
  | ldActivationResume => exact execLdActivationResume_next s
  | trialExpiry => exact execTrialExpiry_next s
  | imgLoadlogRead x0 => exact execImgLoadlogRead_next x0 s
  | imgQspiRead x0 => exact execImgQspiRead_next x0 s
  | counterLowRead x0 x1 => exact execCounterLowRead_next x0 x1 s
  | counterHighRead x0 x1 => exact execCounterHighRead_next x0 x1 s
  | ctrClear x0 x1 => exact execCtrClear_next x0 x1 s
  | testRun x0 x1 => exact execTestRun_next x0 x1 s
  | testStatus x0 x1 => exact execTestStatus_next x0 x1 s
  | logRead x0 x1 => exact execLogRead_next x0 x1 s
  | eyeMargin x0 x1 => exact execEyeMargin_next x0 x1 s
  | eyeMarginDone x0 => exact execEyeMarginDone_next x0 s
  | bankRotStepDone x0 => exact execBankRotStepDone_next x0 s
  | scrubBurst x0 => exact execScrubBurst_next x0 s
  | tblCmpDone x0 x1 => exact execTblCmpDone_next x0 x1 s
  | disruptiveTestDone x0 x1 x2 => exact execDisruptiveTestDone_next x0 x1 x2 s
  | norLogWrite x0 => exact execNorLogWrite_next x0 s
  | tempSample x0 x1 => exact execTempSample_next x0 x1 s
  | dieLstatRead x0 x1 => exact execDieLstatRead_next x0 x1 s
  | ep1CommandReceive x0 => exact execEp1CommandReceive_next x0 s
  | ep4BlockReceive x0 => exact execEp4BlockReceive_next x0 s
  | svcSourceAttach x0 => exact execSvcSourceAttach_next x0 s
  | pcieLinkUp x0 x1 x2 x3 x4 x5 => exact execPcieLinkUp_next x0 x1 x2 x3 x4 x5 s
  | ethLinkUp x0 x1 => exact execEthLinkUp_next x0 x1 s
  | pcieCompletionReceive x0 x1 x2 x3 => exact execPcieCompletionReceive_next x0 x1 x2 x3 s
  | deepCombAccessDone x0 => exact execDeepCombAccessDone_next x0 s
  | imgVerifyDone => exact execImgVerifyDone_next s
  | ethFrameTransmit x0 => exact execEthFrameTransmit_next x0 s

end Sys2Proof.Machine
end

