-- ==== Sys2Proof/Laws/Commands.lean ====
section
/-! SUPPORT. What the shared operations of the command engine and of register access do: an opcode that may be dispatched runs its
effect, waits, or is answered ST_BAD_LEN; a register write without an effect of its own only stores. -/

namespace Sys2Proof.Machine

-- One theorem at a time, so that the package as one text compiles within its memory limit.
set_option Elab.async false

theorem srcSt_of_srcs {s t : State} (h : t.srcs = s.srcs) (n : Nat) : srcSt t n = srcSt s n := by unfold srcSt; rw [h]

theorem dispatch_rd {o : Origin} {s : State} {f : Fld} : rd f (dispatch o s) = rd f s := rfl

theorem command_runs {o : Origin} {body : List Byte} {n : Nat} {f : State → State} {s : State}
    (h : mayDispatch s o = true) (hl : body.length = n) : command o body n f s = .next (f (dispatch o s)) := by
  unfold command; simp [h, hl]

theorem commandV_runs {o : Origin} {b : Bool} {f : State → State} {s : State}
    (h : mayDispatch s o = true) (hl : b = true) : commandV o b f s = .next (f (dispatch o s)) := by
  unfold commandV; simp [h, hl]

theorem command_waits {o : Origin} {body : List Byte} {n : Nat} {f : State → State} {s : State} (h : mayDispatch s o = false) :
    command o body n f s = .next s := by
  unfold command; simp [h]

theorem commandV_waits {o : Origin} {b : Bool} {f : State → State} {s : State} (h : mayDispatch s o = false) :
    commandV o b f s = .next s := by
  unfold commandV; simp [h]

theorem command_badLen {o : Origin} {body : List Byte} {n : Nat} {f : State → State} {s : State}
    (h : mayDispatch s o = true) (hl : body.length ≠ n) : command o body n f s = .next (reply o ST_BAD_LEN [] (dispatch o s)) := by
  unfold command; simp [h, hl]

theorem commandV_badLen {o : Origin} {b : Bool} {f : State → State} {s : State} (h : mayDispatch s o = true) (hl : b = false) :
    commandV o b f s = .next (reply o ST_BAD_LEN [] (dispatch o s)) := by
  unfold commandV; simp [h, hl]

theorem putLd_stores {r : EntryPoint} {a : Nat} {w mask : Word} {g s : State} (hs : addrSlot a = 0) (h : writeActs a = false) :
    putLd r a w mask g s = (ST_OK, g) := by
  unfold writeActs at h
  simp only [hs, if_true] at h
  unfold putLd
  dsimp only
  split at h <;> simp_all
  rw [if_neg (by omega), if_neg (by omega)]

theorem putDie_stores {r : EntryPoint} {a : Nat} {w : Word} {g s : State} (hs : addrSlot a ≠ 0) (h : writeActs a = false) :
    putDie r a w g s = (ST_OK, g) := by
  unfold writeActs at h
  simp only [hs, if_false] at h
  unfold putDie
  dsimp only
  split at h
  · simp_all; grind
  · simp_all; grind

theorem beBytes_length {k n : Nat} : (beBytes k n).length = k := by
  induction k generalizing n with
  | zero => rfl
  | succ k ih => simp [beBytes, ih]

theorem leBytes_length {k n : Nat} : (leBytes k n).length = k := by
  induction k generalizing n with
  | zero => rfl
  | succ k ih => simp [leBytes, ih]

end Sys2Proof.Machine
end

