-- ==== Sys2Proof/Laws/State.lean ====
section
/-! SUPPORT. What each update of State leaves alone, one lemma per field: no later proof unfolds a record update. -/
namespace Sys2Proof.Machine

-- One theorem at a time, so that the package as one text compiles within its memory limit.
set_option Elab.async false

variable {s : State}

/-! `regSet` changes `regs`. -/
@[simp] theorem regSet_variant {k : Nat} {v : Word} : (regSet s k v).variant = s.variant := rfl
@[simp] theorem regSet_stepB0 {k : Nat} {v : Word} : (regSet s k v).stepB0 = s.stepB0 := rfl
@[simp] theorem regSet_now {k : Nat} {v : Word} : (regSet s k v).now = s.now := rfl
@[simp] theorem regSet_free {k : Nat} {v : Word} : (regSet s k v).free = s.free := rfl
@[simp] theorem regSet_ctrs {k : Nat} {v : Word} : (regSet s k v).ctrs = s.ctrs := rfl
@[simp] theorem regSet_ctrRc {k : Nat} {v : Word} : (regSet s k v).ctrRc = s.ctrRc := rfl
@[simp] theorem regSet_srcs {k : Nat} {v : Word} : (regSet s k v).srcs = s.srcs := rfl
@[simp] theorem regSet_lastRead {k : Nat} {v : Word} : (regSet s k v).lastRead = s.lastRead := rfl
@[simp] theorem regSet_ports {k : Nat} {v : Word} : (regSet s k v).ports = s.ports := rfl
@[simp] theorem regSet_tolger {k : Nat} {v : Word} : (regSet s k v).tolger = s.tolger := rfl
@[simp] theorem regSet_domains {k : Nat} {v : Word} : (regSet s k v).domains = s.domains := rfl
@[simp] theorem regSet_topo {k : Nat} {v : Word} : (regSet s k v).topo = s.topo := rfl
@[simp] theorem regSet_comb {k : Nat} {v : Word} : (regSet s k v).comb = s.comb := rfl
@[simp] theorem regSet_sched {k : Nat} {v : Word} : (regSet s k v).sched = s.sched := rfl
@[simp] theorem regSet_tuns {k : Nat} {v : Word} : (regSet s k v).tuns = s.tuns := rfl
@[simp] theorem regSet_brg {k : Nat} {v : Word} : (regSet s k v).brg = s.brg := rfl
@[simp] theorem regSet_cmd {k : Nat} {v : Word} : (regSet s k v).cmd = s.cmd := rfl
@[simp] theorem regSet_deep {k : Nat} {v : Word} : (regSet s k v).deep = s.deep := rfl
@[simp] theorem regSet_lt {k : Nat} {v : Word} : (regSet s k v).lt = s.lt := rfl
@[simp] theorem regSet_diag {k : Nat} {v : Word} : (regSet s k v).diag = s.diag := rfl
@[simp] theorem regSet_time {k : Nat} {v : Word} : (regSet s k v).time = s.time := rfl
@[simp] theorem regSet_otp {k : Nat} {v : Word} : (regSet s k v).otp = s.otp := rfl
@[simp] theorem regSet_trig {k : Nat} {v : Word} : (regSet s k v).trig = s.trig := rfl
@[simp] theorem regSet_trims {k : Nat} {v : Word} : (regSet s k v).trims = s.trims := rfl
@[simp] theorem regSet_tcp {k : Nat} {v : Word} : (regSet s k v).tcp = s.tcp := rfl
@[simp] theorem regSet_svcSink {k : Nat} {v : Word} : (regSet s k v).svcSink = s.svcSink := rfl
@[simp] theorem regSet_pdTables {k : Nat} {v : Word} : (regSet s k v).pdTables = s.pdTables := rfl
@[simp] theorem regSet_proxies {k : Nat} {v : Word} : (regSet s k v).proxies = s.proxies := rfl
@[simp] theorem regSet_svcDev {k : Nat} {v : Word} : (regSet s k v).svcDev = s.svcDev := rfl
@[simp] theorem regSet_heads {k : Nat} {v : Word} : (regSet s k v).heads = s.heads := rfl
@[simp] theorem regSet_timings {k : Nat} {v : Word} : (regSet s k v).timings = s.timings := rfl
@[simp] theorem regSet_tols {k : Nat} {v : Word} : (regSet s k v).tols = s.tols := rfl
@[simp] theorem regSet_dpLine {k : Nat} {v : Word} : (regSet s k v).dpLine = s.dpLine := rfl
@[simp] theorem regSet_eths {k : Nat} {v : Word} : (regSet s k v).eths = s.eths := rfl
@[simp] theorem regSet_etm {k : Nat} {v : Word} : (regSet s k v).etm = s.etm := rfl
@[simp] theorem regSet_hostIf {k : Nat} {v : Word} : (regSet s k v).hostIf = s.hostIf := rfl
@[simp] theorem regSet_efuses {k : Nat} {v : Word} : (regSet s k v).efuses = s.efuses := rfl
@[simp] theorem regSet_nurse {k : Nat} {v : Word} : (regSet s k v).nurse = s.nurse := rfl
@[simp] theorem regSet_tests {k : Nat} {v : Word} : (regSet s k v).tests = s.tests := rfl
@[simp] theorem regSet_img {k : Nat} {v : Word} : (regSet s k v).img = s.img := rfl
@[simp] theorem regSet_nor {k : Nat} {v : Word} : (regSet s k v).nor = s.nor := rfl
@[simp] theorem regSet_supplyHold {k : Nat} {v : Word} : (regSet s k v).supplyHold = s.supplyHold := rfl
@[simp] theorem regSet_pending {k : Nat} {v : Word} : (regSet s k v).pending = s.pending := rfl

/-! `wr` changes `regs`. -/
@[simp] theorem wr_variant {f : Fld} {x : Nat} : (wr f x s).variant = s.variant := rfl
@[simp] theorem wr_stepB0 {f : Fld} {x : Nat} : (wr f x s).stepB0 = s.stepB0 := rfl
@[simp] theorem wr_now {f : Fld} {x : Nat} : (wr f x s).now = s.now := rfl
@[simp] theorem wr_free {f : Fld} {x : Nat} : (wr f x s).free = s.free := rfl
@[simp] theorem wr_ctrs {f : Fld} {x : Nat} : (wr f x s).ctrs = s.ctrs := rfl
@[simp] theorem wr_ctrRc {f : Fld} {x : Nat} : (wr f x s).ctrRc = s.ctrRc := rfl
@[simp] theorem wr_srcs {f : Fld} {x : Nat} : (wr f x s).srcs = s.srcs := rfl
@[simp] theorem wr_lastRead {f : Fld} {x : Nat} : (wr f x s).lastRead = s.lastRead := rfl
@[simp] theorem wr_ports {f : Fld} {x : Nat} : (wr f x s).ports = s.ports := rfl
@[simp] theorem wr_tolger {f : Fld} {x : Nat} : (wr f x s).tolger = s.tolger := rfl
@[simp] theorem wr_domains {f : Fld} {x : Nat} : (wr f x s).domains = s.domains := rfl
@[simp] theorem wr_topo {f : Fld} {x : Nat} : (wr f x s).topo = s.topo := rfl
@[simp] theorem wr_comb {f : Fld} {x : Nat} : (wr f x s).comb = s.comb := rfl
@[simp] theorem wr_sched {f : Fld} {x : Nat} : (wr f x s).sched = s.sched := rfl
@[simp] theorem wr_tuns {f : Fld} {x : Nat} : (wr f x s).tuns = s.tuns := rfl
@[simp] theorem wr_brg {f : Fld} {x : Nat} : (wr f x s).brg = s.brg := rfl
@[simp] theorem wr_cmd {f : Fld} {x : Nat} : (wr f x s).cmd = s.cmd := rfl
@[simp] theorem wr_deep {f : Fld} {x : Nat} : (wr f x s).deep = s.deep := rfl
@[simp] theorem wr_lt {f : Fld} {x : Nat} : (wr f x s).lt = s.lt := rfl
@[simp] theorem wr_diag {f : Fld} {x : Nat} : (wr f x s).diag = s.diag := rfl
@[simp] theorem wr_time {f : Fld} {x : Nat} : (wr f x s).time = s.time := rfl
@[simp] theorem wr_otp {f : Fld} {x : Nat} : (wr f x s).otp = s.otp := rfl
@[simp] theorem wr_trig {f : Fld} {x : Nat} : (wr f x s).trig = s.trig := rfl
@[simp] theorem wr_trims {f : Fld} {x : Nat} : (wr f x s).trims = s.trims := rfl
@[simp] theorem wr_tcp {f : Fld} {x : Nat} : (wr f x s).tcp = s.tcp := rfl
@[simp] theorem wr_svcSink {f : Fld} {x : Nat} : (wr f x s).svcSink = s.svcSink := rfl
@[simp] theorem wr_pdTables {f : Fld} {x : Nat} : (wr f x s).pdTables = s.pdTables := rfl
@[simp] theorem wr_proxies {f : Fld} {x : Nat} : (wr f x s).proxies = s.proxies := rfl
@[simp] theorem wr_svcDev {f : Fld} {x : Nat} : (wr f x s).svcDev = s.svcDev := rfl
@[simp] theorem wr_heads {f : Fld} {x : Nat} : (wr f x s).heads = s.heads := rfl
@[simp] theorem wr_timings {f : Fld} {x : Nat} : (wr f x s).timings = s.timings := rfl
@[simp] theorem wr_tols {f : Fld} {x : Nat} : (wr f x s).tols = s.tols := rfl
@[simp] theorem wr_dpLine {f : Fld} {x : Nat} : (wr f x s).dpLine = s.dpLine := rfl
@[simp] theorem wr_eths {f : Fld} {x : Nat} : (wr f x s).eths = s.eths := rfl
@[simp] theorem wr_etm {f : Fld} {x : Nat} : (wr f x s).etm = s.etm := rfl
@[simp] theorem wr_hostIf {f : Fld} {x : Nat} : (wr f x s).hostIf = s.hostIf := rfl
@[simp] theorem wr_efuses {f : Fld} {x : Nat} : (wr f x s).efuses = s.efuses := rfl
@[simp] theorem wr_nurse {f : Fld} {x : Nat} : (wr f x s).nurse = s.nurse := rfl
@[simp] theorem wr_tests {f : Fld} {x : Nat} : (wr f x s).tests = s.tests := rfl
@[simp] theorem wr_img {f : Fld} {x : Nat} : (wr f x s).img = s.img := rfl
@[simp] theorem wr_nor {f : Fld} {x : Nat} : (wr f x s).nor = s.nor := rfl
@[simp] theorem wr_supplyHold {f : Fld} {x : Nat} : (wr f x s).supplyHold = s.supplyHold := rfl
@[simp] theorem wr_pending {f : Fld} {x : Nat} : (wr f x s).pending = s.pending := rfl

/-! `orF` changes `regs`. -/
@[simp] theorem orF_variant {f : Fld} {m : Nat} : (orF f m s).variant = s.variant := rfl
@[simp] theorem orF_stepB0 {f : Fld} {m : Nat} : (orF f m s).stepB0 = s.stepB0 := rfl
@[simp] theorem orF_now {f : Fld} {m : Nat} : (orF f m s).now = s.now := rfl
@[simp] theorem orF_free {f : Fld} {m : Nat} : (orF f m s).free = s.free := rfl
@[simp] theorem orF_ctrs {f : Fld} {m : Nat} : (orF f m s).ctrs = s.ctrs := rfl
@[simp] theorem orF_ctrRc {f : Fld} {m : Nat} : (orF f m s).ctrRc = s.ctrRc := rfl
@[simp] theorem orF_srcs {f : Fld} {m : Nat} : (orF f m s).srcs = s.srcs := rfl
@[simp] theorem orF_lastRead {f : Fld} {m : Nat} : (orF f m s).lastRead = s.lastRead := rfl
@[simp] theorem orF_ports {f : Fld} {m : Nat} : (orF f m s).ports = s.ports := rfl
@[simp] theorem orF_tolger {f : Fld} {m : Nat} : (orF f m s).tolger = s.tolger := rfl
@[simp] theorem orF_domains {f : Fld} {m : Nat} : (orF f m s).domains = s.domains := rfl
@[simp] theorem orF_topo {f : Fld} {m : Nat} : (orF f m s).topo = s.topo := rfl
@[simp] theorem orF_comb {f : Fld} {m : Nat} : (orF f m s).comb = s.comb := rfl
@[simp] theorem orF_sched {f : Fld} {m : Nat} : (orF f m s).sched = s.sched := rfl
@[simp] theorem orF_tuns {f : Fld} {m : Nat} : (orF f m s).tuns = s.tuns := rfl
@[simp] theorem orF_brg {f : Fld} {m : Nat} : (orF f m s).brg = s.brg := rfl
@[simp] theorem orF_cmd {f : Fld} {m : Nat} : (orF f m s).cmd = s.cmd := rfl
@[simp] theorem orF_deep {f : Fld} {m : Nat} : (orF f m s).deep = s.deep := rfl
@[simp] theorem orF_lt {f : Fld} {m : Nat} : (orF f m s).lt = s.lt := rfl
@[simp] theorem orF_diag {f : Fld} {m : Nat} : (orF f m s).diag = s.diag := rfl
@[simp] theorem orF_time {f : Fld} {m : Nat} : (orF f m s).time = s.time := rfl
@[simp] theorem orF_otp {f : Fld} {m : Nat} : (orF f m s).otp = s.otp := rfl
@[simp] theorem orF_trig {f : Fld} {m : Nat} : (orF f m s).trig = s.trig := rfl
@[simp] theorem orF_trims {f : Fld} {m : Nat} : (orF f m s).trims = s.trims := rfl
@[simp] theorem orF_tcp {f : Fld} {m : Nat} : (orF f m s).tcp = s.tcp := rfl
@[simp] theorem orF_svcSink {f : Fld} {m : Nat} : (orF f m s).svcSink = s.svcSink := rfl
@[simp] theorem orF_pdTables {f : Fld} {m : Nat} : (orF f m s).pdTables = s.pdTables := rfl
@[simp] theorem orF_proxies {f : Fld} {m : Nat} : (orF f m s).proxies = s.proxies := rfl
@[simp] theorem orF_svcDev {f : Fld} {m : Nat} : (orF f m s).svcDev = s.svcDev := rfl
@[simp] theorem orF_heads {f : Fld} {m : Nat} : (orF f m s).heads = s.heads := rfl
@[simp] theorem orF_timings {f : Fld} {m : Nat} : (orF f m s).timings = s.timings := rfl
@[simp] theorem orF_tols {f : Fld} {m : Nat} : (orF f m s).tols = s.tols := rfl
@[simp] theorem orF_dpLine {f : Fld} {m : Nat} : (orF f m s).dpLine = s.dpLine := rfl
@[simp] theorem orF_eths {f : Fld} {m : Nat} : (orF f m s).eths = s.eths := rfl
@[simp] theorem orF_etm {f : Fld} {m : Nat} : (orF f m s).etm = s.etm := rfl
@[simp] theorem orF_hostIf {f : Fld} {m : Nat} : (orF f m s).hostIf = s.hostIf := rfl
@[simp] theorem orF_efuses {f : Fld} {m : Nat} : (orF f m s).efuses = s.efuses := rfl
@[simp] theorem orF_nurse {f : Fld} {m : Nat} : (orF f m s).nurse = s.nurse := rfl
@[simp] theorem orF_tests {f : Fld} {m : Nat} : (orF f m s).tests = s.tests := rfl
@[simp] theorem orF_img {f : Fld} {m : Nat} : (orF f m s).img = s.img := rfl
@[simp] theorem orF_nor {f : Fld} {m : Nat} : (orF f m s).nor = s.nor := rfl
@[simp] theorem orF_supplyHold {f : Fld} {m : Nat} : (orF f m s).supplyHold = s.supplyHold := rfl
@[simp] theorem orF_pending {f : Fld} {m : Nat} : (orF f m s).pending = s.pending := rfl

/-! `setSrc` changes `srcs`. -/
@[simp] theorem setSrc_variant {n : Nat} {x : SrcState} : (setSrc n x s).variant = s.variant := rfl
@[simp] theorem setSrc_stepB0 {n : Nat} {x : SrcState} : (setSrc n x s).stepB0 = s.stepB0 := rfl
@[simp] theorem setSrc_now {n : Nat} {x : SrcState} : (setSrc n x s).now = s.now := rfl
@[simp] theorem setSrc_free {n : Nat} {x : SrcState} : (setSrc n x s).free = s.free := rfl
@[simp] theorem setSrc_regs {n : Nat} {x : SrcState} : (setSrc n x s).regs = s.regs := rfl
@[simp] theorem setSrc_ctrs {n : Nat} {x : SrcState} : (setSrc n x s).ctrs = s.ctrs := rfl
@[simp] theorem setSrc_ctrRc {n : Nat} {x : SrcState} : (setSrc n x s).ctrRc = s.ctrRc := rfl
@[simp] theorem setSrc_lastRead {n : Nat} {x : SrcState} : (setSrc n x s).lastRead = s.lastRead := rfl
@[simp] theorem setSrc_ports {n : Nat} {x : SrcState} : (setSrc n x s).ports = s.ports := rfl
@[simp] theorem setSrc_tolger {n : Nat} {x : SrcState} : (setSrc n x s).tolger = s.tolger := rfl
@[simp] theorem setSrc_domains {n : Nat} {x : SrcState} : (setSrc n x s).domains = s.domains := rfl
@[simp] theorem setSrc_topo {n : Nat} {x : SrcState} : (setSrc n x s).topo = s.topo := rfl
@[simp] theorem setSrc_comb {n : Nat} {x : SrcState} : (setSrc n x s).comb = s.comb := rfl
@[simp] theorem setSrc_sched {n : Nat} {x : SrcState} : (setSrc n x s).sched = s.sched := rfl
@[simp] theorem setSrc_tuns {n : Nat} {x : SrcState} : (setSrc n x s).tuns = s.tuns := rfl
@[simp] theorem setSrc_brg {n : Nat} {x : SrcState} : (setSrc n x s).brg = s.brg := rfl
@[simp] theorem setSrc_cmd {n : Nat} {x : SrcState} : (setSrc n x s).cmd = s.cmd := rfl
@[simp] theorem setSrc_deep {n : Nat} {x : SrcState} : (setSrc n x s).deep = s.deep := rfl
@[simp] theorem setSrc_lt {n : Nat} {x : SrcState} : (setSrc n x s).lt = s.lt := rfl
@[simp] theorem setSrc_diag {n : Nat} {x : SrcState} : (setSrc n x s).diag = s.diag := rfl
@[simp] theorem setSrc_time {n : Nat} {x : SrcState} : (setSrc n x s).time = s.time := rfl
@[simp] theorem setSrc_otp {n : Nat} {x : SrcState} : (setSrc n x s).otp = s.otp := rfl
@[simp] theorem setSrc_trig {n : Nat} {x : SrcState} : (setSrc n x s).trig = s.trig := rfl
@[simp] theorem setSrc_trims {n : Nat} {x : SrcState} : (setSrc n x s).trims = s.trims := rfl
@[simp] theorem setSrc_tcp {n : Nat} {x : SrcState} : (setSrc n x s).tcp = s.tcp := rfl
@[simp] theorem setSrc_svcSink {n : Nat} {x : SrcState} : (setSrc n x s).svcSink = s.svcSink := rfl
@[simp] theorem setSrc_pdTables {n : Nat} {x : SrcState} : (setSrc n x s).pdTables = s.pdTables := rfl
@[simp] theorem setSrc_proxies {n : Nat} {x : SrcState} : (setSrc n x s).proxies = s.proxies := rfl
@[simp] theorem setSrc_svcDev {n : Nat} {x : SrcState} : (setSrc n x s).svcDev = s.svcDev := rfl
@[simp] theorem setSrc_heads {n : Nat} {x : SrcState} : (setSrc n x s).heads = s.heads := rfl
@[simp] theorem setSrc_timings {n : Nat} {x : SrcState} : (setSrc n x s).timings = s.timings := rfl
@[simp] theorem setSrc_tols {n : Nat} {x : SrcState} : (setSrc n x s).tols = s.tols := rfl
@[simp] theorem setSrc_dpLine {n : Nat} {x : SrcState} : (setSrc n x s).dpLine = s.dpLine := rfl
@[simp] theorem setSrc_eths {n : Nat} {x : SrcState} : (setSrc n x s).eths = s.eths := rfl
@[simp] theorem setSrc_etm {n : Nat} {x : SrcState} : (setSrc n x s).etm = s.etm := rfl
@[simp] theorem setSrc_hostIf {n : Nat} {x : SrcState} : (setSrc n x s).hostIf = s.hostIf := rfl
@[simp] theorem setSrc_efuses {n : Nat} {x : SrcState} : (setSrc n x s).efuses = s.efuses := rfl
@[simp] theorem setSrc_nurse {n : Nat} {x : SrcState} : (setSrc n x s).nurse = s.nurse := rfl
@[simp] theorem setSrc_tests {n : Nat} {x : SrcState} : (setSrc n x s).tests = s.tests := rfl
@[simp] theorem setSrc_img {n : Nat} {x : SrcState} : (setSrc n x s).img = s.img := rfl
@[simp] theorem setSrc_nor {n : Nat} {x : SrcState} : (setSrc n x s).nor = s.nor := rfl
@[simp] theorem setSrc_supplyHold {n : Nat} {x : SrcState} : (setSrc n x s).supplyHold = s.supplyHold := rfl
@[simp] theorem setSrc_pending {n : Nat} {x : SrcState} : (setSrc n x s).pending = s.pending := rfl

/-! `ctrSet` changes `ctrs`. -/
@[simp] theorem ctrSet_variant {a : Nat} {c : Ctr} : (ctrSet a c s).variant = s.variant := rfl
@[simp] theorem ctrSet_stepB0 {a : Nat} {c : Ctr} : (ctrSet a c s).stepB0 = s.stepB0 := rfl
@[simp] theorem ctrSet_now {a : Nat} {c : Ctr} : (ctrSet a c s).now = s.now := rfl
@[simp] theorem ctrSet_free {a : Nat} {c : Ctr} : (ctrSet a c s).free = s.free := rfl
@[simp] theorem ctrSet_regs {a : Nat} {c : Ctr} : (ctrSet a c s).regs = s.regs := rfl
@[simp] theorem ctrSet_ctrRc {a : Nat} {c : Ctr} : (ctrSet a c s).ctrRc = s.ctrRc := rfl
@[simp] theorem ctrSet_srcs {a : Nat} {c : Ctr} : (ctrSet a c s).srcs = s.srcs := rfl
@[simp] theorem ctrSet_lastRead {a : Nat} {c : Ctr} : (ctrSet a c s).lastRead = s.lastRead := rfl
@[simp] theorem ctrSet_ports {a : Nat} {c : Ctr} : (ctrSet a c s).ports = s.ports := rfl
@[simp] theorem ctrSet_tolger {a : Nat} {c : Ctr} : (ctrSet a c s).tolger = s.tolger := rfl
@[simp] theorem ctrSet_domains {a : Nat} {c : Ctr} : (ctrSet a c s).domains = s.domains := rfl
@[simp] theorem ctrSet_topo {a : Nat} {c : Ctr} : (ctrSet a c s).topo = s.topo := rfl
@[simp] theorem ctrSet_comb {a : Nat} {c : Ctr} : (ctrSet a c s).comb = s.comb := rfl
@[simp] theorem ctrSet_sched {a : Nat} {c : Ctr} : (ctrSet a c s).sched = s.sched := rfl
@[simp] theorem ctrSet_tuns {a : Nat} {c : Ctr} : (ctrSet a c s).tuns = s.tuns := rfl
@[simp] theorem ctrSet_brg {a : Nat} {c : Ctr} : (ctrSet a c s).brg = s.brg := rfl
@[simp] theorem ctrSet_cmd {a : Nat} {c : Ctr} : (ctrSet a c s).cmd = s.cmd := rfl
@[simp] theorem ctrSet_deep {a : Nat} {c : Ctr} : (ctrSet a c s).deep = s.deep := rfl
@[simp] theorem ctrSet_lt {a : Nat} {c : Ctr} : (ctrSet a c s).lt = s.lt := rfl
@[simp] theorem ctrSet_diag {a : Nat} {c : Ctr} : (ctrSet a c s).diag = s.diag := rfl
@[simp] theorem ctrSet_time {a : Nat} {c : Ctr} : (ctrSet a c s).time = s.time := rfl
@[simp] theorem ctrSet_otp {a : Nat} {c : Ctr} : (ctrSet a c s).otp = s.otp := rfl
@[simp] theorem ctrSet_trig {a : Nat} {c : Ctr} : (ctrSet a c s).trig = s.trig := rfl
@[simp] theorem ctrSet_trims {a : Nat} {c : Ctr} : (ctrSet a c s).trims = s.trims := rfl
@[simp] theorem ctrSet_tcp {a : Nat} {c : Ctr} : (ctrSet a c s).tcp = s.tcp := rfl
@[simp] theorem ctrSet_svcSink {a : Nat} {c : Ctr} : (ctrSet a c s).svcSink = s.svcSink := rfl
@[simp] theorem ctrSet_pdTables {a : Nat} {c : Ctr} : (ctrSet a c s).pdTables = s.pdTables := rfl
@[simp] theorem ctrSet_proxies {a : Nat} {c : Ctr} : (ctrSet a c s).proxies = s.proxies := rfl
@[simp] theorem ctrSet_svcDev {a : Nat} {c : Ctr} : (ctrSet a c s).svcDev = s.svcDev := rfl
@[simp] theorem ctrSet_heads {a : Nat} {c : Ctr} : (ctrSet a c s).heads = s.heads := rfl
@[simp] theorem ctrSet_timings {a : Nat} {c : Ctr} : (ctrSet a c s).timings = s.timings := rfl
@[simp] theorem ctrSet_tols {a : Nat} {c : Ctr} : (ctrSet a c s).tols = s.tols := rfl
@[simp] theorem ctrSet_dpLine {a : Nat} {c : Ctr} : (ctrSet a c s).dpLine = s.dpLine := rfl
@[simp] theorem ctrSet_eths {a : Nat} {c : Ctr} : (ctrSet a c s).eths = s.eths := rfl
@[simp] theorem ctrSet_etm {a : Nat} {c : Ctr} : (ctrSet a c s).etm = s.etm := rfl
@[simp] theorem ctrSet_hostIf {a : Nat} {c : Ctr} : (ctrSet a c s).hostIf = s.hostIf := rfl
@[simp] theorem ctrSet_efuses {a : Nat} {c : Ctr} : (ctrSet a c s).efuses = s.efuses := rfl
@[simp] theorem ctrSet_nurse {a : Nat} {c : Ctr} : (ctrSet a c s).nurse = s.nurse := rfl
@[simp] theorem ctrSet_tests {a : Nat} {c : Ctr} : (ctrSet a c s).tests = s.tests := rfl
@[simp] theorem ctrSet_img {a : Nat} {c : Ctr} : (ctrSet a c s).img = s.img := rfl
@[simp] theorem ctrSet_nor {a : Nat} {c : Ctr} : (ctrSet a c s).nor = s.nor := rfl
@[simp] theorem ctrSet_supplyHold {a : Nat} {c : Ctr} : (ctrSet a c s).supplyHold = s.supplyHold := rfl
@[simp] theorem ctrSet_pending {a : Nat} {c : Ctr} : (ctrSet a c s).pending = s.pending := rfl

/-! `setLp` changes `ports`. -/
@[simp] theorem setLp_variant {n : Nat} {p : LinePort} : (setLp n p s).variant = s.variant := rfl
@[simp] theorem setLp_stepB0 {n : Nat} {p : LinePort} : (setLp n p s).stepB0 = s.stepB0 := rfl
@[simp] theorem setLp_now {n : Nat} {p : LinePort} : (setLp n p s).now = s.now := rfl
@[simp] theorem setLp_free {n : Nat} {p : LinePort} : (setLp n p s).free = s.free := rfl
@[simp] theorem setLp_regs {n : Nat} {p : LinePort} : (setLp n p s).regs = s.regs := rfl
@[simp] theorem setLp_ctrs {n : Nat} {p : LinePort} : (setLp n p s).ctrs = s.ctrs := rfl
@[simp] theorem setLp_ctrRc {n : Nat} {p : LinePort} : (setLp n p s).ctrRc = s.ctrRc := rfl
@[simp] theorem setLp_srcs {n : Nat} {p : LinePort} : (setLp n p s).srcs = s.srcs := rfl
@[simp] theorem setLp_lastRead {n : Nat} {p : LinePort} : (setLp n p s).lastRead = s.lastRead := rfl
@[simp] theorem setLp_tolger {n : Nat} {p : LinePort} : (setLp n p s).tolger = s.tolger := rfl
@[simp] theorem setLp_domains {n : Nat} {p : LinePort} : (setLp n p s).domains = s.domains := rfl
@[simp] theorem setLp_topo {n : Nat} {p : LinePort} : (setLp n p s).topo = s.topo := rfl
@[simp] theorem setLp_comb {n : Nat} {p : LinePort} : (setLp n p s).comb = s.comb := rfl
@[simp] theorem setLp_sched {n : Nat} {p : LinePort} : (setLp n p s).sched = s.sched := rfl
@[simp] theorem setLp_tuns {n : Nat} {p : LinePort} : (setLp n p s).tuns = s.tuns := rfl
@[simp] theorem setLp_brg {n : Nat} {p : LinePort} : (setLp n p s).brg = s.brg := rfl
@[simp] theorem setLp_cmd {n : Nat} {p : LinePort} : (setLp n p s).cmd = s.cmd := rfl
@[simp] theorem setLp_deep {n : Nat} {p : LinePort} : (setLp n p s).deep = s.deep := rfl
@[simp] theorem setLp_lt {n : Nat} {p : LinePort} : (setLp n p s).lt = s.lt := rfl
@[simp] theorem setLp_diag {n : Nat} {p : LinePort} : (setLp n p s).diag = s.diag := rfl
@[simp] theorem setLp_time {n : Nat} {p : LinePort} : (setLp n p s).time = s.time := rfl
@[simp] theorem setLp_otp {n : Nat} {p : LinePort} : (setLp n p s).otp = s.otp := rfl
@[simp] theorem setLp_trig {n : Nat} {p : LinePort} : (setLp n p s).trig = s.trig := rfl
@[simp] theorem setLp_trims {n : Nat} {p : LinePort} : (setLp n p s).trims = s.trims := rfl
@[simp] theorem setLp_tcp {n : Nat} {p : LinePort} : (setLp n p s).tcp = s.tcp := rfl
@[simp] theorem setLp_svcSink {n : Nat} {p : LinePort} : (setLp n p s).svcSink = s.svcSink := rfl
@[simp] theorem setLp_pdTables {n : Nat} {p : LinePort} : (setLp n p s).pdTables = s.pdTables := rfl
@[simp] theorem setLp_proxies {n : Nat} {p : LinePort} : (setLp n p s).proxies = s.proxies := rfl
@[simp] theorem setLp_svcDev {n : Nat} {p : LinePort} : (setLp n p s).svcDev = s.svcDev := rfl
@[simp] theorem setLp_heads {n : Nat} {p : LinePort} : (setLp n p s).heads = s.heads := rfl
@[simp] theorem setLp_timings {n : Nat} {p : LinePort} : (setLp n p s).timings = s.timings := rfl
@[simp] theorem setLp_tols {n : Nat} {p : LinePort} : (setLp n p s).tols = s.tols := rfl
@[simp] theorem setLp_dpLine {n : Nat} {p : LinePort} : (setLp n p s).dpLine = s.dpLine := rfl
@[simp] theorem setLp_eths {n : Nat} {p : LinePort} : (setLp n p s).eths = s.eths := rfl
@[simp] theorem setLp_etm {n : Nat} {p : LinePort} : (setLp n p s).etm = s.etm := rfl
@[simp] theorem setLp_hostIf {n : Nat} {p : LinePort} : (setLp n p s).hostIf = s.hostIf := rfl
@[simp] theorem setLp_efuses {n : Nat} {p : LinePort} : (setLp n p s).efuses = s.efuses := rfl
@[simp] theorem setLp_nurse {n : Nat} {p : LinePort} : (setLp n p s).nurse = s.nurse := rfl
@[simp] theorem setLp_tests {n : Nat} {p : LinePort} : (setLp n p s).tests = s.tests := rfl
@[simp] theorem setLp_img {n : Nat} {p : LinePort} : (setLp n p s).img = s.img := rfl
@[simp] theorem setLp_nor {n : Nat} {p : LinePort} : (setLp n p s).nor = s.nor := rfl
@[simp] theorem setLp_supplyHold {n : Nat} {p : LinePort} : (setLp n p s).supplyHold = s.supplyHold := rfl
@[simp] theorem setLp_pending {n : Nat} {p : LinePort} : (setLp n p s).pending = s.pending := rfl

/-! `updLp` changes `ports`. -/
@[simp] theorem updLp_variant {n : Nat} {f : LinePort → LinePort} : (updLp n f s).variant = s.variant := rfl
@[simp] theorem updLp_stepB0 {n : Nat} {f : LinePort → LinePort} : (updLp n f s).stepB0 = s.stepB0 := rfl
@[simp] theorem updLp_now {n : Nat} {f : LinePort → LinePort} : (updLp n f s).now = s.now := rfl
@[simp] theorem updLp_free {n : Nat} {f : LinePort → LinePort} : (updLp n f s).free = s.free := rfl
@[simp] theorem updLp_regs {n : Nat} {f : LinePort → LinePort} : (updLp n f s).regs = s.regs := rfl
@[simp] theorem updLp_ctrs {n : Nat} {f : LinePort → LinePort} : (updLp n f s).ctrs = s.ctrs := rfl
@[simp] theorem updLp_ctrRc {n : Nat} {f : LinePort → LinePort} : (updLp n f s).ctrRc = s.ctrRc := rfl
@[simp] theorem updLp_srcs {n : Nat} {f : LinePort → LinePort} : (updLp n f s).srcs = s.srcs := rfl
@[simp] theorem updLp_lastRead {n : Nat} {f : LinePort → LinePort} : (updLp n f s).lastRead = s.lastRead := rfl
@[simp] theorem updLp_tolger {n : Nat} {f : LinePort → LinePort} : (updLp n f s).tolger = s.tolger := rfl
@[simp] theorem updLp_domains {n : Nat} {f : LinePort → LinePort} : (updLp n f s).domains = s.domains := rfl
@[simp] theorem updLp_topo {n : Nat} {f : LinePort → LinePort} : (updLp n f s).topo = s.topo := rfl
@[simp] theorem updLp_comb {n : Nat} {f : LinePort → LinePort} : (updLp n f s).comb = s.comb := rfl
@[simp] theorem updLp_sched {n : Nat} {f : LinePort → LinePort} : (updLp n f s).sched = s.sched := rfl
@[simp] theorem updLp_tuns {n : Nat} {f : LinePort → LinePort} : (updLp n f s).tuns = s.tuns := rfl
@[simp] theorem updLp_brg {n : Nat} {f : LinePort → LinePort} : (updLp n f s).brg = s.brg := rfl
@[simp] theorem updLp_cmd {n : Nat} {f : LinePort → LinePort} : (updLp n f s).cmd = s.cmd := rfl
@[simp] theorem updLp_deep {n : Nat} {f : LinePort → LinePort} : (updLp n f s).deep = s.deep := rfl
@[simp] theorem updLp_lt {n : Nat} {f : LinePort → LinePort} : (updLp n f s).lt = s.lt := rfl
@[simp] theorem updLp_diag {n : Nat} {f : LinePort → LinePort} : (updLp n f s).diag = s.diag := rfl
@[simp] theorem updLp_time {n : Nat} {f : LinePort → LinePort} : (updLp n f s).time = s.time := rfl
@[simp] theorem updLp_otp {n : Nat} {f : LinePort → LinePort} : (updLp n f s).otp = s.otp := rfl
@[simp] theorem updLp_trig {n : Nat} {f : LinePort → LinePort} : (updLp n f s).trig = s.trig := rfl
@[simp] theorem updLp_trims {n : Nat} {f : LinePort → LinePort} : (updLp n f s).trims = s.trims := rfl
@[simp] theorem updLp_tcp {n : Nat} {f : LinePort → LinePort} : (updLp n f s).tcp = s.tcp := rfl
@[simp] theorem updLp_svcSink {n : Nat} {f : LinePort → LinePort} : (updLp n f s).svcSink = s.svcSink := rfl
@[simp] theorem updLp_pdTables {n : Nat} {f : LinePort → LinePort} : (updLp n f s).pdTables = s.pdTables := rfl
@[simp] theorem updLp_proxies {n : Nat} {f : LinePort → LinePort} : (updLp n f s).proxies = s.proxies := rfl
@[simp] theorem updLp_svcDev {n : Nat} {f : LinePort → LinePort} : (updLp n f s).svcDev = s.svcDev := rfl
@[simp] theorem updLp_heads {n : Nat} {f : LinePort → LinePort} : (updLp n f s).heads = s.heads := rfl
@[simp] theorem updLp_timings {n : Nat} {f : LinePort → LinePort} : (updLp n f s).timings = s.timings := rfl
@[simp] theorem updLp_tols {n : Nat} {f : LinePort → LinePort} : (updLp n f s).tols = s.tols := rfl
@[simp] theorem updLp_dpLine {n : Nat} {f : LinePort → LinePort} : (updLp n f s).dpLine = s.dpLine := rfl
@[simp] theorem updLp_eths {n : Nat} {f : LinePort → LinePort} : (updLp n f s).eths = s.eths := rfl
@[simp] theorem updLp_etm {n : Nat} {f : LinePort → LinePort} : (updLp n f s).etm = s.etm := rfl
@[simp] theorem updLp_hostIf {n : Nat} {f : LinePort → LinePort} : (updLp n f s).hostIf = s.hostIf := rfl
@[simp] theorem updLp_efuses {n : Nat} {f : LinePort → LinePort} : (updLp n f s).efuses = s.efuses := rfl
@[simp] theorem updLp_nurse {n : Nat} {f : LinePort → LinePort} : (updLp n f s).nurse = s.nurse := rfl
@[simp] theorem updLp_tests {n : Nat} {f : LinePort → LinePort} : (updLp n f s).tests = s.tests := rfl
@[simp] theorem updLp_img {n : Nat} {f : LinePort → LinePort} : (updLp n f s).img = s.img := rfl
@[simp] theorem updLp_nor {n : Nat} {f : LinePort → LinePort} : (updLp n f s).nor = s.nor := rfl
@[simp] theorem updLp_supplyHold {n : Nat} {f : LinePort → LinePort} : (updLp n f s).supplyHold = s.supplyHold := rfl
@[simp] theorem updLp_pending {n : Nat} {f : LinePort → LinePort} : (updLp n f s).pending = s.pending := rfl

/-! `updTx` changes `ports`. -/
@[simp] theorem updTx_variant {n : Nat} {f : TxLink → TxLink} : (updTx n f s).variant = s.variant := rfl
@[simp] theorem updTx_stepB0 {n : Nat} {f : TxLink → TxLink} : (updTx n f s).stepB0 = s.stepB0 := rfl
@[simp] theorem updTx_now {n : Nat} {f : TxLink → TxLink} : (updTx n f s).now = s.now := rfl
@[simp] theorem updTx_free {n : Nat} {f : TxLink → TxLink} : (updTx n f s).free = s.free := rfl
@[simp] theorem updTx_regs {n : Nat} {f : TxLink → TxLink} : (updTx n f s).regs = s.regs := rfl
@[simp] theorem updTx_ctrs {n : Nat} {f : TxLink → TxLink} : (updTx n f s).ctrs = s.ctrs := rfl
@[simp] theorem updTx_ctrRc {n : Nat} {f : TxLink → TxLink} : (updTx n f s).ctrRc = s.ctrRc := rfl
@[simp] theorem updTx_srcs {n : Nat} {f : TxLink → TxLink} : (updTx n f s).srcs = s.srcs := rfl
@[simp] theorem updTx_lastRead {n : Nat} {f : TxLink → TxLink} : (updTx n f s).lastRead = s.lastRead := rfl
@[simp] theorem updTx_tolger {n : Nat} {f : TxLink → TxLink} : (updTx n f s).tolger = s.tolger := rfl
@[simp] theorem updTx_domains {n : Nat} {f : TxLink → TxLink} : (updTx n f s).domains = s.domains := rfl
@[simp] theorem updTx_topo {n : Nat} {f : TxLink → TxLink} : (updTx n f s).topo = s.topo := rfl
@[simp] theorem updTx_comb {n : Nat} {f : TxLink → TxLink} : (updTx n f s).comb = s.comb := rfl
@[simp] theorem updTx_sched {n : Nat} {f : TxLink → TxLink} : (updTx n f s).sched = s.sched := rfl
@[simp] theorem updTx_tuns {n : Nat} {f : TxLink → TxLink} : (updTx n f s).tuns = s.tuns := rfl
@[simp] theorem updTx_brg {n : Nat} {f : TxLink → TxLink} : (updTx n f s).brg = s.brg := rfl
@[simp] theorem updTx_cmd {n : Nat} {f : TxLink → TxLink} : (updTx n f s).cmd = s.cmd := rfl
@[simp] theorem updTx_deep {n : Nat} {f : TxLink → TxLink} : (updTx n f s).deep = s.deep := rfl
@[simp] theorem updTx_lt {n : Nat} {f : TxLink → TxLink} : (updTx n f s).lt = s.lt := rfl
@[simp] theorem updTx_diag {n : Nat} {f : TxLink → TxLink} : (updTx n f s).diag = s.diag := rfl
@[simp] theorem updTx_time {n : Nat} {f : TxLink → TxLink} : (updTx n f s).time = s.time := rfl
@[simp] theorem updTx_otp {n : Nat} {f : TxLink → TxLink} : (updTx n f s).otp = s.otp := rfl
@[simp] theorem updTx_trig {n : Nat} {f : TxLink → TxLink} : (updTx n f s).trig = s.trig := rfl
@[simp] theorem updTx_trims {n : Nat} {f : TxLink → TxLink} : (updTx n f s).trims = s.trims := rfl
@[simp] theorem updTx_tcp {n : Nat} {f : TxLink → TxLink} : (updTx n f s).tcp = s.tcp := rfl
@[simp] theorem updTx_svcSink {n : Nat} {f : TxLink → TxLink} : (updTx n f s).svcSink = s.svcSink := rfl
@[simp] theorem updTx_pdTables {n : Nat} {f : TxLink → TxLink} : (updTx n f s).pdTables = s.pdTables := rfl
@[simp] theorem updTx_proxies {n : Nat} {f : TxLink → TxLink} : (updTx n f s).proxies = s.proxies := rfl
@[simp] theorem updTx_svcDev {n : Nat} {f : TxLink → TxLink} : (updTx n f s).svcDev = s.svcDev := rfl
@[simp] theorem updTx_heads {n : Nat} {f : TxLink → TxLink} : (updTx n f s).heads = s.heads := rfl
@[simp] theorem updTx_timings {n : Nat} {f : TxLink → TxLink} : (updTx n f s).timings = s.timings := rfl
@[simp] theorem updTx_tols {n : Nat} {f : TxLink → TxLink} : (updTx n f s).tols = s.tols := rfl
@[simp] theorem updTx_dpLine {n : Nat} {f : TxLink → TxLink} : (updTx n f s).dpLine = s.dpLine := rfl
@[simp] theorem updTx_eths {n : Nat} {f : TxLink → TxLink} : (updTx n f s).eths = s.eths := rfl
@[simp] theorem updTx_etm {n : Nat} {f : TxLink → TxLink} : (updTx n f s).etm = s.etm := rfl
@[simp] theorem updTx_hostIf {n : Nat} {f : TxLink → TxLink} : (updTx n f s).hostIf = s.hostIf := rfl
@[simp] theorem updTx_efuses {n : Nat} {f : TxLink → TxLink} : (updTx n f s).efuses = s.efuses := rfl
@[simp] theorem updTx_nurse {n : Nat} {f : TxLink → TxLink} : (updTx n f s).nurse = s.nurse := rfl
@[simp] theorem updTx_tests {n : Nat} {f : TxLink → TxLink} : (updTx n f s).tests = s.tests := rfl
@[simp] theorem updTx_img {n : Nat} {f : TxLink → TxLink} : (updTx n f s).img = s.img := rfl
@[simp] theorem updTx_nor {n : Nat} {f : TxLink → TxLink} : (updTx n f s).nor = s.nor := rfl
@[simp] theorem updTx_supplyHold {n : Nat} {f : TxLink → TxLink} : (updTx n f s).supplyHold = s.supplyHold := rfl
@[simp] theorem updTx_pending {n : Nat} {f : TxLink → TxLink} : (updTx n f s).pending = s.pending := rfl

/-! `updRx` changes `ports`. -/
@[simp] theorem updRx_variant {n : Nat} {f : RxLink → RxLink} : (updRx n f s).variant = s.variant := rfl
@[simp] theorem updRx_stepB0 {n : Nat} {f : RxLink → RxLink} : (updRx n f s).stepB0 = s.stepB0 := rfl
@[simp] theorem updRx_now {n : Nat} {f : RxLink → RxLink} : (updRx n f s).now = s.now := rfl
@[simp] theorem updRx_free {n : Nat} {f : RxLink → RxLink} : (updRx n f s).free = s.free := rfl
@[simp] theorem updRx_regs {n : Nat} {f : RxLink → RxLink} : (updRx n f s).regs = s.regs := rfl
@[simp] theorem updRx_ctrs {n : Nat} {f : RxLink → RxLink} : (updRx n f s).ctrs = s.ctrs := rfl
@[simp] theorem updRx_ctrRc {n : Nat} {f : RxLink → RxLink} : (updRx n f s).ctrRc = s.ctrRc := rfl
@[simp] theorem updRx_srcs {n : Nat} {f : RxLink → RxLink} : (updRx n f s).srcs = s.srcs := rfl
@[simp] theorem updRx_lastRead {n : Nat} {f : RxLink → RxLink} : (updRx n f s).lastRead = s.lastRead := rfl
@[simp] theorem updRx_tolger {n : Nat} {f : RxLink → RxLink} : (updRx n f s).tolger = s.tolger := rfl
@[simp] theorem updRx_domains {n : Nat} {f : RxLink → RxLink} : (updRx n f s).domains = s.domains := rfl
@[simp] theorem updRx_topo {n : Nat} {f : RxLink → RxLink} : (updRx n f s).topo = s.topo := rfl
@[simp] theorem updRx_comb {n : Nat} {f : RxLink → RxLink} : (updRx n f s).comb = s.comb := rfl
@[simp] theorem updRx_sched {n : Nat} {f : RxLink → RxLink} : (updRx n f s).sched = s.sched := rfl
@[simp] theorem updRx_tuns {n : Nat} {f : RxLink → RxLink} : (updRx n f s).tuns = s.tuns := rfl
@[simp] theorem updRx_brg {n : Nat} {f : RxLink → RxLink} : (updRx n f s).brg = s.brg := rfl
@[simp] theorem updRx_cmd {n : Nat} {f : RxLink → RxLink} : (updRx n f s).cmd = s.cmd := rfl
@[simp] theorem updRx_deep {n : Nat} {f : RxLink → RxLink} : (updRx n f s).deep = s.deep := rfl
@[simp] theorem updRx_lt {n : Nat} {f : RxLink → RxLink} : (updRx n f s).lt = s.lt := rfl
@[simp] theorem updRx_diag {n : Nat} {f : RxLink → RxLink} : (updRx n f s).diag = s.diag := rfl
@[simp] theorem updRx_time {n : Nat} {f : RxLink → RxLink} : (updRx n f s).time = s.time := rfl
@[simp] theorem updRx_otp {n : Nat} {f : RxLink → RxLink} : (updRx n f s).otp = s.otp := rfl
@[simp] theorem updRx_trig {n : Nat} {f : RxLink → RxLink} : (updRx n f s).trig = s.trig := rfl
@[simp] theorem updRx_trims {n : Nat} {f : RxLink → RxLink} : (updRx n f s).trims = s.trims := rfl
@[simp] theorem updRx_tcp {n : Nat} {f : RxLink → RxLink} : (updRx n f s).tcp = s.tcp := rfl
@[simp] theorem updRx_svcSink {n : Nat} {f : RxLink → RxLink} : (updRx n f s).svcSink = s.svcSink := rfl
@[simp] theorem updRx_pdTables {n : Nat} {f : RxLink → RxLink} : (updRx n f s).pdTables = s.pdTables := rfl
@[simp] theorem updRx_proxies {n : Nat} {f : RxLink → RxLink} : (updRx n f s).proxies = s.proxies := rfl
@[simp] theorem updRx_svcDev {n : Nat} {f : RxLink → RxLink} : (updRx n f s).svcDev = s.svcDev := rfl
@[simp] theorem updRx_heads {n : Nat} {f : RxLink → RxLink} : (updRx n f s).heads = s.heads := rfl
@[simp] theorem updRx_timings {n : Nat} {f : RxLink → RxLink} : (updRx n f s).timings = s.timings := rfl
@[simp] theorem updRx_tols {n : Nat} {f : RxLink → RxLink} : (updRx n f s).tols = s.tols := rfl
@[simp] theorem updRx_dpLine {n : Nat} {f : RxLink → RxLink} : (updRx n f s).dpLine = s.dpLine := rfl
@[simp] theorem updRx_eths {n : Nat} {f : RxLink → RxLink} : (updRx n f s).eths = s.eths := rfl
@[simp] theorem updRx_etm {n : Nat} {f : RxLink → RxLink} : (updRx n f s).etm = s.etm := rfl
@[simp] theorem updRx_hostIf {n : Nat} {f : RxLink → RxLink} : (updRx n f s).hostIf = s.hostIf := rfl
@[simp] theorem updRx_efuses {n : Nat} {f : RxLink → RxLink} : (updRx n f s).efuses = s.efuses := rfl
@[simp] theorem updRx_nurse {n : Nat} {f : RxLink → RxLink} : (updRx n f s).nurse = s.nurse := rfl
@[simp] theorem updRx_tests {n : Nat} {f : RxLink → RxLink} : (updRx n f s).tests = s.tests := rfl
@[simp] theorem updRx_img {n : Nat} {f : RxLink → RxLink} : (updRx n f s).img = s.img := rfl
@[simp] theorem updRx_nor {n : Nat} {f : RxLink → RxLink} : (updRx n f s).nor = s.nor := rfl
@[simp] theorem updRx_supplyHold {n : Nat} {f : RxLink → RxLink} : (updRx n f s).supplyHold = s.supplyHold := rfl
@[simp] theorem updRx_pending {n : Nat} {f : RxLink → RxLink} : (updRx n f s).pending = s.pending := rfl

/-! `setTolger` changes `tolger`. -/
@[simp] theorem setTolger_variant {n : Nat} {b : Bool} {d : TolgerDir} : (setTolger n b d s).variant = s.variant := rfl
@[simp] theorem setTolger_stepB0 {n : Nat} {b : Bool} {d : TolgerDir} : (setTolger n b d s).stepB0 = s.stepB0 := rfl
@[simp] theorem setTolger_now {n : Nat} {b : Bool} {d : TolgerDir} : (setTolger n b d s).now = s.now := rfl
@[simp] theorem setTolger_free {n : Nat} {b : Bool} {d : TolgerDir} : (setTolger n b d s).free = s.free := rfl
@[simp] theorem setTolger_regs {n : Nat} {b : Bool} {d : TolgerDir} : (setTolger n b d s).regs = s.regs := rfl
@[simp] theorem setTolger_ctrs {n : Nat} {b : Bool} {d : TolgerDir} : (setTolger n b d s).ctrs = s.ctrs := rfl
@[simp] theorem setTolger_ctrRc {n : Nat} {b : Bool} {d : TolgerDir} : (setTolger n b d s).ctrRc = s.ctrRc := rfl
@[simp] theorem setTolger_srcs {n : Nat} {b : Bool} {d : TolgerDir} : (setTolger n b d s).srcs = s.srcs := rfl
@[simp] theorem setTolger_lastRead {n : Nat} {b : Bool} {d : TolgerDir} : (setTolger n b d s).lastRead = s.lastRead := rfl
@[simp] theorem setTolger_ports {n : Nat} {b : Bool} {d : TolgerDir} : (setTolger n b d s).ports = s.ports := rfl
@[simp] theorem setTolger_domains {n : Nat} {b : Bool} {d : TolgerDir} : (setTolger n b d s).domains = s.domains := rfl
@[simp] theorem setTolger_topo {n : Nat} {b : Bool} {d : TolgerDir} : (setTolger n b d s).topo = s.topo := rfl
@[simp] theorem setTolger_comb {n : Nat} {b : Bool} {d : TolgerDir} : (setTolger n b d s).comb = s.comb := rfl
@[simp] theorem setTolger_sched {n : Nat} {b : Bool} {d : TolgerDir} : (setTolger n b d s).sched = s.sched := rfl
@[simp] theorem setTolger_tuns {n : Nat} {b : Bool} {d : TolgerDir} : (setTolger n b d s).tuns = s.tuns := rfl
@[simp] theorem setTolger_brg {n : Nat} {b : Bool} {d : TolgerDir} : (setTolger n b d s).brg = s.brg := rfl
@[simp] theorem setTolger_cmd {n : Nat} {b : Bool} {d : TolgerDir} : (setTolger n b d s).cmd = s.cmd := rfl
@[simp] theorem setTolger_deep {n : Nat} {b : Bool} {d : TolgerDir} : (setTolger n b d s).deep = s.deep := rfl
@[simp] theorem setTolger_lt {n : Nat} {b : Bool} {d : TolgerDir} : (setTolger n b d s).lt = s.lt := rfl
@[simp] theorem setTolger_diag {n : Nat} {b : Bool} {d : TolgerDir} : (setTolger n b d s).diag = s.diag := rfl
@[simp] theorem setTolger_time {n : Nat} {b : Bool} {d : TolgerDir} : (setTolger n b d s).time = s.time := rfl
@[simp] theorem setTolger_otp {n : Nat} {b : Bool} {d : TolgerDir} : (setTolger n b d s).otp = s.otp := rfl
@[simp] theorem setTolger_trig {n : Nat} {b : Bool} {d : TolgerDir} : (setTolger n b d s).trig = s.trig := rfl
@[simp] theorem setTolger_trims {n : Nat} {b : Bool} {d : TolgerDir} : (setTolger n b d s).trims = s.trims := rfl
@[simp] theorem setTolger_tcp {n : Nat} {b : Bool} {d : TolgerDir} : (setTolger n b d s).tcp = s.tcp := rfl
@[simp] theorem setTolger_svcSink {n : Nat} {b : Bool} {d : TolgerDir} : (setTolger n b d s).svcSink = s.svcSink := rfl
@[simp] theorem setTolger_pdTables {n : Nat} {b : Bool} {d : TolgerDir} : (setTolger n b d s).pdTables = s.pdTables := rfl
@[simp] theorem setTolger_proxies {n : Nat} {b : Bool} {d : TolgerDir} : (setTolger n b d s).proxies = s.proxies := rfl
@[simp] theorem setTolger_svcDev {n : Nat} {b : Bool} {d : TolgerDir} : (setTolger n b d s).svcDev = s.svcDev := rfl
@[simp] theorem setTolger_heads {n : Nat} {b : Bool} {d : TolgerDir} : (setTolger n b d s).heads = s.heads := rfl
@[simp] theorem setTolger_timings {n : Nat} {b : Bool} {d : TolgerDir} : (setTolger n b d s).timings = s.timings := rfl
@[simp] theorem setTolger_tols {n : Nat} {b : Bool} {d : TolgerDir} : (setTolger n b d s).tols = s.tols := rfl
@[simp] theorem setTolger_dpLine {n : Nat} {b : Bool} {d : TolgerDir} : (setTolger n b d s).dpLine = s.dpLine := rfl
@[simp] theorem setTolger_eths {n : Nat} {b : Bool} {d : TolgerDir} : (setTolger n b d s).eths = s.eths := rfl
@[simp] theorem setTolger_etm {n : Nat} {b : Bool} {d : TolgerDir} : (setTolger n b d s).etm = s.etm := rfl
@[simp] theorem setTolger_hostIf {n : Nat} {b : Bool} {d : TolgerDir} : (setTolger n b d s).hostIf = s.hostIf := rfl
@[simp] theorem setTolger_efuses {n : Nat} {b : Bool} {d : TolgerDir} : (setTolger n b d s).efuses = s.efuses := rfl
@[simp] theorem setTolger_nurse {n : Nat} {b : Bool} {d : TolgerDir} : (setTolger n b d s).nurse = s.nurse := rfl
@[simp] theorem setTolger_tests {n : Nat} {b : Bool} {d : TolgerDir} : (setTolger n b d s).tests = s.tests := rfl
@[simp] theorem setTolger_img {n : Nat} {b : Bool} {d : TolgerDir} : (setTolger n b d s).img = s.img := rfl
@[simp] theorem setTolger_nor {n : Nat} {b : Bool} {d : TolgerDir} : (setTolger n b d s).nor = s.nor := rfl
@[simp] theorem setTolger_supplyHold {n : Nat} {b : Bool} {d : TolgerDir} : (setTolger n b d s).supplyHold = s.supplyHold := rfl
@[simp] theorem setTolger_pending {n : Nat} {b : Bool} {d : TolgerDir} : (setTolger n b d s).pending = s.pending := rfl

/-! `setDom` changes `domains`. -/
@[simp] theorem setDom_variant {d : Nat} {x : Domain} : (setDom d x s).variant = s.variant := rfl
@[simp] theorem setDom_stepB0 {d : Nat} {x : Domain} : (setDom d x s).stepB0 = s.stepB0 := rfl
@[simp] theorem setDom_now {d : Nat} {x : Domain} : (setDom d x s).now = s.now := rfl
@[simp] theorem setDom_free {d : Nat} {x : Domain} : (setDom d x s).free = s.free := rfl
@[simp] theorem setDom_regs {d : Nat} {x : Domain} : (setDom d x s).regs = s.regs := rfl
@[simp] theorem setDom_ctrs {d : Nat} {x : Domain} : (setDom d x s).ctrs = s.ctrs := rfl
@[simp] theorem setDom_ctrRc {d : Nat} {x : Domain} : (setDom d x s).ctrRc = s.ctrRc := rfl
@[simp] theorem setDom_srcs {d : Nat} {x : Domain} : (setDom d x s).srcs = s.srcs := rfl
@[simp] theorem setDom_lastRead {d : Nat} {x : Domain} : (setDom d x s).lastRead = s.lastRead := rfl
@[simp] theorem setDom_ports {d : Nat} {x : Domain} : (setDom d x s).ports = s.ports := rfl
@[simp] theorem setDom_tolger {d : Nat} {x : Domain} : (setDom d x s).tolger = s.tolger := rfl
@[simp] theorem setDom_topo {d : Nat} {x : Domain} : (setDom d x s).topo = s.topo := rfl
@[simp] theorem setDom_comb {d : Nat} {x : Domain} : (setDom d x s).comb = s.comb := rfl
@[simp] theorem setDom_sched {d : Nat} {x : Domain} : (setDom d x s).sched = s.sched := rfl
@[simp] theorem setDom_tuns {d : Nat} {x : Domain} : (setDom d x s).tuns = s.tuns := rfl
@[simp] theorem setDom_brg {d : Nat} {x : Domain} : (setDom d x s).brg = s.brg := rfl
@[simp] theorem setDom_cmd {d : Nat} {x : Domain} : (setDom d x s).cmd = s.cmd := rfl
@[simp] theorem setDom_deep {d : Nat} {x : Domain} : (setDom d x s).deep = s.deep := rfl
@[simp] theorem setDom_lt {d : Nat} {x : Domain} : (setDom d x s).lt = s.lt := rfl
@[simp] theorem setDom_diag {d : Nat} {x : Domain} : (setDom d x s).diag = s.diag := rfl
@[simp] theorem setDom_time {d : Nat} {x : Domain} : (setDom d x s).time = s.time := rfl
@[simp] theorem setDom_otp {d : Nat} {x : Domain} : (setDom d x s).otp = s.otp := rfl
@[simp] theorem setDom_trig {d : Nat} {x : Domain} : (setDom d x s).trig = s.trig := rfl
@[simp] theorem setDom_trims {d : Nat} {x : Domain} : (setDom d x s).trims = s.trims := rfl
@[simp] theorem setDom_tcp {d : Nat} {x : Domain} : (setDom d x s).tcp = s.tcp := rfl
@[simp] theorem setDom_svcSink {d : Nat} {x : Domain} : (setDom d x s).svcSink = s.svcSink := rfl
@[simp] theorem setDom_pdTables {d : Nat} {x : Domain} : (setDom d x s).pdTables = s.pdTables := rfl
@[simp] theorem setDom_proxies {d : Nat} {x : Domain} : (setDom d x s).proxies = s.proxies := rfl
@[simp] theorem setDom_svcDev {d : Nat} {x : Domain} : (setDom d x s).svcDev = s.svcDev := rfl
@[simp] theorem setDom_heads {d : Nat} {x : Domain} : (setDom d x s).heads = s.heads := rfl
@[simp] theorem setDom_timings {d : Nat} {x : Domain} : (setDom d x s).timings = s.timings := rfl
@[simp] theorem setDom_tols {d : Nat} {x : Domain} : (setDom d x s).tols = s.tols := rfl
@[simp] theorem setDom_dpLine {d : Nat} {x : Domain} : (setDom d x s).dpLine = s.dpLine := rfl
@[simp] theorem setDom_eths {d : Nat} {x : Domain} : (setDom d x s).eths = s.eths := rfl
@[simp] theorem setDom_etm {d : Nat} {x : Domain} : (setDom d x s).etm = s.etm := rfl
@[simp] theorem setDom_hostIf {d : Nat} {x : Domain} : (setDom d x s).hostIf = s.hostIf := rfl
@[simp] theorem setDom_efuses {d : Nat} {x : Domain} : (setDom d x s).efuses = s.efuses := rfl
@[simp] theorem setDom_nurse {d : Nat} {x : Domain} : (setDom d x s).nurse = s.nurse := rfl
@[simp] theorem setDom_tests {d : Nat} {x : Domain} : (setDom d x s).tests = s.tests := rfl
@[simp] theorem setDom_img {d : Nat} {x : Domain} : (setDom d x s).img = s.img := rfl
@[simp] theorem setDom_nor {d : Nat} {x : Domain} : (setDom d x s).nor = s.nor := rfl
@[simp] theorem setDom_supplyHold {d : Nat} {x : Domain} : (setDom d x s).supplyHold = s.supplyHold := rfl
@[simp] theorem setDom_pending {d : Nat} {x : Domain} : (setDom d x s).pending = s.pending := rfl

/-! `updComb` changes `comb`. -/
@[simp] theorem updComb_variant {f : Comb → Comb} : (updComb f s).variant = s.variant := rfl
@[simp] theorem updComb_stepB0 {f : Comb → Comb} : (updComb f s).stepB0 = s.stepB0 := rfl
@[simp] theorem updComb_now {f : Comb → Comb} : (updComb f s).now = s.now := rfl
@[simp] theorem updComb_free {f : Comb → Comb} : (updComb f s).free = s.free := rfl
@[simp] theorem updComb_regs {f : Comb → Comb} : (updComb f s).regs = s.regs := rfl
@[simp] theorem updComb_ctrs {f : Comb → Comb} : (updComb f s).ctrs = s.ctrs := rfl
@[simp] theorem updComb_ctrRc {f : Comb → Comb} : (updComb f s).ctrRc = s.ctrRc := rfl
@[simp] theorem updComb_srcs {f : Comb → Comb} : (updComb f s).srcs = s.srcs := rfl
@[simp] theorem updComb_lastRead {f : Comb → Comb} : (updComb f s).lastRead = s.lastRead := rfl
@[simp] theorem updComb_ports {f : Comb → Comb} : (updComb f s).ports = s.ports := rfl
@[simp] theorem updComb_tolger {f : Comb → Comb} : (updComb f s).tolger = s.tolger := rfl
@[simp] theorem updComb_domains {f : Comb → Comb} : (updComb f s).domains = s.domains := rfl
@[simp] theorem updComb_topo {f : Comb → Comb} : (updComb f s).topo = s.topo := rfl
@[simp] theorem updComb_sched {f : Comb → Comb} : (updComb f s).sched = s.sched := rfl
@[simp] theorem updComb_tuns {f : Comb → Comb} : (updComb f s).tuns = s.tuns := rfl
@[simp] theorem updComb_brg {f : Comb → Comb} : (updComb f s).brg = s.brg := rfl
@[simp] theorem updComb_cmd {f : Comb → Comb} : (updComb f s).cmd = s.cmd := rfl
@[simp] theorem updComb_deep {f : Comb → Comb} : (updComb f s).deep = s.deep := rfl
@[simp] theorem updComb_lt {f : Comb → Comb} : (updComb f s).lt = s.lt := rfl
@[simp] theorem updComb_diag {f : Comb → Comb} : (updComb f s).diag = s.diag := rfl
@[simp] theorem updComb_time {f : Comb → Comb} : (updComb f s).time = s.time := rfl
@[simp] theorem updComb_otp {f : Comb → Comb} : (updComb f s).otp = s.otp := rfl
@[simp] theorem updComb_trig {f : Comb → Comb} : (updComb f s).trig = s.trig := rfl
@[simp] theorem updComb_trims {f : Comb → Comb} : (updComb f s).trims = s.trims := rfl
@[simp] theorem updComb_tcp {f : Comb → Comb} : (updComb f s).tcp = s.tcp := rfl
@[simp] theorem updComb_svcSink {f : Comb → Comb} : (updComb f s).svcSink = s.svcSink := rfl
@[simp] theorem updComb_pdTables {f : Comb → Comb} : (updComb f s).pdTables = s.pdTables := rfl
@[simp] theorem updComb_proxies {f : Comb → Comb} : (updComb f s).proxies = s.proxies := rfl
@[simp] theorem updComb_svcDev {f : Comb → Comb} : (updComb f s).svcDev = s.svcDev := rfl
@[simp] theorem updComb_heads {f : Comb → Comb} : (updComb f s).heads = s.heads := rfl
@[simp] theorem updComb_timings {f : Comb → Comb} : (updComb f s).timings = s.timings := rfl
@[simp] theorem updComb_tols {f : Comb → Comb} : (updComb f s).tols = s.tols := rfl
@[simp] theorem updComb_dpLine {f : Comb → Comb} : (updComb f s).dpLine = s.dpLine := rfl
@[simp] theorem updComb_eths {f : Comb → Comb} : (updComb f s).eths = s.eths := rfl
@[simp] theorem updComb_etm {f : Comb → Comb} : (updComb f s).etm = s.etm := rfl
@[simp] theorem updComb_hostIf {f : Comb → Comb} : (updComb f s).hostIf = s.hostIf := rfl
@[simp] theorem updComb_efuses {f : Comb → Comb} : (updComb f s).efuses = s.efuses := rfl
@[simp] theorem updComb_nurse {f : Comb → Comb} : (updComb f s).nurse = s.nurse := rfl
@[simp] theorem updComb_tests {f : Comb → Comb} : (updComb f s).tests = s.tests := rfl
@[simp] theorem updComb_img {f : Comb → Comb} : (updComb f s).img = s.img := rfl
@[simp] theorem updComb_nor {f : Comb → Comb} : (updComb f s).nor = s.nor := rfl
@[simp] theorem updComb_supplyHold {f : Comb → Comb} : (updComb f s).supplyHold = s.supplyHold := rfl
@[simp] theorem updComb_pending {f : Comb → Comb} : (updComb f s).pending = s.pending := rfl

/-! `updTopo` changes `topo`. -/
@[simp] theorem updTopo_variant {f : Topo → Topo} : (updTopo f s).variant = s.variant := rfl
@[simp] theorem updTopo_stepB0 {f : Topo → Topo} : (updTopo f s).stepB0 = s.stepB0 := rfl
@[simp] theorem updTopo_now {f : Topo → Topo} : (updTopo f s).now = s.now := rfl
@[simp] theorem updTopo_free {f : Topo → Topo} : (updTopo f s).free = s.free := rfl
@[simp] theorem updTopo_regs {f : Topo → Topo} : (updTopo f s).regs = s.regs := rfl
@[simp] theorem updTopo_ctrs {f : Topo → Topo} : (updTopo f s).ctrs = s.ctrs := rfl
@[simp] theorem updTopo_ctrRc {f : Topo → Topo} : (updTopo f s).ctrRc = s.ctrRc := rfl
@[simp] theorem updTopo_srcs {f : Topo → Topo} : (updTopo f s).srcs = s.srcs := rfl
@[simp] theorem updTopo_lastRead {f : Topo → Topo} : (updTopo f s).lastRead = s.lastRead := rfl
@[simp] theorem updTopo_ports {f : Topo → Topo} : (updTopo f s).ports = s.ports := rfl
@[simp] theorem updTopo_tolger {f : Topo → Topo} : (updTopo f s).tolger = s.tolger := rfl
@[simp] theorem updTopo_domains {f : Topo → Topo} : (updTopo f s).domains = s.domains := rfl
@[simp] theorem updTopo_comb {f : Topo → Topo} : (updTopo f s).comb = s.comb := rfl
@[simp] theorem updTopo_sched {f : Topo → Topo} : (updTopo f s).sched = s.sched := rfl
@[simp] theorem updTopo_tuns {f : Topo → Topo} : (updTopo f s).tuns = s.tuns := rfl
@[simp] theorem updTopo_brg {f : Topo → Topo} : (updTopo f s).brg = s.brg := rfl
@[simp] theorem updTopo_cmd {f : Topo → Topo} : (updTopo f s).cmd = s.cmd := rfl
@[simp] theorem updTopo_deep {f : Topo → Topo} : (updTopo f s).deep = s.deep := rfl
@[simp] theorem updTopo_lt {f : Topo → Topo} : (updTopo f s).lt = s.lt := rfl
@[simp] theorem updTopo_diag {f : Topo → Topo} : (updTopo f s).diag = s.diag := rfl
@[simp] theorem updTopo_time {f : Topo → Topo} : (updTopo f s).time = s.time := rfl
@[simp] theorem updTopo_otp {f : Topo → Topo} : (updTopo f s).otp = s.otp := rfl
@[simp] theorem updTopo_trig {f : Topo → Topo} : (updTopo f s).trig = s.trig := rfl
@[simp] theorem updTopo_trims {f : Topo → Topo} : (updTopo f s).trims = s.trims := rfl
@[simp] theorem updTopo_tcp {f : Topo → Topo} : (updTopo f s).tcp = s.tcp := rfl
@[simp] theorem updTopo_svcSink {f : Topo → Topo} : (updTopo f s).svcSink = s.svcSink := rfl
@[simp] theorem updTopo_pdTables {f : Topo → Topo} : (updTopo f s).pdTables = s.pdTables := rfl
@[simp] theorem updTopo_proxies {f : Topo → Topo} : (updTopo f s).proxies = s.proxies := rfl
@[simp] theorem updTopo_svcDev {f : Topo → Topo} : (updTopo f s).svcDev = s.svcDev := rfl
@[simp] theorem updTopo_heads {f : Topo → Topo} : (updTopo f s).heads = s.heads := rfl
@[simp] theorem updTopo_timings {f : Topo → Topo} : (updTopo f s).timings = s.timings := rfl
@[simp] theorem updTopo_tols {f : Topo → Topo} : (updTopo f s).tols = s.tols := rfl
@[simp] theorem updTopo_dpLine {f : Topo → Topo} : (updTopo f s).dpLine = s.dpLine := rfl
@[simp] theorem updTopo_eths {f : Topo → Topo} : (updTopo f s).eths = s.eths := rfl
@[simp] theorem updTopo_etm {f : Topo → Topo} : (updTopo f s).etm = s.etm := rfl
@[simp] theorem updTopo_hostIf {f : Topo → Topo} : (updTopo f s).hostIf = s.hostIf := rfl
@[simp] theorem updTopo_efuses {f : Topo → Topo} : (updTopo f s).efuses = s.efuses := rfl
@[simp] theorem updTopo_nurse {f : Topo → Topo} : (updTopo f s).nurse = s.nurse := rfl
@[simp] theorem updTopo_tests {f : Topo → Topo} : (updTopo f s).tests = s.tests := rfl
@[simp] theorem updTopo_img {f : Topo → Topo} : (updTopo f s).img = s.img := rfl
@[simp] theorem updTopo_nor {f : Topo → Topo} : (updTopo f s).nor = s.nor := rfl
@[simp] theorem updTopo_supplyHold {f : Topo → Topo} : (updTopo f s).supplyHold = s.supplyHold := rfl
@[simp] theorem updTopo_pending {f : Topo → Topo} : (updTopo f s).pending = s.pending := rfl

/-! `updCmd` changes `cmd`. -/
@[simp] theorem updCmd_variant {f : Cmd → Cmd} : (updCmd f s).variant = s.variant := rfl
@[simp] theorem updCmd_stepB0 {f : Cmd → Cmd} : (updCmd f s).stepB0 = s.stepB0 := rfl
@[simp] theorem updCmd_now {f : Cmd → Cmd} : (updCmd f s).now = s.now := rfl
@[simp] theorem updCmd_free {f : Cmd → Cmd} : (updCmd f s).free = s.free := rfl
@[simp] theorem updCmd_regs {f : Cmd → Cmd} : (updCmd f s).regs = s.regs := rfl
@[simp] theorem updCmd_ctrs {f : Cmd → Cmd} : (updCmd f s).ctrs = s.ctrs := rfl
@[simp] theorem updCmd_ctrRc {f : Cmd → Cmd} : (updCmd f s).ctrRc = s.ctrRc := rfl
@[simp] theorem updCmd_srcs {f : Cmd → Cmd} : (updCmd f s).srcs = s.srcs := rfl
@[simp] theorem updCmd_lastRead {f : Cmd → Cmd} : (updCmd f s).lastRead = s.lastRead := rfl
@[simp] theorem updCmd_ports {f : Cmd → Cmd} : (updCmd f s).ports = s.ports := rfl
@[simp] theorem updCmd_tolger {f : Cmd → Cmd} : (updCmd f s).tolger = s.tolger := rfl
@[simp] theorem updCmd_domains {f : Cmd → Cmd} : (updCmd f s).domains = s.domains := rfl
@[simp] theorem updCmd_topo {f : Cmd → Cmd} : (updCmd f s).topo = s.topo := rfl
@[simp] theorem updCmd_comb {f : Cmd → Cmd} : (updCmd f s).comb = s.comb := rfl
@[simp] theorem updCmd_sched {f : Cmd → Cmd} : (updCmd f s).sched = s.sched := rfl
@[simp] theorem updCmd_tuns {f : Cmd → Cmd} : (updCmd f s).tuns = s.tuns := rfl
@[simp] theorem updCmd_brg {f : Cmd → Cmd} : (updCmd f s).brg = s.brg := rfl
@[simp] theorem updCmd_deep {f : Cmd → Cmd} : (updCmd f s).deep = s.deep := rfl
@[simp] theorem updCmd_lt {f : Cmd → Cmd} : (updCmd f s).lt = s.lt := rfl
@[simp] theorem updCmd_diag {f : Cmd → Cmd} : (updCmd f s).diag = s.diag := rfl
@[simp] theorem updCmd_time {f : Cmd → Cmd} : (updCmd f s).time = s.time := rfl
@[simp] theorem updCmd_otp {f : Cmd → Cmd} : (updCmd f s).otp = s.otp := rfl
@[simp] theorem updCmd_trig {f : Cmd → Cmd} : (updCmd f s).trig = s.trig := rfl
@[simp] theorem updCmd_trims {f : Cmd → Cmd} : (updCmd f s).trims = s.trims := rfl
@[simp] theorem updCmd_tcp {f : Cmd → Cmd} : (updCmd f s).tcp = s.tcp := rfl
@[simp] theorem updCmd_svcSink {f : Cmd → Cmd} : (updCmd f s).svcSink = s.svcSink := rfl
@[simp] theorem updCmd_pdTables {f : Cmd → Cmd} : (updCmd f s).pdTables = s.pdTables := rfl
@[simp] theorem updCmd_proxies {f : Cmd → Cmd} : (updCmd f s).proxies = s.proxies := rfl
@[simp] theorem updCmd_svcDev {f : Cmd → Cmd} : (updCmd f s).svcDev = s.svcDev := rfl
@[simp] theorem updCmd_heads {f : Cmd → Cmd} : (updCmd f s).heads = s.heads := rfl
@[simp] theorem updCmd_timings {f : Cmd → Cmd} : (updCmd f s).timings = s.timings := rfl
@[simp] theorem updCmd_tols {f : Cmd → Cmd} : (updCmd f s).tols = s.tols := rfl
@[simp] theorem updCmd_dpLine {f : Cmd → Cmd} : (updCmd f s).dpLine = s.dpLine := rfl
@[simp] theorem updCmd_eths {f : Cmd → Cmd} : (updCmd f s).eths = s.eths := rfl
@[simp] theorem updCmd_etm {f : Cmd → Cmd} : (updCmd f s).etm = s.etm := rfl
@[simp] theorem updCmd_hostIf {f : Cmd → Cmd} : (updCmd f s).hostIf = s.hostIf := rfl
@[simp] theorem updCmd_efuses {f : Cmd → Cmd} : (updCmd f s).efuses = s.efuses := rfl
@[simp] theorem updCmd_nurse {f : Cmd → Cmd} : (updCmd f s).nurse = s.nurse := rfl
@[simp] theorem updCmd_tests {f : Cmd → Cmd} : (updCmd f s).tests = s.tests := rfl
@[simp] theorem updCmd_img {f : Cmd → Cmd} : (updCmd f s).img = s.img := rfl
@[simp] theorem updCmd_nor {f : Cmd → Cmd} : (updCmd f s).nor = s.nor := rfl
@[simp] theorem updCmd_supplyHold {f : Cmd → Cmd} : (updCmd f s).supplyHold = s.supplyHold := rfl
@[simp] theorem updCmd_pending {f : Cmd → Cmd} : (updCmd f s).pending = s.pending := rfl

/-! `updBrg` changes `brg`. -/
@[simp] theorem updBrg_variant {f : Bridge → Bridge} : (updBrg f s).variant = s.variant := rfl
@[simp] theorem updBrg_stepB0 {f : Bridge → Bridge} : (updBrg f s).stepB0 = s.stepB0 := rfl
@[simp] theorem updBrg_now {f : Bridge → Bridge} : (updBrg f s).now = s.now := rfl
@[simp] theorem updBrg_free {f : Bridge → Bridge} : (updBrg f s).free = s.free := rfl
@[simp] theorem updBrg_regs {f : Bridge → Bridge} : (updBrg f s).regs = s.regs := rfl
@[simp] theorem updBrg_ctrs {f : Bridge → Bridge} : (updBrg f s).ctrs = s.ctrs := rfl
@[simp] theorem updBrg_ctrRc {f : Bridge → Bridge} : (updBrg f s).ctrRc = s.ctrRc := rfl
@[simp] theorem updBrg_srcs {f : Bridge → Bridge} : (updBrg f s).srcs = s.srcs := rfl
@[simp] theorem updBrg_lastRead {f : Bridge → Bridge} : (updBrg f s).lastRead = s.lastRead := rfl
@[simp] theorem updBrg_ports {f : Bridge → Bridge} : (updBrg f s).ports = s.ports := rfl
@[simp] theorem updBrg_tolger {f : Bridge → Bridge} : (updBrg f s).tolger = s.tolger := rfl
@[simp] theorem updBrg_domains {f : Bridge → Bridge} : (updBrg f s).domains = s.domains := rfl
@[simp] theorem updBrg_topo {f : Bridge → Bridge} : (updBrg f s).topo = s.topo := rfl
@[simp] theorem updBrg_comb {f : Bridge → Bridge} : (updBrg f s).comb = s.comb := rfl
@[simp] theorem updBrg_sched {f : Bridge → Bridge} : (updBrg f s).sched = s.sched := rfl
@[simp] theorem updBrg_tuns {f : Bridge → Bridge} : (updBrg f s).tuns = s.tuns := rfl
@[simp] theorem updBrg_cmd {f : Bridge → Bridge} : (updBrg f s).cmd = s.cmd := rfl
@[simp] theorem updBrg_deep {f : Bridge → Bridge} : (updBrg f s).deep = s.deep := rfl
@[simp] theorem updBrg_lt {f : Bridge → Bridge} : (updBrg f s).lt = s.lt := rfl
@[simp] theorem updBrg_diag {f : Bridge → Bridge} : (updBrg f s).diag = s.diag := rfl
@[simp] theorem updBrg_time {f : Bridge → Bridge} : (updBrg f s).time = s.time := rfl
@[simp] theorem updBrg_otp {f : Bridge → Bridge} : (updBrg f s).otp = s.otp := rfl
@[simp] theorem updBrg_trig {f : Bridge → Bridge} : (updBrg f s).trig = s.trig := rfl
@[simp] theorem updBrg_trims {f : Bridge → Bridge} : (updBrg f s).trims = s.trims := rfl
@[simp] theorem updBrg_tcp {f : Bridge → Bridge} : (updBrg f s).tcp = s.tcp := rfl
@[simp] theorem updBrg_svcSink {f : Bridge → Bridge} : (updBrg f s).svcSink = s.svcSink := rfl
@[simp] theorem updBrg_pdTables {f : Bridge → Bridge} : (updBrg f s).pdTables = s.pdTables := rfl
@[simp] theorem updBrg_proxies {f : Bridge → Bridge} : (updBrg f s).proxies = s.proxies := rfl
@[simp] theorem updBrg_svcDev {f : Bridge → Bridge} : (updBrg f s).svcDev = s.svcDev := rfl
@[simp] theorem updBrg_heads {f : Bridge → Bridge} : (updBrg f s).heads = s.heads := rfl
@[simp] theorem updBrg_timings {f : Bridge → Bridge} : (updBrg f s).timings = s.timings := rfl
@[simp] theorem updBrg_tols {f : Bridge → Bridge} : (updBrg f s).tols = s.tols := rfl
@[simp] theorem updBrg_dpLine {f : Bridge → Bridge} : (updBrg f s).dpLine = s.dpLine := rfl
@[simp] theorem updBrg_eths {f : Bridge → Bridge} : (updBrg f s).eths = s.eths := rfl
@[simp] theorem updBrg_etm {f : Bridge → Bridge} : (updBrg f s).etm = s.etm := rfl
@[simp] theorem updBrg_hostIf {f : Bridge → Bridge} : (updBrg f s).hostIf = s.hostIf := rfl
@[simp] theorem updBrg_efuses {f : Bridge → Bridge} : (updBrg f s).efuses = s.efuses := rfl
@[simp] theorem updBrg_nurse {f : Bridge → Bridge} : (updBrg f s).nurse = s.nurse := rfl
@[simp] theorem updBrg_tests {f : Bridge → Bridge} : (updBrg f s).tests = s.tests := rfl
@[simp] theorem updBrg_img {f : Bridge → Bridge} : (updBrg f s).img = s.img := rfl
@[simp] theorem updBrg_nor {f : Bridge → Bridge} : (updBrg f s).nor = s.nor := rfl
@[simp] theorem updBrg_supplyHold {f : Bridge → Bridge} : (updBrg f s).supplyHold = s.supplyHold := rfl
@[simp] theorem updBrg_pending {f : Bridge → Bridge} : (updBrg f s).pending = s.pending := rfl

/-! `updTuns` changes `tuns`. -/
@[simp] theorem updTuns_variant {f : Tunnels → Tunnels} : (updTuns f s).variant = s.variant := rfl
@[simp] theorem updTuns_stepB0 {f : Tunnels → Tunnels} : (updTuns f s).stepB0 = s.stepB0 := rfl
@[simp] theorem updTuns_now {f : Tunnels → Tunnels} : (updTuns f s).now = s.now := rfl
@[simp] theorem updTuns_free {f : Tunnels → Tunnels} : (updTuns f s).free = s.free := rfl
@[simp] theorem updTuns_regs {f : Tunnels → Tunnels} : (updTuns f s).regs = s.regs := rfl
@[simp] theorem updTuns_ctrs {f : Tunnels → Tunnels} : (updTuns f s).ctrs = s.ctrs := rfl
@[simp] theorem updTuns_ctrRc {f : Tunnels → Tunnels} : (updTuns f s).ctrRc = s.ctrRc := rfl
@[simp] theorem updTuns_srcs {f : Tunnels → Tunnels} : (updTuns f s).srcs = s.srcs := rfl
@[simp] theorem updTuns_lastRead {f : Tunnels → Tunnels} : (updTuns f s).lastRead = s.lastRead := rfl
@[simp] theorem updTuns_ports {f : Tunnels → Tunnels} : (updTuns f s).ports = s.ports := rfl
@[simp] theorem updTuns_tolger {f : Tunnels → Tunnels} : (updTuns f s).tolger = s.tolger := rfl
@[simp] theorem updTuns_domains {f : Tunnels → Tunnels} : (updTuns f s).domains = s.domains := rfl
@[simp] theorem updTuns_topo {f : Tunnels → Tunnels} : (updTuns f s).topo = s.topo := rfl
@[simp] theorem updTuns_comb {f : Tunnels → Tunnels} : (updTuns f s).comb = s.comb := rfl
@[simp] theorem updTuns_sched {f : Tunnels → Tunnels} : (updTuns f s).sched = s.sched := rfl
@[simp] theorem updTuns_brg {f : Tunnels → Tunnels} : (updTuns f s).brg = s.brg := rfl
@[simp] theorem updTuns_cmd {f : Tunnels → Tunnels} : (updTuns f s).cmd = s.cmd := rfl
@[simp] theorem updTuns_deep {f : Tunnels → Tunnels} : (updTuns f s).deep = s.deep := rfl
@[simp] theorem updTuns_lt {f : Tunnels → Tunnels} : (updTuns f s).lt = s.lt := rfl
@[simp] theorem updTuns_diag {f : Tunnels → Tunnels} : (updTuns f s).diag = s.diag := rfl
@[simp] theorem updTuns_time {f : Tunnels → Tunnels} : (updTuns f s).time = s.time := rfl
@[simp] theorem updTuns_otp {f : Tunnels → Tunnels} : (updTuns f s).otp = s.otp := rfl
@[simp] theorem updTuns_trig {f : Tunnels → Tunnels} : (updTuns f s).trig = s.trig := rfl
@[simp] theorem updTuns_trims {f : Tunnels → Tunnels} : (updTuns f s).trims = s.trims := rfl
@[simp] theorem updTuns_tcp {f : Tunnels → Tunnels} : (updTuns f s).tcp = s.tcp := rfl
@[simp] theorem updTuns_svcSink {f : Tunnels → Tunnels} : (updTuns f s).svcSink = s.svcSink := rfl
@[simp] theorem updTuns_pdTables {f : Tunnels → Tunnels} : (updTuns f s).pdTables = s.pdTables := rfl
@[simp] theorem updTuns_proxies {f : Tunnels → Tunnels} : (updTuns f s).proxies = s.proxies := rfl
@[simp] theorem updTuns_svcDev {f : Tunnels → Tunnels} : (updTuns f s).svcDev = s.svcDev := rfl
@[simp] theorem updTuns_heads {f : Tunnels → Tunnels} : (updTuns f s).heads = s.heads := rfl
@[simp] theorem updTuns_timings {f : Tunnels → Tunnels} : (updTuns f s).timings = s.timings := rfl
@[simp] theorem updTuns_tols {f : Tunnels → Tunnels} : (updTuns f s).tols = s.tols := rfl
@[simp] theorem updTuns_dpLine {f : Tunnels → Tunnels} : (updTuns f s).dpLine = s.dpLine := rfl
@[simp] theorem updTuns_eths {f : Tunnels → Tunnels} : (updTuns f s).eths = s.eths := rfl
@[simp] theorem updTuns_etm {f : Tunnels → Tunnels} : (updTuns f s).etm = s.etm := rfl
@[simp] theorem updTuns_hostIf {f : Tunnels → Tunnels} : (updTuns f s).hostIf = s.hostIf := rfl
@[simp] theorem updTuns_efuses {f : Tunnels → Tunnels} : (updTuns f s).efuses = s.efuses := rfl
@[simp] theorem updTuns_nurse {f : Tunnels → Tunnels} : (updTuns f s).nurse = s.nurse := rfl
@[simp] theorem updTuns_tests {f : Tunnels → Tunnels} : (updTuns f s).tests = s.tests := rfl
@[simp] theorem updTuns_img {f : Tunnels → Tunnels} : (updTuns f s).img = s.img := rfl
@[simp] theorem updTuns_nor {f : Tunnels → Tunnels} : (updTuns f s).nor = s.nor := rfl
@[simp] theorem updTuns_supplyHold {f : Tunnels → Tunnels} : (updTuns f s).supplyHold = s.supplyHold := rfl
@[simp] theorem updTuns_pending {f : Tunnels → Tunnels} : (updTuns f s).pending = s.pending := rfl

/-! `updSched` changes `sched`. -/
@[simp] theorem updSched_variant {f : Sched → Sched} : (updSched f s).variant = s.variant := rfl
@[simp] theorem updSched_stepB0 {f : Sched → Sched} : (updSched f s).stepB0 = s.stepB0 := rfl
@[simp] theorem updSched_now {f : Sched → Sched} : (updSched f s).now = s.now := rfl
@[simp] theorem updSched_free {f : Sched → Sched} : (updSched f s).free = s.free := rfl
@[simp] theorem updSched_regs {f : Sched → Sched} : (updSched f s).regs = s.regs := rfl
@[simp] theorem updSched_ctrs {f : Sched → Sched} : (updSched f s).ctrs = s.ctrs := rfl
@[simp] theorem updSched_ctrRc {f : Sched → Sched} : (updSched f s).ctrRc = s.ctrRc := rfl
@[simp] theorem updSched_srcs {f : Sched → Sched} : (updSched f s).srcs = s.srcs := rfl
@[simp] theorem updSched_lastRead {f : Sched → Sched} : (updSched f s).lastRead = s.lastRead := rfl
@[simp] theorem updSched_ports {f : Sched → Sched} : (updSched f s).ports = s.ports := rfl
@[simp] theorem updSched_tolger {f : Sched → Sched} : (updSched f s).tolger = s.tolger := rfl
@[simp] theorem updSched_domains {f : Sched → Sched} : (updSched f s).domains = s.domains := rfl
@[simp] theorem updSched_topo {f : Sched → Sched} : (updSched f s).topo = s.topo := rfl
@[simp] theorem updSched_comb {f : Sched → Sched} : (updSched f s).comb = s.comb := rfl
@[simp] theorem updSched_tuns {f : Sched → Sched} : (updSched f s).tuns = s.tuns := rfl
@[simp] theorem updSched_brg {f : Sched → Sched} : (updSched f s).brg = s.brg := rfl
@[simp] theorem updSched_cmd {f : Sched → Sched} : (updSched f s).cmd = s.cmd := rfl
@[simp] theorem updSched_deep {f : Sched → Sched} : (updSched f s).deep = s.deep := rfl
@[simp] theorem updSched_lt {f : Sched → Sched} : (updSched f s).lt = s.lt := rfl
@[simp] theorem updSched_diag {f : Sched → Sched} : (updSched f s).diag = s.diag := rfl
@[simp] theorem updSched_time {f : Sched → Sched} : (updSched f s).time = s.time := rfl
@[simp] theorem updSched_otp {f : Sched → Sched} : (updSched f s).otp = s.otp := rfl
@[simp] theorem updSched_trig {f : Sched → Sched} : (updSched f s).trig = s.trig := rfl
@[simp] theorem updSched_trims {f : Sched → Sched} : (updSched f s).trims = s.trims := rfl
@[simp] theorem updSched_tcp {f : Sched → Sched} : (updSched f s).tcp = s.tcp := rfl
@[simp] theorem updSched_svcSink {f : Sched → Sched} : (updSched f s).svcSink = s.svcSink := rfl
@[simp] theorem updSched_pdTables {f : Sched → Sched} : (updSched f s).pdTables = s.pdTables := rfl
@[simp] theorem updSched_proxies {f : Sched → Sched} : (updSched f s).proxies = s.proxies := rfl
@[simp] theorem updSched_svcDev {f : Sched → Sched} : (updSched f s).svcDev = s.svcDev := rfl
@[simp] theorem updSched_heads {f : Sched → Sched} : (updSched f s).heads = s.heads := rfl
@[simp] theorem updSched_timings {f : Sched → Sched} : (updSched f s).timings = s.timings := rfl
@[simp] theorem updSched_tols {f : Sched → Sched} : (updSched f s).tols = s.tols := rfl
@[simp] theorem updSched_dpLine {f : Sched → Sched} : (updSched f s).dpLine = s.dpLine := rfl
@[simp] theorem updSched_eths {f : Sched → Sched} : (updSched f s).eths = s.eths := rfl
@[simp] theorem updSched_etm {f : Sched → Sched} : (updSched f s).etm = s.etm := rfl
@[simp] theorem updSched_hostIf {f : Sched → Sched} : (updSched f s).hostIf = s.hostIf := rfl
@[simp] theorem updSched_efuses {f : Sched → Sched} : (updSched f s).efuses = s.efuses := rfl
@[simp] theorem updSched_nurse {f : Sched → Sched} : (updSched f s).nurse = s.nurse := rfl
@[simp] theorem updSched_tests {f : Sched → Sched} : (updSched f s).tests = s.tests := rfl
@[simp] theorem updSched_img {f : Sched → Sched} : (updSched f s).img = s.img := rfl
@[simp] theorem updSched_nor {f : Sched → Sched} : (updSched f s).nor = s.nor := rfl
@[simp] theorem updSched_supplyHold {f : Sched → Sched} : (updSched f s).supplyHold = s.supplyHold := rfl
@[simp] theorem updSched_pending {f : Sched → Sched} : (updSched f s).pending = s.pending := rfl

/-! `setHold` changes `comb`. -/
@[simp] theorem setHold_variant {p : Nat} {l : List Held} : (setHold p l s).variant = s.variant := rfl
@[simp] theorem setHold_stepB0 {p : Nat} {l : List Held} : (setHold p l s).stepB0 = s.stepB0 := rfl
@[simp] theorem setHold_now {p : Nat} {l : List Held} : (setHold p l s).now = s.now := rfl
@[simp] theorem setHold_free {p : Nat} {l : List Held} : (setHold p l s).free = s.free := rfl
@[simp] theorem setHold_regs {p : Nat} {l : List Held} : (setHold p l s).regs = s.regs := rfl
@[simp] theorem setHold_ctrs {p : Nat} {l : List Held} : (setHold p l s).ctrs = s.ctrs := rfl
@[simp] theorem setHold_ctrRc {p : Nat} {l : List Held} : (setHold p l s).ctrRc = s.ctrRc := rfl
@[simp] theorem setHold_srcs {p : Nat} {l : List Held} : (setHold p l s).srcs = s.srcs := rfl
@[simp] theorem setHold_lastRead {p : Nat} {l : List Held} : (setHold p l s).lastRead = s.lastRead := rfl
@[simp] theorem setHold_ports {p : Nat} {l : List Held} : (setHold p l s).ports = s.ports := rfl
@[simp] theorem setHold_tolger {p : Nat} {l : List Held} : (setHold p l s).tolger = s.tolger := rfl
@[simp] theorem setHold_domains {p : Nat} {l : List Held} : (setHold p l s).domains = s.domains := rfl
@[simp] theorem setHold_topo {p : Nat} {l : List Held} : (setHold p l s).topo = s.topo := rfl
@[simp] theorem setHold_sched {p : Nat} {l : List Held} : (setHold p l s).sched = s.sched := rfl
@[simp] theorem setHold_tuns {p : Nat} {l : List Held} : (setHold p l s).tuns = s.tuns := rfl
@[simp] theorem setHold_brg {p : Nat} {l : List Held} : (setHold p l s).brg = s.brg := rfl
@[simp] theorem setHold_cmd {p : Nat} {l : List Held} : (setHold p l s).cmd = s.cmd := rfl
@[simp] theorem setHold_deep {p : Nat} {l : List Held} : (setHold p l s).deep = s.deep := rfl
@[simp] theorem setHold_lt {p : Nat} {l : List Held} : (setHold p l s).lt = s.lt := rfl
@[simp] theorem setHold_diag {p : Nat} {l : List Held} : (setHold p l s).diag = s.diag := rfl
@[simp] theorem setHold_time {p : Nat} {l : List Held} : (setHold p l s).time = s.time := rfl
@[simp] theorem setHold_otp {p : Nat} {l : List Held} : (setHold p l s).otp = s.otp := rfl
@[simp] theorem setHold_trig {p : Nat} {l : List Held} : (setHold p l s).trig = s.trig := rfl
@[simp] theorem setHold_trims {p : Nat} {l : List Held} : (setHold p l s).trims = s.trims := rfl
@[simp] theorem setHold_tcp {p : Nat} {l : List Held} : (setHold p l s).tcp = s.tcp := rfl
@[simp] theorem setHold_svcSink {p : Nat} {l : List Held} : (setHold p l s).svcSink = s.svcSink := rfl
@[simp] theorem setHold_pdTables {p : Nat} {l : List Held} : (setHold p l s).pdTables = s.pdTables := rfl
@[simp] theorem setHold_proxies {p : Nat} {l : List Held} : (setHold p l s).proxies = s.proxies := rfl
@[simp] theorem setHold_svcDev {p : Nat} {l : List Held} : (setHold p l s).svcDev = s.svcDev := rfl
@[simp] theorem setHold_heads {p : Nat} {l : List Held} : (setHold p l s).heads = s.heads := rfl
@[simp] theorem setHold_timings {p : Nat} {l : List Held} : (setHold p l s).timings = s.timings := rfl
@[simp] theorem setHold_tols {p : Nat} {l : List Held} : (setHold p l s).tols = s.tols := rfl
@[simp] theorem setHold_dpLine {p : Nat} {l : List Held} : (setHold p l s).dpLine = s.dpLine := rfl
@[simp] theorem setHold_eths {p : Nat} {l : List Held} : (setHold p l s).eths = s.eths := rfl
@[simp] theorem setHold_etm {p : Nat} {l : List Held} : (setHold p l s).etm = s.etm := rfl
@[simp] theorem setHold_hostIf {p : Nat} {l : List Held} : (setHold p l s).hostIf = s.hostIf := rfl
@[simp] theorem setHold_efuses {p : Nat} {l : List Held} : (setHold p l s).efuses = s.efuses := rfl
@[simp] theorem setHold_nurse {p : Nat} {l : List Held} : (setHold p l s).nurse = s.nurse := rfl
@[simp] theorem setHold_tests {p : Nat} {l : List Held} : (setHold p l s).tests = s.tests := rfl
@[simp] theorem setHold_img {p : Nat} {l : List Held} : (setHold p l s).img = s.img := rfl
@[simp] theorem setHold_nor {p : Nat} {l : List Held} : (setHold p l s).nor = s.nor := rfl
@[simp] theorem setHold_supplyHold {p : Nat} {l : List Held} : (setHold p l s).supplyHold = s.supplyHold := rfl
@[simp] theorem setHold_pending {p : Nat} {l : List Held} : (setHold p l s).pending = s.pending := rfl

/-! `setOutQ` changes `comb`. -/
@[simp] theorem setOutQ_variant {q : Nat} {l : List QEnt} : (setOutQ q l s).variant = s.variant := rfl
@[simp] theorem setOutQ_stepB0 {q : Nat} {l : List QEnt} : (setOutQ q l s).stepB0 = s.stepB0 := rfl
@[simp] theorem setOutQ_now {q : Nat} {l : List QEnt} : (setOutQ q l s).now = s.now := rfl
@[simp] theorem setOutQ_free {q : Nat} {l : List QEnt} : (setOutQ q l s).free = s.free := rfl
@[simp] theorem setOutQ_regs {q : Nat} {l : List QEnt} : (setOutQ q l s).regs = s.regs := rfl
@[simp] theorem setOutQ_ctrs {q : Nat} {l : List QEnt} : (setOutQ q l s).ctrs = s.ctrs := rfl
@[simp] theorem setOutQ_ctrRc {q : Nat} {l : List QEnt} : (setOutQ q l s).ctrRc = s.ctrRc := rfl
@[simp] theorem setOutQ_srcs {q : Nat} {l : List QEnt} : (setOutQ q l s).srcs = s.srcs := rfl
@[simp] theorem setOutQ_lastRead {q : Nat} {l : List QEnt} : (setOutQ q l s).lastRead = s.lastRead := rfl
@[simp] theorem setOutQ_ports {q : Nat} {l : List QEnt} : (setOutQ q l s).ports = s.ports := rfl
@[simp] theorem setOutQ_tolger {q : Nat} {l : List QEnt} : (setOutQ q l s).tolger = s.tolger := rfl
@[simp] theorem setOutQ_domains {q : Nat} {l : List QEnt} : (setOutQ q l s).domains = s.domains := rfl
@[simp] theorem setOutQ_topo {q : Nat} {l : List QEnt} : (setOutQ q l s).topo = s.topo := rfl
@[simp] theorem setOutQ_sched {q : Nat} {l : List QEnt} : (setOutQ q l s).sched = s.sched := rfl
@[simp] theorem setOutQ_tuns {q : Nat} {l : List QEnt} : (setOutQ q l s).tuns = s.tuns := rfl
@[simp] theorem setOutQ_brg {q : Nat} {l : List QEnt} : (setOutQ q l s).brg = s.brg := rfl
@[simp] theorem setOutQ_cmd {q : Nat} {l : List QEnt} : (setOutQ q l s).cmd = s.cmd := rfl
@[simp] theorem setOutQ_deep {q : Nat} {l : List QEnt} : (setOutQ q l s).deep = s.deep := rfl
@[simp] theorem setOutQ_lt {q : Nat} {l : List QEnt} : (setOutQ q l s).lt = s.lt := rfl
@[simp] theorem setOutQ_diag {q : Nat} {l : List QEnt} : (setOutQ q l s).diag = s.diag := rfl
@[simp] theorem setOutQ_time {q : Nat} {l : List QEnt} : (setOutQ q l s).time = s.time := rfl
@[simp] theorem setOutQ_otp {q : Nat} {l : List QEnt} : (setOutQ q l s).otp = s.otp := rfl
@[simp] theorem setOutQ_trig {q : Nat} {l : List QEnt} : (setOutQ q l s).trig = s.trig := rfl
@[simp] theorem setOutQ_trims {q : Nat} {l : List QEnt} : (setOutQ q l s).trims = s.trims := rfl
@[simp] theorem setOutQ_tcp {q : Nat} {l : List QEnt} : (setOutQ q l s).tcp = s.tcp := rfl
@[simp] theorem setOutQ_svcSink {q : Nat} {l : List QEnt} : (setOutQ q l s).svcSink = s.svcSink := rfl
@[simp] theorem setOutQ_pdTables {q : Nat} {l : List QEnt} : (setOutQ q l s).pdTables = s.pdTables := rfl
@[simp] theorem setOutQ_proxies {q : Nat} {l : List QEnt} : (setOutQ q l s).proxies = s.proxies := rfl
@[simp] theorem setOutQ_svcDev {q : Nat} {l : List QEnt} : (setOutQ q l s).svcDev = s.svcDev := rfl
@[simp] theorem setOutQ_heads {q : Nat} {l : List QEnt} : (setOutQ q l s).heads = s.heads := rfl
@[simp] theorem setOutQ_timings {q : Nat} {l : List QEnt} : (setOutQ q l s).timings = s.timings := rfl
@[simp] theorem setOutQ_tols {q : Nat} {l : List QEnt} : (setOutQ q l s).tols = s.tols := rfl
@[simp] theorem setOutQ_dpLine {q : Nat} {l : List QEnt} : (setOutQ q l s).dpLine = s.dpLine := rfl
@[simp] theorem setOutQ_eths {q : Nat} {l : List QEnt} : (setOutQ q l s).eths = s.eths := rfl
@[simp] theorem setOutQ_etm {q : Nat} {l : List QEnt} : (setOutQ q l s).etm = s.etm := rfl
@[simp] theorem setOutQ_hostIf {q : Nat} {l : List QEnt} : (setOutQ q l s).hostIf = s.hostIf := rfl
@[simp] theorem setOutQ_efuses {q : Nat} {l : List QEnt} : (setOutQ q l s).efuses = s.efuses := rfl
@[simp] theorem setOutQ_nurse {q : Nat} {l : List QEnt} : (setOutQ q l s).nurse = s.nurse := rfl
@[simp] theorem setOutQ_tests {q : Nat} {l : List QEnt} : (setOutQ q l s).tests = s.tests := rfl
@[simp] theorem setOutQ_img {q : Nat} {l : List QEnt} : (setOutQ q l s).img = s.img := rfl
@[simp] theorem setOutQ_nor {q : Nat} {l : List QEnt} : (setOutQ q l s).nor = s.nor := rfl
@[simp] theorem setOutQ_supplyHold {q : Nat} {l : List QEnt} : (setOutQ q l s).supplyHold = s.supplyHold := rfl
@[simp] theorem setOutQ_pending {q : Nat} {l : List QEnt} : (setOutQ q l s).pending = s.pending := rfl

/-! `setPark` changes `comb`. -/
@[simp] theorem setPark_variant {q : Nat} {l : List QEnt} : (setPark q l s).variant = s.variant := rfl
@[simp] theorem setPark_stepB0 {q : Nat} {l : List QEnt} : (setPark q l s).stepB0 = s.stepB0 := rfl
@[simp] theorem setPark_now {q : Nat} {l : List QEnt} : (setPark q l s).now = s.now := rfl
@[simp] theorem setPark_free {q : Nat} {l : List QEnt} : (setPark q l s).free = s.free := rfl
@[simp] theorem setPark_regs {q : Nat} {l : List QEnt} : (setPark q l s).regs = s.regs := rfl
@[simp] theorem setPark_ctrs {q : Nat} {l : List QEnt} : (setPark q l s).ctrs = s.ctrs := rfl
@[simp] theorem setPark_ctrRc {q : Nat} {l : List QEnt} : (setPark q l s).ctrRc = s.ctrRc := rfl
@[simp] theorem setPark_srcs {q : Nat} {l : List QEnt} : (setPark q l s).srcs = s.srcs := rfl
@[simp] theorem setPark_lastRead {q : Nat} {l : List QEnt} : (setPark q l s).lastRead = s.lastRead := rfl
@[simp] theorem setPark_ports {q : Nat} {l : List QEnt} : (setPark q l s).ports = s.ports := rfl
@[simp] theorem setPark_tolger {q : Nat} {l : List QEnt} : (setPark q l s).tolger = s.tolger := rfl
@[simp] theorem setPark_domains {q : Nat} {l : List QEnt} : (setPark q l s).domains = s.domains := rfl
@[simp] theorem setPark_topo {q : Nat} {l : List QEnt} : (setPark q l s).topo = s.topo := rfl
@[simp] theorem setPark_sched {q : Nat} {l : List QEnt} : (setPark q l s).sched = s.sched := rfl
@[simp] theorem setPark_tuns {q : Nat} {l : List QEnt} : (setPark q l s).tuns = s.tuns := rfl
@[simp] theorem setPark_brg {q : Nat} {l : List QEnt} : (setPark q l s).brg = s.brg := rfl
@[simp] theorem setPark_cmd {q : Nat} {l : List QEnt} : (setPark q l s).cmd = s.cmd := rfl
@[simp] theorem setPark_deep {q : Nat} {l : List QEnt} : (setPark q l s).deep = s.deep := rfl
@[simp] theorem setPark_lt {q : Nat} {l : List QEnt} : (setPark q l s).lt = s.lt := rfl
@[simp] theorem setPark_diag {q : Nat} {l : List QEnt} : (setPark q l s).diag = s.diag := rfl
@[simp] theorem setPark_time {q : Nat} {l : List QEnt} : (setPark q l s).time = s.time := rfl
@[simp] theorem setPark_otp {q : Nat} {l : List QEnt} : (setPark q l s).otp = s.otp := rfl
@[simp] theorem setPark_trig {q : Nat} {l : List QEnt} : (setPark q l s).trig = s.trig := rfl
@[simp] theorem setPark_trims {q : Nat} {l : List QEnt} : (setPark q l s).trims = s.trims := rfl
@[simp] theorem setPark_tcp {q : Nat} {l : List QEnt} : (setPark q l s).tcp = s.tcp := rfl
@[simp] theorem setPark_svcSink {q : Nat} {l : List QEnt} : (setPark q l s).svcSink = s.svcSink := rfl
@[simp] theorem setPark_pdTables {q : Nat} {l : List QEnt} : (setPark q l s).pdTables = s.pdTables := rfl
@[simp] theorem setPark_proxies {q : Nat} {l : List QEnt} : (setPark q l s).proxies = s.proxies := rfl
@[simp] theorem setPark_svcDev {q : Nat} {l : List QEnt} : (setPark q l s).svcDev = s.svcDev := rfl
@[simp] theorem setPark_heads {q : Nat} {l : List QEnt} : (setPark q l s).heads = s.heads := rfl
@[simp] theorem setPark_timings {q : Nat} {l : List QEnt} : (setPark q l s).timings = s.timings := rfl
@[simp] theorem setPark_tols {q : Nat} {l : List QEnt} : (setPark q l s).tols = s.tols := rfl
@[simp] theorem setPark_dpLine {q : Nat} {l : List QEnt} : (setPark q l s).dpLine = s.dpLine := rfl
@[simp] theorem setPark_eths {q : Nat} {l : List QEnt} : (setPark q l s).eths = s.eths := rfl
@[simp] theorem setPark_etm {q : Nat} {l : List QEnt} : (setPark q l s).etm = s.etm := rfl
@[simp] theorem setPark_hostIf {q : Nat} {l : List QEnt} : (setPark q l s).hostIf = s.hostIf := rfl
@[simp] theorem setPark_efuses {q : Nat} {l : List QEnt} : (setPark q l s).efuses = s.efuses := rfl
@[simp] theorem setPark_nurse {q : Nat} {l : List QEnt} : (setPark q l s).nurse = s.nurse := rfl
@[simp] theorem setPark_tests {q : Nat} {l : List QEnt} : (setPark q l s).tests = s.tests := rfl
@[simp] theorem setPark_img {q : Nat} {l : List QEnt} : (setPark q l s).img = s.img := rfl
@[simp] theorem setPark_nor {q : Nat} {l : List QEnt} : (setPark q l s).nor = s.nor := rfl
@[simp] theorem setPark_supplyHold {q : Nat} {l : List QEnt} : (setPark q l s).supplyHold = s.supplyHold := rfl
@[simp] theorem setPark_pending {q : Nat} {l : List QEnt} : (setPark q l s).pending = s.pending := rfl

/-! `deepWrites` changes `deep`. -/
@[simp] theorem deepWrites_variant {a : Nat} {l : List Byte} : (deepWrites a l s).variant = s.variant := rfl
@[simp] theorem deepWrites_stepB0 {a : Nat} {l : List Byte} : (deepWrites a l s).stepB0 = s.stepB0 := rfl
@[simp] theorem deepWrites_now {a : Nat} {l : List Byte} : (deepWrites a l s).now = s.now := rfl
@[simp] theorem deepWrites_free {a : Nat} {l : List Byte} : (deepWrites a l s).free = s.free := rfl
@[simp] theorem deepWrites_regs {a : Nat} {l : List Byte} : (deepWrites a l s).regs = s.regs := rfl
@[simp] theorem deepWrites_ctrs {a : Nat} {l : List Byte} : (deepWrites a l s).ctrs = s.ctrs := rfl
@[simp] theorem deepWrites_ctrRc {a : Nat} {l : List Byte} : (deepWrites a l s).ctrRc = s.ctrRc := rfl
@[simp] theorem deepWrites_srcs {a : Nat} {l : List Byte} : (deepWrites a l s).srcs = s.srcs := rfl
@[simp] theorem deepWrites_lastRead {a : Nat} {l : List Byte} : (deepWrites a l s).lastRead = s.lastRead := rfl
@[simp] theorem deepWrites_ports {a : Nat} {l : List Byte} : (deepWrites a l s).ports = s.ports := rfl
@[simp] theorem deepWrites_tolger {a : Nat} {l : List Byte} : (deepWrites a l s).tolger = s.tolger := rfl
@[simp] theorem deepWrites_domains {a : Nat} {l : List Byte} : (deepWrites a l s).domains = s.domains := rfl
@[simp] theorem deepWrites_topo {a : Nat} {l : List Byte} : (deepWrites a l s).topo = s.topo := rfl
@[simp] theorem deepWrites_comb {a : Nat} {l : List Byte} : (deepWrites a l s).comb = s.comb := rfl
@[simp] theorem deepWrites_sched {a : Nat} {l : List Byte} : (deepWrites a l s).sched = s.sched := rfl
@[simp] theorem deepWrites_tuns {a : Nat} {l : List Byte} : (deepWrites a l s).tuns = s.tuns := rfl
@[simp] theorem deepWrites_brg {a : Nat} {l : List Byte} : (deepWrites a l s).brg = s.brg := rfl
@[simp] theorem deepWrites_cmd {a : Nat} {l : List Byte} : (deepWrites a l s).cmd = s.cmd := rfl
@[simp] theorem deepWrites_lt {a : Nat} {l : List Byte} : (deepWrites a l s).lt = s.lt := rfl
@[simp] theorem deepWrites_diag {a : Nat} {l : List Byte} : (deepWrites a l s).diag = s.diag := rfl
@[simp] theorem deepWrites_time {a : Nat} {l : List Byte} : (deepWrites a l s).time = s.time := rfl
@[simp] theorem deepWrites_otp {a : Nat} {l : List Byte} : (deepWrites a l s).otp = s.otp := rfl
@[simp] theorem deepWrites_trig {a : Nat} {l : List Byte} : (deepWrites a l s).trig = s.trig := rfl
@[simp] theorem deepWrites_trims {a : Nat} {l : List Byte} : (deepWrites a l s).trims = s.trims := rfl
@[simp] theorem deepWrites_tcp {a : Nat} {l : List Byte} : (deepWrites a l s).tcp = s.tcp := rfl
@[simp] theorem deepWrites_svcSink {a : Nat} {l : List Byte} : (deepWrites a l s).svcSink = s.svcSink := rfl
@[simp] theorem deepWrites_pdTables {a : Nat} {l : List Byte} : (deepWrites a l s).pdTables = s.pdTables := rfl
@[simp] theorem deepWrites_proxies {a : Nat} {l : List Byte} : (deepWrites a l s).proxies = s.proxies := rfl
@[simp] theorem deepWrites_svcDev {a : Nat} {l : List Byte} : (deepWrites a l s).svcDev = s.svcDev := rfl
@[simp] theorem deepWrites_heads {a : Nat} {l : List Byte} : (deepWrites a l s).heads = s.heads := rfl
@[simp] theorem deepWrites_timings {a : Nat} {l : List Byte} : (deepWrites a l s).timings = s.timings := rfl
@[simp] theorem deepWrites_tols {a : Nat} {l : List Byte} : (deepWrites a l s).tols = s.tols := rfl
@[simp] theorem deepWrites_dpLine {a : Nat} {l : List Byte} : (deepWrites a l s).dpLine = s.dpLine := rfl
@[simp] theorem deepWrites_eths {a : Nat} {l : List Byte} : (deepWrites a l s).eths = s.eths := rfl
@[simp] theorem deepWrites_etm {a : Nat} {l : List Byte} : (deepWrites a l s).etm = s.etm := rfl
@[simp] theorem deepWrites_hostIf {a : Nat} {l : List Byte} : (deepWrites a l s).hostIf = s.hostIf := rfl
@[simp] theorem deepWrites_efuses {a : Nat} {l : List Byte} : (deepWrites a l s).efuses = s.efuses := rfl
@[simp] theorem deepWrites_nurse {a : Nat} {l : List Byte} : (deepWrites a l s).nurse = s.nurse := rfl
@[simp] theorem deepWrites_tests {a : Nat} {l : List Byte} : (deepWrites a l s).tests = s.tests := rfl
@[simp] theorem deepWrites_img {a : Nat} {l : List Byte} : (deepWrites a l s).img = s.img := rfl
@[simp] theorem deepWrites_nor {a : Nat} {l : List Byte} : (deepWrites a l s).nor = s.nor := rfl
@[simp] theorem deepWrites_supplyHold {a : Nat} {l : List Byte} : (deepWrites a l s).supplyHold = s.supplyHold := rfl
@[simp] theorem deepWrites_pending {a : Nat} {l : List Byte} : (deepWrites a l s).pending = s.pending := rfl

/-! `setTrig` changes `trig`. -/
@[simp] theorem setTrig_variant {k : Nat} {p : TrigPin} : (setTrig k p s).variant = s.variant := rfl
@[simp] theorem setTrig_stepB0 {k : Nat} {p : TrigPin} : (setTrig k p s).stepB0 = s.stepB0 := rfl
@[simp] theorem setTrig_now {k : Nat} {p : TrigPin} : (setTrig k p s).now = s.now := rfl
@[simp] theorem setTrig_free {k : Nat} {p : TrigPin} : (setTrig k p s).free = s.free := rfl
@[simp] theorem setTrig_regs {k : Nat} {p : TrigPin} : (setTrig k p s).regs = s.regs := rfl
@[simp] theorem setTrig_ctrs {k : Nat} {p : TrigPin} : (setTrig k p s).ctrs = s.ctrs := rfl
@[simp] theorem setTrig_ctrRc {k : Nat} {p : TrigPin} : (setTrig k p s).ctrRc = s.ctrRc := rfl
@[simp] theorem setTrig_srcs {k : Nat} {p : TrigPin} : (setTrig k p s).srcs = s.srcs := rfl
@[simp] theorem setTrig_lastRead {k : Nat} {p : TrigPin} : (setTrig k p s).lastRead = s.lastRead := rfl
@[simp] theorem setTrig_ports {k : Nat} {p : TrigPin} : (setTrig k p s).ports = s.ports := rfl
@[simp] theorem setTrig_tolger {k : Nat} {p : TrigPin} : (setTrig k p s).tolger = s.tolger := rfl
@[simp] theorem setTrig_domains {k : Nat} {p : TrigPin} : (setTrig k p s).domains = s.domains := rfl
@[simp] theorem setTrig_topo {k : Nat} {p : TrigPin} : (setTrig k p s).topo = s.topo := rfl
@[simp] theorem setTrig_comb {k : Nat} {p : TrigPin} : (setTrig k p s).comb = s.comb := rfl
@[simp] theorem setTrig_sched {k : Nat} {p : TrigPin} : (setTrig k p s).sched = s.sched := rfl
@[simp] theorem setTrig_tuns {k : Nat} {p : TrigPin} : (setTrig k p s).tuns = s.tuns := rfl
@[simp] theorem setTrig_brg {k : Nat} {p : TrigPin} : (setTrig k p s).brg = s.brg := rfl
@[simp] theorem setTrig_cmd {k : Nat} {p : TrigPin} : (setTrig k p s).cmd = s.cmd := rfl
@[simp] theorem setTrig_deep {k : Nat} {p : TrigPin} : (setTrig k p s).deep = s.deep := rfl
@[simp] theorem setTrig_lt {k : Nat} {p : TrigPin} : (setTrig k p s).lt = s.lt := rfl
@[simp] theorem setTrig_diag {k : Nat} {p : TrigPin} : (setTrig k p s).diag = s.diag := rfl
@[simp] theorem setTrig_time {k : Nat} {p : TrigPin} : (setTrig k p s).time = s.time := rfl
@[simp] theorem setTrig_otp {k : Nat} {p : TrigPin} : (setTrig k p s).otp = s.otp := rfl
@[simp] theorem setTrig_trims {k : Nat} {p : TrigPin} : (setTrig k p s).trims = s.trims := rfl
@[simp] theorem setTrig_tcp {k : Nat} {p : TrigPin} : (setTrig k p s).tcp = s.tcp := rfl
@[simp] theorem setTrig_svcSink {k : Nat} {p : TrigPin} : (setTrig k p s).svcSink = s.svcSink := rfl
@[simp] theorem setTrig_pdTables {k : Nat} {p : TrigPin} : (setTrig k p s).pdTables = s.pdTables := rfl
@[simp] theorem setTrig_proxies {k : Nat} {p : TrigPin} : (setTrig k p s).proxies = s.proxies := rfl
@[simp] theorem setTrig_svcDev {k : Nat} {p : TrigPin} : (setTrig k p s).svcDev = s.svcDev := rfl
@[simp] theorem setTrig_heads {k : Nat} {p : TrigPin} : (setTrig k p s).heads = s.heads := rfl
@[simp] theorem setTrig_timings {k : Nat} {p : TrigPin} : (setTrig k p s).timings = s.timings := rfl
@[simp] theorem setTrig_tols {k : Nat} {p : TrigPin} : (setTrig k p s).tols = s.tols := rfl
@[simp] theorem setTrig_dpLine {k : Nat} {p : TrigPin} : (setTrig k p s).dpLine = s.dpLine := rfl
@[simp] theorem setTrig_eths {k : Nat} {p : TrigPin} : (setTrig k p s).eths = s.eths := rfl
@[simp] theorem setTrig_etm {k : Nat} {p : TrigPin} : (setTrig k p s).etm = s.etm := rfl
@[simp] theorem setTrig_hostIf {k : Nat} {p : TrigPin} : (setTrig k p s).hostIf = s.hostIf := rfl
@[simp] theorem setTrig_efuses {k : Nat} {p : TrigPin} : (setTrig k p s).efuses = s.efuses := rfl
@[simp] theorem setTrig_nurse {k : Nat} {p : TrigPin} : (setTrig k p s).nurse = s.nurse := rfl
@[simp] theorem setTrig_tests {k : Nat} {p : TrigPin} : (setTrig k p s).tests = s.tests := rfl
@[simp] theorem setTrig_img {k : Nat} {p : TrigPin} : (setTrig k p s).img = s.img := rfl
@[simp] theorem setTrig_nor {k : Nat} {p : TrigPin} : (setTrig k p s).nor = s.nor := rfl
@[simp] theorem setTrig_supplyHold {k : Nat} {p : TrigPin} : (setTrig k p s).supplyHold = s.supplyHold := rfl
@[simp] theorem setTrig_pending {k : Nat} {p : TrigPin} : (setTrig k p s).pending = s.pending := rfl

/-! `setTcp` changes `tcp`. -/
@[simp] theorem setTcp_variant {t : Nat} {p : TcPort} : (setTcp t p s).variant = s.variant := rfl
@[simp] theorem setTcp_stepB0 {t : Nat} {p : TcPort} : (setTcp t p s).stepB0 = s.stepB0 := rfl
@[simp] theorem setTcp_now {t : Nat} {p : TcPort} : (setTcp t p s).now = s.now := rfl
@[simp] theorem setTcp_free {t : Nat} {p : TcPort} : (setTcp t p s).free = s.free := rfl
@[simp] theorem setTcp_regs {t : Nat} {p : TcPort} : (setTcp t p s).regs = s.regs := rfl
@[simp] theorem setTcp_ctrs {t : Nat} {p : TcPort} : (setTcp t p s).ctrs = s.ctrs := rfl
@[simp] theorem setTcp_ctrRc {t : Nat} {p : TcPort} : (setTcp t p s).ctrRc = s.ctrRc := rfl
@[simp] theorem setTcp_srcs {t : Nat} {p : TcPort} : (setTcp t p s).srcs = s.srcs := rfl
@[simp] theorem setTcp_lastRead {t : Nat} {p : TcPort} : (setTcp t p s).lastRead = s.lastRead := rfl
@[simp] theorem setTcp_ports {t : Nat} {p : TcPort} : (setTcp t p s).ports = s.ports := rfl
@[simp] theorem setTcp_tolger {t : Nat} {p : TcPort} : (setTcp t p s).tolger = s.tolger := rfl
@[simp] theorem setTcp_domains {t : Nat} {p : TcPort} : (setTcp t p s).domains = s.domains := rfl
@[simp] theorem setTcp_topo {t : Nat} {p : TcPort} : (setTcp t p s).topo = s.topo := rfl
@[simp] theorem setTcp_comb {t : Nat} {p : TcPort} : (setTcp t p s).comb = s.comb := rfl
@[simp] theorem setTcp_sched {t : Nat} {p : TcPort} : (setTcp t p s).sched = s.sched := rfl
@[simp] theorem setTcp_tuns {t : Nat} {p : TcPort} : (setTcp t p s).tuns = s.tuns := rfl
@[simp] theorem setTcp_brg {t : Nat} {p : TcPort} : (setTcp t p s).brg = s.brg := rfl
@[simp] theorem setTcp_cmd {t : Nat} {p : TcPort} : (setTcp t p s).cmd = s.cmd := rfl
@[simp] theorem setTcp_deep {t : Nat} {p : TcPort} : (setTcp t p s).deep = s.deep := rfl
@[simp] theorem setTcp_lt {t : Nat} {p : TcPort} : (setTcp t p s).lt = s.lt := rfl
@[simp] theorem setTcp_diag {t : Nat} {p : TcPort} : (setTcp t p s).diag = s.diag := rfl
@[simp] theorem setTcp_time {t : Nat} {p : TcPort} : (setTcp t p s).time = s.time := rfl
@[simp] theorem setTcp_otp {t : Nat} {p : TcPort} : (setTcp t p s).otp = s.otp := rfl
@[simp] theorem setTcp_trig {t : Nat} {p : TcPort} : (setTcp t p s).trig = s.trig := rfl
@[simp] theorem setTcp_trims {t : Nat} {p : TcPort} : (setTcp t p s).trims = s.trims := rfl
@[simp] theorem setTcp_svcSink {t : Nat} {p : TcPort} : (setTcp t p s).svcSink = s.svcSink := rfl
@[simp] theorem setTcp_pdTables {t : Nat} {p : TcPort} : (setTcp t p s).pdTables = s.pdTables := rfl
@[simp] theorem setTcp_proxies {t : Nat} {p : TcPort} : (setTcp t p s).proxies = s.proxies := rfl
@[simp] theorem setTcp_svcDev {t : Nat} {p : TcPort} : (setTcp t p s).svcDev = s.svcDev := rfl
@[simp] theorem setTcp_heads {t : Nat} {p : TcPort} : (setTcp t p s).heads = s.heads := rfl
@[simp] theorem setTcp_timings {t : Nat} {p : TcPort} : (setTcp t p s).timings = s.timings := rfl
@[simp] theorem setTcp_tols {t : Nat} {p : TcPort} : (setTcp t p s).tols = s.tols := rfl
@[simp] theorem setTcp_dpLine {t : Nat} {p : TcPort} : (setTcp t p s).dpLine = s.dpLine := rfl
@[simp] theorem setTcp_eths {t : Nat} {p : TcPort} : (setTcp t p s).eths = s.eths := rfl
@[simp] theorem setTcp_etm {t : Nat} {p : TcPort} : (setTcp t p s).etm = s.etm := rfl
@[simp] theorem setTcp_hostIf {t : Nat} {p : TcPort} : (setTcp t p s).hostIf = s.hostIf := rfl
@[simp] theorem setTcp_efuses {t : Nat} {p : TcPort} : (setTcp t p s).efuses = s.efuses := rfl
@[simp] theorem setTcp_nurse {t : Nat} {p : TcPort} : (setTcp t p s).nurse = s.nurse := rfl
@[simp] theorem setTcp_tests {t : Nat} {p : TcPort} : (setTcp t p s).tests = s.tests := rfl
@[simp] theorem setTcp_img {t : Nat} {p : TcPort} : (setTcp t p s).img = s.img := rfl
@[simp] theorem setTcp_nor {t : Nat} {p : TcPort} : (setTcp t p s).nor = s.nor := rfl
@[simp] theorem setTcp_supplyHold {t : Nat} {p : TcPort} : (setTcp t p s).supplyHold = s.supplyHold := rfl
@[simp] theorem setTcp_pending {t : Nat} {p : TcPort} : (setTcp t p s).pending = s.pending := rfl

/-! `updTcp` changes `tcp`. -/
@[simp] theorem updTcp_variant {t : Nat} {f : TcPort → TcPort} : (updTcp t f s).variant = s.variant := rfl
@[simp] theorem updTcp_stepB0 {t : Nat} {f : TcPort → TcPort} : (updTcp t f s).stepB0 = s.stepB0 := rfl
@[simp] theorem updTcp_now {t : Nat} {f : TcPort → TcPort} : (updTcp t f s).now = s.now := rfl
@[simp] theorem updTcp_free {t : Nat} {f : TcPort → TcPort} : (updTcp t f s).free = s.free := rfl
@[simp] theorem updTcp_regs {t : Nat} {f : TcPort → TcPort} : (updTcp t f s).regs = s.regs := rfl
@[simp] theorem updTcp_ctrs {t : Nat} {f : TcPort → TcPort} : (updTcp t f s).ctrs = s.ctrs := rfl
@[simp] theorem updTcp_ctrRc {t : Nat} {f : TcPort → TcPort} : (updTcp t f s).ctrRc = s.ctrRc := rfl
@[simp] theorem updTcp_srcs {t : Nat} {f : TcPort → TcPort} : (updTcp t f s).srcs = s.srcs := rfl
@[simp] theorem updTcp_lastRead {t : Nat} {f : TcPort → TcPort} : (updTcp t f s).lastRead = s.lastRead := rfl
@[simp] theorem updTcp_ports {t : Nat} {f : TcPort → TcPort} : (updTcp t f s).ports = s.ports := rfl
@[simp] theorem updTcp_tolger {t : Nat} {f : TcPort → TcPort} : (updTcp t f s).tolger = s.tolger := rfl
@[simp] theorem updTcp_domains {t : Nat} {f : TcPort → TcPort} : (updTcp t f s).domains = s.domains := rfl
@[simp] theorem updTcp_topo {t : Nat} {f : TcPort → TcPort} : (updTcp t f s).topo = s.topo := rfl
@[simp] theorem updTcp_comb {t : Nat} {f : TcPort → TcPort} : (updTcp t f s).comb = s.comb := rfl
@[simp] theorem updTcp_sched {t : Nat} {f : TcPort → TcPort} : (updTcp t f s).sched = s.sched := rfl
@[simp] theorem updTcp_tuns {t : Nat} {f : TcPort → TcPort} : (updTcp t f s).tuns = s.tuns := rfl
@[simp] theorem updTcp_brg {t : Nat} {f : TcPort → TcPort} : (updTcp t f s).brg = s.brg := rfl
@[simp] theorem updTcp_cmd {t : Nat} {f : TcPort → TcPort} : (updTcp t f s).cmd = s.cmd := rfl
@[simp] theorem updTcp_deep {t : Nat} {f : TcPort → TcPort} : (updTcp t f s).deep = s.deep := rfl
@[simp] theorem updTcp_lt {t : Nat} {f : TcPort → TcPort} : (updTcp t f s).lt = s.lt := rfl
@[simp] theorem updTcp_diag {t : Nat} {f : TcPort → TcPort} : (updTcp t f s).diag = s.diag := rfl
@[simp] theorem updTcp_time {t : Nat} {f : TcPort → TcPort} : (updTcp t f s).time = s.time := rfl
@[simp] theorem updTcp_otp {t : Nat} {f : TcPort → TcPort} : (updTcp t f s).otp = s.otp := rfl
@[simp] theorem updTcp_trig {t : Nat} {f : TcPort → TcPort} : (updTcp t f s).trig = s.trig := rfl
@[simp] theorem updTcp_trims {t : Nat} {f : TcPort → TcPort} : (updTcp t f s).trims = s.trims := rfl
@[simp] theorem updTcp_svcSink {t : Nat} {f : TcPort → TcPort} : (updTcp t f s).svcSink = s.svcSink := rfl
@[simp] theorem updTcp_pdTables {t : Nat} {f : TcPort → TcPort} : (updTcp t f s).pdTables = s.pdTables := rfl
@[simp] theorem updTcp_proxies {t : Nat} {f : TcPort → TcPort} : (updTcp t f s).proxies = s.proxies := rfl
@[simp] theorem updTcp_svcDev {t : Nat} {f : TcPort → TcPort} : (updTcp t f s).svcDev = s.svcDev := rfl
@[simp] theorem updTcp_heads {t : Nat} {f : TcPort → TcPort} : (updTcp t f s).heads = s.heads := rfl
@[simp] theorem updTcp_timings {t : Nat} {f : TcPort → TcPort} : (updTcp t f s).timings = s.timings := rfl
@[simp] theorem updTcp_tols {t : Nat} {f : TcPort → TcPort} : (updTcp t f s).tols = s.tols := rfl
@[simp] theorem updTcp_dpLine {t : Nat} {f : TcPort → TcPort} : (updTcp t f s).dpLine = s.dpLine := rfl
@[simp] theorem updTcp_eths {t : Nat} {f : TcPort → TcPort} : (updTcp t f s).eths = s.eths := rfl
@[simp] theorem updTcp_etm {t : Nat} {f : TcPort → TcPort} : (updTcp t f s).etm = s.etm := rfl
@[simp] theorem updTcp_hostIf {t : Nat} {f : TcPort → TcPort} : (updTcp t f s).hostIf = s.hostIf := rfl
@[simp] theorem updTcp_efuses {t : Nat} {f : TcPort → TcPort} : (updTcp t f s).efuses = s.efuses := rfl
@[simp] theorem updTcp_nurse {t : Nat} {f : TcPort → TcPort} : (updTcp t f s).nurse = s.nurse := rfl
@[simp] theorem updTcp_tests {t : Nat} {f : TcPort → TcPort} : (updTcp t f s).tests = s.tests := rfl
@[simp] theorem updTcp_img {t : Nat} {f : TcPort → TcPort} : (updTcp t f s).img = s.img := rfl
@[simp] theorem updTcp_nor {t : Nat} {f : TcPort → TcPort} : (updTcp t f s).nor = s.nor := rfl
@[simp] theorem updTcp_supplyHold {t : Nat} {f : TcPort → TcPort} : (updTcp t f s).supplyHold = s.supplyHold := rfl
@[simp] theorem updTcp_pending {t : Nat} {f : TcPort → TcPort} : (updTcp t f s).pending = s.pending := rfl

/-! `updSvc` changes `svcSink`. -/
@[simp] theorem updSvc_variant {f : SvcSink → SvcSink} : (updSvc f s).variant = s.variant := rfl
@[simp] theorem updSvc_stepB0 {f : SvcSink → SvcSink} : (updSvc f s).stepB0 = s.stepB0 := rfl
@[simp] theorem updSvc_now {f : SvcSink → SvcSink} : (updSvc f s).now = s.now := rfl
@[simp] theorem updSvc_free {f : SvcSink → SvcSink} : (updSvc f s).free = s.free := rfl
@[simp] theorem updSvc_regs {f : SvcSink → SvcSink} : (updSvc f s).regs = s.regs := rfl
@[simp] theorem updSvc_ctrs {f : SvcSink → SvcSink} : (updSvc f s).ctrs = s.ctrs := rfl
@[simp] theorem updSvc_ctrRc {f : SvcSink → SvcSink} : (updSvc f s).ctrRc = s.ctrRc := rfl
@[simp] theorem updSvc_srcs {f : SvcSink → SvcSink} : (updSvc f s).srcs = s.srcs := rfl
@[simp] theorem updSvc_lastRead {f : SvcSink → SvcSink} : (updSvc f s).lastRead = s.lastRead := rfl
@[simp] theorem updSvc_ports {f : SvcSink → SvcSink} : (updSvc f s).ports = s.ports := rfl
@[simp] theorem updSvc_tolger {f : SvcSink → SvcSink} : (updSvc f s).tolger = s.tolger := rfl
@[simp] theorem updSvc_domains {f : SvcSink → SvcSink} : (updSvc f s).domains = s.domains := rfl
@[simp] theorem updSvc_topo {f : SvcSink → SvcSink} : (updSvc f s).topo = s.topo := rfl
@[simp] theorem updSvc_comb {f : SvcSink → SvcSink} : (updSvc f s).comb = s.comb := rfl
@[simp] theorem updSvc_sched {f : SvcSink → SvcSink} : (updSvc f s).sched = s.sched := rfl
@[simp] theorem updSvc_tuns {f : SvcSink → SvcSink} : (updSvc f s).tuns = s.tuns := rfl
@[simp] theorem updSvc_brg {f : SvcSink → SvcSink} : (updSvc f s).brg = s.brg := rfl
@[simp] theorem updSvc_cmd {f : SvcSink → SvcSink} : (updSvc f s).cmd = s.cmd := rfl
@[simp] theorem updSvc_deep {f : SvcSink → SvcSink} : (updSvc f s).deep = s.deep := rfl
@[simp] theorem updSvc_lt {f : SvcSink → SvcSink} : (updSvc f s).lt = s.lt := rfl
@[simp] theorem updSvc_diag {f : SvcSink → SvcSink} : (updSvc f s).diag = s.diag := rfl
@[simp] theorem updSvc_time {f : SvcSink → SvcSink} : (updSvc f s).time = s.time := rfl
@[simp] theorem updSvc_otp {f : SvcSink → SvcSink} : (updSvc f s).otp = s.otp := rfl
@[simp] theorem updSvc_trig {f : SvcSink → SvcSink} : (updSvc f s).trig = s.trig := rfl
@[simp] theorem updSvc_trims {f : SvcSink → SvcSink} : (updSvc f s).trims = s.trims := rfl
@[simp] theorem updSvc_tcp {f : SvcSink → SvcSink} : (updSvc f s).tcp = s.tcp := rfl
@[simp] theorem updSvc_pdTables {f : SvcSink → SvcSink} : (updSvc f s).pdTables = s.pdTables := rfl
@[simp] theorem updSvc_proxies {f : SvcSink → SvcSink} : (updSvc f s).proxies = s.proxies := rfl
@[simp] theorem updSvc_svcDev {f : SvcSink → SvcSink} : (updSvc f s).svcDev = s.svcDev := rfl
@[simp] theorem updSvc_heads {f : SvcSink → SvcSink} : (updSvc f s).heads = s.heads := rfl
@[simp] theorem updSvc_timings {f : SvcSink → SvcSink} : (updSvc f s).timings = s.timings := rfl
@[simp] theorem updSvc_tols {f : SvcSink → SvcSink} : (updSvc f s).tols = s.tols := rfl
@[simp] theorem updSvc_dpLine {f : SvcSink → SvcSink} : (updSvc f s).dpLine = s.dpLine := rfl
@[simp] theorem updSvc_eths {f : SvcSink → SvcSink} : (updSvc f s).eths = s.eths := rfl
@[simp] theorem updSvc_etm {f : SvcSink → SvcSink} : (updSvc f s).etm = s.etm := rfl
@[simp] theorem updSvc_hostIf {f : SvcSink → SvcSink} : (updSvc f s).hostIf = s.hostIf := rfl
@[simp] theorem updSvc_efuses {f : SvcSink → SvcSink} : (updSvc f s).efuses = s.efuses := rfl
@[simp] theorem updSvc_nurse {f : SvcSink → SvcSink} : (updSvc f s).nurse = s.nurse := rfl
@[simp] theorem updSvc_tests {f : SvcSink → SvcSink} : (updSvc f s).tests = s.tests := rfl
@[simp] theorem updSvc_img {f : SvcSink → SvcSink} : (updSvc f s).img = s.img := rfl
@[simp] theorem updSvc_nor {f : SvcSink → SvcSink} : (updSvc f s).nor = s.nor := rfl
@[simp] theorem updSvc_supplyHold {f : SvcSink → SvcSink} : (updSvc f s).supplyHold = s.supplyHold := rfl
@[simp] theorem updSvc_pending {f : SvcSink → SvcSink} : (updSvc f s).pending = s.pending := rfl

/-! `setProxy` changes `proxies`. -/
@[simp] theorem setProxy_variant {d : Nat} {p : Proxy} : (setProxy d p s).variant = s.variant := rfl
@[simp] theorem setProxy_stepB0 {d : Nat} {p : Proxy} : (setProxy d p s).stepB0 = s.stepB0 := rfl
@[simp] theorem setProxy_now {d : Nat} {p : Proxy} : (setProxy d p s).now = s.now := rfl
@[simp] theorem setProxy_free {d : Nat} {p : Proxy} : (setProxy d p s).free = s.free := rfl
@[simp] theorem setProxy_regs {d : Nat} {p : Proxy} : (setProxy d p s).regs = s.regs := rfl
@[simp] theorem setProxy_ctrs {d : Nat} {p : Proxy} : (setProxy d p s).ctrs = s.ctrs := rfl
@[simp] theorem setProxy_ctrRc {d : Nat} {p : Proxy} : (setProxy d p s).ctrRc = s.ctrRc := rfl
@[simp] theorem setProxy_srcs {d : Nat} {p : Proxy} : (setProxy d p s).srcs = s.srcs := rfl
@[simp] theorem setProxy_lastRead {d : Nat} {p : Proxy} : (setProxy d p s).lastRead = s.lastRead := rfl
@[simp] theorem setProxy_ports {d : Nat} {p : Proxy} : (setProxy d p s).ports = s.ports := rfl
@[simp] theorem setProxy_tolger {d : Nat} {p : Proxy} : (setProxy d p s).tolger = s.tolger := rfl
@[simp] theorem setProxy_domains {d : Nat} {p : Proxy} : (setProxy d p s).domains = s.domains := rfl
@[simp] theorem setProxy_topo {d : Nat} {p : Proxy} : (setProxy d p s).topo = s.topo := rfl
@[simp] theorem setProxy_comb {d : Nat} {p : Proxy} : (setProxy d p s).comb = s.comb := rfl
@[simp] theorem setProxy_sched {d : Nat} {p : Proxy} : (setProxy d p s).sched = s.sched := rfl
@[simp] theorem setProxy_tuns {d : Nat} {p : Proxy} : (setProxy d p s).tuns = s.tuns := rfl
@[simp] theorem setProxy_brg {d : Nat} {p : Proxy} : (setProxy d p s).brg = s.brg := rfl
@[simp] theorem setProxy_cmd {d : Nat} {p : Proxy} : (setProxy d p s).cmd = s.cmd := rfl
@[simp] theorem setProxy_deep {d : Nat} {p : Proxy} : (setProxy d p s).deep = s.deep := rfl
@[simp] theorem setProxy_lt {d : Nat} {p : Proxy} : (setProxy d p s).lt = s.lt := rfl
@[simp] theorem setProxy_diag {d : Nat} {p : Proxy} : (setProxy d p s).diag = s.diag := rfl
@[simp] theorem setProxy_time {d : Nat} {p : Proxy} : (setProxy d p s).time = s.time := rfl
@[simp] theorem setProxy_otp {d : Nat} {p : Proxy} : (setProxy d p s).otp = s.otp := rfl
@[simp] theorem setProxy_trig {d : Nat} {p : Proxy} : (setProxy d p s).trig = s.trig := rfl
@[simp] theorem setProxy_trims {d : Nat} {p : Proxy} : (setProxy d p s).trims = s.trims := rfl
@[simp] theorem setProxy_tcp {d : Nat} {p : Proxy} : (setProxy d p s).tcp = s.tcp := rfl
@[simp] theorem setProxy_svcSink {d : Nat} {p : Proxy} : (setProxy d p s).svcSink = s.svcSink := rfl
@[simp] theorem setProxy_pdTables {d : Nat} {p : Proxy} : (setProxy d p s).pdTables = s.pdTables := rfl
@[simp] theorem setProxy_svcDev {d : Nat} {p : Proxy} : (setProxy d p s).svcDev = s.svcDev := rfl
@[simp] theorem setProxy_heads {d : Nat} {p : Proxy} : (setProxy d p s).heads = s.heads := rfl
@[simp] theorem setProxy_timings {d : Nat} {p : Proxy} : (setProxy d p s).timings = s.timings := rfl
@[simp] theorem setProxy_tols {d : Nat} {p : Proxy} : (setProxy d p s).tols = s.tols := rfl
@[simp] theorem setProxy_dpLine {d : Nat} {p : Proxy} : (setProxy d p s).dpLine = s.dpLine := rfl
@[simp] theorem setProxy_eths {d : Nat} {p : Proxy} : (setProxy d p s).eths = s.eths := rfl
@[simp] theorem setProxy_etm {d : Nat} {p : Proxy} : (setProxy d p s).etm = s.etm := rfl
@[simp] theorem setProxy_hostIf {d : Nat} {p : Proxy} : (setProxy d p s).hostIf = s.hostIf := rfl
@[simp] theorem setProxy_efuses {d : Nat} {p : Proxy} : (setProxy d p s).efuses = s.efuses := rfl
@[simp] theorem setProxy_nurse {d : Nat} {p : Proxy} : (setProxy d p s).nurse = s.nurse := rfl
@[simp] theorem setProxy_tests {d : Nat} {p : Proxy} : (setProxy d p s).tests = s.tests := rfl
@[simp] theorem setProxy_img {d : Nat} {p : Proxy} : (setProxy d p s).img = s.img := rfl
@[simp] theorem setProxy_nor {d : Nat} {p : Proxy} : (setProxy d p s).nor = s.nor := rfl
@[simp] theorem setProxy_supplyHold {d : Nat} {p : Proxy} : (setProxy d p s).supplyHold = s.supplyHold := rfl
@[simp] theorem setProxy_pending {d : Nat} {p : Proxy} : (setProxy d p s).pending = s.pending := rfl

/-! `updProxy` changes `proxies`. -/
@[simp] theorem updProxy_variant {d : Nat} {f : Proxy → Proxy} : (updProxy d f s).variant = s.variant := rfl
@[simp] theorem updProxy_stepB0 {d : Nat} {f : Proxy → Proxy} : (updProxy d f s).stepB0 = s.stepB0 := rfl
@[simp] theorem updProxy_now {d : Nat} {f : Proxy → Proxy} : (updProxy d f s).now = s.now := rfl
@[simp] theorem updProxy_free {d : Nat} {f : Proxy → Proxy} : (updProxy d f s).free = s.free := rfl
@[simp] theorem updProxy_regs {d : Nat} {f : Proxy → Proxy} : (updProxy d f s).regs = s.regs := rfl
@[simp] theorem updProxy_ctrs {d : Nat} {f : Proxy → Proxy} : (updProxy d f s).ctrs = s.ctrs := rfl
@[simp] theorem updProxy_ctrRc {d : Nat} {f : Proxy → Proxy} : (updProxy d f s).ctrRc = s.ctrRc := rfl
@[simp] theorem updProxy_srcs {d : Nat} {f : Proxy → Proxy} : (updProxy d f s).srcs = s.srcs := rfl
@[simp] theorem updProxy_lastRead {d : Nat} {f : Proxy → Proxy} : (updProxy d f s).lastRead = s.lastRead := rfl
@[simp] theorem updProxy_ports {d : Nat} {f : Proxy → Proxy} : (updProxy d f s).ports = s.ports := rfl
@[simp] theorem updProxy_tolger {d : Nat} {f : Proxy → Proxy} : (updProxy d f s).tolger = s.tolger := rfl
@[simp] theorem updProxy_domains {d : Nat} {f : Proxy → Proxy} : (updProxy d f s).domains = s.domains := rfl
@[simp] theorem updProxy_topo {d : Nat} {f : Proxy → Proxy} : (updProxy d f s).topo = s.topo := rfl
@[simp] theorem updProxy_comb {d : Nat} {f : Proxy → Proxy} : (updProxy d f s).comb = s.comb := rfl
@[simp] theorem updProxy_sched {d : Nat} {f : Proxy → Proxy} : (updProxy d f s).sched = s.sched := rfl
@[simp] theorem updProxy_tuns {d : Nat} {f : Proxy → Proxy} : (updProxy d f s).tuns = s.tuns := rfl
@[simp] theorem updProxy_brg {d : Nat} {f : Proxy → Proxy} : (updProxy d f s).brg = s.brg := rfl
@[simp] theorem updProxy_cmd {d : Nat} {f : Proxy → Proxy} : (updProxy d f s).cmd = s.cmd := rfl
@[simp] theorem updProxy_deep {d : Nat} {f : Proxy → Proxy} : (updProxy d f s).deep = s.deep := rfl
@[simp] theorem updProxy_lt {d : Nat} {f : Proxy → Proxy} : (updProxy d f s).lt = s.lt := rfl
@[simp] theorem updProxy_diag {d : Nat} {f : Proxy → Proxy} : (updProxy d f s).diag = s.diag := rfl
@[simp] theorem updProxy_time {d : Nat} {f : Proxy → Proxy} : (updProxy d f s).time = s.time := rfl
@[simp] theorem updProxy_otp {d : Nat} {f : Proxy → Proxy} : (updProxy d f s).otp = s.otp := rfl
@[simp] theorem updProxy_trig {d : Nat} {f : Proxy → Proxy} : (updProxy d f s).trig = s.trig := rfl
@[simp] theorem updProxy_trims {d : Nat} {f : Proxy → Proxy} : (updProxy d f s).trims = s.trims := rfl
@[simp] theorem updProxy_tcp {d : Nat} {f : Proxy → Proxy} : (updProxy d f s).tcp = s.tcp := rfl
@[simp] theorem updProxy_svcSink {d : Nat} {f : Proxy → Proxy} : (updProxy d f s).svcSink = s.svcSink := rfl
@[simp] theorem updProxy_pdTables {d : Nat} {f : Proxy → Proxy} : (updProxy d f s).pdTables = s.pdTables := rfl
@[simp] theorem updProxy_svcDev {d : Nat} {f : Proxy → Proxy} : (updProxy d f s).svcDev = s.svcDev := rfl
@[simp] theorem updProxy_heads {d : Nat} {f : Proxy → Proxy} : (updProxy d f s).heads = s.heads := rfl
@[simp] theorem updProxy_timings {d : Nat} {f : Proxy → Proxy} : (updProxy d f s).timings = s.timings := rfl
@[simp] theorem updProxy_tols {d : Nat} {f : Proxy → Proxy} : (updProxy d f s).tols = s.tols := rfl
@[simp] theorem updProxy_dpLine {d : Nat} {f : Proxy → Proxy} : (updProxy d f s).dpLine = s.dpLine := rfl
@[simp] theorem updProxy_eths {d : Nat} {f : Proxy → Proxy} : (updProxy d f s).eths = s.eths := rfl
@[simp] theorem updProxy_etm {d : Nat} {f : Proxy → Proxy} : (updProxy d f s).etm = s.etm := rfl
@[simp] theorem updProxy_hostIf {d : Nat} {f : Proxy → Proxy} : (updProxy d f s).hostIf = s.hostIf := rfl
@[simp] theorem updProxy_efuses {d : Nat} {f : Proxy → Proxy} : (updProxy d f s).efuses = s.efuses := rfl
@[simp] theorem updProxy_nurse {d : Nat} {f : Proxy → Proxy} : (updProxy d f s).nurse = s.nurse := rfl
@[simp] theorem updProxy_tests {d : Nat} {f : Proxy → Proxy} : (updProxy d f s).tests = s.tests := rfl
@[simp] theorem updProxy_img {d : Nat} {f : Proxy → Proxy} : (updProxy d f s).img = s.img := rfl
@[simp] theorem updProxy_nor {d : Nat} {f : Proxy → Proxy} : (updProxy d f s).nor = s.nor := rfl
@[simp] theorem updProxy_supplyHold {d : Nat} {f : Proxy → Proxy} : (updProxy d f s).supplyHold = s.supplyHold := rfl
@[simp] theorem updProxy_pending {d : Nat} {f : Proxy → Proxy} : (updProxy d f s).pending = s.pending := rfl

/-! `updDev` changes `svcDev`. -/
@[simp] theorem updDev_variant {f : SvcDev → SvcDev} : (updDev f s).variant = s.variant := rfl
@[simp] theorem updDev_stepB0 {f : SvcDev → SvcDev} : (updDev f s).stepB0 = s.stepB0 := rfl
@[simp] theorem updDev_now {f : SvcDev → SvcDev} : (updDev f s).now = s.now := rfl
@[simp] theorem updDev_free {f : SvcDev → SvcDev} : (updDev f s).free = s.free := rfl
@[simp] theorem updDev_regs {f : SvcDev → SvcDev} : (updDev f s).regs = s.regs := rfl
@[simp] theorem updDev_ctrs {f : SvcDev → SvcDev} : (updDev f s).ctrs = s.ctrs := rfl
@[simp] theorem updDev_ctrRc {f : SvcDev → SvcDev} : (updDev f s).ctrRc = s.ctrRc := rfl
@[simp] theorem updDev_srcs {f : SvcDev → SvcDev} : (updDev f s).srcs = s.srcs := rfl
@[simp] theorem updDev_lastRead {f : SvcDev → SvcDev} : (updDev f s).lastRead = s.lastRead := rfl
@[simp] theorem updDev_ports {f : SvcDev → SvcDev} : (updDev f s).ports = s.ports := rfl
@[simp] theorem updDev_tolger {f : SvcDev → SvcDev} : (updDev f s).tolger = s.tolger := rfl
@[simp] theorem updDev_domains {f : SvcDev → SvcDev} : (updDev f s).domains = s.domains := rfl
@[simp] theorem updDev_topo {f : SvcDev → SvcDev} : (updDev f s).topo = s.topo := rfl
@[simp] theorem updDev_comb {f : SvcDev → SvcDev} : (updDev f s).comb = s.comb := rfl
@[simp] theorem updDev_sched {f : SvcDev → SvcDev} : (updDev f s).sched = s.sched := rfl
@[simp] theorem updDev_tuns {f : SvcDev → SvcDev} : (updDev f s).tuns = s.tuns := rfl
@[simp] theorem updDev_brg {f : SvcDev → SvcDev} : (updDev f s).brg = s.brg := rfl
@[simp] theorem updDev_cmd {f : SvcDev → SvcDev} : (updDev f s).cmd = s.cmd := rfl
@[simp] theorem updDev_deep {f : SvcDev → SvcDev} : (updDev f s).deep = s.deep := rfl
@[simp] theorem updDev_lt {f : SvcDev → SvcDev} : (updDev f s).lt = s.lt := rfl
@[simp] theorem updDev_diag {f : SvcDev → SvcDev} : (updDev f s).diag = s.diag := rfl
@[simp] theorem updDev_time {f : SvcDev → SvcDev} : (updDev f s).time = s.time := rfl
@[simp] theorem updDev_otp {f : SvcDev → SvcDev} : (updDev f s).otp = s.otp := rfl
@[simp] theorem updDev_trig {f : SvcDev → SvcDev} : (updDev f s).trig = s.trig := rfl
@[simp] theorem updDev_trims {f : SvcDev → SvcDev} : (updDev f s).trims = s.trims := rfl
@[simp] theorem updDev_tcp {f : SvcDev → SvcDev} : (updDev f s).tcp = s.tcp := rfl
@[simp] theorem updDev_svcSink {f : SvcDev → SvcDev} : (updDev f s).svcSink = s.svcSink := rfl
@[simp] theorem updDev_pdTables {f : SvcDev → SvcDev} : (updDev f s).pdTables = s.pdTables := rfl
@[simp] theorem updDev_proxies {f : SvcDev → SvcDev} : (updDev f s).proxies = s.proxies := rfl
@[simp] theorem updDev_heads {f : SvcDev → SvcDev} : (updDev f s).heads = s.heads := rfl
@[simp] theorem updDev_timings {f : SvcDev → SvcDev} : (updDev f s).timings = s.timings := rfl
@[simp] theorem updDev_tols {f : SvcDev → SvcDev} : (updDev f s).tols = s.tols := rfl
@[simp] theorem updDev_dpLine {f : SvcDev → SvcDev} : (updDev f s).dpLine = s.dpLine := rfl
@[simp] theorem updDev_eths {f : SvcDev → SvcDev} : (updDev f s).eths = s.eths := rfl
@[simp] theorem updDev_etm {f : SvcDev → SvcDev} : (updDev f s).etm = s.etm := rfl
@[simp] theorem updDev_hostIf {f : SvcDev → SvcDev} : (updDev f s).hostIf = s.hostIf := rfl
@[simp] theorem updDev_efuses {f : SvcDev → SvcDev} : (updDev f s).efuses = s.efuses := rfl
@[simp] theorem updDev_nurse {f : SvcDev → SvcDev} : (updDev f s).nurse = s.nurse := rfl
@[simp] theorem updDev_tests {f : SvcDev → SvcDev} : (updDev f s).tests = s.tests := rfl
@[simp] theorem updDev_img {f : SvcDev → SvcDev} : (updDev f s).img = s.img := rfl
@[simp] theorem updDev_nor {f : SvcDev → SvcDev} : (updDev f s).nor = s.nor := rfl
@[simp] theorem updDev_supplyHold {f : SvcDev → SvcDev} : (updDev f s).supplyHold = s.supplyHold := rfl
@[simp] theorem updDev_pending {f : SvcDev → SvcDev} : (updDev f s).pending = s.pending := rfl

/-! `setHead` changes `heads`. -/
@[simp] theorem setHead_variant {h : Nat} {x : Head} : (setHead h x s).variant = s.variant := rfl
@[simp] theorem setHead_stepB0 {h : Nat} {x : Head} : (setHead h x s).stepB0 = s.stepB0 := rfl
@[simp] theorem setHead_now {h : Nat} {x : Head} : (setHead h x s).now = s.now := rfl
@[simp] theorem setHead_free {h : Nat} {x : Head} : (setHead h x s).free = s.free := rfl
@[simp] theorem setHead_regs {h : Nat} {x : Head} : (setHead h x s).regs = s.regs := rfl
@[simp] theorem setHead_ctrs {h : Nat} {x : Head} : (setHead h x s).ctrs = s.ctrs := rfl
@[simp] theorem setHead_ctrRc {h : Nat} {x : Head} : (setHead h x s).ctrRc = s.ctrRc := rfl
@[simp] theorem setHead_srcs {h : Nat} {x : Head} : (setHead h x s).srcs = s.srcs := rfl
@[simp] theorem setHead_lastRead {h : Nat} {x : Head} : (setHead h x s).lastRead = s.lastRead := rfl
@[simp] theorem setHead_ports {h : Nat} {x : Head} : (setHead h x s).ports = s.ports := rfl
@[simp] theorem setHead_tolger {h : Nat} {x : Head} : (setHead h x s).tolger = s.tolger := rfl
@[simp] theorem setHead_domains {h : Nat} {x : Head} : (setHead h x s).domains = s.domains := rfl
@[simp] theorem setHead_topo {h : Nat} {x : Head} : (setHead h x s).topo = s.topo := rfl
@[simp] theorem setHead_comb {h : Nat} {x : Head} : (setHead h x s).comb = s.comb := rfl
@[simp] theorem setHead_sched {h : Nat} {x : Head} : (setHead h x s).sched = s.sched := rfl
@[simp] theorem setHead_tuns {h : Nat} {x : Head} : (setHead h x s).tuns = s.tuns := rfl
@[simp] theorem setHead_brg {h : Nat} {x : Head} : (setHead h x s).brg = s.brg := rfl
@[simp] theorem setHead_cmd {h : Nat} {x : Head} : (setHead h x s).cmd = s.cmd := rfl
@[simp] theorem setHead_deep {h : Nat} {x : Head} : (setHead h x s).deep = s.deep := rfl
@[simp] theorem setHead_lt {h : Nat} {x : Head} : (setHead h x s).lt = s.lt := rfl
@[simp] theorem setHead_diag {h : Nat} {x : Head} : (setHead h x s).diag = s.diag := rfl
@[simp] theorem setHead_time {h : Nat} {x : Head} : (setHead h x s).time = s.time := rfl
@[simp] theorem setHead_otp {h : Nat} {x : Head} : (setHead h x s).otp = s.otp := rfl
@[simp] theorem setHead_trig {h : Nat} {x : Head} : (setHead h x s).trig = s.trig := rfl
@[simp] theorem setHead_trims {h : Nat} {x : Head} : (setHead h x s).trims = s.trims := rfl
@[simp] theorem setHead_tcp {h : Nat} {x : Head} : (setHead h x s).tcp = s.tcp := rfl
@[simp] theorem setHead_svcSink {h : Nat} {x : Head} : (setHead h x s).svcSink = s.svcSink := rfl
@[simp] theorem setHead_pdTables {h : Nat} {x : Head} : (setHead h x s).pdTables = s.pdTables := rfl
@[simp] theorem setHead_proxies {h : Nat} {x : Head} : (setHead h x s).proxies = s.proxies := rfl
@[simp] theorem setHead_svcDev {h : Nat} {x : Head} : (setHead h x s).svcDev = s.svcDev := rfl
@[simp] theorem setHead_timings {h : Nat} {x : Head} : (setHead h x s).timings = s.timings := rfl
@[simp] theorem setHead_tols {h : Nat} {x : Head} : (setHead h x s).tols = s.tols := rfl
@[simp] theorem setHead_dpLine {h : Nat} {x : Head} : (setHead h x s).dpLine = s.dpLine := rfl
@[simp] theorem setHead_eths {h : Nat} {x : Head} : (setHead h x s).eths = s.eths := rfl
@[simp] theorem setHead_etm {h : Nat} {x : Head} : (setHead h x s).etm = s.etm := rfl
@[simp] theorem setHead_hostIf {h : Nat} {x : Head} : (setHead h x s).hostIf = s.hostIf := rfl
@[simp] theorem setHead_efuses {h : Nat} {x : Head} : (setHead h x s).efuses = s.efuses := rfl
@[simp] theorem setHead_nurse {h : Nat} {x : Head} : (setHead h x s).nurse = s.nurse := rfl
@[simp] theorem setHead_tests {h : Nat} {x : Head} : (setHead h x s).tests = s.tests := rfl
@[simp] theorem setHead_img {h : Nat} {x : Head} : (setHead h x s).img = s.img := rfl
@[simp] theorem setHead_nor {h : Nat} {x : Head} : (setHead h x s).nor = s.nor := rfl
@[simp] theorem setHead_supplyHold {h : Nat} {x : Head} : (setHead h x s).supplyHold = s.supplyHold := rfl
@[simp] theorem setHead_pending {h : Nat} {x : Head} : (setHead h x s).pending = s.pending := rfl

/-! `updHead` changes `heads`. -/
@[simp] theorem updHead_variant {h : Nat} {f : Head → Head} : (updHead h f s).variant = s.variant := rfl
@[simp] theorem updHead_stepB0 {h : Nat} {f : Head → Head} : (updHead h f s).stepB0 = s.stepB0 := rfl
@[simp] theorem updHead_now {h : Nat} {f : Head → Head} : (updHead h f s).now = s.now := rfl
@[simp] theorem updHead_free {h : Nat} {f : Head → Head} : (updHead h f s).free = s.free := rfl
@[simp] theorem updHead_regs {h : Nat} {f : Head → Head} : (updHead h f s).regs = s.regs := rfl
@[simp] theorem updHead_ctrs {h : Nat} {f : Head → Head} : (updHead h f s).ctrs = s.ctrs := rfl
@[simp] theorem updHead_ctrRc {h : Nat} {f : Head → Head} : (updHead h f s).ctrRc = s.ctrRc := rfl
@[simp] theorem updHead_srcs {h : Nat} {f : Head → Head} : (updHead h f s).srcs = s.srcs := rfl
@[simp] theorem updHead_lastRead {h : Nat} {f : Head → Head} : (updHead h f s).lastRead = s.lastRead := rfl
@[simp] theorem updHead_ports {h : Nat} {f : Head → Head} : (updHead h f s).ports = s.ports := rfl
@[simp] theorem updHead_tolger {h : Nat} {f : Head → Head} : (updHead h f s).tolger = s.tolger := rfl
@[simp] theorem updHead_domains {h : Nat} {f : Head → Head} : (updHead h f s).domains = s.domains := rfl
@[simp] theorem updHead_topo {h : Nat} {f : Head → Head} : (updHead h f s).topo = s.topo := rfl
@[simp] theorem updHead_comb {h : Nat} {f : Head → Head} : (updHead h f s).comb = s.comb := rfl
@[simp] theorem updHead_sched {h : Nat} {f : Head → Head} : (updHead h f s).sched = s.sched := rfl
@[simp] theorem updHead_tuns {h : Nat} {f : Head → Head} : (updHead h f s).tuns = s.tuns := rfl
@[simp] theorem updHead_brg {h : Nat} {f : Head → Head} : (updHead h f s).brg = s.brg := rfl
@[simp] theorem updHead_cmd {h : Nat} {f : Head → Head} : (updHead h f s).cmd = s.cmd := rfl
@[simp] theorem updHead_deep {h : Nat} {f : Head → Head} : (updHead h f s).deep = s.deep := rfl
@[simp] theorem updHead_lt {h : Nat} {f : Head → Head} : (updHead h f s).lt = s.lt := rfl
@[simp] theorem updHead_diag {h : Nat} {f : Head → Head} : (updHead h f s).diag = s.diag := rfl
@[simp] theorem updHead_time {h : Nat} {f : Head → Head} : (updHead h f s).time = s.time := rfl
@[simp] theorem updHead_otp {h : Nat} {f : Head → Head} : (updHead h f s).otp = s.otp := rfl
@[simp] theorem updHead_trig {h : Nat} {f : Head → Head} : (updHead h f s).trig = s.trig := rfl
@[simp] theorem updHead_trims {h : Nat} {f : Head → Head} : (updHead h f s).trims = s.trims := rfl
@[simp] theorem updHead_tcp {h : Nat} {f : Head → Head} : (updHead h f s).tcp = s.tcp := rfl
@[simp] theorem updHead_svcSink {h : Nat} {f : Head → Head} : (updHead h f s).svcSink = s.svcSink := rfl
@[simp] theorem updHead_pdTables {h : Nat} {f : Head → Head} : (updHead h f s).pdTables = s.pdTables := rfl
@[simp] theorem updHead_proxies {h : Nat} {f : Head → Head} : (updHead h f s).proxies = s.proxies := rfl
@[simp] theorem updHead_svcDev {h : Nat} {f : Head → Head} : (updHead h f s).svcDev = s.svcDev := rfl
@[simp] theorem updHead_timings {h : Nat} {f : Head → Head} : (updHead h f s).timings = s.timings := rfl
@[simp] theorem updHead_tols {h : Nat} {f : Head → Head} : (updHead h f s).tols = s.tols := rfl
@[simp] theorem updHead_dpLine {h : Nat} {f : Head → Head} : (updHead h f s).dpLine = s.dpLine := rfl
@[simp] theorem updHead_eths {h : Nat} {f : Head → Head} : (updHead h f s).eths = s.eths := rfl
@[simp] theorem updHead_etm {h : Nat} {f : Head → Head} : (updHead h f s).etm = s.etm := rfl
@[simp] theorem updHead_hostIf {h : Nat} {f : Head → Head} : (updHead h f s).hostIf = s.hostIf := rfl
@[simp] theorem updHead_efuses {h : Nat} {f : Head → Head} : (updHead h f s).efuses = s.efuses := rfl
@[simp] theorem updHead_nurse {h : Nat} {f : Head → Head} : (updHead h f s).nurse = s.nurse := rfl
@[simp] theorem updHead_tests {h : Nat} {f : Head → Head} : (updHead h f s).tests = s.tests := rfl
@[simp] theorem updHead_img {h : Nat} {f : Head → Head} : (updHead h f s).img = s.img := rfl
@[simp] theorem updHead_nor {h : Nat} {f : Head → Head} : (updHead h f s).nor = s.nor := rfl
@[simp] theorem updHead_supplyHold {h : Nat} {f : Head → Head} : (updHead h f s).supplyHold = s.supplyHold := rfl
@[simp] theorem updHead_pending {h : Nat} {f : Head → Head} : (updHead h f s).pending = s.pending := rfl

/-! `setEth` changes `eths`. -/
@[simp] theorem setEth_variant {e : Nat} {x : EthPort} : (setEth e x s).variant = s.variant := rfl
@[simp] theorem setEth_stepB0 {e : Nat} {x : EthPort} : (setEth e x s).stepB0 = s.stepB0 := rfl
@[simp] theorem setEth_now {e : Nat} {x : EthPort} : (setEth e x s).now = s.now := rfl
@[simp] theorem setEth_free {e : Nat} {x : EthPort} : (setEth e x s).free = s.free := rfl
@[simp] theorem setEth_regs {e : Nat} {x : EthPort} : (setEth e x s).regs = s.regs := rfl
@[simp] theorem setEth_ctrs {e : Nat} {x : EthPort} : (setEth e x s).ctrs = s.ctrs := rfl
@[simp] theorem setEth_ctrRc {e : Nat} {x : EthPort} : (setEth e x s).ctrRc = s.ctrRc := rfl
@[simp] theorem setEth_srcs {e : Nat} {x : EthPort} : (setEth e x s).srcs = s.srcs := rfl
@[simp] theorem setEth_lastRead {e : Nat} {x : EthPort} : (setEth e x s).lastRead = s.lastRead := rfl
@[simp] theorem setEth_ports {e : Nat} {x : EthPort} : (setEth e x s).ports = s.ports := rfl
@[simp] theorem setEth_tolger {e : Nat} {x : EthPort} : (setEth e x s).tolger = s.tolger := rfl
@[simp] theorem setEth_domains {e : Nat} {x : EthPort} : (setEth e x s).domains = s.domains := rfl
@[simp] theorem setEth_topo {e : Nat} {x : EthPort} : (setEth e x s).topo = s.topo := rfl
@[simp] theorem setEth_comb {e : Nat} {x : EthPort} : (setEth e x s).comb = s.comb := rfl
@[simp] theorem setEth_sched {e : Nat} {x : EthPort} : (setEth e x s).sched = s.sched := rfl
@[simp] theorem setEth_tuns {e : Nat} {x : EthPort} : (setEth e x s).tuns = s.tuns := rfl
@[simp] theorem setEth_brg {e : Nat} {x : EthPort} : (setEth e x s).brg = s.brg := rfl
@[simp] theorem setEth_cmd {e : Nat} {x : EthPort} : (setEth e x s).cmd = s.cmd := rfl
@[simp] theorem setEth_deep {e : Nat} {x : EthPort} : (setEth e x s).deep = s.deep := rfl
@[simp] theorem setEth_lt {e : Nat} {x : EthPort} : (setEth e x s).lt = s.lt := rfl
@[simp] theorem setEth_diag {e : Nat} {x : EthPort} : (setEth e x s).diag = s.diag := rfl
@[simp] theorem setEth_time {e : Nat} {x : EthPort} : (setEth e x s).time = s.time := rfl
@[simp] theorem setEth_otp {e : Nat} {x : EthPort} : (setEth e x s).otp = s.otp := rfl
@[simp] theorem setEth_trig {e : Nat} {x : EthPort} : (setEth e x s).trig = s.trig := rfl
@[simp] theorem setEth_trims {e : Nat} {x : EthPort} : (setEth e x s).trims = s.trims := rfl
@[simp] theorem setEth_tcp {e : Nat} {x : EthPort} : (setEth e x s).tcp = s.tcp := rfl
@[simp] theorem setEth_svcSink {e : Nat} {x : EthPort} : (setEth e x s).svcSink = s.svcSink := rfl
@[simp] theorem setEth_pdTables {e : Nat} {x : EthPort} : (setEth e x s).pdTables = s.pdTables := rfl
@[simp] theorem setEth_proxies {e : Nat} {x : EthPort} : (setEth e x s).proxies = s.proxies := rfl
@[simp] theorem setEth_svcDev {e : Nat} {x : EthPort} : (setEth e x s).svcDev = s.svcDev := rfl
@[simp] theorem setEth_heads {e : Nat} {x : EthPort} : (setEth e x s).heads = s.heads := rfl
@[simp] theorem setEth_timings {e : Nat} {x : EthPort} : (setEth e x s).timings = s.timings := rfl
@[simp] theorem setEth_tols {e : Nat} {x : EthPort} : (setEth e x s).tols = s.tols := rfl
@[simp] theorem setEth_dpLine {e : Nat} {x : EthPort} : (setEth e x s).dpLine = s.dpLine := rfl
@[simp] theorem setEth_etm {e : Nat} {x : EthPort} : (setEth e x s).etm = s.etm := rfl
@[simp] theorem setEth_hostIf {e : Nat} {x : EthPort} : (setEth e x s).hostIf = s.hostIf := rfl
@[simp] theorem setEth_efuses {e : Nat} {x : EthPort} : (setEth e x s).efuses = s.efuses := rfl
@[simp] theorem setEth_nurse {e : Nat} {x : EthPort} : (setEth e x s).nurse = s.nurse := rfl
@[simp] theorem setEth_tests {e : Nat} {x : EthPort} : (setEth e x s).tests = s.tests := rfl
@[simp] theorem setEth_img {e : Nat} {x : EthPort} : (setEth e x s).img = s.img := rfl
@[simp] theorem setEth_nor {e : Nat} {x : EthPort} : (setEth e x s).nor = s.nor := rfl
@[simp] theorem setEth_supplyHold {e : Nat} {x : EthPort} : (setEth e x s).supplyHold = s.supplyHold := rfl
@[simp] theorem setEth_pending {e : Nat} {x : EthPort} : (setEth e x s).pending = s.pending := rfl

/-! `updEth` changes `eths`. -/
@[simp] theorem updEth_variant {e : Nat} {f : EthPort → EthPort} : (updEth e f s).variant = s.variant := rfl
@[simp] theorem updEth_stepB0 {e : Nat} {f : EthPort → EthPort} : (updEth e f s).stepB0 = s.stepB0 := rfl
@[simp] theorem updEth_now {e : Nat} {f : EthPort → EthPort} : (updEth e f s).now = s.now := rfl
@[simp] theorem updEth_free {e : Nat} {f : EthPort → EthPort} : (updEth e f s).free = s.free := rfl
@[simp] theorem updEth_regs {e : Nat} {f : EthPort → EthPort} : (updEth e f s).regs = s.regs := rfl
@[simp] theorem updEth_ctrs {e : Nat} {f : EthPort → EthPort} : (updEth e f s).ctrs = s.ctrs := rfl
@[simp] theorem updEth_ctrRc {e : Nat} {f : EthPort → EthPort} : (updEth e f s).ctrRc = s.ctrRc := rfl
@[simp] theorem updEth_srcs {e : Nat} {f : EthPort → EthPort} : (updEth e f s).srcs = s.srcs := rfl
@[simp] theorem updEth_lastRead {e : Nat} {f : EthPort → EthPort} : (updEth e f s).lastRead = s.lastRead := rfl
@[simp] theorem updEth_ports {e : Nat} {f : EthPort → EthPort} : (updEth e f s).ports = s.ports := rfl
@[simp] theorem updEth_tolger {e : Nat} {f : EthPort → EthPort} : (updEth e f s).tolger = s.tolger := rfl
@[simp] theorem updEth_domains {e : Nat} {f : EthPort → EthPort} : (updEth e f s).domains = s.domains := rfl
@[simp] theorem updEth_topo {e : Nat} {f : EthPort → EthPort} : (updEth e f s).topo = s.topo := rfl
@[simp] theorem updEth_comb {e : Nat} {f : EthPort → EthPort} : (updEth e f s).comb = s.comb := rfl
@[simp] theorem updEth_sched {e : Nat} {f : EthPort → EthPort} : (updEth e f s).sched = s.sched := rfl
@[simp] theorem updEth_tuns {e : Nat} {f : EthPort → EthPort} : (updEth e f s).tuns = s.tuns := rfl
@[simp] theorem updEth_brg {e : Nat} {f : EthPort → EthPort} : (updEth e f s).brg = s.brg := rfl
@[simp] theorem updEth_cmd {e : Nat} {f : EthPort → EthPort} : (updEth e f s).cmd = s.cmd := rfl
@[simp] theorem updEth_deep {e : Nat} {f : EthPort → EthPort} : (updEth e f s).deep = s.deep := rfl
@[simp] theorem updEth_lt {e : Nat} {f : EthPort → EthPort} : (updEth e f s).lt = s.lt := rfl
@[simp] theorem updEth_diag {e : Nat} {f : EthPort → EthPort} : (updEth e f s).diag = s.diag := rfl
@[simp] theorem updEth_time {e : Nat} {f : EthPort → EthPort} : (updEth e f s).time = s.time := rfl
@[simp] theorem updEth_otp {e : Nat} {f : EthPort → EthPort} : (updEth e f s).otp = s.otp := rfl
@[simp] theorem updEth_trig {e : Nat} {f : EthPort → EthPort} : (updEth e f s).trig = s.trig := rfl
@[simp] theorem updEth_trims {e : Nat} {f : EthPort → EthPort} : (updEth e f s).trims = s.trims := rfl
@[simp] theorem updEth_tcp {e : Nat} {f : EthPort → EthPort} : (updEth e f s).tcp = s.tcp := rfl
@[simp] theorem updEth_svcSink {e : Nat} {f : EthPort → EthPort} : (updEth e f s).svcSink = s.svcSink := rfl
@[simp] theorem updEth_pdTables {e : Nat} {f : EthPort → EthPort} : (updEth e f s).pdTables = s.pdTables := rfl
@[simp] theorem updEth_proxies {e : Nat} {f : EthPort → EthPort} : (updEth e f s).proxies = s.proxies := rfl
@[simp] theorem updEth_svcDev {e : Nat} {f : EthPort → EthPort} : (updEth e f s).svcDev = s.svcDev := rfl
@[simp] theorem updEth_heads {e : Nat} {f : EthPort → EthPort} : (updEth e f s).heads = s.heads := rfl
@[simp] theorem updEth_timings {e : Nat} {f : EthPort → EthPort} : (updEth e f s).timings = s.timings := rfl
@[simp] theorem updEth_tols {e : Nat} {f : EthPort → EthPort} : (updEth e f s).tols = s.tols := rfl
@[simp] theorem updEth_dpLine {e : Nat} {f : EthPort → EthPort} : (updEth e f s).dpLine = s.dpLine := rfl
@[simp] theorem updEth_etm {e : Nat} {f : EthPort → EthPort} : (updEth e f s).etm = s.etm := rfl
@[simp] theorem updEth_hostIf {e : Nat} {f : EthPort → EthPort} : (updEth e f s).hostIf = s.hostIf := rfl
@[simp] theorem updEth_efuses {e : Nat} {f : EthPort → EthPort} : (updEth e f s).efuses = s.efuses := rfl
@[simp] theorem updEth_nurse {e : Nat} {f : EthPort → EthPort} : (updEth e f s).nurse = s.nurse := rfl
@[simp] theorem updEth_tests {e : Nat} {f : EthPort → EthPort} : (updEth e f s).tests = s.tests := rfl
@[simp] theorem updEth_img {e : Nat} {f : EthPort → EthPort} : (updEth e f s).img = s.img := rfl
@[simp] theorem updEth_nor {e : Nat} {f : EthPort → EthPort} : (updEth e f s).nor = s.nor := rfl
@[simp] theorem updEth_supplyHold {e : Nat} {f : EthPort → EthPort} : (updEth e f s).supplyHold = s.supplyHold := rfl
@[simp] theorem updEth_pending {e : Nat} {f : EthPort → EthPort} : (updEth e f s).pending = s.pending := rfl

/-! `updHost` changes `hostIf`. -/
@[simp] theorem updHost_variant {f : HostIf → HostIf} : (updHost f s).variant = s.variant := rfl
@[simp] theorem updHost_stepB0 {f : HostIf → HostIf} : (updHost f s).stepB0 = s.stepB0 := rfl
@[simp] theorem updHost_now {f : HostIf → HostIf} : (updHost f s).now = s.now := rfl
@[simp] theorem updHost_free {f : HostIf → HostIf} : (updHost f s).free = s.free := rfl
@[simp] theorem updHost_regs {f : HostIf → HostIf} : (updHost f s).regs = s.regs := rfl
@[simp] theorem updHost_ctrs {f : HostIf → HostIf} : (updHost f s).ctrs = s.ctrs := rfl
@[simp] theorem updHost_ctrRc {f : HostIf → HostIf} : (updHost f s).ctrRc = s.ctrRc := rfl
@[simp] theorem updHost_srcs {f : HostIf → HostIf} : (updHost f s).srcs = s.srcs := rfl
@[simp] theorem updHost_lastRead {f : HostIf → HostIf} : (updHost f s).lastRead = s.lastRead := rfl
@[simp] theorem updHost_ports {f : HostIf → HostIf} : (updHost f s).ports = s.ports := rfl
@[simp] theorem updHost_tolger {f : HostIf → HostIf} : (updHost f s).tolger = s.tolger := rfl
@[simp] theorem updHost_domains {f : HostIf → HostIf} : (updHost f s).domains = s.domains := rfl
@[simp] theorem updHost_topo {f : HostIf → HostIf} : (updHost f s).topo = s.topo := rfl
@[simp] theorem updHost_comb {f : HostIf → HostIf} : (updHost f s).comb = s.comb := rfl
@[simp] theorem updHost_sched {f : HostIf → HostIf} : (updHost f s).sched = s.sched := rfl
@[simp] theorem updHost_tuns {f : HostIf → HostIf} : (updHost f s).tuns = s.tuns := rfl
@[simp] theorem updHost_brg {f : HostIf → HostIf} : (updHost f s).brg = s.brg := rfl
@[simp] theorem updHost_cmd {f : HostIf → HostIf} : (updHost f s).cmd = s.cmd := rfl
@[simp] theorem updHost_deep {f : HostIf → HostIf} : (updHost f s).deep = s.deep := rfl
@[simp] theorem updHost_lt {f : HostIf → HostIf} : (updHost f s).lt = s.lt := rfl
@[simp] theorem updHost_diag {f : HostIf → HostIf} : (updHost f s).diag = s.diag := rfl
@[simp] theorem updHost_time {f : HostIf → HostIf} : (updHost f s).time = s.time := rfl
@[simp] theorem updHost_otp {f : HostIf → HostIf} : (updHost f s).otp = s.otp := rfl
@[simp] theorem updHost_trig {f : HostIf → HostIf} : (updHost f s).trig = s.trig := rfl
@[simp] theorem updHost_trims {f : HostIf → HostIf} : (updHost f s).trims = s.trims := rfl
@[simp] theorem updHost_tcp {f : HostIf → HostIf} : (updHost f s).tcp = s.tcp := rfl
@[simp] theorem updHost_svcSink {f : HostIf → HostIf} : (updHost f s).svcSink = s.svcSink := rfl
@[simp] theorem updHost_pdTables {f : HostIf → HostIf} : (updHost f s).pdTables = s.pdTables := rfl
@[simp] theorem updHost_proxies {f : HostIf → HostIf} : (updHost f s).proxies = s.proxies := rfl
@[simp] theorem updHost_svcDev {f : HostIf → HostIf} : (updHost f s).svcDev = s.svcDev := rfl
@[simp] theorem updHost_heads {f : HostIf → HostIf} : (updHost f s).heads = s.heads := rfl
@[simp] theorem updHost_timings {f : HostIf → HostIf} : (updHost f s).timings = s.timings := rfl
@[simp] theorem updHost_tols {f : HostIf → HostIf} : (updHost f s).tols = s.tols := rfl
@[simp] theorem updHost_dpLine {f : HostIf → HostIf} : (updHost f s).dpLine = s.dpLine := rfl
@[simp] theorem updHost_eths {f : HostIf → HostIf} : (updHost f s).eths = s.eths := rfl
@[simp] theorem updHost_etm {f : HostIf → HostIf} : (updHost f s).etm = s.etm := rfl
@[simp] theorem updHost_efuses {f : HostIf → HostIf} : (updHost f s).efuses = s.efuses := rfl
@[simp] theorem updHost_nurse {f : HostIf → HostIf} : (updHost f s).nurse = s.nurse := rfl
@[simp] theorem updHost_tests {f : HostIf → HostIf} : (updHost f s).tests = s.tests := rfl
@[simp] theorem updHost_img {f : HostIf → HostIf} : (updHost f s).img = s.img := rfl
@[simp] theorem updHost_nor {f : HostIf → HostIf} : (updHost f s).nor = s.nor := rfl
@[simp] theorem updHost_supplyHold {f : HostIf → HostIf} : (updHost f s).supplyHold = s.supplyHold := rfl
@[simp] theorem updHost_pending {f : HostIf → HostIf} : (updHost f s).pending = s.pending := rfl

/-! `setEfuse` changes `efuses`. -/
@[simp] theorem setEfuse_variant {n : Nat} {x : EFuse} : (setEfuse n x s).variant = s.variant := rfl
@[simp] theorem setEfuse_stepB0 {n : Nat} {x : EFuse} : (setEfuse n x s).stepB0 = s.stepB0 := rfl
@[simp] theorem setEfuse_now {n : Nat} {x : EFuse} : (setEfuse n x s).now = s.now := rfl
@[simp] theorem setEfuse_free {n : Nat} {x : EFuse} : (setEfuse n x s).free = s.free := rfl
@[simp] theorem setEfuse_regs {n : Nat} {x : EFuse} : (setEfuse n x s).regs = s.regs := rfl
@[simp] theorem setEfuse_ctrs {n : Nat} {x : EFuse} : (setEfuse n x s).ctrs = s.ctrs := rfl
@[simp] theorem setEfuse_ctrRc {n : Nat} {x : EFuse} : (setEfuse n x s).ctrRc = s.ctrRc := rfl
@[simp] theorem setEfuse_srcs {n : Nat} {x : EFuse} : (setEfuse n x s).srcs = s.srcs := rfl
@[simp] theorem setEfuse_lastRead {n : Nat} {x : EFuse} : (setEfuse n x s).lastRead = s.lastRead := rfl
@[simp] theorem setEfuse_ports {n : Nat} {x : EFuse} : (setEfuse n x s).ports = s.ports := rfl
@[simp] theorem setEfuse_tolger {n : Nat} {x : EFuse} : (setEfuse n x s).tolger = s.tolger := rfl
@[simp] theorem setEfuse_domains {n : Nat} {x : EFuse} : (setEfuse n x s).domains = s.domains := rfl
@[simp] theorem setEfuse_topo {n : Nat} {x : EFuse} : (setEfuse n x s).topo = s.topo := rfl
@[simp] theorem setEfuse_comb {n : Nat} {x : EFuse} : (setEfuse n x s).comb = s.comb := rfl
@[simp] theorem setEfuse_sched {n : Nat} {x : EFuse} : (setEfuse n x s).sched = s.sched := rfl
@[simp] theorem setEfuse_tuns {n : Nat} {x : EFuse} : (setEfuse n x s).tuns = s.tuns := rfl
@[simp] theorem setEfuse_brg {n : Nat} {x : EFuse} : (setEfuse n x s).brg = s.brg := rfl
@[simp] theorem setEfuse_cmd {n : Nat} {x : EFuse} : (setEfuse n x s).cmd = s.cmd := rfl
@[simp] theorem setEfuse_deep {n : Nat} {x : EFuse} : (setEfuse n x s).deep = s.deep := rfl
@[simp] theorem setEfuse_lt {n : Nat} {x : EFuse} : (setEfuse n x s).lt = s.lt := rfl
@[simp] theorem setEfuse_diag {n : Nat} {x : EFuse} : (setEfuse n x s).diag = s.diag := rfl
@[simp] theorem setEfuse_time {n : Nat} {x : EFuse} : (setEfuse n x s).time = s.time := rfl
@[simp] theorem setEfuse_otp {n : Nat} {x : EFuse} : (setEfuse n x s).otp = s.otp := rfl
@[simp] theorem setEfuse_trig {n : Nat} {x : EFuse} : (setEfuse n x s).trig = s.trig := rfl
@[simp] theorem setEfuse_trims {n : Nat} {x : EFuse} : (setEfuse n x s).trims = s.trims := rfl
@[simp] theorem setEfuse_tcp {n : Nat} {x : EFuse} : (setEfuse n x s).tcp = s.tcp := rfl
@[simp] theorem setEfuse_svcSink {n : Nat} {x : EFuse} : (setEfuse n x s).svcSink = s.svcSink := rfl
@[simp] theorem setEfuse_pdTables {n : Nat} {x : EFuse} : (setEfuse n x s).pdTables = s.pdTables := rfl
@[simp] theorem setEfuse_proxies {n : Nat} {x : EFuse} : (setEfuse n x s).proxies = s.proxies := rfl
@[simp] theorem setEfuse_svcDev {n : Nat} {x : EFuse} : (setEfuse n x s).svcDev = s.svcDev := rfl
@[simp] theorem setEfuse_heads {n : Nat} {x : EFuse} : (setEfuse n x s).heads = s.heads := rfl
@[simp] theorem setEfuse_timings {n : Nat} {x : EFuse} : (setEfuse n x s).timings = s.timings := rfl
@[simp] theorem setEfuse_tols {n : Nat} {x : EFuse} : (setEfuse n x s).tols = s.tols := rfl
@[simp] theorem setEfuse_dpLine {n : Nat} {x : EFuse} : (setEfuse n x s).dpLine = s.dpLine := rfl
@[simp] theorem setEfuse_eths {n : Nat} {x : EFuse} : (setEfuse n x s).eths = s.eths := rfl
@[simp] theorem setEfuse_etm {n : Nat} {x : EFuse} : (setEfuse n x s).etm = s.etm := rfl
@[simp] theorem setEfuse_hostIf {n : Nat} {x : EFuse} : (setEfuse n x s).hostIf = s.hostIf := rfl
@[simp] theorem setEfuse_nurse {n : Nat} {x : EFuse} : (setEfuse n x s).nurse = s.nurse := rfl
@[simp] theorem setEfuse_tests {n : Nat} {x : EFuse} : (setEfuse n x s).tests = s.tests := rfl
@[simp] theorem setEfuse_img {n : Nat} {x : EFuse} : (setEfuse n x s).img = s.img := rfl
@[simp] theorem setEfuse_nor {n : Nat} {x : EFuse} : (setEfuse n x s).nor = s.nor := rfl
@[simp] theorem setEfuse_supplyHold {n : Nat} {x : EFuse} : (setEfuse n x s).supplyHold = s.supplyHold := rfl
@[simp] theorem setEfuse_pending {n : Nat} {x : EFuse} : (setEfuse n x s).pending = s.pending := rfl

/-! `updEfuse` changes `efuses`. -/
@[simp] theorem updEfuse_variant {n : Nat} {f : EFuse → EFuse} : (updEfuse n f s).variant = s.variant := rfl
@[simp] theorem updEfuse_stepB0 {n : Nat} {f : EFuse → EFuse} : (updEfuse n f s).stepB0 = s.stepB0 := rfl
@[simp] theorem updEfuse_now {n : Nat} {f : EFuse → EFuse} : (updEfuse n f s).now = s.now := rfl
@[simp] theorem updEfuse_free {n : Nat} {f : EFuse → EFuse} : (updEfuse n f s).free = s.free := rfl
@[simp] theorem updEfuse_regs {n : Nat} {f : EFuse → EFuse} : (updEfuse n f s).regs = s.regs := rfl
@[simp] theorem updEfuse_ctrs {n : Nat} {f : EFuse → EFuse} : (updEfuse n f s).ctrs = s.ctrs := rfl
@[simp] theorem updEfuse_ctrRc {n : Nat} {f : EFuse → EFuse} : (updEfuse n f s).ctrRc = s.ctrRc := rfl
@[simp] theorem updEfuse_srcs {n : Nat} {f : EFuse → EFuse} : (updEfuse n f s).srcs = s.srcs := rfl
@[simp] theorem updEfuse_lastRead {n : Nat} {f : EFuse → EFuse} : (updEfuse n f s).lastRead = s.lastRead := rfl
@[simp] theorem updEfuse_ports {n : Nat} {f : EFuse → EFuse} : (updEfuse n f s).ports = s.ports := rfl
@[simp] theorem updEfuse_tolger {n : Nat} {f : EFuse → EFuse} : (updEfuse n f s).tolger = s.tolger := rfl
@[simp] theorem updEfuse_domains {n : Nat} {f : EFuse → EFuse} : (updEfuse n f s).domains = s.domains := rfl
@[simp] theorem updEfuse_topo {n : Nat} {f : EFuse → EFuse} : (updEfuse n f s).topo = s.topo := rfl
@[simp] theorem updEfuse_comb {n : Nat} {f : EFuse → EFuse} : (updEfuse n f s).comb = s.comb := rfl
@[simp] theorem updEfuse_sched {n : Nat} {f : EFuse → EFuse} : (updEfuse n f s).sched = s.sched := rfl
@[simp] theorem updEfuse_tuns {n : Nat} {f : EFuse → EFuse} : (updEfuse n f s).tuns = s.tuns := rfl
@[simp] theorem updEfuse_brg {n : Nat} {f : EFuse → EFuse} : (updEfuse n f s).brg = s.brg := rfl
@[simp] theorem updEfuse_cmd {n : Nat} {f : EFuse → EFuse} : (updEfuse n f s).cmd = s.cmd := rfl
@[simp] theorem updEfuse_deep {n : Nat} {f : EFuse → EFuse} : (updEfuse n f s).deep = s.deep := rfl
@[simp] theorem updEfuse_lt {n : Nat} {f : EFuse → EFuse} : (updEfuse n f s).lt = s.lt := rfl
@[simp] theorem updEfuse_diag {n : Nat} {f : EFuse → EFuse} : (updEfuse n f s).diag = s.diag := rfl
@[simp] theorem updEfuse_time {n : Nat} {f : EFuse → EFuse} : (updEfuse n f s).time = s.time := rfl
@[simp] theorem updEfuse_otp {n : Nat} {f : EFuse → EFuse} : (updEfuse n f s).otp = s.otp := rfl
@[simp] theorem updEfuse_trig {n : Nat} {f : EFuse → EFuse} : (updEfuse n f s).trig = s.trig := rfl
@[simp] theorem updEfuse_trims {n : Nat} {f : EFuse → EFuse} : (updEfuse n f s).trims = s.trims := rfl
@[simp] theorem updEfuse_tcp {n : Nat} {f : EFuse → EFuse} : (updEfuse n f s).tcp = s.tcp := rfl
@[simp] theorem updEfuse_svcSink {n : Nat} {f : EFuse → EFuse} : (updEfuse n f s).svcSink = s.svcSink := rfl
@[simp] theorem updEfuse_pdTables {n : Nat} {f : EFuse → EFuse} : (updEfuse n f s).pdTables = s.pdTables := rfl
@[simp] theorem updEfuse_proxies {n : Nat} {f : EFuse → EFuse} : (updEfuse n f s).proxies = s.proxies := rfl
@[simp] theorem updEfuse_svcDev {n : Nat} {f : EFuse → EFuse} : (updEfuse n f s).svcDev = s.svcDev := rfl
@[simp] theorem updEfuse_heads {n : Nat} {f : EFuse → EFuse} : (updEfuse n f s).heads = s.heads := rfl
@[simp] theorem updEfuse_timings {n : Nat} {f : EFuse → EFuse} : (updEfuse n f s).timings = s.timings := rfl
@[simp] theorem updEfuse_tols {n : Nat} {f : EFuse → EFuse} : (updEfuse n f s).tols = s.tols := rfl
@[simp] theorem updEfuse_dpLine {n : Nat} {f : EFuse → EFuse} : (updEfuse n f s).dpLine = s.dpLine := rfl
@[simp] theorem updEfuse_eths {n : Nat} {f : EFuse → EFuse} : (updEfuse n f s).eths = s.eths := rfl
@[simp] theorem updEfuse_etm {n : Nat} {f : EFuse → EFuse} : (updEfuse n f s).etm = s.etm := rfl
@[simp] theorem updEfuse_hostIf {n : Nat} {f : EFuse → EFuse} : (updEfuse n f s).hostIf = s.hostIf := rfl
@[simp] theorem updEfuse_nurse {n : Nat} {f : EFuse → EFuse} : (updEfuse n f s).nurse = s.nurse := rfl
@[simp] theorem updEfuse_tests {n : Nat} {f : EFuse → EFuse} : (updEfuse n f s).tests = s.tests := rfl
@[simp] theorem updEfuse_img {n : Nat} {f : EFuse → EFuse} : (updEfuse n f s).img = s.img := rfl
@[simp] theorem updEfuse_nor {n : Nat} {f : EFuse → EFuse} : (updEfuse n f s).nor = s.nor := rfl
@[simp] theorem updEfuse_supplyHold {n : Nat} {f : EFuse → EFuse} : (updEfuse n f s).supplyHold = s.supplyHold := rfl
@[simp] theorem updEfuse_pending {n : Nat} {f : EFuse → EFuse} : (updEfuse n f s).pending = s.pending := rfl

/-! `setTest` changes `tests`. -/
@[simp] theorem setTest_variant {k : Nat} {x : TestRun} : (setTest k x s).variant = s.variant := rfl
@[simp] theorem setTest_stepB0 {k : Nat} {x : TestRun} : (setTest k x s).stepB0 = s.stepB0 := rfl
@[simp] theorem setTest_now {k : Nat} {x : TestRun} : (setTest k x s).now = s.now := rfl
@[simp] theorem setTest_free {k : Nat} {x : TestRun} : (setTest k x s).free = s.free := rfl
@[simp] theorem setTest_regs {k : Nat} {x : TestRun} : (setTest k x s).regs = s.regs := rfl
@[simp] theorem setTest_ctrs {k : Nat} {x : TestRun} : (setTest k x s).ctrs = s.ctrs := rfl
@[simp] theorem setTest_ctrRc {k : Nat} {x : TestRun} : (setTest k x s).ctrRc = s.ctrRc := rfl
@[simp] theorem setTest_srcs {k : Nat} {x : TestRun} : (setTest k x s).srcs = s.srcs := rfl
@[simp] theorem setTest_lastRead {k : Nat} {x : TestRun} : (setTest k x s).lastRead = s.lastRead := rfl
@[simp] theorem setTest_ports {k : Nat} {x : TestRun} : (setTest k x s).ports = s.ports := rfl
@[simp] theorem setTest_tolger {k : Nat} {x : TestRun} : (setTest k x s).tolger = s.tolger := rfl
@[simp] theorem setTest_domains {k : Nat} {x : TestRun} : (setTest k x s).domains = s.domains := rfl
@[simp] theorem setTest_topo {k : Nat} {x : TestRun} : (setTest k x s).topo = s.topo := rfl
@[simp] theorem setTest_comb {k : Nat} {x : TestRun} : (setTest k x s).comb = s.comb := rfl
@[simp] theorem setTest_sched {k : Nat} {x : TestRun} : (setTest k x s).sched = s.sched := rfl
@[simp] theorem setTest_tuns {k : Nat} {x : TestRun} : (setTest k x s).tuns = s.tuns := rfl
@[simp] theorem setTest_brg {k : Nat} {x : TestRun} : (setTest k x s).brg = s.brg := rfl
@[simp] theorem setTest_cmd {k : Nat} {x : TestRun} : (setTest k x s).cmd = s.cmd := rfl
@[simp] theorem setTest_deep {k : Nat} {x : TestRun} : (setTest k x s).deep = s.deep := rfl
@[simp] theorem setTest_lt {k : Nat} {x : TestRun} : (setTest k x s).lt = s.lt := rfl
@[simp] theorem setTest_diag {k : Nat} {x : TestRun} : (setTest k x s).diag = s.diag := rfl
@[simp] theorem setTest_time {k : Nat} {x : TestRun} : (setTest k x s).time = s.time := rfl
@[simp] theorem setTest_otp {k : Nat} {x : TestRun} : (setTest k x s).otp = s.otp := rfl
@[simp] theorem setTest_trig {k : Nat} {x : TestRun} : (setTest k x s).trig = s.trig := rfl
@[simp] theorem setTest_trims {k : Nat} {x : TestRun} : (setTest k x s).trims = s.trims := rfl
@[simp] theorem setTest_tcp {k : Nat} {x : TestRun} : (setTest k x s).tcp = s.tcp := rfl
@[simp] theorem setTest_svcSink {k : Nat} {x : TestRun} : (setTest k x s).svcSink = s.svcSink := rfl
@[simp] theorem setTest_pdTables {k : Nat} {x : TestRun} : (setTest k x s).pdTables = s.pdTables := rfl
@[simp] theorem setTest_proxies {k : Nat} {x : TestRun} : (setTest k x s).proxies = s.proxies := rfl
@[simp] theorem setTest_svcDev {k : Nat} {x : TestRun} : (setTest k x s).svcDev = s.svcDev := rfl
@[simp] theorem setTest_heads {k : Nat} {x : TestRun} : (setTest k x s).heads = s.heads := rfl
@[simp] theorem setTest_timings {k : Nat} {x : TestRun} : (setTest k x s).timings = s.timings := rfl
@[simp] theorem setTest_tols {k : Nat} {x : TestRun} : (setTest k x s).tols = s.tols := rfl
@[simp] theorem setTest_dpLine {k : Nat} {x : TestRun} : (setTest k x s).dpLine = s.dpLine := rfl
@[simp] theorem setTest_eths {k : Nat} {x : TestRun} : (setTest k x s).eths = s.eths := rfl
@[simp] theorem setTest_etm {k : Nat} {x : TestRun} : (setTest k x s).etm = s.etm := rfl
@[simp] theorem setTest_hostIf {k : Nat} {x : TestRun} : (setTest k x s).hostIf = s.hostIf := rfl
@[simp] theorem setTest_efuses {k : Nat} {x : TestRun} : (setTest k x s).efuses = s.efuses := rfl
@[simp] theorem setTest_nurse {k : Nat} {x : TestRun} : (setTest k x s).nurse = s.nurse := rfl
@[simp] theorem setTest_img {k : Nat} {x : TestRun} : (setTest k x s).img = s.img := rfl
@[simp] theorem setTest_nor {k : Nat} {x : TestRun} : (setTest k x s).nor = s.nor := rfl
@[simp] theorem setTest_supplyHold {k : Nat} {x : TestRun} : (setTest k x s).supplyHold = s.supplyHold := rfl
@[simp] theorem setTest_pending {k : Nat} {x : TestRun} : (setTest k x s).pending = s.pending := rfl

/-! `norErase` changes `nor`. -/
@[simp] theorem norErase_variant {a n : Nat} : (norErase a n s).variant = s.variant := rfl
@[simp] theorem norErase_stepB0 {a n : Nat} : (norErase a n s).stepB0 = s.stepB0 := rfl
@[simp] theorem norErase_now {a n : Nat} : (norErase a n s).now = s.now := rfl
@[simp] theorem norErase_free {a n : Nat} : (norErase a n s).free = s.free := rfl
@[simp] theorem norErase_regs {a n : Nat} : (norErase a n s).regs = s.regs := rfl
@[simp] theorem norErase_ctrs {a n : Nat} : (norErase a n s).ctrs = s.ctrs := rfl
@[simp] theorem norErase_ctrRc {a n : Nat} : (norErase a n s).ctrRc = s.ctrRc := rfl
@[simp] theorem norErase_srcs {a n : Nat} : (norErase a n s).srcs = s.srcs := rfl
@[simp] theorem norErase_lastRead {a n : Nat} : (norErase a n s).lastRead = s.lastRead := rfl
@[simp] theorem norErase_ports {a n : Nat} : (norErase a n s).ports = s.ports := rfl
@[simp] theorem norErase_tolger {a n : Nat} : (norErase a n s).tolger = s.tolger := rfl
@[simp] theorem norErase_domains {a n : Nat} : (norErase a n s).domains = s.domains := rfl
@[simp] theorem norErase_topo {a n : Nat} : (norErase a n s).topo = s.topo := rfl
@[simp] theorem norErase_comb {a n : Nat} : (norErase a n s).comb = s.comb := rfl
@[simp] theorem norErase_sched {a n : Nat} : (norErase a n s).sched = s.sched := rfl
@[simp] theorem norErase_tuns {a n : Nat} : (norErase a n s).tuns = s.tuns := rfl
@[simp] theorem norErase_brg {a n : Nat} : (norErase a n s).brg = s.brg := rfl
@[simp] theorem norErase_cmd {a n : Nat} : (norErase a n s).cmd = s.cmd := rfl
@[simp] theorem norErase_deep {a n : Nat} : (norErase a n s).deep = s.deep := rfl
@[simp] theorem norErase_lt {a n : Nat} : (norErase a n s).lt = s.lt := rfl
@[simp] theorem norErase_diag {a n : Nat} : (norErase a n s).diag = s.diag := rfl
@[simp] theorem norErase_time {a n : Nat} : (norErase a n s).time = s.time := rfl
@[simp] theorem norErase_otp {a n : Nat} : (norErase a n s).otp = s.otp := rfl
@[simp] theorem norErase_trig {a n : Nat} : (norErase a n s).trig = s.trig := rfl
@[simp] theorem norErase_trims {a n : Nat} : (norErase a n s).trims = s.trims := rfl
@[simp] theorem norErase_tcp {a n : Nat} : (norErase a n s).tcp = s.tcp := rfl
@[simp] theorem norErase_svcSink {a n : Nat} : (norErase a n s).svcSink = s.svcSink := rfl
@[simp] theorem norErase_pdTables {a n : Nat} : (norErase a n s).pdTables = s.pdTables := rfl
@[simp] theorem norErase_proxies {a n : Nat} : (norErase a n s).proxies = s.proxies := rfl
@[simp] theorem norErase_svcDev {a n : Nat} : (norErase a n s).svcDev = s.svcDev := rfl
@[simp] theorem norErase_heads {a n : Nat} : (norErase a n s).heads = s.heads := rfl
@[simp] theorem norErase_timings {a n : Nat} : (norErase a n s).timings = s.timings := rfl
@[simp] theorem norErase_tols {a n : Nat} : (norErase a n s).tols = s.tols := rfl
@[simp] theorem norErase_dpLine {a n : Nat} : (norErase a n s).dpLine = s.dpLine := rfl
@[simp] theorem norErase_eths {a n : Nat} : (norErase a n s).eths = s.eths := rfl
@[simp] theorem norErase_etm {a n : Nat} : (norErase a n s).etm = s.etm := rfl
@[simp] theorem norErase_hostIf {a n : Nat} : (norErase a n s).hostIf = s.hostIf := rfl
@[simp] theorem norErase_efuses {a n : Nat} : (norErase a n s).efuses = s.efuses := rfl
@[simp] theorem norErase_nurse {a n : Nat} : (norErase a n s).nurse = s.nurse := rfl
@[simp] theorem norErase_tests {a n : Nat} : (norErase a n s).tests = s.tests := rfl
@[simp] theorem norErase_img {a n : Nat} : (norErase a n s).img = s.img := rfl
@[simp] theorem norErase_supplyHold {a n : Nat} : (norErase a n s).supplyHold = s.supplyHold := rfl
@[simp] theorem norErase_pending {a n : Nat} : (norErase a n s).pending = s.pending := rfl

/-! `norProgram` changes `nor`. -/
@[simp] theorem norProgram_variant {a : Nat} {l : List Byte} : (norProgram a l s).variant = s.variant := rfl
@[simp] theorem norProgram_stepB0 {a : Nat} {l : List Byte} : (norProgram a l s).stepB0 = s.stepB0 := rfl
@[simp] theorem norProgram_now {a : Nat} {l : List Byte} : (norProgram a l s).now = s.now := rfl
@[simp] theorem norProgram_free {a : Nat} {l : List Byte} : (norProgram a l s).free = s.free := rfl
@[simp] theorem norProgram_regs {a : Nat} {l : List Byte} : (norProgram a l s).regs = s.regs := rfl
@[simp] theorem norProgram_ctrs {a : Nat} {l : List Byte} : (norProgram a l s).ctrs = s.ctrs := rfl
@[simp] theorem norProgram_ctrRc {a : Nat} {l : List Byte} : (norProgram a l s).ctrRc = s.ctrRc := rfl
@[simp] theorem norProgram_srcs {a : Nat} {l : List Byte} : (norProgram a l s).srcs = s.srcs := rfl
@[simp] theorem norProgram_lastRead {a : Nat} {l : List Byte} : (norProgram a l s).lastRead = s.lastRead := rfl
@[simp] theorem norProgram_ports {a : Nat} {l : List Byte} : (norProgram a l s).ports = s.ports := rfl
@[simp] theorem norProgram_tolger {a : Nat} {l : List Byte} : (norProgram a l s).tolger = s.tolger := rfl
@[simp] theorem norProgram_domains {a : Nat} {l : List Byte} : (norProgram a l s).domains = s.domains := rfl
@[simp] theorem norProgram_topo {a : Nat} {l : List Byte} : (norProgram a l s).topo = s.topo := rfl
@[simp] theorem norProgram_comb {a : Nat} {l : List Byte} : (norProgram a l s).comb = s.comb := rfl
@[simp] theorem norProgram_sched {a : Nat} {l : List Byte} : (norProgram a l s).sched = s.sched := rfl
@[simp] theorem norProgram_tuns {a : Nat} {l : List Byte} : (norProgram a l s).tuns = s.tuns := rfl
@[simp] theorem norProgram_brg {a : Nat} {l : List Byte} : (norProgram a l s).brg = s.brg := rfl
@[simp] theorem norProgram_cmd {a : Nat} {l : List Byte} : (norProgram a l s).cmd = s.cmd := rfl
@[simp] theorem norProgram_deep {a : Nat} {l : List Byte} : (norProgram a l s).deep = s.deep := rfl
@[simp] theorem norProgram_lt {a : Nat} {l : List Byte} : (norProgram a l s).lt = s.lt := rfl
@[simp] theorem norProgram_diag {a : Nat} {l : List Byte} : (norProgram a l s).diag = s.diag := rfl
@[simp] theorem norProgram_time {a : Nat} {l : List Byte} : (norProgram a l s).time = s.time := rfl
@[simp] theorem norProgram_otp {a : Nat} {l : List Byte} : (norProgram a l s).otp = s.otp := rfl
@[simp] theorem norProgram_trig {a : Nat} {l : List Byte} : (norProgram a l s).trig = s.trig := rfl
@[simp] theorem norProgram_trims {a : Nat} {l : List Byte} : (norProgram a l s).trims = s.trims := rfl
@[simp] theorem norProgram_tcp {a : Nat} {l : List Byte} : (norProgram a l s).tcp = s.tcp := rfl
@[simp] theorem norProgram_svcSink {a : Nat} {l : List Byte} : (norProgram a l s).svcSink = s.svcSink := rfl
@[simp] theorem norProgram_pdTables {a : Nat} {l : List Byte} : (norProgram a l s).pdTables = s.pdTables := rfl
@[simp] theorem norProgram_proxies {a : Nat} {l : List Byte} : (norProgram a l s).proxies = s.proxies := rfl
@[simp] theorem norProgram_svcDev {a : Nat} {l : List Byte} : (norProgram a l s).svcDev = s.svcDev := rfl
@[simp] theorem norProgram_heads {a : Nat} {l : List Byte} : (norProgram a l s).heads = s.heads := rfl
@[simp] theorem norProgram_timings {a : Nat} {l : List Byte} : (norProgram a l s).timings = s.timings := rfl
@[simp] theorem norProgram_tols {a : Nat} {l : List Byte} : (norProgram a l s).tols = s.tols := rfl
@[simp] theorem norProgram_dpLine {a : Nat} {l : List Byte} : (norProgram a l s).dpLine = s.dpLine := rfl
@[simp] theorem norProgram_eths {a : Nat} {l : List Byte} : (norProgram a l s).eths = s.eths := rfl
@[simp] theorem norProgram_etm {a : Nat} {l : List Byte} : (norProgram a l s).etm = s.etm := rfl
@[simp] theorem norProgram_hostIf {a : Nat} {l : List Byte} : (norProgram a l s).hostIf = s.hostIf := rfl
@[simp] theorem norProgram_efuses {a : Nat} {l : List Byte} : (norProgram a l s).efuses = s.efuses := rfl
@[simp] theorem norProgram_nurse {a : Nat} {l : List Byte} : (norProgram a l s).nurse = s.nurse := rfl
@[simp] theorem norProgram_tests {a : Nat} {l : List Byte} : (norProgram a l s).tests = s.tests := rfl
@[simp] theorem norProgram_img {a : Nat} {l : List Byte} : (norProgram a l s).img = s.img := rfl
@[simp] theorem norProgram_supplyHold {a : Nat} {l : List Byte} : (norProgram a l s).supplyHold = s.supplyHold := rfl
@[simp] theorem norProgram_pending {a : Nat} {l : List Byte} : (norProgram a l s).pending = s.pending := rfl

/-! `dispatch` changes `cmd`. -/
@[simp] theorem dispatch_variant {o : Origin} : (dispatch o s).variant = s.variant := rfl
@[simp] theorem dispatch_stepB0 {o : Origin} : (dispatch o s).stepB0 = s.stepB0 := rfl
@[simp] theorem dispatch_now {o : Origin} : (dispatch o s).now = s.now := rfl
@[simp] theorem dispatch_free {o : Origin} : (dispatch o s).free = s.free := rfl
@[simp] theorem dispatch_regs {o : Origin} : (dispatch o s).regs = s.regs := rfl
@[simp] theorem dispatch_ctrs {o : Origin} : (dispatch o s).ctrs = s.ctrs := rfl
@[simp] theorem dispatch_ctrRc {o : Origin} : (dispatch o s).ctrRc = s.ctrRc := rfl
@[simp] theorem dispatch_srcs {o : Origin} : (dispatch o s).srcs = s.srcs := rfl
@[simp] theorem dispatch_lastRead {o : Origin} : (dispatch o s).lastRead = s.lastRead := rfl
@[simp] theorem dispatch_ports {o : Origin} : (dispatch o s).ports = s.ports := rfl
@[simp] theorem dispatch_tolger {o : Origin} : (dispatch o s).tolger = s.tolger := rfl
@[simp] theorem dispatch_domains {o : Origin} : (dispatch o s).domains = s.domains := rfl
@[simp] theorem dispatch_topo {o : Origin} : (dispatch o s).topo = s.topo := rfl
@[simp] theorem dispatch_comb {o : Origin} : (dispatch o s).comb = s.comb := rfl
@[simp] theorem dispatch_sched {o : Origin} : (dispatch o s).sched = s.sched := rfl
@[simp] theorem dispatch_tuns {o : Origin} : (dispatch o s).tuns = s.tuns := rfl
@[simp] theorem dispatch_brg {o : Origin} : (dispatch o s).brg = s.brg := rfl
@[simp] theorem dispatch_deep {o : Origin} : (dispatch o s).deep = s.deep := rfl
@[simp] theorem dispatch_lt {o : Origin} : (dispatch o s).lt = s.lt := rfl
@[simp] theorem dispatch_diag {o : Origin} : (dispatch o s).diag = s.diag := rfl
@[simp] theorem dispatch_time {o : Origin} : (dispatch o s).time = s.time := rfl
@[simp] theorem dispatch_otp {o : Origin} : (dispatch o s).otp = s.otp := rfl
@[simp] theorem dispatch_trig {o : Origin} : (dispatch o s).trig = s.trig := rfl
@[simp] theorem dispatch_trims {o : Origin} : (dispatch o s).trims = s.trims := rfl
@[simp] theorem dispatch_tcp {o : Origin} : (dispatch o s).tcp = s.tcp := rfl
@[simp] theorem dispatch_svcSink {o : Origin} : (dispatch o s).svcSink = s.svcSink := rfl
@[simp] theorem dispatch_pdTables {o : Origin} : (dispatch o s).pdTables = s.pdTables := rfl
@[simp] theorem dispatch_proxies {o : Origin} : (dispatch o s).proxies = s.proxies := rfl
@[simp] theorem dispatch_svcDev {o : Origin} : (dispatch o s).svcDev = s.svcDev := rfl
@[simp] theorem dispatch_heads {o : Origin} : (dispatch o s).heads = s.heads := rfl
@[simp] theorem dispatch_timings {o : Origin} : (dispatch o s).timings = s.timings := rfl
@[simp] theorem dispatch_tols {o : Origin} : (dispatch o s).tols = s.tols := rfl
@[simp] theorem dispatch_dpLine {o : Origin} : (dispatch o s).dpLine = s.dpLine := rfl
@[simp] theorem dispatch_eths {o : Origin} : (dispatch o s).eths = s.eths := rfl
@[simp] theorem dispatch_etm {o : Origin} : (dispatch o s).etm = s.etm := rfl
@[simp] theorem dispatch_hostIf {o : Origin} : (dispatch o s).hostIf = s.hostIf := rfl
@[simp] theorem dispatch_efuses {o : Origin} : (dispatch o s).efuses = s.efuses := rfl
@[simp] theorem dispatch_nurse {o : Origin} : (dispatch o s).nurse = s.nurse := rfl
@[simp] theorem dispatch_tests {o : Origin} : (dispatch o s).tests = s.tests := rfl
@[simp] theorem dispatch_img {o : Origin} : (dispatch o s).img = s.img := rfl
@[simp] theorem dispatch_nor {o : Origin} : (dispatch o s).nor = s.nor := rfl
@[simp] theorem dispatch_supplyHold {o : Origin} : (dispatch o s).supplyHold = s.supplyHold := rfl
@[simp] theorem dispatch_pending {o : Origin} : (dispatch o s).pending = s.pending := rfl

/-! `raise` changes `srcs`. -/
theorem raise_kept {n : Nat} : Keeps 16 s (raise n s) := raise_keeps rfl (Keeps.refl _ _)
@[simp] theorem raise_variant {n : Nat} : (raise n s).variant = s.variant := raise_kept.variant
@[simp] theorem raise_stepB0 {n : Nat} : (raise n s).stepB0 = s.stepB0 := raise_kept.stepB0
@[simp] theorem raise_now {n : Nat} : (raise n s).now = s.now := raise_kept.now
@[simp] theorem raise_free {n : Nat} : (raise n s).free = s.free := raise_kept.free rfl
@[simp] theorem raise_regs {n : Nat} : (raise n s).regs = s.regs := raise_kept.regs rfl
@[simp] theorem raise_ctrs {n : Nat} : (raise n s).ctrs = s.ctrs := raise_kept.ctrs rfl
@[simp] theorem raise_ctrRc {n : Nat} : (raise n s).ctrRc = s.ctrRc := raise_kept.ctrRc rfl
@[simp] theorem raise_lastRead {n : Nat} : (raise n s).lastRead = s.lastRead := raise_kept.lastRead rfl
@[simp] theorem raise_ports {n : Nat} : (raise n s).ports = s.ports := raise_kept.ports rfl
@[simp] theorem raise_tolger {n : Nat} : (raise n s).tolger = s.tolger := raise_kept.tolger rfl
@[simp] theorem raise_domains {n : Nat} : (raise n s).domains = s.domains := raise_kept.domains rfl
@[simp] theorem raise_topo {n : Nat} : (raise n s).topo = s.topo := raise_kept.topo rfl
@[simp] theorem raise_comb {n : Nat} : (raise n s).comb = s.comb := raise_kept.comb rfl
@[simp] theorem raise_sched {n : Nat} : (raise n s).sched = s.sched := raise_kept.sched rfl
@[simp] theorem raise_tuns {n : Nat} : (raise n s).tuns = s.tuns := raise_kept.tuns rfl
@[simp] theorem raise_brg {n : Nat} : (raise n s).brg = s.brg := raise_kept.brg rfl
@[simp] theorem raise_cmd {n : Nat} : (raise n s).cmd = s.cmd := raise_kept.cmd rfl
@[simp] theorem raise_deep {n : Nat} : (raise n s).deep = s.deep := raise_kept.deep rfl
@[simp] theorem raise_lt {n : Nat} : (raise n s).lt = s.lt := raise_kept.lt rfl
@[simp] theorem raise_diag {n : Nat} : (raise n s).diag = s.diag := raise_kept.diag rfl
@[simp] theorem raise_time {n : Nat} : (raise n s).time = s.time := raise_kept.time rfl
@[simp] theorem raise_otp {n : Nat} : (raise n s).otp = s.otp := raise_kept.otp rfl
@[simp] theorem raise_trig {n : Nat} : (raise n s).trig = s.trig := raise_kept.trig rfl
@[simp] theorem raise_trims {n : Nat} : (raise n s).trims = s.trims := raise_kept.trims rfl
@[simp] theorem raise_tcp {n : Nat} : (raise n s).tcp = s.tcp := raise_kept.tcp rfl
@[simp] theorem raise_svcSink {n : Nat} : (raise n s).svcSink = s.svcSink := raise_kept.svcSink rfl
@[simp] theorem raise_pdTables {n : Nat} : (raise n s).pdTables = s.pdTables := raise_kept.pdTables rfl
@[simp] theorem raise_proxies {n : Nat} : (raise n s).proxies = s.proxies := raise_kept.proxies rfl
@[simp] theorem raise_svcDev {n : Nat} : (raise n s).svcDev = s.svcDev := raise_kept.svcDev rfl
@[simp] theorem raise_heads {n : Nat} : (raise n s).heads = s.heads := raise_kept.heads rfl
@[simp] theorem raise_timings {n : Nat} : (raise n s).timings = s.timings := raise_kept.timings rfl
@[simp] theorem raise_tols {n : Nat} : (raise n s).tols = s.tols := raise_kept.tols rfl
@[simp] theorem raise_dpLine {n : Nat} : (raise n s).dpLine = s.dpLine := raise_kept.dpLine rfl
@[simp] theorem raise_eths {n : Nat} : (raise n s).eths = s.eths := raise_kept.eths rfl
@[simp] theorem raise_etm {n : Nat} : (raise n s).etm = s.etm := raise_kept.etm rfl
@[simp] theorem raise_hostIf {n : Nat} : (raise n s).hostIf = s.hostIf := raise_kept.hostIf rfl
@[simp] theorem raise_efuses {n : Nat} : (raise n s).efuses = s.efuses := raise_kept.efuses rfl
@[simp] theorem raise_nurse {n : Nat} : (raise n s).nurse = s.nurse := raise_kept.nurse rfl
@[simp] theorem raise_tests {n : Nat} : (raise n s).tests = s.tests := raise_kept.tests rfl
@[simp] theorem raise_img {n : Nat} : (raise n s).img = s.img := raise_kept.img rfl
@[simp] theorem raise_nor {n : Nat} : (raise n s).nor = s.nor := raise_kept.nor rfl
@[simp] theorem raise_supplyHold {n : Nat} : (raise n s).supplyHold = s.supplyHold := raise_kept.supplyHold rfl
@[simp] theorem raise_pending {n : Nat} : (raise n s).pending = s.pending := raise_kept.pending

/-! `countBy` changes `ctrs`, `srcs`, `diag`. -/
theorem countBy_kept {a n : Nat} : Keeps 131092 s (countBy a n s) := countBy_keeps rfl (Keeps.refl _ _)
@[simp] theorem countBy_variant {a n : Nat} : (countBy a n s).variant = s.variant := countBy_kept.variant
@[simp] theorem countBy_stepB0 {a n : Nat} : (countBy a n s).stepB0 = s.stepB0 := countBy_kept.stepB0
@[simp] theorem countBy_now {a n : Nat} : (countBy a n s).now = s.now := countBy_kept.now
@[simp] theorem countBy_free {a n : Nat} : (countBy a n s).free = s.free := countBy_kept.free rfl
@[simp] theorem countBy_regs {a n : Nat} : (countBy a n s).regs = s.regs := countBy_kept.regs rfl
@[simp] theorem countBy_ctrRc {a n : Nat} : (countBy a n s).ctrRc = s.ctrRc := countBy_kept.ctrRc rfl
@[simp] theorem countBy_lastRead {a n : Nat} : (countBy a n s).lastRead = s.lastRead := countBy_kept.lastRead rfl
@[simp] theorem countBy_ports {a n : Nat} : (countBy a n s).ports = s.ports := countBy_kept.ports rfl
@[simp] theorem countBy_tolger {a n : Nat} : (countBy a n s).tolger = s.tolger := countBy_kept.tolger rfl
@[simp] theorem countBy_domains {a n : Nat} : (countBy a n s).domains = s.domains := countBy_kept.domains rfl
@[simp] theorem countBy_topo {a n : Nat} : (countBy a n s).topo = s.topo := countBy_kept.topo rfl
@[simp] theorem countBy_comb {a n : Nat} : (countBy a n s).comb = s.comb := countBy_kept.comb rfl
@[simp] theorem countBy_sched {a n : Nat} : (countBy a n s).sched = s.sched := countBy_kept.sched rfl
@[simp] theorem countBy_tuns {a n : Nat} : (countBy a n s).tuns = s.tuns := countBy_kept.tuns rfl
@[simp] theorem countBy_brg {a n : Nat} : (countBy a n s).brg = s.brg := countBy_kept.brg rfl
@[simp] theorem countBy_cmd {a n : Nat} : (countBy a n s).cmd = s.cmd := countBy_kept.cmd rfl
@[simp] theorem countBy_deep {a n : Nat} : (countBy a n s).deep = s.deep := countBy_kept.deep rfl
@[simp] theorem countBy_lt {a n : Nat} : (countBy a n s).lt = s.lt := countBy_kept.lt rfl
@[simp] theorem countBy_time {a n : Nat} : (countBy a n s).time = s.time := countBy_kept.time rfl
@[simp] theorem countBy_otp {a n : Nat} : (countBy a n s).otp = s.otp := countBy_kept.otp rfl
@[simp] theorem countBy_trig {a n : Nat} : (countBy a n s).trig = s.trig := countBy_kept.trig rfl
@[simp] theorem countBy_trims {a n : Nat} : (countBy a n s).trims = s.trims := countBy_kept.trims rfl
@[simp] theorem countBy_tcp {a n : Nat} : (countBy a n s).tcp = s.tcp := countBy_kept.tcp rfl
@[simp] theorem countBy_svcSink {a n : Nat} : (countBy a n s).svcSink = s.svcSink := countBy_kept.svcSink rfl
@[simp] theorem countBy_pdTables {a n : Nat} : (countBy a n s).pdTables = s.pdTables := countBy_kept.pdTables rfl
@[simp] theorem countBy_proxies {a n : Nat} : (countBy a n s).proxies = s.proxies := countBy_kept.proxies rfl
@[simp] theorem countBy_svcDev {a n : Nat} : (countBy a n s).svcDev = s.svcDev := countBy_kept.svcDev rfl
@[simp] theorem countBy_heads {a n : Nat} : (countBy a n s).heads = s.heads := countBy_kept.heads rfl
@[simp] theorem countBy_timings {a n : Nat} : (countBy a n s).timings = s.timings := countBy_kept.timings rfl
@[simp] theorem countBy_tols {a n : Nat} : (countBy a n s).tols = s.tols := countBy_kept.tols rfl
@[simp] theorem countBy_dpLine {a n : Nat} : (countBy a n s).dpLine = s.dpLine := countBy_kept.dpLine rfl
@[simp] theorem countBy_eths {a n : Nat} : (countBy a n s).eths = s.eths := countBy_kept.eths rfl
@[simp] theorem countBy_etm {a n : Nat} : (countBy a n s).etm = s.etm := countBy_kept.etm rfl
@[simp] theorem countBy_hostIf {a n : Nat} : (countBy a n s).hostIf = s.hostIf := countBy_kept.hostIf rfl
@[simp] theorem countBy_efuses {a n : Nat} : (countBy a n s).efuses = s.efuses := countBy_kept.efuses rfl
@[simp] theorem countBy_nurse {a n : Nat} : (countBy a n s).nurse = s.nurse := countBy_kept.nurse rfl
@[simp] theorem countBy_tests {a n : Nat} : (countBy a n s).tests = s.tests := countBy_kept.tests rfl
@[simp] theorem countBy_img {a n : Nat} : (countBy a n s).img = s.img := countBy_kept.img rfl
@[simp] theorem countBy_nor {a n : Nat} : (countBy a n s).nor = s.nor := countBy_kept.nor rfl
@[simp] theorem countBy_supplyHold {a n : Nat} : (countBy a n s).supplyHold = s.supplyHold := countBy_kept.supplyHold rfl
@[simp] theorem countBy_pending {a n : Nat} : (countBy a n s).pending = s.pending := countBy_kept.pending

/-! `count` changes `ctrs`, `srcs`, `diag`. -/
theorem count_kept {a : Nat} : Keeps 131092 s (count a s) := count_keeps rfl (Keeps.refl _ _)
@[simp] theorem count_variant {a : Nat} : (count a s).variant = s.variant := count_kept.variant
@[simp] theorem count_stepB0 {a : Nat} : (count a s).stepB0 = s.stepB0 := count_kept.stepB0
@[simp] theorem count_now {a : Nat} : (count a s).now = s.now := count_kept.now
@[simp] theorem count_free {a : Nat} : (count a s).free = s.free := count_kept.free rfl
@[simp] theorem count_regs {a : Nat} : (count a s).regs = s.regs := count_kept.regs rfl
@[simp] theorem count_ctrRc {a : Nat} : (count a s).ctrRc = s.ctrRc := count_kept.ctrRc rfl
@[simp] theorem count_lastRead {a : Nat} : (count a s).lastRead = s.lastRead := count_kept.lastRead rfl
@[simp] theorem count_ports {a : Nat} : (count a s).ports = s.ports := count_kept.ports rfl
@[simp] theorem count_tolger {a : Nat} : (count a s).tolger = s.tolger := count_kept.tolger rfl
@[simp] theorem count_domains {a : Nat} : (count a s).domains = s.domains := count_kept.domains rfl
@[simp] theorem count_topo {a : Nat} : (count a s).topo = s.topo := count_kept.topo rfl
@[simp] theorem count_comb {a : Nat} : (count a s).comb = s.comb := count_kept.comb rfl
@[simp] theorem count_sched {a : Nat} : (count a s).sched = s.sched := count_kept.sched rfl
@[simp] theorem count_tuns {a : Nat} : (count a s).tuns = s.tuns := count_kept.tuns rfl
@[simp] theorem count_brg {a : Nat} : (count a s).brg = s.brg := count_kept.brg rfl
@[simp] theorem count_cmd {a : Nat} : (count a s).cmd = s.cmd := count_kept.cmd rfl
@[simp] theorem count_deep {a : Nat} : (count a s).deep = s.deep := count_kept.deep rfl
@[simp] theorem count_lt {a : Nat} : (count a s).lt = s.lt := count_kept.lt rfl
@[simp] theorem count_time {a : Nat} : (count a s).time = s.time := count_kept.time rfl
@[simp] theorem count_otp {a : Nat} : (count a s).otp = s.otp := count_kept.otp rfl
@[simp] theorem count_trig {a : Nat} : (count a s).trig = s.trig := count_kept.trig rfl
@[simp] theorem count_trims {a : Nat} : (count a s).trims = s.trims := count_kept.trims rfl
@[simp] theorem count_tcp {a : Nat} : (count a s).tcp = s.tcp := count_kept.tcp rfl
@[simp] theorem count_svcSink {a : Nat} : (count a s).svcSink = s.svcSink := count_kept.svcSink rfl
@[simp] theorem count_pdTables {a : Nat} : (count a s).pdTables = s.pdTables := count_kept.pdTables rfl
@[simp] theorem count_proxies {a : Nat} : (count a s).proxies = s.proxies := count_kept.proxies rfl
@[simp] theorem count_svcDev {a : Nat} : (count a s).svcDev = s.svcDev := count_kept.svcDev rfl
@[simp] theorem count_heads {a : Nat} : (count a s).heads = s.heads := count_kept.heads rfl
@[simp] theorem count_timings {a : Nat} : (count a s).timings = s.timings := count_kept.timings rfl
@[simp] theorem count_tols {a : Nat} : (count a s).tols = s.tols := count_kept.tols rfl
@[simp] theorem count_dpLine {a : Nat} : (count a s).dpLine = s.dpLine := count_kept.dpLine rfl
@[simp] theorem count_eths {a : Nat} : (count a s).eths = s.eths := count_kept.eths rfl
@[simp] theorem count_etm {a : Nat} : (count a s).etm = s.etm := count_kept.etm rfl
@[simp] theorem count_hostIf {a : Nat} : (count a s).hostIf = s.hostIf := count_kept.hostIf rfl
@[simp] theorem count_efuses {a : Nat} : (count a s).efuses = s.efuses := count_kept.efuses rfl
@[simp] theorem count_nurse {a : Nat} : (count a s).nurse = s.nurse := count_kept.nurse rfl
@[simp] theorem count_tests {a : Nat} : (count a s).tests = s.tests := count_kept.tests rfl
@[simp] theorem count_img {a : Nat} : (count a s).img = s.img := count_kept.img rfl
@[simp] theorem count_nor {a : Nat} : (count a s).nor = s.nor := count_kept.nor rfl
@[simp] theorem count_supplyHold {a : Nat} : (count a s).supplyHold = s.supplyHold := count_kept.supplyHold rfl
@[simp] theorem count_pending {a : Nat} : (count a s).pending = s.pending := count_kept.pending

/-! `logErr` changes `diag`, `srcs`. -/
theorem logErr_kept {c l d : Nat} : Keeps 131088 s (logErr c l d s) := logErr_keeps rfl (Keeps.refl _ _)
@[simp] theorem logErr_variant {c l d : Nat} : (logErr c l d s).variant = s.variant := logErr_kept.variant
@[simp] theorem logErr_stepB0 {c l d : Nat} : (logErr c l d s).stepB0 = s.stepB0 := logErr_kept.stepB0
@[simp] theorem logErr_now {c l d : Nat} : (logErr c l d s).now = s.now := logErr_kept.now
@[simp] theorem logErr_free {c l d : Nat} : (logErr c l d s).free = s.free := logErr_kept.free rfl
@[simp] theorem logErr_regs {c l d : Nat} : (logErr c l d s).regs = s.regs := logErr_kept.regs rfl
@[simp] theorem logErr_ctrs {c l d : Nat} : (logErr c l d s).ctrs = s.ctrs := logErr_kept.ctrs rfl
@[simp] theorem logErr_ctrRc {c l d : Nat} : (logErr c l d s).ctrRc = s.ctrRc := logErr_kept.ctrRc rfl
@[simp] theorem logErr_lastRead {c l d : Nat} : (logErr c l d s).lastRead = s.lastRead := logErr_kept.lastRead rfl
@[simp] theorem logErr_ports {c l d : Nat} : (logErr c l d s).ports = s.ports := logErr_kept.ports rfl
@[simp] theorem logErr_tolger {c l d : Nat} : (logErr c l d s).tolger = s.tolger := logErr_kept.tolger rfl
@[simp] theorem logErr_domains {c l d : Nat} : (logErr c l d s).domains = s.domains := logErr_kept.domains rfl
@[simp] theorem logErr_topo {c l d : Nat} : (logErr c l d s).topo = s.topo := logErr_kept.topo rfl
@[simp] theorem logErr_comb {c l d : Nat} : (logErr c l d s).comb = s.comb := logErr_kept.comb rfl
@[simp] theorem logErr_sched {c l d : Nat} : (logErr c l d s).sched = s.sched := logErr_kept.sched rfl
@[simp] theorem logErr_tuns {c l d : Nat} : (logErr c l d s).tuns = s.tuns := logErr_kept.tuns rfl
@[simp] theorem logErr_brg {c l d : Nat} : (logErr c l d s).brg = s.brg := logErr_kept.brg rfl
@[simp] theorem logErr_cmd {c l d : Nat} : (logErr c l d s).cmd = s.cmd := logErr_kept.cmd rfl
@[simp] theorem logErr_deep {c l d : Nat} : (logErr c l d s).deep = s.deep := logErr_kept.deep rfl
@[simp] theorem logErr_lt {c l d : Nat} : (logErr c l d s).lt = s.lt := logErr_kept.lt rfl
@[simp] theorem logErr_time {c l d : Nat} : (logErr c l d s).time = s.time := logErr_kept.time rfl
@[simp] theorem logErr_otp {c l d : Nat} : (logErr c l d s).otp = s.otp := logErr_kept.otp rfl
@[simp] theorem logErr_trig {c l d : Nat} : (logErr c l d s).trig = s.trig := logErr_kept.trig rfl
@[simp] theorem logErr_trims {c l d : Nat} : (logErr c l d s).trims = s.trims := logErr_kept.trims rfl
@[simp] theorem logErr_tcp {c l d : Nat} : (logErr c l d s).tcp = s.tcp := logErr_kept.tcp rfl
@[simp] theorem logErr_svcSink {c l d : Nat} : (logErr c l d s).svcSink = s.svcSink := logErr_kept.svcSink rfl
@[simp] theorem logErr_pdTables {c l d : Nat} : (logErr c l d s).pdTables = s.pdTables := logErr_kept.pdTables rfl
@[simp] theorem logErr_proxies {c l d : Nat} : (logErr c l d s).proxies = s.proxies := logErr_kept.proxies rfl
@[simp] theorem logErr_svcDev {c l d : Nat} : (logErr c l d s).svcDev = s.svcDev := logErr_kept.svcDev rfl
@[simp] theorem logErr_heads {c l d : Nat} : (logErr c l d s).heads = s.heads := logErr_kept.heads rfl
@[simp] theorem logErr_timings {c l d : Nat} : (logErr c l d s).timings = s.timings := logErr_kept.timings rfl
@[simp] theorem logErr_tols {c l d : Nat} : (logErr c l d s).tols = s.tols := logErr_kept.tols rfl
@[simp] theorem logErr_dpLine {c l d : Nat} : (logErr c l d s).dpLine = s.dpLine := logErr_kept.dpLine rfl
@[simp] theorem logErr_eths {c l d : Nat} : (logErr c l d s).eths = s.eths := logErr_kept.eths rfl
@[simp] theorem logErr_etm {c l d : Nat} : (logErr c l d s).etm = s.etm := logErr_kept.etm rfl
@[simp] theorem logErr_hostIf {c l d : Nat} : (logErr c l d s).hostIf = s.hostIf := logErr_kept.hostIf rfl
@[simp] theorem logErr_efuses {c l d : Nat} : (logErr c l d s).efuses = s.efuses := logErr_kept.efuses rfl
@[simp] theorem logErr_nurse {c l d : Nat} : (logErr c l d s).nurse = s.nurse := logErr_kept.nurse rfl
@[simp] theorem logErr_tests {c l d : Nat} : (logErr c l d s).tests = s.tests := logErr_kept.tests rfl
@[simp] theorem logErr_img {c l d : Nat} : (logErr c l d s).img = s.img := logErr_kept.img rfl
@[simp] theorem logErr_nor {c l d : Nat} : (logErr c l d s).nor = s.nor := logErr_kept.nor rfl
@[simp] theorem logErr_supplyHold {c l d : Nat} : (logErr c l d s).supplyHold = s.supplyHold := logErr_kept.supplyHold rfl
@[simp] theorem logErr_pending {c l d : Nat} : (logErr c l d s).pending = s.pending := logErr_kept.pending

/-! `msix` changes `hostIf`. -/
theorem msix_kept {v : Nat} : Keeps 8589934592 s (msix v s) := msix_keeps rfl (Keeps.refl _ _)
@[simp] theorem msix_variant {v : Nat} : (msix v s).variant = s.variant := msix_kept.variant
@[simp] theorem msix_stepB0 {v : Nat} : (msix v s).stepB0 = s.stepB0 := msix_kept.stepB0
@[simp] theorem msix_now {v : Nat} : (msix v s).now = s.now := msix_kept.now
@[simp] theorem msix_free {v : Nat} : (msix v s).free = s.free := msix_kept.free rfl
@[simp] theorem msix_regs {v : Nat} : (msix v s).regs = s.regs := msix_kept.regs rfl
@[simp] theorem msix_ctrs {v : Nat} : (msix v s).ctrs = s.ctrs := msix_kept.ctrs rfl
@[simp] theorem msix_ctrRc {v : Nat} : (msix v s).ctrRc = s.ctrRc := msix_kept.ctrRc rfl
@[simp] theorem msix_srcs {v : Nat} : (msix v s).srcs = s.srcs := msix_kept.srcs rfl
@[simp] theorem msix_lastRead {v : Nat} : (msix v s).lastRead = s.lastRead := msix_kept.lastRead rfl
@[simp] theorem msix_ports {v : Nat} : (msix v s).ports = s.ports := msix_kept.ports rfl
@[simp] theorem msix_tolger {v : Nat} : (msix v s).tolger = s.tolger := msix_kept.tolger rfl
@[simp] theorem msix_domains {v : Nat} : (msix v s).domains = s.domains := msix_kept.domains rfl
@[simp] theorem msix_topo {v : Nat} : (msix v s).topo = s.topo := msix_kept.topo rfl
@[simp] theorem msix_comb {v : Nat} : (msix v s).comb = s.comb := msix_kept.comb rfl
@[simp] theorem msix_sched {v : Nat} : (msix v s).sched = s.sched := msix_kept.sched rfl
@[simp] theorem msix_tuns {v : Nat} : (msix v s).tuns = s.tuns := msix_kept.tuns rfl
@[simp] theorem msix_brg {v : Nat} : (msix v s).brg = s.brg := msix_kept.brg rfl
@[simp] theorem msix_cmd {v : Nat} : (msix v s).cmd = s.cmd := msix_kept.cmd rfl
@[simp] theorem msix_deep {v : Nat} : (msix v s).deep = s.deep := msix_kept.deep rfl
@[simp] theorem msix_lt {v : Nat} : (msix v s).lt = s.lt := msix_kept.lt rfl
@[simp] theorem msix_diag {v : Nat} : (msix v s).diag = s.diag := msix_kept.diag rfl
@[simp] theorem msix_time {v : Nat} : (msix v s).time = s.time := msix_kept.time rfl
@[simp] theorem msix_otp {v : Nat} : (msix v s).otp = s.otp := msix_kept.otp rfl
@[simp] theorem msix_trig {v : Nat} : (msix v s).trig = s.trig := msix_kept.trig rfl
@[simp] theorem msix_trims {v : Nat} : (msix v s).trims = s.trims := msix_kept.trims rfl
@[simp] theorem msix_tcp {v : Nat} : (msix v s).tcp = s.tcp := msix_kept.tcp rfl
@[simp] theorem msix_svcSink {v : Nat} : (msix v s).svcSink = s.svcSink := msix_kept.svcSink rfl
@[simp] theorem msix_pdTables {v : Nat} : (msix v s).pdTables = s.pdTables := msix_kept.pdTables rfl
@[simp] theorem msix_proxies {v : Nat} : (msix v s).proxies = s.proxies := msix_kept.proxies rfl
@[simp] theorem msix_svcDev {v : Nat} : (msix v s).svcDev = s.svcDev := msix_kept.svcDev rfl
@[simp] theorem msix_heads {v : Nat} : (msix v s).heads = s.heads := msix_kept.heads rfl
@[simp] theorem msix_timings {v : Nat} : (msix v s).timings = s.timings := msix_kept.timings rfl
@[simp] theorem msix_tols {v : Nat} : (msix v s).tols = s.tols := msix_kept.tols rfl
@[simp] theorem msix_dpLine {v : Nat} : (msix v s).dpLine = s.dpLine := msix_kept.dpLine rfl
@[simp] theorem msix_eths {v : Nat} : (msix v s).eths = s.eths := msix_kept.eths rfl
@[simp] theorem msix_etm {v : Nat} : (msix v s).etm = s.etm := msix_kept.etm rfl
@[simp] theorem msix_efuses {v : Nat} : (msix v s).efuses = s.efuses := msix_kept.efuses rfl
@[simp] theorem msix_nurse {v : Nat} : (msix v s).nurse = s.nurse := msix_kept.nurse rfl
@[simp] theorem msix_tests {v : Nat} : (msix v s).tests = s.tests := msix_kept.tests rfl
@[simp] theorem msix_img {v : Nat} : (msix v s).img = s.img := msix_kept.img rfl
@[simp] theorem msix_nor {v : Nat} : (msix v s).nor = s.nor := msix_kept.nor rfl
@[simp] theorem msix_supplyHold {v : Nat} : (msix v s).supplyHold = s.supplyHold := msix_kept.supplyHold rfl
@[simp] theorem msix_pending {v : Nat} : (msix v s).pending = s.pending := msix_kept.pending

end Sys2Proof.Machine
end

