-- ==== Sys2Proof/Laws/Fields.lean ====
section
/-! SUPPORT. What writing a register field does to every field, and to every register. -/
namespace Sys2Proof.Machine

-- One theorem at a time, so that the package as one text compiles within its memory limit.
set_option Elab.async false

variable {s : State}

/-! Registers. -/

@[simp] theorem regGet_regSet_same {k : Nat} {v : Word} : regGet (regSet s k v) k = v := by
  unfold regGet regSet
  exact Tab.get_set_same regReset k v s.regs

theorem regGet_regSet_other {j k : Nat} {v : Word} (h : j ≠ k) : regGet (regSet s k v) j = regGet s j := by
  unfold regGet regSet
  exact Tab.get_set_other regReset h v s.regs

theorem regGet_wr_other {f : Fld} {x j : Nat} (h : j ≠ f.addr) : regGet (wr f x s) j = regGet s j :=
  regGet_regSet_other h

@[simp] theorem regGet_wr_same {f : Fld} {x : Nat} : regGet (wr f x s) f.addr = f.into x (regGet s f.addr) :=
  regGet_regSet_same

/-- Reading a register needs only the registers. -/
theorem regGet_congr {t : State} (h : t.regs = s.regs) (k : Nat) : regGet t k = regGet s k := by
  unfold regGet
  rw [h]

theorem rd_congr {t : State} (h : t.regs = s.regs) (f : Fld) : rd f t = rd f s := by
  unfold rd
  rw [regGet_congr h]

/-! Fields. -/

/-- The three parts of a word about a field. -/
theorem fld_split (lo w v x : Nat) (hx : x < 2 ^ w) (hv : v < 2 ^ 32) (h : lo + w ≤ 32) :
    v / 2 ^ (lo + w) * 2 ^ (lo + w) + x * 2 ^ lo + v % 2 ^ lo < 2 ^ 32 := by
  have h1 : v % 2 ^ lo < 2 ^ lo := Nat.mod_lt _ (Nat.two_pow_pos lo)
  have h2 : x * 2 ^ lo + v % 2 ^ lo < 2 ^ (lo + w) := by
    have : (x + 1) * 2 ^ lo ≤ 2 ^ w * 2 ^ lo := Nat.mul_le_mul_right _ hx
    rw [Nat.add_mul, Nat.one_mul, ← Nat.pow_add, Nat.add_comm w lo] at this
    omega
  have h3 : (2 : Nat) ^ 32 = 2 ^ (32 - (lo + w)) * 2 ^ (lo + w) := by
    rw [← Nat.pow_add]
    congr 1
    omega
  have h4 : v / 2 ^ (lo + w) < 2 ^ (32 - (lo + w)) := by
    rw [Nat.div_lt_iff_lt_mul (Nat.two_pow_pos _), ← h3]
    exact hv
  have h5 : (v / 2 ^ (lo + w) + 1) * 2 ^ (lo + w) ≤ 2 ^ (32 - (lo + w)) * 2 ^ (lo + w) := Nat.mul_le_mul_right _ h4
  rw [Nat.add_mul, Nat.one_mul, ← h3] at h5
  omega

theorem into_toNat {f : Fld} {x : Nat} {v : Word} (h : f.lo + f.w ≤ 32) :
    (f.into x v).toNat =
      v.toNat / 2 ^ (f.lo + f.w) * 2 ^ (f.lo + f.w) + x % 2 ^ f.w * 2 ^ f.lo + v.toNat % 2 ^ f.lo := by
  unfold Fld.into
  rw [BitVec.toNat_ofNat, Nat.mod_eq_of_lt]
  exact fld_split f.lo f.w v.toNat (x % 2 ^ f.w) (Nat.mod_lt _ (Nat.two_pow_pos _)) v.isLt h

/-- A field reads what was put there. -/
theorem of_into_same {f : Fld} {x : Nat} {v : Word} (h : f.lo + f.w ≤ 32) : f.of (f.into x v) = x % 2 ^ f.w := by
  unfold Fld.of
  rw [into_toNat h, Nat.pow_add]
  have h1 : v.toNat % 2 ^ f.lo / 2 ^ f.lo = 0 := Nat.div_eq_of_lt (Nat.mod_lt _ (Nat.two_pow_pos _))
  have e : v.toNat / (2 ^ f.lo * 2 ^ f.w) * (2 ^ f.lo * 2 ^ f.w) + x % 2 ^ f.w * 2 ^ f.lo + v.toNat % 2 ^ f.lo =
      v.toNat % 2 ^ f.lo + 2 ^ f.lo * (x % 2 ^ f.w + 2 ^ f.w * (v.toNat / (2 ^ f.lo * 2 ^ f.w))) := by ring
  rw [e, Nat.add_mul_div_left _ _ (Nat.two_pow_pos _), h1, Nat.zero_add, Nat.add_mul_mod_self_left, Nat.mod_mod]

/-- Another field of the word is left alone. -/
theorem of_into_other {f g : Fld} {x : Nat} {v : Word} (h : f.lo + f.w ≤ 32)
    (d : f.lo + f.w ≤ g.lo ∨ g.lo + g.w ≤ f.lo) : g.of (f.into x v) = g.of v := by
  unfold Fld.of
  rw [into_toNat h]
  rcases d with d | d
  · -- above
    have e1 : v.toNat / 2 ^ (f.lo + f.w) * 2 ^ (f.lo + f.w) + x % 2 ^ f.w * 2 ^ f.lo + v.toNat % 2 ^ f.lo =
        (x % 2 ^ f.w * 2 ^ f.lo + v.toNat % 2 ^ f.lo) + 2 ^ (f.lo + f.w) * (v.toNat / 2 ^ (f.lo + f.w)) := by ring
    have h1 : v.toNat % 2 ^ f.lo < 2 ^ f.lo := Nat.mod_lt _ (Nat.two_pow_pos _)
    have hx : x % 2 ^ f.w < 2 ^ f.w := Nat.mod_lt _ (Nat.two_pow_pos _)
    have h2 : x % 2 ^ f.w * 2 ^ f.lo + v.toNat % 2 ^ f.lo < 2 ^ (f.lo + f.w) := by
      have : (x % 2 ^ f.w + 1) * 2 ^ f.lo ≤ 2 ^ f.w * 2 ^ f.lo := Nat.mul_le_mul_right _ hx
      rw [Nat.add_mul, Nat.one_mul, ← Nat.pow_add, Nat.add_comm f.w f.lo] at this
      omega
    have e2 : (2 : Nat) ^ g.lo = 2 ^ (f.lo + f.w) * 2 ^ (g.lo - (f.lo + f.w)) := by
      rw [← Nat.pow_add]
      congr 1
      omega
    rw [e1, e2, ← Nat.div_div_eq_div_mul, ← Nat.div_div_eq_div_mul, Nat.add_mul_div_left _ _ (Nat.two_pow_pos _),
      Nat.div_eq_of_lt h2, Nat.zero_add]
  · -- below
    have e2 : (2 : Nat) ^ f.lo = 2 ^ g.lo * (2 ^ g.w * 2 ^ (f.lo - (g.lo + g.w))) := by
      rw [← Nat.pow_add, ← Nat.pow_add]
      congr 1
      omega
    have e1 : v.toNat / 2 ^ (f.lo + f.w) * 2 ^ (f.lo + f.w) + x % 2 ^ f.w * 2 ^ f.lo + v.toNat % 2 ^ f.lo =
        v.toNat % 2 ^ f.lo + 2 ^ f.lo * (v.toNat / 2 ^ (f.lo + f.w) * 2 ^ f.w + x % 2 ^ f.w) := by
      rw [Nat.pow_add]
      ring
    have key : ∀ a : Nat, (v.toNat % 2 ^ f.lo + 2 ^ f.lo * a) / 2 ^ g.lo % 2 ^ g.w = v.toNat % 2 ^ f.lo / 2 ^ g.lo % 2 ^ g.w := by
      intro a
      have : v.toNat % 2 ^ f.lo + 2 ^ f.lo * a =
          v.toNat % 2 ^ f.lo + 2 ^ g.lo * (2 ^ g.w * (2 ^ (f.lo - (g.lo + g.w)) * a)) := by
        conv_lhs => rw [show 2 ^ f.lo * a = 2 ^ g.lo * (2 ^ g.w * (2 ^ (f.lo - (g.lo + g.w)) * a)) by rw [e2]; ring]
      rw [this, Nat.add_mul_div_left _ _ (Nat.two_pow_pos _), Nat.add_mul_mod_self_left]
    rw [e1, key, ← key (v.toNat / 2 ^ f.lo), Nat.mod_add_div]

/-- A field reads what was written to it. -/
theorem rd_wr_same {f : Fld} {x : Nat} (h : f.lo + f.w ≤ 32) : rd f (wr f x s) = x % 2 ^ f.w := by
  unfold rd
  rw [regGet_wr_same, of_into_same h]

/-- A field of another register, or another field of the register, is left alone. -/
theorem rd_wr_other {f g : Fld} {x : Nat}
    (d : g.addr ≠ f.addr ∨ (f.lo + f.w ≤ 32 ∧ (f.lo + f.w ≤ g.lo ∨ g.lo + g.w ≤ f.lo))) : rd g (wr f x s) = rd g s := by
  unfold rd
  by_cases ha : g.addr = f.addr
  · rcases d with d | ⟨h, d⟩
    · exact absurd ha d
    · rw [ha, regGet_wr_same, of_into_other h d]
  · rw [regGet_wr_other ha]

/-! Ports and domains. -/

@[simp] theorem lp_setLp_same {n : Nat} {p : LinePort} : lp (setLp n p s) n = p := by
  unfold lp setLp
  exact Tab.get_set_same _ n p s.ports

theorem lp_setLp_other {m n : Nat} {p : LinePort} (h : m ≠ n) : lp (setLp n p s) m = lp s m := by
  unfold lp setLp
  exact Tab.get_set_other _ h p s.ports

@[simp] theorem lp_updLp_same {n : Nat} {f : LinePort → LinePort} : lp (updLp n f s) n = f (lp s n) := lp_setLp_same

theorem lp_updLp_other {m n : Nat} {f : LinePort → LinePort} (h : m ≠ n) : lp (updLp n f s) m = lp s m := lp_setLp_other h

theorem lp_congr {t : State} (h : t.ports = s.ports) (n : Nat) : lp t n = lp s n := by
  unfold lp
  rw [h]

@[simp] theorem dom_setDom_same {d : Nat} {x : Domain} : dom (setDom d x s) d = x := by
  unfold dom setDom
  exact Tab.get_set_same domDefault d x s.domains

theorem dom_setDom_other {c d : Nat} {x : Domain} (h : c ≠ d) : dom (setDom d x s) c = dom s c := by
  unfold dom setDom
  exact Tab.get_set_other domDefault h x s.domains

/-! Sources and counters. -/

@[simp] theorem srcSt_setSrc_same {n : Nat} {x : SrcState} : srcSt (setSrc n x s) n = x := by
  unfold srcSt setSrc
  exact Tab.get_set_same _ n x s.srcs

theorem srcSt_setSrc_other {m n : Nat} {x : SrcState} (h : m ≠ n) : srcSt (setSrc n x s) m = srcSt s m := by
  unfold srcSt setSrc
  exact Tab.get_set_other _ h x s.srcs

/-- A source that fires changes no other source. -/
theorem srcSt_raise_other {m n : Nat} (h : m ≠ n) : srcSt (raise n s) m = srcSt s m := by
  unfold raise
  split
  · rfl
  · split
    · exact srcSt_setSrc_other h
    · split
      · rfl
      · exact srcSt_setSrc_other h
    · rfl

/-- An idle source that may fire is pending once it has fired (R425). -/
theorem srcSt_raise_idle {n : Nat} (ha : srcAlive s n = true) (hi : srcSt s n = .idle) : srcSt (raise n s) n = .pending := by
  unfold raise
  simp [ha, hi]

@[simp] theorem ctrGet_ctrSet_same {a : Nat} {c : Ctr} : ctrGet (ctrSet a c s) a = c := by
  unfold ctrGet ctrSet
  exact Tab.get_set_same _ a c s.ctrs

theorem ctrGet_ctrSet_other {a b : Nat} {c : Ctr} (h : b ≠ a) : ctrGet (ctrSet a c s) b = ctrGet s b := by
  unfold ctrGet ctrSet
  exact Tab.get_set_other _ h c s.ctrs

/-! What reads need only of one part of State. -/

theorem srcSt_congr {t : State} (h : t.srcs = s.srcs) (n : Nat) : srcSt t n = srcSt s n := by
  unfold srcSt
  rw [h]

theorem ctrGet_congr {t : State} (h : t.ctrs = s.ctrs) (a : Nat) : ctrGet t a = ctrGet s a := by
  unfold ctrGet
  rw [h]

theorem dom_congr {t : State} (h : t.domains = s.domains) (d : Nat) : dom t d = dom s d := by
  unfold dom
  rw [h]

theorem tolger_congr {t : State} (h : t.tolger = s.tolger) (n : Nat) (b : Bool) : tolger t n b = tolger s n b := by
  unfold tolger
  rw [h]

@[simp] theorem tolger_setTolger_same {n : Nat} {b : Bool} {d : TolgerDir} : tolger (setTolger n b d s) n b = d := by
  unfold tolger setTolger
  exact Tab.get_set_same _ _ d s.tolger

theorem holdOf_congr {t : State} (h : t.comb = s.comb) (p : Nat) : holdOf t p = holdOf s p := by
  unfold holdOf
  rw [h]

@[simp] theorem holdOf_setHold_same {p : Nat} {l : List Held} : holdOf (setHold p l s) p = l := by
  unfold holdOf setHold updComb
  exact Tab.get_set_same _ p l s.comb.hold

/-- One count more, for a counter that is not saturated (R464, R467). -/
theorem ctrGet_count {a : Nat} (hc : compat s = false) (hs : (ctrGet s a).sat = false) (hv : (ctrGet s a).v + 1 < 2 ^ 64) :
    ctrGet (count a s) a = { v := (ctrGet s a).v + 1, sat := false } := by
  unfold count countBy
  simp only [hc, hs, Bool.false_eq_true, if_false]
  rw [if_pos hv]
  exact ctrGet_ctrSet_same

end Sys2Proof.Machine
end

