-- ==== Sys2Proof/Laws/Frames.lean ====
section
/-! SUPPORT. From `Keeps` to the frames that claims speak of. -/
namespace Sys2Proof.Machine

-- One theorem at a time, so that the package as one text compiles within its memory limit.
set_option Elab.async false

/-- The number that `Keeps` gives a part. -/
def Part.num : Part → Nat
  | .free => 0
  | .regs => 1
  | .ctrs => 2
  | .ctrRc => 3
  | .srcs => 4
  | .lastRead => 5
  | .ports => 6
  | .tolger => 7
  | .domains => 8
  | .topo => 9
  | .comb => 10
  | .sched => 11
  | .tuns => 12
  | .brg => 13
  | .cmd => 14
  | .deep => 15
  | .lt => 16
  | .diag => 17
  | .time => 18
  | .otp => 19
  | .trig => 20
  | .trims => 21
  | .tcp => 22
  | .svcSink => 23
  | .pdTables => 24
  | .proxies => 25
  | .svcDev => 26
  | .heads => 27
  | .timings => 28
  | .tols => 29
  | .dpLine => 30
  | .eths => 31
  | .etm => 32
  | .hostIf => 33
  | .efuses => 34
  | .nurse => 35
  | .tests => 36
  | .img => 37
  | .nor => 38
  | .supplyHold => 39

/-- A part whose bit is not in the mask is the same. -/
theorem Keeps.partSame {m : Nat} {s t : State} (h : Keeps m s t) (p : Part) (hp : m.testBit p.num = false) : p.Same s t := by
  cases p <;> exact part_eq (h.same _ hp)

/-- What a mask allows to change is within the parts named. -/
theorem Keeps.only {m : Nat} {s t : State} {l : List Part} (h : Keeps m s t) (hl : ∀ p : Part, p ∈ l ∨ m.testBit p.num = false) :
    Only l s t :=
  ⟨⟨h.variant, h.stepB0, h.now, h.pending⟩, fun p hp => h.partSame p ((hl p).resolve_left hp)⟩

/-- Every part that a mask lets change is in the list. -/
def covers (m : Nat) (l : List Part) : Bool :=
  [.free, .regs, .ctrs, .ctrRc, .srcs, .lastRead, .ports, .tolger, .domains, .topo, .comb, .sched, .tuns, .brg, .cmd,
    .deep, .lt, .diag, .time, .otp, .trig, .trims, .tcp, .svcSink, .pdTables, .proxies, .svcDev, .heads, .timings,
    .tols, .dpLine, .eths, .etm, .hostIf, .efuses, .nurse, .tests, .img, .nor, .supplyHold].all fun p => l.contains p || !m.testBit p.num

theorem Keeps.onlyOf {m : Nat} {s t : State} {l : List Part} (h : Keeps m s t) (hl : covers m l = true) : Only l s t := by
  refine h.only fun p => ?_
  have := List.all_eq_true.mp hl p (by cases p <;> simp)
  simp only [Bool.or_eq_true, List.contains_iff_mem, Bool.not_eq_true'] at this
  exact this

theorem RegsBut.refl {l : List Nat} {s : State} : RegsBut l s s := fun _ _ => rfl

theorem RegsBut.trans {l : List Nat} {s t u : State} (h : RegsBut l s t) (g : RegsBut l t u) : RegsBut l s u :=
  fun k hk => (g k hk).trans (h k hk)

theorem RegsBut.of_eq {l : List Nat} {s t : State} (h : t.regs = s.regs) : RegsBut l s t := fun k _ => regGet_congr h k

theorem RegsBut.wr {l : List Nat} {s t : State} {f : Fld} {x : Nat} (h : RegsBut l s t) (hf : f.addr ∈ l) : RegsBut l s (wr f x t) :=
  fun k hk => (regGet_wr_other (by rintro rfl; exact hk hf)).trans (h k hk)

end Sys2Proof.Machine
end

