-- ==== Sys2Proof/Tests/Slice0.lean ====
section
/-! SUPPORT. Tests: ill-formed commands are refused, the spec's worked numbers, and one theorem test_hyps_<Name> for each statement
with hypotheses, which shows for every clause a concrete state and operands that meet its hypotheses together. -/

open Sys2Proof Sys2Proof.Machine

namespace Sys2Proof.Tests

-- One theorem at a time, so that the package as one text compiles within its memory limit.
set_option Elab.async false

/-! Small states and operands for the tests: each helper pokes one part of the reset state. -/

/-- Register fields set to values, in a state (State.reset by default). -/
def R (l : List (Fld × Nat)) (s : State := State.reset) : State := l.foldl (fun s e => wr e.1 e.2 s) s
/-- `n` bytes, zero but for fields (offset, length, value), most significant byte first. -/
def bd (n : Nat) (l : List (Nat × Nat × Nat)) : List Byte :=
  l.foldl (fun b e => b.take e.1 ++ beBytes e.2.1 e.2.2 ++ b.drop (e.1 + e.2.1)) (List.replicate n 0)
def o0 : Origin := { ep := .host, att := .hspi, op := 0, tag := 0, flags := 0, session := 0, seq := 0, target := 0, source := 0, src := 0, tun := 0, xpr := false, v1 := false, bcast := false, inPort := none }
def c0 : Cell := { dst := 0, src := 0, tun := 0, tc := 0, typ := 0, f := true, l := true, vlen := 64, xpr := false, ver := 0, payload := [] }
def h0 : Held := { cell := c0, xseq := none, charged := false, policed := false, forced := none }
def q0 : QEnt := { addr := 0, stamp := 0, inp := 0, xc := false, xseq := 0, refill := false, charged := false, policed := true, cell := c0 }
def d0 : RegDesc := (regDesc 0x00000004).getD ⟨0, 1, 4, 0, 0, 0, 0, 0, 0, 0, false⟩
def S0 : State := State.reset
def L (p : Nat) (f : LinePort → LinePort) (s : State := State.reset) : State := updLp p f s
def Tx (p : Nat) (f : TxLink → TxLink) (s : State := State.reset) : State := updTx p f s
def Rx (p : Nat) (f : RxLink → RxLink) (s : State := State.reset) : State := updRx p f s
def D (d : Nat) (st : DomSt) (s : State := State.reset) : State := setDom d (Domain.reset st) s
def E (t i e : Nat) (s : State := State.reset) : State := setTbl t { tbl s t with active := Tab.set zeroN i e (tbl s t).active } s
def t0 : TxEnt := { seq := 0, xseq := 0, ent := q0, isVoid := false }
def xc0 : Cell := { c0 with xpr := true, ver := 1 }
def W0 : State := updBrg (fun z => { z with windows := [(0, ⟨0xE0C00005, 0, 0⟩)] }) (E 2 5 0x8400004000000000 (R [(Reg.BRG.CFG.IEN, 1)]))
def A0 : State := D 0x11 .inService (updBrg (fun z => { z with apertures := [(0, ⟨0xE0C00000, 0, 0⟩)] }) (R [(Reg.BRG.CFG.TEN, 1)]))
def Ts : State := D 0x14 .inService (R [(Reg.PCE.STAT.LINKUP, 1), (Reg.PCR.STAT.LINKUP, 1)])
def f0 : Frame := { dst := 0, src := 7, tun := 9, tc := 0, typ := 4, xpr := false, ctx := 0, inPort := none, bcast := false, bytes := [] }
def F (l : List Byte) : Frame := { f0 with bytes := l }
def rt (tag : Nat) (r : Reader) : ReadTag := ⟨tag, 0, 4, 0, 0, 5, 1, r⟩
def bh (wr : Bool) (dom : Nat) (a : Nat) : BrgHeld := ⟨wr, 7, 9, 0, 3, a, 4, [1, 2, 3, 4], dom⟩
def lt0 (n : Nat) : LocalTxn := ⟨5, n, false, 0, 4, [], .cmd o0⟩
def Tu : State := D 0x12 .inService (D 0x16 .inService)
def P (t : Nat) (f : TcPort → TcPort) (s : State := Tu) : State := updTcp t f s
def te (left : Option Nat) : TrigEnt := ⟨400, 1, 2, left, []⟩
def s0 : Session := ⟨32, .host, 0, 0xFFFF, true, 0, 0x3FFF, 2 ^ 64 - 1, [], 5, [], 0, false⟩
def rg0 : Ring := ⟨1, 0x2000, 3, 1, 0x81, 2, 15, 16, none⟩
def de0 (w : Bool) (f : Nat) : Desc := ⟨15, 0x8000, 4, bd 8 [], 2, f, bd 8 [], w⟩
def Px (x : Ring) : State :=
  deepWrites 0x20E0 (leBytes 4 0x8000 ++ leBytes 4 4 ++ bd 8 [] ++ [2] ++ bd 15 [])
    (setProxy 1 { Proxy.reset with base := 0x1000, rings := [(63, x)], evBase := 0x10000, evSize := 4 }
      (D 0x11 .inService (R [(Reg.USB.PRX_STAT.RUN 1, 1), (Reg.DCM.RGN.CUR 2, 0), (Reg.DCM.RGN.CUR 3, 256)] Tu)))
def Hd (f : Head → Head) : State := updHead 1 f (D 0x15 .inService (D 0x11 .inService))
def wrAll (l : List Fld) (v : Nat) (s : State) : State := l.foldl (fun s e => wr e v s) s
def Sl : State := { (forAll (presentDies S0) (fun k z => D (0x10 + k) .off z) (wrAll [Reg.HLP.CFG.EN 0, Reg.HLP.CFG.EN 1, Reg.HLP.CFG.EN 2, Reg.HLP.CFG.EN 3] 0 (R [(Reg.NRS.CLKCTL.ALLOW_SBY, 1), (Reg.NRS.CLKCTL.ALLOW_NAP, 1), (Reg.DCM.SR.STATE, 2), (Reg.GLB.STRAP.ROLE, 0), (Reg.IMG.STAT.PHASE, 0)]))) with img := { S0.img with stage := 2 } }
def Im (f : Img → Img) (s : State := S0) : State := updImg f s
def I2 : State := Im fun z => { z with stage := 2 }
def ac0 : Activation := ⟨1, true, 5, 600, [], [], none, 0, false, 0, false⟩
def nextOf (o : Host.Outcome State Fault Refusal) : State := match o with | .next t => t | _ => State.reset
theorem get_of_all {α : Type} (d : Nat → α) (p : α → Bool) (t : Tab α) (k : Nat) (hd : p (d k) = true) (h : t.all (fun e => p e.2) = true) :
    p (Tab.get d t k) = true := by
  induction t with
  | nil => exact hd
  | cons e l ih =>
    simp only [List.all_cons, Bool.and_eq_true] at h
    unfold Tab.get
    split
    · exact h.1
    · exact ih h.2
theorem tcReady_of {t : Nat} {s : State} (h : tuWorks s (t / 4) = true) (hb : s.tcp.all (fun e => !e.2.blocked) = true) : TcReady t s :=
  ⟨h, fun q => by simpa [tcp] using get_of_all (fun _ => TcPort.reset) (fun z => !z.blocked) s.tcp q (by decide) hb⟩
theorem next_of {o : Host.Outcome State Fault Refusal} (h : (match o with | .next _ => true | _ => false) = true) : o = .next (nextOf o) := by
  unfold nextOf; split at h <;> simp_all
def x9 : LogEnt := ⟨1, 0, false, 0, 0, 0⟩
def blkOf (n : Byte) : List Byte := List.replicate 4092 n
def blk1 : List Byte := blkOf 7 ++ leBytes 4 (crc32c (blkOf 7))
def blk2 : List Byte := blkOf 7 ++ (leBytes 4 (crc32c (blkOf 7))).map (· + 1)
theorem blkOf_length {n : Byte} : (blkOf n).length = 4092 := List.length_replicate
theorem blk1_length : blk1.length = 4096 := by simp [blk1, blkOf_length, leBytes]
theorem blk2_length : blk2.length = 4096 := by simp [blk2, blkOf_length, leBytes]
theorem blk1_good : blockGood blk1 = true := by
  unfold blockGood
  rw [blk1_length]
  simp [blk1, List.drop_left' blkOf_length, List.take_left' blkOf_length]
theorem blk2_bad : blockGood blk2 = false := by
  unfold blockGood
  rw [blk2_length]
  simp only [blk2, List.drop_left' blkOf_length, List.take_left' blkOf_length, beq_self_eq_true, Bool.true_and]
  generalize crc32c (blkOf 7) = c
  simp [leBytes]
def ethFull (l : List Byte) : State := R [(Reg.ETH.STAT.LINK 5, 1)] (D 0x13 .inService (updEth 5 (fun z => { z with buf := [(1, l)] }) S0))
theorem ethFull_buf {l : List Byte} : (eth (ethFull l) 5).buf = [(1, l)] := rfl
theorem ethFull_full {l : List Byte} (hl : l.length = 262081) : ethBuffer (5 : Fin 12).val < ethOcc (ethFull l) (5 : Fin 12).val + (bd 60 [] ++ fcsOf (bd 60 [])).length := by
  rw [show (5 : Fin 12).val = 5 from rfl]
  have h : (bd 60 [] ++ fcsOf (bd 60 [])).length = 64 := by decide
  unfold ethOcc
  rw [ethFull_buf, h]
  simp only [List.foldl_cons, List.foldl_nil, hl, ethBuffer]
  split <;> omega

/-! Ill-formed commands are refused, one for each check of Sys2Proof/WellFormed.lean. -/

theorem test_short_cell_slot_refused :
    (Instr.cellReceive 3 []).wellFormed = false ∧ exec (.cellReceive 3 []) State.reset = .fault (.illFormed "CELL_RECEIVE") := ⟨by decide, rfl⟩
theorem test_short_os_slot_refused :
    (Instr.osSlotReceive 3 [0]).wellFormed = false ∧
      exec (.osSlotReceive 3 [0]) State.reset = .fault (.illFormed "OS_SLOT_RECEIVE") := ⟨by decide, rfl⟩
theorem test_window_part_across_page_refused :
    (Instr.windowRequest false 0xFFE 4 [] 0).wellFormed = false ∧
      exec (.windowRequest false 0xFFE 4 [] 0) State.reset = .fault (.illFormed "WINDOW_REQUEST") := ⟨by decide, rfl⟩
theorem test_bar2_write_without_its_bytes_refused :
    (Instr.bar2Request true 0 4 [1, 2, 3] 0).wellFormed = false ∧
      exec (.bar2Request true 0 4 [1, 2, 3] 0) State.reset = .fault (.illFormed "BAR2_REQUEST") := ⟨by decide, rfl⟩

/-! The spec's own numbers and examples. -/

/-- R97: the check value over the ASCII string "123456789". -/
theorem test_crc32c_check_value : crc32c [0x31, 0x32, 0x33, 0x34, 0x35, 0x36, 0x37, 0x38, 0x39] = 0xE3069283 := by decide +kernel
/-- The relayed register write of chapter 10: the header of its one cell. -/
theorem test_cell_header_of_relayed_write :
    cellHeader { dst := 0x0123, src := 1, tun := 0, tc := 6, typ := 1, f := true, l := true, vlen := 32, xpr := false, ver := 2, payload := [] } =
      0x048C00100030E802 := by decide +kernel
/-- The same example: the fields of the command's 16 header bytes. -/
theorem test_command_header_of_relayed_write :
    let o := originOf (carrier .host .hspi) [0x24, 0x01, 0x11, 0x00, 0x00, 0x08, 0x01, 0x23, 0x00, 0x00, 0x00, 0x05, 0x00, 0x00, 0x00, 0x2A] false
    o.op = 1 ∧ o.tag = 0x11 ∧ o.flags = 4 ∧ o.session = 5 ∧ o.seq = 0x2A ∧ o.target = 0x0123 ∧ o.source = 0 := by decide +kernel
/-- The example of R17: 0x6030_0040 is slot S3, block 0x003, offset 0x40. -/
theorem test_address_fields : addrSlot 0x60300040 = 3 ∧ addrBlk 0x60300040 = 3 ∧ addrOff 0x60300040 = 0x40 := by decide +kernel
/-- The example of chapter 11: GLB.CAP of an MLH8-E6, its absent slot S7, and slot S1, which holds no block. -/
theorem test_addresses_of_an_E6 :
    glbCap { State.reset with variant := .e6 } = 0x033F4800 ∧ badAddr 0x60400010 = false ∧
      accStat { State.reset with variant := .e6 } 0xE0400010 = ST_NO_DIE ∧ badAddr 0x20000000 = true := by decide +kernel
def seeds0 : List (List Byte) := [[0, 1, 0, 0x0F, 0, 0x1F, 1, 0], [0x40, 0x10, 0x3F, 0xFD, 0, 0x1F, 5, 0], [0x80, 0x10, 0x3F, 0xFD, 1, 0x1F, 3, 0]]
/-- The seeds of node 0x0123 under R136. -/
theorem test_route_seeds :
    rtePORT (expandOne 0x123 seeds0 0x100) = 0 ∧ rteDIST (expandOne 0x123 seeds0 0x100) = 35 ∧ rtePORT (expandOne 0x123 seeds0 0x200) = 1 ∧
      rteDIST (expandOne 0x123 seeds0 0x200) = 221 ∧ rteDIST (expandOne 0x123 seeds0 5) = 16383 ∧ rteV (expandOne 0x123 seeds0 0x123) = false := by
  decide +kernel
/-- The policer of chapter 6: frame 27 is green and takes the tokens to -864 bytes, frames 28 and 29 are red, frame 30 is green. -/
theorem test_policer_example :
    let x : Shaper := ⟨0x800003E8, 0x18000040, 160 * 8000, 0⟩
    let y := charge State.reset x 1024
    permits State.reset x = true ∧ y.tokens = -864 * 8000 ∧ permits { State.reset with now := 3200 } y = false ∧
      permits { State.reset with now := 6400 } y = false ∧ permits { State.reset with now := 9600 } y = true ∧
      (charge { State.reset with now := 9600 } y 1024).tokens = -688 * 8000 := by decide +kernel
/-- The example of chapter 8: a 64-byte frame with a timestamp wraps to 76 bytes, one cell. -/
theorem test_ethernet_wrap :
    ((frameCells 5 1 9 0 5 false (ethWrap true false 0 none 7 (bd 64 []))).map fun c => c.vlen) = [76] := by decide +kernel
/-- The example of chapter 8: 528 bytes are 5 cells, the last with VLEN 64. -/
theorem test_bridge_write_cells : ((frameCells 0x123 1 0x801 5 4 false (bd 528 [])).map fun c => c.vlen) = [116, 116, 116, 116, 64] := by
  decide +kernel

/-! Witnesses that rest on an uninterpreted function (notes/assumptions/8). -/

def grant0 : List Byte := bd 136 [(0, 1, 1), (1, 1, 0x0A), (6, 2, 0xFFFF)]
def Gs (l : List Session) : State :=
  updCmd (fun z => { z with lkey := [(0, 1)], sessions := l }) { S0 with otp := { S0.otp with st := [(4, 1)], hash := [(4, keyHash (((grant0.take 128).drop 32).take 32))] } }
theorem grant0_ok {l : List Session} (h : ∀ pub sig m, Config.ed25519 pub sig m = true) : grantOk (Gs l) o0 (grant0.take 128) = true := by
  have e : ownerKey (Gs l) (field (grant0.take 128) 26 1) (((grant0.take 128).drop 32).take 32) = true := by
    have f : field (grant0.take 128) 26 1 = 0 := by decide +kernel
    unfold ownerKey
    rw [f]
    simp only [Bool.and_eq_true]
    exact ⟨⟨rfl, rfl⟩, beq_iff_eq.2 rfl⟩
  unfold grantOk
  simp only [Bool.and_eq_true]
  have a : ownAddr (Gs l) = ownAddr S0 := rfl
  have q : rd Reg.TIM.STAT.QSTATE (Gs l) = rd Reg.TIM.STAT.QSTATE S0 := rfl
  have n : lineNs (Gs l) = lineNs S0 := rfl
  rw [a, q, n]
  refine ⟨⟨⟨?_, e⟩, h _ _ _⟩, ?_⟩ <;> decide +kernel

/-! An image of two blocks with a good seal. -/

def tabOf (a : Nat) (l : List Byte) : Tab Byte := (l.zipIdx a).map fun e => (e.2, e.1)
theorem get_tabOf {d : Nat → Byte} {l : List Byte} {a i : Nat} : Tab.get d (tabOf a l) (a + i) = if h : i < l.length then l[i] else d (a + i) := by
  induction l generalizing a i with
  | nil => simp [tabOf, Tab.get]
  | cons x l ih =>
    simp only [tabOf, List.zipIdx_cons, List.map_cons, Tab.get]
    cases i with
    | zero => simp
    | succ i =>
      rw [if_neg (by omega), show a + (i + 1) = a + 1 + i by omega]
      have := ih (a := a + 1) (i := i)
      simp only [tabOf] at this
      rw [this]
      simp
theorem get_tabOf_low {d : Nat → Byte} {l : List Byte} {a k : Nat} (h : k < a) : Tab.get d (tabOf a l) k = d k := by
  induction l generalizing a with
  | nil => rfl
  | cons x l ih =>
    simp only [tabOf, List.zipIdx_cons, List.map_cons, Tab.get]
    rw [if_neg (by omega)]
    exact ih (by omega)
theorem getMany_tabOf {d : Nat → Byte} {l : List Byte} {a k n : Nat} (h : k + n ≤ l.length) :
    Tab.getMany d (tabOf a l) (a + k) n = (l.drop k).take n := by
  apply List.ext_getElem
  · simp [Tab.getMany]; omega
  · intro i h1 h2
    simp only [Tab.getMany, List.length_map, List.length_range] at h1
    simp only [Tab.getMany, List.getElem_map, List.getElem_range, List.getElem_take, List.getElem_drop]
    rw [show a + k + i = a + (k + i) by omega, get_tabOf, dif_pos (by omega)]
def img0 : List Byte := sealed (bd 12 [(8, 4, 2)] ++ List.replicate 4080 0)
def seal0 : List Byte := sealed (bd 40 [(0, 4, 0x4B5A5253), (4, 1, 1), (5, 1, 1)] ++ sha img0 ++ List.replicate 3988 0)
def Is : State :=
  { S0 with nor := tabOf 0x10000 (img0 ++ seal0), otp := { S0.otp with st := [(4, 1)], hash := [(4, BitVec.ofNat 256 (beNat ((sha (List.replicate 32 0)).take 32)))] } }
theorem sealed_good {l : List Byte} : (sealed l).drop ((sealed l).length - 4) = leBytes 4 (crc32c ((sealed l).take ((sealed l).length - 4))) := by
  have h : (sealed l).length - 4 = l.length := by simp [sealed, leBytes]
  rw [h, sealed, List.drop_left, List.take_left]
theorem img0_length : img0.length = 4096 := by
  have h : (bd 12 [(8, 4, 2)]).length = 12 := by decide
  rw [img0, sealed, List.length_append, List.length_append, leBytes_length, h, List.length_replicate]
theorem seal0_length : seal0.length = 4096 := by
  have h : (bd 40 [(0, 4, 0x4B5A5253), (4, 1, 1), (5, 1, 1)]).length = 40 := by decide
  rw [seal0, sealed, sha, List.length_append, List.length_append, List.length_append, leBytes_length, h, beBytes_length, List.length_replicate]
theorem Is_reads {k n : Nat} (h : k + n ≤ 8192) : norReads Is (0x10000 + k) n = ((img0 ++ seal0).drop k).take n :=
  getMany_tabOf (by rw [List.length_append, img0_length, seal0_length]; exact h)
theorem Is_blank {a n : Nat} (h : a + n ≤ 0x10000) : norReads Is a n = List.replicate n 0xFF := by
  apply List.ext_getElem
  · simp [norReads, Tab.getMany]
  · intro i h1 h2
    simp only [norReads, Tab.getMany, List.length_map, List.length_range] at h1
    simp only [norReads, Tab.getMany, List.getElem_map, List.getElem_range, List.getElem_replicate]
    exact get_tabOf_low (by omega)
theorem blank_magic : ¬ field (List.replicate 256 (0xFF : Byte)) 0 4 = 0x4C483842 := by decide +kernel
theorem bootCopy_none {s : State} {k : Nat} (h : ¬ field (norReads s (0x8000 * k) 256) 0 4 = 0x4C483842) : bootCopy s k = none := by
  unfold bootCopy
  exact if_neg fun x => h x.1
theorem bootNow_none {s : State} (h0 : bootCopy s 0 = none) (h1 : bootCopy s 1 = none) :
    bootNow s = { gen := 0, act := 0, trial := 0, sta := 0, stb := 0, window := 0 } := by
  unfold bootNow
  rw [h0, h1]
theorem Is_copy {k : Nat} (h : k < 2) : bootCopy Is k = none :=
  bootCopy_none (by rw [Is_blank (by omega)]; exact blank_magic)
theorem Is_boot : bootNow Is = { gen := 0, act := 0, trial := 0, sta := 0, stb := 0, window := 0 } :=
  bootNow_none (Is_copy (by omega)) (Is_copy (by omega))
def hdr0 : List Byte := bd 40 [(0, 4, 0x4B5A5253), (4, 1, 1), (5, 1, 1)]
theorem hdr0_length : hdr0.length = 40 := by decide
theorem Is_content {c n : Nat} (h : c + n ≤ 4092) : content Is 0 c n = norReads Is (0x10000 + c) n := by
  apply List.ext_getElem
  · simp [content, norReads, Tab.getMany]
  · intro i h1 h2
    simp only [content, List.length_map, List.length_range] at h1
    simp only [content, norReads, Tab.getMany, List.getElem_map, List.getElem_range, norByte]
    rw [Nat.div_eq_of_lt (by omega), Nat.mod_eq_of_lt (by omega)]
    simp [imgBase, Nat.add_assoc]
theorem Is_nblk : imgNblk Is 0 = 2 := by
  unfold imgNblk
  rw [Is_content (by omega), Is_reads (by omega)]
  decide +kernel
theorem Is_block0 : norReads Is 0x10000 4096 = img0 := by
  have := Is_reads (k := 0) (n := 4096) (by omega)
  rw [List.drop_zero, List.take_left' img0_length] at this
  exact this
theorem Is_block1 {n : Nat} (h : n ≤ 4096) : norReads Is (0x10000 + 4096) n = seal0.take n := by
  rw [Is_reads (by omega), List.drop_left' img0_length]
theorem norSealed_of {s : State} {a n : Nat} {l : List Byte} (h : norReads s a n = sealed l) (hn : (sealed l).length = n) : norSealed s a n = true := by
  subst hn
  unfold norSealed
  rw [h]
  exact beq_iff_eq.2 sealed_good
theorem Is_blocks : blocksGood Is 0 = true := by
  unfold blocksGood
  rw [Is_nblk]
  have h0 : norSealed Is (imgBase 0 + 4096 * 0) 4096 = true := norSealed_of Is_block0 img0_length
  have h1 : norSealed Is (imgBase 0 + 4096 * 1) 4096 = true :=
    norSealed_of ((Is_block1 (by omega)).trans (List.take_of_length_le (by rw [seal0_length]))) seal0_length
  simp only [List.all_eq_true, Bool.and_eq_true, List.mem_range]
  refine ⟨by decide, fun i hi => ?_⟩
  match i, hi with
  | 0, _ => exact h0
  | 1, _ => exact h1
theorem Is_seal : sealBlock Is 0 = hdr0 ++ (sha img0 ++ List.replicate 3988 0) := by
  unfold sealBlock
  rw [Is_nblk]
  refine (Is_block1 (by omega)).trans ?_
  have e : seal0 = (hdr0 ++ (sha img0 ++ List.replicate 3988 0)) ++ leBytes 4 (crc32c (hdr0 ++ sha img0 ++ List.replicate 3988 0)) := by
    rw [← List.append_assoc hdr0]; rfl
  rw [e]
  exact List.take_left' (by rw [List.length_append, List.length_append, hdr0_length, show (sha img0).length = 64 from beBytes_length, List.length_replicate])
theorem sha_length {l : List Byte} : (sha l).length = 64 := beBytes_length
theorem Is_zero : zeroAt (hdr0 ++ (sha img0 ++ List.replicate 3988 0)) 168 3924 = true := by
  unfold zeroAt
  rw [List.drop_append, List.drop_append, hdr0_length, sha_length, List.drop_of_length_le (by rw [hdr0_length]; omega),
    List.drop_of_length_le (by rw [sha_length]; omega), List.nil_append, List.nil_append, List.drop_replicate, List.all_eq_true]
  exact fun b hb => beq_iff_eq.2 (List.eq_of_mem_replicate (List.mem_of_mem_take hb))
theorem Is_sealGood (h : ∀ pub sig m, Config.ed25519 pub sig m = true) : sealGood Is 0 = true := by
  unfold sealGood
  rw [Is_seal, Is_nblk]
  have hs : norReads Is (imgBase 0) (4096 * (2 - 1)) = img0 := Is_block0
  have ht : ((hdr0 ++ (sha img0 ++ List.replicate 3988 0)).drop 40).take 64 = sha img0 := by
    rw [List.drop_left' hdr0_length, List.take_left' sha_length]
  have hp : ((hdr0 ++ (sha img0 ++ List.replicate 3988 0)).drop 8).take 32 = List.replicate 32 0 := by decide +kernel
  have hk : keyGood Is (field (hdr0 ++ (sha img0 ++ List.replicate 3988 0)) 5 1) (field (hdr0 ++ (sha img0 ++ List.replicate 3988 0)) 6 1)
      (((hdr0 ++ (sha img0 ++ List.replicate 3988 0)).drop 8).take 32) = true := by
    have f5 : field (hdr0 ++ (sha img0 ++ List.replicate 3988 0)) 5 1 = 1 := by decide +kernel
    have f6 : field (hdr0 ++ (sha img0 ++ List.replicate 3988 0)) 6 1 = 0 := by decide +kernel
    rw [f5, f6, hp]
    unfold keyGood
    simp only [Bool.and_eq_true]
    exact ⟨⟨by decide +kernel, by decide +kernel⟩, beq_iff_eq.2 rfl⟩
  simp only [Bool.and_eq_true, hs]
  exact ⟨⟨⟨⟨by decide +kernel, Is_zero⟩, beq_iff_eq.2 ht⟩, h _ _ _⟩, hk⟩
theorem Is_bootSlot (h : ∀ pub sig m, Config.ed25519 pub sig m = true) : bootSlot Is = some (0, false) := by
  unfold bootSlot
  rw [Is_boot]
  exact if_pos (by unfold imgValid; rw [Is_blocks, Is_sealGood h]; rfl)

def rec0 : List Byte := beBytes 4 0x4C483842 ++ beBytes 4 2 ++ [0, 0, 4, 3, 0, 0] ++ List.replicate 238 0
def bad0 : Tab Byte := tabOf (imgBase 1 + 6) [2] ++
  tabOf (imgBase 1 + 64) (bd 16 [(2, 1, 1), (8, 4, 128), (12, 4, 16)] ++ bd 16 [(0, 1, 1), (2, 1, 1)]) ++
  tabOf (imgBase 1 + 128) (bd 16 [(0, 2, 1), (4, 4, 8), (8, 1, 1), (10, 2, 0x200), (12, 2, 0x300)])
/-- S1's boot record says that slot B is verified; `u` lists what lies above. -/
def Bs (u : Tab Byte) : State := { I2 with nor := tabOf 0 (sealed rec0) ++ u }
theorem get_tabOf_append {d : Nat → Byte} {l : List Byte} {u : Tab Byte} {a i : Nat} :
    Tab.get d (tabOf a l ++ u) (a + i) = if h : i < l.length then l[i] else Tab.get d u (a + i) := by
  induction l generalizing a i with
  | nil => simp [tabOf]
  | cons x l ih =>
    simp only [tabOf, List.zipIdx_cons, List.map_cons, List.cons_append, Tab.get]
    cases i with
    | zero => simp
    | succ i =>
      rw [if_neg (by omega), show a + (i + 1) = a + 1 + i by omega]
      have := ih (a := a + 1) (i := i)
      simp only [tabOf] at this
      rw [this]
      simp
theorem rec0_length : (sealed rec0).length = 256 := by
  rw [sealed, rec0, List.length_append, leBytes_length, List.length_append, List.length_replicate]; decide
theorem Bs_reads {u : Tab Byte} : norReads (Bs u) (0x8000 * 0) 256 = sealed rec0 := by
  apply List.ext_getElem
  · rw [rec0_length]; simp [norReads, Tab.getMany]
  · intro i h1 h2
    simp only [norReads, Tab.getMany, List.getElem_map, List.getElem_range]
    have := get_tabOf_append (d := norDefault) (l := sealed rec0) (u := u) (a := 0) (i := i)
    rw [Nat.zero_add] at this
    simp only [Nat.mul_zero, Nat.zero_add]
    exact this.trans (dif_pos h2)
theorem Bs_blank {u : Tab Byte} (hu : ∀ k, k < 0x10000 → Tab.get norDefault u k = 0xFF) : norReads (Bs u) (0x8000 * 1) 256 = List.replicate 256 0xFF := by
  apply List.ext_getElem
  · rw [norReads, Tab.getMany, List.length_map, List.length_range, List.length_replicate]
  · intro i h1 h2
    simp only [norReads, Tab.getMany, List.length_map, List.length_range] at h1
    simp only [norReads, Tab.getMany, List.getElem_map, List.getElem_range, List.getElem_replicate]
    have := get_tabOf_append (d := norDefault) (l := sealed rec0) (u := u) (a := 0) (i := 0x8000 * 1 + i)
    rw [Nat.zero_add] at this
    rw [dif_neg (by rw [rec0_length]; omega)] at this
    exact this.trans (hu _ (by omega))
theorem bootCopy_some {s : State} {k : Nat} (h : field (norReads s (0x8000 * k) 256) 0 4 = 0x4C483842) (hs : norSealed s (0x8000 * k) 256 = true) :
    bootCopy s k = some {
      gen := field (norReads s (0x8000 * k) 256) 4 4, act := field (norReads s (0x8000 * k) 256) 8 1 % 2,
      trial := field (norReads s (0x8000 * k) 256) 9 1 % 2, sta := field (norReads s (0x8000 * k) 256) 10 1 % 8,
      stb := field (norReads s (0x8000 * k) 256) 11 1 % 8, window := field (norReads s (0x8000 * k) 256) 12 2 } := by
  unfold bootCopy
  exact if_pos ⟨h, hs⟩
theorem rec0_fields : field (sealed rec0) 0 4 = 0x4C483842 ∧ field (sealed rec0) 4 4 = 2 ∧ field (sealed rec0) 8 1 = 0 ∧
    field (sealed rec0) 9 1 = 0 ∧ field (sealed rec0) 10 1 = 4 ∧ field (sealed rec0) 11 1 = 3 ∧ field (sealed rec0) 12 2 = 0 := by decide +kernel
theorem Bs_copy {u : Tab Byte} : bootCopy (Bs u) 0 = some { gen := 2, act := 0, trial := 0, sta := 4, stb := 3, window := 0 } := by
  have h := rec0_fields
  have e := bootCopy_some (s := Bs u) (k := 0) (by rw [Bs_reads]; exact h.1) (norSealed_of Bs_reads rec0_length)
  rw [e, Bs_reads, h.2.1, h.2.2.1, h.2.2.2.1, h.2.2.2.2.1, h.2.2.2.2.2.1, h.2.2.2.2.2.2]
theorem bootNow_first {s : State} {a : BootRec} (h0 : bootCopy s 0 = some a) (h1 : bootCopy s 1 = none) : bootNow s = a := by
  unfold bootNow
  rw [h0, h1]
theorem Bs_boot {u : Tab Byte} (hu : ∀ k, k < 0x10000 → Tab.get norDefault u k = 0xFF) : (bootNow (Bs u)).st 1 = SL_VERIFIED := by
  rw [bootNow_first Bs_copy (bootCopy_none (by rw [Bs_blank hu]; exact blank_magic))]
  rfl
theorem bad0_low {k : Nat} (h : k < 0x10000) : Tab.get norDefault bad0 k = 0xFF := by
  have low : ∀ (t : Tab Byte), t.all (fun e => 0x10000 ≤ e.1) = true → Tab.get norDefault t k = 0xFF := by
    intro t
    induction t with
    | nil => intro _; rfl
    | cons e t ih =>
      intro ht
      simp only [List.all_cons, Bool.and_eq_true, decide_eq_true_eq] at ht
      unfold Tab.get
      rw [if_neg (by omega)]
      exact ih ht.2
  exact low bad0 (by decide +kernel)
def hsp : List Byte := bd 16 [(0, 1, 0x24), (2, 1, 63), (10, 2, 32), (12, 4, 5)]
def hsp6 : List Byte := bd 16 [(0, 1, 0x24), (2, 1, 63), (10, 2, 32), (12, 4, 6)]
def Hs : State := R [(Reg.CMD.STAT.HOSTSEL, 0)] (updCmd (fun z => { z with sessions := [s0] }) State.reset)
theorem macOf_length {k h b : List Byte} : (macOf k h b).length = 8 := by
  simp [macOf, beBytes_length]
theorem mac_good {l m : List Byte} (h : l.length = 16) (hm : m = macOf s0.key l []) : macGood s0 (l ++ m) 0 = true := by
  rw [hm]
  unfold macGood
  rw [List.take_left' h, List.take_zero, List.drop_left' h]
  exact beq_iff_eq.2 (List.take_of_length_le (by rw [macOf_length])).symm
theorem mac_bad {l m : List Byte} (h : l.length = 16) (hm : m = (macOf s0.key l []).map (· + 1)) : macGood s0 (l ++ m) 0 = false := by
  rw [hm]
  unfold macGood
  rw [List.take_left' h, List.take_zero, List.drop_left' h, List.take_of_length_le (by rw [List.length_map, macOf_length])]
  have hl := macOf_length (k := s0.key) (h := l) (b := [])
  match macOf s0.key l [], hl with
  | b :: _, _ => simp
@[irreducible] def bigBuf : List Byte := List.replicate 262081 0
theorem bigBuf_length : bigBuf.length = 262081 := by unfold bigBuf; exact List.length_replicate

@[irreducible] def allTags : List ReadTag := (List.range 1024).map fun i => rt i (.bar2 0)
def Ws : State := updBrg (fun z => { z with reads := allTags }) W0
theorem allTags_any {t : Nat} (ht : t ∈ List.range 1024) : allTags.any (fun r => r.tag == t) = true := by
  unfold allTags
  rw [List.any_map]
  exact List.any_eq_true.2 ⟨t, ht, beq_iff_eq.2 rfl⟩
theorem tags_full : freeReadTag Ws = none := by
  unfold freeReadTag
  rw [List.head?_eq_none_iff, List.filter_eq_nil_iff]
  intro t ht
  rw [show Ws.brg.reads = allTags from rfl, allTags_any ht]
  exact Bool.false_ne_true

/-! The hypotheses of the statements can be met. -/

theorem test_hyps_StepTakesTheFront :
    (∃ c : Instr, ∃ rest : List Instr, ∃ s : State, s.pending = c :: rest) ∧
    (∃ s : State, s.pending = []) :=
  ⟨⟨.nop o0 [], [.prbsLock 3], { State.reset with pending := (.nop o0 []) :: ([.prbsLock 3]) }, by decide +kernel⟩,
   ⟨State.reset, by decide +kernel⟩⟩

theorem test_hyps_CommandsCompleteIffWellFormed :
    (∃ i : Instr, i.wellFormed = true) ∧
    (∃ i : Instr, i.wellFormed = false) ∧
    (∃ s : State, (∀ i ∈ s.pending, i.wellFormed = true)) :=
  ⟨⟨.nop o0 [], by decide +kernel⟩,
   ⟨.cellReceive 3 [], by decide +kernel⟩,
   ⟨{ State.reset with pending := [.nop o0 [], .wake 3] }, by decide +kernel⟩⟩

theorem test_hyps_EveryCommandHasItsFrame :
    ∃ i : Instr, ∃ s : State, ∃ t : State, exec i s = .next t :=
  ⟨.wake 3, R [(Reg.HLP.STAT.LSTATE 3, 5)], nextOf (exec (.wake 3) (R [(Reg.HLP.STAT.LSTATE 3, 5)])), next_of (by decide +kernel)⟩

theorem test_hyps_EveryStepKeepsTheMachine :
    ∃ s : State, ∃ t : State, Wf s ∧ step s = .next t :=
  ⟨{ (R [(Reg.HLP.STAT.LSTATE 3, 5)]) with pending := [.wake 3] }, nextOf (step ({ (R [(Reg.HLP.STAT.LSTATE 3, 5)]) with pending := [.wake 3] })),
    ⟨by decide +kernel, by decide +kernel, by decide +kernel, by decide +kernel, by decide +kernel⟩, next_of (by decide +kernel)⟩

theorem test_hyps_RegisterWritesStoreByType :
    (∃ addr : Nat, ∃ d : RegDesc, ∃ s : State, addr < 2 ^ 32 ∧ badAddr addr = false ∧ regDesc addr = some d ∧ accStat s addr = ST_OK ∧
      lockRefuses s addr d 0xFFFFFFFF#32 = true) ∧
    (∃ addr : Nat, ∃ d : RegDesc, ∃ s : State, addr < 2 ^ 32 ∧ badAddr addr = false ∧ regDesc addr = some d ∧ accStat s addr = ST_OK ∧
      lockRefuses s addr d 0xFFFFFFFF#32 = false ∧ writeActs addr = false) ∧
    (∃ off : Nat, ∃ s : State, off < 2 ^ 28 ∧ tsLives s = false) ∧
    (∃ off : Nat, ∃ s : State, off < 2 ^ 28 ∧ tsLives s = true ∧ off / 0x2000000 % 8 ≠ 1 ∧ bit 0 (rd Reg.CMD.OPEN_HOST.GMASK s) = false) ∧
    (∃ off : Nat, ∃ s : State, off < 2 ^ 28 ∧ tsLives s = true ∧ off / 0x2000000 % 8 ≠ 1 ∧ bit 0 (rd Reg.CMD.OPEN_HOST.GMASK s) = true ∧
      (badAddr (barAddr off) = true ∨ accStat s (barAddr off) ≠ ST_NO_DIE)) ∧
    (∃ addr : Nat, addr < 2 ^ 32 ∧ addr % 4 ≠ 0) ∧
    (∃ addr : Nat, addr < 2 ^ 32 ∧ addr % 4 = 0 ∧ blockRegs (addrSlot addr) (addrBlk addr) = none) ∧
    (∃ addr : Nat, ∃ s : State, addr < 2 ^ 32 ∧ badAddr addr = false ∧ accStat s addr ≠ ST_OK) :=
  ⟨⟨0xC00008, ((regDesc (0xC00008 : Nat)).get (by decide +kernel)), R [(Reg.GLB.STAT.LOCKED, 1)] (State.reset), by decide +kernel⟩,
   ⟨0x700000, ((regDesc (0x700000 : Nat)).get (by decide +kernel)), State.reset, by decide +kernel⟩,
   ⟨0xFFFFFFF, S0, by decide +kernel⟩,
   ⟨0xFFFFFFF, R [(Reg.CMD.OPEN_HOST.GMASK, 0)] (Ts), by decide +kernel⟩,
   ⟨0xFFFFFFF, R [(Reg.CMD.OPEN_HOST.GMASK, 1)] (Ts), by decide +kernel⟩,
   ⟨0xFFFFFFFF, by decide +kernel⟩,
   ⟨0x1600000, by decide +kernel⟩,
   ⟨0x40000000, setDom 0x12 (Domain.reset .resetting) State.reset, by decide +kernel⟩⟩

theorem test_hyps_CommandLengthAndOrder :
    (∃ i : Instr, ∃ o : Origin, ∃ body : List Byte, ∃ s : State, i.opcode = some (o, body) ∧ mayDispatch s o = false) ∧
    (∃ i : Instr, ∃ o : Origin, ∃ body : List Byte, ∃ s : State, i.opcode = some (o, body) ∧ mayDispatch s o = true ∧ i.lenOk = false) :=
  ⟨⟨.getInfo { o0 with flags := 1 } [], { o0 with flags := 1 }, [],
     updCmd (fun z => { z with flights := [⟨{ o0 with tag := 1 }, [], 0⟩, ⟨{ o0 with flags := 1 }, [], 0⟩] }) State.reset, by decide +kernel⟩,
   ⟨.getInfo o0 [0], o0, [0], State.reset, by decide +kernel⟩⟩

theorem test_hyps_RegisterCommands :
    (∃ o : Origin, ∃ body : List Byte, ∃ d : RegDesc, ∃ s : State, PlainReg [0x05, 0x07] (field body 0 4) d s ∧ mayDispatch s o = true ∧
      body.length = 4 ∧ d.rc = 0) ∧
    (∃ o : Origin, ∃ body : List Byte, ∃ d : RegDesc, ∃ s : State, PlainReg [0x05, 0x07, 0x0E, 0x12, 0x15] (field body 0 4) d s ∧
      mayDispatch s o = true ∧ body.length = 8 ∧ rdB Reg.GLB.STAT.LOCKED s = false) ∧
    (∃ o : Origin, ∃ body : List Byte, ∃ d : RegDesc, ∃ s : State, PlainReg [0x05, 0x07] (field body 0 4) d s ∧ mayDispatch s o = true ∧
      body.length = 12 ∧ rdB Reg.GLB.STAT.LOCKED s = false ∧ d.rc = 0 ∧ d.wo = 0) ∧
    (∃ o : Origin, ∃ body : List Byte, ∃ s : State, mayDispatch s o = true ∧ body.length = 4 ∧ badAddr (field body 0 4) = true) ∧
    (∃ o : Origin, ∃ body : List Byte, ∃ s : State, mayDispatch s o = true ∧ body.length = 8 ∧ badAddr (field body 0 4) = true) ∧
    (∃ o : Origin, ∃ body : List Byte, ∃ s : State, mayDispatch s o = true ∧ body.length = 4 ∧ badAddr (field body 0 4) = false ∧
      accStat s (field body 0 4) ≠ ST_OK) ∧
    (∃ o : Origin, ∃ body : List Byte, ∃ s : State, ∃ d, mayDispatch s o = true ∧ body.length = 8 ∧ badAddr (field body 0 4) = false ∧
      accStat s (field body 0 4) = ST_OK ∧ regDesc (field body 0 4) = some d ∧ d.rwl ≠ 0 ∧ d.rwl < 2 ^ 32 ∧ rdB Reg.GLB.STAT.LOCKED s = true) :=
  ⟨⟨o0, bd 4 [(0, 4, 0x700000)], ((regDesc 0x700000).get (by decide +kernel)), State.reset, (by unfold PlainReg; decide +kernel), by decide +kernel⟩,
   ⟨o0, bd 8 [(0, 4, 0x700000), (4, 4, 0xFFFFFFFF)], ((regDesc 0x700000).get (by decide +kernel)), R [(Reg.GLB.STAT.LOCKED, 0)] (State.reset),
     (by unfold PlainReg; decide +kernel), by decide +kernel⟩,
   ⟨o0, bd 12 [(0, 4, 0x700000), (4, 4, 0xFFFFFFFF)], ((regDesc 0x700000).get (by decide +kernel)), R [(Reg.GLB.STAT.LOCKED, 0)] (State.reset),
     (by unfold PlainReg; decide +kernel), by decide +kernel⟩,
   ⟨o0, bd 4 [(0, 4, 3)], State.reset, by decide +kernel⟩,
   ⟨o0, bd 8 [(0, 4, 0x1600000)], State.reset, by decide +kernel⟩,
   ⟨o0, bd 4 [(0, 4, 0x40000000)], setDom 0x12 (Domain.reset .resetting) State.reset, by decide +kernel⟩,
   ⟨o0, bd 8 [(0, 4, 0xC00008)], R [(Reg.GLB.STAT.LOCKED, 1)] (State.reset), ((regDesc (field (bd 8 [(0, 4,
     0xC00008)]) 0 4)).get (by decide +kernel)), by decide +kernel⟩⟩

theorem test_hyps_BlockCommandsAndInfo :
    (∃ o : Origin, ∃ body : List Byte, ∃ s : State, ∃ n, ∃ d : Nat → RegDesc, (∀ i, i < n → PlainReg [0x05, 0x07] (field body 0 4 + 4 * i) (d i) s ∧
      (d i).rc = 0) ∧ mayDispatch s o = true ∧ field body 4 2 = n ∧ body.length = 8 ∧ 1 ≤ n ∧ n ≤ 1024 ∧ zeroAt body 6 2 = true) ∧
    (∃ o : Origin, ∃ body : List Byte, ∃ s : State, ∃ n, mayDispatch s o = true ∧ field body 4 2 = n ∧ body.length = 8 ∧ 1 ≤ n ∧ n ≤ 1024 ∧
      zeroAt body 6 2 = true) ∧
    (∃ o : Origin, ∃ body : List Byte, ∃ s : State, ∃ n, ∃ d : Nat → RegDesc, (∀ i, i < n → PlainReg [0x05, 0x07] (field body 0 4 + 4 * i) (d i) s) ∧
      mayDispatch s o = true ∧ field body 4 2 = n ∧ body.length = 8 + 4 * n ∧ 1 ≤ n ∧ n ≤ 1024 ∧ zeroAt body 6 2 = true ∧
      rdB Reg.GLB.STAT.LOCKED s = false) ∧
    (∃ o : Origin, ∃ body : List Byte, ∃ s : State, ∃ n, mayDispatch s o = true ∧ field body 4 2 = n ∧ body.length = 8 + 4 * n ∧ 1 ≤ n ∧ n ≤ 1024 ∧
      zeroAt body 6 2 = true) ∧
    (∃ o : Origin, ∃ body : List Byte, ∃ s : State, ∃ n, ∃ d : Nat → RegDesc, (∀ i, i < n → PlainReg [0x05,
      0x07] (field body (4 + 12 * i) 4) (d i) s ∧ (d i).rc = 0 ∧ (d i).wo = 0) ∧ mayDispatch s o = true ∧ field body 0 2 = n ∧
      body.length = 4 + 12 * n ∧ 1 ≤ n ∧ n ≤ 512 ∧ zeroAt body 2 2 = true ∧ rdB Reg.GLB.STAT.LOCKED s = false) ∧
    (∃ o : Origin, ∃ body : List Byte, ∃ s : State, ∃ n, mayDispatch s o = true ∧ field body 0 2 = n ∧ body.length = 4 + 12 * n ∧ 1 ≤ n ∧ n ≤ 512 ∧
      zeroAt body 2 2 = true) ∧
    (∃ o : Origin, ∃ body : List Byte, ∃ s : State, ∃ n, ∃ a, mayDispatch s o = true ∧ field body 0 4 = a ∧ field body 4 2 = n ∧ body.length = 8 ∧
      1 ≤ n ∧ n ≤ 256 ∧ zeroAt body 6 2 = true ∧ a % 8 = 0 ∧ 0x80000 ≤ addrOff a ∧ addrOff a + 8 * n ≤ 0x100000 ∧ (∀ i,
      i < n → badAddr (a + 8 * i) = false ∧ accStat s (a + 8 * i) = ST_OK)) ∧
    (∃ o : Origin, ∃ body : List Byte, ∃ s : State, mayDispatch s o = true ∧ body = []) ∧
    (∃ o : Origin, ∃ body : List Byte, ∃ s : State, mayDispatch s o = true ∧ body.length ≤ 64) :=
  ⟨⟨o0, bd 8 [(0, 4, 0x700000), (4, 2, 1)], State.reset, 1, (fun _ => ((regDesc 0x700000).get (by decide +kernel))),
     (by intro i hi; obtain rfl := Nat.lt_one_iff.mp hi; unfold PlainReg; decide +kernel), by decide +kernel⟩,
   ⟨o0, bd 8 [(0, 4, 0x700000), (4, 2, 1024)], State.reset, 1024, by decide +kernel⟩,
   ⟨o0, bd 12 [(0, 4, 0x700000), (4, 2, 1)], R [(Reg.GLB.STAT.LOCKED, 0)] (State.reset), 1, (fun _ => ((regDesc 0x700000).get (by decide +kernel))),
     (by intro i hi; obtain rfl := Nat.lt_one_iff.mp hi; unfold PlainReg; decide +kernel), by decide +kernel⟩,
   ⟨o0, bd 4104 [(0, 4, 0x700000), (4, 2, 1024)], State.reset, 1024, by decide +kernel⟩,
   ⟨o0, bd 16 [(0, 2, 1), (4, 4, 0x700000)], R [(Reg.GLB.STAT.LOCKED, 0)] (State.reset), 1, (fun _ => ((regDesc 0x700000).get (by decide +kernel))),
     (by intro i hi; obtain rfl := Nat.lt_one_iff.mp hi; unfold PlainReg; decide +kernel), by decide +kernel⟩,
   ⟨o0, bd 6148 [(0, 2, 512), (4, 4, 0x700000)], State.reset, 512, by decide +kernel⟩,
   ⟨o0, bd (8) [(0, 4, (0x180000)), (4, 2, (256))], State.reset, 256, 0x180000, by decide +kernel⟩,
   ⟨o0, bd (0) [], State.reset, by decide +kernel⟩,
   ⟨o0, bd 64 [(0, 4, 7)], State.reset, by decide +kernel⟩⟩

theorem test_hyps_CellsCrossTheTolgerLinks :
    (∃ slot : Slot, ∃ toLd : Bool, ∃ ch : Fin 2, ∃ f : TolgerCell, ∃ rest : List TolgerCell, ∃ s : State, linkUp s slot = true ∧
      nextOnWire (tolger s slot toLd) ch = some (f, rest)) ∧
    (∃ slot : Slot, ∃ toLd : Bool, ∃ ch : Fin 2, ∃ f : TolgerCell, ∃ rest : List TolgerCell, ∃ s : State, linkUp s slot = true ∧
      nextOnWire (tolger s slot toLd) ch = some (f, rest) ∧ cellFailsOf (tolger s slot toLd) ch + 1 < 8) ∧
    (∃ slot : Slot, ∃ toLd : Bool, ∃ ch : Fin 2, ∃ f : TolgerCell, ∃ rest : List TolgerCell, ∃ s : State, linkUp s slot = true ∧
      nextOnWire (tolger s slot toLd) ch = some (f, rest) ∧ 8 ≤ cellFailsOf (tolger s slot toLd) ch + 1) ∧
    (∃ slot : Slot, ∃ s : State, linkUp s slot = true) ∧
    (∃ slot : Slot, ∃ toLd : Bool, ∃ s : State, linkUp s slot = true ∧ (tolger s slot toLd).flits.length < 16 ∧
      (tolger s slot toLd).flitFails + 1 < 8) ∧
    (∃ slot : Slot, ∃ toLd : Bool, ∃ s : State, linkUp s slot = true ∧ (tolger s slot toLd).flits.length < 16 ∧
      8 ≤ (tolger s slot toLd).flitFails + 1) ∧
    (∃ slot : Slot, ∃ toLd : Bool, ∃ s : State, linkUp s slot = true ∧ (tolger s slot toLd).flight.any (fun f => !f.wire) = true ∧ compat s = false ∧
      (ctrGet s (cDIE slot 2)).sat = false ∧ (ctrGet s (cDIE slot 2)).v + 1 < 2 ^ 64) ∧
    (∃ slot : Slot, ∃ toLd : Bool, ∃ s : State, linkUp s slot = true ∧ (tolger s slot toLd).flits.any (fun x => !x.2) = true ∧ compat s = false ∧
      (ctrGet s (cDIE slot 2)).sat = false ∧ (ctrGet s (cDIE slot 2)).v + 1 < 2 ^ 64) ∧
    (∃ slot : Slot, ∃ toLd : Bool, ∃ s : State, ∃ ch : Fin 2, owedOf (tolger s slot toLd) ch ≠ 0) ∧
    (∃ slot : Slot, ∃ toLd : Bool, ∃ s : State, ∃ ch : Fin 2, owedOf (tolger s slot toLd) ch = 0) ∧
    (∃ slot : Slot, ∃ s : State, linkState s slot = 2) ∧
    (∃ slot : Slot, ∃ s : State, relinksFailed s slot = true) ∧
    (∃ slot : Slot, ∃ toLd : Bool, ∃ c : Nat, ∃ i : Nat, ∃ h : Held, ∃ l : List (Nat × Held), ∃ s : State, linkUp s slot = true ∧
      (tolger s slot toLd).flight.length < 32 ∧ c < 2 ∧ waitingOf (tolger s slot toLd) c = (i, h) :: l ∧ creditOfCh (tolger s slot toLd) c ≠ 0 ∧
      (c = (tolger s slot toLd).last % 2 → canSend (tolger s slot toLd) (1 - c) = false)) :=
  ⟨⟨7, false, 1, ⟨1, 2, h0, true⟩, [], R [(Reg.DIE.LSTAT.STATE (7 : Slot),
     3)] (setTolger 7 false { tolger State.reset 7 false with flight := [⟨1, 2, h0, true⟩] } State.reset), by decide +kernel⟩,
   ⟨7, false, 1, ⟨1, 2, h0, true⟩, [], R [(Reg.DIE.LSTAT.STATE (7 : Slot),
     3)] (setTolger 7 false { tolger State.reset 7 false with flight := [⟨1, 2, h0, true⟩], cellFails := [(1, 6)] } State.reset), by decide +kernel⟩,
   ⟨7, true, 1, ⟨1, 2, h0, true⟩, [], R [(Reg.DIE.LSTAT.STATE (7 : Slot),
     3)] (setTolger 7 true { tolger State.reset 7 true with flight := [⟨1, 2, h0, true⟩], cellFails := [(1, 7)] } State.reset), by decide +kernel⟩,
   ⟨7, R [(Reg.DIE.LSTAT.STATE (7 : Slot), 3)] (State.reset), by decide +kernel⟩,
   ⟨7, true, R [(Reg.DIE.LSTAT.STATE (7 : Slot),
     3)] (setTolger 7 true { tolger State.reset 7 true with flitFails := 6, flits := List.replicate 15 (1, false) } State.reset), by decide +kernel⟩,
   ⟨7, true, R [(Reg.DIE.LSTAT.STATE (7 : Slot), 3)] (setTolger 7 true { tolger State.reset 7 true with flitFails := 7 } State.reset),
     by decide +kernel⟩,
   ⟨7, true, R [(Reg.DIE.LSTAT.STATE (7 : Slot), 3)] (setTolger 7 true { tolger State.reset 7 true with flight := [⟨1, 2, h0, false⟩] } State.reset),
     by decide +kernel⟩,
   ⟨7, true, R [(Reg.DIE.LSTAT.STATE (7 : Slot), 3)] (setTolger 7 true { tolger State.reset 7 true with flits := [(5, false)] } State.reset),
     by decide +kernel⟩,
   ⟨7, true, setTolger 7 true { tolger State.reset 7 true with credit := [(1, 127)], owed := [(1, 1)] } State.reset, 1, by decide +kernel⟩,
   ⟨7, true, State.reset, 1, by decide +kernel⟩,
   ⟨7, R [(Reg.DIE.LSTAT.STATE (7 : Slot), 2)] (State.reset), by decide +kernel⟩,
   ⟨7, R [(Reg.DIE.LSTAT.STATE 7, 4)] (setDom 0x17 { Domain.reset .returning with wasReset := true } State.reset), by decide +kernel⟩,
   ⟨7, false, 1, 17, h0, [(3, h0)], R [(Reg.DIE.LSTAT.STATE (7 : Slot),
     3)] (setTolger 7 false { tolger State.reset 7 false with waiting := [(1, [(17, h0), (3, h0)])], last := 1 } State.reset), by decide +kernel⟩⟩

theorem test_hyps_DomainsQuiesceAndDrain :
    (∃ o : Origin, ∃ body : List Byte, ∃ d : Nat, ∃ f : Nat, ∃ s : State, mayDispatch s o = true ∧ body.length = 8 ∧ field body 0 1 = d ∧
      field body 1 1 = f ∧ f ≤ 1 ∧ zeroAt body 2 2 = true ∧ field body 4 4 ≤ 4000000 ∧ domCheck s d = ST_OK ∧ throughDomain o d = false ∧
      domSt s d = .inService ∧ beingActivated s d = false ∧ (d = 0x11 → s1Deps s = 0)) ∧
    (∃ o : Origin, ∃ body : List Byte, ∃ d : Nat, ∃ f : Nat, ∃ s : State, mayDispatch s o = true ∧ body.length = 8 ∧ field body 0 1 = d ∧
      field body 1 1 = f ∧ f ≤ 1 ∧ zeroAt body 2 2 = true ∧ field body 4 4 ≤ 4000000 ∧ domCheck s d = ST_OK ∧ throughDomain o d = false ∧
      domSt s d ≠ .inService) ∧
    (∃ o : Origin, ∃ body : List Byte, ∃ d : Nat, ∃ f : Nat, ∃ s : State, mayDispatch s o = true ∧ body.length = 8 ∧ field body 0 1 = d ∧
      field body 1 1 = f ∧ f ≤ 1 ∧ zeroAt body 2 2 = true ∧ field body 4 4 ≤ 4000000 ∧ domCheck s d = ST_OK ∧ throughDomain o d = false ∧ d = 0x11 ∧
      domSt s d = .inService ∧ s1Deps s ≠ 0) ∧
    (∃ d : Nat, ∃ s : State, domSt s d = .quiescing ∧ beingActivated s d = false ∧ drained s d = true) ∧
    (∃ d : Nat, ∃ s : State, domSt s d = .quiescing ∧ beingActivated s d = false ∧ drained s d = false) ∧
    (∃ d : Nat, ∃ s : State, domSt s d = .quiescing ∧ beingActivated s d = false ∧ drained s d = false ∧ (dom s d).force = true) ∧
    (∃ d : Nat, ∃ s : State, domSt s d = .quiescing ∧ beingActivated s d = false ∧ drained s d = false ∧ (dom s d).force = false) :=
  ⟨⟨o0, bd (8) [(0, 1, (3 : Nat)), (1, 1, (1 : Nat))], 3, 1, State.reset, by decide +kernel⟩,
   ⟨o0, bd (8) [(0, 1, (0x17 : Nat)), (1, 1, (0 : Nat))], 0x17, 0, State.reset, by decide +kernel⟩,
   ⟨o0, bd (8) [(0, 1, (0x11 : Nat)), (1, 1, (0 : Nat))], 0x11, 0, R [(Reg.IMG.STAT.STAGED, 1)] (setDom 0x11 (Domain.reset .inService) State.reset),
     by decide +kernel⟩,
   ⟨0x17, setDom (0x17 : Nat) (Domain.reset .quiescing) State.reset, by decide +kernel⟩,
   ⟨3, setDom (3 : Nat) { Domain.reset .quiescing with drain := [(5, 1)], force := true } State.reset, by decide +kernel⟩,
   ⟨3, setDom (3 : Nat) { Domain.reset .quiescing with drain := [(5, 1)], force := true } State.reset, by decide +kernel⟩,
   ⟨0x11, setDom (0x11 : Nat) { Domain.reset .quiescing with drain := [(5, 1)] } State.reset, by decide +kernel⟩⟩

theorem test_hyps_DomainsResetAndReturn :
    (∃ o : Origin, ∃ body : List Byte, ∃ d : Nat, ∃ s : State, mayDispatch s o = true ∧ body.length = 4 ∧ field body 0 1 = d ∧
      zeroAt body 1 3 = true ∧ domCheck s d = ST_OK ∧ throughDomain o d = false ∧ domSt s d = .quiesced ∧ beingActivated s d = false) ∧
    (∃ o : Origin, ∃ body : List Byte, ∃ d : Nat, ∃ s : State, mayDispatch s o = true ∧ body.length = 4 ∧ field body 0 1 = d ∧
      zeroAt body 1 3 = true ∧ domCheck s d = ST_OK ∧ throughDomain o d = false ∧ domSt s d ≠ .quiesced) ∧
    (∃ o : Origin, ∃ body : List Byte, ∃ d : Nat, ∃ s : State, mayDispatch s o = true ∧ body.length = 4 ∧ field body 0 1 = d ∧
      zeroAt body 1 3 = true ∧ domCheck s d = ST_OK ∧ domSt s d = .quiesced ∧ testOn s d = false ∧ 0x12 ≤ d) ∧
    (∃ o : Origin, ∃ body : List Byte, ∃ d : Nat, ∃ s : State, mayDispatch s o = true ∧ body.length = 4 ∧ field body 0 1 = d ∧
      zeroAt body 1 3 = true ∧ domCheck s d = ST_OK ∧ domSt s d = .quiesced ∧ testOn s d = false ∧ d < 4) ∧
    (∃ o : Origin, ∃ body : List Byte, ∃ d : Nat, ∃ s : State, mayDispatch s o = true ∧ body.length = 4 ∧ field body 0 1 = d ∧
      zeroAt body 1 3 = true ∧ domCheck s d = ST_OK) ∧
    (∃ d : Nat, ∃ s : State, domSt s d = .resetting ∧ beingActivated s d = false) ∧
    (∃ d : Nat, ∃ s : State, domSt s d = .returning ∧ 0x12 ≤ d ∧ d ≤ 0x17 ∧ linkUp s (d - 0x10) = true) ∧
    (∃ s : State, domSt s 0x11 = .returning) ∧
    (∃ d : Nat, ∃ s : State, domSt s d = .returning ∧ 0x11 ≤ d) ∧
    (∃ s : State, ∃ o, mayDispatch s o = true) :=
  ⟨⟨o0, bd (4) [(0, 1, (0x17 : Nat))], 0x17, setDom (0x17 : Nat) (Domain.reset .quiesced) State.reset, by decide +kernel⟩,
   ⟨o0, bd (4) [(0, 1, (0 : Nat))], 0, State.reset, by decide +kernel⟩,
   ⟨o0, bd (4) [(0, 1, (0x17 : Nat))], 0x17, setDom (0x17 : Nat) (Domain.reset .quiesced) State.reset, by decide +kernel⟩,
   ⟨o0, bd (4) [(0, 1, (3 : Nat))], 3, setDom (3 : Nat) (Domain.reset .quiesced) State.reset, by decide +kernel⟩,
   ⟨o0, bd (4) [(0, 1, (0x11 : Nat))], 0x11, State.reset, by decide +kernel⟩,
   ⟨0x17, setDom (0x17 : Nat) (Domain.reset .resetting) State.reset, by decide +kernel⟩,
   ⟨0x17, setDom (0x17 : Nat) (Domain.reset .returning) (R [(Reg.DIE.LSTAT.STATE 7, 3)]), by decide +kernel⟩,
   ⟨setDom 0x11 (Domain.reset .returning) State.reset, by decide +kernel⟩,
   ⟨0x11, setDom (0x11 : Nat) (Domain.reset .returning) State.reset, by decide +kernel⟩,
   ⟨State.reset, o0, by decide +kernel⟩⟩

theorem test_hyps_OneQuiesceAtATime :
    (∃ o : Origin, ∃ body : List Byte, ∃ d : Nat, ∃ s : State, mayDispatch s o = true ∧ body.length = 8 ∧ field body 0 1 = d ∧ field body 1 1 ≤ 1 ∧
      zeroAt body 2 2 = true ∧ field body 4 4 ≤ 4000000 ∧ domCheck s d = ST_OK ∧ throughDomain o d = false ∧ domSt s d = .inService ∧
      beingActivated s d = false ∧ d ≠ 0x11) ∧
    (∃ o : Origin, ∃ body : List Byte, ∃ d : Nat, ∃ s : State, mayDispatch s o = true ∧ body.length = 8 ∧ field body 0 1 = d ∧ field body 1 1 ≤ 1 ∧
      zeroAt body 2 2 = true ∧ field body 4 4 ≤ 4000000 ∧ domCheck s d = ST_OK ∧ throughDomain o d = false ∧ domSt s d = .quiescing) ∧
    (∃ body : List Byte, ∃ d : Nat, ∃ s : State, field body 0 1 ∈ [0x10, 0x11, 0x12] ∧ field body 1 1 = d ∧ domSt s d ≠ .quiesced) :=
  ⟨⟨o0, bd (8) [(0, 1, (0x12 : Nat)), (0, 1, 0x12), (4, 4, 4000000)], 0x12, D 0x12 .inService S0, by decide +kernel⟩,
   ⟨o0, bd (8) [(0, 1, (0x12 : Nat)), (0, 1, 0x12), (4, 4, 4000000)], 0x12, D 0x12 .quiescing S0, by decide +kernel⟩,
   ⟨bd 8 [(0, 1, 0x10), (1, 1, 3), (4, 4, 1)], 3, State.reset, by decide +kernel⟩⟩

theorem test_hyps_LinePortsTrain :
    (∃ p : LPort, ∃ s : State, accStat s (Reg.HLP.CFG.word p).addr = ST_OK ∧ rdB (Reg.HLP.CFG.EN p) s = false ∧ rdB Reg.GLB.STAT.BOOTED s = true ∧
      bypassHeld s p = false ∧ domSt s p = .inService) ∧
    (∃ p : LPort, ∃ s : State, accStat s (Reg.HLP.CFG.word p).addr = ST_OK ∧ rdB (Reg.HLP.CFG.EN p) s = true) ∧
    (∃ p : LPort, ∃ s : State, ∃ lane : Fin 4, bit lane (lp s p).excluded = true) ∧
    (∃ p : LPort, ∃ s : State, ∃ lane : Fin 4, lstate s p = TRAINING ∧ rd (Reg.HLP.STAT.PHASE p) s = 1 ∧ bit lane (lp s p).excluded = false) ∧
    (∃ p : LPort, ∃ s : State, (lstate s p = TRAINING ∨ (lstate s p = EXITING ∧ (lp s p).exitFrom ≠ HUM)) ∧ rd (Reg.HLP.STAT.PHASE p) s = 3) ∧
    (∃ p : LPort, ∃ s : State, lstate s p = TRAINING ∧ rd (Reg.HLP.STAT.PHASE p) s = 4) ∧
    (∃ p : LPort, ∃ s : State, lstate s p = EXITING ∧ rd (Reg.HLP.STAT.PHASE p) s = 4) ∧
    (∃ p : LPort, ∃ s : State, lstate s p = TRAINING) ∧
    (∃ p : LPort, ∃ s : State, (lp s p).restartWait = true ∧ rdB (Reg.HLP.CFG.EN p) s = true ∧ bypassHeld s p = false) ∧
    (∃ p : LPort, ∃ s : State, lstate s p = TRAINING ∧ rd (Reg.HLP.STAT.PHASE p) s = 2 ∧ (lp s p).capRx < 3 ∧ (lp s p).capAckTx = false) ∧
    (∃ p : LPort, ∃ b : BitVec 48, ∃ s : State, lstate s p = TRAINING ∧ rd (Reg.HLP.STAT.PHASE p) s = 2 ∧ 3 ≤ (lp s p).capRx ∧
      ((lp s p).capAckTx = false ∨ (bit 36 b.toNat = false ∧ (lp s p).capAckRx = false))) ∧
    (∃ p : LPort, ∃ b : BitVec 48, ∃ s : State, ∃ nrz, ∃ f, ∃ w, ∃ m, lstate s p = TRAINING ∧ rd (Reg.HLP.STAT.PHASE p) s = 2 ∧
      (lp s p).capAckTx = true ∧ (bit 36 b.toNat = true ∨ (lp s p).capAckRx = true) ∧ negotiate s p b.toNat = some (nrz, f, w, m)) ∧
    (∃ p : LPort, ∃ b : BitVec 48, ∃ s : State, lstate s p = TRAINING ∧ rd (Reg.HLP.STAT.PHASE p) s = 2 ∧ (lp s p).capAckTx = true ∧
      (bit 36 b.toNat = true ∨ (lp s p).capAckRx = true) ∧ negotiate s p b.toNat = none) :=
  ⟨⟨3, R [(Reg.HLP.CFG.EN (3 : LPort), 0), (Reg.GLB.STAT.BOOTED, 1)] (State.reset), by decide +kernel⟩,
   ⟨3, R [(Reg.HLP.CFG.EN (3 : LPort), 1)] (State.reset), by decide +kernel⟩,
   ⟨3, L 3 fun z => { z with excluded := 8 }, 3, by decide +kernel⟩,
   ⟨3, R [(Reg.HLP.STAT.LSTATE (3 : LPort), TRAINING), (Reg.HLP.STAT.PHASE (3 : LPort), 1)] (State.reset), 3, by decide +kernel⟩,
   ⟨3, R [(Reg.HLP.STAT.LSTATE 3, EXITING), (Reg.HLP.STAT.PHASE (3 : LPort), 3)] (State.reset), by decide +kernel⟩,
   ⟨3, R [(Reg.HLP.STAT.LSTATE (3 : LPort), TRAINING), (Reg.HLP.STAT.PHASE (3 : LPort), 4)] (State.reset), by decide +kernel⟩,
   ⟨3, R [(Reg.HLP.STAT.LSTATE (3 : LPort), EXITING), (Reg.HLP.STAT.PHASE (3 : LPort), 4)] (State.reset), by decide +kernel⟩,
   ⟨3, R [(Reg.HLP.STAT.LSTATE (3 : LPort), TRAINING)] (State.reset), by decide +kernel⟩,
   ⟨3, R [(Reg.HLP.CFG.EN (3 : LPort), 1)] (updLp 3 (fun z => { z with restartWait := true }) State.reset), by decide +kernel⟩,
   ⟨3, R [(Reg.HLP.STAT.LSTATE 3, TRAINING), (Reg.HLP.STAT.LSTATE (3 : LPort), TRAINING), (Reg.HLP.STAT.PHASE (3 : LPort),
     2)] (updLp 3 (fun z => { z with capRx := 2 }) State.reset), by decide +kernel⟩,
   ⟨3, 0, R [(Reg.HLP.STAT.LSTATE 3, TRAINING), (Reg.HLP.STAT.LSTATE (3 : LPort), TRAINING), (Reg.HLP.STAT.PHASE (3 : LPort),
     2)] (updLp 3 (fun z => { z with capRx := 3 }) State.reset), by decide +kernel⟩,
   ⟨3, 0xFC1000000000, R [(Reg.HLP.STAT.LSTATE 3, TRAINING), (Reg.HLP.STAT.LSTATE (3 : LPort), TRAINING), (Reg.HLP.STAT.PHASE (3 : LPort),
     2)] (updLp 3 (fun z => { z with capRx := 3, capAckTx := true, cfg := 167280385 }) State.reset), ((negotiate (R [(Reg.HLP.STAT.LSTATE 3, TRAINING),
     (Reg.HLP.STAT.LSTATE (3 : LPort), TRAINING), (Reg.HLP.STAT.PHASE (3 : LPort),
     2)] (updLp 3 (fun z => { z with capRx := 3, capAckTx := true, cfg := 167280385 }) State.reset)) (3 : LPort) (0xFC1000000000 : BitVec 48).toNat).get (by decide +kernel)).1,
     ((negotiate (R [(Reg.HLP.STAT.LSTATE 3, TRAINING), (Reg.HLP.STAT.LSTATE (3 : LPort), TRAINING), (Reg.HLP.STAT.PHASE (3 : LPort),
     2)] (updLp 3 (fun z => { z with capRx := 3, capAckTx := true, cfg := 167280385 }) State.reset)) (3 : LPort) (0xFC1000000000 : BitVec 48).toNat).get (by decide +kernel)).2.1,
     ((negotiate (R [(Reg.HLP.STAT.LSTATE 3, TRAINING), (Reg.HLP.STAT.LSTATE (3 : LPort), TRAINING), (Reg.HLP.STAT.PHASE (3 : LPort),
     2)] (updLp 3 (fun z => { z with capRx := 3, capAckTx := true, cfg := 167280385 }) State.reset)) (3 : LPort) (0xFC1000000000 : BitVec 48).toNat).get (by decide +kernel)).2.2.1,
     ((negotiate (R [(Reg.HLP.STAT.LSTATE 3, TRAINING), (Reg.HLP.STAT.LSTATE (3 : LPort), TRAINING), (Reg.HLP.STAT.PHASE (3 : LPort),
     2)] (updLp 3 (fun z => { z with capRx := 3, capAckTx := true, cfg := 167280385 }) State.reset)) (3 : LPort) (0xFC1000000000 : BitVec 48).toNat).get (by decide +kernel)).2.2.2,
     by decide +kernel⟩,
   ⟨3, 0x1000000000, R [(Reg.HLP.STAT.LSTATE 3, TRAINING), (Reg.HLP.STAT.LSTATE (3 : LPort), TRAINING), (Reg.HLP.STAT.PHASE (3 : LPort),
     2)] (updLp 3 (fun z => { z with capRx := 3, capAckTx := true }) State.reset), by decide +kernel⟩⟩

theorem test_hyps_LineStatesAreEnteredAndLeft :
    (∃ p : LPort, ∃ s : State, ∃ k : Fin 4, k = 1 ∧ entryOk s p 1 = true ∧ (lp s p).reqSent = none) ∧
    (∃ p : LPort, ∃ s : State, ∃ k : Fin 4, k = 2 ∧ entryOk s p 2 = true ∧ (lp s p).reqSent = none) ∧
    (∃ p : LPort, ∃ s : State, ∃ k : Fin 4, k = 3 ∧ entryOk s p 3 = true ∧ (lp s p).reqSent = none) ∧
    (∃ p : LPort, ∃ s : State, ∃ k : Fin 4, (lp s p).reqSent = none ∧ entryOk s p k = true ∧ idleOk s p k = true ∧ holdsWord s p = false) ∧
    (∃ p : LPort, ∃ s : State, ∃ k : Fin 4, (lp s p).reqSent = none ∧ (entryOk s p k && idleOk s p k && !holdsWord s p) = false ∧ trained s p = true) ∧
    (∃ p : LPort, ∃ s : State, ∃ k : Fin 4, (lp s p).reqSent = some k.val ∧ pendingOut s p = false ∧ k.val ≤ rd (Reg.HLP.CFG.MAXSTATE p) s) ∧
    (∃ p : LPort, ∃ s : State, ∃ k : Fin 4, (lp s p).reqSent = some k.val ∧ k ≠ 0 ∧ (pendingOut s p = true ∨ rd (Reg.HLP.CFG.MAXSTATE p) s < k.val)) ∧
    (∃ p : LPort, ∃ s : State, ∃ k : Fin 4, (lp s p).reqSent = some k.val) ∧
    (∃ p : LPort, ∃ s : State, ∃ k : Fin 4, (lp s p).reqSent ≠ some k.val) ∧
    (∃ p : LPort, ∃ s : State, asleep s p = true) ∧
    (∃ p : LPort, ∃ s : State, lstate s p = EXITING) ∧
    (∃ p : LPort, ∃ s : State, lstate s p = EXITING ∧ rdB (Reg.HLP.CFG.EN p) s = true ∧ bypassHeld s p = false) ∧
    (∃ p : LPort, ∃ s : State, accStat s (Reg.HLP.CFG.word p).addr = ST_OK) ∧
    (∃ s : State, ∃ dst : BitVec 14, ∃ hops : BitVec 6, (dst.toNat = ownAddr s ∨ hops = 0#6)) ∧
    (∃ p : LPort, ∃ s : State, trained s p = true ∧ lstate s p ≠ DORMANT ∧ rdB (Reg.HLP.CFG.EN p) s = true ∧ bypassHeld s p = false) ∧
    (∃ p : LPort, ∃ s : State, trained s p = true ∧ lstate s p ≠ DORMANT ∧ rdB (Reg.HLP.CFG.EN p) s = false) :=
  ⟨⟨3, R [(Reg.HLP.STAT.LSTATE 3, 3), (Reg.HLP.SLEEP_T.HUM_T 3, 5)] (State.reset), 1, by decide +kernel⟩,
   ⟨3, R [(Reg.HLP.STAT.LSTATE 3, 4), (Reg.HLP.SLEEP_T.DOZE_T 3, 5)] (Rx 3 fun z => { z with clWord := [0, 1, 2, 3].map fun c => (c, pool S0 3 c) }),
     2, by decide +kernel⟩,
   ⟨3, R [(Reg.HLP.STAT.LSTATE 3, 5), (Reg.HLP.SLEEP_T.DORM_T 3, 5), (Reg.HLP.CFG.MAXSTATE 3, 3)] (State.reset), 3, by decide +kernel⟩,
   ⟨3, R [(Reg.HLP.STAT.LSTATE 3, 5), (Reg.HLP.SLEEP_T.DORM_T 3, 5), (Reg.HLP.CFG.MAXSTATE 3, 3)] ({ State.reset with now := 100000000000 }), 3,
     by decide +kernel⟩,
   ⟨3, R [(Reg.HLP.STAT.LSTATE (3 : LPort), 3)] (State.reset), 1, by decide +kernel⟩,
   ⟨3, updLp 3 (fun z => { z with reqSent := some 3 }) (R [(Reg.HLP.STAT.LSTATE 3, 5), (Reg.HLP.CFG.MAXSTATE 3, 3)]), 3, by decide +kernel⟩,
   ⟨3, updLp 3 (fun z => { z with reqSent := some 3 }) (R [(Reg.HLP.STAT.LSTATE 3, 5), (Reg.HLP.CFG.MAXSTATE 3, 2)]), 3, by decide +kernel⟩,
   ⟨3, updLp 3 (fun z => { z with reqSent := some 3 }) (R [(Reg.HLP.STAT.LSTATE 3, 5), (Reg.HLP.CFG.MAXSTATE 3, 3)]), 3, by decide +kernel⟩,
   ⟨3, State.reset, 0, by decide +kernel⟩,
   ⟨3, R [(Reg.HLP.STAT.LSTATE 3, 6)] (State.reset), by decide +kernel⟩,
   ⟨3, R [(Reg.HLP.STAT.LSTATE (3 : LPort), EXITING)] (State.reset), by decide +kernel⟩,
   ⟨3, R [(Reg.HLP.STAT.LSTATE (3 : LPort), EXITING), (Reg.HLP.CFG.EN (3 : LPort), 1)] (State.reset), by decide +kernel⟩,
   ⟨3, State.reset, by decide +kernel⟩,
   ⟨R [(Reg.HLP.STAT.LSTATE 3, 6)] (State.reset), 0, 0, by decide +kernel⟩,
   ⟨3, R [(Reg.HLP.STAT.LSTATE 3, 5), (Reg.HLP.CFG.EN 3, 1), (Reg.HLP.STAT.LSTATE (3 : LPort), 3)] (State.reset), by decide +kernel⟩,
   ⟨3, R [(Reg.HLP.STAT.LSTATE (3 : LPort), 3), (Reg.HLP.CFG.EN (3 : LPort), 0)] (State.reset), by decide +kernel⟩⟩

theorem test_hyps_SlotsWordsAndLanes :
    (∃ p : LPort, ∃ s : State, ∃ bytes : List Byte, bytes.length = 128 ∧ framesRun s p = true ∧ slotCrcGood bytes = false) ∧
    (∃ p : LPort, ∃ s : State, ∃ w : OsWord, ∃ x : OsWord, ∃ bytes : List Byte, bytes.length = 128 ∧ framesRun s p = true ∧
      slotCrcGood bytes = true ∧ isOsSlot bytes = true ∧ w.typ ≠ 8 ∧ w.typ ≠ 9 ∧ x.typ ≠ 8 ∧ x.typ ≠ 9 ∧ osSlotWords bytes = some [some w, none,
      some x]) ∧
    (∃ p : LPort, ∃ s : State, framesRun s p = true ∧ (lp s p).rx.waiting = false ∧ compat s = false ∧ (ctrGet s (cHLP p kUNCORR)).sat = false ∧
      (ctrGet s (cHLP p kUNCORR)).v + 1 < 2 ^ 64) ∧
    (∃ p : LPort, ∃ s : State, framesRun s p = true ∧ ((lstate s p ≠ ACTIVE ∧ lstate s p ≠ HUM) ∨ (lp s p).badFcw < 3) ∧ (lp s p).badFcw ≠ 0 ∧
      Machine.ahead (codewordWrap s p) (lp s p).badFcwAt (codewordNow s p) ≤ 1) ∧
    (∃ p : LPort, ∃ s : State, framesRun s p = true ∧
      ((lp s p).badFcw = 0 ∨ 1 < Machine.ahead (codewordWrap s p) (lp s p).badFcwAt (codewordNow s p))) ∧
    (∃ p : LPort, ∃ s : State, framesRun s p = false) ∧
    (∃ p : LPort, ∃ s : State, (lstate s p = ACTIVE ∨ lstate s p = HUM) ∧ 3 ≤ (lp s p).badFcw ∧
      Machine.ahead (codewordWrap s p) (lp s p).badFcwAt (codewordNow s p) ≤ 1 ∧ rdB (Reg.HLP.CFG.EN p) s = true ∧ bypassHeld s p = false) ∧
    (∃ p : LPort, ∃ s : State, ∃ w : BitVec 80, lstate s p = DOZE ∧ w.toNat / 2 ^ 64 ≠ 0x3C5A ∧ (lp s p).badDoze ≠ 3) ∧
    (∃ p : LPort, ∃ s : State, ∃ w : BitVec 80, lstate s p = DOZE ∧ w.toNat / 2 ^ 64 ≠ 0x3C5A ∧ (lp s p).badDoze = 3 ∧
      rdB (Reg.HLP.CFG.EN p) s = true ∧ bypassHeld s p = false) ∧
    (∃ p : LPort, ∃ s : State, ∃ w : BitVec 80, ∃ x : OsWord, lstate s p = DOZE ∧ w.toNat / 2 ^ 64 = 0x3C5A ∧ dozeWord w.toNat = some x ∧ x.typ = 0) ∧
    (∃ p : LPort, ∃ s : State, ∃ lane : Fin 4, trained s p = true ∧ bit lane (rd (Reg.HLP.STAT.LANES p) s) = true ∧
      lane.val ≠ rd (Reg.HLP.STAT.BASE p) s ∧ lstate s p ≠ DORMANT ∧ lstate s p ≠ DOZE ∧ bit lane (rd (Reg.HLP.LRET.AUTO p) s) = true ∧
      (lp s p).retire = none ∧ (lanesWithout (rd (Reg.HLP.STAT.LANES p) s) (2 ^ lane.val)).isSome = true) ∧
    (∃ p : LPort, ∃ s : State, ∃ lane : Fin 4, ∃ errors : Nat, trained s p = true ∧ bit lane (rd (Reg.HLP.STAT.LANES p) s) = true ∧
      bit lane (rd (Reg.HLP.LRET.AUTO p) s) = true ∧ bit lane (rd (Reg.HLP.LRET.RETIRED p) s) = false ∧ (lp s p).retire = none ∧
      (lanesWithout (rd (Reg.HLP.STAT.LANES p) s) (2 ^ lane.val)).isSome = true ∧ 2 ^ rd (Reg.HLP.LRET.TH_EXP p) s < errors) ∧
    (∃ p : LPort, ∃ s : State, ∃ lane : Fin 4, ∃ errors : Nat, trained s p = true ∧ bit lane (rd (Reg.HLP.STAT.LANES p) s) = true ∧
      bit lane (rd (Reg.HLP.LRET.AUTO p) s) = true ∧ bit lane (rd (Reg.HLP.LRET.RETIRED p) s) = false ∧ (lp s p).retire = none ∧
      (lanesWithout (rd (Reg.HLP.STAT.LANES p) s) (2 ^ lane.val)).isSome = true ∧ errors ≤ 2 ^ rd (Reg.HLP.LRET.TH_EXP p) s) ∧
    (∃ p : LPort, ∃ s : State, ∃ lane : Fin 4, accStat s (Reg.HLP.LRET.word p).addr = ST_OK ∧ trained s p = true ∧
      bit lane (rd (Reg.HLP.STAT.LANES p) s) = true ∧ rd (Reg.HLP.STAT.LANES p) s ≠ 2 ^ lane.val ∧ (lp s p).retire.isSome = true) ∧
    (∃ p : LPort, ∃ s : State, ∃ lane : Fin 4, accStat s (Reg.HLP.LRET.word p).addr = ST_OK ∧ trained s p = true ∧
      bit lane (rd (Reg.HLP.STAT.LANES p) s) = true ∧ rd (Reg.HLP.STAT.LANES p) s ≠ 2 ^ lane.val ∧ (lp s p).retire = none ∧
      (lanesWithout (rd (Reg.HLP.STAT.LANES p) s) (2 ^ lane.val)).isSome = true) ∧
    (∃ p : LPort, ∃ s : State, ∃ lanes : BitVec 4, ∃ frame : BitVec 16, ∃ r : Retire, (lp s p).retire = some r ∧ r.lanes = lanes.toNat ∧
      r.txFrame = none ∧ inTime s p frame.toNat = true) ∧
    (∃ p : LPort, ∃ s : State, ∃ frame : BitVec 16, inTime s p frame.toNat = false) ∧
    (∃ p : LPort, ∃ s : State, ∃ frame : BitVec 16, (lp s p).retire = none ∧ inTime s p frame.toNat = true) ∧
    (∃ p : LPort, ∃ s : State, ∃ r : Retire, ∃ w : Nat, ∃ m : Nat, (lp s p).retire = some r ∧ r.txDone = false ∧ r.rxDone = false ∧
      frameReached (lp s p).rxFrame r.rxFrame = true ∧ lanesWithout (rd (Reg.HLP.STAT.LANES p) s) r.lanes = some (w, m)) ∧
    (∃ p : LPort, ∃ s : State, ∃ r : Retire, (∃ f, r.txFrame = some f ∧ frameReached (lp s p).txFrame f = true) ∧ (lp s p).retire = some r ∧
      r.txDone = false ∧ r.rxDone = true ∧ (lp s p).retireWait = []) :=
  ⟨⟨3, R [(Reg.HLP.STAT.LSTATE 3, 3)] (State.reset), bd 128 [(0, 1, 0xFF)], by decide +kernel⟩,
   ⟨3, R [(Reg.HLP.STAT.LSTATE 3, 3)] (State.reset), ⟨0x20, 5⟩, ⟨0x21, 7⟩, (beBytes 8 (3 * 2 ^ 60 + 0x1F) ++ beBytes 8 (osBits (⟨0x20,
     5⟩)) ++ beBytes 8 12345 ++ beBytes 8 (osBits (⟨0x21, 7⟩)) ++ List.replicate 88 0 ++ [0, 0, 0,
     0]) ++ leBytes 4 (crc32c (beBytes 8 (3 * 2 ^ 60 + 0x1F) ++ beBytes 8 (osBits (⟨0x20, 5⟩)) ++ beBytes 8 12345 ++ beBytes 8 (osBits (⟨0x21,
     7⟩)) ++ List.replicate 88 0 ++ [0, 0, 0, 0])), by decide +kernel⟩,
   ⟨3, R [(Reg.HLP.STAT.LSTATE 3, 3)] (State.reset), by decide +kernel⟩,
   ⟨3, R [(Reg.HLP.STAT.LSTATE 3, 3)] (updLp 3 (fun z => { z with badFcw := 2, badFcwAt := 131071 }) State.reset), by decide +kernel⟩,
   ⟨3, R [(Reg.HLP.STAT.LSTATE 3, 3)] (updLp 3 (fun z => { z with badFcw := 2, badFcwAt := 65534 }) State.reset), by decide +kernel⟩,
   ⟨3, State.reset, by decide +kernel⟩,
   ⟨3, R [(Reg.HLP.STAT.LSTATE 3, 3), (Reg.HLP.CFG.EN (3 : LPort), 1)] (updLp 3 (fun z => { z with badFcw := 3 }) State.reset), by decide +kernel⟩,
   ⟨3, R [(Reg.HLP.STAT.LSTATE 3, 5)] (State.reset), 0, by decide +kernel⟩,
   ⟨3, R [(Reg.HLP.STAT.LSTATE 3, 3), (Reg.HLP.STAT.LSTATE (3 : LPort), DOZE), (Reg.HLP.CFG.EN (3 : LPort),
     1)] (updLp 3 (fun z => { z with badDoze := 3 }) State.reset), 0, by decide +kernel⟩,
   ⟨3, R [(Reg.HLP.STAT.LSTATE 3, 3), (Reg.HLP.STAT.LSTATE (3 : LPort), DOZE)] (State.reset), BitVec.ofNat 80 (0x3C5A * 2 ^ 64 + (osBits ⟨0,
     0⟩ ^^^ prbs7 64 127)), ⟨0, 0⟩, by decide +kernel⟩,
   ⟨3, R [(Reg.HLP.STAT.LSTATE 3, 3), (Reg.HLP.STAT.LANES 3, 0xF), (Reg.HLP.LRET.AUTO 3, 0xF), (Reg.HLP.STAT.LSTATE (3 : LPort), 3)] (State.reset),
     3, by decide +kernel⟩,
   ⟨3, R [(Reg.HLP.STAT.LSTATE 3, 3), (Reg.HLP.STAT.LANES 3, 0xF), (Reg.HLP.LRET.AUTO 3, 0xF), (Reg.HLP.STAT.LSTATE (3 : LPort), 3)] (State.reset),
     3, 1025, by decide +kernel⟩,
   ⟨3, R [(Reg.HLP.STAT.LSTATE 3, 3), (Reg.HLP.STAT.LANES 3, 0xF), (Reg.HLP.LRET.AUTO 3, 0xF), (Reg.HLP.STAT.LSTATE (3 : LPort), 3)] (State.reset),
     3, 1024, by decide +kernel⟩,
   ⟨3, R [(Reg.HLP.STAT.LSTATE 3, 3), (Reg.HLP.STAT.LANES 3, 0xF), (Reg.HLP.LRET.AUTO 3, 0xF), (Reg.HLP.STAT.LSTATE (3 : LPort),
     3)] (updLp 3 (fun z => { z with retire := some ⟨1, 0, none, false, false⟩ }) State.reset), 3, by decide +kernel⟩,
   ⟨3, R [(Reg.HLP.STAT.LSTATE 3, 3), (Reg.HLP.STAT.LANES 3, 0xF), (Reg.HLP.LRET.AUTO 3, 0xF), (Reg.HLP.STAT.LSTATE (3 : LPort), 3)] (State.reset),
     3, by decide +kernel⟩,
   ⟨3, R [(Reg.HLP.STAT.LSTATE 3, 3), (Reg.HLP.STAT.LANES 3, 0xF), (Reg.HLP.LRET.AUTO 3,
     0xF)] (updLp 3 (fun z => { z with retire := some ⟨8, 0, none, false, false⟩ }) State.reset), 8, 8, (((lp (R [(Reg.HLP.STAT.LSTATE 3, 3),
     (Reg.HLP.STAT.LANES 3, 0xF), (Reg.HLP.LRET.AUTO 3,
     0xF)] (updLp 3 (fun z => { z with retire := some ⟨8, 0, none, false, false⟩ }) State.reset)) (3 : LPort)).retire).get (by decide +kernel)),
     by decide +kernel⟩,
   ⟨3, R [(Reg.HLP.STAT.LSTATE 3, 3), (Reg.HLP.STAT.LANES 3, 0xF), (Reg.HLP.LRET.AUTO 3, 0xF)] (State.reset), 7, by decide +kernel⟩,
   ⟨3, R [(Reg.HLP.STAT.LSTATE 3, 3), (Reg.HLP.STAT.LANES 3, 0xF), (Reg.HLP.LRET.AUTO 3, 0xF)] (State.reset), 32767, by decide +kernel⟩,
   ⟨3, R [(Reg.HLP.STAT.LSTATE 3, 3), (Reg.HLP.STAT.LANES 3, 0xF), (Reg.HLP.LRET.AUTO 3,
     0xF)] (updLp 3 (fun z => { z with retire := some ⟨8, 0, none, false, false⟩ }) State.reset), (((lp (R [(Reg.HLP.STAT.LSTATE 3, 3),
     (Reg.HLP.STAT.LANES 3, 0xF), (Reg.HLP.LRET.AUTO 3,
     0xF)] (updLp 3 (fun z => { z with retire := some ⟨8, 0, none, false, false⟩ }) State.reset)) (3 : LPort)).retire).get (by decide +kernel)),
     ((lanesWithout (rd (Reg.HLP.STAT.LANES (3 : LPort)) (R [(Reg.HLP.STAT.LSTATE 3, 3), (Reg.HLP.STAT.LANES 3, 0xF), (Reg.HLP.LRET.AUTO 3,
     0xF)] (updLp 3 (fun z => { z with retire := some ⟨8, 0, none, false, false⟩ }) State.reset))) ((((lp (R [(Reg.HLP.STAT.LSTATE 3, 3),
     (Reg.HLP.STAT.LANES 3, 0xF), (Reg.HLP.LRET.AUTO 3,
     0xF)] (updLp 3 (fun z => { z with retire := some ⟨8, 0, none, false, false⟩ }) State.reset)) (3 : LPort)).retire).get (by decide +kernel))).lanes).get (by decide +kernel)).1,
     ((lanesWithout (rd (Reg.HLP.STAT.LANES (3 : LPort)) (R [(Reg.HLP.STAT.LSTATE 3, 3), (Reg.HLP.STAT.LANES 3, 0xF), (Reg.HLP.LRET.AUTO 3,
     0xF)] (updLp 3 (fun z => { z with retire := some ⟨8, 0, none, false, false⟩ }) State.reset))) ((((lp (R [(Reg.HLP.STAT.LSTATE 3, 3),
     (Reg.HLP.STAT.LANES 3, 0xF), (Reg.HLP.LRET.AUTO 3,
     0xF)] (updLp 3 (fun z => { z with retire := some ⟨8, 0, none, false, false⟩ }) State.reset)) (3 : LPort)).retire).get (by decide +kernel))).lanes).get (by decide +kernel)).2,
     by decide +kernel⟩,
   ⟨3, R [(Reg.HLP.STAT.LSTATE 3, 3), (Reg.HLP.STAT.LANES 3, 0xF), (Reg.HLP.LRET.AUTO 3,
     0xF)] (updLp 3 (fun z => { z with txFrame := 3, retire := some ⟨8, 0, some 3, true, false⟩ }) State.reset), (((lp (R [(Reg.HLP.STAT.LSTATE 3, 3),
     (Reg.HLP.STAT.LANES 3, 0xF), (Reg.HLP.LRET.AUTO 3,
     0xF)] (updLp 3 (fun z => { z with txFrame := 3, retire := some ⟨8, 0, some 3, true, false⟩ }) State.reset)) (3 : LPort)).retire).get (by decide +kernel)),
     ⟨3, by decide +kernel⟩, by decide +kernel⟩⟩

theorem test_hyps_CellsAreTakenInSequence :
    (∃ p : LPort, ∃ bytes : List Byte, ∃ s : State, bytes.length = 128 ∧ framesRun s p = true ∧ isOsSlot bytes = false ∧ slotCrcGood bytes = true ∧
      (lp s p).rx.waiting = false ∧ (lp s p).rx.skip = none ∧ creditUsedUp s p (ccOf (parseCell bytes).tc) = false ∧
      ((parseCell bytes).ver = 1 ∨ (parseCell bytes).ver = 2) ∧ headerGood (parseCell bytes) = true) ∧
    (∃ p : LPort, ∃ bytes : List Byte, ∃ s : State, bytes.length = 128 ∧ framesRun s p = true ∧ isOsSlot bytes = false ∧ slotCrcGood bytes = true ∧
      (lp s p).rx.waiting = true) ∧
    (∃ p : LPort, ∃ bytes : List Byte, ∃ s : State, ∃ k, bytes.length = 128 ∧ framesRun s p = true ∧ isOsSlot bytes = false ∧
      slotCrcGood bytes = true ∧ (lp s p).rx.waiting = false ∧ (lp s p).rx.skip = some k) ∧
    (∃ p : LPort, ∃ bytes : List Byte, ∃ s : State, bytes.length = 128 ∧ framesRun s p = true ∧ isOsSlot bytes = false ∧ slotCrcGood bytes = false ∧
      (lp s p).rx.waiting = false) ∧
    (∃ p : LPort, ∃ bytes : List Byte, ∃ s : State, bytes.length = 128 ∧ framesRun s p = true ∧ isOsSlot bytes = false ∧ slotCrcGood bytes = true ∧
      (lp s p).rx.waiting = false ∧ (lp s p).rx.skip = none ∧ creditUsedUp s p (ccOf (parseCell bytes).tc) = false ∧ (parseCell bytes).ver ≠ 1 ∧
      (parseCell bytes).ver ≠ 2) ∧
    (∃ p : LPort, ∃ bytes : List Byte, ∃ s : State, bytes.length = 128 ∧ framesRun s p = true ∧ isOsSlot bytes = false ∧ slotCrcGood bytes = true ∧
      (lp s p).rx.waiting = false ∧ (lp s p).rx.skip = none ∧ creditUsedUp s p (ccOf (parseCell bytes).tc) = true ∧ trained s p = true ∧
      rdB (Reg.HLP.CFG.EN p) s = true ∧ bypassHeld s p = false) :=
  ⟨⟨3, cellBytes { c0 with ver := 1, payload := List.replicate 116 7 }, R [(Reg.HLP.STAT.LSTATE 3, 3), (Reg.HLP.CFG.EN 3,
     1)] (L 3 fun z => { z with rx := { z.rx with clSent := [(0, 1)], e := 8191 } }), by decide +kernel⟩,
   ⟨3, cellBytes { c0 with ver := 1, payload := List.replicate 116 7 }, R [(Reg.HLP.STAT.LSTATE 3, 3), (Reg.HLP.CFG.EN 3,
     1)] (Rx 3 fun z => { z with waiting := true }), by decide +kernel⟩,
   ⟨3, cellBytes { c0 with ver := 1, payload := List.replicate 116 7 }, R [(Reg.HLP.STAT.LSTATE 3, 3), (Reg.HLP.CFG.EN 3,
     1)] (Rx 3 fun z => { z with skip := some 8190, e := 8191, clSent := [(0, 1)] }), 8190, by decide +kernel⟩,
   ⟨3, bd 128 [(0, 4, 7)], R [(Reg.HLP.STAT.LSTATE 3, 3), (Reg.HLP.CFG.EN 3,
     1)] (L 3 fun z => { z with rx := { z.rx with clSent := [(0, 1)], e := 8191 } }), by decide +kernel⟩,
   ⟨3, cellBytes { c0 with ver := 3, payload := List.replicate 116 7 }, R [(Reg.HLP.STAT.LSTATE 3, 3), (Reg.HLP.CFG.EN 3,
     1)] (L 3 fun z => { z with rx := { z.rx with clSent := [(0, 1)], e := 8191 } }), by decide +kernel⟩,
   ⟨3, cellBytes { c0 with ver := 1, payload := List.replicate 116 7 }, R [(Reg.HLP.STAT.LSTATE 3, 3), (Reg.HLP.CFG.EN 3, 1),
     (Reg.HLP.STAT.LSTATE (3 : LPort), 3), (Reg.HLP.CFG.EN (3 : LPort), 1)] (S0), by decide +kernel⟩⟩

theorem test_hyps_AcksReleaseAndNaksReplay :
    (∃ p : LPort, ∃ v : BitVec 13, ∃ s : State, trained s p = true ∧ Machine.ahead 8192 (oldestSeq (lp s p).tx) v.toNat ≤ (lp s p).tx.buf.length) ∧
    (∃ p : LPort, ∃ v : BitVec 13, ∃ s : State, trained s p = true ∧ (lp s p).tx.buf.length < Machine.ahead 8192 (oldestSeq (lp s p).tx) v.toNat) ∧
    (∃ p : LPort, ∃ v : BitVec 13, ∃ s : State, trained s p = true ∧ Machine.ahead 8192 (oldestSeq (lp s p).tx) v.toNat ≤ (lp s p).tx.buf.length ∧
      1 ≤ rd (Reg.HLP.LTIM.RPL_MAX p) s ∧
      (0 < Machine.ahead 8192 (oldestSeq (lp s p).tx) v.toNat ∨ (lp s p).tx.rplCount < rd (Reg.HLP.LTIM.RPL_MAX p) s)) :=
  ⟨⟨3, 0, R [(Reg.HLP.LTIM.RPL_MAX 3, 8), (Reg.HLP.STAT.LSTATE (3 : LPort),
     3)] (Tx 3 fun z => { z with seq := 1, buf := [{ t0 with seq := 8191 }, t0] }), by decide +kernel⟩,
   ⟨3, 2, R [(Reg.HLP.LTIM.RPL_MAX 3, 8), (Reg.HLP.STAT.LSTATE (3 : LPort),
     3)] (Tx 3 fun z => { z with seq := 1, buf := [{ t0 with seq := 8191 }, t0] }), by decide +kernel⟩,
   ⟨3, 1, R [(Reg.HLP.LTIM.RPL_MAX 3, 8), (Reg.HLP.STAT.LSTATE (3 : LPort),
     3)] (Tx 3 fun z => { z with seq := 1, buf := [{ t0 with seq := 8191 }, t0] }), by decide +kernel⟩⟩

theorem test_hyps_ReceiversAndReplaysRecover :
    (∃ p : LPort, ∃ s : State, (lp s p).rx.waiting = true) ∧
    (∃ p : LPort, ∃ s : State, ∃ seq : BitVec 13, seq.toNat = (lp s p).rx.e) ∧
    (∃ p : LPort, ∃ s : State, ∃ seq : BitVec 13, seq.toNat ≠ (lp s p).rx.e ∧ Machine.ahead 8192 (lp s p).rx.e seq.toNat < 4096) ∧
    (∃ p : LPort, ∃ s : State, ∃ seq : BitVec 13, 4096 ≤ Machine.ahead 8192 (lp s p).rx.e seq.toNat ∧ (lp s p).rx.waiting = false) ∧
    (∃ p : LPort, ∃ s : State, trained s p = true) ∧
    (∃ p : LPort, ∃ s : State, (lstate s p = ACTIVE ∨ lstate s p = HUM)) ∧
    (∃ p : LPort, ∃ s : State, ∃ cc : Fin 4, trained s p = true ∧ creditOf (lp s p).tx cc = 0) ∧
    (∃ p : LPort, ∃ s : State, ∃ x : BitVec 12, ∃ e : TxEnt, trained s p = true ∧
      (((lp s p).tx.custody ++ (lp s p).tx.buf).filter fun e => e.ent.cell.xpr && e.xseq == x.toNat && !e.isVoid).head? = some e) ∧
    (∃ p : LPort, ∃ s : State, trained s p = true ∧ (lp s p).tx.buf ≠ [] ∧ (lp s p).tx.rplCount < rd (Reg.HLP.LTIM.RPL_MAX p) s) ∧
    (∃ p : LPort, ∃ s : State, trained s p = true ∧ (lp s p).tx.buf ≠ [] ∧ (lp s p).tx.rplFrom = oldestSeq (lp s p).tx ∧ 0 < (lp s p).tx.rplCount ∧
      rd (Reg.HLP.LTIM.RPL_MAX p) s ≤ (lp s p).tx.rplCount ∧ lstate s p ≠ DORMANT ∧ rdB (Reg.HLP.CFG.EN p) s = true ∧ bypassHeld s p = false) :=
  ⟨⟨3, Rx 3 fun z => { z with e := 8191, waiting := true }, by decide +kernel⟩,
   ⟨3, Rx 3 fun z => { z with e := 5, waiting := true }, 5, by decide +kernel⟩,
   ⟨3, Rx 3 fun z => { z with e := 5, waiting := true }, 4100, by decide +kernel⟩,
   ⟨3, Rx 3 fun z => { z with e := 5 }, 4, by decide +kernel⟩,
   ⟨3, R [(Reg.HLP.STAT.LSTATE (3 : LPort), 3)] (Rx 3 fun z => { z with e := 5 }), by decide +kernel⟩,
   ⟨3, R [(Reg.HLP.STAT.LSTATE 3, 3)] (Rx 3 fun z => { z with e := 5 }), by decide +kernel⟩,
   ⟨3, R [(Reg.HLP.STAT.LSTATE (3 : LPort), 3)] (Rx 3 fun z => { z with e := 5 }), 3, by decide +kernel⟩,
   ⟨3, R [(Reg.HLP.STAT.LSTATE (3 : LPort), 3)] (Tx 3 fun z => { z with custody := [({ t0 with xseq := 0xFFF, ent := { q0 with cell := xc0 } })] }),
     0xFFF, { t0 with xseq := 0xFFF, ent := { q0 with cell := xc0 } }, by decide +kernel⟩,
   ⟨3, R [(Reg.HLP.LTIM.RPL_MAX 3, 8), (Reg.HLP.STAT.LSTATE (3 : LPort),
     3)] (Tx 3 fun z => { z with seq := 1, buf := [{ t0 with seq := 8191 }, t0] }), by decide +kernel⟩,
   ⟨3, R [(Reg.HLP.LTIM.RPL_MAX 3, 8), (Reg.HLP.STAT.LSTATE (3 : LPort), 3), (Reg.HLP.CFG.EN (3 : LPort),
     1)] (Tx 3 fun z => { z with seq := 1, buf := [t0], rplFrom := 0, rplCount := 8 }), by decide +kernel⟩⟩

theorem test_hyps_CreditWordsMoveTheLimit :
    (∃ p : LPort, ∃ s : State, lstate s p = TRAINING ∧ rd (Reg.HLP.STAT.PHASE p) s = 5) ∧
    (∃ p : LPort, ∃ cc : Fin 4, ∃ s : State, lstate s p = TRAINING ∧ rd (Reg.HLP.STAT.PHASE p) s = 5 ∧ (lp s p).tx.inited.contains cc.val = false ∧
      ((lp s p).tx.inited.length ≠ 3 ∨ (lp s p).goodFrames < 16)) ∧
    (∃ p : LPort, ∃ cc : Fin 4, ∃ s : State, lstate s p = TRAINING ∧ rd (Reg.HLP.STAT.PHASE p) s = 5 ∧ (lp s p).tx.inited.contains cc.val = false ∧
      (lp s p).tx.inited.length = 3 ∧ 16 ≤ (lp s p).goodFrames) ∧
    (∃ p : LPort, ∃ cc : Fin 4, ∃ s : State, ∃ cl : BitVec 16, ∃ xrel : BitVec 12, trained s p = true ∧
      1 ≤ Machine.ahead 65536 (Tab.get zeroN (lp s p).tx.known cc) cl.toNat ∧
      Machine.ahead 65536 (Tab.get zeroN (lp s p).tx.known cc) cl.toNat ≤ 32767 ∧
      Machine.ahead 65536 (Tab.get zeroN (lp s p).tx.cons cc) cl.toNat ≤ Tab.get zeroN (lp s p).tx.pool cc ∧ xBefore (lp s p).tx.xrel xrel.toNat = true) ∧
    (∃ p : LPort, ∃ cc : Fin 4, ∃ s : State, ∃ cl : BitVec 16, ∃ xrel : BitVec 12, trained s p = true ∧
      1 ≤ Machine.ahead 65536 (Tab.get zeroN (lp s p).tx.known cc) cl.toNat ∧
      Machine.ahead 65536 (Tab.get zeroN (lp s p).tx.known cc) cl.toNat ≤ 32767 ∧
      Tab.get zeroN (lp s p).tx.pool cc < Machine.ahead 65536 (Tab.get zeroN (lp s p).tx.cons cc) cl.toNat ∧
      xBefore (lp s p).tx.xrel xrel.toNat = false ∧ (lp s p).tx.faults < 3) ∧
    (∃ p : LPort, ∃ cc : Fin 4, ∃ s : State, ∃ low : BitVec 11, trained s p = true ∧ low.toNat ≠ Tab.get zeroN (lp s p).tx.known cc % 2048 ∧
      Machine.ahead 65536 (Tab.get zeroN (lp s p).tx.cons cc) ((Tab.get zeroN (lp s p).tx.known cc + Machine.ahead 2048 (Tab.get zeroN (lp s p).tx.known cc) low.toNat) % 65536) ≤ Tab.get zeroN (lp s p).tx.pool cc ∧
      Tab.get zeroN (lp s p).tx.known cc < 65536) :=
  ⟨⟨3, R [(Reg.HLP.STAT.LSTATE (3 : LPort), TRAINING), (Reg.HLP.STAT.PHASE (3 : LPort), 5)] (State.reset), by decide +kernel⟩,
   ⟨3, 3, R [(Reg.HLP.STAT.LSTATE (3 : LPort), TRAINING), (Reg.HLP.STAT.PHASE (3 : LPort), 5)] (State.reset), by decide +kernel⟩,
   ⟨3, 3, R [(Reg.HLP.STAT.LSTATE (3 : LPort), TRAINING), (Reg.HLP.STAT.PHASE (3 : LPort),
     5)] (L 3 (fun z => { z with goodFrames := 16 }) (Tx 3 fun z => { z with inited := [0, 1, 2] })), by decide +kernel⟩,
   ⟨3, 3, R [(Reg.HLP.STAT.LSTATE (3 : LPort), 3)] (Tx 3 fun z => { z with pool := [(3, 1)] }), 1, 1, by decide +kernel⟩,
   ⟨3, 3, R [(Reg.HLP.STAT.LSTATE (3 : LPort), 3)] (State.reset), 1, 0, by decide +kernel⟩,
   ⟨3, 3, R [(Reg.HLP.STAT.LSTATE (3 : LPort), 3)] (Tx 3 fun z => { z with known := [(3, 2047)], pool := [(3, 3000)] }), 0, by decide +kernel⟩⟩

theorem test_hyps_SlotsAreFilledInOrder :
    (∃ p : Fin 17, ∃ s : State, p.val < 4 ∧ (lstate s p = DISABLED ∨ lstate s p = DOWN ∨ lstate s p = DORMANT)) ∧
    (∃ p : Fin 17, ∃ s : State, ∃ k, p.val < 4 ∧ lstate s p = ACTIVE ∧ (lp s p).slotInFrame = 1 ∧ (lp s p).tx.replay = some k ∧
      (lp s p).tx.replayWord = true ∧ (lp s p).tx.buf ≠ []) ∧
    (∃ p : Fin 17, ∃ s : State, ∃ k, ∃ e, p.val < 4 ∧ lstate s p = ACTIVE ∧ (lp s p).slotInFrame = 1 ∧ (lp s p).tx.replay = some k ∧
      (lp s p).tx.replayWord = false ∧ ((lp s p).tx.buf.filter fun x => x.seq == k).head? = some e ∧ e.isVoid = false ∧
      (marksOf s p).contains e.ent.addr = true) ∧
    (∃ p : Fin 17, ∃ s : State, ∃ f, ∃ l, p.val < 4 ∧ lstate s p = ACTIVE ∧ (lp s p).slotInFrame = 1 ∧ (lp s p).tx.replay = none ∧
      (lp s p).osq = [] ∧ (lp s p).tx.buf.length < 4095 ∧ (lp s p).tx.recalls = [] ∧ custCount (lp s p).tx ≠ 1024 ∧ (lp s p).fifo = f :: l ∧
      (takeWrite s).isSome = true) ∧
    (∃ p : Fin 17, ∃ s : State, ∃ w, p.val < 4 ∧ lstate s p = HUM ∧ (lp s p).slotInFrame = 1 ∧ (lp s p).tx.replay = none ∧ (lp s p).osq = [w] ∧
      timeWord w = false ∧ w.typ ≠ 5 ∧ w.typ ≠ 0x11) ∧
    (∃ p : Fin 17, ∃ s : State, ∃ w, p.val < 4 ∧ lstate s p = DOZE ∧ (lp s p).osq = [w] ∧ w.typ = 0x18) ∧
    (∃ p : Fin 17, ∃ c : Nat, ∃ e : QEnt, ∃ opens : Bool, ∃ s : State, 4 ≤ p.val ∧ chooseClass (siftPort p s) p = some (c, opens) ∧
      headOf (siftPort p s) p c = some (e, false) ∧ p = 16 ∧ p16Takes s = true) ∧
    (∃ p : Fin 17, ∃ c : Nat, ∃ e : QEnt, ∃ opens : Bool, ∃ s : State, 4 ≤ p.val ∧ chooseClass (siftPort p s) p = some (c, opens) ∧
      headOf (siftPort p s) p c = some (e, false) ∧ p.val < 16 ∧ tolgerTakes s p = true ∧ linkState s (portSlot p) ≠ 4) :=
  ⟨⟨3, State.reset, by decide +kernel⟩,
   ⟨3, R [(Reg.HLP.STAT.LSTATE (3 : Fin 17),
     ACTIVE)] (L 3 (fun z => { z with slotInFrame := 1 }) (Tx 3 fun z => { z with seq := 1, buf := [t0], replay := some 0, replayWord := true })), 0,
     by decide +kernel⟩,
   ⟨3, R [(Reg.HLP.STAT.LSTATE (3 : Fin 17),
     ACTIVE)] (L 3 (fun z => { z with slotInFrame := 1 }) (Tx 3 (fun z => { z with seq := 1, buf := [t0], replay := some 0 }) (updComb (fun z => { z with marks := [(3, [0])] }) State.reset))),
     0, t0, by decide +kernel⟩,
   ⟨3, R [(Reg.HLP.STAT.LSTATE (3 : Fin 17), ACTIVE)] (L 3 (fun z => { z with slotInFrame := 1, fifo := [{ q0 with cell := xc0 }] })),
     { q0 with cell := xc0 }, [], by decide +kernel⟩,
   ⟨3, R [(Reg.HLP.STAT.LSTATE (3 : Fin 17), HUM)] (L 3 (fun z => { z with slotInFrame := 1, osq := [(⟨0x20, 1⟩)] })), ⟨0x20, 1⟩, by decide +kernel⟩,
   ⟨3, R [(Reg.HLP.STAT.LSTATE (3 : Fin 17), DOZE)] (L 3 (fun z => { z with osq := [(⟨0x18, 1⟩)] })), ⟨0x18, 1⟩, by decide +kernel⟩,
   ⟨16, 0, q0,
     ((chooseClass (siftPort (16 : Fin 17) (setMarks 16 [0] (setOutQ (8 * 16 + 0) [q0] State.reset))) (16 : Fin 17)).get (by decide +kernel)).2,
     setMarks 16 [0] (setOutQ (8 * 16 + 0) [q0] State.reset), by decide +kernel⟩,
   ⟨15, 0, q0, ((chooseClass (siftPort (15 : Fin 17) (setMarks 15 [0] (setOutQ (8 * 15 + 0) [q0] (D 0x17 .inService (R [(Reg.DIE.LSTAT.STATE 7,
     3)]))))) (15 : Fin 17)).get (by decide +kernel)).2, setMarks 15 [0] (setOutQ (8 * 15 + 0) [q0] (D 0x17 .inService (R [(Reg.DIE.LSTAT.STATE 7,
     3)]))), by decide +kernel⟩⟩

theorem test_hyps_HeldCellsEnterTheComb :
    (∃ p : Fin 17, ∃ h : Held, ∃ l : List Held, ∃ s : State, holdOf s p = h :: l ∧ cellWaiting s p h = false ∧
      (bulkPaused s && decide (4 ≤ p.val) && h.cell.f) = false ∧ (stagingOf s p).length < 4 ∧ (p.val < 4 ∨ h.policed = true) ∧
      (destOf s p h).noRoute = false ∧ awaits s h.cell = false ∧ (destOf s p h).outs ≠ [] ∧ h.cell.xpr = false) ∧
    (∃ p : Fin 17, ∃ h : Held, ∃ l : List Held, ∃ s : State, holdOf s p = h :: l ∧ cellWaiting s p h = false ∧
      (bulkPaused s && decide (4 ≤ p.val) && h.cell.f) = false ∧ (stagingOf s p).length < 4 ∧ (p.val < 4 ∨ h.policed = true) ∧ p.val < 4 ∧
      h.cell.xpr = true ∧ h.forced = none ∧ (destOf s p h).noRoute = false ∧ awaits s h.cell = false ∧ fallback s p h (destOf s p h) false = none) ∧
    (∃ p : Fin 17, ∃ h : Held, ∃ l : List Held, ∃ s : State, holdOf s p = h :: l ∧ cellWaiting s p h = false ∧
      (bulkPaused s && decide (4 ≤ p.val) && h.cell.f) = false ∧ (stagingOf s p).length < 4 ∧ (p.val < 4 ∨ h.policed = true) ∧ h.forced = none ∧
      h.cell.xpr = false ∧ (destOf s p h).noRoute = true ∧ awaits s h.cell = false) ∧
    (∃ p : Fin 17, ∃ h : Held, ∃ l : List Held, ∃ s : State, ∃ c, holdOf s p = h :: l ∧ cellWaiting s p h = false ∧
      (bulkPaused s && decide (4 ≤ p.val) && h.cell.f) = false ∧ (stagingOf s p).length < 4 ∧ (p.val < 4 ∨ h.policed = true) ∧ p.val < 4 ∧
      h.cell.xpr = true ∧ h.forced = none ∧ (destOf s p h).noRoute = false ∧ awaits s h.cell = false ∧ (destOf s p h).outs ≠ [] ∧
      fallback s p h (destOf s p h) false = some c ∧ c < 7) ∧
    (∃ c : Fin 8, ∃ s : State, ∃ p : Fin 18, ∃ e : QEnt, ∃ o : Nat, parkOf s (8 * p + c) = [e] ∧ voqParkOf s p = [] ∧ ageLimit s e.cell.tc = 0 ∧
      e.charged = false ∧ e.policed = true ∧ discardOf s (parkList p e.cell.tc) e = none ∧
      ringHolds s e.cell (lookup s p e.cell.dst e.cell.tun) = false ∧ toSpill s (8 * o + e.cell.tc) = false ∧ lookup s p e.cell.dst e.cell.tun = ⟨[o],
      false, false, false, false⟩ ∧ 4 ≤ o ∧ linkFailed s [o] = false ∧ awaits s e.cell = false ∧ voqOn s = false) ∧
    (∃ c : Fin 8, ∃ s : State, ∃ p : Fin 17, ∃ e : QEnt, voqOn s = true ∧ spillOf s (8 * p + c) = [] ∧ outQ s (8 * p + c) = [e]) ∧
    (∃ s : State, ∃ p : Fin 17, ∃ d : Fin 5, Tab.get zeroN s.comb.refills (8 * p + d) ≠ 0 ∧ (spillOf s (8 * p + d)).length ≤ 16 ∧
      (∀ e ∈ spillOf s (8 * p + d), ageLimit s e.cell.tc = 0) ∧ dcmServes s 5 = true ∧ (∃ b, b < 16 ∧ bankIn s b = true ∧ 16 ≤ bankFree s b)) ∧
    (∃ s : State, rdB Reg.CMB.STAT.AUDIT s = true ∧ s.comb.lost = []) ∧
    (∃ s : State, (∀ i, stagingOf s i = []) ∧ (∀ q, outQ s q = []) ∧ (∀ p, aheadOf s p = []) ∧ combMode s = 0 ∧ s.comb.vcauses = [] ∧ (∀ p,
      p < 4 → (lp s p).tx.replay = none)) ∧
    (∃ s : State, ∃ i : Fin 18, ∃ h : Held, ∃ q : Nat, (∀ j, j ≠ i.val → stagingOf s j = []) ∧ (∀ q, outQ s q = []) ∧ (∀ p, aheadOf s p = []) ∧
      stagingOf s i = [⟨h, i, [some q]⟩] ∧ q < 136 ∧ combMode s = 0 ∧ s.comb.vcauses = [] ∧ spillOf s q = [] ∧ (∀ p,
      p < 4 → (lp s p).tx.replay = none) ∧ h.charged = false ∧ (∃ b, b < 16 ∧ bankIn s b = true ∧ 0 < bankFree s b ∧ Tab.get zeroN s.comb.busy b ≤ 1)) :=
  ⟨⟨3, { h0 with cell := { c0 with dst := 5 } }, [], setHold 3 [({ h0 with cell := { c0 with dst := 5 } })] (E 0 5 0x84000001), by decide +kernel⟩,
   ⟨3, { h0 with cell := { xc0 with dst := 5, tc := 7 }, xseq := some 4095 }, [],
     setHold 3 [({ h0 with cell := { xc0 with dst := 5, tc := 7 }, xseq := some 4095 })] (Tx 1 (fun z => { z with known := [(3, 1)] }) (E 0 5 0x84100001 (R [(Reg.HLP.STAT.LSTATE 1,
     3)]))), by decide +kernel⟩,
   ⟨3, { h0 with cell := { c0 with dst := 5 } }, [], setHold 3 [({ h0 with cell := { c0 with dst := 5 } })] State.reset, by decide +kernel⟩,
   ⟨3, { h0 with cell := { xc0 with dst := 5, tc := 7 }, xseq := some 4095 }, [],
     setHold 3 [({ h0 with cell := { xc0 with dst := 5, tc := 7 }, xseq := some 4095 })] (E 0 5 0x84100001),
     ((fallback (setHold 3 [({ h0 with cell := { xc0 with dst := 5, tc := 7 }, xseq := some 4095 })] (E 0 5 0x84100001)) (3 : Fin 17) ({ h0 with cell := { xc0 with dst := 5, tc := 7 }, xseq := some 4095 }) (destOf (setHold 3 [({ h0 with cell := { xc0 with dst := 5, tc := 7 }, xseq := some 4095 })] (E 0 5 0x84100001)) (3 : Fin 17) ({ h0 with cell := { xc0 with dst := 5, tc := 7 }, xseq := some 4095 })) false).get (by decide +kernel)),
     by decide +kernel⟩,
   ⟨7, R [(Reg.CMB.AGE.LIMIT 0, 0), (Reg.CMB.STAT.MODE, 0)] (setPark (8 * 17 + 7) [q0] State.reset), 17, q0, 16, by decide +kernel⟩,
   ⟨7, setOutQ (8 * 16 + 7) [q0] (R [(Reg.CMB.STAT.MODE, 1)]), 16, q0, by decide +kernel⟩,
   ⟨D 0x11 .inService (updComb (fun z => { z with refills := [(132, 1)] }) State.reset), 16, 4, by decide +kernel⟩,
   ⟨R [(Reg.CMB.STAT.AUDIT, 1)] (State.reset), by decide +kernel⟩,
   ⟨R [(Reg.CMB.STAT.MODE, 0)] (updComb (fun z => { z with vcauses := [] }) State.reset), (fun _ => rfl), (fun _ => rfl), (fun _ => rfl),
     by decide +kernel⟩,
   ⟨R [(Reg.CMB.STAT.MODE, 0)] (updComb (fun z => { z with vcauses := [], staging := [(17, [⟨h0, 17, [some 135]⟩])] }) State.reset), 17, h0, 135,
     (fun j hj => Tab.get_set_other (fun _ => ([] : List Staged)) hj [⟨h0, 17, [some 135]⟩] []), (fun _ => rfl), (fun _ => rfl), by decide +kernel⟩⟩

theorem test_hyps_BanksRetireAndReturn :
    (∃ s : State, rdB Reg.CMB.STAT.FL_READY s = false) ∧
    (∃ b : Fin 16, ∃ s : State, accStat s Reg.CMB.BANKCTL.word.addr = ST_OK ∧ bit b (rd Reg.CMB.BANK.RETIRED s) = false ∧
      bit b (rd Reg.CMB.BANKCTL.RET_REQ s) = false ∧ (retiring s).length < maxRetired s ∧ bit b (rd Reg.CMB.BANK.TEST s) = false) ∧
    (∃ b : Fin 16, ∃ s : State, accStat s Reg.CMB.BANKCTL.word.addr = ST_OK ∧ bit b (rd Reg.CMB.BANK.RETIRED s) = false ∧
      bit b (rd Reg.CMB.BANKCTL.RET_REQ s) = false ∧ maxRetired s ≤ (retiring s).length ∧ combMode s ≠ 0) ∧
    (∃ b : Fin 16, ∃ s : State, bit b (rd Reg.CMB.BANK.TEST s) = true ∧ bit b (rd Reg.CMB.BANKCTL.RET_REQ s) = true ∧ combMode s = 0 ∧
      s.comb.rotRetire.contains b.val = false ∧ usedIn s b = [] ∧ s.comb.retWait = []) ∧
    (∃ b : Fin 16, ∃ s : State, accStat s Reg.CMB.BANKCTL.word.addr = ST_OK ∧ bit b (rd Reg.CMB.BANK.RETIRED s) = true) ∧
    (∃ b : Fin 16, ∃ s : State, bit b (rd Reg.CMB.BANKCTL.RTN_REQ s) = true ∧ bit b (rd Reg.CMB.BANK.RETIRED s) = true ∧ usedIn s b = []) ∧
    (∃ s : State, accStat s Reg.CMB.MODE.word.addr = ST_OK ∧ s.comb.vcauses = [] ∧ combMode s = 0 ∧ queuesHeld s = true) ∧
    (∃ s : State, accStat s Reg.CMB.MODE.word.addr = ST_OK ∧ s.comb.vcauses = [] ∧ combMode s = 0 ∧ queuesHeld s = false) ∧
    (∃ s : State, accStat s Reg.CMB.MODE.word.addr = ST_OK ∧ s.comb.vcauses = [4] ∧ combMode s = 1 ∧ voqsHeld s = false) :=
  ⟨⟨R [(Reg.CMB.STAT.FL_READY, 0)] (State.reset), by decide +kernel⟩,
   ⟨15, R [(Reg.CMB.BANK.RETIRED, 0)] (State.reset), by decide +kernel⟩,
   ⟨15, R [(Reg.CMB.BANK.RETIRED, 0), (Reg.CMB.BANKCTL.RET_REQ, 0xF), (Reg.CMB.STAT.MODE, 2)] (State.reset), by decide +kernel⟩,
   ⟨15, R [(Reg.CMB.BANK.TEST, 0x8000), (Reg.CMB.BANKCTL.RET_REQ, 0x8000), (Reg.CMB.STAT.MODE, 0)] (State.reset), by decide +kernel⟩,
   ⟨15, R [(Reg.CMB.BANK.RETIRED, 0x8000)] (State.reset), by decide +kernel⟩,
   ⟨15, R [(Reg.CMB.BANK.RETIRED, 0x8000), (Reg.CMB.BANKCTL.RTN_REQ, 0x8000)] (State.reset), by decide +kernel⟩,
   ⟨R [(Reg.CMB.STAT.MODE, 0)] (setOutQ 7 [q0] (updComb (fun z => { z with vcauses := [] }) State.reset)), by decide +kernel⟩,
   ⟨R [(Reg.CMB.STAT.MODE, 0)] (updComb (fun z => { z with vcauses := [] }) State.reset), by decide +kernel⟩,
   ⟨updComb (fun z => { z with vcauses := [4] }) State.reset, by decide +kernel⟩⟩

theorem test_hyps_TablesAreReadEditedAndSwapped :
    (∃ o : Origin, ∃ body : List Byte, ∃ t : Nat, ∃ i : Nat, ∃ s : State, ∃ n, mayDispatch s o = true ∧ field body 0 1 = t ∧ t ≤ 3 ∧
      zeroAt body 1 1 = true ∧ body.length = 8 ∧ field body 2 2 = i ∧ field body 4 2 = n ∧ zeroAt body 6 2 = true ∧ 0 < n ∧ n ≤ 512 ∧ i + n ≤ 16384) ∧
    (∃ o : Origin, ∃ body : List Byte, ∃ t : Nat, ∃ i : Nat, ∃ s : State, ∃ e, mayDispatch s o = true ∧ field body 0 1 = t ∧ t ≤ 3 ∧
      zeroAt body 1 1 = true ∧ body.length = 8 + (if t = 2 then 8 else 4) ∧ field body 2 2 = i ∧ i < 16384 ∧ field body 4 2 = 1 ∧
      zeroAt body 6 2 = true ∧ field body 8 (if t = 2 then 8 else 4) = e ∧ editCheck s t i e = ST_OK) ∧
    (∃ o : Origin, ∃ body : List Byte, ∃ t : Nat, ∃ i : Nat, ∃ s : State, ∃ e, mayDispatch s o = true ∧ field body 0 1 = t ∧ t ≤ 3 ∧
      zeroAt body 1 1 = true ∧ body.length = 8 + (if t = 2 then 8 else 4) ∧ field body 2 2 = i ∧ i < 16384 ∧ field body 4 2 = 1 ∧
      zeroAt body 6 2 = true ∧ field body 8 (if t = 2 then 8 else 4) = e ∧ editCheck s t i e ≠ ST_OK) ∧
    (∃ o : Origin, ∃ body : List Byte, ∃ t : Nat, ∃ s : State, mayDispatch s o = true ∧ field body 0 1 = t ∧ t ≤ 3 ∧ zeroAt body 1 1 = true ∧
      body.length = 4 ∧ zeroAt body 1 3 = true ∧ rdB Reg.RTE.FGR.BUSY s = false ∧ s1Up s = true) ∧
    (∃ o : Origin, ∃ body : List Byte, ∃ t : Nat, ∃ s : State, mayDispatch s o = true ∧ field body 0 1 = t ∧ t ≤ 3 ∧ zeroAt body 1 1 = true ∧
      body.length = 4 ∧ zeroAt body 1 3 = true ∧ (rdB Reg.RTE.FGR.BUSY s = true ∨ s1Up s = false)) ∧
    (∃ o : Origin, ∃ body : List Byte, ∃ t : Nat, ∃ s : State, mayDispatch s o = true ∧ field body 0 1 = t ∧ t ≤ 3 ∧ zeroAt body 1 1 = true ∧
      body.length = 4 ∧ zeroAt body 1 3 = true ∧ shok s t = true) ∧
    (∃ o : Origin, ∃ body : List Byte, ∃ t : Nat, ∃ s : State, mayDispatch s o = true ∧ field body 0 1 = t ∧ t ≤ 3 ∧ zeroAt body 1 1 = true ∧
      body.length = 4 ∧ zeroAt body 1 3 = true ∧ shok s t = false) ∧
    (∃ o : Origin, ∃ body : List Byte, ∃ i : Nat, ∃ s : State, mayDispatch s o = true ∧ field body 0 2 = i ∧ i < 16384 ∧ zeroAt body 2 2 = true ∧
      body.length = 4) ∧
    (∃ o : Origin, ∃ body : List Byte, ∃ i : Nat, ∃ s : State, mayDispatch s o = true ∧ field body 0 2 = i ∧ i < 16384 ∧ zeroAt body 2 2 = true ∧
      body.length = 24 ∧ 0 < i ∧ zeroAt body 5 3 = true ∧ field body 4 1 = 1 ∧ editCheck s 1 i (field body 16 4) = ST_OK) ∧
    (∃ o : Origin, ∃ body : List Byte, ∃ i : Nat, ∃ s : State, mayDispatch s o = true ∧ field body 0 2 = i ∧ i < 16384 ∧ zeroAt body 2 2 = true ∧
      body.length = 24 ∧ 0 < i ∧ zeroAt body 5 3 = true ∧ field body 4 1 = 4 ∧ editCheck s 2 i (field body 8 8) = ST_OK) ∧
    (∃ o : Origin, ∃ body : List Byte, ∃ i : Nat, ∃ s : State, mayDispatch s o = true ∧ field body 0 2 = i ∧ i < 16384 ∧ zeroAt body 2 2 = true ∧
      body.length = 24 ∧ 0 < i ∧ zeroAt body 5 3 = true ∧ bit 0 (field body 4 1) = true ∧ field body 4 1 ≤ 7 ∧
      editCheck s 1 i (field body 16 4) ≠ ST_OK) ∧
    (∃ o : Origin, ∃ body : List Byte, ∃ i : Nat, ∃ s : State, mayDispatch s o = true ∧ field body 0 2 = i ∧ i < 16384 ∧ zeroAt body 2 2 = true ∧
      body.length = 24 ∧ 0 < i ∧ zeroAt body 5 3 = true ∧ (field body 4 1 = 0 ∨ 7 < field body 4 1)) ∧
    (∃ t : Fin 4, ∃ s : State, ∃ i : Nat, dcmServes s 2 = true ∧ s.topo.recompute.contains (t.val, i) = true) ∧
    (∃ t : Fin 4, ∃ s : State, dcmServes s 6 = true ∧ (tbl s t).rebuilding = true ∧ rdB Reg.RTE.FGR.AUTOSWAP s = false) ∧
    (∃ t : Fin 4, ∃ s : State, dcmServes s 6 = true ∧ (tbl s t).rebuilding = true ∧ rdB Reg.RTE.FGR.AUTOSWAP s = true) ∧
    (∃ s : State, ∃ a, dcmServes s 6 = true ∧ s.topo.expanding = some a ∧ rdB Reg.RTE.FGR.AUTOSWAP s = false) :=
  ⟨⟨o0, bd (8) [(0, 1, (3 : Nat)), (2, 2, (15872 : Nat)), (4, 2, (512))], 3, 15872, State.reset, 512, by decide +kernel⟩,
   ⟨o0, bd (8 + (if (2 : Nat) = 2 then 8 else 4)) [(0, 1, (2 : Nat)), (2, 2, (16383 : Nat)), (4, 2, 1)], 2, 16383, D 0x11 .inService, 0,
     by decide +kernel⟩,
   ⟨o0, bd 12 [(0, 1, 0), (2, 2, 16383), (4, 2, 1), (8, 4, 0x80000000)], 0, 16383, S0, 0x80000000, by decide +kernel⟩,
   ⟨o0, bd (4) [(0, 1, (3 : Nat))], 3, R [(Reg.RTE.FGR.BUSY, 0)] (D 0x11 .inService), by decide +kernel⟩,
   ⟨o0, bd (4) [(0, 1, (3 : Nat))], 3, State.reset, by decide +kernel⟩,
   ⟨o0, bd (4) [(0, 1, (3 : Nat))], 3, R [(Reg.RTE.FGR2.SHOK, 8)] (State.reset), by decide +kernel⟩,
   ⟨o0, bd (4) [(0, 1, (3 : Nat))], 3, State.reset, by decide +kernel⟩,
   ⟨o0, bd (4) [(0, 2, (16383 : Nat))], 16383, D 0x11 .inService, by decide +kernel⟩,
   ⟨o0, bd (24) [(0, 2, (16383 : Nat)), (4, 1, 1)], 16383, D 0x11 .inService, by decide +kernel⟩,
   ⟨o0, bd (24) [(0, 2, (16383 : Nat)), (4, 1, 4)], 16383, D 0x11 .inService, by decide +kernel⟩,
   ⟨o0, bd (24) [(0, 2, (16383 : Nat)), (4, 1, 7), (16, 4, 0)], 16383, S0, by decide +kernel⟩,
   ⟨o0, bd (24) [(0, 2, (16383 : Nat)), (4, 1, 8)], 16383, D 0x11 .inService, by decide +kernel⟩,
   ⟨3, updTopo (fun z => { z with recompute := [(3, 16383)] }) (D 0x11 .inService), 16383, by decide +kernel⟩,
   ⟨3, R [(Reg.RTE.FGR.AUTOSWAP, 0)] (setTbl 3 { LdTable.reset with rebuilding := true, master := [(16383, 5)] } (D 0x11 .inService)),
     by decide +kernel⟩,
   ⟨3, R [(Reg.RTE.FGR.AUTOSWAP, 1)] (setTbl 3 { LdTable.reset with rebuilding := true, master := [(16383, 5)] } (D 0x11 .inService)),
     by decide +kernel⟩,
   ⟨R [(Reg.RTE.FGR.AUTOSWAP, 0)] (updTopo (fun z => { z with expanding := some 5 }) (D 0x11 .inService)), 5, by decide +kernel⟩⟩

theorem test_hyps_AddressesRingsAndBypass :
    (∃ p : LPort, ∃ s : State, ∃ o : Origin, ∃ body : List Byte, ∃ a : Nat, mayDispatch s o = true ∧ body.length = 4 ∧ o.ep = .line ∧
      o.inPort = some p.val ∧ rdB Reg.RTE.ADDR.LOCK s = false ∧ isHead s = false ∧ field body 0 2 = a ∧ 0x10 ≤ a ∧ a ≤ 0x3FFD ∧
      zeroAt body 2 2 = true ∧ ownAddr s = 0) ∧
    (∃ p : LPort, ∃ s : State, ∃ o : Origin, ∃ body : List Byte, ∃ a : Nat, mayDispatch s o = true ∧ body.length = 4 ∧ o.ep = .line ∧
      o.inPort = some p.val ∧ rdB Reg.RTE.ADDR.LOCK s = false ∧ isHead s = false ∧ field body 0 2 = a ∧ 0x10 ≤ a ∧ a ≤ 0x3FFD ∧
      zeroAt body 2 2 = true ∧ ownAddr s ≠ 0 ∧ rdB Reg.RTE.ADDR.UPV s = true ∧ rd Reg.RTE.ADDR.UP s = p.val ∧ a = ownAddr s) ∧
    (∃ p : LPort, ∃ s : State, ∃ o : Origin, ∃ body : List Byte, ∃ a : Nat, mayDispatch s o = true ∧ body.length = 4 ∧ o.ep = .line ∧
      o.inPort = some p.val ∧ rdB Reg.RTE.ADDR.LOCK s = false ∧ isHead s = false ∧ field body 0 2 = a ∧ 0x10 ≤ a ∧ a ≤ 0x3FFD ∧
      zeroAt body 2 2 = true ∧ ownAddr s ≠ 0 ∧ rdB Reg.RTE.ADDR.UPV s = true ∧ rd Reg.RTE.ADDR.UP s = p.val ∧ a ≠ ownAddr s) ∧
    (∃ p : LPort, ∃ s : State, ∃ o : Origin, ∃ body : List Byte, ∃ a : Nat, mayDispatch s o = true ∧ body.length = 4 ∧ o.ep = .line ∧
      o.inPort = some p.val ∧ rdB Reg.RTE.ADDR.LOCK s = false ∧ isHead s = false ∧ field body 0 2 = a ∧ 0x10 ≤ a ∧ a ≤ 0x3FFD ∧
      zeroAt body 2 2 = true ∧ ownAddr s ≠ 0 ∧ rd Reg.RTE.ADDR.UP s ≠ p.val) ∧
    (∃ s : State, ∃ o : Origin, ∃ body : List Byte, mayDispatch s o = true ∧ body.length = 4 ∧
      (o.ep ≠ .line ∨ o.inPort = none ∨ rdB Reg.RTE.ADDR.LOCK s = true ∨ isHead s = true)) ∧
    (∃ s : State, accStat s Reg.RTE.ADDR.word.addr = ST_OK) ∧
    (∃ p : LPort, ∃ s : State, ∃ g, (∀ i, Tab.get (fun _ => none) s.cmd.relays i ≠ some (.assign p.val)) ∧ (lp s p).assigning = true ∧
      enumerates s p = true ∧ freeRelay s = some g) ∧
    (∃ p : LPort, ∃ s : State, (lp s p).assigning = false) ∧
    (∃ q : LPort, ∃ s : State, ∃ h, ∃ u, takeRing q.val 0x0101 s = some (h, u) ∧ h.cell.src = ownAddr s) ∧
    (∃ q : LPort, ∃ s : State, ∃ h, ∃ u, takeRing q.val 0x0101 s = some (h, u) ∧ h.cell.src ≠ ownAddr s ∧ ringEn s = true ∧ isRingPort s q = true ∧
      rteV (entry s 0 h.cell.src) = true ∧ rtePORT (entry s 0 h.cell.src) = q.val ∧ (breaksOf s q).length < 4) ∧
    (∃ q : LPort, ∃ s : State, ∃ h, ∃ u, ∃ r, ∃ l, ∃ b,
      takeFirst (fun x : BreakRec => !x.own && x.src == h.cell.src && x.nbr == field h.cell.payload 2 2 && x.port == field h.cell.payload 4 1) (breaksOf s q) = some (r,
      l) ∧ takeRing q.val 0x0102 s = some (h, u) ∧ h.cell.src ≠ ownAddr s ∧ appliedBreak s q = some b) ∧
    (∃ q : LPort, ∃ s : State, ∃ r, ∃ b, appliedBreak s q = some b ∧ ownBreak s q = some r ∧ ringEn s = true ∧ rdB Reg.RTE.RING.REVERT s = true ∧
      lstate s q = ACTIVE ∧ domSt s q = .inService) ∧
    (∃ s : State, accStat s Reg.RTE.RING.word.addr = ST_OK) ∧
    (∃ s : State, accStat s Reg.RTE.BYP.word.addr = ST_OK) :=
  ⟨⟨3, R [(Reg.RTE.ADDR.ADDR, 0), (Reg.RTE.ADDR.LOCK, 0)] (State.reset), { o0 with ep := .line, inPort := some 3 }, bd (4) [(0, 2, (0x3FFD : Nat))],
     0x3FFD, by decide +kernel⟩,
   ⟨3, R [(Reg.RTE.ADDR.ADDR, 0x3FFD), (Reg.RTE.ADDR.LOCK, 0), (Reg.RTE.ADDR.UPV, 1), (Reg.RTE.ADDR.UP, (3 : LPort).val)] (State.reset),
     { o0 with ep := .line, inPort := some 3 }, bd (4) [(0, 2, (0x3FFD : Nat))], 0x3FFD, by decide +kernel⟩,
   ⟨3, R [(Reg.RTE.ADDR.ADDR, 0x10), (Reg.RTE.ADDR.LOCK, 0), (Reg.RTE.ADDR.UPV, 1), (Reg.RTE.ADDR.UP, (3 : LPort).val)] (State.reset),
     { o0 with ep := .line, inPort := some 3 }, bd (4) [(0, 2, (0x3FFD : Nat))], 0x3FFD, by decide +kernel⟩,
   ⟨3, R [(Reg.RTE.ADDR.ADDR, 0x10), (Reg.RTE.ADDR.UP, 0)] (State.reset), { o0 with ep := .line, inPort := some 3 }, bd (4) [(0, 2, (0x3FFD : Nat))],
     0x3FFD, by decide +kernel⟩,
   ⟨R [(Reg.RTE.ADDR.ADDR, 0)] (State.reset), o0, bd (4) [], by decide +kernel⟩,
   ⟨R [(Reg.RTE.ADDR.ADDR, 0)] (State.reset), by decide +kernel⟩,
   ⟨3, R [(Reg.HLP.STAT.LSTATE 3, 3), (Reg.RTE.ADDR.ADDR, 0x10), (Reg.RTE.ENUM1.OFS_HI,
     1)] (L 3 (fun z => { z with assigning := true }) State.reset), ((freeRelay (R [(Reg.HLP.STAT.LSTATE 3, 3), (Reg.RTE.ADDR.ADDR, 0x10),
     (Reg.RTE.ENUM1.OFS_HI, 1)] (L 3 (fun z => { z with assigning := true }) State.reset))).get (by decide +kernel)), (fun _ => nofun),
     by decide +kernel⟩,
   ⟨3, R [(Reg.RTE.ADDR.ADDR, 0)] (State.reset), by decide +kernel⟩,
   ⟨3, R [(Reg.RTE.RING.EN, 1)] (setHold 3 [{ h0 with cell := ringCell State.reset 0x0101 5 3 }] State.reset),
     ((takeRing (3 : LPort).val 0x0101 (R [(Reg.RTE.RING.EN,
     1)] (setHold 3 [{ h0 with cell := ringCell State.reset 0x0101 5 3 }] State.reset))).get (by decide +kernel)).1,
     ((takeRing (3 : LPort).val 0x0101 (R [(Reg.RTE.RING.EN,
     1)] (setHold 3 [{ h0 with cell := ringCell State.reset 0x0101 5 3 }] State.reset))).get (by decide +kernel)).2, by decide +kernel⟩,
   ⟨3, R [(Reg.RTE.RING.EN, 1), (Reg.RTE.RING.PA,
     3)] (setHold 3 [{ h0 with cell := { ringCell State.reset 0x0101 5 3 with src := 5 } }] (E 0 5 0x8C000001 (updTopo (fun z => { z with breaks := [(3, [⟨false, 1, 1, 1, 1⟩, ⟨false, 1, 1, 1, 1⟩, ⟨false, 1, 1, 1, 1⟩])] }) State.reset))),
     ((takeRing (3 : LPort).val 0x0101 (R [(Reg.RTE.RING.EN, 1), (Reg.RTE.RING.PA,
     3)] (setHold 3 [{ h0 with cell := { ringCell State.reset 0x0101 5 3 with src := 5 } }] (E 0 5 0x8C000001 (updTopo (fun z => { z with breaks := [(3, [⟨false, 1, 1, 1, 1⟩, ⟨false, 1, 1, 1, 1⟩, ⟨false, 1, 1, 1, 1⟩])] }) State.reset))))).get (by decide +kernel)).1,
     ((takeRing (3 : LPort).val 0x0101 (R [(Reg.RTE.RING.EN, 1), (Reg.RTE.RING.PA,
     3)] (setHold 3 [{ h0 with cell := { ringCell State.reset 0x0101 5 3 with src := 5 } }] (E 0 5 0x8C000001 (updTopo (fun z => { z with breaks := [(3, [⟨false, 1, 1, 1, 1⟩, ⟨false, 1, 1, 1, 1⟩, ⟨false, 1, 1, 1, 1⟩])] }) State.reset))))).get (by decide +kernel)).2,
     by decide +kernel⟩,
   ⟨3, R [(Reg.RTE.RING.EN, 1), (Reg.RTE.RING.PA,
     3)] (setHold 3 [{ h0 with cell := { ringCell State.reset 0x0102 7 3 with src := 5 } }] (updTopo (fun z => { z with breaks := [(3, [⟨false, 1, 5, 7, 3⟩])] }) State.reset)),
     ((takeRing (3 : LPort).val 0x0102 (R [(Reg.RTE.RING.EN, 1), (Reg.RTE.RING.PA,
     3)] (setHold 3 [{ h0 with cell := { ringCell State.reset 0x0102 7 3 with src := 5 } }] (updTopo (fun z => { z with breaks := [(3, [⟨false, 1, 5, 7, 3⟩])] }) State.reset)))).get (by decide +kernel)).1,
     ((takeRing (3 : LPort).val 0x0102 (R [(Reg.RTE.RING.EN, 1), (Reg.RTE.RING.PA,
     3)] (setHold 3 [{ h0 with cell := { ringCell State.reset 0x0102 7 3 with src := 5 } }] (updTopo (fun z => { z with breaks := [(3, [⟨false, 1, 5, 7, 3⟩])] }) State.reset)))).get (by decide +kernel)).2,
     ((takeFirst (fun x : BreakRec => !x.own && x.src == (((takeRing (3 : LPort).val 0x0102 (R [(Reg.RTE.RING.EN, 1), (Reg.RTE.RING.PA, 3)] (setHold 3 [{ h0 with cell := { ringCell State.reset 0x0102 7 3 with src := 5 } }] (updTopo (fun z => { z with breaks := [(3, [⟨false, 1, 5, 7, 3⟩])] }) State.reset)))).get (by decide +kernel)).1).cell.src && x.nbr == field (((takeRing (3 : LPort).val 0x0102 (R [(Reg.RTE.RING.EN, 1), (Reg.RTE.RING.PA, 3)] (setHold 3 [{ h0 with cell := { ringCell State.reset 0x0102 7 3 with src := 5 } }] (updTopo (fun z => { z with breaks := [(3, [⟨false, 1, 5, 7, 3⟩])] }) State.reset)))).get (by decide +kernel)).1).cell.payload 2 2 && x.port == field (((takeRing (3 : LPort).val 0x0102 (R [(Reg.RTE.RING.EN, 1), (Reg.RTE.RING.PA, 3)] (setHold 3 [{ h0 with cell := { ringCell State.reset 0x0102 7 3 with src := 5 } }] (updTopo (fun z => { z with breaks := [(3, [⟨false, 1, 5, 7, 3⟩])] }) State.reset)))).get (by decide +kernel)).1).cell.payload 4 1) (breaksOf (R [(Reg.RTE.RING.EN,
     1), (Reg.RTE.RING.PA,
     3)] (setHold 3 [{ h0 with cell := { ringCell State.reset 0x0102 7 3 with src := 5 } }] (updTopo (fun z => { z with breaks := [(3, [⟨false, 1, 5, 7, 3⟩])] }) State.reset))) (3 : LPort))).get (by decide +kernel)).1,
     ((takeFirst (fun x : BreakRec => !x.own && x.src == (((takeRing (3 : LPort).val 0x0102 (R [(Reg.RTE.RING.EN, 1), (Reg.RTE.RING.PA, 3)] (setHold 3 [{ h0 with cell := { ringCell State.reset 0x0102 7 3 with src := 5 } }] (updTopo (fun z => { z with breaks := [(3, [⟨false, 1, 5, 7, 3⟩])] }) State.reset)))).get (by decide +kernel)).1).cell.src && x.nbr == field (((takeRing (3 : LPort).val 0x0102 (R [(Reg.RTE.RING.EN, 1), (Reg.RTE.RING.PA, 3)] (setHold 3 [{ h0 with cell := { ringCell State.reset 0x0102 7 3 with src := 5 } }] (updTopo (fun z => { z with breaks := [(3, [⟨false, 1, 5, 7, 3⟩])] }) State.reset)))).get (by decide +kernel)).1).cell.payload 2 2 && x.port == field (((takeRing (3 : LPort).val 0x0102 (R [(Reg.RTE.RING.EN, 1), (Reg.RTE.RING.PA, 3)] (setHold 3 [{ h0 with cell := { ringCell State.reset 0x0102 7 3 with src := 5 } }] (updTopo (fun z => { z with breaks := [(3, [⟨false, 1, 5, 7, 3⟩])] }) State.reset)))).get (by decide +kernel)).1).cell.payload 4 1) (breaksOf (R [(Reg.RTE.RING.EN,
     1), (Reg.RTE.RING.PA,
     3)] (setHold 3 [{ h0 with cell := { ringCell State.reset 0x0102 7 3 with src := 5 } }] (updTopo (fun z => { z with breaks := [(3, [⟨false, 1, 5, 7, 3⟩])] }) State.reset))) (3 : LPort))).get (by decide +kernel)).2,
     ((appliedBreak (R [(Reg.RTE.RING.EN, 1), (Reg.RTE.RING.PA,
     3)] (setHold 3 [{ h0 with cell := { ringCell State.reset 0x0102 7 3 with src := 5 } }] (updTopo (fun z => { z with breaks := [(3, [⟨false, 1, 5, 7, 3⟩])] }) State.reset))) (3 : LPort)).get (by decide +kernel)),
     rfl, by decide +kernel⟩,
   ⟨3, R [(Reg.RTE.RING.EN, 1), (Reg.RTE.RING.PA, 3), (Reg.RTE.RING.REVERT, 1), (Reg.HLP.STAT.LSTATE (3 : LPort),
     ACTIVE)] (updTopo (fun z => { z with breaks := [(3, [⟨true, 0, 0, 7, 3⟩])] }) State.reset), ((ownBreak (R [(Reg.RTE.RING.EN, 1), (Reg.RTE.RING.PA,
     3), (Reg.RTE.RING.REVERT, 1), (Reg.HLP.STAT.LSTATE (3 : LPort),
     ACTIVE)] (updTopo (fun z => { z with breaks := [(3, [⟨true, 0, 0, 7, 3⟩])] }) State.reset)) (3 : LPort)).get (by decide +kernel)),
     ((appliedBreak (R [(Reg.RTE.RING.EN, 1), (Reg.RTE.RING.PA, 3), (Reg.RTE.RING.REVERT, 1), (Reg.HLP.STAT.LSTATE (3 : LPort),
     ACTIVE)] (updTopo (fun z => { z with breaks := [(3, [⟨true, 0, 0, 7, 3⟩])] }) State.reset)) (3 : LPort)).get (by decide +kernel)),
     by decide +kernel⟩,
   ⟨State.reset, by decide +kernel⟩,
   ⟨State.reset, by decide +kernel⟩⟩

theorem test_hyps_ShapersAndPolicersAreSet :
    (∃ s : State, ∃ req : EntryPoint, ∃ i : Nat, ∃ cfg : Word, ∃ burst : Word, accStat s Reg.SCH.SHP_CTL.word.addr = ST_OK ∧
      rd (Reg.SCH.SEL.INDEX.mine req) s = i ∧ regGet s (Reg.SCH.SHP_CFG.word.mine req).addr = cfg ∧
      regGet s (Reg.SCH.SHP_BURST.word.mine req).addr = burst ∧ shaperCheck s i cfg = ST_OK) ∧
    (∃ s : State, ∃ req : EntryPoint, ∃ i : Nat, ∃ cfg : Word, ∃ burst : Word, accStat s Reg.SCH.SHP_CTL.word.addr = ST_OK ∧
      rd (Reg.SCH.SEL.INDEX.mine req) s = i ∧ regGet s (Reg.SCH.SHP_CFG.word.mine req).addr = cfg ∧
      regGet s (Reg.SCH.SHP_BURST.word.mine req).addr = burst ∧ shaperCheck s i cfg ≠ ST_OK) ∧
    (∃ s : State, ∃ req : EntryPoint, ∃ i : Nat, ∃ cfg : Word, ∃ burst : Word, accStat s Reg.SCH.SHP_CTL.word.addr = ST_OK ∧
      rd (Reg.SCH.SEL.INDEX.mine req) s = i ∧ regGet s (Reg.SCH.SHP_CFG.word.mine req).addr = cfg ∧
      regGet s (Reg.SCH.SHP_BURST.word.mine req).addr = burst ∧ shaperUsed i = true) ∧
    (∃ s : State, ∃ req : EntryPoint, ∃ i : Nat, ∃ cfg : Word, ∃ burst : Word, accStat s Reg.SCH.SHP_CTL.word.addr = ST_OK ∧
      rd (Reg.SCH.SEL.INDEX.mine req) s = i ∧ regGet s (Reg.SCH.SHP_CFG.word.mine req).addr = cfg ∧
      regGet s (Reg.SCH.SHP_BURST.word.mine req).addr = burst ∧ shaperUsed i = false) ∧
    (∃ s : State, ∃ req : EntryPoint, ∃ i : Nat, ∃ cfg : Word, ∃ burst : Word, accStat s Reg.GRD.POL_CTL.word.addr = ST_OK ∧
      rd (Reg.GRD.SEL.INDEX.mine req) s = i ∧ regGet s (Reg.GRD.POL_CFG.word.mine req).addr = cfg ∧
      regGet s (Reg.GRD.POL_BURST.word.mine req).addr = burst ∧ 0 < i ∧ i < 4096 ∧ 0 < shpRATE cfg ∧ shpRATE cfg ≤ 200000) ∧
    (∃ s : State, ∃ req : EntryPoint, ∃ i : Nat, ∃ cfg : Word, ∃ burst : Word, accStat s Reg.GRD.POL_CTL.word.addr = ST_OK ∧
      rd (Reg.GRD.SEL.INDEX.mine req) s = i ∧ regGet s (Reg.GRD.POL_CFG.word.mine req).addr = cfg ∧
      regGet s (Reg.GRD.POL_BURST.word.mine req).addr = burst ∧ (shpRATE cfg = 0 ∨ 200000 < shpRATE cfg ∨ i = 0)) ∧
    (∃ s : State, ∃ req : EntryPoint, ∃ i : Nat, ∃ cfg : Word, ∃ burst : Word, accStat s Reg.GRD.POL_CTL.word.addr = ST_OK ∧
      rd (Reg.GRD.SEL.INDEX.mine req) s = i ∧ regGet s (Reg.GRD.POL_CFG.word.mine req).addr = cfg ∧
      regGet s (Reg.GRD.POL_BURST.word.mine req).addr = burst ∧ 0 < i) ∧
    (∃ s : State, ∃ v : Word, accStat s Reg.GRD.XB_CFG.word.addr = ST_OK ∧ 0 < shpRATE v ∧ shpRATE v ≤ 200000) ∧
    (∃ s : State, ∃ v : Word, accStat s Reg.GRD.XB_CFG.word.addr = ST_OK ∧ (shpRATE v = 0 ∨ 200000 < shpRATE v)) ∧
    (∃ s : State, accStat s Reg.GRD.XB_BURST.word.addr = ST_OK) ∧
    (∃ o : Origin, ∃ body : List Byte, ∃ i : Nat, ∃ s : State, ∃ cfg : Word, ∃ burst : Word, mayDispatch s o = true ∧ field body 0 2 = i ∧
      zeroAt body 2 2 = true ∧ body.length = 12 ∧ field body 4 4 = cfg.toNat ∧ field body 8 4 = burst.toNat ∧ i < 4096 ∧ shaperCheck s i cfg = ST_OK) ∧
    (∃ o : Origin, ∃ body : List Byte, ∃ i : Nat, ∃ s : State, ∃ cfg : Word, ∃ burst : Word, mayDispatch s o = true ∧ field body 0 2 = i ∧
      zeroAt body 2 2 = true ∧ body.length = 12 ∧ field body 4 4 = cfg.toNat ∧ field body 8 4 = burst.toNat ∧ i < 4096 ∧ shaperCheck s i cfg ≠ ST_OK) ∧
    (∃ o : Origin, ∃ body : List Byte, ∃ i : Nat, ∃ s : State, ∃ cfg : Word, ∃ burst : Word, mayDispatch s o = true ∧ field body 0 2 = i ∧
      zeroAt body 2 2 = true ∧ body.length = 12 ∧ field body 4 4 = cfg.toNat ∧ field body 8 4 = burst.toNat ∧ i < 4096 ∧ 0 < i ∧ 0 < shpRATE cfg ∧
      shpRATE cfg ≤ 200000) ∧
    (∃ o : Origin, ∃ body : List Byte, ∃ i : Nat, ∃ s : State, ∃ cfg : Word, ∃ burst : Word, mayDispatch s o = true ∧ field body 0 2 = i ∧
      zeroAt body 2 2 = true ∧ body.length = 12 ∧ field body 4 4 = cfg.toNat ∧ field body 8 4 = burst.toNat ∧ i < 4096 ∧
      (i = 0 ∨ shpRATE cfg = 0 ∨ 200000 < shpRATE cfg)) ∧
    (∃ o : Origin, ∃ body : List Byte, ∃ i : Nat, ∃ s : State, ∃ x, mayDispatch s o = true ∧ field body 0 2 = i ∧ zeroAt body 2 2 = true ∧
      body.length = 4 ∧ shaperUsed i = true ∧ (shaperSlot i = 0 ∨ present s (shaperSlot i) = true) ∧ shaper s i = x) ∧
    (∃ o : Origin, ∃ body : List Byte, ∃ i : Nat, ∃ s : State, ∃ x, mayDispatch s o = true ∧ field body 0 2 = i ∧ zeroAt body 2 2 = true ∧
      body.length = 4 ∧ 0 < i ∧ i < 4096 ∧ policer s i = x) ∧
    (∃ s : State, ∃ req : EntryPoint, ∃ q : Nat, rd (Reg.SCH.HWM_SEL.QUEUE.mine req) s = q ∧ accStat s Reg.SCH.HWM_OCC.word.addr = ST_OK) ∧
    (∃ s : State, ∃ req : EntryPoint, ∃ q : Nat, rd (Reg.SCH.HWM_SEL.QUEUE.mine req) s = q ∧ accStat s Reg.SCH.HWM_SOJ.word.addr = ST_OK) ∧
    (∃ s : State, ∃ o : Origin, ∃ body : List Byte, ∃ q : Nat, mayDispatch s o = true ∧ body.length = 4 ∧ field body 0 1 = q ∧
      zeroAt body 1 3 = true ∧ q < 144) ∧
    (∃ s : State, ∃ o : Origin, ∃ body : List Byte, ∃ q : Nat, mayDispatch s o = true ∧ body.length = 4 ∧ field body 0 1 = q ∧
      zeroAt body 1 3 = true ∧ 144 ≤ q) ∧
    (∃ s : State, ∃ shp : BitVec 12, ∃ f : OriginFrame, ∃ rest : List OriginFrame, ∃ x : Shaper,
      takeFirst (fun f : OriginFrame => f.shp == shp.toNat) s.sched.held = some (f, rest) ∧ shaper s shp.toNat = x ∧ permits s x = true ∧ f.slot = 0) ∧
    (∃ s : State, ∃ shp : BitVec 12, ∃ f : OriginFrame, ∃ rest : List OriginFrame, ∃ x : Shaper,
      takeFirst (fun f : OriginFrame => f.shp == shp.toNat) s.sched.held = some (f, rest) ∧ shaper s shp.toNat = x ∧ permits s x = false) :=
  ⟨⟨R [(Reg.SCH.SEL.INDEX.mine .host, (0x110 : Nat)), (Reg.GRD.SEL.INDEX.mine .host, (0x110 : Nat)), (Reg.SCH.SEL.INDEX.mine (.host),
     (0x110 : Nat))] (State.reset), .host, 0x110, 0x30D40, 0x100, by decide +kernel⟩,
   ⟨R [(Reg.SCH.SEL.INDEX.mine (.host), (0x86 : Nat))] (regSet State.reset (Reg.SCH.SHP_CFG.word.mine .host).addr 0x80030D40), .host, 0x86,
     0x80030D40, 0x100, by decide +kernel⟩,
   ⟨R [(Reg.SCH.SEL.INDEX.mine .host, (0x87 : Nat)), (Reg.GRD.SEL.INDEX.mine .host, (0x87 : Nat)), (Reg.SCH.SEL.INDEX.mine (.host),
     (0x87 : Nat))] (State.reset), .host, 0x87, 0x30D40, 0x100, by decide +kernel⟩,
   ⟨R [(Reg.SCH.SEL.INDEX.mine .host, (0x111 : Nat)), (Reg.GRD.SEL.INDEX.mine .host, (0x111 : Nat)), (Reg.SCH.SEL.INDEX.mine (.host),
     (0x111 : Nat))] (State.reset), .host, 0x111, 0x30D40, 0x100, by decide +kernel⟩,
   ⟨R [(Reg.SCH.SEL.INDEX.mine .host, (4095 : Nat)), (Reg.GRD.SEL.INDEX.mine .host, (4095 : Nat)), (Reg.GRD.SEL.INDEX.mine (.host),
     (4095 : Nat))] (State.reset), .host, 4095, 0x30D40, 0x100, by decide +kernel⟩,
   ⟨R [(Reg.SCH.SEL.INDEX.mine .host, (0 : Nat)), (Reg.GRD.SEL.INDEX.mine .host, (0 : Nat)), (Reg.GRD.SEL.INDEX.mine (.host),
     (0 : Nat))] (State.reset), .host, 0, 0x30D40, 0x100, by decide +kernel⟩,
   ⟨R [(Reg.SCH.SEL.INDEX.mine .host, (4095 : Nat)), (Reg.GRD.SEL.INDEX.mine .host, (4095 : Nat)), (Reg.GRD.SEL.INDEX.mine (.host),
     (4095 : Nat))] (State.reset), .host, 4095, 0x30D40, 0x100, by decide +kernel⟩,
   ⟨State.reset, 0x80030D40, by decide +kernel⟩,
   ⟨State.reset, 0, by decide +kernel⟩,
   ⟨State.reset, by decide +kernel⟩,
   ⟨o0, bd (12) [(0, 2, (0x110 : Nat)), (4, 4, (0x30D40 : Word).toNat), (8, 4, (0x100 : Word).toNat)], 0x110, State.reset, 0x30D40, 0x100,
     by decide +kernel⟩,
   ⟨o0, bd (12) [(0, 2, (0x111 : Nat)), (4, 4, (0x30D40 : Word).toNat), (8, 4, (0x100 : Word).toNat)], 0x111, State.reset, 0x30D40, 0x100,
     by decide +kernel⟩,
   ⟨o0, bd (12) [(0, 2, (4095 : Nat)), (4, 4, (0x30D40 : Word).toNat), (8, 4, (0x100 : Word).toNat)], 4095, State.reset, 0x30D40, 0x100,
     by decide +kernel⟩,
   ⟨o0, bd (12) [(0, 2, (0 : Nat)), (4, 4, (0x30D40 : Word).toNat), (8, 4, (0x100 : Word).toNat)], 0, State.reset, 0x30D40, 0x100, by decide +kernel⟩,
   ⟨o0, bd (4) [(0, 2, (0 : Nat))], 0, State.reset, shaper (State.reset) (0 : Nat), by decide +kernel⟩,
   ⟨o0, bd (4) [(0, 2, (4095 : Nat))], 4095, State.reset, policer (State.reset) (4095 : Nat), by decide +kernel⟩,
   ⟨R [(Reg.SCH.HWM_SEL.QUEUE.mine (.host), (143 : Nat))] (updComb (fun z => { z with hwmOcc := [(143, 7)], hwmSoj := [(143, 9)] }) State.reset),
     .host, 143, by decide +kernel⟩,
   ⟨R [(Reg.SCH.HWM_SEL.QUEUE.mine (.host), (143 : Nat))] (updComb (fun z => { z with hwmOcc := [(143, 7)], hwmSoj := [(143, 9)] }) State.reset),
     .host, 143, by decide +kernel⟩,
   ⟨updComb (fun z => { z with hwmOcc := [(143, 7)], hwmSoj := [(143, 9)] }) State.reset, o0, bd (4) [(0, 1, (143 : Nat))], 143, by decide +kernel⟩,
   ⟨updComb (fun z => { z with hwmOcc := [(143, 7)], hwmSoj := [(143, 9)] }) State.reset, o0, bd (4) [(0, 1, (144 : Nat))], 144, by decide +kernel⟩,
   ⟨updSched (fun z => { z with held := [⟨0xFFF, 0, [c0], 64⟩] }) State.reset, 0xFFF, ⟨0xFFF, 0, [c0], 64⟩, [],
     shaper (updSched (fun z => { z with held := [⟨0xFFF, 0, [c0], 64⟩] }) State.reset) (0xFFF : BitVec 12).toNat, rfl, by decide +kernel⟩,
   ⟨updSched (fun z => { z with held := [⟨0x88, 0, [c0], 64⟩], shapers := [(0x88, ⟨0xA0030D40, 0x100, -5, 0⟩)] }) State.reset, 0x88, ⟨0x88, 0, [c0],
     64⟩, [],
     shaper (updSched (fun z => { z with held := [⟨0x88, 0, [c0], 64⟩], shapers := [(0x88, ⟨0xA0030D40, 0x100, -5, 0⟩)] }) State.reset) (0x88 : BitVec 12).toNat,
     rfl, by decide +kernel⟩⟩

theorem test_hyps_FramesAreOriginated :
    (∃ s : State, ∃ slot : Slot, slot.val ≠ 0 ∧ domSt s (0x10 + slot.val) ≠ .inService) ∧
    (∃ tun : BitVec 14, ∃ s : State, ∃ slot : Slot, ∃ e, slotWorks s slot = true ∧ (slot.val = 0 ∨ originHeld s slot = false) ∧
      (if slot.val = 0 then entry s 2 tun.toNat else Tab.get zeroN (mapperOf s slot) tun.toNat) = e ∧
      (tun = 0 ∨ orgV e = false ∨ orgOSLOT e ≠ slot.val)) ∧
    (∃ tun : BitVec 14, ∃ frame : List Byte, ∃ s : State, ∃ slot : Slot, ∃ e, slotWorks s slot = true ∧ (slot.val = 0 ∨ originHeld s slot = false) ∧
      originEntry s slot tun.toNat = some e ∧ (orgMAXLEN e < frame.length ∨ 14848 < frame.length)) ∧
    (∃ tun : BitVec 14, ∃ frame : List Byte, ∃ s : State, ∃ e, originEntry s 0 tun.toNat = some e ∧ frame.length ≤ orgMAXLEN e ∧
      frame.length ≤ 14848 ∧ frame ≠ [] ∧ orgOSHP e = 0 ∧ orgTYP e ≠ 7 ∧ orgTYP e ≠ 8) ∧
    (∃ tun : BitVec 14, ∃ frame : List Byte, ∃ s : State, ∃ e, ∃ fn, originEntry s 0 tun.toNat = some e ∧ frame.length ≤ orgMAXLEN e ∧
      frame.length ≤ 14848 ∧ frame ≠ [] ∧ orgOSHP e = 0 ∧ (orgTYP e = 7 ∨ orgTYP e = 8) ∧ 2 ≤ frame.length ∧ Tab.get zeroN s.tuns.fn tun.toNat = fn ∧
      fn < 65536) ∧
    (∃ tun : BitVec 14, ∃ frame : List Byte, ∃ s : State, ∃ e, originEntry s 0 tun.toNat = some e ∧ frame.length ≤ orgMAXLEN e ∧
      frame.length ≤ 14848 ∧ frame ≠ [] ∧ orgOSHP e ≠ 0 ∧
      (permits s (shaper s (orgOSHP e)) = false ∨ (s.sched.held.any fun f => f.shp == orgOSHP e) = true)) ∧
    (∃ tun : BitVec 14, ∃ frame : List Byte, ∃ s : State, ∃ e, originEntry s 0 tun.toNat = some e ∧ frame.length ≤ orgMAXLEN e ∧
      frame.length ≤ 14848 ∧ frame ≠ [] ∧ orgOSHP e ≠ 0 ∧ permits s (shaper s (orgOSHP e)) = true ∧
      (s.sched.held.any fun f => f.shp == orgOSHP e) = false) :=
  ⟨⟨State.reset, 7, by decide +kernel⟩,
   ⟨0, D 0x17 .inService, 7,
     (if (7 : Slot).val = 0 then entry (D 0x17 .inService) 2 (0 : BitVec 14).toNat else Tab.get zeroN (mapperOf (D 0x17 .inService) (7 : Slot)) (0 : BitVec 14).toNat),
     by decide +kernel⟩,
   ⟨0x3FFF, List.replicate 17 0, E 2 0x3FFF 0x8000004000010000, 0,
     ((originEntry (E 2 0x3FFF 0x8000004000010000) (0 : Slot) (0x3FFF : BitVec 14).toNat).get (by decide +kernel)), by decide +kernel⟩,
   ⟨0x3FFF, [1, 2, 3], E 2 0x3FFF 0x8000004000000000,
     ((originEntry (E 2 0x3FFF 0x8000004000000000) 0 (0x3FFF : BitVec 14).toNat).get (by decide +kernel)), by decide +kernel⟩,
   ⟨0x3FFF, [1, 2, 3], E 2 0x3FFF 0x8700004000000000,
     ((originEntry (E 2 0x3FFF 0x8700004000000000) 0 (0x3FFF : BitVec 14).toNat).get (by decide +kernel)), 0, by decide +kernel⟩,
   ⟨0x3FFF, [1, 2, 3], updSched (fun z => { z with shapers := [(0x111, ⟨0xA0030D40, 0x100, -5, 0⟩)] }) (E 2 0x3FFF 0x8000004444000000),
     ((originEntry (updSched (fun z => { z with shapers := [(0x111, ⟨0xA0030D40, 0x100, -5, 0⟩)] }) (E 2 0x3FFF 0x8000004444000000)) 0 (0x3FFF : BitVec 14).toNat).get (by decide +kernel)),
     by decide +kernel⟩,
   ⟨0x3FFF, [1, 2, 3], E 2 0x3FFF 0x8000004444000000,
     ((originEntry (E 2 0x3FFF 0x8000004444000000) 0 (0x3FFF : BitVec 14).toNat).get (by decide +kernel)), by decide +kernel⟩⟩

theorem test_hyps_CellsAreReassembled :
    (∃ p : Fin 17, ∃ c : Cell, ∃ inp : Nat, ∃ ctx : Option Nat, ∃ rest : List (Cell × Nat × Option Nat), ∃ s : State,
      Tab.get noCells s.tuns.arrived p.val = (c, inp, ctx) :: rest ∧ p = 8 ∧ s.hostIf.held.isSome = true) ∧
    (∃ p : Fin 17, ∃ c : Cell, ∃ inp : Nat, ∃ ctx : Option Nat, ∃ rest : List (Cell × Nat × Option Nat), ∃ s : State,
      Tab.get noCells s.tuns.arrived p.val = (c, inp, ctx) :: rest ∧ 4 ≤ p.val ∧ p.val < 16 ∧ (p = 8 → s.hostIf.held = none)) ∧
    (∃ p : Fin 17, ∃ c : Cell, ∃ inp : Nat, ∃ ctx : Option Nat, ∃ rest : List (Cell × Nat × Option Nat), ∃ s : State,
      Tab.get noCells s.tuns.arrived p.val = (c, inp, ctx) :: rest ∧ p = 16 ∧ c.tun ≠ 0 ∧ ctx = none) ∧
    (∃ p : Fin 17, ∃ c : Cell, ∃ inp : Nat, ∃ ctx : Option Nat, ∃ rest : List (Cell × Nat × Option Nat), ∃ s : State,
      Tab.get noCells s.tuns.arrived p.val = (c, inp, ctx) :: rest ∧ (p = 8 → s.hostIf.held = none) ∧ (p = 16 → c.tun = 0 ∨ ctx ≠ none) ∧
      unitTakes s p ctx c.typ = false) ∧
    (∃ p : Fin 17, ∃ c : Cell, ∃ inp : Nat, ∃ ctx : Option Nat, ∃ rest : List (Cell × Nat × Option Nat), ∃ s : State, ∃ u : Nat,
      ∃ mine : Reasm → Bool, (mine = fun x => x.src == c.src && x.tun == c.tun && x.tc == c.tc) ∧ Tab.get noCells s.tuns.arrived p.val = (c, inp,
      ctx) :: rest ∧ (p = 8 → s.hostIf.held = none) ∧ (p = 16 → c.tun = 0 ∨ ctx ≠ none) ∧ unitTakes s p ctx c.typ = true ∧ unitOf p ctx c.typ = u ∧
      c.f = true ∧ c.l = false ∧ (ctxsOf s u).filter mine = [] ∧ (ctxsOf s u).length < 512) ∧
    (∃ p : Fin 17, ∃ c : Cell, ∃ inp : Nat, ∃ ctx : Option Nat, ∃ rest : List (Cell × Nat × Option Nat), ∃ s : State, ∃ u : Nat,
      ∃ mine : Reasm → Bool, (mine = fun x => x.src == c.src && x.tun == c.tun && x.tc == c.tc) ∧ Tab.get noCells s.tuns.arrived p.val = (c, inp,
      ctx) :: rest ∧ (p = 8 → s.hostIf.held = none) ∧ (p = 16 → c.tun = 0 ∨ ctx ≠ none) ∧ unitTakes s p ctx c.typ = true ∧ unitOf p ctx c.typ = u ∧
      c.f = true ∧ c.l = false ∧ (∃ x, x ∈ ctxsOf s u ∧ mine x = true) ∧ (∀ x, x ∈ ctxsOf s u → x.discarding = false) ∧ (ctxsOf s u).length ≤ 512) ∧
    (∃ p : Fin 17, ∃ c : Cell, ∃ inp : Nat, ∃ ctx : Option Nat, ∃ rest : List (Cell × Nat × Option Nat), ∃ s : State, ∃ u : Nat,
      ∃ mine : Reasm → Bool, (mine = fun x => x.src == c.src && x.tun == c.tun && x.tc == c.tc) ∧ Tab.get noCells s.tuns.arrived p.val = (c, inp,
      ctx) :: rest ∧ (p = 8 → s.hostIf.held = none) ∧ (p = 16 → c.tun = 0 ∨ ctx ≠ none) ∧ unitTakes s p ctx c.typ = true ∧ unitOf p ctx c.typ = u ∧
      c.f = false ∧ (ctxsOf s u).filter mine = []) ∧
    (∃ p : Fin 17, ∃ c : Cell, ∃ inp : Nat, ∃ ctx : Option Nat, ∃ rest : List (Cell × Nat × Option Nat), ∃ s : State, ∃ u : Nat,
      ∃ mine : Reasm → Bool, ∃ x, (mine = fun x => x.src == c.src && x.tun == c.tun && x.tc == c.tc) ∧ Tab.get noCells s.tuns.arrived p.val = (c, inp,
      ctx) :: rest ∧ (p = 8 → s.hostIf.held = none) ∧ (p = 16 → c.tun = 0 ∨ ctx ≠ none) ∧ unitTakes s p ctx c.typ = true ∧ unitOf p ctx c.typ = u ∧
      c.f = false ∧ c.l = false ∧ ((ctxsOf s u).filter mine).head? = some x ∧ x.discarding = false ∧ x.cells < 128) ∧
    (∃ p : Fin 17, ∃ c : Cell, ∃ inp : Nat, ∃ ctx : Option Nat, ∃ rest : List (Cell × Nat × Option Nat), ∃ s : State, ∃ u : Nat,
      ∃ mine : Reasm → Bool, ∃ x, (mine = fun x => x.src == c.src && x.tun == c.tun && x.tc == c.tc) ∧ Tab.get noCells s.tuns.arrived p.val = (c, inp,
      ctx) :: rest ∧ (p = 8 → s.hostIf.held = none) ∧ (p = 16 → c.tun = 0 ∨ ctx ≠ none) ∧ unitTakes s p ctx c.typ = true ∧ unitOf p ctx c.typ = u ∧
      c.f = false ∧ ((ctxsOf s u).filter mine).head? = some x ∧ x.discarding = false ∧ 128 ≤ x.cells) ∧
    (∃ p : Fin 17, ∃ c : Cell, ∃ inp : Nat, ∃ ctx : Option Nat, ∃ rest : List (Cell × Nat × Option Nat), ∃ s : State, ∃ u : Nat,
      ∃ mine : Reasm → Bool, ∃ x, ∃ g : Frame, (mine = fun x => x.src == c.src && x.tun == c.tun && x.tc == c.tc) ∧
      Tab.get noCells s.tuns.arrived p.val = (c, inp, ctx) :: rest ∧ (p = 8 → s.hostIf.held = none) ∧ (p = 16 → c.tun = 0 ∨ ctx ≠ none) ∧
      unitTakes s p ctx c.typ = true ∧ unitOf p ctx c.typ = u ∧ c.f = false ∧ c.l = true ∧ ((ctxsOf s u).filter mine).head? = some x ∧
      x.discarding = false ∧ x.cells < 128 ∧ (p = 10 ∨ p = 11) ∧ g = ⟨c.dst, x.src, x.tun, x.tc, c.typ, c.xpr, ctx.getD 0,
      if inp < 4 then some inp else none, c.dst == 0x3FFF || c.dst == 0x3FFE, x.bytes ++ c.payload.take c.vlen⟩ ∧ c.typ ≠ 0 ∧ flipGood g = true) ∧
    (∃ o : Origin, ∃ body : List Byte, ∃ i : Nat, ∃ s : State, mayDispatch s o = true ∧ body.length = 4 ∧ field body 0 2 = i ∧ i < 16384 ∧
      zeroAt body 2 2 = true) :=
  ⟨⟨8, { c0 with typ := 4, l := false, vlen := 116 }, 4, some 1024, [],
     updHost (fun z => { z with held := some f0 }) (updTuns (fun z => { z with arrived := [(8, [(({ c0 with typ := 4, l := false, vlen := 116 }), 4, (some 1024))])] }) State.reset),
     by decide +kernel⟩,
   ⟨15, { c0 with typ := 4, l := false, vlen := 116 }, 4, some 1024, [],
     updTuns (fun z => { z with arrived := [(15, [(({ c0 with typ := 4, l := false, vlen := 116 }), 4, (some 1024))])] }) State.reset,
     by decide +kernel⟩,
   ⟨16, { c0 with tun := 5 }, 4, none, [], updTuns (fun z => { z with arrived := [(16, [(({ c0 with tun := 5 }), 4, (none))])] }) State.reset,
     by decide +kernel⟩,
   ⟨16, { c0 with typ := 15 }, 4, some 1024, [],
     updTuns (fun z => { z with arrived := [(16, [(({ c0 with typ := 15 }), 4, (some 1024))])] }) State.reset, by decide +kernel⟩,
   ⟨16, { c0 with typ := 4, l := false, vlen := 116 }, 4, some 1024, [],
     updTuns (fun z => { z with arrived := [(16, [(({ c0 with typ := 4, l := false, vlen := 116 }), 4, (some 1024))])] }) State.reset,
     unitOf (16 : Fin 17) (some 1024) ({ c0 with typ := 4, l := false, vlen := 116 }).typ,
     (fun q => q.src == ({ c0 with typ := 4, l := false, vlen := 116 }).src && q.tun == ({ c0 with typ := 4, l := false, vlen := 116 }).tun && q.tc == ({ c0 with typ := 4, l := false, vlen := 116 }).tc),
     rfl, by decide +kernel⟩,
   ⟨16, { c0 with typ := 4, l := false, vlen := 116 }, 4, some 1024, [],
     updTuns (fun z => { z with arrived := [(16, [(({ c0 with typ := 4, l := false, vlen := 116 }), 4, (some 1024))])], ctx := [((unitOf (16 : Fin 17) (some 1024) ({ c0 with typ := 4, l := false, vlen := 116 }).typ), [⟨0, 0, 0, 1, [], false⟩])] }) State.reset,
     unitOf (16 : Fin 17) (some 1024) ({ c0 with typ := 4, l := false, vlen := 116 }).typ,
     (fun q => q.src == ({ c0 with typ := 4, l := false, vlen := 116 }).src && q.tun == ({ c0 with typ := 4, l := false, vlen := 116 }).tun && q.tc == ({ c0 with typ := 4, l := false, vlen := 116 }).tc),
     rfl, by decide +kernel⟩,
   ⟨16, { c0 with typ := 4, l := false, vlen := 116, f := false }, 4, some 1024, [],
     updTuns (fun z => { z with arrived := [(16, [(({ c0 with typ := 4, l := false, vlen := 116, f := false }), 4, (some 1024))])] }) State.reset,
     unitOf (16 : Fin 17) (some 1024) ({ c0 with typ := 4, l := false, vlen := 116, f := false }).typ,
     (fun q => q.src == ({ c0 with typ := 4, l := false, vlen := 116, f := false }).src && q.tun == ({ c0 with typ := 4, l := false, vlen := 116, f := false }).tun && q.tc == ({ c0 with typ := 4, l := false, vlen := 116, f := false }).tc),
     rfl, by decide +kernel⟩,
   ⟨16, { c0 with typ := 4, l := false, vlen := 116, f := false }, 4, some 1024, [],
     updTuns (fun z => { z with arrived := [(16, [(({ c0 with typ := 4, l := false, vlen := 116, f := false }), 4, (some 1024))])], ctx := [((unitOf (16 : Fin 17) (some 1024) ({ c0 with typ := 4, l := false, vlen := 116, f := false }).typ), [⟨0, 0, 0, 127, [], false⟩])] }) State.reset,
     unitOf (16 : Fin 17) (some 1024) ({ c0 with typ := 4, l := false, vlen := 116, f := false }).typ,
     (fun q => q.src == ({ c0 with typ := 4, l := false, vlen := 116, f := false }).src && q.tun == ({ c0 with typ := 4, l := false, vlen := 116, f := false }).tun && q.tc == ({ c0 with typ := 4, l := false, vlen := 116, f := false }).tc),
     (⟨0, 0, 0, 127, [], false⟩ : Reasm), rfl, by decide +kernel⟩,
   ⟨16, { c0 with typ := 4, l := false, vlen := 116, f := false }, 4, some 1024, [],
     updTuns (fun z => { z with arrived := [(16, [(({ c0 with typ := 4, l := false, vlen := 116, f := false }), 4, (some 1024))])], ctx := [((unitOf (16 : Fin 17) (some 1024) ({ c0 with typ := 4, l := false, vlen := 116, f := false }).typ), [⟨0, 0, 0, 128, [], false⟩])] }) State.reset,
     unitOf (16 : Fin 17) (some 1024) ({ c0 with typ := 4, l := false, vlen := 116, f := false }).typ,
     (fun q => q.src == ({ c0 with typ := 4, l := false, vlen := 116, f := false }).src && q.tun == ({ c0 with typ := 4, l := false, vlen := 116, f := false }).tun && q.tc == ({ c0 with typ := 4, l := false, vlen := 116, f := false }).tc),
     (⟨0, 0, 0, 128, [], false⟩ : Reasm), rfl, by decide +kernel⟩,
   ⟨10, { c0 with typ := 6, f := false, vlen := 28, payload := [0, 0, 0, 0, 0, 0, 0, 0] ++ List.replicate 19 0 }, 4, some 1024, [],
     updTuns (fun z => { z with arrived := [(10, [(({ c0 with typ := 6, f := false, vlen := 28, payload := [0, 0, 0, 0, 0, 0, 0, 0] ++ List.replicate 19 0 }), 4, (some 1024))])], ctx := [((unitOf (10 : Fin 17) (some 1024) ({ c0 with typ := 6, f := false, vlen := 28, payload := [0, 0, 0, 0, 0, 0, 0, 0] ++ List.replicate 19 0 }).typ), [⟨0, 0, 0, 0, [1], false⟩])] }) State.reset,
     unitOf (10 : Fin 17) (some 1024) ({ c0 with typ := 6, f := false, vlen := 28, payload := [0, 0, 0, 0, 0, 0, 0, 0] ++ List.replicate 19 0 }).typ,
     (fun q => q.src == ({ c0 with typ := 6, f := false, vlen := 28, payload := [0, 0, 0, 0, 0, 0, 0, 0] ++ List.replicate 19 0 }).src && q.tun == ({ c0 with typ := 6, f := false, vlen := 28, payload := [0, 0, 0, 0, 0, 0, 0, 0] ++ List.replicate 19 0 }).tun && q.tc == ({ c0 with typ := 6, f := false, vlen := 28, payload := [0, 0, 0, 0, 0, 0, 0, 0] ++ List.replicate 19 0 }).tc),
     (⟨0, 0, 0, 0, [1], false⟩ : Reasm),
     ⟨({ c0 with typ := 6, f := false, vlen := 28, payload := [0, 0, 0, 0, 0, 0, 0, 0] ++ List.replicate 19 0 }).dst, ((⟨0, 0, 0, 0, [1],
     false⟩ : Reasm)).src, ((⟨0, 0, 0, 0, [1], false⟩ : Reasm)).tun, ((⟨0, 0, 0, 0, [1], false⟩ : Reasm)).tc,
     ({ c0 with typ := 6, f := false, vlen := 28, payload := [0, 0, 0, 0, 0, 0, 0, 0] ++ List.replicate 19 0 }).typ,
     ({ c0 with typ := 6, f := false, vlen := 28, payload := [0, 0, 0, 0, 0, 0, 0, 0] ++ List.replicate 19 0 }).xpr, (some 1024).getD 0,
     if (4 : Nat) < 4 then some (4 : Nat) else none,
     ({ c0 with typ := 6, f := false, vlen := 28, payload := [0, 0, 0, 0, 0, 0, 0, 0] ++ List.replicate 19 0 }).dst == 0x3FFF || ({ c0 with typ := 6, f := false, vlen := 28, payload := [0, 0, 0, 0, 0, 0, 0, 0] ++ List.replicate 19 0 }).dst == 0x3FFE,
     ((⟨0, 0, 0, 0, [1],
     false⟩ : Reasm)).bytes ++ ({ c0 with typ := 6, f := false, vlen := 28, payload := [0, 0, 0, 0, 0, 0, 0, 0] ++ List.replicate 19 0 }).payload.take ({ c0 with typ := 6, f := false, vlen := 28, payload := [0, 0, 0, 0, 0, 0, 0, 0] ++ List.replicate 19 0 }).vlen⟩,
     rfl, by decide +kernel⟩,
   ⟨o0, bd (4) [(0, 2, (16383 : Nat))], 16383, updTuns (fun z => { z with ctx := [(15, [⟨5, 16383, 0, 1, [], false⟩])] }) State.reset,
     by decide +kernel⟩⟩

theorem test_hyps_BridgeWindowsAndLogs :
    (∃ req : EntryPoint, ∃ s : State, ∃ i : Nat, ∃ w : Window, rd (Reg.BRG.WSEL.INDEX.mine req) s = i ∧
      w = ⟨regGet s (Reg.BRG.WCFG.word.mine req).addr &&& 0xEFF03FFF, regGet s (Reg.BRG.WLBASE.word.mine req).addr,
      regGet s (Reg.BRG.WRBASE.word.mine req).addr⟩ ∧ accStat s Reg.BRG.WCTL.word.addr = ST_OK ∧ 12 ≤ wSIZE w ∧ wSIZE w ≤ 36 ∧ 2 ^ wSIZE w ∣ wL w ∧
      2 ^ wSIZE w ∣ wR w ∧ (brgTunnel s (wTUN w)).isSome = true) ∧
    (∃ req : EntryPoint, ∃ s : State, ∃ i : Nat, ∃ w : Window, rd (Reg.BRG.WSEL.INDEX.mine req) s = i ∧
      w = ⟨regGet s (Reg.BRG.WCFG.word.mine req).addr &&& 0xEFF03FFF, regGet s (Reg.BRG.WLBASE.word.mine req).addr,
      regGet s (Reg.BRG.WRBASE.word.mine req).addr⟩ ∧ accStat s Reg.BRG.WCTL.word.addr = ST_OK ∧
      (wSIZE w < 12 ∨ 36 < wSIZE w ∨ ¬ 2 ^ wSIZE w ∣ wL w ∨ ¬ 2 ^ wSIZE w ∣ wR w ∨ brgTunnel s (wTUN w) = none)) ∧
    (∃ req : EntryPoint, ∃ s : State, ∃ i : Nat, ∃ w : Window, rd (Reg.BRG.WSEL.INDEX.mine req) s = i ∧
      w = ⟨regGet s (Reg.BRG.WCFG.word.mine req).addr &&& 0xEFF03FFF, regGet s (Reg.BRG.WLBASE.word.mine req).addr,
      regGet s (Reg.BRG.WRBASE.word.mine req).addr⟩ ∧ accStat s Reg.BRG.WCTL.word.addr = ST_OK) ∧
    (∃ req : EntryPoint, ∃ s : State, ∃ i : Nat, ∃ w : Window, rd (Reg.BRG.TSEL.INDEX.mine req) s = i ∧
      w = ⟨regGet s (Reg.BRG.TCFG.word.mine req).addr &&& 0xE3F03FFF, 0, regGet s (Reg.BRG.TBASE.word.mine req).addr⟩ ∧
      accStat s Reg.BRG.TCTL.word.addr = ST_OK ∧ 12 ≤ wSIZE w ∧ wSIZE w ≤ 36 ∧ 2 ^ wSIZE w ∣ wR w) ∧
    (∃ req : EntryPoint, ∃ s : State, ∃ i : Nat, ∃ w : Window, rd (Reg.BRG.TSEL.INDEX.mine req) s = i ∧
      w = ⟨regGet s (Reg.BRG.TCFG.word.mine req).addr &&& 0xE3F03FFF, 0, regGet s (Reg.BRG.TBASE.word.mine req).addr⟩ ∧
      accStat s Reg.BRG.TCTL.word.addr = ST_OK ∧ (wSIZE w < 12 ∨ 36 < wSIZE w ∨ ¬ 2 ^ wSIZE w ∣ wR w)) ∧
    (∃ req : EntryPoint, ∃ s : State, ∃ i : Nat, ∃ w : Window, rd (Reg.BRG.TSEL.INDEX.mine req) s = i ∧
      w = ⟨regGet s (Reg.BRG.TCFG.word.mine req).addr &&& 0xE3F03FFF, 0, regGet s (Reg.BRG.TBASE.word.mine req).addr⟩ ∧
      accStat s Reg.BRG.TCTL.word.addr = ST_OK) ∧
    (∃ s : State, accStat s Reg.BRG.PWL_DATA.word.addr = ST_OK ∧ s.brg.pwl = []) ∧
    (∃ req : EntryPoint, ∃ s : State, ∃ e, ∃ l, ∃ i, accStat s Reg.BRG.PWL_DATA.word.addr = ST_OK ∧ s.brg.pwl = e :: l ∧
      Tab.get zeroN s.brg.widx (reqIdx req) = i ∧ i < 4) ∧
    (∃ s : State, accStat s Reg.BRG.ELG_DATA.word.addr = ST_OK ∧ s.brg.elg = []) ∧
    (∃ req : EntryPoint, ∃ s : State, ∃ e, ∃ l, ∃ i, accStat s Reg.BRG.ELG_DATA.word.addr = ST_OK ∧ s.brg.elg = e :: l ∧
      Tab.get zeroN s.brg.widx (4 + reqIdx req) = i ∧ i < 4) ∧
    (∃ s : State, accStat s Reg.BRG.PWL_STAT.word.addr = ST_OK ∧ s.brg.pwl.length ≤ 64) ∧
    (∃ s : State, accStat s Reg.BRG.ELG_STAT.word.addr = ST_OK ∧ s.brg.elg.length ≤ 64) ∧
    (∃ s : State, accStat s Reg.BRG.RDSTAT.word.addr = ST_OK ∧ s.brg.peak ≤ 1024 ∧ s.brg.reads.length ≤ 1024) ∧
    (∃ s : State, ∃ o : Origin, ∃ body : List Byte, ∃ n : Nat, mayDispatch s o = true ∧ body.length = 4 ∧ field body 0 1 = n ∧
      zeroAt body 1 3 = true ∧ 0 < n ∧ n ≤ 32) :=
  ⟨⟨.host, R [(Reg.BRG.WCFG.SIZE.mine .host, 36), (Reg.BRG.WCFG.TUN.mine .host, 0x3FFF), (Reg.BRG.WSEL.INDEX.mine (.host),
     (63 : Nat))] (E 2 0x3FFF 0x8400004000000000), 63, ⟨regGet (R [(Reg.BRG.WCFG.SIZE.mine .host, 36), (Reg.BRG.WCFG.TUN.mine .host, 0x3FFF),
     (Reg.BRG.WSEL.INDEX.mine (.host), (63 : Nat))] (E 2 0x3FFF 0x8400004000000000)) (Reg.BRG.WCFG.word.mine (.host)).addr &&& 0xEFF03FFF,
     regGet (R [(Reg.BRG.WCFG.SIZE.mine .host, 36), (Reg.BRG.WCFG.TUN.mine .host, 0x3FFF), (Reg.BRG.WSEL.INDEX.mine (.host),
     (63 : Nat))] (E 2 0x3FFF 0x8400004000000000)) (Reg.BRG.WLBASE.word.mine (.host)).addr, regGet (R [(Reg.BRG.WCFG.SIZE.mine .host, 36),
     (Reg.BRG.WCFG.TUN.mine .host, 0x3FFF), (Reg.BRG.WSEL.INDEX.mine (.host),
     (63 : Nat))] (E 2 0x3FFF 0x8400004000000000)) (Reg.BRG.WRBASE.word.mine (.host)).addr⟩, by decide +kernel⟩,
   ⟨.host, R [(Reg.BRG.WSEL.INDEX.mine .host, 63), (Reg.BRG.TSEL.INDEX.mine .host, 15), (Reg.BRG.WSEL.INDEX.mine (.host), (63 : Nat))] (State.reset),
     63, ⟨regGet (R [(Reg.BRG.WSEL.INDEX.mine .host, 63), (Reg.BRG.TSEL.INDEX.mine .host, 15), (Reg.BRG.WSEL.INDEX.mine (.host),
     (63 : Nat))] (State.reset)) (Reg.BRG.WCFG.word.mine (.host)).addr &&& 0xEFF03FFF, regGet (R [(Reg.BRG.WSEL.INDEX.mine .host, 63),
     (Reg.BRG.TSEL.INDEX.mine .host, 15), (Reg.BRG.WSEL.INDEX.mine (.host), (63 : Nat))] (State.reset)) (Reg.BRG.WLBASE.word.mine (.host)).addr,
     regGet (R [(Reg.BRG.WSEL.INDEX.mine .host, 63), (Reg.BRG.TSEL.INDEX.mine .host, 15), (Reg.BRG.WSEL.INDEX.mine (.host),
     (63 : Nat))] (State.reset)) (Reg.BRG.WRBASE.word.mine (.host)).addr⟩, by decide +kernel⟩,
   ⟨.host, R [(Reg.BRG.WSEL.INDEX.mine .host, 63), (Reg.BRG.TSEL.INDEX.mine .host, 15), (Reg.BRG.WSEL.INDEX.mine (.host), (63 : Nat))] (State.reset),
     63, ⟨regGet (R [(Reg.BRG.WSEL.INDEX.mine .host, 63), (Reg.BRG.TSEL.INDEX.mine .host, 15), (Reg.BRG.WSEL.INDEX.mine (.host),
     (63 : Nat))] (State.reset)) (Reg.BRG.WCFG.word.mine (.host)).addr &&& 0xEFF03FFF, regGet (R [(Reg.BRG.WSEL.INDEX.mine .host, 63),
     (Reg.BRG.TSEL.INDEX.mine .host, 15), (Reg.BRG.WSEL.INDEX.mine (.host), (63 : Nat))] (State.reset)) (Reg.BRG.WLBASE.word.mine (.host)).addr,
     regGet (R [(Reg.BRG.WSEL.INDEX.mine .host, 63), (Reg.BRG.TSEL.INDEX.mine .host, 15), (Reg.BRG.WSEL.INDEX.mine (.host),
     (63 : Nat))] (State.reset)) (Reg.BRG.WRBASE.word.mine (.host)).addr⟩, by decide +kernel⟩,
   ⟨.host, R [(Reg.BRG.WSEL.INDEX.mine .host, 63), (Reg.BRG.TSEL.INDEX.mine .host, 15), (Reg.BRG.TSEL.INDEX.mine (.host), (15 : Nat))] (State.reset),
     15, ⟨regGet (R [(Reg.BRG.WSEL.INDEX.mine .host, 63), (Reg.BRG.TSEL.INDEX.mine .host, 15), (Reg.BRG.TSEL.INDEX.mine (.host),
     (15 : Nat))] (State.reset)) (Reg.BRG.TCFG.word.mine (.host)).addr &&& 0xE3F03FFF, 0, regGet (R [(Reg.BRG.WSEL.INDEX.mine .host, 63),
     (Reg.BRG.TSEL.INDEX.mine .host, 15), (Reg.BRG.TSEL.INDEX.mine (.host), (15 : Nat))] (State.reset)) (Reg.BRG.TBASE.word.mine (.host)).addr⟩,
     by decide +kernel⟩,
   ⟨.host, R [(Reg.BRG.TCFG.SIZE.mine .host, 11), (Reg.BRG.TSEL.INDEX.mine (.host), (15 : Nat))] (State.reset), 15,
     ⟨regGet (R [(Reg.BRG.TCFG.SIZE.mine .host, 11), (Reg.BRG.TSEL.INDEX.mine (.host),
     (15 : Nat))] (State.reset)) (Reg.BRG.TCFG.word.mine (.host)).addr &&& 0xE3F03FFF, 0, regGet (R [(Reg.BRG.TCFG.SIZE.mine .host, 11),
     (Reg.BRG.TSEL.INDEX.mine (.host), (15 : Nat))] (State.reset)) (Reg.BRG.TBASE.word.mine (.host)).addr⟩, by decide +kernel⟩,
   ⟨.host, R [(Reg.BRG.WSEL.INDEX.mine .host, 63), (Reg.BRG.TSEL.INDEX.mine .host, 15), (Reg.BRG.TSEL.INDEX.mine (.host), (15 : Nat))] (State.reset),
     15, ⟨regGet (R [(Reg.BRG.WSEL.INDEX.mine .host, 63), (Reg.BRG.TSEL.INDEX.mine .host, 15), (Reg.BRG.TSEL.INDEX.mine (.host),
     (15 : Nat))] (State.reset)) (Reg.BRG.TCFG.word.mine (.host)).addr &&& 0xE3F03FFF, 0, regGet (R [(Reg.BRG.WSEL.INDEX.mine .host, 63),
     (Reg.BRG.TSEL.INDEX.mine .host, 15), (Reg.BRG.TSEL.INDEX.mine (.host), (15 : Nat))] (State.reset)) (Reg.BRG.TBASE.word.mine (.host)).addr⟩,
     by decide +kernel⟩,
   ⟨R [(Reg.BRG.WSEL.INDEX.mine .host, 63), (Reg.BRG.TSEL.INDEX.mine .host, 15)] (S0), by decide +kernel⟩,
   ⟨.host, R [(Reg.BRG.WSEL.INDEX.mine .host, 63), (Reg.BRG.TSEL.INDEX.mine .host,
     15)] (updBrg (fun z => { z with pwl := [(⟨1, 2, 3, 4⟩)], widx := [(reqIdx .host, 3)] }) State.reset), ⟨1, 2, 3, 4⟩, [], 3, by decide +kernel⟩,
   ⟨R [(Reg.BRG.WSEL.INDEX.mine .host, 63), (Reg.BRG.TSEL.INDEX.mine .host, 15)] (State.reset), by decide +kernel⟩,
   ⟨.host, R [(Reg.BRG.WSEL.INDEX.mine .host, 63), (Reg.BRG.TSEL.INDEX.mine .host,
     15)] (updBrg (fun z => { z with elg := [(⟨1, 2, 3, 4⟩)], widx := [(4 + reqIdx .host, 3)] }) State.reset), ⟨1, 2, 3, 4⟩, [], 3, by decide +kernel⟩,
   ⟨R [(Reg.BRG.WSEL.INDEX.mine .host, 63), (Reg.BRG.TSEL.INDEX.mine .host, 15)] (State.reset), by decide +kernel⟩,
   ⟨R [(Reg.BRG.WSEL.INDEX.mine .host, 63), (Reg.BRG.TSEL.INDEX.mine .host, 15)] (State.reset), by decide +kernel⟩,
   ⟨R [(Reg.BRG.WSEL.INDEX.mine .host, 63), (Reg.BRG.TSEL.INDEX.mine .host, 15)] (State.reset), by decide +kernel⟩,
   ⟨R [(Reg.BRG.WSEL.INDEX.mine .host, 63), (Reg.BRG.TSEL.INDEX.mine .host, 15)] (updBrg (fun z => { z with pwl := [⟨1, 2, 3, 4⟩] }) State.reset),
     o0, bd (4) [(0, 1, (32 : Nat))], 32, by decide +kernel⟩⟩

theorem test_hyps_BridgeRequestsGoThroughWindows :
    (∃ o : Origin, ∃ body : List Byte, ∃ a : Nat, ∃ n : Nat, ∃ s : State, ∃ w, ∃ e, ∃ tag, ∃ g, mayDispatch s o = true ∧ field body 0 5 = a ∧
      field body 6 2 = n ∧ windowAt s a = some w ∧ rdB Reg.BRG.CFG.IEN s = true ∧ brgTunnel s (wTUN w) = some e ∧ entryFree s false = true ∧
      orgOSHP e = 0 ∧ body.length = 8 ∧ rangeBad body 4096 = false ∧ wRD w = true ∧ freeReadTag s = some tag ∧ Tab.get zeroN s.brg.gens tag = g) ∧
    (∃ o : Origin, ∃ body : List Byte, ∃ a : Nat, ∃ n : Nat, ∃ s : State, ∃ w, ∃ e, freeReadTag s = none ∧ mayDispatch s o = true ∧
      field body 0 5 = a ∧ field body 6 2 = n ∧ windowAt s a = some w ∧ rdB Reg.BRG.CFG.IEN s = true ∧ brgTunnel s (wTUN w) = some e ∧
      entryFree s false = true ∧ orgOSHP e = 0 ∧ body.length = 8 ∧ rangeBad body 4096 = false ∧ wRD w = true) ∧
    (∃ o : Origin, ∃ body : List Byte, ∃ a : Nat, ∃ n : Nat, ∃ s : State, ∃ w, ∃ e, ∃ k, ∃ b, mayDispatch s o = true ∧ field body 0 5 = a ∧
      field body 6 2 = n ∧ windowAt s a = some w ∧ rdB Reg.BRG.CFG.IEN s = true ∧ brgTunnel s (wTUN w) = some e ∧ entryFree s false = true ∧
      orgOSHP e = 0 ∧ body.length = 8 + n ∧ rangeBad body 512 = false ∧ wWR w = true ∧ 16 + n ≤ orgMAXLEN e ∧ Tab.get zeroN s.brg.wnum (wTUN w) = k ∧
      Tab.get noB s.brg.started (wTUN w) = b) ∧
    (∃ o : Origin, ∃ body : List Byte, ∃ a : Nat, ∃ n : Nat, ∃ s : State, mayDispatch s o = true ∧ field body 0 5 = a ∧ field body 6 2 = n ∧
      entryFree s false = true ∧ windowAt s a = none ∧ body.length = 8 ∧ rangeBad body 4096 = false) ∧
    (∃ o : Origin, ∃ body : List Byte, ∃ a : Nat, ∃ n : Nat, ∃ s : State, mayDispatch s o = true ∧ field body 0 5 = a ∧ field body 6 2 = n ∧
      entryFree s false = true ∧ windowAt s a = none ∧ body.length = 8 + n ∧ rangeBad body 512 = false) ∧
    (∃ o : Origin, ∃ body : List Byte, ∃ a : Nat, ∃ n : Nat, ∃ s : State, mayDispatch s o = true ∧ field body 0 5 = a ∧ field body 6 2 = n ∧
      entryFree s false = false ∧ body.length = 8 ∧ rangeBad body 4096 = false) ∧
    (∃ o : Origin, ∃ body : List Byte, ∃ a : Nat, ∃ n : Nat, ∃ s : State, mayDispatch s o = true ∧ field body 0 5 = a ∧ field body 6 2 = n ∧
      body.length = 8 ∧ rangeBad body 4096 = true) ∧
    (∃ o : Origin, ∃ body : List Byte, ∃ a : Nat, ∃ n : Nat, ∃ s : State, mayDispatch s o = true ∧ field body 0 5 = a ∧ field body 6 2 = n ∧
      body.length = 8 + n ∧ rangeBad body 512 = true) :=
  ⟨⟨o0, bd (8) [(0, 5, (0xFFC : Nat)), (6, 2, (4 : Nat))], 0xFFC, 4, R [(Reg.BRG.CFG.IEN, 1)] (W0), ((windowAt (R [(Reg.BRG.CFG.IEN,
     1)] (W0)) (0xFFC : Nat)).get (by decide +kernel)), ((brgTunnel (R [(Reg.BRG.CFG.IEN, 1)] (W0)) (wTUN (((windowAt (R [(Reg.BRG.CFG.IEN,
     1)] (W0)) (0xFFC : Nat)).get (by decide +kernel))))).get (by decide +kernel)), ((freeReadTag (R [(Reg.BRG.CFG.IEN,
     1)] (W0))).get (by decide +kernel)), Tab.get zeroN (R [(Reg.BRG.CFG.IEN, 1)] (W0)).brg.gens (((freeReadTag (R [(Reg.BRG.CFG.IEN,
     1)] (W0))).get (by decide +kernel))), by decide +kernel⟩,
   ⟨o0, bd (8) [(0, 5, (0xFFC : Nat)), (6, 2, (4 : Nat))], 0xFFC, 4, Ws, ⟨0xE0C00005, 0, 0⟩, 0x8400004000000000, tags_full, by decide +kernel⟩,
   ⟨o0, bd (8 + (512 : Nat)) [(0, 5, (0xE00 : Nat)), (6, 2, (512 : Nat))], 0xE00, 512, R [(Reg.BRG.CFG.IEN, 1)] (W0),
     ((windowAt (R [(Reg.BRG.CFG.IEN, 1)] (W0)) (0xE00 : Nat)).get (by decide +kernel)), ((brgTunnel (R [(Reg.BRG.CFG.IEN,
     1)] (W0)) (wTUN (((windowAt (R [(Reg.BRG.CFG.IEN, 1)] (W0)) (0xE00 : Nat)).get (by decide +kernel))))).get (by decide +kernel)),
     Tab.get zeroN (R [(Reg.BRG.CFG.IEN, 1)] (W0)).brg.wnum (wTUN (((windowAt (R [(Reg.BRG.CFG.IEN,
     1)] (W0)) (0xE00 : Nat)).get (by decide +kernel)))), Tab.get noB (R [(Reg.BRG.CFG.IEN,
     1)] (W0)).brg.started (wTUN (((windowAt (R [(Reg.BRG.CFG.IEN, 1)] (W0)) (0xE00 : Nat)).get (by decide +kernel)))), by decide +kernel⟩,
   ⟨o0, bd (8) [(0, 5, (0xFFFFFFFFC : Nat)), (6, 2, (4 : Nat))], 0xFFFFFFFFC, 4, S0, by decide +kernel⟩,
   ⟨o0, bd (8 + (4 : Nat)) [(0, 5, (0xFFFFFFFFC : Nat)), (6, 2, (4 : Nat))], 0xFFFFFFFFC, 4, S0, by decide +kernel⟩,
   ⟨o0, bd (8) [(0, 5, (0xFFC : Nat)), (6, 2, (4 : Nat))], 0xFFC, 4,
     updBrg (fun z => { z with reads := (List.range 48).map fun i => rt i (.cmd o0) }) W0, by decide +kernel⟩,
   ⟨o0, bd (8) [(0, 5, (0xFFC : Nat)), (6, 2, (0 : Nat))], 0xFFC, 0, W0, by decide +kernel⟩,
   ⟨o0, bd (8 + (5 : Nat)) [(0, 5, (0xFFC : Nat)), (6, 2, (5 : Nat))], 0xFFC, 5, W0, by decide +kernel⟩⟩

theorem test_hyps_BarRequestsAndAnswers :
    (∃ s : State, ∃ addr : BitVec 36, ∃ len : BitVec 13, ∃ w : Window, ∃ e : Nat, ∃ tag : Nat, tsLives s = true ∧ domSt s 0x14 = .inService ∧ (∀ x,
      x ∈ s.brg.retry → barPort x.reader = false) ∧ windowAt s addr.toNat = some w ∧ rdB Reg.BRG.CFG.IEN s = true ∧ brgTunnel s (wTUN w) = some e ∧
      wRD w = true ∧ entryFree s true = true ∧ freeReadTag s = some tag ∧ 0 < len.toNat ∧ addr.toNat % 4096 + len.toNat ≤ 4096) ∧
    (∃ s : State, ∃ addr : BitVec 36, ∃ len : BitVec 13, ∃ data : List Byte, tsLives s = true ∧ domSt s 0x14 ≠ .inService ∧ data.length = len.toNat ∧
      0 < len.toNat ∧ len.toNat ≤ 512 ∧ addr.toNat % 4096 + len.toNat ≤ 4096) ∧
    (∃ w : Bool, ∃ addr : BitVec 36, ∃ len : BitVec 13, ∃ data : List Byte, 0 < len.toNat ∧ addr.toNat % 4096 + len.toNat ≤ 4096 ∧
      (w = true → data.length = len.toNat ∧ len.toNat ≤ 512) ∧ (w = false → data = [])) ∧
    (∃ s : State, ∃ addr : BitVec 36, ∃ len : BitVec 13, ∃ n : Nat, n = 4096 - addr.toNat % 4096 ∧ n < len.toNat ∧ len.toNat ≤ 4096 ∧
      tsLives s = true) ∧
    (∃ s : State, ∃ id : Nat, ∃ x : LocalTxn, ∃ o : Origin, ∃ rest : List LocalTxn, takeFirst (fun t : LocalTxn => t.id == id) s.brg.retry = some (x,
      rest) ∧ x.reader = .cmd o ∧ (∀ y, y ∈ rest → barPort y.reader = false) ∧ x.wr = false ∧ 15 ≤ x.tries ∧ entryFree s false = false) ∧
    (∃ s : State, ∃ id : Nat, ∃ x : LocalTxn, ∃ o : Origin, ∃ rest : List LocalTxn, takeFirst (fun t : LocalTxn => t.id == id) s.brg.retry = some (x,
      rest) ∧ x.reader = .cmd o ∧ (∀ y, y ∈ rest → barPort y.reader = false) ∧ x.wr = false ∧ 0 < x.tries ∧ x.tries < 15 ∧ entryFree s false = false) ∧
    (∃ s : State, ∃ id : Nat, ∃ x : LocalTxn, ∃ o : Origin, ∃ rest : List LocalTxn, ∃ w, ∃ tag,
      takeFirst (fun t : LocalTxn => t.id == id) s.brg.retry = some (x, rest) ∧ x.reader = .cmd o ∧ (∀ y, y ∈ rest → barPort y.reader = false) ∧
      x.wr = false ∧ 0 < x.tries ∧ entryFree s false = true ∧ windowAt s x.addr = some w ∧ rdB Reg.BRG.CFG.IEN s = true ∧
      (brgTunnel s (wTUN w)).isSome = true ∧ wRD w = true ∧ freeReadTag s = some tag) ∧
    (∃ s : State, ∃ f : Frame, ∃ u : State, ∃ st : Nat, takeFrame 1 (fun f => brgKind f.bytes == 3) s = some (f, u) ∧
      takeFirst (fun r : ReadTag => r.tag == brgId f.bytes % 1024 && r.gen == brgId f.bytes / 1024) s.brg.reads = none ∧ brgStatus f.bytes = st) ∧
    (∃ s : State, ∃ f : Frame, ∃ u : State, ∃ st : Nat, ∃ r : ReadTag, ∃ rest : List ReadTag, ∃ o : Origin,
      takeFrame 1 (fun f => brgKind f.bytes == 3) s = some (f, u) ∧
      takeFirst (fun r : ReadTag => r.tag == brgId f.bytes % 1024 && r.gen == brgId f.bytes / 1024) s.brg.reads = some (r, rest) ∧
      brgStatus f.bytes = st ∧ r.reader = .cmd o ∧ s.brg.readWait = [] ∧ st = 0 ∧ brgLen f.bytes = r.len) ∧
    (∃ s : State, ∃ f : Frame, ∃ u : State, ∃ st : Nat, ∃ r : ReadTag, ∃ rest : List ReadTag, ∃ o : Origin,
      takeFrame 1 (fun f => brgKind f.bytes == 3) s = some (f, u) ∧
      takeFirst (fun r : ReadTag => r.tag == brgId f.bytes % 1024 && r.gen == brgId f.bytes / 1024) s.brg.reads = some (r, rest) ∧
      brgStatus f.bytes = st ∧ r.reader = .cmd o ∧ s.brg.readWait = [] ∧ 0 < st ∧ st < 256) ∧
    (∃ s : State, ∃ f : Frame, ∃ u : State, ∃ st : Nat, ∃ r : ReadTag, ∃ rest : List ReadTag, ∃ o : Origin,
      takeFrame 1 (fun f => brgKind f.bytes == 3) s = some (f, u) ∧
      takeFirst (fun r : ReadTag => r.tag == brgId f.bytes % 1024 && r.gen == brgId f.bytes / 1024) s.brg.reads = some (r, rest) ∧
      brgStatus f.bytes = st ∧ r.reader = .cmd o ∧ s.brg.readWait = [] ∧ st = 0 ∧ brgLen f.bytes ≠ r.len) ∧
    (∃ s : State, ∃ tag : Fin 1024, ∃ r : ReadTag, ∃ rest : List ReadTag, ∃ o : Origin,
      takeFirst (fun r : ReadTag => r.tag == tag.val) s.brg.reads = some (r, rest) ∧ r.reader = .cmd o ∧ s.brg.readWait = []) ∧
    (∃ s : State, ∃ f : Frame, ∃ u : State, takeFrame 1 (fun f => brgKind f.bytes == 6) s = some (f, u)) :=
  ⟨⟨updBrg (fun z => { z with windows := [(0, ⟨0xE0C00005, 0, 0⟩)] }) (E 2 5 0x8400004000000000 (R [(Reg.BRG.CFG.IEN, 1)] Ts)), 0xFFC, 4,
     ((windowAt (updBrg (fun z => { z with windows := [(0, ⟨0xE0C00005, 0, 0⟩)] }) (E 2 5 0x8400004000000000 (R [(Reg.BRG.CFG.IEN,
     1)] Ts))) (0xFFC : BitVec 36).toNat).get (by decide +kernel)),
     ((brgTunnel (updBrg (fun z => { z with windows := [(0, ⟨0xE0C00005, 0, 0⟩)] }) (E 2 5 0x8400004000000000 (R [(Reg.BRG.CFG.IEN,
     1)] Ts))) (wTUN (((windowAt (updBrg (fun z => { z with windows := [(0, ⟨0xE0C00005, 0, 0⟩)] }) (E 2 5 0x8400004000000000 (R [(Reg.BRG.CFG.IEN,
     1)] Ts))) (0xFFC : BitVec 36).toNat).get (by decide +kernel))))).get (by decide +kernel)),
     ((freeReadTag (updBrg (fun z => { z with windows := [(0, ⟨0xE0C00005, 0, 0⟩)] }) (E 2 5 0x8400004000000000 (R [(Reg.BRG.CFG.IEN,
     1)] Ts)))).get (by decide +kernel)), by decide +kernel⟩,
   ⟨D 0x14 .quiesced Ts, 0xFFC, 4, [1, 2, 3, 4], by decide +kernel⟩,
   ⟨true, 0xFFC, 4, [1, 2, 3, 4], by decide +kernel⟩,
   ⟨Ts, 0xFFC, 5, 4096 - (0xFFC : BitVec 36).toNat % 4096, by decide +kernel⟩,
   ⟨updBrg (fun z => { z with retry := [lt0 15], reads := (List.range 48).map fun i => rt i (.cmd o0) }) W0, 5, lt0 15, o0, [], rfl,
     by decide +kernel⟩,
   ⟨updBrg (fun z => { z with retry := [lt0 14], reads := (List.range 48).map fun i => rt i (.cmd o0) }) W0, 5, lt0 14, o0, [], rfl,
     by decide +kernel⟩,
   ⟨R [(Reg.BRG.CFG.IEN, 1)] (updBrg (fun z => { z with retry := [lt0 15] }) W0), 5, lt0 15, o0, [], ((windowAt (R [(Reg.BRG.CFG.IEN,
     1)] (updBrg (fun z => { z with retry := [lt0 15] }) W0)) (lt0 15).addr).get (by decide +kernel)), ((freeReadTag (R [(Reg.BRG.CFG.IEN,
     1)] (updBrg (fun z => { z with retry := [lt0 15] }) W0))).get (by decide +kernel)), rfl, by decide +kernel⟩,
   ⟨setInbox 1 [F (bd 20 [(0, 1, 0x30), (2, 2, 1023), (4, 2, 4)])] State.reset,
     ((takeFrame 1 (fun f => brgKind f.bytes == 3) (setInbox 1 [F (bd 20 [(0, 1, 0x30), (2, 2, 1023), (4, 2,
     4)])] State.reset)).get (by decide +kernel)).1, ((takeFrame 1 (fun f => brgKind f.bytes == 3) (setInbox 1 [F (bd 20 [(0, 1, 0x30), (2, 2, 1023),
     (4, 2, 4)])] State.reset)).get (by decide +kernel)).2, 0, rfl, rfl, by decide +kernel⟩,
   ⟨updBrg (fun z => { z with reads := [rt 1023 (.cmd o0)] }) (setInbox 1 [F (bd 20 [(0, 1, 0x30), (1, 1, (0 : Nat)), (2, 2, 1023), (4, 2,
     4)])] State.reset),
     ((takeFrame 1 (fun f => brgKind f.bytes == 3) (updBrg (fun z => { z with reads := [rt 1023 (.cmd o0)] }) (setInbox 1 [F (bd 20 [(0, 1, 0x30), (1,
     1, (0 : Nat)), (2, 2, 1023), (4, 2, 4)])] State.reset))).get (by decide +kernel)).1,
     ((takeFrame 1 (fun f => brgKind f.bytes == 3) (updBrg (fun z => { z with reads := [rt 1023 (.cmd o0)] }) (setInbox 1 [F (bd 20 [(0, 1, 0x30), (1,
     1, (0 : Nat)), (2, 2, 1023), (4, 2, 4)])] State.reset))).get (by decide +kernel)).2, 0, rt 1023 (.cmd o0), [], o0, rfl, rfl, by decide +kernel⟩,
   ⟨updBrg (fun z => { z with reads := [rt 1023 (.cmd o0)] }) (setInbox 1 [F (bd 20 [(0, 1, 0x30), (1, 1, (8 : Nat)), (2, 2, 1023), (4, 2,
     4)])] State.reset),
     ((takeFrame 1 (fun f => brgKind f.bytes == 3) (updBrg (fun z => { z with reads := [rt 1023 (.cmd o0)] }) (setInbox 1 [F (bd 20 [(0, 1, 0x30), (1,
     1, (8 : Nat)), (2, 2, 1023), (4, 2, 4)])] State.reset))).get (by decide +kernel)).1,
     ((takeFrame 1 (fun f => brgKind f.bytes == 3) (updBrg (fun z => { z with reads := [rt 1023 (.cmd o0)] }) (setInbox 1 [F (bd 20 [(0, 1, 0x30), (1,
     1, (8 : Nat)), (2, 2, 1023), (4, 2, 4)])] State.reset))).get (by decide +kernel)).2, 8, rt 1023 (.cmd o0), [], o0, rfl, rfl, by decide +kernel⟩,
   ⟨updBrg (fun z => { z with reads := [rt 1023 (.cmd o0)] }) (setInbox 1 [F (bd 20 [(0, 1, 0x30), (2, 2, 1023), (4, 2, 5)])] State.reset),
     ((takeFrame 1 (fun f => brgKind f.bytes == 3) (updBrg (fun z => { z with reads := [rt 1023 (.cmd o0)] }) (setInbox 1 [F (bd 20 [(0, 1, 0x30), (2,
     2, 1023), (4, 2, 5)])] State.reset))).get (by decide +kernel)).1,
     ((takeFrame 1 (fun f => brgKind f.bytes == 3) (updBrg (fun z => { z with reads := [rt 1023 (.cmd o0)] }) (setInbox 1 [F (bd 20 [(0, 1, 0x30), (2,
     2, 1023), (4, 2, 5)])] State.reset))).get (by decide +kernel)).2, 0, rt 1023 (.cmd o0), [], o0, rfl, rfl, by decide +kernel⟩,
   ⟨updBrg (fun z => { z with reads := [rt 1023 (.cmd o0)] }) State.reset, 1023, rt 1023 (.cmd o0), [], o0, rfl, by decide +kernel⟩,
   ⟨setInbox 1 [F (bd 16 [(0, 1, 0x60)])] State.reset, ((takeFrame 1 (fun f => brgKind f.bytes == 6) (setInbox 1 [F (bd 16 [(0, 1,
     0x60)])] State.reset)).get (by decide +kernel)).1, ((takeFrame 1 (fun f => brgKind f.bytes == 6) (setInbox 1 [F (bd 16 [(0, 1,
     0x60)])] State.reset)).get (by decide +kernel)).2, rfl⟩⟩

theorem test_hyps_BridgeWritesAndFences :
    (∃ f : Frame, ∃ a : Nat, ∃ n : Nat, ∃ s : State, nextRequest s 1 [] (inbox s 1) = some f ∧ brgAddr f.bytes = a ∧ brgId f.bytes = n ∧ n < 65536 ∧
      apertureFails s f true a (brgLen f.bytes) = none ∧ a + brgLen f.bytes ≤ 0x100000000 ∧ s1Up s = true ∧ brgStart f.bytes = true) ∧
    (∃ f : Frame, ∃ a : Nat, ∃ n : Nat, ∃ s : State, nextRequest s 1 [] (inbox s 1) = some f ∧ brgAddr f.bytes = a ∧ brgId f.bytes = n ∧ n < 65536 ∧
      apertureFails s f true a (brgLen f.bytes) = none ∧ a + brgLen f.bytes ≤ 0x100000000 ∧ s1Up s = true ∧ brgStart f.bytes = false ∧
      ctxOf s f.src f.tun = none) ∧
    (∃ f : Frame, ∃ a : Nat, ∃ n : Nat, ∃ s : State, ∃ c, nextRequest s 1 [] (inbox s 1) = some f ∧ brgAddr f.bytes = a ∧ brgId f.bytes = n ∧
      n < 65536 ∧ apertureFails s f true a (brgLen f.bytes) = none ∧ a + brgLen f.bytes ≤ 0x100000000 ∧ s1Up s = true ∧ brgStart f.bytes = false ∧
      ctxOf s f.src f.tun = some c ∧ c.next < 65536 ∧ n = c.next) ∧
    (∃ f : Frame, ∃ a : Nat, ∃ n : Nat, ∃ s : State, ∃ c, ∃ d, nextRequest s 1 [] (inbox s 1) = some f ∧ brgAddr f.bytes = a ∧ brgId f.bytes = n ∧
      n < 65536 ∧ apertureFails s f true a (brgLen f.bytes) = none ∧ a + brgLen f.bytes ≤ 0x100000000 ∧ s1Up s = true ∧ brgStart f.bytes = false ∧
      ctxOf s f.src f.tun = some c ∧ c.next < 65536 ∧ 0 < d ∧ d < 32768 ∧ n = (c.next + d) % 65536) ∧
    (∃ f : Frame, ∃ a : Nat, ∃ n : Nat, ∃ s : State, ∃ c, ∃ d, nextRequest s 1 [] (inbox s 1) = some f ∧ brgAddr f.bytes = a ∧ brgId f.bytes = n ∧
      n < 65536 ∧ brgStart f.bytes = false ∧ ctxOf s f.src f.tun = some c ∧ c.next < 65536 ∧ 32768 ≤ d ∧ d < 65536 ∧ n = (c.next + d) % 65536) ∧
    (∃ f : Frame, ∃ a : Nat, ∃ n : Nat, ∃ st : Nat, ∃ s : State, nextRequest s 1 [] (inbox s 1) = some f ∧ brgAddr f.bytes = a ∧ brgId f.bytes = n ∧
      n < 65536 ∧ apertureFails s f true a (brgLen f.bytes) = some st ∧ brgStart f.bytes = true) ∧
    (∃ s : State, ∃ f : Frame, ∃ n : Nat, ∃ c, nextRequest s 4 [] (inbox s 1) = some f ∧ brgId f.bytes = n ∧ n < 65536 ∧
      ctxOf s f.src f.tun = some c ∧ c.next = n ∧ c.fails < 65536 ∧ brgStart f.bytes = false) ∧
    (∃ s : State, ∃ f : Frame, ∃ n : Nat, nextRequest s 4 [] (inbox s 1) = some f ∧ brgId f.bytes = n ∧ n < 65536 ∧ ctxOf s f.src f.tun = none ∧
      brgStart f.bytes = false) ∧
    (∃ s : State, ∃ o : Origin, ∃ body : List Byte, ∃ i : Nat, ∃ tun : Nat, mayDispatch s o = true ∧ body.length = 4 ∧ field body 0 1 = i ∧ i < 64 ∧
      zeroAt body 1 3 = true ∧ wTUN (window s i) = tun ∧ (∀ y, y ∈ s.brg.fences → y.tun ≠ tun)) ∧
    (∃ s : State, ∃ o : Origin, ∃ body : List Byte, ∃ i : Nat, ∃ tun : Nat, mayDispatch s o = true ∧ body.length = 4 ∧ field body 0 1 = i ∧ i < 64 ∧
      zeroAt body 1 3 = true ∧ wTUN (window s i) = tun ∧ (∃ y, y ∈ s.brg.fences ∧ y.tun = tun)) ∧
    (∃ s : State, ∃ f : Frame, ∃ u : State, ∃ x : Fence, takeFrame 1 (fun f => brgKind f.bytes == 5) s = some (f, u) ∧
      (s.brg.fences.filter fun x => x.sent && x.tun == f.tun && x.id == brgId f.bytes).head? = some x ∧ (∀ y,
      y ∈ s.brg.fences → y.tun = f.tun → y.sent = true)) ∧
    (∃ s : State, ∃ tun : BitVec 14, ∃ x : Fence, (s.brg.fences.filter fun x => x.sent && x.tun == tun.toNat).head? = some x ∧ (∀ y,
      y ∈ s.brg.fences → y.tun = tun.toNat → y.sent = true)) :=
  ⟨⟨((nextRequest (setInbox 1 [F (bd 20 [(0, 1, 0x11), (2, 2, 65535), (4, 2, 4), (6, 5, 0xFFC)])] A0) 1 [] (inbox (setInbox 1 [F (bd 20 [(0, 1,
     0x11), (2, 2, 65535), (4, 2, 4), (6, 5, 0xFFC)])] A0) 1)).get (by decide +kernel)), brgAddr (((nextRequest (setInbox 1 [F (bd 20 [(0, 1, 0x11),
     (2, 2, 65535), (4, 2, 4), (6, 5, 0xFFC)])] A0) 1 [] (inbox (setInbox 1 [F (bd 20 [(0, 1, 0x11), (2, 2, 65535), (4, 2, 4), (6, 5,
     0xFFC)])] A0) 1)).get (by decide +kernel))).bytes, brgId (((nextRequest (setInbox 1 [F (bd 20 [(0, 1, 0x11), (2, 2, 65535), (4, 2, 4), (6, 5,
     0xFFC)])] A0) 1 [] (inbox (setInbox 1 [F (bd 20 [(0, 1, 0x11), (2, 2, 65535), (4, 2, 4), (6, 5, 0xFFC)])] A0) 1)).get (by decide +kernel))).bytes,
     setInbox 1 [F (bd 20 [(0, 1, 0x11), (2, 2, 65535), (4, 2, 4), (6, 5, 0xFFC)])] A0, by decide +kernel⟩,
   ⟨((nextRequest (setInbox 1 [F (bd 20 [(0, 1, 0x10), (2, 2, 65535), (4, 2, 4), (6, 5, 0xFFC)])] A0) 1 [] (inbox (setInbox 1 [F (bd 20 [(0, 1,
     0x10), (2, 2, 65535), (4, 2, 4), (6, 5, 0xFFC)])] A0) 1)).get (by decide +kernel)), brgAddr (((nextRequest (setInbox 1 [F (bd 20 [(0, 1, 0x10),
     (2, 2, 65535), (4, 2, 4), (6, 5, 0xFFC)])] A0) 1 [] (inbox (setInbox 1 [F (bd 20 [(0, 1, 0x10), (2, 2, 65535), (4, 2, 4), (6, 5,
     0xFFC)])] A0) 1)).get (by decide +kernel))).bytes, brgId (((nextRequest (setInbox 1 [F (bd 20 [(0, 1, 0x10), (2, 2, 65535), (4, 2, 4), (6, 5,
     0xFFC)])] A0) 1 [] (inbox (setInbox 1 [F (bd 20 [(0, 1, 0x10), (2, 2, 65535), (4, 2, 4), (6, 5, 0xFFC)])] A0) 1)).get (by decide +kernel))).bytes,
     setInbox 1 [F (bd 20 [(0, 1, 0x10), (2, 2, 65535), (4, 2, 4), (6, 5, 0xFFC)])] A0, by decide +kernel⟩,
   ⟨((nextRequest (updBrg (fun z => { z with wctx := [⟨7, 9, 65535, 0, true⟩] }) (setInbox 1 [F (bd 20 [(0, 1, 0x10), (2, 2, 65535), (4, 2, 4), (6,
     5, 0xFFC)])] A0)) 1 [] (inbox (updBrg (fun z => { z with wctx := [⟨7, 9, 65535, 0, true⟩] }) (setInbox 1 [F (bd 20 [(0, 1, 0x10), (2, 2, 65535),
     (4, 2, 4), (6, 5, 0xFFC)])] A0)) 1)).get (by decide +kernel)),
     brgAddr (((nextRequest (updBrg (fun z => { z with wctx := [⟨7, 9, 65535, 0, true⟩] }) (setInbox 1 [F (bd 20 [(0, 1, 0x10), (2, 2, 65535), (4, 2,
     4), (6, 5, 0xFFC)])] A0)) 1 [] (inbox (updBrg (fun z => { z with wctx := [⟨7, 9, 65535, 0, true⟩] }) (setInbox 1 [F (bd 20 [(0, 1, 0x10), (2, 2,
     65535), (4, 2, 4), (6, 5, 0xFFC)])] A0)) 1)).get (by decide +kernel))).bytes,
     brgId (((nextRequest (updBrg (fun z => { z with wctx := [⟨7, 9, 65535, 0, true⟩] }) (setInbox 1 [F (bd 20 [(0, 1, 0x10), (2, 2, 65535), (4, 2, 4),
     (6, 5, 0xFFC)])] A0)) 1 [] (inbox (updBrg (fun z => { z with wctx := [⟨7, 9, 65535, 0, true⟩] }) (setInbox 1 [F (bd 20 [(0, 1, 0x10), (2, 2,
     65535), (4, 2, 4), (6, 5, 0xFFC)])] A0)) 1)).get (by decide +kernel))).bytes,
     updBrg (fun z => { z with wctx := [⟨7, 9, 65535, 0, true⟩] }) (setInbox 1 [F (bd 20 [(0, 1, 0x10), (2, 2, 65535), (4, 2, 4), (6, 5, 0xFFC)])] A0),
     ((ctxOf (updBrg (fun z => { z with wctx := [⟨7, 9, 65535, 0, true⟩] }) (setInbox 1 [F (bd 20 [(0, 1, 0x10), (2, 2, 65535), (4, 2, 4), (6, 5,
     0xFFC)])] A0)) (((nextRequest (updBrg (fun z => { z with wctx := [⟨7, 9, 65535, 0, true⟩] }) (setInbox 1 [F (bd 20 [(0, 1, 0x10), (2, 2, 65535),
     (4, 2, 4), (6, 5, 0xFFC)])] A0)) 1 [] (inbox (updBrg (fun z => { z with wctx := [⟨7, 9, 65535, 0, true⟩] }) (setInbox 1 [F (bd 20 [(0, 1, 0x10),
     (2, 2, 65535), (4, 2, 4), (6, 5,
     0xFFC)])] A0)) 1)).get (by decide +kernel))).src (((nextRequest (updBrg (fun z => { z with wctx := [⟨7, 9, 65535, 0, true⟩] }) (setInbox 1 [F (bd 20 [(0,
     1, 0x10), (2, 2, 65535), (4, 2, 4), (6, 5,
     0xFFC)])] A0)) 1 [] (inbox (updBrg (fun z => { z with wctx := [⟨7, 9, 65535, 0, true⟩] }) (setInbox 1 [F (bd 20 [(0, 1, 0x10), (2, 2, 65535), (4,
     2, 4), (6, 5, 0xFFC)])] A0)) 1)).get (by decide +kernel))).tun).get (by decide +kernel)), by decide +kernel⟩,
   ⟨((nextRequest (updBrg (fun z => { z with wctx := [⟨7, 9, 32768, 0, true⟩] }) (setInbox 1 [F (bd 20 [(0, 1, 0x10), (2, 2, 65535), (4, 2, 4), (6,
     5, 0xFFC)])] A0)) 1 [] (inbox (updBrg (fun z => { z with wctx := [⟨7, 9, 32768, 0, true⟩] }) (setInbox 1 [F (bd 20 [(0, 1, 0x10), (2, 2, 65535),
     (4, 2, 4), (6, 5, 0xFFC)])] A0)) 1)).get (by decide +kernel)),
     brgAddr (((nextRequest (updBrg (fun z => { z with wctx := [⟨7, 9, 32768, 0, true⟩] }) (setInbox 1 [F (bd 20 [(0, 1, 0x10), (2, 2, 65535), (4, 2,
     4), (6, 5, 0xFFC)])] A0)) 1 [] (inbox (updBrg (fun z => { z with wctx := [⟨7, 9, 32768, 0, true⟩] }) (setInbox 1 [F (bd 20 [(0, 1, 0x10), (2, 2,
     65535), (4, 2, 4), (6, 5, 0xFFC)])] A0)) 1)).get (by decide +kernel))).bytes,
     brgId (((nextRequest (updBrg (fun z => { z with wctx := [⟨7, 9, 32768, 0, true⟩] }) (setInbox 1 [F (bd 20 [(0, 1, 0x10), (2, 2, 65535), (4, 2, 4),
     (6, 5, 0xFFC)])] A0)) 1 [] (inbox (updBrg (fun z => { z with wctx := [⟨7, 9, 32768, 0, true⟩] }) (setInbox 1 [F (bd 20 [(0, 1, 0x10), (2, 2,
     65535), (4, 2, 4), (6, 5, 0xFFC)])] A0)) 1)).get (by decide +kernel))).bytes,
     updBrg (fun z => { z with wctx := [⟨7, 9, 32768, 0, true⟩] }) (setInbox 1 [F (bd 20 [(0, 1, 0x10), (2, 2, 65535), (4, 2, 4), (6, 5, 0xFFC)])] A0),
     ((ctxOf (updBrg (fun z => { z with wctx := [⟨7, 9, 32768, 0, true⟩] }) (setInbox 1 [F (bd 20 [(0, 1, 0x10), (2, 2, 65535), (4, 2, 4), (6, 5,
     0xFFC)])] A0)) (((nextRequest (updBrg (fun z => { z with wctx := [⟨7, 9, 32768, 0, true⟩] }) (setInbox 1 [F (bd 20 [(0, 1, 0x10), (2, 2, 65535),
     (4, 2, 4), (6, 5, 0xFFC)])] A0)) 1 [] (inbox (updBrg (fun z => { z with wctx := [⟨7, 9, 32768, 0, true⟩] }) (setInbox 1 [F (bd 20 [(0, 1, 0x10),
     (2, 2, 65535), (4, 2, 4), (6, 5,
     0xFFC)])] A0)) 1)).get (by decide +kernel))).src (((nextRequest (updBrg (fun z => { z with wctx := [⟨7, 9, 32768, 0, true⟩] }) (setInbox 1 [F (bd 20 [(0,
     1, 0x10), (2, 2, 65535), (4, 2, 4), (6, 5,
     0xFFC)])] A0)) 1 [] (inbox (updBrg (fun z => { z with wctx := [⟨7, 9, 32768, 0, true⟩] }) (setInbox 1 [F (bd 20 [(0, 1, 0x10), (2, 2, 65535), (4,
     2, 4), (6, 5, 0xFFC)])] A0)) 1)).get (by decide +kernel))).tun).get (by decide +kernel)), 32767, by decide +kernel⟩,
   ⟨((nextRequest (updBrg (fun z => { z with wctx := [⟨7, 9, 32767, 0, true⟩] }) (setInbox 1 [F (bd 20 [(0, 1, 0x10), (2, 2, 65535), (4, 2, 4), (6,
     5, 0xFFC)])] A0)) 1 [] (inbox (updBrg (fun z => { z with wctx := [⟨7, 9, 32767, 0, true⟩] }) (setInbox 1 [F (bd 20 [(0, 1, 0x10), (2, 2, 65535),
     (4, 2, 4), (6, 5, 0xFFC)])] A0)) 1)).get (by decide +kernel)),
     brgAddr (((nextRequest (updBrg (fun z => { z with wctx := [⟨7, 9, 32767, 0, true⟩] }) (setInbox 1 [F (bd 20 [(0, 1, 0x10), (2, 2, 65535), (4, 2,
     4), (6, 5, 0xFFC)])] A0)) 1 [] (inbox (updBrg (fun z => { z with wctx := [⟨7, 9, 32767, 0, true⟩] }) (setInbox 1 [F (bd 20 [(0, 1, 0x10), (2, 2,
     65535), (4, 2, 4), (6, 5, 0xFFC)])] A0)) 1)).get (by decide +kernel))).bytes,
     brgId (((nextRequest (updBrg (fun z => { z with wctx := [⟨7, 9, 32767, 0, true⟩] }) (setInbox 1 [F (bd 20 [(0, 1, 0x10), (2, 2, 65535), (4, 2, 4),
     (6, 5, 0xFFC)])] A0)) 1 [] (inbox (updBrg (fun z => { z with wctx := [⟨7, 9, 32767, 0, true⟩] }) (setInbox 1 [F (bd 20 [(0, 1, 0x10), (2, 2,
     65535), (4, 2, 4), (6, 5, 0xFFC)])] A0)) 1)).get (by decide +kernel))).bytes,
     updBrg (fun z => { z with wctx := [⟨7, 9, 32767, 0, true⟩] }) (setInbox 1 [F (bd 20 [(0, 1, 0x10), (2, 2, 65535), (4, 2, 4), (6, 5, 0xFFC)])] A0),
     ((ctxOf (updBrg (fun z => { z with wctx := [⟨7, 9, 32767, 0, true⟩] }) (setInbox 1 [F (bd 20 [(0, 1, 0x10), (2, 2, 65535), (4, 2, 4), (6, 5,
     0xFFC)])] A0)) (((nextRequest (updBrg (fun z => { z with wctx := [⟨7, 9, 32767, 0, true⟩] }) (setInbox 1 [F (bd 20 [(0, 1, 0x10), (2, 2, 65535),
     (4, 2, 4), (6, 5, 0xFFC)])] A0)) 1 [] (inbox (updBrg (fun z => { z with wctx := [⟨7, 9, 32767, 0, true⟩] }) (setInbox 1 [F (bd 20 [(0, 1, 0x10),
     (2, 2, 65535), (4, 2, 4), (6, 5,
     0xFFC)])] A0)) 1)).get (by decide +kernel))).src (((nextRequest (updBrg (fun z => { z with wctx := [⟨7, 9, 32767, 0, true⟩] }) (setInbox 1 [F (bd 20 [(0,
     1, 0x10), (2, 2, 65535), (4, 2, 4), (6, 5,
     0xFFC)])] A0)) 1 [] (inbox (updBrg (fun z => { z with wctx := [⟨7, 9, 32767, 0, true⟩] }) (setInbox 1 [F (bd 20 [(0, 1, 0x10), (2, 2, 65535), (4,
     2, 4), (6, 5, 0xFFC)])] A0)) 1)).get (by decide +kernel))).tun).get (by decide +kernel)), 32768, by decide +kernel⟩,
   ⟨((nextRequest (setInbox 1 [F (bd 20 [(0, 1, 0x11), (2, 2, 65535), (4, 2, 4), (6, 5, 0xFFD)])] A0) 1 [] (inbox (setInbox 1 [F (bd 20 [(0, 1,
     0x11), (2, 2, 65535), (4, 2, 4), (6, 5, 0xFFD)])] A0) 1)).get (by decide +kernel)), brgAddr (((nextRequest (setInbox 1 [F (bd 20 [(0, 1, 0x11),
     (2, 2, 65535), (4, 2, 4), (6, 5, 0xFFD)])] A0) 1 [] (inbox (setInbox 1 [F (bd 20 [(0, 1, 0x11), (2, 2, 65535), (4, 2, 4), (6, 5,
     0xFFD)])] A0) 1)).get (by decide +kernel))).bytes, brgId (((nextRequest (setInbox 1 [F (bd 20 [(0, 1, 0x11), (2, 2, 65535), (4, 2, 4), (6, 5,
     0xFFD)])] A0) 1 [] (inbox (setInbox 1 [F (bd 20 [(0, 1, 0x11), (2, 2, 65535), (4, 2, 4), (6, 5, 0xFFD)])] A0) 1)).get (by decide +kernel))).bytes,
     ((apertureFails (setInbox 1 [F (bd 20 [(0, 1, 0x11), (2, 2, 65535), (4, 2, 4), (6, 5, 0xFFD)])] A0) (((nextRequest (setInbox 1 [F (bd 20 [(0, 1,
     0x11), (2, 2, 65535), (4, 2, 4), (6, 5, 0xFFD)])] A0) 1 [] (inbox (setInbox 1 [F (bd 20 [(0, 1, 0x11), (2, 2, 65535), (4, 2, 4), (6, 5,
     0xFFD)])] A0) 1)).get (by decide +kernel))) true (brgAddr (((nextRequest (setInbox 1 [F (bd 20 [(0, 1, 0x11), (2, 2, 65535), (4, 2, 4), (6, 5,
     0xFFD)])] A0) 1 [] (inbox (setInbox 1 [F (bd 20 [(0, 1, 0x11), (2, 2, 65535), (4, 2, 4), (6, 5,
     0xFFD)])] A0) 1)).get (by decide +kernel))).bytes) (brgLen (((nextRequest (setInbox 1 [F (bd 20 [(0, 1, 0x11), (2, 2, 65535), (4, 2, 4), (6, 5,
     0xFFD)])] A0) 1 [] (inbox (setInbox 1 [F (bd 20 [(0, 1, 0x11), (2, 2, 65535), (4, 2, 4), (6, 5,
     0xFFD)])] A0) 1)).get (by decide +kernel))).bytes)).get (by decide +kernel)), setInbox 1 [F (bd 20 [(0, 1, 0x11), (2, 2, 65535), (4, 2, 4), (6, 5,
     0xFFD)])] A0, by decide +kernel⟩,
   ⟨updBrg (fun z => { z with wctx := [⟨7, 9, 65535, 3, true⟩] }) (setInbox 1 [F (bd 16 [(0, 1, 0x40), (2, 2, 65535)])] A0),
     ((nextRequest (updBrg (fun z => { z with wctx := [⟨7, 9, 65535, 3, true⟩] }) (setInbox 1 [F (bd 16 [(0, 1, 0x40), (2, 2,
     65535)])] A0)) 4 [] (inbox (updBrg (fun z => { z with wctx := [⟨7, 9, 65535, 3, true⟩] }) (setInbox 1 [F (bd 16 [(0, 1, 0x40), (2, 2,
     65535)])] A0)) 1)).get (by decide +kernel)),
     brgId (((nextRequest (updBrg (fun z => { z with wctx := [⟨7, 9, 65535, 3, true⟩] }) (setInbox 1 [F (bd 16 [(0, 1, 0x40), (2, 2,
     65535)])] A0)) 4 [] (inbox (updBrg (fun z => { z with wctx := [⟨7, 9, 65535, 3, true⟩] }) (setInbox 1 [F (bd 16 [(0, 1, 0x40), (2, 2,
     65535)])] A0)) 1)).get (by decide +kernel))).bytes,
     ((ctxOf (updBrg (fun z => { z with wctx := [⟨7, 9, 65535, 3, true⟩] }) (setInbox 1 [F (bd 16 [(0, 1, 0x40), (2, 2,
     65535)])] A0)) (((nextRequest (updBrg (fun z => { z with wctx := [⟨7, 9, 65535, 3, true⟩] }) (setInbox 1 [F (bd 16 [(0, 1, 0x40), (2, 2,
     65535)])] A0)) 4 [] (inbox (updBrg (fun z => { z with wctx := [⟨7, 9, 65535, 3, true⟩] }) (setInbox 1 [F (bd 16 [(0, 1, 0x40), (2, 2,
     65535)])] A0)) 1)).get (by decide +kernel))).src (((nextRequest (updBrg (fun z => { z with wctx := [⟨7, 9, 65535, 3, true⟩] }) (setInbox 1 [F (bd 16 [(0,
     1, 0x40), (2, 2, 65535)])] A0)) 4 [] (inbox (updBrg (fun z => { z with wctx := [⟨7, 9, 65535, 3, true⟩] }) (setInbox 1 [F (bd 16 [(0, 1, 0x40),
     (2, 2, 65535)])] A0)) 1)).get (by decide +kernel))).tun).get (by decide +kernel)), by decide +kernel⟩,
   ⟨setInbox 1 [F (bd 16 [(0, 1, 0x40), (2, 2, 65535)])] A0, ((nextRequest (setInbox 1 [F (bd 16 [(0, 1, 0x40), (2, 2,
     65535)])] A0) 4 [] (inbox (setInbox 1 [F (bd 16 [(0, 1, 0x40), (2, 2, 65535)])] A0) 1)).get (by decide +kernel)),
     brgId (((nextRequest (setInbox 1 [F (bd 16 [(0, 1, 0x40), (2, 2, 65535)])] A0) 4 [] (inbox (setInbox 1 [F (bd 16 [(0, 1, 0x40), (2, 2,
     65535)])] A0) 1)).get (by decide +kernel))).bytes, by decide +kernel⟩,
   ⟨S0, o0, bd (4) [(0, 1, (63 : Nat))], 63, wTUN (window (S0) (63 : Nat)), by decide +kernel⟩,
   ⟨updBrg (fun z => { z with fences := [⟨5, 0, 3, true, o0⟩] }) W0, o0, bd (4) [(0, 1, (0 : Nat))], 0,
     wTUN (window (updBrg (fun z => { z with fences := [⟨5, 0, 3, true, o0⟩] }) W0) (0 : Nat)), by decide +kernel⟩,
   ⟨updBrg (fun z => { z with fences := [⟨9, 0, 3, true, o0⟩] }) (setInbox 1 [F (bd 20 [(0, 1, 0x50), (2, 2, 3), (4, 2, 4)])] State.reset),
     ((takeFrame 1 (fun f => brgKind f.bytes == 5) (updBrg (fun z => { z with fences := [⟨9, 0, 3, true, o0⟩] }) (setInbox 1 [F (bd 20 [(0, 1, 0x50),
     (2, 2, 3), (4, 2, 4)])] State.reset))).get (by decide +kernel)).1,
     ((takeFrame 1 (fun f => brgKind f.bytes == 5) (updBrg (fun z => { z with fences := [⟨9, 0, 3, true, o0⟩] }) (setInbox 1 [F (bd 20 [(0, 1, 0x50),
     (2, 2, 3), (4, 2, 4)])] State.reset))).get (by decide +kernel)).2, ⟨9, 0, 3, true, o0⟩, rfl, by decide +kernel⟩,
   ⟨updBrg (fun z => { z with fences := [⟨5, 0, 3, true, o0⟩] }) W0, 5, ⟨5, 0, 3, true, o0⟩, by decide +kernel⟩⟩

theorem test_hyps_BridgeTargetServesRequests :
    (∃ s : State, ∃ f : Frame, ∃ a : Nat, ∃ st : Nat, nextRequest s 2 [] (inbox s 1) = some f ∧ brgAddr f.bytes = a ∧
      apertureFails s f false a (brgLen f.bytes) = some st) ∧
    (∃ s : State, ∃ f : Frame, ∃ a : Nat, nextRequest s 2 [] (inbox s 1) = some f ∧ brgAddr f.bytes = a ∧
      apertureFails s f false a (brgLen f.bytes) = none ∧ a + brgLen f.bytes ≤ 0x100000000 ∧ s1Up s = true) ∧
    (∃ s : State, ∃ f : Frame, ∃ a : Nat, nextRequest s 2 [] (inbox s 1) = some f ∧ brgAddr f.bytes = a ∧
      apertureFails s f false a (brgLen f.bytes) = none ∧ a + brgLen f.bytes ≤ 0x100000000 ∧ s1Up s = false) ∧
    (∃ s : State, ∃ h, heldAt s (fun h => h.dom == 0x11) 0 = some h ∧ dcmServes s 4 = true ∧ h.wr = true) ∧
    (∃ s : State, ∃ h, heldAt s (fun h => h.dom == 0x11) 0 = some h ∧ dcmServes s 4 = true ∧ h.wr = false) ∧
    (∃ s : State, ∃ root : Bool, ∃ n : Nat, ∃ h : BrgHeld, ∃ data : List Byte, heldAt s (onPcie root) n = some h ∧ h.wr = false ∧ data.length = h.len) ∧
    (∃ s : State, ∃ root : Bool, ∃ n : Nat, ∃ h : BrgHeld, heldAt s (onPcie root) n = some h ∧ h.wr = false) ∧
    (∃ s : State, ∃ root : Bool, ∃ n : Nat, ∃ h : BrgHeld, heldAt s (onPcie root) n = some h ∧ h.wr = false ∧ root = false) ∧
    (∃ s : State, ∃ root : Bool, ∃ n : Nat, ∃ h : BrgHeld, heldAt s (onPcie root) n = some h ∧ h.wr = false ∧ root = true) ∧
    (∃ s : State, ∃ wr : Bool, ∃ addr : BitVec 64, ∃ len : BitVec 13, ∃ data : List Byte, ∃ n : Nat, tsServes s = true ∧
      rdB Reg.PCR.STAT.LINKUP s = true ∧ n = (if wr then data.length else len.toNat) ∧ 0 < n ∧ addr.toNat < 2 ^ 32 ∧ inRegion s 2 addr.toNat n = true ∧
      s1Up s = true ∧ wr = true) ∧
    (∃ s : State, ∃ wr : Bool, ∃ addr : BitVec 64, ∃ len : BitVec 13, ∃ data : List Byte, ∃ n : Nat, tsServes s = true ∧
      rdB Reg.PCR.STAT.LINKUP s = true ∧ n = (if wr then data.length else len.toNat) ∧ 0 < n ∧ addr.toNat < 2 ^ 32 ∧ inRegion s 2 addr.toNat n = true ∧
      s1Up s = true ∧ wr = false) ∧
    (∃ s : State, ∃ wr : Bool, ∃ addr : BitVec 64, ∃ len : BitVec 13, ∃ data : List Byte, ∃ n : Nat, tsServes s = true ∧
      rdB Reg.PCR.STAT.LINKUP s = true ∧ n = (if wr then data.length else len.toNat) ∧ 0 < n ∧ addr.toNat < 2 ^ 32 ∧ inRegion s 2 addr.toNat n = false) ∧
    (∃ s : State, ∃ wr : Bool, ∃ addr : BitVec 64, ∃ len : BitVec 13, ∃ data : List Byte, ∃ n : Nat, ∃ k, tsServes s = true ∧
      rdB Reg.PCR.STAT.LINKUP s = true ∧ n = (if wr then data.length else len.toNat) ∧ 0 < n ∧ wr = true ∧ n = 4 ∧ k < 16 ∧ addr.toNat = 2 ^ 32 + 4 * k) :=
  ⟨⟨setInbox 1 [F (bd 16 [(0, 1, 0x20), (2, 2, 65535), (4, 2, 4), (6, 5, 0xFFD)])] A0, ((nextRequest (setInbox 1 [F (bd 16 [(0, 1, 0x20), (2, 2,
     65535), (4, 2, 4), (6, 5, 0xFFD)])] A0) 2 [] (inbox (setInbox 1 [F (bd 16 [(0, 1, 0x20), (2, 2, 65535), (4, 2, 4), (6, 5,
     0xFFD)])] A0) 1)).get (by decide +kernel)), brgAddr (((nextRequest (setInbox 1 [F (bd 16 [(0, 1, 0x20), (2, 2, 65535), (4, 2, 4), (6, 5,
     0xFFD)])] A0) 2 [] (inbox (setInbox 1 [F (bd 16 [(0, 1, 0x20), (2, 2, 65535), (4, 2, 4), (6, 5, 0xFFD)])] A0) 1)).get (by decide +kernel))).bytes,
     ((apertureFails (setInbox 1 [F (bd 16 [(0, 1, 0x20), (2, 2, 65535), (4, 2, 4), (6, 5, 0xFFD)])] A0) (((nextRequest (setInbox 1 [F (bd 16 [(0, 1,
     0x20), (2, 2, 65535), (4, 2, 4), (6, 5, 0xFFD)])] A0) 2 [] (inbox (setInbox 1 [F (bd 16 [(0, 1, 0x20), (2, 2, 65535), (4, 2, 4), (6, 5,
     0xFFD)])] A0) 1)).get (by decide +kernel))) false (brgAddr (((nextRequest (setInbox 1 [F (bd 16 [(0, 1, 0x20), (2, 2, 65535), (4, 2, 4), (6, 5,
     0xFFD)])] A0) 2 [] (inbox (setInbox 1 [F (bd 16 [(0, 1, 0x20), (2, 2, 65535), (4, 2, 4), (6, 5,
     0xFFD)])] A0) 1)).get (by decide +kernel))).bytes) (brgLen (((nextRequest (setInbox 1 [F (bd 16 [(0, 1, 0x20), (2, 2, 65535), (4, 2, 4), (6, 5,
     0xFFD)])] A0) 2 [] (inbox (setInbox 1 [F (bd 16 [(0, 1, 0x20), (2, 2, 65535), (4, 2, 4), (6, 5,
     0xFFD)])] A0) 1)).get (by decide +kernel))).bytes)).get (by decide +kernel)), by decide +kernel⟩,
   ⟨setInbox 1 [F (bd 16 [(0, 1, 0x20), (2, 2, 65535), (4, 2, 4), (6, 5, 0xFFC)])] A0, ((nextRequest (setInbox 1 [F (bd 16 [(0, 1, 0x20), (2, 2,
     65535), (4, 2, 4), (6, 5, 0xFFC)])] A0) 2 [] (inbox (setInbox 1 [F (bd 16 [(0, 1, 0x20), (2, 2, 65535), (4, 2, 4), (6, 5,
     0xFFC)])] A0) 1)).get (by decide +kernel)), brgAddr (((nextRequest (setInbox 1 [F (bd 16 [(0, 1, 0x20), (2, 2, 65535), (4, 2, 4), (6, 5,
     0xFFC)])] A0) 2 [] (inbox (setInbox 1 [F (bd 16 [(0, 1, 0x20), (2, 2, 65535), (4, 2, 4), (6, 5, 0xFFC)])] A0) 1)).get (by decide +kernel))).bytes,
     by decide +kernel⟩,
   ⟨D 0x11 .quiesced (setInbox 1 [F (bd 16 [(0, 1, 0x20), (2, 2, 65535), (4, 2, 4), (6, 5, 0xFFC)])] A0),
     ((nextRequest (D 0x11 .quiesced (setInbox 1 [F (bd 16 [(0, 1, 0x20), (2, 2, 65535), (4, 2, 4), (6, 5,
     0xFFC)])] A0)) 2 [] (inbox (D 0x11 .quiesced (setInbox 1 [F (bd 16 [(0, 1, 0x20), (2, 2, 65535), (4, 2, 4), (6, 5,
     0xFFC)])] A0)) 1)).get (by decide +kernel)), brgAddr (((nextRequest (D 0x11 .quiesced (setInbox 1 [F (bd 16 [(0, 1, 0x20), (2, 2, 65535), (4, 2,
     4), (6, 5, 0xFFC)])] A0)) 2 [] (inbox (D 0x11 .quiesced (setInbox 1 [F (bd 16 [(0, 1, 0x20), (2, 2, 65535), (4, 2, 4), (6, 5,
     0xFFC)])] A0)) 1)).get (by decide +kernel))).bytes, by decide +kernel⟩,
   ⟨updBrg (fun z => { z with held := [bh true 0x11 0x8] }) A0,
     ((heldAt (updBrg (fun z => { z with held := [bh true 0x11 0x8] }) A0) (fun h => h.dom == 0x11) 0).get (by decide +kernel)), by decide +kernel⟩,
   ⟨updBrg (fun z => { z with held := [bh false 0x11 0x8] }) A0,
     ((heldAt (updBrg (fun z => { z with held := [bh false 0x11 0x8] }) A0) (fun h => h.dom == 0x11) 0).get (by decide +kernel)), by decide +kernel⟩,
   ⟨updBrg (fun z => { z with held := [bh true 0x14 0x8000000000, bh false 0x14 0x8000000000] }) Ts, false, 1,
     ((heldAt (updBrg (fun z => { z with held := [bh true 0x14 0x8000000000, bh false 0x14 0x8000000000] }) Ts) (onPcie (false)) (1 : Nat)).get (by decide +kernel)),
     [1, 2, 3, 4], by decide +kernel⟩,
   ⟨updBrg (fun z => { z with held := [bh true 0x14 0x8000000000, bh false 0x14 0x8000000000] }) Ts, false, 1,
     ((heldAt (updBrg (fun z => { z with held := [bh true 0x14 0x8000000000, bh false 0x14 0x8000000000] }) Ts) (onPcie (false)) (1 : Nat)).get (by decide +kernel)),
     by decide +kernel⟩,
   ⟨updBrg (fun z => { z with held := [bh true 0x14 0x8000000000, bh false 0x14 0x8000000000] }) Ts, false, 1,
     ((heldAt (updBrg (fun z => { z with held := [bh true 0x14 0x8000000000, bh false 0x14 0x8000000000] }) Ts) (onPcie (false)) (1 : Nat)).get (by decide +kernel)),
     by decide +kernel⟩,
   ⟨updBrg (fun z => { z with held := [bh false 0x14 0x1000000000] }) Ts, true, 0,
     ((heldAt (updBrg (fun z => { z with held := [bh false 0x14 0x1000000000] }) Ts) (onPcie (true)) (0 : Nat)).get (by decide +kernel)),
     by decide +kernel⟩,
   ⟨R [(Reg.PCR.STAT.LINKUP, 1)] (D 0x11 .inService (R [(Reg.DCM.RGN.CUR 2, 0), (Reg.DCM.RGN.CUR 3, 1)] Ts)), true, 0xFFC, 0, [1, 2, 3, 4],
     (if (true) then ([1, 2, 3, 4]).length else (0 : BitVec 13).toNat), by decide +kernel⟩,
   ⟨R [(Reg.PCR.STAT.LINKUP, 1)] (D 0x11 .inService (R [(Reg.DCM.RGN.CUR 2, 0), (Reg.DCM.RGN.CUR 3, 1)] Ts)), false, 0xFFC, 4, ([] : List Byte),
     (if (false) then (([] : List Byte)).length else (4 : BitVec 13).toNat), by decide +kernel⟩,
   ⟨R [(Reg.PCR.STAT.LINKUP, 1)] (Ts), true, 0xFFFFFFFF, 0, [1], (if (true) then ([1]).length else (0 : BitVec 13).toNat), by decide +kernel⟩,
   ⟨R [(Reg.PCR.STAT.LINKUP, 1)] (Ts), true, 0x10000003C, 0, [5, 0, 0, 0], (if (true) then ([5, 0, 0, 0]).length else (0 : BitVec 13).toNat), 15,
     by decide +kernel⟩⟩

theorem test_hyps_HostLinksAndInterface :
    (∃ s : State, rdB Reg.PCE.STAT.LINKUP s = true) ∧
    (∃ s : State, rdB Reg.PCE.STAT.LINKUP s = false) ∧
    (∃ s : State, tsLives s = true) ∧
    (∃ s : State, tsLives s = false) ∧
    (∃ s : State, rdB Reg.PCR.STAT.LINKUP s = true) ∧
    (∃ s : State, rdB Reg.PCR.STAT.LINKUP s = false) ∧
    (∃ s : State, ∃ gen : Fin 4, ∃ width : Fin 3, present s 4 = true ∧ domSt s 0x14 = .inService ∧ rdB Reg.PCE.CFG.EN s = true ∧
      gen.val ≤ genMax s Reg.PCE.CFG.GEN_MAX ∧ width.val ≤ rd Reg.PCE.CFG.WIDTH_MAX s) ∧
    (∃ s : State, ∃ gen : Fin 4, ∃ width : Fin 3, present s 4 = true ∧ domSt s 0x14 = .inService ∧ rdB Reg.PCR.CFG.EN s = true ∧
      rdB Reg.PCR.CFG.PERST s = false ∧ gen.val ≤ genMax s Reg.PCR.CFG.GEN_MAX ∧ width.val ≤ rd Reg.PCR.CFG.WIDTH_MAX s) ∧
    (∃ s : State, present s 4 = true ∧ domSt s 0x14 = .inService ∧ rdB Reg.PCE.CFG.EN s = false) ∧
    (∃ s : State, present s 4 = true ∧ domSt s 0x14 = .inService ∧ (rdB Reg.PCR.CFG.EN s = false ∨ rdB Reg.PCR.CFG.PERST s = true)) ∧
    (∃ s : State, rdB Reg.PCE.MBOX_CTL.MEN s = false) ∧
    (∃ s : State, ∃ n : BitVec 16, tsLives s = true ∧ rdB Reg.PCE.MBOX_CTL.MEN s = true ∧ (cfree s = false ∨ 8216 < n.toNat)) ∧
    (∃ s : State, ∃ n : BitVec 16, tsLives s = true ∧ rdB Reg.PCE.MBOX_CTL.MEN s = true ∧ cfree s = true ∧ n.toNat < 16) ∧
    (∃ s : State, ∃ n : BitVec 16, tsLives s = true ∧ rdB Reg.PCE.MBOX_CTL.MEN s = true ∧ cfree s = true ∧ 16 ≤ n.toNat ∧ n.toNat ≤ 8216) ∧
    (∃ s : State, tsLives s = true ∧ (∀ r ∈ s.cmd.replies, r.att ≠ .mbox)) ∧
    (∃ s : State, ∃ l, ∃ r, ∃ rest, tsLives s = true ∧ s.cmd.replies = l ++ r :: rest ∧ (∀ r' ∈ l, r'.att ≠ .mbox) ∧ r.att = .mbox) ∧
    (∃ s : State, ∃ n : BitVec 14, tsLives s = true ∧ rdB Reg.PCE.MBOX_CTL.MEN s = true ∧ (domSt s 0x14 ≠ .inService ∨ txFree s = false ∨ n = 0)) ∧
    (∃ s : State, ∃ n : BitVec 14, ∃ tun : BitVec 14, tsLives s = true ∧ rdB Reg.PCE.MBOX_CTL.MEN s = true ∧ domSt s 0x14 = .inService ∧
      txFree s = true ∧ n ≠ 0 ∧ originEntry s 4 tun.toNat = none) ∧
    (∃ s : State, ∃ n : BitVec 14, ∃ tun : BitVec 14, ∃ e, tsLives s = true ∧ rdB Reg.PCE.MBOX_CTL.MEN s = true ∧ domSt s 0x14 = .inService ∧
      txFree s = true ∧ n ≠ 0 ∧ originEntry s 4 tun.toNat = some e ∧ (orgMAXLEN e < n.toNat ∨ 14848 < n.toNat)) ∧
    (∃ s : State, ∃ n : BitVec 14, ∃ tun : BitVec 14, ∃ e, ∃ u, tsLives s = true ∧ rdB Reg.PCE.MBOX_CTL.MEN s = true ∧ domSt s 0x14 = .inService ∧
      txFree s = true ∧ n ≠ 0 ∧ originEntry s 4 tun.toNat = some e ∧ n.toNat ≤ orgMAXLEN e ∧ n.toNat ≤ 14848 ∧
      u = originate 4 tun.toNat (Tab.getMany deepDefault s.hostIf.txBuf 0 n.toNat) s) ∧
    (∃ s : State, tsLives s = true ∧ s.hostIf.held = none) ∧
    (∃ s : State, ∃ q : Fin 16, ∃ ci : BitVec 16, ∃ f, tsLives s = true ∧ s.hostIf.held = some f ∧ f.ctx % 16 = q.val ∧ rqEn s q = true ∧
      rdB Reg.PCE.STAT.BME s = true ∧ rqPi s q < 65536 ∧ (rqPi s q + 65536 - ci.toNat) % 65536 = rqSize s q) ∧
    (∃ s : State, ∃ q : Fin 16, ∃ ci : BitVec 16, ∃ f, tsLives s = true ∧ s.hostIf.held = some f ∧ f.ctx % 16 = q.val ∧ rqEn s q = true ∧
      rdB Reg.PCE.STAT.BME s = true ∧ rqPi s q < 65536 ∧ (rqPi s q + 65536 - ci.toNat) % 65536 ≠ rqSize s q) :=
  ⟨⟨R [(Reg.PCE.STAT.LINKUP, 1)] (Ts), by decide +kernel⟩,
   ⟨R [(Reg.PCE.STAT.LINKUP, 0)] (Ts), by decide +kernel⟩,
   ⟨Ts, by decide +kernel⟩,
   ⟨S0, by decide +kernel⟩,
   ⟨R [(Reg.PCR.STAT.LINKUP, 1)] (Ts), by decide +kernel⟩,
   ⟨R [(Reg.PCR.STAT.LINKUP, 0)] (Ts), by decide +kernel⟩,
   ⟨R [(Reg.PCE.CFG.GEN_MAX, 3), (Reg.PCE.CFG.WIDTH_MAX, 2), (Reg.PCE.CFG.EN, 1)] (Ts), 3, 2, by decide +kernel⟩,
   ⟨R [(Reg.PCR.CFG.GEN_MAX, 3), (Reg.PCR.CFG.WIDTH_MAX, 2), (Reg.PCR.CFG.EN, 1), (Reg.PCR.CFG.PERST, 0)] (Ts), 3, 2, by decide +kernel⟩,
   ⟨R [(Reg.PCE.CFG.EN, 0)] (Ts), by decide +kernel⟩,
   ⟨R [(Reg.PCR.CFG.EN, 0)] (Ts), by decide +kernel⟩,
   ⟨R [(Reg.PCE.MBOX_CTL.MEN, 0)] (Ts), by decide +kernel⟩,
   ⟨R [(Reg.PCE.MBOX_CTL.MEN, 1)] (Ts), 0xFFFF, by decide +kernel⟩,
   ⟨R [(Reg.PCE.MBOX_CTL.MEN, 1)] (Ts), 15, by decide +kernel⟩,
   ⟨R [(Reg.PCE.MBOX_CTL.MEN, 1)] (Ts), 8216, by decide +kernel⟩,
   ⟨updHost (fun z => { z with rsp := some ⟨.mbox, .host, 1, 0, [], true⟩ }) Ts, by decide +kernel⟩,
   ⟨updCmd (fun z => { z with replies := [⟨.usb, .svc, 1, 0, [], true⟩, ⟨.mbox, .host, 1, 0, [], true⟩, ⟨.mbox, .host, 2, 0, [], true⟩] }) Ts,
     [⟨.usb, .svc, 1, 0, [], true⟩], ⟨.mbox, .host, 1, 0, [], true⟩, [⟨.mbox, .host, 2, 0, [], true⟩], by decide +kernel⟩,
   ⟨R [(Reg.PCE.MBOX_CTL.MEN, 1)] (Ts), 0, by decide +kernel⟩,
   ⟨R [(Reg.PCE.MBOX_CTL.MEN, 1)] (Ts), 1, 0, by decide +kernel⟩,
   ⟨R [(Reg.PCE.MBOX_CTL.MEN, 1)] (setMapper 4 [(9, 2 ^ 63 + 4 * 2 ^ 60 + 3)] Ts), 14849, 9, ((originEntry (R [(Reg.PCE.MBOX_CTL.MEN,
     1)] (setMapper 4 [(9, 2 ^ 63 + 4 * 2 ^ 60 + 3)] Ts)) 4 (9 : BitVec 14).toNat).get (by decide +kernel)), by decide +kernel⟩,
   ⟨R [(Reg.PCE.MBOX_CTL.MEN, 1)] (setMapper 4 [(9, 2 ^ 63 + 4 * 2 ^ 60 + 3)] Ts), 64, 9, ((originEntry (R [(Reg.PCE.MBOX_CTL.MEN,
     1)] (setMapper 4 [(9, 2 ^ 63 + 4 * 2 ^ 60 + 3)] Ts)) 4 (9 : BitVec 14).toNat).get (by decide +kernel)),
     originate 4 (9 : BitVec 14).toNat (Tab.getMany deepDefault (R [(Reg.PCE.MBOX_CTL.MEN, 1)] (setMapper 4 [(9,
     2 ^ 63 + 4 * 2 ^ 60 + 3)] Ts)).hostIf.txBuf 0 (64 : BitVec 14).toNat) (R [(Reg.PCE.MBOX_CTL.MEN, 1)] (setMapper 4 [(9,
     2 ^ 63 + 4 * 2 ^ 60 + 3)] Ts)), by decide +kernel⟩,
   ⟨Ts, by decide +kernel⟩,
   ⟨R [(Reg.PCE.STAT.BME, 1), (Reg.PCE.STAT.BME,
     1)] (updHost (fun z => { z with held := some { f0 with ctx := 0xFF }, words := [(0x1F0, 0x11)] }) Ts), 15, 0xFFFE, (((R [(Reg.PCE.STAT.BME, 1),
     (Reg.PCE.STAT.BME,
     1)] (updHost (fun z => { z with held := some { f0 with ctx := 0xFF }, words := [(0x1F0, 0x11)] }) Ts)).hostIf.held).get (by decide +kernel)),
     by decide +kernel⟩,
   ⟨R [(Reg.PCE.STAT.BME, 1), (Reg.PCE.STAT.BME,
     1)] (updHost (fun z => { z with held := some { f0 with ctx := 0xFF }, words := [(0x1F0, 0x11)] }) Ts), 15, 0xFFFF, (((R [(Reg.PCE.STAT.BME, 1),
     (Reg.PCE.STAT.BME,
     1)] (updHost (fun z => { z with held := some { f0 with ctx := 0xFF }, words := [(0x1F0, 0x11)] }) Ts)).hostIf.held).get (by decide +kernel)),
     by decide +kernel⟩⟩

theorem test_hyps_LineTimeIsKept :
    (∃ p : LPort, ∃ strat : BitVec 8, ∃ s : State, (rdB Reg.TIM.CFG.EN s = false ∨ parentPort s ≠ some p.val ∨ strat = 0xFF)) ∧
    (∃ p : LPort, ∃ strat : BitVec 8, ∃ ns : BitVec 64, ∃ frac : BitVec 16, ∃ s : State, ∃ r : Nat, ∃ th : Nat, ∃ off : Int,
      off = timeSince (ns.toNat * 2 ^ 32 + frac.toNat * 2 ^ 16) (portNow s p) - ((r : Int) - 2 * tenths (tPcs s p) + asymmetry s p) / 2 ∧
      rdB Reg.TIM.CFG.EN s = true ∧ parentPort s = some p.val ∧ strat ≠ 0xFF ∧ (lp s p).time.rtt = some r ∧
      th = max 1 (rd Reg.TIM.CFG.STEP_TH s) * 100 * 2 ^ 32) ∧
    (∃ s : State, (rd Reg.TIM.STAT.QSTATE s = 1 ∨ rd Reg.TIM.STAT.QSTATE s = 2)) ∧
    (∃ s : State, rd Reg.TIM.STAT.QSTATE s ≠ 1 ∧ rd Reg.TIM.STAT.QSTATE s ≠ 2) ∧
    (∃ s : State, accStat s Reg.TIM.CFG.word.addr = ST_OK) ∧
    (∃ s : State, ∃ pin : Fin 8, ∃ r : Nat, ∃ off : Int, rd Reg.TIM.STAT.QSTATE s = 5 ∧ rd (Reg.TRG.PCFG.MODE pin.val) s = 3 ∧
      r = s.lt % (1000000000 * 2 ^ 32) ∧ off = (if 2 * r < 1000000000 * 2 ^ 32 then (r : Int) else (r : Int) - 1000000000 * 2 ^ 32)) ∧
    (∃ s : State, ∃ pin : Fin 8, (rd Reg.TIM.STAT.QSTATE s ≠ 5 ∨ rd (Reg.TRG.PCFG.MODE pin.val) s ≠ 3)) ∧
    (∃ p : LPort, ∃ s : State, exchanges s p = true) ∧
    (∃ p : LPort, ∃ s : State, exchanges s p = false) ∧
    (∃ p : LPort, ∃ s : State, ∃ g : BitVec 8, ∃ turn : BitVec 40, ∃ v : Int, rdB Reg.TIM.CFG.EN s = true ∧
      (lp s p).time.outstanding = some g.toNat ∧
      v = timeSince (lp s p).time.dreqSent (portNow s p) - (turn.toNat : Int) * 2 ^ 24 + 2 * (tenths (tPcs s p) : Int)) ∧
    (∃ p : LPort, ∃ s : State, ∃ g : BitVec 8, (lp s p).time.outstanding ≠ some g.toNat) ∧
    (∃ p : LPort, ∃ s : State, (lp s p).time.outstanding ≠ none) ∧
    (∃ p : LPort, ∃ s : State, (lp s p).time.outstanding = none) ∧
    (∃ s : State, ∃ e, ∃ fn, rd Reg.TIM.STAT.QSTATE s = 5 ∧ originEntry s 0 (rd Reg.TIM.ANN.TUN s) = some e ∧ orgTYP e = 7 ∧ orgOSHP e = 0 ∧
      Tab.get zeroN s.tuns.fn (rd Reg.TIM.ANN.TUN s) = fn) ∧
    (∃ s : State, (rd Reg.TIM.STAT.QSTATE s ≠ 5 ∨ rd Reg.TIM.ANN.TUN s = 0)) ∧
    (∃ s : State, ∃ f, ∃ u, takeFrame 3 (isKind 7 1) s = some (f, u) ∧ rd Reg.TIM.STAT.QSTATE s ≠ 5) ∧
    (∃ s : State, ∃ f, ∃ u, takeFrame 3 (isKind 7 1) s = some (f, u) ∧ rd Reg.TIM.STAT.QSTATE s = 5) ∧
    (∃ s : State, accStat s Reg.TIM.NOW_HI.word.addr = ST_OK ∧ s.lt < 2 ^ 96) ∧
    (∃ s : State, ∃ o : Origin, ∃ body : List Byte, mayDispatch s o = true ∧ body.length = 0) ∧
    (∃ s : State, ∃ o : Origin, ∃ body : List Byte, mayDispatch s o = true ∧ body.length = 12 ∧ rd Reg.TIM.STAT.QSTATE s ≠ 5) ∧
    (∃ s : State, ∃ o : Origin, ∃ body : List Byte, mayDispatch s o = true ∧ body.length = 12 ∧ rd Reg.TIM.STAT.QSTATE s = 5 ∧
      zeroAt body 1 3 = true ∧ field body 0 1 = 0 ∧ field body 4 8 < 2 ^ 64) ∧
    (∃ s : State, ∃ o : Origin, ∃ body : List Byte, mayDispatch s o = true ∧ body.length = 12 ∧ rd Reg.TIM.STAT.QSTATE s = 5 ∧
      zeroAt body 1 3 = true ∧ field body 0 1 = 1) ∧
    (∃ s : State, ∃ o : Origin, ∃ body : List Byte, mayDispatch s o = true ∧ body.length = 12 ∧ rd Reg.TIM.STAT.QSTATE s = 5 ∧
      zeroAt body 1 3 = true ∧ 1 < field body 0 1) :=
  ⟨⟨3, 0xFE, State.reset, by decide +kernel⟩,
   ⟨3, 0xFE, 5, 0xFFFF, R [(Reg.TIM.CFG.PSEL, 3), (Reg.HLP.STAT.LSTATE 3, 3), (Reg.TIM.CFG.EN,
     1)] (L 3 (fun z => { z with time := { z.time with rtt := some 100 } }) State.reset), (((lp (R [(Reg.TIM.CFG.PSEL, 3), (Reg.HLP.STAT.LSTATE 3, 3),
     (Reg.TIM.CFG.EN,
     1)] (L 3 (fun z => { z with time := { z.time with rtt := some 100 } }) State.reset)) (3 : LPort)).time.rtt).get (by decide +kernel)),
     max 1 (rd Reg.TIM.CFG.STEP_TH (R [(Reg.TIM.CFG.PSEL, 3), (Reg.HLP.STAT.LSTATE 3, 3), (Reg.TIM.CFG.EN,
     1)] (L 3 (fun z => { z with time := { z.time with rtt := some 100 } }) State.reset))) * 100 * 2 ^ 32,
     timeSince ((5 : BitVec 64).toNat * 2 ^ 32 + (0xFFFF : BitVec 16).toNat * 2 ^ 16) (portNow (R [(Reg.TIM.CFG.PSEL, 3), (Reg.HLP.STAT.LSTATE 3, 3),
     (Reg.TIM.CFG.EN,
     1)] (L 3 (fun z => { z with time := { z.time with rtt := some 100 } }) State.reset)) (3 : LPort)) - ((((((lp (R [(Reg.TIM.CFG.PSEL, 3),
     (Reg.HLP.STAT.LSTATE 3, 3), (Reg.TIM.CFG.EN,
     1)] (L 3 (fun z => { z with time := { z.time with rtt := some 100 } }) State.reset)) (3 : LPort)).time.rtt).get (by decide +kernel))) : Int) - 2 * tenths (tPcs (R [(Reg.TIM.CFG.PSEL,
     3), (Reg.HLP.STAT.LSTATE 3, 3), (Reg.TIM.CFG.EN,
     1)] (L 3 (fun z => { z with time := { z.time with rtt := some 100 } }) State.reset)) (3 : LPort)) + asymmetry (R [(Reg.TIM.CFG.PSEL, 3),
     (Reg.HLP.STAT.LSTATE 3, 3), (Reg.TIM.CFG.EN,
     1)] (L 3 (fun z => { z with time := { z.time with rtt := some 100 } }) State.reset)) (3 : LPort)) / 2, rfl, by decide +kernel⟩,
   ⟨R [(Reg.TIM.STAT.QSTATE, 2)] (State.reset), by decide +kernel⟩,
   ⟨R [(Reg.TIM.STAT.QSTATE, 5)] (State.reset), by decide +kernel⟩,
   ⟨State.reset, by decide +kernel⟩,
   ⟨R [(Reg.TIM.STAT.QSTATE, 5), (Reg.TRG.PCFG.MODE (7 : Fin 8).val, 3)] ({ State.reset with lt := 600000000 * 2 ^ 32 }), 7,
     (R [(Reg.TIM.STAT.QSTATE, 5), (Reg.TRG.PCFG.MODE (7 : Fin 8).val, 3)] ({ State.reset with lt := 600000000 * 2 ^ 32 })).lt % (1000000000 * 2 ^ 32),
     (if 2 * ((R [(Reg.TIM.STAT.QSTATE, 5), (Reg.TRG.PCFG.MODE (7 : Fin 8).val,
     3)] ({ State.reset with lt := 600000000 * 2 ^ 32 })).lt % (1000000000 * 2 ^ 32)) < 1000000000 * 2 ^ 32 then (((R [(Reg.TIM.STAT.QSTATE, 5),
     (Reg.TRG.PCFG.MODE (7 : Fin 8).val,
     3)] ({ State.reset with lt := 600000000 * 2 ^ 32 })).lt % (1000000000 * 2 ^ 32)) : Int) else (((R [(Reg.TIM.STAT.QSTATE, 5),
     (Reg.TRG.PCFG.MODE (7 : Fin 8).val,
     3)] ({ State.reset with lt := 600000000 * 2 ^ 32 })).lt % (1000000000 * 2 ^ 32)) : Int) - 1000000000 * 2 ^ 32), by decide +kernel⟩,
   ⟨State.reset, 7, by decide +kernel⟩,
   ⟨3, R [(Reg.TIM.CFG.EN, 1), (Reg.HLP.STAT.LSTATE 3, 3)] (State.reset), by decide +kernel⟩,
   ⟨3, State.reset, by decide +kernel⟩,
   ⟨3, R [(Reg.TIM.CFG.EN, 1), (Reg.HLP.STAT.LSTATE 3, 3), (Reg.TIM.CFG.EN,
     1)] (L 3 (fun z => { z with time := { z.time with outstanding := some 255 } }) State.reset), 255, 7, timeSince (lp (R [(Reg.TIM.CFG.EN, 1),
     (Reg.HLP.STAT.LSTATE 3, 3), (Reg.TIM.CFG.EN,
     1)] (L 3 (fun z => { z with time := { z.time with outstanding := some 255 } }) State.reset)) (3 : LPort)).time.dreqSent (portNow (R [(Reg.TIM.CFG.EN,
     1), (Reg.HLP.STAT.LSTATE 3, 3), (Reg.TIM.CFG.EN,
     1)] (L 3 (fun z => { z with time := { z.time with outstanding := some 255 } }) State.reset)) (3 : LPort)) - ((7 : BitVec 40).toNat : Int) * 2 ^ 24 + 2 * (tenths (tPcs (R [(Reg.TIM.CFG.EN,
     1), (Reg.HLP.STAT.LSTATE 3, 3), (Reg.TIM.CFG.EN,
     1)] (L 3 (fun z => { z with time := { z.time with outstanding := some 255 } }) State.reset)) (3 : LPort)) : Int), by decide +kernel⟩,
   ⟨3, R [(Reg.TIM.CFG.EN, 1), (Reg.HLP.STAT.LSTATE 3, 3)] (State.reset), 255, by decide +kernel⟩,
   ⟨3, R [(Reg.TIM.CFG.EN, 1), (Reg.HLP.STAT.LSTATE 3, 3)] (L 3 (fun z => { z with time := { z.time with outstanding := some 255 } }) State.reset),
     by decide +kernel⟩,
   ⟨3, R [(Reg.TIM.CFG.EN, 1), (Reg.HLP.STAT.LSTATE 3, 3)] (State.reset), by decide +kernel⟩,
   ⟨R [(Reg.TIM.ANN.TUN, 0x3FFF), (Reg.TIM.STAT.QSTATE, 5)] (E 2 0x3FFF 0x8700004000000000), ((originEntry (R [(Reg.TIM.ANN.TUN, 0x3FFF),
     (Reg.TIM.STAT.QSTATE, 5)] (E 2 0x3FFF 0x8700004000000000)) 0 (rd Reg.TIM.ANN.TUN (R [(Reg.TIM.ANN.TUN, 0x3FFF), (Reg.TIM.STAT.QSTATE,
     5)] (E 2 0x3FFF 0x8700004000000000)))).get (by decide +kernel)), Tab.get zeroN (R [(Reg.TIM.ANN.TUN, 0x3FFF), (Reg.TIM.STAT.QSTATE,
     5)] (E 2 0x3FFF 0x8700004000000000)).tuns.fn (rd Reg.TIM.ANN.TUN (R [(Reg.TIM.ANN.TUN, 0x3FFF), (Reg.TIM.STAT.QSTATE,
     5)] (E 2 0x3FFF 0x8700004000000000))), by decide +kernel⟩,
   ⟨R [(Reg.TIM.CFG.EN, 1), (Reg.HLP.STAT.LSTATE 3, 3)] (State.reset), by decide +kernel⟩,
   ⟨setInbox 3 [{ (F (bd 16 [(2, 2, 1), (4, 2, 37)])) with typ := 7 }] State.reset,
     ((takeFrame 3 (isKind 7 1) (setInbox 3 [{ (F (bd 16 [(2, 2, 1), (4, 2, 37)])) with typ := 7 }] State.reset)).get (by decide +kernel)).1,
     ((takeFrame 3 (isKind 7 1) (setInbox 3 [{ (F (bd 16 [(2, 2, 1), (4, 2, 37)])) with typ := 7 }] State.reset)).get (by decide +kernel)).2, rfl,
     by decide +kernel⟩,
   ⟨R [(Reg.TIM.STAT.QSTATE, 5)] (setInbox 3 [{ (F (bd 16 [(2, 2, 1), (4, 2, 37)])) with typ := 7 }] State.reset),
     ((takeFrame 3 (isKind 7 1) (R [(Reg.TIM.STAT.QSTATE,
     5)] (setInbox 3 [{ (F (bd 16 [(2, 2, 1), (4, 2, 37)])) with typ := 7 }] State.reset))).get (by decide +kernel)).1,
     ((takeFrame 3 (isKind 7 1) (R [(Reg.TIM.STAT.QSTATE,
     5)] (setInbox 3 [{ (F (bd 16 [(2, 2, 1), (4, 2, 37)])) with typ := 7 }] State.reset))).get (by decide +kernel)).2, rfl, by decide +kernel⟩,
   ⟨{ State.reset with lt := 2 ^ 96 - 1 }, by decide +kernel⟩,
   ⟨{ State.reset with lt := 2 ^ 96 - 1 }, o0, bd (0) [], by decide +kernel⟩,
   ⟨{ State.reset with lt := 2 ^ 96 - 1 }, o0, bd (12) [], by decide +kernel⟩,
   ⟨R [(Reg.TIM.STAT.QSTATE, 5)] ({ State.reset with lt := 2 ^ 96 - 1 }), o0, bd (12) [(0, 1, 0), (4, 8, 0xFFFFFFFFFFFFFFFF)], by decide +kernel⟩,
   ⟨R [(Reg.TIM.STAT.QSTATE, 5)] ({ State.reset with lt := 2 ^ 96 - 1 }), o0, bd (12) [(0, 1, 1), (0, 1, 1), (4, 8, 0xFFFFFFFFFFFFFFFF)],
     by decide +kernel⟩,
   ⟨R [(Reg.TIM.STAT.QSTATE, 5)] ({ State.reset with lt := 2 ^ 96 - 1 }), o0, bd (12) [(0, 1, 2)], by decide +kernel⟩⟩

theorem test_hyps_TriggersPulsesAndCaptures :
    (∃ s : State, ∃ req : EntryPoint, ∃ k : Nat, ∃ at' : Nat, ∃ width : Nat, ∃ period : Nat, ∃ cnt : Nat, accStat s Reg.TRG.ACTL.word.addr = ST_OK ∧
      rd (Reg.TRG.ASEL.PIN.mine req) s = k ∧ at' = rd (Reg.TRG.AT_HI.word.mine req) s * 2 ^ 32 + rd (Reg.TRG.AT_LO.word.mine req) s ∧
      width = rd (Reg.TRG.AWID.word.mine req) s ∧ period = rd (Reg.TRG.APER.word.mine req) s ∧ cnt = rd (Reg.TRG.ACTL.COUNT.mine req) s ∧
      rd (Reg.TRG.PCFG.MODE k) s = 1 ∧ 0 < width ∧ (cnt = 1 ∨ width < period) ∧ (trigPin s k).entries.length < 15 ∧ step4 s + 400 ≤ at') ∧
    (∃ s : State, ∃ req : EntryPoint, ∃ k : Nat, ∃ at' : Nat, ∃ width : Nat, ∃ period : Nat, ∃ cnt : Nat, accStat s Reg.TRG.ACTL.word.addr = ST_OK ∧
      rd (Reg.TRG.ASEL.PIN.mine req) s = k ∧ at' = rd (Reg.TRG.AT_HI.word.mine req) s * 2 ^ 32 + rd (Reg.TRG.AT_LO.word.mine req) s ∧
      width = rd (Reg.TRG.AWID.word.mine req) s ∧ period = rd (Reg.TRG.APER.word.mine req) s ∧ cnt = rd (Reg.TRG.ACTL.COUNT.mine req) s ∧
      rd (Reg.TRG.PCFG.MODE k) s = 1 ∧ 0 < width ∧ cnt = 1 ∧ (trigPin s k).entries.length < 15 ∧ at' < step4 s + 400 ∧
      rdB (Reg.TRG.PCFG.LATEFIRE k) s = false) ∧
    (∃ s : State, ∃ req : EntryPoint, ∃ k : Nat, ∃ at' : Nat, ∃ width : Nat, ∃ period : Nat, ∃ cnt : Nat, accStat s Reg.TRG.ACTL.word.addr = ST_OK ∧
      rd (Reg.TRG.ASEL.PIN.mine req) s = k ∧ at' = rd (Reg.TRG.AT_HI.word.mine req) s * 2 ^ 32 + rd (Reg.TRG.AT_LO.word.mine req) s ∧
      width = rd (Reg.TRG.AWID.word.mine req) s ∧ period = rd (Reg.TRG.APER.word.mine req) s ∧ cnt = rd (Reg.TRG.ACTL.COUNT.mine req) s ∧
      rd (Reg.TRG.PCFG.MODE k) s = 1 ∧ 0 < width ∧ cnt = 1 ∧ (trigPin s k).entries.length < 15 ∧ at' < step4 s + 400 ∧
      rdB (Reg.TRG.PCFG.LATEFIRE k) s = true) ∧
    (∃ s : State, ∃ req : EntryPoint, ∃ k : Nat, ∃ at' : Nat, ∃ width : Nat, ∃ period : Nat, ∃ cnt : Nat, accStat s Reg.TRG.ACTL.word.addr = ST_OK ∧
      rd (Reg.TRG.ASEL.PIN.mine req) s = k ∧ at' = rd (Reg.TRG.AT_HI.word.mine req) s * 2 ^ 32 + rd (Reg.TRG.AT_LO.word.mine req) s ∧
      width = rd (Reg.TRG.AWID.word.mine req) s ∧ period = rd (Reg.TRG.APER.word.mine req) s ∧ cnt = rd (Reg.TRG.ACTL.COUNT.mine req) s ∧
      rd (Reg.TRG.PCFG.MODE k) s = 1 ∧ 0 < width ∧ (cnt = 1 ∨ width < period) ∧ 15 ≤ (trigPin s k).entries.length) ∧
    (∃ s : State, ∃ req : EntryPoint, ∃ k : Nat, ∃ at' : Nat, ∃ width : Nat, ∃ period : Nat, ∃ cnt : Nat, accStat s Reg.TRG.ACTL.word.addr = ST_OK ∧
      rd (Reg.TRG.ASEL.PIN.mine req) s = k ∧ at' = rd (Reg.TRG.AT_HI.word.mine req) s * 2 ^ 32 + rd (Reg.TRG.AT_LO.word.mine req) s ∧
      width = rd (Reg.TRG.AWID.word.mine req) s ∧ period = rd (Reg.TRG.APER.word.mine req) s ∧ cnt = rd (Reg.TRG.ACTL.COUNT.mine req) s ∧
      (rd (Reg.TRG.PCFG.MODE k) s ≠ 1 ∨ width = 0 ∨ (cnt ≠ 1 ∧ period ≤ width))) ∧
    (∃ s : State, ∃ req : EntryPoint, ∃ k : Nat, ∃ at' : Nat, ∃ width : Nat, ∃ period : Nat, ∃ cnt : Nat, accStat s Reg.TRG.ACTL.word.addr = ST_OK ∧
      rd (Reg.TRG.ASEL.PIN.mine req) s = k ∧ at' = rd (Reg.TRG.AT_HI.word.mine req) s * 2 ^ 32 + rd (Reg.TRG.AT_LO.word.mine req) s ∧
      width = rd (Reg.TRG.AWID.word.mine req) s ∧ period = rd (Reg.TRG.APER.word.mine req) s ∧ cnt = rd (Reg.TRG.ACTL.COUNT.mine req) s) ∧
    (∃ s : State, ∃ f, ∃ u, ∃ k, ∃ at', ∃ w, takeFrame 3 (isKind 8 1) s = some (f, u) ∧ field f.bytes 4 1 = 1 ∧ f.bytes.length = 28 ∧
      field f.bytes 8 1 = k ∧ k < 8 ∧ field f.bytes 9 1 = 0 ∧ field f.bytes 10 2 = 1 ∧ field f.bytes 12 8 = at' ∧ field f.bytes 20 4 = w ∧
      rd (Reg.TRG.PCFG.MODE k) s = 1 ∧ 0 < w ∧ (trigPin s k).entries.length < 15 ∧ step4 s + 400 ≤ at') ∧
    (∃ s : State, ∃ f, ∃ u, ∃ k, ∃ at', ∃ w, takeFrame 3 (isKind 8 1) s = some (f, u) ∧ field f.bytes 4 1 = 1 ∧ f.bytes.length = 28 ∧
      field f.bytes 8 1 = k ∧ k < 8 ∧ field f.bytes 9 1 = 0 ∧ field f.bytes 10 2 = 1 ∧ field f.bytes 12 8 = at' ∧ field f.bytes 20 4 = w ∧
      rd (Reg.TRG.PCFG.MODE k) s ≠ 1) ∧
    (∃ s : State, ∃ f, ∃ u, takeFrame 3 (isKind 8 2) s = some (f, u)) ∧
    (∃ s : State, ∃ o : Origin, ∃ body : List Byte, mayDispatch s o = true ∧ zeroAt body 1 3 = true ∧ body.length = 4) ∧
    (∃ s : State, ∃ o : Origin, ∃ body : List Byte, ∃ k, ∃ at', ∃ w, mayDispatch s o = true ∧ zeroAt body 1 3 = true ∧ body.length = 24 ∧
      field body 0 1 = 1 ∧ field body 4 1 = k ∧ field body 5 1 = 0 ∧ field body 6 2 = 1 ∧ field body 8 8 = at' ∧ field body 16 4 = w ∧ k < 8 ∧ 0 < w ∧
      rd (Reg.TRG.PCFG.MODE k) s = 1 ∧ (trigPin s k).entries.length < 15 ∧ step4 s + 400 ≤ at') ∧
    (∃ s : State, ∃ o : Origin, ∃ body : List Byte, ∃ k, ∃ at', ∃ w, mayDispatch s o = true ∧ zeroAt body 1 3 = true ∧ body.length = 24 ∧
      field body 0 1 = 1 ∧ field body 4 1 = k ∧ field body 5 1 = 0 ∧ field body 6 2 = 1 ∧ field body 8 8 = at' ∧ field body 16 4 = w ∧ k < 8 ∧ 0 < w ∧
      rd (Reg.TRG.PCFG.MODE k) s ≠ 1) ∧
    (∃ pin : Fin 8, ∃ s : State, ∃ e, ∃ l, (trigPin s pin).entries = e :: l ∧ e.late = [] ∧ e.left = some 1 ∧ (trigPin s pin).running = []) ∧
    (∃ pin : Fin 8, ∃ s : State, ∃ e, ∃ l, ∃ n, (trigPin s pin).entries = e :: l ∧ e.late = [] ∧ e.left = some (n + 2)) ∧
    (∃ pin : Fin 8, ∃ s : State, ∃ e, ∃ l, (trigPin s pin).entries = e :: l ∧ e.late = [] ∧ e.left = none) ∧
    (∃ pin : Fin 8, ∃ s : State, ∃ e, ∃ l, ∃ x, ∃ r, (trigPin s pin).entries = e :: l ∧ e.late = x :: r ∧ e.left = some 0) ∧
    (∃ pin : Fin 8, ∃ s : State, ∃ e, ∃ l, ∃ x, ∃ r, (trigPin s pin).entries = e :: l ∧ (trigPin s pin).running = x :: r) ∧
    (∃ pin : Fin 8, ∃ s : State, accStat s (Reg.TRG.PCFG.word pin.val).addr = ST_OK) ∧
    (∃ pin : Fin 8, ∃ s : State, ∃ rising, rd (Reg.TRG.PCFG.MODE pin.val) s = 2 ∧ rd (Reg.TRG.PCFG.FILT pin.val) s = 0 ∧
      (trigPin s pin).edge = none ∧ reports s pin = false ∧ edgeSelected s pin rising = true ∧ (trigPin s pin).fifo.length < 64) ∧
    (∃ pin : Fin 8, ∃ s : State, ∃ rising, rd (Reg.TRG.PCFG.MODE pin.val) s = 2 ∧ rd (Reg.TRG.PCFG.FILT pin.val) s = 0 ∧
      (trigPin s pin).edge = none ∧ reports s pin = false ∧ edgeSelected s pin rising = true ∧ 64 ≤ (trigPin s pin).fifo.length) ∧
    (∃ pin : Fin 8, ∃ s : State, ∃ rising, rd (Reg.TRG.PCFG.MODE pin.val) s = 2 ∧ rd (Reg.TRG.PCFG.FILT pin.val) s = 0 ∧
      (trigPin s pin).edge = none ∧ edgeSelected s pin rising = false) ∧
    (∃ pin : Fin 8, ∃ s : State, rd (Reg.TRG.PCFG.MODE pin.val) s = 2 ∧ 0 < rd (Reg.TRG.PCFG.FILT pin.val) s ∧ (trigPin s pin).edge = none) ∧
    (∃ pin : Fin 8, ∃ s : State, ∃ x, ∃ rising, rd (Reg.TRG.PCFG.MODE pin.val) s = 2 ∧ (trigPin s pin).edge = some x ∧ rising ≠ x.rising ∧
      s.now < x.since + rd (Reg.TRG.PCFG.FILT pin.val) s) ∧
    (∃ pin : Fin 8, ∃ s : State, ∃ x, s.pending = [] ∧ (trigPin s pin).edge = some x ∧ edgeSelected s pin x.rising = true ∧ reports s pin = false ∧
      (trigPin s pin).fifo.length < 64 ∧ x.since + rd (Reg.TRG.PCFG.FILT pin.val) s ≤ s.now + 1) ∧
    (∃ pin : Fin 8, ∃ s : State, rd (Reg.TRG.PCFG.MODE pin.val) s ≠ 2) ∧
    (∃ pin : Fin 8, ∃ s : State, reports s pin = true ∧ (trigPin s pin).fifo ≠ []) ∧
    (∃ pin : Fin 8, ∃ s : State, (reports s pin = false ∨ (trigPin s pin).fifo = [])) ∧
    (∃ pin : Fin 8, ∃ s : State, accStat s (Reg.TRG.CAP_LO.word pin.val).addr = ST_OK ∧ (trigPin s pin).fifo = []) ∧
    (∃ pin : Fin 8, ∃ s : State, ∃ x, ∃ b, ∃ l, accStat s (Reg.TRG.CAP_LO.word pin.val).addr = ST_OK ∧ (trigPin s pin).fifo = (x, b) :: l ∧
      x < 2 ^ 64) ∧
    (∃ pin : Fin 8, ∃ s : State, ∃ o : Origin, ∃ body : List Byte, ∃ m : Nat, mayDispatch s o = true ∧ body.length = 4 ∧ field body 0 1 = pin.val ∧
      field body 1 1 = m ∧ 0 < m ∧ m ≤ 64 ∧ zeroAt body 2 2 = true ∧ rd (Reg.TRG.PCFG.MODE pin.val) s = 2) ∧
    (∃ pin : Fin 8, ∃ s : State, ∃ o : Origin, ∃ body : List Byte, ∃ m : Nat, mayDispatch s o = true ∧ body.length = 4 ∧ field body 0 1 = pin.val ∧
      field body 1 1 = m ∧ 0 < m ∧ m ≤ 64 ∧ zeroAt body 2 2 = true ∧ rd (Reg.TRG.PCFG.MODE pin.val) s ≠ 2) :=
  ⟨⟨R [(Reg.TRG.ASEL.PIN.mine .host, 7), (Reg.TRG.PCFG.MODE 7, 1), (Reg.TRG.AT_LO.word.mine .host, 400), (Reg.TRG.AWID.word.mine .host, 1),
     (Reg.TRG.ACTL.COUNT.mine .host, 1), (Reg.TRG.ASEL.PIN.mine (.host), (7 : Nat)), (Reg.TRG.PCFG.MODE (7 : Nat), 1)] (State.reset), .host, 7,
     rd (Reg.TRG.AT_HI.word.mine (.host)) (R [(Reg.TRG.ASEL.PIN.mine .host, 7), (Reg.TRG.PCFG.MODE 7, 1), (Reg.TRG.AT_LO.word.mine .host, 400),
     (Reg.TRG.AWID.word.mine .host, 1), (Reg.TRG.ACTL.COUNT.mine .host, 1), (Reg.TRG.ASEL.PIN.mine (.host), (7 : Nat)), (Reg.TRG.PCFG.MODE (7 : Nat),
     1)] (State.reset)) * 2 ^ 32 + rd (Reg.TRG.AT_LO.word.mine (.host)) (R [(Reg.TRG.ASEL.PIN.mine .host, 7), (Reg.TRG.PCFG.MODE 7, 1),
     (Reg.TRG.AT_LO.word.mine .host, 400), (Reg.TRG.AWID.word.mine .host, 1), (Reg.TRG.ACTL.COUNT.mine .host, 1), (Reg.TRG.ASEL.PIN.mine (.host),
     (7 : Nat)), (Reg.TRG.PCFG.MODE (7 : Nat), 1)] (State.reset)), rd (Reg.TRG.AWID.word.mine (.host)) (R [(Reg.TRG.ASEL.PIN.mine .host, 7),
     (Reg.TRG.PCFG.MODE 7, 1), (Reg.TRG.AT_LO.word.mine .host, 400), (Reg.TRG.AWID.word.mine .host, 1), (Reg.TRG.ACTL.COUNT.mine .host, 1),
     (Reg.TRG.ASEL.PIN.mine (.host), (7 : Nat)), (Reg.TRG.PCFG.MODE (7 : Nat), 1)] (State.reset)),
     rd (Reg.TRG.APER.word.mine (.host)) (R [(Reg.TRG.ASEL.PIN.mine .host, 7), (Reg.TRG.PCFG.MODE 7, 1), (Reg.TRG.AT_LO.word.mine .host, 400),
     (Reg.TRG.AWID.word.mine .host, 1), (Reg.TRG.ACTL.COUNT.mine .host, 1), (Reg.TRG.ASEL.PIN.mine (.host), (7 : Nat)), (Reg.TRG.PCFG.MODE (7 : Nat),
     1)] (State.reset)), rd (Reg.TRG.ACTL.COUNT.mine (.host)) (R [(Reg.TRG.ASEL.PIN.mine .host, 7), (Reg.TRG.PCFG.MODE 7, 1),
     (Reg.TRG.AT_LO.word.mine .host, 400), (Reg.TRG.AWID.word.mine .host, 1), (Reg.TRG.ACTL.COUNT.mine .host, 1), (Reg.TRG.ASEL.PIN.mine (.host),
     (7 : Nat)), (Reg.TRG.PCFG.MODE (7 : Nat), 1)] (State.reset)), by decide +kernel⟩,
   ⟨R [(Reg.TRG.ASEL.PIN.mine .host, 7), (Reg.TRG.PCFG.MODE 7, 1), (Reg.TRG.AT_LO.word.mine .host, 399), (Reg.TRG.AWID.word.mine .host, 1),
     (Reg.TRG.ACTL.COUNT.mine .host, 1), (Reg.TRG.ASEL.PIN.mine (.host), (7 : Nat)), (Reg.TRG.PCFG.MODE (7 : Nat), 1),
     (Reg.TRG.PCFG.LATEFIRE (7 : Nat), 0)] (State.reset), .host, 7, rd (Reg.TRG.AT_HI.word.mine (.host)) (R [(Reg.TRG.ASEL.PIN.mine .host, 7),
     (Reg.TRG.PCFG.MODE 7, 1), (Reg.TRG.AT_LO.word.mine .host, 399), (Reg.TRG.AWID.word.mine .host, 1), (Reg.TRG.ACTL.COUNT.mine .host, 1),
     (Reg.TRG.ASEL.PIN.mine (.host), (7 : Nat)), (Reg.TRG.PCFG.MODE (7 : Nat), 1), (Reg.TRG.PCFG.LATEFIRE (7 : Nat),
     0)] (State.reset)) * 2 ^ 32 + rd (Reg.TRG.AT_LO.word.mine (.host)) (R [(Reg.TRG.ASEL.PIN.mine .host, 7), (Reg.TRG.PCFG.MODE 7, 1),
     (Reg.TRG.AT_LO.word.mine .host, 399), (Reg.TRG.AWID.word.mine .host, 1), (Reg.TRG.ACTL.COUNT.mine .host, 1), (Reg.TRG.ASEL.PIN.mine (.host),
     (7 : Nat)), (Reg.TRG.PCFG.MODE (7 : Nat), 1), (Reg.TRG.PCFG.LATEFIRE (7 : Nat), 0)] (State.reset)),
     rd (Reg.TRG.AWID.word.mine (.host)) (R [(Reg.TRG.ASEL.PIN.mine .host, 7), (Reg.TRG.PCFG.MODE 7, 1), (Reg.TRG.AT_LO.word.mine .host, 399),
     (Reg.TRG.AWID.word.mine .host, 1), (Reg.TRG.ACTL.COUNT.mine .host, 1), (Reg.TRG.ASEL.PIN.mine (.host), (7 : Nat)), (Reg.TRG.PCFG.MODE (7 : Nat),
     1), (Reg.TRG.PCFG.LATEFIRE (7 : Nat), 0)] (State.reset)), rd (Reg.TRG.APER.word.mine (.host)) (R [(Reg.TRG.ASEL.PIN.mine .host, 7),
     (Reg.TRG.PCFG.MODE 7, 1), (Reg.TRG.AT_LO.word.mine .host, 399), (Reg.TRG.AWID.word.mine .host, 1), (Reg.TRG.ACTL.COUNT.mine .host, 1),
     (Reg.TRG.ASEL.PIN.mine (.host), (7 : Nat)), (Reg.TRG.PCFG.MODE (7 : Nat), 1), (Reg.TRG.PCFG.LATEFIRE (7 : Nat), 0)] (State.reset)),
     rd (Reg.TRG.ACTL.COUNT.mine (.host)) (R [(Reg.TRG.ASEL.PIN.mine .host, 7), (Reg.TRG.PCFG.MODE 7, 1), (Reg.TRG.AT_LO.word.mine .host, 399),
     (Reg.TRG.AWID.word.mine .host, 1), (Reg.TRG.ACTL.COUNT.mine .host, 1), (Reg.TRG.ASEL.PIN.mine (.host), (7 : Nat)), (Reg.TRG.PCFG.MODE (7 : Nat),
     1), (Reg.TRG.PCFG.LATEFIRE (7 : Nat), 0)] (State.reset)), by decide +kernel⟩,
   ⟨R [(Reg.TRG.ASEL.PIN.mine .host, 7), (Reg.TRG.PCFG.MODE 7, 1), (Reg.TRG.AT_LO.word.mine .host, 399), (Reg.TRG.AWID.word.mine .host, 1),
     (Reg.TRG.ACTL.COUNT.mine .host, 1), (Reg.TRG.ASEL.PIN.mine (.host), (7 : Nat)), (Reg.TRG.PCFG.MODE (7 : Nat), 1),
     (Reg.TRG.PCFG.LATEFIRE (7 : Nat), 1)] (State.reset), .host, 7, rd (Reg.TRG.AT_HI.word.mine (.host)) (R [(Reg.TRG.ASEL.PIN.mine .host, 7),
     (Reg.TRG.PCFG.MODE 7, 1), (Reg.TRG.AT_LO.word.mine .host, 399), (Reg.TRG.AWID.word.mine .host, 1), (Reg.TRG.ACTL.COUNT.mine .host, 1),
     (Reg.TRG.ASEL.PIN.mine (.host), (7 : Nat)), (Reg.TRG.PCFG.MODE (7 : Nat), 1), (Reg.TRG.PCFG.LATEFIRE (7 : Nat),
     1)] (State.reset)) * 2 ^ 32 + rd (Reg.TRG.AT_LO.word.mine (.host)) (R [(Reg.TRG.ASEL.PIN.mine .host, 7), (Reg.TRG.PCFG.MODE 7, 1),
     (Reg.TRG.AT_LO.word.mine .host, 399), (Reg.TRG.AWID.word.mine .host, 1), (Reg.TRG.ACTL.COUNT.mine .host, 1), (Reg.TRG.ASEL.PIN.mine (.host),
     (7 : Nat)), (Reg.TRG.PCFG.MODE (7 : Nat), 1), (Reg.TRG.PCFG.LATEFIRE (7 : Nat), 1)] (State.reset)),
     rd (Reg.TRG.AWID.word.mine (.host)) (R [(Reg.TRG.ASEL.PIN.mine .host, 7), (Reg.TRG.PCFG.MODE 7, 1), (Reg.TRG.AT_LO.word.mine .host, 399),
     (Reg.TRG.AWID.word.mine .host, 1), (Reg.TRG.ACTL.COUNT.mine .host, 1), (Reg.TRG.ASEL.PIN.mine (.host), (7 : Nat)), (Reg.TRG.PCFG.MODE (7 : Nat),
     1), (Reg.TRG.PCFG.LATEFIRE (7 : Nat), 1)] (State.reset)), rd (Reg.TRG.APER.word.mine (.host)) (R [(Reg.TRG.ASEL.PIN.mine .host, 7),
     (Reg.TRG.PCFG.MODE 7, 1), (Reg.TRG.AT_LO.word.mine .host, 399), (Reg.TRG.AWID.word.mine .host, 1), (Reg.TRG.ACTL.COUNT.mine .host, 1),
     (Reg.TRG.ASEL.PIN.mine (.host), (7 : Nat)), (Reg.TRG.PCFG.MODE (7 : Nat), 1), (Reg.TRG.PCFG.LATEFIRE (7 : Nat), 1)] (State.reset)),
     rd (Reg.TRG.ACTL.COUNT.mine (.host)) (R [(Reg.TRG.ASEL.PIN.mine .host, 7), (Reg.TRG.PCFG.MODE 7, 1), (Reg.TRG.AT_LO.word.mine .host, 399),
     (Reg.TRG.AWID.word.mine .host, 1), (Reg.TRG.ACTL.COUNT.mine .host, 1), (Reg.TRG.ASEL.PIN.mine (.host), (7 : Nat)), (Reg.TRG.PCFG.MODE (7 : Nat),
     1), (Reg.TRG.PCFG.LATEFIRE (7 : Nat), 1)] (State.reset)), by decide +kernel⟩,
   ⟨R [(Reg.TRG.ASEL.PIN.mine .host, 7), (Reg.TRG.PCFG.MODE 7, 1), (Reg.TRG.AT_LO.word.mine .host, 400), (Reg.TRG.AWID.word.mine .host, 1),
     (Reg.TRG.ACTL.COUNT.mine .host, 1), (Reg.TRG.ASEL.PIN.mine (.host), (7 : Nat)), (Reg.TRG.PCFG.MODE (7 : Nat),
     1)] (setTrig 7 { TrigPin.reset with entries := List.replicate 15 (te none) } State.reset), .host, 7,
     rd (Reg.TRG.AT_HI.word.mine (.host)) (R [(Reg.TRG.ASEL.PIN.mine .host, 7), (Reg.TRG.PCFG.MODE 7, 1), (Reg.TRG.AT_LO.word.mine .host, 400),
     (Reg.TRG.AWID.word.mine .host, 1), (Reg.TRG.ACTL.COUNT.mine .host, 1), (Reg.TRG.ASEL.PIN.mine (.host), (7 : Nat)), (Reg.TRG.PCFG.MODE (7 : Nat),
     1)] (setTrig 7 { TrigPin.reset with entries := List.replicate 15 (te none) } State.reset)) * 2 ^ 32 + rd (Reg.TRG.AT_LO.word.mine (.host)) (R [(Reg.TRG.ASEL.PIN.mine .host,
     7), (Reg.TRG.PCFG.MODE 7, 1), (Reg.TRG.AT_LO.word.mine .host, 400), (Reg.TRG.AWID.word.mine .host, 1), (Reg.TRG.ACTL.COUNT.mine .host, 1),
     (Reg.TRG.ASEL.PIN.mine (.host), (7 : Nat)), (Reg.TRG.PCFG.MODE (7 : Nat),
     1)] (setTrig 7 { TrigPin.reset with entries := List.replicate 15 (te none) } State.reset)),
     rd (Reg.TRG.AWID.word.mine (.host)) (R [(Reg.TRG.ASEL.PIN.mine .host, 7), (Reg.TRG.PCFG.MODE 7, 1), (Reg.TRG.AT_LO.word.mine .host, 400),
     (Reg.TRG.AWID.word.mine .host, 1), (Reg.TRG.ACTL.COUNT.mine .host, 1), (Reg.TRG.ASEL.PIN.mine (.host), (7 : Nat)), (Reg.TRG.PCFG.MODE (7 : Nat),
     1)] (setTrig 7 { TrigPin.reset with entries := List.replicate 15 (te none) } State.reset)),
     rd (Reg.TRG.APER.word.mine (.host)) (R [(Reg.TRG.ASEL.PIN.mine .host, 7), (Reg.TRG.PCFG.MODE 7, 1), (Reg.TRG.AT_LO.word.mine .host, 400),
     (Reg.TRG.AWID.word.mine .host, 1), (Reg.TRG.ACTL.COUNT.mine .host, 1), (Reg.TRG.ASEL.PIN.mine (.host), (7 : Nat)), (Reg.TRG.PCFG.MODE (7 : Nat),
     1)] (setTrig 7 { TrigPin.reset with entries := List.replicate 15 (te none) } State.reset)),
     rd (Reg.TRG.ACTL.COUNT.mine (.host)) (R [(Reg.TRG.ASEL.PIN.mine .host, 7), (Reg.TRG.PCFG.MODE 7, 1), (Reg.TRG.AT_LO.word.mine .host, 400),
     (Reg.TRG.AWID.word.mine .host, 1), (Reg.TRG.ACTL.COUNT.mine .host, 1), (Reg.TRG.ASEL.PIN.mine (.host), (7 : Nat)), (Reg.TRG.PCFG.MODE (7 : Nat),
     1)] (setTrig 7 { TrigPin.reset with entries := List.replicate 15 (te none) } State.reset)), by decide +kernel⟩,
   ⟨R [(Reg.TRG.ASEL.PIN.mine .host, 7), (Reg.TRG.PCFG.MODE 7, 1), (Reg.TRG.AWID.word.mine .host, 1), (Reg.TRG.APER.word.mine .host, 1),
     (Reg.TRG.ASEL.PIN.mine (.host), (7 : Nat))] (State.reset), .host, 7, rd (Reg.TRG.AT_HI.word.mine (.host)) (R [(Reg.TRG.ASEL.PIN.mine .host, 7),
     (Reg.TRG.PCFG.MODE 7, 1), (Reg.TRG.AWID.word.mine .host, 1), (Reg.TRG.APER.word.mine .host, 1), (Reg.TRG.ASEL.PIN.mine (.host),
     (7 : Nat))] (State.reset)) * 2 ^ 32 + rd (Reg.TRG.AT_LO.word.mine (.host)) (R [(Reg.TRG.ASEL.PIN.mine .host, 7), (Reg.TRG.PCFG.MODE 7, 1),
     (Reg.TRG.AWID.word.mine .host, 1), (Reg.TRG.APER.word.mine .host, 1), (Reg.TRG.ASEL.PIN.mine (.host), (7 : Nat))] (State.reset)),
     rd (Reg.TRG.AWID.word.mine (.host)) (R [(Reg.TRG.ASEL.PIN.mine .host, 7), (Reg.TRG.PCFG.MODE 7, 1), (Reg.TRG.AWID.word.mine .host, 1),
     (Reg.TRG.APER.word.mine .host, 1), (Reg.TRG.ASEL.PIN.mine (.host), (7 : Nat))] (State.reset)),
     rd (Reg.TRG.APER.word.mine (.host)) (R [(Reg.TRG.ASEL.PIN.mine .host, 7), (Reg.TRG.PCFG.MODE 7, 1), (Reg.TRG.AWID.word.mine .host, 1),
     (Reg.TRG.APER.word.mine .host, 1), (Reg.TRG.ASEL.PIN.mine (.host), (7 : Nat))] (State.reset)),
     rd (Reg.TRG.ACTL.COUNT.mine (.host)) (R [(Reg.TRG.ASEL.PIN.mine .host, 7), (Reg.TRG.PCFG.MODE 7, 1), (Reg.TRG.AWID.word.mine .host, 1),
     (Reg.TRG.APER.word.mine .host, 1), (Reg.TRG.ASEL.PIN.mine (.host), (7 : Nat))] (State.reset)), by decide +kernel⟩,
   ⟨R [(Reg.TRG.ASEL.PIN.mine .host, 7), (Reg.TRG.PCFG.MODE 7, 1), (Reg.TRG.AT_LO.word.mine .host, 400), (Reg.TRG.AWID.word.mine .host, 1),
     (Reg.TRG.ACTL.COUNT.mine .host, 1), (Reg.TRG.ASEL.PIN.mine (.host),
     (7 : Nat))] (setTrig 7 { TrigPin.reset with entries := [te none] } State.reset), .host, 7,
     rd (Reg.TRG.AT_HI.word.mine (.host)) (R [(Reg.TRG.ASEL.PIN.mine .host, 7), (Reg.TRG.PCFG.MODE 7, 1), (Reg.TRG.AT_LO.word.mine .host, 400),
     (Reg.TRG.AWID.word.mine .host, 1), (Reg.TRG.ACTL.COUNT.mine .host, 1), (Reg.TRG.ASEL.PIN.mine (.host),
     (7 : Nat))] (setTrig 7 { TrigPin.reset with entries := [te none] } State.reset)) * 2 ^ 32 + rd (Reg.TRG.AT_LO.word.mine (.host)) (R [(Reg.TRG.ASEL.PIN.mine .host,
     7), (Reg.TRG.PCFG.MODE 7, 1), (Reg.TRG.AT_LO.word.mine .host, 400), (Reg.TRG.AWID.word.mine .host, 1), (Reg.TRG.ACTL.COUNT.mine .host, 1),
     (Reg.TRG.ASEL.PIN.mine (.host), (7 : Nat))] (setTrig 7 { TrigPin.reset with entries := [te none] } State.reset)),
     rd (Reg.TRG.AWID.word.mine (.host)) (R [(Reg.TRG.ASEL.PIN.mine .host, 7), (Reg.TRG.PCFG.MODE 7, 1), (Reg.TRG.AT_LO.word.mine .host, 400),
     (Reg.TRG.AWID.word.mine .host, 1), (Reg.TRG.ACTL.COUNT.mine .host, 1), (Reg.TRG.ASEL.PIN.mine (.host),
     (7 : Nat))] (setTrig 7 { TrigPin.reset with entries := [te none] } State.reset)),
     rd (Reg.TRG.APER.word.mine (.host)) (R [(Reg.TRG.ASEL.PIN.mine .host, 7), (Reg.TRG.PCFG.MODE 7, 1), (Reg.TRG.AT_LO.word.mine .host, 400),
     (Reg.TRG.AWID.word.mine .host, 1), (Reg.TRG.ACTL.COUNT.mine .host, 1), (Reg.TRG.ASEL.PIN.mine (.host),
     (7 : Nat))] (setTrig 7 { TrigPin.reset with entries := [te none] } State.reset)),
     rd (Reg.TRG.ACTL.COUNT.mine (.host)) (R [(Reg.TRG.ASEL.PIN.mine .host, 7), (Reg.TRG.PCFG.MODE 7, 1), (Reg.TRG.AT_LO.word.mine .host, 400),
     (Reg.TRG.AWID.word.mine .host, 1), (Reg.TRG.ACTL.COUNT.mine .host, 1), (Reg.TRG.ASEL.PIN.mine (.host),
     (7 : Nat))] (setTrig 7 { TrigPin.reset with entries := [te none] } State.reset)), by decide +kernel⟩,
   ⟨R [(Reg.TRG.PCFG.MODE 7, 1), (Reg.TRG.PCFG.MODE (7),
     1)] (setInbox 3 [{ F (bd 28 [(2, 2, 1), (4, 1, 1), (8, 1, 7), (10, 2, 1), (12, 8, 400), (20, 4, 1)]) with typ := 8 }] State.reset),
     ((takeFrame 3 (isKind 8 1) (R [(Reg.TRG.PCFG.MODE 7, 1), (Reg.TRG.PCFG.MODE (7),
     1)] (setInbox 3 [{ F (bd 28 [(2, 2, 1), (4, 1, 1), (8, 1, 7), (10, 2, 1), (12, 8, 400), (20, 4, 1)]) with typ := 8 }] State.reset))).get (by decide +kernel)).1,
     ((takeFrame 3 (isKind 8 1) (R [(Reg.TRG.PCFG.MODE 7, 1), (Reg.TRG.PCFG.MODE (7),
     1)] (setInbox 3 [{ F (bd 28 [(2, 2, 1), (4, 1, 1), (8, 1, 7), (10, 2, 1), (12, 8, 400), (20, 4, 1)]) with typ := 8 }] State.reset))).get (by decide +kernel)).2,
     7, 400, 1, rfl, by decide +kernel⟩,
   ⟨setInbox 3 [{ F (bd 28 [(2, 2, 1), (4, 1, 1), (8, 1, 7), (10, 2, 1), (12, 8, 400), (20, 4, 1)]) with typ := 8 }] State.reset,
     ((takeFrame 3 (isKind 8 1) (setInbox 3 [{ F (bd 28 [(2, 2, 1), (4, 1, 1), (8, 1, 7), (10, 2, 1), (12, 8, 400), (20, 4, 1)]) with typ := 8 }] State.reset)).get (by decide +kernel)).1,
     ((takeFrame 3 (isKind 8 1) (setInbox 3 [{ F (bd 28 [(2, 2, 1), (4, 1, 1), (8, 1, 7), (10, 2, 1), (12, 8, 400), (20, 4, 1)]) with typ := 8 }] State.reset)).get (by decide +kernel)).2,
     7, 400, 1, rfl, by decide +kernel⟩,
   ⟨setInbox 3 [{ F (bd 8 [(2, 2, 2), (4, 1, 7)]) with typ := 8 }] State.reset,
     ((takeFrame 3 (isKind 8 2) (setInbox 3 [{ F (bd 8 [(2, 2, 2), (4, 1, 7)]) with typ := 8 }] State.reset)).get (by decide +kernel)).1,
     ((takeFrame 3 (isKind 8 2) (setInbox 3 [{ F (bd 8 [(2, 2, 2), (4, 1, 7)]) with typ := 8 }] State.reset)).get (by decide +kernel)).2, rfl⟩,
   ⟨setTrig 7 { TrigPin.reset with entries := [te none] } State.reset, o0, bd 4 [(0, 1, 0xFF)], by decide +kernel⟩,
   ⟨R [(Reg.TRG.PCFG.MODE 7, 1), (Reg.TRG.PCFG.MODE (7), 1)] (State.reset), o0, bd (24) [(0, 1, 1), (4, 1, (7)), (5, 1, 0), (6, 2, 1), (8, 8, (400)),
     (16, 4, (1))], 7, 400, 1, by decide +kernel⟩,
   ⟨State.reset, o0, bd (24) [(0, 1, 1), (4, 1, (7)), (5, 1, 0), (6, 2, 1), (8, 8, (400)), (16, 4, (1))], 7, 400, 1, by decide +kernel⟩,
   ⟨7, setTrig 7 { TrigPin.reset with entries := [te (some 1)] } State.reset, te (some 1), [], by decide +kernel⟩,
   ⟨7, setTrig 7 { TrigPin.reset with entries := [te (some 2)] } State.reset, te (some 2), [], 0, by decide +kernel⟩,
   ⟨7, setTrig 7 { TrigPin.reset with entries := [te none] } State.reset, te none, [], by decide +kernel⟩,
   ⟨7, setTrig 7 { TrigPin.reset with entries := [{ te (some 0) with late := [(500, true)] }] } State.reset,
     { te (some 0) with late := [(500, true)] }, [], (500, true), [], by decide +kernel⟩,
   ⟨7, setTrig 7 { TrigPin.reset with entries := [te none], running := [5] } State.reset, te none, [], 5, [], by decide +kernel⟩,
   ⟨7, State.reset, by decide +kernel⟩,
   ⟨7, R [(Reg.TRG.PCFG.MODE (7 : Fin 8).val, 2), (Reg.TRG.PCFG.FILT (7 : Fin 8).val,
     0)] (setTrig 7 { TrigPin.reset with fifo := List.replicate 63 (0, true) } State.reset), true, by decide +kernel⟩,
   ⟨7, R [(Reg.TRG.PCFG.BOTH 7, 1), (Reg.TRG.PCFG.MODE (7 : Fin 8).val, 2), (Reg.TRG.PCFG.FILT (7 : Fin 8).val,
     0)] (setTrig 7 { TrigPin.reset with fifo := List.replicate 64 (0, true) } State.reset), false, by decide +kernel⟩,
   ⟨7, R [(Reg.TRG.PCFG.MODE (7 : Fin 8).val, 2), (Reg.TRG.PCFG.FILT (7 : Fin 8).val, 0)] (State.reset), false, by decide +kernel⟩,
   ⟨7, R [(Reg.TRG.PCFG.FILT 7, 1), (Reg.TRG.PCFG.MODE (7 : Fin 8).val, 2)] (State.reset), by decide +kernel⟩,
   ⟨7, R [(Reg.TRG.PCFG.FILT 7, 1), (Reg.TRG.PCFG.MODE (7 : Fin 8).val,
     2)] (setTrig 7 { TrigPin.reset with edge := some ⟨true, (0, true), 0⟩ } State.reset), ⟨true, (0, true), 0⟩, false, by decide +kernel⟩,
   ⟨7, R [(Reg.TRG.PCFG.FILT 7, 1)] (setTrig 7 { TrigPin.reset with edge := some ⟨true, (0, true), 0⟩ } State.reset), ⟨true, (0, true), 0⟩,
     by decide +kernel⟩,
   ⟨7, State.reset, by decide +kernel⟩,
   ⟨7, R [(Reg.TRG.PCFG.MODE 7, 2), (Reg.TRG.PCFG.RPT 7, 1), (Reg.TRG.RPT.TUN,
     5)] (setTrig 7 { TrigPin.reset with fifo := List.replicate 17 (9, true) } State.reset), by decide +kernel⟩,
   ⟨7, State.reset, by decide +kernel⟩,
   ⟨7, State.reset, by decide +kernel⟩,
   ⟨7, setTrig 7 { TrigPin.reset with fifo := [(2 ^ 64 - 1, true)] } State.reset, 2 ^ 64 - 1, true, [], by decide +kernel⟩,
   ⟨7, R [(Reg.TRG.PCFG.MODE (7 : Fin 8).val, 2)] (setTrig 7 { TrigPin.reset with fifo := [(7, true)] } State.reset), o0, bd (4) [(0, 1,
     (7 : Fin 8).val), (1, 1, (64 : Nat))], 64, by decide +kernel⟩,
   ⟨7, State.reset, o0, bd (4) [(0, 1, (7 : Fin 8).val), (1, 1, (1 : Nat))], 1, by decide +kernel⟩⟩

theorem test_hyps_CommandsAreAcceptedAtHspi :
    (∃ bytes : List Byte, ∃ l : List Byte, ∃ o, bytes = l ++ leBytes 4 (crc32c l) ∧ field l 0 1 / 16 = 2 ∧ 16 ≤ l.length ∧
      l.length = 16 + field l 4 2 + (if bit 2 (field l 0 1) then 8 else 0) ∧ field l 4 2 ≤ 8192 ∧ o = originOf (carrier .host .hspi) l false ∧
      (bit 3 (field l 0 1) = true ∨ 64 ≤ field l 2 1 ∨ field l 3 1 ≠ 0)) ∧
    (∃ s : State, ∃ bytes : List Byte, ∃ l : List Byte, ∃ o, bytes = l ++ leBytes 4 (crc32c l) ∧ field l 0 1 / 16 = 2 ∧ 16 ≤ l.length ∧
      l.length = 16 + field l 4 2 + (if bit 2 (field l 0 1) then 8 else 0) ∧ field l 4 2 ≤ 8192 ∧ o = originOf (carrier .host .hspi) l false ∧
      bit 3 (field l 0 1) = false ∧ field l 2 1 < 64 ∧ field l 3 1 = 0 ∧ tagUsed s o = true) ∧
    (∃ s : State, ∃ bytes : List Byte, ∃ l : List Byte, ∃ o, bytes = l ++ leBytes 4 (crc32c l) ∧ field l 0 1 / 16 = 2 ∧ 16 ≤ l.length ∧
      l.length = 16 + field l 4 2 + (if bit 2 (field l 0 1) then 8 else 0) ∧ field l 4 2 ≤ 8192 ∧ o = originOf (carrier .host .hspi) l false ∧
      bit 3 (field l 0 1) = false ∧ field l 2 1 < 64 ∧ field l 3 1 = 0 ∧ tagUsed s o = false ∧ tagHeld s o = true) ∧
    (∃ s : State, ∃ bytes : List Byte, ∃ l : List Byte, ∃ o, bytes = l ++ leBytes 4 (crc32c l) ∧ field l 0 1 / 16 = 2 ∧ 16 ≤ l.length ∧
      l.length = 16 + field l 4 2 + (if bit 2 (field l 0 1) then 8 else 0) ∧ field l 4 2 ≤ 8192 ∧ o = originOf (carrier .host .hspi) l false ∧
      bit 3 (field l 0 1) = false ∧ field l 2 1 < 64 ∧ field l 3 1 = 0 ∧ tagUsed s o = false ∧ tagHeld s o = false ∧ rdB Reg.CMD.STAT.HOSTSEL s = true) ∧
    (∃ s : State, ∃ bytes : List Byte, ∃ l : List Byte, ∃ o, bytes = l ++ leBytes 4 (crc32c l) ∧ field l 0 1 / 16 = 2 ∧ 16 ≤ l.length ∧
      l.length = 16 + field l 4 2 + (if bit 2 (field l 0 1) then 8 else 0) ∧ field l 4 2 ≤ 8192 ∧ o = originOf (carrier .host .hspi) l false ∧
      bit 3 (field l 0 1) = false ∧ field l 2 1 < 64 ∧ field l 3 1 = 0 ∧ tagUsed s o = false ∧ tagHeld s o = false ∧
      rdB Reg.CMD.STAT.HOSTSEL s = false ∧ (o.target = 0 ∨ o.target = ownAddr s) ∧ o.session = 0 ∧ bit 2 (field l 0 1) = false ∧
      opcodeDefined o.op = false) ∧
    (∃ s : State, ∃ bytes : List Byte, ∃ l : List Byte, ∃ o, bytes = l ++ leBytes 4 (crc32c l) ∧ field l 0 1 / 16 = 2 ∧ 16 ≤ l.length ∧
      l.length = 16 + field l 4 2 + (if bit 2 (field l 0 1) then 8 else 0) ∧ field l 4 2 ≤ 8192 ∧ o = originOf (carrier .host .hspi) l false ∧
      bit 3 (field l 0 1) = false ∧ field l 2 1 < 64 ∧ field l 3 1 = 0 ∧ tagUsed s o = false ∧ tagHeld s o = false ∧
      rdB Reg.CMD.STAT.HOSTSEL s = false ∧ (o.target = 0 ∨ o.target = ownAddr s) ∧ o.session = 0 ∧ bit 2 (field l 0 1) = false ∧
      opcodeDefined o.op = true ∧ openPermits s o = false) ∧
    (∃ s : State, ∃ bytes : List Byte, ∃ l : List Byte, ∃ o, bytes = l ++ leBytes 4 (crc32c l) ∧ field l 0 1 / 16 = 2 ∧ 16 ≤ l.length ∧
      l.length = 16 + field l 4 2 + (if bit 2 (field l 0 1) then 8 else 0) ∧ field l 4 2 ≤ 8192 ∧ o = originOf (carrier .host .hspi) l false ∧
      bit 3 (field l 0 1) = false ∧ field l 2 1 < 64 ∧ field l 3 1 = 0 ∧ tagUsed s o = false ∧ tagHeld s o = false ∧
      rdB Reg.CMD.STAT.HOSTSEL s = false ∧ (o.target = 0 ∨ o.target = ownAddr s) ∧ o.session = 0 ∧ bit 2 (field l 0 1) = false ∧
      opcodeDefined o.op = true ∧ openPermits s o = true) ∧
    (∃ s : State, ∃ bytes : List Byte, ∃ l : List Byte, ∃ o, ∃ x, bytes = l ++ leBytes 4 (crc32c l) ∧ o = originOf (carrier .host .hspi) l false ∧
      macGood x l (field l 4 2) = false ∧ field l 0 1 / 16 = 2 ∧ 16 ≤ l.length ∧ l.length = 16 + field l 4 2 + (if bit 2 (field l 0 1) then 8 else 0) ∧
      field l 4 2 ≤ 8192 ∧ bit 3 (field l 0 1) = false ∧ field l 2 1 < 64 ∧ field l 3 1 = 0 ∧ tagUsed s o = false ∧ tagHeld s o = false ∧
      rdB Reg.CMD.STAT.HOSTSEL s = false ∧ (o.target = 0 ∨ o.target = ownAddr s) ∧ o.session ≠ 0 ∧ openSession s o.session = some x ∧ x.ep = .host ∧
      bit 2 (field l 0 1) = true) ∧
    (∃ s : State, ∃ bytes : List Byte, ∃ l : List Byte, ∃ o, ∃ x, bytes = l ++ leBytes 4 (crc32c l) ∧ o = originOf (carrier .host .hspi) l false ∧
      macGood x l (field l 4 2) = true ∧ field l 0 1 / 16 = 2 ∧ 16 ≤ l.length ∧ l.length = 16 + field l 4 2 + (if bit 2 (field l 0 1) then 8 else 0) ∧
      field l 4 2 ≤ 8192 ∧ bit 3 (field l 0 1) = false ∧ field l 2 1 < 64 ∧ field l 3 1 = 0 ∧ tagUsed s o = false ∧ tagHeld s o = false ∧
      rdB Reg.CMD.STAT.HOSTSEL s = false ∧ (o.target = 0 ∨ o.target = ownAddr s) ∧ o.session ≠ 0 ∧ openSession s o.session = some x ∧ x.ep = .host ∧
      bit 2 (field l 0 1) = true ∧ seqAccept x o.seq = none) ∧
    (∃ s : State, ∃ bytes : List Byte, ∃ l : List Byte, ∃ o, ∃ x, ∃ h, ∃ m, bytes = l ++ leBytes 4 (crc32c l) ∧
      o = originOf (carrier .host .hspi) l false ∧ macGood x l (field l 4 2) = true ∧ field l 0 1 / 16 = 2 ∧ 16 ≤ l.length ∧
      l.length = 16 + field l 4 2 + (if bit 2 (field l 0 1) then 8 else 0) ∧ field l 4 2 ≤ 8192 ∧ bit 3 (field l 0 1) = false ∧ field l 2 1 < 64 ∧
      field l 3 1 = 0 ∧ tagUsed s o = false ∧ tagHeld s o = false ∧ rdB Reg.CMD.STAT.HOSTSEL s = false ∧ (o.target = 0 ∨ o.target = ownAddr s) ∧
      o.session ≠ 0 ∧ openSession s o.session = some x ∧ x.ep = .host ∧ bit 2 (field l 0 1) = true ∧ seqAccept x o.seq = some (h, m) ∧
      opcodeDefined o.op = true ∧ bit (o.op / 16) x.gmask = true ∧ x.alo ≤ ownAddr s ∧ ownAddr s ≤ x.ahi ∧ x.num = o.session) ∧
    (∃ bytes : List Byte, 4 ≤ bytes.length ∧ leNat (bytes.drop (bytes.length - 4)) ≠ crc32c (bytes.take (bytes.length - 4))) ∧
    (∃ s : State, ∃ r, ∃ l, hspiReplies s = r :: l) ∧
    (∃ s : State, ∃ sel : Bool, (sel = true → present s 4 = true)) ∧
    (∃ s : State, present s 4 = false) :=
  ⟨⟨(bd 16 [(0, 1, 0x28)]) ++ leBytes 4 (crc32c (bd 16 [(0, 1, 0x28)])), bd 16 [(0, 1, 0x28)], originOf (carrier .host .hspi) (bd 16 [(0, 1,
     0x28)]) false, by decide +kernel⟩,
   ⟨updCmd (fun z => { z with flights := [⟨{ o0 with tag := 63 }, [], 0⟩] }) State.reset, (bd 16 [(0, 1, 0x20), (2, 1,
     63)]) ++ leBytes 4 (crc32c (bd 16 [(0, 1, 0x20), (2, 1, 63)])), bd 16 [(0, 1, 0x20), (2, 1, 63)], originOf (carrier .host .hspi) (bd 16 [(0, 1,
     0x20), (2, 1, 63)]) false, by decide +kernel⟩,
   ⟨updCmd (fun z => { z with orphans := [(.host, 63, [], 0)] }) State.reset, (bd 16 [(0, 1, 0x20), (2, 1, 63)]) ++ leBytes 4 (crc32c (bd 16 [(0, 1,
     0x20), (2, 1, 63)])), bd 16 [(0, 1, 0x20), (2, 1, 63)], originOf (carrier .host .hspi) (bd 16 [(0, 1, 0x20), (2, 1, 63)]) false, by decide +kernel⟩,
   ⟨R [(Reg.CMD.STAT.HOSTSEL, 1)] (State.reset), (bd 16 [(0, 1, 0x20), (2, 1, 63)]) ++ leBytes 4 (crc32c (bd 16 [(0, 1, 0x20), (2, 1, 63)])),
     bd 16 [(0, 1, 0x20), (2, 1, 63)], originOf (carrier .host .hspi) (bd 16 [(0, 1, 0x20), (2, 1, 63)]) false, by decide +kernel⟩,
   ⟨R [(Reg.CMD.STAT.HOSTSEL, 0)] (State.reset), (bd 16 [(0, 1, 0x20), (1, 1, 0xFF), (2, 1, 63)]) ++ leBytes 4 (crc32c (bd 16 [(0, 1, 0x20), (1, 1,
     0xFF), (2, 1, 63)])), bd 16 [(0, 1, 0x20), (1, 1, 0xFF), (2, 1, 63)], originOf (carrier .host .hspi) (bd 16 [(0, 1, 0x20), (1, 1, 0xFF), (2, 1,
     63)]) false, by decide +kernel⟩,
   ⟨R [(Reg.CMD.OPEN_HOST.word, 0), (Reg.CMD.STAT.HOSTSEL, 0)] (State.reset), (bd 16 [(0, 1, 0x20), (1, 1, 0x10), (2, 1,
     63)]) ++ leBytes 4 (crc32c (bd 16 [(0, 1, 0x20), (1, 1, 0x10), (2, 1, 63)])), bd 16 [(0, 1, 0x20), (1, 1, 0x10), (2, 1, 63)],
     originOf (carrier .host .hspi) (bd 16 [(0, 1, 0x20), (1, 1, 0x10), (2, 1, 63)]) false, by decide +kernel⟩,
   ⟨R [(Reg.CMD.STAT.HOSTSEL, 0)] (State.reset), (bd 16 [(0, 1, 0x20), (1, 1, 0x8), (2, 1, 63)]) ++ leBytes 4 (crc32c (bd 16 [(0, 1, 0x20), (1, 1,
     0x8), (2, 1, 63)])), bd 16 [(0, 1, 0x20), (1, 1, 0x8), (2, 1, 63)], originOf (carrier .host .hspi) (bd 16 [(0, 1, 0x20), (1, 1, 0x8), (2, 1,
     63)]) false, by decide +kernel⟩,
   ⟨Hs, (hsp ++ (macOf s0.key hsp []).map (· + 1)) ++ leBytes 4 (crc32c (hsp ++ (macOf s0.key hsp []).map (· + 1))),
     hsp ++ (macOf s0.key hsp []).map (· + 1), originOf (carrier .host .hspi) (hsp ++ (macOf s0.key hsp []).map (· + 1)) false, s0, rfl, rfl,
     (by rw [show field (hsp ++ (macOf s0.key hsp []).map (· + 1)) 4 2 = 0 from by decide +kernel]; exact mac_bad rfl rfl), by decide +kernel⟩,
   ⟨Hs, (hsp ++ macOf s0.key hsp []) ++ leBytes 4 (crc32c (hsp ++ macOf s0.key hsp [])), hsp ++ macOf s0.key hsp [],
     originOf (carrier .host .hspi) (hsp ++ macOf s0.key hsp []) false, s0, rfl, rfl,
     (by rw [show field (hsp ++ macOf s0.key hsp []) 4 2 = 0 from by decide +kernel]; exact mac_good rfl rfl), by decide +kernel⟩,
   ⟨Hs, (hsp6 ++ macOf s0.key hsp6 []) ++ leBytes 4 (crc32c (hsp6 ++ macOf s0.key hsp6 [])), hsp6 ++ macOf s0.key hsp6 [],
     originOf (carrier .host .hspi) (hsp6 ++ macOf s0.key hsp6 []) false, s0,
     ((seqAccept (s0) (originOf (carrier .host .hspi) (hsp6 ++ macOf s0.key hsp6 []) false).seq).get (by decide +kernel)).1,
     ((seqAccept (s0) (originOf (carrier .host .hspi) (hsp6 ++ macOf s0.key hsp6 []) false).seq).get (by decide +kernel)).2, rfl, rfl,
     (by rw [show field (hsp6 ++ macOf s0.key hsp6 []) 4 2 = 0 from by decide +kernel]; exact mac_good rfl rfl), by decide +kernel⟩,
   ⟨[0, 0, 0, 1], by decide +kernel⟩,
   ⟨updCmd (fun z => { z with replies := [⟨.hspi, .host, 63, 0, bd 16 [], true⟩] }) State.reset, ⟨.hspi, .host, 63, 0, bd 16 [], true⟩, [],
     by decide +kernel⟩,
   ⟨State.reset, true, by decide +kernel⟩,
   ⟨{ State.reset with variant := .a2 }, by decide +kernel⟩⟩

theorem test_hyps_RelaysOrphansAndSessions :
    (∃ s : State, ∃ f, ∃ l, ∃ t, ∃ o, s.cmd.rspIn = f :: l ∧ field f.bytes 2 1 = t ∧ t < 64 ∧ Tab.get (fun _ => none) s.cmd.relays t = some (.cmd o)) ∧
    (∃ s : State, ∃ f, ∃ l, ∃ t, ∃ p, s.cmd.rspIn = f :: l ∧ field f.bytes 2 1 = t ∧ t < 64 ∧
      Tab.get (fun _ => none) s.cmd.relays t = some (.assign p)) ∧
    (∃ s : State, ∃ f, ∃ l, ∃ t, s.cmd.rspIn = f :: l ∧ field f.bytes 2 1 = t ∧ t < 64 ∧ Tab.get (fun _ => none) s.cmd.relays t = none ∧
      s.cmd.late.contains t = true) ∧
    (∃ s : State, ∃ f, ∃ l, ∃ t, s.cmd.rspIn = f :: l ∧ field f.bytes 2 1 = t ∧ t < 64 ∧ Tab.get (fun _ => none) s.cmd.relays t = none ∧
      s.cmd.late.contains t = false) ∧
    (∃ s : State, s.cmd.rspIn = []) ∧
    (∃ s : State, ∃ tag : Fin 64, ∃ o : Origin, Tab.get (fun _ => none) s.cmd.relays tag = some (.cmd o)) ∧
    (∃ s : State, ∃ tag : Fin 64, Tab.get (fun _ => none) s.cmd.relays tag = none) ∧
    (∃ s : State, ∃ ep, ∃ x, ∃ l, takeFirst (fun x : EntryPoint × Nat × List Byte × Nat => x.1 == ep) s.cmd.orphans = some (x, l)) ∧
    (∃ s : State, ∃ o : Origin, ∃ body : List Byte, ∃ n : Nat, ∃ l, mayDispatch s o = true ∧ body.length = 4 ∧ field body 0 1 = n ∧
      zeroAt body 1 3 = true ∧ 0 < n ∧ n ≤ 16 ∧ l = (s.cmd.orphans.filter fun x => x.1 == o.ep && x.2.2.2 == o.session).take n) ∧
    (∃ s : State, ∃ o : Origin, ∃ body : List Byte, ∃ n : Nat, mayDispatch s o = true ∧ body.length = 4 ∧ field body 0 1 = n ∧
      zeroAt body 1 3 = true ∧ (n = 0 ∨ 16 < n)) ∧
    (∃ s : State, ∃ o : Origin, ∃ body : List Byte, ∃ g : List Byte, mayDispatch s o = true ∧ body.length = 136 ∧ g = body.take 128 ∧
      (grantOk s o g = false ∨ (keyValid s = false ∧ o.ep = .line))) ∧
    (∃ s : State, ∃ o : Origin, mayDispatch s o = true ∧ openSession s o.session = none) ∧
    (∃ s : State, ∃ o : Origin, ∃ x, mayDispatch s o = true ∧ openSession s o.session = some x) ∧
    (∃ s : State, ∃ n : Fin 33, ∃ x : Session, openSession s n = some x ∧ rd Reg.CMD.SCFG.IDLE s ≠ 0) ∧
    (∃ s : State, ∃ n : Fin 33, ∃ x : Session, openSession s n = some x ∧ x.notAfter < lineNs s ∧ x.notAfter ≠ 2 ^ 64 - 1) ∧
    (∃ s : State, ∃ n : Fin 33, ∃ x : Session, openSession s n = some x ∧ lineNs s ≤ x.notAfter) ∧
    (∃ s : State, ∃ n : Fin 33, (rd Reg.CMD.SCFG.IDLE s = 0 ∨ openSession s n = none)) ∧
    (∃ s : State, ∃ n : Fin 33, openSession s n = none) :=
  ⟨⟨updCmd (fun z => { z with rspIn := [F (bd 16 [(2, 1, 63)])], relays := [(63, some (.cmd o0))] }) State.reset, F (bd 16 [(2, 1, 63)]), [],
     field (F (bd 16 [(2, 1, 63)])).bytes 2 1, o0, by decide +kernel⟩,
   ⟨updCmd (fun z => { z with rspIn := [F (bd 16 [(2, 1, 63)])], relays := [(63, some (.assign 3))] }) State.reset, F (bd 16 [(2, 1, 63)]), [],
     field (F (bd 16 [(2, 1, 63)])).bytes 2 1, 3, by decide +kernel⟩,
   ⟨updCmd (fun z => { z with rspIn := [F (bd 16 [(2, 1, 63)])], late := [63] }) State.reset, F (bd 16 [(2, 1, 63)]), [], field (F (bd 16 [(2, 1,
     63)])).bytes 2 1, by decide +kernel⟩,
   ⟨updCmd (fun z => { z with rspIn := [F (bd 16 [(2, 1, 63)])] }) State.reset, F (bd 16 [(2, 1, 63)]), [], field (F (bd 16 [(2, 1, 63)])).bytes 2 1,
     by decide +kernel⟩,
   ⟨S0, by decide +kernel⟩,
   ⟨updCmd (fun z => { z with rspIn := [F (bd 16 [(2, 1, 63)])], relays := [(63, some (.cmd o0))] }) State.reset, 63, o0, by decide +kernel⟩,
   ⟨updCmd (fun z => { z with rspIn := [F (bd 16 [(2, 1, 63)])], relays := [(63, some (.cmd o0))] }) State.reset, 0, by decide +kernel⟩,
   ⟨updCmd (fun z => { z with orphans := [(.host, 63, [], 0)] }) State.reset, .host, (.host, 63, [], 0), [], rfl⟩,
   ⟨updCmd (fun z => { z with orphans := [(.host, 63, [1, 2], 0)] }) State.reset, o0, bd (4) [(0, 1, (16 : Nat))], 16, [(.host, 63, [1, 2], 0)],
     by decide +kernel⟩,
   ⟨updCmd (fun z => { z with rspIn := [F (bd 16 [(2, 1, 63)])], relays := [(63, some (.cmd o0))] }) State.reset, o0, bd (4) [(0, 1, (17 : Nat))],
     17, by decide +kernel⟩,
   ⟨S0, o0, bd 136 [], (bd 136 []).take 128, by decide +kernel⟩,
   ⟨State.reset, { o0 with session := 33 }, by decide +kernel⟩,
   ⟨updCmd (fun z => { z with sessions := [s0] }) State.reset, { o0 with session := 32 }, s0, by decide +kernel⟩,
   ⟨R [(Reg.CMD.SCFG.IDLE, 1)] (updCmd (fun z => { z with sessions := [s0] }) State.reset), 32, s0, by decide +kernel⟩,
   ⟨{ (updCmd (fun z => { z with sessions := [{ s0 with notAfter := 0 }] }) State.reset) with lt := 2 ^ 32 }, 32, { s0 with notAfter := 0 },
     by decide +kernel⟩,
   ⟨{ (updCmd (fun z => { z with sessions := [{ s0 with notAfter := 1 }] }) State.reset) with lt := 2 ^ 32 }, 32, { s0 with notAfter := 1 },
     by decide +kernel⟩,
   ⟨State.reset, 32, by decide +kernel⟩,
   ⟨State.reset, 32, by decide +kernel⟩⟩

/-- A witness where the signature is good: Config.ed25519 has no body (notes/assumptions/8). -/
theorem test_hyps_SessionsOpenAndEnd_1 (hv : ∀ pub sig m, Config.ed25519 pub sig m = true) :
    ∃ s : State, ∃ o : Origin, ∃ body : List Byte, ∃ g : List Byte, grantOk s o g = true ∧ (∀ k, 0 < k → k ≤ 32 → ∃ x, x ∈ s.cmd.sessions ∧
      x.num = k ∧ x.ended = false) ∧ mayDispatch s o = true ∧ body.length = 136 ∧ g = body.take 128 ∧ keyValid s = true :=
  ⟨Gs ((List.range 32).map fun k => { s0 with num := k + 1 }), o0, grant0, (grant0).take 128, grant0_ok hv,
    (fun k h0 h1 => ⟨{ s0 with num := k }, List.mem_map.2 ⟨k - 1, List.mem_range.2 (by omega), by rw [Nat.sub_add_cancel h0]⟩, rfl, rfl⟩),
    by decide +kernel⟩

/-- A witness where the signature is good: Config.ed25519 has no body (notes/assumptions/8). -/
theorem test_hyps_SessionsOpenAndEnd_2 (hv : ∀ pub sig m, Config.ed25519 pub sig m = true) :
    ∃ s : State, ∃ o : Origin, ∃ body : List Byte, ∃ g : List Byte, ∃ n, grantOk s o g = true ∧ (∀ x, x ∈ s.cmd.sessions → x.num ≠ n) ∧ (∀ k,
      0 < k → k < n → ∃ x, x ∈ s.cmd.sessions ∧ x.num = k ∧ x.ended = false) ∧ mayDispatch s o = true ∧ body.length = 136 ∧ g = body.take 128 ∧
      keyValid s = true ∧ 0 < n ∧ n ≤ 32 :=
  ⟨Gs ((List.range 31).map fun k => { s0 with num := k + 1 }), o0, grant0, (grant0).take 128, 32, grant0_ok hv,
    (fun x hx => by obtain ⟨k, hk, rfl⟩ := List.mem_map.1 hx; have := List.mem_range.1 hk; simp only; omega),
    (fun k h0 h1 => ⟨{ s0 with num := k }, List.mem_map.2 ⟨k - 1, List.mem_range.2 (by omega), by rw [Nat.sub_add_cancel h0]⟩, rfl, rfl⟩),
    by decide +kernel⟩

theorem test_hyps_TypeCPortsAttachAndEnterDp :
    (∃ t : Fin 8, ∃ s : State, TcReady t s ∧ rdB (Reg.TCP.CFG.EN t) s = true ∧ (tcState s t = 1 ∨ tcState s t = 4) ∧ (ruleOf s t).action ≠ 2 ∧
      (tcp s t).warned = false) ∧
    (∃ t : Fin 8, ∃ s : State, TcReady t s ∧ rdB (Reg.TCP.CFG.EN t) s = true ∧ (tcState s t = 1 ∨ tcState s t = 4) ∧
      ((ruleOf s t).action = 2 ∨ (tcp s t).warned = true)) ∧
    (∃ t : Fin 8, ∃ s : State, TcReady t s ∧ (tcState s t = 2 ∨ tcState s t = 3)) ∧
    (∃ t : Fin 8, ∃ s : State, TcReady t s ∧ (tcp s t).vbusOn = false) ∧
    (∃ t : Fin 8, ∃ s : State, TcReady t s ∧ (tcState s t = 2 ∨ tcState s t = 3) ∧ (tcp s t).vbusOn = false ∧ (tcp s t).vbusSafe = true) ∧
    (∃ t : Fin 8, ∃ s : State, ∃ l, TcReady t s ∧ (tcp s t).vbusOn = true ∧ tcState s t = 3 ∧
      l = s.now :: ((tcp s t).trips.filter fun x => s.now < x + 60000000000)) ∧
    (∃ t : Fin 8, ∃ s : State, TcReady t s ∧ (tcp s t).vbusOn = true ∧ tcState s t = 3) ∧
    (∃ t : Fin 8, ∃ s : State, TcReady t s ∧ accStat s (Reg.TCP.CFG.word t).addr = ST_OK) ∧
    (∃ t : Fin 8, ∃ s : State, TcReady t s ∧ (tcp s t).sinkAdj = true) ∧
    (∃ t : Fin 8, ∃ s : State, TcReady t s ∧ rdB (Reg.TCP.VCONN.ON t) s = true) ∧
    (∃ t : Fin 8, ∃ s : State, TcReady t s ∧ rdB (Reg.TCP.CFG.EN t) s = true ∧ tcState s t = 5 ∧ (tcp s t).cc = none) ∧
    (∃ t : Fin 8, ∃ s : State, TcReady t s ∧ (tcp s t).warned = true ∧ rdB Reg.LPW.LSTAT.PWARN s = false ∧ rdB (Reg.TCP.CFG.EN t) s = true ∧
      tcState s t = 5 ∧ (tcp s t).cc = none) ∧
    (∃ t : Fin 8, ∃ s : State, TcReady t s ∧ rdB Reg.LPW.LSTAT.PWARN s = true) ∧
    (∃ t : Fin 8, ∃ s : State, TcReady t s ∧ (tcp s t).vbusOn = true ∧ peState s t = 6) ∧
    (∃ t : Fin 8, ∃ s : State, TcReady t s ∧ (tcp s t).vbusOn = true ∧ peState s t = 6 ∧ (tcp s t).tries < 20) ∧
    (∃ t : Fin 8, ∃ s : State, TcReady t s ∧ (tcp s t).vbusOn = true ∧ peState s t = 6 ∧ 20 ≤ (tcp s t).tries) ∧
    (∃ t : Fin 8, ∃ s : State, TcReady t s ∧ (tcp s t).vbusOn = true ∧ (tcp s t).alt = 1) ∧
    (∃ t : Fin 8, ∃ s : State, TcReady t s ∧ (tcp s t).vbusOn = true ∧ (tcp s t).alt = 2) ∧
    (∃ t : Fin 8, ∃ s : State, ∃ pins : BitVec 2, ∃ a, ∃ h, TcReady t s ∧ (tcp s t).vbusOn = true ∧ (tcp s t).alt = 3 ∧
      altEntry s t pins.toNat = some (a, h) ∧ h ≤ 1 ∧ headFree s h = true) ∧
    (∃ t : Fin 8, ∃ s : State, ∃ pins : BitVec 2, ∃ a, ∃ h, TcReady t s ∧ (tcp s t).vbusOn = true ∧ (tcp s t).alt = 3 ∧
      altEntry s t pins.toNat = some (a, h) ∧ h ≤ 1 ∧ headFree s h = false) ∧
    (∃ t : Fin 8, ∃ s : State, ∃ pins : BitVec 2, TcReady t s ∧ (tcp s t).vbusOn = true ∧ (tcp s t).alt = 3 ∧ altEntry s t pins.toNat = none) ∧
    (∃ t : Fin 8, ∃ s : State, TcReady t s ∧ (tcp s t).vbusOn = true ∧ (tcp s t).alt = 4) ∧
    (∃ t : Fin 8, ∃ s : State, TcReady t s ∧ (tcp s t).vbusOn = true ∧ (tcp s t).alt = 5) ∧
    (∃ t : Fin 8, ∃ s : State, TcReady t s ∧ (tcp s t).vbusOn = true ∧ (tcp s t).alt = 6) ∧
    (∃ t : Fin 8, ∃ s : State, TcReady t s ∧ (tcp s t).vbusOn = true ∧ 1 ≤ (tcp s t).alt ∧ (tcp s t).alt ≤ 5) :=
  ⟨⟨7, R [(Reg.TCP.STAT.TCSTATE 7, 1), (Reg.TCP.CFG.EN (7 : Fin 8), 1)] (Tu), tcReady_of (by decide +kernel) (by decide +kernel), by decide +kernel⟩,
   ⟨7, R [(Reg.TCP.STAT.TCSTATE 7, 4), (Reg.TCP.CFG.EN (7 : Fin 8),
     1)] ({ Tu with pdTables := [(1, { rules := [bd 16 [(0, 1, 8), (12, 1, 2), (13, 1, 2)]], alts := [] })] }),
     tcReady_of (by decide +kernel) (by decide +kernel), by decide +kernel⟩,
   ⟨7, R [(Reg.TCP.STAT.TCSTATE 7, 3)] (P 7 fun z => { z with vbusOn := true }), tcReady_of (by decide +kernel) (by decide +kernel),
     by decide +kernel⟩,
   ⟨7, Tu, tcReady_of (by decide +kernel) (by decide +kernel), by decide +kernel⟩,
   ⟨7, R [(Reg.TCP.STAT.TCSTATE 7, 2)] (P 7 fun z => { z with vbusSafe := true }), tcReady_of (by decide +kernel) (by decide +kernel),
     by decide +kernel⟩,
   ⟨7, R [(Reg.TCP.STAT.TCSTATE (7 : Fin 8), 3)] ({ (P 7 fun z => { z with vbusOn := true, trips := [60000000000, 5] }) with now := 120000000000 }),
     (R [(Reg.TCP.STAT.TCSTATE (7 : Fin 8),
     3)] ({ (P 7 fun z => { z with vbusOn := true, trips := [60000000000, 5] }) with now := 120000000000 })).now :: ((tcp (R [(Reg.TCP.STAT.TCSTATE (7 : Fin 8),
     3)] ({ (P 7 fun z => { z with vbusOn := true, trips := [60000000000, 5] }) with now := 120000000000 })) (7 : Fin 8)).trips.filter fun x => (R [(Reg.TCP.STAT.TCSTATE (7 : Fin 8),
     3)] ({ (P 7 fun z => { z with vbusOn := true, trips := [60000000000, 5] }) with now := 120000000000 })).now < x + 60000000000),
     tcReady_of (by decide +kernel) (by decide +kernel), by decide +kernel⟩,
   ⟨7, R [(Reg.TCP.STAT.TCSTATE (7 : Fin 8), 3)] (P 7 fun z => { z with vbusOn := true }), tcReady_of (by decide +kernel) (by decide +kernel),
     by decide +kernel⟩,
   ⟨7, Tu, tcReady_of (by decide +kernel) (by decide +kernel), by decide +kernel⟩,
   ⟨7, P 7 fun z => { z with sinkAdj := true }, tcReady_of (by decide +kernel) (by decide +kernel), by decide +kernel⟩,
   ⟨7, R [(Reg.TCP.VCONN.ON (7 : Fin 8), 1)] (Tu), tcReady_of (by decide +kernel) (by decide +kernel), by decide +kernel⟩,
   ⟨7, R [(Reg.TCP.CFG.EN (7 : Fin 8), 1), (Reg.TCP.STAT.TCSTATE (7 : Fin 8), 5)] (Tu), tcReady_of (by decide +kernel) (by decide +kernel),
     by decide +kernel⟩,
   ⟨7, R [(Reg.LPW.LSTAT.PWARN, 0), (Reg.TCP.CFG.EN (7 : Fin 8), 1), (Reg.TCP.STAT.TCSTATE (7 : Fin 8), 5)] (P 7 fun z => { z with warned := true }),
     tcReady_of (by decide +kernel) (by decide +kernel), by decide +kernel⟩,
   ⟨7, R [(Reg.LPW.LSTAT.PWARN, 1)] (P 7 fun z => { z with warned := true }), tcReady_of (by decide +kernel) (by decide +kernel), by decide +kernel⟩,
   ⟨7, R [(Reg.TCP.STAT.PE (7 : Fin 8), 6)] (P 7 fun z => { z with vbusOn := true }), tcReady_of (by decide +kernel) (by decide +kernel),
     by decide +kernel⟩,
   ⟨7, R [(Reg.TCP.STAT.PE (7 : Fin 8), 6)] (P 7 fun z => { z with vbusOn := true, tries := 19 }),
     tcReady_of (by decide +kernel) (by decide +kernel), by decide +kernel⟩,
   ⟨7, R [(Reg.TCP.STAT.PE (7 : Fin 8), 6)] (P 7 fun z => { z with vbusOn := true, tries := 20 }),
     tcReady_of (by decide +kernel) (by decide +kernel), by decide +kernel⟩,
   ⟨7, P 7 fun z => { z with vbusOn := true, alt := 1 }, tcReady_of (by decide +kernel) (by decide +kernel), by decide +kernel⟩,
   ⟨7, P 7 fun z => { z with vbusOn := true, alt := 2 }, tcReady_of (by decide +kernel) (by decide +kernel), by decide +kernel⟩,
   ⟨7, R [(Reg.DMX.ROUTE.OUT1,
     2)] ({ (P 7 fun z => { z with vbusOn := true, alt := 3 }) with pdTables := [(1, { rules := [], alts := [bd 8 [(0, 1, 0xFF), (3, 1, 3), (4, 1, 1)]] })] }),
     3, ((altEntry (R [(Reg.DMX.ROUTE.OUT1,
     2)] ({ (P 7 fun z => { z with vbusOn := true, alt := 3 }) with pdTables := [(1, { rules := [], alts := [bd 8 [(0, 1, 0xFF), (3, 1, 3), (4, 1, 1)]] })] })) (7 : Fin 8) (3 : BitVec 2).toNat).get (by decide +kernel)).1,
     ((altEntry (R [(Reg.DMX.ROUTE.OUT1,
     2)] ({ (P 7 fun z => { z with vbusOn := true, alt := 3 }) with pdTables := [(1, { rules := [], alts := [bd 8 [(0, 1, 0xFF), (3, 1, 3), (4, 1, 1)]] })] })) (7 : Fin 8) (3 : BitVec 2).toNat).get (by decide +kernel)).2,
     tcReady_of (by decide +kernel) (by decide +kernel), by decide +kernel⟩,
   ⟨7, R [(Reg.DMX.ROUTE.OUT1,
     0)] ({ (P 7 fun z => { z with vbusOn := true, alt := 3 }) with pdTables := [(1, { rules := [], alts := [bd 8 [(0, 1, 0xFF), (3, 1, 3), (4, 1, 1)]] })] }),
     3, ((altEntry (R [(Reg.DMX.ROUTE.OUT1,
     0)] ({ (P 7 fun z => { z with vbusOn := true, alt := 3 }) with pdTables := [(1, { rules := [], alts := [bd 8 [(0, 1, 0xFF), (3, 1, 3), (4, 1, 1)]] })] })) (7 : Fin 8) (3 : BitVec 2).toNat).get (by decide +kernel)).1,
     ((altEntry (R [(Reg.DMX.ROUTE.OUT1,
     0)] ({ (P 7 fun z => { z with vbusOn := true, alt := 3 }) with pdTables := [(1, { rules := [], alts := [bd 8 [(0, 1, 0xFF), (3, 1, 3), (4, 1, 1)]] })] })) (7 : Fin 8) (3 : BitVec 2).toNat).get (by decide +kernel)).2,
     tcReady_of (by decide +kernel) (by decide +kernel), by decide +kernel⟩,
   ⟨7, P 7 fun z => { z with vbusOn := true, alt := 3 }, 0, tcReady_of (by decide +kernel) (by decide +kernel), by decide +kernel⟩,
   ⟨7, P 7 fun z => { z with vbusOn := true, alt := 4 }, tcReady_of (by decide +kernel) (by decide +kernel), by decide +kernel⟩,
   ⟨7, P 7 fun z => { z with vbusOn := true, alt := 5, altPins := 1 }, tcReady_of (by decide +kernel) (by decide +kernel), by decide +kernel⟩,
   ⟨7, P 7 fun z => { z with vbusOn := true, alt := 6 }, tcReady_of (by decide +kernel) (by decide +kernel), by decide +kernel⟩,
   ⟨7, P 7 fun z => { z with vbusOn := true, alt := 5 }, tcReady_of (by decide +kernel) (by decide +kernel), by decide +kernel⟩⟩

theorem test_hyps_ContractsSinkAndPdCommands :
    (∃ t : Fin 8, ∃ s : State, TcReady t s ∧ peState s t = 1 ∧ hasContract s t = false ∧ (tcp s t).caps < 50) ∧
    (∃ t : Fin 8, ∃ s : State, TcReady t s ∧ peState s t = 1 ∧ hasContract s t = false ∧ 50 ≤ (tcp s t).caps) ∧
    (∃ t : Fin 8, ∃ s : State, ∃ pos : BitVec 4, ∃ iop : BitVec 10, ∃ v, ∃ i, TcReady t s ∧ (tcp s t).vbusOn = true ∧
      (peState s t = 1 ∨ peState s t = 2 ∨ peState s t = 4) ∧ 0 < pos.toNat ∧ (tcp s t).offer[pos.toNat - 1]? = some (v, i) ∧ iop.toNat ≤ i ∧
      (volts v * iop.toNat * 10 : Nat) ≤ availMw s t) ∧
    (∃ t : Fin 8, ∃ s : State, ∃ pos : BitVec 4, ∃ iop : BitVec 10, ∃ v, ∃ i, TcReady t s ∧ (tcp s t).vbusOn = true ∧
      (peState s t = 1 ∨ peState s t = 2 ∨ peState s t = 4) ∧ 0 < pos.toNat ∧ (tcp s t).offer[pos.toNat - 1]? = some (v, i) ∧ iop.toNat ≤ i ∧
      availMw s t < (volts v * iop.toNat * 10 : Nat) ∧ (volts v * iop.toNat * 10 : Nat) ≤ availMw s t + reclMw s t ∧ (tcp s t).waits < 2) ∧
    (∃ t : Fin 8, ∃ s : State, ∃ pos : BitVec 4, ∃ iop : BitVec 10, ∃ v, ∃ i, TcReady t s ∧ (tcp s t).vbusOn = true ∧
      (peState s t = 1 ∨ peState s t = 2 ∨ peState s t = 4) ∧ 0 < pos.toNat ∧ (tcp s t).offer[pos.toNat - 1]? = some (v, i) ∧ iop.toNat ≤ i ∧
      availMw s t + reclMw s t < (volts v * iop.toNat * 10 : Nat)) ∧
    (∃ t : Fin 8, ∃ s : State, ∃ pos : BitVec 4, TcReady t s ∧ (tcp s t).vbusOn = true ∧ (peState s t = 1 ∨ peState s t = 2 ∨ peState s t = 4) ∧
      (tcp s t).offer.length < pos.toNat) ∧
    (∃ t : Fin 8, ∃ s : State, TcReady t s ∧ tcState s t = 3 ∧ (tcp s t).awaiting = true) ∧
    (∃ t : Fin 8, ∃ s : State, TcReady t s ∧ tcState s t = 3 ∧ (tcp s t).swap = true) ∧
    (∃ t : Fin 8, ∃ s : State, TcReady t s ∧ peState s t = 3) ∧
    (∃ t : Fin 8, ∃ s : State, ∃ pos, ∃ v, ∃ i, TcReady t s ∧ (tcp s t).accepted = some (pos, v, i) ∧ (tcp s t).changing = true ∧ v < 4 ∧ i < 1024 ∧
      pos < 8 ∧ tcAttached s t = true) ∧
    (∃ t : Fin 8, ∃ s : State, TcReady t s ∧ (tcp s t).vbusOn = true ∧ offersPd s t = true) ∧
    (∃ t : Fin 8, ∃ s : State, TcReady t s ∧ (tcp s t).vbusOn = true ∧ offersPd s t = false) ∧
    (∃ t : Fin 8, ∃ s : State, TcReady t s ∧ (tcp s t).vbusOn = true) ∧
    (∃ t : Fin 8, ∃ s : State, TcReady t s ∧ (tcp s t).vbusOn = true ∧ (peState s t = 6 ∨ peState s t = 3)) ∧
    (∃ t : Fin 8, ∃ s : State, TcReady t s ∧ (tcp s t).vbusOn = true ∧ peState s t ≠ 6 ∧ peState s t ≠ 3 ∧ rdB (Reg.TCP.VCONN.SRC t) s = true) ∧
    (∃ t : Fin 8, ∃ s : State, TcReady t s ∧ (tcp s t).vbusOn = true ∧ peState s t ≠ 6 ∧ peState s t ≠ 3 ∧ rdB (Reg.TCP.VCONN.SRC t) s = false) ∧
    (∃ t : Fin 8, ∃ s : State, TcReady t s ∧ (tcp s t).vbusOn = true ∧ (tcp s t).swap = true) ∧
    (∃ s : State, ∃ pdos : List (Nat × Nat), ∃ k : Nat, ∃ v : Nat, ∃ i : Nat, (∀ j w x, pdos[j]? = some (w, x) → w ≤ 300 → w < v ∨ (w = v ∧ k ≤ j)) ∧
      svcAttached s = true ∧ pdos[k]? = some (v, i) ∧ v ≤ 300) ∧
    (∃ s : State, ∃ pos, ∃ v, ∃ i, svcAttached s = true ∧ s.svcSink.req = some (pos, v, i)) ∧
    (∃ s : State, ∃ pos, ∃ v, ∃ i, svcAttached s = true ∧ s.svcSink.req = some (pos, v, i) ∧ s.svcSink.tries < 10) ∧
    (∃ s : State, ∃ pos, ∃ v, ∃ i, svcAttached s = true ∧ s.svcSink.req = some (pos, v, i) ∧ 10 ≤ s.svcSink.tries) ∧
    (∃ s : State, ∃ pos, ∃ v, ∃ i, svcAttached s = true ∧ s.svcSink.req = some (pos, v, i) ∧ s.svcSink.accepted = false ∧ s.svcSink.tries < 10) ∧
    (∃ s : State, ∃ pos, ∃ v, ∃ i, svcAttached s = true ∧ s.svcSink.req = some (pos, v, i) ∧ s.svcSink.accepted = true ∧ v < 4 ∧ i < 1024) ∧
    (∃ s : State, svcAttached s = true ∧ s.svcSink.accepted = true) ∧
    (∃ s : State, svcAttached s = true) ∧
    (∃ s : State, svcAttached s = false) ∧
    (∃ s : State, ∃ die : Fin 2, accStat s (Reg.PDP.BUDGET.word die.val).addr = ST_OK ∧ tuWorks s die = true) ∧
    (∃ s : State, ∃ o : Origin, ∃ body : List Byte, ∃ t : Fin 8, mayDispatch s o = true ∧ body.length = 4 ∧ field body 0 1 = t.val ∧
      zeroAt body 1 3 = true ∧ dieStatus s (tuSlot (t / 4)) = ST_OK) ∧
    (∃ s : State, ∃ o : Origin, ∃ body : List Byte, ∃ t : Fin 8, TcReady t s ∧ mayDispatch s o = true ∧ body.length = 4 ∧ field body 0 1 = t.val ∧
      zeroAt body 2 2 = true ∧ dieStatus s (tuSlot (t / 4)) = ST_OK ∧ field body 1 1 = 0 ∧ rdB (Reg.TCP.CFG.EN t) s = true) ∧
    (∃ s : State, ∃ o : Origin, ∃ body : List Byte, ∃ t : Fin 8, TcReady t s ∧ mayDispatch s o = true ∧ body.length = 4 ∧ field body 0 1 = t.val ∧
      zeroAt body 2 2 = true ∧ dieStatus s (tuSlot (t / 4)) = ST_OK ∧ field body 1 1 = 3 ∧ (tcp s t).vbusOn = true ∧ tcState s t = 3) ∧
    (∃ s : State, ∃ o : Origin, ∃ body : List Byte, mayDispatch s o = true ∧ body.length = 4 ∧ (field body 0 1 = 2 ∨ field body 0 1 = 6) ∧
      field body 1 1 = 0 ∧ field body 2 2 ≤ 480 ∧ dieStatus s (field body 0 1) = ST_OK ∧ tuWorks s ((field body 0 1 - 2) / 4) = true) :=
  ⟨⟨7, R [(Reg.TCP.STAT.PE 7, 1), (Reg.TCP.STAT.PE (7 : Fin 8), 1)] (P 7 fun z => { z with caps := 49 }),
     tcReady_of (by decide +kernel) (by decide +kernel), by decide +kernel⟩,
   ⟨7, R [(Reg.TCP.STAT.PE 7, 1), (Reg.TCP.STAT.PE (7 : Fin 8), 1)] (P 7 fun z => { z with caps := 50 }),
     tcReady_of (by decide +kernel) (by decide +kernel), by decide +kernel⟩,
   ⟨7, R [(Reg.TCP.STAT.PE 7, 1)] (P 7 fun z => { z with vbusOn := true, offer := [(0, 300)] }), 1, 300, (((tcp (R [(Reg.TCP.STAT.PE 7,
     1)] (P 7 fun z => { z with vbusOn := true, offer := [(0, 300)] })) (7 : Fin 8)).offer[(1 : BitVec 4).toNat - 1]?).get (by decide +kernel)).1,
     (((tcp (R [(Reg.TCP.STAT.PE 7,
     1)] (P 7 fun z => { z with vbusOn := true, offer := [(0, 300)] })) (7 : Fin 8)).offer[(1 : BitVec 4).toNat - 1]?).get (by decide +kernel)).2,
     tcReady_of (by decide +kernel) (by decide +kernel), by decide +kernel⟩,
   ⟨7, R [(Reg.TCP.STAT.PE 7, 1), (Reg.PDP.BUDGET.BUDGET 1, 92), (Reg.TCP.CFG.EN 7, 1), (Reg.TCP.CFG.EN 6,
     1)] ({ (P 6 (fun z => { z with alloc := 20000 }) (P 7 fun z => { z with vbusOn := true, offer := [(1, 300)] })) with pdTables := [(1, { rules := [bd 16 [(0, 1, 8), (7, 1, 1), (13, 1, 2)], bd 16 [(0, 1, 7), (13, 1, 2)]], alts := [] })] }),
     1, 300, (((tcp (R [(Reg.TCP.STAT.PE 7, 1), (Reg.PDP.BUDGET.BUDGET 1, 92), (Reg.TCP.CFG.EN 7, 1), (Reg.TCP.CFG.EN 6,
     1)] ({ (P 6 (fun z => { z with alloc := 20000 }) (P 7 fun z => { z with vbusOn := true, offer := [(1, 300)] })) with pdTables := [(1, { rules := [bd 16 [(0, 1, 8), (7, 1, 1), (13, 1, 2)], bd 16 [(0, 1, 7), (13, 1, 2)]], alts := [] })] })) (7 : Fin 8)).offer[(1 : BitVec 4).toNat - 1]?).get (by decide +kernel)).1,
     (((tcp (R [(Reg.TCP.STAT.PE 7, 1), (Reg.PDP.BUDGET.BUDGET 1, 92), (Reg.TCP.CFG.EN 7, 1), (Reg.TCP.CFG.EN 6,
     1)] ({ (P 6 (fun z => { z with alloc := 20000 }) (P 7 fun z => { z with vbusOn := true, offer := [(1, 300)] })) with pdTables := [(1, { rules := [bd 16 [(0, 1, 8), (7, 1, 1), (13, 1, 2)], bd 16 [(0, 1, 7), (13, 1, 2)]], alts := [] })] })) (7 : Fin 8)).offer[(1 : BitVec 4).toNat - 1]?).get (by decide +kernel)).2,
     tcReady_of (by decide +kernel) (by decide +kernel), by decide +kernel⟩,
   ⟨7, R [(Reg.TCP.STAT.PE 7, 1)] (P 7 fun z => { z with vbusOn := true, offer := [(3, 1023)] }), 1, 1023, (((tcp (R [(Reg.TCP.STAT.PE 7,
     1)] (P 7 fun z => { z with vbusOn := true, offer := [(3, 1023)] })) (7 : Fin 8)).offer[(1 : BitVec 4).toNat - 1]?).get (by decide +kernel)).1,
     (((tcp (R [(Reg.TCP.STAT.PE 7,
     1)] (P 7 fun z => { z with vbusOn := true, offer := [(3, 1023)] })) (7 : Fin 8)).offer[(1 : BitVec 4).toNat - 1]?).get (by decide +kernel)).2,
     tcReady_of (by decide +kernel) (by decide +kernel), by decide +kernel⟩,
   ⟨7, R [(Reg.TCP.STAT.PE 7, 1)] (P 7 fun z => { z with vbusOn := true, offer := [(0, 300)] }), 15,
     tcReady_of (by decide +kernel) (by decide +kernel), by decide +kernel⟩,
   ⟨7, R [(Reg.TCP.STAT.PE 7, 1), (Reg.TCP.STAT.TCSTATE (7 : Fin 8), 3)] (P 7 fun z => { z with awaiting := true }),
     tcReady_of (by decide +kernel) (by decide +kernel), by decide +kernel⟩,
   ⟨7, R [(Reg.TCP.STAT.PE 7, 1), (Reg.TCP.STAT.TCSTATE (7 : Fin 8), 3)] (P 7 fun z => { z with swap := true }),
     tcReady_of (by decide +kernel) (by decide +kernel), by decide +kernel⟩,
   ⟨7, R [(Reg.TCP.STAT.PE 7, 1), (Reg.TCP.STAT.PE (7 : Fin 8), 3)] (P 7 fun z => { z with vbusOn := true, offer := [(0, 300)] }),
     tcReady_of (by decide +kernel) (by decide +kernel), by decide +kernel⟩,
   ⟨7, R [(Reg.TCP.STAT.TCSTATE 7, 3)] (P 7 fun z => { z with accepted := some (7, 3, 1023), changing := true }), 7, 3, 1023,
     tcReady_of (by decide +kernel) (by decide +kernel), by decide +kernel⟩,
   ⟨7, R [(Reg.TCP.STAT.PE 7, 1), (Reg.TCP.CFG.PD_EN 7,
     1)] ({ (P 7 fun z => { z with vbusOn := true }) with pdTables := [(1, { rules := [bd 16 [(0, 1, 8), (13, 1, 2)]], alts := [] })] }),
     tcReady_of (by decide +kernel) (by decide +kernel), by decide +kernel⟩,
   ⟨7, R [(Reg.TCP.CFG.PD_EN 7, 0)] (P 7 fun z => { z with vbusOn := true, offer := [(0, 300)] }),
     tcReady_of (by decide +kernel) (by decide +kernel), by decide +kernel⟩,
   ⟨7, R [(Reg.TCP.STAT.PE 7, 1)] (P 7 fun z => { z with vbusOn := true, offer := [(0, 300)] }), tcReady_of (by decide +kernel) (by decide +kernel),
     by decide +kernel⟩,
   ⟨7, R [(Reg.TCP.STAT.PE 7, 3)] (P 7 fun z => { z with vbusOn := true, offer := [(0, 300)] }), tcReady_of (by decide +kernel) (by decide +kernel),
     by decide +kernel⟩,
   ⟨7, R [(Reg.TCP.STAT.PE 7, 4), (Reg.TCP.VCONN.SRC (7 : Fin 8), 1)] (P 7 fun z => { z with vbusOn := true, offer := [(0, 300)] }),
     tcReady_of (by decide +kernel) (by decide +kernel), by decide +kernel⟩,
   ⟨7, R [(Reg.TCP.STAT.PE 7, 4), (Reg.TCP.VCONN.SRC (7 : Fin 8), 0)] (P 7 fun z => { z with vbusOn := true, offer := [(0, 300)] }),
     tcReady_of (by decide +kernel) (by decide +kernel), by decide +kernel⟩,
   ⟨7, R [(Reg.TCP.STAT.PE 7, 1)] (P 7 fun z => { z with vbusOn := true, swap := true }), tcReady_of (by decide +kernel) (by decide +kernel),
     by decide +kernel⟩,
   ⟨R [(Reg.SVC.PDSTAT.ATT, 1)] ({ S0 with svcSink := { SvcSink.reset with req := some (1, 3, 1023) } }), [(0, 100), (3, 50), (301, 7)], 1, 3, 50,
     (by rintro (_|_|_|j) w x h hw <;> simp at h <;> omega), by decide +kernel⟩,
   ⟨R [(Reg.SVC.PDSTAT.ATT, 1)] ({ S0 with svcSink := { SvcSink.reset with req := some (1, 3, 1023) } }), 1, 3, 1023, by decide +kernel⟩,
   ⟨R [(Reg.SVC.PDSTAT.ATT, 1)] ({ S0 with svcSink := { SvcSink.reset with req := some (1, 3, 1023) } }), 1, 3, 1023, by decide +kernel⟩,
   ⟨R [(Reg.SVC.PDSTAT.ATT, 1)] ({ S0 with svcSink := { SvcSink.reset with req := some (1, 3, 1023), tries := 10 } }), 1, 3, 1023, by decide +kernel⟩,
   ⟨R [(Reg.SVC.PDSTAT.ATT, 1)] ({ S0 with svcSink := { SvcSink.reset with req := some (1, 3, 1023) } }), 1, 3, 1023, by decide +kernel⟩,
   ⟨R [(Reg.SVC.PDSTAT.ATT, 1)] ({ S0 with svcSink := { SvcSink.reset with req := some (1, 3, 1023), accepted := true } }), 1, 3, 1023,
     by decide +kernel⟩,
   ⟨R [(Reg.SVC.PDSTAT.ATT, 1)] ({ S0 with svcSink := { SvcSink.reset with req := some (1, 3, 1023), accepted := true } }), by decide +kernel⟩,
   ⟨R [(Reg.SVC.PDSTAT.ATT, 1)] ({ S0 with svcSink := { SvcSink.reset with req := some (1, 3, 1023) } }), by decide +kernel⟩,
   ⟨{ S0 with svcSink := { SvcSink.reset with req := some (1, 3, 1023) } }, by decide +kernel⟩,
   ⟨R [(Reg.SVC.PDSTAT.ATT, 1)] (Tu), 1, by decide +kernel⟩,
   ⟨R [(Reg.SVC.PDSTAT.ATT, 1)] (Tu), o0, bd (4) [(0, 1, (7 : Fin 8).val)], 7, by decide +kernel⟩,
   ⟨R [(Reg.SVC.PDSTAT.ATT, 1), (Reg.TCP.CFG.EN (7 : Fin 8), 1)] (Tu), o0, bd (4) [(0, 1, (7 : Fin 8).val), (1, 1, 0)], 7,
     tcReady_of (by decide +kernel) (by decide +kernel), by decide +kernel⟩,
   ⟨R [(Reg.SVC.PDSTAT.ATT, 1), (Reg.TCP.STAT.TCSTATE (7 : Fin 8), 3)] (P 7 fun z => { z with vbusOn := true }), o0, bd (4) [(0, 1, (7 : Fin 8).val),
     (1, 1, 3)], 7, tcReady_of (by decide +kernel) (by decide +kernel), by decide +kernel⟩,
   ⟨R [(Reg.SVC.PDSTAT.ATT, 1)] (Tu), o0, bd 4 [(0, 1, 6), (2, 2, 480)], by decide +kernel⟩⟩

theorem test_hyps_TransfersDoorbellsAndHub :
    (∃ die : Fin 2, ∃ r : Fin 64, ∃ x : Ring, ∃ s : State, ∃ a, ∃ c, EventsApart s die ∧ ring s die r = x ∧ 0 < evFree s die ∧
      proxyRuns s die = true ∧ domSt s (0x10 + tuSlot die) = .inService ∧ dcmServes s 3 = true ∧ originHeld s (tuSlot die) = false ∧ x.st = 1 ∧
      x.ci ≠ x.pi_ ∧ x.cur = none ∧ 2 ≤ evFree s die ∧ a = x.base + 32 * (x.ci % 2 ^ x.lsize) ∧ c = readDesc s a x.ci ∧ descGood s die x a c = true ∧
      c.typ ≠ 4) ∧
    (∃ die : Fin 2, ∃ r : Fin 64, ∃ x : Ring, ∃ s : State, ∃ a, ∃ c, EventsApart s die ∧ ring s die r = x ∧ 0 < evFree s die ∧
      proxyRuns s die = true ∧ domSt s (0x10 + tuSlot die) = .inService ∧ dcmServes s 3 = true ∧ originHeld s (tuSlot die) = false ∧ x.st = 1 ∧
      x.ci ≠ x.pi_ ∧ x.cur = none ∧ 2 ≤ evFree s die ∧ a = x.base + 32 * (x.ci % 2 ^ x.lsize) ∧ c = readDesc s a x.ci ∧ descGood s die x a c = true ∧
      c.typ = 4) ∧
    (∃ die : Fin 2, ∃ r : Fin 64, ∃ x : Ring, ∃ s : State, ∃ a, ∃ c, EventsApart s die ∧ ring s die r = x ∧ 0 < evFree s die ∧
      proxyRuns s die = true ∧ domSt s (0x10 + tuSlot die) = .inService ∧ dcmServes s 3 = true ∧ originHeld s (tuSlot die) = false ∧ x.st = 1 ∧
      x.ci ≠ x.pi_ ∧ x.cur = none ∧ 2 ≤ evFree s die ∧ a = x.base + 32 * (x.ci % 2 ^ x.lsize) ∧ c = readDesc s a x.ci ∧ descGood s die x a c = false) ∧
    (∃ die : Fin 2, ∃ r : Fin 64, ∃ x : Ring, ∃ s : State, ∃ a, ∃ c, EventsApart s die ∧ ring s die r = x ∧ 0 < evFree s die ∧
      proxyRuns s die = true ∧ domSt s (0x10 + tuSlot die) = .inService ∧ dcmServes s 3 = true ∧ originHeld s (tuSlot die) = false ∧ x.st = 1 ∧
      x.ci ≠ x.pi_ ∧ x.cur = none ∧ 2 ≤ evFree s die ∧ a = x.base + 32 * (x.ci % 2 ^ x.lsize) ∧ c = readDesc s a x.ci) ∧
    (∃ die : Fin 2, ∃ r : Fin 64, ∃ x : Ring, ∃ s : State, EventsApart s die ∧ ring s die r = x ∧ 0 < evFree s die ∧
      (proxyRuns s die = false ∨ x.st ≠ 1 ∨ x.ci = x.pi_ ∨ x.cur ≠ none ∨ evFree s die < 2 ∨ originHeld s (tuSlot die) = true ∨ dcmServes s 3 = false)) ∧
    (∃ die : Fin 2, ∃ r : Fin 64, ∃ x : Ring, ∃ s : State, ∃ c, EventsApart s die ∧ ring s die r = x ∧ 0 < evFree s die ∧ x.cur = some c ∧
      c.waits = true) ∧
    (∃ die : Fin 2, ∃ r : Fin 64, ∃ x : Ring, ∃ s : State, ∃ c, EventsApart s die ∧ ring s die r = x ∧ 0 < evFree s die ∧ x.cur = some c ∧
      c.waits = true ∧ x.typ = 4 ∧ bit 3 c.flags = false) ∧
    (∃ die : Fin 2, ∃ r : Fin 64, ∃ x : Ring, ∃ s : State, ∃ c, ∃ n, ∃ a, EventsApart s die ∧ ring s die r = x ∧ 0 < evFree s die ∧ x.cur = some c ∧
      c.waits = false ∧ x.st = 1 ∧ dcmServes s 3 = true ∧ descIn x c = false ∧ x.dev = 0 ∧ x.typ = 1 ∧ c.typ = 1 ∧ hubRequest c.setup = some (n, a)) ∧
    (∃ die : Fin 2, ∃ r : Fin 64, ∃ x : Ring, ∃ s : State, ∃ c, EventsApart s die ∧ ring s die r = x ∧ 0 < evFree s die ∧ x.cur = some c ∧
      c.waits = false ∧ x.st = 1 ∧ dcmServes s 3 = true ∧ descIn x c = false ∧ (x.dev = 0 → hubRequest c.setup = none)) ∧
    (∃ die : Fin 2, ∃ r : Fin 64, ∃ x : Ring, ∃ s : State, ∃ c, ∃ code : Fin 10, EventsApart s die ∧ ring s die r = x ∧ 0 < evFree s die ∧
      x.cur = some c ∧ c.waits = false ∧ x.st = 1 ∧ dcmServes s 3 = true ∧ descIn x c = false ∧ ((2 ≤ code.val ∧ code.val ≤ 5) ∨ code.val = 8)) ∧
    (∃ die : Fin 2, ∃ r : Fin 64, ∃ x : Ring, ∃ s : State, ∃ c, EventsApart s die ∧ ring s die r = x ∧ 0 < evFree s die ∧ x.cur = some c ∧
      c.waits = false ∧ x.st = 1 ∧ dcmServes s 3 = true ∧ descIn x c = true ∧
      (c.buf + c.len ≤ (proxy s die).base ∨ (proxy s die).base + 0xA40 ≤ c.buf) ∧
      (c.buf + c.len ≤ (proxy s die).evBase ∨ (proxy s die).evBase + 32 * 2 ^ (proxy s die).evSize ≤ c.buf)) ∧
    (∃ die : Fin 2, ∃ r : Fin 64, ∃ x : Ring, ∃ s : State, EventsApart s die ∧ ring s die r = x ∧ 0 < evFree s die ∧ (proxy s die).unsaid = true) ∧
    (∃ die : Fin 2, ∃ r : Fin 64, ∃ x : Ring, ∃ s : State, EventsApart s die ∧ ring s die r = x ∧ 0 < evFree s die ∧ (proxy s die).unsaid = false) ∧
    (∃ s : State, ∃ t : Fin 8, ∃ speed : Fin 7, present s (tuSlot (t / 4)) = true ∧ bit 7 (rd (hubByte t) s) = true ∧ speed.val = 0) ∧
    (∃ s : State, ∃ t : Fin 8, ∃ speed : Fin 7, present s (tuSlot (t / 4)) = true ∧ bit 7 (rd (hubByte t) s) = false ∧ hubLive s t = true ∧
      0 < speed.val) ∧
    (∃ s : State, ∃ t : Fin 8, ∃ speed : Fin 7, present s (tuSlot (t / 4)) = true ∧ bit 7 (rd (hubByte t) s) = false ∧
      (hubLive s t = false ∨ speed.val = 0)) ∧
    (∃ s : State, ∃ die : Fin 2, ∃ v : Word, ∃ r : Nat, ∃ i : Nat, accStat s (Reg.USB.PRX_DB.word die.val).addr = ST_OK ∧ bits 22 16 v.toNat = r ∧
      v.toNat % 65536 = i ∧ proxyRuns s die = true ∧ r < 64 ∧ (ring s die r).st = 1 ∧
      Machine.ahead 65536 (ring s die r).ci i ≤ 2 ^ (ring s die r).lsize) ∧
    (∃ s : State, ∃ die : Fin 2, ∃ v : Word, ∃ r : Nat, ∃ i : Nat, EventsApart s die ∧ accStat s (Reg.USB.PRX_DB.word die.val).addr = ST_OK ∧
      bits 22 16 v.toNat = r ∧ v.toNat % 65536 = i ∧ proxyRuns s die = true ∧ r < 64 ∧ (ring s die r).st = 1 ∧
      2 ^ (ring s die r).lsize < Machine.ahead 65536 (ring s die r).ci i ∧ 0 < evFree s die) ∧
    (∃ s : State, ∃ die : Fin 2, ∃ v : Word, ∃ r : Nat, ∃ i : Nat, accStat s (Reg.USB.PRX_DB.word die.val).addr = ST_OK ∧ bits 22 16 v.toNat = r ∧
      v.toNat % 65536 = i ∧ proxyRuns s die = true ∧ r = 0x7F) ∧
    (∃ s : State, ∃ die : Fin 2, ∃ v : Word, ∃ r : Nat, ∃ i : Nat, accStat s (Reg.USB.PRX_DB.word die.val).addr = ST_OK ∧ bits 22 16 v.toNat = r ∧
      v.toNat % 65536 = i ∧ 63 < r ∧ r ≠ 0x7F) ∧
    (∃ s : State, ∃ die : Fin 2, ∃ v : Word, ∃ r : Nat, ∃ i : Nat, accStat s (Reg.USB.PRX_DB.word die.val).addr = ST_OK ∧ bits 22 16 v.toNat = r ∧
      v.toNat % 65536 = i ∧ proxyRuns s die = false ∧ r < 64) ∧
    (∃ s : State, ∃ die : Fin 2, ∃ f : Frame, ∃ u : State, takeFrame (4 + 8 * die.val) (isDoorbell die) s = some (f, u) ∧
      accStat u (Reg.USB.PRX_DB.word die.val).addr = ST_OK) ∧
    (∃ s : State, ∃ o : Origin, ∃ body : List Byte, ∃ t : Fin 8, mayDispatch s o = true ∧ body.length = 4 ∧ field body 0 1 = t.val ∧
      zeroAt body 2 2 = true ∧ dieStatus s (tuSlot (t / 4)) = ST_OK ∧ bit 7 (rd (hubByte t) s) = true ∧ field body 1 1 = 4 ∧
      bit 2 (rd (hubByte t) s) = false) ∧
    (∃ s : State, ∃ o : Origin, ∃ body : List Byte, ∃ t : Fin 8, mayDispatch s o = true ∧ body.length = 4 ∧ field body 0 1 = t.val ∧
      zeroAt body 2 2 = true ∧ dieStatus s (tuSlot (t / 4)) = ST_OK ∧ bit 7 (rd (hubByte t) s) = true ∧ field body 1 1 = 5 ∧
      bit 2 (rd (hubByte t) s) = true) ∧
    (∃ s : State, ∃ o : Origin, ∃ body : List Byte, ∃ t : Fin 8, mayDispatch s o = true ∧ body.length = 4 ∧ field body 0 1 = t.val ∧
      zeroAt body 2 2 = true ∧ dieStatus s (tuSlot (t / 4)) = ST_OK ∧ bit 7 (rd (hubByte t) s) = true ∧ field body 1 1 = 0) ∧
    (∃ s : State, ∃ o : Origin, ∃ body : List Byte, ∃ die : Fin 2, ∃ b, ∃ e, mayDispatch s o = true ∧ body.length = 4 ∧
      field body 0 1 = 2 + 4 * die.val ∧ field body 3 1 = 0 ∧ dieStatus s (tuSlot die) = ST_OK ∧ field body 1 1 = 0 ∧ proxyRuns s die = false ∧
      s1Up s = true ∧ domSt s (0x10 + tuSlot die) = .inService ∧ b = rd (Reg.USB.PRX_RBASE.BASE die.val) s * 4096 ∧ inRegion s 2 b 0xA40 = true ∧
      e = readRing s (b + 0x800) 0 ∧ 4 ≤ e.lsize ∧ e.lsize ≤ 12 ∧ e.base % 32 = 0 ∧ inRegion s 2 e.base (32 * 2 ^ e.lsize) = true) ∧
    (∃ s : State, ∃ o : Origin, ∃ body : List Byte, ∃ die : Fin 2, mayDispatch s o = true ∧ body.length = 4 ∧ field body 0 1 = 2 + 4 * die.val ∧
      field body 3 1 = 0 ∧ dieStatus s (tuSlot die) = ST_OK ∧ field body 1 1 = 0 ∧ proxyRuns s die = false ∧
      (s1Up s = false ∨ domSt s (0x10 + tuSlot die) ≠ .inService)) ∧
    (∃ s : State, ∃ o : Origin, ∃ body : List Byte, ∃ die : Fin 2, mayDispatch s o = true ∧ body.length = 4 ∧ field body 0 1 = 2 + 4 * die.val ∧
      field body 3 1 = 0 ∧ dieStatus s (tuSlot die) = ST_OK ∧ field body 1 1 = 1 ∧ proxyRuns s die = true) ∧
    (∃ s : State, ∃ o : Origin, ∃ body : List Byte, ∃ die : Fin 2, mayDispatch s o = true ∧ body.length = 4 ∧ field body 0 1 = 2 + 4 * die.val ∧
      field body 3 1 = 0 ∧ dieStatus s (tuSlot die) = ST_OK ∧ 2 ≤ field body 1 1 ∧ field body 1 1 ≤ 4 ∧ field body 2 1 < 64 ∧ proxyRuns s die = false) ∧
    (∃ s : State, ∃ o : Origin, ∃ body : List Byte, ∃ die : Fin 2, mayDispatch s o = true ∧ body.length = 4 ∧ field body 0 1 = 2 + 4 * die.val ∧
      field body 3 1 = 0 ∧ dieStatus s (tuSlot die) = ST_OK ∧ field body 1 1 = 4 ∧ field body 2 1 < 64 ∧ proxyRuns s die = true ∧
      (ring s die (field body 2 1)).st = 2) :=
  ⟨⟨1, 63, ring (Px rg0) (1 : Fin 2) (63 : Fin 64), Px rg0,
     (ring (Px rg0) (1 : Fin 2) (63 : Fin 64)).base + 32 * ((ring (Px rg0) (1 : Fin 2) (63 : Fin 64)).ci % 2 ^ (ring (Px rg0) (1 : Fin 2) (63 : Fin 64)).lsize),
     readDesc (Px rg0) ((ring (Px rg0) (1 : Fin 2) (63 : Fin 64)).base + 32 * ((ring (Px rg0) (1 : Fin 2) (63 : Fin 64)).ci % 2 ^ (ring (Px rg0) (1 : Fin 2) (63 : Fin 64)).lsize)) (ring (Px rg0) (1 : Fin 2) (63 : Fin 64)).ci,
     (by unfold EventsApart; decide +kernel), by decide +kernel⟩,
   ⟨1, 63, ring (Px { rg0 with ci := 15 } |> deepWrites 0x20F0 [4]) (1 : Fin 2) (63 : Fin 64), Px { rg0 with ci := 15 } |> deepWrites 0x20F0 [4],
     (ring (Px { rg0 with ci := 15 } |> deepWrites 0x20F0 [4]) (1 : Fin 2) (63 : Fin 64)).base + 32 * ((ring (Px { rg0 with ci := 15 } |> deepWrites 0x20F0 [4]) (1 : Fin 2) (63 : Fin 64)).ci % 2 ^ (ring (Px { rg0 with ci := 15 } |> deepWrites 0x20F0 [4]) (1 : Fin 2) (63 : Fin 64)).lsize),
     readDesc (Px { rg0 with ci := 15 } |> deepWrites 0x20F0 [4]) ((ring (Px { rg0 with ci := 15 } |> deepWrites 0x20F0 [4]) (1 : Fin 2) (63 : Fin 64)).base + 32 * ((ring (Px { rg0 with ci := 15 } |> deepWrites 0x20F0 [4]) (1 : Fin 2) (63 : Fin 64)).ci % 2 ^ (ring (Px { rg0 with ci := 15 } |> deepWrites 0x20F0 [4]) (1 : Fin 2) (63 : Fin 64)).lsize)) (ring (Px { rg0 with ci := 15 } |> deepWrites 0x20F0 [4]) (1 : Fin 2) (63 : Fin 64)).ci,
     (by unfold EventsApart; decide +kernel), by decide +kernel⟩,
   ⟨1, 63, ring (Px rg0 |> deepWrites 0x20F0 [3]) (1 : Fin 2) (63 : Fin 64), Px rg0 |> deepWrites 0x20F0 [3],
     (ring (Px rg0 |> deepWrites 0x20F0 [3]) (1 : Fin 2) (63 : Fin 64)).base + 32 * ((ring (Px rg0 |> deepWrites 0x20F0 [3]) (1 : Fin 2) (63 : Fin 64)).ci % 2 ^ (ring (Px rg0 |> deepWrites 0x20F0 [3]) (1 : Fin 2) (63 : Fin 64)).lsize),
     readDesc (Px rg0 |> deepWrites 0x20F0 [3]) ((ring (Px rg0 |> deepWrites 0x20F0 [3]) (1 : Fin 2) (63 : Fin 64)).base + 32 * ((ring (Px rg0 |> deepWrites 0x20F0 [3]) (1 : Fin 2) (63 : Fin 64)).ci % 2 ^ (ring (Px rg0 |> deepWrites 0x20F0 [3]) (1 : Fin 2) (63 : Fin 64)).lsize)) (ring (Px rg0 |> deepWrites 0x20F0 [3]) (1 : Fin 2) (63 : Fin 64)).ci,
     (by unfold EventsApart; decide +kernel), by decide +kernel⟩,
   ⟨1, 63, ring (Px rg0) (1 : Fin 2) (63 : Fin 64), Px rg0,
     (ring (Px rg0) (1 : Fin 2) (63 : Fin 64)).base + 32 * ((ring (Px rg0) (1 : Fin 2) (63 : Fin 64)).ci % 2 ^ (ring (Px rg0) (1 : Fin 2) (63 : Fin 64)).lsize),
     readDesc (Px rg0) ((ring (Px rg0) (1 : Fin 2) (63 : Fin 64)).base + 32 * ((ring (Px rg0) (1 : Fin 2) (63 : Fin 64)).ci % 2 ^ (ring (Px rg0) (1 : Fin 2) (63 : Fin 64)).lsize)) (ring (Px rg0) (1 : Fin 2) (63 : Fin 64)).ci,
     (by unfold EventsApart; decide +kernel), by decide +kernel⟩,
   ⟨1, 63, ring (Px { rg0 with pi_ := 15 }) (1 : Fin 2) (63 : Fin 64), Px { rg0 with pi_ := 15 }, (by unfold EventsApart; decide +kernel),
     by decide +kernel⟩,
   ⟨1, 63, ring (Px { rg0 with cur := some (de0 true 0) }) (1 : Fin 2) (63 : Fin 64), Px { rg0 with cur := some (de0 true 0) }, de0 true 0,
     (by unfold EventsApart; decide +kernel), by decide +kernel⟩,
   ⟨1, 63, ring (Px { rg0 with typ := 4, cur := some (de0 true 0) }) (1 : Fin 2) (63 : Fin 64), Px { rg0 with typ := 4, cur := some (de0 true 0) },
     de0 true 0, (by unfold EventsApart; decide +kernel), by decide +kernel⟩,
   ⟨1, 63,
     ring (Px { rg0 with typ := 1, dev := 0, cur := some { de0 false 0 with typ := 1, setup := [0x23, 3, 4, 0, 4, 0, 0, 0] } }) (1 : Fin 2) (63 : Fin 64),
     Px { rg0 with typ := 1, dev := 0, cur := some { de0 false 0 with typ := 1, setup := [0x23, 3, 4, 0, 4, 0, 0, 0] } },
     { de0 false 0 with typ := 1, setup := [0x23, 3, 4, 0, 4, 0, 0, 0] }, 3, 2, (by unfold EventsApart; decide +kernel), by decide +kernel⟩,
   ⟨1, 63, ring (Px { rg0 with ep := 1, cur := some (de0 false 0) }) (1 : Fin 2) (63 : Fin 64), Px { rg0 with ep := 1, cur := some (de0 false 0) },
     de0 false 0, (by unfold EventsApart; decide +kernel), by decide +kernel⟩,
   ⟨1, 63, ring (Px { rg0 with ep := 1, cur := some (de0 false 0) }) (1 : Fin 2) (63 : Fin 64), Px { rg0 with ep := 1, cur := some (de0 false 0) },
     de0 false 0, 8, (by unfold EventsApart; decide +kernel), by decide +kernel⟩,
   ⟨1, 63, ring (Px { rg0 with cur := some (de0 false 0) }) (1 : Fin 2) (63 : Fin 64), Px { rg0 with cur := some (de0 false 0) }, de0 false 0,
     (by unfold EventsApart; decide +kernel), by decide +kernel⟩,
   ⟨1, 63, ring (updProxy 1 (fun z => { z with unsaid := true }) (Px rg0)) (1 : Fin 2) (63 : Fin 64),
     updProxy 1 (fun z => { z with unsaid := true }) (Px rg0), (by unfold EventsApart; decide +kernel), by decide +kernel⟩,
   ⟨1, 63, ring (Px rg0) (1 : Fin 2) (63 : Fin 64), Px rg0, (by unfold EventsApart; decide +kernel), by decide +kernel⟩,
   ⟨R [(hubByte 7, 0x81)] (Px rg0), 7, 0, by decide +kernel⟩,
   ⟨R [(Reg.USB.HUBCFG.PEN 1, 8), (Reg.TCP.STAT.TCSTATE 7, 3)] (Px rg0), 7, 6, by decide +kernel⟩,
   ⟨Px rg0, 7, 6, by decide +kernel⟩,
   ⟨Px rg0, 1, 0x3F0017, 63, 0x17, by decide +kernel⟩,
   ⟨Px rg0, 1, 0x3F0018, 63, 0x18, (by unfold EventsApart; decide +kernel), by decide +kernel⟩,
   ⟨Px rg0, 1, 0x7F0005, 0x7F, 5, by decide +kernel⟩,
   ⟨Px rg0, 1, 0x400005, 0x40, 5, by decide +kernel⟩,
   ⟨S0, 1, 0x3F0018, 63, 0x18, by decide +kernel⟩,
   ⟨setInbox 12 [{ F (bd 8 [(0, 1, 2), (1, 1, 6), (2, 2, 0x17), (4, 1, 63)]) with typ := 5 }] (Px rg0), 1,
     ((takeFrame (4 + 8 * (1 : Fin 2).val) (isDoorbell (1 : Fin 2)) (setInbox 12 [{ F (bd 8 [(0, 1, 2), (1, 1, 6), (2, 2, 0x17), (4, 1, 63)]) with typ := 5 }] (Px rg0))).get (by decide +kernel)).1,
     ((takeFrame (4 + 8 * (1 : Fin 2).val) (isDoorbell (1 : Fin 2)) (setInbox 12 [{ F (bd 8 [(0, 1, 2), (1, 1, 6), (2, 2, 0x17), (4, 1, 63)]) with typ := 5 }] (Px rg0))).get (by decide +kernel)).2,
     rfl, by decide +kernel⟩,
   ⟨R [(hubByte 7, 0x82)] (Px rg0), o0, bd (4) [(0, 1, (7 : Fin 8).val), (1, 1, 4)], 7, by decide +kernel⟩,
   ⟨R [(hubByte 7, 0x86)] (Px rg0), o0, bd (4) [(0, 1, (7 : Fin 8).val), (1, 1, 5)], 7, by decide +kernel⟩,
   ⟨R [(hubByte 7, 0x82)] (Px rg0), o0, bd (4) [(0, 1, (7 : Fin 8).val), (1, 1, 0)], 7, by decide +kernel⟩,
   ⟨R [(Reg.USB.PRX_RBASE.BASE 1, 1), (Reg.USB.PRX_STAT.RUN 1, 0)] (deepWrites 0x1800 (leBytes 4 0x3000 ++ [12]) (Px rg0)), o0, bd (4) [(0, 1,
     2 + 4 * (1 : Fin 2).val), (3, 1, 0), (1, 1, 0)], 1, rd (Reg.USB.PRX_RBASE.BASE (1 : Fin 2).val) (R [(Reg.USB.PRX_RBASE.BASE 1, 1),
     (Reg.USB.PRX_STAT.RUN 1, 0)] (deepWrites 0x1800 (leBytes 4 0x3000 ++ [12]) (Px rg0))) * 4096, readRing (R [(Reg.USB.PRX_RBASE.BASE 1, 1),
     (Reg.USB.PRX_STAT.RUN 1,
     0)] (deepWrites 0x1800 (leBytes 4 0x3000 ++ [12]) (Px rg0))) ((rd (Reg.USB.PRX_RBASE.BASE (1 : Fin 2).val) (R [(Reg.USB.PRX_RBASE.BASE 1, 1),
     (Reg.USB.PRX_STAT.RUN 1, 0)] (deepWrites 0x1800 (leBytes 4 0x3000 ++ [12]) (Px rg0))) * 4096) + 0x800) 0, by decide +kernel⟩,
   ⟨R [(Reg.USB.PRX_STAT.RUN 1, 0)] (D 0x11 .quiesced (Px rg0)), o0, bd (4) [(0, 1, 2 + 4 * (1 : Fin 2).val), (3, 1, 0), (1, 1, 0)], 1,
     by decide +kernel⟩,
   ⟨Px rg0, o0, bd (4) [(0, 1, 2 + 4 * (1 : Fin 2).val), (3, 1, 0), (1, 1, 1)], 1, by decide +kernel⟩,
   ⟨R [(Reg.USB.PRX_STAT.RUN 1, 0)] (Px rg0), o0, bd 4 [(0, 1, 6), (1, 1, 4), (2, 1, 63)], 1, by decide +kernel⟩,
   ⟨Px { rg0 with st := 2 }, o0, bd 4 [(0, 1, 6), (1, 1, 4), (2, 1, 63)], 1, by decide +kernel⟩⟩

theorem test_hyps_TheServicePortServes :
    (∃ s : State, rdB Reg.SVC.CTRL.CONNECT s = false) ∧
    (∃ s : State, rdB Reg.SVC.CTRL.CONNECT s = true) ∧
    (∃ s : State, svcAttached s = false) ∧
    (∃ s : State, svcAttached s = true) ∧
    (∃ s : State, ∃ l, l = ((List.range 6).map fun e => (rd (Reg.SVC.EPBUF.BASE e) s, rd (Reg.SVC.EPBUF.SIZE e) s)) ∧
      (rdB Reg.SVC.CTRL.CONNECT s = true ∨ carveGood l = false)) ∧
    (∃ s : State, ∃ l, l = ((List.range 6).map fun e => (rd (Reg.SVC.EPBUF.BASE e) s, rd (Reg.SVC.EPBUF.SIZE e) s)) ∧
      rdB Reg.SVC.CTRL.CONNECT s = false ∧ carveGood l = true) ∧
    (∃ s : State, 2 ≤ bstate s ∧ bstate s ≤ 4) ∧
    (∃ s : State, bstate s = 5 ∧ s.svcDev.before < 8) ∧
    (∃ s : State, bstate s = 5 ∧ rdB Reg.SVC.STAT.RWE s = true ∧ rdB Reg.SVC.CTRL.RWAKE s = true ∧ t3Pending s = true) ∧
    (∃ s : State, (bstate s ≠ 5 ∨ rdB Reg.SVC.STAT.RWE s = false ∨ rdB Reg.SVC.CTRL.RWAKE s = false)) ∧
    (∃ s : State, bstate s ≠ 0) ∧
    (∃ s : State, (bstate s = 3 ∨ bstate s = 4)) ∧
    (∃ s : State, ∃ c : BitVec 8, (bstate s = 3 ∨ bstate s = 4) ∧ c ≠ 0 ∧ c ≠ 1) ∧
    (∃ s : State, ∃ value : BitVec 16, 2 ≤ bstate s ∧ bstate s ≤ 4 ∧ value.toNat < 128 ∧ bstate s ≠ 4) ∧
    (∃ s : State, ∃ value : BitVec 16, ∃ index : BitVec 16, 2 ≤ bstate s ∧ bstate s ≤ 4 ∧ value = 0 ∧ svcEndpoint index.toNat = true) ∧
    (∃ s : State, ∃ value : BitVec 16, ∃ l, 2 ≤ bstate s ∧ bstate s ≤ 4 ∧ getDescriptor s (value.toNat / 256) (value.toNat % 256) = some l) ∧
    (∃ s : State, ∃ bytes : List Byte, bstate s = 4 ∧ field bytes 0 1 / 16 = 2 ∧
      bytes.length ≤ 16 + field bytes 4 2 + (if bit 2 (field bytes 0 1) then 8 else 0)) ∧
    (∃ s : State, ∃ bytes : List Byte, bstate s = 4 ∧ field bytes 0 1 / 16 = 2 ∧
      16 + field bytes 4 2 + (if bit 2 (field bytes 0 1) then 8 else 0) < bytes.length) ∧
    (∃ s : State, ∃ r, ∃ l, takeFirst (fun r : Reply => r.att == .usb) s.cmd.replies = some (r, l) ∧ bstate s = 4) ∧
    (∃ s : State, bstate s = 4) ∧
    (∃ s : State, bstate s = 4 ∧ s.diag.ep5 = []) ∧
    (∃ s : State, ∃ e, ∃ l, bstate s = 4 ∧ s.diag.ep5 = e :: l) ∧
    (∃ s : State, ∃ r, ∃ l, bstate s = 4 ∧ ep2Replies s = r :: l) ∧
    (∃ s : State, ∃ n, bstate s = 4 ∧ n = (s.cmd.orphans.filter fun x => x.1 == .svc).length ∧ n < 65536) :=
  ⟨⟨R [(Reg.SVC.CTRL.CONNECT, 0)] (State.reset), by decide +kernel⟩,
   ⟨R [(Reg.SVC.CTRL.CONNECT, 1)] (State.reset), by decide +kernel⟩,
   ⟨State.reset, by decide +kernel⟩,
   ⟨R [(Reg.SVC.PDSTAT.ATT, 1)] (State.reset), by decide +kernel⟩,
   ⟨R [(Reg.SVC.CTRL.CONNECT, 1)] (State.reset), ((List.range 6).map fun e => (rd (Reg.SVC.EPBUF.BASE e) (R [(Reg.SVC.CTRL.CONNECT,
     1)] (State.reset)), rd (Reg.SVC.EPBUF.SIZE e) (R [(Reg.SVC.CTRL.CONNECT, 1)] (State.reset)))), by decide +kernel⟩,
   ⟨R [(Reg.SVC.EPBUF.BASE 0, 0), (Reg.SVC.EPBUF.SIZE 0, 8), (Reg.SVC.EPBUF.BASE 1, 8), (Reg.SVC.EPBUF.SIZE 1, 8), (Reg.SVC.EPBUF.BASE 2, 16),
     (Reg.SVC.EPBUF.SIZE 2, 8), (Reg.SVC.EPBUF.BASE 3, 24), (Reg.SVC.EPBUF.SIZE 3, 8), (Reg.SVC.EPBUF.BASE 4, 32), (Reg.SVC.EPBUF.SIZE 4, 8),
     (Reg.SVC.EPBUF.BASE 5, 40), (Reg.SVC.EPBUF.SIZE 5, 8), (Reg.SVC.CTRL.CONNECT, 0)] (State.reset),
     ((List.range 6).map fun e => (rd (Reg.SVC.EPBUF.BASE e) (R [(Reg.SVC.EPBUF.BASE 0, 0), (Reg.SVC.EPBUF.SIZE 0, 8), (Reg.SVC.EPBUF.BASE 1, 8),
     (Reg.SVC.EPBUF.SIZE 1, 8), (Reg.SVC.EPBUF.BASE 2, 16), (Reg.SVC.EPBUF.SIZE 2, 8), (Reg.SVC.EPBUF.BASE 3, 24), (Reg.SVC.EPBUF.SIZE 3, 8),
     (Reg.SVC.EPBUF.BASE 4, 32), (Reg.SVC.EPBUF.SIZE 4, 8), (Reg.SVC.EPBUF.BASE 5, 40), (Reg.SVC.EPBUF.SIZE 5, 8), (Reg.SVC.CTRL.CONNECT,
     0)] (State.reset)), rd (Reg.SVC.EPBUF.SIZE e) (R [(Reg.SVC.EPBUF.BASE 0, 0), (Reg.SVC.EPBUF.SIZE 0, 8), (Reg.SVC.EPBUF.BASE 1, 8),
     (Reg.SVC.EPBUF.SIZE 1, 8), (Reg.SVC.EPBUF.BASE 2, 16), (Reg.SVC.EPBUF.SIZE 2, 8), (Reg.SVC.EPBUF.BASE 3, 24), (Reg.SVC.EPBUF.SIZE 3, 8),
     (Reg.SVC.EPBUF.BASE 4, 32), (Reg.SVC.EPBUF.SIZE 4, 8), (Reg.SVC.EPBUF.BASE 5, 40), (Reg.SVC.EPBUF.SIZE 5, 8), (Reg.SVC.CTRL.CONNECT,
     0)] (State.reset)))), by decide +kernel⟩,
   ⟨R [(Reg.SVC.STAT.BSTATE, 4)] (State.reset), by decide +kernel⟩,
   ⟨R [(Reg.SVC.STAT.BSTATE, 5)] ({ S0 with svcDev := { SvcDev.reset with before := 4 } }), by decide +kernel⟩,
   ⟨R [(Reg.SVC.STAT.BSTATE, 5), (Reg.SVC.STAT.RWE, 1), (Reg.SVC.CTRL.RWAKE,
     1)] ({ (updCmd (fun z => { z with replies := [⟨.usb, .svc, 1, 0, bd 16 [], true⟩] }) S0) with svcDev := { SvcDev.reset with ep3 := [[1, 2, 3, 4]] } }),
     by decide +kernel⟩,
   ⟨R [(Reg.SVC.STAT.BSTATE, 4)] (State.reset), by decide +kernel⟩,
   ⟨R [(Reg.SVC.STAT.BSTATE, 7)] (State.reset), by decide +kernel⟩,
   ⟨R [(Reg.SVC.STAT.BSTATE, 4)] (State.reset), by decide +kernel⟩,
   ⟨R [(Reg.SVC.STAT.BSTATE, 4)] (State.reset), 255, by decide +kernel⟩,
   ⟨R [(Reg.SVC.STAT.BSTATE, 2)] (State.reset), 127, by decide +kernel⟩,
   ⟨R [(Reg.SVC.STAT.BSTATE, 4)] (State.reset), 0, 0x83, by decide +kernel⟩,
   ⟨R [(Reg.SVC.STAT.BSTATE, 4)] (State.reset), 0x100, ((getDescriptor (R [(Reg.SVC.STAT.BSTATE,
     4)] (State.reset)) ((0x100 : BitVec 16).toNat / 256) ((0x100 : BitVec 16).toNat % 256)).get (by decide +kernel)), by decide +kernel⟩,
   ⟨R [(Reg.SVC.STAT.BSTATE, 4)] (State.reset), bd 16 [(0, 1, 0x20), (1, 1, 8)], by decide +kernel⟩,
   ⟨R [(Reg.SVC.STAT.BSTATE, 4)] (State.reset), bd 17 [(0, 1, 0x20), (1, 1, 8)], by decide +kernel⟩,
   ⟨R [(Reg.SVC.STAT.BSTATE, 4)] (updCmd (fun z => { z with replies := [⟨.usb, .svc, 1, 0, bd 16 [], true⟩] }) S0), ⟨.usb, .svc, 1, 0, bd 16 [],
     true⟩, [], rfl, by decide +kernel⟩,
   ⟨R [(Reg.SVC.STAT.BSTATE, 4)] ({ S0 with svcDev := { SvcDev.reset with ep3 := [[1, 2, 3, 4]] } }), by decide +kernel⟩,
   ⟨R [(Reg.SVC.STAT.BSTATE, 4)] (State.reset), by decide +kernel⟩,
   ⟨R [(Reg.SVC.STAT.BSTATE, 4)] ({ S0 with diag := { S0.diag with ep5 := [x9] } }), x9, [], by decide +kernel⟩,
   ⟨R [(Reg.SVC.STAT.BSTATE, 4)] (updCmd (fun z => { z with replies := [⟨.usb, .svc, 1, 0, bd 16 [], true⟩] }) S0), ⟨.usb, .svc, 1, 0, bd 16 [],
     true⟩, [], by decide +kernel⟩,
   ⟨R [(Reg.SVC.STAT.BSTATE, 4)] (updCmd (fun z => { z with orphans := [(.svc, 63, [], 0)] }) State.reset), ((R [(Reg.SVC.STAT.BSTATE,
     4)] (updCmd (fun z => { z with orphans := [(.svc, 63, [], 0)] }) State.reset)).cmd.orphans.filter fun x => x.1 == .svc).length, by decide +kernel⟩⟩

theorem test_hyps_HeadsRunAndFlip :
    (∃ h : Fin 2, ∃ x : Head, ∃ s : State, head s h = x ∧ accStat s (Reg.DSP.CFG.word h.val).addr = ST_OK ∧ rdB (Reg.DSP.CFG.EN h.val) s = false ∧
      x.stopping = false ∧ s1Up s = false) ∧
    (∃ h : Fin 2, ∃ x : Head, ∃ s : State, ∃ cmd, ∃ ok, head s h = x ∧ accStat s (Reg.DSP.CFG.word h.val).addr = ST_OK ∧
      rdB (Reg.DSP.CFG.EN h.val) s = false ∧ x.stopping = false ∧ s1Up s = true ∧ cmd = rdB (Reg.DSP.CFG.CMD h.val) s ∧
      ok = (timingOk (timingRegs s h) && planesOk s h (pendingRegs s h) && outputOk s h (timingRegs s h) cmd)) ∧
    (∃ h : Fin 2, ∃ x : Head, ∃ s : State, head s h = x ∧ accStat s (Reg.DSP.CFG.word h.val).addr = ST_OK ∧ rdB (Reg.DSP.CFG.EN h.val) s = false ∧
      x.stopping = true) ∧
    (∃ h : Fin 2, ∃ x : Head, ∃ s : State, head s h = x ∧ accStat s (Reg.DSP.CFG.word h.val).addr = ST_OK ∧ rdB (Reg.DSP.CFG.EN h.val) s = true) ∧
    (∃ h : Fin 2, ∃ x : Head, ∃ s : State, head s h = x ∧ accStat s (Reg.DSP.CFG.word h.val).addr = ST_OK ∧
      (rdB (Reg.DSP.CFG.EN h.val) s = false ∨ planesOk s h (pendingRegs s h) = false)) ∧
    (∃ h : Fin 2, ∃ x : Head, ∃ s : State, head s h = x ∧ accStat s (Reg.DSP.CFG.word h.val).addr = ST_OK ∧ rdB (Reg.DSP.CFG.EN h.val) s = true ∧
      planesOk s h (pendingRegs s h) = true) ∧
    (∃ h : Fin 2, ∃ x : Head, ∃ s : State, head s h = x ∧ (x.stopping = true ∨ (x.running = true ∧ domSt s 0x15 = .quiescing))) ∧
    (∃ h : Fin 2, ∃ x : Head, ∃ s : State, head s h = x ∧ x.stopping = false ∧ x.running = false) ∧
    (∃ h : Fin 2, ∃ x : Head, ∃ s : State, head s h = x ∧ x.running = true ∧ x.cmdMode = false ∧ tvWorks s = true ∧
      rd (Reg.DSP.STAT.SSTATE h.val) s = 1) ∧
    (∃ h : Fin 2, ∃ x : Head, ∃ s : State, head s h = x ∧ waitsTe s h = true) ∧
    (∃ h : Fin 2, ∃ x : Head, ∃ s : State, head s h = x ∧ waitsTe s h = false) ∧
    (∃ o : Origin, ∃ body : List Byte, ∃ h : Fin 2, ∃ s : State, mayDispatch s o = true ∧ field body 0 1 = h.val ∧ dieStatus s 5 = ST_OK ∧
      body.length = 20 ∧ zeroAt body 2 2 = true ∧ bits 6 4 (field body 1 1) = 0 ∧ rdB (Reg.DSP.CFG.EN h.val) s = false) ∧
    (∃ o : Origin, ∃ body : List Byte, ∃ h : Fin 2, ∃ s : State, mayDispatch s o = true ∧ field body 0 1 = h.val ∧ dieStatus s 5 = ST_OK ∧
      body.length = 20 ∧ zeroAt body 2 2 = true ∧ rdB (Reg.DSP.CFG.EN h.val) s = true ∧ planesOk s h (pendingRegs s h) = true ∧ field body 1 1 = 0) ∧
    (∃ o : Origin, ∃ body : List Byte, ∃ h : Fin 2, ∃ s : State, mayDispatch s o = true ∧ field body 0 1 = h.val ∧ dieStatus s 5 = ST_OK ∧
      body.length = 20 ∧ zeroAt body 2 2 = true ∧ rdB (Reg.DSP.CFG.EN h.val) s = true ∧ planesOk s h (pendingRegs s h) = true ∧ field body 1 1 = 0x80) ∧
    (∃ o : Origin, ∃ body : List Byte, ∃ h : Fin 2, ∃ s : State, mayDispatch s o = true ∧ field body 0 1 = h.val ∧ dieStatus s 5 = ST_OK ∧
      body.length = 4 ∧ zeroAt body 1 3 = true) ∧
    (∃ o : Origin, ∃ body : List Byte, ∃ h : Fin 2, ∃ s : State, mayDispatch s o = true ∧ field body 0 1 = h.val ∧ dieStatus s 5 = ST_OK ∧
      body.length = 4 ∧ zeroAt body 2 2 = true ∧ s.timings.length ≤ field body 1 1) ∧
    (∃ o : Origin, ∃ body : List Byte, ∃ h : Fin 2, ∃ s : State, ∃ r, mayDispatch s o = true ∧ field body 0 1 = h.val ∧ dieStatus s 5 = ST_OK ∧
      body.length = 4 ∧ zeroAt body 2 2 = true ∧ s.timings[field body 1 1]? = some r ∧ rdB (Reg.DSP.CFG.EN h.val) s = true) ∧
    (∃ o : Origin, ∃ body : List Byte, ∃ h : Fin 2, ∃ s : State, ∃ r, mayDispatch s o = true ∧ field body 0 1 = h.val ∧ dieStatus s 5 = ST_OK ∧
      body.length = 4 ∧ zeroAt body 2 2 = true ∧ s.timings[field body 1 1]? = some r ∧ rdB (Reg.DSP.CFG.EN h.val) s = false) ∧
    (∃ o : Origin, ∃ body : List Byte, ∃ h : Fin 2, ∃ s : State, ∃ f : Frame, ∃ u : State,
      takeFrame 10 (fun f : Frame => f.typ == 6 && field f.bytes 0 1 == 1) s = some (f, u) ∧ mayDispatch s o = true ∧ field body 0 1 = h.val ∧
      dieStatus s 5 = ST_OK ∧ field f.bytes 1 1 = h.val ∧ field f.bytes 8 1 = 0 ∧ rdB (Reg.DSP.CFG.EN h.val) s = true ∧
      planesOk s h (pendingRegs s h) = true) ∧
    (∃ o : Origin, ∃ body : List Byte, ∃ h : Fin 2, ∃ s : State, ∃ f : Frame, ∃ u : State,
      takeFrame 10 (fun f : Frame => f.typ == 6 && field f.bytes 0 1 == 1) s = some (f, u) ∧ mayDispatch s o = true ∧ field body 0 1 = h.val ∧
      dieStatus s 5 = ST_OK ∧ field f.bytes 1 1 = h.val ∧ field f.bytes 8 1 = 0 ∧ rdB (Reg.DSP.CFG.EN h.val) s = false) :=
  ⟨⟨1, head (R [(Reg.DSP.CFG.EN (1 : Fin 2).val, 0)] (S0)) (1 : Fin 2), R [(Reg.DSP.CFG.EN (1 : Fin 2).val, 0)] (S0), by decide +kernel⟩,
   ⟨1, head (R [(Reg.DSP.CFG.EN (1 : Fin 2).val, 0)] (Hd id)) (1 : Fin 2), R [(Reg.DSP.CFG.EN (1 : Fin 2).val, 0)] (Hd id),
     rdB (Reg.DSP.CFG.CMD (1 : Fin 2).val) (R [(Reg.DSP.CFG.EN (1 : Fin 2).val, 0)] (Hd id)),
     (timingOk (timingRegs (R [(Reg.DSP.CFG.EN (1 : Fin 2).val, 0)] (Hd id)) (1 : Fin 2)) && planesOk (R [(Reg.DSP.CFG.EN (1 : Fin 2).val,
     0)] (Hd id)) (1 : Fin 2) (pendingRegs (R [(Reg.DSP.CFG.EN (1 : Fin 2).val,
     0)] (Hd id)) (1 : Fin 2)) && outputOk (R [(Reg.DSP.CFG.EN (1 : Fin 2).val,
     0)] (Hd id)) (1 : Fin 2) (timingRegs (R [(Reg.DSP.CFG.EN (1 : Fin 2).val,
     0)] (Hd id)) (1 : Fin 2)) (rdB (Reg.DSP.CFG.CMD (1 : Fin 2).val) (R [(Reg.DSP.CFG.EN (1 : Fin 2).val, 0)] (Hd id)))), by decide +kernel⟩,
   ⟨1, head (R [(Reg.DSP.CFG.EN (1 : Fin 2).val, 0)] (Hd fun z => { z with stopping := true })) (1 : Fin 2), R [(Reg.DSP.CFG.EN (1 : Fin 2).val,
     0)] (Hd fun z => { z with stopping := true }), by decide +kernel⟩,
   ⟨1, head (R [(Reg.DSP.CFG.EN (1 : Fin 2).val, 1)] (Hd id)) (1 : Fin 2), R [(Reg.DSP.CFG.EN (1 : Fin 2).val, 1)] (Hd id), by decide +kernel⟩,
   ⟨1, head (Hd id) (1 : Fin 2), Hd id, by decide +kernel⟩,
   ⟨1, head (R [(Reg.DSP.CFG.EN (1 : Fin 2).val, 1)] (Hd id)) (1 : Fin 2), R [(Reg.DSP.CFG.EN (1 : Fin 2).val, 1)] (Hd id), by decide +kernel⟩,
   ⟨1, head (Hd fun z => { z with stopping := true }) (1 : Fin 2), Hd fun z => { z with stopping := true }, by decide +kernel⟩,
   ⟨1, head (Hd id) (1 : Fin 2), Hd id, by decide +kernel⟩,
   ⟨1, head (R [(Reg.DSP.STAT.SSTATE (1 : Fin 2).val, 1)] (Hd fun z => { z with running := true })) (1 : Fin 2),
     R [(Reg.DSP.STAT.SSTATE (1 : Fin 2).val, 1)] (Hd fun z => { z with running := true }), by decide +kernel⟩,
   ⟨1, head (R [(Reg.DSP.STAT.SSTATE 1, 3), (Reg.DSP.STAT.FLIPPEND 1, 1)] (Hd fun z => { z with running := true, cmdMode := true })) (1 : Fin 2),
     R [(Reg.DSP.STAT.SSTATE 1, 3), (Reg.DSP.STAT.FLIPPEND 1, 1)] (Hd fun z => { z with running := true, cmdMode := true }), by decide +kernel⟩,
   ⟨1, head (Hd id) (1 : Fin 2), Hd id, by decide +kernel⟩,
   ⟨o0, bd (20) [(0, 1, (1 : Fin 2).val)], 1, Hd id, by decide +kernel⟩,
   ⟨o0, bd (20) [(0, 1, (1 : Fin 2).val), (1, 1, 0)], 1, R [(Reg.DSP.CFG.EN (1 : Fin 2).val, 1)] (Hd id), by decide +kernel⟩,
   ⟨o0, bd 20 [(0, 1, 1), (1, 1, 0x80)], 1, R [(Reg.DSP.CFG.EN (1 : Fin 2).val, 1)] (Hd id), by decide +kernel⟩,
   ⟨o0, bd (4) [(0, 1, (1 : Fin 2).val)], 1, Hd id, by decide +kernel⟩,
   ⟨o0, bd 4 [(0, 1, 1), (1, 1, 0)], 1, Hd id, by decide +kernel⟩,
   ⟨o0, bd 4 [(0, 1, 1)], 1, R [(Reg.DSP.CFG.EN (1 : Fin 2).val, 1)] ({ (Hd id) with timings := [List.replicate 9 5] }), List.replicate 9 5,
     by decide +kernel⟩,
   ⟨o0, bd 4 [(0, 1, 1)], 1, R [(Reg.DSP.CFG.EN (1 : Fin 2).val, 0)] ({ (Hd id) with timings := [List.replicate 9 5] }), List.replicate 9 5,
     by decide +kernel⟩,
   ⟨o0, bd (0) [(0, 1, (1 : Fin 2).val)], 1, R [(Reg.DSP.CFG.EN (1 : Fin 2).val,
     1)] (setInbox 10 [{ F (bd 28 [(0, 1, 1), (1, 1, 1)]) with typ := 6 }] (Hd id)),
     ((takeFrame 10 (fun f : Frame => f.typ == 6 && field f.bytes 0 1 == 1) (R [(Reg.DSP.CFG.EN (1 : Fin 2).val,
     1)] (setInbox 10 [{ F (bd 28 [(0, 1, 1), (1, 1, 1)]) with typ := 6 }] (Hd id)))).get (by decide +kernel)).1,
     ((takeFrame 10 (fun f : Frame => f.typ == 6 && field f.bytes 0 1 == 1) (R [(Reg.DSP.CFG.EN (1 : Fin 2).val,
     1)] (setInbox 10 [{ F (bd 28 [(0, 1, 1), (1, 1, 1)]) with typ := 6 }] (Hd id)))).get (by decide +kernel)).2, rfl, by decide +kernel⟩,
   ⟨o0, bd (0) [(0, 1, (1 : Fin 2).val)], 1, R [(Reg.DSP.CFG.EN (1 : Fin 2).val,
     0)] (setInbox 10 [{ F (bd 28 [(0, 1, 1), (1, 1, 1)]) with typ := 6 }] (Hd id)),
     ((takeFrame 10 (fun f : Frame => f.typ == 6 && field f.bytes 0 1 == 1) (R [(Reg.DSP.CFG.EN (1 : Fin 2).val,
     0)] (setInbox 10 [{ F (bd 28 [(0, 1, 1), (1, 1, 1)]) with typ := 6 }] (Hd id)))).get (by decide +kernel)).1,
     ((takeFrame 10 (fun f : Frame => f.typ == 6 && field f.bytes 0 1 == 1) (R [(Reg.DSP.CFG.EN (1 : Fin 2).val,
     0)] (setInbox 10 [{ F (bd 28 [(0, 1, 1), (1, 1, 1)]) with typ := 6 }] (Hd id)))).get (by decide +kernel)).2, rfl, by decide +kernel⟩⟩

theorem test_hyps_LinesAreFetchedAndPutOut :
    (∃ h : Fin 2, ∃ x : Head, ∃ s : State, ∃ l, ∃ ls, head s h = x ∧ tvWorks s = true ∧ dcmServes s 1 = true ∧ originHeld s 5 = false ∧
      linkState s 5 ≠ 4 ∧ x.asked = l :: ls) ∧
    (∃ h : Fin 2, ∃ x : Head, ∃ s : State, head s h = x ∧
      (tvWorks s = false ∨ dcmServes s 1 = false ∨ originHeld s 5 = true ∨ linkState s 5 = 4 ∨ x.asked = [])) ∧
    (∃ h : Fin 2, ∃ x : Head, ∃ s : State, ∃ l, head s h = x ∧ x.running = true ∧ tvWorks s = true ∧
      (rd (Reg.DSP.STAT.SSTATE h.val) s = 1 ∨ rd (Reg.DSP.STAT.SSTATE h.val) s = 2) ∧ (¬ (rd (Reg.DSP.STAT.SSTATE h.val) s = 1 ∧ x.fresh = false ∧
      rd (Reg.DSP.STAT.LINE h.val) s + 1 = tVACT x.timing)) ∧
      (l = (if x.fresh = true ∨ tVTOT x.timing ≤ rd (Reg.DSP.STAT.LINE h.val) s + 1 then 0 else rd (Reg.DSP.STAT.LINE h.val) s + 1))) ∧
    (∃ h : Fin 2, ∃ x : Head, ∃ s : State, head s h = x ∧ x.running = false) ∧
    (∃ h : Fin 2, ∃ x : Head, ∃ s : State, head s h = x) ∧
    (∃ h : Fin 2, ∃ x : Head, ∃ s : State, head s h = x ∧ accStat s Reg.DMX.ROUTE.word.addr = ST_OK ∧ headBusy s 0 = false ∧ headBusy s 1 = false) ∧
    (∃ h : Fin 2, ∃ x : Head, ∃ s : State, ∃ v : Word, head s h = x ∧ accStat s Reg.DMX.ROUTE.word.addr = ST_OK ∧ ((headBusy s 0 = true ∧
      Reg.DMX.ROUTE.OUT0.of v ≠ rd Reg.DMX.ROUTE.OUT0 s) ∨ (headBusy s 1 = true ∧ Reg.DMX.ROUTE.TUN1.of v ≠ rd Reg.DMX.ROUTE.TUN1 s))) ∧
    (∃ h : Fin 2, ∃ x : Head, ∃ s : State, ∃ t, head s h = x ∧ present s 5 = true ∧
      ((List.range 8).filter fun t => rdB (Reg.TCP.ALT.ACTIVE t) s && rd (Reg.TCP.ALT.HEAD t) s == 0).head? = some t) ∧
    (∃ h : Fin 2, ∃ x : Head, ∃ s : State, head s h = x ∧ present s 5 = true ∧ (∀ t, t < 8 → rdB (Reg.TCP.ALT.ACTIVE t) s = false)) :=
  ⟨⟨1, head (Hd fun z => { z with running := true, asked := [1079, 1080] }) (1 : Fin 2),
     Hd fun z => { z with running := true, asked := [1079, 1080] }, 1079, [1080], by decide +kernel⟩,
   ⟨1, head (Hd id) (1 : Fin 2), Hd id, by decide +kernel⟩,
   ⟨1, head (R [(Reg.DSP.STAT.SSTATE 1, 2)] (Hd fun z => { z with running := true, fresh := true })) (1 : Fin 2), R [(Reg.DSP.STAT.SSTATE 1,
     2)] (Hd fun z => { z with running := true, fresh := true }), 0, by decide +kernel⟩,
   ⟨1, head (Hd id) (1 : Fin 2), Hd id, by decide +kernel⟩,
   ⟨1, head (Hd id) (1 : Fin 2), Hd id, by decide +kernel⟩,
   ⟨1, head (Hd id) (1 : Fin 2), Hd id, by decide +kernel⟩,
   ⟨1, head (Hd fun z => { z with running := true }) (1 : Fin 2), Hd fun z => { z with running := true }, 0xFFFFFFFF, by decide +kernel⟩,
   ⟨1, head (R [(Reg.TCP.ALT.ACTIVE 7, 1), (Reg.TCP.ALT.HEAD 7, 0)] (Hd id)) (1 : Fin 2), R [(Reg.TCP.ALT.ACTIVE 7, 1), (Reg.TCP.ALT.HEAD 7,
     0)] (Hd id), ((((List.range 8).filter fun t => rdB (Reg.TCP.ALT.ACTIVE t) (R [(Reg.TCP.ALT.ACTIVE 7, 1), (Reg.TCP.ALT.HEAD 7,
     0)] (Hd id)) && rd (Reg.TCP.ALT.HEAD t) (R [(Reg.TCP.ALT.ACTIVE 7, 1), (Reg.TCP.ALT.HEAD 7, 0)] (Hd id)) == 0).head?).get (by decide +kernel)),
     by decide +kernel⟩,
   ⟨1, head (Hd id) (1 : Fin 2), Hd id, by decide +kernel⟩⟩

theorem test_hyps_EthernetFramesAndPorts :
    (∃ e : Fin 12, ∃ x : EthPort, ∃ s : State, eth s e = x ∧ (tnLives s e = false ∨ rdB (Reg.ETH.STAT.LINK e) s = false)) ∧
    (∃ e : Fin 12, ∃ x : EthPort, ∃ s : State, eth s e = x ∧ (x.egress = [] ∨ rxPaused s e = true)) ∧
    (∃ e : Fin 12, ∃ x : EthPort, ∃ s : State, eth s e = x ∧ tnLives s e = true ∧ rdB (Reg.ETH.STAT.LINK e) s = true) ∧
    (∃ e : Fin 12, ∃ x : EthPort, ∃ s : State, ∃ frame : List Byte, eth s e = x ∧ tnLives s e = true ∧ rdB (Reg.ETH.STAT.LINK e) s = true ∧
      (frame.length < 64 ∨ 9216 < frame.length ∨ fcsGood frame = false)) ∧
    (∃ e : Fin 12, ∃ x : EthPort, ∃ s : State, ∃ frame : List Byte, eth s e = x ∧ ethBuffer e < ethOcc s e + frame.length ∧ tnLives s e = true ∧
      rdB (Reg.ETH.STAT.LINK e) s = true ∧ 64 ≤ frame.length ∧ frame.length ≤ 9216 ∧ fcsGood frame = true) ∧
    (∃ e : Fin 12, ∃ x : EthPort, ∃ s : State, ∃ frame : List Byte, ∃ tag, ∃ tun, ∃ strip, eth s e = x ∧ tnLives s e = true ∧
      rdB (Reg.ETH.STAT.LINK e) s = true ∧ 64 ≤ frame.length ∧ frame.length ≤ 9216 ∧ fcsGood frame = true ∧ ethOcc s e + frame.length ≤ ethBuffer e ∧
      tag = outerTag (rdB (Reg.ETH.VLAN.SVLAN e) s) frame ∧ ((∃ m, mapFind s (e / 6) (e % 6) (tag.getD 0 % 4096) = some m ∧ tun = bits 25 12 m ∧
      strip = (if bit 30 m then tag else none)) ∨ (mapFind s (e / 6) (e % 6) (tag.getD 0 % 4096) = none ∧ tun = rd (Reg.ETH.VLAN.DTUN e) s ∧
      strip = none)) ∧ (tun = 0 ∨ isRepeater s = true)) ∧
    (∃ e : Fin 12, ∃ x : EthPort, ∃ s : State, ∃ frame : List Byte, ∃ tag, ∃ tun, ∃ strip, ∃ oe, eth s e = x ∧ tnLives s e = true ∧
      rdB (Reg.ETH.STAT.LINK e) s = true ∧ 64 ≤ frame.length ∧ frame.length ≤ 9216 ∧ fcsGood frame = true ∧ ethOcc s e + frame.length ≤ ethBuffer e ∧
      tag = outerTag (rdB (Reg.ETH.VLAN.SVLAN e) s) frame ∧ ((∃ m, mapFind s (e / 6) (e % 6) (tag.getD 0 % 4096) = some m ∧ tun = bits 25 12 m ∧
      strip = (if bit 30 m then tag else none)) ∨ (mapFind s (e / 6) (e % 6) (tag.getD 0 % 4096) = none ∧ tun = rd (Reg.ETH.VLAN.DTUN e) s ∧
      strip = none)) ∧ tun ≠ 0 ∧ slotWorks s (ethSlot e) = true ∧ originEntry s (ethSlot e) tun = some oe) ∧
    (∃ e : Fin 12, ∃ x : EthPort, ∃ s : State, ∃ f, ∃ rest, ∃ b, ∃ fcs, ((rd (Reg.ETH.TSCFG.MODE e) s = 0 ∨ ptpAt f.bytes = none) ∧
      b = f.bytes ∨ rd (Reg.ETH.TSCFG.MODE e) s ≠ 0 ∧ ∃ p u v6, ptpAt f.bytes = some (p, u, v6) ∧
      ptpEgress (rd (Reg.ETH.TSCFG.MODE e) s) (ethStamp s e) f p u v6 = some b) ∧ eth s e = x ∧ tnLives s e = true ∧
      rdB (Reg.ETH.STAT.LINK e) s = true ∧ x.egress = f :: rest ∧ rxPaused s e = false ∧
      fcs = (match f.fcs with | some c => if b = f.bytes then c else fcsOf b | none => fcsOf b)) ∧
    (∃ e : Fin 12, ∃ x : EthPort, ∃ s : State, ∃ f, ∃ rest, ∃ p, ∃ u, ∃ v6, eth s e = x ∧ tnLives s e = true ∧ rdB (Reg.ETH.STAT.LINK e) s = true ∧
      x.egress = f :: rest ∧ rxPaused s e = false ∧ rd (Reg.ETH.TSCFG.MODE e) s ≠ 0 ∧ ptpAt f.bytes = some (p, u, v6) ∧
      ptpEgress (rd (Reg.ETH.TSCFG.MODE e) s) (ethStamp s e) f p u v6 = none) ∧
    (∃ e : Fin 12, ∃ x : EthPort, ∃ s : State, ∃ spd : Fin 8, eth s e = x ∧ tnLives s e = true ∧ rdB (Reg.ETH.CFG.EN e) s = true ∧
      rdB (Reg.ETH.STAT.LINK e) s = false ∧ spdOk s e spd = true) ∧
    (∃ e : Fin 12, ∃ x : EthPort, ∃ s : State, ∃ spd : Fin 8, eth s e = x ∧ tnLives s e = true ∧ rdB (Reg.ETH.CFG.EN e) s = true ∧
      rdB (Reg.ETH.STAT.LINK e) s = false ∧ spdOk s e spd = false) ∧
    (∃ e : Fin 12, ∃ x : EthPort, ∃ s : State, eth s e = x ∧ rdB (Reg.ETH.STAT.LINK e) s = true) ∧
    (∃ e : Fin 12, ∃ x : EthPort, ∃ s : State, eth s e = x ∧ rdB (Reg.ETH.STAT.LINK e) s = false) ∧
    (∃ e : Fin 12, ∃ x : EthPort, ∃ s : State, eth s e = x) ∧
    (∃ e : Fin 12, ∃ x : EthPort, ∃ s : State, ∃ r : EntryPoint, ∃ d : Fin 2, ∃ m : Word, ∃ i : Nat, eth s e = x ∧
      accStat s (Reg.ETM.VCTL.word d.val).addr = ST_OK ∧ staged s r (Reg.ETM.VMAP.word d.val) = m ∧ rd ((Reg.ETM.VSEL.INDEX d.val).mine r) s = i ∧
      (bits 29 27 m.toNat = 6 ∨ (bit 31 m.toNat = true ∧ bits 25 12 m.toNat = 0))) ∧
    (∃ e : Fin 12, ∃ x : EthPort, ∃ s : State, ∃ r : EntryPoint, ∃ d : Fin 2, ∃ m : Word, ∃ i : Nat, eth s e = x ∧
      accStat s (Reg.ETM.VCTL.word d.val).addr = ST_OK ∧ staged s r (Reg.ETM.VMAP.word d.val) = m ∧ rd ((Reg.ETM.VSEL.INDEX d.val).mine r) s = i ∧
      bits 29 27 m.toNat ≠ 6 ∧ (bit 31 m.toNat = false ∨ bits 25 12 m.toNat ≠ 0)) ∧
    (∃ e : Fin 12, ∃ x : EthPort, ∃ s : State, ∃ r : EntryPoint, ∃ d : Fin 2, ∃ m : Word, ∃ i : Nat, eth s e = x ∧
      accStat s (Reg.ETM.VCTL.word d.val).addr = ST_OK ∧ staged s r (Reg.ETM.VMAP.word d.val) = m ∧ rd ((Reg.ETM.VSEL.INDEX d.val).mine r) s = i) :=
  ⟨⟨5, eth (D 0x13 .inService (updEth 5 (fun z => { z with egress := [⟨bd 60 [], none, some 7⟩, ⟨[], none, none⟩] }) S0)) (5 : Fin 12),
     D 0x13 .inService (updEth 5 (fun z => { z with egress := [⟨bd 60 [], none, some 7⟩, ⟨[], none, none⟩] }) S0), by decide +kernel⟩,
   ⟨5, eth (D 0x13 .inService (updEth 5 (fun z => { z with egress := [⟨bd 60 [], none, some 7⟩], rxPause := 1 }) S0)) (5 : Fin 12),
     D 0x13 .inService (updEth 5 (fun z => { z with egress := [⟨bd 60 [], none, some 7⟩], rxPause := 1 }) S0), by decide +kernel⟩,
   ⟨5, eth (R [(Reg.ETH.STAT.SPD 5, 4), (Reg.ETH.STAT.LINK (5 : Fin 12),
     1)] (D 0x13 .inService (updEth 5 (fun z => { z with egress := [⟨bd 60 [], none, some 7⟩, ⟨[], none, none⟩] }) S0))) (5 : Fin 12),
     R [(Reg.ETH.STAT.SPD 5, 4), (Reg.ETH.STAT.LINK (5 : Fin 12),
     1)] (D 0x13 .inService (updEth 5 (fun z => { z with egress := [⟨bd 60 [], none, some 7⟩, ⟨[], none, none⟩] }) S0)), by decide +kernel⟩,
   ⟨5, eth (R [(Reg.ETH.STAT.LINK (5 : Fin 12),
     1)] (D 0x13 .inService (updEth 5 (fun z => { z with egress := [⟨bd 60 [], none, some 7⟩, ⟨[], none, none⟩] }) S0))) (5 : Fin 12),
     R [(Reg.ETH.STAT.LINK (5 : Fin 12),
     1)] (D 0x13 .inService (updEth 5 (fun z => { z with egress := [⟨bd 60 [], none, some 7⟩, ⟨[], none, none⟩] }) S0)),
     bd 60 [] ++ fcsOf (bd 60 []) |>.dropLast, by decide +kernel⟩,
   ⟨5, eth (ethFull bigBuf) (5 : Fin 12), ethFull bigBuf, bd 60 [] ++ fcsOf (bd 60 []), rfl, ethFull_full bigBuf_length, by decide +kernel⟩,
   ⟨5, eth (R [(Reg.ETH.STAT.LINK (5 : Fin 12),
     1)] (D 0x13 .inService (updEth 5 (fun z => { z with egress := [⟨bd 60 [], none, some 7⟩, ⟨[], none, none⟩] }) S0))) (5 : Fin 12),
     R [(Reg.ETH.STAT.LINK (5 : Fin 12),
     1)] (D 0x13 .inService (updEth 5 (fun z => { z with egress := [⟨bd 60 [], none, some 7⟩, ⟨[], none, none⟩] }) S0)), bd 60 [] ++ fcsOf (bd 60 []),
     outerTag (rdB (Reg.ETH.VLAN.SVLAN (5 : Fin 12)) (R [(Reg.ETH.STAT.LINK (5 : Fin 12),
     1)] (D 0x13 .inService (updEth 5 (fun z => { z with egress := [⟨bd 60 [], none, some 7⟩, ⟨[], none, none⟩] }) S0)))) (bd 60 [] ++ fcsOf (bd 60 [])),
     0, none, by decide +kernel⟩,
   ⟨5, eth (R [(Reg.ETM.CFG.EN 0, 1), (Reg.ETH.STAT.LINK (5 : Fin 12), 1)] (D 0x13 .inService (setMapper 3 [(9,
     2 ^ 63 + 3 * 2 ^ 60 + 3)] { S0 with etm := [(200, 0xEC009005)] }))) (5 : Fin 12), R [(Reg.ETM.CFG.EN 0, 1), (Reg.ETH.STAT.LINK (5 : Fin 12),
     1)] (D 0x13 .inService (setMapper 3 [(9, 2 ^ 63 + 3 * 2 ^ 60 + 3)] { S0 with etm := [(200, 0xEC009005)] })), bd 60 [(12, 2, 0x8100), (14, 2,
     5)] ++ fcsOf (bd 60 [(12, 2, 0x8100), (14, 2, 5)]), outerTag (rdB (Reg.ETH.VLAN.SVLAN (5 : Fin 12)) (R [(Reg.ETM.CFG.EN 0, 1),
     (Reg.ETH.STAT.LINK (5 : Fin 12), 1)] (D 0x13 .inService (setMapper 3 [(9,
     2 ^ 63 + 3 * 2 ^ 60 + 3)] { S0 with etm := [(200, 0xEC009005)] })))) (bd 60 [(12, 2, 0x8100), (14, 2, 5)] ++ fcsOf (bd 60 [(12, 2, 0x8100), (14,
     2, 5)])), 9, some 5, 2 ^ 63 + 3 * 2 ^ 60 + 3, by decide +kernel⟩,
   ⟨5, eth (R [(Reg.ETH.STAT.LINK (5 : Fin 12),
     1)] (D 0x13 .inService (updEth 5 (fun z => { z with egress := [⟨bd 60 [], none, some 7⟩, ⟨[], none, none⟩] }) S0))) (5 : Fin 12),
     R [(Reg.ETH.STAT.LINK (5 : Fin 12),
     1)] (D 0x13 .inService (updEth 5 (fun z => { z with egress := [⟨bd 60 [], none, some 7⟩, ⟨[], none, none⟩] }) S0)), (⟨bd 60 [], none,
     some 7⟩ : EthOut), [(⟨[], none, none⟩ : EthOut)], bd 60 [], (match ((⟨bd 60 [], none,
     some 7⟩ : EthOut)).fcs with | some c => if (bd 60 []) = ((⟨bd 60 [], none,
     some 7⟩ : EthOut)).bytes then c else fcsOf (bd 60 []) | none => fcsOf (bd 60 [])), Or.inl (by decide +kernel), by decide +kernel⟩,
   ⟨5, eth (R [(Reg.ETH.TSCFG.MODE 5, 3), (Reg.ETH.STAT.LINK (5 : Fin 12),
     1)] (D 0x13 .inService (updEth 5 (fun z => { z with egress := [⟨bd 60 [(12, 2, 0x88F7)], none, none⟩] }) S0))) (5 : Fin 12),
     R [(Reg.ETH.TSCFG.MODE 5, 3), (Reg.ETH.STAT.LINK (5 : Fin 12),
     1)] (D 0x13 .inService (updEth 5 (fun z => { z with egress := [⟨bd 60 [(12, 2, 0x88F7)], none, none⟩] }) S0)), (⟨bd 60 [(12, 2, 0x88F7)], none,
     none⟩ : EthOut), ([] : List EthOut), ((ptpAt ((⟨bd 60 [(12, 2, 0x88F7)], none, none⟩ : EthOut)).bytes).get (by decide +kernel)).1,
     ((ptpAt ((⟨bd 60 [(12, 2, 0x88F7)], none, none⟩ : EthOut)).bytes).get (by decide +kernel)).2.1, ((ptpAt ((⟨bd 60 [(12, 2, 0x88F7)], none,
     none⟩ : EthOut)).bytes).get (by decide +kernel)).2.2, by decide +kernel⟩,
   ⟨5, eth (R [(Reg.ETH.CFG.EN (5 : Fin 12), 1), (Reg.ETH.STAT.LINK (5 : Fin 12), 0)] (D 0x13 .inService S0)) (5 : Fin 12),
     R [(Reg.ETH.CFG.EN (5 : Fin 12), 1), (Reg.ETH.STAT.LINK (5 : Fin 12), 0)] (D 0x13 .inService S0), 4, by decide +kernel⟩,
   ⟨5, eth (R [(Reg.ETH.CFG.EN (5 : Fin 12), 1), (Reg.ETH.STAT.LINK (5 : Fin 12), 0)] (D 0x13 .inService S0)) (5 : Fin 12),
     R [(Reg.ETH.CFG.EN (5 : Fin 12), 1), (Reg.ETH.STAT.LINK (5 : Fin 12), 0)] (D 0x13 .inService S0), 7, by decide +kernel⟩,
   ⟨5, eth (R [(Reg.ETH.STAT.LINK (5 : Fin 12),
     1)] (D 0x13 .inService (updEth 5 (fun z => { z with egress := [⟨bd 60 [], none, some 7⟩], pausing := true, rxPause := 8 }) S0))) (5 : Fin 12),
     R [(Reg.ETH.STAT.LINK (5 : Fin 12),
     1)] (D 0x13 .inService (updEth 5 (fun z => { z with egress := [⟨bd 60 [], none, some 7⟩], pausing := true, rxPause := 8 }) S0)), by decide +kernel⟩,
   ⟨5, eth (R [(Reg.ETH.STAT.LINK (5 : Fin 12), 0)] (D 0x13 .inService S0)) (5 : Fin 12), R [(Reg.ETH.STAT.LINK (5 : Fin 12),
     0)] (D 0x13 .inService S0), by decide +kernel⟩,
   ⟨5, eth (R [(Reg.ETH.PAUSE.EN 5, 1), (Reg.ETH.STAT.LINK 5,
     1)] (D 0x13 .inService (updEth 5 (fun z => { z with pausing := true }) S0))) (5 : Fin 12), R [(Reg.ETH.PAUSE.EN 5, 1), (Reg.ETH.STAT.LINK 5,
     1)] (D 0x13 .inService (updEth 5 (fun z => { z with pausing := true }) S0)), by decide +kernel⟩,
   ⟨5, eth (regSet (regSet S0 ((Reg.ETM.VMAP.word 1).mine .host).addr 0xB4000000) ((Reg.ETM.VSEL.INDEX 1).mine .host).addr 255) (5 : Fin 12),
     regSet (regSet S0 ((Reg.ETM.VMAP.word 1).mine .host).addr 0xB4000000) ((Reg.ETM.VSEL.INDEX 1).mine .host).addr 255, .host, 1,
     staged (regSet (regSet S0 ((Reg.ETM.VMAP.word 1).mine .host).addr 0xB4000000) ((Reg.ETM.VSEL.INDEX 1).mine .host).addr 255) (.host) (Reg.ETM.VMAP.word (1 : Fin 2).val),
     255, by decide +kernel⟩,
   ⟨5, eth (regSet (regSet S0 ((Reg.ETM.VMAP.word 1).mine .host).addr 0xBC001005) ((Reg.ETM.VSEL.INDEX 1).mine .host).addr 255) (5 : Fin 12),
     regSet (regSet S0 ((Reg.ETM.VMAP.word 1).mine .host).addr 0xBC001005) ((Reg.ETM.VSEL.INDEX 1).mine .host).addr 255, .host, 1,
     staged (regSet (regSet S0 ((Reg.ETM.VMAP.word 1).mine .host).addr 0xBC001005) ((Reg.ETM.VSEL.INDEX 1).mine .host).addr 255) (.host) (Reg.ETM.VMAP.word (1 : Fin 2).val),
     255, by decide +kernel⟩,
   ⟨5, eth (regSet { S0 with etm := [(511, 0xEC009005)] } ((Reg.ETM.VSEL.INDEX 1).mine .host).addr 255) (5 : Fin 12),
     regSet { S0 with etm := [(511, 0xEC009005)] } ((Reg.ETM.VSEL.INDEX 1).mine .host).addr 255, .host, 1,
     staged (regSet { S0 with etm := [(511, 0xEC009005)] } ((Reg.ETM.VSEL.INDEX 1).mine .host).addr 255) (.host) (Reg.ETM.VMAP.word (1 : Fin 2).val),
     255, by decide +kernel⟩⟩

theorem test_hyps_EFusesSwitchTripAndCount :
    (∃ p : LPort, ∃ x : EFuse, ∃ s : State, efuse s p = x ∧ s.supplyHold = false ∧ efEn s p = true ∧ efUp s p = true) ∧
    (∃ p : LPort, ∃ x : EFuse, ∃ s : State, efuse s p = x ∧ s.supplyHold = false ∧ efEn s p = true ∧ efState s p = 2 ∧ x.seg = none) ∧
    (∃ p : LPort, ∃ x : EFuse, ∃ s : State, ∃ t0, efuse s p = x ∧ s.supplyHold = false ∧ efEn s p = false ∧ efState s p = 5 ∧ x.offAt = some t0 ∧
      s.now < t0 + offMin s) ∧
    (∃ p : LPort, ∃ x : EFuse, ∃ s : State, efuse s p = x ∧ s.supplyHold = false ∧ efEn s p = false ∧ efState s p = 0 ∧ efRole s p = 1 ∧
      (efAuto s p || x.onReq) = true ∧ rdB Reg.LPW.LSTAT.PWARN s = false ∧ rdB (Reg.LPW.PSTAT.FARSRC p) s = false ∧ rdB Reg.LPW.LSTAT.UVLO s = false) ∧
    (∃ p : LPort, ∃ x : EFuse, ∃ s : State, efuse s p = x ∧ s.supplyHold = false ∧ efState s 4 = 0 ∧ efEn s 4 = false ∧
      (efAuto s 4 || (efuse s 4).onReq) = true ∧ s.nurse.vonOk = true ∧ rdB Reg.LPW.LSTAT.UVLO s = false) ∧
    (∃ p : LPort, ∃ x : EFuse, ∃ s : State, efuse s p = x ∧ s.supplyHold = false ∧ efUp s 4 = true ∧ efEn s 4 = true) ∧
    (∃ p : LPort, ∃ x : EFuse, ∃ s : State, efuse s p = x ∧ s.supplyHold = false ∧ efRole s p ≠ 2 ∧ efState s p = 0) ∧
    (∃ p : LPort, ∃ x : EFuse, ∃ s : State, efuse s p = x ∧ s.supplyHold = false ∧ efRole s p = 2 ∧ efState s p = 7 ∧ x.offAt = none) ∧
    (∃ p : LPort, ∃ x : EFuse, ∃ s : State, efuse s p = x ∧ s.supplyHold = false ∧ efRole s p = 1 ∧ efUp s p = true) ∧
    (∃ p : LPort, ∃ x : EFuse, ∃ s : State, ∃ vp : Bool, ∃ lim : Bool, ∃ rs : BitVec 16, ∃ cs : BitVec 16, ∃ r : Nat, efuse s p = x ∧
      s.supplyHold = false ∧
      (r = (if vp then 5 else if lim = true ∨ rs.toNat < 2375 then 3 else if 2625 < rs.toNat then 2 else if 100 < cs.toNat then 4 else 1)) ∧
      efState s p = 2) ∧
    (∃ p : LPort, ∃ x : EFuse, ∃ s : State, ∃ vp : Bool, ∃ lim : Bool, ∃ rs : BitVec 16, ∃ cs : BitVec 16, ∃ r : Nat, efuse s p = x ∧
      s.supplyHold = false ∧
      (r = (if vp then 5 else if lim = true ∨ rs.toNat < 2375 then 3 else if 2625 < rs.toNat then 2 else if 100 < cs.toNat then 4 else 1)) ∧
      efState s p ≠ 2) ∧
    (∃ p : LPort, ∃ x : EFuse, ∃ s : State, efuse s p = x ∧ s.supplyHold = false ∧ x.retry = true ∧ efState s p = 0 ∧ rd Reg.LPW.QUAL.RETRY s ≠ 0 ∧
      efAuto s p = true) ∧
    (∃ p : LPort, ∃ x : EFuse, ∃ s : State, efuse s p = x ∧ s.supplyHold = false ∧
      (x.retry = false ∨ rd Reg.LPW.QUAL.RETRY s = 0 ∨ efAuto s p = false ∨ efState s p ≠ 0)) ∧
    (∃ p : LPort, ∃ x : EFuse, ∃ s : State, efuse s p = x ∧ s.supplyHold = false ∧ (efState s p = 4 ∧ x.mean < rd Reg.LPW.QUAL.IHOLD s)) ∧
    (∃ p : LPort, ∃ x : EFuse, ∃ s : State, efuse s p = x ∧ s.supplyHold = false ∧ (efState s p ≠ 4 ∨ rd Reg.LPW.QUAL.IHOLD s ≤ x.mean)) ∧
    (∃ f : Fin 5, ∃ x : EFuse, ∃ s : State, efuse s f = x ∧ s.supplyHold = false ∧ efState s f = 3) ∧
    (∃ f : Fin 5, ∃ x : EFuse, ∃ s : State, efuse s f = x ∧ s.supplyHold = false ∧ efState s f ≠ 3) ∧
    (∃ f : Fin 5, ∃ x : EFuse, ∃ s : State, efuse s f = x ∧ s.supplyHold = false ∧ efState s f = 1) ∧
    (∃ f : Fin 5, ∃ x : EFuse, ∃ s : State, efuse s f = x ∧ s.supplyHold = false ∧ efState s f ≠ 1) ∧
    (∃ f : Fin 5, ∃ x : EFuse, ∃ s : State, efuse s f = x ∧ s.supplyHold = false ∧ efState s f = 4 ∧ curveDue x = true) ∧
    (∃ f : Fin 5, ∃ x : EFuse, ∃ s : State, efuse s f = x ∧ s.supplyHold = false ∧ (efState s f ≠ 4 ∨ curveDue x = false)) ∧
    (∃ f : Fin 5, ∃ x : EFuse, ∃ s : State, efuse s f = x ∧ s.supplyHold = false ∧ efUp s f = true) ∧
    (∃ f : Fin 5, ∃ x : EFuse, ∃ s : State, efuse s f = x ∧ s.supplyHold = false ∧ efState s f = 5 ∧ rd (efCauseF f) s = 1 ∧
      x.tripAt = some (rd Reg.NRS.TICK.COUNT s)) ∧
    (∃ f : Fin 5, ∃ x : EFuse, ∃ s : State, efuse s f = x ∧ s.supplyHold = false ∧ efUp s f = false ∧ efState s f ≠ 5) ∧
    (∃ f : Fin 5, ∃ x : EFuse, ∃ s : State, ∃ p : LPort, efuse s f = x ∧ s.supplyHold = false ∧ p.val = f.val ∧ fetDue s p = true) ∧
    (∃ f : Fin 5, ∃ x : EFuse, ∃ s : State, ∃ p : LPort, efuse s f = x ∧ s.supplyHold = false ∧ p.val = f.val ∧ fetDue s p = false) ∧
    (∃ f : Fin 5, ∃ x : EFuse, ∃ s : State, ∃ cur : List Nat, ∃ c : List Nat, efuse s f = x ∧ s.supplyHold = false ∧
      c = cntNext x.curve x.cnt (cur.getD f 0)) :=
  ⟨⟨3, efuse (R [(Reg.LPW.PCFG.EN 3, 1), (Reg.LPW.PSTAT.STATE 3, 4)] (State.reset)) (3 : LPort), R [(Reg.LPW.PCFG.EN 3, 1), (Reg.LPW.PSTAT.STATE 3,
     4)] (State.reset), by decide +kernel⟩,
   ⟨3, efuse (R [(Reg.LPW.PCFG.EN 3, 1), (Reg.LPW.PSTAT.STATE 3, 2)] (State.reset)) (3 : LPort), R [(Reg.LPW.PCFG.EN 3, 1), (Reg.LPW.PSTAT.STATE 3,
     2)] (State.reset), by decide +kernel⟩,
   ⟨3, efuse (R [(Reg.LPW.PCFG.EN 3, 0), (Reg.LPW.PSTAT.STATE 3, 5)] (updEfuse 3 (fun z => { z with offAt := some 5 }) S0)) (3 : LPort),
     R [(Reg.LPW.PCFG.EN 3, 0), (Reg.LPW.PSTAT.STATE 3, 5)] (updEfuse 3 (fun z => { z with offAt := some 5 }) S0), 5, by decide +kernel⟩,
   ⟨3, efuse (R [(Reg.LPW.PSTAT.STATE 3, 0), (Reg.LPW.PCFG.EN 3, 0), (Reg.LPW.PCFG.AUTO 3, 1), (Reg.LPW.PCFG.ROLE 3, 1), (Reg.LPW.LSTAT.PWARN, 0),
     (Reg.LPW.PSTAT.FARSRC (3 : LPort), 0), (Reg.LPW.LSTAT.UVLO, 0)] (State.reset)) (3 : LPort), R [(Reg.LPW.PSTAT.STATE 3, 0), (Reg.LPW.PCFG.EN 3, 0),
     (Reg.LPW.PCFG.AUTO 3, 1), (Reg.LPW.PCFG.ROLE 3, 1), (Reg.LPW.LSTAT.PWARN, 0), (Reg.LPW.PSTAT.FARSRC (3 : LPort), 0), (Reg.LPW.LSTAT.UVLO,
     0)] (State.reset), by decide +kernel⟩,
   ⟨3, efuse (R [(Reg.LPW.LCFG.AUTO, 1), (Reg.LPW.LCFG.EN, 0), (Reg.LPW.LSTAT.UVLO,
     0)] ({ S0 with nurse := { S0.nurse with vonOk := true } })) (3 : LPort), R [(Reg.LPW.LCFG.AUTO, 1), (Reg.LPW.LCFG.EN, 0), (Reg.LPW.LSTAT.UVLO,
     0)] ({ S0 with nurse := { S0.nurse with vonOk := true } }), by decide +kernel⟩,
   ⟨3, efuse (R [(Reg.LPW.LCFG.EN, 1), (Reg.LPW.LSTAT.STATE, 3)] (State.reset)) (3 : LPort), R [(Reg.LPW.LCFG.EN, 1), (Reg.LPW.LSTAT.STATE,
     3)] (State.reset), by decide +kernel⟩,
   ⟨3, efuse (R [(Reg.LPW.PCFG.ROLE 3, 1), (Reg.LPW.PSTAT.STATE 3, 0)] (State.reset)) (3 : LPort), R [(Reg.LPW.PCFG.ROLE 3, 1),
     (Reg.LPW.PSTAT.STATE 3, 0)] (State.reset), by decide +kernel⟩,
   ⟨3, efuse (R [(Reg.LPW.PCFG.ROLE 3, 2), (Reg.LPW.PSTAT.STATE 3, 7)] (State.reset)) (3 : LPort), R [(Reg.LPW.PCFG.ROLE 3, 2),
     (Reg.LPW.PSTAT.STATE 3, 7)] (State.reset), by decide +kernel⟩,
   ⟨3, efuse (R [(Reg.LPW.PCFG.ROLE 3, 1), (Reg.LPW.PSTAT.STATE 3, 3)] (State.reset)) (3 : LPort), R [(Reg.LPW.PCFG.ROLE 3, 1),
     (Reg.LPW.PSTAT.STATE 3, 3)] (State.reset), by decide +kernel⟩,
   ⟨3, efuse (R [(Reg.LPW.PSTAT.STATE 3, 2)] (State.reset)) (3 : LPort), R [(Reg.LPW.PSTAT.STATE 3, 2)] (State.reset), false, false, 2375, 101, 4,
     by decide +kernel⟩,
   ⟨3, efuse (State.reset) (3 : LPort), State.reset, false, false, 2626, 100, 2, by decide +kernel⟩,
   ⟨3, efuse (R [(Reg.LPW.PSTAT.STATE 3, 0), (Reg.LPW.QUAL.RETRY, 1), (Reg.LPW.PCFG.AUTO 3, 1), (Reg.LPW.PCFG.ROLE 3, 1), (Reg.LPW.PCFG.EN 3,
     1)] (updEfuse 3 (fun z => { z with retry := true }) S0)) (3 : LPort), R [(Reg.LPW.PSTAT.STATE 3, 0), (Reg.LPW.QUAL.RETRY, 1),
     (Reg.LPW.PCFG.AUTO 3, 1), (Reg.LPW.PCFG.ROLE 3, 1), (Reg.LPW.PCFG.EN 3, 1)] (updEfuse 3 (fun z => { z with retry := true }) S0), by decide +kernel⟩,
   ⟨3, efuse (State.reset) (3 : LPort), State.reset, by decide +kernel⟩,
   ⟨3, efuse (R [(Reg.LPW.QUAL.IHOLD, 1), (Reg.LPW.PSTAT.STATE 3, 4)] (State.reset)) (3 : LPort), R [(Reg.LPW.QUAL.IHOLD, 1), (Reg.LPW.PSTAT.STATE 3,
     4)] (State.reset), by decide +kernel⟩,
   ⟨3, efuse (State.reset) (3 : LPort), State.reset, by decide +kernel⟩,
   ⟨3, efuse (R [(Reg.LPW.PSTAT.STATE 3, 3)] (State.reset)) (3 : Fin 5), R [(Reg.LPW.PSTAT.STATE 3, 3)] (State.reset), by decide +kernel⟩,
   ⟨3, efuse (State.reset) (3 : Fin 5), State.reset, by decide +kernel⟩,
   ⟨3, efuse (R [(Reg.LPW.PSTAT.STATE 3, 1)] (State.reset)) (3 : Fin 5), R [(Reg.LPW.PSTAT.STATE 3, 1)] (State.reset), by decide +kernel⟩,
   ⟨3, efuse (State.reset) (3 : Fin 5), State.reset, by decide +kernel⟩,
   ⟨3, efuse (R [(Reg.LPW.PSTAT.STATE 3, 4)] (updEfuse 3 (fun z => { z with curve := [0x00100002], cnt := [2] }) S0)) (3 : Fin 5),
     R [(Reg.LPW.PSTAT.STATE 3, 4)] (updEfuse 3 (fun z => { z with curve := [0x00100002], cnt := [2] }) S0), by decide +kernel⟩,
   ⟨3, efuse (State.reset) (3 : Fin 5), State.reset, by decide +kernel⟩,
   ⟨3, efuse (R [(Reg.LPW.PSTAT.STATE 3, 3)] (State.reset)) (3 : Fin 5), R [(Reg.LPW.PSTAT.STATE 3, 3)] (State.reset), by decide +kernel⟩,
   ⟨3, efuse (R [(Reg.LPW.PSTAT.STATE 3, 5), (Reg.LPW.PSTAT.CAUSE 3, 1), (Reg.NRS.TICK.COUNT, 0xFFFFFFFF), (efCauseF (3 : Fin 5),
     1)] (updEfuse 3 (fun z => { z with tripAt := some 0xFFFFFFFF }) S0)) (3 : Fin 5), R [(Reg.LPW.PSTAT.STATE 3, 5), (Reg.LPW.PSTAT.CAUSE 3, 1),
     (Reg.NRS.TICK.COUNT, 0xFFFFFFFF), (efCauseF (3 : Fin 5), 1)] (updEfuse 3 (fun z => { z with tripAt := some 0xFFFFFFFF }) S0), by decide +kernel⟩,
   ⟨3, efuse (State.reset) (3 : Fin 5), State.reset, by decide +kernel⟩,
   ⟨3, efuse (R [(Reg.LPW.PSTAT.STATE 3, 1), (Reg.LPW.PCFG.ROLE 3, 1)] (updEfuse 3 (fun z => { z with armed := true, above := 2 }) S0)) (3 : Fin 5),
     R [(Reg.LPW.PSTAT.STATE 3, 1), (Reg.LPW.PCFG.ROLE 3, 1)] (updEfuse 3 (fun z => { z with armed := true, above := 2 }) S0), 3, by decide +kernel⟩,
   ⟨3, efuse (State.reset) (3 : Fin 5), State.reset, 3, by decide +kernel⟩,
   ⟨3, efuse (R [(Reg.NRS.TICK.COUNT, 0xFFFFFFFF), (Reg.LPW.PSTAT.STATE 3,
     4)] (updEfuse 3 (fun z => { z with curve := [0x00100002], cnt := [1] }) S0)) (3 : Fin 5), R [(Reg.NRS.TICK.COUNT, 0xFFFFFFFF),
     (Reg.LPW.PSTAT.STATE 3, 4)] (updEfuse 3 (fun z => { z with curve := [0x00100002], cnt := [1] }) S0), [0, 0, 0, 100, 1],
     cntNext (efuse (R [(Reg.NRS.TICK.COUNT, 0xFFFFFFFF), (Reg.LPW.PSTAT.STATE 3,
     4)] (updEfuse 3 (fun z => { z with curve := [0x00100002], cnt := [1] }) S0)) (3 : Fin 5)).curve (efuse (R [(Reg.NRS.TICK.COUNT, 0xFFFFFFFF),
     (Reg.LPW.PSTAT.STATE 3, 4)] (updEfuse 3 (fun z => { z with curve := [0x00100002], cnt := [1] }) S0)) (3 : Fin 5)).cnt (([0, 0, 0, 100,
     1]).getD (3 : Fin 5) 0), by decide +kernel⟩⟩

theorem test_hyps_LinePowerWarnsAndObeys :
    (∃ s : State, s.supplyHold = true) ∧
    (∃ s : State, s.supplyHold = false) ∧
    (∃ s : State, s.supplyHold = false ∧ rdB Reg.LPW.LSTAT.PWARN s = true) ∧
    (∃ s : State, ∃ slope : Bool, s.supplyHold = false ∧ rdB Reg.LPW.LSTAT.PWARN s = false ∧ slope = true ∧ rd Reg.LPW.PWARN.SLOPE s = 0) ∧
    (∃ s : State, ∃ slope : Bool, s.supplyHold = false ∧ rdB Reg.LPW.LSTAT.PWARN s = false ∧ (slope = false ∨ rd Reg.LPW.PWARN.SLOPE s ≠ 0)) ∧
    (∃ s : State, s.supplyHold = false ∧ rdB Reg.LPW.LSTAT.PWARN s = false) ∧
    (∃ r : EntryPoint, ∃ s : State, ∃ c : Nat, ∃ l : List Word, rd (Reg.LPW.CSEL.CURVE.mine r) s = c ∧
      (List.range 8).map (fun k => staged s r (Reg.LPW.CPT.word k)) = l ∧ c < 5 ∧ curveOk c l = true) ∧
    (∃ r : EntryPoint, ∃ s : State, ∃ c : Nat, ∃ l : List Word, rd (Reg.LPW.CSEL.CURVE.mine r) s = c ∧
      (List.range 8).map (fun k => staged s r (Reg.LPW.CPT.word k)) = l ∧ (5 ≤ c ∨ curveOk c l = false)) ∧
    (∃ r : EntryPoint, ∃ s : State, ∃ c : Nat, ∃ l : List Word, rd (Reg.LPW.CSEL.CURVE.mine r) s = c ∧
      (List.range 8).map (fun k => staged s r (Reg.LPW.CPT.word k)) = l ∧ c < 5) ∧
    (∃ r : EntryPoint, ∃ s : State, ∃ c : Nat, ∃ l : List Word, rd (Reg.LPW.CSEL.CURVE.mine r) s = c ∧
      (List.range 8).map (fun k => staged s r (Reg.LPW.CPT.word k)) = l ∧ 5 ≤ c) ∧
    (∃ o : Origin, ∃ body : List Byte, ∃ f : Nat, ∃ s : State, mayDispatch s o = true ∧ field body 0 1 = f ∧ 4 < f ∧ body.length = 4) ∧
    (∃ o : Origin, ∃ body : List Byte, ∃ f : Nat, ∃ s : State, mayDispatch s o = true ∧ field body 0 1 = f ∧ 4 < f ∧ body.length = 36) ∧
    (∃ o : Origin, ∃ body : List Byte, ∃ f : Nat, ∃ s : State, mayDispatch s o = true ∧ field body 0 1 = f ∧ f < 4 ∧ efRole s f ≠ 1 ∧
      body.length = 4 ∧ zeroAt body 1 3 = true) ∧
    (∃ o : Origin, ∃ body : List Byte, ∃ f : Nat, ∃ s : State, mayDispatch s o = true ∧ field body 0 1 = f ∧ (f = 4 ∨ (f < 4 ∧ efRole s f = 1)) ∧
      body.length = 4 ∧ zeroAt body 2 2 = true ∧ field body 1 1 = 0 ∧ efUp s f = true) ∧
    (∃ o : Origin, ∃ body : List Byte, ∃ f : Nat, ∃ s : State, mayDispatch s o = true ∧ field body 0 1 = f ∧ (f = 4 ∨ (f < 4 ∧ efRole s f = 1)) ∧
      body.length = 4 ∧ zeroAt body 2 2 = true ∧ field body 1 1 = 1 ∧ efEn s f = false) ∧
    (∃ o : Origin, ∃ body : List Byte, ∃ f : Nat, ∃ s : State, mayDispatch s o = true ∧ field body 0 1 = f ∧ (f = 4 ∨ (f < 4 ∧ efRole s f = 1)) ∧
      body.length = 4 ∧ zeroAt body 2 2 = true ∧ field body 1 1 = 1 ∧ efEn s f = true ∧ (efState s f = 5 ∨ efState s f = 6)) ∧
    (∃ o : Origin, ∃ body : List Byte, ∃ f : Nat, ∃ s : State, mayDispatch s o = true ∧ field body 0 1 = f ∧ (f = 4 ∨ (f < 4 ∧ efRole s f = 1)) ∧
      body.length = 4 ∧ zeroAt body 2 2 = true ∧ field body 1 1 = 1 ∧ efEn s f = true ∧ efState s f = 0 ∧ f ≠ 4 ∧ rdB Reg.LPW.LSTAT.PWARN s = false ∧
      rdB (Reg.LPW.PSTAT.FARSRC f) s = false ∧ rdB Reg.LPW.LSTAT.UVLO s = false) ∧
    (∃ o : Origin, ∃ body : List Byte, ∃ f : Nat, ∃ s : State, ∃ t0, mayDispatch s o = true ∧ field body 0 1 = f ∧ (f = 4 ∨ (f < 4 ∧
      efRole s f = 1)) ∧ body.length = 4 ∧ zeroAt body 2 2 = true ∧ field body 1 1 = 2 ∧ efState s f = 5 ∧ (efuse s f).offAt = some t0 ∧
      s.now < t0 + offMin s) ∧
    (∃ o : Origin, ∃ body : List Byte, ∃ f : Nat, ∃ s : State, mayDispatch s o = true ∧ field body 0 1 = f ∧ (f = 4 ∨ (f < 4 ∧ efRole s f = 1)) ∧
      body.length = 4 ∧ zeroAt body 2 2 = true ∧ field body 1 1 = 3 ∧ vShort s ≤ (efuse s f).vout) ∧
    (∃ o : Origin, ∃ body : List Byte, ∃ f : Nat, ∃ s : State, ∃ t0, mayDispatch s o = true ∧ field body 0 1 = f ∧ (f = 4 ∨ (f < 4 ∧
      efRole s f = 1)) ∧ body.length = 4 ∧ zeroAt body 2 2 = true ∧ field body 1 1 = 3 ∧ (efuse s f).vout < vShort s ∧ efState s f = 6 ∧
      (efuse s f).offAt = some t0 ∧ s.now < t0 + offMin s) ∧
    (∃ o : Origin, ∃ body : List Byte, ∃ f : Nat, ∃ s : State, mayDispatch s o = true ∧ field body 0 1 = f ∧ (f = 4 ∨ (f < 4 ∧ efRole s f = 1)) ∧
      body.length = 4 ∧ zeroAt body 1 3 = true) ∧
    (∃ o : Origin, ∃ body : List Byte, ∃ f : Nat, ∃ s : State, ∃ l, mayDispatch s o = true ∧ field body 0 1 = f ∧ (f = 4 ∨ (f < 4 ∧
      efRole s f = 1)) ∧ body.length = 36 ∧ zeroAt body 2 2 = true ∧ l = (List.range 8).map (fun k => BitVec.ofNat 32 (field body (4 + 4 * k) 4)) ∧
      field body 1 1 = 0 ∧ curveOk f l = false) ∧
    (∃ o : Origin, ∃ body : List Byte, ∃ f : Nat, ∃ s : State, ∃ l, mayDispatch s o = true ∧ field body 0 1 = f ∧ (f = 4 ∨ (f < 4 ∧
      efRole s f = 1)) ∧ body.length = 36 ∧ zeroAt body 2 2 = true ∧ l = (List.range 8).map (fun k => BitVec.ofNat 32 (field body (4 + 4 * k) 4)) ∧
      field body 1 1 = 0 ∧ curveOk f l = true) ∧
    (∃ o : Origin, ∃ body : List Byte, ∃ f : Nat, ∃ s : State, ∃ l, mayDispatch s o = true ∧ field body 0 1 = f ∧ (f = 4 ∨ (f < 4 ∧
      efRole s f = 1)) ∧ body.length = 36 ∧ zeroAt body 2 2 = true ∧ l = (List.range 8).map (fun k => BitVec.ofNat 32 (field body (4 + 4 * k) 4)) ∧
      field body 1 1 = 1) ∧
    (∃ o : Origin, ∃ body : List Byte, ∃ f : Nat, ∃ s : State, mayDispatch s o = true ∧ field body 0 1 = f ∧ (f = 4 ∨ (f < 4 ∧ efRole s f = 1)) ∧
      f < 4 ∧ body.length = 4 ∧ zeroAt body 1 3 = true ∧ (efState s f ≠ 0 ∨ rdB Reg.LPW.LSTAT.PWARN s = true ∨ rdB (Reg.LPW.PSTAT.FARSRC f) s = true)) ∧
    (∃ o : Origin, ∃ body : List Byte, ∃ f : Nat, ∃ s : State, mayDispatch s o = true ∧ field body 0 1 = f ∧ (f = 4 ∨ (f < 4 ∧ efRole s f = 1)) ∧
      f < 4 ∧ body.length = 4 ∧ zeroAt body 1 3 = true ∧ efState s f = 0 ∧ rdB Reg.LPW.LSTAT.PWARN s = false ∧ rdB (Reg.LPW.PSTAT.FARSRC f) s = false) :=
  ⟨⟨{ S0 with supplyHold := true }, by decide +kernel⟩,
   ⟨R [(Reg.HLP.STAT.LSTATE 3, 3)] (State.reset), by decide +kernel⟩,
   ⟨R [(Reg.LPW.LSTAT.PWARN, 1)] (State.reset), by decide +kernel⟩,
   ⟨R [(Reg.LPW.LSTAT.PWARN, 0), (Reg.LPW.PWARN.SLOPE, 0)] (State.reset), true, by decide +kernel⟩,
   ⟨R [(Reg.LPW.PSTAT.STATE 3, 2), (Reg.LPW.LSTAT.PWARN, 0)] (State.reset), false, by decide +kernel⟩,
   ⟨R [(Reg.LPW.LSTAT.PWARN, 0)] (State.reset), by decide +kernel⟩,
   ⟨.host, R [(Reg.LPW.PCFG.ROLE 3,
     1)] (regSet (regSet S0 (Reg.LPW.CSEL.CURVE.mine .host).addr 4) ((Reg.LPW.CPT.word 0).mine .host).addr 0x00100002), 4,
     (List.range 8).map (fun k => staged (R [(Reg.LPW.PCFG.ROLE 3, 1)] (regSet (regSet S0 (Reg.LPW.CSEL.CURVE.mine .host).addr 4) ((Reg.LPW.CPT.word 0).mine .host).addr 0x00100002)) (.host) (Reg.LPW.CPT.word k)),
     by decide +kernel⟩,
   ⟨.host, R [(Reg.LPW.PCFG.ROLE 3, 1)] (regSet S0 (Reg.LPW.CSEL.CURVE.mine .host).addr 5), 5,
     (List.range 8).map (fun k => staged (R [(Reg.LPW.PCFG.ROLE 3, 1)] (regSet S0 (Reg.LPW.CSEL.CURVE.mine .host).addr 5)) (.host) (Reg.LPW.CPT.word k)),
     by decide +kernel⟩,
   ⟨.host, R [(Reg.LPW.PCFG.ROLE 3, 1)] (regSet S0 (Reg.LPW.CSEL.CURVE.mine .host).addr 4), 4,
     (List.range 8).map (fun k => staged (R [(Reg.LPW.PCFG.ROLE 3, 1)] (regSet S0 (Reg.LPW.CSEL.CURVE.mine .host).addr 4)) (.host) (Reg.LPW.CPT.word k)),
     by decide +kernel⟩,
   ⟨.host, R [(Reg.LPW.PCFG.ROLE 3, 1)] (regSet S0 (Reg.LPW.CSEL.CURVE.mine .host).addr 5), 5,
     (List.range 8).map (fun k => staged (R [(Reg.LPW.PCFG.ROLE 3, 1)] (regSet S0 (Reg.LPW.CSEL.CURVE.mine .host).addr 5)) (.host) (Reg.LPW.CPT.word k)),
     by decide +kernel⟩,
   ⟨o0, bd (4) [(0, 1, (5 : Nat))], 5, R [(Reg.LPW.PCFG.ROLE 3, 1)] (State.reset), by decide +kernel⟩,
   ⟨o0, bd (36) [(0, 1, (5 : Nat))], 5, R [(Reg.LPW.PCFG.ROLE 3, 1)] (State.reset), by decide +kernel⟩,
   ⟨o0, bd (4) [(0, 1, (3 : Nat))], 3, R [(Reg.LPW.PCFG.ROLE 3, 2)] (State.reset), by decide +kernel⟩,
   ⟨o0, bd (4) [(0, 1, (3 : Nat)), (1, 1, 0)], 3, R [(Reg.LPW.PCFG.ROLE 3, 1), (Reg.LPW.PSTAT.STATE 3, 4)] (State.reset), by decide +kernel⟩,
   ⟨o0, bd (4) [(0, 1, (3 : Nat)), (1, 1, 1)], 3, R [(Reg.LPW.PCFG.ROLE 3, 1), (Reg.LPW.PCFG.EN 3, 0)] (State.reset), by decide +kernel⟩,
   ⟨o0, bd (4) [(0, 1, (3 : Nat)), (1, 1, 1)], 3, R [(Reg.LPW.PCFG.ROLE 3, 1), (Reg.LPW.PCFG.EN 3, 1), (Reg.LPW.PSTAT.STATE 3, 6)] (State.reset),
     by decide +kernel⟩,
   ⟨o0, bd (4) [(0, 1, (3 : Nat)), (1, 1, 1)], 3, R [(Reg.LPW.PCFG.ROLE 3, 1), (Reg.LPW.PCFG.EN 3, 1), (Reg.LPW.PSTAT.STATE 3, 0)] (State.reset),
     by decide +kernel⟩,
   ⟨o0, bd (4) [(0, 1, (3 : Nat)), (1, 1, 2)], 3, R [(Reg.LPW.PCFG.ROLE 3, 1), (Reg.LPW.PSTAT.STATE 3,
     5)] (updEfuse 3 (fun z => { z with offAt := some 0 }) S0), 0, by decide +kernel⟩,
   ⟨o0, bd (4) [(0, 1, (3 : Nat)), (1, 1, 3)], 3, R [(Reg.LPW.PCFG.ROLE 3, 1)] (updEfuse 3 (fun z => { z with vout := 1000 }) S0), by decide +kernel⟩,
   ⟨o0, bd (4) [(0, 1, (3 : Nat)), (1, 1, 3)], 3, R [(Reg.LPW.PCFG.ROLE 3, 1), (Reg.LPW.PSTAT.STATE 3,
     6)] (updEfuse 3 (fun z => { z with offAt := some 0 }) S0), 0, by decide +kernel⟩,
   ⟨o0, bd (4) [(0, 1, (3 : Nat))], 3, R [(Reg.LPW.PCFG.ROLE 3, 1)] (State.reset), by decide +kernel⟩,
   ⟨o0, bd (36) [(0, 1, (3 : Nat)), (1, 1, 0)], 3, R [(Reg.LPW.PCFG.ROLE 3, 1)] (State.reset),
     (List.range 8).map (fun k => BitVec.ofNat 32 (field (bd (36) [(0, 1, (3 : Nat)), (1, 1, 0)]) (4 + 4 * k) 4)), by decide +kernel⟩,
   ⟨o0, bd (36) [(0, 1, (3 : Nat)), (1, 1, 0), (0, 1, 3), (4, 4, 0x00100002)], 3, R [(Reg.LPW.PCFG.ROLE 3, 1)] (State.reset), [0x00100002, 0, 0, 0,
     0, 0, 0, 0], by decide +kernel⟩,
   ⟨o0, bd (36) [(0, 1, (3 : Nat)), (1, 1, 1)], 3, R [(Reg.LPW.PCFG.ROLE 3, 1)] (State.reset),
     (List.range 8).map (fun k => BitVec.ofNat 32 (field (bd (36) [(0, 1, (3 : Nat)), (1, 1, 1)]) (4 + 4 * k) 4)), by decide +kernel⟩,
   ⟨o0, bd (4) [(0, 1, (3 : Nat))], 3, R [(Reg.LPW.PCFG.ROLE 3, 1), (Reg.LPW.PSTAT.STATE 3, 4)] (State.reset), by decide +kernel⟩,
   ⟨o0, bd (4) [(0, 1, (3 : Nat))], 3, R [(Reg.LPW.PCFG.ROLE 3, 1), (Reg.LPW.PSTAT.STATE 3, 0)] (State.reset), by decide +kernel⟩⟩

theorem test_hyps_TheNurseSleepsAndWakes :
    (∃ s : State, ∃ cs, (s.supplyHold = true ∨ ldSleeps s = true ∨ cs = true ∨ rdB Reg.NRS.CLKCTL.ALLOW_SBY s = false ∨ (∃ n : LPort,
      rdB (Reg.HLP.CFG.EN n) s = true ∧ lstate s n ≠ DORMANT) ∨ combHolds s = true ∨ s.cmd.flights ≠ [] ∨ rdB Reg.NRS.STAT.XTFAIL s = true)) ∧
    (∃ s : State, s.supplyHold = false ∧ ldSleeps s = false ∧ sleepBlock s = 0) ∧
    (∃ s : State, ∃ kind : Fin 5, ∃ idx : Fin 32, ∃ i : Nat, i = (if kind.val < 3 then idx.val else 0) ∧ ldSleeps s = true ∧ s.nurse.wake = none ∧
      wakeGood s kind i = true) ∧
    (∃ s : State, ∃ kind : Fin 5, ∃ idx : Fin 32, ∃ i : Nat, i = (if kind.val < 3 then idx.val else 0) ∧
      (ldSleeps s = false ∨ s.nurse.wake ≠ none ∨ wakeGood s kind i = false)) ∧
    (∃ s : State, ∃ k, ∃ i, ldSleeps s = true ∧ s.nurse.wake = some (k, i) ∧ s.nurse.left < 4) ∧
    (∃ s : State, (ldSleeps s = false ∨ s.nurse.wake = none)) ∧
    (∃ s : State, s.supplyHold = false) ∧
    (∃ s : State, ∃ o : Origin, ∃ body : List Byte, ∃ k : Nat, ∃ n : Nat, mayDispatch s o = true ∧ body.length = 4 ∧ field body 0 1 = k ∧
      field body 2 2 = n ∧ (32 ≤ k ∨ 1 < field body 1 1 ∨ 512 ≤ n)) ∧
    (∃ s : State, ∃ o : Origin, ∃ body : List Byte, ∃ k : Nat, ∃ n : Nat, mayDispatch s o = true ∧ body.length = 4 ∧ field body 0 1 = k ∧
      field body 2 2 = n ∧ k < 32 ∧ field body 1 1 ≤ 1 ∧ n < 512) :=
  ⟨⟨State.reset, true, by decide +kernel⟩,
   ⟨Sl, by decide +kernel⟩,
   ⟨R [(Reg.NRS.STAT.LDST, 2), (Reg.HLP.STAT.LSTATE 3, 6), (Reg.HLP.CFG.EN 3, 1)] (State.reset), 1, 3, 3, by decide +kernel⟩,
   ⟨State.reset, 4, 31, (if (4 : Fin 5).val < 3 then (31 : Fin 32).val else 0), by decide +kernel⟩,
   ⟨R [(Reg.NRS.STAT.LDST, 2), (Reg.TIM.STAT.QSTATE, 4)] ({ S0 with nurse := { S0.nurse with wake := some (1, 3), left := 0 } }), 1, 3,
     by decide +kernel⟩,
   ⟨State.reset, by decide +kernel⟩,
   ⟨State.reset, by decide +kernel⟩,
   ⟨State.reset, o0, bd (4) [(0, 1, (31 : Nat)), (2, 2, (512 : Nat)), (0, 1, 31), (2, 2, 512)], 31, 512, by decide +kernel⟩,
   ⟨State.reset, o0, bd (4) [(0, 1, (31 : Nat)), (2, 2, (511 : Nat)), (0, 1, 31), (1, 1, 1), (2, 2, 511)], 31, 511, by decide +kernel⟩⟩

theorem test_hyps_SourcesLatchTheirEvents :
    (∃ n : Fin 512, ∃ s : State, (srcAlive s n = false ∨ srcSt s n = .pending ∨ srcSt s n = .activeAndPending)) ∧
    (∃ n : Fin 512, ∃ s : State, srcAlive s n = true ∧ srcSt s n = .idle) ∧
    (∃ n : Fin 512, ∃ s : State, srcAlive s n = true ∧ srcSt s n = .active ∧ resampled s n = false) ∧
    (∃ i : Nat, i < 32) :=
  ⟨⟨480, setSrc 480 .pending S0, by decide +kernel⟩,
   ⟨10, S0, by decide +kernel⟩,
   ⟨10, setSrc 10 .active S0, by decide +kernel⟩,
   ⟨0, by decide +kernel⟩⟩

theorem test_hyps_InterruptsAreDeliveredAndCompleted :
    (∃ g : Fin 16, ∃ s : State, (ldSleeps s = true ∨ dueMask s g = 0 ∨ rd (Reg.INT.TGT.TMASK g) s = 0 ∨ holdOver s g = false)) ∧
    (∃ g : Fin 16, ∃ s : State, ∃ m, ldSleeps s = false ∧ dueMask s g = m ∧ m ≠ 0 ∧ rd (Reg.INT.TGT.TMASK g) s ≠ 0 ∧ holdOver s g = true) :=
  ⟨⟨15, State.reset, by decide +kernel⟩,
   ⟨0, R [(Reg.INT.EN.EN 0, 0xFFFFFFFF), (Reg.INT.TGT.TMASK 0, 1)] (setSrc 10 .pending S0), dueMask (R [(Reg.INT.EN.EN 0, 0xFFFFFFFF),
     (Reg.INT.TGT.TMASK 0, 1)] (setSrc 10 .pending S0)) (0 : Fin 16), by decide +kernel⟩⟩

theorem test_hyps_PowerStatesAndSelfRefresh :
    (∃ s : State, rdB Reg.SVC.PDSTAT.DB s = true ∧
      (rdB Reg.SVC.PDSTAT.PDC s && svcTier (rd Reg.SVC.PDSTAT.VSEL s) (rd Reg.SVC.PDSTAT.IOP s)) = false ∧ swOff s = false) ∧
    (∃ s : State,
      (rdB Reg.SVC.PDSTAT.DB s = false ∨ swOff s = true ∨ (rdB Reg.SVC.PDSTAT.PDC s && svcTier (rd Reg.SVC.PDSTAT.VSEL s) (rd Reg.SVC.PDSTAT.IOP s)) = true)) ∧
    (∃ s : State, rdB Reg.DCM.SR.EN s = true ∧ rd Reg.DCM.SR.STATE s = 0 ∧ s1Up s = true ∧ dcmWanted s = false ∧ holdp s = false ∧ srLimit s < ltol s) ∧
    (∃ s : State,
      (rdB Reg.DCM.SR.EN s = false ∨ rd Reg.DCM.SR.STATE s ≠ 0 ∨ s1Up s = false ∨ dcmWanted s = true ∨ holdp s = true ∨ ltol s ≤ srLimit s)) ∧
    (∃ s : State, rd Reg.DCM.SR.STATE s = 2 ∧ ldSleeps s = false) ∧
    (∃ s : State, (rd Reg.DCM.SR.STATE s ≠ 2 ∨ ldSleeps s = true)) ∧
    (∃ s : State, rd Reg.DCM.SR.STATE s = 3) ∧
    (∃ s : State, rd Reg.DCM.SR.STATE s ≠ 3) ∧
    (∃ s : State, ∃ l, accStat s Reg.DCM.CFG.word.addr = ST_OK ∧ l = (List.range 5).map (fun k => rd (Reg.DCM.RGN.START k) s) ∧
      domSt s 0x11 ≠ .quiesced) ∧
    (∃ s : State, ∃ l, accStat s Reg.DCM.CFG.word.addr = ST_OK ∧ l = (List.range 5).map (fun k => rd (Reg.DCM.RGN.START k) s) ∧
      domSt s 0x11 = .quiesced ∧ regionsOk l = true) ∧
    (∃ s : State, ∃ l, accStat s Reg.DCM.CFG.word.addr = ST_OK ∧ l = (List.range 5).map (fun k => rd (Reg.DCM.RGN.START k) s) ∧
      domSt s 0x11 = .quiesced ∧ regionsOk l = false) ∧
    (∃ s : State, ∃ o : Origin, ∃ body : List Byte, ∃ d : Nat, mayDispatch s o = true ∧ body.length = 4 ∧ field body 0 1 = d ∧
      zeroAt body 2 2 = true ∧ (d < 0x12 ∨ (0x17 < d ∧ d ≠ 0x20) ∨ 1 < field body 1 1)) ∧
    (∃ s : State, ∃ o : Origin, ∃ body : List Byte, ∃ d : Nat, mayDispatch s o = true ∧ body.length = 4 ∧ field body 0 1 = d ∧
      zeroAt body 2 2 = true ∧ 0x12 ≤ d ∧ d ≤ 0x17 ∧ field body 1 1 ≤ 1 ∧ present s (d - 0x10) = false) ∧
    (∃ s : State, ∃ o : Origin, ∃ body : List Byte, ∃ d : Nat, mayDispatch s o = true ∧ body.length = 4 ∧ field body 0 1 = d ∧
      zeroAt body 2 2 = true ∧ 0x12 ≤ d ∧ d ≤ 0x17 ∧ field body 1 1 ≤ 1 ∧ present s (d - 0x10) = true ∧ field body 1 1 = 1 ∧
      beingActivated s d = false ∧ domSt s d ≠ .off ∧ domSt s d ≠ .quiesced) ∧
    (∃ s : State, ∃ o : Origin, ∃ body : List Byte, ∃ d : Nat, mayDispatch s o = true ∧ body.length = 4 ∧ field body 0 1 = d ∧
      zeroAt body 2 2 = true ∧ 0x12 ≤ d ∧ d ≤ 0x17 ∧ field body 1 1 ≤ 1 ∧ present s (d - 0x10) = true ∧ field body 1 1 = 1 ∧
      beingActivated s d = false ∧ domSt s d = .quiesced) ∧
    (∃ s : State, ∃ o : Origin, ∃ body : List Byte, ∃ d : Nat, mayDispatch s o = true ∧ body.length = 4 ∧ field body 0 1 = d ∧
      zeroAt body 2 2 = true ∧ 0x12 ≤ d ∧ d ≤ 0x17 ∧ field body 1 1 ≤ 1 ∧ present s (d - 0x10) = true ∧ field body 1 1 = 0 ∧ domSt s d = .off) ∧
    (∃ s : State, ∃ o : Origin, ∃ body : List Byte, ∃ d : Nat, mayDispatch s o = true ∧ body.length = 4 ∧ field body 0 1 = d ∧
      zeroAt body 2 2 = true ∧ d = 0x20 ∧ field body 1 1 = 1 ∧ swOff s = false ∧ ((∃ n : LPort,
      rdB (Reg.HLP.CFG.EN n) s = true) ∨ (∃ k ∈ presentDies s, domSt s (0x10 + k) ≠ .off))) ∧
    (∃ s : State, ∃ o : Origin, ∃ body : List Byte, ∃ d : Nat, mayDispatch s o = true ∧ body.length = 4 ∧ field body 0 1 = d ∧
      zeroAt body 2 2 = true ∧ d = 0x20 ∧ field body 1 1 = 1 ∧ swOff s = false ∧ (∀ n : LPort, rdB (Reg.HLP.CFG.EN n) s = false) ∧
      (∀ k ∈ presentDies s, domSt s (0x10 + k) = .off)) ∧
    (∃ s : State, ∃ o : Origin, ∃ body : List Byte, ∃ d : Nat, mayDispatch s o = true ∧ body.length = 4 ∧ field body 0 1 = d ∧
      zeroAt body 2 2 = true ∧ d = 0x20 ∧ field body 1 1 = 0 ∧ swOff s = true ∧ rdB Reg.SVC.PDSTAT.DB s = true ∧ rdB Reg.SVC.PDSTAT.TIER s = false) ∧
    (∃ s : State, ∃ o : Origin, ∃ body : List Byte, ∃ d : Nat, mayDispatch s o = true ∧ body.length = 4 ∧ field body 0 1 = d ∧
      zeroAt body 2 2 = true ∧ d = 0x20 ∧ field body 1 1 = 0 ∧ swOff s = true ∧ rdB Reg.SVC.PDSTAT.DB s = false ∧ s.img.part = false) :=
  ⟨⟨R [(Reg.SVC.PDSTAT.DB, 1), (Reg.SVC.PDSTAT.DB, 1)] (D 0x12 .inService S0), by decide +kernel⟩,
   ⟨D 0x12 .inService S0, by decide +kernel⟩,
   ⟨R [(Reg.DCM.SR.EN, 1), (Reg.DCM.SR.EN, 1), (Reg.DCM.SR.STATE, 0)] (D 0x11 .inService S0), by decide +kernel⟩,
   ⟨D 0x12 .inService S0, by decide +kernel⟩,
   ⟨R [(Reg.DCM.SR.STATE, 2)] (D 0x12 .inService S0), by decide +kernel⟩,
   ⟨D 0x12 .inService S0, by decide +kernel⟩,
   ⟨R [(Reg.DCM.SR.STATE, 3)] (D 0x12 .inService S0), by decide +kernel⟩,
   ⟨D 0x12 .inService S0, by decide +kernel⟩,
   ⟨D 0x11 .quiescing S0, (List.range 5).map (fun k => rd (Reg.DCM.RGN.START k) (D 0x11 .quiescing S0)), by decide +kernel⟩,
   ⟨R [(Reg.DCM.RGN.START 0, 0), (Reg.DCM.RGN.START 1, 1), (Reg.DCM.RGN.START 2, 25), (Reg.DCM.RGN.START 3, 26), (Reg.DCM.RGN.START 4,
     4095)] (D 0x11 .quiesced S0), [0, 1, 25, 26, 4095], by decide +kernel⟩,
   ⟨R [(Reg.DCM.RGN.START 0, 1)] (D 0x11 .quiesced S0),
     (List.range 5).map (fun k => rd (Reg.DCM.RGN.START k) (R [(Reg.DCM.RGN.START 0, 1)] (D 0x11 .quiesced S0))), by decide +kernel⟩,
   ⟨D 0x12 .inService S0, o0, bd (4) [(0, 1, (0x21 : Nat)), (0, 1, 0x21)], 0x21, by decide +kernel⟩,
   ⟨{ S0 with variant := .a2 }, o0, bd (4) [(0, 1, (0x17 : Nat)), (0, 1, 0x17)], 0x17, by decide +kernel⟩,
   ⟨D 0x12 .inService S0, o0, bd (4) [(0, 1, (0x12 : Nat)), (1, 1, 1), (0, 1, 0x12), (1, 1, 1)], 0x12, by decide +kernel⟩,
   ⟨D 0x12 .quiesced S0, o0, bd (4) [(0, 1, (0x12 : Nat)), (1, 1, 1), (0, 1, 0x12), (1, 1, 1)], 0x12, by decide +kernel⟩,
   ⟨D 0x12 .off S0, o0, bd (4) [(0, 1, (0x12 : Nat)), (1, 1, 0), (0, 1, 0x12)], 0x12, by decide +kernel⟩,
   ⟨D 0x12 .inService S0, o0, bd (4) [(0, 1, (0x20 : Nat)), (1, 1, 1), (0, 1, 0x20), (1, 1, 1)], 0x20, by decide +kernel⟩,
   ⟨forAll (presentDies S0) (fun k z => D (0x10 + k) .off z) (wrAll [Reg.HLP.CFG.EN 0, Reg.HLP.CFG.EN 1, Reg.HLP.CFG.EN 2, Reg.HLP.CFG.EN 3] 0 S0),
     o0, bd (4) [(0, 1, (0x20 : Nat)), (1, 1, 1), (0, 1, 0x20), (1, 1, 1)], 0x20, by decide +kernel⟩,
   ⟨R [(Reg.NRS.PSTATE.SWOFF, 1), (Reg.SVC.PDSTAT.DB, 1), (Reg.SVC.PDSTAT.TIER, 0)] (D 0x12 .inService S0), o0, bd (4) [(0, 1, (0x20 : Nat)), (1, 1,
     0), (0, 1, 0x20)], 0x20, by decide +kernel⟩,
   ⟨R [(Reg.NRS.PSTATE.SWOFF, 1), (Reg.SVC.PDSTAT.DB, 0)] (D 0x12 .inService S0), o0, bd (4) [(0, 1, (0x20 : Nat)), (1, 1, 0), (0, 1, 0x20)], 0x20,
     by decide +kernel⟩⟩

theorem test_hyps_ResetsBeginAgain :
    (∃ a : BitVec 3, ∃ b : BitVec 3, ∃ c : BitVec 3, ∃ v : Nat, ∃ s : State, ∃ i : Instr, v = ((a &&& b) ||| (a &&& c) ||| (b &&& c)).toNat ∧
      (i = .supplyFail ∨ ((i = .powerOnReset a b c ∨ i = .resetN a b c) ∧ s.supplyHold = true))) ∧
    (∃ a : BitVec 3, ∃ b : BitVec 3, ∃ c : BitVec 3, ∃ v : Nat, ∃ s : State, v = ((a &&& b) ||| (a &&& c) ||| (b &&& c)).toNat ∧ s.supplyHold = false) ∧
    (∃ a : BitVec 3, ∃ b : BitVec 3, ∃ c : BitVec 3, ∃ v : Nat, ∃ s : State, ∃ i : Instr, v = ((a &&& b) ||| (a &&& c) ||| (b &&& c)).toNat ∧
      ((i = .powerOnReset a b c ∧ s.supplyHold = false) ∨ (i = .supplyHoldEnd a b c ∧ s.supplyHold = true))) :=
  ⟨⟨7, 1, 2, 3, R [(Reg.HLP.STAT.LSTATE 1, 3)] (updCmd (fun z => { z with replies := [⟨.usb, .svc, 1, 0, [], true⟩] }) S0), (.supplyFail : Instr),
     by decide +kernel⟩,
   ⟨7, 1, 2, 3, R [(Reg.HLP.STAT.LSTATE 1, 3)] (updCmd (fun z => { z with replies := [⟨.usb, .svc, 1, 0, [], true⟩] }) S0), by decide +kernel⟩,
   ⟨7, 1, 2, 3, R [(Reg.HLP.STAT.LSTATE 1, 3)] (updCmd (fun z => { z with replies := [⟨.usb, .svc, 1, 0, [], true⟩] }) S0),
     (.powerOnReset 7 1 2 : Instr), by decide +kernel⟩⟩

theorem test_hyps_TheNodeBoots :
    (∃ s : State, (s.supplyHold = true ∨ s.img.stage ≠ 0)) ∧
    (∃ s : State, ∃ ok : Bool, ∃ size : BitVec 8, s.supplyHold = false ∧ s.img.stage = 0 ∧ (ok = false ∨ size.toNat < 26)) ∧
    (∃ s : State, ∃ ok : Bool, ∃ size : BitVec 8, s.supplyHold = false ∧ s.img.stage = 0 ∧ ok = true ∧ 26 ≤ size.toNat ∧ (bootNow s).trial ≠ 1 ∧
      bootSlot s = none) ∧
    (∃ s : State, (s.img.stage ≠ 1 ∨ (∃ d ∈ presentDies s, domSt s (0x10 + d) = .returning))) ∧
    (∃ s : State, s.img.stage = 1 ∧ (∀ d ∈ presentDies s, domSt s (0x10 + d) ≠ .returning)) ∧
    (∃ s : State, rdB Reg.SVC.PDSTAT.DB s = true) ∧
    (∃ s : State, rdB Reg.SVC.PDSTAT.DB s = false ∧ svcAttached s = false) ∧
    (∃ s : State, rdB Reg.SVC.PDSTAT.DB s = false ∧ svcAttached s = true) :=
  ⟨⟨{ S0 with img := { S0.img with stage := 1 } }, by decide +kernel⟩,
   ⟨State.reset, true, 25, by decide +kernel⟩,
   ⟨State.reset, true, 26, by decide +kernel⟩,
   ⟨State.reset, by decide +kernel⟩,
   ⟨{ S0 with img := { S0.img with stage := 1, reverted := true } }, by decide +kernel⟩,
   ⟨R [(Reg.SVC.PDSTAT.DB, 1)] (State.reset), by decide +kernel⟩,
   ⟨R [(Reg.SVC.PDSTAT.DB, 0)] (State.reset), by decide +kernel⟩,
   ⟨R [(Reg.SVC.PDSTAT.ATT, 1), (Reg.SVC.PDSTAT.DB, 0)] (State.reset), by decide +kernel⟩⟩

/-- A witness where the signature is good: Config.ed25519 has no body (notes/assumptions/8). -/
theorem test_hyps_TheNodeBoots_3 (hv : ∀ pub sig m, Config.ed25519 pub sig m = true) :
    ∃ s : State, ∃ ok : Bool, ∃ size : BitVec 8, ∃ k, ∃ f, (bootNow s).trial ≠ 1 ∧ bootSlot s = some (k, f) ∧ s.supplyHold = false ∧
      s.img.stage = 0 ∧ ok = true ∧ 26 ≤ size.toNat :=
  ⟨Is, true, 26, 0, false, (by rw [Is_boot]; decide), Is_bootSlot hv, by decide +kernel⟩

theorem test_hyps_ImageBlocksAndPatchesAreWritten :
    (∃ o : Origin, ∃ body : List Byte, ∃ b : Nat, ∃ s : State, mayDispatch s o = true ∧ field body 0 4 = b ∧ body.length = 4104 ∧
      field body 4 2 = 1 ∧ field body 6 1 = 0 ∧ zeroAt body 7 1 = true ∧ b + 1 ≤ 6144 ∧ imgHeld s = true) ∧
    (∃ o : Origin, ∃ body : List Byte, ∃ b : Nat, ∃ s : State, body.length = 4104 ∧ blockGood (body.drop 8) = true ∧ mayDispatch s o = true ∧
      field body 0 4 = b ∧ field body 4 2 = 1 ∧ field body 6 1 = 0 ∧ zeroAt body 7 1 = true ∧ b + 1 ≤ 6144 ∧ imgHeld s = false) ∧
    (∃ o : Origin, ∃ body : List Byte, ∃ b : Nat, ∃ s : State, body.length = 4104 ∧ blockGood (body.drop 8) = false ∧ mayDispatch s o = true ∧
      field body 0 4 = b ∧ field body 4 2 = 1 ∧ field body 6 1 = 0 ∧ zeroAt body 7 1 = true ∧ b + 1 ≤ 6144 ∧ imgHeld s = false) ∧
    (∃ o : Origin, ∃ body : List Byte, ∃ b : Nat, ∃ s : State, mayDispatch s o = true ∧ field body 0 4 = b ∧ body.length = 8 ∧ field body 6 1 = 1 ∧
      zeroAt body 7 1 = true ∧ 1 ≤ field body 4 2 ∧ b + field body 4 2 ≤ 6144 ∧ o.ep ≠ .svc) ∧
    (∃ o : Origin, ∃ body : List Byte, ∃ b : Nat, ∃ s : State, mayDispatch s o = true ∧ field body 0 4 = b ∧ body.length = 8 ∧ field body 6 1 = 1 ∧
      zeroAt body 7 1 = true ∧ 1 ≤ field body 4 2 ∧ b + field body 4 2 ≤ 6144 ∧ o.ep = .svc ∧ (imgHeld s = true ∨ s.img.ep4.isSome = true)) ∧
    (∃ o : Origin, ∃ body : List Byte, ∃ b : Nat, ∃ s : State, mayDispatch s o = true ∧ field body 0 4 = b ∧ body.length = 8 ∧ field body 6 1 = 1 ∧
      zeroAt body 7 1 = true ∧ 1 ≤ field body 4 2 ∧ b + field body 4 2 ≤ 6144 ∧ o.ep = .svc ∧ imgHeld s = false ∧ s.img.ep4 = none) ∧
    (∃ block : List Byte, ∃ s : State, (s.img.ep4 = none ∨ block.length ≠ 4096)) ∧
    (∃ block : List Byte, ∃ s : State, ∃ o, ∃ b, ∃ n, ∃ k, block.length = 4096 ∧ blockGood block = false ∧ s.img.ep4 = some (o, b, n, k)) ∧
    (∃ block : List Byte, ∃ s : State, ∃ o, ∃ b, ∃ n, ∃ k, block.length = 4096 ∧ blockGood block = true ∧ s.img.ep4 = some (o, b, n, k) ∧ n = 1) ∧
    (∃ block : List Byte, ∃ s : State, ∃ o, ∃ b, ∃ n, ∃ k, block.length = 4096 ∧ blockGood block = true ∧ s.img.ep4 = some (o, b, n, k) ∧ 1 < n) ∧
    (∃ o : Origin, ∃ body : List Byte, ∃ s : State, mayDispatch s o = true ∧ field body 0 1 = 0 ∧ zeroAt body 2 2 = true ∧ 4 ≤ body.length ∧
      field body 1 1 ≤ 3 ∧ imgHeld s = true) ∧
    (∃ o : Origin, ∃ body : List Byte, ∃ s : State, ∃ n, mayDispatch s o = true ∧ field body 0 1 = 0 ∧ zeroAt body 2 2 = true ∧ 4 ≤ body.length ∧
      imgHeld s = false ∧ field body 1 1 = 1 ∧ body.length = 36 ∧ patchHeader s (body.drop 4) = some n) ∧
    (∃ o : Origin, ∃ body : List Byte, ∃ s : State, mayDispatch s o = true ∧ field body 0 1 = 0 ∧ zeroAt body 2 2 = true ∧ 4 ≤ body.length ∧
      imgHeld s = false ∧ field body 1 1 ≤ 3 ∧ bit 0 (field body 1 1) = false ∧ s.img.patch = none) ∧
    (∃ o : Origin, ∃ body : List Byte, ∃ s : State, ∃ p, ∃ n, mayDispatch s o = true ∧ field body 0 1 = 0 ∧ zeroAt body 2 2 = true ∧
      4 ≤ body.length ∧ imgHeld s = false ∧ s.img.patch = some p ∧ field body 1 1 = 0 ∧ body.length = 16 ∧ field body 4 1 = 3 ∧
      zeroAt body 5 3 = true ∧ zeroAt body 13 3 = true ∧ field body 8 4 = n ∧ p.out + n ≤ p.nblk * 4096 ∧ p.block.length + n < 4096) ∧
    (∃ o : Origin, ∃ body : List Byte, ∃ s : State, ∃ p, mayDispatch s o = true ∧ field body 0 1 = 0 ∧ zeroAt body 2 2 = true ∧ 4 ≤ body.length ∧
      imgHeld s = false ∧ s.img.patch = some p ∧ field body 1 1 = 2 ∧ body.length = 4) ∧
    (∃ o : Origin, ∃ body : List Byte, ∃ s : State, ∃ off, ∃ n, mayDispatch s o = true ∧ body.length = 8 + n ∧ field body 0 4 = off ∧
      field body 4 2 = n ∧ zeroAt body 6 2 = true ∧ (8184 < n ∨ stagingSize s < off + n)) ∧
    (∃ o : Origin, ∃ body : List Byte, ∃ s : State, ∃ off, ∃ n, mayDispatch s o = true ∧ body.length = 8 + n ∧ field body 0 4 = off ∧
      field body 4 2 = n ∧ zeroAt body 6 2 = true ∧ n ≤ 8184 ∧ off + n ≤ stagingSize s ∧ s1Up s = false) ∧
    (∃ o : Origin, ∃ body : List Byte, ∃ s : State, ∃ off, ∃ n, mayDispatch s o = true ∧ body.length = 8 + n ∧ field body 0 4 = off ∧
      field body 4 2 = n ∧ zeroAt body 6 2 = true ∧ n ≤ 8184 ∧ off + n ≤ stagingSize s ∧ s1Up s = true ∧ n ≠ 0 ∧ dcmServes s 7 = false) ∧
    (∃ o : Origin, ∃ body : List Byte, ∃ s : State, ∃ off, ∃ n, mayDispatch s o = true ∧ body.length = 8 + n ∧ field body 0 4 = off ∧
      field body 4 2 = n ∧ zeroAt body 6 2 = true ∧ n ≤ 8184 ∧ off + n ≤ stagingSize s ∧ dcmServes s 7 = true ∧ n ≠ 0) ∧
    (∃ o : Origin, ∃ body : List Byte, ∃ s : State, ∃ off, ∃ n, mayDispatch s o = true ∧ body.length = 8 + n ∧ field body 0 4 = off ∧
      field body 4 2 = n ∧ zeroAt body 6 2 = true ∧ n ≤ 8184 ∧ off + n ≤ stagingSize s ∧ s1Up s = true ∧ n = 0) :=
  ⟨⟨o0, bd 4104 [(0, 4, 6143), (4, 2, 1)], 6143, S0, by decide +kernel⟩,
   ⟨o0, bd 8 [(0, 4, 6143), (4, 2, 1)] ++ blk1, 6143, I2, (by rw [List.length_append, blk1_length]; rfl),
     (by rw [List.drop_left' (by decide)]; exact blk1_good), by decide +kernel⟩,
   ⟨o0, bd 8 [(0, 4, 6143), (4, 2, 1)] ++ blk2, 6143, I2, (by rw [List.length_append, blk2_length]; rfl),
     (by rw [List.drop_left' (by decide)]; exact blk2_bad), by decide +kernel⟩,
   ⟨o0, bd (8) [(0, 4, (6143 : Nat)), (6, 1, 1), (0, 4, 6143), (4, 2, 1), (6, 1, 1)], 6143, I2, by decide +kernel⟩,
   ⟨{ o0 with ep := .svc }, bd (8) [(0, 4, (6142 : Nat)), (6, 1, 1), (0, 4, 6142), (4, 2, 2), (6, 1, 1)], 6142, S0, by decide +kernel⟩,
   ⟨{ o0 with ep := .svc }, bd (8) [(0, 4, (6142 : Nat)), (6, 1, 1), (0, 4, 6142), (4, 2, 2), (6, 1, 1)], 6142, I2, by decide +kernel⟩,
   ⟨[], I2, by decide +kernel⟩,
   ⟨blk2, Im fun z => { z with ep4 := some (o0, 6143, 2, 1) }, o0, 6143, 2, 1, blk2_length, blk2_bad, by decide +kernel⟩,
   ⟨blk1, Im fun z => { z with ep4 := some (o0, 6143, 1, 1) }, o0, 6143, 1, 1, blk1_length, blk1_good, by decide +kernel⟩,
   ⟨blk1, Im fun z => { z with ep4 := some (o0, 6143, 2, 1) }, o0, 6143, 2, 1, blk1_length, blk1_good, by decide +kernel⟩,
   ⟨o0, bd (4) [(0, 1, 0)], S0, by decide +kernel⟩,
   ⟨o0, bd 36 [(1, 1, 1), (4, 4, 0x4C484438), (8, 1, 1), (12, 4, 6144), (16, 8, 0xFFFFFFFFFFFFFFFF), (24, 8, 0xFFFFFFFFFFFFFFFF)],
     norProgram (imgBase 0) (bd 12 [(8, 4, 2)]) (Im fun z => { z with stage := 2, runs := [(0, 1)] }), 6144, by decide +kernel⟩,
   ⟨o0, bd (4) [(0, 1, 0), (1, 1, 2)], I2, by decide +kernel⟩,
   ⟨o0, bd 16 [(4, 1, 3), (8, 4, 4093), (12, 1, 0xAB)], Im fun z => { z with stage := 2, patch := some ⟨2, 4090, [1, 2]⟩ }, (⟨2, 4090, [1,
     2]⟩ : Patch), 4093, by decide +kernel⟩,
   ⟨o0, bd (4) [(0, 1, 0), (1, 1, 2), (1, 1, 2)], Im fun z => { z with stage := 2, patch := some ⟨2, 8192, []⟩ }, (⟨2, 8192, []⟩ : Patch),
     by decide +kernel⟩,
   ⟨o0, bd (8 + (8185)) [(0, 4, (0)), (4, 2, (8185))], I2, 0, 8185, by decide +kernel⟩,
   ⟨o0, bd (8 + (0)) [(0, 4, (0)), (4, 2, (0))], I2, 0, 0, by decide +kernel⟩,
   ⟨o0, bd (8 + (5)) [(0, 4, (1)), (4, 2, (5))], R [(Reg.DCM.RGN.CUR 1, 0), (Reg.DCM.RGN.CUR 2, 1), (Reg.DCM.SR.STATE,
     2)] (D 0x11 .inService (Im fun z => { z with stage := 2 })), 1, 5, by decide +kernel⟩,
   ⟨o0, bd (8 + (5)) [(0, 4, (1)), (4, 2, (5))], R [(Reg.DCM.RGN.CUR 1, 0), (Reg.DCM.RGN.CUR 2, 1)] (D 0x11 .inService I2), 1, 5, by decide +kernel⟩,
   ⟨o0, bd (8 + (0)) [(0, 4, (1048576)), (4, 2, (0))], R [(Reg.DCM.RGN.CUR 1, 0), (Reg.DCM.RGN.CUR 2, 1), (Reg.IMG.STAT.STAGED,
     1)] (D 0x11 .inService I2), 1048576, 0, by decide +kernel⟩⟩

theorem test_hyps_ImagesAndSettingsAreKept :
    (∃ o : Origin, ∃ body : List Byte, ∃ s : State, mayDispatch s o = true ∧ body.length = 0) ∧
    (∃ o : Origin, ∃ body : List Byte, ∃ s : State, ∃ k, mayDispatch s o = true ∧ body.length = 4 ∧ field body 0 1 = k ∧ zeroAt body 1 3 = true ∧
      2 < k) ∧
    (∃ o : Origin, ∃ body : List Byte, ∃ s : State, ∃ k, mayDispatch s o = true ∧ body.length = 4 ∧ field body 0 1 = k ∧ zeroAt body 1 3 = true ∧
      k < 2) ∧
    (∃ o : Origin, ∃ body : List Byte, ∃ s : State, ∃ k, mayDispatch s o = true ∧ body.length = 4 ∧ field body 0 1 = k ∧ zeroAt body 1 3 = true ∧
      k = 2 ∧ runsSlot s 0 = none) ∧
    (∃ o : Origin, ∃ body : List Byte, ∃ s : State, ∃ k, mayDispatch s o = true ∧ body.length = 4 ∧ field body 0 1 = k ∧ zeroAt body 1 3 = true ∧
      1 < k) ∧
    (∃ o : Origin, ∃ body : List Byte, ∃ s : State, ∃ k, mayDispatch s o = true ∧ body.length = 4 ∧ field body 0 1 = k ∧ zeroAt body 1 3 = true ∧
      k ≤ 1 ∧ (s.img.stage < 2 ∨ s.img.verify.isSome = true ∨ s.img.act.isSome = true)) ∧
    (∃ o : Origin, ∃ body : List Byte, ∃ s : State, ∃ k, mayDispatch s o = true ∧ body.length = 4 ∧ field body 0 1 = k ∧ zeroAt body 1 3 = true ∧
      k ≤ 1 ∧ 2 ≤ s.img.stage ∧ s.img.verify = none ∧ s.img.act = none) ∧
    (∃ o : Origin, ∃ body : List Byte, ∃ s : State, ∃ f, mayDispatch s o = true ∧ body.length = 4 ∧ field body 0 2 = f ∧ zeroAt body 2 2 = true ∧
      f = 1) ∧
    (∃ o : Origin, ∃ body : List Byte, ∃ s : State, ∃ f, ∃ v, mayDispatch s o = true ∧ body.length = 4 ∧ field body 0 2 = f ∧
      zeroAt body 2 2 = true ∧ f ≠ 1 ∧ v = (setting s f).getD []) ∧
    (∃ o : Origin, ∃ body : List Byte, ∃ s : State, ∃ f, ∃ n, mayDispatch s o = true ∧ body.length = 4 + n ∧ field body 0 2 = f ∧
      field body 2 2 = n ∧ (f = 0 ∨ f = 0xFFFF ∨ 1024 < n)) ∧
    (∃ o : Origin, ∃ body : List Byte, ∃ s : State, ∃ f, ∃ n, mayDispatch s o = true ∧ body.length = 4 + n ∧ field body 0 2 = f ∧
      field body 2 2 = n ∧ f ≠ 0 ∧ f ≠ 0xFFFF ∧ n ≤ 1024 ∧ (s.img.trial.isSome = true ∨ s.img.stage < 2)) ∧
    (∃ o : Origin, ∃ body : List Byte, ∃ s : State, ∃ f, ∃ n, mayDispatch s o = true ∧ body.length = 4 + n ∧ field body 0 2 = f ∧
      field body 2 2 = n ∧ f ≠ 0 ∧ f ≠ 0xFFFF ∧ n ≤ 1024 ∧ s.img.trial = none ∧ 2 ≤ s.img.stage) ∧
    (∃ s : State, s.img.verify = none) ∧
    (∃ s : State, ∃ o, ∃ k, ∃ m, s.img.verify = some (o, k) ∧ m = (if (verifyStatus s k).1 = ST_OK then SL_VERIFIED else SL_FAILED)) ∧
    (∃ s : State, s.img.jobs = []) ∧
    (∃ s : State, s.img.jobs ≠ []) ∧
    (∃ s : State, ∃ o, ∃ f, ∃ v, ∃ l, s.img.jobs = .set o f v :: l) ∧
    (∃ s : State, ∃ o, ∃ l, ∃ k, ∃ e, s.img.jobs = .commit o :: l ∧ s.img.trial = some (k, e)) ∧
    (∃ s : State, accStat s Reg.IMG.LOADLOG.word.addr = ST_OK) :=
  ⟨⟨o0, bd (0) [], I2, by decide +kernel⟩,
   ⟨o0, bd (4) [(0, 1, (3))], I2, 3, by decide +kernel⟩,
   ⟨o0, bd (4) [(0, 1, (1))], I2, 1, by decide +kernel⟩,
   ⟨o0, bd (4) [(0, 1, (2))], I2, 2, by decide +kernel⟩,
   ⟨o0, bd (4) [(0, 1, (2))], I2, 2, by decide +kernel⟩,
   ⟨o0, bd (4) [(0, 1, (1))], S0, 1, by decide +kernel⟩,
   ⟨o0, bd (4) [(0, 1, (1))], I2, 1, by decide +kernel⟩,
   ⟨o0, bd (4) [(0, 2, (1))], I2, 1, by decide +kernel⟩,
   ⟨o0, bd (4) [(0, 2, (0xFFFF))], Im fun z => { z with settings := [(0xFFFF, [1, 2])] }, 0xFFFF, [1, 2], by decide +kernel⟩,
   ⟨o0, bd (4 + (0)) [(0, 2, (0xFFFF)), (2, 2, (0))], I2, 0xFFFF, 0, by decide +kernel⟩,
   ⟨o0, bd (4 + (1024)) [(0, 2, (2)), (2, 2, (1024))], S0, 2, 1024, by decide +kernel⟩,
   ⟨o0, bd (4 + (1024)) [(0, 2, (0xFFFE)), (2, 2, (1024))], I2, 0xFFFE, 1024, by decide +kernel⟩,
   ⟨I2, by decide +kernel⟩,
   ⟨Im fun z => { z with stage := 2, verify := some (o0, 1) }, o0, 1, SL_FAILED, by decide +kernel⟩,
   ⟨I2, by decide +kernel⟩,
   ⟨Im fun z => { z with jobs := [.commit o0] }, by decide +kernel⟩,
   ⟨Im fun z => { z with jobs := [.set o0 7 [1, 2, 3], .commit o0] }, o0, 7, [1, 2, 3], [NorJob.commit o0], by decide +kernel⟩,
   ⟨R [(Reg.IMG.STAT.NEWDIE, 0xFF)] (Im fun z => { z with jobs := [.commit o0], trial := some (1, 5) }), o0, ([] : List NorJob), 1, 5,
     by decide +kernel⟩,
   ⟨R [(Reg.IMG.LOADLOG.COUNT, 3)] (I2), by decide +kernel⟩⟩

theorem test_hyps_ActivationsTrialsAndReverts :
    (∃ o : Origin, ∃ body : List Byte, ∃ k : Nat, ∃ s : State, mayDispatch s o = true ∧ body.length = 8 ∧ field body 0 1 = k ∧ k ≤ 1 ∧
      field body 1 1 ≤ 1 ∧ field body 4 4 ≤ 4000000 ∧ activateHeld s = true) ∧
    (∃ o : Origin, ∃ body : List Byte, ∃ k : Nat, ∃ s : State, mayDispatch s o = true ∧ body.length = 8 ∧ field body 0 1 = k ∧ k ≤ 1 ∧
      field body 1 1 ≤ 1 ∧ field body 4 4 ≤ 4000000 ∧ activateHeld s = false ∧ (bootNow s).st k ≠ SL_VERIFIED) ∧
    (∃ o : Origin, ∃ body : List Byte, ∃ k : Nat, ∃ s : State, (bootNow s).st k = SL_VERIFIED ∧ mayDispatch s o = true ∧ body.length = 8 ∧
      field body 0 1 = k ∧ k ≤ 1 ∧ field body 1 1 ≤ 1 ∧ field body 4 4 ≤ 4000000 ∧ activateHeld s = false ∧ pathOk s k = false) ∧
    (∃ o : Origin, ∃ body : List Byte, ∃ k : Nat, ∃ s : State, (bootNow s).st k = SL_VERIFIED ∧ mayDispatch s o = true ∧ body.length = 8 ∧
      field body 0 1 = k ∧ k ≤ 1 ∧ field body 1 1 ≤ 1 ∧ field body 4 4 ≤ 4000000 ∧ activateHeld s = false ∧ pathOk s k = true) ∧
    (∃ a : Activation, ∃ s : State, ∃ l, s.img.act = some a ∧ a.todo = 0 :: l ∧ (a.stop = false ∨ a.back = true)) ∧
    (∃ a : Activation, ∃ s : State, ∃ d, ∃ l, s.img.act = some a ∧ a.todo = d :: l ∧ 2 ≤ d ∧ d ≤ 7 ∧ (a.stop = false ∨ a.back = true) ∧
      (a.back = true ∨ sameVersion s d a.slot = false) ∧ resetsDie s d a.slot = true ∧ domSt s (0x10 + d) = .inService) ∧
    (∃ a : Activation, ∃ s : State, s.img.act = some a ∧ a.todo = [] ∧ a.back = true) ∧
    (∃ a : Activation, ∃ s : State, s.img.act = some a ∧ a.todo = [] ∧ a.back = true ∧ a.stop = true) ∧
    (∃ a : Activation, ∃ s : State, ∃ d, s.img.act = some a ∧ a.cur = some d ∧ d ≠ 0 ∧ d < 8 ∧ domSt s (0x10 + d) = .inService ∧
      runsSlot s d = some a.slot) ∧
    (∃ a : Activation, ∃ s : State, s.img.act = some a ∧ (a.cur = none ∨ a.cur = some 0)) ∧
    (∃ a : Activation, ∃ s : State, ∃ d, s.img.act = some a ∧ a.cur = some d ∧ d ≠ 0 ∧ domSt s (0x10 + d) ≠ .quiescing ∧
      domSt s (0x10 + d) ≠ .resetting ∧ (domSt s (0x10 + d) ≠ .inService ∨ runsSlot s d ≠ some a.slot)) ∧
    (∃ a : Activation, ∃ s : State, s.img.act = some a ∧ a.stage = 1 ∧ s1Up s = true) ∧
    (∃ a : Activation, ∃ s : State, s.img.act = some a ∧ (a.stage ≠ 1 ∨ s1Up s = false)) ∧
    (∃ a : Activation, ∃ s : State, s.img.act = some a ∧ a.stage ≠ 2) ∧
    (∃ a : Activation, ∃ s : State, s.img.act = some a ∧ a.stage = 2 ∧ a.back = false ∧ a.stop = false) ∧
    (∃ s : State, ∃ rv : Activation, rv = ⟨s.img.old, true, 0, 0, 0 :: [7, 6, 5, 4, 3, 2].filter (fun d => bit d (rd Reg.IMG.STAT.NEWDIE s)), [],
      none, 0, true, 0, true⟩ ∧ s.img.act = none) ∧
    (∃ s : State, ∃ rv : Activation, rv = ⟨s.img.old, true, 0, 0, 0 :: [7, 6, 5, 4, 3, 2].filter (fun d => bit d (rd Reg.IMG.STAT.NEWDIE s)), [],
      none, 0, true, 0, true⟩ ∧ (s.img.trial = none ∨ committing s = true)) ∧
    (∃ s : State, ∃ rv : Activation, rv = ⟨s.img.old, true, 0, 0, 0 :: [7, 6, 5, 4, 3, 2].filter (fun d => bit d (rd Reg.IMG.STAT.NEWDIE s)), [],
      none, 0, true, 0, true⟩ ∧ s.img.trial.isSome = true ∧ committing s = false) ∧
    (∃ o : Origin, ∃ s : State, ∃ rv : Activation, rv = ⟨s.img.old, true, 0, 0, 0 :: [7, 6, 5, 4, 3,
      2].filter (fun d => bit d (rd Reg.IMG.STAT.NEWDIE s)), [], none, 0, true, 0, true⟩ ∧ mayDispatch s o = true ∧ s.img.trial = none) ∧
    (∃ o : Origin, ∃ s : State, ∃ rv : Activation, rv = ⟨s.img.old, true, 0, 0, 0 :: [7, 6, 5, 4, 3,
      2].filter (fun d => bit d (rd Reg.IMG.STAT.NEWDIE s)), [], none, 0, true, 0, true⟩ ∧ mayDispatch s o = true ∧ s.img.trial.isSome = true ∧
      committing s = true) ∧
    (∃ o : Origin, ∃ s : State, ∃ rv : Activation, rv = ⟨s.img.old, true, 0, 0, 0 :: [7, 6, 5, 4, 3,
      2].filter (fun d => bit d (rd Reg.IMG.STAT.NEWDIE s)), [], none, 0, true, 0, true⟩ ∧ mayDispatch s o = true ∧ s.img.trial.isSome = true ∧
      committing s = false) ∧
    (∃ o : Origin, ∃ s : State, ∃ rv : Activation, ∃ a, rv = ⟨s.img.old, true, 0, 0, 0 :: [7, 6, 5, 4, 3,
      2].filter (fun d => bit d (rd Reg.IMG.STAT.NEWDIE s)), [], none, 0, true, 0, true⟩ ∧ mayDispatch s o = true ∧ s.img.act = some a) ∧
    (∃ o : Origin, ∃ s : State, ∃ rv : Activation, rv = ⟨s.img.old, true, 0, 0, 0 :: [7, 6, 5, 4, 3,
      2].filter (fun d => bit d (rd Reg.IMG.STAT.NEWDIE s)), [], none, 0, true, 0, true⟩ ∧ mayDispatch s o = true ∧ s.img.act = none ∧
      s.img.trial = none) ∧
    (∃ o : Origin, ∃ s : State, ∃ rv : Activation, rv = ⟨s.img.old, true, 0, 0, 0 :: [7, 6, 5, 4, 3,
      2].filter (fun d => bit d (rd Reg.IMG.STAT.NEWDIE s)), [], none, 0, true, 0, true⟩ ∧ mayDispatch s o = true ∧ s.img.act = none ∧
      s.img.trial.isSome = true ∧ committing s = true) ∧
    (∃ o : Origin, ∃ s : State, ∃ rv : Activation, rv = ⟨s.img.old, true, 0, 0, 0 :: [7, 6, 5, 4, 3,
      2].filter (fun d => bit d (rd Reg.IMG.STAT.NEWDIE s)), [], none, 0, true, 0, true⟩ ∧ mayDispatch s o = true ∧ s.img.act = none ∧
      s.img.trial.isSome = true ∧ committing s = false) :=
  ⟨⟨o0, bd (8) [(0, 1, (1 : Nat)), (0, 1, 1), (4, 4, 4000000)], 1, S0, by decide +kernel⟩,
   ⟨o0, bd (8) [(0, 1, (1 : Nat)), (0, 1, 1), (1, 1, 1), (4, 4, 4000000)], 1, I2, by decide +kernel⟩,
   ⟨o0, bd (8) [(0, 1, (1 : Nat)), (0, 1, 1), (1, 1, 1), (4, 4, 4000000)], 1, Bs bad0, Bs_boot fun _ => bad0_low, by decide +kernel⟩,
   ⟨o0, bd (8) [(0, 1, (1 : Nat)), (0, 1, 1), (1, 1, 1), (2, 2, 7), (4, 4, 4000000)], 1, Bs [], Bs_boot fun _ _ => rfl, by decide +kernel⟩,
   ⟨{ ac0 with todo := [0, 7] }, Im fun z => { z with act := some { ac0 with todo := [0, 7] } }, [7], by decide +kernel⟩,
   ⟨{ ac0 with todo := [7, 0] }, norProgram (imgBase 1 + 6) [1] (norProgram (imgBase 1 + 64) [3, 1, 1,
     1] (D 0x17 .inService (Im fun z => { z with act := some { ac0 with todo := [7, 0] } }))), 7, [0], by decide +kernel⟩,
   ⟨{ ac0 with back := true, stop := true }, Im fun z => { z with act := some { ac0 with back := true, stop := true } }, by decide +kernel⟩,
   ⟨{ ac0 with back := true, stop := true }, Im fun z => { z with act := some { ac0 with back := true, stop := true } }, by decide +kernel⟩,
   ⟨{ ac0 with cur := some 7 }, D 0x17 .inService (Im fun z => { z with runs := [(7, 2)], act := some { ac0 with cur := some 7 } }), 7,
     by decide +kernel⟩,
   ⟨ac0, Im fun z => { z with stage := 2, act := some ac0 }, by decide +kernel⟩,
   ⟨{ ac0 with cur := some 7 }, D 0x17 .returning (Im fun z => { z with runs := [(7, 2)], act := some { ac0 with cur := some 7 } }), 7,
     by decide +kernel⟩,
   ⟨{ ac0 with stage := 1, cur := some 0 }, D 0x11 .inService (Im fun z => { z with act := some { ac0 with stage := 1, cur := some 0 } }),
     by decide +kernel⟩,
   ⟨ac0, Im fun z => { z with stage := 2, act := some ac0 }, by decide +kernel⟩,
   ⟨ac0, Im fun z => { z with stage := 2, act := some ac0 }, by decide +kernel⟩,
   ⟨{ ac0 with stage := 2, cur := some 0 }, D 0x11 .inService (Im fun z => { z with act := some { ac0 with stage := 2, cur := some 0 } }),
     by decide +kernel⟩,
   ⟨I2, ⟨(I2).img.old, true, 0, 0, 0 :: [7, 6, 5, 4, 3, 2].filter (fun z => bit z (rd Reg.IMG.STAT.NEWDIE (I2))), [], none, 0, true, 0, true⟩,
     by decide +kernel⟩,
   ⟨I2, ⟨(I2).img.old, true, 0, 0, 0 :: [7, 6, 5, 4, 3, 2].filter (fun z => bit z (rd Reg.IMG.STAT.NEWDIE (I2))), [], none, 0, true, 0, true⟩,
     by decide +kernel⟩,
   ⟨R [(Reg.IMG.STAT.NEWDIE, 0x84)] (Im fun z => { z with trial := some (1, 5) }), ⟨(R [(Reg.IMG.STAT.NEWDIE,
     0x84)] (Im fun z => { z with trial := some (1, 5) })).img.old, true, 0, 0, 0 :: [7, 6, 5, 4, 3,
     2].filter (fun z => bit z (rd Reg.IMG.STAT.NEWDIE (R [(Reg.IMG.STAT.NEWDIE, 0x84)] (Im fun z => { z with trial := some (1, 5) })))), [], none, 0,
     true, 0, true⟩, by decide +kernel⟩,
   ⟨o0, I2, ⟨(I2).img.old, true, 0, 0, 0 :: [7, 6, 5, 4, 3, 2].filter (fun z => bit z (rd Reg.IMG.STAT.NEWDIE (I2))), [], none, 0, true, 0, true⟩,
     by decide +kernel⟩,
   ⟨o0, Im fun z => { z with trial := some (1, 5), jobs := [.commit o0] },
     ⟨(Im fun z => { z with trial := some (1, 5), jobs := [.commit o0] }).img.old, true, 0, 0, 0 :: [7, 6, 5, 4, 3,
     2].filter (fun z => bit z (rd Reg.IMG.STAT.NEWDIE (Im fun z => { z with trial := some (1, 5), jobs := [.commit o0] }))), [], none, 0, true, 0,
     true⟩, by decide +kernel⟩,
   ⟨o0, Im fun z => { z with trial := some (1, 5) }, ⟨(Im fun z => { z with trial := some (1, 5) }).img.old, true, 0, 0, 0 :: [7, 6, 5, 4, 3,
     2].filter (fun z => bit z (rd Reg.IMG.STAT.NEWDIE (Im fun z => { z with trial := some (1, 5) }))), [], none, 0, true, 0, true⟩, by decide +kernel⟩,
   ⟨o0, Im fun z => { z with act := some ac0 }, ⟨(Im fun z => { z with act := some ac0 }).img.old, true, 0, 0, 0 :: [7, 6, 5, 4, 3,
     2].filter (fun z => bit z (rd Reg.IMG.STAT.NEWDIE (Im fun z => { z with act := some ac0 }))), [], none, 0, true, 0, true⟩, ac0, by decide +kernel⟩,
   ⟨o0, I2, ⟨(I2).img.old, true, 0, 0, 0 :: [7, 6, 5, 4, 3, 2].filter (fun z => bit z (rd Reg.IMG.STAT.NEWDIE (I2))), [], none, 0, true, 0, true⟩,
     by decide +kernel⟩,
   ⟨o0, Im fun z => { z with trial := some (1, 5), jobs := [.commit o0] },
     ⟨(Im fun z => { z with trial := some (1, 5), jobs := [.commit o0] }).img.old, true, 0, 0, 0 :: [7, 6, 5, 4, 3,
     2].filter (fun z => bit z (rd Reg.IMG.STAT.NEWDIE (Im fun z => { z with trial := some (1, 5), jobs := [.commit o0] }))), [], none, 0, true, 0,
     true⟩, by decide +kernel⟩,
   ⟨o0, R [(Reg.IMG.STAT.NEWDIE, 0x84)] (Im fun z => { z with trial := some (1, 5) }), ⟨(R [(Reg.IMG.STAT.NEWDIE,
     0x84)] (Im fun z => { z with trial := some (1, 5) })).img.old, true, 0, 0, 0 :: [7, 6, 5, 4, 3,
     2].filter (fun z => bit z (rd Reg.IMG.STAT.NEWDIE (R [(Reg.IMG.STAT.NEWDIE, 0x84)] (Im fun z => { z with trial := some (1, 5) })))), [], none, 0,
     true, 0, true⟩, by decide +kernel⟩⟩

theorem test_hyps_CountersLogsEyesAndLinks :
    (∃ a : BitVec 32, ∃ s : State, badAddr a.toNat = false ∧ accStat s a.toNat = ST_OK ∧ 0x80000 ≤ addrOff a.toNat ∧ ctrAt a.toNat = false) ∧
    (∃ a : BitVec 32, ∃ s : State, ∃ v, badAddr a.toNat = false ∧ accStat s a.toNat = ST_OK ∧ 0x80000 ≤ addrOff a.toNat ∧ a.toNat % 8 = 0 ∧
      ctrAt a.toNat = true ∧ v = (if (ctrGet s a.toNat).sat then 2 ^ 64 - 1 else (ctrGet s a.toNat).v)) ∧
    (∃ a : BitVec 32, ∃ s : State, badAddr a.toNat = false ∧ accStat s a.toNat = ST_OK ∧ 0x80000 ≤ addrOff a.toNat ∧ a.toNat % 8 = 4 ∧
      ctrAt a.toNat = true) ∧
    (∃ a : BitVec 32, badAddr a.toNat = true) ∧
    (∃ s : State, tsLives s = false) ∧
    (∃ s : State, tsLives s = true) ∧
    (∃ a : BitVec 32, ∃ s : State, ∃ x, tsLives s = true ∧ a.toNat / 0x2000000 % 8 ≠ 1 ∧ bit 0 (rd Reg.CMD.OPEN_HOST.GMASK s) = true ∧
      x = barAddr (a.toNat % 2 ^ 28) ∧ badAddr x = false ∧ accStat s x ≠ ST_OK) ∧
    (∃ o : Origin, ∃ body : List Byte, ∃ a : Nat, ∃ n : Nat, ∃ op : Nat, ∃ s : State, mayDispatch s o = true ∧ body.length = 8 ∧ field body 0 4 = a ∧
      field body 4 2 = n ∧ field body 6 1 = op ∧ zeroAt body 7 1 = true ∧ (2 < op ∨ a % 8 ≠ 0 ∨ addrOff a < 0x80000 ∨ badAddr a = true ∨ (op = 0 ∧
      (n = 0 ∨ 0x100000 < addrOff a + 8 * n)))) ∧
    (∃ o : Origin, ∃ body : List Byte, ∃ a : Nat, ∃ n : Nat, ∃ op : Nat, ∃ s : State, mayDispatch s o = true ∧ body.length = 8 ∧ field body 0 4 = a ∧
      field body 4 2 = n ∧ field body 6 1 = op ∧ zeroAt body 7 1 = true ∧ op ≤ 2 ∧ a % 8 = 0 ∧ 0x80000 ≤ addrOff a ∧ badAddr a = false ∧
      (op = 0 → n ≠ 0 ∧ addrOff a + 8 * n ≤ 0x100000) ∧ accStat s a ≠ ST_OK) ∧
    (∃ o : Origin, ∃ body : List Byte, ∃ a : Nat, ∃ n : Nat, ∃ op : Nat, ∃ s : State, ∃ b, mayDispatch s o = true ∧ body.length = 8 ∧
      field body 0 4 = a ∧ field body 4 2 = n ∧ field body 6 1 = op ∧ zeroAt body 7 1 = true ∧ op ≤ 2 ∧ a % 8 = 0 ∧ 0x80000 ≤ addrOff a ∧
      badAddr a = false ∧ (op = 0 → n ≠ 0 ∧ addrOff a + 8 * n ≤ 0x100000) ∧ accStat s a = ST_OK ∧ b = Tab.get noB s.ctrRc (ctrBlock a) ∧ op = 0) ∧
    (∃ o : Origin, ∃ body : List Byte, ∃ a : Nat, ∃ n : Nat, ∃ op : Nat, ∃ s : State, ∃ b, mayDispatch s o = true ∧ body.length = 8 ∧
      field body 0 4 = a ∧ field body 4 2 = n ∧ field body 6 1 = op ∧ zeroAt body 7 1 = true ∧ op ≤ 2 ∧ a % 8 = 0 ∧ 0x80000 ≤ addrOff a ∧
      badAddr a = false ∧ (op = 0 → n ≠ 0 ∧ addrOff a + 8 * n ≤ 0x100000) ∧ accStat s a = ST_OK ∧ b = Tab.get noB s.ctrRc (ctrBlock a) ∧ op ≠ 0) ∧
    (∃ o : Origin, ∃ body : List Byte, ∃ s : State, ∃ p, ∃ l, mayDispatch s o = true ∧ body.length = 4 ∧ field body 0 1 = p ∧ field body 1 1 = l ∧
      zeroAt body 2 2 = true ∧ (3 < p ∨ 3 < l)) ∧
    (∃ o : Origin, ∃ body : List Byte, ∃ s : State, ∃ p, ∃ l, mayDispatch s o = true ∧ body.length = 4 ∧ field body 0 1 = p ∧ field body 1 1 = l ∧
      zeroAt body 2 2 = true ∧ p ≤ 3 ∧ l ≤ 3 ∧ ((lstate s p ≠ ACTIVE ∧
      lstate s p ≠ HUM) ∨ bit l (rd (Reg.HLP.STAT.LANES p) s) = false ∨ s.tests.eye.isSome = true)) ∧
    (∃ o : Origin, ∃ body : List Byte, ∃ s : State, ∃ p, ∃ l, mayDispatch s o = true ∧ body.length = 4 ∧ field body 0 1 = p ∧ field body 1 1 = l ∧
      zeroAt body 2 2 = true ∧ p ≤ 3 ∧ l ≤ 3 ∧ (lstate s p = ACTIVE ∨ lstate s p = HUM) ∧ bit l (rd (Reg.HLP.STAT.LANES p) s) = true ∧
      s.tests.eye = none) ∧
    (∃ o : Origin, ∃ body : List Byte, ∃ s : State, ∃ n, mayDispatch s o = true ∧ body.length = 8 ∧ zeroAt body 3 1 = true ∧ field body 1 1 = n ∧
      (1 < field body 0 1 ∨ n = 0 ∨ 64 < n ∨ 1 < field body 2 1)) ∧
    (∃ o : Origin, ∃ body : List Byte, ∃ s : State, ∃ n, ∃ es : List LogEnt, mayDispatch s o = true ∧ body.length = 8 ∧ zeroAt body 3 1 = true ∧
      field body 1 1 = n ∧ field body 0 1 = 0 ∧ 1 ≤ n ∧ n ≤ 64 ∧ field body 2 1 ≤ 1 ∧ es = s.diag.elog.take n) ∧
    (∃ s : State, s.tests.eye = none) ∧
    (∃ s : State, ∃ o : Origin, ∃ p : Nat, ∃ l : Nat, s.tests.eye = some (o, p, l) ∧ (4 ≤ l ∨ (lstate s p ≠ ACTIVE ∧ lstate s p ≠ HUM))) ∧
    (∃ s : State, ∃ o : Origin, ∃ p : Nat, ∃ l : Nat, ∃ e : List Byte, s.tests.eye = some (o, p, l) ∧ l < 4 ∧
      (lstate s p = ACTIVE ∨ lstate s p = HUM) ∧ e.length = 12) ∧
    (∃ s : State, (s.diag.norQ = [] ∨ rdB Reg.IMG.QSPI.READY s = false)) ∧
    (∃ s : State, ∃ e, ∃ l, s.diag.norQ = e :: l ∧ rdB Reg.IMG.QSPI.READY s = true) ∧
    (∃ s : State, ∃ slot : Slot, present s slot = false) ∧
    (∃ s : State, ∃ slot : Slot, present s slot = true) ∧
    (∃ s : State, ∃ slot : Slot, accStat s (Reg.DIE.LSTAT.word slot).addr = ST_OK) :=
  ⟨⟨0x48FFF8, { S0 with ctrs := [(0x480000, ⟨2 ^ 40 + 5, true⟩)] }, by decide +kernel⟩,
   ⟨0x480000, { S0 with ctrs := [(0x480000, ⟨2 ^ 40 + 5, true⟩)] },
     (if (ctrGet ({ S0 with ctrs := [(0x480000, ⟨2 ^ 40 + 5, true⟩)] }) (0x480000 : BitVec 32).toNat).sat then 2 ^ 64 - 1 else (ctrGet ({ S0 with ctrs := [(0x480000, ⟨2 ^ 40 + 5, true⟩)] }) (0x480000 : BitVec 32).toNat).v),
     by decide +kernel⟩,
   ⟨0x480004, { S0 with ctrs := [(0x480000, ⟨2 ^ 40 + 5, true⟩)] }, by decide +kernel⟩,
   ⟨0x80001, by decide +kernel⟩,
   ⟨{ S0 with ctrs := [(0x480000, ⟨2 ^ 40 + 5, true⟩)] }, by decide +kernel⟩,
   ⟨Ts, by decide +kernel⟩,
   ⟨0x4000000, R [(Reg.CMD.OPEN_HOST.GMASK, 1)] (setDom 0x12 (Domain.reset .resetting) Ts), barAddr ((0x4000000 : BitVec 32).toNat % 2 ^ 28),
     by decide +kernel⟩,
   ⟨o0, bd (8) [(0, 4, (0x80000 : Nat)), (4, 2, (2 : Nat)), (6, 1, (3 : Nat))], 0x80000, 2, 3, { S0 with ctrs := [(0x480000, ⟨2 ^ 40 + 5, true⟩)] },
     by decide +kernel⟩,
   ⟨o0, bd (8) [(0, 4, (0x40080000 : Nat)), (4, 2, (2 : Nat)), (6, 1, (2 : Nat))], 0x40080000, 2, 2,
     setDom 0x12 (Domain.reset .resetting) State.reset, by decide +kernel⟩,
   ⟨o0, bd (8) [(0, 4, (0x480000 : Nat)), (4, 2, (2 : Nat)), (6, 1, (0 : Nat))], 0x480000, 2, 0,
     { S0 with ctrs := [(0x480000, ⟨2 ^ 40 + 5, true⟩)] }, false, by decide +kernel⟩,
   ⟨o0, bd (8) [(0, 4, (0x480000 : Nat)), (4, 2, (2 : Nat)), (6, 1, (1 : Nat))], 0x480000, 2, 1,
     { S0 with ctrs := [(0x480000, ⟨2 ^ 40 + 5, true⟩)] }, false, by decide +kernel⟩,
   ⟨o0, bd (4) [(0, 1, (4)), (1, 1, (0))], State.reset, 4, 0, by decide +kernel⟩,
   ⟨o0, bd (4) [(0, 1, (3)), (1, 1, (3))], State.reset, 3, 3, by decide +kernel⟩,
   ⟨o0, bd (4) [(0, 1, (3)), (1, 1, (3))], R [(Reg.HLP.STAT.LSTATE 3, 3), (Reg.HLP.STAT.LANES 3, 8)] (State.reset), 3, 3, by decide +kernel⟩,
   ⟨o0, bd (8) [(1, 1, (65))], State.reset, 65, by decide +kernel⟩,
   ⟨o0, bd (8) [(1, 1, (64)), (0, 1, 0)], { S0 with diag := { S0.diag with elog := [x9, x9], elogSeq := 2 } }, 64,
     ({ S0 with diag := { S0.diag with elog := [x9, x9], elogSeq := 2 } }).diag.elog.take (64), by decide +kernel⟩,
   ⟨State.reset, by decide +kernel⟩,
   ⟨{ S0 with tests := { S0.tests with eye := some (o0, 3, 3) } }, o0, 3, 3, by decide +kernel⟩,
   ⟨R [(Reg.HLP.STAT.LSTATE 3, 3), (Reg.HLP.STAT.MODE_CUR 3, 1)] ({ S0 with tests := { S0.tests with eye := some (o0, 3, 3) } }), o0, 3, 3,
     bd 12 [(0, 4, 7), (4, 4, 9), (8, 4, 9)], by decide +kernel⟩,
   ⟨State.reset, by decide +kernel⟩,
   ⟨R [(Reg.IMG.QSPI.READY, 1)] ({ S0 with diag := { S0.diag with norQ := [x9] } }), x9, [], by decide +kernel⟩,
   ⟨{ S0 with variant := .a2 }, 2, by decide +kernel⟩,
   ⟨State.reset, 7, by decide +kernel⟩,
   ⟨R [(Reg.DIE.LSTAT.WORST 7, 3), (Reg.DIE.LSTAT.STATE 7, 2)] (State.reset), 7, by decide +kernel⟩⟩

theorem test_hyps_SelfTestsRun :
    (∃ o : Origin, ∃ body : List Byte, ∃ t : Nat, ∃ d : Nat, ∃ s : State, ∃ sub, ∃ param, mayDispatch s o = true ∧ field body 0 1 = t ∧
      field body 1 1 = d ∧ body.length = 8 ∧ field body 2 1 = sub ∧ field body 4 4 = param ∧
      (testKnown s t = false ∨ testDomOk t d = false ∨ testSubOk t sub param = false ∨ zeroAt body 3 1 = false)) ∧
    (∃ o : Origin, ∃ body : List Byte, ∃ t : Nat, ∃ d : Nat, ∃ s : State, ∃ sub, ∃ param, mayDispatch s o = true ∧ field body 0 1 = t ∧
      field body 1 1 = d ∧ body.length = 8 ∧ field body 2 1 = sub ∧ field body 4 4 = param ∧ testKnown s t = true ∧ testDomOk t d = true ∧
      testSubOk t sub param = true ∧ zeroAt body 3 1 = true ∧ testCheck t d sub s ≠ ST_OK) ∧
    (∃ o : Origin, ∃ body : List Byte, ∃ t : Nat, ∃ d : Nat, ∃ s : State, ∃ sub, ∃ param, mayDispatch s o = true ∧ field body 0 1 = t ∧
      field body 1 1 = d ∧ body.length = 8 ∧ field body 2 1 = sub ∧ field body 4 4 = param ∧ testKnown s t = true ∧ testDomOk t d = true ∧
      testSubOk t sub param = true ∧ zeroAt body 3 1 = true ∧ t ≠ 0x12 ∧ testRunning s (testKey t d) = true) ∧
    (∃ o : Origin, ∃ body : List Byte, ∃ t : Nat, ∃ d : Nat, ∃ s : State, ∃ sub, ∃ param, mayDispatch s o = true ∧ field body 0 1 = t ∧
      field body 1 1 = d ∧ body.length = 8 ∧ field body 2 1 = sub ∧ field body 4 4 = param ∧ testKnown s t = true ∧ testDomOk t d = true ∧
      testSubOk t sub param = true ∧ zeroAt body 3 1 = true ∧ (t = 0x10 ∨ t = 0x11) ∧ testRunning s (testKey t d) = false ∧ domSt s d ≠ .quiesced) ∧
    (∃ o : Origin, ∃ body : List Byte, ∃ t : Nat, ∃ d : Nat, ∃ s : State, ∃ sub, ∃ param, mayDispatch s o = true ∧ field body 0 1 = t ∧
      field body 1 1 = d ∧ body.length = 8 ∧ field body 2 1 = sub ∧ field body 4 4 = param ∧ testKnown s t = true ∧ testDomOk t d = true ∧
      testSubOk t sub param = true ∧ zeroAt body 3 1 = true ∧ (t = 0x10 ∨ t = 0x11) ∧ domSt s d = .quiesced ∧ testOn s d = false) ∧
    (∃ o : Origin, ∃ body : List Byte, ∃ t : Nat, ∃ d : Nat, ∃ s : State, ∃ sub, ∃ param, mayDispatch s o = true ∧ field body 0 1 = t ∧
      field body 1 1 = d ∧ body.length = 8 ∧ field body 2 1 = sub ∧ field body 4 4 = param ∧ testKnown s t = true ∧ testDomOk t d = true ∧
      testSubOk t sub param = true ∧ zeroAt body 3 1 = true ∧ t = 0x12 ∧ present s (d - 0x10) = true ∧ linkState s (d - 0x10) ≠ 4 ∧
      domSt s d = .quiesced ∧ testOn s d = false) ∧
    (∃ o : Origin, ∃ body : List Byte, ∃ t : Nat, ∃ d : Nat, ∃ s : State, ∃ sub, ∃ param, mayDispatch s o = true ∧ field body 0 1 = t ∧
      field body 1 1 = d ∧ body.length = 8 ∧ field body 2 1 = sub ∧ field body 4 4 = param ∧ testKnown s t = true ∧ testDomOk t d = true ∧
      testSubOk t sub param = true ∧ zeroAt body 3 1 = true ∧ t = 0x03 ∧ testRunning s 0x3FF = false ∧ rdB Reg.RTE.FGR.BUSY s = false) ∧
    (∃ o : Origin, ∃ body : List Byte, ∃ t : Nat, ∃ d : Nat, ∃ s : State, ∃ sub, ∃ param, mayDispatch s o = true ∧ field body 0 1 = t ∧
      field body 1 1 = d ∧ body.length = 8 ∧ field body 2 1 = sub ∧ field body 4 4 = param ∧ testKnown s t = true ∧ testDomOk t d = true ∧
      testSubOk t sub param = true ∧ zeroAt body 3 1 = true ∧ t = 0x02 ∧ testRunning s 0x211 = false) ∧
    (∃ o : Origin, ∃ body : List Byte, ∃ t : Nat, ∃ d : Nat, ∃ s : State, ∃ sub, ∃ param, ∃ b, ∃ l, mayDispatch s o = true ∧ field body 0 1 = t ∧
      field body 1 1 = d ∧ body.length = 8 ∧ field body 2 1 = sub ∧ field body 4 4 = param ∧ testKnown s t = true ∧ testDomOk t d = true ∧
      testSubOk t sub param = true ∧ zeroAt body 3 1 = true ∧ t = 0x01 ∧ testRunning s 0x1FF = false ∧ combMode s = 0 ∧ (retiring s).length ≤ 3 ∧
      rotBanks s sub = b :: l) ∧
    (∃ o : Origin, ∃ body : List Byte, ∃ t : Nat, ∃ d : Nat, ∃ s : State, mayDispatch s o = true ∧ field body 0 1 = t ∧ field body 1 1 = d ∧
      body.length = 4 ∧ zeroAt body 2 2 = true ∧ testDomOk t d = false) ∧
    (∃ o : Origin, ∃ body : List Byte, ∃ t : Nat, ∃ d : Nat, ∃ s : State, ∃ x, mayDispatch s o = true ∧ field body 0 1 = t ∧ field body 1 1 = d ∧
      body.length = 4 ∧ zeroAt body 2 2 = true ∧ testDomOk t d = true ∧ testRun s (testKey t d) = x ∧ x.st ≠ 1 ∧ x.prog ≤ 100) ∧
    (∃ o : Origin, ∃ body : List Byte, ∃ t : Nat, ∃ d : Nat, ∃ s : State, ∃ x, mayDispatch s o = true ∧ field body 0 1 = t ∧ field body 1 1 = d ∧
      body.length = 4 ∧ zeroAt body 2 2 = true ∧ testDomOk t d = true ∧ testRun s (testKey t d) = x ∧ x.st = 1) ∧
    (∃ s : State, s.tests.rot = none) ∧
    (∃ s : State, ∃ r, s.tests.rot = some r ∧ r.phase = 1 ∧ combMode s = 0 ∧ cellsIn s r.bank ≤ ((banksIn s).map (bankFree s)).foldl (· + ·) 0) ∧
    (∃ s : State, ∃ r, s.tests.rot = some r ∧ r.phase = 2) ∧
    (∃ s : State, ∃ r, s.tests.rot = some r ∧ r.phase = 3) ∧
    (∃ s : State, ∃ r, s.tests.rot = some r ∧ (r.phase = 2 ∨ r.phase = 3) ∧ r.todo = []) ∧
    (∃ s : State, ∃ r, s.tests.rot = some r ∧ r.phase = 4 ∧ r.todo = []) ∧
    (∃ s : State, scrubMay s = false) ∧
    (∃ s : State, scrubMay s = true ∧ s.tests.scrubAt + 1 < 2 ^ 26) ∧
    (∃ s : State, scrubMay s = true ∧ s.tests.scrubAt + 1 = 2 ^ 26) ∧
    (∃ s : State, (s.tests.cmp = none ∨ dcmServes s 6 = false)) ∧
    (∃ s : State, ∃ l, ∃ x, ∃ y, s.tests.cmp = some (l, x, y) ∧ dcmServes s 6 = true) ∧
    (∃ s : State, ∃ d, (∀ k ∈ [0x10, 0x11, 0x12], testRunning s (testKey k d) = false)) ∧
    (∃ s : State, ∃ d : Nat, ∃ k : Nat, k ∈ [0x10, 0x11, 0x12] ∧ testRunning s (testKey k d) = true ∧ (∀ j ∈ [0x10, 0x11, 0x12],
      j ≠ k → testRunning s (testKey j d) = false)) :=
  ⟨⟨o0, bd (8) [(0, 1, (0x10 : Nat)), (1, 1, (4 : Nat)), (2, 1, (0)), (4, 4, (0)), (0, 1, 0x10), (1, 1, 4)], 0x10, 4, I2, 0, 0, by decide +kernel⟩,
   ⟨o0, bd (8) [(0, 1, (0x10 : Nat)), (1, 1, (3 : Nat)), (2, 1, (0)), (4, 4, (10000)), (0, 1, 0x10), (1, 1, 3), (4, 4, 10000)], 0x10, 3, I2, 0,
     10000, by decide +kernel⟩,
   ⟨o0, bd (8) [(0, 1, (0x10 : Nat)), (1, 1, (3 : Nat)), (2, 1, (0)), (4, 4, (10000)), (0, 1, 0x10), (1, 1, 3), (4, 4, 10000)], 0x10, 3,
     setTest 0x1003 { TestRun.reset with st := 1 } I2, 0, 10000, by decide +kernel⟩,
   ⟨o0, bd (8) [(0, 1, (0x10 : Nat)), (1, 1, (3 : Nat)), (2, 1, (0)), (4, 4, (10000)), (0, 1, 0x10), (1, 1, 3), (4, 4, 10000)], 0x10, 3, I2, 0,
     10000, by decide +kernel⟩,
   ⟨o0, bd (8) [(0, 1, (0x11 : Nat)), (1, 1, (3 : Nat)), (2, 1, (0)), (4, 4, (0)), (0, 1, 0x11), (1, 1, 3)], 0x11, 3, D 3 .quiesced I2, 0, 0,
     by decide +kernel⟩,
   ⟨o0, bd (8) [(0, 1, (0x12 : Nat)), (1, 1, (0x17 : Nat)), (2, 1, (3)), (4, 4, (0)), (0, 1, 0x12), (1, 1, 0x17), (2, 1, 3)], 0x12, 0x17,
     D 0x17 .quiesced (R [(Reg.ETH.STAT.LINK 9, 1)] I2), 3, 0, by decide +kernel⟩,
   ⟨o0, bd (8) [(0, 1, (3 : Nat)), (1, 1, (0xFF : Nat)), (2, 1, (0xFF)), (4, 4, (0)), (0, 1, 3), (1, 1, 0xFF), (2, 1, 0xFF)], 3, 0xFF,
     R [(Reg.RTE.FGR.BUSY, 0)] (I2), 0xFF, 0, by decide +kernel⟩,
   ⟨o0, bd (8) [(0, 1, (2 : Nat)), (1, 1, (0x11 : Nat)), (2, 1, (0)), (4, 4, (0)), (0, 1, 2), (1, 1, 0x11)], 2, 0x11, I2, 0, 0, by decide +kernel⟩,
   ⟨o0, bd (8) [(0, 1, (1 : Nat)), (1, 1, (0xFF : Nat)), (2, 1, (0xFF)), (4, 4, (0)), (0, 1, 1), (1, 1, 0xFF), (2, 1, 0xFF)], 1, 0xFF,
     R [(Reg.CMB.STAT.MODE, 0)] (I2), 0xFF, 0, 0, (List.range 15).map (· + 1), by decide +kernel⟩,
   ⟨o0, bd (4) [(0, 1, (2 : Nat)), (1, 1, (0x12 : Nat)), (0, 1, 2), (1, 1, 0x12)], 2, 0x12, I2, by decide +kernel⟩,
   ⟨o0, bd (4) [(0, 1, (2 : Nat)), (1, 1, (0x11 : Nat)), (0, 1, 2), (1, 1, 0x11)], 2, 0x11, setTest 0x211 ⟨2, 100, 3, [1, 2, 3, 4, 5, 6, 7, 8],
     0⟩ S0, ⟨2, 100, 3, [1, 2, 3, 4, 5, 6, 7, 8], 0⟩, by decide +kernel⟩,
   ⟨o0, bd (4) [(0, 1, (2 : Nat)), (1, 1, (0x11 : Nat)), (0, 1, 2), (1, 1, 0x11)], 2, 0x11, setTest 0x211 ⟨1, 100, 3, [1, 2, 3, 4, 5, 6, 7, 8],
     0⟩ S0, ⟨1, 100, 3, [1, 2, 3, 4, 5, 6, 7, 8], 0⟩, by decide +kernel⟩,
   ⟨State.reset, by decide +kernel⟩,
   ⟨R [(Reg.CMB.STAT.MODE, 0)] ({ S0 with tests := { S0.tests with rot := some ⟨15, 1, [], 3, 4⟩ } }), (⟨15, 1, [], 3, 4⟩ : BankRot),
     by decide +kernel⟩,
   ⟨{ S0 with tests := { S0.tests with rot := some ⟨15, 2, [], 3, 4⟩ } }, (⟨15, 2, [], 3, 4⟩ : BankRot), by decide +kernel⟩,
   ⟨{ S0 with tests := { S0.tests with rot := some ⟨15, 3, [], 3, 4⟩ } }, (⟨15, 3, [], 3, 4⟩ : BankRot), by decide +kernel⟩,
   ⟨{ S0 with tests := { S0.tests with rot := some ⟨15, 3, [], 3, 4⟩ } }, (⟨15, 3, [], 3, 4⟩ : BankRot), by decide +kernel⟩,
   ⟨{ S0 with tests := { S0.tests with rot := some ⟨15, 4, [], 3, 0⟩ } }, (⟨15, 4, [], 3, 0⟩ : BankRot), by decide +kernel⟩,
   ⟨State.reset, by decide +kernel⟩,
   ⟨R [(Reg.DCM.SCRUB.EN, 1)] (D 0x11 .inService S0), by decide +kernel⟩,
   ⟨R [(Reg.DCM.SCRUB.EN, 1)] (D 0x11 .inService { S0 with tests := { S0.tests with scrubAt := 2 ^ 26 - 1, scrubErr := 1, scrubTest := true } }),
     by decide +kernel⟩,
   ⟨State.reset, by decide +kernel⟩,
   ⟨D 0x11 .inService (E 3 7 9 { S0 with tests := { S0.tests with cmp := some ([3], 5, 6) } }), [3], 5, 6, by decide +kernel⟩,
   ⟨State.reset, 0, by decide +kernel⟩,
   ⟨setTest 0x1103 { TestRun.reset with st := 1 } S0, 3, 0x11, by decide +kernel⟩⟩

theorem test_hyps_CellsAreLaidOutIn128Bytes :
    (∃ c : Cell, c.payload.length = 116) ∧
    (∃ c : Cell, ∃ i, c.payload.length = 116 ∧ i < 8) :=
  ⟨⟨{ c0 with dst := 16383, ver := 31, payload := List.replicate 116 0xAB }, by decide +kernel⟩,
   ⟨{ c0 with dst := 16383, ver := 31, payload := List.replicate 116 0xAB }, 0, by decide +kernel⟩⟩

theorem test_hyps_ResetLeavesWhatTheTablesSay :
    ∃ e, e ∈ [((Reg.HLP.CFG.word 0).addr, 0x09F87F01), ((Reg.HLP.CFG.word 3).addr, 0x09F87F01), ((Reg.HLP.STAT.word 1).addr, 0x00C00000),
      (Reg.RTE.RING.word.addr, 0x4100320A), (Reg.RTE.BYP.word.addr, 0xC3000014), (Reg.CMB.STAT.word.addr, 0x49000000), (Reg.CMB.SPILL.word.addr,
      0x801E3020), (Reg.GRD.XMON.word.addr, 0x3D), (Reg.BRG.WCFG.word.addr, 0x60C00000), (Reg.TIM.CFG.word.addr, 0x080A1401), (Reg.TRG.RPT.word.addr,
      0x0A000000), (Reg.CMD.RELAY.word.addr, 0xC0002710), ((Reg.TCP.CFG.word 7).addr, 0x9C000000), (Reg.SVC.CTRL.word.addr, 0x40000000),
      ((Reg.DSP.LTOL.word 1).addr, 0x24FFFFFF), ((Reg.LPW.PCFG.word 2).addr, 0x50783214), (Reg.LPW.QUAL.word.addr, 0x140A0A0A),
      ((Reg.INT.TGT.word 15).addr, 0x3FFE), (Reg.DCM.SR.word.addr, 0x80140A00), (Reg.IMG.TRIAL.word.addr, 0x258), ((Reg.DIE.TEMP.word 5).addr,
      0x00690000), ((Reg.USB.PRX_RBASE.word 0).addr, 0x08000000), ((Reg.USB.PRX_RBASE.word 1).addr, 0x08001000), (Reg.DCM.SCRUB.word.addr, 0x80400000)] :=
  ⟨((Reg.DIE.TEMP.word 5).addr, 0x00690000), by decide +kernel⟩

theorem test_hyps_CellsAndOrderedSetsSurviveTheirSlots :
    (∃ c : Cell, c.dst < 2 ^ 14 ∧ c.src < 2 ^ 14 ∧ c.tun < 2 ^ 14 ∧ c.tc < 8 ∧ c.typ < 16 ∧ c.vlen < 128 ∧ c.ver < 32 ∧ c.payload.length = 116) ∧
    (∃ ws : List OsWord, ws.length ≤ 14 ∧ (∀ w ∈ ws, w.typ < 256 ∧ w.body < 2 ^ 48)) :=
  ⟨⟨{ c0 with dst := 16383, ver := 31, payload := List.replicate 116 0xAB }, by decide +kernel⟩,
   ⟨List.replicate 14 ⟨255, 2 ^ 48 - 1⟩, by decide +kernel⟩⟩

end Sys2Proof.Tests
end

section
/-! Register writes (R18, R20, R290, R378): the bits a write stores, what one write access does by the row of Table 11.3 it meets,
and REGISTER_WRITE by address and through the PCIe window. -/

namespace Sys2Proof.Machine

section
variable {s : State}

/-! The word stored (Table 0.7). -/

theorem getLsbD_word {n i : Nat} (hi : i < 32) : (word n).getLsbD i = n.testBit i := by
  rw [word, BitVec.getLsbD_ofNat, decide_eq_true hi, Bool.true_and]

/-- A write without a mask gives every field its bits of `v` (R279). -/
theorem mergeWord_allOnes {d : RegDesc} {old v : Word} : mergeWord d old 0xFFFFFFFF#32 v = v := by
  have hones : 0xFFFFFFFF#32 = BitVec.allOnes 32 := rfl
  rw [mergeWord, hones, BitVec.not_allOnes, BitVec.and_zero, BitVec.and_allOnes, BitVec.zero_or]

/-- One bit of Table 0.7: `x` is written to a bit that holds `old`, in a field that is RW, W1C or W1S. -/
theorem storedBit_byType (old x rw w1c w1s : Bool) :
    ((old && !rw || x && rw) && !(x && w1c) || x && w1s) =
      if w1s && x then true else if w1c && x then false else if rw then x else old := by
  revert old x rw w1c w1s
  decide

/-- A stored bit follows the access type of its field; W1S goes before W1C, and W1C before RW and RWL. -/
theorem getLsbD_storeWord {d : RegDesc} {old w : Word} {i : Nat} (hi : i < 32) :
    (storeWord d old w).getLsbD i =
      if d.w1s.testBit i && w.getLsbD i then true
      else if d.w1c.testBit i && w.getLsbD i then false
      else if (d.rw ||| d.rwl).testBit i then w.getLsbD i
      else old.getLsbD i := by
  simp only [storeWord, BitVec.getLsbD_or, BitVec.getLsbD_and, BitVec.getLsbD_not, getLsbD_word hi, decide_eq_true hi, Bool.true_and]
  exact storedBit_byType ..

/-! What a change of one register or one source leaves alone. -/

theorem RegsBut.regSet {l : List Nat} {t : State} {k : Nat} {v : Word} (h : RegsBut l s t) (hk : k ∈ l) : RegsBut l s (regSet t k v) :=
  fun j hj => (regGet_regSet_other (by rintro rfl; exact hj hk)).trans (h j hj)

theorem RegsBut.raise {l : List Nat} {t : State} {n : Nat} (h : RegsBut l s t) : RegsBut l s (raise n t) :=
  h.trans (.of_eq raise_regs)

theorem SrcsBut.of_eq {l : List Nat} {t : State} (h : t.srcs = s.srcs) : SrcsBut l s t := fun n _ => srcSt_congr h n

theorem SrcsBut.raise {l : List Nat} {t : State} {n : Nat} (h : SrcsBut l s t) (hn : n ∈ l) : SrcsBut l s (raise n t) :=
  fun m hm => (srcSt_raise_other (by rintro rfl; exact hm hn)).trans (h m hm)

theorem regSet_only {k : Nat} {v : Word} : Only [.regs] s (regSet s k v) :=
  (regSet_keeps rfl (Keeps.refl 2 s)).onlyOf (by decide)

theorem count_countsUp {a : Nat} : CountsUp a s (count a s) := ctrGet_count

theorem count_only {a : Nat} : Only [.ctrs, .srcs, .diag] s (count a s) := count_kept.onlyOf (by decide)

/-! A refused address (rows 1 and 2 of Table 11.3). -/

theorem badAddr_of_unaligned {a : Nat} (h : a % 4 ≠ 0) : badAddr a = true := by simp [badAddr, h]

theorem badAddr_of_noBlock {a : Nat} (h : blockRegs (addrSlot a) (addrBlk a) = none) : badAddr a = true := by simp [badAddr, h]

/-- The first address since ADDRERR was cleared is kept; an address that is no multiple of 4 is not kept (log 33). -/
def noteAddr (a : Nat) (s : State) : State :=
  if a % 4 = 0 ∧ rd Reg.GLB.ADDRERR.ADDR s = 0 then wr Reg.GLB.ADDRERR.ADDR a s else s

theorem noteBad_eq {a : Nat} : noteBad a s = raise srcADDR_ERR (wr Reg.GLB.STAT.ADDR_ERR 1 (noteAddr a s)) := rfl

theorem noteAddr_unaligned {a : Nat} (h : a % 4 ≠ 0) : noteAddr a s = s := if_neg fun g => h g.1

theorem noteAddr_srcs {a : Nat} : (noteAddr a s).srcs = s.srcs := by
  unfold noteAddr
  split
  · exact wr_srcs
  · rfl

theorem noteAddr_regsBut {a : Nat} : RegsBut [Reg.GLB.ADDRERR.word.addr] s (noteAddr a s) := by
  unfold noteAddr
  split
  · exact RegsBut.refl.wr (List.mem_singleton.2 rfl)
  · exact RegsBut.refl

theorem rd_noteAddr {a : Nat} (h4 : a % 4 = 0) (ha : a < 2 ^ 32) :
    rd Reg.GLB.ADDRERR.ADDR (noteAddr a s) = if rd Reg.GLB.ADDRERR.ADDR s = 0 then a else rd Reg.GLB.ADDRERR.ADDR s := by
  by_cases h0 : rd Reg.GLB.ADDRERR.ADDR s = 0
  · rw [noteAddr, if_pos ⟨h4, h0⟩, if_pos h0, rd_wr_same (by decide)]
    exact Nat.mod_eq_of_lt ha
  · rw [noteAddr, if_neg fun g => h0 g.2, if_neg h0]

theorem noteBad_addrErr {a : Nat} : rd Reg.GLB.STAT.ADDR_ERR (noteBad a s) = 1 := by
  rw [noteBad_eq, rd_congr raise_regs, rd_wr_same (by decide)]
  rfl

theorem noteBad_firstAddr {a : Nat} (h4 : a % 4 = 0) (ha : a < 2 ^ 32) :
    rd Reg.GLB.ADDRERR.ADDR (noteBad a s) = if rd Reg.GLB.ADDRERR.ADDR s = 0 then a else rd Reg.GLB.ADDRERR.ADDR s := by
  rw [noteBad_eq, rd_congr raise_regs, rd_wr_other (.inl (by decide)), rd_noteAddr h4 ha]

theorem noteBad_regsBut {a : Nat} : RegsBut [Reg.GLB.STAT.word.addr, Reg.GLB.ADDRERR.word.addr] s (noteBad a s) := by
  have hnote : RegsBut [Reg.GLB.STAT.word.addr, Reg.GLB.ADDRERR.word.addr] s (noteAddr a s) :=
    fun k hk => noteAddr_regsBut k fun h => hk (List.mem_cons_of_mem _ h)
  exact (hnote.wr (f := Reg.GLB.STAT.ADDR_ERR) (List.mem_cons_self ..)).raise

theorem noteBad_regsBut_unaligned {a : Nat} (h : a % 4 ≠ 0) : RegsBut [Reg.GLB.STAT.word.addr] s (noteBad a s) := by
  rw [noteBad_eq, noteAddr_unaligned h]
  exact (RegsBut.refl.wr (f := Reg.GLB.STAT.ADDR_ERR) (List.mem_cons_self ..)).raise

theorem noteBad_srcsBut {a : Nat} : SrcsBut [srcADDR_ERR] s (noteBad a s) :=
  (SrcsBut.of_eq (wr_srcs.trans noteAddr_srcs)).raise (List.mem_singleton.2 rfl)

theorem noteBad_only {a : Nat} : Only [.regs, .srcs] s (noteBad a s) :=
  (noteBad_keeps rfl (Keeps.refl 18 s)).onlyOf (by decide)

/-! One write access (Table 11.3). -/

theorem writeAt_bad {r : EntryPoint} {win : Bool} {a : Nat} {mask v : Word} (h : badAddr a = true) :
    writeAt r win a mask v s = (ST_BAD_PARAM, noteBad a s) := if_pos h

theorem writeAt_refused {r : EntryPoint} {win : Bool} {a : Nat} {mask v : Word} (hb : badAddr a = false) (h : accStat s a ≠ ST_OK) :
    writeAt r win a mask v s = (accStat s a, noteRefused win a s) := by
  rw [writeAt, hb, if_neg Bool.false_ne_true, if_pos h]

theorem writeAt_reached {r : EntryPoint} {win : Bool} {a : Nat} {mask v : Word} (hb : badAddr a = false) (h : accStat s a = ST_OK) :
    writeAt r win a mask v s = writeReg r a mask v s := by
  rw [writeAt, hb, if_neg Bool.false_ne_true, if_neg (not_not_intro h)]

/-- Only the direct window enters a refusal in the bridge error log, and only that of an absent slot (R5). -/
theorem noteRefused_of_present {win : Bool} {a : Nat} (h : win = false ∨ accStat s a ≠ ST_NO_DIE) : noteRefused win a s = s := by
  unfold noteRefused
  rcases h with rfl | h
  · rfl
  · simp [h]

/-- Away from an absent slot a write through the direct window is the requester's write to the address. -/
theorem writeAt_window {r : EntryPoint} {a : Nat} {mask v : Word} (h : badAddr a = true ∨ accStat s a ≠ ST_NO_DIE) :
    writeAt r true a mask v s = writeAt r false a mask v s := by
  cases hb : badAddr a with
  | true => rw [writeAt_bad hb, writeAt_bad hb]
  | false =>
    by_cases hacc : accStat s a = ST_OK
    · rw [writeAt_reached hb hacc, writeAt_reached hb hacc]
    · have hdie : accStat s a ≠ ST_NO_DIE := h.resolve_left (by simp [hb])
      rw [writeAt_refused hb hacc, writeAt_refused hb hacc, noteRefused_of_present (.inr hdie), noteRefused_of_present (.inl rfl)]

/-- IMG_LOCK refuses the write (R18). -/
theorem writeReg_locked {r : EntryPoint} {a : Nat} {mask v : Word} {d : RegDesc} (hd : regDesc a = some d)
    (hl : lockRefuses s a d mask = true) : writeReg r a mask v s = (ST_DENIED, s) := by
  simp [writeReg, hd, hl]

/-- A write without a row or effect of its own stores the word and does nothing else. -/
theorem writeReg_stores {r : EntryPoint} {a : Nat} {mask v : Word} {d : RegDesc} (hd : regDesc a = some d)
    (hl : lockRefuses s a d mask = false) (hw : writeActs a = false) :
    writeReg r a mask v s = (ST_OK, regSet s (keyFor r d a)
      (storeWord d (regGet s (keyFor r d a)) (mergeWord d (regGet s (keyFor r d a)) mask v))) := by
  simp only [writeReg, hd, hl, Bool.false_eq_true, if_false]
  split
  · rename_i hs
    exact putLd_stores hs hw
  · rename_i hs
    exact putDie_stores hs hw

/-! REGISTER_WRITE. -/

theorem exec_registerWrite_address {req : EntryPoint} {addr : Nat} {v : Word} (ha : addr < 2 ^ 32) :
    exec (.registerWrite req false addr v) s = .next (writeAt req false addr 0xFFFFFFFF#32 v s).2 := by
  have hexec : exec (.registerWrite req false addr v) s = .next (writeAt req false (addr % 2 ^ 32) 0xFFFFFFFF#32 v s).2 := rfl
  rw [hexec, Nat.mod_eq_of_lt ha]

theorem exec_registerWrite_window {req : EntryPoint} {off : Nat} {v : Word} (ho : off < 2 ^ 28) :
    exec (.registerWrite req true off v) s = .next (barWrite off v s) := by
  have hexec : exec (.registerWrite req true off v) s = .next (barWrite (off % 2 ^ 28) v s) := rfl
  rw [hexec, Nat.mod_eq_of_lt ho]

theorem barAddr_lt {off : Nat} : barAddr off < 2 ^ 32 := by
  unfold barAddr
  omega

/-- Without the endpoint a write in BAR0 is discarded. -/
theorem barWrite_notLive {off : Nat} {v : Word} (h : tsLives s = false) : barWrite off v s = s := by
  simp [barWrite, h]

/-- CMD.OPEN_HOST shuts the direct register window: the write is only counted. -/
theorem barWrite_shut {off : Nat} {v : Word} (hl : tsLives s = true) (hs : off / 0x2000000 % 8 ≠ 1)
    (hg : bit 0 (rd Reg.CMD.OPEN_HOST.GMASK s) = false) : barWrite off v s = count (cCMD 7) s := by
  simp [barWrite, hl, hs, hg]

theorem barWrite_open {off : Nat} {v : Word} (hl : tsLives s = true) (hs : off / 0x2000000 % 8 ≠ 1)
    (hg : bit 0 (rd Reg.CMD.OPEN_HOST.GMASK s) = true) :
    barWrite off v s = (writeAt .host true (barAddr off) 0xFFFFFFFF#32 v s).2 := by
  simp [barWrite, hl, hs, hg]

end

/-- Settles O5, by the row of Table 11.3 that the access meets: a reached register is left by `writeReg_locked` or `writeReg_stores`, a
refused address by `noteBad`, and the window's write is the address's by `writeAt_window`. -/
theorem registerWritesStoreByType : Obligations.RegisterWritesStoreByType := by
  unfold Obligations.RegisterWritesStoreByType
  refine ⟨fun req addr v d s ha hb hd hacc => ⟨fun hl => ?_, fun hl hw => ?_⟩,
    fun req off v s ho => ⟨fun hlive => ?_, fun hlive hs => ⟨fun hg => ?_, fun hg hacc => ?_⟩⟩,
    fun req addr v s ha => ⟨fun h4 => ?_, fun h4 hn => ?_, fun hb hacc => ?_⟩⟩
  case refine_1 => rw [exec_registerWrite_address ha, writeAt_reached hb hacc, writeReg_locked hd hl]
  case refine_2 =>
    rw [exec_registerWrite_address ha, writeAt_reached hb hacc, writeReg_stores hd hl hw, mergeWord_allOnes]
    refine ⟨_, rfl, fun i hi => ?_, RegsBut.refl.regSet (List.mem_singleton.2 rfl), regSet_only⟩
    rw [regGet_regSet_same, getLsbD_storeWord hi]
  case refine_3 => rw [exec_registerWrite_window ho, barWrite_notLive hlive]
  case refine_4 => exact ⟨_, (exec_registerWrite_window ho).trans (congrArg _ (barWrite_shut hlive hs hg)), count_countsUp, count_only⟩
  case refine_5 =>
    rw [exec_registerWrite_window ho, barWrite_open hlive hs hg, writeAt_window hacc, exec_registerWrite_address barAddr_lt]
  case refine_6 =>
    rw [exec_registerWrite_address ha, writeAt_bad (badAddr_of_unaligned h4)]
    exact ⟨_, rfl, noteBad_addrErr, noteBad_regsBut_unaligned h4, noteBad_srcsBut, noteBad_only⟩
  case refine_7 =>
    rw [exec_registerWrite_address ha, writeAt_bad (badAddr_of_noBlock hn)]
    exact ⟨_, rfl, noteBad_addrErr, noteBad_firstAddr h4 ha, noteBad_regsBut, noteBad_srcsBut, noteBad_only⟩
  case refine_8 => rw [exec_registerWrite_address ha, writeAt_refused hb hacc, noteRefused_of_present (.inl rfl)]

end Sys2Proof.Machine
end

section
/-! Service domains (R39 to R44, R283): what quiescing, reset and return do to the table of domains, and the commands that ask for them. -/

namespace Sys2Proof.Machine

section
variable {s : State}

/-! Replies and dispatch. -/

theorem reply_kept {o : Origin} {st : Nat} {b : List Byte} : Keeps 8589952000 s (reply o st b s) := reply_keeps rfl (Keeps.refl _ _)

@[simp] theorem reply_domains {o : Origin} {st : Nat} {b : List Byte} : (reply o st b s).domains = s.domains := reply_kept.domains rfl
@[simp] theorem reply_tests {o : Origin} {st : Nat} {b : List Byte} : (reply o st b s).tests = s.tests := reply_kept.tests rfl
@[simp] theorem reply_img {o : Origin} {st : Nat} {b : List Byte} : (reply o st b s).img = s.img := reply_kept.img rfl
@[simp] theorem reply_regs {o : Origin} {st : Nat} {b : List Byte} : (reply o st b s).regs = s.regs := reply_kept.regs rfl

/-- Which die an activation is at depends on the image controller alone. -/
theorem beingActivated_congr {t : State} (h : t.img = s.img) (d : Nat) : beingActivated t d = beingActivated s d := by
  unfold beingActivated
  rw [h]

/-- S1 is no die of an activation (Table 18.9). -/
theorem beingActivated_s1 : beingActivated s 0x11 = false := by
  unfold beingActivated
  cases s.img.act <;> simp

theorem linkState_congr {t : State} (h : t.regs = s.regs) (slot : Nat) : linkState t slot = linkState s slot := rd_congr h _

/-! The command that waits for a domain. -/

theorem domReply_domains {d st : Nat} : (domReply d st s).domains = (setDom d { dom s d with waiter := none } s).domains ∨
    (domReply d st s = s ∧ (dom s d).waiter = none) := by
  unfold domReply
  cases hw : (dom s d).waiter with
  | none => exact .inr ⟨rfl, rfl⟩
  | some o => exact .inl reply_domains

/-- Nobody waits for the domain any more. -/
@[simp] theorem dom_domReply_same {d st : Nat} : dom (domReply d st s) d = { dom s d with waiter := none } := by
  rcases domReply_domains (s := s) (d := d) (st := st) with h | ⟨h, hw⟩
  · rw [dom_congr h, dom_setDom_same]
  · rw [h, ← hw]

theorem dom_domReply_other {c d st : Nat} (hc : c ≠ d) : dom (domReply d st s) c = dom s c := by
  rcases domReply_domains (s := s) (d := d) (st := st) with h | ⟨h, -⟩
  · rw [dom_congr h, dom_setDom_other hc]
  · rw [h]

theorem domReply_img {d st : Nat} : (domReply d st s).img = s.img :=
  (domReply_keeps rfl (Keeps.refl 8589952256 s)).img rfl

/-! Quiescing. -/

theorem startQuiesce_domains {d : Nat} {f : Bool} {w : Option Origin} :
    (startQuiesce d f w s).domains =
      (setDom d { st := .quiescing, drain := drainSet s d, force := f, waiter := w, wasReset := false } s).domains := by
  unfold startQuiesce
  split
  · exact (ringLeave_keeps rfl (Keeps.refl 1616 _)).domains rfl
  · split
    · exact (tvLeft_keeps rfl (Keeps.refl 37919894 _)).domains rfl
    · rfl

/-- The drain set is that of the moment (R41). -/
theorem dom_startQuiesce_same {d : Nat} {f : Bool} {w : Option Origin} :
    dom (startQuiesce d f w s) d = ⟨.quiescing, drainSet s d, f, w, false⟩ := by
  rw [dom_congr startQuiesce_domains, dom_setDom_same]

theorem dom_startQuiesce_other {c d : Nat} {f : Bool} {w : Option Origin} (hc : c ≠ d) :
    dom (startQuiesce d f w s) c = dom s c := by
  rw [dom_congr startQuiesce_domains, dom_setDom_other hc]

/-- What the clients of a quiesced domain do leaves the domains alone. -/
theorem enterQuiesced_domains {d : Nat} : ∃ u, enterQuiesced d s = domReply d ST_OK u ∧
    u.domains = (setDom d { dom s d with st := .quiesced, drain := [], force := false } s).domains := by
  unfold enterQuiesced
  refine ⟨_, rfl, ?_⟩
  dsimp only
  split
  · exact (proxyQuiesced_keeps rfl (Keeps.refl 33725590 _)).domains rfl
  · exact (proxyQuiesced_keeps rfl (Keeps.refl 33725590 _)).domains rfl
  · exact (barGone_keeps rfl (Keeps.refl 8590097558 _)).domains rfl
  · rfl

@[simp] theorem dom_enterQuiesced_same {d : Nat} :
    dom (enterQuiesced d s) d = { dom s d with st := .quiesced, force := false, waiter := none, drain := [] } := by
  obtain ⟨u, hu, hdom⟩ := enterQuiesced_domains (s := s) (d := d)
  rw [hu, dom_domReply_same, dom_congr hdom, dom_setDom_same]

theorem enterQuiesced_img {d : Nat} : (enterQuiesced d s).img = s.img :=
  (enterQuiesced_keeps rfl (Keeps.refl 8623685014 s)).img rfl

theorem forceQuiesced_img {d : Nat} : (forceQuiesced d s).img = s.img :=
  (forceQuiesced_keeps rfl (Keeps.refl 8757903318 s)).img rfl

/-- A forced domain is QUIESCED with nothing left to drain (R41). -/
theorem dom_forceQuiesced {d : Nat} : domSt (forceQuiesced d s) d = .quiesced ∧ (dom (forceQuiesced d s) d).drain = [] := by
  unfold forceQuiesced domSt
  simp only [dom_enterQuiesced_same, and_self]

/-- Only the die of an activation goes on with its reset (R457). -/
theorem activationReset_of_not {d : Nat} (h : beingActivated s d = false) : activationReset d s = s := by
  simp [activationReset, h]

/-! DOMAIN_QUIESCE. -/

/-- The order of the refusals of a well-formed DOMAIN_QUIESCE (R41 to R43). -/
theorem exec_domainQuiesce {o : Origin} {body : List Byte} (hm : mayDispatch s o = true) (hl : body.length = 8)
    (hf : field body 1 1 ≤ 1) (hz : zeroAt body 2 2 = true) (ht : field body 4 4 ≤ 4000000)
    (hc : domCheck s (field body 0 1) = ST_OK) (hth : throughDomain o (field body 0 1) = false) :
    exec (.domainQuiesce o body) s = .next
      (if domSt s (field body 0 1) ≠ .inService ∨ beingActivated s (field body 0 1) = true then reply o ST_BUSY [] (dispatch o s)
       else if field body 0 1 = 0x11 ∧ s1Deps s ≠ 0 then reply o ST_BUSY_IN_SERVICE (beBytes 4 (s1Deps s)) (dispatch o s)
       else startQuiesce (field body 0 1) (field body 1 1 == 1) (some o) (dispatch o s)) := by
  have hparam : ¬ (1 < field body 1 1 || !zeroAt body 2 2 || 4000000 < field body 4 4) = true := by
    simp [hz, Nat.not_lt.2 hf, Nat.not_lt.2 ht]
  change execDomainQuiesce o body s = _
  unfold execDomainQuiesce
  rw [command_runs hm hl]
  refine congrArg Host.Outcome.next ((if_neg hparam).trans ((if_neg (not_not_intro hc)).trans ((if_neg ?_).trans rfl)))
  exact ne_true_of_eq_false hth

/-! Reset and return. -/

theorem startLink_domains {slot : Nat} : (startLink slot s).domains = s.domains :=
  (startLink_keeps rfl (Keeps.refl 130 s)).domains rfl

/-- LINK_FAIL ends only when the re-link has succeeded (R26). -/
theorem startLink_of_failed {slot : Nat} (h : linkState s slot = 4) : startLink slot s = s := if_pos h

theorem tolger_setTolger_other {m n : Nat} {a b : Bool} {d : TolgerDir} (h : tolgerKey m a ≠ tolgerKey n b) :
    tolger (setTolger n b d s) m a = tolger s m a := by
  unfold tolger setTolger
  exact Tab.get_set_other _ h d s.tolger

/-- The two directions of a link are apart. -/
@[simp] theorem tolger_setTolger_toDie {n : Nat} {d : TolgerDir} : tolger (setTolger n true d s) n false = tolger s n false :=
  tolger_setTolger_other (by simp [tolgerKey, ofBool])

@[simp] theorem tolger_setTolger_toLd {n : Nat} {d : TolgerDir} : tolger (setTolger n false d s) n true = tolger s n true :=
  tolger_setTolger_other (by simp [tolgerKey, ofBool])

theorem startLink_of_not_failed {slot : Nat} (h : linkState s slot ≠ 4) :
    linkState (startLink slot s) slot = 2 ∧
      tolger (startLink slot s) slot false =
        relinkDir (tolger s slot false) (fun ch => (Tab.get noCells s.tuns.arrived (2 * slot + ch)).length) ∧
      tolger (startLink slot s) slot true = relinkDir (tolger s slot true) (fun ch => (holdOf s (2 * slot + ch)).length) := by
  unfold startLink
  rw [if_neg h]
  refine ⟨rd_wr_same (Nat.le_of_ble_eq_true rfl), ?_, ?_⟩
  · rw [tolger_congr wr_tolger, tolger_setTolger_toDie, tolger_setTolger_same]
  · rw [tolger_congr wr_tolger, tolger_setTolger_same, tolger_setTolger_toLd]
    rfl

end

end Sys2Proof.Machine
end

section
/-! The commands and events of service domains (O10 to O12). -/

namespace Sys2Proof.Machine

section
variable {s : State}

/-- A disruptive test is answered by its check where its domain is not QUIESCED (Table 19.5). -/
theorem testCheck_disruptive_of_not_quiesced {t d sub : Nat} (ht : t ∈ disruptive) (hd : domSt s d ≠ .quiesced) :
    testCheck t d sub s ≠ ST_OK := by
  have hcases : t = 0x10 ∨ t = 0x11 ∨ t = 0x12 := by simpa [disruptive] using ht
  rcases hcases with rfl | rfl | rfl <;> simp [testCheck, hd] <;> split_ifs <;> decide

theorem execTestRun_not_quiesced {o : Origin} {body : List Byte} (ht : field body 0 1 ∈ disruptive)
    (hd : domSt s (field body 1 1) ≠ .quiesced) : ∃ t, exec (.testRun o body) s = .next t ∧ t.tests = s.tests := by
  change ∃ t, execTestRun o body s = .next t ∧ t.tests = s.tests
  unfold execTestRun
  by_cases hm : mayDispatch s o = true
  · by_cases hl : body.length = 8
    · rw [command_runs hm hl]
      refine ⟨_, rfl, ?_⟩
      have hcheck := testCheck_disruptive_of_not_quiesced (s := dispatch o s) (sub := field body 2 1) ht hd
      dsimp only
      rw [if_pos hcheck]
      split <;> simp
    · exact ⟨_, command_badLen hm hl, by simp⟩
  · exact ⟨s, command_waits (eq_false_of_ne_true hm), rfl⟩

theorem exec_drainComplete_drained {d : Nat} (hst : domSt s d = .quiescing) (hb : beingActivated s d = false) (hd : drained s d = true) :
    exec (.drainComplete d) s = .next (enterQuiesced d s) := by
  have hexec : exec (.drainComplete d) s = .next (activationReset d (enterQuiesced d s)) := if_pos ⟨hst, hd⟩
  rw [hexec, activationReset_of_not (by rw [beingActivated_congr enterQuiesced_img, hb])]

theorem exec_drainLimitExpiry_forced {d : Nat} (hst : domSt s d = .quiescing) (hb : beingActivated s d = false) (hd : drained s d = false)
    (hf : (dom s d).force = true) : exec (.drainLimitExpiry d) s = .next (forceQuiesced d s) := by
  have hexec : exec (.drainLimitExpiry d) s = .next (activationReset d (forceQuiesced d s)) :=
    (if_neg (not_not_intro hst)).trans ((if_neg (ne_true_of_eq_false hd)).trans (if_pos hf))
  rw [hexec, activationReset_of_not (by rw [beingActivated_congr forceQuiesced_img, hb])]

/-- Without FORCE the domain goes back into service at the limit, and no other changes (R41). -/
theorem exec_drainLimitExpiry_unforced {d : Nat} (hst : domSt s d = .quiescing) (hd : drained s d = false)
    (hf : (dom s d).force = false) : ∃ t, exec (.drainLimitExpiry d) s = .next t ∧
      t.domains = (setDom d (Domain.reset .inService) (domReply d ST_TIMEOUT s)).domains := by
  refine ⟨_, (if_neg (not_not_intro hst)).trans ((if_neg (ne_true_of_eq_false hd)).trans (if_neg (ne_true_of_eq_false hf))), ?_⟩
  split
  · rfl
  · split
    · exact (headsReturn_keeps rfl (Keeps.refl 134217746 _)).domains rfl
    · rfl

/-- The order of the refusals of a well-formed DOMAIN_RESET (R44). -/
theorem exec_domainReset {o : Origin} {body : List Byte} (hm : mayDispatch s o = true) (hl : body.length = 4)
    (hz : zeroAt body 1 3 = true) (hc : domCheck s (field body 0 1) = ST_OK) (hth : throughDomain o (field body 0 1) = false) :
    exec (.domainReset o body) s = .next
      (if domSt s (field body 0 1) ≠ .quiesced ∨ beingActivated s (field body 0 1) = true then reply o ST_BUSY [] (dispatch o s)
       else startReset (field body 0 1) (some o) (dispatch o s)) := by
  change execDomainReset o body s = _
  unfold execDomainReset
  rw [command_runs hm hl]
  refine congrArg Host.Outcome.next
    ((if_neg ?_).trans ((if_neg (not_not_intro hc)).trans ((if_neg (ne_true_of_eq_false hth)).trans rfl)))
  simp [hz]

/-- A well-formed DOMAIN_RETURN of a QUIESCED domain without a test (R283). -/
theorem exec_domainReturn {o : Origin} {body : List Byte} (hm : mayDispatch s o = true) (hl : body.length = 4)
    (hz : zeroAt body 1 3 = true) (hc : domCheck s (field body 0 1) = ST_OK) (hst : domSt s (field body 0 1) = .quiesced)
    (ht : testOn s (field body 0 1) = false) :
    exec (.domainReturn o body) s = .next
      (if field body 0 1 < 4 then reply o ST_OK [] (returnLine (field body 0 1) (dispatch o s))
       else startReturn (field body 0 1) (some o) (dispatch o s)) := by
  change execDomainReturn o body s = _
  unfold execDomainReturn
  rw [command_runs hm hl]
  refine congrArg Host.Outcome.next ((if_neg ?_).trans ((if_neg (not_not_intro hc)).trans ((if_neg ?_).trans rfl)))
  · simp [hz]
  · exact not_or.2 ⟨not_not_intro hst, ne_true_of_eq_false ht⟩

theorem exec_domainStatus {o : Origin} {body : List Byte} (hm : mayDispatch s o = true) (hl : body.length = 4)
    (hz : zeroAt body 1 3 = true) (hc : domCheck s (field body 0 1) = ST_OK) :
    exec (.domainStatus o body) s = .next (reply o ST_OK (beBytes 1 (domCode (domSt s (field body 0 1))) ++ [0, 0, 0] ++
      beBytes 4 (if field body 0 1 = 0x11 then s1Deps s else 0)) (dispatch o s)) := by
  change execDomainStatus o body s = _
  unfold execDomainStatus
  rw [command_runs hm hl]
  refine congrArg Host.Outcome.next ((if_neg ?_).trans ((if_neg (not_not_intro hc)).trans rfl))
  simp [hz]

/-- RETURNING, with the link of a die as `startLink` leaves it. -/
theorem startReturn_die {d : Nat} {w : Option Origin} (hd : 0x12 ≤ d) :
    startReturn d w s = startLink (d - 0x10) (setDom d { dom s d with st := .returning, waiter := w } s) := by
  unfold startReturn
  exact if_neg (by omega)

/-- How a re-link leaves the link of a state that differs from `s` beside registers, links and what the die and the LD still hold. -/
theorem startLink_after {u : State} {slot : Nat} (hr : u.regs = s.regs) (ht : u.tolger = s.tolger) (hc : u.comb = s.comb) (hn : u.tuns = s.tuns) :
    (linkState s slot = 4 → (startLink slot u).tolger = s.tolger ∧ linkState (startLink slot u) slot = 4) ∧
    (linkState s slot ≠ 4 → linkState (startLink slot u) slot = 2 ∧
      tolger (startLink slot u) slot false =
        relinkDir (tolger s slot false) (fun ch => (Tab.get noCells s.tuns.arrived (2 * slot + ch)).length) ∧
      tolger (startLink slot u) slot true = relinkDir (tolger s slot true) (fun ch => (holdOf s (2 * slot + ch)).length)) := by
  rw [← linkState_congr hr, ← tolger_congr ht, ← tolger_congr ht, ← hn, ← ht]
  simp only [← holdOf_congr hc]
  exact ⟨fun h4 => by rw [startLink_of_failed h4]; exact ⟨rfl, h4⟩, startLink_of_not_failed⟩

/-- The domain is in service, whatever its die goes on with. -/
theorem dom_enterService {d : Nat} : dom (enterService d s) d = Domain.reset .inService := by
  have hreset : dom (setDom d (Domain.reset .inService) (domReply d ST_OK s)) d = Domain.reset .inService := dom_setDom_same
  unfold enterService
  dsimp only
  split
  · rw [dom_congr ((dieReturned_keeps rfl (Keeps.refl 2286034070 _)).domains rfl), hreset]
  · exact hreset

theorem exec_returningComplete_die {d : Nat} (hst : domSt s d = .returning) (hd : 0x12 ≤ d) (hl : linkUp s (d - 0x10) = true) :
    ∃ u, exec (.returningComplete d) s = .next (enterService d u) := by
  refine ⟨_, (if_neg ?_).trans ((if_neg ?_).trans (if_pos hl))⟩
  · exact not_or.2 ⟨not_not_intro hst, by omega⟩
  · omega

theorem exec_returningComplete_s1 (hst : domSt s 0x11 = .returning) :
    ∃ u, exec (.returningComplete 0x11) s = .next (enterService 0x11 u) :=
  ⟨_, (if_neg (not_or.2 ⟨not_not_intro hst, by omega⟩)).trans (if_pos rfl)⟩

/-- RESET_TIME_END of a domain that no activation resets (R44). -/
theorem exec_resetTimeEnd {d : Nat} (hst : domSt s d = .resetting) (hb : beingActivated s d = false) :
    exec (.resetTimeEnd d) s = .next
      (if d = 0x11 then
        wr Reg.DCM.STAT.TRAINED 1 (wr Reg.DCM.STAT.MTS 8533 (setDom d { dom s d with st := .quiesced, waiter := none } (domReply d ST_OK s)))
       else setDom d { dom s d with st := .quiesced, waiter := none } (domReply d ST_OK s)) := by
  have hact : ∀ x, beingActivated (setDom d x (domReply d ST_OK s)) d = false := fun x => by
    rw [beingActivated_congr (setDom_img.trans domReply_img), hb]
  refine (if_neg (not_not_intro hst)).trans ?_
  dsimp only
  rw [dom_domReply_same]
  split
  · rfl
  · rw [hact]
    rfl

theorem exec_returnTimeout {d : Nat} (hst : domSt s d = .returning) (hd : 0x11 ≤ d) :
    exec (.returnTimeout d) s = .next (setDom d { dom s d with st := .quiesced, waiter := none } (domReply d ST_TIMEOUT s)) := by
  refine (if_pos ⟨hst, hd⟩).trans ?_
  rw [dom_domReply_same]

/-! LD_WARM_RESET. -/

theorem heldTime_cmd {t : State} : (heldTime s t).cmd = t.cmd := by
  unfold heldTime
  extract_lets q
  split
  · rfl
  · exact wr_cmd

theorem keepNurse_cmd {t : State} : (keepNurse s t).cmd = t.cmd := by
  unfold keepNurse
  refine heldTime_cmd.trans (wr_cmd.trans ?_)
  split
  · exact wr_cmd
  · rfl

/-- Beside the registers, the LINK_FAIL of a die's link is all that outlives the reset of the LD's own state (R26). -/
theorem keepFailed_keepsRegs {t : State} : Keeps 2 t (keepFailed s t) :=
  forAll_keeps rfl (fun _ _ h => wr_keeps rfl (wr_keeps rfl h)) (Keeps.refl 2 t)

/-- The command engine begins again, and the Deep Comb holds what it held (R437). -/
theorem warmState_cmd_deep : (warmState s).cmd = State.reset.cmd ∧ (warmState s).deep = s.deep := by
  have hmodes : ∀ t, Keeps 2 t (compatModes (keepFailed s t)) := fun t => compatModes_keeps rfl keepFailed_keepsRegs
  refine ⟨((hmodes _).cmd rfl).trans ?_, (hmodes _).deep rfl⟩
  exact keepNurse_cmd

theorem exec_ldWarmReset {o : Origin} (hm : mayDispatch s o = true) :
    ∃ t, exec (.ldWarmReset o []) s = .next t ∧ t.cmd.sessions = [] ∧ t.cmd.flights = [] ∧ t.deep = s.deep ∧ t.variant = s.variant := by
  change ∃ t, execLdWarmReset o [] s = .next t ∧ _
  unfold execLdWarmReset
  refine ⟨_, command_runs hm rfl, ?_⟩
  dsimp only
  have hrefire : ∀ t, Keeps 16 t (refire t) := fun t => refire_keeps rfl (Keeps.refl 16 t)
  rw [(hrefire _).cmd rfl, (hrefire _).deep rfl, (hrefire _).variant, warmState_cmd_deep.1, warmState_cmd_deep.2]
  exact ⟨rfl, rfl, rfl, (warmState_keeps rfl (Keeps.refl 824633196542 _)).variant⟩

end

/-- Settles O12: the first DOMAIN_QUIESCE is `startQuiesce`, the second is refused by the order of `exec_domainQuiesce`, and a disruptive
test is refused by `testCheck`. -/
theorem oneQuiesceAtATime : Obligations.OneQuiesceAtATime := by
  unfold Obligations.OneQuiesceAtATime
  refine fun o body d s => ⟨fun hm hl hb hf hz ht hc hth => ?_, fun ht hd hst => ?_⟩
  · subst hb
    rw [exec_domainQuiesce hm hl hf hz ht hc hth]
    refine ⟨fun hst hact hs1 => ?_, fun hst => ?_⟩
    · rw [if_neg (by simp [hst, hact]), if_neg fun h => hs1 h.1]
      refine ⟨_, rfl, congrArg Domain.st dom_startQuiesce_same, congrArg Domain.waiter dom_startQuiesce_same, fun c hc => ?_⟩
      exact (dom_startQuiesce_other hc).trans (dom_congr dispatch_domains c)
    · rw [if_pos (.inl (by simp [hst]))]
  · exact execTestRun_not_quiesced ht (hd ▸ hst)

/-- Settles O10: the command by the order of `exec_domainQuiesce`, the drain by `enterQuiesced`, the limit by `forceQuiesced` or the return
to service. -/
theorem domainsQuiesceAndDrain : Obligations.DomainsQuiesceAndDrain := by
  unfold Obligations.DomainsQuiesceAndDrain
  refine ⟨fun o body d f s hm hl hb hfe hf hz ht hc hth => ?_, fun d s hst hact => ⟨fun hd => ?_, fun hd => ?_, fun hd hf => ?_, fun hd hf => ?_⟩⟩
  · subst hb hfe
    rw [exec_domainQuiesce hm hl hf hz ht hc hth]
    refine ⟨fun hst hact hs1 => ?_, fun hst => by rw [if_pos (.inl hst)], fun h11 hst hs1 => ?_⟩
    · rw [if_neg (by simp [hst, hact]), if_neg fun h => h.2 (hs1 h.1)]
      exact ⟨_, rfl, dom_startQuiesce_same, fun c hc => (dom_startQuiesce_other hc).trans (dom_congr dispatch_domains c)⟩
    · rw [if_neg (by simp [hst, h11 ▸ beingActivated_s1]), if_pos ⟨h11, hs1⟩]
  · exact ⟨_, exec_drainComplete_drained hst hact hd, dom_enterQuiesced_same⟩
  · exact if_neg fun h => ne_true_of_eq_false hd h.2
  · exact ⟨_, exec_drainLimitExpiry_forced hst hact hd hf, dom_forceQuiesced⟩
  · obtain ⟨t, ht, hdom⟩ := exec_drainLimitExpiry_unforced hst hd hf
    refine ⟨t, ht, ?_, fun c hc => ?_⟩
    · rw [dom_congr hdom, dom_setDom_same]
    · rw [dom_congr hdom, dom_setDom_other hc, dom_domReply_other hc]


/-- Settles O11: each command by its equation, each event by what it leaves of the table of domains, and the warm reset by
`exec_ldWarmReset`. -/
theorem domainsResetAndReturn : Obligations.DomainsResetAndReturn := by
  unfold Obligations.DomainsResetAndReturn
  refine ⟨fun o body d s hm hl hb hz hc => ?_, fun d s => ⟨fun hst hact => ?_, fun hst hd _ hup => ?_, fun hst => ?_, fun hst hd => ?_,
    fun o hm => ?_⟩⟩
  · subst hb
    refine ⟨fun hth hst hact => ?_, fun hth hst => ?_, fun hst ht hd => ?_, fun hst ht hd => ?_, exec_domainStatus hm hl hz hc⟩
    · rw [exec_domainReset hm hl hz hc hth, if_neg (by simp [hst, hact])]
      exact ⟨_, rfl, dom_setDom_same⟩
    · rw [exec_domainReset hm hl hz hc hth, if_pos (.inl hst)]
    · rw [exec_domainReturn hm hl hz hc hst ht, if_neg (by omega), startReturn_die hd]
      exact ⟨_, rfl, (dom_congr startLink_domains _).trans dom_setDom_same, startLink_after rfl rfl rfl rfl⟩
    · rw [exec_domainReturn hm hl hz hc hst ht, if_pos hd]
  · rw [exec_resetTimeEnd hst hact]
    refine ⟨_, rfl, ?_, fun h11 => ?_⟩
    · split <;> simp [dom_congr wr_domains]
    · rw [if_pos h11]
      exact rd_wr_same (by decide)
  · obtain ⟨u, hu⟩ := exec_returningComplete_die hst hd hup
    exact ⟨_, hu, dom_enterService⟩
  · obtain ⟨u, hu⟩ := exec_returningComplete_s1 hst
    exact ⟨_, hu, dom_enterService⟩
  · refine ⟨_, exec_returnTimeout hst hd, dom_setDom_same, fun c hc => ?_⟩
    rw [dom_setDom_other hc, dom_domReply_other hc]
  · exact exec_ldWarmReset hm

end Sys2Proof.Machine
end

section
/-! Tolger links (R22 to R26, R437): the state operations of a link's direction, the failure of a link, and its commands. -/

namespace Sys2Proof.Machine

section
variable {s : State}

/-! Bits of a number. -/

theorem bit_eq_testBit {i n : Nat} : bit i n = n.testBit i := by
  rw [Nat.testBit_eq_decide_div_mod_eq]
  rfl

/-- A bit of a field that is as wide as the bit lies high. -/
theorem bit_mod_two_pow {i w n : Nat} (h : i < w) : bit i (n % 2 ^ w) = bit i n := by
  rw [bit_eq_testBit, bit_eq_testBit, Nat.testBit_mod_two_pow, decide_eq_true h, Bool.true_and]

theorem bit_or_two_pow {i n : Nat} : bit i (n ||| 2 ^ i) = true := by
  rw [bit_eq_testBit, Nat.testBit_or, Nat.testBit_two_pow_self, Bool.or_true]

theorem bit_setBit_same {i n : Nat} {b : Bool} : bit i (setBit i b n) = b := by
  unfold setBit
  split
  · assumption
  · rename_i h
    split
    · rename_i hb
      subst hb
      rw [bit_eq_testBit] at h ⊢
      rw [Nat.add_comm, Nat.testBit_two_pow_add_eq, eq_false_of_ne_true h]
      rfl
    · rename_i hb
      obtain rfl : b = false := eq_false_of_ne_true hb
      rw [bit_eq_testBit] at h ⊢
      have hset : n.testBit i = true := eq_true_of_ne_false h
      have hsum : 2 ^ i + (n - 2 ^ i) = n := by have := Nat.ge_two_pow_of_testBit hset; omega
      have hflip := Nat.testBit_two_pow_add_eq (n - 2 ^ i) i
      rw [hsum, hset] at hflip
      simpa using hflip

/-! One count, in full (R464). -/

theorem count_eq_ctrSet {a : Nat} (hc : compat s = false) (hs : (ctrGet s a).sat = false) (hv : (ctrGet s a).v + 1 < 2 ^ 64) :
    count a s = ctrSet a { v := (ctrGet s a).v + 1, sat := false } s := by
  unfold count countBy
  simp only [hc, hs, Bool.false_eq_true, if_false]
  rw [if_pos hv]

theorem ctrSet_ctrsBut {a : Nat} {c : Ctr} : CtrsBut [a] s (ctrSet a c s) :=
  fun _ hb => ctrGet_ctrSet_other (List.ne_of_not_mem_cons hb)

/-! A direction of a link. -/

theorem setTolger_only {n : Nat} {b : Bool} {d : TolgerDir} : Only [.tolger] s (setTolger n b d s) :=
  (setTolger_keeps rfl (Keeps.refl 128 s)).onlyOf (by decide)

/-- A count beside a changed direction. -/
theorem count_setTolger {a n : Nat} {b : Bool} {d : TolgerDir} (hc : compat s = false) (hs : (ctrGet s a).sat = false)
    (hv : (ctrGet s a).v + 1 < 2 ^ 64) :
    ctrGet (count a (setTolger n b d s)) a = { v := (ctrGet s a).v + 1, sat := false } ∧
      tolger (count a (setTolger n b d s)) n b = d ∧ CtrsBut [a] s (count a (setTolger n b d s)) ∧
      Only [.tolger, .ctrs] s (count a (setTolger n b d s)) := by
  have hcount : count a (setTolger n b d s) = ctrSet a { v := (ctrGet s a).v + 1, sat := false } (setTolger n b d s) :=
    count_eq_ctrSet hc hs hv
  rw [hcount]
  exact ⟨ctrGet_ctrSet_same, tolger_setTolger_same, ctrSet_ctrsBut,
    (ctrSet_keeps rfl (setTolger_keeps rfl (Keeps.refl 132 s))).onlyOf (by decide)⟩

theorem takeFirst_offWire {ch : Nat} {l : List TolgerCell} {f : TolgerCell} {r : List TolgerCell}
    (h : takeFirst (fun f : TolgerCell => f.ch == ch) (offWire ch l) = some (f, r)) : f.wire = false := by
  induction l generalizing f r with
  | nil => cases h
  | cons g l ih =>
    unfold offWire at h
    split at h
    · rename_i hg
      simp only [takeFirst, hg, beq_self_eq_true, if_true, Option.some.injEq, Prod.mk.injEq] at h
      exact h.1 ▸ rfl
    · rename_i hg
      simp only [takeFirst, beq_eq_false_iff_ne.2 hg, Bool.false_eq_true, if_false, Option.map_eq_some_iff] at h
      obtain ⟨x, hx, heq⟩ := h
      cases heq
      exact ih hx

/-- A channel whose oldest cell has failed puts nothing on the wire: the cells behind it wait (R25). -/
theorem nextOnWire_offWire {ch : Nat} {d : TolgerDir} {l : List TolgerCell} (hl : d.flight = offWire ch l) :
    nextOnWire d ch = none := by
  unfold nextOnWire
  rw [hl]
  split
  · rename_i f r hf
    rw [takeFirst_offWire hf]
    rfl
  · rfl

/-! WORST of a link (R485). -/

theorem noteWorst_kept {slot n : Nat} : Keeps 2 s (noteWorst slot n s) := noteWorst_keeps rfl (Keeps.refl 2 s)

theorem linkState_noteWorst {slot n : Nat} : linkState (noteWorst slot n s) slot = linkState s slot := by
  unfold noteWorst
  split
  · exact rd_wr_other (.inr ⟨Nat.le_of_ble_eq_true rfl, .inl (Nat.le_of_ble_eq_true rfl)⟩)
  · rfl

/-- A failed check: the direction as it then is, its counter and WORST. -/
theorem failedCheck_kept {a slot k n : Nat} {b : Bool} {d : TolgerDir} :
    Keeps 131222 s (noteWorst slot k (count a (setTolger n b d s))) :=
  noteWorst_keeps rfl (count_keeps rfl (setTolger_keeps rfl (Keeps.refl _ s)))

theorem tolger_failedCheck {a slot k n : Nat} {b : Bool} {d : TolgerDir} :
    tolger (noteWorst slot k (count a (setTolger n b d s))) n b = d := by
  rw [tolger_congr (noteWorst_kept.tolger rfl), tolger_congr count_tolger, tolger_setTolger_same]

theorem linkState_failedCheck {a slot k n : Nat} {b : Bool} {d : TolgerDir} :
    linkState (noteWorst slot k (count a (setTolger n b d s))) slot = linkState s slot := by
  rw [linkState_noteWorst, linkState_congr (count_regs.trans setTolger_regs)]

/-! LINK_FAIL (R26). -/

theorem tolgerFail_regs {slot : Nat} : (tolgerFail slot s).regs =
    (wr Reg.GLB.STAT.LINKFAIL (rd Reg.GLB.STAT.LINKFAIL (wr (Reg.DIE.LSTAT.STATE slot) 4 s) ||| 2 ^ slot)
      (wr (Reg.DIE.LSTAT.STATE slot) 4 s)).regs := by
  unfold tolgerFail
  have hafter : ∀ u, Keeps 134868 u
      (logErr 0x0401 slot 0 (dropPort (2 * slot + 1) (dropPort (2 * slot) (dropTolger slot (raise (srcLINK_FAIL slot) u))))) :=
    fun u => logErr_keeps rfl (dropPort_keeps rfl (dropPort_keeps rfl (dropTolger_keeps rfl (raise_keeps rfl (Keeps.refl _ u)))))
  exact (hafter _).regs rfl

theorem linkFail_apart (slot : Nat) : (Reg.DIE.LSTAT.STATE slot).addr ≠ Reg.GLB.STAT.LINKFAIL.addr := by
  simp only [Reg.DIE.LSTAT.STATE, Reg.GLB.STAT.LINKFAIL]
  omega

theorem linkState_tolgerFail {slot : Nat} : linkState (tolgerFail slot s) slot = 4 := by
  rw [linkState_congr tolgerFail_regs]
  exact (rd_wr_other (.inl (linkFail_apart slot))).trans (rd_wr_same (Nat.le_of_ble_eq_true rfl))

theorem linkFail_tolgerFail {slot : Nat} (h : slot < 8) : bit slot (rd Reg.GLB.STAT.LINKFAIL (tolgerFail slot s)) = true := by
  rw [rd_congr tolgerFail_regs, rd_wr_same (by decide)]
  exact (bit_mod_two_pow h).trans bit_or_two_pow

/-- Nothing waits or flies toward the die any more. -/
theorem toDie_tolgerFail {slot : Nat} :
    (tolger (tolgerFail slot s) slot false).waiting = [] ∧ (tolger (tolgerFail slot s) slot false).flight = [] := by
  have hafter : ∀ u, Keeps 134740 u (logErr 0x0401 slot 0 (dropPort (2 * slot + 1) (dropPort (2 * slot) u))) :=
    fun u => logErr_keeps rfl (dropPort_keeps rfl (dropPort_keeps rfl (Keeps.refl _ u)))
  unfold tolgerFail
  rw [tolger_congr ((hafter _).tolger rfl)]
  unfold dropTolger
  rw [tolger_setTolger_same]
  exact ⟨rfl, rfl⟩

/-! TOLGER_CELL_RECEIVE (R25, R26). -/

section
variable {slot : Slot} {toLd : Bool} {ch : Fin 2} {f : TolgerCell} {rest : List TolgerCell}

/-- The direction after a good cell of channel `ch`. -/
def cellPassed (d : TolgerDir) (ch : Nat) (rest : List TolgerCell) : TolgerDir :=
  { d with flight := rest, cellFails := Tab.set zeroN ch 0 d.cellFails }

/-- The direction after a bad cell of channel `ch`. -/
def cellFailed (d : TolgerDir) (ch : Nat) : TolgerDir :=
  { d with flight := offWire ch d.flight, cellFails := Tab.set zeroN ch (cellFailsOf d ch + 1) d.cellFails }

theorem cellFailsOf_cellPassed_same {d : TolgerDir} {c : Nat} : cellFailsOf (cellPassed d c rest) c = 0 :=
  Tab.get_set_same zeroN c 0 d.cellFails

theorem cellFailsOf_cellPassed_other {d : TolgerDir} {b c : Nat} (h : b ≠ c) : cellFailsOf (cellPassed d c rest) b = cellFailsOf d b :=
  Tab.get_set_other zeroN h 0 d.cellFails

theorem cellFailsOf_cellFailed_same {d : TolgerDir} {c : Nat} : cellFailsOf (cellFailed d c) c = cellFailsOf d c + 1 :=
  Tab.get_set_same zeroN c (cellFailsOf d c + 1) d.cellFails

theorem cellFailsOf_cellFailed_other {d : TolgerDir} {b c : Nat} (h : b ≠ c) : cellFailsOf (cellFailed d c) b = cellFailsOf d b :=
  Tab.get_set_other zeroN h (cellFailsOf d c + 1) d.cellFails

theorem exec_tolgerCellReceive_good (hup : linkUp s slot = true) (hnext : nextOnWire (tolger s slot toLd) ch = some (f, rest)) :
    exec (.tolgerCellReceive slot toLd ch true) s =
      .next (tolgerDeliver toLd (2 * slot + ch) f (setTolger slot toLd (cellPassed (tolger s slot toLd) ch rest) s)) := by
  change execTolgerCellReceive slot toLd ch true s = _
  unfold execTolgerCellReceive
  simp only [hnext, hup, Bool.not_true, Bool.false_eq_true, if_false, if_true]
  rfl

theorem exec_tolgerCellReceive_bad (hup : linkUp s slot = true) (hnext : nextOnWire (tolger s slot toLd) ch = some (f, rest)) :
    exec (.tolgerCellReceive slot toLd ch false) s =
      (let t := noteWorst slot (cellFailsOf (tolger s slot toLd) ch + 1)
          (count (cDIE slot 0) (setTolger slot toLd (cellFailed (tolger s slot toLd) ch) s))
       if 8 ≤ cellFailsOf (tolger s slot toLd) ch + 1 then .next (tolgerFail slot t) else .next t) := by
  change execTolgerCellReceive slot toLd ch false s = _
  unfold execTolgerCellReceive
  simp only [hnext, hup, Bool.not_true, Bool.false_eq_true, if_false]
  rfl

theorem tolgerDeliver_tolger {p : Nat} : (tolgerDeliver toLd p f s).tolger = s.tolger :=
  (tolgerDeliver_keeps rfl (Keeps.refl 5120 s)).tolger rfl

theorem holdOf_tolgerDeliver_toLd {p : Nat} : holdOf (tolgerDeliver true p f s) p = holdOf s p ++ [f.held] := holdOf_setHold_same

theorem arrived_tolgerDeliver_toDie {p : Nat} : Tab.get noCells (tolgerDeliver false p f s).tuns.arrived p =
    Tab.get noCells s.tuns.arrived p ++ [(f.held.cell, f.inp, termCtxOf s f.held.cell)] := Tab.get_set_same _ _ _ _

end

/-! TOLGER_FLIT_RECEIVE and TOLGER_NAK (R25). -/

theorem exec_tolgerFlitReceive_bad {slot : Slot} {toLd : Bool} {flit : BitVec 64} (hup : linkUp s slot = true)
    (hroom : (tolger s slot toLd).flits.length < 16) :
    exec (.tolgerFlitReceive slot toLd ⟨flit, false⟩) s =
      (let t := noteWorst slot ((tolger s slot toLd).flitFails + 1) (count (cDIE slot 1) (setTolger slot toLd
          { tolger s slot toLd with
            flits := flitFailed flit (tolger s slot toLd).flits, flitFails := (tolger s slot toLd).flitFails + 1 } s))
       if 8 ≤ (tolger s slot toLd).flitFails + 1 then .next (tolgerFail slot t) else .next t) := by
  change execTolgerFlitReceive slot toLd ⟨flit, false⟩ s = _
  unfold execTolgerFlitReceive
  have hfull : ¬ 16 ≤ (tolger s slot toLd).flits.length := Nat.not_le.2 hroom
  simp only [hup, hfull, Bool.not_true, Bool.false_eq_true, if_false, decide_false, Bool.false_and]

/-! TOLGER_BEAT_PAIR (R23 to R25). -/

/-- The direction after the oldest waiting cell of channel `c` has been sent for one credit. -/
def cellSent (d : TolgerDir) (c i : Nat) (h : Held) (l : List (Nat × Held)) : TolgerDir :=
  { d with
    waiting := Tab.set noCells c l d.waiting
    flight := d.flight ++ [{ ch := c, inp := i, held := h, wire := true }]
    last := c
    credit := Tab.set tolgerCredit c (creditOfCh d c - 1) d.credit }

/-- The channel whose turn it is: the one not served last, where both can send. -/
theorem exec_tolgerBeatPair {slot : Slot} {toLd : Bool} {c i : Nat} {h : Held} {l : List (Nat × Held)} (hup : linkUp s slot = true)
    (hroom : (tolger s slot toLd).flight.length < 32) (hc : c < 2) (hw : waitingOf (tolger s slot toLd) c = (i, h) :: l)
    (hcr : creditOfCh (tolger s slot toLd) c ≠ 0)
    (hturn : c = (tolger s slot toLd).last % 2 → canSend (tolger s slot toLd) (1 - c) = false) :
    exec (.tolgerBeatPair slot toLd) s = .next (setTolger slot toLd (cellSent (tolger s slot toLd) c i h l) s) := by
  have hsend : canSend (tolger s slot toLd) c = true := by simp [canSend, hw, hcr]
  have hch : (if canSend (tolger s slot toLd) (1 - (tolger s slot toLd).last % 2) then some (1 - (tolger s slot toLd).last % 2)
      else if canSend (tolger s slot toLd) (1 - (1 - (tolger s slot toLd).last % 2)) then some (1 - (1 - (tolger s slot toLd).last % 2))
      else none) = some c := by
    by_cases hlast : c = (tolger s slot toLd).last % 2
    · rw [← hlast, hturn hlast, if_neg Bool.false_ne_true, show 1 - (1 - c) = c by omega, if_pos hsend]
    · rw [show 1 - (tolger s slot toLd).last % 2 = c by omega, if_pos hsend]
  change execTolgerBeatPair slot toLd s = _
  unfold execTolgerBeatPair
  simp only [hch, hup, hroom, decide_true, Bool.and_self, if_true, hw]
  rfl

/-! TOLGER_RELINK (R26, R437). -/

theorem exec_tolgerRelink_failed {slot : Slot} (h : relinksFailed s slot = true) :
    ∃ u, Keeps 130 s u ∧ exec (.tolgerRelink slot) s =
      .next (wr (Reg.DIE.LSTAT.STATE slot) 3 (wr Reg.GLB.STAT.LINKFAIL (setBit slot false (rd Reg.GLB.STAT.LINKFAIL u)) u)) := by
  have h4 : linkState s slot = 4 := by
    simp only [relinksFailed, Bool.and_eq_true, beq_iff_eq] at h
    exact h.1.1
  exact ⟨_, startLink_keeps rfl (wr_keeps rfl (Keeps.refl _ s)), (if_neg (by omega)).trans (if_pos h)⟩

end

/-- Settles O9: each command by its equation above; a failure by what `tolgerFail` leaves. -/
theorem cellsCrossTheTolgerLinks : Obligations.CellsCrossTheTolgerLinks := by
  unfold Obligations.CellsCrossTheTolgerLinks
  refine ⟨fun slot toLd ch f rest s hup hnext => ⟨?_, fun hk => ?_, fun hk => ?_⟩,
    fun slot toLd flit s => ⟨fun hup => ?_, fun hup hroom hk => ?_, fun hup hroom hk => ?_, fun hup hf hc hs hv => ?_, fun hup hf hc hs hv => ?_,
      fun ch ho => ?_, fun ch ho => ?_, fun h2 => ?_, fun hre => ?_⟩,
    fun slot toLd c i h l s hup hroom hc hw hcr hturn => ?_⟩
  case refine_1 =>
    refine ⟨_, exec_tolgerCellReceive_good hup hnext, ?_⟩
    rw [tolger_congr tolgerDeliver_tolger, tolger_setTolger_same]
    refine ⟨rfl, cellFailsOf_cellPassed_same, fun c hc => cellFailsOf_cellPassed_other hc, fun c => rfl, ?_, ?_,
      (tolgerDeliver_keeps rfl (setTolger_keeps rfl (Keeps.refl 5248 s))).onlyOf (by decide)⟩
    · rintro rfl
      exact holdOf_tolgerDeliver_toLd
    · rintro rfl
      exact arrived_tolgerDeliver_toDie
  case refine_2 =>
    refine ⟨_, (exec_tolgerCellReceive_bad hup hnext).trans (if_neg (by omega)), ?_⟩
    rw [tolger_failedCheck]
    exact ⟨cellFailsOf_cellFailed_same, fun c hc => cellFailsOf_cellFailed_other hc, rfl, nextOnWire_offWire rfl,
      failedCheck_kept.onlyOf (by decide)⟩
  case refine_3 =>
    exact ⟨_, (exec_tolgerCellReceive_bad hup hnext).trans (if_pos hk), linkState_tolgerFail, linkFail_tolgerFail slot.isLt, toDie_tolgerFail⟩
  case refine_4 =>
    refine ⟨_, ?_, tolger_setTolger_same, setTolger_only⟩
    exact (if_neg (by simp [hup])).trans (if_pos rfl)
  case refine_5 =>
    refine ⟨_, (exec_tolgerFlitReceive_bad hup hroom).trans (if_neg (by omega)), tolger_failedCheck, ?_, failedCheck_kept.onlyOf (by decide)⟩
    exact linkState_failedCheck.trans (by simpa [linkUp] using hup)
  case refine_6 =>
    exact ⟨_, (exec_tolgerFlitReceive_bad hup hroom).trans (if_pos hk), linkState_tolgerFail, linkFail_tolgerFail slot.isLt, toDie_tolgerFail⟩
  case refine_7 =>
    refine ⟨_, (if_neg (by simp [hup])).trans ((if_pos rfl).trans (if_pos hf)), ?_⟩
    obtain ⟨hctr, htol, hbut, honly⟩ := count_setTolger (n := slot) (b := toLd) hc hs hv
    rw [htol]
    exact ⟨hctr, rfl, rfl, hbut, honly⟩
  case refine_8 =>
    refine ⟨_, (if_neg (by simp [hup])).trans ((if_neg Bool.false_ne_true).trans (if_pos hf)), ?_⟩
    obtain ⟨hctr, htol, hbut, honly⟩ := count_setTolger (n := slot) (b := toLd) hc hs hv
    rw [htol]
    exact ⟨hctr, rfl, rfl, hbut, honly⟩
  case refine_9 =>
    refine ⟨_, if_neg ho, ?_⟩
    rw [tolger_setTolger_same]
    refine ⟨Tab.get_set_same _ _ _ _, ?_, fun c hc => Tab.get_set_other _ hc _ _, rfl, rfl, setTolger_only⟩
    exact (congrArg (· + 1) (Tab.get_set_same _ _ _ _)).trans (Nat.sub_add_cancel (Nat.pos_of_ne_zero ho))
  case refine_10 => exact if_pos ho
  case refine_11 =>
    exact ⟨_, if_pos h2, rd_wr_same (Nat.le_of_ble_eq_true rfl), RegsBut.refl.wr (List.mem_singleton.2 rfl),
      (wr_keeps rfl (Keeps.refl 2 s)).onlyOf (by decide)⟩
  case refine_12 =>
    obtain ⟨u, hu, hexec⟩ := exec_tolgerRelink_failed hre
    refine ⟨_, hexec, rd_wr_same (Nat.le_of_ble_eq_true rfl), ?_, (wr_keeps rfl (wr_keeps rfl hu)).onlyOf (by decide)⟩
    rw [rd_wr_other (.inl (linkFail_apart slot).symm), rd_wr_same (by decide)]
    exact (bit_mod_two_pow slot.isLt).trans bit_setBit_same
  case refine_13 =>
    refine ⟨_, exec_tolgerBeatPair hup hroom hc hw hcr hturn, ?_⟩
    rw [tolger_setTolger_same]
    have hother : 1 - c ≠ c := by omega
    exact ⟨rfl, Tab.get_set_same _ _ _ _, Tab.get_set_same _ _ _ _, rfl, Tab.get_set_other _ hother _ _, Tab.get_set_other _ hother _ _,
      setTolger_only⟩

end Sys2Proof.Machine
end

section
/-! What cells do leaves the tables alone: a park list that is tried again (R130) moves, discards and queues cells, and neither edits a table of
the LD nor touches the Forager's registers, and no event that is pending is lost. -/

namespace Sys2Proof.Machine

/-- The tables of the LD and the Forager's work, without the rings, the WAGGLEs and the bypass. -/
def Topo.forager (p : Topo) : (LdTable × LdTable × LdTable × LdTable) × List (Nat × Nat) × Option Nat × List (List Byte) :=
  ((p.route, p.term, p.origin, p.gmap), p.recompute, p.expanding, p.seeds)

/-- The registers that show the Forager's state. -/
def foragerRegs : List Nat := [Reg.RTE.FGR.word.addr, Reg.RTE.FGR2.word.addr]

/-- From `s` to `t` the tables and the Forager's registers are as they were, and a pending source stays so. -/
structure CellsAside (s t : State) : Prop where
  topo : t.topo.forager = s.topo.forager
  regs : ∀ k, k ∈ foragerRegs → regGet t k = regGet s k
  pending : ∀ n, srcSt s n = .pending → srcSt t n = .pending

section
variable {s t u : State}

theorem CellsAside.refl : CellsAside s s := ⟨rfl, fun _ _ => rfl, fun _ h => h⟩

theorem CellsAside.trans (h : CellsAside s t) (g : CellsAside t u) : CellsAside s u :=
  ⟨g.topo.trans h.topo, fun k hk => (g.regs k hk).trans (h.regs k hk), fun n hn => g.pending n (h.pending n hn)⟩

/-- What touches no register, source or topology. -/
theorem CellsAside.keeps {m : Nat} (h : CellsAside s t) (k : Keeps m t u) (hr : m.testBit 1 = false) (hs : m.testBit 4 = false)
    (ht : m.testBit 9 = false) : CellsAside s u :=
  h.trans ⟨by rw [k.topo ht], fun j _ => regGet_congr (k.regs hr) j, fun n hn => by rw [srcSt_congr (k.srcs hs), hn]⟩

theorem CellsAside.tbl (h : CellsAside s t) (r : Nat) : tbl t r = tbl s r := by
  have htabs := congrArg Prod.fst h.topo
  simp only [Topo.forager, Prod.mk.injEq] at htabs
  obtain ⟨h0, h1, h2, h3⟩ := htabs
  unfold Machine.tbl
  split <;> assumption

theorem CellsAside.entry (h : CellsAside s t) (r i : Nat) : entry t r i = entry s r i := by
  unfold Machine.entry
  rw [h.tbl]

theorem CellsAside.rd (h : CellsAside s t) {f : Fld} (hf : f.addr ∈ foragerRegs) : rd f t = rd f s := by
  unfold Machine.rd
  rw [h.regs _ hf]

theorem CellsAside.ite {c : Prop} [Decidable c] {a b : State} (ha : CellsAside s a) (hb : CellsAside s b) :
    CellsAside s (if c then a else b) := by
  split
  · exact ha
  · exact hb

theorem CellsAside.forAll {α : Type} {l : List α} {f : α → State → State} (hf : ∀ a u, CellsAside s u → CellsAside s (f a u))
    (h : CellsAside s t) : CellsAside s (forAll l f t) := by
  unfold Machine.forAll
  induction l generalizing t with
  | nil => exact h
  | cons a l ih => exact ih (hf a t h)

/-! Events and counts. -/

/-- An event only adds a pending source (R425). -/
theorem srcSt_raise_pending {m n : Nat} (h : srcSt s m = .pending) : srcSt (raise n s) m = .pending := by
  by_cases hm : m = n
  · subst hm
    unfold raise
    rw [h]
    split <;> exact h
  · rw [srcSt_raise_other hm, h]

theorem CellsAside.raise {n : Nat} (h : CellsAside s t) : CellsAside s (raise n t) :=
  h.trans ⟨by rw [raise_topo], fun k _ => regGet_congr raise_regs k, fun _ => srcSt_raise_pending⟩

theorem CellsAside.logErr {c l d : Nat} (h : CellsAside s t) : CellsAside s (logErr c l d t) := by
  unfold Machine.logErr
  exact CellsAside.raise (h.trans ⟨rfl, fun _ _ => rfl, fun _ hn => hn⟩)

theorem CellsAside.countBy {a n : Nat} (h : CellsAside s t) : CellsAside s (countBy a n t) := by
  have hset : ∀ c, CellsAside s (ctrSet a c t) := fun c => h.trans ⟨rfl, fun _ _ => rfl, fun _ hn => hn⟩
  unfold Machine.countBy
  exact .ite (hset _) (.ite h (.ite (hset _) (.logErr (.raise (hset _)))))

theorem CellsAside.count {a : Nat} (h : CellsAside s t) : CellsAside s (count a t) := h.countBy

/-! A register elsewhere. -/

theorem CellsAside.wr {f : Fld} {x : Nat} (h : CellsAside s t) (hf : f.addr ∉ foragerRegs) : CellsAside s (wr f x t) :=
  h.trans ⟨rfl, fun k hk => regGet_wr_other (by rintro rfl; exact hf hk), fun _ hn => hn⟩

/-! Discards (R163, R170). -/

theorem CellsAside.logDiscard {d : Discard} (h : CellsAside s t) : CellsAside s (logDiscard d t) := by
  unfold Machine.logDiscard
  exact .ite h.logErr h

theorem CellsAside.updComb {f : Comb → Comb} (h : CellsAside s t) : CellsAside s (updComb f t) :=
  h.trans ⟨rfl, fun _ _ => rfl, fun _ hn => hn⟩

theorem CellsAside.ringGone {c : Cell} (h : CellsAside s t) : CellsAside s (ringGone c t) := by
  unfold Machine.ringGone
  exact .ite (h.trans ⟨rfl, fun _ _ => rfl, fun _ hn => hn⟩) h

theorem CellsAside.freeAddr {a : Nat} (h : CellsAside s t) : CellsAside s (freeAddr a t) :=
  h.keeps (freeAddr_keeps rfl (Keeps.refl 1024 t)) rfl rfl rfl

theorem CellsAside.uncharge {e : QEnt} (h : CellsAside s t) : CellsAside s (uncharge e t) :=
  h.keeps (uncharge_keeps rfl (Keeps.refl 64 t)) rfl rfl rfl

theorem CellsAside.releaseCopy {e : QEnt} (h : CellsAside s t) : CellsAside s (releaseCopy e t) :=
  h.keeps (releaseCopy_keeps rfl (Keeps.refl 64 t)) rfl rfl rfl

theorem CellsAside.discardCell {m k : Nat} {b : Bool} {e : QEnt} (h : CellsAside s t) : CellsAside s (discardCell m k b e t) := by
  have hcopy : CellsAside s (Machine.uncharge e (Machine.releaseCopy e (Machine.count (cCMB (144 * m + k % 144))
      (if b then Machine.freeAddr e.addr t else t)))) :=
    ((CellsAside.ite (c := b = true) h.freeAddr h).count).releaseCopy.uncharge
  have hring := CellsAside.ite (c := k < 32) (hcopy.ringGone (c := e.cell)) hcopy
  unfold Machine.discardCell
  dsimp only
  split
  · exact .ite hring.logDiscard.updComb hring.updComb
  · have herr := CellsAside.ite (c := m = 1) (hring.raise (n := srcERR_DROP)) hring
    exact .ite herr.logDiscard herr.updComb

/-! The same for results that carry a state. -/

/-- The state of a result is aside. -/
def CellsAside2 {α : Type} (s : State) (x : α × State) : Prop := CellsAside s x.2

theorem CellsAside.mk2 {α : Type} {a : α} (h : CellsAside s t) : CellsAside2 s (a, t) := h

theorem CellsAside2.ite {α : Type} {c : Prop} [Decidable c] {a b : α × State} (ha : CellsAside2 s a) (hb : CellsAside2 s b) :
    CellsAside2 s (if c then a else b) := by
  split
  · exact ha
  · exact hb

theorem CellsAside2.of_eq {α : Type} {x : α × State} {a : α} (h : CellsAside2 s x) (e : x = (a, t)) : CellsAside s t := by
  subst e
  exact h

theorem CellsAside.ageList {k : Nat} {l : List QEnt} (h : CellsAside s t) : CellsAside2 s (ageList k l t) := by
  induction l generalizing t with
  | nil => exact h
  | cons e l ih =>
    unfold Machine.ageList
    split
    · exact ih h.discardCell
    · exact ih h

theorem CellsAside.atHead {k : Nat} {e : QEnt} (h : CellsAside s t) : CellsAside2 s (atHead k e t) := by
  unfold Machine.atHead
  split
  · exact h.discardCell.mk2
  · split
    · exact h.mk2
    · exact .ite h.logDiscard.updComb.mk2 h.discardCell.mk2

/-! Guard (R187 to R189). -/

theorem CellsAside.originFail {i : Nat} (h : CellsAside s t) : CellsAside s (originFail i t) := by
  unfold Machine.originFail
  exact (CellsAside.ite h.count h).wr (by decide)

theorem CellsAside.updSched {f : Sched → Sched} (h : CellsAside s t) : CellsAside s (updSched f t) :=
  h.trans ⟨rfl, fun _ _ => rfl, fun _ hn => hn⟩

theorem CellsAside.setPolicer {i : Nat} {x : Shaper} (h : CellsAside s t) : CellsAside s (setPolicer i x t) :=
  h.keeps (setPolicer_keeps rfl (Keeps.refl 2048 t)) rfl rfl rfl

theorem CellsAside.chargeGreen {g : GuardFrame} {c : Cell} (h : CellsAside s t) : CellsAside2 s (chargeGreen g c t) := by
  unfold Machine.chargeGreen
  extract_lets +onlyGivenNames -lift x
  clear_value x
  split
  rename_i y g' t' hy
  have ht' : CellsAside s t' := by
    refine CellsAside2.of_eq (.ite h.mk2 ?_) hy
    split
    exact h.setPolicer.countBy.mk2
  extract_lets +onlyGivenNames -lift xb
  clear_value xb
  refine .ite ?_ ht'.mk2
  split
  exact ht'.updSched.mk2

theorem CellsAside.countRed {g : GuardFrame} {c : Cell} (h : CellsAside s t) : CellsAside2 s (countRed g c t) := by
  have hcount : ∀ a, CellsAside s (if c.f then Machine.count a t else t) := fun a => .ite h.count h
  unfold Machine.countRed
  refine .ite ?_ (.ite ?_ h.mk2)
  · extract_lets +onlyGivenNames -lift x
    split
    exact (hcount _).countBy.mk2
  · split
    exact (hcount _).countBy.mk2

theorem CellsAside.guard {i : Nat} {c : Cell} (h : CellsAside s t) : CellsAside2 s (guard i c t) := by
  have hclose : ∀ u (g : GuardFrame), CellsAside s u → CellsAside s (if c.l then closeOpen i c u else putOpen g u) :=
    fun u g hu => .ite hu.updSched hu.updSched
  have hcharge : ∀ g : GuardFrame, CellsAside2 s (if g.letIn then Machine.chargeGreen g c t else Machine.countRed g c t) :=
    fun g => .ite h.chargeGreen h.countRed
  unfold Machine.guard
  refine .ite ?_ ?_
  · refine .ite (hclose _ _ h.originFail).mk2 (.ite (hclose _ _ h.originFail).mk2 ?_)
    exact (hclose _ _ (hcharge _)).mk2
  · split
    · exact h.originFail.mk2
    · exact (hclose _ _ (hcharge _)).mk2

theorem CellsAside.guardParked {i : Nat} {e : QEnt} (h : CellsAside s t) {b : Bool} (hu : guardParked i e t = some (b, u)) :
    CellsAside s u := by
  unfold Machine.guardParked at hu
  split at hu
  · cases hu
    exact h
  · split at hu
    · cases hu
    · exact CellsAside2.of_eq h.guard (Option.some.inj hu)

/-! Queues (R154, R161, R165) and wakes (R74, R80). -/

theorem CellsAside.endLogs {k i : Nat} (h : CellsAside s t) : CellsAside s (endLogs k i t) := by
  unfold Machine.endLogs
  exact (h.forAll fun _ _ hu => hu.logDiscard).updComb

theorem CellsAside.join {q : Nat} {e : QEnt} (h : CellsAside s t) : CellsAside s (join q e t) := by
  have hlogs : ∀ k i u, CellsAside s u → CellsAside s (if e.cell.f then Machine.endLogs k i u else u) := fun k i u hu => .ite hu.endLogs hu
  have hround : ∀ p c u, CellsAside s u → CellsAside s (dwrrJoin p c u) :=
    fun p c u hu => hu.keeps (dwrrJoin_keeps rfl (Keeps.refl 2048 u)) rfl rfl rfl
  have hmark : ∀ u, CellsAside s u → CellsAside s (markOcc q u) := fun u hu => hu.keeps (markOcc_keeps rfl (Keeps.refl 1024 u)) rfl rfl rfl
  unfold Machine.join
  refine .ite ?_ (.ite ?_ ?_)
  · unfold enqueueVoq
    exact .ite (hround _ _ _ (hlogs _ _ _ h).updComb) (hlogs _ _ _ h).updComb
  · unfold enqueueSpill
    exact hmark _ (hlogs _ _ _ h.freeAddr).updComb.count
  · unfold enqueue
    exact hmark _ (.ite (hround _ _ _ (hlogs _ _ _ h).updComb) (hlogs _ _ _ h).updComb)

/-- A line port's status is no register of the Forager. -/
theorem lstat_elsewhere (n : Nat) : 0x100004 + n * 0x100000 ∉ foragerRegs := by
  simp only [foragerRegs, Reg.RTE.FGR.word, Reg.RTE.FGR2.word, List.mem_cons, List.not_mem_nil, or_false, not_or]
  omega

theorem CellsAside.startExit {n : Nat} {w : OsWord} (h : CellsAside s t) : CellsAside s (startExit n w t) := by
  unfold Machine.startExit startExitAt
  extract_lets st u v
  have hv : CellsAside s v := h.keeps (updLp_keeps rfl (eyeLost_keeps rfl (Keeps.refl 68719476800 t))) rfl rfl rfl
  exact .ite ((hv.wr (lstat_elsewhere n)).wr (lstat_elsewhere n)) h

theorem CellsAside.voidRequest {n : Nat} (h : CellsAside s t) : CellsAside s (voidRequest n t) :=
  h.keeps (voidRequest_keeps rfl (Keeps.refl 64 t)) rfl rfl rfl

theorem CellsAside.sendWaggle {n dst hops : Nat} (h : CellsAside s t) : CellsAside s (sendWaggle n dst hops t) := by
  unfold Machine.sendWaggle
  extract_lets tab rest new u
  have hu : CellsAside s u := h.trans ⟨rfl, fun _ _ => rfl, fun _ hn => hn⟩
  exact .ite h (.ite hu.startExit (hu.keeps (pendOs_keeps rfl (Keeps.refl 64 u)) rfl rfl rfl).voidRequest)

theorem CellsAside.wakeFor {n dst : Nat} (h : CellsAside s t) : CellsAside s (wakeFor n dst t) := by
  unfold Machine.wakeFor
  extract_lets wag u
  have hu : CellsAside s u := .ite h.sendWaggle h
  exact hu.startExit.voidRequest

theorem CellsAside.unpark {e : QEnt} {outs : List Nat} (h : CellsAside s t) : CellsAside s (unpark e outs t) := by
  unfold Machine.unpark
  extract_lets +onlyGivenNames -lift u e' v
  have hu : CellsAside s u := h.uncharge
  have hv : CellsAside s v := hu.forAll fun o w hw => .ite hw.wakeFor hw
  clear_value u v
  split
  · exact hu.freeAddr.releaseCopy
  · refine (hv.forAll fun o w hw => ?_).join
    split
    · rename_i a w' hw'
      exact (hw.keeps (takeSpare_keeps (M := 1024) rfl (Keeps.refl 1024 w) _ hw') rfl rfl rfl).join
    · exact hw

theorem CellsAside.retryList {i : Nat} {l : List QEnt} (h : CellsAside s t) : CellsAside2 s (retryList i l t) := by
  induction l generalizing t with
  | nil => exact h.mk2
  | cons e l ih =>
    unfold Machine.retryList
    split
    · rename_i u hu
      exact ih (CellsAside2.of_eq h.atHead hu)
    · rename_i u hu
      have hhead := CellsAside2.of_eq h.atHead hu
      split
      · exact hhead.mk2
      · rename_i v hv
        exact ih (hhead.guardParked hv).freeAddr
      · rename_i v hv
        exact .ite (hhead.guardParked hv).mk2 (ih (hhead.guardParked hv).unpark)

theorem CellsAside.parkRetry {i c : Nat} (h : CellsAside s t) : CellsAside s (parkRetry i c t) := by
  unfold Machine.parkRetry
  extract_lets k l aged tried u v rest aged' tried'
  have hpark : CellsAside s u := (CellsAside.retryList (CellsAside.ageList (t := setPark k [] t) h.updComb)).updComb
  exact (CellsAside.retryList (CellsAside.ageList (t := setVoqPark i rest u) hpark.updComb)).updComb

/-- Park lists tried again leave the tables alone (R130). -/
theorem retryAll_aside : CellsAside s (retryAll s) := CellsAside.refl.forAll fun _ _ h => h.parkRetry

end

end Sys2Proof.Machine
end

section
/-! The tables of the LD and the Forager (R127 to R141, R187, R208, R280): what an edit, a swap and a rebuild do to the four tables and to the
Forager's registers, and the commands that ask for them. -/

namespace Sys2Proof.Machine

section
variable {s : State}

/-! The four tables. -/

@[simp] theorem tbl_setTbl_same {t : Nat} {x : LdTable} : tbl (setTbl t x s) t = x := by
  rcases t with _ | _ | _ | t <;> rfl

theorem tbl_setTbl_other {r t : Nat} {x : LdTable} (hr : r ≤ 3) (ht : t ≤ 3) (h : r ≠ t) : tbl (setTbl t x s) r = tbl s r := by
  unfold tbl setTbl updTopo
  interval_cases r <;> interval_cases t <;> first | rfl | exact absurd rfl h

theorem tbl_congr {t : State} (h : t.topo = s.topo) (r : Nat) : tbl t r = tbl s r := by
  unfold tbl
  rw [h]

/-- What waits for its master is no table. -/
@[simp] theorem tbl_updRecompute {r : Nat} {l : Topo → List (Nat × Nat)} :
    tbl (updTopo (fun p => { p with recompute := l p }) s) r = tbl s r := by
  unfold tbl updTopo
  split <;> rfl

theorem entry_eq {t i : Nat} : entry s t i = Tab.get zeroN (tbl s t).active i := rfl

/-! The Forager's registers. -/

theorem shok_congr {t : State} (h : t.regs = s.regs) (r : Nat) : shok t r = shok s r := by
  unfold shok
  rw [rd_congr h]

theorem shok_wr_fgr {f : Fld} {x r : Nat} (hf : f.addr ≠ Reg.RTE.FGR2.SHOK.addr) : shok (wr f x s) r = shok s r := by
  unfold shok
  rw [rd_wr_other (.inl hf.symm)]

@[simp] theorem shok_setShok {t : Nat} {b : Bool} (ht : t ≤ 3) : shok (setShok t b s) t = b := by
  have hset : shok (wr Reg.RTE.FGR2.SHOK (setBit t b (rd Reg.RTE.FGR2.SHOK s)) s) t = b := by
    unfold shok
    rw [rd_wr_same (by decide)]
    exact (bit_mod_two_pow (w := 4) (by omega)).trans bit_setBit_same
  unfold setShok
  split
  · rw [shok_wr_fgr (by decide), hset]
  · exact hset

/-- The route table shows its SHOK in SHADOW_OK too (R138). -/
theorem shadowOk_setShok {b : Bool} : rd Reg.RTE.FGR.SHADOW_OK (setShok 0 b s) = ofBool b := by
  unfold setShok
  rw [if_pos rfl, rd_wr_same (by decide)]
  cases b <;> rfl

/-- SHOK lies in the top bits of its register, and SHADOW_OK beside it. -/
theorem rd_setShok_other {t : Nat} {b : Bool} {f : Fld} (hf : f.lo + f.w ≤ 28 ∨ f = Reg.RTE.FGR.AUTOSWAP) :
    rd f (setShok t b s) = rd f s := by
  have hshok : rd f (wr Reg.RTE.FGR2.SHOK (setBit t b (rd Reg.RTE.FGR2.SHOK s)) s) = rd f s := by
    rcases hf with hf | rfl
    · exact rd_wr_other (.inr ⟨by decide, .inr hf⟩)
    · exact rd_wr_other (.inl (by decide))
  unfold setShok
  split
  · refine Eq.trans (rd_wr_other ?_) hshok
    rcases hf with hf | rfl
    · exact .inr ⟨by decide, .inr (hf.trans (by decide))⟩
    · exact .inr ⟨by decide, .inr (by decide)⟩
  · exact hshok

theorem setShok_kept {t : Nat} {b : Bool} : Keeps 2 s (setShok t b s) := setShok_keeps rfl (Keeps.refl 2 s)

theorem genFld_low {t : Nat} : (genFld t).lo + (genFld t).w ≤ 28 := by
  unfold genFld
  split <;> decide

theorem genFld_forager {t : Nat} : (genFld t).addr ∈ foragerRegs := by
  unfold genFld
  split <;> decide

theorem rd_wr_genFld {t x : Nat} : rd (genFld t) (wr (genFld t) x s) = x % 256 := by
  have hw : (genFld t).w = 8 := by unfold genFld; split <;> rfl
  rw [rd_wr_same (genFld_low.trans (by decide)), hw]
  rfl

/-- A generation counts beside SHOK. -/
theorem shok_wr_genFld {t x r : Nat} : shok (wr (genFld t) x s) r = shok s r := by
  unfold shok
  rw [rd_wr_other (.inr ⟨genFld_low.trans (by decide), .inl genFld_low⟩)]

theorem updFgrBusy_kept : Keeps 2 s (updFgrBusy s) := updFgrBusy_keeps rfl (Keeps.refl 2 s)

/-- BUSY lies above the generations and AUTOSWAP, and beside SHADOW_OK. -/
theorem rd_updFgrBusy_other {f : Fld} (hf : f.lo + f.w ≤ 31 ∨ f.addr ≠ Reg.RTE.FGR.BUSY.addr) : rd f (updFgrBusy s) = rd f s := by
  unfold updFgrBusy
  rcases hf with hf | hf
  · exact rd_wr_other (.inr ⟨by decide, .inr hf⟩)
  · exact rd_wr_other (.inl hf)

theorem shok_updFgrBusy {r : Nat} : shok (updFgrBusy s) r = shok s r := by
  unfold shok
  rw [rd_updFgrBusy_other (.inr (by decide))]

/-- BUSY while a rebuild runs. -/
theorem busy_updFgrBusy {t : Nat} (h : (tbl s t).rebuilding = true) : rdB Reg.RTE.FGR.BUSY (updFgrBusy s) = true := by
  have hany : (s.topo.route.rebuilding || s.topo.term.rebuilding || s.topo.origin.rebuilding || s.topo.gmap.rebuilding) = true := by
    unfold tbl at h
    split at h <;> simp [h]
  unfold updFgrBusy rdB
  rw [rd_wr_same (by decide)]
  simp only [Bool.or_eq_true] at hany
  rcases hany with ((h | h) | h) | h <;> simp [h, ofBool, Reg.RTE.FGR.BUSY]

/-! An edit (R139). -/

/-- The table after an edit of entry `i`. -/
def editedTable (x : LdTable) (good : Bool) (i e : Nat) : LdTable :=
  { x with
    master := Tab.set zeroN i e x.master
    active := Tab.set zeroN i e x.active
    shadow := if good then Tab.set zeroN i e x.shadow else x.shadow }

theorem loadMappers_aside : CellsAside s (loadMappers s) :=
  CellsAside.refl.keeps (loadMappers_keeps rfl (Keeps.refl 4096 s)) rfl rfl rfl

/-- Before the parked cells are tried again, an edit has changed the entry's table and what waits for its master. -/
def edited (t i e : Nat) (s : State) : State :=
  updTopo (fun p => { p with recompute := p.recompute.filter (· != (t, i)) })
    (setTbl t (editedTable (tbl s t) (shok s t) i (storedEntry t e)) s)

theorem editEntry_aside {t i e : Nat} : CellsAside (edited t i e s) (editEntry t i e s) :=
  CellsAside.trans (.ite loadMappers_aside .refl) retryAll_aside

theorem tbl_edited {t i e r : Nat} :
    tbl (edited t i e s) r = tbl (setTbl t (editedTable (tbl s t) (shok s t) i (storedEntry t e)) s) r := tbl_updRecompute

theorem tbl_editEntry_same {t i e : Nat} :
    tbl (editEntry t i e s) t = editedTable (tbl s t) (shok s t) i (storedEntry t e) := by
  rw [editEntry_aside.tbl, tbl_edited, tbl_setTbl_same]

theorem tbl_editEntry_other {r t i e : Nat} (hr : r ≤ 3) (ht : t ≤ 3) (h : r ≠ t) : tbl (editEntry t i e s) r = tbl s r := by
  rw [editEntry_aside.tbl, tbl_edited, tbl_setTbl_other hr ht h]

theorem entry_editEntry_same {t i e : Nat} : entry (editEntry t i e s) t i = storedEntry t e := by
  rw [entry_eq, tbl_editEntry_same]
  exact Tab.get_set_same _ _ _ _

/-- No other entry of a table changes, in its active copy or its master. -/
theorem editEntry_other {r j t i e : Nat} (hr : r ≤ 3) (ht : t ≤ 3) (h : r ≠ t ∨ j ≠ i) :
    entry (editEntry t i e s) r j = entry s r j ∧
      Tab.get zeroN (tbl (editEntry t i e s) r).master j = Tab.get zeroN (tbl s r).master j := by
  by_cases hrt : r = t
  · subst hrt
    have hj : j ≠ i := h.resolve_left (not_not_intro rfl)
    rw [entry_eq, tbl_editEntry_same]
    exact ⟨Tab.get_set_other _ hj _ _, Tab.get_set_other _ hj _ _⟩
  · rw [entry_eq, tbl_editEntry_other hr ht hrt]
    exact ⟨rfl, rfl⟩

/-! A swap (R138). -/

/-- Before the parked cells are tried again, a swap has changed its table, SHOK and the generation. -/
def swapped (t : Nat) (s : State) : State :=
  wr (genFld t) ((rd (genFld t) s + 1) % 256) (setShok t false (updTopo (fun p => { p with recompute := p.recompute.filter fun r => r.1 != t })
    (setTbl t { tbl s t with active := (tbl s t).shadow } s)))

theorem swapTable_aside {t : Nat} : CellsAside (swapped t s) (swapTable t s) :=
  CellsAside.trans (.ite loadMappers_aside .refl) retryAll_aside

theorem tbl_swapped {t r : Nat} : tbl (swapped t s) r = tbl (setTbl t { tbl s t with active := (tbl s t).shadow } s) r := by
  unfold swapped
  rw [tbl_congr (wr_topo.trans (setShok_kept.topo rfl)), tbl_updRecompute]

theorem tbl_swapTable_same {t : Nat} : tbl (swapTable t s) t = { tbl s t with active := (tbl s t).shadow } := by
  rw [swapTable_aside.tbl, tbl_swapped, tbl_setTbl_same]

theorem tbl_swapTable_other {r t : Nat} (hr : r ≤ 3) (ht : t ≤ 3) (h : r ≠ t) : tbl (swapTable t s) r = tbl s r := by
  rw [swapTable_aside.tbl, tbl_swapped, tbl_setTbl_other hr ht h]

theorem shok_swapTable {t : Nat} (ht : t ≤ 3) : shok (swapTable t s) t = false := by
  unfold shok
  rw [swapTable_aside.rd (by decide)]
  exact shok_wr_genFld.trans (shok_setShok ht)

theorem gen_swapTable {t : Nat} : rd (genFld t) (swapTable t s) = (rd (genFld t) s + 1) % 256 := by
  rw [swapTable_aside.rd genFld_forager]
  exact rd_wr_genFld.trans (Nat.mod_mod _ _)

end

end Sys2Proof.Machine
end

section
/-! The table and tunnel commands (R280) and the Forager's events (R136 to R138). -/

namespace Sys2Proof.Machine

section
variable {s : State}

@[simp] theorem reply_topo {o : Origin} {st : Nat} {b : List Byte} : (reply o st b s).topo = s.topo := reply_kept.topo rfl

theorem entry_congr {t : State} (h : t.topo = s.topo) (r i : Nat) : entry t r i = entry s r i := by
  rw [entry_eq, entry_eq, tbl_congr h]

theorem shok_reply {o : Origin} {st r : Nat} {b : List Byte} : shok (reply o st b s) r = shok s r := shok_congr reply_regs r

/-! TBL_READ and TUN_GET. -/

theorem exec_tblRead {o : Origin} {body : List Byte} (hm : mayDispatch s o = true) (hl : body.length = 8) (ht : field body 0 1 ≤ 3)
    (hz : zeroAt body 1 1 = true) (hz' : zeroAt body 6 2 = true) (hn : 0 < field body 4 2) (hn' : field body 4 2 ≤ 512)
    (hi : field body 2 2 + field body 4 2 ≤ 16384) :
    exec (.tblRead o body) s = .next (reply o ST_OK (((List.range (field body 4 2)).map fun k =>
      beBytes (entrySize (field body 0 1)) (entry s (field body 0 1) (field body 2 2 + k))).flatten) (dispatch o s)) := by
  change execTblRead o body s = _
  unfold execTblRead
  rw [command_runs hm hl]
  refine congrArg Host.Outcome.next ((if_neg ?_).trans rfl)
  simp [hz, hz']
  omega

theorem exec_tunGet {o : Origin} {body : List Byte} (hm : mayDispatch s o = true) (hl : body.length = 4) (hi : field body 0 2 < 16384)
    (hz : zeroAt body 2 2 = true) :
    exec (.tunGet o body) s = .next (reply o ST_OK (beBytes 8 (entry s 2 (field body 0 2)) ++ beBytes 4 (entry s 1 (field body 0 2)) ++
      beBytes 4 (entry s 3 (field body 0 2))) (dispatch o s)) := by
  change execTunGet o body s = _
  unfold execTunGet
  rw [command_runs hm hl]
  refine congrArg Host.Outcome.next ((if_neg ?_).trans rfl)
  simp [hz, hi]

/-! TBL_WRITE of one entry. -/

theorem writeEntries_one {t i e : Nat} : writeEntries t i [e] 0 s =
    if editCheck s t i e = ST_OK then (ST_OK, 1, editEntry t i e s) else (editCheck s t i e, 0, s) := rfl

theorem exec_tblWrite_one {o : Origin} {body : List Byte} {t i : Nat} (hm : mayDispatch s o = true) (ht : field body 0 1 = t) (ht3 : t ≤ 3)
    (hz : zeroAt body 1 1 = true) (hl : body.length = 8 + entrySize t) (hi : field body 2 2 = i) (hi' : i < 16384)
    (hn : field body 4 2 = 1) (hz' : zeroAt body 6 2 = true) :
    exec (.tblWrite o body) s = .next
      (if editCheck s t i (field body 8 (entrySize t)) = ST_OK then
        reply o ST_OK [0, 1, 0, 0] (editEntry t i (field body 8 (entrySize t)) (dispatch o s))
       else reply o (editCheck s t i (field body 8 (entrySize t))) [0, 0, 0, 0] (dispatch o s)) := by
  have hbad : ¬ (3 < t || !zeroAt body 1 1 || !zeroAt body 6 2 || (1 : Nat) == 0 || 256 < 1 || 16384 < i + 1) = true := by
    simp [hz, hz']
    omega
  have hes : ((List.range 1).map fun k => field body (8 + k * entrySize t) (entrySize t)) = [field body 8 (entrySize t)] := by
    simp [List.range_succ]
  change execTblWrite o body s = _
  unfold execTblWrite
  rw [commandV_runs hm (by simp [ht, hn, hl])]
  refine congrArg Host.Outcome.next ?_
  dsimp only
  rw [ht, hi, hn, if_neg hbad, hes, writeEntries_one]
  have hcheck : editCheck (dispatch o s) t i (field body 8 (entrySize t)) = editCheck s t i (field body 8 (entrySize t)) := rfl
  have hnone : beBytes 2 0 ++ [0, 0] = [0, 0, 0, 0] := by decide
  have hone : beBytes 2 1 ++ [0, 0] = [0, 1, 0, 0] := by decide
  rw [hcheck]
  by_cases hc : editCheck s t i (field body 8 (entrySize t)) = ST_OK
  · simp only [if_pos hc, hone]
  · simp only [if_neg hc, hnone]

/-! TUN_SET. -/

/-- The entries that the field mask of a TUN_SET names, in the order they are written (R280). -/
def selected (body : List Byte) : List (Nat × Nat) :=
  (if bit 0 (field body 4 1) then [(1, field body 16 4)] else []) ++ (if bit 1 (field body 4 1) then [(3, field body 20 4)] else []) ++
    (if bit 2 (field body 4 1) then [(2, field body 8 8)] else [])

theorem exec_tunSet {o : Origin} {body : List Byte} (hm : mayDispatch s o = true) (hl : body.length = 24) (hi : field body 0 2 < 16384)
    (h0 : 0 < field body 0 2) (hz : zeroAt body 2 2 = true) (hz' : zeroAt body 5 3 = true) (hmask : field body 4 1 ≠ 0)
    (hmask' : field body 4 1 ≤ 7) :
    exec (.tunSet o body) s = .next
      (reply o (writeSelected (field body 0 2) (selected body) 0 (dispatch o s)).1
        (beBytes 1 (writeSelected (field body 0 2) (selected body) 0 (dispatch o s)).2.1 ++ [0, 0, 0])
        (writeSelected (field body 0 2) (selected body) 0 (dispatch o s)).2.2) := by
  change execTunSet o body s = _
  unfold execTunSet
  rw [command_runs hm hl]
  refine congrArg Host.Outcome.next ((if_neg ?_).trans rfl)
  simp [hz, hz', hmask]
  omega

theorem exec_tunSet_badMask {o : Origin} {body : List Byte} (hm : mayDispatch s o = true) (hl : body.length = 24)
    (h : field body 4 1 = 0 ∨ 7 < field body 4 1) :
    exec (.tunSet o body) s = .next (reply o ST_BAD_PARAM [0, 0, 0, 0] (dispatch o s)) := by
  change execTunSet o body s = _
  unfold execTunSet
  rw [command_runs hm hl]
  refine congrArg Host.Outcome.next (if_pos ?_)
  rcases h with h | h <;> simp [h]

theorem writeSelected_one {i t e : Nat} (h : editCheck s t i e = ST_OK) :
    writeSelected i [(t, e)] 0 s = (ST_OK, 1, editEntry t i e s) := by
  unfold writeSelected
  dsimp only
  rw [if_pos h]
  rfl

/-- The first entry that fails its check ends the command. -/
theorem writeSelected_refused {i t e : Nat} {l : List (Nat × Nat)} (h : editCheck s t i e ≠ ST_OK) :
    writeSelected i ((t, e) :: l) 0 s = (editCheck s t i e, 0, s) := by
  unfold writeSelected
  dsimp only
  rw [if_neg h]

/-- TUN_SET of one entry: it changes, and no other. -/
theorem exec_tunSet_one {o : Origin} {body : List Byte} {t e : Nat} (hm : mayDispatch s o = true) (hl : body.length = 24)
    (hi : field body 0 2 < 16384) (h0 : 0 < field body 0 2) (hz : zeroAt body 2 2 = true) (hz' : zeroAt body 5 3 = true)
    (hmask : field body 4 1 ≠ 0) (hmask' : field body 4 1 ≤ 7) (hsel : selected body = [(t, e)]) (ht : t ≤ 3)
    (hc : editCheck s t (field body 0 2) e = ST_OK) :
    ∃ u, exec (.tunSet o body) s = .next u ∧ entry u t (field body 0 2) = storedEntry t e ∧
      ∀ r j, r ≤ 3 → (r ≠ t ∨ j ≠ field body 0 2) → entry u r j = entry s r j := by
  have hcheck : editCheck (dispatch o s) t (field body 0 2) e = ST_OK := hc
  refine ⟨_, exec_tunSet hm hl hi h0 hz hz' hmask hmask', ?_, fun r j hr h => ?_⟩ <;>
    rw [entry_congr reply_topo, hsel, writeSelected_one hcheck] <;>
    dsimp only
  · exact entry_editEntry_same
  · exact (editEntry_other (s := dispatch o s) hr ht h).1

/-! TBL_REBUILD and TBL_SWAP (R138). -/

theorem cmpAbort_kept {t : Nat} : Keeps 68719476753 s (cmpAbort t s) := cmpAbort_keeps rfl (Keeps.refl _ s)

/-- The rebuild of table `t` has started, before the reply. -/
def rebuildStarted (t : Nat) (s : State) : State :=
  updFgrBusy (setShok t false (setTbl t { tbl s t with rebuilding := true } (cmpAbort t s)))

theorem tbl_rebuildStarted {t r : Nat} :
    tbl (rebuildStarted t s) r = tbl (setTbl t { tbl s t with rebuilding := true } (cmpAbort t s)) r :=
  tbl_congr ((updFgrBusy_kept.topo rfl).trans (setShok_kept.topo rfl)) r

theorem exec_tblRebuild {o : Origin} {body : List Byte} (hm : mayDispatch s o = true) (hl : body.length = 4) (ht : field body 0 1 ≤ 3)
    (hz : zeroAt body 1 3 = true) :
    exec (.tblRebuild o body) s = .next
      (if (rdB Reg.RTE.FGR.BUSY s || !s1Up s) = true then reply o ST_BUSY [] (dispatch o s)
       else reply o ST_OK [] (rebuildStarted (field body 0 1) (dispatch o s))) := by
  change execTblRebuild o body s = _
  unfold execTblRebuild
  rw [command_runs hm hl]
  refine congrArg Host.Outcome.next ((if_neg ?_).trans rfl)
  simp [hz, ht]

theorem exec_tblSwap {o : Origin} {body : List Byte} (hm : mayDispatch s o = true) (hl : body.length = 4) (ht : field body 0 1 ≤ 3)
    (hz : zeroAt body 1 3 = true) :
    exec (.tblSwap o body) s = .next
      (if (!shok s (field body 0 1)) = true then reply o ST_BUSY [] (dispatch o s)
       else reply o ST_OK (beBytes 1 (rd (genFld (field body 0 1)) (swapTable (field body 0 1) (dispatch o s))) ++ [0, 0, 0])
        (swapTable (field body 0 1) (dispatch o s))) := by
  change execTblSwap o body s = _
  unfold execTblSwap
  rw [command_runs hm hl]
  refine congrArg Host.Outcome.next ((if_neg ?_).trans rfl)
  simp [hz, ht]

/-! ENTRY_RECOMPUTED (R137). -/

/-- Whether a source may fire depends on the switch domain, the dies and the domains. -/
theorem srcAlive_of_swoff {t : State} (hr : rd Reg.NRS.PSTATE.SWOFF t = rd Reg.NRS.PSTATE.SWOFF s) (hv : t.variant = s.variant)
    (hd : t.domains = s.domains) (n : Nat) : srcAlive t n = srcAlive s n := by
  unfold srcAlive rdB present domSt dom
  simp only [hr, hv, hd]

theorem srcAlive_congr {t : State} (hr : t.regs = s.regs) (hv : t.variant = s.variant) (hd : t.domains = s.domains) (n : Nat) :
    srcAlive t n = srcAlive s n := srcAlive_of_swoff (rd_congr hr _) hv hd n

/-- A source fires where nothing before it changed whether it may. -/
theorem raised_raise {t : State} {n : Nat} (ha : srcAlive t n = srcAlive s n) (hs : srcSt t n = srcSt s n) : Raised n s (raise n t) :=
  fun h hi => srcSt_raise_idle (ha.trans h) (hs.trans hi)

theorem Raised.congr {t u : State} {n : Nat} (h : Raised n s t) (hs : u.srcs = t.srcs) : Raised n s u :=
  fun ha hi => (srcSt_congr hs n).trans (h ha hi)

/-- The entry is back, and does not wait any more. -/
def recomputed (t i e : Nat) (s : State) : State :=
  updTopo (fun p => { p with recompute := p.recompute.filter (· != (t, i)) })
    (setTbl t { tbl s t with active := Tab.set zeroN i e (tbl s t).active } s)

theorem tbl_recomputed {t i e r : Nat} :
    tbl (recomputed t i e s) r = tbl (setTbl t { tbl s t with active := Tab.set zeroN i e (tbl s t).active } s) r := tbl_updRecompute

theorem masterError_aside {t i : Nat} : CellsAside s (masterError t i s) := CellsAside.refl.raise.logErr

/-- An unreadable master fires TBL_MASTER_ERR, and what follows loses no pending event. -/
theorem raised_masterError {t i : Nat} {u : State} (h : CellsAside (masterError t i s) u) : Raised srcTBL_MASTER_ERR s u :=
  fun ha hi => h.pending _ ((CellsAside.logErr (s := raise srcTBL_MASTER_ERR s) .refl).pending _ (srcSt_raise_idle ha hi))

theorem exec_entryRecomputed {t : Fin 4} {i : Nat} {b : Bool} (hs : dcmServes s 2 = true) (hr : s.topo.recompute.contains (t.val, i) = true) :
    ∃ u, exec (.entryRecomputed t i b) s = .next u ∧
      CellsAside (recomputed t i (if b then Tab.get zeroN (tbl s t).master i else unreadableEntry t) s) u ∧
      (b = false → Raised srcTBL_MASTER_ERR s u) := by
  have hexec : exec (.entryRecomputed t i b) s = .next (retryAll
      (if b then logErr 0x0201 0 (entryDetail t i) (recomputed t i (if b then Tab.get zeroN (tbl s t).master i else unreadableEntry t) s)
       else masterError t i (recomputed t i (if b then Tab.get zeroN (tbl s t).master i else unreadableEntry t) s))) :=
    if_pos (by rw [hr, hs]; rfl)
  refine ⟨_, hexec, (CellsAside.ite CellsAside.refl.logErr masterError_aside).trans retryAll_aside, ?_⟩
  rintro rfl
  exact raised_masterError (s := recomputed t i _ s) retryAll_aside

/-! REBUILD_DONE and SEED_EXPANSION_DONE (R136, R138). -/

/-- Writes at the keys of a list, read back. -/
theorem get_foldl_set {l : List Nat} {v i : Nat} {m : Tab Nat} :
    Tab.get zeroN (l.foldl (fun m j => Tab.set zeroN j v m) m) i = if i ∈ l then v else Tab.get zeroN m i := by
  induction l generalizing m with
  | nil => rfl
  | cons j l ih =>
    rw [List.foldl_cons, ih, Tab.get_set]
    by_cases hl : i ∈ l <;> by_cases hj : i = j <;> simp [hl, hj]

/-- The masters of a list cannot be read: TBL_MASTER_ERR and the error log. -/
theorem masterErrors_kept {t : Nat} {l : List Nat} : Keeps 131088 s (forAll l (masterError t) s) :=
  forAll_keeps rfl (fun _ _ h => masterError_keeps rfl h) (Keeps.refl _ s)

theorem srcSt_logErr_other {m c l d : Nat} (h : m ≠ srcELOG) : srcSt (logErr c l d s) m = srcSt s m := by
  unfold logErr
  exact srcSt_raise_other h

theorem srcSt_masterErrors {t n : Nat} {l : List Nat} (h : n ≠ srcELOG) (h' : n ≠ srcTBL_MASTER_ERR) :
    srcSt (forAll l (masterError t) s) n = srcSt s n := by
  unfold forAll
  induction l generalizing s with
  | nil => rfl
  | cons i l ih =>
    rw [List.foldl_cons, ih]
    exact (srcSt_logErr_other h).trans (srcSt_raise_other h')

/-- The shadow copy holds its master and is good, before FGR_DONE. -/
def comparedGood (t : Nat) (s : State) : State := updFgrBusy (setShok t true s)

theorem comparedGood_kept {t : Nat} : Keeps 2 s (comparedGood t s) := updFgrBusy_keeps rfl setShok_kept

theorem autoswap_comparedGood {t : Nat} : rdB Reg.RTE.FGR.AUTOSWAP (raise srcFGR_DONE (comparedGood t s)) = rdB Reg.RTE.FGR.AUTOSWAP s := by
  unfold rdB
  rw [rd_congr raise_regs]
  unfold comparedGood
  rw [rd_updFgrBusy_other (.inl (by decide)), rd_setShok_other (.inr rfl)]

theorem compared_waits {t : Nat} (h : rdB Reg.RTE.FGR.AUTOSWAP s = false) : compared t s = raise srcFGR_DONE (comparedGood t s) :=
  if_neg (ne_true_of_eq_false (autoswap_comparedGood.trans h))

theorem compared_swaps {t : Nat} (h : rdB Reg.RTE.FGR.AUTOSWAP s = true) :
    compared t s = swapTable t (raise srcFGR_DONE (comparedGood t s)) :=
  if_pos (autoswap_comparedGood.trans h)

theorem tbl_comparedGood {t r : Nat} : tbl (raise srcFGR_DONE (comparedGood t s)) r = tbl s r :=
  tbl_congr (raise_topo.trans (comparedGood_kept.topo rfl)) r

theorem shok_comparedGood {t : Nat} (ht : t ≤ 3) : shok (raise srcFGR_DONE (comparedGood t s)) t = true := by
  rw [shok_congr raise_regs]
  unfold comparedGood
  rw [shok_updFgrBusy, shok_setShok ht]

theorem gen_comparedGood {t : Nat} : rd (genFld t) (raise srcFGR_DONE (comparedGood t s)) = rd (genFld t) s := by
  rw [rd_congr raise_regs]
  unfold comparedGood
  rw [rd_updFgrBusy_other (.inl (genFld_low.trans (by decide))), rd_setShok_other (.inl genFld_low)]

theorem shadowOk_comparedGood : rd Reg.RTE.FGR.SHADOW_OK (raise srcFGR_DONE (comparedGood 0 s)) = 1 := by
  rw [rd_congr raise_regs]
  unfold comparedGood
  rw [rd_updFgrBusy_other (.inl (by decide)), shadowOk_setShok]
  rfl

/-- SHOK and BUSY do not decide whether a source may fire. -/
theorem srcAlive_comparedGood {t n : Nat} : srcAlive (comparedGood t s) n = srcAlive s n := by
  refine srcAlive_of_swoff ?_ comparedGood_kept.variant (comparedGood_kept.domains rfl) n
  unfold comparedGood setShok
  rw [rd_updFgrBusy_other (.inr (by decide))]
  split
  · rw [rd_wr_other (.inl (by decide)), rd_wr_other (.inl (by decide))]
  · rw [rd_wr_other (.inl (by decide))]

/-- The shadow copy of table `t` from its master, with the entries of `bad` marked (R137). -/
def rebuiltTable (t : Nat) (bad : List Nat) (x : LdTable) : LdTable :=
  { x with shadow := bad.foldl (fun m i => Tab.set zeroN i (unreadableEntry t) m) x.master, rebuilding := false }

/-- The rebuild has run, before the compare. -/
def rebuilt (t : Nat) (bad : List Nat) (s : State) : State := forAll bad (masterError t) (setTbl t (rebuiltTable t bad (tbl s t)) s)

theorem exec_rebuildDone {t : Fin 4} {bad : List Nat} (hs : dcmServes s 6 = true) (hr : (tbl s t).rebuilding = true) :
    exec (.rebuildDone t bad) s = .next (compared t (rebuilt t (bad.filter (· < 16384)) s)) :=
  if_pos (by rw [hr, hs]; rfl)

theorem tbl_rebuilt {t : Nat} {bad : List Nat} : tbl (rebuilt t bad s) t = rebuiltTable t bad (tbl s t) :=
  (tbl_congr (masterErrors_kept.topo rfl) t).trans tbl_setTbl_same

theorem rebuilt_regs {t : Nat} {bad : List Nat} : (rebuilt t bad s).regs = s.regs := masterErrors_kept.regs rfl

theorem shadow_rebuiltTable {t i : Nat} {bad : List Nat} {x : LdTable} (hi : i < 16384) :
    Tab.get zeroN (rebuiltTable t (bad.filter (· < 16384)) x).shadow i = if i ∈ bad then unreadableEntry t else Tab.get zeroN x.master i := by
  refine get_foldl_set.trans ?_
  simp [List.mem_filter, hi]

theorem raised_rebuilt {t : Nat} {bad : List Nat} : Raised srcFGR_DONE s (raise srcFGR_DONE (comparedGood t (rebuilt t bad s))) := by
  refine raised_raise ?_ ?_
  · rw [srcAlive_comparedGood, srcAlive_congr rebuilt_regs masterErrors_kept.variant (masterErrors_kept.domains rfl)]
  · rw [srcSt_congr (comparedGood_kept.srcs rfl)]
    exact (srcSt_masterErrors (by decide) (by decide)).trans rfl

/-- The expansion is loaded into master and shadow copy, before the compare. -/
def expanded (a : Nat) (s : State) : State :=
  updTopo (fun p => { p with expanding := none })
    (setTbl 0 { tbl s 0 with master := Machine.expand a s.topo.seeds, shadow := Machine.expand a s.topo.seeds } s)

theorem exec_seedExpansionDone {a : Nat} (hs : dcmServes s 6 = true) (he : s.topo.expanding = some a) :
    exec .seedExpansionDone s = .next (compared 0 (expanded a s)) := by
  change execSeedExpansionDone s = _
  unfold execSeedExpansionDone
  rw [he]
  exact if_pos hs

end

end Sys2Proof.Machine
end

section
/-! The tables of the LD hold what their commands and the Forager put there (O23). -/

namespace Sys2Proof.Machine

section
variable {s : State}

/-- TBL_WRITE of one checked entry changes that entry in the active copy, the master and a good shadow copy, and no other. -/
theorem editEntry_changes_one {o : Origin} {st t i e : Nat} {b : List Byte} (ht : t ≤ 3) :
    entry (reply o st b (editEntry t i e s)) t i = storedEntry t e ∧
      Tab.get zeroN (tbl (reply o st b (editEntry t i e s)) t).master i = storedEntry t e ∧
      (shok s t = true → Tab.get zeroN (tbl (reply o st b (editEntry t i e s)) t).shadow i = storedEntry t e) ∧
      (shok s t = false → (tbl (reply o st b (editEntry t i e s)) t).shadow = (tbl s t).shadow) ∧
      (∀ r j, r ≤ 3 → (r ≠ t ∨ j ≠ i) → entry (reply o st b (editEntry t i e s)) r j = entry s r j ∧
        Tab.get zeroN (tbl (reply o st b (editEntry t i e s)) r).master j = Tab.get zeroN (tbl s r).master j) := by
  simp only [entry_congr reply_topo, tbl_congr reply_topo]
  refine ⟨entry_editEntry_same, ?_, fun hg => ?_, fun hg => ?_, fun r j hr h => editEntry_other hr ht h⟩ <;>
    rw [tbl_editEntry_same]
  · exact Tab.get_set_same _ _ _ _
  · simp only [editedTable, hg, if_true]
    exact Tab.get_set_same _ _ _ _
  · simp only [editedTable, hg, Bool.false_eq_true, if_false]

/-- TBL_REBUILD starts the Forager on one table and leaves every active copy and master. -/
theorem rebuildStarted_changes {o : Origin} {t : Nat} (ht : t ≤ 3) :
    (tbl (reply o ST_OK [] (rebuildStarted t s)) t).rebuilding = true ∧ shok (reply o ST_OK [] (rebuildStarted t s)) t = false ∧
      rdB Reg.RTE.FGR.BUSY (reply o ST_OK [] (rebuildStarted t s)) = true ∧
      ∀ r, r ≤ 3 → (tbl (reply o ST_OK [] (rebuildStarted t s)) r).active = (tbl s r).active ∧
        (tbl (reply o ST_OK [] (rebuildStarted t s)) r).master = (tbl s r).master := by
  have hrun : (tbl (setShok t false (setTbl t { tbl s t with rebuilding := true } (cmpAbort t s))) t).rebuilding = true := by
    rw [tbl_congr (setShok_kept.topo rfl), tbl_setTbl_same]
  simp only [tbl_congr reply_topo, shok_reply, rdB, rd_congr reply_regs]
  refine ⟨by rw [tbl_rebuildStarted, tbl_setTbl_same], ?_, busy_updFgrBusy hrun, fun r hr => ?_⟩
  · unfold rebuildStarted
    rw [shok_updFgrBusy, shok_setShok ht]
  · rw [tbl_rebuildStarted]
    by_cases h : r = t
    · subst h
      rw [tbl_setTbl_same]
      exact ⟨rfl, rfl⟩
    · rw [tbl_setTbl_other hr ht h, tbl_congr (cmpAbort_kept.topo rfl)]
      exact ⟨rfl, rfl⟩

/-- TBL_SWAP makes the shadow copy of one table active and counts its generation. -/
theorem swapTable_changes {o : Origin} {t : Nat} {b : List Byte} (ht : t ≤ 3) :
    (tbl (reply o ST_OK b (swapTable t s)) t).active = (tbl s t).shadow ∧ shok (reply o ST_OK b (swapTable t s)) t = false ∧
      rd (genFld t) (reply o ST_OK b (swapTable t s)) = (rd (genFld t) s + 1) % 256 ∧
      (tbl (reply o ST_OK b (swapTable t s)) t).master = (tbl s t).master ∧
      ∀ r, r ≤ 3 → r ≠ t → tbl (reply o ST_OK b (swapTable t s)) r = tbl s r := by
  simp only [tbl_congr reply_topo, shok_reply, rd_congr reply_regs]
  refine ⟨by rw [tbl_swapTable_same], shok_swapTable ht, gen_swapTable, by rw [tbl_swapTable_same], fun r hr h => tbl_swapTable_other hr ht h⟩

/-- An entry recomputed changes the active copy of its table, at its index. -/
theorem recomputed_changes_one {t i e : Nat} {u : State} (ht : t ≤ 3) (h : CellsAside (recomputed t i e s) u) :
    entry u t i = e ∧ (tbl u t).master = (tbl s t).master ∧ (tbl u t).shadow = (tbl s t).shadow ∧
      ∀ r j, r ≤ 3 → (r ≠ t ∨ j ≠ i) → entry u r j = entry s r j := by
  have hsame : tbl u t = { tbl s t with active := Tab.set zeroN i e (tbl s t).active } := by
    rw [h.tbl, tbl_recomputed, tbl_setTbl_same]
  rw [entry_eq, hsame]
  refine ⟨Tab.get_set_same _ _ _ _, rfl, rfl, fun r j hr hrj => ?_⟩
  by_cases hrt : r = t
  · subst hrt
    rw [entry_eq, hsame]
    exact Tab.get_set_other _ (hrj.resolve_left (not_not_intro rfl)) _ _
  · rw [entry_eq, h.tbl, tbl_recomputed, tbl_setTbl_other hr ht hrt, entry_eq]

end

/-- Settles O23: each command by its equation, an edit by `editEntry`, a swap by `swapTable`, and a rebuild or expansion by what the compare
leaves of it. -/
theorem tablesAreReadEditedAndSwapped : Obligations.TablesAreReadEditedAndSwapped := by
  unfold Obligations.TablesAreReadEditedAndSwapped
  refine ⟨fun o body t i s hm ht ht3 hz => ⟨fun n hl hi hn hz' h0 h512 hlast => ?_, fun e hl hi hi' hn hz' he => ⟨fun hc => ?_, fun hc => ?_⟩,
      fun hl hz' hb hs1 => ?_, fun hl hz' hb => ?_, fun hl hz' hg => ?_, fun hl hz' hg => ?_⟩,
    fun o body i s hm hi hi' hz => ⟨fun hl => ?_, fun hl h0 hz' => ⟨fun hmask hc => ?_, fun hmask hc => ?_, fun hbit hmask hc => ?_,
      fun hmask => ?_⟩⟩,
    fun t s => ⟨fun i b hs hr => ?_, fun bad hs hr hauto => ?_, fun bad hs hr hauto => ?_, fun a hs he hauto => ?_⟩⟩
  case refine_1 =>
    subst ht hi hn
    exact exec_tblRead hm hl ht3 hz hz' h0 h512 hlast
  case refine_2 =>
    subst he
    exact ⟨_, (exec_tblWrite_one hm ht ht3 hz hl hi hi' hn hz').trans (congrArg Host.Outcome.next (if_pos hc)), editEntry_changes_one ht3⟩
  case refine_3 =>
    subst he
    exact (exec_tblWrite_one hm ht ht3 hz hl hi hi' hn hz').trans (congrArg Host.Outcome.next (if_neg hc))
  case refine_4 =>
    subst ht
    exact ⟨_, (exec_tblRebuild hm hl ht3 hz').trans (congrArg Host.Outcome.next (if_neg (by simp [hb, hs1]))), rebuildStarted_changes ht3⟩
  case refine_5 =>
    subst ht
    refine (exec_tblRebuild hm hl ht3 hz').trans (congrArg Host.Outcome.next (if_pos ?_))
    rcases hb with hb | hb <;> simp [hb]
  case refine_6 =>
    subst ht
    exact ⟨_, (exec_tblSwap hm hl ht3 hz').trans (congrArg Host.Outcome.next (if_neg (by simp [hg]))), swapTable_changes ht3⟩
  case refine_7 =>
    subst ht
    exact (exec_tblSwap hm hl ht3 hz').trans (congrArg Host.Outcome.next (if_pos (by simp [hg])))
  case refine_8 =>
    subst hi
    exact exec_tunGet hm hl hi' hz
  case refine_9 =>
    subst hi
    have hsel : selected body = [(1, field body 16 4)] := by simp [selected, hmask, bit]
    obtain ⟨u, hu, he, hother⟩ := exec_tunSet_one hm hl hi' h0 hz hz' (by omega) (by omega) hsel (by decide) hc
    exact ⟨u, hu, he, hother 2 _ (by decide) (.inl (by decide)), hother 3 _ (by decide) (.inl (by decide)), fun r j hr hj => hother r j hr (.inr hj)⟩
  case refine_10 =>
    subst hi
    have hsel : selected body = [(2, field body 8 8)] := by simp [selected, hmask, bit]
    obtain ⟨u, hu, he, hother⟩ := exec_tunSet_one hm hl hi' h0 hz hz' (by omega) (by omega) hsel (by decide) hc
    exact ⟨u, hu, he, hother 1 _ (by decide) (.inl (by decide)), hother 3 _ (by decide) (.inl (by decide)), fun r j hr hj => hother r j hr (.inr hj)⟩
  case refine_11 =>
    subst hi
    have hsel : ∃ l, selected body = (1, field body 16 4) :: l := ⟨_, by rw [selected, if_pos hbit]; rfl⟩
    obtain ⟨l, hl1⟩ := hsel
    have h1 : field body 4 1 ≠ 0 := by
      intro h
      simp [h, bit] at hbit
    have hcheck : editCheck (dispatch o s) 1 (field body 0 2) (field body 16 4) ≠ ST_OK := hc
    rw [exec_tunSet hm hl hi' h0 hz hz' h1 hmask, hl1, writeSelected_refused hcheck]
    rfl
  case refine_12 => exact exec_tunSet_badMask hm hl hmask
  case refine_13 =>
    obtain ⟨u, hu, haside, hraised⟩ := exec_entryRecomputed (t := t) (i := i) (b := b) hs hr
    obtain ⟨he, hmaster, hshadow, hother⟩ := recomputed_changes_one (Nat.le_of_lt_succ t.isLt) haside
    exact ⟨u, hu, he, hmaster, hshadow, hother, hraised⟩
  case refine_14 =>
    have ht : t.val ≤ 3 := Nat.le_of_lt_succ t.isLt
    refine ⟨_, (exec_rebuildDone hs hr).trans (congrArg Host.Outcome.next (compared_waits ?_)), ?_⟩
    · exact (congrArg (· == 1) (rd_congr rebuilt_regs _)).trans hauto
    · rw [tbl_comparedGood, tbl_rebuilt]
      exact ⟨rfl, shok_comparedGood ht, fun i hi => shadow_rebuiltTable hi, rfl, rfl, raised_rebuilt⟩
  case refine_15 =>
    have ht : t.val ≤ 3 := Nat.le_of_lt_succ t.isLt
    refine ⟨_, (exec_rebuildDone hs hr).trans (congrArg Host.Outcome.next (compared_swaps ?_)), ?_⟩
    · exact (congrArg (· == 1) (rd_congr rebuilt_regs _)).trans hauto
    · rw [tbl_swapTable_same, tbl_comparedGood, tbl_rebuilt, gen_swapTable, gen_comparedGood, rd_congr rebuilt_regs]
      refine ⟨rfl, shok_swapTable ht, fun i hi => ?_, rfl⟩
      rw [entry_eq, tbl_swapTable_same, tbl_comparedGood, tbl_rebuilt]
      exact shadow_rebuiltTable hi
  case refine_16 =>
    have htbl : tbl (expanded a s) 0 = { tbl s 0 with master := Machine.expand a s.topo.seeds, shadow := Machine.expand a s.topo.seeds } := rfl
    have hregs : (expanded a s).regs = s.regs := by
      rw [expanded, updTopo_regs, setTbl, updTopo_regs]
    have hauto' : rdB Reg.RTE.FGR.AUTOSWAP (expanded a s) = false := (congrArg (· == 1) (rd_congr hregs _)).trans hauto
    refine ⟨_, (exec_seedExpansionDone hs he).trans (congrArg Host.Outcome.next (compared_waits hauto')), ?_⟩
    rw [tbl_comparedGood, htbl]
    generalize Machine.expand a s.topo.seeds = m
    refine ⟨?_, rfl, rfl, rfl, shok_comparedGood (by decide), shadowOk_comparedGood⟩
    have hnone : (expanded a s).topo.expanding = none := by rw [expanded, updTopo]
    rw [raise_topo, (comparedGood_kept (s := expanded a s)).topo rfl, hnone]

end Sys2Proof.Machine
end

section
/-! Originated frames (R98, R186, R210, R212): the cells a frame is cut into, and what a unit that originates does with them. -/

namespace Sys2Proof.Machine

section
variable {s : State}

/-! The cells of a frame (R98). -/

section
variable {dst src tun tc typ : Nat} {xpr : Bool}

theorem take_padTo {l : List Byte} {n k : Nat} (hk : k ≤ n) (hl : k ≤ l.length) : (padTo n l).take k = l.take k := by
  rw [padTo, List.take_take, Nat.min_eq_left hk, List.take_append_of_le_length hl]

theorem cutCells_last {k : Nat} {first : Bool} {l : List Byte} (h : l.length ≤ 116) :
    cutCells dst src tun tc typ xpr (k + 1) first l =
      [{ dst := dst, src := src, tun := tun, tc := tc, typ := typ, f := first, l := true, vlen := l.length, xpr := xpr, ver := 2,
         payload := padTo 116 l }] := by
  simp [cutCells, h]

theorem cutCells_more {k : Nat} {first : Bool} {l : List Byte} (h : 116 < l.length) :
    cutCells dst src tun tc typ xpr (k + 1) first l =
      { dst := dst, src := src, tun := tun, tc := tc, typ := typ, f := first, l := false, vlen := 116, xpr := xpr, ver := 2,
        payload := padTo 116 l } :: cutCells dst src tun tc typ xpr k false (l.drop 116) := by
  simp [cutCells, Nat.not_le.2 h]

theorem cutCells_length {k : Nat} {first : Bool} {l : List Byte} (h0 : 0 < l.length) (hk : l.length ≤ 116 * k) :
    (cutCells dst src tun tc typ xpr k first l).length = (l.length + 115) / 116 := by
  induction k generalizing first l with
  | zero => omega
  | succ k ih =>
    by_cases h : l.length ≤ 116
    · rw [cutCells_last h, List.length_singleton]
      omega
    · have hd : (l.drop 116).length = l.length - 116 := List.length_drop
      rw [cutCells_more (Nat.not_le.1 h), List.length_cons, ih (by omega) (by omega)]
      omega

/-- The payloads put together are the frame again. -/
theorem cutCells_payload {k : Nat} {first : Bool} {l : List Byte} (hk : l.length ≤ 116 * k) :
    ((cutCells dst src tun tc typ xpr k first l).map fun c => c.payload.take c.vlen).flatten = l := by
  induction k generalizing first l with
  | zero => exact (List.length_eq_zero_iff.mp (by omega)).symm
  | succ k ih =>
    by_cases h : l.length ≤ 116
    · rw [cutCells_last h]
      simp [take_padTo h]
    · have hd : (l.drop 116).length = l.length - 116 := List.length_drop
      rw [cutCells_more (Nat.not_le.1 h), List.map_cons, List.flatten_cons, ih (by omega),
        take_padTo (n := 116) (k := 116) (Nat.le_refl _) (by omega),
        List.take_append_drop]

/-- What the header of the `i`-th cell of a frame says (Table 3.1). -/
theorem cutCells_header {k i : Nat} {first : Bool} {l : List Byte} {c : Cell} (h0 : 0 < l.length) (hk : l.length ≤ 116 * k)
    (hc : (cutCells dst src tun tc typ xpr k first l)[i]? = some c) :
    c.dst = dst ∧ c.src = src ∧ c.tun = tun ∧ c.tc = tc ∧ c.typ = typ ∧ c.xpr = xpr ∧ c.f = (first && i == 0) ∧
      c.l = (i + 1 == (l.length + 115) / 116) ∧ (i + 1 < (l.length + 115) / 116 → c.vlen = 116) := by
  induction k generalizing first l i with
  | zero => omega
  | succ k ih =>
    by_cases h : l.length ≤ 116
    · have hone : (l.length + 115) / 116 = 1 := by omega
      rw [cutCells_last h] at hc
      cases i with
      | zero =>
        obtain rfl := Option.some.inj hc
        simp [hone]
      | succ i => cases hc
    · have hd : (l.drop 116).length = l.length - 116 := List.length_drop
      have hmore : (l.length + 115) / 116 = (l.length - 116 + 115) / 116 + 1 := by omega
      rw [cutCells_more (Nat.not_le.1 h)] at hc
      cases i with
      | zero =>
        obtain rfl := Option.some.inj hc
        have hpos : 0 < (l.length - 116 + 115) / 116 := by omega
        simp only [hmore, beq_self_eq_true, Bool.and_true, implies_true, and_true, true_and]
        exact (beq_eq_false_iff_ne.2 (by omega)).symm
      | succ i =>
        obtain ⟨h1, h2, h3, h4, h5, h6, h7, h8, h9⟩ := ih (by omega) (by omega) hc
        rw [hd] at h8 h9
        refine ⟨h1, h2, h3, h4, h5, h6, ?_, ?_, ?_⟩
        · rw [h7]
          simp
        · rw [h8, hmore]
          exact decide_eq_decide.2 (by omega)
        · rw [hmore]
          exact fun hi => h9 (by omega)

theorem cutCells_ne_nil {k : Nat} {first : Bool} {l : List Byte} : cutCells dst src tun tc typ xpr (k + 1) first l ≠ [] := by
  simp [cutCells]

end

/-! What originates. -/

theorem exec_tunnelFrameOriginate {slot : Slot} {tun : BitVec 14} {frame : List Byte} (hw : slotWorks s slot = true)
    (hh : slot.val = 0 ∨ originHeld s slot = false) :
    exec (.tunnelFrameOriginate slot tun frame) s = .next (originate slot tun.toNat frame s) := by
  refine if_pos ?_
  rw [hw]
  rcases hh with hh | hh <;> simp [hh]

/-- Without a valid entry of this slot the tunnel has no origin. -/
theorem originEntry_none {slot tun e : Nat} (he : (if slot = 0 then entry s 2 tun else Tab.get zeroN (mapperOf s slot) tun) = e)
    (h : tun = 0 ∨ orgV e = false ∨ orgOSLOT e ≠ slot) : originEntry s slot tun = none := by
  subst he
  refine if_neg fun ⟨ht, _, hv, hs, _⟩ => ?_
  rcases h with h | h | h
  · exact ht h
  · rw [h] at hv
    cases hv
  · exact h hs

theorem originate_unmapped {slot tun : Nat} {l : List Byte} (h : originEntry s slot tun = none) :
    originate slot tun l s = count (cTUN 1) s := by
  rw [originate, h]

theorem originate_long {slot tun e : Nat} {l : List Byte} (h : originEntry s slot tun = some e) (hl : orgMAXLEN e < l.length ∨ 14848 < l.length) :
    originate slot tun l s = count (cTUN 0) s := by
  rw [originate, h]
  exact if_pos hl

/-- The frame as its tunnel carries it: with FN at TIME and TRIG (R211, R212). -/
def stamped (s : State) (tun e : Nat) (l : List Byte) : List Byte := (stampFn tun (orgTYP e) l s).1

/-- The state with the frame number counted. -/
def numbered (tun e : Nat) (l : List Byte) (s : State) : State := (stampFn tun (orgTYP e) l s).2

/-- The cells of a frame under its origin entry. -/
def originCells (s : State) (tun e : Nat) (l : List Byte) : List Cell :=
  frameCells (orgDST e) (ownAddr s) tun (orgTC e) (orgTYP e) (orgXPR e) (stamped s tun e l)

/-- Frame numbers are all that stamping changes. -/
theorem numbered_kept {tun e : Nat} {l : List Byte} : Keeps 4096 s (numbered tun e l s) := stampFn_keeps rfl (Keeps.refl 4096 s)

theorem stamped_plain {tun e : Nat} {l : List Byte} (h7 : orgTYP e ≠ 7) (h8 : orgTYP e ≠ 8) :
    stamped s tun e l = l ∧ numbered tun e l s = s := by
  have hstamp : stampFn tun (orgTYP e) l s = (l, s) := if_neg (not_or.2 ⟨h7, h8⟩)
  rw [stamped, numbered, hstamp]
  exact ⟨rfl, rfl⟩

theorem stamped_numbered {tun e : Nat} {l : List Byte} (h : orgTYP e = 7 ∨ orgTYP e = 8) :
    stamped s tun e l = beBytes 2 (Tab.get zeroN s.tuns.fn tun) ++ l.drop 2 ∧
      Tab.get zeroN (numbered tun e l s).tuns.fn tun = (Tab.get zeroN s.tuns.fn tun + 1) % 65536 := by
  have hstamp : stampFn tun (orgTYP e) l s = (beBytes 2 (Tab.get zeroN s.tuns.fn tun) ++ l.drop 2,
      updTuns (fun t => { t with fn := Tab.set zeroN tun ((Tab.get zeroN s.tuns.fn tun + 1) % 65536) t.fn }) s) := if_pos h
  rw [stamped, numbered, hstamp]
  exact ⟨rfl, Tab.get_set_same _ _ _ _⟩

/-- Stamping keeps the length of a frame of two bytes or more. -/
theorem stamped_length {tun e : Nat} {l : List Byte} (h : orgTYP e = 7 ∨ orgTYP e = 8 → 2 ≤ l.length) :
    (stamped s tun e l).length = l.length := by
  by_cases ht : orgTYP e = 7 ∨ orgTYP e = 8
  · rw [(stamped_numbered ht).1, List.length_append, beBytes_length, List.length_drop]
    have := h ht
    omega
  · rw [(stamped_plain (not_or.1 ht).1 (not_or.1 ht).2).1]

/-- The order of `originate` for a frame of the LD that has an entry and keeps its limits. -/
theorem originate_eq {tun e : Nat} {l : List Byte} (h : originEntry s 0 tun = some e) (hm : l.length ≤ orgMAXLEN e)
    (hx : l.length ≤ 14848) (h0 : l ≠ []) :
    originate 0 tun l s =
      if orgOSHP e = 0 then holdCells 16 false (originCells s tun e l) (numbered tun e l s)
      else if (permits s (shaper s (orgOSHP e)) && !(s.sched.held.any fun f => f.shp == orgOSHP e)) = true then
        holdCells 16 false (originCells s tun e l)
          (setShaper (orgOSHP e) (charge s (shaper s (orgOSHP e)) (frameCharge (shaper s (orgOSHP e)) (originCells s tun e l))) (numbered tun e l s))
      else updSched (fun c => { c with held := c.held ++ [{
          shp := orgOSHP e, slot := 0, cells := originCells s tun e l
          charge := frameCharge (shaper s (orgOSHP e)) (originCells s tun e l) }] }) (numbered tun e l s) := by
  rw [originate, h]
  refine (if_neg (not_or.2 ⟨Nat.not_lt.2 hm, Nat.not_lt.2 hx⟩)).trans ((if_neg h0).trans ?_)
  unfold originCells stamped numbered stampFn
  by_cases ht : orgTYP e = 7 ∨ orgTYP e = 8
  · simp only [if_pos ht]
    rfl
  · simp only [if_neg ht]
    rfl

/-- What P16's ingress holds with the cells of a frame behind it. -/
def heldCells (cs : List Cell) : List Held :=
  cs.map fun c => { cell := c, xseq := none, charged := false, policed := false, forced := none }

theorem holdOf_holdCells {cs : List Cell} : holdOf (holdCells 16 false cs s) 16 = holdOf s 16 ++ heldCells cs := holdOf_setHold_same

theorem heldCells_cells {α : Type} {f : Cell → α} {cs : List Cell} : (heldCells cs).map (fun h => f h.cell) = cs.map f := by
  rw [heldCells, List.map_map]
  rfl

theorem originCells_ne_nil {tun e : Nat} {l : List Byte} : originCells s tun e l ≠ [] := cutCells_ne_nil

theorem shaper_setShaper_same {i : Nat} {x : Shaper} : shaper (setShaper i x s) i = x := Tab.get_set_same _ _ _ _

theorem shaper_setShaper_other {i j : Nat} {x : Shaper} (h : j ≠ i) : shaper (setShaper i x s) j = shaper s j := Tab.get_set_other _ h _ _

theorem shaper_congr {t : State} (h : t.sched = s.sched) (i : Nat) : shaper t i = shaper s i := by
  unfold shaper
  rw [h]

/-- A frame that waits for a shaper is the last of those held. -/
theorem originate_holds {tun e : Nat} {l : List Byte} (h : originEntry s 0 tun = some e) (hm : l.length ≤ orgMAXLEN e)
    (hx : l.length ≤ 14848) (h0 : l ≠ []) (hs : orgOSHP e ≠ 0)
    (hw : permits s (shaper s (orgOSHP e)) = false ∨ (s.sched.held.any fun f => f.shp == orgOSHP e) = true) :
    ∃ f, (originate 0 tun l s).sched.held = s.sched.held ++ [f] ∧ f.shp = orgOSHP e ∧ f.slot = 0 ∧
      (originate 0 tun l s).comb = s.comb ∧ (originate 0 tun l s).sched.shapers = s.sched.shapers := by
  have hno : ¬ (permits s (shaper s (orgOSHP e)) && !(s.sched.held.any fun f => f.shp == orgOSHP e)) = true := by
    rcases hw with hw | hw <;> simp [hw]
  rw [originate_eq h hm hx h0, if_neg hs, if_neg hno]
  have hsched : (numbered tun e l s).sched = s.sched := numbered_kept.sched rfl
  refine ⟨_, congrArg (· ++ _) (congrArg Sched.held hsched), rfl, rfl, numbered_kept.comb rfl, ?_⟩
  show (numbered tun e l s).sched.shapers = _
  rw [hsched]

/-- A frame that its shaper permits is charged and leaves. -/
theorem originate_shaped {tun e : Nat} {l : List Byte} (h : originEntry s 0 tun = some e) (hm : l.length ≤ orgMAXLEN e)
    (hx : l.length ≤ 14848) (h0 : l ≠ []) (hs : orgOSHP e ≠ 0) (hp : permits s (shaper s (orgOSHP e)) = true)
    (hw : (s.sched.held.any fun f => f.shp == orgOSHP e) = false) :
    (originate 0 tun l s).sched.held = s.sched.held ∧ (holdOf s 16).length < (holdOf (originate 0 tun l s) 16).length ∧
      (shaper (originate 0 tun l s) (orgOSHP e)).last = s.now ∧
      ∀ i, i ≠ orgOSHP e → shaper (originate 0 tun l s) i = shaper s i := by
  have hsched : (numbered tun e l s).sched = s.sched := numbered_kept.sched rfl
  rw [originate_eq h hm hx h0, if_neg hs, if_pos (by simp [hp, hw])]
  refine ⟨?_, ?_, ?_, fun i hi => ?_⟩
  · show (numbered tun e l s).sched.held = _
    rw [hsched]
  · have hcells : 0 < (heldCells (originCells s tun e l)).length := by
      rw [heldCells, List.length_map]
      exact List.length_pos_iff.2 originCells_ne_nil
    have hold : holdOf (setShaper (orgOSHP e) (charge s (shaper s (orgOSHP e)) (frameCharge (shaper s (orgOSHP e)) (originCells s tun e l)))
        (numbered tun e l s)) 16 = holdOf s 16 := holdOf_congr (numbered_kept.comb rfl) 16
    rw [holdOf_holdCells, hold, List.length_append]
    omega
  · exact congrArg Shaper.last (shaper_setShaper_same (s := numbered tun e l s))
  · exact (shaper_setShaper_other hi).trans (shaper_congr hsched i)

end

/-- Settles O26: no entry and no room by `originate`'s order, and the cells of a frame by what `cutCells` cuts. -/
theorem framesAreOriginated : Obligations.FramesAreOriginated := by
  unfold Obligations.FramesAreOriginated
  refine fun tun frame s => ⟨fun slot h0 hd => ?_, fun slot hw hh => ⟨fun e he h => ?_, fun e he h => ?_⟩,
    fun e he hm hx h0 => ⟨fun hs h7 h8 => ?_, fun hs ht hlen fn hfn _ => ?_, fun hs hw => ?_, fun hs hp hw => ?_⟩⟩
  case refine_1 =>
    refine if_neg ?_
    simp [slotWorks, h0, hd]
  case refine_2 =>
    have hnone : originEntry s slot tun.toNat = none :=
      originEntry_none he (h.imp_left fun h => by rw [h]; rfl)
    refine ⟨_, exec_tunnelFrameOriginate hw hh, ?_⟩
    rw [originate_unmapped hnone]
    exact ⟨count_countsUp, count_only⟩
  case refine_3 =>
    refine ⟨_, exec_tunnelFrameOriginate hw hh, ?_⟩
    rw [originate_long he h]
    exact ⟨count_countsUp, count_only⟩
  all_goals
    have hexec : exec (.tunnelFrameOriginate 0 tun frame) s = .next (originate 0 tun.toNat frame s) :=
      exec_tunnelFrameOriginate (slot := 0) rfl (.inl rfl)
    have hpos : 0 < frame.length := List.length_pos_iff.2 h0
  case refine_4 =>
    obtain ⟨hplain, hsame⟩ := stamped_plain (s := s) (tun := tun.toNat) (l := frame) h7 h8
    have hcells : originCells s tun.toNat e frame =
        cutCells (orgDST e) (ownAddr s) tun.toNat (orgTC e) (orgTYP e) (orgXPR e && frame.length ≤ 116) 128 true frame := by
      rw [originCells, hplain, frameCells]
    rw [hexec, originate_eq he hm hx h0, if_pos hs, hsame, hcells]
    refine ⟨_, _, rfl, holdOf_holdCells, (holdCells_keeps rfl (Keeps.refl 1024 s)).onlyOf (by decide), ?_, ?_, fun k h hk => ?_⟩
    · rw [heldCells, List.length_map, cutCells_length hpos hx]
    · rw [heldCells_cells (f := fun c => c.payload.take c.vlen), cutCells_payload hx]
    · rw [heldCells, List.getElem?_map, Option.map_eq_some_iff] at hk
      obtain ⟨c, hc, rfl⟩ := hk
      obtain ⟨h1, h2, h3, h4, h5, h6, h7, h8, h9⟩ := cutCells_header hpos hx hc
      rw [heldCells, List.length_map, cutCells_length hpos hx]
      exact ⟨h1, h2, h3, h4, h5, h6, h7, h8, h9, rfl⟩
  case refine_5 =>
    obtain ⟨hstamp, hnum⟩ := stamped_numbered (s := s) (tun := tun.toNat) (l := frame) ht
    have hlong : (stamped s tun.toNat e frame).length ≤ 14848 := by
      rw [stamped_length fun _ => hlen]
      exact hx
    subst hfn
    rw [hexec, originate_eq he hm hx h0, if_pos hs]
    refine ⟨_, _, rfl, holdOf_holdCells.trans (congrArg (· ++ _) (holdOf_congr (numbered_kept.comb rfl) 16)), ?_, hnum⟩
    rw [heldCells_cells (f := fun c => c.payload.take c.vlen), originCells, frameCells, cutCells_payload hlong, hstamp]
  case refine_6 =>
    obtain ⟨f, hf⟩ := originate_holds he hm hx h0 hs hw
    exact ⟨_, f, hexec, hf⟩
  case refine_7 => exact ⟨_, hexec, originate_shaped he hm hx h0 hs hp hw⟩

end Sys2Proof.Machine
end

section
/-! The bridge as target (R219, R220, R383 to R385): what a request that arrives gets from the Deep Comb, the host and the root port. -/

namespace Sys2Proof.Machine

section
variable {s : State}

/-! Bytes of the Deep Comb. -/

theorem deepRead_deepWrites_at {a k : Nat} {l : List Byte} (h : k < l.length) : l[k]? = some (deepRead (deepWrites a l s) (a + k)) := by
  rw [List.getElem?_eq_getElem h]
  exact congrArg some (Tab.get_setMany_at deepDefault a k l s.deep h).symm

theorem deepRead_deepWrites_other {a x : Nat} {l : List Byte} (h : x < a ∨ a + l.length ≤ x) : deepRead (deepWrites a l s) x = deepRead s x :=
  Tab.get_setMany_other deepDefault x a l s.deep h

theorem deepReads_length {a n : Nat} : (deepReads s a n).length = n := by
  rw [deepReads, Tab.getMany, List.length_map, List.length_range]

theorem deepWrites_only {a : Nat} {l : List Byte} : Only [.deep] s (deepWrites a l s) :=
  (deepWrites_keeps rfl (Keeps.refl 32768 s)).onlyOf (by decide)

/-! Answers (R223). -/

/-- An answer is one frame, and what was done before it does not show. -/
theorem sends_brgAnswer {u : State} {src tun tc : Nat} {l : List Byte} (hc : u.comb = s.comb) (hr : u.regs = s.regs) :
    Sends src tun tc 4 false l s (brgAnswer src tun tc l u) := by
  have hown : ownAddr u = ownAddr s := rd_congr hr _
  refine ⟨_, holdOf_setHold_same.trans (congrArg (· ++ _) (holdOf_congr hc 16)), ?_⟩
  rw [List.map_map, hown]
  exact List.map_id _

theorem Sends.congr {u v : State} {dst tun tc typ : Nat} {xpr : Bool} {l : List Byte} (h : Sends dst tun tc typ xpr l s u) (hc : v.comb = u.comb) :
    Sends dst tun tc typ xpr l s v := by
  obtain ⟨hs, hhold, hcells⟩ := h
  exact ⟨hs, (holdOf_congr hc 16).trans hhold, hcells⟩

theorem brgAnswer_kept {src tun tc : Nat} {l : List Byte} : Keeps 1024 s (brgAnswer src tun tc l s) := brgAnswer_keeps rfl (Keeps.refl 1024 s)

/-- A completion without data. -/
theorem brgCpl_nil {src tun tc id st : Nat} : brgCpl src tun tc id st [] s = brgAnswer src tun tc (brgHeader 3 0 st id 0 0) s :=
  congrArg (brgAnswer src tun tc · s) (List.append_nil _)

/-! A request that has arrived (R220). -/

theorem exec_brgReadReceive {f : Frame} (h : nextRequest s 2 [] (inbox s 1) = some f) :
    exec .brgReadReceive s = .next (serveRequest f false (dropBrg f s)) := by
  change execBrgReadReceive s = _
  rw [execBrgReadReceive, h]

theorem serveRequest_read_fails {f : Frame} {st : Nat} (h : apertureFails s f false (brgAddr f.bytes) (brgLen f.bytes) = some st) :
    serveRequest f false s = brgAnswer f.src f.tun f.tc (brgHeader 3 0 st (brgId f.bytes) 0 0) s := by
  unfold serveRequest
  extract_lets l a len data failed
  rw [h]
  exact brgCpl_nil

theorem serveRequest_read_deep {f : Frame} (h : apertureFails s f false (brgAddr f.bytes) (brgLen f.bytes) = none)
    (hx : brgAddr f.bytes + brgLen f.bytes ≤ 0x100000000) :
    serveRequest f false s =
      if s1Up s = true then
        updBrg (fun b => { b with held := b.held ++
          [⟨false, f.src, f.tun, f.tc, brgId f.bytes, brgAddr f.bytes, brgLen f.bytes, f.bytes.drop 16, 0x11⟩] }) s
      else brgAnswer f.src f.tun f.tc (brgHeader 3 0 3 (brgId f.bytes) 0 0) s := by
  unfold serveRequest serve
  extract_lets l a len data failed
  rw [h, if_pos hx]
  by_cases hs : s1Up s = true
  · rw [if_pos hs, if_pos hs]
    rfl
  · rw [if_neg hs, if_neg hs]
    exact brgCpl_nil

/-! A request that waits, and its end. -/

/-- A held request that has left the bridge. -/
def unheld (h : BrgHeld) (s : State) : State := updBrg (fun b => { b with held := b.held.erase h }) s

theorem finish_write {h : BrgHeld} {l : List Byte} (hw : h.wr = true) : finish h 0 l s = unheld h s := by
  unfold finish
  rw [hw]
  rfl

theorem finish_read {h : BrgHeld} {st : Nat} {l : List Byte} (hw : h.wr = false) :
    finish h st l s = brgAnswer h.src h.tun h.tc (brgHeader 3 0 st h.id l.length 0 ++ l) (unheld h s) := by
  unfold finish
  rw [hw]
  rfl

/-- What ends a read: it is not held any more, and its requester gets one frame. -/
theorem finish_read_ends {h : BrgHeld} {st : Nat} {l : List Byte} (hw : h.wr = false) :
    (finish h st l s).brg.held = s.brg.held.erase h ∧ (finish h st l s).deep = s.deep ∧
      Sends h.src h.tun h.tc 4 false (brgHeader 3 0 st h.id l.length 0 ++ l) s (finish h st l s) := by
  rw [finish_read hw]
  refine ⟨?_, brgAnswer_kept.deep rfl, sends_brgAnswer rfl rfl⟩
  rw [brgAnswer_kept.brg rfl]
  rfl

/-- A read that fails. -/
theorem finish_read_fails {h : BrgHeld} {st : Nat} (hw : h.wr = false) :
    (finish h st [] s).brg.held = s.brg.held.erase h ∧ (finish h st [] s).deep = s.deep ∧
      Sends h.src h.tun h.tc 4 false (brgHeader 3 0 st h.id 0 0) s (finish h st [] s) := by
  have hends := finish_read_ends (s := s) (st := st) (l := []) hw
  rw [List.append_nil] at hends
  exact hends

/-- What a read's end leaves. -/
theorem finish_read_kept {h : BrgHeld} {st : Nat} {l : List Byte} (hw : h.wr = false) : Keeps 8589960192 s (finish h st l s) := by
  rw [finish_read hw]
  exact brgAnswer_keeps rfl (updBrg_keeps rfl (Keeps.refl _ s))

theorem exec_deepCombAccessDone {h : BrgHeld} {good : Bool} (hh : heldAt s (fun h => h.dom == 0x11) 0 = some h) (hs : dcmServes s 4 = true) :
    exec (.deepCombAccessDone good) s = .next
      (if h.wr then finish h 0 [] (deepWrites h.addr h.data s)
      else if good then finish h 0 (deepReads s h.addr h.len) s else finish h 4 [] s) := by
  change execDeepCombAccessDone good s = _
  rw [execDeepCombAccessDone, hh]
  cases hw : h.wr <;> cases good <;> simp [hs, hw]

theorem exec_pcieCompletionReceive_read {h : BrgHeld} {root ok : Bool} {n : Nat} {data : List Byte} (hh : heldAt s (onPcie root) n = some h)
    (hw : h.wr = false) (hl : ok = true → data.length = h.len) :
    exec (.pcieCompletionReceive root n ok data) s = .next (if ok then finish h 0 data s else finish h 5 [] s) := by
  change execPcieCompletionReceive root n ok data s = _
  rw [execPcieCompletionReceive, hh]
  cases ok
  · rfl
  · simp [hw, hl rfl]

theorem exec_hostMemoryTimeout {h : BrgHeld} {n : Nat} (hh : heldAt s (onPcie false) n = some h) :
    exec (.hostMemoryTimeout n) s = .next (finish h 5 [] s) := by
  change execHostMemoryTimeout n s = _
  rw [execHostMemoryTimeout, hh]

theorem exec_rootPortTimeout {h : BrgHeld} {n : Nat} (hh : heldAt s (onPcie true) n = some h) :
    exec (.rootPortTimeout n) s = .next (raise srcCPLTO (wr Reg.PCR.STAT.CPLTO 1 (finish h 5 [] s))) := by
  change execRootPortTimeout n s = _
  rw [execRootPortTimeout, hh]

/-! A status bit that is latched together with its source. -/

/-- A register of the TS is not the one that says whether the switch domain is on. -/
theorem raised_wr {u : State} {n x : Nat} {f : Fld} (hk : Keeps 8589960192 s u) (hf : Reg.NRS.PSTATE.SWOFF.addr ≠ f.addr) :
    Raised n s (raise n (wr f x u)) := by
  refine raised_raise ?_ ?_
  · exact srcAlive_of_swoff ((rd_wr_other (.inl hf)).trans (rd_congr (hk.regs rfl) _)) hk.variant (hk.domains rfl) n
  · exact srcSt_congr (hk.srcs rfl) n

theorem rd_raise_wr {u : State} {n x : Nat} {f : Fld} (h : f.lo + f.w ≤ 32) : rd f (raise n (wr f x u)) = x % 2 ^ f.w :=
  (rd_congr raise_regs f).trans (rd_wr_same h)

/-! Requests of a device (R385). -/

/-- The order of a device's request, with its port in service and its link up. -/
theorem exec_inboundDeviceRequest {wr : Bool} {addr : BitVec 64} {len : BitVec 13} {data : List Byte} {n : Nat} (ht : tsServes s = true)
    (hu : rdB Reg.PCR.STAT.LINKUP s = true) (hn : n = (if wr then data.length else len.toNat)) (h0 : 0 < n) :
    exec (.inboundDeviceRequest wr addr len data) s =
      if addr.toNat < 2 ^ 32 then
        if inRegion s 2 addr.toNat n = false then .next (raise srcINUR (Machine.wr Reg.PCR.STAT.INUR 1 (devAnswer wr false [] s)))
        else if s1Up s = false then .next (devAnswer wr false [] s)
        else .next (if wr then deepWrites addr.toNat data s else devAnswer false true (deepReads s addr.toNat n) s)
      else if wr = true ∧ n = 4 ∧ addr.toNat < 2 ^ 32 + 64 ∧ addr.toNat % 4 = 0 then
        .next (raise srcPCR_MSI (orF Reg.PCR.STAT.MSIP (2 ^ ((addr.toNat - 2 ^ 32) / 4)) s))
      else .next (devAnswer wr false [] s) := by
  subst hn
  change execInboundDeviceRequest wr addr len data s = _
  unfold execInboundDeviceRequest
  extract_lets a n
  have hgo : ¬ (!tsServes s || !rdB Reg.PCR.STAT.LINKUP s || n == 0) = true := by
    have : n ≠ 0 := Nat.ne_of_gt h0
    simp [ht, hu, this]
  rw [if_neg hgo]
  simp only [Bool.not_eq_true']
  rfl

theorem updHost_only {f : HostIf → HostIf} : Only [.hostIf] s (updHost f s) :=
  (updHost_keeps rfl (Keeps.refl 8589934592 s)).onlyOf (by decide)

theorem devAnswer_kept {wr ok : Bool} {l : List Byte} : Keeps 8589960192 s (devAnswer wr ok l s) := devAnswer_keeps rfl (Keeps.refl _ s)

end

/-- Settles O32: by what serves a request, and what a held request's end leaves. -/
theorem bridgeTargetServesRequests : Obligations.BridgeTargetServesRequests := by
  unfold Obligations.BridgeTargetServesRequests
  refine fun s => ⟨fun f a st hf ha => ?_, fun h hh hs => ?_, fun root n h hh hw => ?_, fun wr addr len data n ht hu hn h0 => ?_⟩
  case refine_1 =>
    subst ha
    refine ⟨fun hfail => ?_, fun hok hx => ⟨fun hup => ?_, fun hdown => ?_⟩⟩
    · refine ⟨_, exec_brgReadReceive hf, ?_⟩
      rw [serveRequest_read_fails (s := dropBrg f s) hfail]
      exact ⟨sends_brgAnswer rfl rfl, brgAnswer_kept.brg rfl⟩
    · have hup' : s1Up (dropBrg f s) = true := hup
      refine ⟨_, exec_brgReadReceive hf, ?_⟩
      rw [serveRequest_read_deep (s := dropBrg f s) hok hx, if_pos hup']
      exact ⟨rfl, rfl⟩
    · have hno : ¬ s1Up (dropBrg f s) = true := by
        rw [show s1Up (dropBrg f s) = false from hdown]
        exact Bool.false_ne_true
      refine ⟨_, exec_brgReadReceive hf, ?_⟩
      rw [serveRequest_read_deep (s := dropBrg f s) hok hx, if_neg hno]
      exact ⟨sends_brgAnswer rfl rfl, brgAnswer_kept.brg rfl⟩
  case refine_2 =>
    refine ⟨fun hw good => ⟨_, exec_deepCombAccessDone hh hs, ?_⟩, fun hw => ⟨_, exec_deepCombAccessDone hh hs, ?_⟩,
      fun hw => ⟨_, exec_deepCombAccessDone hh hs, ?_⟩⟩
    · rw [if_pos hw, finish_write hw]
      exact ⟨rfl, rfl, fun k hk => deepRead_deepWrites_at hk, fun x hx => deepRead_deepWrites_other hx⟩
    · have hends := finish_read_ends (s := s) (st := 0) (l := deepReads s h.addr h.len) hw
      rw [deepReads_length] at hends
      rw [hw]
      exact hends
    · rw [hw]
      exact finish_read_fails hw
  case refine_3 =>
    have hends := finish_read_fails (s := s) (st := 5) hw
    refine ⟨fun data hl => ⟨_, exec_pcieCompletionReceive_read hh hw fun _ => hl, ?_⟩,
      fun data => ⟨_, exec_pcieCompletionReceive_read hh hw (fun h => nomatch h), hends.1, hends.2.2⟩, fun hr => ?_, fun hr => ?_⟩
    · have hdata := finish_read_ends (s := s) (st := 0) (l := data) hw
      exact ⟨hdata.1, hdata.2.2⟩
    · subst hr
      exact ⟨_, exec_hostMemoryTimeout hh, hends.1, hends.2.2⟩
    · subst hr
      refine ⟨_, exec_rootPortTimeout hh, ?_, raised_wr (finish_read_kept hw) (by decide), (rd_raise_wr (by decide)).trans (by decide), ?_⟩
      · rw [raise_brg, wr_brg]
        exact hends.1
      · exact hends.2.2.congr (by rw [raise_comb, wr_comb])
  case refine_4 =>
    have hexec := exec_inboundDeviceRequest ht hu hn h0 (addr := addr) (data := data) (len := len)
    refine ⟨fun ha hin hup => ?_, fun ha hout => ?_, fun hw h4 k hk haddr => ?_⟩
    · rw [if_pos ha, if_neg (by rw [hin]; exact Bool.noConfusion), if_neg (by rw [hup]; exact Bool.noConfusion)] at hexec
      refine ⟨fun hw => ?_, fun hw => ?_⟩
      · subst hw
        obtain rfl : n = data.length := hn
        exact ⟨_, hexec, fun k hk => deepRead_deepWrites_at hk, fun x hx => deepRead_deepWrites_other hx, deepWrites_only⟩
      · subst hw
        exact ⟨_, hexec, updHost_only, rfl⟩
    · rw [if_pos ha, if_pos hout] at hexec
      refine ⟨_, hexec, (rd_raise_wr (by decide)).trans (by decide), raised_wr devAnswer_kept (by decide), ?_, fun hw => ?_⟩
      · rw [raise_deep, wr_deep]
        exact devAnswer_kept.deep rfl
      · subst hw
        rw [raise_hostIf, wr_hostIf]
        rfl
    · rw [if_neg (by omega), if_pos ⟨hw, h4, by omega, by omega⟩, show (addr.toNat - 2 ^ 32) / 4 = k by omega] at hexec
      refine ⟨_, hexec, ?_, raised_wr (Keeps.refl _ s) (by decide), ?_⟩
      · rw [orF, rd_raise_wr (by decide), bit_mod_two_pow (w := Reg.PCR.STAT.MSIP.w) hk, bit_or_two_pow]
      · rw [raise_deep, orF_deep]

end Sys2Proof.Machine
end

section
/-! Writing the idle slot and the staging region (R453, R454, R461): IMG_WRITE, blocks at EP4, delta patches, STAGE_WRITE. -/

namespace Sys2Proof.Machine

/-- A run of writes is read back whole. -/
theorem Tab.getMany_setMany_same {α : Type} [DecidableEq α] (d : Nat → α) (a : Nat) (l : List α) (t : Tab α) :
    Tab.getMany d (Tab.setMany d a l t) a l.length = l := by
  refine List.ext_getElem ?_ fun i h h' => ?_
  · rw [Tab.getMany, List.length_map, List.length_range]
  · simp only [Tab.getMany, List.getElem_map, List.getElem_range]
    exact Tab.get_setMany_at d a i l t h'

section
variable {s : State}

theorem deepReads_deepWrites {a : Nat} {l : List Byte} : deepReads (deepWrites a l s) a l.length = l :=
  Tab.getMany_setMany_same deepDefault a l s.deep

theorem deepReads_congr {t : State} (h : t.deep = s.deep) (a n : Nat) : deepReads t a n = deepReads s a n := by
  unfold deepReads
  rw [h]

theorem norReads_norProgram {a : Nat} {l : List Byte} : norReads (norProgram a l s) a l.length = l :=
  Tab.getMany_setMany_same norDefault a l s.nor

theorem norReads_congr {t : State} (h : t.nor = s.nor) (a n : Nat) : norReads t a n = norReads s a n := by
  unfold norReads
  rw [h]

theorem updImg_kept {f : Img → Img} : Keeps 137438953474 s (updImg f s) := updImg_keeps rfl (Keeps.refl _ s)

theorem updImg_img {f : Img → Img} : (updImg f s).img = f s.img := wr_img

theorem norReads_updImg {f : Img → Img} {a n : Nat} : norReads (updImg f s) a n = norReads s a n :=
  norReads_congr (updImg_kept.nor rfl) a n

theorem field_drop {l : List Byte} {i k n : Nat} : field (l.drop i) k n = field l (i + k) n := by
  rw [field, field, List.drop_drop]

theorem zeroAt_drop {l : List Byte} {i k n : Nat} : zeroAt (l.drop i) k n = zeroAt l (i + k) n := by
  rw [zeroAt, zeroAt, List.drop_drop]

/-! A block of the idle slot (R453). -/

theorem blockGood_length {l : List Byte} (h : blockGood l = true) : l.length = 4096 := by
  rw [blockGood, Bool.and_eq_true] at h
  exact eq_of_beq h.1

/-- A written block is read back, and the rest of the machine stays. -/
theorem norReads_writeBlock {b : Nat} {l : List Byte} (hl : l.length = 4096) :
    norReads (writeBlock b l s) (imgBase (idleSlot s) + 4096 * b) 4096 = l := by
  have hread := norReads_norProgram (s := norErase (imgBase (idleSlot s) + 4096 * b) 4096 (markSlot (idleSlot s) SL_WRITING s))
    (a := imgBase (idleSlot s) + 4096 * b) (l := l)
  rw [hl] at hread
  exact hread

theorem writeBlock_kept {b : Nat} {l : List Byte} : Keeps 274877906946 s (writeBlock b l s) := writeBlock_keeps rfl (Keeps.refl _ s)

theorem exec_imgWrite_block {o : Origin} {body : List Byte} (hm : mayDispatch s o = true) (hl : body.length = 4104) (hn : field body 4 2 = 1)
    (hf : field body 6 1 = 0) (hz : zeroAt body 7 1 = true) (hb : field body 0 4 + 1 ≤ 6144) :
    exec (.imgWrite o body) s = .next
      (if imgHeld s = true then imgReply o ST_BUSY [] (dispatch o s)
      else if blockGood (body.drop 8) = true then
        imgReply o ST_OK [0, 1, 0, 0] (writeBlock (field body 0 4) (body.drop 8) (dispatch o s))
      else imgReply o ST_SEAL_FAIL [0, 0, 0, 0] (dispatch o s)) := by
  change execImgWrite o body s = _
  unfold execImgWrite
  have hno : bit 0 (field body 6 1) = false := by rw [hf]; rfl
  rw [commandV_runs hm (by simp [hl, hno])]
  refine congrArg Host.Outcome.next ((if_neg ?_).trans ?_)
  · simpa [hn, hf, hz] using hb
  · simp only [hno, Bool.false_and, Bool.or_false]
    rfl

theorem exec_imgWrite_ep4 {o : Origin} {body : List Byte} (hm : mayDispatch s o = true) (hl : body.length = 8) (hn : 1 ≤ field body 4 2)
    (hf : field body 6 1 = 1) (hz : zeroAt body 7 1 = true) (hb : field body 0 4 + field body 4 2 ≤ 6144) :
    exec (.imgWrite o body) s = .next
      (if o.ep ≠ .svc then imgReply o ST_DENIED [] (dispatch o s)
      else if imgHeld s = true ∨ s.img.ep4.isSome = true then imgReply o ST_BUSY [] (dispatch o s)
      else updImg (fun i => { i with ep4 := some (o, field body 0 4, field body 4 2, 0) }) (dispatch o s)) := by
  change execImgWrite o body s = _
  unfold execImgWrite
  have hep : bit 0 (field body 6 1) = true := by rw [hf]; rfl
  rw [commandV_runs hm (by simp [hl, hep])]
  refine congrArg Host.Outcome.next ((if_neg ?_).trans ?_)
  · have hn0 : field body 4 2 ≠ 0 := Nat.ne_of_gt hn
    have h1 : bit 0 1 = true := rfl
    simpa [hn0, hf, hz, h1] using hb
  · simp only [hep, Bool.true_and, Bool.or_eq_true, bne_iff_ne, ite_true]
    rfl

/-! EP4 (R350, R453). -/

theorem exec_ep4BlockReceive {o : Origin} {block : List Byte} {b n k : Nat} (he : s.img.ep4 = some (o, b, n, k)) (hl : block.length = 4096) :
    exec (.ep4BlockReceive block) s = .next
      (if blockGood block = true then
        if n ≤ 1 then imgReply o ST_OK (beBytes 2 (k + 1) ++ [0, 0]) (updImg (fun i => { i with ep4 := none }) (writeBlock b block s))
        else updImg (fun i => { i with ep4 := some (o, b + 1, n - 1, k + 1) }) (writeBlock b block s)
      else imgReply o ST_SEAL_FAIL (beBytes 2 k ++ [0, 0]) (updImg (fun i => { i with ep4 := none }) s)) := by
  change execEp4BlockReceive block s = _
  rw [execEp4BlockReceive, he]
  dsimp only
  rw [if_neg (not_not.2 hl)]
  split
  · split <;> rfl
  · rfl

theorem exec_ep4BlockReceive_ignored {block : List Byte} (h : s.img.ep4 = none ∨ block.length ≠ 4096) :
    exec (.ep4BlockReceive block) s = .next s := by
  change execEp4BlockReceive block s = _
  unfold execEp4BlockReceive
  rcases h with h | h
  · rw [h]
  · split
    · rfl
    · exact if_pos h

/-! Delta patches (R454). -/

section
variable {o : Origin} {body : List Byte} (hm : mayDispatch s o = true) (hs : field body 0 1 = 0) (hz : zeroAt body 2 2 = true)
  (hl : 4 ≤ body.length) (hf : field body 1 1 ≤ 3)

include hm hs hz hl hf

theorem exec_imgDelta_held (hheld : imgHeld s = true) : exec (.imgDelta o body) s = .next (imgReply o ST_BUSY [] (dispatch o s)) := by
  change execImgDelta o body s = _
  unfold execImgDelta
  rw [commandV_runs hm (by simp [hs, hl])]
  refine congrArg Host.Outcome.next ((if_neg ?_).trans (if_pos hheld))
  simpa [hs, hz] using hf

/-- An IMG_DELTA with its bytes in the body, by what its patch comes to. -/
theorem exec_imgDelta {start last : Bool} {st k : Nat} {q : Option Patch} {u : State} (hfree : imgHeld s = false)
    (h0 : bit 0 (field body 1 1) = start) (h1 : bit 1 (field body 1 1) = last)
    (hrun : runPatch start last (body.drop 4) (dispatch o s) = (st, k, q, u)) :
    exec (.imgDelta o body) s = .next (imgReply o st (beBytes 4 k)
      (updImg (fun i => { i with patch := q }) (if q.isNone then raise srcIMG_DONE u else u))) := by
  have hgo : ¬ imgHeld (dispatch o s) = true := by
    rw [show imgHeld (dispatch o s) = false from hfree]
    exact Bool.false_ne_true
  change execImgDelta o body s = _
  unfold execImgDelta
  rw [commandV_runs hm (by simp [hs, hl])]
  refine congrArg Host.Outcome.next ((if_neg ?_).trans ((if_neg hgo).trans ?_))
  · simpa [hs, hz] using hf
  · simp only [hs, h0, h1]
    exact congrArg (fun r : Nat × Nat × Option Patch × State => imgReply o r.1 (beBytes 4 r.2.1)
      (updImg (fun i => { i with patch := r.2.2.1 }) (if r.2.2.1.isNone then raise srcIMG_DONE r.2.2.2 else r.2.2.2))) hrun

theorem exec_imgDelta_ends {start last : Bool} {st k : Nat} {u : State} (hfree : imgHeld s = false)
    (h0 : bit 0 (field body 1 1) = start) (h1 : bit 1 (field body 1 1) = last)
    (hrun : runPatch start last (body.drop 4) (dispatch o s) = (st, k, none, u)) :
    exec (.imgDelta o body) s = .next (imgReply o st (beBytes 4 k) (updImg (fun i => { i with patch := none }) (raise srcIMG_DONE u))) := by
  rw [exec_imgDelta hm hs hz hl hf hfree h0 h1 hrun, if_pos Option.isNone_none]

end

/-- A patch goes on with a fill record that ends inside its block. -/
theorem patchRecords_fill {k n : Nat} {l : List Byte} {p : Patch} (hl : l.length = 12) (hop : field l 0 1 = 3) (hz : zeroAt l 1 3 = true)
    (hz' : zeroAt l 9 3 = true) (hn : field l 4 4 = n) (ho : p.out + n ≤ p.nblk * 4096) (hb : p.block.length + n < 4096) :
    patchRecords (k + 2) l p s =
      (ST_OK, { p with out := p.out + n, block := p.block ++ List.replicate n (BitVec.ofNat 8 (field l 8 1)) }, s) := by
  obtain ⟨b, m, rfl⟩ : ∃ b m, l = b :: m := List.exists_cons_of_length_pos (by omega)
  have hput : putPatch (List.replicate n (BitVec.ofNat 8 (field (b :: m) 8 1))) p s =
      (ST_OK, { p with out := p.out + n, block := p.block ++ List.replicate n (BitVec.ofNat 8 (field (b :: m) 8 1)) }, s) := by
    rw [putPatch, List.length_replicate, if_neg (by omega), flushPatch, if_pos (by simpa using hb)]
  have hrest : (b :: m).drop 12 = [] := List.drop_eq_nil_of_le (Nat.le_of_eq hl)
  rw [patchRecords]
  · simp [hop, hn, hz', hz, hl, hput, hrest, patchRecords]
  · exact List.cons_ne_nil b m

/-- A new patch is its header. -/
theorem runPatch_header {l : List Byte} {n : Nat} (hl : l.length = 32) (h : patchHeader s l = some n) :
    runPatch true false l s = (ST_OK, 0, some ⟨n, 0, []⟩, markSlot (idleSlot s) SL_WRITING s) := by
  have hrest : l.drop 32 = [] := List.drop_eq_nil_of_le (Nat.le_of_eq hl)
  simp [runPatch, h, hrest, patchRecords, ST_OK, ST_SEAL_FAIL]

/-- No patch to go on with. -/
theorem runPatch_none {last : Bool} {l : List Byte} (h : s.img.patch = none) : runPatch false last l s = (ST_BAD_PARAM, 0, none, s) := by
  simp [runPatch, h]

theorem runPatch_goes_on {l : List Byte} {p q : Patch} (h : s.img.patch = some p)
    (hr : patchRecords (l.length / 8 + 1) l p s = (ST_OK, q, s)) : runPatch false false l s = (ST_OK, q.out - p.out, some q, s) := by
  simp [runPatch, h, hr, ST_OK, ST_SEAL_FAIL]

/-- END without more bytes: all is out, or the patch was too short. -/
theorem runPatch_ends {p : Patch} (h : s.img.patch = some p) :
    runPatch false true [] s =
      if p.out = p.nblk * 4096 then (ST_OK, 0, none, wr Reg.IMG.STAT.STAGED 0 s) else (ST_BAD_PARAM, 0, none, s) := by
  simp [runPatch, h, patchRecords, ST_OK, ST_SEAL_FAIL]

/-! The staging region (R454). -/

theorem exec_stageWrite {o : Origin} {body : List Byte} (hm : mayDispatch s o = true) (hl : body.length = 8 + field body 4 2)
    (hz : zeroAt body 6 2 = true) :
    exec (.stageWrite o body) s = .next
      (if 8184 < field body 4 2 ∨ stagingSize s < field body 0 4 + field body 4 2 then imgReply o ST_BAD_PARAM [] (dispatch o s)
      else if s1Up s = false then imgReply o ST_BUSY_IN_SERVICE [] (dispatch o s)
      else if field body 4 2 = 0 then imgReply o ST_OK [] (wr Reg.IMG.STAT.STAGED 0 (dispatch o s))
      else if dcmServes s 7 = false then dispatch o s
      else imgReply o ST_OK []
        (wr Reg.IMG.STAT.STAGED 1 (deepWrites (stagingBase s + field body 0 4) (body.drop 8) (dispatch o s)))) := by
  change execStageWrite o body s = _
  unfold execStageWrite
  extract_lets n
  rw [commandV_runs hm (by simp [hl, n])]
  simp only [hz, Bool.not_true, Bool.false_or, Bool.or_eq_true, decide_eq_true_eq, Bool.not_eq_true']
  rfl

theorem s1Up_of_dcmServes {k : Nat} (h : dcmServes s k = true) : s1Up s = true := by
  rw [dcmServes, Bool.and_eq_true, Bool.and_eq_true] at h
  exact h.1.1

end

/-- Settles O53: each command by the order of its checks, and a written block by what the NOR reads back. -/
theorem imageBlocksAndPatchesAreWritten : Obligations.ImageBlocksAndPatchesAreWritten := by
  unfold Obligations.ImageBlocksAndPatchesAreWritten
  refine ⟨fun o body b s hm hb => ⟨fun hl hn hf hz hle => ?_, fun hl hf hz hn hle => ?_⟩,
    fun block s => ⟨exec_ep4BlockReceive_ignored, fun o b n k he hl => ?_⟩,
    fun o body s hm => ⟨fun hs hz hl => ⟨fun hf hheld => ?_, fun hfree hf hlen n hhead => ?_, fun hfree hf hstart hnone => ?_,
      fun p n hfree hp hf hlen hop hz1 hz2 hn hout hblk => ?_, fun p hfree hp hf hlen => ?_⟩, fun off n hl hoff hn hz => ?_⟩⟩
  case refine_1 =>
    subst hb
    have hexec := exec_imgWrite_block hm hl hn hf hz hle
    refine ⟨fun hheld => ?_, fun hfree hgood => ?_, fun hfree hbad => ?_⟩
    · rw [hexec, if_pos hheld]
    · rw [hfree, if_neg Bool.false_ne_true, if_pos hgood] at hexec
      exact ⟨_, hexec, norReads_writeBlock (blockGood_length hgood), writeBlock_kept.deep rfl, writeBlock_kept.img rfl⟩
    · rw [hexec, hfree, hbad, if_neg Bool.false_ne_true, if_neg Bool.false_ne_true]
  case refine_2 =>
    subst hb
    have hexec := exec_imgWrite_ep4 hm hl hn hf hz hle
    refine ⟨fun hep => ?_, fun hep hbusy => ?_, fun hep hfree hnone => ⟨_, hexec, ?_⟩⟩
    · rw [hexec, if_pos hep]
    · rw [hexec, if_neg (not_not.2 hep), if_pos hbusy]
    · rw [if_neg (not_not.2 hep), if_neg (by simp [hfree, hnone])]
      exact ⟨updImg_img, updImg_kept.nor rfl⟩
  case refine_3 =>
    have hexec := exec_ep4BlockReceive he hl
    have himg : (writeBlock b block s).img = s.img := writeBlock_kept.img rfl
    refine ⟨fun hbad => ?_, fun hgood h1 => ?_, fun hgood h1 => ?_⟩
    · rw [hbad, if_neg Bool.false_ne_true] at hexec
      exact ⟨_, hexec, updImg_img, updImg_kept.nor rfl⟩
    · rw [if_pos hgood, if_pos (Nat.le_of_eq h1)] at hexec
      exact ⟨_, hexec, updImg_img.trans (congrArg (fun i : Img => { i with ep4 := none }) himg), norReads_updImg.trans (norReads_writeBlock hl)⟩
    · rw [if_pos hgood, if_neg (Nat.not_le.2 h1)] at hexec
      exact ⟨_, hexec, updImg_img.trans (congrArg (fun i : Img => { i with ep4 := some (o, b + 1, n - 1, k + 1) }) himg),
        norReads_updImg.trans (norReads_writeBlock hl)⟩
  case refine_4 => exact exec_imgDelta_held hm hs hz hl hf hheld
  case refine_5 =>
    have hrun := runPatch_header (s := dispatch o s) (l := body.drop 4) (by rw [List.length_drop, hlen]) hhead
    exact ⟨_, exec_imgDelta hm hs hz hl (hf.le.trans (by decide)) hfree (by rw [hf]; rfl) (by rw [hf]; rfl) hrun, congrArg Img.patch updImg_img⟩
  case refine_6 =>
    refine ⟨_, exec_imgDelta_ends hm hs hz hl hf hfree hstart rfl (runPatch_none hnone), updImg_img.trans ?_,
      (updImg_kept.nor rfl).trans (raise_nor.trans dispatch_nor)⟩
    have himg : (raise srcIMG_DONE (dispatch o s)).img = s.img := raise_img.trans dispatch_img
    refine (congrArg (fun i : Img => { i with patch := none }) himg).trans ?_
    rw [← hnone]
  case refine_7 =>
    have hlast : (body.drop 4).length = 12 := by rw [List.length_drop, hlen]
    have hrec := patchRecords_fill (s := dispatch o s) (k := 0) hlast (field_drop.trans hop) (zeroAt_drop.trans hz1) (zeroAt_drop.trans hz2)
      (field_drop.trans hn) hout hblk
    have hrun := runPatch_goes_on (s := dispatch o s) (l := body.drop 4) hp (by rw [hlast]; exact hrec)
    rw [Nat.add_sub_cancel_left, field_drop] at hrun
    exact ⟨_, exec_imgDelta hm hs hz hl (hf.le.trans (by decide)) hfree (by rw [hf]; rfl) (by rw [hf]; rfl) hrun, updImg_kept.nor rfl,
      congrArg Img.patch updImg_img⟩
  case refine_8 =>
    have hrun := runPatch_ends (s := dispatch o s) hp
    rw [← List.drop_eq_nil_of_le hlen.le] at hrun
    by_cases hout : p.out = p.nblk * 4096
    · rw [if_pos hout] at hrun ⊢
      refine ⟨_, exec_imgDelta_ends hm hs hz hl (hf.le.trans (by decide)) hfree (by rw [hf]; rfl) (by rw [hf]; rfl) hrun,
        congrArg Img.patch updImg_img, ?_⟩
      exact (raised_wr (dispatch_keeps rfl (Keeps.refl _ s)) (by decide)).congr (updImg_kept.srcs rfl)
    · rw [if_neg hout] at hrun ⊢
      refine ⟨_, exec_imgDelta_ends hm hs hz hl (hf.le.trans (by decide)) hfree (by rw [hf]; rfl) (by rw [hf]; rfl) hrun,
        congrArg Img.patch updImg_img, ?_⟩
      exact (raised_raise (srcAlive_congr dispatch_regs dispatch_variant dispatch_domains _) (srcSt_congr dispatch_srcs _)).congr
        (updImg_kept.srcs rfl)
  case refine_9 =>
    subst hoff hn
    have hexec := exec_stageWrite hm hl hz
    refine ⟨fun hbad => ?_, fun hn hfit => ?_⟩
    · rw [hexec, if_pos hbad]
    rw [if_neg (by omega)] at hexec
    refine ⟨fun hdown => ?_, fun hup hn0 hwait => ?_, fun hserves hn0 => ?_, fun hup hn0 => ?_⟩
    · rw [hexec, if_pos hdown]
    · rw [hexec, hup, if_neg Bool.noConfusion, if_neg hn0, if_pos hwait]
    · have hlen : field body 4 2 = (body.drop 8).length := by rw [List.length_drop, hl, Nat.add_sub_cancel_left]
      rw [s1Up_of_dcmServes hserves, if_neg Bool.noConfusion, if_neg hn0, hserves, if_neg Bool.noConfusion] at hexec
      refine ⟨_, hexec, (rd_wr_same (by decide)).trans (by decide), ?_⟩
      rw [hlen, deepReads_congr wr_deep, deepReads_deepWrites]
    · rw [hup, if_neg Bool.noConfusion, if_pos hn0] at hexec
      exact ⟨_, hexec, (rd_wr_same (by decide)).trans (by decide), wr_deep.trans dispatch_deep⟩

end Sys2Proof.Machine
end

section
/-! Terminated cells (R100, R213, R214, R280): what reassembly does with a cell, and what resets its contexts. -/

namespace Sys2Proof.Machine

section
variable {s : State}

/-- A count, with nothing before or after it that concerns counters. -/
theorem CountsUp.between {a : Nat} {u v t : State} (h : CountsUp a u v) (hr : u.regs = s.regs) (hc : u.ctrs = s.ctrs) (ht : t.ctrs = v.ctrs) :
    CountsUp a s t := by
  intro hcompat hsat hv
  rw [← ctrGet_congr hc a] at hsat hv ⊢
  rw [ctrGet_congr ht a]
  have hcompat' : compat u = compat s := congrArg (· == 1) (rd_congr hr _)
  exact h (hcompat'.trans hcompat) hsat hv

/-! The contexts of a unit. -/

theorem ctxsOf_setCtxs_same {u : Nat} {l : List Reasm} : ctxsOf (setCtxs u l s) u = l := Tab.get_set_same noCells u l s.tuns.ctx

theorem ctxsOf_setCtxs_other {u v : Nat} {l : List Reasm} (h : v ≠ u) : ctxsOf (setCtxs u l s) v = ctxsOf s v :=
  Tab.get_set_other noCells h l s.tuns.ctx

theorem ctxsOf_congr {t : State} (h : t.tuns = s.tuns) (u : Nat) : ctxsOf t u = ctxsOf s u := by
  unfold ctxsOf
  rw [h]

theorem reasmErr_kept {u : Nat} : Keeps 131092 s (reasmErr u s) := reasmErr_keeps rfl (Keeps.refl _ s)

/-! A cell at its unit (R100, R214). -/

/-- A context takes cells of this stream. -/
def ofStream (c : Cell) (x : Reasm) : Bool := x.src == c.src && x.tun == c.tun && x.tc == c.tc

/-- The context that a first cell opens. -/
def firstOf (c : Cell) : Reasm := ⟨c.src, c.tun, c.tc, 1, c.payload.take c.vlen, false⟩

/-- The other contexts of a unit. -/
def others (c : Cell) (u : Nat) (s : State) : List Reasm := (ctxsOf s u).filter fun x => !ofStream c x

section
variable {p u ctx inp : Nat} {c : Cell} {x : Reasm}

theorem addCell_next (hd : x.discarding = false) (h : x.cells < 128) :
    addCell u x c s = ({ x with cells := x.cells + 1, bytes := x.bytes ++ c.payload.take c.vlen }, s) := by
  simp [addCell, hd, Nat.not_le.2 h]

theorem addCell_tooMany (hd : x.discarding = false) (h : 128 ≤ x.cells) :
    addCell u x c s = ({ x with discarding := true, bytes := [] }, reasmErr u s) := by
  simp [addCell, hd, h]

theorem openCtx_free {l : List Reasm} (h : l.length < 512) : openCtx u x l s = (l ++ [x], s) := by
  cases l with
  | nil => rfl
  | cons y l => exact if_pos h

/-- What a first cell does to an unfinished frame of its stream. -/
def displaced (c : Cell) (u : Nat) (s : State) : State :=
  match ((ctxsOf s u).filter (ofStream c)).head? with
  | some x => if x.discarding then s else reasmErr u s
  | none => s

/-- A context closes, and its frame goes to the unit. -/
def closed (p u ctx inp : Nat) (c : Cell) (x : Reasm) (s : State) : State :=
  if x.discarding then setCtxs u (others c u s) s else deliverFrame p u (frameOf x c ctx inp) (setCtxs u (others c u s) s)

theorem reassemble_first {now : List Reasm} {t : State} (hf : c.f = true) (hl : c.l = false)
    (ho : openCtx u (firstOf c) (others c u s) (displaced c u s) = (now, t)) : reassemble p u ctx inp c s = setCtxs u now t := by
  unfold reassemble
  extract_lets mine l rest close
  rw [if_pos hf, hl]
  exact congrArg (fun r : List Reasm × State => setCtxs u r.1 r.2) ho

theorem reassemble_next {t : State} {y : Reasm} (hf : c.f = false) (hx : ((ctxsOf s u).filter (ofStream c)).head? = some x)
    (ha : addCell u x c s = (y, t)) :
    reassemble p u ctx inp c s =
      if c.l = true then closed p u ctx inp c y (setCtxs u (others c u s ++ [y]) t) else setCtxs u (others c u s ++ [y]) t := by
  unfold reassemble
  extract_lets mine l rest close
  have hx' : (l.filter mine).head? = some x := hx
  rw [hf, if_neg Bool.false_ne_true, hx']
  dsimp only
  rw [ha]
  rfl

theorem reassemble_misfit (hf : c.f = false) (hnone : (ctxsOf s u).filter (ofStream c) = []) :
    reassemble p u ctx inp c s = reasmErr u s := by
  unfold reassemble
  extract_lets mine l rest close
  have hx' : (l.filter mine).head? = none := by
    rw [show l.filter mine = [] from hnone]
    rfl
  rw [hf, if_neg Bool.false_ne_true, hx']

/-! By the cell's F and L bits. -/

theorem others_of_none (h : (ctxsOf s u).filter (ofStream c) = []) : others c u s = ctxsOf s u :=
  List.filter_eq_self.2 fun y hy => by simpa using List.filter_eq_nil_iff.1 h y hy

/-- A stream's own context leaves room. -/
theorem others_length_lt (hx : x ∈ ctxsOf s u) (hm : ofStream c x = true) : (others c u s).length < (ctxsOf s u).length :=
  List.length_filter_lt_length_iff_exists.2 ⟨x, hx, by simp [hm]⟩

theorem reassemble_opens (hf : c.f = true) (hl : c.l = false) (hnone : (ctxsOf s u).filter (ofStream c) = []) (h : (ctxsOf s u).length < 512) :
    reassemble p u ctx inp c s = setCtxs u (ctxsOf s u ++ [firstOf c]) s := by
  have hstay : displaced c u s = s := by rw [displaced, hnone]; rfl
  refine reassemble_first hf hl ?_
  rw [others_of_none hnone, hstay]
  exact openCtx_free h

theorem reassemble_replaces (hf : c.f = true) (hl : c.l = false) (hx : x ∈ ctxsOf s u) (hm : ofStream c x = true)
    (hd : ∀ x, x ∈ ctxsOf s u → x.discarding = false) (h : (ctxsOf s u).length ≤ 512) :
    reassemble p u ctx inp c s = setCtxs u (others c u s ++ [firstOf c]) (reasmErr u s) := by
  have herr : displaced c u s = reasmErr u s := by
    obtain ⟨y, l, hy⟩ := List.exists_cons_of_ne_nil (List.ne_nil_of_mem (List.mem_filter.2 ⟨hx, hm⟩))
    have hmem : y ∈ (ctxsOf s u).filter (ofStream c) := by rw [hy]; exact List.mem_cons_self
    rw [displaced, hy, List.head?_cons]
    exact if_neg (by rw [hd y (List.mem_filter.1 hmem).1]; exact Bool.false_ne_true)
  refine reassemble_first hf hl ?_
  rw [herr]
  exact openCtx_free (Nat.lt_of_lt_of_le (others_length_lt hx hm) h)

section
variable (hf : c.f = false) (hx : ((ctxsOf s u).filter (ofStream c)).head? = some x) (hd : x.discarding = false)
include hf hx hd

theorem reassemble_continues (hl : c.l = false) (h : x.cells < 128) :
    reassemble p u ctx inp c s =
      setCtxs u (others c u s ++ [{ x with cells := x.cells + 1, bytes := x.bytes ++ c.payload.take c.vlen }]) s := by
  rw [reassemble_next hf hx (addCell_next hd h), hl, if_neg Bool.false_ne_true]

theorem reassemble_overflows (hl : c.l = false) (h : 128 ≤ x.cells) :
    reassemble p u ctx inp c s = setCtxs u (others c u s ++ [{ x with discarding := true, bytes := [] }]) (reasmErr u s) := by
  rw [reassemble_next hf hx (addCell_tooMany hd h), hl, if_neg Bool.false_ne_true]

end

/-- With its context gone only the other streams are left. -/
theorem others_closing {t : State} {y : Reasm} (hy : ofStream c y = true) : others c u (setCtxs u (others c u s ++ [y]) t) = others c u s := by
  rw [others, ctxsOf_setCtxs_same, List.filter_append, others, List.filter_filter]
  simp [hy]

section
variable (hf : c.f = false) (hx : ((ctxsOf s u).filter (ofStream c)).head? = some x) (hd : x.discarding = false) (hl : c.l = true)
include hf hx hd hl

theorem reassemble_overflows_last (h : 128 ≤ x.cells) :
    reassemble p u ctx inp c s =
      setCtxs u (others c u s) (setCtxs u (others c u s ++ [{ x with discarding := true, bytes := [] }]) (reasmErr u s)) := by
  have hm : ofStream c x = true := (List.mem_filter.1 (List.mem_of_mem_head? hx)).2
  rw [reassemble_next hf hx (addCell_tooMany hd h), if_pos hl, closed, if_pos rfl, others_closing (by exact hm)]

theorem reassemble_ends (h : x.cells < 128) :
    reassemble p u ctx inp c s =
      deliverFrame p u (frameOf { x with cells := x.cells + 1, bytes := x.bytes ++ c.payload.take c.vlen } c ctx inp)
        (setCtxs u (others c u s)
          (setCtxs u (others c u s ++ [{ x with cells := x.cells + 1, bytes := x.bytes ++ c.payload.take c.vlen }]) s)) := by
  have hm : ofStream c x = true := (List.mem_filter.1 (List.mem_of_mem_head? hx)).2
  rw [reassemble_next hf hx (addCell_next hd h), if_pos hl, closed, if_neg (by rw [hd]; exact Bool.false_ne_true), others_closing (by exact hm)]

end

end

/-! The oldest cell that has arrived (R24, R213, R380). -/

/-- A cell has left its port, which owes its credit. -/
def cellTaken (n : Nat) (rest : List (Cell × Nat × Option Nat)) (s : State) : State :=
  oweCredit n false (updTuns (fun t => { t with arrived := Tab.set noCells n rest t.arrived }) s)

section
variable {n u : Nat} {rest : List (Cell × Nat × Option Nat)}

theorem cellTaken_kept : Keeps 4224 s (cellTaken n rest s) := oweCredit_keeps rfl (updTuns_keeps rfl (Keeps.refl _ s))

theorem cellTaken_tuns : (cellTaken n rest s).tuns = { s.tuns with arrived := Tab.set noCells n rest s.tuns.arrived } :=
  (oweCredit_keeps rfl (Keeps.refl 128 _)).tuns rfl

theorem ctxsOf_cellTaken : ctxsOf (cellTaken n rest s) u = ctxsOf s u := by
  rw [ctxsOf, cellTaken_tuns]
  rfl

theorem inbox_cellTaken : inbox (cellTaken n rest s) u = inbox s u := by
  rw [inbox, cellTaken_tuns]
  rfl

theorem arrived_cellTaken : Tab.get noCells (cellTaken n rest s).tuns.arrived n = rest := by
  rw [cellTaken_tuns]
  exact Tab.get_set_same noCells n rest s.tuns.arrived

theorem owedOf_cellTaken (h4 : 4 ≤ n) (h16 : n < 16) :
    owedOf (tolger (cellTaken n rest s) (n / 2) false) (n % 2) = owedOf (tolger s (n / 2) false) (n % 2) + 1 := by
  rw [cellTaken, oweCredit, if_pos ⟨h4, h16⟩]
  exact (congrArg (owedOf · (n % 2)) tolger_setTolger_same).trans
    (Tab.get_set_same zeroN (n % 2) (owedOf (tolger s (n / 2) false) (n % 2) + 1) (tolger s (n / 2) false).owed)

theorem setCtxs_cellTaken_only {l : List Reasm} : Only [.tuns, .tolger] s (setCtxs u l (cellTaken n rest s)) :=
  (setCtxs_keeps rfl cellTaken_kept).onlyOf (by decide)

/-- A count while a cell is taken. -/
theorem countsUp_cellTaken {a : Nat} {t : State} (ht : t.ctrs = (count a (cellTaken n rest s)).ctrs) : CountsUp a s t :=
  count_countsUp.between (cellTaken_kept.regs rfl) (cellTaken_kept.ctrs rfl) ht

end

section
variable {p : Fin 17} {c : Cell} {inp : Nat} {ctx : Option Nat} {rest : List (Cell × Nat × Option Nat)}

/-- At P16 a tunnelled cell needs its entry. -/
theorem hasEntry (h : p = 16 → c.tun = 0 ∨ ctx ≠ none) : ¬ (p.val = 16 ∧ c.tun ≠ 0 ∧ ctx = none) :=
  fun ⟨hp, ht, hc⟩ => (h (Fin.ext hp)).elim ht (· hc)

theorem exec_tunnelCellTerminate (ha : Tab.get noCells s.tuns.arrived p.val = (c, inp, ctx) :: rest) (h8 : p = 8 → s.hostIf.held = none) :
    exec (.tunnelCellTerminate p) s = .next
      (if p.val = 16 ∧ c.tun ≠ 0 ∧ ctx = none then count (cRTE 1) (cellTaken p.val rest s)
      else if unitTakes s p.val ctx c.typ = false then count (cTUN 2) (cellTaken p.val rest s)
      else reassemble p.val (unitOf p.val ctx c.typ) (ctx.getD 0) inp c (cellTaken p.val rest s)) := by
  have hfree : ¬ (p.val = 8 ∧ s.hostIf.held.isSome = true) := fun ⟨hp, hh⟩ => by
    rw [h8 (Fin.ext hp)] at hh
    exact Bool.false_ne_true hh
  have hunit : unitTakes (cellTaken p.val rest s) p.val ctx c.typ = unitTakes s p.val ctx c.typ := by
    unfold unitTakes isHead role
    rw [rd_congr (cellTaken_kept.regs rfl)]
  change execTunnelCellTerminate p s = _
  unfold execTunnelCellTerminate
  extract_lets n
  rw [ha]
  dsimp only
  rw [if_neg hfree]
  change (if _ then _ else if (!unitTakes (cellTaken p.val rest s) p.val ctx c.typ) = true then _ else _) = _
  simp only [hunit, Bool.not_eq_true']
  split
  · rfl
  · split <;> rfl

/-- Nothing but the taken cell's credit concerns the Tolger links. -/
theorem exec_tunnelCellTerminate_tolger (ha : Tab.get noCells s.tuns.arrived p.val = (c, inp, ctx) :: rest) (h8 : p = 8 → s.hostIf.held = none) :
    ∃ t, exec (.tunnelCellTerminate p) s = .next t ∧ t.tolger = (cellTaken p.val rest s).tolger := by
  refine ⟨_, exec_tunnelCellTerminate ha h8, ?_⟩
  split
  · exact count_kept.tolger rfl
  · split
    · exact count_kept.tolger rfl
    · exact (reassemble_keeps rfl (Keeps.refl 11811312662 _)).tolger rfl

end

/-! A whole FLIP frame (R365). -/

theorem deliverFrame_flip {p u : Nat} {f : Frame} (hp : p = 10 ∨ p = 11) (ht : f.typ ≠ 0) (hg : flipGood f = true) :
    deliverFrame p u f s = intoInbox p f s := by
  rcases hp with rfl | rfl <;> exact (if_neg ht).trans (if_pos hg)

theorem inbox_intoInbox_same {u : Nat} {f : Frame} : inbox (intoInbox u f s) u = inbox s u ++ [f] :=
  Tab.get_set_same noCells u (inbox s u ++ [f]) s.tuns.inbox

/-! TUN_RESET_CTX (R280). -/

/-- The contexts of a tunnel at one unit close. -/
def closeTunnel (i u : Nat) (s : State) : State :=
  setCtxs u ((ctxsOf s u).filter fun r => r.tun != i)
    (forAll (((ctxsOf s u).filter fun r => r.tun == i).filter fun r => !r.discarding) (fun _ => reasmErr u) s)

theorem reasmErrs_kept {α : Type} {u : Nat} {l : List α} : Keeps 131092 s (forAll l (fun _ => reasmErr u) s) :=
  forAll_keeps rfl (fun _ _ h => reasmErr_keeps rfl h) (Keeps.refl _ s)

theorem closeTunnel_kept {i u : Nat} : Keeps 135188 s (closeTunnel i u s) :=
  setCtxs_keeps rfl (forAll_keeps rfl (fun _ _ h => reasmErr_keeps rfl h) (Keeps.refl _ s))

theorem ctxsOf_closeTunnel {i u v : Nat} :
    ctxsOf (closeTunnel i u s) v = if v = u then (ctxsOf s v).filter fun r => r.tun != i else ctxsOf s v := by
  split
  next h =>
    subst h
    exact ctxsOf_setCtxs_same
  next h => exact (ctxsOf_setCtxs_other h).trans (ctxsOf_congr (reasmErrs_kept.tuns rfl) v)

theorem ctxsOf_closeTunnels {i v n : Nat} :
    ctxsOf (forAll (List.range n) (closeTunnel i) s) v = if v < n then (ctxsOf s v).filter fun r => r.tun != i else ctxsOf s v := by
  induction n with
  | zero => rfl
  | succ n ih =>
    have hstep : forAll (List.range (n + 1)) (closeTunnel i) s = closeTunnel i n (forAll (List.range n) (closeTunnel i) s) := by
      rw [forAll, List.range_succ, List.foldl_append]
      rfl
    rw [hstep, ctxsOf_closeTunnel, ih]
    by_cases hv : v = n
    · simp [hv]
    · simp only [hv, if_false, show v < n + 1 ↔ v < n by omega]

theorem closeTunnels_kept {i n : Nat} : Keeps 135188 s (forAll (List.range n) (closeTunnel i) s) :=
  forAll_keeps rfl (fun _ _ h => h.trans closeTunnel_kept) (Keeps.refl _ s)

theorem wctx_updBrg {t : State} {p : WriteCtx → Bool} (h : t.brg = s.brg) :
    (updBrg (fun b => { b with wctx := b.wctx.filter p }) t).brg.wctx = s.brg.wctx.filter p := by
  rw [← h]
  rfl

theorem exec_tunResetCtx {o : Origin} {body : List Byte} (hm : mayDispatch s o = true) (hl : body.length = 4) (hi : field body 0 2 < 16384)
    (hz : zeroAt body 2 2 = true) :
    exec (.tunResetCtx o body) s = .next (reply o ST_OK []
      (updBrg (fun b => { b with wctx := b.wctx.filter fun w => w.tun != field body 0 2 })
        (forAll (List.range 16) (closeTunnel (field body 0 2)) (dispatch o s)))) := by
  change execTunResetCtx o body s = _
  unfold execTunResetCtx
  rw [command_runs hm hl]
  refine congrArg Host.Outcome.next ((if_neg ?_).trans rfl)
  simpa [hz] using hi

end

/-- Settles O27: a cell's case by its F and L bits and the context of its stream; a reset unit by unit. -/
theorem cellsAreReassembled : Obligations.CellsAreReassembled := by
  unfold Obligations.CellsAreReassembled
  refine ⟨fun p c inp ctx rest s ha => ⟨fun h8 hheld => ?_, fun h4 h16 h8 => ?_, fun hp ht hc => ?_, fun h8 h16 => ⟨fun hu => ?_,
    fun hu u mine hunit hmine => ?_⟩⟩,
    fun o body i s hm hl hi hlt hz => ?_⟩
  case refine_1 =>
    subst h8
    change execTunnelCellTerminate 8 s = _
    unfold execTunnelCellTerminate
    extract_lets n
    rw [ha]
    exact if_pos ⟨rfl, hheld⟩
  case refine_2 =>
    obtain ⟨t, ht, htol⟩ := exec_tunnelCellTerminate_tolger ha h8
    exact ⟨t, ht, by rw [tolger_congr htol, owedOf_cellTaken h4 h16]⟩
  case refine_3 =>
    subst hp
    have hexec := exec_tunnelCellTerminate ha (fun h => absurd h (by decide))
    rw [if_pos ⟨rfl, ht, hc⟩] at hexec
    refine ⟨_, hexec, countsUp_cellTaken rfl, ?_, ?_⟩
    · rw [count_tuns]
      exact arrived_cellTaken
    · rw [count_tuns, cellTaken_tuns]
  case refine_4 =>
    have hexec := exec_tunnelCellTerminate ha h8
    rw [if_neg (hasEntry h16), if_pos hu] at hexec
    refine ⟨_, hexec, countsUp_cellTaken rfl, ?_, ?_⟩
    · rw [count_tuns]
      exact arrived_cellTaken
    · rw [count_tuns, cellTaken_tuns]
  case refine_5 =>
    subst hunit hmine
    have hexec := exec_tunnelCellTerminate ha h8
    rw [if_neg (hasEntry h16), if_neg (by rw [hu]; exact Bool.noConfusion)] at hexec
    generalize unitOf p.val ctx c.typ = u at hexec ⊢
    have hctx : ctxsOf (cellTaken p.val rest s) u = ctxsOf s u := ctxsOf_cellTaken
    rw [← hctx]
    refine ⟨fun hf hl hnone hlt => ?_, fun hf hl hx hd hle => ?_, fun hf hnone => ?_, fun x hf hl hx hd hlt => ?_, fun x hf hx hd hle => ?_,
      fun x hf hl hx hd hlt hp g hg ht hgood => ?_⟩
    · rw [reassemble_opens hf hl hnone hlt] at hexec
      exact ⟨_, hexec, ctxsOf_setCtxs_same, arrived_cellTaken, setCtxs_cellTaken_only⟩
    · obtain ⟨x, hx, hm⟩ := hx
      rw [reassemble_replaces hf hl hx hm hd hle] at hexec
      exact ⟨_, hexec, countsUp_cellTaken rfl, ctxsOf_setCtxs_same⟩
    · rw [reassemble_misfit hf hnone] at hexec
      exact ⟨_, hexec, countsUp_cellTaken rfl, ctxsOf_congr (reasmErr_kept.tuns rfl) u⟩
    · rw [reassemble_continues hf hx hd hl hlt] at hexec
      exact ⟨_, hexec, ctxsOf_setCtxs_same, setCtxs_cellTaken_only⟩
    · cases hl : c.l
      · rw [reassemble_overflows hf hx hd hl hle] at hexec
        exact ⟨_, hexec, countsUp_cellTaken rfl, fun _ => ctxsOf_setCtxs_same, fun h => nomatch h⟩
      · rw [reassemble_overflows_last hf hx hd hl hle] at hexec
        exact ⟨_, hexec, countsUp_cellTaken rfl, fun h => (nomatch h), fun _ => ctxsOf_setCtxs_same⟩
    · have hframe : frameOf { x with cells := x.cells + 1, bytes := x.bytes ++ c.payload.take c.vlen } c (ctx.getD 0) inp = g := hg.symm
      rw [reassemble_ends hf hx hd hl hlt, hframe,
        deliverFrame_flip (hp.imp (congrArg Fin.val) (congrArg Fin.val)) (by rw [hg]; exact ht) hgood] at hexec
      refine ⟨_, hexec, inbox_intoInbox_same.trans (congrArg (· ++ [g]) ?_), ctxsOf_setCtxs_same, ?_⟩
      · exact inbox_cellTaken
      · exact (intoInbox_keeps rfl (setCtxs_keeps rfl (setCtxs_keeps rfl cellTaken_kept))).onlyOf (by decide)
  case refine_6 =>
    subst hi
    refine ⟨_, exec_tunResetCtx hm hl hlt hz, fun u hu => ?_, ?_⟩
    · rw [ctxsOf_congr (reply_kept.tuns rfl), ctxsOf_congr updBrg_tuns, ctxsOf_closeTunnels, if_pos hu]
      rfl
    · have hbrg : (forAll (List.range 16) (closeTunnel (field body 0 2)) (dispatch o s)).brg = s.brg :=
        (closeTunnels_kept.brg rfl).trans dispatch_brg
      rw [reply_kept.brg rfl, wctx_updBrg hbrg]

end Sys2Proof.Machine
end

section
/-! The transfer proxy (R337 to R342): the registers and sources its work leaves alone, and what it puts into its event ring, its contexts and
its rings. -/

namespace Sys2Proof.Machine

/-- From `s` to `t` only PRX_STAT may have changed of the registers, its RUN has not, and sources have at most become pending. -/
structure ProxyAside (s t : State) : Prop where
  variant : t.variant = s.variant
  domains : t.domains = s.domains
  regs : ∀ f : Fld, f.addr % 2147483648 ≠ 1077936156 → rd f t = rd f s
  runs : ∀ d, proxyRuns t d = proxyRuns s d
  idle : ∀ n, srcSt s n = .idle → srcSt t n = .idle ∨ srcSt t n = .pending
  pending : ∀ n, srcSt s n = .pending → srcSt t n = .pending

section
variable {s t u : State}

theorem ProxyAside.refl : ProxyAside s s := ⟨rfl, rfl, fun _ _ => rfl, fun _ => rfl, fun _ h => .inl h, fun _ h => h⟩

theorem ProxyAside.trans (h : ProxyAside s t) (g : ProxyAside t u) : ProxyAside s u :=
  ⟨g.variant.trans h.variant, g.domains.trans h.domains, fun f hf => (g.regs f hf).trans (h.regs f hf), fun d => (g.runs d).trans (h.runs d),
    fun n hn => (h.idle n hn).elim (g.idle n) fun hp => .inr (g.pending n hp), fun n hn => g.pending n (h.pending n hn)⟩

/-- What touches no register, source or domain. -/
theorem ProxyAside.keeps {m : Nat} (h : ProxyAside s t) (k : Keeps m t u) (hr : m.testBit 1 = false) (hs : m.testBit 4 = false)
    (hd : m.testBit 8 = false) : ProxyAside s u :=
  h.trans ⟨k.variant, k.domains hd, fun f _ => rd_congr (k.regs hr) f, fun _ => congrArg (· == 1) (rd_congr (k.regs hr) _),
    fun n hn => .inl ((srcSt_congr (k.srcs hs) n).trans hn), fun n hn => (srcSt_congr (k.srcs hs) n).trans hn⟩

theorem ProxyAside.ite {c : Prop} [Decidable c] {a b : State} (ha : ProxyAside s a) (hb : ProxyAside s b) :
    ProxyAside s (if c then a else b) := by
  split
  · exact ha
  · exact hb

theorem ProxyAside.forAll {α : Type} {l : List α} {f : α → State → State} (hf : ∀ a u, ProxyAside s u → ProxyAside s (f a u))
    (h : ProxyAside s t) : ProxyAside s (forAll l f t) := by
  unfold Machine.forAll
  induction l generalizing t with
  | nil => exact h
  | cons a l ih => exact ih (hf a t h)

/-! Its steps. -/

/-- A source that was idle when it fires, or has fired already, is pending. -/
theorem srcSt_raise_quiet {n : Nat} (ha : srcAlive s n = true) (h : srcSt s n = .idle ∨ srcSt s n = .pending) : srcSt (raise n s) n = .pending :=
  h.elim (srcSt_raise_idle ha) srcSt_raise_pending

theorem srcSt_raise_of_idle {m n : Nat} (h : srcSt s m = .idle) : srcSt (raise n s) m = .idle ∨ srcSt (raise n s) m = .pending := by
  by_cases hm : m = n
  · subst hm
    cases ha : srcAlive s m
    · unfold raise
      rw [ha]
      exact .inl h
    · exact .inr (srcSt_raise_idle ha h)
  · exact .inl ((srcSt_raise_other hm).trans h)

theorem ProxyAside.raise {n : Nat} (h : ProxyAside s t) : ProxyAside s (raise n t) :=
  h.trans ⟨raise_variant, raise_domains, fun f _ => rd_congr raise_regs f, fun _ => congrArg (· == 1) (rd_congr raise_regs _),
    fun _ => srcSt_raise_of_idle, fun _ => srcSt_raise_pending⟩

theorem ProxyAside.logErr {c l d : Nat} (h : ProxyAside s t) : ProxyAside s (logErr c l d t) := by
  unfold Machine.logErr
  exact ProxyAside.raise (h.trans ⟨rfl, rfl, fun _ _ => rfl, fun _ => rfl, fun _ hn => .inl hn, fun _ hn => hn⟩)

theorem ProxyAside.count {a : Nat} (h : ProxyAside s t) : ProxyAside s (count a t) := by
  have hset : ∀ c, ProxyAside s (ctrSet a c t) := fun c => h.keeps (m := 4) (ctrSet_keeps rfl (Keeps.refl _ t)) rfl rfl rfl
  unfold Machine.count Machine.countBy
  exact .ite (hset _) (.ite h (.ite (hset _) (.logErr (.raise (hset _)))))

/-- A field of PRX_STAT beside RUN. -/
theorem ProxyAside.wrStat {f : Fld} {x : Nat} (h : ProxyAside s t) (hf : f.addr % 2147483648 = 1077936156) (hw : f.lo + f.w ≤ 31) :
    ProxyAside s (wr f x t) :=
  h.trans ⟨wr_variant, wr_domains, fun g hg => rd_wr_other (.inl fun hfg => hg (hfg ▸ hf)),
    fun d => congrArg (· == 1) (rd_wr_other (.inr ⟨by omega, .inl hw⟩)), fun n hn => .inl ((srcSt_congr wr_srcs n).trans hn),
    fun n hn => (srcSt_congr wr_srcs n).trans hn⟩

theorem ProxyAside.originate {slot tun : Nat} {l : List Byte} (h : ProxyAside s t) : ProxyAside s (originate slot tun l t) := by
  unfold Machine.originate
  split
  · exact h.count
  next e _ =>
    refine .ite h.count (.ite h ?_)
    have hk := stampFn_keeps (a0 := tun) (a1 := orgTYP e) (a2 := l) (M := 7296) rfl (Keeps.refl _ t)
    split
    next l' t' heq =>
    rw [heq] at hk
    refine h.keeps (m := 7296) ?_ rfl rfl rfl
    exact .ite (releaseCells_keeps rfl hk) (.ite (releaseCells_keeps rfl (setShaper_keeps rfl hk)) (updSched_keeps rfl hk))

theorem ProxyAside.sendNotify {d : Nat} (h : ProxyAside s t) : ProxyAside s (sendNotify d t) := by
  have hsaid := h.keeps (updProxy_keeps (a0 := d) (a1 := fun p => { p with unsaid := false }) rfl (Keeps.refl 33554432 t)) rfl rfl rfl
  exact .ite hsaid hsaid.originate

theorem prxStat_addr {d : Nat} : (1077936156 + d * 2147483648) % 2147483648 = 1077936156 := by omega

theorem ProxyAside.evShow {d : Nat} (h : ProxyAside s t) : ProxyAside s (evShow d t) := by
  have hshown (x : Nat) := h.wrStat (f := Reg.USB.PRX_STAT.EVFULL d) (x := x) prxStat_addr (Nat.le_of_ble_eq_true rfl)
  exact .ite (hshown _).raise (hshown _)

theorem ProxyAside.prxShow {d : Nat} (h : ProxyAside s t) : ProxyAside s (prxShow d t) := by
  have hper (x : Nat) := h.wrStat (f := Reg.USB.PRX_STAT.PERHOLD d) (x := x) prxStat_addr (Nat.le_of_ble_eq_true rfl)
  exact (hper _).wrStat prxStat_addr (Nat.le_of_ble_eq_true rfl)

theorem ProxyAside.deepWrites {a : Nat} {l : List Byte} (h : ProxyAside s t) : ProxyAside s (deepWrites a l t) :=
  h.keeps (deepWrites_keeps rfl (Keeps.refl 32768 t)) rfl rfl rfl

theorem ProxyAside.updProxy {d : Nat} {f : Proxy → Proxy} (h : ProxyAside s t) : ProxyAside s (updProxy d f t) :=
  h.keeps (updProxy_keeps rfl (Keeps.refl 33554432 t)) rfl rfl rfl

theorem ProxyAside.setRing {d r : Nat} {x : Ring} (h : ProxyAside s t) : ProxyAside s (setRing d r x t) := h.updProxy

theorem ProxyAside.writeEvent {d actlen index r code kind : Nat} {cookie : List Byte} (h : ProxyAside s t) :
    ProxyAside s (writeEvent d cookie actlen index r code kind t) := by
  have hput (a a' : Nat) (l l' : List Byte) (f : Proxy → Proxy) :
      ProxyAside s (Machine.evShow d (Machine.updProxy d f (Machine.deepWrites a' l' (Machine.deepWrites a l t)))) :=
    h.deepWrites.deepWrites.updProxy.evShow
  exact .ite h (.ite (hput _ _ _ _ _).sendNotify (hput _ _ _ _ _))

theorem ProxyAside.ringState {d r st : Nat} (h : ProxyAside s t) : ProxyAside s (ringState d r st t) := h.setRing.deepWrites.prxShow

/-- The event of a completion, where it writes one (R337). -/
def noted (d r code actlen : Nat) (x : Desc) (s : State) : State :=
  if code ≠ 0 ∨ bit 0 x.flags = true then writeEvent d x.cookie actlen x.index r code 1 s else s

/-- CI goes on, in the ring and in its context. -/
def advanced (d r : Nat) (s : State) : State :=
  let ci := ((ring s d r).ci + 1) % 65536
  let s := setRing d r { ring s d r with ci := ci, cur := none } s
  deepWrites ((proxy s d).base + 32 * r + 12) (leBytes 2 ci) s

theorem complete_eq {d r code actlen : Nat} {x : Desc} :
    complete d r code actlen x s =
      if halts code = true then ringState d r 2 (advanced d r (noted d r code actlen x s)) else advanced d r (noted d r code actlen x s) := by
  rfl

theorem ProxyAside.complete {d r code actlen : Nat} {x : Desc} (h : ProxyAside s t) : ProxyAside s (complete d r code actlen x t) := by
  have hnoted : ProxyAside s (noted d r code actlen x t) := .ite h.writeEvent h
  have hadvanced : ProxyAside s (advanced d r (noted d r code actlen x t)) := hnoted.setRing.deepWrites
  rw [complete_eq]
  exact .ite hadvanced.ringState hadvanced

theorem ProxyAside.stopRing {d r : Nat} (h : ProxyAside s t) : ProxyAside s (stopRing d r t) := by
  unfold Machine.stopRing
  refine .ite (ProxyAside.writeEvent (.ringState ?_)) h
  split
  · exact h.setRing.writeEvent
  · exact h

/-! The proxy and its rings. -/

variable {d r : Nat}

@[simp] theorem proxy_setProxy_same {p : Proxy} : proxy (setProxy d p s) d = p := Tab.get_set_same (fun _ => Proxy.reset) d p s.proxies

@[simp] theorem proxy_updProxy_same {f : Proxy → Proxy} : proxy (updProxy d f s) d = f (proxy s d) := proxy_setProxy_same

theorem proxy_congr (h : t.proxies = s.proxies) (d : Nat) : proxy t d = proxy s d := by
  unfold proxy
  rw [h]

theorem ring_congr (h : (proxy t d).rings = (proxy s d).rings) (r : Nat) : ring t d r = ring s d r := by
  unfold ring
  rw [h]

@[simp] theorem ring_setRing_same {x : Ring} : ring (setRing d r x s) d r = x := by
  rw [ring, setRing, proxy_updProxy_same]
  exact Tab.get_set_same (fun _ => Ring.reset) r x (proxy s d).rings

theorem ring_setRing_other {q : Nat} {x : Ring} (h : q ≠ r) : ring (setRing d r x s) d q = ring s d q := by
  rw [ring, setRing, proxy_updProxy_same]
  exact Tab.get_set_other (fun _ => Ring.reset) h x (proxy s d).rings

/-! What lies in the contexts of a proxy (Table 13.1). -/

/-- From `s` to `t` the rings, the event indexes and the Deep Comb inside the proxy's contexts may have changed, nothing else of both. -/
structure InContexts (d : Nat) (s t : State) : Prop where
  base : (proxy t d).base = (proxy s d).base
  evBase : (proxy t d).evBase = (proxy s d).evBase
  evSize : (proxy t d).evSize = (proxy s d).evSize
  evCi : (proxy t d).evCi = (proxy s d).evCi
  evPi : (proxy t d).evPi = (proxy s d).evPi
  deep : ∀ a, a < (proxy s d).base ∨ (proxy s d).base + 0xA40 ≤ a → deepRead t a = deepRead s a

theorem InContexts.refl : InContexts d s s := ⟨rfl, rfl, rfl, rfl, rfl, fun _ _ => rfl⟩

theorem InContexts.trans (h : InContexts d s t) (g : InContexts d t u) : InContexts d s u :=
  ⟨g.base.trans h.base, g.evBase.trans h.evBase, g.evSize.trans h.evSize, g.evCi.trans h.evCi, g.evPi.trans h.evPi,
    fun a ha => (g.deep a (by rw [h.base]; exact ha)).trans (h.deep a ha)⟩

/-- What touches neither the proxies nor the Deep Comb. -/
theorem InContexts.of_eq (hp : t.proxies = s.proxies) (hd : t.deep = s.deep) : InContexts d s t := by
  have hproxy := proxy_congr hp d
  refine ⟨by rw [hproxy], by rw [hproxy], by rw [hproxy], by rw [hproxy], by rw [hproxy], fun a _ => ?_⟩
  unfold deepRead
  rw [hd]

theorem InContexts.setRing {x : Ring} : InContexts d s (setRing d r x s) := by
  have hproxy : proxy (Machine.setRing d r x s) d = _ := proxy_updProxy_same
  exact ⟨by rw [hproxy], by rw [hproxy], by rw [hproxy], by rw [hproxy], by rw [hproxy], fun _ _ => rfl⟩

theorem InContexts.deepWrites {a : Nat} {l : List Byte} (h : (proxy s d).base ≤ a) (hl : a + l.length ≤ (proxy s d).base + 0xA40) :
    InContexts d s (deepWrites a l s) :=
  ⟨rfl, rfl, rfl, rfl, rfl, fun _ hx => deepRead_deepWrites_other (by omega)⟩

theorem InContexts.ringState {st : Nat} (hr : r < 64) : InContexts d s (ringState d r st s) := by
  unfold Machine.ringState
  extract_lets _ s1
  have hset : InContexts d s s1 := .setRing
  have hlen : (leBytes 1 st).length = 1 := rfl
  have hwrite : InContexts d s1 (Machine.deepWrites ((proxy s1 d).base + 32 * r + 16) (leBytes 1 st) s1) := .deepWrites (by omega) (by omega)
  exact (hset.trans hwrite).trans (.of_eq ((prxShow_keeps rfl (Keeps.refl 2 _)).proxies rfl) ((prxShow_keeps rfl (Keeps.refl 2 _)).deep rfl))

theorem InContexts.advanced (hr : r < 64) : InContexts d s (advanced d r s) := by
  unfold Machine.advanced
  extract_lets ci _ s1
  have hset : InContexts d s s1 := .setRing
  have hlen : (leBytes 2 ci).length = 2 := rfl
  exact hset.trans (.deepWrites (by omega) (by omega))

end

end Sys2Proof.Machine
end

section
/-! Events, completions and ring states of the transfer proxy (R337 to R342): what each leaves in the rings, the event ring and the Deep Comb. -/

namespace Sys2Proof.Machine

section
variable {s t u : State} {d r : Nat}

theorem deepReads_eq {a n : Nat} (h : ∀ k, k < n → deepRead t (a + k) = deepRead s (a + k)) : deepReads t a n = deepReads s a n :=
  List.map_congr_left fun k hk => h k (List.mem_range.1 hk)

/-! One event (R339, R340). -/

/-- Where the next event is written. -/
def eventAt (s : State) (d : Nat) : Nat := (proxy s d).evBase + 32 * ((proxy s d).evPi % 2 ^ (proxy s d).evSize)

/-- An event and the event ring's PI in the Deep Comb. -/
def eventStored (d : Nat) (b : List Byte) (s : State) : State :=
  deepWrites ((proxy s d).base + 0x800 + 14) (leBytes 2 (((proxy s d).evPi + 1) % 65536)) (deepWrites (eventAt s d) b s)

/-- An event is in its ring, not announced yet. -/
def eventPut (d : Nat) (b : List Byte) (s : State) : State :=
  evShow d (updProxy d (fun p => { p with evPi := ((proxy s d).evPi + 1) % 65536, unsaid := true }) (eventStored d b s))

section
variable {cookie : List Byte} {actlen index code kind : Nat}

theorem writeEvent_full (h : evFree s d = 0) : writeEvent d cookie actlen index r code kind s = s := if_pos h

theorem writeEvent_room (h : evFree s d ≠ 0) :
    writeEvent d cookie actlen index r code kind s = sendNotify d (eventPut d (eventBytes s d cookie actlen index r code kind) s) ∨
      writeEvent d cookie actlen index r code kind s = eventPut d (eventBytes s d cookie actlen index r code kind) s := by
  have hbytes : padTo 8 cookie ++ leBytes 4 actlen ++ leBytes 2 index ++ leBytes 1 r ++ leBytes 1 code ++ leBytes 8 (lineNs s) ++
      [0, 0, 0, 0] ++ leBytes 1 kind ++ [0, 0] ++ leBytes 1 (ofBool (bit (proxy s d).evSize (proxy s d).evPi)) =
        eventBytes s d cookie actlen index r code kind := by
    cases hb : bit (proxy s d).evSize (proxy s d).evPi <;> simp [eventBytes, leBytes, ofBool, hb]
  unfold writeEvent
  rw [if_neg h, ← hbytes]
  exact ite_eq_or_eq _ _ _

theorem eventBytes_length : (eventBytes s d cookie actlen index r code kind).length = 32 := by
  simp [eventBytes, padTo, leBytes]

end

/-- A NOTIFY changes nothing of the proxy but that it has been said. -/
theorem proxy_sendNotify : proxy (sendNotify d s) d = { proxy s d with unsaid := false } := by
  unfold sendNotify
  extract_lets n v
  have hv : proxy v d = { proxy s d with unsaid := false } := proxy_updProxy_same
  split
  · exact hv
  · exact (proxy_congr ((originate_keeps rfl (Keeps.refl 138388 v)).proxies rfl) d).trans hv

theorem sendNotify_deep : (sendNotify d s).deep = s.deep := (sendNotify_keeps rfl (Keeps.refl 33692820 s)).deep rfl

theorem proxy_eventPut {b : List Byte} :
    proxy (eventPut d b s) d = { proxy s d with evPi := ((proxy s d).evPi + 1) % 65536, unsaid := true } :=
  (proxy_congr ((evShow_keeps rfl (Keeps.refl 18 _)).proxies rfl) d).trans proxy_updProxy_same

theorem eventPut_deep {b : List Byte} : (eventPut d b s).deep = (eventStored d b s).deep := (evShow_keeps rfl (Keeps.refl 18 _)).deep rfl

section
variable {cookie : List Byte} {actlen index code kind : Nat}

theorem proxy_writeEvent (h : evFree s d ≠ 0) : ∃ b, proxy (writeEvent d cookie actlen index r code kind s) d =
    { proxy s d with evPi := ((proxy s d).evPi + 1) % 65536, unsaid := b } := by
  rcases writeEvent_room (r := r) (cookie := cookie) (actlen := actlen) (index := index) (code := code) (kind := kind) h with hw | hw
  · exact ⟨false, by rw [hw, proxy_sendNotify, proxy_eventPut]⟩
  · exact ⟨true, by rw [hw, proxy_eventPut]⟩

theorem writeEvent_deep (h : evFree s d ≠ 0) : (writeEvent d cookie actlen index r code kind s).deep =
    (eventStored d (eventBytes s d cookie actlen index r code kind) s).deep := by
  rcases writeEvent_room (r := r) (cookie := cookie) (actlen := actlen) (index := index) (code := code) (kind := kind) h with hw | hw
  · rw [hw, sendNotify_deep, eventPut_deep]
  · rw [hw, eventPut_deep]

/-- What an event leaves of its proxy. -/
theorem writeEvent_keepsProxy : (proxy (writeEvent d cookie actlen index r code kind s) d).rings = (proxy s d).rings ∧
    (proxy (writeEvent d cookie actlen index r code kind s) d).base = (proxy s d).base := by
  by_cases h : evFree s d = 0
  · rw [writeEvent_full h]
    exact ⟨rfl, rfl⟩
  · obtain ⟨b, hb⟩ := proxy_writeEvent (r := r) (cookie := cookie) (actlen := actlen) (index := index) (code := code) (kind := kind) h
    rw [hb]
    exact ⟨rfl, rfl⟩

@[simp] theorem ring_writeEvent {q : Nat} : ring (writeEvent d cookie actlen index r code kind s) d q = ring s d q :=
  ring_congr writeEvent_keepsProxy.1 q

theorem eventAt_lt : eventAt s d + 32 ≤ (proxy s d).evBase + 32 * 2 ^ (proxy s d).evSize := by
  have := Nat.mod_lt (proxy s d).evPi (Nat.two_pow_pos (proxy s d).evSize)
  unfold eventAt
  omega

theorem eventWritten_writeEvent (h : evFree s d ≠ 0) (ha : EventsApart s d) :
    EventWritten s (writeEvent d cookie actlen index r code kind s) d (eventBytes s d cookie actlen index r code kind) := by
  obtain ⟨b, hb⟩ := proxy_writeEvent (r := r) (cookie := cookie) (actlen := actlen) (index := index) (code := code) (kind := kind) h
  refine ⟨by rw [hb], ?_⟩
  have hin := eventAt_lt (s := s) (d := d)
  have hstart : (proxy s d).evBase ≤ eventAt s d := Nat.le_add_right _ _
  rw [deepReads_congr (writeEvent_deep h)]
  refine (deepReads_eq fun k hk => deepRead_deepWrites_other ?_).trans ?_
  · have hlen : (leBytes 2 (((proxy s d).evPi + 1) % 65536)).length = 2 := rfl
    change eventAt s d + k < _ ∨ _ ≤ eventAt s d + k
    rcases ha with ha | ha <;> omega
  · have hread := deepReads_deepWrites (s := s) (a := eventAt s d) (l := eventBytes s d cookie actlen index r code kind)
    rw [eventBytes_length] at hread
    exact hread

/-- An event writes nothing outside its ring and the contexts. -/
theorem deepRead_writeEvent {x : Nat} (hc : x < (proxy s d).base ∨ (proxy s d).base + 0xA40 ≤ x)
    (he : x < (proxy s d).evBase ∨ (proxy s d).evBase + 32 * 2 ^ (proxy s d).evSize ≤ x) :
    deepRead (writeEvent d cookie actlen index r code kind s) x = deepRead s x := by
  by_cases h : evFree s d = 0
  · rw [writeEvent_full h]
  · have hin := eventAt_lt (s := s) (d := d)
    have hstart : (proxy s d).evBase ≤ eventAt s d := Nat.le_add_right _ _
    have hlen : (leBytes 2 (((proxy s d).evPi + 1) % 65536)).length = 2 := rfl
    have hlen' := eventBytes_length (s := s) (d := d) (r := r) (cookie := cookie) (actlen := actlen) (index := index) (code := code) (kind := kind)
    have hdeep := congrArg (Tab.get deepDefault · x)
      (writeEvent_deep (r := r) (cookie := cookie) (actlen := actlen) (index := index) (code := code) (kind := kind) h)
    exact hdeep.trans ((deepRead_deepWrites_other (by omega)).trans (deepRead_deepWrites_other (by omega)))

end

/-- What happens in the contexts later leaves a written event. -/
theorem EventWritten.later {b : List Byte} (h : EventWritten s t d b) (hb : (proxy t d).base = (proxy s d).base) (ha : EventsApart s d)
    (hk : InContexts d t u) : EventWritten s u d b := by
  have hin := eventAt_lt (s := s) (d := d)
  have hstart : (proxy s d).evBase ≤ eventAt s d := Nat.le_add_right _ _
  refine ⟨hk.evPi.trans h.1, (deepReads_eq fun k hk' => hk.deep _ ?_).trans h.2⟩
  change eventAt s d + k < _ ∨ _ ≤ eventAt s d + k
  rw [hb]
  rcases ha with ha | ha <;> omega

/-! A ring's state and a completion. -/

theorem ring_ringState_same {st : Nat} : ring (ringState d r st s) d r = { ring s d r with st := st } := by
  unfold ringState
  extract_lets _ v
  have hv : ring v d r = { ring s d r with st := st } := ring_setRing_same
  rw [← hv]
  exact ring_congr (congrArg Proxy.rings (proxy_congr ((prxShow_keeps rfl (Keeps.refl 2 _)).proxies rfl) d)) r

theorem ring_ringState_other {q st : Nat} (h : q ≠ r) : ring (ringState d r st s) d q = ring s d q := by
  unfold ringState
  extract_lets _ v
  have hv : ring v d q = ring s d q := ring_setRing_other h
  rw [← hv]
  exact ring_congr (congrArg Proxy.rings (proxy_congr ((prxShow_keeps rfl (Keeps.refl 2 _)).proxies rfl) d)) q

theorem ring_advanced : ring (advanced d r s) d r = { ring s d r with ci := ((ring s d r).ci + 1) % 65536, cur := none } := ring_setRing_same

section
variable {code actlen : Nat} {x : Desc}

theorem ring_noted {q : Nat} : ring (noted d r code actlen x s) d q = ring s d q := by
  unfold noted
  split
  · exact ring_writeEvent
  · rfl

theorem ring_complete : ring (complete d r code actlen x s) d r =
    { ring s d r with st := if halts code = true then 2 else (ring s d r).st, ci := ((ring s d r).ci + 1) % 65536, cur := none } := by
  rw [complete_eq]
  split
  · rw [ring_ringState_same, ring_advanced, ring_noted]
  · rw [ring_advanced, ring_noted]

/-- After its event a completion works in the contexts. -/
theorem complete_inContexts (hr : r < 64) : InContexts d (noted d r code actlen x s) (complete d r code actlen x s) := by
  rw [complete_eq]
  split
  · exact (InContexts.advanced hr).trans (.ringState hr)
  · exact .advanced hr

theorem complete_eventWritten (hr : r < 64) (h : 0 < evFree s d) (ha : EventsApart s d) (hc : code ≠ 0 ∨ bit 0 x.flags = true) :
    EventWritten s (complete d r code actlen x s) d (eventBytes s d x.cookie actlen x.index r code 1) := by
  have hnoted : noted d r code actlen x s = writeEvent d x.cookie actlen x.index r code 1 s := if_pos hc
  have hin := complete_inContexts (s := s) (d := d) (code := code) (actlen := actlen) (x := x) hr
  rw [hnoted] at hin
  exact (eventWritten_writeEvent (Nat.ne_of_gt h) ha).later writeEvent_keepsProxy.2 ha hin

/-- A success that asks for no event writes none. -/
theorem complete_silent (hr : r < 64) (hc : bit 0 x.flags = false) : (proxy (complete d r 0 actlen x s) d).evPi = (proxy s d).evPi := by
  have hnoted : noted d r 0 actlen x s = s := if_neg (by simp [hc])
  have hin := complete_inContexts (s := s) (d := d) (code := 0) (actlen := actlen) (x := x) hr
  rw [hnoted] at hin
  exact hin.evPi

theorem deepRead_complete {y : Nat} (hr : r < 64) (hc : y < (proxy s d).base ∨ (proxy s d).base + 0xA40 ≤ y)
    (he : y < (proxy s d).evBase ∨ (proxy s d).evBase + 32 * 2 ^ (proxy s d).evSize ≤ y) :
    deepRead (complete d r code actlen x s) y = deepRead s y := by
  have hnoted : deepRead (noted d r code actlen x s) y = deepRead s y ∧ (proxy (noted d r code actlen x s) d).base = (proxy s d).base := by
    unfold noted
    split
    · exact ⟨deepRead_writeEvent hc he, writeEvent_keepsProxy.2⟩
    · exact ⟨rfl, rfl⟩
  exact ((complete_inContexts hr).deep y (by rw [hnoted.2]; exact hc)).trans hnoted.1

end

end

end Sys2Proof.Machine
end

section
/-! Transfers of the proxy (R337 to R340): descriptor fetches, periodic service, the end of a transfer, NOTIFY. -/

namespace Sys2Proof.Machine

section
variable {s : State} {die : Fin 2} {r : Fin 64}

/-! DESCRIPTOR_FETCH (R337). -/

theorem ringAsks_of {d q : Nat} (hr : proxyRuns s d = true) (hd : domSt s (0x10 + tuSlot d) = .inService) (ho : originHeld s (tuSlot d) = false)
    (hst : (ring s d q).st = 1) (hci : (ring s d q).ci ≠ (ring s d q).pi_) (hcur : (ring s d q).cur = none) (hev : 2 ≤ evFree s d) :
    ringAsks s d q = true := by
  simp [ringAsks, hr, hd, ho, hst, hci, hcur, hev]

theorem exec_descriptorFetch_waits {readable : Bool} (h : proxyRuns s die = false ∨ (ring s die r).st ≠ 1 ∨
    (ring s die r).ci = (ring s die r).pi_ ∨ (ring s die r).cur ≠ none ∨ evFree s die < 2 ∨ originHeld s (tuSlot die) = true ∨
    dcmServes s 3 = false) : exec (.descriptorFetch die r readable) s = .next s := by
  refine if_pos ?_
  rcases h with h | h | h | h | h | h | h
  case inr.inr.inr.inl => cases hc : (ring s die r).cur <;> simp_all [ringAsks]
  case inr.inr.inr.inr.inl => simp [ringAsks, Nat.not_le.2 h]
  all_goals simp [ringAsks, h]

/-- A ring that asks and is served, by what its descriptor is. -/
theorem exec_descriptorFetch {x : Ring} {a : Nat} {c : Desc} {readable : Bool} (ha : ringAsks s die r = true) (hs : dcmServes s 3 = true)
    (hx : ring s die r = x) (haddr : a = x.base + 32 * (x.ci % 2 ^ x.lsize)) (hc : c = readDesc s a x.ci) :
    exec (.descriptorFetch die r readable) s = .next
      (if readable = false then complete die r 5 0 { c with cookie := [] } s
      else if descGood s die x a c = false then complete die r 9 0 c s
      else if c.typ = 4 then complete die r 0 0 c s
      else setRing die r { x with cur := some { c with waits := decide (3 ≤ x.typ) } } s) := by
  subst hx haddr hc
  change execDescriptorFetch die r readable s = _
  unfold execDescriptorFetch
  extract_lets d x
  rw [if_neg (by rw [ha, hs]; exact Bool.false_ne_true)]
  simp only [Bool.not_eq_true']
  split
  · rfl
  · split
    · rfl
    · split <;> rfl

theorem setRing_only {d q : Nat} {x : Ring} : Only [.proxies] s (setRing d q x s) := (setRing_keeps rfl (Keeps.refl 33554432 s)).onlyOf (by decide)

/-! PERIODIC_SERVICE. -/

theorem exec_periodicService {c : Desc} {past : Bool} (hc : (ring s die r).cur = some c) (hw : c.waits = true) :
    exec (.periodicService die r past) s = .next
      (if (past && (ring s die r).typ == 4 && !bit 3 c.flags) = true then complete die r 6 0 c s
      else setRing die r { ring s die r with cur := some { c with waits := false } } s) := by
  change execPeriodicService die r past s = _
  unfold execPeriodicService
  extract_lets d x
  rw [show x.cur = some c from hc]
  dsimp only
  rw [if_neg (by rw [hw]; exact Bool.false_ne_true)]
  split <;> rfl

/-! TRANSFER_COMPLETE (R337, R339). -/

/-- The bytes an IN transfer takes. -/
def received (x : Ring) (c : Desc) (data : List Byte) : List Byte := if descIn x c = true then data.take c.len else []

/-- The state with the received bytes in their buffer. -/
def buffered (x : Ring) (c : Desc) (data : List Byte) (s : State) : State :=
  if received x c data = [] then s else deepWrites c.buf (received x c data) s

theorem exec_transferComplete {x : Ring} {c : Desc} {code : Fin 10} {moved : Nat} {data : List Byte} (hx : ring s die r = x)
    (hc : x.cur = some c) (hw : c.waits = false) (hst : x.st = 1) (hs : dcmServes s 3 = true) (h7 : code.val ≠ 7) (h9 : code.val ≠ 9) :
    exec (.transferComplete die r code moved data) s = .next
      (hubActs die x c code.val (complete die r code.val (if descIn x c = true then (received x c data).length else min moved c.len) c
        (buffered x c data s))) := by
  subst hx
  change execTransferComplete die r code moved data s = _
  unfold execTransferComplete
  extract_lets d x
  rw [show x.cur = some c from hc]
  dsimp only
  rw [if_neg (by simp [hw, h7, h9, hs, show x.st = 1 from hst])]
  rfl

theorem buffered_out {x : Ring} {c : Desc} {data : List Byte} (h : descIn x c = false) : buffered x c data s = s := by
  simp [buffered, received, h]

theorem exec_transferComplete_out {x : Ring} {c : Desc} {code : Fin 10} {moved : Nat} {data : List Byte} (hx : ring s die r = x)
    (hc : x.cur = some c) (hw : c.waits = false) (hst : x.st = 1) (hs : dcmServes s 3 = true) (h7 : code.val ≠ 7) (h9 : code.val ≠ 9)
    (hout : descIn x c = false) :
    exec (.transferComplete die r code moved data) s = .next (hubActs die x c code.val (complete die r code.val (min moved c.len) c s)) := by
  rw [exec_transferComplete hx hc hw hst hs h7 h9, buffered_out hout, hout, if_neg Bool.false_ne_true]

theorem hubActs_failed {d code : Nat} {x : Ring} {c : Desc} (h : code ≠ 0) : hubActs d x c code s = s := if_neg fun hall => h hall.1

theorem hubActs_none {d code : Nat} {x : Ring} {c : Desc} (h : x.dev = 0 → hubRequest c.setup = none) : hubActs d x c code s = s := by
  unfold hubActs
  split
  next hall => rw [h hall.2.1]
  next => rfl

theorem hubActs_some {d code n a : Nat} {x : Ring} {c : Desc} (h0 : code = 0) (hd : x.dev = 0) (hx : x.typ = 1) (hc : c.typ = 1)
    (h : hubRequest c.setup = some (n, a)) :
    hubActs d x c code s = usbAction (4 * d + n) a s := by
  rw [hubActs, if_pos ⟨h0, hd, hx, hc⟩, h]

/-- A control read is no request to the hub. -/
theorem hubRequest_none_of_in {x : Ring} {c : Desc} (hx : descIn x c = true) (hc : c.typ = 1) : hubRequest c.setup = none := by
  rw [descIn, if_pos hc] at hx
  refine if_pos (.inl fun h => ?_)
  rw [h] at hx
  cases hx

theorem hubActs_in {d code : Nat} {x : Ring} {c : Desc} (hx : descIn x c = true) : hubActs d x c code s = s := by
  unfold hubActs
  split
  next hall => rw [hubRequest_none_of_in hx hall.2.2.2]
  next => rfl

/-- A transfer toward the Deep Comb touches only its buffer there, and has its data in it. -/
theorem deepRead_buffered {x : Ring} {c : Desc} {data : List Byte} {k : Nat} {b : Byte} (hx : descIn x c = true) (hk : k < c.len)
    (hb : data[k]? = some b) : deepRead (buffered x c data s) (c.buf + k) = b := by
  have hl : received x c data = data.take c.len := if_pos hx
  have hat : (data.take c.len)[k]? = some b := by rw [List.getElem?_take_of_lt hk, hb]
  obtain ⟨hlen, -⟩ := List.getElem?_eq_some_iff.1 hat
  rw [buffered, hl, if_neg (List.ne_nil_of_length_pos (Nat.lt_of_le_of_lt (Nat.zero_le k) hlen))]
  exact Option.some.inj ((deepRead_deepWrites_at hlen).symm.trans hat)

theorem buffered_proxies {x : Ring} {c : Desc} {data : List Byte} : (buffered x c data s).proxies = s.proxies := by
  unfold buffered
  split <;> rfl

/-! NOTIFY_TIMER (R340). -/

theorem exec_notifyTimer_said (h : (proxy s die).unsaid = false) : exec (.notifyTimer die) s = .next s :=
  if_neg (by rw [h]; exact Bool.false_ne_true)

theorem exec_notifyTimer_unsaid (h : (proxy s die).unsaid = true) : exec (.notifyTimer die) s = .next (sendNotify die s) := if_pos h

end

end Sys2Proof.Machine
end

section
/-! Hub ports and USB_PORT_CTL (R332, R342): what a port's byte shows, and the HUB source. -/

namespace Sys2Proof.Machine

section
variable {s u : State} {t : Nat}

/-! A hub port's byte. -/

theorem hubByte_notStat : (hubByte t).addr % 2147483648 ≠ 1077936156 := by
  change (1077936132 + t / 4 * 2147483648) % 2147483648 ≠ 1077936156
  omega

theorem hubByte_fits : (hubByte t).lo + (hubByte t).w ≤ 32 := by
  change 8 * (t % 4) + 8 ≤ 32
  omega

theorem rd_hubByte_lt : rd (hubByte t) s < 256 := by
  have h : rd (hubByte t) s < 2 ^ (hubByte t).w := Nat.mod_lt _ (Nat.two_pow_pos _)
  exact h

theorem rd_hubByte_wr {x : Nat} : rd (hubByte t) (wr (hubByte t) x s) = x % 256 := rd_wr_same hubByte_fits

theorem ProxyAside.portChange (h : ProxyAside s u) : ProxyAside s (portChange t u) := .ite h.raise.writeEvent h.raise

theorem rd_hubByte_portChange {p : Nat} : rd (hubByte p) (portChange t s) = rd (hubByte p) s := ProxyAside.refl.portChange.regs _ hubByte_notStat

/-- A port that changes raises HUB, after whatever the proxy did before. -/
theorem raised_portChange {x : Nat} (h : ProxyAside s u) : Raised (srcHUB (t / 4)) s (portChange t (wr (hubByte t) x u)) := by
  intro halive hidle
  have hsw : rd Reg.NRS.PSTATE.SWOFF (wr (hubByte t) x u) = rd Reg.NRS.PSTATE.SWOFF s := by
    refine (rd_wr_other (.inl ?_)).trans (h.regs _ (by decide))
    change 14680072 ≠ 1077936132 + t / 4 * 2147483648
    omega
  have hfire : srcSt (raise (srcHUB (t / 4)) (wr (hubByte t) x u)) (srcHUB (t / 4)) = .pending := by
    refine srcSt_raise_quiet ((srcAlive_of_swoff hsw (wr_variant.trans h.variant) (wr_domains.trans h.domains) _).trans halive) ?_
    rw [srcSt_congr wr_srcs]
    exact h.idle _ hidle
  exact (ProxyAside.ite ProxyAside.refl.writeEvent .refl).pending _ hfire

/-! A device leaves and joins. -/

theorem hubDrop_empty (h : bit 7 (rd (hubByte t) s) = false) : hubDrop t s = s := if_neg (by rw [h]; exact Bool.false_ne_true)

theorem hubDrop_device (h : bit 7 (rd (hubByte t) s) = true) : ∃ u, ProxyAside s u ∧ hubDrop t s = portChange t (wr (hubByte t) 0 u) := by
  refine ⟨_, ?_, if_pos h⟩
  refine .ite (.forAll (fun r v hv => ?_) .refl) .refl
  split
  · exact hv.complete
  · exact hv.ringState

theorem hubJoin_live {speed : Nat} (h : hubLive s t = true) (h0 : speed ≠ 0) :
    hubJoin t speed s = portChange t (wr (hubByte t) (0x80 + min speed (speedCap s t) * 16 + 8) s) := if_pos (by simp [h, h0])

theorem hubJoin_dead {speed : Nat} (h : hubLive s t = false) : hubJoin t speed s = s := if_neg (by simp [h])

/-- SPEED fits its field: the byte of a port that has just joined. -/
theorem joinedByte {m : Nat} (h : m ≤ 6) : (0x80 + m * 16 + 8) % 256 = 0x80 + m * 16 + 8 ∧ bit 7 (0x80 + m * 16 + 8) = true ∧
    setBit 2 true (0x80 + m * 16 + 8) = 0x80 + m * 16 + 8 + 4 ∧ 0x80 + m * 16 + 8 + 4 < 256 := by
  interval_cases m <;> decide

/-! HUB_PORT_CHANGE (R332). -/

theorem exec_hubPortChange_leaves {p : Fin 8} {speed : Fin 7} {susp : Bool} (hp : present s (tuSlot (p.val / 4)) = true) (h0 : speed.val = 0) :
    exec (.hubPortChange p speed susp) s = .next (hubDrop p.val s) := by
  change execHubPortChange p speed susp s = _
  unfold execHubPortChange
  extract_lets n b
  rw [if_neg (by rw [hp]; exact Bool.false_ne_true), if_pos h0]

theorem exec_hubPortChange_joins {p : Fin 8} {speed : Fin 7} {susp : Bool} (hp : present s (tuSlot (p.val / 4)) = true) (h0 : speed.val ≠ 0)
    (hb : bit 7 (rd (hubByte p.val) s) = false) :
    exec (.hubPortChange p speed susp) s = .next
      (if (susp && bit 7 (rd (hubByte p.val) (hubJoin p.val speed.val s))) = true then
        wr (hubByte p.val) (setBit 2 true (rd (hubByte p.val) (hubJoin p.val speed.val s))) (hubJoin p.val speed.val s)
      else hubJoin p.val speed.val s) := by
  change execHubPortChange p speed susp s = _
  unfold execHubPortChange
  extract_lets n b v
  have hv : v = hubJoin p.val speed.val s := congrArg (hubJoin p.val speed.val) (hubDrop_empty hb)
  rw [if_neg (by rw [hp]; exact Bool.false_ne_true), if_neg h0, if_neg (by simp [b, n, hb]), hv]

/-! USB_PORT_CTL (R342). -/

theorem exec_usbPortCtl {o : Origin} {body : List Byte} {p a : Nat} (hm : mayDispatch s o = true) (hl : body.length = 4)
    (hp : field body 0 1 = p) (hp8 : p < 8) (ha : field body 1 1 = a) (ha5 : a ≤ 5) (hz : zeroAt body 2 2 = true)
    (hst : dieStatus s (tuSlot (p / 4)) = ST_OK) :
    exec (.usbPortCtl o body) s = .next (reply o ST_OK (beBytes 1 (rd (hubByte p) (usbAction p a (dispatch o s))) ++ [0, 0, 0])
      (usbAction p a (dispatch o s))) := by
  subst hp ha
  change execUsbPortCtl o body s = _
  unfold execUsbPortCtl
  rw [command_runs hm hl]
  refine congrArg Host.Outcome.next ((if_neg ?_).trans (if_neg (not_not.2 hst)))
  simp [hz]
  omega

/-- Suspend, of a port with a device that is not. -/
theorem usbAction_suspend (h7 : bit 7 (rd (hubByte t) s) = true) (h2 : bit 2 (rd (hubByte t) s) = false) :
    usbAction t 4 s = portChange t (wr (hubByte t) (rd (hubByte t) s + 4) s) := by
  refine (if_pos (by simp [h7, h2])).trans ?_
  rw [show setBit 2 true (rd (hubByte t) s) = rd (hubByte t) s + 4 by simp [setBit, h2]]

/-- Resume, of a suspended port. -/
theorem usbAction_resume (h7 : bit 7 (rd (hubByte t) s) = true) (h2 : bit 2 (rd (hubByte t) s) = true) :
    usbAction t 5 s = portChange t (wr (hubByte t) (rd (hubByte t) s - 4) s) := by
  refine (if_pos (by simp [h7, h2])).trans ?_
  rw [show setBit 2 false (rd (hubByte t) s) = rd (hubByte t) s - 4 by simp [setBit, h2]]

theorem suspended_lt {b : Nat} (h : b < 256) (h2 : bit 2 b = false) : b + 4 < 256 := by
  simp only [bit, beq_eq_false_iff_ne] at h2
  omega

/-! A port that loses its power, among the ports of its die. -/

/-- A field that no change of hub port `t` concerns. -/
def HubApart (t : Nat) (g : Fld) : Prop :=
  g.addr % 2147483648 ≠ 1077936156 ∧ (g.addr ≠ (hubByte t).addr ∨ 8 * (t % 4) + 8 ≤ g.lo ∨ g.lo + g.w ≤ 8 * (t % 4))

section
variable {g : Fld}

theorem rd_hubWrite {x : Nat} (hg : HubApart t g) : rd g (wr (hubByte t) x s) = rd g s :=
  rd_wr_other (hg.2.imp_right fun h => ⟨hubByte_fits, h⟩)

theorem rd_hubDrop (hg : HubApart t g) : rd g (hubDrop t s) = rd g s := by
  cases h : bit 7 (rd (hubByte t) s)
  · rw [hubDrop_empty h]
  · obtain ⟨u, hu, hdrop⟩ := hubDrop_device h
    rw [hdrop, ProxyAside.refl.portChange.regs g hg.1, rd_hubWrite hg, hu.regs g hg.1]

theorem rd_hubJoin {speed : Nat} (hg : HubApart t g) : rd g (hubJoin t speed s) = rd g s := by
  unfold hubJoin
  split
  · rw [ProxyAside.refl.portChange.regs g hg.1, rd_hubWrite hg]
  · rfl

theorem rd_hubReroute (hg : HubApart t g) : rd g (hubReroute t s) = rd g s := by
  unfold hubReroute
  extract_lets sp
  split
  · rw [rd_hubJoin hg, rd_hubDrop hg]
  · rfl

end

/-- One port after a write of HUBCFG. -/
def hubFollows (d t : Nat) (s : State) : State :=
  if !bit (t % 4) (rd (Reg.USB.HUBCFG.PEN d) s) then hubDrop t s
  else if speedCap s t < bits 6 4 (rd (hubByte t) s) then hubReroute t s else s

theorem rd_hubFollows {d : Nat} {g : Fld} (hg : HubApart t g) : rd g (hubFollows d t s) = rd g s := by
  unfold hubFollows
  split
  · exact rd_hubDrop hg
  · split
    · exact rd_hubReroute hg
    · rfl

theorem hubApart_pen {d : Nat} : HubApart t (Reg.USB.HUBCFG.PEN d) := by
  refine ⟨?_, .inl ?_⟩
  · change (1077936128 + d * 2147483648) % 2147483648 ≠ 1077936156
    omega
  · change 1077936128 + d * 2147483648 ≠ 1077936132 + t / 4 * 2147483648
    omega

theorem hubApart_other {p : Nat} (h : p ≠ t) : HubApart t (hubByte p) := by
  refine ⟨hubByte_notStat, ?_⟩
  change 1077936132 + p / 4 * 2147483648 ≠ 1077936132 + t / 4 * 2147483648 ∨ 8 * (t % 4) + 8 ≤ 8 * (p % 4) ∨ 8 * (p % 4) + 8 ≤ 8 * (t % 4)
  omega

/-- A dropped port shows nothing. -/
theorem rd_hubByte_hubDrop (h : bit 7 (rd (hubByte t) s) = true) : rd (hubByte t) (hubDrop t s) = 0 := by
  obtain ⟨u, -, hdrop⟩ := hubDrop_device h
  rw [hdrop, rd_hubByte_portChange, rd_hubByte_wr]

/-- Of the ports that follow a write of HUBCFG, one without PEN ends empty. -/
theorem hubFollows_empties {d p : Nat} {l : List Nat} (hpen : bit (p % 4) (rd (Reg.USB.HUBCFG.PEN d) s) = false)
    (h : rd (hubByte p) s = 0 ∨ p ∈ l ∧ bit 7 (rd (hubByte p) s) = true) : rd (hubByte p) (forAll l (hubFollows d) s) = 0 := by
  unfold forAll
  induction l generalizing s with
  | nil => exact h.elim id fun h => absurd h.1 List.not_mem_nil
  | cons t l ih =>
    refine ih (s := hubFollows d t s) (by rw [rd_hubFollows hubApart_pen]; exact hpen) ?_
    by_cases ht : p = t
    · subst ht
      have hfollows : hubFollows d p s = hubDrop p s := if_pos (by rw [hpen]; rfl)
      rw [hfollows]
      rcases h with h | ⟨-, h⟩
      · rw [hubDrop_empty (by rw [h]; rfl)]
        exact .inl h
      · exact .inl (rd_hubByte_hubDrop h)
    · rw [rd_hubFollows (hubApart_other ht)]
      exact h.imp_right fun ⟨hmem, hb⟩ => ⟨(List.mem_cons.1 hmem).resolve_left ht, hb⟩

/-- The PEN bits are within what HUBCFG holds. -/
theorem pen_of_maskW {d : Nat} {v : Word} : (Reg.USB.HUBCFG.PEN d).of (maskW 0xFFC00000 v) = (Reg.USB.HUBCFG.PEN d).of v := by
  have hlt : Nat.land v.toNat 0xFFC00000 < 2 ^ 32 := Nat.lt_of_le_of_lt Nat.and_le_left v.isLt
  have hshift : Nat.land v.toNat 0xFFC00000 / 2 ^ 28 = v.toNat / 2 ^ 28 % 2 ^ 4 := by
    rw [← Nat.shiftRight_eq_div_pow, ← Nat.shiftRight_eq_div_pow, ← Nat.and_two_pow_sub_one_eq_mod]
    exact Nat.shiftRight_and_distrib
  change (BitVec.ofNat 32 (Nat.land v.toNat 0xFFC00000)).toNat / 2 ^ 28 % 2 ^ 4 = v.toNat / 2 ^ 28 % 2 ^ 4
  rw [BitVec.toNat_ofNat, Nat.mod_eq_of_lt hlt, hshift, Nat.mod_mod]

theorem hubCfgWrite_eq {d : Nat} {v : Word} : hubCfgWrite d v s =
    forAll ((List.range 4).map fun n => 4 * d + n) (hubFollows d) (regSet s (Reg.USB.HUBCFG.word d).addr (maskW 0xFFC00000 v)) := rfl

theorem usbAction_off : usbAction t 0 s = hubCfgWrite (t / 4)
    ((Reg.USB.HUBCFG.PEN (t / 4)).into (setBit (t % 4) false (rd (Reg.USB.HUBCFG.PEN (t / 4)) s))
      (regGet s (Reg.USB.HUBCFG.word (t / 4)).addr)) s := rfl

theorem rd_hubByte_usbAction_off (h : bit 7 (rd (hubByte t) s) = true) : rd (hubByte t) (usbAction t 0 s) = 0 := by
  have hd : 4 * (t / 4) + t % 4 = t := Nat.div_add_mod t 4
  rw [usbAction_off, hubCfgWrite_eq]
  refine hubFollows_empties ?_ (.inr ⟨List.mem_map.2 ⟨t % 4, List.mem_range.2 (Nat.mod_lt t (by decide)), hd⟩, ?_⟩)
  · have h4 : t % 4 < (Reg.USB.HUBCFG.PEN (t / 4)).w := Nat.mod_lt t (Nat.le_of_ble_eq_true rfl)
    unfold rd
    rw [show (Reg.USB.HUBCFG.PEN (t / 4)).addr = (Reg.USB.HUBCFG.word (t / 4)).addr from rfl, regGet_regSet_same, pen_of_maskW,
      of_into_same (Nat.le_of_ble_eq_true rfl), bit_mod_two_pow h4, bit_setBit_same]
  · refine (congrArg (bit 7) ?_).trans h
    unfold rd
    rw [regGet_regSet_other]
    change 1077936132 + t / 4 * 2147483648 ≠ 1077936128 + t / 4 * 2147483648
    omega

end

end Sys2Proof.Machine
end

section
/-! Doorbells and PROXY_CTL (R338, R340, R342). -/

namespace Sys2Proof.Machine

section
variable {s : State} {d r : Nat}

/-! A doorbell (R338). -/

theorem bits_low {n : Nat} : bits 15 0 n = n % 65536 := by simp [bits]

theorem exec_prxDbWrite {die : Fin 2} {v : Word} (h : accStat s (Reg.USB.PRX_DB.word die.val).addr = ST_OK) :
    exec (.prxDbWrite die v) s = .next (prxDbWrite die.val v s) := if_pos h

theorem exec_doorbell {die : Fin 2} {f : Frame} {u : State} (h : takeFrame (4 + 8 * die.val) (isDoorbell die.val) s = some (f, u)) :
    exec (.doorbell die) s = .next (prxDbWrite die.val (BitVec.ofNat 32 (field f.bytes 4 1 * 65536 + field f.bytes 2 2)) u) := by
  change execDoorbell die s = _
  unfold execDoorbell
  extract_lets k p
  rw [h]
  rfl

section
variable {v : Word}

theorem prxDbWrite_moves (hr : proxyRuns s d = true) (h64 : bits 22 16 v.toNat < 64)
    (hfit : Machine.ahead 65536 (ring s d (bits 22 16 v.toNat)).ci (v.toNat % 65536) ≤ 2 ^ (ring s d (bits 22 16 v.toNat)).lsize) :
    prxDbWrite d v s = deepWrites ((proxy s d).base + 32 * bits 22 16 v.toNat + 14) (leBytes 2 (v.toNat % 65536))
      (setRing d (bits 22 16 v.toNat) { ring s d (bits 22 16 v.toNat) with pi_ := v.toNat % 65536 } s) := by
  rw [prxDbWrite, if_pos hr, bits_low, doorbell, if_neg (by omega), if_neg (by omega)]
  exact if_neg fun h => absurd h.2 (Nat.not_lt.2 hfit)

theorem prxDbWrite_overruns (hr : proxyRuns s d = true) (h64 : bits 22 16 v.toNat < 64) (hst : (ring s d (bits 22 16 v.toNat)).st = 1)
    (hover : 2 ^ (ring s d (bits 22 16 v.toNat)).lsize < Machine.ahead 65536 (ring s d (bits 22 16 v.toNat)).ci (v.toNat % 65536)) :
    prxDbWrite d v s = ringState d (bits 22 16 v.toNat) 2
      (writeEvent d [] 0 (ring s d (bits 22 16 v.toNat)).ci (bits 22 16 v.toNat) 9 1 s) := by
  rw [prxDbWrite, if_pos hr, bits_low, doorbell, if_neg (by omega), if_neg (by omega)]
  exact if_pos ⟨hst, hover⟩

theorem prxDbWrite_events (hr : proxyRuns s d = true) (h7F : bits 22 16 v.toNat = 0x7F) :
    prxDbWrite d v s = evShow d (deepWrites ((proxy s d).base + 0x800 + 12) (leBytes 2 (v.toNat % 65536))
      (updProxy d (fun p => { p with evCi := v.toNat % 65536 }) s)) := by
  rw [prxDbWrite, if_pos hr, bits_low, doorbell, if_pos h7F]

theorem prxDbWrite_noRing (h63 : 63 < bits 22 16 v.toNat) (h7F : bits 22 16 v.toNat ≠ 0x7F) : prxDbWrite d v s = prxErr d 3 s := by
  unfold prxDbWrite
  split
  · rw [doorbell, if_neg h7F, if_pos h63]
  · exact if_pos ⟨h63, h7F⟩

theorem prxDbWrite_stopped (hr : proxyRuns s d = false) (h64 : bits 22 16 v.toNat < 64) :
    prxDbWrite d v s = setRing d (bits 22 16 v.toNat) { ring s d (bits 22 16 v.toNat) with pi_ := v.toNat % 65536 } s := by
  rw [prxDbWrite, if_neg (by rw [hr]; exact Bool.false_ne_true), if_neg (by omega), if_pos h64, bits_low]

end

/-- An error of the proxy is shown and raised. -/
theorem prxErr_shows {b : Nat} (hb : b < 8) :
    bit b (rd (Reg.USB.PRX_STAT.ERR d) (prxErr d b s)) = true ∧ Raised (srcPRX_ERR d) s (prxErr d b s) := by
  refine ⟨?_, raised_wr (Keeps.refl _ s) ?_⟩
  · have hw : b < (Reg.USB.PRX_STAT.ERR d).w := hb
    rw [prxErr, orF, rd_raise_wr (Nat.le_of_ble_eq_true rfl), bit_mod_two_pow hw, bit_or_two_pow]
  · change 14680072 ≠ 1077936156 + d * 2147483648
    omega

theorem proxy_evShow {e : Nat} : proxy (evShow e s) d = proxy s d := proxy_congr ((evShow_keeps rfl (Keeps.refl 18 s)).proxies rfl) d

theorem ring_evShow {e : Nat} : ring (evShow e s) d r = ring s d r := ring_congr (congrArg Proxy.rings proxy_evShow) r

/-! Stopping (R342). -/

theorem ring_stopRing_other {q : Nat} (h : q ≠ r) : ring (stopRing d r s) d q = ring s d q := by
  unfold stopRing
  extract_lets x ended
  split
  · rw [ring_writeEvent, ring_ringState_other h]
    dsimp only [ended]
    split
    · rw [ring_writeEvent, ring_setRing_other h]
    · rfl
  · rfl

theorem ring_stopRing_same : (ring (stopRing d r s) d r).st ≠ 1 := by
  unfold stopRing
  extract_lets x
  split
  · rw [ring_writeEvent, ring_ringState_same]
    exact Nat.zero_ne_one
  next h => exact h

theorem ring_stopRings {l : List Nat} (h : r ∈ l ∨ (ring s d r).st ≠ 1) : (ring (forAll l (stopRing d) s) d r).st ≠ 1 := by
  unfold forAll
  induction l generalizing s with
  | nil => exact h.resolve_left List.not_mem_nil
  | cons q l ih =>
    refine ih ?_
    by_cases hq : r = q
    · subst hq
      exact .inr ring_stopRing_same
    · rw [ring_stopRing_other hq]
      exact h.imp_left fun hmem => (List.mem_cons.1 hmem).resolve_left hq

theorem proxyStop_runs (h : proxyRuns s d = true) :
    proxyRuns (proxyStop d s) d = false ∧ ∀ q, q < 64 → (ring (proxyStop d s) d q).st ≠ 1 := by
  have hstop : proxyStop d s = evShow d (wr (Reg.USB.PRX_STAT.RUN d) 0 (stopRings d s)) := if_pos h
  rw [hstop]
  refine ⟨(ProxyAside.refl.evShow.runs d).trans (congrArg (· == 1) (rd_wr_same (Nat.le_of_ble_eq_true rfl))), fun q hq => ?_⟩
  rw [ring_evShow, ring_congr (congrArg Proxy.rings (proxy_congr wr_proxies d)) q, stopRings]
  exact ring_stopRings (.inl (List.mem_range.2 hq))

theorem ring_ringReset (h : (ring s d r).st = 2) : ring (ringReset d r s) d r = { ring s d r with st := 0 } := by
  rw [ringReset, if_pos h, ring_writeEvent, ring_ringState_same]

/-! Starting (R342). -/

/-- A proxy that has just started, with its event ring. -/
def startedProxy (b : Nat) (e : Ring) : Proxy :=
  { base := b, rings := [], evBase := e.base, evSize := e.lsize, evCi := e.ci, evPi := e.pi_, unsaid := false }

def proxyStarted (d : Nat) (p : Proxy) (s : State) : State := evShow d (prxShow d (wr (Reg.USB.PRX_STAT.RUN d) 1 (setProxy d p s)))

theorem proxyStart_good {b : Nat} {e : Ring} (h1 : s1Up s = true) (hd : domSt s (0x10 + tuSlot d) = .inService)
    (hb : b = rd (Reg.USB.PRX_RBASE.BASE d) s * 4096) (hin : inRegion s 2 b 0xA40 = true) (he : e = readRing s (b + 0x800) 0)
    (h4 : 4 ≤ e.lsize) (h12 : e.lsize ≤ 12) (h32 : e.base % 32 = 0) (hev : inRegion s 2 e.base (32 * 2 ^ e.lsize) = true) :
    proxyStart d s = (ST_OK, proxyStarted d (startedProxy b e) s) := by
  subst hb he
  unfold proxyStart
  extract_lets b e p
  rw [if_neg (by simp [h1, hd]), if_neg (by rw [show inRegion s 2 b 0xA40 = true from hin]; exact Bool.false_ne_true), if_neg]
  · rfl
  · rintro (h | h | h | h)
    · exact absurd h4 (Nat.not_le.2 h)
    · exact absurd h12 (Nat.not_le.2 h)
    · exact h h32
    · exact Bool.noConfusion (hev.symm.trans h)

theorem proxyStart_notServed (h : s1Up s = false ∨ domSt s (0x10 + tuSlot d) ≠ .inService) : proxyStart d s = (ST_BUSY_IN_SERVICE, s) := by
  refine if_pos ?_
  rcases h with h | h <;> simp [h]

theorem proxy_proxyStarted {p : Proxy} : proxy (proxyStarted d p s) d = p :=
  proxy_evShow.trans ((proxy_congr ((prxShow_keeps rfl (Keeps.refl 2 _)).proxies rfl) d).trans
    ((proxy_congr wr_proxies d).trans proxy_setProxy_same))

theorem proxyRuns_proxyStarted {p : Proxy} : proxyRuns (proxyStarted d p s) d = true :=
  (ProxyAside.refl.prxShow.evShow.runs d).trans (congrArg (· == 1) (rd_wr_same (Nat.le_of_ble_eq_true rfl)))

/-! PROXY_CTL. -/

theorem proxyOp_stopped {op : Nat} (hop : 2 ≤ op) (h : proxyRuns s d = false) : proxyOp d op r s = (ST_BUSY, s) := by
  unfold proxyOp
  split
  · omega
  · omega
  · exact if_pos (by rw [h]; rfl)

theorem exec_proxyCtl {o : Origin} {body : List Byte} {die : Fin 2} {st : Nat} {u : State} (hm : mayDispatch s o = true)
    (hl : body.length = 4) (hd : field body 0 1 = 2 + 4 * die.val) (h3 : field body 3 1 = 0) (hst : dieStatus s (tuSlot die.val) = ST_OK)
    (hop : field body 1 1 ≤ 4) (hr : 2 ≤ field body 1 1 → field body 2 1 < 64)
    (h : proxyOp die.val (field body 1 1) (field body 2 1) (dispatch o s) = (st, u)) :
    exec (.proxyCtl o body) s = .next
      (reply o st (if st = ST_OK then beBytes 4 (regGet u (Reg.USB.PRX_STAT.word die.val).addr).toNat else []) u) := by
  have hslot : field body 0 1 = tuSlot die.val := hd
  have hdie : (field body 0 1 - 2) / 4 = die.val := by omega
  change execProxyCtl o body s = _
  unfold execProxyCtl
  rw [command_runs hm hl]
  refine congrArg Host.Outcome.next ((if_neg ?_).trans ((if_neg (not_not.2 ?_)).trans ?_))
  · have := die.isLt
    omega
  · rw [hslot]
    exact hst
  · rw [hdie]
    dsimp only
    rw [h]

end

end Sys2Proof.Machine
end

section
namespace Sys2Proof.Machine

/-- Settles O40: the proxy's steps by what a completion and an event leave, the hub by its ports' bytes. -/
theorem transfersDoorbellsAndHub : Obligations.TransfersDoorbellsAndHub := by
  unfold Obligations.TransfersDoorbellsAndHub
  refine ⟨fun die r x s hx ha hfree => ⟨fun hrun hdom hserves horigin hst hci hcur hev a c haddr hc => ?_, fun hidle b => ?_,
    fun c hcur hwaits => ⟨?_, fun htyp hlate => ?_⟩,
      fun c hcur hwaits hst hserves => ⟨fun moved data n a hout hdev htyp hctyp hreq => ?_, fun moved data hout hnone => ?_,
        fun code moved data hout hcode => ?_, fun moved data hin hctx hring => ?_⟩, fun hunsaid => ?_, exec_notifyTimer_said⟩,
    fun s => ⟨fun t speed susp hpresent => ⟨fun h7 h0 => ?_, fun h7 hlive h0 => ?_, fun h7 hdead => ?_⟩,
      fun die v r i hacc hr hi => ⟨fun hrun h64 hst hfit => ?_, fun hrun h64 hst hover hap hfree => ?_, fun hrun h7F => ?_, fun h63 h7F => ?_,
        fun hrun h64 => ?_⟩,
      fun die f u htake hacc => ?_,
      fun o body hm hl => ⟨fun t ht hz hst h7 => ⟨fun ha h2 => ?_, fun ha h2 => ?_, fun ha => ?_⟩,
        fun die hd h3 hst => ⟨fun hop hrun h1 hdom b e hb hin he h4 h12 h32 hev => ?_, fun hop hrun hbusy => ?_, fun hop hrun => ?_,
          fun hlo hhi h64 hrun => ?_, fun hop h64 hrun hhalt => ?_⟩⟩⟩⟩
  case refine_1 =>
    have hasks : ringAsks s die r = true := ringAsks_of hrun hdom horigin (hx ▸ hst) (hx ▸ hci) (hx ▸ hcur) hev
    have hfetch (readable : Bool) := exec_descriptorFetch (readable := readable) hasks hserves hx haddr hc
    have hindex : c.index = x.ci := by rw [hc]; rfl
    have hgood (h : descGood s die x a c = true) : ¬ descGood s die x a c = false := by
      rw [h]
      exact Bool.noConfusion
    refine ⟨fun hg h4 => ?_, fun hg h4 => ?_, fun hbad => ?_, ?_⟩
    · have hexec := hfetch true
      rw [if_neg Bool.noConfusion, if_neg (hgood hg), if_neg h4] at hexec
      exact ⟨_, hexec, ring_setRing_same, setRing_only⟩
    · have hexec := hfetch true
      rw [if_neg Bool.noConfusion, if_neg (hgood hg), if_pos h4] at hexec
      refine ⟨_, hexec, ?_, fun hf => ?_, fun hf => complete_silent r.isLt hf⟩
      · rw [ring_complete, hx, ← hcur]
        rfl
      · rw [← hindex]
        exact complete_eventWritten r.isLt hfree ha (.inr hf)
    · have hexec := hfetch true
      rw [if_neg Bool.noConfusion, if_pos hbad] at hexec
      refine ⟨_, hexec, ?_, ?_⟩
      · rw [ring_complete, hx, ← hcur]
        rfl
      · rw [← hindex]
        exact complete_eventWritten r.isLt hfree ha (.inl (by decide))
    · have hexec := hfetch false
      rw [if_pos rfl] at hexec
      refine ⟨_, hexec, ?_, ?_⟩
      · rw [ring_complete, hx, ← hcur]
        rfl
      · rw [← hindex]
        exact complete_eventWritten r.isLt hfree ha (.inl (by decide))
  case refine_2 =>
    subst hx
    exact exec_descriptorFetch_waits hidle
  case refine_3 =>
    subst hx
    have hexec := exec_periodicService (past := false) hcur hwaits
    exact ⟨_, hexec, ring_setRing_same, setRing_only⟩
  case refine_4 =>
    subst hx
    have hexec := exec_periodicService (past := true) hcur hwaits
    rw [if_pos (by simp [htyp, hlate])] at hexec
    exact ⟨_, hexec, ring_complete, complete_eventWritten r.isLt hfree ha (.inl (by decide))⟩
  case refine_5 =>
    have hexec := exec_transferComplete_out (code := 0) (moved := moved) (data := data) hx hcur hwaits hst hserves (by decide) (by decide) hout
    rw [hubActs_some (Fin.val_zero 10) hdev htyp hctyp hreq] at hexec
    refine ⟨_, hexec, ?_⟩
    rw [ring_complete, hx]
    rfl
  case refine_6 =>
    have hexec := exec_transferComplete_out (code := 0) (moved := moved) (data := data) hx hcur hwaits hst hserves (by decide) (by decide) hout
    rw [hubActs_none hnone] at hexec
    refine ⟨_, hexec, ?_, fun hf => complete_eventWritten r.isLt hfree ha (.inr hf)⟩
    rw [ring_complete, hx]
    rfl
  case refine_7 =>
    have hhalts : halts code.val = true := by simpa [halts, or_assoc] using hcode.imp_right .inl
    have hexec := exec_transferComplete_out (code := code) (moved := moved) (data := data) hx hcur hwaits hst hserves (by omega) (by omega) hout
    rw [hubActs_failed (by omega)] at hexec
    refine ⟨_, hexec, ?_, complete_eventWritten r.isLt hfree ha (.inl (by omega))⟩
    rw [ring_complete, hx, if_pos hhalts]
  case refine_8 =>
    have hexec := exec_transferComplete (code := 0) (moved := moved) (data := data) hx hcur hwaits hst hserves (by decide) (by decide)
    have hproxy := proxy_congr (buffered_proxies (s := s) (x := x) (c := c) (data := data)) die
    rw [hubActs_in hin] at hexec
    refine ⟨_, hexec, ?_, fun k b hk hb => (deepRead_complete r.isLt ?_ ?_).trans (deepRead_buffered hin hk hb)⟩
    · rw [ring_complete, ring_congr (congrArg Proxy.rings hproxy), hx]
      rfl
    · rw [hproxy]
      omega
    · rw [hproxy]
      omega
  case refine_9 => exact ⟨_, exec_notifyTimer_unsaid hunsaid, by rw [proxy_sendNotify], by rw [proxy_sendNotify]⟩
  case refine_10 =>
    obtain ⟨u, hu, hdrop⟩ := hubDrop_device h7
    refine ⟨_, exec_hubPortChange_leaves hpresent h0, rd_hubByte_hubDrop h7, ?_⟩
    rw [hdrop]
    exact raised_portChange hu
  case refine_11 =>
    have hm : min speed.val (speedCap s t) ≤ 6 := by omega
    obtain ⟨hfits, hb7, hset, hlt⟩ := joinedByte hm
    have hexec := exec_hubPortChange_joins (susp := susp) hpresent (Nat.ne_of_gt h0) h7
    rw [hubJoin_live hlive (Nat.ne_of_gt h0), rd_hubByte_portChange, rd_hubByte_wr, hfits, hb7, hset, Bool.and_true] at hexec
    cases susp with
    | false =>
      refine ⟨_, hexec, ?_, raised_portChange .refl⟩
      rw [if_neg Bool.false_ne_true, rd_hubByte_portChange, rd_hubByte_wr, hfits]
      rfl
    | true =>
      refine ⟨_, hexec, ?_, (raised_portChange .refl).congr wr_srcs⟩
      rw [if_pos rfl, rd_hubByte_wr, Nat.mod_eq_of_lt hlt]
      rfl
  case refine_12 =>
    by_cases h0 : speed.val = 0
    · rw [exec_hubPortChange_leaves hpresent h0, hubDrop_empty h7]
    · rw [exec_hubPortChange_joins hpresent h0 h7, hubJoin_dead (hdead.resolve_right h0), h7, Bool.and_false, if_neg Bool.false_ne_true]
  case refine_13 =>
    subst hr hi
    have hexec := (exec_prxDbWrite hacc).trans (congrArg Host.Outcome.next (prxDbWrite_moves hrun h64 hfit))
    refine ⟨_, hexec, ring_setRing_same, deepReads_deepWrites, ?_⟩
    exact (deepWrites_keeps rfl (setRing_keeps rfl (Keeps.refl 33587200 s))).onlyOf (by decide)
  case refine_14 =>
    subst hr hi
    have hexec := (exec_prxDbWrite hacc).trans (congrArg Host.Outcome.next (prxDbWrite_overruns hrun h64 hst hover))
    refine ⟨_, hexec, ?_, (eventWritten_writeEvent (Nat.ne_of_gt hfree) hap).later writeEvent_keepsProxy.2 hap (.ringState h64)⟩
    rw [ring_ringState_same, ring_writeEvent]
  case refine_15 =>
    subst hr hi
    have hexec := (exec_prxDbWrite hacc).trans (congrArg Host.Outcome.next (prxDbWrite_events hrun h7F))
    refine ⟨_, hexec, ?_, ?_⟩
    · rw [proxy_evShow, proxy_congr deepWrites_proxies, proxy_updProxy_same]
    · rw [deepReads_congr ((evShow_keeps rfl (Keeps.refl 18 _)).deep rfl)]
      exact deepReads_deepWrites
  case refine_16 =>
    subst hr hi
    have hexec := (exec_prxDbWrite hacc).trans (congrArg Host.Outcome.next (prxDbWrite_noRing h63 h7F))
    have hkept : Keeps 18 s (prxErr die.val 3 s) := prxErr_keeps rfl (Keeps.refl 18 s)
    obtain ⟨hbit, hraised⟩ := prxErr_shows (s := s) (d := die.val) (b := 3) (by decide)
    exact ⟨_, hexec, hbit, hraised, hkept.deep rfl, hkept.proxies rfl⟩
  case refine_17 =>
    subst hr hi
    have hexec := (exec_prxDbWrite hacc).trans (congrArg Host.Outcome.next (prxDbWrite_stopped hrun h64))
    exact ⟨_, hexec, ring_setRing_same, setRing_only⟩
  case refine_18 => rw [exec_doorbell htake, exec_prxDbWrite hacc]
  case refine_19 =>
    have hexec := exec_usbPortCtl hm hl ht t.isLt ha (by decide) hz hst
    have hlt := suspended_lt rd_hubByte_lt h2
    rw [usbAction_suspend (s := dispatch o s) h7 h2, rd_hubByte_portChange, rd_hubByte_wr, dispatch_rd, Nat.mod_eq_of_lt hlt] at hexec
    refine ⟨_, hexec, ?_, raised_portChange (ProxyAside.refl.keeps (dispatch_keeps rfl (Keeps.refl 16384 s)) rfl rfl rfl)⟩
    rw [rd_hubByte_portChange, rd_hubByte_wr, Nat.mod_eq_of_lt hlt]
  case refine_20 =>
    have hexec := exec_usbPortCtl hm hl ht t.isLt ha (by decide) hz hst
    have hlt : rd (hubByte t.val) s - 4 < 256 := Nat.lt_of_le_of_lt (Nat.sub_le _ _) rd_hubByte_lt
    rw [usbAction_resume (s := dispatch o s) h7 h2, rd_hubByte_portChange, rd_hubByte_wr, dispatch_rd, Nat.mod_eq_of_lt hlt] at hexec
    refine ⟨_, hexec, ?_⟩
    rw [rd_hubByte_portChange, rd_hubByte_wr, Nat.mod_eq_of_lt hlt]
  case refine_21 =>
    have hexec := exec_usbPortCtl hm hl ht t.isLt ha (by decide) hz hst
    have hoff := rd_hubByte_usbAction_off (s := dispatch o s) (t := t.val) h7
    rw [hoff] at hexec
    exact ⟨_, hexec, hoff⟩
  case refine_22 =>
    have hop' : proxyOp die.val (field body 1 1) (field body 2 1) (dispatch o s) =
        (ST_OK, proxyStarted die.val (startedProxy b e) (dispatch o s)) := by
      rw [hop]
      exact (if_neg (by rw [show proxyRuns (dispatch o s) die.val = false from hrun]; exact Bool.false_ne_true)).trans
        (proxyStart_good (s := dispatch o s) h1 hdom hb hin he h4 h12 h32 hev)
    refine ⟨_, exec_proxyCtl hm hl hd h3 hst (by omega) (by omega) hop', proxyRuns_proxyStarted, ?_, ?_, fun r => ?_⟩
    · rw [proxy_proxyStarted, startedProxy]
    · rw [proxy_proxyStarted, startedProxy]
    · rw [ring, proxy_proxyStarted]
      rfl
  case refine_23 =>
    have hop' : proxyOp die.val (field body 1 1) (field body 2 1) (dispatch o s) = (ST_BUSY_IN_SERVICE, dispatch o s) := by
      rw [hop]
      exact (if_neg (by rw [show proxyRuns (dispatch o s) die.val = false from hrun]; exact Bool.false_ne_true)).trans
        (proxyStart_notServed (s := dispatch o s) hbusy)
    exact exec_proxyCtl hm hl hd h3 hst (by omega) (by omega) hop'
  case refine_24 =>
    have hop' : proxyOp die.val (field body 1 1) (field body 2 1) (dispatch o s) = (ST_OK, proxyStop die.val (dispatch o s)) := by
      rw [hop]
      rfl
    exact ⟨_, exec_proxyCtl hm hl hd h3 hst (by omega) (by omega) hop', proxyStop_runs (s := dispatch o s) hrun⟩
  case refine_25 =>
    exact exec_proxyCtl hm hl hd h3 hst hhi (fun _ => h64) (proxyOp_stopped (s := dispatch o s) hlo hrun)
  case refine_26 =>
    have hop' : proxyOp die.val (field body 1 1) (field body 2 1) (dispatch o s) = (ST_OK, ringReset die.val (field body 2 1) (dispatch o s)) := by
      rw [hop]
      exact if_neg (by rw [show proxyRuns (dispatch o s) die.val = true from hrun]; exact Bool.false_ne_true)
    exact ⟨_, exec_proxyCtl hm hl hd h3 hst (by omega) (fun _ => h64) hop', ring_ringReset (s := dispatch o s) hhalt⟩

end Sys2Proof.Machine
end

section
/-! Scan-out (R361 to R364, R368): what a line that goes out leaves alone after it has left its buffer, and the display registers. -/

namespace Sys2Proof.Machine

section
variable {s t u : State} {h : Fin 2} {x : Head} {l : Nat}

/-! The heads. -/

theorem head_setHead_same {n : Nat} : head (setHead n x s) n = x := Tab.get_set_same _ n x s.heads

theorem head_updHead_same {n : Nat} {f : Head → Head} : head (updHead n f s) n = f (head s n) := head_setHead_same

theorem head_congr (e : t.heads = s.heads) (n : Nat) : head t n = head s n := by
  unfold head
  rw [e]

theorem updHead_kept {n : Nat} {f : Head → Head} : Keeps 134217728 s (updHead n f s) := updHead_keeps rfl (Keeps.refl _ s)

theorem rd_updHead {n : Nat} {f : Head → Head} (g : Fld) : rd g (updHead n f s) = rd g s := rd_congr (updHead_kept.regs rfl) g

/-! The status word of a head. -/

/-- Fields of one DSPn.STAT. -/
theorem rd_wr_field {f g : Fld} {y : Nat} (hf : f.lo + f.w ≤ 32) (d : f.lo + f.w ≤ g.lo ∨ g.lo + g.w ≤ f.lo) : rd g (wr f y s) = rd g s :=
  rd_wr_other (.inr ⟨hf, d⟩)

theorem dspStat_ne_dmxStat : (Reg.DSP.STAT.word h.val).addr ∉ [Reg.DMX.STAT.word.addr] := by
  fin_cases h <;> decide

theorem dspStat_ne_swoff : Reg.NRS.PSTATE.SWOFF.addr ≠ (Reg.DSP.STAT.word h.val).addr := by
  fin_cases h <;> decide

theorem dspStat_ne_compat : Reg.GLB.STRAP.COMPAT_LH4.addr ≠ (Reg.DSP.STAT.word h.val).addr := by
  fin_cases h <;> decide

theorem dspStat_ne_ucolor : (Reg.DSP.UCOLOR.word h.val).addr ≠ (Reg.DSP.STAT.word h.val).addr := by
  fin_cases h <;> decide

/-! Counters of two blocks. -/

theorem ctrGet_count_other {a b : Nat} (hab : b ≠ a) : ctrGet (count a s) b = ctrGet s b := by
  have herr (t : State) (p q r : Nat) : ctrGet (logErr p q r (raise srcCTR_SAT t)) b = ctrGet t b :=
    (ctrGet_congr ((logErr_keeps (M := 131088) rfl (Keeps.refl _ _)).ctrs rfl) b).trans
      (ctrGet_congr ((raise_kept).ctrs rfl) b)
  unfold count countBy
  extract_lets c u k
  split
  · exact ctrGet_ctrSet_other hab
  split
  · rfl
  split
  · exact ctrGet_ctrSet_other hab
  · exact (herr u _ _ _).trans (ctrGet_ctrSet_other hab)

theorem ctrGet_originate {slot tun a : Nat} {b : List Byte} (h0 : a ≠ cTUN 0) (h1 : a ≠ cTUN 1) :
    ctrGet (originate slot tun b s) a = ctrGet s a := by
  unfold originate
  split
  · exact ctrGet_count_other h1
  split
  · exact ctrGet_count_other h0
  split
  · rfl
  next e _ _ _ =>
    have hk := stampFn_keeps (a0 := tun) (a1 := orgTYP e) (a2 := b) (M := 7296) rfl (Keeps.refl _ s)
    split
    next l' t' heq =>
    rw [heq] at hk
    refine ctrGet_congr (Keeps.ctrs (m := 7296) ?_ rfl) a
    exact .ite (releaseCells_keeps rfl hk) (.ite (releaseCells_keeps rfl (setShaper_keeps rfl hk)) (updSched_keeps rfl hk))

theorem cDSP_ne_cTUN {n k j : Nat} (hj : j < 2) : cDSP n k ≠ cTUN j := by
  unfold cDSP cTUN ctrAddr
  omega

/-! After a line has left its buffer. -/

/-- The parts of a head that fetching and sending leave alone. -/
def Head.scan (x : Head) : List FbLine × List (Nat × Nat × Nat) × Bool × Nat := (x.buf, x.out, x.fresh, x.lineAt)

/-- From `s` to `t` frames were sent and lines asked for: nothing of the scan-out of a head has changed, and no event is lost. -/
structure ScanAside (n : Nat) (s t : State) : Prop where
  regs : RegsBut [Reg.DMX.STAT.word.addr] s t
  ctrs : CtrsBut [cTUN 0, cTUN 1] s t
  pending : ∀ k, srcSt s k = .pending → srcSt t k = .pending
  scan : (head t n).scan = (head s n).scan

theorem ScanAside.refl {n : Nat} : ScanAside n s s := ⟨.refl, fun _ _ => rfl, fun _ hk => hk, rfl⟩

theorem ScanAside.ite {n : Nat} {c : Prop} [Decidable c] (a : ScanAside n s t) (b : ScanAside n s u) : ScanAside n s (if c then t else u) := by
  split
  · exact a
  · exact b

theorem ScanAside.stat {n : Nat} (a : ScanAside n s t) {f : Fld} (hf : f.addr = (Reg.DSP.STAT.word h.val).addr) : rd f t = rd f s := by
  unfold rd
  rw [a.regs _ (hf ▸ dspStat_ne_dmxStat)]

theorem ScanAside.dsp {n m k : Nat} (a : ScanAside n s t) : ctrGet t (cDSP m k) = ctrGet s (cDSP m k) :=
  a.ctrs _ (by simp [cDSP_ne_cTUN])

theorem originate_scanAside {n slot tun : Nat} {b : List Byte} : ScanAside n s (originate slot tun b s) where
  regs := .of_eq ((originate_keeps rfl (Keeps.refl 138388 s)).regs rfl)
  ctrs a ha := by
    simp only [List.mem_cons, List.not_mem_nil, or_false, not_or] at ha
    exact ctrGet_originate ha.1 ha.2
  pending := (ProxyAside.refl.originate).pending
  scan := congrArg Head.scan (head_congr ((originate_keeps rfl (Keeps.refl 138388 s)).heads rfl) n)

theorem sendDisp_scanAside {n m kind : Nat} {b : List Byte} : ScanAside n s (sendDisp m kind b s) := by
  unfold sendDisp
  extract_lets tun
  exact .ite .refl originate_scanAside

theorem overrun_scanAside {n k y : Nat} {f : Fld} (hf : f.addr = Reg.DMX.STAT.word.addr) : ScanAside n s (raise k (wr f y s)) where
  regs := (RegsBut.refl.wr (hf ▸ List.mem_singleton_self _)).raise
  ctrs a _ := (ctrGet_congr (raise_kept.ctrs rfl) a).trans (ctrGet_congr wr_ctrs a)
  pending j hj := srcSt_raise_pending ((srcSt_congr wr_srcs j).trans hj)
  scan := congrArg Head.scan ((head_congr (raise_kept.heads rfl) n).trans (head_congr wr_heads n))

theorem sendStream_scanAside {n m line : Nat} {px : List (Nat × Nat × Nat)} : ScanAside n s (sendStream m line px s) := by
  unfold sendStream
  extract_lets tm bpc b
  exact .ite (.ite (overrun_scanAside (apply_ite Fld.addr _ _ _ |>.trans (ite_self _))) originate_scanAside) .refl

theorem ask_scanAside {n : Nat} : ScanAside n s (ask n s) where
  regs := .of_eq ((ask_keeps rfl (Keeps.refl 134217728 s)).regs rfl)
  ctrs a _ := ctrGet_congr ((ask_keeps rfl (Keeps.refl 134217728 s)).ctrs rfl) a
  pending k hk := (srcSt_congr ((ask_keeps rfl (Keeps.refl 134217728 s)).srcs rfl) k).trans hk
  scan := by
    unfold ask
    extract_lets x out room va r
    split
    · rfl
    · rw [head_setHead_same]
      rfl

/-! The line that goes out (R353, R364). -/

/-- A head that found no line: the underrun colour goes out, and the line is fetched no more. -/
def underrunHead (l : Nat) (px : List (Nat × Nat × Nat)) (x : Head) : Head :=
  { x with
    out := px
    underSaid := true
    asked := x.asked.filter (· != l)
    nextAsk := if x.nextAsk = some l then (if l + 1 < tVACT x.timing then some (l + 1) else if x.cmdMode then none else some 0) else x.nextAsk }

/-- The pixels of a buffered line. -/
def linePixels (x : Head) (e : FbLine) : List (Nat × Nat × Nat) :=
  (List.range (tHACT x.timing)).map (pixel x.active x.palette (tBPC x.timing) e)

/-- The pixels of a line that is missing. -/
def underPixels (s : State) (n : Nat) (x : Head) : List (Nat × Nat × Nat) :=
  (List.range (tHACT x.timing)).map fun _ => underColour s n (tBPC x.timing)

theorem outputLine_buffered {n : Nat} {e : FbLine} {rest : List FbLine} (hb : (head s n).buf.dropWhile (fun e => e.line != l) = e :: rest) :
    outputLine n l s = sendStream n l (linePixels (head s n) e)
      (updHead n (fun x => { x with buf := rest, out := linePixels (head s n) e }) s) := by
  unfold outputLine
  extract_lets x bpc buf cols
  rw [show buf = e :: rest from hb]
  rfl

/-- The state in which a missing line has been counted. -/
def missed (n l : Nat) (s : State) : State := count (cDSP n 0) (updHead n (underrunHead l (underPixels s n (head s n))) s)

theorem outputLine_underrun {n : Nat} (hb : (head s n).buf.dropWhile (fun e => e.line != l) = []) :
    outputLine n l s = sendStream n l (underPixels s n (head s n))
      (if (head s n).underSaid then missed n l s
       else sendDisp n 4 (beBytes 8 (lineNs (missed n l s)) ++ beBytes 2 l ++ [0, 0])
        (dspErr (Reg.DSP.STAT.UNDER n) (srcUNDERRUN n) (missed n l s))) := by
  unfold outputLine
  extract_lets x bpc buf cols
  rw [show buf = [] from hb]
  rfl

end

end Sys2Proof.Machine
end

section
/-! The lines of a head (R361 to R364): LINE_START, and what the line it puts out shows and counts. -/

namespace Sys2Proof.Machine

section
variable {s t u : State} {h : Fin 2} {l : Nat}

/-! A missing line. -/

theorem missed_kept {n : Nat} : Keeps 134348820 s (missed n l s) := count_keeps rfl (updHead_keeps rfl (Keeps.refl _ s))

theorem head_missed {n : Nat} : head (missed n l s) n = underrunHead l (underPixels s n (head s n)) (head s n) :=
  (head_congr (count_kept.heads rfl) n).trans head_updHead_same

theorem missed_quiet {n k : Nat} (hk : srcSt s k = .idle) : srcSt (missed n l s) k = .idle ∨ srcSt (missed n l s) k = .pending :=
  (ProxyAside.refl.count (a := cDSP n 0)).idle k ((srcSt_congr (updHead_kept.srcs rfl) k).trans hk)

/-- The state in which a missing line has been said, where it had not been in this frame. -/
def saidMissed (n l : Nat) (s : State) : State :=
  if (head s n).underSaid then missed n l s
  else sendDisp n 4 (beBytes 8 (lineNs (missed n l s)) ++ beBytes 2 l ++ [0, 0])
    (dspErr (Reg.DSP.STAT.UNDER n) (srcUNDERRUN n) (missed n l s))

theorem saidMissed_said {n : Nat} (hs : (head s n).underSaid = true) : saidMissed n l s = missed n l s := if_pos hs

theorem saidMissed_first {n : Nat} (hs : (head s n).underSaid = false) :
    ∃ b, saidMissed n l s = sendDisp n 4 b (dspErr (Reg.DSP.STAT.UNDER n) (srcUNDERRUN n) (missed n l s)) :=
  ⟨_, if_neg (by rw [hs]; exact Bool.false_ne_true)⟩

theorem dspErr_kept {f : Fld} {n : Nat} : Keeps 18 s (dspErr f n s) := dspErr_keeps rfl (Keeps.refl _ s)

/-- Of DSPn.STAT only UNDER changes with a missing line; counters and the scan of the head are those of `missed`. -/
theorem saidMissed_stat {g : Fld} (hg : g.addr = (Reg.DSP.STAT.word h.val).addr) (hlo : 16 ≤ g.lo) : rd g (saidMissed h l s) = rd g s := by
  have hmiss : rd g (missed h l s) = rd g s := rd_congr (missed_kept.regs rfl) g
  cases hs : (head s h).underSaid
  · obtain ⟨b, hb⟩ := saidMissed_first (l := l) hs
    rw [hb, sendDisp_scanAside.stat (n := h) hg, dspErr, rd_congr raise_regs,
      rd_wr_field (f := Reg.DSP.STAT.UNDER h) (Nat.le_of_ble_eq_true rfl) (.inl hlo), hmiss]
  · rw [saidMissed_said hs, hmiss]

theorem saidMissed_scan {n : Nat} : (head (saidMissed n l s) n).scan = (head (missed n l s) n).scan := by
  cases hs : (head s n).underSaid
  · obtain ⟨b, hb⟩ := saidMissed_first (l := l) hs
    rw [hb, sendDisp_scanAside.scan, head_congr (dspErr_kept.heads rfl)]
  · rw [saidMissed_said hs]

theorem saidMissed_ctr {n k : Nat} : ctrGet (saidMissed n l s) (cDSP n k) = ctrGet (missed n l s) (cDSP n k) := by
  cases hs : (head s n).underSaid
  · obtain ⟨b, hb⟩ := saidMissed_first (l := l) hs
    rw [hb, sendDisp_scanAside.dsp (n := n), ctrGet_congr (dspErr_kept.ctrs rfl)]
  · rw [saidMissed_said hs]

/-! What a line that goes out shows. -/

theorem outputLine_missing {n : Nat} (hb : (head s n).buf.dropWhile (fun e => e.line != l) = []) :
    outputLine n l s = sendStream n l (underPixels s n (head s n)) (saidMissed n l s) := outputLine_underrun hb

theorem outputLine_stat {g : Fld} (hg : g.addr = (Reg.DSP.STAT.word h.val).addr) (hlo : 16 ≤ g.lo) : rd g (outputLine h l s) = rd g s := by
  cases hb : (head s h).buf.dropWhile fun e => e.line != l with
  | nil => rw [outputLine_missing hb, sendStream_scanAside.stat (n := h) hg, saidMissed_stat hg hlo]
  | cons e rest => rw [outputLine_buffered hb, sendStream_scanAside.stat (n := h) hg, rd_updHead]

theorem scan_eq {x : Head} {b : List FbLine} {o : List (Nat × Nat × Nat)} {f : Bool} {a : Nat} (e : x.scan = (b, o, f, a)) :
    x.buf = b ∧ x.out = o ∧ x.fresh = f ∧ x.lineAt = a := by
  simpa [Head.scan] using e

/-- A line that is in the buffer leaves it. -/
theorem outputLine_scan_buffered {n : Nat} {e : FbLine} {rest : List FbLine}
    (hb : (head s n).buf.dropWhile (fun e => e.line != l) = e :: rest) :
    (head (outputLine n l s) n).scan = (rest, linePixels (head s n) e, (head s n).fresh, (head s n).lineAt) := by
  rw [outputLine_buffered hb, sendStream_scanAside.scan, head_updHead_same]
  rfl

/-- A missing line goes out in the underrun colour. -/
theorem outputLine_scan_missing {n : Nat} (hb : (head s n).buf.dropWhile (fun e => e.line != l) = []) :
    (head (outputLine n l s) n).scan = ((head s n).buf, underPixels s n (head s n), (head s n).fresh, (head s n).lineAt) := by
  rw [outputLine_missing hb, sendStream_scanAside.scan, saidMissed_scan, head_missed]
  rfl

theorem outputLine_start {n : Nat} :
    (head (outputLine n l s) n).fresh = (head s n).fresh ∧ (head (outputLine n l s) n).lineAt = (head s n).lineAt := by
  cases hb : (head s n).buf.dropWhile fun e => e.line != l with
  | nil => exact (scan_eq (outputLine_scan_missing hb)).2.2
  | cons e rest => exact (scan_eq (outputLine_scan_buffered hb)).2.2

theorem outputLine_ctr {n : Nat} (hb : (head s n).buf.dropWhile (fun e => e.line != l) = []) :
    ctrGet (outputLine n l s) (cDSP n 0) = ctrGet (missed n l s) (cDSP n 0) := by
  rw [outputLine_missing hb, sendStream_scanAside.dsp (n := n), saidMissed_ctr]

theorem outputLine_under (hb : (head s h).buf.dropWhile (fun e => e.line != l) = []) (hs : (head s h).underSaid = false) :
    rd (Reg.DSP.STAT.UNDER h.val) (outputLine h l s) = 1 := by
  obtain ⟨b, hfirst⟩ := saidMissed_first (l := l) hs
  rw [outputLine_missing hb, hfirst, sendStream_scanAside.stat (n := h) (f := Reg.DSP.STAT.UNDER h) (h := h) rfl,
    sendDisp_scanAside.stat (n := h) (f := Reg.DSP.STAT.UNDER h) (h := h) rfl, dspErr, rd_congr raise_regs]
  exact rd_wr_same (Nat.le_of_ble_eq_true rfl)

/-- A write of a head's status changes nothing of who may fire. -/
theorem srcAlive_wr_stat {f : Fld} {y k : Nat} (hf : f.addr = (Reg.DSP.STAT.word h.val).addr) : srcAlive (wr f y s) k = srcAlive s k :=
  srcAlive_of_swoff (rd_wr_other (.inl (hf ▸ dspStat_ne_swoff))) wr_variant wr_domains k

theorem srcAlive_missed {n k : Nat} : srcAlive (missed n l s) k = srcAlive s k :=
  srcAlive_congr (missed_kept.regs rfl) missed_kept.variant (missed_kept.domains rfl) k

theorem outputLine_raises (hb : (head s h).buf.dropWhile (fun e => e.line != l) = []) (hs : (head s h).underSaid = false) :
    Raised (srcUNDERRUN h) s (outputLine h l s) := by
  intro halive hidle
  obtain ⟨b, hfirst⟩ := saidMissed_first (l := l) hs
  rw [outputLine_missing hb, hfirst]
  refine (sendStream_scanAside (n := h)).pending _ ((sendDisp_scanAside (n := h)).pending _ ?_)
  refine srcSt_raise_quiet ((srcAlive_wr_stat (f := Reg.DSP.STAT.UNDER h) (h := h) rfl).trans (srcAlive_missed.trans halive)) ?_
  rw [srcSt_congr wr_srcs]
  exact missed_quiet hidle

/-! LINE_START. -/

/-- Line `l` is the current one. -/
def lineBegun (n l : Nat) (s : State) : State :=
  wr (Reg.DSP.STAT.LINE n) l (updHead n (fun x => { x with fresh := false, lineAt := s.now, underSaid := if l = 0 then false else x.underSaid }) s)

theorem head_lineBegun {n : Nat} : head (lineBegun n l s) n =
    { head s n with fresh := false, lineAt := s.now, underSaid := if l = 0 then false else (head s n).underSaid } :=
  (head_congr wr_heads n).trans head_updHead_same

/-- An active line is the current one. -/
def lineActive (n l : Nat) (s : State) : State := wr (Reg.DSP.STAT.SSTATE n) 1 (lineBegun n l s)

theorem head_lineActive {n : Nat} : head (lineActive n l s) n = head (lineBegun n l s) n := head_congr wr_heads n

theorem rd_lineBegun {n : Nat} : rd (Reg.DSP.STAT.LINE n) (lineBegun n l s) = l % 8192 := rd_wr_same (Nat.le_of_ble_eq_true rfl)

theorem sstate_lineBegun {n : Nat} : rd (Reg.DSP.STAT.SSTATE n) (lineBegun n l s) = rd (Reg.DSP.STAT.SSTATE n) s :=
  (rd_wr_field (Nat.le_of_ble_eq_true rfl) (.inl (Nat.le_of_ble_eq_true rfl))).trans (rd_updHead _)

theorem rd_lineActive {n : Nat} : rd (Reg.DSP.STAT.LINE n) (lineActive n l s) = l % 8192 :=
  (rd_wr_field (Nat.le_of_ble_eq_true rfl) (.inr (Nat.le_of_ble_eq_true rfl))).trans rd_lineBegun

theorem sstate_lineActive {n : Nat} : rd (Reg.DSP.STAT.SSTATE n) (lineActive n l s) = 1 := rd_wr_same (Nat.le_of_ble_eq_true rfl)

/-- Registers beside the head's status are as they were. -/
theorem rd_lineActive_other {g : Fld} {n : Nat} (hg : g.addr ≠ (Reg.DSP.STAT.word n).addr) : rd g (lineActive n l s) = rd g s :=
  calc rd g (lineActive n l s)
    _ = rd g (lineBegun n l s) := rd_wr_other (f := Reg.DSP.STAT.SSTATE n) (.inl hg)
    _ = rd g (updHead n _ s) := rd_wr_other (f := Reg.DSP.STAT.LINE n) (.inl hg)
    _ = rd g s := rd_updHead g

theorem lineActive_kept {n : Nat} : Keeps 134217730 s (lineActive n l s) := wr_keeps rfl (wr_keeps rfl (updHead_keeps rfl (Keeps.refl _ s)))

theorem underPixels_lineActive : underPixels (lineActive h l s) h (head (lineActive h l s) h) = underPixels s h (head s h) := by
  have hrd {g : Fld} (hg : g.addr = (Reg.DSP.UCOLOR.word h.val).addr) : rd g (lineActive h l s) = rd g s :=
    rd_lineActive_other (hg ▸ dspStat_ne_ucolor)
  unfold underPixels underColour
  rw [head_lineActive, head_lineBegun, hrd (g := Reg.DSP.UCOLOR.R h) rfl, hrd (g := Reg.DSP.UCOLOR.G h) rfl, hrd (g := Reg.DSP.UCOLOR.B h) rfl]

theorem srcAlive_lineActive {k : Nat} : srcAlive (lineActive h l s) k = srcAlive s k :=
  srcAlive_of_swoff (rd_lineActive_other dspStat_ne_swoff) lineActive_kept.variant (lineActive_kept.domains rfl) k

theorem compat_lineActive : compat (lineActive h l s) = compat s := congrArg (· == 1) (rd_lineActive_other dspStat_ne_compat)

end

end Sys2Proof.Machine
end

section
/-! The display heads (R361 to R364, R368): LINE_START, FETCH_COMPLETE, TOL_PUBLISH and the display matrix. -/

namespace Sys2Proof.Machine

section
variable {s : State} {h : Fin 2} {l : Nat} {v : Word}

/-! LINE_START. -/

theorem exec_lineStart (hr : (head s h).running = true) (hw : tvWorks s = true)
    (hst : rd (Reg.DSP.STAT.SSTATE h.val) s = 1 ∨ rd (Reg.DSP.STAT.SSTATE h.val) s = 2)
    (hend : ¬ (rd (Reg.DSP.STAT.SSTATE h.val) s = 1 ∧ (head s h).fresh = false ∧ rd (Reg.DSP.STAT.LINE h.val) s + 1 = tVACT (head s h).timing))
    (hl : l = if (head s h).fresh = true ∨ tVTOT (head s h).timing ≤ rd (Reg.DSP.STAT.LINE h.val) s + 1 then 0
      else rd (Reg.DSP.STAT.LINE h.val) s + 1) :
    exec (.lineStart h) s = if l < tVACT (head s h).timing then .next (ask h (outputLine h l (lineActive h l s)))
      else .next (ask h (lineBegun h l s)) := by
  change execLineStart h s = _
  subst hl
  refine (if_neg ?_).trans (if_neg hend)
  rw [hr, hw]
  rcases hst with hst | hst <;> simp [hst]

theorem exec_lineStart_idle (hr : (head s h).running = false) : exec (.lineStart h) s = .next s := if_pos (by rw [hr]; rfl)

/-- A line of the blanking: only the line number changes, and lines are asked for. -/
theorem lineBlank_shown : rd (Reg.DSP.STAT.LINE h.val) (ask h (lineBegun h l s)) = l % 8192 ∧
    rd (Reg.DSP.STAT.SSTATE h.val) (ask h (lineBegun h l s)) = rd (Reg.DSP.STAT.SSTATE h.val) s ∧
    (head (ask h (lineBegun h l s)) h).scan = ((head s h).buf, (head s h).out, false, s.now) := by
  have hask := ask_scanAside (n := h.val) (s := lineBegun h l s)
  refine ⟨(hask.stat (h := h) (f := Reg.DSP.STAT.LINE h) rfl).trans rd_lineBegun,
    (hask.stat (h := h) (f := Reg.DSP.STAT.SSTATE h) rfl).trans sstate_lineBegun, hask.scan.trans ?_⟩
  rw [head_lineBegun]
  rfl

/-- An active line. -/
def lineOut (n l : Nat) (s : State) : State := ask n (outputLine n l (lineActive n l s))

theorem lineOut_stat {g : Fld} (hg : g.addr = (Reg.DSP.STAT.word h.val).addr) : rd g (lineOut h l s) = rd g (outputLine h l (lineActive h l s)) :=
  ask_scanAside.stat hg

theorem lineOut_shown : rd (Reg.DSP.STAT.LINE h.val) (lineOut h l s) = l % 8192 ∧ rd (Reg.DSP.STAT.SSTATE h.val) (lineOut h l s) = 1 :=
  ⟨(lineOut_stat (g := Reg.DSP.STAT.LINE h) rfl).trans
      ((outputLine_stat (g := Reg.DSP.STAT.LINE h) rfl (Nat.le_of_ble_eq_true rfl)).trans rd_lineActive),
    (lineOut_stat (g := Reg.DSP.STAT.SSTATE h) rfl).trans
      ((outputLine_stat (g := Reg.DSP.STAT.SSTATE h) rfl (Nat.le_of_ble_eq_true rfl)).trans sstate_lineActive)⟩

theorem lineOut_start {n : Nat} : (head (lineOut n l s) n).fresh = false ∧ (head (lineOut n l s) n).lineAt = s.now := by
  have hscan := (scan_eq (ask_scanAside.scan (n := n) (s := outputLine n l (lineActive n l s)))).2.2
  have hstart := outputLine_start (n := n) (l := l) (s := lineActive n l s)
  rw [head_lineActive, head_lineBegun] at hstart
  exact ⟨hscan.1.trans hstart.1, hscan.2.trans hstart.2⟩

theorem lineActive_buf {n : Nat} : (head (lineActive n l s) n).buf = (head s n).buf := by
  rw [head_lineActive, head_lineBegun]

/-- The line is the next one in the buffer. -/
theorem lineOut_buffered {n : Nat} {e : FbLine} {rest : List FbLine} (hb : (head s n).buf = e :: rest) (he : e.line = l) :
    (head (lineOut n l s) n).buf = rest ∧ (head (lineOut n l s) n).out = linePixels (head s n) e := by
  have hdrop : (head (lineActive n l s) n).buf.dropWhile (fun e => e.line != l) = e :: rest := by
    rw [lineActive_buf, hb]
    simp [he]
  have hout := scan_eq ((ask_scanAside.scan (n := n)).trans (outputLine_scan_buffered hdrop))
  rw [head_lineActive, head_lineBegun] at hout
  exact ⟨hout.1, hout.2.1⟩

theorem lineActive_missing {n : Nat} (hb : (head s n).buf = []) : (head (lineActive n l s) n).buf.dropWhile (fun e => e.line != l) = [] := by
  rw [lineActive_buf, hb]
  rfl

/-- No line is in the buffer: an underrun. -/
theorem lineOut_missing (hb : (head s h).buf = []) : (head (lineOut h l s) h).out = underPixels s h (head s h) := by
  rw [← underPixels_lineActive (l := l)]
  exact (scan_eq ((ask_scanAside.scan (n := h)).trans (outputLine_scan_missing (lineActive_missing hb)))).2.1

theorem lineOut_counts (hb : (head s h).buf = []) : CountsUp (cDSP h 0) s (lineOut h l s) := by
  intro hc hsat hv
  have hctr : ctrGet (updHead h (underrunHead l (underPixels (lineActive h l s) h (head (lineActive h l s) h))) (lineActive h l s)) (cDSP h 0) =
      ctrGet s (cDSP h 0) := (ctrGet_congr (updHead_kept.ctrs rfl) _).trans (ctrGet_congr (lineActive_kept.ctrs rfl) _)
  have hcompat : compat (updHead h (underrunHead l (underPixels (lineActive h l s) h (head (lineActive h l s) h))) (lineActive h l s)) = false :=
    (congrArg (· == 1) (rd_updHead _)).trans (compat_lineActive.trans hc)
  rw [← hctr] at hsat hv ⊢
  exact ask_scanAside.dsp.trans ((outputLine_ctr (lineActive_missing hb)).trans (ctrGet_count hcompat hsat hv))

theorem lineActive_unsaid {n : Nat} (hs : (head s n).underSaid = false ∨ l = 0) : (head (lineActive n l s) n).underSaid = false := by
  rw [head_lineActive, head_lineBegun]
  dsimp only
  split
  · rfl
  next hl => exact hs.resolve_right hl

theorem lineOut_said (hb : (head s h).buf = []) (hs : (head s h).underSaid = false ∨ l = 0) :
    rd (Reg.DSP.STAT.UNDER h.val) (lineOut h l s) = 1 ∧ Raised (srcUNDERRUN h) s (lineOut h l s) := by
  refine ⟨(lineOut_stat (g := Reg.DSP.STAT.UNDER h) rfl).trans (outputLine_under (lineActive_missing hb) (lineActive_unsaid hs)), ?_⟩
  intro halive hidle
  exact ask_scanAside.pending _ (outputLine_raises (lineActive_missing hb) (lineActive_unsaid hs) (srcAlive_lineActive.trans halive)
    ((srcSt_congr (lineActive_kept.srcs rfl) _).trans hidle))

/-! FETCH_COMPLETE. -/

theorem exec_fetchComplete_idle (b : Bool) (hn : tvWorks s = false ∨ dcmServes s 1 = false ∨ originHeld s 5 = true ∨ linkState s 5 = 4 ∨
    (head s h).asked = []) : exec (.fetchComplete h b) s = .next s := by
  change execFetchComplete h b s = _
  unfold execFetchComplete
  extract_lets n x
  split
  · rfl
  next hwork =>
    simp only [Bool.or_eq_true, Bool.not_eq_true', beq_iff_eq, not_or] at hwork
    obtain ⟨⟨⟨hw, hd⟩, hk⟩, ho⟩ := hwork
    rw [show x.asked = [] from hn.elim (absurd · hw) fun hn => hn.elim (absurd · hd) fun hn => hn.elim (absurd · ho) fun hn => hn.resolve_left hk]

theorem exec_fetchComplete {b : Bool} {ls : List Nat} (hw : tvWorks s = true) (hd : dcmServes s 1 = true) (ho : originHeld s 5 = false)
    (hk : linkState s 5 ≠ 4) (ha : (head s h).asked = l :: ls) :
    exec (.fetchComplete h b) s = .next (if b then
        updHead h (fun x => { x with buf := x.buf ++ [fetchLine (updHead h (fun x => { x with asked := ls }) s) x.active l] })
          (updHead h (fun x => { x with asked := ls }) s)
      else dspErr (Reg.DSP.STAT.FB_ERR h) (srcFB_ERR h) (count (cDSP h 1) (updHead h (fun x => { x with asked := ls }) s))) := by
  change execFetchComplete h b s = _
  unfold execFetchComplete
  extract_lets n x
  rw [if_neg (by simp [hw, hd, ho, hk]), show x.asked = l :: ls from ha]
  cases b <;> rfl

theorem fetchLine_congr {t : State} (e : t.deep = s.deep) (p : List Word) : fetchLine t p l = fetchLine s p l := by
  unfold fetchLine
  simp only [deepReads_congr e]

theorem head_fetched {n : Nat} {ls : List Nat} : head (updHead n (fun x => { x with buf := x.buf ++
      [fetchLine (updHead n (fun x => { x with asked := ls }) s) x.active l] }) (updHead n (fun x => { x with asked := ls }) s)) n =
    { head s n with asked := ls, buf := (head s n).buf ++ [fetchLine s (head s n).active l] } := by
  rw [head_updHead_same, head_updHead_same, fetchLine_congr (updHead_kept.deep rfl)]

theorem fetched_only {n : Nat} {f g : Head → Head} : Only [.heads] s (updHead n g (updHead n f s)) :=
  (updHead_keeps rfl (updHead_keeps rfl (Keeps.refl 134217728 s))).onlyOf (by decide)

theorem head_fetchFailed {n a : Nat} {f : Fld} {ls : List Nat} :
    head (dspErr f a (count (cDSP n 1) (updHead n (fun x => { x with asked := ls }) s))) n = { head s n with asked := ls } :=
  (head_congr (dspErr_kept.heads rfl) n).trans ((head_congr (count_kept.heads rfl) n).trans head_updHead_same)

theorem raised_fetchFailed {g : Head → Head} {a k : Nat} :
    Raised k s (dspErr (Reg.DSP.STAT.FB_ERR h) k (count a (updHead h g s))) := by
  intro halive hidle
  refine srcSt_raise_quiet ((srcAlive_wr_stat (f := Reg.DSP.STAT.FB_ERR h) (h := h) rfl).trans
    ((srcAlive_congr (count_kept.regs rfl) count_kept.variant (count_kept.domains rfl) k).trans
      ((srcAlive_congr (updHead_kept.regs rfl) updHead_kept.variant (updHead_kept.domains rfl) k).trans halive))) ?_
  rw [srcSt_congr wr_srcs]
  exact (ProxyAside.refl.count (a := a)).idle k ((srcSt_congr (updHead_kept.srcs rfl) k).trans hidle)

/-! TOL_PUBLISH. -/

theorem tolNow_le {n : Nat} : tolNow s n < 2 ^ 24 := by
  unfold tolNow
  extract_lets x st
  split <;> omega

theorem exec_tolPublish : ∃ u, exec (.tolPublish h) s = .next u ∧ u.regs = (wr (Reg.DSP.LTOL.TOL h) (tolNow s h) s).regs := ⟨_, rfl, rfl⟩

theorem rd_tolShown {n : Nat} : rd (Reg.DSP.LTOL.TOL n) (wr (Reg.DSP.LTOL.TOL n) (tolNow s n) s) = tolNow s n :=
  (rd_wr_same (Nat.le_of_ble_eq_true rfl)).trans (Nat.mod_eq_of_lt tolNow_le)

theorem tolShown_regsBut {n y : Nat} : RegsBut [(Reg.DSP.LTOL.word n).addr] s (wr (Reg.DSP.LTOL.TOL n) y s) :=
  RegsBut.wr (f := Reg.DSP.LTOL.TOL n) .refl (List.mem_singleton_self _)

theorem tolNow_idle {n : Nat} (hr : (head s n).running = false) : tolNow s n = 0xFFFFFF := if_pos (by rw [hr]; rfl)

/-! The display matrix. -/

theorem exec_dmxRouteWrite {st : Nat} {u : State} (ha : accStat s Reg.DMX.ROUTE.word.addr = ST_OK) (hw : dmxRouteWrite v s = (st, u)) :
    exec (.dmxRouteWrite v) s = .next u := (if_pos ha).trans (congrArg (fun r : Nat × State => Host.Outcome.next r.2) hw)

theorem dmxRouteWrite_free (h0 : headBusy s 0 = false) (h1 : headBusy s 1 = false) :
    dmxRouteWrite v s = (ST_OK, regSet s Reg.DMX.ROUTE.word.addr v) := if_neg (by rw [h0, h1]; exact Bool.false_ne_true)

theorem dmxRouteWrite_busy (hb : (headBusy s 0 = true ∧ Reg.DMX.ROUTE.OUT0.of v ≠ rd Reg.DMX.ROUTE.OUT0 s) ∨
    (headBusy s 1 = true ∧ Reg.DMX.ROUTE.TUN1.of v ≠ rd Reg.DMX.ROUTE.TUN1 s)) : dmxRouteWrite v s = (ST_BUSY, s) := by
  refine if_pos ?_
  rw [Bool.or_eq_true, Bool.and_eq_true, Bool.and_eq_true, Bool.or_eq_true, Bool.or_eq_true, bne_iff_ne, bne_iff_ne, bne_iff_ne, bne_iff_ne]
  exact hb.imp (.imp_right .inl) (.imp_right .inr)

/-- The first port that drives a head. -/
def headPort (s : State) (n : Nat) : Option Nat :=
  ((List.range 8).filter fun t => rdB (Reg.TCP.ALT.ACTIVE t) s && rd (Reg.TCP.ALT.HEAD t) s == n).head?

/-- What DMX.STAT shows of a head's port, read in `s`. -/
def showPort (p : Option Nat) (held hpd w4 : Fld) (s u : State) : State :=
  match p with
  | none => wr held 0 (wr hpd 0 (wr w4 0 u))
  | some t => wr held 1 (wr hpd (rd (Reg.TCP.ALT.HPD t) s) (wr w4 (ofBool (rd (Reg.TCP.ALT.PINASG t) s == 1)) u))

theorem exec_dmxStatusRelay (hp : present s 5 = true) : exec .dmxStatusRelay s = .next
    (showPort (headPort s 0) Reg.DMX.STAT.HELD0 Reg.DMX.STAT.HPD0 Reg.DMX.STAT.W4_0 s
      (showPort (headPort s 1) Reg.DMX.STAT.HELD1 Reg.DMX.STAT.HPD1 Reg.DMX.STAT.W4_1 s s)) := if_pos hp

theorem showPort_regsBut {p : Option Nat} {held hpd w4 : Fld} {t u : State} {a : Nat} (hh : held.addr = a) (hd : hpd.addr = a) (hw : w4.addr = a)
    (hu : RegsBut [a] s u) : RegsBut [a] s (showPort p held hpd w4 t u) := by
  subst hw
  have hm : w4.addr ∈ [w4.addr] := List.mem_singleton_self _
  cases p <;> exact ((hu.wr hm).wr (hd ▸ hm)).wr (hh ▸ hm)

theorem headPort_none {n : Nat} (hn : ∀ t, t < 8 → rdB (Reg.TCP.ALT.ACTIVE t) s = false) : headPort s n = none := by
  unfold headPort
  rw [List.head?_eq_none_iff, List.filter_eq_nil_iff]
  intro t ht
  rw [hn t (List.mem_range.1 ht)]
  exact Bool.false_ne_true

theorem rd_lt (f : Fld) : rd f s < 2 ^ f.w := Nat.mod_lt _ (Nat.two_pow_pos _)

theorem showPort_some {t : Nat} {u : State} :
    rd Reg.DMX.STAT.HELD0 (showPort (some t) Reg.DMX.STAT.HELD0 Reg.DMX.STAT.HPD0 Reg.DMX.STAT.W4_0 s u) = 1 ∧
    rd Reg.DMX.STAT.HPD0 (showPort (some t) Reg.DMX.STAT.HELD0 Reg.DMX.STAT.HPD0 Reg.DMX.STAT.W4_0 s u) = rd (Reg.TCP.ALT.HPD t) s ∧
    rd Reg.DMX.STAT.W4_0 (showPort (some t) Reg.DMX.STAT.HELD0 Reg.DMX.STAT.HPD0 Reg.DMX.STAT.W4_0 s u) =
      ofBool (rd (Reg.TCP.ALT.PINASG t) s == 1) := by
  refine ⟨rd_wr_same (by decide), ?_, ?_⟩
  · exact (rd_wr_other (by decide)).trans ((rd_wr_same (by decide)).trans (Nat.mod_eq_of_lt (rd_lt (Reg.TCP.ALT.HPD t))))
  · refine (rd_wr_other (by decide)).trans ((rd_wr_other (by decide)).trans ((rd_wr_same (by decide)).trans ?_))
    cases rd (Reg.TCP.ALT.PINASG t) s == 1 <;> rfl

/-- A head that no port drives. -/
theorem showPort_none {u : State} :
    rd Reg.DMX.STAT.HELD0 (showPort none Reg.DMX.STAT.HELD0 Reg.DMX.STAT.HPD0 Reg.DMX.STAT.W4_0 s u) = 0 ∧
    rd Reg.DMX.STAT.HPD0 (showPort none Reg.DMX.STAT.HELD0 Reg.DMX.STAT.HPD0 Reg.DMX.STAT.W4_0 s u) = 0 ∧
    rd Reg.DMX.STAT.HELD1 (showPort none Reg.DMX.STAT.HELD0 Reg.DMX.STAT.HPD0 Reg.DMX.STAT.W4_0 s u) = rd Reg.DMX.STAT.HELD1 u ∧
    rd Reg.DMX.STAT.HPD1 (showPort none Reg.DMX.STAT.HELD0 Reg.DMX.STAT.HPD0 Reg.DMX.STAT.W4_0 s u) = rd Reg.DMX.STAT.HPD1 u :=
  ⟨rd_wr_same (by decide), (rd_wr_other (by decide)).trans (rd_wr_same (by decide)),
    (rd_wr_other (by decide)).trans ((rd_wr_other (by decide)).trans (rd_wr_other (by decide))),
    (rd_wr_other (by decide)).trans ((rd_wr_other (by decide)).trans (rd_wr_other (by decide)))⟩

theorem showPort_none_head1 {u : State} :
    rd Reg.DMX.STAT.HELD1 (showPort none Reg.DMX.STAT.HELD1 Reg.DMX.STAT.HPD1 Reg.DMX.STAT.W4_1 s u) = 0 ∧
    rd Reg.DMX.STAT.HPD1 (showPort none Reg.DMX.STAT.HELD1 Reg.DMX.STAT.HPD1 Reg.DMX.STAT.W4_1 s u) = 0 :=
  ⟨rd_wr_same (by decide), (rd_wr_other (by decide)).trans (rd_wr_same (by decide))⟩

end

/-- Settles O43: FETCH_COMPLETE, LINE_START, TOL_PUBLISH and the display matrix, clause by clause. -/
theorem linesAreFetchedAndPutOut : Obligations.LinesAreFetchedAndPutOut := by
  unfold Obligations.LinesAreFetchedAndPutOut
  rintro h x s rfl
  refine ⟨fun l ls hw hd ho hk ha => ⟨⟨_, exec_fetchComplete hw hd ho hk ha, head_fetched, ?_⟩,
      _, exec_fetchComplete hw hd ho hk ha, head_fetchFailed, ?_, raised_fetchFailed, ?_⟩,
    fun hn b => exec_fetchComplete_idle b hn, fun l hr hw hst hend hl => ?_, exec_lineStart_idle, ?_, fun v ha => ⟨fun h0 h1 => ?_, fun hb => ?_⟩,
    fun hp => ⟨fun t ht => ?_, fun hn => ?_⟩⟩
  · rw [if_pos rfl]
    exact fetched_only
  · exact (rd_congr raise_regs _).trans (rd_wr_same (Nat.le_of_ble_eq_true rfl))
  · exact count_countsUp.between (updHead_kept.regs rfl) (updHead_kept.ctrs rfl) (dspErr_kept.ctrs rfl)
  · by_cases hact : l < tVACT (head s h).timing
    · refine ⟨lineOut h l s, (exec_lineStart hr hw hst hend hl).trans (if_pos hact), lineOut_shown.1, lineOut_start.1, lineOut_start.2,
        fun _ => lineOut_shown.2, fun hle => absurd hact (Nat.not_lt.2 hle), fun e rest _ hb he => lineOut_buffered hb he,
        fun _ hb => ⟨lineOut_counts hb, lineOut_missing hb, lineOut_said hb⟩⟩
    · obtain ⟨hline, hstate, hscan⟩ := lineBlank_shown (s := s) (h := h) (l := l)
      obtain ⟨hbuf, -, hfresh, hat⟩ := scan_eq hscan
      exact ⟨_, (exec_lineStart hr hw hst hend hl).trans (if_neg hact), hline, hfresh, hat, fun hlt => absurd hlt hact,
        fun _ => ⟨hstate, hbuf⟩, fun _ _ hlt => absurd hlt hact, fun hlt => absurd hlt hact⟩
  · obtain ⟨u, hexec, hregs⟩ := exec_tolPublish (s := s) (h := h)
    have htol : rd (Reg.DSP.LTOL.TOL h.val) u = tolNow s h := (rd_congr hregs _).trans rd_tolShown
    exact ⟨u, hexec, htol, tolShown_regsBut.trans (.of_eq hregs), fun hr => htol.trans (tolNow_idle hr)⟩
  · exact ⟨_, exec_dmxRouteWrite ha (dmxRouteWrite_free h0 h1), regGet_regSet_same, RegsBut.refl.regSet (List.mem_singleton_self _), regSet_only⟩
  · exact exec_dmxRouteWrite ha (dmxRouteWrite_busy hb)
  · have hport : headPort s 0 = some t := ht
    have hexec := exec_dmxStatusRelay hp
    rw [hport] at hexec
    obtain ⟨hheld, hhpd, hw4⟩ := showPort_some (s := s) (t := t)
      (u := showPort (headPort s 1) Reg.DMX.STAT.HELD1 Reg.DMX.STAT.HPD1 Reg.DMX.STAT.W4_1 s s)
    exact ⟨_, hexec, hheld, hhpd, hw4, showPort_regsBut rfl rfl rfl (showPort_regsBut rfl rfl rfl .refl)⟩
  · have hexec := exec_dmxStatusRelay hp
    rw [headPort_none hn, headPort_none hn] at hexec
    obtain ⟨hheld0, hhpd0, hheld1, hhpd1⟩ := showPort_none (s := s)
      (u := showPort none Reg.DMX.STAT.HELD1 Reg.DMX.STAT.HPD1 Reg.DMX.STAT.W4_1 s s)
    exact ⟨_, hexec, hheld0, hheld1.trans showPort_none_head1.1, hhpd0, hhpd1.trans showPort_none_head1.2⟩

end Sys2Proof.Machine
end

section
/-! Relayed replies, orphans and sessions (R259, R267 to R278, R351): which tag a reply frees, what GET_ORPHAN takes, and how a session opens
and ends. -/

namespace Sys2Proof.Machine

section
variable {s : State} {o : Origin}

/-! Replies leave the sessions alone. -/

theorem sendReply_sessions {held : Bool} {b : List Byte} : (sendReply held o b s).cmd.sessions = s.cmd.sessions := by
  have hsent : (sendUnpoliced o.src o.tun 6 1 (o.xpr && b.length ≤ 116) b s).cmd = s.cmd :=
    (sendUnpoliced_keeps rfl (Keeps.refl 1024 s)).cmd rfl
  unfold sendReply
  split
  · rfl
  · split
    · rfl
    · rw [hsent]
  · split
    · rfl
    · rw [msix_cmd]

theorem deliver_sessions {b : List Byte} : (deliver o b s).cmd.sessions = s.cmd.sessions := by
  unfold deliver
  split
  · rfl
  · rw [sendReply_sessions]
    split <;> rfl

/-! An open session and its end (R269). -/

/-- A mark that takes what it marks out of sight. -/
theorem filter_marked {α : Type} {p : α → Bool} {d : α → Prop} [DecidablePred d] {f : α → α} (hf : ∀ x, p (f x) = false) (l : List α) :
    (l.map fun x => if d x then f x else x).filter p = l.filter fun x => !decide (d x) && p x := by
  induction l with
  | nil => rfl
  | cons x l ih => by_cases hx : d x <;> simp [List.filter_cons, hx, hf, ih]

/-- Either way of ending session `n` leaves the open sessions of other numbers. -/
theorem openSession_endSession {k n : Nat} : openSession (endSession n s) k =
    (s.cmd.sessions.filter fun x => x.num != n && (x.num == k && !x.ended)).head? := by
  unfold openSession endSession
  split
  · exact congrArg List.head? (filter_marked (d := fun x : Session => x.num = n) (f := fun x => { x with ended := true })
      (p := fun x => x.num == k && !x.ended) (fun _ => Bool.and_false _) s.cmd.sessions)
  · exact congrArg List.head? ((List.filter_filter ..).trans (List.filter_congr fun x _ => Bool.and_comm ..))

theorem openSession_endSession_same {n : Nat} : openSession (endSession n s) n = none := by
  rw [openSession_endSession, List.head?_eq_none_iff, List.filter_eq_nil_iff]
  intro x _
  cases h : x.num == n <;> simp [bne, h]

theorem openSession_endSession_other {k n : Nat} (h : k ≠ n) : openSession (endSession n s) k = openSession s k := by
  rw [openSession_endSession]
  refine congrArg List.head? (List.filter_congr fun x _ => ?_)
  cases hx : x.num == k
  · exact Bool.and_false _
  · rw [eq_of_beq hx, bne_iff_ne.2 h]
    rfl

theorem endSession_only {n : Nat} : Only [.cmd] s (endSession n s) := (endSession_keeps rfl (Keeps.refl 16384 s)).onlyOf (by decide)

/-! SESSION_OPEN (R267, R268). -/

/-- What SESSION_OPEN looks at: the command at work, and no ended session without a command in flight. -/
def sessionsPruned (o : Origin) (s : State) : State := pruneSessions (dispatch o s)

theorem mem_sessionsPruned {x : Session} (h : x ∈ (sessionsPruned o s).cmd.sessions) : x ∈ s.cmd.sessions := List.mem_of_mem_filter h

theorem sessionsPruned_keepsOpen {x : Session} (h : x ∈ s.cmd.sessions) (he : x.ended = false) : x ∈ (sessionsPruned o s).cmd.sessions :=
  List.mem_filter.2 ⟨h, by simp [he]⟩

/-- The number `n` is free. -/
theorem freeSession_eq_some {n : Nat} (h0 : 0 < n) (h32 : n ≤ 32) (hn : ∀ x, x ∈ s.cmd.sessions → x.num ≠ n)
    (hlow : ∀ k, 0 < k → k < n → ∃ x, x ∈ s.cmd.sessions ∧ x.num = k) : freeSession s = some n := by
  rw [freeSession, List.head?_filter, List.find?_range_eq_some]
  refine ⟨?_, List.mem_range.2 (by omega), fun k hk => ?_⟩
  · simpa [h0] using hn
  · rcases Nat.eq_zero_or_pos k with rfl | hk0
    · rfl
    · simpa [hk0] using hlow k hk0 hk

theorem freeSession_eq_none (h : ∀ k, 0 < k → k ≤ 32 → ∃ x, x ∈ s.cmd.sessions ∧ x.num = k) : freeSession s = none := by
  rw [freeSession, List.head?_filter, List.find?_range_eq_none]
  intro k hk
  rcases Nat.eq_zero_or_pos k with rfl | hk0
  · rfl
  · simpa [hk0] using h k hk0 (by omega)

/-- The session that a grant opens under the number `n` and the chip's nonce `nd` (R268). -/
def grantedSession (s : State) (o : Origin) (body : List Byte) (n : Nat) (nd : List Byte) : Session :=
  let g := body.take 128
  { num := n, ep := o.ep, src := o.src, gmask := field g 2 2, macReq := bit 0 (field g 1 1), alo := field g 4 2, ahi := field g 6 2
    notAfter := field g 16 8
    key := beBytes 16 (Config.aesCmac (lineKey s) ([0x4C, 0x48, 0x38, 0x53] ++ beBytes 2 (ownAddr s) ++ beBytes 2 n ++
      (body.drop 128).take 8 ++ nd)).toNat
    high := 0, seen := [], macFails := 0, ended := false }

section
variable {body : List Byte} (hm : mayDispatch s o = true) (hl : body.length = 136)
include hm hl

theorem exec_sessionOpen_denied (h : grantOk s o (body.take 128) = false ∨ (keyValid s = false ∧ o.ep = .line)) :
    exec (.sessionOpen o body) s = .next (reply o ST_DENIED [] (sessionsPruned o s)) := by
  refine Eq.trans (a := execSessionOpen o body s) (command_runs hm hl) (congrArg Host.Outcome.next ?_)
  cases hg : grantOk s o (body.take 128)
  · exact if_pos (congrArg not hg)
  · obtain h | ⟨hk, he⟩ := h
    · rw [hg] at h
      cases h
    · have hkey : keyValid (pruneSessions (dispatch o s)) = false := hk
      refine (if_neg (Bool.eq_false_iff.1 (congrArg not hg))).trans (if_pos ?_)
      rw [hkey, he]
      rfl

variable (hg : grantOk s o (body.take 128) = true) (hk : keyValid s = true)
include hg hk

theorem exec_sessionOpen_busy (hn : freeSession (sessionsPruned o s) = none) :
    exec (.sessionOpen o body) s = .next (reply o ST_BUSY [] (sessionsPruned o s)) := by
  have hkey : keyValid (pruneSessions (dispatch o s)) = true := hk
  have hfree : freeSession (pruneSessions (dispatch o s)) = none := hn
  refine Eq.trans (a := execSessionOpen o body s) (command_runs hm hl) (congrArg Host.Outcome.next ?_)
  refine (if_neg (Bool.eq_false_iff.1 (congrArg not hg))).trans ((if_neg ?_).trans ?_)
  · rw [hkey]
    exact Bool.false_ne_true
  · rw [hfree]
    rfl

theorem exec_sessionOpen_opens {n : Nat} (hn : freeSession (sessionsPruned o s) = some n) :
    ∃ t nd, exec (.sessionOpen o body) s = .next t ∧
      t.cmd.sessions = (sessionsPruned o s).cmd.sessions ++ [grantedSession s o body n nd] := by
  have hkey : keyValid (pruneSessions (dispatch o s)) = true := hk
  have hfree : freeSession (pruneSessions (dispatch o s)) = some n := hn
  refine ⟨_, beBytes 8 (Config.freeValue s.free).toNat, Eq.trans (a := execSessionOpen o body s) (command_runs hm hl) (congrArg Host.Outcome.next
    ((if_neg (Bool.eq_false_iff.1 (congrArg not hg))).trans (if_neg ?_))), ?_⟩
  · rw [hkey]
    exact Bool.false_ne_true
  · rw [hfree]
    dsimp only
    split
    · rfl
    · rw [deliver_sessions]
      rfl

end

/-! SESSION_CLOSE and SESSION_INFO (R269, R278). -/

theorem exec_session_none (hm : mayDispatch s o = true) (h : openSession s o.session = none) :
    exec (.sessionClose o []) s = .next (reply o ST_NO_SESSION [] (dispatch o s)) ∧
      exec (.sessionInfo o []) s = .next (reply o ST_NO_SESSION [] (dispatch o s)) := by
  have hopen : openSession (dispatch o s) o.session = none := h
  constructor
  · change execSessionClose o [] s = _
    rw [execSessionClose, command_runs (n := 0) hm rfl, hopen]
  · change execSessionInfo o [] s = _
    rw [execSessionInfo, command_runs (n := 0) hm rfl, hopen]

theorem exec_session_some {x : Session} (hm : mayDispatch s o = true) (h : openSession s o.session = some x) :
    exec (.sessionClose o []) s = .next (endSession x.num (reply o ST_OK [] (dispatch o s))) ∧
      exec (.sessionInfo o []) s = .next (reply o ST_OK (beBytes 2 x.num ++ beBytes 1 (reqIdx x.ep) ++ [0] ++ beBytes 2 x.gmask ++ [0, 0] ++
        beBytes 8 x.notAfter ++ beBytes 4 x.high) (dispatch o s)) := by
  have hopen : openSession (dispatch o s) o.session = some x := h
  constructor
  · change execSessionClose o [] s = _
    rw [execSessionClose, command_runs (n := 0) hm rfl, hopen]
  · change execSessionInfo o [] s = _
    rw [execSessionInfo, command_runs (n := 0) hm rfl, hopen]

/-! SESSION_IDLE_TIMEOUT and SESSION_EXPIRY (R269). -/

theorem exec_sessionIdleTimeout_ends {n : Fin 33} {x : Session} (hi : rd Reg.CMD.SCFG.IDLE s ≠ 0) (hx : openSession s n = some x) :
    exec (.sessionIdleTimeout n) s = .next (endSession n s) := if_pos ⟨hi, by rw [hx]; rfl⟩

theorem exec_sessionIdleTimeout_stays {n : Fin 33} (h : rd Reg.CMD.SCFG.IDLE s = 0 ∨ openSession s n = none) :
    exec (.sessionIdleTimeout n) s = .next s := by
  refine if_neg fun ⟨hi, hx⟩ => h.elim hi fun hnone => ?_
  rw [hnone] at hx
  cases hx

theorem exec_sessionExpiry {n : Fin 33} {x : Session} (hx : openSession s n = some x) :
    exec (.sessionExpiry n) s = if x.notAfter < lineNs s ∧ x.notAfter ≠ 2 ^ 64 - 1 then .next (endSession n s) else .next s := by
  have hexec : exec (.sessionExpiry n) s = execSessionExpiry n s := rfl
  rw [hexec, execSessionExpiry, hx]

theorem exec_sessionExpiry_none {n : Fin 33} (hx : openSession s n = none) : exec (.sessionExpiry n) s = .next s := by
  have hexec : exec (.sessionExpiry n) s = execSessionExpiry n s := rfl
  rw [hexec, execSessionExpiry, hx]

/-! CMD_REPLY_RECEIVE and RELAY_TIMEOUT (R273): the reply frame that waits is taken, whatever its tag meets. -/

/-- The state without the oldest reply frame. -/
def replyTaken (l : List Frame) (s : State) : State := updCmd (fun c => { c with rspIn := l }) s

theorem relay_setRelay_same {n : Nat} {r : Option Relay} : Tab.get (fun _ => none) (setRelay n r s).cmd.relays n = r :=
  Tab.get_set_same _ _ _ _

/-- The state without the oldest reply frame, with its tag free. -/
def relayFreed (f : Frame) (l : List Frame) (s : State) : State := setRelay (field f.bytes 2 1) none (replyTaken l s)

theorem relay_relayFreed {f : Frame} {l : List Frame} : Tab.get (fun _ => none) (relayFreed f l s).cmd.relays (field f.bytes 2 1) = none :=
  relay_setRelay_same

/-- The state without the oldest reply frame, whose tag no longer waits for a late reply. -/
def lateTaken (f : Frame) (l : List Frame) (s : State) : State :=
  updCmd (fun c => { c with late := c.late.filter (· != field f.bytes 2 1) }) (replyTaken l s)

section
variable {f : Frame} {l : List Frame} (hf : s.cmd.rspIn = f :: l) (ht : field f.bytes 2 1 < 64)
include hf ht

theorem exec_cmdReplyReceive_cmd (hr : Tab.get (fun _ => none) s.cmd.relays (field f.bytes 2 1) = some (.cmd o)) :
    exec .cmdReplyReceive s = .next (returnRelayed o f.bytes (relayFreed f l s)) := by
  change execCmdReplyReceive s = _
  have hr' : (if field f.bytes 2 1 < 64 then Tab.get (fun _ => none) (replyTaken l s).cmd.relays (field f.bytes 2 1) else none) =
    some (.cmd o) := (if_pos ht).trans hr
  rw [execCmdReplyReceive, hf]
  simp only
  rw [← replyTaken, hr', relayFreed]

theorem exec_cmdReplyReceive_assign {p : Nat} (hr : Tab.get (fun _ => none) s.cmd.relays (field f.bytes 2 1) = some (.assign p)) :
    exec .cmdReplyReceive s = .next (if field f.bytes 3 1 = ST_OK ∨ field f.bytes 3 1 = ST_DENIED ∨ field f.bytes 3 1 = ST_BAD_PARAM then
      updLp p (fun x => { x with assigning := false }) (relayFreed f l s) else relayFreed f l s) := by
  change execCmdReplyReceive s = _
  have hr' : (if field f.bytes 2 1 < 64 then Tab.get (fun _ => none) (replyTaken l s).cmd.relays (field f.bytes 2 1) else none) =
    some (.assign p) := (if_pos ht).trans hr
  rw [execCmdReplyReceive, hf]
  simp only
  rw [← replyTaken, hr', relayFreed]

theorem exec_cmdReplyReceive_free (hr : Tab.get (fun _ => none) s.cmd.relays (field f.bytes 2 1) = none) :
    exec .cmdReplyReceive s = if s.cmd.late.contains (field f.bytes 2 1) then
      .next (count (cCMD 4) (lateTaken f l s))
      else .next (count (cCMD 3) (replyTaken l s)) := by
  change execCmdReplyReceive s = _
  have hr' : (if field f.bytes 2 1 < 64 then Tab.get (fun _ => none) (replyTaken l s).cmd.relays (field f.bytes 2 1) else none) = none :=
    (if_pos ht).trans hr
  rw [execCmdReplyReceive, hf]
  simp only
  rw [← replyTaken, hr']
  rfl

/-- What the answer to an address assignment does (R142). -/
theorem cmdReplyReceive_assign {p : Nat} (hr : Tab.get (fun _ => none) s.cmd.relays (field f.bytes 2 1) = some (.assign p)) :
    ∃ u, exec .cmdReplyReceive s = .next u ∧ Tab.get (fun _ => none) u.cmd.relays (field f.bytes 2 1) = none ∧ u.cmd.rspIn = l ∧
      (field f.bytes 3 1 = ST_OK ∨ field f.bytes 3 1 = ST_DENIED ∨ field f.bytes 3 1 = ST_BAD_PARAM → (lp u p).assigning = false) ∧
      (field f.bytes 3 1 = ST_BUSY → lp u p = lp s p) := by
  rw [exec_cmdReplyReceive_assign hf ht hr]
  by_cases hst : field f.bytes 3 1 = ST_OK ∨ field f.bytes 3 1 = ST_DENIED ∨ field f.bytes 3 1 = ST_BAD_PARAM
  · rw [if_pos hst]
    refine ⟨_, rfl, relay_relayFreed, rfl, fun _ => by rw [lp_updLp_same], fun hbusy => ?_⟩
    rw [hbusy] at hst
    exact absurd hst (by decide)
  · rw [if_neg hst]
    exact ⟨_, rfl, relay_relayFreed, rfl, fun h => absurd h hst, fun _ => rfl⟩

theorem cmdReplyReceive_late (hr : Tab.get (fun _ => none) s.cmd.relays (field f.bytes 2 1) = none)
    (hlate : s.cmd.late.contains (field f.bytes 2 1) = true) :
    ∃ u, exec .cmdReplyReceive s = .next u ∧ CountsUp (cCMD 4) s u ∧ field f.bytes 2 1 ∉ u.cmd.late ∧ u.cmd.rspIn = l := by
  refine ⟨_, (exec_cmdReplyReceive_free hf ht hr).trans (if_pos hlate), (count_countsUp (s := lateTaken f l s)).between rfl rfl rfl, ?_, ?_⟩ <;> rw [count_cmd]
  · exact fun h => absurd (List.mem_filter.1 h).2 (by simp)
  · rfl

theorem cmdReplyReceive_unknown (hr : Tab.get (fun _ => none) s.cmd.relays (field f.bytes 2 1) = none)
    (hlate : s.cmd.late.contains (field f.bytes 2 1) = false) :
    ∃ u, exec .cmdReplyReceive s = .next u ∧ CountsUp (cCMD 3) s u ∧ u.cmd = { s.cmd with rspIn := l } :=
  ⟨_, (exec_cmdReplyReceive_free hf ht hr).trans (if_neg (ne_true_of_eq_false hlate)),
    (count_countsUp (s := replyTaken l s)).between rfl rfl rfl, count_cmd⟩

end

theorem exec_cmdReplyReceive_none (h : s.cmd.rspIn = []) : exec .cmdReplyReceive s = .next s := by
  have hexec : exec .cmdReplyReceive s = execCmdReplyReceive s := rfl
  rw [hexec, execCmdReplyReceive, h]

/-- The state in which the tag `n` has timed out. -/
def relayLate (n : Nat) (s : State) : State :=
  setRelay n none (updCmd (fun c => { c with late := n :: c.late.filter (· != n) }) s)

theorem relayLate_only {n : Nat} : Only [.cmd] s (relayLate n s) :=
  (setRelay_keeps rfl (updCmd_keeps rfl (Keeps.refl 16384 s))).onlyOf (by decide)

theorem exec_relayTimeout_cmd {tag : Fin 64} (h : Tab.get (fun _ => none) s.cmd.relays tag = some (.cmd o)) :
    exec (.relayTimeout tag) s = .next (deliver o (replyHeader s o ST_TIMEOUT 0 false) (relayLate tag s)) := by
  have hexec : exec (.relayTimeout tag) s = execRelayTimeout tag s := rfl
  simp only [hexec, execRelayTimeout, h]
  rfl

theorem exec_relayTimeout_none {tag : Fin 64} (h : Tab.get (fun _ => none) s.cmd.relays tag = none) :
    exec (.relayTimeout tag) s = .next s := by
  have hexec : exec (.relayTimeout tag) s = execRelayTimeout tag s := rfl
  simp only [hexec, execRelayTimeout, h]

/-! Orphans (R275, R276, R351). -/

theorem exec_orphanExpiry {ep : EntryPoint} {x : EntryPoint × Nat × List Byte × Nat} {l : List (EntryPoint × Nat × List Byte × Nat)}
    (h : takeFirst (fun x : EntryPoint × Nat × List Byte × Nat => x.1 == ep) s.cmd.orphans = some (x, l)) :
    exec (.orphanExpiry ep) s = .next (if ep = .svc then
      wr Reg.SVC.ORPH.EXPIRED (min 65535 (rd Reg.SVC.ORPH.EXPIRED s + 1)) (updCmd (fun c => { c with orphans := l }) s)
      else updCmd (fun c => { c with orphans := l }) s) := by
  have hexec : exec (.orphanExpiry ep) s = execOrphanExpiry ep s := rfl
  simp only [hexec, execOrphanExpiry, h]
  rfl

section
variable {body : List Byte} (hm : mayDispatch s o = true) (hl : body.length = 4)
include hm hl

theorem exec_getOrphan_badCount (h : field body 0 1 = 0 ∨ 16 < field body 0 1) :
    exec (.getOrphan o body) s = .next (reply o ST_BAD_PARAM [] (dispatch o s)) := by
  change execGetOrphan o body s = _
  unfold execGetOrphan
  rw [command_runs hm hl]
  exact congrArg Host.Outcome.next (if_pos (h.imp_right .inl))

theorem exec_getOrphan {l : List (EntryPoint × Nat × List Byte × Nat)} (h0 : 0 < field body 0 1) (h16 : field body 0 1 ≤ 16)
    (hz : zeroAt body 1 3 = true) (he : l = (s.cmd.orphans.filter fun x => x.1 == o.ep && x.2.2.2 == o.session).take (field body 0 1)) :
    exec (.getOrphan o body) s = .next (reply o ST_OK
      (beBytes 1 l.length ++ [0, 0, 0] ++ (l.map fun x => orphanRecord x.2.2.1).flatten)
      (updCmd (fun c => { c with orphans := c.orphans.filter fun x => !l.contains x }) (dispatch o s))) := by
  have hgood : ¬ (field body 0 1 = 0 ∨ 16 < field body 0 1 ∨ zeroAt body 1 3 = false) := by
    rw [hz]
    rintro (h | h | h)
    · omega
    · omega
    · cases h
  subst he
  change execGetOrphan o body s = _
  unfold execGetOrphan
  rw [command_runs hm hl]
  exact congrArg Host.Outcome.next (if_neg hgood)

end

end

/-- Settles O37: each command by its equation, the sessions by what ends one and what a grant opens. -/
theorem relaysOrphansAndSessions : Obligations.RelaysOrphansAndSessions := by
  unfold Obligations.RelaysOrphansAndSessions
  refine ⟨fun s => ⟨fun f l t hf ht => ?_, exec_cmdReplyReceive_none, fun tag o hr => ?_, fun _ => exec_relayTimeout_none,
      fun ep x l h => ?_, fun o body n hm hl hn hz => ?_⟩,
    fun s => ⟨fun o body g hm hl hg => ?_, fun o hm => ⟨exec_session_none hm, fun x hx => ?_⟩, fun n x hx => ?_,
      fun _ => exec_sessionIdleTimeout_stays, fun _ => exec_sessionExpiry_none⟩⟩
  case refine_1 =>
    subst ht
    exact ⟨fun o ht hr => ⟨_, exec_cmdReplyReceive_cmd hf ht hr, relay_relayFreed, rfl⟩, fun p ht => cmdReplyReceive_assign hf ht,
      fun ht hr => ⟨cmdReplyReceive_late hf ht hr, cmdReplyReceive_unknown hf ht hr⟩⟩
  case refine_2 => exact ⟨_, exec_relayTimeout_cmd hr, relay_setRelay_same, List.mem_cons_self .., relayLate_only⟩
  case refine_3 =>
    refine ⟨_, exec_orphanExpiry h, ?_⟩
    by_cases hep : ep = .svc
    · rw [if_pos hep]
      refine ⟨rfl, fun _ => ?_, fun hne => absurd hep hne⟩
      rw [rd_wr_same (by decide)]
      exact Nat.mod_eq_of_lt (Nat.lt_of_le_of_lt (Nat.min_le_left ..) (by decide))
    · rw [if_neg hep]
      exact ⟨rfl, fun h => absurd h hep, fun _ => rfl⟩
  case refine_4 =>
    subst hn
    exact ⟨fun h0 h16 l he => ⟨_, exec_getOrphan hm hl h0 h16 hz he, rfl⟩, exec_getOrphan_badCount hm hl⟩
  case refine_5 =>
    subst hg
    refine ⟨fun h => ⟨_, exec_sessionOpen_denied hm hl h, fun _ => mem_sessionsPruned⟩, fun hg hk hall => ?_,
      fun hg hk n h0 h32 hn hlow => ?_⟩
    · refine ⟨_, exec_sessionOpen_busy hm hl hg hk (freeSession_eq_none fun k hk0 hk32 => ?_)⟩
      obtain ⟨x, hx, hnum, hopen⟩ := hall k hk0 hk32
      exact ⟨x, sessionsPruned_keepsOpen hx hopen, hnum⟩
    · have hfree : freeSession (sessionsPruned o s) = some n := by
        refine freeSession_eq_some h0 h32 (fun x hx => hn x (mem_sessionsPruned hx)) fun k hk0 hkn => ?_
        obtain ⟨x, hx, hnum, hopen⟩ := hlow k hk0 hkn
        exact ⟨x, sessionsPruned_keepsOpen hx hopen, hnum⟩
      obtain ⟨t, nd, hexec, hsessions⟩ := exec_sessionOpen_opens hm hl hg hk hfree
      refine ⟨t, grantedSession s o body n nd, nd, hexec, ?_, rfl, rfl, rfl, rfl, rfl, rfl, rfl, rfl, rfl, rfl, rfl⟩
      rw [hsessions]
      exact List.mem_append_right _ (List.mem_singleton_self _)
  case refine_6 =>
    obtain ⟨hclose, hinfo⟩ := exec_session_some hm hx
    exact ⟨⟨_, hclose, openSession_endSession_same⟩, hinfo⟩
  case refine_7 =>
    refine ⟨fun hi => ⟨_, exec_sessionIdleTimeout_ends hi hx, openSession_endSession_same, endSession_only,
      fun k => openSession_endSession_other⟩, fun hlt hne => ⟨_, (exec_sessionExpiry hx).trans (if_pos ⟨hlt, hne⟩),
      openSession_endSession_same, endSession_only, fun k => openSession_endSession_other⟩,
      fun hle => (exec_sessionExpiry hx).trans (if_neg fun h => absurd h.1 (Nat.not_lt.2 hle))⟩

end Sys2Proof.Machine
end

section
/-! A cell time over a free stack that lists an index beyond its bank (R151, R154, R164). -/

namespace Sys2Proof.Machine

/-- A cell of P17 that is not charged to any reserve. -/
def strayHeld : Held :=
  { cell := { dst := 0, src := 0, tun := 0, tc := 0, typ := 0, f := true, l := true, vlen := 0, xpr := false, ver := 2, payload := [] }
    xseq := none, charged := false, policed := true, forced := none }

/-- Shared mode with nothing in the Comb but one cell, staged at P17 for class 0 of P0; the free stack of bank 0 lists index 16,384, one
past the last, so that the address it gives lies in bank 1. -/
def strayStack : State :=
  wr Reg.CMB.STAT.MODE 0 (updComb (fun c => { c with
    vcauses := [], freeStk := [(0, { ret := [16384], fresh := 0 })], staging := [(17, [⟨strayHeld, 17, [some 0]⟩])] }) State.reset)

/-- The write holds bank 0, and the address taken lies in bank 1, which no access holds. -/
theorem strayStack_cellTime : ∃ t, exec (.combCellTime none none) strayStack = .next t ∧
    (outQ t 0).map (fun e => (e.addr, Tab.get zeroN t.comb.busy (e.addr / 16384))) = [(16384, 0)] := by
  refine ⟨_, rfl, ?_⟩
  decide +kernel

theorem strayStack_staged {j : Nat} (h : j ≠ 17) : stagingOf strayStack j = [] :=
    Tab.get_set_other (fun _ => ([] : List Staged)) h [⟨strayHeld, 17, [some 0]⟩] []

/-- Refutes O21: the statement assumes nothing of the free stacks. In a state whose bank 0 lists an index past its last, COMB_CELL_TIME
writes the staged cell at an address of bank 1 and holds bank 0, so the bank of the cell's address is not held for two cell times. -/
theorem not_heldCellsEnterTheComb : ¬ Obligations.HeldCellsEnterTheComb := by
  unfold Obligations.HeldCellsEnterTheComb
  rintro ⟨-, hrows⟩
  obtain ⟨-, -, -, -, -, -, hwrite⟩ := hrows 0 strayStack
  obtain ⟨t, e, ht, hq, -, -, -, -, -, hbusy⟩ := hwrite 17 strayHeld 0 (by decide +kernel) (fun j hj => strayStack_staged hj) (by decide)
    (by decide +kernel) rfl (fun _ => rfl) (fun _ => rfl) rfl (fun _ _ => rfl) rfl ⟨0, by decide +kernel⟩
  obtain ⟨u, hu, hstray⟩ := strayStack_cellTime
  obtain rfl : t = u := by injection ht.symm.trans hu
  rw [hq] at hstray
  simp [hbusy] at hstray

end Sys2Proof.Machine
end
